-- ==== Sys2Proof/Word.lean ====
section
/-! DEFINITION. The word types of the Tazil Y8 model (spec/00_scope.md, R5, R32): bytes, 32-bit
register words, 64-bit counters and the 2,048 data bits of a skein flit (R78). -/

namespace Sys2Proof

/-- One byte (R5). -/
abbrev Byte := BitVec 8

/-- One 32-bit register (R32). -/
abbrev Word := BitVec 32

/-- One 64-bit counter or DRAM word (R11, R32). -/
abbrev DWord := BitVec 64

/-- The data of one skein flit: 256 bytes, byte 0 in bits [7:0] (R78). -/
abbrev FlitData := BitVec 2048

end Sys2Proof
end

