-- ==== Sys2Proof/Config.lean ====
section
/-! DEFINITION. What an implementation fixes and the free values: constants with no body, so that no
proof can see what they are.  Each one is named in the assumption log. -/

namespace Sys2Proof.Config

/-- Free value number `n`: a value some rule leaves open while the machine goes on (log 6). -/
opaque freeNat : Nat → Nat

/-- Bytes the DRBG delivers (R496): draw number `n` gives a number of any size (log 7). -/
opaque drbg : Nat → Nat

/-- SHA-384 digest of the command processor's ROM, as a 384-bit number (R495, R497; log 8). -/
opaque romDigest : Nat

/-- Where a dense MX stationary operand keeps the element of a K row and a column, for a format code:
the LOADW row and the bit offset in its flit (R590 names the layout and no rule gives it; log 9). -/
opaque mxDenseElem : Nat → Nat → Nat → Nat × Nat

/-- Where a dense MX stationary operand keeps the scale byte of a block of 32 K rows and a column, for a format code: row
and byte (log 9). -/
opaque mxDenseScale : Nat → Nat → Nat → Nat × Nat

/-- Number of flits of a dense MX stationary operand's layout (R590; log 9). -/
opaque mxDenseFlits : Nat → Nat

/-- The first canonical index of another participant's block: by engine counter base, step and rank (R328, R333);
the manual gives the engine no place to read it (log 64). -/
opaque cidxOf : Nat → Nat → Nat → Nat

/-- Bytes of the ordering-part fuses, by part code: the manual gives their digest a place in the quote and no layout
(R499; log 36). -/
opaque partFuses : Nat → List Byte

/-- Bytes of the configuration fuses, by part code, software MAC, OWNER_DIG as a number (0 where unburned) and KT_CTR bits
burned: measured into M1, and given no layout (R497; log 36). -/
opaque configFuses : Nat → Nat → Nat → Nat → List Byte

/-- Spare wires in use in a seam bundle, by part code: fused at the factory (R264; log 165). -/
opaque seamSpare : Nat → Nat → Nat

/-- Test power in watts of a unit of shared logic, a management core or a lane, by part code and unit ID: fixed in ROM and
not given (R385; log 70). -/
opaque testPower : Nat → Nat → Nat

end Sys2Proof.Config
end

