-- ==== Sys2Proof/Machine/Tab.lean ====
section
/-! DEFINITION. Sparse tables in one canonical form: a list of key and value pairs whose keys rise
strictly and which lists no entry equal to what an unlisted key reads as.  Memory, the register file
and every large array of the machine are held this way, so that equal tables are equal data. -/

namespace Sys2Proof.Machine

/-- The value at key `k`, `d` where nothing is listed. -/
def tget {α : Type} (d : α) : List (Nat × α) → Nat → α
  | [], _ => d
  | (k', v) :: r, k => if k = k' then v else tget d r k

/-- Writes `v` at key `k`; writing the value an unlisted key reads as removes the entry. -/
def tset {α : Type} [DecidableEq α] (d : α) : List (Nat × α) → Nat → α → List (Nat × α)
  | [], k, v => if v = d then [] else [(k, v)]
  | (k', w) :: r, k, v =>
    if k < k' then (if v = d then (k', w) :: r else (k, v) :: (k', w) :: r)
    else if k = k' then (if v = d then r else (k, v) :: r)
    else (k', w) :: tset d r k v

/-- Every key of `t` is above `b`. -/
def tabove {α : Type} (b : Nat) (t : List (Nat × α)) : Bool := t.all (fun p => decide (b < p.1))

/-- The canonical form: keys rise strictly and no entry reads as an unlisted key does. -/
def twf {α : Type} [DecidableEq α] (d : α) : List (Nat × α) → Bool
  | [] => true
  | (k, v) :: r => tabove k r && decide (v ≠ d) && twf d r

/-- Applies `f` to the value at key `k`. -/
def tmod {α : Type} [DecidableEq α] (d : α) (t : List (Nat × α)) (k : Nat) (f : α → α) :
    List (Nat × α) := tset d t k (f (tget d t k))

/-- The keys listed in `t`. -/
def tkeys {α : Type} (t : List (Nat × α)) : List Nat := t.map (·.1)

/-- Element `n` of a list replaced; the list unchanged where it has no element `n`. -/
def lset {α : Type} : List α → Nat → α → List α
  | [], _, _ => []
  | _ :: r, 0, v => v :: r
  | x :: r, n + 1, v => x :: lset r n v

/-- Bits `[hi:lo]` of a number. -/
def bitsOf (w hi lo : Nat) : Nat := (w >>> lo) % 2 ^ (hi + 1 - lo)

/-- Bit `n` of a number. -/
def bitOf (w n : Nat) : Bool := w.testBit n

/-- `w` with bits `[hi:lo]` replaced by those of `v`. -/
def setBits (w hi lo v : Nat) : Nat :=
  w - (bitsOf w hi lo) * 2 ^ lo + (v % 2 ^ (hi + 1 - lo)) * 2 ^ lo

/-- A number cut to `b` bits. -/
def trunc (b w : Nat) : Nat := w % 2 ^ b

/-- The signed reading of a `b`-bit field. -/
def sext (b w : Nat) : Int :=
  let u := w % 2 ^ b
  if u < 2 ^ (b - 1) then (u : Int) else (u : Int) - (2 ^ b : Nat)

/-- A signed number as a `b`-bit two's-complement field. -/
def unsext (b : Nat) (i : Int) : Nat := (i % ((2 ^ b : Nat) : Int)).toNat

/-- Saturating count: `n + 1`, stopping at `m`. -/
def satInc (m n : Nat) : Nat := if n < m then n + 1 else m

/-- Little-endian bytes to a number (R5). -/
def leNat : List Byte → Nat
  | [] => 0
  | b :: r => b.toNat + 256 * leNat r

/-- A number as `n` little-endian bytes (R5). -/
def toLE : Nat → Nat → List Byte
  | 0, _ => []
  | n + 1, w => BitVec.ofNat 8 w :: toLE n (w / 256)

/-- Big-endian bytes to a number. -/
def beNat (l : List Byte) : Nat := leNat l.reverse

/-- A number as `n` big-endian bytes. -/
def toBE (n w : Nat) : List Byte := (toLE n w).reverse

/-- `n` bytes of `l` from offset `o`; positions past the end read zero. -/
def sliceB (l : List Byte) (o n : Nat) : List Byte :=
  let x := (l.drop o).take n
  x ++ List.replicate (n - x.length) 0

/-- The little-endian number in `n` bytes of `l` from offset `o`. -/
def rdLE (l : List Byte) (o n : Nat) : Nat := leNat ((l.drop o).take n)

/-- `l` with the bytes `b` written at offset `o` (nothing past its end). -/
def patchB (l : List Byte) (o : Nat) (b : List Byte) : List Byte :=
  l.take o ++ b.take (l.length - o) ++ l.drop (o + b.length)

/-- The number whose `w`-bit lanes, lane 0 lowest, are the list. -/
def packLanes (w : Nat) : List Nat → Nat
  | [] => 0
  | x :: r => x % 2 ^ w + 2 ^ w * packLanes w r

/-- Lane `i` of width `w` of a number. -/
def lane (w d i : Nat) : Nat := (d >>> (w * i)) % 2 ^ w

/-- `n` lanes of width `w` of a number. -/
def lanes (w n d : Nat) : List Nat := (List.range n).map (lane w d)

end Sys2Proof.Machine
end

