-- ==== Sys2Proof/Machine/Num.lean ====
section
/-! DEFINITION. Arithmetic formats, exact accumulation and conversions (spec/02_numerics.md, R44 to
R72): every value is an exact dyadic number, rounded once at the end. -/

namespace Sys2Proof.Machine

/-- An exact dyadic number `man * 2 ^ exp`. -/
structure Dy where
  man : Int
  exp : Int
  deriving DecidableEq, Repr

/-- A decoded element (R45): a NaN, an infinity or a finite number with its sign bit. -/
inductive FVal where
  | nan
  | inf (neg : Bool)
  | fin (neg : Bool) (d : Dy)
  deriving DecidableEq, Repr

/-- How a format spends its special encodings (R45). -/
inductive Specials where
  | ieee    -- infinity and NaN in the top exponent
  | nanOnly -- 0x7F and 0xFF only
  | none
  deriving DecidableEq, Repr

/-- A floating-point element format (R45). -/
structure FFmt where
  ebits : Nat
  mbits : Nat
  bias : Nat
  spec : Specials
  deriving DecidableEq, Repr

def fFP32 : FFmt := ⟨8, 23, 127, .ieee⟩
def fBF16 : FFmt := ⟨8, 7, 127, .ieee⟩
def fE4M3 : FFmt := ⟨4, 3, 7, .nanOnly⟩
def fE5M2 : FFmt := ⟨5, 2, 15, .ieee⟩
def fE3M2 : FFmt := ⟨3, 2, 3, .none⟩
def fE2M3 : FFmt := ⟨2, 3, 1, .none⟩
def fE2M1 : FFmt := ⟨2, 1, 1, .none⟩

/-- Numeric flag bits of SPN_NUM_FLAGS (R71). -/
def ACC_OVF : Nat := 1
def ACC_INV : Nat := 2
def OUT_OVF : Nat := 4
def OUT_UNF : Nat := 8
def VEC_INV : Nat := 16
def DIV0 : Nat := 32
def FPOISON : Nat := 64

/-- The magnitude code of the largest finite number of a format (R45). -/
def FFmt.maxFin (f : FFmt) : Nat :=
  match f.spec with
  | .ieee => (2 ^ f.ebits - 1) * 2 ^ f.mbits - 1
  | .nanOnly => 2 ^ (f.ebits + f.mbits) - 2
  | .none => 2 ^ (f.ebits + f.mbits) - 1

/-- The sign bit of a format's code. -/
def FFmt.signBit (f : FFmt) : Nat := 2 ^ (f.ebits + f.mbits)

/-- The element a code stands for (R45). -/
def decodeF (f : FFmt) (c : Nat) : FVal :=
  let mag := c % f.signBit
  let neg := (c / f.signBit) % 2 = 1
  let e := mag / 2 ^ f.mbits
  let m := mag % 2 ^ f.mbits
  let fin : FVal :=
    let v : Int := if e = 0 then m else 2 ^ f.mbits + m
    let x : Int := (if e = 0 then 1 else (e : Int)) - f.bias - f.mbits
    .fin neg ⟨if neg then -v else v, x⟩
  match f.spec with
  | .ieee => if e = 2 ^ f.ebits - 1 then (if m = 0 then .inf neg else .nan) else fin
  | .nanOnly => if mag = 2 ^ (f.ebits + f.mbits) - 1 then .nan else fin
  | .none => fin

/-- `a * 2 ^ s` rounded to the nearest integer, ties to even. -/
def roundNE (a : Nat) (s : Int) : Nat :=
  if 0 ≤ s then a <<< s.toNat
  else
    let d := (-s).toNat
    let q := a >>> d
    let r := a - (q <<< d)
    let h := 1 <<< (d - 1)
    if h < r ∨ (r = h ∧ q % 2 = 1) then q + 1 else q

/-- The magnitude code nearest to `a * 2 ^ e`, before any limit: subnormals are kept (R57). -/
def roundMag (f : FFmt) (a : Nat) (e : Int) : Nat :=
  if a = 0 then 0
  else
    let k : Int := (a.log2 : Int) + e
    let emin : Int := 1 - (f.bias : Int)
    let q : Int := (if k < emin then emin else k) - f.mbits
    let n := roundNE a (e - q)
    (q + f.mbits + f.bias - 1).toNat * 2 ^ f.mbits + n

/-- The canonical NaN of a format (R59). -/
def FFmt.qnan (f : FFmt) : Nat :=
  match f.spec with
  | .ieee => if f.mbits = 2 then 0x7F else (2 ^ f.ebits - 1) * 2 ^ f.mbits + 2 ^ (f.mbits - 1)
  | .nanOnly => 0x7F
  | .none => 0

/-- Infinity, or a value beyond the largest finite one, as R58 gives it. -/
def FFmt.big (f : FFmt) (sat neg : Bool) : Nat :=
  let s := if neg then f.signBit else 0
  match f.spec with
  | .ieee =>
    if sat && f.ebits == 5 then s + f.maxFin else s + (2 ^ f.ebits - 1) * 2 ^ f.mbits
  | .nanOnly => if sat then s + f.maxFin else 0x7F
  | .none => s + f.maxFin

/-- One rounding of an exact value to a format with the flags of R58; `neg` is the sign of a zero. -/
def encodeFin (f : FFmt) (sat neg : Bool) (d : Dy) : Nat × Nat :=
  let sg := if d.man = 0 then neg else decide (d.man < 0)
  let s := if sg then f.signBit else 0
  if d.man = 0 then (s, 0)
  else
    let m := roundMag f d.man.natAbs d.exp
    if f.maxFin < m then (f.big sat sg, OUT_OVF)
    else if m = 0 then (s, OUT_UNF)
    else (s + m, 0)

/-- Conversion of any value to a floating-point format (R58, R59). -/
def encodeF (f : FFmt) (sat : Bool) : FVal → Nat × Nat
  | .nan => (f.qnan, 0)
  | .inf n => (f.big sat n, 0)
  | .fin n d => encodeFin f sat n d

/-- Aligns two dyadics to one exponent. -/
def dyAlign (a b : Dy) : Int × Int × Int :=
  let e := min a.exp b.exp
  (a.man * 2 ^ (a.exp - e).toNat, b.man * 2 ^ (b.exp - e).toNat, e)

def dyAdd (a b : Dy) : Dy := let (x, y, e) := dyAlign a b; ⟨x + y, e⟩
def dyMul (a b : Dy) : Dy := ⟨a.man * b.man, a.exp + b.exp⟩
def dyNeg (a : Dy) : Dy := ⟨-a.man, a.exp⟩
/-- `a < b` as exact numbers. -/
def dyLt (a b : Dy) : Bool := let (x, y, _) := dyAlign a b; decide (x < y)
def dyEq (a b : Dy) : Bool := let (x, y, _) := dyAlign a b; decide (x = y)

/-- The value in units of `2 ^ lsb` rounded toward minus infinity (R50 step 3). -/
def dyFloor (a : Dy) (lsb : Int) : Int :=
  if lsb ≤ a.exp then a.man * 2 ^ (a.exp - lsb).toNat
  else Int.fdiv a.man (2 ^ (lsb - a.exp).toNat)

def FVal.isNan : FVal → Bool
  | .nan => true
  | _ => false
def FVal.isZero : FVal → Bool
  | .fin _ d => decide (d.man = 0)
  | _ => false
def FVal.neg : FVal → FVal
  | .nan => .nan
  | .inf n => .inf (!n)
  | .fin n d => .fin (!n) (dyNeg d)
def FVal.sign : FVal → Bool
  | .nan => false
  | .inf n => n
  | .fin n _ => n

/-! ### Vector arithmetic (R63, R64): a value and whether the operation was invalid. -/

/-- Addition before rounding; a zero sum of opposite signs is +0 (round to nearest). -/
def fAddX (a b : FVal) : FVal × Bool :=
  match a, b with
  | .nan, _ => (.nan, false)
  | _, .nan => (.nan, false)
  | .inf x, .inf y => if x = y then (.inf x, false) else (.nan, true)
  | .inf x, _ => (.inf x, false)
  | _, .inf y => (.inf y, false)
  | .fin x p, .fin y q =>
    let r := dyAdd p q
    (.fin (if r.man = 0 then x && y else decide (r.man < 0)) r, false)

/-- Multiplication before rounding. -/
def fMulX (a b : FVal) : FVal × Bool :=
  match a, b with
  | .nan, _ => (.nan, false)
  | _, .nan => (.nan, false)
  | .inf x, .inf y => (.inf (x != y), false)
  | .inf x, .fin y q => if q.man = 0 then (.nan, true) else (.inf (x != y), false)
  | .fin x p, .inf y => if p.man = 0 then (.nan, true) else (.inf (x != y), false)
  | .fin x p, .fin y q => (.fin (x != y) (dyMul p q), false)

/-- Fused multiply-add before its one rounding; a product 0 times infinity is invalid even where the
addend is a NaN only if no operand is a NaN (R64). -/
def fFmaX (a b c : FVal) : FVal × Bool :=
  let p := fMulX a b
  if p.2 then (.nan, !c.isNan)
  else fAddX p.1 c

/-- Rounds an exact result to a format and reports the flags. -/
def finish (f : FFmt) (sat : Bool) (r : FVal × Bool) : Nat × Nat :=
  let e := encodeF f sat r.1
  (e.1, e.2 ||| (if r.2 then VEC_INV else 0))

/-- The order of IEEE 754-2019 minimum and maximum: −0 below +0 (R63). -/
def fLess (a b : FVal) : Bool :=
  match a, b with
  | .nan, _ => false
  | _, .nan => false
  | .inf x, .inf y => x && !y
  | .inf x, _ => x
  | _, .inf y => !y
  | .fin x p, .fin y q =>
    if p.man = 0 && q.man = 0 then x && !y else dyLt p q

def fMinX (a b : FVal) : FVal × Bool :=
  if a.isNan || b.isNan then (.nan, false) else (if fLess b a then b else a, false)
def fMaxX (a b : FVal) : FVal × Bool :=
  if a.isNan || b.isNan then (.nan, false) else (if fLess a b then b else a, false)

/-- Numeric comparison, both zeros equal: some false where unordered (R63). -/
inductive COrd where | lt | eq | gt | un
  deriving DecidableEq, Repr

def fCompare (a b : FVal) : COrd :=
  match a, b with
  | .nan, _ => .un
  | _, .nan => .un
  | .inf x, .inf y => if x = y then .eq else if x then .lt else .gt
  | .inf x, _ => if x then .lt else .gt
  | _, .inf y => if y then .gt else .lt
  | .fin _ p, .fin _ q => if dyEq p q then .eq else if dyLt p q then .lt else .gt

/-- One FP32 addition rounded to nearest even, on codes (R60). -/
def addF32 (a b : Nat) : Nat × Nat :=
  finish fFP32 false (fAddX (decodeF fFP32 a) (decodeF fFP32 b))

/-! ### Format codes (R44). -/

/-- The floating-point layout of a format code's element, where it has one (R44). -/
def fmtOf : Nat → Option FFmt
  | 0 => some fFP32
  | 1 => some fBF16
  | 2 => some fE4M3
  | 3 => some fE5M2
  | 4 => some fE4M3
  | 5 => some fE5M2
  | 6 => some fE3M2
  | 7 => some fE2M3
  | 8 => some fE2M1
  | _ => none

/-- Bits per element of a format code (R44). -/
def fmtBits : Nat → Nat
  | 0 => 32
  | 1 => 16
  | 2 => 8
  | 3 => 8
  | 4 => 8
  | 5 => 8
  | 6 => 6
  | 7 => 6
  | 8 => 4
  | 9 => 8
  | 10 => 192
  | 11 => 32
  | _ => 0

/-- MX codes (R44). -/
def isMX (c : Nat) : Bool := decide (4 ≤ c) && decide (c ≤ 8)

/-- The operand family of a matrix code (R48): 1 plain FP8, 2 MX, 3 INT8, 4 BF16, 0 none. -/
def family : Nat → Nat
  | 1 => 4
  | 2 => 1
  | 3 => 1
  | 4 => 2
  | 5 => 2
  | 6 => 2
  | 7 => 2
  | 8 => 2
  | 9 => 3
  | _ => 0

/-- The value of an element code of any numeric format (R45; INT8 and INT32 are exact integers). -/
def decodeElem (fmt c : Nat) : FVal :=
  match fmt with
  | 9 => let v := sext 8 c; .fin (decide (v < 0)) ⟨v, 0⟩
  | 11 => let v := sext 32 c; .fin (decide (v < 0)) ⟨v, 0⟩
  | f => match fmtOf f with
    | some l => decodeF l c
    | none => .fin false ⟨0, 0⟩

/-- An E8M0 scale (R46): none for NaN. -/
def scaleExp (x : Nat) : Option Int := if x = 255 then none else some ((x : Int) - 127)

/-! ### The exact accumulator (R49 to R57). -/

/-- One exact accumulator (R49): 120-bit SUM, 24-bit COUNT, 9-bit LSB and six one-bit marks. -/
structure Acc where
  sum : BitVec 120 := 0
  count : BitVec 24 := 0
  lsb : BitVec 9 := 0
  pinf : Bool := false
  ninf : Bool := false
  nan : Bool := false
  inv : Bool := false
  clamp : Bool := false
  poison : Bool := false
  deriving DecidableEq, Repr

/-- A term (R50, R52). -/
inductive Term where
  | poison
  | nan (invalid : Bool)
  | pinf
  | ninf
  | fin (d : Dy)
  deriving DecidableEq, Repr

/-- The state CLEAR leaves (R591). -/
def accClear (lsb : BitVec 9) : Acc := { lsb := lsb }

/-- A floored term clamped to 96 bits, and whether the clamp changed it (R50 step 4). -/
def clamp96 (f : Int) : Int × Bool :=
  if f > 2 ^ 95 - 1 then (2 ^ 95 - 1, true)
  else if f < -(2 ^ 95) then (-(2 ^ 95), true)
  else (f, false)

/-- `acc_add` of R53: none where the count limit refuses the term. -/
def accAdd (a : Acc) (t : Term) : Option Acc :=
  if a.count = 0xFFFFFF#24 then none
  else
    let a := { a with count := a.count + 1 }
    match t with
    | .poison => some { a with poison := true }
    | .nan i => some { a with nan := true, inv := a.inv || i }
    | .pinf => some { a with pinf := true }
    | .ninf => some { a with ninf := true }
    | .fin d =>
      let c := clamp96 (dyFloor d a.lsb.toInt)
      some { a with sum := a.sum + BitVec.ofInt 120 c.1, clamp := a.clamp || c.2 }

/-- The term of one product (R50 step 1, R52). -/
def prodTerm (a b : FVal) : Term :=
  match fMulX a b with
  | (.nan, i) => .nan i
  | (.inf true, _) => .ninf
  | (.inf false, _) => .pinf
  | (.fin _ d, _) => .fin d

/-- The running sum of a block pair's products (R52): NaN seen, invalid seen, both infinities, sum. -/
structure BlockSum where
  nan : Bool := false
  inv : Bool := false
  pinf : Bool := false
  ninf : Bool := false
  sum : Dy := ⟨0, 0⟩
  deriving DecidableEq, Repr

def blockStep (s : BlockSum) (ab : FVal × FVal) : BlockSum :=
  match prodTerm ab.1 ab.2 with
  | .poison => s
  | .nan i => { s with nan := true, inv := s.inv || i }
  | .pinf => { s with pinf := true }
  | .ninf => { s with ninf := true }
  | .fin d => { s with sum := dyAdd s.sum d }

/-- The term of one MX block pair (R50 step 2, R52). -/
def blockTerm (scaleA scaleB : Nat) (ps : List (FVal × FVal)) : Term :=
  match scaleExp scaleA, scaleExp scaleB with
  | some x, some y =>
    let s := ps.foldl blockStep {}
    let both := s.pinf && s.ninf
    if s.nan || both then .nan (s.inv || both)
    else if s.pinf then .pinf
    else if s.ninf then .ninf
    else .fin ⟨s.sum.man, s.sum.exp + x + y⟩
  | _, _ =>
    let s := ps.foldl blockStep {}
    .nan (s.inv || (s.pinf && s.ninf))

/-- READ of one accumulator (R57): the code, the flags, and whether it carries poison. -/
def accRead (f : FFmt) (sat : Bool) (a : Acc) : Nat × Nat × Bool :=
  if a.poison then (0, 0, true)
  else if a.nan || (a.pinf && a.ninf) then
    (f.qnan, if a.inv || (a.pinf && a.ninf) then ACC_INV else 0, false)
  else if a.pinf then (f.big sat false, 0, false)
  else if a.ninf then (f.big sat true, 0, false)
  else
    let c := clamp96 a.sum.toInt
    let r := encodeFin f sat false ⟨c.1, a.lsb.toInt⟩
    (r.1, r.2 ||| (if c.2 || a.clamp then ACC_OVF else 0), false)

/-- The 24 bytes of an accumulator record as a number (R54). -/
def accRecord (a : Acc) : Nat :=
  let b (x : Bool) : Nat := if x then 1 else 0
  a.sum.toNat + 2 ^ 120 * (b a.pinf + 2 * b a.ninf + 4 * b a.nan + 8 * b a.clamp
    + 16 * b a.poison + 32 * b a.inv)
    + 2 ^ 128 * a.count.toNat + 2 ^ 152 * unsext 16 a.lsb.toInt

/-- A record read back: none where R56 calls it poisoned for its LSB or reserved bits. -/
def accOfRecord (r : Nat) : Option Acc :=
  let fl := bitsOf r 127 120
  let l := sext 16 (bitsOf r 167 152)
  if fl / 64 ≠ 0 ∨ bitsOf r 191 168 ≠ 0 ∨ l < -256 ∨ 255 < l then none
  else some { sum := BitVec.ofNat 120 r, count := BitVec.ofNat 24 (bitsOf r 151 128),
              lsb := BitVec.ofInt 9 l, pinf := fl.testBit 0, ninf := fl.testBit 1,
              nan := fl.testBit 2, clamp := fl.testBit 3, poison := fl.testBit 4,
              inv := fl.testBit 5 }

/-- What LOAD or MERGE of a record gives. -/
inductive AccOp where
  | ok (a : Acc)
  | limit          -- event 0x0305
  | lsb (r : Int)  -- event 0x0306 with the record's LSB
  deriving DecidableEq, Repr

/-- LOAD (R55, R56): `poisoned` says a word of the record carries poison. -/
def accLoad (a : Acc) (r : Nat) (poisoned : Bool) : AccOp :=
  match (if poisoned then none else accOfRecord r) with
  | none => .ok { accClear a.lsb with poison := true }
  | some x => if x.lsb = a.lsb then .ok x else .lsb x.lsb.toInt

/-- MERGE (R53, R55, R56). -/
def accMerge (a : Acc) (r : Nat) (poisoned : Bool) : AccOp :=
  match (if poisoned then none else accOfRecord r) with
  | none => .ok { a with poison := true }
  | some x =>
    if x.lsb ≠ a.lsb then .lsb x.lsb.toInt
    else if 16777215 < a.count.toNat + x.count.toNat then .limit
    else .ok { a with sum := a.sum + x.sum, count := a.count + x.count, pinf := a.pinf || x.pinf,
                      ninf := a.ninf || x.ninf, nan := a.nan || x.nan, inv := a.inv || x.inv,
                      clamp := a.clamp || x.clamp, poison := a.poison || x.poison }

/-! ### Conversions (R65). -/

/-- One rounding to a signed integer of `b` bits, saturating (R58, R65). -/
def toInt (b : Nat) (v : FVal) : Nat × Nat :=
  let hi : Int := 2 ^ (b - 1) - 1
  let lo : Int := -(2 ^ (b - 1))
  match v with
  | .nan => (0, VEC_INV)
  | .inf n => (unsext b (if n then lo else hi), OUT_OVF)
  | .fin _ d =>
    let m : Int := roundNE d.man.natAbs d.exp
    let i := if d.man < 0 then -m else m
    if hi < i then (unsext b hi, OUT_OVF)
    else if i < lo then (unsext b lo, OUT_OVF)
    else (unsext b i, 0)

/-- The exponent of an element format's largest normal (R65). -/
def emaxOf : Nat → Int
  | 4 => 8
  | 5 => 15
  | 6 => 4
  | 7 => 2
  | _ => 2

/-- Floor of the base-2 logarithm of a nonzero magnitude. -/
def dyLog2 (d : Dy) : Int := (d.man.natAbs.log2 : Int) + d.exp

/-- A saturating rounding to an MX element (R65): the largest finite value with OUT_OVF. -/
def mxElem (f : FFmt) (neg : Bool) (d : Dy) : Nat × Nat :=
  let s := if (if d.man = 0 then neg else decide (d.man < 0)) then f.signBit else 0
  let m := roundMag f d.man.natAbs d.exp
  if f.maxFin < m then (s + f.maxFin, OUT_OVF)
  else (s + m, if m = 0 ∧ d.man ≠ 0 then OUT_UNF else 0)

/-- The conversion of a block of 32 values to an MX format (R65): scale, element codes, flags. -/
def mxBlock (fmt : Nat) (vs : List FVal) : Nat × List Nat × Nat :=
  let bad := vs.any (fun v => match v with | .fin _ _ => false | _ => true)
  let mags := vs.filterMap (fun v => match v with
    | .fin _ d => if d.man = 0 then none else some (dyLog2 d)
    | _ => none)
  if bad then (255, vs.map (fun _ => 0), 0)
  else match mags with
  | [] => (0x7F, vs.map (fun _ => 0), 0)
  | m :: r =>
    let top := r.foldl max m
    let x := min 254 (max 0 (top - emaxOf fmt + 127))
    let f := (fmtOf fmt).getD fE2M1
    let es := vs.map (fun v => match v with
      | .fin n d => mxElem f n ⟨d.man, d.exp - (x - 127)⟩
      | _ => (0, 0))
    (x.toNat, es.map (·.1), es.foldl (fun a e => a ||| e.2) 0)

/-- A block of MX elements with its scale as values (R46). -/
def mxValue (fmt scale c : Nat) : FVal :=
  match scaleExp scale with
  | none => .nan
  | some x => match decodeElem fmt c with
    | .fin n d => .fin n ⟨d.man, d.exp + x⟩
    | v => v

/-- The pairwise tree of R60, level by level, with `fuel` levels at most. -/
def canonPairs : List Nat → List Nat
  | a :: b :: r => (addF32 a b).1 :: canonPairs r
  | l => l

def canonSum : Nat → List Nat → Nat
  | 0, l => l.headD 0
  | n + 1, l => match l with
    | [] => 0
    | [x] => x
    | l => canonSum n (canonPairs l)

end Sys2Proof.Machine
end

