-- ==== Sys2Proof/Machine/Data.lean ====
section
/-! DEFINITION. The data types the State is built from, unit by unit.  Large arrays are sparse tables
in canonical form (Machine/Tab.lean); every structure is plain data. -/

namespace Sys2Proof.Machine

/-! ### The spindle (spec/03_spindle.md, 04, 05, 06). -/

/-- A flit with its sidecar (R78): `ctl` is KIND, `nw` is NWORDS (words minus one). -/
structure Flit where
  data : FlitData := 0
  pword : BitVec 32 := 0
  tag : BitVec 8 := 0
  gen : BitVec 2 := 0
  ctl : Bool := false
  nw : BitVec 5 := 31
  deriving DecidableEq, Repr

/-- A matching-store entry (R80). -/
structure StoreEnt where
  unit : Nat
  port : Nat
  flit : Flit
  deriving DecidableEq, Repr

/-- An operation in a unit pipeline, `left` skein cycles from its end; `out` is the flit that then
leaves on `port`, none for an accumulator update (R73); `row` is the row state a FIN or SPILL took, whose
merges must be complete before it leaves (R211). -/
structure PipeEnt where
  unit : Nat
  port : Nat
  left : Nat
  out : Option Flit
  row : Option Nat := none
  deriving DecidableEq, Repr

/-- A flit on a route, `left` skein cycles from the input port it goes to (R123); `src` is the output port it left
(unit · 2 + port) and `age` the cycles since, so that the branches of a forked flit are one flit (R101). -/
structure LinkEnt where
  unit : Nat
  port : Nat
  left : Nat
  flit : Flit
  src : Nat := 0
  age : Nat := 0
  deriving DecidableEq, Repr

/-- A sluice entry, reserved until `filled` (R86); `op` is the operation that will fill it. -/
structure SlEnt where
  sl : Nat
  tag : BitVec 8
  gen : BitVec 2
  filled : Bool
  flit : Flit
  op : Nat
  deriving DecidableEq, Repr

/-- What an operation in flight is (R93, R145, R184, R211, R274). -/
inductive OpKind where
  | read | write | atom | recv | send | watch | job | jobWrite | merge
  deriving DecidableEq, Repr

/-- An operation in flight (R93, R261): `left` counts the sluice fills or packets still to come, and
`cnt` is the completion counter or channel. -/
structure OpEnt where
  id : Nat
  kind : OpKind
  gen : BitVec 2
  fwd : Bool
  sl : Nat
  tag : BitVec 8
  cnt : Nat
  addr : Nat
  len : Nat
  left : Nat
  issued : DWord
  poison : Bool
  seq : Nat
  deriving DecidableEq, Repr

/-- A trip-store entry (R132). -/
structure TripEnt where
  steer : Nat
  tag : BitVec 8
  count : Word
  deriving DecidableEq, Repr

/-- An active loop (R131, R133): `start` and `len` are words of the strand; `first` until the iteration's first
skein cycle has been laid down (R136). -/
structure LoopEnt where
  trip : Word
  iter : Word
  start : Nat
  len : Nat
  dp : Bool
  first : Bool := true
  deriving DecidableEq, Repr

/-- A destination of a route: unit, input port and the hop it attaches at (R122). -/
structure RouteDest where
  unit : Nat
  port : Nat
  hop : Nat
  deriving DecidableEq, Repr

/-- A route of the current section (R122). -/
structure Route where
  unit : Nat
  port : Nat
  phases : BitVec 8
  dests : List RouteDest
  deriving DecidableEq, Repr

/-- A section configuration as loaded (R120): routes, and the settings bytes of each unit. -/
structure SectCfg where
  routes : List Route := []
  settings : List (List Byte) := []
  dmode : Bool := false
  deriving DecidableEq, Repr, Inhabited

/-- One flit of a tile's stationary operand with its poison marks (R161); `loaded` once a LOADW has
named it since the format or mode last changed (R165). -/
structure StatRow where
  data : FlitData := 0
  pword : BitVec 32 := 0
  loaded : Bool := false
  deriving DecidableEq, Repr

/-- A tile's stationary operand (R48, R165): format and mode of its last LOADW, and its rows. -/
structure Tile where
  fmt : Option Nat := none
  spm : Nat := 0
  rows : List (Nat × StatRow) := []
  deriving DecidableEq, Repr

/-- The pack and expand state of a vector unit (R171, R172): pending payload with the number of groups
that begin in the first 248 bytes counted through `starts` (offsets of group starts in `pend`); expand
bytes with their poison, and `begun` groups not yet consumed; `lost` after a flit whose header was poisoned, until a
stream begins. -/
structure Stream where
  pend : List Byte := []
  starts : List Nat := []
  offset : Nat := 0
  ppoison : Bool := false
  exp : List (Byte × Bool) := []
  begun : Nat := 0
  lost : Bool := false
  deriving DecidableEq, Repr

/-- A partial of a query row (R200): FP32 codes `m`, `l` and `o`. -/
structure Partial where
  first : BitVec 17 := 0
  last : BitVec 17 := 0
  node : Bool := false
  qpos : BitVec 24 := 0
  m : Word := 0
  l : Word := 0
  o : List Word := []
  poison : Bool := false
  deriving DecidableEq, Repr

/-- A merge waiting in a merge engine (R211); `taken` once a FIN or SPILL has taken its result. -/
structure MergeJob where
  row : Nat
  d : Nat
  part : Partial
  op : Nat
  taken : Bool := false
  deriving DecidableEq, Repr

/-- A sequence unit (R205, R211, R198): row states by ROW, merge queue, frequency tables by set. -/
structure SeqUnit where
  rows : List (Nat × Option Partial) := []
  queue : List MergeJob := []
  ftab : List (Nat × List DWord) := []
  deriving DecidableEq, Repr

/-- The jobs of the dispatch unit (R184). -/
inductive JobKind where
  | post | grant | scatter | ret | treset
  deriving DecidableEq, Repr

/-- A queued dispatch job with its parameter set, output tag and port (R184, R186). -/
structure DspJob where
  kind : JobKind
  pset : Nat
  otag : BitVec 8
  oport : Nat
  op : Nat
  deriving DecidableEq, Repr

/-- A phase of a dispatch (R189): packets counted, the expected total once known, the reference tick at
which it was armed, and its completion counter. -/
structure DspPhase where
  got : Nat := 0
  want : Option Nat := none
  armed : Option DWord := none
  done : Bool := false
  cc : Nat := 0
  deriving DecidableEq, Repr

/-- The dispatch unit (R177 to R190): descriptors and expert tables by set as the section load read
them, tallies keyed expert·8 + j, the token count p, the scores of the token in progress, jobs, phases
2 to 5 (keys 2 to 5), slots granted per local expert, and the sources by rank as their count blocks named
them (COORD, logical index). -/
structure Dsp where
  descs : List (Nat × List Byte) := []
  etabs : List (Nat × List Nat) := []
  p : Nat := 0
  tally : List (Nat × BitVec 16) := []
  scores : List Nat := []
  spoison : Bool := false
  excl : Bool := false
  jobs : List DspJob := []
  phases : List (Nat × DspPhase) := []
  kept : List Nat := []
  srcs : List (Nat × (Nat × Nat)) := []
  deriving DecidableEq, Repr, Inhabited

/-- What a spindle's drain serves (R103). -/
inductive DrainFor where
  | switch | fault | transfer | image
  deriving DecidableEq, Repr

/-- A drain in progress (R104 to R106): `point` once its drain point is reached, `done` once state is
shifted out; `scan` is its mode now. -/
structure Drain where
  why : DrainFor
  scan : Bool
  asked : DWord
  point : Bool
  ready : Bool
  deriving DecidableEq, Repr

/-- Where a section load stands (R100, R101). -/
inductive LoadStep where
  | none
  | draining      -- step 1: the section end is reached and the pipelines run empty
  | ending        -- CONTEXT_END executed, draining
  | waiting       -- step 3: drained, waiting for older operations and the configuration
  | forced        -- R101 step 3
  | start         -- R589: the first load of a context
  | restore       -- R108 step 2
  deriving DecidableEq, Repr, Inhabited

/-! ### Message channels (spec/08_on_die_interconnect.md). -/

/-- The state of an outbound channel or inbound queue (R277). -/
inductive ChanSt where
  | unbound | opened | ended | closed
  deriving DecidableEq, Repr

/-- A message of one to four words with their poison (R272). -/
structure ChanMsg where
  seq : BitVec 16
  words : List Word
  poison : BitVec 4
  deriving DecidableEq, Repr

/-- The binding of one end of a channel (R270). -/
structure ChanBind where
  remote : Bool
  coord : Nat
  logical : Nat
  chan : Nat
  deriving DecidableEq, Repr

/-- One outbound channel (R274, R277, R280): next sequence, credits, policy, binding, stall timer, and
whether its stall, hang and drop events were recorded. -/
structure OutChan where
  st : ChanSt := .unbound
  strict : Bool := false
  seq : BitVec 16 := 0
  credits : Nat := 0
  bind : Option ChanBind := none
  stall : Nat := 0
  told : Bool := false
  hung : Bool := false
  dropTold : Bool := false
  deriving DecidableEq, Repr

/-- One inbound queue (R272, R277, R280): head sequence, binding, messages held in sequence order,
receives posted and not yet filled (operation numbers), the sequence of the end marker, and its stall timer. -/
structure InQueue where
  st : ChanSt := .unbound
  head : BitVec 16 := 0
  bind : Option ChanBind := none
  held : List ChanMsg := []
  posted : List Nat := []
  endAt : Option (BitVec 16) := none
  stall : Nat := 0
  told : Bool := false
  hung : Bool := false
  deriving DecidableEq, Repr

/-- Everything a physical spindle holds beside its registers; `drainN` counts the drain ticks since the last skein
cycle (R74, R75); `dump` while it still holds a faulted context's state (R110, R411). -/
structure Spn where
  acc : List (Nat × Acc) := []
  tiles : List (Nat × Tile) := []
  store : List StoreEnt := []
  pipe : List PipeEnt := []
  links : List LinkEnt := []
  sluice : List SlEnt := []
  ops : List OpEnt := []
  slotUse : List (Nat × Nat) := []
  trips : List TripEnt := []
  counters : List (Nat × Word) := []
  cpoison : List Nat := []
  strand : List DWord := []
  pos : Nat := 0
  segStart : Nat := 0
  idleLeft : Nat := 0
  phase : BitVec 3 := 0
  drainN : BitVec 3 := 0
  loops : List LoopEnt := []
  cfg : SectCfg := {}
  nextSect : Nat := 0
  cfgReady : Bool := false
  load : LoadStep := .none
  flushed : Nat := 0
  drain : Option Drain := none
  streams : List (Nat × Stream) := []
  seqs : List (Nat × SeqUnit) := []
  dsp : Dsp := {}
  maskErr : Bool := false
  staleSeen : Nat := 0
  minpos : DWord := 0
  fresh : Bool := true
  dump : Bool := false
  inq : List (Nat × InQueue) := []
  outq : List (Nat × OutChan) := []
  deriving DecidableEq, Repr, Inhabited

/-- A spindle's state as a drain takes it out (R104, R106, R107), with the registers that go with it: what the scan
state of the save area holds beside the stated fields, and `img` the bytes it was written as (log 25). -/
structure Saved where
  spn : Spn := {}
  scan : Bool := false
  started : Bool := false
  num : Nat := 0
  skc : Nat := 0
  hold : Nat := 0
  step : Nat := 0
  sect : Nat := 0
  gen : Nat := 0
  strandReg : Nat := 0
  img : List Byte := []
  deriving DecidableEq, Repr, Inhabited

/-! ### The skein sequencer (spec/04_skein.md). -/

/-- What a context slot holds (R149, R152, R154, R447). -/
inductive CtxSt where
  | validating | ready | running | suspended | ended | faulted | restorePending
  deriving DecidableEq, Repr

/-- The poison policy of a context (R426). -/
inductive PoisonPolicy where
  | fault | carry
  deriving DecidableEq, Repr

/-- What the load descriptor gives a context (R535). -/
structure JobParams where
  img : Nat := 0
  len : Nat := 0
  save : Nat := 0
  chtab : Nat := 0
  coll : Nat := 0
  recBuf : Nat := 0
  recLen : Nat := 0
  jobtag : BitVec 12 := 0
  policy : PoisonPolicy := .fault
  seed : DWord := 0
  startStep : DWord := 0
  loss : Nat := 0
  excl : Nat := 0
  nexcl : Nat := 0
  outs : List (Nat × Nat) := []
  seals : List (Nat × Nat × Nat) := []
  deriving DecidableEq, Repr

/-- A seal of a context (R367, R368, R372): its ID, device addresses, seal step, and digest once hashed. -/
structure SealEnt where
  id : Nat
  lo : Nat
  hi : Nat
  step : Nat
  digest : List Byte := []
  done : Bool := false
  deriving DecidableEq, Repr

/-- A dropped-block entry (R372). -/
structure DropEnt where
  step : Nat
  ecb : Nat
  cidx : Nat
  cwlog : Nat
  deriving DecidableEq, Repr

/-- An open run record (R370, R371): what it took at opening, its counts, the causes of 0x0A41 already
recorded, the loss words fed to LOSS_DIGEST, and the counts of each logical spindle at opening. -/
structure RunRec where
  first : Nat
  timeOk : Bool
  poison : Bool := false
  replay : Bool := false
  drops : List DropEnt := []
  aMhz : Nat := 0
  pcap : Nat := 0
  fence : List Byte := []
  startTick : Nat := 0
  ptp : List Byte := []
  stretch : Nat := 0
  fchg : Nat := 0
  foreignCnt : Nat := 0
  told : List Nat := []
  loss : Nat := 0
  lossBytes : List Byte := []
  base : List (Nat × Nat) := []
  deriving DecidableEq, Repr

/-- A closed run record in the record buffer (R373, R374): its offset, length, its bytes without the
signature while it waits to be signed. -/
structure RecEnt where
  off : Nat
  len : Nat
  bytes : List Byte
  signed : Bool
  deriving DecidableEq, Repr

/-- A region of a checkpoint: its addresses in buffers 0 and 1 and its length (R439). -/
structure CkRegion where
  b0 : Nat
  b1 : Nat
  len : Nat
  deriving DecidableEq, Repr

/-- A destination of a checkpoint (R439). -/
structure CkDest where
  coord : Nat
  ep : Nat
  base : Nat
  deriving DecidableEq, Repr

/-- A checkpoint descriptor (R439). -/
structure CkDesc where
  auto : Bool
  doneCnt : Nat
  dests : List CkDest
  regions : List CkRegion
  deriving DecidableEq, Repr

/-- A resident context (R149 to R154): its job, what the header declares, its digest, per logical spindle
its saved state, its image (address and length), seals, run records
(R370 to R374, `recBase` the number of the first kept), checkpoint descriptor with releases owed and
whether one is due (R437 to R443), the VLOSS a restore awaits (R447), its final counts, and the collective
requests taken per logical spindle (R326). -/
structure Slot where
  ctx : BitVec 16
  st : CtxSt
  job : JobParams
  lcount : Nat
  tstrict : Bool
  numMode : Nat
  digest : List Byte
  fault : Nat := 0
  flags : Nat := 0
  step : DWord := 0
  startTick : DWord := 0
  started : Bool := false
  saved : List (Nat × Saved) := []
  rsvSeen : Bool := false
  parkLost : Bool := false
  image : Nat × Nat := (0, 0)
  seals : List SealEnt := []
  run : Option RunRec := none
  recs : List RecEnt := []
  recBase : Nat := 0
  cut : Bool := false
  ck : Option CkDesc := none
  owed : Nat := 0
  due : Bool := false
  ckStart : DWord := 0
  vloss : Option Word := none
  counts : List (Nat × Nat) := []
  consumed : List (Nat × Nat) := []
  deriving DecidableEq, Repr

/-- Why the running context gives way (R152, R153). -/
inductive GiveWay where
  | ended | fault | command | quantum
  deriving DecidableEq, Repr

/-- The run records of a context that has left its slot, kept until they are released (R374, R542): its ID,
the number of the first, the records, and the address of its record buffer. -/
structure GoneRecs where
  ctx : Nat
  base : Nat
  recs : List RecEnt
  buf : Nat
  deriving DecidableEq, Repr

/-- The sequencer: slots by number, load sequence number, reported positions by logical spindle, the
switch in progress with the reference tick it was called for and the slot it goes to. -/
structure Sequencer where
  slots : List (Nat × Option Slot) := []
  gone : List GoneRecs := []
  seqNo : Nat := 0
  positions : List (Nat × Nat) := []
  giving : Option GiveWay := none
  gaveAt : DWord := 0
  target : Option Nat := none
  lastSlot : Nat := 0
  deriving DecidableEq, Repr

/-! ### DRAM (spec/07_memory.md). -/

/-- A repair copy under way (R240). -/
structure RepairCopy where
  layer : Nat
  bank : Nat
  row : Nat
  spare : Nat
  start : DWord
  fuse : Bool
  deriving DecidableEq, Repr

/-- One channel's state beside its registers: retired spares (bank index and spare), the copies in progress, corrected-read
counts per row, windows of R234 and R241, sensor readings and the self-refresh exit timer. -/
structure Chan where
  retired : List (Nat × Nat) := []
  copies : List RepairCopy := []
  rowCe : List (Nat × (Nat × DWord)) := []
  lastEv : List (Nat × Option DWord) := []
  winStart : DWord := 0
  winCount : Nat := 0
  winTold : Bool := false
  temps : List (Nat × List Int) := []
  srStart : Option DWord := none
  scrubDone : Nat := 0
  refBank : Nat := 0
  report : Bool := false
  deriving DecidableEq, Repr

/-! ### Rings, control network and message channels (spec/08_on_die_interconnect.md). -/

/-- Why a stop absorbs (R258). -/
inductive AbsorbCause where
  | fenced | reset | off
  deriving DecidableEq, Repr

/-- An event record (R43). -/
structure EventRec where
  tick : DWord
  code : BitVec 16
  unit : BitVec 16
  ctx : BitVec 16
  sev : BitVec 4
  lost : Bool
  data : List Byte
  deriving DecidableEq, Repr

/-- A control-network node's event buffer (R269). -/
structure NodeBuf where
  recs : List EventRec := []
  lost : Bool := false
  run : Bool := false
  deriving DecidableEq, Repr

/-! ### Protected regions (R118, R367, R438). -/

inductive ProtKind where
  | image | seal | ckpt
  deriving DecidableEq, Repr

/-- A region no write reaches: device addresses `[lo, hi)`, the context it belongs to, and the seal ID. -/
structure ProtRgn where
  kind : ProtKind
  lo : Nat
  hi : Nat
  ctx : Nat
  id : Nat
  deriving DecidableEq, Repr

/-! ### Messages in transit. -/

/-- Who issues an operation to memory, and gets its answer (R30, R93). -/
inductive Who where
  | spindle (ps : Nat)
  | sequencer
  | coll
  | reel
  | det
  | core (n : Nat)
  | command
  | fabric (coord : Nat)
  deriving DecidableEq, Repr

/-- What a request to memory does; an atomic names its AOP (R145, R229). -/
inductive ReqKind where
  | read | write | atom (aop : Nat)
  deriving DecidableEq, Repr

/-- A request to memory: `data` is what is written, or the operand and comparand of an atomic, and
`poison` marks its 64-bit words. -/
structure MemReq where
  src : Who
  op : Nat
  kind : ReqKind
  addr : Nat
  len : Nat
  data : List Byte
  poison : Nat
  deriving DecidableEq, Repr

/-- An answer to a request. -/
structure MemResp where
  dst : Who
  op : Nat
  data : List Byte
  poison : Nat
  deriving DecidableEq, Repr

/-- The kinds of channel traffic (R257, R277). -/
inductive ChanKind where
  | message | accept | closedAns | credit | notice | readerNotice | endMark
  deriving DecidableEq, Repr

/-- Channel traffic of a context between `src` and `dst` ends (R254, R272, R277). -/
structure ChanPkt where
  kind : ChanKind
  ctx : Nat
  src : ChanBind
  dst : ChanBind
  msg : ChanMsg
  op : Nat
  deriving DecidableEq, Repr

/-- What a ring flit carries between two units (R257): a request, an answer, or channel traffic. -/
inductive RingLoad where
  | req (r : MemReq)
  | resp (r : MemResp)
  | chan (p : ChanPkt)
  deriving DecidableEq, Repr

/-- A ring sidecar with its flit (R254), and what the flit carries where that is a message of this model. -/
structure RingFlit where
  dst : Nat
  src : Nat
  ttype : Nat
  entry : Nat
  fidx : Nat := 0
  lmask : BitVec 16 := 0
  credit : Option Nat := none
  astat : Nat := 0
  ckind : Nat := 0
  flit : Flit := {}
  load : Option RingLoad := none
  deriving DecidableEq, Repr

/-- How the flits of a control message fared (R264, R268): flits corrected on the way and at the seam, the node that
found one uncorrectable, and whether that was the seam crossing. -/
structure CtlWay where
  ce : Nat
  seamCe : Nat
  bad : Option (Fin 39)
  atSeam : Bool
  deriving DecidableEq, Repr

/-- Errors of the data words that crossed a seam link (R257, R264): how many were corrected, and the mask of the
uncorrectable ones. -/
structure LinkErrs where
  ce : Nat
  ue : BitVec 32
  deriving DecidableEq, Repr

/-- A control-network message (R266). -/
structure CtlMsg where
  cls : Nat
  dst : Nat
  src : Nat
  words : List Nat
  deriving DecidableEq, Repr

/-- A packet of the dispatch network (R185 to R189): phase, sender and receiver, and its payload bytes. -/
structure DspPkt where
  phase : Nat
  coord : Nat
  logical : Nat
  toCoord : Nat
  toLogical : Nat
  addr : Nat
  data : List Byte
  poison : Nat
  deriving DecidableEq, Repr

/-- A fabric packet: the fields of its header (R299) and its payload; `w7` is TOTAL or the low half of the
check word, and `rsv` collects reserved bits found set. -/
structure Pkt where
  type : Nat := 0
  epoch : Nat := 0
  cls : Nat := 0
  mcast : Bool := false
  last : Bool := false
  poison : Bool := false
  check : Bool := false
  shadow : Bool := false
  dcoord : Nat := 0
  dep : Nat := 0
  group : Nat := 0
  scoord : Nat := 0
  sep : Nat := 0
  tag : Nat := 0
  addr : Nat := 0
  op : Nat := 0
  cid : Nat := 0
  idx : Nat := 0
  step : Nat := 0
  w7 : Nat := 0
  len : Nat := 0
  payload : List Byte := []
  rsv : Nat := 0
  deriving DecidableEq, Repr

/-- What the block's units have sent and nothing has yet delivered: memory requests and answers,
channel traffic, control messages, dispatch packets, ring flits, fabric packets delivered on the die with the
half-port they arrived on, fabric frames sent by half-port, management-port
frames, console bytes, Cuard replies by port, what the I3C target and the flash sideband answer, register
values read, access-fault exceptions of cores, console input, what the boot client asks for, and the status that answers
a register write turned away. -/
inductive Msg where
  | req (r : MemReq)
  | resp (r : MemResp)
  | chan (p : ChanPkt)
  | ctl (m : CtlMsg)
  | dsp (p : DspPkt)
  | ring (ring dir stop : Nat) (f : RingFlit)
  | pkt (half : Option Nat) (p : Pkt)
  | frame (half : Nat) (bytes : List Byte)
  | eth (bytes : List Byte)
  | vnet (bytes : List Byte)
  | uart (bytes : List Byte)
  | reply (port : Nat) (bytes : List Byte)
  | i3c (bytes : List Byte)
  | spi (bytes : List Byte)
  | value (dst : Who) (addr : Nat) (v : Nat)
  | trap (hart : Nat) (fetch : Bool) (addr : Nat)
  | console (bytes : List Byte)
  | dhcp (v6 : Bool)
  | tftp (server pay : List Byte)
  | refused (addr status : Nat)
  deriving DecidableEq, Repr

end Sys2Proof.Machine
end

