-- ==== Sys2Proof/Machine/DataDev.lean ====
section
/-! DEFINITION. The data types of the device around the spindles: fabric, collectives, clocks, power,
tests, resets and checkpoints, beside their registers (spec/09_fabric.md to spec/15_clocks_power.md). -/

namespace Sys2Proof.Machine

/-! ### Fabric (spec/09_fabric.md). -/

/-- A packet queued on a half-port with its VC (R309, R310). -/
structure QPkt where
  vc : Nat
  pkt : Pkt
  ingress : Option Nat := none
  vcIn : Nat := 0
  deriving DecidableEq, Repr

/-- A half-port beside its registers: the settings its last training took (`hct` is PORT_HCTL then), its training and retry timers,
its FEC window, queue, weighted bytes sent per class, priorities paused until a tick, and heartbeat misses (R285 to R292, R310,
R324, R342). -/
structure Half where
  mode : Nat := 0
  split : Bool := false
  strict : Bool := false
  dike : Nat := 0
  hct : Nat := 0
  trainAt : Option DWord := none
  retryAt : Option DWord := none
  fecAt : DWord := 0
  fecCount : Nat := 0
  queue : List QPkt := []
  sent : List Nat := [0, 0, 0]
  paused : List (Nat × DWord) := []
  miss : Nat := 0
  heard : Bool := false
  deriving DecidableEq, Repr

/-- A packet waiting in the router for a usable half-port, a multicast copy for the one it is for (R309, R314). -/
structure WaitPkt where
  pkt : Pkt
  ingress : Option Nat
  vc : Nat
  since : DWord
  only : Option Nat := none
  deriving DecidableEq, Repr

/-- A receive-tracker entry (R318, R319): key, packet indices received, TOTAL once known, poison seen, the
tick of its last arrival, and its tombstone once complete. -/
structure TrkEnt where
  scoord : Nat
  sep : Nat
  op : Nat
  answer : Bool
  got : List Nat
  total : Option Nat
  poison : Bool
  lastAt : DWord
  tomb : Option DWord
  cid : Nat
  dep : Nat
  deriving DecidableEq, Repr

/-- Who issued a fabric operation (R317); `stray` once its issuer no longer waits for it. -/
inductive FabWho where
  | dispatch (ps op : Nat)
  | send (ps op : Nat)
  | collective (ecb shard gen : Nat)
  | result (ecb : Nat)
  | ckpt
  | restore
  | stray
  deriving DecidableEq, Repr

/-- An operation an endpoint of this device has issued into the fabric, and the answers it still expects (R314,
R317, R320). -/
structure FabOp where
  sep : Nat
  op : Nat
  type : Nat
  dcoord : Nat
  dep : Nat
  first : DWord
  who : FabWho
  left : Nat := 1
  deriving DecidableEq, Repr

/-- A scheduled epoch switch: bank, VALID, and the PTP time in seconds and nanoseconds (R313). -/
structure EpochAt where
  bank : Nat
  valid : Nat
  sec : Nat
  ns : Nat
  deriving DecidableEq, Repr

/-- The fabric beside its registers (R311 to R321). -/
structure Fab where
  halves : List (Nat × Half) := []
  waiting : List WaitPkt := []
  tracker : List TrkEnt := []
  ops : List FabOp := []
  slots : List (Nat × Nat) := []
  epoch : Option EpochAt := none
  guard : Option DWord := none
  told : List (Nat × Option DWord) := []
  quiet : Bool := false
  deriving DecidableEq, Repr

/-! ### Collectives (spec/10_collectives.md). -/

/-- A collective request (R327). -/
structure CollReq where
  src : Nat
  dst : Nat
  stage : Nat
  nel : Nat
  npart : Nat
  rank : Nat
  cidx : Nat
  cwlog : Nat
  scatter : Bool
  drop : Bool
  div : Bool
  sfmt : Nat
  rfmt : Nat
  e : Int
  cnt : Nat
  mcg : Nat
  ptab : Nat
  ecb : Nat
  deriving DecidableEq, Repr

/-- A contribution packet staged at a reducer: copy (0 primary, 1 backup), rank, packet index, its trailer,
and whether it came POISON or as a shadow (R331, R336, R345). -/
structure Staged where
  gen : Nat
  rank : Nat
  idx : Nat
  trailer : Nat
  poison : Bool
  shadow : Bool
  deriving DecidableEq, Repr

/-- An active collective (R326 to R340); `spoiled` are the operations (COORD, endpoint, ID) of which a packet that came before the
request failed its check (R336). -/
structure Coll where
  ctx : Nat
  logical : Nat
  req : CollReq
  exact : Bool
  step : Nat
  taken : DWord
  table : List Nat
  staged : List Staged := []
  done : List (Nat × Nat) := []
  reported : List Nat := []
  reports : List (Nat × List Nat) := []
  readyAt : Option DWord := none
  agreed : Option (List Nat) := none
  reduced : List Nat := []
  arrived : Nat := 0
  flags : Nat := 0
  poison : Bool := false
  excluded : List Nat := []
  exclusion : Bool := false
  spoiled : List (Nat × Nat × Nat) := []
  deriving DecidableEq, Repr

/-- A watched peer beside COLL_PEER (R342, R343): whether a heartbeat came in the present interval, and the
intervals since the last one. -/
structure Peer where
  heard : Bool := false
  since : Nat := 0
  deriving DecidableEq, Repr

/-- The collective engine beside its registers: active collectives, packets accepted before their request was
taken (with the half-port each came by and whether it completed its operation), peers, heartbeat sequence, promotion step,
the last poll of the request rings, and the windows of event 0x0601 by source. -/
structure CollEng where
  active : List Coll := []
  early : List (Option Nat × Pkt × Bool) := []
  peers : List (Nat × Peer) := []
  hbSeq : Nat := 0
  hbAt : DWord := 0
  promote : Option Nat := none
  polledAt : DWord := 0
  told : List (Nat × Option DWord) := []
  deriving DecidableEq, Repr

/-! ### Clocks and power (spec/15_clocks_power.md). -/

/-- A requested change of F: its cause of event 0x0101, whether it is forced, and the PLAN that a deferred one is to set
(R364, R461, R462). -/
structure FreqReq where
  cause : Nat
  isForced : Bool
  plan : Option Nat := none
  deriving DecidableEq, Repr

/-- A change of F in progress (R460): step 1 locking, 3 message sent, 5 settling. -/
structure FreqChange where
  step : Nat
  old : Nat
  new : Nat
  target : DWord
  req : FreqReq
  start : DWord
  deriving DecidableEq, Repr

/-- Clock generation beside its registers (R454 to R464): hundredths of an A-tick, requests, deferred
requests, the change in progress, stretched periods, the open stretch window with its count and region,
the DROOP window, the last stretch, and the steps the safe clock still holds back. -/
structure Clk where
  frac : Nat := 0
  reqs : List FreqReq := []
  deferred : List FreqReq := []
  change : Option FreqChange := none
  lastPeriod : DWord := 0
  stretched : List Nat := []
  window : Option (DWord × Nat × Nat) := none
  droopWin : Option (DWord × Nat) := none
  droopAt : DWord := 0
  missing : Nat := 0
  stepAt : DWord := 0
  lastStretch : DWord := 0
  realign : Bool := false
  ftmo : List (Nat × Option (DWord × Nat)) := []
  deriving DecidableEq, Repr

/-- The regulators, input and thermal control beside their registers (R467 to R473). -/
structure Pwr where
  enabled : Bool := true
  group : Nat := 0
  groupAt : DWord := 0
  vin : List Nat := []
  outFor : Nat := 0
  excFor : Nat := 0
  latched : Bool := false
  capAt : DWord := 0
  capSum : Nat := 0
  capN : Nat := 0
  capSince : Nat := 0
  tj : List (Nat × List Int) := []
  thermAt : DWord := 0
  coolAt : Option DWord := none
  alert : Bool := false
  regOut : List (Nat × Nat) := []
  copies : List Word := []
  copyNo : Nat := 0
  deriving DecidableEq, Repr

/-! ### Tests, repair and ageing (spec/12_self_test_repair_ageing.md). -/

/-- A soft-repair entry (R388). -/
structure SoftEnt where
  unit : Nat
  detail : Nat
  recur : Nat
  proposed : Bool
  inService : Bool
  boots : Nat
  deriving DecidableEq, Repr

/-- The soft-repair record (R388). -/
structure SoftRec where
  boots : Nat := 0
  minL : Nat := 14
  maxFch : Nat := 8
  ents : List SoftEnt := []
  deriving DecidableEq, Repr

/-- Why a logical index moves to another spindle (R394 to R398, R431). -/
inductive MoveWhy where
  | fence | rollOut | rollBack | back
  deriving DecidableEq, Repr

/-- A transfer of a logical index waiting for, or at, a section boundary (R394). -/
structure Move where
  logical : Nat
  src : Nat
  dst : Nat
  why : MoveWhy
  deriving DecidableEq, Repr

/-- A unit under the return tests, with the command that waits for the answer (R398). -/
structure Returning where
  unit : Nat
  start : DWord
  deriving DecidableEq, Repr

/-- What a test found for a unit (R379 to R383): logic BIST 0 pass, 1 marginal, 2 fail, and its MISR; march, row test or
loopback failed beyond repair; failing SRAM lines (bank, line) and DRAM rows (layer, bank, row); and the detail of
event 0x0801. -/
structure TestOut where
  unit : Nat
  logic : Nat := 0
  misr : Nat := 0
  march : Bool := false
  lines : List (Nat × Nat) := []
  rows : List (Nat × Nat × Nat) := []
  detail : Nat := 0
  deriving DecidableEq, Repr

/-- Ageing data of a domain from the calibration store and readings: four monitor baselines, k_v in
thousandths of ps per mV, accepted points (hours, slack), raise waiting, and whether it warned (R400 to R403). -/
structure Age where
  baseline : List Int := []
  kv : Nat := 0
  frozen : Bool := false
  points : List (Nat × Nat) := []
  pend : Option Nat := none
  warned : Bool := false
  deriving DecidableEq, Repr

/-- Tests, repair and ageing beside their registers: waves still to run at start-up with the tick the present one
began, what the ended ones found, lanes kept out of training, and domains whose raise may fall at the next reading. -/
structure Hlth where
  soft : SoftRec := {}
  moves : List Move := []
  holding : List Nat := []
  waiting : List Nat := []
  returning : List Returning := []
  waves : List (List Nat) := []
  waveAt : DWord := 0
  outs : List TestOut := []
  badLanes : List Nat := []
  refit : List Nat := []
  rollDue : DWord := 0
  rollAt : DWord := 0
  rollPend : Bool := false
  ages : List (Nat × Age) := []
  roBase : List (Nat × Nat) := []
  fmaxPend : Option (Nat × Nat) := none
  fusedMax : Nat := 700
  vtable : List Nat := []
  pohAt : DWord := 0
  pohSaved : DWord := 0
  acted : List (Nat × Option DWord) := []
  deriving DecidableEq, Repr

/-! ### Resets (spec/13_hangs_resets_recovery.md). -/

/-- Where a reset stands (R413). -/
inductive RstStep where
  | closing | asserted | init
  deriving DecidableEq, Repr

/-- A reset in progress: level, scope unit ID, source, sequence, start and timer in wall ticks, whether counted,
the physical spindles and polders of its scope fixed at its request, those of them that were fenced, the
sequences of requests it merged or took over, and when it was asserted (R407 to R413). -/
structure Reset where
  level : Nat
  scope : Nat
  source : Nat
  seq : Nat
  start : DWord
  timer : DWord
  counted : Bool
  at_ : RstStep
  spins : List Nat
  polders : List Nat
  fenced : List Nat := []
  also : List Nat := []
  assertAt : DWord := 0
  deriving DecidableEq, Repr

/-- A spindle's progress watchdog: the values watched, since when, the count of its holds last seen, and whether it has held for a
cause other than SLACK since (R415). -/
structure Watchdog where
  skc : Nat := 0
  st : Nat := 0
  since : DWord := 0
  held : Nat := 0
  other : Bool := false
  deriving DecidableEq, Repr

/-- A context in a polder's list of those that have run, with its skein digest and seed (R420, R422). -/
structure RanEnt where
  ctx : Nat
  replay : Nat
  digest : List Byte
  seed : DWord
  deriving DecidableEq, Repr

/-- What is kept of a suspect beside RST_SUSP (R422). -/
structure SuspKey where
  digest : List Byte := []
  seed : DWord := 0
  deriving DecidableEq, Repr

/-- Resets, hang detection and quarantine beside their registers: SYS_RESET_N held low (`pinLow`), the next
request sequence, and chip-level reset not yet released (`chipHeld`). -/
structure Rst where
  resets : List Reset := []
  dogs : List (Nat × Watchdog) := []
  ran : List (Nat × List RanEnt) := []
  susp : List (Nat × SuspKey) := []
  pinLow : Bool := false
  seqNo : Nat := 0
  chipHeld : Bool := false
  back : Option (DWord × List Nat) := none
  deriving DecidableEq, Repr

/-! ### Fuses (spec/16_management_security.md). -/

/-- The fuse bank beside FUSE_MAP and SEAM_SPARE (R386, R494, R498, R501): ordering part (0 KZY8-A to
3 KZY8-D), device secret, software MAC, OWNER_DIG once burned, and KT_CTR bits burned. -/
structure Fuses where
  part : Nat := 0
  secret : Nat := 0
  mac : Nat := 0
  owner : Option (List Byte) := none
  ktCtr : Nat := 0
  deriving DecidableEq, Repr

/-! ### Checkpoints (spec/14_checkpoint.md). -/

/-- A checkpoint under way (R444): phase 1 headers sent, 2 draining, 3 awaiting commit, 4 valid headers sent; its cost is the ticks from step 1 to step 4. -/
structure Ckpt where
  ctx : Nat
  slot : Nat
  seq : Nat
  step : Nat
  phase : Nat
  start : DWord
  loss : Nat
  vloss : Option Nat := none
  poison : Bool := false
  released : Bool := false
  cost : Nat := 0
  digest : List Byte := []
  dests : List CkDest
  regions : List CkRegion
  seed : DWord
  skein : List Byte
  deriving DecidableEq, Repr

/-- A restore under way (R447): phase 1 header, 2 data; the bytes read, whether one came poisoned, and a bit for each
poisoned 64-bit word of the data. -/
structure Restore where
  ctx : Nat
  coord : Nat
  ep : Nat
  addr : Nat
  phase : Nat
  hdr : List Byte := []
  data : List Byte := []
  bad : Bool := false
  pois : Nat := 0
  deriving DecidableEq, Repr

/-- The reel engine beside its registers. -/
structure Reel where
  ckpt : Option Ckpt := none
  restore : Option Restore := none
  deriving DecidableEq, Repr

end Sys2Proof.Machine
end

