-- ==== Sys2Proof/Machine/DataMgmt.lean ====
section
/-! DEFINITION. The data types of the command processor, the management port, start-up and the module
(spec/16_management_security.md to spec/19_module.md). -/

namespace Sys2Proof.Machine

/-! ### Cuard (spec/17_cuard_commands.md). -/

/-- Where a command came from, for its reply (R515, R518): the source MAC, IP address and UDP port and the
Cuard address it was sent to, or the source COORD and endpoint. -/
structure Origin where
  mac : List Byte := []
  v6 : Bool := false
  ip : List Byte := []
  own : List Byte := []
  sport : Nat := 0
  coord : Nat := 0
  ep : Nat := 0
  deriving DecidableEq, Repr

/-- A command packet at the serializer (R523): its port (0 management, 1 local, 2 fabric), bytes, arrival
tick and origin. -/
structure Req where
  port : Nat
  bytes : List Byte
  arrival : DWord
  org : Origin
  deriving DecidableEq, Repr

/-- What a reply echoes and where it goes (R514): `authed` once the request passed R506, and the key index
of its session, 255 without one, with the session's reply key. -/
structure RepTo where
  port : Nat
  org : Origin
  opcode : Nat
  seq : Nat
  session : Nat
  lease : Nat
  expert : Bool
  authed : Bool
  key : Nat
  repKey : List Byte := []
  deriving DecidableEq, Repr

/-- What a command's final reply waits for (R524). -/
inductive WaitFor where
  | freq
  | giveWay
  | load
  | returning (unit : Nat)
  | reset (seq level : Nat)
  | epoch
  | dike (halves : Nat)
  | restore
  | sealing (ctx id : Nat)
  | cal (item : Nat)
  | repair (ch layer bank row : Nat)
  deriving DecidableEq, Repr

/-- A command that has started and not had its final reply: `first` once answered ACCEPTED (A first), its
lease resource, start tick, and limit in reference ticks. -/
structure Wait where
  what : WaitFor
  rep : RepTo
  first : Bool
  res : Option Nat
  start : DWord
  limit : Option Nat
  deriving DecidableEq, Repr

/-- The final status of an authenticated command (R524). -/
structure Done where
  seq : Nat
  opcode : Nat
  status : Nat
  tick : DWord
  deriving DecidableEq, Repr

/-- A session, opening or ACTIVE (R504 to R507): transcript digest and keys, opening and last-command ticks,
the highest accepted SEQ, those accepted and not below the highest minus 64, and its last 64 outcomes. -/
structure Sess where
  id : Nat
  port : Nat
  key : Nat
  expert : Bool
  active : Bool
  tHash : List Byte
  reqKey : List Byte
  repKey : List Byte
  opened : DWord
  last : DWord
  high : Nat := 0
  seen : List Nat := []
  done : List Done := []
  deriving DecidableEq, Repr

/-- A lease (R526). -/
structure Lease where
  key : Nat
  id : Nat
  expiry : DWord
  deriving DecidableEq, Repr

/-- A remembered change (R530): session, item, parameters, arrival, and the parameters of its reply. -/
structure Remember where
  session : Nat
  opcode : Nat
  target : Nat
  params : List Byte
  arrival : DWord
  reply : List Byte
  deriving DecidableEq, Repr

/-- The command processor's Cuard side: queue, unfinished commands, sessions, leases by resource, the quorum
nonce and its tick, conflict memory, windows of event 0x0B01, the local port's assembly and replies (in words
still to read), failures, management frames and spoofed frames in their windows, the session that unlocked debug, the load
being validated, and whether the processor has stopped (R493). -/
structure Cq where
  queue : List Req := []
  waits : List Wait := []
  sessions : List Sess := []
  leases : List (Nat × Option Lease) := []
  nonce : List Byte := []
  nonceAt : DWord := 0
  memory : List Remember := []
  told : List (Nat × Option DWord) := []
  asm : List Word := []
  asmAt : Option DWord := none
  discarding : Bool := false
  replies : List (List Word) := []
  failAt : DWord := 0
  failN : Nat := 0
  rateAt : DWord := 0
  rateN : Nat := 0
  rateTold : Bool := false
  spoofAt : DWord := 0
  spoofN : Nat := 0
  dbg : Option Nat := none
  loading : Option Nat := none
  dead : Bool := false
  deriving DecidableEq, Repr

/-! ### Management port and time (R484 to R492). -/

/-- The management port and PTP clock beside their registers: Cuard's configured addresses, whether MODE 0 is trying 25G
and since when, the PTP fraction, and the last accepted PPS edge since PPS_EN was set. -/
structure Mgmt where
  v6 : Option (List Byte) := none
  v4 : Option (List Byte) := none
  fast : Bool := true
  speedAt : DWord := 0
  ptpFrac : Nat := 0
  ppsAt : Option DWord := none
  deriving DecidableEq, Repr

/-! ### Start-up (R549 to R562). -/

/-- A TFTP transfer (R559): own address, server and file, the header block, the next block, bytes received, tries of the block,
and the wall tick of the last request. -/
structure Tftp where
  own : List Byte := []
  server : List Byte
  file : List Byte
  hdr : List Byte := []
  next : Nat := 1
  got : Nat := 0
  tries : Nat := 1
  at_ : DWord := 0
  deriving DecidableEq, Repr

/-- An accepted OS image (R558, R561). -/
structure OsImage where
  digest : List Byte
  entry : Nat
  arg : Nat
  deriving DecidableEq, Repr

/-- Start-up beside its registers: the wall ticks at which it and its present phase began, the levels of the strap pins
(bit n for pin n), the wall tick of the last sampling, the pins not yet stable with their samplings again, those given up, the held coordinate
command, whether phase 10 has begun its training attempts, whether the boot client waits for an address, the
transfer, the accepted image, and the calibration items to write back. -/
structure Boot where
  began : DWord := 0
  at_ : DWord := 0
  pins : Nat := 0
  strapAt : Option DWord := none
  unst : List (Nat × Nat) := []
  lost : List Nat := []
  coord : Option (Nat × Nat × Nat) := none
  linking : Bool := false
  client : Bool := false
  tftp : Option Tftp := none
  image : Option OsImage := none
  dirty : List Nat := []
  deriving DecidableEq, Repr

/-! ### The module (R572, R573, R581 to R585). -/

/-- The module's power sequencer and I3C target: the counted PWR_EN level and when it last changed, a trip
latched, and the dynamic address. -/
structure Modl where
  en : Bool := true
  enAt : DWord := 0
  latched : Bool := false
  i3c : Option Nat := none
  deriving DecidableEq, Repr

/-- A command of the flash sideband (R585): addresses count from the start of the OS image partition. -/
inductive SpiCmd where
  | read (addr len : Nat)
  | program (addr : Nat) (data : List Byte)
  | erase (addr : Nat)
  | status
  deriving DecidableEq, Repr

/-! ### The rings (R253 to R256). -/

/-- Transport state of the rings: ejection credits spent (keyed ring, direction, source and destination stop),
stops whose injection has waited 32 N-clocks, stops to leave a slot empty, seam crossings lost, and what has been ejected
at a stop and waits there for its unit. -/
structure Rings where
  spent : List (Nat × Nat) := []
  starved : List (Nat × Nat × Nat) := []
  leave : List (Nat × Nat × Nat) := []
  lost : List Nat := []
  door : List (Nat × RingLoad) := []
  deriving DecidableEq, Repr

end Sys2Proof.Machine
end

