-- ==== Sys2Proof/Syntax.lean ====
section
/-! DEFINITION. The commands of the block (spec/opcode_table.json), with the operands each carries.  A
default value is that of a whole 32-bit access or of a read that nothing disturbs. -/

namespace Sys2Proof

open Sys2Proof.Machine

/-- The commands of the block: one constructor per row of spec/opcode_table.json. -/
inductive Instr where
  /-- PWR_EN_RISE (R572): A counted rise of PWR_EN with input in range begins power-up and takes the device from OFF to BRINGUP. -/
  | pwrEnRise (mv : Nat) (mated : Bool)
  /-- PWR_EN_FALL (R468): A counted fall of PWR_EN takes the device to OFF by removing the domains in the power-down order. -/
  | pwrEnFall
  /-- POWER_GROUP_GOOD (R467): The regulators of a power-up group report good, and the next group starts. -/
  | powerGroupGood
  /-- POWER_GROUP_TIMEOUT (R467): A power-up group is not good within 10 ms, so the rest stay off, ALERT_N is asserted and event 0x0109 cause 5 is recorded. -/
  | powerGroupTimeout
  /-- INPUT_SAMPLE (R470): The input voltage is sampled each reference tick; a median out of range for 50 us takes the device to OFF, or records an excursion. -/
  | inputSample (mv : Nat)
  /-- MODULE_THERMAL_TRIP (R573): The module's die diode reads 110 C or more, so every domain is removed within 10 ms and the module latches off. -/
  | moduleThermalTrip
  /-- REG_ACCESS_TIMEOUT (R33): A register access not complete within 1,000 ticks ends without effect and records event 0x0210 with byte 23 set. -/
  | regAccessTimeout (who : Who) (a : Nat) (write : Bool)
  /-- REG64_LOW_READ (R32): A read of the low word of a 64-bit counter latches its high word for the next high-word read. -/
  | reg64LowRead (who : Who) (a : Nat) (n : Nat := 4)
  /-- REG_WRITE_OTHER (R8): A write to a register that has no row of its own updates its fields under the access codes, reserved-encoding and minimum rules. -/
  | regWriteOther (hart : Fin 8) (a : Nat) (v : Word) (n : Nat := 4)
  /-- EXEC (R129): An EXEC bundle lays down one skein cycle, firing the named units' slot words, or the spindle holds. -/
  | exec (ps : Fin 18) (bad : Bool) (f : List (Nat × Nat))
  /-- IDLE (R130): An IDLE bundle lays down COUNT skein cycles in which no unit starts an operation. -/
  | idle (ps : Fin 18) (bad : Bool)
  /-- LOOP (R131): A LOOP bundle runs its body trip-count times, taking the count from TRIP or the trip store. -/
  | loop (ps : Fin 18) (bad : Bool := false)
  /-- SECTION_END (R100): The strand reaches SECTION_END and the spindle holds under SECT_WAIT until drained. -/
  | sectionEnd (ps : Fin 18) (bad : Bool := false)
  /-- SECTION_DRAINED (R100): The spindle becomes drained, discards left-over items and waits for older-section operations. -/
  | sectionDrained (ps : Fin 18)
  /-- SECTION_LOAD_PROCEED (R100): Once older operations and the configuration are present, the next section's configuration loads, the generation advances and the strand restarts at phase 0. -/
  | sectionLoadProceed (ps : Fin 18) (f : List (Nat × Nat)) (ready : Bool := true) (bad : Option (Fin 3 × Nat) := none)
  /-- STEP (R135): A STEP bundle increments the strand step, and the device step counter advances when every strand has executed as many. -/
  | step (ps : Fin 18) (f : List (Nat × Nat)) (bad : Bool := false)
  /-- CONTEXT_END (R135): CONTEXT_END ends the strand, which drains, sets SPN_STRAND.DONE and becomes IDLE. -/
  | contextEnd (ps : Fin 18) (bad : Bool := false)
  /-- POSITION_REPORT (R147): A strand's floored position reaches the sequencer over the control network. -/
  | positionReport (ps : Fin 18) (w : CtlWay)
  /-- MINPOS_BROADCAST (R147): The sequencer's MINPOS broadcast reaches a strand, which holds under SLACK while 4,096 or more ahead. -/
  | minposBroadcast (ps : Fin 18) (w : CtlWay)
  /-- TOKEN_ARRIVAL (R81): A token reaching a unit input port is discarded as stale, faults as duplicate, is used directly or stored. -/
  | tokenArrival (ps : Fin 18) (u : Fin 51) (port : Fin 4) (fl : Flit) (fire : Option DWord)
  /-- SLUICE_FILL (R87): Read data, an atomic's old value or a channel message fills its reserved sluice entry, or is discarded as stale. -/
  | sluiceFill (ps : Fin 18) (op idx : Nat) (ctl : Bool) (data : List Byte) (poison : Nat)
  /-- SLUICE_RELEASE (R88): A sluice slot releases filled entries onto its output routes, or holds under SLUICE_WAIT. -/
  | sluiceRelease (ps : Fin 18) (u : Fin 55) (w : DWord)
  /-- COMPLETION_ACK (R93): A write or atomic acknowledgement returns, increments its completion counter and frees its in-flight entry. -/
  | completionAck (ps : Fin 18) (op : Nat) (poison : Bool) (old : DWord)
  /-- MAC (R50): A matrix tile multiplies an activation vector by its stationary operand and adds the exact terms into an accumulator group. -/
  | mac (ps : Fin 18) (u : Fin 55) (w : DWord)
  /-- LOADW (R161): A LOADW loads one flit of the tile's stationary operand, zeroing it first if the format or mode changed. -/
  | loadw (ps : Fin 18) (u : Fin 55) (w : DWord)
  /-- CLEAR (R591): CLEAR clears the 128 accumulators of a group and sets their LSB. -/
  | clear (ps : Fin 18) (u : Fin 55) (w : DWord)
  /-- READ (R57): READ converts a group's accumulators to the destination format with one rounding and emits the result flits. -/
  | read (ps : Fin 18) (u : Fin 55) (w : DWord)
  /-- SPILL (R591): SPILL emits one accumulator's full state as an accumulator record. -/
  | spill (ps : Fin 18) (u : Fin 55) (w : DWord)
  /-- LOAD (R55): LOAD replaces an accumulator's state with a record, or clears and poisons it for a poisoned record. -/
  | load (ps : Fin 18) (u : Fin 55) (w : DWord)
  /-- MERGE (R55): MERGE adds a record into an accumulator, ORing its flags. -/
  | merge (ps : Fin 18) (u : Fin 55) (w : DWord)
  /-- ADD (R63): Vector addition of 64 lanes, rounded once to the destination format. -/
  | add (ps : Fin 18) (u : Fin 55) (w : DWord)
  /-- SUB (R63): Vector subtraction of 64 lanes, rounded once. -/
  | sub (ps : Fin 18) (u : Fin 55) (w : DWord)
  /-- MUL (R63): Vector multiplication of 64 lanes, rounded once. -/
  | mul (ps : Fin 18) (u : Fin 55) (w : DWord)
  /-- FMA (R63): Vector fused multiply-add a*b+c, rounded once from the exact value. -/
  | fma (ps : Fin 18) (u : Fin 55) (w : DWord)
  /-- MIN (R63): Vector IEEE minimum of two operands per lane. -/
  | min (ps : Fin 18) (u : Fin 55) (w : DWord)
  /-- MAX (R63): Vector IEEE maximum of two operands per lane. -/
  | max (ps : Fin 18) (u : Fin 55) (w : DWord)
  /-- CMP (R63): Vector comparison producing a predicate token. -/
  | cmp (ps : Fin 18) (u : Fin 55) (w : DWord)
  /-- CVT (R65): Vector format conversion under the conversion table. -/
  | cvt (ps : Fin 18) (u : Fin 55) (w : DWord)
  /-- RED (R60): One step of the canonical cross-lane reduction tree. -/
  | red (ps : Fin 18) (u : Fin 55) (w : DWord)
  /-- MOV (R588): MOV copies the port-0 flit to its output bit for bit with its poison marks. -/
  | mov (ps : Fin 18) (u : Fin 55) (w : DWord)
  /-- RNG (R358): RNG outputs Philox-4x32-10 words for up to 16 element-index and stream requests. -/
  | rng (ps : Fin 18) (u : Fin 55) (w : DWord)
  /-- NZ (R169): COMP NZ passes the flit and emits a trip token of 1 if any element is nonzero. -/
  | nz (ps : Fin 18) (u : Fin 55) (w : DWord)
  /-- PACK (R171): COMP PACK appends a compressed group and emits a stream flit when 248 payload bytes are complete. -/
  | pack (ps : Fin 18) (u : Fin 55) (w : DWord)
  /-- FLUSH (R169): COMP FLUSH emits the partial last stream flit and ends the stream. -/
  | flush (ps : Fin 18) (u : Fin 55) (w : DWord)
  /-- XIN (R172): COMP XIN takes a stream flit into the expand state, faulting with 0x0334 if groups remain. -/
  | xin (ps : Fin 18) (u : Fin 55) (w : DWord)
  /-- XOUT (R172): COMP XOUT emits a dense flit from the oldest complete group, faulting with 0x0334 if none is held. -/
  | xout (ps : Fin 18) (u : Fin 55) (w : DWord)
  /-- PCNT (R169): COMP PCNT counts the enabled positions of a predicate into a trip token. -/
  | pcnt (ps : Fin 18) (u : Fin 55) (w : DWord)
  /-- EXP2 (R66): Special-function exp2, correctly rounded to FP32. -/
  | exp2 (ps : Fin 18) (u : Fin 55) (w : DWord)
  /-- LOG2 (R66): Special-function log2, correctly rounded to FP32. -/
  | log2 (ps : Fin 18) (u : Fin 55) (w : DWord)
  /-- RECIPROCAL (R66): Special-function reciprocal, correctly rounded to FP32. -/
  | reciprocal (ps : Fin 18) (u : Fin 55) (w : DWord)
  /-- RECIPROCAL_SQUARE_ROOT (R66): Special-function reciprocal square root, correctly rounded to FP32. -/
  | reciprocalSquareRoot (ps : Fin 18) (u : Fin 55) (w : DWord)
  /-- SIN (R66): Special-function sine with exact argument reduction. -/
  | sin (ps : Fin 18) (u : Fin 55) (w : DWord)
  /-- COS (R66): Special-function cosine with exact argument reduction. -/
  | cos (ps : Fin 18) (u : Fin 55) (w : DWord)
  /-- SWITCH (R83): Steering SWITCH routes data to output 0 or 1 by predicate bit 0. -/
  | switch (ps : Fin 18) (u : Fin 55) (w : DWord)
  /-- STEER_MERGE (R83): Steering MERGE forwards data A or data B as the predicate selects. -/
  | steerMerge (ps : Fin 18) (u : Fin 55) (w : DWord)
  /-- GATE (R83): Steering GATE zeroes disabled positions of a data flit, producing nothing if all are disabled. -/
  | gate (ps : Fin 18) (u : Fin 55) (w : DWord)
  /-- SPLIT (R83): Steering SPLIT emits a predicate and its complement. -/
  | split (ps : Fin 18) (u : Fin 55) (w : DWord)
  /-- COUNT (R132): Steering COUNT places a trip count in the trip store and copies it on output 0. -/
  | count (ps : Fin 18) (u : Fin 55) (w : DWord)
  /-- PHASE (R201): PHASE computes 64 rotary angles from the exact product of position and frequency table. -/
  | phase (ps : Fin 18) (u : Fin 55) (w : DWord)
  /-- ROT (R202): ROT rotates x and y lanes by cos and sin, each rounded once. -/
  | rot (ps : Fin 18) (u : Fin 55) (w : DWord)
  /-- BLK (R204): BLK masks one row's scores against a key block and emits a probability flit and a leaf header. -/
  | blk (ps : Fin 18) (u : Fin 55) (w : DWord)
  /-- MRG (R206): MRG checks a partial and queues its fold into a row state in the merge engine. -/
  | mrg (ps : Fin 18) (u : Fin 55) (w : DWord)
  /-- MERGE_ENGINE_COMPLETE (R211): The merge engine completes one queued merge per A-tick, held or not. -/
  | mergeEngineComplete (ps : Fin 18) (k : Fin 2)
  /-- FIN (R210): FIN normalises a row state, emits output and row header, and empties the state. -/
  | fin (ps : Fin 18) (u : Fin 55) (w : DWord)
  /-- SEQ_SPILL (R209): The sequence SPILL emits a row state as a node partial and empties it. -/
  | seqSpill (ps : Fin 18) (u : Fin 55) (w : DWord)
  /-- TOPK (R180): TOPK consumes a token's score flits, selects k experts, weights them, sets ranks and emits a route record. -/
  | topk (ps : Fin 18) (u : Fin 55) (w : DWord)
  /-- POST (R184): A POST slot queues the POST job. -/
  | post (ps : Fin 18) (u : Fin 55) (w : DWord)
  /-- GRANT (R184): A GRANT slot queues the GRANT job. -/
  | grant (ps : Fin 18) (u : Fin 55) (w : DWord)
  /-- SCATTER (R184): A SCATTER slot queues the SCATTER job. -/
  | scatter (ps : Fin 18) (u : Fin 55) (w : DWord)
  /-- DSP_RETURN (R184): A RETURN dispatch slot queues the RETURN job. -/
  | dspReturn (ps : Fin 18) (u : Fin 55) (w : DWord)
  /-- TRESET (R184): A TRESET slot queues the TRESET job. -/
  | treset (ps : Fin 18) (u : Fin 55) (w : DWord)
  /-- POST_JOB (R185): The POST job sends a count block to every owner and arms phases 2 and 3. -/
  | postJob (ps : Fin 18)
  /-- GRANT_JOB (R186): After phase 2 arrivals complete, GRANT computes quotas and bases, writes grant entries and emits trip tokens. -/
  | grantJob (ps : Fin 18) (f : List (Nat × Nat))
  /-- SCATTER_JOB (R187): After phase 3 arrivals complete, SCATTER writes kept tokens to owner slots in canonical order and marks drops. -/
  | scatterJob (ps : Fin 18) (f : List (Nat × Nat))
  /-- RETURN_JOB (R188): After phase 4 arrivals complete, RETURN writes expert outputs back to the sources. -/
  | returnJob (ps : Fin 18) (f : List (Nat × Nat))
  /-- TRESET_JOB (R190): TRESET clears the tally, arrival counts and p. -/
  | tresetJob (ps : Fin 18)
  /-- DISPATCH_ARRIVAL (R189): A dispatch packet is counted for its phase, raising the completion counter when the total is reached. -/
  | dispatchArrival (ps : Fin 18) (p : DspPkt) (f : List (Nat × Nat))
  /-- DSP_ARRIVAL_TIMEOUT (R189): An armed phase incomplete after SPN_DSP_TMO faults the context with event 0x0335. -/
  | dspArrivalTimeout (ps : Fin 18) (n : Fin 4)
  /-- BREAD (R92): BREAD reads a line of the unit's own bank to its output port, decoding sparse metadata if DEC is set. -/
  | bread (ps : Fin 18) (u : Fin 55) (w : DWord) (f : List (Nat × Nat))
  /-- BWRITE (R92): BWRITE writes the port-0 token to a line of the unit's own bank. -/
  | bwrite (ps : Fin 18) (u : Fin 55) (w : DWord) (f : List (Nat × Nat))
  /-- RD (R87): RD issues a read of LEN+1 bytes and reserves sluice entries for its data. -/
  | rd (ps : Fin 18) (u : Fin 55) (w : DWord)
  /-- WR (R93): WR issues a write of the port-0 token, acknowledged to a completion counter. -/
  | wr (ps : Fin 18) (u : Fin 55) (w : DWord)
  /-- ATOM (R145): ATOM issues an unsigned 64-bit atomic and reserves a sluice entry for the old value. -/
  | atom (ps : Fin 18) (u : Fin 55) (w : DWord)
  /-- RECV (R87): RECV reserves a sluice entry for the head message of an inbound channel queue. -/
  | recv (ps : Fin 18) (u : Fin 55) (w : DWord)
  /-- SEND (R274): SEND sends the port-0 token on an outbound channel, spending a credit or holding under CHAN_SEND. -/
  | send (ps : Fin 18) (u : Fin 55) (w : DWord)
  /-- WATCH (R145): WATCH reserves a sluice entry that fills when a completion counter reaches IMM. -/
  | watch (ps : Fin 18) (u : Fin 55) (w : DWord)
  /-- BANK_EXTERNAL_ACCESS (R95): An external access to a spindle's SRAM bank takes effect in a cycle the strand leaves free. -/
  | bankExternalAccess (ps : Fin 18) (r : MemReq) (f : List (Nat × Nat))
  /-- BANK_STEAL (R95): An external access waiting 256 A-ticks takes the next A-tick and the spindle holds under BANK_STEAL. -/
  | bankSteal (ps : Fin 18) (r : MemReq) (waited : Nat) (f : List (Nat × Nat))
  /-- SPN_SECT_CTL_FORCE (R101): An expert write of FORCE flushes the section and loads the next one without drain. -/
  | spnSectCtlForce (ps : Fin 18)
  /-- FORCED_LOAD_RESUME (R101): After older-generation operations end, the forced load advances the generation by two and records event 0x0313. -/
  | forcedLoadResume (ps : Fin 18) (f : List (Nat × Nat))
  /-- STOP_AT_END (R113): Writing SPN_SECT_CTL.STOP_AT_END holds the spindle in LOAD after the next drained section end until cleared. -/
  | stopAtEnd (ps : Fin 18) (v : Bool)
  /-- DRAIN_REQUEST (R103): A drain request reaches a spindle and is served in its section's drain mode. -/
  | drainRequest (ps : Fin 18) (why : DrainFor)
  /-- DRAIN_POINT_REACHED (R104): A run-empty drain reaches its drain point and stops issuing later iterations. -/
  | drainPointReached (ps : Fin 18)
  /-- RUN_EMPTY_DRAIN_DONE (R104): The begun iterations drain and the spindle's state is written to the save area. -/
  | runEmptyDrainDone (ps : Fin 18) (f : List (Nat × Nat) := [])
  /-- DRAIN_LIMIT_EXPIRY (R105): No drain point within the drain limit converts the drain to scan and records event 0x0314. -/
  | drainLimitExpiry (ps : Fin 18)
  /-- SCAN_DRAIN_OPS_DONE (R106): All operations in flight have ended, so the scan state and SRAM are shifted out to the save area. -/
  | scanDrainOpsDone (ps : Fin 18) (f : List (Nat × Nat) := [])
  /-- DRAIN_SAVE_WRITTEN (R110): The save area is written and the spindle becomes IDLE. -/
  | drainSaveWritten (ps : Fin 18)
  /-- SPINDLE_RESTORE (R108): A restore checks the save header and waits until no operation is in flight. -/
  | spindleRestore (ps : Fin 18) (f : List (Nat × Nat))
  /-- SPINDLE_RESTORE_PROCEED (R108): The saved section and images are loaded and the strand resumes in RUN. -/
  | spindleRestoreProceed (ps : Fin 18) (f : List (Nat × Nat))
  /-- CTX_LOAD_VALIDATED (R149): The sequencer ends validation of an image and channel table, accepting it as READY or refusing it. -/
  | ctxLoadValidated (f : List (Nat × Nat))
  /-- QUANTUM_EXPIRY (R152): The running context's time since start reaches SKN_QUANTUM and it gives way at the next drain point. -/
  | quantumExpiry
  /-- CONTEXT_SWITCH_DRAINED (R152): Every strand of the outgoing context has drained and the next READY context is started or restored. -/
  | contextSwitchDrained (f : List (Nat × Nat) := [])
  /-- DRAM_REQUEST (R231): A channel controller serves a read, write or atomic, decoding each word and correcting or poisoning it. -/
  | dramRequest (r : MemReq) (e : LinkErrs) (f : List (Nat × Nat))
  /-- REPAIR_COPY_DONE (R240): A row's copy to a spare completes, the table entry is written and event 0x0204 recorded. -/
  | repairCopyDone (ch : Fin 132) (f : List (Nat × Nat))
  /-- REPAIR_COPY_TIMEOUT (R240): A repair copy not done in 100 us is abandoned and records event 0x0205 reason 3. -/
  | repairCopyTimeout (ch : Fin 132)
  /-- SCRUB_STEP (R235): Patrol scrub reads the next line of a channel and writes back corrections. -/
  | scrubStep (ch : Fin 132) (f : List (Nat × Nat))
  /-- REFRESH (R236): A controller refreshes a bank's rows within its refresh interval. -/
  | refresh (ch : Fin 132)
  /-- STACK_SENSOR_READ (R237): Each stack layer sensor is read every 1 ms and the hottest layer sets the refresh rate. -/
  | stackSensorRead (stack : Fin 2) (raw : List Int)
  /-- SELF_REFRESH_EXIT_TIMEOUT (R242): A channel not out of self-refresh in 100 us is fenced with cause 2. -/
  | selfRefreshExitTimeout (ch : Fin 132)
  /-- MEM_STRIPE_WRITE (R226): A MEM_STRIPE write applies only while no context is resident, otherwise it is discarded with event 0x020B. -/
  | memStripeWrite (p : Fin 4) (t : Fin 48) (v : Word)
  /-- MEM_CH_FENCE (R249): Writing MEM_CH_CTL.FENCE fences the channel. -/
  | memChFence (ch : Fin 132)
  /-- SRAM_SCRUB (R248): An SRAM bank is scrubbed in a free bank cycle. -/
  | sramScrub (ps : Fin 18) (bank : Fin 16) (line : Fin 12288) (f : List (Nat × Nat))
  /-- RING_FLIT_ARRIVAL (R253): A ring flit reaches a stop, which forwards, ejects, absorbs or removes it and moves its credit. -/
  | ringFlitArrival (ring : Fin 4) (dir : Fin 2) (st : Fin 29) (f : RingFlit) (ce : Nat) (ue : BitVec 32) (bad : Bool)
  /-- INJECTION_STARVE (R256): A stop whose injection has waited 32 N-clocks marks the next passing flit. -/
  | injectionStarve (ring : Fin 4) (dir : Fin 2) (st : Fin 29)
  /-- RING_OP_TIMEOUT (R262): An on-die operation unanswered within RING_OP_TMO is ended with poison and records event 0x0422. -/
  | ringOpTimeout (ps : Fin 18) (op : Nat)
  /-- EVENT_RECORD (R269): An event record travels to the command processor's log, replacing or losing records when a node buffer is full. -/
  | eventRecord (n : Fin 39) (w : CtlWay)
  /-- CHANNEL_MESSAGE (R272): A channel message is placed by sequence in its inbound queue, parked, or discarded or answered closed. -/
  | channelMessage (p : ChanPkt)
  /-- CHANNEL_ACCEPT (R277): An accept answer ends a SEND's operation and counts it in CHN_SENT. -/
  | channelAccept (p : ChanPkt)
  /-- CHANNEL_CLOSED (R277): A closed answer closes the outbound channel and sends a close notice. -/
  | channelClosed (p : ChanPkt)
  /-- CHANNEL_CREDIT (R274): A credit return restores a credit to an outbound channel. -/
  | channelCredit (p : ChanPkt)
  /-- CLOSE_NOTICE (R277): A close notice closes the channel or queue at the other end. -/
  | closeNotice (p : ChanPkt)
  /-- END_MARK (R277): An end marker moves an inbound queue to ENDED. -/
  | endMark (p : ChanPkt)
  /-- STALL_THRESHOLD (R280): A channel stall timer reaches CHN_STALL_THR and records event 0x0411. -/
  | stallThreshold (ps : Fin 18)
  /-- TRAINING_START (R288): A half-port begins training with stored equalization and PRBS31. -/
  | trainingStart (h : Fin 32)
  /-- TRAINING_COMPLETE (R288): Training ends with a width, bringing the port UP, STANDBY or DOWN. -/
  | trainingComplete (h : Fin 32) (lanes : BitVec 8) (native : Bool) (partner : Nat × Nat) (errs : List (Nat × Nat × Nat))
  /-- TRAINING_TIMEOUT (R288): A training attempt not complete within 1 s fails and the port goes DOWN. -/
  | trainingTimeout (h : Fin 32)
  /-- RETRY_TIMER_EXPIRY (R290): A DOWN or BREACHED port's retry timer expires and it trains again. -/
  | retryTimerExpiry (h : Fin 32)
  /-- LINK_SIGNAL_LOSS (R291): Loss of signal, lock or alignment for over 1 us breaches a port. -/
  | linkSignalLoss (h : Fin 32)
  /-- PORT_CTL_RETRAIN (R324): Writing PORT_CTL.RETRAIN retrains every enabled half of the port. -/
  | portCtlRetrain (port : Fin 16)
  /-- FRAME_RECEIVE (R315): A fabric frame is checked in order and forwarded, delivered to an endpoint or discarded. -/
  | frameReceive (h : Fin 32) (bytes : List Byte) (ce ue : Nat) (inFrame : Bool) (e : LinkErrs)
  /-- FAB_WRITE (R318): A write packet passes the receive tracker, its payload written and the operation completed at TOTAL. -/
  | fabWrite (half : Option Nat) (p : Pkt) (f : List (Nat × Nat))
  /-- FAB_READ_REQUEST (R305): A read request is served with read response packets. -/
  | fabReadRequest (half : Option Nat) (p : Pkt) (f : List (Nat × Nat))
  /-- FAB_READ_RESPONSE (R319): A read response fills the issuer's sluice entries, or acknowledges an atomic. -/
  | fabReadResponse (half : Option Nat) (p : Pkt)
  /-- FAB_ATOMIC (R319): An atomic packet is applied and answered with a read response carrying the old value. -/
  | fabAtomic (half : Option Nat) (p : Pkt) (f : List (Nat × Nat))
  /-- FAB_MULTICAST_WRITE (R314): A multicast write is copied to the table's half-ports and delivered locally, each device acknowledging. -/
  | fabMulticastWrite (half : Option Nat) (p : Pkt) (f : List (Nat × Nat))
  /-- FAB_ACK (R319): An ACK completes the issuer's write or contribution, poisoned or OK. -/
  | fabAck (half : Option Nat) (p : Pkt)
  /-- FAB_OP_TIMEOUT (R320): An issuer ends an operation incomplete after FAB_OP_TMO, filling poison and recording 0x0520. -/
  | fabOpTimeout (sep op : Nat)
  /-- FAB_RX_TIMEOUT (R319): A tracker entry incomplete FAB_RX_TMO after its last arrival is freed and records 0x0521. -/
  | fabRxTimeout
  /-- TOMBSTONE_EXPIRY (R319): A completed operation's tombstone is freed after FAB_TOMB. -/
  | tombstoneExpiry
  /-- HOP_TIMEOUT (R309): A packet with no usable half-port for FAB_HOP_TMO is discarded with reason 4. -/
  | hopTimeout
  /-- EPOCH_SWITCH_AT_TIME (R313): The PTP clock reaches the switch time, changing the current bank, setting LOCK and bringing STANDBY ports UP. -/
  | epochSwitchAtTime
  /-- EPOCH_GUARD_EXPIRY (R312): FAB_EPOCH_GUARD ticks after a switch, LOCK clears. -/
  | epochGuardExpiry
  /-- FAB_EPOCH_WRITE (R313): A direct write of FAB_EPOCH.CUR takes effect at once. -/
  | fabEpochWrite (v : Word)
  /-- COLL_POLL (R326): Every COLL_POLL ticks the engine reads producer counts and takes new collective requests. -/
  | collPoll (f : List (Nat × Nat))
  /-- REDUCE_CONTRIBUTION (R336): A contribution packet is check-word verified and staged, and a complete shard is reduced. -/
  | reduceContribution (half : Option Nat) (p : Pkt) (f : List (Nat × Nat))
  /-- COLL_REPORT_ARRIVAL (R340): A reducer's report reaches the root, which forms the agreed set when all expected reports are in. -/
  | collReportArrival (half : Option Nat) (p : Pkt) (f : List (Nat × Nat))
  /-- COLL_AGREED_SET_ARRIVAL (R340): The agreed set reaches a reducer, which reduces its shards over it. -/
  | collAgreedSetArrival (half : Option Nat) (p : Pkt) (f : List (Nat × Nat))
  /-- COLL_RESULT_ARRIVAL (R339): A result shard arrives, completing the collective when all expected shards are in. -/
  | collResultArrival (half : Option Nat) (p : Pkt) (f : List (Nat × Nat))
  /-- COLL_DEADLINE_EXPIRY (R337): COLL_DEADLINE passes, failing a strict collective or making a drop-tolerant reducer ready. -/
  | collDeadlineExpiry (ecb : Nat) (f : List (Nat × Nat))
  /-- COLL_AGREE_TIMEOUT (R340): Reports incomplete at COLL_AGREE_TMO fail the collective with cause 7. -/
  | collAgreeTimeout (ecb : Nat) (f : List (Nat × Nat))
  /-- COLL_RESULT_TIMEOUT (R339): Results incomplete at COLL_RESULT_TMO fail the collective with cause 9. -/
  | collResultTimeout (ecb : Nat) (f : List (Nat × Nat))
  /-- HEARTBEAT_INTERVAL (R342): Every COLL_HB_INT the device sends heartbeats and counts misses, breaching silent peers and partners. -/
  | heartbeatInterval
  /-- HEARTBEAT (R342): A heartbeat arrives and resets its peer's or partner's miss count. -/
  | heartbeat (half : Option Nat) (p : Pkt)
  /-- BREACH_NOTICE (R343): A breach notice breaches the arrival half-port or a watched peer of the same dike ring. -/
  | breachNotice (half : Option Nat) (p : Pkt)
  /-- REALIGNMENT (R362): The realignment sequence drains crossings and restarts queue offsets on a frame boundary, setting DET_ALIGN.OK. -/
  | realignment
  /-- DET_ALIGN_REALIGN (R362): An expert write of DET_ALIGN.REALIGN while no context runs starts the realignment sequence. -/
  | detAlignRealign
  /-- SEAL_DIGEST_DONE (R367): The SHA-384 of a sealed region is complete and the seal command is answered. -/
  | sealDigestDone (n : Fin 16) (id : Nat) (f : List (Nat × Nat))
  /-- RECORD_SIGNED (R373): A closed run record is signed with the identity key and event 0x0A40 recorded. -/
  | recordSigned (n : Fin 16)
  /-- DEFERRED_CHANGE_APPLY (R364): Frequency and ageing changes deferred during a TSTRICT run apply when the context ends. -/
  | deferredChangeApply
  /-- TEST_WAVE_DONE (R385): Every unit of a test wave has ended and the next wave starts. -/
  | testWaveDone (outs : List TestOut)
  /-- TEST_TIMEOUT (R379): A test not ended 500 ms after start is taken as failed. -/
  | testTimeout (outs : List TestOut)
  /-- MAP_RISE_APPLY (R394): A map change raising L applies once no context is resident. -/
  | mapRiseApply
  /-- SPARE_TRANSFER (R394): At a section boundary a logical index moves between a spindle and its half's spare by drain and restore. -/
  | spareTransfer (l : Fin 16)
  /-- ROLL_TEST_DUE (R395): A rolling test falls due for the next spindle in order, running, waiting or replacing a waiting test. -/
  | rollTestDue
  /-- ROLL_TEST_DONE (R397): A rolling test ends in pass, marginal or fail, the spindle swapping back or being fenced. -/
  | rollTestDone (o : TestOut)
  /-- ROLL_WAIT_TIMEOUT (R396): A boundary wait longer than TEST_ROLL_WAIT ends the rolling test and records 0x0809. -/
  | rollWaitTimeout
  /-- AGEING_READING (R400): Path-delay monitors and oscillators are read and filtered, the ageing raise and end of life recomputed. -/
  | ageingReading (mons : List (Nat × List (List Int))) (osc : List (Nat × Nat))
  /-- POH_SAVE (R406): Powered-on seconds are saved to the calibration store every hour. -/
  | pohSave
  /-- RESET_REQUEST (R410): A reset request is serialized at node 35, its scope's stops absorb and contexts are treated. -/
  | resetRequest (m : CtlMsg) (c : CtlWay)
  /-- RESET_ASSERT (R410): With the scope closed, the reset is asserted with its level's action. -/
  | resetAssert (seq : Nat)
  /-- RESET_INIT (R410): The reset action is done; spindles leave reset and controllers resume. -/
  | resetInit (seq : Nat) (slow : List Nat)
  /-- RESET_COMPLETE (R410): Every unit of the scope is IDLE, READY or FENCED, absorbing stops and event 0x0703 is recorded. -/
  | resetComplete (seq : Nat)
  /-- RESET_TIMEOUT (R412): A reset misses its timer and escalates to the next level, or to HALTED at level 4. -/
  | resetTimeout (seq : Nat)
  /-- SYS_RESET_N_ASSERT (R414): SYS_RESET_N held low for 100 ticks requests a level-4 reset. -/
  | sysResetNAssert
  /-- SYS_RESET_N_RELEASE (R414): SYS_RESET_N rises, starting the reset timer, or a shorter pulse is rejected with 0x070C. -/
  | sysResetNRelease (width : Nat)
  /-- PROGRESS_WATCHDOG_EXPIRY (R415): A watched spindle makes no progress for RST_WDOG, raising a hang indication. -/
  | progressWatchdogExpiry (ps : Fin 18)
  /-- STALL_HANG_THRESHOLD (R416): A channel stall timer reaching RST_STALL_HANG raises a hang indication. -/
  | stallHangThreshold (ps : Fin 18)
  /-- CKPT_HEADER_ACKED (R444): The invalid headers are acknowledged and the engine drains the regions to every destination. -/
  | ckptHeaderAcked (f : List (Nat × Nat))
  /-- CKPT_DRAIN_COMPLETE (R444): Every drain write is acknowledged OK and the owed release is issued. -/
  | ckptDrainComplete
  /-- CKPT_COMMITTED (R444): The valid headers are acknowledged, the image committed and event 0x0721 recorded. -/
  | ckptCommitted
  /-- CKPT_DRAIN_TIMEOUT (R445): A drain not complete within REEL_DRAIN_TMO fails the checkpoint with cause 3. -/
  | ckptDrainTimeout
  /-- RESTORE_HEADER_READ (R447): The image header is read and checked against the context and descriptor. -/
  | restoreHeaderRead
  /-- RESTORE_DATA_DONE (R447): The image data are read and digested, and the context may start pending verification. -/
  | restoreDataDone (f : List (Nat × Nat))
  /-- REFCLK_LOST (R457): REFCLK loss switches to holdover and forces the safe clock. -/
  | refclkLost (kind : Fin 4)
  /-- REFCLK_RESTORED (R457): REFCLK valid for 1 s switches back from holdover. -/
  | refclkRestored
  /-- REF_BOTH_LOST (R458): Both references lost run the PLLs from the ring oscillator, recording 0x0105 and asserting ALERT_N. -/
  | refBothLost
  /-- FREQ_CHANGE_REQUEST (R460): A change of F raises voltages if rising and locks the idle PLL. -/
  | freqChangeRequest
  /-- FREQ_CHANGE_BROADCAST (R460): With the PLL locked, clock generation sets target T and broadcasts the frequency-change message. -/
  | freqChangeBroadcast (w : CtlWay := { ce := 0, seamCe := 0, bad := none, atSeam := false })
  /-- FREQ_SWITCH (R460): At A-tick T every region switches to the new frequency and event 0x0101 is recorded. -/
  | freqSwitch
  /-- FREQ_VOLTAGE_SETTLED (R460): After a fall, lowered voltages settle and the change completes. -/
  | freqVoltageSettled
  /-- PLL_LOCK_TIMEOUT (R460): A lock not achieved in 200 us abandons the change and records 0x0108. -/
  | pllLockTimeout
  /-- DROOP_DETECT (R463): A droop detection stretches a later A-period and may raise DROOP by a forced change. -/
  | droopDetect (r : Fin 30)
  /-- STRETCH_WINDOW_END (R463): A stretch window ends and event 0x0102 records its count. -/
  | stretchWindowEnd
  /-- DROOP_RETURN (R464): After 100,000,000 ticks without a stretch, DROOP returns one step. -/
  | droopReturn
  /-- SAFE_CLOCK_STEP_UP (R464): With holdover no longer selected, the A-clock steps up from the safe clock every 1,000,000 ticks. -/
  | safeClockStepUp
  /-- CAP_WINDOW_END (R472): A 10 ms power window ends, raising or lowering POWER by a deferrable change. -/
  | capWindowEnd
  /-- POWER_AVG_1MS (R472): A 1 ms average above 1.1 times the cap raises POWER by a forced change. -/
  | powerAvg1ms (watts : BitVec 16)
  /-- JUNCTION_SENSOR_READ (R473): Junction sensors are read every 100 us and thermal levels are acted on. -/
  | junctionSensorRead (raw : List Int)
  /-- THERM_STEP_TIMER (R473): Every 100,000 ticks at level 1 THERM rises again, and every 10,000,000 cool ticks it falls. -/
  | thermStepTimer
  /-- DOMAIN_REGULATION_FAULT (R466): A domain more than 50 mV off plan for 1,000 ticks is reported and records 0x0109 cause 4. -/
  | domainRegulationFault (d : Fin 24)
  /-- PWR_GATE_WRITE (R469): An expert write of PWR_GATE switches a spindle domain off or on. -/
  | pwrGateWrite (v : Word)
  /-- TELEMETRY_REFRESH (R470): The I3C window copies are refreshed every 1 ms. -/
  | telemetryRefresh (meas : List (Nat × Nat × Nat))
  /-- I3C_READ (R582): An I3C transaction returns one snapshot of the telemetry window. -/
  | i3cRead (a : BitVec 7) (o : Byte) (n : Nat)
  /-- FLASH_SIDEBAND_CMD (R585): A sideband SPI command reads, programs or erases the OS image partition while PWR_EN is low. -/
  | flashSidebandCmd (c : SpiCmd) (aux : Bool)
  /-- LOCKSTEP_MISMATCH (R493): The command processor's comparator finds a mismatch and the device goes HALTED. -/
  | lockstepMismatch
  /-- MGMT_FRAME_RECEIVE (R486): A management port frame is classified to Cuard, virtio-net or discard. -/
  | mgmtFrameReceive (bytes : List Byte) (buffer : Bool)
  /-- VIRTIO_NET_TRANSMIT (R487): A virtio-net frame is sent, or discarded as spoofing Cuard. -/
  | virtioNetTransmit (bytes : List Byte) (stamp : Bool)
  /-- CORE_POISON_FAULT (R481): A core load or fetch of a poisoned word raises an access fault and records 0x0A0E. -/
  | corePoisonFault (hart : Fin 8) (fetch : Bool) (addr : Nat)
  /-- PPS_EDGE (R492): A PPS_IN rising edge is accepted, latching the PTP clock, or rejected. -/
  | ppsEdge (low high : Nat)
  /-- MGMT_PTP_SET_WRITE (R491): A step write of MGMT_PTP_SET sets the PTP clock and may fire or delay an epoch switch. -/
  | mgmtPtpSetWrite (sec : BitVec 48) (ns : Word)
  /-- PPS_EV_CLEAR (R483): A W1C of MGMT_PTP_CTL.PPS_EV clears interrupt source 6. -/
  | ppsEvClear
  /-- MGMT_CORE_RUN_WRITE (R483): A write of MGMT_CORE_RUN starts present harts. -/
  | mgmtCoreRunWrite (v : Word)
  /-- SPN_NUM_FLAGS_WRITE (R72): A W1C write of SPN_NUM_FLAGS clears flags in the register, refused at basic level while a context runs. -/
  | spnNumFlagsWrite (ps : Fin 18) (expert : Bool) (v : Word)
  /-- DEBUG_UNLOCK (R508): Writing SEC_DBG.UNLOCK in a DEBUG-key expert session unlocks the debug module and extends M1. -/
  | debugUnlock (id : Nat)
  /-- DEBUG_RELOCK (R508): Writing SEC_DBG.RELOCK relocks the debug module. -/
  | debugRelock (id : Nat)
  /-- SESSION_CONFIRM_TIMEOUT (R504): No valid confirm within 10 s discards the opening session. -/
  | sessionConfirmTimeout
  /-- SESSION_IDLE_TIMEOUT (R507): A session idle for SEC_IDLE seconds closes. -/
  | sessionIdleTimeout
  /-- SESSION_LIFETIME_EXPIRY (R507): A session closes 24 h after opening. -/
  | sessionLifetimeExpiry
  /-- QNONCE_EXPIRY (R503): The quorum nonce is replaced 600 s after it was issued. -/
  | qnonceExpiry
  /-- LEASE_EXPIRY (R526): A lease reaches its expiry tick and ends with event 0x0B02. -/
  | leaseExpiry
  /-- CMD_LCP_IN_WRITE (R516): A write to CMD_LCP_IN appends a word, and the last word hands the packet to the serializer. -/
  | cmdLcpInWrite (w : Word)
  /-- CMD_LCP_OUT_READ (R517): A read of CMD_LCP_OUT returns and consumes the next word of the oldest reply. -/
  | cmdLcpOutRead (who : Who)
  /-- RESYNC (R517): Writing CMD_LCP_ST.RESYNC discards any partial packet and ends discarding. -/
  | resync
  /-- LCP_ASSEMBLY_TIMEOUT (R517): A local packet incomplete after CMD_LCP_TMO is discarded with event 0x0B03. -/
  | lcpAssemblyTimeout
  /-- CMD_QUEUE_TIMEOUT (R524): A command not started within CMD_QTMO is answered TIMEOUT with event 0x0B04. -/
  | cmdQueueTimeout
  /-- A_FIRST_LIMIT (R524): An A-first command's work exceeding its limit ends in a final TIMEOUT. -/
  | aFirstLimit
  /-- IDENT_GET (R533): Returns identity, revisions, part, L, coordinate, MAC, FMAX and cap. -/
  | identGet (r : Req)
  /-- STATE_GET (R533): Returns CMD_DEV_STATE, its timestamp and CLK_ST. -/
  | stateGet (r : Req)
  /-- INVENTORY_GET (R533): Returns the spindle map, channel and half-port states and core status. -/
  | inventoryGet (r : Req)
  /-- CERT_GET (R533): Returns bytes of the device certificate. -/
  | certGet (r : Req)
  /-- MGMT_ADDR_SET (R485): Sets Cuard's IPv6 and IPv4 addresses for the next chip reset. -/
  | mgmtAddrSet (r : Req)
  /-- SESSION_OPEN (R504): Opens a session handshake, answering the device's ephemeral key and signature. -/
  | sessionOpen (r : Req)
  /-- SESSION_CONFIRM (R504): The manager's signature makes the session ACTIVE. -/
  | sessionConfirm (r : Req)
  /-- SESSION_CLOSE (R507): Closes the session. -/
  | sessionClose (r : Req)
  /-- LEASE_ACQUIRE (R526): Grants a lease on an unleased resource. -/
  | leaseAcquire (r : Req)
  /-- LEASE_RENEW (R533): Extends the named lease. -/
  | leaseRenew (r : Req)
  /-- LEASE_RELEASE (R526): Ends the named lease. -/
  | leaseRelease (r : Req)
  /-- LEASE_TAKEOVER (R529): By quorum, ends any lease on a resource and grants one to the issuing key. -/
  | leaseTakeover (r : Req)
  /-- LEASE_GET (R533): Returns the holder and expiry of each resource's lease. -/
  | leaseGet (r : Req)
  /-- QNONCE_GET (R503): Returns the current quorum nonce and its replacement tick. -/
  | qnonceGet (r : Req)
  /-- KEYTAB_GET (R533): Returns the key table. -/
  | keytabGet (r : Req)
  /-- KEYTAB_INIT (R501): From the local port, writes the first key table into an empty one and burns a KT_CTR bit. -/
  | keytabInit (r : Req)
  /-- KEYTAB_SET (R502): By quorum, replaces the key table, burning a KT_CTR bit and extending M4. -/
  | keytabSet (r : Req)
  /-- KEYTAB_RESTORE (R501): From the local port, restores a valid key table over an invalid one. -/
  | keytabRestore (r : Req)
  /-- CLK_PLAN_SET (R459): Sets the A-clock plan, changing F now or deferred. -/
  | clkPlanSet (r : Req)
  /-- PWR_CAP_SET (R471): Sets the commanded power cap. -/
  | pwrCapSet (r : Req)
  /-- DOMAIN_GATE (R469): Switches a spindle power domain off or on. -/
  | domainGate (r : Req)
  /-- CLKPWR_GET (R534): Returns clock and power status registers. -/
  | clkpwrGet (r : Req)
  /-- CTX_LOAD (R149): Loads a context from a load descriptor, answering ACCEPTED and validating the image. -/
  | ctxLoad (r : Req)
  /-- CTX_UNLOAD (R154): Unloads a resident context that is not running. -/
  | ctxUnload (r : Req)
  /-- CTX_SWITCH (R152): Requests a context switch, or starts a slot when none runs. -/
  | ctxSwitch (r : Req)
  /-- CTX_STATUS (R71): Returns a context's state, flags, step and counts, freeing an ended context's slot. -/
  | ctxStatus (r : Req)
  /-- QUANTUM_SET (R157): Sets SKN_QUANTUM. -/
  | quantumSet (r : Req)
  /-- STRIPE_SET (R226): Sets polder stripe interleaves while no context is resident. -/
  | stripeSet (r : Req)
  /-- SPN_GET (R536): Returns a spindle's SPN words, clearing RC counters. -/
  | spnGet (r : Req)
  /-- CHN_GET (R536): Returns a channel's state and counters. -/
  | chnGet (r : Req)
  /-- FENCE (R398): Fences a spindle, channel, port or core and creates a soft entry. -/
  | fence (r : Req)
  /-- RETURN (R398): Resets and tests a fenced unit and returns it to service if it passes. -/
  | returnUnit (r : Req)
  /-- RETURN_TEST_DONE (R398): The return test ends; the unit stays fenced or is returned, with the final reply. -/
  | returnTestDone (o : TestOut)
  /-- ROW_REPAIR (R240): Repairs a DRAM row onto a spare. -/
  | rowRepair (r : Req)
  /-- FUSE_BURN (R390): By quorum, burns a repair fuse entry or OWNER_DIG. -/
  | fuseBurn (r : Req) (bad : Bool)
  /-- SPOL_SET (R429): Sets the suspect policy mode. -/
  | spolSet (r : Req)
  /-- MARGIN_CLEAR (R432): Clears margin raises and the clock step. -/
  | marginClear (r : Req)
  /-- CHAN_CFG (R537): Sets a channel's scrub, auto repair, scrub period and threshold. -/
  | chanCfg (r : Req)
  /-- REPAIR_GET (R537): Returns soft-repair record entries. -/
  | repairGet (r : Req)
  /-- TEST_POLICY_SET (R392): Writes MIN_L and MAX_FCH to the soft-repair record for the next start-up. -/
  | testPolicySet (r : Req)
  /-- ROLL_CFG (R538): Sets rolling-test enables, period, guard and wait. -/
  | rollCfg (r : Req)
  /-- TEST_GET (R538): Returns test status and counters, clearing them. -/
  | testGet (r : Req)
  /-- RESET (R407): Requests a reset of level 1 to 4 of a scope. -/
  | reset (r : Req)
  /-- SUSPECT_GET (R539): Returns the suspect list. -/
  | suspectGet (r : Req)
  /-- SUSPECT_CLEAR (R422): Clears the suspect list. -/
  | suspectClear (r : Req)
  /-- QUAR_START (R423): Starts a quarantine replay of a suspect's instance. -/
  | quarStart (r : Req)
  /-- QUAR_END (R424): Ends quarantine with verdict ABORTED. -/
  | quarEnd (r : Req)
  /-- HANG_CFG (R539): Sets hang detectors, withdrawal N and W, and the watchdog. -/
  | hangCfg (r : Req)
  /-- COORD_SET (R556): Sets the coordinate, dimensions and topology during BRINGUP. -/
  | coordSet (r : Req)
  /-- FAB_ADDR_SET (R540): Sets fabric MAC, EtherType, VLAN, UDP port and IP prefixes. -/
  | fabAddrSet (r : Req)
  /-- RT_WRITE (R312): Writes routing-table entries into the non-current bank. -/
  | rtWrite (r : Req)
  /-- MC_WRITE (R312): Writes multicast-table entries into the non-current bank. -/
  | mcWrite (r : Req)
  /-- EPOCH_SWITCH (R313): Schedules a table-epoch switch at a PTP time. -/
  | epochSwitch (r : Req)
  /-- PORT_CFG (R324): Sets a port's mode, split, strict and half-port controls for the next training. -/
  | portCfg (r : Req)
  /-- PORT_ACT (R292): Disables, enables, returns or retrains a half-port. -/
  | portAct (r : Req)
  /-- PORT_GW_SET (R294): Sets a half-port's gateway MAC. -/
  | portGwSet (r : Req)
  /-- TOPO_GET (R540): Returns the topology report of all half-ports. -/
  | topoGet (r : Req)
  /-- DIKE_SET (R344): Sets the dike ring ID, size and half-port modes, retraining changed halves. -/
  | dikeSet (r : Req)
  /-- WATCH_SET (R342): Writes watch-table entries. -/
  | watchSet (r : Req)
  /-- PEER_CLEAR (R343): Returns a BREACHED peer to LIVE when it has heartbeated recently. -/
  | peerClear (r : Req)
  /-- SHADOW_SET (R346): Sets the shadow flag while no context is resident. -/
  | shadowSet (r : Req)
  /-- SHADOW_PROMOTE (R346): By quorum, clears the shadow flag when the step counter reaches a named step. -/
  | shadowPromote (r : Req)
  /-- COLL_CFG (R350): Sets collective timers, heartbeat interval, poll and miss count. -/
  | collCfg (r : Req)
  /-- WITHDRAW (R38): By quorum, withdraws the device and records the withdrawal in flash. -/
  | withdraw (r : Req)
  /-- RETURN_SERVICE (R38): By quorum, returns a withdrawn device to SERVICE, clearing the record and counted resets. -/
  | returnService (r : Req)
  /-- CKPT_SETUP (R439): Checks and copies a context's checkpoint descriptor. -/
  | ckptSetup (r : Req) (f : List (Nat × Nat))
  /-- CKPT_NOW (R443): Makes a checkpoint due at the next step advance. -/
  | ckptNow (r : Req)
  /-- RESTORE (R447): Starts restoring a context from a checkpoint image. -/
  | restore (r : Req)
  /-- REEL_CFG (R446): Sets MTBF, interval bounds and drain timeout, recomputing the interval. -/
  | reelCfg (r : Req)
  /-- REEL_GET (R541): Returns REEL registers, clearing counters. -/
  | reelGet (r : Req)
  /-- QUOTE (R499): Returns a signed quote over the nonce and measurements. -/
  | quote (r : Req)
  /-- MEAS_EXTEND (R497): Extends measurement register M5-M7. -/
  | measExtend (r : Req)
  /-- SEAL (R367): Seals and hashes a DRAM region of a resident context. -/
  | sealRegion (r : Req)
  /-- RECORD_CUT (R370): Closes the open run record at the next step advance and opens a new one. -/
  | recordCut (r : Req)
  /-- RECORD_READ (R542): Returns bytes of a signed run record. -/
  | recordRead (r : Req)
  /-- RECORD_RELEASE (R374): Frees a run record and every earlier one. -/
  | recordRelease (r : Req)
  /-- DET_GET (R542): Returns DET registers, clearing DET_RNG_RSV. -/
  | detGet (r : Req)
  /-- CAL_READ (R543): Returns bytes of a calibration item. -/
  | calRead (r : Req)
  /-- CAL_WRITE (R565): Writes a calibration item in place, effective at the next chip reset. -/
  | calWrite (r : Req)
  /-- CAL_WRITE_DONE (R565): The flash write of a calibration item ends and the final reply is sent. -/
  | calWriteDone
  /-- LOG_READ (R544): Returns event records from the log. -/
  | logRead (r : Req)
  /-- TELEM_GET (R544): Returns power, temperature and domain telemetry. -/
  | telemGet (r : Req)
  /-- REG_READ_BASIC (R544): Reads registers at the basic level, clearing RC fields. -/
  | regReadBasic (r : Req)
  /-- CMD_STATUS (R524): Returns the final status of one of the session's last 64 commands. -/
  | cmdStatus (r : Req)
  /-- REG_READ (R545): Expert read of registers. -/
  | regRead (r : Req)
  /-- REG_WRITE (R545): Expert write of registers. -/
  | regWrite (r : Req)
  /-- REG_MODIFY (R545): Expert read-modify-write of one register. -/
  | regModify (r : Req)
  /-- STARTUP_PROC (R549): Start-up phase 1 runs the command processor self-check. -/
  | startupProc (good : Bool)
  /-- STARTUP_STRAPS (R551): Phase 2 samples the straps 1 ms after start-up begins. -/
  | startupStraps (samples : List (BitVec 15))
  /-- STRAP_RESAMPLE (R551): An unstable strap pin is sampled again 100 us later, up to three times. -/
  | strapResample (samples : List (BitVec 15))
  /-- STARTUP_FUSES (R554): Phase 3 reads fuses, judges the key table and extends M0 and M1. -/
  | startupFuses (bad : Option (BitVec 16))
  /-- STARTUP_CLOCKS (R555): Phase 4 locks all PLLs, aligns dividers and releases chip-level reset. -/
  | startupClocks (bad : Option (Fin 6)) (refclk : Bool)
  /-- STARTUP_CAL (R549): Phase 5 reads and judges calibration, soft-repair and withdrawal records. -/
  | startupCal
  /-- STARTUP_DRAM (R549): Phase 6 brings up or trains each DRAM channel. -/
  | startupDram (failed : List Nat)
  /-- STARTUP_TEST (R384): Phase 7 runs the start-up tests in power waves. -/
  | startupTest
  /-- STARTUP_ACCEPT (R391): Phase 8 applies repairs, builds the map, judges acceptance and loads numeric tables. -/
  | startupAccept
  /-- STARTUP_COORD (R556): Phase 9 assigns the coordinate from straps or waits for COORD_SET. -/
  | startupCoord
  /-- COORD_WAIT_EXPIRY (R557): No COORD_SET within 600 s records 0x07E5 and start-up continues without a coordinate. -/
  | coordWaitExpiry
  /-- STARTUP_LINKS (R549): Phase 10 makes the first training attempt of every enabled half-port. -/
  | startupLinks
  /-- STARTUP_IMAGE (R559): Phase 11 obtains the OS image from the strapped source and checks it. -/
  | startupImage
  /-- TFTP_BLOCK (R559): A TFTP block arrives, the header checked before acknowledging later blocks. -/
  | tftpBlock (n : BitVec 16) (data : List Byte)
  /-- TFTP_RETRANSMIT (R559): After 1 s without a block the client retransmits, giving up after five tries. -/
  | tftpRetransmit
  /-- STARTUP_LAUNCH (R561): Phase 12 writes back records, extends M3, starts hart 0 and enters SERVICE or WITHDRAWN. -/
  | startupLaunch
  /-- STARTUP_PHASE_LIMIT (R549): A start-up phase passes its limit and takes its failure outcome, often HALTED. -/
  | startupPhaseLimit
  /-- SEAM_CROSSING_LOSS (R264): A seam crossing, data bundle or clock wiring, is lost, stopping the east-half units that depend on it and leading to HALTED through reset escalation. -/
  | seamCrossingLoss (k : Fin 6)
  /-- HOLDOVER_LOST (R456): The holdover oscillator, monitored against REFCLK while REFCLK is selected, falls out of tolerance and CLK_ST.HOLD_OK clears. -/
  | holdoverLost
  /-- MGMT_LINK_UP (R484): The management port link comes up at 25G or 10G and MGMT_PORT_ST shows UP and SPEED. -/
  | mgmtLinkUp
  /-- MGMT_LINK_LOSS (R484): The management port link is lost and MGMT_PORT_ST.UP clears, mode 0 resuming its speed alternation. -/
  | mgmtLinkLoss
  /-- MGMT_SPEED_ALTERNATE (R484): In MODE 0 the management port, after 1 s at 25G without link, tries 10G, alternating until the link is up. -/
  | mgmtSpeedAlternate
  /-- CONSOLE_RECEIVE (R479): Bytes arriving on UART_RX are delivered to the virtio console device's input and raise interrupt source 5. -/
  | consoleReceive (bytes : List Byte)
  /-- CONSOLE_TRANSMIT (R479): Software's virtio console output is sent on UART_TX. -/
  | consoleTransmit (bytes : List Byte)
  /-- RC_READ (R8): A read of a register with RC fields returns their values and clears them. -/
  | rcRead (who : Who) (a : Nat) (n : Nat := 4)
  /-- SKN_STATUS_READ (R483): A read of SKN_STATUS clears interrupt source 2, for a context state change. -/
  | sknStatusRead (who : Who)
  /-- CMD_DEV_STATE_READ (R483): A read of CMD_DEV_STATE clears interrupt source 7, for a device state or flag change. -/
  | cmdDevStateRead (who : Who)
  /-- CORE_ACCESS_FAULT (R478): An application-core access outside the mapped ranges, or to an unmapped device address, raises an access-fault exception and records event 0x0210. -/
  | coreAccessFault (hart : Fin 8) (fetch write : Bool) (addr : Nat)
  /-- I3C_DYNAMIC_ADDRESS (R581): A SETDASA or ENTDAA on the I3C bus gives the module a dynamic address, ending its I2C-mode answering. -/
  | i3cDynamicAddress (a : BitVec 7)
  /-- DHCP_REPLY (R559): In phase 11 a DHCPv6 or DHCP reply gives the boot client its address and boot file, so the TFTP transfer can begin. -/
  | dhcpReply (own server file : List Byte)
  deriving DecidableEq, Repr

end Sys2Proof
end

