-- ==== Sys2Proof/Machine/Ecc.lean ====
section
/-! DEFINITION. The curve P-384 with ECDSA and ECDH (FIPS 186-5, SP 800-56A, RFC 6979), which the manual
names by their standards (spec/11_determinism.md R373; spec/16_management_security.md R494 to R506; log 29). -/

namespace Sys2Proof.Machine

/-- The field prime, group order and coefficient b of P-384, and its base point. -/
def ecP : Nat := 2 ^ 384 - 2 ^ 128 - 2 ^ 96 + 2 ^ 32 - 1
def ecN : Nat := 0xFFFFFFFFFFFFFFFFFFFFFFFFFFFFFFFFFFFFFFFFFFFFFFFFC7634D81F4372DDF581A0DB248B0A77AECEC196ACCC52973
def ecB : Nat := 0xB3312FA7E23EE7E4988E056BE3F82D19181D9C6EFE8141120314088F5013875AC656398D8A2ED19D2A85C8EDD3EC2AEF
def ecG : Nat × Nat :=
  (0xAA87CA22BE8B05378EB1C71EF320AD746E1D3B628BA79B9859F741E082542A385502F25DBF55296C3A545E3872760AB7,
   0x3617DE4A96262C6F5D9E98BF9292DC29F8F41DBD289A147CE9DA3113B5F0B8C00A60B1CE1D7E819D7A431D7C90EA0E5F)

/-- `b` to the power `e`, an exponent of at most `n` bits, modulo `m`. -/
def powMod (m b : Nat) : Nat → Nat → Nat
  | 0, _ => 1 % m
  | n + 1, e =>
    let h := powMod m b n (e / 2)
    if e % 2 = 1 then h * h % m * b % m else h * h % m

/-- Inverse modulo a prime of at most 384 bits. -/
def invMod (m a : Nat) : Nat := powMod m (a % m) 384 (m - 2)

/-- A point of the curve; none is the point at infinity. -/
abbrev EcPoint := Option (Nat × Nat)

def ecDouble : EcPoint → EcPoint
  | none => none
  | some (x, y) =>
    if y = 0 then none
    else
      let l := (3 * x * x + 3 * (ecP - 1)) % ecP * invMod ecP (2 * y) % ecP
      let x3 := (l * l + 2 * (ecP - x)) % ecP
      some (x3, (l * (x + ecP - x3) + ecP - y) % ecP)

def ecAdd (a b : EcPoint) : EcPoint :=
  match a, b with
  | none, q => q
  | p, none => p
  | some (x1, y1), some (x2, y2) =>
    if x1 = x2 then (if y1 = y2 then ecDouble (some (x1, y1)) else none)
    else
      let l := (y2 + ecP - y1) % ecP * invMod ecP (x2 + ecP - x1) % ecP
      let x3 := (l * l + (ecP - x1) + (ecP - x2)) % ecP
      some (x3, (l * (x1 + ecP - x3) + ecP - y1) % ecP)

/-- A multiple of a point, for a factor of at most `n` bits. -/
def ecMul (p : EcPoint) : Nat → Nat → EcPoint
  | 0, _ => none
  | n + 1, k =>
    let h := ecDouble (ecMul p n (k / 2))
    if k % 2 = 1 then ecAdd h p else h

/-- The pair lies on the curve. -/
def ecOnCurve (p : Nat × Nat) : Bool :=
  decide (p.1 < ecP) && decide (p.2 < ecP) &&
    p.2 * p.2 % ecP == (p.1 * p.1 * p.1 + ecB + 3 * (ecP - 1) * p.1) % ecP

/-- The public key of a private scalar. -/
def ecPub (d : Nat) : Nat × Nat := (ecMul (some ecG) 384 d).getD (0, 0)

/-- A public key as 96 bytes, X then Y, and back. -/
def ecBytes (p : Nat × Nat) : List Byte := toBE 48 p.1 ++ toBE 48 p.2
def ecOfBytes (l : List Byte) : Nat × Nat := (beNat (sliceB l 0 48), beNat (sliceB l 48 48))

/-- ECDSA verification of a 96-byte signature r‖s on a digest. -/
def ecdsaVerify (pub : Nat × Nat) (digest sig : List Byte) : Bool :=
  let r := beNat (sliceB sig 0 48)
  let s := beNat (sliceB sig 48 48)
  if r = 0 ∨ s = 0 ∨ ecN ≤ r ∨ ecN ≤ s ∨ ecOnCurve pub = false then false
  else
    let e := beNat digest
    let w := invMod ecN s
    match ecAdd (ecMul (some ecG) 384 (e * w % ecN)) (ecMul (some pub) 384 (r * w % ecN)) with
    | none => false
    | some (x, _) => x % ecN == r

/-- The candidates for the per-signature number of RFC 6979, `n` tries. -/
def rfc6979 : Nat → List Byte → List Byte → Nat
  | 0, _, _ => 1
  | n + 1, k, v =>
    let v := hmac384 k v
    let c := beNat v
    if 1 ≤ c ∧ c < ecN then c
    else
      let k := hmac384 k (v ++ [0])
      rfc6979 n k (hmac384 k v)

/-- ECDSA signature r‖s of a digest by private scalar `d`, with the deterministic number of RFC 6979. -/
def ecdsaSign (d : Nat) (digest : List Byte) : List Byte :=
  let x := toBE 48 d
  let h := toBE 48 (beNat digest % ecN)
  let v := List.replicate 48 (1 : Byte)
  let k := hmac384 (List.replicate 48 0) (v ++ [0] ++ x ++ h)
  let v := hmac384 k v
  let k := hmac384 k (v ++ [1] ++ x ++ h)
  let v := hmac384 k v
  let n := rfc6979 16 k v
  let r := ((ecMul (some ecG) 384 n).getD (0, 0)).1 % ecN
  toBE 48 r ++ toBE 48 (invMod ecN n * (beNat digest + r * d) % ecN)

/-- The shared x coordinate of ECDH, 48 bytes. -/
def ecdh (d : Nat) (pub : Nat × Nat) : List Byte := toBE 48 ((ecMul (some pub) 384 d).getD (0, 0)).1

end Sys2Proof.Machine
end

