-- ==== Sys2Proof/Machine/Regs.lean ====
section
/-! DEFINITION. The register map: offsets from 0x50_0000_0000, fields, access codes, reset values and
the values a field takes (spec/01_architecture.md R34, spec/00_scope.md R7 to R9, and the register
tables of every chapter).  A field's list of ranges is empty where every value is allowed. -/

namespace Sys2Proof.Machine

/-- Access codes (R8). -/
inductive Access where
  | ro | rw | w1c | w1s | rc | wo
  deriving DecidableEq, Repr

/-- A field `[hi:lo]` with its reset value and, for a writable field, the ranges it takes (R9). -/
structure Field where
  hi : Nat
  lo : Nat
  acc : Access
  rst : Nat
  lim : List (Nat × Nat)
  deriving DecidableEq, Repr

/-- A register, or an array of them: base offset, counts with strides, and fields. -/
structure RegRow where
  base : Nat
  dims : List (Nat × Nat)
  fields : List Field
  deriving DecidableEq, Repr

namespace Reg


/-! spec/01_architecture.md, R25 -/

def SKN_LMAP (i : Nat) : Nat := 0x4000F00 + 0x4 * i
def SKN_POS (i : Nat) : Nat := 0x4000F40 + 0x4 * i
def SKN_SPARE_ST : Nat := 0x4000F80

/-! spec/01_architecture.md, R40 -/

def CMD_DEV_STATE : Nat := 0x7200000
def CMD_DEV_STATE_TS_LO : Nat := 0x7200008
def CMD_DEV_STATE_TS_HI : Nat := 0x720000C

/-! spec/02_numerics.md, R71 -/

def SPN_NUM_FLAGS (i : Nat) : Nat := 0x2000400 + 0x100000 * i
def SPN_NUM_POISON_CNT (i : Nat) : Nat := 0x2000404 + 0x100000 * i
def SPN_NUM_REV (i : Nat) : Nat := 0x2000408 + 0x100000 * i

/-! spec/03_spindle.md, R113 -/

def SPN_STATE (i : Nat) : Nat := 0x2000000 + 0x100000 * i
def SPN_SKC_LO (i : Nat) : Nat := 0x2000008 + 0x100000 * i
def SPN_SKC_HI (i : Nat) : Nat := 0x200000C + 0x100000 * i
def SPN_HOLD_CNT_LO (i : Nat) : Nat := 0x2000010 + 0x100000 * i
def SPN_HOLD_CNT_HI (i : Nat) : Nat := 0x2000014 + 0x100000 * i
def SPN_SECT (i : Nat) : Nat := 0x2000018 + 0x100000 * i
def SPN_STALE_CNT (i : Nat) : Nat := 0x2000020 + 0x100000 * i
def SPN_FLUSH_CNT (i : Nat) : Nat := 0x2000024 + 0x100000 * i
def SPN_SECT_CTL (i : Nat) : Nat := 0x2000028 + 0x100000 * i
def SPN_DRAIN_CTL (i : Nat) : Nat := 0x200002C + 0x100000 * i
def SPN_OPS (i : Nat) : Nat := 0x2000030 + 0x100000 * i
def SPN_GEN_OPS (i : Nat) (j : Nat) : Nat := 0x2000034 + 0x100000 * i + 0x4 * j
def SPN_HOLD_CAUSE_CNT (i : Nat) (j : Nat) : Nat := 0x2000040 + 0x100000 * i + 0x4 * j
def SPN_SLUICE_ST (i : Nat) (j : Nat) : Nat := 0x2000060 + 0x100000 * i + 0x4 * j
def SPN_MS_HWM (i : Nat) : Nat := 0x2000080 + 0x100000 * i
def SPN_FAULT (i : Nat) : Nat := 0x2000090 + 0x100000 * i

/-! spec/04_skein.md, R157 -/

def SKN_STATUS : Nat := 0x4000000
def SKN_RESIDENT : Nat := 0x4000004
def SKN_MINPOS_LO : Nat := 0x4000008
def SKN_MINPOS_HI : Nat := 0x400000C
def SKN_QUANTUM : Nat := 0x4000010
def SKN_LOAD_ERR : Nat := 0x4000014
def SKN_LOAD_OFF_LO : Nat := 0x4000018
def SKN_LOAD_OFF_HI : Nat := 0x400001C
def SKN_DIGEST (i : Nat) : Nat := 0x4000040 + 0x4 * i

/-! spec/04_skein.md, R158 -/

def SPN_STRAND (i : Nat) : Nat := 0x2000500 + 0x100000 * i
def SPN_LOOP_ITER (i : Nat) (j : Nat) : Nat := 0x2000510 + 0x100000 * i + 0x4 * j
def SPN_LOOP_TRIP (i : Nat) (j : Nat) : Nat := 0x2000520 + 0x100000 * i + 0x4 * j
def SPN_STEP_LO (i : Nat) : Nat := 0x2000530 + 0x100000 * i
def SPN_STEP_HI (i : Nat) : Nat := 0x2000534 + 0x100000 * i

/-! spec/05_sparsity_conditional.md, R194 -/

def SPN_SPARSE_ERR (i : Nat) : Nat := 0x2000600 + 0x100000 * i
def SPN_ZS_CNT (i : Nat) : Nat := 0x2000604 + 0x100000 * i
def SPN_DSP_STAT (i : Nat) : Nat := 0x2000610 + 0x100000 * i
def SPN_DSP_TOK (i : Nat) : Nat := 0x2000614 + 0x100000 * i
def SPN_DSP_DROP (i : Nat) : Nat := 0x2000618 + 0x100000 * i
def SPN_DSP_KEPT (i : Nat) : Nat := 0x200061C + 0x100000 * i
def SPN_DSP_TMO (i : Nat) : Nat := 0x2000620 + 0x100000 * i
def SPN_DSP_XTRA (i : Nat) : Nat := 0x2000624 + 0x100000 * i

/-! spec/06_long_sequences.md, R218 -/

def SPN_SEQ_ROWS (i : Nat) : Nat := 0x2000700 + 0x100000 * i
def SPN_SEQ_ENG (i : Nat) : Nat := 0x2000704 + 0x100000 * i
def SPN_SEQ_EMPTY (i : Nat) : Nat := 0x2000708 + 0x100000 * i

/-! spec/07_memory.md, R227 -/

def MEM_STRIPE (i : Nat) (j : Nat) : Nat := 0x1000800 + 0x1000 * i + 0x4 * j

/-! spec/07_memory.md, R240 -/

def MEM_REPAIR (i : Nat) (j : Nat) : Nat := 0x1000100 + 0x1000 * i + 0x4 * j

/-! spec/07_memory.md, R248 -/

def SPN_SRAM_CE (i : Nat) : Nat := 0x2000800 + 0x100000 * i
def SPN_SRAM_UE (i : Nat) : Nat := 0x2000804 + 0x100000 * i

/-! spec/07_memory.md, R249 -/

def MEM_CH_CTL (i : Nat) : Nat := 0x1000000 + 0x1000 * i
def MEM_CH_STAT (i : Nat) : Nat := 0x1000004 + 0x1000 * i
def MEM_CE_CNT (i : Nat) : Nat := 0x1000010 + 0x1000 * i
def MEM_UE_CNT (i : Nat) : Nat := 0x1000014 + 0x1000 * i
def MEM_POISON_RD (i : Nat) : Nat := 0x1000018 + 0x1000 * i
def MEM_LAST_ERR (i : Nat) : Nat := 0x1000020 + 0x1000 * i
def MEM_LAST_SYN (i : Nat) : Nat := 0x1000024 + 0x1000 * i
def MEM_SCRUB_CTL (i : Nat) : Nat := 0x1000030 + 0x1000 * i
def MEM_SCRUB_POS (i : Nat) : Nat := 0x1000034 + 0x1000 * i
def MEM_CE_THR (i : Nat) : Nat := 0x1000038 + 0x1000 * i
def MEM_RG_CE (i : Nat) (j : Nat) : Nat := 0x1000040 + 0x1000 * i + 0x4 * j

/-! spec/08_on_die_interconnect.md, R283 -/

def RING_OP_TMO : Nat := 0x4200010
def RING_CE (i : Nat) : Nat := 0x4200020 + 0x4 * i
def RING_UE (i : Nat) : Nat := 0x4200030 + 0x4 * i
def RING_LATE : Nat := 0x4200040
def RING_FLITS_LO (i : Nat) : Nat := 0x4200080 + 0x8 * i
def RING_FLITS_HI (i : Nat) : Nat := 0x4200084 + 0x8 * i
def RING_STOP_ST (i : Nat) : Nat := 0x4200100 + 0x4 * i
def RING_ABS_WR (i : Nat) : Nat := 0x4200200 + 0x4 * i
def RING_ABS_RD (i : Nat) : Nat := 0x4200300 + 0x4 * i
def RING_ABS_CH (i : Nat) : Nat := 0x4200400 + 0x4 * i
def CNET_STAT : Nat := 0x4300000
def CNET_CE : Nat := 0x4300004
def CNET_UE : Nat := 0x4300008
def CNET_EVT_LOST : Nat := 0x430000C
def SEAM_CE (i : Nat) : Nat := 0x4400000 + 0x4 * i
def SEAM_UE (i : Nat) : Nat := 0x4400010 + 0x4 * i
def SEAM_SPARE (i : Nat) : Nat := 0x4400020 + 0x4 * i
def SEAM_MM_CE : Nat := 0x4400030
def SEAM_MM_UE : Nat := 0x4400034
def SEAM_MM_SPARE : Nat := 0x4400038
def CHN_STALL_THR : Nat := 0x4100000
def CHN_KNOT_CTX : Nat := 0x4100004
def CHN_KNOT_TS_LO : Nat := 0x4100008
def CHN_KNOT_TS_HI : Nat := 0x410000C
def CHN_OUT_ST (i : Nat) (j : Nat) : Nat := 0x4110000 + 0x400 * i + 0x10 * j
def CHN_SENT (i : Nat) (j : Nat) : Nat := 0x4110004 + 0x400 * i + 0x10 * j
def CHN_DROP (i : Nat) (j : Nat) : Nat := 0x4110008 + 0x400 * i + 0x10 * j
def CHN_OSTALL (i : Nat) (j : Nat) : Nat := 0x411000C + 0x400 * i + 0x10 * j
def CHN_IN_ST (i : Nat) (j : Nat) : Nat := 0x4120000 + 0x400 * i + 0x10 * j
def CHN_RCVD (i : Nat) (j : Nat) : Nat := 0x4120004 + 0x400 * i + 0x10 * j
def CHN_DISC (i : Nat) (j : Nat) : Nat := 0x4120008 + 0x400 * i + 0x10 * j
def CHN_ISTALL (i : Nat) (j : Nat) : Nat := 0x412000C + 0x400 * i + 0x10 * j

/-! spec/09_fabric.md, R323 -/

def FAB_CTL : Nat := 0x5000000
def FAB_COORD : Nat := 0x5000004
def FAB_DIMS : Nat := 0x5000008
def FAB_EPOCH : Nat := 0x500000C
def FAB_MAC : Nat := 0x5000010
def FAB_ETYPE : Nat := 0x5000014
def FAB_UDP : Nat := 0x5000018
def FAB_IP6_PFX (i : Nat) : Nat := 0x5000020 + 0x4 * i
def FAB_IP4_PFX : Nat := 0x500002C
def FAB_OP_TMO : Nat := 0x5000040
def FAB_HOP_TMO : Nat := 0x5000044
def FAB_RX_TMO : Nat := 0x5000048
def FAB_TOMB : Nat := 0x500004C
def FAB_EPOCH_GUARD : Nat := 0x5000050
def FAB_TRK : Nat := 0x5000060
def FAB_DISC (i : Nat) : Nat := 0x5000100 + 0x4 * i
def FAB_RT (i : Nat) (j : Nat) : Nat := 0x5040000 + 0x8000 * i + 0x4 * j
def FAB_MC_LO (i : Nat) (j : Nat) : Nat := 0x5080000 + 0x20000 * i + 0x8 * j
def FAB_MC_HI (i : Nat) (j : Nat) : Nat := 0x5080004 + 0x20000 * i + 0x8 * j

/-! spec/09_fabric.md, R324 -/

def PORT_CTL (i : Nat) : Nat := 0x5100000 + 0x10000 * i
def PORT_HCTL (i : Nat) (j : Nat) : Nat := 0x5100004 + 0x10000 * i + 0x4 * j
def PORT_ST (i : Nat) (j : Nat) : Nat := 0x5100010 + 0x10000 * i + 0x4 * j
def PORT_PARTNER (i : Nat) (j : Nat) : Nat := 0x5100020 + 0x10000 * i + 0x4 * j
def PORT_GW_LO (i : Nat) (j : Nat) : Nat := 0x5100028 + 0x10000 * i + 0x8 * j
def PORT_GW_HI (i : Nat) (j : Nat) : Nat := 0x510002C + 0x10000 * i + 0x8 * j
def PORT_FEC_THR (i : Nat) : Nat := 0x5100040 + 0x10000 * i
def PORT_TX_PKT_LO (i : Nat) : Nat := 0x5100100 + 0x10000 * i
def PORT_TX_PKT_HI (i : Nat) : Nat := 0x5100104 + 0x10000 * i
def PORT_RX_PKT_LO (i : Nat) : Nat := 0x5100108 + 0x10000 * i
def PORT_RX_PKT_HI (i : Nat) : Nat := 0x510010C + 0x10000 * i
def PORT_RX_BAD (i : Nat) : Nat := 0x5100110 + 0x10000 * i
def PORT_RX_OTHER (i : Nat) : Nat := 0x5100114 + 0x10000 * i
def PORT_FEC_CE (i : Nat) : Nat := 0x5100118 + 0x10000 * i
def PORT_FEC_UE (i : Nat) : Nat := 0x510011C + 0x10000 * i
def PORT_RETRY (i : Nat) : Nat := 0x5100120 + 0x10000 * i

/-! spec/10_collectives.md, R350 -/

def COLL_CTL : Nat := 0x6000000
def COLL_DIKE : Nat := 0x6000004
def COLL_STAT : Nat := 0x6000008
def COLL_DEADLINE : Nat := 0x6000010
def COLL_AGREE_TMO : Nat := 0x6000014
def COLL_RESULT_TMO : Nat := 0x6000018
def COLL_HB_INT : Nat := 0x600001C
def COLL_POLL : Nat := 0x6000020
def COLL_HB_MISS : Nat := 0x6000024
def COLL_DONE : Nat := 0x6000040
def COLL_FAIL : Nat := 0x6000044
def COLL_DROP : Nat := 0x6000048
def COLL_CW_TX : Nat := 0x600004C
def COLL_CW_RED : Nat := 0x6000050
def COLL_SHADOW_OK : Nat := 0x6000054
def COLL_SHADOW_BAD : Nat := 0x6000058
def COLL_SHADOW_LATE : Nat := 0x600005C
def COLL_PEER_HB : Nat := 0x6000068
def COLL_LAST_FAIL : Nat := 0x6000060
def COLL_PEER (i : Nat) : Nat := 0x6000100 + 0x4 * i
def COLL_ECNT (i : Nat) : Nat := 0x6010000 + 0x4 * i

/-! spec/11_determinism.md, R377 -/

def DET_STEP_LO : Nat := 0x6100000
def DET_STEP_HI : Nat := 0x6100004
def DET_SEED_LO : Nat := 0x6100008
def DET_SEED_HI : Nat := 0x610000C
def DET_ALIGN : Nat := 0x6100010
def DET_RUN_STRETCH : Nat := 0x6100014
def DET_RUN_FCHG : Nat := 0x6100018
def DET_RUN_FOREIGN : Nat := 0x610001C
def DET_REC_ST : Nat := 0x6100020
def DET_RNG_RSV : Nat := 0x6100024

/-! spec/12_self_test_repair_ageing.md, R406 -/

def TEST_CTL : Nat := 0x400000
def TEST_ROLL_PERIOD : Nat := 0x400004
def TEST_ROLL_WAIT : Nat := 0x400008
def TEST_ROLL_ST : Nat := 0x40000C
def TEST_POLICY : Nat := 0x400010
def TEST_SU : Nat := 0x400014
def TEST_ROLL_DONE : Nat := 0x400020
def TEST_ROLL_FAIL : Nat := 0x400024
def TEST_ROLL_ABORT : Nat := 0x400028
def TEST_RESULT (i : Nat) : Nat := 0x400100 + 0x4 * i
def TEST_MISR_LO (i : Nat) : Nat := 0x400200 + 0x8 * i
def TEST_MISR_HI (i : Nat) : Nat := 0x400204 + 0x8 * i
def FUSE_FREE : Nat := 0x300000
def FUSE_PROP_CNT : Nat := 0x300004
def FUSE_BURN_ST : Nat := 0x300008
def FUSE_MAP (i : Nat) : Nat := 0x301000 + 0x4 * i
def HLTH_POH_LO : Nat := 0x500000
def HLTH_POH_HI : Nat := 0x500004
def HLTH_FMAX : Nat := 0x500008
def HLTH_EOL_WARN : Nat := 0x50000C
def HLTH_PEND : Nat := 0x500010
def HLTH_AGE (i : Nat) : Nat := 0x500100 + 0x4 * i
def HLTH_EOL (i : Nat) : Nat := 0x500200 + 0x4 * i
def HLTH_RO (i : Nat) : Nat := 0x500400 + 0x4 * i

/-! spec/13_hangs_resets_recovery.md, R435 -/

def RST_CTL : Nat := 0x200000
def RST_TMO1 : Nat := 0x200010
def RST_TMO2 : Nat := 0x200014
def RST_TMO3 : Nat := 0x200018
def RST_TMO4 : Nat := 0x20001C
def RST_WDOG : Nat := 0x200020
def RST_FTMO_WIN : Nat := 0x20002C
def RST_STALL_HANG : Nat := 0x200024
def RST_FTMO_CNT : Nat := 0x200028
def RST_WD : Nat := 0x200030
def RST_SPOL : Nat := 0x200040
def RST_STAT : Nat := 0x200044
def RST_LAST : Nat := 0x200048
def RST_QUAR : Nat := 0x200050
def RST_HANG_CNT : Nat := 0x200060
def RST_ESC_CNT : Nat := 0x200064
def RST_RPT : Nat := 0x200068
def RST_CNT_TS_LO (i : Nat) : Nat := 0x200100 + 0x8 * i
def RST_CNT_TS_HI (i : Nat) : Nat := 0x200104 + 0x8 * i
def RST_MARGIN (i : Nat) : Nat := 0x200200 + 0x4 * i
def RST_CLEAN_LO (i : Nat) : Nat := 0x200300 + 0x8 * i
def RST_CLEAN_HI (i : Nat) : Nat := 0x200304 + 0x8 * i
def RST_SUSP0 (i : Nat) : Nat := 0x200400 + 0x20 * i
def RST_SUSP1 (i : Nat) : Nat := 0x200404 + 0x20 * i
def RST_SUSP2 (i : Nat) : Nat := 0x200408 + 0x20 * i
def RST_SUSP3 (i : Nat) : Nat := 0x20040C + 0x20 * i
def RST_SUSP4 (i : Nat) : Nat := 0x200410 + 0x20 * i
def RST_SUSP5 (i : Nat) : Nat := 0x200414 + 0x20 * i

/-! spec/14_checkpoint.md, R452 -/

def REEL_ST : Nat := 0x6200000
def REEL_SEQ : Nat := 0x6200004
def REEL_STEP_LO : Nat := 0x6200008
def REEL_STEP_HI : Nat := 0x620000C
def REEL_COST_LO : Nat := 0x6200010
def REEL_COST_HI : Nat := 0x6200014
def REEL_MTBF : Nat := 0x6200018
def REEL_IVL : Nat := 0x620001C
def REEL_IVL_MIN : Nat := 0x6200020
def REEL_IVL_MAX : Nat := 0x6200024
def REEL_DRAIN_TMO : Nat := 0x6200028
def REEL_DONE : Nat := 0x6200040
def REEL_FAIL : Nat := 0x6200044
def REEL_RST_OK : Nat := 0x6200048
def REEL_RST_FAIL : Nat := 0x620004C
def REEL_PROT : Nat := 0x6200050
def REEL_BYTES_LO : Nat := 0x6200058
def REEL_BYTES_HI : Nat := 0x620005C

/-! spec/15_clocks_power.md, R476 -/

def CLK_ST : Nat := 0x0
def CLK_PLAN : Nat := 0x4
def CLK_ATICK_LO : Nat := 0x8
def CLK_ATICK_HI : Nat := 0xC
def CLK_FTGT_LO : Nat := 0x10
def CLK_FTGT_HI : Nat := 0x14
def CLK_REDUCE : Nat := 0x18
def CLK_STRETCH_CNT : Nat := 0x20
def CLK_FCHG_CNT : Nat := 0x24
def CLK_REFLOSS_CNT : Nat := 0x28
def CLK_DROOP_CTL : Nat := 0x30
def CLK_DROOP (i : Nat) : Nat := 0x100 + 0x4 * i
def PWR_ST : Nat := 0x100000
def PWR_GATE : Nat := 0x100004
def PWR_CAP : Nat := 0x100008
def PWR_CAP_SRC : Nat := 0x10000C
def PWR_IN : Nat := 0x100010
def PWR_TJ : Nat := 0x100014
def PWR_THROT : Nat := 0x100018
def PWR_OVER_CNT : Nat := 0x100020
def PWR_DOM_V (i : Nat) : Nat := 0x100100 + 0x4 * i
def PWR_DOM_I (i : Nat) : Nat := 0x100200 + 0x4 * i
def PWR_TEMP (i : Nat) : Nat := 0x100300 + 0x4 * i

/-! spec/16_management_security.md, R511 -/

def MGMT_CORE_ST : Nat := 0x7000000
def MGMT_CORE_RUN : Nat := 0x7000004
def MGMT_PORT_CTL : Nat := 0x7000010
def MGMT_PORT_ST : Nat := 0x7000014
def MGMT_MAC_LO : Nat := 0x7000018
def MGMT_MAC_HI : Nat := 0x700001C
def MGMT_CUARD_UDP : Nat := 0x7000020
def MGMT_CUARD_RATE : Nat := 0x7000024
def MGMT_FILT_DROP : Nat := 0x7000040
def MGMT_SPOOF_DROP : Nat := 0x7000044
def MGMT_RATE_DROP : Nat := 0x7000048
def MGMT_POISON_CNT : Nat := 0x700004C
def MGMT_REGW_CNT : Nat := 0x7000050
def MGMT_PPS_REJ : Nat := 0x7000054
def MGMT_PTP_CTL : Nat := 0x7000100
def MGMT_PTP_INCR : Nat := 0x7000104
def MGMT_PTP_SET_SLO : Nat := 0x7000108
def MGMT_PTP_SET_SHI : Nat := 0x700010C
def MGMT_PTP_SET_NS : Nat := 0x7000110
def MGMT_PTP_NOW_SLO : Nat := 0x7000118
def MGMT_PTP_NOW_SHI : Nat := 0x700011C
def MGMT_PTP_NOW_NS : Nat := 0x7000120
def MGMT_PPS_TS_SLO : Nat := 0x7000128
def MGMT_PPS_TS_SHI : Nat := 0x700012C
def MGMT_PPS_TS_NS : Nat := 0x7000130
def MGMT_TS : Nat := 0x7000140
def SEC_KT : Nat := 0x7100000
def SEC_SESS : Nat := 0x7100004
def SEC_IDLE : Nat := 0x7100008
def SEC_DBG : Nat := 0x710000C
def SEC_AUTH_FAIL : Nat := 0x7100010
def SEC_DEV_ID (i : Nat) : Nat := 0x7100040 + 0x4 * i
def SEC_MEAS (i : Nat) (j : Nat) : Nat := 0x7100100 + 0x30 * i + 0x4 * j

/-! spec/17_cuard_commands.md, R548 -/

def CMD_LCP_IN : Nat := 0x7200100
def CMD_LCP_OUT : Nat := 0x7200104
def CMD_LCP_ST : Nat := 0x7200108
def CMD_CONFLICT : Nat := 0x7200110
def CMD_QTMO : Nat := 0x7200114
def CMD_LCP_TMO : Nat := 0x7200118
def CMD_QUEUE : Nat := 0x720011C
def CMD_LEASE (i : Nat) : Nat := 0x7200120 + 0x4 * i
def CMD_ACCEPT_CNT : Nat := 0x7200140
def CMD_REJECT_CNT : Nat := 0x7200144
def CMD_SUPERSEDED_CNT : Nat := 0x7200148
def CMD_LCP_DROP_CNT : Nat := 0x720014C

/-! spec/18_start_up.md, R568 -/

def CMD_STRAPS : Nat := 0x7200010
def CMD_BOOT_ST : Nat := 0x7200014

end Reg

def regsSkn : List RegRow := [
  ⟨0x4000F00, [(16, 0x4)], [⟨16, 16, .ro, 0, []⟩, ⟨11, 8, .ro, 0, []⟩, ⟨4, 0, .ro, 0, []⟩]⟩,
  ⟨0x4000F40, [(16, 0x4)], [⟨17, 17, .ro, 0, []⟩, ⟨16, 16, .ro, 0, []⟩, ⟨11, 8, .ro, 0, []⟩, ⟨4, 0, .ro, 0, []⟩]⟩,
  ⟨0x4000F80, [], [⟨12, 8, .ro, 0, []⟩, ⟨5, 4, .ro, 0, []⟩, ⟨3, 2, .ro, 0, []⟩, ⟨1, 0, .ro, 0, []⟩]⟩,
  ⟨0x4000000, [], [⟨31, 16, .ro, 0, []⟩, ⟨11, 8, .ro, 0, []⟩, ⟨2, 0, .ro, 0, []⟩]⟩,
  ⟨0x4000004, [], [⟨31, 16, .ro, 0, []⟩, ⟨15, 0, .ro, 0, []⟩]⟩,
  ⟨0x4000008, [], [⟨31, 0, .ro, 0, []⟩]⟩,
  ⟨0x400000C, [], [⟨31, 0, .ro, 0, []⟩]⟩,
  ⟨0x4000010, [], [⟨31, 0, .rw, 0, [(0, 0), (100000, 4294967295)]⟩]⟩,
  ⟨0x4000014, [], [⟨23, 16, .ro, 0, []⟩, ⟨15, 0, .ro, 0, []⟩]⟩,
  ⟨0x4000018, [], [⟨31, 0, .ro, 0, []⟩]⟩,
  ⟨0x400001C, [], [⟨31, 0, .ro, 0, []⟩]⟩,
  ⟨0x4000040, [(12, 0x4)], [⟨31, 0, .ro, 0, []⟩]⟩]

def regsCmd : List RegRow := [
  ⟨0x7200000, [], [⟨27, 24, .ro, 0, []⟩, ⟨19, 19, .ro, 0, []⟩, ⟨18, 18, .ro, 0, []⟩, ⟨17, 17, .ro, 0, []⟩, ⟨16, 16, .ro, 0, []⟩, ⟨12, 8, .ro, 0, []⟩, ⟨4, 4, .ro, 0, []⟩, ⟨3, 3, .ro, 0, []⟩, ⟨2, 0, .ro, 1, []⟩]⟩,
  ⟨0x7200008, [], [⟨31, 0, .ro, 0, []⟩]⟩,
  ⟨0x720000C, [], [⟨31, 0, .ro, 0, []⟩]⟩,
  ⟨0x7200100, [], [⟨31, 0, .wo, 0, []⟩]⟩,
  ⟨0x7200104, [], [⟨31, 0, .ro, 0, []⟩]⟩,
  ⟨0x7200108, [], [⟨31, 21, .ro, 0, []⟩, ⟨20, 18, .ro, 0, []⟩, ⟨17, 7, .ro, 0, []⟩, ⟨2, 2, .w1c, 0, []⟩, ⟨1, 1, .w1c, 0, []⟩, ⟨0, 0, .w1s, 0, []⟩]⟩,
  ⟨0x7200110, [], [⟨31, 0, .rw, 100000, [(0, 100000000)]⟩]⟩,
  ⟨0x7200114, [], [⟨31, 0, .rw, 10000000, [(100000, 4294967295)]⟩]⟩,
  ⟨0x7200118, [], [⟨31, 0, .rw, 1000000, [(10000, 4294967295)]⟩]⟩,
  ⟨0x720011C, [], [⟨14, 8, .rc, 0, []⟩, ⟨6, 0, .ro, 0, []⟩]⟩,
  ⟨0x7200120, [(4, 0x4)], [⟨31, 31, .ro, 0, []⟩, ⟨18, 16, .ro, 0, []⟩, ⟨11, 0, .ro, 0, []⟩]⟩,
  ⟨0x7200140, [], [⟨31, 0, .rc, 0, []⟩]⟩,
  ⟨0x7200144, [], [⟨31, 0, .rc, 0, []⟩]⟩,
  ⟨0x7200148, [], [⟨31, 0, .rc, 0, []⟩]⟩,
  ⟨0x720014C, [], [⟨31, 0, .rc, 0, []⟩]⟩,
  ⟨0x7200010, [], [⟨15, 15, .ro, 0, []⟩, ⟨14, 14, .ro, 0, []⟩, ⟨13, 12, .ro, 0, []⟩, ⟨11, 9, .ro, 0, []⟩, ⟨8, 5, .ro, 0, []⟩, ⟨4, 4, .ro, 0, []⟩, ⟨3, 2, .ro, 0, []⟩, ⟨1, 0, .ro, 0, []⟩]⟩,
  ⟨0x7200014, [], [⟨21, 16, .ro, 0, []⟩, ⟨15, 12, .ro, 0, []⟩, ⟨11, 8, .ro, 0, []⟩, ⟨3, 0, .ro, 0, []⟩]⟩]

def regsSpn0 : List RegRow := [
  ⟨0x2000400, [(18, 0x100000)], [⟨6, 6, .w1c, 0, []⟩, ⟨5, 5, .w1c, 0, []⟩, ⟨4, 4, .w1c, 0, []⟩, ⟨3, 3, .w1c, 0, []⟩, ⟨2, 2, .w1c, 0, []⟩, ⟨1, 1, .w1c, 0, []⟩, ⟨0, 0, .w1c, 0, []⟩]⟩,
  ⟨0x2000404, [(18, 0x100000)], [⟨31, 0, .rc, 0, []⟩]⟩,
  ⟨0x2000408, [(18, 0x100000)], [⟨15, 0, .ro, 0, []⟩]⟩,
  ⟨0x2000000, [(18, 0x100000)], [⟨31, 16, .ro, 0, []⟩, ⟨15, 8, .ro, 0, []⟩, ⟨6, 6, .ro, 0, []⟩, ⟨5, 4, .ro, 0, []⟩, ⟨2, 0, .ro, 7, []⟩]⟩,
  ⟨0x2000008, [(18, 0x100000)], [⟨31, 0, .ro, 0, []⟩]⟩,
  ⟨0x200000C, [(18, 0x100000)], [⟨31, 0, .ro, 0, []⟩]⟩,
  ⟨0x2000010, [(18, 0x100000)], [⟨31, 0, .ro, 0, []⟩]⟩,
  ⟨0x2000014, [(18, 0x100000)], [⟨31, 0, .ro, 0, []⟩]⟩,
  ⟨0x2000018, [(18, 0x100000)], [⟨23, 0, .ro, 0, []⟩]⟩,
  ⟨0x2000020, [(18, 0x100000)], [⟨31, 0, .rc, 0, []⟩]⟩,
  ⟨0x2000024, [(18, 0x100000)], [⟨31, 16, .rc, 0, []⟩, ⟨15, 0, .rc, 0, []⟩]⟩,
  ⟨0x2000028, [(18, 0x100000)], [⟨1, 1, .rw, 0, []⟩, ⟨0, 0, .w1s, 0, []⟩]⟩,
  ⟨0x200002C, [(18, 0x100000)], [⟨31, 0, .rw, 1000000, [(10000, 4294967295)]⟩]⟩,
  ⟨0x2000030, [(18, 0x100000)], [⟨26, 16, .rc, 0, []⟩, ⟨10, 0, .ro, 0, []⟩]⟩,
  ⟨0x2000034, [(18, 0x100000), (2, 0x4)], [⟨26, 16, .ro, 0, []⟩, ⟨10, 0, .ro, 0, []⟩]⟩,
  ⟨0x2000040, [(18, 0x100000), (8, 0x4)], [⟨31, 0, .rc, 0, []⟩]⟩,
  ⟨0x2000060, [(18, 0x100000), (4, 0x4)], [⟨22, 16, .rc, 0, []⟩, ⟨14, 8, .ro, 0, []⟩, ⟨6, 0, .ro, 0, []⟩]⟩,
  ⟨0x2000080, [(18, 0x100000)], [⟨13, 8, .rc, 0, []⟩, ⟨4, 0, .rc, 0, []⟩]⟩,
  ⟨0x2000090, [(18, 0x100000)], [⟨31, 24, .ro, 0, []⟩, ⟨21, 16, .ro, 0, []⟩, ⟨15, 0, .ro, 0, []⟩]⟩,
  ⟨0x2000500, [(18, 0x100000)], [⟨12, 8, .ro, 0, []⟩, ⟨6, 6, .ro, 0, []⟩, ⟨5, 5, .ro, 0, []⟩, ⟨2, 0, .ro, 0, []⟩]⟩,
  ⟨0x2000510, [(18, 0x100000), (4, 0x4)], [⟨31, 0, .ro, 0, []⟩]⟩,
  ⟨0x2000520, [(18, 0x100000), (4, 0x4)], [⟨31, 0, .ro, 0, []⟩]⟩,
  ⟨0x2000530, [(18, 0x100000)], [⟨31, 0, .ro, 0, []⟩]⟩,
  ⟨0x2000534, [(18, 0x100000)], [⟨31, 0, .ro, 0, []⟩]⟩,
  ⟨0x2000600, [(18, 0x100000)], [⟨31, 0, .rc, 0, []⟩]⟩]

def regsSpn1 : List RegRow := [
  ⟨0x2000604, [(18, 0x100000)], [⟨31, 0, .rc, 0, []⟩]⟩,
  ⟨0x2000610, [(18, 0x100000)], [⟨7, 4, .ro, 0, []⟩, ⟨2, 0, .ro, 0, []⟩]⟩,
  ⟨0x2000614, [(18, 0x100000)], [⟨15, 0, .ro, 0, []⟩]⟩,
  ⟨0x2000618, [(18, 0x100000)], [⟨31, 0, .rc, 0, []⟩]⟩,
  ⟨0x200061C, [(18, 0x100000)], [⟨31, 0, .ro, 0, []⟩]⟩,
  ⟨0x2000620, [(18, 0x100000)], [⟨31, 0, .rw, 1000000, [(10000, 4294967295)]⟩]⟩,
  ⟨0x2000624, [(18, 0x100000)], [⟨31, 0, .rc, 0, []⟩]⟩,
  ⟨0x2000700, [(18, 0x100000)], [⟨31, 16, .ro, 0, []⟩, ⟨15, 0, .ro, 0, []⟩]⟩,
  ⟨0x2000704, [(18, 0x100000)], [⟨10, 8, .ro, 0, []⟩, ⟨2, 0, .ro, 0, []⟩]⟩,
  ⟨0x2000708, [(18, 0x100000)], [⟨31, 0, .rc, 0, []⟩]⟩,
  ⟨0x2000800, [(18, 0x100000)], [⟨31, 0, .rc, 0, []⟩]⟩,
  ⟨0x2000804, [(18, 0x100000)], [⟨31, 0, .rc, 0, []⟩]⟩]

def regsSpn : List RegRow := regsSpn0 ++ regsSpn1

def regsMem : List RegRow := [
  ⟨0x1000800, [(4, 0x20000), (48, 0x4)], [⟨4, 4, .rw, 1, []⟩, ⟨3, 2, .rw, 1, [(0, 2)]⟩, ⟨1, 0, .rw, 0, [(0, 2)]⟩]⟩,
  ⟨0x1000100, [(132, 0x1000), (128, 0x4)], [⟨31, 31, .ro, 0, []⟩, ⟨30, 30, .ro, 0, []⟩, ⟨29, 28, .ro, 0, []⟩, ⟨27, 24, .ro, 0, []⟩, ⟨23, 12, .ro, 0, []⟩, ⟨11, 10, .ro, 0, []⟩]⟩,
  ⟨0x1000000, [(132, 0x1000)], [⟨2, 2, .rw, 1, []⟩, ⟨1, 1, .rw, 1, []⟩, ⟨0, 0, .w1s, 0, []⟩]⟩,
  ⟨0x1000004, [(132, 0x1000)], [⟨31, 24, .ro, 0, []⟩, ⟨23, 16, .ro, 128, []⟩, ⟨15, 7, .ro, 256, []⟩, ⟨3, 3, .ro, 0, []⟩, ⟨2, 0, .ro, 1, []⟩]⟩,
  ⟨0x1000010, [(132, 0x1000)], [⟨31, 0, .rc, 0, []⟩]⟩,
  ⟨0x1000014, [(132, 0x1000)], [⟨31, 0, .rc, 0, []⟩]⟩,
  ⟨0x1000018, [(132, 0x1000)], [⟨31, 0, .rc, 0, []⟩]⟩,
  ⟨0x1000020, [(132, 0x1000)], [⟨31, 0, .ro, 0, []⟩]⟩,
  ⟨0x1000024, [(132, 0x1000)], [⟨17, 17, .ro, 0, []⟩, ⟨16, 16, .ro, 0, []⟩, ⟨15, 0, .ro, 0, []⟩]⟩,
  ⟨0x1000030, [(132, 0x1000)], [⟨7, 0, .rw, 24, [(1, 168)]⟩]⟩,
  ⟨0x1000034, [(132, 0x1000)], [⟨31, 0, .ro, 0, []⟩]⟩,
  ⟨0x1000038, [(132, 0x1000)], [⟨31, 0, .rw, 256, [(1, 4294967295)]⟩]⟩,
  ⟨0x1000040, [(132, 0x1000), (8, 0x4)], [⟨31, 0, .rc, 0, []⟩]⟩]

def regsRing : List RegRow := [
  ⟨0x4200010, [], [⟨31, 0, .rw, 10000, [(1000, 4294967295)]⟩]⟩,
  ⟨0x4200020, [(4, 0x4)], [⟨31, 0, .rc, 0, []⟩]⟩,
  ⟨0x4200030, [(4, 0x4)], [⟨31, 0, .rc, 0, []⟩]⟩,
  ⟨0x4200040, [], [⟨31, 0, .rc, 0, []⟩]⟩,
  ⟨0x4200080, [(4, 0x8)], [⟨31, 0, .ro, 0, []⟩]⟩,
  ⟨0x4200084, [(4, 0x8)], [⟨31, 0, .ro, 0, []⟩]⟩,
  ⟨0x4200100, [(29, 0x4)], [⟨2, 1, .ro, 0, []⟩, ⟨0, 0, .ro, 0, []⟩]⟩,
  ⟨0x4200200, [(29, 0x4)], [⟨31, 0, .rc, 0, []⟩]⟩,
  ⟨0x4200300, [(29, 0x4)], [⟨31, 0, .rc, 0, []⟩]⟩,
  ⟨0x4200400, [(29, 0x4)], [⟨31, 0, .rc, 0, []⟩]⟩]

def regsCnet : List RegRow := [
  ⟨0x4300000, [], [⟨7, 0, .rc, 0, []⟩]⟩,
  ⟨0x4300004, [], [⟨31, 0, .rc, 0, []⟩]⟩,
  ⟨0x4300008, [], [⟨31, 0, .rc, 0, []⟩]⟩,
  ⟨0x430000C, [], [⟨31, 0, .rc, 0, []⟩]⟩]

def regsSeam : List RegRow := [
  ⟨0x4400000, [(4, 0x4)], [⟨31, 0, .rc, 0, []⟩]⟩,
  ⟨0x4400010, [(4, 0x4)], [⟨31, 0, .rc, 0, []⟩]⟩,
  ⟨0x4400020, [(4, 0x4)], [⟨5, 0, .ro, 0, []⟩]⟩,
  ⟨0x4400030, [], [⟨31, 0, .rc, 0, []⟩]⟩,
  ⟨0x4400034, [], [⟨31, 0, .rc, 0, []⟩]⟩,
  ⟨0x4400038, [], [⟨5, 0, .ro, 0, []⟩]⟩]

def regsChn : List RegRow := [
  ⟨0x4100000, [], [⟨31, 0, .rw, 65536, [(1024, 4294967295)]⟩]⟩,
  ⟨0x4100004, [], [⟨15, 0, .ro, 0, []⟩]⟩,
  ⟨0x4100008, [], [⟨31, 0, .ro, 0, []⟩]⟩,
  ⟨0x410000C, [], [⟨31, 0, .ro, 0, []⟩]⟩,
  ⟨0x4110000, [(18, 0x400), (64, 0x10)], [⟨31, 16, .ro, 0, []⟩, ⟨15, 8, .ro, 0, []⟩, ⟨2, 2, .ro, 0, []⟩, ⟨1, 0, .ro, 0, []⟩]⟩,
  ⟨0x4110004, [(18, 0x400), (64, 0x10)], [⟨31, 0, .rc, 0, []⟩]⟩,
  ⟨0x4110008, [(18, 0x400), (64, 0x10)], [⟨31, 0, .rc, 0, []⟩]⟩,
  ⟨0x411000C, [(18, 0x400), (64, 0x10)], [⟨31, 0, .rc, 0, []⟩]⟩,
  ⟨0x4120000, [(18, 0x400), (64, 0x10)], [⟨31, 16, .ro, 0, []⟩, ⟨15, 8, .ro, 0, []⟩, ⟨1, 0, .ro, 0, []⟩]⟩,
  ⟨0x4120004, [(18, 0x400), (64, 0x10)], [⟨31, 0, .rc, 0, []⟩]⟩,
  ⟨0x4120008, [(18, 0x400), (64, 0x10)], [⟨31, 0, .rc, 0, []⟩]⟩,
  ⟨0x412000C, [(18, 0x400), (64, 0x10)], [⟨31, 0, .rc, 0, []⟩]⟩]

/-- FAB_MAC.PFX values taken: bit 9, locally administered, set and bit 8, group, clear (R323). -/
def localPfx : List (Nat × Nat) := (List.range 64).map (fun h => (1024 * h + 512, 1024 * h + 767))

def regsFab : List RegRow := [
  ⟨0x5000000, [], [⟨2, 2, .rw, 1, []⟩, ⟨1, 0, .rw, 0, []⟩]⟩,
  ⟨0x5000004, [], [⟨31, 31, .ro, 0, []⟩, ⟨30, 30, .ro, 0, []⟩, ⟨12, 0, .rw, 0, []⟩]⟩,
  ⟨0x5000008, [], [⟨12, 8, .rw, 0, []⟩, ⟨7, 4, .rw, 0, []⟩, ⟨3, 0, .rw, 0, []⟩]⟩,
  ⟨0x500000C, [], [⟨3, 3, .ro, 0, []⟩, ⟨2, 1, .rw, 0, []⟩, ⟨0, 0, .rw, 0, []⟩]⟩,
  ⟨0x5000010, [], [⟨23, 16, .rw, 0, []⟩, ⟨15, 0, .rw, 2635, localPfx⟩]⟩,
  ⟨0x5000014, [], [⟨27, 16, .rw, 0, []⟩, ⟨15, 0, .rw, 34997, [(1536, 65535)]⟩]⟩,
  ⟨0x5000018, [], [⟨15, 0, .rw, 40750, [(1, 65535)]⟩]⟩,
  ⟨0x5000020, [(3, 0x4)], [⟨31, 0, .rw, 0, []⟩]⟩,
  ⟨0x500002C, [], [⟨13, 0, .rw, 0, []⟩]⟩,
  ⟨0x5000040, [], [⟨31, 0, .rw, 100000, [(1000, 4294967295)]⟩]⟩,
  ⟨0x5000044, [], [⟨31, 0, .rw, 2000, [(100, 4294967295)]⟩]⟩,
  ⟨0x5000048, [], [⟨31, 0, .rw, 200000, [(10000, 4294967295)]⟩]⟩,
  ⟨0x500004C, [], [⟨31, 0, .rw, 100000, [(1000, 4294967295)]⟩]⟩,
  ⟨0x5000050, [], [⟨31, 0, .rw, 1000000, [(100000, 4294967295)]⟩]⟩,
  ⟨0x5000060, [], [⟨28, 16, .rc, 0, []⟩, ⟨12, 0, .ro, 0, []⟩]⟩,
  ⟨0x5000100, [(16, 0x4)], [⟨31, 0, .rc, 0, []⟩]⟩,
  ⟨0x5040000, [(2, 0x8000), (8192, 0x4)], [⟨31, 0, .rw, 0, []⟩]⟩,
  ⟨0x5080000, [(2, 0x20000), (16384, 0x8)], [⟨31, 0, .rw, 0, []⟩]⟩,
  ⟨0x5080004, [(2, 0x20000), (16384, 0x8)], [⟨29, 17, .rw, 0, []⟩, ⟨16, 16, .rw, 0, []⟩, ⟨15, 0, .rw, 0, []⟩]⟩]

def regsPort : List RegRow := [
  ⟨0x5100000, [(16, 0x10000)], [⟨5, 5, .w1s, 0, []⟩, ⟨4, 4, .rw, 0, []⟩, ⟨3, 3, .rw, 0, []⟩, ⟨2, 1, .rw, 0, [(0, 2)]⟩]⟩,
  ⟨0x5100004, [(16, 0x10000), (2, 0x4)], [⟨6, 5, .rw, 0, [(0, 2)]⟩, ⟨4, 4, .rw, 0, []⟩, ⟨3, 3, .rw, 0, []⟩, ⟨2, 1, .rw, 0, [(0, 2)]⟩, ⟨0, 0, .rw, 1, []⟩]⟩,
  ⟨0x5100010, [(16, 0x10000), (2, 0x4)], [⟨27, 24, .ro, 0, []⟩, ⟨23, 16, .ro, 0, []⟩, ⟨9, 8, .ro, 0, []⟩, ⟨6, 4, .ro, 0, []⟩, ⟨2, 0, .ro, 0, []⟩]⟩,
  ⟨0x5100020, [(16, 0x10000), (2, 0x4)], [⟨31, 31, .ro, 0, []⟩, ⟨30, 30, .ro, 0, []⟩, ⟨17, 13, .ro, 0, []⟩, ⟨12, 0, .ro, 0, []⟩]⟩,
  ⟨0x5100028, [(16, 0x10000), (2, 0x8)], [⟨31, 0, .rw, 0, []⟩]⟩,
  ⟨0x510002C, [(16, 0x10000), (2, 0x8)], [⟨15, 0, .rw, 0, []⟩]⟩,
  ⟨0x5100040, [(16, 0x10000)], [⟨15, 0, .rw, 16, [(1, 65535)]⟩]⟩,
  ⟨0x5100100, [(16, 0x10000)], [⟨31, 0, .ro, 0, []⟩]⟩,
  ⟨0x5100104, [(16, 0x10000)], [⟨31, 0, .ro, 0, []⟩]⟩,
  ⟨0x5100108, [(16, 0x10000)], [⟨31, 0, .ro, 0, []⟩]⟩,
  ⟨0x510010C, [(16, 0x10000)], [⟨31, 0, .ro, 0, []⟩]⟩,
  ⟨0x5100110, [(16, 0x10000)], [⟨31, 0, .rc, 0, []⟩]⟩,
  ⟨0x5100114, [(16, 0x10000)], [⟨31, 0, .rc, 0, []⟩]⟩,
  ⟨0x5100118, [(16, 0x10000)], [⟨31, 0, .rc, 0, []⟩]⟩,
  ⟨0x510011C, [(16, 0x10000)], [⟨31, 0, .rc, 0, []⟩]⟩,
  ⟨0x5100120, [(16, 0x10000)], [⟨31, 0, .rc, 0, []⟩]⟩]

def regsColl : List RegRow := [
  ⟨0x6000000, [], [⟨1, 1, .rw, 1, []⟩, ⟨0, 0, .ro, 0, []⟩]⟩,
  ⟨0x6000004, [], [⟨15, 0, .rw, 0, []⟩]⟩,
  ⟨0x6000008, [], [⟨6, 0, .ro, 0, []⟩]⟩,
  ⟨0x6000010, [], [⟨31, 0, .rw, 5000000, [(10000, 4294967295)]⟩]⟩,
  ⟨0x6000014, [], [⟨31, 0, .rw, 100000, [(1000, 4294967295)]⟩]⟩,
  ⟨0x6000018, [], [⟨31, 0, .rw, 10000000, [(10000, 4294967295)]⟩]⟩,
  ⟨0x600001C, [], [⟨31, 0, .rw, 1000, [(100, 4294967295)]⟩]⟩,
  ⟨0x6000020, [], [⟨31, 0, .rw, 64, [(16, 4294967295)]⟩]⟩,
  ⟨0x6000024, [], [⟨3, 0, .rw, 3, [(2, 15)]⟩]⟩,
  ⟨0x6000040, [], [⟨31, 0, .rc, 0, []⟩]⟩,
  ⟨0x6000044, [], [⟨31, 0, .rc, 0, []⟩]⟩,
  ⟨0x6000048, [], [⟨31, 0, .rc, 0, []⟩]⟩,
  ⟨0x600004C, [], [⟨31, 0, .rc, 0, []⟩]⟩,
  ⟨0x6000050, [], [⟨31, 0, .rc, 0, []⟩]⟩,
  ⟨0x6000054, [], [⟨31, 0, .rc, 0, []⟩]⟩,
  ⟨0x6000058, [], [⟨31, 0, .rc, 0, []⟩]⟩,
  ⟨0x600005C, [], [⟨31, 0, .rc, 0, []⟩]⟩,
  ⟨0x6000068, [], [⟨31, 0, .rc, 0, []⟩]⟩,
  ⟨0x6000060, [], [⟨29, 16, .ro, 0, []⟩, ⟨15, 8, .ro, 0, []⟩, ⟨3, 0, .ro, 0, []⟩]⟩,
  ⟨0x6000100, [(64, 0x4)], [⟨31, 31, .rw, 0, []⟩, ⟨30, 30, .ro, 0, []⟩, ⟨15, 13, .ro, 0, []⟩, ⟨12, 0, .rw, 0, []⟩]⟩,
  ⟨0x6010000, [(16384, 0x4)], [⟨31, 0, .ro, 0, []⟩]⟩]

def regsDet : List RegRow := [
  ⟨0x6100000, [], [⟨31, 0, .ro, 0, []⟩]⟩,
  ⟨0x6100004, [], [⟨31, 0, .ro, 0, []⟩]⟩,
  ⟨0x6100008, [], [⟨31, 0, .ro, 0, []⟩]⟩,
  ⟨0x610000C, [], [⟨31, 0, .ro, 0, []⟩]⟩,
  ⟨0x6100010, [], [⟨7, 4, .ro, 0, []⟩, ⟨1, 1, .w1s, 0, []⟩, ⟨0, 0, .ro, 0, []⟩]⟩,
  ⟨0x6100014, [], [⟨31, 0, .ro, 0, []⟩]⟩,
  ⟨0x6100018, [], [⟨31, 0, .ro, 0, []⟩]⟩,
  ⟨0x610001C, [], [⟨31, 0, .ro, 0, []⟩]⟩,
  ⟨0x6100020, [], [⟨31, 16, .ro, 0, []⟩, ⟨15, 8, .ro, 0, []⟩, ⟨3, 3, .ro, 0, []⟩, ⟨2, 0, .ro, 0, []⟩]⟩,
  ⟨0x6100024, [], [⟨31, 0, .rc, 0, []⟩]⟩]

def regsTest : List RegRow := [
  ⟨0x400000, [], [⟨15, 8, .rw, 30, [(1, 60)]⟩, ⟨1, 1, .rw, 1, []⟩, ⟨0, 0, .rw, 1, []⟩]⟩,
  ⟨0x400004, [], [⟨31, 0, .rw, 1800, [(60, 86400)]⟩]⟩,
  ⟨0x400008, [], [⟨31, 0, .rw, 1000000000, [(1000000, 4294967295)]⟩]⟩,
  ⟨0x40000C, [], [⟨27, 24, .ro, 0, []⟩, ⟨20, 16, .ro, 0, []⟩, ⟨12, 8, .ro, 0, []⟩, ⟨2, 0, .ro, 0, []⟩]⟩,
  ⟨0x400010, [], [⟨15, 8, .ro, 8, []⟩, ⟨4, 0, .ro, 14, []⟩]⟩,
  ⟨0x400014, [], [⟨23, 16, .ro, 0, []⟩, ⟨15, 0, .ro, 0, []⟩]⟩,
  ⟨0x400020, [], [⟨31, 0, .rc, 0, []⟩]⟩,
  ⟨0x400024, [], [⟨31, 0, .rc, 0, []⟩]⟩,
  ⟨0x400028, [], [⟨31, 0, .rc, 0, []⟩]⟩,
  ⟨0x400100, [(18, 0x4)], [⟨15, 8, .ro, 0, []⟩, ⟨4, 4, .ro, 0, []⟩, ⟨3, 3, .ro, 0, []⟩, ⟨2, 2, .ro, 0, []⟩, ⟨1, 0, .ro, 0, []⟩]⟩,
  ⟨0x400200, [(18, 0x8)], [⟨31, 0, .ro, 0, []⟩]⟩,
  ⟨0x400204, [(18, 0x8)], [⟨31, 0, .ro, 0, []⟩]⟩]

def regsFuse : List RegRow := [
  ⟨0x300000, [], [⟨9, 0, .ro, 512, []⟩]⟩,
  ⟨0x300004, [], [⟨8, 0, .ro, 0, []⟩]⟩,
  ⟨0x300008, [], [⟨31, 16, .ro, 0, []⟩, ⟨1, 0, .ro, 0, []⟩]⟩,
  ⟨0x301000, [(512, 0x4)], [⟨31, 16, .ro, 0, []⟩, ⟨15, 15, .ro, 0, []⟩, ⟨14, 0, .ro, 0, []⟩]⟩]

def regsHlth : List RegRow := [
  ⟨0x500000, [], [⟨31, 0, .ro, 0, []⟩]⟩,
  ⟨0x500004, [], [⟨31, 0, .ro, 0, []⟩]⟩,
  ⟨0x500008, [], [⟨9, 0, .ro, 700, []⟩]⟩,
  ⟨0x50000C, [], [⟨31, 0, .rw, 8760, [(1, 4294967295)]⟩]⟩,
  ⟨0x500010, [], [⟨25, 25, .ro, 0, []⟩, ⟨23, 0, .ro, 0, []⟩]⟩,
  ⟨0x500100, [(24, 0x4)], [⟨19, 8, .ro, 0, []⟩, ⟨7, 0, .ro, 0, []⟩]⟩,
  ⟨0x500200, [(24, 0x4)], [⟨31, 0, .ro, 4294967295, []⟩]⟩,
  ⟨0x500400, [(64, 0x4)], [⟨19, 0, .ro, 0, []⟩]⟩]

def regsRst0 : List RegRow := [
  ⟨0x200000, [], [⟨2, 2, .rw, 1, []⟩, ⟨1, 1, .rw, 1, []⟩, ⟨0, 0, .rw, 1, []⟩]⟩,
  ⟨0x200010, [], [⟨31, 0, .rw, 10000, [(1000, 4294967295)]⟩]⟩,
  ⟨0x200014, [], [⟨31, 0, .rw, 50000, [(5000, 4294967295)]⟩]⟩,
  ⟨0x200018, [], [⟨31, 0, .rw, 500000, [(50000, 4294967295)]⟩]⟩,
  ⟨0x20001C, [], [⟨31, 0, .rw, 5000000, [(500000, 4294967295)]⟩]⟩,
  ⟨0x200020, [], [⟨31, 0, .rw, 2000000, [(100000, 4294967295)]⟩]⟩,
  ⟨0x20002C, [], [⟨31, 0, .rw, 100000000, [(1000000, 4294967295)]⟩]⟩,
  ⟨0x200024, [], [⟨31, 0, .rw, 16777216, []⟩]⟩,
  ⟨0x200028, [], [⟨15, 0, .rw, 64, [(1, 65535)]⟩]⟩,
  ⟨0x200030, [], [⟨31, 16, .rw, 3600, [(1, 65535)]⟩, ⟨7, 0, .rw, 3, [(1, 8)]⟩]⟩,
  ⟨0x200040, [], [⟨29, 16, .rw, 1, [(1, 8192)]⟩, ⟨2, 2, .ro, 0, []⟩, ⟨1, 0, .rw, 0, [(0, 2)]⟩]⟩,
  ⟨0x200044, [], [⟨16, 16, .ro, 0, []⟩, ⟨15, 8, .ro, 0, []⟩, ⟨3, 0, .ro, 0, []⟩]⟩,
  ⟨0x200048, [], [⟨31, 16, .ro, 0, []⟩, ⟨15, 12, .ro, 0, []⟩, ⟨5, 4, .ro, 0, []⟩, ⟨2, 0, .ro, 0, []⟩]⟩,
  ⟨0x200050, [], [⟨31, 16, .ro, 0, []⟩, ⟨7, 4, .ro, 0, []⟩, ⟨0, 0, .ro, 0, []⟩]⟩,
  ⟨0x200060, [], [⟨31, 0, .rc, 0, []⟩]⟩,
  ⟨0x200064, [], [⟨31, 0, .rc, 0, []⟩]⟩,
  ⟨0x200068, [], [⟨31, 0, .rc, 0, []⟩]⟩,
  ⟨0x200100, [(8, 0x8)], [⟨31, 0, .ro, 0, []⟩]⟩,
  ⟨0x200104, [(8, 0x8)], [⟨31, 0, .ro, 0, []⟩]⟩,
  ⟨0x200200, [(24, 0x4)], [⟨7, 0, .ro, 0, []⟩]⟩,
  ⟨0x200300, [(4, 0x8)], [⟨31, 0, .ro, 0, []⟩]⟩,
  ⟨0x200304, [(4, 0x8)], [⟨31, 0, .ro, 0, []⟩]⟩,
  ⟨0x200400, [(16, 0x20)], [⟨22, 20, .ro, 0, []⟩, ⟨19, 16, .ro, 0, []⟩, ⟨15, 0, .ro, 0, []⟩]⟩,
  ⟨0x200404, [(16, 0x20)], [⟨15, 0, .ro, 0, []⟩]⟩,
  ⟨0x200408, [(16, 0x20)], [⟨31, 0, .ro, 0, []⟩]⟩]

def regsRst1 : List RegRow := [
  ⟨0x20040C, [(16, 0x20)], [⟨31, 0, .ro, 0, []⟩]⟩,
  ⟨0x200410, [(16, 0x20)], [⟨31, 0, .ro, 0, []⟩]⟩,
  ⟨0x200414, [(16, 0x20)], [⟨31, 0, .ro, 0, []⟩]⟩]

def regsRst : List RegRow := regsRst0 ++ regsRst1

def regsReel : List RegRow := [
  ⟨0x6200000, [], [⟨31, 16, .ro, 0, []⟩, ⟨7, 6, .ro, 0, []⟩, ⟨2, 2, .ro, 0, []⟩, ⟨1, 0, .ro, 0, []⟩]⟩,
  ⟨0x6200004, [], [⟨31, 0, .ro, 0, []⟩]⟩,
  ⟨0x6200008, [], [⟨31, 0, .ro, 0, []⟩]⟩,
  ⟨0x620000C, [], [⟨31, 0, .ro, 0, []⟩]⟩,
  ⟨0x6200010, [], [⟨31, 0, .ro, 100000000, []⟩]⟩,
  ⟨0x6200014, [], [⟨31, 0, .ro, 0, []⟩]⟩,
  ⟨0x6200018, [], [⟨31, 0, .rw, 0, []⟩]⟩,
  ⟨0x620001C, [], [⟨31, 0, .ro, 0, []⟩]⟩,
  ⟨0x6200020, [], [⟨31, 0, .rw, 60, [(10, 4294967295)]⟩]⟩,
  ⟨0x6200024, [], [⟨31, 0, .rw, 86400, []⟩]⟩,
  ⟨0x6200028, [], [⟨31, 0, .rw, 3600, [(10, 4294967295)]⟩]⟩,
  ⟨0x6200040, [], [⟨31, 0, .rc, 0, []⟩]⟩,
  ⟨0x6200044, [], [⟨31, 0, .rc, 0, []⟩]⟩,
  ⟨0x6200048, [], [⟨31, 0, .rc, 0, []⟩]⟩,
  ⟨0x620004C, [], [⟨31, 0, .rc, 0, []⟩]⟩,
  ⟨0x6200050, [], [⟨31, 0, .rc, 0, []⟩]⟩,
  ⟨0x6200058, [], [⟨31, 0, .ro, 0, []⟩]⟩,
  ⟨0x620005C, [], [⟨31, 0, .ro, 0, []⟩]⟩]

def regsClk : List RegRow := [
  ⟨0x0, [], [⟨25, 16, .ro, 250, []⟩, ⟨7, 7, .ro, 0, []⟩, ⟨6, 6, .ro, 0, []⟩, ⟨3, 2, .ro, 0, []⟩, ⟨1, 1, .ro, 0, []⟩, ⟨0, 0, .ro, 0, []⟩]⟩,
  ⟨0x4, [], [⟨25, 16, .ro, 700, []⟩, ⟨9, 0, .rw, 700, []⟩]⟩,
  ⟨0x8, [], [⟨31, 0, .ro, 0, []⟩]⟩,
  ⟨0xC, [], [⟨31, 0, .ro, 0, []⟩]⟩,
  ⟨0x10, [], [⟨31, 0, .ro, 0, []⟩]⟩,
  ⟨0x14, [], [⟨31, 0, .ro, 0, []⟩]⟩,
  ⟨0x18, [], [⟨20, 20, .ro, 0, []⟩, ⟨19, 16, .ro, 0, []⟩, ⟨15, 8, .ro, 0, []⟩, ⟨7, 0, .ro, 0, []⟩]⟩,
  ⟨0x20, [], [⟨31, 0, .rc, 0, []⟩]⟩,
  ⟨0x24, [], [⟨31, 0, .rc, 0, []⟩]⟩,
  ⟨0x28, [], [⟨31, 0, .rc, 0, []⟩]⟩,
  ⟨0x30, [], [⟨31, 16, .rw, 64, [(1, 65535)]⟩, ⟨7, 0, .rw, 40, [(20, 100)]⟩]⟩,
  ⟨0x100, [(64, 0x4)], [⟨31, 0, .rc, 0, []⟩]⟩]

def regsPwr : List RegRow := [
  ⟨0x100000, [], [⟨23, 0, .ro, 1, []⟩]⟩,
  ⟨0x100004, [], [⟨21, 12, .rw, 0, []⟩]⟩,
  ⟨0x100008, [], [⟨31, 16, .ro, 1400, []⟩, ⟨15, 0, .rw, 1400, []⟩]⟩,
  ⟨0x10000C, [], [⟨31, 16, .ro, 1400, []⟩, ⟨15, 0, .ro, 1400, []⟩]⟩,
  ⟨0x100010, [], [⟨31, 16, .ro, 0, []⟩, ⟨15, 0, .ro, 0, []⟩]⟩,
  ⟨0x100014, [], [⟨23, 16, .ro, 0, []⟩, ⟨15, 8, .ro, 0, []⟩, ⟨7, 0, .ro, 0, []⟩]⟩,
  ⟨0x100018, [], [⟨3, 3, .ro, 0, []⟩, ⟨2, 0, .ro, 0, []⟩]⟩,
  ⟨0x100020, [], [⟨31, 0, .rc, 0, []⟩]⟩,
  ⟨0x100100, [(24, 0x4)], [⟨31, 16, .ro, 0, []⟩, ⟨15, 0, .ro, 0, []⟩]⟩,
  ⟨0x100200, [(24, 0x4)], [⟨15, 0, .ro, 0, []⟩]⟩,
  ⟨0x100300, [(64, 0x4)], [⟨7, 0, .ro, 0, []⟩]⟩]

def regsMgmt0 : List RegRow := [
  ⟨0x7000000, [], [⟨15, 8, .ro, 1, []⟩, ⟨7, 0, .ro, 0, []⟩]⟩,
  ⟨0x7000004, [], [⟨15, 8, .w1s, 1, []⟩]⟩,
  ⟨0x7000010, [], [⟨2, 2, .rw, 0, []⟩, ⟨1, 0, .rw, 0, []⟩]⟩,
  ⟨0x7000014, [], [⟨1, 1, .ro, 0, []⟩, ⟨0, 0, .ro, 0, []⟩]⟩,
  ⟨0x7000018, [], [⟨31, 0, .ro, 0, []⟩]⟩,
  ⟨0x700001C, [], [⟨31, 0, .ro, 0, []⟩]⟩,
  ⟨0x7000020, [], [⟨31, 0, .rw, 40740, [(1, 4294967295)]⟩]⟩,
  ⟨0x7000024, [], [⟨31, 0, .rw, 10000, [(1, 4294967295)]⟩]⟩,
  ⟨0x7000040, [], [⟨31, 0, .rc, 0, []⟩]⟩,
  ⟨0x7000044, [], [⟨31, 0, .rc, 0, []⟩]⟩,
  ⟨0x7000048, [], [⟨31, 0, .rc, 0, []⟩]⟩,
  ⟨0x700004C, [], [⟨31, 0, .rc, 0, []⟩]⟩,
  ⟨0x7000050, [], [⟨31, 0, .rc, 0, []⟩]⟩,
  ⟨0x7000054, [], [⟨31, 0, .rc, 0, []⟩]⟩,
  ⟨0x7000100, [], [⟨2, 2, .w1c, 0, []⟩, ⟨1, 1, .rw, 0, []⟩, ⟨0, 0, .ro, 0, []⟩]⟩,
  ⟨0x7000104, [], [⟨31, 0, .rw, 2684354560, [(2683012383, 2685696737)]⟩]⟩,
  ⟨0x7000108, [], [⟨31, 0, .wo, 0, []⟩]⟩,
  ⟨0x700010C, [], [⟨15, 0, .wo, 0, []⟩]⟩,
  ⟨0x7000110, [], [⟨31, 0, .wo, 0, []⟩]⟩,
  ⟨0x7000118, [], [⟨31, 0, .ro, 0, []⟩]⟩,
  ⟨0x700011C, [], [⟨15, 0, .ro, 0, []⟩]⟩,
  ⟨0x7000120, [], [⟨31, 0, .ro, 0, []⟩]⟩,
  ⟨0x7000128, [], [⟨31, 0, .ro, 0, []⟩]⟩,
  ⟨0x700012C, [], [⟨15, 0, .ro, 0, []⟩]⟩,
  ⟨0x7000130, [], [⟨31, 0, .ro, 0, []⟩]⟩]

def regsMgmt1 : List RegRow := [
  ⟨0x7000140, [], [⟨1, 0, .ro, 1, []⟩]⟩]

def regsMgmt : List RegRow := regsMgmt0 ++ regsMgmt1

def regsSec : List RegRow := [
  ⟨0x7100000, [], [⟨25, 24, .ro, 0, []⟩, ⟨23, 16, .ro, 0, []⟩, ⟨15, 8, .ro, 0, []⟩, ⟨3, 0, .ro, 0, []⟩]⟩,
  ⟨0x7100004, [], [⟨5, 0, .ro, 0, []⟩]⟩,
  ⟨0x7100008, [], [⟨31, 0, .rw, 600, [(30, 86400)]⟩]⟩,
  ⟨0x710000C, [], [⟨3, 3, .ro, 0, []⟩, ⟨2, 2, .ro, 0, []⟩, ⟨1, 1, .w1s, 0, []⟩, ⟨0, 0, .w1s, 0, []⟩]⟩,
  ⟨0x7100010, [], [⟨31, 0, .rc, 0, []⟩]⟩,
  ⟨0x7100040, [(12, 0x4)], [⟨31, 0, .ro, 0, []⟩]⟩,
  ⟨0x7100100, [(8, 0x30), (12, 0x4)], [⟨31, 0, .ro, 0, []⟩]⟩]

/-- The populated spans of the register blocks with their rows (R34). -/
def regBlocks : List (Nat × Nat × List RegRow) := [
  (0x0, 0x100000, regsClk),
  (0x100000, 0x200000, regsPwr),
  (0x200000, 0x300000, regsRst),
  (0x300000, 0x400000, regsFuse),
  (0x400000, 0x500000, regsTest),
  (0x500000, 0x600000, regsHlth),
  (0x1000000, 0x1084000, regsMem),
  (0x2000000, 0x3200000, regsSpn),
  (0x4000000, 0x4100000, regsSkn),
  (0x4100000, 0x4200000, regsChn),
  (0x4200000, 0x4300000, regsRing),
  (0x4300000, 0x4400000, regsCnet),
  (0x4400000, 0x4500000, regsSeam),
  (0x5000000, 0x5100000, regsFab),
  (0x5100000, 0x5200000, regsPort),
  (0x6000000, 0x6100000, regsColl),
  (0x6100000, 0x6200000, regsDet),
  (0x6200000, 0x6300000, regsReel),
  (0x7000000, 0x7100000, regsMgmt),
  (0x7100000, 0x7200000, regsSec),
  (0x7200000, 0x7300000, regsCmd)]

/-- Offset `d` lies in an array of the given counts and strides, outermost first. -/
def dimsHit : List (Nat × Nat) → Nat → Bool
  | [], d => d == 0
  | (n, st) :: r, d => decide (d / st < n) && dimsHit r (d % st)

/-- The row that holds the register at an offset, none for an undefined offset. -/
def regRow (a : Nat) : Option RegRow :=
  match regBlocks.find? (fun b => decide (b.1 ≤ a) && decide (a < b.2.1)) with
  | none => none
  | some b => b.2.2.find? (fun r => decide (r.base ≤ a) && dimsHit r.dims (a - r.base))

/-- The offset lies in a populated span (R34). -/
def populated (a : Nat) : Bool := regBlocks.any (fun b => decide (b.1 ≤ a) && decide (a < b.2.1))

/-- A register's value after chip-level reset (R7). -/
def regReset (a : Nat) : BitVec 32 :=
  match regRow a with
  | none => 0
  | some r => BitVec.ofNat 32 (r.fields.foldl (fun s f => s + f.rst * 2 ^ f.lo) 0)

end Sys2Proof.Machine
end

