-- ==== Sys2Proof/Machine/State.lean ====
section
/-! DEFINITION. The state of the block, the reasons a step can stop, and the state right after chip-level
reset (spec/01_architecture.md R35, R38; spec/00_scope.md R7, R11). -/

namespace Sys2Proof.Machine

/-- Why a step stops with a fault.  The block has no such stop: what the manual calls a fault ends a
context, is recorded as an event, and the block goes on. -/
inductive Fault where
  /-- Raised by no meaning.  Safe. -/
  | none
  deriving DecidableEq, Repr

/-- Why a command is refused. -/
inductive Refusal where
  /-- A command that has no meaning yet.  Safe: the machine stops. -/
  | notModelled (mnemonic : String)
  /-- Raised by a command whose operands are not those of its row (`WellFormed` is false of it): the slot
  word is another operation's.  Safe: no machine is ever given such a command. -/
  | illFormed
  deriving DecidableEq, Repr

/-- The state of the block. -/
structure State where
  /-- Commands waiting, first in, first out. -/
  pending : List Instr := []
  /-- The reference-tick counter (R11). -/
  now : DWord := 0
  /-- Registers by offset from 0x50_0000_0000, as the difference from their reset value (R7, R34). -/
  regs : List (Nat × Word) := []
  /-- Latched high words of 64-bit counters, by the offset of the high word (R32). -/
  latch : List (Nat × Option Word) := []
  /-- The model's own: how many free values have been used (log 6). -/
  freeN : Nat := 0
  /-- The model's own: how many draws the DRBG has made (R496, log 7). -/
  drbgN : Nat := 0
  /-- The model's own: what units have sent and no command has delivered yet. -/
  out : List Msg := []
  /-- PWR_EN is low or the input is out of range: device state OFF (R35). -/
  off : Bool := false
  /-- The command processor's event log, oldest first (R43, R544). -/
  log : List EventRec := []
  /-- Event buffers of the control-network nodes (R269). -/
  nodes : List (Nat × NodeBuf) := []
  /-- Memory: a byte a listed address holds; an unlisted one reads zero (R29, R220, R246). -/
  mem : List Host.Cell := []
  /-- Poison markers of stored 64-bit words, by address divided by 8 (R230). -/
  poison : List (Nat × Bool) := []
  /-- Physical spindles (R73). -/
  spns : List (Nat × Spn) := []
  /-- The skein sequencer (R149 to R154). -/
  seqr : Sequencer := {}
  /-- Memory channels 0 to 131 (R220). -/
  chans : List (Nat × Chan) := []
  /-- Write-protected regions (R118, R367, R438). -/
  prot : List ProtRgn := []
  /-- Power domains that are off, bit d for Dd (R465). -/
  domsOff : BitVec 24 := 0
  /-- Interrupt sources 1 to 7 asserted at the application cores (R483). -/
  irq : BitVec 8 := 0
  /-- The fabric (R285 to R325). -/
  fab : Fab := {}
  /-- The collective engine (R326 to R350). -/
  coll : CollEng := {}
  /-- Clock generation (R453 to R464). -/
  clk : Clk := {}
  /-- Power, input and thermal control (R465 to R473). -/
  pwr : Pwr := {}
  /-- Tests, repair and ageing (R379 to R406). -/
  hlth : Hlth := {}
  /-- Resets, hangs, suspects and quarantine (R407 to R424). -/
  rst : Rst := {}
  /-- Fuses (R386, R494 to R501). -/
  fuse : Fuses := {}
  /-- The reel engine (R436 to R450). -/
  reel : Reel := {}
  /-- Module flash, each byte as its difference from the erased value 0xFF (R583, R584). -/
  flash : List Host.Cell := []
  /-- The model's own: reference periods since power-on, in reset too (R549, R551, R572). -/
  wall : DWord := 0
  /-- Records written to the log since chip reset (R544). -/
  logN : Nat := 0
  /-- The command processor's Cuard side (R512 to R548). -/
  cq : Cq := {}
  /-- The management port and the PTP clock (R484 to R492). -/
  mgmt : Mgmt := {}
  /-- Start-up (R549 to R562). -/
  boot : Boot := {}
  /-- Ring transport, and the seam crossings lost, 5 being the clock wiring (R253 to R264). -/
  ring : Rings := {}
  /-- The module's power sequencer and I3C target (R572 to R582). -/
  modl : Modl := {}
  deriving DecidableEq, Repr

/-- The outcome of a command. -/
abbrev Res := Host.Outcome State Fault Refusal

/-- The machine right after chip-level reset: every register at its reset value, device state BRINGUP,
every spindle in RESET, nothing in memory, no command waiting; of the domains D00 alone is on, as PWR_ST
shows (R7, R38, R113, R155, R476).  Chip-level reset is held until start-up ends its phase 4 (R550). -/
def State.reset : State := { domsOff := 0xFFFFFE, rst := { chipHeld := true } }

end Sys2Proof.Machine
end

