-- ==== Sys2Proof/Machine/Ops.lean ====
section
/-! DEFINITION. The named operations over registers, events, device flags and memory that every meaning
uses (spec/00_scope.md R8, R9, R13; spec/01_architecture.md R29 to R43; spec/07_memory.md R221 to R234;
spec/08_on_die_interconnect.md R269). -/

namespace Sys2Proof.Machine

/-! ### Registers (R7, R8, R32). -/

/-- The value a register holds. -/
def State.reg (s : State) (a : Nat) : Word := tget 0 s.regs a ^^^ regReset a

/-- `s` with the register at `a` holding `v`. -/
def State.setReg (s : State) (a : Nat) (v : Word) : State :=
  { s with regs := tset 0 s.regs a (v ^^^ regReset a) }

/-- The value of a register as a number. -/
def State.rd (s : State) (a : Nat) : Nat := (s.reg a).toNat

/-- `s` with a register holding a number cut to 32 bits. -/
def State.wr (s : State) (a v : Nat) : State := s.setReg a (BitVec.ofNat 32 v)

/-- Field `[hi:lo]` of a register. -/
def State.rf (s : State) (a hi lo : Nat) : Nat := bitsOf (s.rd a) hi lo

/-- `s` with field `[hi:lo]` of a register replaced. -/
def State.wf (s : State) (a hi lo v : Nat) : State := s.wr a (setBits (s.rd a) hi lo v)

/-- Bit `n` of a register. -/
def State.rbit (s : State) (a n : Nat) : Bool := bitOf (s.rd a) n

/-- A 64-bit counter in two registers, low word first (R32). -/
def State.rd64 (s : State) (a : Nat) : Nat := s.rd a + 2 ^ 32 * s.rd (a + 4)

/-- `s` with a 64-bit counter holding a number cut to 64 bits. -/
def State.wr64 (s : State) (a v : Nat) : State := (s.wr a v).wr (a + 4) (v / 2 ^ 32)

/-- A counter field raised by `n`, stopping at its largest value. -/
def State.satField (s : State) (a hi lo n : Nat) : State :=
  s.wf a hi lo (min (s.rf a hi lo + n) (2 ^ (hi + 1 - lo) - 1))

/-- A 32-bit counter raised by `n`, stopping at 0xFFFF_FFFF. -/
def State.sat (s : State) (a n : Nat) : State := s.satField a 31 0 n

/-- A 64-bit counter raised by `n`. -/
def State.add64 (s : State) (a n : Nat) : State := s.wr64 a (s.rd64 a + n)

/-- A field holding the largest value it has had. -/
def State.maxField (s : State) (a hi lo n : Nat) : State := s.wf a hi lo (max (s.rf a hi lo) n)

/-- A free value (log 6). -/
def State.free (s : State) : Nat × State := (Config.freeNat s.freeN, { s with freeN := s.freeN + 1 })

/-- A draw of the DRBG, `bytes` long (R496, log 7). -/
def State.draw (s : State) (bytes : Nat) : Nat × State :=
  (Config.drbg s.drbgN % 2 ^ (8 * bytes), { s with drbgN := s.drbgN + 1 })

/-- A message put into transit. -/
def State.send (s : State) (m : Msg) : State := { s with out := s.out ++ [m] }

/-- A message taken out of transit, where it is there (log 17). -/
def State.take (s : State) (m : Msg) : State := { s with out := s.out.erase m }

/-- Asserts interrupt source `n` (R483). -/
def State.raiseIrq (s : State) (n : Nat) : State := { s with irq := s.irq ||| BitVec.ofNat 8 (1 <<< n) }

/-- Clears interrupt source `n` (R483). -/
def State.clearIrq (s : State) (n : Nat) : State :=
  { s with irq := s.irq &&& ~~~(BitVec.ofNat 8 (1 <<< n)) }

def State.irqOn (s : State) (n : Nat) : Bool := s.irq.toNat.testBit n

/-! ### Power domains (R34). -/

def State.domOn (s : State) (d : Nat) : Bool := !s.off && !s.domsOff.toNat.testBit d

/-- The domain that must be on for a register to respond (R34). -/
def regDomain (a : Nat) : Nat :=
  if a < 0x100000 then 1
  else if a < 0x1000000 then 0
  else if a < 0x2000000 then (let i := (a - 0x1000000) / 0x1000; if i < 128 then 6 + i / 32 else 4)
  else if a < 0x4000000 then
    (let i := (a - 0x2000000) / 0x100000
     if i = 8 then 20 else if i = 17 then 21 else if i < 8 then 12 + i / 2 else 12 + (i - 1) / 2)
  else if a < 0x4300000 then 22
  else if a < 0x4400000 then 2
  else if a < 0x5000000 then 22
  else if a < 0x6000000 then 23
  else if a < 0x7000000 then 22
  else if a < 0x7100000 then 3
  else 0

/-! ### The logical map (R21, R25). -/

def State.lCount (s : State) : Nat := s.rf Reg.SKN_SPARE_ST 12 8
def State.lmapValid (s : State) (l : Nat) : Bool := decide (l < 16) && s.rbit (Reg.SKN_LMAP l) 16
/-- The physical spindle that carries logical spindle `l`. -/
def State.physOf (s : State) (l : Nat) : Nat := s.rf (Reg.SKN_LMAP l) 4 0
/-- The position a logical spindle occupies. -/
def State.posOf (s : State) (l : Nat) : Nat := s.rf (Reg.SKN_LMAP l) 11 8
/-- The logical index a physical spindle carries, if any. -/
def State.logicalOf (s : State) (ps : Nat) : Option Nat :=
  (List.range 16).find? (fun l => s.lmapValid l && s.physOf l == ps)
/-- The logical index in a number, 0 where the spindle carries none. -/
def State.logicalN (s : State) (ps : Nat) : Nat := (s.logicalOf ps).getD 0

/-! ### Spindles and contexts. -/

def State.spn (s : State) (ps : Nat) : Spn := tget {} s.spns ps
def State.setSpn (s : State) (ps : Nat) (x : Spn) : State := { s with spns := tset {} s.spns ps x }
def State.modSpn (s : State) (ps : Nat) (f : Spn → Spn) : State := s.setSpn ps (f (s.spn ps))
def State.spnState (s : State) (ps : Nat) : Nat := s.rf (Reg.SPN_STATE ps) 2 0
/-- A spindle enters a state; outside HOLD, DRAIN, LOAD and FENCED no hold cause is present (R110, R113, R114). -/
def State.setSpnState (s : State) (ps c : Nat) : State :=
  s.wr (Reg.SPN_STATE ps)
    (let v := setBits (s.rd (Reg.SPN_STATE ps)) 2 0 c
     if c = 0 ∨ c = 1 ∨ c = 5 ∨ c = 7 then setBits v 15 8 0 else v)
/-- The current generation of a spindle (R96). -/
def State.gen (s : State) (ps : Nat) : BitVec 2 := BitVec.ofNat 2 (s.rf (Reg.SPN_STATE ps) 5 4)
/-- The context ID running, 0 when none (R157). -/
def State.runCtx (s : State) : Nat := s.rf Reg.SKN_STATUS 31 16
def State.runSlot (s : State) : Nat := s.rf Reg.SKN_STATUS 11 8
def State.slotOf (s : State) (n : Nat) : Option Slot := tget none s.seqr.slots n
def State.setSlot (s : State) (n : Nat) (x : Option Slot) : State :=
  { s with seqr := { s.seqr with slots := tset none s.seqr.slots n x } }
def State.runningSlot (s : State) : Option Slot := if s.runCtx = 0 then none else s.slotOf s.runSlot

/-! ### Event records (R14, R43, R269). -/

/-- The ring stop of a physical spindle (R251). -/
def spindleStop (ps : Nat) : Nat := ([3, 4, 6, 7, 8, 9, 11, 12, 13, 15, 16, 18, 19, 20, 21, 23, 24, 14][ps]?).getD 0

/-- Unit IDs (R41). -/
def unitId (kind idx : Nat) : Nat := kind * 2048 + idx
def devUnit : Nat := 0xFFFF

/-- The events the command processor records itself, because it takes the action they report: repairs and
fences, resets, checkpoints and start-up, self-test verdicts, management and logs.  A hang, a consumed poison
and a discarded protected write are seen at a node.  DEDUCED (log 18). -/
def byCuard (code : Nat) : Bool :=
  let area := code / 256
  (code == 0x0204 || code == 0x0205 || code == 0x0207 || area == 8 || 10 ≤ area) ||
    (area == 7 && !(code == 0x0701 || code == 0x070A || code == 0x0726))

/-- The control-network node whose unit records an event (R265); none for the command processor, which
keeps the log itself.  DEDUCED from the area of the code and the unit (log 18). -/
def nodeOf (code unit : Nat) : Option Nat :=
  let area := code / 256
  let kind := unit / 2048
  let idx := unit % 2048
  if code / 16 = 0xA4 then some 38
  else if byCuard code then none
  else if unit = devUnit then
    (if area = 3 then some 2 else if area = 5 then some 25 else if area = 6 then some 27 else none)
  else if kind = 0 then some (spindleStop idx)
  else if kind = 7 then some (spindleStop (idx / 16))
  else if kind = 2 then some (29 + idx % 4)
  else if kind = 3 then some (if idx < 128 then 29 + idx / 32 else 33)
  else if kind = 8 then some (if idx / 8 < 128 then 29 + idx / 8 / 32 else 33)
  else if kind = 4 then some (idx % 64)
  else if kind = 5 then some (if idx < 8 ∨ (16 ≤ idx ∧ idx < 32) then 36 else 37)
  else if kind = 6 then some (if idx < 64 then 36 else 37)
  else if kind = 9 then some 1
  else if kind = 10 then some 34
  else if kind = 11 then some 35
  else none

/-- Order of the log among records of one tick (R14). -/
def evBefore (a b : EventRec) : Bool :=
  decide (a.code.toNat < b.code.toNat) ||
    (decide (a.code = b.code) && decide (a.unit.toNat < b.unit.toNat))

/-- Places a record behind every earlier record and among those of its tick in the order of R14; the log
keeps the latest 4,096 (R544). -/
def logInsert : List EventRec → EventRec → List EventRec
  | [], e => [e]
  | x :: r, e => if x.tick = e.tick && evBefore e x then e :: x :: r else x :: logInsert r e

def State.toLog (s : State) (e : EventRec) : State :=
  let l := logInsert s.log e
  ({ s with log := l.drop (l.length - 4096), logN := s.logN + 1 } : State).raiseIrq 1

/-- A node buffers a record, or replaces or loses one when its 8 places are full (R269); answers how many
were lost and whether a run of losses begins. -/
def NodeBuf.put (b : NodeBuf) (e : EventRec) : NodeBuf × Nat × Bool :=
  if b.recs.length < 8 then ({ b with recs := b.recs ++ [e] }, 0, false)
  else
    match (if 2 ≤ e.sev.toNat then b.recs.find? (fun x => decide (x.sev.toNat < 2)) else none) with
    | some x => ({ b with recs := b.recs.erase x ++ [e], lost := true, run := true }, 1, !b.run)
    | none => ({ b with lost := true, run := true }, 1, !b.run)

/-- The data bytes of an event from `(byte, width, value)` triples, byte 16 first (R43). -/
def evData (l : List (Nat × Nat × Nat)) : List Byte :=
  l.foldl (fun d x => patchB d (x.1 - 16) (toLE x.2.1 x.2.2)) (List.replicate 16 0)

/-- Records an event of the given severity and data about a unit, for a context (R43, R269). -/
def State.eventCtx (s : State) (code unit sev ctx : Nat) (data : List (Nat × Nat × Nat)) : State :=
  let e : EventRec :=
    { tick := s.now
      code := BitVec.ofNat 16 code
      unit := BitVec.ofNat 16 unit
      ctx := BitVec.ofNat 16 ctx
      sev := BitVec.ofNat 4 sev
      lost := false
      data := evData data }
  match nodeOf code unit with
  | none => s.toLog e
  | some n =>
    let r := (tget {} s.nodes n).put e
    let s := { s with nodes := tset {} s.nodes n r.1 }
    let s := s.sat Reg.CNET_EVT_LOST r.2.1
    if r.2.2 then
      s.toLog { e with code := 0x0431, unit := 0xFFFF, sev := 1, data := evData [(16, 1, n)] }
    else s

/-- Records an event; the context is the one running (R43). -/
def State.event (s : State) (code unit sev : Nat) (data : List (Nat × Nat × Nat)) : State :=
  s.eventCtx code unit sev s.runCtx data

/-! ### Device state and flags (R35, R36, R40). -/

def stBringup : Nat := 1
def stService : Nat := 2
def stWithdrawn : Nat := 3
def stHalted : Nat := 4

/-- The device-state code; 0 is OFF (R35). -/
def State.devState (s : State) : Nat := if s.off then 0 else s.rf Reg.CMD_DEV_STATE 2 0

/-- Bits 0 DEGRADED and 1 MARGINED of event 0x07F0 (R40). -/
def State.devFlags (s : State) : Nat := s.rf Reg.CMD_DEV_STATE 3 3 + 2 * s.rf Reg.CMD_DEV_STATE 4 4

def State.stampDev (s : State) (old cause : Nat) : State :=
  (s.wr64 Reg.CMD_DEV_STATE_TS_LO s.now.toNat).event 0x07F0 devUnit 1
    [(16, 1, old), (17, 1, s.devState), (18, 1, s.devFlags), (19, 2, cause)] |>.raiseIrq 7

/-- The device enters HALTED: PHASE reads 0 outside BRINGUP, and the resets in progress go no further (R38, R40). -/
def State.toHalted (s : State) : State :=
  let s : State := { s with rst := { s.rst with resets := [], chipHeld := false } }
  (s.wf Reg.CMD_DEV_STATE 27 24 0).wf Reg.CMD_DEV_STATE 2 0 stHalted

/-- The device enters HALTED where no event can be recorded (R38); the tick of the change is kept (R40). -/
def State.haltSilent (s : State) : State :=
  if s.devState = stHalted then s else s.toHalted.wr64 Reg.CMD_DEV_STATE_TS_LO s.now.toNat

/-- A device-state change (R40); no event where the state stays. -/
def State.setDev (s : State) (new cause : Nat) : State :=
  let old := s.devState
  if old = new then s else (s.wf Reg.CMD_DEV_STATE 2 0 new).stampDev old cause

/-- Sets the DEGRADED and MARGINED terms, recording 0x07F0 where a flag changes (R36, R40).  The cause of a flag change,
which no chapter gives, is 0.  DESIGN CHOICE (log 147). -/
def State.setFlags (s : State) (spin port chan marg : Bool) : State :=
  let v := s.rd Reg.CMD_DEV_STATE
  let b (x : Bool) : Nat := if x then 1 else 0
  let w := setBits (setBits (setBits (setBits (setBits v 16 16 (b spin)) 17 17 (b port)) 18 18 (b chan)) 3 3
    (b (spin || port || chan))) 4 4 (b marg)
  let s' := s.wr Reg.CMD_DEV_STATE w
  if bitsOf v 4 3 = bitsOf w 4 3 then s' else s'.stampDev s.devState 0

def State.dgSpin (s : State) : Bool := s.rbit Reg.CMD_DEV_STATE 16
def State.dgPort (s : State) : Bool := s.rbit Reg.CMD_DEV_STATE 17
def State.dgChan (s : State) : Bool := s.rbit Reg.CMD_DEV_STATE 18
def State.margined (s : State) : Bool := s.rbit Reg.CMD_DEV_STATE 4

/-! ### Memory: the address map (R29, R221, R225, R227). -/

/-- What a device address names. -/
inductive Loc where
  | dram (ch ca : Nat)
  | sram (logical off : Nat)
  | register (off : Nat)
  | none
  deriving DecidableEq, Repr

/-- The stripe map of R225: channel within the polder and channel address. -/
def stripeMap (o t mode gran : Nat) (hash : Bool) : Nat × Nat :=
  let g := if gran = 0 then 256 else if gran = 1 then 4096 else 65536
  let cw : Nat × Nat :=
    if mode = 0 then
      let k := o / g
      let c := k % 32
      let c := if hash then c ^^^ (k >>> 5) ^^^ (k >>> 10) ^^^ (k >>> 15) else c
      (c % 32, (k >>> 5) * g + o % g)
    else if mode = 1 then
      let q := o >>> 28
      let o2 := o % 2 ^ 28
      let k := o2 / g
      (8 * q + k % 8, (k >>> 3) * g + o2 % g)
    else (o >>> 25, o % 2 ^ 25)
  (cw.1, t * 0x2000000 + cw.2)

/-- Offset from 0x50_0000_0000 of MEM_STRIPE[t] of a polder (R227). -/
def memStripe (p t : Nat) : Nat := Reg.MEM_STRIPE (32 * p) t

/-- Decodes a device address (R29). -/
def State.loc (s : State) (a : Nat) : Loc :=
  if a < 0x3000000000 then
    let p := a / 0xC00000000
    let x := a % 0xC00000000
    let t := x >>> 30
    let r := memStripe p t
    let m := stripeMap (x % 2 ^ 30) t (s.rf r 1 0) (s.rf r 3 2) (s.rbit r 4)
    .dram (32 * p + m.1) m.2
  else if a < 0x3180000000 then
    let m := a - 0x3000000000
    let g := m >>> 12
    .dram (128 + g % 4) ((g >>> 2) * 4096 + m % 4096)
  else if 0x4000000000 ≤ a ∧ a < 0x4040000000 then
    let x := a - 0x4000000000
    let l := x / 0x4000000
    let o := x % 0x4000000
    if l < s.lCount ∧ o < 0x3000000 then .sram l o else .none
  else if 0x5000000000 ≤ a ∧ a < 0x5008000000 then .register (a - 0x5000000000)
  else .none

/-- The key a byte of DRAM or SRAM is stored under: channel·2^31 + channel address, or the SRAM of a
physical spindle above every channel (R220, R92). -/
def dramKey (ch ca : Nat) : Nat := ch * 2 ^ 31 + ca
def sramKey (ps off : Nat) : Nat := 0x4200000000 + ps * 0x4000000 + off

def State.locKey (s : State) : Loc → Option Nat
  | .dram ch ca => some (dramKey ch ca)
  | .sram l o => some (sramKey (s.physOf l) o)
  | _ => none

/-! ### Memory bytes. -/

/-- One stored byte. -/
def State.byteAt (s : State) (k : Nat) : Byte := tget 0 s.mem k

def State.setByte (s : State) (k : Nat) (v : Byte) : State := { s with mem := tset 0 s.mem k v }

/-- Bytes written at rising keys. -/
def memPut : List Host.Cell → Nat → List Byte → List Host.Cell
  | m, _, [] => m
  | m, k, v :: r => memPut (tset 0 m k v) (k + 1) r

def State.bytesAt (s : State) (k n : Nat) : List Byte := (List.range n).map (fun i => s.byteAt (k + i))

def State.putBytes (s : State) (k : Nat) (l : List Byte) : State := { s with mem := memPut s.mem k l }

/-- The poison marker of the stored word that holds key `k` (R230). -/
def State.poisonAt (s : State) (k : Nat) : Bool := tget false s.poison (k / 8)

def State.setPoison (s : State) (k : Nat) (p : Bool) : State :=
  { s with poison := tset false s.poison (k / 8) p }

/-! ### The error code (R230, R231). -/

/-- g(x) of R230, with m₃(x) = x⁷ + x³ + x² + x + 1. -/
def eccG : Nat := 0x14EAB

/-- Remainder of a polynomial of degree below `n + 16` modulo g(x). -/
def eccRem : Nat → Nat → Nat
  | 0, w => w
  | n + 1, w => eccRem n (if w.testBit (n + 16) then w ^^^ (eccG <<< n) else w)

/-- The syndrome of an 81-bit error pattern (R230). -/
def syndrome (e : Nat) : Nat := eccRem 65 (e % 2 ^ 81)

/-- The error pattern of one or two bits with a given syndrome, if there is one. -/
def eccPattern (syn : Nat) : Option Nat :=
  let sy := (List.range 81).map (fun i => syndrome (1 <<< i))
  match (List.range 81).find? (fun i => syndrome (1 <<< i) = syn) with
  | some i => some (1 <<< i)
  | none =>
    (List.range 81).findSome? (fun i =>
      ((List.range 81).find? (fun j => decide (i < j) && ((sy[i]?).getD 0 ^^^ (sy[j]?).getD 0) == syn)).map
        (fun j => (1 <<< i) ^^^ (1 <<< j)))

/-- What a decode gives: nothing wrong, one or two bits corrected, or uncorrectable (R231). -/
inductive Decode where
  | clean | corrected | bad
  deriving DecidableEq, Repr

/-- Decodes a stored word `data`, `p` read with the bits of `e` flipped: outcome, syndrome, data and
poison marker afterwards (R230, R231). -/
def eccDecode (data : Nat) (p : Bool) (e : Nat) : Decode × Nat × Nat × Bool :=
  let apply (x : Nat) : Nat × Bool := (data ^^^ bitsOf x 79 16, p != x.testBit 80)
  let sy := syndrome e
  if sy = 0 then let r := apply e; (.clean, 0, r.1, r.2)
  else
    match eccPattern sy with
    | some x => let r := apply (e ^^^ x); (.corrected, sy, r.1, r.2)
    | none => (.bad, sy, 0, true)

/-- A bit upset met by an access: the key of a stored word divided by 8, and the flipped bits (log 19). -/
abbrev Flips := List (Nat × Nat)

def flipOf (f : Flips) (k : Nat) : Nat :=
  match f.find? (fun x => x.1 == k / 8) with
  | some x => x.2
  | none => 0

/-- Keys of the words of a sluice entry and of a message in an inbound queue (R246), beside those of memory. -/
def sluiceKey (ps sl gen tag : Nat) : Nat := 0x4300000000 + ps * 2 ^ 20 + sl * 2 ^ 18 + gen * 2 ^ 16 + tag * 2 ^ 8
def queueKey (ps q seq : Nat) : Nat := 0x4400000000 + ps * 2 ^ 16 + q * 2 ^ 10 + seq % 32 * 2 ^ 5

/-- `n` words of an on-die store as they leave it, from data and poison marks as stored: no counter or event is given for
them (R246). -/
def settleWords (n k : Nat) (f : Flips) (x : Nat × Nat) : Nat × Nat :=
  (List.range n).foldl (fun x i =>
    let e := flipOf f (k + 8 * i)
    if e = 0 then x
    else
      let r := eccDecode (bitsOf x.1 (64 * i + 63) (64 * i)) (x.2.testBit i) e
      let p := x.2 - (if x.2.testBit i then 2 ^ i else 0) + (if r.2.2.2 then 2 ^ i else 0)
      (setBits x.1 (64 * i + 63) (64 * i) (if r.2.2.2 then 0 else r.2.2.1), p)) x

/-! ### Reading stored words (R231 to R234, R246). -/

/-- Where the counters and events of a stored word belong. -/
inductive Store where
  | chan (ch : Nat)
  | bank (ps : Nat)
  deriving DecidableEq, Repr

def keyStore (k : Nat) : Store :=
  if k < 0x4200000000 then .chan (k / 2 ^ 31) else .bank ((k - 0x4200000000) / 0x4000000)

/-- Source codes of byte 21 of events 0x0201 and 0x0202 (R234). -/
def srcRead : Nat := 0
def srcPart : Nat := 1
def srcScrub : Nat := 2
def srcCopy : Nat := 3

def rowGroup (ca : Nat) : Nat := 2 * bitsOf ca 18 17 + bitsOf ca 16 16

def State.chan (s : State) (ch : Nat) : Chan := tget {} s.chans ch
def State.setChan (s : State) (ch : Nat) (c : Chan) : State := { s with chans := tset {} s.chans ch c }

/-- Event 0x0201 for a row group or bank at most once in each window of 100,000,000 ticks (R234). -/
def State.ceEvent (s : State) (chn grp unit : Nat) (data : List (Nat × Nat × Nat)) : State :=
  let c := s.chan chn
  let due := match tget none c.lastEv grp with
    | none => true
    | some t => decide (100000000 ≤ (s.now - t).toNat)
  if due then
    (s.setChan chn { c with lastEv := tset none c.lastEv grp (some s.now) }).event 0x0201 unit 1 data
  else s

/-- A correction counted in the hour window of R241; at the threshold event 0x0206 is recorded once, and
the channel is reported to the suspect policy through `told`. -/
def State.ceWindow (s : State) (ch : Nat) : State :=
  let c := s.chan ch
  let el := (s.now - c.winStart).toNat
  let c := if 360000000000 ≤ el then
      { c with winStart := c.winStart + BitVec.ofNat 64 (el / 360000000000 * 360000000000), winCount := 0,
               winTold := false } else c
  let n := c.winCount + 1
  let hit := s.rd (Reg.MEM_CE_THR ch) ≤ n && !c.winTold
  let s := s.setChan ch { c with winCount := n, winTold := c.winTold || hit, report := c.report || hit }
  if hit then s.event 0x0206 (unitId 3 ch) 1 [(16, 4, n)] else s

/-- Counts and records the outcome of a decode at key `k` (R231, R234, R241, R246). -/
def State.noteDecode (s : State) (k src sy : Nat) (d : Decode) (poisoned : Bool) : State :=
  match keyStore k with
  | .chan ch =>
    let ca := k % 2 ^ 31
    let data := [(16, 4, ca - ca % 8), (20, 1, ca % 256 / 8), (21, 1, src), (22, 2, sy)]
    let s := match d with
      | .clean => s
      | _ => (s.wr (Reg.MEM_LAST_ERR ch) (ca - ca % 8)).wr (Reg.MEM_LAST_SYN ch)
               (sy + 2 ^ 16 + (if d = .bad then 2 ^ 17 else 0))
    match d with
    | .clean => if poisoned then s.sat (Reg.MEM_POISON_RD ch) 1 else s
    | .corrected =>
      let s := ((s.sat (Reg.MEM_CE_CNT ch) 1).sat (Reg.MEM_RG_CE ch (rowGroup ca)) 1)
      let s := if poisoned then s.sat (Reg.MEM_POISON_RD ch) 1 else s
      (s.ceEvent ch (rowGroup ca) (unitId 3 ch) data).ceWindow ch
    | .bad => (s.sat (Reg.MEM_UE_CNT ch) 1).event 0x0202 (unitId 3 ch) 2 data
  | .bank ps =>
    let src := if src = srcPart then srcRead else src
    let o := (k - 0x4200000000) % 0x4000000
    let bk := o / 0x300000
    let bo := o % 0x300000
    let unit := unitId 7 (ps * 16 + bk)
    match d with
    | .clean => s
    | .corrected =>
      (s.sat (Reg.SPN_SRAM_CE ps) 1).ceEvent (200 + ps) bk unit
        [(16, 4, bo - bo % 256), (20, 1, bo % 256 / 8), (21, 1, src), (22, 2, sy)]
    | .bad => (s.sat (Reg.SPN_SRAM_UE ps) 1).event 0x0211 unit 2 [(16, 4, bo - bo % 8), (20, 2, sy)]

/-- Reads the stored word that holds key `k` under R231: its bytes as delivered, whether it carries
poison, and the outcome. -/
def State.readWord (s : State) (k src : Nat) (f : Flips) : List Byte × Bool × Decode × State :=
  let b := k - k % 8
  let e := flipOf f b
  if e = 0 then
    let p := s.poisonAt b
    (if p then List.replicate 8 0 else s.bytesAt b 8, p, .clean, s.noteDecode b src 0 .clean p)
  else
    let r := eccDecode (leNat (s.bytesAt b 8)) (s.poisonAt b) e
    let d := if r.2.2.2 then 0 else r.2.2.1
    let s' := match r.1 with
      | .clean => s
      | .corrected => (s.putBytes b (toLE 8 r.2.2.1)).setPoison b r.2.2.2
      | .bad => (s.putBytes b (List.replicate 8 0)).setPoison b true
    (toLE 8 d, r.2.2.2, r.1, s'.noteDecode b src r.2.1 r.1 (r.2.2.2 && decide (r.1 ≠ .bad)))

/-- Reads `n` words from the aligned key `k`: bytes, poison mask, and the words that were uncorrectable
or corrected (for R239). -/
def State.readWords : Nat → State → Nat → Nat → Flips → List Byte × Nat × List (Nat × Decode) × State
  | 0, s, _, _, _ => ([], 0, [], s)
  | n + 1, s, k, src, f =>
    let r := s.readWord k src f
    let q := State.readWords n r.2.2.2 (k + 8) src f
    (r.1 ++ q.1, (if r.2.1 then 1 else 0) + 2 * q.2.1,
      (if r.2.2.1 = .clean then q.2.2.1 else (k, r.2.2.1) :: q.2.2.1), q.2.2.2)

/-- The poison of the source word that byte `i` of a write comes from. -/
def srcPoison (pm i : Nat) : Bool := pm.testBit (i / 8)

/-- Writes the bytes `l` of a write, its source word poison `pm`, that fall in the stored word at the
aligned key `b`; `o` is the offset in the write of the first of them and `at` its offset in the word
(R228, R232, R233).  Answers whether the write took effect and what the read of a partial write found. -/
def State.writeWord (s : State) (b at_ o : Nat) (l : List Byte) (pm : Nat) (f : Flips) : Bool × Decode × State :=
  let bad := (List.range l.length).any (fun i => srcPoison pm (o + i))
  let spoil (s : State) : State := (s.putBytes b (List.replicate 8 0)).setPoison b true
  if l.length = 8 then (true, .clean, if bad then spoil s else (s.putBytes b l).setPoison b false)
  else
    let r := s.readWord b srcPart f
    if r.2.2.1 = .bad then (false, .bad, r.2.2.2)
    else if bad then (true, r.2.2.1, spoil r.2.2.2)
    else if r.2.1 then (false, r.2.2.1, r.2.2.2)
    else (true, r.2.2.1, r.2.2.2.putBytes (b + at_) l)

/-- Writes bytes at key `k`, stored word by stored word (R228, R232). -/
def State.writeKey : Nat → State → Nat → Nat → List Byte → Nat → Flips → State
  | 0, s, _, _, _, _, _ => s
  | n + 1, s, k, o, l, pm, f =>
    match l with
    | [] => s
    | _ =>
      let m := 8 - k % 8
      let r := s.writeWord (k - k % 8) (k % 8) o (l.take m) pm f
      State.writeKey n r.2.2 (k + m) (o + m) (l.drop m) pm f

/-- Every byte of a region reads as zero with no poison. -/
def State.clearKeys (s : State) (lo hi : Nat) : State :=
  { s with mem := s.mem.filter (fun c => decide (c.1 < lo) || decide (hi ≤ c.1)),
           poison := s.poison.filter (fun c => decide (c.1 < lo / 8) || decide (hi / 8 ≤ c.1)) }

end Sys2Proof.Machine
end

