-- ==== Sys2Proof/Machine/Fabric.lean ====
section
/-! DEFINITION. The fabric's packets and frames, routing, queues, half-port states and discards
(spec/09_fabric.md R285 to R321; spec/10_collectives.md R343, R344). -/

namespace Sys2Proof.Machine

/-- The device's own coordinate (R311). -/
def State.coord (s : State) : Nat := s.rf Reg.FAB_COORD 12 0

/-! ### Header words (R299). -/

/-- The eight header words of a packet. -/
def Pkt.words (p : Pkt) : List Nat :=
  let b (x : Bool) : Nat := if x then 1 else 0
  [p.type * 2 ^ 28 + p.epoch * 2 ^ 27 + p.cls * 2 ^ 25 + b p.mcast * 2 ^ 24 + b p.last * 2 ^ 23 + b p.poison * 2 ^ 22 +
     b p.check * 2 ^ 21 + b p.shadow * 2 ^ 20 + p.len,
   p.dcoord * 2 ^ 19 + p.dep * 2 ^ 14 + p.group,
   p.scoord * 2 ^ 19 + p.sep * 2 ^ 14 + p.tag,
   p.addr % 2 ^ 32,
   p.op * 2 ^ 8 + p.addr / 2 ^ 32,
   p.cid * 2 ^ 16 + p.idx,
   p.step % 2 ^ 32,
   p.w7 % 2 ^ 32]

def Pkt.header (p : Pkt) : List Byte := p.words.flatMap (toLE 4)

/-- A packet read from its header and payload bytes. -/
def pktOf (h pay : List Byte) : Pkt :=
  let w (i : Nat) : Nat := rdLE h (4 * i) 4
  { type := bitsOf (w 0) 31 28, epoch := bitsOf (w 0) 27 27, cls := bitsOf (w 0) 26 25, mcast := bitOf (w 0) 24
    last := bitOf (w 0) 23, poison := bitOf (w 0) 22, check := bitOf (w 0) 21, shadow := bitOf (w 0) 20
    len := bitsOf (w 0) 15 0, dcoord := bitsOf (w 1) 31 19, dep := bitsOf (w 1) 18 14, group := bitsOf (w 1) 13 0
    scoord := bitsOf (w 2) 31 19, sep := bitsOf (w 2) 18 14, tag := bitsOf (w 2) 11 0
    addr := w 3 + bitsOf (w 4) 7 0 * 2 ^ 32, op := bitsOf (w 4) 31 8, cid := bitsOf (w 5) 31 16, idx := bitsOf (w 5) 15 0
    step := w 6, w7 := w 7, payload := pay
    rsv := bitsOf (w 0) 19 16 + 16 * bitsOf (w 2) 13 12 }

/-- Bit `k` of the marks: payload word `k` is poisoned; a POISON packet marks all (R299). -/
def Pkt.mask (p : Pkt) : Nat := if p.poison then 2 ^ ((p.payload.length + 7) / 8) - 1 else 0

/-! ### Frames (R293 to R297). -/

/-- CRC of IEEE 802.3 over a byte string. -/
def crcBit (c : Nat) : Nat := if c % 2 = 1 then (c / 2) ^^^ 0xEDB88320 else c / 2
def crcByte (c : Nat) (b : Byte) : Nat := (List.range 8).foldl (fun c _ => crcBit c) (c ^^^ b.toNat)
def crc32 (l : List Byte) : Nat := (l.foldl crcByte 0xFFFFFFFF) ^^^ 0xFFFFFFFF

/-- The MAC of half-port `h` of a device (R296). -/
def State.macOf (s : State) (coord h : Nat) : List Byte :=
  toBE 2 (s.rf Reg.FAB_MAC 15 0) ++ toBE 1 (s.rf Reg.FAB_MAC 23 16) ++ toBE 3 (coord * 32 + h)

/-- The IPv6 and IPv4 addresses of half-port `h` of a device (R295). -/
def State.ip6Of (s : State) (coord h : Nat) : List Byte :=
  toBE 16 (s.rd (Reg.FAB_IP6_PFX 0) * 2 ^ 32 + s.rd (Reg.FAB_IP6_PFX 1) * 2 ^ 64 + s.rd (Reg.FAB_IP6_PFX 2) * 2 ^ 96 +
    coord * 32 + h)
def State.ip4Of (s : State) (coord h : Nat) : List Byte :=
  toBE 4 (s.rf Reg.FAB_IP4_PFX 13 0 * 2 ^ 18 + coord * 32 + h)

/-- Ones'-complement sum of 16-bit big-endian words. -/
def onesSum : Nat → List Byte → Nat → Nat
  | 0, _, a => a
  | n + 1, l, a =>
    let t := a + beNat (sliceB l 0 2)
    onesSum n (l.drop 2) (t % 65536 + t / 65536)

def onesOf (l : List Byte) : Nat := onesSum ((l.length + 1) / 2) l 0

/-- The UDP datagram of a payload, its checksum over the pseudo-header included (R293, R294). -/
def udpOf (src dst : List Byte) (sport dport : Nat) (pay : List Byte) : List Byte :=
  let n := 8 + pay.length
  let h := toBE 2 sport ++ toBE 2 dport ++ toBE 2 n
  let pseudo := if src.length = 16 then src ++ dst ++ toBE 4 n ++ [0, 0, 0, 17] else src ++ dst ++ [0, 17] ++ toBE 2 n
  let c := 0xFFFF - onesOf (pseudo ++ h ++ [0, 0] ++ pay)
  h ++ toBE 2 (if c = 0 then 0xFFFF else c) ++ pay

/-- The IPv4 header of a datagram of `n` bytes. -/
def ip4Hdr (src dst : List Byte) (dscp n : Nat) : List Byte :=
  let h := [0x45] ++ toBE 1 (dscp * 4) ++ toBE 2 (20 + n) ++ [0, 0, 0x40, 0, 64, 17, 0, 0] ++ src ++ dst
  patchB h 10 (toBE 2 (0xFFFF - onesOf h))

/-- The IPv6 header of a datagram of `n` bytes. -/
def ip6Hdr (src dst : List Byte) (dscp n next : Nat) : List Byte :=
  toBE 4 (6 * 2 ^ 28 + dscp * 4 * 2 ^ 20) ++ toBE 2 n ++ toBE 1 next ++ [64] ++ src ++ dst

/-- Ends a frame: pad to 60 bytes, then the FCS. -/
def endFrame (l : List Byte) : List Byte :=
  let l := l ++ List.replicate (60 - l.length) 0
  l ++ toLE 4 (crc32 l)

def State.topo (s : State) : Nat := s.rf Reg.FAB_CTL 1 0

def State.portSt (s : State) (h : Nat) : Nat := s.rf (Reg.PORT_ST (h / 2) (h % 2)) 2 0
def State.setPortSt (s : State) (h v : Nat) : State := s.wf (Reg.PORT_ST (h / 2) (h % 2)) 2 0 v
def State.half (s : State) (h : Nat) : Half := tget {} s.fab.halves h
def State.setHalf (s : State) (h : Nat) (x : Half) : State :=
  { s with fab := { s.fab with halves := tset {} s.fab.halves h x } }
/-- Lanes of a half-port's width (R288, R324). -/
def State.lanesOf (s : State) (h : Nat) : Nat :=
  let w := s.rf (Reg.PORT_ST (h / 2) (h % 2)) 6 4
  if w = 0 then 0 else 2 ^ (w - 1)

/-- The destination MAC of a packet leaving on `h` (R293, R300). -/
def State.destMac (s : State) (h : Nat) (p : Pkt) : List Byte :=
  if s.topo = 0 then
    let r := Reg.PORT_PARTNER (h / 2) (h % 2)
    s.macOf (s.rf r 12 0) (s.rf r 17 13)
  else if s.topo = 1 then s.macOf p.dcoord h
  else toLE 4 (s.rd (Reg.PORT_GW_LO (h / 2) (h % 2))) ++ toLE 2 (s.rf (Reg.PORT_GW_HI (h / 2) (h % 2)) 15 0)

/-- The 802.1Q tag of R297. -/
def State.vlanTag (s : State) (pcp : Nat) : List Byte := [0x81, 0] ++ toBE 2 (pcp * 2 ^ 13 + s.rf Reg.FAB_ETYPE 27 16)

/-- The frame that carries a packet on a half-port (R293). -/
def State.frameOf (s : State) (h : Nat) (q : QPkt) : List Byte :=
  let p := q.pkt
  let pcp := 2 * p.cls + q.vc
  let body := p.header ++ p.payload
  let l2 := s.destMac h p ++ s.macOf s.coord h ++ s.vlanTag pcp
  let sport := 0xC000 + p.op % 2 ^ 14
  if s.topo ≤ 1 then endFrame (l2 ++ toBE 2 (s.rf Reg.FAB_ETYPE 15 0) ++ body)
  else if s.topo = 2 then
    let a := s.ip6Of s.coord h
    let b := s.ip6Of p.dcoord h
    let u := udpOf a b sport (s.rf Reg.FAB_UDP 15 0) body
    endFrame (l2 ++ [0x86, 0xDD] ++ ip6Hdr a b (8 * pcp) u.length 17 ++ u)
  else
    let a := s.ip4Of s.coord h
    let b := s.ip4Of p.dcoord h
    let u := udpOf a b sport (s.rf Reg.FAB_UDP 15 0) body
    endFrame (l2 ++ [0x08, 0x00] ++ ip4Hdr a b (8 * pcp) u.length ++ u)

/-! ### Discards (R316). -/

/-- A packet discarded with a reason: counted, and event 0x0505 at most once per reason per second. -/
def State.discard (s : State) (reason src dst : Nat) : State :=
  let s := s.sat (Reg.FAB_DISC reason) 1
  let due := match tget none s.fab.told reason with
    | none => true
    | some t => decide (100000000 ≤ (s.now - t).toNat)
  if due then
    ({ s with fab := { s.fab with told := tset none s.fab.told reason (some s.now) } } : State).event 0x0505 devUnit 1
      [(16, 1, reason), (17, 2, src), (19, 2, dst)]
  else s

/-! ### Routing (R306 to R309, R344). -/

/-- A coordinate lies within FAB_DIMS (R15, R299). -/
def State.coordOk (s : State) (c : Nat) : Bool :=
  decide (c < 8192) && decide (bitsOf c 3 0 ≤ s.rf Reg.FAB_DIMS 3 0) && decide (bitsOf c 7 4 ≤ s.rf Reg.FAB_DIMS 7 4) &&
    decide (bitsOf c 12 8 ≤ s.rf Reg.FAB_DIMS 12 8)

/-- Component of a coordinate in a dimension, and that dimension's size. -/
def coordDim (c d : Nat) : Nat := if d = 0 then bitsOf c 3 0 else if d = 1 then bitsOf c 7 4 else bitsOf c 12 8
def State.dimSize (s : State) (d : Nat) : Nat := coordDim (s.rd Reg.FAB_DIMS) d + 1

def State.hctl (s : State) (h : Nat) : Nat := s.rd (Reg.PORT_HCTL (h / 2) (h % 2))
def State.hDim (s : State) (h : Nat) : Nat := bitsOf (s.half h).hct 2 1

/-- Leaving on `h` shortens the distance to `dst` in its dimension (R308). -/
def State.shortens (s : State) (h dst : Nat) : Bool :=
  let d := s.hDim h
  let n := s.dimSize d
  let a := coordDim s.coord d
  let b := coordDim dst d
  let k := if bitOf (s.half h).hct 3 then (a + n - b) % n else (b + n - a) % n
  decide (0 < k ∧ k ≤ n - k)

/-- A half-port the router may choose for a class (R307, R344). -/
def State.usable (s : State) (h cls : Nat) : Bool :=
  s.portSt h == 2 && !(s.ring.lost.contains 3 && decide (h < 16)) && !((s.half h).dike == 1 && cls != 0)

/-- Bytes queued on a half-port for a class and VC (R309). -/
def Half.queued (x : Half) (cls vc : Nat) : Nat :=
  ((x.queue.filter (fun q => q.pkt.cls == cls && q.vc == vc)).map (fun q => 32 + q.pkt.payload.length)).sum

/-- The VC a packet leaves on (R308). -/
def State.vcOn (s : State) (h : Nat) (ingress : Option Nat) (vc : Nat) : Nat :=
  if s.topo ≠ 0 then 0
  else if bitOf (s.half h).hct 4 then 1
  else match ingress with
    | some g => if s.hDim h = s.hDim g ∧ vc = 1 then 1 else 0
    | none => 0

/-- The router's choice among the half-ports of a mask (R309). -/
def State.chooseHalf (s : State) (mask cls : Nat) (ingress : Option Nat) (vc : Nat) : Option Nat :=
  (List.range 32).foldl (fun best h =>
    if mask.testBit h && s.usable h cls then
      match best with
      | none => some h
      | some b =>
        if (s.half h).queued cls (s.vcOn h ingress vc) * s.lanesOf b < (s.half b).queued cls (s.vcOn b ingress vc) * s.lanesOf h
        then some h else some b
    else best) none

/-- Bytes of a class count by its share of the link: 4 : 3 : 1 for CLASS 1, 2 and 3 (R310). -/
def classWeight (c : Nat) : Nat := if c = 1 then 3 else if c = 2 then 4 else 12

/-- What a class has been served, in weighted bytes; one that was idle takes up where those waiting are (R310). -/
def Half.rejoin (x : Half) (c : Nat) : Half :=
  let has (c : Nat) : Bool := x.queue.any (fun q => q.pkt.cls == c)
  if c = 0 ∨ has c = true then x
  else
    let served (c : Nat) : Nat := (x.sent[c - 1]?).getD 0
    let now := (([1, 2, 3].filter has).map served).min?.getD (([1, 2, 3].map served).max?.getD 0)
    { x with sent := lset x.sent (c - 1) (max (served c) now) }

/-- A packet that came in on `ingress` on VC `vcIn` is queued on a half-port for VC `vc`. -/
def State.enqueue (s : State) (h vc : Nat) (p : Pkt) (ingress : Option Nat) (vcIn : Nat) : State :=
  let x := (s.half h).rejoin p.cls
  s.setHalf h { x with queue := x.queue ++ [{ vc := vc, pkt := p, ingress := ingress, vcIn := vcIn }] }

/-- The bank that a packet's EPOCH bit names is valid (R311). -/
def State.bankValid (s : State) (p : Pkt) : Bool := s.rbit Reg.FAB_EPOCH (1 + p.epoch)

/-- Sends a packet on: to the die, to a half-port, or to wait for one (R307 to R309); forwarding takes a valid bank (R311). -/
def State.routePkt (s : State) (p : Pkt) (ingress : Option Nat) (vc : Nat) (since : DWord) : State :=
  if p.dcoord = s.coord then s.send (.pkt ingress p)
  else if s.bankValid p = false then s.discard 5 p.scoord p.dcoord
  else
    let mask := if s.rbit Reg.FAB_COORD 31 then s.rd (Reg.FAB_RT p.epoch p.dcoord) else 0
    match s.chooseHalf mask p.cls ingress vc with
    | none =>
      { s with fab := { s.fab with waiting := s.fab.waiting ++ [{ pkt := p, ingress := ingress, vc := vc, since := since }] } }
    | some h =>
      if s.topo = 0 && !s.shortens h p.dcoord then s.discard 3 p.scoord p.dcoord
      else s.enqueue h (s.vcOn h ingress vc) p ingress vc

/-- Copies of a multicast packet on the half-ports of its group (R314), once the device has a coordinate (R306). -/
def State.copyMcast (s : State) (p : Pkt) (ingress : Option Nat) (vc : Nat) : State :=
  let lo := s.rd (Reg.FAB_MC_LO p.epoch p.group)
  (List.range 32).foldl (fun s h =>
    if s.rbit Reg.FAB_COORD 31 && lo.testBit h && ingress != some h && s.usable h p.cls then
      s.enqueue h (s.vcOn h ingress vc) p ingress vc else s) s

/-- The group's local delivery: SPIN and ENG (R314). -/
def State.mcSpin (s : State) (p : Pkt) : Nat := s.rf (Reg.FAB_MC_HI p.epoch p.group) 15 0
def State.mcEng (s : State) (p : Pkt) : Bool := s.rbit (Reg.FAB_MC_HI p.epoch p.group) 16

/-- A multicast packet injected on the die: its copies, and its local delivery (R314). -/
def State.routeMcast (s : State) (p : Pkt) : State :=
  if s.bankValid p = false then s.discard 5 p.scoord p.dcoord else
  let s := s.copyMcast p none 0
  if s.mcSpin p = 0 ∧ s.mcEng p = false then s else s.send (.pkt none p)

/-- A packet injected by an endpoint of this device (R308, R311); nothing is injected once a breach notice
has silenced the device (R343). -/
def State.inject (s : State) (p : Pkt) : State :=
  if s.fab.quiet then s
  else
    let p := { p with epoch := s.rf Reg.FAB_EPOCH 0 0, scoord := s.coord }
    if p.type = 9 then s.routeMcast p else s.routePkt p none 0 s.now

def State.wait (s : State) (w : WaitPkt) : State := { s with fab := { s.fab with waiting := s.fab.waiting ++ [w] } }

/-- The packets of a half-port that left UP are chosen again (R309); a multicast copy is for that half-port alone and waits for
it (R314). -/
def State.reroute (s : State) (h : Nat) : State :=
  let x := s.half h
  x.queue.foldl (fun s q =>
    if q.pkt.type = 9 then s.wait { pkt := q.pkt, ingress := q.ingress, vc := q.vcIn, since := s.now, only := some h }
    else s.routePkt q.pkt q.ingress q.vcIn s.now) (s.setHalf h { x with queue := [] })

/-- Packets waiting in the router are chosen again: a half-port came up, or a table changed (R309). -/
def State.rerouteWaiting (s : State) : State :=
  s.fab.waiting.foldl (fun s w =>
    match w.only with
    | none => s.routePkt w.pkt w.ingress w.vc w.since
    | some h => if s.usable h w.pkt.cls then s.enqueue h (s.vcOn h w.ingress w.vc) w.pkt w.ingress w.vc else s.wait w)
    { s with fab := { s.fab with waiting := [] } }

/-- What a control packet answers or says (R304): CLASS 0, one packet. -/
def State.sendCtl (s : State) (src dcoord dep tag op sub : Nat) (rest : List Byte) : State :=
  s.inject { type := 6, cls := 0, last := true, dcoord := dcoord, dep := dep, sep := src, tag := tag, op := op
             w7 := 1, len := 1 + rest.length, payload := toLE 1 sub ++ rest, step := s.rd Reg.DET_STEP_LO }

/-! ### The transmitter (R310). -/

/-- The packet's priority, 2·CLASS + VC (R297), is not paused by flow control (R287, R310). -/
def Half.open (x : Half) (now : DWord) (q : QPkt) : Bool :=
  x.paused.all (fun p => decide (p.1 ≠ 2 * q.pkt.cls + q.vc ∨ p.2 ≤ now))

/-- The class served next among those that may send: 0 first, then the one furthest behind its share of 4 : 3 : 1. -/
def Half.nextClass (x : Half) (now : DWord) : Option Nat :=
  let has (c : Nat) : Bool := x.queue.any (fun q => q.pkt.cls == c && x.open now q)
  let sent (c : Nat) : Nat := (x.sent[c - 1]?).getD 0
  if has 0 then some 0
  else
    [1, 2, 3].foldl (fun best c =>
      if has c then
        match best with
        | none => some c
        | some b => if sent c < sent b then some c else some b
      else best) none

/-- One frame leaves a half-port (R310): VC 1 before VC 0 within the class; none before the device has a coordinate (R306). -/
def State.transmit (s : State) (h : Nat) : State :=
  let x := s.half h
  if (s.portSt h = 2 ∨ s.portSt h = 5) ∧ s.rbit Reg.FAB_COORD 31 = true then
    match x.nextClass s.now with
    | none => s
    | some c =>
      let pick := match x.queue.find? (fun q => q.pkt.cls == c && q.vc == 1 && x.open s.now q) with
        | some q => some q
        | none => x.queue.find? (fun q => q.pkt.cls == c && x.open s.now q)
      match pick with
      | none => s
      | some q =>
        let f := s.frameOf h q
        let sent := if c = 0 then x.sent else lset x.sent (c - 1) ((x.sent[c - 1]?).getD 0 + classWeight c * f.length)
        let s := s.setHalf h { x with queue := x.queue.erase q, sent := sent }
        (s.add64 (Reg.PORT_TX_PKT_LO (h / 2)) 1).send (.frame h f)
  else s

/-! ### Half-port states (R285 to R292). -/

/-- The unit ID of a half-port (R41, R285). -/
def State.halfUnit (s : State) (h : Nat) : Nat :=
  if (s.half h).split then unitId 5 (16 + h) else unitId 5 (h / 2)

/-- The half-port exists and is enabled, by the settings its last training took (R285, R324, R344). -/
def State.halfOn (s : State) (h : Nat) : Bool :=
  bitOf (s.half h).hct 0 && (s.half h).dike != 2 && (h % 2 == 0 || (s.half h).split)

/-- Lanes a half-port is configured for. -/
def State.cfgWidth (s : State) (h : Nat) : Nat := if (s.half h).split then 4 else 8

/-- DG_PORT while an enabled half-port is DOWN, BREACHED or narrow (R292). -/
def State.syncDgPort (s : State) : State :=
  let bad := (List.range 32).any (fun h =>
    s.halfOn h && (s.portSt h == 3 || s.portSt h == 4 ||
      ((s.portSt h == 2 || s.portSt h == 5) && decide (s.lanesOf h < s.cfgWidth h))))
  s.setFlags s.dgSpin bad s.dgChan s.margined

/-- The retry interval of a half-port in reference ticks (R290). -/
def State.retryTicks (s : State) (h : Nat) : DWord :=
  BitVec.ofNat 64 (2 ^ (s.rf (Reg.PORT_ST (h / 2) (h % 2)) 27 24) * 100000000)

/-- A half-port trains with the settings PORT_CTL and PORT_HCTL hold now; Fpb is one only while SPLIT is set (R285, R288, R292,
R324). -/
def State.trainHalf (s : State) (h : Nat) : State :=
  let c := s.rd (Reg.PORT_CTL (h / 2))
  let x := s.half h
  let s := s.setHalf h { x with mode := bitsOf c 2 1, split := bitOf c 3, strict := bitOf c 4, dike := bitsOf (s.hctl h) 6 5, hct := s.hctl h
                                trainAt := some s.now, retryAt := none }
  if bitsOf (s.hctl h) 6 5 = 2 ∨ bitOf (s.hctl h) 0 = false ∨ (h % 2 = 1 ∧ bitOf c 3 = false) ∨ s.rbit Reg.CMD_STRAPS 14 = true then ((s.setPortSt h 0).reroute h).syncDgPort
  else ((((s.setPortSt h 1).wf (Reg.PORT_ST (h / 2) (h % 2)) 6 4 0).sat (Reg.PORT_RETRY (h / 2)) 1).reroute h).syncDgPort

/-- Training begins.  Where the other half holds lanes under another SPLIT it trains again with it: a whole port becomes Fpa, and
Fpb ends where the port becomes whole (R285; log 168). -/
def State.beginTraining (s : State) (h : Nat) : State :=
  let g := if h % 2 = 0 then h + 1 else h - 1
  let split := bitOf (s.rd (Reg.PORT_CTL (h / 2))) 3
  let s := s.trainHalf h
  if s.portSt g ≠ 0 ∧ (s.half g).split ≠ split then s.trainHalf g else s

/-- An enable or retrain command: k returns to 0 and training begins (R290, R292). -/
def State.retrain (s : State) (h : Nat) : State := (s.wf (Reg.PORT_ST (h / 2) (h % 2)) 27 24 0).beginTraining h

/-- A half-port leaves service by command or policy (R292). -/
def State.disableHalf (s : State) (h : Nat) : State :=
  let s := s.setHalf h { s.half h with trainAt := none, retryAt := none }
  let s := (s.wf (Reg.PORT_HCTL (h / 2) (h % 2)) 0 0 0).wf (Reg.PORT_ST (h / 2) (h % 2)) 6 4 0
  ((s.setPortSt h 0).reroute h).syncDgPort

/-- A failed attempt: DOWN, event 0x0503, the retry timer, and k raised up to 6 (R290). -/
def State.trainFail (s : State) (h cause : Nat) : State :=
  let k := s.rf (Reg.PORT_ST (h / 2) (h % 2)) 27 24
  let s := s.setHalf h { s.half h with trainAt := none, retryAt := some (s.now + s.retryTicks h) }
  let s := s.event 0x0503 (s.halfUnit h) 2 [(16, 1, cause), (17, 1, 2 ^ k)]
  ((s.wf (Reg.PORT_ST (h / 2) (h % 2)) 27 24 (min 6 (k + 1))).setPortSt h 3).syncDgPort

/-- A half-port in service becomes BREACHED (R291, R343). -/
def State.breachHalf (s : State) (h cause peer : Nat) : State :=
  if s.portSt h = 2 ∨ s.portSt h = 5 then
    let s := s.event 0x0510 (s.halfUnit h) 2 (if cause ≤ 2 then [(16, 1, cause)] else [(16, 1, cause), (17, 2, peer), (19, 1, 1)])
    let s := s.setHalf h { s.half h with retryAt := some (s.now + s.retryTicks h) }
    (((s.setPortSt h 4).wf (Reg.PORT_ST (h / 2) (h % 2)) 6 4 0).reroute h).syncDgPort
  else s

/-- STANDBY half-ports enter UP and narrow UP ones retrain (R292, R313). -/
def State.returnHalf (s : State) (h : Nat) : State := if s.portSt h = 5 then (s.setPortSt h 2).rerouteWaiting else s

/-! ### Breach notices (R342, R343). -/

/-- A 16-byte breach notice (R342). -/
def State.noticeBytes (s : State) (cause : Nat) : List Byte :=
  toLE 2 s.coord ++ toLE 1 cause ++ [0, 0, 0] ++ toLE 2 (s.rf Reg.COLL_DIKE 15 0) ++ toLE 8 (s.rd64 Reg.DET_STEP_LO)

def State.sysPkt (s : State) (type dcoord : Nat) (pay : List Byte) : Pkt :=
  { type := type, cls := 0, last := true, w7 := 1, dcoord := dcoord, dep := 16, sep := 16, len := pay.length
    payload := pay, scoord := s.coord, epoch := s.rf Reg.FAB_EPOCH 0 0, step := s.rd Reg.DET_STEP_LO }

/-- Sends a system packet to the link partner of every UP or STANDBY half-port (R342, R343), once the device has a coordinate
(R306). -/
def State.toPartners (s : State) (type : Nat) (pay : List Byte) : State :=
  (List.range 32).foldl (fun s h =>
    if (s.portSt h = 2 ∨ s.portSt h = 5) ∧ s.rbit Reg.FAB_COORD 31 = true then
      s.enqueue h (s.vcOn h none 0) (s.sysPkt type (s.rf (Reg.PORT_PARTNER (h / 2) (h % 2)) 12 0) pay) none 0
    else s) s

/-- Sends a system packet to every watched peer (R342, R343). -/
def State.toPeers (s : State) (type : Nat) (pay : List Byte) : State :=
  (List.range 64).foldl (fun s n =>
    if s.rbit (Reg.COLL_PEER n) 31 then s.inject (s.sysPkt type (s.rf (Reg.COLL_PEER n) 12 0) pay) else s) s

/-- The device breaches: a notice to partners and peers, and no other traffic afterwards (R343). -/
def State.breachNotice (s : State) (cause : Nat) : State :=
  let b := s.noticeBytes cause
  let s := (s.toPartners 7 b).toPeers 7 b
  { s with fab := { s.fab with quiet := true } }

end Sys2Proof.Machine
end

