-- ==== Sys2Proof/Machine/Det.lean ====
section
/-! DEFINITION. Run records, time class, quarantine verdicts and the end of a checkpoint: what happens to
them when a context ends (spec/11_determinism.md R354 to R374; spec/13_hangs_resets_recovery.md R423, R424;
spec/14_checkpoint.md R445). -/

namespace Sys2Proof.Machine

/-! ### Run records (R370 to R374). -/

/-- The 48 bytes of a digest held in twelve registers. -/
def State.digestAt (s : State) (r : Nat → Nat) : List Byte := (List.range 12).flatMap (fun k => toLE 4 (s.rd (r k)))

/-- An IEEE 1588 timestamp of now: 48-bit seconds and nanoseconds, zero while the clock is unset (R371, R491). -/
def State.ptpStamp (s : State) : List Byte :=
  if s.rbit Reg.MGMT_PTP_CTL 0 then
    toLE 4 (s.rd Reg.MGMT_PTP_NOW_SLO) ++ toLE 2 (s.rd Reg.MGMT_PTP_NOW_SHI) ++ toLE 4 (s.rd Reg.MGMT_PTP_NOW_NS)
  else List.replicate 10 0

/-- FENCE_DIGEST (R372). -/
def State.fenceDigest (s : State) : List Byte := sha384 ((List.range 16).flatMap (fun l => toLE 4 (s.rd (Reg.SKN_LMAP l))))

/-- Bytes of a record with its seals and drops, signature included (R371). -/
def recSize (nseal ndrop : Nat) : Nat := 0x290 + 64 * nseal + 16 * ndrop + 96

/-- Where a record of `len` bytes goes in a buffer of `cap` bytes that holds `l`, oldest first (R374): whole,
behind the last, or from the start where it does not fit before the end (log 30). -/
def recPlace (l : List RecEnt) (cap len : Nat) : Option Nat :=
  match l.head?, l.getLast? with
  | some a, some b =>
    let tail := b.off + b.len
    if a.off ≤ b.off then
      if tail + len ≤ cap then some tail else if len ≤ a.off then some 0 else none
    else if tail + len ≤ a.off then some tail else none
  | _, _ => if len ≤ cap then some 0 else none

/-- A seal entry and a dropped-block entry (R372). -/
def sealBytes (x : SealEnt) : List Byte := toLE 4 x.id ++ toLE 4 0 ++ toLE 8 x.step ++ sliceB x.digest 0 48
def dropBytes (x : DropEnt) : List Byte := toLE 8 x.step ++ toLE 2 x.ecb ++ toLE 2 x.cidx ++ toLE 1 x.cwlog ++ [0, 0, 0]

/-- The seals of a context whose digests are complete (R367, R372). -/
def Slot.sealed (j : Slot) : List SealEnt := j.seals.filter (·.done)

/-- Flags, skein cycles and held A-ticks of a context's logical spindles: in the registers while it runs, saved
otherwise (R71, R107). -/
def State.tally (s : State) (j : Slot) : Nat × List (Nat × Nat) :=
  let one (l : Nat) : Nat × Nat × Nat :=
    if s.runCtx = j.ctx.toNat then
      let ps := s.physOf l
      (s.rd (Reg.SPN_NUM_FLAGS ps), s.rd64 (Reg.SPN_SKC_LO ps), s.rd64 (Reg.SPN_HOLD_CNT_LO ps))
    else
      let v := tget {} j.saved l
      (v.num, v.skc, v.hold)
  let all := (List.range j.lcount).map one
  (all.foldl (fun a x => a ||| x.1) 0, all.map (·.2))

/-- OS_DIGEST: the digest of the image started, else zero (R371, R558, R562). -/
def State.osDigest (s : State) : List Byte :=
  match s.boot.image with
  | some i => i.digest
  | none => List.replicate 48 0

/-- Bytes 0 to LEN − 97 of the record of a context (R371); SKC and HOLD count from the record's opening. -/
def State.recBytes (s : State) (j : Slot) (r : RunRec) (isPartial : Bool) (out : List Byte) (last : Nat) : List Byte :=
  let b (x : Bool) (n : Nat) : Nat := if x then 2 ^ n else 0
  let t := s.tally j
  let train : Bool := j.job.loss != 0
  let flags := b train 0 + b j.tstrict 1 + b r.timeOk 2 + b isPartial 3 + b (r.poison || t.1.testBit 6) 4 + b r.replay 5
  let cnt (l : Nat) : List Byte :=
    let x := (t.2[l]?).getD (0, 0)
    let o := (r.base[l]?).getD (0, 0)
    toLE 8 (x.1 - o.1) ++ toLE 8 (x.2 - o.2)
  toLE 4 0x52525A4B ++ toLE 2 1 ++ toLE 2 flags ++ toLE 4 (recSize j.sealed.length r.drops.length) ++ toLE 2 0x0301 ++
  toLE 2 1 ++ s.digestAt Reg.SEC_DEV_ID ++ s.osDigest ++ sliceB j.digest 0 48 ++ toLE 8 j.job.seed.toNat ++
  toLE 8 r.first ++ toLE 8 last ++ toLE 4 j.numMode ++ toLE 2 j.sealed.length ++ toLE 2 r.drops.length ++
  (if isPartial then List.replicate 48 0 else out) ++ toLE 4 (if train then r.loss else 0) ++ toLE 1 j.job.outs.length ++
  toLE 1 s.fuse.part ++ toLE 2 r.pcap ++ (if train then sha384 r.lossBytes else List.replicate 48 0) ++ toLE 2 r.aMhz ++
  toLE 2 0 ++ toLE 4 r.stretch ++ toLE 4 r.fchg ++ toLE 4 (if j.tstrict then r.foreignCnt else 0) ++ r.fence ++
  (List.range 16).flatMap cnt ++ toLE 8 r.startTick ++ toLE 8 s.now.toNat ++ r.ptp ++ s.ptpStamp ++ toLE 4 0 ++
  j.sealed.flatMap sealBytes ++ r.drops.flatMap dropBytes

/-- DET registers that show the running context's step, seed and open record (R377). -/
def State.syncDet (s : State) : State :=
  match s.runningSlot with
  | none => (s.wr64 Reg.DET_STEP_LO 0).wr64 Reg.DET_SEED_LO 0
  | some j =>
    let s := (s.wr64 Reg.DET_STEP_LO j.step.toNat).wr64 Reg.DET_SEED_LO j.job.seed.toNat
    match j.run with
    | none => s
    | some r =>
      let s := ((s.wr Reg.DET_RUN_STRETCH r.stretch).wr Reg.DET_RUN_FCHG r.fchg).wr Reg.DET_RUN_FOREIGN r.foreignCnt
      s.wr Reg.DET_REC_ST (r.drops.length % 65536 * 2 ^ 16 + j.sealed.length % 256 * 2 ^ 8 + (if r.timeOk then 8 else 0) + 1)

/-- Changes the open record of the running context. -/
def State.modRun (s : State) (f : RunRec → RunRec) : State :=
  match s.runningSlot with
  | some j => (s.setSlot s.runSlot (some { j with run := j.run.map f })).syncDet
  | none => s

/-- The open record of slot `n` closes: it is laid in the buffer to be signed, or lost where no room is
left (R370, R373, R374). -/
def State.closeRecord (s : State) (n : Nat) (isPartial : Bool) (out : List Byte) (last : Nat) : State :=
  match s.slotOf n with
  | none => s
  | some j =>
    match j.run with
    | none => s
    | some r =>
      let len := recSize j.sealed.length r.drops.length
      match recPlace j.recs j.job.recLen len with
      | some off =>
        let e : RecEnt := { off := off, len := len, bytes := s.recBytes j r isPartial out last, signed := false }
        (s.setSlot n (some { j with run := none, recs := j.recs ++ [e], cut := false })).wf Reg.DET_REC_ST 2 0 3
      | none =>
        ((s.setSlot n (some { j with run := none, cut := false })).wf Reg.DET_REC_ST 2 0 0).eventCtx 0x0A44 devUnit 2
          j.ctx.toNat [(16, 2, j.ctx.toNat), (18, 1, 4)]

/-- The time class of the open record is void from now on: event 0x0A41 once per cause (R365, R366). -/
def State.voidTime (s : State) (cause : Nat) : State :=
  match s.runningSlot with
  | none => s
  | some j =>
    match j.run with
    | none => s
    | some r =>
      if j.tstrict then
        let s := s.modRun (fun r => { r with timeOk := false, told := if r.told.contains cause then r.told else r.told ++ [cause] })
        if r.told.contains cause then s else s.event 0x0A41 devUnit 1 [(16, 1, cause), (17, 2, j.ctx.toNat)]
      else s

/-! ### Quarantine (R423, R424). -/

def State.quarActive (s : State) : Bool := s.rbit Reg.RST_QUAR 0
def State.quarCtx (s : State) : Nat := s.rf Reg.RST_QUAR 31 16

/-- Quarantine ends with a verdict (R424). -/
def State.quarEnd (s : State) (verdict code : Nat) : State :=
  if s.quarActive then
    let i := s.rf Reg.RST_QUAR 7 4
    let c := s.quarCtx
    let s := (s.wf (Reg.RST_SUSP0 i) 22 20 verdict).wf (Reg.RST_SUSP1 i) 15 0 c
    let s := (s.wr Reg.RST_QUAR 0).wf Reg.RST_STAT 16 16 0
    s.event 0x0709 devUnit 1 [(16, 1, i), (17, 1, verdict), (18, 2, c), (20, 2, if verdict = 3 then code else 0)]
  else s

/-! ### The end of a checkpoint (R445). -/

/-- The active checkpoint fails: writing stops, protection ends, event 0x0722; it is due again (R445). -/
def State.ckptFail (s : State) (cause coord : Nat) : State :=
  match s.reel.ckpt with
  | none => s
  | some k =>
    let s := { s with reel := { s.reel with ckpt := none }, prot := s.prot.filter (fun p => decide (p.kind ≠ ProtKind.ckpt)) }
    let left (o : FabOp) : FabOp := if o.who = .ckpt then { o with who := .stray } else o
    let s := { s with fab := { s.fab with ops := s.fab.ops.map left } }
    let s := (s.wf Reg.REEL_ST 1 0 0).wf Reg.REEL_ST 31 16 0
    let s := (s.sat Reg.REEL_FAIL 1).event 0x0722 0x201C 2 [(16, 1, cause), (17, 2, k.ctx), (19, 2, coord)]
    match s.slotOf (k.ctx % 16) with
    | some j => if j.ctx.toNat = k.ctx then
        s.setSlot (k.ctx % 16) (some { j with due := true, owed := if k.released then j.owed else j.owed + 1 }) else s
    | none => s

/-- What ends with a context that faults: its open record closes PARTIAL, its checkpoint fails, its
collectives stop, and quarantine of it ends with verdict FAULT (R370, R424, R445). -/
def State.contextLost (s : State) (n code : Nat) : State :=
  match s.slotOf n with
  | none => s
  | some j =>
    let s := s.closeRecord n true [] j.step.toNat
    let s := match s.reel.ckpt with
      | some k => if k.ctx = j.ctx.toNat then s.ckptFail 4 0 else s
      | none => s
    let s := { s with coll := { s.coll with active := s.coll.active.filter (fun c => decide (c.ctx ≠ j.ctx.toNat)) } }
    if s.quarActive && s.quarCtx == j.ctx.toNat then s.quarEnd 3 code else s

end Sys2Proof.Machine
end

