-- ==== Sys2Proof/Machine/Context.lean ====
section
/-! DEFINITION. What ends a context, and the channel actions that go with it (spec/03_spindle.md R110,
R112, R113; spec/04_skein.md R152; spec/08_on_die_interconnect.md R277, R278). -/

namespace Sys2Proof.Machine

/-- This device's end of channel or queue `c` of logical spindle `l`. -/
def State.ownEnd (s : State) (l c : Nat) : ChanBind := { remote := false, coord := s.coord, logical := l, chan := c }

/-- The operation ID of a table entry: slot and reuse count (R317). -/
def opIdOf (n : Nat) : Nat := n % 1024 * 2 ^ 14 + n / 1024 % 2 ^ 14

/-- The job context tag of a resident context, 0 where it has none (R299). -/
def State.tagOfCtx (s : State) (ctx : Nat) : Nat :=
  match s.slotOf (ctx % 16) with
  | some j => if j.ctx.toNat = ctx then j.job.jobtag.toNat else 0
  | none => 0

/-- A channel message as a fabric packet (R304); the manual gives it no class, and CLASS 2 is used (log 31). -/
def State.msgPkt (s : State) (ctx : Nat) (src dst : ChanBind) (msg : ChanMsg) (op : Nat) : Pkt :=
  { type := 4, cls := 2, last := true, w7 := 1, dcoord := dst.coord, dep := dst.logical, sep := src.logical
    tag := s.tagOfCtx ctx, addr := msg.poison.toNat, op := opIdOf op, cid := dst.chan + 64 * src.chan
    idx := msg.seq.toNat, len := 4 * msg.words.length, payload := msg.words.flatMap (fun w => toLE 4 w.toNat)
    step := s.rd Reg.DET_STEP_LO }

/-- Sends channel traffic of a context: on the rings, or as a fabric packet to another device (R257, R272,
R304). -/
def State.sendChan (s : State) (kind : ChanKind) (ctx : Nat) (src dst : ChanBind) (msg : ChanMsg) (op : Nat) : State :=
  if dst.remote then
    let ctl (sub : Nat) (rest : List Byte) : State :=
      s.sendCtl src.logical dst.coord dst.logical (s.tagOfCtx ctx) (opIdOf op) sub rest
    match kind with
    | .message => s.inject (s.msgPkt ctx src dst msg op)
    | .accept => ctl 2 []
    | .closedAns => ctl 3 []
    | .credit => ctl 4 ([0] ++ toLE 1 dst.chan ++ [1])
    | .notice => ctl 5 ([0] ++ toLE 1 dst.chan ++ [0])
    | .readerNotice => ctl 5 ([0] ++ toLE 1 dst.chan ++ [1])
    | .endMark => ctl 6 ([0] ++ toLE 1 dst.chan ++ [0] ++ toLE 2 msg.seq.toNat)
  else s.send (.chan { kind := kind, ctx := ctx, src := src, dst := dst, msg := msg, op := op })

def noMsg : ChanMsg := { seq := 0, words := [], poison := 0 }

/-- Fills a reserved sluice entry (R87), keeping the tag and generation of the reservation. -/
def fillEntry (sl : List SlEnt) (op : Nat) (tag : BitVec 8) (f : Flit) : List SlEnt :=
  sl.map (fun e => if e.op = op ∧ e.tag = tag ∧ e.filled = false then
    { e with filled := true, flit := { f with tag := e.tag, gen := e.gen } } else e)

/-- A flit that carries poison in every word (R89). -/
def poisonFlit : Flit := { data := 0, pword := BitVec.allOnes 32, ctl := false, nw := 31 }

/-- Ends an operation: its entries not yet filled fill with poison and it leaves the table (R89). -/
def Spn.poisonOp (x : Spn) (op : Nat) : Spn :=
  { x with
    sluice := x.sluice.map (fun e => if e.op = op ∧ e.filled = false then
      { e with filled := true, flit := { poisonFlit with tag := e.tag, gen := e.gen } } else e)
    ops := x.ops.filter (fun o => decide (o.id ≠ op)) }

/-- A queue that can deliver nothing more fills its posted receives with poison (R278). -/
def Spn.starveQueue (x : Spn) (q : Nat) : Spn :=
  let iq := tget {} x.inq q
  let x := iq.posted.foldl (fun y o => y.poisonOp o) x
  { x with inq := tset {} x.inq q { iq with posted := [] } }

/-- The reader's end of queue `q` closes: messages held are discarded and the sender told (R277). -/
def State.closeQueue (s : State) (ps ctx q : Nat) : State :=
  let x := s.spn ps
  let iq := tget {} x.inq q
  match iq.st with
  | .opened | .ended =>
    let n := iq.held.length
    let x := { x with inq := tset {} x.inq q { iq with st := .closed, held := [] } }
    let s := s.setSpn ps (x.starveQueue q)
    let s := s.sat (Reg.CHN_DISC ps q) n
    let s := if n = 0 then s else s.eventCtx 0x0403 (unitId 0 ps) 1 ctx [(16, 1, q), (17, 1, n)]
    match iq.bind with
    | none => s
    | some b => s.sendChan .notice ctx (s.ownEnd (s.logicalN ps) q) b noMsg 0
  | _ => s

/-- Every inbound queue of a spindle closes (R277). -/
def State.closeQueues (s : State) (ps ctx : Nat) : State :=
  (List.range 64).foldl (fun s q => s.closeQueue ps ctx q) s

/-- The physical spindles that carry the logical spindles below `n`. -/
def State.physList (s : State) (n : Nat) : List Nat :=
  ((List.range n).filter s.lmapValid).map s.physOf

/-- SKN_RESIDENT and the sequencer's view of the slots (R157). -/
def State.syncResident (s : State) : State :=
  let m (p : Slot → Bool) : Nat :=
    (List.range 16).foldl (fun a n => match s.slotOf n with
      | some x => if p x then a + 2 ^ n else a
      | none => a) 0
  s.wr Reg.SKN_RESIDENT (m (fun _ => true) + 2 ^ 16 * m (fun x => x.st == .ready || x.st == .suspended))

/-- Changes what a slot holds; a context that changes state asserts interrupt source 2 (R483). -/
def State.modSlot (s : State) (n : Nat) (f : Slot → Slot) : State :=
  match s.slotOf n with
  | none => s
  | some x => ((s.setSlot n (some (f x))).syncResident).raiseIrq 2

/-- The running context gives way for the most urgent of the causes of R153. -/
def GiveWay.rank : GiveWay → Nat
  | .fault => 0 | .ended => 1 | .command => 2 | .quantum => 3

def State.giveWay (s : State) (w : GiveWay) : State :=
  let w' := match s.seqr.giving with
    | some v => if v.rank ≤ w.rank then v else w
    | none => w
  { s with seqr := { s.seqr with giving := some w', gaveAt := if s.seqr.giving.isSome then s.seqr.gaveAt else s.now } }

/-- The running context faults with event code `code`: every spindle it runs on becomes IDLE with its
state kept for dump, its inbound queues close, but for a knot, which changes no channel (R281), and the sequencer gives way
(R110, R152, R277). -/
def State.faultRunning (s : State) (code : Nat) : State :=
  match s.runningSlot with
  | none => s
  | some x =>
    if x.st = .faulted then s
    else
      let s := (s.physList x.lcount).foldl (fun s ps =>
        if s.spnState ps ≤ 4 then
          let s := if code = 0x0410 then s else s.closeQueues ps x.ctx.toNat
          (s.modSpn ps (fun y => { y with dump := true })).setSpnState ps 0
        else s) s
      let t := s.tally x
      let s := s.modSlot s.runSlot (fun x => { x with st := .faulted, fault := code, flags := t.1, counts := t.2 })
      (s.contextLost s.runSlot code).giveWay .fault

/-- A context fault raised by a spindle: the event, SPN_FAULT, and the end of the context; the first
fault of a context is the one it keeps (R112, R113). -/
def State.spnFault (s : State) (ps code unit tag : Nat) (data : List (Nat × Nat × Nat)) : State :=
  let s := s.event code (unitId 0 ps) 2 data
  let s := s.wr (Reg.SPN_FAULT ps) (code + 2 ^ 16 * unit + 2 ^ 24 * tag)
  s.faultRunning code

end Sys2Proof.Machine
end

