-- ==== Sys2Proof/Machine/Power.lean ====
section
/-! DEFINITION. The effective clock and its changes, planned voltages, thermal levels, domain gating and
module flash as shared operations (spec/15_clocks_power.md R453 to R474; spec/11_determinism.md R362 to
R365; spec/19_module.md R583). -/

namespace Sys2Proof.Machine

/-! ### Module flash. -/

/-- A byte of module flash; an erased one reads 0xFF. -/
def State.flashAt (s : State) (a : Nat) : Byte := tget 0 s.flash a ^^^ 0xFF
def State.flashBytes (s : State) (a n : Nat) : List Byte := (List.range n).map (fun i => s.flashAt (a + i))
def State.flashPut (s : State) (a : Nat) (l : List Byte) : State := { s with flash := memPut s.flash a (l.map (· ^^^ 0xFF)) }

/-- Partitions of module flash (R584). -/
def flCal : Nat := 0
def flSoft : Nat := 0x800000
def flWithdrawal : Nat := 0x810000
def flAddr : Nat := 0x820000
def flKeys : Nat := 0x830000
def flCert : Nat := 0x840000
def flImage : Nat := 0x8000000

/-! ### Planned voltages (R465, R466). -/

/-- Domains that follow V(F), and the maximum of a domain in mV. -/
def aScaled (d : Nat) : Bool := decide (12 ≤ d ∧ d ≤ 22)
def maxMv (d : Nat) : Nat := if d = 10 ∨ d = 11 then 1110 else 900
def fixedMv (d : Nat) : Nat := if d = 10 ∨ d = 11 then 1050 else if d = 3 then 800 else 750

/-- The V(F) table of the calibration store, or of the ROM (R465, R564). -/
def State.vf (s : State) (f : Nat) : Nat := ((s.hlth.vtable[(f - 250) / 25]?).getD (660 + 10 * ((f - 250) / 25)))

/-- The planned voltage of domain `d` at clock `f` (R466). -/
def State.planMv (s : State) (d f : Nat) : Nat :=
  (if aScaled d then s.vf f else fixedMv d) + (if d = 10 ∨ d = 11 then 0 else s.rf (Reg.HLTH_AGE d) 7 0) +
    s.rf (Reg.RST_MARGIN d) 7 0

/-- The regulators take the plan for clock `f`. -/
def State.syncPlan (s : State) (f : Nat) : State :=
  (List.range 24).foldl (fun s d => s.wf (Reg.PWR_DOM_V d) 31 16 (s.planMv d f)) s

/-! ### The effective clock (R457, R459, R464). -/

def State.aMhz (s : State) : Nat := s.rf Reg.CLK_ST 25 16
def State.fmax (s : State) : Nat := s.rf Reg.HLTH_FMAX 9 0
def State.fLimit (s : State) : Nat := min (s.rf Reg.CLK_PLAN 9 0) s.fmax
def State.mstep (s : State) : Nat := s.rf Reg.RST_SPOL 2 2
def State.therm (s : State) : Nat := s.rf Reg.CLK_REDUCE 7 0
def State.powerSteps (s : State) : Nat := s.rf Reg.CLK_REDUCE 15 8
def State.droop (s : State) : Nat := s.rf Reg.CLK_REDUCE 19 16

/-- F as the formula of R459 gives it, the steps the safe clock still holds back counted as reductions
(R464); the safe clock and thermal level 3 hold it at 250 MHz (R457, R473). -/
def State.effF (s : State) : Nat :=
  if s.rbit Reg.CLK_REDUCE 20 || s.rf Reg.PWR_THROT 2 0 == 3 then 250
  else max 250 (s.fLimit - 25 * (s.mstep + s.therm + s.powerSteps + s.droop + s.clk.missing))

/-- CLK_PLAN.LIMIT_MHZ and CLK_ST.PEND. -/
def State.syncClk (s : State) : State :=
  let s := s.wf Reg.CLK_PLAN 25 16 (s.fLimit - 25 * s.mstep)
  s.wf Reg.CLK_ST 7 7 (if s.clk.change.isSome || !s.clk.reqs.isEmpty || !s.clk.deferred.isEmpty then 1 else 0)

/-- A context with TSTRICT set runs (R364). -/
def State.tstrictRuns (s : State) : Bool :=
  match s.runningSlot with
  | some j => j.tstrict && decide (j.st = .running)
  | none => false

/-- A change of F is asked for (R461, R462): a forced one replaces a change still locking; any other is
deferred while a TSTRICT context runs. -/
def State.askFreq (s : State) (cause : Nat) (isForced : Bool) : State :=
  let r : FreqReq := { cause := cause, isForced := isForced }
  if isForced then
    let change := match s.clk.change with
      | some c => if c.step = 1 then none else some c
      | none => none
    ({ s with clk := { s.clk with change := change, reqs := r :: s.clk.reqs } } : State).syncClk
  else if s.tstrictRuns then ({ s with clk := { s.clk with deferred := s.clk.deferred ++ [r] } } : State).syncClk
  else ({ s with clk := { s.clk with reqs := s.clk.reqs ++ [r] } } : State).syncClk

/-- Deferred changes wait no longer once no TSTRICT context runs (R364). -/
def State.undefer (s : State) : State :=
  if s.tstrictRuns then s
  else
    let s := s.clk.deferred.foldl (fun s r => match r.plan with
      | some p => s.wf Reg.CLK_PLAN 9 0 p
      | none => s) s
    ({ s with clk := { s.clk with reqs := s.clk.reqs ++ s.clk.deferred, deferred := [] } } : State).syncClk

/-- A new PLAN asked for (R459, R461): set at once, or held while a TSTRICT context runs. -/
def State.askPlan (s : State) (p : Nat) : State :=
  if s.tstrictRuns then
    ({ s with clk := { s.clk with deferred := s.clk.deferred ++ [{ cause := 1, isForced := false, plan := some p }] } } : State).syncClk
  else (s.wf Reg.CLK_PLAN 9 0 p).syncClk.askFreq 1 false

/-- Alignment is lost (R362): cause 1 stretch, 2 frequency change. -/
def State.loseAlign (s : State) (cause : Nat) : State := (s.wf Reg.DET_ALIGN 0 0 0).wf Reg.DET_ALIGN 7 4 cause

/-- ALERT_N is asserted. -/
def State.alertOn (s : State) : State := { s with pwr := { s.pwr with alert := true } }

/-! ### Thermal levels (R473). -/

/-- An 8-bit temperature field: a temperature below zero has no stated encoding (log 32). -/
def State.tempByte (s : State) (t : Int) : Nat × State :=
  if 0 ≤ t then (min t.toNat 255, s) else let r := s.free; (r.1 % 256, r.2)

def thermLevel (tj ts : Int) : Nat :=
  if 105 ≤ tj ∨ 100 ≤ ts then 3 else if 95 ≤ tj ∨ 95 ≤ ts then 2 else if 90 ≤ tj ∨ 90 ≤ ts then 1 else 0

/-- The levels that `tj` or `ts` alone reaches. -/
def thermByTs (lvl : Nat) (tj : Int) : Bool := decide (thermLevel tj (-1000) < lvl)

/-- Acts on a fresh pair of readings: levels entered, THERM, THERM_N and the cool period (R473). -/
def State.thermal (s : State) (tj : Int) (region : Nat) (ts : Int) (stack : Nat) : State :=
  let old := s.rf Reg.PWR_THROT 2 0
  let new := thermLevel tj ts
  let s := s.wf Reg.PWR_THROT 2 0 new
  let s := (List.range new).foldl (fun s k =>
    if old < k + 1 then
      let byTs := thermByTs (k + 1) tj
      let b := s.tempByte (if byTs then ts else tj)
      b.2.event 0x0106 devUnit 2 [(16, 1, k + 1), (17, 1, b.1), (18, 1, if byTs then 0x80 + stack else region)]
    else s) s
  let s := if old = 0 ∧ new = 1 then
      (({ s with pwr := { s.pwr with thermAt := s.now } } : State).wf Reg.CLK_REDUCE 7 0 (min 18 (s.therm + 1))).askFreq 5 true
    else s
  let s := if old < 2 ∧ 2 ≤ new then
      (({ s with pwr := { s.pwr with thermAt := s.now } } : State).wf Reg.CLK_REDUCE 7 0 (max s.therm ((s.fLimit - 250) / 25))).askFreq 5 true
    else s
  let s := if old = 3 ∧ new < 3 then s.askFreq 8 false else s
  let s := if new = 3 then s.wf Reg.PWR_THROT 3 3 1 else if tj < 95 ∧ ts < 95 then s.wf Reg.PWR_THROT 3 3 0 else s
  let cool := if tj < 85 ∧ ts < 85 then (match s.pwr.coolAt with
    | some t => some t
    | none => some s.now) else none
  { s with pwr := { s.pwr with coolAt := cool } }

/-! ### Domains (R34, R465, R469). -/

/-- The domain of a physical spindle. -/
def domOfPs (ps : Nat) : Nat := if ps = 8 then 20 else if ps = 17 then 21 else if ps < 8 then 12 + ps / 2 else 12 + (ps - 1) / 2

/-- The physical spindles a domain supplies. -/
def psOfDom (d : Nat) : List Nat := (List.range 18).filter (fun ps => domOfPs ps == d)

/-- Domain `d` on or off, shown in PWR_ST. -/
def State.setDom (s : State) (d : Nat) (on : Bool) : State :=
  let bit : BitVec 24 := BitVec.ofNat 24 (2 ^ d)
  let s := { s with domsOff := if on then s.domsOff &&& ~~~bit else s.domsOff ||| bit }
  s.wf Reg.PWR_ST d d (if on then 1 else 0)

/-- The unit ID of a power domain. -/
def domUnit (d : Nat) : Nat := unitId 11 d

end Sys2Proof.Machine
end

