-- ==== Sys2Proof/Machine/CalStore.lean ====
section
/-! DEFINITION. The calibration store of the module flash and what its items hold
(spec/18_start_up.md R563 to R565; spec/12_self_test_repair_ageing.md R400 to R403, R406). -/

namespace Sys2Proof.Machine

/-! ### The calibration store (R563). -/

def calHead (s : State) : List Byte := s.flashBytes flCal 0x1A0

/-- The store's header is right. -/
def calHeadOk (h : List Byte) : Bool :=
  rdLE h 0 4 == 0x4C435A4B && rdLE h 4 2 == 1 && rdLE h 6 2 == 6 && leNat (sliceB h 8 24) == 0

def calOff (h : List Byte) (i : Nat) : Nat := rdLE h (0x20 + 64 * i) 4
def calLen (h : List Byte) (i : Nat) : Nat := rdLE h (0x24 + 64 * i) 4

/-- An item's directory entry breaks no range and no reserved bit is set. -/
def calEntryOk (h : List Byte) (i : Nat) : Bool :=
  calOff h i % 4096 == 0 && decide (1 ≤ calLen h i ∧ calLen h i ≤ 0x100000) && decide (calOff h i + calLen h i ≤ flSoft) &&
    decide (rdLE h (0x28 + 64 * i) 1 < 2) && leNat (sliceB h (0x29 + 64 * i) 7) == 0

/-- The bytes of an item that can be located. -/
def State.calBytes (s : State) (i : Nat) : Option (List Byte) :=
  let h := calHead s
  if calHeadOk h && calEntryOk h i then some (s.flashBytes (flCal + calOff h i) (calLen h i)) else none

/-- The bytes of a valid item. -/
def State.calItem (s : State) (i : Nat) : Option (List Byte) :=
  match s.calBytes i with
  | some b => if sha384 b = sliceB (calHead s) (0x30 + 64 * i) 48 then some b else none
  | none => none

/-- A fresh header with no item in it. -/
def calFresh : List Byte := toLE 4 0x4C435A4B ++ toLE 2 1 ++ toLE 2 6 ++ List.replicate (24 + 384) 0

/-- Writes bytes of an item in place, from byte `o` of it: FACTORY clears and the digest follows (R564, R565). -/
def State.calPut (s : State) (i o : Nat) (b : List Byte) : State :=
  let h := calHead s
  let s := s.flashPut (flCal + calOff h i + o) b
  let e := 0x20 + 64 * i
  let d := sha384 (s.flashBytes (flCal + calOff h i) (calLen h i))
  (s.flashPut (flCal + e + 8) [0]).flashPut (flCal + e + 16) d

/-- Writes back a whole item; where its entry cannot be used a new one is made, 1 MiB apart (log 66).  Event 0x07E4. -/
def State.calWrite (s : State) (i : Nat) (b : List Byte) : State :=
  let h := calHead s
  let s := if calHeadOk h then s else s.flashPut flCal calFresh
  let off := if calHeadOk h && calEntryOk h i then calOff h i else 0x1000 + 0x100000 * i
  let s := s.flashPut (flCal + 0x20 + 64 * i) (toLE 4 off ++ toLE 4 b.length ++ List.replicate 8 0)
  (s.calPut i 0 b).event 0x07E4 devUnit 1 [(16, 1, i), (17, 4, b.length)]

/-! ### What the items hold (log 66). -/

/-- Item 3: four monitor baselines in ps and k_v in thousandths of ps per mV for each domain, then oscillator
baselines of the clock regions. -/
def ageBase (b : List Byte) (d : Nat) : List Int × Nat :=
  ((List.range 4).map (fun k => sext 16 (rdLE b (10 * d + 2 * k) 2)), rdLE b (10 * d + 8) 2)
def roBaseOf (b : List Byte) (r : Nat) : Nat := rdLE b (240 + 4 * r) 4

/-- Item 4: V(F) in mV for 250 to 700 MHz. -/
def vfOf (b : List Byte) : List Nat := (List.range 19).map (fun k => rdLE b (2 * k) 2)

/-- Powered-on seconds (R406). -/
def State.poh (s : State) : Nat := s.hlth.pohSaved.toNat + (s.now - s.hlth.pohAt).toNat / 100000000

/-- Item 5: powered-on seconds, HLTH_FMAX, raises, and each domain's fit points. -/
def State.ageState (s : State) : List Byte :=
  toLE 8 s.poh ++ toLE 2 s.fmax ++ (List.range 24).flatMap (fun d => toLE 1 (s.rf (Reg.HLTH_AGE d) 7 0)) ++
    (List.range 24).flatMap (fun d =>
      let p := (tget {} s.hlth.ages d).points
      toLE 1 p.length ++ (List.range 32).flatMap (fun k => let x := (p[k]?).getD (0, 0); toLE 4 x.1 ++ toLE 2 x.2))

def agePoints (b : List Byte) (d : Nat) : List (Nat × Nat) :=
  let o := 34 + 193 * d
  (List.range (min 32 (rdLE b o 1))).map (fun k => (rdLE b (o + 1 + 6 * k) 4, rdLE b (o + 5 + 6 * k) 2))

/-- The ageing state is kept in the store (R402, R564). -/
def State.saveAge (s : State) : State := s.calWrite 5 s.ageState

end Sys2Proof.Machine
end

