-- ==== Sys2Proof/Machine/Mem.lean ====
section
/-! DEFINITION. Access to device addresses: who may reach what, error handling, protection, atomics and
spare-row repair (spec/01_architecture.md R29 to R31; spec/04_skein.md R118; spec/07_memory.md R228 to
R243; spec/08_on_die_interconnect.md R258, R259; spec/11_determinism.md R367; spec/14_checkpoint.md R438). -/

namespace Sys2Proof.Machine

/-- Source codes of event 0x0210 (R30). -/
def Who.code : Who → Nat
  | .spindle _ => 0
  | .core _ => 2
  | .command => 3
  | .fabric _ => 4
  | _ => 1

/-- Event 0x0210 (R30, R33): address, source, direction (1 write) and byte 23. -/
def State.addrError (s : State) (a src dir late : Nat) : State :=
  s.event 0x0210 devUnit 2 [(16, 5, a), (21, 1, src), (22, 1, dir), (23, 1, late)]

/-- The write of a register at offset `a` that has a row of its own: with its block's domain off it is discarded with event
0x0210 (R33).  Such a write is taken as the command processor's.  DESIGN CHOICE (log 148). -/
def State.rowWrite (s : State) (a : Nat) (eff : State → State) : State :=
  if s.domOn (regDomain a) then eff s else s.addrError (0x5000000000 + a) 3 1 0

/-- A channel serves requests in READY alone (R242, R243). -/
def State.chanReady (s : State) (ch : Nat) : Bool := decide (s.rf (Reg.MEM_CH_STAT ch) 2 0 = 2)

/-- A spindle's ring stop absorbs while the spindle is fenced, in a reset, or without power (R258). -/
def State.absorbCause (s : State) (ps : Nat) : Nat :=
  if !s.domOn (regDomain (Reg.SPN_STATE ps)) then 3
  else if s.spnState ps = 6 then 1 else if s.spnState ps = 7 then 2 else 0

/-- The stop of a polder's crossbar (R251). -/
def crossbarStop (p : Nat) : Nat := ([5, 10, 17, 22][p]?).getD 5

/-- Why the stop of a unit that is no spindle absorbs, 0 where it does not: its power domain is off, or its polder is in a
reset of level 3 (R258, R410). -/
def State.stopCause (s : State) (st : Nat) : Nat :=
  let d := if st = 0 then 0 else if st = 1 then 3 else if st = 5 then 6 else if st = 10 then 7 else if st = 17 then 8
    else if st = 22 then 9 else if st = 25 ∨ st = 26 then 23 else 22
  if !s.domOn d then 3
  else if s.rst.resets.any (fun r => decide (r.level = 3) && r.polders.any (fun p => crossbarStop p == st)) then 2 else 0

/-- Sets RING_STOP_ST of a stop, with event 0x0420 when absorbing begins (R258). -/
def State.syncStopAt (s : State) (st c : Nat) : State :=
  let old := s.rd (Reg.RING_STOP_ST st)
  let s := s.wr (Reg.RING_STOP_ST st) (if c = 0 then 0 else 2 * c + 1)
  if old % 2 = 0 ∧ c ≠ 0 then
    s.event 0x0420 (unitId 4 st) 1 [(16, 1, c)]
  else s

/-- RING_STOP_ST of a spindle's stop follows its spindle (R258). -/
def State.syncStop (s : State) (ps : Nat) : State := s.syncStopAt (spindleStop ps) (s.absorbCause ps)

/-- RING_STOP_ST of the other units' stops. -/
def State.syncUnits (s : State) (l : List Nat) : State := l.foldl (fun s st => s.syncStopAt st (s.stopCause st)) s

/-- The stop at which a message has been ejected (R257). -/
def State.doorOf (s : State) (l : RingLoad) : Option Nat := (s.ring.door.find? (fun d => d.2 == l)).map (·.1)

/-- A unit takes a message that was ejected at its stop, or else one on its way. -/
def State.takeLoad (s : State) (l : RingLoad) : State :=
  match s.ring.door.find? (fun d => d.2 == l) with
  | some d => { s with ring := { s.ring with door := s.ring.door.erase d } }
  | none => (match l with
    | .req r => s.take (.req r)
    | .resp r => s.take (.resp r)
    | .chan p => s.take (.chan p))

/-! ### Spare-row repair (R238 to R240). -/

/-- Entry `n` of a channel's repair table that maps a row, if any. -/
def State.repairEntry (s : State) (ch layer bank row : Nat) : Option Nat :=
  (List.range 128).find? (fun n =>
    let r := Reg.MEM_REPAIR ch n
    s.rbit r 31 && s.rf r 29 28 == layer && s.rf r 27 24 == bank && s.rf r 23 12 == row)

def bankKey (layer bank : Nat) : Nat := layer * 16 + bank

/-- Spare `p` of a bank is in use, retired, or being copied to. -/
def State.spareTaken (s : State) (ch layer bank p : Nat) : Bool :=
  let c := s.chan ch
  (List.range 128).any (fun n =>
    let r := Reg.MEM_REPAIR ch n
    s.rbit r 31 && s.rf r 29 28 == layer && s.rf r 27 24 == bank && s.rf r 11 10 == p)
  || c.retired.contains (bankKey layer bank, p)
  || c.copies.any (fun k => k.layer == layer && k.bank == bank && k.spare == p)

/-- MEM_CH_STAT.TBL_FREE and SPARES (R240, R249). -/
def State.syncSpares (s : State) (ch : Nat) : State :=
  let used := (List.range 128).countP (fun n => s.rbit (Reg.MEM_REPAIR ch n) 31)
  let s := s.wf (Reg.MEM_CH_STAT ch) 23 16 (128 - used)
  s.wf (Reg.MEM_CH_STAT ch) 15 7 (256 - used - (s.chan ch).retired.length)

/-- The table has no entry for another row: every one is used or promised to a copy under way (R240). -/
def State.tableFull (s : State) (ch : Nat) : Bool :=
  let used := (List.range 128).countP (fun n => s.rbit (Reg.MEM_REPAIR ch n) 31)
  decide (128 ≤ used + (s.chan ch).copies.countP (fun k => (s.repairEntry ch k.layer k.bank k.row).isNone))

/-- Starts a repair of a row, or refuses it with event 0x0205 (R240 step 1). -/
def State.startRepair (s : State) (ch layer bank row : Nat) (fuse : Bool) : State × Option Nat :=
  let unit := unitId 8 (ch * 8 + 2 * layer + bank / 8)
  let c := s.chan ch
  let mapped := (s.repairEntry ch layer bank row).isSome
  if c.copies.any (fun k => k.layer == layer && k.bank == bank && k.row == row) then (s, none)
  else
    match (List.range 4).find? (fun p => !s.spareTaken ch layer bank p) with
    | none => (s.event 0x0205 unit 2 [(16, 2, row), (18, 1, bank), (19, 1, 1)], some 1)
    | some p =>
      if s.tableFull ch && !mapped then (s.event 0x0205 unit 2 [(16, 2, row), (18, 1, bank), (19, 1, 2)], some 2)
      else
        let k : RepairCopy := { layer := layer, bank := bank, row := row, spare := p, start := s.now, fuse := fuse }
        (s.setChan ch { c with copies := c.copies ++ [k] }, none)

/-- The automatic repair of R239 after a read of the line at channel address `ca` met outcome `d`. -/
def State.autoRepair (s : State) (ch ca : Nat) (d : Decode) : State :=
  if !s.rbit (Reg.MEM_CH_CTL ch) 2 then s
  else
    let layer := bitsOf ca 18 17
    let bank := bitsOf ca 16 13
    let row := bitsOf ca 30 19
    match d with
    | .clean => s
    | .bad => (s.startRepair ch layer bank row false).1
    | .corrected =>
      let c := s.chan ch
      let key := row * 64 + layer * 16 + bank
      let e := tget (0, 0) c.rowCe key
      let e := if e.1 = 0 ∨ 8640000000000 ≤ (s.now - e.2).toNat then (1, s.now) else (e.1 + 1, e.2)
      if 4 ≤ e.1 then
        ((s.setChan ch { c with rowCe := tset (0, 0) c.rowCe key (0, 0) }).startRepair ch layer bank row false).1
      else s.setChan ch { c with rowCe := tset (0, 0) c.rowCe key e }

/-- Automatic repairs for the words an access found at fault: the read of one line counts once (R228, R239). -/
def State.autoRepairs (s : State) (l : List (Nat × Decode)) : State :=
  let line (x : Nat × Decode) : Nat := x.1 / 256
  ((l.map line).eraseDups).foldl (fun s n =>
    let k := 256 * n
    let d : Decode := if l.any (fun x => line x == n && x.2 == .bad) then .bad else .corrected
    if k < 0x4200000000 then s.autoRepair (k / 2 ^ 31) (k % 2 ^ 31) d else s) s

/-! ### Foreign accesses (R366). -/

/-- Counts an access during a TSTRICT run that its strands did not make. -/
def State.foreignAccess (s : State) (who : Who) (a : Nat) : State :=
  match who with
  | .spindle _ | .sequencer | .det => s
  | _ =>
    match s.runningSlot with
    | none => s
    | some j =>
      let near := match s.loc a with
        | .dram ch _ => decide (ch < 128)
        | .sram l _ => decide (l < j.lcount)
        | _ => false
      if j.tstrict && near then
        (s.modRun (fun r => { r with foreignCnt := min (r.foreignCnt + 1) 0xFFFFFFFF })).voidTime 3
      else s

/-! ### Reads (R30, R31, R243, R258). -/

/-- What became of one stored word of an access; `stop` is the absorbing stop that answered (R258), `found` what the
decode met. -/
structure WordRead where
  bytes : List Byte := List.replicate 8 0
  poison : Bool := true
  unmapped : Bool := false
  fenced : Bool := false
  stop : Option Nat := none
  found : List (Nat × Decode) := []
  deriving DecidableEq, Repr

/-- Reads the stored word at the aligned device address `b`, for an error source of R234. -/
def State.readDevWord (s : State) (src b : Nat) (f : Flips) : WordRead × State :=
  match s.loc b with
  | .dram ch ca =>
    if s.chanReady ch then
      let r := s.readWord (dramKey ch ca) src f
      ({ bytes := r.1, poison := r.2.1, found := if r.2.2.1 = .clean then [] else [(dramKey ch ca, r.2.2.1)] }, r.2.2.2)
    else ({ fenced := true }, s)
  | .sram l o =>
    let ps := s.physOf l
    if s.absorbCause ps = 0 then
      let r := s.readWord (sramKey ps o) src f
      ({ bytes := r.1, poison := r.2.1 }, r.2.2.2)
    else ({ stop := some (spindleStop ps) }, s)
  | _ => ({ unmapped := true }, s)

def State.readDevWords : Nat → State → Nat → Nat → Flips → List WordRead × State
  | 0, s, _, _, _ => ([], s)
  | n + 1, s, src, b, f =>
    let r := s.readDevWord src b f
    let q := State.readDevWords n r.2 src (b + 8) f
    (r.1 :: q.1, q.2)

/-- Poison marks of the returned 64-bit words: word `i` carries poison when a stored word it takes a byte
from does (R69, R232). -/
def returnedPoison (ws : List WordRead) (off n : Nat) : Nat :=
  (List.range ((n + 7) / 8)).foldl (fun a i =>
    let lo := (off + 8 * i) / 8
    let hi := (off + min (8 * i + 7) (n - 1)) / 8
    if (ws.drop lo).take (hi + 1 - lo) |>.any (·.poison) then a + 2 ^ i else a) 0

/-- Event 0x020C: a request met a channel that is fenced or in self-refresh (R243). -/
def State.fencedEvent (s : State) (b a dir : Nat) : State :=
  match s.loc b with
  | .dram ch _ => s.event 0x020C (unitId 3 ch) 2 [(16, 5, a), (21, 1, dir)]
  | _ => s.event 0x020C devUnit 2 [(16, 5, a), (21, 1, dir)]

/-- A read of `n` bytes at device address `a`: bytes, poison marks by 64-bit word, whether an address was
unmapped, and the state (R30, R231, R243). -/
def State.rawRead (s : State) (who : Who) (src a n : Nat) (f : Flips) : List Byte × Nat × Bool × State :=
  let b := a - a % 8
  let cnt := if n = 0 then 0 else (a + n - 1) / 8 - a / 8 + 1
  let r := State.readDevWords cnt s src b f
  let bytes := ((r.1.map (·.bytes)).flatten.drop (a % 8)).take n
  let un := r.1.any (·.unmapped)
  let s := r.2.autoRepairs (r.1.flatMap (·.found))
  let s := (r.1.filterMap (·.stop)).eraseDups.foldl (fun s st => s.sat (Reg.RING_ABS_RD st) 1) s
  let s := if un then s.addrError a who.code 0 0 else s
  let s := if r.1.any (·.fenced) then s.fencedEvent b a 0 else s
  (bytes, returnedPoison r.1 (a % 8) n, un, s)

/-- A read with its foreign-access count (R366). -/
def State.devRead (s : State) (who : Who) (a n : Nat) (f : Flips) : List Byte × Nat × Bool × State :=
  (s.foreignAccess who a).rawRead who srcRead a n f

/-! ### Protection (R118, R367, R438). -/

/-- The protected region a write meets, if any; an image is reported before a seal, a seal before a
draining buffer (log 22). -/
def State.protHit (s : State) (a n : Nat) : Option ProtRgn :=
  let hit (p : ProtRgn) : Bool := decide (a < p.hi ∧ p.lo < a + n)
  match s.prot.find? (fun p => p.kind == .image && hit p) with
  | some p => some p
  | none =>
    match s.prot.find? (fun p => p.kind == .seal && hit p) with
    | some p => some p
    | none => s.prot.find? hit

/-- What a discarded write into a protected region records and ends (R118, R367, R438). -/
def State.protEvent (s : State) (p : ProtRgn) (who : Who) (a : Nat) : State :=
  match p.kind with
  | .image => s.event 0x0323 devUnit 1 [(16, 5, a), (21, 2, p.ctx)]
  | .seal => s.event 0x0A42 devUnit 1 [(16, 5, a), (21, 2, p.ctx), (23, 1, p.id)]
  | .ckpt =>
    match who with
    | .spindle _ =>
      let s := s.sat Reg.REEL_PROT 1
      let s := s.event 0x0726 devUnit 2 [(16, 5, a), (21, 2, s.runCtx)]
      if s.runCtx = p.ctx then s.faultRunning 0x0726 else s
    | _ => (s.sat Reg.REEL_PROT 1).event 0x0726 devUnit 2 [(16, 5, a), (21, 2, 0)]

/-! ### Writes. -/

/-- One stored word of a write: whether it took effect (with what the read of a partial write met), was unmapped, met a
channel not serving, or was answered by an absorbing stop. -/
inductive WordWrite where
  | done (found : List (Nat × Decode))
  | lost (found : List (Nat × Decode))
  | unmapped
  | fenced
  | absorbed (stop : Nat)
  deriving DecidableEq, Repr

def WordWrite.found : WordWrite → List (Nat × Decode)
  | .done l => l
  | .lost l => l
  | _ => []

/-- The word was written. -/
def WordWrite.ok : WordWrite → Bool
  | .done _ => true
  | _ => false

def WordWrite.stop : WordWrite → Option Nat
  | .absorbed st => some st
  | _ => none

def State.writeDevWord (s : State) (b at_ o : Nat) (l : List Byte) (pm : Nat) (f : Flips) : WordWrite × State :=
  match s.loc b with
  | .dram ch ca =>
    if s.chanReady ch then
      let r := s.writeWord (dramKey ch ca) at_ o l pm f
      let found := if r.2.1 = .clean then [] else [(dramKey ch ca, r.2.1)]
      (if r.1 then .done found else .lost found, r.2.2)
    else (.fenced, s)
  | .sram lg off =>
    let ps := s.physOf lg
    if s.absorbCause ps = 0 then
      let r := s.writeWord (sramKey ps off) at_ o l pm f
      (if r.1 then .done [] else .lost [], r.2.2)
    else (.absorbed (spindleStop ps), s)
  | _ => (.unmapped, s)

def State.writeDevWords : Nat → State → Nat → Nat → List Byte → Nat → Flips → List WordWrite × State
  | 0, s, _, _, _, _, _ => ([], s)
  | n + 1, s, a, o, l, pm, f =>
    match l with
    | [] => ([], s)
    | _ =>
      let m := 8 - a % 8
      let r := s.writeDevWord (a - a % 8) (a % 8) o (l.take m) pm f
      let q := State.writeDevWords n r.2 (a + m) (o + m) (l.drop m) pm f
      (r.1 :: q.1, q.2)

/-- A byte of the access lies in a channel that is fenced or in self-refresh (R243). -/
def State.fencedAt (s : State) (a n : Nat) : Bool :=
  (List.range (n / 256 + 2)).any (fun i =>
    let b := max a (a - a % 256 + 256 * i)
    match s.loc b with
    | .dram ch _ => decide (b < a + n) && !s.chanReady ch
    | _ => false)

/-- The stop that answers for an address because its spindle's stop absorbs (R258). -/
def State.absorbAt (s : State) (a : Nat) : Option Nat :=
  match s.loc a with
  | .sram l _ => if s.absorbCause (s.physOf l) = 0 then none else some (spindleStop (s.physOf l))
  | _ => none

/-- A write of bytes at a device address: whether it took effect (a discarded write is acknowledged with
poison, log 20), whether an address was unmapped, and the state (R30, R228, R232, R243). -/
def State.rawWrite (s : State) (who : Who) (a : Nat) (l : List Byte) (pm : Nat) (f : Flips) : Bool × Bool × State :=
  match s.protHit a l.length with
  | some p =>
    let s := if s.fencedAt a l.length then s.fencedEvent a a 1 else s
    (false, false, s.protEvent p who a)
  | none =>
    let r := State.writeDevWords (l.length / 8 + 2) s a 0 l pm f
    let un := r.1.contains .unmapped
    let s := r.2.autoRepairs (r.1.flatMap (·.found))
    let s := (r.1.filterMap (·.stop)).eraseDups.foldl (fun s st => s.sat (Reg.RING_ABS_WR st) 1) s
    let s := if un then s.addrError a who.code 1 0 else s
    let s := if r.1.contains .fenced then s.fencedEvent a a 1 else s
    (r.1.all (·.ok), un, s)

/-- A write with its foreign-access count (R366). -/
def State.devWrite (s : State) (who : Who) (a : Nat) (l : List Byte) (pm : Nat) (f : Flips) : Bool × Bool × State :=
  (s.foreignAccess who a).rawWrite who a l pm f

/-! ### Atomics (R145, R229, R233). -/

/-- The new value of a 64-bit word under AOP: add, swap, compare-and-swap, maximum (R145). -/
def atomNew (aop old operand cmp : Nat) : Nat :=
  if aop = 0 then (old + operand) % 2 ^ 64
  else if aop = 1 then operand
  else if aop = 2 then (if old = cmp then operand else old)
  else max old operand

/-- An atomic on the 64-bit word at `a`: the old value, whether it carries poison, whether the address was
unmapped, and the state.  A poisoned operand or comparand poisons the stored word (R69, R232); a word
that reads with poison keeps it (R233). -/
def State.devAtomic (s : State) (who : Who) (a aop operand cmp : Nat) (bad : Bool) (f : Flips) : Nat × Bool × Bool × State :=
  let b := a - a % 8
  let s := s.foreignAccess who a
  match s.protHit b 8, s.absorbAt b with
  | some p, _ =>
    let s := if s.fencedAt b 8 then s.fencedEvent b a 1 else s
    (0, true, false, s.protEvent p who a)
  | none, some st => (0, true, false, s.sat (Reg.RING_ABS_WR st) 1)
  | none, none =>
    let r := s.rawRead who srcPart b 8 f
    let old := leNat r.1
    if r.2.1 ≠ 0 then (0, true, r.2.2.1, r.2.2.2)
    else
      let w := r.2.2.2.rawWrite who b (toLE 8 (atomNew aop old operand cmp)) (if bad then 1 else 0) []
      (old, !w.1, false, w.2.2)

/-- Serves a request and gives its answer (R228 to R233). -/
def State.serve (s : State) (r : MemReq) (f : Flips) : MemResp × State :=
  match r.kind with
  | .read =>
    let x := s.devRead r.src r.addr r.len f
    ({ dst := r.src, op := r.op, data := x.1, poison := x.2.1 }, x.2.2.2)
  | .write =>
    let x := s.devWrite r.src r.addr r.data r.poison f
    ({ dst := r.src, op := r.op, data := [], poison := if x.1 then 0 else 1 }, x.2.2)
  | .atom aop =>
    let x := s.devAtomic r.src r.addr aop (rdLE r.data 0 8) (rdLE r.data 8 8) (r.poison != 0) f
    ({ dst := r.src, op := r.op, data := toLE 8 x.1, poison := if x.2.1 then 1 else 0 }, x.2.2.2)

end Sys2Proof.Machine
end

