-- ==== Sys2Proof/Machine/Health.lean ====
section
/-! DEFINITION. The logical map, fences, the soft-repair record, and the suspect policy as shared
operations (spec/01_architecture.md R20 to R26; spec/12_self_test_repair_ageing.md R386 to R399;
spec/13_hangs_resets_recovery.md R428 to R432). -/

namespace Sys2Proof.Machine

/-! ### The soft-repair record (R387 to R389). -/

/-- The bytes of the record: header, entries and digest (R388). -/
def softBytes (r : SoftRec) : List Byte :=
  let b (x : Bool) (n : Nat) : Nat := if x then n else 0
  let body := toLE 4 0x4B535246 ++ toLE 2 1 ++ toLE 2 r.ents.length ++ toLE 4 r.boots ++ toLE 1 r.minL ++ toLE 1 r.maxFch ++
    List.replicate 18 0 ++
    r.ents.flatMap (fun e => toLE 2 e.unit ++ toLE 2 e.detail ++ toLE 1 e.recur ++ toLE 1 (b e.proposed 1 + b e.inService 2) ++
      toLE 2 e.boots)
  body ++ sha384 body

/-- Reads a record back; none where R389 ignores it. -/
def softParse (l : List Byte) : Option SoftRec :=
  let n := rdLE l 6 2
  let body := l.take (0x20 + 8 * n)
  let ent (i : Nat) : SoftEnt :=
    let o := 0x20 + 8 * i
    { unit := rdLE l o 2, detail := rdLE l (o + 2) 2, recur := rdLE l (o + 4) 1, proposed := bitOf (rdLE l (o + 5) 1) 0
      inService := bitOf (rdLE l (o + 5) 1) 1, boots := rdLE l (o + 6) 2 }
  let r : SoftRec := { boots := rdLE l 8 4, minL := rdLE l 12 1, maxFch := rdLE l 13 1, ents := (List.range n).map ent }
  if rdLE l 0 4 == 0x4B535246 && rdLE l 4 2 == 1 && decide (n ≤ 256) && sliceB l (0x20 + 8 * n) 48 == sha384 body &&
      decide (1 ≤ r.minL ∧ r.minL ≤ 16) && decide (r.maxFch ≤ 128) && leNat (sliceB l 14 18) == 0 &&
      (List.range n).all (fun i => rdLE l (0x20 + 8 * i + 2) 2 < 2 ^ 15 && rdLE l (0x20 + 8 * i + 5) 1 < 4) then some r
  else none

/-- The record is rewritten after a change (R389); FUSE_PROP_CNT counts its proposals. -/
def State.saveSoft (s : State) : State :=
  let r := s.hlth.soft
  (s.flashPut flSoft (softBytes r)).wr Reg.FUSE_PROP_CNT (r.ents.countP (·.proposed))

def State.setSoft (s : State) (r : SoftRec) : State := ({ s with hlth := { s.hlth with soft := r } } : State).saveSoft

def SoftRec.find (r : SoftRec) (unit detail : Nat) : Option SoftEnt :=
  r.ents.find? (fun e => e.unit == unit && e.detail == detail)

/-- A soft entry created in service (R387, R398); where 256 are held it is not recorded (R389). -/
def State.softCreate (s : State) (unit detail : Nat) : State :=
  let r := s.hlth.soft
  match r.find unit detail with
  | some _ => s
  | none =>
    if 256 ≤ r.ents.length then s.event 0x080B devUnit 2 [(16, 1, 2)]
    else s.setSoft { r with ents := r.ents ++ [{ unit := unit, detail := detail, recur := 0, proposed := false
                                                 inService := true, boots := r.boots % 65536 }] }

def State.softRemove (s : State) (unit detail : Nat) : State :=
  let r := s.hlth.soft
  match r.find unit detail with
  | none => s
  | some e => s.setSoft { r with ents := r.ents.erase e }

/-- A fuse marks the unit, or the detail of it, bad (R386, R390). -/
def State.fusedBad (s : State) (unit detail : Nat) : Bool :=
  (List.range 512).any (fun n => s.rbit (Reg.FUSE_MAP n) 15 && s.rf (Reg.FUSE_MAP n) 31 16 == unit &&
    s.rf (Reg.FUSE_MAP n) 14 0 == detail)

/-! ### The logical map (R20, R21, R25, R26). -/

def homeOf (q : Nat) : Nat := if q < 8 then q else q + 1
def posHome (ps : Nat) : Option Nat := if ps < 8 then some ps else if 9 ≤ ps ∧ ps ≤ 16 then some (ps - 1) else none
/-- The spare of the half of position `q`. -/
def spareOf (q : Nat) : Nat := if q < 8 then 8 else 17
def isSpare (ps : Nat) : Bool := ps == 8 || ps == 17

/-- In phase 3 or 4 of a rolling test, or under the tests of a return (R396, R398). -/
def State.underTest (s : State) (ps : Nat) : Bool :=
  (s.rf Reg.TEST_ROLL_ST 12 8 == ps && (s.rf Reg.TEST_ROLL_ST 2 0 == 3 || s.rf Reg.TEST_ROLL_ST 2 0 == 4)) ||
  s.hlth.returning.any (fun r => r.unit == unitId 0 ps)

/-- Kept out of the map: fenced, under test, or tested and waiting (R21, R393, R398). -/
def State.outOf (s : State) (ps : Nat) : Bool :=
  s.spnState ps == 6 || s.spnState ps == 5 || s.hlth.holding.contains ps || s.underTest ps

/-- Positions and their occupants in ascending order (R21). -/
def mapOf (out : Nat → Bool) : List (Nat × Nat) :=
  let half (h : Nat) : List (Nat × Nat) :=
    let qs := (List.range 8).map (8 * h + ·)
    let sp := if h = 0 then 8 else 17
    let first := qs.find? (fun q => out (homeOf q))
    qs.filterMap (fun q =>
      if !out (homeOf q) then some (q, homeOf q) else if !out sp && first == some q then some (q, sp) else none)
  half 0 ++ half 1

/-- What SKN_SPARE_ST shows of a spare. -/
def State.spareState (s : State) (m : List (Nat × Nat)) (ps : Nat) : Nat :=
  if m.any (fun x => x.2 == ps) then 1 else if s.spnState ps = 5 ∨ s.underTest ps = true then 2 else if s.spnState ps = 6 then 3 else 0

/-- The three map registers, L_COUNT and DG_SPIN (R25, R26, R36). -/
def State.writeMap (s : State) (m : List (Nat × Nat)) : State :=
  let s := (List.range 16).foldl (fun s l =>
    match m[l]? with
    | some x => s.wr (Reg.SKN_LMAP l) (2 ^ 16 + x.1 * 2 ^ 8 + x.2)
    | none => s.wr (Reg.SKN_LMAP l) 0) s
  let s := (List.range 16).foldl (fun s q =>
    match m.zipIdx.find? (fun x => x.1.1 == q) with
    | some x => s.wr (Reg.SKN_POS q) ((if isSpare x.1.2 then 2 ^ 17 else 0) + 2 ^ 16 + x.2 * 2 ^ 8 + x.1.2)
    | none => s.wr (Reg.SKN_POS q) 0) s
  let s := s.wr Reg.SKN_SPARE_ST (m.length * 2 ^ 8 + s.spareState m 17 * 4 + s.spareState m 8)
  let s := s.wf Reg.CMD_DEV_STATE 12 8 m.length
  s.setFlags (decide (m.length < 16)) s.dgPort s.dgChan s.margined

/-- The map is rebuilt (R21). -/
def State.rebuild (s : State) : State := s.writeMap (mapOf s.outOf)

def State.anyResident (s : State) : Bool := (List.range 16).any (fun n => (s.slotOf n).isSome)

/-- A spare is free (R25). -/
def State.spareFree (s : State) (sp : Nat) : Bool := (if sp = 8 then s.rf Reg.SKN_SPARE_ST 1 0 else s.rf Reg.SKN_SPARE_ST 3 2) == 0

/-- The running context uses logical index `l` and has not faulted. -/
def State.usesIndex (s : State) (l : Nat) : Bool :=
  match s.runningSlot with
  | some j => decide (l < j.lcount) && decide (j.st = .running)
  | none => false

/-! ### Fences (R28, R31, R392 to R399, R431). -/

/-- SPN registers and channel counters of a spindle at their reset values (R102, R113, R283). -/
def State.resetSpnRegs (s : State) (ps : Nat) : State :=
  let away (lo n a : Nat) : Bool := decide (a < lo) || decide (lo + n ≤ a)
  { s with regs := s.regs.filter (fun r => away (Reg.SPN_STATE ps) 0x100000 r.1 && away (Reg.CHN_OUT_ST ps 0) 0x400 r.1 &&
      away (Reg.CHN_IN_ST ps 0) 0x400 r.1) }

/-- A logic reset of a spindle: registers at their reset values but the numeric tables' revision, nothing held, SRAM not
kept (R72, R102, R407). -/
def State.wipeSpindle (s : State) (ps : Nat) : State :=
  let rev := s.rd (Reg.SPN_NUM_REV ps)
  (((s.resetSpnRegs ps).setSpn ps {}).clearKeys (sramKey ps 0) (sramKey ps 0 + 0x4000000)).wr (Reg.SPN_NUM_REV ps) rev

/-- A spindle comes out of a test or off the spare bench clean and IDLE, its tables loaded (R68, R102, R398). -/
def State.initSpindle (s : State) (ps : Nat) : State :=
  (((s.wipeSpindle ps).wr (Reg.SPN_NUM_REV ps) 1).setSpnState ps 0).syncStop ps

/-- A physical spindle becomes FENCED, and stays so past a reset in progress; the map follows. -/
def State.fenceNow (s : State) (ps : Nat) : State :=
  let keep (r : Reset) : Reset := if r.spins.contains ps then { r with fenced := ps :: r.fenced } else r
  let s : State := { s with rst := { s.rst with resets := s.rst.resets.map keep } }
  ((s.setSpnState ps 6).syncStop ps).rebuild

/-- A spindle is fenced by command or policy (R394, R399, R431): an index in use moves to a free spare at a
section boundary; with no free spare the running context faults and L falls (log 33). -/
def State.fenceSpindle (s : State) (ps : Nat) : State :=
  if s.spnState ps = 6 then s
  else
    let s := s.softCreate (unitId 0 ps) 0
    let roll := if s.rf Reg.TEST_ROLL_ST 12 8 = ps then s.rf Reg.TEST_ROLL_ST 2 0 else 0
    if s.hlth.moves.any (fun m => m.src == ps && m.why == .fence) then s
    else if 3 ≤ roll then
      -- the spindle under test: the test ends and the spare keeps the position
      let s : State := { s with hlth := { s.hlth with holding := s.hlth.holding.erase ps, moves := s.hlth.moves.filter (fun m => m.dst != ps) } }
      ((s.wr Reg.TEST_ROLL_ST (s.rf Reg.TEST_ROLL_ST 20 16 * 2 ^ 16)).wf (Reg.TEST_RESULT ps) 1 0 0).fenceNow ps
    else if 1 ≤ roll then
      -- its index is already on its way to the spare, which keeps it
      let s := s.wr Reg.TEST_ROLL_ST (s.rf Reg.TEST_ROLL_ST 20 16 * 2 ^ 16)
      { s with hlth := { s.hlth with moves := s.hlth.moves.map (fun m => if m.src = ps then { m with why := .fence } else m) } }
    else
      match s.logicalOf ps with
      | none => s.fenceNow ps
      | some l =>
        if s.usesIndex l then
          let sp := spareOf (s.posOf l)
          if isSpare ps = false ∧ s.spareFree sp then
            { s with hlth := { s.hlth with moves := s.hlth.moves ++ [{ logical := l, src := ps, dst := sp, why := .fence }] } }
          else
            let s := s.event 0x080C devUnit 2 [(16, 2, s.runCtx), (18, 1, s.lCount - 1)]
            (s.faultRunning 0x080C).fenceNow ps
        else s.fenceNow ps

/-- Channel fences, shown in DG_CHAN (R36, R242). -/
def State.syncDgChan (s : State) : State :=
  s.setFlags s.dgSpin s.dgPort ((List.range 132).any (fun ch => s.rf (Reg.MEM_CH_STAT ch) 2 0 == 4)) s.margined

/-- A channel is fenced (R242). -/
def State.fenceChan (s : State) (ch cause : Nat) : State :=
  if s.rf (Reg.MEM_CH_STAT ch) 2 0 = 4 then s
  else
    let s := (s.wf (Reg.MEM_CH_STAT ch) 2 0 4).wf (Reg.MEM_CH_CTL ch) 0 0 1
    (s.event 0x0207 (unitId 3 ch) 2 [(16, 1, cause)]).syncDgChan

/-- A management core is fenced: cleared in MGMT_CORE_ST.PRESENT and held in reset (R391, R477). -/
def State.fenceCore (s : State) (n : Nat) : State := (s.wf Reg.MGMT_CORE_ST n n 0).wf Reg.MGMT_CORE_ST (8 + n) (8 + n) 0

/-! ### Ageing changes (R402, R404). -/

/-- HLTH_PEND (R404). -/
def State.syncPend (s : State) : State :=
  let m := (List.range 24).foldl (fun a d => if (tget {} s.hlth.ages d).pend.isSome then a + 2 ^ d else a) 0
  s.wr Reg.HLTH_PEND (m + if s.hlth.fmaxPend.isSome then 2 ^ 25 else 0)

/-- A waiting raise takes effect and is kept in the calibration store (R402): event 0x0901. -/
def State.applyRaise (s : State) (d : Nat) : State :=
  let a := tget {} s.hlth.ages d
  match a.pend with
  | none => s
  | some v =>
    let old := s.rf (Reg.HLTH_AGE d) 7 0
    let s := { s with hlth := { s.hlth with ages := tset {} s.hlth.ages d { a with pend := none } } }
    ((s.wf (Reg.HLTH_AGE d) 7 0 v).syncPlan s.aMhz).saveAge.event 0x0901 (domUnit d) 1 [(16, 1, old), (17, 1, v)]

/-- A waiting step-down takes effect: event 0x0902, the clock plan capped at the new maximum. -/
def State.applyFmax (s : State) : State :=
  match s.hlth.fmaxPend with
  | none => s
  | some (f, d) =>
    let s := ({ s with hlth := { s.hlth with fmaxPend := none } } : State).wf Reg.HLTH_FMAX 9 0 f
    (s.event 0x0902 devUnit 1 [(16, 2, f), (18, 1, d)]).saveAge.askFreq 2 false

/-- Ageing changes apply at a device step advance, or at once with no context running; a TSTRICT one holds them
(R364, R404). -/
def State.applyAge (s : State) : State :=
  if s.tstrictRuns then s.syncPend else ((tkeys s.hlth.ages).foldl State.applyRaise s).applyFmax.syncPend

/-! ### The suspect policy (R428 to R432). -/

/-- What FENCE does for a reported unit (R428). -/
inductive FenceAct where
  | spindle (ps : Nat)
  | channel (ch : Nat)
  | half (h : Nat)
  | core (n : Nat)
  | domain (d : Nat)
  | reportOnly
  deriving DecidableEq, Repr

/-- The polder channels and spindles of a domain (R34, R428). -/
def chansOfDom (d : Nat) : List Nat := (List.range 128).filter (fun ch => 6 + ch / 32 == d || (if ch < 64 then 10 else 11) == d)

/-- The fence action, and whether it is more than a report. -/
def State.fenceAct (s : State) (a : FenceAct) : State × Bool :=
  match a with
  | .spindle ps => (s.fenceSpindle ps, true)
  | .channel ch => ((s.softCreate (unitId 3 ch) 0).fenceChan ch 4, true)
  | .half h => ((s.softCreate (s.halfUnit h) 0).disableHalf h, true)
  | .core n => ((s.softCreate (unitId 9 n) 0).fenceCore n, true)
  | .domain d =>
    let pss := psOfDom d
    let chs := chansOfDom d
    let s := pss.foldl (fun s ps => s.fenceSpindle ps) s
    (chs.foldl (fun s ch => (s.softCreate (unitId 3 ch) 0).fenceChan ch 4) s, !(pss.isEmpty && chs.isEmpty))
  | .reportOnly => (s, false)

/-- A margin raise of domain `d` is possible (R430). -/
def State.raiseOk (s : State) (d : Nat) : Bool :=
  decide (s.rf (Reg.RST_MARGIN d) 7 0 + 20 ≤ 60) && decide (s.planMv d s.aMhz + 20 ≤ maxMv d)

def State.setMargined (s : State) (m : Bool) : State := s.setFlags s.dgSpin s.dgPort s.dgChan m

/-- A report to the suspect policy: `key` tells units apart, `unit` is the unit ID of event 0x070B, `dom`
the domain MARGIN raises (R428 to R432). -/
def State.report (s : State) (key unit trigger : Nat) (dom : Option Nat) (act : FenceAct) : State :=
  let due := match tget none s.hlth.acted key with
    | none => true
    | some t => decide (100000000 ≤ (s.now - t).toNat)
  if !due then (s.sat Reg.RST_RPT 1).event 0x070B unit 1 [(16, 1, trigger), (17, 1, 0)]
  else
    let s := { s with hlth := { s.hlth with acted := tset none s.hlth.acted key (some s.now) } }
    let mode := s.rf Reg.RST_SPOL 1 0
    let margin := mode == 1 || (mode == 0 && decide (s.rf Reg.RST_SPOL 29 16 ≤ 64))
    let fence (s : State) : State :=
      let r := s.fenceAct act
      r.1.event 0x070B unit 1 [(16, 1, trigger), (17, 1, if r.2 then 3 else 4)]
    match dom with
    | none => fence s
    | some d =>
      if !margin then fence s
      else if s.raiseOk d then
        let s := s.wf (Reg.RST_MARGIN d) 7 0 (s.rf (Reg.RST_MARGIN d) 7 0 + 20)
        ((s.syncPlan s.aMhz).setMargined true).event 0x070B unit 1 [(16, 1, trigger), (17, 1, 1), (18, 2, d)]
      else if s.mstep = 0 ∧ 250 < s.fLimit then
        let s := ((s.wf Reg.RST_SPOL 2 2 1).setMargined true).askFreq 3 false
        s.event 0x070B unit 1 [(16, 1, trigger), (17, 1, 2), (18, 2, s.fLimit - 25)]
      else fence s

/-- Reports of R428 by unit. -/
def State.reportSpindle (s : State) (ps : Nat) : State := s.report (unitId 0 ps) (unitId 0 ps) 2 (some (domOfPs ps)) (.spindle ps)
def State.reportChan (s : State) (ch : Nat) : State :=
  let d := if ch < 64 ∨ ch = 128 ∨ ch = 129 then 10 else 11
  s.report (unitId 3 ch) (unitId 3 ch) 1 (some d) (if ch < 128 then .channel ch else .reportOnly)
def State.reportHalf (s : State) (h : Nat) : State := s.report (s.halfUnit h) (s.halfUnit h) 3 (some 23) (.half h)
def collUnit : Nat := 0x201B

/-- A reduction mismatch is the collective engine's, unit ID 0x201B (R336, R428). -/
def State.reportColl (s : State) : State := s.report 0x10000 collUnit 3 (some 22) .reportOnly
/-- The seam bundles have no unit ID of their own and are named by D22 (log 34). -/
def State.reportSeam (s : State) (k : Nat) : State := s.report (0x10001 + k) (domUnit 22) 4 (some 22) .reportOnly
def State.reportCore (s : State) (n : Nat) : State := s.report (unitId 9 n) (unitId 9 n) 2 (some 3) (.core n)
def State.reportShared (s : State) (d : Nat) : State := s.report (domUnit d) (domUnit d) 2 (some d) .reportOnly
def State.reportDomain (s : State) (d : Nat) : State := s.report (domUnit d) (domUnit d) 5 none (.domain d)

/-- Channel thresholds reached since the last look go to the policy (R241). -/
def State.chanReports (s : State) : State :=
  (tkeys s.chans).foldl (fun s ch =>
    let c := s.chan ch
    if c.report then (s.setChan ch { c with report := false }).reportChan ch else s) s

/-- The error count of seam bundle `k` rises: event 0x0432 once per second, and a report (R264). -/
def State.seamError (s : State) (k : Nat) : State :=
  let s := s.sat (if k = 4 then Reg.SEAM_MM_UE else Reg.SEAM_UE k) 1
  let key := 0x20000 + k
  let due := match tget none s.hlth.acted key with
    | none => true
    | some t => decide (100000000 ≤ (s.now - t).toNat)
  let s := if due then
      ({ s with hlth := { s.hlth with acted := tset none s.hlth.acted key (some s.now) } } : State).event 0x0432 devUnit 2 [(16, 1, k)]
    else s
  s.reportSeam k

/-- What a control message met on its way: corrected flits are counted, and an uncorrectable one discards the message
(R264, R268). -/
def State.ctlWay (s : State) (cls : Nat) (w : CtlWay) : State :=
  let s := (s.sat Reg.CNET_CE (w.ce + w.seamCe)).sat (Reg.SEAM_CE 2) w.seamCe
  match w.bad with
  | none => s
  | some n =>
    let s := (s.sat Reg.CNET_UE 1).event 0x0430 devUnit 2 [(16, 1, (n : Nat)), (17, 1, cls)]
    if w.atSeam then s.seamError 2 else s

/-- What data words met on the router links, bundle 3, or the management memory links, bundle 4 (R264). -/
def State.linkErrs (s : State) (k : Nat) (e : LinkErrs) : State :=
  let s := s.sat (if k = 4 then Reg.SEAM_MM_CE else Reg.SEAM_CE 3) e.ce
  (List.range 32).foldl (fun s i => if e.ue.toNat.testBit i then s.seamError k else s) s

end Sys2Proof.Machine
end

