-- ==== Sys2Proof/Machine/Cuard.lean ====
section
/-! DEFINITION. The Cuard serializer: packets, authentication, quorum, leases, the conflict window, replies
and final replies (spec/17_cuard_commands.md R512 to R532; spec/16_management_security.md R485, R494 to R507). -/

namespace Sys2Proof.Machine

/-- ASCII bytes of a literal. -/
def strB (x : String) : List Byte := x.toList.map (fun c => BitVec.ofNat 8 c.toNat)

/-! ### Keys (R494, R495, R500). -/

/-- The 32 bytes of the device secret. -/
def State.secretBytes (s : State) : List Byte := toBE 32 s.fuse.secret

/-- The private identity key (R495). -/
def State.idKey (s : State) : Nat :=
  beNat (hkdf384 (List.replicate 48 0) s.secretBytes (strB "KZY8 identity") 56) % (ecN - 1) + 1

/-- A public key in SEC1 uncompressed form, and whether 97 bytes are one. -/
def sec1 (p : Nat × Nat) : List Byte := 4 :: ecBytes p
def sec1Ok (l : List Byte) : Bool := rdLE l 0 1 == 4 && ecOnCurve (ecOfBytes (l.drop 1))

/-- DEV_ID as the registers show it. -/
def State.devId (s : State) : List Byte := s.digestAt Reg.SEC_DEV_ID

def State.ktState (s : State) : Nat := s.rf Reg.SEC_KT 25 24
def State.ktVer (s : State) : Nat := s.rf Reg.SEC_KT 23 16
def State.ktThr (s : State) : Nat := s.rf Reg.SEC_KT 15 8
def State.ktNum (s : State) : Nat := s.rf Reg.SEC_KT 3 0

/-- Key entry `k` of the table (R500). -/
def State.ktKey (s : State) (k : Nat) : List Byte := s.flashBytes (flKeys + 0x10 + 128 * k) 128
/-- Key `k` exists with right `n`: 0 SESSION, 1 EXPERT, 2 QUORUM, 3 DEBUG. -/
def State.keyHas (s : State) (k n : Nat) : Bool :=
  s.ktState == 1 && decide (k < s.ktNum) && bitOf (rdLE (s.ktKey k) 97 1) n
def State.keyPub (s : State) (k : Nat) : Nat × Nat := ecOfBytes ((s.ktKey k).drop 1)

/-- Signs with the identity key (R496). -/
def State.sign (s : State) (m : List Byte) : List Byte := ecdsaSign s.idKey (sha384 m)

/-- Extends measurement register `m` (R497). -/
def State.extend (s : State) (m : Nat) (d : List Byte) : State :=
  let v := sha384 (s.digestAt (Reg.SEC_MEAS m) ++ d)
  (List.range 12).foldl (fun s k => s.wr (Reg.SEC_MEAS m k) (rdLE v (4 * k) 4)) s

/-! ### Addresses (R485). -/

def State.softMac (s : State) : List Byte := toLE 4 (s.rd Reg.MGMT_MAC_LO) ++ toLE 2 (s.rf Reg.MGMT_MAC_HI 15 0)
def State.cuardMac (s : State) : List Byte :=
  s.softMac.take 3 ++ toBE 3 ((beNat (s.softMac.drop 3) + 1) % 2 ^ 24)

/-- The link-local address by modified EUI-64. -/
def linkLocal (mac : List Byte) : List Byte :=
  [0xFE, 0x80, 0, 0, 0, 0, 0, 0] ++ [(mac[0]?).getD 0 ^^^ 2] ++ (mac.drop 1).take 2 ++ [0xFF, 0xFE] ++ mac.drop 3

def State.cuardV6 (s : State) : List (List Byte) :=
  linkLocal s.cuardMac :: (match s.mgmt.v6 with
    | some a => [a]
    | none => [])
def State.cuardV4 (s : State) : List (List Byte) :=
  match s.mgmt.v4 with
  | some a => [a]
  | none => []

/-! ### Packet fields (R512, R513). -/

def pkFlag (b : List Byte) (n : Nat) : Bool := bitOf (rdLE b 1 1) n
def pkOp (b : List Byte) : Nat := rdLE b 2 2
def pkSeq (b : List Byte) : Nat := rdLE b 4 4
def pkSess (b : List Byte) : Nat := rdLE b 8 4
def pkLen (b : List Byte) : Nat := rdLE b 12 4
def pkLease (b : List Byte) : Nat := rdLE b 16 4
def pkNsig (b : List Byte) : Nat := rdLE b 22 1 % 16
/-- The parameters of a packet of the right length. -/
def pkParams (b : List Byte) : List Byte := (b.drop 32).take (pkLen b)
/-- What follows the parameters. -/
def pkTail (b : List Byte) : List Byte := b.drop (32 + pkLen b)
def pkSigs (b : List Byte) : List Byte := (pkTail b).drop (if pkFlag b 2 then 48 else 0)
/-- The header with STATUS zero, and the parameters: what the HMAC covers. -/
def pkCover (b : List Byte) : List Byte := patchB (b.take 32) 20 [0, 0] ++ pkParams b

/-- The length R513 gives from a header, none where the header breaks it. -/
def pkWant (b : List Byte) : Option Nat :=
  let n := pkNsig b
  if 4096 < pkLen b ∨ 8 < n ∨ (n ≠ 0) ≠ (pkFlag b 3 = true) then none
  else some (32 + pkLen b + (if pkFlag b 2 then 48 else 0) + 98 * n)

def pkLenOk (b : List Byte) : Bool := decide (32 ≤ b.length) && pkWant b == some b.length

/-- The opcodes of the catalogue (R533 to R545). -/
def opcodes : List Nat :=
  [0x0101, 0x0102, 0x0103, 0x0104, 0x0105, 0x0110, 0x0111, 0x0112, 0x0118, 0x0119, 0x011A, 0x011B, 0x011C, 0x0120, 0x0121,
   0x0122, 0x0123, 0x0124, 0x0201, 0x0202, 0x0203, 0x0204, 0x0301, 0x0302, 0x0303, 0x0304, 0x0305, 0x0306, 0x0307, 0x0308] ++
  [0x0401, 0x0402, 0x0403, 0x0404, 0x0405, 0x0406, 0x0407, 0x0408, 0x0501, 0x0502, 0x0503, 0x0601, 0x0602, 0x0603, 0x0604,
   0x0605, 0x0606, 0x0701, 0x0702, 0x0703, 0x0704, 0x0705, 0x0706, 0x0707, 0x0708, 0x0709, 0x070A, 0x070B, 0x070C, 0x070D] ++
  [0x070E, 0x070F, 0x0710, 0x0711, 0x0801, 0x0802, 0x0803, 0x0804, 0x0805, 0x0901, 0x0902, 0x0903, 0x0904, 0x0905, 0x0906,
   0x0907, 0x0A01, 0x0A02, 0x0B01, 0x0B02, 0x0B03, 0x0B04, 0x0C01, 0x0C02, 0x0C03]

/-! ### Status codes (R520). -/

def stOK : Nat := 0
def stACCEPTED : Nat := 1
def stBAD_OPCODE : Nat := 0x10
def stBAD_LENGTH : Nat := 0x11
def stOUT_OF_RANGE : Nat := 0x12
def stBAD_STATE : Nat := 0x13
def stNOT_OWNER : Nat := 0x20
def stLEASE_EXPIRED : Nat := 0x21
def stQUORUM_SHORT : Nat := 0x22
def stAUTH_FAIL : Nat := 0x23
def stEXPERT_LOCKED : Nat := 0x24
def stBUSY : Nat := 0x30
def stTIMEOUT : Nat := 0x31
def stSUPERSEDED : Nat := 0x32
def stHW_FAULT : Nat := 0x40
def stESCALATED : Nat := 0x41

/-- Checks 1 to 4 of R519, which need the packet alone; 0 where they pass. -/
def headStatus (b : List Byte) : Nat :=
  if rdLE b 0 1 ≠ 1 then stBAD_OPCODE
  else if 16 ≤ rdLE b 1 1 ∨ 16 ≤ rdLE b 22 1 ∨ rdLE b 23 9 ≠ 0 ∨ rdLE b 20 2 ≠ 0 then stOUT_OF_RANGE
  else if !pkLenOk b then stBAD_LENGTH
  else if !opcodes.contains (pkOp b) then stBAD_OPCODE
  else 0

/-! ### Sessions. -/

def State.sess (s : State) (id : Nat) : Option Sess := s.cq.sessions.find? (fun x => x.id == id)
def State.modSess (s : State) (id : Nat) (f : Sess → Sess) : State :=
  { s with cq := { s.cq with sessions := s.cq.sessions.map (fun x => if x.id = id then f x else x) } }

/-- Who a packet's reply goes to. -/
def repTo (r : Req) : RepTo :=
  { port := r.port, org := r.org, opcode := pkOp r.bytes, seq := pkSeq r.bytes, session := pkSess r.bytes
    lease := pkLease r.bytes, expert := pkFlag r.bytes 1, authed := false, key := 255 }

/-! ### Replies (R514, R515, R518). -/

/-- A UDP frame from a Cuard address to a request's source (R515). -/
def State.udpReply (s : State) (o : Origin) (pay : List Byte) : List Byte :=
  let u := udpOf o.own o.ip (s.rf Reg.MGMT_CUARD_UDP 15 0) o.sport pay
  if o.v6 then endFrame (o.mac ++ s.cuardMac ++ [0x86, 0xDD] ++ ip6Hdr o.own o.ip 0 u.length 17 ++ u)
  else endFrame (o.mac ++ s.cuardMac ++ [0x08, 0] ++ ip4Hdr o.own o.ip 0 u.length ++ u)

/-- Words of a packet, byte 0 lowest (R516). -/
def wordsOf (b : List Byte) : List Word :=
  (List.range ((b.length + 3) / 4)).map (fun i => BitVec.ofNat 32 (rdLE b (4 * i) 4))

/-- Sends a packet on the port it answers. -/
def State.sendOn (s : State) (t : RepTo) (b : List Byte) : State :=
  if t.port = 0 then s.send (.eth (s.udpReply t.org b))
  else if t.port = 1 then
    if 4 ≤ s.cq.replies.length then
      (((s.wf Reg.CMD_LCP_ST 2 2 1).sat Reg.CMD_LCP_DROP_CNT 1).event 0x0B03 devUnit 1 [(16, 1, 3), (17, 2, 0)])
    else ({ s with cq := { s.cq with replies := s.cq.replies ++ [wordsOf b] } } : State).raiseIrq 3
  else
    s.inject { type := 6, cls := 3, last := true, dcoord := t.org.coord, dep := t.org.ep, sep := 18, w7 := 1
               step := s.rd Reg.DET_STEP_LO, len := 4 + b.length, payload := [0x11, 0, 0, 0] ++ b }

/-- The bytes of a reply (R514). -/
def replyBytes (t : RepTo) (status lease : Nat) (params : List Byte) : List Byte :=
  let h := toLE 1 1 ++ toLE 1 (1 + (if t.expert then 2 else 0) + (if t.authed then 4 else 0)) ++ toLE 2 t.opcode ++
    toLE 4 t.seq ++ toLE 4 t.session ++ toLE 4 params.length ++ toLE 4 lease ++ toLE 2 status ++ toLE 10 0
  let body := h ++ params
  if t.authed then body ++ hmac384 t.repKey body else body

/-- The outcome of a session's command, kept for CMD_STATUS (R524). -/
def State.noteDone (s : State) (t : RepTo) (status : Nat) : State :=
  if t.authed then
    s.modSess t.session (fun x =>
      let l := x.done.filter (fun d => decide (d.seq ≠ t.seq)) ++ [{ seq := t.seq, opcode := t.opcode, status := status, tick := s.now }]
      { x with done := l.drop (l.length - 64) })
  else s

/-- Event 0x0B01, at most once per opcode and status in each window (R520). -/
def State.refusedEvent (s : State) (t : RepTo) (status : Nat) : State :=
  if status < 0x20 ∨ status = stAUTH_FAIL then s
  else
    let key := t.opcode * 65536 + status
    let due := match tget none s.cq.told key with
      | none => true
      | some w => decide (100000000 ≤ (s.now - w).toNat)
    if due then
      ({ s with cq := { s.cq with told := tset none s.cq.told key (some s.now) } } : State).event 0x0B01 devUnit 1
        [(16, 2, t.opcode), (18, 2, status), (20, 1, t.port), (21, 1, t.key)]
    else s

/-- Answers a command: counters, event, outcome kept, reply sent (R514, R520, R524).  A final OK after
ACCEPTED is the same command answered and is not counted again. -/
def State.answer (s : State) (t : RepTo) (isFinal : Bool) (status lease : Nat) (params : List Byte) : State :=
  let s := if status ≤ 1 then (if isFinal then s else s.sat Reg.CMD_ACCEPT_CNT 1) else s.sat Reg.CMD_REJECT_CNT 1
  let s := if status = stSUPERSEDED then s.sat Reg.CMD_SUPERSEDED_CNT 1 else s
  let s := (s.refusedEvent t status).noteDone t status
  s.sendOn t (replyBytes t status lease params)

/-- Ends the command that waits for `what` with its final reply (R524). -/
def State.finish (s : State) (what : WaitFor) (status : Nat) (params : List Byte) : State :=
  match s.cq.waits.find? (fun w => w.what == what) with
  | none => s
  | some w => ({ s with cq := { s.cq with waits := s.cq.waits.erase w } } : State).answer w.rep w.first status w.rep.lease params

/-- DIKE_SET ends once none of the half-ports it retrained is still in training (R540, R344). -/
def State.dikeDone (s : State) : State :=
  match s.cq.waits.findSome? (fun w => match w.what with
    | .dike m => some m
    | _ => none) with
  | some m => if (List.range 32).any (fun h => m.testBit h && s.portSt h == 1) then s else s.finish (.dike m) stOK []
  | none => s

/-! ### Arrival (R523, R524). -/

/-- The command processor takes commands: chip-level reset is released and its cores run (R493, R550). -/
def State.cuardUp (s : State) : Bool := !s.off && !s.rst.chipHeld && !s.cq.dead

/-- CMD_QUEUE.PEAK. -/
def State.peakQueue (s : State) : State := s.maxField Reg.CMD_QUEUE 14 8 s.cq.queue.length

/-- A packet reaches the serializer.  One no row can name, its VER or opcode unknown, is answered at once. -/
def State.arrive (s : State) (r : Req) : State :=
  if !s.cuardUp then s
  else if pkFlag r.bytes 0 then s.sat Reg.CMD_REJECT_CNT 1
  else if r.bytes.length < 32 ∨ rdLE r.bytes 0 1 ≠ 1 ∨ opcodes.contains (pkOp r.bytes) = false then
    s.answer (repTo r) false (headStatus r.bytes) (pkLease r.bytes) []
  else if 64 ≤ s.cq.queue.length then s.answer (repTo r) false stBUSY (pkLease r.bytes) []
  else ({ s with cq := { s.cq with queue := s.cq.queue ++ [r] } } : State).peakQueue

/-! ### Checks (R519). -/

/-- Access classes (R521). -/
inductive AccCls where
  | o | s | e | q | l
  deriving DecidableEq, Repr

/-- A failure of authentication: event 0x0A05, and the window of R507 for failures under R504 and R506. -/
def State.authFail (s : State) (kind key port : Nat) : State :=
  let s := (s.sat Reg.SEC_AUTH_FAIL 1).event 0x0A05 devUnit 1 [(16, 1, kind), (17, 1, key), (22, 1, port)]
  if 4 ≤ kind then s
  else if (s.now - s.cq.failAt).toNat < 100000000 then { s with cq := { s.cq with failN := s.cq.failN + 1 } }
  else { s with cq := { s.cq with failAt := s.now - BitVec.ofNat 64 (s.now.toNat % 100000000), failN := 1 } }

/-- Authentication under R506: the state with the SEQ taken, and none where it passes, or the kind of
event 0x0A05. -/
def State.authCheck (s : State) (r : Req) : Option Nat × State :=
  let b := r.bytes
  match s.sess (pkSess b) with
  | none => (some 2, s)
  | some x =>
    if x.active = false ∨ x.port ≠ r.port then (some 2, s)
    else if hmac384 x.reqKey (pkCover b) ≠ (pkTail b).take 48 then (some 2, s)
    else
      let q := pkSeq b
      if q = 0 ∨ x.seen.contains q ∨ q + 64 ≤ x.high then (some 3, s)
      else
        let hi := max x.high q
        (none, s.modSess x.id (fun x => { x with high := hi, last := s.now,
                                                 seen := (q :: x.seen).filter (fun v => decide (hi < v + 64)) }))

/-- The digest of what a quorum signature is over, which is a SHA-384 itself (R503; DEDUCED). -/
def State.quorumDigest (s : State) (b : List Byte) : List Byte :=
  sha384 (sha384 (strB "KZY8-QRM1" ++ s.devId ++ s.cq.nonce ++ pkCover b))

/-- Counts quorum signatures: the mask of counted key indices, events 0x0A05 for those that count zero
(R503). -/
def State.quorumCount (s : State) (port : Nat) (b : List Byte) : Nat × State :=
  let sigs := pkSigs b
  let d := s.quorumDigest b
  (List.range (pkNsig b)).foldl (fun (a : Nat × State) i =>
    let x := sliceB sigs (98 * i) 98
    let k := rdLE x 0 2
    if a.2.keyHas k 2 && ecdsaVerify (a.2.keyPub k) d (x.drop 2) then (a.1 ||| 2 ^ k, a.2)
    else (a.1, a.2.authFail 4 (k % 256) port)) (0, s)

/-- Ones in a mask. -/
def ones (m : Nat) : Nat := ((List.range 8).filter (fun i => m.testBit i)).length

/-- A new quorum nonce (R503). -/
def State.newNonce (s : State) : State :=
  let d := s.draw 32
  { d.2 with cq := { d.2.cq with nonce := toLE 32 d.1, nonceAt := d.2.now } }

/-- The nonce replaced where its 600 s have passed (R503). -/
def State.freshNonce (s : State) : State := if 60000000000 ≤ (s.now - s.cq.nonceAt).toNat then s.newNonce else s

/-- The lease on a resource, while its term runs (R526). -/
def State.leaseOf (s : State) (res : Nat) : Option Lease :=
  match tget none s.cq.leases res with
  | some l => if s.now < l.expiry then some l else none
  | none => none

/-- The lease check (R527, R528): 0, or the status.  A nonzero LEASE that is no current lease's ID has
ended. -/
def State.leaseStatus (s : State) (res : Option Nat) (id key : Nat) : Nat :=
  match res with
  | none => 0
  | some n =>
    if id ≠ 0 ∧ (List.range 4).all (fun k => (s.leaseOf k).all (fun l => l.id != id)) then stLEASE_EXPIRED
    else
      match s.leaseOf n with
      | none => if id = 0 then 0 else stNOT_OWNER
      | some l => if l.id = id ∧ l.key = key then 0 else stNOT_OWNER

/-- The device state permits the opcode (R531). -/
def State.permits (s : State) (code : Nat) : Bool :=
  let g := code / 256
  let st := s.devState
  if st = stBringup then g == 1 || g == 0xB || code == 0x0701
  else if st = stHalted then g == 1 || g == 0xB
  else if st = stWithdrawn then !(code == 0x0301 || code == 0x0303 || code == 0x0604 || code == 0x0803)
  else st == stService

/-- What a command's meaning sees. -/
structure Call where
  req : Req
  rep : RepTo
  p : List Byte
  deriving DecidableEq, Repr

/-- What a command's meaning gives: a status with reply parameters and the LEASE and SESSION of the reply, or what the
command waits for, whether A first, and its limit in reference ticks. -/
structure Out where
  s : State
  status : Nat := 0
  params : List Byte := []
  lease : Option Nat := none
  session : Option Nat := none
  wait : Option (WaitFor × Bool × Option Nat) := none

/-- A catalogue row: opcode, access class, lease resource, the parameter check, the targets of its items for the
conflict window, a lease check of its own, and the meaning (R532 to R545). -/
structure CmdDef where
  code : Nat
  acc : AccCls
  res : List Byte → Option Nat := fun _ => none
  check : State → List Byte → Nat := fun _ p => if p.isEmpty then 0 else stBAD_LENGTH
  item : List Byte → List Nat := fun _ => []
  lease : State → RepTo → Nat := fun _ _ => 0
  run : State → Call → Out

/-- Checks 5 to 8 of R519: a status, the reply's session facts, and the state. -/
def State.gate (s : State) (d : CmdDef) (r : Req) : Nat × RepTo × State :=
  let b := r.bytes
  let t := repTo r
  let key := match s.sess (pkSess b) with
    | some x => x.key
    | none => 255
  let need := d.acc == .s || d.acc == .e
  let a : Option Nat × State := if d.acc = .l then (none, s) else if pkFlag b 2 then s.authCheck r
    else if need then (some 2, s) else (none, s)
  match a.1 with
  | some kind => (stAUTH_FAIL, { t with key := key }, a.2.authFail kind key r.port)
  | none =>
    let authed := pkFlag b 2 && d.acc != .l
    let s := a.2
    let x := s.sess (pkSess b)
    let t : RepTo := { t with authed := authed, key := if authed then key else 255
                              repKey := (x.map Sess.repKey).getD [] }
    let expert := match s.sess (pkSess b) with
      | some x => authed && x.expert
      | none => false
    if !s.permits d.code || (d.acc == .l && r.port != 1) then (stBAD_STATE, t, s)
    else if (pkFlag b 1 && !expert) || (d.acc == .e && !pkFlag b 1) then (stEXPERT_LOCKED, t, s)
    else if d.acc = .q then
      if s.ktState ≠ 1 then (stQUORUM_SHORT, t, s)
      else
        let q := s.freshNonce.quorumCount r.port b
        if ones q.1 < s.ktThr then (stQUORUM_SHORT, t, q.2)
        else (0, t, (q.2.newNonce).event 0x0A06 devUnit 1 [(16, 2, d.code), (18, 1, q.1)])
    else (0, t, s)

/-- The remembered change that a command meets (R530). -/
def State.meets (s : State) (d : CmdDef) (r : Req) (t : RepTo) : Option Remember :=
  s.cq.memory.find? (fun m => m.opcode == d.code && (d.item (pkParams r.bytes)).contains m.target && m.session != t.session &&
    decide ((r.arrival - m.arrival).toNat < s.rd Reg.CMD_CONFLICT))

/-- Remembers an accepted change (R530). -/
def State.remember (s : State) (d : CmdDef) (r : Req) (t : RepTo) (reply : List Byte) : State :=
  let ns := d.item (pkParams r.bytes)
  if t.authed && !ns.isEmpty then
    let keep := s.cq.memory.filter (fun m => decide ((r.arrival - m.arrival).toNat < s.rd Reg.CMD_CONFLICT) &&
      !(m.opcode == d.code && ns.contains m.target && m.session == t.session))
    let new (n : Nat) : Remember := { session := t.session, opcode := d.code, target := n, params := pkParams r.bytes
                                      arrival := r.arrival, reply := reply }
    { s with cq := { s.cq with memory := keep ++ ns.map new } }
  else s

/-- A first command runs on the resource (R524). -/
def State.resBusy (s : State) (res : Option Nat) : Bool := res.isSome && s.cq.waits.any (fun w => w.first && w.res == res)

/-- The answer a meaning gave, or the wait it began. -/
def State.conclude (d : CmdDef) (r : Req) (t : RepTo) (o : Out) : State :=
  match o.wait with
  | some w =>
    let s := o.s.remember d r t []
    let e : Wait := { what := w.1, rep := t, first := w.2.1, res := d.res (pkParams r.bytes), start := s.now, limit := w.2.2 }
    let s := { s with cq := { s.cq with waits := s.cq.waits ++ [e] } }
    if w.2.1 then s.answer t false stACCEPTED (pkLease r.bytes) o.params else s
  | none =>
    let s := if o.status ≤ 1 then o.s.remember d r t o.params else o.s
    s.answer { t with session := o.session.getD t.session } false o.status (o.lease.getD (pkLease r.bytes)) (if o.status ≤ 1 then o.params else [])

/-- A command leaves the queue, is checked, executed and answered (R519, R524). -/
def State.runCmd (s : State) (d : CmdDef) (r : Req) : State :=
  let b := r.bytes
  let t := repTo r
  let lease := pkLease b
  if s.rd Reg.CMD_QTMO < (s.now - r.arrival).toNat then
    (s.event 0x0B04 devUnit 1 [(16, 2, d.code), (18, 1, 1), (19, 1, r.port)]).answer t false stTIMEOUT lease []
  else if headStatus b ≠ 0 then s.answer t false (headStatus b) lease []
  else
    let g := s.gate d r
    let t := g.2.1
    let s := g.2.2
    if g.1 ≠ 0 then s.answer { t with authed := t.authed && g.1 != stAUTH_FAIL } false g.1 lease []
    else
      let p := pkParams b
      let ls := if d.acc = .s ∨ d.acc = .e then s.leaseStatus (d.res p) lease t.key else 0
      let ls := if ls = 0 then d.lease s t else ls
      let c := d.check s p
      if ls ≠ 0 then s.answer t false ls lease []
      else if c ≠ 0 then s.answer t false c lease []
      else
        match s.meets d r t with
        | some m =>
          if m.params = p then s.answer t false stOK lease m.reply else s.answer t false stSUPERSEDED lease []
        | none =>
          if s.resBusy (d.res p) then s.answer t false stBUSY lease []
          else State.conclude d r t (d.run s { req := r, rep := t, p := p })

/-- A command that has started holds the serializer until it ends (R524). -/
def State.blocked (s : State) : Bool := s.cq.waits.any (fun w => !w.first)

/-- The packet is a request of opcode `code`: a whole header of version 1 without the reply flag (R514). -/
def reqIs (code : Nat) (r : Req) : Bool :=
  pkOp r.bytes == code && decide (32 ≤ r.bytes.length) && rdLE r.bytes 0 1 == 1 && !pkFlag r.bytes 0

/-- A catalogue command: it arrives where it has not, and starts once it is at the head of the queue and
nothing that must end first still runs (R523, R524).  A packet of another opcode is no such command. -/
def State.cuard (s : State) (d : CmdDef) (r : Req) : Res :=
  if !reqIs d.code r then .refused .illFormed
  else if !s.cuardUp then .next s
  else
    let s := if s.cq.queue.contains r then s else s.arrive r
    match s.cq.queue with
    | q :: rest =>
      if q = r ∧ s.blocked = false then .next (({ s with cq := { s.cq with queue := rest } } : State).runCmd d r) else .next s
    | [] => .next s

/-! ### Parameter helpers. -/

/-- A parameter check: the length, then a range condition. -/
def pCheck (len : Nat) (ok : List Byte → Bool) (_ : State) (p : List Byte) : Nat :=
  if p.length ≠ len then stBAD_LENGTH else if ok p then 0 else stOUT_OF_RANGE

/-- An a8 parameter: bits [63:40] reserved. -/
def a8Ok (p : List Byte) (o : Nat) : Bool := decide (rdLE p o 8 < 2 ^ 40)

def rDevice (_ : List Byte) : Option Nat := some 0
def rContexts (_ : List Byte) : Option Nat := some 1
def rFabric (_ : List Byte) : Option Nat := some 2
def rHealth (_ : List Byte) : Option Nat := some 3
/-- The one item of a command that names no target. -/
def noTarget (_ : List Byte) : List Nat := [0]

/-- A session closes (R507, R508): event 0x0A04, and debug relocks where it had unlocked it. -/
def State.relock (s : State) (key : Nat) : State :=
  if s.rbit Reg.SEC_DBG 2 then
    (({ s with cq := { s.cq with dbg := none } } : State).wf Reg.SEC_DBG 2 2 0).event 0x0A0A devUnit 1 [(16, 1, 0), (17, 1, key)]
  else s

def State.closeSess (s : State) (id cause : Nat) : State :=
  match s.sess id with
  | none => s
  | some x =>
    let s := { s with cq := { s.cq with sessions := s.cq.sessions.filter (fun y => decide (y.id ≠ id)) } }
    let s := s.event 0x0A04 devUnit 1 [(16, 4, id), (20, 1, cause)]
    if s.cq.dbg = some id then s.relock x.key else s

/-- A lease ends (R526, R529): event 0x0B02. -/
def State.endLease (s : State) (res kind newKey : Nat) : State :=
  match tget none s.cq.leases res with
  | none => s
  | some l => ({ s with cq := { s.cq with leases := tset none s.cq.leases res none } } : State).event 0x0B02 devUnit 1
      [(16, 1, res), (17, 1, kind), (18, 1, newKey), (19, 1, l.key)]

end Sys2Proof.Machine
end

