-- ==== Sys2Proof/Machine/Clocks.lean ====
section
/-! DEFINITION. Commands of the reference, the A-clock, droop, power and thermal limits
(spec/15_clocks_power.md R453 to R475; spec/11_determinism.md R361 to R366). -/

namespace Sys2Proof.Machine

/-! ### References (R456 to R458). -/

/-- REFCLK_LOST (R457): `kind` 1 no edge, 2 frequency, 3 absent at start. -/
def execRefclkLost (kind : Fin 4) (s : State) : Res :=
  if s.rf Reg.CLK_ST 3 2 = 0 then
    let s := ((s.wf Reg.CLK_ST 3 2 1).wf Reg.CLK_ST 0 0 0).sat Reg.CLK_REFLOSS_CNT 1
    let s := (s.wf Reg.CLK_REDUCE 20 20 1).askFreq 7 true
    .next (s.event 0x0103 devUnit 2 [(16, 1, kind)])
  else .next s

/-- Steps the safe clock has to give back once holdover is no longer selected (R464). -/
def State.safeSteps (s : State) : Nat := (s.fLimit - 25 * (s.mstep + s.therm + s.powerSteps + s.droop) - 250) / 25

/-- REFCLK_RESTORED (R457): the multiplexer switches back and the A-clock steps up from 250 MHz. -/
def execRefclkRestored (s : State) : Res :=
  if s.rf Reg.CLK_ST 3 2 = 0 then .next (s.wf Reg.CLK_ST 0 0 1)
  else
    let s := if s.rf Reg.CLK_ST 3 2 = 2 then { s with pwr := { s.pwr with alert := decide (s.devState = stHalted) } } else s
    let s := ((s.wf Reg.CLK_ST 3 2 0).wf Reg.CLK_ST 0 0 1).wf Reg.CLK_REDUCE 20 20 0
    let s := ({ s with clk := { s.clk with missing := s.safeSteps, stepAt := s.now } } : State).syncClk
    .next (s.event 0x0104 devUnit 1 [])

/-- REF_BOTH_LOST (R458). -/
def execRefBothLost (s : State) : Res :=
  let old := s.rf Reg.CLK_ST 3 2
  if old = 2 then .next s
  else
    let s := ((s.wf Reg.CLK_ST 3 2 2).wf Reg.CLK_ST 0 0 0).wf Reg.CLK_ST 1 1 0
    let s := if s.rbit Reg.CLK_REDUCE 20 then s else (s.wf Reg.CLK_REDUCE 20 20 1).askFreq 7 true
    .next ((s.event 0x0105 devUnit 3 [(16, 1, old)]).alertOn)

/-- HOLDOVER_LOST (R456): holdover out of tolerance while REFCLK is selected. -/
def execHoldoverLost (s : State) : Res :=
  if s.rf Reg.CLK_ST 3 2 = 0 then .next (s.wf Reg.CLK_ST 1 1 0) else .next s

/-! ### Changes of F (R460 to R462). -/

/-- A change that a command asks for, or after which F has its value: the command that waits is answered (R460, R462). -/
def State.freqSettles (s : State) (r : FreqReq) : Bool := r.cause == 1 || r.cause == 3 || s.effF == s.aMhz

/-- A change of F ends for the command that asked for it (R460, R534). -/
def State.freqDone (s : State) (status : Nat) : State :=
  match s.cq.waits.find? (fun w => w.what == WaitFor.freq) with
  | none => s
  | some w => s.finish .freq status (if w.rep.opcode = 0x0201 ∧ status = 0 then toLE 2 s.aMhz else [])

/-- FREQ_CHANGE_REQUEST (R460 steps 1 and 2): the oldest request starts; nothing starts where F stays. -/
def execFreqChangeRequest (s : State) : Res :=
  match s.clk.change, s.clk.reqs with
  | none, r :: rest =>
    let f := s.effF
    let old := s.aMhz
    if f = old then .next ((({ s with clk := { s.clk with reqs := rest } } : State).syncPlan old).syncClk.freqDone 0)
    else
      let c : FreqChange := { step := 1, old := old, new := f, target := 0, req := r, start := s.now }
      let s := ({ s with clk := { s.clk with reqs := rest, change := some c } } : State).syncClk
      .next (if old < f then s.syncPlan f else s)
  | _, _ => .next s

/-- The frequency-change message (R461). -/
def FreqChange.msg (c : FreqChange) : CtlMsg :=
  { cls := 0, dst := 63, src := 34, words := [2 ^ 40 + c.new * 2 ^ 30, c.target.toNat] }

/-- FREQ_CHANGE_BROADCAST (R460 step 3, R461): the idle PLL has locked.  The broadcast's latency, at most 24
C-clocks (R267), is a free value (log 6).  A node that finds it uncorrectable discards it (R268); once it has left, the change
completes (R462). -/
def execFreqChangeBroadcast (s : State) (w : CtlWay := { ce := 0, seamCe := 0, bad := none, atSeam := false }) : Res :=
  match s.clk.change with
  | some c =>
    if c.step = 1 then
      let t := s.rd64 Reg.CLK_ATICK_LO + (if c.req.isForced then 64 else 256)
      let c := { c with step := 3, target := BitVec.ofNat 64 t }
      let s := (({ s with clk := { s.clk with change := some c } } : State)).ctlWay 0 w
      let b := s.free
      let s := b.2.maxField Reg.CNET_STAT 7 0 (b.1 % 25)
      .next ((s.wr64 Reg.CLK_FTGT_LO t).send (.ctl c.msg))
    else .next s
  | none => .next s

/-- FREQ_SWITCH (R460 steps 4 to 6): A-tick T has come, which every node of the broadcast knew in time (R265, R267). -/
def execFreqSwitch (s : State) : Res :=
  match s.clk.change with
  | some c =>
    if c.step = 3 ∧ c.target.toNat ≤ s.rd64 Reg.CLK_ATICK_LO then
      let s := s.take (.ctl c.msg)
      let falls := decide (c.new < c.old)
      let s := ((s.wf Reg.CLK_ST 25 16 c.new).wf Reg.CLK_ST 6 6 (1 - s.rf Reg.CLK_ST 6 6)).wr64 Reg.CLK_FTGT_LO 0
      let s := { s with clk := { s.clk with change := if falls then some { c with step := 5, start := s.now } else none } }
      let s := (if falls then s.syncPlan c.new else s).syncClk
      let s := (s.sat Reg.CLK_FCHG_CNT 1).loseAlign 2
      let s := s.event 0x0101 devUnit 1 [(16, 2, c.old), (18, 2, c.new), (20, 1, c.req.cause)]
      let s := (s.modRun (fun r => { r with fchg := min (r.fchg + 1) 0xFFFFFFFF })).voidTime 2
      .next (if falls then s else if s.freqSettles c.req then s.freqDone 0 else s)
    else .next s
  | none => .next s

/-- FREQ_VOLTAGE_SETTLED (R460 step 5). -/
def execFreqVoltageSettled (s : State) : Res :=
  match s.clk.change with
  | some c =>
    if c.step = 5 then
      let s := ({ s with clk := { s.clk with change := none } } : State).syncClk
      .next (if s.freqSettles c.req then s.freqDone 0 else s)
    else .next s
  | none => .next s

/-- PLL_LOCK_TIMEOUT (R460): the idle PLL has not locked within 200 µs; the change is abandoned. -/
def execPllLockTimeout (s : State) : Res :=
  match s.clk.change with
  | some c =>
    if c.step = 1 ∧ 20000 ≤ (s.now - c.start).toNat then
      let s := (({ s with clk := { s.clk with change := none } } : State).syncPlan c.old).syncClk
      let s := s.event 0x0108 devUnit 2 [(16, 2, c.new)]
      .next (if c.req.cause = 1 ∨ c.req.cause = 3 ∨ s.clk.reqs = [] then s.freqDone stHW_FAULT else s)
    else .next s
  | none => .next s

/-! ### Droop (R463, R464). -/

/-- One stretch counted in the window of R464; above CLK_DROOP_CTL.MAX, once per window, DROOP rises. -/
def State.droopCount (s : State) : State :=
  let w : DWord × Nat := match s.clk.droopWin with
    | some (t, n) => if (s.now - t).toNat < 100000 then (t, n + 1) else (s.now, 1)
    | none => (s.now, 1)
  let s := { s with clk := { s.clk with droopWin := some w } }
  if w.2 = s.rf Reg.CLK_DROOP_CTL 31 16 + 1 ∧ s.droop < 4 then (s.wf Reg.CLK_REDUCE 19 16 (s.droop + 1)).askFreq 6 true else s

/-- The window of stretches closes once its 100,000,000 ticks are over, with event 0x0102 (R463). -/
def State.closeStretch (s : State) : State :=
  match s.clk.window with
  | some (t, n, g) =>
    if 100000000 ≤ (s.now - t).toNat then
      ({ s with clk := { s.clk with window := none } } : State).event 0x0102 devUnit 1 [(16, 4, n), (20, 1, g)]
    else s
  | none => s

/-- DROOP_DETECT (R463, R464): a detection in region `r` stretches the next unstretched period from t + 2. -/
def execDroopDetect (r : Fin 30) (s : State) : Res :=
  let s := s.closeStretch
  let p := max (s.rd64 Reg.CLK_ATICK_LO + 2) (s.clk.lastPeriod.toNat + 1)
  let win := match s.clk.window with
    | some (t, n, g) => (t, n + 1, g)
    | none => (s.now, 1, (r : Nat))
  let s := { s with clk := { s.clk with lastPeriod := BitVec.ofNat 64 p, stretched := s.clk.stretched ++ [p], window := some win, droopAt := s.now, lastStretch := s.now } }
  let s := ((s.sat Reg.CLK_STRETCH_CNT 1).sat (Reg.CLK_DROOP r) 1).loseAlign 1
  let s := (s.modRun (fun x => { x with stretch := min (x.stretch + 1) 0xFFFFFFFF })).voidTime 1
  .next s.droopCount

/-- STRETCH_WINDOW_END (R463). -/
def execStretchWindowEnd (s : State) : Res := .next s.closeStretch

/-- DROOP_RETURN (R464). -/
def execDroopReturn (s : State) : Res :=
  if 0 < s.droop ∧ 100000000 ≤ (s.now - s.clk.droopAt).toNat then
    let s := { s with clk := { s.clk with droopAt := s.now } }
    .next ((s.wf Reg.CLK_REDUCE 19 16 (s.droop - 1)).askFreq 8 false)
  else .next s

/-- SAFE_CLOCK_STEP_UP (R464). -/
def execSafeClockStepUp (s : State) : Res :=
  if 0 < s.clk.missing ∧ 1000000 ≤ (s.now - s.clk.stepAt).toNat then
    .next (({ s with clk := { s.clk with missing := s.clk.missing - 1, stepAt := s.now } } : State).askFreq 8 false)
  else .next s

/-! ### Power cap (R471, R472). -/

def State.effCap (s : State) : Nat := s.rf Reg.PWR_CAP 31 16

/-- POWER_AVG_1MS (R470, R472): the input power averaged over the last millisecond. -/
def execPowerAvg1ms (watts : BitVec 16) (s : State) : Res :=
  let w := watts.toNat
  let s := (s.wf Reg.PWR_IN 15 0 w)
  let s := { s with pwr := { s.pwr with capSum := s.pwr.capSum + w, capN := s.pwr.capN + 1 } }
  if 11 * s.effCap < 10 * w then
    let s := s.event 0x0107 devUnit 1 [(16, 1, 2), (17, 2, w)]
    let s := { s with pwr := { s.pwr with capSince := 0 } }
    .next ((s.wf Reg.CLK_REDUCE 15 8 (min 18 (s.powerSteps + 1))).askFreq 4 true)
  else .next s

/-- CAP_WINDOW_END (R472): a window of 1,000,000 reference ticks ends. -/
def execCapWindowEnd (s : State) : Res :=
  if 1000000 ≤ (s.now - s.pwr.capAt).toNat then
    let sum := s.pwr.capSum
    let n := s.pwr.capN
    let s := { s with pwr := { s.pwr with capAt := s.pwr.capAt + 1000000, capSum := 0, capN := 0 } }
    if n * s.effCap < sum then
      let s := (s.event 0x0107 devUnit 1 [(16, 1, 1), (17, 2, sum / n)]).sat Reg.PWR_OVER_CNT 1
      let s := { s with pwr := { s.pwr with capSince := 0 } }
      .next ((s.wf Reg.CLK_REDUCE 15 8 (min 18 (s.powerSteps + 1))).askFreq 4 false)
    else if 10 * sum < 9 * s.effCap * n ∧ 0 < s.powerSteps then
      if 100 ≤ s.pwr.capSince + 1 then
        let s := { s with pwr := { s.pwr with capSince := 0 } }
        .next ((s.wf Reg.CLK_REDUCE 15 8 (s.powerSteps - 1)).askFreq 8 false)
      else .next { s with pwr := { s.pwr with capSince := s.pwr.capSince + 1 } }
    else .next s
  else .next s

/-! ### Temperature (R470, R473). -/

/-- The middle of up to three readings. -/
def medianOf (l : List Int) : Int := ((l.mergeSort (fun a b => decide (a ≤ b)))[l.length / 2]?).getD 0

/-- The last three readings with a new one. -/
def lastThree (l : List Int) (t : Int) : List Int := (l ++ [t]).drop ((l ++ [t]).length - 3)

/-- JUNCTION_SENSOR_READ (R470, R473): the raw readings of regions 0 to 45, in °C. -/
def execJunctionSensorRead (raw : List Int) (s : State) : Res :=
  let s := (raw.take 46).zipIdx.foldl (fun s x =>
    let bad := decide (x.1 < -40 ∨ 150 < x.1)
    let s := if bad then s.event 0x010B (unitId 10 x.2) 1 [(16, 2, unsext 16 x.1)] else s
    let l := lastThree (tget [] s.pwr.tj x.2) (if bad then 105 else x.1)
    let s := { s with pwr := { s.pwr with tj := tset [] s.pwr.tj x.2 l } }
    let b := s.tempByte (medianOf l)
    b.2.wf (Reg.PWR_TEMP x.2) 7 0 b.1) s
  let meds := s.pwr.tj.map (fun p => (p.1, medianOf p.2))
  match meds with
  | [] => .next s
  | m :: r =>
    let hot := r.foldl (fun a b => if a.2 < b.2 then b else a) m
    let b := s.tempByte hot.2
    let s := (b.2.wf Reg.PWR_TJ 7 0 b.1).wf Reg.PWR_TJ 15 8 hot.1
    .next (s.thermal hot.2 hot.1 (s.rf Reg.PWR_TJ 23 16) 0)

/-- THERM_STEP_TIMER (R473): THERM rises again while a level holds, or falls after the cool period. -/
def execThermStepTimer (s : State) : Res :=
  if 1 ≤ s.rf Reg.PWR_THROT 2 0 then
    if 100000 ≤ (s.now - s.pwr.thermAt).toNat ∧ s.therm < 18 then
      let s := { s with pwr := { s.pwr with thermAt := s.now } }
      .next ((s.wf Reg.CLK_REDUCE 7 0 (s.therm + 1)).askFreq 5 true)
    else .next s
  else
    match s.pwr.coolAt with
    | some t =>
      if 10000000 ≤ (s.now - t).toNat ∧ 0 < s.therm then
        let s := { s with pwr := { s.pwr with coolAt := some s.now } }
        .next ((s.wf Reg.CLK_REDUCE 7 0 (s.therm - 1)).askFreq 8 false)
      else .next s
    | none => .next s

/-! ### Domains (R466, R469, R470). -/

/-- DOMAIN_REGULATION_FAULT (R466). -/
def execDomainRegulationFault (d : Fin 24) (s : State) : Res :=
  if s.domOn d then .next ((s.event 0x0109 (domUnit d) 1 [(16, 1, 4)]).reportDomain d) else .next s

/-- A spindle domain switched off or on (R469): refused unless every spindle it supplies is FENCED.  What
the spindles held is lost, and they stay FENCED. -/
def State.gateDomain (s : State) (d : Nat) (off : Bool) : Bool × State :=
  let pss := psOfDom d
  if off = s.rbit Reg.PWR_GATE d then (true, s)
  else if off then
    if pss.all (fun ps => s.spnState ps == 6) then
      let s := pss.foldl (fun s ps => ((s.setSpn ps {}).clearKeys (sramKey ps 0) (sramKey ps 0x3000000))) s
      let s := (s.setDom d false).wf Reg.PWR_GATE d d 1
      let s := pss.foldl (fun s ps => s.syncStop ps) s
      (true, s.event 0x0109 (domUnit d) 1 [(16, 1, 1)])
    else (false, s)
  else
    let s := (s.setDom d true).wf Reg.PWR_GATE d d 0
    let s := pss.foldl (fun s ps => ((s.resetSpnRegs ps).setSpnState ps 6).syncStop ps) s
    (true, s.event 0x0109 (domUnit d) 1 [(16, 1, 2)])

/-- PWR_GATE written, bit by bit; a bit whose switch is refused stays (R469). -/
def State.writeGate (s : State) (v : Nat) : State :=
  (List.range 10).foldl (fun s i => (s.gateDomain (12 + i) (v.testBit (12 + i))).2) s

/-- PWR_GATE_WRITE (R469). -/
def execPwrGateWrite (v : Word) (s : State) : Res := .next (s.writeGate v.toNat)

/-- TELEMETRY_REFRESH (R470): the I3C window's copies, with the domain voltages in mV and currents in
100 mA units measured since (log 35). -/
def execTelemetryRefresh (meas : List (Nat × Nat × Nat)) (s : State) : Res :=
  if s.domOn 0 then
    let s := meas.foldl (fun s m => if m.1 < 24 then (s.wf (Reg.PWR_DOM_V m.1) 15 0 m.2.1).wf (Reg.PWR_DOM_I m.1) 15 0 m.2.2 else s) s
    .next { s with pwr := { s.pwr with
      copyNo := s.pwr.copyNo + 1
      copies := [s.reg Reg.CMD_DEV_STATE, s.reg Reg.CLK_ST, s.reg Reg.PWR_ST, s.reg Reg.PWR_IN, s.reg Reg.PWR_TJ, s.reg Reg.PWR_THROT] } }
  else .next s

end Sys2Proof.Machine
end

