-- ==== Sys2Proof/Machine/Units.lean ====
section
/-! DEFINITION. What the units of a spindle share (spec/03_spindle.md R73 to R85, spec/04_skein.md R133,
R138 to R146): unit kinds, slot fields, tags, tokens, flit building, and the result of one fire. -/

namespace Sys2Proof.Machine

/-- The kind of unit a unit number names (R73). -/
inductive UnitKind where
  | tile | vec | sfu | steer | seq | dsp | mem | sluice
  deriving DecidableEq, Repr

def unitKind (u : Nat) : Option UnitKind :=
  if u < 16 then some .tile
  else if u < 24 then some .vec
  else if u < 28 then some .sfu
  else if u < 32 then some .steer
  else if u < 34 then some .seq
  else if u = 34 then some .dsp
  else if u < 51 then some .mem
  else if u < 55 then some .sluice
  else none

/-- The switch point a unit attaches at (R121). -/
def switchPoint (u : Nat) : Nat :=
  match unitKind u with
  | some .tile => u
  | some .mem => u - 19
  | some .vec => u + 16
  | some .sfu => u + 16
  | some .seq => u + 12
  | some .dsp => 46
  | some .steer => u + 20
  | some .sluice => u - 3
  | none => 63

/-- What every fire reads beside the spindle (R70, R134, R135, R358). -/
structure UCtx where
  ps : Nat
  logical : Nat
  coord : Nat
  sat : Bool
  step : DWord
  seed : DWord
  now : DWord
  deriving DecidableEq, Repr

/-- What one fire gives: the spindle, the flits that will leave (port, latency, flit), the latency of
an update with no output, numeric flags, how many poisoned results, a context fault with its data
bytes from byte 16, notices, counts added to registers of the SPN block, and reserved-stream RNG
requests (R359). -/
structure URes where
  sp : Spn
  outs : List (Nat × Nat × Flit) := []
  upd : Option Nat := none
  flags : Nat := 0
  npoi : Nat := 0
  fault : Option (Nat × List Byte) := none
  notes : List (Nat × List Byte) := []
  cnts : List (Nat × Nat) := []
  rsv : Nat := 0
  deriving DecidableEq, Repr

/-- A fire that only faults the context. -/
def uFault (sp : Spn) (code : Nat) (bytes : List Nat) : URes :=
  { sp := sp, fault := some (code, bytes.map (BitVec.ofNat 8)) }

/-- The iteration index of the innermost enclosing loop, 0 outside any loop (R133). -/
def innerIter (sp : Spn) : Nat :=
  match sp.loops with
  | [] => 0
  | l :: _ => l.iter.toNat

/-- iter[d] of R133; the loop list is innermost first. -/
def iterAt (sp : Spn) (d : Nat) : Nat :=
  match sp.loops.reverse[d]? with
  | some l => l.iter.toNat
  | none => 0

/-- The tag a 9-bit tag field names (R133). -/
def tagOf (sp : Spn) (f : Nat) : BitVec 8 :=
  if f.testBit 8 then BitVec.ofNat 8 (f + innerIter sp) else BitVec.ofNat 8 f

/-- The token on a port under a tag, stored or arriving in this cycle (R81, R82). -/
def findTok (toks : List StoreEnt) (u p : Nat) (t : BitVec 8) : Option Flit :=
  (toks.find? (fun e => e.unit == u && e.port == p && e.flit.tag == t)).map (·.flit)

/-- The store without the tokens a fire consumed (R82). -/
def dropToks (toks : List StoreEnt) (u : Nat) (named : List (Nat × BitVec 8)) : List StoreEnt :=
  toks.filter (fun e => !(e.unit == u && named.any (fun n => n.1 == e.port && n.2 == e.flit.tag)))

/-! ### Operation numbers (R261, R317). -/

/-- The lowest number from `n` on that no operation of a spindle's table has as its entry, found within `k` tries. -/
def freeEntry (used : Nat → Bool) : Nat → Nat → Nat
  | 0, n => n
  | k + 1, n => if used n then freeEntry used k (n + 1) else n

/-- The kind takes an entry of the table of operations in flight: reads, writes, atomics, WATCH and SEND (R261). -/
def OpKind.inTable : OpKind → Bool
  | .read | .write | .jobWrite | .atom | .watch | .send => true
  | _ => false

/-- The table entry the next operation takes: the lowest free one. -/
def Spn.nextEntry (x : Spn) : Nat := freeEntry (fun n => x.ops.any (fun o => o.kind.inTable && o.id % 1024 == n)) (x.ops.length + 1) 0

/-- The number of the next operation of a kind: its table entry and how often that was used before, which make the operation ID
(R317); one outside the table takes a number beyond all of those. -/
def Spn.nextOp (x : Spn) (k : OpKind) : Nat :=
  if k.inTable then x.nextEntry + 1024 * tget 0 x.slotUse x.nextEntry
  else 2 ^ 40 + freeEntry (fun n => x.ops.any (fun o => o.id == 2 ^ 40 + n)) (x.ops.length + 1) 0

/-- Adds an operation to those of a spindle (R93, R261). -/
def Spn.addOp (x : Spn) (o : OpEnt) : Spn :=
  { x with ops := x.ops ++ [{ o with id := x.nextOp o.kind }]
           slotUse := if o.kind.inTable then tmod 0 x.slotUse x.nextEntry (· + 1) else x.slotUse }

/-- 64-bit word `k` of a flit (R78). -/
def Flit.word (f : Flit) (k : Nat) : Nat := lane 64 f.data.toNat k

/-- Byte `k` of a flit. -/
def Flit.byte (f : Flit) (k : Nat) : Nat := lane 8 f.data.toNat k

/-- Word `k` carries poison. -/
def Flit.bad (f : Flit) (k : Nat) : Bool := f.pword.toNat.testBit k

/-- Any word carries poison. -/
def Flit.anyBad (f : Flit) : Bool := decide (f.pword ≠ 0)

/-- A data flit from a number, with poison marks, tag and count of valid words. -/
def mkFlit (d pword : Nat) (tag : BitVec 8) (gen : BitVec 2) (nwords : Nat) : Flit :=
  { data := BitVec.ofNat 2048 d, pword := BitVec.ofNat 32 pword, tag := tag, gen := gen, ctl := false,
    nw := BitVec.ofNat 5 (nwords - 1) }

/-- A trip token carrying `n` (R79 type 1). -/
def tripTok (n : Nat) (tag : BitVec 8) (gen : BitVec 2) (poison : Bool) : Flit :=
  { data := BitVec.ofNat 2048 (if poison then 0 else (n % 2 ^ 32) + 2 ^ 60),
    pword := if poison then 1 else 0, tag := tag, gen := gen, ctl := true, nw := 0 }

/-- A predicate token whose word 1 is `m` (R79 type 0). -/
def predTok (m : Nat) (tag : BitVec 8) (gen : BitVec 2) (pword : Nat) : Flit :=
  { data := BitVec.ofNat 2048 ((m % 2 ^ 64) * 2 ^ 64), pword := BitVec.ofNat 32 pword, tag := tag,
    gen := gen, ctl := true, nw := 1 }

/-- Why a token cannot decide control flow (R85, R112 byte 19): `ty` is the type the operation takes;
none where it can. -/
def ctlBad (f : Flit) (ty : Nat) : Option Nat :=
  if f.pword ≠ 0 then some 1
  else if !f.ctl then some 3
  else
    let t := f.word 0 / 2 ^ 60
    if 2 ≤ t then some 2 else if t ≠ ty then some 4 else none

/-- Bit `i` of a predicate's word 1, all disabled with no word 1 (R83, R588). -/
def predBit (f : Flit) (i : Nat) : Bool :=
  if f.nw = 0 then false else (f.word 1).testBit i

/-- A lane result: its code, flags, and whether it carries poison. -/
structure LaneRes where
  code : Nat := 0
  flags : Nat := 0
  poison : Bool := false
  deriving DecidableEq, Repr

/-- Packs lane results of `w` bits into flit data, poison marks per 64-bit word, and flags; a poisoned
lane's bits are zero and it sets no other flag (R69). -/
def packRes (w : Nat) (ls : List LaneRes) : Nat × Nat × Nat :=
  let data := packLanes w (ls.map (fun l => if l.poison then 0 else l.code))
  let pw := ls.zipIdx.foldl (fun a l => if l.1.poison then a ||| (1 <<< (l.2 * w / 64)) else a) 0
  let fl := ls.foldl (fun a l => if l.poison then a else a ||| l.flags) 0
  (data, pw, fl)

/-- Poisoned results among lanes: each lane is a result, while a token or a flit passed on is one (R69 rule 6; log 149). -/
def poisonCount (ls : List LaneRes) : Nat := ls.countP (·.poison)

/-- Flags of one result flit: POISON where it carries poison (R69 rule 6). -/
def poisonFlag (pw fl : Nat) : Nat := if pw = 0 then fl else fl ||| FPOISON

/-- Lane width of a vector format: 32 for FP32 and INT32, 16 for BF16, 8 for the byte formats. -/
def laneW (fmt : Nat) : Nat := fmtBits fmt

/-- A field of a slot word. -/
def slot (w : DWord) (hi lo : Nat) : Nat := bitsOf w.toNat hi lo

end Sys2Proof.Machine
end

