-- ==== Sys2Proof/Machine/Sfu.lean ====
section
/-! DEFINITION. The special functions (spec/02_numerics.md R66, R67).  Reciprocal and reciprocal square
root are rounded from exact quotients; the transcendental functions are summed in fixed point with 512
fraction bits, which log 12 takes as enough to round every FP32 input correctly. -/

namespace Sys2Proof.Machine

/-- Fraction bits of the fixed-point series. -/
def fxBits : Nat := 512
def fxOne : Nat := 1 <<< fxBits
def fxMul (a b : Nat) : Nat := (a * b) >>> fxBits

/-- Sum of `y^i / i!` from a running term, `n` terms. -/
def expSeries (y : Nat) : Nat → Nat → Nat → Nat → Nat
  | 0, _, _, acc => acc
  | n + 1, i, term, acc => expSeries y n (i + 1) (fxMul term y / (i + 1)) (acc + term)

/-- e to a fixed-point power below 1. -/
def fxExp (y : Nat) : Nat := expSeries y 110 0 fxOne 0

/-- Sum of `z^(2i+1) / (2i+1)` from a running power. -/
def atanhSeries (z2 : Nat) : Nat → Nat → Nat → Nat → Nat
  | 0, _, _, acc => acc
  | n + 1, k, p, acc => atanhSeries z2 n (k + 2) (fxMul p z2) (acc + p / k)

/-- Natural logarithm of the fixed-point `y`, 1 ≤ y ≤ 2. -/
def fxLn (y : Nat) : Nat :=
  let z := ((y - fxOne) <<< fxBits) / (y + fxOne)
  2 * atanhSeries (fxMul z z) 170 1 z 0

def fxLn2 : Nat := fxLn (2 * fxOne)

/-- Arctangent of 1/q by its alternating series, in units of `2 ^ -b`. -/
def atanInv (q : Nat) : Nat → Nat → Nat → Int → Int → Int
  | 0, _, _, _, acc => acc
  | n + 1, k, p, s, acc => atanInv q n (k + 2) (p / (q * q)) (-s) (acc + s * ((p / k : Nat) : Int))

/-- π in units of `2 ^ -b` by Machin's formula, with 64 guard bits. -/
def piFix (b : Nat) : Nat :=
  let g := b + 64
  let x := 4 * (4 * atanInv 5 (g / 4) 1 ((1 <<< g) / 5) 1 0 - atanInv 239 (g / 15 + 2) 1 ((1 <<< g) / 239) 1 0)
  x.toNat >>> 64

/-- Alternating series of sine (from `k = 1`) or cosine (from `k = 0`). -/
def trigSeries (r2 : Nat) : Nat → Nat → Nat → Int → Int → Int
  | 0, _, _, _, acc => acc
  | n + 1, k, t, s, acc =>
    trigSeries r2 n (k + 2) (fxMul t r2 / ((k + 1) * (k + 2))) (-s) (acc + s * (t : Int))

def fxSin (r : Nat) : Int := trigSeries (fxMul r r) 60 1 r 1 0
def fxCos (r : Nat) : Int := trigSeries (fxMul r r) 60 0 fxOne 1 0

/-- Largest `r` with `r * r ≤ n`, bit by bit. -/
def isqrtBits (n : Nat) : Nat → Nat → Nat
  | 0, r => r
  | b + 1, r => isqrtBits n b (if (r + 2 ^ b) * (r + 2 ^ b) ≤ n then r + 2 ^ b else r)

/-- Rounds a dyadic to FP32, with the flags of R58. -/
def roundF32 (neg : Bool) (d : Dy) : Nat × Nat := encodeFin fFP32 false neg d

/-- 1/x of a nonzero dyadic: an exact quotient with a sticky bit (R66). -/
def recipDy (d : Dy) : Dy :=
  let a := d.man.natAbs
  let n := (1 <<< 320) / a
  let st := if n * a = 1 <<< 320 then 0 else 1
  let q : Int := ((2 * n + st : Nat) : Int)
  ⟨if d.man < 0 then -q else q, -321 - d.exp⟩

/-- 1/√x of a positive dyadic (R66). -/
def rsqrtDy (d : Dy) : Dy :=
  let odd := d.exp % 2 = 1
  let a := if odd then 2 * d.man.natAbs else d.man.natAbs
  let e := if odd then d.exp - 1 else d.exp
  let r := isqrtBits ((1 <<< 320) / a) 161 0
  let st := if r * r * a = 1 <<< 320 then 0 else 1
  ⟨((2 * r + st : Nat) : Int), -161 - e / 2⟩

/-- 2 to a dyadic power of magnitude below 256 (R66). -/
def exp2Dy (d : Dy) : Dy :=
  let k := dyFloor d 0
  let f := dyFloor ⟨d.man, d.exp⟩ (-(fxBits : Int)) - k * (fxOne : Int)
  ⟨fxExp (fxMul f.toNat fxLn2), k - fxBits⟩

/-- log2 of a positive dyadic (R66). -/
def log2Dy (d : Dy) : Dy :=
  let a := d.man.natAbs
  let k : Int := dyLog2 d
  let y := (a <<< fxBits) >>> a.log2
  if y = fxOne then ⟨k, 0⟩
  else ⟨k * (fxOne : Int) + (((fxLn y <<< fxBits) / fxLn2 : Nat) : Int), -(fxBits : Int)⟩

/-- Sine or cosine of a dyadic in radians, reduced exactly by the nearest quarter turn (R66). -/
def trigDy (cosine : Bool) (d : Dy) : Dy :=
  let a := dyFloor ⟨d.man.natAbs, d.exp⟩ (-(2 * fxBits : Int))
  let half := piFix (2 * fxBits) / 2
  let q := a.toNat / half
  let r2 := a.toNat - q * half
  let (q, neg, r) := if 2 * r2 ≤ half then (q, false, r2) else (q + 1, true, half - r2)
  let r := r >>> fxBits
  let s := if neg then -(fxSin r) else fxSin r
  let c := fxCos r
  let quad := q % 4
  let v : Int := if cosine then
      (if quad = 0 then c else if quad = 1 then -s else if quad = 2 then -c else s)
    else
      (if quad = 0 then s else if quad = 1 then c else if quad = 2 then -s else -c)
  ⟨if !cosine && decide (d.man < 0) then -v else v, -(fxBits : Int)⟩

/-- The special functions by FN code (R142). -/
inductive SfuFn where
  | exp2 | log2 | recip | rsqrt | sin | cos
  deriving DecidableEq, Repr

def sfuFn : Nat → Option SfuFn
  | 0 => some .exp2
  | 1 => some .log2
  | 2 => some .recip
  | 3 => some .rsqrt
  | 4 => some .sin
  | 5 => some .cos
  | _ => none

def posInf : Nat := 0x7F800000
def negInf : Nat := 0xFF800000
def qnan32 : Nat := 0x7FC00000

/-- One special function of a value: the FP32 code and flags (R66, R67). -/
def sfuEval (fn : SfuFn) (v : FVal) : Nat × Nat :=
  match fn, v with
  | _, .nan => (qnan32, 0)
  | .exp2, .inf n => (if n then 0 else posInf, 0)
  | .exp2, .fin _ d =>
    if d.man = 0 then (0x3F800000, 0)
    else if dyLt d ⟨128, 0⟩ then
      (if dyLt d ⟨-256, 0⟩ then (0, OUT_UNF) else roundF32 false (exp2Dy d))
    else (posInf, OUT_OVF)
  | .log2, .inf n => if n then (qnan32, VEC_INV) else (posInf, 0)
  | .log2, .fin _ d =>
    if d.man = 0 then (negInf, DIV0)
    else if d.man < 0 then (qnan32, VEC_INV)
    else roundF32 false (log2Dy d)
  | .recip, .inf n => (if n then 0x80000000 else 0, 0)
  | .recip, .fin n d =>
    if d.man = 0 then (if n then negInf else posInf, DIV0) else roundF32 false (recipDy d)
  | .rsqrt, .inf n => if n then (qnan32, VEC_INV) else (0, 0)
  | .rsqrt, .fin n d =>
    if d.man = 0 then (if n then negInf else posInf, DIV0)
    else if d.man < 0 then (qnan32, VEC_INV)
    else roundF32 false (rsqrtDy d)
  | .sin, .inf _ => (qnan32, VEC_INV)
  | .sin, .fin n d =>
    if d.man = 0 then (if n then 0x80000000 else 0, 0)
    else if d.exp + (d.man.natAbs.log2 : Int) < -60 then roundF32 n d
    else roundF32 false (trigDy false d)
  | .cos, .inf _ => (qnan32, VEC_INV)
  | .cos, .fin _ d =>
    if d.man = 0 ∨ d.exp + (d.man.natAbs.log2 : Int) < -60 then (0x3F800000, 0)
    else roundF32 false (trigDy true d)

/-- A special function of an FP32 code as an FP32 code. -/
def sfu32 (fn : SfuFn) (c : Nat) : Nat × Nat := sfuEval fn (decodeF fFP32 c)

/-- The latency of a function (R66, R73). -/
def sfuLatency : SfuFn → Nat
  | .sin => 40
  | .cos => 40
  | _ => 24

/-- One lane: a BF16 destination receives the FP32 result rounded again (R66). -/
def sfuLane (fn : SfuFn) (sfmt dfmt c : Nat) : LaneRes :=
  let r := sfuEval fn (decodeElem sfmt c)
  if dfmt = 1 then
    let b := encodeF fBF16 false (decodeF fFP32 r.1)
    { code := b.1, flags := r.2 ||| b.2 }
  else { code := r.1, flags := r.2 }

/-- A special-function fire: 16 lanes (R66, R142). -/
def fireSfu (fn : SfuFn) (w : DWord) (f : Flit) (gen : BitVec 2) (sp : Spn) : URes :=
  let sfmt := slot w 59 56
  let dfmt := slot w 55 52
  let sw := laneW sfmt
  let dw := laneW dfmt
  let ls := (List.range 16).map (fun i =>
    if f.bad (i * sw / 64) then ({ poison := true } : LaneRes)
    else sfuLane fn sfmt dfmt (lane sw f.data.toNat i))
  let p := packRes dw ls
  { sp := sp, outs := [(0, sfuLatency fn, mkFlit p.1 p.2.1 (tagOf sp (slot w 42 34)) gen (16 * dw / 64))],
    flags := poisonFlag p.2.1 p.2.2, npoi := poisonCount ls }

end Sys2Proof.Machine
end

