-- ==== Sys2Proof/Machine/Vector.lean ====
section
/-! DEFINITION. The vector unit operations (spec/02_numerics.md R60 to R65, R69; spec/04_skein.md R141,
R588; spec/05_sparsity_conditional.md R169 to R173; spec/11_determinism.md R357 to R359). -/

namespace Sys2Proof.Machine

/-- The fields of a vector slot word (R141). -/
def vSfmt (w : DWord) : Nat := slot w 57 54
def vDfmt (w : DWord) : Nat := slot w 53 50
def vOtag (w : DWord) : Nat := slot w 22 14
def vOport (w : DWord) : Nat := slot w 13 13
def vPred (w : DWord) : Bool := decide (slot w 12 12 = 1)
def vSub (w : DWord) : Nat := slot w 11 8

/-- A lane of an operand: its value, or poison (R69 rule 1). -/
def vLane (f : Flit) (fmt i : Nat) : Option FVal :=
  let b := laneW fmt
  if f.bad (i * b / 64) then none else some (decodeElem fmt (lane b f.data.toNat i))

/-- Lane `i` is enabled (R588): every lane without a predicate. -/
def enabled (pred : Option Flit) (i : Nat) : Bool :=
  match pred with
  | none => true
  | some p => predBit p i

/-- Words a 64-lane result of `b`-bit lanes takes. -/
def resWords (b : Nat) : Nat := b

/-- A 64-lane result flit and its flags (R63, R69). -/
def vResult (w : DWord) (gen : BitVec 2) (lat : Nat) (dfmt : Nat) (ls : List LaneRes) (sp : Spn) : URes :=
  let b := laneW dfmt
  let p := packRes b ls
  { sp := sp, outs := [(vOport w, lat, mkFlit p.1 p.2.1 (tagOf sp (vOtag w)) gen (resWords b))],
    flags := poisonFlag p.2.1 p.2.2, npoi := poisonCount ls }

/-- The destination of vector arithmetic: FP32 or BF16 (R63). -/
def arithFmt (d : Nat) : FFmt := if d = 1 then fBF16 else fFP32

/-- Two-operand arithmetic in every enabled lane (R63, R64). -/
def fireArith2 (op : FVal → FVal → FVal × Bool) (w : DWord) (a b : Flit) (pred : Option Flit)
    (gen : BitVec 2) (sp : Spn) : URes :=
  vResult w gen 4 (vDfmt w) ((List.range 64).map (fun i =>
    if enabled pred i then
      match vLane a (vSfmt w) i, vLane b (vSfmt w) i with
      | some x, some y => let r := finish (arithFmt (vDfmt w)) false (op x y)
                          ({ code := r.1, flags := r.2 } : LaneRes)
      | _, _ => { poison := true }
    else {})) sp

def fireAdd := fireArith2 fAddX
def fireSub := fireArith2 (fun x y => fAddX x y.neg)
def fireMul := fireArith2 fMulX
def fireMin := fireArith2 fMinX
def fireMax := fireArith2 fMaxX

/-- FMA, a·b + c rounded once, latency 6 (R63, R73). -/
def fireFma (w : DWord) (a b c : Flit) (gen : BitVec 2) (sp : Spn) : URes :=
  vResult w gen 6 (vDfmt w) ((List.range 64).map (fun i =>
    match vLane a (vSfmt w) i, vLane b (vSfmt w) i, vLane c (vSfmt w) i with
    | some x, some y, some z => let r := finish (arithFmt (vDfmt w)) false (fFmaX x y z)
                                ({ code := r.1, flags := r.2 } : LaneRes)
    | _, _, _ => { poison := true })) sp

/-- A comparison by SUB code (R63, R141). -/
def cmpHolds (sub : Nat) (o : COrd) : Bool :=
  match sub, o with
  | 0, .eq => true
  | 1, .eq => false
  | 1, _ => true
  | 2, .lt => true
  | 3, .lt => true
  | 3, .eq => true
  | 4, .gt => true
  | 5, .gt => true
  | 5, .eq => true
  | _, _ => false

/-- CMP: a predicate token, poisoned where an enabled lane reads poison (R63, R69). -/
def fireCmp (w : DWord) (a b : Flit) (pred : Option Flit) (gen : BitVec 2) (sp : Spn) : URes :=
  let ls := (List.range 64).map (fun i =>
    if enabled pred i then
      match vLane a (vSfmt w) i, vLane b (vSfmt w) i with
      | some x, some y => some (cmpHolds (vSub w) (fCompare x y))
      | _, _ => none
    else some false)
  let bad := ls.any (fun l => l.isNone)
  let m := ls.zipIdx.foldl (fun s l => if l.1 = some true then s + 2 ^ l.2 else s) 0
  { sp := sp,
    outs := [(vOport w, 4, predTok (if bad then 0 else m) (tagOf sp (vOtag w)) gen (if bad then 2 else 0))],
    flags := if bad then FPOISON else 0, npoi := if bad then 1 else 0 }

/-- Byte of the scale of block `b` in an MX flit (R140; log 14). -/
def mxScaleByte (fmt b : Nat) : Nat := if fmt = 8 then 248 + b else 252 + b

/-- One CVT lane from an FP32, BF16, byte or MX element (R65). -/
def cvtLane (c : Bool) (w : DWord) (f : Flit) (i : Nat) : LaneRes :=
  let s := vSfmt w
  let d := vDfmt w
  let b := fmtBits s
  let off := i * b
  if f.bad (off / 64) || f.bad ((off + b - 1) / 64) then { poison := true }
  else
    let code := (f.data.toNat >>> off) % 2 ^ b
    if isMX s then
      let sb := mxScaleByte s (i / 32)
      if f.bad (sb / 8) then { poison := true }
      else let r := encodeF fFP32 false (mxValue s (f.byte sb) code)
           { code := r.1, flags := r.2 }
    else if d = 9 then let r := toInt 8 (decodeElem s code); { code := r.1, flags := r.2 }
    else if d = 11 then let r := toInt 32 (decodeElem s code); { code := r.1, flags := r.2 }
    else let r := encodeF ((fmtOf d).getD fFP32) c (decodeElem s code); { code := r.1, flags := r.2 }

/-- CVT of two blocks of 32 to an MX format, scales in the bytes of R140 (R65; log 14). -/
def cvtToMx (w : DWord) (f : Flit) (pred : Option Flit) (gen : BitVec 2) (sp : Spn) : URes :=
  let d := vDfmt w
  let b := fmtBits d
  let blk (k : Nat) : Bool × Nat × List Nat × Nat :=
    let xs := (List.range 32).map (fun j =>
      let i := 32 * k + j
      if enabled pred i then vLane f 0 i else some (.fin false ⟨0, 0⟩))
    if xs.any (fun x => x.isNone) then (true, 0, [], 0)
    else let r := mxBlock d (xs.map (fun x => x.getD .nan)); (false, r.1, r.2.1, r.2.2)
  let b0 := blk 0
  let b1 := blk 1
  let elems := packLanes b b0.2.2.1 + 2 ^ (32 * b) * packLanes b b1.2.2.1
  let scales := b0.2.1 * 2 ^ (8 * mxScaleByte d 0) + b1.2.1 * 2 ^ (8 * mxScaleByte d 1)
  let wpb := b / 2
  let mark (bad : Bool) (k : Nat) : Nat := if bad then ((2 ^ wpb - 1) <<< (wpb * k)) ||| 2 ^ 31 else 0
  let pw := mark b0.1 0 ||| mark b1.1 1
  { sp := sp, outs := [(vOport w, 4, mkFlit (elems + scales) pw (tagOf sp (vOtag w)) gen 32)],
    flags := poisonFlag pw (b0.2.2.2 ||| b1.2.2.2), npoi := (if b0.1 then 32 else 0) + (if b1.1 then 32 else 0) }

/-- CVT (R65). -/
def fireCvt (c : UCtx) (w : DWord) (f : Flit) (pred : Option Flit) (gen : BitVec 2) (sp : Spn) : URes :=
  if isMX (vDfmt w) then cvtToMx w f pred gen sp
  else vResult w gen 4 (vDfmt w) ((List.range 64).map (fun i =>
    if enabled pred i then cvtLane c.sat w f i else {})) sp

/-- RED: lane `i` of the result, `i` below 32, is one node of the tree over lanes 2i and 2i + 1; the
other lanes are zero (R60, R141; log 13).  A predicate enables lane `i` of the result by its bit `i`, and an enabled
lane reads both its inputs.  DESIGN CHOICE (log 13). -/
def redLane (w : DWord) (f : Flit) (i : Nat) : LaneRes :=
  match vLane f (vSfmt w) (2 * i), vLane f (vSfmt w) (2 * i + 1) with
  | some x, some y =>
    let r := match vSub w with
      | 1 => finish fFP32 false (fMaxX x y)
      | 2 => finish fFP32 false (fMinX x y)
      | _ => finish fFP32 false (fAddX x y)
    if vDfmt w = 1 then
      let b := encodeF fBF16 false (decodeF fFP32 r.1)
      { code := b.1, flags := r.2 ||| b.2 }
    else { code := r.1, flags := r.2 }
  | _, _ => { poison := true }

def fireRed (w : DWord) (f : Flit) (pred : Option Flit) (gen : BitVec 2) (sp : Spn) : URes :=
  vResult w gen 4 (vDfmt w) ((List.range 64).map (fun i =>
    if i < 32 ∧ enabled pred i = true then redLane w f i else {})) sp

/-- A flit as an operation under a predicate reads it: disabled lanes of width `b` give zero, and the
poison of a word no enabled lane reads has no effect (R69 rule 7, R141). -/
def maskFlit (f : Flit) (b : Nat) (pred : Option Flit) : Flit :=
  match pred with
  | none => f
  | some p =>
    let d := packLanes b ((List.range 64).map (fun i => if predBit p i then lane b f.data.toNat i else 0))
    let pw := (List.range 32).foldl (fun s k =>
      if f.bad k && (List.range 64).any (fun i => i * b / 64 == k && predBit p i) then s + 2 ^ k else s) 0
    { f with data := BitVec.ofNat 2048 d, pword := BitVec.ofNat 32 pw }

/-- The bits of the lanes of `b` bits that a predicate disables, lane `i` element `i` of the flit (R588). -/
def offBits (b : Nat) (p : Flit) : Nat :=
  (List.range 64).foldl (fun m i =>
    if predBit p i || decide (2048 < b * (i + 1)) then m else m + (2 ^ b - 1) <<< (b * i)) 0

/-- What a MOV passes: the lanes of SFMT that a predicate disables are zero, and a word that they fill gives no poison;
the bits of no lane are copied.  DESIGN CHOICE (log 150). -/
def movFlit (f : Flit) (b : Nat) (pred : Option Flit) : Flit :=
  match pred with
  | none => f
  | some p =>
    let m := offBits b p
    let pw := (List.range 32).foldl (fun s k =>
      if f.bad k && decide (bitsOf m (64 * k + 63) (64 * k) ≠ 2 ^ 64 - 1) then s + 2 ^ k else s) 0
    { f with data := f.data &&& ~~~(BitVec.ofNat 2048 m), pword := BitVec.ofNat 32 pw }

/-- MOV (R588): the flit bit for bit with its poison marks. -/
def fireMov (w : DWord) (f : Flit) (pred : Option Flit) (gen : BitVec 2) (sp : Spn) : URes :=
  let g := movFlit f (laneW (vSfmt w)) pred
  let o := { g with tag := tagOf sp (vOtag w), gen := gen }
  { sp := sp, outs := [(vOport w, 4, o)], flags := if g.pword = 0 then 0 else FPOISON,
    npoi := if g.pword = 0 then 0 else 1 }

/-! ### Random numbers (R357 to R359). -/

/-- One round of Philox-4×32 on counter words and keys. -/
def philoxRound (c : Nat × Nat × Nat × Nat) (k0 k1 : Nat) : Nat × Nat × Nat × Nat :=
  let p0 := 0xD2511F53 * c.1
  let p1 := 0xCD9E8D57 * c.2.2.1
  ((p1 / 2 ^ 32) ^^^ c.2.1 ^^^ k0, p1 % 2 ^ 32, (p0 / 2 ^ 32) ^^^ c.2.2.2 ^^^ k1, p0 % 2 ^ 32)

def philoxRounds : Nat → (Nat × Nat × Nat × Nat) → Nat → Nat → (Nat × Nat × Nat × Nat)
  | 0, c, _, _ => c
  | n + 1, c, k0, k1 =>
    philoxRounds n (philoxRound c k0 k1) ((k0 + 0x9E3779B9) % 2 ^ 32) ((k1 + 0xBB67AE85) % 2 ^ 32)

/-- Philox-4×32-10 (R357). -/
def philox (c0 c1 c2 c3 k0 k1 : Nat) : List Nat :=
  let r := philoxRounds 10 (c0, c1, c2, c3) k0 k1
  [r.1, r.2.1, r.2.2.1, r.2.2.2]

/-- The four output words of a request word (R357, R358). -/
def rngWords (seed step : DWord) (req : Nat) : List Nat :=
  philox (req % 2 ^ 32) (bitsOf req 63 32) (step.toNat % 2 ^ 32) (step.toNat / 2 ^ 32)
    (seed.toNat % 2 ^ 32) (seed.toNat / 2 ^ 32)

/-- RNG (R358, R359). -/
def fireRng (c : UCtx) (w : DWord) (f : Flit) (pred : Option Flit) (gen : BitVec 2) (sp : Spn) : URes :=
  let reqs := (List.range 16).map (fun j =>
    if f.nw.toNat < j then (List.replicate 4 ({} : LaneRes), 0)
    else if f.bad j then (List.replicate 4 ({ poison := true } : LaneRes), 0)
    else
      let r := f.word j
      if r / 2 ^ 48 = 0xFFFF then (List.replicate 4 ({ poison := true } : LaneRes), 1)
      else ((rngWords c.seed c.step r).map (fun x =>
        ({ code := if vDfmt w = 0 then
            (encodeFin fFP32 false false ⟨((x / 256 : Nat) : Int), -24⟩).1 else x } : LaneRes)), 0))
  let ls := reqs.flatMap (·.1)
  let res := vResult w gen 4 (vDfmt w) (ls.zipIdx.map (fun l =>
    if enabled pred l.2 then l.1 else {})) sp
  { res with rsv := (reqs.map (·.2)).foldl (· + ·) 0 }

/-! ### Compression (R169 to R173). -/

/-- Element `i` is nonzero in a floating-point format (R170). -/
def elemNonzero (fmt : Nat) (f : Flit) (i : Nat) : Bool :=
  !(decodeElem fmt (lane (laneW fmt) f.data.toNat i)).isZero

/-- A trip token on the port other than OPORT. -/
def tripOut (w : DWord) (n : Nat) (gen : BitVec 2) (poison : Bool) (sp : Spn) : Nat × Nat × Flit :=
  (1 - vOport w, 4, tripTok n (tagOf sp (vOtag w)) gen poison)

/-- COMP NZ (R169, R173). -/
def fireNz (w : DWord) (f0 : Flit) (pred : Option Flit) (gen : BitVec 2) (sp : Spn) : URes :=
  let f := maskFlit f0 (laneW (vSfmt w)) pred
  let any := (List.range 64).any (elemNonzero (vSfmt w) f)
  let n := if any then 1 else 0
  let bad := f.anyBad
  { sp := sp,
    outs := [(vOport w, 4, { f with tag := tagOf sp (vOtag w), gen := gen }), tripOut w n gen bad sp],
    flags := if bad then FPOISON else 0, npoi := if bad then 2 else 0,
    cnts := if bad || any then [] else [(0x0604, 1)] }

/-- The stream state of a vector unit. -/
def streamOf (sp : Spn) (u : Nat) : Stream := tget {} sp.streams u
def putStream (sp : Spn) (u : Nat) (s : Stream) : Spn := { sp with streams := tset {} sp.streams u s }

/-- Zero bytes that pad a group to a multiple of 8 (R171). -/
def padTo8 (l : List Byte) : List Byte := l ++ List.replicate ((8 - l.length % 8) % 8) 0

/-- One compressed group of a flit, with the conversion flags (R171). -/
def packGroup (c : UCtx) (w : DWord) (f : Flit) : List Byte × Nat :=
  let s := vSfmt w
  let idx := (List.range 64).filter (elemNonzero s f)
  let mask := idx.foldl (fun a i => a + 2 ^ i) 0
  let nb := fmtBits (vDfmt w) / 8
  let es := idx.map (fun i => encodeF ((fmtOf (vDfmt w)).getD fBF16) c.sat
    (decodeElem s (lane (laneW s) f.data.toNat i)))
  (padTo8 (toLE 8 mask ++ es.flatMap (fun e => toLE nb e.1)), es.foldl (fun a e => a ||| e.2) 0)

/-- A stream flit of 248 payload bytes (R171). -/
def streamFlit (offset nstart : Nat) (payload : List Byte) (poison : Bool) (tag : BitVec 8)
    (gen : BitVec 2) : Flit :=
  let d := (offset % 2 ^ 40) + 2 ^ 40 * (nstart % 64) + 2 ^ 64 * leNat (sliceB payload 0 248)
  mkFlit (if poison then 0 else d) (if poison then 2 ^ 32 - 1 else 0) tag gen 32

/-- COMP PACK (R169, R171, R173). -/
def firePack (c : UCtx) (u : Nat) (w : DWord) (f0 : Flit) (pred : Option Flit) (gen : BitVec 2)
    (sp : Spn) : URes :=
  let f := maskFlit f0 (laneW (vSfmt w)) pred
  let s := streamOf sp u
  let g := packGroup c w f
  let s1 := { s with starts := s.starts ++ [s.pend.length], pend := s.pend ++ g.1,
                     ppoison := s.ppoison || f.anyBad }
  let tag := tagOf sp (vOtag w)
  let fl := if f.anyBad then FPOISON else g.2
  if 248 ≤ s1.pend.length then
    let n := (s1.starts.filter (· < 248)).length
    let s2 := { s1 with pend := s1.pend.drop 248, offset := s1.offset + 256,
                        starts := (s1.starts.filter (fun x => decide (248 ≤ x))).map (· - 248) }
    { sp := putStream sp u s2,
      outs := [(vOport w, 4, streamFlit s1.offset n s1.pend s1.ppoison tag gen), tripOut w 1 gen false sp],
      flags := if s1.ppoison then fl ||| FPOISON else fl, npoi := if s1.ppoison then 1 else 0 }
  else
    { sp := putStream sp u s1, outs := [tripOut w 0 gen false sp], flags := fl }

/-- COMP FLUSH (R169). -/
def fireFlush (u : Nat) (w : DWord) (gen : BitVec 2) (sp : Spn) : URes :=
  let s := streamOf sp u
  let ended := putStream sp u { s with pend := [], starts := [], offset := 0, ppoison := false }
  if s.pend = [] then { sp := ended, outs := [tripOut w 0 gen false sp] }
  else
    { sp := ended,
      outs := [(vOport w, 4, streamFlit s.offset s.starts.length s.pend s.ppoison (tagOf sp (vOtag w)) gen),
               tripOut w 1 gen false sp],
      flags := if s.ppoison then FPOISON else 0, npoi := if s.ppoison then 1 else 0 }

/-- Bytes of one element of the expanded format (R170). -/
def expBytes (w : DWord) : Nat := fmtBits (vDfmt w) / 8

/-- Length of the group at the front of the expand bytes, none where it is not complete (R171). -/
def frontGroup (nb : Nat) (e : List (Byte × Bool)) : Option Nat :=
  if e.length < 8 then none
  else
    let n := popcount64 (leNat ((e.take 8).map (·.1)))
    let len := (8 + n * nb + 7) / 8 * 8
    if e.length < len then none else some len
where
  popcount64 (m : Nat) : Nat := ((List.range 64).filter (fun i => m.testBit i)).length

/-- Complete groups held, at most `n` (R169). -/
def completeGroups (nb : Nat) : Nat → List (Byte × Bool) → Nat
  | 0, _ => 0
  | n + 1, e => match frontGroup nb e with
    | none => 0
    | some len => 1 + completeGroups nb n (e.drop len)

/-- COMP XIN (R169, R172, R173): a poisoned flit gives a poisoned trip token, and where its header was lost all that follows
is derived from it until a flit of offset 0 begins a stream (log 157). -/
def fireXin (u : Nat) (w : DWord) (f : Flit) (gen : BitVec 2) (sp : Spn) : URes :=
  let s := streamOf sp u
  if completeGroups (expBytes w) s.begun s.exp ≠ 0 then uFault sp 0x0334 [u, 1]
  else
    let keep := if s.begun = 0 then [] else s.exp
    let lost := f.bad 0 || (s.lost && bitsOf (f.word 0) 39 0 != 0)
    let bad := f.anyBad || lost
    let pay := (List.range 248).map (fun i => (BitVec.ofNat 8 (f.byte (8 + i)), bad))
    let s1 := { s with exp := keep ++ pay, begun := s.begun + bitsOf (f.word 0) 45 40, lost := lost }
    { sp := putStream sp u s1, flags := if bad then FPOISON else 0, npoi := if bad then 1 else 0
      outs := [tripOut w (completeGroups (expBytes w) s1.begun s1.exp) gen bad sp] }

/-- The dense lanes of a group: mask bits take the packed elements in order (R171). -/
def expandLanes (nb : Nat) (mask : Nat) : Nat → Nat → List Byte → List Nat
  | 0, _, _ => []
  | n + 1, i, e =>
    if mask.testBit i then leNat (e.take nb) :: expandLanes nb mask n (i + 1) (e.drop nb)
    else 0 :: expandLanes nb mask n (i + 1) e

/-- COMP XOUT (R169, R172, R173). -/
def fireXout (u : Nat) (w : DWord) (gen : BitVec 2) (sp : Spn) : URes :=
  let s := streamOf sp u
  let nb := expBytes w
  match (if s.begun = 0 then none else frontGroup nb s.exp) with
  | none => uFault sp 0x0334 [u, 2]
  | some len =>
    let g := s.exp.take len
    let bad := g.any (·.2)
    let bytes := g.map (·.1)
    let ls := (expandLanes nb (leNat (bytes.take 8)) 64 0 (bytes.drop 8)).map (fun x =>
      ({ code := x, poison := bad } : LaneRes))
    let s1 := putStream sp u { s with exp := s.exp.drop len, begun := s.begun - 1 }
    { vResult w gen 4 (vDfmt w) ls sp with sp := s1 }

/-- Enabled positions of a predicate: every bit of words 1 to NWORDS (R79, R169). -/
def predCount (f : Flit) : Nat :=
  ((List.range (64 * f.nw.toNat)).filter (fun i => f.data.toNat.testBit (64 + i))).length

/-- COMP PCNT (R169). -/
def firePcnt (w : DWord) (p : Flit) (gen : BitVec 2) (sp : Spn) : URes :=
  { sp := sp, outs := [(vOport w, 4, tripTok (predCount p) (tagOf sp (vOtag w)) gen false)] }

end Sys2Proof.Machine
end

