-- ==== Sys2Proof/Machine/Attn.lean ====
section
/-! DEFINITION. The sequence units (spec/06_long_sequences.md R196 to R212). -/

namespace Sys2Proof.Machine

/-- The settings bytes of a unit in the current section (R120, R124). -/
def settingsOf (sp : Spn) (u : Nat) : List Byte := (sp.cfg.settings[u]?).getD []

/-- Parameter set `n` of a unit, 16 bytes as a number (R124). -/
def psetOf (sp : Spn) (u n : Nat) : Nat := rdLE (settingsOf sp u) (16 * n) 16

/-- The fields of a sequence slot word (R144). -/
def seqOtag (sp : Spn) (w : DWord) : BitVec 8 := tagOf sp (slot w 21 13)
def seqOport (w : DWord) : Nat := slot w 12 12
def seqPset (w : DWord) : Nat := slot w 11 8

/-- The fields of an attention set (R197). -/
structure AttnSet where
  d : Nat
  bf16p : Bool
  bf16o : Bool
  causal : Bool
  win : Bool
  sl : Nat
  scale : Nat
  winLen : Nat
  nglob : Nat
  deriving DecidableEq, Repr

def attnSet (p : Nat) : AttnSet :=
  { d := bitsOf p 14 8 + 1, bf16p := decide (bitsOf p 17 16 = 1), bf16o := p.testBit 18,
    causal := p.testBit 19, win := p.testBit 20, sl := bitsOf p 27 24, scale := bitsOf p 63 32,
    winLen := bitsOf p 87 64, nglob := bitsOf p 111 88 }

def seqOf (sp : Spn) (u : Nat) : SeqUnit := tget {} sp.seqs u
def putSeq (sp : Spn) (u : Nat) (q : SeqUnit) : Spn := { sp with seqs := tset {} sp.seqs u q }

/-- FP32 arithmetic on codes, each one rounding (R204, R206). -/
def mul32 (a b : Nat) : Nat × Nat := finish fFP32 false (fMulX (decodeF fFP32 a) (decodeF fFP32 b))
def sub32 (a b : Nat) : Nat × Nat := finish fFP32 false (fAddX (decodeF fFP32 a) (decodeF fFP32 b).neg)
def max32 (a b : Nat) : Nat := (finish fFP32 false (fMaxX (decodeF fFP32 a) (decodeF fFP32 b))).1
def fma32 (a b c : Nat) : Nat × Nat :=
  finish fFP32 false (fFmaX (decodeF fFP32 a) (decodeF fFP32 b) (decodeF fFP32 c))

/-- The flags of a canonical sum (R60), level by level. -/
def canonFlags : Nat → List Nat → Nat
  | 0, _ => 0
  | n + 1, l => match l with
    | [] => 0
    | [_] => 0
    | l => pairFlags l ||| canonFlags n (canonPairs l)
where
  pairFlags : List Nat → Nat
    | a :: b :: r => (addF32 a b).2 ||| pairFlags r
    | _ => 0

/-- The two's-complement angle constant C of R201. -/
def phaseC : Nat := 0x6487ED5110B4611A62633145

/-- One rotary angle (R201). -/
def phaseLane (p f : Nat) : Nat × Nat :=
  let psi := sext 64 (p * f)
  encodeFin fFP32 false false ⟨psi * (phaseC : Int), -156⟩

/-- PHASE (R201): the position token's word 0 decides; its poison poisons every lane. -/
def firePhase (u : Nat) (w : DWord) (f : Flit) (gen : BitVec 2) (sp : Spn) : URes :=
  let set := psetOf sp u (seqPset w)
  let np := bitsOf set 13 8 + 1
  let tab := tget [] (seqOf sp u).ftab (seqPset w)
  let p := bitsOf (f.word 0) 23 0
  let ls := (List.range 64).map (fun i =>
    if f.bad 0 ∧ i < np then ({ poison := true } : LaneRes)
    else if i < np then
      let r := phaseLane p ((tab[i]?).getD 0).toNat
      { code := r.1, flags := r.2 }
    else {})
  let q := packRes 32 ls
  { sp := sp, outs := [(seqOport w, 6, mkFlit q.1 q.2.1 (seqOtag sp w) gen 32)],
    flags := poisonFlag q.2.1 q.2.2, npoi := poisonCount ls }

/-- One ROT product pair, rounded once from its exact value (R202). -/
def rotLane (sub : Bool) (a b c d : FVal) : Nat × Nat :=
  let p := fMulX a b
  let q := fMulX c d
  let r := fAddX p.1 (if sub then q.1.neg else q.1)
  finish fFP32 false (r.1, p.2 || q.2 || r.2)

/-- ROT (R202). -/
def fireRot (w : DWord) (x y c s : Flit) (gen : BitVec 2) (sp : Spn) : URes :=
  let mk (second : Bool) := (List.range 64).map (fun i =>
    match vLane x 0 i, vLane y 0 i, vLane c 0 i, vLane s 0 i with
    | some x, some y, some c, some s =>
      let r := if second then rotLane false x s y c else rotLane true x c y s
      ({ code := r.1, flags := r.2 } : LaneRes)
    | _, _, _, _ => { poison := true })
  let la := mk false
  let lb := mk true
  let a := packRes 32 la
  let b := packRes 32 lb
  let t := seqOtag sp w
  { sp := sp,
    outs := [(seqOport w, 4, mkFlit a.1 a.2.1 t gen 32), (1 - seqOport w, 4, mkFlit b.1 b.2.1 t gen 32)],
    flags := poisonFlag a.2.1 a.2.2 ||| poisonFlag b.2.1 b.2.2,
    npoi := poisonCount la + poisonCount lb }

/-- The mask test of R203, its difference modulo 2³². -/
def keyAllowed (a : AttnSet) (q kp k nvalM1 : Nat) : Bool :=
  if nvalM1 < k then false
  else if a.causal && decide (q < kp) then false
  else if a.win && decide (a.nglob ≤ q) && decide (a.nglob ≤ kp) && decide (a.winLen ≤ (q + 2 ^ 32 - kp) % 2 ^ 32) then false
  else true

/-- A descriptor is invalid (R199): `two` says whether word 1 must be zero. -/
def descBad (f : Flit) (zero1 : Bool) : Bool :=
  f.anyBad || decide (f.word 0 >>> 28 ≠ 0) ||
    (if zero1 then decide (f.word 1 ≠ 0)
     else decide (f.word 1 >>> 31 ≠ 0) || decide (bitsOf (f.word 1) 23 0 % 128 ≠ 0))

/-- The header of a partial as a flit (R200). -/
def headerFlit (h : Partial) (row : Nat) (empty : Bool) (poison : Bool) (tag : BitVec 8) (gen : BitVec 2) :
    Flit :=
  let w0 := h.first.toNat + 2 ^ 17 * h.last.toNat + (if h.node then 2 ^ 34 else 0)
    + (if empty then 2 ^ 35 else 0) + 2 ^ 36 * h.qpos.toNat + 2 ^ 60 * (row % 16)
  let w1 := h.m.toNat + 2 ^ 32 * h.l.toNat
  mkFlit (if poison then 0 else w0 + 2 ^ 64 * w1) (if poison then 2 ^ 32 - 1 else 0) tag gen 2

/-- One score of a block: its code, none where poisoned. -/
def scoreLane (s0 s1 : Flit) (k : Nat) : Option Nat :=
  let f := if k < 64 then s0 else s1
  let i := k % 64
  if f.bad (i / 2) then none else some (lane 32 f.data.toNat i)

/-- BLK on unpoisoned scores (R204): probability codes in the set's format, M, L, whether any key is
allowed, and flags. -/
def blkCompute (a : AttnSet) (sat : Bool) (q kpos0 nvalM1 : Nat) (s : List Nat) :
    List Nat × Nat × Nat × Bool × Nat :=
  let al := (List.range 128).map (fun k => keyAllowed a q (kpos0 + k) k nvalM1)
  let ts := (s.zip al).map (fun x => if x.2 then mul32 x.1 a.scale else (0, 0))
  let m := (ts.zip al).foldl (fun m x => if x.2 then max32 m x.1.1 else m) negInf
  let any := al.any id
  let pf := if a.bf16p then fBF16 else fE4M3
  let ps := (ts.zip al).map (fun x =>
    if x.2 then
      let d := sub32 x.1.1 m
      let e := sfu32 .exp2 d.1
      let c := encodeF pf sat (decodeF fFP32 e.1)
      (c.1, x.1.2 ||| d.2 ||| e.2 ||| c.2)
    else (0, 0))
  let wide := ps.map (fun p => (encodeF fFP32 false (decodeF pf p.1)).1)
  let l := canonSum 8 wide
  if any then
    (ps.map (·.1), m, l, true, ps.foldl (fun f p => f ||| p.2) 0 ||| canonFlags 8 wide)
  else (ps.map (fun _ => 0), negInf, 0, false, 0)

/-- BLK (R203, R204, R212). -/
def fireBlk (c : UCtx) (u : Nat) (w : DWord) (s0 s1 d : Flit) (gen : BitVec 2) (sp : Spn) : URes :=
  if descBad d false then uFault sp 0x0340 [u, 3, bitsOf (d.word 0) 27 24]
  else
    let a := attnSet (psetOf sp u (seqPset w))
    let q := bitsOf (d.word 0) 23 0
    let row := bitsOf (d.word 0) 27 24
    let kpos0 := bitsOf (d.word 1) 23 0
    let nv := bitsOf (d.word 1) 30 24
    let t := seqOtag sp w
    let scores := (List.range 128).map (scoreLane s0 s1)
    let b := BitVec.ofNat 17 (kpos0 / 128)
    if scores.any (fun x => x.isNone) then
      { sp := sp,
        outs := [(seqOport w, 20, mkFlit 0 (2 ^ 32 - 1) t gen 32),
                 (1 - seqOport w, 20, headerFlit {} row false true t gen)],
        flags := FPOISON, npoi := 129 }
    else
      let r := blkCompute a c.sat q kpos0 nv (scores.map (fun x => x.getD 0))
      let h : Partial := { first := b, last := b, qpos := BitVec.ofNat 24 q,
                           m := BitVec.ofNat 32 r.2.1, l := BitVec.ofNat 32 r.2.2.1 }
      { sp := sp,
        outs := [(seqOport w, 20, mkFlit (packLanes (if a.bf16p then 16 else 8) r.1) 0 t gen 32),
                 (1 - seqOport w, 20, headerFlit h row (!r.2.2.2.1) false t gen)],
        flags := r.2.2.2.2 }

/-- The merge of R206: `a` the lower blocks, `b` the higher, over `d` elements; with the flags. -/
def mergePart (d : Nat) (a b : Partial) : Partial × Nat :=
  let m := max32 a.m.toNat b.m.toNat
  let da := sub32 a.m.toNat m
  let db := sub32 b.m.toNat m
  let ea := sfu32 .exp2 da.1
  let eb := sfu32 .exp2 db.1
  let f2 (x y : Nat) : Nat × Nat :=
    let p := mul32 x ea.1
    let r := fma32 y eb.1 p.1
    (r.1, p.2 ||| r.2)
  let l := f2 a.l.toNat b.l.toNat
  let os := (List.range d).map (fun i => f2 ((a.o[i]?).getD 0).toNat ((b.o[i]?).getD 0).toNat)
  ({ a with last := b.last, node := a.node || b.node, m := BitVec.ofNat 32 m, l := BitVec.ofNat 32 l.1,
            o := os.map (fun x => BitVec.ofNat 32 x.1), poison := a.poison || b.poison },
   da.2 ||| db.2 ||| ea.2 ||| eb.2 ||| l.2 ||| os.foldl (fun f x => f ||| x.2) 0)

/-- The row a partial or descriptor names, as the last queued state of that row: the merges waiting are
applied in order (R206, R211). -/
def rowAfterQueue (q : SeqUnit) (row : Nat) : Option Partial :=
  (q.queue.filter (fun j => j.row == row && !j.taken)).foldl (fun s j =>
    match s with
    | none => some j.part
    | some a => some (mergePart j.d a j.part).1) (tget none q.rows row)

/-- The incoming partial of an MRG (R200, R206). -/
def mrgPartial (o0 : Flit) (o1 : Option Flit) (d : Nat) (h : Flit) : Partial :=
  let w0 := h.word 0
  let w1 := h.word 1
  let el (i : Nat) : Word :=
    if i < 64 then BitVec.ofNat 32 (lane 32 o0.data.toNat i)
    else match o1 with
      | some f => BitVec.ofNat 32 (lane 32 f.data.toNat (i - 64))
      | none => 0
  { first := BitVec.ofNat 17 w0, last := BitVec.ofNat 17 (w0 >>> 17), node := w0.testBit 34,
    qpos := BitVec.ofNat 24 (w0 >>> 36), m := BitVec.ofNat 32 w1, l := BitVec.ofNat 32 (w1 >>> 32),
    o := (List.range d).map el,
    poison := h.bad 1 || o0.anyBad || (match o1 with | some f => f.anyBad | none => false) }

/-- MRG (R206, R211): the merge is queued as operation `op`. -/
def fireMrg (_c : UCtx) (u : Nat) (w : DWord) (o0 : Flit) (o1 : Option Flit) (h : Flit) (gen : BitVec 2)
    (sp : Spn) : URes :=
  let w0 := h.word 0
  let row := w0 / 2 ^ 60
  let a := attnSet (psetOf sp u (seqPset w))
  if h.bad 0 then uFault sp 0x0340 [u, 4, row]
  else if w0.testBit 35 then { sp := sp }
  else
    let q := seqOf sp u
    let p := mrgPartial o0 o1 a.d h
    let cur := rowAfterQueue q row
    let clash : Bool := match cur with
      | none => false
      | some s =>
        decide (p.qpos ≠ s.qpos) || decide (p.first ≤ s.last) || (!p.node && s.node) ||
          (!p.node && decide (p.first >>> a.sl ≠ s.first >>> a.sl))
    if clash then
      uFault sp 0x0341 ([u, row] ++ ((toLE 3 p.first.toNat).map (·.toNat)) ++
        ((toLE 3 (match cur with | some x => x.last.toNat | none => 0)).map (·.toNat)))
    else
      let job : MergeJob := { row := row, d := a.d, part := p, op := sp.nextOp .merge }
      let op : OpEnt := { id := 0, kind := .merge, gen := gen, fwd := false, sl := 0, tag := 0,
                          cnt := 0, addr := 0, len := 0, left := 1, issued := 0, poison := false, seq := 0 }
      { sp := putSeq (sp.addOp op) u
          { q with queue := q.queue ++ [job] } }

/-- The merge engine completes its oldest merge (R211): the unit and its numeric flags. -/
def engineStep (sp : Spn) (u : Nat) : Spn × Nat :=
  let q := seqOf sp u
  match q.queue with
  | [] => (sp, 0)
  | j :: r =>
    let sp := { sp with ops := sp.ops.filter (fun o => o.id != j.op) }
    if j.taken then (putSeq sp u { q with queue := r }, 0)
    else
      let (p, fl) := match tget none q.rows j.row with
        | none => (j.part, 0)
        | some a => mergePart j.d a j.part
      (putSeq sp u { q with queue := r, rows := tset none q.rows j.row (some p) }, fl)

/-- The flags of the merges queued for a row (R206, R211). -/
def queueFlags (q : SeqUnit) (row : Nat) : Nat :=
  ((q.queue.filter (fun j => j.row == row && !j.taken)).foldl (fun (sf : Option Partial × Nat) j =>
    match sf.1 with
    | none => (some j.part, sf.2)
    | some a => (some (mergePart j.d a j.part).1, sf.2 ||| (mergePart j.d a j.part).2))
    (tget none q.rows row, 0)).2

/-- The unit after FIN or SPILL has taken a row: the row is empty and its queued merges are spent. -/
def takeRow (q : SeqUnit) (row : Nat) : SeqUnit :=
  { q with
    rows := tset none q.rows row none
    queue := q.queue.map (fun j => if j.row = row then { j with taken := true } else j) }

/-- o flits of a row: one, or two where D exceeds 64 (R196, R200). -/
def oFlits (d : Nat) (os : List Nat) (poison : Bool) (lat port : Nat) (tag : BitVec 8) (gen : BitVec 2) :
    List (Nat × Nat × Flit) :=
  let pw := if poison then 2 ^ 32 - 1 else 0
  let mk (l : List Nat) (t : BitVec 8) := mkFlit (if poison then 0 else packLanes 32 l) pw t gen 32
  if 64 < d then [(port, lat, mk (os.take 64) tag), (port, lat + 1, mk (os.drop 64) (tag + 1))]
  else [(port, lat, mk os tag)]

/-- FIN (R210, R212). -/
def fireFin (_c : UCtx) (u : Nat) (w : DWord) (d : Flit) (gen : BitVec 2) (sp : Spn) : URes :=
  let row := bitsOf (d.word 0) 27 24
  if descBad d true then uFault sp 0x0340 [u, 5, row]
  else
    let a := attnSet (psetOf sp u (seqPset w))
    let q := seqOf sp u
    let t := seqOtag sp w
    let sp' := putSeq sp u (takeRow q row)
    let qf := queueFlags q row
    match rowAfterQueue q row with
    | none =>
      let z : Partial := { qpos := BitVec.ofNat 24 (d.word 0), m := BitVec.ofNat 32 negInf }
      let o := if a.bf16o then [(seqOport w, 12, mkFlit 0 0 t gen 32)]
               else oFlits a.d [] false 12 (seqOport w) t gen
      { sp := sp', outs := o ++ [(1 - seqOport w, 12, headerFlit z row true false t gen)],
        cnts := [(0x0708, 1)] }
    | some s =>
      if s.qpos.toNat ≠ bitsOf (d.word 0) 23 0 then
        uFault sp 0x0341 ([u, row] ++ ((toLE 3 s.first.toNat).map (·.toNat)) ++
          ((toLE 3 s.last.toNat).map (·.toNat)))
      else
        let r := sfu32 .recip s.l.toNat
        let os := s.o.map (fun x =>
          let m := mul32 x.toNat r.1
          if a.bf16o then let b := encodeF fBF16 false (decodeF fFP32 m.1); (b.1, m.2 ||| b.2) else m)
        let fl := os.foldl (fun f x => f ||| x.2) r.2
        let pw := if s.poison then 2 ^ 32 - 1 else 0
        let o := if a.bf16o then
            [(seqOport w, 12, mkFlit (if s.poison then 0 else packLanes 16 (os.map (·.1))) pw t gen 32)]
          else oFlits a.d (os.map (·.1)) s.poison 12 (seqOport w) t gen
        { sp := sp', outs := o ++ [(1 - seqOport w, 12, headerFlit s row false s.poison t gen)],
          flags := qf ||| (if s.poison then FPOISON else fl), npoi := if s.poison then a.d + 1 else 0 }

/-- The sequence SPILL (R209, R212). -/
def fireSeqSpill (_c : UCtx) (u : Nat) (w : DWord) (d : Flit) (gen : BitVec 2) (sp : Spn) : URes :=
  let row := bitsOf (d.word 0) 27 24
  if descBad d true then uFault sp 0x0340 [u, 6, row]
  else
    let a := attnSet (psetOf sp u (seqPset w))
    let q := seqOf sp u
    let t := seqOtag sp w
    let sp' := putSeq sp u (takeRow q row)
    let qf := queueFlags q row
    match rowAfterQueue q row with
    | none =>
      let z : Partial := { qpos := BitVec.ofNat 24 (d.word 0), node := true, m := BitVec.ofNat 32 negInf }
      { sp := sp', outs := oFlits a.d [] false 12 (seqOport w) t gen ++
          [(1 - seqOport w, 12, headerFlit z row true false t gen)] }
    | some s =>
      if s.qpos.toNat ≠ bitsOf (d.word 0) 23 0 then
        uFault sp 0x0341 ([u, row] ++ ((toLE 3 s.first.toNat).map (·.toNat)) ++
          ((toLE 3 s.last.toNat).map (·.toNat)))
      else
        let o := oFlits a.d (s.o.map (·.toNat)) s.poison 12 (seqOport w) t gen
        { sp := sp',
          outs := o ++ [(1 - seqOport w, 12, headerFlit { s with node := true } row false s.poison t gen)],
          flags := qf ||| (if s.poison then FPOISON else 0), npoi := if s.poison then a.d + 1 else 0 }

end Sys2Proof.Machine
end

