-- ==== Sys2Proof/Machine/Topk.lean ====
section
/-! DEFINITION. TOPK and the parameter sets and tables of the dispatch unit
(spec/05_sparsity_conditional.md R176 to R184). -/

namespace Sys2Proof.Machine

/-- A dispatch parameter set (R176). -/
structure DspSet where
  desc : Nat
  en : Bool
  k : Nat
  norm : Nat
  predEn : Bool
  e : Nat
  cap : Nat
  srcRank : Nat
  nsrc : Nat
  deriving DecidableEq, Repr

def dspSet (p : Nat) : DspSet :=
  { desc := bitsOf p 39 0, en := p.testBit 40, k := bitsOf p 43 41 + 1, norm := bitsOf p 45 44,
    predEn := p.testBit 46, e := bitsOf p 59 48 + 1, cap := bitsOf p 79 64,
    srcRank := bitsOf p 96 80, nsrc := bitsOf p 120 104 + 1 }

/-- A dispatch descriptor (R177). -/
structure DspDesc where
  etab : Nat
  act : Nat
  rrec : Nat
  cnta : Nat
  grnt : Nat
  stage : Nat
  out : Nat
  ret : Nat
  astride : Nat
  ntok : Nat
  nflit : Nat
  nflitO : Nat
  elocal : Nat
  ccCnt : Nat
  ccGrnt : Nat
  ccStage : Nat
  ccRet : Nat
  posbase : Nat
  deriving DecidableEq, Repr

def dspDesc (b : List Byte) : DspDesc :=
  { etab := rdLE b 0 8, act := rdLE b 8 8, rrec := rdLE b 16 8, cnta := rdLE b 24 8, grnt := rdLE b 32 8,
    stage := rdLE b 40 8, out := rdLE b 48 8, ret := rdLE b 56 8, astride := rdLE b 64 8,
    ntok := rdLE b 72 2, nflit := rdLE b 74 1, nflitO := rdLE b 75 1, elocal := rdLE b 76 2,
    ccCnt := rdLE b 80 1, ccGrnt := rdLE b 81 1, ccStage := rdLE b 82 1, ccRet := rdLE b 83 1,
    posbase := rdLE b 84 3 }

/-- The descriptor of a parameter set as the section load read it. -/
def descOf (sp : Spn) (n : Nat) : DspDesc := dspDesc (tget [] sp.dsp.descs n)

/-- An expert's owner COORD, logical index and local index (R178). -/
def expertOwner (x : Nat) : Nat × Nat × Nat := (bitsOf x 12 0, bitsOf x 16 13, bitsOf x 28 17)

/-- Expert a ranks above expert b (R180). -/
def rankAbove (sa a sb b : Nat) : Bool :=
  let x := decodeF fFP32 sa
  let y := decodeF fFP32 sb
  if x.isNan != y.isNan then y.isNan
  else match fCompare x y with
    | .gt => true
    | .lt => false
    | _ => decide (a < b)

/-- The k best experts not yet taken, best first (R180). -/
def topkSel (s : List Nat) : Nat → List Nat → List Nat
  | 0, _ => []
  | k + 1, taken =>
    let best := s.zipIdx.foldl (fun (b : Option (Nat × Nat)) x =>
      if taken.contains x.2 then b
      else match b with
        | none => some x
        | some y => if rankAbove x.1 x.2 y.1 y.2 then some x else b) none
    match best with
    | none => []
    | some b => b.2 :: topkSel s k (b.2 :: taken)

/-- The weights of the chosen scores, with flags (R181). -/
def topkWeights (norm : Nat) (s : List Nat) : List Nat × Nat :=
  match norm with
  | 1 =>
    let s0 := s.headD 0
    let es := s.map (fun x =>
      let d := sub32 x s0
      let t := mul32 d.1 0x3FB8AA3B
      let e := sfu32 .exp2 t.1
      (e.1, d.2 ||| t.2 ||| e.2))
    let sum := canonSum 4 (es.map (·.1))
    let r := sfu32 .recip sum
    let ws := es.map (fun e => mul32 e.1 r.1)
    (ws.map (·.1), es.foldl (fun f e => f ||| e.2) 0 ||| canonFlags 4 (es.map (·.1)) ||| r.2 |||
      ws.foldl (fun f e => f ||| e.2) 0)
  | 2 =>
    let sum := canonSum 4 s
    let r := sfu32 .recip sum
    let ws := s.map (fun e => mul32 e r.1)
    (ws.map (·.1), canonFlags 4 s ||| r.2 ||| ws.foldl (fun f e => f ||| e.2) 0)
  | _ => (s, 0)

/-- The token key of R179. -/
def tokenKey (coord logical pos : Nat) (excl : Bool) : Nat :=
  (if excl then 1 else 0) + 2 ^ 23 * (pos % 2 ^ 24) + 2 ^ 47 * (logical % 16) + 2 ^ 51 * (coord % 2 ^ 13)

/-- One record entry (R182). -/
def recordEntry (weight expert rank : Nat) (valid : Bool) : Nat :=
  weight % 2 ^ 32 + 2 ^ 32 * (expert % 4096) + (if valid then 2 ^ 44 else 0) + 2 ^ 48 * (rank % 65536)

/-- Tallies raised for the chosen experts, with the ranks given; the expert and choice whose tally would
pass 65,535 (R183). -/
def raiseTallies : List (Nat × BitVec 16) → Nat → List Nat →
    List (Nat × BitVec 16) × List Nat × Option (Nat × Nat)
  | t, _, [] => (t, [], none)
  | t, j, e :: r =>
    let n := tget 0 t (8 * e + j)
    if n = 0xFFFF#16 then (t, [], some (e, j))
    else
      let x := raiseTallies (tset 0 t (8 * e + j) (n + 1)) (j + 1) r
      (x.1, n.toNat :: x.2.1, x.2.2)

/-- Fires a token takes (R180). -/
def topkFires (e : Nat) : Nat := (e + 63) / 64

/-- TOPK (R180 to R183): `pred` is the predicate of a token's first fire under PRED_EN. -/
def fireTopk (c : UCtx) (w : DWord) (f : Flit) (pred : Option Flit) (gen : BitVec 2) (sp : Spn) : URes :=
  let s := dspSet (psetOf sp 34 (seqPset w))
  let d := sp.dsp
  let excl := match pred with
    | some p => !predBit p 0
    | none => if d.scores = [] then false else d.excl
  let fireNo := d.scores.length / 64
  let lanesHere := (List.range 64).map (lane 32 f.data.toNat)
  let used := (List.range 64).filter (fun i => 64 * fireNo + i < s.e)
  let bad := d.spoison || used.any (fun i => f.bad (i / 2))
  let scores := d.scores ++ lanesHere
  if fireNo + 1 < topkFires s.e then
    { sp := { sp with dsp := { d with scores := scores, spoison := bad, excl := excl } } }
  else
    let desc := descOf sp (seqPset w)
    let tag := seqOtag sp w
    let lat := match s.norm with | 0 => 8 | 2 => 12 | _ => 60
    let next : Dsp := { d with scores := [], spoison := false, excl := false, p := d.p + 1 }
    let key := tokenKey c.coord c.logical (desc.posbase + d.p) excl
    if bad then
      { sp := { sp with dsp := next }, outs := [(seqOport w, lat, mkFlit 0 (2 ^ 32 - 1) tag gen 9)],
        flags := FPOISON, npoi := 1 }
    else
      let all := scores.take s.e
      let sel := topkSel all s.k []
      let ws := topkWeights s.norm (sel.map (fun e => (all[e]?).getD 0))
      let t := if excl then (d.tally, sel.map (fun _ => 0), none) else raiseTallies d.tally 0 sel
      match t.2.2 with
      | some (e, j) =>
        { sp := { sp with dsp := { next with tally := t.1 } },
          fault := some (0x0333, BitVec.ofNat 8 34 :: toLE 2 e ++ toLE 1 j) }
      | none =>
        let ents := (List.range sel.length).map (fun j =>
          recordEntry ((ws.1[j]?).getD 0) ((sel[j]?).getD 0) ((t.2.1[j]?).getD 0) (!excl))
        { sp := { sp with dsp := { next with tally := t.1 } },
          outs := [(seqOport w, lat, mkFlit (packLanes 64 (key :: ents)) 0 tag gen 9)], flags := ws.2 }

/-- A job slot (R184): the job joins the queue as an operation in flight. -/
def queueJob (kind : JobKind) (w : DWord) (gen : BitVec 2) (sp : Spn) : URes :=
  let op : OpEnt := { id := 0, kind := .job, gen := gen, fwd := false, sl := 0, tag := 0, cnt := 0,
                      addr := 0, len := 0, left := 1, issued := 0, poison := false, seq := 0 }
  let job : DspJob := { kind := kind, pset := seqPset w, otag := seqOtag sp w, oport := seqOport w,
                        op := sp.nextOp .job }
  { sp := { sp.addOp op with dsp := { sp.dsp with jobs := sp.dsp.jobs ++ [job] } } }

end Sys2Proof.Machine
end

