-- ==== Sys2Proof/Machine/Operands.lean ====
section
/-! DEFINITION. The operand forms: which ports and tags a slot word names, which operation it is, and the
address a memory slot computes (spec/03_spindle.md R82, R83, R92; spec/04_skein.md R124, R133, R134,
R139 to R146; spec/05_sparsity_conditional.md R169; spec/06_long_sequences.md R196). -/

namespace Sys2Proof.Machine

/-- The operation code of a slot word for its unit. -/
def slotOp (u : Nat) (w : DWord) : Nat :=
  match unitKind u with
  | some .tile => slot w 63 60
  | some .vec => slot w 63 58
  | some .sfu => slot w 63 60
  | some .steer => slot w 63 61
  | some .seq => slot w 63 58
  | some .dsp => slot w 63 58
  | some .mem => slot w 63 60
  | _ => 0

/-- The sub-operation of a COMP slot (R141, R169). -/
def slotSub (w : DWord) : Nat := slot w 11 8

/-- The ports and tag fields a slot word names, all but the data port of a steering MERGE (R82, R83). -/
def slotPorts (sp : Spn) (u : Nat) (w : DWord) : List (Nat × Nat) :=
  let op := slotOp u w
  match unitKind u with
  | some .tile =>
    if op = 1 then [(0, slot w 50 42)]
    else if op = 2 then [(1, slot w 50 42)]
    else if op = 6 ∨ op = 7 then [(2, slot w 50 42)] else []
  | some .vec =>
    let a := (0, slot w 49 41)
    let b := (1, slot w 40 32)
    let c := (2, slot w 31 23)
    let p := if slot w 12 12 = 1 then [c] else []
    if op = 1 ∨ op = 2 ∨ op = 3 ∨ op = 5 ∨ op = 6 ∨ op = 7 then [a, b] ++ p
    else if op = 4 then [a, b, c]
    else if op = 10 then
      (if slotSub w = 2 ∨ slotSub w = 4 then p else if slotSub w = 5 then [c] else a :: p)
    else a :: p
  | some .sfu => [(0, slot w 51 43)]
  | some .steer =>
    let a := (0, slot w 60 52)
    let c := (2, slot w 42 34)
    if op = 0 ∨ op = 2 then [a, c] else [c]
  | some .seq =>
    let t (p : Nat) : Nat × Nat := (p, slot w (57 - 9 * p) (49 - 9 * p))
    if op = 1 then [t 0]
    else if op = 2 then [t 0, t 1, t 2, t 3]
    else if op = 3 then [t 0, t 1, t 2]
    else if op = 4 then
      (if 64 < (attnSet (psetOf sp u (seqPset w))).d then [t 0, t 1, t 2] else [t 0, t 2])
    else [t 2]
  | some .dsp =>
    if op = 1 then
      (if (dspSet (psetOf sp 34 (seqPset w))).predEn && sp.dsp.scores == [] then
        [(0, slot w 57 49), (1, slot w 48 40)] else [(0, slot w 57 49)])
    else []
  | some .mem =>
    let t := slot w 38 30
    (if op = 2 ∨ op = 4 ∨ op = 5 ∨ op = 7 then [(0, t)] else []) ++
      (if slot w 8 8 = 1 then [(1, t)] else [])
  | _ => []

/-- The ports and tags a slot consumes, with the data port a steering MERGE's predicate selects (R83). -/
def slotTokens (sp : Spn) (toks : List StoreEnt) (u : Nat) (w : DWord) : List (Nat × BitVec 8) :=
  let l := (slotPorts sp u w).map (fun p => (p.1, tagOf sp p.2))
  if unitKind u = some .steer ∧ slotOp u w = 1 then
    match findTok toks u 2 (tagOf sp (slot w 42 34)) with
    | some c => if (ctlBad c 0).isSome then l
                else if predBit c 0 then l ++ [(0, tagOf sp (slot w 60 52))]
                else l ++ [(1, tagOf sp (slot w 51 43))]
    | none => l
  else l

/-- Address register `a` of a memory unit: base, logical stride, iteration strides (R124). -/
def areg (sp : Spn) (u a : Nat) : Nat × Int × List Int :=
  let b := settingsOf sp u
  let o := 32 * a
  (rdLE b o 8 % 2 ^ 40, sext 32 (rdLE b (o + 8) 4), (List.range 4).map (fun d => sext 32 (rdLE b (o + 16 + 4 * d) 4)))

/-- The address of a memory slot (R134); `ain` is word 0 of the address token. -/
def slotAddr (sp : Spn) (logical u : Nat) (w : DWord) (ain : Nat) : Nat :=
  let r := areg sp u (slot w 59 57)
  let it := (r.2.2.zipIdx).foldl (fun (a : Int) x => a + x.1 * (iterAt sp x.2 : Int)) 0
  let v : Int := (r.1 : Int) + (logical : Int) * r.2.1 + it + sext 16 (slot w 56 41) * 256 +
    (if slot w 8 8 = 1 then ((ain % 2 ^ 40 : Nat) : Int) else 0)
  (v % ((2 ^ 40 : Nat) : Int)).toNat

end Sys2Proof.Machine
end

