-- ==== Sys2Proof/Machine/MemUnit.lean ====
section
/-! DEFINITION. The memory units and sluices of a spindle (spec/03_spindle.md R86 to R93; spec/04_skein.md
R145, R146; spec/08_on_die_interconnect.md R272 to R278). -/

namespace Sys2Proof.Machine

/-- Operations in flight as R93 counts them; a receive is none of them (R261). -/
def Spn.inFlight (x : Spn) : List OpEnt := x.ops.filter (fun o => decide (o.kind ≠ .recv))

/-- Raises SPN_OPS.PEAK and SPN_SLUICE_ST.PEAK to the present occupancy (R113). -/
def State.peaks (s : State) (ps : Nat) : State :=
  let x := s.spn ps
  let s := s.maxField (Reg.SPN_OPS ps) 26 16 x.inFlight.length
  (List.range 4).foldl (fun s n =>
    s.maxField (Reg.SPN_SLUICE_ST ps n) 22 16 (x.sluice.countP (fun e => e.sl == n))) s

/-- Reserves entries of a sluice under consecutive tags for the operation about to be added (R86, R87). -/
def Spn.reserve (x : Spn) (sl : Nat) (tag : BitVec 8) (gen : BitVec 2) (n id : Nat) : Spn :=
  { x with sluice := x.sluice ++ (List.range n).map (fun i =>
      { sl := sl, tag := tag + BitVec.ofNat 8 i, gen := gen, filled := false, flit := {}, op := id }) }

/-- A reservation of `n` consecutive tags meets an entry of the sluice (R86): the first tag that does. -/
def Spn.dupReserve (x : Spn) (sl : Nat) (tag : BitVec 8) (gen : BitVec 2) (n : Nat) : Option (BitVec 8) :=
  ((List.range n).map (fun i => tag + BitVec.ofNat 8 i)).find? (fun t =>
    x.sluice.any (fun e => e.sl == sl && e.tag == t && e.gen == gen))

/-- A blank operation. -/
def newOp (kind : OpKind) (gen : BitVec 2) (now : DWord) : OpEnt :=
  { id := 0, kind := kind, gen := gen, fwd := false, sl := 0, tag := 0, cnt := 0, addr := 0, len := 0,
    left := 1, issued := now, poison := false, seq := 0 }

/-- The flit of a message taken by a RECV (R273). -/
def recvFlit (m : ChanMsg) : Flit :=
  let w (i : Nat) : Nat := ((m.words[i]?).getD 0).toNat
  let d := packLanes 32 [w 0, w 1, w 2, w 3] + m.seq.toNat * 2 ^ 128 + (m.words.length - 1) * 2 ^ 144
  let b (i : Nat) : Bool := m.poison.toNat.testBit i
  { data := BitVec.ofNat 2048 d, pword := (if b 0 || b 1 then 1 else 0) + (if b 2 || b 3 then 2 else 0),
    ctl := false, nw := 2 }

/-- The message at the head of a queue, if it is deliverable (R272). -/
def InQueue.ready (q : InQueue) : Option ChanMsg := q.held.find? (fun m => m.seq == q.head)

/-- Delivers the head message of queue `q` to receive `op` (R87, R273, R274): the entry fills, the credit
returns, CHN_RCVD counts. -/
def State.deliver (s : State) (ps q op : Nat) (m : ChanMsg) : State :=
  let x := s.spn ps
  let iq := tget {} x.inq q
  let iq := { iq with head := iq.head + 1, held := iq.held.filter (fun k => decide (k.seq ≠ m.seq)),
                      posted := iq.posted.filter (fun o => decide (o ≠ op)) }
  let x := { x with
    inq := tset {} x.inq q iq
    sluice := x.sluice.map (fun e => if e.op = op ∧ e.filled = false then
      { e with filled := true, flit := { recvFlit m with tag := e.tag, gen := e.gen } } else e)
    ops := x.ops.filter (fun o => decide (o.id ≠ op)) }
  let s := (s.setSpn ps x).sat (Reg.CHN_RCVD ps q) 1
  match iq.bind with
  | none => s
  | some b => s.sendChan .credit s.runCtx (s.ownEnd (s.logicalN ps) q) b noMsg 0

/-- Nothing more can come to the queue: it is CLOSED, or ENDED with every message before its end marker delivered
(R277, R278). -/
def InQueue.drained (iq : InQueue) : Bool :=
  match iq.st with
  | .closed => true
  | .ended => iq.endAt.all (fun e => e == iq.head)
  | _ => false

/-- Fills posted receives while messages are deliverable; a queue that can deliver nothing more fills
them with poison (R87, R278). -/
def State.pumpQueue : Nat → State → Nat → Nat → State
  | 0, s, _, _ => s
  | n + 1, s, ps, q =>
    let iq := tget {} (s.spn ps).inq q
    match iq.posted with
    | [] => s
    | op :: _ =>
      match iq.ready with
      | some m => State.pumpQueue n (s.deliver ps q op m) ps q
      | none => if iq.drained then s.modSpn ps (fun x => x.starveQueue q) else s

/-- A completion counter (R145). -/
def Spn.counter (x : Spn) (c : Nat) : Nat := (tget 0 x.counters c).toNat

/-- Fills the first WATCH whose counter has reached its count, and clears the counter (R145, R259); the
flit's data is a free value, the manual giving it no content (log 24). -/
def State.fillWatch (s : State) (ps c : Nat) : State :=
  let x := s.spn ps
  match x.ops.find? (fun o => o.kind == .watch && o.cnt == c && decide (o.len ≤ x.counter c)) with
  | none => s
  | some o =>
    let bad := x.cpoison.contains c
    let v := s.free
    let f : Flit := if bad then poisonFlit else { data := BitVec.ofNat 2048 v.1, ctl := false }
    v.2.setSpn ps { x with
      sluice := x.sluice.map (fun e => if e.op = o.id ∧ e.filled = false then
        { e with filled := true, flit := { f with tag := e.tag, gen := e.gen } } else e)
      ops := x.ops.filter (fun p => decide (p.id ≠ o.id))
      counters := tset 0 x.counters c 0
      cpoison := x.cpoison.filter (fun k => decide (k ≠ c)) }

/-- Raises a completion counter, marking it where the acknowledgement carried poison (R145, R259). -/
def State.raiseCounter (s : State) (ps c n : Nat) (poison : Bool) : State :=
  let s := s.modSpn ps (fun x =>
    { x with
      counters := tset 0 x.counters c (BitVec.ofNat 32 (x.counter c + n))
      cpoison := if poison && !x.cpoison.contains c then x.cpoison ++ [c] else x.cpoison })
  s.fillWatch ps c

/-- The words a SEND takes from its token, with their poison (R273). -/
def sendMsg (f : Flit) (n : Nat) (seq : BitVec 16) : ChanMsg :=
  { seq := seq
    words := (List.range n).map (fun i => BitVec.ofNat 32 (lane 32 f.data.toNat i))
    poison := BitVec.ofNat 4 ((List.range n).foldl (fun a i => if f.bad (i / 2) then a + 2 ^ i else a) 0) }

/-- BREAD and BWRITE reach the unit's own bank alone (R92, R145): the key of the line. -/
def State.ownLine (s : State) (ps logical u addr : Nat) : Option Nat :=
  match s.loc addr with
  | .sram l o => if l = logical ∧ o / 0x300000 = u - 35 then some (sramKey ps (o - o % 256)) else none
  | _ => none

def evBytes (data : List Byte) : List (Nat × Nat × Nat) :=
  data.zipIdx.map (fun x => (16 + x.2, 1, x.1.toNat))

/-- The selectors of an n-of-m mask with exactly two bits set: lower then higher; none otherwise (R166). -/
def maskSel (width m : Nat) : Option (Nat × Nat) :=
  match (List.range width).filter (fun i => m.testBit i) with
  | [a, b] => some (a, b)
  | _ => none

/-- Metadata decode of a bank line: data, poison marks and how many masks are invalid (R166). -/
def maskDecode (dec d pw : Nat) : Nat × Nat × Nat :=
  let four := dec = 1
  let sets := if four then 4 else 2
  let mw := if four then 4 else 8
  let sw := if four then 2 else 4
  (List.range (sets * 128)).foldl (fun (a : Nat × Nat × Nat) i =>
    let g := i / 128
    let n := i % 128
    let off := 128 * mw * g + mw * n
    let bad := pw.testBit (off / 64)
    let o0 := 128 * sw * (2 * g) + sw * n
    let o1 := 128 * sw * (2 * g + 1) + sw * n
    match maskSel mw (lane mw (d >>> (128 * mw * g)) n) with
    | some (x, y) =>
      (a.1 + x * 2 ^ o0 + y * 2 ^ o1, if bad then a.2.1 ||| 2 ^ (o0 / 64) ||| 2 ^ (o1 / 64) else a.2.1, a.2.2)
    | none =>
      (a.1, a.2.1 ||| 2 ^ (o0 / 64) ||| 2 ^ (o1 / 64), if bad then a.2.2 else a.2.2 + 1)) (0, 0, 0)

/-- Invalid masks of a BREAD: counted, and event 0x0331 once in a section (R166). -/
def State.maskErrors (s : State) (ps u n : Nat) : State :=
  if n = 0 then s
  else
    let s := s.sat (Reg.SPN_SPARSE_ERR ps) n
    let x := s.spn ps
    if x.maskErr then s
    else (s.setSpn ps { x with maskErr := true }).event 0x0331 (unitId 0 ps) 1 [(16, 1, u), (17, 4, n)]

/-- BREAD (R92, R145, R166). -/
def State.fireBread (s : State) (c : UCtx) (u : Nat) (w : DWord) (t1 : Option Flit) (f : Flips) : State :=
  let x := s.spn c.ps
  let a := slotAddr x c.logical u w ((t1.map (fun t => t.word 0)).getD 0)
  let tag := tagOf x (slot w 38 30)
  match s.ownLine c.ps c.logical u a with
  | none => s.spnFault c.ps 0x0322 u tag.toNat [(16, 1, u), (17, 5, a)]
  | some k =>
    let r := State.readWords 32 s k srcRead f
    let dec := slot w 7 5
    let m := if dec = 0 then (leNat r.1, r.2.1, 0) else maskDecode dec (leNat r.1) r.2.1
    let fl := mkFlit m.1 m.2.1 tag (s.gen c.ps) 32
    (r.2.2.2.maskErrors c.ps u m.2.2).modSpn c.ps (fun x => { x with pipe := x.pipe ++ [{ unit := u, port := 0, left := 3, out := some fl }] })

/-- BWRITE (R92, R145). -/
def State.fireBwrite (s : State) (c : UCtx) (u : Nat) (w : DWord) (t0 : Flit) (t1 : Option Flit) (f : Flips) : State :=
  let x := s.spn c.ps
  let a := slotAddr x c.logical u w ((t1.map (fun t => t.word 0)).getD 0)
  match s.ownLine c.ps c.logical u a with
  | none => s.spnFault c.ps 0x0322 u (tagOf x (slot w 38 30)).toNat [(16, 1, u), (17, 5, a)]
  | some k => s.writeKey 33 k 0 (toLE 256 t0.data.toNat) t0.pword.toNat f

/-- Issues an operation that reserves `n` entries of its sluice; a duplicate faults the context (R86). -/
def State.issueReserved (s : State) (ps sl : Nat) (tag : BitVec 8) (gen : BitVec 2) (n : Nat) (o : OpEnt)
    (k : State → Nat → State) : State :=
  let x := s.spn ps
  match x.dupReserve sl tag gen n with
  | some t => s.spnFault ps 0x0311 (51 + sl) t.toNat [(16, 1, 51 + sl), (17, 1, 0xFF), (18, 1, t.toNat)]
  | none =>
    let id := x.nextOp o.kind
    k ((s.setSpn ps ((x.reserve sl tag gen n id).addOp { o with sl := sl, tag := tag, left := n })).peaks ps) id

/-- RD (R87, R93, R145). -/
def State.fireRd (s : State) (c : UCtx) (u : Nat) (w : DWord) (t1 : Option Flit) : State :=
  let x := s.spn c.ps
  let a := slotAddr x c.logical u w ((t1.map (fun t => t.word 0)).getD 0)
  let len := slot w 28 17 + 1
  let fwd := slot w 29 29 = 1
  let g := s.gen c.ps
  s.issueReserved c.ps (slot w 40 39) (tagOf x (slot w 38 30)) (if fwd then g + 1 else g) ((len + 255) / 256)
    { newOp .read g s.now with fwd := fwd, addr := a, len := len }
    (fun s id => s.send (.req { src := .spindle c.ps, op := id, kind := .read, addr := a, len := len, data := [], poison := 0 }))

/-- WR (R93, R145).  A length beyond the 256 bytes of its token writes those 256: DESIGN CHOICE (log 163). -/
def State.fireWr (s : State) (c : UCtx) (u : Nat) (w : DWord) (t0 : Flit) (t1 : Option Flit) : State :=
  let x := s.spn c.ps
  let a := slotAddr x c.logical u w ((t1.map (fun t => t.word 0)).getD 0)
  let len := slot w 28 17 + 1
  let id := x.nextOp .write
  let o := { newOp .write (s.gen c.ps) s.now with cnt := slot w 16 9, addr := a, len := len }
  ((s.setSpn c.ps (x.addOp o)).peaks c.ps).send
    (.req { src := .spindle c.ps, op := id, kind := .write, addr := a, len := len
            data := (toLE 256 t0.data.toNat).take len, poison := t0.pword.toNat })

/-- ATOM (R87, R93, R145). -/
def State.fireAtom (s : State) (c : UCtx) (u : Nat) (w : DWord) (t0 : Flit) (t1 : Option Flit) : State :=
  let x := s.spn c.ps
  let a := slotAddr x c.logical u w ((t1.map (fun t => t.word 0)).getD 0)
  let aop := slot w 7 5
  let n := if aop = 2 then 16 else 8
  let g := s.gen c.ps
  s.issueReserved c.ps (slot w 40 39) (tagOf x (slot w 38 30)) g 1
    { newOp (.atom) g s.now with cnt := slot w 16 9, addr := a, len := n }
    (fun s id => s.send (.req
      { src := .spindle c.ps, op := id, kind := .atom aop, addr := a, len := n
        data := (toLE 256 t0.data.toNat).take n, poison := t0.pword.toNat % (if aop = 2 then 4 else 2) }))

/-- The words of the stored message a RECV takes, decoded (R246); a message that meets a waiting RECV is not stored. -/
def ChanMsg.settle (m : ChanMsg) (ps q : Nat) (f : Flips) : ChanMsg :=
  let x := settleWords 2 (queueKey ps q m.seq.toNat) f
    (packLanes 32 ((List.range 4).map (fun i => ((m.words[i]?).getD 0).toNat)),
     (List.range 2).foldl (fun a i => if bitsOf m.poison.toNat (2 * i + 1) (2 * i) = 0 then a else a + 2 ^ i) 0)
  if f = [] then m
  else { m with words := (List.range m.words.length).map (fun i => BitVec.ofNat 32 (lane 32 x.1 i))
                poison := BitVec.ofNat 4 ((List.range m.words.length).foldl (fun a i =>
                  if m.poison.toNat.testBit i || (x.2.testBit (i / 2) && bitsOf m.poison.toNat (i / 2 * 2 + 1) (i / 2 * 2) == 0)
                  then a + 2 ^ i else a) 0) }

/-- RECV (R87, R246, R273, R277). -/
def State.fireRecv (s : State) (c : UCtx) (w : DWord) (f : Flips) : State :=
  let x := s.spn c.ps
  let g := s.gen c.ps
  let q := slot w 16 9 % 64
  s.issueReserved c.ps (slot w 40 39) (tagOf x (slot w 38 30)) g 1 { newOp .recv g s.now with cnt := q }
    (fun s id =>
      let s := s.modSpn c.ps (fun x =>
        let iq := tget {} x.inq q
        let held := iq.held.map (fun m => if m.seq = iq.head then m.settle c.ps q f else m)
        { x with inq := tset {} x.inq q { iq with posted := iq.posted ++ [id], held := held } })
      s.pumpQueue 33 c.ps q)

/-- SEND (R273, R274, R277). -/
def State.fireSend (s : State) (c : UCtx) (u : Nat) (w : DWord) (t0 : Flit) : State :=
  let x := s.spn c.ps
  let ch := slot w 16 9 % 64
  let oc := tget {} x.outq ch
  match oc.st with
  | .opened =>
    let n := (slot w 28 17 + 1) / 4
    let id := x.nextOp .send
    let x := x.addOp { newOp .send (s.gen c.ps) s.now with cnt := ch, seq := oc.seq.toNat }
    let x := { x with outq := tset {} x.outq ch { oc with seq := oc.seq + 1, credits := oc.credits - 1 } }
    let s := (s.setSpn c.ps x).peaks c.ps
    (match oc.bind with
     | none => s
     | some b =>
       let s := if b.remote then { s with fab := { s.fab with ops := s.fab.ops ++
           [{ sep := c.logical, op := opIdOf id, type := 4, dcoord := b.coord, dep := b.logical, first := s.now, who := .send c.ps id }] } }
         else s
       s.sendChan .message s.runCtx (s.ownEnd c.logical ch) b (sendMsg t0 n oc.seq) id)
  | _ =>
    if oc.strict then s.spnFault c.ps 0x0401 u t0.tag.toNat [(16, 1, ch), (17, 1, c.logical)]
    else
      let s := s.sat (Reg.CHN_DROP c.ps ch) 1
      if oc.dropTold then s
      else (s.setSpn c.ps { x with outq := tset {} x.outq ch { oc with dropTold := true } }).event 0x0402
        (unitId 0 c.ps) 1 [(16, 1, ch), (17, 1, c.logical)]

/-- WATCH (R145). -/
def State.fireWatch (s : State) (c : UCtx) (w : DWord) : State :=
  let x := s.spn c.ps
  let g := s.gen c.ps
  s.issueReserved c.ps (slot w 40 39) (tagOf x (slot w 38 30)) g 1
    { newOp .watch g s.now with cnt := slot w 16 9, len := slot w 56 41 }
    (fun s _ => s.fillWatch c.ps (slot w 16 9))

/-- The words of a sluice entry's flit decoded (R246). -/
def Flit.settle (x : Flit) (k : Nat) (f : Flips) : Flit :=
  if f = [] then x
  else
    let r := settleWords 32 k f (x.data.toNat, x.pword.toNat)
    { x with data := BitVec.ofNat 2048 r.1, pword := BitVec.ofNat 32 r.2 }

/-- One release of a sluice slot: the entry leaves on an output port, decoded, and poison in it is consumed
(R88, R246, R425, R426). -/
def State.release (s : State) (c : UCtx) (u port : Nat) (tag : BitVec 8) (carry : Bool) (f : Flips) : State :=
  let x := s.spn c.ps
  match x.sluice.find? (fun e => e.sl == u - 51 && e.tag == tag && e.gen == s.gen c.ps && e.filled) with
  | none => s
  | some e0 =>
    let x := { x with sluice := x.sluice.erase e0 }
    let e : SlEnt := { e0 with flit := e0.flit.settle (sluiceKey c.ps e0.sl e0.gen.toNat e0.tag.toNat) f }
    if e.flit.pword ≠ 0 && !carry then
      (s.setSpn c.ps x).spnFault c.ps 0x070A u tag.toNat [(16, 1, u), (17, 1, c.logical), (18, 1, tag.toNat)]
    else
      let x := { x with pipe := x.pipe ++ [{ unit := u, port := port, left := 1, out := some e.flit }] }
      let s := s.setSpn c.ps x
      if e.flit.pword ≠ 0 then s.wr (Reg.SPN_NUM_FLAGS c.ps) (s.rd (Reg.SPN_NUM_FLAGS c.ps) ||| FPOISON) else s

/-- A sluice slot: up to one release per output port (R88, R146). -/
def State.fireSluice (s : State) (c : UCtx) (u : Nat) (w : DWord) (carry : Bool) (f : Flips) : State :=
  let x := s.spn c.ps
  let s := if slot w 63 63 = 1 then s.release c u 0 (tagOf x (slot w 62 54)) carry f else s
  if slot w 53 53 = 1 ∧ s.spnState c.ps ≠ 0 then s.release c u 1 (tagOf x (slot w 52 44)) carry f else s

end Sys2Proof.Machine
end

