-- ==== Sys2Proof/Machine/Flags.lean ====
section
/-! DEFINITION. Flag computations: the numeric flags of a spindle and what one fire leaves in the state
(spec/02_numerics.md R71, R72; spec/11_determinism.md R359). -/

namespace Sys2Proof.Machine

/-- Sets numeric flags of a spindle; they are sticky (R71). -/
def State.numFlags (s : State) (ps fl : Nat) : State :=
  if fl = 0 then s else s.wr (Reg.SPN_NUM_FLAGS ps) (s.rd (Reg.SPN_NUM_FLAGS ps) ||| fl)

/-- Reserved-stream requests: DET_RNG_RSV counts them, event 0x0A43 once per context (R359). -/
def State.rngReserved (s : State) (ps u n : Nat) : State :=
  if n = 0 then s
  else
    let s := s.sat Reg.DET_RNG_RSV n
    match s.runningSlot with
    | none => s
    | some x =>
      if x.rsvSeen then s
      else (s.setSlot s.runSlot (some { x with rsvSeen := true })).event 0x0A43 (unitId 0 ps) 1
        [(16, 1, u), (17, 2, s.runCtx)]

/-- Counters of the SPN block a fire raises, each stopping at 0xFFFF_FFFF (R173). -/
def State.spnCounts (s : State) (ps : Nat) (l : List (Nat × Nat)) : State :=
  l.foldl (fun s c => s.sat (0x2000000 + 0x100000 * ps + c.1) c.2) s

/-- Notice events of a fire, about the physical spindle. -/
def State.spnNotes (s : State) (ps : Nat) (l : List (Nat × List Byte)) : State :=
  l.foldl (fun s n => s.event n.1 (unitId 0 ps) 1 (evBytes n.2)) s

/-- The pipeline entries of a fire (R73); a FIN or SPILL keeps the row it took (R211). -/
def firePipe (u : Nat) (row : Option Nat) (r : URes) : List PipeEnt :=
  r.outs.map (fun o => { unit := u, port := o.1, left := o.2.1, out := some o.2.2, row := row }) ++
    (match r.upd with
     | some n => [{ unit := u, port := 0, left := n, out := none }]
     | none => [])

/-- The state after a fire of unit `u` that gave `r` (R71, R112); `tag` is the tag a fault names (R113). -/
def State.applyRes (s : State) (ps u tag : Nat) (row : Option Nat) (r : URes) : State :=
  let s := s.setSpn ps { r.sp with pipe := r.sp.pipe ++ firePipe u row r }
  let s := s.numFlags ps r.flags
  let s := s.sat (Reg.SPN_NUM_POISON_CNT ps) r.npoi
  let s := s.spnCounts ps r.cnts
  let s := s.spnNotes ps r.notes
  let s := s.rngReserved ps u r.rsv
  match r.fault with
  | none => s
  | some f => s.spnFault ps f.1 u tag (evBytes f.2)

end Sys2Proof.Machine
end

