-- ==== Sys2Proof/Machine/Steer.lean ====
section
/-! DEFINITION. The steering operations (spec/03_spindle.md R83 to R85, spec/04_skein.md R132, R143). -/

namespace Sys2Proof.Machine

/-- The tag of a steering output: OTAG where NEWTAG is set, else the consumed control token's (log 15). -/
def steerTag (sp : Spn) (w : DWord) (ctl : Flit) : BitVec 8 :=
  if slot w 33 33 = 1 then tagOf sp (slot w 32 24) else ctl.tag

/-- A steering fire that produces tokens after one cycle. -/
def steerOut (sp : Spn) (outs : List (Nat × Flit)) : URes :=
  let n := (outs.filter (fun o => o.2.anyBad)).length
  { sp := sp, outs := outs.map (fun o => (o.1, 1, o.2)), flags := if n = 0 then 0 else FPOISON, npoi := n }

/-- SWITCH (R83). -/
def fireSwitch (w : DWord) (a ctl : Flit) (gen : BitVec 2) (sp : Spn) : URes :=
  steerOut sp [(if predBit ctl 0 then 0 else 1, { a with tag := steerTag sp w ctl, gen := gen })]

/-- Steering MERGE, given the token its predicate selects (R83). -/
def fireSteerMerge (w : DWord) (sel ctl : Flit) (gen : BitVec 2) (sp : Spn) : URes :=
  steerOut sp [(0, { sel with tag := steerTag sp w ctl, gen := gen })]

/-- GATE: 64 positions of 4 bytes; nothing where every position is disabled (R83). -/
def fireGate (w : DWord) (a ctl : Flit) (gen : BitVec 2) (sp : Spn) : URes :=
  if (List.range 64).any (predBit ctl) then
    let f := maskFlit a 32 (some ctl)
    steerOut sp [(0, { f with tag := steerTag sp w ctl, gen := gen })]
  else { sp := sp }

/-- A predicate with every bit of words 1 to NWORDS complemented (R83). -/
def complementPred (f : Flit) : Flit :=
  let m := (2 ^ (64 * f.nw.toNat) - 1) * 2 ^ 64
  { f with data := BitVec.ofNat 2048 (f.data.toNat ^^^ m) }

/-- SPLIT (R83). -/
def fireSplit (w : DWord) (ctl : Flit) (gen : BitVec 2) (sp : Spn) : URes :=
  let t := steerTag sp w ctl
  steerOut sp [(0, { ctl with tag := t, gen := gen }),
               (1, { complementPred ctl with tag := t, gen := gen })]

/-- COUNT: the trip count goes to the trip store under the steering unit and the consumed tag, with a
copy on output 0 (R83, R132). -/
def fireCount (u : Nat) (w : DWord) (ctl : Flit) (gen : BitVec 2) (sp : Spn) : URes :=
  if 16 ≤ sp.trips.length ∨ sp.trips.any (fun t => t.steer == u && t.tag == ctl.tag) = true then
    uFault sp 0x0324 [0, u, ctl.tag.toNat]
  else
    steerOut { sp with trips := sp.trips ++ [⟨u, ctl.tag, BitVec.ofNat 32 (ctl.word 0)⟩] }
      [(0, { ctl with tag := steerTag sp w ctl, gen := gen })]

end Sys2Proof.Machine
end

