-- ==== Sys2Proof/Machine/Tile.lean ====
section
/-! DEFINITION. The matrix tile operations (spec/02_numerics.md R48 to R59, spec/04_skein.md R139, R140,
R590, R591, spec/05_sparsity_conditional.md R159 to R168). -/

namespace Sys2Proof.Machine

/-- A matrix factor: its value, or poison. -/
inductive Factor where
  | poison
  | val (v : FVal)
  deriving DecidableEq, Repr

/-- Element `i` of an activation vector with bit offset `off` in the flit, `w` bits wide. -/
def actElem (f : Flit) (fmt off : Nat) : Factor :=
  if f.bad (off / 64) || f.bad ((off + fmtBits fmt - 1) / 64) then .poison
  else .val (decodeElem fmt ((f.data.toNat >>> off) % 2 ^ fmtBits fmt))

/-- Bit offset of element `i` of the activation vector a MAC takes (R140, R161). -/
def actOff (fmt h spm i : Nat) : Nat :=
  if 1 ≤ spm ∧ spm ≤ 3 then 8 * i
  else match fmt with
  | 1 => 16 * i
  | 4 => 8 * i
  | 5 => 8 * i
  | 6 => 6 * i
  | 7 => 6 * i
  | 8 => 512 * h + 4 * i
  | _ => 1024 * h + 8 * i

/-- Byte of the scale of block `b` of an MX activation vector (R140). -/
def actScaleByte (fmt h b : Nat) : Nat :=
  if fmt = 8 then 248 + 4 * h + b else 252 + b

/-- The stationary row `r` of a tile. -/
def Tile.row (t : Tile) (r : Nat) : StatRow := tget {} t.rows r

def StatRow.bad (r : StatRow) (k : Nat) : Bool := r.pword.toNat.testBit k
def StatRow.bits (r : StatRow) (off w : Nat) : Nat := (r.data.toNat >>> off) % 2 ^ w

/-- A stationary element held at a row and a bit offset. -/
def statElem (t : Tile) (fmt row off : Nat) : Factor :=
  let r := t.row row
  if r.bad (off / 64) || r.bad ((off + fmtBits fmt - 1) / 64) then .poison
  else .val (decodeElem fmt (r.bits off (fmtBits fmt)))

/-- The weight at physical row `r` and column `n` of a plain, INT8 or BF16 operand (R139, R161). -/
def plainElem (t : Tile) (fmt r n : Nat) : Factor :=
  if fmt = 1 then statElem t fmt r (16 * n)
  else statElem t fmt (r / 2) (1024 * (r % 2) + 8 * n)

/-- The selector of physical row `r` and column `n`: its value and whether its word is poisoned. -/
def selector (t : Tile) (spm r n : Nat) : Nat × Bool :=
  if spm = 3 then
    let row := t.row (64 + r / 4)
    let off := 512 * (r % 4) + 4 * n
    (row.bits off 4, row.bad (off / 64))
  else
    let row := t.row (64 + r / 8)
    let off := 256 * (r % 8) + 2 * n
    (row.bits off 2, row.bad (off / 64))

/-- The flit that holds the selectors of physical row `r` (R161). -/
def selectorRow (t : Tile) (spm r : Nat) : StatRow :=
  t.row (if spm = 3 then 64 + r / 4 else 64 + r / 8)

/-- The selector pair holding physical row `r` and column `n` is invalid (R162, R164).  A selector row not yet loaded
holds the invalid pair of two zeros; where the weights are not loaded either, they are zero weights and form terms of
value 0 (R165). -/
def pairBad (t : Tile) (spm r n : Nat) : Bool :=
  if spm = 2 || !((selectorRow t spm r).loaded || (t.row (r / 2)).loaded) then false
  else
    let a := (selector t spm (2 * (r / 2)) n).1
    let b := (selector t spm (2 * (r / 2) + 1) n).1
    if spm = 3 then decide (7 < a) || decide (7 < b) || decide (b ≤ a) else decide (b ≤ a)

/-- Index of the activation element that the weight at row `r` multiplies (R162). -/
def sparseK (spm h r sel : Nat) : Nat :=
  match spm with
  | 1 => 4 * (r / 2) + sel
  | 2 => 4 * (r - 64 * h) + sel
  | _ => 8 * ((r - 64 * h) / 2) + sel

/-- The physical rows a sparse MAC uses (R159). -/
def sparseRows (spm h : Nat) : List Nat :=
  if spm = 1 then List.range 128 else (List.range 64).map (· + 64 * h)

/-- A product's term, poisoned where a factor is (R69 rule 4). -/
def factorTerm (a b : Factor) : Term :=
  match a, b with
  | .val x, .val y => prodTerm x y
  | _, _ => .poison

/-- One column's terms of a 2:4, 1:4 or 2:8 MAC (R163). -/
def sparseTerms (t : Tile) (f : Flit) (afmt bfmt spm h n : Nat) : List Term :=
  (sparseRows spm h).map (fun r =>
    let s := selector t spm r n
    if s.2 || pairBad t spm r n then .poison
    else factorTerm (actElem f afmt (8 * sparseK spm h r s.1)) (plainElem t bfmt r n))

/-- Bytes per block row, rows per flit and flits per block under SPM 4 (R167). -/
def blockGeom (fmt : Nat) : Nat × Nat × Nat :=
  match fmt with
  | 4 => (33, 7, 5)
  | 5 => (33, 7, 5)
  | 6 => (25, 10, 4)
  | 7 => (25, 10, 4)
  | _ => (32, 8, 4)

/-- The block mask of the header flit (R167). -/
def blockMask (t : Tile) : Nat := (t.row 0).bits 0 16

def popcount (n : Nat) : Nat → Nat
  | 0 => 0
  | b + 1 => popcount n b + (if n.testBit b then 1 else 0)

/-- Where row `i` (0–31) of block `4b + c` lies: LOADW row and byte offset (R167). -/
def blockRow (t : Tile) (fmt b c i : Nat) : Nat × Nat :=
  let (bpr, rpf, nf) := blockGeom fmt
  let j := popcount (blockMask t) (4 * b + c)
  (1 + nf * j + i / rpf, bpr * (i % rpf))

/-- A weight of an MX or dense operand with its scale exponent, none for a NaN scale. -/
structure MxFactor where
  elem : Factor
  scale : Option Int
  deriving DecidableEq, Repr

/-- An MX scale byte held in a stationary row. -/
def statScale (t : Tile) (row byte : Nat) : Factor × Option Int :=
  let r := t.row row
  (if r.bad (byte / 8) then .poison else .val (.fin false ⟨0, 0⟩), scaleExp (r.bits (8 * byte) 8))

/-- The stationary MX factor at K row `k` and column `n`: under SPM 4 each block row has its scale (R167); a dense operand
has one for each block of 32 K rows and column (R46; log 9). -/
def mxStat (t : Tile) (fmt spm k n : Nat) : MxFactor :=
  let (e, s) :=
    if spm = 4 then
      let p := blockRow t fmt (k / 32) (n / 32) (k % 32)
      (statElem t fmt p.1 (8 * p.2 + fmtBits fmt * (n % 32)), statScale t p.1 (p.2 + 4 * fmtBits fmt))
    else
      let e := Config.mxDenseElem fmt k n
      let s := Config.mxDenseScale fmt (k / 32) n
      (statElem t fmt e.1 (e.2 % 2048), statScale t s.1 (s.2 % 256))
  match e, s with
  | .val v, (.val _, x) => ⟨.val v, x⟩
  | _, (_, x) => ⟨.poison, x⟩

/-- The term of one block of 32 products (R50, R52): each stationary element comes under its scale, one for the whole
block in a dense operand and one for each block row under SPM 4 (log 10).  A NaN scale makes every element of its block
NaN (R46), so it leaves INV clear. -/
def mxBlockTerm (scaleA : Option Int) (poisonA : Bool) (ps : List (Factor × MxFactor)) : Term :=
  if poisonA || ps.any (fun p => p.1 == .poison || p.2.elem == .poison) then .poison
  else
    let s := ps.foldl (fun s p => match p.1, p.2.elem with
      | .val a, .val b =>
        let b' : FVal := match p.2.scale, b with
          | none, _ => .nan
          | some x, .fin n d => .fin n ⟨d.man, d.exp + x⟩
          | some _, v => v
        blockStep s (a, b')
      | _, _ => s) ({} : BlockSum)
    let both := s.pinf && s.ninf
    match scaleA with
    | none => .nan false
    | some x =>
      if s.nan || both then .nan (s.inv || both)
      else if s.pinf then .pinf
      else if s.ninf then .ninf
      else .fin ⟨s.sum.man, s.sum.exp + x⟩

/-- Block row `b` and block column of column `n` present under SPM 4. -/
def blockPresent (t : Tile) (spm b n : Nat) : Bool :=
  spm != 4 || (blockMask t).testBit (4 * b + n / 32)

/-- The header's mask is poisoned under SPM 4: every term is then poisoned (log 11). -/
def maskPoison (t : Tile) (spm : Nat) : Bool := spm == 4 && (t.row 0).bad 0

/-- One column's terms of a dense or block-sparse MAC (R50, R168). -/
def denseTerms (t : Tile) (f : Flit) (afmt spm h n : Nat) : List Term :=
  if maskPoison t spm then (List.range (if isMX afmt then 4 else 128)).map (fun _ => .poison)
  else if isMX afmt then
    (List.range 4).filterMap (fun b =>
      if blockPresent t spm b n then
        let sb := actScaleByte afmt h b
        some (mxBlockTerm (scaleExp (f.byte sb)) (f.bad (sb / 8))
          ((List.range 32).map (fun i =>
            let k := 32 * b + i
            (actElem f afmt (actOff afmt h spm k),
             match t.fmt with
             | some bf => mxStat t bf spm k n
             | none => ⟨.val (.fin false ⟨0, 0⟩), some 0⟩))))
      else none)
  else
    (List.range 128).filterMap (fun k =>
      if blockPresent t spm (k / 32) n then
        some (factorTerm (actElem f afmt (actOff afmt h spm k))
          (match t.fmt with
           | none => .val (.fin false ⟨0, 0⟩)
           | some bf =>
             if spm = 4 then
               let p := blockRow t bf (k / 32) (n / 32) (k % 32)
               statElem t bf p.1 (8 * p.2 + 8 * (n % 32))
             else plainElem t bf k n))
      else none)

/-- The terms a MAC adds to column `n` (R50, R162). -/
def macTerms (t : Tile) (f : Flit) (afmt spm h n : Nat) : List Term :=
  if 1 ≤ spm ∧ spm ≤ 3 then sparseTerms t f afmt (t.fmt.getD afmt) spm h n
  else denseTerms t f afmt spm h n

/-- A term is clamped to 96 bits when it is added (R50 step 4). -/
def termClamps (a : Acc) : Term → Bool
  | .fin d => (clamp96 (dyFloor d a.lsb.toInt)).2
  | _ => false

/-- Adds terms to an accumulator: the accumulator so far, whether the limit stopped it (R53), and whether a term added
was clamped (R71). -/
def addTerms (a : Acc) : List Term → Acc × Bool × Bool
  | [] => (a, false, false)
  | x :: r => match accAdd a x with
    | none => (a, true, false)
    | some a' =>
      let q := addTerms a' r
      (q.1, q.2.1, termClamps a x || q.2.2)

/-- A MAC of one activation vector into one group: accumulators, whether a limit was met, and whether a term was
clamped. -/
def macGroup (acc : List (Nat × Acc)) (u : Nat) (t : Tile) (f : Flit) (afmt spm h g : Nat) :
    List (Nat × Acc) × Bool × Bool :=
  (List.range 128).foldl (fun s n =>
    let k := 4096 * u + 128 * g + n
    let r := addTerms (tget {} s.1 k) (macTerms t f afmt spm h n)
    (tset {} s.1 k r.1, s.2.1 || r.2.1, s.2.2 || r.2.2)) (acc, false, false)

/-- The accumulator group, format, mode and half a tile slot names (R139). -/
def tileAgrp (w : DWord) : Nat := slot w 59 55
def tileFmt (w : DWord) : Nat := slot w 54 51
def tileH (w : DWord) : Nat := slot w 32 32
def tileSpm (w : DWord) : Nat := slot w 15 12
def tileRow (w : DWord) : Nat := slot w 22 16

/-- MAC (R48, R50, R140, R165). -/
def fireMac (_c : UCtx) (u : Nat) (w : DWord) (f : Flit) (sp : Spn) : URes :=
  let t := tget {} sp.tiles u
  let fmt := tileFmt w
  let spm := tileSpm w
  let g := tileAgrp w
  match t.fmt with
  | some bf =>
    if family bf ≠ family fmt then uFault sp 0x0307 [u, fmt, bf]
    else if t.spm ≠ spm then uFault sp 0x0330 [u, spm, t.spm]
    else
      let two := fmt = 8 ∧ bf = 8
      let r1 := macGroup sp.acc u t f fmt spm (if two then 0 else tileH w) g
      let r2 := if two then macGroup r1.1 u t f fmt spm 1 ((g + 1) % 32) else (r1.1, false, false)
      let res : URes := { sp := { sp with acc := r2.1 }, upd := some 6, flags := if r1.2.2 || r2.2.2 then ACC_OVF else 0 }
      if r1.2.1 || r2.2.1 then { res with fault := some (0x0305, [BitVec.ofNat 8 u]) } else res
  | none =>
    let r := macGroup sp.acc u { t with spm := spm } f fmt spm (tileH w) g
    let res : URes := { sp := { sp with acc := r.1 }, upd := some 6 }
    if r.2.1 then { res with fault := some (0x0305, [BitVec.ofNat 8 u]) } else res

/-- Invalid selector pairs in a selector flit of a tile (R164). -/
def badPairs (t : Tile) (spm row : Nat) : Nat :=
  if (spm = 1 ∨ spm = 3) ∧ 64 ≤ row then
    let r0 := if spm = 3 then 4 * (row - 64) else 8 * (row - 64)
    let np := if spm = 3 then 2 else 4
    ((List.range np).map (fun p =>
      ((List.range 128).filter (fun n => pairBad t spm (r0 + 2 * p) n)).length)).foldl (· + ·) 0
  else 0

/-- LOADW (R161, R164, R165, R168). -/
def fireLoadw (_c : UCtx) (u : Nat) (w : DWord) (f : Flit) (sp : Spn) : URes :=
  let t := tget {} sp.tiles u
  let fmt := tileFmt w
  let spm := tileSpm w
  let row := tileRow w
  let t0 : Tile := if t.fmt = some fmt ∧ t.spm = spm then t else { fmt := some fmt, spm := spm, rows := [] }
  let keep (x : Tile) : Spn := { sp with tiles := tset {} sp.tiles u x }
  let bad :=
    spm == 4 &&
      (if row = 0 then decide (f.data.toNat >>> 16 ≠ 0)
       else decide ((blockGeom fmt).2.2 * popcount (blockMask t0) 16 < row))
  if bad then { sp := keep t0, cnts := [(0x0600, 1)] }
  else
    let t1 := { t0 with rows := tset {} t0.rows row ⟨f.data, f.pword, true⟩ }
    let n := badPairs t1 spm row
    { sp := keep t1, cnts := if n = 0 then [] else [(0x0600, n)] }

/-- CLEAR (R591). -/
def fireClear (_c : UCtx) (u : Nat) (w : DWord) (sp : Spn) : URes :=
  let l := BitVec.ofNat 9 (slot w 31 23)
  { sp := { sp with acc := (List.range 128).foldl (fun a n =>
      tset {} a (4096 * u + 128 * tileAgrp w + n) (accClear l)) sp.acc }, upd := some 6 }

/-- The destination layout of a READ (R139). -/
def readFmt (w : DWord) : FFmt :=
  match tileFmt w with
  | 0 => fFP32
  | 1 => fBF16
  | 2 => fE4M3
  | _ => fE5M2

/-- The accumulators after a READ: one read out as zero carrying poison loses its POISON bit and
nothing else changes (R69 rule 3). -/
def readClears (acc : List (Nat × Acc)) (base : Nat) : List (Nat × Acc) :=
  (List.range 128).foldl (fun a n =>
    let x := tget {} a (base + n)
    if x.poison then tset {} a (base + n) { x with poison := false } else a) acc

/-- READ (R57, R69, R591). -/
def fireRead (c : UCtx) (u : Nat) (w : DWord) (gen : BitVec 2) (sp : Spn) : URes :=
  let f := readFmt w
  let rs := (List.range 128).map (fun n =>
    let r := accRead f c.sat (tget {} sp.acc (4096 * u + 128 * tileAgrp w + n))
    ({ code := r.1, flags := r.2.1, poison := r.2.2 } : LaneRes))
  let otag := tagOf sp (slot w 41 33)
  let sp := { sp with acc := readClears sp.acc (4096 * u + 128 * tileAgrp w) }
  if tileFmt w = 0 then
    let p := packRes 32 (rs.take 64)
    let q := packRes 32 (rs.drop 64)
    { sp := sp,
      outs := [(0, 10, mkFlit p.1 p.2.1 otag gen 32), (0, 11, mkFlit q.1 q.2.1 (otag + 1) gen 32)],
      flags := poisonFlag p.2.1 p.2.2 ||| poisonFlag q.2.1 q.2.2,
      npoi := poisonCount rs }
  else
    let b := fmtBits (tileFmt w)
    let p := packRes b rs
    { sp := sp, outs := [(0, 10, mkFlit p.1 p.2.1 otag gen 32)], flags := poisonFlag p.2.1 p.2.2,
      npoi := poisonCount rs }

/-- The accumulator a SPILL, LOAD or MERGE names (R591). -/
def tileAccKey (u : Nat) (w : DWord) : Nat := 4096 * u + 128 * tileAgrp w + tileRow w

/-- SPILL (R55, R591). -/
def fireSpill (_c : UCtx) (u : Nat) (w : DWord) (gen : BitVec 2) (sp : Spn) : URes :=
  { sp := sp,
    outs := [(0, 10, mkFlit (accRecord (tget {} sp.acc (tileAccKey u w))) 0 (tagOf sp (slot w 41 33)) gen 3)] }

/-- A LOAD or MERGE result put back, or its fault (R53, R55). -/
def putAcc (u : Nat) (w : DWord) (sp : Spn) (r : AccOp) : URes :=
  match r with
  | .ok a => { sp := { sp with acc := tset {} sp.acc (tileAccKey u w) a }, upd := some 6 }
  | .limit => uFault sp 0x0305 [u]
  | .lsb x =>
    { sp := sp,
      fault := some (0x0306, toLE 2 (unsext 16 x) ++
        toLE 2 (unsext 16 (tget {} sp.acc (tileAccKey u w)).lsb.toInt)) }

/-- The record in bytes 0–23 of a flit, and whether one of its words carries poison (R591). -/
def flitRecord (f : Flit) : Nat × Bool :=
  (f.data.toNat % 2 ^ 192, f.bad 0 || f.bad 1 || f.bad 2)

/-- LOAD (R55, R56, R591). -/
def fireLoad (_c : UCtx) (u : Nat) (w : DWord) (f : Flit) (sp : Spn) : URes :=
  let r := flitRecord f
  putAcc u w sp (accLoad (tget {} sp.acc (tileAccKey u w)) r.1 r.2)

/-- MERGE (R53, R55, R56, R591). -/
def fireMerge (_c : UCtx) (u : Nat) (w : DWord) (f : Flit) (sp : Spn) : URes :=
  let r := flitRecord f
  putAcc u w sp (accMerge (tget {} sp.acc (tileAccKey u w)) r.1 r.2)

end Sys2Proof.Machine
end

