-- ==== Sys2Proof/Machine/Spindle.lean ====
section
/-! DEFINITION. The spindle's cycle: what fires a unit, what holds a spindle, and how pipelines, links and
matching stores advance (spec/03_spindle.md R74 to R91; spec/04_skein.md R123, R129 to R136, R147;
spec/08_on_die_interconnect.md R280, R281). -/

namespace Sys2Proof.Machine

/-- What every fire of a spindle reads (R70, R134, R135, R357). -/
def State.uctx (s : State) (ps : Nat) : UCtx :=
  let j := s.runningSlot
  { ps := ps, logical := s.logicalN ps, coord := s.coord
    sat := match j with | some x => bitOf x.numMode 0 | none => false
    step := BitVec.ofNat 64 (s.rd64 (Reg.SPN_STEP_LO ps))
    seed := match j with | some x => x.job.seed | none => 0
    now := s.now }

/-- Poison is carried, not a fault, under the CARRY policy (R426). -/
def State.carries (s : State) : Bool :=
  match s.runningSlot with
  | some x => x.job.policy == .carry
  | none => false

/-- The control port of a slot and the token type it takes (R83, R85). -/
def ctlPort (sp : Spn) (u : Nat) (w : DWord) : Option (Nat × Nat × Nat) :=
  let op := slotOp u w
  match unitKind u with
  | some .steer => some (2, slot w 42 34, if op = 4 then 1 else 0)
  | some .vec =>
    if slot w 12 12 = 1 ∨ (op = 10 ∧ slotSub w = 5) then some (2, slot w 31 23, 0) else none
  | some .dsp =>
    if op = 1 ∧ (dspSet (psetOf sp 34 (seqPset w))).predEn ∧ sp.dsp.scores = [] then some (1, slot w 48 40, 0)
    else none
  | _ => none

/-- The result of firing a tile, vector, special-function, steering, sequence or dispatch unit with the
tokens on its ports; none where the slot word is no operation of the unit (R139 to R144). -/
def fireRes (c : UCtx) (gen : BitVec 2) (u : Nat) (w : DWord) (p0 p1 p2 p3 : Flit) (pred : Option Flit) (sp : Spn) :
    Option URes :=
  let op := slotOp u w
  match unitKind u with
  | some .tile =>
    match op with
    | 1 => some (fireMac c u w p0 sp)
    | 2 => some (fireLoadw c u w p1 sp)
    | 3 => some (fireClear c u w sp)
    | 4 => some (fireRead c u w gen sp)
    | 5 => some (fireSpill c u w gen sp)
    | 6 => some (fireLoad c u w p2 sp)
    | 7 => some (fireMerge c u w p2 sp)
    | _ => none
  | some .vec =>
    match op with
    | 1 => some (fireAdd w p0 p1 pred gen sp)
    | 2 => some (fireSub w p0 p1 pred gen sp)
    | 3 => some (fireMul w p0 p1 pred gen sp)
    | 4 => some (fireFma w p0 p1 p2 gen sp)
    | 5 => some (fireMin w p0 p1 pred gen sp)
    | 6 => some (fireMax w p0 p1 pred gen sp)
    | 7 => some (fireCmp w p0 p1 pred gen sp)
    | 8 => some (fireCvt c w p0 pred gen sp)
    | 9 => some (fireRed w p0 pred gen sp)
    | 10 =>
      match slotSub w with
      | 0 => some (fireNz w p0 pred gen sp)
      | 1 => some (firePack c u w p0 pred gen sp)
      | 2 => some (fireFlush u w gen sp)
      | 3 => some (fireXin u w p0 gen sp)
      | 4 => some (fireXout u w gen sp)
      | 5 => some (firePcnt w p2 gen sp)
      | _ => none
    | 11 => some (fireMov w p0 pred gen sp)
    | 12 => some (fireRng c w p0 pred gen sp)
    | _ => none
  | some .sfu => (sfuFn op).map (fun fn => fireSfu fn w p0 gen sp)
  | some .steer =>
    match op with
    | 0 => some (fireSwitch w p0 p2 gen sp)
    | 1 => some (fireSteerMerge w (if predBit p2 0 then p0 else p1) p2 gen sp)
    | 2 => some (fireGate w p0 p2 gen sp)
    | 3 => some (fireSplit w p2 gen sp)
    | 4 => some (fireCount u w p2 gen sp)
    | _ => none
  | some .seq =>
    match op with
    | 1 => some (firePhase u w p0 gen sp)
    | 2 => some (fireRot w p0 p1 p2 p3 gen sp)
    | 3 => some (fireBlk c u w p0 p1 p2 gen sp)
    | 4 => some (fireMrg c u w p0 (if 64 < (attnSet (psetOf sp u (seqPset w))).d then some p1 else none) p2 gen sp)
    | 5 => some (fireFin c u w p2 gen sp)
    | 6 => some (fireSeqSpill c u w p2 gen sp)
    | _ => none
  | some .dsp =>
    match op with
    | 1 => some (fireTopk c w p0 pred gen sp)
    | 2 => some (queueJob .post w gen sp)
    | 3 => some (queueJob .grant w gen sp)
    | 4 => some (queueJob .scatter w gen sp)
    | 5 => some (queueJob .ret w gen sp)
    | 6 => some (queueJob .treset w gen sp)
    | _ => none
  | _ => none

/-- The row a FIN or SPILL takes (R211). -/
def takenRow (u : Nat) (w : DWord) (p2 : Flit) : Option Nat :=
  if unitKind u = some .seq ∧ (slotOp u w = 5 ∨ slotOp u w = 6) then some (bitsOf (p2.word 0) 27 24) else none

/-- Fires unit `u` with the named tokens of `toks`, which the store no longer holds (R82, R85). -/
def State.fireUnit (s : State) (ps u : Nat) (w : DWord) (toks : List StoreEnt) (f : Flips) : State :=
  let c := s.uctx ps
  let x := s.spn ps
  let names := slotTokens x toks u w
  let port (p : Nat) : Option Flit :=
    match names.find? (fun n => n.1 == p) with
    | some n => findTok toks u p n.2
    | none => none
  let fl (p : Nat) : Flit := (port p).getD {}
  match (match ctlPort x u w with
    | some (p, t, ty) => (match ctlBad (fl p) ty with
        | some why => some (p, (tagOf x t).toNat, why)
        | none => none)
    | none => none) with
  | some (p, t, why) => s.spnFault ps 0x0315 u t [(16, 1, u), (17, 1, p), (18, 1, t), (19, 1, why)]
  | none =>
    match unitKind u with
    | some .mem =>
      match slotOp u w with
      | 1 => s.fireBread c u w (port 1) f
      | 2 => s.fireBwrite c u w (fl 0) (port 1) f
      | 3 => s.fireRd c u w (port 1)
      | 4 => s.fireWr c u w (fl 0) (port 1)
      | 5 => s.fireAtom c u w (fl 0) (port 1)
      | 6 => s.fireRecv c w f
      | 7 => s.fireSend c u w (fl 0)
      | 8 => s.fireWatch c w
      | _ => s
    | some .sluice => s.fireSluice c u w s.carries f
    | _ =>
      let pred := match ctlPort x u w with
        | some (p, _, _) => port p
        | none => none
      match fireRes c (s.gen ps) u w (fl 0) (fl 1) (fl 2) (fl 3) pred x with
      | some r => (s.applyRes ps u ((names.head?.map (·.2.toNat)).getD 0) (takenRow u w (fl 2)) r).peaks ps
      | none => s

/-! ### Holds (R86, R90, R184, R211, R274). -/

def hSLUICE_WAIT : Nat := 1
def hSTEER_WAIT : Nat := 2
def hOPS_FULL : Nat := 4
def hSLUICE_CREDIT : Nat := 8
def hCHAN_SEND : Nat := 16
def hSLACK : Nat := 32
def hBANK_STEAL : Nat := 64
def hSECT_WAIT : Nat := 128

/-- Operations a slot would add to the table (R93, R184, R211). -/
def newOps (u : Nat) (w : DWord) : Nat :=
  match unitKind u with
  | some .mem => (match slotOp u w with | 3 => 1 | 4 => 1 | 5 => 1 | 7 => 1 | 8 => 1 | _ => 0)
  | some .seq => if slotOp u w = 4 then 1 else 0
  | some .dsp => if 2 ≤ slotOp u w then 1 else 0
  | _ => 0

/-- Sluice entries a slot would reserve: sluice, tag, generation, count (R86, R87). -/
def newEntries (sp : Spn) (gen : BitVec 2) (u : Nat) (w : DWord) : Option (Nat × BitVec 8 × BitVec 2 × Nat) :=
  match unitKind u with
  | some .mem =>
    let t := tagOf sp (slot w 38 30)
    let sl := slot w 40 39
    (match slotOp u w with
     | 3 => some (sl, t, if slot w 29 29 = 1 then gen + 1 else gen, (slot w 28 17 + 256) / 256)
     | 5 => some (sl, t, gen, 1)
     | 6 => some (sl, t, gen, 1)
     | 8 => some (sl, t, gen, 1)
     | _ => none)
  | _ => none

/-- A sluice slot names an entry that is not filled (R88). -/
def sluiceWaits (sp : Spn) (gen : BitVec 2) (u : Nat) (w : DWord) : Bool :=
  let miss (t : Nat) : Bool := !sp.sluice.any (fun e =>
    e.sl == u - 51 && e.tag == tagOf sp t && e.gen == gen && e.filled)
  (slot w 63 63 == 1 && miss (slot w 62 54)) || (slot w 53 53 == 1 && miss (slot w 52 44))

/-- Hold causes one slot meets, its entries already checked for duplicates (R90). -/
def slotHolds (sp : Spn) (gen : BitVec 2) (toks : List StoreEnt) (u : Nat) (w : DWord) : Nat :=
  let names := slotTokens sp toks u w
  let miss := names.any (fun n => (findTok toks u n.1 n.2).isNone)
  let a := if miss then hSTEER_WAIT else 0
  match unitKind u with
  | some .sluice => if sluiceWaits sp gen u w then hSLUICE_WAIT else 0
  | some .mem =>
    if slotOp u w = 7 then
      let oc := tget {} sp.outq (slot w 16 9 % 64)
      a ||| (if oc.st = .opened ∧ oc.credits = 0 then hCHAN_SEND else 0)
    else a
  | some .seq => a ||| (if slotOp u w = 4 ∧ 4 ≤ (seqOf sp u).queue.length then hOPS_FULL else 0)
  | some .dsp =>
    a ||| (if slotOp u w = 1 then (if sp.dsp.jobs = [] then 0 else hOPS_FULL)
           else if 4 ≤ sp.dsp.jobs.length then hOPS_FULL else 0)
  | _ => a

/-- Hold causes of a cycle: every slot's own, and those the slots meet together (R86, R90, R93). -/
def cycleHolds (sp : Spn) (gen : BitVec 2) (toks : List StoreEnt) (slots : List (Nat × DWord)) : Nat :=
  let own := slots.foldl (fun m x => m ||| slotHolds sp gen toks x.1 x.2) 0
  let fresh (x : Nat × DWord) : Option (Nat × BitVec 8 × BitVec 2 × Nat) :=
    match newEntries sp gen x.1 x.2 with
    | some (sl, t, g, n) => if (sp.dupReserve sl t g n).isSome then none else some (sl, t, g, n)
    | none => none
  let ops := slots.foldl (fun a x =>
    a + (if (newEntries sp gen x.1 x.2).isSome && (fresh x).isNone then 0 else newOps x.1 x.2)) 0
  let full := if 1024 < sp.inFlight.length + ops then hOPS_FULL else 0
  let cred := (List.range 4).any (fun n =>
    let want := slots.foldl (fun a x => match fresh x with
      | some (sl, _, _, k) => if sl = n then a + k else a
      | none => a) 0
    decide (0 < want ∧ 64 < sp.sluice.countP (fun e => e.sl == n) + want))
  own ||| full ||| (if cred then hSLUICE_CREDIT else 0)

/-! ### The held A-tick (R90, R91, R113, R280, R281). -/

/-- Channels and queues a held cycle stalls on (R280). -/
def stallSends (sp : Spn) (slots : List (Nat × DWord)) : List Nat :=
  slots.filterMap (fun x =>
    if unitKind x.1 = some .mem ∧ slotOp x.1 x.2 = 7 then
      let ch := slot x.2 16 9 % 64
      let oc := tget {} sp.outq ch
      if oc.st = .opened ∧ oc.credits = 0 then some ch else none
    else none)

def stallRecvs (sp : Spn) (gen : BitVec 2) (slots : List (Nat × DWord)) : List Nat :=
  slots.flatMap (fun x =>
    if unitKind x.1 = some .sluice then
      let waits (v t : Nat) : List Nat :=
        if v = 1 then
          (sp.sluice.filter (fun e => e.sl == x.1 - 51 && e.tag == tagOf sp t && e.gen == gen && !e.filled)).flatMap
            (fun e => (sp.ops.filter (fun o => o.id == e.op && o.kind == .recv)).map (·.cnt))
        else []
      waits (slot x.2 63 63) (slot x.2 62 54) ++ waits (slot x.2 53 53) (slot x.2 52 44)
    else [])

/-- Event 0x0411 for every stall timer that has reached CHN_STALL_THR, once for each run of it (R280). -/
def State.stallEvents (s : State) (ps : Nat) : State :=
  let thr := s.rd Reg.CHN_STALL_THR
  let l := s.logicalN ps
  (List.range 64).foldl (fun s c =>
    let x := s.spn ps
    let oc := tget {} x.outq c
    let s := if thr ≤ oc.stall ∧ oc.told = false then
        (s.setSpn ps { x with outq := tset {} x.outq c { oc with told := true } }).event 0x0411 (unitId 0 ps) 1
          [(16, 1, c), (17, 1, 0), (18, 1, l)] else s
    let x := s.spn ps
    let iq := tget {} x.inq c
    if thr ≤ iq.stall ∧ iq.told = false then
      (s.setSpn ps { x with inq := tset {} x.inq c { iq with told := true } }).event 0x0411 (unitId 0 ps) 1
        [(16, 1, c), (17, 1, 1), (18, 1, l)] else s) s

/-- A spindle is channel-stalled (R280). -/
def State.channelStalled (s : State) (ps : Nat) : Bool :=
  let thr := s.rd Reg.CHN_STALL_THR
  let x := s.spn ps
  x.outq.any (fun p => decide (thr ≤ p.2.stall)) || x.inq.any (fun p => decide (thr ≤ p.2.stall))

/-- The spindle's strand has executed CONTEXT_END (R135, R147, R281). -/
def State.ranOut (s : State) (ps : Nat) : Bool := s.rbit (Reg.SPN_STRAND ps) 6 || (s.spn ps).load == .ending

/-- A knot ends the running context with event 0x0410 (R281). -/
def State.knotCheck (s : State) : State :=
  match s.runningSlot with
  | none => s
  | some x =>
    if x.st = .faulted then s
    else
      let live := ((List.range x.lcount).filter (fun l => s.lmapValid l && !s.ranOut (s.physOf l)))
      let stalled (l : Nat) : Bool := s.channelStalled (s.physOf l)
      let slackOnly (l : Nat) : Bool := s.rf (Reg.SPN_STATE (s.physOf l)) 15 8 == hSLACK
      if live.any stalled && live.all (fun l => stalled l || slackOnly l) then
        let m (p : Nat → Bool) : Nat := (live.filter p).foldl (fun a l => a + 2 ^ l) 0
        let s := s.wr Reg.CHN_KNOT_CTX s.runCtx
        let s := s.wr64 Reg.CHN_KNOT_TS_LO s.now.toNat
        let s := s.event 0x0410 devUnit 2
          [(16, 2, m stalled), (18, 2, m (fun l => slackOnly l && !stalled l))]
        s.faultRunning 0x0410
      else s

/-- Stall timers of a held A-tick; an A-tick without the condition clears a timer (R280). -/
def State.stallTick (s : State) (ps : Nat) (sends recvs : List Nat) : State :=
  let x := s.spn ps
  if x.outq = [] ∧ x.inq = [] then s.knotCheck else
  let outq := (List.range 64).foldl (fun q c =>
    tmod {} q c (fun oc => if sends.contains c then { oc with stall := oc.stall + 1 }
                           else { oc with stall := 0, told := false, hung := false })) x.outq
  let inq := (List.range 64).foldl (fun q c =>
    tmod {} q c (fun iq => if recvs.contains c then { iq with stall := iq.stall + 1 }
                           else { iq with stall := 0, told := false, hung := false })) x.inq
  let s := s.setSpn ps { x with outq := outq, inq := inq }
  let s := (List.range 64).foldl (fun s c => if sends.contains c then s.sat (Reg.CHN_OSTALL ps c) 1 else s) s
  let s := (List.range 64).foldl (fun s c => if recvs.contains c then s.sat (Reg.CHN_ISTALL ps c) 1 else s) s
  (s.stallEvents ps).knotCheck

/-- Counts one held A-tick with the causes in `m` (R90, R91, R113). -/
def State.countHold (s : State) (ps m : Nat) : State :=
  let s := s.wf (Reg.SPN_STATE ps) 15 8 m
  let s := s.add64 (Reg.SPN_HOLD_CNT_LO ps) 1
  (List.range 8).foldl (fun s k => if m.testBit k then s.sat (Reg.SPN_HOLD_CAUSE_CNT ps k) 1 else s) s

/-- A held A-tick of a running strand (R90, R110). -/
def State.holdTick (s : State) (ps m : Nat) (sends recvs : List Nat) : State :=
  let s := s.countHold ps m
  let s := if s.spnState ps = 1 then s.setSpnState ps 2 else s
  s.stallTick ps sends recvs

/-! ### Advancing pipelines and links (R73, R81, R123). -/

/-- One flit leaving an output port. -/
structure Leaving where
  unit : Nat
  port : Nat
  flit : Flit
  deriving DecidableEq, Repr

/-- The routes that take a flit leaving a port in a slot phase (R122, R123): in a drain tick the phase of the skein
cycle that tick moves as (log 153). -/
def routesOf (sp : Spn) (u p : Nat) : List Route :=
  sp.cfg.routes.filter (fun r => r.unit == u && r.port == p && r.phases.toNat.testBit (sp.phase + sp.drainN).toNat)

/-- Flits that leave output ports in this cycle (R73). -/
def leavingNow (sp : Spn) : List Leaving :=
  sp.pipe.filterMap (fun e => if e.left = 1 then e.out.map (fun f => { unit := e.unit, port := e.port, flit := f }) else none)

/-- A leaving FIN or SPILL output whose row still has merges queued (R211). -/
def rowHeld (sp : Spn) : Bool :=
  sp.pipe.any (fun e => e.left == 1 && (match e.row with
    | some r => (seqOf sp e.unit).queue.any (fun j => j.row == r)
    | none => false))

/-- The spindle one cycle on: pipelines and links advance, leaving flits take their routes; and the flits
that reach an input port (R74, R123). -/
def advance (sp : Spn) : Spn × List StoreEnt :=
  let new := (leavingNow sp).flatMap (fun l => (routesOf sp l.unit l.port).flatMap (fun r =>
    r.dests.map (fun d =>
      { unit := d.unit, port := d.port, left := d.hop, flit := l.flit, src := 2 * l.unit + l.port : LinkEnt })))
  let links := sp.links.map (fun e => { e with left := e.left - 1, age := e.age + 1 }) ++ new
  let arr := (links.filter (fun e => e.left == 0)).map (fun e => { unit := e.unit, port := e.port, flit := e.flit : StoreEnt })
  ({ sp with
     pipe := (sp.pipe.filter (fun e => decide (1 < e.left))).map (fun e => { e with left := e.left - 1 })
     links := links.filter (fun e => decide (0 < e.left)) }, arr)

/-- A generation in the accepted set (R97). -/
def accepted (cur g : BitVec 2) : Bool := g == cur || g == cur + 1

/-- Counts stale items discarded (R97). -/
def State.staleCount (s : State) (ps n : Nat) : State :=
  (s.sat (Reg.SPN_STALE_CNT ps) n).modSpn ps (fun x => { x with staleSeen := x.staleSeen + n })

/-- The input port and tag of two tokens are the same (R80). -/
def StoreEnt.same (a b : StoreEnt) : Bool := a.unit == b.unit && a.port == b.port && a.flit.tag == b.flit.tag

/-- Treats arriving tokens in order (R81 steps 2 to 5): `old` are the entries stored as the cycle begins, `used` the
tokens a fire of the cycle takes, `store` the entries kept.  An entry that a fire of the cycle frees is free to an
arrival of that cycle (log 154).  Answers the first fault and the stores. -/
def placeToks (old : List StoreEnt) (used : StoreEnt → Bool) :
    List StoreEnt → List StoreEnt → Option (Nat × StoreEnt) × List StoreEnt
  | store, [] => (none, store)
  | store, e :: r =>
    if old.any e.same || store.any e.same then (some (0x0311, e), store)
    else if used e then placeToks old used store r
    else if 16 ≤ store.countP (fun x => x.unit == e.unit) then (some (0x0310, e), store)
    else placeToks old used (store ++ [e]) r

/-- The high-water mark of matching-store occupancy (R113). -/
def State.storeMarks (s : State) (ps : Nat) : State :=
  let x := s.spn ps
  if x.store = [] then s else (List.range 51).foldl (fun s u =>
    let n := x.store.countP (fun e => e.unit == u)
    if s.rf (Reg.SPN_MS_HWM ps) 4 0 < n then (s.wf (Reg.SPN_MS_HWM ps) 4 0 n).wf (Reg.SPN_MS_HWM ps) 13 8 u else s) s

/-- Faults of the flits that leave: poison a BREAD delivers under the FAULT policy, and an output
off-phase or without a route (R123, R426). -/
def State.leaveFaults (s : State) (ps : Nat) : State :=
  let x := s.spn ps
  (leavingNow x).foldl (fun s l =>
    if s.spnState ps = 0 then s
    else
      let memPoison := unitKind l.unit == some .mem && l.flit.pword != 0
      if memPoison && !s.carries then
        s.spnFault ps 0x070A l.unit l.flit.tag.toNat
          [(16, 1, l.unit), (17, 1, s.logicalN ps), (18, 1, l.flit.tag.toNat)]
      else
        let s := if memPoison then s.numFlags ps FPOISON else s
        if routesOf x l.unit l.port = [] then
          s.spnFault ps 0x0321 l.unit l.flit.tag.toNat [(16, 1, l.unit), (17, 1, l.port), (18, 1, l.flit.tag.toNat)]
        else s) s

/-- One advance of pipelines, links and stores, with tokens `named` of `slots` consumed as units fire in
ascending order; nothing fires after a fault of the context (R74, R81, R82). -/
def State.cycle (s : State) (ps : Nat) (slots : List (Nat × DWord)) (f : Flips) : State :=
  let s := s.leaveFaults ps
  if s.spnState ps = 0 then s
  else
    let x := s.spn ps
    let a := advance x
    let stale := a.2.filter (fun e => !accepted (s.gen ps) e.flit.gen)
    let arr := a.2.filter (fun e => accepted (s.gen ps) e.flit.gen)
    let s := s.staleCount ps stale.length
    let toks := x.store ++ arr
    let named : List (Nat × Nat × BitVec 8) := slots.flatMap (fun y => (slotTokens x toks y.1 y.2).map (fun n => (y.1, n.1, n.2)))
    let used (e : StoreEnt) : Bool := named.any (fun n => n.1 == e.unit && n.2.1 == e.port && n.2.2 == e.flit.tag)
    let p := placeToks x.store used (x.store.filter (fun e => !used e)) arr
    let s := (s.setSpn ps { a.1 with store := p.2 }).storeMarks ps
    match p.1 with
    | some (code, e) =>
      s.spnFault ps code e.unit e.flit.tag.toNat [(16, 1, e.unit), (17, 1, e.port), (18, 1, e.flit.tag.toNat)]
    | none => slots.foldl (fun s y => if s.spnState ps = 0 then s else s.fireUnit ps y.1 y.2 toks f) s

/-! ### The strand (R128 to R136). -/

/-- The strand of a spindle executes: in RUN or HOLD, or on its way to a drain point (R104, R110); an
east-half one stands still once the seam's clock wiring is lost (R264). -/
def State.strandRuns (s : State) (ps : Nat) : Bool :=
  let st := s.spnState ps
  !(decide (9 ≤ ps) && s.ring.lost.any (fun k => decide (k ≠ 3 ∧ k ≠ 4))) && (s.spn ps).load == .none && (st == 1 || st == 2 ||
    (st == 3 && (match (s.spn ps).drain with
      | some d => !d.scan && !d.point
      | none => false)))

def Spn.word (x : Spn) : DWord := (x.strand[x.pos]?).getD 0

/-- The kind of the next bundle (R128); `idleLeft` is what an IDLE has still to lay down. -/
def Spn.kind (x : Spn) : Option Nat := if x.pos < x.strand.length then some (slot x.word 63 60) else none

/-- The slots of an EXEC bundle in ascending unit number (R129). -/
def Spn.slots (x : Spn) : List (Nat × DWord) :=
  let us := (List.range 55).filter (fun u => x.word.toNat.testBit u)
  us.zipIdx.map (fun p => (p.1, (x.strand[x.pos + 1 + p.2]?).getD 0))

/-- Leaves finished loop bodies and begins their next iteration (R131, R133). -/
def loopTurn : Nat → Spn → Spn
  | 0, x => x
  | n + 1, x =>
    match x.loops with
    | [] => x
    | l :: r =>
      if x.pos = l.start + l.len then
        if l.iter + 1 < l.trip then { x with pos := l.start, loops := { l with iter := l.iter + 1, first := true } :: r }
        else loopTurn n { x with loops := r }
      else x

/-- The strand after a bundle of `n` words. -/
def Spn.next (x : Spn) (n : Nat) : Spn := loopTurn 5 { x with pos := x.pos + n }

/-- The next skein cycle is a drain point (R136). -/
def Spn.atDrainPoint (x : Spn) : Bool :=
  x.fresh ||
  (x.idleLeft == 0 && ((match x.kind with
    | some 0 => x.word.toNat.testBit 59
    | some 1 => x.word.toNat.testBit 59
    | _ => false) ||
   x.loops.any (fun l => l.dp && l.first)))

/-- A skein cycle has been laid down: no iteration under way is at its first cycle any more (R136). -/
def Spn.begun (x : Spn) : Spn :=
  { x with phase := x.phase + 1, drainN := 0, fresh := false, loops := x.loops.map (fun l => { l with first := false }) }

/-- A run-empty drain waits at this drain point (R104). -/
def State.drainStops (s : State) (ps : Nat) : Bool :=
  match (s.spn ps).drain with
  | some d => !d.scan && !d.point && (s.spn ps).atDrainPoint
  | none => false

/-- The strand is ahead of MINPOS by the slack (R147). -/
def State.slackHeld (s : State) (ps : Nat) : Bool :=
  decide ((s.spn ps).minpos.toNat + 4096 ≤ s.rd64 (Reg.SPN_SKC_LO ps))

/-- The spindle after one skein cycle has been laid down (R75, R110, R113). -/
def State.cycleDone (s : State) (ps : Nat) : State :=
  if s.spnState ps = 0 then s
  else
    let s := s.add64 (Reg.SPN_SKC_LO ps) 1
    let s := s.wf (Reg.SPN_STATE ps) 15 8 0
    let s := if s.spnState ps = 2 then s.setSpnState ps 1 else s
    s.stallTick ps [] []

/-- What holds the next cycle of a strand that names `slots` (R90): what the slots meet, the slack, and a row whose
merges an output of the cycle awaits. -/
def State.cycleCauses (s : State) (ps : Nat) (slots : List (Nat × DWord)) : Nat :=
  let x := s.spn ps
  let toks := x.store ++ (advance x).2.filter (fun e => accepted (s.gen ps) e.flit.gen)
  cycleHolds x (s.gen ps) toks slots ||| (if s.slackHeld ps then hSLACK else 0) ||| (if rowHeld x then hOPS_FULL else 0)

/-- An A-tick a spindle waits under SECT_WAIT with nothing moving (R90, R280). -/
def State.waitTick (s : State) (ps : Nat) : State := (s.countHold ps hSECT_WAIT).stallTick ps [] []

/-- A drain tick: nothing starts, what has fired moves on, but an output whose row still has merges waits (R74, R110,
R211). -/
def State.drainTick (s : State) (ps : Nat) : State :=
  let held := rowHeld (s.spn ps)
  let s := s.countHold ps (if held then hSECT_WAIT ||| hOPS_FULL else hSECT_WAIT)
  let s := if s.spnState ps = 1 then s.setSpnState ps 2 else s
  let s := if held then s else (s.cycle ps [] [])
  if s.spnState ps = 0 then s
  else (if held then s else s.modSpn ps (fun x => { x with drainN := x.drainN + 1 })).stallTick ps [] []

/-- A strand asked to drain reaches its drain point; the A-tick is a drain tick (R74, R104). -/
def State.reachPoint (s : State) (ps : Nat) : State :=
  (s.modSpn ps (fun x => { x with drain := x.drain.map (fun d => { d with point := true }) })).drainTick ps

/-- One A-tick of a strand whose next cycle names `slots` (R90): it holds, or lays down the cycle and
moves on by `after`. -/
def State.strandTick (s : State) (ps : Nat) (slots : List (Nat × DWord)) (f : Flips) (after : Spn → Spn) : State :=
  if s.drainStops ps then s.reachPoint ps
  else
    let x := s.spn ps
    let m := s.cycleCauses ps slots
    if m ≠ 0 then s.holdTick ps m (stallSends x slots) (stallRecvs x (s.gen ps) slots)
    else
      let s := s.cycle ps slots f
      (if s.spnState ps = 0 then s else s.modSpn ps (fun x => after x.begun)).cycleDone ps

/-- Fires one slot of a running strand on the tokens its stores hold: the part of a cycle that one unit
does, or the hold it causes (R82, R90). -/
def State.fireSlot (s : State) (ps u : Nat) (w : DWord) (f : Flips) : State :=
  if !s.strandRuns ps then s
  else
    let x := s.spn ps
    let m := cycleHolds x (s.gen ps) x.store [(u, w)]
    if m ≠ 0 then s.holdTick ps m (stallSends x [(u, w)]) (stallRecvs x (s.gen ps) [(u, w)])
    else
      let named := slotTokens x x.store u w
      (s.setSpn ps { x with store := dropToks x.store u named }).fireUnit ps u w x.store f

end Sys2Proof.Machine
end

