-- ==== Sys2Proof/Machine/Section.lean ====
section
/-! DEFINITION. Sections: the end of one, what is left over, and the load of the next
(spec/03_spindle.md R96 to R101; spec/04_skein.md R119, R120, R122, R124, R126, R127, R589;
spec/05_sparsity_conditional.md R177, R178; spec/06_long_sequences.md R198). -/

namespace Sys2Proof.Machine

/-- Every operation of the section but forward reads has completed, and nothing is in a pipeline or on a
link (R98). -/
def Spn.drained (x : Spn) (gen : BitVec 2) : Bool :=
  x.pipe.isEmpty && x.links.isEmpty && !(x.inFlight.any (fun o => o.gen == gen && !o.fwd))

/-- Takes posted receives out of the queues once their operations are gone. -/
def Spn.unpost (x : Spn) : Spn :=
  { x with inq := x.inq.map (fun p => (p.1, { p.2 with posted := p.2.posted.filter (fun o => x.ops.any (fun y => y.id == o)) })) }

/-- Discards left-over items of generation `gen` (R99): the spindle and how many there were. -/
def Spn.leftOver (x : Spn) (gen : BitVec 2) : Spn × Nat :=
  let gone := x.sluice.filter (fun e => e.gen == gen)
  ({ x with
     store := []
     sluice := x.sluice.filter (fun e => e.gen != gen)
     ops := x.ops.filter (fun o => !(o.kind == OpKind.recv && gone.any (fun e => e.op == o.id))) }.unpost,
   x.store.length + gone.length)

def State.flushLeft (s : State) (ps : Nat) : State :=
  let r := (s.spn ps).leftOver (s.gen ps)
  (s.setSpn ps r.1).satField (Reg.SPN_FLUSH_CNT ps) 31 16 r.2

/-- A signed or unsigned little-endian field of a route entry's bytes (R122). -/
def parseRoute (b : List Byte) : Route :=
  let w := rdLE b 0 2
  let nd := bitsOf (rdLE b 4 1) 4 0
  let hop (k : Nat) : Nat := bitsOf (rdLE b (8 + 2 * k) 2) 5 0
  let nh := bitsOf (rdLE b 3 1) 4 0
  { unit := bitsOf w 5 0
    port := bitsOf w 6 6
    phases := BitVec.ofNat 8 (rdLE b 2 1)
    dests := (List.range nd).map (fun j =>
      let d := rdLE b (56 + j) 1
      let u := bitsOf d 5 0
      { unit := u, port := bitsOf d 7 6, hop := ((List.range nh).find? (fun k => hop k == switchPoint u)).getD 0 }) }

/-- A section configuration from its bytes (R120). -/
def parseCfg (b : List Byte) (dmode : Bool) : SectCfg :=
  { routes := (List.range (rdLE b 0 2)).map (fun i => parseRoute (sliceB b (0x3800 + 80 * i) 80))
    settings := (List.range 55).map (fun u => sliceB b (0x100 + 256 * u) 256)
    dmode := dmode }

/-- Reads the configuration of section `idx` of the image at `img`: the configuration, and the offset in it of the first
word that was uncorrectable, 0 where that was the image's own table (R119, R247). -/
def State.readCfg (s : State) (img idx : Nat) (f : Flips) : SectCfg × Option Nat × State :=
  let h := s.devRead .sequencer (img + 0x18) 8 f
  let e := h.2.2.2.devRead .sequencer (img + leNat h.1 + 16 * idx) 16 f
  let c := e.2.2.2.devRead .sequencer (img + rdLE e.1 0 8) (rdLE e.1 8 4) f
  (parseCfg c.1 (rdLE e.1 12 1 == 1), if h.2.1 + e.2.1 ≠ 0 then some 0 else (List.range ((rdLE e.1 8 4 + 7) / 8)).find? (fun i => c.2.1.testBit i), c.2.2.2)

/-- Reads the frequency tables of the enabled rotary sets of a sequence unit (R198). -/
def State.readFreq (s : State) (ps u : Nat) (f : Flips) : State :=
  (List.range 16).foldl (fun s n =>
    let p := psetOf (s.spn ps) u n
    if p.testBit 0 && p.testBit 1 then
      let k := bitsOf p 13 8 + 1
      let r := s.devRead (.spindle ps) (bitsOf p 55 16) (8 * k) f
      let tab := (List.range k).map (fun i => BitVec.ofNat 64 (rdLE r.1 (8 * i) 8))
      let s := r.2.2.2.modSpn ps (fun x => putSeq x u { seqOf x u with ftab := tset [] (seqOf x u).ftab n tab })
      (if r.2.1 = 0 ∨ s.spnState ps = 0 then s
       else s.spnFault ps 0x0342 u 0
         [(16, 1, u), (17, 1, n), (18, 1, ((List.range k).find? (fun i => r.2.1.testBit i)).getD 0)])
    else s) s

/-- What in a dispatch descriptor breaks R177: the offset of the first bad field, an area address beyond the 40 bits of R29
among them. -/
def descFault (b : List Byte) : Option Nat :=
  let d := dspDesc b
  match (List.range 8).find? (fun k => decide (2 ^ 40 ≤ rdLE b (8 * k) 8)) with
  | some k => some (8 * k)
  | none =>
  if d.nflit = 0 then some 0x4A
  else if d.nflitO = 0 then some 0x4B
  else if 4096 < d.elocal then some 0x4C
  else if rdLE b 0x4E 2 ≠ 0 then some 0x4E
  else if rdLE b 0x57 1 ≠ 0 then some 0x54
  else if rdLE b 0x58 40 ≠ 0 then some 0x58
  else none

/-- An expert table breaks R178: a reserved bit, an owner whose local indices have a gap or a repeat, or a count of this
owner's that is not ELOCAL. -/
def tableFault (own elocal : Nat) (tab : List Nat) : Bool :=
  let mine (x : Nat) : Nat := tab.countP (fun y => y % 2 ^ 17 == x % 2 ^ 17)
  tab.any (fun x => decide (2 ^ 29 ≤ x)) || decide (¬ tab.Nodup) || tab.any (fun x => decide (mine x ≤ x / 2 ^ 17 % 4096)) ||
    tab.countP (fun y => y % 2 ^ 17 == own) != elocal

/-- Reads the descriptors and expert tables of the enabled dispatch sets (R177, R178). -/
def State.readDispatch (s : State) (ps : Nat) (f : Flips) : State :=
  (List.range 16).foldl (fun s n =>
    let q := dspSet (psetOf (s.spn ps) 34 n)
    if q.en ∧ s.spnState ps ≠ 0 then
      let r := s.devRead (.spindle ps) q.desc 128 f
      let t := r.2.2.2.devRead (.spindle ps) (rdLE r.1 0 8 % 2 ^ 40) (4 * q.e) f
      let tab := (List.range q.e).map (fun i => rdLE t.1 (4 * i) 4)
      let bad : Option Nat :=
        if r.2.1 ≠ 0 then some (8 * ((List.range 16).find? (fun i => r.2.1.testBit i)).getD 0)
        else match descFault r.1 with
          | some o => some o
          | none =>
            if t.2.1 ≠ 0 || tableFault (s.coord + 2 ^ 13 * s.logicalN ps) (dspDesc r.1).elocal tab then some 0 else none
      let s := t.2.2.2.modSpn ps (fun x =>
        { x with dsp := { x.dsp with descs := tset [] x.dsp.descs n r.1, etabs := tset [] x.dsp.etabs n tab } })
      (match bad with
       | some o => s.spnFault ps 0x0332 34 0 [(16, 1, 34), (17, 1, n), (18, 2, o)]
       | none => s)
    else s) s

/-- Step 4 of R100: configuration, unit settings, tables; a word that is uncorrectable faults the context
(R247). -/
def State.loadCfg (s : State) (ps idx : Nat) (f : Flips) : State :=
  match s.runningSlot with
  | none => s
  | some j =>
    let r := s.readCfg j.job.img idx f
    let s := r.2.2
    match r.2.1 with
    | some i => s.spnFault ps 0x0203 0 0 [(16, 1, 2), (17, 4, i)]
    | none =>
      let s := s.modSpn ps (fun x => { x with cfg := r.1, maskErr := false })
      let s := s.wr (Reg.SPN_SECT ps) idx
      let s := s.wf (Reg.SPN_STATE ps) 6 6 (if r.1.dmode then 1 else 0)
      let s := s.readFreq ps 32 f
      let s := s.readFreq ps 33 f
      s.readDispatch ps f

/-- Event 0x0312 at a section load for stale items since the last one (R97). -/
def State.staleEvent (s : State) (ps : Nat) : State :=
  let n := (s.spn ps).staleSeen
  if n = 0 then s
  else (s.modSpn ps (fun x => { x with staleSeen := 0 })).event 0x0312 (unitId 0 ps) 1 [(17, 4, n)]

/-- Steps 4 to 6 of R100 under generation `g`: the strand runs from the section's first cycle, or drains
where a drain was asked for during the load, in the new section's drain mode (R103, R109). -/
def State.loadSection (s : State) (ps idx : Nat) (g : BitVec 2) (f : Flips) : State :=
  let s := s.loadCfg ps idx f
  if s.spnState ps = 0 then s
  else
    let s := s.wf (Reg.SPN_STATE ps) 5 4 g.toNat
    let s := s.staleEvent ps
    let s := s.modSpn ps (fun x =>
      { x with phase := 0, drainN := 0, cfgReady := false, fresh := true, load := .none, segStart := x.pos, loops := [], idleLeft := 0
               drain := x.drain.map (fun d => { d with scan := x.cfg.dmode }) })
    let s := s.wf (Reg.SPN_STATE ps) 15 8 0
    s.setSpnState ps (if (s.spn ps).drain.isSome then 3 else 1)

/-- Operations issued in a section before the present one are in flight (R100 step 3). -/
def Spn.olderOps (x : Spn) (gen : BitVec 2) : Bool := x.inFlight.any (fun o => o.gen != gen)

/-- Bundle lengths in words (R128, R131): a LOOP's body is itself bundles. -/
def bundleLen (w : DWord) : Nat :=
  if slot w 63 60 = 0 then 1 + ((List.range 55).filter (fun u => w.toNat.testBit u)).length else 1

/-- The bundle that ends the segment from position `p`: its kind, section index and position. -/
def segmentEnd (l : List DWord) : Nat → Nat → Option (Nat × Nat × Nat)
  | 0, _ => none
  | n + 1, p =>
    match l[p]? with
    | none => none
    | some w =>
      if slot w 63 60 = 3 then some (3, slot w 23 0, p)
      else if slot w 63 60 = 5 then some (5, 0, p)
      else segmentEnd l n (p + bundleLen w)

/-- The clean state a strand starts from (R589), keeping operations in flight and the stale items counted since the
last load (R97). -/
def Spn.clean (x : Spn) (strand : List DWord) : Spn :=
  { ops := x.inFlight, slotUse := x.slotUse, strand := strand, load := .start, fresh := true, staleSeen := x.staleSeen }

/-- The end of a strand (R135): DONE is set and the spindle becomes IDLE. -/
def State.strandDone (s : State) (ps : Nat) : State :=
  let s := s.modSpn ps (fun x => { x with load := .none, drain := none })
  (s.wf (Reg.SPN_STRAND ps) 6 6 1).setSpnState ps 0

end Sys2Proof.Machine
end

