-- ==== Sys2Proof/Machine/Save.lean ====
section
/-! DEFINITION. Drain and restore of a spindle's state: the save area, the channel image, and copying of
SRAM (spec/03_spindle.md R103 to R109; spec/04_skein.md R136; spec/08_on_die_interconnect.md R275, R276). -/

namespace Sys2Proof.Config

/-- The bytes a spindle's state takes in the scan state of a save area (R104 to R107 name what it holds and lay out the
channel image alone; log 25). -/
opaque scanImage : Machine.Saved → List Byte

/-- The state a restore takes from bytes of scan state that no drain wrote (log 25). -/
opaque scanOther : List Byte → Machine.Saved

end Sys2Proof.Config

namespace Sys2Proof.Machine

/-- Bytes of a logical spindle's save area (R103). -/
def saveSize : Nat := 0x3800000

/-- The save area of a logical spindle of a context. -/
def saveBase (j : JobParams) (l : Nat) : Nat := j.save + saveSize * l

/-- State codes of the channel image (R276, R277): outbound UNBOUND 0, OPEN 1, CLOSED 2. -/
def outCode : ChanSt → Nat
  | .unbound => 0 | .opened => 1 | .ended => 1 | .closed => 2
/-- Inbound UNBOUND 0, OPEN 1, ENDED 2, CLOSED 3. -/
def inCode : ChanSt → Nat
  | .unbound => 0 | .opened => 1 | .ended => 2 | .closed => 3

/-- Bytes the sequencer or a stop writes to the save area; they answer to no unit. -/
def State.writeArea (s : State) (a : Nat) (l : List Byte) (pm : Nat) : State := (s.devWrite .sequencer a l pm []).2.2

/-- A message slot of the channel image (R276). -/
def msgSlot (m : ChanMsg) : List Byte :=
  let w (i : Nat) : Nat := ((m.words[i]?).getD 0).toNat
  toLE 4 (w 0) ++ toLE 4 (w 1) ++ toLE 4 (w 2) ++ toLE 4 (w 3) ++ toLE 2 m.seq.toNat ++
    toLE 1 (m.words.length - 1) ++ toLE 1 m.poison.toNat ++ List.replicate 12 0

/-- An empty message slot: one whose sequence belongs to another slot (log 155). -/
def noSlot (i : Nat) : List Byte := List.replicate 16 0 ++ toLE 2 (i + 1) ++ List.replicate 14 0

/-- The 32 message slots of one inbound queue (R276). -/
def queueSlots (iq : InQueue) : List Byte :=
  (List.range 32).flatMap (fun i =>
    match iq.held.find? (fun m => m.seq.toNat % 32 == i) with
    | some m => msgSlot m
    | none => noSlot i)

/-- Writes the image of one inbound queue (R276). -/
def State.writeQueueImage (s : State) (base q : Nat) (iq : InQueue) : State :=
  (s.writeArea (base + 0x190000 + q * 0x400) (queueSlots iq) 0).writeArea (base + 0x1A0000 + q * 16)
    (toLE 2 iq.head.toNat ++ toLE 1 (inCode iq.st) ++ toLE 1 iq.held.length ++ List.replicate 12 0) 0

/-- Writes the image of one outbound channel (R276). -/
def State.writeOutImage (s : State) (base c : Nat) (oc : OutChan) : State :=
  s.writeArea (base + 0x1A0400 + c * 16)
    (toLE 2 oc.seq.toNat ++ toLE 1 (outCode oc.st) ++ toLE 1 oc.credits ++ List.replicate 12 0) 0

def State.writeChannels (s : State) (base : Nat) (x : Spn) : State :=
  (List.range 64).foldl (fun s c =>
    (s.writeQueueImage base c (tget {} x.inq c)).writeOutImage base c (tget {} x.outq c)) s

def inStOf (n : Nat) : ChanSt := if n = 1 then .opened else if n = 2 then .ended else if n = 3 then .closed else .unbound
def outStOf (n : Nat) : ChanSt := if n = 1 then .opened else if n = 2 then .closed else .unbound

/-- Inbound queue `q` as the channel image `b` holds it: a slot holds the message of its place in the 32 above the head, or
none (R272, R276); binding, receives and timers are the record's. -/
def queueIn (b : List Byte) (q : Nat) (old : InQueue) : InQueue :=
  let head := BitVec.ofNat 16 (rdLE b (0x10000 + 16 * q) 2)
  let slotOf (k : Nat) : Option ChanMsg :=
    let seq := head + BitVec.ofNat 16 k
    let o := q * 0x400 + seq.toNat % 32 * 32
    if rdLE b (o + 16) 2 = seq.toNat then
      some { seq := seq, poison := BitVec.ofNat 4 (rdLE b (o + 19) 1)
             words := (List.range (rdLE b (o + 18) 1 % 4 + 1)).map (fun i => BitVec.ofNat 32 (rdLE b (o + 4 * i) 4)) }
    else none
  { old with st := inStOf (rdLE b (0x10002 + 16 * q) 1), head := head, held := (List.range 32).filterMap slotOf }

/-- Outbound channel `c` as the channel image holds it (R276). -/
def outIn (b : List Byte) (c : Nat) (old : OutChan) : OutChan :=
  { old with seq := BitVec.ofNat 16 (rdLE b (0x10400 + 16 * c) 2), st := outStOf (rdLE b (0x10402 + 16 * c) 1),
             credits := rdLE b (0x10403 + 16 * c) 1 }

/-- The channels of a spindle from their image. -/
def Spn.channelsIn (x : Spn) (b : List Byte) : Spn :=
  { x with inq := (List.range 64).foldl (fun t q => tset {} t q (queueIn b q (tget {} x.inq q))) []
           outq := (List.range 64).foldl (fun t c => tset {} t c (outIn b c (tget {} x.outq c))) [] }

/-- The header of a save area (R107). -/
def saveHeader (scan : Bool) (gen l sect num skc hold scanBytes tick : Nat) : List Byte :=
  toLE 2 1 ++ toLE 1 (if scan then 1 else 0) ++ toLE 1 gen ++ toLE 1 l ++ toLE 3 0 ++ toLE 4 sect ++ toLE 4 num ++
    toLE 8 skc ++ toLE 8 hold ++ toLE 4 0x180000 ++ toLE 4 scanBytes ++ toLE 8 tick ++ toLE 16 0

/-- Copies the SRAM window of a physical spindle to a device address word by word, each word decoded as it is read and
poison with it (R106, R246). -/
def State.sramOut (s : State) (ps a : Nat) (f : Flips) : State :=
  (List.range 0x600000).foldl (fun s i =>
    let r := State.readWords 1 s (sramKey ps (8 * i)) srcRead f
    r.2.2.2.writeArea (a + 8 * i) r.1 r.2.1) s

/-- Accumulator records of a save area, tile-major, 24 bytes each (R107). -/
def State.accOut (s : State) (x : Spn) (a : Nat) : State :=
  (List.range 65536).foldl (fun s i => s.writeArea (a + 24 * i) (toLE 24 (accRecord (tget {} x.acc i))) 0) s

/-- The accumulators of an image of records (R56, R107). -/
def accsIn (b : List Byte) : List (Nat × Acc) :=
  (List.range 65536).foldl (fun t i => tset {} t i ((accOfRecord (rdLE b (24 * i) 24)).getD { poison := true })) []

/-- The record of a spindle's state for its context (R104, R106). -/
def State.savedOf (s : State) (ps : Nat) (scan : Bool) : Saved :=
  { spn := { s.spn ps with drain := none, drainN := 0 }, scan := scan, started := true
    num := s.rd (Reg.SPN_NUM_FLAGS ps), skc := s.rd64 (Reg.SPN_SKC_LO ps), hold := s.rd64 (Reg.SPN_HOLD_CNT_LO ps)
    step := s.rd64 (Reg.SPN_STEP_LO ps), sect := s.rd (Reg.SPN_SECT ps), gen := (s.gen ps).toNat
    strandReg := s.rd (Reg.SPN_STRAND ps) }

/-- What of a spindle's state goes into the scan state beside accumulators and channel image, and its bytes (R107; log
25). -/
def Saved.scanBytes (v : Saved) : List Byte :=
  (Config.scanImage { v with spn := { v.spn with acc := [], inq := [], outq := [] }, img := [] }).take 0x65F800

/-- Writes a spindle's state to its context's save area (R104 step 4, R106 step 3, R107). -/
def State.saveSpindle (s : State) (ps : Nat) (scan : Bool) (f : Flips) : State :=
  match s.runningSlot, s.logicalOf ps with
  | some j, some l =>
    let base := saveBase j.job l
    let sv := s.savedOf ps scan
    let img := sv.scanBytes
    let s := s.writeArea base (saveHeader scan sv.gen l sv.sect sv.num sv.skc sv.hold (0x10800 + img.length) s.now.toNat) 0
    let s := s.accOut (s.spn ps) (base + 0x10000)
    let s := s.writeChannels base (s.spn ps)
    let s := s.writeArea (base + 0x1A0800) img 0
    let s := s.sramOut ps (base + 0x800000) f
    s.setSlot s.runSlot ((s.slotOf s.runSlot).map (fun j => { j with saved := tset {} j.saved l { sv with img := img } }))
  | _, _ => s

/-- The record a restore takes: the context's own where the scan state is the bytes its drain wrote (log 25). -/
def Saved.scanIn (v : Saved) (b : List Byte) : Saved :=
  if b = v.img then v
  else
    let o := Config.scanOther b
    { o with spn := { o.spn with strand := v.spn.strand, inq := v.spn.inq, outq := v.spn.outq }, num := v.num, img := v.img }

/-- The header check of R108 step 1: the offset of the first field that fails, which event 0x0316 then names (log 164). -/
def headerBad (h : List Byte) (l : Nat) : Option Nat :=
  if rdLE h 0 2 ≠ 1 then some 0
  else if 1 < rdLE h 2 1 then some 2
  else if 4 ≤ rdLE h 3 1 then some 3
  else if rdLE h 4 1 ≠ l then some 4
  else if rdLE h 5 3 ≠ 0 then some 5
  else if rdLE h 48 16 ≠ 0 then some 48 else none

/-- The registers of a restored or starting strand (R107, R108, R158). -/
def State.putSavedRegs (s : State) (ps : Nat) (v : Saved) : State :=
  let s := s.wr (Reg.SPN_NUM_FLAGS ps) v.num
  let s := s.wr64 (Reg.SPN_SKC_LO ps) v.skc
  let s := s.wr64 (Reg.SPN_HOLD_CNT_LO ps) v.hold
  let s := s.wr64 (Reg.SPN_STEP_LO ps) v.step
  let s := s.wr (Reg.SPN_SECT ps) v.sect
  s.wr (Reg.SPN_STRAND ps) v.strandReg

/-- A parked inbound queue of a context that faults closes in its image: messages held are discarded and the sender told
(R275, R277). -/
def State.closeParked (s : State) (n l q : Nat) : State :=
  match s.slotOf n with
  | none => s
  | some j =>
    let v := tget {} j.saved l
    let iq := tget {} v.spn.inq q
    match iq.st with
    | .opened | .ended =>
      let ctx := j.ctx.toNat
      let ps := s.physOf l
      let k := iq.held.length
      let iq' := { iq with st := .closed, held := [] }
      let x := { v.spn with inq := tset {} v.spn.inq q iq' }
      let s := s.setSlot n (some { j with saved := tset {} j.saved l { v with spn := x.starveQueue q } })
      let s := (s.sat (Reg.CHN_DISC ps q) k).writeQueueImage (saveBase j.job l) q iq'
      let s := if k = 0 then s else s.eventCtx 0x0403 (unitId 0 ps) 1 ctx [(16, 1, q), (17, 1, k)]
      match iq.bind with
      | none => s
      | some b => s.sendChan .notice ctx (s.ownEnd l q) b noMsg 0
    | _ => s

/-- A resident context faults: the running one as above, another one where it stands, its inbound queues closing (R277). -/
def State.faultCtx (s : State) (ctx code : Nat) : State :=
  if s.runCtx = ctx then s.faultRunning code
  else
    match s.slotOf (ctx % 16) with
    | some x => if x.ctx.toNat = ctx ∧ x.st ≠ .faulted then
        let s := (List.range x.lcount).foldl (fun s l => (List.range 64).foldl (fun s q => s.closeParked (ctx % 16) l q) s) s
        let t := s.tally x
        (s.modSlot (ctx % 16) (fun x => { x with st := .faulted, fault := code, flags := t.1, counts := t.2 })).contextLost (ctx % 16) code
      else s
    | none => s

end Sys2Proof.Machine
end

