-- ==== Sys2Proof/Machine/Strand.lean ====
section
/-! DEFINITION. The strand's bundles, section loads, forced loads, drains and restores, strand positions,
token arrivals, sluice fills, acknowledgements and bank accesses, command by command
(spec/03_spindle.md R81 to R114; spec/04_skein.md R128 to R147).  A command whose trigger does not hold
changes nothing (log 2). -/

namespace Sys2Proof.Machine

/-! ### Bundles. -/

/-- The strand's next bundle is of kind `k`. -/
def State.nextKind (s : State) (ps k : Nat) : Bool :=
  s.strandRuns ps && (s.spn ps).idleLeft == 0 && (s.spn ps).kind == some k

/-- A strand word met with an uncorrectable error faults the context (R247). -/
def State.badStrand (s : State) (ps : Nat) : State :=
  s.spnFault ps 0x0203 0 0 [(16, 1, 1), (17, 4, (s.spn ps).pos)]

/-- EXEC (R129): one A-tick of a strand whose next bundle is an EXEC. -/
def execExec (ps : Fin 18) (bad : Bool) (f : Flips) (s : State) : Res :=
  if s.nextKind ps 0 then
    if bad then .next (s.badStrand ps)
    else
      let sl := (s.spn ps).slots
      .next (s.strandTick ps sl f (fun x => x.next (1 + sl.length)))
  else .next s

/-- What an IDLE still has to lay down after one cycle (R130). -/
def idleAfter (x : Spn) : Spn :=
  let left := (if x.idleLeft = 0 then slot x.word 23 0 else x.idleLeft) - 1
  if left = 0 then ({ x with idleLeft := 0 } : Spn).next 1 else { x with idleLeft := left }

/-- IDLE (R130): one A-tick of a strand within an IDLE's COUNT cycles. -/
def execIdle (ps : Fin 18) (bad : Bool) (s : State) : Res :=
  if s.strandRuns ps && (decide (0 < (s.spn ps).idleLeft) || (s.spn ps).kind == some 1) then
    if bad then .next (s.badStrand ps) else .next (s.strandTick ps [] [] idleAfter)
  else .next s

/-- Enters a loop body, or skips it where the trip count is 0 (R131). -/
def Spn.enterLoop (x : Spn) (trip : Word) : Spn :=
  let w := x.word
  let body := slot w 46 32
  if trip = 0 then x.next (1 + body)
  else
    { x with pos := x.pos + 1
             loops := { trip := trip, iter := 0, start := x.pos + 1, len := body, dp := w.toNat.testBit 59 } :: x.loops }

/-- LOOP (R131, R132, R247). -/
def execLoop (ps : Fin 18) (s : State) (bad : Bool := false) : Res :=
  if s.nextKind ps 2 then
    if bad then .next (s.badStrand ps) else
    if s.drainStops ps then .next (s.reachPoint ps) else
    let x := s.spn ps
    let w := x.word
    if slot w 58 58 = 0 then .next (s.setSpn ps (x.enterLoop (BitVec.ofNat 32 (slot w 31 0))))
    else
      let u := 28 + slot w 57 56
      let t := tagOf x (slot w 55 47)
      match x.trips.find? (fun e => e.steer == u && e.tag == t) with
      | some e => .next (s.setSpn ps (Spn.enterLoop { x with trips := x.trips.erase e } e.count))
      | none => .next (s.holdTick ps (hSTEER_WAIT ||| s.cycleCauses ps []) [] [])
  else .next s

/-! ### Section ends and loads (R97 to R101). -/

/-- The strand leaves its segment: the spindle enters LOAD and drains; with a drain asked for it does not
load the next section (R100, R109). -/
def State.endSegment (s : State) (ps : Nat) : State :=
  let x := s.spn ps
  let s := s.setSpn ps { x with nextSect := slot x.word 23 0, pos := x.pos + 1, load := .draining }
  if s.spnState ps = 3 then s else s.setSpnState ps 4

/-- The spindle drains at its section's or strand's end, or from its drain point (R74, R104): its A-ticks are drain ticks
but under a scan drain, which holds everything (R106). -/
def State.drainsNow (s : State) (ps : Nat) : Bool :=
  let x := s.spn ps
  let st := s.spnState ps
  let scan := match x.drain with
    | some d => d.scan && st == 3
    | none => false
  let point := match x.drain with
    | some d => d.point && !d.ready && st == 3
    | none => false
  !scan && (st == 1 || st == 2 || st == 3 || st == 4) && (x.load == .draining || x.load == .ending || point)

/-- SECTION_END (R100 step 1, R247): the strand reaches its SECTION_END, or holds one drain tick more. -/
def execSectionEnd (ps : Fin 18) (s : State) (bad : Bool := false) : Res :=
  if s.nextKind ps 3 then .next (if bad then s.badStrand ps else s.endSegment ps)
  else if (s.spn ps).load = .draining ∧ s.drainsNow ps = true ∧ (s.spn ps).drained (s.gen ps) = false then .next (s.drainTick ps)
  else .next s

/-- A spindle drained at its section's end does not load the next section; its resume point is that section's start,
whose generation forward reads already carry (R100 step 5, R109); it drains in the mode of the section that ended (R103). -/
def State.atBoundary (s : State) (ps : Nat) : State :=
  let g := s.gen ps + 1
  let s := s.modSpn ps (fun x => { x with load := .none, fresh := true, segStart := x.pos, loops := [], idleLeft := 0, phase := 0
                                          drainN := 0
                                          drain := x.drain.map (fun d => { d with point := true, scan := x.cfg.dmode }) })
  (s.wr (Reg.SPN_SECT ps) (s.spn ps).nextSect).wf (Reg.SPN_STATE ps) 5 4 g.toNat

/-- SECTION_DRAINED (R98 to R100, R135): a drained spindle discards what is left over; at a strand's end
it becomes IDLE, and where a drain was asked for it stands at its drain point. -/
def execSectionDrained (ps : Fin 18) (s : State) : Res :=
  let x := s.spn ps
  if x.drained (s.gen ps) ∧ s.drainsNow ps = true then
    match x.load with
    | .ending => .next ((s.flushLeft ps).strandDone ps)
    | .draining =>
      let s := s.flushLeft ps
      if s.spnState ps = 3 then .next (s.atBoundary ps)
      else .next (s.modSpn ps (fun x => { x with load := .waiting }))
    | _ => .next s
  else .next s

/-- An uncorrectable word met in the skein buffer (0), the strand buffer (1) or the configuration buffer (2), at its word
offset, faults the running context (R234, R247). -/
def State.badBuffer (s : State) (ps : Nat) (b : Fin 3) (off : Nat) : State :=
  if b = 0 then (s.event 0x0203 devUnit 2 [(16, 1, 0), (17, 4, off)]).faultRunning 0x0203
  else s.spnFault ps 0x0203 0 0 [(16, 1, (b : Nat)), (17, 4, off)]

/-- Step 4 of R100 as far as the buffers let it go (R127, R247): `go` once segment and configuration are present. -/
def State.whenPresent (s : State) (ps : Nat) (bad : Option (Fin 3 × Nat)) (go : State) : State :=
  match bad with
  | some b => s.badBuffer ps b.1 b.2
  | none => if (s.spn ps).cfgReady then go else s.waitTick ps

/-- SECTION_LOAD_PROCEED (R100 steps 3 to 6, R127, R589): with no older operation in flight, and the next segment and its
configuration present, the configuration loads; until then, or under STOP_AT_END, the spindle holds.  `ready` says
that segment and configuration have come in, `bad` an uncorrectable word among them. -/
def execSectionLoadProceed (ps : Fin 18) (f : Flips) (s : State) (ready : Bool := true) (bad : Option (Fin 3 × Nat) := none) : Res :=
  if s.spnState ps ≠ 4 then .next s
  else
    let s := if ready then s.modSpn ps (fun x => { x with cfgReady := true }) else s
    let x := s.spn ps
    match x.load with
    | .waiting =>
      if x.olderOps (s.gen ps) || s.rbit (Reg.SPN_SECT_CTL ps) 1 then .next (s.waitTick ps)
      else .next (s.whenPresent ps bad (s.loadSection ps x.nextSect (s.gen ps + 1) f))
    | .start =>
      if x.inFlight.isEmpty then .next (s.whenPresent ps bad (s.loadSection ps 0 (s.gen ps + 1) f))
      else .next (s.waitTick ps)
    | _ => .next s

/-- STOP_AT_END (R113): the bit is written. -/
def execStopAtEnd (ps : Fin 18) (v : Bool) (s : State) : Res :=
  .next (s.rowWrite (Reg.SPN_SECT_CTL ps) (fun s => s.wf (Reg.SPN_SECT_CTL ps) 1 1 (if v then 1 else 0)))

/-- How the current segment ends: the section the next one runs under and its first word; none at
CONTEXT_END (R101, R126). -/
def Spn.nextSegment (x : Spn) : Option (Nat × Nat) :=
  match x.load with
  | .ending => none
  | .draining | .waiting => some (x.nextSect, x.pos)
  | _ =>
    match segmentEnd x.strand x.strand.length x.pos with
    | some (3, n, p) => some (n, p + 1)
    | _ => none

/-- Step 2 of R101: every token is removed and counted, a flit on a forked route once and a pipelined update that carries
no token not at all; unfilled WATCHes end, and receives with them; a reserved sluice
entry holds no token and goes uncounted. -/
def Spn.flushAll (x : Spn) : Spn × Nat :=
  let n := x.store.length + (x.links.map (fun e => (e.src, e.age))).eraseDups.length +
    x.pipe.countP (fun e => e.out.isSome) + x.sluice.countP (·.filled)
  ({ x with
     store := [], links := [], pipe := [], sluice := []
     ops := x.ops.filter (fun o => decide (o.kind ≠ OpKind.watch ∧ o.kind ≠ OpKind.recv)) }.unpost, n)

/-- A forced load begins (R101 steps 1 to 3, R109). -/
def State.forceLoad (s : State) (ps sect pos : Nat) : State :=
  let r := (s.spn ps).flushAll
  let s := s.setSpn ps { r.1 with load := .forced, nextSect := sect, pos := pos, loops := [], idleLeft := 0
                                  drainN := 0, drain := none, flushed := r.2 }
  let s := s.satField (Reg.SPN_FLUSH_CNT ps) 15 0 r.2
  s.setSpnState ps 4

/-- A written SPN_SECT_CTL.FORCE (R101, R113, R114): ignored unless the spindle is in RUN, HOLD, LOAD or draining, at
a section end in the same A-tick, and in a segment that ends with CONTEXT_END. -/
def State.forceSect (s : State) (ps : Nat) : State :=
  let st := s.spnState ps
  if (st = 1 ∨ st = 2 ∨ st = 4) ∧ s.nextKind ps 3 = false then
    match (s.spn ps).nextSegment with
    | some (n, p) => s.forceLoad ps n p
    | none => s
  else s

/-- SPN_SECT_CTL_FORCE (R101). -/
def execSpnSectCtlForce (ps : Fin 18) (s : State) : Res := .next (s.rowWrite (Reg.SPN_SECT_CTL ps) (fun s => s.forceSect ps))

/-- FORCED_LOAD_RESUME (R101 steps 3 to 6, R411): a context abort loads nothing and leaves the spindle IDLE. -/
def execForcedLoadResume (ps : Fin 18) (f : Flips) (s : State) : Res :=
  let x := s.spn ps
  if x.load = .forced ∧ s.spnState ps = 4 then
    if x.olderOps (s.gen ps) then .next (s.waitTick ps)
    else
      let g := s.gen ps + 2
      let s := s.event 0x0313 (unitId 0 ps) 1 [(16, 4, x.flushed), (20, 1, g.toNat)]
      if x.dump then
        let s := (s.modSpn ps (fun x => { x with load := .none, dump := false })).wf (Reg.SPN_STATE ps) 5 4 g.toNat
        .next (s.setSpnState ps 0)
      else .next (s.loadSection ps x.nextSect g f)
  else .next s

/-- The sender's end of a strand: an end marker follows the last message of each channel (R277). -/
def State.endMarks (s : State) (ps : Nat) : State :=
  (List.range 64).foldl (fun s c =>
    let oc := tget {} (s.spn ps).outq c
    match oc.st, oc.bind with
    | .opened, some b => s.sendChan .endMark s.runCtx (s.ownEnd (s.logicalN ps) c) b { noMsg with seq := oc.seq } 0
    | .closed, some b => s.sendChan .endMark s.runCtx (s.ownEnd (s.logicalN ps) c) b { noMsg with seq := oc.seq } 0
    | _, _ => s) s

/-- CONTEXT_END (R135, R247, R277): the strand ends, its channels are told, and the spindle drains. -/
def execContextEnd (ps : Fin 18) (s : State) (bad : Bool := false) : Res :=
  if s.nextKind ps 5 then
    if bad then .next (s.badStrand ps) else
    let s := (s.endMarks ps).closeQueues ps s.runCtx
    .next (s.modSpn ps (fun x => { x with load := .ending }))
  else if (s.spn ps).load = .ending ∧ s.drainsNow ps = true ∧ (s.spn ps).drained (s.gen ps) = false then .next (s.drainTick ps)
  else .next s

/-! ### Positions (R147). -/

/-- The logical spindles of the running context whose strands have not executed CONTEXT_END (R147). -/
def State.liveLogical (s : State) : List Nat :=
  match s.runningSlot with
  | none => []
  | some x => (List.range x.lcount).filter (fun l => s.lmapValid l && !s.ranOut (s.physOf l))

/-- POSITION_REPORT: the floored position of a strand reaches the sequencer, unless its message is lost (R268). -/
def execPositionReport (ps : Fin 18) (w : CtlWay) (s : State) : Res :=
  let s := s.ctlWay 1 w
  match s.logicalOf ps with
  | none => .next s
  | some l =>
    if w.bad.isSome then .next s else
    let p := s.rd64 (Reg.SPN_SKC_LO ps)
    .next { s with seqr := { s.seqr with positions := tset 0 s.seqr.positions l (p - p % 256) } }

/-- MINPOS: the least reported position among the strands that have not ended. -/
def State.minPos (s : State) : Option Nat :=
  (s.liveLogical.map (fun l => tget 0 s.seqr.positions l)).min?

/-- MINPOS_BROADCAST: MINPOS reaches a strand, unless its message is lost (R268). -/
def execMinposBroadcast (ps : Fin 18) (w : CtlWay) (s : State) : Res :=
  let s := s.ctlWay 1 w
  match s.minPos with
  | none => .next s
  | some m => if w.bad.isSome then .next s else .next ((s.wr64 Reg.SKN_MINPOS_LO m).modSpn ps (fun x => { x with minpos := BitVec.ofNat 64 m }))

/-! ### Drain and restore (R103 to R109). -/

/-- DRAIN_REQUEST (R103, R109): served in the section's drain mode; at its SECTION_END after that, during a load after
it. -/
def State.askDrain (s : State) (ps : Nat) (why : DrainFor) : State :=
  let st := s.spnState ps
  if (st = 1 ∨ st = 2 ∨ st = 4) ∧ (s.spn ps).drain = none then
    let d : Drain := { why := why, scan := (s.spn ps).cfg.dmode && !s.nextKind ps 3, asked := s.now, point := false, ready := false }
    let s := s.modSpn ps (fun x => { x with drain := some d })
    if st = 4 then s else s.setSpnState ps 3
  else s

def execDrainRequest (ps : Fin 18) (why : DrainFor) (s : State) : Res := .next (s.askDrain ps why)

/-- DRAIN_POINT_REACHED (R104 steps 1 and 2). -/
def execDrainPointReached (ps : Fin 18) (s : State) : Res :=
  if s.spnState ps = 3 ∧ s.drainStops ps = true then
    .next (s.reachPoint ps)
  else .next s

/-- RUN_EMPTY_DRAIN_DONE (R104 steps 3 and 4): once drained, left-over items go and the state is written (at a section's
start there are none, and forward reads stay);
until then the A-tick is a drain tick. -/
def execRunEmptyDrainDone (ps : Fin 18) (s : State) (f : Flips := []) : Res :=
  match (s.spn ps).drain with
  | some d =>
    if d.point ∧ d.scan = false ∧ d.ready = false ∧ s.spnState ps = 3 then
      if (s.spn ps).drained (s.gen ps) then
        let s := (if (s.spn ps).fresh then s else s.flushLeft ps).saveSpindle ps false f
        .next (s.modSpn ps (fun x => { x with drain := some { d with ready := true } }))
      else .next (s.drainTick ps)
    else .next s
  | none => .next s

/-- DRAIN_LIMIT_EXPIRY (R105): with no drain point within SPN_DRAIN_CTL.LIMIT the drain becomes a scan. -/
def execDrainLimitExpiry (ps : Fin 18) (s : State) : Res :=
  match (s.spn ps).drain with
  | some d =>
    if s.spnState ps = 3 ∧ d.point = false ∧ d.scan = false ∧ s.rd (Reg.SPN_DRAIN_CTL ps) ≤ (s.now - d.asked).toNat then
      .next ((s.modSpn ps (fun x => { x with drain := some { d with scan := true } })).event 0x0314 (unitId 0 ps) 1
        [(17, 4, s.rd (Reg.SPN_SECT ps))])
    else .next s
  | none => .next s

/-- SCAN_DRAIN_OPS_DONE (R106, R211): with every operation ended the state is shifted out; until then the
spindle holds. -/
def execScanDrainOpsDone (ps : Fin 18) (s : State) (f : Flips := []) : Res :=
  match (s.spn ps).drain with
  | some d =>
    if d.scan ∧ d.ready = false ∧ s.spnState ps = 3 then
      if (s.spn ps).inFlight.isEmpty then
        .next ((s.saveSpindle ps true f).modSpn ps (fun x => { x with drain := some { d with ready := true } }))
      else .next (s.waitTick ps)
    else .next s
  | none => .next s

/-- DRAIN_SAVE_WRITTEN (R104, R106, R110). -/
def execDrainSaveWritten (ps : Fin 18) (s : State) : Res :=
  match (s.spn ps).drain with
  | some d =>
    if d.ready ∧ s.spnState ps = 3 then
      let s := s.modSpn ps (fun x => { x with drain := none })
      .next (s.setSpnState ps 0)
    else .next s
  | none => .next s

/-- SPINDLE_RESTORE (R108 steps 1 and 2): the header is checked and the restore waits. -/
def execSpindleRestore (ps : Fin 18) (f : Flips) (s : State) : Res :=
  match s.runningSlot, s.logicalOf ps with
  | some j, some l =>
    if s.spnState ps = 0 ∧ j.st = .running ∧ (tget {} j.saved l).started ∧ (s.spn ps).load = .none ∧
        s.rbit (Reg.SPN_STRAND ps) 6 = false ∧ s.seqr.giving = none ∧ s.hlth.moves.all (fun m => m.src != ps) then
      let r := s.devRead .sequencer (saveBase j.job l) 64 f
      let s := r.2.2.2
      if r.2.1 ≠ 0 then
        .next (s.spnFault ps 0x0316 0 0 [(17, 1, 2), (18, 4, 8 * ((List.range 8).find? (fun i => r.2.1.testBit i)).getD 0)])
      else
        match headerBad r.1 l with
        | none => .next ((s.modSpn ps (fun x => { x with load := .restore })).setSpnState ps 3)
        | some o => .next (s.spnFault ps 0x0316 0 0 [(17, 1, 1), (18, 4, o)])
    else .next s
  | _, _ => .next s

/-- One part of a save area, `n` bytes from offset `off`, is read back and handed to `k`; a word met with poison faults the
context instead (R108 step 4). -/
def State.areaPart (s : State) (ps base off n : Nat) (f : Flips) (k : List Byte → State → State) : State :=
  let d := s.devRead .sequencer (base + off) n f
  match (List.range (n / 8 + 1)).find? (fun i => d.2.1.testBit i) with
  | some i => d.2.2.2.spnFault ps 0x0316 0 0 [(17, 1, 2), (18, 4, off + 8 * i)]
  | none => k d.1 d.2.2.2

/-- The strand resumes at the saved skein cycle, drain point, or section or strand end (R108 step 5). -/
def State.resumeAt (s : State) (ps : Nat) (v : Saved) : State :=
  let next : LoadStep := if v.spn.load = .draining ∨ v.spn.load = .ending then v.spn.load else .none
  (s.modSpn ps (fun x => { x with load := next })).setSpnState ps
    (match next with
     | .draining => 4
     | .ending => 2
     | _ => 1)

/-- A spindle takes a record's state: of its operations only receives are still its own, and those an earlier context left
keep their numbers (R108; log 25). -/
def Spn.takeBack (x old : Spn) : Spn :=
  ({ x with ops := old.inFlight ++ x.ops.filter (fun o => o.kind == .recv), slotUse := old.slotUse
            load := .restore, drain := none, dump := false, staleSeen := old.staleSeen } : Spn).unpost

/-- The configuration and tables a section load has just read stay (R108 step 3, R177, R198). -/
def Spn.withLoaded (x old : Spn) : Spn :=
  let x := [32, 33].foldl (fun x u => putSeq x u { seqOf x u with ftab := (seqOf old u).ftab }) x
  { x with cfg := old.cfg, maskErr := old.maskErr, dsp := { x.dsp with descs := old.dsp.descs, etabs := old.dsp.etabs } }

/-- The images of a save area go back into a spindle: configuration, scan state, channel image, accumulators and SRAM (R108
steps 3 to 5). -/
def State.restoreFrom (s : State) (ps l : Nat) (j : Slot) (f : Flips) : State :=
  let base := saveBase j.job l
  let h := s.devRead .sequencer base 64 f
  let sect := rdLE h.1 8 4
  let s := (h.2.2.2.wf (Reg.SPN_STATE ps) 5 4 (rdLE h.1 3 1)).loadCfg ps sect f
  if s.spnState ps = 0 then s
  else
    s.areaPart ps base 0x10000 0x180000 f (fun ac s =>
      s.areaPart ps base 0x190000 0x10800 f (fun ch s =>
        s.areaPart ps base 0x1A0800 (rdLE h.1 36 4 - 0x10800) f (fun sc s =>
          let v := (tget {} j.saved l).scanIn sc
          let s := s.modSpn ps (fun old => { (((v.spn.takeBack old).channelsIn ch).unpost.withLoaded old) with acc := accsIn ac })
          let s := s.putSavedRegs ps
            { v with num := rdLE h.1 12 4 ||| v.num, skc := rdLE h.1 16 8, hold := rdLE h.1 24 8, sect := sect }
          s.areaPart ps base 0x800000 0x3000000 f (fun sr s =>
            ((s.clearKeys (sramKey ps 0) (sramKey ps 0x3000000)).putBytes (sramKey ps 0) sr).resumeAt ps v))))

/-- SPINDLE_RESTORE_PROCEED (R108 steps 2 to 5). -/
def execSpindleRestoreProceed (ps : Fin 18) (f : Flips) (s : State) : Res :=
  match s.runningSlot, s.logicalOf ps with
  | some j, some l =>
    if (s.spn ps).load = .restore ∧ s.spnState ps = 3 then
      if (s.spn ps).inFlight.isEmpty then .next (s.restoreFrom ps l j f)
      else .next (s.waitTick ps)
    else .next s
  | _, _ => .next s

/-! ### Arrivals. -/

/-- TOKEN_ARRIVAL (R81): a token reaches an input port in a skein cycle or a drain tick; `fire` is the slot word of the
unit in the same skein cycle, if it has one. -/
def execTokenArrival (ps : Fin 18) (u : Fin 51) (port : Fin 4) (fl : Flit) (fire : Option DWord) (s : State) : Res :=
  let x := s.spn ps
  let e : StoreEnt := { unit := u, port := port, flit := fl }
  let data := [(16, 1, (u : Nat)), (17, 1, (port : Nat)), (18, 1, fl.tag.toNat)]
  if !s.strandRuns ps && !s.drainsNow ps then .next s
  else if !accepted (s.gen ps) fl.gen then .next (s.staleCount ps 1)
  else if x.store.any e.same then .next (s.spnFault ps 0x0311 u fl.tag.toNat data)
  else
    let toks := x.store ++ [e]
    let direct : Option DWord := match fire with
      | some w => if s.strandRuns ps && (slotTokens x toks u w).any (fun n => n.1 == (port : Nat) && n.2 == fl.tag) &&
                     cycleHolds x (s.gen ps) toks [((u : Nat), w)] == 0 then some w else none
      | none => none
    match direct with
    | some w =>
      .next ((s.setSpn ps { x with store := dropToks x.store u (slotTokens x toks u w) }).fireUnit ps u w toks [])
    | none =>
      if 16 ≤ x.store.countP (fun y => y.unit == (u : Nat)) then .next ((s.storeMarks ps).spnFault ps 0x0310 u fl.tag.toNat data)
      else .next ((s.setSpn ps { x with store := toks }).storeMarks ps)

/-- The generation an operation's reservation carries (R96). -/
def OpEnt.resGen (o : OpEnt) : BitVec 2 := if o.fwd then o.gen + 1 else o.gen

/-- One entry or packet of an operation has been answered; at its last it leaves the table (R93, R97). -/
def Spn.opAnswered (x : Spn) (id : Nat) : Spn :=
  { x with ops := x.ops.filterMap (fun o =>
      if o.id = id then (if o.left ≤ 1 then none else some { o with left := o.left - 1 }) else some o) }

/-- A flit of up to 256 bytes of data (R78). -/
def dataFlit (data : List Byte) (poison : Nat) (ctl : Bool) : Flit :=
  { data := BitVec.ofNat 2048 (leNat (data.take 256)), pword := BitVec.ofNat 32 poison, ctl := ctl
    nw := BitVec.ofNat 5 ((min data.length 256 + 7) / 8 - 1) }

/-- SLUICE_FILL (R87, R97, R258, R262): data for entry `idx` of operation `op`, by its tag; `ctl` is the KIND the
answer carries (log 26). -/
def execSluiceFill (ps : Fin 18) (op idx : Nat) (ctl : Bool) (data : List Byte) (poison : Nat) (s : State) : Res :=
  let x := s.spn ps
  let s := s.takeLoad (.resp { dst := .spindle ps, op := op, data := data, poison := poison })
  match x.ops.find? (fun o => o.id == op && decide (o.kind = .read ∨ o.kind = .atom ∨ o.kind = .recv)) with
  | none => .next (s.sat Reg.RING_LATE 1)
  | some o =>
    if s.absorbCause ps ≠ 0 then .next ((s.setSpn ps (x.opAnswered op)).sat Reg.RING_LATE 1)
    else if !accepted (s.gen ps) o.resGen then
      .next ((s.setSpn ps (x.opAnswered op)).staleCount ps 1)
    else
      let t := o.tag + BitVec.ofNat 8 idx
      let x := { x with sluice := fillEntry x.sluice op t (dataFlit data poison ctl) }
      .next (s.setSpn ps (if o.kind = .atom then x else x.opAnswered op))

/-- COMPLETION_ACK (R93, R97, R258, R259): a write's or an atomic's acknowledgement, with the old value.  It
raises its counter whatever the generation, but for an operation an earlier context left (R589, log 27). -/
def execCompletionAck (ps : Fin 18) (op : Nat) (poison : Bool) (old : DWord) (s : State) : Res :=
  let x := s.spn ps
  match x.ops.find? (fun o => o.id == op && decide (o.kind = .write ∨ o.kind = .atom ∨ o.kind = .jobWrite)) with
  | none => .next (s.sat Reg.RING_LATE 1)
  | some o =>
    if s.absorbCause ps ≠ 0 then .next ((s.setSpn ps (x.opAnswered op)).sat Reg.RING_LATE 1) else
    let s := s.setSpn ps (x.opAnswered op)
    let s := if o.kind ≠ .atom then s
      else if !accepted (s.gen ps) o.resGen then s.staleCount ps 1
      else s.modSpn ps (fun x => { x with
        sluice := fillEntry x.sluice op o.tag
          (if poison then poisonFlit else dataFlit (toLE 8 old.toNat ++ List.replicate 248 0) 0 false) })
    .next (if x.load = .start ∨ o.kind = .jobWrite then s else s.raiseCounter ps o.cnt 1 poison)

/-- MERGE_ENGINE_COMPLETE (R211). -/
def execMergeEngineComplete (ps : Fin 18) (k : Fin 2) (s : State) : Res :=
  let r := engineStep (s.spn ps) (32 + k)
  .next ((s.setSpn ps r.1).numFlags ps r.2)

/-! ### Bank accesses from outside the strand (R95, R248). -/

/-- Sends the answer of a read to a spindle as the flits that fill its sluice entries (R87, R262). -/
def State.sendPieces : Nat → State → MemResp → State
  | 0, s, _ => s
  | n + 1, s, r =>
    if r.data.length ≤ 256 then s.send (.resp r)
    else State.sendPieces n (s.send (.resp { r with data := r.data.take 256, poison := r.poison % 2 ^ 32 }))
      { r with data := r.data.drop 256, poison := r.poison / 2 ^ 32 }

/-- Serves a request from outside the strand and sends its answer. -/
def State.serveExternal (s : State) (r : MemReq) (f : Flips) : State :=
  let x := (s.takeLoad (.req r)).serve r f
  match r.src with
  | .spindle _ => State.sendPieces (x.1.data.length / 256 + 1) x.2 x.1
  | _ => x.2.send (.resp x.1)

/-- Two accesses touch one 64-byte-aligned block. -/
def MemReq.meets (a b : MemReq) : Bool :=
  let n (r : MemReq) : Nat := match r.kind with
    | .read => r.len
    | .write => r.data.length
    | .atom _ => 8
  decide (a.addr / 64 ≤ (b.addr + n b - 1) / 64 ∧ b.addr / 64 ≤ (a.addr + n a - 1) / 64)

/-- A flit on a ring still carries the request. -/
def State.onRing (s : State) (r : MemReq) : Bool :=
  s.out.any (fun m => match m with
    | .ring _ _ _ f => f.load == some (.req r)
    | _ => false)

/-- A request on its way may be served: it is on no ring, and no operation its spindle issued before it to the same 64-byte
block still is on its way (R93). -/
def State.mayServe (s : State) (r : MemReq) : Bool :=
  !s.onRing r && match r.src with
  | .spindle _ =>
    !s.out.contains (.req r) || (s.out.takeWhile (fun m => decide (m ≠ .req r))).all (fun m => match m with
      | .req q => decide (q.src ≠ r.src) || !q.meets r
      | _ => true)
  | _ => true

/-- The request addresses the SRAM of physical spindle `ps`, at whose stop it was ejected, or which carries the index of its
window now (R252). -/
def State.bankReq (s : State) (ps : Nat) (r : MemReq) : Bool :=
  match s.loc r.addr, s.doorOf (.req r) with
  | .sram l _, none => s.physOf l == ps
  | .sram _ _, some st => spindleStop ps == st
  | _, _ => false

/-- The request was ejected at the stop of a spindle that no longer carries the index of its window (R252, R260). -/
def State.strayReq (s : State) (ps : Nat) (r : MemReq) : Bool :=
  match s.loc r.addr with
  | .sram l _ => s.physOf l != ps
  | _ => false

/-- A request that reached a spindle its index has left is answered with poison (R258, R260). -/
def State.serveStray (s : State) (ps : Nat) (r : MemReq) : State :=
  let st := spindleStop ps
  let n := match r.kind with
    | .read => r.len
    | .write => 0
    | .atom _ => 8
  let s := (s.takeLoad (.req r)).sat (if r.kind = .read then Reg.RING_ABS_RD st else Reg.RING_ABS_WR st) 1
  State.sendPieces (n / 256 + 1) s { dst := r.src, op := r.op, data := List.replicate n 0, poison := 2 ^ max 1 ((n + 7) / 8) - 1 }

/-- BANK_EXTERNAL_ACCESS (R95). -/
def execBankExternalAccess (ps : Fin 18) (r : MemReq) (f : Flips) (s : State) : Res :=
  if s.bankReq ps r && s.mayServe r then
    .next (if s.strayReq ps r then s.serveStray ps r else s.serveExternal r f)
  else .next s

/-- The slots the next skein cycle of a strand names. -/
def Spn.nextSlots (x : Spn) : List (Nat × DWord) := if x.idleLeft = 0 ∧ x.kind = some 0 then x.slots else []

/-- BANK_STEAL (R90, R91, R95): an access that has waited 256 A-ticks takes the next one, in which the spindle holds with
every other cause it meets. -/
def execBankSteal (ps : Fin 18) (r : MemReq) (waited : Nat) (f : Flips) (s : State) : Res :=
  if s.bankReq ps r = true ∧ s.mayServe r = true ∧ 256 ≤ waited then
    let x := s.spn ps
    let s := if s.strandRuns ps then
        s.holdTick ps (hBANK_STEAL ||| s.cycleCauses ps x.nextSlots) (stallSends x x.nextSlots) (stallRecvs x (s.gen ps) x.nextSlots)
      else s
    .next (if s.strayReq ps r then s.serveStray ps r else s.serveExternal r f)
  else .next s

/-- SRAM_SCRUB (R248): one line of a bank is read, and written back where it was corrected. -/
def execSramScrub (ps : Fin 18) (bank : Fin 16) (line : Fin 12288) (f : Flips) (s : State) : Res :=
  if s.domOn (regDomain (Reg.SPN_STATE ps)) then
    .next (State.readWords 32 s (sramKey ps (0x300000 * bank + 256 * line)) srcScrub f).2.2.2
  else .next s

end Sys2Proof.Machine
end

