-- ==== Sys2Proof/Machine/Dram.lean ====
section
/-! DEFINITION. Commands of the memory channels (spec/07_memory.md R226 to R243). -/

namespace Sys2Proof.Machine

/-- The request addresses no SRAM window. -/
def State.dramReq (s : State) (r : MemReq) : Bool :=
  match s.loc r.addr with
  | .sram _ _ => false
  | _ => true

/-- The access crosses the seam on the management memory links: M2 and M3 lie beyond it (R263). -/
def State.overSeam (s : State) (r : MemReq) : Bool :=
  match s.loc r.addr with
  | .dram ch _ => 130 ≤ ch
  | _ => false

/-- Serves the request; the data words of an access over the seam that arrive uncorrectable are marked (R257, R264):
those of a write or an atomic on the way in, those of a read on the way out. -/
def State.serveMarked (s : State) (r : MemReq) (f : Flips) (e : LinkErrs) : State :=
  if s.overSeam r then
    let s := s.linkErrs 4 e
    if r.kind = .read then
      let t := s.serveExternal r f
      let mark (m : Msg) : Msg := match m with
        | .resp x => if x.dst = r.src ∧ x.op = r.op then .resp { x with poison := x.poison ||| e.ue.toNat } else m
        | m => m
      { t with out := t.out.take (t.out.length - 1) ++ (t.out.drop (t.out.length - 1)).map mark }
    else
      let s := s.takeLoad (.req r)
      s.serveExternal { r with poison := r.poison ||| e.ue.toNat } f
  else s.serveExternal r f

/-- The request reads or writes a bank in which a row is being copied: it is held until the copy ends (R240). -/
def State.bankHeld (s : State) (r : MemReq) : Bool :=
  let n := match r.kind with
    | .read => r.len
    | .write => r.data.length
    | .atom _ => 8
  (List.range (n / 256 + 2)).any (fun i =>
    let b := max r.addr (r.addr - r.addr % 256 + 256 * i)
    match s.loc b with
    | .dram ch ca => decide (b < r.addr + n) &&
        (s.chan ch).copies.any (fun k => k.layer == bitsOf ca 18 17 && k.bank == bitsOf ca 16 13)
    | _ => false)

/-- The polder whose crossbar a physical spindle has a port into: that of the position it occupies, or of its home position
(R18 to R20, R223). -/
def State.spindlePolder (s : State) (ps : Nat) : Option Nat :=
  match s.logicalOf ps with
  | some l => some (s.posOf l / 4)
  | none => if ps < 8 then some (ps / 4) else if 9 ≤ ps ∧ ps < 17 then some ((ps - 1) / 4) else none

/-- A spindle reaches a channel of its own polder through the port of its position, which carries no traffic while the
position is empty or fenced; a spare has a port only while it occupies a position there (R19, R20, R223).  Every other
request comes over the rings. -/
def State.portOpen (s : State) (r : MemReq) : Bool :=
  match r.src, s.loc r.addr with
  | .spindle ps, .dram ch _ =>
    if ch < 128 ∧ s.spindlePolder ps = some (ch / 32) then (s.logicalOf ps).isSome && s.absorbCause ps == 0 else true
  | _, _ => true

/-- DRAM_REQUEST (R231): a read, write or atomic is served and answered. -/
def execDramRequest (r : MemReq) (e : LinkErrs) (f : Flips) (s : State) : Res :=
  if s.dramReq r && s.mayServe r && s.portOpen r && !s.bankHeld r && !(s.overSeam r && s.ring.lost.contains 4) then .next (s.serveMarked r f e).chanReports else .next s

/-! ### Repair (R239, R240). -/

/-- The row group of a row (R222). -/
def rowUnit (ch layer bank : Nat) : Nat := unitId 8 (ch * 8 + 2 * layer + bank / 8)

/-- The first copy under way in a channel leaves it. -/
def State.dropCopy (s : State) (ch : Nat) : State :=
  let c := s.chan ch
  s.setChan ch { c with copies := c.copies.drop 1 }

/-- The command that asked for a repair of this row is answered (R537). -/
def State.repairDone (s : State) (ch : Nat) (k : RepairCopy) (status : Nat) : State :=
  s.finish (.repair ch k.layer k.bank k.row) status (if status = stOK then toLE 1 k.spare else [])

/-- The table entry of a completed copy (R240): the row's own, its spare retired, or the lowest free one. -/
def State.mapRow (s : State) (ch : Nat) (k : RepairCopy) : State :=
  let w := 2 ^ 31 + (if k.fuse then 2 ^ 30 else 0) + k.layer * 2 ^ 28 + k.bank * 2 ^ 24 + k.row * 2 ^ 12 + k.spare * 2 ^ 10
  match s.repairEntry ch k.layer k.bank k.row with
  | some n =>
    let old := s.rf (Reg.MEM_REPAIR ch n) 11 10
    let c := s.chan ch
    (s.setChan ch { c with retired := c.retired ++ [(bankKey k.layer k.bank, old)] }).wr (Reg.MEM_REPAIR ch n) w
  | none =>
    match (List.range 128).find? (fun n => !s.rbit (Reg.MEM_REPAIR ch n) 31) with
    | some n => s.wr (Reg.MEM_REPAIR ch n) w
    | none => s

/-- REPAIR_COPY_DONE (R240): the oldest copy of a channel that serves requests ends; `f` are upsets met in the row's 1,024 words. -/
def execRepairCopyDone (ch : Fin 132) (f : Flips) (s : State) : Res :=
  match (s.chan ch).copies with
  | [] => .next s
  | k :: _ =>
    if !s.chanReady ch then .next s else
    let ca := k.row * 2 ^ 19 + k.layer * 2 ^ 17 + k.bank * 2 ^ 13
    let s := (State.readWords 1024 s (dramKey ch ca) srcCopy f).2.2.2
    let s := ((s.mapRow ch k).dropCopy ch).syncSpares ch
    let s := s.event 0x0204 (rowUnit ch k.layer k.bank) 1 [(16, 2, k.row), (18, 1, k.bank), (19, 1, k.spare), (20, 1, 0)]
    let s := s.softCreate (rowUnit ch k.layer k.bank) (k.bank % 8 * 2 ^ 12 + k.row)
    .next (s.repairDone ch k stOK)

/-- REPAIR_COPY_TIMEOUT (R240): the oldest copy has not finished within 100 µs. -/
def execRepairCopyTimeout (ch : Fin 132) (s : State) : Res :=
  match (s.chan ch).copies with
  | [] => .next s
  | k :: _ =>
    if 10000 ≤ (s.now - k.start).toNat then
      let s := (s.dropCopy ch).event 0x0205 (rowUnit ch k.layer k.bank) 2 [(16, 2, k.row), (18, 1, k.bank), (19, 1, 3)]
      .next (s.repairDone ch k stHW_FAULT)
    else .next s

/-! ### Scrub, refresh and temperature (R235 to R237). -/

/-- Bytes of a channel (R220). -/
def chanSize : Nat := 0x60000000

/-- A channel address lies in a row under repair copy. -/
def Chan.copying (c : Chan) (ca : Nat) : Bool :=
  c.copies.any (fun k => k.row == bitsOf ca 30 19 && k.layer == bitsOf ca 18 17 && k.bank == bitsOf ca 16 13)

/-- SCRUB_STEP (R235, R364): the next line is read, unless its row is being copied, and the position moves on; the
scrub of a polder channel pauses while a TSTRICT context runs. -/
def execScrubStep (ch : Fin 132) (f : Flips) (s : State) : Res :=
  if s.chanReady ch ∧ s.rbit (Reg.MEM_CH_CTL ch) 1 ∧ ¬((ch : Nat) < 128 ∧ s.tstrictRuns = true) then
    let ca := s.rd (Reg.MEM_SCRUB_POS ch)
    let s := if (s.chan ch).copying ca then s
      else
        let r := State.readWords 32 s (dramKey ch ca) srcScrub f
        r.2.2.2.autoRepairs r.2.2.1
    .next ((s.wr (Reg.MEM_SCRUB_POS ch) ((ca + 256) % chanSize)).chanReports)
  else .next s

/-- REFRESH (R236): the next bank of a channel is refreshed; no data change. -/
def execRefresh (ch : Fin 132) (s : State) : Res :=
  let st := s.rf (Reg.MEM_CH_STAT ch) 2 0
  if st = 2 ∨ st = 3 then
    let c := s.chan ch
    .next (s.setChan ch { c with refBank := (c.refBank + 1) % 64 })
  else .next s

/-- The channels of a stack. -/
def chansOfStack (k : Nat) : List Nat := (List.range 64).map (64 * k + ·) ++ [128 + 2 * k, 129 + 2 * k]

/-- STACK_SENSOR_READ (R237): the raw readings of a stack's layers, in °C. -/
def execStackSensorRead (stack : Fin 2) (raw : List Int) (s : State) : Res :=
  let c0 := 64 * (stack : Nat)
  let s := (raw.take 4).zipIdx.foldl (fun s x =>
    let bad := decide (x.1 < -40 ∨ 150 < x.1)
    let s := if bad then s.event 0x020A (unitId 3 c0) 1 [(16, 2, unsext 16 x.1)] else s
    let c := s.chan c0
    let l := lastThree (tget [] c.temps x.2) (if bad then 95 else x.1)
    s.setChan c0 { c with temps := tset [] c.temps x.2 l }) s
  match (s.chan c0).temps.map (fun p => medianOf p.2) with
  | [] => .next s
  | m :: r =>
    let hot := r.foldl max m
    let b := s.tempByte hot
    let s := (chansOfStack stack).foldl (fun s ch => s.wf (Reg.MEM_CH_STAT ch) 31 24 b.1) b.2
    let twice := s.rbit (Reg.MEM_CH_STAT c0) 3
    let now2 := if twice then decide (82 ≤ hot) else decide (85 ≤ hot)
    let s := if now2 = twice then s
      else ((chansOfStack stack).foldl (fun s ch =>
        (s.wf (Reg.MEM_CH_STAT ch) 3 3 (if now2 then 1 else 0)).event 0x0208 (unitId 3 ch) 0
          [(16, 1, if now2 then 1 else 0), (17, 1, b.1)]) s).voidTime 4
    let other := (s.chan (64 - c0)).temps.map (fun p => medianOf p.2)
    let ts := other.foldl max hot
    let st := if ts = hot then (stack : Nat) else 1 - stack
    let tb := s.tempByte ts
    let s := tb.2.wf Reg.PWR_TJ 23 16 tb.1
    .next (s.thermal (s.rf Reg.PWR_TJ 7 0) (s.rf Reg.PWR_TJ 15 8) ts st)

/-- SELF_REFRESH_EXIT_TIMEOUT (R242): a channel whose exit began 100 µs ago is still in self-refresh. -/
def execSelfRefreshExitTimeout (ch : Fin 132) (s : State) : Res :=
  match (s.chan ch).srStart with
  | some t =>
    if s.rf (Reg.MEM_CH_STAT ch) 2 0 = 3 ∧ 10000 ≤ (s.now - t).toNat then
      .next ((s.setChan ch { s.chan ch with srStart := none }).fenceChan ch 2)
    else .next s
  | none => .next s

/-! ### Registers with rows of their own (R226, R249). -/

/-- MEM_STRIPE[4:0] from a written value; a reserved encoding leaves its field (R9, R227). -/
def stripeValue (old v : Nat) : Nat :=
  let m := if bitsOf v 1 0 = 3 then bitsOf old 1 0 else bitsOf v 1 0
  let g := if bitsOf v 3 2 = 3 then bitsOf old 3 2 else bitsOf v 3 2
  m + 4 * g + 16 * bitsOf v 4 4

/-- A stripe's interleave written: applied only while no context is resident (R226). -/
def State.writeStripe (s : State) (p t v : Nat) : State :=
  if s.anyResident then s.event 0x020B (unitId 2 p) 1 [(16, 1, t)]
  else s.wr (memStripe p t) (stripeValue (s.rd (memStripe p t)) v)

/-- MEM_STRIPE_WRITE (R226). -/
def execMemStripeWrite (p : Fin 4) (t : Fin 48) (v : Word) (s : State) : Res :=
  .next (s.rowWrite (memStripe p t) (fun s => s.writeStripe p t v.toNat))

/-- A written MEM_CH_CTL.FENCE (R242, R249). -/
def State.chFence (s : State) (ch : Nat) : State :=
  let st := s.rf (Reg.MEM_CH_STAT ch) 2 0
  if st = 1 ∨ st = 2 then s.fenceChan ch 1 else s

/-- MEM_CH_FENCE (R249). -/
def execMemChFence (ch : Fin 132) (s : State) : Res := .next (s.rowWrite (Reg.MEM_CH_CTL ch) (fun s => s.chFence ch))

end Sys2Proof.Machine
end

