-- ==== Sys2Proof/Machine/Links.lean ====
section
/-! DEFINITION. Commands of the half-ports and the router's time-driven actions (spec/09_fabric.md R286 to R292,
R309 to R313, R319). -/

namespace Sys2Proof.Machine

/-- D23 is on and STRAP_SAFE is not in effect, so ports may train (R286, R553). -/
def State.portsLive (s : State) : Bool := s.domOn 23 && !s.rbit Reg.CMD_STRAPS 14

/-- TRAINING_START (R288, R292): an enabled DISABLED half-port begins to train. -/
def execTrainingStart (h : Fin 32) (s : State) : Res :=
  if s.portSt h = 0 ∧ s.portsLive = true ∧ bitOf (s.hctl h) 0 = true ∧ ((h : Nat) % 2 = 0 ∨ bitOf (s.rd (Reg.PORT_CTL (h / 2))) 3 = true) then
    .next (s.retrain h)
  else .next s

/-- The number of lanes passing in a mask. -/
def popc (m : Nat) : Nat := ((List.range 8).filter (fun i => m.testBit i)).length

/-- The width of R288 step 3, in lanes, and the lanes it uses: native takes the lowest passing ones, Ethernet
all of the half or one aligned group of four. -/
def trainWidth (native : Bool) (cfg mask : Nat) : Option (Nat × List Nat) :=
  let pass := (List.range cfg).filter (fun i => mask.testBit i)
  if native then
    match [8, 4, 2, 1].find? (fun w => decide (w ≤ cfg ∧ w ≤ pass.length)) with
    | some w => some (w, pass.take w)
    | none => none
  else if pass.length = cfg then some (cfg, pass)
  else if cfg = 8 then
    (if (List.range 4).all (fun i => pass.contains i) then some (4, [0, 1, 2, 3])
     else if (List.range 4).all (fun i => pass.contains (4 + i)) then some (4, [4, 5, 6, 7]) else none)
  else none

def widthCode (w : Nat) : Nat := if w = 8 then 4 else if w = 4 then 3 else if w = 2 then 2 else if w = 1 then 1 else 0

/-- Event 0x0501 for every lane left out (R288 step 4): lane, error count and failing direction. -/
def State.lanesOut (s : State) (h : Nat) (used : List Nat) (errs : List (Nat × Nat × Nat)) : State :=
  (List.range (s.cfgWidth h)).foldl (fun s i =>
    if used.contains i then s
    else
      let e := (errs.find? (fun e => e.1 == i)).getD (i, 0, 0)
      s.event 0x0501 (unitId 6 (h / 2 * 8 + h % 2 * 4 + i)) 1 [(16, 4, e.2.1), (20, 1, e.2.2)]) s

/-- Lanes of half-port `h` that failed loopback or are fused bad count as not passing (R383). -/
def State.keptLanes (s : State) (h m : Nat) : BitVec 8 :=
  BitVec.ofNat 8 ((List.range 8).foldl (fun a i =>
    let n := h / 2 * 8 + h % 2 * 4 + i
    if m.testBit i && !s.hlth.badLanes.contains n && !s.fusedBad (unitId 6 n) 0 then a + 2 ^ i else a) 0)

/-- A training that has an outcome (R288 to R292). -/
def State.trained (s : State) (h : Nat) (lanes : BitVec 8) (native : Bool) (partner : Nat × Nat) (errs : List (Nat × Nat × Nat)) : State :=
  let x := s.half h
  let lanes := s.keptLanes h lanes.toNat
  if (x.mode = 1 ∧ native = false) ∨ (x.mode = 0 ∧ native = true) then s.trainFail h 3
  else
    let cfg := s.cfgWidth h
    let r := Reg.PORT_ST (h / 2) (h % 2)
    let s := s.wf r 23 16 (popc (lanes.toNat % 2 ^ cfg))
    match trainWidth native cfg lanes.toNat with
    | none => (s.lanesOut h [] errs).trainFail h 1
    | some (w, used) =>
      let s := s.lanesOut h used errs
      let narrow := decide (w < cfg)
      if narrow ∧ x.strict = true then s.trainFail h 2
      else
        let st := if s.devState = stBringup then 2 else 5
        let s := ((s.wf r 6 4 (widthCode w)).wf r 27 24 0).wf r 9 8 (if native then 1 else 0)
        let s := if native then s.wr (Reg.PORT_PARTNER (h / 2) (h % 2))
            (2 ^ 31 + 2 ^ 30 + partner.2 % 32 * 2 ^ 13 + partner.1 % 8192)
          else s.wr (Reg.PORT_PARTNER (h / 2) (h % 2)) 0
        let s := s.setHalf h { s.half h with trainAt := none, retryAt := none, miss := 0, heard := false, fecCount := 0 }
        let s := s.event 0x0504 (s.halfUnit h) 0 [(16, 1, st), (17, 1, w), (18, 1, if native then 1 else 0)]
        let s := if narrow then s.event 0x0502 (s.halfUnit h) 1 [(16, 1, w), (17, 1, cfg), (18, 1, lanes.toNat)] else s
        let s := if s.rbit Reg.CMD_BOOT_ST 17 ∧ s.boot.dirty.contains 1 = false then
            { s with boot := { s.boot with dirty := s.boot.dirty ++ [1] } } else s
        (s.setPortSt h st).syncDgPort.rerouteWaiting

/-- TRAINING_COMPLETE (R288 to R292): the lanes passing at both ends, the mode reached, the partner in native
mode, and the errors of lanes. -/
def execTrainingComplete (h : Fin 32) (lanes : BitVec 8) (native : Bool) (partner : Nat × Nat) (errs : List (Nat × Nat × Nat))
    (s : State) : Res :=
  .next (if s.portSt h = 1 then (s.trained h lanes native partner errs).dikeDone else s)

/-- TRAINING_TIMEOUT (R288): one second has passed. -/
def execTrainingTimeout (h : Fin 32) (s : State) : Res :=
  match (s.half h).trainAt with
  | some t => if s.portSt h = 1 ∧ 100000000 ≤ (s.now - t).toNat then .next (s.trainFail h 4).dikeDone else .next s
  | none => .next s

/-- RETRY_TIMER_EXPIRY (R290, R291). -/
def execRetryTimerExpiry (h : Fin 32) (s : State) : Res :=
  match (s.half h).retryAt with
  | some t =>
    if (s.portSt h = 3 ∨ s.portSt h = 4) ∧ t ≤ s.now ∧ s.portsLive = true then .next (s.beginTraining h) else .next s
  | none => .next s

/-- LINK_SIGNAL_LOSS (R291): signal, lock or alignment lost for more than 1 µs. -/
def execLinkSignalLoss (h : Fin 32) (s : State) : Res := .next (s.breachHalf h 1 0)

/-- A written PORT_CTL.RETRAIN: every enabled half of the port retrains (R292, R324). -/
def State.retrainPort (s : State) (port : Nat) : State :=
  let on (s : State) (h : Nat) : Bool :=
    bitOf (s.hctl h) 0 && (h % 2 == 0 || bitOf (s.rd (Reg.PORT_CTL port)) 3) && s.portsLive
  let s := if on s (2 * port) then s.retrain (2 * port) else s
  if on s (2 * port + 1) then s.retrain (2 * port + 1) else s

/-- PORT_CTL_RETRAIN (R324). -/
def execPortCtlRetrain (port : Fin 16) (s : State) : Res := .next (s.rowWrite (Reg.PORT_CTL port) (fun s => s.retrainPort port))

/-! ### The router (R309, R312, R313, R319). -/

/-- HOP_TIMEOUT (R309): a packet without a usable half-port for FAB_HOP_TMO ticks is discarded. -/
def execHopTimeout (s : State) : Res :=
  match s.fab.waiting.find? (fun w => decide (s.rd Reg.FAB_HOP_TMO ≤ (s.now - w.since).toNat)) with
  | none => .next s
  | some w =>
    .next (({ s with fab := { s.fab with waiting := s.fab.waiting.erase w } } : State).discard 4 w.pkt.scoord w.pkt.dcoord)

/-- The PTP clock in nanoseconds. -/
def State.ptpNs (s : State) : Nat :=
  (s.rd Reg.MGMT_PTP_NOW_SLO + 2 ^ 32 * s.rf Reg.MGMT_PTP_NOW_SHI 15 0) * 1000000000 + s.rd Reg.MGMT_PTP_NOW_NS

/-- Peer `n` is BREACHED with a heartbeat in the last COLL_HB_MISS intervals (R343). -/
def State.peerClears (s : State) (n : Nat) : Bool :=
  s.rbit (Reg.COLL_PEER n) 31 && s.rbit (Reg.COLL_PEER n) 30 && decide ((tget {} s.coll.peers n).since < s.rf Reg.COLL_HB_MISS 3 0)

/-- A BREACHED peer becomes LIVE again (R343). -/
def State.clearPeer (s : State) (n : Nat) : State :=
  let r := Reg.COLL_PEER n
  ((s.wf r 30 30 0).wf r 15 13 0).event 0x0510 devUnit 2 [(16, 1, 7), (17, 2, s.rf r 12 0), (19, 1, 0)]

/-- Peers heard within COLL_HB_MISS intervals return at an epoch switch (R343). -/
def State.peersReturn (s : State) : State := (List.range 64).foldl (fun s n => if s.peerClears n then s.clearPeer n else s) s

/-- A table-epoch switch (R313). -/
def State.epochSwitch (s : State) (bank valid : Nat) : State :=
  let s := ((s.wf Reg.FAB_EPOCH 0 0 bank).wf Reg.FAB_EPOCH 2 1 valid).wf Reg.FAB_EPOCH 3 3 1
  let s := { s with fab := { s.fab with guard := some (s.now + BitVec.ofNat 64 (s.rd Reg.FAB_EPOCH_GUARD)), epoch := none } }
  let s := (List.range 32).foldl (fun s h =>
    if s.portSt h = 5 then s.returnHalf h
    else if s.portSt h = 2 ∧ s.lanesOf h < s.cfgWidth h then s.retrain h else s) s
  (s.event 0x0506 devUnit 0 [(16, 1, bank), (17, 1, valid)]).peersReturn

/-- A scheduled switch whose time has come is made, and its command answered (R313, R491). -/
def State.epochDue (s : State) : State :=
  match s.fab.epoch with
  | some e => if e.sec * 1000000000 + e.ns ≤ s.ptpNs then (s.epochSwitch e.bank e.valid).finish .epoch stOK [] else s
  | none => s

/-- EPOCH_SWITCH_AT_TIME (R313). -/
def execEpochSwitchAtTime (s : State) : Res := .next s.epochDue

/-- EPOCH_GUARD_EXPIRY (R312). -/
def execEpochGuardExpiry (s : State) : Res :=
  match s.fab.guard with
  | some t => if t ≤ s.now then .next (({ s with fab := { s.fab with guard := none } } : State).wf Reg.FAB_EPOCH 3 3 0) else .next s
  | none => .next s

/-- FAB_EPOCH written: a changed CUR switches, with VALID (R313). -/
def State.writeEpoch (s : State) (v : Nat) : State :=
  if bitsOf v 0 0 = s.rf Reg.FAB_EPOCH 0 0 then s.wf Reg.FAB_EPOCH 2 1 (bitsOf v 2 1)
  else s.epochSwitch (bitsOf v 0 0) (bitsOf v 2 1)

/-- FAB_EPOCH_WRITE (R313). -/
def execFabEpochWrite (v : Word) (s : State) : Res := .next (s.rowWrite Reg.FAB_EPOCH (fun s => s.writeEpoch v.toNat))

/-- FAB_TRK.NOW and PEAK (R323). -/
def State.syncTrk (s : State) : State :=
  let n := s.fab.tracker.length
  (s.wf Reg.FAB_TRK 12 0 n).maxField Reg.FAB_TRK 28 16 n

/-- TOMBSTONE_EXPIRY (R319). -/
def execTombstoneExpiry (s : State) : Res :=
  let dead (e : TrkEnt) : Bool := match e.tomb with
    | some t => decide (t ≤ s.now)
    | none => false
  .next ({ s with fab := { s.fab with tracker := s.fab.tracker.filter (fun e => !dead e) } } : State).syncTrk

/-- Packets that wait in this tick. -/
def pktOfCmd : Instr → Option Pkt
  | .fabWrite _ p _ => some p
  | .fabMulticastWrite _ p _ => some p
  | .fabReadRequest _ p _ => some p
  | .fabAtomic _ p _ => some p
  | .fabReadResponse _ p => some p
  | .fabAck _ p => some p
  | _ => none

/-- A packet that would complete the entry waits in the same tick: it is taken first (R320, R325). -/
def State.finalWaits (s : State) (e : TrkEnt) : Bool :=
  (s.pending.filterMap pktOfCmd).any (fun p =>
    e.scoord == p.scoord && e.sep == p.sep && e.op == p.op && e.answer == (p.type == 2) && !e.got.contains p.idx &&
      (if p.last then some p.w7 else e.total) == some (e.got.length + 1))

/-- FAB_RX_TIMEOUT (R319, R320): the first entry incomplete for FAB_RX_TMO ticks is freed. -/
def execFabRxTimeout (s : State) : Res :=
  match s.fab.tracker.find? (fun e => e.tomb.isNone && !s.finalWaits e && decide (s.rd Reg.FAB_RX_TMO ≤ (s.now - e.lastAt).toNat)) with
  | none => .next s
  | some e =>
    let s := ({ s with fab := { s.fab with tracker := s.fab.tracker.erase e } } : State).syncTrk
    .next (s.event 0x0521 devUnit 1 [(16, 2, e.scoord), (18, 1, e.sep), (19, 3, e.op), (22, 2, e.got.length)])

end Sys2Proof.Machine
end

