-- ==== Sys2Proof/Machine/Jobs.lean ====
section
/-! DEFINITION. The dispatch unit's jobs and arrivals (spec/05_sparsity_conditional.md R184 to R190). -/

namespace Sys2Proof.Machine

/-- The job at the head of the queue, of a given kind (R184). -/
def headJob (x : Spn) (k : JobKind) : Option DspJob :=
  match x.dsp.jobs with
  | j :: _ => if j.kind = k then some j else none
  | [] => none

/-- The head job is over: it leaves the queue and the table of operations (R184). -/
def Spn.jobDone (x : Spn) : Spn :=
  match x.dsp.jobs with
  | [] => x
  | j :: r => { x with dsp := { x.dsp with jobs := r }, ops := x.ops.filter (fun o => decide (o.id ≠ j.op)) }

/-- Pieces of at most 4,096 bytes, with their offsets. -/
def pieces : Nat → Nat → List Byte → List (Nat × List Byte)
  | 0, _, _ => []
  | n + 1, o, l => match l with
    | [] => []
    | _ => (o, l.take 4096) :: pieces n (o + 4096) (l.drop 4096)

/-- Packets that carry `n` bytes. -/
def packetsOf (n : Nat) : Nat := (n + 4095) / 4096

/-- Cuts a payload where the poison of its 64-bit words changes and after 4,096 bytes, since a fabric packet
carries poison in every word or in none (R299): offset, bytes, poison. -/
def poisonRuns : Nat → Nat → List Byte → Nat → List (Nat × List Byte × Bool)
  | 0, _, _, _ => []
  | n + 1, o, l, pm =>
    match l with
    | [] => []
    | _ =>
      let bad := pm.testBit 0
      let w := min 512 ((l.length + 7) / 8)
      let k := ((List.range w).find? (fun i => pm.testBit i != bad)).getD w
      (o, l.take (8 * k), bad) :: poisonRuns n (o + 8 * k) (l.drop (8 * k)) (pm / 2 ^ k)

/-- Packets of 4,096 bytes each, one with any poison wholly poisoned: what an operation whose poison would take more than 4,096
packets is sent as (R317; log 167). -/
def fullRuns (data : List Byte) (poison : Nat) : List (Nat × List Byte × Bool) :=
  (List.range ((data.length + 4095) / 4096)).map (fun i =>
    (4096 * i, (data.drop (4096 * i)).take 4096, poison / 2 ^ (512 * i) % 2 ^ 512 != 0))

/-- The packets of an operation that carries `data` to a remote address (R299, R317). -/
def opPackets (b : Pkt) (data : List Byte) (poison : Nat) : List Pkt :=
  let r := poisonRuns (data.length / 8 + 1) 0 data poison
  let r := if r.length ≤ 4096 then r else fullRuns data poison
  r.zipIdx.map (fun x => { b with addr := b.addr + x.1.1, idx := x.2, len := x.1.2.1.length, payload := x.1.2.1
                                  poison := x.1.2.2, last := x.2 + 1 == r.length
                                  w7 := if x.2 + 1 = r.length then r.length else 0 })

/-- An interface write of a job: one operation in flight per piece of at most 4,096 bytes (R184, R185), on
the die or, to another device, as a fabric write that names the phase (R303). -/
def State.jobWrite (s : State) (ps phase toCoord toLogical addr : Nat) (data : List Byte) (poison : Nat) : State :=
  (pieces (data.length / 4096 + 1) 0 data).foldl (fun s p =>
    let x := s.spn ps
    let n := x.nextOp .jobWrite
    let s := s.setSpn ps (x.addOp { newOp .jobWrite (s.gen ps) s.now with addr := addr + p.1, len := p.2.length })
    let l := s.logicalN ps
    if toCoord = s.coord then
      s.send (.dsp { phase := phase, coord := s.coord, logical := l, toCoord := toCoord, toLogical := toLogical
                     addr := addr + p.1, data := p.2, poison := poison / 2 ^ (p.1 / 8) })
    else
      let s := { s with fab := { s.fab with ops := s.fab.ops ++
        [{ sep := l, op := opIdOf n, type := 0, dcoord := toCoord, dep := toLogical, first := s.now, who := .dispatch ps n }] } }
      let b : Pkt := { type := 0, cls := 2, dcoord := toCoord, dep := toLogical, sep := l, tag := s.tagOfCtx s.runCtx
                       addr := addr + p.1, op := opIdOf n, cid := 0x4000 + phase, step := s.rd Reg.DET_STEP_LO }
      (opPackets b p.2 (poison / 2 ^ (p.1 / 8))).foldl State.inject s) s

/-- The expert table of a set, and the experts of an owner by local index (R178). -/
def etabOf (x : Spn) (n : Nat) : List Nat := tget [] x.dsp.etabs n

def ownedBy (tab : List Nat) (coord logical : Nat) : List (Nat × Nat) :=
  (tab.zipIdx.filter (fun e => (expertOwner e.1).1 == coord && (expertOwner e.1).2.1 == logical)).map
    (fun e => ((expertOwner e.1).2.2, e.2))

def phaseOf (x : Spn) (n : Nat) : DspPhase := tget {} x.dsp.phases n
def putPhase (x : Spn) (n : Nat) (p : DspPhase) : Spn := { x with dsp := { x.dsp with phases := tset {} x.dsp.phases n p } }

/-- A phase whose total is reached adds one to its completion counter, once (R189). -/
def State.phaseCheck (s : State) (ps n : Nat) : State :=
  let p := phaseOf (s.spn ps) n
  match p.want with
  | some w =>
    if w ≤ p.got ∧ p.done = false then
      (s.modSpn ps (fun x => putPhase x n { p with done := true })).raiseCounter ps p.cc 1 false
    else s
  | none => s

/-- Arms a phase with its total and counter (R189). -/
def State.arm (s : State) (ps n want cc : Nat) : State :=
  let p := phaseOf (s.spn ps) n
  (s.modSpn ps (fun x => putPhase x n { p with want := some want, armed := some s.now, cc := cc })).phaseCheck ps n

/-- A tally of the unit, expert·8 + j (R183). -/
def tallyOf (x : Spn) (e j : Nat) : Nat := (tget 0 x.dsp.tally (8 * e + j)).toNat

/-- The count block of an owner (R185). -/
def countBlock (x : Spn) (owned : List (Nat × Nat)) : List Byte :=
  (List.range owned.length).flatMap (fun l =>
    let e := ((owned.find? (fun o => o.1 == l)).map (·.2)).getD 0
    (List.range 8).flatMap (fun j => toLE 2 (tallyOf x e j)))

/-- Area base of the spindle with logical index `l` (R177). -/
def area (d : DspDesc) (base l : Nat) : Nat := (base + l * d.astride) % 2 ^ 40

/-- POST_JOB (R185, R189). -/
def execPostJob (ps : Fin 18) (s : State) : Res :=
  let x := s.spn ps
  match headJob x .post with
  | none => .next s
  | some j =>
    let q := dspSet (psetOf x 34 j.pset)
    let d := descOf x j.pset
    let tab := etabOf x j.pset
    let keys := (tab.map (fun e => (expertOwner e).1 * 16 + (expertOwner e).2.1)).dedup
    let owners := keys.mergeSort (fun a b => decide (a ≤ b))
    let s := owners.foldl (fun s k =>
      let owned := ownedBy tab (k / 16) (k % 16)
      s.jobWrite ps 2 (k / 16) (k % 16) (area d d.cnta (k % 16) + q.srcRank * owned.length * 16) (countBlock x owned) 0) s
    let s := s.modSpn ps Spn.jobDone
    let s := s.arm ps 2 (q.nsrc * packetsOf (d.elocal * 16)) d.ccCnt
    .next (s.arm ps 3 q.e d.ccGrnt)

/-- Quotas of one local expert: earlier choices first, then source rank (R186). -/
def grantQuotas (n : Nat → Nat → Nat) (nsrc k cap : Nat) : List (Nat × Nat) × Nat :=
  (List.range (k * nsrc)).foldl (fun (r : List (Nat × Nat) × Nat) i =>
    let j := i / nsrc
    let src := i % nsrc
    let q := min (n src j) r.2
    (r.1 ++ [(src * 8 + j, q)], r.2 - q)) ([], cap)

def quotaOf (q : List (Nat × Nat)) (src j : Nat) : Nat := ((q.find? (fun e => e.1 == src * 8 + j)).map (·.2)).getD 0

/-- A trip token of GRANT on the unit's output (R186). -/
def grantTok (j : DspJob) (gen : BitVec 2) (l kept : Nat) : PipeEnt :=
  { unit := 34, port := j.oport, left := l + 1, out := some (tripTok kept j.otag gen false) }

/-- GRANT_JOB (R186, R189): runs once phase 2 is complete; a poisoned count block faults the context. -/
def execGrantJob (ps : Fin 18) (f : Flips) (s : State) : Res :=
  let x := s.spn ps
  match headJob x .grant with
  | none => .next s
  | some j =>
    if (phaseOf x 2).done = false then .next s
    else
      let q := dspSet (psetOf x 34 j.pset)
      let d := descOf x j.pset
      let l0 := s.logicalN ps
      let owned := ownedBy (etabOf x j.pset) s.coord l0
      let r := s.devRead (.spindle ps) (area d d.cnta l0) (q.nsrc * d.elocal * 16) f
      let s := r.2.2.2
      if r.2.1 ≠ 0 then .next (s.spnFault ps 0x0336 34 0 [(16, 1, 34), (17, 2, 0)])
      else
        let cnt (l src jj : Nat) : Nat := rdLE r.1 (src * d.elocal * 16 + l * 16 + 2 * jj) 2
        let one (acc : State × List Nat) (l : Nat) : State × List Nat :=
          let qs := (grantQuotas (cnt l) q.nsrc q.k q.cap).1
          let e := ((owned.find? (fun o => o.1 == l)).map (·.2)).getD 0
          let w := (List.range q.nsrc).foldl (fun (a : State × Nat) src =>
            let kept := ((List.range q.k).map (quotaOf qs src)).sum
            let ent := toLE 2 a.2 ++ toLE 2 kept ++ toLE 12 0 ++ (List.range 8).flatMap (fun jj => toLE 2 (quotaOf qs src jj))
            let dst := tget (0, 0) x.dsp.srcs src
            (a.1.jobWrite ps 3 dst.1 dst.2 (area d d.grnt dst.2 + e * 32) ent 0, a.2 + kept)) (acc.1, 0)
          (w.1, acc.2 ++ [w.2])
        let res := (List.range d.elocal).foldl one (s, [])
        let kept := res.2
        let s := res.1.wr (Reg.SPN_DSP_KEPT ps) kept.sum
        let g := s.gen ps
        let s := s.modSpn ps (fun x => ({ x with
          dsp := { x.dsp with kept := kept }
          pipe := x.pipe ++ kept.zipIdx.map (fun p => grantTok j g p.2 p.1) } : Spn).jobDone)
        .next (s.arm ps 4 (kept.sum * packetsOf ((1 + d.nflit) * 256)) d.ccStage)

/-- What SCATTER keeps as it walks the records: next slot per expert, entries kept, and whether it
stopped at a fault. -/
structure ScatterAcc where
  s : State
  next : List (Nat × Nat) := []
  kept : Nat := 0
  stop : Bool := false

/-- One choice of one record (R187). -/
def scatterEntry (ps : Nat) (pset : Nat) (f : Flips) (p j : Nat) (rec0 : List Byte) (a : ScatterAcc) : ScatterAcc :=
  if a.stop then a
  else
    let x := a.s.spn ps
    let d := descOf x pset
    let q := dspSet (psetOf x 34 pset)
    let l0 := a.s.logicalN ps
    let w := rdLE rec0 (8 * (1 + j)) 8
    if !w.testBit 44 then a
    else
      let e := bitsOf w 43 32
      let g := a.s.devRead (.spindle ps) (area d d.grnt l0 + e * 32) 32 f
      if g.2.1 ≠ 0 then
        { a with s := g.2.2.2.spnFault ps 0x0336 34 0 [(16, 1, 34), (17, 2, e)], stop := true }
      else if bitsOf w 63 48 < rdLE g.1 (16 + 2 * j) 2 then
        let n := tget 0 a.next e
        let own := expertOwner (((etabOf x pset)[e]?).getD 0)
        let act := g.2.2.2.devRead (.spindle ps) (area d d.act l0 + p * d.nflit * 256) (d.nflit * 256) f
        let ret := area d d.ret l0 + (p * 8 + j) * d.nflitO * 256
        let w1 := ret % 2 ^ 40 + a.s.coord * 2 ^ 40 + l0 * 2 ^ 53 + j * 2 ^ 57
        let hdr := toLE 8 (rdLE rec0 0 8) ++ toLE 8 w1 ++ toLE 8 (w % 2 ^ 32 + e * 2 ^ 32) ++ List.replicate 232 0
        let addr := area d d.stage own.2.1 + (own.2.2 * q.cap + rdLE g.1 0 2 + n) * (1 + d.nflit) * 256
        { s := act.2.2.2.jobWrite ps 4 own.1 own.2.1 addr (hdr ++ act.1) (act.2.1 * 2 ^ 32)
          next := tset 0 a.next e (n + 1), kept := a.kept + 1, stop := false }
      else
        let s := g.2.2.2.sat (Reg.SPN_DSP_DROP ps) 1
        { a with s := (s.devWrite (.spindle ps) (area d d.rrec l0 + p * 128 + 8 * (1 + j))
                        (toLE 8 (w ||| 2 ^ 45)) 0 []).2.2 }

/-- One route record (R182, R187). -/
def scatterToken (ps pset : Nat) (f : Flips) (a : ScatterAcc) (p : Nat) : ScatterAcc :=
  if a.stop then a
  else
    let x := a.s.spn ps
    let d := descOf x pset
    let r := a.s.devRead (.spindle ps) (area d d.rrec (a.s.logicalN ps) + p * 128) 72 f
    if r.2.1 ≠ 0 then
      { a with s := r.2.2.2.spnFault ps 0x0336 34 0 [(16, 1, 34), (17, 2, p)], stop := true }
    else
      (List.range (dspSet (psetOf x 34 pset)).k).foldl (fun a j => scatterEntry ps pset f p j r.1 a) { a with s := r.2.2.2 }

/-- SCATTER_JOB (R187, R189): runs once phase 3 is complete. -/
def execScatterJob (ps : Fin 18) (f : Flips) (s : State) : Res :=
  let x := s.spn ps
  match headJob x .scatter with
  | none => .next s
  | some j =>
    if (phaseOf x 3).done = false then .next s
    else
      let d := descOf x j.pset
      let a := (List.range d.ntok).foldl (scatterToken ps j.pset f) { s := s }
      if a.stop then .next a.s
      else
        let s := a.s.modSpn ps Spn.jobDone
        .next (s.arm ps 5 (a.kept * packetsOf (d.nflitO * 256)) d.ccRet)

/-- RETURN_JOB (R188): runs once phase 4 is complete. -/
def execReturnJob (ps : Fin 18) (f : Flips) (s : State) : Res :=
  let x := s.spn ps
  match headJob x .ret with
  | none => .next s
  | some j =>
    if (phaseOf x 4).done = false then .next s
    else
      let d := descOf x j.pset
      let q := dspSet (psetOf x 34 j.pset)
      let l0 := s.logicalN ps
      let slots := x.dsp.kept.zipIdx.flatMap (fun k => (List.range k.1).map (fun i => k.2 * q.cap + i))
      let s := slots.foldl (fun s n =>
        let h := s.devRead (.spindle ps) (area d d.stage l0 + n * (1 + d.nflit) * 256) 16 f
        let o := h.2.2.2.devRead (.spindle ps) (area d d.out l0 + n * d.nflitO * 256) (d.nflitO * 256) f
        let w1 := rdLE h.1 8 8
        o.2.2.2.jobWrite ps 5 (bitsOf w1 52 40) (bitsOf w1 56 53) (bitsOf w1 39 0) o.1 o.2.1) s
      .next (s.modSpn ps Spn.jobDone)

/-- TRESET_JOB (R190): the tally, the arrival counts and p are cleared. -/
def execTresetJob (ps : Fin 18) (s : State) : Res :=
  let x := s.spn ps
  match headJob x .treset with
  | none => .next s
  | some _ => .next (s.setSpn ps ({ x with dsp := { x.dsp with tally := [], phases := [], p := 0, srcs := [] } } : Spn).jobDone)

/-- A phase has all the packets it expects (R189). -/
def State.dspFull (s : State) (ps n : Nat) : Bool :=
  let ph := phaseOf (s.spn ps) n
  match ph.want with
  | some w => decide (w ≤ ph.got)
  | none => false

/-- A packet counts for its phase; a count block names its source by the rank its address gives (R185, R189). -/
def State.dspCount (s : State) (ps phase coord logical addr : Nat) : State :=
  let x := s.spn ps
  let ph := phaseOf x phase
  let rank : Option Nat :=
    if phase = 2 then
      (List.range 16).findSome? (fun n =>
        let q := dspSet (psetOf x 34 n)
        let d := descOf x n
        let b := area d d.cnta (s.logicalN ps)
        if q.en && decide (b ≤ addr) && decide (0 < d.elocal) && decide (addr < b + q.nsrc * d.elocal * 16) then
          some ((addr - b) / (d.elocal * 16)) else none)
    else none
  let s := s.modSpn ps (fun x =>
    let x := putPhase x phase { ph with got := ph.got + 1 }
    match rank with
    | some r => { x with dsp := { x.dsp with srcs := tset (0, 0) x.dsp.srcs r (coord, logical) } }
    | none => x)
  s.phaseCheck ps phase

/-- DISPATCH_ARRIVAL (R189): a packet is written and counted for its phase, or discarded beyond its total. -/
def execDispatchArrival (ps : Fin 18) (p : DspPkt) (f : Flips) (s : State) : Res :=
  let s := s.take (.dsp p)
  if s.dspFull ps p.phase then .next (s.sat (Reg.SPN_DSP_XTRA ps) 1)
  else .next ((s.devWrite (.spindle ps) p.addr p.data p.poison f).2.2.dspCount ps p.phase p.coord p.logical p.addr)

/-- DSP_ARRIVAL_TIMEOUT (R189): an armed phase still incomplete SPN_DSP_TMO ticks after arming faults the
context. -/
def execDspArrivalTimeout (ps : Fin 18) (n : Fin 4) (s : State) : Res :=
  let ph := phaseOf (s.spn ps) (2 + n)
  match ph.armed with
  | none => .next s
  | some t =>
    if ph.done = false ∧ s.rd (Reg.SPN_DSP_TMO ps) ≤ (s.now - t).toNat then
      .next (s.spnFault ps 0x0335 34 0 [(16, 1, 34), (17, 1, 2 + n), (18, 4, ph.got)])
    else .next s

end Sys2Proof.Machine
end

