-- ==== Sys2Proof/Machine/Ring.lean ====
section
/-! DEFINITION. Commands of the rings, the control network and the message channels
(spec/08_on_die_interconnect.md R253 to R281). -/

namespace Sys2Proof.Machine

/-! ### Ring transport (R253 to R258). -/

/-- The physical spindle a stop serves. -/
def stopSpindle (st : Nat) : Option Nat := (List.range 18).find? (fun ps => spindleStop ps == st)

/-- Next and previous stop in a direction, 0 clockwise. -/
def nextStop (dir st : Nat) : Nat := if dir = 0 then (st + 1) % 29 else (st + 28) % 29

/-- The hop into a stop crosses the seam: which of the two ring crossings (R251, R264). -/
def seamHop (dir st : Nat) : Option Nat :=
  if (dir = 0 ∧ st = 14) ∨ (dir = 1 ∧ st = 13) then some 0
  else if (dir = 0 ∧ st = 0) ∨ (dir = 1 ∧ st = 28) then some 1 else none

/-- The direction with fewer hops from one stop to another (R253). -/
def ringDir (a b : Nat) : Nat := if (b + 29 - a) % 29 ≤ 14 then 0 else 1

def creditKey (ring dir src dst : Nat) : Nat := ((ring * 2 + dir) * 32 + src) * 32 + dst

/-- A ring flit leaves a stop. -/
def State.ringSend (s : State) (ring dir at_ : Nat) (f : RingFlit) : State := s.send (.ring ring dir (nextStop dir at_) f)

/-- A flit waits at its source stop for injection. -/
def State.ringQueue (s : State) (ring : Nat) (f : RingFlit) : State := s.send (.ring ring (ringDir f.src f.dst) f.src f)

/-- The 128 bits of a flit's sidecar (R78, R254). -/
def RingFlit.sidecar (f : RingFlit) : BitVec 128 :=
  BitVec.ofNat 128 (f.dst * 2 ^ 123 + f.src * 2 ^ 118 + f.ttype * 2 ^ 115 + f.entry * 2 ^ 104 + f.fidx * 2 ^ 100 + f.lmask.toNat * 2 ^ 84 +
    (match f.credit with
     | some c => 2 ^ 83 + c * 2 ^ 78
     | none => 0) + f.astat * 2 ^ 74 + f.ckind * 2 ^ 72 + f.flit.pword.toNat * 2 ^ 16 + f.flit.tag.toNat * 2 ^ 8 +
    f.flit.gen.toNat * 2 ^ 6 + (if f.flit.ctl then 2 ^ 5 else 0) + f.flit.nw.toNat)

/-- The flit's fields are ones its sidecar can hold: no stop beyond 28, no reserved code, fields of another TTYPE zero (R254). -/
def RingFlit.fits (f : RingFlit) : Bool :=
  decide (f.dst < 29 ∧ f.src < 29 ∧ f.dst ≠ f.src ∧ f.ttype < 8 ∧ f.entry < 2048 ∧ f.fidx < 16) &&
  (f.lmask == 0 || f.ttype == 7) && f.credit.all (fun c => decide (c < 29)) &&
  decide (f.astat < 4) && (f.astat == 0 || f.ttype == 3) && decide (f.ckind < 3) && (f.ckind == 0 || f.ttype == 6)

/-- The ring and direction's credits for a destination: 8 less those spent (R255). -/
def State.takeCredit (s : State) (ring dir src dst : Nat) : State :=
  { s with ring := { s.ring with spent := tmod 0 s.ring.spent (creditKey ring dir src dst) (fun n => n - 1) } }
def State.spendCredit (s : State) (ring dir src dst : Nat) : State :=
  { s with ring := { s.ring with spent := tmod 0 s.ring.spent (creditKey ring dir src dst) (fun n => n + 1) } }

/-- An ejected flit leaves its buffer: its credit goes back the other way to its source, in an empty slot (R255). -/
def State.returnCredit (s : State) (ring dir st src : Nat) : State :=
  s.ringSend ring (1 - dir) st { dst := src, src := st, ttype := 6, entry := 0, credit := some src }

/-- The stop named by CRSTOP takes the credit a flit carries (R254). -/
def State.meetCredit (s : State) (ring dir st : Nat) (f : RingFlit) : RingFlit × State :=
  if f.credit = some st then ({ f with credit := none }, s.takeCredit ring (1 - dir) st f.src) else (f, s)

/-! #### What a flit carries (R252, R253, R257). -/

def RingLoad.msg : RingLoad → Msg
  | .req r => .req r
  | .resp r => .resp r
  | .chan p => .chan p

/-- The stop of whoever issued an operation. -/
def Who.stop : Who → Nat
  | .spindle ps => spindleStop ps
  | .sequencer => 2
  | .coll => 27
  | .reel => 28
  | .core _ => 1
  | .fabric _ => 25
  | _ => 0

/-- The stop of the spindle that carries a logical index now (R252). -/
def State.logicalStop (s : State) (l : Nat) : Option Nat := if s.lmapValid l then some (spindleStop (s.physOf l)) else none

/-- The stop that serves a device address (R251). -/
def State.addrStop (s : State) (a : Nat) : Option Nat :=
  match s.loc a with
  | .dram ch _ => some (if ch < 128 then crossbarStop (ch / 32) else 1)
  | .sram l _ => s.logicalStop l
  | _ => none

/-- The operation an answer belongs to, which gives its ring (R253). -/
def State.answeredOp (s : State) (r : MemResp) : Option OpEnt :=
  match r.dst with
  | .spindle ps => (s.spn ps).ops.find? (fun o => o.id == r.op)
  | _ => none

def ChanKind.ttype : ChanKind → Nat × Nat × Nat
  | .message => (5, 0, 0)
  | .accept => (3, 2, 0)
  | .closedAns => (3, 3, 0)
  | .credit => (6, 0, 0)
  | .notice => (6, 0, 1)
  | .readerNotice => (6, 0, 1)
  | .endMark => (6, 0, 2)

/-- The flit is one that may carry this: its stops, TTYPE and ring (R19, R252 to R254).  A spindle's request to a channel of
its own polder takes no ring. -/
def State.loadFits (s : State) (ring : Nat) (f : RingFlit) : RingLoad → Bool
  | .req r =>
    let own := match r.src, s.loc r.addr with
      | .spindle ps, .dram ch _ => decide (ch < 128) && s.spindlePolder ps == some (ch / 32)
      | _, _ => false
    let tt := match r.kind with
      | .read => 0
      | .write => 2
      | .atom _ => 4
    !own && s.addrStop r.addr == some f.dst && f.src == r.src.stop && f.ttype == tt && r.addr / 256 % 4 == ring &&
      decide (r.data.length ≤ 256)
  | .resp r =>
    r.dst.stop == f.dst && (f.ttype == 1 || f.ttype == 3) && decide (r.data.length ≤ 256) &&
      (s.answeredOp r).all (fun o => o.addr / 256 % 4 == ring)
  | .chan p =>
    !p.dst.remote && s.logicalStop p.dst.logical == some f.dst && (f.ttype, f.astat, f.ckind) == p.kind.ttype &&
      (p.kind != .message || (s.logicalStop p.src.logical == some f.src && p.src.chan % 4 == ring))

/-- The logical index whose spindle a message is for. -/
def State.loadIndex (s : State) : RingLoad → Option Nat
  | .req r => (match s.loc r.addr with
    | .sram l _ => some l
    | _ => none)
  | .resp _ => none
  | .chan p => some p.dst.logical

/-- The index is being moved: from the start of its transfer injection for it is held (R260). -/
def State.movingIndex (s : State) (l : Nat) : Bool :=
  s.hlth.moves.any (fun m => m.logical == l && (match (s.spn m.src).drain with
    | some d => decide (d.why = .transfer)
    | none => false))

/-- Words a hop spoiled become poison of what the flit carries (R257). -/
def RingLoad.spoil (ue : Nat) : RingLoad → RingLoad
  | .req r => .req { r with poison := r.poison ||| ue }
  | .resp r => .resp { r with poison := r.poison ||| ue }
  | .chan p =>
    let m := (List.range 4).foldl (fun a i => if ue.testBit (i / 2) then a + 2 ^ i else a) 0
    .chan (if p.kind = .message then { p with msg := { p.msg with poison := p.msg.poison ||| BitVec.ofNat 4 m } } else p)

/-- A spindle's operation is answered by what its absorbing stop discards (R258). -/
def State.absorbAnswer (s : State) (st : Nat) (found : OpEnt → Bool) : State :=
  let s := s.sat Reg.RING_LATE 1
  match stopSpindle st with
  | some ps => (match (s.spn ps).ops.find? found with
    | some o => s.setSpn ps ((s.spn ps).opAnswered o.id)
    | none => s)
  | none => s

/-- Answers channel traffic from the end it was addressed to. -/
def State.answerChan (s : State) (k : ChanKind) (p : ChanPkt) : State := s.sendChan k p.ctx { p.dst with remote := false, coord := s.coord } p.src noMsg p.op

/-- What an absorbing stop does with a message for its unit (R258). -/
def State.absorbLoad (s : State) (st : Nat) : RingLoad → State
  | .req r =>
    let n := match r.kind with
      | .read => r.len
      | .write => 0
      | .atom _ => 8
    let s := s.sat (if r.kind = .read then Reg.RING_ABS_RD st else Reg.RING_ABS_WR st) 1
    State.sendPieces (n / 256 + 1) s { dst := r.src, op := r.op, data := List.replicate n 0, poison := 2 ^ max 1 ((n + 7) / 8) - 1 }
  | .resp r => s.absorbAnswer st (fun o => o.id == r.op)
  | .chan p =>
    match p.kind with
    | .message => (s.sat (Reg.RING_ABS_CH st) 1).answerChan .closedAns p
    | .accept | .closedAns => s.absorbAnswer st (fun o => o.kind == .send && o.id == p.op)
    | _ => s

/-- What an absorbing stop does with a flit for its unit (R258). -/
def State.absorb (s : State) (ring st : Nat) (f : RingFlit) : State :=
  match f.load with
  | some l => s.absorbLoad st l
  | none =>
    let answer (s : State) (t a : Nat) (fl : Flit) : State :=
      s.ringQueue ring { dst := f.src, src := st, ttype := t, entry := f.entry, fidx := f.fidx, astat := a, flit := fl }
    if f.ttype = 2 ∨ f.ttype = 7 ∨ f.ttype = 4 then answer (s.sat (Reg.RING_ABS_WR st) 1) 3 1 (if f.ttype = 4 then poisonFlit else {})
    else if f.ttype = 0 then answer (s.sat (Reg.RING_ABS_RD st) 1) 1 0 poisonFlit
    else if f.ttype = 5 then answer (s.sat (Reg.RING_ABS_CH st) 1) 3 3 {}
    else if f.ttype = 1 ∨ f.ttype = 3 then s.absorbAnswer st (fun o => o.id % 1024 == f.entry)
    else s

/-- What is ejected at a stop waits there for its unit (R257); a row of that unit takes it. -/
def State.toDoor (s : State) (st : Nat) (l : RingLoad) : State :=
  { s with ring := { s.ring with door := s.ring.door ++ [(st, l)] } }

/-- The stop's spindle holds a logical index of the mask. -/
def State.inMask (s : State) (st : Nat) (m : BitVec 16) : Bool :=
  match stopSpindle st with
  | some ps => (match s.logicalOf ps with
    | some l => m.toNat.testBit l
    | none => false)
  | none => false

/-- The stop takes the flit, or a copy of it. -/
def State.ejects (s : State) (st : Nat) (f : RingFlit) : Bool :=
  if f.lmask = 0 then f.dst == st else s.inMask st f.lmask

/-- A forwarded flit passes a starved stop, which marks it, and its upstream neighbour leaves a slot (R256). -/
def State.passStarved (s : State) (ring dir st : Nat) : State :=
  if s.ring.starved.contains (ring, dir, st) then
    { s with ring := { s.ring with starved := s.ring.starved.erase (ring, dir, st)
                                   leave := s.ring.leave ++ [(ring, dir, nextStop (1 - dir) st)] } }
  else { s with ring := { s.ring with leave := s.ring.leave.erase (ring, dir, st) } }

/-- Errors met on the hop (R257, R264): corrected and uncorrectable words, per ring and, at the seam, per
bundle. -/
def State.hopErrors (s : State) (ring dir st ce ue : Nat) : State :=
  let s := (s.sat (Reg.RING_CE ring) ce).sat (Reg.RING_UE ring) ue
  match seamHop dir st with
  | none => s
  | some k =>
    let s := s.sat (Reg.SEAM_CE k) ce
    (List.range ue).foldl (fun s _ => s.seamError k) s

/-- The stops that take a flit or a copy of it, on its way from its source (R253). -/
def State.takers (s : State) (f : RingFlit) : List Nat :=
  if f.lmask = 0 then [f.dst] else (List.range 29).filter (fun st => s.inMask st f.lmask && st != f.src)

/-- A stop may inject the flit: the direction is the shorter one, or clockwise for a multicast whose last copy is its DST's;
what it carries waits to be sent and is not for an index being moved; and the stop holds a credit for every destination
(R252 to R255, R260). -/
def State.canInject (s : State) (ring dir : Nat) (f : RingFlit) : Bool :=
  f.fits &&
  (if f.lmask = 0 then dir == ringDir f.src f.dst
   else dir == 0 && (s.takers f).contains f.dst && (s.takers f).all (fun st => decide ((st + 29 - f.src) % 29 ≤ (f.dst + 29 - f.src) % 29))) &&
  (match f.load with
   | none => true
   | some l => s.out.contains l.msg && s.loadFits ring f l && (s.loadIndex l).all (fun i => !s.movingIndex i)) &&
  (s.takers f).all (fun st => decide (tget 0 s.ring.spent (creditKey ring dir f.src st) < 8))

/-- The flit enters the ring at its source (R255). -/
def State.injectFlit (s : State) (ring dir : Nat) (f : RingFlit) : State :=
  let s := s.take (.ring ring dir f.src f)
  let s := match f.load with
    | some l => s.take l.msg
    | none => s
  ((s.takers f).foldl (fun s st => s.spendCredit ring dir f.src st) s).add64 (Reg.RING_FLITS_LO ring) 1

/-- The flit leaves the ring at a stop that takes it: its credit goes back, and its unit gets what it carries (R255 to R258). -/
def State.eject (s : State) (ring dir st : Nat) (f : RingFlit) : State :=
  let s := if f.ttype = 6 ∧ f.ckind = 0 ∧ f.load = none then s else s.returnCredit ring dir st f.src
  if s.rbit (Reg.RING_STOP_ST st) 0 then s.absorb ring st f
  else match f.load with
    | some l => s.toDoor st (l.spoil f.flit.pword.toNat)
    | none => s

/-- A flit reaches a stop: `ce` words were corrected on the hop, `ue` marks the uncorrectable data words, and `bad` is an
uncorrectable sidecar.  A credit for another stop that the flit no longer carries moves on in an empty slot (R254). -/
def State.flitAt (s : State) (ring dir st : Nat) (f : RingFlit) (ce : Nat) (ue : BitVec 32) (bad : Bool) : State :=
  let n := ((List.range 32).filter (fun i => ue.toNat.testBit i)).length
  let s := s.hopErrors ring dir st ce (n + if bad then 1 else 0)
  if bad then s.event 0x0421 (unitId 4 (ring * 64 + st)) 2 [(16, 1, ring), (17, 1, dir)]
  else
    let m := s.meetCredit ring dir st { f with flit := { f.flit with pword := f.flit.pword ||| ue } }
    let f := m.1
    let s := if m.2.ejects st f then m.2.eject ring dir st f else m.2
    if f.dst ≠ st then (s.passStarved ring dir st).ringSend ring dir st f
    else match f.credit with
      | some c => s.ringSend ring dir st { dst := c, src := f.src, ttype := 6, entry := 0, credit := some c }
      | none => s

/-- RING_FLIT_ARRIVAL (R253 to R258): a flit on its way reaches a stop.  At the stop next to its source it is injected by
arriving: not where that stop leaves a slot empty for a waiting neighbour, nor where it may not be injected yet, when it
waits.  A flit met further on that no command injected has been injected before (log 166). -/
def execRingFlitArrival (ring : Fin 4) (dir : Fin 2) (st : Fin 29) (f : RingFlit) (ce : Nat) (ue : BitVec 32) (bad : Bool)
    (s : State) : Res :=
  if s.out.contains (.ring ring dir st f) ∨ nextStop dir f.src ≠ (st : Nat) then
    .next ((s.take (.ring ring dir st f)).flitAt ring dir st f ce ue bad)
  else if s.ring.leave.contains (ring, dir, f.src) then
    .next { s with ring := { s.ring with leave := s.ring.leave.erase ((ring : Nat), (dir : Nat), f.src) } }
  else if s.canInject ring dir f then .next ((s.injectFlit ring dir f).flitAt ring dir st f ce ue bad)
  else .next s

/-- INJECTION_STARVE (R256): an injection at a stop has waited 32 N-clocks. -/
def execInjectionStarve (ring : Fin 4) (dir : Fin 2) (st : Fin 29) (s : State) : Res :=
  let k : Nat × Nat × Nat := (ring, dir, st)
  if s.ring.starved.contains k then .next s else .next { s with ring := { s.ring with starved := s.ring.starved ++ [k] } }

/-- SEAM_CROSSING_LOSS (R264): crossing `k`, 5 the clock wiring, is lost. -/
def execSeamCrossingLoss (k : Fin 6) (s : State) : Res :=
  if s.ring.lost.contains k then .next s
  else
    let s := { s with ring := { s.ring with lost := s.ring.lost ++ [(k : Nat)] } }
    .next (if (k : Nat) < 5 then s.seamError k else s)

/-- EVENT_RECORD (R268, R269): a node's oldest record travels to the log, carrying LOST after losses; with an
uncorrectable flit the message is discarded on the way, and the next one carries LOST. -/
def execEventRecord (n : Fin 39) (w : CtlWay) (s : State) : Res :=
  let b := tget {} s.nodes n
  match b.recs with
  | [] => .next s
  | e :: r =>
    let bad := w.bad.isSome
    let s := ({ s with nodes := tset {} s.nodes n { recs := r, lost := bad && b.lost, run := bad && b.run } } : State).ctlWay 3 w
    .next (if w.bad.isSome then s else s.toLog { e with lost := e.lost || b.lost })

/-! ### Operations on the die (R262). -/

/-- TTYPE of an operation (R254), for event 0x0422. -/
def OpKind.ttype : OpKind → Nat
  | .read => 0 | .write => 2 | .jobWrite => 2 | .atom => 4 | _ => 5

/-- The operation left the device (R317). -/
def State.isRemoteOp (s : State) (ps op : Nat) : Bool :=
  s.fab.ops.any (fun o => match o.who with
    | .dispatch p n => p == ps && n == op
    | .send p n => p == ps && n == op
    | _ => false)

/-- A channel's own end closes (R277): the other end is told. -/
def State.closeOut (s : State) (ps ctx c : Nat) : State :=
  let x := s.spn ps
  let oc := tget {} x.outq c
  if oc.st = .opened then
    let s := s.setSpn ps { x with outq := tset {} x.outq c { oc with st := .closed } }
    match oc.bind with
    | some b => s.sendChan .readerNotice ctx (s.ownEnd (s.logicalN ps) c) b noMsg 0
    | none => s
  else s

/-- RING_OP_TIMEOUT (R97, R262): an operation of a spindle unanswered for RING_OP_TMO ticks ends with poison; its fills
of a generation no longer accepted are stale items; a SEND ends as a closure. -/
def execRingOpTimeout (ps : Fin 18) (op : Nat) (s : State) : Res :=
  let x := s.spn ps
  match x.ops.find? (fun o => o.id == op && decide (o.kind = .read ∨ o.kind = .write ∨ o.kind = .atom ∨ o.kind = .send ∨ o.kind = .jobWrite)) with
  | none => .next s
  | some o =>
    if s.isRemoteOp ps op || decide ((s.now - o.issued).toNat < s.rd Reg.RING_OP_TMO) then .next s
    else
      let s := s.event 0x0422 (unitId 4 (spindleStop ps)) 2 [(16, 1, o.kind.ttype), (17, 5, o.addr)]
      let stale := (o.kind == .read || o.kind == .atom) && !accepted (s.gen ps) o.resGen
      let s := s.setSpn ps (x.poisonOp op)
      let s := if stale then s.staleCount ps (if o.kind = .read then o.left else 1) else s
      if o.kind = .write ∨ o.kind = .atom then .next (if x.load = .start then s else s.raiseCounter ps o.cnt 1 true)
      else if o.kind = .send then .next (s.closeOut ps s.runCtx o.cnt)
      else .next s

/-! ### Where a context's end of a channel is (R275). -/

/-- The spindle or the save area that holds a logical spindle's channels. -/
structure ChanHome where
  slot : Nat
  ctx : Nat
  l : Nat
  ps : Nat
  live : Bool
  deriving DecidableEq, Repr

/-- Where the channels of logical spindle `l` of context `ctx` are; none where it is not resident, has ended
or faulted (R275, R277). -/
def State.chanHome (s : State) (ctx l : Nat) : Option ChanHome :=
  match s.slotOf (ctx % 16) with
  | none => none
  | some j =>
    if j.ctx.toNat ≠ ctx ∨ j.lcount ≤ l ∨ s.lmapValid l = false ∨ j.st = .faulted ∨ j.st = .ended then none
    else
      let ps := s.physOf l
      let ready := match (s.spn ps).drain with
        | some d => d.ready
        | none => false
      let gone := (s.spnState ps == 0 && !s.rbit (Reg.SPN_STRAND ps) 6) || (s.spn ps).load == .restore
      some { slot := ctx % 16, ctx := ctx, l := l, ps := ps, live := s.runCtx == ctx && !ready && !gone }

/-- The spindle state that holds the channels. -/
def State.chanSpn (s : State) (h : ChanHome) : Spn :=
  if h.live then s.spn h.ps
  else match s.slotOf h.slot with
    | some j => (tget {} j.saved h.l).spn
    | none => {}

/-- Puts the channels back, and their image in the save area where they are parked (R275, R276). -/
def State.putChanSpn (s : State) (h : ChanHome) (x : Spn) (c : Nat) : State :=
  if h.live then s.setSpn h.ps x
  else match s.slotOf h.slot with
    | some j =>
      let base := saveBase j.job h.l
      let v := tget {} j.saved h.l
      let s := s.setSlot h.slot (some { j with saved := tset {} j.saved h.l { v with spn := x } })
      (s.writeQueueImage base c (tget {} x.inq c)).writeOutImage base c (tget {} x.outq c)
    | none => s

/-- The stop of the logical spindle's present carrier absorbs (R258, R279). -/
def State.chanAbsorbed (s : State) (l : Nat) : Bool :=
  s.lmapValid l && (s.absorbCause (s.physOf l) != 0)

/-- Keeps a queue's messages in sequence order from its head. -/
def InQueue.place (q : InQueue) (m : ChanMsg) : InQueue :=
  let key (x : ChanMsg) : Nat := (x.seq - q.head).toNat
  { q with held := (q.held.filter (fun x => decide (key x < key m))) ++ [m] ++ q.held.filter (fun x => decide (key m < key x)) }

/-- Two descriptions of one end. -/
def ChanBind.same (a b : ChanBind) : Bool :=
  a.remote == b.remote && a.logical == b.logical && a.chan == b.chan && (!a.remote || a.coord == b.coord)

/-- The address lies in a DRAM channel in self-refresh (R243). -/
def State.selfRefreshAt (s : State) (a : Nat) : Bool :=
  match s.loc a with
  | .dram ch _ => s.rf (Reg.MEM_CH_STAT ch) 2 0 == 3
  | _ => false

/-- A parked message whose save area lies in a channel in self-refresh is lost there, and the context faults when it
next starts (R243, R411). -/
def State.parkCheck (s : State) (h : ChanHome) : State :=
  match s.slotOf h.slot with
  | none => s
  | some j =>
    if s.selfRefreshAt (saveBase j.job h.l + 0x190000) then s.setSlot h.slot (some { j with parkLost := true }) else s

/-- Channel traffic ejected at the stop of a spindle that no longer carries the index it was for (R252, R260). -/
def State.strayAt (s : State) (p : ChanPkt) : Option Nat :=
  match s.doorOf (.chan p) with
  | some st => if s.logicalStop p.dst.logical = some st then none else some st
  | none => none

/-- CHANNEL_MESSAGE (R272, R275, R277): placed by sequence, parked, discarded, or answered closed. -/
def execChannelMessage (p : ChanPkt) (s : State) : Res :=
  match s.strayAt p with
  | some st => .next ((s.takeLoad (.chan p)).absorbLoad st (.chan p))
  | none =>
  let s := s.takeLoad (.chan p)
  let q := p.dst.chan
  if s.chanAbsorbed p.dst.logical then
    .next ((s.sat (Reg.RING_ABS_CH (spindleStop (s.physOf p.dst.logical))) 1).answerChan .closedAns p)
  else
    match s.chanHome p.ctx p.dst.logical with
    | none => .next (s.answerChan .closedAns p)
    | some h =>
      let x := s.chanSpn h
      let iq := tget {} x.inq q
      let off := (p.msg.seq - iq.head).toNat
      if iq.st = .closed then .next (s.answerChan .closedAns p)
      else if iq.st = .unbound ∨ iq.bind.all (fun b => b.same p.src) = false ∨ 32 ≤ off ∨
          iq.held.any (fun m => m.seq == p.msg.seq) then
        .next ((s.sat (Reg.CHN_DISC h.ps q) 1).eventCtx 0x0404 (unitId 0 h.ps) 1 p.ctx
          [(16, 1, q), (17, 2, p.msg.seq.toNat), (19, 2, if p.src.remote then p.src.coord else s.coord)])
      else
        let s := s.putChanSpn h { x with inq := tset {} x.inq q (iq.place p.msg) } q
        let s := s.answerChan .accept p
        .next (if h.live then State.pumpQueue 64 s h.ps q else s.parkCheck h)

/-- The SEND an answer names: it leaves the table (R277); none where it has ended already (R262, R320). -/
def State.sendAnswered (s : State) (p : ChanPkt) : Option OpEnt × Nat × State :=
  let ps := s.physOf p.dst.logical
  let x := s.spn ps
  match x.ops.find? (fun o => o.kind == .send && (o.id == p.op || (p.src.remote && opIdOf o.id == opIdOf p.op))) with
  | none => (none, ps, if p.src.remote then s.discard 13 p.src.coord s.coord else s.sat Reg.RING_LATE 1)
  | some o =>
    let s := s.setSpn ps { x with ops := x.ops.filter (fun y => decide (y.id ≠ o.id)) }
    (some o, ps, { s with fab := { s.fab with ops := s.fab.ops.filter (fun y => decide (y.who ≠ .send ps o.id)) } })

/-- CHANNEL_ACCEPT (R277). -/
def execChannelAccept (p : ChanPkt) (s : State) : Res :=
  match s.strayAt p with
  | some st => .next ((s.takeLoad (.chan p)).absorbLoad st (.chan p))
  | none =>
  let r := (s.takeLoad (.chan p)).sendAnswered p
  match r.1 with
  | none => .next r.2.2
  | some o => .next (r.2.2.sat (Reg.CHN_SENT r.2.1 o.cnt) 1)

/-- CHANNEL_CLOSED (R277). -/
def execChannelClosed (p : ChanPkt) (s : State) : Res :=
  match s.strayAt p with
  | some st => .next ((s.takeLoad (.chan p)).absorbLoad st (.chan p))
  | none =>
  let r := (s.takeLoad (.chan p)).sendAnswered p
  match r.1 with
  | none => .next r.2.2
  | some o => .next (r.2.2.closeOut r.2.1 p.ctx o.cnt)

/-- CHANNEL_CREDIT (R274, R275): the sender's end regains a credit. -/
def execChannelCredit (p : ChanPkt) (s : State) : Res :=
  if (s.strayAt p).isSome then .next (s.takeLoad (.chan p)) else
  let s := s.takeLoad (.chan p)
  match s.chanHome p.ctx p.dst.logical with
  | none => .next s
  | some h =>
    let x := s.chanSpn h
    let oc := tget {} x.outq p.dst.chan
    .next (s.putChanSpn h { x with outq := tset {} x.outq p.dst.chan { oc with credits := min 32 (oc.credits + 1) } } p.dst.chan)

/-- CLOSE_NOTICE (R277): to a sender it closes the outbound channel, to a reader the inbound queue. -/
def execCloseNotice (p : ChanPkt) (s : State) : Res :=
  if (s.strayAt p).isSome then .next (s.takeLoad (.chan p)) else
  let s := s.takeLoad (.chan p)
  let c := p.dst.chan
  match s.chanHome p.ctx p.dst.logical with
  | none => .next s
  | some h =>
    let x := s.chanSpn h
    if p.kind = .notice then
      let oc := tget {} x.outq c
      if oc.st ≠ .opened then .next s
      else
        let s := s.putChanSpn h { x with outq := tset {} x.outq c { oc with st := .closed } } c
        (match oc.bind with
         | some b => .next (s.sendChan .readerNotice p.ctx (s.ownEnd h.l c) b noMsg 0)
         | none => .next s)
    else
      let iq := tget {} x.inq c
      if iq.st = .opened ∨ iq.st = .ended then
        let s := s.putChanSpn h { x with inq := tset {} x.inq c { iq with st := .closed } } c
        .next (if h.live then State.pumpQueue 64 s h.ps c else s)
      else .next s

/-- END_MARK (R277): an OPEN queue enters ENDED; messages before the marker stay deliverable, those still on their way too. -/
def execEndMark (p : ChanPkt) (s : State) : Res :=
  if (s.strayAt p).isSome then .next (s.takeLoad (.chan p)) else
  let s := s.takeLoad (.chan p)
  let c := p.dst.chan
  match s.chanHome p.ctx p.dst.logical with
  | none => .next s
  | some h =>
    let x := s.chanSpn h
    let iq := tget {} x.inq c
    if iq.st = .opened then
      let s := s.putChanSpn h { x with inq := tset {} x.inq c { iq with st := .ended, endAt := some p.msg.seq } } c
      .next (if h.live then State.pumpQueue 64 s h.ps c else s)
    else .next s

/-- STALL_THRESHOLD (R280, R281): stall timers at CHN_STALL_THR are reported and a knot is looked for. -/
def execStallThreshold (ps : Fin 18) (s : State) : Res := .next (s.stallEvents ps).knotCheck

end Sys2Proof.Machine
end

