-- ==== Sys2Proof/Machine/FabRows.lean ====
section
/-! DEFINITION. What a half-port receives and what the endpoints of the fabric do with it: receive checks,
the receive tracker, completion and answers (spec/09_fabric.md R293 to R321). -/

namespace Sys2Proof.Machine

/-! ### Frames received (R293 to R298). -/

/-- FEC codewords of the receiver, and the window of R291. -/
def State.countFec (s : State) (h ce ue : Nat) : State :=
  let s := (s.sat (Reg.PORT_FEC_CE (h / 2)) ce).sat (Reg.PORT_FEC_UE (h / 2)) ue
  if ue = 0 then s
  else
    let x := s.half h
    let x := if 100000 ≤ (s.now - x.fecAt).toNat then
        { x with fecAt := s.now - BitVec.ofNat 64 (s.now.toNat % 100000), fecCount := 0 } else x
    let n := x.fecCount + ue
    let s := s.setHalf h { x with fecCount := n }
    if s.rf (Reg.PORT_FEC_THR (h / 2)) 15 0 ≤ n then s.breachHalf h 2 0 else s

/-- What the frame filters make of a frame. -/
inductive Rx where
  /-- Counted in PORT_RX_BAD. -/
  | bad
  /-- Counted in PORT_RX_OTHER. -/
  | other
  /-- A frame without the 802.1Q tag (R297). -/
  | untagged
  /-- A neighbour solicitation or ARP request for an own address, with its answer (R294). -/
  | answer (bytes : List Byte)
  /-- A priority-based flow control frame: pause times by priority (R287). -/
  | pause (times : List (Nat × Nat))
  /-- A fabric packet: VC, header and payload bytes, and whether padding may follow. -/
  | fabric (vc : Nat) (body : List Byte) (pad : Bool)
  deriving DecidableEq, Repr

/-- A UDP datagram is one for the fabric, its checksum good (R293, R294). -/
def State.udpIn (s : State) (vc : Nat) (src dst u : List Byte) : Rx :=
  let n := beNat (sliceB u 4 2)
  let dg := u.take n
  let c := beNat (sliceB dg 6 2)
  let pseudo := if src.length = 16 then src ++ dst ++ toBE 4 n ++ [0, 0, 0, 17] else src ++ dst ++ [0, 17] ++ toBE 2 n
  let good := onesOf (pseudo ++ dg) == 0xFFFF
  if u.length < 8 ∨ n < 8 ∨ u.length < n then .bad
  else if src.length = 16 ∧ (c = 0 ∨ good = false) then .bad
  else if src.length = 4 ∧ c ≠ 0 ∧ good = false then .bad
  else if beNat (sliceB dg 2 2) ≠ s.rf Reg.FAB_UDP 15 0 then .other
  else .fabric vc (dg.drop 8) false

/-- Options of a neighbour solicitation: every length nonzero, and whether one is the source link-layer address (RFC 4861). -/
def ndOptions : Nat → List Byte → Bool × Bool
  | 0, _ => (true, false)
  | _, [] => (true, false)
  | n + 1, l =>
    let k := 8 * beNat (sliceB l 1 1)
    if k = 0 ∨ l.length < k then (false, false)
    else
      let r := ndOptions n (l.drop k)
      (r.1, r.2 || beNat (sliceB l 0 1) == 1)

/-- An IPv6 datagram is a valid neighbour solicitation (RFC 4861 7.1.1): hop limit 255, code 0, a good checksum, 24 bytes or
more, a unicast target, sound options; from the unspecified address it is sent to a solicited-node group and names no source. -/
def ndValid (d : List Byte) : Bool :=
  let n := beNat (sliceB d 4 2)
  let src := sliceB d 8 16
  let dst := sliceB d 24 16
  let icmp := (d.drop 40).take n
  let o := ndOptions 200 (icmp.drop 24)
  beNat (sliceB d 7 1) == 255 && beNat (sliceB icmp 1 1) == 0 && decide (24 ≤ n) && icmp.length == n &&
    onesOf (src ++ dst ++ toBE 4 n ++ [0, 0, 0, 58] ++ icmp) == 0xFFFF && beNat (sliceB icmp 8 1) != 0xFF && o.1 &&
    (beNat src != 0 || (beNat (dst.take 13) == 0xFF0200000000000000000001FF && !o.2))

/-- The answer to a neighbour solicitation (RFC 4861): to all nodes where its source is unspecified. -/
def State.neighbour (s : State) (h : Nat) (mac src : List Byte) : List Byte :=
  let own := s.ip6Of s.coord h
  let m := s.macOf s.coord h
  let none := beNat src == 0
  let src := if none then toBE 16 (0xFF02 * 2 ^ 112 + 1) else src
  let mac : List Byte := if none then [0x33, 0x33, 0, 0, 0, 1] else mac
  let icmp := [136, 0, 0, 0, if none then 0x20 else 0x60, 0, 0, 0] ++ own ++ [2, 1] ++ m
  let c := 0xFFFF - onesOf (own ++ src ++ toBE 4 icmp.length ++ [0, 0, 0, 58] ++ icmp)
  endFrame (mac ++ m ++ s.vlanTag 0 ++ [0x86, 0xDD] ++
    patchB (ip6Hdr own src 0 icmp.length 58) 7 [255] ++ patchB icmp 2 (toBE 2 c))

/-- The answer to an ARP request (RFC 826). -/
def State.arpReply (s : State) (h : Nat) (mac tha tpa : List Byte) : List Byte :=
  let m := s.macOf s.coord h
  endFrame (mac ++ m ++ s.vlanTag 0 ++ [0x08, 0x06, 0, 1, 8, 0, 6, 4, 0, 2] ++ m ++ s.ip4Of s.coord h ++ tha ++ tpa)

/-- The frame filters of R298 on a half-port, and the tag of R297. -/
def State.filterFrame (s : State) (h : Nat) (b : List Byte) : Rx :=
  let l := b.take (b.length - 4)
  if b.length < 64 ∨ leNat (b.drop (b.length - 4)) ≠ crc32 l then .bad
  else
    let tagged := beNat (sliceB l 12 2) == 0x8100
    let o := if tagged then 18 else 14
    let et := beNat (sliceB l (o - 2) 2)
    let mine := l.take 6 == s.macOf s.coord h
    let d := l.drop o
    let pfc := s.rf (Reg.PORT_ST (h / 2) (h % 2)) 9 8 == 0 && beNat (l.take 6) == 0x0180C2000001 && et == 0x8808 && beNat (sliceB d 0 2) == 0x0101
    let pcp := beNat (sliceB l 14 2) / 2 ^ 13
    let nd := s.topo == 2 && et == 0x86DD && beNat (sliceB d 6 1) == 58 && beNat (sliceB d 40 1) == 135
    let arp := s.topo == 3 && et == 0x0806 && beNat (sliceB d 6 2) == 1
    if pfc then
      .pause ((List.range 8).filterMap (fun i =>
        if (beNat (sliceB d 2 2)).testBit i then some (i, beNat (sliceB d (4 + 2 * i) 2)) else none))
    else if nd then
      (if !tagged then .untagged
       else if s.rbit Reg.FAB_CTL 2 && sliceB d 48 16 == s.ip6Of s.coord h && ndValid d then
         .answer (s.neighbour h (sliceB l 6 6) (sliceB d 8 16)) else .other)
    else if arp then
      (if !tagged then .untagged
       else if s.rbit Reg.FAB_CTL 2 && sliceB d 24 4 == s.ip4Of s.coord h then
         .answer (s.arpReply h (sliceB l 6 6) (sliceB d 8 6) (sliceB d 14 4)) else .other)
    else if !mine then .other
    else if et ≠ (if s.topo ≤ 1 then s.rf Reg.FAB_ETYPE 15 0 else if s.topo = 2 then 0x86DD else 0x0800) then .other
    else if !tagged then .untagged
    else if s.topo ≤ 1 then .fabric (pcp % 2) d (b.length == 64)
    else if s.topo = 2 then
      (if beNat (sliceB d 6 1) ≠ 17 then .other
       else s.udpIn (pcp % 2) (sliceB d 8 16) (sliceB d 24 16) ((d.drop 40).take (beNat (sliceB d 4 2))))
    else if beNat (sliceB d 9 1) ≠ 17 then .other
    else
      let ihl := beNat (sliceB d 0 1) % 16 * 4
      s.udpIn (pcp % 2) (sliceB d 12 4) (sliceB d 16 4) ((d.take (beNat (sliceB d 2 2))).drop ihl)

/-! ### Header rules (R299, R301, R303, R304). -/

/-- The counter ID is one of R303 for the packet's TYPE. -/
def Pkt.cidOk (p : Pkt) : Bool :=
  if p.type = 4 then decide (p.cid < 4096)
  else if p.type = 0 ∨ p.type = 1 ∨ p.type = 2 ∨ p.type = 3 ∨ p.type = 5 ∨ p.type = 9 then
    p.cid == 0xFFFF || (p.cid / 2 ^ 14 == 2) ||
      (p.cid / 2 ^ 14 == 1 && decide (2 ≤ p.cid % 2 ^ 14) && decide (p.cid % 2 ^ 14 ≤ 5))
  else true

/-- The header obeys R299, R301, R303, R304 and R441; `avail` bytes follow it in the frame. -/
def Pkt.headerOk (p : Pkt) (avail : Nat) (pad : Bool) : Bool :=
  decide (p.type < 10) && p.rsv == 0 && decide (p.len ≤ 4096) &&
  (if pad then decide (p.len ≤ avail) else p.len == avail) &&
  (p.mcast == (p.type == 9)) && (p.mcast || p.group == 0) && decide (p.sep < 20) &&
  (p.last || p.check || p.w7 == 0) &&
  (!(p.type == 7 || p.type == 8) || p.cls == 0) && (p.type != 5 || p.cls == 1) &&
  (!(p.type == 1 || p.type == 3 || p.type == 4 || p.type == 6 || p.type == 7 || p.type == 8) || (p.last && p.w7 == 1)) &&
  (p.type != 1 || (p.len == 4 && decide (1 ≤ rdLE p.payload 0 4) && decide (rdLE p.payload 0 4 ≤ 16777216))) &&
  (p.type != 3 || (decide (rdLE p.payload 0 1 < 4) && rdLE p.payload 1 7 == 0 &&
    p.len == (if rdLE p.payload 0 1 = 2 then 24 else 16))) &&
  (p.type != 4 || (decide (4 ≤ p.len) && decide (p.len ≤ 16) && p.len % 4 == 0 && decide (p.addr < 16))) &&
  p.cidOk && !(p.dep == 19 && p.type != 6 && p.cid != 0xFFFF)

/-! ### Refusals at steps 5 to 8 (R315, R316). -/

/-- The response to a read of `n` bytes (R305, R317): class of the request, address of each piece (log 60). -/
def State.sendResponse (s : State) (p : Pkt) (data : List Byte) (poison : Nat) : State :=
  let b : Pkt := { type := 2, cls := p.cls, dcoord := p.scoord, dep := p.sep, sep := p.dep, tag := p.tag, addr := p.addr
                   op := p.op, cid := 0xFFFF, step := s.rd Reg.DET_STEP_LO }
  (opPackets b data poison).foldl State.inject s

/-- An ACK to the issuer of a packet (R304, R319). -/
def State.sendAck (s : State) (p : Pkt) (status : Nat) : State :=
  s.sendCtl p.dep p.scoord p.sep p.tag p.op 1 (toLE 1 status)

/-- Bytes a read request or an atomic asks for. -/
def Pkt.asks (p : Pkt) : Nat := if p.type = 1 then rdLE p.payload 0 4 else 8

/-- A packet refused at steps 5 to 8: discarded, with the answer of R316. -/
def State.refuse (s : State) (p : Pkt) (reason : Nat) (status : Option Nat) : State :=
  let s := s.discard reason p.scoord p.dcoord
  if p.type = 1 ∨ p.type = 3 then s.sendResponse p (List.replicate p.asks 0) (2 ^ ((p.asks + 7) / 8) - 1)
  else if p.type = 0 ∨ p.type = 5 ∨ p.type = 9 then
    match status with
    | some v => s.sendAck p v
    | none => s
  else s

/-- The control subtype of a TYPE 6 packet. -/
def Pkt.sub (p : Pkt) : Nat := rdLE p.payload 0 1

/-- The endpoint accepts the packet's TYPE and subtype (R305). -/
def State.accepts (s : State) (p : Pkt) : Bool :=
  let t := p.type
  if p.dep < 16 then
    decide (p.dep < s.lCount) && (t == 0 || t == 1 || t == 2 || t == 3 || t == 4 || t == 9 ||
      (t == 6 && decide (1 ≤ p.sub) && decide (p.sub ≤ 6)))
  else if p.dep = 16 then t == 0 || t == 2 || t == 5 || t == 7 || t == 8 || t == 9 || (t == 6 && p.sub == 1)
  else if p.dep = 17 then t == 0 || t == 1 || t == 3
  else if p.dep = 18 then t == 6 && p.sub == 0x10 && p.cls == 3
  else if p.dep = 19 then t == 0 || t == 1 || t == 2 || (t == 6 && p.sub == 1)
  else false

/-- The job context tag matches a resident context (R315 step 7). -/
def State.tagOk (s : State) (t : Nat) : Bool :=
  t == 0 || (List.range 16).any (fun n => match s.slotOf n with
    | some j => j.job.jobtag.toNat == t
    | none => false)

/-- The context a tag names; the running one where it names none (log 61). -/
def State.ctxOfTag (s : State) (t : Nat) : Nat :=
  if t = 0 then s.runCtx
  else ((List.range 16).findSome? (fun n => match s.slotOf n with
    | some j => if j.job.jobtag.toNat = t then some j.ctx.toNat else none
    | none => none)).getD 0

/-- The operation number whose ID a packet carries (R317). -/
def opNumOf (id : Nat) : Nat := id / 2 ^ 14 % 1024 + id % 2 ^ 14 * 1024

/-- Channel traffic that a packet carries (R304). -/
def State.chanOf (s : State) (p : Pkt) : Option (ChanPkt × Nat) :=
  let src (c : Nat) : ChanBind := { remote := true, coord := p.scoord, logical := p.sep, chan := c }
  let dst (c : Nat) : ChanBind := { remote := false, coord := s.coord, logical := p.dep, chan := c }
  let b (i : Nat) : Nat := rdLE p.payload i 1
  let mk (k : ChanKind) (c cs : Nat) (m : ChanMsg) : ChanPkt :=
    { kind := k, ctx := s.ctxOfTag p.tag, src := src cs, dst := dst c, msg := m, op := opNumOf p.op }
  if p.type = 4 then
    let m : ChanMsg := { seq := BitVec.ofNat 16 p.idx, poison := BitVec.ofNat 4 (if p.poison then 15 else p.addr)
                         words := (List.range (p.len / 4)).map (fun i => BitVec.ofNat 32 (rdLE p.payload (4 * i) 4)) }
    some (mk .message (p.cid % 64) (p.cid / 64 % 64) m, 1)
  else if p.type ≠ 6 then none
  else if p.sub = 2 then some (mk .accept 0 0 noMsg, 1)
  else if p.sub = 3 then some (mk .closedAns 0 0 noMsg, 1)
  else if p.sub = 4 then some (mk .credit (b 2 % 64) 0 noMsg, b 3)
  else if p.sub = 5 then some (mk (if b 3 = 0 then .notice else .readerNotice) (b 2 % 64) 0 noMsg, 1)
  else if p.sub = 6 then some (mk .endMark (b 2 % 64) 0 { noMsg with seq := BitVec.ofNat 16 (rdLE p.payload 4 2) }, 1)
  else none

/-- Steps 5 to 8 of R315, and delivery to the endpoint's unit; register space gives event 0x0210 too (R30, R31). -/
def State.deliverPkt (s : State) (h : Nat) (p : Pkt) : State :=
  let eng := p.type != 9 || s.mcEng p
  if s.devState = stWithdrawn ∧ p.cls ≠ 0 then s.refuse p 12 none
  else if eng && !s.accepts p then s.refuse p 9 (some 4)
  else if !s.tagOk p.tag then s.refuse p 11 (some 3)
  else if (p.type = 0 ∨ p.type = 1 ∨ p.type = 3 ∨ p.type = 5 ∨ p.type = 9) ∧
      0x5000000000 ≤ p.addr ∧ p.addr < 0x5008000000 then
    (s.addrError p.addr (Who.code (.fabric p.scoord)) (if p.type = 1 ∨ p.type = 3 then 0 else 1) 0).refuse p 10 (some 2)
  else
    match s.chanOf p with
    | some c => (List.range c.2).foldl (fun s _ => s.send (.chan c.1)) s
    | none =>
      if p.type = 6 ∧ p.sub = 0x10 then
        s.arrive { port := 2, bytes := p.payload.drop 4, arrival := s.now, org := { coord := p.scoord, ep := p.sep } }
      else s.send (.pkt (some h) p)

/-- Steps 2 to 8 of R315 on a fabric packet; before the coordinate is assigned nothing is carried (R306), and
in STANDBY only breach notices and heartbeats (R292). -/
def State.rxPacket (s : State) (h vc : Nat) (body : List Byte) (pad : Bool) : State :=
  let n := rdLE body 0 4 % 2 ^ 16
  let p := pktOf (body.take 32) ((body.drop 32).take n)
  if s.portSt h = 5 ∧ p.type ≠ 7 ∧ p.type ≠ 8 then s
  else if s.rbit Reg.FAB_COORD 31 = false then s
  else if body.length < 32 ∨ p.headerOk (body.length - 32) pad = false ∨ (p.type = 9 ∧ s.topo ≠ 0) then
    s.discard 0 p.scoord p.dcoord
  else if s.coordOk p.dcoord = false then s.discard 1 p.scoord p.dcoord
  else if s.bankValid p = false then s.discard 5 p.scoord p.dcoord
  else if (s.half h).dike = 1 ∧ p.cls ≠ 0 then s.discard 2 p.scoord p.dcoord
  else if p.type = 9 then
    let s := s.copyMcast p (some h) vc
    if s.mcSpin p = 0 ∧ s.mcEng p = false then s else s.deliverPkt h p
  else if p.dcoord ≠ s.coord then s.routePkt p (some h) vc s.now
  else s.deliverPkt h p

/-- The partner of a half-port in Ethernet mode, from the source MAC of the first valid frame (R288, R300). -/
def State.notePartner (s : State) (h : Nat) (src : List Byte) : State :=
  let r := Reg.PORT_PARTNER (h / 2) (h % 2)
  let low := beNat (src.drop 3)
  if s.rf (Reg.PORT_ST (h / 2) (h % 2)) 9 8 = 0 ∧ s.rbit r 31 = false ∧ src.take 3 = (s.macOf 0 0).take 3 then
    s.wr r (2 ^ 31 + low % 32 * 2 ^ 13 + low / 32 % 8192)
  else s

/-- What the router links carry over the seam from ports F0 to F7: errors are counted, and an uncorrectable word marks
the packet, which has one mark, POISON of R299 (R257, R263, R264; log 143). -/
def State.routerLink (s : State) (h : Nat) (e : LinkErrs) (body : List Byte) : State × List Byte :=
  if h < 16 then
    (s.linkErrs 3 e, if e.ue = 0 then body else body.take 2 ++ [body.getD 2 0 ||| 0x40] ++ body.drop 3)
  else (s, body)

/-- Flow control pauses priorities of a half-port, or with time 0 releases them (R287, IEEE 802.1Q): a pause quantum is 512 bit
times of the link, at 100 Gbit/s a lane. -/
def State.pauseHalf (s : State) (h : Nat) (l : List (Nat × Nat)) : State :=
  let x := s.half h
  let till (q : Nat) : DWord := s.now + BitVec.ofNat 64 ((q * 512 + 1000 * s.lanesOf h - 1) / (1000 * max 1 (s.lanesOf h)))
  s.setHalf h { x with paused := l.foldl (fun t p => tset 0 t p.1 (if p.2 = 0 then 0 else till p.2)) x.paused }

/-- FRAME_RECEIVE (R287, R291, R297, R298, R315): a frame reaches half-port `h` with `ce` corrected and `ue`
uncorrectable codewords, `inFrame` where one of these lies inside it. -/
def execFrameReceive (h : Fin 32) (bytes : List Byte) (ce ue : Nat) (inFrame : Bool) (e : LinkErrs) (s : State) : Res :=
  if s.portSt h ≠ 2 ∧ s.portSt h ≠ 5 then .next s
  else
    let s := s.countFec h ce ue
    if s.portSt h = 4 then .next s
    else
      let s := s.add64 (Reg.PORT_RX_PKT_LO ((h : Nat) / 2)) 1
      if inFrame then .next (s.sat (Reg.PORT_RX_BAD ((h : Nat) / 2)) 1)
      else
        match s.filterFrame h bytes with
        | .bad => .next (s.sat (Reg.PORT_RX_BAD ((h : Nat) / 2)) 1)
        | .other => .next (s.sat (Reg.PORT_RX_OTHER ((h : Nat) / 2)) 1)
        | .untagged => .next (s.discard 0 0 0)
        | .answer b => .next ((s.add64 (Reg.PORT_TX_PKT_LO ((h : Nat) / 2)) 1).send (.frame h b))
        | .pause l => .next (s.pauseHalf h l)
        | .fabric vc body pad =>
          let x := (s.notePartner h (sliceB bytes 6 6)).routerLink h e body
          .next (x.1.rxPacket h vc x.2 pad)

/-! ### The receive tracker (R318, R319). -/

def Pkt.hasEntry (p : Pkt) (e : TrkEnt) : Bool :=
  e.scoord == p.scoord && e.sep == p.sep && e.op == p.op && e.answer == (p.type == 2)

/-- What the tracker makes of a packet: the reason of its discard, or the entry it goes into. -/
def State.trackFind (s : State) (p : Pkt) : Nat ⊕ TrkEnt :=
  let bad (e : TrkEnt) : Bool :=
    let t := if p.last then some p.w7 else e.total
    decide (4096 ≤ p.idx) || (p.last && e.total.isSome) || (p.last && decide (4096 < p.w7)) ||
      (match t with
       | some n => decide (n ≤ p.idx)
       | none => false)
  match s.fab.tracker.find? p.hasEntry with
  | some e => if e.got.contains p.idx then .inl 6 else if bad e then .inl 7 else .inr e
  | none =>
    let e : TrkEnt := { scoord := p.scoord, sep := p.sep, op := p.op, answer := p.type == 2, got := [], total := none
                        poison := false, lastAt := s.now, tomb := none, cid := p.cid, dep := p.dep }
    if bad e then .inl 7 else if 4096 ≤ s.fab.tracker.length then .inl 8 else .inr e

/-- Marks a packet in its entry, its payload applied with or without poison: the entry, and whether the
operation is now complete (R319). -/
def State.trackMark (s : State) (p : Pkt) (e : TrkEnt) (poison : Bool) : Bool × TrkEnt × State :=
  let total := if p.last then some p.w7 else e.total
  let got := e.got ++ [p.idx]
  let isFull := total == some got.length
  let e' : TrkEnt := { e with got := got, total := total, poison := e.poison || poison, lastAt := s.now
                              tomb := if isFull then some (s.now + BitVec.ofNat 64 (s.rd Reg.FAB_TOMB)) else none }
  let rest := s.fab.tracker.filter (fun x => !p.hasEntry x)
  (isFull, e', ({ s with fab := { s.fab with tracker := rest ++ [e'] } } : State).syncTrk)

/-- The engine counter a packet names (R303). -/
def Pkt.engine (p : Pkt) : Option Nat := if p.cid / 2 ^ 14 = 2 ∧ p.cid ≠ 0xFFFF then some (p.cid % 2 ^ 14) else none

/-- The completion of an operation (R319): the count named, and the ACK. -/
def State.opComplete (s : State) (p : Pkt) (poison : Bool) : State :=
  let s := match p.engine with
    | some n => s.wr (Reg.COLL_ECNT n) (s.rd (Reg.COLL_ECNT n) + 1)
    | none =>
      if p.cid / 2 ^ 14 = 1 ∧ p.dep < 16 then
        s.dspCount (s.physOf p.dep) (p.cid % 2 ^ 14) p.scoord p.sep p.addr else s
  if p.type = 0 ∨ p.type = 5 ∨ p.type = 9 then s.sendAck p (if poison then 1 else 0) else s

/-- The stop of a spindle endpoint absorbs (R258, R305). -/
def State.epAbsorbs (s : State) (ep : Nat) : Bool := decide (ep < 16) && (s.absorbCause (s.physOf ep) != 0)

/-- Payload of a write put into memory, with whether it was written as poison or lost (R305, R319); `ep` where it is put there by
the endpoint the header names, and not as a multicast copy (R314). -/
def State.putPayload (s : State) (p : Pkt) (ep : Bool) (a : Nat) (data : List Byte) (f : Flips) : Bool × State :=
  if ep && s.epAbsorbs p.dep then (true, s.sat (Reg.RING_ABS_WR (spindleStop (s.physOf p.dep))) 1)
  else if p.cid / 2 ^ 14 = 1 ∧ p.dep < 16 ∧ s.dspFull (s.physOf p.dep) (p.cid % 2 ^ 14) = true then
    (p.poison, s.sat (Reg.SPN_DSP_XTRA (s.physOf p.dep)) 1)
  else
    let r := s.devWrite (.fabric p.scoord) a data p.mask f
    (p.poison || !r.1, r.2.2)

/-- Addresses a multicast write goes to on this device: the same offset in the SRAM of each spindle of SPIN, or its address,
and its address for the endpoint with ENG (R314, log 62); whether the endpoint puts it there. -/
def State.mcAddrs (s : State) (p : Pkt) : List (Bool × Nat) :=
  let copies := match s.loc p.addr with
    | .sram _ o => ((List.range 16).filter (fun l => (s.mcSpin p).testBit l && decide (l < s.lCount))).map
        (fun l => 0x4000000000 + l * 0x4000000 + o)
    | _ => if s.mcSpin p = 0 then [] else [p.addr]
  copies.map (fun a => (false, a)) ++ (if s.mcEng p && !copies.contains p.addr then [(true, p.addr)] else [])

/-- A write packet of TYPE 0 or 9 passes the tracker and is applied (R314, R318, R319); answers whether it was
taken, and whether it completed its operation. -/
def State.applyWrite (s : State) (p : Pkt) (f : Flips) : Bool × Bool × State :=
  match s.trackFind p with
  | .inl r => (false, false, s.discard r p.scoord p.dcoord)
  | .inr e =>
    let n := if p.check then p.len - 8 else p.len
    let addrs := if p.type = 9 then s.mcAddrs p else [(true, p.addr)]
    let w := addrs.foldl (fun (a : Bool × State) x =>
      let r := a.2.putPayload p x.1 x.2 (p.payload.take n) f
      (a.1 || r.1, r.2)) (false, s)
    let m := w.2.trackMark p e w.1
    (true, m.1, if m.1 then m.2.2.opComplete p m.2.1.poison else m.2.2)

/-- The active collective that a packet's engine counter belongs to, and which of its four (R327). -/
def State.roleOf (s : State) (p : Pkt) : Option (Coll × Nat) :=
  match p.engine with
  | none => none
  | some n => (s.coll.active.find? (fun c => decide (c.req.ecb ≤ n ∧ n < c.req.ecb + 4))).map (fun c => (c, n - c.req.ecb))

/-- A packet for a collective not yet taken is kept for it (R339, log 63). -/
def State.keepEarly (s : State) (half : Option Nat) (p : Pkt) (complete : Bool) : State :=
  if p.engine.isSome then { s with coll := { s.coll with early := s.coll.early ++ [(half, p, complete)] } } else s

/-- The trailer of a CHECK packet (R331). -/
def Pkt.trailer (p : Pkt) : Nat := rdLE p.payload (p.len - 8) 8

/-- Word 7 of a CHECK packet that is not its operation's last differs from the trailer's low half (R331, R336). -/
def Pkt.w7Bad (p : Pkt) : Bool := p.check && !p.last && p.w7 != p.trailer % 2 ^ 32

/-- A transport mismatch (R336): the packet is discarded, with event 0x0601 once per source and second. -/
def State.transportBad (s : State) (half : Option Nat) (p : Pkt) (ecb : Nat) : State :=
  let s := s.sat Reg.COLL_CW_TX 1
  let due := match tget none s.coll.told p.scoord with
    | none => true
    | some t => decide (100000000 ≤ (s.now - t).toNat)
  let unit := match half with
    | some h => s.halfUnit h
    | none => collUnit
  let s := if due then
      ({ s with coll := { s.coll with told := tset none s.coll.told p.scoord (some s.now) } } : State).event 0x0601 unit 2
        [(16, 1, 1), (17, 2, p.scoord), (19, 2, ecb), (21, 2, p.idx)]
    else s
  match half with
  | some h => s.reportHalf h
  | none => s

/-- A write that belongs to no active collective: word 7 of a CHECK packet is verified at once, its check word when its request
is taken (R336, log 169). -/
def State.earlyWrite (s : State) (half : Option Nat) (p : Pkt) (f : Flips) : State :=
  if p.w7Bad && p.engine.isSome then s.transportBad half p (p.engine.getD 0)
  else
    let r := s.applyWrite p f
    if r.1 then r.2.2.keepEarly half p r.2.1 else r.2.2

/-- A write of the packet's TYPE arrives for no active collective. -/
def State.plainWrite (s : State) (type : Nat) (half : Option Nat) (p : Pkt) (f : Flips) : Res :=
  if p.type ≠ type ∨ (s.roleOf p).isSome = true then .next s
  else
    .next ((s.take (.pkt half p)).earlyWrite half p f)

/-- FAB_WRITE (R318, R319): a write packet that belongs to no active collective. -/
def execFabWrite (half : Option Nat) (p : Pkt) (f : Flips) (s : State) : Res := s.plainWrite 0 half p f

/-- FAB_MULTICAST_WRITE (R314): the local delivery of a multicast write that belongs to no active collective; its
copies left with the frame or the injection. -/
def execFabMulticastWrite (half : Option Nat) (p : Pkt) (f : Flips) (s : State) : Res := s.plainWrite 9 half p f

/-- FAB_READ_REQUEST (R305, R318, R319): served with read response packets. -/
def execFabReadRequest (half : Option Nat) (p : Pkt) (f : Flips) (s : State) : Res :=
  if p.type ≠ 1 then .next s
  else
    let s := s.take (.pkt half p)
    match s.trackFind p with
    | .inl r => .next (s.discard r p.scoord p.dcoord)
    | .inr e =>
      if s.epAbsorbs p.dep then
        let s := s.sat (Reg.RING_ABS_RD (spindleStop (s.physOf p.dep))) 1
        .next (((s.trackMark p e true).2.2.opComplete p true).sendResponse p (List.replicate p.asks 0) (2 ^ ((p.asks + 7) / 8) - 1))
      else
        let r := s.devRead (.fabric p.scoord) p.addr p.asks f
        .next (((r.2.2.2.trackMark p e false).2.2.opComplete p false).sendResponse p r.1 r.2.1)

/-- FAB_ATOMIC (R318, R319): applied once, and answered with the old value. -/
def execFabAtomic (half : Option Nat) (p : Pkt) (f : Flips) (s : State) : Res :=
  if p.type ≠ 3 then .next s
  else
    let s := s.take (.pkt half p)
    match s.trackFind p with
    | .inl r => .next (s.discard r p.scoord p.dcoord)
    | .inr e =>
      if s.epAbsorbs p.dep then
        let s := s.sat (Reg.RING_ABS_WR (spindleStop (s.physOf p.dep))) 1
        .next (((s.trackMark p e true).2.2.opComplete p true).sendResponse p (List.replicate 8 0) 1)
      else
        let r := s.devAtomic (.fabric p.scoord) p.addr (rdLE p.payload 0 1) (rdLE p.payload 8 8) (rdLE p.payload 16 8) p.poison f
        .next (((r.2.2.2.trackMark p e r.2.1).2.2.opComplete p r.2.1).sendResponse p (toLE 8 r.1) (if r.2.1 then 1 else 0))

/-! ### Answers to this device's operations (R319, R320). -/

/-- The operation an answer names. -/
def State.opOf (s : State) (p : Pkt) : Option FabOp := s.fab.ops.find? (fun o => o.sep == p.dep && o.op == p.op)

def State.dropOp (s : State) (o : FabOp) : State := { s with fab := { s.fab with ops := s.fab.ops.filter (fun x => decide (x ≠ o)) } }

/-- Bytes of a restore read at their place in the image (R447). -/
def State.restoreBytes (s : State) (off : Nat) (data : List Byte) (poison : Bool) : State :=
  match s.reel.restore with
  | none => s
  | some r =>
    let m := if poison then (2 ^ ((data.length + 7) / 8) - 1) * 2 ^ ((off - 4096) / 8) else 0
    let r := if off < 4096 then { r with hdr := patchB r.hdr off data }
      else { r with data := patchB r.data (off - 4096) data, pois := r.pois ||| m }
    { s with reel := { s.reel with restore := some { r with bad := r.bad || poison } } }

/-- FAB_READ_RESPONSE (R318, R319): data for a read of this device; at the last packet the operation ends. -/
def execFabReadResponse (half : Option Nat) (p : Pkt) (s : State) : Res :=
  if p.type ≠ 2 then .next s
  else
    let s := s.take (.pkt half p)
    match s.opOf p with
    | none => .next (s.discard 13 p.scoord p.dcoord)
    | some o =>
      match s.trackFind p with
      | .inl r => .next (s.discard r p.scoord p.dcoord)
      | .inr e =>
        let m := s.trackMark p e p.poison
        let s := m.2.2
        let s := match o.who, s.reel.restore with
          | .restore, some r => s.restoreBytes (p.addr - r.addr) p.payload p.poison
          | _, _ => s
        .next (if m.1 then (s.opComplete p false).dropOp o else s)

end Sys2Proof.Machine
end

