-- ==== Sys2Proof/Machine/Coll.lean ====
section
/-! DEFINITION. The collective engine: requests, contributions, reduction, agreement, results, peers
(spec/10_collectives.md R326 to R348; spec/11_determinism.md R375). -/

namespace Sys2Proof.Machine

/-! ### Shapes (R327, R330, R338). -/

def Coll.w (c : Coll) : Nat := if c.exact then 8 else 4
def Coll.wr (c : Coll) : Nat := if c.req.rfmt = 0 then 4 else if c.req.rfmt = 1 then 2 else 8
def Coll.sh (c : Coll) : Nat := (c.req.nel + c.req.npart - 1) / c.req.npart
/-- Elements in a full packet (R331). -/
def Coll.per (c : Coll) : Nat := 4088 / c.w
def Coll.lo (c : Coll) (n : Nat) : Nat := min (n * c.sh) c.req.nel
def Coll.count (c : Coll) (n : Nat) : Nat := min ((n + 1) * c.sh) c.req.nel - c.lo n
/-- Packets of a shard; an empty shard is one packet without elements (log 65). -/
def Coll.packets (c : Coll) (n : Nat) : Nat := max 1 ((c.count n + c.per - 1) / c.per)
/-- COORD of a rank, and of its shadow where that is valid (R329). -/
def Coll.coordOf (c : Coll) (r : Nat) : Nat := ((c.table[r]?).getD 0) % 2 ^ 13
def Coll.shadowOf (c : Coll) (r : Nat) : Option Nat :=
  let v := (c.table[r]?).getD 0
  if v.testBit 29 then some (bitsOf v 28 16) else none
/-- The shard a reducer reduces: as primary its own, as backup the one before (R330). -/
def Coll.shardOf (c : Coll) (g : Nat) : Nat := if g = 0 then c.req.rank else (c.req.rank + c.req.npart - 1) % c.req.npart
def Coll.ranks (c : Coll) : List Nat := List.range c.req.npart
/-- First canonical index of a rank's block (R328, log 64). -/
def Coll.cidxAt (c : Coll) (r : Nat) : Nat := if r = c.req.rank then c.req.cidx else Config.cidxOf c.req.ecb c.step r
/-- Where the reports and the agreed set lie (R340). -/
def Coll.reportBase (c : Coll) : Nat := c.req.stage + 2 * c.req.npart * c.sh * c.w

/-! ### Check words (R335). -/

def m61 : Nat := 2 ^ 61 - 1

def checkWeight (step i : Nat) : Nat :=
  let o := philox (i % 2 ^ 32) (i / 2 ^ 32 % 2 ^ 16 + 0xFFFF * 2 ^ 16) 0 0 (step % 2 ^ 32) (step / 2 ^ 32)
  ((o[1]?).getD 0 * 2 ^ 32 + (o[0]?).getD 0) % m61

/-- D over elements from tensor index `i`. -/
def checkWord (step i : Nat) (xs : List Int) : Nat :=
  (xs.zipIdx.map (fun x => checkWeight step (i + x.2) * (x.1 % (m61 : Int)).toNat)).sum % m61

/-- Elements of `w` bytes: signed where they are exchange elements, bit patterns otherwise. -/
def elemsOf (w : Nat) (l : List Byte) : List Int :=
  (List.range (l.length / w)).map (fun i => if w = 8 then sext 64 (rdLE l (8 * i) 8) else (rdLE l (w * i) w : Int))

/-! ### Counters and flags of the requesting context. -/

/-- A completion counter of a context's logical spindle rises, also where the context is suspended (R339). -/
def State.ctxRaise (s : State) (ctx l c n : Nat) (poison : Bool) : State :=
  if s.runCtx = ctx then s.raiseCounter (s.physOf l) c n poison
  else
    match s.slotOf (ctx % 16) with
    | none => s
    | some j =>
      if j.ctx.toNat ≠ ctx then s
      else
        let v := tget {} j.saved l
        let x := v.spn
        let x := { x with counters := tset 0 x.counters c (tget 0 x.counters c + BitVec.ofNat 32 n)
                          cpoison := if poison && !x.cpoison.contains c then x.cpoison ++ [c] else x.cpoison }
        s.setSlot (ctx % 16) (some { j with saved := tset {} j.saved l { v with spn := x } })

/-- A checkpoint of the context still holds back its release (R437). -/
def State.releaseHeld (s : State) (ctx : Nat) : Bool :=
  match s.reel.ckpt with
  | some k => k.ctx == ctx && !k.released
  | none => false

/-- Releases owed to a resident context reach it, in step order (R437). -/
def State.payReleases (s : State) (ctx : Nat) : State :=
  match s.slotOf (ctx % 16) with
  | none => s
  | some j =>
    match j.ck with
    | none => s
    | some d =>
      if j.ctx.toNat ≠ ctx ∨ j.owed = 0 ∨ s.releaseHeld ctx = true then s
      else
        (List.range j.lcount).foldl (fun s l => s.ctxRaise ctx l d.doneCnt j.owed false)
          (s.setSlot (ctx % 16) (some { j with owed := 0 }))

/-- Releases owed are issued to the running context; another waits for its start (R437). -/
def State.payRunning (s : State) : State := if s.runCtx = 0 then s else s.payReleases s.runCtx

/-- Numeric flags of a context's logical spindle (R339). -/
def State.ctxFlags (s : State) (ctx l fl : Nat) : State :=
  if s.runCtx = ctx then s.numFlags (s.physOf l) fl
  else
    match s.slotOf (ctx % 16) with
    | none => s
    | some j =>
      if j.ctx.toNat ≠ ctx then s
      else
        let v := tget {} j.saved l
        s.setSlot (ctx % 16) (some { j with saved := tset {} j.saved l { v with num := v.num ||| fl } })

/-! ### Active collectives. -/

/-- Puts a changed collective back, found by its engine counters. -/
def State.putColl (s : State) (c : Coll) : State :=
  { s with coll := { s.coll with active := s.coll.active.map (fun x => if x.req.ecb = c.req.ecb then c else x) } }

def State.dropColl (s : State) (c : Coll) : State :=
  { s with coll := { s.coll with active := s.coll.active.filter (fun x => decide (x.req.ecb ≠ c.req.ecb)) } }

def State.collAt (s : State) (ecb : Nat) : Option Coll := s.coll.active.find? (fun c => c.req.ecb == ecb)

/-- A peer of the watch table is BREACHED (R342). -/
def State.peerBreached (s : State) (coord : Nat) : Bool :=
  (List.range 64).any (fun n =>
    let r := Reg.COLL_PEER n
    s.rbit r 31 && s.rbit r 30 && s.rf r 12 0 == coord)

/-- A collective fails (R339, R347): event, counters, poisoned acknowledgement, and the context faults. -/
def State.failColl (s : State) (c : Coll) (cause rank : Nat) : State :=
  let s := (s.dropColl c).sat Reg.COLL_FAIL 1
  let s := s.wr Reg.COLL_LAST_FAIL (c.req.ecb * 2 ^ 16 + rank % 256 * 2 ^ 8 + cause)
  let s := s.eventCtx 0x0603 collUnit 2 c.ctx [(16, 1, cause), (17, 2, c.req.ecb), (19, 2, rank)]
  (s.ctxRaise c.ctx c.logical c.req.cnt 1 true).faultCtx c.ctx 0x0603

/-! ### Sending (R331, R332, R338). -/

/-- The next operation ID of an engine endpoint of this device: its lowest free slot, and how often that was used (R317). -/
def State.nextFab (s : State) (ep : Nat) : Nat × State :=
  let mine := s.fab.ops.filter (fun o => o.sep == ep)
  let slot := freeEntry (fun n => mine.any (fun o => o.op / 2 ^ 14 == n)) (mine.length + 1) 0
  let n := tget 0 s.fab.slots (ep * 1024 + slot)
  (slot % 1024 * 2 ^ 14 + n % 2 ^ 14, { s with fab := { s.fab with slots := tset 0 s.fab.slots (ep * 1024 + slot) (n + 1) } })

/-- What a packet of elements carries: its byte offset in the shard, data bytes, whether it is POISON, and its check word. -/
structure Part where
  place : Nat
  data : List Byte
  poison : Bool
  check : Nat
  deriving DecidableEq, Repr

/-- Sends a CHECK = 1 operation of one packet per part; a shadow sends the trailers alone (R331, R345). -/
def State.sendParts (s : State) (c : Coll) (type dcoord addr cid group left : Nat) (shadow : Bool) (who : FabWho)
    (parts : List Part) : State :=
  let o := s.nextFab 16
  let op : FabOp := { sep := 16, op := o.1, type := type, dcoord := dcoord, dep := 16, first := s.now, who := who, left := left }
  let s := { o.2 with fab := { o.2.fab with ops := o.2.fab.ops ++ [op] } }
  parts.zipIdx.foldl (fun s x =>
    let isLast := x.2 + 1 == parts.length
    let pay := (if shadow then [] else x.1.data) ++ toLE 8 x.1.check
    s.inject { type := type, cls := 1, mcast := type == 9, group := group, last := isLast, check := true, shadow := shadow
               poison := x.1.poison && !shadow, dcoord := dcoord, dep := 16, sep := 16, tag := s.tagOfCtx c.ctx
               addr := addr + x.1.place, op := o.1, cid := cid, idx := x.2, step := c.step
               w7 := if isLast then parts.length else x.1.check % 2 ^ 32, len := pay.length, payload := pay }) s

/-- The packet of elements of `w` bytes that begin at element `k` of a shard; a POISON one has zero data (R331, R332, R335). -/
def Coll.part (c : Coll) (n w k : Nat) (bad : Bool) (l : List Nat) : Part :=
  let data := l.flatMap (fun x => toLE w (if bad then 0 else x))
  { place := k * w, data := data, poison := bad, check := checkWord c.step (c.lo n + k) (elemsOf w data) }

/-- Elements of a shard cut into full packets; one with any poisoned element is POISON (R331, R332). -/
def Coll.parts (c : Coll) (n w : Nat) (xs : List (Nat × Bool)) : List Part :=
  (List.range (c.packets n)).map (fun k =>
    let l := (xs.drop (k * c.per)).take c.per
    c.part n w (k * c.per) (l.any (·.2)) (l.map (·.1)))

/-- Runs of at most `per` elements that are poisoned or clean as a whole, with the place of the first. -/
def elemRuns (per : Nat) (xs : List (Nat × Bool)) : List (Nat × Bool × List Nat) :=
  (xs.zipIdx.foldl (fun a x =>
    match a with
    | [] => [(x.2, x.1.2, [x.1.1])]
    | r :: t => if r.2.1 == x.1.2 && decide (r.2.2.length < per) then (r.1, r.2.1, r.2.2 ++ [x.1.1]) :: t
      else (x.2, x.1.2, [x.1.1]) :: r :: t) []).reverse

/-- The packets of a result: clean elements travel apart from poisoned ones (R334, logs 79 and 167). -/
def Coll.resultParts (c : Coll) (n : Nat) (res : List (Nat × Bool)) : List Part :=
  let l := elemRuns c.per res
  if l.isEmpty || decide (4096 < l.length) then c.parts n c.wr res
  else l.map (fun r => c.part n c.wr r.1 r.2.1 r.2.2)

/-- One source element in the exchange format (R332): bits, poison, and whether it was clamped. -/
def Coll.exchange (c : Coll) (b : List Byte) : Nat × Bool × Bool :=
  let lim : Int := 2 ^ 63 - 1
  let out (x : Int) : Nat × Bool × Bool :=
    if x < -lim then (unsext 64 (-lim), false, true) else if lim < x then (unsext 64 lim, false, true) else (unsext 64 x, false, false)
  let nanMark : Nat × Bool × Bool := (2 ^ 63, false, false)
  if !c.exact then (leNat b, false, false)
  else if c.req.sfmt = 0 then
    match decodeF fFP32 (leNat b) with
    | .fin _ d => out (dyFloor d c.req.e)
    | _ => nanMark
  else if c.req.sfmt = 1 then
    match accOfRecord (leNat b) with
    | none => (0, true, false)
    | some a =>
      if a.poison then (0, true, false)
      else if a.nan || a.pinf || a.ninf then nanMark
      else out (dyFloor ⟨a.sum.toInt, a.lsb.toInt⟩ c.req.e)
  else (leNat b, false, false)

/-- This device's contribution to a shard: elements, whether one was clamped, and the state. -/
def State.contribution (s : State) (c : Coll) (n : Nat) (f : Flips) : List (Nat × Bool) × Bool × State :=
  let sz := if c.req.sfmt = 0 then 4 else if c.req.sfmt = 1 then 24 else 8
  let a := c.req.src + sz * c.lo n
  let r := s.devRead .coll a (sz * c.count n) f
  let el := (List.range (c.count n)).map (fun i =>
    let b := (r.1.drop (sz * i)).take sz
    let bad := (List.range ((sz * i + sz - 1) / 8 + 1 - sz * i / 8)).any (fun k => r.2.1.testBit (sz * i / 8 + k))
    let x := c.exchange b
    ((x.1, bad || x.2.1), x.2.2))
  (el.map (·.1), el.any (fun x => x.2 && !x.1.2), r.2.2.2)

/-- Sends the contribution to a shard to its reducers (R331, R345). -/
def State.sendShard (s : State) (c : Coll) (shadow : Bool) (f : Flips) (n : Nat) : State × Nat :=
  let x := s.contribution c n f
  let parts := c.parts n c.w x.1
  let cid := if shadow then 0xFFFF else 0x8000 + c.req.ecb
  let s := (if c.req.drop then [0, 1] else [0]).foldl (fun (s : State) g =>
    s.sendParts c 5 (c.coordOf ((n + g) % c.req.npart)) (c.req.stage + (g * c.req.npart + c.req.rank) * c.sh * c.w) cid 0 1
      shadow (.collective c.req.ecb n g) parts) x.2.2
  (s, if x.2.1 then ACC_OVF else 0)

/-! ### Reduction (R333, R334, R336). -/

/-- Staged elements of a contribution: bits and poison. -/
def State.stagedElems (s : State) (c : Coll) (g n r : Nat) (f : Flips) : List (Nat × Bool) × State :=
  let x := s.devRead .coll (c.req.stage + (g * c.req.npart + r) * c.sh * c.w) (c.w * c.count n) f
  ((List.range (c.count n)).map (fun i =>
    let pk := c.staged.any (fun e => e.gen == g && e.rank == r && !e.shadow && e.idx == i / c.per && e.poison)
    (rdLE x.1 (c.w * i) c.w, pk || x.2.1.testBit (c.w * i / 8))), x.2.2.2)

/-- All contributions of a shard, by rank. -/
def State.allStaged (s : State) (c : Coll) (g n : Nat) (incl : List Nat) (f : Flips) : List (Nat × List (Nat × Bool)) × State :=
  incl.foldl (fun a r =>
    let x := a.2.stagedElems c g n r f
    (a.1 ++ [(r, x.1)], x.2)) ([], s)

/-- `a·2^e / n` as a dyadic that rounds as the quotient does: bits below the 64th place are kept as one
sticky bit. -/
def quotient (a : Int) (e : Int) (n : Nat) : Dy :=
  let q := a.natAbs * 2 ^ 64 / n
  let r := a.natAbs * 2 ^ 64 % n
  let m : Nat := 2 * q + (if r = 0 then 0 else 1)
  ⟨if a < 0 then -(m : Int) else m, e - 65⟩

/-- Two operands of the canonical tree with the flags set so far, either absent (R333, R71). -/
def treeAdd : Option (Nat × Nat) → Option (Nat × Nat) → Option (Nat × Nat)
  | some a, some b =>
    let r := addF32 a.1 b.1
    some (r.1, a.2 ||| b.2 ||| r.2)
  | some a, none => some a
  | none, b => b

def treePairs : List (Option (Nat × Nat)) → List (Option (Nat × Nat))
  | a :: b :: r => treeAdd a b :: treePairs r
  | l => l

def treeSum : Nat → List (Option (Nat × Nat)) → Option (Nat × Nat)
  | 0, l => (l.head?).getD none
  | n + 1, l => match l with
    | [] => none
    | [x] => x
    | l => treeSum n (treePairs l)

/-- The result element from an element's contributions by rank (R333, R334): bits, poison, flags. -/
def Coll.resultOf (c : Coll) (incl : List Nat) (v : List (Nat × (Nat × Bool))) : Nat × Bool × Nat :=
  let ndiv := if c.req.div then incl.length * 2 ^ c.req.cwlog else 1
  let f := if c.req.rfmt = 1 then fBF16 else fFP32
  if v.any (fun x => x.2.2) then (0, true, FPOISON)
  else if c.exact then
    let xs := v.map (fun x => sext 64 x.2.1)
    let sum := xs.sum
    let isNan := xs.any (fun x => x == -(2 ^ 63 : Int))
    if c.req.rfmt = 2 then
      (if isNan then (2 ^ 63, false, 0)
       else if 2 ^ 63 - 1 < sum then (2 ^ 63 - 1, false, ACC_OVF)
       else if sum < -(2 ^ 63 - 1) then (unsext 64 (-(2 ^ 63 - 1)), false, ACC_OVF)
       else (unsext 64 sum, false, 0))
    else if isNan then (f.qnan, false, 0)
    else
      let r := encodeFin f false false (quotient sum c.req.e ndiv)
      (r.1, false, r.2)
  else
    let blocks := (List.range c.req.npart).map (fun b =>
      (v.find? (fun x => c.cidxAt x.1 / 2 ^ c.req.cwlog == b)).map (fun x => (x.2.1, 0)))
    let t := (treeSum 16 blocks).getD (0, 0)
    let d : Nat × Nat := if c.req.div then
        (match decodeF fFP32 t.1 with
         | .fin n x => encodeFin fFP32 false n (quotient x.man x.exp ndiv)
         | x => encodeF fFP32 false x)
      else (t.1, 0)
    if c.req.rfmt = 1 then
      let r := encodeF fBF16 false (decodeF fFP32 d.1)
      (r.1, false, t.2 ||| d.2 ||| r.2)
    else (d.1, false, t.2 ||| d.2)

/-- The transport check words of the included contributions add up to that of the sums (R336). -/
def Coll.sumOk (c : Coll) (g n : Nat) (incl : List Nat) (st : List (Nat × List (Nat × Bool))) : Bool :=
  let sums := (List.range (c.count n)).map (fun i => (st.map (fun x => sext 64 (((x.2[i]?).getD (0, false)).1))).sum)
  let tr := (c.staged.filter (fun e => e.gen == g && !e.shadow && incl.contains e.rank)).map (·.trailer)
  checkWord c.step (c.lo n) sums == tr.sum % m61

/-- The distributor of a shard over the agreed set (R338, R340). -/
def Coll.distributor (c : Coll) (incl : List Nat) (n : Nat) : Nat := if incl.contains n then n else (n + 1) % c.req.npart

/-- Sends a reduced shard (R338). -/
def State.distribute (s : State) (c : Coll) (n : Nat) (incl : List Nat) (res : List (Nat × Bool)) : State :=
  let parts := c.resultParts n res
  let addr := c.req.dst + n * c.sh * c.wr
  let cid := 0x8000 + c.req.ecb + 1
  let who := FabWho.result c.req.ecb
  if c.req.scatter then s.sendParts c 0 s.coord addr cid 0 1 false who parts
  else if s.topo = 0 then
    let rcpt := s.rf (Reg.FAB_MC_HI (s.rf Reg.FAB_EPOCH 0 0) c.req.mcg) 29 17
    s.sendParts c 9 0 addr cid c.req.mcg rcpt false who parts
  else
    (incl.flatMap (fun r => c.coordOf r :: (c.shadowOf r).toList)).foldl (fun s d =>
      s.sendParts c 0 d addr cid 0 1 false who parts) s

/-- Reduces a shard and, where this device distributes it, sends the result; a reduction mismatch is tried once
more, and a second fails the collective (R333 to R338). -/
def State.reduceShard (s : State) (c : Coll) (g : Nat) (incl : List Nat) (f : Flips) : State :=
  let n := c.shardOf g
  if c.reduced.contains n then s
  else
    let x := s.allStaged c g n incl f
    let bad := c.exact && !c.sumOk g n incl x.1
    let note (s : State) : State :=
      ((s.event 0x0601 collUnit 2 [(16, 1, 2), (17, 2, s.coord), (19, 2, c.req.ecb), (21, 2, 0)]).sat Reg.COLL_CW_RED 1).reportColl
    let y := if bad then (note x.2).allStaged c g n incl [] else x
    if bad && !c.sumOk g n incl y.1 then y.2.failColl c 4 c.req.rank
    else
      let res := (List.range (c.count n)).map (fun i =>
        c.resultOf incl (y.1.map (fun v => (v.1, (v.2[i]?).getD (0, false)))))
      let s := y.2.putColl { c with reduced := c.reduced ++ [n], flags := res.foldl (fun a v => a ||| v.2.2) c.flags }
      if c.distributor incl n = c.req.rank then s.distribute c n incl (res.map (fun v => (v.1, v.2.1))) else s

/-! ### Readiness, reports and the agreed set (R337, R340, R375). -/

/-- Ranks whose contribution to a shard's copy `g` is complete. -/
def Coll.have_ (c : Coll) (g : Nat) : List Nat := (c.done.filter (fun d => d.1 == g)).map (·.2)

/-- The ranks that contribute: all, or those an exclusion table does not list. -/
def Coll.expected (c : Coll) : List Nat := if c.exclusion then c.ranks.filter (fun r => !c.excluded.contains r) else c.ranks

/-- The bitmap of a report (R340). -/
def Coll.bitmap (c : Coll) (g : Nat) : List Nat :=
  (c.have_ g).filter (fun r => !c.staged.any (fun e => e.gen == g && e.rank == r && e.poison && !e.shadow))

def bitBytes (n : Nat) (l : List Nat) : List Byte := toLE ((n + 7) / 8) ((l.dedup.map (fun r => 2 ^ r)).sum)
def bytesBits (n : Nat) (b : List Byte) : List Nat := (List.range n).filter (fun r => (leNat b).testBit r)

/-- Writes a report or the agreed set of a collective to a rank, locally where it is this device's own. -/
def State.sendSet (s : State) (c : Coll) (r addr off : Nat) (b : List Byte) : State :=
  if r = c.req.rank then
    let s := (s.devWrite .coll addr b 0 []).2.2
    s.wr (Reg.COLL_ECNT (c.req.ecb + off)) (s.rd (Reg.COLL_ECNT (c.req.ecb + off)) + 1)
  else
    let o := s.nextFab 16
    let d := c.coordOf r
    let op : FabOp := { sep := 16, op := o.1, type := 0, dcoord := d, dep := 16, first := s.now, who := .result c.req.ecb }
    ({ o.2 with fab := { o.2.fab with ops := o.2.fab.ops ++ [op] } } : State).inject
      { type := 0, cls := 1, last := true, w7 := 1, dcoord := d, dep := 16, sep := 16, tag := s.tagOfCtx c.ctx, addr := addr
        op := o.1, cid := 0x8000 + c.req.ecb + off, step := c.step, len := b.length, payload := b }

/-- The agreed set excludes ranks: COLL_DROP and event 0x0604 for each (R340). -/
def State.noteDropped (s : State) (c : Coll) (set : List Nat) : State :=
  (c.ranks.filter (fun r => !set.contains r)).foldl (fun s r =>
    (s.sat Reg.COLL_DROP 1).eventCtx 0x0604 collUnit 1 c.ctx [(16, 2, r), (18, 2, c.req.ecb), (20, 4, set.length * 2 ^ c.req.cwlog)]) s

/-- A reducer takes the agreed set and reduces its shards (R340 steps 4 and 5). -/
def State.takeAgreed (s : State) (c : Coll) (set : List Nat) (f : Flips) : State :=
  let c' := { c with agreed := some set, excluded := c.ranks.filter (fun r => !set.contains r) }
  let s := (s.noteDropped c set).putColl c'
  if s.rbit Reg.COLL_CTL 0 then s
  else
    let s := s.reduceShard c' 0 set f
    match s.collAt c.req.ecb with
    | some c => s.reduceShard c 1 set f
    | none => s

/-- The root forms the agreed set once the reports of every reducer that is not BREACHED are in (R340 step 3). -/
def State.formAgreed (s : State) (c : Coll) (f : Flips) : State :=
  if c.req.rank ≠ 0 ∨ c.agreed.isSome = true ∨ c.readyAt.isNone = true then s
  else
    let alive := c.ranks.filter (fun r => !s.peerBreached (c.coordOf r))
    let got := c.reports.map (·.1)
    if alive.all (fun r => got.contains (2 * r) && got.contains (2 * r + 1)) then
      let set := alive.filter (fun r => c.reports.all (fun m => m.2.contains r))
      let lost := c.ranks.any (fun n => !set.contains n && !set.contains ((n + 1) % c.req.npart))
      if set.isEmpty || lost then s.failColl c 3 0
      else
        let b := bitBytes c.req.npart set
        let a := c.reportBase + 2 * c.req.npart * 1024
        let s := set.foldl (fun (s : State) r => s.sendSet c r a 3 b) s
        if set.contains c.req.rank then s.takeAgreed c set f else s.putColl { c with agreed := some set }
    else s

/-- A drop-tolerant reducer that is ready sends its reports (R340 steps 1 and 2). -/
def State.sendReports (s : State) (c : Coll) (f : Flips) : State :=
  let c := { c with readyAt := some s.now, reported := [0, 1] }
  let s := [0, 1].foldl (fun (s : State) g =>
    s.sendSet c 0 (c.reportBase + (2 * c.req.rank + g) * 1024) 2 (bitBytes c.req.npart (c.bitmap g))) s
  let c := if c.req.rank = 0 then { c with reports := c.reports ++ [(0, c.bitmap 0), (1, c.bitmap 1)] } else c
  (s.putColl c).formAgreed c f

/-- What a collective does after a change: a strict one, or a replay under an exclusion table, reduces when every
contribution it waits for is complete; a drop-tolerant one becomes ready (R337, R340, R375). -/
def State.progress (s : State) (ecb : Nat) (late : Bool) (f : Flips) : State :=
  match s.collAt ecb with
  | none => s
  | some c =>
    if s.rbit Reg.COLL_CTL 0 then s
    else if c.req.drop = false ∨ c.exclusion = true then
      let ok (g : Nat) : Bool := c.expected.all (fun r => (c.have_ g).contains r)
      let s := if ok 0 then s.reduceShard c 0 c.expected f else s
      match s.collAt ecb with
      | some c => if c.req.drop && ok 1 then s.reduceShard c 1 c.expected f else s
      | none => s
    else if c.readyAt.isSome then s.formAgreed c f
    else
      let ok (g : Nat) : Bool := c.ranks.all (fun r => (c.have_ g).contains r || s.peerBreached (c.coordOf r))
      if late || (ok 0 && ok 1) then s.sendReports c f else s

/-! ### Contributions (R336, R345, R346). -/

/-- The copy and rank an address of the staging area belongs to (R331). -/
def Coll.placeOf (c : Coll) (p : Pkt) : Nat × Nat :=
  let k := (p.addr - c.req.stage - p.idx * 4088) / (max 1 (c.sh * c.w))
  (k / c.req.npart, k % c.req.npart)

/-- The active collective of a contribution: by its engine counter, a shadow's by the staging area (R331, R345). -/
def State.collOf (s : State) (p : Pkt) : Option Coll :=
  if p.shadow then
    s.coll.active.find? (fun c => decide (c.req.stage ≤ p.addr) && decide (p.addr < c.reportBase))
  else (s.roleOf p).map (·.1)

/-- A trailer that does not match its packet (R336); a shadow carries no data to check. -/
def Coll.mismatch (c : Coll) (p : Pkt) (start w : Nat) : Bool :=
  let tr := p.trailer
  let d := checkWord (c.step / 2 ^ 32 * 2 ^ 32 + p.step) start (elemsOf w (p.payload.take (p.len - 8)))
  (!p.shadow && d != tr) || (!p.last && p.w7 != tr % 2 ^ 32)

/-- The check of a packet of an active collective fails (R336): contributions start at their shard, results at DST. -/
def Coll.badCheck (c : Coll) (p : Pkt) : Bool :=
  if p.type = 5 then c.mismatch p (c.lo (c.shardOf (c.placeOf p).1) + p.idx * c.per) c.w
  else p.check && c.mismatch p ((p.addr - c.req.dst) / c.wr) c.wr

/-- A shadow's trailers are compared with its twin's once both are complete (R345). -/
def State.compareShadow (s : State) (c : Coll) (g r : Nat) : State :=
  if c.done.contains (g, r) && c.done.contains (2 + g, r) then
    let sum (sh : Bool) : Nat :=
      ((c.staged.filter (fun e => e.gen == g && e.rank == r && e.shadow == sh)).map (·.trailer)).sum % m61
    if sum true = sum false then s.sat Reg.COLL_SHADOW_OK 1
    else (s.sat Reg.COLL_SHADOW_BAD 1).event 0x0602 collUnit 2
      [(16, 2, r), (18, 2, (c.shadowOf r).getD 0), (20, 2, c.req.ecb)]
  else s

/-- A contribution packet is staged in its collective; `complete` where its operation is (R331, R345, R346). -/
def State.stage (s : State) (c : Coll) (p : Pkt) (complete : Bool) (f : Flips) : State :=
  let k := c.placeOf p
  if p.step ≠ c.step % 2 ^ 32 then s.failColl c 6 k.2
  else
    let e : Staged := { gen := k.1, rank := k.2, idx := p.idx, trailer := p.trailer, poison := p.poison
                        shadow := p.shadow }
    let complete := complete && !c.spoiled.contains (p.scoord, p.sep, p.op)
    let key := (k.1 + (if p.shadow then 2 else 0), k.2)
    if complete && !p.shadow && c.done.contains key then s.failColl c 5 k.2
    else
      let c := { c with staged := c.staged ++ [e], done := if complete then c.done ++ [key] else c.done }
      let s := s.putColl c
      if complete then (s.compareShadow c k.1 k.2).progress c.req.ecb false f else s

/-- REDUCE_CONTRIBUTION (R331, R336): verified, tracked, staged, and the shard reduced once complete. -/
def execReduceContribution (half : Option Nat) (p : Pkt) (f : Flips) (s : State) : Res :=
  if p.type ≠ 5 then .next s
  else
    let s := s.take (.pkt half p)
    match s.collOf p with
    | none =>
      if p.shadow then .next (s.sat Reg.COLL_SHADOW_LATE 1)
      else .next (s.earlyWrite half { p with check := true } f)
    | some c =>
      if c.badCheck p then .next (s.transportBad half p c.req.ecb)
      else if p.shadow then
        match s.trackFind p with
        | .inl r => .next (s.discard r p.scoord p.dcoord)
        | .inr e =>
          let m := s.trackMark p e false
          let s := if m.1 then m.2.2.opComplete p false else m.2.2
          .next (s.stage c p m.1 f)
      else
        let r := s.applyWrite { p with check := true } f
        .next (if r.1 then r.2.2.stage c p r.2.1 f else r.2.2)

/-! ### Reports, agreed sets and results (R339, R340). -/

/-- Dropped blocks go into the open run record; one that finds no room faults the context (R339, R372, R374). -/
def State.recordDrops (s : State) (c : Coll) : State :=
  if s.runCtx ≠ c.ctx ∨ c.excluded = [] then s
  else
    match s.runningSlot with
    | none => s
    | some j =>
      match j.run with
      | none => s
      | some r =>
        let l := c.excluded.map (fun k => ({ step := c.step, ecb := c.req.ecb, cidx := c.cidxAt k, cwlog := c.req.cwlog } : DropEnt))
        if (recPlace j.recs j.job.recLen (recSize j.sealed.length (r.drops.length + l.length))).isNone then
          (s.event 0x0A44 devUnit 2 [(16, 2, c.ctx), (18, 1, 2)]).faultRunning 0x0A44
        else s.modRun (fun r => { r with drops := r.drops ++ l, replay := r.replay || c.exclusion })

/-- Results that complete a collective (R339). -/
def State.finishColl (s : State) (c : Coll) : State :=
  let want := if c.req.scatter then 1 else c.req.npart
  if c.arrived < want then s.putColl c
  else
    let s := (s.dropColl c).sat Reg.COLL_DONE 1
    let s := (s.ctxFlags c.ctx c.logical c.flags).ctxRaise c.ctx c.logical c.req.cnt 1 false
    let s := (List.range 4).foldl (fun s k => s.wr (Reg.COLL_ECNT (c.req.ecb + k)) 0) s
    s.recordDrops c

/-- What an engine write means to its collective: a result, a report, or the agreed set. -/
def State.engineWrite (s : State) (c : Coll) (off : Nat) (p : Pkt) (complete : Bool) (f : Flips) : State :=
  if !complete || c.spoiled.contains (p.scoord, p.sep, p.op) then s
  else if off = 1 then s.finishColl { c with arrived := c.arrived + 1 }
  else if off = 2 then
    let k := (p.addr - c.reportBase) / 1024
    let c := { c with reports := c.reports ++ [(k, bytesBits c.req.npart p.payload)] }
    (s.putColl c).formAgreed c f
  else if off = 3 then s.takeAgreed c (bytesBits c.req.npart p.payload) f
  else s

/-- A write that names engine counter `off` of an active collective: check word, tracker, memory, meaning. -/
def State.engineRow (s : State) (half : Option Nat) (p : Pkt) (off : Nat) (f : Flips) : Res :=
  match s.roleOf p with
  | none => .next s
  | some (c, o) =>
    if o ≠ off ∨ (p.type ≠ 0 ∧ p.type ≠ 9) then .next s
    else
      let s := s.take (.pkt half p)
      if c.badCheck p then .next (s.transportBad half p c.req.ecb)
      else
        let r := s.applyWrite p f
        .next (if r.1 then r.2.2.engineWrite c off p r.2.1 f else r.2.2)

/-- COLL_RESULT_ARRIVAL (R336, R338, R339). -/
def execCollResultArrival (half : Option Nat) (p : Pkt) (f : Flips) (s : State) : Res := s.engineRow half p 1 f

/-- COLL_REPORT_ARRIVAL (R340 step 3). -/
def execCollReportArrival (half : Option Nat) (p : Pkt) (f : Flips) (s : State) : Res := s.engineRow half p 2 f

/-- COLL_AGREED_SET_ARRIVAL (R340 step 4). -/
def execCollAgreedSetArrival (half : Option Nat) (p : Pkt) (f : Flips) (s : State) : Res := s.engineRow half p 3 f

/-! ### Time limits (R337, R339, R340). -/

/-- COLL_DEADLINE_EXPIRY (R337, R340). -/
def execCollDeadlineExpiry (ecb : Nat) (f : Flips) (s : State) : Res :=
  match s.collAt ecb with
  | none => .next s
  | some c =>
    if (s.now - c.taken).toNat < s.rd Reg.COLL_DEADLINE ∨ s.rbit Reg.COLL_CTL 0 = true then .next s
    else if c.req.drop = false ∨ c.exclusion = true then
      match c.expected.find? (fun r => !(c.have_ 0).contains r) with
      | some r => .next (s.failColl c 1 r)
      | none => .next s
    else .next (s.progress ecb true f)

/-- COLL_AGREE_TIMEOUT (R340): the root has been ready for longer than COLL_AGREE_TMO without the reports. -/
def execCollAgreeTimeout (ecb : Nat) (f : Flips) (s : State) : Res :=
  match s.collAt ecb with
  | none => .next s
  | some c =>
    match c.readyAt with
    | none => .next s
    | some t =>
      if c.req.rank = 0 ∧ c.agreed = none ∧ s.rd Reg.COLL_AGREE_TMO < (s.now - t).toNat then
        match (s.formAgreed c f).collAt ecb with
        | some d => if d.agreed.isSome then .next (s.formAgreed c f) else .next (s.failColl c 7 0)
        | none => .next (s.formAgreed c f)
      else .next s

/-- COLL_RESULT_TIMEOUT (R339). -/
def execCollResultTimeout (ecb : Nat) (_f : Flips) (s : State) : Res :=
  match s.collAt ecb with
  | none => .next s
  | some c => if s.rd Reg.COLL_RESULT_TMO ≤ (s.now - c.taken).toNat then .next (s.failColl c 9 c.req.rank) else .next s

/-! ### Requests (R326 to R330, R375). -/

/-- A request entry, none where a range or a reserved bit is broken (R327, R328, R329). -/
def reqOf (b : List Byte) (exact : Bool) : Option CollReq :=
  let w (o n : Nat) : Nat := rdLE b o n
  let np := bitsOf (w 32 2) 12 0 + 1
  let e := sext 16 (w 40 2)
  let q : CollReq :=
    { src := bitsOf (w 0 8) 39 0, dst := bitsOf (w 8 8) 39 0, stage := bitsOf (w 16 8) 39 0, nel := w 24 8, npart := np
      rank := bitsOf (w 34 2) 12 0, cidx := w 36 2, cwlog := bitsOf (w 38 1) 4 0, scatter := bitOf (w 39 1) 0
      drop := bitOf (w 39 1) 1, div := bitOf (w 39 1) 2, sfmt := bitsOf (w 39 1) 4 3, rfmt := bitsOf (w 39 1) 6 5, e := e
      cnt := w 42 1, mcg := bitsOf (w 44 4) 13 0, ptab := bitsOf (w 48 8) 39 0, ecb := w 56 2 }
  let shMax := 4096 * (4088 / (if exact then 8 else 4))
  let rsv := w 0 8 / 2 ^ 40 + w 8 8 / 2 ^ 40 + w 16 8 / 2 ^ 40 + w 32 2 / 2 ^ 13 + w 34 2 / 2 ^ 13 + w 38 1 / 32 + w 39 1 / 128 +
    w 43 1 + w 44 4 / 2 ^ 14 + w 48 8 / 2 ^ 40 + w 58 6
  if rsv = 0 ∧ 1 ≤ q.nel ∧ q.nel < 2 ^ 48 ∧ q.nel ≤ np * shMax ∧ q.rank < np ∧ q.cwlog ≤ 16 ∧ q.cidx % 2 ^ q.cwlog = 0 ∧
      q.sfmt ≠ 3 ∧ q.rfmt ≠ 3 ∧ -256 ≤ e ∧ e ≤ 255 ∧ q.ecb ≤ 16380 ∧ np * 2 ^ q.cwlog ≤ 65536 ∧ q.cidx + 2 ^ q.cwlog ≤ 65536 ∧
      (exact = true ∨ (q.sfmt = 0 ∧ q.rfmt ≠ 2)) ∧ ¬ (q.rfmt = 2 ∧ q.div = true) then some q
  else none

/-- A blank request, named in the failure of an invalid entry. -/
def badReq (b : List Byte) : CollReq :=
  { src := 0, dst := 0, stage := 0, nel := 1, npart := 1, rank := rdLE b 34 2, cidx := 0, cwlog := 0, scatter := false, drop := false
    div := false, sfmt := 0, rfmt := 0, e := 0, cnt := rdLE b 42 1, mcg := 0, ptab := 0, ecb := rdLE b 56 2 % 2 ^ 14 }

/-- The ranks that a replay exclusion table drops from a collective: none where an entry matches no participant's
block (R375). -/
def Coll.exclude (c : Coll) (tab : List Byte) (n : Nat) : Option (List Nat) :=
  let ents := (List.range n).map (fun i => (tab.drop (16 * i)).take 16)
  let mine := ents.filter (fun e => rdLE e 0 8 == c.step && rdLE e 8 2 == c.req.ecb)
  let find (e : List Byte) : Option Nat := c.ranks.find? (fun r => c.cidxAt r == rdLE e 10 2 && rdLE e 12 1 == c.req.cwlog)
  if mine.all (fun e => (find e).isSome) then some (mine.filterMap find) else none

/-- A kept packet fails its check now that its collective is known: its operation never counts as complete (R336, log 169). -/
def State.spoil (s : State) (c : Coll) (half : Option Nat) (p : Pkt) : State :=
  (s.putColl { c with spoiled := c.spoiled ++ [(p.scoord, p.sep, p.op)] }).transportBad half p c.req.ecb

/-- Packets that came before their request are verified, and counted for it (R336, R339). -/
def State.replayEarly (s : State) (c : Coll) (f : Flips) : State :=
  let mine (x : Option Nat × Pkt × Bool) : Bool := match x.2.1.engine with
    | some n => decide (c.req.ecb ≤ n ∧ n < c.req.ecb + 4)
    | none => false
  let l := s.coll.early.filter mine
  let s := { s with coll := { s.coll with early := s.coll.early.filter (fun x => !mine x) } }
  let s := (l.filter (fun x => c.badCheck x.2.1)).foldl (fun s x =>
    match s.collAt c.req.ecb with
    | some c => s.spoil c x.1 x.2.1
    | none => s) s
  (l.filter (fun x => !c.badCheck x.2.1)).foldl (fun s x =>
    match s.collAt c.req.ecb, x.2.1.engine with
    | some c, some n =>
      if x.2.1.type = 5 then s.stage c x.2.1 x.2.2 f else s.engineWrite c (n - c.req.ecb) x.2.1 x.2.2 f
    | _, _ => s) s

/-- A request is taken (R326 to R332, R375). -/
def State.takeRequest (s : State) (j : Slot) (l : Nat) (b : List Byte) (bad : Bool) (f : Flips) : State :=
  let exact := !j.numMode.testBit 1
  let mk (q : CollReq) : Coll :=
    { ctx := j.ctx.toNat, logical := l, req := q, exact := exact, step := j.step.toNat, taken := s.now, table := [] }
  match (if bad then none else reqOf b exact) with
  | none => s.failColl (mk (badReq b)) 8 (rdLE b 34 2)
  | some q =>
    let r := s.devRead .coll q.ptab (4 * q.npart) f
    let c := { mk q with table := (List.range q.npart).map (fun i => rdLE r.1 (4 * i) 4) }
    let s := r.2.2.2
    if r.2.1 ≠ 0 ∨ c.table.any (fun v => bitsOf v 15 13 != 0 || bitsOf v 31 30 != 0) then s.failColl c 8 q.rank
    else
      let t := if q.drop && j.job.nexcl != 0 then s.devRead .det j.job.excl (16 * j.job.nexcl) f else ([], 0, false, s)
      let s := t.2.2.2
      match c.exclude t.1 (if q.drop then j.job.nexcl else 0) with
      | none => s.failColl c 8 q.rank
      | some ex =>
        let c := { c with excluded := ex, exclusion := !ex.isEmpty }
        let s := { s with coll := { s.coll with active := s.coll.active ++ [c] } }
        let shadow := s.rbit Reg.COLL_CTL 0
        let w := (if ex.contains q.rank then [] else c.ranks).foldl (fun (a : State × Nat) n =>
          let r := a.1.sendShard c shadow f n
          (r.1, a.2 ||| r.2)) (s, 0)
        let s := (w.1.putColl { c with flags := w.2 }).replayEarly c f
        match s.collAt q.ecb with
        | none => s
        | some c =>
          let lost := c.expected.find? (fun r => s.peerBreached (c.coordOf r))
          if !shadow && (!c.req.drop || c.exclusion) && lost.isSome then s.failColl c 2 (lost.getD 0)
          else if !shadow && c.req.drop && !c.exclusion && s.peerBreached (c.coordOf 0) then s.failColl c 3 0
          else s.progress q.ecb false f

/-- The entries a logical spindle's ring still holds are taken, while fewer than 64 collectives are active. -/
def State.pollRing : Nat → State → Nat → Nat → Flips → State
  | 0, s, _, _, _ => s
  | n + 1, s, l, count, f =>
    match s.runningSlot with
    | none => s
    | some j =>
      let k := tget 0 j.consumed l
      if count ≤ k ∨ 64 ≤ s.coll.active.length then s
      else
        let r := s.devRead .coll (j.job.coll + l * 0x4000 + k % 256 * 64) 64 f
        let s := r.2.2.2.setSlot r.2.2.2.runSlot (some { j with consumed := tset 0 j.consumed l (k + 1) })
        State.pollRing n (s.takeRequest j l r.1 (r.2.1 != 0) f) l count f

/-- COLL_POLL (R326): every COLL_POLL reference ticks the producer counts of the running context are read and new entries taken. -/
def execCollPoll (f : Flips) (s : State) : Res :=
  if (s.now - s.coll.polledAt).toNat < s.rd Reg.COLL_POLL then .next s
  else
    let s := { s with coll := { s.coll with polledAt := s.now } }
    match s.runningSlot with
    | none => .next s
    | some j =>
      if j.job.coll = 0 then .next s
      else .next ((List.range j.lcount).foldl (fun s l =>
        let r := s.devRead .coll (j.job.coll + 0x40000 + l * 8) 8 f
        if r.2.1 ≠ 0 then r.2.2.2 else State.pollRing 256 r.2.2.2 l (leNat r.1) f) s)

/-! ### Peers (R342, R343). -/

/-- A watched peer becomes BREACHED: event 0x0510, and collectives with it are judged again (R337, R340, R343). -/
def State.breachPeer (s : State) (n cause : Nat) : State :=
  let r := Reg.COLL_PEER n
  let d := s.rf r 12 0
  let s := (s.wf r 30 30 1).event 0x0510 devUnit 2 [(16, 1, cause), (17, 2, d), (19, 1, 1)]
  if s.rbit Reg.COLL_CTL 0 then s
  else
    s.coll.active.foldl (fun s c =>
      match c.expected.find? (fun k => c.coordOf k == d) with
      | none => s
      | some k =>
        if c.req.drop = false ∨ c.exclusion = true then s.failColl c 2 k
        else if k = 0 then s.failColl c 3 0
        else s.progress c.req.ecb false []) s

/-- The peers' intervals at a heartbeat interval (R342). -/
def State.peerInterval (s : State) (n : Nat) : State :=
  let r := Reg.COLL_PEER n
  if !s.rbit r 31 then s
  else
    let p := tget {} s.coll.peers n
    let since := if p.heard then 0 else p.since + 1
    let s := { s with coll := { s.coll with peers := tset {} s.coll.peers n { heard := false, since := since } } }
    if s.rbit r 30 then s
    else
      let s := s.wf r 15 13 (min 7 since)
      if s.rf Reg.COLL_HB_MISS 3 0 ≤ since then s.breachPeer n 6 else s

/-- A link partner's intervals (R342). -/
def State.partnerInterval (s : State) (h : Nat) : State :=
  if s.topo = 0 ∧ (s.portSt h = 2 ∨ s.portSt h = 5) then
    let x := s.half h
    let m := if x.heard then 0 else x.miss + 1
    let s := s.setHalf h { x with heard := false, miss := m }
    if s.rf Reg.COLL_HB_MISS 3 0 ≤ m then s.breachHalf h 4 (s.rf (Reg.PORT_PARTNER (h / 2) (h % 2)) 12 0) else s
  else s

/-- A heartbeat's payload (R342). -/
def State.beatBytes (s : State) : List Byte :=
  let fl := s.rf Reg.CMD_DEV_STATE 3 3 + 2 * s.rf Reg.COLL_CTL 0 0
  toLE 4 s.coll.hbSeq ++ toLE 1 s.devState ++ toLE 1 fl ++ toLE 2 (s.rf Reg.COLL_DIKE 15 0) ++ toLE 8 (s.rd64 Reg.DET_STEP_LO)

def State.setHbAt (s : State) (t : DWord) : State := { s with coll := { s.coll with hbAt := t } }
def State.setHbSeq (s : State) (n : Nat) : State := { s with coll := { s.coll with hbSeq := n } }

/-- Heartbeats to the watched peers and, in topology 0, the link partners (R342). -/
def State.sendBeats (s : State) : State :=
  if s.rbit Reg.COLL_CTL 1 = false ∨ s.fab.quiet = true then s
  else
    let b := s.beatBytes
    let s := (s.setHbSeq ((s.coll.hbSeq + 1) % 4294967296)).toPeers 8 b
    if s.topo = 0 then s.toPartners 8 b else s

/-- HEARTBEAT_INTERVAL (R342): misses are counted and heartbeats sent. -/
def execHeartbeatInterval (s : State) : Res :=
  if (s.now - s.coll.hbAt).toNat < s.rd Reg.COLL_HB_INT then .next s
  else
    let s := (List.range 64).foldl State.peerInterval (s.setHbAt s.now)
    .next ((List.range 32).foldl State.partnerInterval s).sendBeats

/-- The packet came from the link partner of the half-port. -/
def State.fromPartner (s : State) (half : Option Nat) (coord : Nat) : Option Nat :=
  match half with
  | some h => if s.rbit (Reg.PORT_PARTNER (h / 2) (h % 2)) 31 && s.rf (Reg.PORT_PARTNER (h / 2) (h % 2)) 12 0 == coord then some h else none
  | none => none

/-- HEARTBEAT (R342, R343). -/
def execHeartbeat (half : Option Nat) (p : Pkt) (s : State) : Res :=
  if p.type ≠ 8 then .next s
  else
    let s := s.take (.pkt half p)
    let s := match s.fromPartner half p.scoord with
      | some h => s.setHalf h { s.half h with heard := true, miss := 0 }
      | none => s
    .next ((List.range 64).foldl (fun s n =>
      let r := Reg.COLL_PEER n
      if s.rbit r 31 && s.rf r 12 0 == p.scoord then
        let s := { s with coll := { s.coll with peers := tset {} s.coll.peers n { heard := true, since := 0 } } }
        if s.rbit r 30 then s.sat Reg.COLL_PEER_HB 1 else s.wf r 15 13 0
      else s) s)

/-- BREACH_NOTICE (R343). -/
def execBreachNotice (half : Option Nat) (p : Pkt) (s : State) : Res :=
  if p.type ≠ 7 then .next s
  else
    let s := s.take (.pkt half p)
    let d := rdLE p.payload 0 2 % 2 ^ 13
    let s := match s.fromPartner half d with
      | some h => s.breachHalf h 3 d
      | none => s
    if rdLE p.payload 6 2 ≠ s.rf Reg.COLL_DIKE 15 0 then .next s
    else
      .next ((List.range 64).foldl (fun s n =>
        let r := Reg.COLL_PEER n
        if s.rbit r 31 && !s.rbit r 30 && s.rf r 12 0 == d then s.breachPeer n 5 else s) s)

/-! ### ACKs (R319, R320, R445). -/

/-- FAB_ACK: the operation it names ends; a checkpoint write answered other than OK fails the checkpoint. -/
def execFabAck (half : Option Nat) (p : Pkt) (s : State) : Res :=
  if p.type ≠ 6 ∨ p.sub ≠ 1 then .next s
  else
    let s := s.take (.pkt half p)
    match s.opOf p with
    | none => .next (s.discard 13 p.scoord p.dcoord)
    | some o =>
      let s := if o.left ≤ 1 then s.dropOp o
        else { s with fab := { s.fab with ops := s.fab.ops.map (fun x => if x = o then { o with left := o.left - 1 } else x) } }
      match o.who with
      | .dispatch ps n => .next (s.modSpn ps (fun x => x.opAnswered n))
      | .ckpt => .next (if rdLE p.payload 1 1 ≠ 0 then (s.ckptFail 1 o.dcoord).payRunning else s)
      | _ => .next s

end Sys2Proof.Machine
end

