-- ==== Sys2Proof/Machine/Resets.lean ====
section
/-! DEFINITION. Resets, hang indications, suspects, quarantine and withdrawal (spec/01_architecture.md R38;
spec/13_hangs_resets_recovery.md R407 to R424, R433). -/

namespace Sys2Proof.Machine

/-! ### Scopes (R407, R412). -/

/-- The spindle at a position. -/
def State.occupant (s : State) (q : Nat) : Option Nat :=
  ((List.range 16).find? (fun l => s.lmapValid l && s.posOf l == q)).map s.physOf

/-- The spindles of a ply (R407 level 2). -/
def State.plySpins (s : State) (n : Nat) : List Nat :=
  let qs := [2 * n, 2 * n + 1]
  (qs.filterMap s.occupant ++ (qs.map homeOf).filter (fun ps => (s.logicalOf ps).isNone)).dedup

/-- Spindles and polders of a reset's scope. -/
def State.scopeOf (s : State) (level scope : Nat) : List Nat × List Nat :=
  let n := scope % 2048
  if level = 1 then ([n], [])
  else if level = 2 then ((if scope / 2048 = 1 then s.plySpins n else [n]), [])
  else if level = 3 then (s.plySpins (2 * n) ++ s.plySpins (2 * n + 1), [n])
  else (List.range 18, List.range 4)

/-- The scopes a missed reset continues with (R412). -/
def State.escalated (s : State) (r : Reset) : List (Nat × Nat) :=
  let n := r.scope % 2048
  if r.level = 1 then
    match s.logicalOf n with
    | some l => [(2, unitId 1 (s.posOf l / 2))]
    | none => match posHome n with
      | some q => [(2, unitId 1 (q / 2))]
      | none => [(2, unitId 0 n)]
  else if r.level = 2 then
    (if r.scope / 2048 = 1 then [(3, unitId 2 (n / 2))]
     else if n = 8 then [(3, unitId 2 0), (3, unitId 2 1)] else [(3, unitId 2 2), (3, unitId 2 3)])
  else [(4, devUnit)]

/-- The first reset's scope lies within the second's (R413). -/
def Reset.within (a b : Reset) : Bool :=
  b.level == 4 || (decide (a.level ≤ b.level) && a.spins.all b.spins.contains && a.polders.all b.polders.contains)

def State.setResets (s : State) (l : List Reset) : State := { s with rst := { s.rst with resets := l } }

/-- Puts a changed reset back, found by its sequence. -/
def State.putReset (s : State) (r : Reset) : State :=
  s.setResets (s.rst.resets.map (fun x => if x.seq = r.seq then r else x))

/-! ### Withdrawal and halting (R38, R343, R419). -/

/-- The withdrawal record of the flash, its 4 KiB whole (R584). -/
def withdrawalRec (tick cause : Nat) : List Byte := toLE 4 0x44575A4B ++ toLE 8 tick ++ toLE 2 cause ++ List.replicate 4082 0xFF

def State.unquiet (s : State) (q : Bool) : State := { s with fab := { s.fab with quiet := q } }

/-- The device enters WITHDRAWN (R38, R39): quarantine is aborted, the running context faults, the withdrawal is
recorded, breach notices go out. -/
def State.withdraw (s : State) (cause : Nat) : State :=
  let s := (s.quarEnd 4 0).faultRunning cause
  let s := s.flashPut flWithdrawal (withdrawalRec s.now.toNat cause)
  ((s.wf Reg.CMD_DEV_STATE 19 19 1).setDev stWithdrawn cause).breachNotice 3

/-- The device enters HALTED: breach notices, ALERT_N (R38, R343). -/
def State.halt (s : State) (cause : Nat) : State :=
  let s := (s.quarEnd 4 0).breachNotice 2
  let old := s.devState
  (if old = stHalted then s else s.toHalted.stampDev old cause).alertOn

/-- The ticks of counted resets, latest first (R419). -/
def State.countedTicks (s : State) : List Nat := (List.range 8).map (fun k => s.rd64 (Reg.RST_CNT_TS_LO k))

/-- The counted ticks clear (R419). -/
def State.clearCounted (s : State) : State := (List.range 8).foldl (fun s k => s.wr64 (Reg.RST_CNT_TS_LO k) 0) s

/-- WITHDRAWN ends: the record is erased, the counted ticks clear, injection resumes (R38, R419, R584). -/
def State.returnService (s : State) : State :=
  let s := (s.flashPut flWithdrawal (List.replicate 4096 0xFF)).clearCounted
  ((s.unquiet false).wf Reg.CMD_DEV_STATE 19 19 0).setDev stService 0x0711

/-- A return to service, applied to the state the device is in (R38, R419). -/
def State.applyReturn (s : State) : State := if s.devState = stWithdrawn then s.returnService else s.clearCounted

/-- The counted ticks as they stood before a return to service of this tick, if one was executed. -/
def State.backNow (s : State) : Option (List Nat) :=
  match s.rst.back with
  | some (t, l) => if t = s.now then some l else none
  | none => none

/-- A withdrawal and a return to service of one tick: the withdrawal is applied first (R39). -/
def State.withdrawFirst (s : State) (cause : Nat) : State :=
  let s := s.withdraw cause
  if s.backNow.isSome then s.applyReturn else s

/-- A counted reset with `old` the counted ticks before it (R419): its tick is kept, and the withdrawal limit judged. -/
def State.judgeReset (s : State) (old : List Nat) : State :=
  if old.head? = some s.now.toNat ∧ s.now ≠ 0 then s
  else
    let l := s.now.toNat :: old
    let s := (List.range 8).foldl (fun s k => s.wr64 (Reg.RST_CNT_TS_LO k) ((l[k]?).getD 0)) s
    let n := s.rf Reg.RST_WD 7 0
    let w := s.rf Reg.RST_WD 31 16
    match l[n - 1]? with
    | some t =>
      if t ≠ 0 ∧ s.now.toNat - t < w * 100000000 ∧ s.devState = stService then
        (s.event 0x0706 devUnit 2 [(16, 1, n), (17, 2, w)]).withdraw 0x0706
      else s
    | none => s

/-- A counted reset (R419); a return to service of the same tick is applied after it (R39). -/
def State.countReset (s : State) : State :=
  match s.backNow with
  | some l => (s.judgeReset l).applyReturn
  | none => s.judgeReset s.countedTicks

/-! ### Chip-level reset (R11, R155, R407). -/

/-- Everything chip-level reset leaves: flash, fuses and their map, the module, the domains that are up, gated ones
among them on again, and what has left the device. -/
def State.chipReset (s : State) : State :=
  let keepReg (a : Nat) : Bool := (decide (Reg.FUSE_MAP 0 ≤ a) && decide (a < Reg.FUSE_MAP 512)) || a == Reg.FUSE_FREE ||
    a == Reg.SEAM_MM_SPARE || (List.range 4).any (fun k => a == Reg.SEAM_SPARE k)
  let keepMsg (m : Msg) : Bool := match m with
    | .frame _ _ | .eth _ | .vnet _ | .uart _ | .reply _ _ => true
    | _ => false
  let doms := if s.pwr.group = 7 then s.domsOff &&& 0x800000 else s.domsOff
  let on : Nat := (~~~doms).toNat
  { State.reset with
    domsOff := doms
    pwr := { group := s.pwr.group, groupAt := s.pwr.groupAt, enabled := s.pwr.enabled, vin := s.pwr.vin, outFor := s.pwr.outFor }
    pending := s.pending
    regs := tset 0 (s.regs.filter (fun r => keepReg r.1)) Reg.PWR_ST (BitVec.ofNat 32 on ^^^ regReset Reg.PWR_ST)
    freeN := s.freeN
    drbgN := s.drbgN
    out := s.out.filter keepMsg
    off := s.off
    flash := s.flash
    wall := s.wall
    fuse := s.fuse
    modl := s.modl
    rst := { chipHeld := true, pinLow := s.rst.pinLow, resets := s.rst.resets, seqNo := s.rst.seqNo }
    boot := { began := s.wall, at_ := s.wall } }

/-! ### The steps of a reset (R410, R411, R413). -/

/-- Operations of a spindle's unit end and its stop absorbs (R410 steps 2 and 3). -/
def State.closeSpindle (s : State) (ps : Nat) : State :=
  ((s.setSpnState ps 7).syncStop ps).modSpn ps (fun x => { x with ops := [] })

/-- The crossbar of a polder closes and its channels enter self-refresh (R244 steps 1 to 4). -/
def State.closePolder (s : State) (p : Nat) : State :=
  let s := (List.range 32).foldl (fun s c =>
    let r := Reg.MEM_CH_STAT (32 * p + c)
    if s.rf r 2 0 = 2 then s.wf r 2 0 3 else s) s
  s.event 0x0209 (unitId 2 p) 0 [(16, 1, 0)]

/-- A rolling test whose spindle or standing spare a reset covers ends without outcome: event 0x0809 (R399, R405). -/
def State.abortRoll (s : State) (spins : List Nat) : State :=
  let ps := s.rf Reg.TEST_ROLL_ST 12 8
  if s.rf Reg.TEST_ROLL_ST 2 0 ≠ 0 ∧ (spins.contains ps ∨ spins.contains (if ps ≤ 8 then 8 else 17)) then
    let s := ((s.wf Reg.TEST_ROLL_ST 15 0 0).sat Reg.TEST_ROLL_ABORT 1).event 0x0809 (unitId 0 ps) 1 [(16, 1, 4)]
    { s with hlth := { s.hlth with rollPend := false, holding := s.hlth.holding.erase ps,
                                   moves := s.hlth.moves.filter (fun m => decide (m.why ≠ .rollOut ∧ m.why ≠ .rollBack)) } }
  else s

/-- What a reset does to the running context (R411). -/
def State.resetContext (s : State) (r : Reset) : State :=
  match s.runningSlot with
  | none => s
  | some j =>
    if j.st ≠ .faulted ∧ (s.physList j.lcount).any r.spins.contains then
      let s := if s.quarCtx = s.runCtx then s.quarEnd 4 0 else s
      (s.event 0x0705 devUnit 2 [(16, 2, j.ctx.toNat), (18, 1, r.level), (19, 1, 1)]).faultRunning 0x0705
    else s

/-- Steps 1 to 4 of R410 for a reset entering CLOSING. -/
def State.closing (s : State) (r : Reset) : State :=
  if r.level = 4 then s.breachNotice 1
  else
    let s := r.spins.foldl State.closeSpindle s
    let s := (r.polders.foldl State.closePolder s).syncUnits (r.polders.map crossbarStop)
    let s := if 2 ≤ r.level then s.abortRoll r.spins else s
    s.resetContext r

/-- A reset begins (R410 step 1, R412, R413): those it takes over end, their requests and starts kept; `since` is when it, or the
one it continues, began.  RST_LAST shows RESULT 2 while an escalated reset goes on (log 178). -/
def State.beginReset (s : State) (level scope source seq : Nat) (counted : Bool) (also : List Nat) (since : DWord) : State :=
  let sc := s.scopeOf level scope
  let r0 : Reset := { level := level, scope := scope, source := source, seq := seq, start := since, timer := s.wall
                      counted := counted, at_ := .closing, spins := sc.1, polders := sc.2
                      fenced := sc.1.filter (fun ps => s.spnState ps == 6 || s.hlth.returning.any (fun x => x.unit == unitId 0 ps)) }
  let old := s.rst.resets.filter (fun x => x.within r0)
  let r := { r0 with start := old.foldl (fun t x => if x.start.toNat < t.toNat then x.start else t) since
                     also := also ++ old.flatMap (fun x => x.seq :: x.also)
                     fenced := r0.fenced ++ old.flatMap (·.fenced) }
  let s := s.event 0x0702 scope 1 [(16, 1, level), (17, 1, source), (18, 1, if counted then 1 else 0)]
  let s := s.wr Reg.RST_LAST (scope * 2 ^ 16 + source * 2 ^ 12 + (if source = 3 then 2 * 16 else 0) + level)
  let s := s.setResets (s.rst.resets.filter (fun x => !x.within r0) ++ [r])
  let s := if counted then s.countReset else s
  s.closing r

/-- The first flit of a control message (R266). -/
def CtlMsg.flit0 (m : CtlMsg) : BitVec 64 :=
  BitVec.ofNat 64 (m.cls * 2 ^ 62 + m.dst * 2 ^ 56 + m.src * 2 ^ 50 + (m.words.length - 1) * 2 ^ 47 + m.words.headD 0)

/-- A control message is 1 to 8 flits, its fields within their widths, from and to nodes there are (R265, R266). -/
def CtlMsg.fits (m : CtlMsg) : Bool :=
  decide (m.cls < 4 ∧ (m.dst < 39 ∨ m.dst = 63) ∧ m.src < 39 ∧ 1 ≤ m.words.length ∧ m.words.length ≤ 8 ∧ m.words.headD 0 < 2 ^ 47) &&
    m.words.all (fun w => decide (w < 2 ^ 64))

/-- A reset request is sent to node 35 (R409): its sequence, and the state. -/
def State.requestReset (s : State) (level scope source : Nat) : Nat × State :=
  let n := s.rst.seqNo
  let s := { s with rst := { s.rst with seqNo := (n + 1) % 2 ^ 24 } }
  (n, s.send (.ctl { cls := 0, dst := 35, src := 0, words := [level * 2 ^ 44 + scope * 2 ^ 28 + source * 2 ^ 24 + n] }))

/-- RESET_REQUEST (R268, R409, R410, R413): node 35 serializes a request that arrives; in HALTED it is ignored.  A hang's request
merged into a polder reset not yet counted makes it a counted one (R419, log 178). -/
def execResetRequest (m : CtlMsg) (c : CtlWay) (s : State) : Res :=
  if m.cls ≠ 0 ∨ m.dst ≠ 35 ∨ m.fits = false then .next s
  else if c.bad.isSome then .next ((s.take (.ctl m)).ctlWay 0 c)
  else
    let s := (s.take (.ctl m)).ctlWay 0 c
    let w := m.words.headD 0
    let level := bitsOf w 46 44
    let scope := bitsOf w 43 28
    let source := bitsOf w 27 24
    let seq := bitsOf w 23 0
    if s.devState = stHalted ∨ level = 0 ∨ 4 < level then .next s
    else
      let sc := s.scopeOf level scope
      let r : Reset := { level := level, scope := scope, source := source, seq := seq, start := 0, timer := 0, counted := false
                         at_ := .closing, spins := sc.1, polders := sc.2 }
      match s.rst.resets.find? (fun x => r.within x) with
      | some x =>
        let now : Bool := level == 3 && source == 2 && x.level == 3 && !x.counted
        let s := (s.putReset { x with also := x.also ++ [seq], counted := x.counted || now }).wr Reg.RST_LAST
          (scope * 2 ^ 16 + source * 2 ^ 12 + 3 * 16 + level)
        .next (if now then s.countReset else s)
      | none => .next (s.beginReset level scope source seq (level == 3 && source == 2) [] s.wall)

/-- The controllers of a polder reset: their counters clear (R244 step 5). -/
def State.wipePolder (s : State) (p : Nat) : State :=
  (List.range 32).foldl (fun s c =>
    let ch := 32 * p + c
    let s := ((s.wr (Reg.MEM_CE_CNT ch) 0).wr (Reg.MEM_UE_CNT ch) 0).wr (Reg.MEM_POISON_RD ch) 0
    let s := (s.wr (Reg.MEM_LAST_ERR ch) 0).wr (Reg.MEM_LAST_SYN ch) 0
    (List.range 8).foldl (fun s g => s.wr (Reg.MEM_RG_CE ch g) 0) s) s

/-- The leases a chip-level reset ends, told first in the new log (R526; log 142). -/
def State.endLeases (s old : State) : State :=
  (List.range 4).foldl (fun t n => match tget none old.cq.leases n with
    | some l => t.event 0x0B02 devUnit 1 [(16, 1, n), (17, 1, 6), (18, 1, 255), (19, 1, l.key)]
    | none => t) s

/-- The reset in progress with a sequence; in HALTED none goes on (R38). -/
def State.resetAt (s : State) (seq : Nat) : Option Reset :=
  if s.devState = stHalted then none else s.rst.resets.find? (fun r => r.seq == seq)

/-- Chip-level reset clears DEGRADED and MARGINED: a flag that was set changes, told in the new log (R40). -/
def State.flagsGone (s old : State) : State :=
  if old.devFlags = 0 then s else s.stampDev s.devState 0x0702

/-- RESET_ASSERT (R410 step 5): the action of the level; a ply's domains go off for 10 µs. -/
def execResetAssert (seq : Nat) (s : State) : Res :=
  match s.resetAt seq with
  | none => .next s
  | some r =>
    if r.at_ ≠ .closing then .next s
    else
      let s := s.putReset { r with at_ := .asserted, assertAt := s.wall }
      if r.level = 4 then .next (((s.chipReset.wf Reg.CMD_DEV_STATE 2 0 (s.rf Reg.CMD_DEV_STATE 2 0)).endLeases s).flagsGone s)
      else
        let s := r.spins.foldl State.wipeSpindle s
        let s := r.polders.foldl State.wipePolder s
        .next (if 2 ≤ r.level then (r.spins.map domOfPs).dedup.foldl (fun s d => s.setDom d false) s else s)

/-- RESET_INIT (R242, R244 step 6, R407, R410 step 6): spindles leave reset, their domains off for 10 µs at levels 2 and 3, and
controllers resume; `slow` names channels
whose exit from self-refresh is not done yet. -/
def execResetInit (seq : Nat) (slow : List Nat) (s : State) : Res :=
  match s.resetAt seq with
  | none => .next s
  | some r =>
    if r.at_ ≠ .asserted ∨ (r.level = 4 ∧ s.rst.pinLow = true) ∨
        ((r.level = 2 ∨ r.level = 3) ∧ (s.wall - r.assertAt).toNat < 1000) then .next s
    else
      let s := s.putReset { r with at_ := .init }
      if r.level = 4 then .next s
      else
        let s := if 2 ≤ r.level then (r.spins.map domOfPs).dedup.foldl (fun s d => s.setDom d true) s else s
        let s := r.spins.foldl (fun s ps =>
          if r.fenced.contains ps then s.setSpnState ps 6
          else if s.rf (Reg.SPN_NUM_REV ps) 15 0 ≠ 0 then s.setSpnState ps 0 else s) s
        .next (r.polders.foldl (fun s p =>
          let s := (List.range 32).foldl (fun s c =>
            let ch := 32 * p + c
            if s.rf (Reg.MEM_CH_STAT ch) 2 0 ≠ 3 then s
            else if slow.contains ch then s.setChan ch { s.chan ch with srStart := some s.now }
            else s.wf (Reg.MEM_CH_STAT ch) 2 0 2) s
          s.event 0x0209 (unitId 2 p) 0 [(16, 1, 1), (17, 4, (s.wall - r.start).toNat)]) s)

/-- The conditions of step 7 of R410 hold; with a seam crossing lost no reset of east units completes (R264). -/
def State.resetDone (s : State) (r : Reset) : Bool :=
  r.at_ == .init &&
  (s.ring.lost.isEmpty || !(r.level == 4 || r.spins.any (fun ps => decide (9 ≤ ps)) || r.polders.any (fun p => decide (2 ≤ p)))) &&
  (r.level == 4 ||
    (r.spins.all (fun ps => s.spnState ps == 0 || s.spnState ps == 6) &&
     r.polders.all (fun p => (List.range 32).all (fun c =>
       s.rf (Reg.MEM_CH_STAT (32 * p + c)) 2 0 == 2 || s.rf (Reg.MEM_CH_STAT (32 * p + c)) 2 0 == 4))))

/-- The final reply of the command whose request had sequence `seq`: OK, or ESCALATED at a higher level (R520, R539). -/
def State.answerReset (s : State) (seq level : Nat) : State :=
  match s.cq.waits.findSome? (fun w => match w.what with
    | .reset n l => if n = seq then some l else none
    | _ => none) with
  | some l => s.finish (.reset seq l) (if l = level then stOK else stESCALATED) (if l = level then toLE 1 level else [])
  | none => s

/-- A spindle under a rolling or return test goes on with it after its reset (R396, R398). -/
def State.toTest (s : State) (ps : Nat) : State :=
  if s.underTest ps then
    let roll := s.rf Reg.TEST_ROLL_ST 2 0 == 3 && s.rf Reg.TEST_ROLL_ST 12 8 == ps
    let s := if roll then s.wf Reg.TEST_ROLL_ST 2 0 4 else s
    let restart (r : Returning) : Returning := if r.unit = unitId 0 ps then { r with start := s.now } else r
    ({ s with hlth := { s.hlth with rollAt := if roll then s.now else s.hlth.rollAt
                                    returning := s.hlth.returning.map restart } } : State).setSpnState ps 5
  else s

/-- RESET_COMPLETE (R38, R410 step 7): absorbing stops, the map is rebuilt, every requester is answered. -/
def execResetComplete (seq : Nat) (s : State) : Res :=
  match s.resetAt seq with
  | none => .next s
  | some r =>
    if s.resetDone r = false then .next s
    else
      let s := s.setResets (s.rst.resets.filter (fun x => decide (x.seq ≠ seq)))
      if r.level = 4 then .next (({ s with boot := { began := s.wall, at_ := s.wall } } : State).setDev stBringup 0x0702)
      else
        let s := (r.spins.foldl State.toTest s)
        let s := (r.spins.foldl State.syncStop s).syncUnits (r.polders.map crossbarStop)
        let s := (s.rebuild.event 0x0703 r.scope 0 [(16, 1, r.level), (17, 4, (s.wall - r.start).toNat)]).wf Reg.RST_LAST 5 4 1
        .next ((r.seq :: r.also).foldl (fun s n => s.answerReset n r.level) s)

def RstStep.code : RstStep → Nat
  | .closing => 1 | .asserted => 2 | .init => 3

/-- RESET_TIMEOUT (R412): the timer of the level expires before completion; SYS_RESET_N held low stops the
timer (R414).  After a missed chip reset the command processor answers what HALTED lets it (R35; log 146). -/
def execResetTimeout (seq : Nat) (s : State) : Res :=
  match s.resetAt seq with
  | none => .next s
  | some r =>
    let tmo := s.rd (if r.level = 1 then Reg.RST_TMO1 else if r.level = 2 then Reg.RST_TMO2 else if r.level = 3 then Reg.RST_TMO3 else Reg.RST_TMO4)
    if (s.wall - r.timer).toNat < tmo ∨ s.resetDone r = true ∨ (r.level = 4 ∧ s.rst.pinLow = true) then .next s
    else
      let s := s.setResets (s.rst.resets.filter (fun x => decide (x.seq ≠ seq)))
      if r.level = 4 then .next (({ s with rst := { s.rst with chipHeld := false } } : State).halt 0x0704)
      else
        let s := s.event 0x0704 r.scope 2 [(16, 1, r.level), (17, 1, r.at_.code)]
        let s := (s.sat Reg.RST_ESC_CNT 1).wf Reg.RST_LAST 5 4 2
        .next ((s.escalated r).zipIdx.foldl (fun s x =>
          let q := if x.2 = 0 then r.seq else s.rst.seqNo
          let s := if x.2 = 0 then s else { s with rst := { s.rst with seqNo := (s.rst.seqNo + 1) % 2 ^ 24 } }
          s.beginReset x.1.1 x.1.2 3 q (x.1.1 == 3) (if x.2 = 0 then r.also else []) r.start) s)

/-- SYS_RESET_N_ASSERT (R414): the pin has been low for 100 ticks; ignored in HALTED and while off. -/
def execSysResetNAssert (s : State) : Res :=
  if s.off = true ∨ s.devState = stHalted ∨ s.rst.pinLow = true then .next s
  else .next (({ s with rst := { s.rst with pinLow := true } } : State).requestReset 4 devUnit 5).2

/-- SYS_RESET_N_RELEASE (R414): the pin rises after `width` ticks low; a pulse shorter than 100 is rejected, and
after a longer one the timer of the reset starts. -/
def execSysResetNRelease (width : Nat) (s : State) : Res :=
  if s.rst.pinLow then
    .next { s with rst := { s.rst with pinLow := false,
                                       resets := s.rst.resets.map (fun r => if r.level = 4 then { r with timer := s.wall } else r) } }
  else if s.off = true ∨ s.devState = stHalted ∨ 100 ≤ width then .next s
  else .next (s.event 0x070C devUnit 1 [(16, 2, width)])

/-! ### Hangs (R415 to R422). -/

/-- A context becomes a suspect of the polders of `mask` (R422); the hang step of one no longer resident is its step in the list
(log 178). -/
def State.suspect (s : State) (e : RanEnt) (mask : Nat) : State :=
  let hang := match s.slotOf (e.ctx % 16) with
    | some j => if j.ctx.toNat = e.ctx then j.step.toNat else e.replay
    | none => e.replay
  let put (s : State) (i : Nat) (fresh : Bool) : State :=
    let s := s.wf (Reg.RST_SUSP0 i) 19 16 (s.rf (Reg.RST_SUSP0 i) 19 16 ||| mask)
    let s := s.wr64 (Reg.RST_SUSP4 i) hang
    if fresh then
      let s := (s.wf (Reg.RST_SUSP0 i) 15 0 e.ctx).wr64 (Reg.RST_SUSP2 i) e.replay
      { s with rst := { s.rst with susp := tset {} s.rst.susp i { digest := e.digest, seed := e.seed } } }
    else s
  let note (s : State) (i : Nat) : State := s.event 0x0708 devUnit 1 [(16, 2, e.ctx), (18, 1, i), (19, 1, mask)]
  match (List.range 16).find? (fun i => s.rf (Reg.RST_SUSP0 i) 15 0 == e.ctx) with
  | some i => note (put s i false) i
  | none =>
    match (List.range 16).find? (fun i => s.rf (Reg.RST_SUSP0 i) 15 0 == 0) with
    | some i => note (put s i true) i
    | none => note s 0xFF

/-- A hang indication for a polder (R418): event, fault, suspects, level-3 reset. -/
def State.hang (s : State) (ps src polder cnt : Nat) : State :=
  let s := s.event 0x0701 (unitId 0 ps) 2 [(16, 1, src), (17, 1, 2 ^ polder), (18, 1, s.logicalN ps), (19, 4, cnt)]
  let s := s.sat Reg.RST_HANG_CNT 1
  let replay := s.quarActive && s.quarCtx == s.runCtx
  let s := if replay then s.quarEnd 2 0 else s
  let s := s.faultRunning 0x0701
  let s := (tget [] s.rst.ran polder).foldl (fun s e => s.suspect e (2 ^ polder)) s
  (s.requestReset 3 (unitId 2 polder) (if replay then 6 else 2)).2

/-- The polder of the position a spindle occupies. -/
def State.polderOf (s : State) (ps : Nat) : Nat := s.posOf (s.logicalN ps) / 4

/-- The spindle is watched (R415). -/
def State.watched (s : State) (ps : Nat) : Bool :=
  decide (1 ≤ s.spnState ps) && decide (s.spnState ps ≤ 4) && (s.logicalOf ps).isSome &&
  (match s.runningSlot with
   | some j => decide (j.st ≠ .faulted)
   | none => false)

/-- A-ticks held for a cause other than SLACK, as the counters of R113 give them. -/
def State.otherHolds (s : State) (ps : Nat) : Nat :=
  ((List.range 8).map (fun k => if k = 5 then 0 else s.rd (Reg.SPN_HOLD_CAUSE_CNT ps k))).sum

/-- The spindle has held for a cause other than SLACK since its watchdog last looked: the counters rose, or, where they stand at
their limit, SPN_STATE shows the hold (R415). -/
def State.heldOther (s : State) (ps : Nat) (w : Watchdog) : Bool :=
  w.other || decide (w.held < s.otherHolds ps) || (List.range 8).any (fun k => k != 5 && (s.rf (Reg.SPN_STATE ps) 15 8).testBit k)

/-- The watchdogs look at their spindles at a reference tick (R415). -/
def State.dogTick (s : State) : State :=
  let look (d : List (Nat × Watchdog)) (ps : Nat) : List (Nat × Watchdog) :=
    let w := tget {} d ps
    let k := s.rd64 (Reg.SPN_SKC_LO ps)
    let st := s.spnState ps
    if s.watched ps && w.skc == k && w.st == st then tset {} d ps { w with held := s.otherHolds ps, other := s.heldOther ps w }
    else if s.watched ps then tset {} d ps { skc := k, st := st, since := s.now, held := s.otherHolds ps }
    else tset {} d ps {}
  { s with rst := { s.rst with dogs := (List.range 18).foldl look s.rst.dogs } }

/-- PROGRESS_WATCHDOG_EXPIRY (R415, R418). -/
def execProgressWatchdogExpiry (ps : Fin 18) (s : State) : Res :=
  let w := tget {} s.rst.dogs ps
  if s.rbit Reg.RST_CTL 0 = true ∧ s.watched ps = true ∧ w.skc = s.rd64 (Reg.SPN_SKC_LO ps) ∧ w.st = s.spnState ps ∧
      s.heldOther ps w = true ∧ s.rd Reg.RST_WDOG ≤ (s.now - w.since).toNat then
    .next (s.hang ps 1 (s.polderOf ps) 0)
  else .next s

/-- STALL_HANG_THRESHOLD (R416): a channel's stall timer reaches RST_STALL_HANG. -/
def execStallHangThreshold (ps : Fin 18) (s : State) : Res :=
  let thr := s.rd Reg.RST_STALL_HANG
  let x := s.spn ps
  if s.rbit Reg.RST_CTL 1 = false ∨ s.watched ps = false then .next s
  else
    match x.outq.find? (fun c => decide (thr ≤ c.2.stall) && !c.2.hung) with
    | some c =>
      .next ((s.setSpn ps { x with outq := tset {} x.outq c.1 { c.2 with hung := true } }).hang ps 2 (s.polderOf ps) c.1)
    | none =>
      match x.inq.find? (fun c => decide (thr ≤ c.2.stall) && !c.2.hung) with
      | some c =>
        .next ((s.setSpn ps { x with inq := tset {} x.inq c.1 { c.2 with hung := true } }).hang ps 2 (s.polderOf ps) c.1)
      | none => .next s

/-- A fabric timeout counts for its polder (R417): at RST_FTMO_CNT within the window it is a hang. -/
def State.countFtmo (s : State) (ps dcoord : Nat) : State :=
  let live := match s.runningSlot with
    | some j => decide (j.st ≠ .faulted)
    | none => false
  if s.rbit Reg.RST_CTL 2 = false ∨ s.peerBreached dcoord = true ∨ live = false then s
  else
    let p := s.polderOf ps
    let w := match tget none s.clk.ftmo p with
      | some (t, n) => if (s.now - t).toNat < s.rd Reg.RST_FTMO_WIN then (t, n + 1) else (s.now, 1)
      | none => (s.now, 1)
    let hit := decide (s.rf Reg.RST_FTMO_CNT 15 0 ≤ w.2)
    let s := { s with clk := { s.clk with ftmo := tset none s.clk.ftmo p (if hit then none else some w) } }
    if hit then s.hang ps 3 p w.2 else s

/-! ### Issuer timeouts (R320). -/

/-- A restore fails (R447): event 0x0725, and the context cannot start. -/
def State.restoreFail (s : State) (cause : Nat) : State :=
  match s.reel.restore with
  | none => s
  | some r =>
    let left (o : FabOp) : FabOp := if o.who = .restore then { o with who := .stray } else o
    let s := { s with reel := { s.reel with restore := none }, fab := { s.fab with ops := s.fab.ops.map left } }
    let s := ((s.wf Reg.REEL_ST 7 6 0).sat Reg.REEL_RST_FAIL 1).event 0x0725 0x201C 2 [(16, 1, cause), (17, 2, r.ctx)]
    s.finish .restore (if cause = 1 then stOUT_OF_RANGE else stHW_FAULT) []

/-- An answer to the operation waits in the same tick: it is taken first (R320, R325). -/
def State.answerWaits (s : State) (o : FabOp) : Bool :=
  (s.pending.filterMap pktOfCmd).any (fun p => (p.type == 2 || (p.type == 6 && p.sub == 1)) && p.dep == o.sep && p.op == o.op) ||
  s.pending.any (fun c => match c, o.who with
    | .channelAccept p, .send _ n => p.src.remote && opIdOf p.op == opIdOf n
    | .channelClosed p, .send _ n => p.src.remote && opIdOf p.op == opIdOf n
    | _, _ => false)

/-- FAB_OP_TIMEOUT (R320, R417): the operation `op` of endpoint `sep` is older than FAB_OP_TMO. -/
def execFabOpTimeout (sep op : Nat) (s : State) : Res :=
  match s.fab.ops.find? (fun o => o.sep == sep && o.op == op) with
  | none => .next s
  | some o =>
    if (s.now - o.first).toNat < s.rd Reg.FAB_OP_TMO ∨ s.answerWaits o = true then .next s
    else
      let s := (s.dropOp o).event 0x0520 devUnit 2 [(16, 1, o.type), (17, 2, o.dcoord), (19, 1, o.dep), (20, 3, o.op)]
      match o.who with
      | .dispatch ps n => .next ((s.modSpn ps (fun x => x.opAnswered n)).countFtmo ps o.dcoord)
      | .send ps n =>
        let x := s.spn ps
        match x.ops.find? (fun y => y.id == n) with
        | some y =>
          let s := s.setSpn ps { x with ops := x.ops.filter (fun z => decide (z.id ≠ n)) }
          .next ((s.closeOut ps s.runCtx y.cnt).countFtmo ps o.dcoord)
        | none => .next (s.countFtmo ps o.dcoord)
      | .ckpt => .next (s.ckptFail 2 o.dcoord).payRunning
      | .restore => .next (s.restoreFail 3)
      | _ => .next s

end Sys2Proof.Machine
end

