-- ==== Sys2Proof/Machine/SlotCheck.lean ====
section
/-! DEFINITION. Which slot words a skein may hold (spec/04_skein.md R138 to R146, R588, R590;
spec/02_numerics.md R44, R65; spec/05_sparsity_conditional.md R159, R160, R166, R169, R170, R176;
spec/06_long_sequences.md R196, R197). -/

namespace Sys2Proof.Machine

/-- The slot word `w` is operation `op` of a unit of kind `k`. -/
def slotIs (k : UnitKind) (op u : Nat) (w : DWord) : Bool := unitKind u == some k && slotOp u w == op

/-- A COMP slot word of sub-operation `sub` (R169). -/
def compIs (sub u : Nat) (w : DWord) : Bool := slotIs .vec 10 u w && slotSub w == sub

/-- Flits of the stationary operand a LOADW addresses (R590). -/
def loadwRows (fmt spm : Nat) : Nat :=
  if spm = 1 ∨ spm = 2 then 80
  else if spm = 3 then 96
  else if spm = 4 then 16 * (if fmt = 4 ∨ fmt = 5 then 5 else 4) + 1
  else if fmt = 1 then 128
  else if isMX fmt then Config.mxDenseFlits fmt
  else 64

/-- A matrix tile slot word (R139, R160, R590). -/
def tileOk (w : DWord) : Bool :=
  let op := slot w 63 60
  let fmt := tileFmt w
  let spm := tileSpm w
  let row := tileRow w
  let fam := decide (fmt = 2 ∨ fmt = 3 ∨ fmt = 9) || (spm == 4 && decide (4 ≤ fmt ∧ fmt ≤ 7))
  decide (1 ≤ op ∧ op ≤ 7) && slot w 11 0 == 0 && decide (spm ≤ 4) && (op == 3 || slot w 31 23 == 0) &&
    (if op = 1 ∨ op = 2 then decide (1 ≤ fmt ∧ fmt ≤ 9) && (spm == 0 || fam)
     else if op = 4 then decide (fmt ≤ 3) && (spm == 0 || fam) else fmt == 0) &&
    (if op = 2 then decide (row < loadwRows fmt spm) else if op = 1 ∨ op = 3 ∨ op = 4 then row == 0 else true) &&
    !(spm == 1 && tileH w == 1)

/-- A format pair the conversion table has (R65). -/
def cvtPair (s d : Nat) : Bool :=
  if d = 0 then decide (1 ≤ s ∧ s ≤ 9)
  else s == 0 && (decide (1 ≤ d ∧ d ≤ 9) || d == 11)

/-- A vector unit slot word (R141, R169, R170, R588). -/
def vecOk (w : DWord) : Bool :=
  let op := slot w 63 58
  let s := vSfmt w
  let d := vDfmt w
  let sub := slotSub w
  slot w 7 0 == 0 && decide (1 ≤ op ∧ op ≤ 12) && decide (s < 12) && decide (d < 12) &&
    (if op ≤ 6 then decide (s ≤ 1 ∧ d ≤ 1) && !(op == 4 && vPred w)
     else if op = 7 then decide (s ≤ 1 ∧ d ≤ 1) && decide (sub ≤ 5)
     else if op = 8 then cvtPair s d
     else if op = 9 then decide (s ≤ 1 ∧ d ≤ 1) && decide (sub ≤ 2)
     else if op = 10 then
       decide (sub ≤ 5) &&
         (if sub = 0 then decide (s ≤ 1)
          else if sub = 1 then decide (s ≤ 1) && decide (1 ≤ d ∧ d ≤ 3)
          else if sub = 3 ∨ sub = 4 then decide (1 ≤ d ∧ d ≤ 3)
          else if sub = 5 then vPred w else true)
     else if op = 11 then d == s
     else s == 11 && decide (d = 0 ∨ d = 11))

/-- A special-function unit slot word (R142). -/
def sfuOk (w : DWord) : Bool :=
  decide (slot w 63 60 ≤ 5) && decide (slot w 59 56 ≤ 1) && decide (slot w 55 52 ≤ 1) && slot w 33 0 == 0

/-- A steering unit slot word (R143). -/
def steerOk (w : DWord) : Bool := decide (slot w 63 61 ≤ 4) && slot w 23 0 == 0

/-- A sequence or dispatch unit slot word (R144, R196, R184). -/
def seqOk (dsp : Bool) (w : DWord) : Bool :=
  let op := slot w 63 58
  decide (1 ≤ op ∧ op ≤ 6) && slot w 7 0 == 0 && (!dsp || slot w 30 22 == 0)

/-- A memory unit slot word (R145, R166).  It names no format, so no length of it can break the rule of R47 on MX operands
(log 151). -/
def memOk (w : DWord) : Bool :=
  let op := slot w 63 60
  let len := slot w 28 17
  decide (1 ≤ op ∧ op ≤ 8) && slot w 4 0 == 0 &&
    (if op = 1 then decide (slot w 7 5 ≤ 2) else if op = 5 then decide (slot w 7 5 ≤ 3) else slot w 7 5 == 0) &&
    (if op = 5 then len == (if slot w 7 5 = 2 then 15 else 7) else true) &&
    (if op = 7 then decide (len = 3 ∨ len = 7 ∨ len = 11 ∨ len = 15) else true) &&
    (if op = 6 ∨ op = 7 then decide (slot w 16 9 < 64) else true)

/-- A sluice slot word (R146). -/
def sluiceOk (w : DWord) : Bool := decide (slot w 63 63 + slot w 53 53 ≠ 0) && slot w 43 0 == 0

/-- A slot word a skein may hold for unit `u`, its parameter sets aside (R138). -/
def slotOk (u : Nat) (w : DWord) : Bool :=
  match unitKind u with
  | some .tile => tileOk w
  | some .vec => vecOk w
  | some .sfu => sfuOk w
  | some .steer => steerOk w
  | some .seq => seqOk false w
  | some .dsp => seqOk true w
  | some .mem => memOk w
  | some .sluice => sluiceOk w
  | none => false

/-- The reserved bits of an attention or rotary parameter set are clear (R197). -/
def attnResOk (p : Nat) : Bool :=
  bitsOf p 7 2 == 0 &&
    (if p.testBit 1 then bitsOf p 15 14 == 0 && bitsOf p 127 56 == 0
     else bitsOf p 15 15 == 0 && bitsOf p 23 21 == 0 && bitsOf p 31 28 == 0 && bitsOf p 127 112 == 0)

/-- An attention or rotary parameter set within its ranges (R197). -/
def attnSetOk (p : Nat) : Bool :=
  attnResOk p &&
    (if p.testBit 1 then bitsOf p 18 16 == 0
     else decide (bitsOf p 17 16 ≤ 1) && decide (1 ≤ bitsOf p 27 24 ∧ bitsOf p 27 24 ≤ 14) &&
       (!p.testBit 20 || decide (1 ≤ bitsOf p 87 64)))

/-- The reserved bits of a dispatch parameter set are clear (R176). -/
def dspResOk (p : Nat) : Bool :=
  !p.testBit 47 && bitsOf p 63 60 == 0 && bitsOf p 103 97 == 0 && bitsOf p 127 121 == 0

/-- A dispatch parameter set within its ranges (R176). -/
def dspSetOk (p : Nat) : Bool :=
  let q := dspSet p
  dspResOk p && decide (bitsOf p 45 44 ≤ 2) && decide (1 ≤ q.cap) && decide (q.k ≤ q.e) && decide (q.srcRank < q.nsrc)

/-- The parameter set a sequence or dispatch slot names is in use, of its kind, and within its ranges
(R176, R197). -/
def slotSetOk (settings : List (List Byte)) (u : Nat) (w : DWord) : Bool :=
  let p := rdLE ((settings[u]?).getD []) (16 * seqPset w) 16
  match unitKind u with
  | some .seq =>
    let op := slot w 63 58
    p.testBit 0 && (p.testBit 1 == decide (op ≤ 2)) && attnSetOk p
  | some .dsp => p.testBit 40 && dspSetOk p
  | _ => true

/-- Skein cycles a slot occupies its unit for (R138, R139, R196, R591). -/
def slotCycles (settings : List (List Byte)) (u : Nat) (w : DWord) : Nat :=
  let p := rdLE ((settings[u]?).getD []) (16 * seqPset w) 16
  match unitKind u with
  | some .tile =>
    if slotOp u w = 1 ∧ tileFmt w = 1 then 4
    else if slotOp u w = 4 ∧ tileFmt w = 0 then 2 else 1
  | some .seq =>
    let a := attnSet p
    if 64 < a.d ∧ ((slotOp u w = 5 ∧ a.bf16o = false) ∨ slotOp u w = 6) then 2 else 1
  | _ => 1

end Sys2Proof.Machine
end

