-- ==== Sys2Proof/Machine/Ckpt.lean ====
section
/-! DEFINITION. The reel engine: checkpoints and restores (spec/14_checkpoint.md R436 to R450). -/

namespace Sys2Proof.Machine

/-! ### The interval (R446). -/

/-- A rational rounded to 53 significant bits, nearest even (FP64 without its range). -/
def rnd53 (n d : Nat) : Nat × Nat :=
  if n = 0 then (0, 1)
  else
    let a := 56 + d.log2
    let q := n * 2 ^ a / d
    let sticky := n * 2 ^ a % d != 0
    let drop := q.log2 - 52
    let m := q >>> drop
    let rem := q % 2 ^ drop
    let half := 2 ^ (drop - 1)
    let up := decide (half < rem) || (rem == half && (sticky || m % 2 == 1))
    ((if up then m + 1 else m) * 2 ^ drop, 2 ^ a)

/-- The integer square root of a number below 2^512, bit by bit. -/
def isqrt (n : Nat) : Nat :=
  (List.range 256).foldl (fun r i =>
    let b := r + 2 ^ (255 - i)
    if b * b ≤ n then b else r) 0

/-- T = √(2 · C · MTBF) in FP64, truncated to seconds. -/
def intervalOf (cost mtbf : Nat) : Nat :=
  let c := rnd53 cost 100000000
  let x := rnd53 (2 * c.1 * mtbf) c.2
  let p := x.1 * 2 ^ 256
  let r := isqrt (p / x.2)
  let odd := if r * r * x.2 = p then 0 else 1
  let y := rnd53 (2 * r + odd) (2 ^ 129)
  y.1 / y.2

/-- REEL_IVL is computed again. -/
def State.newInterval (s : State) : State :=
  let t := intervalOf (s.rd64 Reg.REEL_COST_LO) (s.rd Reg.REEL_MTBF)
  s.wr Reg.REEL_IVL (min (max t (s.rd Reg.REEL_IVL_MIN)) (s.rd Reg.REEL_IVL_MAX))

/-! ### Images (R439 to R442). -/

def reelUnit : Nat := 0x201C

def imageLen (l : List CkRegion) : Nat := 4096 + (l.map (·.len)).sum
def slotSize (l : List CkRegion) : Nat := (imageLen l + 65535) / 65536 * 65536

/-- An image header. -/
def State.imageHeader (s : State) (k : Ckpt) (valid : Bool) : List Byte :=
  let lens := (k.regions.map (·.len)).flatMap (toLE 8)
  let b := toLE 4 0x4C525A4B ++ toLE 2 1 ++ toLE 2 ((if valid then 1 else 0) + (if valid && k.poison then 2 else 0)) ++
    toLE 4 k.seq ++ toLE 1 k.regions.length ++ toLE 3 0 ++ toLE 8 k.step ++ toLE 8 k.seed.toNat ++ sliceB k.skein 0 48 ++
    s.devId ++ toLE 4 (k.vloss.getD 0) ++ toLE 4 k.loss ++ toLE 8 (imageLen k.regions) ++ sliceB k.digest 0 48 ++ lens
  sliceB b 0 4096

/-- A write of the reel engine to a destination (R441): one operation, in packets that carry poison in every word
or in none. -/
def State.reelWrite (s : State) (k : Ckpt) (d : CkDest) (off : Nat) (data : List Byte) (poison : Nat) : State :=
  let o := s.nextFab 19
  let op : FabOp := { sep := 19, op := o.1, type := 0, dcoord := d.coord, dep := d.ep, first := s.now, who := .ckpt }
  let s := { o.2 with fab := { o.2.fab with ops := o.2.fab.ops ++ [op] } }
  let p : Pkt := { type := 0, cls := 2, dcoord := d.coord, dep := d.ep, sep := 19, tag := s.tagOfCtx k.ctx
                   addr := d.base + k.slot * slotSize k.regions + off, op := o.1, cid := 0xFFFF, step := s.rd Reg.DET_STEP_LO }
  let s := (opPackets p data poison).foldl State.inject s
  s.add64 Reg.REEL_BYTES_LO data.length

/-- The header of the slot written to every destination. -/
def State.writeHeaders (s : State) (k : Ckpt) (valid : Bool) : State :=
  k.dests.foldl (fun s d => s.reelWrite k d 0 (s.imageHeader k valid) 0) s

/-- No write of the active checkpoint waits for its ACK. -/
def State.reelQuiet (s : State) : Bool := s.fab.ops.all (fun o => decide (o.who ≠ .ckpt))
def State.restoreQuiet (s : State) : Bool := s.fab.ops.all (fun o => decide (o.who ≠ .restore))

def State.setCkpt (s : State) (k : Ckpt) : State := { s with reel := { s.reel with ckpt := some k } }

/-! ### Taking a checkpoint (R443 to R445). -/

/-- The state of a drain: bytes read so far in order, and whether one was poisoned. -/
structure Drained where
  s : State
  data : List Byte := []
  off : Nat := 4096
  poison : Bool := false

/-- One piece of a region is read and written to every destination (R444 step 3). -/
def drainPiece (k : Ckpt) (f : Flips) (a : Drained) (addr n : Nat) : Drained :=
  let r := a.s.devRead .reel addr n f
  let s := k.dests.foldl (fun s d => s.reelWrite k d a.off r.1 r.2.1) r.2.2.2
  { s := s, data := a.data ++ r.1, off := a.off + n, poison := a.poison || r.2.1 != 0 }

/-- The address of a region in the buffer of step `v`. -/
def CkRegion.buf (r : CkRegion) (v : Nat) : Nat := if v % 2 = 0 then r.b0 else r.b1

/-- CKPT_HEADER_ACKED (R444 steps 2 and 3). -/
def execCkptHeaderAcked (f : Flips) (s : State) : Res :=
  match s.reel.ckpt with
  | none => .next s
  | some k =>
    if k.phase ≠ 1 ∨ s.reelQuiet = false then .next s
    else
      let a := k.regions.foldl (fun a r =>
        (List.range (r.len / 4096)).foldl (fun a i => drainPiece k f a (r.buf k.step + 4096 * i) 4096) a) ({ s := s } : Drained)
      .next (a.s.setCkpt { k with phase := 2, digest := sha384 a.data, poison := a.poison })

/-- The valid headers go out once the drain is complete and VLOSS latched (R444 step 6). -/
def State.ckptValid (s : State) : State :=
  match s.reel.ckpt with
  | some k => if k.phase = 3 ∧ k.vloss.isSome then (s.setCkpt { k with phase := 4 }).writeHeaders { k with phase := 4 } true else s
  | none => s

/-- One release more is owed to a context (R437). -/
def State.oweRelease (s : State) (ctx : Nat) : State :=
  match s.slotOf (ctx % 16) with
  | some j => if j.ctx.toNat = ctx ∧ j.ck.isSome then s.setSlot (ctx % 16) (some { j with owed := j.owed + 1 }) else s
  | none => s

/-- CKPT_DRAIN_COMPLETE (R437, R438, R444 step 4): protection ends and the release is issued. -/
def execCkptDrainComplete (s : State) : Res :=
  match s.reel.ckpt with
  | none => .next s
  | some k =>
    if k.phase ≠ 2 ∨ s.reelQuiet = false then .next s
    else
      let s := s.setCkpt { k with phase := 3, released := true, cost := (s.now - k.start).toNat }
      let s := { s with prot := s.prot.filter (fun p => decide (p.kind ≠ ProtKind.ckpt)) }
      let s := (s.wf Reg.REEL_ST 1 0 2).oweRelease k.ctx
      .next s.payRunning.ckptValid

/-- CKPT_COMMITTED (R444 step 6, R446). -/
def execCkptCommitted (s : State) : Res :=
  match s.reel.ckpt with
  | none => .next s
  | some k =>
    if k.phase ≠ 4 ∨ s.reelQuiet = false then .next s
    else
      let s := { s with reel := { s.reel with ckpt := none } }
      let s := ((s.wr Reg.REEL_SEQ k.seq).wr64 Reg.REEL_STEP_LO k.step).wr64 Reg.REEL_COST_LO k.cost
      let s := (s.wf Reg.REEL_ST 31 16 0).wf Reg.REEL_ST 1 0 0
      .next ((s.sat Reg.REEL_DONE 1).newInterval.event 0x0721 reelUnit 1
        [(16, 2, k.ctx), (18, 4, k.seq), (22, 1, if k.poison then 1 else 0)])

/-- CKPT_DRAIN_TIMEOUT (R445 cause 3). -/
def execCkptDrainTimeout (s : State) : Res :=
  match s.reel.ckpt with
  | none => .next s
  | some k =>
    if k.phase ≤ 2 ∧ s.rd Reg.REEL_DRAIN_TMO * 100000000 ≤ (s.now - k.start).toNat then
      .next (s.ckptFail 3 (match k.dests with
        | d :: _ => d.coord
        | [] => 0)).payRunning
    else .next s

/-- A checkpoint starts at the advance into step `v` (R444 steps 1 and 2); its number follows the last committed
one, so that slot n mod 2 is never that image's. -/
def State.ckptStart (s : State) (j : Slot) (d : CkDesc) (v loss : Nat) : State :=
  let ctx := j.ctx.toNat
  let n := (s.rd Reg.REEL_SEQ + 1) % 2 ^ 32
  let k : Ckpt := { ctx := ctx, slot := n % 2, seq := n, step := v, phase := 1, start := s.now, loss := loss
                    dests := d.dests, regions := d.regions, seed := j.job.seed, skein := j.digest }
  let rgn (r : CkRegion) : ProtRgn := { kind := .ckpt, lo := r.buf v, hi := r.buf v + r.len, ctx := ctx, id := 0 }
  let s := ({ s with prot := s.prot ++ d.regions.map rgn } : State).setCkpt k
  let s := s.setSlot (ctx % 16) (some { j with due := false, ckStart := s.now })
  let s := ((s.wf Reg.REEL_ST 31 16 ctx).wf Reg.REEL_ST 2 2 k.slot).wf Reg.REEL_ST 1 0 1
  (s.event 0x0720 reelUnit 0 [(16, 2, ctx), (18, 4, n)]).writeHeaders k false

/-- At a device step advance of the running context: the interval of R446 may make a checkpoint due, a due one
starts where R443 lets it, and the release of the advance is issued or held. -/
def State.ckptAdvance (s : State) (v loss : Nat) : State :=
  let s := match s.reel.ckpt with
    | some k => if k.ctx = s.runCtx ∧ k.vloss.isNone then (s.setCkpt { k with vloss := some loss }).ckptValid else s
    | none => s
  match s.runningSlot with
  | none => s
  | some j =>
    match j.ck with
    | none => s
    | some d =>
      let late := d.auto && s.rd Reg.REEL_MTBF != 0 && decide (s.rd Reg.REEL_IVL * 100000000 ≤ (s.now - j.ckStart).toNat)
      if (j.due || late) && s.reel.ckpt.isNone then s.ckptStart j d v loss
      else
        ((s.setSlot s.runSlot (some { j with due := j.due || late })).oweRelease j.ctx.toNat).payRunning

/-! ### Restoring (R447). -/

/-- A read request of the restore: bytes of the image from `off`. -/
def State.restoreRead (s : State) (r : Restore) (off n : Nat) : State :=
  let o := s.nextFab 19
  let op : FabOp := { sep := 19, op := o.1, type := 1, dcoord := r.coord, dep := r.ep, first := s.now, who := .restore }
  let s := { o.2 with fab := { o.2.fab with ops := o.2.fab.ops ++ [op] } }
  s.inject { type := 1, cls := 2, last := true, w7 := 1, dcoord := r.coord, dep := r.ep, sep := 19, tag := s.tagOfCtx r.ctx
             addr := r.addr + off, op := o.1, cid := 0xFFFF, step := s.rd Reg.DET_STEP_LO, len := 4, payload := toLE 4 n }

/-- A restore begins: the header is asked for, and the context cannot start. -/
def State.restoreStart (s : State) (ctx coord ep addr : Nat) : State :=
  let r : Restore := { ctx := ctx, coord := coord, ep := ep, addr := addr, phase := 1, hdr := List.replicate 4096 0 }
  let s := ({ s with reel := { s.reel with restore := some r } } : State).wf Reg.REEL_ST 7 6 1
  (s.modSlot (ctx % 16) (fun j => { j with st := .restorePending })).restoreRead r 0 4096

/-- The header check of R447 step 1. -/
def headerFits (h : List Byte) (j : Slot) (d : CkDesc) : Bool :=
  let lens := (d.regions.map (·.len)).flatMap (toLE 8)
  rdLE h 0 4 == 0x4C525A4B && rdLE h 4 2 == 1 && rdLE h 6 2 == 1 && rdLE h 0xC 1 == d.regions.length && rdLE h 0xD 3 == 0 &&
    rdLE h 0x10 8 == j.job.startStep.toNat && rdLE h 0x18 8 == j.job.seed.toNat && sliceB h 0x20 48 == j.digest &&
    sliceB h 0xC0 128 == sliceB lens 0 128 && rdLE h 0x140 3776 == 0

/-- The job and descriptor of the context being restored. -/
def State.restoreJob (s : State) (r : Restore) : Option (Slot × CkDesc) :=
  match s.slotOf (r.ctx % 16) with
  | some j => if j.ctx.toNat = r.ctx then j.ck.map (fun d => (j, d)) else none
  | none => none

/-- RESTORE_HEADER_READ (R447 steps 1 and 2). -/
def execRestoreHeaderRead (s : State) : Res :=
  match s.reel.restore with
  | none => .next s
  | some r =>
    if r.phase ≠ 1 ∨ s.restoreQuiet = false then .next s
    else if r.bad then .next (s.restoreFail 3)
    else
      match s.restoreJob r with
      | none => .next (s.restoreFail 1)
      | some (j, d) =>
        if headerFits r.hdr j d then
          let n := imageLen d.regions - 4096
          let s := { s with reel := { s.reel with restore := some { r with phase := 2, data := List.replicate n 0 } } }
          .next ((List.range ((n + 0xFFFFFF) / 0x1000000)).foldl (fun s i =>
            s.restoreRead r (4096 + i * 0x1000000) (min 0x1000000 (n - i * 0x1000000))) s)
        else .next (s.restoreFail 1)

/-- The data go into the buffer of the image's step, region by region, words that came poisoned as poison (R427). -/
def State.putRegions (s : State) (v : Nat) (f : Flips) : List CkRegion → List Byte → Nat → State
  | [], _, _ => s
  | r :: rest, data, pm =>
    State.putRegions (s.devWrite .reel (r.buf v) (data.take r.len) (pm % 2 ^ (r.len / 8)) f).2.2 v f rest (data.drop r.len) (pm / 2 ^ (r.len / 8))

/-- RESTORE_DATA_DONE (R447 steps 2 and 3). -/
def execRestoreDataDone (f : Flips) (s : State) : Res :=
  match s.reel.restore with
  | none => .next s
  | some r =>
    if r.phase ≠ 2 ∨ s.restoreQuiet = false then .next s
    else
      match s.restoreJob r with
      | none => .next (s.restoreFail 1)
      | some (j, d) =>
        let s := s.putRegions j.job.startStep.toNat f d.regions r.data r.pois
        if r.bad then .next (s.restoreFail 3)
        else if sha384 r.data ≠ sliceB r.hdr 0x90 48 then .next (s.restoreFail 2)
        else
          let s := { s with reel := { s.reel with restore := none } }
          let s := s.modSlot (r.ctx % 16) (fun j => { j with st := .ready, vloss := some (BitVec.ofNat 32 (rdLE r.hdr 0x80 4)) })
          let s := (s.wf Reg.REEL_ST 7 6 2).event 0x0723 reelUnit 1 [(16, 2, r.ctx), (18, 4, rdLE r.hdr 8 4)]
          .next (s.finish .restore stOK (toLE 4 (rdLE r.hdr 8 4)))

/-- At the first device step advance of a restored context its loss is compared with VLOSS (R447 step 4). -/
def State.restoreVerify (s : State) (loss : Nat) : State :=
  match s.runningSlot with
  | none => s
  | some j =>
    match j.vloss with
    | none => s
    | some v =>
      let s := (s.setSlot s.runSlot (some { j with vloss := none })).wf Reg.REEL_ST 7 6 0
      if v.toNat = loss then (s.sat Reg.REEL_RST_OK 1).event 0x0724 reelUnit 1 [(16, 2, j.ctx.toNat)]
      else
        let s := (s.sat Reg.REEL_RST_FAIL 1).event 0x0725 reelUnit 2 [(16, 1, 4), (17, 2, j.ctx.toNat)]
        s.faultRunning 0x0725

end Sys2Proof.Machine
end

