-- ==== Sys2Proof/Machine/Steps.lean ====
section
/-! DEFINITION. Device steps, run records and seals as commands: STEP, realignment, seal digests, record
signatures (spec/11_determinism.md R356 to R376; spec/04_skein.md R135; spec/13_hangs_resets_recovery.md R420,
R424; spec/10_collectives.md R346). -/

namespace Sys2Proof.Machine

/-! ### Opening, cutting and closing a record (R369, R370, R374). -/

/-- OUT_DIGEST: the output regions in the order named (R369). -/
def State.outDigest (s : State) (j : Slot) : List Byte :=
  sha384 (j.job.outs.flatMap (fun o => (s.devRead .det o.1 o.2 []).1))

/-- A record opens for the context of slot `n`, FIRST_STEP `first`; with no room the context faults (R370, R374). -/
def State.openRecord (s : State) (n first : Nat) : State :=
  match s.slotOf n with
  | none => s
  | some j =>
    if j.job.recLen = 0 then s
    else if (recPlace j.recs j.job.recLen (recSize j.sealed.length 0)).isNone then
      (s.eventCtx 0x0A44 devUnit 2 j.ctx.toNat [(16, 2, j.ctx.toNat), (18, 1, 3)]).faultCtx j.ctx.toNat 0x0A44
    else
      let ok := j.tstrict && s.rbit Reg.DET_ALIGN 0
      let r : RunRec :=
        { first := first, timeOk := ok, replay := false, aMhz := s.rf Reg.CLK_PLAN 9 0, pcap := s.rf Reg.PWR_CAP 31 16
          fence := s.fenceDigest, startTick := s.now.toNat, ptp := s.ptpStamp, base := (s.tally j).2 }
      let s := (s.setSlot n (some { j with run := some r, cut := false })).syncDet
      if j.tstrict && !ok then s.voidTime 5 else s

/-- The record is cut at a device step advance: it closes with the step before, and one opens with the step after
(R370). -/
def State.cutRecord (s : State) (n last : Nat) : State :=
  match s.slotOf n with
  | none => s
  | some j => (s.closeRecord n false (s.outDigest j) last).openRecord n (last + 1)

/-! ### The device step counter (R135, R356, R369). -/

/-- The word at the loss address, a poisoned one taken as zero (R369). -/
def State.lossWord (s : State) (j : Slot) (f : Flips) : Nat × Bool × State :=
  if j.job.loss = 0 then (0, false, s)
  else
    let r := s.devRead .det j.job.loss 4 f
    if r.2.1 ≠ 0 then (0, true, r.2.2.2) else (rdLE r.1 0 4, false, r.2.2.2)

/-- The least strand step of the running context. -/
def State.leastStep (s : State) (j : Slot) : Nat :=
  (((List.range j.lcount).map (fun l => s.rd64 (Reg.SPN_STEP_LO (s.physOf l)))).min?).getD 0

/-- The polders whose positions the running context occupies (R421). -/
def State.poldersOf (s : State) (j : Slot) : List Nat := ((List.range j.lcount).filter s.lmapValid |>.map (fun l => s.posOf l / 4)).dedup

/-- A polder's list of contexts that have run gains the running context with its step (R420). -/
def State.addRan (s : State) (p : Nat) (j : Slot) : State :=
  let l := tget [] s.rst.ran p
  if l.any (fun e => e.ctx == j.ctx.toNat) then s
  else { s with rst := { s.rst with ran := tset [] s.rst.ran p (l ++ [{ ctx := j.ctx.toNat, replay := j.step.toNat, digest := j.digest, seed := j.job.seed }]) } }

/-- Clean step boundaries (R420): of each polder that no reset in progress covers. -/
def State.cleanBoundary (s : State) (j : Slot) : State :=
  (List.range 4).foldl (fun s p =>
    if s.rst.resets.any (fun r => r.polders.contains p || r.level == 4) then s
    else
      let s := s.wr64 (Reg.RST_CLEAN_LO p) s.now.toNat
      let s := { s with rst := { s.rst with ran := tset [] s.rst.ran p [] } }
      if (s.poldersOf j).contains p then s.addRan p j else s) s

/-- Quarantine of the running instance is CLEARED once its step passes the hang step (R424). -/
def State.quarStep (s : State) (step : Nat) : State :=
  if s.quarActive && s.quarCtx == s.runCtx then
    let i := s.rf Reg.RST_QUAR 7 4
    if s.rd64 (Reg.RST_SUSP4 i) < step then s.quarEnd 1 0 else s
  else s

/-- A shadow is promoted at the named step (R346). -/
def State.promoteAt (s : State) (step : Nat) : State :=
  match s.coll.promote with
  | some n => if n ≤ step then
      ({ s with coll := { s.coll with promote := none } } : State).wf Reg.COLL_CTL 0 0 0 else s
  | none => s

/-- The device step counter of the running context advances by one (R135, R356, R369, R370, R420, R437, R444,
R447). -/
def State.advanceStep (s : State) (f : Flips) : State :=
  match s.runningSlot with
  | none => s
  | some j =>
    let last := j.step.toNat
    let s := s.setSlot s.runSlot (some { j with step := j.step + 1 })
    let w := s.lossWord j f
    let s := w.2.2
    let s := if j.job.loss = 0 then s
      else s.modRun (fun r => { r with loss := w.1, lossBytes := r.lossBytes ++ toLE 4 w.1, poison := r.poison || w.2.1 })
    let s := if j.cut then s.cutRecord s.runSlot last else s
    let s := s.restoreVerify w.1
    match s.runningSlot with
    | none => s
    | some j =>
      if j.st ≠ .running then s
      else
        let s := (s.ckptAdvance j.step.toNat w.1).cleanBoundary j
        ((s.quarStep j.step.toNat).promoteAt j.step.toNat).syncDet.applyAge

/-- STEP (R135, R247, R356): the strand step rises, and the device step with the least of them. -/
def execStep (ps : Fin 18) (f : Flips) (s : State) (bad : Bool := false) : Res :=
  if s.nextKind ps 4 then
    if bad then .next (s.badStrand ps) else
    let n := s.rd64 (Reg.SPN_STEP_LO ps)
    if n + 1 = 2 ^ 64 then .next ((s.event 0x0A45 devUnit 2 [(16, 2, s.runCtx)]).faultRunning 0x0A45)
    else
      let s := (s.wr64 (Reg.SPN_STEP_LO ps) (n + 1)).modSpn ps (fun x => x.next 1)
      match s.runningSlot with
      | some j => .next (if j.step.toNat < s.leastStep j then s.advanceStep f else s)
      | none => .next s
  else .next s

/-! ### Alignment (R361, R362). -/

/-- REALIGNMENT (R362): the sequence that a starting TSTRICT context or DET_ALIGN.REALIGN asked for is done. -/
def execRealignment (s : State) : Res :=
  if s.clk.realign then .next (({ s with clk := { s.clk with realign := false } } : State).wf Reg.DET_ALIGN 0 0 1)
  else .next s

/-- A written DET_ALIGN.REALIGN: ignored while a context runs (R362, R377). -/
def State.askRealign (s : State) : State :=
  if s.runCtx = 0 then { s with clk := { s.clk with realign := true } } else s

/-- DET_ALIGN_REALIGN (R377). -/
def execDetAlignRealign (s : State) : Res := .next (s.rowWrite Reg.DET_ALIGN State.askRealign)

/-! ### Seals (R367, R368, R374). -/

/-- A region is sealed for the context of slot `n` (R367): writes into it are discarded from now on. -/
def State.sealRegion (s : State) (n id lo hi step : Nat) : State :=
  match s.slotOf n with
  | none => s
  | some j =>
    let s := s.setSlot n (some { j with seals := j.seals ++ [{ id := id, lo := lo, hi := hi, step := step }] })
    { s with prot := s.prot ++ [{ kind := .seal, lo := lo, hi := hi, ctx := j.ctx.toNat, id := id }] }

/-- SEAL_DIGEST_DONE (R367, R374): the digest of seal `id` of the context in slot `n` is complete; a seal entry
that finds no room in the record buffer faults the context. -/
def execSealDigestDone (n : Fin 16) (id : Nat) (f : Flips) (s : State) : Res :=
  match s.slotOf n with
  | none => .next s
  | some j =>
    match j.seals.find? (fun x => x.id == id && !x.done) with
    | none => .next s
    | some x =>
      let r := s.devRead .det x.lo (x.hi - x.lo) f
      let d := sha384 r.1
      let j := { j with seals := j.seals.map (fun y => if y = x then { x with digest := d, done := true } else y) }
      let full := match j.run with
        | some q => (recPlace j.recs j.job.recLen (recSize j.sealed.length q.drops.length)).isNone
        | none => false
      let s := (r.2.2.2.setSlot n (some j)).syncDet
      let s := if full then
          (s.eventCtx 0x0A44 devUnit 2 j.ctx.toNat [(16, 2, j.ctx.toNat), (18, 1, 1)]).faultCtx j.ctx.toNat 0x0A44
        else s
      let s := s.finish (.sealing j.ctx.toNat id) stOK d
      if j.st = .validating ∧ j.seals.all (·.done) then
        .next ((s.modSlot n (fun j => { j with st := .ready })).finish .load stOK (toLE 2 j.ctx.toNat ++ toLE 1 n ++ j.digest))
      else .next s

/-! ### Signing (R373, R374). -/

/-- The oldest unsigned record of a list, signed. -/
def signIn (rs : List RecEnt) (e : RecEnt) (b : List Byte) : List RecEnt :=
  rs.map (fun x => if x = e then { e with bytes := b, signed := true } else x)

/-- The record signed stands in the record buffer and is reported (R373). -/
def State.signedRec (s : State) (ctx buf : Nat) (e : RecEnt) (b : List Byte) : State :=
  (s.devWrite .command (buf + e.off) b 0 []).2.2.eventCtx 0x0A40 devUnit 1 ctx
    [(16, 2, ctx), (18, 2, rdLE b 6 2), (20, 4, b.length)]

/-- The records of contexts that have left slot `n`: the first with one still unsigned. -/
def State.goneUnsigned (s : State) (n : Nat) : Option GoneRecs :=
  s.seqr.gone.find? (fun g => g.ctx % 16 == n && g.recs.any (fun e => !e.signed))

/-- RECORD_SIGNED (R373): the oldest closed record of slot `n`, those of contexts that left it first, is signed and
stands in the record buffer. -/
def execRecordSigned (n : Fin 16) (s : State) : Res :=
  match s.goneUnsigned n with
  | some g =>
    (match g.recs.find? (fun e => !e.signed) with
    | none => .next s
    | some e =>
      let b := e.bytes ++ s.sign e.bytes
      let s : State := { s with seqr := { s.seqr with gone := s.seqr.gone.map (fun x =>
        if x = g then { g with recs := signIn g.recs e b } else x) } }
      let s := s.signedRec g.ctx g.buf e b
      .next (if s.rf Reg.DET_REC_ST 2 0 = 3 ∧ g.recs.countP (fun x => !x.signed) ≤ 1 then s.wf Reg.DET_REC_ST 2 0 0 else s))
  | none =>
    match s.slotOf n with
    | none => .next s
    | some j =>
      match j.recs.find? (fun e => !e.signed) with
      | none => .next s
      | some e =>
        let b := e.bytes ++ s.sign e.bytes
        let s := s.setSlot n (some { j with recs := signIn j.recs e b })
        let s := s.signedRec j.ctx.toNat j.job.recBuf e b
        .next (if s.rf Reg.DET_REC_ST 2 0 = 3 ∧ j.recs.countP (fun x => !x.signed) ≤ 1 then s.wf Reg.DET_REC_ST 2 0 0 else s)

end Sys2Proof.Machine
end

