-- ==== Sys2Proof/Machine/Load.lean ====
section
/-! DEFINITION. Loading a context: the checks of image and channel table, and the outcome
(spec/04_skein.md R115 to R131, R149 to R151; spec/03_spindle.md R76; spec/08_on_die_interconnect.md R270, R271;
spec/17_cuard_commands.md R535). -/

namespace Sys2Proof.Machine

/-- A failed check: offset in the image and reason of R150. -/
abbrev Bad := Nat × Nat

/-- The first condition of a list, in order, that does not hold. -/
def firstBad : List (Nat × Bool × Nat) → Option Bad
  | [] => none
  | c :: r => if c.2.1 then firstBad r else some (c.1, c.2.2)

/-- The failure at the lowest offset. -/
def lowest (l : List Bad) : Option Bad :=
  l.foldl (fun b x => match b with
    | none => some x
    | some y => if x.1 < y.1 then some x else some y) none

/-- The first nonzero byte from `o` up to `o + n`. -/
def firstSet (img : List Byte) (o n : Nat) : Option Nat := (((img.drop o).take n).findIdx? (· != 0)).map (o + ·)

def isZero (img : List Byte) (o n : Nat) : Bool := rdLE img o n == 0

/-! ### Header (R115, R116). -/

structure SkHead where
  lcount : Nat
  flags : Nat
  mode : Nat
  numrev : Nat
  sects : Nat
  sectOff : Nat
  strmOff : Nat
  strmLen : Nat
  imgLen : Nat
  deriving DecidableEq, Repr

def skHead (b : List Byte) : SkHead :=
  { lcount := rdLE b 6 1, flags := rdLE b 7 1, mode := rdLE b 8 4, numrev := rdLE b 12 2, sects := rdLE b 16 4
    sectOff := rdLE b 0x18 8, strmOff := rdLE b 0x20 8, strmLen := rdLE b 0x28 8, imgLen := rdLE b 0x30 8 }

/-- Two byte ranges share a byte. -/
def overlaps (a la b lb : Nat) : Bool := decide (0 < la) && decide (0 < lb) && decide (a < b + lb) && decide (b < a + la)

/-- The header checks, in image order (R70, R115, R116). -/
def headBad (b : List Byte) (len : Nat) : Option Bad :=
  let h := skHead b
  let table := 16 * h.sects
  firstBad
    [(0, rdLE b 0 4 == 0x4B535A4B && decide (64 ≤ len), 1), (4, rdLE b 4 2 == 1, 1), (6, decide (1 ≤ h.lcount ∧ h.lcount ≤ 16), 1),
     (7, decide (h.flags ≤ 1), 1), (8, decide (h.mode < 4), 3), (14, isZero b 14 2, 1),
     (0x10, decide (1 ≤ h.sects ∧ h.sects ≤ 65536), 1), (0x14, isZero b 0x14 4, 1),
     (0x18, h.sectOff % 8 == 0 && decide (64 ≤ h.sectOff ∧ h.sectOff + table ≤ len), 1),
     (0x20, h.strmOff % 8 == 0 && !overlaps h.strmOff h.strmLen 0 64 && !overlaps h.strmOff h.strmLen h.sectOff table, 1),
     (0x28, decide (h.strmOff + h.strmLen ≤ len), 1), (0x30, h.imgLen == len && decide (len ≤ 0x40000000), 1),
     (0x38, isZero b 0x38 8, 1)]

/-! ### Sections (R119 to R124, R176, R197). -/

/-- A section-table entry: offset and length of its configuration. -/
def sectEnt (img : List Byte) (h : SkHead) (k : Nat) : Nat × Nat :=
  (rdLE img (h.sectOff + 16 * k) 8, rdLE img (h.sectOff + 16 * k + 8) 4)

/-- The settings of a unit hold nothing reserved (R124, R176, R197): 256 bytes at `o`.  The ranges of a set that is not in
use are not judged (log 161). -/
def settingsBad (img : List Byte) (u o : Nat) : Option Bad :=
  match unitKind u with
  | some .mem => firstBad ((List.range 8).flatMap (fun a =>
      let p := o + 32 * a
      [(p + 5, isZero img (p + 5) 3, 5), (p + 12, isZero img (p + 12) 4, 5)]))
  | some .seq => firstBad ((List.range 16).map (fun n =>
      let p := rdLE img (o + 16 * n) 16
      (o + 16 * n, if p.testBit 0 then attnSetOk p else attnResOk p, 10)))
  | some .dsp => firstBad ((List.range 16).map (fun n =>
      let p := rdLE img (o + 16 * n) 16
      (o + 16 * n, if p.testBit 40 then dspSetOk p else dspResOk p, 10)))
  | _ => (firstSet img o 256).map (fun z => (z, 5))

/-- Ports a kind of unit has: input and output (R73). -/
def portsOf : UnitKind → Nat × Nat
  | .tile => (3, 1) | .vec => (3, 2) | .sfu => (1, 1) | .steer => (3, 2) | .seq => (4, 2) | .dsp => (3, 2) | .mem => (2, 1)
  | .sluice => (0, 2)

def hasPort (u p : Nat) (out : Bool) : Bool :=
  match unitKind u with
  | some k => decide (p < (if out then (portsOf k).2 else (portsOf k).1))
  | none => false

/-- Two switch points are neighbours (R121). -/
def meshNext (a b : Nat) : Bool :=
  (a / 8 == b / 8 && (a % 8 + 1 == b % 8 || b % 8 + 1 == a % 8)) || (a % 8 == b % 8 && (a / 8 + 1 == b / 8 || b / 8 + 1 == a / 8))

/-- Hop `k` of the route entry at `o`: switch point and parent. -/
def hopAt (img : List Byte) (o k : Nat) : Nat × Nat :=
  let w := rdLE img (o + 8 + 2 * k) 2
  (bitsOf w 5 0, bitsOf w 10 6)

/-- The checks of one route entry (R76, R122). -/
def routeBad (img : List Byte) (o : Nat) : Option Bad :=
  let w := rdLE img o 2
  let src := bitsOf w 5 0
  let nh := rdLE img (o + 3) 1
  let nd := rdLE img (o + 4) 1
  let sps := (List.range nh).map (fun k => (hopAt img o k).1)
  let hop (k : Nat) : Nat × Bool × Nat :=
    let hw := rdLE img (o + 8 + 2 * k) 2
    let h := hopAt img o k
    let good := if nh ≤ k then hw == 0
      else decide (hw < 2 ^ 11) && !(sps.take k).contains h.1 &&
        (if k = 0 then h.1 == switchPoint src && h.2 == 0 else decide (h.2 < k) && meshNext (hopAt img o h.2).1 h.1)
    (o + 8 + 2 * k, good, 6)
  let dest (j : Nat) : Nat × Bool × Nat :=
    let d := rdLE img (o + 56 + j) 1
    (o + 56 + j, if nd ≤ j then d == 0 else hasPort (d % 64) (d / 64) false && sps.contains (switchPoint (d % 64)), 6)
  firstBad ([(o, decide (w < 2 ^ 7) && hasPort src (bitsOf w 6 6) true, 6), (o + 2, !isZero img (o + 2) 1, 6),
    (o + 3, decide (1 ≤ nh ∧ nh ≤ 24), 6), (o + 4, decide (1 ≤ nd ∧ nd ≤ 16), 6), (o + 5, isZero img (o + 5) 3, 6)] ++
    (List.range 24).map hop ++ (List.range 16).map dest ++ [(o + 72, isZero img (o + 72) 8, 6)])

/-- The links a route uses with the phase of each use (R75, R123), as numbers: 0 from an output port, 1 between
switch points, 2 into an input port. -/
def routeLinks (img : List Byte) (o : Nat) : List Nat :=
  let w := rdLE img o 2
  let key (kind a b ph : Nat) : Nat := ((kind * 64 + a) * 64 + b) * 8 + ph % 8
  let nh := rdLE img (o + 3) 1
  let sps := (List.range nh).map (fun k => (hopAt img o k).1)
  ((List.range 8).filter (fun p => (rdLE img (o + 2) 1).testBit p)).flatMap (fun p =>
    (List.range nh).map (fun k =>
      let h := hopAt img o k
      if k = 0 then key 0 (bitsOf w 5 0) (bitsOf w 6 6) p else key 1 (hopAt img o h.2).1 h.1 (p + k)) ++
    (List.range (rdLE img (o + 4) 1)).map (fun j =>
      let d := rdLE img (o + 56 + j) 1
      key 2 (d % 64) (d / 64) (p + (sps.findIdx? (· == switchPoint (d % 64))).getD 0)))

/-- The routes of a configuration: each entry, and no link used by two in one phase (R123). -/
def routesBad (img : List Byte) : List Nat → List Nat → Option Bad
  | [], _ => none
  | o :: rest, used =>
    match routeBad img o with
    | some b => some b
    | none =>
      let l := routeLinks img o
      if l.any used.contains then some (o, 6) else routesBad img rest (l ++ used)

/-- The checks of section `k` (R115, R119, R120). -/
def sectBad (img : List Byte) (h : SkHead) (k : Nat) : Option Bad :=
  let e := h.sectOff + 16 * k
  let c := sectEnt img h k
  let n := rdLE img c.1 2
  let clash := (List.range h.sects).any (fun i => let d := sectEnt img h i; d != c && overlaps d.1 d.2 c.1 c.2)
  let bad := firstBad
    [(e, c.1 % 8 == 0 && decide (c.1 + c.2 ≤ img.length) && !overlaps c.1 c.2 0 64 && !overlaps c.1 c.2 h.sectOff (16 * h.sects) &&
        !overlaps c.1 c.2 h.strmOff h.strmLen && !clash, 5),
     (e + 8, decide (0x3800 ≤ c.2) && c.2 == 0x3800 + 80 * n, 5), (e + 12, decide (rdLE img (e + 12) 1 ≤ 1), 5),
     (e + 13, isZero img (e + 13) 3, 5), (c.1, decide (n ≤ 1024), 6), (c.1 + 2, isZero img (c.1 + 2) 254, 5)]
  match bad with
  | some b => some b
  | none =>
    match (List.range 55).findSome? (fun u => settingsBad img u (c.1 + 0x100 + 256 * u)) with
    | some b => some b
    | none => routesBad img ((List.range n).map (fun i => c.1 + 0x3800 + 80 * i)) []

/-- The unit settings of section `k`. -/
def sectSettings (img : List Byte) (h : SkHead) (k : Nat) : List (List Byte) :=
  let c := sectEnt img h k
  (List.range 55).map (fun u => sliceB img (c.1 + 0x100 + 256 * u) 256)

/-! ### Chunks and strands (R125, R126). -/

/-- A strand word with its place in the image and its chunk. -/
structure SW where
  w : DWord
  off : Nat
  chunk : Nat
  deriving DecidableEq, Repr

/-- The chunks of the stream: masks with their words, and the first failure. -/
def chunksOf : Nat → List Byte → Nat → Nat → Nat → Nat → List (Nat × List SW) × Option Bad
  | 0, _, _, _, _, _ => ([], none)
  | n + 1, img, lc, pos, stop, c =>
    if stop ≤ pos then ([], none)
    else
      let m := rdLE img pos 2
      let k := rdLE img (pos + 4) 4
      let bad := firstBad
        [(pos, decide (pos + 16 ≤ stop) && m != 0 && decide (m < 2 ^ lc), 7), (pos + 2, isZero img (pos + 2) 2, 7),
         (pos + 4, decide (1 ≤ k ∧ pos + 16 + 8 * k ≤ stop), 7), (pos + 8, isZero img (pos + 8) 8, 7)]
      match bad with
      | some b => ([], some b)
      | none =>
        let ws := (List.range k).map (fun i =>
          ({ w := BitVec.ofNat 64 (rdLE img (pos + 16 + 8 * i) 8), off := pos + 16 + 8 * i, chunk := c } : SW))
        let r := chunksOf n img lc (pos + 16 + 8 * k) stop (c + 1)
        ((m, ws) :: r.1, r.2)

/-- The strand of logical spindle `l`. -/
def strandWords (ch : List (Nat × List SW)) (l : Nat) : List SW := ch.flatMap (fun c => if c.1.testBit l then c.2 else [])

/-- The units an EXEC header names. -/
def namedUnits (w : DWord) : List Nat := (List.range 55).filter (fun u => w.toNat.testBit u)

/-- The failure of the bundle at the head of `l`, of which `left` words may be used, or how many words it has
(a LOOP with its body) (R126, R128 to R131, R135, R138, R150).  A bundle split across a chunk boundary is refused with
reason 7, since R150 gives that to what breaks R126: DESIGN CHOICE (log 162). -/
def bundleAt (sects : Nat) (st : List (List Byte)) (l : List SW) (left depth : Nat) : Bad ⊕ Nat :=
  match l with
  | [] => .inl (0, 7)
  | h :: rest =>
    let kind := slot h.w 63 60
    if kind = 0 then
      let us := namedUnits h.w
      let n := us.length
      let sl := us.zip (rest.take n)
      if slot h.w 58 55 ≠ 0 then .inl (h.off, 8)
      else if left < n + 1 then .inl (h.off, if depth = 0 then 7 else 9)
      else if (rest.take n).any (fun x => x.chunk != h.chunk) then .inl (h.off, 7)
      else
        match sl.find? (fun x => !(slotOk x.1 x.2.w && slotSetOk st x.1 x.2.w)) with
        | some x => .inl (x.2.off, 10)
        | none => .inr (n + 1)
    else if kind = 1 then
      if slot h.w 58 24 ≠ 0 then .inl (h.off, 8) else if slot h.w 23 0 = 0 then .inl (h.off, 9) else .inr 1
    else if kind = 2 then
      let body := slot h.w 46 32
      if (slot h.w 58 58 = 1 ∧ slot h.w 31 0 ≠ 0) ∨ (slot h.w 58 58 = 0 ∧ slot h.w 57 47 ≠ 0) then .inl (h.off, 8)
      else if 4 ≤ depth ∨ body = 0 ∨ left < body + 1 then .inl (h.off, 9)
      else .inr (body + 1)
    else if kind = 3 then
      if slot h.w 59 24 ≠ 0 then .inl (h.off, 8)
      else if depth ≠ 0 ∨ sects ≤ slot h.w 23 0 then .inl (h.off, 9) else .inr 1
    else if kind = 4 ∨ kind = 5 then
      if slot h.w 59 0 ≠ 0 then .inl (h.off, 8)
      else if kind = 5 ∧ depth ≠ 0 then .inl (h.off, 9) else .inr 1
    else .inl (h.off, 8)

/-- The first failure in a body of `left` words at depth `d`. -/
def bodyBad (sects : Nat) (st : List (List Byte)) : Nat → List SW → Nat → Nat → Option Bad
  | 0, _, _, _ => none
  | n + 1, l, left, d =>
    if left = 0 then none
    else
      match bundleAt sects st l left d with
      | .inl b => some b
      | .inr k =>
        let inner := if (l.head?.map (fun h => slot h.w 63 60)) = some 2 then bodyBad sects st n (l.drop 1) (k - 1) (d + 1) else none
        match inner with
        | some b => some b
        | none => bodyBad sects st n (l.drop k) (left - k) d

/-- Skein cycles each unit stays occupied, and the first slot word in image order that names one still occupied (R138). -/
structure Occ where
  busy : List (Nat × Nat) := []
  bad : Option Bad := none

/-- `k` skein cycles pass. -/
def Occ.pass (a : Occ) (k : Nat) : Occ := { a with busy := a.busy.filterMap (fun p => if p.2 ≤ k then none else some (p.1, p.2 - k)) }

/-- What either of two ways through the strand leaves: a unit is free once it is on both. -/
def Occ.join (a b : Occ) : Occ :=
  { busy := b.busy.foldl (fun t p => tset 0 t p.1 (max (tget 0 t p.1) p.2)) a.busy, bad := lowest (a.bad.toList ++ b.bad.toList) }

def occSlot (st : List (List Byte)) (a : Occ) (u : Nat) (x : SW) : Occ :=
  { busy := tset 0 a.busy u (slotCycles st u x.w)
    bad := if tget 0 a.busy u = 0 then a.bad else lowest (a.bad.toList ++ [(x.off, 11)]) }

/-- `n` turns of a loop body, and where any number up to `n` may be run, what all of them leave. -/
def occTurns (body : Occ → Occ) (any : Bool) : Nat → Occ → Occ
  | 0, a => a
  | n + 1, a => let r := occTurns body any n (body a); if any then a.join r else r

/-- Walks `left` words (R138).  No slot occupies its unit for more than four cycles and every turn of a body that names a
unit lays down a cycle, so a loop is walked for at most five turns; a count that a control token supplies may be any
number, 0 among them (log 156). -/
def occWalk (st : List (List Byte)) : Nat → List SW → Nat → Occ → Occ
  | 0, _, _, a => a
  | n + 1, l, left, a =>
    match l with
    | [] => a
    | h :: rest =>
      if left = 0 then a
      else
        let kind := slot h.w 63 60
        if kind = 0 then
          let us := namedUnits h.w
          let a := (us.zip rest).foldl (fun a x => occSlot st a x.1 x.2) a
          occWalk st n (rest.drop us.length) (left - 1 - us.length) (a.pass 1)
        else if kind = 1 then occWalk st n rest (left - 1) (a.pass (slot h.w 23 0))
        else if kind = 2 then
          let body := slot h.w 46 32
          let count := slot h.w 58 58 == 1
          occWalk st n (rest.drop body) (left - 1 - body)
            (occTurns (occWalk st n rest body) count (if count then 5 else min 5 (slot h.w 31 0)) a)
        else occWalk st n rest (left - 1) a

/-- Words of the segment at the head of `l`, its ending word included, `none` where no ending stands (R126). -/
def segWords (sects : Nat) (st : List (List Byte)) : Nat → List SW → Bad ⊕ Nat
  | 0, _ => .inl (0, 7)
  | n + 1, l =>
    match bundleAt sects st l l.length 0 with
    | .inl b => .inl b
    | .inr k =>
      let kind := (l.head?.map (fun h => slot h.w 63 60)).getD 0
      let inner := if kind = 2 then bodyBad sects st n (l.drop 1) (k - 1) 1 else none
      match inner with
      | some b => .inl b
      | none =>
        if kind = 3 ∨ kind = 5 then .inr k
        else
          match segWords sects st n (l.drop k) with
          | .inl b => .inl b
          | .inr m => .inr (k + m)

/-- The first failure of the segment at the head of a strand, in image order: its bundles, its length, its occupancy; else
its length in words. -/
def segBad (sects : Nat) (st : List (List Byte)) (l : List SW) (last : Nat) : Bad ⊕ Nat :=
  let r := segWords sects st (l.length + 1) l
  let b : Option Bad := match r with
    | .inl b => some (if b = (0, 7) then ((l.getLast?.map (·.off)).getD last, 7) else b)
    | .inr _ => none
  let k := match r, b with
    | .inr k, _ => k
    | _, some b => (l.takeWhile (fun w => decide (w.off < b.1))).length
    | _, none => 0
  let long := if 32768 < k then ((l[32768]?).map (fun w => (w.off, 7))).toList else []
  match lowest (b.toList ++ long ++ (occWalk st (k + 1) (l.take k) k {}).bad.toList) with
  | some x => .inl x
  | none => .inr k

/-- The first failure of a strand from a segment under section `sect` on. -/
def strandBad (img : List Byte) (h : SkHead) : Nat → List SW → Nat → Nat → Option Bad
  | 0, _, _, _ => none
  | n + 1, l, sect, last =>
    match l with
    | [] => some (last, 7)
    | _ =>
      match segBad h.sects (sectSettings img h sect) l last with
      | .inl b => some b
      | .inr k =>
        match l[k - 1]? with
        | none => some (last, 7)
        | some e =>
          if slot e.w 63 60 = 5 then ((l.drop k).head?).map (fun x => (x.off, 7))
          else strandBad img h n (l.drop k) (slot e.w 23 0) e.off

/-- The first failure of an image in image order, header first (R149 step 4, R150). -/
def imageBad (img : List Byte) : Option Bad :=
  match headBad img img.length with
  | some b => some b
  | none =>
    let h := skHead img
    let sects := (List.range h.sects).filterMap (sectBad img h)
    let ch := chunksOf (img.length / 24 + 1) img h.lcount h.strmOff (h.strmOff + h.strmLen) 0
    let strands := (List.range h.lcount).filterMap (fun l =>
      let ws := strandWords ch.1 l
      if ch.2.isSome then none else strandBad img h (ws.length + 1) ws 0 h.strmOff)
    lowest (sects ++ ch.2.toList ++ strands)

/-- The words of every strand of a good image. -/
def imageStrand (img : List Byte) (l : Nat) : List SW :=
  let h := skHead img
  strandWords (chunksOf (img.length / 24 + 1) img h.lcount h.strmOff (h.strmOff + h.strmLen) 0).1 l

/-! ### The channel table (R270, R271). -/

/-- Half an entry of the channel table: bound, policy, remote, COORD, logical spindle and channel. -/
structure Binding where
  v : Bool
  policy : Bool
  remote : Bool
  coord : Nat
  logical : Nat
  chan : Nat
  deriving DecidableEq, Repr

def bindingOf (w : Nat) : Binding :=
  { v := w.testBit 0, policy := w.testBit 1, remote := w.testBit 2, coord := bitsOf w 28 16, logical := bitsOf w 32 29
    chan := bitsOf w 38 33 }

def chEntry (tab : List Byte) (i : Nat) : Nat × Nat := (rdLE tab (16 * i) 8, rdLE tab (16 * i + 8) 8)

/-- The memory slots of a strand word list that use channel or queue `c` with opcode `op`: the strand is walked as
its bundles lie. -/
def usesChan : Nat → List SW → Nat → Nat → Bool
  | 0, _, _, _ => false
  | n + 1, l, op, c =>
    match l with
    | [] => false
    | h :: rest =>
      if slot h.w 63 60 = 0 then
        let us := namedUnits h.w
        (us.zip rest).any (fun x => decide (unitKind x.1 = some .mem) && slot x.2.w 63 60 == op && slot x.2.w 16 9 == c) ||
          usesChan n (rest.drop us.length) op c
      else usesChan n rest op c

/-- What in entry `i` of the table is refused: 1 reserved bit, 2 range, 3 mismatch, 4 unbound (R271, R282). -/
def entryBad (tab img : List Byte) (lc own i : Nat) : Option Nat :=
  let e := chEntry tab i
  let o := bindingOf e.1
  let q := bindingOf e.2
  let l := i / 64
  let c := i % 64
  let peer (b : Binding) : Nat × Nat := chEntry tab (b.logical * 64 + b.chan)
  let names (b : Binding) : Bool := b.v && !b.remote && b.logical == l && b.chan == c
  let ws := imageStrand img l
  if bitsOf e.1 15 3 ≠ 0 ∨ bitsOf e.1 63 39 ≠ 0 ∨ bitsOf e.2 15 3 ≠ 0 ∨ bitsOf e.2 63 39 ≠ 0 ∨ e.2.testBit 1 then some 1
  else if (o.v && !o.remote && decide (lc ≤ o.logical)) || (q.v && !q.remote && decide (lc ≤ q.logical)) ||
      (o.v && o.remote && o.coord == own) || (q.v && q.remote && q.coord == own) then some 2
  else if o.v && !o.remote && !names (bindingOf (peer o).2) then some 3
  else if (!o.v && usesChan (ws.length + 1) ws 7 c) || (!q.v && usesChan (ws.length + 1) ws 6 c) then some 4
  else none

/-- The first entry refused, with its cause. -/
def tableBad (tab img : List Byte) (lc own : Nat) : Option (Nat × Nat) :=
  (List.range (64 * lc)).findSome? (fun i => (entryBad tab img lc own i).map (fun c => (i, c)))

/-- The channels of logical spindle `l` at load: sequence 0, 32 credits (R272, R274). -/
def channelsOf (tab : List Byte) (l : Nat) : Spn :=
  let bind (b : Binding) : ChanBind := { remote := b.remote, coord := b.coord, logical := b.logical, chan := b.chan }
  { outq := (List.range 64).foldl (fun t c =>
      let b := bindingOf (chEntry tab (64 * l + c)).1
      if b.v then tset {} t c { st := .opened, strict := b.policy, credits := 32, bind := some (bind b) } else t) []
    inq := (List.range 64).foldl (fun t c =>
      let b := bindingOf (chEntry tab (64 * l + c)).2
      if b.v then tset {} t c { st := .opened, bind := some (bind b) } else t) [] }

/-! ### The load descriptor (R535). -/

def mgmtLo : Nat := 0x3000000000
def mgmtHi : Nat := 0x3180000000

/-- A region that lies in polder or management DRAM. -/
def inDram (a n : Nat) : Bool := decide (a + n ≤ mgmtHi) && (decide (a + n ≤ mgmtLo) || decide (mgmtLo ≤ a))

/-- The job parameters a descriptor gives. -/
def jobOf (b : List Byte) : JobParams :=
  { img := rdLE b 0 8, len := rdLE b 8 8, save := rdLE b 0x10 8, chtab := rdLE b 0x18 8, coll := rdLE b 0x20 8
    recBuf := rdLE b 0x28 8, recLen := rdLE b 0x30 4, jobtag := BitVec.ofNat 12 (rdLE b 0x34 2)
    policy := if rdLE b 0x36 1 = 1 then .carry else .fault, seed := BitVec.ofNat 64 (rdLE b 0x40 8)
    startStep := BitVec.ofNat 64 (rdLE b 0x48 8), loss := rdLE b 0x50 8, excl := rdLE b 0x58 8, nexcl := rdLE b 0x60 2
    outs := (List.range (rdLE b 0x38 1)).map (fun i => (rdLE b (0x80 + 16 * i) 8, rdLE b (0x88 + 16 * i) 8))
    seals := (List.range (rdLE b 0x37 1)).map (fun i =>
      (rdLE b (0x180 + 24 * i) 8, rdLE b (0x188 + 24 * i) 8, rdLE b (0x190 + 24 * i) 4)) }

/-- Every field of a descriptor is within its range. -/
def descOk (b : List Byte) : Bool :=
  let j := jobOf b
  [j.img, j.save, j.chtab, j.coll, j.recBuf, j.loss, j.excl].all (fun a => decide (a < 2 ^ 40)) && j.save % 65536 == 0 &&
    decide (rdLE b 0x34 2 < 2 ^ 12) && decide (rdLE b 0x36 1 ≤ 1) && decide (rdLE b 0x37 1 ≤ 16) && decide (rdLE b 0x38 1 ≤ 16) &&
    isZero b 0x39 7 && decide (j.nexcl ≤ 4096) && isZero b 0x62 30 && isZero b 0x300 256 &&
    (j.recLen == 0 || (decide (0x10000 ≤ j.recLen ∧ j.recLen ≤ 0x4000000) && decide (mgmtLo ≤ j.recBuf) &&
      decide (j.recBuf + j.recLen ≤ mgmtHi))) && (j.recBuf == 0) == (j.recLen == 0) &&
    j.outs.all (fun o => decide (o.1 < 2 ^ 40) && decide (1 ≤ o.2 ∧ o.2 ≤ 0x3000000000)) &&
    (List.range (rdLE b 0x37 1)).all (fun i => decide (rdLE b (0x180 + 24 * i) 8 < 2 ^ 40) && isZero b (0x194 + 24 * i) 4)

/-- A seal's region may be sealed beside those a context has (R367). -/
def sealOk (l : List (Nat × Nat)) (a n : Nat) : Bool :=
  a % 4096 == 0 && n % 4096 == 0 && decide (4096 ≤ n ∧ n ≤ 0x3000000000) && inDram a n && l.all (fun x => !overlaps x.1 x.2 a n)

def sealsOk : List (Nat × Nat) → List (Nat × Nat × Nat) → Bool
  | _, [] => true
  | l, x :: r => sealOk l x.1 x.2.1 && sealsOk ((x.1, x.2.1) :: l) r

/-! ### The outcome (R149 to R151). -/

/-- A load ends with a status. -/
def State.loadEnds (s : State) (status : Nat) (params : List Byte) : State :=
  ({ s with cq := { s.cq with loading := none } } : State).finish .load status params

/-- A refused load (R150). -/
def State.loadRefused (s : State) (b : Bad) : State :=
  let st := if b.2 = 2 ∨ b.2 = 4 then stBAD_STATE else stOUT_OF_RANGE
  let s := (s.wr Reg.SKN_LOAD_ERR (b.2 * 2 ^ 16 + st)).wr64 Reg.SKN_LOAD_OFF_LO b.1
  (s.event 0x0320 devUnit 1 [(16, 2, b.2), (18, 6, b.1)]).loadEnds st []

/-- SPN_NUM_REV of the logical spindles: 0 where one has not loaded its tables yet (R72). -/
def State.numRev (s : State) : Nat :=
  (((List.range s.lCount).map (fun l => s.rf (Reg.SPN_NUM_REV (s.physOf l)) 15 0)).min?).getD 0

/-- The lowest free slot. -/
def State.freeSlot (s : State) : Option Nat := (List.range 16).find? (fun n => (s.slotOf n).isNone)

/-- The context is accepted into slot `n`: ID, protection, channels, seals (R118, R149 step 6, R151, R367). -/
def State.accept (s : State) (n : Nat) (j : JobParams) (img tab : List Byte) : State :=
  let h := skHead img
  let none_ : Saved := {}
  let seq := s.seqr.seqNo % 4095 + 1
  let ctx := seq * 16 + n
  let digest := sha384 img
  let saved := (List.range h.lcount).foldl (fun t l => tset none_ t l { spn := channelsOf tab l }) ([] : List (Nat × Saved))
  let x : Slot := { ctx := BitVec.ofNat 16 ctx, st := if j.seals.isEmpty then .ready else .validating, job := j, lcount := h.lcount
                    tstrict := h.flags.testBit 0, numMode := h.mode, digest := digest, step := j.startStep, saved := saved
                    image := (j.img, j.len) }
  let s : State := ({ s with seqr := { s.seqr with seqNo := seq } } : State).setSlot n (some x)
  let s : State := { s with prot := s.prot ++ [{ kind := .image, lo := j.img, hi := j.img + j.len, ctx := ctx, id := 0 }] }
  let s := j.seals.foldl (fun s y => s.sealRegion n y.2.2 y.1 (y.1 + y.2.1) j.startStep.toNat) s
  let s : State := { s with cq := { s.cq with loading := none } }
  let s := (s.modSlot n id).syncResident
  if j.seals.isEmpty then s.finish .load stOK (toLE 2 ctx ++ toLE 1 n ++ digest) else s

/-- CTX_LOAD_VALIDATED (R118, R149 to R151, R271, R535): validation of the load in progress ends. -/
def execCtxLoadValidated (f : Flips) (s : State) : Res :=
  match s.cq.loading with
  | none => .next s
  | some a =>
    let d := s.devRead .sequencer a 1024 f
    let s := d.2.2.2
    let j := jobOf d.1
    if s.devState ≠ stService ∨ s.rbit Reg.CMD_STRAPS 14 = true ∨ s.numRev = 0 then .next (s.loadEnds stBAD_STATE [])
    else
      match s.freeSlot with
      | none => .next (s.loadEnds stBUSY [])
      | some n =>
        if s.tstrictRuns then .next (s.loadEnds stBUSY [])
        else if d.2.1 ≠ 0 then .next (s.loadEnds stHW_FAULT [])
        else if descOk d.1 = false then .next (s.loadEnds stOUT_OF_RANGE [])
        else if j.recLen ≠ 0 ∧ s.rbit Reg.SEC_DBG 2 = true then .next (s.loadEnds stBAD_STATE [])
        else if j.img % 4096 ≠ 0 ∨ inDram j.img j.len = false ∨ 0x40000000 < j.len then .next (s.loadRefused (0, 1))
        else
          let r := s.devRead .sequencer j.img j.len f
          let s := r.2.2.2
          let h := skHead r.1
          if r.2.1 ≠ 0 then .next (s.loadEnds stHW_FAULT [])
          else
            match imageBad r.1 with
            | some b => .next (s.loadRefused b)
            | none =>
              if s.lCount < h.lcount then .next (s.loadRefused (6, 2))
              else if h.numrev ≠ 0 ∧ h.numrev ≠ s.numRev then .next (s.loadRefused (12, 4))
              else
                let t := if j.chtab = 0 then (List.replicate (1024 * h.lcount) 0, 0, true, s) else s.devRead .sequencer j.chtab (1024 * h.lcount) f
                let s := t.2.2.2
                if t.2.1 ≠ 0 then .next (s.loadEnds stHW_FAULT [])
                else
                  match tableBad t.1 r.1 h.lcount s.coord with
                  | some b => .next ((s.event 0x0405 (unitId 0 (s.physOf (b.1 / 64))) 1 [(16, 2, b.1), (18, 1, b.2)]).loadEnds stOUT_OF_RANGE [])
                  | none =>
                    if sealsOk [] j.seals then .next (s.accept n j r.1 t.1) else .next (s.loadEnds stOUT_OF_RANGE [])

end Sys2Proof.Machine
end

