-- ==== Sys2Proof/Machine/Seq.lean ====
section
/-! DEFINITION. The skein sequencer: how the running context gives way, how the next one starts or is restored, and
quanta (spec/04_skein.md R152 to R157, R589; spec/11_determinism.md R364; spec/13_hangs_resets_recovery.md R411,
R421 to R423; spec/14_checkpoint.md R437). -/

namespace Sys2Proof.Machine

/-! ### Which context is next (R152, R423). -/

/-- Slot `n` holds a READY context that may start: in quarantine the replay instance alone. -/
def State.readyAt (s : State) (n : Nat) : Bool :=
  match s.slotOf n with
  | some j => (j.st == .ready || j.st == .suspended) && (!s.quarActive || j.ctx.toNat == s.quarCtx)
  | none => false

/-- The next READY slot after `n` in ascending order, wrapping; `n` itself last. -/
def State.nextReady (s : State) (n : Nat) : Option Nat := ((List.range 16).map (fun k => (n + 1 + k) % 16)).find? s.readyAt

/-- The slot the sequencer goes to: the one commanded while READY, else the next; contexts start in SERVICE alone
(R35).  A context that ends or faults while a commanded slot is pending goes to that slot: DESIGN CHOICE (log 158). -/
def State.chosen (s : State) (n : Nat) : Option Nat :=
  if s.devState ≠ stService then none
  else match s.seqr.target with
    | some t => if s.readyAt t then some t else s.nextReady n
    | none => s.nextReady n

/-- Every strand of the running context not yet ended is asked to drain for a switch (R103, R152). -/
def State.drainAll (s : State) (j : Slot) : State :=
  (s.physList j.lcount).foldl (fun s ps => if s.rbit (Reg.SPN_STRAND ps) 6 then s else s.askDrain ps .switch) s

/-- The running context is to give way to slot `target`, or with none running that slot is to start, which is recorded
as a switch from the slot that ran last (R152; log 145). -/
def State.beginSwitch (s : State) (w : GiveWay) (target : Option Nat) : State :=
  let s := { s with seqr := { s.seqr with target := target } }
  match s.runningSlot with
  | none => s.event 0x0325 devUnit 1 [(16, 1, s.seqr.lastSlot), (17, 1, target.getD s.seqr.lastSlot), (18, 1, 2)]
  | some j => (s.giveWay w).drainAll j

/-- QUANTUM_EXPIRY (R152, R364, R423): the running context has run for SKN_QUANTUM reference ticks since its start. -/
def execQuantumExpiry (s : State) : Res :=
  match s.runningSlot with
  | none => .next s
  | some j =>
    let q := s.rd Reg.SKN_QUANTUM
    if j.st = .running ∧ j.tstrict = false ∧ s.quarActive = false ∧ q ≠ 0 ∧ s.seqr.giving = none ∧ q ≤ (s.now - j.startTick).toNat then
      .next (s.beginSwitch .quantum none)
    else .next s

/-! ### Giving way (R104, R106, R152, R154). -/

/-- Strand `l` of the running context is drained and saved. -/
def State.savedAway (s : State) (j : Slot) (l : Nat) : Bool :=
  s.spnState (s.physOf l) == 0 && (s.spn (s.physOf l)).load == .none && (tget {} j.saved l).started

/-- Strand `l` of the running context has ended and its spindle is IDLE. -/
def State.endedAt (s : State) (l : Nat) : Bool := s.rbit (Reg.SPN_STRAND (s.physOf l)) 6 && s.spnState (s.physOf l) == 0

/-- What reached a drained spindle until it is left: counters raised, entries filled, and the receives still
posted; arrivals parked meanwhile are in the record already (R93, R275). -/
def State.keepAway (s : State) (j : Slot) (l : Nat) : Slot :=
  let ps := s.physOf l
  let x := s.spn ps
  let v := tget {} j.saved l
  if s.endedAt l then { j with saved := tset {} j.saved l (s.savedOf ps false) }
  else
    let y := { v.spn with counters := x.counters, cpoison := x.cpoison, sluice := x.sluice
                          ops := x.ops.filter (fun o => o.kind == .recv) }
    { j with saved := tset {} j.saved l { v with spn := y } }

/-- The running context leaves the spindles (R152): event 0x0325 with cause `cause`, and the slot to start next. -/
def State.leave (s : State) (cause : Nat) : State :=
  let old := s.runSlot
  let nx := s.chosen old
  let s := s.event 0x0325 devUnit 1 [(16, 1, old), (17, 1, nx.getD old), (18, 1, cause)]
  let s := s.wf Reg.SKN_STATUS 31 16 0
  let s := (List.range 12).foldl (fun s k => s.wr (Reg.SKN_DIGEST k) 0) s
  let s := { s with seqr := { s.seqr with giving := none, target := nx, lastSlot := old, positions := [] } }
  s.syncDet

/-- The running context has ended (R71, R152, R154, R370, R424). -/
def State.endContext (s : State) (j : Slot) : State :=
  let n := s.runSlot
  let t := s.tally j
  let s := s.modSlot n (fun j => { j with st := .ended, flags := t.1, counts := t.2 })
  let s := s.closeRecord n false (s.outDigest j) j.step.toNat
  let s := match s.reel.ckpt with
    | some k => if k.ctx = j.ctx.toNat then s.ckptFail 4 0 else s
    | none => s
  let s := if s.quarActive && s.quarCtx == j.ctx.toNat then s.quarEnd 1 0 else s
  s.leave 0

/-- A drained context is suspended (R152). -/
def State.suspend (s : State) (j : Slot) (cause : Nat) : State :=
  let j' := (List.range j.lcount).foldl (fun j l => s.keepAway j l) j
  (s.modSlot s.runSlot (fun _ => { j' with st := .suspended })).leave cause

/-- Whether the running context can leave now, and how; a switch asked for meanwhile reaches strands whose restore or
load has just ended (R109). -/
def State.giveWayStep (s : State) (j : Slot) : State :=
  let ls := (List.range j.lcount).filter s.lmapValid
  if j.st = .faulted then s.leave 1
  else if ls.all s.endedAt then s.endContext j
  else
    match s.seqr.giving with
    | some w =>
      if ls.all (fun l => s.endedAt l || s.savedAway j l) then s.suspend j (if w = .quantum then 3 else 2) else s.drainAll j
    | none => s

/-! ### Starting (R108, R152, R364, R411, R421, R437, R589). -/

/-- A resident context that may not start faults where it stands. -/
def State.cannotStart (s : State) (n code : Nat) (j : Slot) (data : List (Nat × Nat × Nat)) : State :=
  (s.eventCtx code devUnit 2 j.ctx.toNat data).faultCtx j.ctx.toNat code |>.modSlot n id

/-- A spindle that still holds a faulted context's state is aborted first (R101, R411). -/
def State.abortDump (s : State) (ps : Nat) : State :=
  let r := (s.spn ps).flushAll
  let s := s.setSpn ps { r.1 with load := .forced, loops := [], idleLeft := 0, drain := none, flushed := r.2 }
  (s.satField (Reg.SPN_FLUSH_CNT ps) 15 0 r.2).setSpnState ps 4

/-- Registers of a running context: status, digest, the tick it started (R157). -/
def State.nowRuns (s : State) (n : Nat) (j : Slot) : State :=
  let s := (s.wf Reg.SKN_STATUS 31 16 j.ctx.toNat).wf Reg.SKN_STATUS 11 8 n
  let s := (List.range 12).foldl (fun s k => s.wr (Reg.SKN_DIGEST k) (rdLE j.digest (4 * k) 4)) s
  let s := s.modSlot n (fun j => { j with st := .running, startTick := s.now, started := true })
  let s := { s with seqr := { s.seqr with target := none, lastSlot := n } }
  let s := if j.tstrict then
      (List.range 128).foldl (fun s ch => if (s.chan ch).refBank = 0 then s else s.setChan ch { s.chan ch with refBank := 0 }) s
    else s
  (s.poldersOf j).foldl (fun s p => s.addRan p j) s

/-- The first start on logical spindle `l`: the clean state of R589, the channels of the load with every inbound queue
empty (log 44). -/
def State.startStrand (s : State) (j : Slot) (words : List DWord) (l : Nat) : State :=
  let ps := s.physOf l
  let v := tget {} j.saved l
  let fresh : Saved := { step := j.job.startStep.toNat }
  let s := (s.putSavedRegs ps fresh).clearKeys (sramKey ps 0) (sramKey ps 0x3000000)
  let s := s.wr (Reg.SPN_DSP_KEPT ps) 0
  let x := (s.spn ps).clean words
  (s.setSpn ps { x with inq := v.spn.inq.map (fun q => (q.1, { q.2 with held := [] })), outq := v.spn.outq }).setSpnState ps 4

/-- The first start of a context (R152, R370, R437, R589). -/
def State.startFirst (s : State) (n : Nat) (j : Slot) : State :=
  let img := s.devRead .sequencer j.image.1 j.image.2 []
  let s := img.2.2.2
  let s := s.setSlot n (some { j with ckStart := s.now, owed := if j.ck.isSome then 1 else 0 })
  let s := (List.range j.lcount).foldl (fun s l => s.startStrand j ((imageStrand img.1 l).map (·.w)) l) s
  let s := (s.nowRuns n j).openRecord n j.step.toNat
  (s.payReleases j.ctx.toNat).syncDet

/-- A strand that comes back: its registers and what its record holds; operations an earlier context left in flight
on the spindle stay (R108). -/
def State.resumeStrand (s : State) (j : Slot) (l : Nat) : State :=
  let ps := s.physOf l
  let v := tget {} j.saved l
  let old := s.spn ps
  (s.putSavedRegs ps v).setSpn ps { v.spn.takeBack old with load := .none }

/-- A suspended context comes back; its spindles are restored by rows of their own (R108, R152, R437). -/
def State.startAgain (s : State) (n : Nat) (j : Slot) : State :=
  let s := s.payReleases j.ctx.toNat
  match s.slotOf n with
  | none => s
  | some j =>
    let s := (List.range j.lcount).foldl (fun s l => s.resumeStrand j l) s
    let pos := (List.range j.lcount).foldl (fun t l => let k := (tget {} j.saved l).skc; tset 0 t l (k - k % 256)) ([] : List (Nat × Nat))
    ({ s.nowRuns n j with seqr := { (s.nowRuns n j).seqr with positions := pos } } : State).syncDet

/-- What the command that started a context answers: CTX_SWITCH alone gives the context ID (R536, R539). -/
def State.startedReply (s : State) (ctx : Nat) : List Byte :=
  match s.cq.waits.find? (fun w => w.what == WaitFor.giveWay) with
  | some w => if w.rep.opcode = 0x0303 then toLE 2 ctx else []
  | none => []

/-- One step towards running the context of slot `n`: refused for good, waiting for its spindles or for alignment (R362, R378), or
started.  A word of its image that does not come back sound faults it (R247).  Where it cannot start, event 0x0325 with
cause 1 goes with the step to the next one: DESIGN CHOICE (log 159). -/
def State.startStep (s : State) (n : Nat) (f : Flips) : State :=
  match s.slotOf n with
  | none => s
  | some j =>
    let img := s.devRead .sequencer j.image.1 j.image.2 f
    let badWord := (List.range (j.image.2 / 8)).find? (fun i => img.2.1.testBit i)
    let pss := s.physList j.lcount
    let away (s : State) : State :=
      let nx := s.nextReady n
      let s : State := { s with seqr := { s.seqr with target := nx } }
      if nx.isNone then s.finish .giveWay stBAD_STATE []
      else s.event 0x0325 devUnit 1 [(16, 1, n), (17, 1, nx.getD n), (18, 1, 1)]
    if s.lCount < j.lcount then away (s.cannotStart n 0x080C j [(16, 2, j.ctx.toNat), (18, 1, s.lCount)])
    else if j.parkLost then away (s.cannotStart n 0x0705 j [(16, 2, j.ctx.toNat), (18, 1, 0), (19, 1, 2)])
    else if badWord.isSome then
      away (img.2.2.2.cannotStart n 0x0203 j [(16, 1, 0), (17, 4, badWord.getD 0)])
    else if pss.any (fun ps => s.spnState ps != 0) then s
    else if pss.any (fun ps => (s.spn ps).dump) then
      pss.foldl (fun s ps => if (s.spn ps).dump then s.abortDump ps else s) s
    else if s.clk.realign then s
    else if j.tstrict ∧ s.rbit Reg.DET_ALIGN 0 = false then { s with clk := { s.clk with realign := true } }
    else
      let s := if j.started then s.startAgain n j else s.startFirst n j
      s.finish .giveWay stOK (s.startedReply j.ctx.toNat)

/-- The sequencer, no context running, starts the one it was given. -/
def State.startChosen (s : State) (f : Flips) : State :=
  match s.seqr.target with
  | none => s
  | some n =>
    if s.devState = stService ∧ s.readyAt n = true then s.startStep n f
    else ({ s with seqr := { s.seqr with target := none } } : State).finish .giveWay stBAD_STATE []

/-- The outgoing context leaves where it can. -/
def State.giveWayRun (s : State) : State :=
  match s.runningSlot with
  | some j => s.giveWayStep j
  | none => s

/-- With no context running, the one chosen is started. -/
def State.startRun (s : State) (f : Flips) : State :=
  if s.runCtx ≠ 0 then s else if s.seqr.target.isNone then s.finish .giveWay stBAD_STATE [] else s.startChosen f

/-- CONTEXT_SWITCH_DRAINED (R152): the outgoing context leaves once every strand has ended or drained, and the next
READY context is started or restored. -/
def execContextSwitchDrained (s : State) (f : Flips := []) : Res := .next (s.giveWayRun.startRun f)

end Sys2Proof.Machine
end

