-- ==== Sys2Proof/Machine/SelfTest.lean ====
section
/-! DEFINITION. Test waves, transfers of a logical index, rolling tests and return tests
(spec/12_self_test_repair_ageing.md R379 to R399). -/

namespace Sys2Proof.Machine

/-! ### Outcomes (R380 to R383). -/

/-- DETAIL of a DRAM row (layer, bank, row) (R388). -/
def rowDetail (x : Nat × Nat × Nat) : Nat := x.2.1 % 8 * 2 ^ 12 + x.2.2

/-- Occasions of events 0x0801 and 0x0802. -/
def occStart : Nat := 0
def occRoll : Nat := 1
def occReturn : Nat := 2

/-- Lines of a bank fused bad, which take spare lines too (R381, R386). -/
def State.fusedLines (s : State) (ps bank : Nat) : Nat :=
  (List.range 512).countP (fun n => s.rbit (Reg.FUSE_MAP n) 15 && s.rf (Reg.FUSE_MAP n) 31 16 == unitId 7 (ps * 16 + bank))

/-- Failing lines that are not fused. -/
def State.newLines (s : State) (ps : Nat) (o : TestOut) : List (Nat × Nat) :=
  (o.lines.filter (fun x => decide (x.1 < 16) && !s.fusedBad (unitId 7 (ps * 16 + x.1)) x.2)).dedup

/-- A bank needs a 17th spare line (R381). -/
def State.linesOver (s : State) (ps : Nat) (o : TestOut) : Bool :=
  (List.range 16).any (fun b => decide (16 < (s.newLines ps o).countP (fun x => x.1 == b) + s.fusedLines ps b))

/-- The spindle's test is a fail. -/
def State.spinBad (s : State) (ps : Nat) (o : TestOut) : Bool := o.logic == 2 || o.march || s.linesOver ps o

/-- A marginal unit is reported to the suspect policy (R380, R428). -/
def State.reportMarginal (s : State) (unit : Nat) : State :=
  let k := unit / 2048
  if k = 0 then s.reportSpindle (unit % 2048) else if k = 9 then s.reportCore (unit % 2048)
  else if k = 11 then s.reportShared (unit % 2048) else s

/-- Test codes of event 0x0801 for the test that follows logic BIST. -/
def marchCode (unit : Nat) : Nat := let k := unit / 2048; if k = 3 then 3 else if k = 6 then 4 else 2

/-- TEST_RESULT and TEST_MISR of a spindle (R380, R405). -/
def State.noteResult (s : State) (o : TestOut) : State :=
  let ps := o.unit
  if ps < 18 then
    let out := if s.spinBad ps o then 3 else if o.logic = 1 then 2 else 1
    let b (x : Bool) (n : Nat) : Nat := if x then 2 ^ n else 0
    (s.wr (Reg.TEST_RESULT ps) (min (s.newLines ps o).length 255 * 256 + b (o.march || s.linesOver ps o) 4 + b (o.logic == 1) 3 +
      b (o.logic == 2) 2 + out)).wr64 (Reg.TEST_MISR_LO ps) o.misr
  else s

/-- Events of failing lines and rows at start-up, each its own unit (R386, R405). -/
def State.noteParts (s : State) (o : TestOut) : State :=
  let n := o.unit % 2048
  let s := if o.unit < 18 then
      (s.newLines n o).foldl (fun s x => s.event 0x0801 (unitId 7 (n * 16 + x.1)) 2 [(16, 1, 2), (18, 4, x.2)]) s else s
  if o.unit / 2048 = 3 then
    (o.rows.filter (fun x => !s.fusedBad (rowUnit n x.1 x.2.1) (rowDetail x))).foldl (fun s x =>
      s.event 0x0801 (rowUnit n x.1 x.2.1) 2 [(16, 1, 3), (18, 4, rowDetail x)]) s
  else s

/-- What a test records: events 0x0801 and 0x0802, TEST_RESULT and TEST_MISR (R380, R405).  The outcome of a unit fused
bad changes nothing else (R386). -/
def State.noteTest (s : State) (occ : Nat) (o : TestOut) : State :=
  let s := s.noteResult o
  if occ = occStart ∧ s.fusedBad o.unit 0 = true then s
  else
    let s := if o.logic = 2 then s.event 0x0801 o.unit 2 [(16, 1, 1), (17, 1, occ), (18, 4, o.detail)] else s
    let s := if o.march ∨ (o.unit < 18 ∧ s.linesOver o.unit o = true) ∨ (occ ≠ occStart ∧ o.unit / 2048 = 3 ∧ o.rows ≠ []) then
        s.event 0x0801 o.unit 2 [(16, 1, marchCode o.unit), (17, 1, occ), (18, 4, o.detail)] else s
    let s := if occ = occStart then s.noteParts o else s
    if o.logic = 1 then
      (s.event 0x0802 o.unit 1 [(17, 1, occ), (18, 2, s.rf Reg.TEST_CTL 15 8)]).reportMarginal o.unit
    else s

/-- A unit that has not ended its test within 500 ms has failed it (R379). -/
def lateOut (unit : Nat) : TestOut := if unit / 2048 = 3 ∨ unit / 2048 = 6 then { unit := unit, march := true } else { unit := unit, logic := 2 }

def testLimit : Nat := 50000000

/-! ### Start-up waves (R384, R385). -/

/-- Outcomes so far with one more: a unit tested in parts has the worst of its parts', and the signature of the first
that mismatched (R380, R385). -/
def mergeOut (l : List TestOut) (o : TestOut) : List TestOut :=
  match l.find? (fun x => x.unit == o.unit) with
  | none => l ++ [o]
  | some x => l.map (fun y => if y = x then { o with logic := max x.logic o.logic, march := x.march || o.march
                                                     lines := x.lines ++ o.lines, misr := if x.logic = 2 then x.misr else o.misr } else y)

/-- The present wave ends with these outcomes: units with no part still to run are judged, and the next wave or phase 8
starts. -/
def State.endWave (s : State) (outs : List TestOut) (late : Bool) : State :=
  match s.hlth.waves with
  | [] => s
  | w :: rest =>
    let one (u : Nat) : TestOut := (outs.find? (fun o => o.unit == u)).getD (if late then lateOut u else { unit := u })
    let all := (w.map one).foldl mergeOut s.hlth.outs
    let ended := all.filter (fun o => w.contains o.unit && rest.all (fun v => !v.contains o.unit))
    let s : State := { s with hlth := { s.hlth with waves := rest, waveAt := s.wall, outs := all } }
    let s := ended.foldl (fun s o => s.noteTest occStart o) s
    if rest = [] then ({ s with boot := { s.boot with at_ := s.wall } } : State).wf Reg.CMD_DEV_STATE 27 24 8 else s

/-- TEST_WAVE_DONE (R379, R385): what the units of the wave were found to be; a unit not named passed. -/
def execTestWaveDone (outs : List TestOut) (s : State) : Res := .next (s.endWave outs false)

/-! ### Moves of a logical index (R394). -/

def State.setMoves (s : State) (l : List Move) : State := { s with hlth := { s.hlth with moves := l } }

/-- A spare that gives a position back is reset to free; one fenced meanwhile stays so (R396, R399). -/
def State.freeSpare (s : State) (ps : Nat) : State := if s.spnState ps = 6 then s else s.initSpindle ps

/-- The map changes; a spare or a tested spindle is left as its move says (R393, R396, R398). -/
def State.moveUnits (s : State) (m : Move) : State :=
  match m.why with
  | .fence => s.fenceNow m.src
  | .rollOut =>
    let s := s.wf Reg.TEST_ROLL_ST 2 0 3
    let s := s.rebuild.event 0x0808 (unitId 0 m.src) 0 [(16, 1, 0), (17, 1, m.logical), (18, 1, m.dst)]
    (s.requestReset 1 (unitId 0 m.src) 4).2
  | .rollBack =>
    let s := { s with hlth := { s.hlth with holding := s.hlth.holding.erase m.dst } }
    (((s.freeSpare m.src).rebuild).event 0x0808 (unitId 0 m.dst) 0 [(16, 1, 1), (17, 1, m.logical), (18, 1, m.src)]).wf Reg.TEST_ROLL_ST 2 0 0
  | .back =>
    let s := { s with hlth := { s.hlth with holding := s.hlth.holding.erase m.dst } }
    (s.freeSpare m.src).rebuild

/-- A logical index moves: with its state where the running context uses it, else with none (R394). -/
def State.moveNow (s : State) (m : Move) : State :=
  let s := s.setMoves (s.hlth.moves.erase m)
  if s.usesIndex m.logical ∧ s.physOf m.logical = m.src then
    match s.runningSlot with
    | none => s.moveUnits m
    | some j =>
      let j := s.keepAway j m.logical
      let s := (s.setSlot s.runSlot (some j)).moveUnits m
      if s.lmapValid m.logical then s.resumeStrand j m.logical else s
  else s.moveUnits m

/-- At its section boundary the strand drains for the transfer and loads nothing (R23, R109). -/
def State.moveBoundary (s : State) (ps : Nat) : State :=
  let x := s.spn ps
  let d : Drain := { why := .transfer, scan := false, asked := s.now, point := false, ready := false }
  if x.drain.isSome then s
  else
    match x.load with
    | .draining => (s.setSpn ps { x with drain := some d }).setSpnState ps 3
    | .waiting => ((s.setSpn ps { x with drain := some d }).setSpnState ps 3).atBoundary ps
    | _ => s

/-- PHASE of a rolling test whose transfer has reached its boundary: 2 swapping out, 6 swapping back (R396). -/
def State.showSwap (s : State) (m : Move) : State :=
  if (s.spn m.src).drain.isNone then s
  else match m.why with
    | .rollOut => s.wf Reg.TEST_ROLL_ST 2 0 2
    | .rollBack => s.wf Reg.TEST_ROLL_ST 2 0 6
    | _ => s

/-- Traffic for a spindle is on a ring or waits at its stop: its transfer begins only after that has drained (R260). -/
def State.doorBusy (s : State) (ps : Nat) : Bool :=
  s.ring.door.any (fun d => d.1 == spindleStop ps) || s.out.any (fun m => match m with
    | .ring _ _ at_ f => f.load.isSome && f.dst == spindleStop ps && at_ != f.src
    | _ => false)

/-- SPARE_TRANSFER (R394): the move waiting for logical index `l`: at a section boundary the strand drains, and once
it is saved, or where nothing runs on the index, the index moves. -/
def execSpareTransfer (l : Fin 16) (s : State) : Res :=
  match s.hlth.moves.find? (fun m => m.logical == (l : Nat)) with
  | none => .next s
  | some m =>
    if s.usesIndex l = true ∧ s.doorBusy m.src = true then .next s else
    match s.runningSlot with
    | none => .next (s.moveNow m)
    | some j =>
      if s.usesIndex l = false ∨ s.physOf l ≠ m.src ∨ s.endedAt l = true ∨ s.savedAway j l = true then .next (s.moveNow m)
      else .next ((s.moveBoundary m.src).showSwap m)

/-! ### L rising (R394, R398). -/

/-- Spindles tested and waiting for L to rise: held ones that no transfer brings in. -/
def State.risers (s : State) : List Nat := s.hlth.holding.filter (fun ps => s.hlth.moves.all (fun m => m.dst != ps))

/-- MAP_RISE_APPLY (R394): with no context resident, spindles that wait enter the map. -/
def execMapRiseApply (s : State) : Res :=
  if s.anyResident ∨ s.risers = [] then .next s
  else .next ({ s with hlth := { s.hlth with holding := s.hlth.holding.filter (fun ps => !s.risers.contains ps) } } : State).rebuild

/-- A tested spindle comes back (R398 step 4, R394): at once, by transfer from the spare that stands in its home
position, or once no context is resident. -/
def State.comeBack (s : State) (ps : Nat) (why : MoveWhy) : State :=
  let s := s.initSpindle ps
  let held : State := { s with hlth := { s.hlth with holding := s.hlth.holding ++ [ps] } }
  let m := mapOf s.outOf
  if s.lCount < m.length ∧ s.anyResident then held
  else
    match posHome ps with
    | none => s.rebuild
    | some q =>
      match s.occupant q with
      | none => s.rebuild
      | some sp =>
        let mv : Move := { logical := s.logicalN sp, src := sp, dst := ps, why := why }
        if s.usesIndex mv.logical then held.setMoves (held.hlth.moves ++ [mv]) else (held.setMoves (held.hlth.moves ++ [mv])).moveNow mv

/-! ### Rolling test (R395 to R397, R399). -/

/-- Physical spindle `ps` takes its turn (R395). -/
def State.rollable (s : State) (ps : Nat) : Bool :=
  s.spnState ps != 6 && !s.fusedBad (unitId 0 ps) 0 && !s.hlth.holding.contains ps && (!isSpare ps || s.rbit Reg.TEST_CTL 1)

/-- The next spindle to test, from NEXT on. -/
def State.rollNext (s : State) : Option Nat := ((List.range 18).map (fun k => (s.rf Reg.TEST_ROLL_ST 20 16 + k) % 18)).find? s.rollable

/-- Why a due test waits: BLOCK of TEST_ROLL_ST (R395). -/
def State.rollBlock (s : State) (ps : Nat) : Nat :=
  if s.rbit Reg.TEST_CTL 0 = false then 4
  else if s.devState ≠ stService then 3
  else if s.tstrictRuns then 2
  else if s.spareFree (if ps ≤ 8 then 8 else 17) = false then 1
  else 0

/-- A rolling test starts: a spare is tested at once, any other spindle first gives its index to the spare. -/
def State.rollStart (s : State) (ps : Nat) : State :=
  let s := ((s.wf Reg.TEST_ROLL_ST 12 8 ps).wf Reg.TEST_ROLL_ST 20 16 ((ps + 1) % 18)).wf Reg.TEST_ROLL_ST 27 24 0
  let s := { s with hlth := { s.hlth with rollPend := false, rollAt := s.now } }
  match s.logicalOf ps with
  | none => ((((s.wipeSpindle ps).setSpnState ps 5).syncStop ps).rebuild).wf Reg.TEST_ROLL_ST 2 0 4
  | some l =>
    let m : Move := { logical := l, src := ps, dst := spareOf (s.posOf l), why := .rollOut }
    let s := (s.setMoves (s.hlth.moves ++ [m])).wf Reg.TEST_ROLL_ST 2 0 1
    if s.usesIndex l then s else s.moveNow m

/-- A test falls due, replacing one still waiting (R395). -/
def State.rollDueNow (s : State) : State :=
  let per := s.rd Reg.TEST_ROLL_PERIOD * 100000000
  if s.rbit Reg.TEST_CTL 0 = false ∨ s.rbit Reg.CMD_STRAPS 14 = true ∨ (s.now - s.hlth.rollDue).toNat < per then s
  else
    let s := if s.hlth.rollPend then
        let ps := (s.rollNext).getD 0
        (s.event 0x0809 (unitId 0 ps) 1 [(16, 1, 1)]).wf Reg.TEST_ROLL_ST 20 16 ((ps + 1) % 18)
      else s
    { s with hlth := { s.hlth with rollPend := true, rollDue := s.hlth.rollDue + BitVec.ofNat 64 per } }

/-- ROLL_TEST_DUE (R395): a rolling test falls due; the one that waits starts once nothing blocks it. -/
def execRollTestDue (s : State) : Res :=
  let s := s.rollDueNow
  if s.hlth.rollPend = false ∨ s.rf Reg.TEST_ROLL_ST 2 0 ≠ 0 then .next s
  else
    match s.rollNext with
    | none => .next s
    | some ps =>
      let b := s.rollBlock ps
      if b = 0 then .next (s.rollStart ps) else .next (s.wf Reg.TEST_ROLL_ST 27 24 b)

/-- The rolling test of phase 4 ends (R397, R399). -/
def State.rollEnd (s : State) (o : TestOut) : State :=
  let ps := s.rf Reg.TEST_ROLL_ST 12 8
  let s := (s.sat Reg.TEST_ROLL_DONE 1).noteTest occRoll o
  let s := (s.newLines ps o).foldl (fun s x => s.softCreate (unitId 7 (ps * 16 + x.1)) x.2) s
  if s.spinBad ps o then
    ((((s.sat Reg.TEST_ROLL_FAIL 1).softCreate (unitId 0 ps) 0).setSpnState ps 6).syncStop ps).rebuild.wf Reg.TEST_ROLL_ST 2 0 0
  else if s.spnState ps = 6 then s.wf Reg.TEST_ROLL_ST 2 0 0
  else if isSpare ps ∨ s.spnState (if ps ≤ 8 then 8 else 17) = 6 then ((s.initSpindle ps).rebuild).wf Reg.TEST_ROLL_ST 2 0 0
  else
    let s := { s with hlth := { s.hlth with rollAt := s.now } }
    (s.wf Reg.TEST_ROLL_ST 2 0 5).comeBack ps .rollBack

/-- ROLL_TEST_DONE (R396, R397). -/
def execRollTestDone (o : TestOut) (s : State) : Res :=
  if s.rf Reg.TEST_ROLL_ST 2 0 = 4 ∧ o.unit = unitId 0 (s.rf Reg.TEST_ROLL_ST 12 8) then .next (s.rollEnd o) else .next s

/-- ROLL_WAIT_TIMEOUT (R396): no boundary within TEST_ROLL_WAIT. -/
def execRollWaitTimeout (s : State) : Res :=
  let ph := s.rf Reg.TEST_ROLL_ST 2 0
  let ps := s.rf Reg.TEST_ROLL_ST 12 8
  if (ph ≠ 1 ∧ ph ≠ 5) ∨ (s.now - s.hlth.rollAt).toNat < s.rd Reg.TEST_ROLL_WAIT then .next s
  else
    match s.hlth.moves.find? (fun m => decide (m.why = .rollOut ∨ m.why = .rollBack)) with
    | none => .next s
    | some m =>
      if (s.spn m.src).drain.isSome then .next s
      else
        let s := (s.wf Reg.TEST_ROLL_ST 2 0 0).event 0x0809 (unitId 0 ps) 1 [(16, 1, if ph = 1 then 2 else 3)]
        if ph = 1 then .next (s.setMoves (s.hlth.moves.erase m))
        else .next (s.setMoves (s.hlth.moves.map (fun x => if x = m then { m with why := .back } else x)))

/-! ### Return tests (R398). -/

/-- Row repairs a channel's test calls for: the state, and whether one could not be made (R382). -/
def State.repairRows (s : State) (ch : Nat) (rows : List (Nat × Nat × Nat)) (fuse : Bool) : State × Bool :=
  rows.foldl (fun (a : State × Bool) x =>
    let r := a.1.startRepair ch x.1 x.2.1 x.2.2 fuse
    match (r.1.chan ch).copies.find? (fun k => k.layer == x.1 && k.bank == x.2.1 && k.row == x.2.2) with
    | none => (r.1, a.2 || r.2.isSome)
    | some k =>
      let s := r.1.setChan ch { r.1.chan ch with copies := (r.1.chan ch).copies.erase k }
      let s := (s.mapRow ch k).syncSpares ch
      (s.event 0x0204 (rowUnit ch k.layer k.bank) 1 [(16, 2, k.row), (18, 1, k.bank), (19, 1, k.spare), (20, 1, if fuse then 1 else 0)],
        a.2)) (s, false)

/-- A channel in INIT has every word written as zero and becomes READY (R242). -/
def State.zeroChan (s : State) (ch : Nat) : State :=
  let s := s.clearKeys (dramKey ch 0) (dramKey ch 0 + 2 ^ 31)
  ((s.wf (Reg.MEM_CH_STAT ch) 2 0 2).wr (Reg.MEM_SCRUB_POS ch) 0).wf (Reg.MEM_CH_CTL ch) 0 0 0

def State.dropReturn (s : State) (u : Nat) : State :=
  { s with hlth := { s.hlth with returning := s.hlth.returning.filter (fun r => r.unit != u) } }

/-- A return test ends (R398 steps 3 to 5). -/
def State.returnEnd (s : State) (o : TestOut) : State :=
  let u := o.unit
  let k := u / 2048
  let n := u % 2048
  let s := (s.dropReturn u).noteTest occReturn o
  if k = 0 then
    if s.spinBad n o ∨ s.spnState n = 6 then (((s.setSpnState n 6).syncStop n).rebuild).finish (.returning u) stHW_FAULT []
    else
      let s := (s.newLines n o).foldl (fun s x => s.softCreate (unitId 7 (n * 16 + x.1)) x.2) s
      let s := (s.softRemove u 0).comeBack n .back
      s.finish (.returning u) (if s.risers.contains n then stACCEPTED else stOK) []
  else if k = 3 then
    let rows := o.rows.filter (fun x => (s.repairEntry n x.1 x.2.1 x.2.2).isNone)
    let r := s.repairRows n rows false
    if o.march || r.2 then r.1.finish (.returning u) stHW_FAULT []
    else
      let s := rows.foldl (fun s x => s.softCreate (rowUnit n x.1 x.2.1) (rowDetail x)) (r.1.softRemove u 0)
      (((s.wf (Reg.MEM_CH_STAT n) 2 0 1).zeroChan n).syncDgChan).finish (.returning u) stOK []
  else if k = 5 then
    if o.march then s.finish (.returning u) stHW_FAULT []
    else
      let s := s.softRemove u 0
      let hs := if n < 16 then [2 * n, 2 * n + 1] else [n - 16]
      let s := hs.foldl (fun s h =>
        if h % 2 = 0 ∨ bitOf (s.rd (Reg.PORT_CTL (h / 2))) 3 = true then (s.wf (Reg.PORT_HCTL (h / 2) (h % 2)) 0 0 1).retrain h else s) s
      s.finish (.returning u) stOK []
  else if k = 9 then
    if o.logic = 2 then s.finish (.returning u) stHW_FAULT []
    else ((s.softRemove u 0).wf Reg.MGMT_CORE_ST n n 1).finish (.returning u) stOK []
  else s.finish (.returning u) stHW_FAULT []

/-- The unit is in its return test: a spindle once its reset has completed. -/
def State.testing (s : State) (r : Returning) : Bool := !decide (r.unit < 18) || s.spnState r.unit == 5

/-- RETURN_TEST_DONE (R398). -/
def execReturnTestDone (o : TestOut) (s : State) : Res :=
  if s.hlth.returning.any (fun r => r.unit == o.unit && s.testing r) then .next (s.returnEnd o) else .next s

/-- TEST_TIMEOUT (R379): a test has run for 500 ms; of a wave, the units `outs` have ended and the others have failed. -/
def execTestTimeout (outs : List TestOut) (s : State) : Res :=
  if s.hlth.waves ≠ [] ∧ testLimit ≤ (s.wall - s.hlth.waveAt).toNat then .next (s.endWave outs true)
  else if s.rf Reg.TEST_ROLL_ST 2 0 = 4 ∧ testLimit ≤ (s.now - s.hlth.rollAt).toNat then
    .next (s.rollEnd (lateOut (unitId 0 (s.rf Reg.TEST_ROLL_ST 12 8))))
  else
    match s.hlth.returning.find? (fun r => s.testing r && decide (testLimit ≤ (s.now - r.start).toNat)) with
    | some r => .next (s.returnEnd (lateOut r.unit))
    | none => .next s

end Sys2Proof.Machine
end

