-- ==== Sys2Proof/Machine/Ageing.lean ====
section
/-! DEFINITION. Ageing readings, raises, end of life and powered-on time
(spec/12_self_test_repair_ageing.md R400 to R404). -/

namespace Sys2Proof.Machine

/-! ### End of life (R403). -/

/-- Fraction bits of the logarithms. -/
def lgF : Nat := 100

/-- Bits of a base-2 logarithm's fraction by squaring; `m` in [2^160, 2^161). -/
def lgBits : Nat → Nat → Nat → Nat
  | 0, _, acc => acc
  | n + 1, m, acc =>
    let q := m * m / 2 ^ 160
    if 2 ^ 161 ≤ q then lgBits n (q / 2) (2 * acc + 1) else lgBits n q (2 * acc)

/-- log2 of a positive number, scaled by 2^100. -/
def lg2 (n : Nat) : Int := (n.log2 * 2 ^ lgF + lgBits lgF (n * 2 ^ 160 / 2 ^ n.log2) 0 : Nat)

/-- 2 to a fraction below 1 of `lgF` bits, scaled by 2^160: the product of the roots its bits name. -/
def expBits : Nat → Nat → Nat → Nat → Nat
  | 0, _, _, acc => acc
  | n + 1, x, c, acc =>
    let c := isqrt (c * 2 ^ 160)
    expBits n x c (if x.testBit n then acc * c / 2 ^ 160 else acc)

/-- The end of life in hours from points (hours, slack loss) and k_v in thousandths: the fit of R403 evaluated exactly and
rounded to FP64 once (log 67). -/
def eolOf (pts : List (Nat × Nat)) (kv : Nat) : Nat :=
  let n : Int := pts.length
  if (pts.map (·.1)).dedup.length < 3 then 0xFFFFFFFF
  else if kv = 0 then 0
  else
    let xs := pts.map (fun p => lg2 p.1)
    let ys := pts.map (fun p => lg2 p.2)
    let sx := xs.sum
    let sy := ys.sum
    let num := n * ((xs.zip ys).map (fun p => p.1 * p.2)).sum - sx * sy
    let den := n * (xs.map (fun x => x * x)).sum - sx * sx
    let b : Int × Int := if 20 * num < den then (1, 20) else if den < num then (1, 1) else (num, den)
    -- log2 of dlim / a, then divided by b
    let la := (sy * b.2 - sx * b.1) / (n * b.2)
    let e := ((lg2 (3 * kv) - lg2 50 - la) * b.2) / b.1
    let w := e / 2 ^ lgF
    if 33 ≤ w then 4294967294
    else if w < 0 then 0
    else
      let m := expBits lgF (e % 2 ^ lgF).toNat (2 * 2 ^ 160) (2 ^ 160)
      let r := rnd53 (m * 2 ^ w.toNat) (2 ^ 160)
      min (r.1 / r.2) 4294967294

/-! ### Readings (R400 to R404). -/

def State.setAge (s : State) (d : Nat) (a : Age) : State := { s with hlth := { s.hlth with ages := tset {} s.hlth.ages d a } }

/-- The raise a slack loss calls for, in mV (R401). -/
def raiseOf (ds kv : Nat) : Nat := 10 * ((100 * ds + kv - 1) / kv)

/-- The raise of a domain would exceed its budget, or its maximum voltage. -/
def State.overBudget (s : State) (d v : Nat) : Bool :=
  decide (60 < v) || decide (maxMv d < s.planMv d s.aMhz - s.rf (Reg.HLTH_AGE d) 7 0 + v)

/-- A budget is exceeded (R402): the maximum clock steps down, or at 250 MHz the domain is reported. -/
def State.budgetSpent (s : State) (d : Nat) : State :=
  if 250 < s.fmax then
    { s with hlth := { s.hlth with fmaxPend := some (s.fmax - 25, d), refit := List.range 24 } }
  else (s.event 0x0905 (domUnit d) 2 []).reportDomain d

/-- A raise is asked for: it never falls, but for the reading after a step-down. -/
def State.wantRaise (s : State) (d v : Nat) : State :=
  let a := tget {} s.hlth.ages d
  let old := s.rf (Reg.HLTH_AGE d) 7 0
  let falls := s.hlth.refit.contains d
  let v := if falls then v else max old v
  let s := { s with hlth := { s.hlth with refit := s.hlth.refit.filter (fun x => x != d) } }
  if s.overBudget d v then s.budgetSpent d
  else if v = old then s.setAge d { a with pend := none }
  else s.setAge d { a with pend := some v }

/-- HLTH_EOL, and event 0x0903 once per domain per start-up (R403). -/
def State.judgeEol (s : State) (d : Nat) : State :=
  let a := tget {} s.hlth.ages d
  let e := eolOf a.points a.kv
  let s := s.wr (Reg.HLTH_EOL d) e
  if e = 0xFFFFFFFF ∨ a.warned = true ∨ s.rd Reg.HLTH_EOL_WARN + s.poh / 3600 ≤ e then s
  else (s.setAge d { a with warned := true }).event 0x0903 (domUnit d) 1 [(16, 4, e)]

/-- One domain's monitors, five readings each (R400, R401); a frozen domain keeps its plan. -/
def State.readDomain (s : State) (d : Nat) (mons : List (List Int)) : State :=
  let a := tget {} s.hlth.ages d
  if d = 10 ∨ d = 11 ∨ 24 ≤ d ∨ a.baseline = [] then s
  else
    let meds := (mons.zip a.baseline).map (fun p => (medianOf p.1, p.2))
    let bad (p : Int × Int) : Bool := decide (p.2 + 100 < p.1) || decide (p.1 < p.2 - 500)
    let s := (meds.filter bad).foldl (fun s _ => s.event 0x0904 (domUnit d) 1 [(16, 1, 1)]) s
    let good := meds.filter (fun p => !bad p)
    if good.isEmpty then s
    else
      let ds := (good.map (fun p => (p.2 - p.1).toNat)).foldl max 0
      let s := s.wf (Reg.HLTH_AGE d) 19 8 ds
      let t := s.poh / 3600
      let pts := if 0 < ds ∧ 1 ≤ t then (a.points ++ [(t, ds)]).drop ((a.points.length + 1) - 32) else a.points
      let s := s.setAge d { a with points := pts }
      (if a.frozen then s else s.wantRaise d (raiseOf ds a.kv)).judgeEol d

/-- One clock region's oscillator (R400). -/
def State.readOsc (s : State) (r c : Nat) : State :=
  let b := tget 0 s.hlth.roBase r
  if 64 ≤ r ∨ b = 0 then s
  else if b < 4 * (c - b) ∨ b < 4 * (b - c) then s.event 0x0904 (unitId 10 r) 1 [(16, 1, 2)]
  else s.wr (Reg.HLTH_RO r) c

/-- AGEING_READING (R400 to R404): slack readings in ps by domain, five of each of its four monitors, and oscillator
counts by clock region. -/
def execAgeingReading (mons : List (Nat × List (List Int))) (osc : List (Nat × Nat)) (s : State) : Res :=
  let s := mons.foldl (fun s m => s.readDomain m.1 m.2) s
  let s := (osc.foldl (fun s o => s.readOsc o.1 o.2) s).syncPend
  .next (if s.runCtx = 0 then s.applyAge else s)

/-- DEFERRED_CHANGE_APPLY (R364, R404): with no TSTRICT context running, the changes that waited for it apply. -/
def execDeferredChangeApply (s : State) : Res := if s.tstrictRuns then .next s else .next s.undefer.applyAge

/-- POH_SAVE (R406, R564): every hour the powered-on seconds are saved. -/
def execPohSave (s : State) : Res :=
  if (s.now - s.hlth.pohAt).toNat < 360000000000 then .next s
  else
    let p := s.poh
    let at_ := s.hlth.pohAt + BitVec.ofNat 64 ((p - s.hlth.pohSaved.toNat) * 100000000)
    .next ({ s with hlth := { s.hlth with pohSaved := BitVec.ofNat 64 p, pohAt := at_ } } : State).saveAge

end Sys2Proof.Machine
end

