-- ==== Sys2Proof/Machine/ModuleRows.lean ====
section
/-! DEFINITION. The module's power enable, power groups, input, independent trip, I3C target and flash sideband
(spec/15_clocks_power.md R467, R468, R470; spec/19_module.md R572, R573, R581 to R585). -/

namespace Sys2Proof.Machine

/-! ### Power groups (R467). -/

/-- Domains of a power-up group. -/
def groupDoms (g : Nat) : List Nat :=
  match g with
  | 1 => [0]
  | 2 => [1, 2, 22]
  | 3 => [10, 11]
  | 4 => [4, 6, 7, 8, 9]
  | 5 => [3, 5]
  | 6 => [23]
  | 7 => [12, 13, 14, 15, 16, 17, 18, 19, 20, 21]
  | _ => []

/-- POWER_GROUP_GOOD (R467): the regulators of the group coming up report good, and the next group starts; D23 stays off
while STRAP_SAFE is asserted. -/
def execPowerGroupGood (s : State) : Res :=
  let g := s.pwr.group + 1
  if s.off ∨ s.pwr.enabled = false ∨ 7 < g then .next s
  else
    let s := { s with pwr := { s.pwr with group := g, groupAt := s.wall } }
    .next ((groupDoms g).foldl (fun s d => if d = 23 ∧ s.rbit Reg.CMD_STRAPS 14 = true then s else s.setDom d true) s)

/-- POWER_GROUP_TIMEOUT (R467): a group not good within 10 ms leaves the rest off and asserts ALERT_N; event 0x0109 once
D00 runs. -/
def execPowerGroupTimeout (s : State) : Res :=
  let g := s.pwr.group + 1
  if s.off ∨ s.pwr.enabled = false ∨ 7 < g ∨ (s.wall - s.pwr.groupAt).toNat < 1000000 then .next s
  else
    let s := ({ s with pwr := { s.pwr with enabled := false } } : State).alertOn
    .next (if g = 1 then s else s.event 0x0109 (domUnit ((groupDoms g).headD 0)) 1 [(16, 1, 5)])

/-! ### Power-up and power-down (R35, R38, R468, R572, R573). -/

/-- The state in which the die has no power: everything but flash, fuses and the module's own is lost. -/
def State.dark (s : State) : State :=
  let s := s.chipReset
  { s with off := true, domsOff := 0xFFFFFF, pwr := {}, modl := { s.modl with i3c := none }, rst := { s.rst with resets := [], pinLow := false } }

/-- The domains go down in order (R468), breach notices leaving first while D23 holds (R343). -/
def State.powerDown (s : State) : State := if s.off then s else (if s.domOn 23 then s.breachNotice 4 else s).dark

/-- PWR_EN_RISE (R572): a rise that has held for 100 µs; `mv` is the sequencer's own measurement of VIN, `mated` that of
MOD_PRESENT_N.  In OFF it counts once PWR_EN has been low for 10 ms.  The cause
of the state change, which no chapter gives, is 0.  DESIGN CHOICE (log 147). -/
def execPwrEnRise (mv : Nat) (mated : Bool) (s : State) : Res :=
  let low := decide (s.modl.en = false ∧ 1000000 ≤ (s.wall - s.modl.enAt).toNat)
  let t := { s with modl := { s.modl with en := true, enAt := s.wall, latched := s.modl.latched && !low } }
  if s.off ∧ low ∧ 40000 ≤ mv ∧ mv ≤ 59500 ∧ mated then
    .next (({ t.chipReset with off := false, domsOff := 0xFFFFFE, pwr := { groupAt := s.wall } } : State).stampDev 0 0)
  else .next t

/-- PWR_EN_FALL (R468, R572): a fall that has held for 100 µs takes the device to OFF. -/
def execPwrEnFall (s : State) : Res :=
  .next { s.powerDown with modl := { s.powerDown.modl with en := false, enAt := s.wall } }

/-- MODULE_THERMAL_TRIP (R573): the die diode reads 110 °C or more; every domain goes, without order, and the module
latches off. -/
def execModuleThermalTrip (s : State) : Res :=
  let t := if s.off then s else s.dark
  .next { t with modl := { t.modl with latched := true } }

/-- The median of up to five samples. -/
def medianN (l : List Nat) : Nat := ((l.mergeSort (fun a b => decide (a ≤ b)))[l.length / 2]?).getD 0

/-- INPUT_SAMPLE (R470): the input voltage in mV at a reference tick. -/
def execInputSample (mv : Nat) (s : State) : Res :=
  if s.off then .next s
  else
    let vin := (s.pwr.vin ++ [mv]).drop ((s.pwr.vin.length + 1) - 5)
    let m := medianN vin
    let out := if m < 40000 ∨ 59500 < m then s.pwr.outFor + 1 else 0
    let exc := if m < 42000 ∨ 58000 < m then s.pwr.excFor + 1 else 0
    let s := ({ s with pwr := { s.pwr with vin := vin, outFor := out, excFor := exc } } : State).wf Reg.PWR_IN 31 16 (m / 10)
    let s := if exc = 5000 then s.event 0x010A devUnit 1 [(16, 2, m / 10)] else s
    .next (if 5000 ≤ out then s.powerDown else s)

/-! ### I3C (R581, R582). -/

/-- The telemetry window: its version, the copies of the last refresh, and the refresh count. -/
def State.window (s : State) : List Byte :=
  toLE 4 1 ++ (List.range 6).flatMap (fun k => toLE 4 ((s.pwr.copies[k]?).getD 0).toNat) ++ toLE 4 s.pwr.copyNo

/-- The module answers at an address: its dynamic one, or 0x4B while it has none. -/
def State.i3cAt (s : State) (a : Nat) : Bool := s.domOn 0 && (s.modl.i3c.getD 0x4B == a)

/-- I3C_READ (R581, R582): a private write of one offset byte, then a read of `n` bytes of one snapshot, which runs on in
zeros past the window. -/
def execI3cRead (a : BitVec 7) (o : Byte) (n : Nat) (s : State) : Res :=
  if s.i3cAt a.toNat then .next (s.send (.i3c (sliceB s.window o.toNat n))) else .next s

/-- I3C_DYNAMIC_ADDRESS (R581): SETDASA or ENTDAA. -/
def execI3cDynamicAddress (a : BitVec 7) (s : State) : Res :=
  if s.domOn 0 then .next { s with modl := { s.modl with i3c := some a.toNat } } else .next s

/-! ### The flash sideband (R585). -/

/-- Bytes of the OS image partition. -/
def imagePart : Nat := 0x18000000

/-- FLASH_SIDEBAND_CMD (R585): live while PWR_EN is low and 3V3_AUX (`aux`) is in range; a program clears bits of one
256-byte page, an erase sets 64 KiB (log 68).  The flash's status byte is a free value (log 6). -/
def execFlashSidebandCmd (c : SpiCmd) (aux : Bool) (s : State) : Res :=
  if s.modl.en = true ∨ aux = false then .next s
  else
    match c with
    | .read a n =>
      .next (s.send (.spi ((List.range n).map (fun i => if a + i < imagePart then s.flashAt (flImage + a + i) else 0xFF))))
    | .program a d =>
      if imagePart ≤ a then .next s
      else
        .next ((d.zipIdx).foldl (fun s x =>
          let k := flImage + a - a % 256 + (a + x.2) % 256
          s.flashPut k [s.flashAt k &&& x.1]) s)
    | .erase a =>
      if imagePart ≤ a then .next s
      else
        let lo := flImage + a - a % 65536
        .next { s with flash := s.flash.filter (fun c => decide (c.1 < lo ∨ lo + 65536 ≤ c.1)) }
    | .status => let r := s.free; .next (r.2.send (.spi (toLE 1 r.1)))

end Sys2Proof.Machine
end

