-- ==== Sys2Proof/Machine/Views.lean ====
section
/-! DEFINITION. Register access: the value a read gives, with the fields that show present state, what a read clears and
latches, and what a write changes (spec/00_scope.md R8, R9; spec/01_architecture.md R30 to R34; the register chapters). -/

namespace Sys2Proof.Machine

/-! ### Fields that show present state. -/

def boolN (b : Bool) : Nat := if b then 1 else 0

/-- Index of an array register: `base` its first element. -/
def idxOf (a base stride n : Nat) : Option Nat :=
  if base ≤ a ∧ (a - base) % stride = 0 ∧ (a - base) / stride < n then some ((a - base) / stride) else none

/-- Operations in flight of a spindle that were issued in generation `g` (R113). -/
def Spn.genOps (x : Spn) (g : Nat) : Nat := (x.inFlight.filter (fun o => o.gen.toNat == g)).length

/-- The context a spindle serves: the running one, where the spindle carries one of its strands. -/
def State.ctxOn (s : State) (ps : Nat) : Nat :=
  match s.runningSlot, s.logicalOf ps with
  | some j, some l => if l < j.lcount then j.ctx.toNat else 0
  | _, _ => 0

/-- The rows of a unit whose state is not empty, bit n for row state n. -/
def SeqUnit.rowMask (q : SeqUnit) : Nat := (q.rows.foldl (fun a r => a ||| 2 ^ r.1) 0) % 65536

def outStCode : ChanSt → Nat
  | .unbound => 0 | .opened => 1 | .ended => 1 | .closed => 2

/-- SPN registers (R113, R158, R194, R218). -/
def State.viewSpn (s : State) (ps a v : Nat) : Nat :=
  let x := s.spn ps
  if a = Reg.SPN_STATE ps then setBits v 31 16 (s.ctxOn ps)
  else if a = Reg.SPN_OPS ps then setBits v 10 0 x.inFlight.length
  else if a = Reg.SPN_STRAND ps then
    setBits (setBits (setBits v 12 8 x.trips.length) 5 5 (s.rf (Reg.SPN_STATE ps) 13 13)) 2 0 x.loops.length
  else if a = Reg.SPN_DSP_STAT ps then
    (List.range 4).foldl (fun v k => setBits v (4 + k) (4 + k) (boolN (tget {} x.dsp.phases (2 + k)).done)) (setBits v 2 0 x.dsp.jobs.length)
  else if a = Reg.SPN_DSP_TOK ps then setBits v 15 0 x.dsp.p
  else if a = Reg.SPN_SEQ_ROWS ps then (tget {} x.seqs 33).rowMask * 65536 + (tget {} x.seqs 32).rowMask
  else if a = Reg.SPN_SEQ_ENG ps then (tget {} x.seqs 33).queue.length % 8 * 256 + (tget {} x.seqs 32).queue.length % 8
  else
    match idxOf a (Reg.SPN_GEN_OPS ps 0) 4 2 with
    | some k => x.genOps (2 * k + 1) * 65536 + x.genOps (2 * k)
    | none =>
      match idxOf a (Reg.SPN_SLUICE_ST ps 0) 4 4 with
      | some k =>
        let e := x.sluice.filter (fun e => e.sl == k)
        setBits (setBits v 14 8 (e.countP (fun e => !e.filled))) 6 0 (e.countP (·.filled))
      | none =>
        match idxOf a (Reg.SPN_LOOP_ITER ps 0) 4 4 with
        | some d => (((x.loops.reverse)[d]?).map (fun (e : LoopEnt) => e.iter.toNat)).getD 0
        | none =>
          match idxOf a (Reg.SPN_LOOP_TRIP ps 0) 4 4 with
          | some d => (((x.loops.reverse)[d]?).map (fun (e : LoopEnt) => e.trip.toNat)).getD 0
          | none => v

/-- Channel registers (R283): they describe the context running on the spindle and read zero when none runs. -/
def State.viewChn (s : State) (a v : Nat) : Nat :=
  let d := a - Reg.CHN_OUT_ST 0 0
  let ps := d % 0x10000 / 1024
  let c := d % 1024 / 16
  let x := s.spn ps
  if a < Reg.CHN_OUT_ST 0 0 then v
  else if s.ctxOn ps = 0 then 0
  else if a = Reg.CHN_OUT_ST ps c then
    let o := tget {} x.outq c
    o.seq.toNat * 65536 + o.credits * 256 + boolN o.strict * 4 + outStCode o.st
  else if a = Reg.CHN_IN_ST ps c then
    let q := tget {} x.inq c
    q.head.toNat * 65536 + q.held.length * 256 + inCode q.st
  else v

/-- Counted resets within the window before now (R419). -/
def State.pCount (s : State) : Nat :=
  let w := s.rf Reg.RST_WD 31 16 * 100000000
  (s.countedTicks.filter (fun t => decide (t ≠ 0 ∧ s.now.toNat < t + w))).length

/-- The sequencer's code of SKN_STATUS (R157); a switch shows before a load that validates meanwhile: DESIGN CHOICE (log
160). -/
def State.seqCode (s : State) : Nat :=
  let run := decide (s.runCtx ≠ 0)
  if s.seqr.giving.isSome || s.seqr.target.isSome then 2
  else if s.cq.loading.isSome then (if run then 4 else 3)
  else boolN run

/-- The command processor's registers (R511, R548). -/
def State.viewCmd (s : State) (a v : Nat) : Nat :=
  if a = Reg.CMD_QUEUE then setBits v 6 0 s.cq.queue.length
  else if a = Reg.CMD_LCP_ST then
    setBits (setBits (setBits v 31 21 (s.cq.replies.headD []).length) 20 18 s.cq.replies.length) 17 7 s.cq.asm.length
  else if a = Reg.CMD_LCP_OUT then ((s.cq.replies.headD []).headD 0).toNat
  else if a = Reg.SEC_SESS then
    let ex := s.cq.sessions.filter (·.expert)
    s.cq.sessions.length % 16 + boolN (!ex.isEmpty) * 16 + boolN (ex.any (fun x => x.port == 1)) * 32
  else
    match idxOf a (Reg.CMD_LEASE 0) 4 4 with
    | some k =>
      match s.leaseOf k with
      | some l => 2 ^ 31 + l.key % 8 * 65536 + min 4095 ((l.expiry - s.now).toNat / 100000000)
      | none => 0
    | none => v

/-- The value a read of a register gives, but for a latched high word. -/
def State.view (s : State) (a : Nat) : Nat :=
  let v := s.rd a
  if 0x2000000 ≤ a ∧ a < 0x3200000 then s.viewSpn ((a - 0x2000000) / 0x100000) a v
  else if 0x4100000 ≤ a ∧ a < 0x4200000 then s.viewChn a v
  else if 0x7100000 ≤ a then s.viewCmd a v
  else if a = Reg.SKN_STATUS then setBits v 2 0 s.seqCode
  else if a = Reg.COLL_STAT then setBits v 6 0 s.coll.active.length
  else if a = Reg.RST_STAT then
    (List.range 4).foldl (fun v l => setBits v l l (boolN (s.rst.resets.any (fun r => r.level == l + 1)))) (setBits v 15 8 s.pCount)
  else if a = Reg.MGMT_CORE_RUN then s.rf Reg.MGMT_CORE_ST 15 0
  else if a = Reg.HLTH_POH_LO then s.poh % 2 ^ 32
  else if a = Reg.HLTH_POH_HI then s.poh / 2 ^ 32
  else v

/-! ### Reads (R8, R32, R483). -/

/-- Low words of 64-bit counters, with their arrays. -/
def lowWords : List (Nat × List (Nat × Nat)) := [
  (0x7200008, []),
  (0x2000008, [(18, 0x100000)]),
  (0x2000010, [(18, 0x100000)]),
  (0x4000008, []),
  (0x4000018, []),
  (0x2000530, [(18, 0x100000)]),
  (0x4200080, [(4, 0x8)]),
  (0x4100008, []),
  (0x5100100, [(16, 0x10000)]),
  (0x5100108, [(16, 0x10000)]),
  (0x6100000, []),
  (0x6100008, []),
  (0x400200, [(18, 0x8)]),
  (0x500000, []),
  (0x200100, [(8, 0x8)]),
  (0x200300, [(4, 0x8)]),
  (0x6200008, []),
  (0x6200010, []),
  (0x6200058, []),
  (0x8, []),
  (0x10, []),
  (0x7000118, [])]

def isLow (a : Nat) : Bool := lowWords.any (fun r => decide (r.1 ≤ a) && dimsHit r.2 (a - r.1))

/-- The fields of a register with access code `c` cleared. -/
def State.clearFields (s : State) (a : Nat) (c : Access) : State :=
  match regRow a with
  | none => s
  | some r => r.fields.foldl (fun s f => if f.acc = c then s.wf a f.hi f.lo 0 else s) s

/-- A peak that a read has cleared starts again from the present count (log 144). -/
def State.peakNow (s : State) (a : Nat) : State :=
  if a = Reg.CMD_QUEUE then s.peakQueue
  else if a = Reg.FAB_TRK then s.syncTrk
  else if 0x2000000 ≤ a ∧ a < 0x3200000 then
    let ps := (a - 0x2000000) / 0x100000
    if a = Reg.SPN_MS_HWM ps then s.storeMarks ps
    else if a = Reg.SPN_OPS ps ∨ (List.range 4).any (fun n => a == Reg.SPN_SLUICE_ST ps n) then s.peaks ps
    else s
  else s

/-- A read of CMD_LCP_OUT takes the word it returns (R517). -/
def State.takeReply (s : State) : State :=
  match s.cq.replies with
  | [] => s
  | r :: rest =>
    let l := match r with
      | [] => rest
      | _ :: [] => rest
      | _ :: q => q :: rest
    let s := { s with cq := { s.cq with replies := l } }
    if l.isEmpty then s.clearIrq 3 else s

/-- A read: the value, with what reading clears, latches or takes. -/
def State.regRead (s : State) (a : Nat) : Nat × State :=
  match tget none s.latch a with
  | some w => (w.toNat, { s with latch := tset none s.latch a none })
  | none =>
    let v := s.view a
    let hide := match regRow a with
      | some r => r.fields.foldl (fun v f => if f.acc = .wo then setBits v f.hi f.lo 0 else v) v
      | none => 0
    let s := if isLow a then { s with latch := tset none s.latch (a + 4) (some (BitVec.ofNat 32 (s.view (a + 4)))) } else s
    let s := if a = Reg.MGMT_PTP_NOW_SLO then
        { s with latch := tset none s.latch (a + 8) (some (BitVec.ofNat 32 (s.view (a + 8)))) } else s
    let s := (s.clearFields a .rc).peakNow a
    let s := if a = Reg.SKN_STATUS then s.clearIrq 2 else if a = Reg.CMD_DEV_STATE then s.clearIrq 7 else s
    (hide, if a = Reg.CMD_LCP_OUT then s.takeReply else s)

/-! ### Writes (R8, R9). -/

/-- A field takes a value, unless it is one its register leaves unchanged. -/
def Field.allows (f : Field) (v : Nat) : Bool := f.lim.isEmpty || f.lim.any (fun r => decide (r.1 ≤ v ∧ v ≤ r.2))

/-- The register's limits that depend on other registers or on its place (R227, R416, R446, R471, R459, R485). -/
def State.writeOk (s : State) (a v : Nat) : Bool :=
  if a = Reg.RST_STALL_HANG then decide (s.rd Reg.CHN_STALL_THR ≤ v)
  else if a = Reg.REEL_IVL_MIN then decide (10 ≤ v)
  else if a = Reg.REEL_IVL_MAX then decide (s.rd Reg.REEL_IVL_MIN ≤ v)
  else if a = Reg.REEL_DRAIN_TMO then decide (10 ≤ v)
  else if a = Reg.SKN_QUANTUM then decide (v = 0 ∨ 100000 ≤ v)
  else if a = Reg.PWR_CAP then decide (300 ≤ v % 65536 ∧ v % 65536 ≤ min (s.rf Reg.PWR_CAP_SRC 31 16) (s.rf Reg.PWR_CAP_SRC 15 0))
  else if a = Reg.CLK_PLAN then decide (250 ≤ v % 1024 ∧ v % 1024 ≤ s.fmax ∧ v % 1024 % 25 = 0)
  else if a = Reg.FAB_COORD then decide (s.devState = stBringup)
  else if a = Reg.MGMT_PTP_INCR then decide (0xA0000000 - 1342177 ≤ v ∧ v ≤ 0xA0000000 + 1342177)
  else true

/-- A write under the access codes alone (R8, R9).  Every W1S bit starts something and clears itself; what it starts is
where its register's write is. -/
def State.fieldWrite (s : State) (a v : Nat) : State :=
  match regRow a with
  | none => s
  | some r =>
    if s.writeOk a v = false then s
    else
      r.fields.foldl (fun s f =>
        let x := bitsOf v f.hi f.lo
        match f.acc with
        | .rw => if f.allows x then s.wf a f.hi f.lo x else s
        | .w1c => s.wf a f.hi f.lo (s.rf a f.hi f.lo - (s.rf a f.hi f.lo &&& x))
        | _ => s) s

/-- The effective cap and, on a change, nothing more (R471). -/
def State.syncCap (s : State) : State :=
  s.wf Reg.PWR_CAP 31 16 (min (min (s.rf Reg.PWR_CAP_SRC 31 16) (s.rf Reg.PWR_CAP_SRC 15 0)) (s.rf Reg.PWR_CAP 15 0))

/-- What a write of a register without a row of its own does beyond its fields. -/
def State.regWritten (s : State) (a old : Nat) : State :=
  if a = Reg.CLK_PLAN then (if s.rd a = old then s else (s.wr a old).askPlan (s.rf a 9 0))
  else if a = Reg.PWR_CAP then s.syncCap
  else if a = Reg.REEL_MTBF then s.newInterval
  else
    match idxOf a (Reg.COLL_PEER 0) 4 64 with
    | some n => (s.wf a 30 30 0 |>.wf a 15 13 0) |> fun s => { s with coll := { s.coll with peers := tset {} s.coll.peers n {} } }
    | none => s

/-- A write of a register that has no row of its own. -/
def State.regWrite (s : State) (a v : Nat) : State := (s.fieldWrite a v).regWritten a (s.rd a)

end Sys2Proof.Machine
end

