-- ==== Sys2Proof/Machine/RegRows.lean ====
section
/-! DEFINITION. Register accesses of the application cores, the local command port, and the registers whose writes do
more than change their fields (spec/00_scope.md R8, R9; spec/01_architecture.md R30 to R33;
spec/16_management_security.md R478 to R484, R491, R508; spec/17_cuard_commands.md R516, R517). -/

namespace Sys2Proof.Machine

def regBase : Nat := 0x5000000000

/-! ### Writes with meanings of their own. -/

/-- MGMT_CORE_RUN starts present harts (R483). -/
def State.runCores (s : State) (v : Nat) : State :=
  s.wf Reg.MGMT_CORE_ST 15 8 (s.rf Reg.MGMT_CORE_ST 15 8 ||| (bitsOf v 15 8 &&& s.rf Reg.MGMT_CORE_ST 7 0))

/-- MGMT_PTP_CTL: PPS_EV clears with interrupt source 6; PPS_EN newly set makes the next edge the first (R483, R492). -/
def State.ptpCtl (s : State) (v : Nat) : State :=
  let s := if bitOf v 2 then (s.wf Reg.MGMT_PTP_CTL 2 2 0).clearIrq 6 else s
  let s := if bitOf v 1 && !s.rbit Reg.MGMT_PTP_CTL 1 then { s with mgmt := { s.mgmt with ppsAt := none } } else s
  s.wf Reg.MGMT_PTP_CTL 1 1 (bitsOf v 1 1)

/-- The write of the nanoseconds of MGMT_PTP_SET steps the clock, and then a scheduled epoch switch is judged (R491,
R509); larger nanoseconds are discarded. -/
def State.ptpSet (s : State) (ns : Nat) : State :=
  if 1000000000 ≤ ns then s
  else
    let lo := s.rd Reg.MGMT_PTP_SET_SLO
    let hi := s.rf Reg.MGMT_PTP_SET_SHI 15 0
    let s := ((s.wr Reg.MGMT_PTP_NOW_SLO lo).wf Reg.MGMT_PTP_NOW_SHI 15 0 hi).wr Reg.MGMT_PTP_NOW_NS ns
    let s := ({ s with mgmt := { s.mgmt with ptpFrac := 0 } } : State).wf Reg.MGMT_PTP_CTL 0 0 1
    (s.event 0x0A0F devUnit 0 [(16, 6, lo + hi * 2 ^ 32)]).epochDue

/-- The link of the management port goes, and MODE 0 begins again with 25G (R484). -/
def State.mgmtDown (s : State) : State :=
  ({ s with mgmt := { s.mgmt with fast := true, speedAt := s.wall } } : State).wf Reg.MGMT_PORT_ST 0 0 0

/-- MGMT_PORT_CTL: a mode that does not allow the speed of the present link takes the link down (R484). -/
def State.mgmtMode (s : State) (v : Nat) : State :=
  let s := s.fieldWrite Reg.MGMT_PORT_CTL v
  let m := s.rf Reg.MGMT_PORT_CTL 1 0
  let fast := s.rbit Reg.MGMT_PORT_ST 1
  if s.rbit Reg.MGMT_PORT_ST 0 && (m == 3 || (m == 1 && !fast) || (m == 2 && fast)) then s.mgmtDown else s

/-- SPN_SECT_CTL (R113). -/
def State.writeSect (s : State) (ps v : Nat) : State :=
  let s := s.wf (Reg.SPN_SECT_CTL ps) 1 1 (bitsOf v 1 1)
  if bitOf v 0 then s.forceSect ps else s

/-- MEM_CH_CTL (R249). -/
def State.writeChCtl (s : State) (ch v : Nat) : State :=
  let s := s.fieldWrite (Reg.MEM_CH_CTL ch) v
  if bitOf v 0 then s.chFence ch else s

/-- PORT_CTL (R324). -/
def State.writePortCtl (s : State) (p v : Nat) : State :=
  let s := s.fieldWrite (Reg.PORT_CTL p) v
  if bitOf v 5 then s.retrainPort p else s

/-- The bank of a routing or multicast table entry. -/
def tableBank (a : Nat) : Option Nat :=
  if Reg.FAB_RT 0 0 ≤ a ∧ a < Reg.FAB_RT 0 0 + 0x10000 then some ((a - Reg.FAB_RT 0 0) / 0x8000)
  else if Reg.FAB_MC_LO 0 0 ≤ a ∧ a < Reg.FAB_MC_LO 0 0 + 0x40000 then some ((a - Reg.FAB_MC_LO 0 0) / 0x20000)
  else none

/-- A bank may be written (R312). -/
def State.bankOpen (s : State) (b : Nat) : Bool := b != s.rf Reg.FAB_EPOCH 0 0 && !s.rbit Reg.FAB_EPOCH 3

/-! ### The local command port (R516, R517). -/

/-- Discards the words assembled so far, with event 0x0B03. -/
def State.lcpDrop (s : State) (cause : Nat) : State :=
  let n := s.cq.asm.length
  ({ s with cq := { s.cq with asm := [], asmAt := none } } : State).event 0x0B03 devUnit 1 [(16, 1, cause), (17, 2, n)]

/-- RESYNC: a partial packet is discarded and discarding ends. -/
def State.resync (s : State) : State :=
  let s := if s.cq.asm.isEmpty then s else s.lcpDrop 4
  { s with cq := { s.cq with asm := [], asmAt := none, discarding := false } }

/-- The bytes of assembled words. -/
def asmBytes (l : List Word) : List Byte := l.flatMap (fun w => toLE 4 w.toNat)

/-- A packet is complete: it is taken, or discarded for want of reply space. -/
def State.lcpTake (s : State) (n : Nat) : State :=
  let b := (asmBytes s.cq.asm).take n
  if 4 ≤ s.cq.replies.length then
    ((s.wf Reg.CMD_LCP_ST 2 2 1).sat Reg.CMD_LCP_DROP_CNT 1).lcpDrop 3
  else
    ({ s with cq := { s.cq with asm := [], asmAt := none } } : State).arrive { port := 1, bytes := b, arrival := s.now, org := {} }

/-- A length that breaks R513: the port discards until RESYNC and answers BAD_LENGTH. -/
def State.lcpBad (s : State) : State :=
  let r : Req := { port := 1, bytes := asmBytes s.cq.asm, arrival := s.now, org := {} }
  let s := (s.wf Reg.CMD_LCP_ST 1 1 1).lcpDrop 2
  ({ s with cq := { s.cq with discarding := true } } : State).answer (repTo r) false stBAD_LENGTH (pkLease r.bytes) []

/-- A word written to CMD_LCP_IN. -/
def State.lcpIn (s : State) (w : Word) : State :=
  if s.cuardUp = false ∨ s.cq.discarding = true then s
  else
    let s := { s with cq := { s.cq with asm := s.cq.asm ++ [w], asmAt := some (s.cq.asmAt.getD s.now) } }
    if s.cq.asm.length < 6 then s
    else
      match pkWant (asmBytes s.cq.asm) with
      | none => s.lcpBad
      | some n => if n ≤ 4 * s.cq.asm.length then s.lcpTake n else s

/-- CMD_LCP_ST: DROP and ABORT clear, RESYNC acts. -/
def State.lcpSt (s : State) (v : Nat) : State :=
  let s := s.fieldWrite Reg.CMD_LCP_ST v
  if bitOf v 0 then s.resync else s

/-! ### A permitted write. -/

/-- Registers outside the block rows whose writes act. -/
def State.writeOwn (s : State) (a v : Nat) : Option State :=
  if a = Reg.MGMT_CORE_RUN then some (s.runCores v)
  else if a = Reg.MGMT_PTP_CTL then some (s.ptpCtl v)
  else if a = Reg.MGMT_PTP_SET_SLO then some (s.wr a v)
  else if a = Reg.MGMT_PTP_SET_SHI then some (s.wr a (v % 65536))
  else if a = Reg.MGMT_PTP_SET_NS then some (s.ptpSet v)
  else if a = Reg.MGMT_PORT_CTL then some (s.mgmtMode v)
  else if a = Reg.CMD_LCP_IN then some (s.lcpIn (BitVec.ofNat 32 v))
  else if a = Reg.CMD_LCP_ST then some (s.lcpSt v)
  else if a = Reg.FAB_EPOCH then some (s.writeEpoch v)
  else if a = Reg.PWR_GATE then some (s.writeGate v)
  else if a = Reg.DET_ALIGN then some (if bitOf v 1 then s.askRealign else s)
  else none

/-- Registers of the arrays whose writes act. -/
def State.writeArr (s : State) (a v : Nat) : Option State :=
  match idxOf a (Reg.SPN_SECT_CTL 0) 0x100000 18 with
  | some ps => some (s.writeSect ps v)
  | none =>
    match idxOf a (Reg.MEM_CH_CTL 0) 0x1000 132 with
    | some ch => some (s.writeChCtl ch v)
    | none =>
      match idxOf a (Reg.PORT_CTL 0) 0x10000 16 with
      | some p => some (s.writePortCtl p v)
      | none =>
        match (List.range 4).findSome? (fun p => (idxOf a (memStripe p 0) 4 48).map (fun t => (p, t))) with
        | some x => some (s.writeStripe x.1 x.2 v)
        | none =>
          match tableBank a with
          | some b =>
            let s := s.epochDue
            some (if s.bankOpen b then (s.fieldWrite a v).rerouteWaiting else s)
          | none => none

/-- A write that its source is allowed, to an offset whose domain is on. -/
def State.writeReg (s : State) (a v : Nat) : State :=
  match s.writeOwn a v with
  | some t => t
  | none =>
    match s.writeArr a v with
    | some t => t
    | none => s.regWrite a v

/-! ### Accesses of software (R30 to R33, R478, R482). -/

/-- The offset is a register of a populated span, aligned (R32, R34). -/
def regMapped (a : Nat) : Bool := populated a && a % 4 == 0

/-- The debug module's space (R482, R508). -/
def inDebug (a : Nat) : Bool := decide (0x7010000 ≤ a ∧ a < 0x7100000)

/-- An access exception where a core issued the access (R30). -/
def State.trapCore (s : State) (who : Who) (fetch : Bool) (addr : Nat) : State :=
  match who with
  | .core n => s.send (.trap n fetch addr)
  | _ => s

/-- An access the register space does not take: event 0x0210, and a core's exception (R30, R31, R32). -/
def State.badAccess (s : State) (who : Who) (a dir : Nat) : State :=
  (s.addrError (regBase + a) who.code dir 0).trapCore who false (regBase + a)

/-- Who reaches the register space (R31). -/
def reaches : Who → Bool
  | .core _ | .command => true
  | _ => false

/-- A read of `n` bytes of a register by a core or the command processor, with the value it answers (R32, R33, R482). -/
def State.softRead (s : State) (who : Who) (a n : Nat) : State :=
  if !reaches who || !regMapped a || n != 4 then s.badAccess who a 0
  else if inDebug a then s.send (.value who a 0)
  else if !s.domOn (regDomain a) then (s.addrError (regBase + a) who.code 0 0).send (.value who a 0)
  else
    let r := s.regRead a
    r.2.send (.value who a r.1)

/-- An expert session opened on the local command port is active (R482). -/
def State.localExpert (s : State) : Bool := s.cq.sessions.any (fun x => x.active && x.expert && x.port == 1)

/-- The cores may write the offset (R482). -/
def State.coreMay (s : State) (a : Nat) : Bool :=
  let mgmt3 := a == Reg.MGMT_MAC_LO || a == Reg.MGMT_MAC_HI || a == Reg.MGMT_CUARD_UDP || a == Reg.MGMT_CUARD_RATE
  if inDebug a || mgmt3 then false
  else if 0x7000000 ≤ a ∧ a < 0x7010000 then true
  else if a = Reg.CMD_LCP_IN ∨ a = Reg.CMD_LCP_ST then true
  else s.localExpert && !(decide (0x300000 ≤ a ∧ a < 0x400000)) && !(decide (0x7100000 ≤ a))

/-- A write of `w` bytes of a register by a core (R32, R33, R482). -/
def State.softWrite (s : State) (n a w v : Nat) : State :=
  if !regMapped a || w != 4 then s.badAccess (.core n) a 1
  else if !s.coreMay a then (s.sat Reg.MGMT_REGW_CNT 1).event 0x0A0C devUnit 1 [(16, 5, regBase + a), (21, 1, n)]
  else if !s.domOn (regDomain a) then s.addrError (regBase + a) 2 1 0
  else s.writeReg a v

/-- REG64_LOW_READ (R32): a read of a word of a 64-bit counter. -/
def execReg64LowRead (who : Who) (a : Nat) (s : State) (n : Nat := 4) : Res := .next (s.softRead who a n)

/-- RC_READ (R8, R32): a read of `n` bytes. -/
def execRcRead (who : Who) (a : Nat) (s : State) (n : Nat := 4) : Res := .next (s.softRead who a n)

/-- SKN_STATUS_READ (R483). -/
def execSknStatusRead (who : Who) (s : State) : Res := .next (s.softRead who Reg.SKN_STATUS 4)

/-- CMD_DEV_STATE_READ (R483). -/
def execCmdDevStateRead (who : Who) (s : State) : Res := .next (s.softRead who Reg.CMD_DEV_STATE 4)

/-- CMD_LCP_OUT_READ (R517). -/
def execCmdLcpOutRead (who : Who) (s : State) : Res := .next (s.softRead who Reg.CMD_LCP_OUT 4)

/-- REG_WRITE_OTHER (R8, R9, R32, R482): a core's write of `n` bytes. -/
def execRegWriteOther (hart : Fin 8) (a : Nat) (v : Word) (s : State) (n : Nat := 4) : Res := .next (s.softWrite hart a n v.toNat)

/-- REG_ACCESS_TIMEOUT (R33): an access not complete within 1,000 ticks ends without effect. -/
def execRegAccessTimeout (who : Who) (a : Nat) (write : Bool) (s : State) : Res :=
  let s := s.addrError (regBase + a) who.code (boolN write) 1
  .next (if write then s else s.send (.value who a 0))

/-- CMD_LCP_IN_WRITE (R516). -/
def execCmdLcpInWrite (w : Word) (s : State) : Res := .next (s.lcpIn w)

/-- RESYNC (R517). -/
def execResync (s : State) : Res := .next s.resync

/-- LCP_ASSEMBLY_TIMEOUT (R517). -/
def execLcpAssemblyTimeout (s : State) : Res :=
  match s.cq.asmAt with
  | some t => if s.rd Reg.CMD_LCP_TMO ≤ (s.now - t).toNat then .next ((s.wf Reg.CMD_LCP_ST 1 1 1).lcpDrop 1) else .next s
  | none => .next s

/-- MGMT_CORE_RUN_WRITE (R483). -/
def execMgmtCoreRunWrite (v : Word) (s : State) : Res := .next (s.rowWrite Reg.MGMT_CORE_RUN (fun s => s.runCores v.toNat))

/-- MGMT_PTP_SET_WRITE (R491): the three words in order, nanoseconds last. -/
def execMgmtPtpSetWrite (sec : BitVec 48) (ns : Word) (s : State) : Res :=
  .next (s.rowWrite Reg.MGMT_PTP_SET_SLO (fun s =>
    ((s.wr Reg.MGMT_PTP_SET_SLO (sec.toNat % 4294967296)).wr Reg.MGMT_PTP_SET_SHI (sec.toNat / 4294967296)).ptpSet ns.toNat))

/-- PPS_EV_CLEAR (R483). -/
def execPpsEvClear (s : State) : Res := .next (s.rowWrite Reg.MGMT_PTP_CTL (fun s => (s.wf Reg.MGMT_PTP_CTL 2 2 0).clearIrq 6))

/-- SPN_NUM_FLAGS_WRITE (R72): at the basic level it is refused with BAD_STATE while a context runs. -/
def execSpnNumFlagsWrite (ps : Fin 18) (expert : Bool) (v : Word) (s : State) : Res :=
  let a := Reg.SPN_NUM_FLAGS ps
  if expert = false ∧ s.runCtx ≠ 0 then .next (s.send (.refused (regBase + a) stBAD_STATE))
  else .next (s.rowWrite a (fun s => s.fieldWrite a v.toNat))

end Sys2Proof.Machine
end

