-- ==== Sys2Proof/Machine/Mgmt.lean ====
section
/-! DEFINITION. The management port, PTP time, the cores' faults, the console, the comparator and the timers of
sessions, leases and queued commands (spec/16_management_security.md R478 to R493, R503 to R508;
spec/17_cuard_commands.md R524, R526). -/

namespace Sys2Proof.Machine

/-! ### Cores. -/

/-- CORE_POISON_FAULT (R481): a load, atomic or fetch of a poisoned word. -/
def execCorePoisonFault (hart : Fin 8) (fetch : Bool) (addr : Nat) (s : State) : Res :=
  let s := (s.sat Reg.MGMT_POISON_CNT 1).event 0x0A0E (unitId 9 hart) 1 [(16, 5, addr), (21, 1, boolN fetch)]
  .next (s.send (.trap hart fetch addr))

/-- A physical address the cores' map holds (R478); the register space is judged by offset. -/
def State.coreMapped (s : State) (a : Nat) : Bool :=
  if a < 0x10000000000 then
    match s.loc a with
    | .none => false
    | .register o => regMapped o
    | _ => true
  else
    decide (a < 0x10000008000) || decide (0x10001000000 ≤ a ∧ a < 0x10001010000) ||
    decide (0x10002000000 ≤ a ∧ a < 0x10002010000) || decide (0x10003000000 ≤ a ∧ a < 0x10003002000)

/-- CORE_ACCESS_FAULT (R30, R478). -/
def execCoreAccessFault (hart : Fin 8) (fetch write : Bool) (addr : Nat) (s : State) : Res :=
  if s.coreMapped addr then .next s
  else .next ((s.addrError addr 2 (boolN write) 0).send (.trap hart fetch addr))

/-- LOCKSTEP_MISMATCH (R493): HALTED with ALERT_N, no event. -/
def execLockstepMismatch (s : State) : Res :=
  if s.off then .next s
  else .next ({ s with cq := { s.cq with dead := true } } : State).haltSilent.alertOn

/-- CONSOLE_RECEIVE (R479, R483). -/
def execConsoleReceive (bytes : List Byte) (s : State) : Res := .next ((s.send (.console bytes)).raiseIrq 5)

/-- CONSOLE_TRANSMIT (R479). -/
def execConsoleTransmit (bytes : List Byte) (s : State) : Res := .next (s.send (.uart bytes))

/-! ### The port's link (R484). -/

/-- The speed the port tries, none where it is off. -/
def State.mgmtTry (s : State) : Option Bool :=
  let m := s.rf Reg.MGMT_PORT_CTL 1 0
  if m = 3 then none else if m = 1 then some true else if m = 2 then some false else some s.mgmt.fast

/-- MGMT_LINK_UP (R484): the link comes up at the speed being tried. -/
def execMgmtLinkUp (s : State) : Res :=
  match s.mgmtTry with
  | none => .next s
  | some f => .next (if s.off || s.rbit Reg.MGMT_PORT_ST 0 then s else (s.wf Reg.MGMT_PORT_ST 0 0 1).wf Reg.MGMT_PORT_ST 1 1 (boolN f))

/-- MGMT_LINK_LOSS (R484). -/
def execMgmtLinkLoss (s : State) : Res := .next (if s.rbit Reg.MGMT_PORT_ST 0 then s.mgmtDown else s)

/-- MGMT_SPEED_ALTERNATE (R484): 1 s at one speed without link. -/
def execMgmtSpeedAlternate (s : State) : Res :=
  if s.rf Reg.MGMT_PORT_CTL 1 0 = 0 ∧ s.rbit Reg.MGMT_PORT_ST 0 = false ∧ 100000000 ≤ (s.wall - s.mgmt.speedAt).toNat then
    .next { s with mgmt := { s.mgmt with fast := !s.mgmt.fast, speedAt := s.wall } }
  else .next s

/-- The port carries frames. -/
def State.mgmtUp (s : State) : Bool := !s.off && s.rbit Reg.MGMT_PORT_ST 0

/-! ### Ingress (R486, R488). -/

/-- A frame for Cuard within the rate of R488; one more is discarded, with event 0x0A0B once per window. -/
def State.cuardRate (s : State) : Bool × State :=
  let w := s.now.toNat / 100000000
  let s := if s.cq.rateAt.toNat = w then s
    else { s with cq := { s.cq with rateAt := BitVec.ofNat 64 w, rateN := 0, rateTold := false } }
  let n := s.cq.rateN + 1
  let s := { s with cq := { s.cq with rateN := n } }
  if n ≤ s.rd Reg.MGMT_CUARD_RATE then (true, s)
  else
    let s := s.sat Reg.MGMT_RATE_DROP 1
    (false, if s.cq.rateTold then s
      else ({ s with cq := { s.cq with rateTold := true } } : State).event 0x0A0B devUnit 1 [(16, 1, 2), (17, 4, n)])

/-- What the frame says, its FCS off. -/
structure EthIn where
  dst : List Byte
  src : List Byte
  et : Nat
  pay : List Byte
  deriving DecidableEq, Repr

def ethIn (l : List Byte) : EthIn := { dst := l.take 6, src := sliceB l 6 6, et := beNat (sliceB l 12 2), pay := l.drop 14 }

/-- The UDP datagram of a packet that is no fragment: version 6 or not, source, destination and datagram. -/
def EthIn.udp (e : EthIn) : Option (Bool × List Byte × List Byte × List Byte) :=
  let d := e.pay
  if e.et = 0x86DD then
    (if beNat (sliceB d 6 1) = 17 then
      some (true, sliceB d 8 16, sliceB d 24 16, (d.drop 40).take (beNat (sliceB d 4 2))) else none)
  else if e.et = 0x0800 then
    let ihl := beNat (sliceB d 0 1) % 16 * 4
    let frag := beNat (sliceB d 6 2) % 2 ^ 14
    (if beNat (sliceB d 9 1) = 17 ∧ frag = 0 then
      some (false, sliceB d 12 4, sliceB d 16 4, (d.take (beNat (sliceB d 2 2))).drop ihl) else none)
  else none

/-- A UDP checksum that holds, or that IPv4 leaves out. -/
def udpGood (v6 : Bool) (src dst u : List Byte) : Bool :=
  let n := beNat (sliceB u 4 2)
  let c := beNat (sliceB u 6 2)
  let pseudo := if v6 then src ++ dst ++ toBE 4 n ++ [0, 0, 0, 17] else src ++ dst ++ [0, 17] ++ toBE 2 n
  decide (8 ≤ n) && n == u.length && ((!v6 && c == 0) || (c != 0 && onesOf (pseudo ++ u) == 0xFFFF))

/-- The command packet of a frame to Cuard, with where its reply goes. -/
def State.cuardIn (s : State) (e : EthIn) : Option (Origin × List Byte) :=
  match e.udp with
  | none => none
  | some (v6, src, dst, u) =>
    let own := if v6 then s.cuardV6.contains dst else s.cuardV4.contains dst
    if own && udpGood v6 src dst u && beNat (sliceB u 2 2) == s.rd Reg.MGMT_CUARD_UDP % 65536 then
      some ({ mac := e.src, v6 := v6, ip := src, own := dst, sport := beNat (u.take 2) }, u.drop 8)
    else none

/-- The solicited-node multicast MACs of Cuard's IPv6 addresses. -/
def State.solicited (s : State) : List (List Byte) := s.cuardV6.map (fun a => [0x33, 0x33, 0xFF] ++ a.drop 13)

/-- The Cuard address an ARP request or neighbour solicitation asks for. -/
def State.asksFor (s : State) (e : EthIn) : Option (List Byte) :=
  let d := e.pay
  if e.et = 0x0806 ∧ beNat (sliceB d 6 2) = 1 ∧ s.cuardV4.contains (sliceB d 24 4) then some (sliceB d 24 4)
  else if e.et = 0x86DD ∧ beNat (sliceB d 6 1) = 58 ∧ beNat (sliceB d 40 1) = 135 ∧ s.cuardV6.contains (sliceB d 48 16) ∧ ndValid d = true then
    some (sliceB d 48 16)
  else none

/-- Its answer (RFC 826, RFC 4861): to all nodes where a solicitation's source is unspecified. -/
def State.cuardNd (s : State) (e : EthIn) (own : List Byte) : List Byte :=
  let m := s.cuardMac
  let d := e.pay
  if own.length = 4 then
    endFrame (e.src ++ m ++ [0x08, 0x06, 0, 1, 8, 0, 6, 4, 0, 2] ++ m ++ own ++ sliceB d 8 6 ++ sliceB d 14 4)
  else
    let none := beNat (sliceB d 8 16) == 0
    let src := if none then toBE 16 (0xFF02 * 2 ^ 112 + 1) else sliceB d 8 16
    let to_ : List Byte := if none then [0x33, 0x33, 0, 0, 0, 1] else e.src
    let icmp := [136, 0, 0, 0, if none then 0x20 else 0x60, 0, 0, 0] ++ own ++ [2, 1] ++ m
    let c := 0xFFFF - onesOf (own ++ src ++ toBE 4 icmp.length ++ [0, 0, 0, 58] ++ icmp)
    endFrame (to_ ++ m ++ [0x86, 0xDD] ++ patchB (ip6Hdr own src 0 icmp.length 58) 7 [255] ++ patchB icmp 2 (toBE 2 c))

/-- A PTP event message (R490). -/
def EthIn.ptpEvent (e : EthIn) : Bool :=
  e.et == 0x88F7 || (match e.udp with
    | some (_, _, _, u) => beNat (sliceB u 2 2) == 319
    | none => false)

/-- The timestamp extension of MGMT_TS: seconds, nanoseconds, and bit 0 valid (R490, R511). -/
def State.stamp (s : State) (valid : Bool) : List Byte :=
  if valid then
    toLE 4 (s.rd Reg.MGMT_PTP_NOW_SLO) ++ toLE 2 (s.rf Reg.MGMT_PTP_NOW_SHI 15 0) ++ toLE 4 (s.rd Reg.MGMT_PTP_NOW_NS) ++ [1, 0]
  else List.replicate 12 0

/-- A frame for the virtio-net receive queue; `buffer` where the queue has one. -/
def State.toVnet (s : State) (buffer : Bool) (l : List Byte) : State :=
  if buffer then (s.send (.vnet (s.stamp (ethIn l).ptpEvent ++ l))).raiseIrq 4 else s.sat Reg.MGMT_FILT_DROP 1

/-- A broadcast or multicast MAC. -/
def groupMac (m : List Byte) : Bool := bitOf (rdLE m 0 1) 0

/-- The rows of R486, first match deciding. -/
def State.classify (s : State) (buffer : Bool) (l : List Byte) : State :=
  let e := ethIn l
  let mine := e.dst == s.cuardMac
  let cmd := if mine then s.cuardIn e else none
  let nd := if mine || e.dst == List.replicate 6 0xFF || s.solicited.contains e.dst then s.asksFor e else none
  match cmd, nd with
  | some c, _ =>
    let r := s.cuardRate
    if r.1 then r.2.arrive { port := 0, bytes := c.2, arrival := s.now, org := c.1 } else r.2
  | none, some own =>
    let r := s.cuardRate
    let s := if r.1 && r.2.cuardUp then r.2.send (.eth (s.cuardNd e own)) else r.2
    if mine then s else s.toVnet buffer l
  | none, none =>
    if mine then s.sat Reg.MGMT_FILT_DROP 1
    else if e.dst == s.softMac || groupMac e.dst then s.toVnet buffer l
    else s.sat Reg.MGMT_FILT_DROP 1

/-- MGMT_FRAME_RECEIVE (R486): the bytes from the destination MAC to the FCS; `buffer` where the virtio-net receive queue
has a buffer. -/
def execMgmtFrameReceive (bytes : List Byte) (buffer : Bool) (s : State) : Res :=
  let l := bytes.take (bytes.length - 4)
  if s.mgmtUp = false ∨ bytes.length < 64 ∨ leNat (bytes.drop (bytes.length - 4)) ≠ crc32 l then .next s
  else .next (s.classify buffer l)

/-! ### Egress (R487, R490). -/

/-- A frame of software that would pass for Cuard's. -/
def State.spoofs (s : State) (e : EthIn) : Bool :=
  e.src == s.cuardMac || (e.et == 0x86DD && s.cuardV6.contains (sliceB e.pay 8 16)) ||
  (e.et == 0x0800 && s.cuardV4.contains (sliceB e.pay 12 4)) || (e.et == 0x0806 && s.cuardV4.contains (sliceB e.pay 14 4))

/-- A spoofed frame discarded, counted in its window. -/
def State.spoofDrop (s : State) : State :=
  let w := s.now.toNat / 100000000
  let n := (if s.cq.spoofAt.toNat = w then s.cq.spoofN else 0) + 1
  (({ s with cq := { s.cq with spoofAt := BitVec.ofNat 64 w, spoofN := n } } : State).sat Reg.MGMT_SPOOF_DROP 1).event 0x0A0B devUnit 1
    [(16, 1, 1), (17, 4, n)]

/-- VIRTIO_NET_TRANSMIT (R487, R490): `stamp` is the buffer's request flag. -/
def execVirtioNetTransmit (bytes : List Byte) (stamp : Bool) (s : State) : Res :=
  if s.spoofs (ethIn bytes) then .next s.spoofDrop
  else if s.mgmtUp = false then .next s
  else
    let t := s.send (.eth (endFrame bytes))
    .next (if stamp then t.send (.vnet (s.stamp true)) else t)

/-! ### PPS (R492). -/

/-- PPS_EDGE (R492): a rising edge after `low` ticks low, high for `high` ticks. -/
def execPpsEdge (low high : Nat) (s : State) : Res :=
  let due := match s.mgmt.ppsAt with
    | none => true
    | some t => decide (99990000 ≤ (s.now - t).toNat ∧ (s.now - t).toNat ≤ 100010000)
  if s.rbit Reg.MGMT_PTP_CTL 1 && decide (10 ≤ low) && decide (10 ≤ high) && due then
    let t := ((s.wr Reg.MGMT_PPS_TS_SLO (s.rd Reg.MGMT_PTP_NOW_SLO)).wr Reg.MGMT_PPS_TS_SHI (s.rd Reg.MGMT_PTP_NOW_SHI)).wr
      Reg.MGMT_PPS_TS_NS (s.rd Reg.MGMT_PTP_NOW_NS)
    .next (({ t with mgmt := { t.mgmt with ppsAt := some s.now } } : State).wf Reg.MGMT_PTP_CTL 2 2 1 |>.raiseIrq 6)
  else .next (s.sat Reg.MGMT_PPS_REJ 1)

/-! ### The debug lock (R508). -/

/-- A resident context names a record buffer. -/
def State.recBuffered (s : State) : Bool :=
  (List.range 16).any (fun n => match s.slotOf n with
    | some j => j.job.recLen != 0
    | none => false)

/-- A write of SEC_DBG.UNLOCK in session `id`: its status. -/
def State.unlockDebug (s : State) (id : Nat) : Nat × State :=
  match s.sess id with
  | none => (stBAD_STATE, s)
  | some x =>
    if !(x.active && x.expert && s.keyHas x.key 3) then (stBAD_STATE, s)
    else if s.recBuffered then (stBAD_STATE, s)
    else
      let s := s.extend 1 (sha384 (strB "KZY8-DEBUG"))
      let s := ({ s with cq := { s.cq with dbg := some id } } : State).wf Reg.SEC_DBG 3 2 3
      (stOK, s.event 0x0A0A devUnit 1 [(16, 1, 1), (17, 1, x.key)])

/-- The key of a session, 255 without one. -/
def State.keyOfSess (s : State) (id : Nat) : Nat :=
  match s.sess id with
  | some x => x.key
  | none => 255

/-- DEBUG_UNLOCK (R508). -/
def execDebugUnlock (id : Nat) (s : State) : Res := .next (s.unlockDebug id).2

/-- DEBUG_RELOCK (R508). -/
def execDebugRelock (id : Nat) (s : State) : Res := .next (s.relock (s.keyOfSess id))

/-! ### Sessions, nonce and leases (R503, R504, R507, R526). -/

/-- SESSION_CONFIRM_TIMEOUT (R504): the first session still opening 10 s after its open is discarded. -/
def execSessionConfirmTimeout (s : State) : Res :=
  match s.cq.sessions.find? (fun x => !x.active && decide (1000000000 ≤ (s.now - x.opened).toNat)) with
  | none => .next s
  | some x => .next (({ s with cq := { s.cq with sessions := s.cq.sessions.filter (fun y => decide (y.id ≠ x.id)) } } : State).authFail
      1 x.key x.port)

/-- SESSION_IDLE_TIMEOUT (R507). -/
def execSessionIdleTimeout (s : State) : Res :=
  match s.cq.sessions.find? (fun x => x.active && decide (s.rd Reg.SEC_IDLE * 100000000 ≤ (s.now - x.last).toNat)) with
  | none => .next s
  | some x => .next (s.closeSess x.id 2)

/-- SESSION_LIFETIME_EXPIRY (R507): 24 h after opening. -/
def execSessionLifetimeExpiry (s : State) : Res :=
  match s.cq.sessions.find? (fun x => x.active && decide (8640000000000 ≤ (s.now - x.opened).toNat)) with
  | none => .next s
  | some x => .next (s.closeSess x.id 3)

/-- QNONCE_EXPIRY (R503). -/
def execQnonceExpiry (s : State) : Res :=
  if s.cuardUp = true ∧ 60000000000 ≤ (s.now - s.cq.nonceAt).toNat then .next s.newNonce else .next s

/-- LEASE_EXPIRY (R526): the first lease past its term ends. -/
def execLeaseExpiry (s : State) : Res :=
  match (List.range 4).find? (fun r => match tget none s.cq.leases r with
    | some l => decide (l.expiry ≤ s.now)
    | none => false) with
  | none => .next s
  | some r => .next (s.endLease r 3 255)

/-! ### Command timers (R524, R546). -/

/-- A queued command whose CMD_QTMO has passed; one that can start in this tick is left to start. -/
def State.queueLate (s : State) : Option Req :=
  let q := s.rd Reg.CMD_QTMO
  s.cq.queue.find? (fun r =>
    let t := (s.now - r.arrival).toNat
    decide (q < t) || (t == q && (s.blocked || s.cq.queue.head? != some r)))

/-- CMD_QUEUE_TIMEOUT (R524). -/
def execCmdQueueTimeout (s : State) : Res :=
  match s.queueLate with
  | none => .next s
  | some r =>
    let s := { s with cq := { s.cq with queue := s.cq.queue.erase r } }
    let s := s.event 0x0B04 devUnit 1 [(16, 2, pkOp r.bytes), (18, 1, 1), (19, 1, r.port)]
    .next (s.answer (repTo r) false stTIMEOUT (pkLease r.bytes) [])

/-- A load in progress ends without a context: its validation stops, and a context whose seals are still being hashed goes. -/
def State.dropLoad (s : State) : State :=
  let s := { s with cq := { s.cq with loading := none } }
  (List.range 16).foldl (fun s n => match s.slotOf n with
    | some j =>
      if j.st = .validating then
        (({ s with prot := s.prot.filter (fun p => decide (p.ctx ≠ j.ctx.toNat)) } : State).setSlot n none).syncResident
      else s
    | none => s) s

/-- A_FIRST_LIMIT (R524): the work of the first command past its limit ends, with a final TIMEOUT. -/
def execAFirstLimit (s : State) : Res :=
  match s.cq.waits.find? (fun w => match w.limit with
    | some n => decide (n ≤ (s.now - w.start).toNat)
    | none => false) with
  | none => .next s
  | some w =>
    let s := if w.what = .load then s.dropLoad else s
    let s := s.event 0x0B04 devUnit 1 [(16, 2, w.rep.opcode), (18, 1, 2), (19, 1, w.rep.port)]
    .next (s.finish w.what stTIMEOUT [])

end Sys2Proof.Machine
end

