-- ==== Sys2Proof/Machine/CmdIdent.lean ====
section
/-! DEFINITION. Cuard commands of group 0x01xx: identity, sessions, leases and keys (spec/17_cuard_commands.md R525 to R533;
spec/16_management_security.md R485, R500 to R507). -/

namespace Sys2Proof.Machine

/-- The reply of a status alone, or of OK with parameters. -/
def outSt (s : State) (st : Nat) : Out := { s := s, status := st }
def outOk (s : State) (p : List Byte) : Out := { s := s, params := p }

/-- Bytes of a store read by offset and length: OUT_OF_RANGE when any byte lies beyond its end; what goes past the
4,096 parameter bytes of R514 is left out (log 105). -/
def pageOut (s : State) (all : List Byte) (off len : Nat) : Out :=
  if all.length < off + len then outSt s stOUT_OF_RANGE
  else outOk s (toLE 4 all.length ++ ((all.drop off).take (min len 4092)))

/-! ### Identity and state. -/

/-- IDENT_GET (R533). -/
def defIdentGet : CmdDef where
  code := 0x0101
  acc := .o
  run := fun s _ => outOk s (s.devId ++ toLE 2 0x0301 ++ toLE 2 1 ++ toLE 1 s.fuse.part ++ toLE 1 s.lCount ++
    toLE 2 (s.coord + (if s.rbit Reg.FAB_COORD 31 then 2 ^ 15 else 0)) ++ s.softMac ++ toLE 2 s.fmax ++ toLE 2 s.effCap)

def execIdentGet (r : Req) (s : State) : Res := s.cuard defIdentGet r

/-- STATE_GET (R533). -/
def defStateGet : CmdDef where
  code := 0x0102
  acc := .o
  run := fun s _ => outOk s (toLE 4 (s.view Reg.CMD_DEV_STATE) ++ toLE 8 (s.rd64 Reg.CMD_DEV_STATE_TS_LO) ++ toLE 4 (s.view Reg.CLK_ST))

def execStateGet (r : Req) (s : State) : Res := s.cuard defStateGet r

/-- Present values of registers. -/
def State.viewWords (s : State) (l : List Nat) : List Byte := l.flatMap (fun a => toLE 4 (s.view a))

/-- A register as the command processor reads it, RC fields clearing (R8, R33). -/
def State.cmdRead (s : State) (a : Nat) : Nat × State :=
  if s.domOn (regDomain a) then s.regRead a else (0, s.addrError (regBase + a) 3 0 0)

/-- Registers read one after another. -/
def State.readRegs (s : State) (l : List Nat) : List Byte × State :=
  l.foldl (fun (a : List Byte × State) r =>
    let v := a.2.cmdRead r
    (a.1 ++ toLE 4 v.1, v.2)) ([], s)

/-- OK with registers read. -/
def outRegs (s : State) (l : List Nat) : Out :=
  let r := s.readRegs l
  outOk r.2 r.1

/-- Offsets of `n` words from `a`. -/
def wordsFrom (a n : Nat) : List Nat := (List.range n).map (fun k => a + 4 * k)

/-- INVENTORY_GET (R533). -/
def defInventoryGet : CmdDef where
  code := 0x0103
  acc := .o
  run := fun s _ => outOk s (s.viewWords ((List.range 16).map Reg.SKN_LMAP ++ (List.range 16).map Reg.SKN_POS ++ [Reg.SKN_SPARE_ST]) ++
    (List.range 132).flatMap (fun c => toLE 1 (s.rf (Reg.MEM_CH_STAT c) 2 0)) ++
    (List.range 32).flatMap (fun h => toLE 1 (s.portSt h + 16 * s.rf (Reg.PORT_ST (h / 2) (h % 2)) 6 4)) ++ s.viewWords [Reg.MGMT_CORE_ST])

def execInventoryGet (r : Req) (s : State) : Res := s.cuard defInventoryGet r

/-- The device certificate in its flash partition: a DER SEQUENCE with a two-byte length; none where the partition holds
no such header (PRESUMED: X.509 certificates are DER). -/
def State.certificate (s : State) : List Byte :=
  let h := s.flashBytes flCert 4
  if beNat (h.take 2) = 0x3082 then s.flashBytes flCert (min 0x10000 (4 + beNat (h.drop 2))) else []

/-- CERT_GET (R495, R533). -/
def defCertGet : CmdDef where
  code := 0x0104
  acc := .o
  check := pCheck 6 (fun p => decide (1 ≤ rdLE p 4 2 ∧ rdLE p 4 2 ≤ 4096))
  run := fun s c => pageOut s s.certificate (rdLE c.p 0 4) (rdLE c.p 4 2)

def execCertGet (r : Req) (s : State) : Res := s.cuard defCertGet r

/-- An IPv6 address that is multicast, loopback or unspecified. -/
def badV6 (a : List Byte) : Bool := rdLE a 0 1 == 0xFF || decide (beNat a ≤ 1)
/-- An IPv4 address that is multicast, loopback or unspecified. -/
def badV4 (a : List Byte) : Bool := (rdLE a 0 1 / 16 == 14) || rdLE a 0 1 == 127 || beNat a == 0

/-- MGMT_ADDR_SET (R485, R533): kept in flash, and loaded at the next chip reset. -/
def defMgmtAddrSet : CmdDef where
  code := 0x0105
  acc := .s
  res := rDevice
  check := pCheck 21 (fun p => decide (rdLE p 0 1 < 4) && (!(bitOf (rdLE p 0 1) 0) || !badV6 (sliceB p 1 16)) &&
    (!(bitOf (rdLE p 0 1) 1) || !badV4 (sliceB p 17 4)))
  item := noTarget
  run := fun s c => outOk (s.flashPut flAddr c.p) []

def execMgmtAddrSet (r : Req) (s : State) : Res := s.cuard defMgmtAddrSet r

/-! ### Sessions (R504, R505, R507). -/

/-- A nonzero 32-bit value of the DRBG that none of `used` is. -/
def State.drawId (s : State) (used : List Nat) : Nat × State :=
  let d := s.draw 4
  let b := d.1 % 0xFFFFFFFF
  ((((List.range (used.length + 1)).map (fun k => (b + k) % 0xFFFFFFFF + 1)).find? (fun v => !used.contains v)).getD 1, d.2)

/-- A handshake that fails: event 0x0A05, AUTH_FAIL. -/
def State.shakeFail (s : State) (key port : Nat) : Out := outSt (s.authFail 1 key port) stAUTH_FAIL

/-- The opens of R507 are closed in this window. -/
def State.tooManyFails (s : State) : Bool := decide (16 ≤ s.cq.failN) && decide ((s.now - s.cq.failAt).toNat < 100000000)

/-- What a handshake agrees on. -/
def State.openSession (s : State) (c : Call) : Out :=
  let k := rdLE c.p 0 1
  let rights := rdLE c.p 1 1
  let qm := sliceB c.p 2 97
  let nm := sliceB c.p 99 32
  let d := s.draw 48
  let dc := d.1 % (ecN - 1) + 1
  let qc := sec1 ((ecMul (some ecG) 384 dc).getD (0, 0))
  let n := d.2.draw 32
  let nc := toLE 32 n.1
  let i := n.2.drawId (n.2.cq.sessions.map Sess.id)
  let s := i.2
  let t := sha384 (strB "KZY8-SES1" ++ s.devId ++ toLE 1 k ++ qm ++ nm ++ qc ++ nc ++ toLE 4 i.1 ++ toLE 1 rights)
  let keys := hkdf384 (nm ++ nc) (ecdh dc (ecOfBytes (qm.drop 1))) (strB "KZY8 cmd" ++ t) 96
  let x : Sess := { id := i.1, port := c.req.port, key := k, expert := rights == 1, active := false, tHash := t
                    reqKey := keys.take 48, repKey := keys.drop 48, opened := s.now, last := s.now }
  let s := { s with cq := { s.cq with sessions := s.cq.sessions ++ [x] } }
  { s := s, params := qc ++ nc ++ s.sign t, session := some i.1 }

/-- SESSION_OPEN (R504, R507): a key off the curve fails the handshake. -/
def defSessionOpen : CmdDef where
  code := 0x0110
  acc := .o
  check := pCheck 131 (fun p => decide (rdLE p 0 1 ≤ 7) && decide (rdLE p 1 1 ≤ 1))
  run := fun s c =>
    let k := rdLE c.p 0 1
    let ex := rdLE c.p 1 1 == 1
    if s.tooManyFails then outSt s stBUSY
    else if !(s.keyHas k 0 && (!ex || s.keyHas k 1) && sec1Ok (sliceB c.p 2 97)) then s.shakeFail k c.req.port
    else if ex && s.cq.sessions.any (·.expert) then outSt s stEXPERT_LOCKED
    else if 8 ≤ s.cq.sessions.length then outSt s stBUSY
    else s.openSession c

/-- SESSION_OPEN: its reply carries the new SESSION in the header (R533). -/
def execSessionOpen (r : Req) (s : State) : Res := s.cuard defSessionOpen r

/-- SESSION_CONFIRM (R504): the signature is over T, on the port that opened the session, within 10 s. -/
def defSessionConfirm : CmdDef where
  code := 0x0111
  acc := .o
  check := pCheck 96 (fun _ => true)
  run := fun s c =>
    match s.sess c.rep.session with
    | none => s.shakeFail 255 c.req.port
    | some x =>
      if x.active ∨ x.port ≠ c.req.port then s.shakeFail x.key c.req.port
      else if decide (1000000000 < (s.now - x.opened).toNat) || !(s.keyHas x.key 0 && ecdsaVerify (s.keyPub x.key) (sha384 x.tHash) c.p) then
        ({ s with cq := { s.cq with sessions := s.cq.sessions.filter (fun y => decide (y.id ≠ x.id)) } } : State).shakeFail x.key c.req.port
      else
        let s := s.modSess x.id (fun y => { y with active := true, opened := s.now, last := s.now })
        outOk (s.event 0x0A03 devUnit 1 [(16, 4, x.id), (20, 1, x.key), (21, 1, boolN x.expert), (22, 1, x.port)]) []

def execSessionConfirm (r : Req) (s : State) : Res := s.cuard defSessionConfirm r

/-- SESSION_CLOSE (R507). -/
def defSessionClose : CmdDef where
  code := 0x0112
  acc := .s
  run := fun s c => outOk (s.closeSess c.rep.session 1) []

def execSessionClose (r : Req) (s : State) : Res := s.cuard defSessionClose r

/-! ### Leases (R526 to R529). -/

/-- A lease whose term has passed ends (R526). -/
def State.lapse (s : State) (res : Nat) : State :=
  match tget none s.cq.leases res with
  | some l => if l.expiry ≤ s.now then s.endLease res 3 255 else s
  | none => s

/-- Lease IDs in use. -/
def State.leaseIds (s : State) : List Nat := (List.range 4).filterMap (fun r => (s.leaseOf r).map Lease.id)

/-- A lease granted to a key for a term in seconds. -/
def State.grantLease (s : State) (res key secs : Nat) : Out :=
  let i := s.drawId s.leaseIds
  let s := i.2
  let e := s.now + BitVec.ofNat 64 (secs * 100000000)
  let s := { s with cq := { s.cq with leases := tset none s.cq.leases res (some { key := key, id := i.1, expiry := e }) } }
  { s := s, params := toLE 8 e.toNat, lease := some i.1 }

/-- A resource and a term. -/
def leaseArgs (p : List Byte) : Bool := decide (rdLE p 0 1 ≤ 3) && decide (1 ≤ rdLE p 1 2 ∧ rdLE p 1 2 ≤ 3600)

/-- LEASE_ACQUIRE (R526). -/
def defLeaseAcquire : CmdDef where
  code := 0x0118
  acc := .s
  check := pCheck 3 leaseArgs
  run := fun s c =>
    let n := rdLE c.p 0 1
    let s := s.lapse n
    match s.leaseOf n with
    | some _ => outSt s stNOT_OWNER
    | none => (s.event 0x0B02 devUnit 1 [(16, 1, n), (17, 1, 1), (18, 1, c.rep.key), (19, 1, 255)]).grantLease n c.rep.key (rdLE c.p 1 2)

def execLeaseAcquire (r : Req) (s : State) : Res := s.cuard defLeaseAcquire r

/-- The resource whose current lease has an ID. -/
def State.leaseNamed (s : State) (id : Nat) : Option Nat :=
  (List.range 4).find? (fun r => match s.leaseOf r with
    | some l => l.id == id
    | none => false)

/-- The lease check of a command on the lease it names (R527, R528). -/
def ownLease (s : State) (t : RepTo) : Nat :=
  if t.lease = 0 then stNOT_OWNER
  else
    match s.leaseNamed t.lease with
    | none => stLEASE_EXPIRED
    | some r => match s.leaseOf r with
      | some l => if l.key = t.key then 0 else stNOT_OWNER
      | none => stLEASE_EXPIRED

/-- LEASE_RENEW (R533). -/
def defLeaseRenew : CmdDef where
  code := 0x0119
  acc := .s
  check := pCheck 2 (fun p => decide (1 ≤ rdLE p 0 2 ∧ rdLE p 0 2 ≤ 3600))
  lease := ownLease
  run := fun s c =>
    match s.leaseNamed c.rep.lease with
    | none => outSt s stLEASE_EXPIRED
    | some r => match s.leaseOf r with
      | none => outSt s stLEASE_EXPIRED
      | some l =>
        let e := s.now + BitVec.ofNat 64 (rdLE c.p 0 2 * 100000000)
        outOk { s with cq := { s.cq with leases := tset none s.cq.leases r (some { l with expiry := e }) } } (toLE 8 e.toNat)

def execLeaseRenew (r : Req) (s : State) : Res := s.cuard defLeaseRenew r

/-- LEASE_RELEASE (R526). -/
def defLeaseRelease : CmdDef where
  code := 0x011A
  acc := .s
  lease := ownLease
  run := fun s c =>
    match s.leaseNamed c.rep.lease with
    | none => outSt s stLEASE_EXPIRED
    | some r => outOk (s.endLease r 2 255) []

def execLeaseRelease (r : Req) (s : State) : Res := s.cuard defLeaseRelease r

/-- LEASE_TAKEOVER (R529). -/
def defLeaseTakeover : CmdDef where
  code := 0x011B
  acc := .q
  check := pCheck 3 leaseArgs
  run := fun s c =>
    let n := rdLE c.p 0 1
    if c.rep.authed then
      let s := s.lapse n
      let s := match s.leaseOf n with
        | some _ => s.endLease n 4 c.rep.key
        | none => s.event 0x0B02 devUnit 1 [(16, 1, n), (17, 1, 1), (18, 1, c.rep.key), (19, 1, 255)]
      s.grantLease n c.rep.key (rdLE c.p 1 2)
    else outSt s stBAD_STATE

def execLeaseTakeover (r : Req) (s : State) : Res := s.cuard defLeaseTakeover r

/-- LEASE_GET (R533). -/
def defLeaseGet : CmdDef where
  code := 0x011C
  acc := .o
  run := fun s _ => outOk s ((List.range 4).flatMap (fun r => match s.leaseOf r with
    | some l => toLE 1 l.key ++ toLE 8 l.expiry.toNat
    | none => toLE 1 255 ++ toLE 8 0))

def execLeaseGet (r : Req) (s : State) : Res := s.cuard defLeaseGet r

/-! ### The nonce and the key table (R500 to R503). -/

/-- QNONCE_GET (R503). -/
def defQnonceGet : CmdDef where
  code := 0x0120
  acc := .o
  run := fun s _ =>
    let s := s.freshNonce
    outOk s (s.cq.nonce ++ toLE 8 ((s.cq.nonceAt.toNat + 60000000000) % 2 ^ 64))

def execQnonceGet (r : Req) (s : State) : Res := s.cuard defQnonceGet r

def ktSize : Nat := 0x440

/-- A key entry's reserved fields are zero. -/
def ktEntryOk (e : List Byte) : Bool := decide (rdLE e 97 1 < 16) && isZero e 98 14

/-- The key the table's HMAC is under. -/
def State.ktMacKey (s : State) : List Byte := hkdf384 (List.replicate 48 0) s.secretBytes (strB "KZY8 keytab") 48

/-- The table judged (R501): 0, or the first failure as byte 16 of event 0x0A09 names it. -/
def State.ktBad (s : State) (b : List Byte) : Nat :=
  let n := rdLE b 5 1
  let ent (k : Nat) : List Byte := sliceB b (0x10 + 128 * k) 128
  let q := (List.range (min n 8)).countP (fun k => bitOf (rdLE (ent k) 97 1) 2)
  if rdLE b 0 4 ≠ 0x544B5A4B ∨ isZero b 7 9 = false ∨ 8 < n ∨ (List.range 8).any (fun k => !ktEntryOk (ent k)) then 1
  else if rdLE b 4 1 ≠ s.fuse.ktCtr then 2
  else if hmac384 s.ktMacKey (b.take 0x410) ≠ sliceB b 0x410 48 then 3
  else if rdLE b 6 1 = 0 ∨ q < rdLE b 6 1 then 4
  else 0

/-- SEC_KT shows a table. -/
def State.showKt (s : State) (st : Nat) (b : List Byte) : State :=
  s.wr Reg.SEC_KT (rdLE b 5 1 % 16 + rdLE b 6 1 * 2 ^ 8 + s.fuse.ktCtr * 2 ^ 16 + st * 2 ^ 24)

/-- A table put in force (R497, R501, R502). -/
def State.installKt (s : State) (b : List Byte) : State :=
  let s := ((s.flashPut flKeys b).showKt 1 b).extend 4 (sha384 b)
  s.event 0x0A08 devUnit 1 [(16, 1, s.fuse.ktCtr), (17, 1, rdLE b 5 1), (18, 1, rdLE b 6 1)]

/-- A table of the present version from NKEYS, THRESHOLD and entries as a command gives them. -/
def State.buildKt (s : State) (p : List Byte) : List Byte :=
  let h := toLE 4 0x544B5A4B ++ toLE 1 s.fuse.ktCtr ++ p.take 2 ++ List.replicate 9 0
  let body := (h ++ p.drop 2 ++ List.replicate 0x410 0).take 0x410
  body ++ hmac384 s.ktMacKey body

/-- Parameters of KEYTAB_INIT and KEYTAB_SET. -/
def ktArgs (_ : State) (p : List Byte) : Nat :=
  let n := rdLE p 0 1
  let ent (k : Nat) : List Byte := sliceB p (2 + 128 * k) 128
  if p.length < 2 then stBAD_LENGTH
  else if n = 0 ∨ 8 < n then stOUT_OF_RANGE
  else if p.length ≠ 2 + 128 * n then stBAD_LENGTH
  else if (List.range n).all (fun k => ktEntryOk (ent k) && sec1Ok ((ent k).take 97)) &&
      decide (1 ≤ rdLE p 1 1 ∧ rdLE p 1 1 ≤ (List.range n).countP (fun k => bitOf (rdLE (ent k) 97 1) 2)) then 0
  else stOUT_OF_RANGE

/-- A changed table takes effect: sessions and leases of keys that changed end (R502, R526). -/
def State.changeKt (s : State) (p : List Byte) : State :=
  let old := (List.range 8).map s.ktKey
  let s := { s with fuse := { s.fuse with ktCtr := s.fuse.ktCtr + 1 } }
  let s := s.installKt (s.buildKt p)
  let changed (k : Nat) : Bool := s.ktKey k != (old[k]?).getD []
  let s := (s.cq.sessions.filter (fun x => x.active && changed x.key)).foldl (fun s x => s.closeSess x.id 4) s
  let s := { s with cq := { s.cq with sessions := s.cq.sessions.filter (fun x => !changed x.key) } }
  (List.range 4).foldl (fun s r => match s.leaseOf r with
    | some l => if changed l.key then s.endLease r 5 255 else s
    | none => s) s

/-- KEYTAB_GET (R533). -/
def defKeytabGet : CmdDef where
  code := 0x0121
  acc := .o
  run := fun s _ => if s.ktState = 0 then outSt s stBAD_STATE else outOk s (s.flashBytes flKeys ktSize)

def execKeytabGet (r : Req) (s : State) : Res := s.cuard defKeytabGet r

/-- KEYTAB_INIT (R501). -/
def defKeytabInit : CmdDef where
  code := 0x0122
  acc := .l
  check := ktArgs
  run := fun s c => if s.ktState ≠ 0 then outSt s stBAD_STATE else outOk (s.changeKt c.p) []

def execKeytabInit (r : Req) (s : State) : Res := s.cuard defKeytabInit r

/-- KEYTAB_SET (R502). -/
def defKeytabSet : CmdDef where
  code := 0x0123
  acc := .q
  check := ktArgs
  run := fun s c => if 64 ≤ s.fuse.ktCtr ∨ s.ktState ≠ 1 then outSt s stBAD_STATE else outOk (s.changeKt c.p) []

def execKeytabSet (r : Req) (s : State) : Res := s.cuard defKeytabSet r

/-- KEYTAB_RESTORE (R501). -/
def defKeytabRestore : CmdDef where
  code := 0x0124
  acc := .l
  check := pCheck ktSize (fun _ => true)
  run := fun s c =>
    if s.ktState ≠ 2 then outSt s stBAD_STATE
    else if s.ktBad c.p ≠ 0 then outSt s stOUT_OF_RANGE
    else outOk (s.installKt c.p) []

def execKeytabRestore (r : Req) (s : State) : Res := s.cuard defKeytabRestore r

end Sys2Proof.Machine
end

