-- ==== Sys2Proof/Machine/CmdCtx.lean ====
section
/-! DEFINITION. Cuard commands of groups 0x02xx and 0x03xx: clock and power, contexts and skeins
(spec/17_cuard_commands.md R534 to R536; spec/04_skein.md R149 to R154; spec/15_clocks_power.md R459 to R471). -/

namespace Sys2Proof.Machine

/-- What a command waits for, with its single reply held back (R524). -/
def outHeld (s : State) (w : WaitFor) : Out := { s := s, wait := some (w, false, none) }
/-- What a command answered ACCEPTED first goes on with (R524). -/
def outFirst (s : State) (w : WaitFor) (limit : Option Nat) : Out := { s := s, wait := some (w, true, limit) }

/-! ### Clock and power (R534). -/

/-- CLK_PLAN_SET (R459 to R461): answered once F has its value; ACCEPTED where the change is deferred. -/
def defClkPlanSet : CmdDef where
  code := 0x0201
  acc := .s
  res := rDevice
  check := fun s p => pCheck 2 (fun p => decide (250 ≤ rdLE p 0 2 ∧ rdLE p 0 2 ≤ s.fmax) && rdLE p 0 2 % 25 == 0) s p
  item := noTarget
  run := fun s c =>
    let t := s.askPlan (rdLE c.p 0 2)
    if s.tstrictRuns then outSt t stACCEPTED
    else if t.clk.change.isNone ∧ t.clk.reqs.length = 1 ∧ t.effF = t.aMhz then
      outOk ({ t with clk := { t.clk with reqs := [] } } : State).syncClk (toLE 2 t.aMhz)
    else outHeld t .freq

def execClkPlanSet (r : Req) (s : State) : Res := s.cuard defClkPlanSet r

/-- PWR_CAP_SET (R471). -/
def defPwrCapSet : CmdDef where
  code := 0x0202
  acc := .s
  res := rDevice
  check := fun s p => pCheck 2 (fun p => decide (300 ≤ rdLE p 0 2 ∧ rdLE p 0 2 ≤ min (s.rf Reg.PWR_CAP_SRC 31 16) (s.rf Reg.PWR_CAP_SRC 15 0))) s p
  item := noTarget
  run := fun s c =>
    let s := (s.wf Reg.PWR_CAP 15 0 (rdLE c.p 0 2)).syncCap
    outOk s (toLE 2 s.effCap)

def execPwrCapSet (r : Req) (s : State) : Res := s.cuard defPwrCapSet r

/-- DOMAIN_GATE (R469). -/
def defDomainGate : CmdDef where
  code := 0x0203
  acc := .s
  res := rDevice
  check := pCheck 2 (fun p => decide (12 ≤ rdLE p 0 1 ∧ rdLE p 0 1 ≤ 21) && decide (rdLE p 1 1 ≤ 1))
  item := fun p => [rdLE p 0 1]
  run := fun s c =>
    let r := s.gateDomain (rdLE c.p 0 1) (rdLE c.p 1 1 == 0)
    if r.1 then outOk r.2 [] else outSt r.2 stBAD_STATE

def execDomainGate (r : Req) (s : State) : Res := s.cuard defDomainGate r

/-- CLKPWR_GET (R534). -/
def defClkpwrGet : CmdDef where
  code := 0x0204
  acc := .o
  run := fun s _ => outOk s (s.viewWords [Reg.CLK_ST, Reg.CLK_PLAN, Reg.CLK_REDUCE, Reg.PWR_ST, Reg.PWR_CAP, Reg.PWR_IN, Reg.PWR_TJ, Reg.PWR_THROT])

def execClkpwrGet (r : Req) (s : State) : Res := s.cuard defClkpwrGet r

/-! ### Contexts (R536). -/

/-- CTX_LOAD (R149, R364, R535, R553): the descriptor is 64-byte aligned in management DRAM; validation goes on beside later commands. -/
def defCtxLoad : CmdDef where
  code := 0x0301
  acc := .s
  res := rContexts
  check := pCheck 8 (fun p => a8Ok p 0 && rdLE p 0 8 % 64 == 0 && decide (mgmtLo ≤ rdLE p 0 8 ∧ rdLE p 0 8 + 1024 ≤ mgmtHi))
  run := fun s c =>
    if s.rbit Reg.CMD_STRAPS 14 then outSt s stBAD_STATE
    else if s.tstrictRuns then outSt s stBUSY
    else outFirst { s with cq := { s.cq with loading := some (rdLE c.p 0 8) } } .load (some 1000000000)

def execCtxLoad (r : Req) (s : State) : Res := s.cuard defCtxLoad r

/-- The slot of a resident context by its ID. -/
def State.slotById (s : State) (ctx : Nat) : Option (Nat × Slot) :=
  match s.slotOf (ctx % 16) with
  | some j => if j.ctx.toNat = ctx ∧ j.st ≠ .validating then some (ctx % 16, j) else none
  | none => none

/-- The reel engine works for a context. -/
def State.reelUses (s : State) (ctx : Nat) : Bool :=
  (match s.reel.ckpt with
    | some k => k.ctx == ctx
    | none => false) ||
  (match s.reel.restore with
    | some k => k.ctx == ctx
    | none => false)

/-- The run records of a context that leaves its slot stay to be signed, read and released (R374, R542; log 141). -/
def State.keepRecs (s : State) (j : Slot) : State :=
  if j.recs = [] then s
  else
    let g : GoneRecs := { ctx := j.ctx.toNat, base := j.recBase, recs := j.recs, buf := j.job.recBuf }
    { s with seqr := { s.seqr with gone := s.seqr.gone.filter (fun x => decide (x.ctx ≠ g.ctx)) ++ [g] } }

/-- A context leaves the device: its slot, its protection (R118, R154, R367); its records stay. -/
def State.unload (s : State) (n : Nat) (j : Slot) : State :=
  (({ s.keepRecs j with prot := s.prot.filter (fun p => decide (p.ctx ≠ j.ctx.toNat)) } : State).setSlot n none).syncResident.syncDet

/-- CTX_UNLOAD (R154). -/
def defCtxUnload : CmdDef where
  code := 0x0302
  acc := .s
  res := rContexts
  check := pCheck 2 (fun _ => true)
  item := fun p => [rdLE p 0 2 % 16]
  run := fun s c =>
    match s.slotById (rdLE c.p 0 2) with
    | none => outSt s stOUT_OF_RANGE
    | some x =>
      if s.runCtx = x.2.ctx.toNat then outSt s stBAD_STATE
      else if s.reelUses x.2.ctx.toNat then outSt s stBUSY
      else outOk (s.unload x.1 x.2) []

def execCtxUnload (r : Req) (s : State) : Res := s.cuard defCtxUnload r

/-- A switch is in progress (R152); one the quantum called for in this tick gives way to a command (R153). -/
def State.switching (s : State) : Bool :=
  (s.seqr.giving.isSome && !(s.seqr.giving == some .quantum && s.seqr.gaveAt == s.now)) || s.seqr.target.isSome

/-- The slot a CTX_SWITCH names, 0xFF the next READY one. -/
def State.switchTo (s : State) (v : Nat) : Option Nat :=
  if v = 255 then
    (match s.nextReady (if s.runCtx = 0 then s.seqr.lastSlot else s.runSlot) with
    | some n => some n
    | none => none)
  else some v

/-- CTX_SWITCH (R152, R364, R423, R447). -/
def defCtxSwitch : CmdDef where
  code := 0x0303
  acc := .s
  res := rContexts
  check := pCheck 1 (fun p => decide (rdLE p 0 1 ≤ 15) || rdLE p 0 1 == 255)
  item := fun p => [rdLE p 0 1]
  run := fun s c =>
    if s.quarActive || s.tstrictRuns || s.switching then outSt s stBUSY
    else
      match s.switchTo (rdLE c.p 0 1) with
      | none => outSt s stBAD_STATE
      | some n =>
        match s.slotOf n with
        | none => outSt s stBAD_STATE
        | some j =>
          if j.st = .restorePending ∧ s.reel.restore.isSome = true then outSt s stBUSY
          else if s.readyAt n then outHeld (s.beginSwitch .command (some n)) .giveWay
          else outSt s stBAD_STATE

def execCtxSwitch (r : Req) (s : State) : Res := s.cuard defCtxSwitch r

/-- The state code of CTX_STATUS. -/
def CtxSt.code : CtxSt → Nat
  | .validating | .ready | .suspended => 0
  | .running => 1
  | .ended => 2
  | .faulted => 3
  | .restorePending => 4

/-- CTX_STATUS (R71, R154): reading the status of an ended context frees its slot. -/
def defCtxStatus : CmdDef where
  code := 0x0304
  acc := .s
  res := rContexts
  check := pCheck 2 (fun _ => true)
  run := fun s c =>
    match s.slotById (rdLE c.p 0 2) with
    | none => outSt s stOUT_OF_RANGE
    | some x =>
      let j := x.2
      let t := if j.st = .ended ∨ j.st = .faulted then (j.flags, j.counts) else s.tally j
      let cnt (l : Nat) : List Byte := match t.2[l]? with
        | some v => toLE 8 v.1 ++ toLE 8 v.2
        | none => toLE 16 0
      let b := toLE 1 j.st.code ++ toLE 2 j.fault ++ toLE 4 t.1 ++ toLE 8 j.step.toNat ++ (List.range 16).flatMap cnt
      outOk (if j.st = .ended then s.unload x.1 j else s) b

def execCtxStatus (r : Req) (s : State) : Res := s.cuard defCtxStatus r

/-- QUANTUM_SET (R157). -/
def defQuantumSet : CmdDef where
  code := 0x0305
  acc := .s
  res := rContexts
  check := pCheck 4 (fun p => rdLE p 0 4 == 0 || decide (100000 ≤ rdLE p 0 4))
  item := noTarget
  run := fun s c => outOk (s.wr Reg.SKN_QUANTUM (rdLE c.p 0 4)) []

def execQuantumSet (r : Req) (s : State) : Res := s.cuard defQuantumSet r

/-- A MEM_STRIPE value with no reserved bit or encoding (R227). -/
def stripeOk (v : Nat) : Bool := decide (v < 32) && v % 4 != 3 && v / 4 % 4 != 3

/-- Parameters of STRIPE_SET. -/
def stripeArgs (_ : State) (p : List Byte) : Nat :=
  let f := rdLE p 1 1
  let n := rdLE p 2 1
  if p.length < 3 then stBAD_LENGTH
  else if 3 < rdLE p 0 1 ∨ 47 < f ∨ n = 0 ∨ 48 < f + n then stOUT_OF_RANGE
  else if p.length ≠ 3 + n then stBAD_LENGTH
  else if (List.range n).all (fun i => stripeOk (rdLE p (3 + i) 1)) then 0 else stOUT_OF_RANGE

/-- STRIPE_SET (R226). -/
def defStripeSet : CmdDef where
  code := 0x0306
  acc := .s
  res := rContexts
  check := stripeArgs
  item := fun p => (List.range (rdLE p 2 1)).map (fun i => 48 * rdLE p 0 1 + rdLE p 1 1 + i)
  run := fun s c =>
    if s.anyResident then outSt s stBUSY
    else outOk ((List.range (rdLE c.p 2 1)).foldl (fun s i => s.writeStripe (rdLE c.p 0 1) (rdLE c.p 1 1 + i) (rdLE c.p (3 + i) 1)) s) []

def execStripeSet (r : Req) (s : State) : Res := s.cuard defStripeSet r

/-- SPN_GET (R536). -/
def defSpnGet : CmdDef where
  code := 0x0307
  acc := .s
  check := pCheck 1 (fun p => decide (rdLE p 0 1 ≤ 17))
  run := fun s c => outRegs s (wordsFrom (Reg.SPN_STATE (rdLE c.p 0 1)) 37)

def execSpnGet (r : Req) (s : State) : Res := s.cuard defSpnGet r

/-- CHN_GET (R536). -/
def defChnGet : CmdDef where
  code := 0x0308
  acc := .s
  check := pCheck 2 (fun p => decide (rdLE p 0 1 ≤ 17) && decide (rdLE p 1 1 ≤ 63))
  run := fun s c =>
    let ps := rdLE c.p 0 1
    let n := rdLE c.p 1 1
    outRegs s [Reg.CHN_OUT_ST ps n, Reg.CHN_SENT ps n, Reg.CHN_DROP ps n, Reg.CHN_OSTALL ps n,
      Reg.CHN_IN_ST ps n, Reg.CHN_RCVD ps n, Reg.CHN_DISC ps n, Reg.CHN_ISTALL ps n]

def execChnGet (r : Req) (s : State) : Res := s.cuard defChnGet r

end Sys2Proof.Machine
end

