-- ==== Sys2Proof/Machine/CmdHealth.lean ====
section
/-! DEFINITION. Cuard commands of groups 0x04xx, 0x05xx and 0x06xx: fences, repair, suspect policy, tests, resets and
quarantine (spec/17_cuard_commands.md R537 to R539; spec/12_self_test_repair_ageing.md R387 to R399;
spec/13_hangs_resets_recovery.md R407, R422 to R432). -/

namespace Sys2Proof.Machine

/-! ### Units (R41, R42). -/

/-- A unit ID whose kind is not reserved and whose index is in range. -/
def unitOk (u : Nat) : Bool :=
  let n := u % 2048
  match u / 2048 with
  | 0 => decide (n ≤ 17)
  | 1 => decide (n ≤ 7)
  | 2 => decide (n ≤ 3)
  | 3 => decide (n ≤ 131)
  | 4 => decide (n ≤ 255) && decide (n % 64 ≤ 28)
  | 5 => decide (n ≤ 48)
  | 6 => decide (n ≤ 128)
  | 7 => decide (n ≤ 287)
  | 8 => decide (n ≤ 1055)
  | 9 => decide (n ≤ 7)
  | 10 => decide (n ≤ 63)
  | 11 => decide (n ≤ 23)
  | _ => u == 0xFFFF

/-- A unit FENCE and RETURN take (R537). -/
def fenceable (u : Nat) : Bool :=
  unitOk u && (u / 2048 == 0 || u / 2048 == 3 || (u / 2048 == 5 && u % 2048 != 48) || u / 2048 == 9)

/-- The half-ports of a port unit. -/
def halvesOf (n : Nat) : List Nat := if n < 16 then [2 * n, 2 * n + 1] else [n - 16]

/-- A fenceable unit is fenced: a port is while its soft entry stands (R398). -/
def State.fencedUnit (s : State) (u : Nat) : Bool :=
  let n := u % 2048
  match u / 2048 with
  | 0 => s.spnState n == 6 || s.hlth.moves.any (fun m => m.src == n && m.why == .fence)
  | 3 => s.rf (Reg.MEM_CH_STAT n) 2 0 == 4
  | 5 => (s.hlth.soft.find u 0).isSome
  | _ => !s.rbit Reg.MGMT_CORE_ST n

/-- Fences a unit that is not (R292, R394, R398). -/
def State.fenceUnit (s : State) (u : Nat) : State :=
  let n := u % 2048
  match u / 2048 with
  | 0 => s.fenceSpindle n
  | 3 => (s.softCreate u 0).fenceChan n 1
  | 5 => (halvesOf n).foldl State.disableHalf (s.softCreate u 0)
  | _ => (s.softCreate u 0).fenceCore n

/-! ### Group 0x04xx (R537). -/

/-- FENCE (R394, R398). -/
def defFence : CmdDef where
  code := 0x0401
  acc := .s
  res := rHealth
  check := pCheck 2 (fun p => fenceable (rdLE p 0 2))
  item := fun p => [rdLE p 0 2]
  run := fun s c =>
    let u := rdLE c.p 0 2
    outOk (if s.fencedUnit u then s else s.fenceUnit u) []

def execFence (r : Req) (s : State) : Res := s.cuard defFence r

/-- A spindle in a rolling phase (R399). -/
def State.rolling (s : State) (u : Nat) : Bool :=
  decide (u < 18) && s.rf Reg.TEST_ROLL_ST 2 0 != 0 && s.rf Reg.TEST_ROLL_ST 12 8 == u

/-- The return of a unit begins: a spindle by a level-1 reset of source 4, then the tests (R398, R408). -/
def State.beginReturn (s : State) (u : Nat) : State :=
  let s : State := { s with hlth := { s.hlth with returning := s.hlth.returning ++ [{ unit := u, start := s.now }] } }
  if u < 18 then (s.requestReset 1 u 4).2 else s

/-- RETURN (R398, R399). -/
def defReturn : CmdDef where
  code := 0x0402
  acc := .s
  res := rHealth
  check := pCheck 2 (fun p => fenceable (rdLE p 0 2))
  item := fun p => [rdLE p 0 2]
  run := fun s c =>
    let u := rdLE c.p 0 2
    if s.rolling u then outSt s stBUSY
    else if s.fusedBad u 0 then outSt s stBAD_STATE
    else if !s.fencedUnit u then outOk s []
    else outFirst (s.beginReturn u) (.returning u) none

def execReturnUnit (r : Req) (s : State) : Res := s.cuard defReturn r

/-- ROW_REPAIR (R240). -/
def defRowRepair : CmdDef where
  code := 0x0403
  acc := .s
  res := rHealth
  check := pCheck 6 (fun p => unitOk (rdLE p 0 2) && rdLE p 0 2 / 2048 == 3 && decide (rdLE p 2 1 ≤ 3) && decide (rdLE p 3 1 ≤ 15) &&
    decide (rdLE p 4 2 ≤ 3071))
  item := fun p => [rdLE p 0 6]
  run := fun s c =>
    let ch := rdLE c.p 0 2 % 2048
    let layer := rdLE c.p 2 1
    let bank := rdLE c.p 3 1
    let row := rdLE c.p 4 2
    let r := s.startRepair ch layer bank row false
    if r.2.isSome then outSt r.1 stHW_FAULT else outHeld r.1 (.repair ch layer bank row)

def execRowRepair (r : Req) (s : State) : Res := s.cuard defRowRepair r

/-- A DETAIL of R388 for a unit. -/
def detailOk (u d : Nat) : Bool :=
  let k := u / 2048
  if k = 8 then decide (d < 2 ^ 15) && decide (d % 4096 ≤ 3071) else if k = 7 then decide (d ≤ 12287) else d == 0

/-- The first repair entry never burned. -/
def State.freeFuse (s : State) : Option Nat := (List.range 512).find? (fun n => s.rd (Reg.FUSE_MAP n) == 0)

/-- A repair entry is burned (R390); `bad` where it fails verification. -/
def State.burnRepair (s : State) (n u d : Nat) (bad : Bool) : State :=
  let left := s.rf Reg.FUSE_FREE 9 0 - 1
  let s := (s.wr (Reg.FUSE_MAP n) (if bad then 0xFFFF0000 else u * 2 ^ 16 + 2 ^ 15 + d)).wf Reg.FUSE_FREE 9 0 left
  let s := s.wr Reg.FUSE_BURN_ST (u * 2 ^ 16 + if bad then 2 else 1)
  let s := if bad then s else s.softRemove u d
  s.event 0x0806 u 1 [(16, 2, u), (18, 2, d), (20, 1, boolN bad), (21, 2, left)]

/-- Parameters of FUSE_BURN by form. -/
def burnArgs (_ : State) (p : List Byte) : Nat :=
  if p.isEmpty then stBAD_LENGTH
  else if rdLE p 0 1 = 0 then (if p.length ≠ 5 then stBAD_LENGTH else if unitOk (rdLE p 1 2) && detailOk (rdLE p 1 2) (rdLE p 3 2) then 0 else stOUT_OF_RANGE)
  else if rdLE p 0 1 = 1 then (if p.length ≠ 49 then stBAD_LENGTH else 0)
  else stOUT_OF_RANGE

/-- FUSE_BURN (R390, R498). -/
def defFuseBurn (bad : Bool) : CmdDef where
  code := 0x0404
  acc := .q
  check := burnArgs
  run := fun s c =>
    let left (s : State) : List Byte := toLE 2 (s.rf Reg.FUSE_FREE 9 0)
    if rdLE c.p 0 1 = 1 then
      if s.fuse.owner.isSome then outSt s stBAD_STATE
      else outOk { s with fuse := { s.fuse with owner := some (c.p.drop 1) } } (left s)
    else
      match s.freeFuse with
      | none => outSt s stOUT_OF_RANGE
      | some n =>
        let s := s.burnRepair n (rdLE c.p 1 2) (rdLE c.p 3 2) bad
        if bad then outSt s stHW_FAULT else outOk s (left s)

/-- FUSE_BURN; `bad` where the entry burned fails its verification (R390). -/
def execFuseBurn (r : Req) (bad : Bool) (s : State) : Res := s.cuard (defFuseBurn bad) r

/-- SPOL_SET (R429). -/
def defSpolSet : CmdDef where
  code := 0x0405
  acc := .s
  res := rHealth
  check := pCheck 1 (fun p => decide (rdLE p 0 1 ≤ 2))
  item := noTarget
  run := fun s c => outOk (s.wf Reg.RST_SPOL 1 0 (rdLE c.p 0 1)) []

def execSpolSet (r : Req) (s : State) : Res := s.cuard defSpolSet r

/-- Margin raises and the clock step end (R432). -/
def State.clearMargin (s : State) : State :=
  let s := (List.range 24).foldl (fun s d => s.wr (Reg.RST_MARGIN d) 0) s
  let s := s.syncPlan s.aMhz
  if s.rbit Reg.RST_SPOL 2 then ((s.wf Reg.RST_SPOL 2 2 0).setMargined false).askFreq 3 false else s.setMargined false

/-- MARGIN_CLEAR (R432): ACCEPTED where the clock return is deferred. -/
def defMarginClear : CmdDef where
  code := 0x0406
  acc := .s
  res := rHealth
  item := noTarget
  run := fun s _ =>
    let step := s.rbit Reg.RST_SPOL 2
    let t := s.clearMargin
    if !step then outOk t []
    else if s.tstrictRuns then outSt t stACCEPTED
    else outHeld t .freq

def execMarginClear (r : Req) (s : State) : Res := s.cuard defMarginClear r

/-- CHAN_CFG (R239, R241, R249). -/
def defChanCfg : CmdDef where
  code := 0x0407
  acc := .s
  res := rHealth
  check := pCheck 7 (fun p => decide (rdLE p 0 1 ≤ 131) && decide (rdLE p 1 1 < 4) && decide (1 ≤ rdLE p 2 1 ∧ rdLE p 2 1 ≤ 168) &&
    decide (1 ≤ rdLE p 3 4))
  item := fun p => [rdLE p 0 1]
  run := fun s c =>
    let ch := rdLE c.p 0 1
    outOk (((s.wf (Reg.MEM_CH_CTL ch) 2 1 (rdLE c.p 1 1)).wf (Reg.MEM_SCRUB_CTL ch) 7 0 (rdLE c.p 2 1)).wr (Reg.MEM_CE_THR ch) (rdLE c.p 3 4)) []

def execChanCfg (r : Req) (s : State) : Res := s.cuard defChanCfg r

/-- REPAIR_GET: the entries of the soft-repair record, zero beyond them (R388). -/
def defRepairGet : CmdDef where
  code := 0x0408
  acc := .s
  check := pCheck 4 (fun p => decide (rdLE p 0 2 ≤ 255) && decide (1 ≤ rdLE p 2 2 ∧ rdLE p 2 2 ≤ 256))
  run := fun s c =>
    let r := s.hlth.soft
    let n := 8 * rdLE c.p 2 2
    let b := ((softBytes r).drop 0x20).take (8 * r.ents.length)
    outOk s (toLE 2 r.ents.length ++ ((b.drop (8 * rdLE c.p 0 2)) ++ List.replicate n 0).take n)

def execRepairGet (r : Req) (s : State) : Res := s.cuard defRepairGet r

/-! ### Group 0x05xx (R538). -/

/-- TEST_POLICY_SET (R392): kept in the soft-repair record. -/
def defTestPolicySet : CmdDef where
  code := 0x0501
  acc := .s
  res := rDevice
  check := pCheck 2 (fun p => decide (1 ≤ rdLE p 0 1 ∧ rdLE p 0 1 ≤ 16) && decide (rdLE p 1 1 ≤ 128))
  item := noTarget
  run := fun s c => outOk (s.setSoft { s.hlth.soft with minL := rdLE c.p 0 1, maxFch := rdLE c.p 1 1 }) []

def execTestPolicySet (r : Req) (s : State) : Res := s.cuard defTestPolicySet r

/-- ROLL_CFG (R395, R406). -/
def defRollCfg : CmdDef where
  code := 0x0502
  acc := .s
  res := rHealth
  check := pCheck 10 (fun p => decide (rdLE p 0 1 < 4) && decide (60 ≤ rdLE p 1 4 ∧ rdLE p 1 4 ≤ 86400) &&
    decide (1 ≤ rdLE p 5 1 ∧ rdLE p 5 1 ≤ 60) && decide (1000000 ≤ rdLE p 6 4))
  item := noTarget
  run := fun s c =>
    let s := (s.wf Reg.TEST_CTL 1 0 (rdLE c.p 0 1)).wf Reg.TEST_CTL 15 8 (rdLE c.p 5 1)
    outOk ((s.wr Reg.TEST_ROLL_PERIOD (rdLE c.p 1 4)).wr Reg.TEST_ROLL_WAIT (rdLE c.p 6 4)) []

def execRollCfg (r : Req) (s : State) : Res := s.cuard defRollCfg r

/-- TEST_GET (R538). -/
def defTestGet : CmdDef where
  code := 0x0503
  acc := .s
  run := fun s _ => outRegs s ([Reg.TEST_ROLL_ST, Reg.TEST_SU, Reg.TEST_POLICY] ++ (List.range 18).map Reg.TEST_RESULT ++
    [Reg.TEST_ROLL_DONE, Reg.TEST_ROLL_FAIL, Reg.TEST_ROLL_ABORT, Reg.FUSE_FREE, Reg.FUSE_PROP_CNT])

def execTestGet (r : Req) (s : State) : Res := s.cuard defTestGet r

/-! ### Group 0x06xx (R539). -/

/-- A scope of a level (R407): level 2 takes a ply, or a spare that occupies no position. -/
def State.scopeOk (s : State) (level scope : Nat) : Bool :=
  if !unitOk scope then false
  else if level = 1 then scope / 2048 == 0
  else if level = 2 then scope / 2048 == 1 || (isSpare scope && (s.logicalOf scope).isNone)
  else if level = 3 then scope / 2048 == 2
  else level == 4 && scope == devUnit

/-- RESET (R407, R409). -/
def defReset : CmdDef where
  code := 0x0601
  acc := .s
  res := fun p => some (if rdLE p 0 1 = 4 then 0 else 3)
  check := fun s p => pCheck 3 (fun p => s.scopeOk (rdLE p 0 1) (rdLE p 1 2)) s p
  item := fun p => [rdLE p 0 3]
  run := fun s c =>
    let r := s.requestReset (rdLE c.p 0 1) (rdLE c.p 1 2) 1
    outFirst r.2 (.reset r.1 (rdLE c.p 0 1)) none

def execReset (r : Req) (s : State) : Res := s.cuard defReset r

/-- SUSPECT_GET (R422, R435). -/
def defSuspectGet : CmdDef where
  code := 0x0602
  acc := .s
  run := fun s _ => outOk s (s.viewWords ((List.range 16).flatMap (fun i => wordsFrom (Reg.RST_SUSP0 i) 6)))

def execSuspectGet (r : Req) (s : State) : Res := s.cuard defSuspectGet r

/-- SUSPECT_CLEAR (R422). -/
def defSuspectClear : CmdDef where
  code := 0x0603
  acc := .s
  res := rHealth
  item := noTarget
  run := fun s _ =>
    if s.quarActive then outSt s stBUSY
    else
      let s := (List.range 16).foldl (fun s i => (wordsFrom (Reg.RST_SUSP0 i) 6).foldl (fun s a => s.wr a 0) s) s
      outOk { s with rst := { s.rst with susp := [] } } []

def execSuspectClear (r : Req) (s : State) : Res := s.cuard defSuspectClear r

/-- The instance in a slot replays suspect `i` (R423): the same skein and seed. -/
def State.replays (s : State) (i : Nat) (j : Slot) : Bool :=
  let k := tget {} s.rst.susp i
  s.rf (Reg.RST_SUSP0 i) 15 0 != 0 && decide (j.digest = k.digest) && decide (j.job.seed = k.seed)

/-- QUAR_START (R423): answered once the instance runs. -/
def defQuarStart : CmdDef where
  code := 0x0604
  acc := .s
  res := rContexts
  check := pCheck 2 (fun p => decide (rdLE p 0 1 ≤ 15) && decide (rdLE p 1 1 ≤ 15))
  item := noTarget
  run := fun s c =>
    let i := rdLE c.p 0 1
    let n := rdLE c.p 1 1
    if s.devState ≠ stService ∨ s.runCtx ≠ 0 ∨ s.quarActive ∨ s.switching then outSt s stBAD_STATE
    else
      match s.slotOf n with
      | none => outSt s stBAD_STATE
      | some j =>
        if s.readyAt n && s.replays i j then
          let s := (s.wr Reg.RST_QUAR (1 + i * 2 ^ 4 + j.ctx.toNat * 2 ^ 16)).wf Reg.RST_STAT 16 16 1
          outHeld (s.beginSwitch .command (some n)) .giveWay
        else outSt s stBAD_STATE

def execQuarStart (r : Req) (s : State) : Res := s.cuard defQuarStart r

/-- QUAR_END (R424): verdict ABORTED. -/
def defQuarEnd : CmdDef where
  code := 0x0605
  acc := .s
  res := rContexts
  item := noTarget
  run := fun s _ => if s.quarActive then outOk (s.quarEnd 4 0) (toLE 1 4) else outSt s stBAD_STATE

def execQuarEnd (r : Req) (s : State) : Res := s.cuard defQuarEnd r

/-- HANG_CFG (R415 to R419). -/
def defHangCfg : CmdDef where
  code := 0x0606
  acc := .s
  res := rHealth
  check := pCheck 8 (fun p => decide (rdLE p 0 1 < 8) && decide (1 ≤ rdLE p 1 1 ∧ rdLE p 1 1 ≤ 8) && decide (1 ≤ rdLE p 2 2) &&
    decide (100000 ≤ rdLE p 4 4))
  item := noTarget
  run := fun s c =>
    let s := (s.wf Reg.RST_CTL 2 0 (rdLE c.p 0 1)).wr Reg.RST_WD (rdLE c.p 1 1 + rdLE c.p 2 2 * 2 ^ 16)
    outOk (s.wr Reg.RST_WDOG (rdLE c.p 4 4)) []

def execHangCfg (r : Req) (s : State) : Res := s.cuard defHangCfg r

end Sys2Proof.Machine
end

