-- ==== Sys2Proof/Machine/CmdFab.lean ====
section
/-! DEFINITION. Cuard commands of group 0x07xx: fabric tables, ports, dike rings, peers and withdrawal
(spec/17_cuard_commands.md R540; spec/09_fabric.md R285 to R324; spec/10_collectives.md R342 to R350;
spec/01_architecture.md R38; spec/18_start_up.md R556). -/

namespace Sys2Proof.Machine

/-! ### Coordinates and addresses. -/

/-- A coordinate lies within dimensions coded as FAB_DIMS codes them (R15). -/
def withinDims (c d : Nat) : Bool :=
  decide (c < 8192) && decide (bitsOf c 3 0 ≤ bitsOf d 3 0) && decide (bitsOf c 7 4 ≤ bitsOf d 7 4) && decide (bitsOf c 12 8 ≤ bitsOf d 12 8)

/-- The start-up phase shown (R568). -/
def State.phase (s : State) : Nat := s.rf Reg.CMD_DEV_STATE 27 24

/-- COORD_SET (R556): held until phase 9 takes it, which under STRAP_SAFE it never does (R553). -/
def defCoordSet : CmdDef where
  code := 0x0701
  acc := .s
  res := rFabric
  check := pCheck 5 (fun p => decide (rdLE p 2 1 ≤ 3) && decide (rdLE p 3 2 < 8192) && withinDims (rdLE p 0 2) (rdLE p 3 2))
  item := noTarget
  run := fun s c =>
    if s.devState ≠ stBringup ∨ s.rbit Reg.CMD_STRAPS 4 = true ∨ 10 ≤ s.phase then outSt s stBAD_STATE
    else outOk { s with boot := { s.boot with coord := some (rdLE c.p 0 2, rdLE c.p 2 1, rdLE c.p 3 2) } } []

def execCoordSet (r : Req) (s : State) : Res := s.cuard defCoordSet r

/-- FAB_ADDR_SET (R295, R296, R323): the IPv6 prefix in its network order. -/
def defFabAddrSet : CmdDef where
  code := 0x0702
  acc := .s
  res := rFabric
  check := pCheck 24 (fun p => bitOf (rdLE p 0 2) 9 && !bitOf (rdLE p 0 2) 8 && decide (0x600 ≤ rdLE p 3 2) && decide (rdLE p 5 2 ≤ 4094) &&
    decide (1 ≤ rdLE p 7 2) && decide (rdLE p 21 2 < 2 ^ 14) && decide (rdLE p 23 1 ≤ 1))
  item := noTarget
  run := fun s c =>
    let p := c.p
    let v6 := beNat (sliceB p 9 12)
    let s := (s.wr Reg.FAB_MAC (rdLE p 0 3)).wr Reg.FAB_ETYPE (rdLE p 3 4)
    let s := (List.range 3).foldl (fun s k => s.wr (Reg.FAB_IP6_PFX k) (v6 / 2 ^ (32 * k))) (s.wr Reg.FAB_UDP (rdLE p 7 2))
    outOk ((s.wr Reg.FAB_IP4_PFX (rdLE p 21 2)).wf Reg.FAB_CTL 2 2 (rdLE p 23 1)) []

def execFabAddrSet (r : Req) (s : State) : Res := s.cuard defFabAddrSet r

/-! ### Tables (R311 to R314). -/

/-- Parameters of a table write: bank, first entry, count and entries of `w` bytes. -/
def tableArgs (most size w : Nat) (ok : Nat → Bool) (_ : State) (p : List Byte) : Nat :=
  let n := rdLE p 3 2
  if p.length < 5 then stBAD_LENGTH
  else if 1 < rdLE p 0 1 ∨ n = 0 ∨ most < n ∨ size < rdLE p 1 2 + n then stOUT_OF_RANGE
  else if p.length ≠ 5 + w * n then stBAD_LENGTH
  else if (List.range n).all (fun i => ok (rdLE p (5 + w * i) w)) then 0 else stOUT_OF_RANGE

/-- RT_WRITE (R309, R312); a switch due in the same tick comes first (R325). -/
def defRtWrite : CmdDef where
  code := 0x0703
  acc := .s
  res := rFabric
  check := tableArgs 1000 8192 4 (fun _ => true)
  item := fun p => [rdLE p 0 1]
  run := fun s c =>
    let b := rdLE c.p 0 1
    let s := s.epochDue
    if s.bankOpen b then
      outOk ((List.range (rdLE c.p 3 2)).foldl (fun s i => s.wr (Reg.FAB_RT b (rdLE c.p 1 2 + i)) (rdLE c.p (5 + 4 * i) 4)) s).rerouteWaiting []
    else outSt s stBUSY

def execRtWrite (r : Req) (s : State) : Res := s.cuard defRtWrite r

/-- MC_WRITE (R312, R314); a switch due in the same tick comes first (R325). -/
def defMcWrite : CmdDef where
  code := 0x0704
  acc := .s
  res := rFabric
  check := tableArgs 500 16384 8 (fun v => decide (v < 2 ^ 62))
  item := fun p => [rdLE p 0 1]
  run := fun s c =>
    let b := rdLE c.p 0 1
    let s := s.epochDue
    if s.bankOpen b then
      outOk ((List.range (rdLE c.p 3 2)).foldl (fun s i =>
        let g := rdLE c.p 1 2 + i
        (s.wr (Reg.FAB_MC_LO b g) (rdLE c.p (5 + 8 * i) 4)).wr (Reg.FAB_MC_HI b g) (rdLE c.p (9 + 8 * i) 4)) s) []
    else outSt s stBUSY

def execMcWrite (r : Req) (s : State) : Res := s.cuard defMcWrite r

/-- EPOCH_SWITCH (R312, R313, R491): the PTP time is 6 bytes of seconds and 4 of nanoseconds. -/
def defEpochSwitch : CmdDef where
  code := 0x0705
  acc := .s
  res := rFabric
  check := pCheck 12 (fun p => decide (rdLE p 0 1 ≤ 1) && decide (1 ≤ rdLE p 1 1 ∧ rdLE p 1 1 ≤ 3) && bitOf (rdLE p 1 1) (rdLE p 0 1) &&
    decide (rdLE p 8 4 < 1000000000))
  item := fun p => [rdLE p 0 1]
  run := fun s c =>
    if s.rbit Reg.MGMT_PTP_CTL 0 = false then outSt s stBAD_STATE
    else if s.rbit Reg.FAB_EPOCH 3 then outSt s stBUSY
    else
      let e : EpochAt := { bank := rdLE c.p 0 1, valid := rdLE c.p 1 1, sec := rdLE c.p 2 6, ns := rdLE c.p 8 4 }
      outFirst { s with fab := { s.fab with epoch := some e } } .epoch none

def execEpochSwitch (r : Req) (s : State) : Res := s.cuard defEpochSwitch r

/-! ### Ports (R285 to R292, R324). -/

/-- PORT_CFG (R324): effective at the next training. -/
def defPortCfg : CmdDef where
  code := 0x0706
  acc := .s
  res := rFabric
  check := pCheck 4 (fun p => decide (rdLE p 0 1 ≤ 15) && decide (rdLE p 1 1 < 16) && decide (rdLE p 1 1 % 4 ≠ 3) &&
    (List.range 2).all (fun n => decide (rdLE p (2 + n) 1 < 32) && decide (rdLE p (2 + n) 1 / 2 % 4 ≠ 3)))
  item := fun p => [rdLE p 0 1]
  run := fun s c =>
    let q := rdLE c.p 0 1
    let s := s.wf (Reg.PORT_CTL q) 4 1 (rdLE c.p 1 1)
    outOk ((List.range 2).foldl (fun s n => s.wf (Reg.PORT_HCTL q n) 4 0 (rdLE c.p (2 + n) 1)) s) []

def execPortCfg (r : Req) (s : State) : Res := s.cuard defPortCfg r

/-- The half-port, or the whole port, is fenced and returns only by RETURN (R398). -/
def State.portFenced (s : State) (h : Nat) : Bool :=
  (s.hlth.soft.find (unitId 5 (16 + h)) 0).isSome || (s.hlth.soft.find (unitId 5 (h / 2)) 0).isSome

/-- A DISABLED half-port is enabled and trains (R292). -/
def State.enableHalf (s : State) (h : Nat) : State :=
  if s.portFenced h then s
  else
    let s := s.wf (Reg.PORT_HCTL (h / 2) (h % 2)) 0 0 1
    if s.portSt h = 0 ∧ (h % 2 = 0 ∨ bitOf (s.rd (Reg.PORT_CTL (h / 2))) 3 = true) then s.retrain h else s

/-- PORT_ACT (R292). -/
def defPortAct : CmdDef where
  code := 0x0707
  acc := .s
  res := rFabric
  check := pCheck 2 (fun p => decide (rdLE p 0 1 ≤ 31) && decide (rdLE p 1 1 ≤ 3))
  item := fun p => [rdLE p 0 1]
  run := fun s c =>
    let h := rdLE c.p 0 1
    let done (s : State) : Out := outOk s.dikeDone (toLE 1 (s.portSt h))
    match rdLE c.p 1 1 with
    | 0 => done (s.disableHalf h)
    | 1 => done (s.enableHalf h)
    | 2 => if s.portSt h = 5 then done (s.returnHalf h).syncDgPort else outSt s stBAD_STATE
    | _ => if s.portSt h = 2 then done (s.retrain h) else outSt s stBAD_STATE

def execPortAct (r : Req) (s : State) : Res := s.cuard defPortAct r

/-- PORT_GW_SET (R324). -/
def defPortGwSet : CmdDef where
  code := 0x0708
  acc := .s
  res := rFabric
  check := pCheck 7 (fun p => decide (rdLE p 0 1 ≤ 31))
  item := fun p => [rdLE p 0 1]
  run := fun s c =>
    let h := rdLE c.p 0 1
    outOk ((s.wr (Reg.PORT_GW_LO (h / 2) (h % 2)) (rdLE c.p 1 4)).wr (Reg.PORT_GW_HI (h / 2) (h % 2)) (rdLE c.p 5 2)) []

def execPortGwSet (r : Req) (s : State) : Res := s.cuard defPortGwSet r

/-- One half-port as TOPO_GET shows it: DIKE is PORT_HCTL's. -/
def State.topoOf (s : State) (h : Nat) : List Byte :=
  let r := Reg.PORT_ST (h / 2) (h % 2)
  let q := Reg.PORT_PARTNER (h / 2) (h % 2)
  toLE 1 (s.portSt h) ++ toLE 1 (s.rf r 6 4) ++ toLE 1 (s.rf r 9 8) ++ toLE 1 (s.rf r 23 16) ++
    toLE 2 (s.rf q 12 0 + if s.rbit q 31 then 2 ^ 15 else 0) ++ toLE 1 (s.rf q 17 13) ++ toLE 1 (bitsOf (s.hctl h) 6 5)

/-- TOPO_GET (R540). -/
def defTopoGet : CmdDef where
  code := 0x0709
  acc := .s
  run := fun s _ => outOk s ((List.range 32).flatMap s.topoOf)

def execTopoGet (r : Req) (s : State) : Res := s.cuard defTopoGet r

/-- Half-ports whose dike-ring mode a DIKE_SET changes. -/
def State.dikeChanges (s : State) (p : List Byte) : List Nat :=
  (List.range 32).filter (fun h => bitsOf (s.hctl h) 6 5 != rdLE p (4 + h) 1)

/-- DIKE_SET (R344, R429): final once the half-ports it retrains have trained. -/
def defDikeSet : CmdDef where
  code := 0x070A
  acc := .s
  res := rFabric
  check := pCheck 36 (fun p => decide (1 ≤ rdLE p 2 2 ∧ rdLE p 2 2 ≤ 8192) && (List.range 32).all (fun h => decide (rdLE p (4 + h) 1 ≤ 2)))
  item := noTarget
  run := fun s c =>
    let hs := s.dikeChanges c.p
    let s := (s.wf Reg.COLL_DIKE 15 0 (rdLE c.p 0 2)).wf Reg.RST_SPOL 29 16 (rdLE c.p 2 2)
    let s := hs.foldl (fun s h => s.wf (Reg.PORT_HCTL (h / 2) (h % 2)) 6 5 (rdLE c.p (4 + h) 1)) s
    let live := hs.filter (fun h => h % 2 == 0 || bitOf (s.rd (Reg.PORT_CTL (h / 2))) 3)
    outFirst (live.foldl State.retrain s) (.dike (live.foldl (fun m h => m + 2 ^ h) 0)) none

def execDikeSet (r : Req) (s : State) : Res := s.cuard defDikeSet r

/-! ### Peers, shadow and the engine (R342 to R350). -/

/-- Parameters of WATCH_SET. -/
def watchArgs (_ : State) (p : List Byte) : Nat :=
  let f := rdLE p 0 1
  let n := rdLE p 1 1
  if p.length < 2 then stBAD_LENGTH
  else if 63 < f ∨ n = 0 ∨ 64 < f + n then stOUT_OF_RANGE
  else if p.length ≠ 2 + 2 * n then stBAD_LENGTH
  else if (List.range n).all (fun i => decide (rdLE p (2 + 2 * i) 2 % 2 ^ 15 < 8192)) then 0 else stOUT_OF_RANGE

/-- WATCH_SET (R342, R343). -/
def defWatchSet : CmdDef where
  code := 0x070B
  acc := .s
  res := rFabric
  check := watchArgs
  item := fun p => (List.range (rdLE p 1 1)).map (rdLE p 0 1 + ·)
  run := fun s c =>
    outOk ((List.range (rdLE c.p 1 1)).foldl (fun s i =>
      let v := rdLE c.p (2 + 2 * i) 2
      s.regWrite (Reg.COLL_PEER (rdLE c.p 0 1 + i)) (v / 2 ^ 15 * 2 ^ 31 + v % 8192)) s) []

def execWatchSet (r : Req) (s : State) : Res := s.cuard defWatchSet r

/-- PEER_CLEAR (R343). -/
def defPeerClear : CmdDef where
  code := 0x070C
  acc := .s
  res := rFabric
  check := pCheck 1 (fun p => decide (rdLE p 0 1 ≤ 63))
  item := fun p => [rdLE p 0 1]
  run := fun s c => if s.peerClears (rdLE c.p 0 1) then outOk (s.clearPeer (rdLE c.p 0 1)) [] else outSt s stBAD_STATE

def execPeerClear (r : Req) (s : State) : Res := s.cuard defPeerClear r

/-- SHADOW_SET (R346). -/
def defShadowSet : CmdDef where
  code := 0x070D
  acc := .s
  res := rFabric
  item := noTarget
  run := fun s _ => if s.anyResident then outSt s stBAD_STATE else outOk (s.wf Reg.COLL_CTL 0 0 1) []

def execShadowSet (r : Req) (s : State) : Res := s.cuard defShadowSet r

/-- SHADOW_PROMOTE (R346): a step already reached promotes at once. -/
def defShadowPromote : CmdDef where
  code := 0x070E
  acc := .q
  check := pCheck 8 (fun _ => true)
  run := fun s c =>
    if s.rbit Reg.COLL_CTL 0 = false then outSt s stBAD_STATE
    else
      let s : State := { s with coll := { s.coll with promote := some (rdLE c.p 0 8) } }
      outOk (if s.runCtx = 0 then s else s.promoteAt (s.rd64 Reg.DET_STEP_LO)) []

def execShadowPromote (r : Req) (s : State) : Res := s.cuard defShadowPromote r

/-- COLL_CFG (R350). -/
def defCollCfg : CmdDef where
  code := 0x070F
  acc := .s
  res := rFabric
  check := pCheck 22 (fun p => decide (10000 ≤ rdLE p 0 4) && decide (1000 ≤ rdLE p 4 4) && decide (10000 ≤ rdLE p 8 4) &&
    decide (100 ≤ rdLE p 12 4) && decide (16 ≤ rdLE p 16 4) && decide (2 ≤ rdLE p 20 1 ∧ rdLE p 20 1 ≤ 15) && decide (rdLE p 21 1 ≤ 1))
  item := noTarget
  run := fun s c =>
    let p := c.p
    let s := ((s.wr Reg.COLL_DEADLINE (rdLE p 0 4)).wr Reg.COLL_AGREE_TMO (rdLE p 4 4)).wr Reg.COLL_RESULT_TMO (rdLE p 8 4)
    let s := (s.wr Reg.COLL_HB_INT (rdLE p 12 4)).wr Reg.COLL_POLL (rdLE p 16 4)
    outOk ((s.wf Reg.COLL_HB_MISS 3 0 (rdLE p 20 1)).wf Reg.COLL_CTL 1 1 (rdLE p 21 1)) []

def execCollCfg (r : Req) (s : State) : Res := s.cuard defCollCfg r

/-! ### Withdrawal (R38). -/

/-- WITHDRAW (R38): in WITHDRAWN, no change. -/
def defWithdraw : CmdDef where
  code := 0x0710
  acc := .q
  run := fun s _ => outOk (if s.devState = stWithdrawn then s else s.withdrawFirst 0x0710) []

def execWithdraw (r : Req) (s : State) : Res := s.cuard defWithdraw r

/-- RETURN_SERVICE (R38, R419): in SERVICE, no change but the counted ticks; its tick is kept for R39. -/
def defReturnService : CmdDef where
  code := 0x0711
  acc := .q
  run := fun s _ =>
    outOk ({ s with rst := { s.rst with back := some (s.now, s.countedTicks) } } : State).applyReturn []

def execReturnService (r : Req) (s : State) : Res := s.cuard defReturnService r

end Sys2Proof.Machine
end

