-- ==== Sys2Proof/Machine/CmdRec.lean ====
section
/-! DEFINITION. Cuard commands of groups 0x08xx to 0x0Cxx: checkpoints, attestation and run records, calibration, logs,
telemetry and expert register access (spec/17_cuard_commands.md R541 to R545; spec/14_checkpoint.md R439 to R447;
spec/16_management_security.md R497, R499, R508; spec/18_start_up.md R565). -/

namespace Sys2Proof.Machine

/-! ### Group 0x08xx (R541). -/

/-- Regions of a checkpoint descriptor: buffer 0, buffer 1, length. -/
def ckRegions (b : List Byte) : List CkRegion :=
  (List.range (rdLE b 0 1)).map (fun r => { b0 := rdLE b (0x30 + 24 * r) 8, b1 := rdLE b (0x38 + 24 * r) 8, len := rdLE b (0x40 + 24 * r) 8 })

/-- No two of a list of regions overlap. -/
def apart : List (Nat × Nat) → Bool
  | [] => true
  | x :: r => r.all (fun y => !overlaps x.1 x.2 y.1 y.2) && apart r

/-- A destination of a checkpoint descriptor breaks no range. -/
def ckDestOk (b : List Byte) (d : Nat) : Bool :=
  let o := 0x10 + 16 * d
  decide (rdLE b o 2 < 8192) && decide (rdLE b (o + 2) 1 ≤ 31) && isZero b (o + 3) 5 && decide (rdLE b (o + 8) 8 < 2 ^ 40) &&
    rdLE b (o + 8) 8 % 65536 == 0

/-- A checkpoint descriptor that R439 takes for a context with the seals `l`. -/
def ckDescOk (b : List Byte) (l : List (Nat × Nat)) : Bool :=
  let rs := ckRegions b
  let all := rs.flatMap (fun r => [(r.b0, r.len), (r.b1, r.len)])
  decide (1 ≤ rdLE b 0 1 ∧ rdLE b 0 1 ≤ 16) && decide (1 ≤ rdLE b 1 1 ∧ rdLE b 1 1 ≤ 2) && decide (rdLE b 2 1 < 2) && isZero b 4 12 &&
    (List.range (rdLE b 1 1)).all (ckDestOk b) && isZero b 0x1B0 80 &&
    rs.all (fun r => r.b0 % 4096 == 0 && r.b1 % 4096 == 0 && r.len % 4096 == 0 && decide (4096 ≤ r.len ∧ r.len ≤ 2 ^ 36)) &&
    all.all (fun x => decide (x.1 + x.2 ≤ mgmtLo) && l.all (fun y => !overlaps x.1 x.2 y.1 y.2)) && apart all

/-- A checkpoint descriptor as kept. -/
def ckDescOf (b : List Byte) : CkDesc :=
  { auto := rdLE b 2 1 == 1, doneCnt := rdLE b 3 1
    dests := (List.range (rdLE b 1 1)).map (fun d => { coord := rdLE b (0x10 + 16 * d) 2, ep := rdLE b (0x12 + 16 * d) 1, base := rdLE b (0x18 + 16 * d) 8 })
    regions := ckRegions b }

/-- CKPT_SETUP (R439): a descriptor read with poison is answered HW_FAULT, as R535 has it of a load descriptor. -/
def defCkptSetup (f : Flips) : CmdDef where
  code := 0x0801
  acc := .s
  res := rContexts
  check := pCheck 10 (fun p => a8Ok p 2 && decide (mgmtLo ≤ rdLE p 2 8 ∧ rdLE p 2 8 + 512 ≤ mgmtHi))
  item := fun p => [rdLE p 0 2 % 16]
  run := fun s c =>
    match s.slotById (rdLE c.p 0 2) with
    | none => outSt s stOUT_OF_RANGE
    | some x =>
      if s.reelUses x.2.ctx.toNat then outSt s stBUSY
      else
        let r := s.devRead .command (rdLE c.p 2 8) 512 f
        let s := r.2.2.2
        if r.2.1 ≠ 0 then outSt s stHW_FAULT
        else if ckDescOk r.1 (x.2.seals.map (fun y => (y.lo, y.hi - y.lo))) then
          outOk (s.setSlot x.1 (some { x.2 with ck := some (ckDescOf r.1) })) []
        else outSt s stOUT_OF_RANGE

/-- CKPT_SETUP, with the bit upsets its read meets. -/
def execCkptSetup (r : Req) (f : Flips) (s : State) : Res := s.cuard (defCkptSetup f) r

/-- CKPT_NOW (R443). -/
def defCkptNow : CmdDef where
  code := 0x0802
  acc := .s
  res := rContexts
  check := pCheck 2 (fun _ => true)
  item := fun p => [rdLE p 0 2 % 16]
  run := fun s c =>
    match s.slotById (rdLE c.p 0 2) with
    | none => outSt s stOUT_OF_RANGE
    | some x =>
      if x.2.ck.isNone then outSt s stBAD_STATE
      else if s.reel.ckpt.isSome then outSt s stBUSY
      else outOk (s.setSlot x.1 (some { x.2 with due := true })) []

def execCkptNow (r : Req) (s : State) : Res := s.cuard defCkptNow r

/-- RESTORE (R447). -/
def defRestore : CmdDef where
  code := 0x0803
  acc := .s
  res := rContexts
  check := pCheck 13 (fun p => decide (rdLE p 2 2 < 8192) && decide (rdLE p 4 1 ≤ 31) && a8Ok p 5)
  item := fun p => [rdLE p 0 2 % 16]
  run := fun s c =>
    if s.rbit Reg.CMD_STRAPS 14 then outSt s stBAD_STATE
    else
      match s.slotById (rdLE c.p 0 2) with
      | none => outSt s stOUT_OF_RANGE
      | some x =>
        if x.2.started ∨ x.2.st ≠ .ready ∨ x.2.ck.isNone then outSt s stBAD_STATE
        else if s.reel.restore.isSome then outSt s stBUSY
        else outFirst (s.restoreStart x.2.ctx.toNat (rdLE c.p 2 2) (rdLE c.p 4 1) (rdLE c.p 5 8)) .restore none

def execRestore (r : Req) (s : State) : Res := s.cuard defRestore r

/-- REEL_CFG (R446, R452). -/
def defReelCfg : CmdDef where
  code := 0x0804
  acc := .s
  res := rContexts
  check := pCheck 16 (fun p => decide (10 ≤ rdLE p 4 4 ∧ rdLE p 4 4 ≤ rdLE p 8 4) && decide (10 ≤ rdLE p 12 4))
  item := noTarget
  run := fun s c =>
    let s := ((s.wr Reg.REEL_MTBF (rdLE c.p 0 4)).wr Reg.REEL_IVL_MIN (rdLE c.p 4 4)).wr Reg.REEL_IVL_MAX (rdLE c.p 8 4)
    let s := (s.wr Reg.REEL_DRAIN_TMO (rdLE c.p 12 4)).newInterval
    outOk s (toLE 4 (s.rd Reg.REEL_IVL))

def execReelCfg (r : Req) (s : State) : Res := s.cuard defReelCfg r

/-- REEL_GET (R541). -/
def defReelGet : CmdDef where
  code := 0x0805
  acc := .s
  run := fun s _ => outRegs s (wordsFrom Reg.REEL_ST 24)

def execReelGet (r : Req) (s : State) : Res := s.cuard defReelGet r

/-! ### Group 0x09xx (R542). -/

/-- The quote but for its signature (R499). -/
def State.quoteBody (s : State) (nonce : List Byte) : List Byte :=
  let flags := boolN (s.rbit Reg.SEC_DBG 3) + 2 * boolN s.fuse.owner.isSome + 4 * s.devFlags
  toLE 4 0x51415A4B ++ toLE 2 1 ++ toLE 2 flags ++ toLE 2 0x0301 ++ toLE 2 1 ++ toLE 1 s.devState ++ toLE 1 s.lCount ++ toLE 2 0 ++
    s.devId ++ sliceB nonce 0 64 ++ (List.range 8).flatMap (fun m => s.digestAt (Reg.SEC_MEAS m)) ++
    sha384 ((List.range 512).flatMap (fun n => toLE 4 (s.rd (Reg.FUSE_MAP n)))) ++
    sha384 (Config.partFuses s.fuse.part ++ s.fuse.owner.getD (List.replicate 48 0)) ++ toLE 8 s.now.toNat ++ s.ptpStamp ++ List.replicate 14 0

/-- QUOTE (R499). -/
def defQuote : CmdDef where
  code := 0x0901
  acc := .o
  check := fun _ p => if 1 ≤ p.length ∧ p.length ≤ 64 then 0 else stBAD_LENGTH
  run := fun s c =>
    let b := s.quoteBody c.p
    outOk (s.event 0x0A0D devUnit 0 [(16, 2, rdLE c.p 0 2)]) (b ++ s.sign b)

def execQuote (r : Req) (s : State) : Res := s.cuard defQuote r

/-- MEAS_EXTEND (R497). -/
def defMeasExtend : CmdDef where
  code := 0x0902
  acc := .s
  check := pCheck 49 (fun p => decide (5 ≤ rdLE p 0 1 ∧ rdLE p 0 1 ≤ 7))
  item := fun p => [rdLE p 0 1]
  run := fun s c =>
    let s := s.extend (rdLE c.p 0 1) (c.p.drop 1)
    outOk s (s.digestAt (Reg.SEC_MEAS (rdLE c.p 0 1)))

def execMeasExtend (r : Req) (s : State) : Res := s.cuard defMeasExtend r

/-- SEAL (R367, R368). -/
def defSeal : CmdDef where
  code := 0x0903
  acc := .s
  res := rContexts
  check := pCheck 22 (fun p => a8Ok p 6)
  item := fun p => [rdLE p 0 6]
  run := fun s c =>
    match s.slotById (rdLE c.p 0 2) with
    | none => outSt s stOUT_OF_RANGE
    | some x =>
      let a := rdLE c.p 6 8
      let n := rdLE c.p 14 8
      if 255 ≤ x.2.seals.length ∨ sealOk (x.2.seals.map (fun y => (y.lo, y.hi - y.lo))) a n = false then outSt s stOUT_OF_RANGE
      else outFirst (s.sealRegion x.1 (rdLE c.p 2 4) a (a + n) x.2.step.toNat) (.sealing x.2.ctx.toNat (rdLE c.p 2 4)) none

def execSealRegion (r : Req) (s : State) : Res := s.cuard defSeal r

/-- RECORD_CUT (R370). -/
def defRecordCut : CmdDef where
  code := 0x0904
  acc := .s
  res := rContexts
  check := pCheck 2 (fun _ => true)
  item := fun p => [rdLE p 0 2 % 16]
  run := fun s c =>
    match s.slotById (rdLE c.p 0 2) with
    | none => outSt s stOUT_OF_RANGE
    | some x => if x.2.run.isSome then outOk (s.setSlot x.1 (some { x.2 with cut := true })) [] else outSt s stBAD_STATE

def execRecordCut (r : Req) (s : State) : Res := s.cuard defRecordCut r

/-- The records of a context, in its slot or after it: the number of the first, and the records (R374, R542). -/
def State.recsOf (s : State) (ctx : Nat) : Option (Nat × List RecEnt) :=
  match s.slotById ctx with
  | some x => some (x.2.recBase, x.2.recs)
  | none => (s.seqr.gone.find? (fun g => g.ctx == ctx)).map (fun g => (g.base, g.recs))

/-- Record `n`, once signed and until released (R542). -/
def recordAt (x : Nat × List RecEnt) (n : Nat) : Option RecEnt :=
  if x.1 ≤ n then
    (match x.2[n - x.1]? with
    | some e => if e.signed then some e else none
    | none => none)
  else none

/-- Record `n` and every earlier one are released (R542). -/
def State.dropRecs (s : State) (ctx n : Nat) : State :=
  match s.slotById ctx with
  | some x => s.setSlot x.1 (some { x.2 with recs := x.2.recs.drop (n + 1 - x.2.recBase), recBase := n + 1 })
  | none =>
    let f (g : GoneRecs) : GoneRecs :=
      if g.ctx = ctx then { g with recs := g.recs.drop (n + 1 - g.base), base := n + 1 } else g
    { s with seqr := { s.seqr with gone := (s.seqr.gone.map f).filter (fun g => decide (g.recs ≠ [])) } }

/-- RECORD_READ (R542). -/
def defRecordRead : CmdDef where
  code := 0x0905
  acc := .s
  check := pCheck 12 (fun p => decide (1 ≤ rdLE p 10 2 ∧ rdLE p 10 2 ≤ 4096))
  run := fun s c =>
    match (s.recsOf (rdLE c.p 0 2)).bind (fun x => recordAt x (rdLE c.p 2 4)) with
    | none => outSt s stOUT_OF_RANGE
    | some e => pageOut s e.bytes (rdLE c.p 6 4) (rdLE c.p 10 2)

def execRecordRead (r : Req) (s : State) : Res := s.cuard defRecordRead r

/-- RECORD_RELEASE (R374, R542): that record and every earlier one. -/
def defRecordRelease : CmdDef where
  code := 0x0906
  acc := .s
  res := rContexts
  check := pCheck 6 (fun _ => true)
  item := fun p => [rdLE p 0 6]
  run := fun s c =>
    match (s.recsOf (rdLE c.p 0 2)).bind (fun x => recordAt x (rdLE c.p 2 4)) with
    | none => outSt s stOUT_OF_RANGE
    | some _ => outOk (s.dropRecs (rdLE c.p 0 2) (rdLE c.p 2 4)) []

def execRecordRelease (r : Req) (s : State) : Res := s.cuard defRecordRelease r

/-- DET_GET (R542). -/
def defDetGet : CmdDef where
  code := 0x0907
  acc := .s
  run := fun s _ => outRegs s (wordsFrom Reg.DET_STEP_LO 10)

def execDetGet (r : Req) (s : State) : Res := s.cuard defDetGet r

/-! ### Group 0x0Axx (R543, R565). -/

/-- CAL_READ (R543). -/
def defCalRead : CmdDef where
  code := 0x0A01
  acc := .s
  check := pCheck 7 (fun p => decide (rdLE p 0 1 ≤ 5) && decide (1 ≤ rdLE p 5 2 ∧ rdLE p 5 2 ≤ 4096))
  run := fun s c => pageOut s ((s.calBytes (rdLE c.p 0 1)).getD []) (rdLE c.p 1 4) (rdLE c.p 5 2)

def execCalRead (r : Req) (s : State) : Res := s.cuard defCalRead r

/-- CAL_WRITE (R543, R565): the bytes go into the flash in place; the item's digest follows when the write ends. -/
def defCalWrite : CmdDef where
  code := 0x0A02
  acc := .e
  res := rDevice
  check := fun _ p => if p.length < 6 then stBAD_LENGTH else if 4 < rdLE p 0 1 then stOUT_OF_RANGE else 0
  item := fun p => [rdLE p 0 5]
  run := fun s c =>
    let i := rdLE c.p 0 1
    let o := rdLE c.p 1 4
    let b := c.p.drop 5
    match s.calBytes i with
    | none => outSt s stOUT_OF_RANGE
    | some old =>
      if old.length < o + b.length then outSt s stOUT_OF_RANGE
      else outFirst (s.flashPut (flCal + calOff (calHead s) i + o) b) (.cal i) none

def execCalWrite (r : Req) (s : State) : Res := s.cuard defCalWrite r

/-- The item a CAL_WRITE in progress writes. -/
def State.calWriting (s : State) : Option Nat := s.cq.waits.findSome? (fun w => match w.what with
  | .cal i => some i
  | _ => none)

/-- CAL_WRITE_DONE (R565): FACTORY clears, the digest follows, and the final reply is sent. -/
def execCalWriteDone (s : State) : Res :=
  match s.calWriting with
  | none => .next s
  | some i => .next ((s.calPut i 0 []).finish (.cal i) stOK [])

/-! ### Group 0x0Bxx (R544). -/

/-- The 32 bytes of an event record (R43). -/
def recordBytes (e : EventRec) : List Byte :=
  toLE 8 e.tick.toNat ++ toLE 2 e.code.toNat ++ toLE 2 e.unit.toNat ++ toLE 2 e.ctx.toNat ++
    toLE 2 (e.sev.toNat + if e.lost then 16 else 0) ++ sliceB e.data 0 16

/-- LOG_READ (R483, R544). -/
def defLogRead : CmdDef where
  code := 0x0B01
  acc := .o
  check := pCheck 5 (fun p => decide (1 ≤ rdLE p 4 1 ∧ rdLE p 4 1 ≤ 127))
  run := fun s c =>
    let old := s.logN - s.log.length
    let from_ := max old (rdLE c.p 0 4)
    let l := (s.log.drop (from_ - old)).take (rdLE c.p 4 1)
    let s := if s.logN ≤ from_ + l.length then s.clearIrq 1 else s
    outOk s (toLE 4 old ++ toLE 4 s.logN ++ l.flatMap recordBytes)

def execLogRead (r : Req) (s : State) : Res := s.cuard defLogRead r

/-- TELEM_GET (R544). -/
def defTelemGet : CmdDef where
  code := 0x0B02
  acc := .o
  run := fun s _ => outOk s (s.viewWords ([Reg.PWR_IN, Reg.PWR_TJ, Reg.PWR_THROT] ++ (List.range 24).map Reg.PWR_DOM_V ++
    (List.range 24).map Reg.PWR_DOM_I ++ (List.range 46).map Reg.PWR_TEMP))

def execTelemGet (r : Req) (s : State) : Res := s.cuard defTelemGet r

/-- One register read by a command: none where the address names no register (R30, R32, R33).  Of the debug module, whose
registers the manual does not give, an unlocked one answers a free value and a locked one zero (R508). -/
def State.cuardRead (s : State) (a : Nat) : Option Nat × State :=
  if a < regBase ∨ regMapped (a - regBase) = false then (none, s.addrError a 3 0 0)
  else if inDebug (a - regBase) then
    if s.rbit Reg.SEC_DBG 2 then (some (s.free.1 % 2 ^ 32), s.free.2) else (some 0, s)
  else
    let r := s.cmdRead (a - regBase)
    (some r.1, r.2)

/-- `n` registers from address `a`; none once one fails. -/
def State.cuardReads : Nat → State → Nat → Option (List Byte) × State
  | 0, s, _ => (some [], s)
  | n + 1, s, a =>
    let r := s.cuardRead a
    match r.1 with
    | none => (none, r.2)
    | some v =>
      let q := State.cuardReads n r.2 (a + 4)
      (q.1.map (toLE 4 v ++ ·), q.2)

/-- OK with registers read, or OUT_OF_RANGE. -/
def State.readOut (s : State) (a n : Nat) : Out :=
  let r := s.cuardReads n a
  match r.1 with
  | some b => outOk r.2 b
  | none => outSt r.2 stOUT_OF_RANGE

/-- An address the basic read does not give: the debug module, the local port's words. -/
def notBasic (a : Nat) : Bool :=
  decide (regBase ≤ a) && (inDebug (a - regBase) || a == regBase + Reg.CMD_LCP_IN || a == regBase + Reg.CMD_LCP_OUT)

/-- REG_READ_BASIC (R544). -/
def defRegReadBasic : CmdDef where
  code := 0x0B03
  acc := .s
  check := pCheck 9 (fun p => a8Ok p 0 && decide (1 ≤ rdLE p 8 1 ∧ rdLE p 8 1 ≤ 64))
  run := fun s c =>
    if (wordsFrom (rdLE c.p 0 8) (rdLE c.p 8 1)).any notBasic then outSt s stOUT_OF_RANGE
    else s.readOut (rdLE c.p 0 8) (rdLE c.p 8 1)

def execRegReadBasic (r : Req) (s : State) : Res := s.cuard defRegReadBasic r

/-- CMD_STATUS (R524). -/
def defCmdStatus : CmdDef where
  code := 0x0B04
  acc := .s
  check := pCheck 4 (fun _ => true)
  run := fun s c =>
    match (s.sess c.rep.session).bind (fun x => x.done.find? (fun d => d.seq == rdLE c.p 0 4)) with
    | none => outSt s stOUT_OF_RANGE
    | some d => outOk s (toLE 2 d.opcode ++ toLE 2 d.status ++ toLE 8 d.tick.toNat)

def execCmdStatus (r : Req) (s : State) : Res := s.cuard defCmdStatus r

/-! ### Group 0x0Cxx (R508, R545). -/

/-- REG_READ (R545). -/
def defRegRead : CmdDef where
  code := 0x0C01
  acc := .e
  check := pCheck 10 (fun p => a8Ok p 0 && decide (1 ≤ rdLE p 8 2 ∧ rdLE p 8 2 ≤ 256))
  run := fun s c => s.readOut (rdLE c.p 0 8) (rdLE c.p 8 2)

def execRegRead (r : Req) (s : State) : Res := s.cuard defRegRead r

/-- An offset an expert write may not reach: the FUSE block, the local port. -/
def notWritable (a : Nat) : Bool :=
  decide (regBase ≤ a) && (decide (regBase + 0x300000 ≤ a ∧ a < regBase + 0x400000) || a == regBase + Reg.CMD_LCP_IN ||
    a == regBase + Reg.CMD_LCP_OUT || a == regBase + Reg.CMD_LCP_ST)

/-- A write of SEC_DBG in a session (R508): its status. -/
def State.writeDbg (s : State) (c : Call) (v : Nat) : Nat × State :=
  let r := if bitOf v 0 then s.unlockDebug c.rep.session else (stOK, s)
  if r.1 = stOK ∧ bitOf v 1 = true then (stOK, r.2.relock c.rep.key) else r

/-- The register at offset `o` written by an expert command.  A write of the debug module changes nothing outside it. -/
def State.cuardWriteAt (s : State) (c : Call) (o v : Nat) : Nat × State :=
  if inDebug o then (stOK, s)
  else if s.domOn (regDomain o) = false then (stOK, s.addrError (o + regBase) 3 1 0)
  else if o = Reg.SEC_DBG then s.writeDbg c v
  else (stOK, s.writeReg o v)

/-- One register written by an expert command: its status (R9, R30, R33). -/
def State.cuardWrite (s : State) (c : Call) (a v : Nat) : Nat × State :=
  if a < regBase ∨ regMapped (a - regBase) = false then (stOUT_OF_RANGE, s.addrError a 3 1 0)
  else s.cuardWriteAt c (a - regBase) v

/-- Words written in order; the first that fails ends the command. -/
def State.cuardWrites (s : State) (c : Call) : List (Nat × Nat) → Nat × State
  | [] => (stOK, s)
  | x :: l =>
    let r := s.cuardWrite c x.1 x.2
    if r.1 = stOK then State.cuardWrites r.2 c l else r

/-- Parameters of REG_WRITE. -/
def writeArgs (_ : State) (p : List Byte) : Nat :=
  let n := rdLE p 8 2
  if p.length < 10 then stBAD_LENGTH
  else if a8Ok p 0 = false ∨ n = 0 ∨ 256 < n then stOUT_OF_RANGE
  else if p.length ≠ 10 + 4 * n then stBAD_LENGTH else 0

/-- REG_WRITE (R545). -/
def defRegWrite : CmdDef where
  code := 0x0C02
  acc := .e
  res := rDevice
  check := writeArgs
  item := fun p => wordsFrom (rdLE p 0 8) (rdLE p 8 2)
  run := fun s c =>
    let as := wordsFrom (rdLE c.p 0 8) (rdLE c.p 8 2)
    if as.any notWritable then outSt s stOUT_OF_RANGE
    else
      let r := s.cuardWrites c (as.zipIdx.map (fun x => (x.1, rdLE c.p (10 + 4 * x.2) 4)))
      outSt r.2 r.1

def execRegWrite (r : Req) (s : State) : Res := s.cuard defRegWrite r

/-- REG_MODIFY (R545). -/
def defRegModify : CmdDef where
  code := 0x0C03
  acc := .e
  res := rDevice
  check := pCheck 16 (fun p => a8Ok p 0)
  item := fun p => [rdLE p 0 8]
  run := fun s c =>
    let a := rdLE c.p 0 8
    let m := rdLE c.p 8 4
    if notWritable a then outSt s stOUT_OF_RANGE
    else
      let r := s.cuardRead a
      match r.1 with
      | none => outSt r.2 stOUT_OF_RANGE
      | some v =>
        let w := r.2.cuardWrite c a ((v &&& (2 ^ 32 - 1 - m)) ||| (rdLE c.p 12 4 &&& m))
        if w.1 = stOK then outOk w.2 (toLE 4 v) else outSt w.2 w.1

def execRegModify (r : Req) (s : State) : Res := s.cuard defRegModify r

end Sys2Proof.Machine
end

