-- ==== Sys2Proof/Machine/Boot.lean ====
section
/-! DEFINITION. Start-up, phase by phase (spec/18_start_up.md R549 to R566; spec/12_self_test_repair_ageing.md R384 to
R391; spec/19_module.md R580). -/

namespace Sys2Proof.Machine

/-! ### Phases (R549). -/

/-- The device is in phase `ph` of start-up. -/
def State.booting (s : State) (ph : Nat) : Bool :=
  s.devState == stBringup && s.rst.resets.all (fun r => r.level != 4) && s.phase == ph

/-- Phase `ph` begins. -/
def State.toPhase (s : State) (ph : Nat) : State :=
  ({ s with boot := { s.boot with at_ := s.wall } } : State).wf Reg.CMD_DEV_STATE 27 24 ph

/-- Reference periods since the present phase began. -/
def State.inPhase (s : State) : Nat := (s.wall - s.boot.at_).toNat

/-- CMD_BOOT_ST.FAIL_PHASE (R568). -/
def State.failPhase (s : State) (ph : Nat) : State := s.wf Reg.CMD_BOOT_ST 3 0 ph

/-- Start-up ends in HALTED (R38, R549). -/
def State.bootHalt (s : State) (ph cause : Nat) : State := (s.failPhase ph).halt cause

/-- STRAP_SAFE is in effect (R553). -/
def State.safe (s : State) : Bool := s.rbit Reg.CMD_STRAPS 14

/-! ### Phase 1: the processor's self-check (R379, R384). -/

/-- A failed self-check: HALTED with ALERT_N asserted, and no event. -/
def State.procFail (s : State) : State := (s.failPhase 1).haltSilent.alertOn

/-- STARTUP_PROC (R549, R384): `good` if ROM digest and SRAM march pass. -/
def execStartupProc (good : Bool) (s : State) : Res :=
  .next (if s.booting 0 || s.booting 1 then (if good then s.toPhase 2 else s.procFail) else s)

/-! ### Phase 2: straps (R551 to R553, R580). -/

/-- Strap fields in CMD_STRAPS order: lowest bit, width, safe value, and the reserved encoding if one is (R552, R568). -/
def strapFields : List (Nat × Nat × Nat × Option Nat) :=
  [(0, 2, 0, none), (2, 2, 0, none), (4, 1, 0, none), (5, 4, 0, none), (9, 3, 6, some 7), (12, 2, 2, some 3), (14, 1, 1, none)]

/-- The pin reads the same on all samples: its level. -/
def stablePin (samples : List (BitVec 15)) (n : Nat) : Option Bool :=
  match samples with
  | [] => none
  | x :: r => if r.all (fun y => y.toNat.testBit n == x.toNat.testBit n) then some (x.toNat.testBit n) else none

/-- The value of CMD_STRAPS for the pins read, `lost` ones never stable (R552). -/
def strapValue (pins : Nat) (lost : List Nat) : Nat :=
  strapFields.foldl (fun a f =>
    let v := pins / 2 ^ f.1 % 2 ^ f.2.1
    let bad := lost.any (fun n => decide (f.1 ≤ n ∧ n < f.1 + f.2.1)) || f.2.2.2 == some v
    a + (if bad then f.2.2.1 else v) * 2 ^ f.1) (if lost.isEmpty then 0 else 2 ^ 15)

/-- Place of the field of a pin in CMD_STRAPS order (R567). -/
def strapFieldOf (n : Nat) : Nat := strapFields.findIdx (fun f => decide (f.1 ≤ n ∧ n < f.1 + f.2.1))

/-- Phase 2 ends: events of pins never stable, the straps in effect, and what they set (R286, R484, R551 to R553). -/
def State.strapsDone (s : State) : State :=
  let s := s.boot.lost.foldl (fun s n => s.event 0x07E1 devUnit 1 [(16, 1, 2), (17, 1, 1), (18, 1, strapFieldOf n)]) s
  let s := s.wr Reg.CMD_STRAPS (strapValue s.boot.pins s.boot.lost)
  let s := s.wf Reg.MGMT_PORT_CTL 1 0 (s.rf Reg.CMD_STRAPS 3 2)
  let s := (List.range 16).foldl (fun s p => s.wf (Reg.PORT_CTL p) 2 1 (s.rf Reg.CMD_STRAPS 13 12)) s
  let s := (List.range 32).foldl (fun s h => s.wf (Reg.PORT_HCTL (h / 2) (h % 2)) 0 0 (if s.safe then 0 else 1)) s
  let s := if 6 ≤ s.pwr.group then s.setDom 23 (!s.safe) else s
  s.toPhase 3

/-- One sampling of pins: stable ones are read; the others have been sampled again `n` times. -/
def State.readStraps (s : State) (samples : List (BitVec 15)) (l : List (Nat × Nat)) : State :=
  let got := l.filterMap (fun x => (stablePin samples x.1).map (fun b => if b then 2 ^ x.1 else 0))
  let un := l.filter (fun x => (stablePin samples x.1).isNone)
  { s with boot := { s.boot with
    strapAt := some s.wall
    pins := s.boot.pins + got.sum
    unst := (un.filter (fun x => decide (x.2 < 3))).map (fun x => (x.1, x.2 + 1))
    lost := s.boot.lost ++ (un.filter (fun x => decide (3 ≤ x.2))).map (·.1) } }

/-- Every pin is read or given up. -/
def State.strapsRead (s : State) : State := if s.boot.unst = [] then s.strapsDone else s

/-- STARTUP_STRAPS (R551): the 16 samples, bit n of each for pin n in the order of CMD_STRAPS, from 1 ms after start-up
began. -/
def execStartupStraps (samples : List (BitVec 15)) (s : State) : Res :=
  .next (if s.booting 2 && s.boot.strapAt.isNone && decide (100000 ≤ (s.wall - s.boot.began).toNat) then
    (s.readStraps samples ((List.range 15).map (fun n => (n, 0)))).strapsRead else s)

/-- STRAP_RESAMPLE (R551): pins not stable are sampled again, 100 µs after the last time. -/
def execStrapResample (samples : List (BitVec 15)) (s : State) : Res :=
  .next (match s.boot.strapAt with
    | some t => if s.booting 2 && decide (10000 ≤ (s.wall - t).toNat) then (s.readStraps samples s.boot.unst).strapsRead else s
    | none => s)

/-! ### Phase 3: fuses and the key table (R1, R471, R494, R497, R501, R554). -/

/-- Fused limits of the ordering part: maximum A-clock and cap (R1). -/
def fusedFmax (part : Nat) : Nat := ([700, 600, 500, 400][part]?).getD 400
def fusedCap (part : Nat) : Nat := ([1400, 1100, 850, 650][part]?).getD 650

/-- The cap a strap encoding gives (R580). -/
def strapCap (enc fused : Nat) : Nat := ([fused, 1100, 850, 650, 500, 400, 300][enc]?).getD 300

/-- The caps at reset (R471). -/
def State.loadCaps (s : State) : State :=
  let f := fusedCap s.fuse.part
  let w := strapCap (s.rf Reg.CMD_STRAPS 11 9) f
  ((s.wr Reg.PWR_CAP_SRC (f * 2 ^ 16 + w)).wr Reg.PWR_CAP (min f w)).syncCap

/-- The key table's state (R501). -/
def State.loadKt (s : State) : State :=
  let b := s.flashBytes flKeys ktSize
  if s.fuse.ktCtr = 0 then s.wr Reg.SEC_KT 0
  else
    let k := s.ktBad b
    if k = 0 then s.showKt 1 b else (s.showKt 2 b).event 0x0A09 devUnit 2 [(16, 1, k)]

/-- DEV_ID (R496). -/
def State.loadDevId (s : State) : State :=
  let v := sha384 (sec1 (ecPub s.idKey))
  (List.range 12).foldl (fun s k => s.wr (Reg.SEC_DEV_ID k) (rdLE v (4 * k) 4)) s

/-- What fuses give becomes valid, the spare seam wires in use among it; M0, M1 and M4 are extended (R264, R497, R554). -/
def State.fusesDone (s : State) : State :=
  let s := s.wr Reg.FUSE_FREE ((List.range 512).countP (fun n => s.rd (Reg.FUSE_MAP n) == 0))
  let s := ({ s with hlth := { s.hlth with fusedMax := fusedFmax s.fuse.part } } : State).wr Reg.HLTH_FMAX (fusedFmax s.fuse.part)
  let s := (s.loadCaps.wr Reg.MGMT_MAC_LO s.fuse.mac).wr Reg.MGMT_MAC_HI (s.fuse.mac / 2 ^ 32)
  let s := s.loadDevId.loadKt
  let s := s.extend 0 (toBE 48 Config.romDigest)
  let cfg := Config.configFuses s.fuse.part s.fuse.mac (match s.fuse.owner with
    | some d => beNat d
    | none => 0) s.fuse.ktCtr
  let s := s.extend 1 (sha384 (cfg ++ toLE 4 (s.rd Reg.CMD_STRAPS)))
  let s := (List.range 4).foldl (fun s k => s.wr (Reg.SEAM_SPARE k) (Config.seamSpare s.fuse.part k % 33)) s
  let s := s.wr Reg.SEAM_MM_SPARE (Config.seamSpare s.fuse.part 4 % 33)
  (s.extend 4 (sha384 (s.flashBytes flKeys ktSize))).toPhase 4

/-- STARTUP_FUSES (R554): the first word that failed its reads, if one did. -/
def execStartupFuses (bad : Option (BitVec 16)) (s : State) : Res :=
  .next (if s.booting 3 then
    (match bad with
      | some w => (s.event 0x07E2 devUnit 3 [(16, 2, w.toNat)]).bootHalt 3 0x07E2
      | none => s.fusesDone) else s)

/-! ### Phase 4: clocks (R361, R454, R457, R459, R555). -/

/-- The A-clock's plan at reset, and the A-clock at it. -/
def State.loadPlan (s : State) : State :=
  let s := (s.wf Reg.CLK_PLAN 9 0 (if s.safe then 250 else s.fmax)).syncClk
  let s := s.wf Reg.CLK_ST 25 16 s.effF
  s.syncPlan s.aMhz

/-- Cuard's configured addresses, from module flash (R485). -/
def State.loadAddrs (s : State) : State :=
  let b := s.flashBytes flAddr 21
  let v := rdLE b 0 1
  { s with mgmt := { s.mgmt with
    v6 := if v < 4 ∧ v % 2 = 1 then some (sliceB b 1 16) else none
    v4 := if v < 4 ∧ 2 ≤ v then some (sliceB b 17 4) else none
    speedAt := s.now } }

/-- Chip-level reset is released: the reference tick starts (R550, R555). -/
def State.released (s : State) (refclk : Bool) : State :=
  let s : State := { s with now := 0, rst := { s.rst with chipHeld := false } }
  let s := (s.wf Reg.CLK_ST 1 0 (if refclk then 3 else 2)).wf Reg.CLK_ST 3 2 (if refclk then 0 else 1)
  let s := if refclk then s
    else ((s.wf Reg.CLK_REDUCE 20 20 1).sat Reg.CLK_REFLOSS_CNT 1).event 0x0103 devUnit 2 [(16, 1, 3)]
  let s := s.loadPlan.loadAddrs.newNonce
  ((s.wf Reg.DET_ALIGN 0 0 1).wf Reg.DET_ALIGN 7 4 0).toPhase 5

/-- STARTUP_CLOCKS (R555): all power groups are good; the PLL that failed to lock three times, if one did, and whether
REFCLK is present. -/
def execStartupClocks (bad : Option (Fin 6)) (refclk : Bool) (s : State) : Res :=
  .next (if s.booting 4 && s.pwr.group == 7 then
    (match bad with
      | some p => (s.event 0x07E8 devUnit 3 [(16, 1, p)]).bootHalt 4 0x07E8
      | none => s.released refclk) else s)

/-! ### Phase 5: calibration store and records (R37, R389, R400 to R403, R497, R563, R564). -/

/-- Items judged: CAL_BAD and event 0x07E3. -/
def State.judgeCal (s : State) (late : Bool) : State :=
  if !calHeadOk (calHead s) && !late then
    (s.wf Reg.CMD_BOOT_ST 21 16 63).event 0x07E3 devUnit 2 [(16, 1, 0xFF)]
  else
    (List.range 6).foldl (fun s i =>
      if late || (s.calItem i).isNone then (s.wf Reg.CMD_BOOT_ST (16 + i) (16 + i) 1).event 0x07E3 devUnit 2 [(16, 1, i)] else s) s

/-- The bytes of an item not in CAL_BAD. -/
def State.goodItem (s : State) (i : Nat) : Option (List Byte) := if s.rbit Reg.CMD_BOOT_ST (16 + i) then none else s.calItem i

/-- Item 3: baselines and sensitivities; one outside 0.1 to 10 ps/mV freezes its domain (R400, R401). -/
def State.loadBaseline (s : State) : State :=
  match s.goodItem 3 with
  | none => s
  | some b =>
    let s := ((List.range 24).filter (fun d => d != 10 && d != 11)).foldl (fun s d =>
      let x := ageBase b d
      let ok := decide (100 ≤ x.2 ∧ x.2 ≤ 10000)
      let s := s.setAge d { tget {} s.hlth.ages d with baseline := x.1, kv := x.2, frozen := !ok }
      if ok then s else s.event 0x0904 (domUnit d) 1 [(16, 1, 3)]) s
    { s with hlth := { s.hlth with roBase := (List.range 64).foldl (fun l r => tset 0 l r (roBaseOf b r)) s.hlth.roBase } }

/-- Item 5: powered-on time, HLTH_FMAX, raises and fit points (R402, R403, R406). -/
def State.loadAge (s : State) : State :=
  match s.goodItem 5 with
  | none => { s with hlth := { s.hlth with pohAt := s.now } }
  | some b =>
    let f := rdLE b 8 2
    let s := if 250 ≤ f ∧ f ≤ s.hlth.fusedMax then s.wr Reg.HLTH_FMAX f else s
    let s : State := { s with hlth := { s.hlth with pohSaved := BitVec.ofNat 64 (rdLE b 0 8), pohAt := s.now } }
    ((List.range 24).filter (fun d => d != 10 && d != 11)).foldl (fun s d =>
      (s.setAge d { tget {} s.hlth.ages d with points := agePoints b d }).wf (Reg.HLTH_AGE d) 7 0 (rdLE b (10 + d) 1)) s

/-- Bytes of the largest soft-repair record. -/
def softMax : Nat := 0x20 + 8 * 256 + 48

/-- The soft-repair record read and judged (R389). -/
def State.loadSoft (s : State) (late : Bool) : State :=
  let p := if late then none else softParse (s.flashBytes flSoft softMax)
  let r := p.getD {}
  let s : State := { s with hlth := { s.hlth with soft := r } }
  let s := if p.isNone then s.event 0x080B devUnit 2 [(16, 1, 1)] else s
  let s := s.wr Reg.FUSE_PROP_CNT (r.ents.countP (·.proposed))
  (s.wf Reg.TEST_POLICY 15 8 r.maxFch).wf Reg.TEST_POLICY 4 0 r.minL

/-- The soft-repair record's bytes as they lie in flash, for M2. -/
def State.softImage (s : State) : List Byte := s.flashBytes flSoft (0x20 + 8 * min 256 (rdLE (s.flashBytes flSoft 8) 6 2) + 48)

/-- Phase 5; past its limit nothing read is taken. -/
def State.calDone (s : State) (late : Bool) : State :=
  let s := s.judgeCal late
  let s := { s with hlth := { s.hlth with vtable := match s.goodItem 4 with
    | some b => vfOf b
    | none => [] } }
  let s := (s.loadBaseline.loadAge.loadSoft late).loadPlan
  let s := s.wf Reg.CMD_DEV_STATE 19 19 (if (s.flashBytes flWithdrawal 4096).all (· == 0xFF) then 0 else 1)
  ((s.extend 2 (sha384 (calHead s))).extend 2 (sha384 s.softImage)).toPhase 6

/-- STARTUP_CAL (R549, R563). -/
def execStartupCal (s : State) : Res := .next (if s.booting 5 then s.calDone false else s)

/-! ### Phase 6: DRAM (R238, R242, R386, R564). -/

/-- A row's repair is loaded from a fuse or the soft-repair record: `unit` of kind 8 and DETAIL (R238, R388). -/
def State.loadRow (s : State) (unit detail : Nat) (fuse : Bool) : State :=
  let n := unit % 2048
  if unit / 2048 = 8 ∧ n / 8 < 132 then
    (s.repairRows (n / 8) [(n % 8 / 2, n % 2 * 8 + bitsOf detail 14 12, bitsOf detail 11 0)] fuse).1
  else s

/-- Every channel is brought up; `failed` ones did not train. -/
def State.dramDone (s : State) (failed : List Nat) : State :=
  let s := (List.range 132).foldl (fun s ch =>
    if s.fusedBad (unitId 3 ch) 0 then s.fenceChan ch 5 else if failed.contains ch then s.fenceChan ch 3 else s) s
  let s := (List.range 512).foldl (fun s n =>
    if s.rbit (Reg.FUSE_MAP n) 15 then s.loadRow (s.rf (Reg.FUSE_MAP n) 31 16) (s.rf (Reg.FUSE_MAP n) 14 0) true else s) s
  let s := s.hlth.soft.ents.foldl (fun s e => s.loadRow e.unit e.detail false) s
  let s := (List.range 132).foldl State.syncSpares s
  let s := if s.rbit Reg.CMD_BOOT_ST 16 then { s with boot := { s.boot with dirty := s.boot.dirty ++ [0] } } else s
  s.toPhase 7

/-- STARTUP_DRAM (R549): channels whose training failed. -/
def execStartupDram (failed : List Nat) (s : State) : Res := .next (if s.booting 6 then s.dramDone failed else s)

/-! ### Phase 7: tests (R384, R385). -/

/-- Base draw and test power of a spindle, in watts (R385). -/
def baseDraw (part : Nat) : Nat := ([240, 210, 180, 150][part]?).getD 150
def spinPower (part : Nat) : Nat := ([130, 112, 94, 76][part]?).getD 76

/-- Waves of units (unit, watts) in order: the wave forming with its power in use, against `avail` in tenths of a watt
and the maximum A-clock; none where a unit cannot be met (R385). -/
def formWaves (avail fmax : Nat) : List (Nat × Nat) → List Nat → Nat → Option (List (List Nat))
  | [], w, _ => some (if w.isEmpty then [] else [w])
  | (u, p) :: l, w, used =>
    let p := 10 * p
    if p ≤ avail then
      if w.isEmpty || decide (used + p ≤ avail) then formWaves avail fmax l (w ++ [u]) (used + p)
      else (formWaves avail fmax l [u] p).map (fun r => w :: r)
    else
      let alone (k : Nat) : Bool := decide (p * 250 ≤ avail * fmax * k)
      match [1, 2, 4, 8].find? alone with
      | none => none
      | some k => (formWaves avail fmax l [] 0).map (fun r => (if w.isEmpty then [] else [w]) ++ List.replicate k [u] ++ r)

/-- Units of the shared logic, the cores and the lanes; under STRAP_SAFE neither router core nor fabric lanes, whose
domain is off. -/
def State.sharedUnits (s : State) : List Nat :=
  ((if s.safe then [1, 2, 22] else [1, 2, 22, 23]).map domUnit) ++ (List.range 8).map (unitId 9) ++
    ((if s.safe then [128] else List.range 129).map (unitId 6))

/-- All waves of start-up, and avail in tenths of a watt. -/
def State.bootWaves (s : State) : Nat × Option (List (List Nat)) :=
  let part := s.fuse.part
  let a := 9 * min (s.rf Reg.PWR_CAP_SRC 31 16) (s.rf Reg.PWR_CAP_SRC 15 0) - 10 * baseDraw part
  let f (l : List (Nat × Nat)) : Option (List (List Nat)) := formWaves a s.fmax l [] 0
  let r := match f (s.sharedUnits.map (fun u => (u, Config.testPower part u))),
      f ((List.range 18).map (fun p => (unitId 0 p, spinPower part))), f ((List.range 132).map (fun c => (unitId 3 c, 5))) with
    | some x, some y, some z => some (x ++ y ++ z)
    | _, _, _ => none
  (a, if a = 0 then none else r)

/-- Start-up is not acceptable for the reasons of a mask (R391). -/
def State.notAccepted (s : State) (ph mask : Nat) : State :=
  let low := ((List.range 6).find? (fun r => mask.testBit r)).getD 0 + 1
  (s.event 0x0807 devUnit 3 [(16, 1, low), (17, 1, s.lCount), (18, 1, mask)]).bootHalt ph 0x0807

/-- STARTUP_TEST (R384, R385): the waves are formed and the first one starts. -/
def execStartupTest (s : State) : Res :=
  .next (if s.booting 7 && s.hlth.waves.isEmpty then
    (let w := s.bootWaves
     let s := s.wf Reg.TEST_SU 15 0 (w.1 / 10)
     match w.2 with
     | none => s.notAccepted 7 32
     | some l =>
       ({ s with hlth := { s.hlth with waves := l, waveAt := s.wall, outs := [] } } : State).wf Reg.TEST_SU 23 16 (min 255 l.length)) else s)

/-! ### Phase 8: repairs, map and acceptance (R21, R68, R242, R386, R387, R391). -/

/-- The record in force changes; module flash follows at the end of start-up (R389). -/
def State.keepSoft (s : State) (r : SoftRec) : State :=
  ({ s with hlth := { s.hlth with soft := r } } : State).wr Reg.FUSE_PROP_CNT (r.ents.countP (·.proposed))

/-- The record's entry and the events of a unit that is fused good and failed (R386, R387); `how` is byte 16 of 0x0803. -/
def State.judgeBad (s : State) (unit detail how : Nat) : State :=
  let r := s.hlth.soft
  let old := r.find unit detail
  let n := match old with
    | some e => min 255 (e.recur + 1)
    | none => 1
  let s : State := match old with
    | some x =>
      let e : SoftEnt := { x with recur := n, proposed := x.proposed || decide (3 ≤ n) }
      s.keepSoft { r with ents := r.ents.map (fun y => if y = x then e else y) }
    | none =>
      if 256 ≤ r.ents.length then s.event 0x080B devUnit 2 [(16, 1, 2)]
      else
        let e : SoftEnt := { unit := unit, detail := detail, recur := n, proposed := false, inService := false, boots := r.boots % 65536 }
        s.keepSoft { r with ents := r.ents ++ [e] }
  let s := s.event 0x0803 unit 1 [(16, 1, how), (17, 2, detail), (19, 1, n)]
  match old with
  | some e => if 3 ≤ n ∧ e.proposed = false then s.event 0x0805 unit 1 [(16, 2, unit), (18, 2, detail)] else s
  | none => s

/-- Lanes of a port or split half-port named by the index of its unit ID. -/
def lanesOfPort (n : Nat) : List Nat :=
  if n < 16 then (List.range 8).map (8 * n + ·) else (List.range 4).map ((n - 16) / 2 * 8 + (n - 16) % 2 * 4 + ·)

/-- The unit whose test covers a unit. -/
def testOf (unit : Nat) : List Nat :=
  let k := unit / 2048
  let n := unit % 2048
  if k = 7 then [unitId 0 (n / 16)] else if k = 8 then [unitId 3 (n / 8)] else if k = 5 then (lanesOfPort n).map (unitId 6) else [unit]

/-- A unit was tested: a channel that did not train was not. -/
def State.testedUnit (s : State) (unit : Nat) : Bool :=
  (testOf unit).all (fun u => s.hlth.outs.any (fun o => o.unit == u) &&
    !(u / 2048 == 3 && s.rf (Reg.MEM_CH_STAT (u % 2048)) 2 0 == 4 && !s.fusedBad u 0))

/-- The tests found a unit bad. -/
def State.failedUnit (s : State) (unit detail : Nat) : Bool :=
  let k := unit / 2048
  let n := unit % 2048
  let bad (o : TestOut) : Bool :=
    if k = 0 then s.spinBad n o
    else if k = 7 then o.march || o.lines.contains (n % 16, detail)
    else if k = 8 then o.march || o.rows.contains (n % 8 / 2, n % 2 * 8 + bitsOf detail 14 12, bitsOf detail 11 0)
    else o.logic == 2 || o.march
  s.hlth.outs.any (fun o => (testOf unit).contains o.unit && bad o)

/-- A passing row's repair is lifted (R386). -/
def State.liftRow (s : State) (unit detail : Nat) : State :=
  let n := unit % 2048
  match s.repairEntry (n / 8) (n % 8 / 2) (n % 2 * 8 + bitsOf detail 14 12) (bitsOf detail 11 0) with
  | some e => (s.wr (Reg.MEM_REPAIR (n / 8) e) 0).syncSpares (n / 8)
  | none => s

/-- Units that passed (R386): fused bad ones record 0x0804, and soft repairs of good ones are lifted; no entry stays
beside a fuse. -/
def State.acceptPasses (s : State) : State :=
  let s := (List.range 512).foldl (fun s n =>
    let u := s.rf (Reg.FUSE_MAP n) 31 16
    let d := s.rf (Reg.FUSE_MAP n) 14 0
    if s.rbit (Reg.FUSE_MAP n) 15 && s.testedUnit u && !s.failedUnit u d then s.event 0x0804 u 0 [] else s) s
  s.hlth.soft.ents.foldl (fun s e =>
    let r := s.hlth.soft
    if s.fusedBad e.unit e.detail then s.keepSoft { r with ents := r.ents.erase e }
    else if s.testedUnit e.unit && !s.failedUnit e.unit e.detail && !(e.unit / 2048 == 0 && s.spnState e.unit == 6) then
      (if e.unit / 2048 = 8 then s.liftRow e.unit e.detail else s).keepSoft { r with ents := r.ents.erase e }
    else s) s

/-- The kinds of unit that are kept out where they fail and no spare stands in: cores and lanes. -/
def State.acceptPlain (s : State) : State :=
  let out (u : Nat) : Bool := s.failedUnit u 0 && !s.fusedBad u 0
  let cores := (List.range 8).filter (fun n => !s.fusedBad (unitId 9 n) 0 && !s.failedUnit (unitId 9 n) 0)
  let lanes := (List.range 129).filter (fun n => s.failedUnit (unitId 6 n) 0)
  let t : State := { s with hlth := { s.hlth with badLanes := lanes } }
  let t := t.wf Reg.MGMT_CORE_ST 7 0 (cores.map (2 ^ ·)).sum
  (((List.range 8).map (unitId 9) ++ (List.range 129).map (unitId 6)).filter out).foldl (fun s u => s.judgeBad u 0 4) t

/-- Ports fused bad, or with a soft entry and a failing lane, are disabled. -/
def State.acceptPorts (s : State) : State :=
  let ports := (List.range 48).map (unitId 5)
  let soft := ports.filter (fun u => (s.hlth.soft.find u 0).isSome && s.failedUnit u 0 && !s.fusedBad u 0)
  let t := soft.foldl (fun s u => s.judgeBad u 0 4) s
  ((ports.filter (fun u => s.fusedBad u 0)) ++ soft).foldl (fun s u =>
    let n := u % 2048
    (if n < 16 then [2 * n, 2 * n + 1] else [n - 16]).foldl (fun s h => s.wf (Reg.PORT_HCTL (h / 2) (h % 2)) 0 0 0) s) t

/-- The lines of a bank that spare lines take: no more than are free (R381). -/
def State.sparedLines (s : State) (ps : Nat) (o : TestOut) : List (Nat × Nat) :=
  (List.range 16).flatMap (fun b => ((s.newLines ps o).filter (fun x => x.1 == b)).take (16 - s.fusedLines ps b))

/-- Lines, then spindles and the map (R21, R68, R381, R386). -/
def State.acceptSpindles (s : State) : State :=
  let outs := s.hlth.outs.filter (fun o => decide (o.unit < 18))
  let s := outs.foldl (fun s o =>
    (s.sparedLines o.unit o).foldl (fun s x => s.judgeBad (unitId 7 (o.unit * 16 + x.1)) x.2 2) s) s
  let bad := (List.range 18).filter (fun ps => s.fusedBad (unitId 0 ps) 0 || s.failedUnit (unitId 0 ps) 0 || s.spnState ps == 6)
  let s := (List.range 18).foldl (fun s ps =>
    if bad.contains ps then ((s.wr (Reg.SPN_NUM_REV ps) 1).setSpnState ps 6).syncStop ps else s.initSpindle ps) s
  let s := s.rebuild
  (bad.filter (fun ps => s.failedUnit (unitId 0 ps) 0 && !s.fusedBad (unitId 0 ps) 0)).foldl (fun s ps =>
    let spared := match posHome ps with
      | some q => (s.occupant q).isSome
      | none => false
    s.judgeBad (unitId 0 ps) 0 (if spared then 1 else 4)) s

/-- One failing row of a channel is repaired; false where it could not be (R240, R382). -/
def State.acceptRow (s : State) (ch : Nat) (x : Nat × Nat × Nat) : State × Bool :=
  if (s.repairEntry ch x.1 x.2.1 x.2.2).isSome then (s.judgeBad (rowUnit ch x.1 x.2.1) (rowDetail x) 3, true)
  else
    let r := s.repairRows ch [x] false
    if r.2 then (r.1, false) else (r.1.judgeBad (rowUnit ch x.1 x.2.1) (rowDetail x) 3, true)

/-- Channels: failing rows are repaired, and a channel whose rows cannot be is fenced; the rest are written to zero
(R242, R382). -/
def State.acceptChannels (s : State) : State :=
  let s := (s.hlth.outs.filter (fun o => o.unit / 2048 == 3 && s.rf (Reg.MEM_CH_STAT (o.unit % 2048)) 2 0 == 1)).foldl (fun s o =>
    let ch := o.unit % 2048
    let rows := o.rows.filter (fun x => !s.fusedBad (rowUnit ch x.1 x.2.1) (rowDetail x))
    let r := rows.foldl (fun (a : State × Bool) x => let b := a.1.acceptRow ch x; (b.1, a.2 && b.2)) (s, true)
    if r.2 && !o.march then r.1 else (r.1.fenceChan ch 4).judgeBad (unitId 3 ch) 0 4) s
  ((List.range 132).foldl (fun s ch => if s.rf (Reg.MEM_CH_STAT ch) 2 0 = 1 then s.zeroChan ch else s) s).syncDgChan

/-- The mask of reasons 1 to 5 that hold (R391). -/
def State.badReasons (s : State) : Nat :=
  let b (x : Bool) (n : Nat) : Nat := if x then 2 ^ n else 0
  let fenced (l : List Nat) : Nat := l.countP (fun ch => s.rf (Reg.MEM_CH_STAT ch) 2 0 == 4)
  b ([1, 2, 22, 23].any (fun d => s.failedUnit (domUnit d) 0)) 0 + b (s.rf Reg.MGMT_CORE_ST 7 0 == 0) 1 +
    b (decide (0 < fenced [128, 129, 130, 131])) 2 + b (decide (s.lCount < s.rf Reg.TEST_POLICY 4 0)) 3 +
    b (decide (s.rf Reg.TEST_POLICY 15 8 < fenced (List.range 128))) 4

/-- Phase 8 (R549). -/
def State.acceptDone (s : State) : State :=
  let s := s.acceptPasses.acceptPlain.acceptSpindles.acceptChannels.acceptPorts
  if s.badReasons = 0 then s.toPhase (if s.safe then 11 else 9) else s.notAccepted 8 s.badReasons

/-- STARTUP_ACCEPT (R391). -/
def execStartupAccept (s : State) : Res := .next (if s.booting 8 then s.acceptDone else s)

/-! ### Phase 9: the coordinate (R556, R557). -/

/-- The coordinate is assigned and phase 10 begins. -/
def State.assignCoord (s : State) (src coord topo dims : Nat) : State :=
  let s := (s.wf Reg.FAB_CTL 1 0 topo).wr Reg.FAB_DIMS dims
  (s.wr Reg.FAB_COORD (2 ^ 31 + src * 2 ^ 30 + coord)).toPhase 10

/-- STARTUP_COORD (R556): straps at once; else the held COORD_SET once there is one. -/
def execStartupCoord (s : State) : Res :=
  .next (if s.booting 9 then
    (if s.rbit Reg.CMD_STRAPS 4 then s.assignCoord 0 (s.rf Reg.CMD_STRAPS 8 5) 0 15
     else match s.boot.coord with
      | some c => s.assignCoord 1 c.1 c.2.1 c.2.2
      | none => s) else s)

/-- The wait for a coordinate ends: phase 10 is skipped. -/
def State.coordLate (s : State) : State := ((s.failPhase 9).event 0x07E5 devUnit 2 []).toPhase 11

/-- No COORD_SET in 600 s. -/
def State.coordExpired (s : State) : Bool :=
  s.booting 9 && !s.rbit Reg.CMD_STRAPS 4 && s.boot.coord.isNone && decide (60000000000 ≤ s.inPhase)

/-- COORD_WAIT_EXPIRY (R557). -/
def execCoordWaitExpiry (s : State) : Res := .next (if s.coordExpired then s.coordLate else s)

/-! ### Phase 10: links (R288, R549). -/

/-- Half-ports that train in phase 10. -/
def State.bootHalves (s : State) : List Nat :=
  (List.range 32).filter (fun h => bitOf (s.hctl h) 0 && (h % 2 == 0 || bitOf (s.rd (Reg.PORT_CTL (h / 2))) 3))

/-- STARTUP_LINKS (R549): the first attempts begin; once none is under way phase 11 begins. -/
def execStartupLinks (s : State) : Res :=
  .next (if s.booting 10 then
    (if s.boot.linking then (if (List.range 32).all (fun h => s.portSt h != 1) then s.toPhase 11 else s)
     else s.bootHalves.foldl (fun s h => s.retrain h) ({ s with boot := { s.boot with linking := true } } : State)) else s)

/-! ### Phase 11: the OS image (R558 to R560, R562). -/

def imgPlen (h : List Byte) : Nat := rdLE h 8 8
def imgLoad (h : List Byte) : Nat := rdLE h 0x10 8
def imgEntry (h : List Byte) : Nat := rdLE h 0x18 8

/-- The header is right: MAGIC, VERSION, ranges and reserved bytes (R558, R560). -/
def imgHeadOk (h : List Byte) : Bool :=
  h.length == 512 && rdLE h 0 4 == 0x4F495A4B && rdLE h 4 2 == 1 && decide (rdLE h 6 2 < 2) &&
    decide (1 ≤ imgPlen h ∧ imgPlen h ≤ 0x17FFFE00) && imgLoad h % 4096 == 0 &&
    decide (0x3000000000 ≤ imgLoad h ∧ imgLoad h + imgPlen h ≤ 0x3180000000) &&
    decide (imgLoad h ≤ imgEntry h ∧ imgEntry h < imgLoad h + imgPlen h) &&
    isZero h 0x28 24 && isZero h 0xA1 95 && isZero h 0x160 160

/-- The signer is the owner, where OWNER_DIG is burned (R560). -/
def State.signerOk (s : State) (h : List Byte) : Bool :=
  match s.fuse.owner with
  | none => true
  | some d => bitOf (rdLE h 6 2) 0 && sha384 (sliceB h 0x40 97) == d && sec1Ok (sliceB h 0x40 97)

/-- The OS digest (R558). -/
def osDigestOf (h pay : List Byte) : List Byte := sha384 (h.take 0x100 ++ pay)

/-- The signature holds, where OWNER_DIG is burned. -/
def State.imgSigned (s : State) (h pay : List Byte) : Bool :=
  s.fuse.owner.isNone ||
    (s.signerOk h && ecdsaVerify (ecOfBytes (sliceB h 0x41 96)) (osDigestOf h pay) (sliceB h 0x100 96))

/-- Bytes are written from a device address on. -/
def State.loadBytes : List Byte → Nat → State → State
  | [], _, s => s
  | b :: l, a, s => State.loadBytes l (a + 1) (match s.locKey (s.loc a) with
    | some k => s.setByte k b
    | none => s)

/-- Bytes from a device address on. -/
def State.loadedBytes (s : State) (a n : Nat) : List Byte :=
  (List.range n).map (fun i => match s.locKey (s.loc (a + i)) with
    | some k => s.byteAt k
    | none => 0)

/-- Phase 11 ends without an image: RESULT, and event 0x07E6, or 0x0A02 for a refused signature (R560, R562). -/
def State.noImage (s : State) (result bytes : Nat) : State :=
  let s := (s.wf Reg.CMD_BOOT_ST 11 8 result).toPhase 12
  let s : State := { s with boot := { s.boot with client := false, tftp := none, image := none } }
  if result = 4 then s.event 0x0A02 devUnit 2 [] else s.event 0x07E6 devUnit 2 [(16, 1, result), (17, 4, bytes)]

/-- The whole image is at hand: the signature is judged, and phase 12 begins. -/
def State.haveImage (s : State) (h pay : List Byte) : State :=
  if s.imgSigned h pay then
    let s := s.toPhase 12
    { s with boot := { s.boot with client := false, tftp := none
                                   image := some { digest := osDigestOf h pay, entry := imgEntry h, arg := rdLE h 0x20 8 } } }
  else s.noImage 4 (512 + pay.length)

/-- An image from module flash. -/
def State.flashImage (s : State) : State :=
  let h := s.flashBytes flImage 512
  if imgHeadOk h then
    let pay := s.flashBytes (flImage + 512) (imgPlen h)
    (State.loadBytes pay (imgLoad h) s).haveImage h pay
  else s.noImage 3 512

/-- SRC_USED of a strapped source (R568). -/
def srcUsed (boot : Nat) : Nat := if boot = 3 then 0 else boot + 1

/-- STARTUP_IMAGE (R559): the source is used; a network source waits for link, then asks for an address. -/
def execStartupImage (s : State) : Res :=
  .next (if s.booting 11 && !s.boot.client then
    (let src := s.rf Reg.CMD_STRAPS 1 0
     let s := s.wf Reg.CMD_BOOT_ST 15 12 (srcUsed src)
     if src = 3 then s.noImage 2 0
     else if src = 0 then s.flashImage
     else if s.rbit Reg.MGMT_PORT_ST 0 then
       ({ s with boot := { s.boot with client := true } } : State).send (.dhcp (src == 1))
     else s) else s)

/-- A read request and an acknowledgement (RFC 1350). -/
def tftpRead (file : List Byte) : List Byte := toBE 2 1 ++ file ++ [0] ++ strB "octet" ++ [0]
def tftpAck (n : Nat) : List Byte := toBE 2 4 ++ toBE 2 (n % 65536)

def State.setTftp (s : State) (t : Option Tftp) : State := { s with boot := { s.boot with tftp := t } }

/-- DHCP_REPLY (R559): the boot client's address, and the server and file. -/
def execDhcpReply (own server file : List Byte) (s : State) : Res :=
  .next (if s.booting 11 && s.boot.client && s.boot.tftp.isNone then
    (s.setTftp (some { own := own, server := server, file := file, at_ := s.wall })).send (.tftp server (tftpRead file)) else s)

/-- An expected block is taken and acknowledged. -/
def State.ackBlock (s : State) (t : Tftp) (n : Nat) : State :=
  (s.setTftp (some { t with got := t.got + n, next := t.next + 1, tries := 1, at_ := s.wall })).send (.tftp t.server (tftpAck t.next))

/-- The expected block (R559, R560): the header first; a block of fewer than 512 bytes is the last. -/
def State.takeBlock (s : State) (t : Tftp) (b : List Byte) : State :=
  if t.next = 1 then
    if imgHeadOk b = false then s.noImage 3 b.length
    else if s.signerOk b = false then s.noImage 4 b.length
    else s.ackBlock { t with hdr := b } 512
  else
    let got := t.got - 512 + b.length
    if imgPlen t.hdr < got ∨ (b.length < 512 ∧ got ≠ imgPlen t.hdr) then s.noImage 3 (512 + got)
    else
      let s := (State.loadBytes b (imgLoad t.hdr + (t.got - 512)) s).ackBlock t b.length
      if b.length < 512 then s.haveImage t.hdr (s.loadedBytes (imgLoad t.hdr) got) else s

/-- TFTP_BLOCK (R559, R566): block numbers wrap; one that is not the next is not acknowledged. -/
def execTftpBlock (n : BitVec 16) (b : List Byte) (s : State) : Res :=
  .next (match s.boot.tftp with
    | some t => if s.booting 11 && t.next % 65536 == n.toNat && decide (b.length ≤ 512) then s.takeBlock t b else s
    | none => s)

/-- TFTP_RETRANSMIT (R559): 1 s without a block; after five tries the transfer has failed. -/
def execTftpRetransmit (s : State) : Res :=
  .next (match s.boot.tftp with
    | some t =>
      if s.booting 11 && decide (100000000 ≤ (s.wall - t.at_).toNat) then
        (if 5 ≤ t.tries then s.noImage 5 t.got
         else (s.setTftp (some { t with tries := t.tries + 1, at_ := s.wall })).send
           (.tftp t.server (if t.next = 1 then tftpRead t.file else tftpAck (t.next - 1)))) else s
    | none => s)

/-! ### Phase 12: launch (R389, R561, R562, R564). -/

/-- Bytes a trained or adapted item takes: the manual gives them no meaning, so they are free, as is their number where the
item's entry cannot be used (log 66). -/
def State.trainedBytes (s : State) (i : Nat) : List Byte × State :=
  let h := calHead s
  let a := s.free
  let b := a.2.free
  (toLE (if calHeadOk h && calEntryOk h i then calLen h i else 1 + a.1 % 0x100000) b.1, b.2)

/-- Items trained in full or adapted are written back (R564). -/
def State.writeBack (s : State) : State :=
  let s := s.boot.dirty.foldl (fun s i => let b := s.trainedBytes i; b.2.calWrite i b.1) s
  { s with boot := { s.boot with dirty := [] } }

/-- The record is rewritten, one start-up more, and the device enters SERVICE or WITHDRAWN (R37, R389, R561). -/
def State.complete (s : State) : State :=
  let r := s.hlth.soft
  let s := (s.setSoft { r with boots := (r.boots + 1) % 2 ^ 32 }).wf Reg.CMD_DEV_STATE 27 24 0
  s.setDev (if s.rbit Reg.CMD_DEV_STATE 19 then stWithdrawn else stService) 0x07E0

/-- Start-up completes with no image (R562). -/
def State.completeBare (s : State) : State :=
  (({ s with boot := { s.boot with image := none } } : State).wf Reg.MGMT_CORE_ST 8 8 0).complete

/-- STARTUP_LAUNCH (R561, R562). -/
def execStartupLaunch (s : State) : Res :=
  .next (if s.booting 12 then
    (match s.boot.image with
      | none => s.completeBare
      | some i =>
        let s := (s.extend 3 i.digest).writeBack
        let s := s.wf Reg.MGMT_CORE_ST 8 8 (s.rf Reg.MGMT_CORE_ST 0 0)
        let s := (s.wf Reg.CMD_BOOT_ST 11 8 1).event 0x07E7 devUnit 1 [(16, 8, rdLE i.digest 0 8)]
        s.complete) else s)

/-! ### Limits (R549). -/

/-- A limit whose outcome is event 0x07E1. -/
def State.limitEvent (s : State) (ph : Nat) : State := (s.failPhase ph).event 0x07E1 devUnit 3 [(16, 1, ph), (17, 1, 2)]

/-- Limits of phases 1 to 5 in reference periods, and what follows. -/
def State.earlyLimit (s : State) : State :=
  let t := s.inPhase
  if (s.booting 0 || s.booting 1) && decide (1000000 ≤ t) then s.procFail
  else if s.booting 2 && decide (200000 ≤ t) then
    -- pins not yet read take their safe values
    let left := if s.boot.strapAt.isNone then List.range 15 else s.boot.unst.map (·.1)
    ({ s with boot := { s.boot with lost := s.boot.lost ++ left, unst := [] } } : State).failPhase 2 |>.strapsDone
  else if s.booting 3 && decide (10000000 ≤ t) then
    let w := s.free
    (w.2.event 0x07E2 devUnit 3 [(16, 2, w.1 % 65536)]).bootHalt 3 0x07E2
  else if s.booting 4 && s.pwr.group == 7 && decide (100000 ≤ t ∧ 100000 ≤ (s.wall - s.pwr.groupAt).toNat) then
    let p := s.free
    (p.2.event 0x07E8 devUnit 3 [(16, 1, p.1 % 6)]).bootHalt 4 0x07E8
  else if s.booting 5 && decide (100000000 ≤ t) then (s.failPhase 5).calDone true
  else s

/-- Limits of phases 6 to 12; each test of phase 7 has its own (R379). -/
def State.lateLimit (s : State) : State :=
  let t := s.inPhase
  if s.booting 6 && decide (200000000 ≤ t) then (s.failPhase 6).dramDone (List.range 132)
  else if s.booting 8 && decide (100000000 ≤ t) then (s.limitEvent 8).bootHalt 8 0x07E1
  else if s.coordExpired then s.coordLate
  else if s.booting 10 && decide (100000000 ≤ t) then
    ((List.range 32).foldl (fun s h => if s.portSt h = 1 then s.trainFail h 4 else s) (s.failPhase 10)).toPhase 11
  else if s.booting 11 && decide ((if s.rf Reg.CMD_STRAPS 1 0 = 0 then 1000000000 else 30000000000) ≤ t) then
    (s.failPhase 11).noImage 6 (match s.boot.tftp with
      | some x => x.got
      | none => 0)
  else if s.booting 12 && decide (100000000 ≤ t) then ((s.limitEvent 12).wf Reg.CMD_BOOT_ST 11 8 6).completeBare
  else s

/-- STARTUP_PHASE_LIMIT (R549). -/
def execStartupPhaseLimit (s : State) : Res :=
  .next (if s.phase ≤ 5 then s.earlyLimit else s.lateLimit)

end Sys2Proof.Machine
end

