-- ==== Sys2Proof/Machine/Fire.lean ====
section
/-! DEFINITION. The operations of the units as commands: the slot word fires on the tokens the matching
stores hold, or the spindle holds (spec/03_spindle.md R82, R90).  A word that is no such slot is refused
(WellFormed). -/

namespace Sys2Proof.Machine

/-- Fires a slot word that is the row's operation and one a skein may hold. -/
def State.fireRow (s : State) (is : Bool) (ps u : Nat) (w : DWord) (f : Flips) : Res :=
  if is && slotOk u w then .next (s.fireSlot ps u w f) else .refused .illFormed

/-- MAC (R50). -/
def execMac (ps : Fin 18) (u : Fin 55) (w : DWord) (s : State) : Res :=
  s.fireRow (slotIs .tile 1 u w) ps u w []

/-- LOADW (R161). -/
def execLoadw (ps : Fin 18) (u : Fin 55) (w : DWord) (s : State) : Res :=
  s.fireRow (slotIs .tile 2 u w) ps u w []

/-- CLEAR (R591). -/
def execClear (ps : Fin 18) (u : Fin 55) (w : DWord) (s : State) : Res :=
  s.fireRow (slotIs .tile 3 u w) ps u w []

/-- READ (R57). -/
def execRead (ps : Fin 18) (u : Fin 55) (w : DWord) (s : State) : Res :=
  s.fireRow (slotIs .tile 4 u w) ps u w []

/-- SPILL (R591). -/
def execSpill (ps : Fin 18) (u : Fin 55) (w : DWord) (s : State) : Res :=
  s.fireRow (slotIs .tile 5 u w) ps u w []

/-- LOAD (R55). -/
def execLoad (ps : Fin 18) (u : Fin 55) (w : DWord) (s : State) : Res :=
  s.fireRow (slotIs .tile 6 u w) ps u w []

/-- MERGE (R55). -/
def execMerge (ps : Fin 18) (u : Fin 55) (w : DWord) (s : State) : Res :=
  s.fireRow (slotIs .tile 7 u w) ps u w []

/-- ADD (R63). -/
def execAdd (ps : Fin 18) (u : Fin 55) (w : DWord) (s : State) : Res :=
  s.fireRow (slotIs .vec 1 u w) ps u w []

/-- SUB (R63). -/
def execSub (ps : Fin 18) (u : Fin 55) (w : DWord) (s : State) : Res :=
  s.fireRow (slotIs .vec 2 u w) ps u w []

/-- MUL (R63). -/
def execMul (ps : Fin 18) (u : Fin 55) (w : DWord) (s : State) : Res :=
  s.fireRow (slotIs .vec 3 u w) ps u w []

/-- FMA (R63). -/
def execFma (ps : Fin 18) (u : Fin 55) (w : DWord) (s : State) : Res :=
  s.fireRow (slotIs .vec 4 u w) ps u w []

/-- MIN (R63). -/
def execMin (ps : Fin 18) (u : Fin 55) (w : DWord) (s : State) : Res :=
  s.fireRow (slotIs .vec 5 u w) ps u w []

/-- MAX (R63). -/
def execMax (ps : Fin 18) (u : Fin 55) (w : DWord) (s : State) : Res :=
  s.fireRow (slotIs .vec 6 u w) ps u w []

/-- CMP (R63). -/
def execCmp (ps : Fin 18) (u : Fin 55) (w : DWord) (s : State) : Res :=
  s.fireRow (slotIs .vec 7 u w) ps u w []

/-- CVT (R65). -/
def execCvt (ps : Fin 18) (u : Fin 55) (w : DWord) (s : State) : Res :=
  s.fireRow (slotIs .vec 8 u w) ps u w []

/-- RED (R60). -/
def execRed (ps : Fin 18) (u : Fin 55) (w : DWord) (s : State) : Res :=
  s.fireRow (slotIs .vec 9 u w) ps u w []

/-- MOV (R588). -/
def execMov (ps : Fin 18) (u : Fin 55) (w : DWord) (s : State) : Res :=
  s.fireRow (slotIs .vec 11 u w) ps u w []

/-- RNG (R358). -/
def execRng (ps : Fin 18) (u : Fin 55) (w : DWord) (s : State) : Res :=
  s.fireRow (slotIs .vec 12 u w) ps u w []

/-- COMP NZ (R169). -/
def execNz (ps : Fin 18) (u : Fin 55) (w : DWord) (s : State) : Res :=
  s.fireRow (compIs 0 u w) ps u w []

/-- COMP PACK (R171). -/
def execPack (ps : Fin 18) (u : Fin 55) (w : DWord) (s : State) : Res :=
  s.fireRow (compIs 1 u w) ps u w []

/-- COMP FLUSH (R169). -/
def execFlush (ps : Fin 18) (u : Fin 55) (w : DWord) (s : State) : Res :=
  s.fireRow (compIs 2 u w) ps u w []

/-- COMP XIN (R172). -/
def execXin (ps : Fin 18) (u : Fin 55) (w : DWord) (s : State) : Res :=
  s.fireRow (compIs 3 u w) ps u w []

/-- COMP XOUT (R172). -/
def execXout (ps : Fin 18) (u : Fin 55) (w : DWord) (s : State) : Res :=
  s.fireRow (compIs 4 u w) ps u w []

/-- COMP PCNT (R169). -/
def execPcnt (ps : Fin 18) (u : Fin 55) (w : DWord) (s : State) : Res :=
  s.fireRow (compIs 5 u w) ps u w []

/-- exp2 (R66). -/
def execExp2 (ps : Fin 18) (u : Fin 55) (w : DWord) (s : State) : Res :=
  s.fireRow (slotIs .sfu 0 u w) ps u w []

/-- log2 (R66). -/
def execLog2 (ps : Fin 18) (u : Fin 55) (w : DWord) (s : State) : Res :=
  s.fireRow (slotIs .sfu 1 u w) ps u w []

/-- reciprocal (R66). -/
def execReciprocal (ps : Fin 18) (u : Fin 55) (w : DWord) (s : State) : Res :=
  s.fireRow (slotIs .sfu 2 u w) ps u w []

/-- reciprocal square root (R66). -/
def execReciprocalSquareRoot (ps : Fin 18) (u : Fin 55) (w : DWord) (s : State) : Res :=
  s.fireRow (slotIs .sfu 3 u w) ps u w []

/-- sin (R66). -/
def execSin (ps : Fin 18) (u : Fin 55) (w : DWord) (s : State) : Res :=
  s.fireRow (slotIs .sfu 4 u w) ps u w []

/-- cos (R66). -/
def execCos (ps : Fin 18) (u : Fin 55) (w : DWord) (s : State) : Res :=
  s.fireRow (slotIs .sfu 5 u w) ps u w []

/-- SWITCH (R83). -/
def execSwitch (ps : Fin 18) (u : Fin 55) (w : DWord) (s : State) : Res :=
  s.fireRow (slotIs .steer 0 u w) ps u w []

/-- the steering MERGE (R83). -/
def execSteerMerge (ps : Fin 18) (u : Fin 55) (w : DWord) (s : State) : Res :=
  s.fireRow (slotIs .steer 1 u w) ps u w []

/-- GATE (R83). -/
def execGate (ps : Fin 18) (u : Fin 55) (w : DWord) (s : State) : Res :=
  s.fireRow (slotIs .steer 2 u w) ps u w []

/-- SPLIT (R83). -/
def execSplit (ps : Fin 18) (u : Fin 55) (w : DWord) (s : State) : Res :=
  s.fireRow (slotIs .steer 3 u w) ps u w []

/-- COUNT (R132). -/
def execCount (ps : Fin 18) (u : Fin 55) (w : DWord) (s : State) : Res :=
  s.fireRow (slotIs .steer 4 u w) ps u w []

/-- PHASE (R201). -/
def execPhase (ps : Fin 18) (u : Fin 55) (w : DWord) (s : State) : Res :=
  s.fireRow (slotIs .seq 1 u w) ps u w []

/-- ROT (R202). -/
def execRot (ps : Fin 18) (u : Fin 55) (w : DWord) (s : State) : Res :=
  s.fireRow (slotIs .seq 2 u w) ps u w []

/-- BLK (R204). -/
def execBlk (ps : Fin 18) (u : Fin 55) (w : DWord) (s : State) : Res :=
  s.fireRow (slotIs .seq 3 u w) ps u w []

/-- MRG (R206). -/
def execMrg (ps : Fin 18) (u : Fin 55) (w : DWord) (s : State) : Res :=
  s.fireRow (slotIs .seq 4 u w) ps u w []

/-- FIN (R210). -/
def execFin (ps : Fin 18) (u : Fin 55) (w : DWord) (s : State) : Res :=
  s.fireRow (slotIs .seq 5 u w) ps u w []

/-- the sequence SPILL (R209). -/
def execSeqSpill (ps : Fin 18) (u : Fin 55) (w : DWord) (s : State) : Res :=
  s.fireRow (slotIs .seq 6 u w) ps u w []

/-- TOPK (R180). -/
def execTopk (ps : Fin 18) (u : Fin 55) (w : DWord) (s : State) : Res :=
  s.fireRow (slotIs .dsp 1 u w) ps u w []

/-- POST (R184). -/
def execPost (ps : Fin 18) (u : Fin 55) (w : DWord) (s : State) : Res :=
  s.fireRow (slotIs .dsp 2 u w) ps u w []

/-- GRANT (R184). -/
def execGrant (ps : Fin 18) (u : Fin 55) (w : DWord) (s : State) : Res :=
  s.fireRow (slotIs .dsp 3 u w) ps u w []

/-- SCATTER (R184). -/
def execScatter (ps : Fin 18) (u : Fin 55) (w : DWord) (s : State) : Res :=
  s.fireRow (slotIs .dsp 4 u w) ps u w []

/-- RETURN (R184). -/
def execDspReturn (ps : Fin 18) (u : Fin 55) (w : DWord) (s : State) : Res :=
  s.fireRow (slotIs .dsp 5 u w) ps u w []

/-- TRESET (R184). -/
def execTreset (ps : Fin 18) (u : Fin 55) (w : DWord) (s : State) : Res :=
  s.fireRow (slotIs .dsp 6 u w) ps u w []

/-- BREAD (R92). -/
def execBread (ps : Fin 18) (u : Fin 55) (w : DWord) (f : Flips) (s : State) : Res :=
  s.fireRow (slotIs .mem 1 u w) ps u w f

/-- BWRITE (R92). -/
def execBwrite (ps : Fin 18) (u : Fin 55) (w : DWord) (f : Flips) (s : State) : Res :=
  s.fireRow (slotIs .mem 2 u w) ps u w f

/-- RD (R87). -/
def execRd (ps : Fin 18) (u : Fin 55) (w : DWord) (s : State) : Res :=
  s.fireRow (slotIs .mem 3 u w) ps u w []

/-- WR (R93). -/
def execWr (ps : Fin 18) (u : Fin 55) (w : DWord) (s : State) : Res :=
  s.fireRow (slotIs .mem 4 u w) ps u w []

/-- ATOM (R145). -/
def execAtom (ps : Fin 18) (u : Fin 55) (w : DWord) (s : State) : Res :=
  s.fireRow (slotIs .mem 5 u w) ps u w []

/-- RECV (R87). -/
def execRecv (ps : Fin 18) (u : Fin 55) (w : DWord) (s : State) : Res :=
  s.fireRow (slotIs .mem 6 u w) ps u w []

/-- SEND (R274). -/
def execSend (ps : Fin 18) (u : Fin 55) (w : DWord) (s : State) : Res :=
  s.fireRow (slotIs .mem 7 u w) ps u w []

/-- WATCH (R145). -/
def execWatch (ps : Fin 18) (u : Fin 55) (w : DWord) (s : State) : Res :=
  s.fireRow (slotIs .mem 8 u w) ps u w []

/-- a sluice release (R88). -/
def execSluiceRelease (ps : Fin 18) (u : Fin 55) (w : DWord) (s : State) : Res :=
  s.fireRow (slotIs .sluice 0 u w) ps u w []

end Sys2Proof.Machine
end

