-- ==== Sys2Proof/Machine/Dispatch.lean ====
section
/-! DEFINITION. One arm per command: the effect of each on everything but the queue. -/

namespace Sys2Proof.Machine

def exec (i : Instr) (s : State) : Host.Outcome State Fault Refusal :=
  match i with
  | .pwrEnRise mv mated => Sys2Proof.Machine.execPwrEnRise mv mated s
  | .pwrEnFall => Sys2Proof.Machine.execPwrEnFall s
  | .powerGroupGood => Sys2Proof.Machine.execPowerGroupGood s
  | .powerGroupTimeout => Sys2Proof.Machine.execPowerGroupTimeout s
  | .inputSample mv => Sys2Proof.Machine.execInputSample mv s
  | .moduleThermalTrip => Sys2Proof.Machine.execModuleThermalTrip s
  | .regAccessTimeout who a write => Sys2Proof.Machine.execRegAccessTimeout who a write s
  | .reg64LowRead who a n => Sys2Proof.Machine.execReg64LowRead who a s n
  | .regWriteOther hart a v n => Sys2Proof.Machine.execRegWriteOther hart a v s n
  | .exec ps bad f => Sys2Proof.Machine.execExec ps bad f s
  | .idle ps bad => Sys2Proof.Machine.execIdle ps bad s
  | .loop ps bad => Sys2Proof.Machine.execLoop ps s bad
  | .sectionEnd ps bad => Sys2Proof.Machine.execSectionEnd ps s bad
  | .sectionDrained ps => Sys2Proof.Machine.execSectionDrained ps s
  | .sectionLoadProceed ps f ready bad => Sys2Proof.Machine.execSectionLoadProceed ps f s ready bad
  | .step ps f bad => Sys2Proof.Machine.execStep ps f s bad
  | .contextEnd ps bad => Sys2Proof.Machine.execContextEnd ps s bad
  | .positionReport ps w => Sys2Proof.Machine.execPositionReport ps w s
  | .minposBroadcast ps w => Sys2Proof.Machine.execMinposBroadcast ps w s
  | .tokenArrival ps u port fl fire => Sys2Proof.Machine.execTokenArrival ps u port fl fire s
  | .sluiceFill ps op idx ctl data poison => Sys2Proof.Machine.execSluiceFill ps op idx ctl data poison s
  | .sluiceRelease ps u w => Sys2Proof.Machine.execSluiceRelease ps u w s
  | .completionAck ps op poison old => Sys2Proof.Machine.execCompletionAck ps op poison old s
  | .mac ps u w => Sys2Proof.Machine.execMac ps u w s
  | .loadw ps u w => Sys2Proof.Machine.execLoadw ps u w s
  | .clear ps u w => Sys2Proof.Machine.execClear ps u w s
  | .read ps u w => Sys2Proof.Machine.execRead ps u w s
  | .spill ps u w => Sys2Proof.Machine.execSpill ps u w s
  | .load ps u w => Sys2Proof.Machine.execLoad ps u w s
  | .merge ps u w => Sys2Proof.Machine.execMerge ps u w s
  | .add ps u w => Sys2Proof.Machine.execAdd ps u w s
  | .sub ps u w => Sys2Proof.Machine.execSub ps u w s
  | .mul ps u w => Sys2Proof.Machine.execMul ps u w s
  | .fma ps u w => Sys2Proof.Machine.execFma ps u w s
  | .min ps u w => Sys2Proof.Machine.execMin ps u w s
  | .max ps u w => Sys2Proof.Machine.execMax ps u w s
  | .cmp ps u w => Sys2Proof.Machine.execCmp ps u w s
  | .cvt ps u w => Sys2Proof.Machine.execCvt ps u w s
  | .red ps u w => Sys2Proof.Machine.execRed ps u w s
  | .mov ps u w => Sys2Proof.Machine.execMov ps u w s
  | .rng ps u w => Sys2Proof.Machine.execRng ps u w s
  | .nz ps u w => Sys2Proof.Machine.execNz ps u w s
  | .pack ps u w => Sys2Proof.Machine.execPack ps u w s
  | .flush ps u w => Sys2Proof.Machine.execFlush ps u w s
  | .xin ps u w => Sys2Proof.Machine.execXin ps u w s
  | .xout ps u w => Sys2Proof.Machine.execXout ps u w s
  | .pcnt ps u w => Sys2Proof.Machine.execPcnt ps u w s
  | .exp2 ps u w => Sys2Proof.Machine.execExp2 ps u w s
  | .log2 ps u w => Sys2Proof.Machine.execLog2 ps u w s
  | .reciprocal ps u w => Sys2Proof.Machine.execReciprocal ps u w s
  | .reciprocalSquareRoot ps u w => Sys2Proof.Machine.execReciprocalSquareRoot ps u w s
  | .sin ps u w => Sys2Proof.Machine.execSin ps u w s
  | .cos ps u w => Sys2Proof.Machine.execCos ps u w s
  | .switch ps u w => Sys2Proof.Machine.execSwitch ps u w s
  | .steerMerge ps u w => Sys2Proof.Machine.execSteerMerge ps u w s
  | .gate ps u w => Sys2Proof.Machine.execGate ps u w s
  | .split ps u w => Sys2Proof.Machine.execSplit ps u w s
  | .count ps u w => Sys2Proof.Machine.execCount ps u w s
  | .phase ps u w => Sys2Proof.Machine.execPhase ps u w s
  | .rot ps u w => Sys2Proof.Machine.execRot ps u w s
  | .blk ps u w => Sys2Proof.Machine.execBlk ps u w s
  | .mrg ps u w => Sys2Proof.Machine.execMrg ps u w s
  | .mergeEngineComplete ps k => Sys2Proof.Machine.execMergeEngineComplete ps k s
  | .fin ps u w => Sys2Proof.Machine.execFin ps u w s
  | .seqSpill ps u w => Sys2Proof.Machine.execSeqSpill ps u w s
  | .topk ps u w => Sys2Proof.Machine.execTopk ps u w s
  | .post ps u w => Sys2Proof.Machine.execPost ps u w s
  | .grant ps u w => Sys2Proof.Machine.execGrant ps u w s
  | .scatter ps u w => Sys2Proof.Machine.execScatter ps u w s
  | .dspReturn ps u w => Sys2Proof.Machine.execDspReturn ps u w s
  | .treset ps u w => Sys2Proof.Machine.execTreset ps u w s
  | .postJob ps => Sys2Proof.Machine.execPostJob ps s
  | .grantJob ps f => Sys2Proof.Machine.execGrantJob ps f s
  | .scatterJob ps f => Sys2Proof.Machine.execScatterJob ps f s
  | .returnJob ps f => Sys2Proof.Machine.execReturnJob ps f s
  | .tresetJob ps => Sys2Proof.Machine.execTresetJob ps s
  | .dispatchArrival ps p f => Sys2Proof.Machine.execDispatchArrival ps p f s
  | .dspArrivalTimeout ps n => Sys2Proof.Machine.execDspArrivalTimeout ps n s
  | .bread ps u w f => Sys2Proof.Machine.execBread ps u w f s
  | .bwrite ps u w f => Sys2Proof.Machine.execBwrite ps u w f s
  | .rd ps u w => Sys2Proof.Machine.execRd ps u w s
  | .wr ps u w => Sys2Proof.Machine.execWr ps u w s
  | .atom ps u w => Sys2Proof.Machine.execAtom ps u w s
  | .recv ps u w => Sys2Proof.Machine.execRecv ps u w s
  | .send ps u w => Sys2Proof.Machine.execSend ps u w s
  | .watch ps u w => Sys2Proof.Machine.execWatch ps u w s
  | .bankExternalAccess ps r f => Sys2Proof.Machine.execBankExternalAccess ps r f s
  | .bankSteal ps r waited f => Sys2Proof.Machine.execBankSteal ps r waited f s
  | .spnSectCtlForce ps => Sys2Proof.Machine.execSpnSectCtlForce ps s
  | .forcedLoadResume ps f => Sys2Proof.Machine.execForcedLoadResume ps f s
  | .stopAtEnd ps v => Sys2Proof.Machine.execStopAtEnd ps v s
  | .drainRequest ps why => Sys2Proof.Machine.execDrainRequest ps why s
  | .drainPointReached ps => Sys2Proof.Machine.execDrainPointReached ps s
  | .runEmptyDrainDone ps f => Sys2Proof.Machine.execRunEmptyDrainDone ps s f
  | .drainLimitExpiry ps => Sys2Proof.Machine.execDrainLimitExpiry ps s
  | .scanDrainOpsDone ps f => Sys2Proof.Machine.execScanDrainOpsDone ps s f
  | .drainSaveWritten ps => Sys2Proof.Machine.execDrainSaveWritten ps s
  | .spindleRestore ps f => Sys2Proof.Machine.execSpindleRestore ps f s
  | .spindleRestoreProceed ps f => Sys2Proof.Machine.execSpindleRestoreProceed ps f s
  | .ctxLoadValidated f => Sys2Proof.Machine.execCtxLoadValidated f s
  | .quantumExpiry => Sys2Proof.Machine.execQuantumExpiry s
  | .contextSwitchDrained f => Sys2Proof.Machine.execContextSwitchDrained s f
  | .dramRequest r e f => Sys2Proof.Machine.execDramRequest r e f s
  | .repairCopyDone ch f => Sys2Proof.Machine.execRepairCopyDone ch f s
  | .repairCopyTimeout ch => Sys2Proof.Machine.execRepairCopyTimeout ch s
  | .scrubStep ch f => Sys2Proof.Machine.execScrubStep ch f s
  | .refresh ch => Sys2Proof.Machine.execRefresh ch s
  | .stackSensorRead stack raw => Sys2Proof.Machine.execStackSensorRead stack raw s
  | .selfRefreshExitTimeout ch => Sys2Proof.Machine.execSelfRefreshExitTimeout ch s
  | .memStripeWrite p t v => Sys2Proof.Machine.execMemStripeWrite p t v s
  | .memChFence ch => Sys2Proof.Machine.execMemChFence ch s
  | .sramScrub ps bank line f => Sys2Proof.Machine.execSramScrub ps bank line f s
  | .ringFlitArrival ring dir st f ce ue bad => Sys2Proof.Machine.execRingFlitArrival ring dir st f ce ue bad s
  | .injectionStarve ring dir st => Sys2Proof.Machine.execInjectionStarve ring dir st s
  | .ringOpTimeout ps op => Sys2Proof.Machine.execRingOpTimeout ps op s
  | .eventRecord n w => Sys2Proof.Machine.execEventRecord n w s
  | .channelMessage p => Sys2Proof.Machine.execChannelMessage p s
  | .channelAccept p => Sys2Proof.Machine.execChannelAccept p s
  | .channelClosed p => Sys2Proof.Machine.execChannelClosed p s
  | .channelCredit p => Sys2Proof.Machine.execChannelCredit p s
  | .closeNotice p => Sys2Proof.Machine.execCloseNotice p s
  | .endMark p => Sys2Proof.Machine.execEndMark p s
  | .stallThreshold ps => Sys2Proof.Machine.execStallThreshold ps s
  | .trainingStart h => Sys2Proof.Machine.execTrainingStart h s
  | .trainingComplete h lanes native partner errs => Sys2Proof.Machine.execTrainingComplete h lanes native partner errs s
  | .trainingTimeout h => Sys2Proof.Machine.execTrainingTimeout h s
  | .retryTimerExpiry h => Sys2Proof.Machine.execRetryTimerExpiry h s
  | .linkSignalLoss h => Sys2Proof.Machine.execLinkSignalLoss h s
  | .portCtlRetrain port => Sys2Proof.Machine.execPortCtlRetrain port s
  | .frameReceive h bytes ce ue inFrame e => Sys2Proof.Machine.execFrameReceive h bytes ce ue inFrame e s
  | .fabWrite half p f => Sys2Proof.Machine.execFabWrite half p f s
  | .fabReadRequest half p f => Sys2Proof.Machine.execFabReadRequest half p f s
  | .fabReadResponse half p => Sys2Proof.Machine.execFabReadResponse half p s
  | .fabAtomic half p f => Sys2Proof.Machine.execFabAtomic half p f s
  | .fabMulticastWrite half p f => Sys2Proof.Machine.execFabMulticastWrite half p f s
  | .fabAck half p => Sys2Proof.Machine.execFabAck half p s
  | .fabOpTimeout sep op => Sys2Proof.Machine.execFabOpTimeout sep op s
  | .fabRxTimeout => Sys2Proof.Machine.execFabRxTimeout s
  | .tombstoneExpiry => Sys2Proof.Machine.execTombstoneExpiry s
  | .hopTimeout => Sys2Proof.Machine.execHopTimeout s
  | .epochSwitchAtTime => Sys2Proof.Machine.execEpochSwitchAtTime s
  | .epochGuardExpiry => Sys2Proof.Machine.execEpochGuardExpiry s
  | .fabEpochWrite v => Sys2Proof.Machine.execFabEpochWrite v s
  | .collPoll f => Sys2Proof.Machine.execCollPoll f s
  | .reduceContribution half p f => Sys2Proof.Machine.execReduceContribution half p f s
  | .collReportArrival half p f => Sys2Proof.Machine.execCollReportArrival half p f s
  | .collAgreedSetArrival half p f => Sys2Proof.Machine.execCollAgreedSetArrival half p f s
  | .collResultArrival half p f => Sys2Proof.Machine.execCollResultArrival half p f s
  | .collDeadlineExpiry ecb f => Sys2Proof.Machine.execCollDeadlineExpiry ecb f s
  | .collAgreeTimeout ecb f => Sys2Proof.Machine.execCollAgreeTimeout ecb f s
  | .collResultTimeout ecb f => Sys2Proof.Machine.execCollResultTimeout ecb f s
  | .heartbeatInterval => Sys2Proof.Machine.execHeartbeatInterval s
  | .heartbeat half p => Sys2Proof.Machine.execHeartbeat half p s
  | .breachNotice half p => Sys2Proof.Machine.execBreachNotice half p s
  | .realignment => Sys2Proof.Machine.execRealignment s
  | .detAlignRealign => Sys2Proof.Machine.execDetAlignRealign s
  | .sealDigestDone n id f => Sys2Proof.Machine.execSealDigestDone n id f s
  | .recordSigned n => Sys2Proof.Machine.execRecordSigned n s
  | .deferredChangeApply => Sys2Proof.Machine.execDeferredChangeApply s
  | .testWaveDone outs => Sys2Proof.Machine.execTestWaveDone outs s
  | .testTimeout outs => Sys2Proof.Machine.execTestTimeout outs s
  | .mapRiseApply => Sys2Proof.Machine.execMapRiseApply s
  | .spareTransfer l => Sys2Proof.Machine.execSpareTransfer l s
  | .rollTestDue => Sys2Proof.Machine.execRollTestDue s
  | .rollTestDone o => Sys2Proof.Machine.execRollTestDone o s
  | .rollWaitTimeout => Sys2Proof.Machine.execRollWaitTimeout s
  | .ageingReading mons osc => Sys2Proof.Machine.execAgeingReading mons osc s
  | .pohSave => Sys2Proof.Machine.execPohSave s
  | .resetRequest m c => Sys2Proof.Machine.execResetRequest m c s
  | .resetAssert seq => Sys2Proof.Machine.execResetAssert seq s
  | .resetInit seq slow => Sys2Proof.Machine.execResetInit seq slow s
  | .resetComplete seq => Sys2Proof.Machine.execResetComplete seq s
  | .resetTimeout seq => Sys2Proof.Machine.execResetTimeout seq s
  | .sysResetNAssert => Sys2Proof.Machine.execSysResetNAssert s
  | .sysResetNRelease width => Sys2Proof.Machine.execSysResetNRelease width s
  | .progressWatchdogExpiry ps => Sys2Proof.Machine.execProgressWatchdogExpiry ps s
  | .stallHangThreshold ps => Sys2Proof.Machine.execStallHangThreshold ps s
  | .ckptHeaderAcked f => Sys2Proof.Machine.execCkptHeaderAcked f s
  | .ckptDrainComplete => Sys2Proof.Machine.execCkptDrainComplete s
  | .ckptCommitted => Sys2Proof.Machine.execCkptCommitted s
  | .ckptDrainTimeout => Sys2Proof.Machine.execCkptDrainTimeout s
  | .restoreHeaderRead => Sys2Proof.Machine.execRestoreHeaderRead s
  | .restoreDataDone f => Sys2Proof.Machine.execRestoreDataDone f s
  | .refclkLost kind => Sys2Proof.Machine.execRefclkLost kind s
  | .refclkRestored => Sys2Proof.Machine.execRefclkRestored s
  | .refBothLost => Sys2Proof.Machine.execRefBothLost s
  | .freqChangeRequest => Sys2Proof.Machine.execFreqChangeRequest s
  | .freqChangeBroadcast w => Sys2Proof.Machine.execFreqChangeBroadcast s w
  | .freqSwitch => Sys2Proof.Machine.execFreqSwitch s
  | .freqVoltageSettled => Sys2Proof.Machine.execFreqVoltageSettled s
  | .pllLockTimeout => Sys2Proof.Machine.execPllLockTimeout s
  | .droopDetect r => Sys2Proof.Machine.execDroopDetect r s
  | .stretchWindowEnd => Sys2Proof.Machine.execStretchWindowEnd s
  | .droopReturn => Sys2Proof.Machine.execDroopReturn s
  | .safeClockStepUp => Sys2Proof.Machine.execSafeClockStepUp s
  | .capWindowEnd => Sys2Proof.Machine.execCapWindowEnd s
  | .powerAvg1ms watts => Sys2Proof.Machine.execPowerAvg1ms watts s
  | .junctionSensorRead raw => Sys2Proof.Machine.execJunctionSensorRead raw s
  | .thermStepTimer => Sys2Proof.Machine.execThermStepTimer s
  | .domainRegulationFault d => Sys2Proof.Machine.execDomainRegulationFault d s
  | .pwrGateWrite v => Sys2Proof.Machine.execPwrGateWrite v s
  | .telemetryRefresh meas => Sys2Proof.Machine.execTelemetryRefresh meas s
  | .i3cRead a o n => Sys2Proof.Machine.execI3cRead a o n s
  | .flashSidebandCmd c aux => Sys2Proof.Machine.execFlashSidebandCmd c aux s
  | .lockstepMismatch => Sys2Proof.Machine.execLockstepMismatch s
  | .mgmtFrameReceive bytes buffer => Sys2Proof.Machine.execMgmtFrameReceive bytes buffer s
  | .virtioNetTransmit bytes stamp => Sys2Proof.Machine.execVirtioNetTransmit bytes stamp s
  | .corePoisonFault hart fetch addr => Sys2Proof.Machine.execCorePoisonFault hart fetch addr s
  | .ppsEdge low high => Sys2Proof.Machine.execPpsEdge low high s
  | .mgmtPtpSetWrite sec ns => Sys2Proof.Machine.execMgmtPtpSetWrite sec ns s
  | .ppsEvClear => Sys2Proof.Machine.execPpsEvClear s
  | .mgmtCoreRunWrite v => Sys2Proof.Machine.execMgmtCoreRunWrite v s
  | .spnNumFlagsWrite ps expert v => Sys2Proof.Machine.execSpnNumFlagsWrite ps expert v s
  | .debugUnlock id => Sys2Proof.Machine.execDebugUnlock id s
  | .debugRelock id => Sys2Proof.Machine.execDebugRelock id s
  | .sessionConfirmTimeout => Sys2Proof.Machine.execSessionConfirmTimeout s
  | .sessionIdleTimeout => Sys2Proof.Machine.execSessionIdleTimeout s
  | .sessionLifetimeExpiry => Sys2Proof.Machine.execSessionLifetimeExpiry s
  | .qnonceExpiry => Sys2Proof.Machine.execQnonceExpiry s
  | .leaseExpiry => Sys2Proof.Machine.execLeaseExpiry s
  | .cmdLcpInWrite w => Sys2Proof.Machine.execCmdLcpInWrite w s
  | .cmdLcpOutRead who => Sys2Proof.Machine.execCmdLcpOutRead who s
  | .resync => Sys2Proof.Machine.execResync s
  | .lcpAssemblyTimeout => Sys2Proof.Machine.execLcpAssemblyTimeout s
  | .cmdQueueTimeout => Sys2Proof.Machine.execCmdQueueTimeout s
  | .aFirstLimit => Sys2Proof.Machine.execAFirstLimit s
  | .identGet r => Sys2Proof.Machine.execIdentGet r s
  | .stateGet r => Sys2Proof.Machine.execStateGet r s
  | .inventoryGet r => Sys2Proof.Machine.execInventoryGet r s
  | .certGet r => Sys2Proof.Machine.execCertGet r s
  | .mgmtAddrSet r => Sys2Proof.Machine.execMgmtAddrSet r s
  | .sessionOpen r => Sys2Proof.Machine.execSessionOpen r s
  | .sessionConfirm r => Sys2Proof.Machine.execSessionConfirm r s
  | .sessionClose r => Sys2Proof.Machine.execSessionClose r s
  | .leaseAcquire r => Sys2Proof.Machine.execLeaseAcquire r s
  | .leaseRenew r => Sys2Proof.Machine.execLeaseRenew r s
  | .leaseRelease r => Sys2Proof.Machine.execLeaseRelease r s
  | .leaseTakeover r => Sys2Proof.Machine.execLeaseTakeover r s
  | .leaseGet r => Sys2Proof.Machine.execLeaseGet r s
  | .qnonceGet r => Sys2Proof.Machine.execQnonceGet r s
  | .keytabGet r => Sys2Proof.Machine.execKeytabGet r s
  | .keytabInit r => Sys2Proof.Machine.execKeytabInit r s
  | .keytabSet r => Sys2Proof.Machine.execKeytabSet r s
  | .keytabRestore r => Sys2Proof.Machine.execKeytabRestore r s
  | .clkPlanSet r => Sys2Proof.Machine.execClkPlanSet r s
  | .pwrCapSet r => Sys2Proof.Machine.execPwrCapSet r s
  | .domainGate r => Sys2Proof.Machine.execDomainGate r s
  | .clkpwrGet r => Sys2Proof.Machine.execClkpwrGet r s
  | .ctxLoad r => Sys2Proof.Machine.execCtxLoad r s
  | .ctxUnload r => Sys2Proof.Machine.execCtxUnload r s
  | .ctxSwitch r => Sys2Proof.Machine.execCtxSwitch r s
  | .ctxStatus r => Sys2Proof.Machine.execCtxStatus r s
  | .quantumSet r => Sys2Proof.Machine.execQuantumSet r s
  | .stripeSet r => Sys2Proof.Machine.execStripeSet r s
  | .spnGet r => Sys2Proof.Machine.execSpnGet r s
  | .chnGet r => Sys2Proof.Machine.execChnGet r s
  | .fence r => Sys2Proof.Machine.execFence r s
  | .returnUnit r => Sys2Proof.Machine.execReturnUnit r s
  | .returnTestDone o => Sys2Proof.Machine.execReturnTestDone o s
  | .rowRepair r => Sys2Proof.Machine.execRowRepair r s
  | .fuseBurn r bad => Sys2Proof.Machine.execFuseBurn r bad s
  | .spolSet r => Sys2Proof.Machine.execSpolSet r s
  | .marginClear r => Sys2Proof.Machine.execMarginClear r s
  | .chanCfg r => Sys2Proof.Machine.execChanCfg r s
  | .repairGet r => Sys2Proof.Machine.execRepairGet r s
  | .testPolicySet r => Sys2Proof.Machine.execTestPolicySet r s
  | .rollCfg r => Sys2Proof.Machine.execRollCfg r s
  | .testGet r => Sys2Proof.Machine.execTestGet r s
  | .reset r => Sys2Proof.Machine.execReset r s
  | .suspectGet r => Sys2Proof.Machine.execSuspectGet r s
  | .suspectClear r => Sys2Proof.Machine.execSuspectClear r s
  | .quarStart r => Sys2Proof.Machine.execQuarStart r s
  | .quarEnd r => Sys2Proof.Machine.execQuarEnd r s
  | .hangCfg r => Sys2Proof.Machine.execHangCfg r s
  | .coordSet r => Sys2Proof.Machine.execCoordSet r s
  | .fabAddrSet r => Sys2Proof.Machine.execFabAddrSet r s
  | .rtWrite r => Sys2Proof.Machine.execRtWrite r s
  | .mcWrite r => Sys2Proof.Machine.execMcWrite r s
  | .epochSwitch r => Sys2Proof.Machine.execEpochSwitch r s
  | .portCfg r => Sys2Proof.Machine.execPortCfg r s
  | .portAct r => Sys2Proof.Machine.execPortAct r s
  | .portGwSet r => Sys2Proof.Machine.execPortGwSet r s
  | .topoGet r => Sys2Proof.Machine.execTopoGet r s
  | .dikeSet r => Sys2Proof.Machine.execDikeSet r s
  | .watchSet r => Sys2Proof.Machine.execWatchSet r s
  | .peerClear r => Sys2Proof.Machine.execPeerClear r s
  | .shadowSet r => Sys2Proof.Machine.execShadowSet r s
  | .shadowPromote r => Sys2Proof.Machine.execShadowPromote r s
  | .collCfg r => Sys2Proof.Machine.execCollCfg r s
  | .withdraw r => Sys2Proof.Machine.execWithdraw r s
  | .returnService r => Sys2Proof.Machine.execReturnService r s
  | .ckptSetup r f => Sys2Proof.Machine.execCkptSetup r f s
  | .ckptNow r => Sys2Proof.Machine.execCkptNow r s
  | .restore r => Sys2Proof.Machine.execRestore r s
  | .reelCfg r => Sys2Proof.Machine.execReelCfg r s
  | .reelGet r => Sys2Proof.Machine.execReelGet r s
  | .quote r => Sys2Proof.Machine.execQuote r s
  | .measExtend r => Sys2Proof.Machine.execMeasExtend r s
  | .sealRegion r => Sys2Proof.Machine.execSealRegion r s
  | .recordCut r => Sys2Proof.Machine.execRecordCut r s
  | .recordRead r => Sys2Proof.Machine.execRecordRead r s
  | .recordRelease r => Sys2Proof.Machine.execRecordRelease r s
  | .detGet r => Sys2Proof.Machine.execDetGet r s
  | .calRead r => Sys2Proof.Machine.execCalRead r s
  | .calWrite r => Sys2Proof.Machine.execCalWrite r s
  | .calWriteDone => Sys2Proof.Machine.execCalWriteDone s
  | .logRead r => Sys2Proof.Machine.execLogRead r s
  | .telemGet r => Sys2Proof.Machine.execTelemGet r s
  | .regReadBasic r => Sys2Proof.Machine.execRegReadBasic r s
  | .cmdStatus r => Sys2Proof.Machine.execCmdStatus r s
  | .regRead r => Sys2Proof.Machine.execRegRead r s
  | .regWrite r => Sys2Proof.Machine.execRegWrite r s
  | .regModify r => Sys2Proof.Machine.execRegModify r s
  | .startupProc good => Sys2Proof.Machine.execStartupProc good s
  | .startupStraps samples => Sys2Proof.Machine.execStartupStraps samples s
  | .strapResample samples => Sys2Proof.Machine.execStrapResample samples s
  | .startupFuses bad => Sys2Proof.Machine.execStartupFuses bad s
  | .startupClocks bad refclk => Sys2Proof.Machine.execStartupClocks bad refclk s
  | .startupCal => Sys2Proof.Machine.execStartupCal s
  | .startupDram failed => Sys2Proof.Machine.execStartupDram failed s
  | .startupTest => Sys2Proof.Machine.execStartupTest s
  | .startupAccept => Sys2Proof.Machine.execStartupAccept s
  | .startupCoord => Sys2Proof.Machine.execStartupCoord s
  | .coordWaitExpiry => Sys2Proof.Machine.execCoordWaitExpiry s
  | .startupLinks => Sys2Proof.Machine.execStartupLinks s
  | .startupImage => Sys2Proof.Machine.execStartupImage s
  | .tftpBlock n data => Sys2Proof.Machine.execTftpBlock n data s
  | .tftpRetransmit => Sys2Proof.Machine.execTftpRetransmit s
  | .startupLaunch => Sys2Proof.Machine.execStartupLaunch s
  | .startupPhaseLimit => Sys2Proof.Machine.execStartupPhaseLimit s
  | .seamCrossingLoss k => Sys2Proof.Machine.execSeamCrossingLoss k s
  | .holdoverLost => Sys2Proof.Machine.execHoldoverLost s
  | .mgmtLinkUp => Sys2Proof.Machine.execMgmtLinkUp s
  | .mgmtLinkLoss => Sys2Proof.Machine.execMgmtLinkLoss s
  | .mgmtSpeedAlternate => Sys2Proof.Machine.execMgmtSpeedAlternate s
  | .consoleReceive bytes => Sys2Proof.Machine.execConsoleReceive bytes s
  | .consoleTransmit bytes => Sys2Proof.Machine.execConsoleTransmit bytes s
  | .rcRead who a n => Sys2Proof.Machine.execRcRead who a s n
  | .sknStatusRead who => Sys2Proof.Machine.execSknStatusRead who s
  | .cmdDevStateRead who => Sys2Proof.Machine.execCmdDevStateRead who s
  | .coreAccessFault hart fetch write addr => Sys2Proof.Machine.execCoreAccessFault hart fetch write addr s
  | .i3cDynamicAddress a => Sys2Proof.Machine.execI3cDynamicAddress a s
  | .dhcpReply own server file => Sys2Proof.Machine.execDhcpReply own server file s

end Sys2Proof.Machine
end

