-- ==== Sys2Proof/Machine/Tick.lean ====
section
/-! DEFINITION. One period of the reference with no command waiting (spec/01_architecture.md R11;
spec/09_fabric.md R298; spec/13_hangs_resets_recovery.md R415; spec/15_clocks_power.md R454;
spec/16_management_security.md R489; log 1). -/

namespace Sys2Proof.Machine

/-- The PTP clock advances by MGMT_PTP_INCR units of 2⁻²⁸ ns (R489). -/
def State.ptpTick (s : State) : State :=
  let f := s.mgmt.ptpFrac + s.rd Reg.MGMT_PTP_INCR
  let ns := s.rd Reg.MGMT_PTP_NOW_NS + f / 2 ^ 28
  let s : State := { s with mgmt := { s.mgmt with ptpFrac := f % 2 ^ 28 } }
  if ns < 1000000000 then s.wr Reg.MGMT_PTP_NOW_NS ns
  else
    let sec := s.rd Reg.MGMT_PTP_NOW_SLO + 2 ^ 32 * s.rf Reg.MGMT_PTP_NOW_SHI 15 0 + 1
    ((s.wr Reg.MGMT_PTP_NOW_NS (ns - 1000000000)).wr Reg.MGMT_PTP_NOW_SLO sec).wf Reg.MGMT_PTP_NOW_SHI 15 0 (sec / 2 ^ 32)

/-- Whole A-periods in `f` hundredths of a nominal period, from A-tick `c` on, and the hundredths left: a period of `l`
lasts 1.5 nominal periods (R12, R463).  Twelve periods are more than a reference period holds. -/
def aPeriods (l : List Nat) : Nat → Nat → Nat → Nat × Nat
  | 0, _, f => (0, f)
  | n + 1, c, f =>
    let w := if l.contains c then 150 else 100
    if f < w then (0, f)
    else
      let r := aPeriods l n (c + 1) (f - w)
      (r.1 + 1, r.2)

/-- The A-tick counter advances by the A-clock's periods in one reference period (R12, R454, R463). -/
def State.aTick (s : State) : State :=
  let c := s.rd64 Reg.CLK_ATICK_LO
  let r := aPeriods s.clk.stretched 12 c (s.clk.frac + s.aMhz)
  let clk := { s.clk with frac := r.2, stretched := s.clk.stretched.filter (fun p => decide (c + r.1 ≤ p)) }
  ({ s with clk := clk } : State).add64 Reg.CLK_ATICK_LO r.1

/-- What one reference tick brings with chip-level reset released: counters advance, each half-port sends one frame,
channel thresholds are reported, watchdogs look. -/
def State.refTick (s : State) : State :=
  let s : State := { s with now := s.now + 1 }
  let s := (List.range 32).foldl (fun s h => s.transmit h) s.ptpTick.aTick
  s.chanReports.dogTick.dikeDone

/-- One period of the reference.  In BRINGUP start-up's first phase begins (R549). -/
def State.tick (s : State) : State :=
  let s : State := { s with wall := s.wall + 1 }
  let s := if s.booting 0 then s.wf Reg.CMD_DEV_STATE 27 24 1 else s
  if s.off || s.rst.chipHeld then s else s.refTick

end Sys2Proof.Machine
end

