-- ==== Sys2Proof/Safety.lean ====
section
/-! DEFINITION. What a well-kept state of the block is: memory and the other sparse tables in canonical form, and every
bounded store within the bound the manual gives it (spec/07_memory.md R220; spec/08_on_die_interconnect.md R269;
spec/17_cuard_commands.md R516, R524, R544). -/

namespace Sys2Proof.Machine

/-- Memory in its canonical form: addresses rise strictly and no entry holds what an unlisted address reads as. -/
def Memory.wf (m : List Host.Cell) : Bool := twf 0 m

/-- The bounds of the command processor's queues: 64 commands waiting (R524) and 4 replies on the local port (R516). -/
def Cq.Bounded (c : Cq) : Prop := c.queue.length ≤ 64 ∧ c.replies.length ≤ 4

/-- What every step keeps. -/
structure State.Inv (s : State) : Prop where
  /-- DRAM and SRAM bytes (R220, R246). -/
  mem : Memory.wf s.mem = true
  /-- Poison markers of stored words (R230). -/
  poison : twf false s.poison = true
  /-- Registers, as differences from their reset values. -/
  regs : twf 0 s.regs = true
  /-- Module flash, as differences from the erased byte (R583). -/
  flash : twf 0 s.flash = true
  /-- The event log holds 4,096 records at most (R544). -/
  log : s.log.length ≤ 4096
  /-- A control-network node buffers 8 records at most (R269). -/
  nodes : twf {} s.nodes = true ∧ ∀ p ∈ s.nodes, p.2.recs.length ≤ 8
  /-- Physical spindles, as differences from one in reset (R73). -/
  spns : twf {} s.spns = true
  /-- Memory channels (R220). -/
  chans : twf {} s.chans = true
  /-- Latched high words (R32). -/
  latch : twf none s.latch = true
  /-- Commands and replies waiting (R516, R524). -/
  cq : s.cq.Bounded

/-! ### Frames. -/

/-- The areas of the state, one for each field. -/
inductive Area where
  | pending | now | regs | latch | freeN | drbgN | out | off | log | nodes | mem | poison
  | spns | seqr | chans | prot | domsOff | irq | fab | coll | clk | pwr | hlth | rst
  | fuse | reel | flash | wall | logN | cq | mgmt | boot | ring | modl
  deriving DecidableEq, Repr

/-- Area `p` is the same in both states. -/
def Area.same (p : Area) (s t : State) : Prop :=
  match p with
  | .pending => t.pending = s.pending
  | .now => t.now = s.now
  | .regs => t.regs = s.regs
  | .latch => t.latch = s.latch
  | .freeN => t.freeN = s.freeN
  | .drbgN => t.drbgN = s.drbgN
  | .out => t.out = s.out
  | .off => t.off = s.off
  | .log => t.log = s.log
  | .nodes => t.nodes = s.nodes
  | .mem => t.mem = s.mem
  | .poison => t.poison = s.poison
  | .spns => t.spns = s.spns
  | .seqr => t.seqr = s.seqr
  | .chans => t.chans = s.chans
  | .prot => t.prot = s.prot
  | .domsOff => t.domsOff = s.domsOff
  | .irq => t.irq = s.irq
  | .fab => t.fab = s.fab
  | .coll => t.coll = s.coll
  | .clk => t.clk = s.clk
  | .pwr => t.pwr = s.pwr
  | .hlth => t.hlth = s.hlth
  | .rst => t.rst = s.rst
  | .fuse => t.fuse = s.fuse
  | .reel => t.reel = s.reel
  | .flash => t.flash = s.flash
  | .wall => t.wall = s.wall
  | .logN => t.logN = s.logN
  | .cq => t.cq = s.cq
  | .mgmt => t.mgmt = s.mgmt
  | .boot => t.boot = s.boot
  | .ring => t.ring = s.ring
  | .modl => t.modl = s.modl

/-- `t` differs from `s` in the parts listed, if anywhere. -/
def State.Alters (s t : State) (l : List Area) : Prop := ∀ p, p ∉ l → p.same s t

/-- Every register at an offset outside `as` holds in `t` what it held in `s`. -/
def State.RegsBut (s t : State) (as : List Nat) : Prop := ∀ a, a ∉ as → t.reg a = s.reg a

/-- Every byte of DRAM and SRAM whose key lies outside `[k, k + n)` is in `t` what it was in `s`. -/
def State.BytesBut (s t : State) (k n : Nat) : Prop := ∀ j, j < k ∨ k + n ≤ j → t.byteAt j = s.byteAt j

/-- The command runs from a well-kept state: it answers a next state that differs from `s` only in the areas listed, and of
which `P` holds. -/
def Runs (c : Instr) (s : State) (l : List Area) (P : State → Prop) : Prop := s.Inv → ∃ t, exec c s = .next t ∧ s.Alters t l ∧ P t

/-! ### Events. -/

/-- The record of an event (R43). -/
def State.eventRec (s : State) (code unit sev : Nat) (data : List (Nat × Nat × Nat)) : EventRec :=
  { tick := s.now, code := BitVec.ofNat 16 code, unit := BitVec.ofNat 16 unit, ctx := BitVec.ofNat 16 s.runCtx
    sev := BitVec.ofNat 4 sev, lost := false, data := evData data }

/-- Where the unit that records `code` keeps its records there is room for one more (R269, R544). -/
def State.EventRoom (s : State) (code unit : Nat) : Prop :=
  match nodeOf code unit with
  | none => s.log.length < 4096
  | some n => (tget {} s.nodes n).recs.length < 8

/-- The log, or a node's buffer, holds a record. -/
def State.Recorded (s : State) (e : EventRec) : Prop := e ∈ s.log ∨ ∃ n, e ∈ (tget {} s.nodes n).recs

/-! ### Slots. -/

/-- The token a slot word names on a port, of those the matching stores hold (R82). -/
def State.slotTok? (s : State) (ps u : Nat) (w : DWord) (p : Nat) : Option Flit :=
  match (slotTokens (s.spn ps) (s.spn ps).store u w).find? (fun n => n.1 == p) with
  | some n => findTok (s.spn ps).store u p n.2
  | none => none

/-- The same, a blank flit where there is none. -/
def State.slotTok (s : State) (ps u : Nat) (w : DWord) (p : Nat) : Flit := (s.slotTok? ps u w p).getD {}

/-- The token that enables the lanes of a vector or TOPK slot, where the slot names one (R83, R588). -/
def State.slotPred (s : State) (ps u : Nat) (w : DWord) : Option Flit :=
  match ctlPort (s.spn ps) u w with
  | some (p, _, _) => s.slotTok? ps u w p
  | none => none

/-- A slot of the running strand fires: no cause of R90 holds it, and the token that decides, where it has one, can
(R82, R85, R90). -/
structure Fires (s : State) (ps u : Nat) (w : DWord) : Prop where
  inv : s.Inv
  runs : s.strandRuns ps = true
  free : cycleHolds (s.spn ps) (s.gen ps) (s.spn ps).store [(u, w)] = 0
  decides : ∀ p t ty, ctlPort (s.spn ps) u w = some (p, t, ty) → ctlBad (s.slotTok ps u w p) ty = none

/-- The spindle once a slot has taken its tokens (R82). -/
def State.taken (s : State) (ps u : Nat) (w : DWord) : Spn :=
  { s.spn ps with store := dropToks (s.spn ps).store u (slotTokens (s.spn ps) (s.spn ps).store u w) }

/-- Registers a fire of a unit of spindle `ps` may change: numeric flags, the poison, sparsity and empty-row counters, and
the occupancy peaks (R71, R113, R173, R210). -/
def fireRegs (ps : Nat) : List Nat :=
  [Reg.SPN_NUM_FLAGS ps, Reg.SPN_NUM_POISON_CNT ps, Reg.SPN_OPS ps, 0x2000000 + 0x100000 * ps + 0x0600,
   0x2000000 + 0x100000 * ps + 0x0604, 0x2000000 + 0x100000 * ps + 0x0708] ++ (List.range 4).map (Reg.SPN_SLUICE_ST ps)

/-- A fire of a unit that is no memory unit leaves every other spindle, every other register and the rest of the state
alone. -/
structure FireFrame (s t : State) (ps : Nat) : Prop where
  parts : s.Alters t [.regs, .spns]
  spns : ∀ q, q ≠ ps → t.spn q = s.spn q
  regs : s.RegsBut t (fireRegs ps)
  /-- A numeric flag once set stays set (R71). -/
  sticky : ∀ b, s.rbit (Reg.SPN_NUM_FLAGS ps) b = true → t.rbit (Reg.SPN_NUM_FLAGS ps) b = true

/-- What a fire leaves of the spindle: `x` with one entry in the pipeline for each output flit `(port, latency, flit)`, which
leaves that many cycles on (R73). -/
def Gives (t : State) (ps u : Nat) (x : Spn) (outs : List (Nat × Nat × Flit)) : Prop :=
  t.spn ps = { x with pipe := x.pipe ++ outs.map (fun o => { unit := u, port := o.1, left := o.2.1, out := some o.2.2 }) }

/-- The same of a fire that only updates the unit's own state, done `lat` cycles on (R73). -/
def Updates (t : State) (ps u : Nat) (x : Spn) (lat : Nat) : Prop :=
  t.spn ps = { x with pipe := x.pipe ++ [{ unit := u, port := 0, left := lat, out := none }] }

/-- A slot operation completes: in every state in which a slot of unit kind `k` and code `op` fires and `H` holds, the command
`mk` answers a next state that differs only in that spindle and the registers a fire may change, and `P` holds of it. -/
def Completes (mk : Fin 18 → Fin 55 → DWord → Instr) (k : UnitKind) (op : Nat) (H : State → Nat → Nat → DWord → Prop)
    (P : State → Nat → Nat → DWord → State → Prop) : Prop :=
  ∀ (s : State) (ps : Fin 18) (u : Fin 55) (w : DWord), Fires s ps u w → slotIs k op u w = true → slotOk u w = true →
    H s ps u w → ∃ t, exec (mk ps u w) s = .next t ∧ FireFrame s t ps ∧ P s ps u w t

/-- Lane `i` of a result flit of `b`-bit lanes is the lane result `r`: its code, zero where it carries poison (R69). -/
def laneIs (f : Flit) (b i : Nat) (r : LaneRes) : Prop := lane b f.data.toNat i = if r.poison then 0 else r.code % 2 ^ b

/-- A vector result: one flit after `lat` cycles under the slot's output tag, of the present generation, whose 64 lanes are `g` where the
predicate enables them and zero where it does not (R63, R69, R588). -/
def VecGives (s : State) (ps u : Nat) (w : DWord) (t : State) (lat : Nat) (g : Nat → LaneRes) : Prop :=
  ∃ f, Gives t ps u (s.taken ps u w) [(vOport w, lat, f)] ∧ f.tag = tagOf (s.spn ps) (vOtag w) ∧ f.gen = s.gen ps ∧ f.ctl = false ∧
    ∀ i, i < 64 → laneIs f (laneW (vDfmt w)) i (if enabled (s.slotPred ps u w) i then g i else {})

/-- A lane of two-operand arithmetic: the exact result rounded once to the destination, poison where an operand carries it
(R63, R64, R69). -/
def arithLane (op : FVal → FVal → FVal × Bool) (w : DWord) (a b : Flit) (i : Nat) : LaneRes :=
  match vLane a (vSfmt w) i, vLane b (vSfmt w) i with
  | some x, some y => { code := (finish (arithFmt (vDfmt w)) false (op x y)).1, flags := (finish (arithFmt (vDfmt w)) false (op x y)).2 }
  | _, _ => { poison := true }

/-! ### Cuard commands. -/

/-- A command starts and its meaning runs in state `u`, its reply going to `t`: the processor runs, the packet `r` is a request
of the command and heads the queue, in time, nothing that must end first still runs, and checks 1 to 10 pass (R519, R524,
R527, R530). -/
structure Executes (d : CmdDef) (s : State) (r : Req) (t : RepTo) (u : State) : Prop where
  is : reqIs d.code r = true
  up : s.cuardUp = true
  front : s.cq.queue.head? = some r
  free : s.blocked = false
  inTime : (s.now - r.arrival).toNat ≤ s.rd Reg.CMD_QTMO
  form : headStatus r.bytes = 0
  gate : ({ s with cq := { s.cq with queue := s.cq.queue.tail } } : State).gate d r = (0, t, u)
  lease : d.acc = .s ∨ d.acc = .e → u.leaseStatus (d.res (pkParams r.bytes)) (pkLease r.bytes) t.key = 0
  own : d.lease u t = 0
  check : d.check u (pkParams r.bytes) = 0
  fresh : u.meets d r t = none
  idle : u.resBusy (d.res (pkParams r.bytes)) = false

/-- The command has left state `x` and is answered OK with parameters `p`; the change is remembered (R520, R530). -/
def State.accepted (x : State) (d : CmdDef) (r : Req) (t : RepTo) (p : List Byte) : State :=
  (x.remember d r t p).answer t false stOK (pkLease r.bytes) p

/-- The command has left state `x` and is answered with a status that refuses it (R520). -/
def State.refusedWith (x : State) (r : Req) (t : RepTo) (status : Nat) : State := x.answer t false status (pkLease r.bytes) []

/-- The command has left state `x` and is answered ACCEPTED; it goes on, waiting for `w` (R524). -/
def State.goesOn (x : State) (d : CmdDef) (r : Req) (t : RepTo) (w : WaitFor) (limit : Option Nat) : State :=
  let y := x.remember d r t []
  let e : Wait := { what := w, rep := t, first := true, res := d.res (pkParams r.bytes), start := y.now, limit := limit }
  ({ y with cq := { y.cq with waits := y.cq.waits ++ [e] } } : State).answer t false stACCEPTED (pkLease r.bytes) []

/-- The command has left state `x` and holds its one reply back until `w` (R524). -/
def State.heldFor (x : State) (d : CmdDef) (r : Req) (t : RepTo) (w : WaitFor) : State :=
  let y := x.remember d r t []
  let e : Wait := { what := w, rep := t, first := false, res := d.res (pkParams r.bytes), start := y.now, limit := none }
  { y with cq := { y.cq with waits := y.cq.waits ++ [e] } }

end Sys2Proof.Machine
end

