-- ==== Sys2Proof/Certificates/Slice0/Obligations.lean ====
section
/-! DEFINITION. What the model is claimed to do: one statement for each behaviour the manual gives it, or the model takes.
Every statement of a command says that it completes, what its next state holds, and what it leaves alone. -/

open Sys2Proof Sys2Proof.Machine

/-! ### Steps, reset, invariants. -/

/-- The queue is the model's own: a step takes the command at its front (log 1). -/
def Obligations.StepRunsFrontCommand : Prop :=
  ∀ (c : Instr) (rest : List Instr) (s : State), s.pending = c :: rest → step s = exec c { s with pending := rest }

/-- On an empty queue one period of the reference passes (R11; the model's choice, log 1). -/
def Obligations.StepIdleIsOneTick : Prop :=
  ∀ s : State, s.pending = [] →
    ∃ t, step s = .next t ∧ t.wall = s.wall + 1 ∧
      t.now = (if s.off = true ∨ s.rst.chipHeld = true then s.now else s.now + 1) ∧
      t.mem = s.mem ∧ t.poison = s.poison ∧ t.fuse = s.fuse ∧ t.pending = []

/-- The invariant holds at reset. -/
def Obligations.ResetIsWellKept : Prop := State.reset.Inv

/-- Every command and every tick keeps the canonical forms and the bounds the manual gives: 4,096 log records (R544), 8 of a
node (R269), 64 commands waiting (R524), 4 replies (R516). -/
def Obligations.StepKeepsInvariant : Prop :=
  ∀ s t : State, s.Inv → step s = .next t → t.Inv

/-- A command's effect is on everything but the queue (log 1). -/
def Obligations.CommandsLeaveQueue : Prop :=
  ∀ (c : Instr) (s t : State), exec c s = .next t → t.pending = s.pending

/-- The state right after chip-level reset (R35, R113, R476); unwritten memory reads zero (log 137). -/
def Obligations.ResetLeaves : Prop :=
  State.reset.devState = 1 ∧ (∀ ps, ps < 18 → State.reset.spnState ps = 7 ∧ State.reset.gen ps = 0) ∧
    (∀ d, d < 24 → (State.reset.domOn d = true ↔ d = 0)) ∧ (∀ a, State.reset.reg a = regReset a) ∧
    (∀ k, State.reset.byteAt k = 0 ∧ State.reset.poisonAt k = false) ∧ State.reset.log = [] ∧ State.reset.irq = 0 ∧
    State.reset.runCtx = 0 ∧ State.reset.pending = []

/-- One event (R43, R269, R544). -/
def Obligations.EventIsRecorded : Prop :=
  ∀ (s : State) (code unit sev : Nat) (data : List (Nat × Nat × Nat)), s.EventRoom code unit →
    (s.event code unit sev data).Recorded (s.eventRec code unit sev data) ∧
      s.Alters (s.event code unit sev data) [.regs, .nodes, .log, .logN, .irq] ∧
      s.RegsBut (s.event code unit sev data) [Reg.CNET_EVT_LOST]

/-- Any one of the 81 bits of a stored word flipped is corrected (R230, R231). -/
def Obligations.EccCorrectsOneBit : Prop :=
  ∀ (data i : Nat) (p : Bool), i < 81 →
    (eccDecode data p (1 <<< i)).1 = .corrected ∧ (eccDecode data p (1 <<< i)).2.2 = (data, p)

/-! ### Units of a spindle. -/

/-- MAC, LOADW, CLEAR, READ, SPILL, LOAD and MERGE of a matrix tile (R50, R55, R57, R161, R591). -/
def Obligations.TileOperationsComplete : Prop :=
  Completes .mac .tile 1
    (fun s ps u w => ∃ bf, (tget {} (s.spn ps).tiles u).fmt = some bf ∧ family bf = family (tileFmt w) ∧
      (tget {} (s.spn ps).tiles u).spm = tileSpm w ∧ ¬ (tileFmt w = 8 ∧ bf = 8) ∧
      (macGroup (s.spn ps).acc u (tget {} (s.spn ps).tiles u) (s.slotTok ps u w 0) (tileFmt w) (tileSpm w) (tileH w) (tileAgrp w)).2.1 = false)
    (fun s ps u w t => Updates t ps u { s.taken ps u w with
      acc := (macGroup (s.spn ps).acc u (tget {} (s.spn ps).tiles u) (s.slotTok ps u w 0) (tileFmt w) (tileSpm w) (tileH w) (tileAgrp w)).1 } 6) ∧
  Completes .loadw .tile 2 (fun _ _ _ w => tileSpm w = 0)
    (fun s ps u w t =>
      let old := tget {} (s.spn ps).tiles u
      let rows := if old.fmt = some (tileFmt w) ∧ old.spm = 0 then old.rows else []
      let f := s.slotTok ps u w 1
      Gives t ps u { s.taken ps u w with
        tiles := tset {} (s.spn ps).tiles u { fmt := some (tileFmt w), spm := 0, rows := tset {} rows (tileRow w) ⟨f.data, f.pword, true⟩ } } []) ∧
  Completes .clear .tile 3 (fun _ _ _ _ => True)
    (fun s ps u w t => Updates t ps u { s.taken ps u w with
      acc := (List.range 128).foldl (fun a n => tset {} a (4096 * u + 128 * tileAgrp w + n) (accClear (BitVec.ofNat 9 (slot w 31 23))))
        (s.spn ps).acc } 6) ∧
  Completes .read .tile 4 (fun _ _ _ w => tileFmt w ≠ 0)
    (fun s ps u w t => ∃ f, Gives t ps u { s.taken ps u w with acc := readClears (s.spn ps).acc (4096 * u + 128 * tileAgrp w) } [(0, 10, f)] ∧
      f.tag = tagOf (s.spn ps) (slot w 41 33) ∧ f.gen = s.gen ps ∧
      ∀ n, n < 128 → lane (fmtBits (tileFmt w)) f.data.toNat n =
        (let r := accRead (readFmt w) (s.uctx ps).sat (tget {} (s.spn ps).acc (4096 * u + 128 * tileAgrp w + n))
         if r.2.2 then 0 else r.1 % 2 ^ fmtBits (tileFmt w))) ∧
  Completes .read .tile 4 (fun _ _ _ w => tileFmt w = 0)
    (fun s ps u w t => ∃ f g, Gives t ps u { s.taken ps u w with acc := readClears (s.spn ps).acc (4096 * u + 128 * tileAgrp w) }
        [(0, 10, f), (0, 11, g)] ∧
      f.tag = tagOf (s.spn ps) (slot w 41 33) ∧ g.tag = tagOf (s.spn ps) (slot w 41 33) + 1 ∧
      ∀ n, n < 64 →
        lane 32 f.data.toNat n = (let r := accRead fFP32 (s.uctx ps).sat (tget {} (s.spn ps).acc (4096 * u + 128 * tileAgrp w + n))
          if r.2.2 then 0 else r.1 % 2 ^ 32) ∧
        lane 32 g.data.toNat n = (let r := accRead fFP32 (s.uctx ps).sat (tget {} (s.spn ps).acc (4096 * u + 128 * tileAgrp w + (64 + n)))
          if r.2.2 then 0 else r.1 % 2 ^ 32)) ∧
  Completes .spill .tile 5 (fun _ _ _ _ => True)
    (fun s ps u w t => Gives t ps u (s.taken ps u w)
      [(0, 10, mkFlit (accRecord (tget {} (s.spn ps).acc (tileAccKey u w))) 0 (tagOf (s.spn ps) (slot w 41 33)) (s.gen ps) 3)]) ∧
  (∀ a, Completes .load .tile 6
    (fun s ps u w => accLoad (tget {} (s.spn ps).acc (tileAccKey u w)) (flitRecord (s.slotTok ps u w 2)).1 (flitRecord (s.slotTok ps u w 2)).2 = .ok a)
    (fun s ps u w t => Updates t ps u { s.taken ps u w with acc := tset {} (s.spn ps).acc (tileAccKey u w) a } 6)) ∧
  (∀ a, Completes .merge .tile 7
    (fun s ps u w => accMerge (tget {} (s.spn ps).acc (tileAccKey u w)) (flitRecord (s.slotTok ps u w 2)).1 (flitRecord (s.slotTok ps u w 2)).2 = .ok a)
    (fun s ps u w t => Updates t ps u { s.taken ps u w with acc := tset {} (s.spn ps).acc (tileAccKey u w) a } 6))

/-- ADD, SUB, MUL, MIN, MAX and FMA (R63, R64, R69, R73). -/
def Obligations.VectorArithmeticCompletes : Prop :=
  Completes .add .vec 1 (fun _ _ _ _ => True)
    (fun s ps u w t => VecGives s ps u w t 4 (arithLane fAddX w (s.slotTok ps u w 0) (s.slotTok ps u w 1))) ∧
  Completes .sub .vec 2 (fun _ _ _ _ => True)
    (fun s ps u w t => VecGives s ps u w t 4 (arithLane (fun x y => fAddX x y.neg) w (s.slotTok ps u w 0) (s.slotTok ps u w 1))) ∧
  Completes .mul .vec 3 (fun _ _ _ _ => True)
    (fun s ps u w t => VecGives s ps u w t 4 (arithLane fMulX w (s.slotTok ps u w 0) (s.slotTok ps u w 1))) ∧
  Completes .min .vec 5 (fun _ _ _ _ => True)
    (fun s ps u w t => VecGives s ps u w t 4 (arithLane fMinX w (s.slotTok ps u w 0) (s.slotTok ps u w 1))) ∧
  Completes .max .vec 6 (fun _ _ _ _ => True)
    (fun s ps u w t => VecGives s ps u w t 4 (arithLane fMaxX w (s.slotTok ps u w 0) (s.slotTok ps u w 1))) ∧
  Completes .fma .vec 4 (fun _ _ _ _ => True)
    (fun s ps u w t => ∃ f, Gives t ps u (s.taken ps u w) [(vOport w, 6, f)] ∧ f.tag = tagOf (s.spn ps) (vOtag w) ∧ f.gen = s.gen ps ∧
      ∀ i, i < 64 → laneIs f (laneW (vDfmt w)) i
        (match vLane (s.slotTok ps u w 0) (vSfmt w) i, vLane (s.slotTok ps u w 1) (vSfmt w) i, vLane (s.slotTok ps u w 2) (vSfmt w) i with
         | some x, some y, some z => { code := (finish (arithFmt (vDfmt w)) false (fFmaX x y z)).1 }
         | _, _, _ => { poison := true }))

/-- CMP, CVT, RED, MOV and RNG (R60, R63, R65, R357, R358, R588). -/
def Obligations.VectorOthersComplete : Prop :=
  Completes .cmp .vec 7
    (fun s ps u w => ∀ i, i < 64 → enabled (s.slotPred ps u w) i = true →
      vLane (s.slotTok ps u w 0) (vSfmt w) i ≠ none ∧ vLane (s.slotTok ps u w 1) (vSfmt w) i ≠ none)
    (fun s ps u w t => ∃ f, Gives t ps u (s.taken ps u w) [(vOport w, 4, f)] ∧ f.tag = tagOf (s.spn ps) (vOtag w) ∧ f.ctl = true ∧
      f.pword = 0 ∧ f.nw = 1 ∧ ∀ i, i < 64 → predBit f i =
        (match enabled (s.slotPred ps u w) i, vLane (s.slotTok ps u w 0) (vSfmt w) i, vLane (s.slotTok ps u w 1) (vSfmt w) i with
         | true, some x, some y => cmpHolds (vSub w) (fCompare x y)
         | _, _, _ => false)) ∧
  Completes .cvt .vec 8 (fun _ _ _ w => isMX (vDfmt w) = false)
    (fun s ps u w t => VecGives s ps u w t 4 (cvtLane (s.uctx ps).sat w (s.slotTok ps u w 0))) ∧
  Completes .red .vec 9 (fun _ _ _ _ => True)
    (fun s ps u w t => VecGives s ps u w t 4 (fun i => if i < 32 then redLane w (s.slotTok ps u w 0) i else {})) ∧
  Completes .mov .vec 11 (fun _ _ _ w => vPred w = false)
    (fun s ps u w t => Gives t ps u (s.taken ps u w)
      [(vOport w, 4, { s.slotTok ps u w 0 with tag := tagOf (s.spn ps) (vOtag w), gen := s.gen ps })]) ∧
  Completes .rng .vec 12
    (fun s ps u w => vPred w = false ∧ ∀ j, j < 16 → (s.slotTok ps u w 0).bad j = false ∧ (s.slotTok ps u w 0).word j / 2 ^ 48 ≠ 0xFFFF)
    (fun s ps u w t => ∃ f, Gives t ps u (s.taken ps u w) [(vOport w, 4, f)] ∧ f.tag = tagOf (s.spn ps) (vOtag w) ∧
      ∀ j k, j < 16 → k < 4 → j ≤ (s.slotTok ps u w 0).nw.toNat → vDfmt w = 11 →
        lane 32 f.data.toNat (4 * j + k) =
          ((rngWords (s.uctx ps).seed (s.uctx ps).step ((s.slotTok ps u w 0).word j))[k]?).getD 0 % 2 ^ 32)

/-- NZ, PACK, FLUSH, XIN, XOUT and PCNT (R169 to R173). -/
def Obligations.CompressionCompletes : Prop :=
  Completes .nz .vec 10 (fun _ _ _ w => slotSub w = 0 ∧ vPred w = false)
    (fun s ps u w t =>
      let f := s.slotTok ps u w 0
      let any := (List.range 64).any (elemNonzero (vSfmt w) f)
      Gives t ps u (s.taken ps u w)
        [(vOport w, 4, { f with tag := tagOf (s.spn ps) (vOtag w), gen := s.gen ps }),
         (1 - vOport w, 4, tripTok (if any then 1 else 0) (tagOf (s.spn ps) (vOtag w)) (s.gen ps) f.anyBad)]) ∧
  Completes .pack .vec 10
    (fun s ps u w => slotSub w = 1 ∧ vPred w = false ∧
      (streamOf (s.spn ps) u).pend.length + (packGroup (s.uctx ps) w (s.slotTok ps u w 0)).1.length < 248)
    (fun s ps u w t =>
      let old := streamOf (s.spn ps) u
      let f := s.slotTok ps u w 0
      Gives t ps u (putStream (s.taken ps u w) u { old with
          starts := old.starts ++ [old.pend.length], pend := old.pend ++ (packGroup (s.uctx ps) w f).1, ppoison := old.ppoison || f.anyBad })
        [(1 - vOport w, 4, tripTok 0 (tagOf (s.spn ps) (vOtag w)) (s.gen ps) false)]) ∧
  Completes .flush .vec 10 (fun s ps u w => slotSub w = 2 ∧ (streamOf (s.spn ps) u).pend = [])
    (fun s ps u w t =>
      Gives t ps u (putStream (s.taken ps u w) u { streamOf (s.spn ps) u with pend := [], starts := [], offset := 0, ppoison := false })
        [(1 - vOport w, 4, tripTok 0 (tagOf (s.spn ps) (vOtag w)) (s.gen ps) false)]) ∧
  Completes .xin .vec 10
    (fun s ps u w => slotSub w = 3 ∧ completeGroups (expBytes w) (streamOf (s.spn ps) u).begun (streamOf (s.spn ps) u).exp = 0)
    (fun s ps u w t =>
      let old := streamOf (s.spn ps) u
      let f := s.slotTok ps u w 0
      let lost := f.bad 0 || (old.lost && bitsOf (f.word 0) 39 0 != 0)
      let bad := f.anyBad || lost
      let new : Stream := { old with
        exp := (if old.begun = 0 then [] else old.exp) ++ (List.range 248).map (fun i => (BitVec.ofNat 8 (f.byte (8 + i)), bad))
        begun := old.begun + bitsOf (f.word 0) 45 40, lost := lost }
      Gives t ps u (putStream (s.taken ps u w) u new)
        [(1 - vOport w, 4, tripTok (completeGroups (expBytes w) new.begun new.exp) (tagOf (s.spn ps) (vOtag w)) (s.gen ps) bad)]) ∧
  (∀ len, Completes .xout .vec 10
    (fun s ps u w => slotSub w = 4 ∧ (streamOf (s.spn ps) u).begun ≠ 0 ∧ frontGroup (expBytes w) (streamOf (s.spn ps) u).exp = some len ∧
      (((streamOf (s.spn ps) u).exp.take len).any (·.2)) = false)
    (fun s ps u w t =>
      let old := streamOf (s.spn ps) u
      let bytes := (old.exp.take len).map (·.1)
      ∃ f, Gives t ps u (putStream (s.taken ps u w) u { old with exp := old.exp.drop len, begun := old.begun - 1 }) [(vOport w, 4, f)] ∧
        f.tag = tagOf (s.spn ps) (vOtag w) ∧ ∀ i, i < 64 →
          laneIs f (laneW (vDfmt w)) i { code := ((expandLanes (expBytes w) (leNat (bytes.take 8)) 64 0 (bytes.drop 8))[i]?).getD 0 })) ∧
  Completes .pcnt .vec 10 (fun _ _ _ w => slotSub w = 5)
    (fun s ps u w t => Gives t ps u (s.taken ps u w)
      [(vOport w, 4, tripTok (predCount (s.slotTok ps u w 2)) (tagOf (s.spn ps) (vOtag w)) (s.gen ps) false)])

/-- exp2, log2, reciprocal, reciprocal square root, sine and cosine (R66, R73, R142). -/
def Obligations.SpecialFunctionsComplete : Prop :=
  let P (fn : SfuFn) (lat : Nat) (s : State) (ps u : Nat) (w : DWord) (t : State) : Prop :=
    ∃ f, Gives t ps u (s.taken ps u w) [(0, lat, f)] ∧ f.tag = tagOf (s.spn ps) (slot w 42 34) ∧ f.gen = s.gen ps ∧
      ∀ i, i < 16 → laneIs f (laneW (slot w 55 52)) i
        (if (s.slotTok ps u w 0).bad (i * laneW (slot w 59 56) / 64) then { poison := true }
         else sfuLane fn (slot w 59 56) (slot w 55 52) (lane (laneW (slot w 59 56)) (s.slotTok ps u w 0).data.toNat i))
  Completes .exp2 .sfu 0 (fun _ _ _ _ => True) (P .exp2 24) ∧
  Completes .log2 .sfu 1 (fun _ _ _ _ => True) (P .log2 24) ∧
  Completes .reciprocal .sfu 2 (fun _ _ _ _ => True) (P .recip 24) ∧
  Completes .reciprocalSquareRoot .sfu 3 (fun _ _ _ _ => True) (P .rsqrt 24) ∧
  Completes .sin .sfu 4 (fun _ _ _ _ => True) (P .sin 40) ∧
  Completes .cos .sfu 5 (fun _ _ _ _ => True) (P .cos 40)

/-- SWITCH, MERGE, GATE, SPLIT and COUNT (R83, R132, R143). -/
def Obligations.SteeringCompletes : Prop :=
  Completes .switch .steer 0 (fun _ _ _ _ => True)
    (fun s ps u w t => Gives t ps u (s.taken ps u w)
      [(if predBit (s.slotTok ps u w 2) 0 then 0 else 1, 1,
        { s.slotTok ps u w 0 with tag := steerTag (s.spn ps) w (s.slotTok ps u w 2), gen := s.gen ps })]) ∧
  Completes .steerMerge .steer 1 (fun _ _ _ _ => True)
    (fun s ps u w t => Gives t ps u (s.taken ps u w)
      [(0, 1, { (if predBit (s.slotTok ps u w 2) 0 then s.slotTok ps u w 0 else s.slotTok ps u w 1) with
          tag := steerTag (s.spn ps) w (s.slotTok ps u w 2), gen := s.gen ps })]) ∧
  Completes .gate .steer 2 (fun _ _ _ _ => True)
    (fun s ps u w t => Gives t ps u (s.taken ps u w)
      (if (List.range 64).any (predBit (s.slotTok ps u w 2)) then
        [(0, 1, { maskFlit (s.slotTok ps u w 0) 32 (some (s.slotTok ps u w 2)) with
            tag := steerTag (s.spn ps) w (s.slotTok ps u w 2), gen := s.gen ps })]
       else [])) ∧
  Completes .split .steer 3 (fun _ _ _ _ => True)
    (fun s ps u w t => Gives t ps u (s.taken ps u w)
      [(0, 1, { s.slotTok ps u w 2 with tag := steerTag (s.spn ps) w (s.slotTok ps u w 2), gen := s.gen ps }),
       (1, 1, { complementPred (s.slotTok ps u w 2) with tag := steerTag (s.spn ps) w (s.slotTok ps u w 2), gen := s.gen ps })]) ∧
  Completes .count .steer 4
    (fun s ps u w => (s.spn ps).trips.length < 16 ∧ ((s.spn ps).trips.any (fun t => t.steer == u && t.tag == (s.slotTok ps u w 2).tag)) = false)
    (fun s ps u w t => Gives t ps u
      { s.taken ps u w with trips := (s.spn ps).trips ++ [⟨u, (s.slotTok ps u w 2).tag, BitVec.ofNat 32 ((s.slotTok ps u w 2).word 0)⟩] }
      [(0, 1, { s.slotTok ps u w 2 with tag := steerTag (s.spn ps) w (s.slotTok ps u w 2), gen := s.gen ps })])

/-- PHASE, ROT, BLK, MRG, FIN, SPILL and the merge engine (R201 to R212). -/
def Obligations.SequenceUnitsComplete : Prop :=
  Completes .phase .seq 1 (fun s ps u w => (s.slotTok ps u w 0).bad 0 = false)
    (fun s ps u w t => ∃ f, Gives t ps u (s.taken ps u w) [(seqOport w, 6, f)] ∧ f.tag = seqOtag (s.spn ps) w ∧ f.gen = s.gen ps ∧
      ∀ i, i < 64 → lane 32 f.data.toNat i =
        if i ≤ bitsOf (psetOf (s.spn ps) u (seqPset w)) 13 8 then
          (phaseLane (bitsOf ((s.slotTok ps u w 0).word 0) 23 0)
            (((tget [] (seqOf (s.spn ps) u).ftab (seqPset w))[i]?).getD 0).toNat).1 % 2 ^ 32
        else 0) ∧
  Completes .rot .seq 2
    (fun s ps u w => ∀ p i, p < 4 → i < 64 → vLane (s.slotTok ps u w p) 0 i ≠ none)
    (fun s ps u w t => ∃ f g, Gives t ps u (s.taken ps u w) [(seqOport w, 4, f), (1 - seqOport w, 4, g)] ∧
      f.tag = seqOtag (s.spn ps) w ∧ g.tag = f.tag ∧ ∀ i x y c d, i < 64 →
        vLane (s.slotTok ps u w 0) 0 i = some x → vLane (s.slotTok ps u w 1) 0 i = some y →
        vLane (s.slotTok ps u w 2) 0 i = some c → vLane (s.slotTok ps u w 3) 0 i = some d →
          lane 32 f.data.toNat i = (rotLane true x c y d).1 % 2 ^ 32 ∧ lane 32 g.data.toNat i = (rotLane false x d y c).1 % 2 ^ 32) ∧
  Completes .blk .seq 3
    (fun s ps u w => descBad (s.slotTok ps u w 2) false = false ∧
      ∀ k, k < 128 → scoreLane (s.slotTok ps u w 0) (s.slotTok ps u w 1) k ≠ none)
    (fun s ps u w t =>
      let set := attnSet (psetOf (s.spn ps) u (seqPset w))
      let d := s.slotTok ps u w 2
      let q := bitsOf (d.word 0) 23 0
      let kpos0 := bitsOf (d.word 1) 23 0
      let nv := bitsOf (d.word 1) 30 24
      let r := blkCompute set (s.uctx ps).sat q kpos0 nv
        ((List.range 128).map (fun k => (scoreLane (s.slotTok ps u w 0) (s.slotTok ps u w 1) k).getD 0))
      let b := BitVec.ofNat 17 (kpos0 / 128)
      let width := if set.bf16p then 16 else 8
      ∃ f, Gives t ps u (s.taken ps u w)
          [(seqOport w, 20, f),
           (1 - seqOport w, 20, headerFlit { first := b, last := b, qpos := BitVec.ofNat 24 q, m := BitVec.ofNat 32 r.2.1, l := BitVec.ofNat 32 r.2.2.1 }
              (bitsOf (d.word 0) 27 24) (!r.2.2.2.1) false (seqOtag (s.spn ps) w) (s.gen ps))] ∧
        f.tag = seqOtag (s.spn ps) w ∧
        ∀ k, k < 128 → lane width f.data.toNat k = ((r.1[k]?).getD 0) % 2 ^ width ∧
          (keyAllowed set q (kpos0 + k) k nv = false → lane width f.data.toNat k = 0)) ∧
  Completes .mrg .seq 4
    (fun s ps u w =>
      let h := s.slotTok ps u w 2
      let set := attnSet (psetOf (s.spn ps) u (seqPset w))
      let p := mrgPartial (s.slotTok ps u w 0) (if 64 < set.d then some (s.slotTok ps u w 1) else none) set.d h
      h.bad 0 = false ∧ (h.word 0).testBit 35 = false ∧
        ∀ c, rowAfterQueue (seqOf (s.spn ps) u) (h.word 0 / 2 ^ 60) = some c →
          p.qpos = c.qpos ∧ c.last < p.first ∧ (p.node = false → c.node = false ∧ p.first >>> set.sl = c.first >>> set.sl))
    (fun s ps u w t =>
      let h := s.slotTok ps u w 2
      let set := attnSet (psetOf (s.spn ps) u (seqPset w))
      let p := mrgPartial (s.slotTok ps u w 0) (if 64 < set.d then some (s.slotTok ps u w 1) else none) set.d h
      (seqOf (t.spn ps) u).queue = (seqOf (s.spn ps) u).queue ++ [{ row := h.word 0 / 2 ^ 60, d := set.d, part := p, op := (s.spn ps).nextOp .merge }] ∧
        (t.spn ps).inFlight.length = (s.spn ps).inFlight.length + 1 ∧ (t.spn ps).pipe = (s.spn ps).pipe ∧
        (t.spn ps).store = (s.taken ps u w).store) ∧
  (∀ c, Completes .fin .seq 5
    (fun s ps u w =>
      let d := s.slotTok ps u w 2
      descBad d true = false ∧ rowAfterQueue (seqOf (s.spn ps) u) (bitsOf (d.word 0) 27 24) = some c ∧ c.qpos.toNat = bitsOf (d.word 0) 23 0 ∧
        c.poison = false ∧ c.o.length ≤ 128 ∧ (attnSet (psetOf (s.spn ps) u (seqPset w))).bf16o = true)
    (fun s ps u w t =>
      let row := bitsOf ((s.slotTok ps u w 2).word 0) 27 24
      ∃ f, t.spn ps = { putSeq (s.taken ps u w) u (takeRow (seqOf (s.spn ps) u) row) with
          pipe := (s.spn ps).pipe ++
            [{ unit := u, port := seqOport w, left := 12, out := some f, row := some row },
             { unit := u, port := 1 - seqOport w, left := 12, out := some (headerFlit c row false false (seqOtag (s.spn ps) w) (s.gen ps)), row := some row }] } ∧
        f.tag = seqOtag (s.spn ps) w ∧
        ∀ i x, c.o[i]? = some x → lane 16 f.data.toNat i =
          (encodeF fBF16 false (decodeF fFP32 (mul32 x.toNat (sfu32 .recip c.l.toNat).1).1)).1 % 2 ^ 16)) ∧
  Completes .fin .seq 5
    (fun s ps u w =>
      let d := s.slotTok ps u w 2
      descBad d true = false ∧ rowAfterQueue (seqOf (s.spn ps) u) (bitsOf (d.word 0) 27 24) = none ∧
        (attnSet (psetOf (s.spn ps) u (seqPset w))).bf16o = true)
    (fun s ps _ w t =>
      t.rd (0x2000000 + 0x100000 * ps + 0x0708) = min (s.rd (0x2000000 + 0x100000 * ps + 0x0708) + 1) (2 ^ 32 - 1) ∧
        ∃ h, ((t.spn ps).pipe.drop (s.spn ps).pipe.length).map (fun e => (e.port, e.left, e.out)) =
          [(seqOport w, 12, some (mkFlit 0 0 (seqOtag (s.spn ps) w) (s.gen ps) 32)), (1 - seqOport w, 12, some h)] ∧ (h.word 0).testBit 35 = true) ∧
  (∀ c, Completes .seqSpill .seq 6
    (fun s ps u w =>
      let d := s.slotTok ps u w 2
      descBad d true = false ∧ rowAfterQueue (seqOf (s.spn ps) u) (bitsOf (d.word 0) 27 24) = some c ∧ c.qpos.toNat = bitsOf (d.word 0) 23 0 ∧
        c.poison = false ∧ c.o.length ≤ 64 ∧ (attnSet (psetOf (s.spn ps) u (seqPset w))).d ≤ 64)
    (fun s ps u w t =>
      let row := bitsOf ((s.slotTok ps u w 2).word 0) 27 24
      ∃ f, t.spn ps = { putSeq (s.taken ps u w) u (takeRow (seqOf (s.spn ps) u) row) with
          pipe := (s.spn ps).pipe ++
            [{ unit := u, port := seqOport w, left := 12, out := some f, row := some row },
             { unit := u, port := 1 - seqOport w, left := 12
               out := some (headerFlit { c with node := true } row false false (seqOtag (s.spn ps) w) (s.gen ps)), row := some row }] } ∧
        f.tag = seqOtag (s.spn ps) w ∧ ∀ i x, c.o[i]? = some x → lane 32 f.data.toNat i = x.toNat)) ∧
  (∀ (s : State) (ps : Fin 18) (k : Fin 2) (j : MergeJob) (rest : List MergeJob), (seqOf (s.spn ps) (32 + k)).queue = j :: rest →
    ∃ t, exec (.mergeEngineComplete ps k) s = .next t ∧ s.Alters t [.regs, .spns] ∧ s.RegsBut t [Reg.SPN_NUM_FLAGS ps] ∧
      (seqOf (t.spn ps) (32 + k)).queue = rest ∧ (t.spn ps).ops = (s.spn ps).ops.filter (fun o => o.id != j.op) ∧
      (j.taken = true → (seqOf (t.spn ps) (32 + k)).rows = (seqOf (s.spn ps) (32 + k)).rows) ∧
      (j.taken = false → tget none (seqOf (s.spn ps) (32 + k)).rows j.row = none → tget none (seqOf (t.spn ps) (32 + k)).rows j.row = some j.part) ∧
      (∀ c, j.taken = false → tget none (seqOf (s.spn ps) (32 + k)).rows j.row = some c →
        tget none (seqOf (t.spn ps) (32 + k)).rows j.row = some (mergePart j.d c j.part).1))

/-- TOPK and the job slots (R179 to R184). -/
def Obligations.DispatchUnitSlotsComplete : Prop :=
  let set (s : State) (ps : Nat) (w : DWord) : DspSet := dspSet (psetOf (s.spn ps) 34 (seqPset w))
  let excl (s : State) (ps u : Nat) (w : DWord) : Bool :=
    match s.slotPred ps u w with
    | some p => !predBit p 0
    | none => if (s.spn ps).dsp.scores = [] then false else (s.spn ps).dsp.excl
  let all (s : State) (ps u : Nat) (w : DWord) : List Nat :=
    (s.spn ps).dsp.scores ++ (List.range 64).map (lane 32 (s.slotTok ps u w 0).data.toNat)
  let clean (s : State) (ps u : Nat) (w : DWord) : Prop := (s.spn ps).dsp.spoison = false ∧
    ∀ i, i < 64 → 64 * ((s.spn ps).dsp.scores.length / 64) + i < (set s ps w).e → (s.slotTok ps u w 0).bad (i / 2) = false
  let queues (k : JobKind) (s : State) (ps u : Nat) (w : DWord) (t : State) : Prop :=
    (t.spn ps).dsp.jobs = (s.spn ps).dsp.jobs ++
        [{ kind := k, pset := seqPset w, otag := seqOtag (s.spn ps) w, oport := seqOport w, op := (s.spn ps).nextOp .job }] ∧
      (t.spn ps).inFlight.length = (s.spn ps).inFlight.length + 1 ∧ (t.spn ps).pipe = (s.spn ps).pipe ∧
      (t.spn ps).store = (s.taken ps u w).store
  Completes .topk .dsp 1
    (fun s ps u w => clean s ps u w ∧ (s.spn ps).dsp.scores.length / 64 + 1 < topkFires (set s ps w).e)
    (fun s ps u w t => Gives t ps u { s.taken ps u w with
        dsp := { (s.spn ps).dsp with scores := all s ps u w, spoison := false, excl := excl s ps u w } } []) ∧
  (∀ ranks tally, Completes .topk .dsp 1
    (fun s ps u w => clean s ps u w ∧ topkFires (set s ps w).e ≤ (s.spn ps).dsp.scores.length / 64 + 1 ∧
      (if excl s ps u w then ((s.spn ps).dsp.tally, (topkSel ((all s ps u w).take (set s ps w).e) (set s ps w).k []).map (fun _ => 0), none)
       else raiseTallies (s.spn ps).dsp.tally 0 (topkSel ((all s ps u w).take (set s ps w).e) (set s ps w).k [])) = (tally, ranks, none))
    (fun s ps u w t =>
      let sc := (all s ps u w).take (set s ps w).e
      let sel := topkSel sc (set s ps w).k []
      let ws := (topkWeights (set s ps w).norm (sel.map (fun e => (sc[e]?).getD 0))).1
      ∃ f, Gives t ps u { s.taken ps u w with
            dsp := { (s.spn ps).dsp with scores := [], spoison := false, excl := false, p := (s.spn ps).dsp.p + 1, tally := tally } }
          [(seqOport w, match (set s ps w).norm with | 0 => 8 | 2 => 12 | _ => 60, f)] ∧
        f.tag = seqOtag (s.spn ps) w ∧
        f.word 0 = tokenKey s.coord (s.logicalN ps) ((descOf (s.spn ps) (seqPset w)).posbase + (s.spn ps).dsp.p) (excl s ps u w) % 2 ^ 64 ∧
        ∀ j e, sel[j]? = some e →
          f.word (1 + j) = recordEntry ((ws[j]?).getD 0) e ((ranks[j]?).getD 0) (!excl s ps u w) % 2 ^ 64)) ∧
  Completes .post .dsp 2 (fun _ _ _ _ => True) (queues .post) ∧
  Completes .grant .dsp 3 (fun _ _ _ _ => True) (queues .grant) ∧
  Completes .scatter .dsp 4 (fun _ _ _ _ => True) (queues .scatter) ∧
  Completes .dspReturn .dsp 5 (fun _ _ _ _ => True) (queues .ret) ∧
  Completes .treset .dsp 6 (fun _ _ _ _ => True) (queues .treset)

/-- The jobs of the dispatch unit and its arrivals (R185 to R190). -/
def Obligations.DispatchJobsComplete : Prop :=
  (∀ (s : State) (ps : Fin 18) (j : DspJob) (r : List DspJob), (s.spn ps).dsp.jobs = j :: r → j.kind = .post →
    ∃ t, exec (.postJob ps) s = .next t ∧ (t.spn ps).dsp.jobs = r ∧
      (phaseOf (t.spn ps) 2).want = some ((dspSet (psetOf (s.spn ps) 34 j.pset)).nsrc * packetsOf ((descOf (s.spn ps) j.pset).elocal * 16)) ∧
      (phaseOf (t.spn ps) 3).want = some (dspSet (psetOf (s.spn ps) 34 j.pset)).e ∧
      s.Alters t [.regs, .freeN, .out, .log, .nodes, .spns, .irq, .fab, .logN]) ∧
  (∀ (s : State) (ps : Fin 18) (f : Flips) (j : DspJob) (r : List DspJob), (s.spn ps).dsp.jobs = j :: r → j.kind = .grant →
    (phaseOf (s.spn ps) 2).done = true →
    let d := descOf (s.spn ps) j.pset
    let x := s.devRead (.spindle ps) (area d d.cnta (s.logicalN ps)) ((dspSet (psetOf (s.spn ps) 34 j.pset)).nsrc * d.elocal * 16) f
    (x.2.1 ≠ 0 → exec (.grantJob ps f) s = .next (x.2.2.2.spnFault ps 0x0336 34 0 [(16, 1, 34), (17, 2, 0)])) ∧
      (x.2.1 = 0 → ∃ t, exec (.grantJob ps f) s = .next t ∧ (t.spn ps).dsp.jobs = r ∧ (t.spn ps).dsp.kept.length = d.elocal ∧
        t.rd (Reg.SPN_DSP_KEPT ps) = (t.spn ps).dsp.kept.sum % 2 ^ 32 ∧
        (phaseOf (t.spn ps) 4).want = some ((t.spn ps).dsp.kept.sum * packetsOf ((1 + d.nflit) * 256)) ∧
        s.Alters t [.regs, .freeN, .out, .log, .nodes, .mem, .poison, .spns, .seqr, .chans, .prot, .irq, .fab, .coll, .reel, .logN])) ∧
  (∀ (s : State) (ps : Fin 18) (f : Flips) (j : DspJob) (r : List DspJob), (s.spn ps).dsp.jobs = j :: r → j.kind = .scatter →
    (phaseOf (s.spn ps) 3).done = true → (descOf (s.spn ps) j.pset).ntok = 0 →
    ∃ t, exec (.scatterJob ps f) s = .next t ∧ (t.spn ps).dsp.jobs = r ∧ (phaseOf (t.spn ps) 5).want = some 0 ∧ s.Alters t [.freeN, .spns]) ∧
  (∀ (s : State) (ps : Fin 18) (f : Flips) (j : DspJob) (r : List DspJob), (s.spn ps).dsp.jobs = j :: r → j.kind = .ret →
    (phaseOf (s.spn ps) 4).done = true →
    ∃ t, exec (.returnJob ps f) s = .next t ∧ (t.spn ps).dsp.jobs = r ∧ (t.spn ps).dsp.kept = (s.spn ps).dsp.kept ∧
      s.Alters t [.regs, .out, .log, .nodes, .mem, .poison, .spns, .seqr, .chans, .irq, .fab, .logN]) ∧
  (∀ (s : State) (ps : Fin 18) (j : DspJob) (r : List DspJob), (s.spn ps).dsp.jobs = j :: r → j.kind = .treset →
    ∃ t, exec (.tresetJob ps) s = .next t ∧ (t.spn ps).dsp.jobs = r ∧ (t.spn ps).dsp.tally = [] ∧ (t.spn ps).dsp.phases = [] ∧
      (t.spn ps).dsp.p = 0 ∧ (t.spn ps).ops = (s.spn ps).ops.filter (fun o => decide (o.id ≠ j.op)) ∧ s.Alters t [.spns] ∧
      ∀ q, q ≠ ps.val → t.spn q = s.spn q) ∧
  (∀ (s : State) (ps : Fin 18) (f : Flips) (j : DspJob) (r : List DspJob), (s.spn ps).dsp.jobs = j :: r →
    (j.kind = .grant → (phaseOf (s.spn ps) 2).done = false → exec (.grantJob ps f) s = .next s) ∧
    (j.kind = .scatter → (phaseOf (s.spn ps) 3).done = false → exec (.scatterJob ps f) s = .next s) ∧
    (j.kind = .ret → (phaseOf (s.spn ps) 4).done = false → exec (.returnJob ps f) s = .next s)) ∧
  (∀ (s : State) (ps : Fin 18) (p : DspPkt) (f : Flips),
    (s.dspFull ps p.phase = true → ∃ t, exec (.dispatchArrival ps p f) s = .next t ∧
      t.rd (Reg.SPN_DSP_XTRA ps) = min (s.rd (Reg.SPN_DSP_XTRA ps) + 1) (2 ^ 32 - 1) ∧ s.Alters t [.regs, .out] ∧
      s.RegsBut t [Reg.SPN_DSP_XTRA ps]) ∧
    (s.dspFull ps p.phase = false → s.protHit p.addr p.data.length = none → ∃ t, exec (.dispatchArrival ps p f) s = .next t ∧
      (phaseOf (t.spn ps) p.phase).got = (phaseOf (s.spn ps) p.phase).got + 1 ∧ (t.spn ps).dsp.jobs = (s.spn ps).dsp.jobs ∧
      s.Alters t [.regs, .freeN, .out, .log, .nodes, .mem, .poison, .spns, .seqr, .chans, .prot, .irq, .fab, .coll, .reel, .logN])) ∧
  (∀ (s : State) (ps : Fin 18) (n : Fin 4) (a : DWord), (phaseOf (s.spn ps) (2 + n)).armed = some a → (phaseOf (s.spn ps) (2 + n)).done = false →
    s.rd (Reg.SPN_DSP_TMO ps) ≤ (s.now - a).toNat →
    exec (.dspArrivalTimeout ps n) s =
      .next (s.spnFault ps 0x0335 34 0 [(16, 1, 34), (17, 1, 2 + n), (18, 4, (phaseOf (s.spn ps) (2 + n)).got)]))

/-- BREAD and BWRITE (R92, R145, R232). -/
def Obligations.BankAccessesComplete : Prop :=
  let addr (s : State) (ps u : Nat) (w : DWord) : Nat := slotAddr (s.spn ps) (s.logicalN ps) u w ((s.slotTok ps u w 1).word 0)
  (∀ (s : State) (ps : Fin 18) (u : Fin 55) (w : DWord) (f : Flips) (k : Nat), Fires s ps u w → slotIs .mem 1 u w = true → slotOk u w = true →
    s.ownLine ps (s.logicalN ps) u (addr s ps u w) = some k → slot w 7 5 = 0 → (∀ j, j < 32 → flipOf f (k + 8 * j) = 0) →
    ∃ t fl, exec (.bread ps u w f) s = .next t ∧ Gives t ps u (s.taken ps u w) [(0, 3, fl)] ∧ fl.tag = tagOf (s.spn ps) (slot w 38 30) ∧
      (∀ i, i < 256 → fl.byte i = if s.poisonAt (k + i) then 0 else (s.byteAt (k + i)).toNat) ∧
      (∀ j, j < 32 → fl.bad j = s.poisonAt (k + 8 * j)) ∧ s.Alters t [.spns] ∧ ∀ q, q ≠ ps.val → t.spn q = s.spn q) ∧
  (∀ (s : State) (ps : Fin 18) (u : Fin 55) (w : DWord) (f : Flips) (k : Nat), Fires s ps u w → slotIs .mem 2 u w = true → slotOk u w = true →
    s.ownLine ps (s.logicalN ps) u (addr s ps u w) = some k →
    ∃ t, exec (.bwrite ps u w f) s = .next t ∧ t.spn ps = s.taken ps u w ∧
      (∀ i, i < 256 → t.byteAt (k + i) = if (s.slotTok ps u w 0).bad (i / 8) then 0 else BitVec.ofNat 8 ((s.slotTok ps u w 0).byte i)) ∧
      (∀ i, i < 256 → t.poisonAt (k + i) = (s.slotTok ps u w 0).bad (i / 8)) ∧ s.BytesBut t k 256 ∧
      (∀ a, a < k ∨ k + 256 ≤ a → t.poisonAt a = s.poisonAt a) ∧ s.Alters t [.mem, .poison, .spns] ∧ ∀ q, q ≠ ps.val → t.spn q = s.spn q) ∧
  (∀ (s : State) (ps : Fin 18) (u : Fin 55) (w : DWord) (f : Flips), Fires s ps u w → slotOk u w = true →
    s.ownLine ps (s.logicalN ps) u (addr s ps u w) = none →
    let x := (s.setSpn ps (s.taken ps u w)).spnFault ps 0x0322 u (tagOf (s.spn ps) (slot w 38 30)).toNat [(16, 1, u), (17, 5, addr s ps u w)]
    (slotIs .mem 1 u w = true → exec (.bread ps u w f) s = .next x) ∧ (slotIs .mem 2 u w = true → exec (.bwrite ps u w f) s = .next x))

/-- RD, WR, ATOM, RECV, SEND, WATCH and sluice releases (R86 to R93, R145, R272 to R274). -/
def Obligations.MemoryUnitsComplete : Prop :=
  let addr (s : State) (ps u : Nat) (w : DWord) : Nat := slotAddr (s.spn ps) (s.logicalN ps) u w ((s.slotTok ps u w 1).word 0)
  let tag (s : State) (ps : Nat) (w : DWord) : BitVec 8 := tagOf (s.spn ps) (slot w 38 30)
  let len (w : DWord) : Nat := slot w 28 17 + 1
  let fits (s : State) (t : State) (ps : Nat) : Prop := s.Alters t [.regs, .out, .spns] ∧ s.RegsBut t (fireRegs ps) ∧ ∀ q, q ≠ ps → t.spn q = s.spn q
  (∀ (s : State) (ps : Fin 18) (u : Fin 55) (w : DWord), Fires s ps u w → slotIs .mem 3 u w = true → slotOk u w = true →
    let g := if slot w 29 29 = 1 then s.gen ps + 1 else s.gen ps
    let n := (len w + 255) / 256
    ((s.spn ps).dupReserve (slot w 40 39) (tag s ps w) g n = none →
      ∃ t, exec (.rd ps u w) s = .next t ∧ fits s t ps ∧
        t.spn ps = ((s.taken ps u w).reserve (slot w 40 39) (tag s ps w) g n ((s.spn ps).nextOp .read)).addOp
          { newOp .read (s.gen ps) s.now with fwd := decide (slot w 29 29 = 1), addr := addr s ps u w, len := len w, sl := slot w 40 39, tag := tag s ps w, left := n } ∧
        t.out = s.out ++ [.req { src := .spindle ps, op := (s.spn ps).nextOp .read, kind := .read, addr := addr s ps u w, len := len w, data := [], poison := 0 }]) ∧
    (∀ d, (s.spn ps).dupReserve (slot w 40 39) (tag s ps w) g n = some d →
      exec (.rd ps u w) s = .next ((s.setSpn ps (s.taken ps u w)).spnFault ps 0x0311 (51 + slot w 40 39) d.toNat
        [(16, 1, 51 + slot w 40 39), (17, 1, 0xFF), (18, 1, d.toNat)]))) ∧
  (∀ (s : State) (ps : Fin 18) (u : Fin 55) (w : DWord), Fires s ps u w → slotIs .mem 4 u w = true → slotOk u w = true →
    ∃ t, exec (.wr ps u w) s = .next t ∧ fits s t ps ∧
      t.spn ps = (s.taken ps u w).addOp { newOp .write (s.gen ps) s.now with cnt := slot w 16 9, addr := addr s ps u w, len := len w } ∧
      t.out = s.out ++ [.req { src := .spindle ps, op := (s.spn ps).nextOp .write, kind := .write, addr := addr s ps u w, len := len w
                               data := (toLE 256 (s.slotTok ps u w 0).data.toNat).take (len w), poison := (s.slotTok ps u w 0).pword.toNat }]) ∧
  (∀ (s : State) (ps : Fin 18) (u : Fin 55) (w : DWord), Fires s ps u w → slotIs .mem 5 u w = true → slotOk u w = true →
    (s.spn ps).dupReserve (slot w 40 39) (tag s ps w) (s.gen ps) 1 = none →
    let n := if slot w 7 5 = 2 then 16 else 8
    ∃ t, exec (.atom ps u w) s = .next t ∧ fits s t ps ∧
      t.spn ps = ((s.taken ps u w).reserve (slot w 40 39) (tag s ps w) (s.gen ps) 1 ((s.spn ps).nextOp .atom)).addOp
        { newOp .atom (s.gen ps) s.now with cnt := slot w 16 9, addr := addr s ps u w, len := n, sl := slot w 40 39, tag := tag s ps w, left := 1 } ∧
      t.out = s.out ++ [.req { src := .spindle ps, op := (s.spn ps).nextOp .atom, kind := .atom (slot w 7 5), addr := addr s ps u w, len := n
                               data := (toLE 256 (s.slotTok ps u w 0).data.toNat).take n
                               poison := (s.slotTok ps u w 0).pword.toNat % (if slot w 7 5 = 2 then 4 else 2) }]) ∧
  (∀ (s : State) (ps : Fin 18) (u : Fin 55) (w : DWord), Fires s ps u w → slotIs .mem 6 u w = true → slotOk u w = true →
    (s.spn ps).dupReserve (slot w 40 39) (tag s ps w) (s.gen ps) 1 = none →
    let q := slot w 16 9 % 64
    let iq := tget {} (s.spn ps).inq q
    iq.ready = none → (iq.st = .unbound ∨ iq.st = .opened) →
    ∃ t, exec (.recv ps u w) s = .next t ∧ fits s t ps ∧ t.out = s.out ∧
      tget {} (t.spn ps).inq q = { iq with posted := iq.posted ++ [(s.spn ps).nextOp .recv] } ∧
      (t.spn ps).sluice = (s.spn ps).sluice ++
        [{ sl := slot w 40 39, tag := tag s ps w, gen := s.gen ps, filled := false, flit := {}, op := (s.spn ps).nextOp .recv }]) ∧
  (∀ (s : State) (ps : Fin 18) (u : Fin 55) (w : DWord) (b : ChanBind), Fires s ps u w → slotIs .mem 7 u w = true → slotOk u w = true →
    let ch := slot w 16 9 % 64
    let oc := tget {} (s.spn ps).outq ch
    oc.st = .opened → oc.bind = some b → b.remote = false →
    ∃ t, exec (.send ps u w) s = .next t ∧ fits s t ps ∧
      tget {} (t.spn ps).outq ch = { oc with seq := oc.seq + 1, credits := oc.credits - 1 } ∧
      (t.spn ps).inFlight.length = (s.spn ps).inFlight.length + 1 ∧
      t.out = s.out ++ [.chan { kind := .message, ctx := s.runCtx, src := s.ownEnd (s.logicalN ps) ch, dst := b
                                msg := sendMsg (s.slotTok ps u w 0) (len w / 4) oc.seq, op := (s.spn ps).nextOp .send }]) ∧
  (∀ (s : State) (ps : Fin 18) (u : Fin 55) (w : DWord), Fires s ps u w → slotIs .mem 8 u w = true → slotOk u w = true →
    (s.spn ps).dupReserve (slot w 40 39) (tag s ps w) (s.gen ps) 1 = none →
    (∀ o ∈ (s.spn ps).ops, o.kind = .watch → o.cnt = slot w 16 9 → (s.spn ps).counter (slot w 16 9) < o.len) →
    (s.spn ps).counter (slot w 16 9) < slot w 56 41 →
    ∃ t, exec (.watch ps u w) s = .next t ∧ fits s t ps ∧ t.out = s.out ∧
      t.spn ps = ((s.taken ps u w).reserve (slot w 40 39) (tag s ps w) (s.gen ps) 1 ((s.spn ps).nextOp .watch)).addOp
        { newOp .watch (s.gen ps) s.now with cnt := slot w 16 9, len := slot w 56 41, sl := slot w 40 39, tag := tag s ps w, left := 1 }) ∧
  (∀ (s : State) (ps : Fin 18) (u : Fin 55) (w : DWord) (e : SlEnt), Fires s ps u w → slotIs .sluice 0 u w = true → slotOk u w = true →
    slot w 63 63 = 1 → slot w 53 53 = 0 →
    (s.spn ps).sluice.find? (fun e => e.sl == u.val - 51 && e.tag == tagOf (s.spn ps) (slot w 62 54) && e.gen == s.gen ps && e.filled) = some e →
    (e.flit.pword = 0 ∨ s.carries = true) →
    ∃ t, exec (.sluiceRelease ps u w) s = .next t ∧ fits s t ps ∧ t.out = s.out ∧
      Gives t ps u { s.taken ps u w with sluice := (s.spn ps).sluice.erase e } [(0, 1, e.flit)] ∧
      (e.flit.pword ≠ 0 → t.rbit (Reg.SPN_NUM_FLAGS ps) 6 = true))

/-- The bundles of a strand (R128 to R135). -/
def Obligations.StrandBundlesComplete : Prop :=
  (∀ (s : State) (ps : Fin 18) (f : Flips), s.nextKind ps 0 = true →
    exec (.exec ps true f) s = .next (s.badStrand ps) ∧
    (s.drainStops ps = true → exec (.exec ps false f) s = .next (s.reachPoint ps)) ∧
    (∀ m, s.drainStops ps = false → m ≠ 0 → m = s.cycleCauses ps (s.spn ps).slots →
      Runs (.exec ps false f) s [.regs, .out, .log, .nodes, .spns, .seqr, .prot, .irq, .fab, .coll, .reel, .logN]
        (fun t => t = s.holdTick ps m (stallSends (s.spn ps) (s.spn ps).slots) (stallRecvs (s.spn ps) (s.gen ps) (s.spn ps).slots) ∧
          (t.spn ps).pos = (s.spn ps).pos ∧ (t.spn ps).loops = (s.spn ps).loops ∧ (t.spn ps).store = (s.spn ps).store ∧ (t.spn ps).pipe = (s.spn ps).pipe)) ∧
    (∀ x, s.drainStops ps = false → x = s.cycle ps (s.spn ps).slots f → x.spnState ps ≠ 0 → s.cycleCauses ps (s.spn ps).slots = 0 →
      ∃ t, exec (.exec ps false f) s = .next t ∧ t = (x.modSpn ps (fun y => y.begun.next (1 + (s.spn ps).slots.length))).cycleDone ps ∧
        (t.spn ps).pos = ((x.spn ps).begun.next (1 + (s.spn ps).slots.length)).pos ∧ (t.spn ps).phase = (x.spn ps).phase + 1)) ∧
  (∀ (s : State) (ps : Fin 18), s.strandRuns ps = true → (0 < (s.spn ps).idleLeft ∨ (s.spn ps).kind = some 1) →
    exec (.idle ps true) s = .next (s.badStrand ps) ∧
    (s.drainStops ps = true → exec (.idle ps false) s = .next (s.reachPoint ps)) ∧
    (∀ x, s.drainStops ps = false → x = s.cycle ps [] [] → x.spnState ps ≠ 0 → s.cycleCauses ps [] = 0 →
      ∃ t, exec (.idle ps false) s = .next t ∧ t = (x.modSpn ps (fun y => idleAfter y.begun)).cycleDone ps ∧
        (t.spn ps).pos = (idleAfter (x.spn ps).begun).pos ∧ (t.spn ps).idleLeft = (idleAfter (x.spn ps).begun).idleLeft ∧
        (t.spn ps).phase = (x.spn ps).phase + 1)) ∧
  (∀ (s : State) (ps : Fin 18), s.nextKind ps 2 = true →
    let x := s.spn ps
    let w := x.word
    let u := 28 + slot w 57 56
    let entry := x.trips.find? (fun e => e.steer == u && e.tag == tagOf x (slot w 55 47))
    exec (.loop ps true) s = .next (s.badStrand ps) ∧
    (s.drainStops ps = true → exec (.loop ps false) s = .next (s.reachPoint ps)) ∧
    (s.drainStops ps = false → slot w 58 58 = 0 → slot w 31 0 ≠ 0 →
      Runs (.loop ps false) s [.spns] (fun t => (t.spn ps).pos = x.pos + 1 ∧ (t.spn ps).trips = x.trips ∧
        ∃ l, (t.spn ps).loops = l :: x.loops ∧ l.trip = BitVec.ofNat 32 (slot w 31 0) ∧ l.iter = 0 ∧ l.start = x.pos + 1 ∧ l.len = slot w 46 32)) ∧
    (s.drainStops ps = false → slot w 58 58 = 0 → slot w 31 0 = 0 → Runs (.loop ps false) s [.spns] (fun t => t.spn ps = x.next (1 + slot w 46 32))) ∧
    (∀ e, s.drainStops ps = false → slot w 58 58 = 1 → entry = some e → e.count ≠ 0 →
      Runs (.loop ps false) s [.spns] (fun t => (t.spn ps).pos = x.pos + 1 ∧ (t.spn ps).trips = x.trips.erase e ∧
        ∃ l, (t.spn ps).loops = l :: x.loops ∧ l.trip = e.count ∧ l.iter = 0 ∧ l.start = x.pos + 1 ∧ l.len = slot w 46 32)) ∧
    (∀ e, s.drainStops ps = false → slot w 58 58 = 1 → entry = some e → e.count = 0 →
      Runs (.loop ps false) s [.spns] (fun t => t.spn ps = ({ x with trips := x.trips.erase e } : Spn).next (1 + slot w 46 32))) ∧
    (s.drainStops ps = false → slot w 58 58 = 1 → entry = none →
      exec (.loop ps false) s = .next (s.holdTick ps (hSTEER_WAIT ||| s.cycleCauses ps []) [] []))) ∧
  (∀ (s : State) (ps : Fin 18), s.Inv → s.nextKind ps 3 = true →
    exec (.sectionEnd ps true) s = .next (s.badStrand ps) ∧
    Runs (.sectionEnd ps false) s [.regs, .spns] (fun t =>
      t.spn ps = { s.spn ps with nextSect := slot (s.spn ps).word 23 0, pos := (s.spn ps).pos + 1, load := .draining } ∧
        t.spnState ps = (if s.spnState ps = 3 then 3 else 4) ∧ s.RegsBut t [Reg.SPN_STATE ps])) ∧
  (∀ (s : State) (ps : Fin 18) (b : Bool), s.drainsNow ps = true → (s.spn ps).drained (s.gen ps) = false →
    ((s.spn ps).load = .draining → exec (.sectionEnd ps b) s = .next (s.drainTick ps)) ∧
    ((s.spn ps).load = .ending → exec (.contextEnd ps b) s = .next (s.drainTick ps))) ∧
  (∀ (s : State) (ps : Fin 18) (f : Flips) (j : Slot), s.Inv → s.nextKind ps 4 = true → s.rd64 (Reg.SPN_STEP_LO ps) + 1 < 2 ^ 64 → s.runningSlot = some j →
    ((s.wr64 (Reg.SPN_STEP_LO ps) (s.rd64 (Reg.SPN_STEP_LO ps) + 1)).modSpn ps (fun x => x.next 1)).leastStep j ≤ j.step.toNat →
    Runs (.step ps f false) s [.regs, .spns] (fun t => t.rd64 (Reg.SPN_STEP_LO ps) = s.rd64 (Reg.SPN_STEP_LO ps) + 1 ∧
      t.spn ps = (s.spn ps).next 1 ∧ s.RegsBut t [Reg.SPN_STEP_LO ps, Reg.SPN_STEP_LO ps + 4])) ∧
  (∀ (s : State) (ps : Fin 18) (f : Flips) (j : Slot), s.nextKind ps 4 = true → s.rd64 (Reg.SPN_STEP_LO ps) + 1 < 2 ^ 64 → s.runningSlot = some j →
    let x := (s.wr64 (Reg.SPN_STEP_LO ps) (s.rd64 (Reg.SPN_STEP_LO ps) + 1)).modSpn ps (fun x => x.next 1)
    j.step.toNat < x.leastStep j → exec (.step ps f false) s = .next (x.advanceStep f)) ∧
  (∀ (s : State) (ps : Fin 18), s.nextKind ps 5 = true →
    exec (.contextEnd ps true) s = .next (s.badStrand ps) ∧
    ∃ t, exec (.contextEnd ps false) s = .next t ∧ t = ((s.endMarks ps).closeQueues ps s.runCtx).modSpn ps (fun x => { x with load := .ending }) ∧
      (t.spn ps).load = .ending ∧ (t.spn ps).outq = (s.spn ps).outq ∧ (t.spn ps).store = (s.spn ps).store ∧ t.mem = s.mem) ∧
  (∀ (s : State) (ps : Fin 18) (f : Flips) (b : Bool), s.strandRuns ps = true → (s.spn ps).idleLeft = 0 →
    ((s.spn ps).kind ≠ some 0 → exec (.exec ps b f) s = .next s) ∧ ((s.spn ps).kind ≠ some 1 → exec (.idle ps b) s = .next s) ∧
    ((s.spn ps).kind ≠ some 2 → exec (.loop ps b) s = .next s) ∧ ((s.spn ps).kind ≠ some 3 → exec (.sectionEnd ps b) s = .next s) ∧
    ((s.spn ps).kind ≠ some 4 → exec (.step ps f b) s = .next s) ∧ ((s.spn ps).kind ≠ some 5 → exec (.contextEnd ps b) s = .next s))

/-- Section ends, section loads and forced loads (R97 to R101). -/
def Obligations.SectionLoadsComplete : Prop :=
  (∀ (s : State) (ps : Fin 18), s.Inv → (s.spn ps).drained (s.gen ps) = true → s.drainsNow ps = true →
    ((s.spn ps).load = .draining → s.spnState ps ≠ 3 → Runs (.sectionDrained ps) s [.regs, .spns] (fun t =>
      t.spn ps = { ((s.spn ps).leftOver (s.gen ps)).1 with load := .waiting } ∧ (t.spn ps).store = [] ∧
        (∀ e ∈ (t.spn ps).sluice, e.gen ≠ s.gen ps) ∧ s.RegsBut t [Reg.SPN_FLUSH_CNT ps] ∧
        t.rf (Reg.SPN_FLUSH_CNT ps) 31 16 = min (s.rf (Reg.SPN_FLUSH_CNT ps) 31 16 + ((s.spn ps).leftOver (s.gen ps)).2) 0xFFFF)) ∧
    ((s.spn ps).load = .draining → s.spnState ps = 3 → ∃ t, exec (.sectionDrained ps) s = .next t ∧ t = (s.flushLeft ps).atBoundary ps ∧
      t.gen ps = s.gen ps + 1 ∧ (t.spn ps).load = .none ∧ t.rd (Reg.SPN_SECT ps) = (s.spn ps).nextSect % 2 ^ 32) ∧
    ((s.spn ps).load = .ending → Runs (.sectionDrained ps) s [.regs, .spns] (fun t => t.spnState ps = 0 ∧ t.rbit (Reg.SPN_STRAND ps) 6 = true ∧
      t.spn ps = { ((s.spn ps).leftOver (s.gen ps)).1 with load := .none, drain := none })) ∧
    ((s.spn ps).load = .none → exec (.sectionDrained ps) s = .next s)) ∧
  (∀ (s : State) (ps : Fin 18), ((s.spn ps).drained (s.gen ps) = false ∨ s.drainsNow ps = false) → exec (.sectionDrained ps) s = .next s) ∧
  (∀ (s x : State) (ps : Fin 18) (ready : Bool) (bad : Option (Fin 3 × Nat)) (f : Flips), s.spnState ps = 4 →
    x = (if ready then s.modSpn ps (fun x => { x with cfgReady := true }) else s) →
    let waits : Bool := match (s.spn ps).load with
      | .waiting => (s.spn ps).olderOps (s.gen ps) || s.rbit (Reg.SPN_SECT_CTL ps) 1
      | _ => decide ((s.spn ps).inFlight ≠ [])
    let sect : Nat := if (s.spn ps).load = .waiting then (s.spn ps).nextSect else 0
    (((s.spn ps).load = .waiting ∨ (s.spn ps).load = .start) →
      (waits = true → exec (.sectionLoadProceed ps f ready bad) s = .next (x.waitTick ps)) ∧
      (waits = false → bad = none → (x.spn ps).cfgReady = false → exec (.sectionLoadProceed ps f ready bad) s = .next (x.waitTick ps)) ∧
      (waits = false → bad = none → (x.spn ps).cfgReady = true →
        exec (.sectionLoadProceed ps f ready bad) s = .next (x.loadSection ps sect (s.gen ps + 1) f)) ∧
      (∀ b, waits = false → bad = some b → exec (.sectionLoadProceed ps f ready bad) s = .next (x.badBuffer ps b.1 b.2))) ∧
    ((s.spn ps).load = .none → exec (.sectionLoadProceed ps f ready bad) s = .next x)) ∧
  (∀ (s : State) (ps : Fin 18) (ready : Bool) (bad : Option (Fin 3 × Nat)) (f : Flips), s.spnState ps ≠ 4 →
    exec (.sectionLoadProceed ps f ready bad) s = .next s) ∧
  (∀ (s : State) (ps : Fin 18) (n p : Nat), s.Inv → (s.spnState ps = 1 ∨ s.spnState ps = 2 ∨ s.spnState ps = 4) → s.nextKind ps 3 = false →
    s.domOn (regDomain (Reg.SPN_SECT_CTL ps)) = true → (s.spn ps).nextSegment = some (n, p) →
    Runs (.spnSectCtlForce ps) s [.regs, .spns] (fun t => t.spnState ps = 4 ∧ (t.spn ps).load = .forced ∧ (t.spn ps).nextSect = n ∧ (t.spn ps).pos = p ∧
      (t.spn ps).store = [] ∧ (t.spn ps).links = [] ∧ (t.spn ps).pipe = [] ∧ (t.spn ps).sluice = [] ∧ (t.spn ps).loops = [] ∧ (t.spn ps).drain = none ∧
      (t.spn ps).inFlight = (s.spn ps).inFlight.filter (fun o => decide (o.kind ≠ .watch)) ∧
      t.rf (Reg.SPN_FLUSH_CNT ps) 15 0 = min (s.rf (Reg.SPN_FLUSH_CNT ps) 15 0 + (s.spn ps).flushAll.2) 0xFFFF ∧
      s.RegsBut t [Reg.SPN_FLUSH_CNT ps, Reg.SPN_STATE ps])) ∧
  (∀ (s : State) (ps : Fin 18), s.domOn (regDomain (Reg.SPN_SECT_CTL ps)) = true →
    ((s.spn ps).nextSegment = none ∨ s.spnState ps = 0 ∨ 5 ≤ s.spnState ps ∨ s.nextKind ps 3 = true) → exec (.spnSectCtlForce ps) s = .next s) ∧
  (∀ (s : State) (ps : Fin 18) (f : Flips), s.Inv → (s.spn ps).load = .forced → s.spnState ps = 4 → (s.spn ps).olderOps (s.gen ps) = false →
    let x := s.event 0x0313 (unitId 0 ps) 1 [(16, 4, (s.spn ps).flushed), (20, 1, (s.gen ps + 2).toNat)]
    ((s.spn ps).dump = false → exec (.forcedLoadResume ps f) s = .next (x.loadSection ps (s.spn ps).nextSect (s.gen ps + 2) f)) ∧
    ((s.spn ps).dump = true → Runs (.forcedLoadResume ps f) s [.regs, .log, .nodes, .spns, .irq, .logN] (fun t =>
      t.spnState ps = 0 ∧ t.gen ps = s.gen ps + 2 ∧ t.spn ps = { s.spn ps with load := .none, dump := false }))) ∧
  (∀ (s : State) (ps : Fin 18) (f : Flips), (s.spn ps).load = .forced → s.spnState ps = 4 → (s.spn ps).olderOps (s.gen ps) = true →
    exec (.forcedLoadResume ps f) s = .next (s.waitTick ps)) ∧
  (∀ (s : State) (ps : Fin 18) (v : Bool), s.Inv → s.domOn (regDomain (Reg.SPN_SECT_CTL ps)) = true →
    Runs (.stopAtEnd ps v) s [.regs] (fun t => t.rbit (Reg.SPN_SECT_CTL ps) 1 = v ∧
      (∀ b, b ≠ 1 → t.rbit (Reg.SPN_SECT_CTL ps) b = s.rbit (Reg.SPN_SECT_CTL ps) b) ∧ s.RegsBut t [Reg.SPN_SECT_CTL ps])) ∧
  (∀ (s : State) (ps : Fin 18) (v : Bool), s.domOn (regDomain (Reg.SPN_SECT_CTL ps)) = false →
    let x := s.addrError (0x5000000000 + Reg.SPN_SECT_CTL ps) 3 1 0
    exec (.spnSectCtlForce ps) s = .next x ∧ exec (.stopAtEnd ps v) s = .next x)

/-- Drains and restores (R103 to R109). -/
def Obligations.DrainsAndRestoresComplete : Prop :=
  (∀ (s : State) (ps : Fin 18) (why : DrainFor), s.Inv → (s.spn ps).drain = none → (s.spnState ps = 1 ∨ s.spnState ps = 2 ∨ s.spnState ps = 4) →
    Runs (.drainRequest ps why) s [.regs, .spns] (fun t =>
      t.spn ps = { s.spn ps with drain := some { why := why, scan := (s.spn ps).cfg.dmode && !s.nextKind ps 3, asked := s.now, point := false, ready := false } } ∧
        t.spnState ps = (if s.spnState ps = 4 then 4 else 3) ∧ s.RegsBut t [Reg.SPN_STATE ps] ∧ ∀ q, q ≠ ps.val → t.spn q = s.spn q)) ∧
  (∀ (s : State) (ps : Fin 18) (why : DrainFor) (d : Drain), (s.spn ps).drain = some d → exec (.drainRequest ps why) s = .next s) ∧
  (∀ (s : State) (ps : Fin 18) (d : Drain) (f : Flips), s.Inv → s.spnState ps = 3 → (s.spn ps).drain = some d →
    (s.drainStops ps = true → ∃ t, exec (.drainPointReached ps) s = .next t ∧ t = s.reachPoint ps ∧ (t.spn ps).drain = some { d with point := true }) ∧
    (s.drainStops ps = false → exec (.drainPointReached ps) s = .next s) ∧
    (d.point = true → d.scan = false → d.ready = false → (s.spn ps).drained (s.gen ps) = true →
      ∃ t, exec (.runEmptyDrainDone ps f) s = .next t ∧
        t = ((if (s.spn ps).fresh then s else s.flushLeft ps).saveSpindle ps false f).modSpn ps (fun x => { x with drain := some { d with ready := true } }) ∧
        (t.spn ps).drain = some { d with ready := true }) ∧
    (d.point = true → d.scan = false → d.ready = false → (s.spn ps).drained (s.gen ps) = false → exec (.runEmptyDrainDone ps f) s = .next (s.drainTick ps)) ∧
    (d.point = false → exec (.runEmptyDrainDone ps f) s = .next s) ∧
    (d.point = false → d.scan = false → s.rd (Reg.SPN_DRAIN_CTL ps) ≤ (s.now - d.asked).toNat → s.EventRoom 0x0314 (unitId 0 ps) →
      Runs (.drainLimitExpiry ps) s [.regs, .log, .nodes, .spns, .irq, .logN] (fun t =>
        t.spn ps = { s.spn ps with drain := some { d with scan := true } } ∧
          t.Recorded (s.eventRec 0x0314 (unitId 0 ps) 1 [(17, 4, s.rd (Reg.SPN_SECT ps))]))) ∧
    ((s.now - d.asked).toNat < s.rd (Reg.SPN_DRAIN_CTL ps) → exec (.drainLimitExpiry ps) s = .next s) ∧
    (d.scan = true → d.ready = false → (s.spn ps).inFlight = [] →
      ∃ t, exec (.scanDrainOpsDone ps f) s = .next t ∧
        t = (s.saveSpindle ps true f).modSpn ps (fun x => { x with drain := some { d with ready := true } }) ∧ (t.spn ps).drain = some { d with ready := true }) ∧
    (d.scan = true → d.ready = false → (s.spn ps).inFlight ≠ [] → exec (.scanDrainOpsDone ps f) s = .next (s.waitTick ps)) ∧
    (d.ready = true → Runs (.drainSaveWritten ps) s [.regs, .spns] (fun t => t.spn ps = { s.spn ps with drain := none } ∧ t.spnState ps = 0 ∧
      t.rf (Reg.SPN_STATE ps) 15 8 = 0 ∧ t.gen ps = s.gen ps ∧ s.RegsBut t [Reg.SPN_STATE ps])) ∧
    (d.ready = false → exec (.drainSaveWritten ps) s = .next s)) ∧
  (∀ (s : State) (ps : Fin 18) (f : Flips) (j : Slot) (l : Nat), s.Inv → s.runningSlot = some j → s.logicalOf ps = some l → s.spnState ps = 0 →
    j.st = .running → (tget {} j.saved l).started = true → (s.spn ps).load = .none → s.rbit (Reg.SPN_STRAND ps) 6 = false → s.seqr.giving = none →
    s.hlth.moves.all (fun m => m.src != ps.val) = true →
    let r := s.devRead .sequencer (saveBase j.job l) 64 f
    (r.2.1 = 0 → headerBad r.1 l = none → ∃ t, exec (.spindleRestore ps f) s = .next t ∧
      t = (r.2.2.2.modSpn ps (fun x => { x with load := .restore })).setSpnState ps 3 ∧ (t.spn ps).load = .restore ∧ t.spnState ps = 3) ∧
    (∀ o, r.2.1 = 0 → headerBad r.1 l = some o → exec (.spindleRestore ps f) s = .next (r.2.2.2.spnFault ps 0x0316 0 0 [(17, 1, 1), (18, 4, o)])) ∧
    (r.2.1 ≠ 0 → exec (.spindleRestore ps f) s = .next (r.2.2.2.spnFault ps 0x0316 0 0
      [(17, 1, 2), (18, 4, 8 * ((List.range 8).find? (fun i => r.2.1.testBit i)).getD 0)]))) ∧
  (∀ (s : State) (ps : Fin 18) (f : Flips) (j : Slot) (l : Nat), s.runningSlot = some j → s.logicalOf ps = some l →
    ((s.spn ps).load = .restore → s.spnState ps = 3 → (s.spn ps).inFlight = [] → exec (.spindleRestoreProceed ps f) s = .next (s.restoreFrom ps l j f)) ∧
    ((s.spn ps).load = .restore → s.spnState ps = 3 → (s.spn ps).inFlight ≠ [] → exec (.spindleRestoreProceed ps f) s = .next (s.waitTick ps)) ∧
    (((s.spn ps).load ≠ .restore ∨ s.spnState ps ≠ 3) → exec (.spindleRestoreProceed ps f) s = .next s)) ∧
  (∀ (s : State) (ps : Fin 18) (f : Flips), s.runningSlot = none → exec (.spindleRestore ps f) s = .next s ∧ exec (.spindleRestoreProceed ps f) s = .next s)
/-- Positions and arrivals at a spindle (R81, R87, R95, R147, R259). -/
def Obligations.SpindleArrivalsComplete : Prop :=
  (∀ (s : State) (ps : Fin 18) (w : CtlWay) (l : Nat), s.logicalOf ps = some l → w.bad = none → 256 ≤ s.rd64 (Reg.SPN_SKC_LO ps) →
    Runs (.positionReport ps w) s [.regs, .seqr] (fun t =>
      tget 0 t.seqr.positions l = s.rd64 (Reg.SPN_SKC_LO ps) - s.rd64 (Reg.SPN_SKC_LO ps) % 256 ∧ s.RegsBut t [Reg.CNET_CE, Reg.SEAM_CE 2])) ∧
  (∀ (s : State) (ps : Fin 18) (w : CtlWay) (m : Nat), s.Inv → s.minPos = some m → w.bad = none →
    Runs (.minposBroadcast ps w) s [.regs, .spns] (fun t => t.spn ps = { s.spn ps with minpos := BitVec.ofNat 64 m } ∧
      t.rd64 Reg.SKN_MINPOS_LO = m % 2 ^ 64 ∧ ∀ q, q ≠ ps.val → t.spn q = s.spn q)) ∧
  (∀ (s : State) (ps : Fin 18) (w : CtlWay) (n : Fin 39), w.bad = some n → s.logicalOf ps ≠ none →
    exec (.positionReport ps w) s = .next (s.ctlWay 1 w) ∧ exec (.minposBroadcast ps w) s = .next (s.ctlWay 1 w)) ∧
  (∀ (s : State) (ps : Fin 18) (u : Fin 51) (port : Fin 4) (fl : Flit), s.Inv → (s.strandRuns ps = true ∨ s.drainsNow ps = true) →
    (accepted (s.gen ps) fl.gen = true → (s.spn ps).store.any (fun y => y.unit == u.val && y.port == port.val && y.flit.tag == fl.tag) = false →
      (s.spn ps).store.countP (fun y => y.unit == u.val) < 16 →
      Runs (.tokenArrival ps u port fl none) s [.regs, .spns] (fun t =>
        t.spn ps = { s.spn ps with store := (s.spn ps).store ++ [{ unit := u, port := port, flit := fl }] } ∧ s.RegsBut t [Reg.SPN_MS_HWM ps])) ∧
    (accepted (s.gen ps) fl.gen = false → ∀ w, Runs (.tokenArrival ps u port fl w) s [.regs, .spns] (fun t =>
      t.spn ps = { s.spn ps with staleSeen := (s.spn ps).staleSeen + 1 } ∧ t.rd (Reg.SPN_STALE_CNT ps) = min (s.rd (Reg.SPN_STALE_CNT ps) + 1) 0xFFFFFFFF ∧
      s.RegsBut t [Reg.SPN_STALE_CNT ps])) ∧
    (∀ w, accepted (s.gen ps) fl.gen = true → (s.spn ps).store.any (fun y => y.unit == u.val && y.port == port.val && y.flit.tag == fl.tag) = true →
      exec (.tokenArrival ps u port fl w) s = .next (s.spnFault ps 0x0311 u fl.tag.toNat [(16, 1, u), (17, 1, port), (18, 1, fl.tag.toNat)])) ∧
    (accepted (s.gen ps) fl.gen = true → (s.spn ps).store.any (fun y => y.unit == u.val && y.port == port.val && y.flit.tag == fl.tag) = false →
      16 ≤ (s.spn ps).store.countP (fun y => y.unit == u.val) →
      exec (.tokenArrival ps u port fl none) s = .next ((s.storeMarks ps).spnFault ps 0x0310 u fl.tag.toNat [(16, 1, u), (17, 1, port), (18, 1, fl.tag.toNat)]))) ∧
  (∀ (s : State) (ps : Fin 18) (op idx : Nat) (ctl : Bool) (data : List Byte) (poison : Nat) (o : OpEnt), s.Inv →
    (s.spn ps).ops.find? (fun o => o.id == op && decide (o.kind = .read ∨ o.kind = .atom ∨ o.kind = .recv)) = some o → s.absorbCause ps = 0 → accepted (s.gen ps) o.resGen = true →
    let x := s.takeLoad (.resp { dst := .spindle ps, op := op, data := data, poison := poison })
    Runs (.sluiceFill ps op idx ctl data poison) s [.out, .spns, .ring] (fun t => t.out = x.out ∧ t.ring = x.ring ∧
      (t.spn ps).sluice = fillEntry (s.spn ps).sluice op (o.tag + BitVec.ofNat 8 idx) (dataFlit data poison ctl) ∧
      (t.spn ps).ops = (if o.kind = .atom then (s.spn ps).ops else ((s.spn ps).opAnswered op).ops) ∧ (t.spn ps).store = (s.spn ps).store)) ∧
  (∀ (s : State) (ps : Fin 18) (op idx : Nat) (ctl bad : Bool) (old : DWord) (data : List Byte) (poison : Nat), s.Inv → (∀ o ∈ (s.spn ps).ops, o.id ≠ op) →
    Runs (.sluiceFill ps op idx ctl data poison) s [.regs, .out, .ring] (fun t => t.rd Reg.RING_LATE = min (s.rd Reg.RING_LATE + 1) 0xFFFFFFFF) ∧
    Runs (.completionAck ps op bad old) s [.regs] (fun t => t.rd Reg.RING_LATE = min (s.rd Reg.RING_LATE + 1) 0xFFFFFFFF)) ∧
  (∀ (s : State) (ps : Fin 18) (op : Nat) (old : DWord) (o : OpEnt), s.Inv →
    (s.spn ps).ops.find? (fun o => o.id == op && decide (o.kind = .write ∨ o.kind = .atom ∨ o.kind = .jobWrite)) = some o → s.absorbCause ps = 0 → o.kind = .write →
    (s.spn ps).load ≠ .start → (∀ p ∈ (s.spn ps).ops, p.kind ≠ .watch) → (s.spn ps).counter o.cnt + 1 < 2 ^ 32 →
    Runs (.completionAck ps op false old) s [.spns] (fun t =>
      tget 0 (t.spn ps).counters o.cnt = BitVec.ofNat 32 ((s.spn ps).counter o.cnt + 1) ∧ (t.spn ps).ops = ((s.spn ps).opAnswered op).ops ∧
      (t.spn ps).sluice = (s.spn ps).sluice)) ∧
  (∀ (s : State) (ps : Fin 18) (r : MemReq) (f : Flips),
    let serves (y : State) : State := if y.strayReq ps r then y.serveStray ps r else y.serveExternal r f
    (s.bankReq ps r = true → s.mayServe r = true → exec (.bankExternalAccess ps r f) s = .next (serves s)) ∧
    ((s.bankReq ps r = false ∨ s.mayServe r = false) → exec (.bankExternalAccess ps r f) s = .next s) ∧
    (∀ n, s.bankReq ps r = true → s.mayServe r = true → 256 ≤ n → s.strandRuns ps = false → exec (.bankSteal ps r n f) s = .next (serves s)) ∧
    (∀ n, s.bankReq ps r = true → s.mayServe r = true → 256 ≤ n → s.strandRuns ps = true →
      let x := s.spn ps
      exec (.bankSteal ps r n f) s = .next (serves
        (s.holdTick ps (hBANK_STEAL ||| s.cycleCauses ps x.nextSlots) (stallSends x x.nextSlots) (stallRecvs x (s.gen ps) x.nextSlots)))) ∧
    (∀ n, (n < 256 ∨ s.bankReq ps r = false ∨ s.mayServe r = false) → exec (.bankSteal ps r n f) s = .next s)) ∧
  (∀ (s : State) (ps : Fin 18) (bank : Fin 16) (line : Fin 12288) (f : Flips), (∀ j, j < 32 → flipOf f (sramKey ps (0x300000 * bank + 256 * line) + 8 * j) = 0) →
    exec (.sramScrub ps bank line f) s = .next s)

/-- CTX_LOAD_VALIDATED, QUANTUM_EXPIRY and CONTEXT_SWITCH_DRAINED (R149 to R152, R364, R535). -/
def Obligations.ContextsComplete : Prop :=
  (∀ (s : State) (f : Flips), s.cq.loading = none → exec (.ctxLoadValidated f) s = .next s) ∧
  (∀ (s : State) (f : Flips) (a : Nat), s.cq.loading = some a →
    let d := s.devRead .sequencer a 1024 f
    let x := d.2.2.2
    let j := jobOf d.1
    ((x.devState ≠ stService ∨ x.rbit Reg.CMD_STRAPS 14 = true ∨ x.numRev = 0) → exec (.ctxLoadValidated f) s = .next (x.loadEnds stBAD_STATE [])) ∧
    (x.devState = stService → x.rbit Reg.CMD_STRAPS 14 = false → x.numRev ≠ 0 →
      (x.freeSlot = none → exec (.ctxLoadValidated f) s = .next (x.loadEnds stBUSY [])) ∧
      (∀ n, x.freeSlot = some n → x.tstrictRuns = false →
        (d.2.1 ≠ 0 → exec (.ctxLoadValidated f) s = .next (x.loadEnds stHW_FAULT [])) ∧
        (d.2.1 = 0 → descOk d.1 = false → exec (.ctxLoadValidated f) s = .next (x.loadEnds stOUT_OF_RANGE [])) ∧
        (d.2.1 = 0 → descOk d.1 = true → (j.recLen = 0 ∨ x.rbit Reg.SEC_DBG 2 = false) → j.img % 4096 = 0 → inDram j.img j.len = true → j.len ≤ 0x40000000 →
          j.chtab = 0 → sealsOk [] j.seals = true →
          let r := x.devRead .sequencer j.img j.len f
          r.2.1 = 0 → imageBad r.1 = none → (skHead r.1).lcount ≤ r.2.2.2.lCount → ((skHead r.1).numrev = 0 ∨ (skHead r.1).numrev = r.2.2.2.numRev) →
          tableBad (List.replicate (1024 * (skHead r.1).lcount) 0) r.1 (skHead r.1).lcount r.2.2.2.coord = none →
          exec (.ctxLoadValidated f) s = .next (r.2.2.2.accept n j r.1 (List.replicate (1024 * (skHead r.1).lcount) 0)))))) ∧
  (∀ (s : State) (j : Slot), s.runningSlot = some j → j.st = .running → j.tstrict = false → s.quarActive = false → s.rd Reg.SKN_QUANTUM ≠ 0 → s.seqr.giving = none →
    (s.rd Reg.SKN_QUANTUM ≤ (s.now - j.startTick).toNat → Runs .quantumExpiry s [.regs, .spns, .seqr] (fun t =>
      t.seqr.giving = some .quantum ∧ t.seqr.target = none ∧ t.seqr.slots = s.seqr.slots)) ∧
    ((s.now - j.startTick).toNat < s.rd Reg.SKN_QUANTUM → exec .quantumExpiry s = .next s)) ∧
  (∀ s : State, s.runCtx = 0 → exec .quantumExpiry s = .next s) ∧
  (∀ (s : State) (f : Flips), s.runCtx = 0 → s.seqr.target = none → exec (.contextSwitchDrained f) s = .next (s.finish .giveWay stBAD_STATE [])) ∧
  (∀ (s : State) (n : Nat) (j : Slot) (f : Flips), s.runCtx = 0 → s.seqr.target = some n → s.devState = stService → s.readyAt n = true → s.slotOf n = some j →
    j.lcount ≤ s.lCount → j.parkLost = false →
    (List.range (j.image.2 / 8)).find? (fun i => (s.devRead .sequencer j.image.1 j.image.2 f).2.1.testBit i) = none → s.clk.realign = false → (∀ ps ∈ s.physList j.lcount, s.spnState ps = 0 ∧ (s.spn ps).dump = false) →
    (j.tstrict = true → s.rbit Reg.DET_ALIGN 0 = true) →
    exec (.contextSwitchDrained f) s = .next (let t := if j.started then s.startAgain n j else s.startFirst n j
      t.finish .giveWay stOK (t.startedReply j.ctx.toNat))) ∧
  (∀ (s : State) (j : Slot) (f : Flips), s.runningSlot = some j → j.st ≠ .faulted →
    (((List.range j.lcount).filter s.lmapValid).all s.endedAt = true → exec (.contextSwitchDrained f) s = .next ((s.endContext j).startRun f)) ∧
    (((List.range j.lcount).filter s.lmapValid).all s.endedAt = false → s.seqr.giving = none → exec (.contextSwitchDrained f) s = .next s) ∧
    (∀ w, ((List.range j.lcount).filter s.lmapValid).all s.endedAt = false → s.seqr.giving = some w →
      (((List.range j.lcount).filter s.lmapValid).all (fun l => s.endedAt l || s.savedAway j l) = true →
        exec (.contextSwitchDrained f) s = .next ((s.suspend j (if w = .quantum then 3 else 2)).startRun f)) ∧
      (((List.range j.lcount).filter s.lmapValid).all (fun l => s.endedAt l || s.savedAway j l) = false →
        exec (.contextSwitchDrained f) s = .next (s.drainAll j)))) ∧
  (∀ (s : State) (j : Slot) (f : Flips), s.runningSlot = some j → j.st = .faulted → exec (.contextSwitchDrained f) s = .next ((s.leave 1).startRun f))
/-- REALIGNMENT, DET_ALIGN_REALIGN, SEAL_DIGEST_DONE and RECORD_SIGNED (R362, R367, R373). -/
def Obligations.RecordsAndAlignmentComplete : Prop :=
  (∀ s : State, s.Inv → s.clk.realign = true → Runs .realignment s [.regs, .clk] (fun t => t.clk = { s.clk with realign := false } ∧
    t.rbit Reg.DET_ALIGN 0 = true ∧ s.RegsBut t [Reg.DET_ALIGN])) ∧
  (∀ s : State, s.clk.realign = false → exec .realignment s = .next s) ∧
  (∀ s : State, s.domOn (regDomain Reg.DET_ALIGN) = true → s.runCtx = 0 →
    Runs .detAlignRealign s [.clk] (fun t => t.clk = { s.clk with realign := true })) ∧
  (∀ s : State, s.domOn (regDomain Reg.DET_ALIGN) = true → s.runCtx ≠ 0 → exec .detAlignRealign s = .next s) ∧
  (∀ s : State, s.domOn (regDomain Reg.DET_ALIGN) = false → exec .detAlignRealign s = .next (s.addrError (0x5000000000 + Reg.DET_ALIGN) 3 1 0)) ∧
  (∀ (s : State) (n : Fin 16) (id : Nat) (f : Flips) (j : Slot) (e : SealEnt), s.Inv → s.slotOf n = some j → j.seals.find? (fun x => x.id == id && !x.done) = some e →
    j.run = none → j.st ≠ .validating →
    let r := s.devRead .det e.lo (e.hi - e.lo) f
    ∃ t k, exec (.sealDigestDone n id f) s = .next t ∧ t.slotOf n = some k ∧
      k.seals = j.seals.map (fun y => if y = e then { e with digest := sha384 r.1, done := true } else y) ∧ k.st = j.st ∧ k.recs = j.recs ∧
      t.mem = r.2.2.2.mem) ∧
  (∀ (s : State) (n : Fin 16) (id : Nat) (f : Flips), s.slotOf n = none → exec (.sealDigestDone n id f) s = .next s) ∧
  (∀ (s : State) (n : Fin 16) (j : Slot) (e : RecEnt), s.Inv → s.goneUnsigned n = none → s.slotOf n = some j → j.recs.find? (fun x => !x.signed) = some e →
    ∃ t k, exec (.recordSigned n) s = .next t ∧ t.slotOf n = some k ∧ k.recs = signIn j.recs e (e.bytes ++ s.sign e.bytes) ∧ k.st = j.st ∧ k.ctx = j.ctx) ∧
  (∀ (s : State) (n : Fin 16), s.goneUnsigned n = none → s.slotOf n = none → exec (.recordSigned n) s = .next s)

/-- Reads, writes and atomics of one stored word (R145, R228 to R233). -/
def Obligations.MemoryServesWords : Prop :=
  ∀ (s : State) (p a ch ca op : Nat), s.Inv → a % 8 = 0 → s.loc a = .dram ch ca → s.chanReady ch = true → ca % 8 = 0 → ca < 2 ^ 31 → ch < 132 →
    let k := dramKey ch ca
    (s.serve { src := .spindle p, op := op, kind := .read, addr := a, len := 8, data := [], poison := 0 } []).1 =
      { dst := .spindle p, op := op, data := if s.poisonAt k then List.replicate 8 0 else s.bytesAt k 8, poison := if s.poisonAt k then 1 else 0 } ∧
    (∀ j, (s.serve { src := .spindle p, op := op, kind := .read, addr := a, len := 8, data := [], poison := 0 } []).2.byteAt j = s.byteAt j) ∧
    (∀ (l : List Byte) (bad : Bool), l.length = 8 → s.protHit a 8 = none →
      let r := s.serve { src := .spindle p, op := op, kind := .write, addr := a, len := 8, data := l, poison := if bad then 1 else 0 } []
      r.1 = { dst := .spindle p, op := op, data := [], poison := 0 } ∧ (∀ i, i < 8 → r.2.byteAt (k + i) = if bad then 0 else (l[i]?).getD 0) ∧
        r.2.poisonAt k = bad ∧ s.BytesBut r.2 k 8 ∧ ∀ j, j < k ∨ k + 8 ≤ j → r.2.poisonAt j = s.poisonAt j) ∧
    (∀ (aop x y : Nat), x < 2 ^ 64 → y < 2 ^ 64 → s.protHit a 8 = none →
      let r := s.serve { src := .spindle p, op := op, kind := .atom aop, addr := a, len := 16, data := toLE 8 x ++ toLE 8 y, poison := 0 } []
      (s.poisonAt k = false → r.1.data = toLE 8 (leNat (s.bytesAt k 8)) ∧ r.1.poison = 0 ∧
        r.2.bytesAt k 8 = toLE 8 (atomNew aop (leNat (s.bytesAt k 8)) x y) ∧ s.BytesBut r.2 k 8) ∧
      (s.poisonAt k = true → r.1.poison = 1 ∧ ∀ j, r.2.byteAt j = s.byteAt j))
/-- Commands of the memory channels (R226 to R249). -/
def Obligations.ChannelsOfMemoryComplete : Prop :=
  (∀ (s : State) (r : MemReq) (e : LinkErrs) (f : Flips),
    ((s.dramReq r = false ∨ s.mayServe r = false ∨ s.portOpen r = false ∨ s.bankHeld r = true) → exec (.dramRequest r e f) s = .next s) ∧
    (s.overSeam r = true → 4 ∈ s.ring.lost → exec (.dramRequest r e f) s = .next s) ∧
    (s.dramReq r = true → s.mayServe r = true → s.portOpen r = true → s.bankHeld r = false →
      (s.overSeam r = false → exec (.dramRequest r e f) s = .next ((s.serveExternal r f).chanReports)) ∧
      (s.overSeam r = true → 4 ∉ s.ring.lost → exec (.dramRequest r e f) s = .next ((s.serveMarked r f e).chanReports)))) ∧
  (∀ (s : State) (ch : Fin 132) (f : Flips) (k : RepairCopy) (l : List RepairCopy), (s.chan ch).copies = k :: l →
    (s.chanReady ch = true → Runs (.repairCopyDone ch f) s [.regs, .out, .log, .nodes, .mem, .poison, .chans, .irq, .fab, .hlth, .flash, .logN, .cq]
      (fun t => (t.chan ch).copies = l)) ∧
    (s.chanReady ch = false → exec (.repairCopyDone ch f) s = .next s) ∧
    (10000 ≤ (s.now - k.start).toNat → ∃ t, exec (.repairCopyTimeout ch) s = .next t ∧ (t.chan ch).copies = l ∧ t.mem = s.mem ∧
      t = ((s.dropCopy ch).event 0x0205 (rowUnit ch k.layer k.bank) 2 [(16, 2, k.row), (18, 1, k.bank), (19, 1, 3)]).repairDone ch k stHW_FAULT) ∧
    ((s.now - k.start).toNat < 10000 → exec (.repairCopyTimeout ch) s = .next s)) ∧
  (∀ (s : State) (ch : Fin 132) (f : Flips), (s.chan ch).copies = [] → exec (.repairCopyDone ch f) s = .next s ∧ exec (.repairCopyTimeout ch) s = .next s) ∧
  (∀ (s : State) (ch : Fin 132) (f : Flips), s.Inv → s.chanReady ch = true → s.rbit (Reg.MEM_CH_CTL ch) 1 = true →
    (s.tstrictRuns = false ∨ 128 ≤ ch.val) → (s.chan ch).copying (s.rd (Reg.MEM_SCRUB_POS ch)) = true → (∀ c, (s.chan c).report = false) →
    Runs (.scrubStep ch f) s [.regs] (fun t => t.rd (Reg.MEM_SCRUB_POS ch) = (s.rd (Reg.MEM_SCRUB_POS ch) + 256) % chanSize ∧
      s.RegsBut t [Reg.MEM_SCRUB_POS ch])) ∧
  (∀ (s : State) (ch : Fin 132) (f : Flips), s.chanReady ch = true → s.rbit (Reg.MEM_CH_CTL ch) 1 = true → (s.tstrictRuns = false ∨ 128 ≤ ch.val) →
    (s.chan ch).copying (s.rd (Reg.MEM_SCRUB_POS ch)) = false →
    exec (.scrubStep ch f) s = .next (let r := State.readWords 32 s (dramKey ch (s.rd (Reg.MEM_SCRUB_POS ch))) srcScrub f
      ((r.2.2.2.autoRepairs r.2.2.1).wr (Reg.MEM_SCRUB_POS ch) ((s.rd (Reg.MEM_SCRUB_POS ch) + 256) % chanSize)).chanReports)) ∧
  (∀ (s : State) (ch : Fin 132) (f : Flips), s.chanReady ch = false ∨ s.rbit (Reg.MEM_CH_CTL ch) 1 = false ∨ (s.tstrictRuns = true ∧ ch.val < 128) →
    exec (.scrubStep ch f) s = .next s) ∧
  (∀ (s : State) (ch : Fin 132), (s.rf (Reg.MEM_CH_STAT ch) 2 0 = 2 ∨ s.rf (Reg.MEM_CH_STAT ch) 2 0 = 3) →
    Runs (.refresh ch) s [.chans] (fun t => t.chan ch = { s.chan ch with refBank := ((s.chan ch).refBank + 1) % 64 } ∧ ∀ c, c ≠ ch.val → t.chan c = s.chan c)) ∧
  (∀ (s : State) (k : Fin 2) (raw : List Int), (∀ v ∈ raw, -40 ≤ v ∧ v < 150) →
    Runs (.stackSensorRead k raw) s [.regs, .freeN, .log, .nodes, .seqr, .chans, .irq, .clk, .pwr, .logN] (fun t =>
      ∀ i v, i < 4 → raw[i]? = some v → tget [] (t.chan (64 * k)).temps i = lastThree (tget [] (s.chan (64 * k)).temps i) v)) ∧
  (∀ (s : State) (ch : Fin 132) (b : DWord), (s.chan ch).srStart = some b →
    (s.rf (Reg.MEM_CH_STAT ch) 2 0 = 3 → 10000 ≤ (s.now - b).toNat →
      ∃ t, exec (.selfRefreshExitTimeout ch) s = .next t ∧ t = (s.setChan ch { s.chan ch with srStart := none }).fenceChan ch 2 ∧
        (t.chan ch).srStart = none ∧ t.mem = s.mem) ∧
    ((s.now - b).toNat < 10000 → exec (.selfRefreshExitTimeout ch) s = .next s)) ∧
  (∀ (s : State) (p : Fin 4) (n : Fin 48) (v : Word), s.Inv → s.domOn (regDomain (memStripe p n)) = true →
    (s.anyResident = false → Runs (.memStripeWrite p n v) s [.regs] (fun t =>
      t.rd (memStripe p n) = stripeValue (s.rd (memStripe p n)) v.toNat ∧ s.RegsBut t [memStripe p n])) ∧
    (s.anyResident = true → s.EventRoom 0x020B (unitId 2 p) → Runs (.memStripeWrite p n v) s [.regs, .log, .nodes, .irq, .logN] (fun t =>
      t.rd (memStripe p n) = s.rd (memStripe p n) ∧ t.Recorded (s.eventRec 0x020B (unitId 2 p) 1 [(16, 1, n)])))) ∧
  (∀ (s : State) (p : Fin 4) (n : Fin 48) (v : Word), s.domOn (regDomain (memStripe p n)) = false →
    exec (.memStripeWrite p n v) s = .next (s.addrError (0x5000000000 + memStripe p n) 3 1 0)) ∧
  (∀ (s : State) (ch : Fin 132), s.domOn (regDomain (Reg.MEM_CH_CTL ch)) = false →
    exec (.memChFence ch) s = .next (s.addrError (0x5000000000 + Reg.MEM_CH_CTL ch) 3 1 0)) ∧
  (∀ (s : State) (ch : Fin 132), s.Inv → s.domOn (regDomain (Reg.MEM_CH_CTL ch)) = true →
    ((s.rf (Reg.MEM_CH_STAT ch) 2 0 = 1 ∨ s.rf (Reg.MEM_CH_STAT ch) 2 0 = 2) → Runs (.memChFence ch) s [.regs, .log, .nodes, .irq, .logN] (fun t =>
      t = s.fenceChan ch 1 ∧ t.rf (Reg.MEM_CH_STAT ch) 2 0 = 4 ∧ t.chanReady ch = false)) ∧
    (¬ (s.rf (Reg.MEM_CH_STAT ch) 2 0 = 1 ∨ s.rf (Reg.MEM_CH_STAT ch) 2 0 = 2) → exec (.memChFence ch) s = .next s))

/-- Commands of the rings and the control network (R253 to R269, R280, R281). -/
def Obligations.RingsComplete : Prop :=
  (∀ (s : State) (ring : Fin 4) (dir : Fin 2) (st : Fin 29) (f : RingFlit) (ce : Nat) (ue : BitVec 32), seamHop dir st = none → f.lmask = 0 →
    .ring ring dir st f ∈ s.out →
    (f.dst ≠ st.val → Runs (.ringFlitArrival ring dir st f ce ue false) s [.regs, .out, .ring] (fun t =>
      t.out = s.out.erase (.ring ring dir st f) ++ [.ring ring dir (nextStop dir st)
        { f with credit := if f.credit = some st.val then none else f.credit, flit := { f.flit with pword := f.flit.pword ||| ue } }] ∧
      t.ring.door = s.ring.door)) ∧
    (f.dst = st.val → (f.credit = none ∨ f.credit = some st.val) → f.ttype ≠ 6 → s.rbit (Reg.RING_STOP_ST st) 0 = false →
      Runs (.ringFlitArrival ring dir st f ce ue false) s [.regs, .out, .ring] (fun t =>
        t.out = s.out.erase (.ring ring dir st f) ++
          [.ring ring (1 - dir.val) (nextStop (1 - dir.val) st) { dst := f.src, src := st, ttype := 6, entry := 0, credit := some f.src }] ∧
        t.ring.door = s.ring.door ++ (f.load.map (fun l => (st.val, l.spoil (f.flit.pword ||| ue).toNat))).toList)) ∧
    (s.EventRoom 0x0421 (unitId 4 (ring.val * 64 + st)) → Runs (.ringFlitArrival ring dir st f ce ue true) s [.regs, .out, .log, .nodes, .irq, .logN] (fun t =>
      t.out = s.out.erase (.ring ring dir st f) ∧ t.Recorded (s.eventRec 0x0421 (unitId 4 (ring.val * 64 + st)) 2 [(16, 1, ring), (17, 1, dir)])))) ∧
  (∀ (s : State) (ring : Fin 4) (dir : Fin 2) (st : Fin 29) (f : RingFlit) (ce : Nat) (ue : BitVec 32) (bad : Bool),
    .ring ring dir st f ∉ s.out → nextStop dir f.src = st.val →
    ((ring.val, dir.val, f.src) ∈ s.ring.leave → Runs (.ringFlitArrival ring dir st f ce ue bad) s [.ring] (fun t =>
      t.ring = { s.ring with leave := s.ring.leave.erase (ring.val, dir.val, f.src) })) ∧
    ((ring.val, dir.val, f.src) ∉ s.ring.leave → s.canInject ring dir f = true →
      exec (.ringFlitArrival ring dir st f ce ue bad) s = .next ((s.injectFlit ring dir f).flitAt ring dir st f ce ue bad)) ∧
    ((ring.val, dir.val, f.src) ∉ s.ring.leave → s.canInject ring dir f = false →
      exec (.ringFlitArrival ring dir st f ce ue bad) s = .next s)) ∧
  (∀ (s : State) (ring : Fin 4) (dir : Fin 2) (st : Fin 29),
    ((ring.val, dir.val, st.val) ∉ s.ring.starved → Runs (.injectionStarve ring dir st) s [.ring] (fun t =>
      t.ring = { s.ring with starved := s.ring.starved ++ [(ring.val, dir.val, st.val)] })) ∧
    ((ring.val, dir.val, st.val) ∈ s.ring.starved → exec (.injectionStarve ring dir st) s = .next s)) ∧
  (∀ (s : State) (ps : Fin 18) (op : Nat) (o : OpEnt),
    (s.spn ps).ops.find? (fun o => o.id == op && decide (o.kind = .read ∨ o.kind = .write ∨ o.kind = .atom ∨ o.kind = .send ∨ o.kind = .jobWrite)) = some o →
    s.isRemoteOp ps op = false →
    (s.rd Reg.RING_OP_TMO ≤ (s.now - o.issued).toNat → o.kind = .read → accepted (s.gen ps) o.resGen = true → s.EventRoom 0x0422 (unitId 4 (spindleStop ps)) →
      Runs (.ringOpTimeout ps op) s [.regs, .log, .nodes, .spns, .irq, .logN] (fun t => t.spn ps = (s.spn ps).poisonOp op ∧
        t.Recorded (s.eventRec 0x0422 (unitId 4 (spindleStop ps)) 2 [(16, 1, 0), (17, 5, o.addr)]))) ∧
    ((s.now - o.issued).toNat < s.rd Reg.RING_OP_TMO → exec (.ringOpTimeout ps op) s = .next s)) ∧
  (∀ (s : State) (ps : Fin 18) (op : Nat), (∀ o ∈ (s.spn ps).ops, o.id ≠ op) → exec (.ringOpTimeout ps op) s = .next s) ∧
  (∀ (s : State) (n : Fin 39) (w : CtlWay) (e : EventRec) (r : List EventRec), (tget {} s.nodes n).recs = e :: r → w.bad = none → s.log.length < 4096 →
    Runs (.eventRecord n w) s [.regs, .log, .nodes, .irq, .logN] (fun t => (tget {} t.nodes n).recs = r ∧
      { e with lost := e.lost || (tget {} s.nodes n).lost } ∈ t.log ∧ t.log.length = s.log.length + 1 ∧ t.logN = s.logN + 1 ∧
      s.RegsBut t [Reg.CNET_CE, Reg.SEAM_CE 2])) ∧
  (∀ (s : State) (n : Fin 39) (w : CtlWay) (e : EventRec) (r : List EventRec), (tget {} s.nodes n).recs = e :: r → w.bad.isSome = true →
    exec (.eventRecord n w) s = .next (({ s with nodes := tset {} s.nodes n { tget {} s.nodes n with recs := r } } : State).ctlWay 3 w)) ∧
  (∀ (s : State) (n : Fin 39) (w : CtlWay), (tget {} s.nodes n).recs = [] → exec (.eventRecord n w) s = .next s) ∧
  (∀ s : State, 5 ∉ s.ring.lost → Runs (.seamCrossingLoss 5) s [.ring] (fun t => t.ring = { s.ring with lost := s.ring.lost ++ [5] })) ∧
  (∀ (s : State) (k : Fin 6), (k.val ∈ s.ring.lost → exec (.seamCrossingLoss k) s = .next s) ∧
    (k.val ∉ s.ring.lost → k.val < 5 → exec (.seamCrossingLoss k) s = .next (({ s with ring := { s.ring with lost := s.ring.lost ++ [k.val] } } : State).seamError k))) ∧
  (∀ (s : State) (ps : Fin 18) (c : Nat), c < 64 →
    ∃ t, exec (.stallThreshold ps) s = .next t ∧ t = (s.stallEvents ps).knotCheck ∧
      (tget {} (t.spn ps).outq c).told = ((tget {} (s.spn ps).outq c).told || decide (s.rd Reg.CHN_STALL_THR ≤ (tget {} (s.spn ps).outq c).stall)) ∧
      (tget {} (t.spn ps).outq c).stall = (tget {} (s.spn ps).outq c).stall)

/-- Channel traffic (R272 to R279). -/
def Obligations.ChannelTrafficComplete : Prop :=
  (∀ (s : State) (p : ChanPkt) (h : ChanHome) (b : ChanBind), s.strayAt p = none → s.chanAbsorbed p.dst.logical = false → s.chanHome p.ctx p.dst.logical = some h → h.live = true →
    p.src.remote = false →
    let iq := tget {} (s.spn h.ps).inq p.dst.chan
    (iq.st ≠ .closed → iq.st ≠ .unbound → iq.bind = some b → b.same p.src = true → (p.msg.seq - iq.head).toNat < 32 →
      iq.held.any (fun m => m.seq == p.msg.seq) = false → iq.posted = [] →
      Runs (.channelMessage p) s [.out, .spns, .ring] (fun t => tget {} (t.spn h.ps).inq p.dst.chan = iq.place p.msg ∧
        t.out = (s.takeLoad (.chan p)).out ++ [.chan { kind := .accept, ctx := p.ctx, src := { p.dst with remote := false, coord := s.coord }, dst := p.src, msg := noMsg, op := p.op }])) ∧
    (iq.st = .closed → Runs (.channelMessage p) s [.out, .ring] (fun t =>
      t.out = (s.takeLoad (.chan p)).out ++ [.chan { kind := .closedAns, ctx := p.ctx, src := { p.dst with remote := false, coord := s.coord }, dst := p.src, msg := noMsg, op := p.op }]))) ∧
  (∀ (s : State) (p : ChanPkt), s.strayAt p = none → s.chanHome p.ctx p.dst.logical = none →
    (s.chanAbsorbed p.dst.logical = false → p.src.remote = false → Runs (.channelMessage p) s [.out, .ring] (fun t =>
      t.out = (s.takeLoad (.chan p)).out ++ [.chan { kind := .closedAns, ctx := p.ctx, src := { p.dst with remote := false, coord := s.coord }, dst := p.src, msg := noMsg, op := p.op }])) ∧
    exec (.channelCredit p) s = .next (s.takeLoad (.chan p)) ∧ exec (.closeNotice p) s = .next (s.takeLoad (.chan p)) ∧ exec (.endMark p) s = .next (s.takeLoad (.chan p))) ∧
  (∀ (s : State) (p : ChanPkt) (o : OpEnt), s.Inv → s.strayAt p = none →
    let ps := s.physOf p.dst.logical
    (s.spn ps).ops.find? (fun o => o.kind == .send && (o.id == p.op || (p.src.remote && opIdOf o.id == opIdOf p.op))) = some o →
    Runs (.channelAccept p) s [.regs, .out, .spns, .fab, .ring] (fun t => t.spn ps = { s.spn ps with ops := (s.spn ps).ops.filter (fun y => decide (y.id ≠ o.id)) } ∧
      t.rd (Reg.CHN_SENT ps o.cnt) = min (s.rd (Reg.CHN_SENT ps o.cnt) + 1) 0xFFFFFFFF ∧ s.RegsBut t [Reg.CHN_SENT ps o.cnt] ∧ t.out = (s.takeLoad (.chan p)).out) ∧
    ((tget {} (s.spn ps).outq o.cnt).st = .opened → ∃ t, exec (.channelClosed p) s = .next t ∧
      (t.spn ps).ops = (s.spn ps).ops.filter (fun y => decide (y.id ≠ o.id)) ∧ tget {} (t.spn ps).outq o.cnt = { tget {} (s.spn ps).outq o.cnt with st := .closed } ∧
      s.Alters t [.regs, .out, .log, .nodes, .spns, .irq, .fab, .logN, .ring])) ∧
  (∀ (s : State) (p : ChanPkt) (h : ChanHome), s.strayAt p = none → s.chanHome p.ctx p.dst.logical = some h → h.live = true →
    let oc := tget {} (s.spn h.ps).outq p.dst.chan
    let iq := tget {} (s.spn h.ps).inq p.dst.chan
    Runs (.channelCredit p) s [.out, .spns, .ring] (fun t => tget {} (t.spn h.ps).outq p.dst.chan = { oc with credits := min 32 (oc.credits + 1) } ∧
      t.out = (s.takeLoad (.chan p)).out ∧ ∀ c, c ≠ p.dst.chan → tget {} (t.spn h.ps).outq c = tget {} (s.spn h.ps).outq c) ∧
    (p.kind = .notice → oc.st = .opened → ∃ t, exec (.closeNotice p) s = .next t ∧ tget {} (t.spn h.ps).outq p.dst.chan = { oc with st := .closed } ∧
      s.Alters t [.regs, .out, .log, .nodes, .spns, .irq, .fab, .logN, .ring]) ∧
    (p.kind = .notice → oc.st ≠ .opened → exec (.closeNotice p) s = .next (s.takeLoad (.chan p))) ∧
    (p.kind ≠ .notice → (iq.st = .opened ∨ iq.st = .ended) → ∃ t, exec (.closeNotice p) s = .next t ∧ (tget {} (t.spn h.ps).inq p.dst.chan).st = .closed ∧
      s.Alters t [.regs, .out, .log, .nodes, .spns, .irq, .fab, .logN, .ring]) ∧
    (iq.st = .opened → ∃ t, exec (.endMark p) s = .next t ∧ (tget {} (t.spn h.ps).inq p.dst.chan).st = .ended ∧
      s.Alters t [.regs, .out, .log, .nodes, .spns, .irq, .fab, .logN, .ring]) ∧
    (iq.st ≠ .opened → exec (.endMark p) s = .next (s.takeLoad (.chan p)))) ∧
  (∀ (s : State) (p : ChanPkt) (st : Nat), s.strayAt p = some st →
    let x := s.takeLoad (.chan p)
    exec (.channelMessage p) s = .next (x.absorbLoad st (.chan p)) ∧ exec (.channelAccept p) s = .next (x.absorbLoad st (.chan p)) ∧
      exec (.channelClosed p) s = .next (x.absorbLoad st (.chan p)) ∧ exec (.channelCredit p) s = .next x ∧
      exec (.closeNotice p) s = .next x ∧ exec (.endMark p) s = .next x)

/-- Half-ports and the router's timers (R286 to R292, R309 to R313, R319). -/
def Obligations.LinksComplete : Prop :=
  (∀ (s : State) (h : Fin 32), s.Inv →
    (s.portSt h = 0 → s.portsLive = true → bitOf (s.hctl h) 0 = true → (h.val % 2 = 0 ∨ bitOf (s.rd (Reg.PORT_CTL (h / 2))) 3 = true) → bitsOf (s.hctl h) 6 5 ≠ 2 →
      Runs (.trainingStart h) s [.regs, .out, .log, .nodes, .irq, .fab, .logN] (fun t => t.portSt h = 1 ∧ (t.half h).trainAt = some s.now ∧
        t.rf (Reg.PORT_ST (h / 2) (h % 2)) 6 4 = 0 ∧ t.rf (Reg.PORT_ST (h / 2) (h % 2)) 27 24 = 0)) ∧
    (s.portSt h ≠ 0 ∨ s.portsLive = false ∨ bitOf (s.hctl h) 0 = false → exec (.trainingStart h) s = .next s)) ∧
  (∀ (s : State) (h : Fin 32) (lanes : BitVec 8) (native : Bool) (partner : Nat × Nat) (errs : List (Nat × Nat × Nat)), s.Inv → s.portSt h = 1 →
    (((s.half h).mode = 1 ∧ native = false) ∨ ((s.half h).mode = 0 ∧ native = true) →
      exec (.trainingComplete h lanes native partner errs) s = .next (s.trainFail h 3).dikeDone) ∧
    (∀ w used, ¬ (((s.half h).mode = 1 ∧ native = false) ∨ ((s.half h).mode = 0 ∧ native = true)) →
      trainWidth native (s.cfgWidth h) (s.keptLanes h lanes.toNat).toNat = some (w, used) → ¬ (w < s.cfgWidth h ∧ (s.half h).strict = true) →
      Runs (.trainingComplete h lanes native partner errs) s [.regs, .out, .log, .nodes, .irq, .fab, .logN, .cq, .boot] (fun t =>
        t.portSt h = (if s.devState = stBringup then 2 else 5) ∧ t.rf (Reg.PORT_ST (h / 2) (h % 2)) 6 4 = widthCode w ∧
          t.rf (Reg.PORT_ST (h / 2) (h % 2)) 9 8 = (if native then 1 else 0) ∧ (t.half h).trainAt = none ∧
          t.rd (Reg.PORT_PARTNER (h / 2) (h % 2)) = if native then 2 ^ 31 + 2 ^ 30 + partner.2 % 32 * 2 ^ 13 + partner.1 % 8192 else 0))) ∧
  (∀ (s : State) (h : Fin 32) (lanes : BitVec 8) (native : Bool) (partner : Nat × Nat) (errs : List (Nat × Nat × Nat)), s.portSt h ≠ 1 →
    exec (.trainingComplete h lanes native partner errs) s = .next s ∧ exec (.trainingTimeout h) s = .next s) ∧
  (∀ (s : State) (h : Fin 32) (b : DWord), s.Inv → (s.half h).trainAt = some b → s.portSt h = 1 →
    (100000000 ≤ (s.now - b).toNat → Runs (.trainingTimeout h) s [.regs, .out, .log, .nodes, .irq, .fab, .logN, .cq] (fun t =>
      t.portSt h = 3 ∧ (t.half h).trainAt = none ∧ (t.half h).retryAt = some (s.now + s.retryTicks h) ∧
        t.rf (Reg.PORT_ST (h / 2) (h % 2)) 27 24 = min 6 (s.rf (Reg.PORT_ST (h / 2) (h % 2)) 27 24 + 1))) ∧
    ((s.now - b).toNat < 100000000 → exec (.trainingTimeout h) s = .next s)) ∧
  (∀ (s : State) (h : Fin 32) (b : DWord), s.Inv → (s.half h).retryAt = some b →
    ((s.portSt h = 3 ∨ s.portSt h = 4) → b ≤ s.now → s.portsLive = true → bitOf (s.hctl h) 0 = true →
      (h.val % 2 = 0 ∨ bitOf (s.rd (Reg.PORT_CTL (h / 2))) 3 = true) → bitsOf (s.hctl h) 6 5 ≠ 2 →
      Runs (.retryTimerExpiry h) s [.regs, .out, .log, .nodes, .irq, .fab, .logN] (fun t => t.portSt h = 1 ∧ (t.half h).trainAt = some s.now ∧ (t.half h).retryAt = none)) ∧
    (s.now < b → exec (.retryTimerExpiry h) s = .next s)) ∧
  (∀ (s : State) (h : Fin 32), s.Inv →
    (s.portSt h = 2 ∨ s.portSt h = 5 → Runs (.linkSignalLoss h) s [.regs, .out, .log, .nodes, .irq, .fab, .logN] (fun t =>
      t.portSt h = 4 ∧ (t.half h).retryAt = some (s.now + s.retryTicks h) ∧ t.rf (Reg.PORT_ST (h / 2) (h % 2)) 6 4 = 0)) ∧
    (¬ (s.portSt h = 2 ∨ s.portSt h = 5) → exec (.linkSignalLoss h) s = .next s)) ∧
  (∀ (s : State) (p : Fin 16), s.Inv → s.domOn (regDomain (Reg.PORT_CTL p)) = true →
    (bitOf (s.hctl (2 * p)) 0 = true → s.portsLive = true → bitsOf (s.hctl (2 * p)) 6 5 ≠ 2 → bitOf (s.rd (Reg.PORT_CTL p)) 3 = false →
      Runs (.portCtlRetrain p) s [.regs, .out, .log, .nodes, .irq, .fab, .logN] (fun t => t.portSt (2 * p) = 1 ∧ (t.half (2 * p)).trainAt = some s.now)) ∧
    ((s.portsLive = false ∨ (bitOf (s.hctl (2 * p)) 0 = false ∧ (bitOf (s.hctl (2 * p + 1)) 0 = false ∨ bitOf (s.rd (Reg.PORT_CTL p)) 3 = false))) →
      exec (.portCtlRetrain p) s = .next s)) ∧
  (∀ (s : State) (p : Fin 16), s.domOn (regDomain (Reg.PORT_CTL p)) = false →
    exec (.portCtlRetrain p) s = .next (s.addrError (0x5000000000 + Reg.PORT_CTL p) 3 1 0)) ∧
  (∀ (s : State) (v : Word), s.domOn (regDomain Reg.FAB_EPOCH) = false →
    exec (.fabEpochWrite v) s = .next (s.addrError (0x5000000000 + Reg.FAB_EPOCH) 3 1 0)) ∧
  (∀ s : State, s.Inv →
    (∀ w, s.fab.waiting.find? (fun w => decide (s.rd Reg.FAB_HOP_TMO ≤ (s.now - w.since).toNat)) = some w →
      Runs .hopTimeout s [.regs, .log, .nodes, .irq, .fab, .logN] (fun t => t.fab.waiting = s.fab.waiting.erase w ∧
        t.rd (Reg.FAB_DISC 4) = min (s.rd (Reg.FAB_DISC 4) + 1) 0xFFFFFFFF ∧ t.fab.halves = s.fab.halves)) ∧
    ((∀ w ∈ s.fab.waiting, (s.now - w.since).toNat < s.rd Reg.FAB_HOP_TMO) → exec .hopTimeout s = .next s)) ∧
  (∀ s : State, s.Inv →
    (s.fab.epoch = none → exec .epochSwitchAtTime s = .next s) ∧
    (∀ e, s.fab.epoch = some e → s.ptpNs < e.sec * 1000000000 + e.ns → exec .epochSwitchAtTime s = .next s) ∧
    (∀ e, s.fab.epoch = some e → e.sec * 1000000000 + e.ns ≤ s.ptpNs →
      Runs .epochSwitchAtTime s [.regs, .out, .log, .nodes, .irq, .fab, .logN, .cq] (fun t => t.fab.epoch = none ∧ t.rf Reg.FAB_EPOCH 0 0 = e.bank % 2 ∧
        t.rbit Reg.FAB_EPOCH 3 = true ∧ t.fab.guard = some (s.now + BitVec.ofNat 64 (s.rd Reg.FAB_EPOCH_GUARD)))) ∧
    (∀ b, s.fab.guard = some b → b ≤ s.now → Runs .epochGuardExpiry s [.regs, .fab] (fun t => t.fab = { s.fab with guard := none } ∧
      t.rbit Reg.FAB_EPOCH 3 = false ∧ s.RegsBut t [Reg.FAB_EPOCH])) ∧
    (∀ b, s.fab.guard = some b → s.now < b → exec .epochGuardExpiry s = .next s) ∧
    (s.fab.guard = none → exec .epochGuardExpiry s = .next s)) ∧
  (∀ (s : State) (v : Word), s.Inv → s.domOn (regDomain Reg.FAB_EPOCH) = true →
    (bitsOf v.toNat 0 0 = s.rf Reg.FAB_EPOCH 0 0 → Runs (.fabEpochWrite v) s [.regs] (fun t => t.rf Reg.FAB_EPOCH 2 1 = bitsOf v.toNat 2 1 ∧
      t.rf Reg.FAB_EPOCH 0 0 = s.rf Reg.FAB_EPOCH 0 0 ∧ s.RegsBut t [Reg.FAB_EPOCH])) ∧
    (bitsOf v.toNat 0 0 ≠ s.rf Reg.FAB_EPOCH 0 0 → Runs (.fabEpochWrite v) s [.regs, .out, .log, .nodes, .irq, .fab, .logN] (fun t =>
      t.rf Reg.FAB_EPOCH 0 0 = bitsOf v.toNat 0 0 ∧ t.rf Reg.FAB_EPOCH 2 1 = bitsOf v.toNat 2 1 ∧ t.rbit Reg.FAB_EPOCH 3 = true))) ∧
  (∀ s : State, s.Inv → Runs .tombstoneExpiry s [.regs, .fab] (fun t =>
    (∀ e, e ∈ t.fab.tracker ↔ e ∈ s.fab.tracker ∧ ∀ b, e.tomb = some b → s.now < b) ∧ t.fab.ops = s.fab.ops ∧ s.RegsBut t [Reg.FAB_TRK])) ∧
  (∀ s : State, s.Inv →
    (∀ e, s.fab.tracker.find? (fun e => e.tomb.isNone && !s.finalWaits e && decide (s.rd Reg.FAB_RX_TMO ≤ (s.now - e.lastAt).toNat)) = some e → s.EventRoom 0x0521 devUnit →
      Runs .fabRxTimeout s [.regs, .log, .nodes, .irq, .fab, .logN] (fun t => t.fab = { s.fab with tracker := s.fab.tracker.erase e } ∧
        t.Recorded (s.eventRec 0x0521 devUnit 1 [(16, 2, e.scoord), (18, 1, e.sep), (19, 3, e.op), (22, 2, e.got.length)]))) ∧
    ((∀ e ∈ s.fab.tracker, e.tomb = none → (s.now - e.lastAt).toNat < s.rd Reg.FAB_RX_TMO ∨ s.finalWaits e = true) → exec .fabRxTimeout s = .next s))

/-- FRAME_RECEIVE and the fabric's endpoints (R297, R298, R305, R318 to R320). -/
def Obligations.FabricReceptionCompletes : Prop :=
  (∀ (s : State) (h : Fin 32) (bytes : List Byte) (ce ue : Nat) (hit : Bool) (e : LinkErrs), s.portSt h ≠ 2 → s.portSt h ≠ 5 →
    exec (.frameReceive h bytes ce ue hit e) s = .next s) ∧
  (∀ (s : State) (h : Fin 32) (bytes : List Byte) (ce : Nat) (hit : Bool) (e : LinkErrs), s.Inv → (s.portSt h = 2 ∨ s.portSt h = 5) →
    let pk (t : State) : Prop := t.rd64 (Reg.PORT_RX_PKT_LO (h / 2)) = (s.rd64 (Reg.PORT_RX_PKT_LO (h / 2)) + 1) % 2 ^ 64
    ((hit = true ∨ s.filterFrame h bytes = .bad) → Runs (.frameReceive h bytes ce 0 hit e) s [.regs] (fun t => pk t ∧
      t.rd (Reg.PORT_RX_BAD (h / 2)) = min (s.rd (Reg.PORT_RX_BAD (h / 2)) + 1) 0xFFFFFFFF)) ∧
    (hit = false → s.filterFrame h bytes = .other → Runs (.frameReceive h bytes ce 0 hit e) s [.regs] (fun t => pk t ∧
      t.rd (Reg.PORT_RX_OTHER (h / 2)) = min (s.rd (Reg.PORT_RX_OTHER (h / 2)) + 1) 0xFFFFFFFF)) ∧
    (hit = false → s.filterFrame h bytes = .untagged → Runs (.frameReceive h bytes ce 0 hit e) s [.regs, .log, .nodes, .irq, .fab, .logN] (fun t => pk t ∧
      t.rd (Reg.FAB_DISC 0) = min (s.rd (Reg.FAB_DISC 0) + 1) 0xFFFFFFFF)) ∧
    (∀ b, hit = false → s.filterFrame h bytes = .answer b → Runs (.frameReceive h bytes ce 0 hit e) s [.regs, .out] (fun t => pk t ∧
      t.out = s.out ++ [.frame h b])) ∧
    (∀ l, hit = false → s.filterFrame h bytes = .pause l → ∃ x, exec (.frameReceive h bytes ce 0 hit e) s = .next (x.pauseHalf h l) ∧ s.Alters x [.regs] ∧ pk x) ∧
    (∀ vc body pad, hit = false → s.filterFrame h bytes = .fabric vc body pad →
      exec (.frameReceive h bytes ce 0 hit e) s = .next (let x := ((((s.countFec h ce 0).add64 (Reg.PORT_RX_PKT_LO (h / 2)) 1).notePartner h (sliceB bytes 6 6)).routerLink h e body)
        x.1.rxPacket h vc x.2 pad))) ∧
  (∀ (s : State) (half : Option Nat) (p : Pkt) (f : Flips) (e : TrkEnt), s.fab.tracker.find? p.hasEntry = some e → p.idx ∈ e.got →
    let again (c : Instr) : Prop := Runs c s [.regs, .out, .log, .nodes, .irq, .fab, .logN] (fun t => t.mem = s.mem ∧ t.fab.tracker = s.fab.tracker ∧
      t.rd (Reg.FAB_DISC 6) = min (s.rd (Reg.FAB_DISC 6) + 1) 0xFFFFFFFF)
    (p.type = 0 → s.roleOf p = none → (p.w7Bad && p.engine.isSome) = false → again (.fabWrite half p f)) ∧
    (p.type = 9 → s.roleOf p = none → (p.w7Bad && p.engine.isSome) = false → again (.fabMulticastWrite half p f)) ∧
    (p.type = 1 → again (.fabReadRequest half p f)) ∧ (p.type = 3 → again (.fabAtomic half p f)) ∧
    (p.type = 2 → s.opOf p ≠ none → again (.fabReadResponse half p))) ∧
  (∀ (s : State) (half : Option Nat) (p : Pkt) (f : Flips) (e : TrkEnt), s.trackFind p = .inr e →
    let x := s.take (.pkt half p)
    (p.type = 0 → s.roleOf p = none → (p.w7Bad && p.engine.isSome) = false → ∃ t, exec (.fabWrite half p f) s = .next t ∧
      t = (x.applyWrite p f).2.2.keepEarly half p (x.applyWrite p f).2.1 ∧
      ∃ g ∈ t.fab.tracker, p.hasEntry g = true ∧ p.idx ∈ g.got) ∧
    (p.type = 9 → s.roleOf p = none → (p.w7Bad && p.engine.isSome) = false → ∃ t, exec (.fabMulticastWrite half p f) s = .next t ∧
      t = (x.applyWrite p f).2.2.keepEarly half p (x.applyWrite p f).2.1 ∧
      ∃ g ∈ t.fab.tracker, p.hasEntry g = true ∧ p.idx ∈ g.got) ∧
    (p.type = 1 → s.epAbsorbs p.dep = false → let r := x.devRead (.fabric p.scoord) p.addr p.asks f
      ∃ t, exec (.fabReadRequest half p f) s = .next t ∧ t = ((r.2.2.2.trackMark p e false).2.2.opComplete p false).sendResponse p r.1 r.2.1 ∧
        ∃ g ∈ t.fab.tracker, p.hasEntry g = true ∧ p.idx ∈ g.got) ∧
    (p.type = 3 → s.epAbsorbs p.dep = false →
      let r := x.devAtomic (.fabric p.scoord) p.addr (rdLE p.payload 0 1) (rdLE p.payload 8 8) (rdLE p.payload 16 8) p.poison f
      ∃ t, exec (.fabAtomic half p f) s = .next t ∧
        t = ((r.2.2.2.trackMark p e r.2.1).2.2.opComplete p r.2.1).sendResponse p (toLE 8 r.1) (if r.2.1 then 1 else 0) ∧
        ∃ g ∈ t.fab.tracker, p.hasEntry g = true ∧ p.idx ∈ g.got) ∧
    (∀ o, p.type = 2 → s.opOf p = some o → o.who ≠ .restore → p.last = true → p.w7 = e.got.length + 1 → p.engine = none → p.cid / 2 ^ 14 ≠ 1 →
      Runs (.fabReadResponse half p) s [.regs, .out, .fab] (fun t => t.fab.ops = s.fab.ops.filter (fun y => decide (y ≠ o)) ∧
        ∃ g ∈ t.fab.tracker, p.hasEntry g = true ∧ p.idx ∈ g.got))) ∧
  (∀ (s : State) (half : Option Nat) (p : Pkt) (f : Flips),
    (p.type = 2 → s.opOf p = none → Runs (.fabReadResponse half p) s [.regs, .out, .log, .nodes, .irq, .fab, .logN] (fun t =>
      t.rd (Reg.FAB_DISC 13) = min (s.rd (Reg.FAB_DISC 13) + 1) 0xFFFFFFFF ∧ t.fab.tracker = s.fab.tracker)) ∧
    (s.roleOf p = none → (p.w7Bad && p.engine.isSome) = true →
      let t := (s.take (.pkt half p)).transportBad half p (p.engine.getD 0)
      (p.type = 0 → exec (.fabWrite half p f) s = .next t) ∧ (p.type = 9 → exec (.fabMulticastWrite half p f) s = .next t)) ∧
    (p.type ≠ 0 → exec (.fabWrite half p f) s = .next s) ∧ (p.type ≠ 9 → exec (.fabMulticastWrite half p f) s = .next s) ∧
    (p.type ≠ 1 → exec (.fabReadRequest half p f) s = .next s) ∧ (p.type ≠ 2 → exec (.fabReadResponse half p) s = .next s) ∧
    (p.type ≠ 3 → exec (.fabAtomic half p f) s = .next s))

/-- Commands of the collective engine (R326 to R347). -/
def Obligations.CollectivesComplete : Prop :=
  (∀ (s : State) (f : Flips), (s.now - s.coll.polledAt).toNat < s.rd Reg.COLL_POLL → exec (.collPoll f) s = .next s) ∧
  (∀ (s : State) (f : Flips), s.rd Reg.COLL_POLL ≤ (s.now - s.coll.polledAt).toNat →
    let y : State := { s with coll := { s.coll with polledAt := s.now } }
    (s.runningSlot = none → exec (.collPoll f) s = .next y) ∧
    (∀ j, s.runningSlot = some j → j.job.coll = 0 → exec (.collPoll f) s = .next y) ∧
    (∀ j, s.runningSlot = some j → j.job.coll ≠ 0 → exec (.collPoll f) s = .next ((List.range j.lcount).foldl (fun s l =>
      let r := s.devRead .coll (j.job.coll + 0x40000 + l * 8) 8 f
      if r.2.1 ≠ 0 then r.2.2.2 else State.pollRing 256 r.2.2.2 l (leNat r.1) f) y))) ∧
  (∀ (s : State) (c : Coll) (cause rank : Nat), s.Inv → c.req.ecb < 65536 → 0 < cause → cause < 256 →
    ∃ x : State, s.failColl c cause rank = (x.ctxRaise c.ctx c.logical c.req.cnt 1 true).faultCtx c.ctx 0x0603 ∧ x.collAt c.req.ecb = none ∧
      x.rd Reg.COLL_FAIL = min (s.rd Reg.COLL_FAIL + 1) 0xFFFFFFFF ∧ x.rd Reg.COLL_LAST_FAIL = c.req.ecb * 2 ^ 16 + rank % 256 * 2 ^ 8 + cause) ∧
  (∀ (s : State) (half : Option Nat) (p : Pkt) (f : Flips), p.type = 5 →
    let x := s.take (.pkt half p)
    (∀ c, s.collOf p = some c →
      (c.mismatch p (c.lo (c.shardOf (c.placeOf p).1) + p.idx * c.per) c.w = true →
        let y := x.transportBad half p c.req.ecb
        exec (.reduceContribution half p f) s = .next y ∧ (half = none → y.mem = s.mem ∧ y.fab.tracker = s.fab.tracker ∧
          y.rd Reg.COLL_CW_TX = min (s.rd Reg.COLL_CW_TX + 1) 0xFFFFFFFF)) ∧
      (c.mismatch p (c.lo (c.shardOf (c.placeOf p).1) + p.idx * c.per) c.w = false → p.shadow = false →
        exec (.reduceContribution half p f) s = .next (let r := x.applyWrite { p with check := true } f
          if r.1 then r.2.2.stage c p r.2.1 f else r.2.2))) ∧
    (s.collOf p = none → p.shadow = true → Runs (.reduceContribution half p f) s [.regs, .out] (fun t =>
      t.rd Reg.COLL_SHADOW_LATE = min (s.rd Reg.COLL_SHADOW_LATE + 1) 0xFFFFFFFF)) ∧
    (s.collOf p = none → p.shadow = false →
      let q := { p with check := true }
      ((q.w7Bad && p.engine.isSome) = true → exec (.reduceContribution half p f) s = .next (x.transportBad half q (p.engine.getD 0))) ∧
      ((q.w7Bad && p.engine.isSome) = false → exec (.reduceContribution half p f) s = .next (let r := x.applyWrite q f
        if r.1 then r.2.2.keepEarly half q r.2.1 else r.2.2)))) ∧
  (∀ (s : State) (c : Coll) (p : Pkt) (done : Bool) (f : Flips), p.step ≠ c.step % 2 ^ 32 → s.stage c p done f = s.failColl c 6 (c.placeOf p).2) ∧
  (∀ (s : State) (half : Option Nat) (p : Pkt) (f : Flips) (c : Coll) (off : Nat), s.roleOf p = some (c, off) → (p.type = 0 ∨ p.type = 9) →
    let x := s.take (.pkt half p)
    let bad := p.check = true ∧ c.mismatch p ((p.addr - c.req.dst) / c.wr) c.wr = true
    let r := x.applyWrite p f
    let good := if r.1 then r.2.2.engineWrite c off p r.2.1 f else r.2.2
    (off = 1 → (bad → exec (.collResultArrival half p f) s = .next (x.transportBad half p c.req.ecb)) ∧ (¬ bad → exec (.collResultArrival half p f) s = .next good)) ∧
    (off = 2 → (bad → exec (.collReportArrival half p f) s = .next (x.transportBad half p c.req.ecb)) ∧ (¬ bad → exec (.collReportArrival half p f) s = .next good)) ∧
    (off = 3 → (bad → exec (.collAgreedSetArrival half p f) s = .next (x.transportBad half p c.req.ecb)) ∧ (¬ bad → exec (.collAgreedSetArrival half p f) s = .next good))) ∧
  (∀ (s : State) (c : Coll), c.arrived < (if c.req.scatter then 1 else c.req.npart) → s.finishColl c = s.putColl c) ∧
  (∀ (s : State) (half : Option Nat) (p : Pkt) (f : Flips), s.roleOf p = none → exec (.collResultArrival half p f) s = .next s ∧
    exec (.collReportArrival half p f) s = .next s ∧ exec (.collAgreedSetArrival half p f) s = .next s) ∧
  (∀ (s : State) (ecb : Nat) (f : Flips) (c : Coll), s.collAt ecb = some c →
    ((s.now - c.taken).toNat < s.rd Reg.COLL_DEADLINE → exec (.collDeadlineExpiry ecb f) s = .next s) ∧
    (∀ r, s.rd Reg.COLL_DEADLINE ≤ (s.now - c.taken).toNat → s.rbit Reg.COLL_CTL 0 = false → c.req.drop = false →
      c.expected.find? (fun r => !(c.have_ 0).contains r) = some r → exec (.collDeadlineExpiry ecb f) s = .next (s.failColl c 1 r)) ∧
    (s.rd Reg.COLL_DEADLINE ≤ (s.now - c.taken).toNat → s.rbit Reg.COLL_CTL 0 = false → c.req.drop = true → c.exclusion = false →
      exec (.collDeadlineExpiry ecb f) s = .next (s.progress ecb true f)) ∧
    (∀ b d, c.readyAt = some b → c.req.rank = 0 → c.agreed = none → s.rd Reg.COLL_AGREE_TMO < (s.now - b).toNat → (s.formAgreed c f).collAt ecb = some d →
      d.agreed = none → exec (.collAgreeTimeout ecb f) s = .next (s.failColl c 7 0)) ∧
    (∀ b, c.readyAt = some b → (s.now - b).toNat ≤ s.rd Reg.COLL_AGREE_TMO → exec (.collAgreeTimeout ecb f) s = .next s) ∧
    (s.rd Reg.COLL_RESULT_TMO ≤ (s.now - c.taken).toNat → exec (.collResultTimeout ecb f) s = .next (s.failColl c 9 c.req.rank)) ∧
    ((s.now - c.taken).toNat < s.rd Reg.COLL_RESULT_TMO → exec (.collResultTimeout ecb f) s = .next s)) ∧
  (∀ (s : State) (ecb : Nat) (f : Flips), s.collAt ecb = none → exec (.collDeadlineExpiry ecb f) s = .next s ∧ exec (.collAgreeTimeout ecb f) s = .next s ∧
    exec (.collResultTimeout ecb f) s = .next s) ∧
  (∀ s : State, (s.rd Reg.COLL_HB_INT ≤ (s.now - s.coll.hbAt).toNat → exec .heartbeatInterval s =
      .next ((List.range 32).foldl State.partnerInterval ((List.range 64).foldl State.peerInterval (s.setHbAt s.now))).sendBeats) ∧
    ((s.now - s.coll.hbAt).toNat < s.rd Reg.COLL_HB_INT → exec .heartbeatInterval s = .next s)) ∧
  (∀ (s : State) (half : Option Nat) (p : Pkt) (n : Nat), p.type = 8 → n < 64 → s.rbit (Reg.COLL_PEER n) 31 = true → s.rf (Reg.COLL_PEER n) 12 0 = p.scoord →
    Runs (.heartbeat half p) s [.regs, .out, .fab, .coll] (fun t => tget {} t.coll.peers n = { heard := true, since := 0 } ∧
      t.rbit (Reg.COLL_PEER n) 30 = s.rbit (Reg.COLL_PEER n) 30)) ∧
  (∀ (s : State) (half : Option Nat) (p : Pkt), p.type = 7 → s.fromPartner half (rdLE p.payload 0 2 % 2 ^ 13) = none → rdLE p.payload 6 2 ≠ s.rf Reg.COLL_DIKE 15 0 →
    exec (.breachNotice half p) s = .next (s.take (.pkt half p))) ∧
  (∀ (s : State) (half : Option Nat) (p : Pkt) (h : Nat), p.type = 7 → s.fromPartner half (rdLE p.payload 0 2 % 2 ^ 13) = some h → rdLE p.payload 6 2 ≠ s.rf Reg.COLL_DIKE 15 0 →
    exec (.breachNotice half p) s = .next ((s.take (.pkt half p)).breachHalf h 3 (rdLE p.payload 0 2 % 2 ^ 13))) ∧
  (∀ (s : State) (half : Option Nat) (p : Pkt), p.type = 6 → p.sub = 1 →
    (s.opOf p = none → Runs (.fabAck half p) s [.regs, .out, .log, .nodes, .irq, .fab, .logN] (fun t =>
      t.rd (Reg.FAB_DISC 13) = min (s.rd (Reg.FAB_DISC 13) + 1) 0xFFFFFFFF ∧ t.fab.ops = s.fab.ops)) ∧
    (∀ o, s.opOf p = some o → (∀ a b, o.who ≠ .dispatch a b) → o.who ≠ .ckpt → o.left ≤ 1 → Runs (.fabAck half p) s [.out, .fab] (fun t =>
      t.fab.ops = s.fab.ops.filter (fun y => decide (y ≠ o)) ∧ t.fab.tracker = s.fab.tracker)) ∧
    (∀ o ps n, s.opOf p = some o → o.who = .dispatch ps n → o.left ≤ 1 → Runs (.fabAck half p) s [.out, .spns, .fab] (fun t =>
      t.spn ps = (s.spn ps).opAnswered n ∧ t.fab.ops = s.fab.ops.filter (fun y => decide (y ≠ o))))) ∧
  (∀ (s : State) (half : Option Nat) (p : Pkt) (f : Flips), (p.type ≠ 5 → exec (.reduceContribution half p f) s = .next s) ∧
    (p.type ≠ 8 → exec (.heartbeat half p) s = .next s) ∧ (p.type ≠ 7 → exec (.breachNotice half p) s = .next s) ∧ (p.type ≠ 6 → exec (.fabAck half p) s = .next s))

/-- The self-test commands (R379 to R399). -/
def Obligations.SelfTestsComplete : Prop :=
  (∀ (s : State) (outs : List TestOut), (s.hlth.waves = [] → exec (.testWaveDone outs) s = .next s) ∧
    (∀ w v rest, s.hlth.waves = w :: v :: rest → s.hlth.outs = [] → outs = [] → (∀ u ∈ w, 18 ≤ u) →
      Runs (.testWaveDone outs) s [.hlth] (fun t => t.hlth.waves = v :: rest ∧ t.hlth.waveAt = s.wall ∧ (∀ o ∈ t.hlth.outs, o.logic = 0 ∧ o.unit ∈ w))) ∧
    (∀ w, s.hlth.waves = [w] → s.hlth.outs = [] → outs = [] → (∀ u ∈ w, 18 ≤ u) →
      Runs (.testWaveDone outs) s [.regs, .hlth, .boot] (fun t => t.hlth.waves = [] ∧ t.rf Reg.CMD_DEV_STATE 27 24 = 8 ∧ t.boot.at_ = s.wall ∧
        s.RegsBut t [Reg.CMD_DEV_STATE]))) ∧
  (∀ (s : State) (outs : List TestOut),
    (s.hlth.waves ≠ [] → 50000000 ≤ (s.wall - s.hlth.waveAt).toNat → exec (.testTimeout outs) s = .next (s.endWave outs true)) ∧
    (s.hlth.waves = [] → s.rf Reg.TEST_ROLL_ST 2 0 = 4 → 50000000 ≤ (s.now - s.hlth.rollAt).toNat →
      exec (.testTimeout outs) s = .next (s.rollEnd { unit := s.rf Reg.TEST_ROLL_ST 12 8, logic := 2 })) ∧
    (∀ r, s.hlth.waves = [] → s.rf Reg.TEST_ROLL_ST 2 0 ≠ 4 → s.hlth.returning = [r] → s.testing r = true → 50000000 ≤ (s.now - r.start).toNat →
      exec (.testTimeout outs) s = .next (s.returnEnd (lateOut r.unit))) ∧
    (s.hlth.waves = [] → s.rf Reg.TEST_ROLL_ST 2 0 ≠ 4 → (∀ r ∈ s.hlth.returning, (s.now - r.start).toNat < 50000000) →
      exec (.testTimeout outs) s = .next s)) ∧
  (∀ s : State, (s.anyResident = true → exec .mapRiseApply s = .next s) ∧ (s.risers = [] → exec .mapRiseApply s = .next s) ∧
    (s.anyResident = false → s.risers ≠ [] → exec .mapRiseApply s =
      .next ({ s with hlth := { s.hlth with holding := s.hlth.holding.filter (fun ps => !s.risers.contains ps) } } : State).rebuild)) ∧
  (∀ (s : State) (l : Fin 16), (s.hlth.moves.find? (fun m => m.logical == (l : Nat)) = none → exec (.spareTransfer l) s = .next s) ∧
    (∀ m, s.hlth.moves.find? (fun m => m.logical == (l : Nat)) = some m →
      (s.runCtx = 0 → exec (.spareTransfer l) s = .next ((s.setMoves (s.hlth.moves.erase m)).moveUnits m)) ∧
      (∀ j, s.runningSlot = some j → s.usesIndex l = false → exec (.spareTransfer l) s = .next (s.moveNow m)) ∧
      (s.usesIndex l = true → s.doorBusy m.src = true → exec (.spareTransfer l) s = .next s) ∧
      (∀ j, s.runningSlot = some j → s.usesIndex l = true → s.doorBusy m.src = false → s.physOf l = m.src → s.endedAt l = false →
        s.savedAway j l = false → exec (.spareTransfer l) s = .next ((s.moveBoundary m.src).showSwap m) ∧
        ((s.spn m.src).drain = none → (s.spn m.src).load = .draining → s.Inv →
          ((s.moveBoundary m.src).spn m.src).drain = some { why := .transfer, scan := false, asked := s.now, point := false, ready := false }) ∧
        ((s.spn m.src).drain ≠ none → s.moveBoundary m.src = s)))) ∧
  (∀ s : State, (s.rbit Reg.TEST_CTL 0 = false → s.hlth.rollPend = false → exec .rollTestDue s = .next s) ∧
    (s.rbit Reg.TEST_CTL 0 = true → s.rbit Reg.CMD_STRAPS 14 = false → s.rd Reg.TEST_ROLL_PERIOD * 100000000 ≤ (s.now - s.hlth.rollDue).toNat → s.hlth.rollPend = false →
      s.rollDueNow = { s with hlth := { s.hlth with rollPend := true
                                                    rollDue := s.hlth.rollDue + BitVec.ofNat 64 (s.rd Reg.TEST_ROLL_PERIOD * 100000000) } }) ∧
    (s.rollDueNow.hlth.rollPend = true → s.rollDueNow.rf Reg.TEST_ROLL_ST 2 0 ≠ 0 → exec .rollTestDue s = .next s.rollDueNow) ∧
    (∀ ps, s.rollDueNow.hlth.rollPend = true → s.rollDueNow.rf Reg.TEST_ROLL_ST 2 0 = 0 → s.rollDueNow.rollNext = some ps →
      (s.rollDueNow.rollBlock ps = 0 → exec .rollTestDue s = .next (s.rollDueNow.rollStart ps)) ∧
      (s.rollDueNow.rollBlock ps ≠ 0 → ∃ t, exec .rollTestDue s = .next t ∧ t = s.rollDueNow.wf Reg.TEST_ROLL_ST 27 24 (s.rollDueNow.rollBlock ps)))) ∧
  (∀ (s : State) (o : TestOut), (s.rf Reg.TEST_ROLL_ST 2 0 ≠ 4 → exec (.rollTestDone o) s = .next s) ∧
    (o.unit ≠ unitId 0 (s.rf Reg.TEST_ROLL_ST 12 8) → exec (.rollTestDone o) s = .next s) ∧
    (s.rf Reg.TEST_ROLL_ST 2 0 = 4 → o.unit = unitId 0 (s.rf Reg.TEST_ROLL_ST 12 8) → exec (.rollTestDone o) s = .next (s.rollEnd o) ∧
      (o.logic = 2 → ∃ x : State, s.rollEnd o =
        (((((x.sat Reg.TEST_ROLL_FAIL 1).softCreate (unitId 0 (s.rf Reg.TEST_ROLL_ST 12 8)) 0).setSpnState (s.rf Reg.TEST_ROLL_ST 12 8) 6).syncStop
          (s.rf Reg.TEST_ROLL_ST 12 8)).rebuild.wf Reg.TEST_ROLL_ST 2 0 0)))) ∧
  (∀ s : State, (s.rf Reg.TEST_ROLL_ST 2 0 ≠ 1 → s.rf Reg.TEST_ROLL_ST 2 0 ≠ 5 → exec .rollWaitTimeout s = .next s) ∧
    ((s.now - s.hlth.rollAt).toNat < s.rd Reg.TEST_ROLL_WAIT → exec .rollWaitTimeout s = .next s) ∧
    (∀ m, s.rf Reg.TEST_ROLL_ST 2 0 = 1 → s.rd Reg.TEST_ROLL_WAIT ≤ (s.now - s.hlth.rollAt).toNat → s.hlth.moves = [m] → m.why = .rollOut → (s.spn m.src).drain = none →
      Runs .rollWaitTimeout s [.regs, .log, .nodes, .irq, .hlth, .logN] (fun t => t.hlth = { s.hlth with moves := [] } ∧ t.rf Reg.TEST_ROLL_ST 2 0 = 0 ∧
        (s.EventRoom 0x0809 (s.rf Reg.TEST_ROLL_ST 12 8) →
          t.Recorded (s.eventRec 0x0809 (s.rf Reg.TEST_ROLL_ST 12 8) 1 [(16, 1, 2)]))))) ∧
  (∀ (s : State) (o : TestOut), (s.hlth.returning = [] → exec (.returnTestDone o) s = .next s) ∧
    (∀ r, s.hlth.returning = [r] → r.unit = o.unit → s.testing r = true → exec (.returnTestDone o) s = .next (s.returnEnd o) ∧
      (o.unit / 2048 = 9 → o.logic = 2 → s.returnEnd o = ((s.dropReturn o.unit).noteTest 2 o).finish (.returning o.unit) stHW_FAULT []) ∧
      (o.unit / 2048 = 9 → o.logic ≠ 2 → s.returnEnd o =
        ((((s.dropReturn o.unit).noteTest 2 o).softRemove o.unit 0).wf Reg.MGMT_CORE_ST (o.unit % 2048) (o.unit % 2048) 1).finish (.returning o.unit) stOK []) ∧
      (o.unit / 2048 = 5 → o.march = true → s.returnEnd o = ((s.dropReturn o.unit).noteTest 2 o).finish (.returning o.unit) stHW_FAULT []) ∧
      (o.unit / 2048 = 0 → o.logic = 2 → ∃ x : State, s.returnEnd o =
        (((x.setSpnState (o.unit % 2048) 6).syncStop (o.unit % 2048)).rebuild).finish (.returning o.unit) stHW_FAULT [])))
/-- AGEING_READING, DEFERRED_CHANGE_APPLY and POH_SAVE (R400 to R406). -/
def Obligations.AgeingComplete : Prop :=
  (∀ s : State, (s.tstrictRuns = true → exec .deferredChangeApply s = .next s) ∧
    (s.tstrictRuns = false → exec .deferredChangeApply s = .next s.undefer.applyAge)) ∧
  (∀ (s : State) (mons : List (Nat × List (List Int))) (osc : List (Nat × Nat)),
    let x := (osc.foldl (fun s o => s.readOsc o.1 o.2) (mons.foldl (fun s m => s.readDomain m.1 m.2) s)).syncPend
    (x.runCtx = 0 → exec (.ageingReading mons osc) s = .next x.applyAge) ∧ (x.runCtx ≠ 0 → exec (.ageingReading mons osc) s = .next x)) ∧
  (∀ (s : State) (d : Nat) (mons : List (List Int)), (d = 10 ∨ d = 11 ∨ 24 ≤ d ∨ (tget {} s.hlth.ages d).baseline = []) → s.readDomain d mons = s) ∧
  (∀ (s : State) (r c b : Nat), s.Inv → r < 64 → tget 0 s.hlth.roBase r = b → 0 < b → c < 2 ^ 32 → 4 * (c - b) ≤ b → 4 * (b - c) ≤ b →
    (s.readOsc r c).rd (Reg.HLTH_RO r) = c ∧ s.RegsBut (s.readOsc r c) [Reg.HLTH_RO r] ∧ s.Alters (s.readOsc r c) [.regs]) ∧
  (∀ (s : State) (r c b : Nat), r < 64 → tget 0 s.hlth.roBase r = b → 0 < b → b < 4 * (c - b) → (s.readOsc r c).rd (Reg.HLTH_RO r) = s.rd (Reg.HLTH_RO r)) ∧
  (∀ (s : State) (d v : Nat), s.hlth.refit.contains d = false → s.rf (Reg.HLTH_AGE d) 7 0 < v → s.overBudget d v = false →
    (tget {} (s.wantRaise d v).hlth.ages d).pend = some v ∧ (s.wantRaise d v).regs = s.regs) ∧
  (∀ (s : State) (d : Nat), 250 < s.fmax → s.budgetSpent d =
    { s with hlth := { s.hlth with fmaxPend := some (s.fmax - 25, d), refit := List.range 24 } }) ∧
  (∀ s : State, ((s.now - s.hlth.pohAt).toNat < 360000000000 → exec .pohSave s = .next s) ∧
    (360000000000 ≤ (s.now - s.hlth.pohAt).toNat → exec .pohSave s = .next ({ s with hlth := { s.hlth with
      pohSaved := BitVec.ofNat 64 s.poh
      pohAt := s.hlth.pohAt + BitVec.ofNat 64 ((s.poh - s.hlth.pohSaved.toNat) * 100000000) } } : State).saveAge))

/-- The reset commands and FAB_OP_TIMEOUT (R320, R407 to R414). -/
def Obligations.ResetsComplete : Prop :=
  (∀ (s : State) (m : CtlMsg) (c : CtlWay), (m.cls ≠ 0 ∨ m.dst ≠ 35 ∨ m.fits = false) → exec (.resetRequest m c) s = .next s) ∧
  (∀ (s : State) (m : CtlMsg) (c : CtlWay) (l scope source seq : Nat), m.cls = 0 → m.dst = 35 → m.src < 39 → c.bad = none → l < 8 → scope < 2 ^ 16 → source < 16 → seq < 2 ^ 24 →
    m.words = [l * 2 ^ 44 + scope * 2 ^ 28 + source * 2 ^ 24 + seq] →
    let x := (s.take (.ctl m)).ctlWay 0 c
    let r : Reset := { level := l, scope := scope, source := source, seq := seq, start := 0, timer := 0, counted := false, at_ := .closing
                       spins := (x.scopeOf l scope).1, polders := (x.scopeOf l scope).2 }
    ((x.devState = stHalted ∨ l = 0 ∨ 4 < l) → exec (.resetRequest m c) s = .next x) ∧
    (x.devState ≠ stHalted → 1 ≤ l → l ≤ 4 → (∀ y ∈ s.rst.resets, r.within y = false) →
      exec (.resetRequest m c) s = .next (x.beginReset l scope source seq (l == 3 && source == 2) [] x.wall)) ∧
    (∀ y, x.devState ≠ stHalted → 1 ≤ l → l ≤ 4 → s.rst.resets = [y] → r.within y = true →
      (let z := (x.putReset { y with also := y.also ++ [seq], counted := true }).wr Reg.RST_LAST (scope * 2 ^ 16 + source * 2 ^ 12 + 3 * 16 + l)
       l = 3 → source = 2 → y.level = 3 → y.counted = false → exec (.resetRequest m c) s = .next z.countReset) ∧
      ((l ≠ 3 ∨ source ≠ 2 ∨ y.level ≠ 3 ∨ y.counted = true) → Runs (.resetRequest m c) s [.regs, .out, .log, .nodes, .irq, .rst, .logN] (fun t => t.rst.resets = [{ y with also := y.also ++ [seq] }] ∧
        t.rd Reg.RST_LAST = scope * 2 ^ 16 + source * 2 ^ 12 + 48 + l)))) ∧
  (∀ (s : State) (seq : Nat) (slow : List Nat), (s.devState = stHalted ∨ ∀ r ∈ s.rst.resets, r.seq ≠ seq) → exec (.resetAssert seq) s = .next s ∧ exec (.resetInit seq slow) s = .next s ∧
    exec (.resetComplete seq) s = .next s ∧ exec (.resetTimeout seq) s = .next s) ∧
  (∀ (s : State) (seq : Nat) (slow : List Nat) (r : Reset), s.devState ≠ stHalted → s.rst.resets = [r] → r.seq = seq →
    (r.at_ ≠ .closing → exec (.resetAssert seq) s = .next s) ∧
    (r.at_ = .closing → r.level = 4 → ∃ x y : State, exec (.resetAssert seq) s = .next ((x.endLeases y).flagsGone y) ∧
      y = { s with rst := { s.rst with resets := [{ r with at_ := .asserted, assertAt := s.wall }] } } ∧
      x.mem = [] ∧ x.log = [] ∧ x.now = 0 ∧ x.flash = s.flash ∧ x.fuse = s.fuse ∧ x.wall = s.wall ∧ x.modl = s.modl ∧ x.freeN = s.freeN ∧
        x.rst.chipHeld = true ∧ x.rst.resets = [{ r with at_ := .asserted, assertAt := s.wall }]) ∧
    (r.at_ = .closing → r.level = 1 → exec (.resetAssert seq) s =
      .next (r.polders.foldl State.wipePolder (r.spins.foldl State.wipeSpindle { s with rst := { s.rst with resets := [{ r with at_ := .asserted, assertAt := s.wall }] } }))) ∧
    (r.at_ ≠ .asserted → exec (.resetInit seq slow) s = .next s) ∧
    ((r.level = 2 ∨ r.level = 3) → (s.wall - r.assertAt).toNat < 1000 → exec (.resetInit seq slow) s = .next s) ∧
    (r.at_ = .asserted → r.level = 4 → s.rst.pinLow = true → exec (.resetInit seq slow) s = .next s) ∧
    (r.at_ = .asserted → r.level = 4 → s.rst.pinLow = false →
      exec (.resetInit seq slow) s = .next { s with rst := { s.rst with resets := [{ r with at_ := .init }] } }) ∧
    (∀ ps, r.at_ = .asserted → r.level = 1 → r.spins = [ps] → ps < 18 → r.polders = [] →
      Runs (.resetInit seq slow) s [.regs, .rst] (fun t => t.rst.resets = [{ r with at_ := .init }] ∧
        t.spnState ps = (if r.fenced.contains ps then 6 else if s.rf (Reg.SPN_NUM_REV ps) 15 0 ≠ 0 then 0 else s.spnState ps) ∧
        s.RegsBut t [Reg.SPN_STATE ps])) ∧
    (s.resetDone r = false → exec (.resetComplete seq) s = .next s) ∧
    (s.resetDone r = true → r.level = 4 → exec (.resetComplete seq) s = .next (({ s with
        rst := { s.rst with resets := [] }, boot := { began := s.wall, at_ := s.wall } } : State).setDev stBringup 0x0702)) ∧
    (s.resetDone r = true → r.level ≠ 4 → exec (.resetComplete seq) s = .next
      (let x := (r.spins.foldl State.syncStop (r.spins.foldl State.toTest { s with rst := { s.rst with resets := [] } })).syncUnits (r.polders.map crossbarStop)
       let y := (x.rebuild.event 0x0703 r.scope 0 [(16, 1, r.level), (17, 4, (x.wall - r.start).toNat)]).wf Reg.RST_LAST 5 4 1
       (r.seq :: r.also).foldl (fun s n => s.answerReset n r.level) y)) ∧
    (let tmo := s.rd (if r.level = 1 then Reg.RST_TMO1 else if r.level = 2 then Reg.RST_TMO2 else if r.level = 3 then Reg.RST_TMO3 else Reg.RST_TMO4)
     (((s.wall - r.timer).toNat < tmo ∨ s.resetDone r = true ∨ (r.level = 4 ∧ s.rst.pinLow = true)) → exec (.resetTimeout seq) s = .next s) ∧
     (tmo ≤ (s.wall - r.timer).toNat → s.resetDone r = false → r.level = 4 → s.rst.pinLow = false →
       exec (.resetTimeout seq) s = .next (({ s with rst := { s.rst with resets := [], chipHeld := false } } : State).halt 0x0704)) ∧
     (tmo ≤ (s.wall - r.timer).toNat → s.resetDone r = false → r.level = 3 → ∃ x : State, exec (.resetTimeout seq) s =
        .next (x.beginReset 4 devUnit 3 seq false r.also r.start) ∧ x.rst.resets = [] ∧ x.rf Reg.RST_LAST 5 4 = 2 ∧
        (s.Inv → s.EventRoom 0x0704 r.scope → x.Recorded (s.eventRec 0x0704 r.scope 2 [(16, 1, 3), (17, 1, r.at_.code)])))))
  ∧
  (∀ s : State, ((s.off = true ∨ s.devState = stHalted ∨ s.rst.pinLow = true) → exec .sysResetNAssert s = .next s) ∧
    (s.off = false → s.devState ≠ stHalted → s.rst.pinLow = false → Runs .sysResetNAssert s [.out, .rst] (fun t => t.rst.pinLow = true ∧ t.rst.resets = s.rst.resets ∧
      t.rst.seqNo = (s.rst.seqNo + 1) % 2 ^ 24 ∧
      .ctl { cls := 0, dst := 35, src := 0, words := [4 * 2 ^ 44 + devUnit * 2 ^ 28 + 5 * 2 ^ 24 + s.rst.seqNo] } ∈ t.out))) ∧
  (∀ (s : State) (width : Nat), (s.rst.pinLow = true → Runs (.sysResetNRelease width) s [.rst] (fun t => t.rst = { s.rst with
        pinLow := false, resets := s.rst.resets.map (fun r => if r.level = 4 then { r with timer := s.wall } else r) })) ∧
    (s.rst.pinLow = false → (s.off = true ∨ s.devState = stHalted ∨ 100 ≤ width) → exec (.sysResetNRelease width) s = .next s) ∧
    (s.rst.pinLow = false → s.off = false → s.devState ≠ stHalted → width < 100 → Runs (.sysResetNRelease width) s [.regs, .log, .nodes, .irq, .logN] (fun t =>
      s.EventRoom 0x070C devUnit → t.Recorded (s.eventRec 0x070C devUnit 1 [(16, 2, width)])))) ∧
  (∀ (s : State) (sep op : Nat), s.fab.ops.find? (fun o => o.sep == sep && o.op == op) = none → exec (.fabOpTimeout sep op) s = .next s) ∧
  (∀ (s : State) (sep op : Nat) (o : FabOp), s.fab.ops.find? (fun o => o.sep == sep && o.op == op) = some o →
    (((s.now - o.first).toNat < s.rd Reg.FAB_OP_TMO ∨ s.answerWaits o = true) → exec (.fabOpTimeout sep op) s = .next s) ∧
    (s.rd Reg.FAB_OP_TMO ≤ (s.now - o.first).toNat → s.answerWaits o = false →
      let x := (s.dropOp o).event 0x0520 devUnit 2 [(16, 1, o.type), (17, 2, o.dcoord), (19, 1, o.dep), (20, 3, o.op)]
      (∀ ps n, o.who = .dispatch ps n → exec (.fabOpTimeout sep op) s = .next ((x.modSpn ps (fun y => y.opAnswered n)).countFtmo ps o.dcoord)) ∧
      (o.who = .ckpt → exec (.fabOpTimeout sep op) s = .next (x.ckptFail 2 o.dcoord).payRunning) ∧
      (o.who = .restore → exec (.fabOpTimeout sep op) s = .next (x.restoreFail 3)) ∧
      (o.who = .stray → Runs (.fabOpTimeout sep op) s [.regs, .log, .nodes, .irq, .fab, .logN] (fun t =>
        t.fab.ops = s.fab.ops.filter (fun y => decide (y ≠ o)) ∧
        (s.EventRoom 0x0520 devUnit → t.Recorded (s.eventRec 0x0520 devUnit 2 [(16, 1, o.type), (17, 2, o.dcoord), (19, 1, o.dep), (20, 3, o.op)]))))))
/-- PROGRESS_WATCHDOG_EXPIRY and STALL_HANG_THRESHOLD (R415 to R418). -/
def Obligations.HangsComplete : Prop :=
  (∀ (s : State) (ps : Fin 18), (s.rbit Reg.RST_CTL 0 = false → exec (.progressWatchdogExpiry ps) s = .next s) ∧
    (s.watched ps = false → exec (.progressWatchdogExpiry ps) s = .next s ∧ exec (.stallHangThreshold ps) s = .next s) ∧
    ((s.now - (tget {} s.rst.dogs ps).since).toNat < s.rd Reg.RST_WDOG → exec (.progressWatchdogExpiry ps) s = .next s) ∧
    (let w := tget {} s.rst.dogs ps
     (s.heldOther ps w = false → exec (.progressWatchdogExpiry ps) s = .next s) ∧ (w.skc ≠ s.rd64 (Reg.SPN_SKC_LO ps) → exec (.progressWatchdogExpiry ps) s = .next s) ∧
      (s.rbit Reg.RST_CTL 0 = true → s.watched ps = true → w.skc = s.rd64 (Reg.SPN_SKC_LO ps) → w.st = s.spnState ps → s.heldOther ps w = true →
      s.rd Reg.RST_WDOG ≤ (s.now - w.since).toNat → exec (.progressWatchdogExpiry ps) s = .next (s.hang ps 1 (s.polderOf ps) 0))) ∧
    (s.rbit Reg.RST_CTL 1 = false → exec (.stallHangThreshold ps) s = .next s) ∧
    (∀ c oc, s.rbit Reg.RST_CTL 1 = true → s.watched ps = true → (s.spn ps).outq = [(c, oc)] → s.rd Reg.RST_STALL_HANG ≤ oc.stall → oc.hung = false →
      exec (.stallHangThreshold ps) s = .next ((s.setSpn ps { s.spn ps with outq := tset {} (s.spn ps).outq c { oc with hung := true } }).hang ps 2
        (s.polderOf ps) c)) ∧
    ((s.spn ps).outq = [] → (s.spn ps).inq = [] → exec (.stallHangThreshold ps) s = .next s)) ∧
  (∀ (s : State) (ps src polder cnt : Nat), (s.quarActive && s.quarCtx == s.runCtx) = false →
    let x := ((s.event 0x0701 (unitId 0 ps) 2 [(16, 1, src), (17, 1, 2 ^ polder), (18, 1, s.logicalN ps), (19, 4, cnt)]).sat Reg.RST_HANG_CNT 1).faultRunning 0x0701
    tget [] x.rst.ran polder = [] → s.hang ps src polder cnt = (x.requestReset 3 (unitId 2 polder) 2).2) ∧
  (∀ (s : State) (ps dcoord : Nat), (s.rbit Reg.RST_CTL 2 = false → s.countFtmo ps dcoord = s) ∧ (s.peerBreached dcoord = true → s.countFtmo ps dcoord = s) ∧
    (∀ j, s.runningSlot = some j → j.st ≠ .faulted → s.rbit Reg.RST_CTL 2 = true → s.peerBreached dcoord = false → tget none s.clk.ftmo (s.polderOf ps) = none →
      1 < s.rf Reg.RST_FTMO_CNT 15 0 → tget none (s.countFtmo ps dcoord).clk.ftmo (s.polderOf ps) = some (s.now, 1)))

/-- Commands of the reel engine (R437 to R447). -/
def Obligations.CheckpointsComplete : Prop :=
  (∀ (s : State) (f : Flips), s.reel.ckpt = none → exec (.ckptHeaderAcked f) s = .next s ∧ exec .ckptDrainComplete s = .next s ∧
    exec .ckptCommitted s = .next s ∧ exec .ckptDrainTimeout s = .next s) ∧
  (∀ (s : State) (f : Flips) (k : Ckpt), s.reel.ckpt = some k →
    (s.reelQuiet = false → exec (.ckptHeaderAcked f) s = .next s ∧ exec .ckptDrainComplete s = .next s ∧ exec .ckptCommitted s = .next s) ∧
    (k.phase ≠ 1 → exec (.ckptHeaderAcked f) s = .next s) ∧ (k.phase ≠ 2 → exec .ckptDrainComplete s = .next s) ∧ (k.phase ≠ 4 → exec .ckptCommitted s = .next s) ∧
    (k.phase = 1 → s.reelQuiet = true → k.regions = [] → exec (.ckptHeaderAcked f) s =
      .next { s with reel := { s.reel with ckpt := some { k with phase := 2, digest := sha384 [], poison := false } } }) ∧
    (∀ r, k.phase = 1 → s.reelQuiet = true → k.regions = [r] → r.len = 4096 → k.dests = [] →
      let d := s.devRead .reel (r.buf k.step) 4096 f
      exec (.ckptHeaderAcked f) s = .next { d.2.2.2 with reel := { d.2.2.2.reel with ckpt := some { k with
        phase := 2, digest := sha384 d.1, poison := d.2.1 != 0 } } }) ∧
    (k.phase = 2 → s.reelQuiet = true → ∃ x : State, exec .ckptDrainComplete s = .next x.payRunning.ckptValid ∧
      x.reel.ckpt = some { k with phase := 3, released := true, cost := (s.now - k.start).toNat } ∧ x.prot = s.prot.filter (fun p => decide (p.kind ≠ ProtKind.ckpt)) ∧
      x.mem = s.mem ∧ x.log = s.log ∧ (s.Inv → x.rf Reg.REEL_ST 1 0 = 2 ∧ s.RegsBut x [Reg.REEL_ST])) ∧
    (k.phase = 4 → s.reelQuiet = true → k.seq < 2 ^ 32 → k.step < 2 ^ 64 → k.cost < 2 ^ 64 →
      Runs .ckptCommitted s [.regs, .log, .nodes, .irq, .reel, .logN] (fun t => t.reel = { s.reel with ckpt := none } ∧ t.rd Reg.REEL_SEQ = k.seq ∧
        t.rd64 Reg.REEL_STEP_LO = k.step ∧ t.rd64 Reg.REEL_COST_LO = k.cost ∧ t.rf Reg.REEL_ST 1 0 = 0 ∧ t.rf Reg.REEL_ST 31 16 = 0 ∧
        t.rd Reg.REEL_DONE = min (s.rd Reg.REEL_DONE + 1) 0xFFFFFFFF ∧
        (s.EventRoom 0x0721 0x201C → t.Recorded (s.eventRec 0x0721 0x201C 1 [(16, 2, k.ctx), (18, 4, k.seq), (22, 1, if k.poison then 1 else 0)])))) ∧
    (k.phase ≤ 2 → s.rd Reg.REEL_DRAIN_TMO * 100000000 ≤ (s.now - k.start).toNat →
      exec .ckptDrainTimeout s = .next (s.ckptFail 3 ((k.dests.head?.map (·.coord)).getD 0)).payRunning) ∧
    ((2 < k.phase ∨ (s.now - k.start).toNat < s.rd Reg.REEL_DRAIN_TMO * 100000000) → exec .ckptDrainTimeout s = .next s) ∧
    (∀ cause coord, s.Inv → (s.ckptFail cause coord).reel = { s.reel with ckpt := none } ∧
      (s.ckptFail cause coord).prot = s.prot.filter (fun p => decide (p.kind ≠ ProtKind.ckpt)) ∧
      (s.ckptFail cause coord).rd Reg.REEL_FAIL = min (s.rd Reg.REEL_FAIL + 1) 0xFFFFFFFF ∧ (s.ckptFail cause coord).mem = s.mem)) ∧
  (∀ (s : State) (f : Flips), s.reel.restore = none → exec .restoreHeaderRead s = .next s ∧ exec (.restoreDataDone f) s = .next s) ∧
  (∀ (s : State) (f : Flips) (r : Restore), s.reel.restore = some r →
    (s.restoreQuiet = false → exec .restoreHeaderRead s = .next s ∧ exec (.restoreDataDone f) s = .next s) ∧
    (r.phase ≠ 1 → exec .restoreHeaderRead s = .next s) ∧ (r.phase ≠ 2 → exec (.restoreDataDone f) s = .next s) ∧
    (r.phase = 1 → s.restoreQuiet = true →
      (r.bad = true → exec .restoreHeaderRead s = .next (s.restoreFail 3)) ∧
      (r.bad = false → s.restoreJob r = none → exec .restoreHeaderRead s = .next (s.restoreFail 1)) ∧
      (∀ j d, r.bad = false → s.restoreJob r = some (j, d) → headerFits r.hdr j d = false → exec .restoreHeaderRead s = .next (s.restoreFail 1)) ∧
      (∀ j d, r.bad = false → s.restoreJob r = some (j, d) → headerFits r.hdr j d = true → 4096 < imageLen d.regions → imageLen d.regions ≤ 4096 + 0x1000000 →
        exec .restoreHeaderRead s = .next (({ s with reel := { s.reel with restore := some { r with
          phase := 2, data := List.replicate (imageLen d.regions - 4096) 0 } } } : State).restoreRead r 4096 (imageLen d.regions - 4096)))) ∧
    (r.phase = 2 → s.restoreQuiet = true →
      (s.restoreJob r = none → exec (.restoreDataDone f) s = .next (s.restoreFail 1)) ∧
      (∀ j d, s.restoreJob r = some (j, d) →
        let x := s.putRegions j.job.startStep.toNat f d.regions r.data r.pois
        (r.bad = true → exec (.restoreDataDone f) s = .next (x.restoreFail 3)) ∧
        (r.bad = false → sha384 r.data ≠ sliceB r.hdr 0x90 48 → exec (.restoreDataDone f) s = .next (x.restoreFail 2)) ∧
        (r.bad = false → sha384 r.data = sliceB r.hdr 0x90 48 → exec (.restoreDataDone f) s = .next (
          (((({ x with reel := { x.reel with restore := none } } : State).modSlot (r.ctx % 16) (fun j => { j with
            st := .ready, vloss := some (BitVec.ofNat 32 (rdLE r.hdr 0x80 4)) })).wf Reg.REEL_ST 7 6 2).event 0x0723 0x201C 1
              [(16, 2, r.ctx), (18, 4, rdLE r.hdr 8 4)]).finish .restore stOK (toLE 4 (rdLE r.hdr 8 4)))))))
/-- Commands of clock generation (R456 to R464). -/
def Obligations.ClocksComplete : Prop :=
  (∀ (s : State) (kind : Fin 4), (s.rf Reg.CLK_ST 3 2 ≠ 0 → exec (.refclkLost kind) s = .next s) ∧
    (s.rf Reg.CLK_ST 3 2 = 0 → Runs (.refclkLost kind) s [.regs, .log, .nodes, .irq, .clk, .logN] (fun t => t.rf Reg.CLK_ST 3 2 = 1 ∧ t.rbit Reg.CLK_ST 0 = false ∧
      t.rbit Reg.CLK_REDUCE 20 = true ∧ t.rd Reg.CLK_REFLOSS_CNT = min (s.rd Reg.CLK_REFLOSS_CNT + 1) 0xFFFFFFFF ∧
      t.clk.reqs = { cause := 7, isForced := true } :: s.clk.reqs ∧ t.effF = 250 ∧
      (s.EventRoom 0x0103 devUnit → t.Recorded (s.eventRec 0x0103 devUnit 2 [(16, 1, kind)]))))) ∧
  (∀ s : State, (s.rf Reg.CLK_ST 3 2 = 0 → Runs .refclkRestored s [.regs] (fun t => t.rbit Reg.CLK_ST 0 = true ∧ s.RegsBut t [Reg.CLK_ST])) ∧
    (s.rf Reg.CLK_ST 3 2 ≠ 0 → Runs .refclkRestored s [.regs, .log, .nodes, .irq, .clk, .pwr, .logN] (fun t => t.rf Reg.CLK_ST 3 2 = 0 ∧
      t.rbit Reg.CLK_ST 0 = true ∧ t.rbit Reg.CLK_REDUCE 20 = false ∧ t.clk = { s.clk with missing := s.safeSteps, stepAt := s.now } ∧
      (s.rf Reg.CLK_ST 3 2 = 1 → t.pwr = s.pwr) ∧ (s.EventRoom 0x0104 devUnit → t.Recorded (s.eventRec 0x0104 devUnit 1 []))))) ∧
  (∀ s : State, (s.rf Reg.CLK_ST 3 2 = 2 → exec .refBothLost s = .next s) ∧
    (s.rf Reg.CLK_ST 3 2 ≠ 2 → Runs .refBothLost s [.regs, .log, .nodes, .irq, .clk, .pwr, .logN] (fun t => t.rf Reg.CLK_ST 3 2 = 2 ∧ t.rbit Reg.CLK_ST 0 = false ∧
      t.rbit Reg.CLK_ST 1 = false ∧ t.rbit Reg.CLK_REDUCE 20 = true ∧ t.pwr = { s.pwr with alert := true } ∧
      (s.EventRoom 0x0105 devUnit → t.Recorded (s.eventRec 0x0105 devUnit 3 [(16, 1, s.rf Reg.CLK_ST 3 2)]))))) ∧
  (∀ s : State, (s.rf Reg.CLK_ST 3 2 ≠ 0 → exec .holdoverLost s = .next s) ∧
    (s.rf Reg.CLK_ST 3 2 = 0 → Runs .holdoverLost s [.regs] (fun t => t.rbit Reg.CLK_ST 1 = false ∧ s.RegsBut t [Reg.CLK_ST]))) ∧
  (∀ s : State, (s.clk.change ≠ none → exec .freqChangeRequest s = .next s) ∧ (s.clk.reqs = [] → exec .freqChangeRequest s = .next s) ∧
    (∀ r rest, s.clk.change = none → s.clk.reqs = r :: rest → s.effF = s.aMhz →
      exec .freqChangeRequest s = .next ((({ s with clk := { s.clk with reqs := rest } } : State).syncPlan s.aMhz).syncClk.freqDone 0)) ∧
    (∀ r rest, s.clk.change = none → s.clk.reqs = r :: rest → s.effF ≠ s.aMhz → Runs .freqChangeRequest s [.regs, .clk] (fun t =>
      t.clk = { s.clk with reqs := rest, change := some { step := 1, old := s.aMhz, new := s.effF, target := 0, req := r, start := s.now } } ∧
      (s.aMhz < s.effF → ∀ d, d < 24 → t.rf (Reg.PWR_DOM_V d) 31 16 = s.planMv d s.effF % 2 ^ 16) ∧ t.aMhz = s.aMhz))) ∧
  (∀ (s : State) (c : FreqChange) (w : CtlWay), s.clk.change = some c →
    (c.step ≠ 1 → exec (.freqChangeBroadcast w) s = .next s ∧ exec .pllLockTimeout s = .next s) ∧
    (c.step ≠ 3 → exec .freqSwitch s = .next s) ∧ (c.step ≠ 5 → exec .freqVoltageSettled s = .next s) ∧
    (let T := s.rd64 Reg.CLK_ATICK_LO + (if c.req.isForced then 64 else 256)
     let m : Msg := .ctl { cls := 0, dst := 63, src := 34, words := [2 ^ 40 + c.new * 2 ^ 30, T] }
     c.step = 1 → T < 2 ^ 64 →
      (w.bad = none → Runs (.freqChangeBroadcast w) s [.regs, .freeN, .out, .clk] (fun t =>
        t.clk = { s.clk with change := some { c with step := 3, target := BitVec.ofNat 64 T } } ∧ t.rd64 Reg.CLK_FTGT_LO = T ∧ t.out = s.out ++ [m])) ∧
      (∀ n, w.bad = some n → exec (.freqChangeBroadcast w) s =
        (let y := ({ s with clk := { s.clk with change := some { c with step := 3, target := BitVec.ofNat 64 T } } } : State).ctlWay 0 w
         .next (((y.free.2.maxField Reg.CNET_STAT 7 0 (y.free.1 % 25)).wr64 Reg.CLK_FTGT_LO T).send m)))) ∧
    (s.rd64 Reg.CLK_ATICK_LO < c.target.toNat → exec .freqSwitch s = .next s) ∧
    (c.step = 3 → c.target.toNat ≤ s.rd64 Reg.CLK_ATICK_LO → c.new < c.old → c.old < 1024 → s.runCtx = 0 →
      Runs .freqSwitch s [.regs, .out, .log, .nodes, .irq, .clk, .logN] (fun t => t.aMhz = c.new ∧ t.clk = { s.clk with change := some { c with step := 5, start := s.now } } ∧
        t.out = s.out.erase (.ctl c.msg) ∧ t.rd64 Reg.CLK_FTGT_LO = 0 ∧ t.rd Reg.CLK_FCHG_CNT = min (s.rd Reg.CLK_FCHG_CNT + 1) 0xFFFFFFFF ∧
        t.rbit Reg.DET_ALIGN 0 = false ∧ t.rf Reg.DET_ALIGN 7 4 = 2 ∧ (∀ d, d < 24 → t.rf (Reg.PWR_DOM_V d) 31 16 = s.planMv d c.new % 2 ^ 16) ∧
        (s.EventRoom 0x0101 devUnit → t.Recorded (s.eventRec 0x0101 devUnit 1 [(16, 2, c.old), (18, 2, c.new), (20, 1, c.req.cause)])))) ∧
    (c.step = 3 → c.target.toNat ≤ s.rd64 Reg.CLK_ATICK_LO → c.old ≤ c.new → c.new < 1024 → s.runCtx = 0 → s.Inv →
      ∃ x : State, exec .freqSwitch s = .next (if c.req.cause = 1 ∨ c.req.cause = 3 ∨ s.effF = c.new then x.freqDone 0 else x) ∧ x.aMhz = c.new ∧ x.clk = { s.clk with change := none } ∧ x.rd64 Reg.CLK_FTGT_LO = 0) ∧
    (let x := ({ s with clk := { s.clk with change := none } } : State).syncClk
     c.step = 5 → exec .freqVoltageSettled s = .next (if x.freqSettles c.req then x.freqDone 0 else x)) ∧
    (c.step = 1 → (s.now - c.start).toNat < 20000 → exec .pllLockTimeout s = .next s) ∧
    (let x := ((({ s with clk := { s.clk with change := none } } : State).syncPlan c.old).syncClk).event 0x0108 devUnit 2 [(16, 2, c.new)]
     c.step = 1 → 20000 ≤ (s.now - c.start).toNat → s.Inv →
      exec .pllLockTimeout s = .next (if c.req.cause = 1 ∨ c.req.cause = 3 ∨ s.clk.reqs = [] then x.freqDone stHW_FAULT else x))) ∧
  (∀ (s : State) (w : CtlWay), s.clk.change = none → exec (.freqChangeBroadcast w) s = .next s ∧ exec .freqSwitch s = .next s ∧ exec .freqVoltageSettled s = .next s ∧
    exec .pllLockTimeout s = .next s) ∧
  (∀ (s : State) (r : Fin 30), Runs (.droopDetect r) s [.regs, .log, .nodes, .seqr, .irq, .clk, .logN] (fun t => t.clk.droopAt = s.now ∧ t.clk.lastStretch = s.now ∧
    t.clk.stretched = s.clk.stretched ++ [max (s.rd64 Reg.CLK_ATICK_LO + 2) (s.clk.lastPeriod.toNat + 1)] ∧
    t.clk.lastPeriod = BitVec.ofNat 64 (max (s.rd64 Reg.CLK_ATICK_LO + 2) (s.clk.lastPeriod.toNat + 1)) ∧
    (s.clk.window = none → t.clk.window = some (s.now, 1, (r : Nat))) ∧ t.rd Reg.CLK_STRETCH_CNT = min (s.rd Reg.CLK_STRETCH_CNT + 1) 0xFFFFFFFF ∧
    t.rd (Reg.CLK_DROOP r) = min (s.rd (Reg.CLK_DROOP r) + 1) 0xFFFFFFFF ∧ t.rbit Reg.DET_ALIGN 0 = false ∧ t.rf Reg.DET_ALIGN 7 4 = 1)) ∧
  (∀ (s : State) (a : DWord) (n g : Nat), s.clk.window = some (a, n, g) →
    ((s.now - a).toNat < 100000000 → exec .stretchWindowEnd s = .next s) ∧
    (100000000 ≤ (s.now - a).toNat → Runs .stretchWindowEnd s [.regs, .log, .nodes, .irq, .clk, .logN] (fun t => t.clk = { s.clk with window := none } ∧
      (s.EventRoom 0x0102 devUnit → t.Recorded (s.eventRec 0x0102 devUnit 1 [(16, 4, n), (20, 1, g)]))))) ∧
  (∀ s : State, (s.clk.window = none → exec .stretchWindowEnd s = .next s) ∧ (s.droop = 0 → exec .droopReturn s = .next s) ∧
    ((s.now - s.clk.droopAt).toNat < 100000000 → exec .droopReturn s = .next s) ∧
    (0 < s.droop → 100000000 ≤ (s.now - s.clk.droopAt).toNat → Runs .droopReturn s [.regs, .clk] (fun t => t.droop = s.droop - 1 ∧ t.clk.droopAt = s.now ∧
      s.RegsBut t [Reg.CLK_REDUCE, Reg.CLK_PLAN, Reg.CLK_ST])) ∧
    (s.clk.missing = 0 → exec .safeClockStepUp s = .next s) ∧ ((s.now - s.clk.stepAt).toNat < 1000000 → exec .safeClockStepUp s = .next s) ∧
    (0 < s.clk.missing → 1000000 ≤ (s.now - s.clk.stepAt).toNat → Runs .safeClockStepUp s [.regs, .clk] (fun t => t.clk.missing = s.clk.missing - 1 ∧
      t.clk.stepAt = s.now ∧ s.RegsBut t [Reg.CLK_PLAN, Reg.CLK_ST])))
/-- Commands of power, temperature and domains (R466 to R473). -/
def Obligations.PowerComplete : Prop :=
  (∀ (s : State) (w : BitVec 16),
    (10 * w.toNat ≤ 11 * s.effCap → Runs (.powerAvg1ms w) s [.regs, .pwr] (fun t => t.rf Reg.PWR_IN 15 0 = w.toNat ∧ s.RegsBut t [Reg.PWR_IN] ∧
      t.pwr = { s.pwr with capSum := s.pwr.capSum + w.toNat, capN := s.pwr.capN + 1 })) ∧
    (11 * s.effCap < 10 * w.toNat → Runs (.powerAvg1ms w) s [.regs, .log, .nodes, .irq, .clk, .pwr, .logN] (fun t => t.rf Reg.PWR_IN 15 0 = w.toNat ∧
      t.powerSteps = min 18 (s.powerSteps + 1) ∧ t.clk.reqs = { cause := 4, isForced := true } :: s.clk.reqs ∧
      t.pwr = { s.pwr with capSum := s.pwr.capSum + w.toNat, capN := s.pwr.capN + 1, capSince := 0 } ∧
      (s.EventRoom 0x0107 devUnit → t.Recorded (s.eventRec 0x0107 devUnit 1 [(16, 1, 2), (17, 2, w.toNat)]))))) ∧
  (∀ s : State, ((s.now - s.pwr.capAt).toNat < 1000000 → exec .capWindowEnd s = .next s) ∧
    (1000000 ≤ (s.now - s.pwr.capAt).toNat →
      (s.pwr.capN * s.effCap < s.pwr.capSum → Runs .capWindowEnd s [.regs, .log, .nodes, .irq, .clk, .pwr, .logN] (fun t =>
        t.pwr = { s.pwr with capAt := s.pwr.capAt + 1000000, capSum := 0, capN := 0, capSince := 0 } ∧ t.powerSteps = min 18 (s.powerSteps + 1) ∧
        t.rd Reg.PWR_OVER_CNT = min (s.rd Reg.PWR_OVER_CNT + 1) 0xFFFFFFFF ∧
        (s.EventRoom 0x0107 devUnit → t.Recorded (s.eventRec 0x0107 devUnit 1 [(16, 1, 1), (17, 2, s.pwr.capSum / s.pwr.capN)])))) ∧
      (10 * s.pwr.capSum < 9 * s.effCap * s.pwr.capN → 0 < s.powerSteps → 99 ≤ s.pwr.capSince → Runs .capWindowEnd s [.regs, .clk, .pwr] (fun t =>
        t.pwr = { s.pwr with capAt := s.pwr.capAt + 1000000, capSum := 0, capN := 0, capSince := 0 } ∧ t.powerSteps = s.powerSteps - 1)) ∧
      (10 * s.pwr.capSum < 9 * s.effCap * s.pwr.capN → 0 < s.powerSteps → s.pwr.capSince < 99 → Runs .capWindowEnd s [.pwr] (fun t =>
        t.pwr = { s.pwr with capAt := s.pwr.capAt + 1000000, capSum := 0, capN := 0, capSince := s.pwr.capSince + 1 })) ∧
      (s.pwr.capSum ≤ s.pwr.capN * s.effCap → s.powerSteps = 0 → Runs .capWindowEnd s [.pwr] (fun t =>
        t.pwr = { s.pwr with capAt := s.pwr.capAt + 1000000, capSum := 0, capN := 0 })))) ∧
  (∀ s : State, s.pwr.tj = [] → exec (.junctionSensorRead []) s = .next s) ∧
  (∀ (s : State) (v : Nat), s.pwr.tj = [] → v ≤ 150 → Runs (.junctionSensorRead [(v : Int)]) s [.regs, .freeN, .log, .nodes, .irq, .clk, .pwr, .logN] (fun t =>
    t.pwr.tj = [(0, [(v : Int)])] ∧ t.rf (Reg.PWR_TEMP 0) 7 0 = v ∧ t.rf Reg.PWR_TJ 7 0 = v ∧ t.rf Reg.PWR_TJ 15 8 = 0 ∧
    t.rf Reg.PWR_THROT 2 0 = thermLevel v (s.rf Reg.PWR_TJ 23 16))) ∧
  (∀ (s : State) (v : Int), s.pwr.tj = [] → (v < -40 ∨ 150 < v) → Runs (.junctionSensorRead [v]) s [.regs, .freeN, .log, .nodes, .irq, .clk, .pwr, .logN] (fun t =>
    t.pwr.tj = [(0, [105])] ∧ t.rf (Reg.PWR_TEMP 0) 7 0 = 105 ∧ t.rf Reg.PWR_THROT 2 0 = 3)) ∧
  (∀ s : State, (1 ≤ s.rf Reg.PWR_THROT 2 0 →
      (100000 ≤ (s.now - s.pwr.thermAt).toNat → s.therm < 18 → Runs .thermStepTimer s [.regs, .clk, .pwr] (fun t => t.therm = s.therm + 1 ∧
        t.pwr = { s.pwr with thermAt := s.now } ∧ t.clk.reqs = { cause := 5, isForced := true } :: s.clk.reqs)) ∧
      ((s.now - s.pwr.thermAt).toNat < 100000 → exec .thermStepTimer s = .next s) ∧ (18 ≤ s.therm → exec .thermStepTimer s = .next s)) ∧
    (s.rf Reg.PWR_THROT 2 0 = 0 →
      (s.pwr.coolAt = none → exec .thermStepTimer s = .next s) ∧ (s.therm = 0 → exec .thermStepTimer s = .next s) ∧
      (∀ a, s.pwr.coolAt = some a → (s.now - a).toNat < 10000000 → exec .thermStepTimer s = .next s) ∧
      (∀ a, s.pwr.coolAt = some a → 10000000 ≤ (s.now - a).toNat → 0 < s.therm → Runs .thermStepTimer s [.regs, .clk, .pwr] (fun t => t.therm = s.therm - 1 ∧
        t.pwr = { s.pwr with coolAt := some s.now })))) ∧
  (∀ (s : State) (d : Fin 24), (s.domOn d = false → exec (.domainRegulationFault d) s = .next s) ∧
    (s.domOn d = true → exec (.domainRegulationFault d) s = .next ((s.event 0x0109 (domUnit d) 1 [(16, 1, 4)]).reportDomain d))) ∧
  (∀ (s : State) (v : Word), (∀ i, 12 ≤ i → i < 22 → v.toNat.testBit i = s.rbit Reg.PWR_GATE i) → exec (.pwrGateWrite v) s = .next s) ∧
  (∀ (s : State) (v : Word) (d : Nat), 12 ≤ d → d < 22 → s.rbit Reg.PWR_GATE d = false → (∃ ps ∈ psOfDom d, s.spnState ps ≠ 6) → v.toNat.testBit d = true →
    (∀ i, 12 ≤ i → i < 22 → i ≠ d → v.toNat.testBit i = s.rbit Reg.PWR_GATE i) → exec (.pwrGateWrite v) s = .next s) ∧
  (∀ (s : State) (v : Word) (d : Nat), s.off = false → 12 ≤ d → d < 22 → s.rbit Reg.PWR_GATE d = false → (∀ ps ∈ psOfDom d, s.spnState ps = 6) → v.toNat.testBit d = true →
    (∀ i, 12 ≤ i → i < 22 → i ≠ d → v.toNat.testBit i = s.rbit Reg.PWR_GATE i) →
    Runs (.pwrGateWrite v) s [.regs, .log, .nodes, .mem, .poison, .spns, .domsOff, .irq, .logN] (fun t => t.domOn d = false ∧ t.rbit Reg.PWR_GATE d = true ∧
      (∀ ps ∈ psOfDom d, t.spn ps = {}) ∧ (∀ i, i < 24 → i ≠ d → t.domOn i = s.domOn i))) ∧
  (∀ (s : State) (l : List (Nat × Nat × Nat)), s.domOn 0 = false → exec (.telemetryRefresh l) s = .next s) ∧
  (∀ s : State, s.domOn 0 = true → Runs (.telemetryRefresh []) s [.pwr] (fun t => t.pwr = { s.pwr with
    copyNo := s.pwr.copyNo + 1, copies := [s.reg Reg.CMD_DEV_STATE, s.reg Reg.CLK_ST, s.reg Reg.PWR_ST, s.reg Reg.PWR_IN, s.reg Reg.PWR_TJ, s.reg Reg.PWR_THROT] })) ∧
  (∀ (s : State) (d v i : Nat), s.domOn 0 = true → d < 24 → Runs (.telemetryRefresh [(d, v, i)]) s [.regs, .pwr] (fun t =>
    t.rf (Reg.PWR_DOM_V d) 15 0 = v % 65536 ∧ t.rf (Reg.PWR_DOM_I d) 15 0 = i % 65536 ∧ s.RegsBut t [Reg.PWR_DOM_V d, Reg.PWR_DOM_I d]))

/-- Register rows (R8, R9, R30 to R34, R72, R478 to R483, R491). -/
def Obligations.RegistersComplete : Prop :=
  (∀ (s : State) (who : Who) (a : Nat) (c : Instr), (c = .rcRead who a 4 ∨ c = .reg64LowRead who a 4 ∨ (c = .sknStatusRead who ∧ a = Reg.SKN_STATUS) ∨
      (c = .cmdDevStateRead who ∧ a = Reg.CMD_DEV_STATE) ∨ (c = .cmdLcpOutRead who ∧ a = Reg.CMD_LCP_OUT)) →
    ((reaches who = false ∨ regMapped a = false) → exec c s = .next (s.badAccess who a 0)) ∧
    (reaches who = true → regMapped a = true → inDebug a = true → Runs c s [.out] (fun t => t.out = s.out ++ [.value who a 0])) ∧
    (reaches who = true → regMapped a = true → inDebug a = false → s.domOn (regDomain a) = false →
      Runs c s [.regs, .out, .log, .nodes, .irq, .logN] (fun t => t.out = s.out ++ [.value who a 0] ∧
        (s.EventRoom 0x0210 devUnit → t.Recorded (s.eventRec 0x0210 devUnit 2 [(16, 5, 0x5000000000 + a), (21, 1, who.code), (22, 1, 0), (23, 1, 0)])))) ∧
    (reaches who = true → regMapped a = true → inDebug a = false → s.domOn (regDomain a) = true →
      exec c s = .next ((s.regRead a).2.send (.value who a (s.regRead a).1)) ∧
      (∀ w, tget none s.latch a = some w → Runs c s [.latch, .out] (fun t => t.out = s.out ++ [.value who a w.toNat] ∧ tget none t.latch a = none)) ∧
      (tget none s.latch a = none → isLow a = true → Runs c s [.regs, .latch, .out, .log, .nodes, .irq, .logN, .cq] (fun t =>
        tget none t.latch (a + 4) = some (BitVec.ofNat 32 (s.view (a + 4)))))))  ∧
  (∀ (s : State) (who : Who) (a n : Nat), n ≠ 4 → exec (.rcRead who a n) s = .next (s.badAccess who a 0) ∧
    exec (.reg64LowRead who a n) s = .next (s.badAccess who a 0)) ∧
  (∀ (s : State) (who : Who), reaches who = true → s.domOn 22 = true → tget none s.latch Reg.SKN_STATUS = none →
    Runs (.sknStatusRead who) s [.regs, .out, .irq] (fun t => t.irq = s.irq &&& ~~~(4#8) ∧ t.out = s.out ++ [.value who Reg.SKN_STATUS (s.view Reg.SKN_STATUS)])) ∧
  (∀ (s : State) (who : Who), reaches who = true → s.domOn 0 = true → tget none s.latch Reg.CMD_DEV_STATE = none →
    Runs (.cmdDevStateRead who) s [.regs, .out, .irq] (fun t => t.irq = s.irq &&& ~~~(128#8) ∧
      t.out = s.out ++ [.value who Reg.CMD_DEV_STATE (s.view Reg.CMD_DEV_STATE)])) ∧
  (∀ (s : State) (who : Who) (w v : Word) (q : List Word) (rest : List (List Word)), reaches who = true → s.domOn 0 = true →
    tget none s.latch Reg.CMD_LCP_OUT = none → s.cq.replies = (w :: v :: q) :: rest →
    Runs (.cmdLcpOutRead who) s [.regs, .out, .cq] (fun t => t.out = s.out ++ [.value who Reg.CMD_LCP_OUT w.toNat] ∧
      t.cq = { s.cq with replies := (v :: q) :: rest })) ∧
  (∀ (s : State) (who : Who) (w : Word), reaches who = true → s.domOn 0 = true → tget none s.latch Reg.CMD_LCP_OUT = none → s.cq.replies = [[w]] →
    Runs (.cmdLcpOutRead who) s [.regs, .out, .irq, .cq] (fun t => t.out = s.out ++ [.value who Reg.CMD_LCP_OUT w.toNat] ∧
      t.cq = { s.cq with replies := [] } ∧ t.irq = s.irq &&& ~~~(8#8))) ∧
  (∀ (s : State) (h : Fin 8) (a : Nat) (v : Word),
    (∀ n, n ≠ 4 → exec (.regWriteOther h a v n) s = .next (s.badAccess (.core h) a 1)) ∧
    (regMapped a = false → exec (.regWriteOther h a v 4) s = .next (s.badAccess (.core h) a 1)) ∧
    (regMapped a = true → s.coreMay a = false → Runs (.regWriteOther h a v 4) s [.regs, .log, .nodes, .irq, .logN] (fun t =>
      t.rd Reg.MGMT_REGW_CNT = min (s.rd Reg.MGMT_REGW_CNT + 1) 0xFFFFFFFF ∧
      (s.EventRoom 0x0A0C devUnit → t.Recorded (s.eventRec 0x0A0C devUnit 1 [(16, 5, 0x5000000000 + a), (21, 1, h)])))) ∧
    (regMapped a = true → s.coreMay a = true → s.domOn (regDomain a) = false → Runs (.regWriteOther h a v 4) s [.regs, .log, .nodes, .irq, .logN] (fun t =>
      s.EventRoom 0x0210 devUnit → t.Recorded (s.eventRec 0x0210 devUnit 2 [(16, 5, 0x5000000000 + a), (21, 1, 2), (22, 1, 1), (23, 1, 0)]))) ∧
    (regMapped a = true → s.coreMay a = true → s.domOn (regDomain a) = true → exec (.regWriteOther h a v 4) s = .next (s.writeReg a v.toNat))) ∧
  (∀ (s : State) (who : Who) (a dir : Nat), Runs (.rcRead (.spindle 0) a 4) s [.regs, .log, .nodes, .irq, .logN] (fun t =>
      s.EventRoom 0x0210 devUnit → t.Recorded (s.eventRec 0x0210 devUnit 2 [(16, 5, 0x5000000000 + a), (21, 1, 0), (22, 1, 0), (23, 1, 0)])) ∧
    (∀ h, who = .core h → (s.badAccess who a dir).out = s.out ++ [.trap h false (0x5000000000 + a)]) ∧ ((∀ h, who ≠ .core h) → (s.badAccess who a dir).out = s.out)) ∧
  (∀ (s : State) (who : Who) (a : Nat),
    Runs (.regAccessTimeout who a false) s [.regs, .out, .log, .nodes, .irq, .logN] (fun t => t.out = s.out ++ [.value who a 0] ∧
      (s.EventRoom 0x0210 devUnit → t.Recorded (s.eventRec 0x0210 devUnit 2 [(16, 5, 0x5000000000 + a), (21, 1, who.code), (22, 1, 0), (23, 1, 1)]))) ∧
    Runs (.regAccessTimeout who a true) s [.regs, .log, .nodes, .irq, .logN] (fun t => s.EventRoom 0x0210 devUnit →
      t.Recorded (s.eventRec 0x0210 devUnit 2 [(16, 5, 0x5000000000 + a), (21, 1, who.code), (22, 1, 1), (23, 1, 1)]))) ∧
  (∀ (s : State) (ps : Fin 18) (v : Word), (s.runCtx ≠ 0 → exec (.spnNumFlagsWrite ps false v) s = .next (s.send (.refused (0x5000000000 + Reg.SPN_NUM_FLAGS ps) stBAD_STATE))) ∧
    (∀ expert, (expert = true ∨ s.runCtx = 0) → s.domOn (regDomain (Reg.SPN_NUM_FLAGS ps)) = true → Runs (.spnNumFlagsWrite ps expert v) s [.regs] (fun t => s.RegsBut t [Reg.SPN_NUM_FLAGS ps] ∧
      ∀ b, b < 7 → t.rbit (Reg.SPN_NUM_FLAGS ps) b = (s.rbit (Reg.SPN_NUM_FLAGS ps) b && !v.toNat.testBit b))) ∧
    (∀ expert, (expert = true ∨ s.runCtx = 0) → s.domOn (regDomain (Reg.SPN_NUM_FLAGS ps)) = false →
      exec (.spnNumFlagsWrite ps expert v) s = .next (s.addrError (0x5000000000 + Reg.SPN_NUM_FLAGS ps) 3 1 0))) ∧
  (∀ (s : State) (v ns : Word) (sec : BitVec 48),
    (s.domOn (regDomain Reg.MGMT_CORE_RUN) = false → exec (.mgmtCoreRunWrite v) s = .next (s.addrError (0x5000000000 + Reg.MGMT_CORE_RUN) 3 1 0)) ∧
    (s.domOn (regDomain Reg.MGMT_PTP_SET_SLO) = false → exec (.mgmtPtpSetWrite sec ns) s = .next (s.addrError (0x5000000000 + Reg.MGMT_PTP_SET_SLO) 3 1 0)) ∧
    (s.domOn (regDomain Reg.MGMT_PTP_CTL) = false → exec .ppsEvClear s = .next (s.addrError (0x5000000000 + Reg.MGMT_PTP_CTL) 3 1 0))) ∧
  (∀ (s : State) (v : Word), s.domOn (regDomain Reg.MGMT_CORE_RUN) = true → Runs (.mgmtCoreRunWrite v) s [.regs] (fun t => s.RegsBut t [Reg.MGMT_CORE_ST] ∧
    t.rf Reg.MGMT_CORE_ST 15 8 = (s.rf Reg.MGMT_CORE_ST 15 8 ||| (bitsOf v.toNat 15 8 &&& s.rf Reg.MGMT_CORE_ST 7 0)) ∧
    t.rf Reg.MGMT_CORE_ST 7 0 = s.rf Reg.MGMT_CORE_ST 7 0)) ∧
  (∀ (s : State) (sec : BitVec 48) (ns : Word), s.domOn (regDomain Reg.MGMT_PTP_SET_SLO) = true →
    (1000000000 ≤ ns.toNat → Runs (.mgmtPtpSetWrite sec ns) s [.regs] (fun t => s.RegsBut t [Reg.MGMT_PTP_SET_SLO, Reg.MGMT_PTP_SET_SHI])) ∧
    (ns.toNat < 1000000000 → s.fab.epoch = none → Runs (.mgmtPtpSetWrite sec ns) s [.regs, .log, .nodes, .irq, .logN, .mgmt] (fun t =>
      t.rd Reg.MGMT_PTP_NOW_SLO = sec.toNat % 2 ^ 32 ∧ t.rf Reg.MGMT_PTP_NOW_SHI 15 0 = sec.toNat / 2 ^ 32 ∧ t.rd Reg.MGMT_PTP_NOW_NS = ns.toNat ∧
      t.rbit Reg.MGMT_PTP_CTL 0 = true ∧ t.mgmt = { s.mgmt with ptpFrac := 0 } ∧
      (s.EventRoom 0x0A0F devUnit → t.Recorded (s.eventRec 0x0A0F devUnit 0 [(16, 6, sec.toNat)]))))) ∧
  (∀ s : State, s.domOn (regDomain Reg.MGMT_PTP_CTL) = true → Runs .ppsEvClear s [.regs, .irq] (fun t => t.rbit Reg.MGMT_PTP_CTL 2 = false ∧ s.RegsBut t [Reg.MGMT_PTP_CTL] ∧ t.irq = s.irq &&& ~~~(64#8)))
/-- CMD_LCP_IN_WRITE, RESYNC and LCP_ASSEMBLY_TIMEOUT (R516, R517). -/
def Obligations.LocalPortCompletes : Prop :=
  (∀ (s : State) (w : Word), (s.cuardUp = false → exec (.cmdLcpInWrite w) s = .next s) ∧ (s.cq.discarding = true → exec (.cmdLcpInWrite w) s = .next s) ∧
    (s.cuardUp = true → s.cq.discarding = false →
      let l := s.cq.asm ++ [w]
      let x : State := { s with cq := { s.cq with asm := l, asmAt := some (s.cq.asmAt.getD s.now) } }
      (s.cq.asm.length < 5 → exec (.cmdLcpInWrite w) s = .next x) ∧
      (5 ≤ s.cq.asm.length → pkWant (asmBytes l) = none → exec (.cmdLcpInWrite w) s = .next x.lcpBad) ∧
      (∀ n, 5 ≤ s.cq.asm.length → pkWant (asmBytes l) = some n → 4 * l.length < n → exec (.cmdLcpInWrite w) s = .next x) ∧
      (∀ n, 5 ≤ s.cq.asm.length → pkWant (asmBytes l) = some n → n ≤ 4 * l.length → s.cq.replies.length < 4 → exec (.cmdLcpInWrite w) s = .next
        (({ s with cq := { s.cq with asm := [], asmAt := none } } : State).arrive { port := 1, bytes := (asmBytes l).take n, arrival := s.now, org := {} })) ∧
      (∀ n, 5 ≤ s.cq.asm.length → pkWant (asmBytes l) = some n → n ≤ 4 * l.length → 4 ≤ s.cq.replies.length →
        Runs (.cmdLcpInWrite w) s [.regs, .log, .nodes, .irq, .logN, .cq] (fun t => t.cq = { s.cq with asm := [], asmAt := none } ∧
          t.rbit Reg.CMD_LCP_ST 2 = true ∧ t.rd Reg.CMD_LCP_DROP_CNT = min (s.rd Reg.CMD_LCP_DROP_CNT + 1) 0xFFFFFFFF ∧
          (s.EventRoom 0x0B03 devUnit → t.Recorded (s.eventRec 0x0B03 devUnit 1 [(16, 1, 3), (17, 2, l.length)])))))) ∧
  (∀ s : State, (s.cq.asm = [] → Runs .resync s [.cq] (fun t => t.cq = { s.cq with asmAt := none, discarding := false })) ∧
    (s.cq.asm ≠ [] → Runs .resync s [.regs, .log, .nodes, .irq, .logN, .cq] (fun t => t.cq = { s.cq with asm := [], asmAt := none, discarding := false } ∧
      (s.EventRoom 0x0B03 devUnit → t.Recorded (s.eventRec 0x0B03 devUnit 1 [(16, 1, 4), (17, 2, s.cq.asm.length)])))) ∧
    (s.cq.asmAt = none → exec .lcpAssemblyTimeout s = .next s) ∧
    (∀ a, s.cq.asmAt = some a → (s.now - a).toNat < s.rd Reg.CMD_LCP_TMO → exec .lcpAssemblyTimeout s = .next s) ∧
    (∀ a, s.cq.asmAt = some a → s.rd Reg.CMD_LCP_TMO ≤ (s.now - a).toNat → Runs .lcpAssemblyTimeout s [.regs, .log, .nodes, .irq, .logN, .cq] (fun t =>
      t.cq = { s.cq with asm := [], asmAt := none } ∧ t.rbit Reg.CMD_LCP_ST 1 = true ∧
      (s.EventRoom 0x0B03 devUnit → t.Recorded (s.eventRec 0x0B03 devUnit 1 [(16, 1, 1), (17, 2, s.cq.asm.length)])))))

/-- Commands of the management subsystem (R478 to R493). -/
def Obligations.ManagementComplete : Prop :=
  (∀ (s : State) (h : Fin 8) (fetch : Bool) (addr : Nat), Runs (.corePoisonFault h fetch addr) s [.regs, .out, .log, .nodes, .irq, .logN] (fun t =>
    t.out = s.out ++ [.trap h fetch addr] ∧ t.rd Reg.MGMT_POISON_CNT = min (s.rd Reg.MGMT_POISON_CNT + 1) 0xFFFFFFFF ∧
    (s.EventRoom 0x0A0E (unitId 9 h) → t.Recorded (s.eventRec 0x0A0E (unitId 9 h) 1 [(16, 5, addr), (21, 1, if fetch then 1 else 0)])))) ∧
  (∀ (s : State) (h : Fin 8) (fetch write : Bool) (addr : Nat), (s.coreMapped addr = true → exec (.coreAccessFault h fetch write addr) s = .next s) ∧
    (s.coreMapped addr = false → Runs (.coreAccessFault h fetch write addr) s [.regs, .out, .log, .nodes, .irq, .logN] (fun t => t.out = s.out ++ [.trap h fetch addr] ∧
      (s.EventRoom 0x0210 devUnit → t.Recorded (s.eventRec 0x0210 devUnit 2 [(16, 5, addr), (21, 1, 2), (22, 1, if write then 1 else 0), (23, 1, 0)]))))) ∧
  (∀ s : State, (s.off = true → exec .lockstepMismatch s = .next s) ∧
    (s.off = false → Runs .lockstepMismatch s [.regs, .pwr, .rst, .cq] (fun t => t.devState = stHalted ∧ t.pwr = { s.pwr with alert := true } ∧
      t.cq = { s.cq with dead := true } ∧ t.cuardUp = false ∧ s.RegsBut t [Reg.CMD_DEV_STATE, Reg.CMD_DEV_STATE_TS_LO, Reg.CMD_DEV_STATE_TS_LO + 4] ∧
      (s.devState ≠ stHalted → t.rf Reg.CMD_DEV_STATE 27 24 = 0 ∧ t.rd64 Reg.CMD_DEV_STATE_TS_LO = s.now.toNat ∧
        t.rst = { s.rst with resets := [], chipHeld := false })))) ∧
  (∀ (s : State) (l : List Byte), Runs (.consoleReceive l) s [.out, .irq] (fun t => t.out = s.out ++ [.console l] ∧ t.irq = s.irq ||| 32#8) ∧
    Runs (.consoleTransmit l) s [.out] (fun t => t.out = s.out ++ [.uart l])) ∧
  (∀ s : State, (s.mgmtTry = none → exec .mgmtLinkUp s = .next s) ∧ (s.off = true → exec .mgmtLinkUp s = .next s) ∧
    (s.rbit Reg.MGMT_PORT_ST 0 = true → exec .mgmtLinkUp s = .next s) ∧
    (∀ f, s.mgmtTry = some f → s.off = false → s.rbit Reg.MGMT_PORT_ST 0 = false → Runs .mgmtLinkUp s [.regs] (fun t => t.rbit Reg.MGMT_PORT_ST 0 = true ∧
      t.rbit Reg.MGMT_PORT_ST 1 = f ∧ s.RegsBut t [Reg.MGMT_PORT_ST])) ∧
    (s.rbit Reg.MGMT_PORT_ST 0 = false → exec .mgmtLinkLoss s = .next s) ∧
    (s.rbit Reg.MGMT_PORT_ST 0 = true → Runs .mgmtLinkLoss s [.regs, .mgmt] (fun t => t.rbit Reg.MGMT_PORT_ST 0 = false ∧
      t.mgmt = { s.mgmt with fast := true, speedAt := s.wall } ∧ s.RegsBut t [Reg.MGMT_PORT_ST])) ∧
    ((s.rf Reg.MGMT_PORT_CTL 1 0 ≠ 0 ∨ s.rbit Reg.MGMT_PORT_ST 0 = true ∨ (s.wall - s.mgmt.speedAt).toNat < 100000000) → exec .mgmtSpeedAlternate s = .next s) ∧
    (s.rf Reg.MGMT_PORT_CTL 1 0 = 0 → s.rbit Reg.MGMT_PORT_ST 0 = false → 100000000 ≤ (s.wall - s.mgmt.speedAt).toNat →
      Runs .mgmtSpeedAlternate s [.mgmt] (fun t => t.mgmt = { s.mgmt with fast := !s.mgmt.fast, speedAt := s.wall }))) ∧
  (∀ (s : State) (l : List Byte) (buffer : Bool),
    ((s.mgmtUp = false ∨ l.length < 64 ∨ leNat (l.drop (l.length - 4)) ≠ crc32 (l.take (l.length - 4))) → exec (.mgmtFrameReceive l buffer) s = .next s) ∧
    (s.mgmtUp = true → 64 ≤ l.length → leNat (l.drop (l.length - 4)) = crc32 (l.take (l.length - 4)) →
      let m := l.take (l.length - 4)
      let e := ethIn m
      (e.dst = s.cuardMac → s.cuardIn e = none → s.asksFor e = none → Runs (.mgmtFrameReceive l buffer) s [.regs] (fun t =>
        t.rd Reg.MGMT_FILT_DROP = min (s.rd Reg.MGMT_FILT_DROP + 1) 0xFFFFFFFF ∧ s.RegsBut t [Reg.MGMT_FILT_DROP])) ∧
      (∀ c, e.dst = s.cuardMac → s.cuardIn e = some c → s.cq.rateAt.toNat = s.now.toNat / 100000000 → s.cq.rateN < s.rd Reg.MGMT_CUARD_RATE →
        exec (.mgmtFrameReceive l buffer) s = .next (({ s with cq := { s.cq with rateN := s.cq.rateN + 1 } } : State).arrive
          { port := 0, bytes := c.2, arrival := s.now, org := c.1 })) ∧
      (∀ c, e.dst = s.cuardMac → s.cuardIn e = some c → s.cq.rateAt.toNat = s.now.toNat / 100000000 → s.rd Reg.MGMT_CUARD_RATE ≤ s.cq.rateN →
        Runs (.mgmtFrameReceive l buffer) s [.regs, .log, .nodes, .irq, .logN, .cq] (fun t =>
          t.rd Reg.MGMT_RATE_DROP = min (s.rd Reg.MGMT_RATE_DROP + 1) 0xFFFFFFFF ∧ t.cq = { s.cq with rateN := s.cq.rateN + 1, rateTold := true })) ∧
      (e.dst = s.softMac → e.dst ≠ s.cuardMac → e.dst ≠ List.replicate 6 0xFF → s.solicited.contains e.dst = false → buffer = true →
        Runs (.mgmtFrameReceive l buffer) s [.out, .irq] (fun t => t.out = s.out ++ [.vnet (s.stamp e.ptpEvent ++ m)] ∧ t.irq = s.irq ||| 16#8)) ∧
      (e.dst = s.softMac → e.dst ≠ s.cuardMac → e.dst ≠ List.replicate 6 0xFF → s.solicited.contains e.dst = false → buffer = false →
        Runs (.mgmtFrameReceive l buffer) s [.regs] (fun t => t.rd Reg.MGMT_FILT_DROP = min (s.rd Reg.MGMT_FILT_DROP + 1) 0xFFFFFFFF)))) ∧
  (∀ (s : State) (l : List Byte) (stamp : Bool),
    (s.spoofs (ethIn l) = true → Runs (.virtioNetTransmit l stamp) s [.regs, .log, .nodes, .irq, .logN, .cq] (fun t =>
      t.rd Reg.MGMT_SPOOF_DROP = min (s.rd Reg.MGMT_SPOOF_DROP + 1) 0xFFFFFFFF)) ∧
    (s.spoofs (ethIn l) = false → s.mgmtUp = false → exec (.virtioNetTransmit l stamp) s = .next s) ∧
    (s.spoofs (ethIn l) = false → s.mgmtUp = true → Runs (.virtioNetTransmit l stamp) s [.out] (fun t =>
      t.out = s.out ++ .eth (endFrame l) :: (if stamp then [.vnet (s.stamp true)] else [])))) ∧
  (∀ (s : State) (low high : Nat), ((s.rbit Reg.MGMT_PTP_CTL 1 = false ∨ low < 10 ∨ high < 10) → Runs (.ppsEdge low high) s [.regs] (fun t =>
      t.rd Reg.MGMT_PPS_REJ = min (s.rd Reg.MGMT_PPS_REJ + 1) 0xFFFFFFFF ∧ s.RegsBut t [Reg.MGMT_PPS_REJ])) ∧
    (s.rbit Reg.MGMT_PTP_CTL 1 = true → 10 ≤ low → 10 ≤ high →
      (s.mgmt.ppsAt = none ∨ ∃ a, s.mgmt.ppsAt = some a ∧ 99990000 ≤ (s.now - a).toNat ∧ (s.now - a).toNat ≤ 100010000) →
      Runs (.ppsEdge low high) s [.regs, .irq, .mgmt] (fun t => t.rd Reg.MGMT_PPS_TS_SLO = s.rd Reg.MGMT_PTP_NOW_SLO ∧ t.rd Reg.MGMT_PPS_TS_SHI = s.rd Reg.MGMT_PTP_NOW_SHI ∧
        t.rd Reg.MGMT_PPS_TS_NS = s.rd Reg.MGMT_PTP_NOW_NS ∧ t.rbit Reg.MGMT_PTP_CTL 2 = true ∧ t.irq = s.irq ||| 64#8 ∧ t.mgmt = { s.mgmt with ppsAt := some s.now })) ∧
    (∀ a, s.mgmt.ppsAt = some a → ((s.now - a).toNat < 99990000 ∨ 100010000 < (s.now - a).toNat) → Runs (.ppsEdge low high) s [.regs] (fun t =>
      t.rd Reg.MGMT_PPS_REJ = min (s.rd Reg.MGMT_PPS_REJ + 1) 0xFFFFFFFF)))
/-- DEBUG_UNLOCK, DEBUG_RELOCK and the timers of sessions, leases and commands (R503 to R508, R524 to R529). -/
def Obligations.SecurityTimersComplete : Prop :=
  (∀ (s : State) (id : Nat), (s.sess id = none → exec (.debugUnlock id) s = .next s) ∧ (s.recBuffered = true → exec (.debugUnlock id) s = .next s) ∧
    (∀ x, s.sess id = some x → (x.active = false ∨ x.expert = false ∨ s.keyHas x.key 3 = false) → exec (.debugUnlock id) s = .next s) ∧
    (∀ x, s.sess id = some x → x.active = true → x.expert = true → s.keyHas x.key 3 = true → s.recBuffered = false →
      Runs (.debugUnlock id) s [.regs, .log, .nodes, .irq, .logN, .cq] (fun t => t.rf Reg.SEC_DBG 3 2 = 3 ∧ t.cq = { s.cq with dbg := some id } ∧
        (s.EventRoom 0x0A0A devUnit → t.Recorded (s.eventRec 0x0A0A devUnit 1 [(16, 1, 1), (17, 1, x.key)])))) ∧
    (s.rbit Reg.SEC_DBG 2 = false → exec (.debugRelock id) s = .next s) ∧
    (s.rbit Reg.SEC_DBG 2 = true → Runs (.debugRelock id) s [.regs, .log, .nodes, .irq, .logN, .cq] (fun t => t.rbit Reg.SEC_DBG 2 = false ∧
      t.cq = { s.cq with dbg := none } ∧
      (s.EventRoom 0x0A0A devUnit → t.Recorded (s.eventRec 0x0A0A devUnit 1 [(16, 1, 0), (17, 1, s.keyOfSess id)]))))) ∧
  (∀ s : State, (∀ x ∈ s.cq.sessions, x.active = true ∨ (s.now - x.opened).toNat < 1000000000) → exec .sessionConfirmTimeout s = .next s) ∧
  (∀ (s : State) (x : Sess), s.cq.sessions = [x] → x.active = false → 1000000000 ≤ (s.now - x.opened).toNat →
    Runs .sessionConfirmTimeout s [.regs, .log, .nodes, .irq, .logN, .cq] (fun t => t.cq.sessions = [] ∧
      t.rd Reg.SEC_AUTH_FAIL = min (s.rd Reg.SEC_AUTH_FAIL + 1) 0xFFFFFFFF ∧
      (s.EventRoom 0x0A05 devUnit → t.Recorded (s.eventRec 0x0A05 devUnit 1 [(16, 1, 1), (17, 1, x.key), (22, 1, x.port)])))) ∧
  (∀ s : State, (∀ x ∈ s.cq.sessions, x.active = false ∨ (s.now - x.last).toNat < s.rd Reg.SEC_IDLE * 100000000) → exec .sessionIdleTimeout s = .next s) ∧
  (∀ s : State, (∀ x ∈ s.cq.sessions, x.active = false ∨ (s.now - x.opened).toNat < 8640000000000) → exec .sessionLifetimeExpiry s = .next s) ∧
  (∀ (s : State) (x : Sess), s.cq.sessions = [x] → x.active = true → s.cq.dbg ≠ some x.id →
    (s.rd Reg.SEC_IDLE * 100000000 ≤ (s.now - x.last).toNat → Runs .sessionIdleTimeout s [.regs, .log, .nodes, .irq, .logN, .cq] (fun t =>
      t.cq = { s.cq with sessions := [] } ∧ (s.EventRoom 0x0A04 devUnit → t.Recorded (s.eventRec 0x0A04 devUnit 1 [(16, 4, x.id), (20, 1, 2)])))) ∧
    (8640000000000 ≤ (s.now - x.opened).toNat → Runs .sessionLifetimeExpiry s [.regs, .log, .nodes, .irq, .logN, .cq] (fun t =>
      t.cq = { s.cq with sessions := [] } ∧ (s.EventRoom 0x0A04 devUnit → t.Recorded (s.eventRec 0x0A04 devUnit 1 [(16, 4, x.id), (20, 1, 3)]))))) ∧
  (∀ s : State, (s.cuardUp = false → exec .qnonceExpiry s = .next s) ∧ ((s.now - s.cq.nonceAt).toNat < 60000000000 → exec .qnonceExpiry s = .next s) ∧
    (s.cuardUp = true → 60000000000 ≤ (s.now - s.cq.nonceAt).toNat → Runs .qnonceExpiry s [.drbgN, .cq] (fun t => t.cq.nonceAt = s.now ∧
      t.cq.nonce.length = 32 ∧ t.cq.queue = s.cq.queue))) ∧
  (∀ s : State, (∀ r l, r < 4 → tget none s.cq.leases r = some l → s.now < l.expiry) → exec .leaseExpiry s = .next s) ∧
  (∀ (s : State) (r : Nat) (l : Lease), r < 4 → tget none s.cq.leases r = some l → l.expiry ≤ s.now →
    (∀ q k, q < r → tget none s.cq.leases q = some k → s.now < k.expiry) →
    Runs .leaseExpiry s [.regs, .log, .nodes, .irq, .logN, .cq] (fun t => t.cq = { s.cq with leases := tset none s.cq.leases r none } ∧
      (s.EventRoom 0x0B02 devUnit → t.Recorded (s.eventRec 0x0B02 devUnit 1 [(16, 1, r), (17, 1, 3), (18, 1, 255), (19, 1, l.key)])))) ∧
  (∀ s : State, (∀ r ∈ s.cq.queue, (s.now - r.arrival).toNat < s.rd Reg.CMD_QTMO) → exec .cmdQueueTimeout s = .next s) ∧
  (∀ (s : State) (r : Req) (rest : List Req), s.cq.queue = r :: rest → s.rd Reg.CMD_QTMO < (s.now - r.arrival).toNat →
    exec .cmdQueueTimeout s = .next ((({ s with cq := { s.cq with queue := rest } } : State).event 0x0B04 devUnit 1
      [(16, 2, pkOp r.bytes), (18, 1, 1), (19, 1, r.port)]).answer (repTo r) false stTIMEOUT (pkLease r.bytes) [])) ∧
  (∀ s : State, (∀ w n, w ∈ s.cq.waits → w.limit = some n → (s.now - w.start).toNat < n) → exec .aFirstLimit s = .next s) ∧
  (∀ (s : State) (w : Wait) (n : Nat), s.cq.waits.head? = some w → w.limit = some n → n ≤ (s.now - w.start).toNat →
    let x := if w.what = .load then s.dropLoad else s
    exec .aFirstLimit s = .next ((x.event 0x0B04 devUnit 1 [(16, 2, w.rep.opcode), (18, 1, 2), (19, 1, w.rep.port)]).finish w.what stTIMEOUT []))
/-- Commands of the module (R467 to R470, R572, R573, R581 to R585). -/
def Obligations.ModuleComplete : Prop :=
  (∀ s : State, ((s.off = true ∨ s.pwr.enabled = false ∨ 7 ≤ s.pwr.group) → exec .powerGroupGood s = .next s ∧ exec .powerGroupTimeout s = .next s) ∧
    (s.off = false → s.pwr.enabled = true → s.pwr.group < 7 → Runs .powerGroupGood s [.regs, .domsOff, .pwr] (fun t =>
      t.pwr = { s.pwr with group := s.pwr.group + 1, groupAt := s.wall } ∧
      (∀ d, d < 24 → t.domOn d = (s.domOn d || ((groupDoms (s.pwr.group + 1)).contains d && !(d == 23 && s.rbit Reg.CMD_STRAPS 14)))))) ∧
    ((s.wall - s.pwr.groupAt).toNat < 1000000 → exec .powerGroupTimeout s = .next s) ∧
    (s.off = false → s.pwr.enabled = true → s.pwr.group < 7 → 1000000 ≤ (s.wall - s.pwr.groupAt).toNat →
      Runs .powerGroupTimeout s [.regs, .log, .nodes, .irq, .pwr, .logN] (fun t => t.pwr = { s.pwr with enabled := false, alert := true } ∧
        (s.pwr.group = 0 → t.log = s.log) ∧ (0 < s.pwr.group → s.EventRoom 0x0109 (domUnit ((groupDoms (s.pwr.group + 1)).headD 0)) →
          t.Recorded (s.eventRec 0x0109 (domUnit ((groupDoms (s.pwr.group + 1)).headD 0)) 1 [(16, 1, 5)]))))) ∧
  (∀ (s : State) (mv : Nat) (mated : Bool), (s.off = false ∨ s.modl.en = true ∨ (s.wall - s.modl.enAt).toNat < 1000000 ∨ mv < 40000 ∨ 59500 < mv ∨ mated = false) →
    Runs (.pwrEnRise mv mated) s [.modl] (fun t => t.modl.en = true ∧ t.modl.enAt = s.wall ∧ t.modl.i3c = s.modl.i3c)) ∧
  (∀ (s : State) (mv : Nat), s.off = true → s.modl.en = false → 1000000 ≤ (s.wall - s.modl.enAt).toNat → 40000 ≤ mv → mv ≤ 59500 →
    ∃ x : State, exec (.pwrEnRise mv true) s = .next (x.stampDev 0 0) ∧ x.off = false ∧ x.domsOff = 0xFFFFFE ∧ x.mem = [] ∧ x.log = [] ∧ x.flash = s.flash ∧ x.fuse = s.fuse ∧
      x.modl = { s.modl with en := true, enAt := s.wall, latched := false } ∧ x.pwr = { groupAt := s.wall } ∧ x.rst.chipHeld = true) ∧
  (∀ s : State, (s.off = true → Runs .pwrEnFall s [.modl] (fun t => t.modl = { s.modl with en := false, enAt := s.wall })) ∧
    (s.off = true → Runs .moduleThermalTrip s [.modl] (fun t => t.modl = { s.modl with latched := true })) ∧
    (s.off = false → ∃ t, exec .pwrEnFall s = .next t ∧ t.off = true ∧ t.domsOff = 0xFFFFFF ∧ t.mem = [] ∧ t.poison = [] ∧ t.log = [] ∧ t.spns = [] ∧ t.cq = {} ∧
      t.flash = s.flash ∧ t.fuse = s.fuse ∧ t.wall = s.wall ∧ t.pending = s.pending ∧ t.modl = { s.modl with en := false, enAt := s.wall, i3c := none }) ∧
    (s.off = false → ∃ t, exec .moduleThermalTrip s = .next t ∧ t.off = true ∧ t.domsOff = 0xFFFFFF ∧ t.mem = [] ∧ t.poison = [] ∧ t.log = [] ∧ t.spns = [] ∧ t.cq = {} ∧
      t.flash = s.flash ∧ t.fuse = s.fuse ∧ t.wall = s.wall ∧ t.pending = s.pending ∧ t.modl = { s.modl with latched := true, i3c := none })) ∧
  (∀ (s : State) (mv : Nat), (s.off = true → exec (.inputSample mv) s = .next s) ∧
    (s.off = false → s.pwr.vin = [] → 42000 ≤ mv → mv ≤ 58000 → Runs (.inputSample mv) s [.regs, .pwr] (fun t =>
      t.pwr = { s.pwr with vin := [mv], outFor := 0, excFor := 0 } ∧ t.rf Reg.PWR_IN 31 16 = mv / 10 ∧ s.RegsBut t [Reg.PWR_IN])) ∧
    (s.off = false → s.pwr.vin = [] → mv < 40000 → s.pwr.outFor < 4999 → s.pwr.excFor = 4999 → Runs (.inputSample mv) s [.regs, .log, .nodes, .irq, .pwr, .logN] (fun t =>
      t.pwr = { s.pwr with vin := [mv], outFor := s.pwr.outFor + 1, excFor := 5000 } ∧
      (s.EventRoom 0x010A devUnit → t.Recorded (s.eventRec 0x010A devUnit 1 [(16, 2, mv / 10)])))) ∧
    (s.off = false → s.pwr.vin = [] → mv < 40000 → 4999 ≤ s.pwr.outFor → ∃ t, exec (.inputSample mv) s = .next t ∧ t.off = true ∧ t.domsOff = 0xFFFFFF ∧
      t.mem = [] ∧ t.flash = s.flash ∧ t.modl = { s.modl with i3c := none })) ∧
  (∀ (s : State) (a : BitVec 7) (o : Byte) (n : Nat), ((s.domOn 0 = false ∨ s.modl.i3c.getD 0x4B ≠ a.toNat) → exec (.i3cRead a o n) s = .next s) ∧
    (s.domOn 0 = true → s.modl.i3c.getD 0x4B = a.toNat → Runs (.i3cRead a o n) s [.out] (fun t => t.out = s.out ++ [.i3c (sliceB s.window o.toNat n)])) ∧
    (s.domOn 0 = false → exec (.i3cDynamicAddress a) s = .next s) ∧
    (s.domOn 0 = true → Runs (.i3cDynamicAddress a) s [.modl] (fun t => t.modl = { s.modl with i3c := some a.toNat }))) ∧
  (∀ (s : State) (c : SpiCmd) (aux : Bool), (s.modl.en = true ∨ aux = false) → exec (.flashSidebandCmd c aux) s = .next s) ∧
  (∀ (s : State) (a n : Nat) (b : Byte), s.modl.en = false →
    (a + n ≤ 0x18000000 → Runs (.flashSidebandCmd (.read a n) true) s [.out] (fun t => t.out = s.out ++ [.spi (s.flashBytes (flImage + a) n)])) ∧
    (a < 0x18000000 → Runs (.flashSidebandCmd (.program a [b]) true) s [.flash] (fun t => t.flashAt (flImage + a) = s.flashAt (flImage + a) &&& b ∧
      ∀ k, k ≠ flImage + a → t.flashAt k = s.flashAt k)) ∧
    (0x18000000 ≤ a → exec (.flashSidebandCmd (.program a [b]) true) s = .next s ∧ exec (.flashSidebandCmd (.erase a) true) s = .next s) ∧
    (a < 0x18000000 → Runs (.flashSidebandCmd (.erase a) true) s [.flash] (fun t => ∀ k, t.flashAt k =
      if flImage + a - a % 65536 ≤ k ∧ k < flImage + a - a % 65536 + 65536 then 0xFF else s.flashAt k)) ∧
    Runs (.flashSidebandCmd .status true) s [.freeN, .out] (fun t => ∃ v, t.out = s.out ++ [.spi [v]]))

/-- STARTUP_PROC to STARTUP_ACCEPT (R384, R385, R391, R549 to R555, R563). -/
def Obligations.EarlyStartUpComplete : Prop :=
  (∀ (s : State) (good : Bool), (s.booting 0 = false → s.booting 1 = false → exec (.startupProc good) s = .next s) ∧
    ((s.booting 0 = true ∨ s.booting 1 = true) → Runs (.startupProc true) s [.regs, .boot] (fun t => t.phase = 2 ∧ t.boot.at_ = s.wall ∧
      s.RegsBut t [Reg.CMD_DEV_STATE])) ∧
    ((s.booting 0 = true ∨ s.booting 1 = true) → Runs (.startupProc false) s [.regs, .pwr, .rst] (fun t => t.devState = stHalted ∧ t.phase = 0 ∧
      t.rf Reg.CMD_BOOT_ST 3 0 = 1 ∧ t.pwr = { s.pwr with alert := true } ∧ s.RegsBut t [Reg.CMD_DEV_STATE, Reg.CMD_DEV_STATE_TS_LO, Reg.CMD_DEV_STATE_TS_LO + 4, Reg.CMD_BOOT_ST]))) ∧
  (∀ (s : State) (l : List (BitVec 15)), (s.booting 2 = false → exec (.startupStraps l) s = .next s ∧ exec (.strapResample l) s = .next s) ∧
    (s.boot.strapAt ≠ none → exec (.startupStraps l) s = .next s) ∧ ((s.wall - s.boot.began).toNat < 100000 → exec (.startupStraps l) s = .next s) ∧
    (s.boot.strapAt = none → exec (.strapResample l) s = .next s) ∧
    (∀ a, s.boot.strapAt = some a → (s.wall - a).toNat < 10000 → exec (.strapResample l) s = .next s) ∧
    (∀ a, s.boot.strapAt = some a → s.booting 2 = true → 10000 ≤ (s.wall - a).toNat → exec (.strapResample l) s = .next (s.readStraps l s.boot.unst).strapsRead)) ∧
  (∀ (s : State) (v : BitVec 15), s.booting 2 = true → s.boot.strapAt = none → 100000 ≤ (s.wall - s.boot.began).toNat → s.boot.pins = 0 → s.boot.lost = [] →
    Runs (.startupStraps (List.replicate 16 v)) s [.regs, .domsOff, .boot] (fun t => t.rd Reg.CMD_STRAPS = strapValue v.toNat [] ∧ t.phase = 3 ∧ t.boot.at_ = s.wall ∧
      t.rf Reg.MGMT_PORT_CTL 1 0 = bitsOf v.toNat 3 2)) ∧
  (∀ (s : State) (bad : Option (BitVec 16)), s.booting 3 = false → exec (.startupFuses bad) s = .next s) ∧
  (∀ (s : State) (w : BitVec 16), s.booting 3 = true → exec (.startupFuses (some w)) s = .next ((s.event 0x07E2 devUnit 3 [(16, 2, w.toNat)]).bootHalt 3 0x07E2)) ∧
  (∀ s : State, s.booting 3 = true → Runs (.startupFuses none) s [.regs, .log, .nodes, .irq, .hlth, .logN, .boot] (fun t => t.phase = 4 ∧ t.boot.at_ = s.wall ∧
    t.hlth = { s.hlth with fusedMax := fusedFmax s.fuse.part } ∧ t.rd Reg.HLTH_FMAX = fusedFmax s.fuse.part ∧ t.rd Reg.MGMT_MAC_LO = s.fuse.mac % 2 ^ 32)) ∧
  (∀ (s : State) (bad : Option (Fin 6)) (refclk : Bool), (s.booting 4 = false ∨ s.pwr.group ≠ 7) → exec (.startupClocks bad refclk) s = .next s) ∧
  (∀ (s : State) (p : Fin 6) (refclk : Bool), s.booting 4 = true → s.pwr.group = 7 →
    exec (.startupClocks (some p) refclk) s = .next ((s.event 0x07E8 devUnit 3 [(16, 1, p)]).bootHalt 4 0x07E8)) ∧
  (∀ s : State, s.booting 4 = true → s.pwr.group = 7 → Runs (.startupClocks none true) s [.now, .regs, .drbgN, .rst, .cq, .mgmt, .boot] (fun t => t.now = 0 ∧
    t.rst = { s.rst with chipHeld := false } ∧ t.phase = 5 ∧ t.boot.at_ = s.wall ∧ t.rf Reg.CLK_ST 1 0 = 3 ∧ t.rf Reg.CLK_ST 3 2 = 0 ∧
    t.rbit Reg.DET_ALIGN 0 = true ∧ t.rf Reg.DET_ALIGN 7 4 = 0)) ∧
  (∀ s : State, (s.booting 5 = false → exec .startupCal s = .next s) ∧
    (s.booting 5 = true → Runs .startupCal s [.regs, .log, .nodes, .irq, .hlth, .logN, .boot] (fun t => t.phase = 6 ∧ t.boot.at_ = s.wall))) ∧
  (∀ (s : State) (failed : List Nat), (s.booting 6 = false → exec (.startupDram failed) s = .next s) ∧
    (s.booting 6 = true → Runs (.startupDram failed) s [.regs, .log, .nodes, .chans, .irq, .logN, .boot] (fun t => t.phase = 7 ∧ t.boot.at_ = s.wall))) ∧
  (∀ s : State, (s.booting 7 = false → exec .startupTest s = .next s) ∧ (s.hlth.waves ≠ [] → exec .startupTest s = .next s) ∧
    (s.booting 7 = true → s.hlth.waves = [] → s.bootWaves.2 = none →
      exec .startupTest s = .next ((s.wf Reg.TEST_SU 15 0 (s.bootWaves.1 / 10)).notAccepted 7 32)) ∧
    (∀ l, s.booting 7 = true → s.hlth.waves = [] → s.bootWaves.2 = some l → Runs .startupTest s [.regs, .hlth] (fun t =>
      t.hlth = { s.hlth with waves := l, waveAt := s.wall, outs := [] } ∧ t.rf Reg.TEST_SU 23 16 = min 255 l.length ∧ s.RegsBut t [Reg.TEST_SU]))) ∧
  (∀ s : State, (s.booting 8 = false → exec .startupAccept s = .next s) ∧
    (s.booting 8 = true → let x := s.acceptPasses.acceptPlain.acceptSpindles.acceptChannels.acceptPorts
      (x.badReasons = 0 → exec .startupAccept s = .next (x.toPhase (if x.safe then 11 else 9))) ∧
      (x.badReasons ≠ 0 → exec .startupAccept s = .next (x.notAccepted 8 x.badReasons))))
/-- STARTUP_COORD to STARTUP_LAUNCH and STARTUP_PHASE_LIMIT (R549, R556 to R562, R566). -/
def Obligations.LateStartUpComplete : Prop :=
  (∀ s : State, (s.booting 9 = false → exec .startupCoord s = .next s ∧ exec .coordWaitExpiry s = .next s) ∧
    (s.booting 9 = true → s.rbit Reg.CMD_STRAPS 4 = true → exec .coordWaitExpiry s = .next s ∧ Runs .startupCoord s [.regs, .boot] (fun t =>
      t.rd Reg.FAB_COORD = 2 ^ 31 + s.rf Reg.CMD_STRAPS 8 5 ∧ t.rd Reg.FAB_DIMS = 15 ∧ t.rf Reg.FAB_CTL 1 0 = 0 ∧ t.phase = 10 ∧ t.boot.at_ = s.wall)) ∧
    (∀ c topo d, s.booting 9 = true → s.rbit Reg.CMD_STRAPS 4 = false → s.boot.coord = some (c, topo, d) → c < 8192 → topo < 4 → d < 2 ^ 32 →
      Runs .startupCoord s [.regs, .boot] (fun t => t.rd Reg.FAB_COORD = 2 ^ 31 + 2 ^ 30 + c ∧ t.rd Reg.FAB_DIMS = d ∧ t.rf Reg.FAB_CTL 1 0 = topo ∧
        t.phase = 10 ∧ t.boot.at_ = s.wall)) ∧
    (s.rbit Reg.CMD_STRAPS 4 = false → s.boot.coord = none → exec .startupCoord s = .next s) ∧
    (s.boot.coord ≠ none → exec .coordWaitExpiry s = .next s) ∧ (s.inPhase < 60000000000 → exec .coordWaitExpiry s = .next s) ∧
    (s.booting 9 = true → s.rbit Reg.CMD_STRAPS 4 = false → s.boot.coord = none → 60000000000 ≤ s.inPhase →
      Runs .coordWaitExpiry s [.regs, .log, .nodes, .irq, .logN, .boot] (fun t => t.phase = 11 ∧ t.rf Reg.CMD_BOOT_ST 3 0 = 9 ∧ t.boot.at_ = s.wall ∧
        (s.EventRoom 0x07E5 devUnit → t.Recorded (s.eventRec 0x07E5 devUnit 2 []))))) ∧
  (∀ s : State, (s.booting 10 = false → exec .startupLinks s = .next s) ∧
    (s.booting 10 = true → s.boot.linking = false → exec .startupLinks s =
      .next (s.bootHalves.foldl (fun s h => s.retrain h) ({ s with boot := { s.boot with linking := true } } : State))) ∧
    (s.booting 10 = true → s.boot.linking = true → (∃ h, h < 32 ∧ s.portSt h = 1) → exec .startupLinks s = .next s) ∧
    (s.booting 10 = true → s.boot.linking = true → (∀ h, h < 32 → s.portSt h ≠ 1) → Runs .startupLinks s [.regs, .boot] (fun t => t.phase = 11 ∧
      t.boot.at_ = s.wall ∧ s.RegsBut t [Reg.CMD_DEV_STATE]))) ∧
  (∀ s : State, ((s.booting 11 = false ∨ s.boot.client = true) → exec .startupImage s = .next s) ∧
    (s.booting 11 = true → s.boot.client = false →
      (s.rf Reg.CMD_STRAPS 1 0 = 3 → Runs .startupImage s [.regs, .log, .nodes, .irq, .logN, .boot] (fun t => t.phase = 12 ∧ t.rf Reg.CMD_BOOT_ST 11 8 = 2 ∧
        t.rf Reg.CMD_BOOT_ST 15 12 = 0 ∧ t.boot.image = none ∧ (s.EventRoom 0x07E6 devUnit → t.Recorded (s.eventRec 0x07E6 devUnit 2 [(16, 1, 2), (17, 4, 0)])))) ∧
      (s.rf Reg.CMD_STRAPS 1 0 = 0 → exec .startupImage s = .next (s.wf Reg.CMD_BOOT_ST 15 12 1).flashImage) ∧
      (∀ n, s.rf Reg.CMD_STRAPS 1 0 = n → (n = 1 ∨ n = 2) → s.rbit Reg.MGMT_PORT_ST 0 = true → Runs .startupImage s [.regs, .out, .boot] (fun t =>
        t.boot = { s.boot with client := true } ∧ t.out = s.out ++ [.dhcp (n == 1)] ∧ t.rf Reg.CMD_BOOT_ST 15 12 = n + 1)) ∧
      (∀ n, s.rf Reg.CMD_STRAPS 1 0 = n → (n = 1 ∨ n = 2) → s.rbit Reg.MGMT_PORT_ST 0 = false → Runs .startupImage s [.regs] (fun t =>
        t.rf Reg.CMD_BOOT_ST 15 12 = n + 1 ∧ s.RegsBut t [Reg.CMD_BOOT_ST])))) ∧
  (∀ (s : State) (own server file : List Byte), ((s.booting 11 = false ∨ s.boot.client = false ∨ s.boot.tftp ≠ none) → exec (.dhcpReply own server file) s = .next s) ∧
    (s.booting 11 = true → s.boot.client = true → s.boot.tftp = none → Runs (.dhcpReply own server file) s [.out, .boot] (fun t =>
      t.boot.tftp = some { own := own, server := server, file := file, at_ := s.wall } ∧ t.out = s.out ++ [.tftp server (tftpRead file)]))) ∧
  (∀ (s : State) (n : BitVec 16) (b : List Byte), s.boot.tftp = none → exec (.tftpBlock n b) s = .next s ∧ exec .tftpRetransmit s = .next s) ∧
  (∀ (s : State) (n : BitVec 16) (b : List Byte) (x : Tftp), s.boot.tftp = some x →
    ((s.booting 11 = false ∨ x.next % 65536 ≠ n.toNat ∨ 512 < b.length) → exec (.tftpBlock n b) s = .next s) ∧
    (s.booting 11 = true → x.next = 1 → n = 1 → b.length ≤ 512 →
      (imgHeadOk b = false → exec (.tftpBlock n b) s = .next (s.noImage 3 b.length)) ∧
      (imgHeadOk b = true → s.signerOk b = false → exec (.tftpBlock n b) s = .next (s.noImage 4 b.length)) ∧
      (imgHeadOk b = true → s.signerOk b = true → Runs (.tftpBlock n b) s [.out, .boot] (fun t =>
        t.boot.tftp = some { x with hdr := b, got := x.got + 512, next := 2, tries := 1, at_ := s.wall } ∧ t.out = s.out ++ [.tftp x.server (tftpAck 1)]))) ∧
    (s.booting 11 = true → x.next ≠ 1 → x.next % 65536 = n.toNat → b.length = 512 → x.got - 512 + 512 ≤ imgPlen x.hdr → exec (.tftpBlock n b) s =
      .next ((State.loadBytes b (imgLoad x.hdr + (x.got - 512)) s).ackBlock x 512)) ∧
    ((s.booting 11 = false ∨ (s.wall - x.at_).toNat < 100000000) → exec .tftpRetransmit s = .next s) ∧
    (s.booting 11 = true → 100000000 ≤ (s.wall - x.at_).toNat → 5 ≤ x.tries → exec .tftpRetransmit s = .next (s.noImage 5 x.got)) ∧
    (s.booting 11 = true → 100000000 ≤ (s.wall - x.at_).toNat → x.tries < 5 → Runs .tftpRetransmit s [.out, .boot] (fun t =>
      t.boot.tftp = some { x with tries := x.tries + 1, at_ := s.wall } ∧
      t.out = s.out ++ [.tftp x.server (if x.next = 1 then tftpRead x.file else tftpAck (x.next - 1))]))) ∧
  (∀ s : State, (s.booting 12 = false → exec .startupLaunch s = .next s) ∧
    (s.booting 12 = true → s.boot.image = none → Runs .startupLaunch s [.regs, .log, .nodes, .irq, .hlth, .flash, .logN, .boot] (fun t =>
      t.devState = (if s.rbit Reg.CMD_DEV_STATE 19 then stWithdrawn else stService) ∧ t.phase = 0 ∧ t.rbit Reg.MGMT_CORE_ST 8 = false)) ∧
    (∀ i, s.booting 12 = true → s.boot.image = some i → ∃ x : State, exec .startupLaunch s =
      .next ((((x.wf Reg.MGMT_CORE_ST 8 8 (x.rf Reg.MGMT_CORE_ST 0 0)).wf Reg.CMD_BOOT_ST 11 8 1).event 0x07E7 devUnit 1 [(16, 8, rdLE i.digest 0 8)]).complete) ∧
        x.boot.dirty = [])) ∧
  (∀ s : State,
    ((s.booting 0 = true ∨ s.booting 1 = true) → s.inPhase < 1000000 → exec .startupPhaseLimit s = .next s) ∧
    ((s.booting 0 = true ∨ s.booting 1 = true) → 1000000 ≤ s.inPhase → Runs .startupPhaseLimit s [.regs, .pwr, .rst] (fun t => t.devState = stHalted ∧
      t.rf Reg.CMD_BOOT_ST 3 0 = 1 ∧ t.pwr = { s.pwr with alert := true })) ∧
    (s.booting 2 = true → s.inPhase < 200000 → exec .startupPhaseLimit s = .next s) ∧
    (s.booting 3 = true → s.inPhase < 10000000 → exec .startupPhaseLimit s = .next s) ∧
    (s.booting 4 = true → (s.pwr.group ≠ 7 ∨ s.inPhase < 100000) → exec .startupPhaseLimit s = .next s) ∧
    (s.booting 5 = true → s.inPhase < 100000000 → exec .startupPhaseLimit s = .next s) ∧
    (s.booting 5 = true → 100000000 ≤ s.inPhase → exec .startupPhaseLimit s = .next ((s.failPhase 5).calDone true)) ∧
    (s.booting 6 = true → s.inPhase < 200000000 → exec .startupPhaseLimit s = .next s) ∧
    (s.booting 6 = true → 200000000 ≤ s.inPhase → exec .startupPhaseLimit s = .next ((s.failPhase 6).dramDone (List.range 132))) ∧
    (s.booting 7 = true → exec .startupPhaseLimit s = .next s) ∧
    (s.booting 8 = true → s.inPhase < 100000000 → exec .startupPhaseLimit s = .next s) ∧
    (s.booting 8 = true → 100000000 ≤ s.inPhase →
      exec .startupPhaseLimit s = .next (((s.failPhase 8).event 0x07E1 devUnit 3 [(16, 1, 8), (17, 1, 2)]).bootHalt 8 0x07E1)) ∧
    (s.booting 11 = true → 30000000000 ≤ s.inPhase → exec .startupPhaseLimit s = .next ((s.failPhase 11).noImage 6 ((s.boot.tftp.map (·.got)).getD 0))) ∧
    (s.booting 11 = true → s.inPhase < 1000000000 → exec .startupPhaseLimit s = .next s) ∧
    (s.booting 12 = true → s.inPhase < 100000000 → exec .startupPhaseLimit s = .next s))

/-- The serializer and the order of its checks, for every catalogue row (R519, R524, R530). -/
def Obligations.CommandsAreChecked : Prop := ∀ (d : CmdDef) (s : State) (r : Req),
  (reqIs d.code r = false → s.cuard d r = .refused .illFormed) ∧
  (reqIs d.code r = true → s.cuardUp = false → s.cuard d r = .next s) ∧
  (reqIs d.code r = true → s.cq.queue.contains r = true → (s.cq.queue.head? ≠ some r ∨ s.blocked = true) → s.cuard d r = .next s) ∧
  (reqIs d.code r = true → s.cuardUp = true → s.cq.queue = [] → opcodes.contains d.code = true → s.blocked = true →
    s.cuard d r = .next (({ s with cq := { s.cq with queue := [r] } } : State).peakQueue)) ∧
  (reqIs d.code r = true → s.cuardUp = true → s.cq.queue.head? = some r → s.blocked = false →
    let x : State := { s with cq := { s.cq with queue := s.cq.queue.tail } }
    let p := pkParams r.bytes
    (s.rd Reg.CMD_QTMO < (s.now - r.arrival).toNat → s.cuard d r = .next
      ((x.event 0x0B04 devUnit 1 [(16, 2, d.code), (18, 1, 1), (19, 1, r.port)]).refusedWith r (repTo r) stTIMEOUT)) ∧
    ((s.now - r.arrival).toNat ≤ s.rd Reg.CMD_QTMO →
      (headStatus r.bytes ≠ 0 → s.cuard d r = .next (x.refusedWith r (repTo r) (headStatus r.bytes))) ∧
      (∀ st t u, headStatus r.bytes = 0 → x.gate d r = (st, t, u) →
        (st ≠ 0 → s.cuard d r = .next (u.refusedWith r { t with authed := t.authed && st != stAUTH_FAIL } st)) ∧
        (st = 0 →
          let ls := if d.acc = .s ∨ d.acc = .e then u.leaseStatus (d.res p) (pkLease r.bytes) t.key else 0
          (ls ≠ 0 → s.cuard d r = .next (u.refusedWith r t ls)) ∧
          (ls = 0 → d.lease u t ≠ 0 → s.cuard d r = .next (u.refusedWith r t (d.lease u t))) ∧
          (ls = 0 → d.lease u t = 0 → d.check u p ≠ 0 → s.cuard d r = .next (u.refusedWith r t (d.check u p))) ∧
          (∀ m, ls = 0 → d.lease u t = 0 → d.check u p = 0 → u.meets d r t = some m →
            (m.params = p → s.cuard d r = .next (u.answer t false stOK (pkLease r.bytes) m.reply)) ∧
            (m.params ≠ p → s.cuard d r = .next (u.refusedWith r t stSUPERSEDED))) ∧
          (ls = 0 → d.lease u t = 0 → d.check u p = 0 → u.meets d r t = none → u.resBusy (d.res p) = true →
            s.cuard d r = .next (u.refusedWith r t stBUSY)))))) ∧
  (∀ t u, Executes d s r t u → s.cuard d r = .next (State.conclude d r t (d.run u { req := r, rep := t, p := pkParams r.bytes })))
/-- Checks 5 to 8 (R503, R506, R521, R522, R527, R528, R531). -/
def Obligations.CommandsAreAuthenticated : Prop :=
  (∀ (s : State) (r : Req), (s.sess (pkSess r.bytes) = none → s.authCheck r = (some 2, s)) ∧
    (∀ x, s.sess (pkSess r.bytes) = some x →
      ((x.active = false ∨ x.port ≠ r.port) → s.authCheck r = (some 2, s)) ∧
      (x.active = true → x.port = r.port → hmac384 x.reqKey (pkCover r.bytes) ≠ (pkTail r.bytes).take 48 → s.authCheck r = (some 2, s)) ∧
      (x.active = true → x.port = r.port → hmac384 x.reqKey (pkCover r.bytes) = (pkTail r.bytes).take 48 →
        ((pkSeq r.bytes = 0 ∨ x.seen.contains (pkSeq r.bytes) = true ∨ pkSeq r.bytes + 64 ≤ x.high) → s.authCheck r = (some 3, s)) ∧
        (pkSeq r.bytes ≠ 0 → x.seen.contains (pkSeq r.bytes) = false → x.high < pkSeq r.bytes + 64 →
          (s.authCheck r).1 = none ∧ (s.authCheck r).2.cq = { s.cq with sessions := s.cq.sessions.map (fun y => if y.id = x.id then
            { y with
              high := max x.high (pkSeq r.bytes), last := s.now
              seen := (pkSeq r.bytes :: y.seen).filter (fun v => decide (max x.high (pkSeq r.bytes) < v + 64)) } else y) } ∧
          s.Alters (s.authCheck r).2 [.cq])))) ∧
  (∀ (s : State) (d : CmdDef) (r : Req), s.sess (pkSess r.bytes) = none →
    ((d.acc = .s ∨ d.acc = .e) → s.gate d r = (stAUTH_FAIL, { repTo r with key := 255 }, s.authFail 2 255 r.port)) ∧
    (d.acc = .o → pkFlag r.bytes 2 = true → s.gate d r = (stAUTH_FAIL, { repTo r with key := 255 }, s.authFail 2 255 r.port)) ∧
    (d.acc = .o → pkFlag r.bytes 2 = false →
      (s.permits d.code = false → (s.gate d r).1 = stBAD_STATE ∧ (s.gate d r).2.2 = s) ∧
      (s.permits d.code = true → pkFlag r.bytes 1 = false → s.gate d r = (0, { repTo r with authed := false, key := 255, repKey := [] }, s)) ∧
      (s.permits d.code = true → pkFlag r.bytes 1 = true → (s.gate d r).1 = stEXPERT_LOCKED ∧ (s.gate d r).2.2 = s)) ∧
    (d.acc = .l → (r.port ≠ 1 → (s.gate d r).1 = stBAD_STATE ∧ (s.gate d r).2.2 = s) ∧
      (r.port = 1 → s.permits d.code = true → pkFlag r.bytes 1 = false → (s.gate d r).1 = 0 ∧ (s.gate d r).2.2 = s)) ∧
    (d.acc = .q → pkFlag r.bytes 2 = false → pkFlag r.bytes 1 = false → s.permits d.code = true → s.ktState ≠ 1 →
      (s.gate d r).1 = stQUORUM_SHORT ∧ (s.gate d r).2.2 = s)) ∧
  (∀ (s : State) (d : CmdDef) (r : Req) (x : Sess) (u : State), s.authCheck r = (none, u) → u.sess (pkSess r.bytes) = some x → d.acc = .e → pkFlag r.bytes 2 = true →
    u.permits d.code = true → ((pkFlag r.bytes 1 = false ∨ x.expert = false) → (s.gate d r).1 = stEXPERT_LOCKED ∧ (s.gate d r).2.2 = u) ∧
      (pkFlag r.bytes 1 = true → x.expert = true → (s.gate d r).1 = 0 ∧ (s.gate d r).2.2 = u ∧ (s.gate d r).2.1.authed = true ∧ (s.gate d r).2.1.key = x.key)) ∧
  (∀ (s : State) (n id key : Nat), s.leaseStatus none id key = 0 ∧
    (s.leaseOf n = none → s.leaseStatus (some n) 0 key = 0) ∧
    (∀ l, s.leaseOf n = some l → n < 4 → (l.id = id → l.key = key → s.leaseStatus (some n) id key = 0) ∧ (l.id = id → l.key ≠ key → s.leaseStatus (some n) id key = stNOT_OWNER)) ∧
    (id ≠ 0 → (∀ k l, k < 4 → s.leaseOf k = some l → l.id ≠ id) → s.leaseStatus (some n) id key = stLEASE_EXPIRED) ∧
    (∀ l, s.leaseOf n = some l → l.id ≠ 0 → s.leaseStatus (some n) 0 key = stNOT_OWNER)) ∧
  (∀ (s : State) (code : Nat), (s.devState = stHalted → s.permits code = (code / 256 == 1 || code / 256 == 0xB)) ∧
    (s.devState = stBringup → s.permits code = (code / 256 == 1 || code / 256 == 0xB || code == 0x0701)) ∧ (s.devState = stService → s.permits code = true) ∧
    (s.devState = stWithdrawn → s.permits code = !(code == 0x0301 || code == 0x0303 || code == 0x0604 || code == 0x0803)))

/-- Commands of group 0x01xx (R533). -/
def Obligations.IdentityCommandsComplete : Prop :=
  (∀ s r t u, Executes defIdentGet s r t u → exec (.identGet r) s = .next (u.accepted defIdentGet r t (u.devId ++ toLE 2 0x0301 ++ toLE 2 1 ++
    toLE 1 u.fuse.part ++ toLE 1 u.lCount ++ toLE 2 (u.coord + (if u.rbit Reg.FAB_COORD 31 then 2 ^ 15 else 0)) ++ u.softMac ++ toLE 2 u.fmax ++ toLE 2 u.effCap))) ∧
  (∀ s r t u, Executes defStateGet s r t u → exec (.stateGet r) s = .next (u.accepted defStateGet r t
    (toLE 4 (u.view Reg.CMD_DEV_STATE) ++ toLE 8 (u.rd64 Reg.CMD_DEV_STATE_TS_LO) ++ toLE 4 (u.view Reg.CLK_ST)))) ∧
  (∀ s r t u, Executes defInventoryGet s r t u → exec (.inventoryGet r) s = .next (u.accepted defInventoryGet r t
    (u.viewWords ((List.range 16).map Reg.SKN_LMAP ++ (List.range 16).map Reg.SKN_POS ++ [Reg.SKN_SPARE_ST]) ++
      (List.range 132).flatMap (fun c => toLE 1 (u.rf (Reg.MEM_CH_STAT c) 2 0)) ++
      (List.range 32).flatMap (fun h => toLE 1 (u.portSt h + 16 * u.rf (Reg.PORT_ST (h / 2) (h % 2)) 6 4)) ++ u.viewWords [Reg.MGMT_CORE_ST]))) ∧
  (∀ s r t u, Executes defCertGet s r t u → let p := pkParams r.bytes
    (u.certificate.length < rdLE p 0 4 + rdLE p 4 2 → exec (.certGet r) s = .next (u.refusedWith r t stOUT_OF_RANGE)) ∧
    (rdLE p 0 4 + rdLE p 4 2 ≤ u.certificate.length → exec (.certGet r) s = .next (u.accepted defCertGet r t
      (toLE 4 u.certificate.length ++ (u.certificate.drop (rdLE p 0 4)).take (min (rdLE p 4 2) 4092))))) ∧
  (∀ s r t u, Executes defMgmtAddrSet s r t u → exec (.mgmtAddrSet r) s = .next ((u.flashPut flAddr (pkParams r.bytes)).accepted defMgmtAddrSet r t [])) ∧
  (∀ s r t u, Executes defSessionOpen s r t u → let p := pkParams r.bytes; let k := rdLE p 0 1; let ex := rdLE p 1 1 == 1
    let good := u.keyHas k 0 && (!ex || u.keyHas k 1) && sec1Ok (sliceB p 2 97)
    (u.tooManyFails = true → exec (.sessionOpen r) s = .next (u.refusedWith r t stBUSY)) ∧
    (u.tooManyFails = false → good = false → exec (.sessionOpen r) s = .next ((u.authFail 1 k r.port).refusedWith r t stAUTH_FAIL)) ∧
    (u.tooManyFails = false → good = true → ex = true → u.cq.sessions.any (·.expert) = true → exec (.sessionOpen r) s = .next (u.refusedWith r t stEXPERT_LOCKED)) ∧
    (u.tooManyFails = false → good = true → (ex = false ∨ u.cq.sessions.any (·.expert) = false) → 8 ≤ u.cq.sessions.length →
      exec (.sessionOpen r) s = .next (u.refusedWith r t stBUSY)) ∧
    (u.tooManyFails = false → good = true → (ex = false ∨ u.cq.sessions.any (·.expert) = false) → u.cq.sessions.length < 8 →
      ∃ x y, (u.openSession { req := r, rep := t, p := p }).s = x ∧ x.cq.sessions = u.cq.sessions ++ [y] ∧ y.active = false ∧ y.port = r.port ∧ y.key = k ∧ y.expert = ex ∧
        y.opened = u.now ∧ exec (.sessionOpen r) s = .next ((x.remember defSessionOpen r t (u.openSession { req := r, rep := t, p := p }).params).answer
          { t with session := y.id } false stOK (pkLease r.bytes) (u.openSession { req := r, rep := t, p := p }).params))) ∧
  (∀ s r t u, Executes defSessionConfirm s r t u → let p := pkParams r.bytes
    (u.sess t.session = none → exec (.sessionConfirm r) s = .next ((u.authFail 1 255 r.port).refusedWith r t stAUTH_FAIL)) ∧
    (∀ x, u.sess t.session = some x →
      ((x.active = true ∨ x.port ≠ r.port) → exec (.sessionConfirm r) s = .next ((u.authFail 1 x.key r.port).refusedWith r t stAUTH_FAIL)) ∧
      (x.active = false → x.port = r.port → (1000000000 < (u.now - x.opened).toNat ∨
        (u.keyHas x.key 0 && ecdsaVerify (u.keyPub x.key) (sha384 x.tHash) p) = false) → exec (.sessionConfirm r) s =
        .next ((({ u with cq := { u.cq with sessions := u.cq.sessions.filter (fun y => decide (y.id ≠ x.id)) } } : State).authFail 1 x.key r.port).refusedWith r t
          stAUTH_FAIL)) ∧
      (x.active = false → x.port = r.port → (u.now - x.opened).toNat ≤ 1000000000 →
        (u.keyHas x.key 0 && ecdsaVerify (u.keyPub x.key) (sha384 x.tHash) p) = true → exec (.sessionConfirm r) s =
        .next (((u.modSess x.id (fun y => { y with active := true, opened := u.now, last := u.now })).event 0x0A03 devUnit 1
          [(16, 4, x.id), (20, 1, x.key), (21, 1, boolN x.expert), (22, 1, x.port)]).accepted defSessionConfirm r t [])))) ∧
  (∀ s r t u, Executes defSessionClose s r t u → exec (.sessionClose r) s = .next ((u.closeSess t.session 1).accepted defSessionClose r t [])) ∧
  (∀ s r t u, Executes defLeaseAcquire s r t u → let p := pkParams r.bytes; let n := rdLE p 0 1; let v := u.lapse n
    (∀ l, v.leaseOf n = some l → exec (.leaseAcquire r) s = .next (v.refusedWith r t stNOT_OWNER)) ∧
    (v.leaseOf n = none → let g := (v.event 0x0B02 devUnit 1 [(16, 1, n), (17, 1, 1), (18, 1, t.key), (19, 1, 255)]).grantLease n t.key (rdLE p 1 2)
      ∃ i, g.lease = some i ∧ tget none g.s.cq.leases n = some { key := t.key, id := i, expiry := u.now + BitVec.ofNat 64 (rdLE p 1 2 * 100000000) } ∧
        exec (.leaseAcquire r) s = .next ((g.s.remember defLeaseAcquire r t g.params).answer t false stOK i g.params))) ∧
  (∀ s r t u n l, Executes defLeaseRenew s r t u → u.leaseNamed t.lease = some n → u.leaseOf n = some l →
    let e := u.now + BitVec.ofNat 64 (rdLE (pkParams r.bytes) 0 2 * 100000000)
    exec (.leaseRenew r) s = .next (({ u with cq := { u.cq with leases := tset none u.cq.leases n (some { l with expiry := e }) } } : State).accepted
      defLeaseRenew r t (toLE 8 e.toNat))) ∧
  (∀ s r t u n, Executes defLeaseRelease s r t u → u.leaseNamed t.lease = some n →
    exec (.leaseRelease r) s = .next ((u.endLease n 2 255).accepted defLeaseRelease r t [])) ∧
  (∀ s r t u, Executes defLeaseTakeover s r t u → let p := pkParams r.bytes; let n := rdLE p 0 1; let v := u.lapse n
    (t.authed = false → exec (.leaseTakeover r) s = .next (u.refusedWith r t stBAD_STATE)) ∧
    (∀ l, t.authed = true → v.leaseOf n = some l → let g := (v.endLease n 4 t.key).grantLease n t.key (rdLE p 1 2)
      ∃ i, g.lease = some i ∧ exec (.leaseTakeover r) s = .next ((g.s.remember defLeaseTakeover r t g.params).answer t false stOK i g.params)) ∧
    (t.authed = true → v.leaseOf n = none →
      let g := (v.event 0x0B02 devUnit 1 [(16, 1, n), (17, 1, 1), (18, 1, t.key), (19, 1, 255)]).grantLease n t.key (rdLE p 1 2)
      ∃ i, g.lease = some i ∧ exec (.leaseTakeover r) s = .next ((g.s.remember defLeaseTakeover r t g.params).answer t false stOK i g.params))) ∧
  (∀ s r t u, Executes defLeaseGet s r t u → exec (.leaseGet r) s = .next (u.accepted defLeaseGet r t ((List.range 4).flatMap (fun n => match u.leaseOf n with
    | some l => toLE 1 l.key ++ toLE 8 l.expiry.toNat
    | none => toLE 1 255 ++ toLE 8 0)))) ∧
  (∀ s r t u, Executes defQnonceGet s r t u → let v := if 60000000000 ≤ (u.now - u.cq.nonceAt).toNat then u.newNonce else u
    exec (.qnonceGet r) s = .next (v.accepted defQnonceGet r t (v.cq.nonce ++ toLE 8 ((v.cq.nonceAt.toNat + 60000000000) % 2 ^ 64)))) ∧
  (∀ s r t u, Executes defKeytabGet s r t u → (u.ktState = 0 → exec (.keytabGet r) s = .next (u.refusedWith r t stBAD_STATE)) ∧
    (u.ktState ≠ 0 → exec (.keytabGet r) s = .next (u.accepted defKeytabGet r t (u.flashBytes flKeys 0x440)))) ∧
  (∀ s r t u, Executes defKeytabInit s r t u → (u.ktState ≠ 0 → exec (.keytabInit r) s = .next (u.refusedWith r t stBAD_STATE)) ∧
    (u.ktState = 0 → exec (.keytabInit r) s = .next ((u.changeKt (pkParams r.bytes)).accepted defKeytabInit r t []))) ∧
  (∀ s r t u, Executes defKeytabSet s r t u → ((64 ≤ u.fuse.ktCtr ∨ u.ktState ≠ 1) → exec (.keytabSet r) s = .next (u.refusedWith r t stBAD_STATE)) ∧
    (u.fuse.ktCtr < 64 → u.ktState = 1 → exec (.keytabSet r) s = .next ((u.changeKt (pkParams r.bytes)).accepted defKeytabSet r t []))) ∧
  (∀ s r t u, Executes defKeytabRestore s r t u → (u.ktState ≠ 2 → exec (.keytabRestore r) s = .next (u.refusedWith r t stBAD_STATE)) ∧
    (u.ktState = 2 → u.ktBad (pkParams r.bytes) ≠ 0 → exec (.keytabRestore r) s = .next (u.refusedWith r t stOUT_OF_RANGE)) ∧
    (u.ktState = 2 → u.ktBad (pkParams r.bytes) = 0 → exec (.keytabRestore r) s = .next ((u.installKt (pkParams r.bytes)).accepted defKeytabRestore r t [])))

/-- Commands of groups 0x02xx and 0x03xx (R534, R536). -/
def Obligations.ContextCommandsComplete : Prop :=
  (∀ s r t u, Executes defClkPlanSet s r t u → let x := u.askPlan (rdLE (pkParams r.bytes) 0 2)
    (u.tstrictRuns = true → exec (.clkPlanSet r) s = .next ((x.remember defClkPlanSet r t []).answer t false stACCEPTED (pkLease r.bytes) [])) ∧
    (u.tstrictRuns = false → x.clk.change = none → x.clk.reqs.length = 1 → x.effF = x.aMhz → exec (.clkPlanSet r) s =
      .next ((({ x with clk := { x.clk with reqs := [] } } : State).syncClk).accepted defClkPlanSet r t (toLE 2 x.aMhz))) ∧
    (u.tstrictRuns = false → (x.clk.change ≠ none ∨ x.clk.reqs.length ≠ 1 ∨ x.effF ≠ x.aMhz) → exec (.clkPlanSet r) s = .next (x.heldFor defClkPlanSet r t .freq))) ∧
  (∀ s r t u, Executes defPwrCapSet s r t u → let x := (u.wf Reg.PWR_CAP 15 0 (rdLE (pkParams r.bytes) 0 2)).syncCap
    exec (.pwrCapSet r) s = .next (x.accepted defPwrCapSet r t (toLE 2 x.effCap)) ∧
    (u.Inv → x.effCap = min (min (u.rf Reg.PWR_CAP_SRC 31 16) (u.rf Reg.PWR_CAP_SRC 15 0)) (rdLE (pkParams r.bytes) 0 2))) ∧
  (∀ s r t u, Executes defDomainGate s r t u → let g := u.gateDomain (rdLE (pkParams r.bytes) 0 1) (rdLE (pkParams r.bytes) 1 1 == 0)
    (g.1 = true → exec (.domainGate r) s = .next (g.2.accepted defDomainGate r t [])) ∧
    (g.1 = false → exec (.domainGate r) s = .next (g.2.refusedWith r t stBAD_STATE))) ∧
  (∀ s r t u, Executes defClkpwrGet s r t u → exec (.clkpwrGet r) s = .next (u.accepted defClkpwrGet r t
    (u.viewWords [Reg.CLK_ST, Reg.CLK_PLAN, Reg.CLK_REDUCE, Reg.PWR_ST, Reg.PWR_CAP, Reg.PWR_IN, Reg.PWR_TJ, Reg.PWR_THROT]))) ∧
  (∀ s r t u, Executes defCtxLoad s r t u →
    (u.rbit Reg.CMD_STRAPS 14 = true → exec (.ctxLoad r) s = .next (u.refusedWith r t stBAD_STATE)) ∧
    (u.rbit Reg.CMD_STRAPS 14 = false → u.tstrictRuns = true → exec (.ctxLoad r) s = .next (u.refusedWith r t stBUSY)) ∧
    (u.rbit Reg.CMD_STRAPS 14 = false → u.tstrictRuns = false → exec (.ctxLoad r) s =
      .next (({ u with cq := { u.cq with loading := some (rdLE (pkParams r.bytes) 0 8) } } : State).goesOn defCtxLoad r t .load (some 1000000000)))) ∧
  (∀ s r t u, Executes defCtxUnload s r t u →
    (u.slotById (rdLE (pkParams r.bytes) 0 2) = none → exec (.ctxUnload r) s = .next (u.refusedWith r t stOUT_OF_RANGE)) ∧
    (∀ n j, u.slotById (rdLE (pkParams r.bytes) 0 2) = some (n, j) →
      (u.runCtx = j.ctx.toNat → exec (.ctxUnload r) s = .next (u.refusedWith r t stBAD_STATE)) ∧
      (u.runCtx ≠ j.ctx.toNat → u.reelUses j.ctx.toNat = true → exec (.ctxUnload r) s = .next (u.refusedWith r t stBUSY)) ∧
      (u.runCtx ≠ j.ctx.toNat → u.reelUses j.ctx.toNat = false → exec (.ctxUnload r) s = .next ((u.unload n j).accepted defCtxUnload r t [])))) ∧
  (∀ s r t u, Executes defCtxSwitch s r t u → let v := rdLE (pkParams r.bytes) 0 1
    ((u.quarActive || u.tstrictRuns || u.switching) = true → exec (.ctxSwitch r) s = .next (u.refusedWith r t stBUSY)) ∧
    ((u.quarActive || u.tstrictRuns || u.switching) = false →
      (u.switchTo v = none → exec (.ctxSwitch r) s = .next (u.refusedWith r t stBAD_STATE)) ∧
      (∀ n, u.switchTo v = some n → u.slotOf n = none → exec (.ctxSwitch r) s = .next (u.refusedWith r t stBAD_STATE)) ∧
      (∀ n j, u.switchTo v = some n → u.slotOf n = some j → j.st = .restorePending → u.reel.restore ≠ none → exec (.ctxSwitch r) s = .next (u.refusedWith r t stBUSY)) ∧
      (∀ n j, u.switchTo v = some n → u.slotOf n = some j → j.st ≠ .restorePending →
        (u.readyAt n = true → exec (.ctxSwitch r) s = .next ((u.beginSwitch .command (some n)).heldFor defCtxSwitch r t .giveWay)) ∧
        (u.readyAt n = false → exec (.ctxSwitch r) s = .next (u.refusedWith r t stBAD_STATE))))) ∧
  (∀ s r t u, Executes defCtxStatus s r t u →
    (u.slotById (rdLE (pkParams r.bytes) 0 2) = none → exec (.ctxStatus r) s = .next (u.refusedWith r t stOUT_OF_RANGE)) ∧
    (∀ n j, u.slotById (rdLE (pkParams r.bytes) 0 2) = some (n, j) →
      let f := if j.st = .ended ∨ j.st = .faulted then (j.flags, j.counts) else u.tally j
      exec (.ctxStatus r) s = .next ((if j.st = .ended then u.unload n j else u).accepted defCtxStatus r t (toLE 1 j.st.code ++ toLE 2 j.fault ++ toLE 4 f.1 ++
        toLE 8 j.step.toNat ++ (List.range 16).flatMap (fun l => match f.2[l]? with
          | some v => toLE 8 v.1 ++ toLE 8 v.2
          | none => toLE 16 0))))) ∧
  (∀ s r t u, Executes defQuantumSet s r t u → exec (.quantumSet r) s = .next ((u.wr Reg.SKN_QUANTUM (rdLE (pkParams r.bytes) 0 4)).accepted defQuantumSet r t [])) ∧
  (∀ s r t u, Executes defStripeSet s r t u → let p := pkParams r.bytes
    (u.anyResident = true → exec (.stripeSet r) s = .next (u.refusedWith r t stBUSY)) ∧
    (u.anyResident = false → exec (.stripeSet r) s = .next (((List.range (rdLE p 2 1)).foldl (fun s i =>
      s.writeStripe (rdLE p 0 1) (rdLE p 1 1 + i) (rdLE p (3 + i) 1)) u).accepted defStripeSet r t []))) ∧
  (∀ s r t u, Executes defSpnGet s r t u → let g := u.readRegs ((List.range 37).map (fun k => Reg.SPN_STATE (rdLE (pkParams r.bytes) 0 1) + 4 * k))
    exec (.spnGet r) s = .next (g.2.accepted defSpnGet r t g.1)) ∧
  (∀ s r t u, Executes defChnGet s r t u → let ps := rdLE (pkParams r.bytes) 0 1; let n := rdLE (pkParams r.bytes) 1 1
    let g := u.readRegs [Reg.CHN_OUT_ST ps n, Reg.CHN_SENT ps n, Reg.CHN_DROP ps n, Reg.CHN_OSTALL ps n, Reg.CHN_IN_ST ps n, Reg.CHN_RCVD ps n, Reg.CHN_DISC ps n,
      Reg.CHN_ISTALL ps n]
    exec (.chnGet r) s = .next (g.2.accepted defChnGet r t g.1))
/-- Commands of group 0x07xx (R540). -/
def Obligations.FabricCommandsComplete : Prop :=
  (∀ s r t u, Executes defCoordSet s r t u → let p := pkParams r.bytes
    ((u.devState ≠ stBringup ∨ u.rbit Reg.CMD_STRAPS 4 = true ∨ 10 ≤ u.phase) → exec (.coordSet r) s = .next (u.refusedWith r t stBAD_STATE)) ∧
    (u.devState = stBringup → u.rbit Reg.CMD_STRAPS 4 = false → u.phase < 10 → exec (.coordSet r) s =
      .next (({ u with boot := { u.boot with coord := some (rdLE p 0 2, rdLE p 2 1, rdLE p 3 2) } } : State).accepted defCoordSet r t []))) ∧
  (∀ s r t u, Executes defFabAddrSet s r t u → ∃ x : State, exec (.fabAddrSet r) s = .next (x.accepted defFabAddrSet r t []) ∧ u.Alters x [.regs] ∧
    (u.Inv → let p := pkParams r.bytes
      x.rd Reg.FAB_MAC = rdLE p 0 3 ∧ x.rd Reg.FAB_ETYPE = rdLE p 3 4 ∧ x.rd Reg.FAB_UDP = rdLE p 7 2 ∧ x.rd Reg.FAB_IP4_PFX = rdLE p 21 2 ∧
      x.rf Reg.FAB_CTL 2 2 = rdLE p 23 1 ∧ (∀ k, k < 3 → x.rd (Reg.FAB_IP6_PFX k) = beNat (sliceB p 9 12) / 2 ^ (32 * k) % 2 ^ 32))) ∧
  (∀ s r t u, Executes defRtWrite s r t u → let p := pkParams r.bytes; let v := u.epochDue
    (v.bankOpen (rdLE p 0 1) = false → exec (.rtWrite r) s = .next (v.refusedWith r t stBUSY)) ∧
    (v.bankOpen (rdLE p 0 1) = true → exec (.rtWrite r) s = .next (((List.range (rdLE p 3 2)).foldl (fun s i =>
      s.wr (Reg.FAB_RT (rdLE p 0 1) (rdLE p 1 2 + i)) (rdLE p (5 + 4 * i) 4)) v).rerouteWaiting.accepted defRtWrite r t []))) ∧
  (∀ s r t u, Executes defMcWrite s r t u → let p := pkParams r.bytes; let v := u.epochDue
    (v.bankOpen (rdLE p 0 1) = false → exec (.mcWrite r) s = .next (v.refusedWith r t stBUSY)) ∧
    (v.bankOpen (rdLE p 0 1) = true → exec (.mcWrite r) s = .next (((List.range (rdLE p 3 2)).foldl (fun s i =>
      (s.wr (Reg.FAB_MC_LO (rdLE p 0 1) (rdLE p 1 2 + i)) (rdLE p (5 + 8 * i) 4)).wr (Reg.FAB_MC_HI (rdLE p 0 1) (rdLE p 1 2 + i)) (rdLE p (9 + 8 * i) 4))
        v).accepted defMcWrite r t []))) ∧
  (∀ s r t u, Executes defEpochSwitch s r t u → let p := pkParams r.bytes
    (u.rbit Reg.MGMT_PTP_CTL 0 = false → exec (.epochSwitch r) s = .next (u.refusedWith r t stBAD_STATE)) ∧
    (u.rbit Reg.MGMT_PTP_CTL 0 = true → u.rbit Reg.FAB_EPOCH 3 = true → exec (.epochSwitch r) s = .next (u.refusedWith r t stBUSY)) ∧
    (u.rbit Reg.MGMT_PTP_CTL 0 = true → u.rbit Reg.FAB_EPOCH 3 = false → exec (.epochSwitch r) s = .next (({ u with fab := { u.fab with
      epoch := some { bank := rdLE p 0 1, valid := rdLE p 1 1, sec := rdLE p 2 6, ns := rdLE p 8 4 } } } : State).goesOn defEpochSwitch r t .epoch none))) ∧
  (∀ s r t u, Executes defPortCfg s r t u → let p := pkParams r.bytes; let q := rdLE p 0 1
    exec (.portCfg r) s = .next ((((u.wf (Reg.PORT_CTL q) 4 1 (rdLE p 1 1)).wf (Reg.PORT_HCTL q 0) 4 0 (rdLE p 2 1)).wf (Reg.PORT_HCTL q 1) 4 0 (rdLE p 3 1)).accepted
      defPortCfg r t [])) ∧
  (∀ s r t u, Executes defPortAct s r t u → let h := rdLE (pkParams r.bytes) 0 1; let a := rdLE (pkParams r.bytes) 1 1
    let done (x : State) : State := x.dikeDone.accepted defPortAct r t (toLE 1 (x.portSt h))
    (a = 0 → exec (.portAct r) s = .next (done (u.disableHalf h))) ∧ (a = 1 → exec (.portAct r) s = .next (done (u.enableHalf h))) ∧
    (a = 2 → u.portSt h = 5 → exec (.portAct r) s = .next (done (u.returnHalf h).syncDgPort)) ∧ (a = 3 → u.portSt h = 2 → exec (.portAct r) s = .next (done (u.retrain h))) ∧
    (((a = 2 ∧ u.portSt h ≠ 5) ∨ (a = 3 ∧ u.portSt h ≠ 2)) → exec (.portAct r) s = .next (u.refusedWith r t stBAD_STATE))) ∧
  (∀ s r t u, Executes defPortGwSet s r t u → let p := pkParams r.bytes; let h := rdLE p 0 1
    exec (.portGwSet r) s = .next (((u.wr (Reg.PORT_GW_LO (h / 2) (h % 2)) (rdLE p 1 4)).wr (Reg.PORT_GW_HI (h / 2) (h % 2)) (rdLE p 5 2)).accepted defPortGwSet r t [])) ∧
  (∀ s r t u, Executes defTopoGet s r t u → exec (.topoGet r) s = .next (u.accepted defTopoGet r t ((List.range 32).flatMap u.topoOf))) ∧
  (∀ s r t u, Executes defDikeSet s r t u → (∀ h, h < 32 → bitsOf (u.hctl h) 6 5 = rdLE (pkParams r.bytes) (4 + h) 1) → exec (.dikeSet r) s =
    .next (((u.wf Reg.COLL_DIKE 15 0 (rdLE (pkParams r.bytes) 0 2)).wf Reg.RST_SPOL 29 16 (rdLE (pkParams r.bytes) 2 2)).goesOn defDikeSet r t (.dike 0) none)) ∧
  (∀ s r t u, Executes defWatchSet s r t u → let p := pkParams r.bytes
    exec (.watchSet r) s = .next (((List.range (rdLE p 1 1)).foldl (fun s i =>
      s.regWrite (Reg.COLL_PEER (rdLE p 0 1 + i)) (rdLE p (2 + 2 * i) 2 / 2 ^ 15 * 2 ^ 31 + rdLE p (2 + 2 * i) 2 % 8192)) u).accepted defWatchSet r t [])) ∧
  (∀ s r t u, Executes defPeerClear s r t u → let n := rdLE (pkParams r.bytes) 0 1
    (u.peerClears n = true → exec (.peerClear r) s = .next ((u.clearPeer n).accepted defPeerClear r t [])) ∧
    (u.peerClears n = false → exec (.peerClear r) s = .next (u.refusedWith r t stBAD_STATE))) ∧
  (∀ s r t u, Executes defShadowSet s r t u → (u.anyResident = true → exec (.shadowSet r) s = .next (u.refusedWith r t stBAD_STATE)) ∧
    (u.anyResident = false → exec (.shadowSet r) s = .next ((u.wf Reg.COLL_CTL 0 0 1).accepted defShadowSet r t []))) ∧
  (∀ s r t u, Executes defShadowPromote s r t u → let x : State := { u with coll := { u.coll with promote := some (rdLE (pkParams r.bytes) 0 8) } }
    (u.rbit Reg.COLL_CTL 0 = false → exec (.shadowPromote r) s = .next (u.refusedWith r t stBAD_STATE)) ∧
    (u.rbit Reg.COLL_CTL 0 = true → u.runCtx = 0 → exec (.shadowPromote r) s = .next (x.accepted defShadowPromote r t [])) ∧
    (u.rbit Reg.COLL_CTL 0 = true → u.runCtx ≠ 0 → exec (.shadowPromote r) s = .next ((x.promoteAt (u.rd64 Reg.DET_STEP_LO)).accepted defShadowPromote r t []))) ∧
  (∀ s r t u, Executes defCollCfg s r t u → ∃ x : State, exec (.collCfg r) s = .next (x.accepted defCollCfg r t []) ∧ u.Alters x [.regs] ∧
    (u.Inv → let p := pkParams r.bytes
      x.rd Reg.COLL_DEADLINE = rdLE p 0 4 ∧ x.rd Reg.COLL_AGREE_TMO = rdLE p 4 4 ∧ x.rd Reg.COLL_RESULT_TMO = rdLE p 8 4 ∧ x.rd Reg.COLL_HB_INT = rdLE p 12 4 ∧
      x.rd Reg.COLL_POLL = rdLE p 16 4 ∧ x.rf Reg.COLL_HB_MISS 3 0 = rdLE p 20 1 ∧ x.rf Reg.COLL_CTL 1 1 = rdLE p 21 1)) ∧
  (∀ s r t u, Executes defWithdraw s r t u → (u.devState = stWithdrawn → exec (.withdraw r) s = .next (u.accepted defWithdraw r t [])) ∧
    (u.devState ≠ stWithdrawn → exec (.withdraw r) s = .next ((u.withdrawFirst 0x0710).accepted defWithdraw r t []))) ∧
  (∀ s r t u, Executes defReturnService s r t u → let x : State := { u with rst := { u.rst with back := some (u.now, u.countedTicks) } }
    (u.devState = stWithdrawn → exec (.returnService r) s = .next (x.returnService.accepted defReturnService r t [])) ∧
    (u.devState ≠ stWithdrawn → exec (.returnService r) s =
      .next (((List.range 8).foldl (fun s k => s.wr64 (Reg.RST_CNT_TS_LO k) 0) x).accepted defReturnService r t [])))

/-- Commands of groups 0x04xx, 0x05xx and 0x06xx (R537, R538, R539). -/
def Obligations.HealthCommandsComplete : Prop :=
  (∀ s r t u, Executes defFence s r t u → let n := rdLE (pkParams r.bytes) 0 2
    (u.fencedUnit n = true → exec (.fence r) s = .next (u.accepted defFence r t [])) ∧
    (u.fencedUnit n = false → exec (.fence r) s = .next ((u.fenceUnit n).accepted defFence r t []))) ∧
  (∀ s r t u, Executes defReturn s r t u → let n := rdLE (pkParams r.bytes) 0 2
    (u.rolling n = true → exec (.returnUnit r) s = .next (u.refusedWith r t stBUSY)) ∧
    (u.rolling n = false → u.fusedBad n 0 = true → exec (.returnUnit r) s = .next (u.refusedWith r t stBAD_STATE)) ∧
    (u.rolling n = false → u.fusedBad n 0 = false → u.fencedUnit n = false → exec (.returnUnit r) s = .next (u.accepted defReturn r t [])) ∧
    (u.rolling n = false → u.fusedBad n 0 = false → u.fencedUnit n = true →
      exec (.returnUnit r) s = .next ((u.beginReturn n).goesOn defReturn r t (.returning n) none))) ∧
  (∀ s r t u, Executes defRowRepair s r t u → let p := pkParams r.bytes; let ch := rdLE p 0 2 % 2048
    let g := u.startRepair ch (rdLE p 2 1) (rdLE p 3 1) (rdLE p 4 2) false
    (g.2 = none → exec (.rowRepair r) s = .next (g.1.heldFor defRowRepair r t (.repair ch (rdLE p 2 1) (rdLE p 3 1) (rdLE p 4 2)))) ∧
    (g.2 ≠ none → exec (.rowRepair r) s = .next (g.1.refusedWith r t stHW_FAULT))) ∧
  (∀ bad s r t u, Executes (defFuseBurn bad) s r t u → let p := pkParams r.bytes
    (rdLE p 0 1 = 1 → u.fuse.owner ≠ none → exec (.fuseBurn r bad) s = .next (u.refusedWith r t stBAD_STATE)) ∧
    (rdLE p 0 1 = 1 → u.fuse.owner = none → exec (.fuseBurn r bad) s = .next (({ u with fuse := { u.fuse with owner := some (p.drop 1) } } : State).accepted
      (defFuseBurn bad) r t (toLE 2 (u.rf Reg.FUSE_FREE 9 0)))) ∧
    (rdLE p 0 1 ≠ 1 → u.freeFuse = none → exec (.fuseBurn r bad) s = .next (u.refusedWith r t stOUT_OF_RANGE)) ∧
    (∀ n, rdLE p 0 1 ≠ 1 → u.freeFuse = some n → let x := u.burnRepair n (rdLE p 1 2) (rdLE p 3 2) bad
      (bad = true → exec (.fuseBurn r bad) s = .next (x.refusedWith r t stHW_FAULT)) ∧
      (bad = false → exec (.fuseBurn r bad) s = .next (x.accepted (defFuseBurn bad) r t (toLE 2 (x.rf Reg.FUSE_FREE 9 0)))))) ∧
  (∀ s r t u, Executes defSpolSet s r t u →
    exec (.spolSet r) s = .next ((u.wf Reg.RST_SPOL 1 0 (rdLE (pkParams r.bytes) 0 1)).accepted defSpolSet r t [])) ∧
  (∀ s r t u, Executes defMarginClear s r t u → let x := u.clearMargin
    (u.rbit Reg.RST_SPOL 2 = false → exec (.marginClear r) s = .next (x.accepted defMarginClear r t [])) ∧
    (u.rbit Reg.RST_SPOL 2 = true → u.tstrictRuns = false → exec (.marginClear r) s = .next (x.heldFor defMarginClear r t .freq)) ∧
    (u.rbit Reg.RST_SPOL 2 = true → u.tstrictRuns = true → exec (.marginClear r) s =
      .next ((x.remember defMarginClear r t []).answer t false stACCEPTED (pkLease r.bytes) []))) ∧
  (∀ s r t u, Executes defChanCfg s r t u → ∃ x : State, exec (.chanCfg r) s = .next (x.accepted defChanCfg r t []) ∧ u.Alters x [.regs] ∧
    (u.Inv → let p := pkParams r.bytes; let ch := rdLE p 0 1
      x.rf (Reg.MEM_CH_CTL ch) 2 1 = rdLE p 1 1 ∧ x.rf (Reg.MEM_SCRUB_CTL ch) 7 0 = rdLE p 2 1 ∧ x.rd (Reg.MEM_CE_THR ch) = rdLE p 3 4)) ∧
  (∀ s r t u, Executes defRepairGet s r t u → let l := u.hlth.soft.ents.length; let n := 8 * rdLE (pkParams r.bytes) 2 2
    exec (.repairGet r) s = .next (u.accepted defRepairGet r t (toLE 2 l ++
      (((((softBytes u.hlth.soft).drop 0x20).take (8 * l)).drop (8 * rdLE (pkParams r.bytes) 0 2)) ++ List.replicate n 0).take n))) ∧
  (∀ s r t u, Executes defTestPolicySet s r t u → let p := pkParams r.bytes
    let x : State := { u with hlth := { u.hlth with soft := { u.hlth.soft with minL := rdLE p 0 1, maxFch := rdLE p 1 1 } } }
    exec (.testPolicySet r) s = .next (x.saveSoft.accepted defTestPolicySet r t [])) ∧
  (∀ s r t u, Executes defRollCfg s r t u → ∃ x : State, exec (.rollCfg r) s = .next (x.accepted defRollCfg r t []) ∧ u.Alters x [.regs] ∧
    (u.Inv → let p := pkParams r.bytes
      x.rf Reg.TEST_CTL 1 0 = rdLE p 0 1 ∧ x.rf Reg.TEST_CTL 15 8 = rdLE p 5 1 ∧ x.rd Reg.TEST_ROLL_PERIOD = rdLE p 1 4 ∧ x.rd Reg.TEST_ROLL_WAIT = rdLE p 6 4)) ∧
  (∀ s r t u, Executes defTestGet s r t u → let g := u.readRegs ([Reg.TEST_ROLL_ST, Reg.TEST_SU, Reg.TEST_POLICY] ++ (List.range 18).map Reg.TEST_RESULT ++
      [Reg.TEST_ROLL_DONE, Reg.TEST_ROLL_FAIL, Reg.TEST_ROLL_ABORT, Reg.FUSE_FREE, Reg.FUSE_PROP_CNT])
    exec (.testGet r) s = .next (g.2.accepted defTestGet r t g.1)) ∧
  (∀ s r t u, Executes defReset s r t u → let p := pkParams r.bytes; let g := u.requestReset (rdLE p 0 1) (rdLE p 1 2) 1
    exec (.reset r) s = .next (g.2.goesOn defReset r t (.reset g.1 (rdLE p 0 1)) none)) ∧
  (∀ (s : State) (level scope : Nat), s.scopeOk level scope = true →
    (level = 1 → scope < 18) ∧ (level = 3 → 0x1000 ≤ scope ∧ scope < 0x1004) ∧ (level = 4 → scope = 0xFFFF) ∧ 1 ≤ level ∧ level ≤ 4) ∧
  (∀ s r t u, Executes defSuspectGet s r t u → exec (.suspectGet r) s =
    .next (u.accepted defSuspectGet r t (u.viewWords ((List.range 16).flatMap (fun i => wordsFrom (Reg.RST_SUSP0 i) 6))))) ∧
  (∀ s r t u, Executes defSuspectClear s r t u → (u.quarActive = true → exec (.suspectClear r) s = .next (u.refusedWith r t stBUSY)) ∧
    (u.quarActive = false → ∃ x : State, exec (.suspectClear r) s = .next (x.accepted defSuspectClear r t []) ∧ u.Alters x [.regs, .rst] ∧
      x.rst = { u.rst with susp := [] } ∧ (u.Inv → ∀ i k, i < 16 → k < 6 → x.rd (Reg.RST_SUSP0 i + 4 * k) = 0))) ∧
  (∀ s r t u, Executes defQuarStart s r t u → let i := rdLE (pkParams r.bytes) 0 1; let n := rdLE (pkParams r.bytes) 1 1
    ((u.devState ≠ stService ∨ u.runCtx ≠ 0 ∨ u.quarActive = true ∨ u.switching = true) → exec (.quarStart r) s = .next (u.refusedWith r t stBAD_STATE)) ∧
    (u.slotOf n = none → exec (.quarStart r) s = .next (u.refusedWith r t stBAD_STATE)) ∧
    (∀ j, u.slotOf n = some j → (u.readyAt n = false ∨ u.replays i j = false) → exec (.quarStart r) s = .next (u.refusedWith r t stBAD_STATE)) ∧
    (∀ j, u.devState = stService → u.runCtx = 0 → u.quarActive = false → u.switching = false → u.slotOf n = some j → u.readyAt n = true → u.replays i j = true →
      exec (.quarStart r) s = .next ((((u.wr Reg.RST_QUAR (1 + i * 16 + j.ctx.toNat * 65536)).wf Reg.RST_STAT 16 16 1).beginSwitch .command (some n)).heldFor
        defQuarStart r t .giveWay))) ∧
  (∀ s r t u, Executes defQuarEnd s r t u → (u.quarActive = false → exec (.quarEnd r) s = .next (u.refusedWith r t stBAD_STATE)) ∧
    (u.quarActive = true → exec (.quarEnd r) s = .next ((u.quarEnd 4 0).accepted defQuarEnd r t (toLE 1 4)))) ∧
  (∀ s r t u, Executes defHangCfg s r t u → ∃ x : State, exec (.hangCfg r) s = .next (x.accepted defHangCfg r t []) ∧ u.Alters x [.regs] ∧
    (u.Inv → let p := pkParams r.bytes
      x.rf Reg.RST_CTL 2 0 = rdLE p 0 1 ∧ x.rd Reg.RST_WD = rdLE p 1 1 + rdLE p 2 2 * 65536 ∧ x.rd Reg.RST_WDOG = rdLE p 4 4))

/-- Commands of groups 0x08xx, 0x09xx and 0x0Axx (R541, R542, R543). -/
def Obligations.RecordCommandsComplete : Prop :=
  (∀ f s r t u, Executes (defCkptSetup f) s r t u → let p := pkParams r.bytes
    (u.slotById (rdLE p 0 2) = none → exec (.ckptSetup r f) s = .next (u.refusedWith r t stOUT_OF_RANGE)) ∧
    (∀ n j, u.slotById (rdLE p 0 2) = some (n, j) → let g := u.devRead .command (rdLE p 2 8) 512 f
      (u.reelUses j.ctx.toNat = true → exec (.ckptSetup r f) s = .next (u.refusedWith r t stBUSY)) ∧
      (u.reelUses j.ctx.toNat = false → g.2.1 ≠ 0 → exec (.ckptSetup r f) s = .next (g.2.2.2.refusedWith r t stHW_FAULT)) ∧
      (u.reelUses j.ctx.toNat = false → g.2.1 = 0 → ckDescOk g.1 (j.seals.map (fun y => (y.lo, y.hi - y.lo))) = false →
        exec (.ckptSetup r f) s = .next (g.2.2.2.refusedWith r t stOUT_OF_RANGE)) ∧
      (u.reelUses j.ctx.toNat = false → g.2.1 = 0 → ckDescOk g.1 (j.seals.map (fun y => (y.lo, y.hi - y.lo))) = true →
        exec (.ckptSetup r f) s = .next ((g.2.2.2.setSlot n (some { j with ck := some (ckDescOf g.1) })).accepted (defCkptSetup f) r t [])))) ∧
  (∀ s r t u, Executes defCkptNow s r t u → let p := pkParams r.bytes
    (u.slotById (rdLE p 0 2) = none → exec (.ckptNow r) s = .next (u.refusedWith r t stOUT_OF_RANGE)) ∧
    (∀ n j, u.slotById (rdLE p 0 2) = some (n, j) →
      (j.ck = none → exec (.ckptNow r) s = .next (u.refusedWith r t stBAD_STATE)) ∧
      (j.ck ≠ none → u.reel.ckpt ≠ none → exec (.ckptNow r) s = .next (u.refusedWith r t stBUSY)) ∧
      (j.ck ≠ none → u.reel.ckpt = none → exec (.ckptNow r) s = .next ((u.setSlot n (some { j with due := true })).accepted defCkptNow r t [])))) ∧
  (∀ s r t u, Executes defRestore s r t u → let p := pkParams r.bytes
    (u.rbit Reg.CMD_STRAPS 14 = true → exec (.restore r) s = .next (u.refusedWith r t stBAD_STATE)) ∧
    (u.rbit Reg.CMD_STRAPS 14 = false → u.slotById (rdLE p 0 2) = none → exec (.restore r) s = .next (u.refusedWith r t stOUT_OF_RANGE)) ∧
    (∀ n j, u.rbit Reg.CMD_STRAPS 14 = false → u.slotById (rdLE p 0 2) = some (n, j) →
      ((j.started = true ∨ j.st ≠ .ready ∨ j.ck = none) → exec (.restore r) s = .next (u.refusedWith r t stBAD_STATE)) ∧
      (j.started = false → j.st = .ready → j.ck ≠ none → u.reel.restore ≠ none → exec (.restore r) s = .next (u.refusedWith r t stBUSY)) ∧
      (j.started = false → j.st = .ready → j.ck ≠ none → u.reel.restore = none → exec (.restore r) s =
        .next ((u.restoreStart j.ctx.toNat (rdLE p 2 2) (rdLE p 4 1) (rdLE p 5 8)).goesOn defRestore r t .restore none)))) ∧
  (∀ s r t u, Executes defReelCfg s r t u → let p := pkParams r.bytes
    let x := ((((u.wr Reg.REEL_MTBF (rdLE p 0 4)).wr Reg.REEL_IVL_MIN (rdLE p 4 4)).wr Reg.REEL_IVL_MAX (rdLE p 8 4)).wr Reg.REEL_DRAIN_TMO (rdLE p 12 4)).newInterval
    exec (.reelCfg r) s = .next (x.accepted defReelCfg r t (toLE 4 (x.rd Reg.REEL_IVL)))) ∧
  (∀ s r t u, Executes defReelGet s r t u → let g := u.readRegs (wordsFrom Reg.REEL_ST 24)
    exec (.reelGet r) s = .next (g.2.accepted defReelGet r t g.1)) ∧
  (∀ s r t u, Executes defQuote s r t u → ∃ b : List Byte,
    exec (.quote r) s = .next ((u.event 0x0A0D devUnit 0 [(16, 2, rdLE (pkParams r.bytes) 0 2)]).accepted defQuote r t (b ++ u.sign b)) ∧
    b.take 8 = [0x4B, 0x5A, 0x41, 0x51, 1, 0] ++ toLE 2 (boolN (u.rbit Reg.SEC_DBG 3) + 2 * boolN u.fuse.owner.isSome + 4 * u.devFlags) ∧
    sliceB b 16 48 = u.devId ∧ sliceB b 64 64 = sliceB (pkParams r.bytes) 0 64) ∧
  (∀ s r t u, Executes defMeasExtend s r t u → let p := pkParams r.bytes; let x := u.extend (rdLE p 0 1) (p.drop 1)
    exec (.measExtend r) s = .next (x.accepted defMeasExtend r t (x.digestAt (Reg.SEC_MEAS (rdLE p 0 1))))) ∧
  (∀ s r t u, Executes defSeal s r t u → let p := pkParams r.bytes
    (u.slotById (rdLE p 0 2) = none → exec (.sealRegion r) s = .next (u.refusedWith r t stOUT_OF_RANGE)) ∧
    (∀ n j, u.slotById (rdLE p 0 2) = some (n, j) → let ok := sealOk (j.seals.map (fun y => (y.lo, y.hi - y.lo))) (rdLE p 6 8) (rdLE p 14 8)
      ((255 ≤ j.seals.length ∨ ok = false) → exec (.sealRegion r) s = .next (u.refusedWith r t stOUT_OF_RANGE)) ∧
      (j.seals.length < 255 → ok = true → exec (.sealRegion r) s = .next ((u.sealRegion n (rdLE p 2 4) (rdLE p 6 8) (rdLE p 6 8 + rdLE p 14 8) j.step.toNat).goesOn
        defSeal r t (.sealing j.ctx.toNat (rdLE p 2 4)) none)))) ∧
  (∀ s r t u, Executes defRecordCut s r t u → let p := pkParams r.bytes
    (u.slotById (rdLE p 0 2) = none → exec (.recordCut r) s = .next (u.refusedWith r t stOUT_OF_RANGE)) ∧
    (∀ n j, u.slotById (rdLE p 0 2) = some (n, j) →
      (j.run = none → exec (.recordCut r) s = .next (u.refusedWith r t stBAD_STATE)) ∧
      (j.run ≠ none → exec (.recordCut r) s = .next ((u.setSlot n (some { j with cut := true })).accepted defRecordCut r t [])))) ∧
  (∀ s r t u, Executes defRecordRead s r t u → let p := pkParams r.bytes; let e := (u.recsOf (rdLE p 0 2)).bind (fun x => recordAt x (rdLE p 2 4))
    (e = none → exec (.recordRead r) s = .next (u.refusedWith r t stOUT_OF_RANGE)) ∧
    (∀ v, e = some v → v.bytes.length < rdLE p 6 4 + rdLE p 10 2 → exec (.recordRead r) s = .next (u.refusedWith r t stOUT_OF_RANGE)) ∧
    (∀ v, e = some v → rdLE p 6 4 + rdLE p 10 2 ≤ v.bytes.length → exec (.recordRead r) s = .next (u.accepted defRecordRead r t
      (toLE 4 v.bytes.length ++ (v.bytes.drop (rdLE p 6 4)).take (min (rdLE p 10 2) 4092))))) ∧
  (∀ s r t u, Executes defRecordRelease s r t u → let p := pkParams r.bytes; let e := (u.recsOf (rdLE p 0 2)).bind (fun x => recordAt x (rdLE p 2 4))
    (e = none → exec (.recordRelease r) s = .next (u.refusedWith r t stOUT_OF_RANGE)) ∧
    (e ≠ none → exec (.recordRelease r) s = .next ((u.dropRecs (rdLE p 0 2) (rdLE p 2 4)).accepted defRecordRelease r t []))) ∧
  (∀ s r t u, Executes defDetGet s r t u → let g := u.readRegs (wordsFrom Reg.DET_STEP_LO 10)
    exec (.detGet r) s = .next (g.2.accepted defDetGet r t g.1)) ∧
  (∀ s r t u, Executes defCalRead s r t u → let p := pkParams r.bytes; let b := (u.calBytes (rdLE p 0 1)).getD []
    (b.length < rdLE p 1 4 + rdLE p 5 2 → exec (.calRead r) s = .next (u.refusedWith r t stOUT_OF_RANGE)) ∧
    (rdLE p 1 4 + rdLE p 5 2 ≤ b.length → exec (.calRead r) s = .next (u.accepted defCalRead r t
      (toLE 4 b.length ++ (b.drop (rdLE p 1 4)).take (min (rdLE p 5 2) 4092))))) ∧
  (∀ s r t u, Executes defCalWrite s r t u → let p := pkParams r.bytes; let i := rdLE p 0 1
    (u.calBytes i = none → exec (.calWrite r) s = .next (u.refusedWith r t stOUT_OF_RANGE)) ∧
    (∀ b, u.calBytes i = some b →
      (b.length < rdLE p 1 4 + (p.drop 5).length → exec (.calWrite r) s = .next (u.refusedWith r t stOUT_OF_RANGE)) ∧
      (rdLE p 1 4 + (p.drop 5).length ≤ b.length → exec (.calWrite r) s =
        .next ((u.flashPut (flCal + calOff (calHead u) i + rdLE p 1 4) (p.drop 5)).goesOn defCalWrite r t (.cal i) none)))) ∧
  (∀ s : State, (s.calWriting = none → exec .calWriteDone s = .next s) ∧
    (∀ i, s.calWriting = some i → exec .calWriteDone s = .next ((s.calPut i 0 []).finish (.cal i) stOK [])))
/-- Commands of groups 0x0Bxx and 0x0Cxx (R544, R545). -/
def Obligations.RegisterCommandsComplete : Prop :=
  (∀ s r t u, Executes defLogRead s r t u → let p := pkParams r.bytes; let old := u.logN - u.log.length; let fst := max old (rdLE p 0 4)
    let l := (u.log.drop (fst - old)).take (rdLE p 4 1)
    let q := toLE 4 old ++ toLE 4 u.logN ++ l.flatMap (fun e => toLE 8 e.tick.toNat ++ toLE 2 e.code.toNat ++ toLE 2 e.unit.toNat ++ toLE 2 e.ctx.toNat ++
      toLE 2 (e.sev.toNat + if e.lost then 16 else 0) ++ sliceB e.data 0 16)
    (u.logN ≤ fst + l.length → exec (.logRead r) s = .next ((u.clearIrq 1).accepted defLogRead r t q)) ∧
    (fst + l.length < u.logN → exec (.logRead r) s = .next (u.accepted defLogRead r t q))) ∧
  (∀ s r t u, Executes defTelemGet s r t u → exec (.telemGet r) s = .next (u.accepted defTelemGet r t (u.viewWords ([Reg.PWR_IN, Reg.PWR_TJ, Reg.PWR_THROT] ++
    (List.range 24).map Reg.PWR_DOM_V ++ (List.range 24).map Reg.PWR_DOM_I ++ (List.range 46).map Reg.PWR_TEMP)))) ∧
  (∀ s r t u, Executes defRegReadBasic s r t u → let p := pkParams r.bytes; let as := wordsFrom (rdLE p 0 8) (rdLE p 8 1)
    let g := u.cuardReads (rdLE p 8 1) (rdLE p 0 8)
    ((∃ a ∈ as, notBasic a = true) → exec (.regReadBasic r) s = .next (u.refusedWith r t stOUT_OF_RANGE)) ∧
    ((∀ a ∈ as, notBasic a = false) →
      (g.1 = none → exec (.regReadBasic r) s = .next (g.2.refusedWith r t stOUT_OF_RANGE)) ∧
      (∀ b, g.1 = some b → exec (.regReadBasic r) s = .next (g.2.accepted defRegReadBasic r t b)))) ∧
  (∀ (s : State) (a : Nat),
    ((a < regBase ∨ regMapped (a - regBase) = false) → s.cuardRead a = (none, s.addrError a 3 0 0)) ∧
    (regBase ≤ a → regMapped (a - regBase) = true → inDebug (a - regBase) = true → s.rbit Reg.SEC_DBG 2 = false → s.cuardRead a = (some 0, s)) ∧
    (regBase ≤ a → regMapped (a - regBase) = true → inDebug (a - regBase) = false →
      s.cuardRead a = (some (s.cmdRead (a - regBase)).1, (s.cmdRead (a - regBase)).2))) ∧
  (∀ s r t u, Executes defCmdStatus s r t u → let e := (u.sess t.session).bind (fun x => x.done.find? (fun d => d.seq == rdLE (pkParams r.bytes) 0 4))
    (e = none → exec (.cmdStatus r) s = .next (u.refusedWith r t stOUT_OF_RANGE)) ∧
    (∀ d, e = some d → exec (.cmdStatus r) s = .next (u.accepted defCmdStatus r t (toLE 2 d.opcode ++ toLE 2 d.status ++ toLE 8 d.tick.toNat)))) ∧
  (∀ s r t u, Executes defRegRead s r t u → let p := pkParams r.bytes; let g := u.cuardReads (rdLE p 8 2) (rdLE p 0 8)
    (g.1 = none → exec (.regRead r) s = .next (g.2.refusedWith r t stOUT_OF_RANGE)) ∧
    (∀ b, g.1 = some b → exec (.regRead r) s = .next (g.2.accepted defRegRead r t b))) ∧
  (∀ s r t u, Executes defRegWrite s r t u → let p := pkParams r.bytes; let as := wordsFrom (rdLE p 0 8) (rdLE p 8 2)
    let w := u.cuardWrites { req := r, rep := t, p := p } (as.zipIdx.map (fun x => (x.1, rdLE p (10 + 4 * x.2) 4)))
    ((∃ a ∈ as, notWritable a = true) → exec (.regWrite r) s = .next (u.refusedWith r t stOUT_OF_RANGE)) ∧
    ((∀ a ∈ as, notWritable a = false) → (w.1 = stOK → exec (.regWrite r) s = .next (w.2.accepted defRegWrite r t [])) ∧
      (1 < w.1 → exec (.regWrite r) s = .next (w.2.refusedWith r t w.1)))) ∧
  (∀ (s : State) (c : Call) (a v : Nat),
    ((a < regBase ∨ regMapped (a - regBase) = false) → s.cuardWrite c a v = (stOUT_OF_RANGE, s.addrError a 3 1 0)) ∧
    (regBase ≤ a → regMapped (a - regBase) = true → inDebug (a - regBase) = false → s.domOn (regDomain (a - regBase)) = true → a - regBase ≠ Reg.SEC_DBG →
      s.cuardWrite c a v = (stOK, s.writeReg (a - regBase) v))) ∧
  (∀ s r t u, Executes defRegModify s r t u → let p := pkParams r.bytes; let a := rdLE p 0 8; let g := u.cuardRead a
    (notWritable a = true → exec (.regModify r) s = .next (u.refusedWith r t stOUT_OF_RANGE)) ∧
    (notWritable a = false → g.1 = none → exec (.regModify r) s = .next (g.2.refusedWith r t stOUT_OF_RANGE)) ∧
    (∀ v, notWritable a = false → g.1 = some v →
      let w := g.2.cuardWrite { req := r, rep := t, p := p } a ((v &&& (2 ^ 32 - 1 - rdLE p 8 4)) ||| (rdLE p 12 4 &&& rdLE p 8 4))
      (w.1 = stOK → exec (.regModify r) s = .next (w.2.accepted defRegModify r t (toLE 4 v))) ∧
      (1 < w.1 → exec (.regModify r) s = .next (w.2.refusedWith r t w.1))))

/-- The length of a packet (R513), in the place R519 gives its check. -/
def Obligations.PacketLengthIsChecked : Prop := ∀ (d : CmdDef) (s : State) (r : Req),
  reqIs d.code r = true → s.cuardUp = true → s.cq.queue.head? = some r → s.blocked = false → (s.now - r.arrival).toNat ≤ s.rd Reg.CMD_QTMO →
  rdLE r.bytes 1 1 < 16 → rdLE r.bytes 22 1 < 16 → rdLE r.bytes 23 9 = 0 → rdLE r.bytes 20 2 = 0 →
    let len := rdLE r.bytes 12 4
    let nsig := rdLE r.bytes 22 1
    let auth := bitOf (rdLE r.bytes 1 1) 2
    let qrm := bitOf (rdLE r.bytes 1 1) 3
    let bad := r.bytes.length ≠ 32 + len + 48 * (if auth then 1 else 0) + 98 * nsig ∨ (nsig ≠ 0 ∧ qrm = false) ∨ (nsig = 0 ∧ qrm = true) ∨ 8 < nsig ∨ 4096 < len
    (bad → s.cuard d r = .next (({ s with cq := { s.cq with queue := s.cq.queue.tail } } : State).refusedWith r (repTo r) stBAD_LENGTH)) ∧
    (¬ bad → headStatus r.bytes ≠ stBAD_LENGTH ∧ r.bytes.length ≤ 4960)
/-- Class Q (R522). -/
def Obligations.QuorumCommandsMeetNoLease : Prop :=
  ∀ d ∈ [defLeaseTakeover, defKeytabSet, defFuseBurn false, defFuseBurn true, defShadowPromote, defWithdraw, defReturnService], d.acc = .q ∧
    ∀ (s : State) (r : Req), reqIs d.code r = true → s.cuardUp = true → s.cq.queue.head? = some r → s.blocked = false →
      (s.now - r.arrival).toNat ≤ s.rd Reg.CMD_QTMO → headStatus r.bytes = 0 → let x : State := { s with cq := { s.cq with queue := s.cq.queue.tail } }
      (∀ t u, x.gate d r = (0, t, u) → d.check u (pkParams r.bytes) = 0 →
        s.cuard d r = .next (State.conclude d r t (d.run u { req := r, rep := t, p := pkParams r.bytes })) ∧
        (∀ (y : State) p, y.remember d r t p = y)) ∧
      (pkFlag r.bytes 2 = false → s.permits d.code = false → ∃ t, s.cuard d r = .next (x.refusedWith r t stBAD_STATE)) ∧
      (∀ u, pkFlag r.bytes 2 = true → x.authCheck r = (none, u) → u.permits d.code = false → ∃ t, s.cuard d r = .next (u.refusedWith r t stBAD_STATE))
/-- The withdrawal record (R584). -/
def Obligations.WithdrawalRecordIsKept : Prop :=
  (∀ s : State, s.Inv → s.booting 5 = true → ∃ t, exec .startupCal s = .next t ∧
    (t.rbit Reg.CMD_DEV_STATE 19 = false ↔ ∀ k, k < 4096 → s.flashAt (flWithdrawal + k) = 0xFF)) ∧
  (∀ (s : State) (cause : Nat), s.Inv → (s.withdraw cause).flashBytes flWithdrawal 4096 =
    toLE 4 0x44575A4B ++ toLE 8 s.now.toNat ++ toLE 2 cause ++ List.replicate 4082 0xFF) ∧
  (∀ s r t u, Executes defWithdraw s r t u → u.Inv → u.devState ≠ stWithdrawn → ∃ x, exec (.withdraw r) s = .next x ∧
    (u.backNow = none → x.flashBytes flWithdrawal 4096 = toLE 4 0x44575A4B ++ toLE 8 u.now.toNat ++ toLE 2 0x0710 ++ List.replicate 4082 0xFF) ∧
    (u.backNow ≠ none → x.flashBytes flWithdrawal 4096 = List.replicate 4096 0xFF)) ∧
  (∀ s r t u, Executes defReturnService s r t u → u.Inv → ∃ x, exec (.returnService r) s = .next x ∧
    (u.devState = stWithdrawn → x.flashBytes flWithdrawal 4096 = List.replicate 4096 0xFF) ∧
    (u.devState ≠ stWithdrawn → x.flash = u.flash))
/-- The interleave of management DRAM (R227). -/
def Obligations.ManagementInterleave : Prop :=
  ∀ (s : State) (m : Nat), mgmtLo + m < mgmtHi → s.loc (mgmtLo + m) = .dram (128 + (m >>> 12) % 4) (((m >>> 12) >>> 2) * 4096 + m % 4096)
end

