-- ==== Sys2Proof/Laws/Tab.lean ====
section
/-! SUPPORT. The laws of sparse tables: a read after a write, and that every table and memory operation keeps the
canonical form. -/

namespace Sys2Proof.Machine

section
variable {α : Type}

theorem tget_nil (d : α) (k : Nat) : tget d [] k = d := rfl

theorem tabove_mono {b c : Nat} (h : c ≤ b) : ∀ {t : List (Nat × α)}, tabove b t = true → tabove c t = true := by
  intro t ht
  simp only [tabove, List.all_eq_true, decide_eq_true_eq] at ht ⊢
  exact fun p hp => Nat.lt_of_le_of_lt h (ht p hp)

theorem tget_above (d : α) {b k : Nat} : ∀ {t : List (Nat × α)}, tabove b t = true → k ≤ b → tget d t k = d
  | [], _, _ => rfl
  | (k', v) :: r, h, hk => by
    simp only [tabove, List.all_cons, Bool.and_eq_true, decide_eq_true_eq] at h
    have : k ≠ k' := by omega
    simp only [tget, this, if_false]
    exact tget_above d (by simpa only [tabove] using h.2) hk

variable [DecidableEq α]

theorem twf_tail {d : α} {p : Nat × α} {r : List (Nat × α)} (h : twf d (p :: r) = true) : twf d r = true := by
  obtain ⟨k, v⟩ := p
  simp only [twf, Bool.and_eq_true] at h
  exact h.2

theorem tabove_tset {d : α} {b k : Nat} {v : α} (hk : b < k) :
    ∀ {t : List (Nat × α)}, tabove b t = true → tabove b (tset d t k v) = true
  | [], _ => by unfold tset; split <;> simp [tabove, hk]
  | (k', w) :: r, h => by
    have h' := h
    simp only [tabove, List.all_cons, Bool.and_eq_true, decide_eq_true_eq] at h
    unfold tset
    split
    · split
      · exact h'
      · simp [tabove, hk, h.1]; simpa [tabove] using h.2
    · split
      · split
        · simpa [tabove] using h.2
        · simp [tabove, hk]; simpa [tabove] using h.2
      · simp only [tabove, List.all_cons, h.1, decide_true, Bool.true_and]
        exact tabove_tset hk (by simpa only [tabove] using h.2)

/-- A write keeps the canonical form. -/
theorem twf_tset {d : α} {k : Nat} {v : α} : ∀ {t : List (Nat × α)}, twf d t = true → twf d (tset d t k v) = true
  | [], _ => by unfold tset; split <;> simp [twf, tabove, *]
  | (k', w) :: r, h => by
    have h' := h
    simp only [twf, Bool.and_eq_true, decide_eq_true_eq] at h
    unfold tset
    split
    · split
      · exact h'
      · rename_i hv
        simp only [twf, Bool.and_eq_true, decide_eq_true_eq]
        refine ⟨⟨?_, hv⟩, ⟨h.1.1, h.1.2⟩, h.2⟩
        simp only [tabove, List.all_cons, Bool.and_eq_true, decide_eq_true_eq]
        exact ⟨by assumption, by simpa only [tabove] using tabove_mono (by omega) h.1.1⟩
    · split
      · split
        · exact h.2
        · rename_i hk hv
          subst hk
          simp only [twf, Bool.and_eq_true, decide_eq_true_eq]
          exact ⟨⟨h.1.1, hv⟩, h.2⟩
      · simp only [twf, Bool.and_eq_true, decide_eq_true_eq]
        exact ⟨⟨tabove_tset (by omega) h.1.1, h.1.2⟩, twf_tset h.2⟩

/-- Reading the key written gives the value written; every other key reads as before. -/
theorem tget_tset {d : α} {k j : Nat} {v : α} :
    ∀ {t : List (Nat × α)}, twf d t = true → tget d (tset d t k v) j = if j = k then v else tget d t j
  | [], _ => by
    unfold tset
    split
    · subst_vars; simp [tget]
    · simp [tget]
  | (k', w) :: r, h => by
    simp only [twf, Bool.and_eq_true, decide_eq_true_eq] at h
    unfold tset
    split
    · split
      · subst_vars
        by_cases hj : j = k
        · subst hj
          have : j ≠ k' := by omega
          simp only [tget, this, if_false, if_true]
          exact tget_above _ h.1.1 (by omega)
        · simp [hj]
      · by_cases hj : j = k <;> simp [tget, hj]
    · split
      · rename_i hk
        subst hk
        split
        · by_cases hj : j = k
          · subst hj; simp only [if_true]; subst_vars; exact tget_above _ h.1.1 (Nat.le_refl _)
          · simp [tget, hj]
        · by_cases hj : j = k <;> simp [tget, hj]
      · rename_i h1 h2
        simp only [tget, tget_tset h.2]
        by_cases hj : j = k
        · subst hj; simp [h2]
        · simp [hj]

/-- What a table lists after a write. -/
theorem mem_tset {d : α} {k : Nat} {v : α} {p : Nat × α} : ∀ {t : List (Nat × α)}, p ∈ tset d t k v → p = (k, v) ∨ p ∈ t
  | [], h => by
    unfold tset at h
    split at h
    · cases h
    · exact .inl (List.mem_singleton.mp h)
  | (k', w) :: r, h => by
    unfold tset at h
    split at h
    · split at h
      · exact .inr h
      · exact (List.mem_cons.mp h)
    · split at h
      · split at h
        · exact .inr (List.mem_cons_of_mem _ h)
        · exact (List.mem_cons.mp h).imp_right (List.mem_cons_of_mem _)
      · rcases List.mem_cons.mp h with h | h
        · exact .inr (h ▸ List.mem_cons_self)
        · exact (mem_tset h).imp_right (List.mem_cons_of_mem _)

omit [DecidableEq α] in
/-- A key reads as one of the entries listed, or as an unlisted key does. -/
theorem tget_mem (d : α) (k : Nat) : ∀ {t : List (Nat × α)}, (∃ p ∈ t, tget d t k = p.2) ∨ tget d t k = d
  | [] => .inr rfl
  | (k', v) :: r => by
    unfold tget
    split
    · exact .inl ⟨(k', v), List.mem_cons_self, rfl⟩
    · exact (tget_mem d k (t := r)).imp_left (fun ⟨p, hp, e⟩ => ⟨p, List.mem_cons_of_mem _ hp, e⟩)

omit [DecidableEq α] in
theorem tabove_filter {b : Nat} {p : Nat × α → Bool} {t : List (Nat × α)} (h : tabove b t = true) :
    tabove b (t.filter p) = true := by
  simp only [tabove, List.all_eq_true, decide_eq_true_eq] at h ⊢
  exact fun x hx => h x (List.mem_of_mem_filter hx)

/-- Entries left out keep the canonical form. -/
theorem twf_filter {d : α} {p : Nat × α → Bool} : ∀ {t : List (Nat × α)}, twf d t = true → twf d (t.filter p) = true
  | [], _ => rfl
  | (k, v) :: r, h => by
    simp only [twf, Bool.and_eq_true, decide_eq_true_eq] at h
    simp only [List.filter]
    split
    · simp only [twf, Bool.and_eq_true, decide_eq_true_eq]
      exact ⟨⟨tabove_filter h.1.1, h.1.2⟩, twf_filter h.2⟩
    · exact twf_filter h.2

omit [DecidableEq α] in
theorem tget_filter {d : α} {p : Nat × α → Bool} {k : Nat} (hp : ∀ v, p (k, v) = true) :
    ∀ {t : List (Nat × α)}, tget d (t.filter p) k = tget d t k
  | [] => rfl
  | (k', v) :: r => by
    simp only [List.filter]
    by_cases hk : k = k'
    · subst hk; simp [hp, tget]
    · split <;> simp [tget, hk, tget_filter hp]

end

/-- Bytes written at rising keys keep memory canonical. -/
theorem twf_memPut : ∀ {l : List Byte} {m : List Host.Cell} {k : Nat}, twf 0 m = true → twf 0 (memPut m k l) = true
  | [], _, _, h => h
  | v :: r, m, k, h => by
    rw [memPut]
    exact twf_memPut (twf_tset h)

/-- What memory reads as after bytes are written at rising keys. -/
theorem tget_memPut : ∀ {l : List Byte} {m : List Host.Cell} {k a : Nat}, twf 0 m = true →
    tget 0 (memPut m k l) a = if k ≤ a ∧ a < k + l.length then (l[a - k]?).getD 0 else tget 0 m a
  | [], m, k, a, _ => by
    have : ¬(k ≤ a ∧ a < k + ([] : List Byte).length) := by simp
    rw [if_neg this, memPut]
  | v :: r, m, k, a, h => by
    rw [memPut, tget_memPut (twf_tset h), tget_tset h]
    by_cases h1 : a = k
    · subst h1; simp
    · by_cases h2 : k + 1 ≤ a ∧ a < k + 1 + r.length
      · have h3 : k ≤ a ∧ a < k + (r.length + 1) := by omega
        obtain ⟨n, hn⟩ : ∃ n, a - k = n + 1 := ⟨a - k - 1, by omega⟩
        have : a - (k + 1) = n := by omega
        simp [h2, h3, hn, this]
      · have h3 : ¬(k ≤ a ∧ a < k + (r.length + 1)) := by omega
        rw [if_neg h2, if_neg h1, if_neg (by simpa only [List.length_cons] using h3)]

theorem Memory.wf_nil : Memory.wf [] = true := rfl

theorem Memory.wf_memPut {m : List Host.Cell} {k : Nat} {l : List Byte} (h : Memory.wf m = true) :
    Memory.wf (memPut m k l) = true := twf_memPut h

theorem Memory.wf_tset {m : List Host.Cell} {k : Nat} {v : Byte} (h : Memory.wf m = true) :
    Memory.wf (tset 0 m k v) = true := twf_tset h

theorem Memory.wf_filter {m : List Host.Cell} {p : Host.Cell → Bool} (h : Memory.wf m = true) :
    Memory.wf (m.filter p) = true := twf_filter h

end Sys2Proof.Machine
end

