-- ==== Sys2Proof/Laws/Keep.lean ====
section
/-! SUPPORT. What an operation leaves alone.  `Keep m s t` says that the state `t` has the fields of `s` whose numbers
are bits of `m`, and that every bound and canonical form of `s` holds of `t`.  The files Laws/Keep….lean give one such
lemma for every operation and every command, and every frame and invariant of the model follows from them. -/

namespace Sys2Proof.Machine

/-- Field `n` of the state, in the order State declares its fields, is the same in both states. -/
def SameField (n : Nat) (s t : State) : Prop :=
  match n with
  | 0 => t.pending = s.pending
  | 1 => t.now = s.now
  | 2 => t.regs = s.regs
  | 3 => t.latch = s.latch
  | 4 => t.freeN = s.freeN
  | 5 => t.drbgN = s.drbgN
  | 6 => t.out = s.out
  | 7 => t.off = s.off
  | 8 => t.log = s.log
  | 9 => t.nodes = s.nodes
  | 10 => t.mem = s.mem
  | 11 => t.poison = s.poison
  | 12 => t.spns = s.spns
  | 13 => t.seqr = s.seqr
  | 14 => t.chans = s.chans
  | 15 => t.prot = s.prot
  | 16 => t.domsOff = s.domsOff
  | 17 => t.irq = s.irq
  | 18 => t.fab = s.fab
  | 19 => t.coll = s.coll
  | 20 => t.clk = s.clk
  | 21 => t.pwr = s.pwr
  | 22 => t.hlth = s.hlth
  | 23 => t.rst = s.rst
  | 24 => t.fuse = s.fuse
  | 25 => t.reel = s.reel
  | 26 => t.flash = s.flash
  | 27 => t.wall = s.wall
  | 28 => t.logN = s.logN
  | 29 => t.cq = s.cq
  | 30 => t.mgmt = s.mgmt
  | 31 => t.boot = s.boot
  | 32 => t.ring = s.ring
  | 33 => t.modl = s.modl
  | _ => True

/-- The fields named by `m` are kept, and so is every bound and canonical form. -/
structure Keep (m : Nat) (s t : State) : Prop where
  inv : s.Inv → t.Inv
  same : ∀ n, m.testBit n = true → SameField n s t

/-- The same of every next state of an outcome. -/
structure KeepR (m : Nat) (s : State) (r : Res) : Prop where
  keep : ∀ t, r = .next t → Keep m s t

theorem SameField.refl (n : Nat) (s : State) : SameField n s s := by
  unfold SameField; split <;> trivial

theorem SameField.trans {n : Nat} {s t u : State} (h : SameField n s t) (k : SameField n t u) : SameField n s u := by
  unfold SameField at *
  split <;> first | trivial | exact k.trans h

theorem Keep.refl (m : Nat) (s : State) : Keep m s s := ⟨id, fun n _ => SameField.refl n s⟩

theorem Keep.trans {m : Nat} {s t u : State} (h : Keep m s t) (k : Keep m t u) : Keep m s u :=
  ⟨fun i => k.inv (h.inv i), fun n hn => (h.same n hn).trans (k.same n hn)⟩

/-- Every bit of `m` is a bit of `k`. -/
def sub (m k : Nat) : Bool := (m &&& k) == m

theorem sub_testBit {m k n : Nat} (h : sub m k = true) (hn : m.testBit n = true) : k.testBit n = true := by
  simp only [sub, beq_iff_eq] at h
  rw [← h, Nat.testBit_and, Bool.and_eq_true] at hn
  exact hn.2

theorem sub_trans {m k j : Nat} (h : sub m k = true) (g : sub k j = true) : sub m j = true := by
  simp only [sub, beq_iff_eq] at *
  rw [← h, Nat.and_assoc, g]

theorem sub_bit {m k n : Nat} (h : sub m k = true) (hk : k.testBit n = false) : m.testBit n = false := by
  cases hn : m.testBit n with
  | false => rfl
  | true => rw [sub_testBit h hn] at hk; cases hk

theorem Keep.mono {m k : Nat} {s t : State} (h : Keep k s t) (hm : sub m k = true) : Keep m s t :=
  ⟨h.inv, fun n hn => h.same n (sub_testBit hm hn)⟩

/-- One operation more. -/
theorem Keep.via {m k : Nat} {s t u : State} (h : Keep k t u) (hm : sub m k = true) (g : Keep m s t) : Keep m s u :=
  g.trans (h.mono hm)

/-- The same of a state there may be. -/
structure KeepO (m : Nat) (s : State) (o : Option State) : Prop where
  keep : ∀ t, o = some t → Keep m s t

theorem KeepO.some {m : Nat} {s t : State} (h : Keep m s t) : KeepO m s (.some t) :=
  ⟨fun _ hu => by cases hu; exact h⟩

theorem KeepO.none {m : Nat} {s : State} : KeepO m s .none :=
  ⟨fun _ hu => by cases hu⟩

theorem KeepO.ite {m : Nat} {s : State} {t u : Option State} {c : Prop} [Decidable c] (h : KeepO m s t) (k : KeepO m s u) :
    KeepO m s (if c then t else u) := by
  split <;> assumption

theorem KeepR.next {m : Nat} {s t : State} (h : Keep m s t) : KeepR m s (.next t) :=
  ⟨fun _ hu => by cases hu; exact h⟩

theorem KeepR.refused {m : Nat} {s : State} {r : Refusal} : KeepR m s (.refused r) :=
  ⟨fun _ hu => by cases hu⟩

theorem KeepR.fault {m : Nat} {s : State} {r : Fault} : KeepR m s (.fault r) :=
  ⟨fun _ hu => by cases hu⟩

theorem KeepR.via {m k : Nat} {s t : State} {r : Res} (h : KeepR k t r) (hm : sub m k = true) (g : Keep m s t) :
    KeepR m s r := ⟨fun u hu => g.trans ((h.keep u hu).mono hm)⟩

theorem KeepR.mono {m k : Nat} {s : State} {r : Res} (h : KeepR k s r) (hm : sub m k = true) : KeepR m s r :=
  ⟨fun u hu => (h.keep u hu).mono hm⟩

theorem Keep.ite {m : Nat} {s t u : State} {c : Prop} [Decidable c] (h : Keep m s t) (k : Keep m s u) :
    Keep m s (if c then t else u) := by
  split <;> assumption

theorem Keep.ite_snd {m : Nat} {s : State} {β : Type} {t u : β × State} {c : Prop} [Decidable c] (h : Keep m s t.2)
    (k : Keep m s u.2) : Keep m s (if c then t else u).2 := by
  split <;> assumption

theorem Keep.ite_snd2 {m : Nat} {s : State} {β γ : Type} {t u : β × γ × State} {c : Prop} [Decidable c] (h : Keep m s t.2.2)
    (k : Keep m s u.2.2) : Keep m s (if c then t else u).2.2 := by
  split <;> assumption

theorem Keep.ite_snd3 {m : Nat} {s : State} {β γ δ : Type} {t u : β × γ × δ × State} {c : Prop} [Decidable c] (h : Keep m s t.2.2.2)
    (k : Keep m s u.2.2.2) : Keep m s (if c then t else u).2.2.2 := by
  split <;> assumption

theorem Keep.ite_fst {m : Nat} {s : State} {β : Type} {t u : State × β} {c : Prop} [Decidable c] (h : Keep m s t.1)
    (k : Keep m s u.1) : Keep m s (if c then t else u).1 := by
  split <;> assumption

theorem Keep.ite_out {m : Nat} {s : State} {t u : Out} {c : Prop} [Decidable c] (h : Keep m s t.s)
    (k : Keep m s u.s) : Keep m s (if c then t else u).s := by
  split <;> assumption

theorem KeepR.ite {m : Nat} {s : State} {t u : Res} {c : Prop} [Decidable c] (h : KeepR m s t) (k : KeepR m s u) :
    KeepR m s (if c then t else u) := by
  split <;> assumption

/-- A fold over operations that keep. -/
theorem Keep.foldl {m : Nat} {s u : State} {α : Type} {f : State → α → State} {l : List α}
    (hf : ∀ u x, Keep m u (f u x)) (h : Keep m s u) : Keep m s (l.foldl f u) := by
  induction l generalizing u with
  | nil => exact h
  | cons x r ih => exact ih (h.trans (hf u x))

theorem Keep.foldl_snd {m : Nat} {s : State} {α β : Type} {f : β × State → α → β × State} {l : List α}
    {u : β × State} (hf : ∀ u x, Keep m u.2 (f u x).2) (h : Keep m s u.2) : Keep m s (l.foldl f u).2 := by
  induction l generalizing u with
  | nil => exact h
  | cons x r ih => exact ih (h.trans (hf u x))

theorem Keep.foldl_fst {m : Nat} {s : State} {α β : Type} {f : State × β → α → State × β} {l : List α}
    {u : State × β} (hf : ∀ u x, Keep m u.1 (f u x).1) (h : Keep m s u.1) : Keep m s (l.foldl f u).1 := by
  induction l generalizing u with
  | nil => exact h
  | cons x r ih => exact ih (h.trans (hf u x))

theorem Keep.foldl_of {m : Nat} {s : State} {α β : Type} (π : β → State) {f : β → α → β} {l : List α} {u : β}
    (hf : ∀ u x, Keep m (π u) (π (f u x))) (h : Keep m s (π u)) : Keep m s (π (l.foldl f u)) := by
  induction l generalizing u with
  | nil => exact h
  | cons x r ih => exact ih (h.trans (hf u x))

/-- An update that changes only what `m` does not name. -/
theorem Keep.upd {m : Nat} {s u v : State} (h : Keep m s u) (hi : u.Inv → v.Inv)
    (hs : ∀ n, m.testBit n = true → SameField n u v) : Keep m s v :=
  h.trans ⟨hi, hs⟩

theorem Keep.setPending {m : Nat} {s u : State} {v} (hm : m.testBit 0 = false)
    (h : Keep m s u) : Keep m s { u with pending := v } := by
  refine h.upd (fun i => ⟨i.mem, i.poison, i.regs, i.flash, i.log, i.nodes, i.spns, i.chans, i.latch, i.cq⟩) (fun n hn => ?_)
  unfold SameField; split <;> first | rfl | trivial | (rw [hm] at hn; cases hn)

theorem Keep.setNow {m : Nat} {s u : State} {v} (hm : m.testBit 1 = false)
    (h : Keep m s u) : Keep m s { u with now := v } := by
  refine h.upd (fun i => ⟨i.mem, i.poison, i.regs, i.flash, i.log, i.nodes, i.spns, i.chans, i.latch, i.cq⟩) (fun n hn => ?_)
  unfold SameField; split <;> first | rfl | trivial | (rw [hm] at hn; cases hn)

theorem Keep.setRegs {m : Nat} {s u : State} {v} (hm : m.testBit 2 = false) (hv : twf 0 u.regs = true → twf 0 v = true)
    (h : Keep m s u) : Keep m s { u with regs := v } := by
  refine h.upd (fun i => ⟨i.mem, i.poison, hv i.regs, i.flash, i.log, i.nodes, i.spns, i.chans, i.latch, i.cq⟩) (fun n hn => ?_)
  unfold SameField; split <;> first | rfl | trivial | (rw [hm] at hn; cases hn)

theorem Keep.setLatch {m : Nat} {s u : State} {v} (hm : m.testBit 3 = false) (hv : twf none u.latch = true → twf none v = true)
    (h : Keep m s u) : Keep m s { u with latch := v } := by
  refine h.upd (fun i => ⟨i.mem, i.poison, i.regs, i.flash, i.log, i.nodes, i.spns, i.chans, hv i.latch, i.cq⟩) (fun n hn => ?_)
  unfold SameField; split <;> first | rfl | trivial | (rw [hm] at hn; cases hn)

theorem Keep.setFreeN {m : Nat} {s u : State} {v} (hm : m.testBit 4 = false)
    (h : Keep m s u) : Keep m s { u with freeN := v } := by
  refine h.upd (fun i => ⟨i.mem, i.poison, i.regs, i.flash, i.log, i.nodes, i.spns, i.chans, i.latch, i.cq⟩) (fun n hn => ?_)
  unfold SameField; split <;> first | rfl | trivial | (rw [hm] at hn; cases hn)

theorem Keep.setDrbgN {m : Nat} {s u : State} {v} (hm : m.testBit 5 = false)
    (h : Keep m s u) : Keep m s { u with drbgN := v } := by
  refine h.upd (fun i => ⟨i.mem, i.poison, i.regs, i.flash, i.log, i.nodes, i.spns, i.chans, i.latch, i.cq⟩) (fun n hn => ?_)
  unfold SameField; split <;> first | rfl | trivial | (rw [hm] at hn; cases hn)

theorem Keep.setOut {m : Nat} {s u : State} {v} (hm : m.testBit 6 = false)
    (h : Keep m s u) : Keep m s { u with out := v } := by
  refine h.upd (fun i => ⟨i.mem, i.poison, i.regs, i.flash, i.log, i.nodes, i.spns, i.chans, i.latch, i.cq⟩) (fun n hn => ?_)
  unfold SameField; split <;> first | rfl | trivial | (rw [hm] at hn; cases hn)

theorem Keep.setOff {m : Nat} {s u : State} {v} (hm : m.testBit 7 = false)
    (h : Keep m s u) : Keep m s { u with off := v } := by
  refine h.upd (fun i => ⟨i.mem, i.poison, i.regs, i.flash, i.log, i.nodes, i.spns, i.chans, i.latch, i.cq⟩) (fun n hn => ?_)
  unfold SameField; split <;> first | rfl | trivial | (rw [hm] at hn; cases hn)

theorem Keep.setLog {m : Nat} {s u : State} {v} (hm : m.testBit 8 = false) (hv : (u.log).length ≤ 4096 → (v).length ≤ 4096)
    (h : Keep m s u) : Keep m s { u with log := v } := by
  refine h.upd (fun i => ⟨i.mem, i.poison, i.regs, i.flash, hv i.log, i.nodes, i.spns, i.chans, i.latch, i.cq⟩) (fun n hn => ?_)
  unfold SameField; split <;> first | rfl | trivial | (rw [hm] at hn; cases hn)

theorem Keep.setNodes {m : Nat} {s u : State} {v} (hm : m.testBit 9 = false) (hv : (twf {} u.nodes = true ∧ ∀ p ∈ u.nodes, p.2.recs.length ≤ 8) → (twf {} v = true ∧ ∀ p ∈ v, p.2.recs.length ≤ 8))
    (h : Keep m s u) : Keep m s { u with nodes := v } := by
  refine h.upd (fun i => ⟨i.mem, i.poison, i.regs, i.flash, i.log, hv i.nodes, i.spns, i.chans, i.latch, i.cq⟩) (fun n hn => ?_)
  unfold SameField; split <;> first | rfl | trivial | (rw [hm] at hn; cases hn)

theorem Keep.setMem {m : Nat} {s u : State} {v} (hm : m.testBit 10 = false) (hv : Memory.wf u.mem = true → Memory.wf v = true)
    (h : Keep m s u) : Keep m s { u with mem := v } := by
  refine h.upd (fun i => ⟨hv i.mem, i.poison, i.regs, i.flash, i.log, i.nodes, i.spns, i.chans, i.latch, i.cq⟩) (fun n hn => ?_)
  unfold SameField; split <;> first | rfl | trivial | (rw [hm] at hn; cases hn)

theorem Keep.setPoison {m : Nat} {s u : State} {v} (hm : m.testBit 11 = false) (hv : twf false u.poison = true → twf false v = true)
    (h : Keep m s u) : Keep m s { u with poison := v } := by
  refine h.upd (fun i => ⟨i.mem, hv i.poison, i.regs, i.flash, i.log, i.nodes, i.spns, i.chans, i.latch, i.cq⟩) (fun n hn => ?_)
  unfold SameField; split <;> first | rfl | trivial | (rw [hm] at hn; cases hn)

theorem Keep.setSpns {m : Nat} {s u : State} {v} (hm : m.testBit 12 = false) (hv : twf {} u.spns = true → twf {} v = true)
    (h : Keep m s u) : Keep m s { u with spns := v } := by
  refine h.upd (fun i => ⟨i.mem, i.poison, i.regs, i.flash, i.log, i.nodes, hv i.spns, i.chans, i.latch, i.cq⟩) (fun n hn => ?_)
  unfold SameField; split <;> first | rfl | trivial | (rw [hm] at hn; cases hn)

theorem Keep.setSeqr {m : Nat} {s u : State} {v} (hm : m.testBit 13 = false)
    (h : Keep m s u) : Keep m s { u with seqr := v } := by
  refine h.upd (fun i => ⟨i.mem, i.poison, i.regs, i.flash, i.log, i.nodes, i.spns, i.chans, i.latch, i.cq⟩) (fun n hn => ?_)
  unfold SameField; split <;> first | rfl | trivial | (rw [hm] at hn; cases hn)

theorem Keep.setChans {m : Nat} {s u : State} {v} (hm : m.testBit 14 = false) (hv : twf {} u.chans = true → twf {} v = true)
    (h : Keep m s u) : Keep m s { u with chans := v } := by
  refine h.upd (fun i => ⟨i.mem, i.poison, i.regs, i.flash, i.log, i.nodes, i.spns, hv i.chans, i.latch, i.cq⟩) (fun n hn => ?_)
  unfold SameField; split <;> first | rfl | trivial | (rw [hm] at hn; cases hn)

theorem Keep.setProt {m : Nat} {s u : State} {v} (hm : m.testBit 15 = false)
    (h : Keep m s u) : Keep m s { u with prot := v } := by
  refine h.upd (fun i => ⟨i.mem, i.poison, i.regs, i.flash, i.log, i.nodes, i.spns, i.chans, i.latch, i.cq⟩) (fun n hn => ?_)
  unfold SameField; split <;> first | rfl | trivial | (rw [hm] at hn; cases hn)

theorem Keep.setDomsOff {m : Nat} {s u : State} {v} (hm : m.testBit 16 = false)
    (h : Keep m s u) : Keep m s { u with domsOff := v } := by
  refine h.upd (fun i => ⟨i.mem, i.poison, i.regs, i.flash, i.log, i.nodes, i.spns, i.chans, i.latch, i.cq⟩) (fun n hn => ?_)
  unfold SameField; split <;> first | rfl | trivial | (rw [hm] at hn; cases hn)

theorem Keep.setIrq {m : Nat} {s u : State} {v} (hm : m.testBit 17 = false)
    (h : Keep m s u) : Keep m s { u with irq := v } := by
  refine h.upd (fun i => ⟨i.mem, i.poison, i.regs, i.flash, i.log, i.nodes, i.spns, i.chans, i.latch, i.cq⟩) (fun n hn => ?_)
  unfold SameField; split <;> first | rfl | trivial | (rw [hm] at hn; cases hn)

theorem Keep.setFab {m : Nat} {s u : State} {v} (hm : m.testBit 18 = false)
    (h : Keep m s u) : Keep m s { u with fab := v } := by
  refine h.upd (fun i => ⟨i.mem, i.poison, i.regs, i.flash, i.log, i.nodes, i.spns, i.chans, i.latch, i.cq⟩) (fun n hn => ?_)
  unfold SameField; split <;> first | rfl | trivial | (rw [hm] at hn; cases hn)

theorem Keep.setColl {m : Nat} {s u : State} {v} (hm : m.testBit 19 = false)
    (h : Keep m s u) : Keep m s { u with coll := v } := by
  refine h.upd (fun i => ⟨i.mem, i.poison, i.regs, i.flash, i.log, i.nodes, i.spns, i.chans, i.latch, i.cq⟩) (fun n hn => ?_)
  unfold SameField; split <;> first | rfl | trivial | (rw [hm] at hn; cases hn)

theorem Keep.setClk {m : Nat} {s u : State} {v} (hm : m.testBit 20 = false)
    (h : Keep m s u) : Keep m s { u with clk := v } := by
  refine h.upd (fun i => ⟨i.mem, i.poison, i.regs, i.flash, i.log, i.nodes, i.spns, i.chans, i.latch, i.cq⟩) (fun n hn => ?_)
  unfold SameField; split <;> first | rfl | trivial | (rw [hm] at hn; cases hn)

theorem Keep.setPwr {m : Nat} {s u : State} {v} (hm : m.testBit 21 = false)
    (h : Keep m s u) : Keep m s { u with pwr := v } := by
  refine h.upd (fun i => ⟨i.mem, i.poison, i.regs, i.flash, i.log, i.nodes, i.spns, i.chans, i.latch, i.cq⟩) (fun n hn => ?_)
  unfold SameField; split <;> first | rfl | trivial | (rw [hm] at hn; cases hn)

theorem Keep.setHlth {m : Nat} {s u : State} {v} (hm : m.testBit 22 = false)
    (h : Keep m s u) : Keep m s { u with hlth := v } := by
  refine h.upd (fun i => ⟨i.mem, i.poison, i.regs, i.flash, i.log, i.nodes, i.spns, i.chans, i.latch, i.cq⟩) (fun n hn => ?_)
  unfold SameField; split <;> first | rfl | trivial | (rw [hm] at hn; cases hn)

theorem Keep.setRst {m : Nat} {s u : State} {v} (hm : m.testBit 23 = false)
    (h : Keep m s u) : Keep m s { u with rst := v } := by
  refine h.upd (fun i => ⟨i.mem, i.poison, i.regs, i.flash, i.log, i.nodes, i.spns, i.chans, i.latch, i.cq⟩) (fun n hn => ?_)
  unfold SameField; split <;> first | rfl | trivial | (rw [hm] at hn; cases hn)

theorem Keep.setFuse {m : Nat} {s u : State} {v} (hm : m.testBit 24 = false)
    (h : Keep m s u) : Keep m s { u with fuse := v } := by
  refine h.upd (fun i => ⟨i.mem, i.poison, i.regs, i.flash, i.log, i.nodes, i.spns, i.chans, i.latch, i.cq⟩) (fun n hn => ?_)
  unfold SameField; split <;> first | rfl | trivial | (rw [hm] at hn; cases hn)

theorem Keep.setReel {m : Nat} {s u : State} {v} (hm : m.testBit 25 = false)
    (h : Keep m s u) : Keep m s { u with reel := v } := by
  refine h.upd (fun i => ⟨i.mem, i.poison, i.regs, i.flash, i.log, i.nodes, i.spns, i.chans, i.latch, i.cq⟩) (fun n hn => ?_)
  unfold SameField; split <;> first | rfl | trivial | (rw [hm] at hn; cases hn)

theorem Keep.setFlash {m : Nat} {s u : State} {v} (hm : m.testBit 26 = false) (hv : twf 0 u.flash = true → twf 0 v = true)
    (h : Keep m s u) : Keep m s { u with flash := v } := by
  refine h.upd (fun i => ⟨i.mem, i.poison, i.regs, hv i.flash, i.log, i.nodes, i.spns, i.chans, i.latch, i.cq⟩) (fun n hn => ?_)
  unfold SameField; split <;> first | rfl | trivial | (rw [hm] at hn; cases hn)

theorem Keep.setWall {m : Nat} {s u : State} {v} (hm : m.testBit 27 = false)
    (h : Keep m s u) : Keep m s { u with wall := v } := by
  refine h.upd (fun i => ⟨i.mem, i.poison, i.regs, i.flash, i.log, i.nodes, i.spns, i.chans, i.latch, i.cq⟩) (fun n hn => ?_)
  unfold SameField; split <;> first | rfl | trivial | (rw [hm] at hn; cases hn)

theorem Keep.setLogN {m : Nat} {s u : State} {v} (hm : m.testBit 28 = false)
    (h : Keep m s u) : Keep m s { u with logN := v } := by
  refine h.upd (fun i => ⟨i.mem, i.poison, i.regs, i.flash, i.log, i.nodes, i.spns, i.chans, i.latch, i.cq⟩) (fun n hn => ?_)
  unfold SameField; split <;> first | rfl | trivial | (rw [hm] at hn; cases hn)

theorem Keep.setCq {m : Nat} {s u : State} {v} (hm : m.testBit 29 = false) (hv : Cq.Bounded u.cq → Cq.Bounded v)
    (h : Keep m s u) : Keep m s { u with cq := v } := by
  refine h.upd (fun i => ⟨i.mem, i.poison, i.regs, i.flash, i.log, i.nodes, i.spns, i.chans, i.latch, hv i.cq⟩) (fun n hn => ?_)
  unfold SameField; split <;> first | rfl | trivial | (rw [hm] at hn; cases hn)

theorem Keep.setMgmt {m : Nat} {s u : State} {v} (hm : m.testBit 30 = false)
    (h : Keep m s u) : Keep m s { u with mgmt := v } := by
  refine h.upd (fun i => ⟨i.mem, i.poison, i.regs, i.flash, i.log, i.nodes, i.spns, i.chans, i.latch, i.cq⟩) (fun n hn => ?_)
  unfold SameField; split <;> first | rfl | trivial | (rw [hm] at hn; cases hn)

theorem Keep.setBoot {m : Nat} {s u : State} {v} (hm : m.testBit 31 = false)
    (h : Keep m s u) : Keep m s { u with boot := v } := by
  refine h.upd (fun i => ⟨i.mem, i.poison, i.regs, i.flash, i.log, i.nodes, i.spns, i.chans, i.latch, i.cq⟩) (fun n hn => ?_)
  unfold SameField; split <;> first | rfl | trivial | (rw [hm] at hn; cases hn)

theorem Keep.setRing {m : Nat} {s u : State} {v} (hm : m.testBit 32 = false)
    (h : Keep m s u) : Keep m s { u with ring := v } := by
  refine h.upd (fun i => ⟨i.mem, i.poison, i.regs, i.flash, i.log, i.nodes, i.spns, i.chans, i.latch, i.cq⟩) (fun n hn => ?_)
  unfold SameField; split <;> first | rfl | trivial | (rw [hm] at hn; cases hn)

theorem Keep.setModl {m : Nat} {s u : State} {v} (hm : m.testBit 33 = false)
    (h : Keep m s u) : Keep m s { u with modl := v } := by
  refine h.upd (fun i => ⟨i.mem, i.poison, i.regs, i.flash, i.log, i.nodes, i.spns, i.chans, i.latch, i.cq⟩) (fun n hn => ?_)
  unfold SameField; split <;> first | rfl | trivial | (rw [hm] at hn; cases hn)

theorem Keep.setLogLogN {m : Nat} {s u : State} {v0} {v1} (hm0 : m.testBit 8 = false) (hm1 : m.testBit 28 = false)
    (hv0 : (u.log).length ≤ 4096 → (v0).length ≤ 4096) (h : Keep m s u) : Keep m s { u with log := v0, logN := v1 } := by
  refine h.upd (fun i => ⟨i.mem, i.poison, i.regs, i.flash, hv0 i.log, i.nodes, i.spns, i.chans, i.latch, i.cq⟩) (fun n hn => ?_)
  unfold SameField; split <;> first | rfl | trivial | (rw [hm0] at hn; cases hn) | (rw [hm1] at hn; cases hn)

theorem Keep.setMemPoison {m : Nat} {s u : State} {v0} {v1} (hm0 : m.testBit 10 = false) (hm1 : m.testBit 11 = false)
    (hv0 : Memory.wf u.mem = true → Memory.wf v0 = true) (hv1 : twf false u.poison = true → twf false v1 = true) (h : Keep m s u) : Keep m s { u with mem := v0, poison := v1 } := by
  refine h.upd (fun i => ⟨hv0 i.mem, hv1 i.poison, i.regs, i.flash, i.log, i.nodes, i.spns, i.chans, i.latch, i.cq⟩) (fun n hn => ?_)
  unfold SameField; split <;> first | rfl | trivial | (rw [hm0] at hn; cases hn) | (rw [hm1] at hn; cases hn)

theorem Keep.setProtReel {m : Nat} {s u : State} {v0} {v1} (hm0 : m.testBit 15 = false) (hm1 : m.testBit 25 = false)
     (h : Keep m s u) : Keep m s { u with prot := v0, reel := v1 } := by
  refine h.upd (fun i => ⟨i.mem, i.poison, i.regs, i.flash, i.log, i.nodes, i.spns, i.chans, i.latch, i.cq⟩) (fun n hn => ?_)
  unfold SameField; split <;> first | rfl | trivial | (rw [hm0] at hn; cases hn) | (rw [hm1] at hn; cases hn)

theorem Keep.setFabReel {m : Nat} {s u : State} {v0} {v1} (hm0 : m.testBit 18 = false) (hm1 : m.testBit 25 = false)
     (h : Keep m s u) : Keep m s { u with fab := v0, reel := v1 } := by
  refine h.upd (fun i => ⟨i.mem, i.poison, i.regs, i.flash, i.log, i.nodes, i.spns, i.chans, i.latch, i.cq⟩) (fun n hn => ?_)
  unfold SameField; split <;> first | rfl | trivial | (rw [hm0] at hn; cases hn) | (rw [hm1] at hn; cases hn)

theorem Keep.setOffDomsOffPwr {m : Nat} {s u : State} {v0} {v1} {v2} (hm0 : m.testBit 7 = false) (hm1 : m.testBit 16 = false) (hm2 : m.testBit 21 = false)
     (h : Keep m s u) : Keep m s { u with off := v0, domsOff := v1, pwr := v2 } := by
  refine h.upd (fun i => ⟨i.mem, i.poison, i.regs, i.flash, i.log, i.nodes, i.spns, i.chans, i.latch, i.cq⟩) (fun n hn => ?_)
  unfold SameField; split <;> first | rfl | trivial | (rw [hm0] at hn; cases hn) | (rw [hm1] at hn; cases hn) | (rw [hm2] at hn; cases hn)

theorem Keep.setOffDomsOffPwrRstModl {m : Nat} {s u : State} {v0} {v1} {v2} {v3} {v4} (hm0 : m.testBit 7 = false) (hm1 : m.testBit 16 = false) (hm2 : m.testBit 21 = false) (hm3 : m.testBit 23 = false) (hm4 : m.testBit 33 = false)
     (h : Keep m s u) : Keep m s { u with off := v0, domsOff := v1, pwr := v2, rst := v3, modl := v4 } := by
  refine h.upd (fun i => ⟨i.mem, i.poison, i.regs, i.flash, i.log, i.nodes, i.spns, i.chans, i.latch, i.cq⟩) (fun n hn => ?_)
  unfold SameField; split <;> first | rfl | trivial | (rw [hm0] at hn; cases hn) | (rw [hm1] at hn; cases hn) | (rw [hm2] at hn; cases hn) | (rw [hm3] at hn; cases hn) | (rw [hm4] at hn; cases hn)

theorem Keep.setNowRst {m : Nat} {s u : State} {v0} {v1} (hm0 : m.testBit 1 = false) (hm1 : m.testBit 23 = false)
     (h : Keep m s u) : Keep m s { u with now := v0, rst := v1 } := by
  refine h.upd (fun i => ⟨i.mem, i.poison, i.regs, i.flash, i.log, i.nodes, i.spns, i.chans, i.latch, i.cq⟩) (fun n hn => ?_)
  unfold SameField; split <;> first | rfl | trivial | (rw [hm0] at hn; cases hn) | (rw [hm1] at hn; cases hn)

theorem Keep.pending {m : Nat} {s t : State} (h : Keep m s t) (hm : m.testBit 0 = true) : t.pending = s.pending := h.same 0 hm

theorem Keep.now {m : Nat} {s t : State} (h : Keep m s t) (hm : m.testBit 1 = true) : t.now = s.now := h.same 1 hm

theorem Keep.regs {m : Nat} {s t : State} (h : Keep m s t) (hm : m.testBit 2 = true) : t.regs = s.regs := h.same 2 hm

theorem Keep.latch {m : Nat} {s t : State} (h : Keep m s t) (hm : m.testBit 3 = true) : t.latch = s.latch := h.same 3 hm

theorem Keep.freeN {m : Nat} {s t : State} (h : Keep m s t) (hm : m.testBit 4 = true) : t.freeN = s.freeN := h.same 4 hm

theorem Keep.drbgN {m : Nat} {s t : State} (h : Keep m s t) (hm : m.testBit 5 = true) : t.drbgN = s.drbgN := h.same 5 hm

theorem Keep.out {m : Nat} {s t : State} (h : Keep m s t) (hm : m.testBit 6 = true) : t.out = s.out := h.same 6 hm

theorem Keep.off {m : Nat} {s t : State} (h : Keep m s t) (hm : m.testBit 7 = true) : t.off = s.off := h.same 7 hm

theorem Keep.log {m : Nat} {s t : State} (h : Keep m s t) (hm : m.testBit 8 = true) : t.log = s.log := h.same 8 hm

theorem Keep.nodes {m : Nat} {s t : State} (h : Keep m s t) (hm : m.testBit 9 = true) : t.nodes = s.nodes := h.same 9 hm

theorem Keep.mem {m : Nat} {s t : State} (h : Keep m s t) (hm : m.testBit 10 = true) : t.mem = s.mem := h.same 10 hm

theorem Keep.poison {m : Nat} {s t : State} (h : Keep m s t) (hm : m.testBit 11 = true) : t.poison = s.poison := h.same 11 hm

theorem Keep.spns {m : Nat} {s t : State} (h : Keep m s t) (hm : m.testBit 12 = true) : t.spns = s.spns := h.same 12 hm

theorem Keep.seqr {m : Nat} {s t : State} (h : Keep m s t) (hm : m.testBit 13 = true) : t.seqr = s.seqr := h.same 13 hm

theorem Keep.chans {m : Nat} {s t : State} (h : Keep m s t) (hm : m.testBit 14 = true) : t.chans = s.chans := h.same 14 hm

theorem Keep.prot {m : Nat} {s t : State} (h : Keep m s t) (hm : m.testBit 15 = true) : t.prot = s.prot := h.same 15 hm

theorem Keep.domsOff {m : Nat} {s t : State} (h : Keep m s t) (hm : m.testBit 16 = true) : t.domsOff = s.domsOff := h.same 16 hm

theorem Keep.irq {m : Nat} {s t : State} (h : Keep m s t) (hm : m.testBit 17 = true) : t.irq = s.irq := h.same 17 hm

theorem Keep.fab {m : Nat} {s t : State} (h : Keep m s t) (hm : m.testBit 18 = true) : t.fab = s.fab := h.same 18 hm

theorem Keep.coll {m : Nat} {s t : State} (h : Keep m s t) (hm : m.testBit 19 = true) : t.coll = s.coll := h.same 19 hm

theorem Keep.clk {m : Nat} {s t : State} (h : Keep m s t) (hm : m.testBit 20 = true) : t.clk = s.clk := h.same 20 hm

theorem Keep.pwr {m : Nat} {s t : State} (h : Keep m s t) (hm : m.testBit 21 = true) : t.pwr = s.pwr := h.same 21 hm

theorem Keep.hlth {m : Nat} {s t : State} (h : Keep m s t) (hm : m.testBit 22 = true) : t.hlth = s.hlth := h.same 22 hm

theorem Keep.rst {m : Nat} {s t : State} (h : Keep m s t) (hm : m.testBit 23 = true) : t.rst = s.rst := h.same 23 hm

theorem Keep.fuse {m : Nat} {s t : State} (h : Keep m s t) (hm : m.testBit 24 = true) : t.fuse = s.fuse := h.same 24 hm

theorem Keep.reel {m : Nat} {s t : State} (h : Keep m s t) (hm : m.testBit 25 = true) : t.reel = s.reel := h.same 25 hm

theorem Keep.flash {m : Nat} {s t : State} (h : Keep m s t) (hm : m.testBit 26 = true) : t.flash = s.flash := h.same 26 hm

theorem Keep.wall {m : Nat} {s t : State} (h : Keep m s t) (hm : m.testBit 27 = true) : t.wall = s.wall := h.same 27 hm

theorem Keep.logN {m : Nat} {s t : State} (h : Keep m s t) (hm : m.testBit 28 = true) : t.logN = s.logN := h.same 28 hm

theorem Keep.cq {m : Nat} {s t : State} (h : Keep m s t) (hm : m.testBit 29 = true) : t.cq = s.cq := h.same 29 hm

theorem Keep.mgmt {m : Nat} {s t : State} (h : Keep m s t) (hm : m.testBit 30 = true) : t.mgmt = s.mgmt := h.same 30 hm

theorem Keep.boot {m : Nat} {s t : State} (h : Keep m s t) (hm : m.testBit 31 = true) : t.boot = s.boot := h.same 31 hm

theorem Keep.ring {m : Nat} {s t : State} (h : Keep m s t) (hm : m.testBit 32 = true) : t.ring = s.ring := h.same 32 hm

theorem Keep.modl {m : Nat} {s t : State} (h : Keep m s t) (hm : m.testBit 33 = true) : t.modl = s.modl := h.same 33 hm

end Sys2Proof.Machine
end

