-- ==== Sys2Proof/Laws/State.lean ====
section
/-! SUPPORT. Every field of the state after every basic update, by computation; and what a register, a spindle, a slot, a
channel and a byte of memory read as after it. -/

namespace Sys2Proof.Machine

@[simp] theorem State.setReg_pending (s : State) (a : Nat) (v : Word) : (s.setReg a v).pending = s.pending := rfl
@[simp] theorem State.setReg_now (s : State) (a : Nat) (v : Word) : (s.setReg a v).now = s.now := rfl
@[simp] theorem State.setReg_latch (s : State) (a : Nat) (v : Word) : (s.setReg a v).latch = s.latch := rfl
@[simp] theorem State.setReg_freeN (s : State) (a : Nat) (v : Word) : (s.setReg a v).freeN = s.freeN := rfl
@[simp] theorem State.setReg_drbgN (s : State) (a : Nat) (v : Word) : (s.setReg a v).drbgN = s.drbgN := rfl
@[simp] theorem State.setReg_out (s : State) (a : Nat) (v : Word) : (s.setReg a v).out = s.out := rfl
@[simp] theorem State.setReg_off (s : State) (a : Nat) (v : Word) : (s.setReg a v).off = s.off := rfl
@[simp] theorem State.setReg_log (s : State) (a : Nat) (v : Word) : (s.setReg a v).log = s.log := rfl
@[simp] theorem State.setReg_nodes (s : State) (a : Nat) (v : Word) : (s.setReg a v).nodes = s.nodes := rfl
@[simp] theorem State.setReg_mem (s : State) (a : Nat) (v : Word) : (s.setReg a v).mem = s.mem := rfl
@[simp] theorem State.setReg_poison (s : State) (a : Nat) (v : Word) : (s.setReg a v).poison = s.poison := rfl
@[simp] theorem State.setReg_spns (s : State) (a : Nat) (v : Word) : (s.setReg a v).spns = s.spns := rfl
@[simp] theorem State.setReg_seqr (s : State) (a : Nat) (v : Word) : (s.setReg a v).seqr = s.seqr := rfl
@[simp] theorem State.setReg_chans (s : State) (a : Nat) (v : Word) : (s.setReg a v).chans = s.chans := rfl
@[simp] theorem State.setReg_prot (s : State) (a : Nat) (v : Word) : (s.setReg a v).prot = s.prot := rfl
@[simp] theorem State.setReg_domsOff (s : State) (a : Nat) (v : Word) : (s.setReg a v).domsOff = s.domsOff := rfl
@[simp] theorem State.setReg_irq (s : State) (a : Nat) (v : Word) : (s.setReg a v).irq = s.irq := rfl
@[simp] theorem State.setReg_fab (s : State) (a : Nat) (v : Word) : (s.setReg a v).fab = s.fab := rfl
@[simp] theorem State.setReg_coll (s : State) (a : Nat) (v : Word) : (s.setReg a v).coll = s.coll := rfl
@[simp] theorem State.setReg_clk (s : State) (a : Nat) (v : Word) : (s.setReg a v).clk = s.clk := rfl
@[simp] theorem State.setReg_pwr (s : State) (a : Nat) (v : Word) : (s.setReg a v).pwr = s.pwr := rfl
@[simp] theorem State.setReg_hlth (s : State) (a : Nat) (v : Word) : (s.setReg a v).hlth = s.hlth := rfl
@[simp] theorem State.setReg_rst (s : State) (a : Nat) (v : Word) : (s.setReg a v).rst = s.rst := rfl
@[simp] theorem State.setReg_fuse (s : State) (a : Nat) (v : Word) : (s.setReg a v).fuse = s.fuse := rfl
@[simp] theorem State.setReg_reel (s : State) (a : Nat) (v : Word) : (s.setReg a v).reel = s.reel := rfl
@[simp] theorem State.setReg_flash (s : State) (a : Nat) (v : Word) : (s.setReg a v).flash = s.flash := rfl
@[simp] theorem State.setReg_wall (s : State) (a : Nat) (v : Word) : (s.setReg a v).wall = s.wall := rfl
@[simp] theorem State.setReg_logN (s : State) (a : Nat) (v : Word) : (s.setReg a v).logN = s.logN := rfl
@[simp] theorem State.setReg_cq (s : State) (a : Nat) (v : Word) : (s.setReg a v).cq = s.cq := rfl
@[simp] theorem State.setReg_mgmt (s : State) (a : Nat) (v : Word) : (s.setReg a v).mgmt = s.mgmt := rfl
@[simp] theorem State.setReg_boot (s : State) (a : Nat) (v : Word) : (s.setReg a v).boot = s.boot := rfl
@[simp] theorem State.setReg_ring (s : State) (a : Nat) (v : Word) : (s.setReg a v).ring = s.ring := rfl
@[simp] theorem State.setReg_modl (s : State) (a : Nat) (v : Word) : (s.setReg a v).modl = s.modl := rfl

@[simp] theorem State.wr_pending (s : State) (a v : Nat) : (s.wr a v).pending = s.pending := rfl
@[simp] theorem State.wr_now (s : State) (a v : Nat) : (s.wr a v).now = s.now := rfl
@[simp] theorem State.wr_latch (s : State) (a v : Nat) : (s.wr a v).latch = s.latch := rfl
@[simp] theorem State.wr_freeN (s : State) (a v : Nat) : (s.wr a v).freeN = s.freeN := rfl
@[simp] theorem State.wr_drbgN (s : State) (a v : Nat) : (s.wr a v).drbgN = s.drbgN := rfl
@[simp] theorem State.wr_out (s : State) (a v : Nat) : (s.wr a v).out = s.out := rfl
@[simp] theorem State.wr_off (s : State) (a v : Nat) : (s.wr a v).off = s.off := rfl
@[simp] theorem State.wr_log (s : State) (a v : Nat) : (s.wr a v).log = s.log := rfl
@[simp] theorem State.wr_nodes (s : State) (a v : Nat) : (s.wr a v).nodes = s.nodes := rfl
@[simp] theorem State.wr_mem (s : State) (a v : Nat) : (s.wr a v).mem = s.mem := rfl
@[simp] theorem State.wr_poison (s : State) (a v : Nat) : (s.wr a v).poison = s.poison := rfl
@[simp] theorem State.wr_spns (s : State) (a v : Nat) : (s.wr a v).spns = s.spns := rfl
@[simp] theorem State.wr_seqr (s : State) (a v : Nat) : (s.wr a v).seqr = s.seqr := rfl
@[simp] theorem State.wr_chans (s : State) (a v : Nat) : (s.wr a v).chans = s.chans := rfl
@[simp] theorem State.wr_prot (s : State) (a v : Nat) : (s.wr a v).prot = s.prot := rfl
@[simp] theorem State.wr_domsOff (s : State) (a v : Nat) : (s.wr a v).domsOff = s.domsOff := rfl
@[simp] theorem State.wr_irq (s : State) (a v : Nat) : (s.wr a v).irq = s.irq := rfl
@[simp] theorem State.wr_fab (s : State) (a v : Nat) : (s.wr a v).fab = s.fab := rfl
@[simp] theorem State.wr_coll (s : State) (a v : Nat) : (s.wr a v).coll = s.coll := rfl
@[simp] theorem State.wr_clk (s : State) (a v : Nat) : (s.wr a v).clk = s.clk := rfl
@[simp] theorem State.wr_pwr (s : State) (a v : Nat) : (s.wr a v).pwr = s.pwr := rfl
@[simp] theorem State.wr_hlth (s : State) (a v : Nat) : (s.wr a v).hlth = s.hlth := rfl
@[simp] theorem State.wr_rst (s : State) (a v : Nat) : (s.wr a v).rst = s.rst := rfl
@[simp] theorem State.wr_fuse (s : State) (a v : Nat) : (s.wr a v).fuse = s.fuse := rfl
@[simp] theorem State.wr_reel (s : State) (a v : Nat) : (s.wr a v).reel = s.reel := rfl
@[simp] theorem State.wr_flash (s : State) (a v : Nat) : (s.wr a v).flash = s.flash := rfl
@[simp] theorem State.wr_wall (s : State) (a v : Nat) : (s.wr a v).wall = s.wall := rfl
@[simp] theorem State.wr_logN (s : State) (a v : Nat) : (s.wr a v).logN = s.logN := rfl
@[simp] theorem State.wr_cq (s : State) (a v : Nat) : (s.wr a v).cq = s.cq := rfl
@[simp] theorem State.wr_mgmt (s : State) (a v : Nat) : (s.wr a v).mgmt = s.mgmt := rfl
@[simp] theorem State.wr_boot (s : State) (a v : Nat) : (s.wr a v).boot = s.boot := rfl
@[simp] theorem State.wr_ring (s : State) (a v : Nat) : (s.wr a v).ring = s.ring := rfl
@[simp] theorem State.wr_modl (s : State) (a v : Nat) : (s.wr a v).modl = s.modl := rfl

@[simp] theorem State.wf_pending (s : State) (a hi lo v : Nat) : (s.wf a hi lo v).pending = s.pending := rfl
@[simp] theorem State.wf_now (s : State) (a hi lo v : Nat) : (s.wf a hi lo v).now = s.now := rfl
@[simp] theorem State.wf_latch (s : State) (a hi lo v : Nat) : (s.wf a hi lo v).latch = s.latch := rfl
@[simp] theorem State.wf_freeN (s : State) (a hi lo v : Nat) : (s.wf a hi lo v).freeN = s.freeN := rfl
@[simp] theorem State.wf_drbgN (s : State) (a hi lo v : Nat) : (s.wf a hi lo v).drbgN = s.drbgN := rfl
@[simp] theorem State.wf_out (s : State) (a hi lo v : Nat) : (s.wf a hi lo v).out = s.out := rfl
@[simp] theorem State.wf_off (s : State) (a hi lo v : Nat) : (s.wf a hi lo v).off = s.off := rfl
@[simp] theorem State.wf_log (s : State) (a hi lo v : Nat) : (s.wf a hi lo v).log = s.log := rfl
@[simp] theorem State.wf_nodes (s : State) (a hi lo v : Nat) : (s.wf a hi lo v).nodes = s.nodes := rfl
@[simp] theorem State.wf_mem (s : State) (a hi lo v : Nat) : (s.wf a hi lo v).mem = s.mem := rfl
@[simp] theorem State.wf_poison (s : State) (a hi lo v : Nat) : (s.wf a hi lo v).poison = s.poison := rfl
@[simp] theorem State.wf_spns (s : State) (a hi lo v : Nat) : (s.wf a hi lo v).spns = s.spns := rfl
@[simp] theorem State.wf_seqr (s : State) (a hi lo v : Nat) : (s.wf a hi lo v).seqr = s.seqr := rfl
@[simp] theorem State.wf_chans (s : State) (a hi lo v : Nat) : (s.wf a hi lo v).chans = s.chans := rfl
@[simp] theorem State.wf_prot (s : State) (a hi lo v : Nat) : (s.wf a hi lo v).prot = s.prot := rfl
@[simp] theorem State.wf_domsOff (s : State) (a hi lo v : Nat) : (s.wf a hi lo v).domsOff = s.domsOff := rfl
@[simp] theorem State.wf_irq (s : State) (a hi lo v : Nat) : (s.wf a hi lo v).irq = s.irq := rfl
@[simp] theorem State.wf_fab (s : State) (a hi lo v : Nat) : (s.wf a hi lo v).fab = s.fab := rfl
@[simp] theorem State.wf_coll (s : State) (a hi lo v : Nat) : (s.wf a hi lo v).coll = s.coll := rfl
@[simp] theorem State.wf_clk (s : State) (a hi lo v : Nat) : (s.wf a hi lo v).clk = s.clk := rfl
@[simp] theorem State.wf_pwr (s : State) (a hi lo v : Nat) : (s.wf a hi lo v).pwr = s.pwr := rfl
@[simp] theorem State.wf_hlth (s : State) (a hi lo v : Nat) : (s.wf a hi lo v).hlth = s.hlth := rfl
@[simp] theorem State.wf_rst (s : State) (a hi lo v : Nat) : (s.wf a hi lo v).rst = s.rst := rfl
@[simp] theorem State.wf_fuse (s : State) (a hi lo v : Nat) : (s.wf a hi lo v).fuse = s.fuse := rfl
@[simp] theorem State.wf_reel (s : State) (a hi lo v : Nat) : (s.wf a hi lo v).reel = s.reel := rfl
@[simp] theorem State.wf_flash (s : State) (a hi lo v : Nat) : (s.wf a hi lo v).flash = s.flash := rfl
@[simp] theorem State.wf_wall (s : State) (a hi lo v : Nat) : (s.wf a hi lo v).wall = s.wall := rfl
@[simp] theorem State.wf_logN (s : State) (a hi lo v : Nat) : (s.wf a hi lo v).logN = s.logN := rfl
@[simp] theorem State.wf_cq (s : State) (a hi lo v : Nat) : (s.wf a hi lo v).cq = s.cq := rfl
@[simp] theorem State.wf_mgmt (s : State) (a hi lo v : Nat) : (s.wf a hi lo v).mgmt = s.mgmt := rfl
@[simp] theorem State.wf_boot (s : State) (a hi lo v : Nat) : (s.wf a hi lo v).boot = s.boot := rfl
@[simp] theorem State.wf_ring (s : State) (a hi lo v : Nat) : (s.wf a hi lo v).ring = s.ring := rfl
@[simp] theorem State.wf_modl (s : State) (a hi lo v : Nat) : (s.wf a hi lo v).modl = s.modl := rfl

@[simp] theorem State.wr64_pending (s : State) (a v : Nat) : (s.wr64 a v).pending = s.pending := rfl
@[simp] theorem State.wr64_now (s : State) (a v : Nat) : (s.wr64 a v).now = s.now := rfl
@[simp] theorem State.wr64_latch (s : State) (a v : Nat) : (s.wr64 a v).latch = s.latch := rfl
@[simp] theorem State.wr64_freeN (s : State) (a v : Nat) : (s.wr64 a v).freeN = s.freeN := rfl
@[simp] theorem State.wr64_drbgN (s : State) (a v : Nat) : (s.wr64 a v).drbgN = s.drbgN := rfl
@[simp] theorem State.wr64_out (s : State) (a v : Nat) : (s.wr64 a v).out = s.out := rfl
@[simp] theorem State.wr64_off (s : State) (a v : Nat) : (s.wr64 a v).off = s.off := rfl
@[simp] theorem State.wr64_log (s : State) (a v : Nat) : (s.wr64 a v).log = s.log := rfl
@[simp] theorem State.wr64_nodes (s : State) (a v : Nat) : (s.wr64 a v).nodes = s.nodes := rfl
@[simp] theorem State.wr64_mem (s : State) (a v : Nat) : (s.wr64 a v).mem = s.mem := rfl
@[simp] theorem State.wr64_poison (s : State) (a v : Nat) : (s.wr64 a v).poison = s.poison := rfl
@[simp] theorem State.wr64_spns (s : State) (a v : Nat) : (s.wr64 a v).spns = s.spns := rfl
@[simp] theorem State.wr64_seqr (s : State) (a v : Nat) : (s.wr64 a v).seqr = s.seqr := rfl
@[simp] theorem State.wr64_chans (s : State) (a v : Nat) : (s.wr64 a v).chans = s.chans := rfl
@[simp] theorem State.wr64_prot (s : State) (a v : Nat) : (s.wr64 a v).prot = s.prot := rfl
@[simp] theorem State.wr64_domsOff (s : State) (a v : Nat) : (s.wr64 a v).domsOff = s.domsOff := rfl
@[simp] theorem State.wr64_irq (s : State) (a v : Nat) : (s.wr64 a v).irq = s.irq := rfl
@[simp] theorem State.wr64_fab (s : State) (a v : Nat) : (s.wr64 a v).fab = s.fab := rfl
@[simp] theorem State.wr64_coll (s : State) (a v : Nat) : (s.wr64 a v).coll = s.coll := rfl
@[simp] theorem State.wr64_clk (s : State) (a v : Nat) : (s.wr64 a v).clk = s.clk := rfl
@[simp] theorem State.wr64_pwr (s : State) (a v : Nat) : (s.wr64 a v).pwr = s.pwr := rfl
@[simp] theorem State.wr64_hlth (s : State) (a v : Nat) : (s.wr64 a v).hlth = s.hlth := rfl
@[simp] theorem State.wr64_rst (s : State) (a v : Nat) : (s.wr64 a v).rst = s.rst := rfl
@[simp] theorem State.wr64_fuse (s : State) (a v : Nat) : (s.wr64 a v).fuse = s.fuse := rfl
@[simp] theorem State.wr64_reel (s : State) (a v : Nat) : (s.wr64 a v).reel = s.reel := rfl
@[simp] theorem State.wr64_flash (s : State) (a v : Nat) : (s.wr64 a v).flash = s.flash := rfl
@[simp] theorem State.wr64_wall (s : State) (a v : Nat) : (s.wr64 a v).wall = s.wall := rfl
@[simp] theorem State.wr64_logN (s : State) (a v : Nat) : (s.wr64 a v).logN = s.logN := rfl
@[simp] theorem State.wr64_cq (s : State) (a v : Nat) : (s.wr64 a v).cq = s.cq := rfl
@[simp] theorem State.wr64_mgmt (s : State) (a v : Nat) : (s.wr64 a v).mgmt = s.mgmt := rfl
@[simp] theorem State.wr64_boot (s : State) (a v : Nat) : (s.wr64 a v).boot = s.boot := rfl
@[simp] theorem State.wr64_ring (s : State) (a v : Nat) : (s.wr64 a v).ring = s.ring := rfl
@[simp] theorem State.wr64_modl (s : State) (a v : Nat) : (s.wr64 a v).modl = s.modl := rfl

@[simp] theorem State.satField_pending (s : State) (a hi lo n : Nat) : (s.satField a hi lo n).pending = s.pending := rfl
@[simp] theorem State.satField_now (s : State) (a hi lo n : Nat) : (s.satField a hi lo n).now = s.now := rfl
@[simp] theorem State.satField_latch (s : State) (a hi lo n : Nat) : (s.satField a hi lo n).latch = s.latch := rfl
@[simp] theorem State.satField_freeN (s : State) (a hi lo n : Nat) : (s.satField a hi lo n).freeN = s.freeN := rfl
@[simp] theorem State.satField_drbgN (s : State) (a hi lo n : Nat) : (s.satField a hi lo n).drbgN = s.drbgN := rfl
@[simp] theorem State.satField_out (s : State) (a hi lo n : Nat) : (s.satField a hi lo n).out = s.out := rfl
@[simp] theorem State.satField_off (s : State) (a hi lo n : Nat) : (s.satField a hi lo n).off = s.off := rfl
@[simp] theorem State.satField_log (s : State) (a hi lo n : Nat) : (s.satField a hi lo n).log = s.log := rfl
@[simp] theorem State.satField_nodes (s : State) (a hi lo n : Nat) : (s.satField a hi lo n).nodes = s.nodes := rfl
@[simp] theorem State.satField_mem (s : State) (a hi lo n : Nat) : (s.satField a hi lo n).mem = s.mem := rfl
@[simp] theorem State.satField_poison (s : State) (a hi lo n : Nat) : (s.satField a hi lo n).poison = s.poison := rfl
@[simp] theorem State.satField_spns (s : State) (a hi lo n : Nat) : (s.satField a hi lo n).spns = s.spns := rfl
@[simp] theorem State.satField_seqr (s : State) (a hi lo n : Nat) : (s.satField a hi lo n).seqr = s.seqr := rfl
@[simp] theorem State.satField_chans (s : State) (a hi lo n : Nat) : (s.satField a hi lo n).chans = s.chans := rfl
@[simp] theorem State.satField_prot (s : State) (a hi lo n : Nat) : (s.satField a hi lo n).prot = s.prot := rfl
@[simp] theorem State.satField_domsOff (s : State) (a hi lo n : Nat) : (s.satField a hi lo n).domsOff = s.domsOff := rfl
@[simp] theorem State.satField_irq (s : State) (a hi lo n : Nat) : (s.satField a hi lo n).irq = s.irq := rfl
@[simp] theorem State.satField_fab (s : State) (a hi lo n : Nat) : (s.satField a hi lo n).fab = s.fab := rfl
@[simp] theorem State.satField_coll (s : State) (a hi lo n : Nat) : (s.satField a hi lo n).coll = s.coll := rfl
@[simp] theorem State.satField_clk (s : State) (a hi lo n : Nat) : (s.satField a hi lo n).clk = s.clk := rfl
@[simp] theorem State.satField_pwr (s : State) (a hi lo n : Nat) : (s.satField a hi lo n).pwr = s.pwr := rfl
@[simp] theorem State.satField_hlth (s : State) (a hi lo n : Nat) : (s.satField a hi lo n).hlth = s.hlth := rfl
@[simp] theorem State.satField_rst (s : State) (a hi lo n : Nat) : (s.satField a hi lo n).rst = s.rst := rfl
@[simp] theorem State.satField_fuse (s : State) (a hi lo n : Nat) : (s.satField a hi lo n).fuse = s.fuse := rfl
@[simp] theorem State.satField_reel (s : State) (a hi lo n : Nat) : (s.satField a hi lo n).reel = s.reel := rfl
@[simp] theorem State.satField_flash (s : State) (a hi lo n : Nat) : (s.satField a hi lo n).flash = s.flash := rfl
@[simp] theorem State.satField_wall (s : State) (a hi lo n : Nat) : (s.satField a hi lo n).wall = s.wall := rfl
@[simp] theorem State.satField_logN (s : State) (a hi lo n : Nat) : (s.satField a hi lo n).logN = s.logN := rfl
@[simp] theorem State.satField_cq (s : State) (a hi lo n : Nat) : (s.satField a hi lo n).cq = s.cq := rfl
@[simp] theorem State.satField_mgmt (s : State) (a hi lo n : Nat) : (s.satField a hi lo n).mgmt = s.mgmt := rfl
@[simp] theorem State.satField_boot (s : State) (a hi lo n : Nat) : (s.satField a hi lo n).boot = s.boot := rfl
@[simp] theorem State.satField_ring (s : State) (a hi lo n : Nat) : (s.satField a hi lo n).ring = s.ring := rfl
@[simp] theorem State.satField_modl (s : State) (a hi lo n : Nat) : (s.satField a hi lo n).modl = s.modl := rfl

@[simp] theorem State.sat_pending (s : State) (a n : Nat) : (s.sat a n).pending = s.pending := rfl
@[simp] theorem State.sat_now (s : State) (a n : Nat) : (s.sat a n).now = s.now := rfl
@[simp] theorem State.sat_latch (s : State) (a n : Nat) : (s.sat a n).latch = s.latch := rfl
@[simp] theorem State.sat_freeN (s : State) (a n : Nat) : (s.sat a n).freeN = s.freeN := rfl
@[simp] theorem State.sat_drbgN (s : State) (a n : Nat) : (s.sat a n).drbgN = s.drbgN := rfl
@[simp] theorem State.sat_out (s : State) (a n : Nat) : (s.sat a n).out = s.out := rfl
@[simp] theorem State.sat_off (s : State) (a n : Nat) : (s.sat a n).off = s.off := rfl
@[simp] theorem State.sat_log (s : State) (a n : Nat) : (s.sat a n).log = s.log := rfl
@[simp] theorem State.sat_nodes (s : State) (a n : Nat) : (s.sat a n).nodes = s.nodes := rfl
@[simp] theorem State.sat_mem (s : State) (a n : Nat) : (s.sat a n).mem = s.mem := rfl
@[simp] theorem State.sat_poison (s : State) (a n : Nat) : (s.sat a n).poison = s.poison := rfl
@[simp] theorem State.sat_spns (s : State) (a n : Nat) : (s.sat a n).spns = s.spns := rfl
@[simp] theorem State.sat_seqr (s : State) (a n : Nat) : (s.sat a n).seqr = s.seqr := rfl
@[simp] theorem State.sat_chans (s : State) (a n : Nat) : (s.sat a n).chans = s.chans := rfl
@[simp] theorem State.sat_prot (s : State) (a n : Nat) : (s.sat a n).prot = s.prot := rfl
@[simp] theorem State.sat_domsOff (s : State) (a n : Nat) : (s.sat a n).domsOff = s.domsOff := rfl
@[simp] theorem State.sat_irq (s : State) (a n : Nat) : (s.sat a n).irq = s.irq := rfl
@[simp] theorem State.sat_fab (s : State) (a n : Nat) : (s.sat a n).fab = s.fab := rfl
@[simp] theorem State.sat_coll (s : State) (a n : Nat) : (s.sat a n).coll = s.coll := rfl
@[simp] theorem State.sat_clk (s : State) (a n : Nat) : (s.sat a n).clk = s.clk := rfl
@[simp] theorem State.sat_pwr (s : State) (a n : Nat) : (s.sat a n).pwr = s.pwr := rfl
@[simp] theorem State.sat_hlth (s : State) (a n : Nat) : (s.sat a n).hlth = s.hlth := rfl
@[simp] theorem State.sat_rst (s : State) (a n : Nat) : (s.sat a n).rst = s.rst := rfl
@[simp] theorem State.sat_fuse (s : State) (a n : Nat) : (s.sat a n).fuse = s.fuse := rfl
@[simp] theorem State.sat_reel (s : State) (a n : Nat) : (s.sat a n).reel = s.reel := rfl
@[simp] theorem State.sat_flash (s : State) (a n : Nat) : (s.sat a n).flash = s.flash := rfl
@[simp] theorem State.sat_wall (s : State) (a n : Nat) : (s.sat a n).wall = s.wall := rfl
@[simp] theorem State.sat_logN (s : State) (a n : Nat) : (s.sat a n).logN = s.logN := rfl
@[simp] theorem State.sat_cq (s : State) (a n : Nat) : (s.sat a n).cq = s.cq := rfl
@[simp] theorem State.sat_mgmt (s : State) (a n : Nat) : (s.sat a n).mgmt = s.mgmt := rfl
@[simp] theorem State.sat_boot (s : State) (a n : Nat) : (s.sat a n).boot = s.boot := rfl
@[simp] theorem State.sat_ring (s : State) (a n : Nat) : (s.sat a n).ring = s.ring := rfl
@[simp] theorem State.sat_modl (s : State) (a n : Nat) : (s.sat a n).modl = s.modl := rfl

@[simp] theorem State.add64_pending (s : State) (a n : Nat) : (s.add64 a n).pending = s.pending := rfl
@[simp] theorem State.add64_now (s : State) (a n : Nat) : (s.add64 a n).now = s.now := rfl
@[simp] theorem State.add64_latch (s : State) (a n : Nat) : (s.add64 a n).latch = s.latch := rfl
@[simp] theorem State.add64_freeN (s : State) (a n : Nat) : (s.add64 a n).freeN = s.freeN := rfl
@[simp] theorem State.add64_drbgN (s : State) (a n : Nat) : (s.add64 a n).drbgN = s.drbgN := rfl
@[simp] theorem State.add64_out (s : State) (a n : Nat) : (s.add64 a n).out = s.out := rfl
@[simp] theorem State.add64_off (s : State) (a n : Nat) : (s.add64 a n).off = s.off := rfl
@[simp] theorem State.add64_log (s : State) (a n : Nat) : (s.add64 a n).log = s.log := rfl
@[simp] theorem State.add64_nodes (s : State) (a n : Nat) : (s.add64 a n).nodes = s.nodes := rfl
@[simp] theorem State.add64_mem (s : State) (a n : Nat) : (s.add64 a n).mem = s.mem := rfl
@[simp] theorem State.add64_poison (s : State) (a n : Nat) : (s.add64 a n).poison = s.poison := rfl
@[simp] theorem State.add64_spns (s : State) (a n : Nat) : (s.add64 a n).spns = s.spns := rfl
@[simp] theorem State.add64_seqr (s : State) (a n : Nat) : (s.add64 a n).seqr = s.seqr := rfl
@[simp] theorem State.add64_chans (s : State) (a n : Nat) : (s.add64 a n).chans = s.chans := rfl
@[simp] theorem State.add64_prot (s : State) (a n : Nat) : (s.add64 a n).prot = s.prot := rfl
@[simp] theorem State.add64_domsOff (s : State) (a n : Nat) : (s.add64 a n).domsOff = s.domsOff := rfl
@[simp] theorem State.add64_irq (s : State) (a n : Nat) : (s.add64 a n).irq = s.irq := rfl
@[simp] theorem State.add64_fab (s : State) (a n : Nat) : (s.add64 a n).fab = s.fab := rfl
@[simp] theorem State.add64_coll (s : State) (a n : Nat) : (s.add64 a n).coll = s.coll := rfl
@[simp] theorem State.add64_clk (s : State) (a n : Nat) : (s.add64 a n).clk = s.clk := rfl
@[simp] theorem State.add64_pwr (s : State) (a n : Nat) : (s.add64 a n).pwr = s.pwr := rfl
@[simp] theorem State.add64_hlth (s : State) (a n : Nat) : (s.add64 a n).hlth = s.hlth := rfl
@[simp] theorem State.add64_rst (s : State) (a n : Nat) : (s.add64 a n).rst = s.rst := rfl
@[simp] theorem State.add64_fuse (s : State) (a n : Nat) : (s.add64 a n).fuse = s.fuse := rfl
@[simp] theorem State.add64_reel (s : State) (a n : Nat) : (s.add64 a n).reel = s.reel := rfl
@[simp] theorem State.add64_flash (s : State) (a n : Nat) : (s.add64 a n).flash = s.flash := rfl
@[simp] theorem State.add64_wall (s : State) (a n : Nat) : (s.add64 a n).wall = s.wall := rfl
@[simp] theorem State.add64_logN (s : State) (a n : Nat) : (s.add64 a n).logN = s.logN := rfl
@[simp] theorem State.add64_cq (s : State) (a n : Nat) : (s.add64 a n).cq = s.cq := rfl
@[simp] theorem State.add64_mgmt (s : State) (a n : Nat) : (s.add64 a n).mgmt = s.mgmt := rfl
@[simp] theorem State.add64_boot (s : State) (a n : Nat) : (s.add64 a n).boot = s.boot := rfl
@[simp] theorem State.add64_ring (s : State) (a n : Nat) : (s.add64 a n).ring = s.ring := rfl
@[simp] theorem State.add64_modl (s : State) (a n : Nat) : (s.add64 a n).modl = s.modl := rfl

@[simp] theorem State.maxField_pending (s : State) (a hi lo n : Nat) : (s.maxField a hi lo n).pending = s.pending := rfl
@[simp] theorem State.maxField_now (s : State) (a hi lo n : Nat) : (s.maxField a hi lo n).now = s.now := rfl
@[simp] theorem State.maxField_latch (s : State) (a hi lo n : Nat) : (s.maxField a hi lo n).latch = s.latch := rfl
@[simp] theorem State.maxField_freeN (s : State) (a hi lo n : Nat) : (s.maxField a hi lo n).freeN = s.freeN := rfl
@[simp] theorem State.maxField_drbgN (s : State) (a hi lo n : Nat) : (s.maxField a hi lo n).drbgN = s.drbgN := rfl
@[simp] theorem State.maxField_out (s : State) (a hi lo n : Nat) : (s.maxField a hi lo n).out = s.out := rfl
@[simp] theorem State.maxField_off (s : State) (a hi lo n : Nat) : (s.maxField a hi lo n).off = s.off := rfl
@[simp] theorem State.maxField_log (s : State) (a hi lo n : Nat) : (s.maxField a hi lo n).log = s.log := rfl
@[simp] theorem State.maxField_nodes (s : State) (a hi lo n : Nat) : (s.maxField a hi lo n).nodes = s.nodes := rfl
@[simp] theorem State.maxField_mem (s : State) (a hi lo n : Nat) : (s.maxField a hi lo n).mem = s.mem := rfl
@[simp] theorem State.maxField_poison (s : State) (a hi lo n : Nat) : (s.maxField a hi lo n).poison = s.poison := rfl
@[simp] theorem State.maxField_spns (s : State) (a hi lo n : Nat) : (s.maxField a hi lo n).spns = s.spns := rfl
@[simp] theorem State.maxField_seqr (s : State) (a hi lo n : Nat) : (s.maxField a hi lo n).seqr = s.seqr := rfl
@[simp] theorem State.maxField_chans (s : State) (a hi lo n : Nat) : (s.maxField a hi lo n).chans = s.chans := rfl
@[simp] theorem State.maxField_prot (s : State) (a hi lo n : Nat) : (s.maxField a hi lo n).prot = s.prot := rfl
@[simp] theorem State.maxField_domsOff (s : State) (a hi lo n : Nat) : (s.maxField a hi lo n).domsOff = s.domsOff := rfl
@[simp] theorem State.maxField_irq (s : State) (a hi lo n : Nat) : (s.maxField a hi lo n).irq = s.irq := rfl
@[simp] theorem State.maxField_fab (s : State) (a hi lo n : Nat) : (s.maxField a hi lo n).fab = s.fab := rfl
@[simp] theorem State.maxField_coll (s : State) (a hi lo n : Nat) : (s.maxField a hi lo n).coll = s.coll := rfl
@[simp] theorem State.maxField_clk (s : State) (a hi lo n : Nat) : (s.maxField a hi lo n).clk = s.clk := rfl
@[simp] theorem State.maxField_pwr (s : State) (a hi lo n : Nat) : (s.maxField a hi lo n).pwr = s.pwr := rfl
@[simp] theorem State.maxField_hlth (s : State) (a hi lo n : Nat) : (s.maxField a hi lo n).hlth = s.hlth := rfl
@[simp] theorem State.maxField_rst (s : State) (a hi lo n : Nat) : (s.maxField a hi lo n).rst = s.rst := rfl
@[simp] theorem State.maxField_fuse (s : State) (a hi lo n : Nat) : (s.maxField a hi lo n).fuse = s.fuse := rfl
@[simp] theorem State.maxField_reel (s : State) (a hi lo n : Nat) : (s.maxField a hi lo n).reel = s.reel := rfl
@[simp] theorem State.maxField_flash (s : State) (a hi lo n : Nat) : (s.maxField a hi lo n).flash = s.flash := rfl
@[simp] theorem State.maxField_wall (s : State) (a hi lo n : Nat) : (s.maxField a hi lo n).wall = s.wall := rfl
@[simp] theorem State.maxField_logN (s : State) (a hi lo n : Nat) : (s.maxField a hi lo n).logN = s.logN := rfl
@[simp] theorem State.maxField_cq (s : State) (a hi lo n : Nat) : (s.maxField a hi lo n).cq = s.cq := rfl
@[simp] theorem State.maxField_mgmt (s : State) (a hi lo n : Nat) : (s.maxField a hi lo n).mgmt = s.mgmt := rfl
@[simp] theorem State.maxField_boot (s : State) (a hi lo n : Nat) : (s.maxField a hi lo n).boot = s.boot := rfl
@[simp] theorem State.maxField_ring (s : State) (a hi lo n : Nat) : (s.maxField a hi lo n).ring = s.ring := rfl
@[simp] theorem State.maxField_modl (s : State) (a hi lo n : Nat) : (s.maxField a hi lo n).modl = s.modl := rfl

@[simp] theorem State.send_pending (s : State) (m : Msg) : (s.send m).pending = s.pending := rfl
@[simp] theorem State.send_now (s : State) (m : Msg) : (s.send m).now = s.now := rfl
@[simp] theorem State.send_regs (s : State) (m : Msg) : (s.send m).regs = s.regs := rfl
@[simp] theorem State.send_latch (s : State) (m : Msg) : (s.send m).latch = s.latch := rfl
@[simp] theorem State.send_freeN (s : State) (m : Msg) : (s.send m).freeN = s.freeN := rfl
@[simp] theorem State.send_drbgN (s : State) (m : Msg) : (s.send m).drbgN = s.drbgN := rfl
@[simp] theorem State.send_off (s : State) (m : Msg) : (s.send m).off = s.off := rfl
@[simp] theorem State.send_log (s : State) (m : Msg) : (s.send m).log = s.log := rfl
@[simp] theorem State.send_nodes (s : State) (m : Msg) : (s.send m).nodes = s.nodes := rfl
@[simp] theorem State.send_mem (s : State) (m : Msg) : (s.send m).mem = s.mem := rfl
@[simp] theorem State.send_poison (s : State) (m : Msg) : (s.send m).poison = s.poison := rfl
@[simp] theorem State.send_spns (s : State) (m : Msg) : (s.send m).spns = s.spns := rfl
@[simp] theorem State.send_seqr (s : State) (m : Msg) : (s.send m).seqr = s.seqr := rfl
@[simp] theorem State.send_chans (s : State) (m : Msg) : (s.send m).chans = s.chans := rfl
@[simp] theorem State.send_prot (s : State) (m : Msg) : (s.send m).prot = s.prot := rfl
@[simp] theorem State.send_domsOff (s : State) (m : Msg) : (s.send m).domsOff = s.domsOff := rfl
@[simp] theorem State.send_irq (s : State) (m : Msg) : (s.send m).irq = s.irq := rfl
@[simp] theorem State.send_fab (s : State) (m : Msg) : (s.send m).fab = s.fab := rfl
@[simp] theorem State.send_coll (s : State) (m : Msg) : (s.send m).coll = s.coll := rfl
@[simp] theorem State.send_clk (s : State) (m : Msg) : (s.send m).clk = s.clk := rfl
@[simp] theorem State.send_pwr (s : State) (m : Msg) : (s.send m).pwr = s.pwr := rfl
@[simp] theorem State.send_hlth (s : State) (m : Msg) : (s.send m).hlth = s.hlth := rfl
@[simp] theorem State.send_rst (s : State) (m : Msg) : (s.send m).rst = s.rst := rfl
@[simp] theorem State.send_fuse (s : State) (m : Msg) : (s.send m).fuse = s.fuse := rfl
@[simp] theorem State.send_reel (s : State) (m : Msg) : (s.send m).reel = s.reel := rfl
@[simp] theorem State.send_flash (s : State) (m : Msg) : (s.send m).flash = s.flash := rfl
@[simp] theorem State.send_wall (s : State) (m : Msg) : (s.send m).wall = s.wall := rfl
@[simp] theorem State.send_logN (s : State) (m : Msg) : (s.send m).logN = s.logN := rfl
@[simp] theorem State.send_cq (s : State) (m : Msg) : (s.send m).cq = s.cq := rfl
@[simp] theorem State.send_mgmt (s : State) (m : Msg) : (s.send m).mgmt = s.mgmt := rfl
@[simp] theorem State.send_boot (s : State) (m : Msg) : (s.send m).boot = s.boot := rfl
@[simp] theorem State.send_ring (s : State) (m : Msg) : (s.send m).ring = s.ring := rfl
@[simp] theorem State.send_modl (s : State) (m : Msg) : (s.send m).modl = s.modl := rfl

@[simp] theorem State.take_pending (s : State) (m : Msg) : (s.take m).pending = s.pending := rfl
@[simp] theorem State.take_now (s : State) (m : Msg) : (s.take m).now = s.now := rfl
@[simp] theorem State.take_regs (s : State) (m : Msg) : (s.take m).regs = s.regs := rfl
@[simp] theorem State.take_latch (s : State) (m : Msg) : (s.take m).latch = s.latch := rfl
@[simp] theorem State.take_freeN (s : State) (m : Msg) : (s.take m).freeN = s.freeN := rfl
@[simp] theorem State.take_drbgN (s : State) (m : Msg) : (s.take m).drbgN = s.drbgN := rfl
@[simp] theorem State.take_off (s : State) (m : Msg) : (s.take m).off = s.off := rfl
@[simp] theorem State.take_log (s : State) (m : Msg) : (s.take m).log = s.log := rfl
@[simp] theorem State.take_nodes (s : State) (m : Msg) : (s.take m).nodes = s.nodes := rfl
@[simp] theorem State.take_mem (s : State) (m : Msg) : (s.take m).mem = s.mem := rfl
@[simp] theorem State.take_poison (s : State) (m : Msg) : (s.take m).poison = s.poison := rfl
@[simp] theorem State.take_spns (s : State) (m : Msg) : (s.take m).spns = s.spns := rfl
@[simp] theorem State.take_seqr (s : State) (m : Msg) : (s.take m).seqr = s.seqr := rfl
@[simp] theorem State.take_chans (s : State) (m : Msg) : (s.take m).chans = s.chans := rfl
@[simp] theorem State.take_prot (s : State) (m : Msg) : (s.take m).prot = s.prot := rfl
@[simp] theorem State.take_domsOff (s : State) (m : Msg) : (s.take m).domsOff = s.domsOff := rfl
@[simp] theorem State.take_irq (s : State) (m : Msg) : (s.take m).irq = s.irq := rfl
@[simp] theorem State.take_fab (s : State) (m : Msg) : (s.take m).fab = s.fab := rfl
@[simp] theorem State.take_coll (s : State) (m : Msg) : (s.take m).coll = s.coll := rfl
@[simp] theorem State.take_clk (s : State) (m : Msg) : (s.take m).clk = s.clk := rfl
@[simp] theorem State.take_pwr (s : State) (m : Msg) : (s.take m).pwr = s.pwr := rfl
@[simp] theorem State.take_hlth (s : State) (m : Msg) : (s.take m).hlth = s.hlth := rfl
@[simp] theorem State.take_rst (s : State) (m : Msg) : (s.take m).rst = s.rst := rfl
@[simp] theorem State.take_fuse (s : State) (m : Msg) : (s.take m).fuse = s.fuse := rfl
@[simp] theorem State.take_reel (s : State) (m : Msg) : (s.take m).reel = s.reel := rfl
@[simp] theorem State.take_flash (s : State) (m : Msg) : (s.take m).flash = s.flash := rfl
@[simp] theorem State.take_wall (s : State) (m : Msg) : (s.take m).wall = s.wall := rfl
@[simp] theorem State.take_logN (s : State) (m : Msg) : (s.take m).logN = s.logN := rfl
@[simp] theorem State.take_cq (s : State) (m : Msg) : (s.take m).cq = s.cq := rfl
@[simp] theorem State.take_mgmt (s : State) (m : Msg) : (s.take m).mgmt = s.mgmt := rfl
@[simp] theorem State.take_boot (s : State) (m : Msg) : (s.take m).boot = s.boot := rfl
@[simp] theorem State.take_ring (s : State) (m : Msg) : (s.take m).ring = s.ring := rfl
@[simp] theorem State.take_modl (s : State) (m : Msg) : (s.take m).modl = s.modl := rfl

@[simp] theorem State.raiseIrq_pending (s : State) (n : Nat) : (s.raiseIrq n).pending = s.pending := rfl
@[simp] theorem State.raiseIrq_now (s : State) (n : Nat) : (s.raiseIrq n).now = s.now := rfl
@[simp] theorem State.raiseIrq_regs (s : State) (n : Nat) : (s.raiseIrq n).regs = s.regs := rfl
@[simp] theorem State.raiseIrq_latch (s : State) (n : Nat) : (s.raiseIrq n).latch = s.latch := rfl
@[simp] theorem State.raiseIrq_freeN (s : State) (n : Nat) : (s.raiseIrq n).freeN = s.freeN := rfl
@[simp] theorem State.raiseIrq_drbgN (s : State) (n : Nat) : (s.raiseIrq n).drbgN = s.drbgN := rfl
@[simp] theorem State.raiseIrq_out (s : State) (n : Nat) : (s.raiseIrq n).out = s.out := rfl
@[simp] theorem State.raiseIrq_off (s : State) (n : Nat) : (s.raiseIrq n).off = s.off := rfl
@[simp] theorem State.raiseIrq_log (s : State) (n : Nat) : (s.raiseIrq n).log = s.log := rfl
@[simp] theorem State.raiseIrq_nodes (s : State) (n : Nat) : (s.raiseIrq n).nodes = s.nodes := rfl
@[simp] theorem State.raiseIrq_mem (s : State) (n : Nat) : (s.raiseIrq n).mem = s.mem := rfl
@[simp] theorem State.raiseIrq_poison (s : State) (n : Nat) : (s.raiseIrq n).poison = s.poison := rfl
@[simp] theorem State.raiseIrq_spns (s : State) (n : Nat) : (s.raiseIrq n).spns = s.spns := rfl
@[simp] theorem State.raiseIrq_seqr (s : State) (n : Nat) : (s.raiseIrq n).seqr = s.seqr := rfl
@[simp] theorem State.raiseIrq_chans (s : State) (n : Nat) : (s.raiseIrq n).chans = s.chans := rfl
@[simp] theorem State.raiseIrq_prot (s : State) (n : Nat) : (s.raiseIrq n).prot = s.prot := rfl
@[simp] theorem State.raiseIrq_domsOff (s : State) (n : Nat) : (s.raiseIrq n).domsOff = s.domsOff := rfl
@[simp] theorem State.raiseIrq_fab (s : State) (n : Nat) : (s.raiseIrq n).fab = s.fab := rfl
@[simp] theorem State.raiseIrq_coll (s : State) (n : Nat) : (s.raiseIrq n).coll = s.coll := rfl
@[simp] theorem State.raiseIrq_clk (s : State) (n : Nat) : (s.raiseIrq n).clk = s.clk := rfl
@[simp] theorem State.raiseIrq_pwr (s : State) (n : Nat) : (s.raiseIrq n).pwr = s.pwr := rfl
@[simp] theorem State.raiseIrq_hlth (s : State) (n : Nat) : (s.raiseIrq n).hlth = s.hlth := rfl
@[simp] theorem State.raiseIrq_rst (s : State) (n : Nat) : (s.raiseIrq n).rst = s.rst := rfl
@[simp] theorem State.raiseIrq_fuse (s : State) (n : Nat) : (s.raiseIrq n).fuse = s.fuse := rfl
@[simp] theorem State.raiseIrq_reel (s : State) (n : Nat) : (s.raiseIrq n).reel = s.reel := rfl
@[simp] theorem State.raiseIrq_flash (s : State) (n : Nat) : (s.raiseIrq n).flash = s.flash := rfl
@[simp] theorem State.raiseIrq_wall (s : State) (n : Nat) : (s.raiseIrq n).wall = s.wall := rfl
@[simp] theorem State.raiseIrq_logN (s : State) (n : Nat) : (s.raiseIrq n).logN = s.logN := rfl
@[simp] theorem State.raiseIrq_cq (s : State) (n : Nat) : (s.raiseIrq n).cq = s.cq := rfl
@[simp] theorem State.raiseIrq_mgmt (s : State) (n : Nat) : (s.raiseIrq n).mgmt = s.mgmt := rfl
@[simp] theorem State.raiseIrq_boot (s : State) (n : Nat) : (s.raiseIrq n).boot = s.boot := rfl
@[simp] theorem State.raiseIrq_ring (s : State) (n : Nat) : (s.raiseIrq n).ring = s.ring := rfl
@[simp] theorem State.raiseIrq_modl (s : State) (n : Nat) : (s.raiseIrq n).modl = s.modl := rfl

@[simp] theorem State.clearIrq_pending (s : State) (n : Nat) : (s.clearIrq n).pending = s.pending := rfl
@[simp] theorem State.clearIrq_now (s : State) (n : Nat) : (s.clearIrq n).now = s.now := rfl
@[simp] theorem State.clearIrq_regs (s : State) (n : Nat) : (s.clearIrq n).regs = s.regs := rfl
@[simp] theorem State.clearIrq_latch (s : State) (n : Nat) : (s.clearIrq n).latch = s.latch := rfl
@[simp] theorem State.clearIrq_freeN (s : State) (n : Nat) : (s.clearIrq n).freeN = s.freeN := rfl
@[simp] theorem State.clearIrq_drbgN (s : State) (n : Nat) : (s.clearIrq n).drbgN = s.drbgN := rfl
@[simp] theorem State.clearIrq_out (s : State) (n : Nat) : (s.clearIrq n).out = s.out := rfl
@[simp] theorem State.clearIrq_off (s : State) (n : Nat) : (s.clearIrq n).off = s.off := rfl
@[simp] theorem State.clearIrq_log (s : State) (n : Nat) : (s.clearIrq n).log = s.log := rfl
@[simp] theorem State.clearIrq_nodes (s : State) (n : Nat) : (s.clearIrq n).nodes = s.nodes := rfl
@[simp] theorem State.clearIrq_mem (s : State) (n : Nat) : (s.clearIrq n).mem = s.mem := rfl
@[simp] theorem State.clearIrq_poison (s : State) (n : Nat) : (s.clearIrq n).poison = s.poison := rfl
@[simp] theorem State.clearIrq_spns (s : State) (n : Nat) : (s.clearIrq n).spns = s.spns := rfl
@[simp] theorem State.clearIrq_seqr (s : State) (n : Nat) : (s.clearIrq n).seqr = s.seqr := rfl
@[simp] theorem State.clearIrq_chans (s : State) (n : Nat) : (s.clearIrq n).chans = s.chans := rfl
@[simp] theorem State.clearIrq_prot (s : State) (n : Nat) : (s.clearIrq n).prot = s.prot := rfl
@[simp] theorem State.clearIrq_domsOff (s : State) (n : Nat) : (s.clearIrq n).domsOff = s.domsOff := rfl
@[simp] theorem State.clearIrq_fab (s : State) (n : Nat) : (s.clearIrq n).fab = s.fab := rfl
@[simp] theorem State.clearIrq_coll (s : State) (n : Nat) : (s.clearIrq n).coll = s.coll := rfl
@[simp] theorem State.clearIrq_clk (s : State) (n : Nat) : (s.clearIrq n).clk = s.clk := rfl
@[simp] theorem State.clearIrq_pwr (s : State) (n : Nat) : (s.clearIrq n).pwr = s.pwr := rfl
@[simp] theorem State.clearIrq_hlth (s : State) (n : Nat) : (s.clearIrq n).hlth = s.hlth := rfl
@[simp] theorem State.clearIrq_rst (s : State) (n : Nat) : (s.clearIrq n).rst = s.rst := rfl
@[simp] theorem State.clearIrq_fuse (s : State) (n : Nat) : (s.clearIrq n).fuse = s.fuse := rfl
@[simp] theorem State.clearIrq_reel (s : State) (n : Nat) : (s.clearIrq n).reel = s.reel := rfl
@[simp] theorem State.clearIrq_flash (s : State) (n : Nat) : (s.clearIrq n).flash = s.flash := rfl
@[simp] theorem State.clearIrq_wall (s : State) (n : Nat) : (s.clearIrq n).wall = s.wall := rfl
@[simp] theorem State.clearIrq_logN (s : State) (n : Nat) : (s.clearIrq n).logN = s.logN := rfl
@[simp] theorem State.clearIrq_cq (s : State) (n : Nat) : (s.clearIrq n).cq = s.cq := rfl
@[simp] theorem State.clearIrq_mgmt (s : State) (n : Nat) : (s.clearIrq n).mgmt = s.mgmt := rfl
@[simp] theorem State.clearIrq_boot (s : State) (n : Nat) : (s.clearIrq n).boot = s.boot := rfl
@[simp] theorem State.clearIrq_ring (s : State) (n : Nat) : (s.clearIrq n).ring = s.ring := rfl
@[simp] theorem State.clearIrq_modl (s : State) (n : Nat) : (s.clearIrq n).modl = s.modl := rfl

@[simp] theorem State.setSpn_pending (s : State) (ps : Nat) (x : Spn) : (s.setSpn ps x).pending = s.pending := rfl
@[simp] theorem State.setSpn_now (s : State) (ps : Nat) (x : Spn) : (s.setSpn ps x).now = s.now := rfl
@[simp] theorem State.setSpn_regs (s : State) (ps : Nat) (x : Spn) : (s.setSpn ps x).regs = s.regs := rfl
@[simp] theorem State.setSpn_latch (s : State) (ps : Nat) (x : Spn) : (s.setSpn ps x).latch = s.latch := rfl
@[simp] theorem State.setSpn_freeN (s : State) (ps : Nat) (x : Spn) : (s.setSpn ps x).freeN = s.freeN := rfl
@[simp] theorem State.setSpn_drbgN (s : State) (ps : Nat) (x : Spn) : (s.setSpn ps x).drbgN = s.drbgN := rfl
@[simp] theorem State.setSpn_out (s : State) (ps : Nat) (x : Spn) : (s.setSpn ps x).out = s.out := rfl
@[simp] theorem State.setSpn_off (s : State) (ps : Nat) (x : Spn) : (s.setSpn ps x).off = s.off := rfl
@[simp] theorem State.setSpn_log (s : State) (ps : Nat) (x : Spn) : (s.setSpn ps x).log = s.log := rfl
@[simp] theorem State.setSpn_nodes (s : State) (ps : Nat) (x : Spn) : (s.setSpn ps x).nodes = s.nodes := rfl
@[simp] theorem State.setSpn_mem (s : State) (ps : Nat) (x : Spn) : (s.setSpn ps x).mem = s.mem := rfl
@[simp] theorem State.setSpn_poison (s : State) (ps : Nat) (x : Spn) : (s.setSpn ps x).poison = s.poison := rfl
@[simp] theorem State.setSpn_seqr (s : State) (ps : Nat) (x : Spn) : (s.setSpn ps x).seqr = s.seqr := rfl
@[simp] theorem State.setSpn_chans (s : State) (ps : Nat) (x : Spn) : (s.setSpn ps x).chans = s.chans := rfl
@[simp] theorem State.setSpn_prot (s : State) (ps : Nat) (x : Spn) : (s.setSpn ps x).prot = s.prot := rfl
@[simp] theorem State.setSpn_domsOff (s : State) (ps : Nat) (x : Spn) : (s.setSpn ps x).domsOff = s.domsOff := rfl
@[simp] theorem State.setSpn_irq (s : State) (ps : Nat) (x : Spn) : (s.setSpn ps x).irq = s.irq := rfl
@[simp] theorem State.setSpn_fab (s : State) (ps : Nat) (x : Spn) : (s.setSpn ps x).fab = s.fab := rfl
@[simp] theorem State.setSpn_coll (s : State) (ps : Nat) (x : Spn) : (s.setSpn ps x).coll = s.coll := rfl
@[simp] theorem State.setSpn_clk (s : State) (ps : Nat) (x : Spn) : (s.setSpn ps x).clk = s.clk := rfl
@[simp] theorem State.setSpn_pwr (s : State) (ps : Nat) (x : Spn) : (s.setSpn ps x).pwr = s.pwr := rfl
@[simp] theorem State.setSpn_hlth (s : State) (ps : Nat) (x : Spn) : (s.setSpn ps x).hlth = s.hlth := rfl
@[simp] theorem State.setSpn_rst (s : State) (ps : Nat) (x : Spn) : (s.setSpn ps x).rst = s.rst := rfl
@[simp] theorem State.setSpn_fuse (s : State) (ps : Nat) (x : Spn) : (s.setSpn ps x).fuse = s.fuse := rfl
@[simp] theorem State.setSpn_reel (s : State) (ps : Nat) (x : Spn) : (s.setSpn ps x).reel = s.reel := rfl
@[simp] theorem State.setSpn_flash (s : State) (ps : Nat) (x : Spn) : (s.setSpn ps x).flash = s.flash := rfl
@[simp] theorem State.setSpn_wall (s : State) (ps : Nat) (x : Spn) : (s.setSpn ps x).wall = s.wall := rfl
@[simp] theorem State.setSpn_logN (s : State) (ps : Nat) (x : Spn) : (s.setSpn ps x).logN = s.logN := rfl
@[simp] theorem State.setSpn_cq (s : State) (ps : Nat) (x : Spn) : (s.setSpn ps x).cq = s.cq := rfl
@[simp] theorem State.setSpn_mgmt (s : State) (ps : Nat) (x : Spn) : (s.setSpn ps x).mgmt = s.mgmt := rfl
@[simp] theorem State.setSpn_boot (s : State) (ps : Nat) (x : Spn) : (s.setSpn ps x).boot = s.boot := rfl
@[simp] theorem State.setSpn_ring (s : State) (ps : Nat) (x : Spn) : (s.setSpn ps x).ring = s.ring := rfl
@[simp] theorem State.setSpn_modl (s : State) (ps : Nat) (x : Spn) : (s.setSpn ps x).modl = s.modl := rfl

@[simp] theorem State.modSpn_pending (s : State) (ps : Nat) (f : Spn → Spn) : (s.modSpn ps f).pending = s.pending := rfl
@[simp] theorem State.modSpn_now (s : State) (ps : Nat) (f : Spn → Spn) : (s.modSpn ps f).now = s.now := rfl
@[simp] theorem State.modSpn_regs (s : State) (ps : Nat) (f : Spn → Spn) : (s.modSpn ps f).regs = s.regs := rfl
@[simp] theorem State.modSpn_latch (s : State) (ps : Nat) (f : Spn → Spn) : (s.modSpn ps f).latch = s.latch := rfl
@[simp] theorem State.modSpn_freeN (s : State) (ps : Nat) (f : Spn → Spn) : (s.modSpn ps f).freeN = s.freeN := rfl
@[simp] theorem State.modSpn_drbgN (s : State) (ps : Nat) (f : Spn → Spn) : (s.modSpn ps f).drbgN = s.drbgN := rfl
@[simp] theorem State.modSpn_out (s : State) (ps : Nat) (f : Spn → Spn) : (s.modSpn ps f).out = s.out := rfl
@[simp] theorem State.modSpn_off (s : State) (ps : Nat) (f : Spn → Spn) : (s.modSpn ps f).off = s.off := rfl
@[simp] theorem State.modSpn_log (s : State) (ps : Nat) (f : Spn → Spn) : (s.modSpn ps f).log = s.log := rfl
@[simp] theorem State.modSpn_nodes (s : State) (ps : Nat) (f : Spn → Spn) : (s.modSpn ps f).nodes = s.nodes := rfl
@[simp] theorem State.modSpn_mem (s : State) (ps : Nat) (f : Spn → Spn) : (s.modSpn ps f).mem = s.mem := rfl
@[simp] theorem State.modSpn_poison (s : State) (ps : Nat) (f : Spn → Spn) : (s.modSpn ps f).poison = s.poison := rfl
@[simp] theorem State.modSpn_seqr (s : State) (ps : Nat) (f : Spn → Spn) : (s.modSpn ps f).seqr = s.seqr := rfl
@[simp] theorem State.modSpn_chans (s : State) (ps : Nat) (f : Spn → Spn) : (s.modSpn ps f).chans = s.chans := rfl
@[simp] theorem State.modSpn_prot (s : State) (ps : Nat) (f : Spn → Spn) : (s.modSpn ps f).prot = s.prot := rfl
@[simp] theorem State.modSpn_domsOff (s : State) (ps : Nat) (f : Spn → Spn) : (s.modSpn ps f).domsOff = s.domsOff := rfl
@[simp] theorem State.modSpn_irq (s : State) (ps : Nat) (f : Spn → Spn) : (s.modSpn ps f).irq = s.irq := rfl
@[simp] theorem State.modSpn_fab (s : State) (ps : Nat) (f : Spn → Spn) : (s.modSpn ps f).fab = s.fab := rfl
@[simp] theorem State.modSpn_coll (s : State) (ps : Nat) (f : Spn → Spn) : (s.modSpn ps f).coll = s.coll := rfl
@[simp] theorem State.modSpn_clk (s : State) (ps : Nat) (f : Spn → Spn) : (s.modSpn ps f).clk = s.clk := rfl
@[simp] theorem State.modSpn_pwr (s : State) (ps : Nat) (f : Spn → Spn) : (s.modSpn ps f).pwr = s.pwr := rfl
@[simp] theorem State.modSpn_hlth (s : State) (ps : Nat) (f : Spn → Spn) : (s.modSpn ps f).hlth = s.hlth := rfl
@[simp] theorem State.modSpn_rst (s : State) (ps : Nat) (f : Spn → Spn) : (s.modSpn ps f).rst = s.rst := rfl
@[simp] theorem State.modSpn_fuse (s : State) (ps : Nat) (f : Spn → Spn) : (s.modSpn ps f).fuse = s.fuse := rfl
@[simp] theorem State.modSpn_reel (s : State) (ps : Nat) (f : Spn → Spn) : (s.modSpn ps f).reel = s.reel := rfl
@[simp] theorem State.modSpn_flash (s : State) (ps : Nat) (f : Spn → Spn) : (s.modSpn ps f).flash = s.flash := rfl
@[simp] theorem State.modSpn_wall (s : State) (ps : Nat) (f : Spn → Spn) : (s.modSpn ps f).wall = s.wall := rfl
@[simp] theorem State.modSpn_logN (s : State) (ps : Nat) (f : Spn → Spn) : (s.modSpn ps f).logN = s.logN := rfl
@[simp] theorem State.modSpn_cq (s : State) (ps : Nat) (f : Spn → Spn) : (s.modSpn ps f).cq = s.cq := rfl
@[simp] theorem State.modSpn_mgmt (s : State) (ps : Nat) (f : Spn → Spn) : (s.modSpn ps f).mgmt = s.mgmt := rfl
@[simp] theorem State.modSpn_boot (s : State) (ps : Nat) (f : Spn → Spn) : (s.modSpn ps f).boot = s.boot := rfl
@[simp] theorem State.modSpn_ring (s : State) (ps : Nat) (f : Spn → Spn) : (s.modSpn ps f).ring = s.ring := rfl
@[simp] theorem State.modSpn_modl (s : State) (ps : Nat) (f : Spn → Spn) : (s.modSpn ps f).modl = s.modl := rfl

@[simp] theorem State.setSpnState_pending (s : State) (ps c : Nat) : (s.setSpnState ps c).pending = s.pending := rfl
@[simp] theorem State.setSpnState_now (s : State) (ps c : Nat) : (s.setSpnState ps c).now = s.now := rfl
@[simp] theorem State.setSpnState_latch (s : State) (ps c : Nat) : (s.setSpnState ps c).latch = s.latch := rfl
@[simp] theorem State.setSpnState_freeN (s : State) (ps c : Nat) : (s.setSpnState ps c).freeN = s.freeN := rfl
@[simp] theorem State.setSpnState_drbgN (s : State) (ps c : Nat) : (s.setSpnState ps c).drbgN = s.drbgN := rfl
@[simp] theorem State.setSpnState_out (s : State) (ps c : Nat) : (s.setSpnState ps c).out = s.out := rfl
@[simp] theorem State.setSpnState_off (s : State) (ps c : Nat) : (s.setSpnState ps c).off = s.off := rfl
@[simp] theorem State.setSpnState_log (s : State) (ps c : Nat) : (s.setSpnState ps c).log = s.log := rfl
@[simp] theorem State.setSpnState_nodes (s : State) (ps c : Nat) : (s.setSpnState ps c).nodes = s.nodes := rfl
@[simp] theorem State.setSpnState_mem (s : State) (ps c : Nat) : (s.setSpnState ps c).mem = s.mem := rfl
@[simp] theorem State.setSpnState_poison (s : State) (ps c : Nat) : (s.setSpnState ps c).poison = s.poison := rfl
@[simp] theorem State.setSpnState_spns (s : State) (ps c : Nat) : (s.setSpnState ps c).spns = s.spns := rfl
@[simp] theorem State.setSpnState_seqr (s : State) (ps c : Nat) : (s.setSpnState ps c).seqr = s.seqr := rfl
@[simp] theorem State.setSpnState_chans (s : State) (ps c : Nat) : (s.setSpnState ps c).chans = s.chans := rfl
@[simp] theorem State.setSpnState_prot (s : State) (ps c : Nat) : (s.setSpnState ps c).prot = s.prot := rfl
@[simp] theorem State.setSpnState_domsOff (s : State) (ps c : Nat) : (s.setSpnState ps c).domsOff = s.domsOff := rfl
@[simp] theorem State.setSpnState_irq (s : State) (ps c : Nat) : (s.setSpnState ps c).irq = s.irq := rfl
@[simp] theorem State.setSpnState_fab (s : State) (ps c : Nat) : (s.setSpnState ps c).fab = s.fab := rfl
@[simp] theorem State.setSpnState_coll (s : State) (ps c : Nat) : (s.setSpnState ps c).coll = s.coll := rfl
@[simp] theorem State.setSpnState_clk (s : State) (ps c : Nat) : (s.setSpnState ps c).clk = s.clk := rfl
@[simp] theorem State.setSpnState_pwr (s : State) (ps c : Nat) : (s.setSpnState ps c).pwr = s.pwr := rfl
@[simp] theorem State.setSpnState_hlth (s : State) (ps c : Nat) : (s.setSpnState ps c).hlth = s.hlth := rfl
@[simp] theorem State.setSpnState_rst (s : State) (ps c : Nat) : (s.setSpnState ps c).rst = s.rst := rfl
@[simp] theorem State.setSpnState_fuse (s : State) (ps c : Nat) : (s.setSpnState ps c).fuse = s.fuse := rfl
@[simp] theorem State.setSpnState_reel (s : State) (ps c : Nat) : (s.setSpnState ps c).reel = s.reel := rfl
@[simp] theorem State.setSpnState_flash (s : State) (ps c : Nat) : (s.setSpnState ps c).flash = s.flash := rfl
@[simp] theorem State.setSpnState_wall (s : State) (ps c : Nat) : (s.setSpnState ps c).wall = s.wall := rfl
@[simp] theorem State.setSpnState_logN (s : State) (ps c : Nat) : (s.setSpnState ps c).logN = s.logN := rfl
@[simp] theorem State.setSpnState_cq (s : State) (ps c : Nat) : (s.setSpnState ps c).cq = s.cq := rfl
@[simp] theorem State.setSpnState_mgmt (s : State) (ps c : Nat) : (s.setSpnState ps c).mgmt = s.mgmt := rfl
@[simp] theorem State.setSpnState_boot (s : State) (ps c : Nat) : (s.setSpnState ps c).boot = s.boot := rfl
@[simp] theorem State.setSpnState_ring (s : State) (ps c : Nat) : (s.setSpnState ps c).ring = s.ring := rfl
@[simp] theorem State.setSpnState_modl (s : State) (ps c : Nat) : (s.setSpnState ps c).modl = s.modl := rfl

@[simp] theorem State.setSlot_pending (s : State) (n : Nat) (x : Option Slot) : (s.setSlot n x).pending = s.pending := rfl
@[simp] theorem State.setSlot_now (s : State) (n : Nat) (x : Option Slot) : (s.setSlot n x).now = s.now := rfl
@[simp] theorem State.setSlot_regs (s : State) (n : Nat) (x : Option Slot) : (s.setSlot n x).regs = s.regs := rfl
@[simp] theorem State.setSlot_latch (s : State) (n : Nat) (x : Option Slot) : (s.setSlot n x).latch = s.latch := rfl
@[simp] theorem State.setSlot_freeN (s : State) (n : Nat) (x : Option Slot) : (s.setSlot n x).freeN = s.freeN := rfl
@[simp] theorem State.setSlot_drbgN (s : State) (n : Nat) (x : Option Slot) : (s.setSlot n x).drbgN = s.drbgN := rfl
@[simp] theorem State.setSlot_out (s : State) (n : Nat) (x : Option Slot) : (s.setSlot n x).out = s.out := rfl
@[simp] theorem State.setSlot_off (s : State) (n : Nat) (x : Option Slot) : (s.setSlot n x).off = s.off := rfl
@[simp] theorem State.setSlot_log (s : State) (n : Nat) (x : Option Slot) : (s.setSlot n x).log = s.log := rfl
@[simp] theorem State.setSlot_nodes (s : State) (n : Nat) (x : Option Slot) : (s.setSlot n x).nodes = s.nodes := rfl
@[simp] theorem State.setSlot_mem (s : State) (n : Nat) (x : Option Slot) : (s.setSlot n x).mem = s.mem := rfl
@[simp] theorem State.setSlot_poison (s : State) (n : Nat) (x : Option Slot) : (s.setSlot n x).poison = s.poison := rfl
@[simp] theorem State.setSlot_spns (s : State) (n : Nat) (x : Option Slot) : (s.setSlot n x).spns = s.spns := rfl
@[simp] theorem State.setSlot_chans (s : State) (n : Nat) (x : Option Slot) : (s.setSlot n x).chans = s.chans := rfl
@[simp] theorem State.setSlot_prot (s : State) (n : Nat) (x : Option Slot) : (s.setSlot n x).prot = s.prot := rfl
@[simp] theorem State.setSlot_domsOff (s : State) (n : Nat) (x : Option Slot) : (s.setSlot n x).domsOff = s.domsOff := rfl
@[simp] theorem State.setSlot_irq (s : State) (n : Nat) (x : Option Slot) : (s.setSlot n x).irq = s.irq := rfl
@[simp] theorem State.setSlot_fab (s : State) (n : Nat) (x : Option Slot) : (s.setSlot n x).fab = s.fab := rfl
@[simp] theorem State.setSlot_coll (s : State) (n : Nat) (x : Option Slot) : (s.setSlot n x).coll = s.coll := rfl
@[simp] theorem State.setSlot_clk (s : State) (n : Nat) (x : Option Slot) : (s.setSlot n x).clk = s.clk := rfl
@[simp] theorem State.setSlot_pwr (s : State) (n : Nat) (x : Option Slot) : (s.setSlot n x).pwr = s.pwr := rfl
@[simp] theorem State.setSlot_hlth (s : State) (n : Nat) (x : Option Slot) : (s.setSlot n x).hlth = s.hlth := rfl
@[simp] theorem State.setSlot_rst (s : State) (n : Nat) (x : Option Slot) : (s.setSlot n x).rst = s.rst := rfl
@[simp] theorem State.setSlot_fuse (s : State) (n : Nat) (x : Option Slot) : (s.setSlot n x).fuse = s.fuse := rfl
@[simp] theorem State.setSlot_reel (s : State) (n : Nat) (x : Option Slot) : (s.setSlot n x).reel = s.reel := rfl
@[simp] theorem State.setSlot_flash (s : State) (n : Nat) (x : Option Slot) : (s.setSlot n x).flash = s.flash := rfl
@[simp] theorem State.setSlot_wall (s : State) (n : Nat) (x : Option Slot) : (s.setSlot n x).wall = s.wall := rfl
@[simp] theorem State.setSlot_logN (s : State) (n : Nat) (x : Option Slot) : (s.setSlot n x).logN = s.logN := rfl
@[simp] theorem State.setSlot_cq (s : State) (n : Nat) (x : Option Slot) : (s.setSlot n x).cq = s.cq := rfl
@[simp] theorem State.setSlot_mgmt (s : State) (n : Nat) (x : Option Slot) : (s.setSlot n x).mgmt = s.mgmt := rfl
@[simp] theorem State.setSlot_boot (s : State) (n : Nat) (x : Option Slot) : (s.setSlot n x).boot = s.boot := rfl
@[simp] theorem State.setSlot_ring (s : State) (n : Nat) (x : Option Slot) : (s.setSlot n x).ring = s.ring := rfl
@[simp] theorem State.setSlot_modl (s : State) (n : Nat) (x : Option Slot) : (s.setSlot n x).modl = s.modl := rfl

@[simp] theorem State.setChan_pending (s : State) (ch : Nat) (c : Chan) : (s.setChan ch c).pending = s.pending := rfl
@[simp] theorem State.setChan_now (s : State) (ch : Nat) (c : Chan) : (s.setChan ch c).now = s.now := rfl
@[simp] theorem State.setChan_regs (s : State) (ch : Nat) (c : Chan) : (s.setChan ch c).regs = s.regs := rfl
@[simp] theorem State.setChan_latch (s : State) (ch : Nat) (c : Chan) : (s.setChan ch c).latch = s.latch := rfl
@[simp] theorem State.setChan_freeN (s : State) (ch : Nat) (c : Chan) : (s.setChan ch c).freeN = s.freeN := rfl
@[simp] theorem State.setChan_drbgN (s : State) (ch : Nat) (c : Chan) : (s.setChan ch c).drbgN = s.drbgN := rfl
@[simp] theorem State.setChan_out (s : State) (ch : Nat) (c : Chan) : (s.setChan ch c).out = s.out := rfl
@[simp] theorem State.setChan_off (s : State) (ch : Nat) (c : Chan) : (s.setChan ch c).off = s.off := rfl
@[simp] theorem State.setChan_log (s : State) (ch : Nat) (c : Chan) : (s.setChan ch c).log = s.log := rfl
@[simp] theorem State.setChan_nodes (s : State) (ch : Nat) (c : Chan) : (s.setChan ch c).nodes = s.nodes := rfl
@[simp] theorem State.setChan_mem (s : State) (ch : Nat) (c : Chan) : (s.setChan ch c).mem = s.mem := rfl
@[simp] theorem State.setChan_poison (s : State) (ch : Nat) (c : Chan) : (s.setChan ch c).poison = s.poison := rfl
@[simp] theorem State.setChan_spns (s : State) (ch : Nat) (c : Chan) : (s.setChan ch c).spns = s.spns := rfl
@[simp] theorem State.setChan_seqr (s : State) (ch : Nat) (c : Chan) : (s.setChan ch c).seqr = s.seqr := rfl
@[simp] theorem State.setChan_prot (s : State) (ch : Nat) (c : Chan) : (s.setChan ch c).prot = s.prot := rfl
@[simp] theorem State.setChan_domsOff (s : State) (ch : Nat) (c : Chan) : (s.setChan ch c).domsOff = s.domsOff := rfl
@[simp] theorem State.setChan_irq (s : State) (ch : Nat) (c : Chan) : (s.setChan ch c).irq = s.irq := rfl
@[simp] theorem State.setChan_fab (s : State) (ch : Nat) (c : Chan) : (s.setChan ch c).fab = s.fab := rfl
@[simp] theorem State.setChan_coll (s : State) (ch : Nat) (c : Chan) : (s.setChan ch c).coll = s.coll := rfl
@[simp] theorem State.setChan_clk (s : State) (ch : Nat) (c : Chan) : (s.setChan ch c).clk = s.clk := rfl
@[simp] theorem State.setChan_pwr (s : State) (ch : Nat) (c : Chan) : (s.setChan ch c).pwr = s.pwr := rfl
@[simp] theorem State.setChan_hlth (s : State) (ch : Nat) (c : Chan) : (s.setChan ch c).hlth = s.hlth := rfl
@[simp] theorem State.setChan_rst (s : State) (ch : Nat) (c : Chan) : (s.setChan ch c).rst = s.rst := rfl
@[simp] theorem State.setChan_fuse (s : State) (ch : Nat) (c : Chan) : (s.setChan ch c).fuse = s.fuse := rfl
@[simp] theorem State.setChan_reel (s : State) (ch : Nat) (c : Chan) : (s.setChan ch c).reel = s.reel := rfl
@[simp] theorem State.setChan_flash (s : State) (ch : Nat) (c : Chan) : (s.setChan ch c).flash = s.flash := rfl
@[simp] theorem State.setChan_wall (s : State) (ch : Nat) (c : Chan) : (s.setChan ch c).wall = s.wall := rfl
@[simp] theorem State.setChan_logN (s : State) (ch : Nat) (c : Chan) : (s.setChan ch c).logN = s.logN := rfl
@[simp] theorem State.setChan_cq (s : State) (ch : Nat) (c : Chan) : (s.setChan ch c).cq = s.cq := rfl
@[simp] theorem State.setChan_mgmt (s : State) (ch : Nat) (c : Chan) : (s.setChan ch c).mgmt = s.mgmt := rfl
@[simp] theorem State.setChan_boot (s : State) (ch : Nat) (c : Chan) : (s.setChan ch c).boot = s.boot := rfl
@[simp] theorem State.setChan_ring (s : State) (ch : Nat) (c : Chan) : (s.setChan ch c).ring = s.ring := rfl
@[simp] theorem State.setChan_modl (s : State) (ch : Nat) (c : Chan) : (s.setChan ch c).modl = s.modl := rfl

@[simp] theorem State.setByte_pending (s : State) (k : Nat) (v : Byte) : (s.setByte k v).pending = s.pending := rfl
@[simp] theorem State.setByte_now (s : State) (k : Nat) (v : Byte) : (s.setByte k v).now = s.now := rfl
@[simp] theorem State.setByte_regs (s : State) (k : Nat) (v : Byte) : (s.setByte k v).regs = s.regs := rfl
@[simp] theorem State.setByte_latch (s : State) (k : Nat) (v : Byte) : (s.setByte k v).latch = s.latch := rfl
@[simp] theorem State.setByte_freeN (s : State) (k : Nat) (v : Byte) : (s.setByte k v).freeN = s.freeN := rfl
@[simp] theorem State.setByte_drbgN (s : State) (k : Nat) (v : Byte) : (s.setByte k v).drbgN = s.drbgN := rfl
@[simp] theorem State.setByte_out (s : State) (k : Nat) (v : Byte) : (s.setByte k v).out = s.out := rfl
@[simp] theorem State.setByte_off (s : State) (k : Nat) (v : Byte) : (s.setByte k v).off = s.off := rfl
@[simp] theorem State.setByte_log (s : State) (k : Nat) (v : Byte) : (s.setByte k v).log = s.log := rfl
@[simp] theorem State.setByte_nodes (s : State) (k : Nat) (v : Byte) : (s.setByte k v).nodes = s.nodes := rfl
@[simp] theorem State.setByte_poison (s : State) (k : Nat) (v : Byte) : (s.setByte k v).poison = s.poison := rfl
@[simp] theorem State.setByte_spns (s : State) (k : Nat) (v : Byte) : (s.setByte k v).spns = s.spns := rfl
@[simp] theorem State.setByte_seqr (s : State) (k : Nat) (v : Byte) : (s.setByte k v).seqr = s.seqr := rfl
@[simp] theorem State.setByte_chans (s : State) (k : Nat) (v : Byte) : (s.setByte k v).chans = s.chans := rfl
@[simp] theorem State.setByte_prot (s : State) (k : Nat) (v : Byte) : (s.setByte k v).prot = s.prot := rfl
@[simp] theorem State.setByte_domsOff (s : State) (k : Nat) (v : Byte) : (s.setByte k v).domsOff = s.domsOff := rfl
@[simp] theorem State.setByte_irq (s : State) (k : Nat) (v : Byte) : (s.setByte k v).irq = s.irq := rfl
@[simp] theorem State.setByte_fab (s : State) (k : Nat) (v : Byte) : (s.setByte k v).fab = s.fab := rfl
@[simp] theorem State.setByte_coll (s : State) (k : Nat) (v : Byte) : (s.setByte k v).coll = s.coll := rfl
@[simp] theorem State.setByte_clk (s : State) (k : Nat) (v : Byte) : (s.setByte k v).clk = s.clk := rfl
@[simp] theorem State.setByte_pwr (s : State) (k : Nat) (v : Byte) : (s.setByte k v).pwr = s.pwr := rfl
@[simp] theorem State.setByte_hlth (s : State) (k : Nat) (v : Byte) : (s.setByte k v).hlth = s.hlth := rfl
@[simp] theorem State.setByte_rst (s : State) (k : Nat) (v : Byte) : (s.setByte k v).rst = s.rst := rfl
@[simp] theorem State.setByte_fuse (s : State) (k : Nat) (v : Byte) : (s.setByte k v).fuse = s.fuse := rfl
@[simp] theorem State.setByte_reel (s : State) (k : Nat) (v : Byte) : (s.setByte k v).reel = s.reel := rfl
@[simp] theorem State.setByte_flash (s : State) (k : Nat) (v : Byte) : (s.setByte k v).flash = s.flash := rfl
@[simp] theorem State.setByte_wall (s : State) (k : Nat) (v : Byte) : (s.setByte k v).wall = s.wall := rfl
@[simp] theorem State.setByte_logN (s : State) (k : Nat) (v : Byte) : (s.setByte k v).logN = s.logN := rfl
@[simp] theorem State.setByte_cq (s : State) (k : Nat) (v : Byte) : (s.setByte k v).cq = s.cq := rfl
@[simp] theorem State.setByte_mgmt (s : State) (k : Nat) (v : Byte) : (s.setByte k v).mgmt = s.mgmt := rfl
@[simp] theorem State.setByte_boot (s : State) (k : Nat) (v : Byte) : (s.setByte k v).boot = s.boot := rfl
@[simp] theorem State.setByte_ring (s : State) (k : Nat) (v : Byte) : (s.setByte k v).ring = s.ring := rfl
@[simp] theorem State.setByte_modl (s : State) (k : Nat) (v : Byte) : (s.setByte k v).modl = s.modl := rfl

@[simp] theorem State.putBytes_pending (s : State) (k : Nat) (l : List Byte) : (s.putBytes k l).pending = s.pending := rfl
@[simp] theorem State.putBytes_now (s : State) (k : Nat) (l : List Byte) : (s.putBytes k l).now = s.now := rfl
@[simp] theorem State.putBytes_regs (s : State) (k : Nat) (l : List Byte) : (s.putBytes k l).regs = s.regs := rfl
@[simp] theorem State.putBytes_latch (s : State) (k : Nat) (l : List Byte) : (s.putBytes k l).latch = s.latch := rfl
@[simp] theorem State.putBytes_freeN (s : State) (k : Nat) (l : List Byte) : (s.putBytes k l).freeN = s.freeN := rfl
@[simp] theorem State.putBytes_drbgN (s : State) (k : Nat) (l : List Byte) : (s.putBytes k l).drbgN = s.drbgN := rfl
@[simp] theorem State.putBytes_out (s : State) (k : Nat) (l : List Byte) : (s.putBytes k l).out = s.out := rfl
@[simp] theorem State.putBytes_off (s : State) (k : Nat) (l : List Byte) : (s.putBytes k l).off = s.off := rfl
@[simp] theorem State.putBytes_log (s : State) (k : Nat) (l : List Byte) : (s.putBytes k l).log = s.log := rfl
@[simp] theorem State.putBytes_nodes (s : State) (k : Nat) (l : List Byte) : (s.putBytes k l).nodes = s.nodes := rfl
@[simp] theorem State.putBytes_poison (s : State) (k : Nat) (l : List Byte) : (s.putBytes k l).poison = s.poison := rfl
@[simp] theorem State.putBytes_spns (s : State) (k : Nat) (l : List Byte) : (s.putBytes k l).spns = s.spns := rfl
@[simp] theorem State.putBytes_seqr (s : State) (k : Nat) (l : List Byte) : (s.putBytes k l).seqr = s.seqr := rfl
@[simp] theorem State.putBytes_chans (s : State) (k : Nat) (l : List Byte) : (s.putBytes k l).chans = s.chans := rfl
@[simp] theorem State.putBytes_prot (s : State) (k : Nat) (l : List Byte) : (s.putBytes k l).prot = s.prot := rfl
@[simp] theorem State.putBytes_domsOff (s : State) (k : Nat) (l : List Byte) : (s.putBytes k l).domsOff = s.domsOff := rfl
@[simp] theorem State.putBytes_irq (s : State) (k : Nat) (l : List Byte) : (s.putBytes k l).irq = s.irq := rfl
@[simp] theorem State.putBytes_fab (s : State) (k : Nat) (l : List Byte) : (s.putBytes k l).fab = s.fab := rfl
@[simp] theorem State.putBytes_coll (s : State) (k : Nat) (l : List Byte) : (s.putBytes k l).coll = s.coll := rfl
@[simp] theorem State.putBytes_clk (s : State) (k : Nat) (l : List Byte) : (s.putBytes k l).clk = s.clk := rfl
@[simp] theorem State.putBytes_pwr (s : State) (k : Nat) (l : List Byte) : (s.putBytes k l).pwr = s.pwr := rfl
@[simp] theorem State.putBytes_hlth (s : State) (k : Nat) (l : List Byte) : (s.putBytes k l).hlth = s.hlth := rfl
@[simp] theorem State.putBytes_rst (s : State) (k : Nat) (l : List Byte) : (s.putBytes k l).rst = s.rst := rfl
@[simp] theorem State.putBytes_fuse (s : State) (k : Nat) (l : List Byte) : (s.putBytes k l).fuse = s.fuse := rfl
@[simp] theorem State.putBytes_reel (s : State) (k : Nat) (l : List Byte) : (s.putBytes k l).reel = s.reel := rfl
@[simp] theorem State.putBytes_flash (s : State) (k : Nat) (l : List Byte) : (s.putBytes k l).flash = s.flash := rfl
@[simp] theorem State.putBytes_wall (s : State) (k : Nat) (l : List Byte) : (s.putBytes k l).wall = s.wall := rfl
@[simp] theorem State.putBytes_logN (s : State) (k : Nat) (l : List Byte) : (s.putBytes k l).logN = s.logN := rfl
@[simp] theorem State.putBytes_cq (s : State) (k : Nat) (l : List Byte) : (s.putBytes k l).cq = s.cq := rfl
@[simp] theorem State.putBytes_mgmt (s : State) (k : Nat) (l : List Byte) : (s.putBytes k l).mgmt = s.mgmt := rfl
@[simp] theorem State.putBytes_boot (s : State) (k : Nat) (l : List Byte) : (s.putBytes k l).boot = s.boot := rfl
@[simp] theorem State.putBytes_ring (s : State) (k : Nat) (l : List Byte) : (s.putBytes k l).ring = s.ring := rfl
@[simp] theorem State.putBytes_modl (s : State) (k : Nat) (l : List Byte) : (s.putBytes k l).modl = s.modl := rfl

@[simp] theorem State.setPoison_pending (s : State) (k : Nat) (p : Bool) : (s.setPoison k p).pending = s.pending := rfl
@[simp] theorem State.setPoison_now (s : State) (k : Nat) (p : Bool) : (s.setPoison k p).now = s.now := rfl
@[simp] theorem State.setPoison_regs (s : State) (k : Nat) (p : Bool) : (s.setPoison k p).regs = s.regs := rfl
@[simp] theorem State.setPoison_latch (s : State) (k : Nat) (p : Bool) : (s.setPoison k p).latch = s.latch := rfl
@[simp] theorem State.setPoison_freeN (s : State) (k : Nat) (p : Bool) : (s.setPoison k p).freeN = s.freeN := rfl
@[simp] theorem State.setPoison_drbgN (s : State) (k : Nat) (p : Bool) : (s.setPoison k p).drbgN = s.drbgN := rfl
@[simp] theorem State.setPoison_out (s : State) (k : Nat) (p : Bool) : (s.setPoison k p).out = s.out := rfl
@[simp] theorem State.setPoison_off (s : State) (k : Nat) (p : Bool) : (s.setPoison k p).off = s.off := rfl
@[simp] theorem State.setPoison_log (s : State) (k : Nat) (p : Bool) : (s.setPoison k p).log = s.log := rfl
@[simp] theorem State.setPoison_nodes (s : State) (k : Nat) (p : Bool) : (s.setPoison k p).nodes = s.nodes := rfl
@[simp] theorem State.setPoison_mem (s : State) (k : Nat) (p : Bool) : (s.setPoison k p).mem = s.mem := rfl
@[simp] theorem State.setPoison_spns (s : State) (k : Nat) (p : Bool) : (s.setPoison k p).spns = s.spns := rfl
@[simp] theorem State.setPoison_seqr (s : State) (k : Nat) (p : Bool) : (s.setPoison k p).seqr = s.seqr := rfl
@[simp] theorem State.setPoison_chans (s : State) (k : Nat) (p : Bool) : (s.setPoison k p).chans = s.chans := rfl
@[simp] theorem State.setPoison_prot (s : State) (k : Nat) (p : Bool) : (s.setPoison k p).prot = s.prot := rfl
@[simp] theorem State.setPoison_domsOff (s : State) (k : Nat) (p : Bool) : (s.setPoison k p).domsOff = s.domsOff := rfl
@[simp] theorem State.setPoison_irq (s : State) (k : Nat) (p : Bool) : (s.setPoison k p).irq = s.irq := rfl
@[simp] theorem State.setPoison_fab (s : State) (k : Nat) (p : Bool) : (s.setPoison k p).fab = s.fab := rfl
@[simp] theorem State.setPoison_coll (s : State) (k : Nat) (p : Bool) : (s.setPoison k p).coll = s.coll := rfl
@[simp] theorem State.setPoison_clk (s : State) (k : Nat) (p : Bool) : (s.setPoison k p).clk = s.clk := rfl
@[simp] theorem State.setPoison_pwr (s : State) (k : Nat) (p : Bool) : (s.setPoison k p).pwr = s.pwr := rfl
@[simp] theorem State.setPoison_hlth (s : State) (k : Nat) (p : Bool) : (s.setPoison k p).hlth = s.hlth := rfl
@[simp] theorem State.setPoison_rst (s : State) (k : Nat) (p : Bool) : (s.setPoison k p).rst = s.rst := rfl
@[simp] theorem State.setPoison_fuse (s : State) (k : Nat) (p : Bool) : (s.setPoison k p).fuse = s.fuse := rfl
@[simp] theorem State.setPoison_reel (s : State) (k : Nat) (p : Bool) : (s.setPoison k p).reel = s.reel := rfl
@[simp] theorem State.setPoison_flash (s : State) (k : Nat) (p : Bool) : (s.setPoison k p).flash = s.flash := rfl
@[simp] theorem State.setPoison_wall (s : State) (k : Nat) (p : Bool) : (s.setPoison k p).wall = s.wall := rfl
@[simp] theorem State.setPoison_logN (s : State) (k : Nat) (p : Bool) : (s.setPoison k p).logN = s.logN := rfl
@[simp] theorem State.setPoison_cq (s : State) (k : Nat) (p : Bool) : (s.setPoison k p).cq = s.cq := rfl
@[simp] theorem State.setPoison_mgmt (s : State) (k : Nat) (p : Bool) : (s.setPoison k p).mgmt = s.mgmt := rfl
@[simp] theorem State.setPoison_boot (s : State) (k : Nat) (p : Bool) : (s.setPoison k p).boot = s.boot := rfl
@[simp] theorem State.setPoison_ring (s : State) (k : Nat) (p : Bool) : (s.setPoison k p).ring = s.ring := rfl
@[simp] theorem State.setPoison_modl (s : State) (k : Nat) (p : Bool) : (s.setPoison k p).modl = s.modl := rfl

@[simp] theorem State.clearKeys_pending (s : State) (lo hi : Nat) : (s.clearKeys lo hi).pending = s.pending := rfl
@[simp] theorem State.clearKeys_now (s : State) (lo hi : Nat) : (s.clearKeys lo hi).now = s.now := rfl
@[simp] theorem State.clearKeys_regs (s : State) (lo hi : Nat) : (s.clearKeys lo hi).regs = s.regs := rfl
@[simp] theorem State.clearKeys_latch (s : State) (lo hi : Nat) : (s.clearKeys lo hi).latch = s.latch := rfl
@[simp] theorem State.clearKeys_freeN (s : State) (lo hi : Nat) : (s.clearKeys lo hi).freeN = s.freeN := rfl
@[simp] theorem State.clearKeys_drbgN (s : State) (lo hi : Nat) : (s.clearKeys lo hi).drbgN = s.drbgN := rfl
@[simp] theorem State.clearKeys_out (s : State) (lo hi : Nat) : (s.clearKeys lo hi).out = s.out := rfl
@[simp] theorem State.clearKeys_off (s : State) (lo hi : Nat) : (s.clearKeys lo hi).off = s.off := rfl
@[simp] theorem State.clearKeys_log (s : State) (lo hi : Nat) : (s.clearKeys lo hi).log = s.log := rfl
@[simp] theorem State.clearKeys_nodes (s : State) (lo hi : Nat) : (s.clearKeys lo hi).nodes = s.nodes := rfl
@[simp] theorem State.clearKeys_spns (s : State) (lo hi : Nat) : (s.clearKeys lo hi).spns = s.spns := rfl
@[simp] theorem State.clearKeys_seqr (s : State) (lo hi : Nat) : (s.clearKeys lo hi).seqr = s.seqr := rfl
@[simp] theorem State.clearKeys_chans (s : State) (lo hi : Nat) : (s.clearKeys lo hi).chans = s.chans := rfl
@[simp] theorem State.clearKeys_prot (s : State) (lo hi : Nat) : (s.clearKeys lo hi).prot = s.prot := rfl
@[simp] theorem State.clearKeys_domsOff (s : State) (lo hi : Nat) : (s.clearKeys lo hi).domsOff = s.domsOff := rfl
@[simp] theorem State.clearKeys_irq (s : State) (lo hi : Nat) : (s.clearKeys lo hi).irq = s.irq := rfl
@[simp] theorem State.clearKeys_fab (s : State) (lo hi : Nat) : (s.clearKeys lo hi).fab = s.fab := rfl
@[simp] theorem State.clearKeys_coll (s : State) (lo hi : Nat) : (s.clearKeys lo hi).coll = s.coll := rfl
@[simp] theorem State.clearKeys_clk (s : State) (lo hi : Nat) : (s.clearKeys lo hi).clk = s.clk := rfl
@[simp] theorem State.clearKeys_pwr (s : State) (lo hi : Nat) : (s.clearKeys lo hi).pwr = s.pwr := rfl
@[simp] theorem State.clearKeys_hlth (s : State) (lo hi : Nat) : (s.clearKeys lo hi).hlth = s.hlth := rfl
@[simp] theorem State.clearKeys_rst (s : State) (lo hi : Nat) : (s.clearKeys lo hi).rst = s.rst := rfl
@[simp] theorem State.clearKeys_fuse (s : State) (lo hi : Nat) : (s.clearKeys lo hi).fuse = s.fuse := rfl
@[simp] theorem State.clearKeys_reel (s : State) (lo hi : Nat) : (s.clearKeys lo hi).reel = s.reel := rfl
@[simp] theorem State.clearKeys_flash (s : State) (lo hi : Nat) : (s.clearKeys lo hi).flash = s.flash := rfl
@[simp] theorem State.clearKeys_wall (s : State) (lo hi : Nat) : (s.clearKeys lo hi).wall = s.wall := rfl
@[simp] theorem State.clearKeys_logN (s : State) (lo hi : Nat) : (s.clearKeys lo hi).logN = s.logN := rfl
@[simp] theorem State.clearKeys_cq (s : State) (lo hi : Nat) : (s.clearKeys lo hi).cq = s.cq := rfl
@[simp] theorem State.clearKeys_mgmt (s : State) (lo hi : Nat) : (s.clearKeys lo hi).mgmt = s.mgmt := rfl
@[simp] theorem State.clearKeys_boot (s : State) (lo hi : Nat) : (s.clearKeys lo hi).boot = s.boot := rfl
@[simp] theorem State.clearKeys_ring (s : State) (lo hi : Nat) : (s.clearKeys lo hi).ring = s.ring := rfl
@[simp] theorem State.clearKeys_modl (s : State) (lo hi : Nat) : (s.clearKeys lo hi).modl = s.modl := rfl

@[simp] theorem State.free_pending (s : State)  : (s.free.2).pending = s.pending := rfl
@[simp] theorem State.free_now (s : State)  : (s.free.2).now = s.now := rfl
@[simp] theorem State.free_regs (s : State)  : (s.free.2).regs = s.regs := rfl
@[simp] theorem State.free_latch (s : State)  : (s.free.2).latch = s.latch := rfl
@[simp] theorem State.free_drbgN (s : State)  : (s.free.2).drbgN = s.drbgN := rfl
@[simp] theorem State.free_out (s : State)  : (s.free.2).out = s.out := rfl
@[simp] theorem State.free_off (s : State)  : (s.free.2).off = s.off := rfl
@[simp] theorem State.free_log (s : State)  : (s.free.2).log = s.log := rfl
@[simp] theorem State.free_nodes (s : State)  : (s.free.2).nodes = s.nodes := rfl
@[simp] theorem State.free_mem (s : State)  : (s.free.2).mem = s.mem := rfl
@[simp] theorem State.free_poison (s : State)  : (s.free.2).poison = s.poison := rfl
@[simp] theorem State.free_spns (s : State)  : (s.free.2).spns = s.spns := rfl
@[simp] theorem State.free_seqr (s : State)  : (s.free.2).seqr = s.seqr := rfl
@[simp] theorem State.free_chans (s : State)  : (s.free.2).chans = s.chans := rfl
@[simp] theorem State.free_prot (s : State)  : (s.free.2).prot = s.prot := rfl
@[simp] theorem State.free_domsOff (s : State)  : (s.free.2).domsOff = s.domsOff := rfl
@[simp] theorem State.free_irq (s : State)  : (s.free.2).irq = s.irq := rfl
@[simp] theorem State.free_fab (s : State)  : (s.free.2).fab = s.fab := rfl
@[simp] theorem State.free_coll (s : State)  : (s.free.2).coll = s.coll := rfl
@[simp] theorem State.free_clk (s : State)  : (s.free.2).clk = s.clk := rfl
@[simp] theorem State.free_pwr (s : State)  : (s.free.2).pwr = s.pwr := rfl
@[simp] theorem State.free_hlth (s : State)  : (s.free.2).hlth = s.hlth := rfl
@[simp] theorem State.free_rst (s : State)  : (s.free.2).rst = s.rst := rfl
@[simp] theorem State.free_fuse (s : State)  : (s.free.2).fuse = s.fuse := rfl
@[simp] theorem State.free_reel (s : State)  : (s.free.2).reel = s.reel := rfl
@[simp] theorem State.free_flash (s : State)  : (s.free.2).flash = s.flash := rfl
@[simp] theorem State.free_wall (s : State)  : (s.free.2).wall = s.wall := rfl
@[simp] theorem State.free_logN (s : State)  : (s.free.2).logN = s.logN := rfl
@[simp] theorem State.free_cq (s : State)  : (s.free.2).cq = s.cq := rfl
@[simp] theorem State.free_mgmt (s : State)  : (s.free.2).mgmt = s.mgmt := rfl
@[simp] theorem State.free_boot (s : State)  : (s.free.2).boot = s.boot := rfl
@[simp] theorem State.free_ring (s : State)  : (s.free.2).ring = s.ring := rfl
@[simp] theorem State.free_modl (s : State)  : (s.free.2).modl = s.modl := rfl

@[simp] theorem State.draw_pending (s : State) (bytes : Nat) : ((s.draw bytes).2).pending = s.pending := rfl
@[simp] theorem State.draw_now (s : State) (bytes : Nat) : ((s.draw bytes).2).now = s.now := rfl
@[simp] theorem State.draw_regs (s : State) (bytes : Nat) : ((s.draw bytes).2).regs = s.regs := rfl
@[simp] theorem State.draw_latch (s : State) (bytes : Nat) : ((s.draw bytes).2).latch = s.latch := rfl
@[simp] theorem State.draw_freeN (s : State) (bytes : Nat) : ((s.draw bytes).2).freeN = s.freeN := rfl
@[simp] theorem State.draw_out (s : State) (bytes : Nat) : ((s.draw bytes).2).out = s.out := rfl
@[simp] theorem State.draw_off (s : State) (bytes : Nat) : ((s.draw bytes).2).off = s.off := rfl
@[simp] theorem State.draw_log (s : State) (bytes : Nat) : ((s.draw bytes).2).log = s.log := rfl
@[simp] theorem State.draw_nodes (s : State) (bytes : Nat) : ((s.draw bytes).2).nodes = s.nodes := rfl
@[simp] theorem State.draw_mem (s : State) (bytes : Nat) : ((s.draw bytes).2).mem = s.mem := rfl
@[simp] theorem State.draw_poison (s : State) (bytes : Nat) : ((s.draw bytes).2).poison = s.poison := rfl
@[simp] theorem State.draw_spns (s : State) (bytes : Nat) : ((s.draw bytes).2).spns = s.spns := rfl
@[simp] theorem State.draw_seqr (s : State) (bytes : Nat) : ((s.draw bytes).2).seqr = s.seqr := rfl
@[simp] theorem State.draw_chans (s : State) (bytes : Nat) : ((s.draw bytes).2).chans = s.chans := rfl
@[simp] theorem State.draw_prot (s : State) (bytes : Nat) : ((s.draw bytes).2).prot = s.prot := rfl
@[simp] theorem State.draw_domsOff (s : State) (bytes : Nat) : ((s.draw bytes).2).domsOff = s.domsOff := rfl
@[simp] theorem State.draw_irq (s : State) (bytes : Nat) : ((s.draw bytes).2).irq = s.irq := rfl
@[simp] theorem State.draw_fab (s : State) (bytes : Nat) : ((s.draw bytes).2).fab = s.fab := rfl
@[simp] theorem State.draw_coll (s : State) (bytes : Nat) : ((s.draw bytes).2).coll = s.coll := rfl
@[simp] theorem State.draw_clk (s : State) (bytes : Nat) : ((s.draw bytes).2).clk = s.clk := rfl
@[simp] theorem State.draw_pwr (s : State) (bytes : Nat) : ((s.draw bytes).2).pwr = s.pwr := rfl
@[simp] theorem State.draw_hlth (s : State) (bytes : Nat) : ((s.draw bytes).2).hlth = s.hlth := rfl
@[simp] theorem State.draw_rst (s : State) (bytes : Nat) : ((s.draw bytes).2).rst = s.rst := rfl
@[simp] theorem State.draw_fuse (s : State) (bytes : Nat) : ((s.draw bytes).2).fuse = s.fuse := rfl
@[simp] theorem State.draw_reel (s : State) (bytes : Nat) : ((s.draw bytes).2).reel = s.reel := rfl
@[simp] theorem State.draw_flash (s : State) (bytes : Nat) : ((s.draw bytes).2).flash = s.flash := rfl
@[simp] theorem State.draw_wall (s : State) (bytes : Nat) : ((s.draw bytes).2).wall = s.wall := rfl
@[simp] theorem State.draw_logN (s : State) (bytes : Nat) : ((s.draw bytes).2).logN = s.logN := rfl
@[simp] theorem State.draw_cq (s : State) (bytes : Nat) : ((s.draw bytes).2).cq = s.cq := rfl
@[simp] theorem State.draw_mgmt (s : State) (bytes : Nat) : ((s.draw bytes).2).mgmt = s.mgmt := rfl
@[simp] theorem State.draw_boot (s : State) (bytes : Nat) : ((s.draw bytes).2).boot = s.boot := rfl
@[simp] theorem State.draw_ring (s : State) (bytes : Nat) : ((s.draw bytes).2).ring = s.ring := rfl
@[simp] theorem State.draw_modl (s : State) (bytes : Nat) : ((s.draw bytes).2).modl = s.modl := rfl

/-! ### Registers. -/

theorem State.regs_setReg {s : State} {a : Nat} {v : Word} (h : twf 0 s.regs = true) : twf 0 (s.setReg a v).regs = true := twf_tset h
theorem State.regs_wr {s : State} {a v : Nat} (h : twf 0 s.regs = true) : twf 0 (s.wr a v).regs = true := twf_tset h
theorem State.regs_wf {s : State} {a hi lo v : Nat} (h : twf 0 s.regs = true) : twf 0 (s.wf a hi lo v).regs = true := twf_tset h
theorem State.regs_satField {s : State} {a hi lo n : Nat} (h : twf 0 s.regs = true) : twf 0 (s.satField a hi lo n).regs = true :=
  twf_tset h
theorem State.regs_sat {s : State} {a n : Nat} (h : twf 0 s.regs = true) : twf 0 (s.sat a n).regs = true := twf_tset h
theorem State.regs_maxField {s : State} {a hi lo n : Nat} (h : twf 0 s.regs = true) : twf 0 (s.maxField a hi lo n).regs = true :=
  twf_tset h
theorem State.regs_wr64 {s : State} {a v : Nat} (h : twf 0 s.regs = true) : twf 0 (s.wr64 a v).regs = true := twf_tset (twf_tset h)
theorem State.regs_add64 {s : State} {a n : Nat} (h : twf 0 s.regs = true) : twf 0 (s.add64 a n).regs = true := State.regs_wr64 h

/-- A register reads as written; every other register reads as before. -/
theorem State.reg_setReg {s : State} (h : twf 0 s.regs = true) (a b : Nat) (v : Word) :
    (s.setReg a v).reg b = if b = a then v else s.reg b := by
  unfold State.reg State.setReg
  dsimp only
  rw [tget_tset h]
  by_cases hb : b = a
  · subst hb; simp
  · simp [hb]

theorem State.reg_congr {s t : State} (h : t.regs = s.regs) (a : Nat) : t.reg a = s.reg a := by
  unfold State.reg; rw [h]

theorem State.rd_congr {s t : State} (h : t.regs = s.regs) (a : Nat) : t.rd a = s.rd a := by
  unfold State.rd; rw [State.reg_congr h]

theorem State.rd_lt (s : State) (a : Nat) : s.rd a < 2 ^ 32 := (s.reg a).isLt

theorem State.rd_wr {s : State} (h : twf 0 s.regs = true) (a b v : Nat) :
    (s.wr a v).rd b = if b = a then v % 2 ^ 32 else s.rd b := by
  unfold State.rd State.wr
  rw [State.reg_setReg h]
  split <;> simp

theorem State.rd_wr_self {s : State} (h : twf 0 s.regs = true) (a v : Nat) : (s.wr a v).rd a = v % 2 ^ 32 := by
  rw [State.rd_wr h, if_pos rfl]

theorem State.rd_wr_ne {s : State} (h : twf 0 s.regs = true) {a b : Nat} (v : Nat) (hb : b ≠ a) : (s.wr a v).rd b = s.rd b := by
  rw [State.rd_wr h, if_neg hb]

theorem State.rd_wf {s : State} (h : twf 0 s.regs = true) (a b hi lo v : Nat) :
    (s.wf a hi lo v).rd b = if b = a then setBits (s.rd a) hi lo v % 2 ^ 32 else s.rd b := State.rd_wr h a b _

theorem State.rd_wf_ne {s : State} (h : twf 0 s.regs = true) {a b : Nat} (hi lo v : Nat) (hb : b ≠ a) :
    (s.wf a hi lo v).rd b = s.rd b := by
  rw [State.rd_wf h, if_neg hb]

theorem State.rd_satField_ne {s : State} (h : twf 0 s.regs = true) {a b : Nat} (hi lo n : Nat) (hb : b ≠ a) :
    (s.satField a hi lo n).rd b = s.rd b := State.rd_wf_ne h hi lo _ hb

theorem State.rd_sat_ne {s : State} (h : twf 0 s.regs = true) {a b : Nat} (n : Nat) (hb : b ≠ a) :
    (s.sat a n).rd b = s.rd b := State.rd_wf_ne h 31 0 _ hb

theorem setBits_full (w v : Nat) (hw : w < 2 ^ 32) : setBits w 31 0 v = v % 2 ^ 32 := by
  unfold setBits bitsOf
  have : w >>> 0 % 2 ^ (31 + 1 - 0) = w := by simp; omega
  rw [this]; simp

theorem State.rd_sat_self {s : State} (h : twf 0 s.regs = true) (a n : Nat) :
    (s.sat a n).rd a = min (s.rd a + n) (2 ^ 32 - 1) := by
  unfold State.sat State.satField
  rw [State.rd_wf h, if_pos rfl, setBits_full _ _ (s.rd_lt a)]
  have : s.rf a 31 0 = s.rd a := by
    have := s.rd_lt a
    unfold State.rf bitsOf; simp; omega
  rw [this]
  have : min (s.rd a + n) (2 ^ (31 + 1 - 0) - 1) < 2 ^ 32 := by omega
  rw [Nat.mod_mod, Nat.mod_eq_of_lt this]

/-- A field of a register written: the field reads as the value cut to its width. -/
theorem bitsOf_setBits_self (w hi lo v : Nat) : bitsOf (setBits w hi lo v) hi lo = v % 2 ^ (hi + 1 - lo) := by
  unfold setBits bitsOf
  generalize hn : hi + 1 - lo = n
  simp only [Nat.shiftRight_eq_div_pow]
  have hp : 0 < 2 ^ lo := Nat.two_pow_pos lo
  have h1 : w / 2 ^ lo % 2 ^ n * 2 ^ lo ≤ w := by
    calc w / 2 ^ lo % 2 ^ n * 2 ^ lo ≤ w / 2 ^ lo * 2 ^ lo := Nat.mul_le_mul_right _ (Nat.mod_le _ _)
      _ ≤ w := Nat.div_mul_le_self _ _
  rw [Nat.add_mul_div_right _ _ hp]
  have h2 : (w - w / 2 ^ lo % 2 ^ n * 2 ^ lo) / 2 ^ lo = w / 2 ^ lo - w / 2 ^ lo % 2 ^ n := by
    rw [Nat.mul_comm, Nat.sub_mul_div_of_le]
    · rw [Nat.mul_comm]; exact h1
  rw [h2]
  have h3 : w / 2 ^ lo - w / 2 ^ lo % 2 ^ n = 2 ^ n * (w / 2 ^ lo / 2 ^ n) := by
    have := Nat.div_add_mod (w / 2 ^ lo) (2 ^ n); omega
  rw [h3, Nat.mul_add_mod, Nat.mod_mod]

/-! ### Spindles, slots, channels. -/

theorem tget_tset_self {α : Type} [DecidableEq α] {d : α} {k : Nat} {v : α} {t : List (Nat × α)} (h : twf d t = true) :
    tget d (tset d t k v) k = v := by rw [tget_tset h, if_pos rfl]

theorem State.spn_setSpn {s : State} (h : twf ({} : Spn) s.spns = true) (ps : Nat) (x : Spn) : (s.setSpn ps x).spn ps = x :=
  tget_tset_self h

theorem State.spn_modSpn {s : State} (h : twf ({} : Spn) s.spns = true) (ps : Nat) (f : Spn → Spn) :
    (s.modSpn ps f).spn ps = f (s.spn ps) := tget_tset_self h

theorem State.slotOf_setSlot {s : State} (h : twf none s.seqr.slots = true) (n : Nat) (x : Option Slot) :
    (s.setSlot n x).slotOf n = x := tget_tset_self h

theorem State.chan_setChan {s : State} (h : twf ({} : Chan) s.chans = true) (ch : Nat) (c : Chan) :
    (s.setChan ch c).chan ch = c := tget_tset_self h

/-! ### Memory. -/

theorem State.byteAt_setByte {s : State} (h : Memory.wf s.mem = true) (k j : Nat) (v : Byte) :
    (s.setByte k v).byteAt j = if j = k then v else s.byteAt j := tget_tset h

/-- Bytes written are read back, and every other byte reads as before. -/
theorem State.byteAt_putBytes {s : State} (h : Memory.wf s.mem = true) (k a : Nat) (l : List Byte) :
    (s.putBytes k l).byteAt a = if k ≤ a ∧ a < k + l.length then (l[a - k]?).getD 0 else s.byteAt a := tget_memPut h

theorem State.byteAt_clearKeys {s : State} {lo hi k : Nat} (h : k < lo ∨ hi ≤ k) : (s.clearKeys lo hi).byteAt k = s.byteAt k := by
  refine tget_filter (fun v => ?_)
  simpa using h

end Sys2Proof.Machine
end

