-- ==== Sys2Proof/Laws/Frame.lean ====
section
/-! SUPPORT. Frames: what an operation leaves of the parts of the state, of the registers and of the records
(Safety.lean). -/

namespace Sys2Proof.Machine

/-! ### Parts. -/

/-- The number `SameField` has for a part. -/
def Area.idx : Area → Nat
  | .pending => 0
  | .now => 1
  | .regs => 2
  | .latch => 3
  | .freeN => 4
  | .drbgN => 5
  | .out => 6
  | .off => 7
  | .log => 8
  | .nodes => 9
  | .mem => 10
  | .poison => 11
  | .spns => 12
  | .seqr => 13
  | .chans => 14
  | .prot => 15
  | .domsOff => 16
  | .irq => 17
  | .fab => 18
  | .coll => 19
  | .clk => 20
  | .pwr => 21
  | .hlth => 22
  | .rst => 23
  | .fuse => 24
  | .reel => 25
  | .flash => 26
  | .wall => 27
  | .logN => 28
  | .cq => 29
  | .mgmt => 30
  | .boot => 31
  | .ring => 32
  | .modl => 33

/-- Every part, in order. -/
def Area.all : List Area :=
  [.pending, .now, .regs, .latch, .freeN, .drbgN, .out, .off, .log, .nodes, .mem, .poison, .spns, .seqr,
   .chans, .prot, .domsOff, .irq, .fab, .coll, .clk, .pwr, .hlth, .rst, .fuse, .reel, .flash, .wall,
   .logN, .cq, .mgmt, .boot, .ring, .modl]

theorem Area.mem_all (p : Area) : p ∈ Area.all := by cases p <;> decide

theorem Area.same_of_field {p : Area} {s t : State} (h : SameField p.idx s t) : p.same s t := by
  cases p <;> exact h

/-- A frame in terms of parts, from one in terms of field numbers. -/
theorem Keep.alters {m : Nat} {s t : State} (l : List Area) (h : Keep m s t)
    (hl : (Area.all.all (fun p => l.contains p || m.testBit p.idx)) = true) : s.Alters t l := by
  intro p hp
  have := List.all_eq_true.mp hl p (Area.mem_all p)
  rw [Bool.or_eq_true] at this
  rcases this with h1 | h1
  · exact absurd (by simpa using h1) hp
  · exact Area.same_of_field (h.same _ h1)

theorem State.Alters.refl (s : State) (l : List Area) : s.Alters s l := fun p _ => by cases p <;> rfl

theorem Area.same_trans {p : Area} {s t u : State} (h : p.same s t) (k : p.same t u) : p.same s u := by
  cases p <;> exact k.trans h

theorem State.Alters.trans {s t u : State} {l : List Area} (h : s.Alters t l) (k : t.Alters u l) : s.Alters u l :=
  fun p hp => Area.same_trans (h p hp) (k p hp)

theorem State.Alters.mono {s t : State} {l k : List Area} (h : s.Alters t l) (hk : ∀ p ∈ l, p ∈ k) : s.Alters t k :=
  fun p hp => h p (fun hl => hp (hk p hl))

/-! ### Tables. -/

/-- A key that is not written reads as before, in any table. -/
theorem tget_tset_ne {α : Type} [DecidableEq α] {d : α} {k j : Nat} {v : α} (hj : j ≠ k) :
    ∀ t : List (Nat × α), tget d (tset d t k v) j = tget d t j
  | [] => by unfold tset; split <;> simp [tget, hj]
  | (k', w) :: r => by
    unfold tset
    split
    · split <;> simp [tget, hj]
    · split
      · rename_i hk; subst hk
        split <;> simp [tget, hj]
      · simp only [tget, tget_tset_ne hj r]

/-- A value that is listed is read back, in any table. -/
theorem tget_tset_eq {α : Type} [DecidableEq α] {d : α} {k : Nat} {v : α} (hv : v ≠ d) :
    ∀ t : List (Nat × α), tget d (tset d t k v) k = v
  | [] => by simp [tset, tget, hv]
  | (k', w) :: r => by
    unfold tset
    simp only [if_neg hv]
    split
    · simp [tget]
    · split
      · simp [tget]
      · rename_i h1 h2
        simp only [tget, if_neg h2, tget_tset_eq hv r]

/-! ### Registers. -/

theorem State.RegsBut.refl (s : State) (l : List Nat) : s.RegsBut s l := fun _ _ => rfl

theorem State.RegsBut.of_regs {s t : State} (h : t.regs = s.regs) (l : List Nat) : s.RegsBut t l :=
  fun a _ => State.reg_congr h a

theorem State.RegsBut.trans {s t u : State} {l : List Nat} (h : s.RegsBut t l) (k : t.RegsBut u l) : s.RegsBut u l :=
  fun a ha => (k a ha).trans (h a ha)

theorem State.RegsBut.mono {s t : State} {l k : List Nat} (h : s.RegsBut t l) (hk : ∀ a ∈ l, a ∈ k) : s.RegsBut t k :=
  fun a ha => h a (fun hl => ha (hk a hl))

/-- One register changed, of a list. -/
theorem State.RegsBut.of_one {s t : State} {a : Nat} {k : List Nat} (h : s.RegsBut t [a]) (ha : a ∈ k) : s.RegsBut t k :=
  h.mono (fun b hb => by rw [List.mem_singleton] at hb; exact hb ▸ ha)

theorem State.setReg_but (s : State) (a : Nat) (v : Word) : s.RegsBut (s.setReg a v) [a] := by
  intro b hb
  have hb : b ≠ a := by simpa using hb
  unfold State.reg State.setReg
  dsimp only
  rw [tget_tset_ne hb]

theorem State.wr_but (s : State) (a v : Nat) : s.RegsBut (s.wr a v) [a] := s.setReg_but a _
theorem State.wf_but (s : State) (a hi lo v : Nat) : s.RegsBut (s.wf a hi lo v) [a] := s.setReg_but a _
theorem State.satField_but (s : State) (a hi lo n : Nat) : s.RegsBut (s.satField a hi lo n) [a] := s.setReg_but a _
theorem State.sat_but (s : State) (a n : Nat) : s.RegsBut (s.sat a n) [a] := s.setReg_but a _
theorem State.maxField_but (s : State) (a hi lo n : Nat) : s.RegsBut (s.maxField a hi lo n) [a] := s.setReg_but a _

theorem State.wr64_but (s : State) (a v : Nat) : s.RegsBut (s.wr64 a v) [a, a + 4] :=
  ((s.wr_but a v).mono (by simp)).trans ((State.wr_but _ _ _).mono (by simp))

theorem State.add64_but (s : State) (a n : Nat) : s.RegsBut (s.add64 a n) [a, a + 4] := s.wr64_but a _

/-- A fold over updates of registers of a list. -/
theorem State.RegsBut.foldl {s u : State} {α : Type} {f : State → α → State} {l : List Nat} {xs : List α}
    (hf : ∀ u : State, ∀ x ∈ xs, u.RegsBut (f u x) l) (h : s.RegsBut u l) : s.RegsBut (xs.foldl f u) l := by
  induction xs generalizing u with
  | nil => exact h
  | cons x r ih =>
    exact ih (fun u y hy => hf u y (List.mem_cons_of_mem _ hy)) (h.trans (hf u x List.mem_cons_self))

theorem State.RegsBut.rd {s t : State} {l : List Nat} (h : s.RegsBut t l) {a : Nat} (ha : a ∉ l) : t.rd a = s.rd a := by
  unfold State.rd; rw [h a ha]

theorem State.RegsBut.rf {s t : State} {l : List Nat} (h : s.RegsBut t l) {a : Nat} (ha : a ∉ l) (hi lo : Nat) :
    t.rf a hi lo = s.rf a hi lo := by
  unfold State.rf; rw [h.rd ha]

/-! ### Records of events. -/

theorem mem_logInsert (e : EventRec) : ∀ l : List EventRec, e ∈ logInsert l e
  | [] => by simp [logInsert]
  | x :: r => by
    unfold logInsert
    split
    · exact List.mem_cons_self
    · exact List.mem_cons_of_mem _ (mem_logInsert e r)

theorem length_logInsert (e : EventRec) : ∀ l : List EventRec, (logInsert l e).length = l.length + 1
  | [] => rfl
  | x :: r => by
    unfold logInsert
    split
    · rfl
    · simp only [List.length_cons, length_logInsert e r]

theorem State.mem_toLog {s : State} (e : EventRec) (h : s.log.length < 4096) : e ∈ (s.toLog e).log := by
  have hz : (logInsert s.log e).length - 4096 = 0 := by rw [length_logInsert]; omega
  unfold State.toLog
  rw [State.raiseIrq_log]
  dsimp only
  rw [hz, List.drop_zero]
  exact mem_logInsert e _

/-- An event with room for its record is recorded (R43, R269). -/
theorem State.event_recorded {s : State} {code unit : Nat} (h : s.EventRoom code unit) (sev : Nat) (data : List (Nat × Nat × Nat)) :
    (s.event code unit sev data).Recorded (s.eventRec code unit sev data) := by
  unfold State.event State.eventCtx
  unfold State.EventRoom at h
  cases hn : nodeOf code unit with
  | none =>
    rw [hn] at h
    exact .inl (State.mem_toLog _ h)
  | some n =>
    rw [hn] at h
    have hp : (tget {} s.nodes n).put (s.eventRec code unit sev data) =
        ({ tget {} s.nodes n with recs := (tget {} s.nodes n).recs ++ [s.eventRec code unit sev data] }, 0, false) := by
      unfold NodeBuf.put; rw [if_pos h]
    unfold State.eventRec at hp
    dsimp only
    rw [hp]
    refine .inr ⟨n, ?_⟩
    simp only [Bool.false_eq_true, if_false, State.sat_nodes]
    rw [tget_tset_eq (by intro hx; have := congrArg NodeBuf.recs hx; simp at this)]
    simp [State.eventRec]

theorem State.Recorded.of_same {s t : State} {e : EventRec} (h : s.Recorded e) (hl : t.log = s.log) (hn : t.nodes = s.nodes) :
    t.Recorded e := by
  unfold State.Recorded; rw [hl, hn]; exact h

theorem State.Recorded.keep {m : Nat} {s t : State} {e : EventRec} (h : s.Recorded e) (k : Keep m s t)
    (hm : (m.testBit 8 && m.testBit 9) = true) : t.Recorded e := by
  rw [Bool.and_eq_true] at hm
  exact h.of_same (k.log hm.1) (k.nodes hm.2)

end Sys2Proof.Machine
end

