-- ==== Sys2Proof/Laws/KeepOps.lean ====
section
/-! SUPPORT. What each operation of Machine/Ops.lean leaves alone (Laws/Keep.lean). -/

namespace Sys2Proof.Machine

set_option linter.unusedTactic false
set_option linter.unreachableTactic false

theorem State.setReg_keep (s : State) (a : Nat) (v : Word) : Keep 0x3FFFFFFFB s (s.setReg a v) :=
  Keep.setRegs rfl twf_tset (Keep.refl _ _)

theorem State.wr_keep (s : State) (a v : Nat) : Keep 0x3FFFFFFFB s (State.wr s a v) := by
  unfold State.wr
  repeat' first
    | exact rfl
    | with_reducible apply Keep.refl
    | with_reducible assumption
    | with_reducible apply Keep.via (State.setReg_keep ..)
    | dsimp -proj only
    | ((with_reducible conv => arg 3; whnf); first | split)
    | dsimp -proj +zetaDelta only
    | dsimp only

theorem State.wf_keep (s : State) (a hi lo v : Nat) : Keep 0x3FFFFFFFB s (State.wf s a hi lo v) := by
  unfold State.wf
  repeat' first
    | exact rfl
    | with_reducible apply Keep.refl
    | with_reducible assumption
    | with_reducible apply Keep.via (State.wr_keep ..)
    | dsimp -proj only
    | ((with_reducible conv => arg 3; whnf); first | split)
    | dsimp -proj +zetaDelta only
    | dsimp only

theorem State.wr64_keep (s : State) (a v : Nat) : Keep 0x3FFFFFFFB s (State.wr64 s a v) := by
  unfold State.wr64
  repeat' first
    | exact rfl
    | with_reducible apply Keep.refl
    | with_reducible assumption
    | with_reducible apply Keep.via (State.wr_keep ..)
    | dsimp -proj only
    | ((with_reducible conv => arg 3; whnf); first | split)
    | dsimp -proj +zetaDelta only
    | dsimp only

theorem State.satField_keep (s : State) (a hi lo n : Nat) : Keep 0x3FFFFFFFB s (State.satField s a hi lo n) := by
  unfold State.satField
  repeat' first
    | exact rfl
    | with_reducible apply Keep.refl
    | with_reducible assumption
    | with_reducible apply Keep.via (State.wf_keep ..)
    | dsimp -proj only
    | ((with_reducible conv => arg 3; whnf); first | split)
    | dsimp -proj +zetaDelta only
    | dsimp only

theorem State.sat_keep (s : State) (a n : Nat) : Keep 0x3FFFFFFFB s (State.sat s a n) := by
  unfold State.sat
  repeat' first
    | exact rfl
    | with_reducible apply Keep.refl
    | with_reducible assumption
    | with_reducible apply Keep.via (State.satField_keep ..)
    | dsimp -proj only
    | ((with_reducible conv => arg 3; whnf); first | split)
    | dsimp -proj +zetaDelta only
    | dsimp only

theorem State.add64_keep (s : State) (a n : Nat) : Keep 0x3FFFFFFFB s (State.add64 s a n) := by
  unfold State.add64
  repeat' first
    | exact rfl
    | with_reducible apply Keep.refl
    | with_reducible assumption
    | with_reducible apply Keep.via (State.wr64_keep ..)
    | dsimp -proj only
    | ((with_reducible conv => arg 3; whnf); first | split)
    | dsimp -proj +zetaDelta only
    | dsimp only

theorem State.maxField_keep (s : State) (a hi lo n : Nat) : Keep 0x3FFFFFFFB s (State.maxField s a hi lo n) := by
  unfold State.maxField
  repeat' first
    | exact rfl
    | with_reducible apply Keep.refl
    | with_reducible assumption
    | with_reducible apply Keep.via (State.wf_keep ..)
    | dsimp -proj only
    | ((with_reducible conv => arg 3; whnf); first | split)
    | dsimp -proj +zetaDelta only
    | dsimp only

theorem State.free_keep (s : State) : Keep 0x3FFFFFFEF s (State.free s).2 := by
  unfold State.free
  repeat' first
    | exact rfl
    | with_reducible apply Keep.refl
    | with_reducible assumption
    | dsimp -proj only
    | ((with_reducible conv => arg 3; whnf); first | split | with_reducible apply Keep.setFreeN)
    | dsimp -proj +zetaDelta only
    | dsimp only

theorem State.draw_keep (s : State) (bytes : Nat) : Keep 0x3FFFFFFDF s (State.draw s bytes).2 := by
  unfold State.draw
  repeat' first
    | exact rfl
    | with_reducible apply Keep.refl
    | with_reducible assumption
    | dsimp -proj only
    | ((with_reducible conv => arg 3; whnf); first | split | with_reducible apply Keep.setDrbgN)
    | dsimp -proj +zetaDelta only
    | dsimp only

theorem State.send_keep (s : State) (m : Msg) : Keep 0x3FFFFFFBF s (State.send s m) := by
  unfold State.send
  repeat' first
    | exact rfl
    | with_reducible apply Keep.refl
    | with_reducible assumption
    | dsimp -proj only
    | ((with_reducible conv => arg 3; whnf); first | split | with_reducible apply Keep.setOut)
    | dsimp -proj +zetaDelta only
    | dsimp only

theorem State.take_keep (s : State) (m : Msg) : Keep 0x3FFFFFFBF s (State.take s m) := by
  unfold State.take
  repeat' first
    | exact rfl
    | with_reducible apply Keep.refl
    | with_reducible assumption
    | dsimp -proj only
    | ((with_reducible conv => arg 3; whnf); first | split | with_reducible apply Keep.setOut)
    | dsimp -proj +zetaDelta only
    | dsimp only

theorem State.raiseIrq_keep (s : State) (n : Nat) : Keep 0x3FFFDFFFF s (State.raiseIrq s n) := by
  unfold State.raiseIrq
  repeat' first
    | exact rfl
    | with_reducible apply Keep.refl
    | with_reducible assumption
    | dsimp -proj only
    | ((with_reducible conv => arg 3; whnf); first | split | with_reducible apply Keep.setIrq)
    | dsimp -proj +zetaDelta only
    | dsimp only

theorem State.clearIrq_keep (s : State) (n : Nat) : Keep 0x3FFFDFFFF s (State.clearIrq s n) := by
  unfold State.clearIrq
  repeat' first
    | exact rfl
    | with_reducible apply Keep.refl
    | with_reducible assumption
    | dsimp -proj only
    | ((with_reducible conv => arg 3; whnf); first | split | with_reducible apply Keep.setIrq)
    | dsimp -proj +zetaDelta only
    | dsimp only

theorem State.setSpn_keep (s : State) (ps : Nat) (x : Spn) : Keep 0x3FFFFEFFF s (s.setSpn ps x) :=
  Keep.setSpns rfl twf_tset (Keep.refl _ _)

theorem State.modSpn_keep (s : State) (ps : Nat) (f : Spn → Spn) : Keep 0x3FFFFEFFF s (State.modSpn s ps f) := by
  unfold State.modSpn
  repeat' first
    | exact rfl
    | with_reducible apply Keep.refl
    | with_reducible assumption
    | with_reducible apply Keep.via (State.setSpn_keep ..)
    | dsimp -proj only
    | ((with_reducible conv => arg 3; whnf); first | split)
    | dsimp -proj +zetaDelta only
    | dsimp only

theorem State.setSpnState_keep (s : State) (ps c : Nat) : Keep 0x3FFFFFFFB s (State.setSpnState s ps c) := by
  unfold State.setSpnState
  repeat' first
    | exact rfl
    | with_reducible apply Keep.refl
    | with_reducible assumption
    | with_reducible apply Keep.via (State.wr_keep ..)
    | with_reducible apply Keep.ite
    | split
    | extract_lets
    | dsimp -proj only
    | ((with_reducible conv => arg 3; whnf); first | split)
    | dsimp -proj +zetaDelta only
    | dsimp only

theorem State.setSlot_keep (s : State) (n : Nat) (x : Option Slot) : Keep 0x3FFFFDFFF s (State.setSlot s n x) := by
  unfold State.setSlot
  repeat' first
    | exact rfl
    | with_reducible apply Keep.refl
    | with_reducible assumption
    | dsimp -proj only
    | ((with_reducible conv => arg 3; whnf); first | split | with_reducible apply Keep.setSeqr)
    | dsimp -proj +zetaDelta only
    | dsimp only

theorem State.toLog_keep (s : State) (e : EventRec) : Keep 0x3EFFDFEFF s (s.toLog e) := by
  unfold State.toLog
  refine Keep.via (State.raiseIrq_keep ..) rfl (Keep.setLogLogN rfl rfl (fun _ => ?_) (Keep.refl _ _))
  simp only [List.length_drop]; omega

theorem NodeBuf.put_length (b : NodeBuf) (e : EventRec) (h : b.recs.length ≤ 8) : (b.put e).1.recs.length ≤ 8 := by
  unfold NodeBuf.put
  split
  · simp only [List.length_append, List.length_singleton]; omega
  · split
    · rename_i x hx
      have hm : x ∈ b.recs := by split at hx <;> [exact List.mem_of_find?_eq_some hx; cases hx]
      simp only [List.length_append, List.length_singleton, List.length_erase_of_mem hm]
      have := List.length_pos_of_mem hm
      omega
    · exact h

theorem State.eventCtx_keep (s : State) (code unit sev ctx : Nat) (data : List (Nat × Nat × Nat)) :
    Keep 0x3EFFDFCFB s (s.eventCtx code unit sev ctx data) := by
  unfold State.eventCtx
  extract_lets e
  split
  · exact Keep.via (State.toLog_keep ..) rfl (Keep.refl _ _)
  · rename_i n _
    extract_lets r s1 s2
    have h1 : Keep 0x3EFFDFCFB s s1 := by
      refine Keep.setNodes rfl (fun h => ⟨twf_tset h.1, fun p hp => ?_⟩) (Keep.refl _ _)
      rcases mem_tset hp with rfl | hp
      · refine NodeBuf.put_length _ _ ?_
        rcases tget_mem ({} : NodeBuf) n (t := s.nodes) with ⟨q, hq, e⟩ | e
        · rw [e]; exact h.2 q hq
        · rw [e]; exact Nat.zero_le _
      · exact h.2 p hp
    have h2 : Keep 0x3EFFDFCFB s s2 := Keep.via (State.sat_keep ..) rfl h1
    split
    · exact Keep.via (State.toLog_keep ..) rfl h2
    · exact h2

theorem State.event_keep (s : State) (code unit sev : Nat) (data : List (Nat × Nat × Nat)) : Keep 0x3EFFDFCFB s (State.event s code unit sev data) := by
  unfold State.event
  repeat' first
    | exact rfl
    | with_reducible apply Keep.refl
    | with_reducible assumption
    | with_reducible apply Keep.via (State.eventCtx_keep ..)
    | dsimp -proj only
    | ((with_reducible conv => arg 3; whnf); first | split)
    | dsimp -proj +zetaDelta only
    | dsimp only

theorem State.stampDev_keep (s : State) (old cause : Nat) : Keep 0x3EFFDFCFB s (State.stampDev s old cause) := by
  unfold State.stampDev
  repeat' first
    | exact rfl
    | with_reducible apply Keep.refl
    | with_reducible assumption
    | with_reducible apply Keep.via (State.raiseIrq_keep ..)
    | with_reducible apply Keep.via (State.event_keep ..)
    | with_reducible apply Keep.via (State.wr64_keep ..)
    | dsimp -proj only
    | ((with_reducible conv => arg 3; whnf); first | split)
    | dsimp -proj +zetaDelta only
    | dsimp only

theorem State.toHalted_keep (s : State) : Keep 0x3FF7FFFFB s (State.toHalted s) := by
  unfold State.toHalted
  repeat' first
    | exact rfl
    | with_reducible apply Keep.refl
    | with_reducible assumption
    | with_reducible apply Keep.via (State.wf_keep ..)
    | extract_lets
    | dsimp -proj only
    | ((with_reducible conv => arg 3; whnf); first | split | with_reducible apply Keep.setRst)
    | dsimp -proj +zetaDelta only
    | dsimp only

theorem State.haltSilent_keep (s : State) : Keep 0x3FF7FFFFB s (State.haltSilent s) := by
  unfold State.haltSilent
  repeat' first
    | exact rfl
    | with_reducible apply Keep.refl
    | with_reducible assumption
    | with_reducible apply Keep.via (State.wr64_keep ..)
    | with_reducible apply Keep.via (State.toHalted_keep ..)
    | with_reducible apply Keep.ite
    | split
    | dsimp -proj only
    | ((with_reducible conv => arg 3; whnf); first | split)
    | dsimp -proj +zetaDelta only
    | dsimp only

theorem State.setDev_keep (s : State) (new cause : Nat) : Keep 0x3EFFDFCFB s (State.setDev s new cause) := by
  unfold State.setDev
  repeat' first
    | exact rfl
    | with_reducible apply Keep.refl
    | with_reducible assumption
    | with_reducible apply Keep.via (State.stampDev_keep ..)
    | with_reducible apply Keep.via (State.wf_keep ..)
    | with_reducible apply Keep.ite
    | split
    | extract_lets
    | dsimp -proj only
    | ((with_reducible conv => arg 3; whnf); first | split)
    | dsimp -proj +zetaDelta only
    | dsimp only

theorem State.setFlags_keep (s : State) (spin port chan marg : Bool) : Keep 0x3EFFDFCFB s (State.setFlags s spin port chan marg) := by
  unfold State.setFlags
  repeat' first
    | exact rfl
    | with_reducible apply Keep.refl
    | with_reducible assumption
    | with_reducible apply Keep.via (State.wr_keep ..)
    | with_reducible apply Keep.via (State.stampDev_keep ..)
    | with_reducible apply Keep.ite
    | split
    | extract_lets
    | dsimp -proj only
    | ((with_reducible conv => arg 3; whnf); first | split)
    | dsimp -proj +zetaDelta only
    | dsimp only

theorem State.setByte_keep (s : State) (k : Nat) (v : Byte) : Keep 0x3FFFFFBFF s (s.setByte k v) :=
  Keep.setMem rfl Memory.wf_tset (Keep.refl _ _)

theorem State.putBytes_keep (s : State) (k : Nat) (l : List Byte) : Keep 0x3FFFFFBFF s (s.putBytes k l) :=
  Keep.setMem rfl Memory.wf_memPut (Keep.refl _ _)

theorem State.setPoison_keep (s : State) (k : Nat) (p : Bool) : Keep 0x3FFFFF7FF s (s.setPoison k p) :=
  Keep.setPoison rfl twf_tset (Keep.refl _ _)

theorem State.setChan_keep (s : State) (ch : Nat) (c : Chan) : Keep 0x3FFFFBFFF s (s.setChan ch c) :=
  Keep.setChans rfl twf_tset (Keep.refl _ _)

theorem State.ceEvent_keep (s : State) (chn grp unit : Nat) (data : List (Nat × Nat × Nat)) : Keep 0x3EFFDBCFB s (State.ceEvent s chn grp unit data) := by
  unfold State.ceEvent
  repeat' first
    | exact rfl
    | with_reducible apply Keep.refl
    | with_reducible assumption
    | with_reducible apply Keep.via (State.event_keep ..)
    | with_reducible apply Keep.via (State.setChan_keep ..)
    | with_reducible apply Keep.ite
    | split
    | extract_lets
    | dsimp -proj only
    | ((with_reducible conv => arg 3; whnf); first | split)
    | dsimp -proj +zetaDelta only
    | dsimp only

theorem State.ceWindow_keep (s : State) (ch : Nat) : Keep 0x3EFFDBCFB s (State.ceWindow s ch) := by
  unfold State.ceWindow
  repeat' first
    | exact rfl
    | with_reducible apply Keep.refl
    | with_reducible assumption
    | with_reducible apply Keep.via (State.setChan_keep ..)
    | with_reducible apply Keep.via (State.event_keep ..)
    | with_reducible apply Keep.ite
    | split
    | extract_lets
    | dsimp -proj only
    | ((with_reducible conv => arg 3; whnf); first | split)
    | dsimp -proj +zetaDelta only
    | dsimp only

theorem State.noteDecode_keep (s : State) (k src sy : Nat) (d : Decode) (poisoned : Bool) : Keep 0x3EFFDBCFB s (State.noteDecode s k src sy d poisoned) := by
  unfold State.noteDecode
  repeat' first
    | exact rfl
    | with_reducible apply Keep.refl
    | with_reducible assumption
    | with_reducible apply Keep.via (State.wr_keep ..)
    | with_reducible apply Keep.via (State.sat_keep ..)
    | with_reducible apply Keep.via (State.ceWindow_keep ..)
    | with_reducible apply Keep.via (State.ceEvent_keep ..)
    | with_reducible apply Keep.via (State.event_keep ..)
    | with_reducible apply Keep.ite
    | split
    | extract_lets
    | dsimp -proj only
    | ((with_reducible conv => arg 3; whnf); first | split)
    | dsimp -proj +zetaDelta only
    | dsimp only

theorem State.readWord_keep (s : State) (k src : Nat) (f : Flips) : Keep 0x3EFFDB0FB s (State.readWord s k src f).2.2.2 := by
  unfold State.readWord
  repeat' first
    | exact rfl
    | with_reducible apply Keep.refl
    | with_reducible assumption
    | with_reducible apply Keep.via (State.noteDecode_keep ..)
    | with_reducible apply Keep.via (State.setPoison_keep ..)
    | with_reducible apply Keep.via (State.putBytes_keep ..)
    | with_reducible apply Keep.ite
    | with_reducible apply Keep.ite_snd3
    | with_reducible apply Keep.ite_snd2
    | with_reducible apply Keep.ite_snd
    | split
    | extract_lets
    | dsimp -proj only
    | ((with_reducible conv => arg 3; whnf); first | split)
    | dsimp -proj +zetaDelta only
    | dsimp only

theorem State.readWords_keep (n : Nat) (s : State) (k src : Nat) (f : Flips) :
    Keep 0x3EFFDB0FB s (State.readWords n s k src f).2.2.2 := by
  induction n generalizing s k with
  | zero => exact Keep.refl _ _
  | succ n ih => exact (Keep.via (State.readWord_keep ..) rfl (Keep.refl _ _)).trans (ih ..)

theorem State.writeWord_keep (s : State) (b at_ o : Nat) (l : List Byte) (pm : Nat) (f : Flips) : Keep 0x3EFFDB0FB s (State.writeWord s b at_ o l pm f).2.2 := by
  unfold State.writeWord
  repeat' first
    | exact rfl
    | with_reducible apply Keep.refl
    | with_reducible assumption
    | with_reducible apply Keep.via (State.setPoison_keep ..)
    | with_reducible apply Keep.via (State.putBytes_keep ..)
    | with_reducible apply Keep.via (State.readWord_keep ..)
    | with_reducible apply Keep.ite
    | with_reducible apply Keep.ite_snd2
    | with_reducible apply Keep.ite_snd
    | split
    | extract_lets
    | dsimp -proj only
    | ((with_reducible conv => arg 3; whnf); first | split)
    | dsimp -proj +zetaDelta only
    | dsimp only

theorem State.writeKey_keep (n : Nat) (s : State) (k o : Nat) (l : List Byte) (pm : Nat) (f : Flips) :
    Keep 0x3EFFDB0FB s (State.writeKey n s k o l pm f) := by
  induction n generalizing s k o l with
  | zero => exact Keep.refl _ _
  | succ n ih =>
    unfold State.writeKey
    split
    · exact Keep.refl _ _
    · exact (Keep.via (State.writeWord_keep ..) rfl (Keep.refl _ _)).trans (ih ..)

theorem State.clearKeys_keep (s : State) (lo hi : Nat) : Keep 0x3FFFFF3FF s (s.clearKeys lo hi) :=
  Keep.setMemPoison rfl rfl Memory.wf_filter twf_filter (Keep.refl _ _)


end Sys2Proof.Machine
end

