-- ==== Sys2Proof/Laws/KeepFabric.lean ====
section
/-! SUPPORT. What each operation of Machine/Fabric.lean leaves alone (Laws/Keep.lean). -/

namespace Sys2Proof.Machine

set_option linter.unusedTactic false
set_option linter.unreachableTactic false

theorem State.setPortSt_keep (s : State) (h v : Nat) : Keep 0x3FFFFFFFB s (State.setPortSt s h v) := by
  unfold State.setPortSt
  repeat' first
    | exact rfl
    | with_reducible apply Keep.refl
    | with_reducible assumption
    | with_reducible apply Keep.via (State.wf_keep ..)
    | dsimp -proj only
    | ((with_reducible conv => arg 3; whnf); first | split)
    | dsimp -proj +zetaDelta only
    | dsimp only

theorem State.setHalf_keep (s : State) (h : Nat) (x : Half) : Keep 0x3FFFBFFFF s (State.setHalf s h x) := by
  unfold State.setHalf
  repeat' first
    | exact rfl
    | with_reducible apply Keep.refl
    | with_reducible assumption
    | dsimp -proj only
    | ((with_reducible conv => arg 3; whnf); first | split | with_reducible apply Keep.setFab)
    | dsimp -proj +zetaDelta only
    | dsimp only

theorem State.discard_keep (s : State) (reason src dst : Nat) : Keep 0x3EFF9FCFB s (State.discard s reason src dst) := by
  unfold State.discard
  repeat' first
    | exact rfl
    | with_reducible apply Keep.refl
    | with_reducible assumption
    | with_reducible apply Keep.via (State.sat_keep ..)
    | with_reducible apply Keep.via (State.event_keep ..)
    | with_reducible apply Keep.ite
    | split
    | extract_lets
    | dsimp -proj only
    | ((with_reducible conv => arg 3; whnf); first | split | with_reducible apply Keep.setFab)
    | dsimp -proj +zetaDelta only
    | dsimp only

theorem State.enqueue_keep (s : State) (h vc : Nat) (p : Pkt) (ingress : Option Nat) (vcIn : Nat) : Keep 0x3FFFBFFFF s (State.enqueue s h vc p ingress vcIn) := by
  unfold State.enqueue
  repeat' first
    | exact rfl
    | with_reducible apply Keep.refl
    | with_reducible assumption
    | with_reducible apply Keep.via (State.setHalf_keep ..)
    | extract_lets
    | dsimp -proj only
    | ((with_reducible conv => arg 3; whnf); first | split)
    | dsimp -proj +zetaDelta only
    | dsimp only

theorem State.routePkt_keep (s : State) (p : Pkt) (ingress : Option Nat) (vc : Nat) (since : DWord) : Keep 0x3EFF9FCBB s (State.routePkt s p ingress vc since) := by
  unfold State.routePkt
  repeat' first
    | exact rfl
    | with_reducible apply Keep.refl
    | with_reducible assumption
    | with_reducible apply Keep.via (State.send_keep ..)
    | with_reducible apply Keep.via (State.discard_keep ..)
    | with_reducible apply Keep.via (State.enqueue_keep ..)
    | with_reducible apply Keep.ite
    | split
    | extract_lets
    | dsimp -proj only
    | ((with_reducible conv => arg 3; whnf); first | split | with_reducible apply Keep.setFab)
    | dsimp -proj +zetaDelta only
    | dsimp only

theorem State.copyMcast_keep (s : State) (p : Pkt) (ingress : Option Nat) (vc : Nat) : Keep 0x3FFFBFFFF s (State.copyMcast s p ingress vc) := by
  unfold State.copyMcast
  repeat' first
    | exact rfl
    | with_reducible apply Keep.refl
    | with_reducible assumption
    | with_reducible apply Keep.via (State.enqueue_keep ..)
    | with_reducible apply Keep.foldl
    | with_reducible apply Keep.foldl_snd
    | with_reducible apply Keep.foldl_fst
    | (intro _ _)
    | with_reducible apply Keep.ite
    | split
    | extract_lets
    | dsimp -proj only
    | ((with_reducible conv => arg 3; whnf); first | split)
    | dsimp -proj +zetaDelta only
    | dsimp only

theorem State.routeMcast_keep (s : State) (p : Pkt) : Keep 0x3EFF9FCBB s (State.routeMcast s p) := by
  unfold State.routeMcast
  repeat' first
    | exact rfl
    | with_reducible apply Keep.refl
    | with_reducible assumption
    | with_reducible apply Keep.via (State.discard_keep ..)
    | with_reducible apply Keep.via (State.copyMcast_keep ..)
    | with_reducible apply Keep.via (State.send_keep ..)
    | with_reducible apply Keep.ite
    | split
    | extract_lets
    | dsimp -proj only
    | ((with_reducible conv => arg 3; whnf); first | split)
    | dsimp -proj +zetaDelta only
    | dsimp only

theorem State.inject_keep (s : State) (p : Pkt) : Keep 0x3EFF9FCBB s (State.inject s p) := by
  unfold State.inject
  repeat' first
    | exact rfl
    | with_reducible apply Keep.refl
    | with_reducible assumption
    | with_reducible apply Keep.via (State.routeMcast_keep ..)
    | with_reducible apply Keep.via (State.routePkt_keep ..)
    | with_reducible apply Keep.ite
    | split
    | extract_lets
    | dsimp -proj only
    | ((with_reducible conv => arg 3; whnf); first | split)
    | dsimp -proj +zetaDelta only
    | dsimp only

theorem State.wait_keep (s : State) (w : WaitPkt) : Keep 0x3FFFBFFFF s (State.wait s w) := by
  unfold State.wait
  repeat' first
    | exact rfl
    | with_reducible apply Keep.refl
    | with_reducible assumption
    | dsimp -proj only
    | ((with_reducible conv => arg 3; whnf); first | split | with_reducible apply Keep.setFab)
    | dsimp -proj +zetaDelta only
    | dsimp only

theorem State.reroute_keep (s : State) (h : Nat) : Keep 0x3EFF9FCBB s (State.reroute s h) := by
  unfold State.reroute
  repeat' first
    | exact rfl
    | with_reducible apply Keep.refl
    | with_reducible assumption
    | with_reducible apply Keep.via (State.wait_keep ..)
    | with_reducible apply Keep.via (State.routePkt_keep ..)
    | with_reducible apply Keep.via (State.setHalf_keep ..)
    | with_reducible apply Keep.foldl
    | with_reducible apply Keep.foldl_snd
    | with_reducible apply Keep.foldl_fst
    | (intro _ _)
    | with_reducible apply Keep.ite
    | split
    | extract_lets
    | dsimp -proj only
    | ((with_reducible conv => arg 3; whnf); first | split)
    | dsimp -proj +zetaDelta only
    | dsimp only

theorem State.rerouteWaiting_keep (s : State) : Keep 0x3EFF9FCBB s (State.rerouteWaiting s) := by
  unfold State.rerouteWaiting
  repeat' first
    | exact rfl
    | with_reducible apply Keep.refl
    | with_reducible assumption
    | with_reducible apply Keep.via (State.routePkt_keep ..)
    | with_reducible apply Keep.via (State.enqueue_keep ..)
    | with_reducible apply Keep.via (State.wait_keep ..)
    | with_reducible apply Keep.foldl
    | with_reducible apply Keep.foldl_snd
    | with_reducible apply Keep.foldl_fst
    | (intro _ _)
    | with_reducible apply Keep.ite
    | split
    | dsimp -proj only
    | ((with_reducible conv => arg 3; whnf); first | split | with_reducible apply Keep.setFab)
    | dsimp -proj +zetaDelta only
    | dsimp only

theorem State.sendCtl_keep (s : State) (src dcoord dep tag op sub : Nat) (rest : List Byte) : Keep 0x3EFF9FCBB s (State.sendCtl s src dcoord dep tag op sub rest) := by
  unfold State.sendCtl
  repeat' first
    | exact rfl
    | with_reducible apply Keep.refl
    | with_reducible assumption
    | with_reducible apply Keep.via (State.inject_keep ..)
    | dsimp -proj only
    | ((with_reducible conv => arg 3; whnf); first | split)
    | dsimp -proj +zetaDelta only
    | dsimp only

theorem State.transmit_keep (s : State) (h : Nat) : Keep 0x3FFFBFFBB s (State.transmit s h) := by
  unfold State.transmit
  repeat' first
    | exact rfl
    | with_reducible apply Keep.refl
    | with_reducible assumption
    | with_reducible apply Keep.via (State.setHalf_keep ..)
    | with_reducible apply Keep.via (State.send_keep ..)
    | with_reducible apply Keep.via (State.add64_keep ..)
    | with_reducible apply Keep.ite
    | split
    | extract_lets
    | dsimp -proj only
    | ((with_reducible conv => arg 3; whnf); first | split)
    | dsimp -proj +zetaDelta only
    | dsimp only

theorem State.syncDgPort_keep (s : State) : Keep 0x3EFFDFCFB s (State.syncDgPort s) := by
  unfold State.syncDgPort
  repeat' first
    | exact rfl
    | with_reducible apply Keep.refl
    | with_reducible assumption
    | with_reducible apply Keep.via (State.setFlags_keep ..)
    | extract_lets
    | dsimp -proj only
    | ((with_reducible conv => arg 3; whnf); first | split)
    | dsimp -proj +zetaDelta only
    | dsimp only

theorem State.trainHalf_keep (s : State) (h : Nat) : Keep 0x3EFF9FCBB s (State.trainHalf s h) := by
  unfold State.trainHalf
  repeat' first
    | exact rfl
    | with_reducible apply Keep.refl
    | with_reducible assumption
    | with_reducible apply Keep.via (State.setHalf_keep ..)
    | with_reducible apply Keep.via (State.syncDgPort_keep ..)
    | with_reducible apply Keep.via (State.reroute_keep ..)
    | with_reducible apply Keep.via (State.setPortSt_keep ..)
    | with_reducible apply Keep.via (State.sat_keep ..)
    | with_reducible apply Keep.via (State.wf_keep ..)
    | with_reducible apply Keep.ite
    | split
    | extract_lets
    | dsimp -proj only
    | ((with_reducible conv => arg 3; whnf); first | split)
    | dsimp -proj +zetaDelta only
    | dsimp only

theorem State.beginTraining_keep (s : State) (h : Nat) : Keep 0x3EFF9FCBB s (State.beginTraining s h) := by
  unfold State.beginTraining
  repeat' first
    | exact rfl
    | with_reducible apply Keep.refl
    | with_reducible assumption
    | with_reducible apply Keep.via (State.trainHalf_keep ..)
    | with_reducible apply Keep.ite
    | split
    | extract_lets
    | dsimp -proj only
    | ((with_reducible conv => arg 3; whnf); first | split)
    | dsimp -proj +zetaDelta only
    | dsimp only

theorem State.retrain_keep (s : State) (h : Nat) : Keep 0x3EFF9FCBB s (State.retrain s h) := by
  unfold State.retrain
  repeat' first
    | exact rfl
    | with_reducible apply Keep.refl
    | with_reducible assumption
    | with_reducible apply Keep.via (State.beginTraining_keep ..)
    | with_reducible apply Keep.via (State.wf_keep ..)
    | dsimp -proj only
    | ((with_reducible conv => arg 3; whnf); first | split)
    | dsimp -proj +zetaDelta only
    | dsimp only

theorem State.disableHalf_keep (s : State) (h : Nat) : Keep 0x3EFF9FCBB s (State.disableHalf s h) := by
  unfold State.disableHalf
  repeat' first
    | exact rfl
    | with_reducible apply Keep.refl
    | with_reducible assumption
    | with_reducible apply Keep.via (State.setHalf_keep ..)
    | with_reducible apply Keep.via (State.wf_keep ..)
    | with_reducible apply Keep.via (State.syncDgPort_keep ..)
    | with_reducible apply Keep.via (State.reroute_keep ..)
    | with_reducible apply Keep.via (State.setPortSt_keep ..)
    | extract_lets
    | dsimp -proj only
    | ((with_reducible conv => arg 3; whnf); first | split)
    | dsimp -proj +zetaDelta only
    | dsimp only

theorem State.trainFail_keep (s : State) (h cause : Nat) : Keep 0x3EFF9FCFB s (State.trainFail s h cause) := by
  unfold State.trainFail
  repeat' first
    | exact rfl
    | with_reducible apply Keep.refl
    | with_reducible assumption
    | with_reducible apply Keep.via (State.setHalf_keep ..)
    | with_reducible apply Keep.via (State.event_keep ..)
    | with_reducible apply Keep.via (State.syncDgPort_keep ..)
    | with_reducible apply Keep.via (State.setPortSt_keep ..)
    | with_reducible apply Keep.via (State.wf_keep ..)
    | extract_lets
    | dsimp -proj only
    | ((with_reducible conv => arg 3; whnf); first | split)
    | dsimp -proj +zetaDelta only
    | dsimp only

theorem State.breachHalf_keep (s : State) (h cause peer : Nat) : Keep 0x3EFF9FCBB s (State.breachHalf s h cause peer) := by
  unfold State.breachHalf
  repeat' first
    | exact rfl
    | with_reducible apply Keep.refl
    | with_reducible assumption
    | with_reducible apply Keep.via (State.event_keep ..)
    | with_reducible apply Keep.via (State.setHalf_keep ..)
    | with_reducible apply Keep.via (State.syncDgPort_keep ..)
    | with_reducible apply Keep.via (State.reroute_keep ..)
    | with_reducible apply Keep.via (State.wf_keep ..)
    | with_reducible apply Keep.via (State.setPortSt_keep ..)
    | with_reducible apply Keep.ite
    | split
    | extract_lets
    | dsimp -proj only
    | ((with_reducible conv => arg 3; whnf); first | split)
    | dsimp -proj +zetaDelta only
    | dsimp only

theorem State.returnHalf_keep (s : State) (h : Nat) : Keep 0x3EFF9FCBB s (State.returnHalf s h) := by
  unfold State.returnHalf
  repeat' first
    | exact rfl
    | with_reducible apply Keep.refl
    | with_reducible assumption
    | with_reducible apply Keep.via (State.rerouteWaiting_keep ..)
    | with_reducible apply Keep.via (State.setPortSt_keep ..)
    | with_reducible apply Keep.ite
    | split
    | dsimp -proj only
    | ((with_reducible conv => arg 3; whnf); first | split)
    | dsimp -proj +zetaDelta only
    | dsimp only

theorem State.toPartners_keep (s : State) (type : Nat) (pay : List Byte) : Keep 0x3FFFBFFFF s (State.toPartners s type pay) := by
  unfold State.toPartners
  repeat' first
    | exact rfl
    | with_reducible apply Keep.refl
    | with_reducible assumption
    | with_reducible apply Keep.via (State.enqueue_keep ..)
    | with_reducible apply Keep.foldl
    | with_reducible apply Keep.foldl_snd
    | with_reducible apply Keep.foldl_fst
    | (intro _ _)
    | with_reducible apply Keep.ite
    | split
    | dsimp -proj only
    | ((with_reducible conv => arg 3; whnf); first | split)
    | dsimp -proj +zetaDelta only
    | dsimp only

theorem State.toPeers_keep (s : State) (type : Nat) (pay : List Byte) : Keep 0x3EFF9FCBB s (State.toPeers s type pay) := by
  unfold State.toPeers
  repeat' first
    | exact rfl
    | with_reducible apply Keep.refl
    | with_reducible assumption
    | with_reducible apply Keep.via (State.inject_keep ..)
    | with_reducible apply Keep.foldl
    | with_reducible apply Keep.foldl_snd
    | with_reducible apply Keep.foldl_fst
    | (intro _ _)
    | with_reducible apply Keep.ite
    | split
    | dsimp -proj only
    | ((with_reducible conv => arg 3; whnf); first | split)
    | dsimp -proj +zetaDelta only
    | dsimp only

theorem State.breachNotice_keep (s : State) (cause : Nat) : Keep 0x3EFF9FCBB s (State.breachNotice s cause) := by
  unfold State.breachNotice
  repeat' first
    | exact rfl
    | with_reducible apply Keep.refl
    | with_reducible assumption
    | with_reducible apply Keep.via (State.toPeers_keep ..)
    | with_reducible apply Keep.via (State.toPartners_keep ..)
    | extract_lets
    | dsimp -proj only
    | ((with_reducible conv => arg 3; whnf); first | split | with_reducible apply Keep.setFab)
    | dsimp -proj +zetaDelta only
    | dsimp only


end Sys2Proof.Machine
end

