-- ==== Sys2Proof/Laws/KeepDet.lean ====
section
/-! SUPPORT. What each operation of Machine/Det.lean leaves alone (Laws/Keep.lean). -/

namespace Sys2Proof.Machine

set_option linter.unusedTactic false
set_option linter.unreachableTactic false

theorem State.syncDet_keep (s : State) : Keep 0x3FFFFFFFB s (State.syncDet s) := by
  unfold State.syncDet
  repeat' first
    | exact rfl
    | with_reducible apply Keep.refl
    | with_reducible assumption
    | with_reducible apply Keep.via (State.wr64_keep ..)
    | with_reducible apply Keep.via (State.wr_keep ..)
    | with_reducible apply Keep.ite
    | split
    | extract_lets
    | dsimp -proj only
    | ((with_reducible conv => arg 3; whnf); first | split)
    | dsimp -proj +zetaDelta only
    | dsimp only

theorem State.modRun_keep (s : State) (f : RunRec → RunRec) : Keep 0x3FFFFDFFB s (State.modRun s f) := by
  unfold State.modRun
  repeat' first
    | exact rfl
    | with_reducible apply Keep.refl
    | with_reducible assumption
    | with_reducible apply Keep.via (State.syncDet_keep ..)
    | with_reducible apply Keep.via (State.setSlot_keep ..)
    | split
    | dsimp -proj only
    | ((with_reducible conv => arg 3; whnf); first | split)
    | dsimp -proj +zetaDelta only
    | dsimp only

theorem State.closeRecord_keep (s : State) (n : Nat) (isPartial : Bool) (out : List Byte) (last : Nat) : Keep 0x3EFFDDCFB s (State.closeRecord s n isPartial out last) := by
  unfold State.closeRecord
  repeat' first
    | exact rfl
    | with_reducible apply Keep.refl
    | with_reducible assumption
    | with_reducible apply Keep.via (State.wf_keep ..)
    | with_reducible apply Keep.via (State.setSlot_keep ..)
    | with_reducible apply Keep.via (State.eventCtx_keep ..)
    | split
    | extract_lets
    | dsimp -proj only
    | ((with_reducible conv => arg 3; whnf); first | split)
    | dsimp -proj +zetaDelta only
    | dsimp only

theorem State.voidTime_keep (s : State) (cause : Nat) : Keep 0x3EFFDDCFB s (State.voidTime s cause) := by
  unfold State.voidTime
  repeat' first
    | exact rfl
    | with_reducible apply Keep.refl
    | with_reducible assumption
    | with_reducible apply Keep.via (State.modRun_keep ..)
    | with_reducible apply Keep.via (State.event_keep ..)
    | with_reducible apply Keep.ite
    | split
    | extract_lets
    | dsimp -proj only
    | ((with_reducible conv => arg 3; whnf); first | split)
    | dsimp -proj +zetaDelta only
    | dsimp only

theorem State.quarEnd_keep (s : State) (verdict code : Nat) : Keep 0x3EFFDFCFB s (State.quarEnd s verdict code) := by
  unfold State.quarEnd
  repeat' first
    | exact rfl
    | with_reducible apply Keep.refl
    | with_reducible assumption
    | with_reducible apply Keep.via (State.wf_keep ..)
    | with_reducible apply Keep.via (State.wr_keep ..)
    | with_reducible apply Keep.via (State.event_keep ..)
    | with_reducible apply Keep.ite
    | split
    | extract_lets
    | dsimp -proj only
    | ((with_reducible conv => arg 3; whnf); first | split)
    | dsimp -proj +zetaDelta only
    | dsimp only

theorem State.ckptFail_keep (s : State) (cause coord : Nat) : Keep 0x3EDF95CFB s (State.ckptFail s cause coord) := by
  unfold State.ckptFail
  repeat' first
    | exact rfl
    | with_reducible apply Keep.refl
    | with_reducible assumption
    | with_reducible apply Keep.via (State.wf_keep ..)
    | with_reducible apply Keep.via (State.event_keep ..)
    | with_reducible apply Keep.via (State.sat_keep ..)
    | with_reducible apply Keep.via (State.setSlot_keep ..)
    | with_reducible apply Keep.ite
    | split
    | extract_lets
    | dsimp -proj only
    | ((with_reducible conv => arg 3; whnf); first | split | with_reducible apply Keep.setProtReel | with_reducible apply Keep.setFab)
    | dsimp -proj +zetaDelta only
    | dsimp only

theorem State.contextLost_keep (s : State) (n code : Nat) : Keep 0x3EDF15CFB s (State.contextLost s n code) := by
  unfold State.contextLost
  repeat' first
    | exact rfl
    | with_reducible apply Keep.refl
    | with_reducible assumption
    | with_reducible apply Keep.via (State.closeRecord_keep ..)
    | with_reducible apply Keep.via (State.ckptFail_keep ..)
    | with_reducible apply Keep.via (State.quarEnd_keep ..)
    | with_reducible apply Keep.ite
    | split
    | extract_lets
    | dsimp -proj only
    | ((with_reducible conv => arg 3; whnf); first | split | with_reducible apply Keep.setColl)
    | dsimp -proj +zetaDelta only
    | dsimp only


end Sys2Proof.Machine
end

