-- ==== Sys2Proof/Laws/KeepContext.lean ====
section
/-! SUPPORT. What each operation of Machine/Context.lean leaves alone (Laws/Keep.lean). -/

namespace Sys2Proof.Machine

set_option linter.unusedTactic false
set_option linter.unreachableTactic false

theorem State.sendChan_keep (s : State) (kind : ChanKind) (ctx : Nat) (src dst : ChanBind) (msg : ChanMsg) (op : Nat) : Keep 0x3EFF9FCBB s (State.sendChan s kind ctx src dst msg op) := by
  unfold State.sendChan
  repeat' first
    | exact rfl
    | with_reducible apply Keep.refl
    | with_reducible assumption
    | with_reducible apply Keep.via (State.sendCtl_keep ..)
    | with_reducible apply Keep.via (State.inject_keep ..)
    | with_reducible apply Keep.via (State.send_keep ..)
    | with_reducible apply Keep.ite
    | split
    | extract_lets
    | dsimp -proj only
    | ((with_reducible conv => arg 3; whnf); first | split)
    | dsimp -proj +zetaDelta only
    | dsimp only

theorem State.closeQueue_keep (s : State) (ps ctx q : Nat) : Keep 0x3EFF9ECBB s (State.closeQueue s ps ctx q) := by
  unfold State.closeQueue
  repeat' first
    | exact rfl
    | with_reducible apply Keep.refl
    | with_reducible assumption
    | with_reducible apply Keep.via (State.setSpn_keep ..)
    | with_reducible apply Keep.via (State.sat_keep ..)
    | with_reducible apply Keep.via (State.eventCtx_keep ..)
    | with_reducible apply Keep.via (State.sendChan_keep ..)
    | with_reducible apply Keep.ite
    | split
    | extract_lets
    | dsimp -proj only
    | ((with_reducible conv => arg 3; whnf); first | split)
    | dsimp -proj +zetaDelta only
    | dsimp only

theorem State.closeQueues_keep (s : State) (ps ctx : Nat) : Keep 0x3EFF9ECBB s (State.closeQueues s ps ctx) := by
  unfold State.closeQueues
  repeat' first
    | exact rfl
    | with_reducible apply Keep.refl
    | with_reducible assumption
    | with_reducible apply Keep.via (State.closeQueue_keep ..)
    | with_reducible apply Keep.foldl
    | with_reducible apply Keep.foldl_snd
    | with_reducible apply Keep.foldl_fst
    | (intro _ _)
    | dsimp -proj only
    | ((with_reducible conv => arg 3; whnf); first | split)
    | dsimp -proj +zetaDelta only
    | dsimp only

theorem State.syncResident_keep (s : State) : Keep 0x3FFFFFFFB s (State.syncResident s) := by
  unfold State.syncResident
  repeat' first
    | exact rfl
    | with_reducible apply Keep.refl
    | with_reducible assumption
    | with_reducible apply Keep.via (State.wr_keep ..)
    | with_reducible apply Keep.foldl
    | with_reducible apply Keep.foldl_snd
    | with_reducible apply Keep.foldl_fst
    | (intro _ _)
    | with_reducible apply Keep.ite
    | split
    | extract_lets
    | dsimp -proj only
    | ((with_reducible conv => arg 3; whnf); first | split)
    | dsimp -proj +zetaDelta only
    | dsimp only

theorem State.modSlot_keep (s : State) (n : Nat) (f : Slot → Slot) : Keep 0x3FFFDDFFB s (State.modSlot s n f) := by
  unfold State.modSlot
  repeat' first
    | exact rfl
    | with_reducible apply Keep.refl
    | with_reducible assumption
    | with_reducible apply Keep.via (State.raiseIrq_keep ..)
    | with_reducible apply Keep.via (State.syncResident_keep ..)
    | with_reducible apply Keep.via (State.setSlot_keep ..)
    | split
    | dsimp -proj only
    | ((with_reducible conv => arg 3; whnf); first | split)
    | dsimp -proj +zetaDelta only
    | dsimp only

theorem State.giveWay_keep (s : State) (w : GiveWay) : Keep 0x3FFFFDFFF s (State.giveWay s w) := by
  unfold State.giveWay
  repeat' first
    | exact rfl
    | with_reducible apply Keep.refl
    | with_reducible assumption
    | with_reducible apply Keep.ite
    | split
    | extract_lets
    | dsimp -proj only
    | ((with_reducible conv => arg 3; whnf); first | split | with_reducible apply Keep.setSeqr)
    | dsimp -proj +zetaDelta only
    | dsimp only

theorem State.faultRunning_keep (s : State) (code : Nat) : Keep 0x3EDF14CBB s (State.faultRunning s code) := by
  unfold State.faultRunning
  repeat' first
    | exact rfl
    | with_reducible apply Keep.refl
    | with_reducible assumption
    | with_reducible apply Keep.via (State.closeQueues_keep ..)
    | with_reducible apply Keep.via (State.setSpnState_keep ..)
    | with_reducible apply Keep.via (State.modSpn_keep ..)
    | with_reducible apply Keep.via (State.modSlot_keep ..)
    | with_reducible apply Keep.via (State.giveWay_keep ..)
    | with_reducible apply Keep.via (State.contextLost_keep ..)
    | with_reducible apply Keep.foldl
    | with_reducible apply Keep.foldl_snd
    | with_reducible apply Keep.foldl_fst
    | (intro _ _)
    | with_reducible apply Keep.ite
    | split
    | extract_lets
    | dsimp -proj only
    | ((with_reducible conv => arg 3; whnf); first | split)
    | dsimp -proj +zetaDelta only
    | dsimp only

theorem State.spnFault_keep (s : State) (ps code unit tag : Nat) (data : List (Nat × Nat × Nat)) : Keep 0x3EDF14CBB s (State.spnFault s ps code unit tag data) := by
  unfold State.spnFault
  repeat' first
    | exact rfl
    | with_reducible apply Keep.refl
    | with_reducible assumption
    | with_reducible apply Keep.via (State.event_keep ..)
    | with_reducible apply Keep.via (State.wr_keep ..)
    | with_reducible apply Keep.via (State.faultRunning_keep ..)
    | extract_lets
    | dsimp -proj only
    | ((with_reducible conv => arg 3; whnf); first | split)
    | dsimp -proj +zetaDelta only
    | dsimp only


end Sys2Proof.Machine
end

