-- ==== Sys2Proof/Laws/KeepMem.lean ====
section
/-! SUPPORT. What each operation of Machine/Mem.lean leaves alone (Laws/Keep.lean). -/

namespace Sys2Proof.Machine

set_option linter.unusedTactic false
set_option linter.unreachableTactic false

theorem State.addrError_keep (s : State) (a src dir late : Nat) : Keep 0x3EFFDFCFB s (State.addrError s a src dir late) := by
  unfold State.addrError
  repeat' first
    | exact rfl
    | with_reducible apply Keep.refl
    | with_reducible assumption
    | with_reducible apply Keep.via (State.event_keep ..)
    | dsimp -proj only
    | ((with_reducible conv => arg 3; whnf); first | split)
    | dsimp -proj +zetaDelta only
    | dsimp only

theorem State.rowWrite_keep {m : Nat} {s t : State} (a : Nat) (eff : State → State) (hm : sub m 0x3EFFDFCFB = true) (h : Keep m t (eff s))
    (g : Keep m t s) : Keep m t (s.rowWrite a eff) := by
  unfold State.rowWrite
  exact Keep.ite h (Keep.via (State.addrError_keep ..) hm g)

theorem State.syncStopAt_keep (s : State) (st c : Nat) : Keep 0x3EFFDFCFB s (State.syncStopAt s st c) := by
  unfold State.syncStopAt
  repeat' first
    | exact rfl
    | with_reducible apply Keep.refl
    | with_reducible assumption
    | with_reducible apply Keep.via (State.wr_keep ..)
    | with_reducible apply Keep.via (State.event_keep ..)
    | with_reducible apply Keep.ite
    | split
    | extract_lets
    | dsimp -proj only
    | ((with_reducible conv => arg 3; whnf); first | split)
    | dsimp -proj +zetaDelta only
    | dsimp only

theorem State.syncStop_keep (s : State) (ps : Nat) : Keep 0x3EFFDFCFB s (State.syncStop s ps) := by
  unfold State.syncStop
  repeat' first
    | exact rfl
    | with_reducible apply Keep.refl
    | with_reducible assumption
    | with_reducible apply Keep.via (State.syncStopAt_keep ..)
    | dsimp -proj only
    | ((with_reducible conv => arg 3; whnf); first | split)
    | dsimp -proj +zetaDelta only
    | dsimp only

theorem State.syncUnits_keep (s : State) (l : List Nat) : Keep 0x3EFFDFCFB s (State.syncUnits s l) := by
  unfold State.syncUnits
  repeat' first
    | exact rfl
    | with_reducible apply Keep.refl
    | with_reducible assumption
    | with_reducible apply Keep.via (State.syncStopAt_keep ..)
    | with_reducible apply Keep.foldl
    | with_reducible apply Keep.foldl_snd
    | with_reducible apply Keep.foldl_fst
    | (intro _ _)
    | dsimp -proj only
    | ((with_reducible conv => arg 3; whnf); first | split)
    | dsimp -proj +zetaDelta only
    | dsimp only

theorem State.takeLoad_keep (s : State) (l : RingLoad) : Keep 0x2FFFFFFBF s (State.takeLoad s l) := by
  unfold State.takeLoad
  repeat' first
    | exact rfl
    | with_reducible apply Keep.refl
    | with_reducible assumption
    | with_reducible apply Keep.via (State.take_keep ..)
    | split
    | dsimp -proj only
    | ((with_reducible conv => arg 3; whnf); first | split | with_reducible apply Keep.setRing)
    | dsimp -proj +zetaDelta only
    | dsimp only

theorem State.syncSpares_keep (s : State) (ch : Nat) : Keep 0x3FFFFFFFB s (State.syncSpares s ch) := by
  unfold State.syncSpares
  repeat' first
    | exact rfl
    | with_reducible apply Keep.refl
    | with_reducible assumption
    | with_reducible apply Keep.via (State.wf_keep ..)
    | extract_lets
    | dsimp -proj only
    | ((with_reducible conv => arg 3; whnf); first | split)
    | dsimp -proj +zetaDelta only
    | dsimp only

theorem State.startRepair_keep (s : State) (ch layer bank row : Nat) (fuse : Bool) : Keep 0x3EFFDBCFB s (State.startRepair s ch layer bank row fuse).1 := by
  unfold State.startRepair
  repeat' first
    | exact rfl
    | with_reducible apply Keep.refl
    | with_reducible assumption
    | with_reducible apply Keep.via (State.event_keep ..)
    | with_reducible apply Keep.via (State.setChan_keep ..)
    | with_reducible apply Keep.ite
    | with_reducible apply Keep.ite_fst
    | split
    | extract_lets
    | dsimp -proj only
    | ((with_reducible conv => arg 3; whnf); first | split)
    | dsimp -proj +zetaDelta only
    | dsimp only

theorem State.autoRepair_keep (s : State) (ch ca : Nat) (d : Decode) : Keep 0x3EFFDBCFB s (State.autoRepair s ch ca d) := by
  unfold State.autoRepair
  repeat' first
    | exact rfl
    | with_reducible apply Keep.refl
    | with_reducible assumption
    | with_reducible apply Keep.via (State.startRepair_keep ..)
    | with_reducible apply Keep.via (State.setChan_keep ..)
    | with_reducible apply Keep.ite
    | split
    | extract_lets
    | dsimp -proj only
    | ((with_reducible conv => arg 3; whnf); first | split)
    | dsimp -proj +zetaDelta only
    | dsimp only

theorem State.autoRepairs_keep (s : State) (l : List (Nat × Decode)) : Keep 0x3EFFDBCFB s (State.autoRepairs s l) := by
  unfold State.autoRepairs
  repeat' first
    | exact rfl
    | with_reducible apply Keep.refl
    | with_reducible assumption
    | with_reducible apply Keep.via (State.autoRepair_keep ..)
    | with_reducible apply Keep.foldl
    | with_reducible apply Keep.foldl_snd
    | with_reducible apply Keep.foldl_fst
    | (intro _ _)
    | with_reducible apply Keep.ite
    | split
    | extract_lets
    | dsimp -proj only
    | ((with_reducible conv => arg 3; whnf); first | split)
    | dsimp -proj +zetaDelta only
    | dsimp only

theorem State.foreignAccess_keep (s : State) (who : Who) (a : Nat) : Keep 0x3EFFDDCFB s (State.foreignAccess s who a) := by
  unfold State.foreignAccess
  repeat' first
    | exact rfl
    | with_reducible apply Keep.refl
    | with_reducible assumption
    | with_reducible apply Keep.via (State.voidTime_keep ..)
    | with_reducible apply Keep.via (State.modRun_keep ..)
    | with_reducible apply Keep.ite
    | split
    | extract_lets
    | dsimp -proj only
    | ((with_reducible conv => arg 3; whnf); first | split)
    | dsimp -proj +zetaDelta only
    | dsimp only

theorem State.readDevWord_keep (s : State) (src b : Nat) (f : Flips) : Keep 0x3EFFDB0FB s (State.readDevWord s src b f).2 := by
  unfold State.readDevWord
  repeat' first
    | exact rfl
    | with_reducible apply Keep.refl
    | with_reducible assumption
    | with_reducible apply Keep.via (State.readWord_keep ..)
    | with_reducible apply Keep.ite
    | with_reducible apply Keep.ite_snd
    | split
    | extract_lets
    | dsimp -proj only
    | ((with_reducible conv => arg 3; whnf); first | split)
    | dsimp -proj +zetaDelta only
    | dsimp only

theorem State.readDevWords_keep (n : Nat) (s : State) (src b : Nat) (f : Flips) :
    Keep 0x3EFFDB0FB s (State.readDevWords n s src b f).2 := by
  induction n generalizing s b with
  | zero => exact Keep.refl _ _
  | succ n ih => exact (Keep.via (State.readDevWord_keep ..) rfl (Keep.refl _ _)).trans (ih ..)

theorem State.fencedEvent_keep (s : State) (b a dir : Nat) : Keep 0x3EFFDFCFB s (State.fencedEvent s b a dir) := by
  unfold State.fencedEvent
  repeat' first
    | exact rfl
    | with_reducible apply Keep.refl
    | with_reducible assumption
    | with_reducible apply Keep.via (State.event_keep ..)
    | split
    | dsimp -proj only
    | ((with_reducible conv => arg 3; whnf); first | split)
    | dsimp -proj +zetaDelta only
    | dsimp only

theorem State.rawRead_keep (s : State) (who : Who) (src a n : Nat) (f : Flips) : Keep 0x3EFFDB0FB s (State.rawRead s who src a n f).2.2.2 := by
  unfold State.rawRead
  repeat' first
    | exact rfl
    | with_reducible apply Keep.refl
    | with_reducible assumption
    | with_reducible apply Keep.via (State.readDevWords_keep ..)
    | with_reducible apply Keep.via (State.autoRepairs_keep ..)
    | with_reducible apply Keep.via (State.sat_keep ..)
    | with_reducible apply Keep.via (State.addrError_keep ..)
    | with_reducible apply Keep.via (State.fencedEvent_keep ..)
    | with_reducible apply Keep.foldl
    | with_reducible apply Keep.foldl_snd
    | with_reducible apply Keep.foldl_fst
    | (intro _ _)
    | with_reducible apply Keep.ite
    | with_reducible apply Keep.ite_snd3
    | with_reducible apply Keep.ite_snd2
    | with_reducible apply Keep.ite_snd
    | split
    | extract_lets
    | dsimp -proj only
    | ((with_reducible conv => arg 3; whnf); first | split)
    | dsimp -proj +zetaDelta only
    | dsimp only

theorem State.devRead_keep (s : State) (who : Who) (a n : Nat) (f : Flips) : Keep 0x3EFFD90FB s (State.devRead s who a n f).2.2.2 := by
  unfold State.devRead
  repeat' first
    | exact rfl
    | with_reducible apply Keep.refl
    | with_reducible assumption
    | with_reducible apply Keep.via (State.rawRead_keep ..)
    | with_reducible apply Keep.via (State.foreignAccess_keep ..)
    | dsimp -proj only
    | ((with_reducible conv => arg 3; whnf); first | split)
    | dsimp -proj +zetaDelta only
    | dsimp only

theorem State.protEvent_keep (s : State) (p : ProtRgn) (who : Who) (a : Nat) : Keep 0x3EDF14CBB s (State.protEvent s p who a) := by
  unfold State.protEvent
  repeat' first
    | exact rfl
    | with_reducible apply Keep.refl
    | with_reducible assumption
    | with_reducible apply Keep.via (State.event_keep ..)
    | with_reducible apply Keep.via (State.sat_keep ..)
    | with_reducible apply Keep.via (State.faultRunning_keep ..)
    | with_reducible apply Keep.ite
    | split
    | extract_lets
    | dsimp -proj only
    | ((with_reducible conv => arg 3; whnf); first | split)
    | dsimp -proj +zetaDelta only
    | dsimp only

theorem State.writeDevWord_keep (s : State) (b at_ o : Nat) (l : List Byte) (pm : Nat) (f : Flips) : Keep 0x3EFFDB0FB s (State.writeDevWord s b at_ o l pm f).2 := by
  unfold State.writeDevWord
  repeat' first
    | exact rfl
    | with_reducible apply Keep.refl
    | with_reducible assumption
    | with_reducible apply Keep.via (State.writeWord_keep ..)
    | with_reducible apply Keep.ite
    | with_reducible apply Keep.ite_snd
    | split
    | extract_lets
    | dsimp -proj only
    | ((with_reducible conv => arg 3; whnf); first | split)
    | dsimp -proj +zetaDelta only
    | dsimp only

theorem State.writeDevWords_keep (n : Nat) (s : State) (a o : Nat) (l : List Byte) (pm : Nat) (f : Flips) :
    Keep 0x3EFFDB0FB s (State.writeDevWords n s a o l pm f).2 := by
  induction n generalizing s a o l with
  | zero => exact Keep.refl _ _
  | succ n ih =>
    unfold State.writeDevWords
    split
    · exact Keep.refl _ _
    · exact (Keep.via (State.writeDevWord_keep ..) rfl (Keep.refl _ _)).trans (ih ..)

theorem State.rawWrite_keep (s : State) (who : Who) (a : Nat) (l : List Byte) (pm : Nat) (f : Flips) : Keep 0x3EDF100BB s (State.rawWrite s who a l pm f).2.2 := by
  unfold State.rawWrite
  repeat' first
    | exact rfl
    | with_reducible apply Keep.refl
    | with_reducible assumption
    | with_reducible apply Keep.via (State.fencedEvent_keep ..)
    | with_reducible apply Keep.via (State.protEvent_keep ..)
    | with_reducible apply Keep.via (State.writeDevWords_keep ..)
    | with_reducible apply Keep.via (State.autoRepairs_keep ..)
    | with_reducible apply Keep.via (State.sat_keep ..)
    | with_reducible apply Keep.via (State.addrError_keep ..)
    | with_reducible apply Keep.foldl
    | with_reducible apply Keep.foldl_snd
    | with_reducible apply Keep.foldl_fst
    | (intro _ _)
    | with_reducible apply Keep.ite
    | with_reducible apply Keep.ite_snd2
    | with_reducible apply Keep.ite_snd
    | split
    | extract_lets
    | dsimp -proj only
    | ((with_reducible conv => arg 3; whnf); first | split)
    | dsimp -proj +zetaDelta only
    | dsimp only

theorem State.devWrite_keep (s : State) (who : Who) (a : Nat) (l : List Byte) (pm : Nat) (f : Flips) : Keep 0x3EDF100BB s (State.devWrite s who a l pm f).2.2 := by
  unfold State.devWrite
  repeat' first
    | exact rfl
    | with_reducible apply Keep.refl
    | with_reducible assumption
    | with_reducible apply Keep.via (State.rawWrite_keep ..)
    | with_reducible apply Keep.via (State.foreignAccess_keep ..)
    | dsimp -proj only
    | ((with_reducible conv => arg 3; whnf); first | split)
    | dsimp -proj +zetaDelta only
    | dsimp only

theorem State.devAtomic_keep (s : State) (who : Who) (a aop operand cmp : Nat) (bad : Bool) (f : Flips) : Keep 0x3EDF100BB s (State.devAtomic s who a aop operand cmp bad f).2.2.2 := by
  unfold State.devAtomic
  repeat' first
    | exact rfl
    | with_reducible apply Keep.refl
    | with_reducible assumption
    | with_reducible apply Keep.via (State.foreignAccess_keep ..)
    | with_reducible apply Keep.via (State.fencedEvent_keep ..)
    | with_reducible apply Keep.via (State.protEvent_keep ..)
    | with_reducible apply Keep.via (State.sat_keep ..)
    | with_reducible apply Keep.via (State.rawRead_keep ..)
    | with_reducible apply Keep.via (State.rawWrite_keep ..)
    | with_reducible apply Keep.ite
    | with_reducible apply Keep.ite_snd3
    | with_reducible apply Keep.ite_snd2
    | with_reducible apply Keep.ite_snd
    | split
    | extract_lets
    | dsimp -proj only
    | ((with_reducible conv => arg 3; whnf); first | split)
    | dsimp -proj +zetaDelta only
    | dsimp only

theorem State.serve_keep (s : State) (r : MemReq) (f : Flips) : Keep 0x3EDF100BB s (State.serve s r f).2 := by
  unfold State.serve
  repeat' first
    | exact rfl
    | with_reducible apply Keep.refl
    | with_reducible assumption
    | with_reducible apply Keep.via (State.devRead_keep ..)
    | with_reducible apply Keep.via (State.devWrite_keep ..)
    | with_reducible apply Keep.via (State.devAtomic_keep ..)
    | with_reducible apply Keep.ite
    | with_reducible apply Keep.ite_snd
    | split
    | extract_lets
    | dsimp -proj only
    | ((with_reducible conv => arg 3; whnf); first | split)
    | dsimp -proj +zetaDelta only
    | dsimp only


end Sys2Proof.Machine
end

