-- ==== Sys2Proof/Laws/KeepMemUnit.lean ====
section
/-! SUPPORT. What each operation of Machine/MemUnit.lean leaves alone (Laws/Keep.lean). -/

namespace Sys2Proof.Machine

set_option linter.unusedTactic false
set_option linter.unreachableTactic false

theorem State.peaks_keep (s : State) (ps : Nat) : Keep 0x3FFFFFFFB s (State.peaks s ps) := by
  unfold State.peaks
  repeat' first
    | exact rfl
    | with_reducible apply Keep.refl
    | with_reducible assumption
    | with_reducible apply Keep.via (State.maxField_keep ..)
    | with_reducible apply Keep.foldl
    | with_reducible apply Keep.foldl_snd
    | with_reducible apply Keep.foldl_fst
    | (intro _ _)
    | extract_lets
    | dsimp -proj only
    | ((with_reducible conv => arg 3; whnf); first | split)
    | dsimp -proj +zetaDelta only
    | dsimp only

theorem State.deliver_keep (s : State) (ps q op : Nat) (m : ChanMsg) : Keep 0x3EFF9ECBB s (State.deliver s ps q op m) := by
  unfold State.deliver
  repeat' first
    | exact rfl
    | with_reducible apply Keep.refl
    | with_reducible assumption
    | with_reducible apply Keep.via (State.sat_keep ..)
    | with_reducible apply Keep.via (State.setSpn_keep ..)
    | with_reducible apply Keep.via (State.sendChan_keep ..)
    | with_reducible apply Keep.ite
    | split
    | extract_lets
    | dsimp -proj only
    | ((with_reducible conv => arg 3; whnf); first | split)
    | dsimp -proj +zetaDelta only
    | dsimp only

theorem State.pumpQueue_keep (n : Nat) (s : State) (ps q : Nat) : Keep 0x3EFF9ECBB s (State.pumpQueue n s ps q) := by
  induction n generalizing s with
  | zero => exact Keep.refl _ _
  | succ n ih =>
    unfold State.pumpQueue
    extract_lets
    split
    · exact Keep.refl _ _
    · split
      · exact (Keep.via (State.deliver_keep ..) rfl (Keep.refl _ _)).trans (ih ..)
      · split
        · exact Keep.via (State.modSpn_keep ..) rfl (Keep.refl _ _)
        · exact Keep.refl _ _

theorem State.fillWatch_keep (s : State) (ps c : Nat) : Keep 0x3FFFFEFEF s (State.fillWatch s ps c) := by
  unfold State.fillWatch
  repeat' first
    | exact rfl
    | with_reducible apply Keep.refl
    | with_reducible assumption
    | with_reducible apply Keep.via (State.free_keep ..)
    | with_reducible apply Keep.via (State.setSpn_keep ..)
    | with_reducible apply Keep.ite
    | split
    | extract_lets
    | dsimp -proj only
    | ((with_reducible conv => arg 3; whnf); first | split)
    | dsimp -proj +zetaDelta only
    | dsimp only

theorem State.raiseCounter_keep (s : State) (ps c n : Nat) (poison : Bool) : Keep 0x3FFFFEFEF s (State.raiseCounter s ps c n poison) := by
  unfold State.raiseCounter
  repeat' first
    | exact rfl
    | with_reducible apply Keep.refl
    | with_reducible assumption
    | with_reducible apply Keep.via (State.modSpn_keep ..)
    | with_reducible apply Keep.via (State.fillWatch_keep ..)
    | with_reducible apply Keep.ite
    | split
    | extract_lets
    | dsimp -proj only
    | ((with_reducible conv => arg 3; whnf); first | split)
    | dsimp -proj +zetaDelta only
    | dsimp only

theorem State.maskErrors_keep (s : State) (ps u n : Nat) : Keep 0x3EFFDECFB s (State.maskErrors s ps u n) := by
  unfold State.maskErrors
  repeat' first
    | exact rfl
    | with_reducible apply Keep.refl
    | with_reducible assumption
    | with_reducible apply Keep.via (State.sat_keep ..)
    | with_reducible apply Keep.via (State.event_keep ..)
    | with_reducible apply Keep.via (State.setSpn_keep ..)
    | with_reducible apply Keep.ite
    | split
    | extract_lets
    | dsimp -proj only
    | ((with_reducible conv => arg 3; whnf); first | split)
    | dsimp -proj +zetaDelta only
    | dsimp only

theorem State.fireBread_keep (s : State) (c : UCtx) (u : Nat) (w : DWord) (t1 : Option Flit) (f : Flips) : Keep 0x3EDF100BB s (State.fireBread s c u w t1 f) := by
  unfold State.fireBread
  repeat' first
    | exact rfl
    | with_reducible apply Keep.refl
    | with_reducible assumption
    | with_reducible apply Keep.via (State.spnFault_keep ..)
    | with_reducible apply Keep.via (State.readWords_keep ..)
    | with_reducible apply Keep.via (State.modSpn_keep ..)
    | with_reducible apply Keep.via (State.maskErrors_keep ..)
    | with_reducible apply Keep.ite
    | split
    | extract_lets
    | dsimp -proj only
    | ((with_reducible conv => arg 3; whnf); first | split)
    | dsimp -proj +zetaDelta only
    | dsimp only

theorem State.fireBwrite_keep (s : State) (c : UCtx) (u : Nat) (w : DWord) (t0 : Flit) (t1 : Option Flit) (f : Flips) : Keep 0x3EDF100BB s (State.fireBwrite s c u w t0 t1 f) := by
  unfold State.fireBwrite
  repeat' first
    | exact rfl
    | with_reducible apply Keep.refl
    | with_reducible assumption
    | with_reducible apply Keep.via (State.spnFault_keep ..)
    | with_reducible apply Keep.via (State.writeKey_keep ..)
    | split
    | extract_lets
    | dsimp -proj only
    | ((with_reducible conv => arg 3; whnf); first | split)
    | dsimp -proj +zetaDelta only
    | dsimp only

theorem State.issueReserved_keep {m : Nat} (s : State) (ps sl : Nat) (tag : BitVec 8) (gen : BitVec 2) (n : Nat) (o : OpEnt)
    (k : State → Nat → State) (hm : sub m 0x3EDF14CBB = true) (hk : ∀ u n, Keep m u (k u n)) :
    Keep m s (State.issueReserved s ps sl tag gen n o k) := by
  unfold State.issueReserved
  extract_lets
  split
  · exact Keep.via (State.spnFault_keep ..) hm (Keep.refl _ _)
  · exact Keep.mono (Keep.via (State.peaks_keep ..) rfl (Keep.via (State.setSpn_keep ..) rfl (Keep.refl _ _))) hm |>.trans (hk ..)

theorem State.fireRd_keep (s : State) (c : UCtx) (u : Nat) (w : DWord) (t1 : Option Flit) : Keep 0x3EDF14CBB s (State.fireRd s c u w t1) := by
  unfold State.fireRd
  repeat' first
    | exact rfl
    | with_reducible apply Keep.refl
    | with_reducible assumption
    | with_reducible apply State.issueReserved_keep
    | (intro _ _)
    | with_reducible apply Keep.via (State.send_keep ..)
    | with_reducible apply Keep.ite
    | split
    | extract_lets
    | dsimp -proj only
    | ((with_reducible conv => arg 3; whnf); first | split)
    | dsimp -proj +zetaDelta only
    | dsimp only

theorem State.fireWr_keep (s : State) (c : UCtx) (u : Nat) (w : DWord) (t0 : Flit) (t1 : Option Flit) : Keep 0x3FFFFEFBB s (State.fireWr s c u w t0 t1) := by
  unfold State.fireWr
  repeat' first
    | exact rfl
    | with_reducible apply Keep.refl
    | with_reducible assumption
    | with_reducible apply Keep.via (State.send_keep ..)
    | with_reducible apply Keep.via (State.peaks_keep ..)
    | with_reducible apply Keep.via (State.setSpn_keep ..)
    | extract_lets
    | dsimp -proj only
    | ((with_reducible conv => arg 3; whnf); first | split)
    | dsimp -proj +zetaDelta only
    | dsimp only

theorem State.fireAtom_keep (s : State) (c : UCtx) (u : Nat) (w : DWord) (t0 : Flit) (t1 : Option Flit) : Keep 0x3EDF14CBB s (State.fireAtom s c u w t0 t1) := by
  unfold State.fireAtom
  repeat' first
    | exact rfl
    | with_reducible apply Keep.refl
    | with_reducible assumption
    | with_reducible apply State.issueReserved_keep
    | (intro _ _)
    | with_reducible apply Keep.via (State.send_keep ..)
    | with_reducible apply Keep.ite
    | split
    | extract_lets
    | dsimp -proj only
    | ((with_reducible conv => arg 3; whnf); first | split)
    | dsimp -proj +zetaDelta only
    | dsimp only

theorem State.fireRecv_keep (s : State) (c : UCtx) (w : DWord) (f : Flips) : Keep 0x3EDF14CBB s (State.fireRecv s c w f) := by
  unfold State.fireRecv
  repeat' first
    | exact rfl
    | with_reducible apply Keep.refl
    | with_reducible assumption
    | with_reducible apply State.issueReserved_keep
    | (intro _ _)
    | with_reducible apply Keep.via (State.modSpn_keep ..)
    | with_reducible apply Keep.via (State.pumpQueue_keep ..)
    | with_reducible apply Keep.ite
    | split
    | extract_lets
    | dsimp -proj only
    | ((with_reducible conv => arg 3; whnf); first | split)
    | dsimp -proj +zetaDelta only
    | dsimp only

theorem State.fireSend_keep (s : State) (c : UCtx) (u : Nat) (w : DWord) (t0 : Flit) : Keep 0x3EDF14CBB s (State.fireSend s c u w t0) := by
  unfold State.fireSend
  repeat' first
    | exact rfl
    | with_reducible apply Keep.refl
    | with_reducible assumption
    | with_reducible apply Keep.via (State.peaks_keep ..)
    | with_reducible apply Keep.via (State.setSpn_keep ..)
    | with_reducible apply Keep.via (State.sendChan_keep ..)
    | with_reducible apply Keep.via (State.spnFault_keep ..)
    | with_reducible apply Keep.via (State.sat_keep ..)
    | with_reducible apply Keep.via (State.event_keep ..)
    | with_reducible apply Keep.ite
    | split
    | extract_lets
    | dsimp -proj only
    | ((with_reducible conv => arg 3; whnf); first | split | with_reducible apply Keep.setFab)
    | dsimp -proj +zetaDelta only
    | dsimp only

theorem State.fireWatch_keep (s : State) (c : UCtx) (w : DWord) : Keep 0x3EDF14CAB s (State.fireWatch s c w) := by
  unfold State.fireWatch
  repeat' first
    | exact rfl
    | with_reducible apply Keep.refl
    | with_reducible assumption
    | with_reducible apply State.issueReserved_keep
    | (intro _ _)
    | with_reducible apply Keep.via (State.fillWatch_keep ..)
    | extract_lets
    | dsimp -proj only
    | ((with_reducible conv => arg 3; whnf); first | split)
    | dsimp -proj +zetaDelta only
    | dsimp only

theorem State.release_keep (s : State) (c : UCtx) (u port : Nat) (tag : BitVec 8) (carry : Bool) (f : Flips) : Keep 0x3EDF14CBB s (State.release s c u port tag carry f) := by
  unfold State.release
  repeat' first
    | exact rfl
    | with_reducible apply Keep.refl
    | with_reducible assumption
    | with_reducible apply Keep.via (State.spnFault_keep ..)
    | with_reducible apply Keep.via (State.setSpn_keep ..)
    | with_reducible apply Keep.via (State.wr_keep ..)
    | with_reducible apply Keep.ite
    | split
    | extract_lets
    | dsimp -proj only
    | ((with_reducible conv => arg 3; whnf); first | split)
    | dsimp -proj +zetaDelta only
    | dsimp only

theorem State.fireSluice_keep (s : State) (c : UCtx) (u : Nat) (w : DWord) (carry : Bool) (f : Flips) : Keep 0x3EDF14CBB s (State.fireSluice s c u w carry f) := by
  unfold State.fireSluice
  repeat' first
    | exact rfl
    | with_reducible apply Keep.refl
    | with_reducible assumption
    | with_reducible apply Keep.via (State.release_keep ..)
    | with_reducible apply Keep.ite
    | split
    | extract_lets
    | dsimp -proj only
    | ((with_reducible conv => arg 3; whnf); first | split)
    | dsimp -proj +zetaDelta only
    | dsimp only


end Sys2Proof.Machine
end

