-- ==== Sys2Proof/Laws/KeepFlags.lean ====
section
/-! SUPPORT. What each operation of Machine/Flags.lean leaves alone (Laws/Keep.lean). -/

namespace Sys2Proof.Machine

set_option linter.unusedTactic false
set_option linter.unreachableTactic false

theorem State.numFlags_keep (s : State) (ps fl : Nat) : Keep 0x3FFFFFFFB s (State.numFlags s ps fl) := by
  unfold State.numFlags
  repeat' first
    | exact rfl
    | with_reducible apply Keep.refl
    | with_reducible assumption
    | with_reducible apply Keep.via (State.wr_keep ..)
    | with_reducible apply Keep.ite
    | split
    | dsimp -proj only
    | ((with_reducible conv => arg 3; whnf); first | split)
    | dsimp -proj +zetaDelta only
    | dsimp only

theorem State.rngReserved_keep (s : State) (ps u n : Nat) : Keep 0x3EFFDDCFB s (State.rngReserved s ps u n) := by
  unfold State.rngReserved
  repeat' first
    | exact rfl
    | with_reducible apply Keep.refl
    | with_reducible assumption
    | with_reducible apply Keep.via (State.sat_keep ..)
    | with_reducible apply Keep.via (State.event_keep ..)
    | with_reducible apply Keep.via (State.setSlot_keep ..)
    | with_reducible apply Keep.ite
    | split
    | extract_lets
    | dsimp -proj only
    | ((with_reducible conv => arg 3; whnf); first | split)
    | dsimp -proj +zetaDelta only
    | dsimp only

theorem State.spnCounts_keep (s : State) (ps : Nat) (l : List (Nat × Nat)) : Keep 0x3FFFFFFFB s (State.spnCounts s ps l) := by
  unfold State.spnCounts
  repeat' first
    | exact rfl
    | with_reducible apply Keep.refl
    | with_reducible assumption
    | with_reducible apply Keep.via (State.sat_keep ..)
    | with_reducible apply Keep.foldl
    | with_reducible apply Keep.foldl_snd
    | with_reducible apply Keep.foldl_fst
    | (intro _ _)
    | dsimp -proj only
    | ((with_reducible conv => arg 3; whnf); first | split)
    | dsimp -proj +zetaDelta only
    | dsimp only

theorem State.spnNotes_keep (s : State) (ps : Nat) (l : List (Nat × List Byte)) : Keep 0x3EFFDFCFB s (State.spnNotes s ps l) := by
  unfold State.spnNotes
  repeat' first
    | exact rfl
    | with_reducible apply Keep.refl
    | with_reducible assumption
    | with_reducible apply Keep.via (State.event_keep ..)
    | with_reducible apply Keep.foldl
    | with_reducible apply Keep.foldl_snd
    | with_reducible apply Keep.foldl_fst
    | (intro _ _)
    | dsimp -proj only
    | ((with_reducible conv => arg 3; whnf); first | split)
    | dsimp -proj +zetaDelta only
    | dsimp only

theorem State.applyRes_keep (s : State) (ps u tag : Nat) (row : Option Nat) (r : URes) : Keep 0x3EDF14CBB s (State.applyRes s ps u tag row r) := by
  unfold State.applyRes
  repeat' first
    | exact rfl
    | with_reducible apply Keep.refl
    | with_reducible assumption
    | with_reducible apply Keep.via (State.setSpn_keep ..)
    | with_reducible apply Keep.via (State.numFlags_keep ..)
    | with_reducible apply Keep.via (State.sat_keep ..)
    | with_reducible apply Keep.via (State.spnCounts_keep ..)
    | with_reducible apply Keep.via (State.spnNotes_keep ..)
    | with_reducible apply Keep.via (State.rngReserved_keep ..)
    | with_reducible apply Keep.via (State.spnFault_keep ..)
    | split
    | extract_lets
    | dsimp -proj only
    | ((with_reducible conv => arg 3; whnf); first | split)
    | dsimp -proj +zetaDelta only
    | dsimp only


end Sys2Proof.Machine
end

