-- ==== Sys2Proof/Laws/Fire.lean ====
section
/-! SUPPORT. What firing a slot of a unit other than a memory unit or a sluice does (spec/03_spindle.md R82, R90). -/

namespace Sys2Proof.Machine

/-- A fire of a unit is the result of its operation, applied. -/
theorem State.fireSlot_eq {s : State} {ps u : Nat} {w : DWord} {r : URes} (h : Fires s ps u w)
    (hm : unitKind u ≠ some .mem) (hl : unitKind u ≠ some .sluice)
    (hr : fireRes (s.uctx ps) (s.gen ps) u w (s.slotTok ps u w 0) (s.slotTok ps u w 1) (s.slotTok ps u w 2)
      (s.slotTok ps u w 3) (s.slotPred ps u w) (s.taken ps u w) = some r) :
    s.fireSlot ps u w [] =
      (((s.setSpn ps (s.taken ps u w)).applyRes ps u
        (((slotTokens (s.taken ps u w) (s.spn ps).store u w).head?.map (·.2.toNat)).getD 0)
        (takenRow u w (s.slotTok ps u w 2)) r).peaks ps) := by
  have hx : (s.setSpn ps (s.taken ps u w)).spn ps = s.taken ps u w := State.spn_setSpn h.inv.spns ps _
  have hport (p : Nat) : (match (slotTokens (s.taken ps u w) (s.spn ps).store u w).find? (fun n => n.1 == p) with
      | some n => findTok (s.spn ps).store u p n.2
      | none => none) = s.slotTok? ps u w p := rfl
  have hctl : ctlPort (s.taken ps u w) u w = ctlPort (s.spn ps) u w := rfl
  unfold State.fireSlot
  rw [h.runs]
  simp only [Bool.not_true, Bool.false_eq_true, if_false, h.free, ne_eq, not_true_eq_false]
  show (s.setSpn ps (s.taken ps u w)).fireUnit ps u w (s.spn ps).store [] = _
  unfold State.fireUnit
  rw [hx]
  dsimp only
  split
  · rename_i p t why hq
    rw [hctl] at hq
    cases hc : ctlPort (s.spn ps) u w with
    | none => rw [hc] at hq; cases hq
    | some q =>
      obtain ⟨p', t', ty⟩ := q
      rw [hc] at hq
      have hq' : (match ctlBad (s.slotTok ps u w p') ty with
          | some why => some (p', (tagOf (s.taken ps u w) t').toNat, why)
          | none => none) = some (p, t, why) := hq
      rw [h.decides p' t' ty hc] at hq'
      cases hq'
  · have hr' : fireRes ((s.setSpn ps (s.taken ps u w)).uctx ps) ((s.setSpn ps (s.taken ps u w)).gen ps) u w
        (s.slotTok ps u w 0) (s.slotTok ps u w 1) (s.slotTok ps u w 2) (s.slotTok ps u w 3) (s.slotPred ps u w)
        (s.taken ps u w) = some r := hr
    cases hk : unitKind u with
    | none =>
      show (match fireRes ((s.setSpn ps (s.taken ps u w)).uctx ps) ((s.setSpn ps (s.taken ps u w)).gen ps) u w
        (s.slotTok ps u w 0) (s.slotTok ps u w 1) (s.slotTok ps u w 2) (s.slotTok ps u w 3) (s.slotPred ps u w)
        (s.taken ps u w) with
        | some r => _
        | none => _) = _
      rw [hr']
      rfl
    | some k =>
      cases k with
      | mem => exact absurd hk hm
      | sluice => exact absurd hk hl
      | _ =>
        show (match fireRes ((s.setSpn ps (s.taken ps u w)).uctx ps) ((s.setSpn ps (s.taken ps u w)).gen ps) u w
          (s.slotTok ps u w 0) (s.slotTok ps u w 1) (s.slotTok ps u w 2) (s.slotTok ps u w 3) (s.slotPred ps u w)
          (s.taken ps u w) with
          | some r => _
          | none => _) = _
        rw [hr']
        rfl

/-! ### The result applied. -/

theorem State.numFlags_spns (s : State) (ps fl : Nat) : (s.numFlags ps fl).spns = s.spns := by
  unfold State.numFlags; split <;> rfl

theorem State.numFlags_but (s : State) (ps fl : Nat) : s.RegsBut (s.numFlags ps fl) [Reg.SPN_NUM_FLAGS ps] := by
  unfold State.numFlags; split
  · exact State.RegsBut.refl _ _
  · exact s.wr_but _ _

theorem State.spnCounts_spns (ps : Nat) (l : List (Nat × Nat)) (s : State) : (s.spnCounts ps l).spns = s.spns := by
  unfold State.spnCounts
  induction l generalizing s with
  | nil => rfl
  | cons c r ih => exact ih (s.sat _ _)

theorem State.peaks_spns (s : State) (ps : Nat) : (s.peaks ps).spns = s.spns := by
  unfold State.peaks
  generalize hx : s.spn ps = x
  dsimp only
  generalize List.range 4 = l
  have : ∀ (l : List Nat) (t : State), (l.foldl (fun s n =>
      s.maxField (Reg.SPN_SLUICE_ST ps n) 22 16 (x.sluice.countP (fun e => e.sl == n))) t).spns = t.spns := by
    intro l
    induction l with
    | nil => intro t; rfl
    | cons n r ih => intro t; exact ih _
  rw [this]; rfl

theorem State.peaks_but' (s : State) (ps : Nat) :
    s.RegsBut (s.peaks ps) ([Reg.SPN_OPS ps] ++ (List.range 4).map (Reg.SPN_SLUICE_ST ps)) := by
  unfold State.peaks
  refine State.RegsBut.foldl (fun u n hn => State.RegsBut.mono (State.maxField_but u _ _ _ _) ?_)
    ((State.maxField_but s _ _ _ _).of_one (by simp))
  intro a ha
  rw [List.mem_singleton] at ha
  subst ha
  simp only [List.mem_append, List.mem_map]
  exact .inr ⟨n, hn, rfl⟩

theorem State.peaks_but (s : State) (ps : Nat) : s.RegsBut (s.peaks ps) (fireRegs ps) := by
  unfold State.peaks
  refine State.RegsBut.foldl (fun u n hn => State.RegsBut.mono (State.maxField_but u _ _ _ _) ?_)
    ((State.maxField_but s _ _ _ _).of_one (by simp [fireRegs]))
  intro a ha
  rw [List.mem_singleton] at ha
  subst ha
  simp only [fireRegs, List.mem_append, List.mem_map]
  exact .inr ⟨n, hn, rfl⟩

/-- What a result without a fault or a notice leaves: the spindle the operation gave, its outputs in the pipeline, and
nothing changed but registers of that spindle (R71, R73, R173). -/
theorem State.applyRes_spec {s : State} (h : s.Inv) (ps u tag : Nat) (row : Option Nat) (r : URes) (hn : r.notes = [])
    (hv : r.rsv = 0) (hf : r.fault = none) (hc : ∀ c ∈ r.cnts, c.1 = 0x0600 ∨ c.1 = 0x0604 ∨ c.1 = 0x0708) :
    (((s.applyRes ps u tag row r).peaks ps).spn ps = { r.sp with pipe := r.sp.pipe ++ firePipe u row r }) ∧
      FireFrame s ((s.applyRes ps u tag row r).peaks ps) ps := by
  have e : s.applyRes ps u tag row r =
      (((s.setSpn ps { r.sp with pipe := r.sp.pipe ++ firePipe u row r }).numFlags ps r.flags).sat
        (Reg.SPN_NUM_POISON_CNT ps) r.npoi).spnCounts ps r.cnts := by
    unfold State.applyRes
    rw [hn, hv, hf]
    rfl
  have hs : ((s.applyRes ps u tag row r).peaks ps).spns =
      (s.setSpn ps { r.sp with pipe := r.sp.pipe ++ firePipe u row r }).spns := by
    rw [State.peaks_spns, e, State.spnCounts_spns, State.sat_spns, State.numFlags_spns]
  have hread (q : Nat) : ((s.applyRes ps u tag row r).peaks ps).spn q =
      (s.setSpn ps { r.sp with pipe := r.sp.pipe ++ firePipe u row r }).spn q := by
    unfold State.spn; rw [hs]
  refine ⟨by rw [hread, State.spn_setSpn h.spns], ?_, fun q hq => ?_, ?_, ?_⟩
  · rw [e]
    have k : Keep 0x3FFFFEFFB s (s.setSpn ps { r.sp with pipe := r.sp.pipe ++ firePipe u row r }) :=
      (State.setSpn_keep ..).mono rfl
    exact Keep.alters _ (Keep.via (State.peaks_keep ..) rfl (Keep.via (State.spnCounts_keep ..) rfl (Keep.via (State.sat_keep ..) rfl
      (Keep.via (State.numFlags_keep ..) rfl k)))) rfl
  · rw [hread]; exact tget_tset_ne hq _
  · rw [e]
    refine State.RegsBut.trans ?_ (State.peaks_but _ _)
    generalize hv : s.setSpn ps { r.sp with pipe := r.sp.pipe ++ firePipe u row r } = v
    have h0 : s.RegsBut v (fireRegs ps) := State.RegsBut.of_regs (by rw [← hv]; rfl) _
    have h1 := h0.trans ((v.numFlags_but ps r.flags).of_one (k := fireRegs ps) (by simp [fireRegs]))
    have h2 := h1.trans (((v.numFlags ps r.flags).sat_but (Reg.SPN_NUM_POISON_CNT ps) r.npoi).of_one (k := fireRegs ps)
      (by simp [fireRegs]))
    unfold State.spnCounts
    refine State.RegsBut.foldl (fun u c hm => (State.sat_but u _ _).of_one ?_) h2
    rcases hc c hm with g | g | g <;> rw [g] <;> simp only [fireRegs, List.mem_append, List.mem_cons, true_or, or_true]
  · intro b hb
    have hn1 : Reg.SPN_NUM_FLAGS ps ≠ Reg.SPN_NUM_POISON_CNT ps := by unfold Reg.SPN_NUM_FLAGS Reg.SPN_NUM_POISON_CNT; omega
    have r1 : ((s.applyRes ps u tag row r).peaks ps).rd (Reg.SPN_NUM_FLAGS ps) = (s.applyRes ps u tag row r).rd (Reg.SPN_NUM_FLAGS ps) := by
      refine (State.peaks_but' _ ps).rd ?_
      simp only [List.mem_append, List.mem_cons, List.not_mem_nil, or_false, List.mem_map, List.mem_range, not_or, not_exists, not_and]
      unfold Reg.SPN_NUM_FLAGS Reg.SPN_OPS Reg.SPN_SLUICE_ST
      exact ⟨by omega, fun n hn => by omega⟩
    unfold State.rbit at hb ⊢
    rw [r1, e]
    generalize hv : s.setSpn ps { r.sp with pipe := r.sp.pipe ++ firePipe u row r } = v
    have rv : v.rd (Reg.SPN_NUM_FLAGS ps) = s.rd (Reg.SPN_NUM_FLAGS ps) := by rw [← hv]; rfl
    have hw : twf 0 v.regs = true := by rw [← hv]; exact h.regs
    have r2 : (((v.numFlags ps r.flags).sat (Reg.SPN_NUM_POISON_CNT ps) r.npoi).spnCounts ps r.cnts).rd (Reg.SPN_NUM_FLAGS ps) =
        (v.numFlags ps r.flags).rd (Reg.SPN_NUM_FLAGS ps) := by
      have b2 : ((v.numFlags ps r.flags).sat (Reg.SPN_NUM_POISON_CNT ps) r.npoi).RegsBut
          (((v.numFlags ps r.flags).sat (Reg.SPN_NUM_POISON_CNT ps) r.npoi).spnCounts ps r.cnts)
          [0x2000000 + 0x100000 * ps + 0x0600, 0x2000000 + 0x100000 * ps + 0x0604, 0x2000000 + 0x100000 * ps + 0x0708] := by
        generalize (v.numFlags ps r.flags).sat (Reg.SPN_NUM_POISON_CNT ps) r.npoi = z
        unfold State.spnCounts
        refine State.RegsBut.foldl (fun u c hm => (State.sat_but u _ _).of_one ?_) (State.RegsBut.refl z _)
        rcases hc c hm with g | g | g <;> rw [g] <;> simp only [List.mem_cons, true_or, or_true]
      rw [b2.rd (by simp only [List.mem_cons, List.not_mem_nil, or_false, not_or]; unfold Reg.SPN_NUM_FLAGS; omega)]
      exact (State.sat_but _ _ _).rd (by simpa using hn1)
    rw [r2]
    unfold State.numFlags
    split
    · rw [rv]; exact hb
    · rw [State.rd_wr_self hw, rv]
      unfold bitOf at hb ⊢
      have hb32 : b < 32 := by
        rcases Nat.lt_or_ge b 32 with g | g
        · exact g
        · rw [Nat.testBit_lt_two_pow (Nat.lt_of_lt_of_le (State.rd_lt _ _) (Nat.pow_le_pow_right (by omega) g))] at hb; cases hb
      rw [Nat.testBit_mod_two_pow, Nat.testBit_or, hb]
      simp [hb32]

/-- A slot row of a unit that is no memory unit or sluice completes where its operation gives no fault and no notice. -/
theorem State.fireRow_completes {s : State} {ps u : Nat} {w : DWord} {is : Bool} {r : URes} (h : Fires s ps u w) (hi : is = true)
    (ho : slotOk u w = true) (hm : unitKind u ≠ some .mem) (hl : unitKind u ≠ some .sluice)
    (hr : fireRes (s.uctx ps) (s.gen ps) u w (s.slotTok ps u w 0) (s.slotTok ps u w 1) (s.slotTok ps u w 2)
      (s.slotTok ps u w 3) (s.slotPred ps u w) (s.taken ps u w) = some r)
    (hn : r.notes = []) (hv : r.rsv = 0) (hf : r.fault = none) (hc : ∀ c ∈ r.cnts, c.1 = 0x0600 ∨ c.1 = 0x0604 ∨ c.1 = 0x0708) :
    ∃ t, s.fireRow is ps u w [] = .next t ∧ FireFrame s t ps ∧
      t.spn ps = { r.sp with pipe := r.sp.pipe ++ firePipe u (takenRow u w (s.slotTok ps u w 2)) r } := by
  have hz : (s.setSpn ps (s.taken ps u w)).Inv := (State.setSpn_keep ..).inv h.inv
  have hs := State.applyRes_spec hz ps u
    (((slotTokens (s.taken ps u w) (s.spn ps).store u w).head?.map (·.2.toNat)).getD 0) (takenRow u w (s.slotTok ps u w 2)) r hn hv hf hc
  refine ⟨_, ?_, ?_, hs.1⟩
  · unfold State.fireRow
    rw [hi, ho, Bool.and_self, if_pos rfl, State.fireSlot_eq h hm hl hr]
  · refine ⟨?_, fun q hq => ?_, ?_, hs.2.sticky⟩
    · exact State.Alters.trans (Keep.alters _ (State.setSpn_keep s ps _) rfl) hs.2.parts
    · rw [hs.2.spns q hq]; exact tget_tset_ne hq _
    · exact (State.RegsBut.of_regs (t := s.setSpn ps (s.taken ps u w)) rfl _).trans hs.2.regs

end Sys2Proof.Machine
end

