-- ==== Sys2Proof/Laws/KeepPower.lean ====
section
/-! SUPPORT. What each operation of Machine/Power.lean leaves alone (Laws/Keep.lean). -/

namespace Sys2Proof.Machine

set_option linter.unusedTactic false
set_option linter.unreachableTactic false

theorem State.flashPut_keep (s : State) (a : Nat) (l : List Byte) : Keep 0x3FBFFFFFF s (s.flashPut a l) :=
  Keep.setFlash rfl twf_memPut (Keep.refl _ _)

theorem State.syncPlan_keep (s : State) (f : Nat) : Keep 0x3FFFFFFFB s (State.syncPlan s f) := by
  unfold State.syncPlan
  repeat' first
    | exact rfl
    | with_reducible apply Keep.refl
    | with_reducible assumption
    | with_reducible apply Keep.via (State.wf_keep ..)
    | with_reducible apply Keep.foldl
    | with_reducible apply Keep.foldl_snd
    | with_reducible apply Keep.foldl_fst
    | (intro _ _)
    | dsimp -proj only
    | ((with_reducible conv => arg 3; whnf); first | split)
    | dsimp -proj +zetaDelta only
    | dsimp only

theorem State.syncClk_keep (s : State) : Keep 0x3FFFFFFFB s (State.syncClk s) := by
  unfold State.syncClk
  repeat' first
    | exact rfl
    | with_reducible apply Keep.refl
    | with_reducible assumption
    | with_reducible apply Keep.via (State.wf_keep ..)
    | with_reducible apply Keep.ite
    | split
    | extract_lets
    | dsimp -proj only
    | ((with_reducible conv => arg 3; whnf); first | split)
    | dsimp -proj +zetaDelta only
    | dsimp only

theorem State.askFreq_keep (s : State) (cause : Nat) (isForced : Bool) : Keep 0x3FFEFFFFB s (State.askFreq s cause isForced) := by
  unfold State.askFreq
  repeat' first
    | exact rfl
    | with_reducible apply Keep.refl
    | with_reducible assumption
    | with_reducible apply Keep.via (State.syncClk_keep ..)
    | with_reducible apply Keep.ite
    | split
    | extract_lets
    | dsimp -proj only
    | ((with_reducible conv => arg 3; whnf); first | split | with_reducible apply Keep.setClk)
    | dsimp -proj +zetaDelta only
    | dsimp only

theorem State.undefer_keep (s : State) : Keep 0x3FFEFFFFB s (State.undefer s) := by
  unfold State.undefer
  repeat' first
    | exact rfl
    | with_reducible apply Keep.refl
    | with_reducible assumption
    | with_reducible apply Keep.via (State.wf_keep ..)
    | with_reducible apply Keep.via (State.syncClk_keep ..)
    | with_reducible apply Keep.foldl
    | with_reducible apply Keep.foldl_snd
    | with_reducible apply Keep.foldl_fst
    | (intro _ _)
    | with_reducible apply Keep.ite
    | split
    | extract_lets
    | dsimp -proj only
    | ((with_reducible conv => arg 3; whnf); first | split | with_reducible apply Keep.setClk)
    | dsimp -proj +zetaDelta only
    | dsimp only

theorem State.askPlan_keep (s : State) (p : Nat) : Keep 0x3FFEFFFFB s (State.askPlan s p) := by
  unfold State.askPlan
  repeat' first
    | exact rfl
    | with_reducible apply Keep.refl
    | with_reducible assumption
    | with_reducible apply Keep.via (State.syncClk_keep ..)
    | with_reducible apply Keep.via (State.askFreq_keep ..)
    | with_reducible apply Keep.via (State.wf_keep ..)
    | with_reducible apply Keep.ite
    | split
    | dsimp -proj only
    | ((with_reducible conv => arg 3; whnf); first | split | with_reducible apply Keep.setClk)
    | dsimp -proj +zetaDelta only
    | dsimp only

theorem State.loseAlign_keep (s : State) (cause : Nat) : Keep 0x3FFFFFFFB s (State.loseAlign s cause) := by
  unfold State.loseAlign
  repeat' first
    | exact rfl
    | with_reducible apply Keep.refl
    | with_reducible assumption
    | with_reducible apply Keep.via (State.wf_keep ..)
    | dsimp -proj only
    | ((with_reducible conv => arg 3; whnf); first | split)
    | dsimp -proj +zetaDelta only
    | dsimp only

theorem State.alertOn_keep (s : State) : Keep 0x3FFDFFFFF s (State.alertOn s) := by
  unfold State.alertOn
  repeat' first
    | exact rfl
    | with_reducible apply Keep.refl
    | with_reducible assumption
    | dsimp -proj only
    | ((with_reducible conv => arg 3; whnf); first | split | with_reducible apply Keep.setPwr)
    | dsimp -proj +zetaDelta only
    | dsimp only

theorem State.tempByte_keep (s : State) (t : Int) : Keep 0x3FFFFFFEF s (State.tempByte s t).2 := by
  unfold State.tempByte
  repeat' first
    | exact rfl
    | with_reducible apply Keep.refl
    | with_reducible assumption
    | with_reducible apply Keep.via (State.free_keep ..)
    | with_reducible apply Keep.ite
    | with_reducible apply Keep.ite_snd
    | split
    | extract_lets
    | dsimp -proj only
    | ((with_reducible conv => arg 3; whnf); first | split)
    | dsimp -proj +zetaDelta only
    | dsimp only

theorem State.thermal_keep (s : State) (tj : Int) (region : Nat) (ts : Int) (stack : Nat) : Keep 0x3EFCDFCEB s (State.thermal s tj region ts stack) := by
  unfold State.thermal
  repeat' first
    | exact rfl
    | with_reducible apply Keep.refl
    | with_reducible assumption
    | with_reducible apply Keep.via (State.wf_keep ..)
    | with_reducible apply Keep.via (State.tempByte_keep ..)
    | with_reducible apply Keep.via (State.event_keep ..)
    | with_reducible apply Keep.via (State.askFreq_keep ..)
    | with_reducible apply Keep.foldl
    | with_reducible apply Keep.foldl_snd
    | with_reducible apply Keep.foldl_fst
    | (intro _ _)
    | with_reducible apply Keep.ite
    | split
    | extract_lets
    | dsimp -proj only
    | ((with_reducible conv => arg 3; whnf); first | split | with_reducible apply Keep.setPwr)
    | dsimp -proj +zetaDelta only
    | dsimp only

theorem State.setDom_keep (s : State) (d : Nat) (on : Bool) : Keep 0x3FFFEFFFB s (State.setDom s d on) := by
  unfold State.setDom
  repeat' first
    | exact rfl
    | with_reducible apply Keep.refl
    | with_reducible assumption
    | with_reducible apply Keep.via (State.wf_keep ..)
    | with_reducible apply Keep.ite
    | split
    | extract_lets
    | dsimp -proj only
    | ((with_reducible conv => arg 3; whnf); first | split | with_reducible apply Keep.setDomsOff)
    | dsimp -proj +zetaDelta only
    | dsimp only


end Sys2Proof.Machine
end

