-- ==== Sys2Proof/Laws/KeepCalStore.lean ====
section
/-! SUPPORT. What each operation of Machine/CalStore.lean leaves alone (Laws/Keep.lean). -/

namespace Sys2Proof.Machine

set_option linter.unusedTactic false
set_option linter.unreachableTactic false

theorem State.calPut_keep (s : State) (i o : Nat) (b : List Byte) : Keep 0x3FBFFFFFF s (State.calPut s i o b) := by
  unfold State.calPut
  repeat' first
    | exact rfl
    | with_reducible apply Keep.refl
    | with_reducible assumption
    | with_reducible apply Keep.via (State.flashPut_keep ..)
    | extract_lets
    | dsimp -proj only
    | ((with_reducible conv => arg 3; whnf); first | split)
    | dsimp -proj +zetaDelta only
    | dsimp only

theorem State.calWrite_keep (s : State) (i : Nat) (b : List Byte) : Keep 0x3EBFDFCFB s (State.calWrite s i b) := by
  unfold State.calWrite
  repeat' first
    | exact rfl
    | with_reducible apply Keep.refl
    | with_reducible assumption
    | with_reducible apply Keep.via (State.flashPut_keep ..)
    | with_reducible apply Keep.via (State.event_keep ..)
    | with_reducible apply Keep.via (State.calPut_keep ..)
    | with_reducible apply Keep.ite
    | split
    | extract_lets
    | dsimp -proj only
    | ((with_reducible conv => arg 3; whnf); first | split)
    | dsimp -proj +zetaDelta only
    | dsimp only

theorem State.saveAge_keep (s : State) : Keep 0x3EBFDFCFB s (State.saveAge s) := by
  unfold State.saveAge
  repeat' first
    | exact rfl
    | with_reducible apply Keep.refl
    | with_reducible assumption
    | with_reducible apply Keep.via (State.calWrite_keep ..)
    | dsimp -proj only
    | ((with_reducible conv => arg 3; whnf); first | split)
    | dsimp -proj +zetaDelta only
    | dsimp only


end Sys2Proof.Machine
end

