-- ==== Sys2Proof/Laws/KeepHealth.lean ====
section
/-! SUPPORT. What each operation of Machine/Health.lean leaves alone (Laws/Keep.lean). -/

namespace Sys2Proof.Machine

set_option linter.unusedTactic false
set_option linter.unreachableTactic false

theorem State.saveSoft_keep (s : State) : Keep 0x3FBFFFFFB s (State.saveSoft s) := by
  unfold State.saveSoft
  repeat' first
    | exact rfl
    | with_reducible apply Keep.refl
    | with_reducible assumption
    | with_reducible apply Keep.via (State.wr_keep ..)
    | with_reducible apply Keep.via (State.flashPut_keep ..)
    | extract_lets
    | dsimp -proj only
    | ((with_reducible conv => arg 3; whnf); first | split)
    | dsimp -proj +zetaDelta only
    | dsimp only

theorem State.setSoft_keep (s : State) (r : SoftRec) : Keep 0x3FBBFFFFB s (State.setSoft s r) := by
  unfold State.setSoft
  repeat' first
    | exact rfl
    | with_reducible apply Keep.refl
    | with_reducible assumption
    | with_reducible apply Keep.via (State.saveSoft_keep ..)
    | dsimp -proj only
    | ((with_reducible conv => arg 3; whnf); first | split | with_reducible apply Keep.setHlth)
    | dsimp -proj +zetaDelta only
    | dsimp only

theorem State.softCreate_keep (s : State) (unit detail : Nat) : Keep 0x3EBBDFCFB s (State.softCreate s unit detail) := by
  unfold State.softCreate
  repeat' first
    | exact rfl
    | with_reducible apply Keep.refl
    | with_reducible assumption
    | with_reducible apply Keep.via (State.event_keep ..)
    | with_reducible apply Keep.via (State.setSoft_keep ..)
    | with_reducible apply Keep.ite
    | split
    | extract_lets
    | dsimp -proj only
    | ((with_reducible conv => arg 3; whnf); first | split)
    | dsimp -proj +zetaDelta only
    | dsimp only

theorem State.softRemove_keep (s : State) (unit detail : Nat) : Keep 0x3FBBFFFFB s (State.softRemove s unit detail) := by
  unfold State.softRemove
  repeat' first
    | exact rfl
    | with_reducible apply Keep.refl
    | with_reducible assumption
    | with_reducible apply Keep.via (State.setSoft_keep ..)
    | split
    | extract_lets
    | dsimp -proj only
    | ((with_reducible conv => arg 3; whnf); first | split)
    | dsimp -proj +zetaDelta only
    | dsimp only

theorem State.writeMap_keep (s : State) (m : List (Nat × Nat)) : Keep 0x3EFFDFCFB s (State.writeMap s m) := by
  unfold State.writeMap
  repeat' first
    | exact rfl
    | with_reducible apply Keep.refl
    | with_reducible assumption
    | with_reducible apply Keep.via (State.wr_keep ..)
    | with_reducible apply Keep.via (State.wf_keep ..)
    | with_reducible apply Keep.via (State.setFlags_keep ..)
    | with_reducible apply Keep.foldl
    | with_reducible apply Keep.foldl_snd
    | with_reducible apply Keep.foldl_fst
    | (intro _ _)
    | with_reducible apply Keep.ite
    | split
    | extract_lets
    | dsimp -proj only
    | ((with_reducible conv => arg 3; whnf); first | split)
    | dsimp -proj +zetaDelta only
    | dsimp only

theorem State.rebuild_keep (s : State) : Keep 0x3EFFDFCFB s (State.rebuild s) := by
  unfold State.rebuild
  repeat' first
    | exact rfl
    | with_reducible apply Keep.refl
    | with_reducible assumption
    | with_reducible apply Keep.via (State.writeMap_keep ..)
    | dsimp -proj only
    | ((with_reducible conv => arg 3; whnf); first | split)
    | dsimp -proj +zetaDelta only
    | dsimp only

theorem State.resetSpnRegs_keep (s : State) (ps : Nat) : Keep 0x3FFFFFFFB s (s.resetSpnRegs ps) :=
  Keep.setRegs rfl twf_filter (Keep.refl _ _)

theorem State.wipeSpindle_keep (s : State) (ps : Nat) : Keep 0x3FFFFE3FB s (State.wipeSpindle s ps) := by
  unfold State.wipeSpindle
  repeat' first
    | exact rfl
    | with_reducible apply Keep.refl
    | with_reducible assumption
    | with_reducible apply Keep.via (State.wr_keep ..)
    | with_reducible apply Keep.via (State.clearKeys_keep ..)
    | with_reducible apply Keep.via (State.setSpn_keep ..)
    | with_reducible apply Keep.via (State.resetSpnRegs_keep ..)
    | extract_lets
    | dsimp -proj only
    | ((with_reducible conv => arg 3; whnf); first | split)
    | dsimp -proj +zetaDelta only
    | dsimp only

theorem State.initSpindle_keep (s : State) (ps : Nat) : Keep 0x3EFFDE0FB s (State.initSpindle s ps) := by
  unfold State.initSpindle
  repeat' first
    | exact rfl
    | with_reducible apply Keep.refl
    | with_reducible assumption
    | with_reducible apply Keep.via (State.syncStop_keep ..)
    | with_reducible apply Keep.via (State.setSpnState_keep ..)
    | with_reducible apply Keep.via (State.wr_keep ..)
    | with_reducible apply Keep.via (State.wipeSpindle_keep ..)
    | dsimp -proj only
    | ((with_reducible conv => arg 3; whnf); first | split)
    | dsimp -proj +zetaDelta only
    | dsimp only

theorem State.fenceNow_keep (s : State) (ps : Nat) : Keep 0x3EF7DFCFB s (State.fenceNow s ps) := by
  unfold State.fenceNow
  repeat' first
    | exact rfl
    | with_reducible apply Keep.refl
    | with_reducible assumption
    | with_reducible apply Keep.via (State.rebuild_keep ..)
    | with_reducible apply Keep.via (State.syncStop_keep ..)
    | with_reducible apply Keep.via (State.setSpnState_keep ..)
    | with_reducible apply Keep.ite
    | split
    | extract_lets
    | dsimp -proj only
    | ((with_reducible conv => arg 3; whnf); first | split | with_reducible apply Keep.setRst)
    | dsimp -proj +zetaDelta only
    | dsimp only

theorem State.fenceSpindle_keep (s : State) (ps : Nat) : Keep 0x3E9314CBB s (State.fenceSpindle s ps) := by
  unfold State.fenceSpindle
  repeat' first
    | exact rfl
    | with_reducible apply Keep.refl
    | with_reducible assumption
    | with_reducible apply Keep.via (State.softCreate_keep ..)
    | with_reducible apply Keep.via (State.fenceNow_keep ..)
    | with_reducible apply Keep.via (State.wf_keep ..)
    | with_reducible apply Keep.via (State.wr_keep ..)
    | with_reducible apply Keep.via (State.event_keep ..)
    | with_reducible apply Keep.via (State.faultRunning_keep ..)
    | with_reducible apply Keep.ite
    | split
    | extract_lets
    | dsimp -proj only
    | ((with_reducible conv => arg 3; whnf); first | split | with_reducible apply Keep.setHlth)
    | dsimp -proj +zetaDelta only
    | dsimp only

theorem State.syncDgChan_keep (s : State) : Keep 0x3EFFDFCFB s (State.syncDgChan s) := by
  unfold State.syncDgChan
  repeat' first
    | exact rfl
    | with_reducible apply Keep.refl
    | with_reducible assumption
    | with_reducible apply Keep.via (State.setFlags_keep ..)
    | dsimp -proj only
    | ((with_reducible conv => arg 3; whnf); first | split)
    | dsimp -proj +zetaDelta only
    | dsimp only

theorem State.fenceChan_keep (s : State) (ch cause : Nat) : Keep 0x3EFFDFCFB s (State.fenceChan s ch cause) := by
  unfold State.fenceChan
  repeat' first
    | exact rfl
    | with_reducible apply Keep.refl
    | with_reducible assumption
    | with_reducible apply Keep.via (State.wf_keep ..)
    | with_reducible apply Keep.via (State.syncDgChan_keep ..)
    | with_reducible apply Keep.via (State.event_keep ..)
    | with_reducible apply Keep.ite
    | split
    | extract_lets
    | dsimp -proj only
    | ((with_reducible conv => arg 3; whnf); first | split)
    | dsimp -proj +zetaDelta only
    | dsimp only

theorem State.fenceCore_keep (s : State) (n : Nat) : Keep 0x3FFFFFFFB s (State.fenceCore s n) := by
  unfold State.fenceCore
  repeat' first
    | exact rfl
    | with_reducible apply Keep.refl
    | with_reducible assumption
    | with_reducible apply Keep.via (State.wf_keep ..)
    | dsimp -proj only
    | ((with_reducible conv => arg 3; whnf); first | split)
    | dsimp -proj +zetaDelta only
    | dsimp only

theorem State.syncPend_keep (s : State) : Keep 0x3FFFFFFFB s (State.syncPend s) := by
  unfold State.syncPend
  repeat' first
    | exact rfl
    | with_reducible apply Keep.refl
    | with_reducible assumption
    | with_reducible apply Keep.via (State.wr_keep ..)
    | with_reducible apply Keep.foldl
    | with_reducible apply Keep.foldl_snd
    | with_reducible apply Keep.foldl_fst
    | (intro _ _)
    | with_reducible apply Keep.ite
    | split
    | extract_lets
    | dsimp -proj only
    | ((with_reducible conv => arg 3; whnf); first | split)
    | dsimp -proj +zetaDelta only
    | dsimp only

theorem State.applyRaise_keep (s : State) (d : Nat) : Keep 0x3EBBDFCFB s (State.applyRaise s d) := by
  unfold State.applyRaise
  repeat' first
    | exact rfl
    | with_reducible apply Keep.refl
    | with_reducible assumption
    | with_reducible apply Keep.via (State.event_keep ..)
    | with_reducible apply Keep.via (State.saveAge_keep ..)
    | with_reducible apply Keep.via (State.syncPlan_keep ..)
    | with_reducible apply Keep.via (State.wf_keep ..)
    | split
    | extract_lets
    | dsimp -proj only
    | ((with_reducible conv => arg 3; whnf); first | split | with_reducible apply Keep.setHlth)
    | dsimp -proj +zetaDelta only
    | dsimp only

theorem State.applyFmax_keep (s : State) : Keep 0x3EBADFCFB s (State.applyFmax s) := by
  unfold State.applyFmax
  repeat' first
    | exact rfl
    | with_reducible apply Keep.refl
    | with_reducible assumption
    | with_reducible apply Keep.via (State.wf_keep ..)
    | with_reducible apply Keep.via (State.askFreq_keep ..)
    | with_reducible apply Keep.via (State.saveAge_keep ..)
    | with_reducible apply Keep.via (State.event_keep ..)
    | split
    | extract_lets
    | dsimp -proj only
    | ((with_reducible conv => arg 3; whnf); first | split | with_reducible apply Keep.setHlth)
    | dsimp -proj +zetaDelta only
    | dsimp only

theorem State.applyAge_keep (s : State) : Keep 0x3EBADFCFB s (State.applyAge s) := by
  unfold State.applyAge
  repeat' first
    | exact rfl
    | with_reducible apply Keep.refl
    | with_reducible assumption
    | with_reducible apply Keep.via (State.syncPend_keep ..)
    | with_reducible apply Keep.via (State.applyFmax_keep ..)
    | with_reducible apply Keep.via (State.applyRaise_keep ..)
    | with_reducible apply Keep.foldl
    | with_reducible apply Keep.foldl_snd
    | with_reducible apply Keep.foldl_fst
    | (intro _ _)
    | with_reducible apply Keep.ite
    | split
    | dsimp -proj only
    | ((with_reducible conv => arg 3; whnf); first | split)
    | dsimp -proj +zetaDelta only
    | dsimp only

theorem State.fenceAct_keep (s : State) (a : FenceAct) : Keep 0x3E9314CBB s (State.fenceAct s a).1 := by
  unfold State.fenceAct
  repeat' first
    | exact rfl
    | with_reducible apply Keep.refl
    | with_reducible assumption
    | with_reducible apply Keep.via (State.fenceSpindle_keep ..)
    | with_reducible apply Keep.via (State.fenceChan_keep ..)
    | with_reducible apply Keep.via (State.softCreate_keep ..)
    | with_reducible apply Keep.via (State.disableHalf_keep ..)
    | with_reducible apply Keep.via (State.fenceCore_keep ..)
    | with_reducible apply Keep.foldl
    | with_reducible apply Keep.foldl_snd
    | with_reducible apply Keep.foldl_fst
    | (intro _ _)
    | split
    | extract_lets
    | dsimp -proj only
    | ((with_reducible conv => arg 3; whnf); first | split)
    | dsimp -proj +zetaDelta only
    | dsimp only

theorem State.setMargined_keep (s : State) (m : Bool) : Keep 0x3EFFDFCFB s (State.setMargined s m) := by
  unfold State.setMargined
  repeat' first
    | exact rfl
    | with_reducible apply Keep.refl
    | with_reducible assumption
    | with_reducible apply Keep.via (State.setFlags_keep ..)
    | dsimp -proj only
    | ((with_reducible conv => arg 3; whnf); first | split)
    | dsimp -proj +zetaDelta only
    | dsimp only

theorem State.report_keep (s : State) (key unit trigger : Nat) (dom : Option Nat) (act : FenceAct) : Keep 0x3E9214CBB s (State.report s key unit trigger dom act) := by
  unfold State.report
  repeat' first
    | exact rfl
    | with_reducible apply Keep.refl
    | with_reducible assumption
    | with_reducible apply Keep.via (State.event_keep ..)
    | with_reducible apply Keep.via (State.sat_keep ..)
    | with_reducible apply Keep.via (State.fenceAct_keep ..)
    | with_reducible apply Keep.via (State.wf_keep ..)
    | with_reducible apply Keep.via (State.setMargined_keep ..)
    | with_reducible apply Keep.via (State.syncPlan_keep ..)
    | with_reducible apply Keep.via (State.askFreq_keep ..)
    | with_reducible apply Keep.ite
    | split
    | extract_lets
    | dsimp -proj only
    | ((with_reducible conv => arg 3; whnf); first | split | with_reducible apply Keep.setHlth)
    | dsimp -proj +zetaDelta only
    | dsimp only

theorem State.reportSpindle_keep (s : State) (ps : Nat) : Keep 0x3E9214CBB s (State.reportSpindle s ps) := by
  unfold State.reportSpindle
  repeat' first
    | exact rfl
    | with_reducible apply Keep.refl
    | with_reducible assumption
    | with_reducible apply Keep.via (State.report_keep ..)
    | dsimp -proj only
    | ((with_reducible conv => arg 3; whnf); first | split)
    | dsimp -proj +zetaDelta only
    | dsimp only

theorem State.reportChan_keep (s : State) (ch : Nat) : Keep 0x3E9214CBB s (State.reportChan s ch) := by
  unfold State.reportChan
  repeat' first
    | exact rfl
    | with_reducible apply Keep.refl
    | with_reducible assumption
    | with_reducible apply Keep.via (State.report_keep ..)
    | with_reducible apply Keep.ite
    | split
    | extract_lets
    | dsimp -proj only
    | ((with_reducible conv => arg 3; whnf); first | split)
    | dsimp -proj +zetaDelta only
    | dsimp only

theorem State.reportHalf_keep (s : State) (h : Nat) : Keep 0x3E9214CBB s (State.reportHalf s h) := by
  unfold State.reportHalf
  repeat' first
    | exact rfl
    | with_reducible apply Keep.refl
    | with_reducible assumption
    | with_reducible apply Keep.via (State.report_keep ..)
    | dsimp -proj only
    | ((with_reducible conv => arg 3; whnf); first | split)
    | dsimp -proj +zetaDelta only
    | dsimp only

theorem State.reportColl_keep (s : State) : Keep 0x3E9214CBB s (State.reportColl s) := by
  unfold State.reportColl
  repeat' first
    | exact rfl
    | with_reducible apply Keep.refl
    | with_reducible assumption
    | with_reducible apply Keep.via (State.report_keep ..)
    | dsimp -proj only
    | ((with_reducible conv => arg 3; whnf); first | split)
    | dsimp -proj +zetaDelta only
    | dsimp only

theorem State.reportSeam_keep (s : State) (k : Nat) : Keep 0x3E9214CBB s (State.reportSeam s k) := by
  unfold State.reportSeam
  repeat' first
    | exact rfl
    | with_reducible apply Keep.refl
    | with_reducible assumption
    | with_reducible apply Keep.via (State.report_keep ..)
    | dsimp -proj only
    | ((with_reducible conv => arg 3; whnf); first | split)
    | dsimp -proj +zetaDelta only
    | dsimp only

theorem State.reportCore_keep (s : State) (n : Nat) : Keep 0x3E9214CBB s (State.reportCore s n) := by
  unfold State.reportCore
  repeat' first
    | exact rfl
    | with_reducible apply Keep.refl
    | with_reducible assumption
    | with_reducible apply Keep.via (State.report_keep ..)
    | dsimp -proj only
    | ((with_reducible conv => arg 3; whnf); first | split)
    | dsimp -proj +zetaDelta only
    | dsimp only

theorem State.reportShared_keep (s : State) (d : Nat) : Keep 0x3E9214CBB s (State.reportShared s d) := by
  unfold State.reportShared
  repeat' first
    | exact rfl
    | with_reducible apply Keep.refl
    | with_reducible assumption
    | with_reducible apply Keep.via (State.report_keep ..)
    | dsimp -proj only
    | ((with_reducible conv => arg 3; whnf); first | split)
    | dsimp -proj +zetaDelta only
    | dsimp only

theorem State.reportDomain_keep (s : State) (d : Nat) : Keep 0x3E9214CBB s (State.reportDomain s d) := by
  unfold State.reportDomain
  repeat' first
    | exact rfl
    | with_reducible apply Keep.refl
    | with_reducible assumption
    | with_reducible apply Keep.via (State.report_keep ..)
    | dsimp -proj only
    | ((with_reducible conv => arg 3; whnf); first | split)
    | dsimp -proj +zetaDelta only
    | dsimp only

theorem State.chanReports_keep (s : State) : Keep 0x3E9210CBB s (State.chanReports s) := by
  unfold State.chanReports
  repeat' first
    | exact rfl
    | with_reducible apply Keep.refl
    | with_reducible assumption
    | with_reducible apply Keep.via (State.reportChan_keep ..)
    | with_reducible apply Keep.via (State.setChan_keep ..)
    | with_reducible apply Keep.foldl
    | with_reducible apply Keep.foldl_snd
    | with_reducible apply Keep.foldl_fst
    | (intro _ _)
    | with_reducible apply Keep.ite
    | split
    | extract_lets
    | dsimp -proj only
    | ((with_reducible conv => arg 3; whnf); first | split)
    | dsimp -proj +zetaDelta only
    | dsimp only

theorem State.seamError_keep (s : State) (k : Nat) : Keep 0x3E9214CBB s (State.seamError s k) := by
  unfold State.seamError
  repeat' first
    | exact rfl
    | with_reducible apply Keep.refl
    | with_reducible assumption
    | with_reducible apply Keep.via (State.sat_keep ..)
    | with_reducible apply Keep.via (State.event_keep ..)
    | with_reducible apply Keep.via (State.reportSeam_keep ..)
    | with_reducible apply Keep.ite
    | split
    | extract_lets
    | dsimp -proj only
    | ((with_reducible conv => arg 3; whnf); first | split | with_reducible apply Keep.setHlth)
    | dsimp -proj +zetaDelta only
    | dsimp only

theorem State.ctlWay_keep (s : State) (cls : Nat) (w : CtlWay) : Keep 0x3E9214CBB s (State.ctlWay s cls w) := by
  unfold State.ctlWay
  repeat' first
    | exact rfl
    | with_reducible apply Keep.refl
    | with_reducible assumption
    | with_reducible apply Keep.via (State.sat_keep ..)
    | with_reducible apply Keep.via (State.event_keep ..)
    | with_reducible apply Keep.via (State.seamError_keep ..)
    | with_reducible apply Keep.ite
    | split
    | extract_lets
    | dsimp -proj only
    | ((with_reducible conv => arg 3; whnf); first | split)
    | dsimp -proj +zetaDelta only
    | dsimp only

theorem State.linkErrs_keep (s : State) (k : Nat) (e : LinkErrs) : Keep 0x3E9214CBB s (State.linkErrs s k e) := by
  unfold State.linkErrs
  repeat' first
    | exact rfl
    | with_reducible apply Keep.refl
    | with_reducible assumption
    | with_reducible apply Keep.via (State.sat_keep ..)
    | with_reducible apply Keep.via (State.seamError_keep ..)
    | with_reducible apply Keep.foldl
    | with_reducible apply Keep.foldl_snd
    | with_reducible apply Keep.foldl_fst
    | (intro _ _)
    | with_reducible apply Keep.ite
    | split
    | extract_lets
    | dsimp -proj only
    | ((with_reducible conv => arg 3; whnf); first | split)
    | dsimp -proj +zetaDelta only
    | dsimp only


end Sys2Proof.Machine
end

