-- ==== Sys2Proof/Laws/KeepCuard.lean ====
section
/-! SUPPORT. What each operation of Machine/Cuard.lean leaves alone (Laws/Keep.lean). -/

namespace Sys2Proof.Machine

set_option linter.unusedTactic false
set_option linter.unreachableTactic false

theorem State.extend_keep (s : State) (m : Nat) (d : List Byte) : Keep 0x3FFFFFFFB s (State.extend s m d) := by
  unfold State.extend
  repeat' first
    | exact rfl
    | with_reducible apply Keep.refl
    | with_reducible assumption
    | with_reducible apply Keep.via (State.wr_keep ..)
    | with_reducible apply Keep.foldl
    | with_reducible apply Keep.foldl_snd
    | with_reducible apply Keep.foldl_fst
    | (intro _ _)
    | extract_lets
    | dsimp -proj only
    | ((with_reducible conv => arg 3; whnf); first | split)
    | dsimp -proj +zetaDelta only
    | dsimp only

theorem State.modSess_keep (s : State) (id : Nat) (f : Sess → Sess) : Keep 0x3DFFFFFFF s (State.modSess s id f) := by
  unfold State.modSess
  repeat' first
    | exact rfl
    | with_reducible apply Keep.refl
    | with_reducible assumption
    | with_reducible apply Keep.ite
    | split
    | dsimp -proj only
    | exact (fun h => h : Cq.Bounded _ → Cq.Bounded _)
    | ((with_reducible conv => arg 3; whnf); first | split | with_reducible apply Keep.setCq)
    | dsimp -proj +zetaDelta only
    | dsimp only

theorem State.sendOn_keep (s : State) (t : RepTo) (b : List Byte) : Keep 0x3CFF9FCBB s (s.sendOn t b) := by
  unfold State.sendOn
  split
  · exact Keep.via (State.send_keep ..) rfl (Keep.refl _ _)
  · split
    · split
      · exact Keep.via (State.event_keep ..) rfl (Keep.via (State.sat_keep ..) rfl (Keep.via (State.wf_keep ..) rfl (Keep.refl _ _)))
      · refine Keep.via (State.raiseIrq_keep ..) rfl (Keep.setCq rfl (fun h => ⟨h.1, ?_⟩) (Keep.refl _ _))
        simp only [List.length_append, List.length_singleton]; omega
    · exact Keep.via (State.inject_keep ..) rfl (Keep.refl _ _)

theorem State.noteDone_keep (s : State) (t : RepTo) (status : Nat) : Keep 0x3DFFFFFFF s (State.noteDone s t status) := by
  unfold State.noteDone
  repeat' first
    | exact rfl
    | with_reducible apply Keep.refl
    | with_reducible assumption
    | with_reducible apply Keep.via (State.modSess_keep ..)
    | with_reducible apply Keep.ite
    | split
    | extract_lets
    | dsimp -proj only
    | ((with_reducible conv => arg 3; whnf); first | split)
    | dsimp -proj +zetaDelta only
    | dsimp only

theorem State.refusedEvent_keep (s : State) (t : RepTo) (status : Nat) : Keep 0x3CFFDFCFB s (State.refusedEvent s t status) := by
  unfold State.refusedEvent
  repeat' first
    | exact rfl
    | with_reducible apply Keep.refl
    | with_reducible assumption
    | with_reducible apply Keep.via (State.event_keep ..)
    | with_reducible apply Keep.ite
    | split
    | extract_lets
    | dsimp -proj only
    | exact (fun h => h : Cq.Bounded _ → Cq.Bounded _)
    | ((with_reducible conv => arg 3; whnf); first | split | with_reducible apply Keep.setCq)
    | dsimp -proj +zetaDelta only
    | dsimp only

theorem State.answer_keep (s : State) (t : RepTo) (isFinal : Bool) (status lease : Nat) (params : List Byte) : Keep 0x3CFF9FCBB s (State.answer s t isFinal status lease params) := by
  unfold State.answer
  repeat' first
    | exact rfl
    | with_reducible apply Keep.refl
    | with_reducible assumption
    | with_reducible apply Keep.via (State.sat_keep ..)
    | with_reducible apply Keep.via (State.noteDone_keep ..)
    | with_reducible apply Keep.via (State.refusedEvent_keep ..)
    | with_reducible apply Keep.via (State.sendOn_keep ..)
    | with_reducible apply Keep.ite
    | split
    | extract_lets
    | dsimp -proj only
    | ((with_reducible conv => arg 3; whnf); first | split)
    | dsimp -proj +zetaDelta only
    | dsimp only

theorem State.finish_keep (s : State) (what : WaitFor) (status : Nat) (params : List Byte) : Keep 0x3CFF9FCBB s (State.finish s what status params) := by
  unfold State.finish
  repeat' first
    | exact rfl
    | with_reducible apply Keep.refl
    | with_reducible assumption
    | with_reducible apply Keep.via (State.answer_keep ..)
    | split
    | dsimp -proj only
    | exact (fun h => h : Cq.Bounded _ → Cq.Bounded _)
    | ((with_reducible conv => arg 3; whnf); first | split | with_reducible apply Keep.setCq)
    | dsimp -proj +zetaDelta only
    | dsimp only

theorem State.dikeDone_keep (s : State) : Keep 0x3CFF9FCBB s (State.dikeDone s) := by
  unfold State.dikeDone
  repeat' first
    | exact rfl
    | with_reducible apply Keep.refl
    | with_reducible assumption
    | with_reducible apply Keep.via (State.finish_keep ..)
    | with_reducible apply Keep.ite
    | split
    | dsimp -proj only
    | ((with_reducible conv => arg 3; whnf); first | split)
    | dsimp -proj +zetaDelta only
    | dsimp only

theorem State.peakQueue_keep (s : State) : Keep 0x3FFFFFFFB s (State.peakQueue s) := by
  unfold State.peakQueue
  repeat' first
    | exact rfl
    | with_reducible apply Keep.refl
    | with_reducible assumption
    | with_reducible apply Keep.via (State.maxField_keep ..)
    | dsimp -proj only
    | ((with_reducible conv => arg 3; whnf); first | split)
    | dsimp -proj +zetaDelta only
    | dsimp only

theorem State.arrive_keep (s : State) (r : Req) : Keep 0x3CFF9FCBB s (s.arrive r) := by
  unfold State.arrive
  split
  · exact Keep.refl _ _
  · split
    · exact Keep.via (State.sat_keep ..) rfl (Keep.refl _ _)
    · split
      · exact Keep.via (State.answer_keep ..) rfl (Keep.refl _ _)
      · split
        · exact Keep.via (State.answer_keep ..) rfl (Keep.refl _ _)
        · refine Keep.via (State.peakQueue_keep ..) rfl (Keep.setCq rfl (fun h => ⟨?_, h.2⟩) (Keep.refl _ _))
          simp only [List.length_append, List.length_singleton]; omega

theorem State.authFail_keep (s : State) (kind key port : Nat) : Keep 0x3CFFDFCFB s (State.authFail s kind key port) := by
  unfold State.authFail
  repeat' first
    | exact rfl
    | with_reducible apply Keep.refl
    | with_reducible assumption
    | with_reducible apply Keep.via (State.event_keep ..)
    | with_reducible apply Keep.via (State.sat_keep ..)
    | with_reducible apply Keep.ite
    | split
    | extract_lets
    | dsimp -proj only
    | exact (fun h => h : Cq.Bounded _ → Cq.Bounded _)
    | ((with_reducible conv => arg 3; whnf); first | split | with_reducible apply Keep.setCq)
    | dsimp -proj +zetaDelta only
    | dsimp only

theorem State.authCheck_keep (s : State) (r : Req) : Keep 0x3DFFFFFFF s (State.authCheck s r).2 := by
  unfold State.authCheck
  repeat' first
    | exact rfl
    | with_reducible apply Keep.refl
    | with_reducible assumption
    | with_reducible apply Keep.via (State.modSess_keep ..)
    | with_reducible apply Keep.ite
    | with_reducible apply Keep.ite_snd
    | split
    | extract_lets
    | dsimp -proj only
    | ((with_reducible conv => arg 3; whnf); first | split)
    | dsimp -proj +zetaDelta only
    | dsimp only

theorem State.quorumCount_keep (s : State) (port : Nat) (b : List Byte) : Keep 0x3CFFDFCFB s (State.quorumCount s port b).2 := by
  unfold State.quorumCount
  repeat' first
    | exact rfl
    | with_reducible apply Keep.refl
    | with_reducible assumption
    | with_reducible apply Keep.via (State.authFail_keep ..)
    | with_reducible apply Keep.foldl
    | with_reducible apply Keep.foldl_snd
    | with_reducible apply Keep.foldl_fst
    | (intro _ _)
    | with_reducible apply Keep.ite
    | with_reducible apply Keep.ite_snd
    | split
    | extract_lets
    | dsimp -proj only
    | ((with_reducible conv => arg 3; whnf); first | split)
    | dsimp -proj +zetaDelta only
    | dsimp only

theorem State.newNonce_keep (s : State) : Keep 0x3DFFFFFDF s (State.newNonce s) := by
  unfold State.newNonce
  repeat' first
    | exact rfl
    | with_reducible apply Keep.refl
    | with_reducible assumption
    | with_reducible apply Keep.via (State.draw_keep ..)
    | extract_lets
    | dsimp -proj only
    | exact (fun h => h : Cq.Bounded _ → Cq.Bounded _)
    | ((with_reducible conv => arg 3; whnf); first | split | with_reducible apply Keep.setCq)
    | dsimp -proj +zetaDelta only
    | dsimp only

theorem State.freshNonce_keep (s : State) : Keep 0x3DFFFFFDF s (State.freshNonce s) := by
  unfold State.freshNonce
  repeat' first
    | exact rfl
    | with_reducible apply Keep.refl
    | with_reducible assumption
    | with_reducible apply Keep.via (State.newNonce_keep ..)
    | with_reducible apply Keep.ite
    | split
    | dsimp -proj only
    | ((with_reducible conv => arg 3; whnf); first | split)
    | dsimp -proj +zetaDelta only
    | dsimp only

theorem State.gate_keep (s : State) (d : CmdDef) (r : Req) : Keep 0x3CFFDFCDB s (State.gate s d r).2.2 := by
  unfold State.gate
  repeat' first
    | exact rfl
    | with_reducible apply Keep.refl
    | with_reducible assumption
    | with_reducible apply Keep.via (State.authCheck_keep ..)
    | with_reducible apply Keep.via (State.authFail_keep ..)
    | with_reducible apply Keep.via (State.quorumCount_keep ..)
    | with_reducible apply Keep.via (State.freshNonce_keep ..)
    | with_reducible apply Keep.via (State.event_keep ..)
    | with_reducible apply Keep.via (State.newNonce_keep ..)
    | with_reducible apply Keep.ite
    | with_reducible apply Keep.ite_snd2
    | with_reducible apply Keep.ite_snd
    | split
    | extract_lets
    | dsimp -proj only
    | ((with_reducible conv => arg 3; whnf); first | split)
    | dsimp -proj +zetaDelta only
    | dsimp only

theorem State.remember_keep (s : State) (d : CmdDef) (r : Req) (t : RepTo) (reply : List Byte) : Keep 0x3DFFFFFFF s (State.remember s d r t reply) := by
  unfold State.remember
  repeat' first
    | exact rfl
    | with_reducible apply Keep.refl
    | with_reducible assumption
    | with_reducible apply Keep.ite
    | split
    | extract_lets
    | dsimp -proj only
    | exact (fun h => h : Cq.Bounded _ → Cq.Bounded _)
    | ((with_reducible conv => arg 3; whnf); first | split | with_reducible apply Keep.setCq)
    | dsimp -proj +zetaDelta only
    | dsimp only

theorem State.conclude_keep (d : CmdDef) (r : Req) (t : RepTo) (o : Out) : Keep 0x3CFF9FCBB o.s (State.conclude d r t o) := by
  unfold State.conclude
  repeat' first
    | exact rfl
    | with_reducible apply Keep.refl
    | with_reducible assumption
    | with_reducible apply Keep.via (State.remember_keep ..)
    | with_reducible apply Keep.via (Out.s_keep ..)
    | with_reducible apply Keep.via (State.answer_keep ..)
    | with_reducible apply Keep.ite
    | split
    | extract_lets
    | dsimp -proj only
    | exact (fun h => h : Cq.Bounded _ → Cq.Bounded _)
    | ((with_reducible conv => arg 3; whnf); first | split | with_reducible apply Keep.setCq)
    | dsimp -proj +zetaDelta only
    | dsimp only

theorem State.runCmd_keep {m : Nat} (s : State) (d : CmdDef) (r : Req) (hm : sub m 0x3CFF9FC9B = true)
    (hd : ∀ u c, Keep m u (d.run u c).s) : Keep m s (s.runCmd d r) := by
  have ans : ∀ {u : State} (t : RepTo) (f : Bool) (st l : Nat) (p : List Byte), Keep m u (u.answer t f st l p) :=
    fun t f st l p => (State.answer_keep ..).mono (sub_trans hm rfl)
  have gt : ∀ u, Keep m u (u.gate d r).2.2 := fun u => (State.gate_keep ..).mono (sub_trans hm rfl)
  unfold State.runCmd
  extract_lets
  split
  · exact (Keep.mono (State.event_keep ..) (sub_trans hm rfl)).trans (ans ..)
  · split
    · exact ans ..
    · split
      · exact (gt s).trans (ans ..)
      · split
        · exact (gt s).trans (ans ..)
        · split
          · exact (gt s).trans (ans ..)
          · split
            · split <;> exact (gt s).trans (ans ..)
            · split
              · exact (gt s).trans (ans ..)
              · exact ((gt s).trans (hd ..)).trans ((State.conclude_keep ..).mono (sub_trans hm rfl))

theorem State.cuard_keep {m : Nat} {s : State} {d : CmdDef} {r : Req} (hd : ∀ u c, Keep m u (d.run u c).s)
    (hm : sub m 0x3CFF9FC9B = true) : KeepR m s (s.cuard d r) := by
  unfold State.cuard
  split
  · exact KeepR.refused
  · split
    · exact KeepR.next (Keep.refl _ _)
    · have h1 : Keep m s (if s.cq.queue.contains r = true then s else s.arrive r) :=
        Keep.ite (Keep.refl _ _) ((State.arrive_keep ..).mono (sub_trans hm rfl))
      generalize (if s.cq.queue.contains r = true then s else s.arrive r) = s1 at h1
      dsimp only
      split
      · rename_i q rest hq
        split
        · refine KeepR.next (Keep.trans ?_ (State.runCmd_keep _ _ _ (sub_trans hm rfl) hd))
          refine Keep.setCq (sub_bit hm rfl) (fun h => ⟨?_, h.2⟩) h1
          have := h.1
          rw [hq] at this
          simp only [List.length_cons] at this
          exact Nat.le_of_succ_le this
        · exact KeepR.next h1
      · exact KeepR.next h1

theorem State.relock_keep (s : State) (key : Nat) : Keep 0x3CFFDFCFB s (State.relock s key) := by
  unfold State.relock
  repeat' first
    | exact rfl
    | with_reducible apply Keep.refl
    | with_reducible assumption
    | with_reducible apply Keep.via (State.event_keep ..)
    | with_reducible apply Keep.via (State.wf_keep ..)
    | with_reducible apply Keep.ite
    | split
    | dsimp -proj only
    | exact (fun h => h : Cq.Bounded _ → Cq.Bounded _)
    | ((with_reducible conv => arg 3; whnf); first | split | with_reducible apply Keep.setCq)
    | dsimp -proj +zetaDelta only
    | dsimp only

theorem State.closeSess_keep (s : State) (id cause : Nat) : Keep 0x3CFFDFCFB s (State.closeSess s id cause) := by
  unfold State.closeSess
  repeat' first
    | exact rfl
    | with_reducible apply Keep.refl
    | with_reducible assumption
    | with_reducible apply Keep.via (State.event_keep ..)
    | with_reducible apply Keep.via (State.relock_keep ..)
    | with_reducible apply Keep.ite
    | split
    | extract_lets
    | dsimp -proj only
    | exact (fun h => h : Cq.Bounded _ → Cq.Bounded _)
    | ((with_reducible conv => arg 3; whnf); first | split | with_reducible apply Keep.setCq)
    | dsimp -proj +zetaDelta only
    | dsimp only

theorem State.endLease_keep (s : State) (res kind newKey : Nat) : Keep 0x3CFFDFCFB s (State.endLease s res kind newKey) := by
  unfold State.endLease
  repeat' first
    | exact rfl
    | with_reducible apply Keep.refl
    | with_reducible assumption
    | with_reducible apply Keep.via (State.event_keep ..)
    | split
    | dsimp -proj only
    | exact (fun h => h : Cq.Bounded _ → Cq.Bounded _)
    | ((with_reducible conv => arg 3; whnf); first | split | with_reducible apply Keep.setCq)
    | dsimp -proj +zetaDelta only
    | dsimp only


end Sys2Proof.Machine
end

