-- ==== Sys2Proof/Laws/KeepClocks.lean ====
section
/-! SUPPORT. What each operation of Machine/Clocks.lean leaves alone (Laws/Keep.lean). -/

namespace Sys2Proof.Machine

set_option linter.unusedTactic false
set_option linter.unreachableTactic false

theorem execRefclkLost_keep (kind : Fin 4) (s : State) : KeepR 0x3EFEDFCFB s (execRefclkLost kind s) := by
  unfold execRefclkLost
  repeat' first
    | exact rfl
    | with_reducible apply Keep.refl
    | with_reducible assumption
    | with_reducible apply KeepR.refused
    | with_reducible apply KeepR.next
    | with_reducible apply Keep.via (State.sat_keep ..)
    | with_reducible apply Keep.via (State.wf_keep ..)
    | with_reducible apply Keep.via (State.askFreq_keep ..)
    | with_reducible apply Keep.via (State.event_keep ..)
    | with_reducible apply Keep.ite
    | with_reducible apply KeepR.ite
    | split
    | extract_lets
    | dsimp -proj only
    | ((with_reducible conv => arg 3; whnf); first | split)
    | dsimp -proj +zetaDelta only
    | dsimp only

theorem execRefclkRestored_keep (s : State) : KeepR 0x3EFCDFCFB s (execRefclkRestored s) := by
  unfold execRefclkRestored
  repeat' first
    | exact rfl
    | with_reducible apply Keep.refl
    | with_reducible assumption
    | with_reducible apply KeepR.refused
    | with_reducible apply KeepR.next
    | with_reducible apply Keep.via (State.wf_keep ..)
    | with_reducible apply Keep.via (State.syncClk_keep ..)
    | with_reducible apply Keep.via (State.event_keep ..)
    | with_reducible apply Keep.ite
    | with_reducible apply KeepR.ite
    | split
    | extract_lets
    | dsimp -proj only
    | ((with_reducible conv => arg 3; whnf); first | split | with_reducible apply Keep.setPwr | with_reducible apply Keep.setClk)
    | dsimp -proj +zetaDelta only
    | dsimp only

theorem execRefBothLost_keep (s : State) : KeepR 0x3EFCDFCFB s (execRefBothLost s) := by
  unfold execRefBothLost
  repeat' first
    | exact rfl
    | with_reducible apply Keep.refl
    | with_reducible assumption
    | with_reducible apply KeepR.refused
    | with_reducible apply KeepR.next
    | with_reducible apply Keep.via (State.wf_keep ..)
    | with_reducible apply Keep.via (State.askFreq_keep ..)
    | with_reducible apply Keep.via (State.alertOn_keep ..)
    | with_reducible apply Keep.via (State.event_keep ..)
    | with_reducible apply Keep.ite
    | with_reducible apply KeepR.ite
    | split
    | extract_lets
    | dsimp -proj only
    | ((with_reducible conv => arg 3; whnf); first | split)
    | dsimp -proj +zetaDelta only
    | dsimp only

theorem execHoldoverLost_keep (s : State) : KeepR 0x3FFFFFFFB s (execHoldoverLost s) := by
  unfold execHoldoverLost
  repeat' first
    | exact rfl
    | with_reducible apply Keep.refl
    | with_reducible assumption
    | with_reducible apply KeepR.refused
    | with_reducible apply KeepR.next
    | with_reducible apply Keep.via (State.wf_keep ..)
    | with_reducible apply Keep.ite
    | with_reducible apply KeepR.ite
    | split
    | dsimp -proj only
    | ((with_reducible conv => arg 3; whnf); first | split)
    | dsimp -proj +zetaDelta only
    | dsimp only

theorem State.freqDone_keep (s : State) (status : Nat) : Keep 0x3CFF9FCBB s (State.freqDone s status) := by
  unfold State.freqDone
  repeat' first
    | exact rfl
    | with_reducible apply Keep.refl
    | with_reducible assumption
    | with_reducible apply Keep.via (State.finish_keep ..)
    | with_reducible apply Keep.ite
    | split
    | dsimp -proj only
    | ((with_reducible conv => arg 3; whnf); first | split)
    | dsimp -proj +zetaDelta only
    | dsimp only

theorem execFreqChangeRequest_keep (s : State) : KeepR 0x3CFE9FCBB s (execFreqChangeRequest s) := by
  unfold execFreqChangeRequest
  repeat' first
    | exact rfl
    | with_reducible apply Keep.refl
    | with_reducible assumption
    | with_reducible apply KeepR.refused
    | with_reducible apply KeepR.next
    | with_reducible apply Keep.via (State.freqDone_keep ..)
    | with_reducible apply Keep.via (State.syncClk_keep ..)
    | with_reducible apply Keep.via (State.syncPlan_keep ..)
    | with_reducible apply Keep.ite
    | with_reducible apply KeepR.ite
    | split
    | extract_lets
    | dsimp -proj only
    | ((with_reducible conv => arg 3; whnf); first | split | with_reducible apply Keep.setClk)
    | dsimp -proj +zetaDelta only
    | dsimp only

theorem execFreqChangeBroadcast_keep (w : CtlWay) (s : State) : KeepR 0x3E9214CAB s (execFreqChangeBroadcast s w) := by
  unfold execFreqChangeBroadcast
  repeat' first
    | exact rfl
    | with_reducible apply Keep.refl
    | with_reducible assumption
    | with_reducible apply KeepR.refused
    | with_reducible apply KeepR.next
    | with_reducible apply Keep.via (State.ctlWay_keep ..)
    | with_reducible apply Keep.via (State.free_keep ..)
    | with_reducible apply Keep.via (State.maxField_keep ..)
    | with_reducible apply Keep.via (State.send_keep ..)
    | with_reducible apply Keep.via (State.wr64_keep ..)
    | with_reducible apply Keep.ite
    | with_reducible apply KeepR.ite
    | split
    | extract_lets
    | dsimp -proj only
    | ((with_reducible conv => arg 3; whnf); first | split | with_reducible apply Keep.setClk)
    | dsimp -proj +zetaDelta only
    | dsimp only

theorem execFreqSwitch_keep (s : State) : KeepR 0x3CFE9DCBB s (execFreqSwitch s) := by
  unfold execFreqSwitch
  repeat' first
    | exact rfl
    | with_reducible apply Keep.refl
    | with_reducible assumption
    | with_reducible apply KeepR.refused
    | with_reducible apply KeepR.next
    | with_reducible apply Keep.via (State.take_keep ..)
    | with_reducible apply Keep.via (State.wr64_keep ..)
    | with_reducible apply Keep.via (State.wf_keep ..)
    | with_reducible apply Keep.via (State.syncClk_keep ..)
    | with_reducible apply Keep.via (State.syncPlan_keep ..)
    | with_reducible apply Keep.via (State.loseAlign_keep ..)
    | with_reducible apply Keep.via (State.sat_keep ..)
    | with_reducible apply Keep.via (State.event_keep ..)
    | with_reducible apply Keep.via (State.voidTime_keep ..)
    | with_reducible apply Keep.via (State.modRun_keep ..)
    | with_reducible apply Keep.via (State.freqDone_keep ..)
    | with_reducible apply Keep.ite
    | with_reducible apply KeepR.ite
    | split
    | extract_lets
    | dsimp -proj only
    | ((with_reducible conv => arg 3; whnf); first | split | with_reducible apply Keep.setClk)
    | dsimp -proj +zetaDelta only
    | dsimp only

theorem execFreqVoltageSettled_keep (s : State) : KeepR 0x3CFE9FCBB s (execFreqVoltageSettled s) := by
  unfold execFreqVoltageSettled
  repeat' first
    | exact rfl
    | with_reducible apply Keep.refl
    | with_reducible assumption
    | with_reducible apply KeepR.refused
    | with_reducible apply KeepR.next
    | with_reducible apply Keep.via (State.syncClk_keep ..)
    | with_reducible apply Keep.via (State.freqDone_keep ..)
    | with_reducible apply Keep.ite
    | with_reducible apply KeepR.ite
    | split
    | extract_lets
    | dsimp -proj only
    | ((with_reducible conv => arg 3; whnf); first | split | with_reducible apply Keep.setClk)
    | dsimp -proj +zetaDelta only
    | dsimp only

theorem execPllLockTimeout_keep (s : State) : KeepR 0x3CFE9FCBB s (execPllLockTimeout s) := by
  unfold execPllLockTimeout
  repeat' first
    | exact rfl
    | with_reducible apply Keep.refl
    | with_reducible assumption
    | with_reducible apply KeepR.refused
    | with_reducible apply KeepR.next
    | with_reducible apply Keep.via (State.syncClk_keep ..)
    | with_reducible apply Keep.via (State.syncPlan_keep ..)
    | with_reducible apply Keep.via (State.event_keep ..)
    | with_reducible apply Keep.via (State.freqDone_keep ..)
    | with_reducible apply Keep.ite
    | with_reducible apply KeepR.ite
    | split
    | extract_lets
    | dsimp -proj only
    | ((with_reducible conv => arg 3; whnf); first | split | with_reducible apply Keep.setClk)
    | dsimp -proj +zetaDelta only
    | dsimp only

theorem State.droopCount_keep (s : State) : Keep 0x3FFEFFFFB s (State.droopCount s) := by
  unfold State.droopCount
  repeat' first
    | exact rfl
    | with_reducible apply Keep.refl
    | with_reducible assumption
    | with_reducible apply Keep.via (State.askFreq_keep ..)
    | with_reducible apply Keep.via (State.wf_keep ..)
    | with_reducible apply Keep.ite
    | split
    | extract_lets
    | dsimp -proj only
    | ((with_reducible conv => arg 3; whnf); first | split | with_reducible apply Keep.setClk)
    | dsimp -proj +zetaDelta only
    | dsimp only

theorem State.closeStretch_keep (s : State) : Keep 0x3EFEDFCFB s (State.closeStretch s) := by
  unfold State.closeStretch
  repeat' first
    | exact rfl
    | with_reducible apply Keep.refl
    | with_reducible assumption
    | with_reducible apply Keep.via (State.event_keep ..)
    | with_reducible apply Keep.ite
    | split
    | dsimp -proj only
    | ((with_reducible conv => arg 3; whnf); first | split | with_reducible apply Keep.setClk)
    | dsimp -proj +zetaDelta only
    | dsimp only

theorem execDroopDetect_keep (r : Fin 30) (s : State) : KeepR 0x3EFEDDCFB s (execDroopDetect r s) := by
  unfold execDroopDetect
  repeat' first
    | exact rfl
    | with_reducible apply Keep.refl
    | with_reducible assumption
    | with_reducible apply KeepR.refused
    | with_reducible apply KeepR.next
    | with_reducible apply Keep.via (State.closeStretch_keep ..)
    | with_reducible apply Keep.via (State.loseAlign_keep ..)
    | with_reducible apply Keep.via (State.sat_keep ..)
    | with_reducible apply Keep.via (State.voidTime_keep ..)
    | with_reducible apply Keep.via (State.modRun_keep ..)
    | with_reducible apply Keep.via (State.droopCount_keep ..)
    | split
    | extract_lets
    | dsimp -proj only
    | ((with_reducible conv => arg 3; whnf); first | split | with_reducible apply Keep.setClk)
    | dsimp -proj +zetaDelta only
    | dsimp only

theorem execStretchWindowEnd_keep (s : State) : KeepR 0x3EFEDFCFB s (execStretchWindowEnd s) := by
  unfold execStretchWindowEnd
  repeat' first
    | exact rfl
    | with_reducible apply Keep.refl
    | with_reducible assumption
    | with_reducible apply KeepR.refused
    | with_reducible apply KeepR.next
    | with_reducible apply Keep.via (State.closeStretch_keep ..)
    | dsimp -proj only
    | ((with_reducible conv => arg 3; whnf); first | split)
    | dsimp -proj +zetaDelta only
    | dsimp only

theorem execDroopReturn_keep (s : State) : KeepR 0x3FFEFFFFB s (execDroopReturn s) := by
  unfold execDroopReturn
  repeat' first
    | exact rfl
    | with_reducible apply Keep.refl
    | with_reducible assumption
    | with_reducible apply KeepR.refused
    | with_reducible apply KeepR.next
    | with_reducible apply Keep.via (State.askFreq_keep ..)
    | with_reducible apply Keep.via (State.wf_keep ..)
    | with_reducible apply Keep.ite
    | with_reducible apply KeepR.ite
    | split
    | extract_lets
    | dsimp -proj only
    | ((with_reducible conv => arg 3; whnf); first | split | with_reducible apply Keep.setClk)
    | dsimp -proj +zetaDelta only
    | dsimp only

theorem execSafeClockStepUp_keep (s : State) : KeepR 0x3FFEFFFFB s (execSafeClockStepUp s) := by
  unfold execSafeClockStepUp
  repeat' first
    | exact rfl
    | with_reducible apply Keep.refl
    | with_reducible assumption
    | with_reducible apply KeepR.refused
    | with_reducible apply KeepR.next
    | with_reducible apply Keep.via (State.askFreq_keep ..)
    | with_reducible apply Keep.ite
    | with_reducible apply KeepR.ite
    | split
    | dsimp -proj only
    | ((with_reducible conv => arg 3; whnf); first | split | with_reducible apply Keep.setClk)
    | dsimp -proj +zetaDelta only
    | dsimp only

theorem execPowerAvg1ms_keep (watts : BitVec 16) (s : State) : KeepR 0x3EFCDFCFB s (execPowerAvg1ms watts s) := by
  unfold execPowerAvg1ms
  repeat' first
    | exact rfl
    | with_reducible apply Keep.refl
    | with_reducible assumption
    | with_reducible apply KeepR.refused
    | with_reducible apply KeepR.next
    | with_reducible apply Keep.via (State.wf_keep ..)
    | with_reducible apply Keep.via (State.event_keep ..)
    | with_reducible apply Keep.via (State.askFreq_keep ..)
    | with_reducible apply Keep.ite
    | with_reducible apply KeepR.ite
    | split
    | extract_lets
    | dsimp -proj only
    | ((with_reducible conv => arg 3; whnf); first | split | with_reducible apply Keep.setPwr)
    | dsimp -proj +zetaDelta only
    | dsimp only

theorem execCapWindowEnd_keep (s : State) : KeepR 0x3EFCDFCFB s (execCapWindowEnd s) := by
  unfold execCapWindowEnd
  repeat' first
    | exact rfl
    | with_reducible apply Keep.refl
    | with_reducible assumption
    | with_reducible apply KeepR.refused
    | with_reducible apply KeepR.next
    | with_reducible apply Keep.via (State.sat_keep ..)
    | with_reducible apply Keep.via (State.event_keep ..)
    | with_reducible apply Keep.via (State.askFreq_keep ..)
    | with_reducible apply Keep.via (State.wf_keep ..)
    | with_reducible apply Keep.ite
    | with_reducible apply KeepR.ite
    | split
    | extract_lets
    | dsimp -proj only
    | ((with_reducible conv => arg 3; whnf); first | split | with_reducible apply Keep.setPwr)
    | dsimp -proj +zetaDelta only
    | dsimp only

theorem execJunctionSensorRead_keep (raw : List Int) (s : State) : KeepR 0x3EFCDFCEB s (execJunctionSensorRead raw s) := by
  unfold execJunctionSensorRead
  repeat' first
    | exact rfl
    | with_reducible apply Keep.refl
    | with_reducible assumption
    | with_reducible apply KeepR.refused
    | with_reducible apply KeepR.next
    | with_reducible apply Keep.via (State.event_keep ..)
    | with_reducible apply Keep.via (State.tempByte_keep ..)
    | with_reducible apply Keep.via (State.wf_keep ..)
    | with_reducible apply Keep.via (State.thermal_keep ..)
    | with_reducible apply Keep.foldl
    | with_reducible apply Keep.foldl_snd
    | with_reducible apply Keep.foldl_fst
    | (intro _ _)
    | with_reducible apply Keep.ite
    | with_reducible apply KeepR.ite
    | split
    | extract_lets
    | dsimp -proj only
    | ((with_reducible conv => arg 3; whnf); first | split | with_reducible apply Keep.setPwr)
    | dsimp -proj +zetaDelta only
    | dsimp only

theorem execThermStepTimer_keep (s : State) : KeepR 0x3FFCFFFFB s (execThermStepTimer s) := by
  unfold execThermStepTimer
  repeat' first
    | exact rfl
    | with_reducible apply Keep.refl
    | with_reducible assumption
    | with_reducible apply KeepR.refused
    | with_reducible apply KeepR.next
    | with_reducible apply Keep.via (State.askFreq_keep ..)
    | with_reducible apply Keep.via (State.wf_keep ..)
    | with_reducible apply Keep.ite
    | with_reducible apply KeepR.ite
    | split
    | extract_lets
    | dsimp -proj only
    | ((with_reducible conv => arg 3; whnf); first | split | with_reducible apply Keep.setPwr)
    | dsimp -proj +zetaDelta only
    | dsimp only

theorem execDomainRegulationFault_keep (d : Fin 24) (s : State) : KeepR 0x3E9214CBB s (execDomainRegulationFault d s) := by
  unfold execDomainRegulationFault
  repeat' first
    | exact rfl
    | with_reducible apply Keep.refl
    | with_reducible assumption
    | with_reducible apply KeepR.refused
    | with_reducible apply KeepR.next
    | with_reducible apply Keep.via (State.reportDomain_keep ..)
    | with_reducible apply Keep.via (State.event_keep ..)
    | with_reducible apply Keep.ite
    | with_reducible apply KeepR.ite
    | split
    | dsimp -proj only
    | ((with_reducible conv => arg 3; whnf); first | split)
    | dsimp -proj +zetaDelta only
    | dsimp only

theorem State.gateDomain_keep (s : State) (d : Nat) (off : Bool) : Keep 0x3EFFCE0FB s (State.gateDomain s d off).2 := by
  unfold State.gateDomain
  repeat' first
    | exact rfl
    | with_reducible apply Keep.refl
    | with_reducible assumption
    | with_reducible apply Keep.via (State.clearKeys_keep ..)
    | with_reducible apply Keep.via (State.setSpn_keep ..)
    | with_reducible apply Keep.via (State.wf_keep ..)
    | with_reducible apply Keep.via (State.setDom_keep ..)
    | with_reducible apply Keep.via (State.syncStop_keep ..)
    | with_reducible apply Keep.via (State.event_keep ..)
    | with_reducible apply Keep.via (State.setSpnState_keep ..)
    | with_reducible apply Keep.via (State.resetSpnRegs_keep ..)
    | with_reducible apply Keep.foldl
    | with_reducible apply Keep.foldl_snd
    | with_reducible apply Keep.foldl_fst
    | (intro _ _)
    | with_reducible apply Keep.ite
    | with_reducible apply Keep.ite_snd
    | split
    | extract_lets
    | dsimp -proj only
    | ((with_reducible conv => arg 3; whnf); first | split)
    | dsimp -proj +zetaDelta only
    | dsimp only

theorem State.writeGate_keep (s : State) (v : Nat) : Keep 0x3EFFCE0FB s (State.writeGate s v) := by
  unfold State.writeGate
  repeat' first
    | exact rfl
    | with_reducible apply Keep.refl
    | with_reducible assumption
    | with_reducible apply Keep.via (State.gateDomain_keep ..)
    | with_reducible apply Keep.foldl
    | with_reducible apply Keep.foldl_snd
    | with_reducible apply Keep.foldl_fst
    | (intro _ _)
    | dsimp -proj only
    | ((with_reducible conv => arg 3; whnf); first | split)
    | dsimp -proj +zetaDelta only
    | dsimp only

theorem execPwrGateWrite_keep (v : Word) (s : State) : KeepR 0x3EFFCE0FB s (execPwrGateWrite v s) := by
  unfold execPwrGateWrite
  repeat' first
    | exact rfl
    | with_reducible apply Keep.refl
    | with_reducible assumption
    | with_reducible apply KeepR.refused
    | with_reducible apply KeepR.next
    | with_reducible apply Keep.via (State.writeGate_keep ..)
    | dsimp -proj only
    | ((with_reducible conv => arg 3; whnf); first | split)
    | dsimp -proj +zetaDelta only
    | dsimp only

theorem execTelemetryRefresh_keep (meas : List (Nat × Nat × Nat)) (s : State) : KeepR 0x3FFDFFFFB s (execTelemetryRefresh meas s) := by
  unfold execTelemetryRefresh
  repeat' first
    | exact rfl
    | with_reducible apply Keep.refl
    | with_reducible assumption
    | with_reducible apply KeepR.refused
    | with_reducible apply KeepR.next
    | with_reducible apply Keep.via (State.wf_keep ..)
    | with_reducible apply Keep.foldl
    | with_reducible apply Keep.foldl_snd
    | with_reducible apply Keep.foldl_fst
    | (intro _ _)
    | with_reducible apply Keep.ite
    | with_reducible apply KeepR.ite
    | split
    | extract_lets
    | dsimp -proj only
    | ((with_reducible conv => arg 3; whnf); first | split | with_reducible apply Keep.setPwr)
    | dsimp -proj +zetaDelta only
    | dsimp only


end Sys2Proof.Machine
end

