-- ==== Sys2Proof/Laws/KeepSpindle.lean ====
section
/-! SUPPORT. What each operation of Machine/Spindle.lean leaves alone (Laws/Keep.lean). -/

namespace Sys2Proof.Machine

set_option linter.unusedTactic false
set_option linter.unreachableTactic false

theorem State.fireUnit_keep (s : State) (ps u : Nat) (w : DWord) (toks : List StoreEnt) (f : Flips) : Keep 0x3EDF100AB s (State.fireUnit s ps u w toks f) := by
  unfold State.fireUnit
  repeat' first
    | exact rfl
    | with_reducible apply Keep.refl
    | with_reducible assumption
    | with_reducible apply Keep.via (State.spnFault_keep ..)
    | with_reducible apply Keep.via (State.fireBread_keep ..)
    | with_reducible apply Keep.via (State.fireBwrite_keep ..)
    | with_reducible apply Keep.via (State.fireRd_keep ..)
    | with_reducible apply Keep.via (State.fireWr_keep ..)
    | with_reducible apply Keep.via (State.fireAtom_keep ..)
    | with_reducible apply Keep.via (State.fireRecv_keep ..)
    | with_reducible apply Keep.via (State.fireSend_keep ..)
    | with_reducible apply Keep.via (State.fireWatch_keep ..)
    | with_reducible apply Keep.via (State.fireSluice_keep ..)
    | with_reducible apply Keep.via (State.peaks_keep ..)
    | with_reducible apply Keep.via (State.applyRes_keep ..)
    | split
    | extract_lets
    | dsimp -proj only
    | ((with_reducible conv => arg 3; whnf); first | split)
    | dsimp -proj +zetaDelta only
    | dsimp only

theorem State.stallEvents_keep (s : State) (ps : Nat) : Keep 0x3EFFDECFB s (State.stallEvents s ps) := by
  unfold State.stallEvents
  repeat' first
    | exact rfl
    | with_reducible apply Keep.refl
    | with_reducible assumption
    | with_reducible apply Keep.via (State.event_keep ..)
    | with_reducible apply Keep.via (State.setSpn_keep ..)
    | with_reducible apply Keep.foldl
    | with_reducible apply Keep.foldl_snd
    | with_reducible apply Keep.foldl_fst
    | (intro _ _)
    | with_reducible apply Keep.ite
    | split
    | extract_lets
    | dsimp -proj only
    | ((with_reducible conv => arg 3; whnf); first | split)
    | dsimp -proj +zetaDelta only
    | dsimp only

theorem State.knotCheck_keep (s : State) : Keep 0x3EDF14CBB s (State.knotCheck s) := by
  unfold State.knotCheck
  repeat' first
    | exact rfl
    | with_reducible apply Keep.refl
    | with_reducible assumption
    | with_reducible apply Keep.via (State.wr_keep ..)
    | with_reducible apply Keep.via (State.wr64_keep ..)
    | with_reducible apply Keep.via (State.event_keep ..)
    | with_reducible apply Keep.via (State.faultRunning_keep ..)
    | with_reducible apply Keep.foldl
    | with_reducible apply Keep.foldl_snd
    | with_reducible apply Keep.foldl_fst
    | (intro _ _)
    | with_reducible apply Keep.ite
    | split
    | extract_lets
    | dsimp -proj only
    | ((with_reducible conv => arg 3; whnf); first | split)
    | dsimp -proj +zetaDelta only
    | dsimp only

theorem State.stallTick_keep (s : State) (ps : Nat) (sends recvs : List Nat) : Keep 0x3EDF14CBB s (State.stallTick s ps sends recvs) := by
  unfold State.stallTick
  repeat' first
    | exact rfl
    | with_reducible apply Keep.refl
    | with_reducible assumption
    | with_reducible apply Keep.via (State.knotCheck_keep ..)
    | with_reducible apply Keep.via (State.setSpn_keep ..)
    | with_reducible apply Keep.via (State.sat_keep ..)
    | with_reducible apply Keep.via (State.stallEvents_keep ..)
    | with_reducible apply Keep.foldl
    | with_reducible apply Keep.foldl_snd
    | with_reducible apply Keep.foldl_fst
    | (intro _ _)
    | with_reducible apply Keep.ite
    | split
    | extract_lets
    | dsimp -proj only
    | ((with_reducible conv => arg 3; whnf); first | split)
    | dsimp -proj +zetaDelta only
    | dsimp only

theorem State.countHold_keep (s : State) (ps m : Nat) : Keep 0x3FFFFFFFB s (State.countHold s ps m) := by
  unfold State.countHold
  repeat' first
    | exact rfl
    | with_reducible apply Keep.refl
    | with_reducible assumption
    | with_reducible apply Keep.via (State.wf_keep ..)
    | with_reducible apply Keep.via (State.add64_keep ..)
    | with_reducible apply Keep.via (State.sat_keep ..)
    | with_reducible apply Keep.foldl
    | with_reducible apply Keep.foldl_snd
    | with_reducible apply Keep.foldl_fst
    | (intro _ _)
    | with_reducible apply Keep.ite
    | split
    | extract_lets
    | dsimp -proj only
    | ((with_reducible conv => arg 3; whnf); first | split)
    | dsimp -proj +zetaDelta only
    | dsimp only

theorem State.holdTick_keep (s : State) (ps m : Nat) (sends recvs : List Nat) : Keep 0x3EDF14CBB s (State.holdTick s ps m sends recvs) := by
  unfold State.holdTick
  repeat' first
    | exact rfl
    | with_reducible apply Keep.refl
    | with_reducible assumption
    | with_reducible apply Keep.via (State.countHold_keep ..)
    | with_reducible apply Keep.via (State.setSpnState_keep ..)
    | with_reducible apply Keep.via (State.stallTick_keep ..)
    | with_reducible apply Keep.ite
    | split
    | extract_lets
    | dsimp -proj only
    | ((with_reducible conv => arg 3; whnf); first | split)
    | dsimp -proj +zetaDelta only
    | dsimp only

theorem State.staleCount_keep (s : State) (ps n : Nat) : Keep 0x3FFFFEFFB s (State.staleCount s ps n) := by
  unfold State.staleCount
  repeat' first
    | exact rfl
    | with_reducible apply Keep.refl
    | with_reducible assumption
    | with_reducible apply Keep.via (State.modSpn_keep ..)
    | with_reducible apply Keep.via (State.sat_keep ..)
    | dsimp -proj only
    | ((with_reducible conv => arg 3; whnf); first | split)
    | dsimp -proj +zetaDelta only
    | dsimp only

theorem State.storeMarks_keep (s : State) (ps : Nat) : Keep 0x3FFFFFFFB s (State.storeMarks s ps) := by
  unfold State.storeMarks
  repeat' first
    | exact rfl
    | with_reducible apply Keep.refl
    | with_reducible assumption
    | with_reducible apply Keep.via (State.wf_keep ..)
    | with_reducible apply Keep.foldl
    | with_reducible apply Keep.foldl_snd
    | with_reducible apply Keep.foldl_fst
    | (intro _ _)
    | with_reducible apply Keep.ite
    | split
    | extract_lets
    | dsimp -proj only
    | ((with_reducible conv => arg 3; whnf); first | split)
    | dsimp -proj +zetaDelta only
    | dsimp only

theorem State.leaveFaults_keep (s : State) (ps : Nat) : Keep 0x3EDF14CBB s (State.leaveFaults s ps) := by
  unfold State.leaveFaults
  repeat' first
    | exact rfl
    | with_reducible apply Keep.refl
    | with_reducible assumption
    | with_reducible apply Keep.via (State.spnFault_keep ..)
    | with_reducible apply Keep.via (State.numFlags_keep ..)
    | with_reducible apply Keep.foldl
    | with_reducible apply Keep.foldl_snd
    | with_reducible apply Keep.foldl_fst
    | (intro _ _)
    | with_reducible apply Keep.ite
    | split
    | extract_lets
    | dsimp -proj only
    | ((with_reducible conv => arg 3; whnf); first | split)
    | dsimp -proj +zetaDelta only
    | dsimp only

theorem State.cycle_keep (s : State) (ps : Nat) (slots : List (Nat × DWord)) (f : Flips) : Keep 0x3EDF100AB s (State.cycle s ps slots f) := by
  unfold State.cycle
  repeat' first
    | exact rfl
    | with_reducible apply Keep.refl
    | with_reducible assumption
    | with_reducible apply Keep.via (State.leaveFaults_keep ..)
    | with_reducible apply Keep.via (State.staleCount_keep ..)
    | with_reducible apply Keep.via (State.storeMarks_keep ..)
    | with_reducible apply Keep.via (State.setSpn_keep ..)
    | with_reducible apply Keep.via (State.spnFault_keep ..)
    | with_reducible apply Keep.via (State.fireUnit_keep ..)
    | with_reducible apply Keep.foldl
    | with_reducible apply Keep.foldl_snd
    | with_reducible apply Keep.foldl_fst
    | (intro _ _)
    | with_reducible apply Keep.ite
    | split
    | extract_lets
    | dsimp -proj only
    | ((with_reducible conv => arg 3; whnf); first | split)
    | dsimp -proj +zetaDelta only
    | dsimp only

theorem State.cycleDone_keep (s : State) (ps : Nat) : Keep 0x3EDF14CBB s (State.cycleDone s ps) := by
  unfold State.cycleDone
  repeat' first
    | exact rfl
    | with_reducible apply Keep.refl
    | with_reducible assumption
    | with_reducible apply Keep.via (State.add64_keep ..)
    | with_reducible apply Keep.via (State.wf_keep ..)
    | with_reducible apply Keep.via (State.setSpnState_keep ..)
    | with_reducible apply Keep.via (State.stallTick_keep ..)
    | with_reducible apply Keep.ite
    | split
    | extract_lets
    | dsimp -proj only
    | ((with_reducible conv => arg 3; whnf); first | split)
    | dsimp -proj +zetaDelta only
    | dsimp only

theorem State.waitTick_keep (s : State) (ps : Nat) : Keep 0x3EDF14CBB s (State.waitTick s ps) := by
  unfold State.waitTick
  repeat' first
    | exact rfl
    | with_reducible apply Keep.refl
    | with_reducible assumption
    | with_reducible apply Keep.via (State.stallTick_keep ..)
    | with_reducible apply Keep.via (State.countHold_keep ..)
    | dsimp -proj only
    | ((with_reducible conv => arg 3; whnf); first | split)
    | dsimp -proj +zetaDelta only
    | dsimp only

theorem State.drainTick_keep (s : State) (ps : Nat) : Keep 0x3EDF100AB s (State.drainTick s ps) := by
  unfold State.drainTick
  repeat' first
    | exact rfl
    | with_reducible apply Keep.refl
    | with_reducible assumption
    | with_reducible apply Keep.via (State.countHold_keep ..)
    | with_reducible apply Keep.via (State.setSpnState_keep ..)
    | with_reducible apply Keep.via (State.cycle_keep ..)
    | with_reducible apply Keep.via (State.stallTick_keep ..)
    | with_reducible apply Keep.via (State.modSpn_keep ..)
    | with_reducible apply Keep.ite
    | split
    | extract_lets
    | dsimp -proj only
    | ((with_reducible conv => arg 3; whnf); first | split)
    | dsimp -proj +zetaDelta only
    | dsimp only

theorem State.reachPoint_keep (s : State) (ps : Nat) : Keep 0x3EDF100AB s (State.reachPoint s ps) := by
  unfold State.reachPoint
  repeat' first
    | exact rfl
    | with_reducible apply Keep.refl
    | with_reducible assumption
    | with_reducible apply Keep.via (State.drainTick_keep ..)
    | with_reducible apply Keep.via (State.modSpn_keep ..)
    | dsimp -proj only
    | ((with_reducible conv => arg 3; whnf); first | split)
    | dsimp -proj +zetaDelta only
    | dsimp only

theorem State.strandTick_keep (s : State) (ps : Nat) (slots : List (Nat × DWord)) (f : Flips) (after : Spn → Spn) : Keep 0x3EDF100AB s (State.strandTick s ps slots f after) := by
  unfold State.strandTick
  repeat' first
    | exact rfl
    | with_reducible apply Keep.refl
    | with_reducible assumption
    | with_reducible apply Keep.via (State.reachPoint_keep ..)
    | with_reducible apply Keep.via (State.holdTick_keep ..)
    | with_reducible apply Keep.via (State.cycle_keep ..)
    | with_reducible apply Keep.via (State.cycleDone_keep ..)
    | with_reducible apply Keep.via (State.modSpn_keep ..)
    | with_reducible apply Keep.ite
    | split
    | extract_lets
    | dsimp -proj only
    | ((with_reducible conv => arg 3; whnf); first | split)
    | dsimp -proj +zetaDelta only
    | dsimp only

theorem State.fireSlot_keep (s : State) (ps u : Nat) (w : DWord) (f : Flips) : Keep 0x3EDF100AB s (State.fireSlot s ps u w f) := by
  unfold State.fireSlot
  repeat' first
    | exact rfl
    | with_reducible apply Keep.refl
    | with_reducible assumption
    | with_reducible apply Keep.via (State.holdTick_keep ..)
    | with_reducible apply Keep.via (State.fireUnit_keep ..)
    | with_reducible apply Keep.via (State.setSpn_keep ..)
    | with_reducible apply Keep.ite
    | split
    | extract_lets
    | dsimp -proj only
    | ((with_reducible conv => arg 3; whnf); first | split)
    | dsimp -proj +zetaDelta only
    | dsimp only


end Sys2Proof.Machine
end

