-- ==== Sys2Proof/Laws/KeepSection.lean ====
section
/-! SUPPORT. What each operation of Machine/Section.lean leaves alone (Laws/Keep.lean). -/

namespace Sys2Proof.Machine

set_option linter.unusedTactic false
set_option linter.unreachableTactic false

theorem State.flushLeft_keep (s : State) (ps : Nat) : Keep 0x3FFFFEFFB s (State.flushLeft s ps) := by
  unfold State.flushLeft
  repeat' first
    | exact rfl
    | with_reducible apply Keep.refl
    | with_reducible assumption
    | with_reducible apply Keep.via (State.satField_keep ..)
    | with_reducible apply Keep.via (State.setSpn_keep ..)
    | extract_lets
    | dsimp -proj only
    | ((with_reducible conv => arg 3; whnf); first | split)
    | dsimp -proj +zetaDelta only
    | dsimp only

theorem State.readCfg_keep (s : State) (img idx : Nat) (f : Flips) : Keep 0x3EFFD90FB s (State.readCfg s img idx f).2.2 := by
  unfold State.readCfg
  repeat' first
    | exact rfl
    | with_reducible apply Keep.refl
    | with_reducible assumption
    | with_reducible apply Keep.via (State.devRead_keep ..)
    | with_reducible apply Keep.ite
    | with_reducible apply Keep.ite_snd2
    | with_reducible apply Keep.ite_snd
    | split
    | extract_lets
    | dsimp -proj only
    | ((with_reducible conv => arg 3; whnf); first | split)
    | dsimp -proj +zetaDelta only
    | dsimp only

theorem State.readFreq_keep (s : State) (ps u : Nat) (f : Flips) : Keep 0x3EDF100BB s (State.readFreq s ps u f) := by
  unfold State.readFreq
  repeat' first
    | exact rfl
    | with_reducible apply Keep.refl
    | with_reducible assumption
    | with_reducible apply Keep.via (State.devRead_keep ..)
    | with_reducible apply Keep.via (State.modSpn_keep ..)
    | with_reducible apply Keep.via (State.spnFault_keep ..)
    | with_reducible apply Keep.foldl
    | with_reducible apply Keep.foldl_snd
    | with_reducible apply Keep.foldl_fst
    | (intro _ _)
    | with_reducible apply Keep.ite
    | split
    | extract_lets
    | dsimp -proj only
    | ((with_reducible conv => arg 3; whnf); first | split)
    | dsimp -proj +zetaDelta only
    | dsimp only

theorem State.readDispatch_keep (s : State) (ps : Nat) (f : Flips) : Keep 0x3EDF100BB s (State.readDispatch s ps f) := by
  unfold State.readDispatch
  repeat' first
    | exact rfl
    | with_reducible apply Keep.refl
    | with_reducible assumption
    | with_reducible apply Keep.via (State.devRead_keep ..)
    | with_reducible apply Keep.via (State.modSpn_keep ..)
    | with_reducible apply Keep.via (State.spnFault_keep ..)
    | with_reducible apply Keep.foldl
    | with_reducible apply Keep.foldl_snd
    | with_reducible apply Keep.foldl_fst
    | (intro _ _)
    | with_reducible apply Keep.ite
    | split
    | extract_lets
    | dsimp -proj only
    | ((with_reducible conv => arg 3; whnf); first | split)
    | dsimp -proj +zetaDelta only
    | dsimp only

theorem State.loadCfg_keep (s : State) (ps idx : Nat) (f : Flips) : Keep 0x3EDF100BB s (State.loadCfg s ps idx f) := by
  unfold State.loadCfg
  repeat' first
    | exact rfl
    | with_reducible apply Keep.refl
    | with_reducible assumption
    | with_reducible apply Keep.via (State.readCfg_keep ..)
    | with_reducible apply Keep.via (State.spnFault_keep ..)
    | with_reducible apply Keep.via (State.modSpn_keep ..)
    | with_reducible apply Keep.via (State.wr_keep ..)
    | with_reducible apply Keep.via (State.wf_keep ..)
    | with_reducible apply Keep.via (State.readFreq_keep ..)
    | with_reducible apply Keep.via (State.readDispatch_keep ..)
    | with_reducible apply Keep.ite
    | split
    | extract_lets
    | dsimp -proj only
    | ((with_reducible conv => arg 3; whnf); first | split)
    | dsimp -proj +zetaDelta only
    | dsimp only

theorem State.staleEvent_keep (s : State) (ps : Nat) : Keep 0x3EFFDECFB s (State.staleEvent s ps) := by
  unfold State.staleEvent
  repeat' first
    | exact rfl
    | with_reducible apply Keep.refl
    | with_reducible assumption
    | with_reducible apply Keep.via (State.event_keep ..)
    | with_reducible apply Keep.via (State.modSpn_keep ..)
    | with_reducible apply Keep.ite
    | split
    | extract_lets
    | dsimp -proj only
    | ((with_reducible conv => arg 3; whnf); first | split)
    | dsimp -proj +zetaDelta only
    | dsimp only

theorem State.loadSection_keep (s : State) (ps idx : Nat) (g : BitVec 2) (f : Flips) : Keep 0x3EDF100BB s (State.loadSection s ps idx g f) := by
  unfold State.loadSection
  repeat' first
    | exact rfl
    | with_reducible apply Keep.refl
    | with_reducible assumption
    | with_reducible apply Keep.via (State.loadCfg_keep ..)
    | with_reducible apply Keep.via (State.wf_keep ..)
    | with_reducible apply Keep.via (State.staleEvent_keep ..)
    | with_reducible apply Keep.via (State.modSpn_keep ..)
    | with_reducible apply Keep.via (State.setSpnState_keep ..)
    | with_reducible apply Keep.ite
    | split
    | extract_lets
    | dsimp -proj only
    | ((with_reducible conv => arg 3; whnf); first | split)
    | dsimp -proj +zetaDelta only
    | dsimp only

theorem State.strandDone_keep (s : State) (ps : Nat) : Keep 0x3FFFFEFFB s (State.strandDone s ps) := by
  unfold State.strandDone
  repeat' first
    | exact rfl
    | with_reducible apply Keep.refl
    | with_reducible assumption
    | with_reducible apply Keep.via (State.modSpn_keep ..)
    | with_reducible apply Keep.via (State.setSpnState_keep ..)
    | with_reducible apply Keep.via (State.wf_keep ..)
    | extract_lets
    | dsimp -proj only
    | ((with_reducible conv => arg 3; whnf); first | split)
    | dsimp -proj +zetaDelta only
    | dsimp only


end Sys2Proof.Machine
end

