-- ==== Sys2Proof/Laws/KeepSave.lean ====
section
/-! SUPPORT. What each operation of Machine/Save.lean leaves alone (Laws/Keep.lean). -/

namespace Sys2Proof.Machine

set_option linter.unusedTactic false
set_option linter.unreachableTactic false

theorem State.writeArea_keep (s : State) (a : Nat) (l : List Byte) (pm : Nat) : Keep 0x3EDF100BB s (State.writeArea s a l pm) := by
  unfold State.writeArea
  repeat' first
    | exact rfl
    | with_reducible apply Keep.refl
    | with_reducible assumption
    | with_reducible apply Keep.via (State.devWrite_keep ..)
    | dsimp -proj only
    | ((with_reducible conv => arg 3; whnf); first | split)
    | dsimp -proj +zetaDelta only
    | dsimp only

theorem State.writeQueueImage_keep (s : State) (base q : Nat) (iq : InQueue) : Keep 0x3EDF100BB s (State.writeQueueImage s base q iq) := by
  unfold State.writeQueueImage
  repeat' first
    | exact rfl
    | with_reducible apply Keep.refl
    | with_reducible assumption
    | with_reducible apply Keep.via (State.writeArea_keep ..)
    | dsimp -proj only
    | ((with_reducible conv => arg 3; whnf); first | split)
    | dsimp -proj +zetaDelta only
    | dsimp only

theorem State.writeOutImage_keep (s : State) (base c : Nat) (oc : OutChan) : Keep 0x3EDF100BB s (State.writeOutImage s base c oc) := by
  unfold State.writeOutImage
  repeat' first
    | exact rfl
    | with_reducible apply Keep.refl
    | with_reducible assumption
    | with_reducible apply Keep.via (State.writeArea_keep ..)
    | dsimp -proj only
    | ((with_reducible conv => arg 3; whnf); first | split)
    | dsimp -proj +zetaDelta only
    | dsimp only

theorem State.writeChannels_keep (s : State) (base : Nat) (x : Spn) : Keep 0x3EDF100BB s (State.writeChannels s base x) := by
  unfold State.writeChannels
  repeat' first
    | exact rfl
    | with_reducible apply Keep.refl
    | with_reducible assumption
    | with_reducible apply Keep.via (State.writeOutImage_keep ..)
    | with_reducible apply Keep.via (State.writeQueueImage_keep ..)
    | with_reducible apply Keep.foldl
    | with_reducible apply Keep.foldl_snd
    | with_reducible apply Keep.foldl_fst
    | (intro _ _)
    | dsimp -proj only
    | ((with_reducible conv => arg 3; whnf); first | split)
    | dsimp -proj +zetaDelta only
    | dsimp only

theorem State.sramOut_keep (s : State) (ps a : Nat) (f : Flips) : Keep 0x3EDF100BB s (State.sramOut s ps a f) := by
  unfold State.sramOut
  repeat' first
    | exact rfl
    | with_reducible apply Keep.refl
    | with_reducible assumption
    | with_reducible apply Keep.via (State.readWords_keep ..)
    | with_reducible apply Keep.via (State.writeArea_keep ..)
    | with_reducible apply Keep.foldl
    | with_reducible apply Keep.foldl_snd
    | with_reducible apply Keep.foldl_fst
    | (intro _ _)
    | extract_lets
    | dsimp -proj only
    | ((with_reducible conv => arg 3; whnf); first | split)
    | dsimp -proj +zetaDelta only
    | dsimp only

theorem State.accOut_keep (s : State) (x : Spn) (a : Nat) : Keep 0x3EDF100BB s (State.accOut s x a) := by
  unfold State.accOut
  repeat' first
    | exact rfl
    | with_reducible apply Keep.refl
    | with_reducible assumption
    | with_reducible apply Keep.via (State.writeArea_keep ..)
    | with_reducible apply Keep.foldl
    | with_reducible apply Keep.foldl_snd
    | with_reducible apply Keep.foldl_fst
    | (intro _ _)
    | dsimp -proj only
    | ((with_reducible conv => arg 3; whnf); first | split)
    | dsimp -proj +zetaDelta only
    | dsimp only

theorem State.saveSpindle_keep (s : State) (ps : Nat) (scan : Bool) (f : Flips) : Keep 0x3EDF100BB s (State.saveSpindle s ps scan f) := by
  unfold State.saveSpindle
  repeat' first
    | exact rfl
    | with_reducible apply Keep.refl
    | with_reducible assumption
    | with_reducible apply Keep.via (State.writeArea_keep ..)
    | with_reducible apply Keep.via (State.accOut_keep ..)
    | with_reducible apply Keep.via (State.writeChannels_keep ..)
    | with_reducible apply Keep.via (State.sramOut_keep ..)
    | with_reducible apply Keep.via (State.setSlot_keep ..)
    | split
    | extract_lets
    | dsimp -proj only
    | ((with_reducible conv => arg 3; whnf); first | split)
    | dsimp -proj +zetaDelta only
    | dsimp only

theorem State.putSavedRegs_keep (s : State) (ps : Nat) (v : Saved) : Keep 0x3FFFFFFFB s (State.putSavedRegs s ps v) := by
  unfold State.putSavedRegs
  repeat' first
    | exact rfl
    | with_reducible apply Keep.refl
    | with_reducible assumption
    | with_reducible apply Keep.via (State.wr_keep ..)
    | with_reducible apply Keep.via (State.wr64_keep ..)
    | extract_lets
    | dsimp -proj only
    | ((with_reducible conv => arg 3; whnf); first | split)
    | dsimp -proj +zetaDelta only
    | dsimp only

theorem State.closeParked_keep (s : State) (n l q : Nat) : Keep 0x3EDF100BB s (State.closeParked s n l q) := by
  unfold State.closeParked
  repeat' first
    | exact rfl
    | with_reducible apply Keep.refl
    | with_reducible assumption
    | with_reducible apply Keep.via (State.setSlot_keep ..)
    | with_reducible apply Keep.via (State.writeQueueImage_keep ..)
    | with_reducible apply Keep.via (State.sat_keep ..)
    | with_reducible apply Keep.via (State.eventCtx_keep ..)
    | with_reducible apply Keep.via (State.sendChan_keep ..)
    | with_reducible apply Keep.ite
    | split
    | extract_lets
    | dsimp -proj only
    | ((with_reducible conv => arg 3; whnf); first | split)
    | dsimp -proj +zetaDelta only
    | dsimp only

theorem State.faultCtx_keep (s : State) (ctx code : Nat) : Keep 0x3EDF100BB s (State.faultCtx s ctx code) := by
  unfold State.faultCtx
  repeat' first
    | exact rfl
    | with_reducible apply Keep.refl
    | with_reducible assumption
    | with_reducible apply Keep.via (State.faultRunning_keep ..)
    | with_reducible apply Keep.via (State.closeParked_keep ..)
    | with_reducible apply Keep.via (State.contextLost_keep ..)
    | with_reducible apply Keep.via (State.modSlot_keep ..)
    | with_reducible apply Keep.foldl
    | with_reducible apply Keep.foldl_snd
    | with_reducible apply Keep.foldl_fst
    | (intro _ _)
    | with_reducible apply Keep.ite
    | split
    | extract_lets
    | dsimp -proj only
    | ((with_reducible conv => arg 3; whnf); first | split)
    | dsimp -proj +zetaDelta only
    | dsimp only


end Sys2Proof.Machine
end

