-- ==== Sys2Proof/Laws/KeepStrand.lean ====
section
/-! SUPPORT. What each operation of Machine/Strand.lean leaves alone (Laws/Keep.lean). -/

namespace Sys2Proof.Machine

set_option linter.unusedTactic false
set_option linter.unreachableTactic false

theorem State.badStrand_keep (s : State) (ps : Nat) : Keep 0x3EDF14CBB s (State.badStrand s ps) := by
  unfold State.badStrand
  repeat' first
    | exact rfl
    | with_reducible apply Keep.refl
    | with_reducible assumption
    | with_reducible apply Keep.via (State.spnFault_keep ..)
    | dsimp -proj only
    | ((with_reducible conv => arg 3; whnf); first | split)
    | dsimp -proj +zetaDelta only
    | dsimp only

theorem execExec_keep (ps : Fin 18) (bad : Bool) (f : Flips) (s : State) : KeepR 0x3EDF100AB s (execExec ps bad f s) := by
  unfold execExec
  repeat' first
    | exact rfl
    | with_reducible apply Keep.refl
    | with_reducible assumption
    | with_reducible apply KeepR.refused
    | with_reducible apply KeepR.next
    | with_reducible apply Keep.via (State.badStrand_keep ..)
    | with_reducible apply Keep.via (State.strandTick_keep ..)
    | with_reducible apply Keep.ite
    | with_reducible apply KeepR.ite
    | split
    | extract_lets
    | dsimp -proj only
    | ((with_reducible conv => arg 3; whnf); first | split)
    | dsimp -proj +zetaDelta only
    | dsimp only

theorem execIdle_keep (ps : Fin 18) (bad : Bool) (s : State) : KeepR 0x3EDF100AB s (execIdle ps bad s) := by
  unfold execIdle
  repeat' first
    | exact rfl
    | with_reducible apply Keep.refl
    | with_reducible assumption
    | with_reducible apply KeepR.refused
    | with_reducible apply KeepR.next
    | with_reducible apply Keep.via (State.badStrand_keep ..)
    | with_reducible apply Keep.via (State.strandTick_keep ..)
    | with_reducible apply Keep.ite
    | with_reducible apply KeepR.ite
    | split
    | dsimp -proj only
    | ((with_reducible conv => arg 3; whnf); first | split)
    | dsimp -proj +zetaDelta only
    | dsimp only

theorem execLoop_keep (ps : Fin 18) (bad : Bool) (s : State) : KeepR 0x3EDF100AB s (execLoop ps s bad) := by
  unfold execLoop
  repeat' first
    | exact rfl
    | with_reducible apply Keep.refl
    | with_reducible assumption
    | with_reducible apply KeepR.refused
    | with_reducible apply KeepR.next
    | with_reducible apply Keep.via (State.badStrand_keep ..)
    | with_reducible apply Keep.via (State.reachPoint_keep ..)
    | with_reducible apply Keep.via (State.setSpn_keep ..)
    | with_reducible apply Keep.via (State.holdTick_keep ..)
    | with_reducible apply Keep.ite
    | with_reducible apply KeepR.ite
    | split
    | extract_lets
    | dsimp -proj only
    | ((with_reducible conv => arg 3; whnf); first | split)
    | dsimp -proj +zetaDelta only
    | dsimp only

theorem State.endSegment_keep (s : State) (ps : Nat) : Keep 0x3FFFFEFFB s (State.endSegment s ps) := by
  unfold State.endSegment
  repeat' first
    | exact rfl
    | with_reducible apply Keep.refl
    | with_reducible assumption
    | with_reducible apply Keep.via (State.setSpn_keep ..)
    | with_reducible apply Keep.via (State.setSpnState_keep ..)
    | with_reducible apply Keep.ite
    | split
    | extract_lets
    | dsimp -proj only
    | ((with_reducible conv => arg 3; whnf); first | split)
    | dsimp -proj +zetaDelta only
    | dsimp only

theorem execSectionEnd_keep (ps : Fin 18) (bad : Bool) (s : State) : KeepR 0x3EDF100AB s (execSectionEnd ps s bad) := by
  unfold execSectionEnd
  repeat' first
    | exact rfl
    | with_reducible apply Keep.refl
    | with_reducible assumption
    | with_reducible apply KeepR.refused
    | with_reducible apply KeepR.next
    | with_reducible apply Keep.via (State.badStrand_keep ..)
    | with_reducible apply Keep.via (State.endSegment_keep ..)
    | with_reducible apply Keep.via (State.drainTick_keep ..)
    | with_reducible apply Keep.ite
    | with_reducible apply KeepR.ite
    | split
    | dsimp -proj only
    | ((with_reducible conv => arg 3; whnf); first | split)
    | dsimp -proj +zetaDelta only
    | dsimp only

theorem State.atBoundary_keep (s : State) (ps : Nat) : Keep 0x3FFFFEFFB s (State.atBoundary s ps) := by
  unfold State.atBoundary
  repeat' first
    | exact rfl
    | with_reducible apply Keep.refl
    | with_reducible assumption
    | with_reducible apply Keep.via (State.modSpn_keep ..)
    | with_reducible apply Keep.via (State.wf_keep ..)
    | with_reducible apply Keep.via (State.wr_keep ..)
    | extract_lets
    | dsimp -proj only
    | ((with_reducible conv => arg 3; whnf); first | split)
    | dsimp -proj +zetaDelta only
    | dsimp only

theorem execSectionDrained_keep (ps : Fin 18) (s : State) : KeepR 0x3FFFFEFFB s (execSectionDrained ps s) := by
  unfold execSectionDrained
  repeat' first
    | exact rfl
    | with_reducible apply Keep.refl
    | with_reducible assumption
    | with_reducible apply KeepR.refused
    | with_reducible apply KeepR.next
    | with_reducible apply Keep.via (State.strandDone_keep ..)
    | with_reducible apply Keep.via (State.flushLeft_keep ..)
    | with_reducible apply Keep.via (State.atBoundary_keep ..)
    | with_reducible apply Keep.via (State.modSpn_keep ..)
    | with_reducible apply Keep.ite
    | with_reducible apply KeepR.ite
    | split
    | extract_lets
    | dsimp -proj only
    | ((with_reducible conv => arg 3; whnf); first | split)
    | dsimp -proj +zetaDelta only
    | dsimp only

theorem State.badBuffer_keep (s : State) (ps : Nat) (b : Fin 3) (off : Nat) : Keep 0x3EDF14CBB s (State.badBuffer s ps b off) := by
  unfold State.badBuffer
  repeat' first
    | exact rfl
    | with_reducible apply Keep.refl
    | with_reducible assumption
    | with_reducible apply Keep.via (State.faultRunning_keep ..)
    | with_reducible apply Keep.via (State.event_keep ..)
    | with_reducible apply Keep.via (State.spnFault_keep ..)
    | with_reducible apply Keep.ite
    | split
    | dsimp -proj only
    | ((with_reducible conv => arg 3; whnf); first | split)
    | dsimp -proj +zetaDelta only
    | dsimp only

theorem State.whenPresent_keep {m : Nat} {s t : State} (ps : Nat) (bad : Option (Fin 3 × Nat)) (go : State)
    (hm : sub m 0x3EDF14CBB = true) (h : Keep m t go) (g : Keep m t s) : Keep m t (s.whenPresent ps bad go) := by
  unfold State.whenPresent
  split
  · exact Keep.via (State.badBuffer_keep ..) (sub_trans hm rfl) g
  · exact Keep.ite h (Keep.via (State.waitTick_keep ..) (sub_trans hm rfl) g)

theorem execSectionLoadProceed_keep (ps : Fin 18) (ready : Bool) (bad : Option (Fin 3 × Nat)) (f : Flips) (s : State) : KeepR 0x3EDF100BB s (execSectionLoadProceed ps f s ready bad) := by
  unfold execSectionLoadProceed
  repeat' first
    | exact rfl
    | with_reducible apply Keep.refl
    | with_reducible assumption
    | with_reducible apply KeepR.refused
    | with_reducible apply KeepR.next
    | with_reducible apply Keep.via (State.modSpn_keep ..)
    | with_reducible apply Keep.via (State.waitTick_keep ..)
    | with_reducible refine State.whenPresent_keep _ _ _ rfl ?_ ?_
    | (intro _ _ _)
    | with_reducible apply Keep.via (State.loadSection_keep ..)
    | with_reducible apply Keep.ite
    | with_reducible apply KeepR.ite
    | split
    | extract_lets
    | dsimp -proj only
    | ((with_reducible conv => arg 3; whnf); first | split)
    | dsimp -proj +zetaDelta only
    | dsimp only

theorem execStopAtEnd_keep (ps : Fin 18) (v : Bool) (s : State) : KeepR 0x3EFFDFCFB s (execStopAtEnd ps v s) := by
  unfold execStopAtEnd
  repeat' first
    | exact rfl
    | with_reducible apply Keep.refl
    | with_reducible assumption
    | with_reducible apply KeepR.refused
    | with_reducible apply KeepR.next
    | with_reducible refine State.rowWrite_keep _ _ rfl ?_ ?_
    | (intro _ _ _)
    | with_reducible apply Keep.via (State.wf_keep ..)
    | with_reducible apply Keep.ite
    | with_reducible apply KeepR.ite
    | split
    | dsimp -proj only
    | ((with_reducible conv => arg 3; whnf); first | split)
    | dsimp -proj +zetaDelta only
    | dsimp only

theorem State.forceLoad_keep (s : State) (ps sect pos : Nat) : Keep 0x3FFFFEFFB s (State.forceLoad s ps sect pos) := by
  unfold State.forceLoad
  repeat' first
    | exact rfl
    | with_reducible apply Keep.refl
    | with_reducible assumption
    | with_reducible apply Keep.via (State.setSpn_keep ..)
    | with_reducible apply Keep.via (State.satField_keep ..)
    | with_reducible apply Keep.via (State.setSpnState_keep ..)
    | extract_lets
    | dsimp -proj only
    | ((with_reducible conv => arg 3; whnf); first | split)
    | dsimp -proj +zetaDelta only
    | dsimp only

theorem State.forceSect_keep (s : State) (ps : Nat) : Keep 0x3FFFFEFFB s (State.forceSect s ps) := by
  unfold State.forceSect
  repeat' first
    | exact rfl
    | with_reducible apply Keep.refl
    | with_reducible assumption
    | with_reducible apply Keep.via (State.forceLoad_keep ..)
    | with_reducible apply Keep.ite
    | split
    | extract_lets
    | dsimp -proj only
    | ((with_reducible conv => arg 3; whnf); first | split)
    | dsimp -proj +zetaDelta only
    | dsimp only

theorem execSpnSectCtlForce_keep (ps : Fin 18) (s : State) : KeepR 0x3EFFDECFB s (execSpnSectCtlForce ps s) := by
  unfold execSpnSectCtlForce
  repeat' first
    | exact rfl
    | with_reducible apply Keep.refl
    | with_reducible assumption
    | with_reducible apply KeepR.refused
    | with_reducible apply KeepR.next
    | with_reducible refine State.rowWrite_keep _ _ rfl ?_ ?_
    | (intro _ _ _)
    | with_reducible apply Keep.via (State.forceSect_keep ..)
    | dsimp -proj only
    | ((with_reducible conv => arg 3; whnf); first | split)
    | dsimp -proj +zetaDelta only
    | dsimp only

theorem execForcedLoadResume_keep (ps : Fin 18) (f : Flips) (s : State) : KeepR 0x3EDF100BB s (execForcedLoadResume ps f s) := by
  unfold execForcedLoadResume
  repeat' first
    | exact rfl
    | with_reducible apply Keep.refl
    | with_reducible assumption
    | with_reducible apply KeepR.refused
    | with_reducible apply KeepR.next
    | with_reducible apply Keep.via (State.waitTick_keep ..)
    | with_reducible apply Keep.via (State.event_keep ..)
    | with_reducible apply Keep.via (State.wf_keep ..)
    | with_reducible apply Keep.via (State.modSpn_keep ..)
    | with_reducible apply Keep.via (State.setSpnState_keep ..)
    | with_reducible apply Keep.via (State.loadSection_keep ..)
    | with_reducible apply Keep.ite
    | with_reducible apply KeepR.ite
    | split
    | extract_lets
    | dsimp -proj only
    | ((with_reducible conv => arg 3; whnf); first | split)
    | dsimp -proj +zetaDelta only
    | dsimp only

theorem State.endMarks_keep (s : State) (ps : Nat) : Keep 0x3EFF9FCBB s (State.endMarks s ps) := by
  unfold State.endMarks
  repeat' first
    | exact rfl
    | with_reducible apply Keep.refl
    | with_reducible assumption
    | with_reducible apply Keep.via (State.sendChan_keep ..)
    | with_reducible apply Keep.foldl
    | with_reducible apply Keep.foldl_snd
    | with_reducible apply Keep.foldl_fst
    | (intro _ _)
    | split
    | extract_lets
    | dsimp -proj only
    | ((with_reducible conv => arg 3; whnf); first | split)
    | dsimp -proj +zetaDelta only
    | dsimp only

theorem execContextEnd_keep (ps : Fin 18) (bad : Bool) (s : State) : KeepR 0x3EDF100AB s (execContextEnd ps s bad) := by
  unfold execContextEnd
  repeat' first
    | exact rfl
    | with_reducible apply Keep.refl
    | with_reducible assumption
    | with_reducible apply KeepR.refused
    | with_reducible apply KeepR.next
    | with_reducible apply Keep.via (State.badStrand_keep ..)
    | with_reducible apply Keep.via (State.closeQueues_keep ..)
    | with_reducible apply Keep.via (State.endMarks_keep ..)
    | with_reducible apply Keep.via (State.modSpn_keep ..)
    | with_reducible apply Keep.via (State.drainTick_keep ..)
    | with_reducible apply Keep.ite
    | with_reducible apply KeepR.ite
    | split
    | extract_lets
    | dsimp -proj only
    | ((with_reducible conv => arg 3; whnf); first | split)
    | dsimp -proj +zetaDelta only
    | dsimp only

theorem execPositionReport_keep (ps : Fin 18) (w : CtlWay) (s : State) : KeepR 0x3E9214CBB s (execPositionReport ps w s) := by
  unfold execPositionReport
  repeat' first
    | exact rfl
    | with_reducible apply Keep.refl
    | with_reducible assumption
    | with_reducible apply KeepR.refused
    | with_reducible apply KeepR.next
    | with_reducible apply Keep.via (State.ctlWay_keep ..)
    | with_reducible apply Keep.ite
    | with_reducible apply KeepR.ite
    | split
    | extract_lets
    | dsimp -proj only
    | ((with_reducible conv => arg 3; whnf); first | split | with_reducible apply Keep.setSeqr)
    | dsimp -proj +zetaDelta only
    | dsimp only

theorem execMinposBroadcast_keep (ps : Fin 18) (w : CtlWay) (s : State) : KeepR 0x3E9214CBB s (execMinposBroadcast ps w s) := by
  unfold execMinposBroadcast
  repeat' first
    | exact rfl
    | with_reducible apply Keep.refl
    | with_reducible assumption
    | with_reducible apply KeepR.refused
    | with_reducible apply KeepR.next
    | with_reducible apply Keep.via (State.ctlWay_keep ..)
    | with_reducible apply Keep.via (State.modSpn_keep ..)
    | with_reducible apply Keep.via (State.wr64_keep ..)
    | with_reducible apply Keep.ite
    | with_reducible apply KeepR.ite
    | split
    | extract_lets
    | dsimp -proj only
    | ((with_reducible conv => arg 3; whnf); first | split)
    | dsimp -proj +zetaDelta only
    | dsimp only

theorem State.askDrain_keep (s : State) (ps : Nat) (why : DrainFor) : Keep 0x3FFFFEFFB s (State.askDrain s ps why) := by
  unfold State.askDrain
  repeat' first
    | exact rfl
    | with_reducible apply Keep.refl
    | with_reducible assumption
    | with_reducible apply Keep.via (State.modSpn_keep ..)
    | with_reducible apply Keep.via (State.setSpnState_keep ..)
    | with_reducible apply Keep.ite
    | split
    | extract_lets
    | dsimp -proj only
    | ((with_reducible conv => arg 3; whnf); first | split)
    | dsimp -proj +zetaDelta only
    | dsimp only

theorem execDrainRequest_keep (ps : Fin 18) (why : DrainFor) (s : State) : KeepR 0x3FFFFEFFB s (execDrainRequest ps why s) := by
  unfold execDrainRequest
  repeat' first
    | exact rfl
    | with_reducible apply Keep.refl
    | with_reducible assumption
    | with_reducible apply KeepR.refused
    | with_reducible apply KeepR.next
    | with_reducible apply Keep.via (State.askDrain_keep ..)
    | dsimp -proj only
    | ((with_reducible conv => arg 3; whnf); first | split)
    | dsimp -proj +zetaDelta only
    | dsimp only

theorem execDrainPointReached_keep (ps : Fin 18) (s : State) : KeepR 0x3EDF100AB s (execDrainPointReached ps s) := by
  unfold execDrainPointReached
  repeat' first
    | exact rfl
    | with_reducible apply Keep.refl
    | with_reducible assumption
    | with_reducible apply KeepR.refused
    | with_reducible apply KeepR.next
    | with_reducible apply Keep.via (State.reachPoint_keep ..)
    | with_reducible apply Keep.ite
    | with_reducible apply KeepR.ite
    | split
    | dsimp -proj only
    | ((with_reducible conv => arg 3; whnf); first | split)
    | dsimp -proj +zetaDelta only
    | dsimp only

theorem execRunEmptyDrainDone_keep (ps : Fin 18) (f : Flips) (s : State) : KeepR 0x3EDF100AB s (execRunEmptyDrainDone ps s f) := by
  unfold execRunEmptyDrainDone
  repeat' first
    | exact rfl
    | with_reducible apply Keep.refl
    | with_reducible assumption
    | with_reducible apply KeepR.refused
    | with_reducible apply KeepR.next
    | with_reducible apply Keep.via (State.saveSpindle_keep ..)
    | with_reducible apply Keep.via (State.flushLeft_keep ..)
    | with_reducible apply Keep.via (State.modSpn_keep ..)
    | with_reducible apply Keep.via (State.drainTick_keep ..)
    | with_reducible apply Keep.ite
    | with_reducible apply KeepR.ite
    | split
    | extract_lets
    | dsimp -proj only
    | ((with_reducible conv => arg 3; whnf); first | split)
    | dsimp -proj +zetaDelta only
    | dsimp only

theorem execDrainLimitExpiry_keep (ps : Fin 18) (s : State) : KeepR 0x3EFFDECFB s (execDrainLimitExpiry ps s) := by
  unfold execDrainLimitExpiry
  repeat' first
    | exact rfl
    | with_reducible apply Keep.refl
    | with_reducible assumption
    | with_reducible apply KeepR.refused
    | with_reducible apply KeepR.next
    | with_reducible apply Keep.via (State.event_keep ..)
    | with_reducible apply Keep.via (State.modSpn_keep ..)
    | with_reducible apply Keep.ite
    | with_reducible apply KeepR.ite
    | split
    | dsimp -proj only
    | ((with_reducible conv => arg 3; whnf); first | split)
    | dsimp -proj +zetaDelta only
    | dsimp only

theorem execScanDrainOpsDone_keep (ps : Fin 18) (f : Flips) (s : State) : KeepR 0x3EDF100BB s (execScanDrainOpsDone ps s f) := by
  unfold execScanDrainOpsDone
  repeat' first
    | exact rfl
    | with_reducible apply Keep.refl
    | with_reducible assumption
    | with_reducible apply KeepR.refused
    | with_reducible apply KeepR.next
    | with_reducible apply Keep.via (State.modSpn_keep ..)
    | with_reducible apply Keep.via (State.saveSpindle_keep ..)
    | with_reducible apply Keep.via (State.waitTick_keep ..)
    | with_reducible apply Keep.ite
    | with_reducible apply KeepR.ite
    | split
    | dsimp -proj only
    | ((with_reducible conv => arg 3; whnf); first | split)
    | dsimp -proj +zetaDelta only
    | dsimp only

theorem execDrainSaveWritten_keep (ps : Fin 18) (s : State) : KeepR 0x3FFFFEFFB s (execDrainSaveWritten ps s) := by
  unfold execDrainSaveWritten
  repeat' first
    | exact rfl
    | with_reducible apply Keep.refl
    | with_reducible assumption
    | with_reducible apply KeepR.refused
    | with_reducible apply KeepR.next
    | with_reducible apply Keep.via (State.modSpn_keep ..)
    | with_reducible apply Keep.via (State.setSpnState_keep ..)
    | with_reducible apply Keep.ite
    | with_reducible apply KeepR.ite
    | split
    | extract_lets
    | dsimp -proj only
    | ((with_reducible conv => arg 3; whnf); first | split)
    | dsimp -proj +zetaDelta only
    | dsimp only

theorem execSpindleRestore_keep (ps : Fin 18) (f : Flips) (s : State) : KeepR 0x3EDF100BB s (execSpindleRestore ps f s) := by
  unfold execSpindleRestore
  repeat' first
    | exact rfl
    | with_reducible apply Keep.refl
    | with_reducible assumption
    | with_reducible apply KeepR.refused
    | with_reducible apply KeepR.next
    | with_reducible apply Keep.via (State.devRead_keep ..)
    | with_reducible apply Keep.via (State.spnFault_keep ..)
    | with_reducible apply Keep.via (State.setSpnState_keep ..)
    | with_reducible apply Keep.via (State.modSpn_keep ..)
    | with_reducible apply Keep.ite
    | with_reducible apply KeepR.ite
    | split
    | extract_lets
    | dsimp -proj only
    | ((with_reducible conv => arg 3; whnf); first | split)
    | dsimp -proj +zetaDelta only
    | dsimp only

theorem State.areaPart_keep {m : Nat} {s t : State} (ps base off n : Nat) (f : Flips) (k : List Byte → State → State)
    (hm : sub m 0x3EDF100BB = true) (hk : ∀ l u, Keep m t u → Keep m t (k l u)) (g : Keep m t s) :
    Keep m t (s.areaPart ps base off n f k) := by
  have g1 : Keep m t (s.devRead .sequencer (base + off) n f).2.2.2 := Keep.via (State.devRead_keep ..) (sub_trans hm rfl) g
  unfold State.areaPart
  dsimp only
  split
  · exact Keep.via (State.spnFault_keep ..) (sub_trans hm rfl) g1
  · exact hk _ _ g1

theorem State.resumeAt_keep (s : State) (ps : Nat) (v : Saved) : Keep 0x3FFFFEFFB s (State.resumeAt s ps v) := by
  unfold State.resumeAt
  repeat' first
    | exact rfl
    | with_reducible apply Keep.refl
    | with_reducible assumption
    | with_reducible apply Keep.via (State.setSpnState_keep ..)
    | with_reducible apply Keep.via (State.modSpn_keep ..)
    | with_reducible apply Keep.ite
    | split
    | extract_lets
    | dsimp -proj only
    | ((with_reducible conv => arg 3; whnf); first | split)
    | dsimp -proj +zetaDelta only
    | dsimp only

theorem State.restoreFrom_keep (s : State) (ps l : Nat) (j : Slot) (f : Flips) : Keep 0x3EDF100BB s (State.restoreFrom s ps l j f) := by
  unfold State.restoreFrom
  repeat' first
    | exact rfl
    | with_reducible apply Keep.refl
    | with_reducible assumption
    | with_reducible apply Keep.via (State.devRead_keep ..)
    | with_reducible apply Keep.via (State.loadCfg_keep ..)
    | with_reducible apply Keep.via (State.wf_keep ..)
    | with_reducible refine State.areaPart_keep _ _ _ _ _ _ rfl ?_ ?_
    | (intro _ _ _)
    | with_reducible apply Keep.via (State.modSpn_keep ..)
    | with_reducible apply Keep.via (State.putSavedRegs_keep ..)
    | with_reducible apply Keep.via (State.resumeAt_keep ..)
    | with_reducible apply Keep.via (State.putBytes_keep ..)
    | with_reducible apply Keep.via (State.clearKeys_keep ..)
    | with_reducible apply Keep.ite
    | split
    | extract_lets
    | dsimp -proj only
    | ((with_reducible conv => arg 3; whnf); first | split)
    | dsimp -proj +zetaDelta only
    | dsimp only

theorem execSpindleRestoreProceed_keep (ps : Fin 18) (f : Flips) (s : State) : KeepR 0x3EDF100BB s (execSpindleRestoreProceed ps f s) := by
  unfold execSpindleRestoreProceed
  repeat' first
    | exact rfl
    | with_reducible apply Keep.refl
    | with_reducible assumption
    | with_reducible apply KeepR.refused
    | with_reducible apply KeepR.next
    | with_reducible apply Keep.via (State.restoreFrom_keep ..)
    | with_reducible apply Keep.via (State.waitTick_keep ..)
    | with_reducible apply Keep.ite
    | with_reducible apply KeepR.ite
    | split
    | dsimp -proj only
    | ((with_reducible conv => arg 3; whnf); first | split)
    | dsimp -proj +zetaDelta only
    | dsimp only

theorem execTokenArrival_keep (ps : Fin 18) (u : Fin 51) (port : Fin 4) (fl : Flit) (fire : Option DWord) (s : State) : KeepR 0x3EDF100AB s (execTokenArrival ps u port fl fire s) := by
  unfold execTokenArrival
  repeat' first
    | exact rfl
    | with_reducible apply Keep.refl
    | with_reducible assumption
    | with_reducible apply KeepR.refused
    | with_reducible apply KeepR.next
    | with_reducible apply Keep.via (State.staleCount_keep ..)
    | with_reducible apply Keep.via (State.spnFault_keep ..)
    | with_reducible apply Keep.via (State.fireUnit_keep ..)
    | with_reducible apply Keep.via (State.setSpn_keep ..)
    | with_reducible apply Keep.via (State.storeMarks_keep ..)
    | with_reducible apply Keep.ite
    | with_reducible apply KeepR.ite
    | split
    | extract_lets
    | dsimp -proj only
    | ((with_reducible conv => arg 3; whnf); first | split)
    | dsimp -proj +zetaDelta only
    | dsimp only

theorem execSluiceFill_keep (ps : Fin 18) (op idx : Nat) (ctl : Bool) (data : List Byte) (poison : Nat) (s : State) : KeepR 0x2FFFFEFBB s (execSluiceFill ps op idx ctl data poison s) := by
  unfold execSluiceFill
  repeat' first
    | exact rfl
    | with_reducible apply Keep.refl
    | with_reducible assumption
    | with_reducible apply KeepR.refused
    | with_reducible apply KeepR.next
    | with_reducible apply Keep.via (State.takeLoad_keep ..)
    | with_reducible apply Keep.via (State.sat_keep ..)
    | with_reducible apply Keep.via (State.setSpn_keep ..)
    | with_reducible apply Keep.via (State.staleCount_keep ..)
    | with_reducible apply Keep.ite
    | with_reducible apply KeepR.ite
    | split
    | extract_lets
    | dsimp -proj only
    | ((with_reducible conv => arg 3; whnf); first | split)
    | dsimp -proj +zetaDelta only
    | dsimp only

theorem execCompletionAck_keep (ps : Fin 18) (op : Nat) (poison : Bool) (old : DWord) (s : State) : KeepR 0x3FFFFEFEB s (execCompletionAck ps op poison old s) := by
  unfold execCompletionAck
  repeat' first
    | exact rfl
    | with_reducible apply Keep.refl
    | with_reducible assumption
    | with_reducible apply KeepR.refused
    | with_reducible apply KeepR.next
    | with_reducible apply Keep.via (State.sat_keep ..)
    | with_reducible apply Keep.via (State.setSpn_keep ..)
    | with_reducible apply Keep.via (State.staleCount_keep ..)
    | with_reducible apply Keep.via (State.modSpn_keep ..)
    | with_reducible apply Keep.via (State.raiseCounter_keep ..)
    | with_reducible apply Keep.ite
    | with_reducible apply KeepR.ite
    | split
    | extract_lets
    | dsimp -proj only
    | ((with_reducible conv => arg 3; whnf); first | split)
    | dsimp -proj +zetaDelta only
    | dsimp only

theorem execMergeEngineComplete_keep (ps : Fin 18) (k : Fin 2) (s : State) : KeepR 0x3FFFFEFFB s (execMergeEngineComplete ps k s) := by
  unfold execMergeEngineComplete
  repeat' first
    | exact rfl
    | with_reducible apply Keep.refl
    | with_reducible assumption
    | with_reducible apply KeepR.refused
    | with_reducible apply KeepR.next
    | with_reducible apply Keep.via (State.numFlags_keep ..)
    | with_reducible apply Keep.via (State.setSpn_keep ..)
    | extract_lets
    | dsimp -proj only
    | ((with_reducible conv => arg 3; whnf); first | split)
    | dsimp -proj +zetaDelta only
    | dsimp only

theorem State.sendPieces_keep (n : Nat) (s : State) (r : MemResp) : Keep 0x3FFFFFFBF s (State.sendPieces n s r) := by
  induction n generalizing s r with
  | zero => exact Keep.refl _ _
  | succ n ih =>
    unfold State.sendPieces
    split
    · exact Keep.via (State.send_keep ..) rfl (Keep.refl _ _)
    · exact (Keep.via (State.send_keep ..) rfl (Keep.refl _ _)).trans (ih ..)

theorem State.serveExternal_keep (s : State) (r : MemReq) (f : Flips) : Keep 0x2EDF100BB s (State.serveExternal s r f) := by
  unfold State.serveExternal
  repeat' first
    | exact rfl
    | with_reducible apply Keep.refl
    | with_reducible assumption
    | with_reducible apply Keep.via (State.serve_keep ..)
    | with_reducible apply Keep.via (State.takeLoad_keep ..)
    | with_reducible apply Keep.via (State.sendPieces_keep ..)
    | with_reducible apply Keep.via (State.send_keep ..)
    | split
    | extract_lets
    | dsimp -proj only
    | ((with_reducible conv => arg 3; whnf); first | split)
    | dsimp -proj +zetaDelta only
    | dsimp only

theorem State.serveStray_keep (s : State) (ps : Nat) (r : MemReq) : Keep 0x2FFFFFFBB s (State.serveStray s ps r) := by
  unfold State.serveStray
  repeat' first
    | exact rfl
    | with_reducible apply Keep.refl
    | with_reducible assumption
    | with_reducible apply Keep.via (State.sat_keep ..)
    | with_reducible apply Keep.via (State.takeLoad_keep ..)
    | with_reducible apply Keep.via (State.sendPieces_keep ..)
    | with_reducible apply Keep.ite
    | split
    | extract_lets
    | dsimp -proj only
    | ((with_reducible conv => arg 3; whnf); first | split)
    | dsimp -proj +zetaDelta only
    | dsimp only

theorem execBankExternalAccess_keep (ps : Fin 18) (r : MemReq) (f : Flips) (s : State) : KeepR 0x2EDF100BB s (execBankExternalAccess ps r f s) := by
  unfold execBankExternalAccess
  repeat' first
    | exact rfl
    | with_reducible apply Keep.refl
    | with_reducible assumption
    | with_reducible apply KeepR.refused
    | with_reducible apply KeepR.next
    | with_reducible apply Keep.via (State.serveStray_keep ..)
    | with_reducible apply Keep.via (State.serveExternal_keep ..)
    | with_reducible apply Keep.ite
    | with_reducible apply KeepR.ite
    | split
    | dsimp -proj only
    | ((with_reducible conv => arg 3; whnf); first | split)
    | dsimp -proj +zetaDelta only
    | dsimp only

theorem execBankSteal_keep (ps : Fin 18) (r : MemReq) (waited : Nat) (f : Flips) (s : State) : KeepR 0x2EDF100BB s (execBankSteal ps r waited f s) := by
  unfold execBankSteal
  repeat' first
    | exact rfl
    | with_reducible apply Keep.refl
    | with_reducible assumption
    | with_reducible apply KeepR.refused
    | with_reducible apply KeepR.next
    | with_reducible apply Keep.via (State.holdTick_keep ..)
    | with_reducible apply Keep.via (State.serveStray_keep ..)
    | with_reducible apply Keep.via (State.serveExternal_keep ..)
    | with_reducible apply Keep.ite
    | with_reducible apply KeepR.ite
    | split
    | extract_lets
    | dsimp -proj only
    | ((with_reducible conv => arg 3; whnf); first | split)
    | dsimp -proj +zetaDelta only
    | dsimp only

theorem execSramScrub_keep (ps : Fin 18) (bank : Fin 16) (line : Fin 12288) (f : Flips) (s : State) : KeepR 0x3EFFDB0FB s (execSramScrub ps bank line f s) := by
  unfold execSramScrub
  repeat' first
    | exact rfl
    | with_reducible apply Keep.refl
    | with_reducible assumption
    | with_reducible apply KeepR.refused
    | with_reducible apply KeepR.next
    | with_reducible apply Keep.via (State.readWords_keep ..)
    | with_reducible apply Keep.ite
    | with_reducible apply KeepR.ite
    | split
    | dsimp -proj only
    | ((with_reducible conv => arg 3; whnf); first | split)
    | dsimp -proj +zetaDelta only
    | dsimp only


end Sys2Proof.Machine
end

