-- ==== Sys2Proof/Laws/KeepDram.lean ====
section
/-! SUPPORT. What each operation of Machine/Dram.lean leaves alone (Laws/Keep.lean). -/

namespace Sys2Proof.Machine

set_option linter.unusedTactic false
set_option linter.unreachableTactic false

theorem State.serveMarked_keep (s : State) (r : MemReq) (f : Flips) (e : LinkErrs) : Keep 0x2E92100BB s (State.serveMarked s r f e) := by
  unfold State.serveMarked
  repeat' first
    | exact rfl
    | with_reducible apply Keep.refl
    | with_reducible assumption
    | with_reducible apply Keep.via (State.linkErrs_keep ..)
    | with_reducible apply Keep.via (State.serveExternal_keep ..)
    | with_reducible apply Keep.via (State.takeLoad_keep ..)
    | with_reducible apply Keep.ite
    | split
    | extract_lets
    | dsimp -proj only
    | ((with_reducible conv => arg 3; whnf); first | split | with_reducible apply Keep.setOut)
    | dsimp -proj +zetaDelta only
    | dsimp only

theorem execDramRequest_keep (r : MemReq) (e : LinkErrs) (f : Flips) (s : State) : KeepR 0x2E92100BB s (execDramRequest r e f s) := by
  unfold execDramRequest
  repeat' first
    | exact rfl
    | with_reducible apply Keep.refl
    | with_reducible assumption
    | with_reducible apply KeepR.refused
    | with_reducible apply KeepR.next
    | with_reducible apply Keep.via (State.chanReports_keep ..)
    | with_reducible apply Keep.via (State.serveMarked_keep ..)
    | with_reducible apply Keep.ite
    | with_reducible apply KeepR.ite
    | split
    | dsimp -proj only
    | ((with_reducible conv => arg 3; whnf); first | split)
    | dsimp -proj +zetaDelta only
    | dsimp only

theorem State.dropCopy_keep (s : State) (ch : Nat) : Keep 0x3FFFFBFFF s (State.dropCopy s ch) := by
  unfold State.dropCopy
  repeat' first
    | exact rfl
    | with_reducible apply Keep.refl
    | with_reducible assumption
    | with_reducible apply Keep.via (State.setChan_keep ..)
    | extract_lets
    | dsimp -proj only
    | ((with_reducible conv => arg 3; whnf); first | split)
    | dsimp -proj +zetaDelta only
    | dsimp only

theorem State.repairDone_keep (s : State) (ch : Nat) (k : RepairCopy) (status : Nat) : Keep 0x3CFF9FCBB s (State.repairDone s ch k status) := by
  unfold State.repairDone
  repeat' first
    | exact rfl
    | with_reducible apply Keep.refl
    | with_reducible assumption
    | with_reducible apply Keep.via (State.finish_keep ..)
    | with_reducible apply Keep.ite
    | split
    | dsimp -proj only
    | ((with_reducible conv => arg 3; whnf); first | split)
    | dsimp -proj +zetaDelta only
    | dsimp only

theorem State.mapRow_keep (s : State) (ch : Nat) (k : RepairCopy) : Keep 0x3FFFFBFFB s (State.mapRow s ch k) := by
  unfold State.mapRow
  repeat' first
    | exact rfl
    | with_reducible apply Keep.refl
    | with_reducible assumption
    | with_reducible apply Keep.via (State.wr_keep ..)
    | with_reducible apply Keep.via (State.setChan_keep ..)
    | with_reducible apply Keep.ite
    | split
    | extract_lets
    | dsimp -proj only
    | ((with_reducible conv => arg 3; whnf); first | split)
    | dsimp -proj +zetaDelta only
    | dsimp only

theorem execRepairCopyDone_keep (ch : Fin 132) (f : Flips) (s : State) : KeepR 0x3CBB9B0BB s (execRepairCopyDone ch f s) := by
  unfold execRepairCopyDone
  repeat' first
    | exact rfl
    | with_reducible apply Keep.refl
    | with_reducible assumption
    | with_reducible apply KeepR.refused
    | with_reducible apply KeepR.next
    | with_reducible apply Keep.via (State.readWords_keep ..)
    | with_reducible apply Keep.via (State.syncSpares_keep ..)
    | with_reducible apply Keep.via (State.dropCopy_keep ..)
    | with_reducible apply Keep.via (State.mapRow_keep ..)
    | with_reducible apply Keep.via (State.event_keep ..)
    | with_reducible apply Keep.via (State.softCreate_keep ..)
    | with_reducible apply Keep.via (State.repairDone_keep ..)
    | with_reducible apply Keep.ite
    | with_reducible apply KeepR.ite
    | split
    | extract_lets
    | dsimp -proj only
    | ((with_reducible conv => arg 3; whnf); first | split)
    | dsimp -proj +zetaDelta only
    | dsimp only

theorem execRepairCopyTimeout_keep (ch : Fin 132) (s : State) : KeepR 0x3CFF9BCBB s (execRepairCopyTimeout ch s) := by
  unfold execRepairCopyTimeout
  repeat' first
    | exact rfl
    | with_reducible apply Keep.refl
    | with_reducible assumption
    | with_reducible apply KeepR.refused
    | with_reducible apply KeepR.next
    | with_reducible apply Keep.via (State.event_keep ..)
    | with_reducible apply Keep.via (State.dropCopy_keep ..)
    | with_reducible apply Keep.via (State.repairDone_keep ..)
    | with_reducible apply Keep.ite
    | with_reducible apply KeepR.ite
    | split
    | extract_lets
    | dsimp -proj only
    | ((with_reducible conv => arg 3; whnf); first | split)
    | dsimp -proj +zetaDelta only
    | dsimp only

theorem execScrubStep_keep (ch : Fin 132) (f : Flips) (s : State) : KeepR 0x3E92100BB s (execScrubStep ch f s) := by
  unfold execScrubStep
  repeat' first
    | exact rfl
    | with_reducible apply Keep.refl
    | with_reducible assumption
    | with_reducible apply KeepR.refused
    | with_reducible apply KeepR.next
    | with_reducible apply Keep.via (State.readWords_keep ..)
    | with_reducible apply Keep.via (State.autoRepairs_keep ..)
    | with_reducible apply Keep.via (State.chanReports_keep ..)
    | with_reducible apply Keep.via (State.wr_keep ..)
    | with_reducible apply Keep.ite
    | with_reducible apply KeepR.ite
    | split
    | extract_lets
    | dsimp -proj only
    | ((with_reducible conv => arg 3; whnf); first | split)
    | dsimp -proj +zetaDelta only
    | dsimp only

theorem execRefresh_keep (ch : Fin 132) (s : State) : KeepR 0x3FFFFBFFF s (execRefresh ch s) := by
  unfold execRefresh
  repeat' first
    | exact rfl
    | with_reducible apply Keep.refl
    | with_reducible assumption
    | with_reducible apply KeepR.refused
    | with_reducible apply KeepR.next
    | with_reducible apply Keep.via (State.setChan_keep ..)
    | with_reducible apply Keep.ite
    | with_reducible apply KeepR.ite
    | split
    | extract_lets
    | dsimp -proj only
    | ((with_reducible conv => arg 3; whnf); first | split)
    | dsimp -proj +zetaDelta only
    | dsimp only

theorem execStackSensorRead_keep (stack : Fin 2) (raw : List Int) (s : State) : KeepR 0x3EFCD9CEB s (execStackSensorRead stack raw s) := by
  unfold execStackSensorRead
  repeat' first
    | exact rfl
    | with_reducible apply Keep.refl
    | with_reducible assumption
    | with_reducible apply KeepR.refused
    | with_reducible apply KeepR.next
    | with_reducible apply Keep.via (State.event_keep ..)
    | with_reducible apply Keep.via (State.setChan_keep ..)
    | with_reducible apply Keep.via (State.tempByte_keep ..)
    | with_reducible apply Keep.via (State.wf_keep ..)
    | with_reducible apply Keep.via (State.voidTime_keep ..)
    | with_reducible apply Keep.via (State.thermal_keep ..)
    | with_reducible apply Keep.foldl
    | with_reducible apply Keep.foldl_snd
    | with_reducible apply Keep.foldl_fst
    | (intro _ _)
    | with_reducible apply Keep.ite
    | with_reducible apply KeepR.ite
    | split
    | extract_lets
    | dsimp -proj only
    | ((with_reducible conv => arg 3; whnf); first | split)
    | dsimp -proj +zetaDelta only
    | dsimp only

theorem execSelfRefreshExitTimeout_keep (ch : Fin 132) (s : State) : KeepR 0x3EFFDBCFB s (execSelfRefreshExitTimeout ch s) := by
  unfold execSelfRefreshExitTimeout
  repeat' first
    | exact rfl
    | with_reducible apply Keep.refl
    | with_reducible assumption
    | with_reducible apply KeepR.refused
    | with_reducible apply KeepR.next
    | with_reducible apply Keep.via (State.fenceChan_keep ..)
    | with_reducible apply Keep.via (State.setChan_keep ..)
    | with_reducible apply Keep.ite
    | with_reducible apply KeepR.ite
    | split
    | dsimp -proj only
    | ((with_reducible conv => arg 3; whnf); first | split)
    | dsimp -proj +zetaDelta only
    | dsimp only

theorem State.writeStripe_keep (s : State) (p t v : Nat) : Keep 0x3EFFDFCFB s (State.writeStripe s p t v) := by
  unfold State.writeStripe
  repeat' first
    | exact rfl
    | with_reducible apply Keep.refl
    | with_reducible assumption
    | with_reducible apply Keep.via (State.event_keep ..)
    | with_reducible apply Keep.via (State.wr_keep ..)
    | with_reducible apply Keep.ite
    | split
    | dsimp -proj only
    | ((with_reducible conv => arg 3; whnf); first | split)
    | dsimp -proj +zetaDelta only
    | dsimp only

theorem execMemStripeWrite_keep (p : Fin 4) (t : Fin 48) (v : Word) (s : State) : KeepR 0x3EFFDFCFB s (execMemStripeWrite p t v s) := by
  unfold execMemStripeWrite
  repeat' first
    | exact rfl
    | with_reducible apply Keep.refl
    | with_reducible assumption
    | with_reducible apply KeepR.refused
    | with_reducible apply KeepR.next
    | with_reducible refine State.rowWrite_keep _ _ rfl ?_ ?_
    | (intro _ _ _)
    | with_reducible apply Keep.via (State.writeStripe_keep ..)
    | dsimp -proj only
    | ((with_reducible conv => arg 3; whnf); first | split)
    | dsimp -proj +zetaDelta only
    | dsimp only

theorem State.chFence_keep (s : State) (ch : Nat) : Keep 0x3EFFDFCFB s (State.chFence s ch) := by
  unfold State.chFence
  repeat' first
    | exact rfl
    | with_reducible apply Keep.refl
    | with_reducible assumption
    | with_reducible apply Keep.via (State.fenceChan_keep ..)
    | with_reducible apply Keep.ite
    | split
    | extract_lets
    | dsimp -proj only
    | ((with_reducible conv => arg 3; whnf); first | split)
    | dsimp -proj +zetaDelta only
    | dsimp only

theorem execMemChFence_keep (ch : Fin 132) (s : State) : KeepR 0x3EFFDFCFB s (execMemChFence ch s) := by
  unfold execMemChFence
  repeat' first
    | exact rfl
    | with_reducible apply Keep.refl
    | with_reducible assumption
    | with_reducible apply KeepR.refused
    | with_reducible apply KeepR.next
    | with_reducible refine State.rowWrite_keep _ _ rfl ?_ ?_
    | (intro _ _ _)
    | with_reducible apply Keep.via (State.chFence_keep ..)
    | dsimp -proj only
    | ((with_reducible conv => arg 3; whnf); first | split)
    | dsimp -proj +zetaDelta only
    | dsimp only


end Sys2Proof.Machine
end

