-- ==== Sys2Proof/Laws/KeepJobs.lean ====
section
/-! SUPPORT. What each operation of Machine/Jobs.lean leaves alone (Laws/Keep.lean). -/

namespace Sys2Proof.Machine

set_option linter.unusedTactic false
set_option linter.unreachableTactic false

theorem State.jobWrite_keep (s : State) (ps phase toCoord toLogical addr : Nat) (data : List Byte) (poison : Nat) : Keep 0x3EFF9ECBB s (State.jobWrite s ps phase toCoord toLogical addr data poison) := by
  unfold State.jobWrite
  repeat' first
    | exact rfl
    | with_reducible apply Keep.refl
    | with_reducible assumption
    | with_reducible apply Keep.via (State.setSpn_keep ..)
    | with_reducible apply Keep.via (State.send_keep ..)
    | with_reducible apply Keep.via (State.inject_keep ..)
    | with_reducible apply Keep.foldl
    | with_reducible apply Keep.foldl_snd
    | with_reducible apply Keep.foldl_fst
    | (intro _ _)
    | with_reducible apply Keep.ite
    | split
    | extract_lets
    | dsimp -proj only
    | ((with_reducible conv => arg 3; whnf); first | split | with_reducible apply Keep.setFab)
    | dsimp -proj +zetaDelta only
    | dsimp only

theorem State.phaseCheck_keep (s : State) (ps n : Nat) : Keep 0x3FFFFEFEF s (State.phaseCheck s ps n) := by
  unfold State.phaseCheck
  repeat' first
    | exact rfl
    | with_reducible apply Keep.refl
    | with_reducible assumption
    | with_reducible apply Keep.via (State.raiseCounter_keep ..)
    | with_reducible apply Keep.via (State.modSpn_keep ..)
    | with_reducible apply Keep.ite
    | split
    | extract_lets
    | dsimp -proj only
    | ((with_reducible conv => arg 3; whnf); first | split)
    | dsimp -proj +zetaDelta only
    | dsimp only

theorem State.arm_keep (s : State) (ps n want cc : Nat) : Keep 0x3FFFFEFEF s (State.arm s ps n want cc) := by
  unfold State.arm
  repeat' first
    | exact rfl
    | with_reducible apply Keep.refl
    | with_reducible assumption
    | with_reducible apply Keep.via (State.phaseCheck_keep ..)
    | with_reducible apply Keep.via (State.modSpn_keep ..)
    | extract_lets
    | dsimp -proj only
    | ((with_reducible conv => arg 3; whnf); first | split)
    | dsimp -proj +zetaDelta only
    | dsimp only

theorem execPostJob_keep (ps : Fin 18) (s : State) : KeepR 0x3EFF9ECAB s (execPostJob ps s) := by
  unfold execPostJob
  repeat' first
    | exact rfl
    | with_reducible apply Keep.refl
    | with_reducible assumption
    | with_reducible apply KeepR.refused
    | with_reducible apply KeepR.next
    | with_reducible apply Keep.via (State.jobWrite_keep ..)
    | with_reducible apply Keep.via (State.modSpn_keep ..)
    | with_reducible apply Keep.via (State.arm_keep ..)
    | with_reducible apply Keep.foldl
    | with_reducible apply Keep.foldl_snd
    | with_reducible apply Keep.foldl_fst
    | (intro _ _)
    | split
    | extract_lets
    | dsimp -proj only
    | ((with_reducible conv => arg 3; whnf); first | split)
    | dsimp -proj +zetaDelta only
    | dsimp only

theorem execGrantJob_keep (ps : Fin 18) (f : Flips) (s : State) : KeepR 0x3EDF100AB s (execGrantJob ps f s) := by
  unfold execGrantJob
  repeat' first
    | exact rfl
    | with_reducible apply Keep.refl
    | with_reducible assumption
    | with_reducible apply KeepR.refused
    | with_reducible apply KeepR.next
    | with_reducible apply Keep.via (State.devRead_keep ..)
    | with_reducible apply Keep.via (State.spnFault_keep ..)
    | with_reducible apply Keep.via (State.jobWrite_keep ..)
    | with_reducible apply Keep.via (State.wr_keep ..)
    | with_reducible apply Keep.via (State.modSpn_keep ..)
    | with_reducible apply Keep.via (State.arm_keep ..)
    | with_reducible apply Keep.foldl
    | with_reducible apply Keep.foldl_snd
    | with_reducible apply Keep.foldl_fst
    | (intro _ _)
    | with_reducible apply Keep.ite
    | with_reducible apply KeepR.ite
    | split
    | extract_lets
    | dsimp -proj only
    | ((with_reducible conv => arg 3; whnf); first | split)
    | dsimp -proj +zetaDelta only
    | dsimp only

theorem scatterEntry_keep (ps : Nat) (pset : Nat) (f : Flips) (p j : Nat) (rec0 : List Byte) (a : ScatterAcc) : Keep 0x3EDF100BB a.s (scatterEntry ps pset f p j rec0 a).s := by
  unfold scatterEntry
  repeat' first
    | exact rfl
    | with_reducible apply Keep.refl
    | with_reducible assumption
    | with_reducible apply Keep.via (ScatterAcc.s_keep ..)
    | with_reducible apply Keep.via (State.devRead_keep ..)
    | with_reducible apply Keep.via (State.spnFault_keep ..)
    | with_reducible apply Keep.via (State.jobWrite_keep ..)
    | with_reducible apply Keep.via (State.sat_keep ..)
    | with_reducible apply Keep.via (State.devWrite_keep ..)
    | with_reducible apply Keep.ite
    | with_reducible apply Keep.ite_out
    | split
    | extract_lets
    | dsimp -proj only
    | ((with_reducible conv => arg 3; whnf); first | split)
    | dsimp -proj +zetaDelta only
    | dsimp only

theorem scatterToken_keep (ps pset : Nat) (f : Flips) (a : ScatterAcc) (p : Nat) : Keep 0x3EDF100BB a.s (scatterToken ps pset f a p).s := by
  unfold scatterToken
  repeat' first
    | exact rfl
    | with_reducible apply Keep.refl
    | with_reducible assumption
    | with_reducible apply Keep.via (ScatterAcc.s_keep ..)
    | with_reducible apply Keep.via (State.devRead_keep ..)
    | with_reducible apply Keep.via (State.spnFault_keep ..)
    | with_reducible apply Keep.via (scatterEntry_keep ..)
    | with_reducible apply Keep.foldl
    | with_reducible apply Keep.foldl_snd
    | with_reducible apply Keep.foldl_fst
    | with_reducible apply Keep.foldl_of ScatterAcc.s
    | (intro _ _)
    | with_reducible apply Keep.ite
    | with_reducible apply Keep.ite_out
    | split
    | extract_lets
    | dsimp -proj only
    | ((with_reducible conv => arg 3; whnf); first | split)
    | dsimp -proj +zetaDelta only
    | dsimp only

theorem execScatterJob_keep (ps : Fin 18) (f : Flips) (s : State) : KeepR 0x3EDF100AB s (execScatterJob ps f s) := by
  unfold execScatterJob
  repeat' first
    | exact rfl
    | with_reducible apply Keep.refl
    | with_reducible assumption
    | with_reducible apply KeepR.refused
    | with_reducible apply KeepR.next
    | with_reducible apply Keep.via (scatterToken_keep ..)
    | with_reducible apply Keep.via (ScatterAcc.s_keep ..)
    | with_reducible apply Keep.via (State.modSpn_keep ..)
    | with_reducible apply Keep.via (State.arm_keep ..)
    | with_reducible apply Keep.foldl
    | with_reducible apply Keep.foldl_snd
    | with_reducible apply Keep.foldl_fst
    | with_reducible apply Keep.foldl_of ScatterAcc.s
    | (intro _ _)
    | with_reducible apply Keep.ite
    | with_reducible apply KeepR.ite
    | split
    | extract_lets
    | dsimp -proj only
    | ((with_reducible conv => arg 3; whnf); first | split)
    | dsimp -proj +zetaDelta only
    | dsimp only

theorem execReturnJob_keep (ps : Fin 18) (f : Flips) (s : State) : KeepR 0x3EFF980BB s (execReturnJob ps f s) := by
  unfold execReturnJob
  repeat' first
    | exact rfl
    | with_reducible apply Keep.refl
    | with_reducible assumption
    | with_reducible apply KeepR.refused
    | with_reducible apply KeepR.next
    | with_reducible apply Keep.via (State.devRead_keep ..)
    | with_reducible apply Keep.via (State.jobWrite_keep ..)
    | with_reducible apply Keep.via (State.modSpn_keep ..)
    | with_reducible apply Keep.foldl
    | with_reducible apply Keep.foldl_snd
    | with_reducible apply Keep.foldl_fst
    | (intro _ _)
    | with_reducible apply Keep.ite
    | with_reducible apply KeepR.ite
    | split
    | extract_lets
    | dsimp -proj only
    | ((with_reducible conv => arg 3; whnf); first | split)
    | dsimp -proj +zetaDelta only
    | dsimp only

theorem execTresetJob_keep (ps : Fin 18) (s : State) : KeepR 0x3FFFFEFFF s (execTresetJob ps s) := by
  unfold execTresetJob
  repeat' first
    | exact rfl
    | with_reducible apply Keep.refl
    | with_reducible assumption
    | with_reducible apply KeepR.refused
    | with_reducible apply KeepR.next
    | with_reducible apply Keep.via (State.setSpn_keep ..)
    | split
    | extract_lets
    | dsimp -proj only
    | ((with_reducible conv => arg 3; whnf); first | split)
    | dsimp -proj +zetaDelta only
    | dsimp only

theorem State.dspCount_keep (s : State) (ps phase coord logical addr : Nat) : Keep 0x3FFFFEFEF s (State.dspCount s ps phase coord logical addr) := by
  unfold State.dspCount
  repeat' first
    | exact rfl
    | with_reducible apply Keep.refl
    | with_reducible assumption
    | with_reducible apply Keep.via (State.modSpn_keep ..)
    | with_reducible apply Keep.via (State.phaseCheck_keep ..)
    | with_reducible apply Keep.ite
    | split
    | extract_lets
    | dsimp -proj only
    | ((with_reducible conv => arg 3; whnf); first | split)
    | dsimp -proj +zetaDelta only
    | dsimp only

theorem execDispatchArrival_keep (ps : Fin 18) (p : DspPkt) (f : Flips) (s : State) : KeepR 0x3EDF100AB s (execDispatchArrival ps p f s) := by
  unfold execDispatchArrival
  repeat' first
    | exact rfl
    | with_reducible apply Keep.refl
    | with_reducible assumption
    | with_reducible apply KeepR.refused
    | with_reducible apply KeepR.next
    | with_reducible apply Keep.via (State.take_keep ..)
    | with_reducible apply Keep.via (State.sat_keep ..)
    | with_reducible apply Keep.via (State.dspCount_keep ..)
    | with_reducible apply Keep.via (State.devWrite_keep ..)
    | with_reducible apply Keep.ite
    | with_reducible apply KeepR.ite
    | split
    | extract_lets
    | dsimp -proj only
    | ((with_reducible conv => arg 3; whnf); first | split)
    | dsimp -proj +zetaDelta only
    | dsimp only

theorem execDspArrivalTimeout_keep (ps : Fin 18) (n : Fin 4) (s : State) : KeepR 0x3EDF14CBB s (execDspArrivalTimeout ps n s) := by
  unfold execDspArrivalTimeout
  repeat' first
    | exact rfl
    | with_reducible apply Keep.refl
    | with_reducible assumption
    | with_reducible apply KeepR.refused
    | with_reducible apply KeepR.next
    | with_reducible apply Keep.via (State.spnFault_keep ..)
    | with_reducible apply Keep.ite
    | with_reducible apply KeepR.ite
    | split
    | extract_lets
    | dsimp -proj only
    | ((with_reducible conv => arg 3; whnf); first | split)
    | dsimp -proj +zetaDelta only
    | dsimp only


end Sys2Proof.Machine
end

