-- ==== Sys2Proof/Laws/KeepLinks.lean ====
section
/-! SUPPORT. What each operation of Machine/Links.lean leaves alone (Laws/Keep.lean). -/

namespace Sys2Proof.Machine

set_option linter.unusedTactic false
set_option linter.unreachableTactic false

theorem execTrainingStart_keep (h : Fin 32) (s : State) : KeepR 0x3EFF9FCBB s (execTrainingStart h s) := by
  unfold execTrainingStart
  repeat' first
    | exact rfl
    | with_reducible apply Keep.refl
    | with_reducible assumption
    | with_reducible apply KeepR.refused
    | with_reducible apply KeepR.next
    | with_reducible apply Keep.via (State.retrain_keep ..)
    | with_reducible apply Keep.ite
    | with_reducible apply KeepR.ite
    | split
    | dsimp -proj only
    | ((with_reducible conv => arg 3; whnf); first | split)
    | dsimp -proj +zetaDelta only
    | dsimp only

theorem State.lanesOut_keep (s : State) (h : Nat) (used : List Nat) (errs : List (Nat × Nat × Nat)) : Keep 0x3EFFDFCFB s (State.lanesOut s h used errs) := by
  unfold State.lanesOut
  repeat' first
    | exact rfl
    | with_reducible apply Keep.refl
    | with_reducible assumption
    | with_reducible apply Keep.via (State.event_keep ..)
    | with_reducible apply Keep.foldl
    | with_reducible apply Keep.foldl_snd
    | with_reducible apply Keep.foldl_fst
    | (intro _ _)
    | with_reducible apply Keep.ite
    | split
    | extract_lets
    | dsimp -proj only
    | ((with_reducible conv => arg 3; whnf); first | split)
    | dsimp -proj +zetaDelta only
    | dsimp only

theorem State.trained_keep (s : State) (h : Nat) (lanes : BitVec 8) (native : Bool) (partner : Nat × Nat) (errs : List (Nat × Nat × Nat)) : Keep 0x36FF9FCBB s (State.trained s h lanes native partner errs) := by
  unfold State.trained
  repeat' first
    | exact rfl
    | with_reducible apply Keep.refl
    | with_reducible assumption
    | with_reducible apply Keep.via (State.trainFail_keep ..)
    | with_reducible apply Keep.via (State.wf_keep ..)
    | with_reducible apply Keep.via (State.lanesOut_keep ..)
    | with_reducible apply Keep.via (State.wr_keep ..)
    | with_reducible apply Keep.via (State.setHalf_keep ..)
    | with_reducible apply Keep.via (State.event_keep ..)
    | with_reducible apply Keep.via (State.rerouteWaiting_keep ..)
    | with_reducible apply Keep.via (State.syncDgPort_keep ..)
    | with_reducible apply Keep.via (State.setPortSt_keep ..)
    | with_reducible apply Keep.ite
    | split
    | extract_lets
    | dsimp -proj only
    | ((with_reducible conv => arg 3; whnf); first | split | with_reducible apply Keep.setBoot)
    | dsimp -proj +zetaDelta only
    | dsimp only

theorem execTrainingComplete_keep (h : Fin 32) (lanes : BitVec 8) (native : Bool) (partner : Nat × Nat) (errs : List (Nat × Nat × Nat)) (s : State) : KeepR 0x34FF9FCBB s (execTrainingComplete h lanes native partner errs s) := by
  unfold execTrainingComplete
  repeat' first
    | exact rfl
    | with_reducible apply Keep.refl
    | with_reducible assumption
    | with_reducible apply KeepR.refused
    | with_reducible apply KeepR.next
    | with_reducible apply Keep.via (State.dikeDone_keep ..)
    | with_reducible apply Keep.via (State.trained_keep ..)
    | with_reducible apply Keep.ite
    | with_reducible apply KeepR.ite
    | split
    | dsimp -proj only
    | ((with_reducible conv => arg 3; whnf); first | split)
    | dsimp -proj +zetaDelta only
    | dsimp only

theorem execTrainingTimeout_keep (h : Fin 32) (s : State) : KeepR 0x3CFF9FCBB s (execTrainingTimeout h s) := by
  unfold execTrainingTimeout
  repeat' first
    | exact rfl
    | with_reducible apply Keep.refl
    | with_reducible assumption
    | with_reducible apply KeepR.refused
    | with_reducible apply KeepR.next
    | with_reducible apply Keep.via (State.dikeDone_keep ..)
    | with_reducible apply Keep.via (State.trainFail_keep ..)
    | with_reducible apply Keep.ite
    | with_reducible apply KeepR.ite
    | split
    | dsimp -proj only
    | ((with_reducible conv => arg 3; whnf); first | split)
    | dsimp -proj +zetaDelta only
    | dsimp only

theorem execRetryTimerExpiry_keep (h : Fin 32) (s : State) : KeepR 0x3EFF9FCBB s (execRetryTimerExpiry h s) := by
  unfold execRetryTimerExpiry
  repeat' first
    | exact rfl
    | with_reducible apply Keep.refl
    | with_reducible assumption
    | with_reducible apply KeepR.refused
    | with_reducible apply KeepR.next
    | with_reducible apply Keep.via (State.beginTraining_keep ..)
    | with_reducible apply Keep.ite
    | with_reducible apply KeepR.ite
    | split
    | dsimp -proj only
    | ((with_reducible conv => arg 3; whnf); first | split)
    | dsimp -proj +zetaDelta only
    | dsimp only

theorem execLinkSignalLoss_keep (h : Fin 32) (s : State) : KeepR 0x3EFF9FCBB s (execLinkSignalLoss h s) := by
  unfold execLinkSignalLoss
  repeat' first
    | exact rfl
    | with_reducible apply Keep.refl
    | with_reducible assumption
    | with_reducible apply KeepR.refused
    | with_reducible apply KeepR.next
    | with_reducible apply Keep.via (State.breachHalf_keep ..)
    | dsimp -proj only
    | ((with_reducible conv => arg 3; whnf); first | split)
    | dsimp -proj +zetaDelta only
    | dsimp only

theorem State.retrainPort_keep (s : State) (port : Nat) : Keep 0x3EFF9FCBB s (State.retrainPort s port) := by
  unfold State.retrainPort
  repeat' first
    | exact rfl
    | with_reducible apply Keep.refl
    | with_reducible assumption
    | with_reducible apply Keep.via (State.retrain_keep ..)
    | with_reducible apply Keep.ite
    | split
    | extract_lets
    | dsimp -proj only
    | ((with_reducible conv => arg 3; whnf); first | split)
    | dsimp -proj +zetaDelta only
    | dsimp only

theorem execPortCtlRetrain_keep (port : Fin 16) (s : State) : KeepR 0x3EFF9FCBB s (execPortCtlRetrain port s) := by
  unfold execPortCtlRetrain
  repeat' first
    | exact rfl
    | with_reducible apply Keep.refl
    | with_reducible assumption
    | with_reducible apply KeepR.refused
    | with_reducible apply KeepR.next
    | with_reducible refine State.rowWrite_keep _ _ rfl ?_ ?_
    | (intro _ _ _)
    | with_reducible apply Keep.via (State.retrainPort_keep ..)
    | dsimp -proj only
    | ((with_reducible conv => arg 3; whnf); first | split)
    | dsimp -proj +zetaDelta only
    | dsimp only

theorem execHopTimeout_keep (s : State) : KeepR 0x3EFF9FCFB s (execHopTimeout s) := by
  unfold execHopTimeout
  repeat' first
    | exact rfl
    | with_reducible apply Keep.refl
    | with_reducible assumption
    | with_reducible apply KeepR.refused
    | with_reducible apply KeepR.next
    | with_reducible apply Keep.via (State.discard_keep ..)
    | split
    | dsimp -proj only
    | ((with_reducible conv => arg 3; whnf); first | split | with_reducible apply Keep.setFab)
    | dsimp -proj +zetaDelta only
    | dsimp only

theorem State.clearPeer_keep (s : State) (n : Nat) : Keep 0x3EFFDFCFB s (State.clearPeer s n) := by
  unfold State.clearPeer
  repeat' first
    | exact rfl
    | with_reducible apply Keep.refl
    | with_reducible assumption
    | with_reducible apply Keep.via (State.event_keep ..)
    | with_reducible apply Keep.via (State.wf_keep ..)
    | extract_lets
    | dsimp -proj only
    | ((with_reducible conv => arg 3; whnf); first | split)
    | dsimp -proj +zetaDelta only
    | dsimp only

theorem State.peersReturn_keep (s : State) : Keep 0x3EFFDFCFB s (State.peersReturn s) := by
  unfold State.peersReturn
  repeat' first
    | exact rfl
    | with_reducible apply Keep.refl
    | with_reducible assumption
    | with_reducible apply Keep.via (State.clearPeer_keep ..)
    | with_reducible apply Keep.foldl
    | with_reducible apply Keep.foldl_snd
    | with_reducible apply Keep.foldl_fst
    | (intro _ _)
    | with_reducible apply Keep.ite
    | split
    | dsimp -proj only
    | ((with_reducible conv => arg 3; whnf); first | split)
    | dsimp -proj +zetaDelta only
    | dsimp only

theorem State.epochSwitch_keep (s : State) (bank valid : Nat) : Keep 0x3EFF9FCBB s (State.epochSwitch s bank valid) := by
  unfold State.epochSwitch
  repeat' first
    | exact rfl
    | with_reducible apply Keep.refl
    | with_reducible assumption
    | with_reducible apply Keep.via (State.wf_keep ..)
    | with_reducible apply Keep.via (State.returnHalf_keep ..)
    | with_reducible apply Keep.via (State.retrain_keep ..)
    | with_reducible apply Keep.via (State.peersReturn_keep ..)
    | with_reducible apply Keep.via (State.event_keep ..)
    | with_reducible apply Keep.foldl
    | with_reducible apply Keep.foldl_snd
    | with_reducible apply Keep.foldl_fst
    | (intro _ _)
    | with_reducible apply Keep.ite
    | split
    | extract_lets
    | dsimp -proj only
    | ((with_reducible conv => arg 3; whnf); first | split | with_reducible apply Keep.setFab)
    | dsimp -proj +zetaDelta only
    | dsimp only

theorem State.epochDue_keep (s : State) : Keep 0x3CFF9FCBB s (State.epochDue s) := by
  unfold State.epochDue
  repeat' first
    | exact rfl
    | with_reducible apply Keep.refl
    | with_reducible assumption
    | with_reducible apply Keep.via (State.finish_keep ..)
    | with_reducible apply Keep.via (State.epochSwitch_keep ..)
    | with_reducible apply Keep.ite
    | split
    | dsimp -proj only
    | ((with_reducible conv => arg 3; whnf); first | split)
    | dsimp -proj +zetaDelta only
    | dsimp only

theorem execEpochSwitchAtTime_keep (s : State) : KeepR 0x3CFF9FCBB s (execEpochSwitchAtTime s) := by
  unfold execEpochSwitchAtTime
  repeat' first
    | exact rfl
    | with_reducible apply Keep.refl
    | with_reducible assumption
    | with_reducible apply KeepR.refused
    | with_reducible apply KeepR.next
    | with_reducible apply Keep.via (State.epochDue_keep ..)
    | dsimp -proj only
    | ((with_reducible conv => arg 3; whnf); first | split)
    | dsimp -proj +zetaDelta only
    | dsimp only

theorem execEpochGuardExpiry_keep (s : State) : KeepR 0x3FFFBFFFB s (execEpochGuardExpiry s) := by
  unfold execEpochGuardExpiry
  repeat' first
    | exact rfl
    | with_reducible apply Keep.refl
    | with_reducible assumption
    | with_reducible apply KeepR.refused
    | with_reducible apply KeepR.next
    | with_reducible apply Keep.via (State.wf_keep ..)
    | with_reducible apply Keep.ite
    | with_reducible apply KeepR.ite
    | split
    | dsimp -proj only
    | ((with_reducible conv => arg 3; whnf); first | split | with_reducible apply Keep.setFab)
    | dsimp -proj +zetaDelta only
    | dsimp only

theorem State.writeEpoch_keep (s : State) (v : Nat) : Keep 0x3EFF9FCBB s (State.writeEpoch s v) := by
  unfold State.writeEpoch
  repeat' first
    | exact rfl
    | with_reducible apply Keep.refl
    | with_reducible assumption
    | with_reducible apply Keep.via (State.wf_keep ..)
    | with_reducible apply Keep.via (State.epochSwitch_keep ..)
    | with_reducible apply Keep.ite
    | split
    | dsimp -proj only
    | ((with_reducible conv => arg 3; whnf); first | split)
    | dsimp -proj +zetaDelta only
    | dsimp only

theorem execFabEpochWrite_keep (v : Word) (s : State) : KeepR 0x3EFF9FCBB s (execFabEpochWrite v s) := by
  unfold execFabEpochWrite
  repeat' first
    | exact rfl
    | with_reducible apply Keep.refl
    | with_reducible assumption
    | with_reducible apply KeepR.refused
    | with_reducible apply KeepR.next
    | with_reducible refine State.rowWrite_keep _ _ rfl ?_ ?_
    | (intro _ _ _)
    | with_reducible apply Keep.via (State.writeEpoch_keep ..)
    | dsimp -proj only
    | ((with_reducible conv => arg 3; whnf); first | split)
    | dsimp -proj +zetaDelta only
    | dsimp only

theorem State.syncTrk_keep (s : State) : Keep 0x3FFFFFFFB s (State.syncTrk s) := by
  unfold State.syncTrk
  repeat' first
    | exact rfl
    | with_reducible apply Keep.refl
    | with_reducible assumption
    | with_reducible apply Keep.via (State.maxField_keep ..)
    | with_reducible apply Keep.via (State.wf_keep ..)
    | extract_lets
    | dsimp -proj only
    | ((with_reducible conv => arg 3; whnf); first | split)
    | dsimp -proj +zetaDelta only
    | dsimp only

theorem execTombstoneExpiry_keep (s : State) : KeepR 0x3FFFBFFFB s (execTombstoneExpiry s) := by
  unfold execTombstoneExpiry
  repeat' first
    | exact rfl
    | with_reducible apply Keep.refl
    | with_reducible assumption
    | with_reducible apply KeepR.refused
    | with_reducible apply KeepR.next
    | with_reducible apply Keep.via (State.syncTrk_keep ..)
    | split
    | extract_lets
    | dsimp -proj only
    | ((with_reducible conv => arg 3; whnf); first | split | with_reducible apply Keep.setFab)
    | dsimp -proj +zetaDelta only
    | dsimp only

theorem execFabRxTimeout_keep (s : State) : KeepR 0x3EFF9FCFB s (execFabRxTimeout s) := by
  unfold execFabRxTimeout
  repeat' first
    | exact rfl
    | with_reducible apply Keep.refl
    | with_reducible assumption
    | with_reducible apply KeepR.refused
    | with_reducible apply KeepR.next
    | with_reducible apply Keep.via (State.syncTrk_keep ..)
    | with_reducible apply Keep.via (State.event_keep ..)
    | split
    | extract_lets
    | dsimp -proj only
    | ((with_reducible conv => arg 3; whnf); first | split | with_reducible apply Keep.setFab)
    | dsimp -proj +zetaDelta only
    | dsimp only


end Sys2Proof.Machine
end

