-- ==== Sys2Proof/Laws/KeepRing.lean ====
section
/-! SUPPORT. What each operation of Machine/Ring.lean leaves alone (Laws/Keep.lean). -/

namespace Sys2Proof.Machine

set_option linter.unusedTactic false
set_option linter.unreachableTactic false

theorem State.ringSend_keep (s : State) (ring dir at_ : Nat) (f : RingFlit) : Keep 0x3FFFFFFBF s (State.ringSend s ring dir at_ f) := by
  unfold State.ringSend
  repeat' first
    | exact rfl
    | with_reducible apply Keep.refl
    | with_reducible assumption
    | with_reducible apply Keep.via (State.send_keep ..)
    | dsimp -proj only
    | ((with_reducible conv => arg 3; whnf); first | split)
    | dsimp -proj +zetaDelta only
    | dsimp only

theorem State.ringQueue_keep (s : State) (ring : Nat) (f : RingFlit) : Keep 0x3FFFFFFBF s (State.ringQueue s ring f) := by
  unfold State.ringQueue
  repeat' first
    | exact rfl
    | with_reducible apply Keep.refl
    | with_reducible assumption
    | with_reducible apply Keep.via (State.send_keep ..)
    | dsimp -proj only
    | ((with_reducible conv => arg 3; whnf); first | split)
    | dsimp -proj +zetaDelta only
    | dsimp only

theorem State.takeCredit_keep (s : State) (ring dir src dst : Nat) : Keep 0x2FFFFFFFF s (State.takeCredit s ring dir src dst) := by
  unfold State.takeCredit
  repeat' first
    | exact rfl
    | with_reducible apply Keep.refl
    | with_reducible assumption
    | dsimp -proj only
    | ((with_reducible conv => arg 3; whnf); first | split | with_reducible apply Keep.setRing)
    | dsimp -proj +zetaDelta only
    | dsimp only

theorem State.spendCredit_keep (s : State) (ring dir src dst : Nat) : Keep 0x2FFFFFFFF s (State.spendCredit s ring dir src dst) := by
  unfold State.spendCredit
  repeat' first
    | exact rfl
    | with_reducible apply Keep.refl
    | with_reducible assumption
    | dsimp -proj only
    | ((with_reducible conv => arg 3; whnf); first | split | with_reducible apply Keep.setRing)
    | dsimp -proj +zetaDelta only
    | dsimp only

theorem State.returnCredit_keep (s : State) (ring dir st src : Nat) : Keep 0x3FFFFFFBF s (State.returnCredit s ring dir st src) := by
  unfold State.returnCredit
  repeat' first
    | exact rfl
    | with_reducible apply Keep.refl
    | with_reducible assumption
    | with_reducible apply Keep.via (State.ringSend_keep ..)
    | dsimp -proj only
    | ((with_reducible conv => arg 3; whnf); first | split)
    | dsimp -proj +zetaDelta only
    | dsimp only

theorem State.meetCredit_keep (s : State) (ring dir st : Nat) (f : RingFlit) : Keep 0x2FFFFFFFF s (State.meetCredit s ring dir st f).2 := by
  unfold State.meetCredit
  repeat' first
    | exact rfl
    | with_reducible apply Keep.refl
    | with_reducible assumption
    | with_reducible apply Keep.via (State.takeCredit_keep ..)
    | with_reducible apply Keep.ite
    | with_reducible apply Keep.ite_snd
    | split
    | dsimp -proj only
    | ((with_reducible conv => arg 3; whnf); first | split)
    | dsimp -proj +zetaDelta only
    | dsimp only

theorem State.absorbAnswer_keep (s : State) (st : Nat) (found : OpEnt → Bool) : Keep 0x3FFFFEFFB s (State.absorbAnswer s st found) := by
  unfold State.absorbAnswer
  repeat' first
    | exact rfl
    | with_reducible apply Keep.refl
    | with_reducible assumption
    | with_reducible apply Keep.via (State.sat_keep ..)
    | with_reducible apply Keep.via (State.setSpn_keep ..)
    | split
    | extract_lets
    | dsimp -proj only
    | ((with_reducible conv => arg 3; whnf); first | split)
    | dsimp -proj +zetaDelta only
    | dsimp only

theorem State.answerChan_keep (s : State) (k : ChanKind) (p : ChanPkt) : Keep 0x3EFF9FCBB s (State.answerChan s k p) := by
  unfold State.answerChan
  repeat' first
    | exact rfl
    | with_reducible apply Keep.refl
    | with_reducible assumption
    | with_reducible apply Keep.via (State.sendChan_keep ..)
    | dsimp -proj only
    | ((with_reducible conv => arg 3; whnf); first | split)
    | dsimp -proj +zetaDelta only
    | dsimp only

theorem State.absorbLoad_keep (s : State) (st : Nat) (l : RingLoad) : Keep 0x3EFF9ECBB s (State.absorbLoad s st l) := by
  unfold State.absorbLoad
  repeat' first
    | exact rfl
    | with_reducible apply Keep.refl
    | with_reducible assumption
    | with_reducible apply Keep.via (State.sat_keep ..)
    | with_reducible apply Keep.via (State.sendPieces_keep ..)
    | with_reducible apply Keep.via (State.absorbAnswer_keep ..)
    | with_reducible apply Keep.via (State.answerChan_keep ..)
    | with_reducible apply Keep.ite
    | split
    | extract_lets
    | dsimp -proj only
    | ((with_reducible conv => arg 3; whnf); first | split)
    | dsimp -proj +zetaDelta only
    | dsimp only

theorem State.absorb_keep (s : State) (ring st : Nat) (f : RingFlit) : Keep 0x3EFF9ECBB s (State.absorb s ring st f) := by
  unfold State.absorb
  repeat' first
    | exact rfl
    | with_reducible apply Keep.refl
    | with_reducible assumption
    | with_reducible apply Keep.via (State.absorbLoad_keep ..)
    | with_reducible apply Keep.via (State.ringQueue_keep ..)
    | with_reducible apply Keep.via (State.sat_keep ..)
    | with_reducible apply Keep.via (State.absorbAnswer_keep ..)
    | with_reducible apply Keep.ite
    | split
    | extract_lets
    | dsimp -proj only
    | ((with_reducible conv => arg 3; whnf); first | split)
    | dsimp -proj +zetaDelta only
    | dsimp only

theorem State.toDoor_keep (s : State) (st : Nat) (l : RingLoad) : Keep 0x2FFFFFFFF s (State.toDoor s st l) := by
  unfold State.toDoor
  repeat' first
    | exact rfl
    | with_reducible apply Keep.refl
    | with_reducible assumption
    | dsimp -proj only
    | ((with_reducible conv => arg 3; whnf); first | split | with_reducible apply Keep.setRing)
    | dsimp -proj +zetaDelta only
    | dsimp only

theorem State.passStarved_keep (s : State) (ring dir st : Nat) : Keep 0x2FFFFFFFF s (State.passStarved s ring dir st) := by
  unfold State.passStarved
  repeat' first
    | exact rfl
    | with_reducible apply Keep.refl
    | with_reducible assumption
    | with_reducible apply Keep.ite
    | split
    | dsimp -proj only
    | ((with_reducible conv => arg 3; whnf); first | split | with_reducible apply Keep.setRing)
    | dsimp -proj +zetaDelta only
    | dsimp only

theorem State.hopErrors_keep (s : State) (ring dir st ce ue : Nat) : Keep 0x3E9214CBB s (State.hopErrors s ring dir st ce ue) := by
  unfold State.hopErrors
  repeat' first
    | exact rfl
    | with_reducible apply Keep.refl
    | with_reducible assumption
    | with_reducible apply Keep.via (State.sat_keep ..)
    | with_reducible apply Keep.via (State.seamError_keep ..)
    | with_reducible apply Keep.foldl
    | with_reducible apply Keep.foldl_snd
    | with_reducible apply Keep.foldl_fst
    | (intro _ _)
    | split
    | extract_lets
    | dsimp -proj only
    | ((with_reducible conv => arg 3; whnf); first | split)
    | dsimp -proj +zetaDelta only
    | dsimp only

theorem State.injectFlit_keep (s : State) (ring dir : Nat) (f : RingFlit) : Keep 0x2FFFFFFBB s (State.injectFlit s ring dir f) := by
  unfold State.injectFlit
  repeat' first
    | exact rfl
    | with_reducible apply Keep.refl
    | with_reducible assumption
    | with_reducible apply Keep.via (State.take_keep ..)
    | with_reducible apply Keep.via (State.add64_keep ..)
    | with_reducible apply Keep.via (State.spendCredit_keep ..)
    | with_reducible apply Keep.foldl
    | with_reducible apply Keep.foldl_snd
    | with_reducible apply Keep.foldl_fst
    | (intro _ _)
    | split
    | extract_lets
    | dsimp -proj only
    | ((with_reducible conv => arg 3; whnf); first | split)
    | dsimp -proj +zetaDelta only
    | dsimp only

theorem State.eject_keep (s : State) (ring dir st : Nat) (f : RingFlit) : Keep 0x2EFF9ECBB s (State.eject s ring dir st f) := by
  unfold State.eject
  repeat' first
    | exact rfl
    | with_reducible apply Keep.refl
    | with_reducible assumption
    | with_reducible apply Keep.via (State.returnCredit_keep ..)
    | with_reducible apply Keep.via (State.absorb_keep ..)
    | with_reducible apply Keep.via (State.toDoor_keep ..)
    | with_reducible apply Keep.ite
    | split
    | extract_lets
    | dsimp -proj only
    | ((with_reducible conv => arg 3; whnf); first | split)
    | dsimp -proj +zetaDelta only
    | dsimp only

theorem State.flitAt_keep (s : State) (ring dir st : Nat) (f : RingFlit) (ce : Nat) (ue : BitVec 32) (bad : Bool) : Keep 0x2E9214CBB s (State.flitAt s ring dir st f ce ue bad) := by
  unfold State.flitAt
  repeat' first
    | exact rfl
    | with_reducible apply Keep.refl
    | with_reducible assumption
    | with_reducible apply Keep.via (State.hopErrors_keep ..)
    | with_reducible apply Keep.via (State.event_keep ..)
    | with_reducible apply Keep.via (State.meetCredit_keep ..)
    | with_reducible apply Keep.via (State.eject_keep ..)
    | with_reducible apply Keep.via (State.ringSend_keep ..)
    | with_reducible apply Keep.via (State.passStarved_keep ..)
    | with_reducible apply Keep.ite
    | split
    | extract_lets
    | dsimp -proj only
    | ((with_reducible conv => arg 3; whnf); first | split)
    | dsimp -proj +zetaDelta only
    | dsimp only

theorem execRingFlitArrival_keep (ring : Fin 4) (dir : Fin 2) (st : Fin 29) (f : RingFlit) (ce : Nat) (ue : BitVec 32) (bad : Bool) (s : State) : KeepR 0x2E9214CBB s (execRingFlitArrival ring dir st f ce ue bad s) := by
  unfold execRingFlitArrival
  repeat' first
    | exact rfl
    | with_reducible apply Keep.refl
    | with_reducible assumption
    | with_reducible apply KeepR.refused
    | with_reducible apply KeepR.next
    | with_reducible apply Keep.via (State.flitAt_keep ..)
    | with_reducible apply Keep.via (State.take_keep ..)
    | with_reducible apply Keep.via (State.injectFlit_keep ..)
    | with_reducible apply Keep.ite
    | with_reducible apply KeepR.ite
    | split
    | dsimp -proj only
    | ((with_reducible conv => arg 3; whnf); first | split | with_reducible apply Keep.setRing)
    | dsimp -proj +zetaDelta only
    | dsimp only

theorem execInjectionStarve_keep (ring : Fin 4) (dir : Fin 2) (st : Fin 29) (s : State) : KeepR 0x2FFFFFFFF s (execInjectionStarve ring dir st s) := by
  unfold execInjectionStarve
  repeat' first
    | exact rfl
    | with_reducible apply Keep.refl
    | with_reducible assumption
    | with_reducible apply KeepR.refused
    | with_reducible apply KeepR.next
    | with_reducible apply Keep.ite
    | with_reducible apply KeepR.ite
    | split
    | extract_lets
    | dsimp -proj only
    | ((with_reducible conv => arg 3; whnf); first | split | with_reducible apply Keep.setRing)
    | dsimp -proj +zetaDelta only
    | dsimp only

theorem execSeamCrossingLoss_keep (k : Fin 6) (s : State) : KeepR 0x2E9214CBB s (execSeamCrossingLoss k s) := by
  unfold execSeamCrossingLoss
  repeat' first
    | exact rfl
    | with_reducible apply Keep.refl
    | with_reducible assumption
    | with_reducible apply KeepR.refused
    | with_reducible apply KeepR.next
    | with_reducible apply Keep.via (State.seamError_keep ..)
    | with_reducible apply Keep.ite
    | with_reducible apply KeepR.ite
    | split
    | extract_lets
    | dsimp -proj only
    | ((with_reducible conv => arg 3; whnf); first | split | with_reducible apply Keep.setRing)
    | dsimp -proj +zetaDelta only
    | dsimp only

theorem execEventRecord_keep (n : Fin 39) (w : CtlWay) (s : State) : KeepR 0x3E9214CBB s (execEventRecord n w s) := by
  unfold execEventRecord
  extract_lets b
  split
  · exact KeepR.next (Keep.refl _ _)
  · rename_i e r hb
    extract_lets s1
    have h1 : Keep 0x3E9214CBB s s1 := by
      refine Keep.via (State.ctlWay_keep ..) rfl (Keep.setNodes rfl (fun h => ⟨twf_tset h.1, fun p hp => ?_⟩) (Keep.refl _ _))
      rcases mem_tset hp with rfl | hp
      · have hl : b.recs.length ≤ 8 := by
          rcases tget_mem ({} : NodeBuf) (n : Nat) (t := s.nodes) with ⟨q, hq, e⟩ | e
          · have := h.2 q hq; rw [← e] at this; exact this
          · show (tget ({} : NodeBuf) s.nodes n).recs.length ≤ 8
            rw [e]; exact Nat.zero_le _
        rw [hb, List.length_cons] at hl
        exact Nat.le_of_succ_le hl
      · exact h.2 p hp
    refine KeepR.next (Keep.ite h1 (Keep.via (State.toLog_keep ..) rfl h1))

theorem State.closeOut_keep (s : State) (ps ctx c : Nat) : Keep 0x3EFF9ECBB s (State.closeOut s ps ctx c) := by
  unfold State.closeOut
  repeat' first
    | exact rfl
    | with_reducible apply Keep.refl
    | with_reducible assumption
    | with_reducible apply Keep.via (State.setSpn_keep ..)
    | with_reducible apply Keep.via (State.sendChan_keep ..)
    | with_reducible apply Keep.ite
    | split
    | extract_lets
    | dsimp -proj only
    | ((with_reducible conv => arg 3; whnf); first | split)
    | dsimp -proj +zetaDelta only
    | dsimp only

theorem execRingOpTimeout_keep (ps : Fin 18) (op : Nat) (s : State) : KeepR 0x3EFF9ECAB s (execRingOpTimeout ps op s) := by
  unfold execRingOpTimeout
  repeat' first
    | exact rfl
    | with_reducible apply Keep.refl
    | with_reducible assumption
    | with_reducible apply KeepR.refused
    | with_reducible apply KeepR.next
    | with_reducible apply Keep.via (State.event_keep ..)
    | with_reducible apply Keep.via (State.setSpn_keep ..)
    | with_reducible apply Keep.via (State.staleCount_keep ..)
    | with_reducible apply Keep.via (State.raiseCounter_keep ..)
    | with_reducible apply Keep.via (State.closeOut_keep ..)
    | with_reducible apply Keep.ite
    | with_reducible apply KeepR.ite
    | split
    | extract_lets
    | dsimp -proj only
    | ((with_reducible conv => arg 3; whnf); first | split)
    | dsimp -proj +zetaDelta only
    | dsimp only

theorem State.putChanSpn_keep (s : State) (h : ChanHome) (x : Spn) (c : Nat) : Keep 0x3EDF100BB s (State.putChanSpn s h x c) := by
  unfold State.putChanSpn
  repeat' first
    | exact rfl
    | with_reducible apply Keep.refl
    | with_reducible assumption
    | with_reducible apply Keep.via (State.setSpn_keep ..)
    | with_reducible apply Keep.via (State.setSlot_keep ..)
    | with_reducible apply Keep.via (State.writeOutImage_keep ..)
    | with_reducible apply Keep.via (State.writeQueueImage_keep ..)
    | with_reducible apply Keep.ite
    | split
    | extract_lets
    | dsimp -proj only
    | ((with_reducible conv => arg 3; whnf); first | split)
    | dsimp -proj +zetaDelta only
    | dsimp only

theorem State.parkCheck_keep (s : State) (h : ChanHome) : Keep 0x3FFFFDFFF s (State.parkCheck s h) := by
  unfold State.parkCheck
  repeat' first
    | exact rfl
    | with_reducible apply Keep.refl
    | with_reducible assumption
    | with_reducible apply Keep.via (State.setSlot_keep ..)
    | with_reducible apply Keep.ite
    | split
    | dsimp -proj only
    | ((with_reducible conv => arg 3; whnf); first | split)
    | dsimp -proj +zetaDelta only
    | dsimp only

theorem execChannelMessage_keep (p : ChanPkt) (s : State) : KeepR 0x2EDF100BB s (execChannelMessage p s) := by
  unfold execChannelMessage
  repeat' first
    | exact rfl
    | with_reducible apply Keep.refl
    | with_reducible assumption
    | with_reducible apply KeepR.refused
    | with_reducible apply KeepR.next
    | with_reducible apply Keep.via (State.absorbLoad_keep ..)
    | with_reducible apply Keep.via (State.takeLoad_keep ..)
    | with_reducible apply Keep.via (State.answerChan_keep ..)
    | with_reducible apply Keep.via (State.sat_keep ..)
    | with_reducible apply Keep.via (State.eventCtx_keep ..)
    | with_reducible apply Keep.via (State.putChanSpn_keep ..)
    | with_reducible apply Keep.via (State.pumpQueue_keep ..)
    | with_reducible apply Keep.via (State.parkCheck_keep ..)
    | with_reducible apply Keep.ite
    | with_reducible apply KeepR.ite
    | split
    | extract_lets
    | dsimp -proj only
    | ((with_reducible conv => arg 3; whnf); first | split)
    | dsimp -proj +zetaDelta only
    | dsimp only

theorem State.sendAnswered_keep (s : State) (p : ChanPkt) : Keep 0x3EFF9ECFB s (State.sendAnswered s p).2.2 := by
  unfold State.sendAnswered
  repeat' first
    | exact rfl
    | with_reducible apply Keep.refl
    | with_reducible assumption
    | with_reducible apply Keep.via (State.discard_keep ..)
    | with_reducible apply Keep.via (State.sat_keep ..)
    | with_reducible apply Keep.via (State.setSpn_keep ..)
    | with_reducible apply Keep.ite
    | with_reducible apply Keep.ite_snd2
    | with_reducible apply Keep.ite_snd
    | split
    | extract_lets
    | dsimp -proj only
    | ((with_reducible conv => arg 3; whnf); first | split | with_reducible apply Keep.setFab)
    | dsimp -proj +zetaDelta only
    | dsimp only

theorem execChannelAccept_keep (p : ChanPkt) (s : State) : KeepR 0x2EFF9ECBB s (execChannelAccept p s) := by
  unfold execChannelAccept
  repeat' first
    | exact rfl
    | with_reducible apply Keep.refl
    | with_reducible assumption
    | with_reducible apply KeepR.refused
    | with_reducible apply KeepR.next
    | with_reducible apply Keep.via (State.absorbLoad_keep ..)
    | with_reducible apply Keep.via (State.takeLoad_keep ..)
    | with_reducible apply Keep.via (State.sendAnswered_keep ..)
    | with_reducible apply Keep.via (State.sat_keep ..)
    | split
    | extract_lets
    | dsimp -proj only
    | ((with_reducible conv => arg 3; whnf); first | split)
    | dsimp -proj +zetaDelta only
    | dsimp only

theorem execChannelClosed_keep (p : ChanPkt) (s : State) : KeepR 0x2EFF9ECBB s (execChannelClosed p s) := by
  unfold execChannelClosed
  repeat' first
    | exact rfl
    | with_reducible apply Keep.refl
    | with_reducible assumption
    | with_reducible apply KeepR.refused
    | with_reducible apply KeepR.next
    | with_reducible apply Keep.via (State.absorbLoad_keep ..)
    | with_reducible apply Keep.via (State.takeLoad_keep ..)
    | with_reducible apply Keep.via (State.sendAnswered_keep ..)
    | with_reducible apply Keep.via (State.closeOut_keep ..)
    | split
    | extract_lets
    | dsimp -proj only
    | ((with_reducible conv => arg 3; whnf); first | split)
    | dsimp -proj +zetaDelta only
    | dsimp only

theorem execChannelCredit_keep (p : ChanPkt) (s : State) : KeepR 0x2EDF100BB s (execChannelCredit p s) := by
  unfold execChannelCredit
  repeat' first
    | exact rfl
    | with_reducible apply Keep.refl
    | with_reducible assumption
    | with_reducible apply KeepR.refused
    | with_reducible apply KeepR.next
    | with_reducible apply Keep.via (State.takeLoad_keep ..)
    | with_reducible apply Keep.via (State.putChanSpn_keep ..)
    | with_reducible apply Keep.ite
    | with_reducible apply KeepR.ite
    | split
    | extract_lets
    | dsimp -proj only
    | ((with_reducible conv => arg 3; whnf); first | split)
    | dsimp -proj +zetaDelta only
    | dsimp only

theorem execCloseNotice_keep (p : ChanPkt) (s : State) : KeepR 0x2EDF100BB s (execCloseNotice p s) := by
  unfold execCloseNotice
  repeat' first
    | exact rfl
    | with_reducible apply Keep.refl
    | with_reducible assumption
    | with_reducible apply KeepR.refused
    | with_reducible apply KeepR.next
    | with_reducible apply Keep.via (State.takeLoad_keep ..)
    | with_reducible apply Keep.via (State.putChanSpn_keep ..)
    | with_reducible apply Keep.via (State.sendChan_keep ..)
    | with_reducible apply Keep.via (State.pumpQueue_keep ..)
    | with_reducible apply Keep.ite
    | with_reducible apply KeepR.ite
    | split
    | extract_lets
    | dsimp -proj only
    | ((with_reducible conv => arg 3; whnf); first | split)
    | dsimp -proj +zetaDelta only
    | dsimp only

theorem execEndMark_keep (p : ChanPkt) (s : State) : KeepR 0x2EDF100BB s (execEndMark p s) := by
  unfold execEndMark
  repeat' first
    | exact rfl
    | with_reducible apply Keep.refl
    | with_reducible assumption
    | with_reducible apply KeepR.refused
    | with_reducible apply KeepR.next
    | with_reducible apply Keep.via (State.takeLoad_keep ..)
    | with_reducible apply Keep.via (State.putChanSpn_keep ..)
    | with_reducible apply Keep.via (State.pumpQueue_keep ..)
    | with_reducible apply Keep.ite
    | with_reducible apply KeepR.ite
    | split
    | extract_lets
    | dsimp -proj only
    | ((with_reducible conv => arg 3; whnf); first | split)
    | dsimp -proj +zetaDelta only
    | dsimp only

theorem execStallThreshold_keep (ps : Fin 18) (s : State) : KeepR 0x3EDF14CBB s (execStallThreshold ps s) := by
  unfold execStallThreshold
  repeat' first
    | exact rfl
    | with_reducible apply Keep.refl
    | with_reducible assumption
    | with_reducible apply KeepR.refused
    | with_reducible apply KeepR.next
    | with_reducible apply Keep.via (State.knotCheck_keep ..)
    | with_reducible apply Keep.via (State.stallEvents_keep ..)
    | dsimp -proj only
    | ((with_reducible conv => arg 3; whnf); first | split)
    | dsimp -proj +zetaDelta only
    | dsimp only


end Sys2Proof.Machine
end

