-- ==== Sys2Proof/Laws/KeepFabRows.lean ====
section
/-! SUPPORT. What each operation of Machine/FabRows.lean leaves alone (Laws/Keep.lean). -/

namespace Sys2Proof.Machine

set_option linter.unusedTactic false
set_option linter.unreachableTactic false

theorem State.countFec_keep (s : State) (h ce ue : Nat) : Keep 0x3EFF9FCBB s (State.countFec s h ce ue) := by
  unfold State.countFec
  repeat' first
    | exact rfl
    | with_reducible apply Keep.refl
    | with_reducible assumption
    | with_reducible apply Keep.via (State.sat_keep ..)
    | with_reducible apply Keep.via (State.setHalf_keep ..)
    | with_reducible apply Keep.via (State.breachHalf_keep ..)
    | with_reducible apply Keep.ite
    | split
    | extract_lets
    | dsimp -proj only
    | ((with_reducible conv => arg 3; whnf); first | split)
    | dsimp -proj +zetaDelta only
    | dsimp only

theorem State.sendResponse_keep (s : State) (p : Pkt) (data : List Byte) (poison : Nat) : Keep 0x3EFF9FCBB s (State.sendResponse s p data poison) := by
  unfold State.sendResponse
  repeat' first
    | exact rfl
    | with_reducible apply Keep.refl
    | with_reducible assumption
    | with_reducible apply Keep.via (State.inject_keep ..)
    | with_reducible apply Keep.foldl
    | with_reducible apply Keep.foldl_snd
    | with_reducible apply Keep.foldl_fst
    | (intro _ _)
    | extract_lets
    | dsimp -proj only
    | ((with_reducible conv => arg 3; whnf); first | split)
    | dsimp -proj +zetaDelta only
    | dsimp only

theorem State.sendAck_keep (s : State) (p : Pkt) (status : Nat) : Keep 0x3EFF9FCBB s (State.sendAck s p status) := by
  unfold State.sendAck
  repeat' first
    | exact rfl
    | with_reducible apply Keep.refl
    | with_reducible assumption
    | with_reducible apply Keep.via (State.sendCtl_keep ..)
    | dsimp -proj only
    | ((with_reducible conv => arg 3; whnf); first | split)
    | dsimp -proj +zetaDelta only
    | dsimp only

theorem State.refuse_keep (s : State) (p : Pkt) (reason : Nat) (status : Option Nat) : Keep 0x3EFF9FCBB s (State.refuse s p reason status) := by
  unfold State.refuse
  repeat' first
    | exact rfl
    | with_reducible apply Keep.refl
    | with_reducible assumption
    | with_reducible apply Keep.via (State.discard_keep ..)
    | with_reducible apply Keep.via (State.sendResponse_keep ..)
    | with_reducible apply Keep.via (State.sendAck_keep ..)
    | with_reducible apply Keep.ite
    | split
    | extract_lets
    | dsimp -proj only
    | ((with_reducible conv => arg 3; whnf); first | split)
    | dsimp -proj +zetaDelta only
    | dsimp only

theorem State.deliverPkt_keep (s : State) (h : Nat) (p : Pkt) : Keep 0x3CFF9FCBB s (State.deliverPkt s h p) := by
  unfold State.deliverPkt
  repeat' first
    | exact rfl
    | with_reducible apply Keep.refl
    | with_reducible assumption
    | with_reducible apply Keep.via (State.refuse_keep ..)
    | with_reducible apply Keep.via (State.addrError_keep ..)
    | with_reducible apply Keep.via (State.send_keep ..)
    | with_reducible apply Keep.via (State.arrive_keep ..)
    | with_reducible apply Keep.foldl
    | with_reducible apply Keep.foldl_snd
    | with_reducible apply Keep.foldl_fst
    | (intro _ _)
    | with_reducible apply Keep.ite
    | split
    | extract_lets
    | dsimp -proj only
    | ((with_reducible conv => arg 3; whnf); first | split)
    | dsimp -proj +zetaDelta only
    | dsimp only

theorem State.rxPacket_keep (s : State) (h vc : Nat) (body : List Byte) (pad : Bool) : Keep 0x3CFF9FCBB s (State.rxPacket s h vc body pad) := by
  unfold State.rxPacket
  repeat' first
    | exact rfl
    | with_reducible apply Keep.refl
    | with_reducible assumption
    | with_reducible apply Keep.via (State.discard_keep ..)
    | with_reducible apply Keep.via (State.copyMcast_keep ..)
    | with_reducible apply Keep.via (State.deliverPkt_keep ..)
    | with_reducible apply Keep.via (State.routePkt_keep ..)
    | with_reducible apply Keep.ite
    | split
    | extract_lets
    | dsimp -proj only
    | ((with_reducible conv => arg 3; whnf); first | split)
    | dsimp -proj +zetaDelta only
    | dsimp only

theorem State.notePartner_keep (s : State) (h : Nat) (src : List Byte) : Keep 0x3FFFFFFFB s (State.notePartner s h src) := by
  unfold State.notePartner
  repeat' first
    | exact rfl
    | with_reducible apply Keep.refl
    | with_reducible assumption
    | with_reducible apply Keep.via (State.wr_keep ..)
    | with_reducible apply Keep.ite
    | split
    | extract_lets
    | dsimp -proj only
    | ((with_reducible conv => arg 3; whnf); first | split)
    | dsimp -proj +zetaDelta only
    | dsimp only

theorem State.routerLink_keep (s : State) (h : Nat) (e : LinkErrs) (body : List Byte) : Keep 0x3E9214CBB s (State.routerLink s h e body).1 := by
  unfold State.routerLink
  repeat' first
    | exact rfl
    | with_reducible apply Keep.refl
    | with_reducible assumption
    | with_reducible apply Keep.via (State.linkErrs_keep ..)
    | with_reducible apply Keep.ite
    | with_reducible apply Keep.ite_fst
    | split
    | dsimp -proj only
    | ((with_reducible conv => arg 3; whnf); first | split)
    | dsimp -proj +zetaDelta only
    | dsimp only

theorem State.pauseHalf_keep (s : State) (h : Nat) (l : List (Nat × Nat)) : Keep 0x3FFFBFFFF s (State.pauseHalf s h l) := by
  unfold State.pauseHalf
  repeat' first
    | exact rfl
    | with_reducible apply Keep.refl
    | with_reducible assumption
    | with_reducible apply Keep.via (State.setHalf_keep ..)
    | with_reducible apply Keep.foldl
    | with_reducible apply Keep.foldl_snd
    | with_reducible apply Keep.foldl_fst
    | (intro _ _)
    | with_reducible apply Keep.ite
    | split
    | extract_lets
    | dsimp -proj only
    | ((with_reducible conv => arg 3; whnf); first | split)
    | dsimp -proj +zetaDelta only
    | dsimp only

theorem execFrameReceive_keep (h : Fin 32) (bytes : List Byte) (ce ue : Nat) (inFrame : Bool) (e : LinkErrs) (s : State) : KeepR 0x3C9214CBB s (execFrameReceive h bytes ce ue inFrame e s) := by
  unfold execFrameReceive
  repeat' first
    | exact rfl
    | with_reducible apply Keep.refl
    | with_reducible assumption
    | with_reducible apply KeepR.refused
    | with_reducible apply KeepR.next
    | with_reducible apply Keep.via (State.countFec_keep ..)
    | with_reducible apply Keep.via (State.add64_keep ..)
    | with_reducible apply Keep.via (State.sat_keep ..)
    | with_reducible apply Keep.via (State.discard_keep ..)
    | with_reducible apply Keep.via (State.send_keep ..)
    | with_reducible apply Keep.via (State.pauseHalf_keep ..)
    | with_reducible apply Keep.via (State.routerLink_keep ..)
    | with_reducible apply Keep.via (State.notePartner_keep ..)
    | with_reducible apply Keep.via (State.rxPacket_keep ..)
    | with_reducible apply Keep.ite
    | with_reducible apply KeepR.ite
    | split
    | extract_lets
    | dsimp -proj only
    | ((with_reducible conv => arg 3; whnf); first | split)
    | dsimp -proj +zetaDelta only
    | dsimp only

theorem State.trackMark_keep (s : State) (p : Pkt) (e : TrkEnt) (poison : Bool) : Keep 0x3FFFBFFFB s (State.trackMark s p e poison).2.2 := by
  unfold State.trackMark
  repeat' first
    | exact rfl
    | with_reducible apply Keep.refl
    | with_reducible assumption
    | with_reducible apply Keep.via (State.syncTrk_keep ..)
    | with_reducible apply Keep.ite
    | with_reducible apply Keep.ite_snd2
    | with_reducible apply Keep.ite_snd
    | split
    | extract_lets
    | dsimp -proj only
    | ((with_reducible conv => arg 3; whnf); first | split | with_reducible apply Keep.setFab)
    | dsimp -proj +zetaDelta only
    | dsimp only

theorem State.opComplete_keep (s : State) (p : Pkt) (poison : Bool) : Keep 0x3EFF9ECAB s (State.opComplete s p poison) := by
  unfold State.opComplete
  repeat' first
    | exact rfl
    | with_reducible apply Keep.refl
    | with_reducible assumption
    | with_reducible apply Keep.via (State.wr_keep ..)
    | with_reducible apply Keep.via (State.dspCount_keep ..)
    | with_reducible apply Keep.via (State.sendAck_keep ..)
    | with_reducible apply Keep.ite
    | split
    | extract_lets
    | dsimp -proj only
    | ((with_reducible conv => arg 3; whnf); first | split)
    | dsimp -proj +zetaDelta only
    | dsimp only

theorem State.putPayload_keep (s : State) (p : Pkt) (ep : Bool) (a : Nat) (data : List Byte) (f : Flips) : Keep 0x3EDF100BB s (State.putPayload s p ep a data f).2 := by
  unfold State.putPayload
  repeat' first
    | exact rfl
    | with_reducible apply Keep.refl
    | with_reducible assumption
    | with_reducible apply Keep.via (State.sat_keep ..)
    | with_reducible apply Keep.via (State.devWrite_keep ..)
    | with_reducible apply Keep.ite
    | with_reducible apply Keep.ite_snd
    | split
    | extract_lets
    | dsimp -proj only
    | ((with_reducible conv => arg 3; whnf); first | split)
    | dsimp -proj +zetaDelta only
    | dsimp only

theorem State.applyWrite_keep (s : State) (p : Pkt) (f : Flips) : Keep 0x3EDF100AB s (State.applyWrite s p f).2.2 := by
  unfold State.applyWrite
  repeat' first
    | exact rfl
    | with_reducible apply Keep.refl
    | with_reducible assumption
    | with_reducible apply Keep.via (State.discard_keep ..)
    | with_reducible apply Keep.via (State.putPayload_keep ..)
    | with_reducible apply Keep.via (State.trackMark_keep ..)
    | with_reducible apply Keep.via (State.opComplete_keep ..)
    | with_reducible apply Keep.foldl
    | with_reducible apply Keep.foldl_snd
    | with_reducible apply Keep.foldl_fst
    | (intro _ _)
    | with_reducible apply Keep.ite
    | with_reducible apply Keep.ite_snd2
    | with_reducible apply Keep.ite_snd
    | split
    | extract_lets
    | dsimp -proj only
    | ((with_reducible conv => arg 3; whnf); first | split)
    | dsimp -proj +zetaDelta only
    | dsimp only

theorem State.keepEarly_keep (s : State) (half : Option Nat) (p : Pkt) (complete : Bool) : Keep 0x3FFF7FFFF s (State.keepEarly s half p complete) := by
  unfold State.keepEarly
  repeat' first
    | exact rfl
    | with_reducible apply Keep.refl
    | with_reducible assumption
    | with_reducible apply Keep.ite
    | split
    | dsimp -proj only
    | ((with_reducible conv => arg 3; whnf); first | split | with_reducible apply Keep.setColl)
    | dsimp -proj +zetaDelta only
    | dsimp only

theorem State.transportBad_keep (s : State) (half : Option Nat) (p : Pkt) (ecb : Nat) : Keep 0x3E9214CBB s (State.transportBad s half p ecb) := by
  unfold State.transportBad
  repeat' first
    | exact rfl
    | with_reducible apply Keep.refl
    | with_reducible assumption
    | with_reducible apply Keep.via (State.sat_keep ..)
    | with_reducible apply Keep.via (State.event_keep ..)
    | with_reducible apply Keep.via (State.reportHalf_keep ..)
    | with_reducible apply Keep.ite
    | split
    | extract_lets
    | dsimp -proj only
    | ((with_reducible conv => arg 3; whnf); first | split | with_reducible apply Keep.setColl)
    | dsimp -proj +zetaDelta only
    | dsimp only

theorem State.earlyWrite_keep (s : State) (half : Option Nat) (p : Pkt) (f : Flips) : Keep 0x3E92100AB s (State.earlyWrite s half p f) := by
  unfold State.earlyWrite
  repeat' first
    | exact rfl
    | with_reducible apply Keep.refl
    | with_reducible assumption
    | with_reducible apply Keep.via (State.transportBad_keep ..)
    | with_reducible apply Keep.via (State.applyWrite_keep ..)
    | with_reducible apply Keep.via (State.keepEarly_keep ..)
    | with_reducible apply Keep.ite
    | split
    | extract_lets
    | dsimp -proj only
    | ((with_reducible conv => arg 3; whnf); first | split)
    | dsimp -proj +zetaDelta only
    | dsimp only

theorem State.plainWrite_keep (s : State) (type : Nat) (half : Option Nat) (p : Pkt) (f : Flips) : KeepR 0x3E92100AB s (State.plainWrite s type half p f) := by
  unfold State.plainWrite
  repeat' first
    | exact rfl
    | with_reducible apply Keep.refl
    | with_reducible assumption
    | with_reducible apply KeepR.refused
    | with_reducible apply KeepR.next
    | with_reducible apply Keep.via (State.earlyWrite_keep ..)
    | with_reducible apply Keep.via (State.take_keep ..)
    | with_reducible apply Keep.ite
    | with_reducible apply KeepR.ite
    | split
    | dsimp -proj only
    | ((with_reducible conv => arg 3; whnf); first | split)
    | dsimp -proj +zetaDelta only
    | dsimp only

theorem execFabWrite_keep (half : Option Nat) (p : Pkt) (f : Flips) (s : State) : KeepR 0x3E92100AB s (execFabWrite half p f s) := by
  unfold execFabWrite
  repeat' first
    | exact rfl
    | with_reducible apply Keep.refl
    | with_reducible assumption
    | with_reducible apply KeepR.refused
    | with_reducible apply KeepR.next
    | with_reducible apply KeepR.via (State.plainWrite_keep ..)
    | dsimp -proj only
    | ((with_reducible conv => arg 3; whnf); first | split)
    | dsimp -proj +zetaDelta only
    | dsimp only

theorem execFabMulticastWrite_keep (half : Option Nat) (p : Pkt) (f : Flips) (s : State) : KeepR 0x3E92100AB s (execFabMulticastWrite half p f s) := by
  unfold execFabMulticastWrite
  repeat' first
    | exact rfl
    | with_reducible apply Keep.refl
    | with_reducible assumption
    | with_reducible apply KeepR.refused
    | with_reducible apply KeepR.next
    | with_reducible apply KeepR.via (State.plainWrite_keep ..)
    | dsimp -proj only
    | ((with_reducible conv => arg 3; whnf); first | split)
    | dsimp -proj +zetaDelta only
    | dsimp only

theorem execFabReadRequest_keep (half : Option Nat) (p : Pkt) (f : Flips) (s : State) : KeepR 0x3EFF980AB s (execFabReadRequest half p f s) := by
  unfold execFabReadRequest
  repeat' first
    | exact rfl
    | with_reducible apply Keep.refl
    | with_reducible assumption
    | with_reducible apply KeepR.refused
    | with_reducible apply KeepR.next
    | with_reducible apply Keep.via (State.take_keep ..)
    | with_reducible apply Keep.via (State.discard_keep ..)
    | with_reducible apply Keep.via (State.sat_keep ..)
    | with_reducible apply Keep.via (State.sendResponse_keep ..)
    | with_reducible apply Keep.via (State.opComplete_keep ..)
    | with_reducible apply Keep.via (State.trackMark_keep ..)
    | with_reducible apply Keep.via (State.devRead_keep ..)
    | with_reducible apply Keep.ite
    | with_reducible apply KeepR.ite
    | split
    | extract_lets
    | dsimp -proj only
    | ((with_reducible conv => arg 3; whnf); first | split)
    | dsimp -proj +zetaDelta only
    | dsimp only

theorem execFabAtomic_keep (half : Option Nat) (p : Pkt) (f : Flips) (s : State) : KeepR 0x3EDF100AB s (execFabAtomic half p f s) := by
  unfold execFabAtomic
  repeat' first
    | exact rfl
    | with_reducible apply Keep.refl
    | with_reducible assumption
    | with_reducible apply KeepR.refused
    | with_reducible apply KeepR.next
    | with_reducible apply Keep.via (State.take_keep ..)
    | with_reducible apply Keep.via (State.discard_keep ..)
    | with_reducible apply Keep.via (State.sat_keep ..)
    | with_reducible apply Keep.via (State.sendResponse_keep ..)
    | with_reducible apply Keep.via (State.opComplete_keep ..)
    | with_reducible apply Keep.via (State.trackMark_keep ..)
    | with_reducible apply Keep.via (State.devAtomic_keep ..)
    | with_reducible apply Keep.ite
    | with_reducible apply KeepR.ite
    | split
    | extract_lets
    | dsimp -proj only
    | ((with_reducible conv => arg 3; whnf); first | split)
    | dsimp -proj +zetaDelta only
    | dsimp only

theorem State.dropOp_keep (s : State) (o : FabOp) : Keep 0x3FFFBFFFF s (State.dropOp s o) := by
  unfold State.dropOp
  repeat' first
    | exact rfl
    | with_reducible apply Keep.refl
    | with_reducible assumption
    | dsimp -proj only
    | ((with_reducible conv => arg 3; whnf); first | split | with_reducible apply Keep.setFab)
    | dsimp -proj +zetaDelta only
    | dsimp only

theorem State.restoreBytes_keep (s : State) (off : Nat) (data : List Byte) (poison : Bool) : Keep 0x3FDFFFFFF s (State.restoreBytes s off data poison) := by
  unfold State.restoreBytes
  repeat' first
    | exact rfl
    | with_reducible apply Keep.refl
    | with_reducible assumption
    | with_reducible apply Keep.ite
    | split
    | extract_lets
    | dsimp -proj only
    | ((with_reducible conv => arg 3; whnf); first | split | with_reducible apply Keep.setReel)
    | dsimp -proj +zetaDelta only
    | dsimp only

theorem execFabReadResponse_keep (half : Option Nat) (p : Pkt) (s : State) : KeepR 0x3EDF9ECAB s (execFabReadResponse half p s) := by
  unfold execFabReadResponse
  repeat' first
    | exact rfl
    | with_reducible apply Keep.refl
    | with_reducible assumption
    | with_reducible apply KeepR.refused
    | with_reducible apply KeepR.next
    | with_reducible apply Keep.via (State.take_keep ..)
    | with_reducible apply Keep.via (State.discard_keep ..)
    | with_reducible apply Keep.via (State.trackMark_keep ..)
    | with_reducible apply Keep.via (State.restoreBytes_keep ..)
    | with_reducible apply Keep.via (State.dropOp_keep ..)
    | with_reducible apply Keep.via (State.opComplete_keep ..)
    | with_reducible apply Keep.ite
    | with_reducible apply KeepR.ite
    | split
    | extract_lets
    | dsimp -proj only
    | ((with_reducible conv => arg 3; whnf); first | split)
    | dsimp -proj +zetaDelta only
    | dsimp only


end Sys2Proof.Machine
end

