-- ==== Sys2Proof/Laws/KeepColl.lean ====
section
/-! SUPPORT. What each operation of Machine/Coll.lean leaves alone (Laws/Keep.lean). -/

namespace Sys2Proof.Machine

set_option linter.unusedTactic false
set_option linter.unreachableTactic false

theorem State.ctxRaise_keep (s : State) (ctx l c n : Nat) (poison : Bool) : Keep 0x3FFFFCFEF s (State.ctxRaise s ctx l c n poison) := by
  unfold State.ctxRaise
  repeat' first
    | exact rfl
    | with_reducible apply Keep.refl
    | with_reducible assumption
    | with_reducible apply Keep.via (State.raiseCounter_keep ..)
    | with_reducible apply Keep.via (State.setSlot_keep ..)
    | with_reducible apply Keep.ite
    | split
    | extract_lets
    | dsimp -proj only
    | ((with_reducible conv => arg 3; whnf); first | split)
    | dsimp -proj +zetaDelta only
    | dsimp only

theorem State.payReleases_keep (s : State) (ctx : Nat) : Keep 0x3FFFFCFEF s (State.payReleases s ctx) := by
  unfold State.payReleases
  repeat' first
    | exact rfl
    | with_reducible apply Keep.refl
    | with_reducible assumption
    | with_reducible apply Keep.via (State.ctxRaise_keep ..)
    | with_reducible apply Keep.via (State.setSlot_keep ..)
    | with_reducible apply Keep.foldl
    | with_reducible apply Keep.foldl_snd
    | with_reducible apply Keep.foldl_fst
    | (intro _ _)
    | with_reducible apply Keep.ite
    | split
    | dsimp -proj only
    | ((with_reducible conv => arg 3; whnf); first | split)
    | dsimp -proj +zetaDelta only
    | dsimp only

theorem State.payRunning_keep (s : State) : Keep 0x3FFFFCFEF s (State.payRunning s) := by
  unfold State.payRunning
  repeat' first
    | exact rfl
    | with_reducible apply Keep.refl
    | with_reducible assumption
    | with_reducible apply Keep.via (State.payReleases_keep ..)
    | with_reducible apply Keep.ite
    | split
    | dsimp -proj only
    | ((with_reducible conv => arg 3; whnf); first | split)
    | dsimp -proj +zetaDelta only
    | dsimp only

theorem State.ctxFlags_keep (s : State) (ctx l fl : Nat) : Keep 0x3FFFFDFFB s (State.ctxFlags s ctx l fl) := by
  unfold State.ctxFlags
  repeat' first
    | exact rfl
    | with_reducible apply Keep.refl
    | with_reducible assumption
    | with_reducible apply Keep.via (State.numFlags_keep ..)
    | with_reducible apply Keep.via (State.setSlot_keep ..)
    | with_reducible apply Keep.ite
    | split
    | extract_lets
    | dsimp -proj only
    | ((with_reducible conv => arg 3; whnf); first | split)
    | dsimp -proj +zetaDelta only
    | dsimp only

theorem State.putColl_keep (s : State) (c : Coll) : Keep 0x3FFF7FFFF s (State.putColl s c) := by
  unfold State.putColl
  repeat' first
    | exact rfl
    | with_reducible apply Keep.refl
    | with_reducible assumption
    | with_reducible apply Keep.ite
    | split
    | dsimp -proj only
    | ((with_reducible conv => arg 3; whnf); first | split | with_reducible apply Keep.setColl)
    | dsimp -proj +zetaDelta only
    | dsimp only

theorem State.dropColl_keep (s : State) (c : Coll) : Keep 0x3FFF7FFFF s (State.dropColl s c) := by
  unfold State.dropColl
  repeat' first
    | exact rfl
    | with_reducible apply Keep.refl
    | with_reducible assumption
    | dsimp -proj only
    | ((with_reducible conv => arg 3; whnf); first | split | with_reducible apply Keep.setColl)
    | dsimp -proj +zetaDelta only
    | dsimp only

theorem State.failColl_keep (s : State) (c : Coll) (cause rank : Nat) : Keep 0x3EDF100AB s (State.failColl s c cause rank) := by
  unfold State.failColl
  repeat' first
    | exact rfl
    | with_reducible apply Keep.refl
    | with_reducible assumption
    | with_reducible apply Keep.via (State.sat_keep ..)
    | with_reducible apply Keep.via (State.dropColl_keep ..)
    | with_reducible apply Keep.via (State.wr_keep ..)
    | with_reducible apply Keep.via (State.eventCtx_keep ..)
    | with_reducible apply Keep.via (State.faultCtx_keep ..)
    | with_reducible apply Keep.via (State.ctxRaise_keep ..)
    | extract_lets
    | dsimp -proj only
    | ((with_reducible conv => arg 3; whnf); first | split)
    | dsimp -proj +zetaDelta only
    | dsimp only

theorem State.nextFab_keep (s : State) (ep : Nat) : Keep 0x3FFFBFFFF s (State.nextFab s ep).2 := by
  unfold State.nextFab
  repeat' first
    | exact rfl
    | with_reducible apply Keep.refl
    | with_reducible assumption
    | extract_lets
    | dsimp -proj only
    | ((with_reducible conv => arg 3; whnf); first | split | with_reducible apply Keep.setFab)
    | dsimp -proj +zetaDelta only
    | dsimp only

theorem State.sendParts_keep (s : State) (c : Coll) (type dcoord addr cid group left : Nat) (shadow : Bool) (who : FabWho) (parts : List Part) : Keep 0x3EFF9FCBB s (State.sendParts s c type dcoord addr cid group left shadow who parts) := by
  unfold State.sendParts
  repeat' first
    | exact rfl
    | with_reducible apply Keep.refl
    | with_reducible assumption
    | with_reducible apply Keep.via (State.nextFab_keep ..)
    | with_reducible apply Keep.via (State.inject_keep ..)
    | with_reducible apply Keep.foldl
    | with_reducible apply Keep.foldl_snd
    | with_reducible apply Keep.foldl_fst
    | (intro _ _)
    | with_reducible apply Keep.ite
    | split
    | extract_lets
    | dsimp -proj only
    | ((with_reducible conv => arg 3; whnf); first | split | with_reducible apply Keep.setFab)
    | dsimp -proj +zetaDelta only
    | dsimp only

theorem State.contribution_keep (s : State) (c : Coll) (n : Nat) (f : Flips) : Keep 0x3EFFD90FB s (State.contribution s c n f).2.2 := by
  unfold State.contribution
  repeat' first
    | exact rfl
    | with_reducible apply Keep.refl
    | with_reducible assumption
    | with_reducible apply Keep.via (State.devRead_keep ..)
    | with_reducible apply Keep.ite
    | with_reducible apply Keep.ite_snd2
    | with_reducible apply Keep.ite_snd
    | split
    | extract_lets
    | dsimp -proj only
    | ((with_reducible conv => arg 3; whnf); first | split)
    | dsimp -proj +zetaDelta only
    | dsimp only

theorem State.sendShard_keep (s : State) (c : Coll) (shadow : Bool) (f : Flips) (n : Nat) : Keep 0x3EFF990BB s (State.sendShard s c shadow f n).1 := by
  unfold State.sendShard
  repeat' first
    | exact rfl
    | with_reducible apply Keep.refl
    | with_reducible assumption
    | with_reducible apply Keep.via (State.contribution_keep ..)
    | with_reducible apply Keep.via (State.sendParts_keep ..)
    | with_reducible apply Keep.foldl
    | with_reducible apply Keep.foldl_snd
    | with_reducible apply Keep.foldl_fst
    | (intro _ _)
    | with_reducible apply Keep.ite
    | with_reducible apply Keep.ite_fst
    | split
    | extract_lets
    | dsimp -proj only
    | ((with_reducible conv => arg 3; whnf); first | split)
    | dsimp -proj +zetaDelta only
    | dsimp only

theorem State.stagedElems_keep (s : State) (c : Coll) (g n r : Nat) (f : Flips) : Keep 0x3EFFD90FB s (State.stagedElems s c g n r f).2 := by
  unfold State.stagedElems
  repeat' first
    | exact rfl
    | with_reducible apply Keep.refl
    | with_reducible assumption
    | with_reducible apply Keep.via (State.devRead_keep ..)
    | extract_lets
    | dsimp -proj only
    | ((with_reducible conv => arg 3; whnf); first | split)
    | dsimp -proj +zetaDelta only
    | dsimp only

theorem State.allStaged_keep (s : State) (c : Coll) (g n : Nat) (incl : List Nat) (f : Flips) : Keep 0x3EFFD90FB s (State.allStaged s c g n incl f).2 := by
  unfold State.allStaged
  repeat' first
    | exact rfl
    | with_reducible apply Keep.refl
    | with_reducible assumption
    | with_reducible apply Keep.via (State.stagedElems_keep ..)
    | with_reducible apply Keep.foldl
    | with_reducible apply Keep.foldl_snd
    | with_reducible apply Keep.foldl_fst
    | (intro _ _)
    | extract_lets
    | dsimp -proj only
    | ((with_reducible conv => arg 3; whnf); first | split)
    | dsimp -proj +zetaDelta only
    | dsimp only

theorem State.distribute_keep (s : State) (c : Coll) (n : Nat) (incl : List Nat) (res : List (Nat × Bool)) : Keep 0x3EFF9FCBB s (State.distribute s c n incl res) := by
  unfold State.distribute
  repeat' first
    | exact rfl
    | with_reducible apply Keep.refl
    | with_reducible assumption
    | with_reducible apply Keep.via (State.sendParts_keep ..)
    | with_reducible apply Keep.foldl
    | with_reducible apply Keep.foldl_snd
    | with_reducible apply Keep.foldl_fst
    | (intro _ _)
    | with_reducible apply Keep.ite
    | split
    | extract_lets
    | dsimp -proj only
    | ((with_reducible conv => arg 3; whnf); first | split)
    | dsimp -proj +zetaDelta only
    | dsimp only

theorem State.reduceShard_keep (s : State) (c : Coll) (g : Nat) (incl : List Nat) (f : Flips) : Keep 0x3E92100AB s (State.reduceShard s c g incl f) := by
  unfold State.reduceShard
  repeat' first
    | exact rfl
    | with_reducible apply Keep.refl
    | with_reducible assumption
    | with_reducible apply Keep.via (State.allStaged_keep ..)
    | with_reducible apply Keep.via (State.reportColl_keep ..)
    | with_reducible apply Keep.via (State.sat_keep ..)
    | with_reducible apply Keep.via (State.event_keep ..)
    | with_reducible apply Keep.via (State.failColl_keep ..)
    | with_reducible apply Keep.via (State.putColl_keep ..)
    | with_reducible apply Keep.via (State.distribute_keep ..)
    | with_reducible apply Keep.foldl
    | with_reducible apply Keep.foldl_snd
    | with_reducible apply Keep.foldl_fst
    | (intro _ _)
    | with_reducible apply Keep.ite
    | split
    | extract_lets
    | dsimp -proj only
    | ((with_reducible conv => arg 3; whnf); first | split)
    | dsimp -proj +zetaDelta only
    | dsimp only

theorem State.sendSet_keep (s : State) (c : Coll) (r addr off : Nat) (b : List Byte) : Keep 0x3EDF100BB s (State.sendSet s c r addr off b) := by
  unfold State.sendSet
  repeat' first
    | exact rfl
    | with_reducible apply Keep.refl
    | with_reducible assumption
    | with_reducible apply Keep.via (State.devWrite_keep ..)
    | with_reducible apply Keep.via (State.wr_keep ..)
    | with_reducible apply Keep.via (State.nextFab_keep ..)
    | with_reducible apply Keep.via (State.inject_keep ..)
    | with_reducible apply Keep.ite
    | split
    | extract_lets
    | dsimp -proj only
    | ((with_reducible conv => arg 3; whnf); first | split | with_reducible apply Keep.setFab)
    | dsimp -proj +zetaDelta only
    | dsimp only

theorem State.noteDropped_keep (s : State) (c : Coll) (set : List Nat) : Keep 0x3EFFDFCFB s (State.noteDropped s c set) := by
  unfold State.noteDropped
  repeat' first
    | exact rfl
    | with_reducible apply Keep.refl
    | with_reducible assumption
    | with_reducible apply Keep.via (State.eventCtx_keep ..)
    | with_reducible apply Keep.via (State.sat_keep ..)
    | with_reducible apply Keep.foldl
    | with_reducible apply Keep.foldl_snd
    | with_reducible apply Keep.foldl_fst
    | (intro _ _)
    | dsimp -proj only
    | ((with_reducible conv => arg 3; whnf); first | split)
    | dsimp -proj +zetaDelta only
    | dsimp only

theorem State.takeAgreed_keep (s : State) (c : Coll) (set : List Nat) (f : Flips) : Keep 0x3E92100AB s (State.takeAgreed s c set f) := by
  unfold State.takeAgreed
  repeat' first
    | exact rfl
    | with_reducible apply Keep.refl
    | with_reducible assumption
    | with_reducible apply Keep.via (State.putColl_keep ..)
    | with_reducible apply Keep.via (State.noteDropped_keep ..)
    | with_reducible apply Keep.via (State.reduceShard_keep ..)
    | with_reducible apply Keep.ite
    | split
    | extract_lets
    | dsimp -proj only
    | ((with_reducible conv => arg 3; whnf); first | split)
    | dsimp -proj +zetaDelta only
    | dsimp only

theorem State.formAgreed_keep (s : State) (c : Coll) (f : Flips) : Keep 0x3E92100AB s (State.formAgreed s c f) := by
  unfold State.formAgreed
  repeat' first
    | exact rfl
    | with_reducible apply Keep.refl
    | with_reducible assumption
    | with_reducible apply Keep.via (State.failColl_keep ..)
    | with_reducible apply Keep.via (State.sendSet_keep ..)
    | with_reducible apply Keep.via (State.takeAgreed_keep ..)
    | with_reducible apply Keep.via (State.putColl_keep ..)
    | with_reducible apply Keep.foldl
    | with_reducible apply Keep.foldl_snd
    | with_reducible apply Keep.foldl_fst
    | (intro _ _)
    | with_reducible apply Keep.ite
    | split
    | extract_lets
    | dsimp -proj only
    | ((with_reducible conv => arg 3; whnf); first | split)
    | dsimp -proj +zetaDelta only
    | dsimp only

theorem State.sendReports_keep (s : State) (c : Coll) (f : Flips) : Keep 0x3E92100AB s (State.sendReports s c f) := by
  unfold State.sendReports
  repeat' first
    | exact rfl
    | with_reducible apply Keep.refl
    | with_reducible assumption
    | with_reducible apply Keep.via (State.sendSet_keep ..)
    | with_reducible apply Keep.via (State.formAgreed_keep ..)
    | with_reducible apply Keep.via (State.putColl_keep ..)
    | with_reducible apply Keep.foldl
    | with_reducible apply Keep.foldl_snd
    | with_reducible apply Keep.foldl_fst
    | (intro _ _)
    | with_reducible apply Keep.ite
    | split
    | extract_lets
    | dsimp -proj only
    | ((with_reducible conv => arg 3; whnf); first | split)
    | dsimp -proj +zetaDelta only
    | dsimp only

theorem State.progress_keep (s : State) (ecb : Nat) (late : Bool) (f : Flips) : Keep 0x3E92100AB s (State.progress s ecb late f) := by
  unfold State.progress
  repeat' first
    | exact rfl
    | with_reducible apply Keep.refl
    | with_reducible assumption
    | with_reducible apply Keep.via (State.reduceShard_keep ..)
    | with_reducible apply Keep.via (State.formAgreed_keep ..)
    | with_reducible apply Keep.via (State.sendReports_keep ..)
    | with_reducible apply Keep.ite
    | split
    | extract_lets
    | dsimp -proj only
    | ((with_reducible conv => arg 3; whnf); first | split)
    | dsimp -proj +zetaDelta only
    | dsimp only

theorem State.compareShadow_keep (s : State) (c : Coll) (g r : Nat) : Keep 0x3EFFDFCFB s (State.compareShadow s c g r) := by
  unfold State.compareShadow
  repeat' first
    | exact rfl
    | with_reducible apply Keep.refl
    | with_reducible assumption
    | with_reducible apply Keep.via (State.sat_keep ..)
    | with_reducible apply Keep.via (State.event_keep ..)
    | with_reducible apply Keep.ite
    | split
    | extract_lets
    | dsimp -proj only
    | ((with_reducible conv => arg 3; whnf); first | split)
    | dsimp -proj +zetaDelta only
    | dsimp only

theorem State.stage_keep (s : State) (c : Coll) (p : Pkt) (complete : Bool) (f : Flips) : Keep 0x3E92100AB s (State.stage s c p complete f) := by
  unfold State.stage
  repeat' first
    | exact rfl
    | with_reducible apply Keep.refl
    | with_reducible assumption
    | with_reducible apply Keep.via (State.failColl_keep ..)
    | with_reducible apply Keep.via (State.putColl_keep ..)
    | with_reducible apply Keep.via (State.progress_keep ..)
    | with_reducible apply Keep.via (State.compareShadow_keep ..)
    | with_reducible apply Keep.ite
    | split
    | extract_lets
    | dsimp -proj only
    | ((with_reducible conv => arg 3; whnf); first | split)
    | dsimp -proj +zetaDelta only
    | dsimp only

theorem execReduceContribution_keep (half : Option Nat) (p : Pkt) (f : Flips) (s : State) : KeepR 0x3E92100AB s (execReduceContribution half p f s) := by
  unfold execReduceContribution
  repeat' first
    | exact rfl
    | with_reducible apply Keep.refl
    | with_reducible assumption
    | with_reducible apply KeepR.refused
    | with_reducible apply KeepR.next
    | with_reducible apply Keep.via (State.take_keep ..)
    | with_reducible apply Keep.via (State.sat_keep ..)
    | with_reducible apply Keep.via (State.earlyWrite_keep ..)
    | with_reducible apply Keep.via (State.transportBad_keep ..)
    | with_reducible apply Keep.via (State.discard_keep ..)
    | with_reducible apply Keep.via (State.trackMark_keep ..)
    | with_reducible apply Keep.via (State.opComplete_keep ..)
    | with_reducible apply Keep.via (State.stage_keep ..)
    | with_reducible apply Keep.via (State.applyWrite_keep ..)
    | with_reducible apply Keep.ite
    | with_reducible apply KeepR.ite
    | split
    | extract_lets
    | dsimp -proj only
    | ((with_reducible conv => arg 3; whnf); first | split)
    | dsimp -proj +zetaDelta only
    | dsimp only

theorem State.recordDrops_keep (s : State) (c : Coll) : Keep 0x3EDF14CBB s (State.recordDrops s c) := by
  unfold State.recordDrops
  repeat' first
    | exact rfl
    | with_reducible apply Keep.refl
    | with_reducible assumption
    | with_reducible apply Keep.via (State.faultRunning_keep ..)
    | with_reducible apply Keep.via (State.event_keep ..)
    | with_reducible apply Keep.via (State.modRun_keep ..)
    | with_reducible apply Keep.ite
    | split
    | extract_lets
    | dsimp -proj only
    | ((with_reducible conv => arg 3; whnf); first | split)
    | dsimp -proj +zetaDelta only
    | dsimp only

theorem State.finishColl_keep (s : State) (c : Coll) : Keep 0x3EDF14CAB s (State.finishColl s c) := by
  unfold State.finishColl
  repeat' first
    | exact rfl
    | with_reducible apply Keep.refl
    | with_reducible assumption
    | with_reducible apply Keep.via (State.putColl_keep ..)
    | with_reducible apply Keep.via (State.sat_keep ..)
    | with_reducible apply Keep.via (State.dropColl_keep ..)
    | with_reducible apply Keep.via (State.ctxRaise_keep ..)
    | with_reducible apply Keep.via (State.ctxFlags_keep ..)
    | with_reducible apply Keep.via (State.wr_keep ..)
    | with_reducible apply Keep.via (State.recordDrops_keep ..)
    | with_reducible apply Keep.foldl
    | with_reducible apply Keep.foldl_snd
    | with_reducible apply Keep.foldl_fst
    | (intro _ _)
    | with_reducible apply Keep.ite
    | split
    | extract_lets
    | dsimp -proj only
    | ((with_reducible conv => arg 3; whnf); first | split)
    | dsimp -proj +zetaDelta only
    | dsimp only

theorem State.engineWrite_keep (s : State) (c : Coll) (off : Nat) (p : Pkt) (complete : Bool) (f : Flips) : Keep 0x3E92100AB s (State.engineWrite s c off p complete f) := by
  unfold State.engineWrite
  repeat' first
    | exact rfl
    | with_reducible apply Keep.refl
    | with_reducible assumption
    | with_reducible apply Keep.via (State.finishColl_keep ..)
    | with_reducible apply Keep.via (State.formAgreed_keep ..)
    | with_reducible apply Keep.via (State.putColl_keep ..)
    | with_reducible apply Keep.via (State.takeAgreed_keep ..)
    | with_reducible apply Keep.ite
    | split
    | extract_lets
    | dsimp -proj only
    | ((with_reducible conv => arg 3; whnf); first | split)
    | dsimp -proj +zetaDelta only
    | dsimp only

theorem State.engineRow_keep (s : State) (half : Option Nat) (p : Pkt) (off : Nat) (f : Flips) : KeepR 0x3E92100AB s (State.engineRow s half p off f) := by
  unfold State.engineRow
  repeat' first
    | exact rfl
    | with_reducible apply Keep.refl
    | with_reducible assumption
    | with_reducible apply KeepR.refused
    | with_reducible apply KeepR.next
    | with_reducible apply Keep.via (State.take_keep ..)
    | with_reducible apply Keep.via (State.transportBad_keep ..)
    | with_reducible apply Keep.via (State.applyWrite_keep ..)
    | with_reducible apply Keep.via (State.engineWrite_keep ..)
    | with_reducible apply Keep.ite
    | with_reducible apply KeepR.ite
    | split
    | extract_lets
    | dsimp -proj only
    | ((with_reducible conv => arg 3; whnf); first | split)
    | dsimp -proj +zetaDelta only
    | dsimp only

theorem execCollResultArrival_keep (half : Option Nat) (p : Pkt) (f : Flips) (s : State) : KeepR 0x3E92100AB s (execCollResultArrival half p f s) := by
  unfold execCollResultArrival
  repeat' first
    | exact rfl
    | with_reducible apply Keep.refl
    | with_reducible assumption
    | with_reducible apply KeepR.refused
    | with_reducible apply KeepR.next
    | with_reducible apply KeepR.via (State.engineRow_keep ..)
    | dsimp -proj only
    | ((with_reducible conv => arg 3; whnf); first | split)
    | dsimp -proj +zetaDelta only
    | dsimp only

theorem execCollReportArrival_keep (half : Option Nat) (p : Pkt) (f : Flips) (s : State) : KeepR 0x3E92100AB s (execCollReportArrival half p f s) := by
  unfold execCollReportArrival
  repeat' first
    | exact rfl
    | with_reducible apply Keep.refl
    | with_reducible assumption
    | with_reducible apply KeepR.refused
    | with_reducible apply KeepR.next
    | with_reducible apply KeepR.via (State.engineRow_keep ..)
    | dsimp -proj only
    | ((with_reducible conv => arg 3; whnf); first | split)
    | dsimp -proj +zetaDelta only
    | dsimp only

theorem execCollAgreedSetArrival_keep (half : Option Nat) (p : Pkt) (f : Flips) (s : State) : KeepR 0x3E92100AB s (execCollAgreedSetArrival half p f s) := by
  unfold execCollAgreedSetArrival
  repeat' first
    | exact rfl
    | with_reducible apply Keep.refl
    | with_reducible assumption
    | with_reducible apply KeepR.refused
    | with_reducible apply KeepR.next
    | with_reducible apply KeepR.via (State.engineRow_keep ..)
    | dsimp -proj only
    | ((with_reducible conv => arg 3; whnf); first | split)
    | dsimp -proj +zetaDelta only
    | dsimp only

theorem execCollDeadlineExpiry_keep (ecb : Nat) (f : Flips) (s : State) : KeepR 0x3E92100AB s (execCollDeadlineExpiry ecb f s) := by
  unfold execCollDeadlineExpiry
  repeat' first
    | exact rfl
    | with_reducible apply Keep.refl
    | with_reducible assumption
    | with_reducible apply KeepR.refused
    | with_reducible apply KeepR.next
    | with_reducible apply Keep.via (State.failColl_keep ..)
    | with_reducible apply Keep.via (State.progress_keep ..)
    | with_reducible apply Keep.ite
    | with_reducible apply KeepR.ite
    | split
    | dsimp -proj only
    | ((with_reducible conv => arg 3; whnf); first | split)
    | dsimp -proj +zetaDelta only
    | dsimp only

theorem execCollAgreeTimeout_keep (ecb : Nat) (f : Flips) (s : State) : KeepR 0x3E92100AB s (execCollAgreeTimeout ecb f s) := by
  unfold execCollAgreeTimeout
  repeat' first
    | exact rfl
    | with_reducible apply Keep.refl
    | with_reducible assumption
    | with_reducible apply KeepR.refused
    | with_reducible apply KeepR.next
    | with_reducible apply Keep.via (State.formAgreed_keep ..)
    | with_reducible apply Keep.via (State.failColl_keep ..)
    | with_reducible apply Keep.ite
    | with_reducible apply KeepR.ite
    | split
    | dsimp -proj only
    | ((with_reducible conv => arg 3; whnf); first | split)
    | dsimp -proj +zetaDelta only
    | dsimp only

theorem execCollResultTimeout_keep (ecb : Nat) (_f : Flips) (s : State) : KeepR 0x3EDF100AB s (execCollResultTimeout ecb _f s) := by
  unfold execCollResultTimeout
  repeat' first
    | exact rfl
    | with_reducible apply Keep.refl
    | with_reducible assumption
    | with_reducible apply KeepR.refused
    | with_reducible apply KeepR.next
    | with_reducible apply Keep.via (State.failColl_keep ..)
    | with_reducible apply Keep.ite
    | with_reducible apply KeepR.ite
    | split
    | dsimp -proj only
    | ((with_reducible conv => arg 3; whnf); first | split)
    | dsimp -proj +zetaDelta only
    | dsimp only

theorem State.spoil_keep (s : State) (c : Coll) (half : Option Nat) (p : Pkt) : Keep 0x3E9214CBB s (State.spoil s c half p) := by
  unfold State.spoil
  repeat' first
    | exact rfl
    | with_reducible apply Keep.refl
    | with_reducible assumption
    | with_reducible apply Keep.via (State.transportBad_keep ..)
    | with_reducible apply Keep.via (State.putColl_keep ..)
    | dsimp -proj only
    | ((with_reducible conv => arg 3; whnf); first | split)
    | dsimp -proj +zetaDelta only
    | dsimp only

theorem State.replayEarly_keep (s : State) (c : Coll) (f : Flips) : Keep 0x3E92100AB s (State.replayEarly s c f) := by
  unfold State.replayEarly
  repeat' first
    | exact rfl
    | with_reducible apply Keep.refl
    | with_reducible assumption
    | with_reducible apply Keep.via (State.spoil_keep ..)
    | with_reducible apply Keep.via (State.stage_keep ..)
    | with_reducible apply Keep.via (State.engineWrite_keep ..)
    | with_reducible apply Keep.foldl
    | with_reducible apply Keep.foldl_snd
    | with_reducible apply Keep.foldl_fst
    | (intro _ _)
    | with_reducible apply Keep.ite
    | split
    | extract_lets
    | dsimp -proj only
    | ((with_reducible conv => arg 3; whnf); first | split | with_reducible apply Keep.setColl)
    | dsimp -proj +zetaDelta only
    | dsimp only

theorem State.takeRequest_keep (s : State) (j : Slot) (l : Nat) (b : List Byte) (bad : Bool) (f : Flips) : Keep 0x3E92100AB s (State.takeRequest s j l b bad f) := by
  unfold State.takeRequest
  repeat' first
    | exact rfl
    | with_reducible apply Keep.refl
    | with_reducible assumption
    | with_reducible apply Keep.via (State.failColl_keep ..)
    | with_reducible apply Keep.via (State.devRead_keep ..)
    | with_reducible apply Keep.via (State.sendShard_keep ..)
    | with_reducible apply Keep.via (State.replayEarly_keep ..)
    | with_reducible apply Keep.via (State.putColl_keep ..)
    | with_reducible apply Keep.via (State.progress_keep ..)
    | with_reducible apply Keep.foldl
    | with_reducible apply Keep.foldl_snd
    | with_reducible apply Keep.foldl_fst
    | (intro _ _)
    | with_reducible apply Keep.ite
    | split
    | extract_lets
    | dsimp -proj only
    | ((with_reducible conv => arg 3; whnf); first | split | with_reducible apply Keep.setColl)
    | dsimp -proj +zetaDelta only
    | dsimp only

theorem State.pollRing_keep (n : Nat) (s : State) (l count : Nat) (f : Flips) :
    Keep 0x3E92100AB s (State.pollRing n s l count f) := by
  induction n generalizing s with
  | zero => exact Keep.refl _ _
  | succ n ih =>
    unfold State.pollRing
    split
    · exact Keep.refl _ _
    · extract_lets
      split
      · exact Keep.refl _ _
      · exact (Keep.via (State.takeRequest_keep ..) rfl (Keep.via (State.setSlot_keep ..) rfl
          (Keep.via (State.devRead_keep ..) rfl (Keep.refl _ _)))).trans (ih ..)

theorem execCollPoll_keep (f : Flips) (s : State) : KeepR 0x3E92100AB s (execCollPoll f s) := by
  unfold execCollPoll
  repeat' first
    | exact rfl
    | with_reducible apply Keep.refl
    | with_reducible assumption
    | with_reducible apply KeepR.refused
    | with_reducible apply KeepR.next
    | with_reducible apply Keep.via (State.devRead_keep ..)
    | with_reducible apply Keep.via (State.pollRing_keep ..)
    | with_reducible apply Keep.foldl
    | with_reducible apply Keep.foldl_snd
    | with_reducible apply Keep.foldl_fst
    | (intro _ _)
    | with_reducible apply Keep.ite
    | with_reducible apply KeepR.ite
    | split
    | extract_lets
    | dsimp -proj only
    | ((with_reducible conv => arg 3; whnf); first | split | with_reducible apply Keep.setColl)
    | dsimp -proj +zetaDelta only
    | dsimp only

theorem State.breachPeer_keep (s : State) (n cause : Nat) : Keep 0x3E92100AB s (State.breachPeer s n cause) := by
  unfold State.breachPeer
  repeat' first
    | exact rfl
    | with_reducible apply Keep.refl
    | with_reducible assumption
    | with_reducible apply Keep.via (State.event_keep ..)
    | with_reducible apply Keep.via (State.wf_keep ..)
    | with_reducible apply Keep.via (State.failColl_keep ..)
    | with_reducible apply Keep.via (State.progress_keep ..)
    | with_reducible apply Keep.foldl
    | with_reducible apply Keep.foldl_snd
    | with_reducible apply Keep.foldl_fst
    | (intro _ _)
    | with_reducible apply Keep.ite
    | split
    | extract_lets
    | dsimp -proj only
    | ((with_reducible conv => arg 3; whnf); first | split)
    | dsimp -proj +zetaDelta only
    | dsimp only

theorem State.peerInterval_keep (s : State) (n : Nat) : Keep 0x3E92100AB s (State.peerInterval s n) := by
  unfold State.peerInterval
  repeat' first
    | exact rfl
    | with_reducible apply Keep.refl
    | with_reducible assumption
    | with_reducible apply Keep.via (State.wf_keep ..)
    | with_reducible apply Keep.via (State.breachPeer_keep ..)
    | with_reducible apply Keep.ite
    | split
    | extract_lets
    | dsimp -proj only
    | ((with_reducible conv => arg 3; whnf); first | split | with_reducible apply Keep.setColl)
    | dsimp -proj +zetaDelta only
    | dsimp only

theorem State.partnerInterval_keep (s : State) (h : Nat) : Keep 0x3EFF9FCBB s (State.partnerInterval s h) := by
  unfold State.partnerInterval
  repeat' first
    | exact rfl
    | with_reducible apply Keep.refl
    | with_reducible assumption
    | with_reducible apply Keep.via (State.setHalf_keep ..)
    | with_reducible apply Keep.via (State.breachHalf_keep ..)
    | with_reducible apply Keep.ite
    | split
    | extract_lets
    | dsimp -proj only
    | ((with_reducible conv => arg 3; whnf); first | split)
    | dsimp -proj +zetaDelta only
    | dsimp only

theorem State.setHbAt_keep (s : State) (t : DWord) : Keep 0x3FFF7FFFF s (State.setHbAt s t) := by
  unfold State.setHbAt
  repeat' first
    | exact rfl
    | with_reducible apply Keep.refl
    | with_reducible assumption
    | dsimp -proj only
    | ((with_reducible conv => arg 3; whnf); first | split | with_reducible apply Keep.setColl)
    | dsimp -proj +zetaDelta only
    | dsimp only

theorem State.setHbSeq_keep (s : State) (n : Nat) : Keep 0x3FFF7FFFF s (State.setHbSeq s n) := by
  unfold State.setHbSeq
  repeat' first
    | exact rfl
    | with_reducible apply Keep.refl
    | with_reducible assumption
    | dsimp -proj only
    | ((with_reducible conv => arg 3; whnf); first | split | with_reducible apply Keep.setColl)
    | dsimp -proj +zetaDelta only
    | dsimp only

theorem State.sendBeats_keep (s : State) : Keep 0x3EFF1FCBB s (State.sendBeats s) := by
  unfold State.sendBeats
  repeat' first
    | exact rfl
    | with_reducible apply Keep.refl
    | with_reducible assumption
    | with_reducible apply Keep.via (State.toPeers_keep ..)
    | with_reducible apply Keep.via (State.setHbSeq_keep ..)
    | with_reducible apply Keep.via (State.toPartners_keep ..)
    | with_reducible apply Keep.ite
    | split
    | extract_lets
    | dsimp -proj only
    | ((with_reducible conv => arg 3; whnf); first | split)
    | dsimp -proj +zetaDelta only
    | dsimp only

theorem execHeartbeatInterval_keep (s : State) : KeepR 0x3E92100AB s (execHeartbeatInterval s) := by
  unfold execHeartbeatInterval
  repeat' first
    | exact rfl
    | with_reducible apply Keep.refl
    | with_reducible assumption
    | with_reducible apply KeepR.refused
    | with_reducible apply KeepR.next
    | with_reducible apply Keep.via (State.peerInterval_keep ..)
    | with_reducible apply Keep.via (State.setHbAt_keep ..)
    | with_reducible apply Keep.via (State.sendBeats_keep ..)
    | with_reducible apply Keep.via (State.partnerInterval_keep ..)
    | with_reducible apply Keep.foldl
    | with_reducible apply Keep.foldl_snd
    | with_reducible apply Keep.foldl_fst
    | (intro _ _)
    | with_reducible apply Keep.ite
    | with_reducible apply KeepR.ite
    | split
    | extract_lets
    | dsimp -proj only
    | ((with_reducible conv => arg 3; whnf); first | split)
    | dsimp -proj +zetaDelta only
    | dsimp only

theorem execHeartbeat_keep (half : Option Nat) (p : Pkt) (s : State) : KeepR 0x3FFF3FFBB s (execHeartbeat half p s) := by
  unfold execHeartbeat
  repeat' first
    | exact rfl
    | with_reducible apply Keep.refl
    | with_reducible assumption
    | with_reducible apply KeepR.refused
    | with_reducible apply KeepR.next
    | with_reducible apply Keep.via (State.take_keep ..)
    | with_reducible apply Keep.via (State.setHalf_keep ..)
    | with_reducible apply Keep.via (State.sat_keep ..)
    | with_reducible apply Keep.via (State.wf_keep ..)
    | with_reducible apply Keep.foldl
    | with_reducible apply Keep.foldl_snd
    | with_reducible apply Keep.foldl_fst
    | (intro _ _)
    | with_reducible apply Keep.ite
    | with_reducible apply KeepR.ite
    | split
    | extract_lets
    | dsimp -proj only
    | ((with_reducible conv => arg 3; whnf); first | split | with_reducible apply Keep.setColl)
    | dsimp -proj +zetaDelta only
    | dsimp only

theorem execBreachNotice_keep (half : Option Nat) (p : Pkt) (s : State) : KeepR 0x3E92100AB s (execBreachNotice half p s) := by
  unfold execBreachNotice
  repeat' first
    | exact rfl
    | with_reducible apply Keep.refl
    | with_reducible assumption
    | with_reducible apply KeepR.refused
    | with_reducible apply KeepR.next
    | with_reducible apply Keep.via (State.take_keep ..)
    | with_reducible apply Keep.via (State.breachHalf_keep ..)
    | with_reducible apply Keep.via (State.breachPeer_keep ..)
    | with_reducible apply Keep.foldl
    | with_reducible apply Keep.foldl_snd
    | with_reducible apply Keep.foldl_fst
    | (intro _ _)
    | with_reducible apply Keep.ite
    | with_reducible apply KeepR.ite
    | split
    | extract_lets
    | dsimp -proj only
    | ((with_reducible conv => arg 3; whnf); first | split)
    | dsimp -proj +zetaDelta only
    | dsimp only

theorem execFabAck_keep (half : Option Nat) (p : Pkt) (s : State) : KeepR 0x3EDF94CAB s (execFabAck half p s) := by
  unfold execFabAck
  repeat' first
    | exact rfl
    | with_reducible apply Keep.refl
    | with_reducible assumption
    | with_reducible apply KeepR.refused
    | with_reducible apply KeepR.next
    | with_reducible apply Keep.via (State.take_keep ..)
    | with_reducible apply Keep.via (State.discard_keep ..)
    | with_reducible apply Keep.via (State.dropOp_keep ..)
    | with_reducible apply Keep.via (State.modSpn_keep ..)
    | with_reducible apply Keep.via (State.payRunning_keep ..)
    | with_reducible apply Keep.via (State.ckptFail_keep ..)
    | with_reducible apply Keep.ite
    | with_reducible apply KeepR.ite
    | split
    | extract_lets
    | dsimp -proj only
    | ((with_reducible conv => arg 3; whnf); first | split | with_reducible apply Keep.setFab)
    | dsimp -proj +zetaDelta only
    | dsimp only


end Sys2Proof.Machine
end

