-- ==== Sys2Proof/Laws/KeepResets.lean ====
section
/-! SUPPORT. What each operation of Machine/Resets.lean leaves alone (Laws/Keep.lean). -/

namespace Sys2Proof.Machine

set_option linter.unusedTactic false
set_option linter.unreachableTactic false

theorem State.setResets_keep (s : State) (l : List Reset) : Keep 0x3FF7FFFFF s (State.setResets s l) := by
  unfold State.setResets
  repeat' first
    | exact rfl
    | with_reducible apply Keep.refl
    | with_reducible assumption
    | dsimp -proj only
    | ((with_reducible conv => arg 3; whnf); first | split | with_reducible apply Keep.setRst)
    | dsimp -proj +zetaDelta only
    | dsimp only

theorem State.putReset_keep (s : State) (r : Reset) : Keep 0x3FF7FFFFF s (State.putReset s r) := by
  unfold State.putReset
  repeat' first
    | exact rfl
    | with_reducible apply Keep.refl
    | with_reducible assumption
    | with_reducible apply Keep.via (State.setResets_keep ..)
    | with_reducible apply Keep.ite
    | split
    | dsimp -proj only
    | ((with_reducible conv => arg 3; whnf); first | split)
    | dsimp -proj +zetaDelta only
    | dsimp only

theorem State.unquiet_keep (s : State) (q : Bool) : Keep 0x3FFFBFFFF s (State.unquiet s q) := by
  unfold State.unquiet
  repeat' first
    | exact rfl
    | with_reducible apply Keep.refl
    | with_reducible assumption
    | dsimp -proj only
    | ((with_reducible conv => arg 3; whnf); first | split | with_reducible apply Keep.setFab)
    | dsimp -proj +zetaDelta only
    | dsimp only

theorem State.withdraw_keep (s : State) (cause : Nat) : Keep 0x3E9F14CBB s (State.withdraw s cause) := by
  unfold State.withdraw
  repeat' first
    | exact rfl
    | with_reducible apply Keep.refl
    | with_reducible assumption
    | with_reducible apply Keep.via (State.faultRunning_keep ..)
    | with_reducible apply Keep.via (State.quarEnd_keep ..)
    | with_reducible apply Keep.via (State.flashPut_keep ..)
    | with_reducible apply Keep.via (State.breachNotice_keep ..)
    | with_reducible apply Keep.via (State.setDev_keep ..)
    | with_reducible apply Keep.via (State.wf_keep ..)
    | extract_lets
    | dsimp -proj only
    | ((with_reducible conv => arg 3; whnf); first | split)
    | dsimp -proj +zetaDelta only
    | dsimp only

theorem State.halt_keep (s : State) (cause : Nat) : Keep 0x3EF59FCBB s (State.halt s cause) := by
  unfold State.halt
  repeat' first
    | exact rfl
    | with_reducible apply Keep.refl
    | with_reducible assumption
    | with_reducible apply Keep.via (State.breachNotice_keep ..)
    | with_reducible apply Keep.via (State.quarEnd_keep ..)
    | with_reducible apply Keep.via (State.alertOn_keep ..)
    | with_reducible apply Keep.via (State.stampDev_keep ..)
    | with_reducible apply Keep.via (State.toHalted_keep ..)
    | with_reducible apply Keep.ite
    | split
    | extract_lets
    | dsimp -proj only
    | ((with_reducible conv => arg 3; whnf); first | split)
    | dsimp -proj +zetaDelta only
    | dsimp only

theorem State.clearCounted_keep (s : State) : Keep 0x3FFFFFFFB s (State.clearCounted s) := by
  unfold State.clearCounted
  repeat' first
    | exact rfl
    | with_reducible apply Keep.refl
    | with_reducible assumption
    | with_reducible apply Keep.via (State.wr64_keep ..)
    | with_reducible apply Keep.foldl
    | with_reducible apply Keep.foldl_snd
    | with_reducible apply Keep.foldl_fst
    | (intro _ _)
    | dsimp -proj only
    | ((with_reducible conv => arg 3; whnf); first | split)
    | dsimp -proj +zetaDelta only
    | dsimp only

theorem State.returnService_keep (s : State) : Keep 0x3EBF9FCFB s (State.returnService s) := by
  unfold State.returnService
  repeat' first
    | exact rfl
    | with_reducible apply Keep.refl
    | with_reducible assumption
    | with_reducible apply Keep.via (State.clearCounted_keep ..)
    | with_reducible apply Keep.via (State.flashPut_keep ..)
    | with_reducible apply Keep.via (State.setDev_keep ..)
    | with_reducible apply Keep.via (State.wf_keep ..)
    | with_reducible apply Keep.via (State.unquiet_keep ..)
    | extract_lets
    | dsimp -proj only
    | ((with_reducible conv => arg 3; whnf); first | split)
    | dsimp -proj +zetaDelta only
    | dsimp only

theorem State.applyReturn_keep (s : State) : Keep 0x3EBF9FCFB s (State.applyReturn s) := by
  unfold State.applyReturn
  repeat' first
    | exact rfl
    | with_reducible apply Keep.refl
    | with_reducible assumption
    | with_reducible apply Keep.via (State.returnService_keep ..)
    | with_reducible apply Keep.via (State.clearCounted_keep ..)
    | with_reducible apply Keep.ite
    | split
    | dsimp -proj only
    | ((with_reducible conv => arg 3; whnf); first | split)
    | dsimp -proj +zetaDelta only
    | dsimp only

theorem State.withdrawFirst_keep (s : State) (cause : Nat) : Keep 0x3E9F14CBB s (State.withdrawFirst s cause) := by
  unfold State.withdrawFirst
  repeat' first
    | exact rfl
    | with_reducible apply Keep.refl
    | with_reducible assumption
    | with_reducible apply Keep.via (State.withdraw_keep ..)
    | with_reducible apply Keep.via (State.applyReturn_keep ..)
    | with_reducible apply Keep.ite
    | split
    | extract_lets
    | dsimp -proj only
    | ((with_reducible conv => arg 3; whnf); first | split)
    | dsimp -proj +zetaDelta only
    | dsimp only

theorem State.judgeReset_keep (s : State) (old : List Nat) : Keep 0x3E9F14CBB s (State.judgeReset s old) := by
  unfold State.judgeReset
  repeat' first
    | exact rfl
    | with_reducible apply Keep.refl
    | with_reducible assumption
    | with_reducible apply Keep.via (State.wr64_keep ..)
    | with_reducible apply Keep.via (State.withdraw_keep ..)
    | with_reducible apply Keep.via (State.event_keep ..)
    | with_reducible apply Keep.foldl
    | with_reducible apply Keep.foldl_snd
    | with_reducible apply Keep.foldl_fst
    | (intro _ _)
    | with_reducible apply Keep.ite
    | split
    | extract_lets
    | dsimp -proj only
    | ((with_reducible conv => arg 3; whnf); first | split)
    | dsimp -proj +zetaDelta only
    | dsimp only

theorem State.countReset_keep (s : State) : Keep 0x3E9F14CBB s (State.countReset s) := by
  unfold State.countReset
  repeat' first
    | exact rfl
    | with_reducible apply Keep.refl
    | with_reducible assumption
    | with_reducible apply Keep.via (State.applyReturn_keep ..)
    | with_reducible apply Keep.via (State.judgeReset_keep ..)
    | split
    | dsimp -proj only
    | ((with_reducible conv => arg 3; whnf); first | split)
    | dsimp -proj +zetaDelta only
    | dsimp only

theorem State.chipReset_keep (s : State) : Keep 0x20D0000B1 s s.chipReset := by
  refine ⟨fun i => ⟨rfl, rfl, twf_tset (twf_filter i.regs), i.flash, Nat.zero_le _, ⟨rfl, fun p hp => (List.not_mem_nil hp).elim⟩,
    rfl, rfl, rfl, ⟨Nat.zero_le _, Nat.zero_le _⟩⟩, fun n hn => ?_⟩
  unfold SameField
  split <;> first | rfl | trivial | (revert hn; decide)

theorem State.closeSpindle_keep (s : State) (ps : Nat) : Keep 0x3EFFDECFB s (State.closeSpindle s ps) := by
  unfold State.closeSpindle
  repeat' first
    | exact rfl
    | with_reducible apply Keep.refl
    | with_reducible assumption
    | with_reducible apply Keep.via (State.modSpn_keep ..)
    | with_reducible apply Keep.via (State.syncStop_keep ..)
    | with_reducible apply Keep.via (State.setSpnState_keep ..)
    | dsimp -proj only
    | ((with_reducible conv => arg 3; whnf); first | split)
    | dsimp -proj +zetaDelta only
    | dsimp only

theorem State.closePolder_keep (s : State) (p : Nat) : Keep 0x3EFFDFCFB s (State.closePolder s p) := by
  unfold State.closePolder
  repeat' first
    | exact rfl
    | with_reducible apply Keep.refl
    | with_reducible assumption
    | with_reducible apply Keep.via (State.wf_keep ..)
    | with_reducible apply Keep.via (State.event_keep ..)
    | with_reducible apply Keep.foldl
    | with_reducible apply Keep.foldl_snd
    | with_reducible apply Keep.foldl_fst
    | (intro _ _)
    | with_reducible apply Keep.ite
    | split
    | extract_lets
    | dsimp -proj only
    | ((with_reducible conv => arg 3; whnf); first | split)
    | dsimp -proj +zetaDelta only
    | dsimp only

theorem State.abortRoll_keep (s : State) (spins : List Nat) : Keep 0x3EFBDFCFB s (State.abortRoll s spins) := by
  unfold State.abortRoll
  repeat' first
    | exact rfl
    | with_reducible apply Keep.refl
    | with_reducible assumption
    | with_reducible apply Keep.via (State.event_keep ..)
    | with_reducible apply Keep.via (State.sat_keep ..)
    | with_reducible apply Keep.via (State.wf_keep ..)
    | with_reducible apply Keep.ite
    | split
    | extract_lets
    | dsimp -proj only
    | ((with_reducible conv => arg 3; whnf); first | split | with_reducible apply Keep.setHlth)
    | dsimp -proj +zetaDelta only
    | dsimp only

theorem State.resetContext_keep (s : State) (r : Reset) : Keep 0x3EDF14CBB s (State.resetContext s r) := by
  unfold State.resetContext
  repeat' first
    | exact rfl
    | with_reducible apply Keep.refl
    | with_reducible assumption
    | with_reducible apply Keep.via (State.quarEnd_keep ..)
    | with_reducible apply Keep.via (State.faultRunning_keep ..)
    | with_reducible apply Keep.via (State.event_keep ..)
    | with_reducible apply Keep.ite
    | split
    | extract_lets
    | dsimp -proj only
    | ((with_reducible conv => arg 3; whnf); first | split)
    | dsimp -proj +zetaDelta only
    | dsimp only

theorem State.closing_keep (s : State) (r : Reset) : Keep 0x3EDB14CBB s (State.closing s r) := by
  unfold State.closing
  repeat' first
    | exact rfl
    | with_reducible apply Keep.refl
    | with_reducible assumption
    | with_reducible apply Keep.via (State.breachNotice_keep ..)
    | with_reducible apply Keep.via (State.closeSpindle_keep ..)
    | with_reducible apply Keep.via (State.syncUnits_keep ..)
    | with_reducible apply Keep.via (State.closePolder_keep ..)
    | with_reducible apply Keep.via (State.abortRoll_keep ..)
    | with_reducible apply Keep.via (State.resetContext_keep ..)
    | with_reducible apply Keep.foldl
    | with_reducible apply Keep.foldl_snd
    | with_reducible apply Keep.foldl_fst
    | (intro _ _)
    | with_reducible apply Keep.ite
    | split
    | extract_lets
    | dsimp -proj only
    | ((with_reducible conv => arg 3; whnf); first | split)
    | dsimp -proj +zetaDelta only
    | dsimp only

theorem State.beginReset_keep (s : State) (level scope source seq : Nat) (counted : Bool) (also : List Nat) (since : DWord) : Keep 0x3E9314CBB s (State.beginReset s level scope source seq counted also since) := by
  unfold State.beginReset
  repeat' first
    | exact rfl
    | with_reducible apply Keep.refl
    | with_reducible assumption
    | with_reducible apply Keep.via (State.event_keep ..)
    | with_reducible apply Keep.via (State.wr_keep ..)
    | with_reducible apply Keep.via (State.setResets_keep ..)
    | with_reducible apply Keep.via (State.countReset_keep ..)
    | with_reducible apply Keep.via (State.closing_keep ..)
    | with_reducible apply Keep.foldl
    | with_reducible apply Keep.foldl_snd
    | with_reducible apply Keep.foldl_fst
    | (intro _ _)
    | with_reducible apply Keep.ite
    | split
    | extract_lets
    | dsimp -proj only
    | ((with_reducible conv => arg 3; whnf); first | split)
    | dsimp -proj +zetaDelta only
    | dsimp only

theorem State.requestReset_keep (s : State) (level scope source : Nat) : Keep 0x3FF7FFFBF s (State.requestReset s level scope source).2 := by
  unfold State.requestReset
  repeat' first
    | exact rfl
    | with_reducible apply Keep.refl
    | with_reducible assumption
    | with_reducible apply Keep.via (State.send_keep ..)
    | extract_lets
    | dsimp -proj only
    | ((with_reducible conv => arg 3; whnf); first | split | with_reducible apply Keep.setRst)
    | dsimp -proj +zetaDelta only
    | dsimp only

theorem execResetRequest_keep (m : CtlMsg) (c : CtlWay) (s : State) : KeepR 0x3E9214CBB s (execResetRequest m c s) := by
  unfold execResetRequest
  repeat' first
    | exact rfl
    | with_reducible apply Keep.refl
    | with_reducible assumption
    | with_reducible apply KeepR.refused
    | with_reducible apply KeepR.next
    | with_reducible apply Keep.via (State.ctlWay_keep ..)
    | with_reducible apply Keep.via (State.take_keep ..)
    | with_reducible apply Keep.via (State.wr_keep ..)
    | with_reducible apply Keep.via (State.putReset_keep ..)
    | with_reducible apply Keep.via (State.countReset_keep ..)
    | with_reducible apply Keep.via (State.beginReset_keep ..)
    | with_reducible apply Keep.ite
    | with_reducible apply KeepR.ite
    | split
    | extract_lets
    | dsimp -proj only
    | ((with_reducible conv => arg 3; whnf); first | split)
    | dsimp -proj +zetaDelta only
    | dsimp only

theorem State.wipePolder_keep (s : State) (p : Nat) : Keep 0x3FFFFFFFB s (State.wipePolder s p) := by
  unfold State.wipePolder
  repeat' first
    | exact rfl
    | with_reducible apply Keep.refl
    | with_reducible assumption
    | with_reducible apply Keep.via (State.wr_keep ..)
    | with_reducible apply Keep.foldl
    | with_reducible apply Keep.foldl_snd
    | with_reducible apply Keep.foldl_fst
    | (intro _ _)
    | extract_lets
    | dsimp -proj only
    | ((with_reducible conv => arg 3; whnf); first | split)
    | dsimp -proj +zetaDelta only
    | dsimp only

theorem State.endLeases_keep (s old : State) : Keep 0x3EFFDFCFB s (State.endLeases s old) := by
  unfold State.endLeases
  repeat' first
    | exact rfl
    | with_reducible apply Keep.refl
    | with_reducible assumption
    | with_reducible apply Keep.via (State.event_keep ..)
    | with_reducible apply Keep.foldl
    | with_reducible apply Keep.foldl_snd
    | with_reducible apply Keep.foldl_fst
    | (intro _ _)
    | split
    | dsimp -proj only
    | ((with_reducible conv => arg 3; whnf); first | split)
    | dsimp -proj +zetaDelta only
    | dsimp only

theorem State.flagsGone_keep (s old : State) : Keep 0x3EFFDFCFB s (State.flagsGone s old) := by
  unfold State.flagsGone
  repeat' first
    | exact rfl
    | with_reducible apply Keep.refl
    | with_reducible assumption
    | with_reducible apply Keep.via (State.stampDev_keep ..)
    | with_reducible apply Keep.ite
    | split
    | dsimp -proj only
    | ((with_reducible conv => arg 3; whnf); first | split)
    | dsimp -proj +zetaDelta only
    | dsimp only

theorem execResetAssert_keep (seq : Nat) (s : State) : KeepR 0x20D0000B1 s (execResetAssert seq s) := by
  unfold execResetAssert
  repeat' first
    | exact rfl
    | with_reducible apply Keep.refl
    | with_reducible assumption
    | with_reducible apply KeepR.refused
    | with_reducible apply KeepR.next
    | with_reducible apply Keep.via (State.putReset_keep ..)
    | with_reducible apply Keep.via (State.flagsGone_keep ..)
    | with_reducible apply Keep.via (State.endLeases_keep ..)
    | with_reducible apply Keep.via (State.wf_keep ..)
    | with_reducible apply Keep.via (State.chipReset_keep ..)
    | with_reducible apply Keep.via (State.wipeSpindle_keep ..)
    | with_reducible apply Keep.via (State.wipePolder_keep ..)
    | with_reducible apply Keep.via (State.setDom_keep ..)
    | with_reducible apply Keep.foldl
    | with_reducible apply Keep.foldl_snd
    | with_reducible apply Keep.foldl_fst
    | (intro _ _)
    | with_reducible apply Keep.ite
    | with_reducible apply KeepR.ite
    | split
    | extract_lets
    | dsimp -proj only
    | ((with_reducible conv => arg 3; whnf); first | split)
    | dsimp -proj +zetaDelta only
    | dsimp only

theorem execResetInit_keep (seq : Nat) (slow : List Nat) (s : State) : KeepR 0x3EF7CBCFB s (execResetInit seq slow s) := by
  unfold execResetInit
  repeat' first
    | exact rfl
    | with_reducible apply Keep.refl
    | with_reducible assumption
    | with_reducible apply KeepR.refused
    | with_reducible apply KeepR.next
    | with_reducible apply Keep.via (State.putReset_keep ..)
    | with_reducible apply Keep.via (State.setDom_keep ..)
    | with_reducible apply Keep.via (State.setSpnState_keep ..)
    | with_reducible apply Keep.via (State.setChan_keep ..)
    | with_reducible apply Keep.via (State.wf_keep ..)
    | with_reducible apply Keep.via (State.event_keep ..)
    | with_reducible apply Keep.foldl
    | with_reducible apply Keep.foldl_snd
    | with_reducible apply Keep.foldl_fst
    | (intro _ _)
    | with_reducible apply Keep.ite
    | with_reducible apply KeepR.ite
    | split
    | extract_lets
    | dsimp -proj only
    | ((with_reducible conv => arg 3; whnf); first | split)
    | dsimp -proj +zetaDelta only
    | dsimp only

theorem State.answerReset_keep (s : State) (seq level : Nat) : Keep 0x3CFF9FCBB s (State.answerReset s seq level) := by
  unfold State.answerReset
  repeat' first
    | exact rfl
    | with_reducible apply Keep.refl
    | with_reducible assumption
    | with_reducible apply Keep.via (State.finish_keep ..)
    | with_reducible apply Keep.ite
    | split
    | dsimp -proj only
    | ((with_reducible conv => arg 3; whnf); first | split)
    | dsimp -proj +zetaDelta only
    | dsimp only

theorem State.toTest_keep (s : State) (ps : Nat) : Keep 0x3FFBFFFFB s (State.toTest s ps) := by
  unfold State.toTest
  repeat' first
    | exact rfl
    | with_reducible apply Keep.refl
    | with_reducible assumption
    | with_reducible apply Keep.via (State.wf_keep ..)
    | with_reducible apply Keep.via (State.setSpnState_keep ..)
    | with_reducible apply Keep.ite
    | split
    | extract_lets
    | dsimp -proj only
    | ((with_reducible conv => arg 3; whnf); first | split | with_reducible apply Keep.setHlth)
    | dsimp -proj +zetaDelta only
    | dsimp only

theorem execResetComplete_keep (seq : Nat) (s : State) : KeepR 0x34F39FCBB s (execResetComplete seq s) := by
  unfold execResetComplete
  repeat' first
    | exact rfl
    | with_reducible apply Keep.refl
    | with_reducible assumption
    | with_reducible apply KeepR.refused
    | with_reducible apply KeepR.next
    | with_reducible apply Keep.via (State.setResets_keep ..)
    | with_reducible apply Keep.via (State.setDev_keep ..)
    | with_reducible apply Keep.via (State.toTest_keep ..)
    | with_reducible apply Keep.via (State.syncUnits_keep ..)
    | with_reducible apply Keep.via (State.syncStop_keep ..)
    | with_reducible apply Keep.via (State.wf_keep ..)
    | with_reducible apply Keep.via (State.event_keep ..)
    | with_reducible apply Keep.via (State.rebuild_keep ..)
    | with_reducible apply Keep.via (State.answerReset_keep ..)
    | with_reducible apply Keep.foldl
    | with_reducible apply Keep.foldl_snd
    | with_reducible apply Keep.foldl_fst
    | (intro _ _)
    | with_reducible apply Keep.ite
    | with_reducible apply KeepR.ite
    | split
    | extract_lets
    | dsimp -proj only
    | ((with_reducible conv => arg 3; whnf); first | split | with_reducible apply Keep.setBoot)
    | dsimp -proj +zetaDelta only
    | dsimp only

theorem execResetTimeout_keep (seq : Nat) (s : State) : KeepR 0x3E9114CBB s (execResetTimeout seq s) := by
  unfold execResetTimeout
  repeat' first
    | exact rfl
    | with_reducible apply Keep.refl
    | with_reducible assumption
    | with_reducible apply KeepR.refused
    | with_reducible apply KeepR.next
    | with_reducible apply Keep.via (State.setResets_keep ..)
    | with_reducible apply Keep.via (State.halt_keep ..)
    | with_reducible apply Keep.via (State.event_keep ..)
    | with_reducible apply Keep.via (State.wf_keep ..)
    | with_reducible apply Keep.via (State.sat_keep ..)
    | with_reducible apply Keep.via (State.beginReset_keep ..)
    | with_reducible apply Keep.foldl
    | with_reducible apply Keep.foldl_snd
    | with_reducible apply Keep.foldl_fst
    | (intro _ _)
    | with_reducible apply Keep.ite
    | with_reducible apply KeepR.ite
    | split
    | extract_lets
    | dsimp -proj only
    | ((with_reducible conv => arg 3; whnf); first | split | with_reducible apply Keep.setRst)
    | dsimp -proj +zetaDelta only
    | dsimp only

theorem execSysResetNAssert_keep (s : State) : KeepR 0x3FF7FFFBF s (execSysResetNAssert s) := by
  unfold execSysResetNAssert
  repeat' first
    | exact rfl
    | with_reducible apply Keep.refl
    | with_reducible assumption
    | with_reducible apply KeepR.refused
    | with_reducible apply KeepR.next
    | with_reducible apply Keep.via (State.requestReset_keep ..)
    | with_reducible apply Keep.ite
    | with_reducible apply KeepR.ite
    | split
    | dsimp -proj only
    | ((with_reducible conv => arg 3; whnf); first | split | with_reducible apply Keep.setRst)
    | dsimp -proj +zetaDelta only
    | dsimp only

theorem execSysResetNRelease_keep (width : Nat) (s : State) : KeepR 0x3EF7DFCFB s (execSysResetNRelease width s) := by
  unfold execSysResetNRelease
  repeat' first
    | exact rfl
    | with_reducible apply Keep.refl
    | with_reducible assumption
    | with_reducible apply KeepR.refused
    | with_reducible apply KeepR.next
    | with_reducible apply Keep.via (State.event_keep ..)
    | with_reducible apply Keep.ite
    | with_reducible apply KeepR.ite
    | split
    | dsimp -proj only
    | ((with_reducible conv => arg 3; whnf); first | split | with_reducible apply Keep.setRst)
    | dsimp -proj +zetaDelta only
    | dsimp only

theorem State.suspect_keep (s : State) (e : RanEnt) (mask : Nat) : Keep 0x3EF7DFCFB s (State.suspect s e mask) := by
  unfold State.suspect
  repeat' first
    | exact rfl
    | with_reducible apply Keep.refl
    | with_reducible assumption
    | with_reducible apply Keep.via (State.wf_keep ..)
    | with_reducible apply Keep.via (State.wr64_keep ..)
    | with_reducible apply Keep.via (State.event_keep ..)
    | with_reducible apply Keep.ite
    | split
    | extract_lets
    | dsimp -proj only
    | ((with_reducible conv => arg 3; whnf); first | split | with_reducible apply Keep.setRst)
    | dsimp -proj +zetaDelta only
    | dsimp only

theorem State.hang_keep (s : State) (ps src polder cnt : Nat) : Keep 0x3ED714CBB s (State.hang s ps src polder cnt) := by
  unfold State.hang
  repeat' first
    | exact rfl
    | with_reducible apply Keep.refl
    | with_reducible assumption
    | with_reducible apply Keep.via (State.event_keep ..)
    | with_reducible apply Keep.via (State.sat_keep ..)
    | with_reducible apply Keep.via (State.quarEnd_keep ..)
    | with_reducible apply Keep.via (State.faultRunning_keep ..)
    | with_reducible apply Keep.via (State.suspect_keep ..)
    | with_reducible apply Keep.via (State.requestReset_keep ..)
    | with_reducible apply Keep.foldl
    | with_reducible apply Keep.foldl_snd
    | with_reducible apply Keep.foldl_fst
    | (intro _ _)
    | with_reducible apply Keep.ite
    | split
    | extract_lets
    | dsimp -proj only
    | ((with_reducible conv => arg 3; whnf); first | split)
    | dsimp -proj +zetaDelta only
    | dsimp only

theorem State.dogTick_keep (s : State) : Keep 0x3FF7FFFFF s (State.dogTick s) := by
  unfold State.dogTick
  repeat' first
    | exact rfl
    | with_reducible apply Keep.refl
    | with_reducible assumption
    | with_reducible apply Keep.foldl
    | with_reducible apply Keep.foldl_snd
    | with_reducible apply Keep.foldl_fst
    | (intro _ _)
    | with_reducible apply Keep.ite
    | split
    | extract_lets
    | dsimp -proj only
    | ((with_reducible conv => arg 3; whnf); first | split | with_reducible apply Keep.setRst)
    | dsimp -proj +zetaDelta only
    | dsimp only

theorem execProgressWatchdogExpiry_keep (ps : Fin 18) (s : State) : KeepR 0x3ED714CBB s (execProgressWatchdogExpiry ps s) := by
  unfold execProgressWatchdogExpiry
  repeat' first
    | exact rfl
    | with_reducible apply Keep.refl
    | with_reducible assumption
    | with_reducible apply KeepR.refused
    | with_reducible apply KeepR.next
    | with_reducible apply Keep.via (State.hang_keep ..)
    | with_reducible apply Keep.ite
    | with_reducible apply KeepR.ite
    | split
    | extract_lets
    | dsimp -proj only
    | ((with_reducible conv => arg 3; whnf); first | split)
    | dsimp -proj +zetaDelta only
    | dsimp only

theorem execStallHangThreshold_keep (ps : Fin 18) (s : State) : KeepR 0x3ED714CBB s (execStallHangThreshold ps s) := by
  unfold execStallHangThreshold
  repeat' first
    | exact rfl
    | with_reducible apply Keep.refl
    | with_reducible assumption
    | with_reducible apply KeepR.refused
    | with_reducible apply KeepR.next
    | with_reducible apply Keep.via (State.hang_keep ..)
    | with_reducible apply Keep.via (State.setSpn_keep ..)
    | with_reducible apply Keep.ite
    | with_reducible apply KeepR.ite
    | split
    | extract_lets
    | dsimp -proj only
    | ((with_reducible conv => arg 3; whnf); first | split)
    | dsimp -proj +zetaDelta only
    | dsimp only

theorem State.countFtmo_keep (s : State) (ps dcoord : Nat) : Keep 0x3ED614CBB s (State.countFtmo s ps dcoord) := by
  unfold State.countFtmo
  repeat' first
    | exact rfl
    | with_reducible apply Keep.refl
    | with_reducible assumption
    | with_reducible apply Keep.via (State.hang_keep ..)
    | with_reducible apply Keep.ite
    | split
    | extract_lets
    | dsimp -proj only
    | ((with_reducible conv => arg 3; whnf); first | split | with_reducible apply Keep.setClk)
    | dsimp -proj +zetaDelta only
    | dsimp only

theorem State.restoreFail_keep (s : State) (cause : Nat) : Keep 0x3CDF9FCBB s (State.restoreFail s cause) := by
  unfold State.restoreFail
  repeat' first
    | exact rfl
    | with_reducible apply Keep.refl
    | with_reducible assumption
    | with_reducible apply Keep.via (State.event_keep ..)
    | with_reducible apply Keep.via (State.sat_keep ..)
    | with_reducible apply Keep.via (State.wf_keep ..)
    | with_reducible apply Keep.via (State.finish_keep ..)
    | with_reducible apply Keep.ite
    | split
    | extract_lets
    | dsimp -proj only
    | ((with_reducible conv => arg 3; whnf); first | split | with_reducible apply Keep.setFabReel)
    | dsimp -proj +zetaDelta only
    | dsimp only

theorem execFabOpTimeout_keep (sep op : Nat) (s : State) : KeepR 0x3CD614CAB s (execFabOpTimeout sep op s) := by
  unfold execFabOpTimeout
  repeat' first
    | exact rfl
    | with_reducible apply Keep.refl
    | with_reducible assumption
    | with_reducible apply KeepR.refused
    | with_reducible apply KeepR.next
    | with_reducible apply Keep.via (State.event_keep ..)
    | with_reducible apply Keep.via (State.dropOp_keep ..)
    | with_reducible apply Keep.via (State.countFtmo_keep ..)
    | with_reducible apply Keep.via (State.modSpn_keep ..)
    | with_reducible apply Keep.via (State.setSpn_keep ..)
    | with_reducible apply Keep.via (State.closeOut_keep ..)
    | with_reducible apply Keep.via (State.payRunning_keep ..)
    | with_reducible apply Keep.via (State.ckptFail_keep ..)
    | with_reducible apply Keep.via (State.restoreFail_keep ..)
    | with_reducible apply Keep.ite
    | with_reducible apply KeepR.ite
    | split
    | extract_lets
    | dsimp -proj only
    | ((with_reducible conv => arg 3; whnf); first | split)
    | dsimp -proj +zetaDelta only
    | dsimp only


end Sys2Proof.Machine
end

