-- ==== Sys2Proof/Laws/KeepCkpt.lean ====
section
/-! SUPPORT. What each operation of Machine/Ckpt.lean leaves alone (Laws/Keep.lean). -/

namespace Sys2Proof.Machine

set_option linter.unusedTactic false
set_option linter.unreachableTactic false

theorem State.newInterval_keep (s : State) : Keep 0x3FFFFFFFB s (State.newInterval s) := by
  unfold State.newInterval
  repeat' first
    | exact rfl
    | with_reducible apply Keep.refl
    | with_reducible assumption
    | with_reducible apply Keep.via (State.wr_keep ..)
    | extract_lets
    | dsimp -proj only
    | ((with_reducible conv => arg 3; whnf); first | split)
    | dsimp -proj +zetaDelta only
    | dsimp only

theorem State.reelWrite_keep (s : State) (k : Ckpt) (d : CkDest) (off : Nat) (data : List Byte) (poison : Nat) : Keep 0x3EFF9FCBB s (State.reelWrite s k d off data poison) := by
  unfold State.reelWrite
  repeat' first
    | exact rfl
    | with_reducible apply Keep.refl
    | with_reducible assumption
    | with_reducible apply Keep.via (State.nextFab_keep ..)
    | with_reducible apply Keep.via (State.inject_keep ..)
    | with_reducible apply Keep.via (State.add64_keep ..)
    | with_reducible apply Keep.foldl
    | with_reducible apply Keep.foldl_snd
    | with_reducible apply Keep.foldl_fst
    | (intro _ _)
    | extract_lets
    | dsimp -proj only
    | ((with_reducible conv => arg 3; whnf); first | split | with_reducible apply Keep.setFab)
    | dsimp -proj +zetaDelta only
    | dsimp only

theorem State.writeHeaders_keep (s : State) (k : Ckpt) (valid : Bool) : Keep 0x3EFF9FCBB s (State.writeHeaders s k valid) := by
  unfold State.writeHeaders
  repeat' first
    | exact rfl
    | with_reducible apply Keep.refl
    | with_reducible assumption
    | with_reducible apply Keep.via (State.reelWrite_keep ..)
    | with_reducible apply Keep.foldl
    | with_reducible apply Keep.foldl_snd
    | with_reducible apply Keep.foldl_fst
    | (intro _ _)
    | dsimp -proj only
    | ((with_reducible conv => arg 3; whnf); first | split)
    | dsimp -proj +zetaDelta only
    | dsimp only

theorem State.setCkpt_keep (s : State) (k : Ckpt) : Keep 0x3FDFFFFFF s (State.setCkpt s k) := by
  unfold State.setCkpt
  repeat' first
    | exact rfl
    | with_reducible apply Keep.refl
    | with_reducible assumption
    | dsimp -proj only
    | ((with_reducible conv => arg 3; whnf); first | split | with_reducible apply Keep.setReel)
    | dsimp -proj +zetaDelta only
    | dsimp only

theorem drainPiece_keep (k : Ckpt) (f : Flips) (a : Drained) (addr n : Nat) : Keep 0x3EFF990BB a.s (drainPiece k f a addr n).s := by
  unfold drainPiece
  repeat' first
    | exact rfl
    | with_reducible apply Keep.refl
    | with_reducible assumption
    | with_reducible apply Keep.via (State.devRead_keep ..)
    | with_reducible apply Keep.via (Drained.s_keep ..)
    | with_reducible apply Keep.via (State.reelWrite_keep ..)
    | with_reducible apply Keep.foldl
    | with_reducible apply Keep.foldl_snd
    | with_reducible apply Keep.foldl_fst
    | with_reducible apply Keep.foldl_of Drained.s
    | (intro _ _)
    | extract_lets
    | dsimp -proj only
    | ((with_reducible conv => arg 3; whnf); first | split)
    | dsimp -proj +zetaDelta only
    | dsimp only

theorem execCkptHeaderAcked_keep (f : Flips) (s : State) : KeepR 0x3EDF990BB s (execCkptHeaderAcked f s) := by
  unfold execCkptHeaderAcked
  repeat' first
    | exact rfl
    | with_reducible apply Keep.refl
    | with_reducible assumption
    | with_reducible apply KeepR.refused
    | with_reducible apply KeepR.next
    | with_reducible apply Keep.via (drainPiece_keep ..)
    | with_reducible apply Keep.via (State.setCkpt_keep ..)
    | with_reducible apply Keep.via (Drained.s_keep ..)
    | with_reducible apply Keep.foldl
    | with_reducible apply Keep.foldl_snd
    | with_reducible apply Keep.foldl_fst
    | with_reducible apply Keep.foldl_of Drained.s
    | (intro _ _)
    | with_reducible apply Keep.ite
    | with_reducible apply KeepR.ite
    | split
    | extract_lets
    | dsimp -proj only
    | ((with_reducible conv => arg 3; whnf); first | split)
    | dsimp -proj +zetaDelta only
    | dsimp only

theorem State.ckptValid_keep (s : State) : Keep 0x3EDF9FCBB s (State.ckptValid s) := by
  unfold State.ckptValid
  repeat' first
    | exact rfl
    | with_reducible apply Keep.refl
    | with_reducible assumption
    | with_reducible apply Keep.via (State.writeHeaders_keep ..)
    | with_reducible apply Keep.via (State.setCkpt_keep ..)
    | with_reducible apply Keep.ite
    | split
    | dsimp -proj only
    | ((with_reducible conv => arg 3; whnf); first | split)
    | dsimp -proj +zetaDelta only
    | dsimp only

theorem State.oweRelease_keep (s : State) (ctx : Nat) : Keep 0x3FFFFDFFF s (State.oweRelease s ctx) := by
  unfold State.oweRelease
  repeat' first
    | exact rfl
    | with_reducible apply Keep.refl
    | with_reducible assumption
    | with_reducible apply Keep.via (State.setSlot_keep ..)
    | with_reducible apply Keep.ite
    | split
    | dsimp -proj only
    | ((with_reducible conv => arg 3; whnf); first | split)
    | dsimp -proj +zetaDelta only
    | dsimp only

theorem execCkptDrainComplete_keep (s : State) : KeepR 0x3EDF94CAB s (execCkptDrainComplete s) := by
  unfold execCkptDrainComplete
  repeat' first
    | exact rfl
    | with_reducible apply Keep.refl
    | with_reducible assumption
    | with_reducible apply KeepR.refused
    | with_reducible apply KeepR.next
    | with_reducible apply Keep.via (State.setCkpt_keep ..)
    | with_reducible apply Keep.via (State.oweRelease_keep ..)
    | with_reducible apply Keep.via (State.wf_keep ..)
    | with_reducible apply Keep.via (State.ckptValid_keep ..)
    | with_reducible apply Keep.via (State.payRunning_keep ..)
    | with_reducible apply Keep.ite
    | with_reducible apply KeepR.ite
    | split
    | extract_lets
    | dsimp -proj only
    | ((with_reducible conv => arg 3; whnf); first | split | with_reducible apply Keep.setProt)
    | dsimp -proj +zetaDelta only
    | dsimp only

theorem execCkptCommitted_keep (s : State) : KeepR 0x3EDFDFCFB s (execCkptCommitted s) := by
  unfold execCkptCommitted
  repeat' first
    | exact rfl
    | with_reducible apply Keep.refl
    | with_reducible assumption
    | with_reducible apply KeepR.refused
    | with_reducible apply KeepR.next
    | with_reducible apply Keep.via (State.wr64_keep ..)
    | with_reducible apply Keep.via (State.wr_keep ..)
    | with_reducible apply Keep.via (State.wf_keep ..)
    | with_reducible apply Keep.via (State.event_keep ..)
    | with_reducible apply Keep.via (State.newInterval_keep ..)
    | with_reducible apply Keep.via (State.sat_keep ..)
    | with_reducible apply Keep.ite
    | with_reducible apply KeepR.ite
    | split
    | extract_lets
    | dsimp -proj only
    | ((with_reducible conv => arg 3; whnf); first | split | with_reducible apply Keep.setReel)
    | dsimp -proj +zetaDelta only
    | dsimp only

theorem execCkptDrainTimeout_keep (s : State) : KeepR 0x3EDF94CEB s (execCkptDrainTimeout s) := by
  unfold execCkptDrainTimeout
  repeat' first
    | exact rfl
    | with_reducible apply Keep.refl
    | with_reducible assumption
    | with_reducible apply KeepR.refused
    | with_reducible apply KeepR.next
    | with_reducible apply Keep.via (State.payRunning_keep ..)
    | with_reducible apply Keep.via (State.ckptFail_keep ..)
    | with_reducible apply Keep.ite
    | with_reducible apply KeepR.ite
    | split
    | dsimp -proj only
    | ((with_reducible conv => arg 3; whnf); first | split)
    | dsimp -proj +zetaDelta only
    | dsimp only

theorem State.ckptStart_keep (s : State) (j : Slot) (d : CkDesc) (v loss : Nat) : Keep 0x3EDF95CBB s (State.ckptStart s j d v loss) := by
  unfold State.ckptStart
  repeat' first
    | exact rfl
    | with_reducible apply Keep.refl
    | with_reducible assumption
    | with_reducible apply Keep.via (State.setCkpt_keep ..)
    | with_reducible apply Keep.via (State.setSlot_keep ..)
    | with_reducible apply Keep.via (State.wf_keep ..)
    | with_reducible apply Keep.via (State.writeHeaders_keep ..)
    | with_reducible apply Keep.via (State.event_keep ..)
    | extract_lets
    | dsimp -proj only
    | ((with_reducible conv => arg 3; whnf); first | split | with_reducible apply Keep.setProt)
    | dsimp -proj +zetaDelta only
    | dsimp only

theorem State.ckptAdvance_keep (s : State) (v loss : Nat) : Keep 0x3EDF94CAB s (State.ckptAdvance s v loss) := by
  unfold State.ckptAdvance
  repeat' first
    | exact rfl
    | with_reducible apply Keep.refl
    | with_reducible assumption
    | with_reducible apply Keep.via (State.ckptValid_keep ..)
    | with_reducible apply Keep.via (State.setCkpt_keep ..)
    | with_reducible apply Keep.via (State.ckptStart_keep ..)
    | with_reducible apply Keep.via (State.payRunning_keep ..)
    | with_reducible apply Keep.via (State.oweRelease_keep ..)
    | with_reducible apply Keep.via (State.setSlot_keep ..)
    | with_reducible apply Keep.ite
    | split
    | extract_lets
    | dsimp -proj only
    | ((with_reducible conv => arg 3; whnf); first | split)
    | dsimp -proj +zetaDelta only
    | dsimp only

theorem State.restoreRead_keep (s : State) (r : Restore) (off n : Nat) : Keep 0x3EFF9FCBB s (State.restoreRead s r off n) := by
  unfold State.restoreRead
  repeat' first
    | exact rfl
    | with_reducible apply Keep.refl
    | with_reducible assumption
    | with_reducible apply Keep.via (State.nextFab_keep ..)
    | with_reducible apply Keep.via (State.inject_keep ..)
    | extract_lets
    | dsimp -proj only
    | ((with_reducible conv => arg 3; whnf); first | split | with_reducible apply Keep.setFab)
    | dsimp -proj +zetaDelta only
    | dsimp only

theorem State.restoreStart_keep (s : State) (ctx coord ep addr : Nat) : Keep 0x3EDF9DCBB s (State.restoreStart s ctx coord ep addr) := by
  unfold State.restoreStart
  repeat' first
    | exact rfl
    | with_reducible apply Keep.refl
    | with_reducible assumption
    | with_reducible apply Keep.via (State.wf_keep ..)
    | with_reducible apply Keep.via (State.restoreRead_keep ..)
    | with_reducible apply Keep.via (State.modSlot_keep ..)
    | extract_lets
    | dsimp -proj only
    | ((with_reducible conv => arg 3; whnf); first | split | with_reducible apply Keep.setReel)
    | dsimp -proj +zetaDelta only
    | dsimp only

theorem execRestoreHeaderRead_keep (s : State) : KeepR 0x3CDF9FCBB s (execRestoreHeaderRead s) := by
  unfold execRestoreHeaderRead
  repeat' first
    | exact rfl
    | with_reducible apply Keep.refl
    | with_reducible assumption
    | with_reducible apply KeepR.refused
    | with_reducible apply KeepR.next
    | with_reducible apply Keep.via (State.restoreFail_keep ..)
    | with_reducible apply Keep.via (State.restoreRead_keep ..)
    | with_reducible apply Keep.foldl
    | with_reducible apply Keep.foldl_snd
    | with_reducible apply Keep.foldl_fst
    | (intro _ _)
    | with_reducible apply Keep.ite
    | with_reducible apply KeepR.ite
    | split
    | extract_lets
    | dsimp -proj only
    | ((with_reducible conv => arg 3; whnf); first | split | with_reducible apply Keep.setReel)
    | dsimp -proj +zetaDelta only
    | dsimp only

theorem State.putRegions_keep (s : State) (v : Nat) (f : Flips) (l : List CkRegion) (d : List Byte) (pm : Nat) :
    Keep 0x3EDF100BB s (s.putRegions v f l d pm) := by
  induction l generalizing s d pm with
  | nil => exact Keep.refl _ _
  | cons r rest ih => exact Keep.trans (Keep.via (State.devWrite_keep ..) rfl (Keep.refl _ _)) (ih ..)

theorem execRestoreDataDone_keep (f : Flips) (s : State) : KeepR 0x3CDF100BB s (execRestoreDataDone f s) := by
  unfold execRestoreDataDone
  repeat' first
    | exact rfl
    | with_reducible apply Keep.refl
    | with_reducible assumption
    | with_reducible apply KeepR.refused
    | with_reducible apply KeepR.next
    | with_reducible apply Keep.via (State.restoreFail_keep ..)
    | with_reducible apply Keep.via (State.putRegions_keep ..)
    | with_reducible apply Keep.via (State.modSlot_keep ..)
    | with_reducible apply Keep.via (State.event_keep ..)
    | with_reducible apply Keep.via (State.wf_keep ..)
    | with_reducible apply Keep.via (State.finish_keep ..)
    | with_reducible apply Keep.ite
    | with_reducible apply KeepR.ite
    | split
    | extract_lets
    | dsimp -proj only
    | ((with_reducible conv => arg 3; whnf); first | split | with_reducible apply Keep.setReel)
    | dsimp -proj +zetaDelta only
    | dsimp only

theorem State.restoreVerify_keep (s : State) (loss : Nat) : Keep 0x3EDF14CBB s (State.restoreVerify s loss) := by
  unfold State.restoreVerify
  repeat' first
    | exact rfl
    | with_reducible apply Keep.refl
    | with_reducible assumption
    | with_reducible apply Keep.via (State.wf_keep ..)
    | with_reducible apply Keep.via (State.setSlot_keep ..)
    | with_reducible apply Keep.via (State.event_keep ..)
    | with_reducible apply Keep.via (State.sat_keep ..)
    | with_reducible apply Keep.via (State.faultRunning_keep ..)
    | with_reducible apply Keep.ite
    | split
    | extract_lets
    | dsimp -proj only
    | ((with_reducible conv => arg 3; whnf); first | split)
    | dsimp -proj +zetaDelta only
    | dsimp only


end Sys2Proof.Machine
end

