-- ==== Sys2Proof/Laws/KeepSteps.lean ====
section
/-! SUPPORT. What each operation of Machine/Steps.lean leaves alone (Laws/Keep.lean). -/

namespace Sys2Proof.Machine

set_option linter.unusedTactic false
set_option linter.unreachableTactic false

theorem State.openRecord_keep (s : State) (n first : Nat) : Keep 0x3EDF100BB s (State.openRecord s n first) := by
  unfold State.openRecord
  repeat' first
    | exact rfl
    | with_reducible apply Keep.refl
    | with_reducible assumption
    | with_reducible apply Keep.via (State.faultCtx_keep ..)
    | with_reducible apply Keep.via (State.eventCtx_keep ..)
    | with_reducible apply Keep.via (State.syncDet_keep ..)
    | with_reducible apply Keep.via (State.setSlot_keep ..)
    | with_reducible apply Keep.via (State.voidTime_keep ..)
    | with_reducible apply Keep.ite
    | split
    | extract_lets
    | dsimp -proj only
    | ((with_reducible conv => arg 3; whnf); first | split)
    | dsimp -proj +zetaDelta only
    | dsimp only

theorem State.cutRecord_keep (s : State) (n last : Nat) : Keep 0x3EDF100BB s (State.cutRecord s n last) := by
  unfold State.cutRecord
  repeat' first
    | exact rfl
    | with_reducible apply Keep.refl
    | with_reducible assumption
    | with_reducible apply Keep.via (State.openRecord_keep ..)
    | with_reducible apply Keep.via (State.closeRecord_keep ..)
    | split
    | dsimp -proj only
    | ((with_reducible conv => arg 3; whnf); first | split)
    | dsimp -proj +zetaDelta only
    | dsimp only

theorem State.lossWord_keep (s : State) (j : Slot) (f : Flips) : Keep 0x3EFFD90FB s (State.lossWord s j f).2.2 := by
  unfold State.lossWord
  repeat' first
    | exact rfl
    | with_reducible apply Keep.refl
    | with_reducible assumption
    | with_reducible apply Keep.via (State.devRead_keep ..)
    | with_reducible apply Keep.ite
    | with_reducible apply Keep.ite_snd2
    | with_reducible apply Keep.ite_snd
    | split
    | extract_lets
    | dsimp -proj only
    | ((with_reducible conv => arg 3; whnf); first | split)
    | dsimp -proj +zetaDelta only
    | dsimp only

theorem State.addRan_keep (s : State) (p : Nat) (j : Slot) : Keep 0x3FF7FFFFF s (State.addRan s p j) := by
  unfold State.addRan
  repeat' first
    | exact rfl
    | with_reducible apply Keep.refl
    | with_reducible assumption
    | with_reducible apply Keep.ite
    | split
    | extract_lets
    | dsimp -proj only
    | ((with_reducible conv => arg 3; whnf); first | split | with_reducible apply Keep.setRst)
    | dsimp -proj +zetaDelta only
    | dsimp only

theorem State.cleanBoundary_keep (s : State) (j : Slot) : Keep 0x3FF7FFFFB s (State.cleanBoundary s j) := by
  unfold State.cleanBoundary
  repeat' first
    | exact rfl
    | with_reducible apply Keep.refl
    | with_reducible assumption
    | with_reducible apply Keep.via (State.wr64_keep ..)
    | with_reducible apply Keep.via (State.addRan_keep ..)
    | with_reducible apply Keep.foldl
    | with_reducible apply Keep.foldl_snd
    | with_reducible apply Keep.foldl_fst
    | (intro _ _)
    | with_reducible apply Keep.ite
    | split
    | extract_lets
    | dsimp -proj only
    | ((with_reducible conv => arg 3; whnf); first | split | with_reducible apply Keep.setRst)
    | dsimp -proj +zetaDelta only
    | dsimp only

theorem State.quarStep_keep (s : State) (step : Nat) : Keep 0x3EFFDFCFB s (State.quarStep s step) := by
  unfold State.quarStep
  repeat' first
    | exact rfl
    | with_reducible apply Keep.refl
    | with_reducible assumption
    | with_reducible apply Keep.via (State.quarEnd_keep ..)
    | with_reducible apply Keep.ite
    | split
    | extract_lets
    | dsimp -proj only
    | ((with_reducible conv => arg 3; whnf); first | split)
    | dsimp -proj +zetaDelta only
    | dsimp only

theorem State.promoteAt_keep (s : State) (step : Nat) : Keep 0x3FFF7FFFB s (State.promoteAt s step) := by
  unfold State.promoteAt
  repeat' first
    | exact rfl
    | with_reducible apply Keep.refl
    | with_reducible assumption
    | with_reducible apply Keep.via (State.wf_keep ..)
    | with_reducible apply Keep.ite
    | split
    | dsimp -proj only
    | ((with_reducible conv => arg 3; whnf); first | split | with_reducible apply Keep.setColl)
    | dsimp -proj +zetaDelta only
    | dsimp only

theorem State.advanceStep_keep (s : State) (f : Flips) : Keep 0x3E92100AB s (State.advanceStep s f) := by
  unfold State.advanceStep
  repeat' first
    | exact rfl
    | with_reducible apply Keep.refl
    | with_reducible assumption
    | with_reducible apply Keep.via (State.setSlot_keep ..)
    | with_reducible apply Keep.via (State.lossWord_keep ..)
    | with_reducible apply Keep.via (State.modRun_keep ..)
    | with_reducible apply Keep.via (State.cutRecord_keep ..)
    | with_reducible apply Keep.via (State.restoreVerify_keep ..)
    | with_reducible apply Keep.via (State.cleanBoundary_keep ..)
    | with_reducible apply Keep.via (State.ckptAdvance_keep ..)
    | with_reducible apply Keep.via (State.applyAge_keep ..)
    | with_reducible apply Keep.via (State.syncDet_keep ..)
    | with_reducible apply Keep.via (State.promoteAt_keep ..)
    | with_reducible apply Keep.via (State.quarStep_keep ..)
    | with_reducible apply Keep.ite
    | split
    | extract_lets
    | dsimp -proj only
    | ((with_reducible conv => arg 3; whnf); first | split)
    | dsimp -proj +zetaDelta only
    | dsimp only

theorem execStep_keep (ps : Fin 18) (bad : Bool) (f : Flips) (s : State) : KeepR 0x3E92100AB s (execStep ps f s bad) := by
  unfold execStep
  repeat' first
    | exact rfl
    | with_reducible apply Keep.refl
    | with_reducible assumption
    | with_reducible apply KeepR.refused
    | with_reducible apply KeepR.next
    | with_reducible apply Keep.via (State.badStrand_keep ..)
    | with_reducible apply Keep.via (State.faultRunning_keep ..)
    | with_reducible apply Keep.via (State.event_keep ..)
    | with_reducible apply Keep.via (State.modSpn_keep ..)
    | with_reducible apply Keep.via (State.wr64_keep ..)
    | with_reducible apply Keep.via (State.advanceStep_keep ..)
    | with_reducible apply Keep.ite
    | with_reducible apply KeepR.ite
    | split
    | extract_lets
    | dsimp -proj only
    | ((with_reducible conv => arg 3; whnf); first | split)
    | dsimp -proj +zetaDelta only
    | dsimp only

theorem execRealignment_keep (s : State) : KeepR 0x3FFEFFFFB s (execRealignment s) := by
  unfold execRealignment
  repeat' first
    | exact rfl
    | with_reducible apply Keep.refl
    | with_reducible assumption
    | with_reducible apply KeepR.refused
    | with_reducible apply KeepR.next
    | with_reducible apply Keep.via (State.wf_keep ..)
    | with_reducible apply Keep.ite
    | with_reducible apply KeepR.ite
    | split
    | dsimp -proj only
    | ((with_reducible conv => arg 3; whnf); first | split | with_reducible apply Keep.setClk)
    | dsimp -proj +zetaDelta only
    | dsimp only

theorem State.askRealign_keep (s : State) : Keep 0x3FFEFFFFF s (State.askRealign s) := by
  unfold State.askRealign
  repeat' first
    | exact rfl
    | with_reducible apply Keep.refl
    | with_reducible assumption
    | with_reducible apply Keep.ite
    | split
    | dsimp -proj only
    | ((with_reducible conv => arg 3; whnf); first | split | with_reducible apply Keep.setClk)
    | dsimp -proj +zetaDelta only
    | dsimp only

theorem execDetAlignRealign_keep (s : State) : KeepR 0x3EFEDFCFB s (execDetAlignRealign s) := by
  unfold execDetAlignRealign
  repeat' first
    | exact rfl
    | with_reducible apply Keep.refl
    | with_reducible assumption
    | with_reducible apply KeepR.refused
    | with_reducible apply KeepR.next
    | with_reducible refine State.rowWrite_keep _ _ rfl ?_ ?_
    | (intro _ _ _)
    | with_reducible apply Keep.via (State.askRealign_keep ..)
    | dsimp -proj only
    | ((with_reducible conv => arg 3; whnf); first | split)
    | dsimp -proj +zetaDelta only
    | dsimp only

theorem State.sealRegion_keep (s : State) (n id lo hi step : Nat) : Keep 0x3FFFF5FFF s (State.sealRegion s n id lo hi step) := by
  unfold State.sealRegion
  repeat' first
    | exact rfl
    | with_reducible apply Keep.refl
    | with_reducible assumption
    | with_reducible apply Keep.via (State.setSlot_keep ..)
    | split
    | extract_lets
    | dsimp -proj only
    | ((with_reducible conv => arg 3; whnf); first | split | with_reducible apply Keep.setProt)
    | dsimp -proj +zetaDelta only
    | dsimp only

theorem execSealDigestDone_keep (n : Fin 16) (id : Nat) (f : Flips) (s : State) : KeepR 0x3CDF100BB s (execSealDigestDone n id f s) := by
  unfold execSealDigestDone
  repeat' first
    | exact rfl
    | with_reducible apply Keep.refl
    | with_reducible assumption
    | with_reducible apply KeepR.refused
    | with_reducible apply KeepR.next
    | with_reducible apply Keep.via (State.devRead_keep ..)
    | with_reducible apply Keep.via (State.syncDet_keep ..)
    | with_reducible apply Keep.via (State.setSlot_keep ..)
    | with_reducible apply Keep.via (State.faultCtx_keep ..)
    | with_reducible apply Keep.via (State.eventCtx_keep ..)
    | with_reducible apply Keep.via (State.finish_keep ..)
    | with_reducible apply Keep.via (State.modSlot_keep ..)
    | with_reducible apply Keep.ite
    | with_reducible apply KeepR.ite
    | split
    | extract_lets
    | dsimp -proj only
    | ((with_reducible conv => arg 3; whnf); first | split)
    | dsimp -proj +zetaDelta only
    | dsimp only

theorem State.signedRec_keep (s : State) (ctx buf : Nat) (e : RecEnt) (b : List Byte) : Keep 0x3EDF100BB s (State.signedRec s ctx buf e b) := by
  unfold State.signedRec
  repeat' first
    | exact rfl
    | with_reducible apply Keep.refl
    | with_reducible assumption
    | with_reducible apply Keep.via (State.eventCtx_keep ..)
    | with_reducible apply Keep.via (State.devWrite_keep ..)
    | dsimp -proj only
    | ((with_reducible conv => arg 3; whnf); first | split)
    | dsimp -proj +zetaDelta only
    | dsimp only

theorem execRecordSigned_keep (n : Fin 16) (s : State) : KeepR 0x3EDF100BB s (execRecordSigned n s) := by
  unfold execRecordSigned
  repeat' first
    | exact rfl
    | with_reducible apply Keep.refl
    | with_reducible assumption
    | with_reducible apply KeepR.refused
    | with_reducible apply KeepR.next
    | with_reducible apply Keep.via (State.signedRec_keep ..)
    | with_reducible apply Keep.via (State.wf_keep ..)
    | with_reducible apply Keep.via (State.setSlot_keep ..)
    | with_reducible apply Keep.ite
    | with_reducible apply KeepR.ite
    | split
    | extract_lets
    | dsimp -proj only
    | ((with_reducible conv => arg 3; whnf); first | split | with_reducible apply Keep.setSeqr)
    | dsimp -proj +zetaDelta only
    | dsimp only


end Sys2Proof.Machine
end

