-- ==== Sys2Proof/Laws/KeepLoad.lean ====
section
/-! SUPPORT. What each operation of Machine/Load.lean leaves alone (Laws/Keep.lean). -/

namespace Sys2Proof.Machine

set_option linter.unusedTactic false
set_option linter.unreachableTactic false

theorem State.loadEnds_keep (s : State) (status : Nat) (params : List Byte) : Keep 0x3CFF9FCBB s (State.loadEnds s status params) := by
  unfold State.loadEnds
  repeat' first
    | exact rfl
    | with_reducible apply Keep.refl
    | with_reducible assumption
    | with_reducible apply Keep.via (State.finish_keep ..)
    | dsimp -proj only
    | exact (fun h => h : Cq.Bounded _ → Cq.Bounded _)
    | ((with_reducible conv => arg 3; whnf); first | split | with_reducible apply Keep.setCq)
    | dsimp -proj +zetaDelta only
    | dsimp only

theorem State.loadRefused_keep (s : State) (b : Bad) : Keep 0x3CFF9FCBB s (State.loadRefused s b) := by
  unfold State.loadRefused
  repeat' first
    | exact rfl
    | with_reducible apply Keep.refl
    | with_reducible assumption
    | with_reducible apply Keep.via (State.wr64_keep ..)
    | with_reducible apply Keep.via (State.wr_keep ..)
    | with_reducible apply Keep.via (State.loadEnds_keep ..)
    | with_reducible apply Keep.via (State.event_keep ..)
    | with_reducible apply Keep.ite
    | split
    | extract_lets
    | dsimp -proj only
    | ((with_reducible conv => arg 3; whnf); first | split)
    | dsimp -proj +zetaDelta only
    | dsimp only

theorem State.accept_keep (s : State) (n : Nat) (j : JobParams) (img tab : List Byte) : Keep 0x3CFF95CBB s (State.accept s n j img tab) := by
  unfold State.accept
  repeat' first
    | exact rfl
    | with_reducible apply Keep.refl
    | with_reducible assumption
    | with_reducible apply Keep.via (State.setSlot_keep ..)
    | with_reducible apply Keep.via (State.sealRegion_keep ..)
    | with_reducible apply Keep.via (State.syncResident_keep ..)
    | with_reducible apply Keep.via (State.modSlot_keep ..)
    | with_reducible apply Keep.via (State.finish_keep ..)
    | with_reducible apply Keep.foldl
    | with_reducible apply Keep.foldl_snd
    | with_reducible apply Keep.foldl_fst
    | (intro _ _)
    | with_reducible apply Keep.ite
    | split
    | extract_lets
    | dsimp -proj only
    | exact (fun h => h : Cq.Bounded _ → Cq.Bounded _)
    | ((with_reducible conv => arg 3; whnf); first | split | with_reducible apply Keep.setSeqr | with_reducible apply Keep.setProt | with_reducible apply Keep.setCq)
    | dsimp -proj +zetaDelta only
    | dsimp only

theorem execCtxLoadValidated_keep (f : Flips) (s : State) : KeepR 0x3CFF910BB s (execCtxLoadValidated f s) := by
  unfold execCtxLoadValidated
  repeat' first
    | exact rfl
    | with_reducible apply Keep.refl
    | with_reducible assumption
    | with_reducible apply KeepR.refused
    | with_reducible apply KeepR.next
    | with_reducible apply Keep.via (State.devRead_keep ..)
    | with_reducible apply Keep.via (State.loadEnds_keep ..)
    | with_reducible apply Keep.via (State.loadRefused_keep ..)
    | with_reducible apply Keep.via (State.event_keep ..)
    | with_reducible apply Keep.via (State.accept_keep ..)
    | with_reducible apply Keep.ite
    | with_reducible apply KeepR.ite
    | split
    | extract_lets
    | dsimp -proj only
    | ((with_reducible conv => arg 3; whnf); first | split)
    | dsimp -proj +zetaDelta only
    | dsimp only


end Sys2Proof.Machine
end

