-- ==== Sys2Proof/Laws/KeepSeq.lean ====
section
/-! SUPPORT. What each operation of Machine/Seq.lean leaves alone (Laws/Keep.lean). -/

namespace Sys2Proof.Machine

set_option linter.unusedTactic false
set_option linter.unreachableTactic false

theorem State.drainAll_keep (s : State) (j : Slot) : Keep 0x3FFFFEFFB s (State.drainAll s j) := by
  unfold State.drainAll
  repeat' first
    | exact rfl
    | with_reducible apply Keep.refl
    | with_reducible assumption
    | with_reducible apply Keep.via (State.askDrain_keep ..)
    | with_reducible apply Keep.foldl
    | with_reducible apply Keep.foldl_snd
    | with_reducible apply Keep.foldl_fst
    | (intro _ _)
    | with_reducible apply Keep.ite
    | split
    | dsimp -proj only
    | ((with_reducible conv => arg 3; whnf); first | split)
    | dsimp -proj +zetaDelta only
    | dsimp only

theorem State.beginSwitch_keep (s : State) (w : GiveWay) (target : Option Nat) : Keep 0x3EFFDCCFB s (State.beginSwitch s w target) := by
  unfold State.beginSwitch
  repeat' first
    | exact rfl
    | with_reducible apply Keep.refl
    | with_reducible assumption
    | with_reducible apply Keep.via (State.event_keep ..)
    | with_reducible apply Keep.via (State.drainAll_keep ..)
    | with_reducible apply Keep.via (State.giveWay_keep ..)
    | split
    | extract_lets
    | dsimp -proj only
    | ((with_reducible conv => arg 3; whnf); first | split | with_reducible apply Keep.setSeqr)
    | dsimp -proj +zetaDelta only
    | dsimp only

theorem execQuantumExpiry_keep (s : State) : KeepR 0x3EFFDCCFB s (execQuantumExpiry s) := by
  unfold execQuantumExpiry
  repeat' first
    | exact rfl
    | with_reducible apply Keep.refl
    | with_reducible assumption
    | with_reducible apply KeepR.refused
    | with_reducible apply KeepR.next
    | with_reducible apply Keep.via (State.beginSwitch_keep ..)
    | with_reducible apply Keep.ite
    | with_reducible apply KeepR.ite
    | split
    | extract_lets
    | dsimp -proj only
    | ((with_reducible conv => arg 3; whnf); first | split)
    | dsimp -proj +zetaDelta only
    | dsimp only

theorem State.leave_keep (s : State) (cause : Nat) : Keep 0x3EFFDDCFB s (State.leave s cause) := by
  unfold State.leave
  repeat' first
    | exact rfl
    | with_reducible apply Keep.refl
    | with_reducible assumption
    | with_reducible apply Keep.via (State.event_keep ..)
    | with_reducible apply Keep.via (State.wf_keep ..)
    | with_reducible apply Keep.via (State.wr_keep ..)
    | with_reducible apply Keep.via (State.syncDet_keep ..)
    | with_reducible apply Keep.foldl
    | with_reducible apply Keep.foldl_snd
    | with_reducible apply Keep.foldl_fst
    | (intro _ _)
    | extract_lets
    | dsimp -proj only
    | ((with_reducible conv => arg 3; whnf); first | split | with_reducible apply Keep.setSeqr)
    | dsimp -proj +zetaDelta only
    | dsimp only

theorem State.endContext_keep (s : State) (j : Slot) : Keep 0x3EDF95CFB s (State.endContext s j) := by
  unfold State.endContext
  repeat' first
    | exact rfl
    | with_reducible apply Keep.refl
    | with_reducible assumption
    | with_reducible apply Keep.via (State.modSlot_keep ..)
    | with_reducible apply Keep.via (State.closeRecord_keep ..)
    | with_reducible apply Keep.via (State.ckptFail_keep ..)
    | with_reducible apply Keep.via (State.quarEnd_keep ..)
    | with_reducible apply Keep.via (State.leave_keep ..)
    | with_reducible apply Keep.ite
    | split
    | extract_lets
    | dsimp -proj only
    | ((with_reducible conv => arg 3; whnf); first | split)
    | dsimp -proj +zetaDelta only
    | dsimp only

theorem State.suspend_keep (s : State) (j : Slot) (cause : Nat) : Keep 0x3EFFDDCFB s (State.suspend s j cause) := by
  unfold State.suspend
  repeat' first
    | exact rfl
    | with_reducible apply Keep.refl
    | with_reducible assumption
    | with_reducible apply Keep.via (State.leave_keep ..)
    | with_reducible apply Keep.via (State.modSlot_keep ..)
    | with_reducible apply Keep.foldl
    | with_reducible apply Keep.foldl_snd
    | with_reducible apply Keep.foldl_fst
    | (intro _ _)
    | extract_lets
    | dsimp -proj only
    | ((with_reducible conv => arg 3; whnf); first | split)
    | dsimp -proj +zetaDelta only
    | dsimp only

theorem State.giveWayStep_keep (s : State) (j : Slot) : Keep 0x3EDF94CFB s (State.giveWayStep s j) := by
  unfold State.giveWayStep
  repeat' first
    | exact rfl
    | with_reducible apply Keep.refl
    | with_reducible assumption
    | with_reducible apply Keep.via (State.leave_keep ..)
    | with_reducible apply Keep.via (State.endContext_keep ..)
    | with_reducible apply Keep.via (State.suspend_keep ..)
    | with_reducible apply Keep.via (State.drainAll_keep ..)
    | with_reducible apply Keep.ite
    | split
    | extract_lets
    | dsimp -proj only
    | ((with_reducible conv => arg 3; whnf); first | split)
    | dsimp -proj +zetaDelta only
    | dsimp only

theorem State.cannotStart_keep (s : State) (n code : Nat) (j : Slot) (data : List (Nat × Nat × Nat)) : Keep 0x3EDF100BB s (State.cannotStart s n code j data) := by
  unfold State.cannotStart
  repeat' first
    | exact rfl
    | with_reducible apply Keep.refl
    | with_reducible assumption
    | with_reducible apply Keep.via (State.modSlot_keep ..)
    | with_reducible apply Keep.via (State.faultCtx_keep ..)
    | with_reducible apply Keep.via (State.eventCtx_keep ..)
    | dsimp -proj only
    | ((with_reducible conv => arg 3; whnf); first | split)
    | dsimp -proj +zetaDelta only
    | dsimp only

theorem State.abortDump_keep (s : State) (ps : Nat) : Keep 0x3FFFFEFFB s (State.abortDump s ps) := by
  unfold State.abortDump
  repeat' first
    | exact rfl
    | with_reducible apply Keep.refl
    | with_reducible assumption
    | with_reducible apply Keep.via (State.setSpn_keep ..)
    | with_reducible apply Keep.via (State.setSpnState_keep ..)
    | with_reducible apply Keep.via (State.satField_keep ..)
    | extract_lets
    | dsimp -proj only
    | ((with_reducible conv => arg 3; whnf); first | split)
    | dsimp -proj +zetaDelta only
    | dsimp only

theorem State.nowRuns_keep (s : State) (n : Nat) (j : Slot) : Keep 0x3FF7D9FFB s (State.nowRuns s n j) := by
  unfold State.nowRuns
  repeat' first
    | exact rfl
    | with_reducible apply Keep.refl
    | with_reducible assumption
    | with_reducible apply Keep.via (State.wf_keep ..)
    | with_reducible apply Keep.via (State.wr_keep ..)
    | with_reducible apply Keep.via (State.modSlot_keep ..)
    | with_reducible apply Keep.via (State.setChan_keep ..)
    | with_reducible apply Keep.via (State.addRan_keep ..)
    | with_reducible apply Keep.foldl
    | with_reducible apply Keep.foldl_snd
    | with_reducible apply Keep.foldl_fst
    | (intro _ _)
    | with_reducible apply Keep.ite
    | split
    | extract_lets
    | dsimp -proj only
    | ((with_reducible conv => arg 3; whnf); first | split | with_reducible apply Keep.setSeqr)
    | dsimp -proj +zetaDelta only
    | dsimp only

theorem State.startStrand_keep (s : State) (j : Slot) (words : List DWord) (l : Nat) : Keep 0x3FFFFE3FB s (State.startStrand s j words l) := by
  unfold State.startStrand
  repeat' first
    | exact rfl
    | with_reducible apply Keep.refl
    | with_reducible assumption
    | with_reducible apply Keep.via (State.clearKeys_keep ..)
    | with_reducible apply Keep.via (State.putSavedRegs_keep ..)
    | with_reducible apply Keep.via (State.wr_keep ..)
    | with_reducible apply Keep.via (State.setSpnState_keep ..)
    | with_reducible apply Keep.via (State.setSpn_keep ..)
    | extract_lets
    | dsimp -proj only
    | ((with_reducible conv => arg 3; whnf); first | split)
    | dsimp -proj +zetaDelta only
    | dsimp only

theorem State.startFirst_keep (s : State) (n : Nat) (j : Slot) : Keep 0x3ED7100AB s (State.startFirst s n j) := by
  unfold State.startFirst
  repeat' first
    | exact rfl
    | with_reducible apply Keep.refl
    | with_reducible assumption
    | with_reducible apply Keep.via (State.devRead_keep ..)
    | with_reducible apply Keep.via (State.setSlot_keep ..)
    | with_reducible apply Keep.via (State.startStrand_keep ..)
    | with_reducible apply Keep.via (State.openRecord_keep ..)
    | with_reducible apply Keep.via (State.nowRuns_keep ..)
    | with_reducible apply Keep.via (State.syncDet_keep ..)
    | with_reducible apply Keep.via (State.payReleases_keep ..)
    | with_reducible apply Keep.foldl
    | with_reducible apply Keep.foldl_snd
    | with_reducible apply Keep.foldl_fst
    | (intro _ _)
    | with_reducible apply Keep.ite
    | split
    | extract_lets
    | dsimp -proj only
    | ((with_reducible conv => arg 3; whnf); first | split)
    | dsimp -proj +zetaDelta only
    | dsimp only

theorem State.resumeStrand_keep (s : State) (j : Slot) (l : Nat) : Keep 0x3FFFFEFFB s (State.resumeStrand s j l) := by
  unfold State.resumeStrand
  repeat' first
    | exact rfl
    | with_reducible apply Keep.refl
    | with_reducible assumption
    | with_reducible apply Keep.via (State.setSpn_keep ..)
    | with_reducible apply Keep.via (State.putSavedRegs_keep ..)
    | extract_lets
    | dsimp -proj only
    | ((with_reducible conv => arg 3; whnf); first | split)
    | dsimp -proj +zetaDelta only
    | dsimp only

theorem State.startAgain_keep (s : State) (n : Nat) (j : Slot) : Keep 0x3FF7D8FEB s (State.startAgain s n j) := by
  unfold State.startAgain
  repeat' first
    | exact rfl
    | with_reducible apply Keep.refl
    | with_reducible assumption
    | with_reducible apply Keep.via (State.payReleases_keep ..)
    | with_reducible apply Keep.via (State.resumeStrand_keep ..)
    | with_reducible apply Keep.via (State.syncDet_keep ..)
    | with_reducible apply Keep.via (State.nowRuns_keep ..)
    | with_reducible apply Keep.foldl
    | with_reducible apply Keep.foldl_snd
    | with_reducible apply Keep.foldl_fst
    | (intro _ _)
    | split
    | extract_lets
    | dsimp -proj only
    | ((with_reducible conv => arg 3; whnf); first | split | with_reducible apply Keep.setSeqr)
    | dsimp -proj +zetaDelta only
    | dsimp only

theorem State.startStep_keep (s : State) (n : Nat) (f : Flips) : Keep 0x3CD6100AB s (State.startStep s n f) := by
  unfold State.startStep
  repeat' first
    | exact rfl
    | with_reducible apply Keep.refl
    | with_reducible assumption
    | with_reducible apply Keep.via (State.devRead_keep ..)
    | with_reducible apply Keep.via (State.finish_keep ..)
    | with_reducible apply Keep.via (State.event_keep ..)
    | with_reducible apply Keep.via (State.cannotStart_keep ..)
    | with_reducible apply Keep.via (State.abortDump_keep ..)
    | with_reducible apply Keep.via (State.startAgain_keep ..)
    | with_reducible apply Keep.via (State.startFirst_keep ..)
    | with_reducible apply Keep.foldl
    | with_reducible apply Keep.foldl_snd
    | with_reducible apply Keep.foldl_fst
    | (intro _ _)
    | with_reducible apply Keep.ite
    | split
    | extract_lets
    | dsimp -proj only
    | ((with_reducible conv => arg 3; whnf); first | split | with_reducible apply Keep.setSeqr | with_reducible apply Keep.setClk)
    | dsimp -proj +zetaDelta only
    | dsimp only

theorem State.startChosen_keep (s : State) (f : Flips) : Keep 0x3CD6100AB s (State.startChosen s f) := by
  unfold State.startChosen
  repeat' first
    | exact rfl
    | with_reducible apply Keep.refl
    | with_reducible assumption
    | with_reducible apply Keep.via (State.startStep_keep ..)
    | with_reducible apply Keep.via (State.finish_keep ..)
    | with_reducible apply Keep.ite
    | split
    | dsimp -proj only
    | ((with_reducible conv => arg 3; whnf); first | split | with_reducible apply Keep.setSeqr)
    | dsimp -proj +zetaDelta only
    | dsimp only

theorem State.giveWayRun_keep (s : State) : Keep 0x3EDF94CFB s (State.giveWayRun s) := by
  unfold State.giveWayRun
  repeat' first
    | exact rfl
    | with_reducible apply Keep.refl
    | with_reducible assumption
    | with_reducible apply Keep.via (State.giveWayStep_keep ..)
    | split
    | dsimp -proj only
    | ((with_reducible conv => arg 3; whnf); first | split)
    | dsimp -proj +zetaDelta only
    | dsimp only

theorem State.startRun_keep (s : State) (f : Flips) : Keep 0x3CD6100AB s (State.startRun s f) := by
  unfold State.startRun
  repeat' first
    | exact rfl
    | with_reducible apply Keep.refl
    | with_reducible assumption
    | with_reducible apply Keep.via (State.finish_keep ..)
    | with_reducible apply Keep.via (State.startChosen_keep ..)
    | with_reducible apply Keep.ite
    | split
    | dsimp -proj only
    | ((with_reducible conv => arg 3; whnf); first | split)
    | dsimp -proj +zetaDelta only
    | dsimp only

theorem execContextSwitchDrained_keep (f : Flips) (s : State) : KeepR 0x3CD6100AB s (execContextSwitchDrained s f) := by
  unfold execContextSwitchDrained
  repeat' first
    | exact rfl
    | with_reducible apply Keep.refl
    | with_reducible assumption
    | with_reducible apply KeepR.refused
    | with_reducible apply KeepR.next
    | with_reducible apply Keep.via (State.startRun_keep ..)
    | with_reducible apply Keep.via (State.giveWayRun_keep ..)
    | dsimp -proj only
    | ((with_reducible conv => arg 3; whnf); first | split)
    | dsimp -proj +zetaDelta only
    | dsimp only


end Sys2Proof.Machine
end

