-- ==== Sys2Proof/Laws/KeepSelfTest.lean ====
section
/-! SUPPORT. What each operation of Machine/SelfTest.lean leaves alone (Laws/Keep.lean). -/

namespace Sys2Proof.Machine

set_option linter.unusedTactic false
set_option linter.unreachableTactic false

theorem State.reportMarginal_keep (s : State) (unit : Nat) : Keep 0x3E9214CBB s (State.reportMarginal s unit) := by
  unfold State.reportMarginal
  repeat' first
    | exact rfl
    | with_reducible apply Keep.refl
    | with_reducible assumption
    | with_reducible apply Keep.via (State.reportSpindle_keep ..)
    | with_reducible apply Keep.via (State.reportCore_keep ..)
    | with_reducible apply Keep.via (State.reportShared_keep ..)
    | with_reducible apply Keep.ite
    | split
    | extract_lets
    | dsimp -proj only
    | ((with_reducible conv => arg 3; whnf); first | split)
    | dsimp -proj +zetaDelta only
    | dsimp only

theorem State.noteResult_keep (s : State) (o : TestOut) : Keep 0x3FFFFFFFB s (State.noteResult s o) := by
  unfold State.noteResult
  repeat' first
    | exact rfl
    | with_reducible apply Keep.refl
    | with_reducible assumption
    | with_reducible apply Keep.via (State.wr64_keep ..)
    | with_reducible apply Keep.via (State.wr_keep ..)
    | with_reducible apply Keep.ite
    | split
    | extract_lets
    | dsimp -proj only
    | ((with_reducible conv => arg 3; whnf); first | split)
    | dsimp -proj +zetaDelta only
    | dsimp only

theorem State.noteParts_keep (s : State) (o : TestOut) : Keep 0x3EFFDFCFB s (State.noteParts s o) := by
  unfold State.noteParts
  repeat' first
    | exact rfl
    | with_reducible apply Keep.refl
    | with_reducible assumption
    | with_reducible apply Keep.via (State.event_keep ..)
    | with_reducible apply Keep.foldl
    | with_reducible apply Keep.foldl_snd
    | with_reducible apply Keep.foldl_fst
    | (intro _ _)
    | with_reducible apply Keep.ite
    | split
    | extract_lets
    | dsimp -proj only
    | ((with_reducible conv => arg 3; whnf); first | split)
    | dsimp -proj +zetaDelta only
    | dsimp only

theorem State.noteTest_keep (s : State) (occ : Nat) (o : TestOut) : Keep 0x3E9214CBB s (State.noteTest s occ o) := by
  unfold State.noteTest
  repeat' first
    | exact rfl
    | with_reducible apply Keep.refl
    | with_reducible assumption
    | with_reducible apply Keep.via (State.noteResult_keep ..)
    | with_reducible apply Keep.via (State.event_keep ..)
    | with_reducible apply Keep.via (State.noteParts_keep ..)
    | with_reducible apply Keep.via (State.reportMarginal_keep ..)
    | with_reducible apply Keep.ite
    | split
    | extract_lets
    | dsimp -proj only
    | ((with_reducible conv => arg 3; whnf); first | split)
    | dsimp -proj +zetaDelta only
    | dsimp only

theorem State.endWave_keep (s : State) (outs : List TestOut) (late : Bool) : Keep 0x369214CBB s (State.endWave s outs late) := by
  unfold State.endWave
  repeat' first
    | exact rfl
    | with_reducible apply Keep.refl
    | with_reducible assumption
    | with_reducible apply Keep.via (State.noteTest_keep ..)
    | with_reducible apply Keep.via (State.wf_keep ..)
    | with_reducible apply Keep.foldl
    | with_reducible apply Keep.foldl_snd
    | with_reducible apply Keep.foldl_fst
    | (intro _ _)
    | with_reducible apply Keep.ite
    | split
    | extract_lets
    | dsimp -proj only
    | ((with_reducible conv => arg 3; whnf); first | split | with_reducible apply Keep.setHlth | with_reducible apply Keep.setBoot)
    | dsimp -proj +zetaDelta only
    | dsimp only

theorem execTestWaveDone_keep (outs : List TestOut) (s : State) : KeepR 0x369214CBB s (execTestWaveDone outs s) := by
  unfold execTestWaveDone
  repeat' first
    | exact rfl
    | with_reducible apply Keep.refl
    | with_reducible assumption
    | with_reducible apply KeepR.refused
    | with_reducible apply KeepR.next
    | with_reducible apply Keep.via (State.endWave_keep ..)
    | dsimp -proj only
    | ((with_reducible conv => arg 3; whnf); first | split)
    | dsimp -proj +zetaDelta only
    | dsimp only

theorem State.setMoves_keep (s : State) (l : List Move) : Keep 0x3FFBFFFFF s (State.setMoves s l) := by
  unfold State.setMoves
  repeat' first
    | exact rfl
    | with_reducible apply Keep.refl
    | with_reducible assumption
    | dsimp -proj only
    | ((with_reducible conv => arg 3; whnf); first | split | with_reducible apply Keep.setHlth)
    | dsimp -proj +zetaDelta only
    | dsimp only

theorem State.freeSpare_keep (s : State) (ps : Nat) : Keep 0x3EFFDE0FB s (State.freeSpare s ps) := by
  unfold State.freeSpare
  repeat' first
    | exact rfl
    | with_reducible apply Keep.refl
    | with_reducible assumption
    | with_reducible apply Keep.via (State.initSpindle_keep ..)
    | with_reducible apply Keep.ite
    | split
    | dsimp -proj only
    | ((with_reducible conv => arg 3; whnf); first | split)
    | dsimp -proj +zetaDelta only
    | dsimp only

theorem State.moveUnits_keep (s : State) (m : Move) : Keep 0x3EF3DE0BB s (State.moveUnits s m) := by
  unfold State.moveUnits
  repeat' first
    | exact rfl
    | with_reducible apply Keep.refl
    | with_reducible assumption
    | with_reducible apply Keep.via (State.fenceNow_keep ..)
    | with_reducible apply Keep.via (State.wf_keep ..)
    | with_reducible apply Keep.via (State.event_keep ..)
    | with_reducible apply Keep.via (State.rebuild_keep ..)
    | with_reducible apply Keep.via (State.requestReset_keep ..)
    | with_reducible apply Keep.via (State.freeSpare_keep ..)
    | split
    | extract_lets
    | dsimp -proj only
    | ((with_reducible conv => arg 3; whnf); first | split | with_reducible apply Keep.setHlth)
    | dsimp -proj +zetaDelta only
    | dsimp only

theorem State.moveNow_keep (s : State) (m : Move) : Keep 0x3EF3DC0BB s (State.moveNow s m) := by
  unfold State.moveNow
  repeat' first
    | exact rfl
    | with_reducible apply Keep.refl
    | with_reducible assumption
    | with_reducible apply Keep.via (State.setMoves_keep ..)
    | with_reducible apply Keep.via (State.moveUnits_keep ..)
    | with_reducible apply Keep.via (State.setSlot_keep ..)
    | with_reducible apply Keep.via (State.resumeStrand_keep ..)
    | with_reducible apply Keep.ite
    | split
    | extract_lets
    | dsimp -proj only
    | ((with_reducible conv => arg 3; whnf); first | split)
    | dsimp -proj +zetaDelta only
    | dsimp only

theorem State.moveBoundary_keep (s : State) (ps : Nat) : Keep 0x3FFFFEFFB s (State.moveBoundary s ps) := by
  unfold State.moveBoundary
  repeat' first
    | exact rfl
    | with_reducible apply Keep.refl
    | with_reducible assumption
    | with_reducible apply Keep.via (State.setSpnState_keep ..)
    | with_reducible apply Keep.via (State.setSpn_keep ..)
    | with_reducible apply Keep.via (State.atBoundary_keep ..)
    | with_reducible apply Keep.ite
    | split
    | extract_lets
    | dsimp -proj only
    | ((with_reducible conv => arg 3; whnf); first | split)
    | dsimp -proj +zetaDelta only
    | dsimp only

theorem State.showSwap_keep (s : State) (m : Move) : Keep 0x3FFFFFFFB s (State.showSwap s m) := by
  unfold State.showSwap
  repeat' first
    | exact rfl
    | with_reducible apply Keep.refl
    | with_reducible assumption
    | with_reducible apply Keep.via (State.wf_keep ..)
    | with_reducible apply Keep.ite
    | split
    | dsimp -proj only
    | ((with_reducible conv => arg 3; whnf); first | split)
    | dsimp -proj +zetaDelta only
    | dsimp only

theorem execSpareTransfer_keep (l : Fin 16) (s : State) : KeepR 0x3EF3DC0BB s (execSpareTransfer l s) := by
  unfold execSpareTransfer
  repeat' first
    | exact rfl
    | with_reducible apply Keep.refl
    | with_reducible assumption
    | with_reducible apply KeepR.refused
    | with_reducible apply KeepR.next
    | with_reducible apply Keep.via (State.moveNow_keep ..)
    | with_reducible apply Keep.via (State.showSwap_keep ..)
    | with_reducible apply Keep.via (State.moveBoundary_keep ..)
    | with_reducible apply Keep.ite
    | with_reducible apply KeepR.ite
    | split
    | dsimp -proj only
    | ((with_reducible conv => arg 3; whnf); first | split)
    | dsimp -proj +zetaDelta only
    | dsimp only

theorem execMapRiseApply_keep (s : State) : KeepR 0x3EFBDFCFB s (execMapRiseApply s) := by
  unfold execMapRiseApply
  repeat' first
    | exact rfl
    | with_reducible apply Keep.refl
    | with_reducible assumption
    | with_reducible apply KeepR.refused
    | with_reducible apply KeepR.next
    | with_reducible apply Keep.via (State.rebuild_keep ..)
    | with_reducible apply Keep.ite
    | with_reducible apply KeepR.ite
    | split
    | dsimp -proj only
    | ((with_reducible conv => arg 3; whnf); first | split | with_reducible apply Keep.setHlth)
    | dsimp -proj +zetaDelta only
    | dsimp only

theorem State.comeBack_keep (s : State) (ps : Nat) (why : MoveWhy) : Keep 0x3EF3DC0BB s (State.comeBack s ps why) := by
  unfold State.comeBack
  repeat' first
    | exact rfl
    | with_reducible apply Keep.refl
    | with_reducible assumption
    | with_reducible apply Keep.via (State.initSpindle_keep ..)
    | with_reducible apply Keep.via (State.rebuild_keep ..)
    | with_reducible apply Keep.via (State.setMoves_keep ..)
    | with_reducible apply Keep.via (State.moveNow_keep ..)
    | with_reducible apply Keep.ite
    | split
    | extract_lets
    | dsimp -proj only
    | ((with_reducible conv => arg 3; whnf); first | split | with_reducible apply Keep.setHlth)
    | dsimp -proj +zetaDelta only
    | dsimp only

theorem State.rollStart_keep (s : State) (ps : Nat) : Keep 0x3EF3DC0BB s (State.rollStart s ps) := by
  unfold State.rollStart
  repeat' first
    | exact rfl
    | with_reducible apply Keep.refl
    | with_reducible assumption
    | with_reducible apply Keep.via (State.wf_keep ..)
    | with_reducible apply Keep.via (State.rebuild_keep ..)
    | with_reducible apply Keep.via (State.syncStop_keep ..)
    | with_reducible apply Keep.via (State.setSpnState_keep ..)
    | with_reducible apply Keep.via (State.wipeSpindle_keep ..)
    | with_reducible apply Keep.via (State.setMoves_keep ..)
    | with_reducible apply Keep.via (State.moveNow_keep ..)
    | with_reducible apply Keep.ite
    | split
    | extract_lets
    | dsimp -proj only
    | ((with_reducible conv => arg 3; whnf); first | split | with_reducible apply Keep.setHlth)
    | dsimp -proj +zetaDelta only
    | dsimp only

theorem State.rollDueNow_keep (s : State) : Keep 0x3EFBDFCFB s (State.rollDueNow s) := by
  unfold State.rollDueNow
  repeat' first
    | exact rfl
    | with_reducible apply Keep.refl
    | with_reducible assumption
    | with_reducible apply Keep.via (State.wf_keep ..)
    | with_reducible apply Keep.via (State.event_keep ..)
    | with_reducible apply Keep.ite
    | split
    | extract_lets
    | dsimp -proj only
    | ((with_reducible conv => arg 3; whnf); first | split | with_reducible apply Keep.setHlth)
    | dsimp -proj +zetaDelta only
    | dsimp only

theorem execRollTestDue_keep (s : State) : KeepR 0x3EF3DC0BB s (execRollTestDue s) := by
  unfold execRollTestDue
  repeat' first
    | exact rfl
    | with_reducible apply Keep.refl
    | with_reducible assumption
    | with_reducible apply KeepR.refused
    | with_reducible apply KeepR.next
    | with_reducible apply Keep.via (State.rollDueNow_keep ..)
    | with_reducible apply Keep.via (State.rollStart_keep ..)
    | with_reducible apply Keep.via (State.wf_keep ..)
    | with_reducible apply Keep.ite
    | with_reducible apply KeepR.ite
    | split
    | extract_lets
    | dsimp -proj only
    | ((with_reducible conv => arg 3; whnf); first | split)
    | dsimp -proj +zetaDelta only
    | dsimp only

theorem State.rollEnd_keep (s : State) (o : TestOut) : Keep 0x3E92140BB s (State.rollEnd s o) := by
  unfold State.rollEnd
  repeat' first
    | exact rfl
    | with_reducible apply Keep.refl
    | with_reducible assumption
    | with_reducible apply Keep.via (State.noteTest_keep ..)
    | with_reducible apply Keep.via (State.sat_keep ..)
    | with_reducible apply Keep.via (State.softCreate_keep ..)
    | with_reducible apply Keep.via (State.wf_keep ..)
    | with_reducible apply Keep.via (State.rebuild_keep ..)
    | with_reducible apply Keep.via (State.syncStop_keep ..)
    | with_reducible apply Keep.via (State.setSpnState_keep ..)
    | with_reducible apply Keep.via (State.initSpindle_keep ..)
    | with_reducible apply Keep.via (State.comeBack_keep ..)
    | with_reducible apply Keep.foldl
    | with_reducible apply Keep.foldl_snd
    | with_reducible apply Keep.foldl_fst
    | (intro _ _)
    | with_reducible apply Keep.ite
    | split
    | extract_lets
    | dsimp -proj only
    | ((with_reducible conv => arg 3; whnf); first | split | with_reducible apply Keep.setHlth)
    | dsimp -proj +zetaDelta only
    | dsimp only

theorem execRollTestDone_keep (o : TestOut) (s : State) : KeepR 0x3E92140BB s (execRollTestDone o s) := by
  unfold execRollTestDone
  repeat' first
    | exact rfl
    | with_reducible apply Keep.refl
    | with_reducible assumption
    | with_reducible apply KeepR.refused
    | with_reducible apply KeepR.next
    | with_reducible apply Keep.via (State.rollEnd_keep ..)
    | with_reducible apply Keep.ite
    | with_reducible apply KeepR.ite
    | split
    | dsimp -proj only
    | ((with_reducible conv => arg 3; whnf); first | split)
    | dsimp -proj +zetaDelta only
    | dsimp only

theorem execRollWaitTimeout_keep (s : State) : KeepR 0x3EFBDFCFB s (execRollWaitTimeout s) := by
  unfold execRollWaitTimeout
  repeat' first
    | exact rfl
    | with_reducible apply Keep.refl
    | with_reducible assumption
    | with_reducible apply KeepR.refused
    | with_reducible apply KeepR.next
    | with_reducible apply Keep.via (State.event_keep ..)
    | with_reducible apply Keep.via (State.wf_keep ..)
    | with_reducible apply Keep.via (State.setMoves_keep ..)
    | with_reducible apply Keep.ite
    | with_reducible apply KeepR.ite
    | split
    | extract_lets
    | dsimp -proj only
    | ((with_reducible conv => arg 3; whnf); first | split)
    | dsimp -proj +zetaDelta only
    | dsimp only

theorem State.repairRows_keep (s : State) (ch : Nat) (rows : List (Nat × Nat × Nat)) (fuse : Bool) : Keep 0x3EFFDBCFB s (State.repairRows s ch rows fuse).1 := by
  unfold State.repairRows
  repeat' first
    | exact rfl
    | with_reducible apply Keep.refl
    | with_reducible assumption
    | with_reducible apply Keep.via (State.startRepair_keep ..)
    | with_reducible apply Keep.via (State.setChan_keep ..)
    | with_reducible apply Keep.via (State.syncSpares_keep ..)
    | with_reducible apply Keep.via (State.mapRow_keep ..)
    | with_reducible apply Keep.via (State.event_keep ..)
    | with_reducible apply Keep.foldl
    | with_reducible apply Keep.foldl_snd
    | with_reducible apply Keep.foldl_fst
    | (intro _ _)
    | with_reducible apply Keep.ite
    | with_reducible apply Keep.ite_fst
    | split
    | extract_lets
    | dsimp -proj only
    | ((with_reducible conv => arg 3; whnf); first | split)
    | dsimp -proj +zetaDelta only
    | dsimp only

theorem State.zeroChan_keep (s : State) (ch : Nat) : Keep 0x3FFFFF3FB s (State.zeroChan s ch) := by
  unfold State.zeroChan
  repeat' first
    | exact rfl
    | with_reducible apply Keep.refl
    | with_reducible assumption
    | with_reducible apply Keep.via (State.clearKeys_keep ..)
    | with_reducible apply Keep.via (State.wf_keep ..)
    | with_reducible apply Keep.via (State.wr_keep ..)
    | extract_lets
    | dsimp -proj only
    | ((with_reducible conv => arg 3; whnf); first | split)
    | dsimp -proj +zetaDelta only
    | dsimp only

theorem State.dropReturn_keep (s : State) (u : Nat) : Keep 0x3FFBFFFFF s (State.dropReturn s u) := by
  unfold State.dropReturn
  repeat' first
    | exact rfl
    | with_reducible apply Keep.refl
    | with_reducible assumption
    | dsimp -proj only
    | ((with_reducible conv => arg 3; whnf); first | split | with_reducible apply Keep.setHlth)
    | dsimp -proj +zetaDelta only
    | dsimp only

theorem State.returnEnd_keep (s : State) (o : TestOut) : Keep 0x3C92100BB s (State.returnEnd s o) := by
  unfold State.returnEnd
  repeat' first
    | exact rfl
    | with_reducible apply Keep.refl
    | with_reducible assumption
    | with_reducible apply Keep.via (State.noteTest_keep ..)
    | with_reducible apply Keep.via (State.dropReturn_keep ..)
    | with_reducible apply Keep.via (State.finish_keep ..)
    | with_reducible apply Keep.via (State.rebuild_keep ..)
    | with_reducible apply Keep.via (State.syncStop_keep ..)
    | with_reducible apply Keep.via (State.setSpnState_keep ..)
    | with_reducible apply Keep.via (State.softCreate_keep ..)
    | with_reducible apply Keep.via (State.comeBack_keep ..)
    | with_reducible apply Keep.via (State.softRemove_keep ..)
    | with_reducible apply Keep.via (State.repairRows_keep ..)
    | with_reducible apply Keep.via (State.syncDgChan_keep ..)
    | with_reducible apply Keep.via (State.zeroChan_keep ..)
    | with_reducible apply Keep.via (State.wf_keep ..)
    | with_reducible apply Keep.via (State.retrain_keep ..)
    | with_reducible apply Keep.foldl
    | with_reducible apply Keep.foldl_snd
    | with_reducible apply Keep.foldl_fst
    | (intro _ _)
    | with_reducible apply Keep.ite
    | split
    | extract_lets
    | dsimp -proj only
    | ((with_reducible conv => arg 3; whnf); first | split)
    | dsimp -proj +zetaDelta only
    | dsimp only

theorem execReturnTestDone_keep (o : TestOut) (s : State) : KeepR 0x3C92100BB s (execReturnTestDone o s) := by
  unfold execReturnTestDone
  repeat' first
    | exact rfl
    | with_reducible apply Keep.refl
    | with_reducible assumption
    | with_reducible apply KeepR.refused
    | with_reducible apply KeepR.next
    | with_reducible apply Keep.via (State.returnEnd_keep ..)
    | with_reducible apply Keep.ite
    | with_reducible apply KeepR.ite
    | split
    | dsimp -proj only
    | ((with_reducible conv => arg 3; whnf); first | split)
    | dsimp -proj +zetaDelta only
    | dsimp only

theorem execTestTimeout_keep (outs : List TestOut) (s : State) : KeepR 0x3492100BB s (execTestTimeout outs s) := by
  unfold execTestTimeout
  repeat' first
    | exact rfl
    | with_reducible apply Keep.refl
    | with_reducible assumption
    | with_reducible apply KeepR.refused
    | with_reducible apply KeepR.next
    | with_reducible apply Keep.via (State.endWave_keep ..)
    | with_reducible apply Keep.via (State.rollEnd_keep ..)
    | with_reducible apply Keep.via (State.returnEnd_keep ..)
    | with_reducible apply Keep.ite
    | with_reducible apply KeepR.ite
    | split
    | dsimp -proj only
    | ((with_reducible conv => arg 3; whnf); first | split)
    | dsimp -proj +zetaDelta only
    | dsimp only


end Sys2Proof.Machine
end

