-- ==== Sys2Proof/Laws/KeepAgeing.lean ====
section
/-! SUPPORT. What each operation of Machine/Ageing.lean leaves alone (Laws/Keep.lean). -/

namespace Sys2Proof.Machine

set_option linter.unusedTactic false
set_option linter.unreachableTactic false

theorem State.setAge_keep (s : State) (d : Nat) (a : Age) : Keep 0x3FFBFFFFF s (State.setAge s d a) := by
  unfold State.setAge
  repeat' first
    | exact rfl
    | with_reducible apply Keep.refl
    | with_reducible assumption
    | dsimp -proj only
    | ((with_reducible conv => arg 3; whnf); first | split | with_reducible apply Keep.setHlth)
    | dsimp -proj +zetaDelta only
    | dsimp only

theorem State.budgetSpent_keep (s : State) (d : Nat) : Keep 0x3E9214CBB s (State.budgetSpent s d) := by
  unfold State.budgetSpent
  repeat' first
    | exact rfl
    | with_reducible apply Keep.refl
    | with_reducible assumption
    | with_reducible apply Keep.via (State.reportDomain_keep ..)
    | with_reducible apply Keep.via (State.event_keep ..)
    | with_reducible apply Keep.ite
    | split
    | dsimp -proj only
    | ((with_reducible conv => arg 3; whnf); first | split | with_reducible apply Keep.setHlth)
    | dsimp -proj +zetaDelta only
    | dsimp only

theorem State.wantRaise_keep (s : State) (d v : Nat) : Keep 0x3E9214CBB s (State.wantRaise s d v) := by
  unfold State.wantRaise
  repeat' first
    | exact rfl
    | with_reducible apply Keep.refl
    | with_reducible assumption
    | with_reducible apply Keep.via (State.budgetSpent_keep ..)
    | with_reducible apply Keep.via (State.setAge_keep ..)
    | with_reducible apply Keep.ite
    | split
    | extract_lets
    | dsimp -proj only
    | ((with_reducible conv => arg 3; whnf); first | split | with_reducible apply Keep.setHlth)
    | dsimp -proj +zetaDelta only
    | dsimp only

theorem State.judgeEol_keep (s : State) (d : Nat) : Keep 0x3EFBDFCFB s (State.judgeEol s d) := by
  unfold State.judgeEol
  repeat' first
    | exact rfl
    | with_reducible apply Keep.refl
    | with_reducible assumption
    | with_reducible apply Keep.via (State.wr_keep ..)
    | with_reducible apply Keep.via (State.event_keep ..)
    | with_reducible apply Keep.via (State.setAge_keep ..)
    | with_reducible apply Keep.ite
    | split
    | extract_lets
    | dsimp -proj only
    | ((with_reducible conv => arg 3; whnf); first | split)
    | dsimp -proj +zetaDelta only
    | dsimp only

theorem State.readDomain_keep (s : State) (d : Nat) (mons : List (List Int)) : Keep 0x3E9214CBB s (State.readDomain s d mons) := by
  unfold State.readDomain
  repeat' first
    | exact rfl
    | with_reducible apply Keep.refl
    | with_reducible assumption
    | with_reducible apply Keep.via (State.event_keep ..)
    | with_reducible apply Keep.via (State.wf_keep ..)
    | with_reducible apply Keep.via (State.setAge_keep ..)
    | with_reducible apply Keep.via (State.judgeEol_keep ..)
    | with_reducible apply Keep.via (State.wantRaise_keep ..)
    | with_reducible apply Keep.foldl
    | with_reducible apply Keep.foldl_snd
    | with_reducible apply Keep.foldl_fst
    | (intro _ _)
    | with_reducible apply Keep.ite
    | split
    | extract_lets
    | dsimp -proj only
    | ((with_reducible conv => arg 3; whnf); first | split)
    | dsimp -proj +zetaDelta only
    | dsimp only

theorem State.readOsc_keep (s : State) (r c : Nat) : Keep 0x3EFFDFCFB s (State.readOsc s r c) := by
  unfold State.readOsc
  repeat' first
    | exact rfl
    | with_reducible apply Keep.refl
    | with_reducible assumption
    | with_reducible apply Keep.via (State.event_keep ..)
    | with_reducible apply Keep.via (State.wr_keep ..)
    | with_reducible apply Keep.ite
    | split
    | extract_lets
    | dsimp -proj only
    | ((with_reducible conv => arg 3; whnf); first | split)
    | dsimp -proj +zetaDelta only
    | dsimp only

theorem execAgeingReading_keep (mons : List (Nat × List (List Int))) (osc : List (Nat × Nat)) (s : State) : KeepR 0x3E9214CBB s (execAgeingReading mons osc s) := by
  unfold execAgeingReading
  repeat' first
    | exact rfl
    | with_reducible apply Keep.refl
    | with_reducible assumption
    | with_reducible apply KeepR.refused
    | with_reducible apply KeepR.next
    | with_reducible apply Keep.via (State.readDomain_keep ..)
    | with_reducible apply Keep.via (State.syncPend_keep ..)
    | with_reducible apply Keep.via (State.readOsc_keep ..)
    | with_reducible apply Keep.via (State.applyAge_keep ..)
    | with_reducible apply Keep.foldl
    | with_reducible apply Keep.foldl_snd
    | with_reducible apply Keep.foldl_fst
    | (intro _ _)
    | with_reducible apply Keep.ite
    | with_reducible apply KeepR.ite
    | split
    | extract_lets
    | dsimp -proj only
    | ((with_reducible conv => arg 3; whnf); first | split)
    | dsimp -proj +zetaDelta only
    | dsimp only

theorem execDeferredChangeApply_keep (s : State) : KeepR 0x3EBADFCFB s (execDeferredChangeApply s) := by
  unfold execDeferredChangeApply
  repeat' first
    | exact rfl
    | with_reducible apply Keep.refl
    | with_reducible assumption
    | with_reducible apply KeepR.refused
    | with_reducible apply KeepR.next
    | with_reducible apply Keep.via (State.applyAge_keep ..)
    | with_reducible apply Keep.via (State.undefer_keep ..)
    | with_reducible apply Keep.ite
    | with_reducible apply KeepR.ite
    | split
    | dsimp -proj only
    | ((with_reducible conv => arg 3; whnf); first | split)
    | dsimp -proj +zetaDelta only
    | dsimp only

theorem execPohSave_keep (s : State) : KeepR 0x3EBBDFCFB s (execPohSave s) := by
  unfold execPohSave
  repeat' first
    | exact rfl
    | with_reducible apply Keep.refl
    | with_reducible assumption
    | with_reducible apply KeepR.refused
    | with_reducible apply KeepR.next
    | with_reducible apply Keep.via (State.saveAge_keep ..)
    | with_reducible apply Keep.ite
    | with_reducible apply KeepR.ite
    | split
    | extract_lets
    | dsimp -proj only
    | ((with_reducible conv => arg 3; whnf); first | split | with_reducible apply Keep.setHlth)
    | dsimp -proj +zetaDelta only
    | dsimp only


end Sys2Proof.Machine
end

