-- ==== Sys2Proof/Laws/KeepModuleRows.lean ====
section
/-! SUPPORT. What each operation of Machine/ModuleRows.lean leaves alone (Laws/Keep.lean). -/

namespace Sys2Proof.Machine

set_option linter.unusedTactic false
set_option linter.unreachableTactic false

theorem execPowerGroupGood_keep (s : State) : KeepR 0x3FFDEFFFB s (execPowerGroupGood s) := by
  unfold execPowerGroupGood
  repeat' first
    | exact rfl
    | with_reducible apply Keep.refl
    | with_reducible assumption
    | with_reducible apply KeepR.refused
    | with_reducible apply KeepR.next
    | with_reducible apply Keep.via (State.setDom_keep ..)
    | with_reducible apply Keep.foldl
    | with_reducible apply Keep.foldl_snd
    | with_reducible apply Keep.foldl_fst
    | (intro _ _)
    | with_reducible apply Keep.ite
    | with_reducible apply KeepR.ite
    | split
    | extract_lets
    | dsimp -proj only
    | ((with_reducible conv => arg 3; whnf); first | split | with_reducible apply Keep.setPwr)
    | dsimp -proj +zetaDelta only
    | dsimp only

theorem execPowerGroupTimeout_keep (s : State) : KeepR 0x3EFDDFCFB s (execPowerGroupTimeout s) := by
  unfold execPowerGroupTimeout
  repeat' first
    | exact rfl
    | with_reducible apply Keep.refl
    | with_reducible assumption
    | with_reducible apply KeepR.refused
    | with_reducible apply KeepR.next
    | with_reducible apply Keep.via (State.alertOn_keep ..)
    | with_reducible apply Keep.via (State.event_keep ..)
    | with_reducible apply Keep.ite
    | with_reducible apply KeepR.ite
    | split
    | extract_lets
    | dsimp -proj only
    | ((with_reducible conv => arg 3; whnf); first | split | with_reducible apply Keep.setPwr)
    | dsimp -proj +zetaDelta only
    | dsimp only

theorem State.dark_keep (s : State) : Keep 0xD000031 s (State.dark s) := by
  unfold State.dark
  repeat' first
    | exact rfl
    | with_reducible apply Keep.refl
    | with_reducible assumption
    | with_reducible apply Keep.via (State.chipReset_keep ..)
    | extract_lets
    | dsimp -proj only
    | ((with_reducible conv => arg 3; whnf); first | split | with_reducible apply Keep.setOffDomsOffPwrRstModl)
    | dsimp -proj +zetaDelta only
    | dsimp only

theorem State.powerDown_keep (s : State) : Keep 0xD000031 s (State.powerDown s) := by
  unfold State.powerDown
  repeat' first
    | exact rfl
    | with_reducible apply Keep.refl
    | with_reducible assumption
    | with_reducible apply Keep.via (State.dark_keep ..)
    | with_reducible apply Keep.via (State.breachNotice_keep ..)
    | with_reducible apply Keep.ite
    | split
    | dsimp -proj only
    | ((with_reducible conv => arg 3; whnf); first | split)
    | dsimp -proj +zetaDelta only
    | dsimp only

theorem execPwrEnRise_keep (mv : Nat) (mated : Bool) (s : State) : KeepR 0xD000031 s (execPwrEnRise mv mated s) := by
  unfold execPwrEnRise
  repeat' first
    | exact rfl
    | with_reducible apply Keep.refl
    | with_reducible assumption
    | with_reducible apply KeepR.refused
    | with_reducible apply KeepR.next
    | with_reducible apply Keep.via (State.stampDev_keep ..)
    | with_reducible apply Keep.via (State.chipReset_keep ..)
    | with_reducible apply Keep.ite
    | with_reducible apply KeepR.ite
    | split
    | extract_lets
    | dsimp -proj only
    | ((with_reducible conv => arg 3; whnf); first | split | with_reducible apply Keep.setModl | with_reducible apply Keep.setOffDomsOffPwr)
    | dsimp -proj +zetaDelta only
    | dsimp only

theorem execPwrEnFall_keep (s : State) : KeepR 0xD000031 s (execPwrEnFall s) := by
  unfold execPwrEnFall
  repeat' first
    | exact rfl
    | with_reducible apply Keep.refl
    | with_reducible assumption
    | with_reducible apply KeepR.refused
    | with_reducible apply KeepR.next
    | with_reducible apply Keep.via (State.powerDown_keep ..)
    | dsimp -proj only
    | ((with_reducible conv => arg 3; whnf); first | split | with_reducible apply Keep.setModl)
    | dsimp -proj +zetaDelta only
    | dsimp only

theorem execModuleThermalTrip_keep (s : State) : KeepR 0xD000031 s (execModuleThermalTrip s) := by
  unfold execModuleThermalTrip
  repeat' first
    | exact rfl
    | with_reducible apply Keep.refl
    | with_reducible assumption
    | with_reducible apply KeepR.refused
    | with_reducible apply KeepR.next
    | with_reducible apply Keep.via (State.dark_keep ..)
    | with_reducible apply Keep.ite
    | with_reducible apply KeepR.ite
    | split
    | extract_lets
    | dsimp -proj only
    | ((with_reducible conv => arg 3; whnf); first | split | with_reducible apply Keep.setModl)
    | dsimp -proj +zetaDelta only
    | dsimp only

theorem execInputSample_keep (mv : Nat) (s : State) : KeepR 0xD000031 s (execInputSample mv s) := by
  unfold execInputSample
  repeat' first
    | exact rfl
    | with_reducible apply Keep.refl
    | with_reducible assumption
    | with_reducible apply KeepR.refused
    | with_reducible apply KeepR.next
    | with_reducible apply Keep.via (State.wf_keep ..)
    | with_reducible apply Keep.via (State.event_keep ..)
    | with_reducible apply Keep.via (State.powerDown_keep ..)
    | with_reducible apply Keep.ite
    | with_reducible apply KeepR.ite
    | split
    | extract_lets
    | dsimp -proj only
    | ((with_reducible conv => arg 3; whnf); first | split | with_reducible apply Keep.setPwr)
    | dsimp -proj +zetaDelta only
    | dsimp only

theorem execI3cRead_keep (a : BitVec 7) (o : Byte) (n : Nat) (s : State) : KeepR 0x3FFFFFFBF s (execI3cRead a o n s) := by
  unfold execI3cRead
  repeat' first
    | exact rfl
    | with_reducible apply Keep.refl
    | with_reducible assumption
    | with_reducible apply KeepR.refused
    | with_reducible apply KeepR.next
    | with_reducible apply Keep.via (State.send_keep ..)
    | with_reducible apply Keep.ite
    | with_reducible apply KeepR.ite
    | split
    | dsimp -proj only
    | ((with_reducible conv => arg 3; whnf); first | split)
    | dsimp -proj +zetaDelta only
    | dsimp only

theorem execI3cDynamicAddress_keep (a : BitVec 7) (s : State) : KeepR 0x1FFFFFFFF s (execI3cDynamicAddress a s) := by
  unfold execI3cDynamicAddress
  repeat' first
    | exact rfl
    | with_reducible apply Keep.refl
    | with_reducible assumption
    | with_reducible apply KeepR.refused
    | with_reducible apply KeepR.next
    | with_reducible apply Keep.ite
    | with_reducible apply KeepR.ite
    | split
    | dsimp -proj only
    | ((with_reducible conv => arg 3; whnf); first | split | with_reducible apply Keep.setModl)
    | dsimp -proj +zetaDelta only
    | dsimp only

theorem execFlashSidebandCmd_keep (c : SpiCmd) (aux : Bool) (s : State) : KeepR 0x3FBFFFFAF s (execFlashSidebandCmd c aux s) := by
  unfold execFlashSidebandCmd
  repeat' first
    | exact rfl
    | with_reducible apply Keep.refl
    | with_reducible assumption
    | exact twf_filter
    | with_reducible apply KeepR.refused
    | with_reducible apply KeepR.next
    | with_reducible apply Keep.via (State.send_keep ..)
    | with_reducible apply Keep.via (State.flashPut_keep ..)
    | with_reducible apply Keep.via (State.free_keep ..)
    | with_reducible apply Keep.foldl
    | with_reducible apply Keep.foldl_snd
    | with_reducible apply Keep.foldl_fst
    | (intro _ _)
    | with_reducible apply Keep.ite
    | with_reducible apply KeepR.ite
    | split
    | extract_lets
    | dsimp -proj only
    | ((with_reducible conv => arg 3; whnf); first | split | with_reducible apply Keep.setFlash)
    | dsimp -proj +zetaDelta only
    | dsimp only


end Sys2Proof.Machine
end

