-- ==== Sys2Proof/Laws/KeepViews.lean ====
section
/-! SUPPORT. What each operation of Machine/Views.lean leaves alone (Laws/Keep.lean). -/

namespace Sys2Proof.Machine

set_option linter.unusedTactic false
set_option linter.unreachableTactic false

theorem State.clearFields_keep (s : State) (a : Nat) (c : Access) : Keep 0x3FFFFFFFB s (State.clearFields s a c) := by
  unfold State.clearFields
  repeat' first
    | exact rfl
    | with_reducible apply Keep.refl
    | with_reducible assumption
    | with_reducible apply Keep.via (State.wf_keep ..)
    | with_reducible apply Keep.foldl
    | with_reducible apply Keep.foldl_snd
    | with_reducible apply Keep.foldl_fst
    | (intro _ _)
    | with_reducible apply Keep.ite
    | split
    | dsimp -proj only
    | ((with_reducible conv => arg 3; whnf); first | split)
    | dsimp -proj +zetaDelta only
    | dsimp only

theorem State.peakNow_keep (s : State) (a : Nat) : Keep 0x3FFFFFFFB s (State.peakNow s a) := by
  unfold State.peakNow
  repeat' first
    | exact rfl
    | with_reducible apply Keep.refl
    | with_reducible assumption
    | with_reducible apply Keep.via (State.peakQueue_keep ..)
    | with_reducible apply Keep.via (State.syncTrk_keep ..)
    | with_reducible apply Keep.via (State.storeMarks_keep ..)
    | with_reducible apply Keep.via (State.peaks_keep ..)
    | with_reducible apply Keep.ite
    | split
    | extract_lets
    | dsimp -proj only
    | ((with_reducible conv => arg 3; whnf); first | split)
    | dsimp -proj +zetaDelta only
    | dsimp only

theorem State.takeReply_keep (s : State) : Keep 0x3DFFDFFFF s s.takeReply := by
  unfold State.takeReply
  split
  · exact Keep.refl _ _
  · rename_i r rest hr
    extract_lets l c s1
    have hl : l.length ≤ s.cq.replies.length := by
      rw [hr]
      show (match r with | [] => rest | _ :: [] => rest | _ :: q => q :: rest).length ≤ _
      split <;> simp only [List.length_cons] <;> omega
    have h1 : Keep 0x3DFFDFFFF s s1 := Keep.setCq rfl (fun h => ⟨h.1, Nat.le_trans hl h.2⟩) (Keep.refl _ _)
    exact Keep.ite (Keep.via (State.clearIrq_keep ..) rfl h1) h1

theorem State.regRead_keep (s : State) (a : Nat) : Keep 0x3DFFDFFF3 s (State.regRead s a).2 := by
  unfold State.regRead
  repeat' first
    | exact rfl
    | with_reducible apply Keep.refl
    | with_reducible assumption
    | exact twf_tset
    | with_reducible apply Keep.via (State.peakNow_keep ..)
    | with_reducible apply Keep.via (State.clearFields_keep ..)
    | with_reducible apply Keep.via (State.clearIrq_keep ..)
    | with_reducible apply Keep.via (State.takeReply_keep ..)
    | with_reducible apply Keep.foldl
    | with_reducible apply Keep.foldl_snd
    | with_reducible apply Keep.foldl_fst
    | (intro _ _)
    | with_reducible apply Keep.ite
    | with_reducible apply Keep.ite_snd
    | split
    | extract_lets
    | dsimp -proj only
    | ((with_reducible conv => arg 3; whnf); first | split | with_reducible apply Keep.setLatch)
    | dsimp -proj +zetaDelta only
    | dsimp only

theorem State.fieldWrite_keep (s : State) (a v : Nat) : Keep 0x3FFFFFFFB s (State.fieldWrite s a v) := by
  unfold State.fieldWrite
  repeat' first
    | exact rfl
    | with_reducible apply Keep.refl
    | with_reducible assumption
    | with_reducible apply Keep.via (State.wf_keep ..)
    | with_reducible apply Keep.foldl
    | with_reducible apply Keep.foldl_snd
    | with_reducible apply Keep.foldl_fst
    | (intro _ _)
    | with_reducible apply Keep.ite
    | split
    | extract_lets
    | dsimp -proj only
    | ((with_reducible conv => arg 3; whnf); first | split)
    | dsimp -proj +zetaDelta only
    | dsimp only

theorem State.syncCap_keep (s : State) : Keep 0x3FFFFFFFB s (State.syncCap s) := by
  unfold State.syncCap
  repeat' first
    | exact rfl
    | with_reducible apply Keep.refl
    | with_reducible assumption
    | with_reducible apply Keep.via (State.wf_keep ..)
    | dsimp -proj only
    | ((with_reducible conv => arg 3; whnf); first | split)
    | dsimp -proj +zetaDelta only
    | dsimp only

theorem State.regWritten_keep (s : State) (a old : Nat) : Keep 0x3FFE7FFFB s (State.regWritten s a old) := by
  unfold State.regWritten
  repeat' first
    | exact rfl
    | with_reducible apply Keep.refl
    | with_reducible assumption
    | with_reducible apply Keep.via (State.askPlan_keep ..)
    | with_reducible apply Keep.via (State.wr_keep ..)
    | with_reducible apply Keep.via (State.syncCap_keep ..)
    | with_reducible apply Keep.via (State.newInterval_keep ..)
    | with_reducible apply Keep.via (State.wf_keep ..)
    | with_reducible apply Keep.ite
    | split
    | dsimp -proj only
    | ((with_reducible conv => arg 3; whnf); first | split | with_reducible apply Keep.setColl)
    | dsimp -proj +zetaDelta only
    | dsimp only

theorem State.regWrite_keep (s : State) (a v : Nat) : Keep 0x3FFE7FFFB s (State.regWrite s a v) := by
  unfold State.regWrite
  repeat' first
    | exact rfl
    | with_reducible apply Keep.refl
    | with_reducible assumption
    | with_reducible apply Keep.via (State.regWritten_keep ..)
    | with_reducible apply Keep.via (State.fieldWrite_keep ..)
    | dsimp -proj only
    | ((with_reducible conv => arg 3; whnf); first | split)
    | dsimp -proj +zetaDelta only
    | dsimp only


end Sys2Proof.Machine
end

