-- ==== Sys2Proof/Laws/KeepRegRows.lean ====
section
/-! SUPPORT. What each operation of Machine/RegRows.lean leaves alone (Laws/Keep.lean). -/

namespace Sys2Proof.Machine

set_option linter.unusedTactic false
set_option linter.unreachableTactic false

theorem State.runCores_keep (s : State) (v : Nat) : Keep 0x3FFFFFFFB s (State.runCores s v) := by
  unfold State.runCores
  repeat' first
    | exact rfl
    | with_reducible apply Keep.refl
    | with_reducible assumption
    | with_reducible apply Keep.via (State.wf_keep ..)
    | dsimp -proj only
    | ((with_reducible conv => arg 3; whnf); first | split)
    | dsimp -proj +zetaDelta only
    | dsimp only

theorem State.ptpCtl_keep (s : State) (v : Nat) : Keep 0x3BFFDFFFB s (State.ptpCtl s v) := by
  unfold State.ptpCtl
  repeat' first
    | exact rfl
    | with_reducible apply Keep.refl
    | with_reducible assumption
    | with_reducible apply Keep.via (State.clearIrq_keep ..)
    | with_reducible apply Keep.via (State.wf_keep ..)
    | with_reducible apply Keep.ite
    | split
    | extract_lets
    | dsimp -proj only
    | ((with_reducible conv => arg 3; whnf); first | split | with_reducible apply Keep.setMgmt)
    | dsimp -proj +zetaDelta only
    | dsimp only

theorem State.ptpSet_keep (s : State) (ns : Nat) : Keep 0x38FF9FCBB s (State.ptpSet s ns) := by
  unfold State.ptpSet
  repeat' first
    | exact rfl
    | with_reducible apply Keep.refl
    | with_reducible assumption
    | with_reducible apply Keep.via (State.wr_keep ..)
    | with_reducible apply Keep.via (State.wf_keep ..)
    | with_reducible apply Keep.via (State.epochDue_keep ..)
    | with_reducible apply Keep.via (State.event_keep ..)
    | with_reducible apply Keep.ite
    | split
    | extract_lets
    | dsimp -proj only
    | ((with_reducible conv => arg 3; whnf); first | split | with_reducible apply Keep.setMgmt)
    | dsimp -proj +zetaDelta only
    | dsimp only

theorem State.mgmtDown_keep (s : State) : Keep 0x3BFFFFFFB s (State.mgmtDown s) := by
  unfold State.mgmtDown
  repeat' first
    | exact rfl
    | with_reducible apply Keep.refl
    | with_reducible assumption
    | with_reducible apply Keep.via (State.wf_keep ..)
    | dsimp -proj only
    | ((with_reducible conv => arg 3; whnf); first | split | with_reducible apply Keep.setMgmt)
    | dsimp -proj +zetaDelta only
    | dsimp only

theorem State.mgmtMode_keep (s : State) (v : Nat) : Keep 0x3BFFFFFFB s (State.mgmtMode s v) := by
  unfold State.mgmtMode
  repeat' first
    | exact rfl
    | with_reducible apply Keep.refl
    | with_reducible assumption
    | with_reducible apply Keep.via (State.fieldWrite_keep ..)
    | with_reducible apply Keep.via (State.mgmtDown_keep ..)
    | with_reducible apply Keep.ite
    | split
    | extract_lets
    | dsimp -proj only
    | ((with_reducible conv => arg 3; whnf); first | split)
    | dsimp -proj +zetaDelta only
    | dsimp only

theorem State.writeSect_keep (s : State) (ps v : Nat) : Keep 0x3FFFFEFFB s (State.writeSect s ps v) := by
  unfold State.writeSect
  repeat' first
    | exact rfl
    | with_reducible apply Keep.refl
    | with_reducible assumption
    | with_reducible apply Keep.via (State.wf_keep ..)
    | with_reducible apply Keep.via (State.forceSect_keep ..)
    | with_reducible apply Keep.ite
    | split
    | extract_lets
    | dsimp -proj only
    | ((with_reducible conv => arg 3; whnf); first | split)
    | dsimp -proj +zetaDelta only
    | dsimp only

theorem State.writeChCtl_keep (s : State) (ch v : Nat) : Keep 0x3EFFDFCFB s (State.writeChCtl s ch v) := by
  unfold State.writeChCtl
  repeat' first
    | exact rfl
    | with_reducible apply Keep.refl
    | with_reducible assumption
    | with_reducible apply Keep.via (State.fieldWrite_keep ..)
    | with_reducible apply Keep.via (State.chFence_keep ..)
    | with_reducible apply Keep.ite
    | split
    | extract_lets
    | dsimp -proj only
    | ((with_reducible conv => arg 3; whnf); first | split)
    | dsimp -proj +zetaDelta only
    | dsimp only

theorem State.writePortCtl_keep (s : State) (p v : Nat) : Keep 0x3EFF9FCBB s (State.writePortCtl s p v) := by
  unfold State.writePortCtl
  repeat' first
    | exact rfl
    | with_reducible apply Keep.refl
    | with_reducible assumption
    | with_reducible apply Keep.via (State.fieldWrite_keep ..)
    | with_reducible apply Keep.via (State.retrainPort_keep ..)
    | with_reducible apply Keep.ite
    | split
    | extract_lets
    | dsimp -proj only
    | ((with_reducible conv => arg 3; whnf); first | split)
    | dsimp -proj +zetaDelta only
    | dsimp only

theorem State.lcpDrop_keep (s : State) (cause : Nat) : Keep 0x3CFFDFCFB s (State.lcpDrop s cause) := by
  unfold State.lcpDrop
  repeat' first
    | exact rfl
    | with_reducible apply Keep.refl
    | with_reducible assumption
    | with_reducible apply Keep.via (State.event_keep ..)
    | extract_lets
    | dsimp -proj only
    | exact (fun h => h : Cq.Bounded _ → Cq.Bounded _)
    | ((with_reducible conv => arg 3; whnf); first | split | with_reducible apply Keep.setCq)
    | dsimp -proj +zetaDelta only
    | dsimp only

theorem State.resync_keep (s : State) : Keep 0x3CFFDFCFB s (State.resync s) := by
  unfold State.resync
  repeat' first
    | exact rfl
    | with_reducible apply Keep.refl
    | with_reducible assumption
    | with_reducible apply Keep.via (State.lcpDrop_keep ..)
    | with_reducible apply Keep.ite
    | split
    | extract_lets
    | dsimp -proj only
    | exact (fun h => h : Cq.Bounded _ → Cq.Bounded _)
    | ((with_reducible conv => arg 3; whnf); first | split | with_reducible apply Keep.setCq)
    | dsimp -proj +zetaDelta only
    | dsimp only

theorem State.lcpTake_keep (s : State) (n : Nat) : Keep 0x3CFF9FCBB s (State.lcpTake s n) := by
  unfold State.lcpTake
  repeat' first
    | exact rfl
    | with_reducible apply Keep.refl
    | with_reducible assumption
    | with_reducible apply Keep.via (State.lcpDrop_keep ..)
    | with_reducible apply Keep.via (State.sat_keep ..)
    | with_reducible apply Keep.via (State.wf_keep ..)
    | with_reducible apply Keep.via (State.arrive_keep ..)
    | with_reducible apply Keep.ite
    | split
    | extract_lets
    | dsimp -proj only
    | exact (fun h => h : Cq.Bounded _ → Cq.Bounded _)
    | ((with_reducible conv => arg 3; whnf); first | split | with_reducible apply Keep.setCq)
    | dsimp -proj +zetaDelta only
    | dsimp only

theorem State.lcpBad_keep (s : State) : Keep 0x3CFF9FCBB s (State.lcpBad s) := by
  unfold State.lcpBad
  repeat' first
    | exact rfl
    | with_reducible apply Keep.refl
    | with_reducible assumption
    | with_reducible apply Keep.via (State.lcpDrop_keep ..)
    | with_reducible apply Keep.via (State.wf_keep ..)
    | with_reducible apply Keep.via (State.answer_keep ..)
    | extract_lets
    | dsimp -proj only
    | exact (fun h => h : Cq.Bounded _ → Cq.Bounded _)
    | ((with_reducible conv => arg 3; whnf); first | split | with_reducible apply Keep.setCq)
    | dsimp -proj +zetaDelta only
    | dsimp only

theorem State.lcpIn_keep (s : State) (w : Word) : Keep 0x3CFF9FCBB s (State.lcpIn s w) := by
  unfold State.lcpIn
  repeat' first
    | exact rfl
    | with_reducible apply Keep.refl
    | with_reducible assumption
    | with_reducible apply Keep.via (State.lcpBad_keep ..)
    | with_reducible apply Keep.via (State.lcpTake_keep ..)
    | with_reducible apply Keep.ite
    | split
    | extract_lets
    | dsimp -proj only
    | exact (fun h => h : Cq.Bounded _ → Cq.Bounded _)
    | ((with_reducible conv => arg 3; whnf); first | split | with_reducible apply Keep.setCq)
    | dsimp -proj +zetaDelta only
    | dsimp only

theorem State.lcpSt_keep (s : State) (v : Nat) : Keep 0x3CFFDFCFB s (State.lcpSt s v) := by
  unfold State.lcpSt
  repeat' first
    | exact rfl
    | with_reducible apply Keep.refl
    | with_reducible assumption
    | with_reducible apply Keep.via (State.fieldWrite_keep ..)
    | with_reducible apply Keep.via (State.resync_keep ..)
    | with_reducible apply Keep.ite
    | split
    | extract_lets
    | dsimp -proj only
    | ((with_reducible conv => arg 3; whnf); first | split)
    | dsimp -proj +zetaDelta only
    | dsimp only

theorem State.writeOwn_keep (s : State) (a v : Nat) : KeepO 0x38FE8E0BB s (State.writeOwn s a v) := by
  unfold State.writeOwn
  repeat' first
    | exact rfl
    | with_reducible apply Keep.refl
    | with_reducible assumption
    | with_reducible apply KeepO.none
    | with_reducible apply KeepO.some
    | with_reducible apply KeepO.ite
    | with_reducible apply Keep.via (State.runCores_keep ..)
    | with_reducible apply Keep.via (State.ptpCtl_keep ..)
    | with_reducible apply Keep.via (State.wr_keep ..)
    | with_reducible apply Keep.via (State.ptpSet_keep ..)
    | with_reducible apply Keep.via (State.mgmtMode_keep ..)
    | with_reducible apply Keep.via (State.lcpIn_keep ..)
    | with_reducible apply Keep.via (State.lcpSt_keep ..)
    | with_reducible apply Keep.via (State.writeEpoch_keep ..)
    | with_reducible apply Keep.via (State.writeGate_keep ..)
    | with_reducible apply Keep.via (State.askRealign_keep ..)
    | with_reducible apply Keep.ite
    | split
    | dsimp -proj only
    | ((with_reducible conv => arg 3; whnf); first | split)
    | dsimp -proj +zetaDelta only
    | dsimp only

theorem State.writeArr_keep (s : State) (a v : Nat) : KeepO 0x3CFF9ECBB s (State.writeArr s a v) := by
  unfold State.writeArr
  repeat' first
    | exact rfl
    | with_reducible apply Keep.refl
    | with_reducible assumption
    | with_reducible apply KeepO.none
    | with_reducible apply KeepO.some
    | with_reducible apply KeepO.ite
    | with_reducible apply Keep.via (State.writeSect_keep ..)
    | with_reducible apply Keep.via (State.writeChCtl_keep ..)
    | with_reducible apply Keep.via (State.writePortCtl_keep ..)
    | with_reducible apply Keep.via (State.writeStripe_keep ..)
    | with_reducible apply Keep.via (State.epochDue_keep ..)
    | with_reducible apply Keep.via (State.rerouteWaiting_keep ..)
    | with_reducible apply Keep.via (State.fieldWrite_keep ..)
    | with_reducible apply Keep.ite
    | split
    | extract_lets
    | dsimp -proj only
    | ((with_reducible conv => arg 3; whnf); first | split)
    | dsimp -proj +zetaDelta only
    | dsimp only

theorem State.writeReg_keep (s : State) (a v : Nat) : Keep 0x38FE0E0BB s (State.writeReg s a v) := by
  unfold State.writeReg
  repeat' first
    | exact rfl
    | with_reducible apply Keep.refl
    | with_reducible assumption
    | (refine Keep.via (KeepO.keep (State.writeOwn_keep ..) _ (by assumption)) ?_ ?_)
    | (refine Keep.via (KeepO.keep (State.writeArr_keep ..) _ (by assumption)) ?_ ?_)
    | with_reducible apply Keep.via (State.regWrite_keep ..)
    | split
    | dsimp -proj only
    | ((with_reducible conv => arg 3; whnf); first | split)
    | dsimp -proj +zetaDelta only
    | dsimp only

theorem State.trapCore_keep (s : State) (who : Who) (fetch : Bool) (addr : Nat) : Keep 0x3FFFFFFBF s (State.trapCore s who fetch addr) := by
  unfold State.trapCore
  repeat' first
    | exact rfl
    | with_reducible apply Keep.refl
    | with_reducible assumption
    | with_reducible apply Keep.via (State.send_keep ..)
    | split
    | dsimp -proj only
    | ((with_reducible conv => arg 3; whnf); first | split)
    | dsimp -proj +zetaDelta only
    | dsimp only

theorem State.badAccess_keep (s : State) (who : Who) (a dir : Nat) : Keep 0x3EFFDFCBB s (State.badAccess s who a dir) := by
  unfold State.badAccess
  repeat' first
    | exact rfl
    | with_reducible apply Keep.refl
    | with_reducible assumption
    | with_reducible apply Keep.via (State.trapCore_keep ..)
    | with_reducible apply Keep.via (State.addrError_keep ..)
    | dsimp -proj only
    | ((with_reducible conv => arg 3; whnf); first | split)
    | dsimp -proj +zetaDelta only
    | dsimp only

theorem State.softRead_keep (s : State) (who : Who) (a n : Nat) : Keep 0x3CFFDFCB3 s (State.softRead s who a n) := by
  unfold State.softRead
  repeat' first
    | exact rfl
    | with_reducible apply Keep.refl
    | with_reducible assumption
    | with_reducible apply Keep.via (State.badAccess_keep ..)
    | with_reducible apply Keep.via (State.send_keep ..)
    | with_reducible apply Keep.via (State.addrError_keep ..)
    | with_reducible apply Keep.via (State.regRead_keep ..)
    | with_reducible apply Keep.ite
    | split
    | extract_lets
    | dsimp -proj only
    | ((with_reducible conv => arg 3; whnf); first | split)
    | dsimp -proj +zetaDelta only
    | dsimp only

theorem State.softWrite_keep (s : State) (n a w v : Nat) : Keep 0x38FE0E0BB s (State.softWrite s n a w v) := by
  unfold State.softWrite
  repeat' first
    | exact rfl
    | with_reducible apply Keep.refl
    | with_reducible assumption
    | with_reducible apply Keep.via (State.badAccess_keep ..)
    | with_reducible apply Keep.via (State.event_keep ..)
    | with_reducible apply Keep.via (State.sat_keep ..)
    | with_reducible apply Keep.via (State.addrError_keep ..)
    | with_reducible apply Keep.via (State.writeReg_keep ..)
    | with_reducible apply Keep.ite
    | split
    | dsimp -proj only
    | ((with_reducible conv => arg 3; whnf); first | split)
    | dsimp -proj +zetaDelta only
    | dsimp only

theorem execReg64LowRead_keep (who : Who) (a n : Nat) (s : State) : KeepR 0x3CFFDFCB3 s (execReg64LowRead who a s n) := by
  unfold execReg64LowRead
  repeat' first
    | exact rfl
    | with_reducible apply Keep.refl
    | with_reducible assumption
    | with_reducible apply KeepR.refused
    | with_reducible apply KeepR.next
    | with_reducible apply Keep.via (State.softRead_keep ..)
    | dsimp -proj only
    | ((with_reducible conv => arg 3; whnf); first | split)
    | dsimp -proj +zetaDelta only
    | dsimp only

theorem execRcRead_keep (who : Who) (a n : Nat) (s : State) : KeepR 0x3CFFDFCB3 s (execRcRead who a s n) := by
  unfold execRcRead
  repeat' first
    | exact rfl
    | with_reducible apply Keep.refl
    | with_reducible assumption
    | with_reducible apply KeepR.refused
    | with_reducible apply KeepR.next
    | with_reducible apply Keep.via (State.softRead_keep ..)
    | dsimp -proj only
    | ((with_reducible conv => arg 3; whnf); first | split)
    | dsimp -proj +zetaDelta only
    | dsimp only

theorem execSknStatusRead_keep (who : Who) (s : State) : KeepR 0x3CFFDFCB3 s (execSknStatusRead who s) := by
  unfold execSknStatusRead
  repeat' first
    | exact rfl
    | with_reducible apply Keep.refl
    | with_reducible assumption
    | with_reducible apply KeepR.refused
    | with_reducible apply KeepR.next
    | with_reducible apply Keep.via (State.softRead_keep ..)
    | dsimp -proj only
    | ((with_reducible conv => arg 3; whnf); first | split)
    | dsimp -proj +zetaDelta only
    | dsimp only

theorem execCmdDevStateRead_keep (who : Who) (s : State) : KeepR 0x3CFFDFCB3 s (execCmdDevStateRead who s) := by
  unfold execCmdDevStateRead
  repeat' first
    | exact rfl
    | with_reducible apply Keep.refl
    | with_reducible assumption
    | with_reducible apply KeepR.refused
    | with_reducible apply KeepR.next
    | with_reducible apply Keep.via (State.softRead_keep ..)
    | dsimp -proj only
    | ((with_reducible conv => arg 3; whnf); first | split)
    | dsimp -proj +zetaDelta only
    | dsimp only

theorem execCmdLcpOutRead_keep (who : Who) (s : State) : KeepR 0x3CFFDFCB3 s (execCmdLcpOutRead who s) := by
  unfold execCmdLcpOutRead
  repeat' first
    | exact rfl
    | with_reducible apply Keep.refl
    | with_reducible assumption
    | with_reducible apply KeepR.refused
    | with_reducible apply KeepR.next
    | with_reducible apply Keep.via (State.softRead_keep ..)
    | dsimp -proj only
    | ((with_reducible conv => arg 3; whnf); first | split)
    | dsimp -proj +zetaDelta only
    | dsimp only

theorem execRegWriteOther_keep (hart : Fin 8) (a n : Nat) (v : Word) (s : State) : KeepR 0x38FE0E0BB s (execRegWriteOther hart a v s n) := by
  unfold execRegWriteOther
  repeat' first
    | exact rfl
    | with_reducible apply Keep.refl
    | with_reducible assumption
    | with_reducible apply KeepR.refused
    | with_reducible apply KeepR.next
    | with_reducible apply Keep.via (State.softWrite_keep ..)
    | dsimp -proj only
    | ((with_reducible conv => arg 3; whnf); first | split)
    | dsimp -proj +zetaDelta only
    | dsimp only

theorem execRegAccessTimeout_keep (who : Who) (a : Nat) (write : Bool) (s : State) : KeepR 0x3EFFDFCBB s (execRegAccessTimeout who a write s) := by
  unfold execRegAccessTimeout
  repeat' first
    | exact rfl
    | with_reducible apply Keep.refl
    | with_reducible assumption
    | with_reducible apply KeepR.refused
    | with_reducible apply KeepR.next
    | with_reducible apply Keep.via (State.addrError_keep ..)
    | with_reducible apply Keep.via (State.send_keep ..)
    | with_reducible apply Keep.ite
    | with_reducible apply KeepR.ite
    | split
    | extract_lets
    | dsimp -proj only
    | ((with_reducible conv => arg 3; whnf); first | split)
    | dsimp -proj +zetaDelta only
    | dsimp only

theorem execCmdLcpInWrite_keep (w : Word) (s : State) : KeepR 0x3CFF9FCBB s (execCmdLcpInWrite w s) := by
  unfold execCmdLcpInWrite
  repeat' first
    | exact rfl
    | with_reducible apply Keep.refl
    | with_reducible assumption
    | with_reducible apply KeepR.refused
    | with_reducible apply KeepR.next
    | with_reducible apply Keep.via (State.lcpIn_keep ..)
    | dsimp -proj only
    | ((with_reducible conv => arg 3; whnf); first | split)
    | dsimp -proj +zetaDelta only
    | dsimp only

theorem execResync_keep (s : State) : KeepR 0x3CFFDFCFB s (execResync s) := by
  unfold execResync
  repeat' first
    | exact rfl
    | with_reducible apply Keep.refl
    | with_reducible assumption
    | with_reducible apply KeepR.refused
    | with_reducible apply KeepR.next
    | with_reducible apply Keep.via (State.resync_keep ..)
    | dsimp -proj only
    | ((with_reducible conv => arg 3; whnf); first | split)
    | dsimp -proj +zetaDelta only
    | dsimp only

theorem execLcpAssemblyTimeout_keep (s : State) : KeepR 0x3CFFDFCFB s (execLcpAssemblyTimeout s) := by
  unfold execLcpAssemblyTimeout
  repeat' first
    | exact rfl
    | with_reducible apply Keep.refl
    | with_reducible assumption
    | with_reducible apply KeepR.refused
    | with_reducible apply KeepR.next
    | with_reducible apply Keep.via (State.lcpDrop_keep ..)
    | with_reducible apply Keep.via (State.wf_keep ..)
    | with_reducible apply Keep.ite
    | with_reducible apply KeepR.ite
    | split
    | dsimp -proj only
    | ((with_reducible conv => arg 3; whnf); first | split)
    | dsimp -proj +zetaDelta only
    | dsimp only

theorem execMgmtCoreRunWrite_keep (v : Word) (s : State) : KeepR 0x3EFFDFCFB s (execMgmtCoreRunWrite v s) := by
  unfold execMgmtCoreRunWrite
  repeat' first
    | exact rfl
    | with_reducible apply Keep.refl
    | with_reducible assumption
    | with_reducible apply KeepR.refused
    | with_reducible apply KeepR.next
    | with_reducible refine State.rowWrite_keep _ _ rfl ?_ ?_
    | (intro _ _ _)
    | with_reducible apply Keep.via (State.runCores_keep ..)
    | dsimp -proj only
    | ((with_reducible conv => arg 3; whnf); first | split)
    | dsimp -proj +zetaDelta only
    | dsimp only

theorem execMgmtPtpSetWrite_keep (sec : BitVec 48) (ns : Word) (s : State) : KeepR 0x38FF9FCBB s (execMgmtPtpSetWrite sec ns s) := by
  unfold execMgmtPtpSetWrite
  repeat' first
    | exact rfl
    | with_reducible apply Keep.refl
    | with_reducible assumption
    | with_reducible apply KeepR.refused
    | with_reducible apply KeepR.next
    | with_reducible refine State.rowWrite_keep _ _ rfl ?_ ?_
    | (intro _ _ _)
    | with_reducible apply Keep.via (State.ptpSet_keep ..)
    | with_reducible apply Keep.via (State.wr_keep ..)
    | dsimp -proj only
    | ((with_reducible conv => arg 3; whnf); first | split)
    | dsimp -proj +zetaDelta only
    | dsimp only

theorem execPpsEvClear_keep (s : State) : KeepR 0x3EFFDFCFB s (execPpsEvClear s) := by
  unfold execPpsEvClear
  repeat' first
    | exact rfl
    | with_reducible apply Keep.refl
    | with_reducible assumption
    | with_reducible apply KeepR.refused
    | with_reducible apply KeepR.next
    | with_reducible refine State.rowWrite_keep _ _ rfl ?_ ?_
    | (intro _ _ _)
    | with_reducible apply Keep.via (State.clearIrq_keep ..)
    | with_reducible apply Keep.via (State.wf_keep ..)
    | dsimp -proj only
    | ((with_reducible conv => arg 3; whnf); first | split)
    | dsimp -proj +zetaDelta only
    | dsimp only

theorem execSpnNumFlagsWrite_keep (ps : Fin 18) (expert : Bool) (v : Word) (s : State) : KeepR 0x3EFFDFCBB s (execSpnNumFlagsWrite ps expert v s) := by
  unfold execSpnNumFlagsWrite
  repeat' first
    | exact rfl
    | with_reducible apply Keep.refl
    | with_reducible assumption
    | with_reducible apply KeepR.refused
    | with_reducible apply KeepR.next
    | with_reducible apply Keep.via (State.send_keep ..)
    | with_reducible refine State.rowWrite_keep _ _ rfl ?_ ?_
    | (intro _ _ _)
    | with_reducible apply Keep.via (State.fieldWrite_keep ..)
    | with_reducible apply Keep.ite
    | with_reducible apply KeepR.ite
    | split
    | extract_lets
    | dsimp -proj only
    | ((with_reducible conv => arg 3; whnf); first | split)
    | dsimp -proj +zetaDelta only
    | dsimp only


end Sys2Proof.Machine
end

