-- ==== Sys2Proof/Laws/KeepMgmt.lean ====
section
/-! SUPPORT. What each operation of Machine/Mgmt.lean leaves alone (Laws/Keep.lean). -/

namespace Sys2Proof.Machine

set_option linter.unusedTactic false
set_option linter.unreachableTactic false

theorem execCorePoisonFault_keep (hart : Fin 8) (fetch : Bool) (addr : Nat) (s : State) : KeepR 0x3EFFDFCBB s (execCorePoisonFault hart fetch addr s) := by
  unfold execCorePoisonFault
  repeat' first
    | exact rfl
    | with_reducible apply Keep.refl
    | with_reducible assumption
    | with_reducible apply KeepR.refused
    | with_reducible apply KeepR.next
    | with_reducible apply Keep.via (State.event_keep ..)
    | with_reducible apply Keep.via (State.sat_keep ..)
    | with_reducible apply Keep.via (State.send_keep ..)
    | extract_lets
    | dsimp -proj only
    | ((with_reducible conv => arg 3; whnf); first | split)
    | dsimp -proj +zetaDelta only
    | dsimp only

theorem execCoreAccessFault_keep (hart : Fin 8) (fetch write : Bool) (addr : Nat) (s : State) : KeepR 0x3EFFDFCBB s (execCoreAccessFault hart fetch write addr s) := by
  unfold execCoreAccessFault
  repeat' first
    | exact rfl
    | with_reducible apply Keep.refl
    | with_reducible assumption
    | with_reducible apply KeepR.refused
    | with_reducible apply KeepR.next
    | with_reducible apply Keep.via (State.send_keep ..)
    | with_reducible apply Keep.via (State.addrError_keep ..)
    | with_reducible apply Keep.ite
    | with_reducible apply KeepR.ite
    | split
    | dsimp -proj only
    | ((with_reducible conv => arg 3; whnf); first | split)
    | dsimp -proj +zetaDelta only
    | dsimp only

theorem execLockstepMismatch_keep (s : State) : KeepR 0x3DF5FFFFB s (execLockstepMismatch s) := by
  unfold execLockstepMismatch
  repeat' first
    | exact rfl
    | with_reducible apply Keep.refl
    | with_reducible assumption
    | with_reducible apply KeepR.refused
    | with_reducible apply KeepR.next
    | with_reducible apply Keep.via (State.alertOn_keep ..)
    | with_reducible apply Keep.via (State.haltSilent_keep ..)
    | with_reducible apply Keep.ite
    | with_reducible apply KeepR.ite
    | split
    | dsimp -proj only
    | exact (fun h => h : Cq.Bounded _ → Cq.Bounded _)
    | ((with_reducible conv => arg 3; whnf); first | split | with_reducible apply Keep.setCq)
    | dsimp -proj +zetaDelta only
    | dsimp only

theorem execConsoleReceive_keep (bytes : List Byte) (s : State) : KeepR 0x3FFFDFFBF s (execConsoleReceive bytes s) := by
  unfold execConsoleReceive
  repeat' first
    | exact rfl
    | with_reducible apply Keep.refl
    | with_reducible assumption
    | with_reducible apply KeepR.refused
    | with_reducible apply KeepR.next
    | with_reducible apply Keep.via (State.raiseIrq_keep ..)
    | with_reducible apply Keep.via (State.send_keep ..)
    | dsimp -proj only
    | ((with_reducible conv => arg 3; whnf); first | split)
    | dsimp -proj +zetaDelta only
    | dsimp only

theorem execConsoleTransmit_keep (bytes : List Byte) (s : State) : KeepR 0x3FFFFFFBF s (execConsoleTransmit bytes s) := by
  unfold execConsoleTransmit
  repeat' first
    | exact rfl
    | with_reducible apply Keep.refl
    | with_reducible assumption
    | with_reducible apply KeepR.refused
    | with_reducible apply KeepR.next
    | with_reducible apply Keep.via (State.send_keep ..)
    | dsimp -proj only
    | ((with_reducible conv => arg 3; whnf); first | split)
    | dsimp -proj +zetaDelta only
    | dsimp only

theorem execMgmtLinkUp_keep (s : State) : KeepR 0x3FFFFFFFB s (execMgmtLinkUp s) := by
  unfold execMgmtLinkUp
  repeat' first
    | exact rfl
    | with_reducible apply Keep.refl
    | with_reducible assumption
    | with_reducible apply KeepR.refused
    | with_reducible apply KeepR.next
    | with_reducible apply Keep.via (State.wf_keep ..)
    | with_reducible apply Keep.ite
    | with_reducible apply KeepR.ite
    | split
    | dsimp -proj only
    | ((with_reducible conv => arg 3; whnf); first | split)
    | dsimp -proj +zetaDelta only
    | dsimp only

theorem execMgmtLinkLoss_keep (s : State) : KeepR 0x3BFFFFFFB s (execMgmtLinkLoss s) := by
  unfold execMgmtLinkLoss
  repeat' first
    | exact rfl
    | with_reducible apply Keep.refl
    | with_reducible assumption
    | with_reducible apply KeepR.refused
    | with_reducible apply KeepR.next
    | with_reducible apply Keep.via (State.mgmtDown_keep ..)
    | with_reducible apply Keep.ite
    | with_reducible apply KeepR.ite
    | split
    | dsimp -proj only
    | ((with_reducible conv => arg 3; whnf); first | split)
    | dsimp -proj +zetaDelta only
    | dsimp only

theorem execMgmtSpeedAlternate_keep (s : State) : KeepR 0x3BFFFFFFF s (execMgmtSpeedAlternate s) := by
  unfold execMgmtSpeedAlternate
  repeat' first
    | exact rfl
    | with_reducible apply Keep.refl
    | with_reducible assumption
    | with_reducible apply KeepR.refused
    | with_reducible apply KeepR.next
    | with_reducible apply Keep.ite
    | with_reducible apply KeepR.ite
    | split
    | dsimp -proj only
    | ((with_reducible conv => arg 3; whnf); first | split | with_reducible apply Keep.setMgmt)
    | dsimp -proj +zetaDelta only
    | dsimp only

theorem State.cuardRate_keep (s : State) : Keep 0x3CFFDFCFB s (State.cuardRate s).2 := by
  unfold State.cuardRate
  repeat' first
    | exact rfl
    | with_reducible apply Keep.refl
    | with_reducible assumption
    | with_reducible apply Keep.via (State.sat_keep ..)
    | with_reducible apply Keep.via (State.event_keep ..)
    | with_reducible apply Keep.ite
    | with_reducible apply Keep.ite_snd
    | split
    | extract_lets
    | dsimp -proj only
    | exact (fun h => h : Cq.Bounded _ → Cq.Bounded _)
    | ((with_reducible conv => arg 3; whnf); first | split | with_reducible apply Keep.setCq)
    | dsimp -proj +zetaDelta only
    | dsimp only

theorem State.toVnet_keep (s : State) (buffer : Bool) (l : List Byte) : Keep 0x3FFFDFFBB s (State.toVnet s buffer l) := by
  unfold State.toVnet
  repeat' first
    | exact rfl
    | with_reducible apply Keep.refl
    | with_reducible assumption
    | with_reducible apply Keep.via (State.raiseIrq_keep ..)
    | with_reducible apply Keep.via (State.send_keep ..)
    | with_reducible apply Keep.via (State.sat_keep ..)
    | with_reducible apply Keep.ite
    | split
    | dsimp -proj only
    | ((with_reducible conv => arg 3; whnf); first | split)
    | dsimp -proj +zetaDelta only
    | dsimp only

theorem State.classify_keep (s : State) (buffer : Bool) (l : List Byte) : Keep 0x3CFF9FCBB s (State.classify s buffer l) := by
  unfold State.classify
  repeat' first
    | exact rfl
    | with_reducible apply Keep.refl
    | with_reducible assumption
    | with_reducible apply Keep.via (State.cuardRate_keep ..)
    | with_reducible apply Keep.via (State.arrive_keep ..)
    | with_reducible apply Keep.via (State.send_keep ..)
    | with_reducible apply Keep.via (State.toVnet_keep ..)
    | with_reducible apply Keep.via (State.sat_keep ..)
    | with_reducible apply Keep.ite
    | split
    | extract_lets
    | dsimp -proj only
    | ((with_reducible conv => arg 3; whnf); first | split)
    | dsimp -proj +zetaDelta only
    | dsimp only

theorem execMgmtFrameReceive_keep (bytes : List Byte) (buffer : Bool) (s : State) : KeepR 0x3CFF9FCBB s (execMgmtFrameReceive bytes buffer s) := by
  unfold execMgmtFrameReceive
  repeat' first
    | exact rfl
    | with_reducible apply Keep.refl
    | with_reducible assumption
    | with_reducible apply KeepR.refused
    | with_reducible apply KeepR.next
    | with_reducible apply Keep.via (State.classify_keep ..)
    | with_reducible apply Keep.ite
    | with_reducible apply KeepR.ite
    | split
    | extract_lets
    | dsimp -proj only
    | ((with_reducible conv => arg 3; whnf); first | split)
    | dsimp -proj +zetaDelta only
    | dsimp only

theorem State.spoofDrop_keep (s : State) : Keep 0x3CFFDFCFB s (State.spoofDrop s) := by
  unfold State.spoofDrop
  repeat' first
    | exact rfl
    | with_reducible apply Keep.refl
    | with_reducible assumption
    | with_reducible apply Keep.via (State.event_keep ..)
    | with_reducible apply Keep.via (State.sat_keep ..)
    | with_reducible apply Keep.ite
    | split
    | extract_lets
    | dsimp -proj only
    | exact (fun h => h : Cq.Bounded _ → Cq.Bounded _)
    | ((with_reducible conv => arg 3; whnf); first | split | with_reducible apply Keep.setCq)
    | dsimp -proj +zetaDelta only
    | dsimp only

theorem execVirtioNetTransmit_keep (bytes : List Byte) (stamp : Bool) (s : State) : KeepR 0x3CFFDFCBB s (execVirtioNetTransmit bytes stamp s) := by
  unfold execVirtioNetTransmit
  repeat' first
    | exact rfl
    | with_reducible apply Keep.refl
    | with_reducible assumption
    | with_reducible apply KeepR.refused
    | with_reducible apply KeepR.next
    | with_reducible apply Keep.via (State.spoofDrop_keep ..)
    | with_reducible apply Keep.via (State.send_keep ..)
    | with_reducible apply Keep.ite
    | with_reducible apply KeepR.ite
    | split
    | extract_lets
    | dsimp -proj only
    | ((with_reducible conv => arg 3; whnf); first | split)
    | dsimp -proj +zetaDelta only
    | dsimp only

theorem execPpsEdge_keep (low high : Nat) (s : State) : KeepR 0x3BFFDFFFB s (execPpsEdge low high s) := by
  unfold execPpsEdge
  repeat' first
    | exact rfl
    | with_reducible apply Keep.refl
    | with_reducible assumption
    | with_reducible apply KeepR.refused
    | with_reducible apply KeepR.next
    | with_reducible apply Keep.via (State.wr_keep ..)
    | with_reducible apply Keep.via (State.raiseIrq_keep ..)
    | with_reducible apply Keep.via (State.wf_keep ..)
    | with_reducible apply Keep.via (State.sat_keep ..)
    | with_reducible apply Keep.ite
    | with_reducible apply KeepR.ite
    | split
    | extract_lets
    | dsimp -proj only
    | ((with_reducible conv => arg 3; whnf); first | split | with_reducible apply Keep.setMgmt)
    | dsimp -proj +zetaDelta only
    | dsimp only

theorem State.unlockDebug_keep (s : State) (id : Nat) : Keep 0x3CFFDFCFB s (State.unlockDebug s id).2 := by
  unfold State.unlockDebug
  repeat' first
    | exact rfl
    | with_reducible apply Keep.refl
    | with_reducible assumption
    | with_reducible apply Keep.via (State.extend_keep ..)
    | with_reducible apply Keep.via (State.wf_keep ..)
    | with_reducible apply Keep.via (State.event_keep ..)
    | with_reducible apply Keep.ite
    | with_reducible apply Keep.ite_snd
    | split
    | extract_lets
    | dsimp -proj only
    | exact (fun h => h : Cq.Bounded _ → Cq.Bounded _)
    | ((with_reducible conv => arg 3; whnf); first | split | with_reducible apply Keep.setCq)
    | dsimp -proj +zetaDelta only
    | dsimp only

theorem execDebugUnlock_keep (id : Nat) (s : State) : KeepR 0x3CFFDFCFB s (execDebugUnlock id s) := by
  unfold execDebugUnlock
  repeat' first
    | exact rfl
    | with_reducible apply Keep.refl
    | with_reducible assumption
    | with_reducible apply KeepR.refused
    | with_reducible apply KeepR.next
    | with_reducible apply Keep.via (State.unlockDebug_keep ..)
    | dsimp -proj only
    | ((with_reducible conv => arg 3; whnf); first | split)
    | dsimp -proj +zetaDelta only
    | dsimp only

theorem execDebugRelock_keep (id : Nat) (s : State) : KeepR 0x3CFFDFCFB s (execDebugRelock id s) := by
  unfold execDebugRelock
  repeat' first
    | exact rfl
    | with_reducible apply Keep.refl
    | with_reducible assumption
    | with_reducible apply KeepR.refused
    | with_reducible apply KeepR.next
    | with_reducible apply Keep.via (State.relock_keep ..)
    | dsimp -proj only
    | ((with_reducible conv => arg 3; whnf); first | split)
    | dsimp -proj +zetaDelta only
    | dsimp only

theorem execSessionConfirmTimeout_keep (s : State) : KeepR 0x3CFFDFCFB s (execSessionConfirmTimeout s) := by
  unfold execSessionConfirmTimeout
  repeat' first
    | exact rfl
    | with_reducible apply Keep.refl
    | with_reducible assumption
    | with_reducible apply KeepR.refused
    | with_reducible apply KeepR.next
    | with_reducible apply Keep.via (State.authFail_keep ..)
    | split
    | dsimp -proj only
    | exact (fun h => h : Cq.Bounded _ → Cq.Bounded _)
    | ((with_reducible conv => arg 3; whnf); first | split | with_reducible apply Keep.setCq)
    | dsimp -proj +zetaDelta only
    | dsimp only

theorem execSessionIdleTimeout_keep (s : State) : KeepR 0x3CFFDFCFB s (execSessionIdleTimeout s) := by
  unfold execSessionIdleTimeout
  repeat' first
    | exact rfl
    | with_reducible apply Keep.refl
    | with_reducible assumption
    | with_reducible apply KeepR.refused
    | with_reducible apply KeepR.next
    | with_reducible apply Keep.via (State.closeSess_keep ..)
    | split
    | dsimp -proj only
    | ((with_reducible conv => arg 3; whnf); first | split)
    | dsimp -proj +zetaDelta only
    | dsimp only

theorem execSessionLifetimeExpiry_keep (s : State) : KeepR 0x3CFFDFCFB s (execSessionLifetimeExpiry s) := by
  unfold execSessionLifetimeExpiry
  repeat' first
    | exact rfl
    | with_reducible apply Keep.refl
    | with_reducible assumption
    | with_reducible apply KeepR.refused
    | with_reducible apply KeepR.next
    | with_reducible apply Keep.via (State.closeSess_keep ..)
    | split
    | dsimp -proj only
    | ((with_reducible conv => arg 3; whnf); first | split)
    | dsimp -proj +zetaDelta only
    | dsimp only

theorem execQnonceExpiry_keep (s : State) : KeepR 0x3DFFFFFDF s (execQnonceExpiry s) := by
  unfold execQnonceExpiry
  repeat' first
    | exact rfl
    | with_reducible apply Keep.refl
    | with_reducible assumption
    | with_reducible apply KeepR.refused
    | with_reducible apply KeepR.next
    | with_reducible apply Keep.via (State.newNonce_keep ..)
    | with_reducible apply Keep.ite
    | with_reducible apply KeepR.ite
    | split
    | dsimp -proj only
    | ((with_reducible conv => arg 3; whnf); first | split)
    | dsimp -proj +zetaDelta only
    | dsimp only

theorem execLeaseExpiry_keep (s : State) : KeepR 0x3CFFDFCFB s (execLeaseExpiry s) := by
  unfold execLeaseExpiry
  repeat' first
    | exact rfl
    | with_reducible apply Keep.refl
    | with_reducible assumption
    | with_reducible apply KeepR.refused
    | with_reducible apply KeepR.next
    | with_reducible apply Keep.via (State.endLease_keep ..)
    | split
    | dsimp -proj only
    | ((with_reducible conv => arg 3; whnf); first | split)
    | dsimp -proj +zetaDelta only
    | dsimp only

theorem execCmdQueueTimeout_keep (s : State) : KeepR 0x3CFF9FCBB s (execCmdQueueTimeout s) := by
  unfold execCmdQueueTimeout
  repeat' first
    | exact rfl
    | with_reducible apply Keep.refl
    | with_reducible assumption
    | exact (fun h => ⟨Nat.le_trans (List.length_erase_le ..) h.1, h.2⟩)
    | with_reducible apply KeepR.refused
    | with_reducible apply KeepR.next
    | with_reducible apply Keep.via (State.event_keep ..)
    | with_reducible apply Keep.via (State.answer_keep ..)
    | split
    | extract_lets
    | dsimp -proj only
    | exact (fun h => h : Cq.Bounded _ → Cq.Bounded _)
    | ((with_reducible conv => arg 3; whnf); first | split | with_reducible apply Keep.setCq)
    | dsimp -proj +zetaDelta only
    | dsimp only

theorem State.dropLoad_keep (s : State) : Keep 0x3DFFF5FFB s (State.dropLoad s) := by
  unfold State.dropLoad
  repeat' first
    | exact rfl
    | with_reducible apply Keep.refl
    | with_reducible assumption
    | with_reducible apply Keep.via (State.syncResident_keep ..)
    | with_reducible apply Keep.via (State.setSlot_keep ..)
    | with_reducible apply Keep.foldl
    | with_reducible apply Keep.foldl_snd
    | with_reducible apply Keep.foldl_fst
    | (intro _ _)
    | with_reducible apply Keep.ite
    | split
    | extract_lets
    | dsimp -proj only
    | exact (fun h => h : Cq.Bounded _ → Cq.Bounded _)
    | ((with_reducible conv => arg 3; whnf); first | split | with_reducible apply Keep.setCq | with_reducible apply Keep.setProt)
    | dsimp -proj +zetaDelta only
    | dsimp only

theorem execAFirstLimit_keep (s : State) : KeepR 0x3CFF95CBB s (execAFirstLimit s) := by
  unfold execAFirstLimit
  repeat' first
    | exact rfl
    | with_reducible apply Keep.refl
    | with_reducible assumption
    | with_reducible apply KeepR.refused
    | with_reducible apply KeepR.next
    | with_reducible apply Keep.via (State.dropLoad_keep ..)
    | with_reducible apply Keep.via (State.event_keep ..)
    | with_reducible apply Keep.via (State.finish_keep ..)
    | with_reducible apply Keep.ite
    | with_reducible apply KeepR.ite
    | split
    | extract_lets
    | dsimp -proj only
    | ((with_reducible conv => arg 3; whnf); first | split)
    | dsimp -proj +zetaDelta only
    | dsimp only


end Sys2Proof.Machine
end

