-- ==== Sys2Proof/Laws/KeepCmdIdent.lean ====
section
/-! SUPPORT. What each operation of Machine/CmdIdent.lean leaves alone (Laws/Keep.lean). -/

namespace Sys2Proof.Machine

set_option linter.unusedTactic false
set_option linter.unreachableTactic false

theorem outSt_keep (s : State) (st : Nat) : Keep 0x3FFFFFFFF s (outSt s st).s := by
  unfold outSt
  repeat' first
    | exact rfl
    | with_reducible apply Keep.refl
    | with_reducible assumption
    | dsimp -proj only
    | ((with_reducible conv => arg 3; whnf); first | split)
    | dsimp -proj +zetaDelta only
    | dsimp only

theorem outOk_keep (s : State) (p : List Byte) : Keep 0x3FFFFFFFF s (outOk s p).s := by
  unfold outOk
  repeat' first
    | exact rfl
    | with_reducible apply Keep.refl
    | with_reducible assumption
    | dsimp -proj only
    | ((with_reducible conv => arg 3; whnf); first | split)
    | dsimp -proj +zetaDelta only
    | dsimp only

theorem pageOut_keep (s : State) (all : List Byte) (off len : Nat) : Keep 0x3FFFFFFFF s (pageOut s all off len).s := by
  unfold pageOut
  repeat' first
    | exact rfl
    | with_reducible apply Keep.refl
    | with_reducible assumption
    | with_reducible apply Keep.via (outSt_keep ..)
    | with_reducible apply Keep.via (outOk_keep ..)
    | with_reducible apply Keep.ite
    | with_reducible apply Keep.ite_out
    | split
    | dsimp -proj only
    | ((with_reducible conv => arg 3; whnf); first | split)
    | dsimp -proj +zetaDelta only
    | dsimp only

theorem defIdentGet_keep  (s : State) (c : Call) : Keep 0x3FFFFFFFF s (defIdentGet.run s c).s := by
  unfold defIdentGet
  dsimp only
  repeat' first
    | exact rfl
    | with_reducible apply Keep.refl
    | with_reducible assumption
    | with_reducible apply Keep.via (outOk_keep ..)
    | with_reducible apply Keep.ite
    | with_reducible apply Keep.ite_out
    | split
    | dsimp -proj only
    | ((with_reducible conv => arg 3; whnf); first | split)
    | dsimp -proj +zetaDelta only
    | dsimp only

theorem execIdentGet_keep (r : Req) (s : State) : KeepR 0x3CFF9FC9B s (execIdentGet r s) := by
  unfold execIdentGet
  repeat' first
    | exact rfl
    | with_reducible apply Keep.refl
    | with_reducible assumption
    | with_reducible apply KeepR.refused
    | with_reducible apply KeepR.next
    | exact State.cuard_keep (fun u c => (defIdentGet_keep u c).mono rfl) rfl
    | dsimp -proj only
    | ((with_reducible conv => arg 3; whnf); first | split)
    | dsimp -proj +zetaDelta only
    | dsimp only

theorem defStateGet_keep  (s : State) (c : Call) : Keep 0x3FFFFFFFF s (defStateGet.run s c).s := by
  unfold defStateGet
  dsimp only
  repeat' first
    | exact rfl
    | with_reducible apply Keep.refl
    | with_reducible assumption
    | with_reducible apply Keep.via (outOk_keep ..)
    | dsimp -proj only
    | ((with_reducible conv => arg 3; whnf); first | split)
    | dsimp -proj +zetaDelta only
    | dsimp only

theorem execStateGet_keep (r : Req) (s : State) : KeepR 0x3CFF9FC9B s (execStateGet r s) := by
  unfold execStateGet
  repeat' first
    | exact rfl
    | with_reducible apply Keep.refl
    | with_reducible assumption
    | with_reducible apply KeepR.refused
    | with_reducible apply KeepR.next
    | exact State.cuard_keep (fun u c => (defStateGet_keep u c).mono rfl) rfl
    | dsimp -proj only
    | ((with_reducible conv => arg 3; whnf); first | split)
    | dsimp -proj +zetaDelta only
    | dsimp only

theorem State.cmdRead_keep (s : State) (a : Nat) : Keep 0x3CFFDFCF3 s (State.cmdRead s a).2 := by
  unfold State.cmdRead
  repeat' first
    | exact rfl
    | with_reducible apply Keep.refl
    | with_reducible assumption
    | with_reducible apply Keep.via (State.regRead_keep ..)
    | with_reducible apply Keep.via (State.addrError_keep ..)
    | with_reducible apply Keep.ite
    | with_reducible apply Keep.ite_snd
    | split
    | dsimp -proj only
    | ((with_reducible conv => arg 3; whnf); first | split)
    | dsimp -proj +zetaDelta only
    | dsimp only

theorem State.readRegs_keep (s : State) (l : List Nat) : Keep 0x3CFFDFCF3 s (State.readRegs s l).2 := by
  unfold State.readRegs
  repeat' first
    | exact rfl
    | with_reducible apply Keep.refl
    | with_reducible assumption
    | with_reducible apply Keep.via (State.cmdRead_keep ..)
    | with_reducible apply Keep.foldl
    | with_reducible apply Keep.foldl_snd
    | with_reducible apply Keep.foldl_fst
    | (intro _ _)
    | extract_lets
    | dsimp -proj only
    | ((with_reducible conv => arg 3; whnf); first | split)
    | dsimp -proj +zetaDelta only
    | dsimp only

theorem outRegs_keep (s : State) (l : List Nat) : Keep 0x3CFFDFCF3 s (outRegs s l).s := by
  unfold outRegs
  repeat' first
    | exact rfl
    | with_reducible apply Keep.refl
    | with_reducible assumption
    | with_reducible apply Keep.via (State.readRegs_keep ..)
    | with_reducible apply Keep.via (outOk_keep ..)
    | extract_lets
    | dsimp -proj only
    | ((with_reducible conv => arg 3; whnf); first | split)
    | dsimp -proj +zetaDelta only
    | dsimp only

theorem defInventoryGet_keep  (s : State) (c : Call) : Keep 0x3FFFFFFFF s (defInventoryGet.run s c).s := by
  unfold defInventoryGet
  dsimp only
  repeat' first
    | exact rfl
    | with_reducible apply Keep.refl
    | with_reducible assumption
    | with_reducible apply Keep.via (outOk_keep ..)
    | dsimp -proj only
    | ((with_reducible conv => arg 3; whnf); first | split)
    | dsimp -proj +zetaDelta only
    | dsimp only

theorem execInventoryGet_keep (r : Req) (s : State) : KeepR 0x3CFF9FC9B s (execInventoryGet r s) := by
  unfold execInventoryGet
  repeat' first
    | exact rfl
    | with_reducible apply Keep.refl
    | with_reducible assumption
    | with_reducible apply KeepR.refused
    | with_reducible apply KeepR.next
    | exact State.cuard_keep (fun u c => (defInventoryGet_keep u c).mono rfl) rfl
    | dsimp -proj only
    | ((with_reducible conv => arg 3; whnf); first | split)
    | dsimp -proj +zetaDelta only
    | dsimp only

theorem defCertGet_keep  (s : State) (c : Call) : Keep 0x3FFFFFFFF s (defCertGet.run s c).s := by
  unfold defCertGet
  dsimp only
  repeat' first
    | exact rfl
    | with_reducible apply Keep.refl
    | with_reducible assumption
    | with_reducible apply Keep.via (pageOut_keep ..)
    | dsimp -proj only
    | ((with_reducible conv => arg 3; whnf); first | split)
    | dsimp -proj +zetaDelta only
    | dsimp only

theorem execCertGet_keep (r : Req) (s : State) : KeepR 0x3CFF9FC9B s (execCertGet r s) := by
  unfold execCertGet
  repeat' first
    | exact rfl
    | with_reducible apply Keep.refl
    | with_reducible assumption
    | with_reducible apply KeepR.refused
    | with_reducible apply KeepR.next
    | exact State.cuard_keep (fun u c => (defCertGet_keep u c).mono rfl) rfl
    | dsimp -proj only
    | ((with_reducible conv => arg 3; whnf); first | split)
    | dsimp -proj +zetaDelta only
    | dsimp only

theorem defMgmtAddrSet_keep  (s : State) (c : Call) : Keep 0x3FBFFFFFF s (defMgmtAddrSet.run s c).s := by
  unfold defMgmtAddrSet
  dsimp only
  repeat' first
    | exact rfl
    | with_reducible apply Keep.refl
    | with_reducible assumption
    | with_reducible apply Keep.via (outOk_keep ..)
    | with_reducible apply Keep.via (State.flashPut_keep ..)
    | dsimp -proj only
    | ((with_reducible conv => arg 3; whnf); first | split)
    | dsimp -proj +zetaDelta only
    | dsimp only

theorem execMgmtAddrSet_keep (r : Req) (s : State) : KeepR 0x3CBF9FC9B s (execMgmtAddrSet r s) := by
  unfold execMgmtAddrSet
  repeat' first
    | exact rfl
    | with_reducible apply Keep.refl
    | with_reducible assumption
    | with_reducible apply KeepR.refused
    | with_reducible apply KeepR.next
    | exact State.cuard_keep (fun u c => (defMgmtAddrSet_keep u c).mono rfl) rfl
    | dsimp -proj only
    | ((with_reducible conv => arg 3; whnf); first | split)
    | dsimp -proj +zetaDelta only
    | dsimp only

theorem State.drawId_keep (s : State) (used : List Nat) : Keep 0x3FFFFFFDF s (State.drawId s used).2 := by
  unfold State.drawId
  repeat' first
    | exact rfl
    | with_reducible apply Keep.refl
    | with_reducible assumption
    | with_reducible apply Keep.via (State.draw_keep ..)
    | extract_lets
    | dsimp -proj only
    | ((with_reducible conv => arg 3; whnf); first | split)
    | dsimp -proj +zetaDelta only
    | dsimp only

theorem State.shakeFail_keep (s : State) (key port : Nat) : Keep 0x3CFFDFCFB s (State.shakeFail s key port).s := by
  unfold State.shakeFail
  repeat' first
    | exact rfl
    | with_reducible apply Keep.refl
    | with_reducible assumption
    | with_reducible apply Keep.via (outSt_keep ..)
    | with_reducible apply Keep.via (State.authFail_keep ..)
    | dsimp -proj only
    | ((with_reducible conv => arg 3; whnf); first | split)
    | dsimp -proj +zetaDelta only
    | dsimp only

theorem State.openSession_keep (s : State) (c : Call) : Keep 0x3DFFFFFDF s (State.openSession s c).s := by
  unfold State.openSession
  repeat' first
    | exact rfl
    | with_reducible apply Keep.refl
    | with_reducible assumption
    | with_reducible apply Keep.via (State.draw_keep ..)
    | with_reducible apply Keep.via (State.drawId_keep ..)
    | extract_lets
    | dsimp -proj only
    | exact (fun h => h : Cq.Bounded _ → Cq.Bounded _)
    | ((with_reducible conv => arg 3; whnf); first | split | with_reducible apply Keep.setCq)
    | dsimp -proj +zetaDelta only
    | dsimp only

theorem defSessionOpen_keep  (s : State) (c : Call) : Keep 0x3CFFDFCDB s (defSessionOpen.run s c).s := by
  unfold defSessionOpen
  dsimp only
  repeat' first
    | exact rfl
    | with_reducible apply Keep.refl
    | with_reducible assumption
    | with_reducible apply Keep.via (outSt_keep ..)
    | with_reducible apply Keep.via (State.shakeFail_keep ..)
    | with_reducible apply Keep.via (State.openSession_keep ..)
    | with_reducible apply Keep.ite
    | with_reducible apply Keep.ite_out
    | split
    | extract_lets
    | dsimp -proj only
    | ((with_reducible conv => arg 3; whnf); first | split)
    | dsimp -proj +zetaDelta only
    | dsimp only

theorem execSessionOpen_keep (r : Req) (s : State) : KeepR 0x3CFF9FC9B s (execSessionOpen r s) := by
  unfold execSessionOpen
  repeat' first
    | exact rfl
    | with_reducible apply Keep.refl
    | with_reducible assumption
    | with_reducible apply KeepR.refused
    | with_reducible apply KeepR.next
    | exact State.cuard_keep (fun u c => (defSessionOpen_keep u c).mono rfl) rfl
    | dsimp -proj only
    | ((with_reducible conv => arg 3; whnf); first | split)
    | dsimp -proj +zetaDelta only
    | dsimp only

theorem defSessionConfirm_keep  (s : State) (c : Call) : Keep 0x3CFFDFCFB s (defSessionConfirm.run s c).s := by
  unfold defSessionConfirm
  dsimp only
  repeat' first
    | exact rfl
    | with_reducible apply Keep.refl
    | with_reducible assumption
    | with_reducible apply Keep.via (State.shakeFail_keep ..)
    | with_reducible apply Keep.via (State.modSess_keep ..)
    | with_reducible apply Keep.via (outOk_keep ..)
    | with_reducible apply Keep.via (State.event_keep ..)
    | with_reducible apply Keep.ite
    | with_reducible apply Keep.ite_out
    | split
    | extract_lets
    | dsimp -proj only
    | exact (fun h => h : Cq.Bounded _ → Cq.Bounded _)
    | ((with_reducible conv => arg 3; whnf); first | split | with_reducible apply Keep.setCq)
    | dsimp -proj +zetaDelta only
    | dsimp only

theorem execSessionConfirm_keep (r : Req) (s : State) : KeepR 0x3CFF9FC9B s (execSessionConfirm r s) := by
  unfold execSessionConfirm
  repeat' first
    | exact rfl
    | with_reducible apply Keep.refl
    | with_reducible assumption
    | with_reducible apply KeepR.refused
    | with_reducible apply KeepR.next
    | exact State.cuard_keep (fun u c => (defSessionConfirm_keep u c).mono rfl) rfl
    | dsimp -proj only
    | ((with_reducible conv => arg 3; whnf); first | split)
    | dsimp -proj +zetaDelta only
    | dsimp only

theorem defSessionClose_keep  (s : State) (c : Call) : Keep 0x3CFFDFCFB s (defSessionClose.run s c).s := by
  unfold defSessionClose
  dsimp only
  repeat' first
    | exact rfl
    | with_reducible apply Keep.refl
    | with_reducible assumption
    | with_reducible apply Keep.via (outOk_keep ..)
    | with_reducible apply Keep.via (State.closeSess_keep ..)
    | dsimp -proj only
    | ((with_reducible conv => arg 3; whnf); first | split)
    | dsimp -proj +zetaDelta only
    | dsimp only

theorem execSessionClose_keep (r : Req) (s : State) : KeepR 0x3CFF9FC9B s (execSessionClose r s) := by
  unfold execSessionClose
  repeat' first
    | exact rfl
    | with_reducible apply Keep.refl
    | with_reducible assumption
    | with_reducible apply KeepR.refused
    | with_reducible apply KeepR.next
    | exact State.cuard_keep (fun u c => (defSessionClose_keep u c).mono rfl) rfl
    | dsimp -proj only
    | ((with_reducible conv => arg 3; whnf); first | split)
    | dsimp -proj +zetaDelta only
    | dsimp only

theorem State.lapse_keep (s : State) (res : Nat) : Keep 0x3CFFDFCFB s (State.lapse s res) := by
  unfold State.lapse
  repeat' first
    | exact rfl
    | with_reducible apply Keep.refl
    | with_reducible assumption
    | with_reducible apply Keep.via (State.endLease_keep ..)
    | with_reducible apply Keep.ite
    | split
    | dsimp -proj only
    | ((with_reducible conv => arg 3; whnf); first | split)
    | dsimp -proj +zetaDelta only
    | dsimp only

theorem State.grantLease_keep (s : State) (res key secs : Nat) : Keep 0x3DFFFFFDF s (State.grantLease s res key secs).s := by
  unfold State.grantLease
  repeat' first
    | exact rfl
    | with_reducible apply Keep.refl
    | with_reducible assumption
    | with_reducible apply Keep.via (State.drawId_keep ..)
    | extract_lets
    | dsimp -proj only
    | exact (fun h => h : Cq.Bounded _ → Cq.Bounded _)
    | ((with_reducible conv => arg 3; whnf); first | split | with_reducible apply Keep.setCq)
    | dsimp -proj +zetaDelta only
    | dsimp only

theorem defLeaseAcquire_keep  (s : State) (c : Call) : Keep 0x3CFFDFCDB s (defLeaseAcquire.run s c).s := by
  unfold defLeaseAcquire
  dsimp only
  repeat' first
    | exact rfl
    | with_reducible apply Keep.refl
    | with_reducible assumption
    | with_reducible apply Keep.via (State.lapse_keep ..)
    | with_reducible apply Keep.via (outSt_keep ..)
    | with_reducible apply Keep.via (State.grantLease_keep ..)
    | with_reducible apply Keep.via (State.event_keep ..)
    | split
    | extract_lets
    | dsimp -proj only
    | ((with_reducible conv => arg 3; whnf); first | split)
    | dsimp -proj +zetaDelta only
    | dsimp only

theorem execLeaseAcquire_keep (r : Req) (s : State) : KeepR 0x3CFF9FC9B s (execLeaseAcquire r s) := by
  unfold execLeaseAcquire
  repeat' first
    | exact rfl
    | with_reducible apply Keep.refl
    | with_reducible assumption
    | with_reducible apply KeepR.refused
    | with_reducible apply KeepR.next
    | exact State.cuard_keep (fun u c => (defLeaseAcquire_keep u c).mono rfl) rfl
    | dsimp -proj only
    | ((with_reducible conv => arg 3; whnf); first | split)
    | dsimp -proj +zetaDelta only
    | dsimp only

theorem defLeaseRenew_keep  (s : State) (c : Call) : Keep 0x3DFFFFFFF s (defLeaseRenew.run s c).s := by
  unfold defLeaseRenew
  dsimp only
  repeat' first
    | exact rfl
    | with_reducible apply Keep.refl
    | with_reducible assumption
    | with_reducible apply Keep.via (outSt_keep ..)
    | with_reducible apply Keep.via (outOk_keep ..)
    | split
    | extract_lets
    | dsimp -proj only
    | exact (fun h => h : Cq.Bounded _ → Cq.Bounded _)
    | ((with_reducible conv => arg 3; whnf); first | split | with_reducible apply Keep.setCq)
    | dsimp -proj +zetaDelta only
    | dsimp only

theorem execLeaseRenew_keep (r : Req) (s : State) : KeepR 0x3CFF9FC9B s (execLeaseRenew r s) := by
  unfold execLeaseRenew
  repeat' first
    | exact rfl
    | with_reducible apply Keep.refl
    | with_reducible assumption
    | with_reducible apply KeepR.refused
    | with_reducible apply KeepR.next
    | exact State.cuard_keep (fun u c => (defLeaseRenew_keep u c).mono rfl) rfl
    | dsimp -proj only
    | ((with_reducible conv => arg 3; whnf); first | split)
    | dsimp -proj +zetaDelta only
    | dsimp only

theorem defLeaseRelease_keep  (s : State) (c : Call) : Keep 0x3CFFDFCFB s (defLeaseRelease.run s c).s := by
  unfold defLeaseRelease
  dsimp only
  repeat' first
    | exact rfl
    | with_reducible apply Keep.refl
    | with_reducible assumption
    | with_reducible apply Keep.via (outSt_keep ..)
    | with_reducible apply Keep.via (outOk_keep ..)
    | with_reducible apply Keep.via (State.endLease_keep ..)
    | split
    | dsimp -proj only
    | ((with_reducible conv => arg 3; whnf); first | split)
    | dsimp -proj +zetaDelta only
    | dsimp only

theorem execLeaseRelease_keep (r : Req) (s : State) : KeepR 0x3CFF9FC9B s (execLeaseRelease r s) := by
  unfold execLeaseRelease
  repeat' first
    | exact rfl
    | with_reducible apply Keep.refl
    | with_reducible assumption
    | with_reducible apply KeepR.refused
    | with_reducible apply KeepR.next
    | exact State.cuard_keep (fun u c => (defLeaseRelease_keep u c).mono rfl) rfl
    | dsimp -proj only
    | ((with_reducible conv => arg 3; whnf); first | split)
    | dsimp -proj +zetaDelta only
    | dsimp only

theorem defLeaseTakeover_keep  (s : State) (c : Call) : Keep 0x3CFFDFCDB s (defLeaseTakeover.run s c).s := by
  unfold defLeaseTakeover
  dsimp only
  repeat' first
    | exact rfl
    | with_reducible apply Keep.refl
    | with_reducible assumption
    | with_reducible apply Keep.via (State.lapse_keep ..)
    | with_reducible apply Keep.via (State.endLease_keep ..)
    | with_reducible apply Keep.via (State.event_keep ..)
    | with_reducible apply Keep.via (State.grantLease_keep ..)
    | with_reducible apply Keep.via (outSt_keep ..)
    | with_reducible apply Keep.ite
    | with_reducible apply Keep.ite_out
    | split
    | extract_lets
    | dsimp -proj only
    | ((with_reducible conv => arg 3; whnf); first | split)
    | dsimp -proj +zetaDelta only
    | dsimp only

theorem execLeaseTakeover_keep (r : Req) (s : State) : KeepR 0x3CFF9FC9B s (execLeaseTakeover r s) := by
  unfold execLeaseTakeover
  repeat' first
    | exact rfl
    | with_reducible apply Keep.refl
    | with_reducible assumption
    | with_reducible apply KeepR.refused
    | with_reducible apply KeepR.next
    | exact State.cuard_keep (fun u c => (defLeaseTakeover_keep u c).mono rfl) rfl
    | dsimp -proj only
    | ((with_reducible conv => arg 3; whnf); first | split)
    | dsimp -proj +zetaDelta only
    | dsimp only

theorem defLeaseGet_keep  (s : State) (c : Call) : Keep 0x3FFFFFFFF s (defLeaseGet.run s c).s := by
  unfold defLeaseGet
  dsimp only
  repeat' first
    | exact rfl
    | with_reducible apply Keep.refl
    | with_reducible assumption
    | with_reducible apply Keep.via (outOk_keep ..)
    | split
    | dsimp -proj only
    | ((with_reducible conv => arg 3; whnf); first | split)
    | dsimp -proj +zetaDelta only
    | dsimp only

theorem execLeaseGet_keep (r : Req) (s : State) : KeepR 0x3CFF9FC9B s (execLeaseGet r s) := by
  unfold execLeaseGet
  repeat' first
    | exact rfl
    | with_reducible apply Keep.refl
    | with_reducible assumption
    | with_reducible apply KeepR.refused
    | with_reducible apply KeepR.next
    | exact State.cuard_keep (fun u c => (defLeaseGet_keep u c).mono rfl) rfl
    | dsimp -proj only
    | ((with_reducible conv => arg 3; whnf); first | split)
    | dsimp -proj +zetaDelta only
    | dsimp only

theorem defQnonceGet_keep  (s : State) (c : Call) : Keep 0x3DFFFFFDF s (defQnonceGet.run s c).s := by
  unfold defQnonceGet
  dsimp only
  repeat' first
    | exact rfl
    | with_reducible apply Keep.refl
    | with_reducible assumption
    | with_reducible apply Keep.via (State.freshNonce_keep ..)
    | with_reducible apply Keep.via (outOk_keep ..)
    | extract_lets
    | dsimp -proj only
    | ((with_reducible conv => arg 3; whnf); first | split)
    | dsimp -proj +zetaDelta only
    | dsimp only

theorem execQnonceGet_keep (r : Req) (s : State) : KeepR 0x3CFF9FC9B s (execQnonceGet r s) := by
  unfold execQnonceGet
  repeat' first
    | exact rfl
    | with_reducible apply Keep.refl
    | with_reducible assumption
    | with_reducible apply KeepR.refused
    | with_reducible apply KeepR.next
    | exact State.cuard_keep (fun u c => (defQnonceGet_keep u c).mono rfl) rfl
    | dsimp -proj only
    | ((with_reducible conv => arg 3; whnf); first | split)
    | dsimp -proj +zetaDelta only
    | dsimp only

theorem State.showKt_keep (s : State) (st : Nat) (b : List Byte) : Keep 0x3FFFFFFFB s (State.showKt s st b) := by
  unfold State.showKt
  repeat' first
    | exact rfl
    | with_reducible apply Keep.refl
    | with_reducible assumption
    | with_reducible apply Keep.via (State.wr_keep ..)
    | dsimp -proj only
    | ((with_reducible conv => arg 3; whnf); first | split)
    | dsimp -proj +zetaDelta only
    | dsimp only

theorem State.installKt_keep (s : State) (b : List Byte) : Keep 0x3EBFDFCFB s (State.installKt s b) := by
  unfold State.installKt
  repeat' first
    | exact rfl
    | with_reducible apply Keep.refl
    | with_reducible assumption
    | with_reducible apply Keep.via (State.extend_keep ..)
    | with_reducible apply Keep.via (State.showKt_keep ..)
    | with_reducible apply Keep.via (State.flashPut_keep ..)
    | with_reducible apply Keep.via (State.event_keep ..)
    | extract_lets
    | dsimp -proj only
    | ((with_reducible conv => arg 3; whnf); first | split)
    | dsimp -proj +zetaDelta only
    | dsimp only

theorem State.changeKt_keep (s : State) (p : List Byte) : Keep 0x3CAFDFCFB s (State.changeKt s p) := by
  unfold State.changeKt
  repeat' first
    | exact rfl
    | with_reducible apply Keep.refl
    | with_reducible assumption
    | with_reducible apply Keep.via (State.installKt_keep ..)
    | with_reducible apply Keep.via (State.closeSess_keep ..)
    | with_reducible apply Keep.via (State.endLease_keep ..)
    | with_reducible apply Keep.foldl
    | with_reducible apply Keep.foldl_snd
    | with_reducible apply Keep.foldl_fst
    | (intro _ _)
    | with_reducible apply Keep.ite
    | split
    | extract_lets
    | dsimp -proj only
    | exact (fun h => h : Cq.Bounded _ → Cq.Bounded _)
    | ((with_reducible conv => arg 3; whnf); first | split | with_reducible apply Keep.setFuse | with_reducible apply Keep.setCq)
    | dsimp -proj +zetaDelta only
    | dsimp only

theorem defKeytabGet_keep  (s : State) (c : Call) : Keep 0x3FFFFFFFF s (defKeytabGet.run s c).s := by
  unfold defKeytabGet
  dsimp only
  repeat' first
    | exact rfl
    | with_reducible apply Keep.refl
    | with_reducible assumption
    | with_reducible apply Keep.via (outSt_keep ..)
    | with_reducible apply Keep.via (outOk_keep ..)
    | with_reducible apply Keep.ite
    | with_reducible apply Keep.ite_out
    | split
    | dsimp -proj only
    | ((with_reducible conv => arg 3; whnf); first | split)
    | dsimp -proj +zetaDelta only
    | dsimp only

theorem execKeytabGet_keep (r : Req) (s : State) : KeepR 0x3CFF9FC9B s (execKeytabGet r s) := by
  unfold execKeytabGet
  repeat' first
    | exact rfl
    | with_reducible apply Keep.refl
    | with_reducible assumption
    | with_reducible apply KeepR.refused
    | with_reducible apply KeepR.next
    | exact State.cuard_keep (fun u c => (defKeytabGet_keep u c).mono rfl) rfl
    | dsimp -proj only
    | ((with_reducible conv => arg 3; whnf); first | split)
    | dsimp -proj +zetaDelta only
    | dsimp only

theorem defKeytabInit_keep  (s : State) (c : Call) : Keep 0x3CAFDFCFB s (defKeytabInit.run s c).s := by
  unfold defKeytabInit
  dsimp only
  repeat' first
    | exact rfl
    | with_reducible apply Keep.refl
    | with_reducible assumption
    | with_reducible apply Keep.via (outSt_keep ..)
    | with_reducible apply Keep.via (outOk_keep ..)
    | with_reducible apply Keep.via (State.changeKt_keep ..)
    | with_reducible apply Keep.ite
    | with_reducible apply Keep.ite_out
    | split
    | dsimp -proj only
    | ((with_reducible conv => arg 3; whnf); first | split)
    | dsimp -proj +zetaDelta only
    | dsimp only

theorem execKeytabInit_keep (r : Req) (s : State) : KeepR 0x3CAF9FC9B s (execKeytabInit r s) := by
  unfold execKeytabInit
  repeat' first
    | exact rfl
    | with_reducible apply Keep.refl
    | with_reducible assumption
    | with_reducible apply KeepR.refused
    | with_reducible apply KeepR.next
    | exact State.cuard_keep (fun u c => (defKeytabInit_keep u c).mono rfl) rfl
    | dsimp -proj only
    | ((with_reducible conv => arg 3; whnf); first | split)
    | dsimp -proj +zetaDelta only
    | dsimp only

theorem defKeytabSet_keep  (s : State) (c : Call) : Keep 0x3CAFDFCFB s (defKeytabSet.run s c).s := by
  unfold defKeytabSet
  dsimp only
  repeat' first
    | exact rfl
    | with_reducible apply Keep.refl
    | with_reducible assumption
    | with_reducible apply Keep.via (outSt_keep ..)
    | with_reducible apply Keep.via (outOk_keep ..)
    | with_reducible apply Keep.via (State.changeKt_keep ..)
    | with_reducible apply Keep.ite
    | with_reducible apply Keep.ite_out
    | split
    | dsimp -proj only
    | ((with_reducible conv => arg 3; whnf); first | split)
    | dsimp -proj +zetaDelta only
    | dsimp only

theorem execKeytabSet_keep (r : Req) (s : State) : KeepR 0x3CAF9FC9B s (execKeytabSet r s) := by
  unfold execKeytabSet
  repeat' first
    | exact rfl
    | with_reducible apply Keep.refl
    | with_reducible assumption
    | with_reducible apply KeepR.refused
    | with_reducible apply KeepR.next
    | exact State.cuard_keep (fun u c => (defKeytabSet_keep u c).mono rfl) rfl
    | dsimp -proj only
    | ((with_reducible conv => arg 3; whnf); first | split)
    | dsimp -proj +zetaDelta only
    | dsimp only

theorem defKeytabRestore_keep  (s : State) (c : Call) : Keep 0x3EBFDFCFB s (defKeytabRestore.run s c).s := by
  unfold defKeytabRestore
  dsimp only
  repeat' first
    | exact rfl
    | with_reducible apply Keep.refl
    | with_reducible assumption
    | with_reducible apply Keep.via (outSt_keep ..)
    | with_reducible apply Keep.via (outOk_keep ..)
    | with_reducible apply Keep.via (State.installKt_keep ..)
    | with_reducible apply Keep.ite
    | with_reducible apply Keep.ite_out
    | split
    | dsimp -proj only
    | ((with_reducible conv => arg 3; whnf); first | split)
    | dsimp -proj +zetaDelta only
    | dsimp only

theorem execKeytabRestore_keep (r : Req) (s : State) : KeepR 0x3CBF9FC9B s (execKeytabRestore r s) := by
  unfold execKeytabRestore
  repeat' first
    | exact rfl
    | with_reducible apply Keep.refl
    | with_reducible assumption
    | with_reducible apply KeepR.refused
    | with_reducible apply KeepR.next
    | exact State.cuard_keep (fun u c => (defKeytabRestore_keep u c).mono rfl) rfl
    | dsimp -proj only
    | ((with_reducible conv => arg 3; whnf); first | split)
    | dsimp -proj +zetaDelta only
    | dsimp only


end Sys2Proof.Machine
end

