-- ==== Sys2Proof/Laws/KeepCmdCtx.lean ====
section
/-! SUPPORT. What each operation of Machine/CmdCtx.lean leaves alone (Laws/Keep.lean). -/

namespace Sys2Proof.Machine

set_option linter.unusedTactic false
set_option linter.unreachableTactic false

theorem outHeld_keep (s : State) (w : WaitFor) : Keep 0x3FFFFFFFF s (outHeld s w).s := by
  unfold outHeld
  repeat' first
    | exact rfl
    | with_reducible apply Keep.refl
    | with_reducible assumption
    | dsimp -proj only
    | ((with_reducible conv => arg 3; whnf); first | split)
    | dsimp -proj +zetaDelta only
    | dsimp only

theorem outFirst_keep (s : State) (w : WaitFor) (limit : Option Nat) : Keep 0x3FFFFFFFF s (outFirst s w limit).s := by
  unfold outFirst
  repeat' first
    | exact rfl
    | with_reducible apply Keep.refl
    | with_reducible assumption
    | dsimp -proj only
    | ((with_reducible conv => arg 3; whnf); first | split)
    | dsimp -proj +zetaDelta only
    | dsimp only

theorem defClkPlanSet_keep  (s : State) (c : Call) : Keep 0x3FFEFFFFB s (defClkPlanSet.run s c).s := by
  unfold defClkPlanSet
  dsimp only
  repeat' first
    | exact rfl
    | with_reducible apply Keep.refl
    | with_reducible assumption
    | with_reducible apply Keep.via (State.askPlan_keep ..)
    | with_reducible apply Keep.via (outSt_keep ..)
    | with_reducible apply Keep.via (outOk_keep ..)
    | with_reducible apply Keep.via (State.syncClk_keep ..)
    | with_reducible apply Keep.via (outHeld_keep ..)
    | with_reducible apply Keep.ite
    | with_reducible apply Keep.ite_out
    | split
    | extract_lets
    | dsimp -proj only
    | ((with_reducible conv => arg 3; whnf); first | split | with_reducible apply Keep.setClk)
    | dsimp -proj +zetaDelta only
    | dsimp only

theorem execClkPlanSet_keep (r : Req) (s : State) : KeepR 0x3CFE9FC9B s (execClkPlanSet r s) := by
  unfold execClkPlanSet
  repeat' first
    | exact rfl
    | with_reducible apply Keep.refl
    | with_reducible assumption
    | with_reducible apply KeepR.refused
    | with_reducible apply KeepR.next
    | exact State.cuard_keep (fun u c => (defClkPlanSet_keep u c).mono rfl) rfl
    | dsimp -proj only
    | ((with_reducible conv => arg 3; whnf); first | split)
    | dsimp -proj +zetaDelta only
    | dsimp only

theorem defPwrCapSet_keep  (s : State) (c : Call) : Keep 0x3FFFFFFFB s (defPwrCapSet.run s c).s := by
  unfold defPwrCapSet
  dsimp only
  repeat' first
    | exact rfl
    | with_reducible apply Keep.refl
    | with_reducible assumption
    | with_reducible apply Keep.via (State.syncCap_keep ..)
    | with_reducible apply Keep.via (State.wf_keep ..)
    | with_reducible apply Keep.via (outOk_keep ..)
    | extract_lets
    | dsimp -proj only
    | ((with_reducible conv => arg 3; whnf); first | split)
    | dsimp -proj +zetaDelta only
    | dsimp only

theorem execPwrCapSet_keep (r : Req) (s : State) : KeepR 0x3CFF9FC9B s (execPwrCapSet r s) := by
  unfold execPwrCapSet
  repeat' first
    | exact rfl
    | with_reducible apply Keep.refl
    | with_reducible assumption
    | with_reducible apply KeepR.refused
    | with_reducible apply KeepR.next
    | exact State.cuard_keep (fun u c => (defPwrCapSet_keep u c).mono rfl) rfl
    | dsimp -proj only
    | ((with_reducible conv => arg 3; whnf); first | split)
    | dsimp -proj +zetaDelta only
    | dsimp only

theorem defDomainGate_keep  (s : State) (c : Call) : Keep 0x3EFFCE0FB s (defDomainGate.run s c).s := by
  unfold defDomainGate
  dsimp only
  repeat' first
    | exact rfl
    | with_reducible apply Keep.refl
    | with_reducible assumption
    | with_reducible apply Keep.via (State.gateDomain_keep ..)
    | with_reducible apply Keep.via (outOk_keep ..)
    | with_reducible apply Keep.via (outSt_keep ..)
    | with_reducible apply Keep.ite
    | with_reducible apply Keep.ite_out
    | split
    | extract_lets
    | dsimp -proj only
    | ((with_reducible conv => arg 3; whnf); first | split)
    | dsimp -proj +zetaDelta only
    | dsimp only

theorem execDomainGate_keep (r : Req) (s : State) : KeepR 0x3CFF8E09B s (execDomainGate r s) := by
  unfold execDomainGate
  repeat' first
    | exact rfl
    | with_reducible apply Keep.refl
    | with_reducible assumption
    | with_reducible apply KeepR.refused
    | with_reducible apply KeepR.next
    | exact State.cuard_keep (fun u c => (defDomainGate_keep u c).mono rfl) rfl
    | dsimp -proj only
    | ((with_reducible conv => arg 3; whnf); first | split)
    | dsimp -proj +zetaDelta only
    | dsimp only

theorem defClkpwrGet_keep  (s : State) (c : Call) : Keep 0x3FFFFFFFF s (defClkpwrGet.run s c).s := by
  unfold defClkpwrGet
  dsimp only
  repeat' first
    | exact rfl
    | with_reducible apply Keep.refl
    | with_reducible assumption
    | with_reducible apply Keep.via (outOk_keep ..)
    | dsimp -proj only
    | ((with_reducible conv => arg 3; whnf); first | split)
    | dsimp -proj +zetaDelta only
    | dsimp only

theorem execClkpwrGet_keep (r : Req) (s : State) : KeepR 0x3CFF9FC9B s (execClkpwrGet r s) := by
  unfold execClkpwrGet
  repeat' first
    | exact rfl
    | with_reducible apply Keep.refl
    | with_reducible assumption
    | with_reducible apply KeepR.refused
    | with_reducible apply KeepR.next
    | exact State.cuard_keep (fun u c => (defClkpwrGet_keep u c).mono rfl) rfl
    | dsimp -proj only
    | ((with_reducible conv => arg 3; whnf); first | split)
    | dsimp -proj +zetaDelta only
    | dsimp only

theorem defCtxLoad_keep  (s : State) (c : Call) : Keep 0x3DFFFFFFF s (defCtxLoad.run s c).s := by
  unfold defCtxLoad
  dsimp only
  repeat' first
    | exact rfl
    | with_reducible apply Keep.refl
    | with_reducible assumption
    | with_reducible apply Keep.via (outSt_keep ..)
    | with_reducible apply Keep.via (outFirst_keep ..)
    | with_reducible apply Keep.ite
    | with_reducible apply Keep.ite_out
    | split
    | dsimp -proj only
    | exact (fun h => h : Cq.Bounded _ → Cq.Bounded _)
    | ((with_reducible conv => arg 3; whnf); first | split | with_reducible apply Keep.setCq)
    | dsimp -proj +zetaDelta only
    | dsimp only

theorem execCtxLoad_keep (r : Req) (s : State) : KeepR 0x3CFF9FC9B s (execCtxLoad r s) := by
  unfold execCtxLoad
  repeat' first
    | exact rfl
    | with_reducible apply Keep.refl
    | with_reducible assumption
    | with_reducible apply KeepR.refused
    | with_reducible apply KeepR.next
    | exact State.cuard_keep (fun u c => (defCtxLoad_keep u c).mono rfl) rfl
    | dsimp -proj only
    | ((with_reducible conv => arg 3; whnf); first | split)
    | dsimp -proj +zetaDelta only
    | dsimp only

theorem State.keepRecs_keep (s : State) (j : Slot) : Keep 0x3FFFFDFFF s (State.keepRecs s j) := by
  unfold State.keepRecs
  repeat' first
    | exact rfl
    | with_reducible apply Keep.refl
    | with_reducible assumption
    | with_reducible apply Keep.ite
    | split
    | extract_lets
    | dsimp -proj only
    | ((with_reducible conv => arg 3; whnf); first | split | with_reducible apply Keep.setSeqr)
    | dsimp -proj +zetaDelta only
    | dsimp only

theorem State.unload_keep (s : State) (n : Nat) (j : Slot) : Keep 0x3FFFF5FFB s (State.unload s n j) := by
  unfold State.unload
  repeat' first
    | exact rfl
    | with_reducible apply Keep.refl
    | with_reducible assumption
    | with_reducible apply Keep.via (State.syncDet_keep ..)
    | with_reducible apply Keep.via (State.syncResident_keep ..)
    | with_reducible apply Keep.via (State.setSlot_keep ..)
    | with_reducible apply Keep.via (State.keepRecs_keep ..)
    | dsimp -proj only
    | ((with_reducible conv => arg 3; whnf); first | split | with_reducible apply Keep.setProt)
    | dsimp -proj +zetaDelta only
    | dsimp only

theorem defCtxUnload_keep  (s : State) (c : Call) : Keep 0x3FFFF5FFB s (defCtxUnload.run s c).s := by
  unfold defCtxUnload
  dsimp only
  repeat' first
    | exact rfl
    | with_reducible apply Keep.refl
    | with_reducible assumption
    | with_reducible apply Keep.via (outSt_keep ..)
    | with_reducible apply Keep.via (outOk_keep ..)
    | with_reducible apply Keep.via (State.unload_keep ..)
    | with_reducible apply Keep.ite
    | with_reducible apply Keep.ite_out
    | split
    | dsimp -proj only
    | ((with_reducible conv => arg 3; whnf); first | split)
    | dsimp -proj +zetaDelta only
    | dsimp only

theorem execCtxUnload_keep (r : Req) (s : State) : KeepR 0x3CFF95C9B s (execCtxUnload r s) := by
  unfold execCtxUnload
  repeat' first
    | exact rfl
    | with_reducible apply Keep.refl
    | with_reducible assumption
    | with_reducible apply KeepR.refused
    | with_reducible apply KeepR.next
    | exact State.cuard_keep (fun u c => (defCtxUnload_keep u c).mono rfl) rfl
    | dsimp -proj only
    | ((with_reducible conv => arg 3; whnf); first | split)
    | dsimp -proj +zetaDelta only
    | dsimp only

theorem defCtxSwitch_keep  (s : State) (c : Call) : Keep 0x3EFFDCCFB s (defCtxSwitch.run s c).s := by
  unfold defCtxSwitch
  dsimp only
  repeat' first
    | exact rfl
    | with_reducible apply Keep.refl
    | with_reducible assumption
    | with_reducible apply Keep.via (outSt_keep ..)
    | with_reducible apply Keep.via (outHeld_keep ..)
    | with_reducible apply Keep.via (State.beginSwitch_keep ..)
    | with_reducible apply Keep.ite
    | with_reducible apply Keep.ite_out
    | split
    | dsimp -proj only
    | ((with_reducible conv => arg 3; whnf); first | split)
    | dsimp -proj +zetaDelta only
    | dsimp only

theorem execCtxSwitch_keep (r : Req) (s : State) : KeepR 0x3CFF9CC9B s (execCtxSwitch r s) := by
  unfold execCtxSwitch
  repeat' first
    | exact rfl
    | with_reducible apply Keep.refl
    | with_reducible assumption
    | with_reducible apply KeepR.refused
    | with_reducible apply KeepR.next
    | exact State.cuard_keep (fun u c => (defCtxSwitch_keep u c).mono rfl) rfl
    | dsimp -proj only
    | ((with_reducible conv => arg 3; whnf); first | split)
    | dsimp -proj +zetaDelta only
    | dsimp only

theorem defCtxStatus_keep  (s : State) (c : Call) : Keep 0x3FFFF5FFB s (defCtxStatus.run s c).s := by
  unfold defCtxStatus
  dsimp only
  repeat' first
    | exact rfl
    | with_reducible apply Keep.refl
    | with_reducible assumption
    | with_reducible apply Keep.via (outSt_keep ..)
    | with_reducible apply Keep.via (outOk_keep ..)
    | with_reducible apply Keep.via (State.unload_keep ..)
    | with_reducible apply Keep.ite
    | with_reducible apply Keep.ite_out
    | split
    | extract_lets
    | dsimp -proj only
    | ((with_reducible conv => arg 3; whnf); first | split)
    | dsimp -proj +zetaDelta only
    | dsimp only

theorem execCtxStatus_keep (r : Req) (s : State) : KeepR 0x3CFF95C9B s (execCtxStatus r s) := by
  unfold execCtxStatus
  repeat' first
    | exact rfl
    | with_reducible apply Keep.refl
    | with_reducible assumption
    | with_reducible apply KeepR.refused
    | with_reducible apply KeepR.next
    | exact State.cuard_keep (fun u c => (defCtxStatus_keep u c).mono rfl) rfl
    | dsimp -proj only
    | ((with_reducible conv => arg 3; whnf); first | split)
    | dsimp -proj +zetaDelta only
    | dsimp only

theorem defQuantumSet_keep  (s : State) (c : Call) : Keep 0x3FFFFFFFB s (defQuantumSet.run s c).s := by
  unfold defQuantumSet
  dsimp only
  repeat' first
    | exact rfl
    | with_reducible apply Keep.refl
    | with_reducible assumption
    | with_reducible apply Keep.via (outOk_keep ..)
    | with_reducible apply Keep.via (State.wr_keep ..)
    | dsimp -proj only
    | ((with_reducible conv => arg 3; whnf); first | split)
    | dsimp -proj +zetaDelta only
    | dsimp only

theorem execQuantumSet_keep (r : Req) (s : State) : KeepR 0x3CFF9FC9B s (execQuantumSet r s) := by
  unfold execQuantumSet
  repeat' first
    | exact rfl
    | with_reducible apply Keep.refl
    | with_reducible assumption
    | with_reducible apply KeepR.refused
    | with_reducible apply KeepR.next
    | exact State.cuard_keep (fun u c => (defQuantumSet_keep u c).mono rfl) rfl
    | dsimp -proj only
    | ((with_reducible conv => arg 3; whnf); first | split)
    | dsimp -proj +zetaDelta only
    | dsimp only

theorem defStripeSet_keep  (s : State) (c : Call) : Keep 0x3EFFDFCFB s (defStripeSet.run s c).s := by
  unfold defStripeSet
  dsimp only
  repeat' first
    | exact rfl
    | with_reducible apply Keep.refl
    | with_reducible assumption
    | with_reducible apply Keep.via (outSt_keep ..)
    | with_reducible apply Keep.via (outOk_keep ..)
    | with_reducible apply Keep.via (State.writeStripe_keep ..)
    | with_reducible apply Keep.foldl
    | with_reducible apply Keep.foldl_snd
    | with_reducible apply Keep.foldl_fst
    | (intro _ _)
    | with_reducible apply Keep.ite
    | with_reducible apply Keep.ite_out
    | split
    | dsimp -proj only
    | ((with_reducible conv => arg 3; whnf); first | split)
    | dsimp -proj +zetaDelta only
    | dsimp only

theorem execStripeSet_keep (r : Req) (s : State) : KeepR 0x3CFF9FC9B s (execStripeSet r s) := by
  unfold execStripeSet
  repeat' first
    | exact rfl
    | with_reducible apply Keep.refl
    | with_reducible assumption
    | with_reducible apply KeepR.refused
    | with_reducible apply KeepR.next
    | exact State.cuard_keep (fun u c => (defStripeSet_keep u c).mono rfl) rfl
    | dsimp -proj only
    | ((with_reducible conv => arg 3; whnf); first | split)
    | dsimp -proj +zetaDelta only
    | dsimp only

theorem defSpnGet_keep  (s : State) (c : Call) : Keep 0x3CFFDFCF3 s (defSpnGet.run s c).s := by
  unfold defSpnGet
  dsimp only
  repeat' first
    | exact rfl
    | with_reducible apply Keep.refl
    | with_reducible assumption
    | with_reducible apply Keep.via (outRegs_keep ..)
    | dsimp -proj only
    | ((with_reducible conv => arg 3; whnf); first | split)
    | dsimp -proj +zetaDelta only
    | dsimp only

theorem execSpnGet_keep (r : Req) (s : State) : KeepR 0x3CFF9FC93 s (execSpnGet r s) := by
  unfold execSpnGet
  repeat' first
    | exact rfl
    | with_reducible apply Keep.refl
    | with_reducible assumption
    | with_reducible apply KeepR.refused
    | with_reducible apply KeepR.next
    | exact State.cuard_keep (fun u c => (defSpnGet_keep u c).mono rfl) rfl
    | dsimp -proj only
    | ((with_reducible conv => arg 3; whnf); first | split)
    | dsimp -proj +zetaDelta only
    | dsimp only

theorem defChnGet_keep  (s : State) (c : Call) : Keep 0x3CFFDFCF3 s (defChnGet.run s c).s := by
  unfold defChnGet
  dsimp only
  repeat' first
    | exact rfl
    | with_reducible apply Keep.refl
    | with_reducible assumption
    | with_reducible apply Keep.via (outRegs_keep ..)
    | extract_lets
    | dsimp -proj only
    | ((with_reducible conv => arg 3; whnf); first | split)
    | dsimp -proj +zetaDelta only
    | dsimp only

theorem execChnGet_keep (r : Req) (s : State) : KeepR 0x3CFF9FC93 s (execChnGet r s) := by
  unfold execChnGet
  repeat' first
    | exact rfl
    | with_reducible apply Keep.refl
    | with_reducible assumption
    | with_reducible apply KeepR.refused
    | with_reducible apply KeepR.next
    | exact State.cuard_keep (fun u c => (defChnGet_keep u c).mono rfl) rfl
    | dsimp -proj only
    | ((with_reducible conv => arg 3; whnf); first | split)
    | dsimp -proj +zetaDelta only
    | dsimp only


end Sys2Proof.Machine
end

