-- ==== Sys2Proof/Laws/KeepCmdHealth.lean ====
section
/-! SUPPORT. What each operation of Machine/CmdHealth.lean leaves alone (Laws/Keep.lean). -/

namespace Sys2Proof.Machine

set_option linter.unusedTactic false
set_option linter.unreachableTactic false

theorem State.fenceUnit_keep (s : State) (u : Nat) : Keep 0x3E9314CBB s (State.fenceUnit s u) := by
  unfold State.fenceUnit
  repeat' first
    | exact rfl
    | with_reducible apply Keep.refl
    | with_reducible assumption
    | with_reducible apply Keep.via (State.fenceSpindle_keep ..)
    | with_reducible apply Keep.via (State.fenceChan_keep ..)
    | with_reducible apply Keep.via (State.softCreate_keep ..)
    | with_reducible apply Keep.via (State.disableHalf_keep ..)
    | with_reducible apply Keep.via (State.fenceCore_keep ..)
    | with_reducible apply Keep.foldl
    | with_reducible apply Keep.foldl_snd
    | with_reducible apply Keep.foldl_fst
    | (intro _ _)
    | split
    | extract_lets
    | dsimp -proj only
    | ((with_reducible conv => arg 3; whnf); first | split)
    | dsimp -proj +zetaDelta only
    | dsimp only

theorem defFence_keep  (s : State) (c : Call) : Keep 0x3E9314CBB s (defFence.run s c).s := by
  unfold defFence
  dsimp only
  repeat' first
    | exact rfl
    | with_reducible apply Keep.refl
    | with_reducible assumption
    | with_reducible apply Keep.via (outOk_keep ..)
    | with_reducible apply Keep.via (State.fenceUnit_keep ..)
    | with_reducible apply Keep.ite
    | with_reducible apply Keep.ite_out
    | split
    | extract_lets
    | dsimp -proj only
    | ((with_reducible conv => arg 3; whnf); first | split)
    | dsimp -proj +zetaDelta only
    | dsimp only

theorem execFence_keep (r : Req) (s : State) : KeepR 0x3C9314C9B s (execFence r s) := by
  unfold execFence
  repeat' first
    | exact rfl
    | with_reducible apply Keep.refl
    | with_reducible assumption
    | with_reducible apply KeepR.refused
    | with_reducible apply KeepR.next
    | exact State.cuard_keep (fun u c => (defFence_keep u c).mono rfl) rfl
    | dsimp -proj only
    | ((with_reducible conv => arg 3; whnf); first | split)
    | dsimp -proj +zetaDelta only
    | dsimp only

theorem State.beginReturn_keep (s : State) (u : Nat) : Keep 0x3FF3FFFBF s (State.beginReturn s u) := by
  unfold State.beginReturn
  repeat' first
    | exact rfl
    | with_reducible apply Keep.refl
    | with_reducible assumption
    | with_reducible apply Keep.via (State.requestReset_keep ..)
    | with_reducible apply Keep.ite
    | split
    | extract_lets
    | dsimp -proj only
    | ((with_reducible conv => arg 3; whnf); first | split | with_reducible apply Keep.setHlth)
    | dsimp -proj +zetaDelta only
    | dsimp only

theorem defReturn_keep  (s : State) (c : Call) : Keep 0x3FF3FFFBF s (defReturn.run s c).s := by
  unfold defReturn
  dsimp only
  repeat' first
    | exact rfl
    | with_reducible apply Keep.refl
    | with_reducible assumption
    | with_reducible apply Keep.via (outSt_keep ..)
    | with_reducible apply Keep.via (outOk_keep ..)
    | with_reducible apply Keep.via (outFirst_keep ..)
    | with_reducible apply Keep.via (State.beginReturn_keep ..)
    | with_reducible apply Keep.ite
    | with_reducible apply Keep.ite_out
    | split
    | extract_lets
    | dsimp -proj only
    | ((with_reducible conv => arg 3; whnf); first | split)
    | dsimp -proj +zetaDelta only
    | dsimp only

theorem execReturnUnit_keep (r : Req) (s : State) : KeepR 0x3CF39FC9B s (execReturnUnit r s) := by
  unfold execReturnUnit
  repeat' first
    | exact rfl
    | with_reducible apply Keep.refl
    | with_reducible assumption
    | with_reducible apply KeepR.refused
    | with_reducible apply KeepR.next
    | exact State.cuard_keep (fun u c => (defReturn_keep u c).mono rfl) rfl
    | dsimp -proj only
    | ((with_reducible conv => arg 3; whnf); first | split)
    | dsimp -proj +zetaDelta only
    | dsimp only

theorem defRowRepair_keep  (s : State) (c : Call) : Keep 0x3EFFDBCFB s (defRowRepair.run s c).s := by
  unfold defRowRepair
  dsimp only
  repeat' first
    | exact rfl
    | with_reducible apply Keep.refl
    | with_reducible assumption
    | with_reducible apply Keep.via (State.startRepair_keep ..)
    | with_reducible apply Keep.via (outSt_keep ..)
    | with_reducible apply Keep.via (outHeld_keep ..)
    | with_reducible apply Keep.ite
    | with_reducible apply Keep.ite_out
    | split
    | extract_lets
    | dsimp -proj only
    | ((with_reducible conv => arg 3; whnf); first | split)
    | dsimp -proj +zetaDelta only
    | dsimp only

theorem execRowRepair_keep (r : Req) (s : State) : KeepR 0x3CFF9BC9B s (execRowRepair r s) := by
  unfold execRowRepair
  repeat' first
    | exact rfl
    | with_reducible apply Keep.refl
    | with_reducible assumption
    | with_reducible apply KeepR.refused
    | with_reducible apply KeepR.next
    | exact State.cuard_keep (fun u c => (defRowRepair_keep u c).mono rfl) rfl
    | dsimp -proj only
    | ((with_reducible conv => arg 3; whnf); first | split)
    | dsimp -proj +zetaDelta only
    | dsimp only

theorem State.burnRepair_keep (s : State) (n u d : Nat) (bad : Bool) : Keep 0x3EBBDFCFB s (State.burnRepair s n u d bad) := by
  unfold State.burnRepair
  repeat' first
    | exact rfl
    | with_reducible apply Keep.refl
    | with_reducible assumption
    | with_reducible apply Keep.via (State.wf_keep ..)
    | with_reducible apply Keep.via (State.wr_keep ..)
    | with_reducible apply Keep.via (State.softRemove_keep ..)
    | with_reducible apply Keep.via (State.event_keep ..)
    | with_reducible apply Keep.ite
    | split
    | extract_lets
    | dsimp -proj only
    | ((with_reducible conv => arg 3; whnf); first | split)
    | dsimp -proj +zetaDelta only
    | dsimp only

theorem defFuseBurn_keep (bad : Bool) (s : State) (c : Call) : Keep 0x3EABDFCFB s ((defFuseBurn bad).run s c).s := by
  unfold defFuseBurn
  dsimp only
  repeat' first
    | exact rfl
    | with_reducible apply Keep.refl
    | with_reducible assumption
    | with_reducible apply Keep.via (outSt_keep ..)
    | with_reducible apply Keep.via (outOk_keep ..)
    | with_reducible apply Keep.via (State.burnRepair_keep ..)
    | with_reducible apply Keep.ite
    | with_reducible apply Keep.ite_out
    | split
    | extract_lets
    | dsimp -proj only
    | ((with_reducible conv => arg 3; whnf); first | split | with_reducible apply Keep.setFuse)
    | dsimp -proj +zetaDelta only
    | dsimp only

theorem execFuseBurn_keep (r : Req) (bad : Bool) (s : State) : KeepR 0x3CAB9FC9B s (execFuseBurn r bad s) := by
  unfold execFuseBurn
  repeat' first
    | exact rfl
    | with_reducible apply Keep.refl
    | with_reducible assumption
    | with_reducible apply KeepR.refused
    | with_reducible apply KeepR.next
    | exact State.cuard_keep (fun u c => (defFuseBurn_keep _ u c).mono rfl) rfl
    | dsimp -proj only
    | ((with_reducible conv => arg 3; whnf); first | split)
    | dsimp -proj +zetaDelta only
    | dsimp only

theorem defSpolSet_keep  (s : State) (c : Call) : Keep 0x3FFFFFFFB s (defSpolSet.run s c).s := by
  unfold defSpolSet
  dsimp only
  repeat' first
    | exact rfl
    | with_reducible apply Keep.refl
    | with_reducible assumption
    | with_reducible apply Keep.via (outOk_keep ..)
    | with_reducible apply Keep.via (State.wf_keep ..)
    | dsimp -proj only
    | ((with_reducible conv => arg 3; whnf); first | split)
    | dsimp -proj +zetaDelta only
    | dsimp only

theorem execSpolSet_keep (r : Req) (s : State) : KeepR 0x3CFF9FC9B s (execSpolSet r s) := by
  unfold execSpolSet
  repeat' first
    | exact rfl
    | with_reducible apply Keep.refl
    | with_reducible assumption
    | with_reducible apply KeepR.refused
    | with_reducible apply KeepR.next
    | exact State.cuard_keep (fun u c => (defSpolSet_keep u c).mono rfl) rfl
    | dsimp -proj only
    | ((with_reducible conv => arg 3; whnf); first | split)
    | dsimp -proj +zetaDelta only
    | dsimp only

theorem State.clearMargin_keep (s : State) : Keep 0x3EFEDFCFB s (State.clearMargin s) := by
  unfold State.clearMargin
  repeat' first
    | exact rfl
    | with_reducible apply Keep.refl
    | with_reducible assumption
    | with_reducible apply Keep.via (State.wr_keep ..)
    | with_reducible apply Keep.via (State.syncPlan_keep ..)
    | with_reducible apply Keep.via (State.askFreq_keep ..)
    | with_reducible apply Keep.via (State.setMargined_keep ..)
    | with_reducible apply Keep.via (State.wf_keep ..)
    | with_reducible apply Keep.foldl
    | with_reducible apply Keep.foldl_snd
    | with_reducible apply Keep.foldl_fst
    | (intro _ _)
    | with_reducible apply Keep.ite
    | split
    | extract_lets
    | dsimp -proj only
    | ((with_reducible conv => arg 3; whnf); first | split)
    | dsimp -proj +zetaDelta only
    | dsimp only

theorem defMarginClear_keep  (s : State) (c : Call) : Keep 0x3EFEDFCFB s (defMarginClear.run s c).s := by
  unfold defMarginClear
  dsimp only
  repeat' first
    | exact rfl
    | with_reducible apply Keep.refl
    | with_reducible assumption
    | with_reducible apply Keep.via (State.clearMargin_keep ..)
    | with_reducible apply Keep.via (outOk_keep ..)
    | with_reducible apply Keep.via (outSt_keep ..)
    | with_reducible apply Keep.via (outHeld_keep ..)
    | with_reducible apply Keep.ite
    | with_reducible apply Keep.ite_out
    | split
    | extract_lets
    | dsimp -proj only
    | ((with_reducible conv => arg 3; whnf); first | split)
    | dsimp -proj +zetaDelta only
    | dsimp only

theorem execMarginClear_keep (r : Req) (s : State) : KeepR 0x3CFE9FC9B s (execMarginClear r s) := by
  unfold execMarginClear
  repeat' first
    | exact rfl
    | with_reducible apply Keep.refl
    | with_reducible assumption
    | with_reducible apply KeepR.refused
    | with_reducible apply KeepR.next
    | exact State.cuard_keep (fun u c => (defMarginClear_keep u c).mono rfl) rfl
    | dsimp -proj only
    | ((with_reducible conv => arg 3; whnf); first | split)
    | dsimp -proj +zetaDelta only
    | dsimp only

theorem defChanCfg_keep  (s : State) (c : Call) : Keep 0x3FFFFFFFB s (defChanCfg.run s c).s := by
  unfold defChanCfg
  dsimp only
  repeat' first
    | exact rfl
    | with_reducible apply Keep.refl
    | with_reducible assumption
    | with_reducible apply Keep.via (outOk_keep ..)
    | with_reducible apply Keep.via (State.wr_keep ..)
    | with_reducible apply Keep.via (State.wf_keep ..)
    | extract_lets
    | dsimp -proj only
    | ((with_reducible conv => arg 3; whnf); first | split)
    | dsimp -proj +zetaDelta only
    | dsimp only

theorem execChanCfg_keep (r : Req) (s : State) : KeepR 0x3CFF9FC9B s (execChanCfg r s) := by
  unfold execChanCfg
  repeat' first
    | exact rfl
    | with_reducible apply Keep.refl
    | with_reducible assumption
    | with_reducible apply KeepR.refused
    | with_reducible apply KeepR.next
    | exact State.cuard_keep (fun u c => (defChanCfg_keep u c).mono rfl) rfl
    | dsimp -proj only
    | ((with_reducible conv => arg 3; whnf); first | split)
    | dsimp -proj +zetaDelta only
    | dsimp only

theorem defRepairGet_keep  (s : State) (c : Call) : Keep 0x3FFFFFFFF s (defRepairGet.run s c).s := by
  unfold defRepairGet
  dsimp only
  repeat' first
    | exact rfl
    | with_reducible apply Keep.refl
    | with_reducible assumption
    | with_reducible apply Keep.via (outOk_keep ..)
    | extract_lets
    | dsimp -proj only
    | ((with_reducible conv => arg 3; whnf); first | split)
    | dsimp -proj +zetaDelta only
    | dsimp only

theorem execRepairGet_keep (r : Req) (s : State) : KeepR 0x3CFF9FC9B s (execRepairGet r s) := by
  unfold execRepairGet
  repeat' first
    | exact rfl
    | with_reducible apply Keep.refl
    | with_reducible assumption
    | with_reducible apply KeepR.refused
    | with_reducible apply KeepR.next
    | exact State.cuard_keep (fun u c => (defRepairGet_keep u c).mono rfl) rfl
    | dsimp -proj only
    | ((with_reducible conv => arg 3; whnf); first | split)
    | dsimp -proj +zetaDelta only
    | dsimp only

theorem defTestPolicySet_keep  (s : State) (c : Call) : Keep 0x3FBBFFFFB s (defTestPolicySet.run s c).s := by
  unfold defTestPolicySet
  dsimp only
  repeat' first
    | exact rfl
    | with_reducible apply Keep.refl
    | with_reducible assumption
    | with_reducible apply Keep.via (outOk_keep ..)
    | with_reducible apply Keep.via (State.setSoft_keep ..)
    | dsimp -proj only
    | ((with_reducible conv => arg 3; whnf); first | split)
    | dsimp -proj +zetaDelta only
    | dsimp only

theorem execTestPolicySet_keep (r : Req) (s : State) : KeepR 0x3CBB9FC9B s (execTestPolicySet r s) := by
  unfold execTestPolicySet
  repeat' first
    | exact rfl
    | with_reducible apply Keep.refl
    | with_reducible assumption
    | with_reducible apply KeepR.refused
    | with_reducible apply KeepR.next
    | exact State.cuard_keep (fun u c => (defTestPolicySet_keep u c).mono rfl) rfl
    | dsimp -proj only
    | ((with_reducible conv => arg 3; whnf); first | split)
    | dsimp -proj +zetaDelta only
    | dsimp only

theorem defRollCfg_keep  (s : State) (c : Call) : Keep 0x3FFFFFFFB s (defRollCfg.run s c).s := by
  unfold defRollCfg
  dsimp only
  repeat' first
    | exact rfl
    | with_reducible apply Keep.refl
    | with_reducible assumption
    | with_reducible apply Keep.via (State.wf_keep ..)
    | with_reducible apply Keep.via (outOk_keep ..)
    | with_reducible apply Keep.via (State.wr_keep ..)
    | extract_lets
    | dsimp -proj only
    | ((with_reducible conv => arg 3; whnf); first | split)
    | dsimp -proj +zetaDelta only
    | dsimp only

theorem execRollCfg_keep (r : Req) (s : State) : KeepR 0x3CFF9FC9B s (execRollCfg r s) := by
  unfold execRollCfg
  repeat' first
    | exact rfl
    | with_reducible apply Keep.refl
    | with_reducible assumption
    | with_reducible apply KeepR.refused
    | with_reducible apply KeepR.next
    | exact State.cuard_keep (fun u c => (defRollCfg_keep u c).mono rfl) rfl
    | dsimp -proj only
    | ((with_reducible conv => arg 3; whnf); first | split)
    | dsimp -proj +zetaDelta only
    | dsimp only

theorem defTestGet_keep  (s : State) (c : Call) : Keep 0x3CFFDFCF3 s (defTestGet.run s c).s := by
  unfold defTestGet
  dsimp only
  repeat' first
    | exact rfl
    | with_reducible apply Keep.refl
    | with_reducible assumption
    | with_reducible apply Keep.via (outRegs_keep ..)
    | dsimp -proj only
    | ((with_reducible conv => arg 3; whnf); first | split)
    | dsimp -proj +zetaDelta only
    | dsimp only

theorem execTestGet_keep (r : Req) (s : State) : KeepR 0x3CFF9FC93 s (execTestGet r s) := by
  unfold execTestGet
  repeat' first
    | exact rfl
    | with_reducible apply Keep.refl
    | with_reducible assumption
    | with_reducible apply KeepR.refused
    | with_reducible apply KeepR.next
    | exact State.cuard_keep (fun u c => (defTestGet_keep u c).mono rfl) rfl
    | dsimp -proj only
    | ((with_reducible conv => arg 3; whnf); first | split)
    | dsimp -proj +zetaDelta only
    | dsimp only

theorem defReset_keep  (s : State) (c : Call) : Keep 0x3FF7FFFBF s (defReset.run s c).s := by
  unfold defReset
  dsimp only
  repeat' first
    | exact rfl
    | with_reducible apply Keep.refl
    | with_reducible assumption
    | with_reducible apply Keep.via (State.requestReset_keep ..)
    | with_reducible apply Keep.via (outFirst_keep ..)
    | with_reducible apply Keep.ite
    | with_reducible apply Keep.ite_out
    | split
    | extract_lets
    | dsimp -proj only
    | ((with_reducible conv => arg 3; whnf); first | split)
    | dsimp -proj +zetaDelta only
    | dsimp only

theorem execReset_keep (r : Req) (s : State) : KeepR 0x3CF79FC9B s (execReset r s) := by
  unfold execReset
  repeat' first
    | exact rfl
    | with_reducible apply Keep.refl
    | with_reducible assumption
    | with_reducible apply KeepR.refused
    | with_reducible apply KeepR.next
    | exact State.cuard_keep (fun u c => (defReset_keep u c).mono rfl) rfl
    | dsimp -proj only
    | ((with_reducible conv => arg 3; whnf); first | split)
    | dsimp -proj +zetaDelta only
    | dsimp only

theorem defSuspectGet_keep  (s : State) (c : Call) : Keep 0x3FFFFFFFF s (defSuspectGet.run s c).s := by
  unfold defSuspectGet
  dsimp only
  repeat' first
    | exact rfl
    | with_reducible apply Keep.refl
    | with_reducible assumption
    | with_reducible apply Keep.via (outOk_keep ..)
    | dsimp -proj only
    | ((with_reducible conv => arg 3; whnf); first | split)
    | dsimp -proj +zetaDelta only
    | dsimp only

theorem execSuspectGet_keep (r : Req) (s : State) : KeepR 0x3CFF9FC9B s (execSuspectGet r s) := by
  unfold execSuspectGet
  repeat' first
    | exact rfl
    | with_reducible apply Keep.refl
    | with_reducible assumption
    | with_reducible apply KeepR.refused
    | with_reducible apply KeepR.next
    | exact State.cuard_keep (fun u c => (defSuspectGet_keep u c).mono rfl) rfl
    | dsimp -proj only
    | ((with_reducible conv => arg 3; whnf); first | split)
    | dsimp -proj +zetaDelta only
    | dsimp only

theorem defSuspectClear_keep  (s : State) (c : Call) : Keep 0x3FF7FFFFB s (defSuspectClear.run s c).s := by
  unfold defSuspectClear
  dsimp only
  repeat' first
    | exact rfl
    | with_reducible apply Keep.refl
    | with_reducible assumption
    | with_reducible apply Keep.via (outSt_keep ..)
    | with_reducible apply Keep.via (State.wr_keep ..)
    | with_reducible apply Keep.via (outOk_keep ..)
    | with_reducible apply Keep.foldl
    | with_reducible apply Keep.foldl_snd
    | with_reducible apply Keep.foldl_fst
    | (intro _ _)
    | with_reducible apply Keep.ite
    | with_reducible apply Keep.ite_out
    | split
    | extract_lets
    | dsimp -proj only
    | ((with_reducible conv => arg 3; whnf); first | split | with_reducible apply Keep.setRst)
    | dsimp -proj +zetaDelta only
    | dsimp only

theorem execSuspectClear_keep (r : Req) (s : State) : KeepR 0x3CF79FC9B s (execSuspectClear r s) := by
  unfold execSuspectClear
  repeat' first
    | exact rfl
    | with_reducible apply Keep.refl
    | with_reducible assumption
    | with_reducible apply KeepR.refused
    | with_reducible apply KeepR.next
    | exact State.cuard_keep (fun u c => (defSuspectClear_keep u c).mono rfl) rfl
    | dsimp -proj only
    | ((with_reducible conv => arg 3; whnf); first | split)
    | dsimp -proj +zetaDelta only
    | dsimp only

theorem defQuarStart_keep  (s : State) (c : Call) : Keep 0x3EFFDCCFB s (defQuarStart.run s c).s := by
  unfold defQuarStart
  dsimp only
  repeat' first
    | exact rfl
    | with_reducible apply Keep.refl
    | with_reducible assumption
    | with_reducible apply Keep.via (outSt_keep ..)
    | with_reducible apply Keep.via (State.wf_keep ..)
    | with_reducible apply Keep.via (State.wr_keep ..)
    | with_reducible apply Keep.via (outHeld_keep ..)
    | with_reducible apply Keep.via (State.beginSwitch_keep ..)
    | with_reducible apply Keep.ite
    | with_reducible apply Keep.ite_out
    | split
    | extract_lets
    | dsimp -proj only
    | ((with_reducible conv => arg 3; whnf); first | split)
    | dsimp -proj +zetaDelta only
    | dsimp only

theorem execQuarStart_keep (r : Req) (s : State) : KeepR 0x3CFF9CC9B s (execQuarStart r s) := by
  unfold execQuarStart
  repeat' first
    | exact rfl
    | with_reducible apply Keep.refl
    | with_reducible assumption
    | with_reducible apply KeepR.refused
    | with_reducible apply KeepR.next
    | exact State.cuard_keep (fun u c => (defQuarStart_keep u c).mono rfl) rfl
    | dsimp -proj only
    | ((with_reducible conv => arg 3; whnf); first | split)
    | dsimp -proj +zetaDelta only
    | dsimp only

theorem defQuarEnd_keep  (s : State) (c : Call) : Keep 0x3EFFDFCFB s (defQuarEnd.run s c).s := by
  unfold defQuarEnd
  dsimp only
  repeat' first
    | exact rfl
    | with_reducible apply Keep.refl
    | with_reducible assumption
    | with_reducible apply Keep.via (outOk_keep ..)
    | with_reducible apply Keep.via (State.quarEnd_keep ..)
    | with_reducible apply Keep.via (outSt_keep ..)
    | with_reducible apply Keep.ite
    | with_reducible apply Keep.ite_out
    | split
    | dsimp -proj only
    | ((with_reducible conv => arg 3; whnf); first | split)
    | dsimp -proj +zetaDelta only
    | dsimp only

theorem execQuarEnd_keep (r : Req) (s : State) : KeepR 0x3CFF9FC9B s (execQuarEnd r s) := by
  unfold execQuarEnd
  repeat' first
    | exact rfl
    | with_reducible apply Keep.refl
    | with_reducible assumption
    | with_reducible apply KeepR.refused
    | with_reducible apply KeepR.next
    | exact State.cuard_keep (fun u c => (defQuarEnd_keep u c).mono rfl) rfl
    | dsimp -proj only
    | ((with_reducible conv => arg 3; whnf); first | split)
    | dsimp -proj +zetaDelta only
    | dsimp only

theorem defHangCfg_keep  (s : State) (c : Call) : Keep 0x3FFFFFFFB s (defHangCfg.run s c).s := by
  unfold defHangCfg
  dsimp only
  repeat' first
    | exact rfl
    | with_reducible apply Keep.refl
    | with_reducible assumption
    | with_reducible apply Keep.via (State.wr_keep ..)
    | with_reducible apply Keep.via (State.wf_keep ..)
    | with_reducible apply Keep.via (outOk_keep ..)
    | extract_lets
    | dsimp -proj only
    | ((with_reducible conv => arg 3; whnf); first | split)
    | dsimp -proj +zetaDelta only
    | dsimp only

theorem execHangCfg_keep (r : Req) (s : State) : KeepR 0x3CFF9FC9B s (execHangCfg r s) := by
  unfold execHangCfg
  repeat' first
    | exact rfl
    | with_reducible apply Keep.refl
    | with_reducible assumption
    | with_reducible apply KeepR.refused
    | with_reducible apply KeepR.next
    | exact State.cuard_keep (fun u c => (defHangCfg_keep u c).mono rfl) rfl
    | dsimp -proj only
    | ((with_reducible conv => arg 3; whnf); first | split)
    | dsimp -proj +zetaDelta only
    | dsimp only


end Sys2Proof.Machine
end

