-- ==== Sys2Proof/Laws/KeepCmdFab.lean ====
section
/-! SUPPORT. What each operation of Machine/CmdFab.lean leaves alone (Laws/Keep.lean). -/

namespace Sys2Proof.Machine

set_option linter.unusedTactic false
set_option linter.unreachableTactic false

theorem defCoordSet_keep  (s : State) (c : Call) : Keep 0x37FFFFFFF s (defCoordSet.run s c).s := by
  unfold defCoordSet
  dsimp only
  repeat' first
    | exact rfl
    | with_reducible apply Keep.refl
    | with_reducible assumption
    | with_reducible apply Keep.via (outSt_keep ..)
    | with_reducible apply Keep.via (outOk_keep ..)
    | with_reducible apply Keep.ite
    | with_reducible apply Keep.ite_out
    | split
    | dsimp -proj only
    | ((with_reducible conv => arg 3; whnf); first | split | with_reducible apply Keep.setBoot)
    | dsimp -proj +zetaDelta only
    | dsimp only

theorem execCoordSet_keep (r : Req) (s : State) : KeepR 0x34FF9FC9B s (execCoordSet r s) := by
  unfold execCoordSet
  repeat' first
    | exact rfl
    | with_reducible apply Keep.refl
    | with_reducible assumption
    | with_reducible apply KeepR.refused
    | with_reducible apply KeepR.next
    | exact State.cuard_keep (fun u c => (defCoordSet_keep u c).mono rfl) rfl
    | dsimp -proj only
    | ((with_reducible conv => arg 3; whnf); first | split)
    | dsimp -proj +zetaDelta only
    | dsimp only

theorem defFabAddrSet_keep  (s : State) (c : Call) : Keep 0x3FFFFFFFB s (defFabAddrSet.run s c).s := by
  unfold defFabAddrSet
  dsimp only
  repeat' first
    | exact rfl
    | with_reducible apply Keep.refl
    | with_reducible assumption
    | with_reducible apply Keep.via (State.wr_keep ..)
    | with_reducible apply Keep.via (outOk_keep ..)
    | with_reducible apply Keep.via (State.wf_keep ..)
    | with_reducible apply Keep.foldl
    | with_reducible apply Keep.foldl_snd
    | with_reducible apply Keep.foldl_fst
    | (intro _ _)
    | extract_lets
    | dsimp -proj only
    | ((with_reducible conv => arg 3; whnf); first | split)
    | dsimp -proj +zetaDelta only
    | dsimp only

theorem execFabAddrSet_keep (r : Req) (s : State) : KeepR 0x3CFF9FC9B s (execFabAddrSet r s) := by
  unfold execFabAddrSet
  repeat' first
    | exact rfl
    | with_reducible apply Keep.refl
    | with_reducible assumption
    | with_reducible apply KeepR.refused
    | with_reducible apply KeepR.next
    | exact State.cuard_keep (fun u c => (defFabAddrSet_keep u c).mono rfl) rfl
    | dsimp -proj only
    | ((with_reducible conv => arg 3; whnf); first | split)
    | dsimp -proj +zetaDelta only
    | dsimp only

theorem defRtWrite_keep  (s : State) (c : Call) : Keep 0x3CFF9FCBB s (defRtWrite.run s c).s := by
  unfold defRtWrite
  dsimp only
  repeat' first
    | exact rfl
    | with_reducible apply Keep.refl
    | with_reducible assumption
    | with_reducible apply Keep.via (State.epochDue_keep ..)
    | with_reducible apply Keep.via (outOk_keep ..)
    | with_reducible apply Keep.via (State.rerouteWaiting_keep ..)
    | with_reducible apply Keep.via (State.wr_keep ..)
    | with_reducible apply Keep.via (outSt_keep ..)
    | with_reducible apply Keep.foldl
    | with_reducible apply Keep.foldl_snd
    | with_reducible apply Keep.foldl_fst
    | (intro _ _)
    | with_reducible apply Keep.ite
    | with_reducible apply Keep.ite_out
    | split
    | extract_lets
    | dsimp -proj only
    | ((with_reducible conv => arg 3; whnf); first | split)
    | dsimp -proj +zetaDelta only
    | dsimp only

theorem execRtWrite_keep (r : Req) (s : State) : KeepR 0x3CFF9FC9B s (execRtWrite r s) := by
  unfold execRtWrite
  repeat' first
    | exact rfl
    | with_reducible apply Keep.refl
    | with_reducible assumption
    | with_reducible apply KeepR.refused
    | with_reducible apply KeepR.next
    | exact State.cuard_keep (fun u c => (defRtWrite_keep u c).mono rfl) rfl
    | dsimp -proj only
    | ((with_reducible conv => arg 3; whnf); first | split)
    | dsimp -proj +zetaDelta only
    | dsimp only

theorem defMcWrite_keep  (s : State) (c : Call) : Keep 0x3CFF9FCBB s (defMcWrite.run s c).s := by
  unfold defMcWrite
  dsimp only
  repeat' first
    | exact rfl
    | with_reducible apply Keep.refl
    | with_reducible assumption
    | with_reducible apply Keep.via (State.epochDue_keep ..)
    | with_reducible apply Keep.via (outOk_keep ..)
    | with_reducible apply Keep.via (State.wr_keep ..)
    | with_reducible apply Keep.via (outSt_keep ..)
    | with_reducible apply Keep.foldl
    | with_reducible apply Keep.foldl_snd
    | with_reducible apply Keep.foldl_fst
    | (intro _ _)
    | with_reducible apply Keep.ite
    | with_reducible apply Keep.ite_out
    | split
    | extract_lets
    | dsimp -proj only
    | ((with_reducible conv => arg 3; whnf); first | split)
    | dsimp -proj +zetaDelta only
    | dsimp only

theorem execMcWrite_keep (r : Req) (s : State) : KeepR 0x3CFF9FC9B s (execMcWrite r s) := by
  unfold execMcWrite
  repeat' first
    | exact rfl
    | with_reducible apply Keep.refl
    | with_reducible assumption
    | with_reducible apply KeepR.refused
    | with_reducible apply KeepR.next
    | exact State.cuard_keep (fun u c => (defMcWrite_keep u c).mono rfl) rfl
    | dsimp -proj only
    | ((with_reducible conv => arg 3; whnf); first | split)
    | dsimp -proj +zetaDelta only
    | dsimp only

theorem defEpochSwitch_keep  (s : State) (c : Call) : Keep 0x3FFFBFFFF s (defEpochSwitch.run s c).s := by
  unfold defEpochSwitch
  dsimp only
  repeat' first
    | exact rfl
    | with_reducible apply Keep.refl
    | with_reducible assumption
    | with_reducible apply Keep.via (outSt_keep ..)
    | with_reducible apply Keep.via (outFirst_keep ..)
    | with_reducible apply Keep.ite
    | with_reducible apply Keep.ite_out
    | split
    | extract_lets
    | dsimp -proj only
    | ((with_reducible conv => arg 3; whnf); first | split | with_reducible apply Keep.setFab)
    | dsimp -proj +zetaDelta only
    | dsimp only

theorem execEpochSwitch_keep (r : Req) (s : State) : KeepR 0x3CFF9FC9B s (execEpochSwitch r s) := by
  unfold execEpochSwitch
  repeat' first
    | exact rfl
    | with_reducible apply Keep.refl
    | with_reducible assumption
    | with_reducible apply KeepR.refused
    | with_reducible apply KeepR.next
    | exact State.cuard_keep (fun u c => (defEpochSwitch_keep u c).mono rfl) rfl
    | dsimp -proj only
    | ((with_reducible conv => arg 3; whnf); first | split)
    | dsimp -proj +zetaDelta only
    | dsimp only

theorem defPortCfg_keep  (s : State) (c : Call) : Keep 0x3FFFFFFFB s (defPortCfg.run s c).s := by
  unfold defPortCfg
  dsimp only
  repeat' first
    | exact rfl
    | with_reducible apply Keep.refl
    | with_reducible assumption
    | with_reducible apply Keep.via (State.wf_keep ..)
    | with_reducible apply Keep.via (outOk_keep ..)
    | with_reducible apply Keep.foldl
    | with_reducible apply Keep.foldl_snd
    | with_reducible apply Keep.foldl_fst
    | (intro _ _)
    | extract_lets
    | dsimp -proj only
    | ((with_reducible conv => arg 3; whnf); first | split)
    | dsimp -proj +zetaDelta only
    | dsimp only

theorem execPortCfg_keep (r : Req) (s : State) : KeepR 0x3CFF9FC9B s (execPortCfg r s) := by
  unfold execPortCfg
  repeat' first
    | exact rfl
    | with_reducible apply Keep.refl
    | with_reducible assumption
    | with_reducible apply KeepR.refused
    | with_reducible apply KeepR.next
    | exact State.cuard_keep (fun u c => (defPortCfg_keep u c).mono rfl) rfl
    | dsimp -proj only
    | ((with_reducible conv => arg 3; whnf); first | split)
    | dsimp -proj +zetaDelta only
    | dsimp only

theorem State.enableHalf_keep (s : State) (h : Nat) : Keep 0x3EFF9FCBB s (State.enableHalf s h) := by
  unfold State.enableHalf
  repeat' first
    | exact rfl
    | with_reducible apply Keep.refl
    | with_reducible assumption
    | with_reducible apply Keep.via (State.wf_keep ..)
    | with_reducible apply Keep.via (State.retrain_keep ..)
    | with_reducible apply Keep.ite
    | split
    | extract_lets
    | dsimp -proj only
    | ((with_reducible conv => arg 3; whnf); first | split)
    | dsimp -proj +zetaDelta only
    | dsimp only

theorem defPortAct_keep  (s : State) (c : Call) : Keep 0x3CFF9FCBB s (defPortAct.run s c).s := by
  unfold defPortAct
  dsimp only
  repeat' first
    | exact rfl
    | with_reducible apply Keep.refl
    | with_reducible assumption
    | with_reducible apply Keep.via (outOk_keep ..)
    | with_reducible apply Keep.via (State.dikeDone_keep ..)
    | with_reducible apply Keep.via (State.disableHalf_keep ..)
    | with_reducible apply Keep.via (State.enableHalf_keep ..)
    | with_reducible apply Keep.via (State.syncDgPort_keep ..)
    | with_reducible apply Keep.via (State.returnHalf_keep ..)
    | with_reducible apply Keep.via (outSt_keep ..)
    | with_reducible apply Keep.via (State.retrain_keep ..)
    | with_reducible apply Keep.ite
    | with_reducible apply Keep.ite_out
    | split
    | extract_lets
    | dsimp -proj only
    | ((with_reducible conv => arg 3; whnf); first | split)
    | dsimp -proj +zetaDelta only
    | dsimp only

theorem execPortAct_keep (r : Req) (s : State) : KeepR 0x3CFF9FC9B s (execPortAct r s) := by
  unfold execPortAct
  repeat' first
    | exact rfl
    | with_reducible apply Keep.refl
    | with_reducible assumption
    | with_reducible apply KeepR.refused
    | with_reducible apply KeepR.next
    | exact State.cuard_keep (fun u c => (defPortAct_keep u c).mono rfl) rfl
    | dsimp -proj only
    | ((with_reducible conv => arg 3; whnf); first | split)
    | dsimp -proj +zetaDelta only
    | dsimp only

theorem defPortGwSet_keep  (s : State) (c : Call) : Keep 0x3FFFFFFFB s (defPortGwSet.run s c).s := by
  unfold defPortGwSet
  dsimp only
  repeat' first
    | exact rfl
    | with_reducible apply Keep.refl
    | with_reducible assumption
    | with_reducible apply Keep.via (outOk_keep ..)
    | with_reducible apply Keep.via (State.wr_keep ..)
    | extract_lets
    | dsimp -proj only
    | ((with_reducible conv => arg 3; whnf); first | split)
    | dsimp -proj +zetaDelta only
    | dsimp only

theorem execPortGwSet_keep (r : Req) (s : State) : KeepR 0x3CFF9FC9B s (execPortGwSet r s) := by
  unfold execPortGwSet
  repeat' first
    | exact rfl
    | with_reducible apply Keep.refl
    | with_reducible assumption
    | with_reducible apply KeepR.refused
    | with_reducible apply KeepR.next
    | exact State.cuard_keep (fun u c => (defPortGwSet_keep u c).mono rfl) rfl
    | dsimp -proj only
    | ((with_reducible conv => arg 3; whnf); first | split)
    | dsimp -proj +zetaDelta only
    | dsimp only

theorem defTopoGet_keep  (s : State) (c : Call) : Keep 0x3FFFFFFFF s (defTopoGet.run s c).s := by
  unfold defTopoGet
  dsimp only
  repeat' first
    | exact rfl
    | with_reducible apply Keep.refl
    | with_reducible assumption
    | with_reducible apply Keep.via (outOk_keep ..)
    | dsimp -proj only
    | ((with_reducible conv => arg 3; whnf); first | split)
    | dsimp -proj +zetaDelta only
    | dsimp only

theorem execTopoGet_keep (r : Req) (s : State) : KeepR 0x3CFF9FC9B s (execTopoGet r s) := by
  unfold execTopoGet
  repeat' first
    | exact rfl
    | with_reducible apply Keep.refl
    | with_reducible assumption
    | with_reducible apply KeepR.refused
    | with_reducible apply KeepR.next
    | exact State.cuard_keep (fun u c => (defTopoGet_keep u c).mono rfl) rfl
    | dsimp -proj only
    | ((with_reducible conv => arg 3; whnf); first | split)
    | dsimp -proj +zetaDelta only
    | dsimp only

theorem defDikeSet_keep  (s : State) (c : Call) : Keep 0x3EFF9FCBB s (defDikeSet.run s c).s := by
  unfold defDikeSet
  dsimp only
  repeat' first
    | exact rfl
    | with_reducible apply Keep.refl
    | with_reducible assumption
    | with_reducible apply Keep.via (State.wf_keep ..)
    | with_reducible apply Keep.via (outFirst_keep ..)
    | with_reducible apply Keep.via (State.retrain_keep ..)
    | with_reducible apply Keep.foldl
    | with_reducible apply Keep.foldl_snd
    | with_reducible apply Keep.foldl_fst
    | (intro _ _)
    | extract_lets
    | dsimp -proj only
    | ((with_reducible conv => arg 3; whnf); first | split)
    | dsimp -proj +zetaDelta only
    | dsimp only

theorem execDikeSet_keep (r : Req) (s : State) : KeepR 0x3CFF9FC9B s (execDikeSet r s) := by
  unfold execDikeSet
  repeat' first
    | exact rfl
    | with_reducible apply Keep.refl
    | with_reducible assumption
    | with_reducible apply KeepR.refused
    | with_reducible apply KeepR.next
    | exact State.cuard_keep (fun u c => (defDikeSet_keep u c).mono rfl) rfl
    | dsimp -proj only
    | ((with_reducible conv => arg 3; whnf); first | split)
    | dsimp -proj +zetaDelta only
    | dsimp only

theorem defWatchSet_keep  (s : State) (c : Call) : Keep 0x3FFE7FFFB s (defWatchSet.run s c).s := by
  unfold defWatchSet
  dsimp only
  repeat' first
    | exact rfl
    | with_reducible apply Keep.refl
    | with_reducible assumption
    | with_reducible apply Keep.via (outOk_keep ..)
    | with_reducible apply Keep.via (State.regWrite_keep ..)
    | with_reducible apply Keep.foldl
    | with_reducible apply Keep.foldl_snd
    | with_reducible apply Keep.foldl_fst
    | (intro _ _)
    | extract_lets
    | dsimp -proj only
    | ((with_reducible conv => arg 3; whnf); first | split)
    | dsimp -proj +zetaDelta only
    | dsimp only

theorem execWatchSet_keep (r : Req) (s : State) : KeepR 0x3CFE1FC9B s (execWatchSet r s) := by
  unfold execWatchSet
  repeat' first
    | exact rfl
    | with_reducible apply Keep.refl
    | with_reducible assumption
    | with_reducible apply KeepR.refused
    | with_reducible apply KeepR.next
    | exact State.cuard_keep (fun u c => (defWatchSet_keep u c).mono rfl) rfl
    | dsimp -proj only
    | ((with_reducible conv => arg 3; whnf); first | split)
    | dsimp -proj +zetaDelta only
    | dsimp only

theorem defPeerClear_keep  (s : State) (c : Call) : Keep 0x3EFFDFCFB s (defPeerClear.run s c).s := by
  unfold defPeerClear
  dsimp only
  repeat' first
    | exact rfl
    | with_reducible apply Keep.refl
    | with_reducible assumption
    | with_reducible apply Keep.via (outOk_keep ..)
    | with_reducible apply Keep.via (State.clearPeer_keep ..)
    | with_reducible apply Keep.via (outSt_keep ..)
    | with_reducible apply Keep.ite
    | with_reducible apply Keep.ite_out
    | split
    | dsimp -proj only
    | ((with_reducible conv => arg 3; whnf); first | split)
    | dsimp -proj +zetaDelta only
    | dsimp only

theorem execPeerClear_keep (r : Req) (s : State) : KeepR 0x3CFF9FC9B s (execPeerClear r s) := by
  unfold execPeerClear
  repeat' first
    | exact rfl
    | with_reducible apply Keep.refl
    | with_reducible assumption
    | with_reducible apply KeepR.refused
    | with_reducible apply KeepR.next
    | exact State.cuard_keep (fun u c => (defPeerClear_keep u c).mono rfl) rfl
    | dsimp -proj only
    | ((with_reducible conv => arg 3; whnf); first | split)
    | dsimp -proj +zetaDelta only
    | dsimp only

theorem defShadowSet_keep  (s : State) (c : Call) : Keep 0x3FFFFFFFB s (defShadowSet.run s c).s := by
  unfold defShadowSet
  dsimp only
  repeat' first
    | exact rfl
    | with_reducible apply Keep.refl
    | with_reducible assumption
    | with_reducible apply Keep.via (outSt_keep ..)
    | with_reducible apply Keep.via (outOk_keep ..)
    | with_reducible apply Keep.via (State.wf_keep ..)
    | with_reducible apply Keep.ite
    | with_reducible apply Keep.ite_out
    | split
    | dsimp -proj only
    | ((with_reducible conv => arg 3; whnf); first | split)
    | dsimp -proj +zetaDelta only
    | dsimp only

theorem execShadowSet_keep (r : Req) (s : State) : KeepR 0x3CFF9FC9B s (execShadowSet r s) := by
  unfold execShadowSet
  repeat' first
    | exact rfl
    | with_reducible apply Keep.refl
    | with_reducible assumption
    | with_reducible apply KeepR.refused
    | with_reducible apply KeepR.next
    | exact State.cuard_keep (fun u c => (defShadowSet_keep u c).mono rfl) rfl
    | dsimp -proj only
    | ((with_reducible conv => arg 3; whnf); first | split)
    | dsimp -proj +zetaDelta only
    | dsimp only

theorem defShadowPromote_keep  (s : State) (c : Call) : Keep 0x3FFF7FFFB s (defShadowPromote.run s c).s := by
  unfold defShadowPromote
  dsimp only
  repeat' first
    | exact rfl
    | with_reducible apply Keep.refl
    | with_reducible assumption
    | with_reducible apply Keep.via (outSt_keep ..)
    | with_reducible apply Keep.via (outOk_keep ..)
    | with_reducible apply Keep.via (State.promoteAt_keep ..)
    | with_reducible apply Keep.ite
    | with_reducible apply Keep.ite_out
    | split
    | extract_lets
    | dsimp -proj only
    | ((with_reducible conv => arg 3; whnf); first | split | with_reducible apply Keep.setColl)
    | dsimp -proj +zetaDelta only
    | dsimp only

theorem execShadowPromote_keep (r : Req) (s : State) : KeepR 0x3CFF1FC9B s (execShadowPromote r s) := by
  unfold execShadowPromote
  repeat' first
    | exact rfl
    | with_reducible apply Keep.refl
    | with_reducible assumption
    | with_reducible apply KeepR.refused
    | with_reducible apply KeepR.next
    | exact State.cuard_keep (fun u c => (defShadowPromote_keep u c).mono rfl) rfl
    | dsimp -proj only
    | ((with_reducible conv => arg 3; whnf); first | split)
    | dsimp -proj +zetaDelta only
    | dsimp only

theorem defCollCfg_keep  (s : State) (c : Call) : Keep 0x3FFFFFFFB s (defCollCfg.run s c).s := by
  unfold defCollCfg
  dsimp only
  repeat' first
    | exact rfl
    | with_reducible apply Keep.refl
    | with_reducible assumption
    | with_reducible apply Keep.via (State.wr_keep ..)
    | with_reducible apply Keep.via (outOk_keep ..)
    | with_reducible apply Keep.via (State.wf_keep ..)
    | extract_lets
    | dsimp -proj only
    | ((with_reducible conv => arg 3; whnf); first | split)
    | dsimp -proj +zetaDelta only
    | dsimp only

theorem execCollCfg_keep (r : Req) (s : State) : KeepR 0x3CFF9FC9B s (execCollCfg r s) := by
  unfold execCollCfg
  repeat' first
    | exact rfl
    | with_reducible apply Keep.refl
    | with_reducible assumption
    | with_reducible apply KeepR.refused
    | with_reducible apply KeepR.next
    | exact State.cuard_keep (fun u c => (defCollCfg_keep u c).mono rfl) rfl
    | dsimp -proj only
    | ((with_reducible conv => arg 3; whnf); first | split)
    | dsimp -proj +zetaDelta only
    | dsimp only

theorem defWithdraw_keep  (s : State) (c : Call) : Keep 0x3E9F14CBB s (defWithdraw.run s c).s := by
  unfold defWithdraw
  dsimp only
  repeat' first
    | exact rfl
    | with_reducible apply Keep.refl
    | with_reducible assumption
    | with_reducible apply Keep.via (outOk_keep ..)
    | with_reducible apply Keep.via (State.withdrawFirst_keep ..)
    | with_reducible apply Keep.ite
    | with_reducible apply Keep.ite_out
    | split
    | dsimp -proj only
    | ((with_reducible conv => arg 3; whnf); first | split)
    | dsimp -proj +zetaDelta only
    | dsimp only

theorem execWithdraw_keep (r : Req) (s : State) : KeepR 0x3C9F14C9B s (execWithdraw r s) := by
  unfold execWithdraw
  repeat' first
    | exact rfl
    | with_reducible apply Keep.refl
    | with_reducible assumption
    | with_reducible apply KeepR.refused
    | with_reducible apply KeepR.next
    | exact State.cuard_keep (fun u c => (defWithdraw_keep u c).mono rfl) rfl
    | dsimp -proj only
    | ((with_reducible conv => arg 3; whnf); first | split)
    | dsimp -proj +zetaDelta only
    | dsimp only

theorem defReturnService_keep  (s : State) (c : Call) : Keep 0x3EB79FCFB s (defReturnService.run s c).s := by
  unfold defReturnService
  dsimp only
  repeat' first
    | exact rfl
    | with_reducible apply Keep.refl
    | with_reducible assumption
    | with_reducible apply Keep.via (outOk_keep ..)
    | with_reducible apply Keep.via (State.applyReturn_keep ..)
    | dsimp -proj only
    | ((with_reducible conv => arg 3; whnf); first | split | with_reducible apply Keep.setRst)
    | dsimp -proj +zetaDelta only
    | dsimp only

theorem execReturnService_keep (r : Req) (s : State) : KeepR 0x3CB79FC9B s (execReturnService r s) := by
  unfold execReturnService
  repeat' first
    | exact rfl
    | with_reducible apply Keep.refl
    | with_reducible assumption
    | with_reducible apply KeepR.refused
    | with_reducible apply KeepR.next
    | exact State.cuard_keep (fun u c => (defReturnService_keep u c).mono rfl) rfl
    | dsimp -proj only
    | ((with_reducible conv => arg 3; whnf); first | split)
    | dsimp -proj +zetaDelta only
    | dsimp only


end Sys2Proof.Machine
end

