-- ==== Sys2Proof/Laws/KeepCmdRec.lean ====
section
/-! SUPPORT. What each operation of Machine/CmdRec.lean leaves alone (Laws/Keep.lean). -/

namespace Sys2Proof.Machine

set_option linter.unusedTactic false
set_option linter.unreachableTactic false

theorem defCkptSetup_keep (f : Flips) (s : State) (c : Call) : Keep 0x3EFFD90FB s ((defCkptSetup f).run s c).s := by
  unfold defCkptSetup
  dsimp only
  repeat' first
    | exact rfl
    | with_reducible apply Keep.refl
    | with_reducible assumption
    | with_reducible apply Keep.via (outSt_keep ..)
    | with_reducible apply Keep.via (State.devRead_keep ..)
    | with_reducible apply Keep.via (outOk_keep ..)
    | with_reducible apply Keep.via (State.setSlot_keep ..)
    | with_reducible apply Keep.ite
    | with_reducible apply Keep.ite_out
    | split
    | extract_lets
    | dsimp -proj only
    | ((with_reducible conv => arg 3; whnf); first | split)
    | dsimp -proj +zetaDelta only
    | dsimp only

theorem execCkptSetup_keep (r : Req) (f : Flips) (s : State) : KeepR 0x3CFF9909B s (execCkptSetup r f s) := by
  unfold execCkptSetup
  repeat' first
    | exact rfl
    | with_reducible apply Keep.refl
    | with_reducible assumption
    | with_reducible apply KeepR.refused
    | with_reducible apply KeepR.next
    | exact State.cuard_keep (fun u c => (defCkptSetup_keep _ u c).mono rfl) rfl
    | dsimp -proj only
    | ((with_reducible conv => arg 3; whnf); first | split)
    | dsimp -proj +zetaDelta only
    | dsimp only

theorem defCkptNow_keep  (s : State) (c : Call) : Keep 0x3FFFFDFFF s (defCkptNow.run s c).s := by
  unfold defCkptNow
  dsimp only
  repeat' first
    | exact rfl
    | with_reducible apply Keep.refl
    | with_reducible assumption
    | with_reducible apply Keep.via (outSt_keep ..)
    | with_reducible apply Keep.via (outOk_keep ..)
    | with_reducible apply Keep.via (State.setSlot_keep ..)
    | with_reducible apply Keep.ite
    | with_reducible apply Keep.ite_out
    | split
    | dsimp -proj only
    | ((with_reducible conv => arg 3; whnf); first | split)
    | dsimp -proj +zetaDelta only
    | dsimp only

theorem execCkptNow_keep (r : Req) (s : State) : KeepR 0x3CFF9DC9B s (execCkptNow r s) := by
  unfold execCkptNow
  repeat' first
    | exact rfl
    | with_reducible apply Keep.refl
    | with_reducible assumption
    | with_reducible apply KeepR.refused
    | with_reducible apply KeepR.next
    | exact State.cuard_keep (fun u c => (defCkptNow_keep u c).mono rfl) rfl
    | dsimp -proj only
    | ((with_reducible conv => arg 3; whnf); first | split)
    | dsimp -proj +zetaDelta only
    | dsimp only

theorem defRestore_keep  (s : State) (c : Call) : Keep 0x3EDF9DCBB s (defRestore.run s c).s := by
  unfold defRestore
  dsimp only
  repeat' first
    | exact rfl
    | with_reducible apply Keep.refl
    | with_reducible assumption
    | with_reducible apply Keep.via (outSt_keep ..)
    | with_reducible apply Keep.via (outFirst_keep ..)
    | with_reducible apply Keep.via (State.restoreStart_keep ..)
    | with_reducible apply Keep.ite
    | with_reducible apply Keep.ite_out
    | split
    | dsimp -proj only
    | ((with_reducible conv => arg 3; whnf); first | split)
    | dsimp -proj +zetaDelta only
    | dsimp only

theorem execRestore_keep (r : Req) (s : State) : KeepR 0x3CDF9DC9B s (execRestore r s) := by
  unfold execRestore
  repeat' first
    | exact rfl
    | with_reducible apply Keep.refl
    | with_reducible assumption
    | with_reducible apply KeepR.refused
    | with_reducible apply KeepR.next
    | exact State.cuard_keep (fun u c => (defRestore_keep u c).mono rfl) rfl
    | dsimp -proj only
    | ((with_reducible conv => arg 3; whnf); first | split)
    | dsimp -proj +zetaDelta only
    | dsimp only

theorem defReelCfg_keep  (s : State) (c : Call) : Keep 0x3FFFFFFFB s (defReelCfg.run s c).s := by
  unfold defReelCfg
  dsimp only
  repeat' first
    | exact rfl
    | with_reducible apply Keep.refl
    | with_reducible assumption
    | with_reducible apply Keep.via (State.wr_keep ..)
    | with_reducible apply Keep.via (State.newInterval_keep ..)
    | with_reducible apply Keep.via (outOk_keep ..)
    | extract_lets
    | dsimp -proj only
    | ((with_reducible conv => arg 3; whnf); first | split)
    | dsimp -proj +zetaDelta only
    | dsimp only

theorem execReelCfg_keep (r : Req) (s : State) : KeepR 0x3CFF9FC9B s (execReelCfg r s) := by
  unfold execReelCfg
  repeat' first
    | exact rfl
    | with_reducible apply Keep.refl
    | with_reducible assumption
    | with_reducible apply KeepR.refused
    | with_reducible apply KeepR.next
    | exact State.cuard_keep (fun u c => (defReelCfg_keep u c).mono rfl) rfl
    | dsimp -proj only
    | ((with_reducible conv => arg 3; whnf); first | split)
    | dsimp -proj +zetaDelta only
    | dsimp only

theorem defReelGet_keep  (s : State) (c : Call) : Keep 0x3CFFDFCF3 s (defReelGet.run s c).s := by
  unfold defReelGet
  dsimp only
  repeat' first
    | exact rfl
    | with_reducible apply Keep.refl
    | with_reducible assumption
    | with_reducible apply Keep.via (outRegs_keep ..)
    | dsimp -proj only
    | ((with_reducible conv => arg 3; whnf); first | split)
    | dsimp -proj +zetaDelta only
    | dsimp only

theorem execReelGet_keep (r : Req) (s : State) : KeepR 0x3CFF9FC93 s (execReelGet r s) := by
  unfold execReelGet
  repeat' first
    | exact rfl
    | with_reducible apply Keep.refl
    | with_reducible assumption
    | with_reducible apply KeepR.refused
    | with_reducible apply KeepR.next
    | exact State.cuard_keep (fun u c => (defReelGet_keep u c).mono rfl) rfl
    | dsimp -proj only
    | ((with_reducible conv => arg 3; whnf); first | split)
    | dsimp -proj +zetaDelta only
    | dsimp only

theorem defQuote_keep  (s : State) (c : Call) : Keep 0x3EFFDFCFB s (defQuote.run s c).s := by
  unfold defQuote
  dsimp only
  repeat' first
    | exact rfl
    | with_reducible apply Keep.refl
    | with_reducible assumption
    | with_reducible apply Keep.via (outOk_keep ..)
    | with_reducible apply Keep.via (State.event_keep ..)
    | with_reducible apply Keep.ite
    | with_reducible apply Keep.ite_out
    | split
    | extract_lets
    | dsimp -proj only
    | ((with_reducible conv => arg 3; whnf); first | split)
    | dsimp -proj +zetaDelta only
    | dsimp only

theorem execQuote_keep (r : Req) (s : State) : KeepR 0x3CFF9FC9B s (execQuote r s) := by
  unfold execQuote
  repeat' first
    | exact rfl
    | with_reducible apply Keep.refl
    | with_reducible assumption
    | with_reducible apply KeepR.refused
    | with_reducible apply KeepR.next
    | exact State.cuard_keep (fun u c => (defQuote_keep u c).mono rfl) rfl
    | dsimp -proj only
    | ((with_reducible conv => arg 3; whnf); first | split)
    | dsimp -proj +zetaDelta only
    | dsimp only

theorem defMeasExtend_keep  (s : State) (c : Call) : Keep 0x3FFFFFFFB s (defMeasExtend.run s c).s := by
  unfold defMeasExtend
  dsimp only
  repeat' first
    | exact rfl
    | with_reducible apply Keep.refl
    | with_reducible assumption
    | with_reducible apply Keep.via (State.extend_keep ..)
    | with_reducible apply Keep.via (outOk_keep ..)
    | extract_lets
    | dsimp -proj only
    | ((with_reducible conv => arg 3; whnf); first | split)
    | dsimp -proj +zetaDelta only
    | dsimp only

theorem execMeasExtend_keep (r : Req) (s : State) : KeepR 0x3CFF9FC9B s (execMeasExtend r s) := by
  unfold execMeasExtend
  repeat' first
    | exact rfl
    | with_reducible apply Keep.refl
    | with_reducible assumption
    | with_reducible apply KeepR.refused
    | with_reducible apply KeepR.next
    | exact State.cuard_keep (fun u c => (defMeasExtend_keep u c).mono rfl) rfl
    | dsimp -proj only
    | ((with_reducible conv => arg 3; whnf); first | split)
    | dsimp -proj +zetaDelta only
    | dsimp only

theorem defSeal_keep  (s : State) (c : Call) : Keep 0x3FFFF5FFF s (defSeal.run s c).s := by
  unfold defSeal
  dsimp only
  repeat' first
    | exact rfl
    | with_reducible apply Keep.refl
    | with_reducible assumption
    | with_reducible apply Keep.via (outSt_keep ..)
    | with_reducible apply Keep.via (outFirst_keep ..)
    | with_reducible apply Keep.via (State.sealRegion_keep ..)
    | with_reducible apply Keep.ite
    | with_reducible apply Keep.ite_out
    | split
    | extract_lets
    | dsimp -proj only
    | ((with_reducible conv => arg 3; whnf); first | split)
    | dsimp -proj +zetaDelta only
    | dsimp only

theorem execSealRegion_keep (r : Req) (s : State) : KeepR 0x3CFF95C9B s (execSealRegion r s) := by
  unfold execSealRegion
  repeat' first
    | exact rfl
    | with_reducible apply Keep.refl
    | with_reducible assumption
    | with_reducible apply KeepR.refused
    | with_reducible apply KeepR.next
    | exact State.cuard_keep (fun u c => (defSeal_keep u c).mono rfl) rfl
    | dsimp -proj only
    | ((with_reducible conv => arg 3; whnf); first | split)
    | dsimp -proj +zetaDelta only
    | dsimp only

theorem defRecordCut_keep  (s : State) (c : Call) : Keep 0x3FFFFDFFF s (defRecordCut.run s c).s := by
  unfold defRecordCut
  dsimp only
  repeat' first
    | exact rfl
    | with_reducible apply Keep.refl
    | with_reducible assumption
    | with_reducible apply Keep.via (outSt_keep ..)
    | with_reducible apply Keep.via (outOk_keep ..)
    | with_reducible apply Keep.via (State.setSlot_keep ..)
    | with_reducible apply Keep.ite
    | with_reducible apply Keep.ite_out
    | split
    | dsimp -proj only
    | ((with_reducible conv => arg 3; whnf); first | split)
    | dsimp -proj +zetaDelta only
    | dsimp only

theorem execRecordCut_keep (r : Req) (s : State) : KeepR 0x3CFF9DC9B s (execRecordCut r s) := by
  unfold execRecordCut
  repeat' first
    | exact rfl
    | with_reducible apply Keep.refl
    | with_reducible assumption
    | with_reducible apply KeepR.refused
    | with_reducible apply KeepR.next
    | exact State.cuard_keep (fun u c => (defRecordCut_keep u c).mono rfl) rfl
    | dsimp -proj only
    | ((with_reducible conv => arg 3; whnf); first | split)
    | dsimp -proj +zetaDelta only
    | dsimp only

theorem State.dropRecs_keep (s : State) (ctx n : Nat) : Keep 0x3FFFFDFFF s (State.dropRecs s ctx n) := by
  unfold State.dropRecs
  repeat' first
    | exact rfl
    | with_reducible apply Keep.refl
    | with_reducible assumption
    | with_reducible apply Keep.via (State.setSlot_keep ..)
    | with_reducible apply Keep.ite
    | split
    | extract_lets
    | dsimp -proj only
    | ((with_reducible conv => arg 3; whnf); first | split | with_reducible apply Keep.setSeqr)
    | dsimp -proj +zetaDelta only
    | dsimp only

theorem defRecordRead_keep  (s : State) (c : Call) : Keep 0x3FFFFFFFF s (defRecordRead.run s c).s := by
  unfold defRecordRead
  dsimp only
  repeat' first
    | exact rfl
    | with_reducible apply Keep.refl
    | with_reducible assumption
    | with_reducible apply Keep.via (outSt_keep ..)
    | with_reducible apply Keep.via (pageOut_keep ..)
    | split
    | dsimp -proj only
    | ((with_reducible conv => arg 3; whnf); first | split)
    | dsimp -proj +zetaDelta only
    | dsimp only

theorem execRecordRead_keep (r : Req) (s : State) : KeepR 0x3CFF9FC9B s (execRecordRead r s) := by
  unfold execRecordRead
  repeat' first
    | exact rfl
    | with_reducible apply Keep.refl
    | with_reducible assumption
    | with_reducible apply KeepR.refused
    | with_reducible apply KeepR.next
    | exact State.cuard_keep (fun u c => (defRecordRead_keep u c).mono rfl) rfl
    | dsimp -proj only
    | ((with_reducible conv => arg 3; whnf); first | split)
    | dsimp -proj +zetaDelta only
    | dsimp only

theorem defRecordRelease_keep  (s : State) (c : Call) : Keep 0x3FFFFDFFF s (defRecordRelease.run s c).s := by
  unfold defRecordRelease
  dsimp only
  repeat' first
    | exact rfl
    | with_reducible apply Keep.refl
    | with_reducible assumption
    | with_reducible apply Keep.via (outSt_keep ..)
    | with_reducible apply Keep.via (outOk_keep ..)
    | with_reducible apply Keep.via (State.dropRecs_keep ..)
    | split
    | dsimp -proj only
    | ((with_reducible conv => arg 3; whnf); first | split)
    | dsimp -proj +zetaDelta only
    | dsimp only

theorem execRecordRelease_keep (r : Req) (s : State) : KeepR 0x3CFF9DC9B s (execRecordRelease r s) := by
  unfold execRecordRelease
  repeat' first
    | exact rfl
    | with_reducible apply Keep.refl
    | with_reducible assumption
    | with_reducible apply KeepR.refused
    | with_reducible apply KeepR.next
    | exact State.cuard_keep (fun u c => (defRecordRelease_keep u c).mono rfl) rfl
    | dsimp -proj only
    | ((with_reducible conv => arg 3; whnf); first | split)
    | dsimp -proj +zetaDelta only
    | dsimp only

theorem defDetGet_keep  (s : State) (c : Call) : Keep 0x3CFFDFCF3 s (defDetGet.run s c).s := by
  unfold defDetGet
  dsimp only
  repeat' first
    | exact rfl
    | with_reducible apply Keep.refl
    | with_reducible assumption
    | with_reducible apply Keep.via (outRegs_keep ..)
    | dsimp -proj only
    | ((with_reducible conv => arg 3; whnf); first | split)
    | dsimp -proj +zetaDelta only
    | dsimp only

theorem execDetGet_keep (r : Req) (s : State) : KeepR 0x3CFF9FC93 s (execDetGet r s) := by
  unfold execDetGet
  repeat' first
    | exact rfl
    | with_reducible apply Keep.refl
    | with_reducible assumption
    | with_reducible apply KeepR.refused
    | with_reducible apply KeepR.next
    | exact State.cuard_keep (fun u c => (defDetGet_keep u c).mono rfl) rfl
    | dsimp -proj only
    | ((with_reducible conv => arg 3; whnf); first | split)
    | dsimp -proj +zetaDelta only
    | dsimp only

theorem defCalRead_keep  (s : State) (c : Call) : Keep 0x3FFFFFFFF s (defCalRead.run s c).s := by
  unfold defCalRead
  dsimp only
  repeat' first
    | exact rfl
    | with_reducible apply Keep.refl
    | with_reducible assumption
    | with_reducible apply Keep.via (pageOut_keep ..)
    | dsimp -proj only
    | ((with_reducible conv => arg 3; whnf); first | split)
    | dsimp -proj +zetaDelta only
    | dsimp only

theorem execCalRead_keep (r : Req) (s : State) : KeepR 0x3CFF9FC9B s (execCalRead r s) := by
  unfold execCalRead
  repeat' first
    | exact rfl
    | with_reducible apply Keep.refl
    | with_reducible assumption
    | with_reducible apply KeepR.refused
    | with_reducible apply KeepR.next
    | exact State.cuard_keep (fun u c => (defCalRead_keep u c).mono rfl) rfl
    | dsimp -proj only
    | ((with_reducible conv => arg 3; whnf); first | split)
    | dsimp -proj +zetaDelta only
    | dsimp only

theorem defCalWrite_keep  (s : State) (c : Call) : Keep 0x3FBFFFFFF s (defCalWrite.run s c).s := by
  unfold defCalWrite
  dsimp only
  repeat' first
    | exact rfl
    | with_reducible apply Keep.refl
    | with_reducible assumption
    | with_reducible apply Keep.via (outSt_keep ..)
    | with_reducible apply Keep.via (outFirst_keep ..)
    | with_reducible apply Keep.via (State.flashPut_keep ..)
    | with_reducible apply Keep.ite
    | with_reducible apply Keep.ite_out
    | split
    | extract_lets
    | dsimp -proj only
    | ((with_reducible conv => arg 3; whnf); first | split)
    | dsimp -proj +zetaDelta only
    | dsimp only

theorem execCalWrite_keep (r : Req) (s : State) : KeepR 0x3CBF9FC9B s (execCalWrite r s) := by
  unfold execCalWrite
  repeat' first
    | exact rfl
    | with_reducible apply Keep.refl
    | with_reducible assumption
    | with_reducible apply KeepR.refused
    | with_reducible apply KeepR.next
    | exact State.cuard_keep (fun u c => (defCalWrite_keep u c).mono rfl) rfl
    | dsimp -proj only
    | ((with_reducible conv => arg 3; whnf); first | split)
    | dsimp -proj +zetaDelta only
    | dsimp only

theorem execCalWriteDone_keep (s : State) : KeepR 0x3CBF9FCBB s (execCalWriteDone s) := by
  unfold execCalWriteDone
  repeat' first
    | exact rfl
    | with_reducible apply Keep.refl
    | with_reducible assumption
    | with_reducible apply KeepR.refused
    | with_reducible apply KeepR.next
    | with_reducible apply Keep.via (State.finish_keep ..)
    | with_reducible apply Keep.via (State.calPut_keep ..)
    | split
    | dsimp -proj only
    | ((with_reducible conv => arg 3; whnf); first | split)
    | dsimp -proj +zetaDelta only
    | dsimp only

theorem defLogRead_keep  (s : State) (c : Call) : Keep 0x3FFFDFFFF s (defLogRead.run s c).s := by
  unfold defLogRead
  dsimp only
  repeat' first
    | exact rfl
    | with_reducible apply Keep.refl
    | with_reducible assumption
    | with_reducible apply Keep.via (State.clearIrq_keep ..)
    | with_reducible apply Keep.via (outOk_keep ..)
    | with_reducible apply Keep.ite
    | with_reducible apply Keep.ite_out
    | split
    | extract_lets
    | dsimp -proj only
    | ((with_reducible conv => arg 3; whnf); first | split)
    | dsimp -proj +zetaDelta only
    | dsimp only

theorem execLogRead_keep (r : Req) (s : State) : KeepR 0x3CFF9FC9B s (execLogRead r s) := by
  unfold execLogRead
  repeat' first
    | exact rfl
    | with_reducible apply Keep.refl
    | with_reducible assumption
    | with_reducible apply KeepR.refused
    | with_reducible apply KeepR.next
    | exact State.cuard_keep (fun u c => (defLogRead_keep u c).mono rfl) rfl
    | dsimp -proj only
    | ((with_reducible conv => arg 3; whnf); first | split)
    | dsimp -proj +zetaDelta only
    | dsimp only

theorem defTelemGet_keep  (s : State) (c : Call) : Keep 0x3FFFFFFFF s (defTelemGet.run s c).s := by
  unfold defTelemGet
  dsimp only
  repeat' first
    | exact rfl
    | with_reducible apply Keep.refl
    | with_reducible assumption
    | with_reducible apply Keep.via (outOk_keep ..)
    | dsimp -proj only
    | ((with_reducible conv => arg 3; whnf); first | split)
    | dsimp -proj +zetaDelta only
    | dsimp only

theorem execTelemGet_keep (r : Req) (s : State) : KeepR 0x3CFF9FC9B s (execTelemGet r s) := by
  unfold execTelemGet
  repeat' first
    | exact rfl
    | with_reducible apply Keep.refl
    | with_reducible assumption
    | with_reducible apply KeepR.refused
    | with_reducible apply KeepR.next
    | exact State.cuard_keep (fun u c => (defTelemGet_keep u c).mono rfl) rfl
    | dsimp -proj only
    | ((with_reducible conv => arg 3; whnf); first | split)
    | dsimp -proj +zetaDelta only
    | dsimp only

theorem State.cuardRead_keep (s : State) (a : Nat) : Keep 0x3CFFDFCE3 s (State.cuardRead s a).2 := by
  unfold State.cuardRead
  repeat' first
    | exact rfl
    | with_reducible apply Keep.refl
    | with_reducible assumption
    | with_reducible apply Keep.via (State.addrError_keep ..)
    | with_reducible apply Keep.via (State.free_keep ..)
    | with_reducible apply Keep.via (State.cmdRead_keep ..)
    | with_reducible apply Keep.ite
    | with_reducible apply Keep.ite_snd
    | split
    | extract_lets
    | dsimp -proj only
    | ((with_reducible conv => arg 3; whnf); first | split)
    | dsimp -proj +zetaDelta only
    | dsimp only

theorem State.cuardReads_keep (n : Nat) (s : State) (a : Nat) : Keep 0x3CFFDFCE3 s (State.cuardReads n s a).2 := by
  induction n generalizing s a with
  | zero => exact Keep.refl _ _
  | succ n ih =>
    unfold State.cuardReads
    extract_lets r
    have h : Keep 0x3CFFDFCE3 s r.2 := Keep.via (State.cuardRead_keep ..) rfl (Keep.refl _ _)
    split
    · exact h
    · exact h.trans (ih ..)

theorem State.readOut_keep (s : State) (a n : Nat) : Keep 0x3CFFDFCE3 s (State.readOut s a n).s := by
  unfold State.readOut
  repeat' first
    | exact rfl
    | with_reducible apply Keep.refl
    | with_reducible assumption
    | with_reducible apply Keep.via (State.cuardReads_keep ..)
    | with_reducible apply Keep.via (outOk_keep ..)
    | with_reducible apply Keep.via (outSt_keep ..)
    | split
    | extract_lets
    | dsimp -proj only
    | ((with_reducible conv => arg 3; whnf); first | split)
    | dsimp -proj +zetaDelta only
    | dsimp only

theorem defRegReadBasic_keep  (s : State) (c : Call) : Keep 0x3CFFDFCE3 s (defRegReadBasic.run s c).s := by
  unfold defRegReadBasic
  dsimp only
  repeat' first
    | exact rfl
    | with_reducible apply Keep.refl
    | with_reducible assumption
    | with_reducible apply Keep.via (outSt_keep ..)
    | with_reducible apply Keep.via (State.readOut_keep ..)
    | with_reducible apply Keep.ite
    | with_reducible apply Keep.ite_out
    | split
    | dsimp -proj only
    | ((with_reducible conv => arg 3; whnf); first | split)
    | dsimp -proj +zetaDelta only
    | dsimp only

theorem execRegReadBasic_keep (r : Req) (s : State) : KeepR 0x3CFF9FC83 s (execRegReadBasic r s) := by
  unfold execRegReadBasic
  repeat' first
    | exact rfl
    | with_reducible apply Keep.refl
    | with_reducible assumption
    | with_reducible apply KeepR.refused
    | with_reducible apply KeepR.next
    | exact State.cuard_keep (fun u c => (defRegReadBasic_keep u c).mono rfl) rfl
    | dsimp -proj only
    | ((with_reducible conv => arg 3; whnf); first | split)
    | dsimp -proj +zetaDelta only
    | dsimp only

theorem defCmdStatus_keep  (s : State) (c : Call) : Keep 0x3FFFFFFFF s (defCmdStatus.run s c).s := by
  unfold defCmdStatus
  dsimp only
  repeat' first
    | exact rfl
    | with_reducible apply Keep.refl
    | with_reducible assumption
    | with_reducible apply Keep.via (outSt_keep ..)
    | with_reducible apply Keep.via (outOk_keep ..)
    | split
    | dsimp -proj only
    | ((with_reducible conv => arg 3; whnf); first | split)
    | dsimp -proj +zetaDelta only
    | dsimp only

theorem execCmdStatus_keep (r : Req) (s : State) : KeepR 0x3CFF9FC9B s (execCmdStatus r s) := by
  unfold execCmdStatus
  repeat' first
    | exact rfl
    | with_reducible apply Keep.refl
    | with_reducible assumption
    | with_reducible apply KeepR.refused
    | with_reducible apply KeepR.next
    | exact State.cuard_keep (fun u c => (defCmdStatus_keep u c).mono rfl) rfl
    | dsimp -proj only
    | ((with_reducible conv => arg 3; whnf); first | split)
    | dsimp -proj +zetaDelta only
    | dsimp only

theorem defRegRead_keep  (s : State) (c : Call) : Keep 0x3CFFDFCE3 s (defRegRead.run s c).s := by
  unfold defRegRead
  dsimp only
  repeat' first
    | exact rfl
    | with_reducible apply Keep.refl
    | with_reducible assumption
    | with_reducible apply Keep.via (State.readOut_keep ..)
    | dsimp -proj only
    | ((with_reducible conv => arg 3; whnf); first | split)
    | dsimp -proj +zetaDelta only
    | dsimp only

theorem execRegRead_keep (r : Req) (s : State) : KeepR 0x3CFF9FC83 s (execRegRead r s) := by
  unfold execRegRead
  repeat' first
    | exact rfl
    | with_reducible apply Keep.refl
    | with_reducible assumption
    | with_reducible apply KeepR.refused
    | with_reducible apply KeepR.next
    | exact State.cuard_keep (fun u c => (defRegRead_keep u c).mono rfl) rfl
    | dsimp -proj only
    | ((with_reducible conv => arg 3; whnf); first | split)
    | dsimp -proj +zetaDelta only
    | dsimp only

theorem State.writeDbg_keep (s : State) (c : Call) (v : Nat) : Keep 0x3CFFDFCFB s (State.writeDbg s c v).2 := by
  unfold State.writeDbg
  repeat' first
    | exact rfl
    | with_reducible apply Keep.refl
    | with_reducible assumption
    | with_reducible apply Keep.via (State.unlockDebug_keep ..)
    | with_reducible apply Keep.via (State.relock_keep ..)
    | with_reducible apply Keep.ite
    | with_reducible apply Keep.ite_snd
    | split
    | extract_lets
    | dsimp -proj only
    | ((with_reducible conv => arg 3; whnf); first | split)
    | dsimp -proj +zetaDelta only
    | dsimp only

theorem State.cuardWriteAt_keep (s : State) (c : Call) (o v : Nat) : Keep 0x38FE0E0BB s (State.cuardWriteAt s c o v).2 := by
  unfold State.cuardWriteAt
  repeat' first
    | exact rfl
    | with_reducible apply Keep.refl
    | with_reducible assumption
    | with_reducible apply Keep.via (State.addrError_keep ..)
    | with_reducible apply Keep.via (State.writeDbg_keep ..)
    | with_reducible apply Keep.via (State.writeReg_keep ..)
    | with_reducible apply Keep.ite
    | with_reducible apply Keep.ite_snd
    | split
    | dsimp -proj only
    | ((with_reducible conv => arg 3; whnf); first | split)
    | dsimp -proj +zetaDelta only
    | dsimp only

theorem State.cuardWrite_keep (s : State) (c : Call) (a v : Nat) : Keep 0x38FE0E0BB s (State.cuardWrite s c a v).2 := by
  unfold State.cuardWrite
  repeat' first
    | exact rfl
    | with_reducible apply Keep.refl
    | with_reducible assumption
    | with_reducible apply Keep.via (State.addrError_keep ..)
    | with_reducible apply Keep.via (State.cuardWriteAt_keep ..)
    | with_reducible apply Keep.ite
    | with_reducible apply Keep.ite_snd
    | split
    | dsimp -proj only
    | ((with_reducible conv => arg 3; whnf); first | split)
    | dsimp -proj +zetaDelta only
    | dsimp only

theorem State.cuardWrites_keep (s : State) (c : Call) (l : List (Nat × Nat)) : Keep 0x38FE0E0BB s (s.cuardWrites c l).2 := by
  induction l generalizing s with
  | nil => exact Keep.refl _ _
  | cons x l ih =>
    unfold State.cuardWrites
    exact Keep.ite_snd (Keep.trans (Keep.via (State.cuardWrite_keep ..) rfl (Keep.refl _ _)) (ih ..))
      (Keep.via (State.cuardWrite_keep ..) rfl (Keep.refl _ _))

theorem defRegWrite_keep  (s : State) (c : Call) : Keep 0x38FE0E0BB s (defRegWrite.run s c).s := by
  unfold defRegWrite
  dsimp only
  repeat' first
    | exact rfl
    | with_reducible apply Keep.refl
    | with_reducible assumption
    | with_reducible apply Keep.via (outSt_keep ..)
    | with_reducible apply Keep.via (State.cuardWrites_keep ..)
    | with_reducible apply Keep.ite
    | with_reducible apply Keep.ite_out
    | split
    | extract_lets
    | dsimp -proj only
    | ((with_reducible conv => arg 3; whnf); first | split)
    | dsimp -proj +zetaDelta only
    | dsimp only

theorem execRegWrite_keep (r : Req) (s : State) : KeepR 0x38FE0E09B s (execRegWrite r s) := by
  unfold execRegWrite
  repeat' first
    | exact rfl
    | with_reducible apply Keep.refl
    | with_reducible assumption
    | with_reducible apply KeepR.refused
    | with_reducible apply KeepR.next
    | exact State.cuard_keep (fun u c => (defRegWrite_keep u c).mono rfl) rfl
    | dsimp -proj only
    | ((with_reducible conv => arg 3; whnf); first | split)
    | dsimp -proj +zetaDelta only
    | dsimp only

theorem defRegModify_keep  (s : State) (c : Call) : Keep 0x38FE0E0A3 s (defRegModify.run s c).s := by
  unfold defRegModify
  dsimp only
  repeat' first
    | exact rfl
    | with_reducible apply Keep.refl
    | with_reducible assumption
    | with_reducible apply Keep.via (outSt_keep ..)
    | with_reducible apply Keep.via (State.cuardRead_keep ..)
    | with_reducible apply Keep.via (State.cuardWrite_keep ..)
    | with_reducible apply Keep.via (outOk_keep ..)
    | with_reducible apply Keep.ite
    | with_reducible apply Keep.ite_out
    | split
    | extract_lets
    | dsimp -proj only
    | ((with_reducible conv => arg 3; whnf); first | split)
    | dsimp -proj +zetaDelta only
    | dsimp only

theorem execRegModify_keep (r : Req) (s : State) : KeepR 0x38FE0E083 s (execRegModify r s) := by
  unfold execRegModify
  repeat' first
    | exact rfl
    | with_reducible apply Keep.refl
    | with_reducible assumption
    | with_reducible apply KeepR.refused
    | with_reducible apply KeepR.next
    | exact State.cuard_keep (fun u c => (defRegModify_keep u c).mono rfl) rfl
    | dsimp -proj only
    | ((with_reducible conv => arg 3; whnf); first | split)
    | dsimp -proj +zetaDelta only
    | dsimp only


end Sys2Proof.Machine
end

