-- ==== Sys2Proof/Laws/KeepBoot.lean ====
section
/-! SUPPORT. What each operation of Machine/Boot.lean leaves alone (Laws/Keep.lean). -/

namespace Sys2Proof.Machine

set_option linter.unusedTactic false
set_option linter.unreachableTactic false

theorem State.toPhase_keep (s : State) (ph : Nat) : Keep 0x37FFFFFFB s (State.toPhase s ph) := by
  unfold State.toPhase
  repeat' first
    | exact rfl
    | with_reducible apply Keep.refl
    | with_reducible assumption
    | with_reducible apply Keep.via (State.wf_keep ..)
    | dsimp -proj only
    | ((with_reducible conv => arg 3; whnf); first | split | with_reducible apply Keep.setBoot)
    | dsimp -proj +zetaDelta only
    | dsimp only

theorem State.failPhase_keep (s : State) (ph : Nat) : Keep 0x3FFFFFFFB s (State.failPhase s ph) := by
  unfold State.failPhase
  repeat' first
    | exact rfl
    | with_reducible apply Keep.refl
    | with_reducible assumption
    | with_reducible apply Keep.via (State.wf_keep ..)
    | dsimp -proj only
    | ((with_reducible conv => arg 3; whnf); first | split)
    | dsimp -proj +zetaDelta only
    | dsimp only

theorem State.bootHalt_keep (s : State) (ph cause : Nat) : Keep 0x3EF59FCBB s (State.bootHalt s ph cause) := by
  unfold State.bootHalt
  repeat' first
    | exact rfl
    | with_reducible apply Keep.refl
    | with_reducible assumption
    | with_reducible apply Keep.via (State.halt_keep ..)
    | with_reducible apply Keep.via (State.failPhase_keep ..)
    | dsimp -proj only
    | ((with_reducible conv => arg 3; whnf); first | split)
    | dsimp -proj +zetaDelta only
    | dsimp only

theorem State.procFail_keep (s : State) : Keep 0x3FF5FFFFB s (State.procFail s) := by
  unfold State.procFail
  repeat' first
    | exact rfl
    | with_reducible apply Keep.refl
    | with_reducible assumption
    | with_reducible apply Keep.via (State.alertOn_keep ..)
    | with_reducible apply Keep.via (State.haltSilent_keep ..)
    | with_reducible apply Keep.via (State.failPhase_keep ..)
    | dsimp -proj only
    | ((with_reducible conv => arg 3; whnf); first | split)
    | dsimp -proj +zetaDelta only
    | dsimp only

theorem execStartupProc_keep (good : Bool) (s : State) : KeepR 0x37F5FFFFB s (execStartupProc good s) := by
  unfold execStartupProc
  repeat' first
    | exact rfl
    | with_reducible apply Keep.refl
    | with_reducible assumption
    | with_reducible apply KeepR.refused
    | with_reducible apply KeepR.next
    | with_reducible apply Keep.via (State.toPhase_keep ..)
    | with_reducible apply Keep.via (State.procFail_keep ..)
    | with_reducible apply Keep.ite
    | with_reducible apply KeepR.ite
    | split
    | dsimp -proj only
    | ((with_reducible conv => arg 3; whnf); first | split)
    | dsimp -proj +zetaDelta only
    | dsimp only

theorem State.strapsDone_keep (s : State) : Keep 0x36FFCFCFB s (State.strapsDone s) := by
  unfold State.strapsDone
  repeat' first
    | exact rfl
    | with_reducible apply Keep.refl
    | with_reducible assumption
    | with_reducible apply Keep.via (State.event_keep ..)
    | with_reducible apply Keep.via (State.wr_keep ..)
    | with_reducible apply Keep.via (State.wf_keep ..)
    | with_reducible apply Keep.via (State.setDom_keep ..)
    | with_reducible apply Keep.via (State.toPhase_keep ..)
    | with_reducible apply Keep.foldl
    | with_reducible apply Keep.foldl_snd
    | with_reducible apply Keep.foldl_fst
    | (intro _ _)
    | with_reducible apply Keep.ite
    | split
    | extract_lets
    | dsimp -proj only
    | ((with_reducible conv => arg 3; whnf); first | split)
    | dsimp -proj +zetaDelta only
    | dsimp only

theorem State.readStraps_keep (s : State) (samples : List (BitVec 15)) (l : List (Nat × Nat)) : Keep 0x37FFFFFFF s (State.readStraps s samples l) := by
  unfold State.readStraps
  repeat' first
    | exact rfl
    | with_reducible apply Keep.refl
    | with_reducible assumption
    | with_reducible apply Keep.ite
    | split
    | extract_lets
    | dsimp -proj only
    | ((with_reducible conv => arg 3; whnf); first | split | with_reducible apply Keep.setBoot)
    | dsimp -proj +zetaDelta only
    | dsimp only

theorem State.strapsRead_keep (s : State) : Keep 0x36FFCFCFB s (State.strapsRead s) := by
  unfold State.strapsRead
  repeat' first
    | exact rfl
    | with_reducible apply Keep.refl
    | with_reducible assumption
    | with_reducible apply Keep.via (State.strapsDone_keep ..)
    | with_reducible apply Keep.ite
    | split
    | dsimp -proj only
    | ((with_reducible conv => arg 3; whnf); first | split)
    | dsimp -proj +zetaDelta only
    | dsimp only

theorem execStartupStraps_keep (samples : List (BitVec 15)) (s : State) : KeepR 0x36FFCFCFB s (execStartupStraps samples s) := by
  unfold execStartupStraps
  repeat' first
    | exact rfl
    | with_reducible apply Keep.refl
    | with_reducible assumption
    | with_reducible apply KeepR.refused
    | with_reducible apply KeepR.next
    | with_reducible apply Keep.via (State.strapsRead_keep ..)
    | with_reducible apply Keep.via (State.readStraps_keep ..)
    | with_reducible apply Keep.ite
    | with_reducible apply KeepR.ite
    | split
    | dsimp -proj only
    | ((with_reducible conv => arg 3; whnf); first | split)
    | dsimp -proj +zetaDelta only
    | dsimp only

theorem execStrapResample_keep (samples : List (BitVec 15)) (s : State) : KeepR 0x36FFCFCFB s (execStrapResample samples s) := by
  unfold execStrapResample
  repeat' first
    | exact rfl
    | with_reducible apply Keep.refl
    | with_reducible assumption
    | with_reducible apply KeepR.refused
    | with_reducible apply KeepR.next
    | with_reducible apply Keep.via (State.strapsRead_keep ..)
    | with_reducible apply Keep.via (State.readStraps_keep ..)
    | with_reducible apply Keep.ite
    | with_reducible apply KeepR.ite
    | split
    | dsimp -proj only
    | ((with_reducible conv => arg 3; whnf); first | split)
    | dsimp -proj +zetaDelta only
    | dsimp only

theorem State.loadCaps_keep (s : State) : Keep 0x3FFFFFFFB s (State.loadCaps s) := by
  unfold State.loadCaps
  repeat' first
    | exact rfl
    | with_reducible apply Keep.refl
    | with_reducible assumption
    | with_reducible apply Keep.via (State.syncCap_keep ..)
    | with_reducible apply Keep.via (State.wr_keep ..)
    | extract_lets
    | dsimp -proj only
    | ((with_reducible conv => arg 3; whnf); first | split)
    | dsimp -proj +zetaDelta only
    | dsimp only

theorem State.loadKt_keep (s : State) : Keep 0x3EFFDFCFB s (State.loadKt s) := by
  unfold State.loadKt
  repeat' first
    | exact rfl
    | with_reducible apply Keep.refl
    | with_reducible assumption
    | with_reducible apply Keep.via (State.wr_keep ..)
    | with_reducible apply Keep.via (State.showKt_keep ..)
    | with_reducible apply Keep.via (State.event_keep ..)
    | with_reducible apply Keep.ite
    | split
    | extract_lets
    | dsimp -proj only
    | ((with_reducible conv => arg 3; whnf); first | split)
    | dsimp -proj +zetaDelta only
    | dsimp only

theorem State.loadDevId_keep (s : State) : Keep 0x3FFFFFFFB s (State.loadDevId s) := by
  unfold State.loadDevId
  repeat' first
    | exact rfl
    | with_reducible apply Keep.refl
    | with_reducible assumption
    | with_reducible apply Keep.via (State.wr_keep ..)
    | with_reducible apply Keep.foldl
    | with_reducible apply Keep.foldl_snd
    | with_reducible apply Keep.foldl_fst
    | (intro _ _)
    | extract_lets
    | dsimp -proj only
    | ((with_reducible conv => arg 3; whnf); first | split)
    | dsimp -proj +zetaDelta only
    | dsimp only

theorem State.fusesDone_keep (s : State) : Keep 0x36FBDFCFB s (State.fusesDone s) := by
  unfold State.fusesDone
  repeat' first
    | exact rfl
    | with_reducible apply Keep.refl
    | with_reducible assumption
    | with_reducible apply Keep.via (State.wr_keep ..)
    | with_reducible apply Keep.via (State.loadCaps_keep ..)
    | with_reducible apply Keep.via (State.loadKt_keep ..)
    | with_reducible apply Keep.via (State.loadDevId_keep ..)
    | with_reducible apply Keep.via (State.extend_keep ..)
    | with_reducible apply Keep.via (State.toPhase_keep ..)
    | with_reducible apply Keep.foldl
    | with_reducible apply Keep.foldl_snd
    | with_reducible apply Keep.foldl_fst
    | (intro _ _)
    | split
    | extract_lets
    | dsimp -proj only
    | ((with_reducible conv => arg 3; whnf); first | split | with_reducible apply Keep.setHlth)
    | dsimp -proj +zetaDelta only
    | dsimp only

theorem execStartupFuses_keep (bad : Option (BitVec 16)) (s : State) : KeepR 0x36F19FCBB s (execStartupFuses bad s) := by
  unfold execStartupFuses
  repeat' first
    | exact rfl
    | with_reducible apply Keep.refl
    | with_reducible assumption
    | with_reducible apply KeepR.refused
    | with_reducible apply KeepR.next
    | with_reducible apply Keep.via (State.bootHalt_keep ..)
    | with_reducible apply Keep.via (State.event_keep ..)
    | with_reducible apply Keep.via (State.fusesDone_keep ..)
    | with_reducible apply Keep.ite
    | with_reducible apply KeepR.ite
    | split
    | dsimp -proj only
    | ((with_reducible conv => arg 3; whnf); first | split)
    | dsimp -proj +zetaDelta only
    | dsimp only

theorem State.loadPlan_keep (s : State) : Keep 0x3FFFFFFFB s (State.loadPlan s) := by
  unfold State.loadPlan
  repeat' first
    | exact rfl
    | with_reducible apply Keep.refl
    | with_reducible assumption
    | with_reducible apply Keep.via (State.syncClk_keep ..)
    | with_reducible apply Keep.via (State.wf_keep ..)
    | with_reducible apply Keep.via (State.syncPlan_keep ..)
    | with_reducible apply Keep.ite
    | split
    | extract_lets
    | dsimp -proj only
    | ((with_reducible conv => arg 3; whnf); first | split)
    | dsimp -proj +zetaDelta only
    | dsimp only

theorem State.loadAddrs_keep (s : State) : Keep 0x3BFFFFFFF s (State.loadAddrs s) := by
  unfold State.loadAddrs
  repeat' first
    | exact rfl
    | with_reducible apply Keep.refl
    | with_reducible assumption
    | with_reducible apply Keep.ite
    | split
    | extract_lets
    | dsimp -proj only
    | ((with_reducible conv => arg 3; whnf); first | split | with_reducible apply Keep.setMgmt)
    | dsimp -proj +zetaDelta only
    | dsimp only

theorem State.released_keep (s : State) (refclk : Bool) : Keep 0x30F7DFCD9 s (State.released s refclk) := by
  unfold State.released
  repeat' first
    | exact rfl
    | with_reducible apply Keep.refl
    | with_reducible assumption
    | with_reducible apply Keep.via (State.wf_keep ..)
    | with_reducible apply Keep.via (State.event_keep ..)
    | with_reducible apply Keep.via (State.sat_keep ..)
    | with_reducible apply Keep.via (State.newNonce_keep ..)
    | with_reducible apply Keep.via (State.loadAddrs_keep ..)
    | with_reducible apply Keep.via (State.loadPlan_keep ..)
    | with_reducible apply Keep.via (State.toPhase_keep ..)
    | with_reducible apply Keep.ite
    | split
    | extract_lets
    | dsimp -proj only
    | ((with_reducible conv => arg 3; whnf); first | split | with_reducible apply Keep.setNowRst)
    | dsimp -proj +zetaDelta only
    | dsimp only

theorem execStartupClocks_keep (bad : Option (Fin 6)) (refclk : Bool) (s : State) : KeepR 0x30F59FC99 s (execStartupClocks bad refclk s) := by
  unfold execStartupClocks
  repeat' first
    | exact rfl
    | with_reducible apply Keep.refl
    | with_reducible assumption
    | with_reducible apply KeepR.refused
    | with_reducible apply KeepR.next
    | with_reducible apply Keep.via (State.bootHalt_keep ..)
    | with_reducible apply Keep.via (State.event_keep ..)
    | with_reducible apply Keep.via (State.released_keep ..)
    | with_reducible apply Keep.ite
    | with_reducible apply KeepR.ite
    | split
    | dsimp -proj only
    | ((with_reducible conv => arg 3; whnf); first | split)
    | dsimp -proj +zetaDelta only
    | dsimp only

theorem State.judgeCal_keep (s : State) (late : Bool) : Keep 0x3EFFDFCFB s (State.judgeCal s late) := by
  unfold State.judgeCal
  repeat' first
    | exact rfl
    | with_reducible apply Keep.refl
    | with_reducible assumption
    | with_reducible apply Keep.via (State.event_keep ..)
    | with_reducible apply Keep.via (State.wf_keep ..)
    | with_reducible apply Keep.foldl
    | with_reducible apply Keep.foldl_snd
    | with_reducible apply Keep.foldl_fst
    | (intro _ _)
    | with_reducible apply Keep.ite
    | split
    | dsimp -proj only
    | ((with_reducible conv => arg 3; whnf); first | split)
    | dsimp -proj +zetaDelta only
    | dsimp only

theorem State.loadBaseline_keep (s : State) : Keep 0x3EFBDFCFB s (State.loadBaseline s) := by
  unfold State.loadBaseline
  repeat' first
    | exact rfl
    | with_reducible apply Keep.refl
    | with_reducible assumption
    | with_reducible apply Keep.via (State.setAge_keep ..)
    | with_reducible apply Keep.via (State.event_keep ..)
    | with_reducible apply Keep.foldl
    | with_reducible apply Keep.foldl_snd
    | with_reducible apply Keep.foldl_fst
    | (intro _ _)
    | with_reducible apply Keep.ite
    | split
    | extract_lets
    | dsimp -proj only
    | ((with_reducible conv => arg 3; whnf); first | split | with_reducible apply Keep.setHlth)
    | dsimp -proj +zetaDelta only
    | dsimp only

theorem State.loadAge_keep (s : State) : Keep 0x3FFBFFFFB s (State.loadAge s) := by
  unfold State.loadAge
  repeat' first
    | exact rfl
    | with_reducible apply Keep.refl
    | with_reducible assumption
    | with_reducible apply Keep.via (State.wr_keep ..)
    | with_reducible apply Keep.via (State.wf_keep ..)
    | with_reducible apply Keep.via (State.setAge_keep ..)
    | with_reducible apply Keep.foldl
    | with_reducible apply Keep.foldl_snd
    | with_reducible apply Keep.foldl_fst
    | (intro _ _)
    | with_reducible apply Keep.ite
    | split
    | extract_lets
    | dsimp -proj only
    | ((with_reducible conv => arg 3; whnf); first | split | with_reducible apply Keep.setHlth)
    | dsimp -proj +zetaDelta only
    | dsimp only

theorem State.loadSoft_keep (s : State) (late : Bool) : Keep 0x3EFBDFCFB s (State.loadSoft s late) := by
  unfold State.loadSoft
  repeat' first
    | exact rfl
    | with_reducible apply Keep.refl
    | with_reducible assumption
    | with_reducible apply Keep.via (State.event_keep ..)
    | with_reducible apply Keep.via (State.wr_keep ..)
    | with_reducible apply Keep.via (State.wf_keep ..)
    | with_reducible apply Keep.ite
    | split
    | extract_lets
    | dsimp -proj only
    | ((with_reducible conv => arg 3; whnf); first | split | with_reducible apply Keep.setHlth)
    | dsimp -proj +zetaDelta only
    | dsimp only

theorem State.calDone_keep (s : State) (late : Bool) : Keep 0x36FBDFCFB s (State.calDone s late) := by
  unfold State.calDone
  repeat' first
    | exact rfl
    | with_reducible apply Keep.refl
    | with_reducible assumption
    | with_reducible apply Keep.via (State.judgeCal_keep ..)
    | with_reducible apply Keep.via (State.loadPlan_keep ..)
    | with_reducible apply Keep.via (State.loadSoft_keep ..)
    | with_reducible apply Keep.via (State.loadAge_keep ..)
    | with_reducible apply Keep.via (State.loadBaseline_keep ..)
    | with_reducible apply Keep.via (State.wf_keep ..)
    | with_reducible apply Keep.via (State.toPhase_keep ..)
    | with_reducible apply Keep.via (State.extend_keep ..)
    | with_reducible apply Keep.ite
    | split
    | extract_lets
    | dsimp -proj only
    | ((with_reducible conv => arg 3; whnf); first | split | with_reducible apply Keep.setHlth)
    | dsimp -proj +zetaDelta only
    | dsimp only

theorem execStartupCal_keep (s : State) : KeepR 0x36FBDFCFB s (execStartupCal s) := by
  unfold execStartupCal
  repeat' first
    | exact rfl
    | with_reducible apply Keep.refl
    | with_reducible assumption
    | with_reducible apply KeepR.refused
    | with_reducible apply KeepR.next
    | with_reducible apply Keep.via (State.calDone_keep ..)
    | with_reducible apply Keep.ite
    | with_reducible apply KeepR.ite
    | split
    | dsimp -proj only
    | ((with_reducible conv => arg 3; whnf); first | split)
    | dsimp -proj +zetaDelta only
    | dsimp only

theorem State.loadRow_keep (s : State) (unit detail : Nat) (fuse : Bool) : Keep 0x3EFFDBCFB s (State.loadRow s unit detail fuse) := by
  unfold State.loadRow
  repeat' first
    | exact rfl
    | with_reducible apply Keep.refl
    | with_reducible assumption
    | with_reducible apply Keep.via (State.repairRows_keep ..)
    | with_reducible apply Keep.ite
    | split
    | extract_lets
    | dsimp -proj only
    | ((with_reducible conv => arg 3; whnf); first | split)
    | dsimp -proj +zetaDelta only
    | dsimp only

theorem State.dramDone_keep (s : State) (failed : List Nat) : Keep 0x36FFDBCFB s (State.dramDone s failed) := by
  unfold State.dramDone
  repeat' first
    | exact rfl
    | with_reducible apply Keep.refl
    | with_reducible assumption
    | with_reducible apply Keep.via (State.fenceChan_keep ..)
    | with_reducible apply Keep.via (State.loadRow_keep ..)
    | with_reducible apply Keep.via (State.syncSpares_keep ..)
    | with_reducible apply Keep.via (State.toPhase_keep ..)
    | with_reducible apply Keep.foldl
    | with_reducible apply Keep.foldl_snd
    | with_reducible apply Keep.foldl_fst
    | (intro _ _)
    | with_reducible apply Keep.ite
    | split
    | extract_lets
    | dsimp -proj only
    | ((with_reducible conv => arg 3; whnf); first | split | with_reducible apply Keep.setBoot)
    | dsimp -proj +zetaDelta only
    | dsimp only

theorem execStartupDram_keep (failed : List Nat) (s : State) : KeepR 0x36FFDBCFB s (execStartupDram failed s) := by
  unfold execStartupDram
  repeat' first
    | exact rfl
    | with_reducible apply Keep.refl
    | with_reducible assumption
    | with_reducible apply KeepR.refused
    | with_reducible apply KeepR.next
    | with_reducible apply Keep.via (State.dramDone_keep ..)
    | with_reducible apply Keep.ite
    | with_reducible apply KeepR.ite
    | split
    | dsimp -proj only
    | ((with_reducible conv => arg 3; whnf); first | split)
    | dsimp -proj +zetaDelta only
    | dsimp only

theorem State.notAccepted_keep (s : State) (ph mask : Nat) : Keep 0x3EF59FCBB s (State.notAccepted s ph mask) := by
  unfold State.notAccepted
  repeat' first
    | exact rfl
    | with_reducible apply Keep.refl
    | with_reducible assumption
    | with_reducible apply Keep.via (State.bootHalt_keep ..)
    | with_reducible apply Keep.via (State.event_keep ..)
    | extract_lets
    | dsimp -proj only
    | ((with_reducible conv => arg 3; whnf); first | split)
    | dsimp -proj +zetaDelta only
    | dsimp only

theorem execStartupTest_keep (s : State) : KeepR 0x3EF19FCBB s (execStartupTest s) := by
  unfold execStartupTest
  repeat' first
    | exact rfl
    | with_reducible apply Keep.refl
    | with_reducible assumption
    | with_reducible apply KeepR.refused
    | with_reducible apply KeepR.next
    | with_reducible apply Keep.via (State.wf_keep ..)
    | with_reducible apply Keep.via (State.notAccepted_keep ..)
    | with_reducible apply Keep.ite
    | with_reducible apply KeepR.ite
    | split
    | extract_lets
    | dsimp -proj only
    | ((with_reducible conv => arg 3; whnf); first | split | with_reducible apply Keep.setHlth)
    | dsimp -proj +zetaDelta only
    | dsimp only

theorem State.keepSoft_keep (s : State) (r : SoftRec) : Keep 0x3FFBFFFFB s (State.keepSoft s r) := by
  unfold State.keepSoft
  repeat' first
    | exact rfl
    | with_reducible apply Keep.refl
    | with_reducible assumption
    | with_reducible apply Keep.via (State.wr_keep ..)
    | dsimp -proj only
    | ((with_reducible conv => arg 3; whnf); first | split | with_reducible apply Keep.setHlth)
    | dsimp -proj +zetaDelta only
    | dsimp only

theorem State.judgeBad_keep (s : State) (unit detail how : Nat) : Keep 0x3EFBDFCFB s (s.judgeBad unit detail how) := by
  unfold State.judgeBad
  extract_lets r old n e s1 s2
  clear_value n e
  have h1 : Keep 0x3EFBDFCFB s s1 := by
    have h : ∀ o : Option SoftEnt, Keep 0x3EFBDFCFB s (match o with
        | some x => s.keepSoft { r with ents := r.ents.map (fun y => if y = x then
            ({ x with recur := n, proposed := x.proposed || decide (3 ≤ n) } : SoftEnt) else y) }
        | none => if 256 ≤ r.ents.length then s.event 0x080B devUnit 2 [(16, 1, 2)] else s.keepSoft { r with ents := r.ents ++ [e] }) := by
      intro o
      cases o with
      | some x => exact Keep.via (State.keepSoft_keep ..) rfl (Keep.refl _ _)
      | none => exact Keep.ite (Keep.via (State.event_keep ..) rfl (Keep.refl _ _)) (Keep.via (State.keepSoft_keep ..) rfl (Keep.refl _ _))
    exact h old
  have h2 : Keep 0x3EFBDFCFB s s2 := Keep.via (State.event_keep ..) rfl h1
  clear_value s2
  clear_value old
  cases old with
  | some x =>
    exact Keep.ite (Keep.via (State.event_keep ..) rfl h2) h2
  | none => exact h2

theorem State.liftRow_keep (s : State) (unit detail : Nat) : Keep 0x3FFFFFFFB s (State.liftRow s unit detail) := by
  unfold State.liftRow
  repeat' first
    | exact rfl
    | with_reducible apply Keep.refl
    | with_reducible assumption
    | with_reducible apply Keep.via (State.syncSpares_keep ..)
    | with_reducible apply Keep.via (State.wr_keep ..)
    | split
    | extract_lets
    | dsimp -proj only
    | ((with_reducible conv => arg 3; whnf); first | split)
    | dsimp -proj +zetaDelta only
    | dsimp only

theorem State.acceptPasses_keep (s : State) : Keep 0x3EFBDFCFB s (State.acceptPasses s) := by
  unfold State.acceptPasses
  repeat' first
    | exact rfl
    | with_reducible apply Keep.refl
    | with_reducible assumption
    | with_reducible apply Keep.via (State.event_keep ..)
    | with_reducible apply Keep.via (State.keepSoft_keep ..)
    | with_reducible apply Keep.via (State.liftRow_keep ..)
    | with_reducible apply Keep.foldl
    | with_reducible apply Keep.foldl_snd
    | with_reducible apply Keep.foldl_fst
    | (intro _ _)
    | with_reducible apply Keep.ite
    | split
    | extract_lets
    | dsimp -proj only
    | ((with_reducible conv => arg 3; whnf); first | split)
    | dsimp -proj +zetaDelta only
    | dsimp only

theorem State.acceptPlain_keep (s : State) : Keep 0x3EFBDFCFB s (State.acceptPlain s) := by
  unfold State.acceptPlain
  repeat' first
    | exact rfl
    | with_reducible apply Keep.refl
    | with_reducible assumption
    | with_reducible apply Keep.via (State.wf_keep ..)
    | with_reducible apply Keep.via (State.judgeBad_keep ..)
    | with_reducible apply Keep.foldl
    | with_reducible apply Keep.foldl_snd
    | with_reducible apply Keep.foldl_fst
    | (intro _ _)
    | extract_lets
    | dsimp -proj only
    | ((with_reducible conv => arg 3; whnf); first | split | with_reducible apply Keep.setHlth)
    | dsimp -proj +zetaDelta only
    | dsimp only

theorem State.acceptPorts_keep (s : State) : Keep 0x3EFBDFCFB s (State.acceptPorts s) := by
  unfold State.acceptPorts
  repeat' first
    | exact rfl
    | with_reducible apply Keep.refl
    | with_reducible assumption
    | with_reducible apply Keep.via (State.judgeBad_keep ..)
    | with_reducible apply Keep.via (State.wf_keep ..)
    | with_reducible apply Keep.foldl
    | with_reducible apply Keep.foldl_snd
    | with_reducible apply Keep.foldl_fst
    | (intro _ _)
    | with_reducible apply Keep.ite
    | split
    | extract_lets
    | dsimp -proj only
    | ((with_reducible conv => arg 3; whnf); first | split)
    | dsimp -proj +zetaDelta only
    | dsimp only

theorem State.acceptSpindles_keep (s : State) : Keep 0x3EFBDE0FB s (State.acceptSpindles s) := by
  unfold State.acceptSpindles
  repeat' first
    | exact rfl
    | with_reducible apply Keep.refl
    | with_reducible assumption
    | with_reducible apply Keep.via (State.judgeBad_keep ..)
    | with_reducible apply Keep.via (State.syncStop_keep ..)
    | with_reducible apply Keep.via (State.setSpnState_keep ..)
    | with_reducible apply Keep.via (State.wr_keep ..)
    | with_reducible apply Keep.via (State.initSpindle_keep ..)
    | with_reducible apply Keep.via (State.rebuild_keep ..)
    | with_reducible apply Keep.foldl
    | with_reducible apply Keep.foldl_snd
    | with_reducible apply Keep.foldl_fst
    | (intro _ _)
    | with_reducible apply Keep.ite
    | split
    | extract_lets
    | dsimp -proj only
    | ((with_reducible conv => arg 3; whnf); first | split)
    | dsimp -proj +zetaDelta only
    | dsimp only

theorem State.acceptRow_keep (s : State) (ch : Nat) (x : Nat × Nat × Nat) : Keep 0x3EFBDBCFB s (State.acceptRow s ch x).1 := by
  unfold State.acceptRow
  repeat' first
    | exact rfl
    | with_reducible apply Keep.refl
    | with_reducible assumption
    | with_reducible apply Keep.via (State.judgeBad_keep ..)
    | with_reducible apply Keep.via (State.repairRows_keep ..)
    | with_reducible apply Keep.ite
    | with_reducible apply Keep.ite_fst
    | split
    | extract_lets
    | dsimp -proj only
    | ((with_reducible conv => arg 3; whnf); first | split)
    | dsimp -proj +zetaDelta only
    | dsimp only

theorem State.acceptChannels_keep (s : State) : Keep 0x3EFBDB0FB s (State.acceptChannels s) := by
  unfold State.acceptChannels
  repeat' first
    | exact rfl
    | with_reducible apply Keep.refl
    | with_reducible assumption
    | with_reducible apply Keep.via (State.acceptRow_keep ..)
    | with_reducible apply Keep.via (State.judgeBad_keep ..)
    | with_reducible apply Keep.via (State.fenceChan_keep ..)
    | with_reducible apply Keep.via (State.syncDgChan_keep ..)
    | with_reducible apply Keep.via (State.zeroChan_keep ..)
    | with_reducible apply Keep.foldl
    | with_reducible apply Keep.foldl_snd
    | with_reducible apply Keep.foldl_fst
    | (intro _ _)
    | with_reducible apply Keep.ite
    | split
    | extract_lets
    | dsimp -proj only
    | ((with_reducible conv => arg 3; whnf); first | split)
    | dsimp -proj +zetaDelta only
    | dsimp only

theorem State.acceptDone_keep (s : State) : Keep 0x36F19A0BB s (State.acceptDone s) := by
  unfold State.acceptDone
  repeat' first
    | exact rfl
    | with_reducible apply Keep.refl
    | with_reducible assumption
    | with_reducible apply Keep.via (State.acceptPorts_keep ..)
    | with_reducible apply Keep.via (State.acceptChannels_keep ..)
    | with_reducible apply Keep.via (State.acceptSpindles_keep ..)
    | with_reducible apply Keep.via (State.acceptPlain_keep ..)
    | with_reducible apply Keep.via (State.acceptPasses_keep ..)
    | with_reducible apply Keep.via (State.toPhase_keep ..)
    | with_reducible apply Keep.via (State.notAccepted_keep ..)
    | with_reducible apply Keep.ite
    | split
    | extract_lets
    | dsimp -proj only
    | ((with_reducible conv => arg 3; whnf); first | split)
    | dsimp -proj +zetaDelta only
    | dsimp only

theorem execStartupAccept_keep (s : State) : KeepR 0x36F19A0BB s (execStartupAccept s) := by
  unfold execStartupAccept
  repeat' first
    | exact rfl
    | with_reducible apply Keep.refl
    | with_reducible assumption
    | with_reducible apply KeepR.refused
    | with_reducible apply KeepR.next
    | with_reducible apply Keep.via (State.acceptDone_keep ..)
    | with_reducible apply Keep.ite
    | with_reducible apply KeepR.ite
    | split
    | dsimp -proj only
    | ((with_reducible conv => arg 3; whnf); first | split)
    | dsimp -proj +zetaDelta only
    | dsimp only

theorem State.assignCoord_keep (s : State) (src coord topo dims : Nat) : Keep 0x37FFFFFFB s (State.assignCoord s src coord topo dims) := by
  unfold State.assignCoord
  repeat' first
    | exact rfl
    | with_reducible apply Keep.refl
    | with_reducible assumption
    | with_reducible apply Keep.via (State.wr_keep ..)
    | with_reducible apply Keep.via (State.wf_keep ..)
    | with_reducible apply Keep.via (State.toPhase_keep ..)
    | extract_lets
    | dsimp -proj only
    | ((with_reducible conv => arg 3; whnf); first | split)
    | dsimp -proj +zetaDelta only
    | dsimp only

theorem execStartupCoord_keep (s : State) : KeepR 0x37FFFFFFB s (execStartupCoord s) := by
  unfold execStartupCoord
  repeat' first
    | exact rfl
    | with_reducible apply Keep.refl
    | with_reducible assumption
    | with_reducible apply KeepR.refused
    | with_reducible apply KeepR.next
    | with_reducible apply Keep.via (State.assignCoord_keep ..)
    | with_reducible apply Keep.ite
    | with_reducible apply KeepR.ite
    | split
    | dsimp -proj only
    | ((with_reducible conv => arg 3; whnf); first | split)
    | dsimp -proj +zetaDelta only
    | dsimp only

theorem State.coordLate_keep (s : State) : Keep 0x36FFDFCFB s (State.coordLate s) := by
  unfold State.coordLate
  repeat' first
    | exact rfl
    | with_reducible apply Keep.refl
    | with_reducible assumption
    | with_reducible apply Keep.via (State.toPhase_keep ..)
    | with_reducible apply Keep.via (State.event_keep ..)
    | with_reducible apply Keep.via (State.failPhase_keep ..)
    | dsimp -proj only
    | ((with_reducible conv => arg 3; whnf); first | split)
    | dsimp -proj +zetaDelta only
    | dsimp only

theorem execCoordWaitExpiry_keep (s : State) : KeepR 0x36FFDFCFB s (execCoordWaitExpiry s) := by
  unfold execCoordWaitExpiry
  repeat' first
    | exact rfl
    | with_reducible apply Keep.refl
    | with_reducible assumption
    | with_reducible apply KeepR.refused
    | with_reducible apply KeepR.next
    | with_reducible apply Keep.via (State.coordLate_keep ..)
    | with_reducible apply Keep.ite
    | with_reducible apply KeepR.ite
    | split
    | dsimp -proj only
    | ((with_reducible conv => arg 3; whnf); first | split)
    | dsimp -proj +zetaDelta only
    | dsimp only

theorem execStartupLinks_keep (s : State) : KeepR 0x36FF9FCBB s (execStartupLinks s) := by
  unfold execStartupLinks
  repeat' first
    | exact rfl
    | with_reducible apply Keep.refl
    | with_reducible assumption
    | with_reducible apply KeepR.refused
    | with_reducible apply KeepR.next
    | with_reducible apply Keep.via (State.toPhase_keep ..)
    | with_reducible apply Keep.via (State.retrain_keep ..)
    | with_reducible apply Keep.foldl
    | with_reducible apply Keep.foldl_snd
    | with_reducible apply Keep.foldl_fst
    | (intro _ _)
    | with_reducible apply Keep.ite
    | with_reducible apply KeepR.ite
    | split
    | dsimp -proj only
    | ((with_reducible conv => arg 3; whnf); first | split | with_reducible apply Keep.setBoot)
    | dsimp -proj +zetaDelta only
    | dsimp only

theorem State.loadBytes_keep (l : List Byte) (a : Nat) (s : State) : Keep 0x3FFFFFBFF s (State.loadBytes l a s) := by
  induction l generalizing a s with
  | nil => exact Keep.refl _ _
  | cons b l ih =>
    unfold State.loadBytes
    refine Keep.trans ?_ (ih ..)
    split
    · exact Keep.via (State.setByte_keep ..) rfl (Keep.refl _ _)
    · exact Keep.refl _ _

theorem State.noImage_keep (s : State) (result bytes : Nat) : Keep 0x36FFDFCFB s (State.noImage s result bytes) := by
  unfold State.noImage
  repeat' first
    | exact rfl
    | with_reducible apply Keep.refl
    | with_reducible assumption
    | with_reducible apply Keep.via (State.toPhase_keep ..)
    | with_reducible apply Keep.via (State.wf_keep ..)
    | with_reducible apply Keep.via (State.event_keep ..)
    | with_reducible apply Keep.ite
    | split
    | extract_lets
    | dsimp -proj only
    | ((with_reducible conv => arg 3; whnf); first | split | with_reducible apply Keep.setBoot)
    | dsimp -proj +zetaDelta only
    | dsimp only

theorem State.haveImage_keep (s : State) (h pay : List Byte) : Keep 0x36FFDFCFB s (State.haveImage s h pay) := by
  unfold State.haveImage
  repeat' first
    | exact rfl
    | with_reducible apply Keep.refl
    | with_reducible assumption
    | with_reducible apply Keep.via (State.toPhase_keep ..)
    | with_reducible apply Keep.via (State.noImage_keep ..)
    | with_reducible apply Keep.ite
    | split
    | extract_lets
    | dsimp -proj only
    | ((with_reducible conv => arg 3; whnf); first | split | with_reducible apply Keep.setBoot)
    | dsimp -proj +zetaDelta only
    | dsimp only

theorem State.flashImage_keep (s : State) : Keep 0x36FFDF8FB s (State.flashImage s) := by
  unfold State.flashImage
  repeat' first
    | exact rfl
    | with_reducible apply Keep.refl
    | with_reducible assumption
    | with_reducible apply Keep.via (State.haveImage_keep ..)
    | with_reducible apply Keep.via (State.loadBytes_keep ..)
    | with_reducible apply Keep.via (State.noImage_keep ..)
    | with_reducible apply Keep.ite
    | split
    | extract_lets
    | dsimp -proj only
    | ((with_reducible conv => arg 3; whnf); first | split)
    | dsimp -proj +zetaDelta only
    | dsimp only

theorem execStartupImage_keep (s : State) : KeepR 0x36FFDF8BB s (execStartupImage s) := by
  unfold execStartupImage
  repeat' first
    | exact rfl
    | with_reducible apply Keep.refl
    | with_reducible assumption
    | with_reducible apply KeepR.refused
    | with_reducible apply KeepR.next
    | with_reducible apply Keep.via (State.wf_keep ..)
    | with_reducible apply Keep.via (State.noImage_keep ..)
    | with_reducible apply Keep.via (State.flashImage_keep ..)
    | with_reducible apply Keep.via (State.send_keep ..)
    | with_reducible apply Keep.ite
    | with_reducible apply KeepR.ite
    | split
    | extract_lets
    | dsimp -proj only
    | ((with_reducible conv => arg 3; whnf); first | split | with_reducible apply Keep.setBoot)
    | dsimp -proj +zetaDelta only
    | dsimp only

theorem State.setTftp_keep (s : State) (t : Option Tftp) : Keep 0x37FFFFFFF s (State.setTftp s t) := by
  unfold State.setTftp
  repeat' first
    | exact rfl
    | with_reducible apply Keep.refl
    | with_reducible assumption
    | dsimp -proj only
    | ((with_reducible conv => arg 3; whnf); first | split | with_reducible apply Keep.setBoot)
    | dsimp -proj +zetaDelta only
    | dsimp only

theorem execDhcpReply_keep (own server file : List Byte) (s : State) : KeepR 0x37FFFFFBF s (execDhcpReply own server file s) := by
  unfold execDhcpReply
  repeat' first
    | exact rfl
    | with_reducible apply Keep.refl
    | with_reducible assumption
    | with_reducible apply KeepR.refused
    | with_reducible apply KeepR.next
    | with_reducible apply Keep.via (State.send_keep ..)
    | with_reducible apply Keep.via (State.setTftp_keep ..)
    | with_reducible apply Keep.ite
    | with_reducible apply KeepR.ite
    | split
    | dsimp -proj only
    | ((with_reducible conv => arg 3; whnf); first | split)
    | dsimp -proj +zetaDelta only
    | dsimp only

theorem State.ackBlock_keep (s : State) (t : Tftp) (n : Nat) : Keep 0x37FFFFFBF s (State.ackBlock s t n) := by
  unfold State.ackBlock
  repeat' first
    | exact rfl
    | with_reducible apply Keep.refl
    | with_reducible assumption
    | with_reducible apply Keep.via (State.send_keep ..)
    | with_reducible apply Keep.via (State.setTftp_keep ..)
    | dsimp -proj only
    | ((with_reducible conv => arg 3; whnf); first | split)
    | dsimp -proj +zetaDelta only
    | dsimp only

theorem State.takeBlock_keep (s : State) (t : Tftp) (b : List Byte) : Keep 0x36FFDF8BB s (State.takeBlock s t b) := by
  unfold State.takeBlock
  repeat' first
    | exact rfl
    | with_reducible apply Keep.refl
    | with_reducible assumption
    | with_reducible apply Keep.via (State.noImage_keep ..)
    | with_reducible apply Keep.via (State.ackBlock_keep ..)
    | with_reducible apply Keep.via (State.loadBytes_keep ..)
    | with_reducible apply Keep.via (State.haveImage_keep ..)
    | with_reducible apply Keep.ite
    | split
    | extract_lets
    | dsimp -proj only
    | ((with_reducible conv => arg 3; whnf); first | split)
    | dsimp -proj +zetaDelta only
    | dsimp only

theorem execTftpBlock_keep (n : BitVec 16) (b : List Byte) (s : State) : KeepR 0x36FFDF8BB s (execTftpBlock n b s) := by
  unfold execTftpBlock
  repeat' first
    | exact rfl
    | with_reducible apply Keep.refl
    | with_reducible assumption
    | with_reducible apply KeepR.refused
    | with_reducible apply KeepR.next
    | with_reducible apply Keep.via (State.takeBlock_keep ..)
    | with_reducible apply Keep.ite
    | with_reducible apply KeepR.ite
    | split
    | dsimp -proj only
    | ((with_reducible conv => arg 3; whnf); first | split)
    | dsimp -proj +zetaDelta only
    | dsimp only

theorem execTftpRetransmit_keep (s : State) : KeepR 0x36FFDFCBB s (execTftpRetransmit s) := by
  unfold execTftpRetransmit
  repeat' first
    | exact rfl
    | with_reducible apply Keep.refl
    | with_reducible assumption
    | with_reducible apply KeepR.refused
    | with_reducible apply KeepR.next
    | with_reducible apply Keep.via (State.noImage_keep ..)
    | with_reducible apply Keep.via (State.send_keep ..)
    | with_reducible apply Keep.via (State.setTftp_keep ..)
    | with_reducible apply Keep.ite
    | with_reducible apply KeepR.ite
    | split
    | dsimp -proj only
    | ((with_reducible conv => arg 3; whnf); first | split)
    | dsimp -proj +zetaDelta only
    | dsimp only

theorem State.trainedBytes_keep (s : State) (i : Nat) : Keep 0x3FFFFFFEF s (State.trainedBytes s i).2 := by
  unfold State.trainedBytes
  repeat' first
    | exact rfl
    | with_reducible apply Keep.refl
    | with_reducible assumption
    | with_reducible apply Keep.via (State.free_keep ..)
    | with_reducible apply Keep.ite
    | with_reducible apply Keep.ite_snd
    | split
    | extract_lets
    | dsimp -proj only
    | ((with_reducible conv => arg 3; whnf); first | split)
    | dsimp -proj +zetaDelta only
    | dsimp only

theorem State.writeBack_keep (s : State) : Keep 0x36BFDFCEB s (State.writeBack s) := by
  unfold State.writeBack
  repeat' first
    | exact rfl
    | with_reducible apply Keep.refl
    | with_reducible assumption
    | with_reducible apply Keep.via (State.trainedBytes_keep ..)
    | with_reducible apply Keep.via (State.calWrite_keep ..)
    | with_reducible apply Keep.foldl
    | with_reducible apply Keep.foldl_snd
    | with_reducible apply Keep.foldl_fst
    | (intro _ _)
    | extract_lets
    | dsimp -proj only
    | ((with_reducible conv => arg 3; whnf); first | split | with_reducible apply Keep.setBoot)
    | dsimp -proj +zetaDelta only
    | dsimp only

theorem State.complete_keep (s : State) : Keep 0x3EBBDFCFB s (State.complete s) := by
  unfold State.complete
  repeat' first
    | exact rfl
    | with_reducible apply Keep.refl
    | with_reducible assumption
    | with_reducible apply Keep.via (State.wf_keep ..)
    | with_reducible apply Keep.via (State.setSoft_keep ..)
    | with_reducible apply Keep.via (State.setDev_keep ..)
    | with_reducible apply Keep.ite
    | split
    | extract_lets
    | dsimp -proj only
    | ((with_reducible conv => arg 3; whnf); first | split)
    | dsimp -proj +zetaDelta only
    | dsimp only

theorem State.completeBare_keep (s : State) : Keep 0x36BBDFCFB s (State.completeBare s) := by
  unfold State.completeBare
  repeat' first
    | exact rfl
    | with_reducible apply Keep.refl
    | with_reducible assumption
    | with_reducible apply Keep.via (State.complete_keep ..)
    | with_reducible apply Keep.via (State.wf_keep ..)
    | dsimp -proj only
    | ((with_reducible conv => arg 3; whnf); first | split | with_reducible apply Keep.setBoot)
    | dsimp -proj +zetaDelta only
    | dsimp only

theorem execStartupLaunch_keep (s : State) : KeepR 0x36BBDFCEB s (execStartupLaunch s) := by
  unfold execStartupLaunch
  repeat' first
    | exact rfl
    | with_reducible apply Keep.refl
    | with_reducible assumption
    | with_reducible apply KeepR.refused
    | with_reducible apply KeepR.next
    | with_reducible apply Keep.via (State.completeBare_keep ..)
    | with_reducible apply Keep.via (State.writeBack_keep ..)
    | with_reducible apply Keep.via (State.extend_keep ..)
    | with_reducible apply Keep.via (State.wf_keep ..)
    | with_reducible apply Keep.via (State.event_keep ..)
    | with_reducible apply Keep.via (State.complete_keep ..)
    | with_reducible apply Keep.ite
    | with_reducible apply KeepR.ite
    | split
    | extract_lets
    | dsimp -proj only
    | ((with_reducible conv => arg 3; whnf); first | split)
    | dsimp -proj +zetaDelta only
    | dsimp only

theorem State.limitEvent_keep (s : State) (ph : Nat) : Keep 0x3EFFDFCFB s (State.limitEvent s ph) := by
  unfold State.limitEvent
  repeat' first
    | exact rfl
    | with_reducible apply Keep.refl
    | with_reducible assumption
    | with_reducible apply Keep.via (State.event_keep ..)
    | with_reducible apply Keep.via (State.failPhase_keep ..)
    | dsimp -proj only
    | ((with_reducible conv => arg 3; whnf); first | split)
    | dsimp -proj +zetaDelta only
    | dsimp only

theorem State.earlyLimit_keep (s : State) : Keep 0x36F18FCAB s (State.earlyLimit s) := by
  unfold State.earlyLimit
  repeat' first
    | exact rfl
    | with_reducible apply Keep.refl
    | with_reducible assumption
    | with_reducible apply Keep.via (State.procFail_keep ..)
    | with_reducible apply Keep.via (State.strapsDone_keep ..)
    | with_reducible apply Keep.via (State.failPhase_keep ..)
    | with_reducible apply Keep.via (State.free_keep ..)
    | with_reducible apply Keep.via (State.bootHalt_keep ..)
    | with_reducible apply Keep.via (State.event_keep ..)
    | with_reducible apply Keep.via (State.calDone_keep ..)
    | with_reducible apply Keep.ite
    | split
    | extract_lets
    | dsimp -proj only
    | ((with_reducible conv => arg 3; whnf); first | split | with_reducible apply Keep.setBoot)
    | dsimp -proj +zetaDelta only
    | dsimp only

theorem State.lateLimit_keep (s : State) : Keep 0x36B19BCBB s (State.lateLimit s) := by
  unfold State.lateLimit
  repeat' first
    | exact rfl
    | with_reducible apply Keep.refl
    | with_reducible assumption
    | with_reducible apply Keep.via (State.dramDone_keep ..)
    | with_reducible apply Keep.via (State.failPhase_keep ..)
    | with_reducible apply Keep.via (State.bootHalt_keep ..)
    | with_reducible apply Keep.via (State.limitEvent_keep ..)
    | with_reducible apply Keep.via (State.coordLate_keep ..)
    | with_reducible apply Keep.via (State.toPhase_keep ..)
    | with_reducible apply Keep.via (State.trainFail_keep ..)
    | with_reducible apply Keep.via (State.noImage_keep ..)
    | with_reducible apply Keep.via (State.completeBare_keep ..)
    | with_reducible apply Keep.via (State.wf_keep ..)
    | with_reducible apply Keep.foldl
    | with_reducible apply Keep.foldl_snd
    | with_reducible apply Keep.foldl_fst
    | (intro _ _)
    | with_reducible apply Keep.ite
    | split
    | extract_lets
    | dsimp -proj only
    | ((with_reducible conv => arg 3; whnf); first | split)
    | dsimp -proj +zetaDelta only
    | dsimp only

theorem execStartupPhaseLimit_keep (s : State) : KeepR 0x36B18BCAB s (execStartupPhaseLimit s) := by
  unfold execStartupPhaseLimit
  repeat' first
    | exact rfl
    | with_reducible apply Keep.refl
    | with_reducible assumption
    | with_reducible apply KeepR.refused
    | with_reducible apply KeepR.next
    | with_reducible apply Keep.via (State.earlyLimit_keep ..)
    | with_reducible apply Keep.via (State.lateLimit_keep ..)
    | with_reducible apply Keep.ite
    | with_reducible apply KeepR.ite
    | split
    | dsimp -proj only
    | ((with_reducible conv => arg 3; whnf); first | split)
    | dsimp -proj +zetaDelta only
    | dsimp only


end Sys2Proof.Machine
end

