-- ==== Sys2Proof/Laws/KeepFire.lean ====
section
/-! SUPPORT. What each operation of Machine/Fire.lean leaves alone (Laws/Keep.lean). -/

namespace Sys2Proof.Machine

set_option linter.unusedTactic false
set_option linter.unreachableTactic false

theorem State.fireRow_keep (s : State) (is : Bool) (ps u : Nat) (w : DWord) (f : Flips) : KeepR 0x3EDF100AB s (State.fireRow s is ps u w f) := by
  unfold State.fireRow
  repeat' first
    | exact rfl
    | with_reducible apply Keep.refl
    | with_reducible assumption
    | with_reducible apply KeepR.refused
    | with_reducible apply KeepR.next
    | with_reducible apply Keep.via (State.fireSlot_keep ..)
    | with_reducible apply Keep.ite
    | with_reducible apply KeepR.ite
    | split
    | dsimp -proj only
    | ((with_reducible conv => arg 3; whnf); first | split)
    | dsimp -proj +zetaDelta only
    | dsimp only

theorem execMac_keep (ps : Fin 18) (u : Fin 55) (w : DWord) (s : State) : KeepR 0x3EDF100AB s (execMac ps u w s) := by
  unfold execMac
  repeat' first
    | exact rfl
    | with_reducible apply Keep.refl
    | with_reducible assumption
    | with_reducible apply KeepR.refused
    | with_reducible apply KeepR.next
    | with_reducible apply KeepR.via (State.fireRow_keep ..)
    | dsimp -proj only
    | ((with_reducible conv => arg 3; whnf); first | split)
    | dsimp -proj +zetaDelta only
    | dsimp only

theorem execLoadw_keep (ps : Fin 18) (u : Fin 55) (w : DWord) (s : State) : KeepR 0x3EDF100AB s (execLoadw ps u w s) := by
  unfold execLoadw
  repeat' first
    | exact rfl
    | with_reducible apply Keep.refl
    | with_reducible assumption
    | with_reducible apply KeepR.refused
    | with_reducible apply KeepR.next
    | with_reducible apply KeepR.via (State.fireRow_keep ..)
    | dsimp -proj only
    | ((with_reducible conv => arg 3; whnf); first | split)
    | dsimp -proj +zetaDelta only
    | dsimp only

theorem execClear_keep (ps : Fin 18) (u : Fin 55) (w : DWord) (s : State) : KeepR 0x3EDF100AB s (execClear ps u w s) := by
  unfold execClear
  repeat' first
    | exact rfl
    | with_reducible apply Keep.refl
    | with_reducible assumption
    | with_reducible apply KeepR.refused
    | with_reducible apply KeepR.next
    | with_reducible apply KeepR.via (State.fireRow_keep ..)
    | dsimp -proj only
    | ((with_reducible conv => arg 3; whnf); first | split)
    | dsimp -proj +zetaDelta only
    | dsimp only

theorem execRead_keep (ps : Fin 18) (u : Fin 55) (w : DWord) (s : State) : KeepR 0x3EDF100AB s (execRead ps u w s) := by
  unfold execRead
  repeat' first
    | exact rfl
    | with_reducible apply Keep.refl
    | with_reducible assumption
    | with_reducible apply KeepR.refused
    | with_reducible apply KeepR.next
    | with_reducible apply KeepR.via (State.fireRow_keep ..)
    | dsimp -proj only
    | ((with_reducible conv => arg 3; whnf); first | split)
    | dsimp -proj +zetaDelta only
    | dsimp only

theorem execSpill_keep (ps : Fin 18) (u : Fin 55) (w : DWord) (s : State) : KeepR 0x3EDF100AB s (execSpill ps u w s) := by
  unfold execSpill
  repeat' first
    | exact rfl
    | with_reducible apply Keep.refl
    | with_reducible assumption
    | with_reducible apply KeepR.refused
    | with_reducible apply KeepR.next
    | with_reducible apply KeepR.via (State.fireRow_keep ..)
    | dsimp -proj only
    | ((with_reducible conv => arg 3; whnf); first | split)
    | dsimp -proj +zetaDelta only
    | dsimp only

theorem execLoad_keep (ps : Fin 18) (u : Fin 55) (w : DWord) (s : State) : KeepR 0x3EDF100AB s (execLoad ps u w s) := by
  unfold execLoad
  repeat' first
    | exact rfl
    | with_reducible apply Keep.refl
    | with_reducible assumption
    | with_reducible apply KeepR.refused
    | with_reducible apply KeepR.next
    | with_reducible apply KeepR.via (State.fireRow_keep ..)
    | dsimp -proj only
    | ((with_reducible conv => arg 3; whnf); first | split)
    | dsimp -proj +zetaDelta only
    | dsimp only

theorem execMerge_keep (ps : Fin 18) (u : Fin 55) (w : DWord) (s : State) : KeepR 0x3EDF100AB s (execMerge ps u w s) := by
  unfold execMerge
  repeat' first
    | exact rfl
    | with_reducible apply Keep.refl
    | with_reducible assumption
    | with_reducible apply KeepR.refused
    | with_reducible apply KeepR.next
    | with_reducible apply KeepR.via (State.fireRow_keep ..)
    | dsimp -proj only
    | ((with_reducible conv => arg 3; whnf); first | split)
    | dsimp -proj +zetaDelta only
    | dsimp only

theorem execAdd_keep (ps : Fin 18) (u : Fin 55) (w : DWord) (s : State) : KeepR 0x3EDF100AB s (execAdd ps u w s) := by
  unfold execAdd
  repeat' first
    | exact rfl
    | with_reducible apply Keep.refl
    | with_reducible assumption
    | with_reducible apply KeepR.refused
    | with_reducible apply KeepR.next
    | with_reducible apply KeepR.via (State.fireRow_keep ..)
    | dsimp -proj only
    | ((with_reducible conv => arg 3; whnf); first | split)
    | dsimp -proj +zetaDelta only
    | dsimp only

theorem execSub_keep (ps : Fin 18) (u : Fin 55) (w : DWord) (s : State) : KeepR 0x3EDF100AB s (execSub ps u w s) := by
  unfold execSub
  repeat' first
    | exact rfl
    | with_reducible apply Keep.refl
    | with_reducible assumption
    | with_reducible apply KeepR.refused
    | with_reducible apply KeepR.next
    | with_reducible apply KeepR.via (State.fireRow_keep ..)
    | dsimp -proj only
    | ((with_reducible conv => arg 3; whnf); first | split)
    | dsimp -proj +zetaDelta only
    | dsimp only

theorem execMul_keep (ps : Fin 18) (u : Fin 55) (w : DWord) (s : State) : KeepR 0x3EDF100AB s (execMul ps u w s) := by
  unfold execMul
  repeat' first
    | exact rfl
    | with_reducible apply Keep.refl
    | with_reducible assumption
    | with_reducible apply KeepR.refused
    | with_reducible apply KeepR.next
    | with_reducible apply KeepR.via (State.fireRow_keep ..)
    | dsimp -proj only
    | ((with_reducible conv => arg 3; whnf); first | split)
    | dsimp -proj +zetaDelta only
    | dsimp only

theorem execFma_keep (ps : Fin 18) (u : Fin 55) (w : DWord) (s : State) : KeepR 0x3EDF100AB s (execFma ps u w s) := by
  unfold execFma
  repeat' first
    | exact rfl
    | with_reducible apply Keep.refl
    | with_reducible assumption
    | with_reducible apply KeepR.refused
    | with_reducible apply KeepR.next
    | with_reducible apply KeepR.via (State.fireRow_keep ..)
    | dsimp -proj only
    | ((with_reducible conv => arg 3; whnf); first | split)
    | dsimp -proj +zetaDelta only
    | dsimp only

theorem execMin_keep (ps : Fin 18) (u : Fin 55) (w : DWord) (s : State) : KeepR 0x3EDF100AB s (execMin ps u w s) := by
  unfold execMin
  repeat' first
    | exact rfl
    | with_reducible apply Keep.refl
    | with_reducible assumption
    | with_reducible apply KeepR.refused
    | with_reducible apply KeepR.next
    | with_reducible apply KeepR.via (State.fireRow_keep ..)
    | dsimp -proj only
    | ((with_reducible conv => arg 3; whnf); first | split)
    | dsimp -proj +zetaDelta only
    | dsimp only

theorem execMax_keep (ps : Fin 18) (u : Fin 55) (w : DWord) (s : State) : KeepR 0x3EDF100AB s (execMax ps u w s) := by
  unfold execMax
  repeat' first
    | exact rfl
    | with_reducible apply Keep.refl
    | with_reducible assumption
    | with_reducible apply KeepR.refused
    | with_reducible apply KeepR.next
    | with_reducible apply KeepR.via (State.fireRow_keep ..)
    | dsimp -proj only
    | ((with_reducible conv => arg 3; whnf); first | split)
    | dsimp -proj +zetaDelta only
    | dsimp only

theorem execCmp_keep (ps : Fin 18) (u : Fin 55) (w : DWord) (s : State) : KeepR 0x3EDF100AB s (execCmp ps u w s) := by
  unfold execCmp
  repeat' first
    | exact rfl
    | with_reducible apply Keep.refl
    | with_reducible assumption
    | with_reducible apply KeepR.refused
    | with_reducible apply KeepR.next
    | with_reducible apply KeepR.via (State.fireRow_keep ..)
    | dsimp -proj only
    | ((with_reducible conv => arg 3; whnf); first | split)
    | dsimp -proj +zetaDelta only
    | dsimp only

theorem execCvt_keep (ps : Fin 18) (u : Fin 55) (w : DWord) (s : State) : KeepR 0x3EDF100AB s (execCvt ps u w s) := by
  unfold execCvt
  repeat' first
    | exact rfl
    | with_reducible apply Keep.refl
    | with_reducible assumption
    | with_reducible apply KeepR.refused
    | with_reducible apply KeepR.next
    | with_reducible apply KeepR.via (State.fireRow_keep ..)
    | dsimp -proj only
    | ((with_reducible conv => arg 3; whnf); first | split)
    | dsimp -proj +zetaDelta only
    | dsimp only

theorem execRed_keep (ps : Fin 18) (u : Fin 55) (w : DWord) (s : State) : KeepR 0x3EDF100AB s (execRed ps u w s) := by
  unfold execRed
  repeat' first
    | exact rfl
    | with_reducible apply Keep.refl
    | with_reducible assumption
    | with_reducible apply KeepR.refused
    | with_reducible apply KeepR.next
    | with_reducible apply KeepR.via (State.fireRow_keep ..)
    | dsimp -proj only
    | ((with_reducible conv => arg 3; whnf); first | split)
    | dsimp -proj +zetaDelta only
    | dsimp only

theorem execMov_keep (ps : Fin 18) (u : Fin 55) (w : DWord) (s : State) : KeepR 0x3EDF100AB s (execMov ps u w s) := by
  unfold execMov
  repeat' first
    | exact rfl
    | with_reducible apply Keep.refl
    | with_reducible assumption
    | with_reducible apply KeepR.refused
    | with_reducible apply KeepR.next
    | with_reducible apply KeepR.via (State.fireRow_keep ..)
    | dsimp -proj only
    | ((with_reducible conv => arg 3; whnf); first | split)
    | dsimp -proj +zetaDelta only
    | dsimp only

theorem execRng_keep (ps : Fin 18) (u : Fin 55) (w : DWord) (s : State) : KeepR 0x3EDF100AB s (execRng ps u w s) := by
  unfold execRng
  repeat' first
    | exact rfl
    | with_reducible apply Keep.refl
    | with_reducible assumption
    | with_reducible apply KeepR.refused
    | with_reducible apply KeepR.next
    | with_reducible apply KeepR.via (State.fireRow_keep ..)
    | dsimp -proj only
    | ((with_reducible conv => arg 3; whnf); first | split)
    | dsimp -proj +zetaDelta only
    | dsimp only

theorem execNz_keep (ps : Fin 18) (u : Fin 55) (w : DWord) (s : State) : KeepR 0x3EDF100AB s (execNz ps u w s) := by
  unfold execNz
  repeat' first
    | exact rfl
    | with_reducible apply Keep.refl
    | with_reducible assumption
    | with_reducible apply KeepR.refused
    | with_reducible apply KeepR.next
    | with_reducible apply KeepR.via (State.fireRow_keep ..)
    | dsimp -proj only
    | ((with_reducible conv => arg 3; whnf); first | split)
    | dsimp -proj +zetaDelta only
    | dsimp only

theorem execPack_keep (ps : Fin 18) (u : Fin 55) (w : DWord) (s : State) : KeepR 0x3EDF100AB s (execPack ps u w s) := by
  unfold execPack
  repeat' first
    | exact rfl
    | with_reducible apply Keep.refl
    | with_reducible assumption
    | with_reducible apply KeepR.refused
    | with_reducible apply KeepR.next
    | with_reducible apply KeepR.via (State.fireRow_keep ..)
    | dsimp -proj only
    | ((with_reducible conv => arg 3; whnf); first | split)
    | dsimp -proj +zetaDelta only
    | dsimp only

theorem execFlush_keep (ps : Fin 18) (u : Fin 55) (w : DWord) (s : State) : KeepR 0x3EDF100AB s (execFlush ps u w s) := by
  unfold execFlush
  repeat' first
    | exact rfl
    | with_reducible apply Keep.refl
    | with_reducible assumption
    | with_reducible apply KeepR.refused
    | with_reducible apply KeepR.next
    | with_reducible apply KeepR.via (State.fireRow_keep ..)
    | dsimp -proj only
    | ((with_reducible conv => arg 3; whnf); first | split)
    | dsimp -proj +zetaDelta only
    | dsimp only

theorem execXin_keep (ps : Fin 18) (u : Fin 55) (w : DWord) (s : State) : KeepR 0x3EDF100AB s (execXin ps u w s) := by
  unfold execXin
  repeat' first
    | exact rfl
    | with_reducible apply Keep.refl
    | with_reducible assumption
    | with_reducible apply KeepR.refused
    | with_reducible apply KeepR.next
    | with_reducible apply KeepR.via (State.fireRow_keep ..)
    | dsimp -proj only
    | ((with_reducible conv => arg 3; whnf); first | split)
    | dsimp -proj +zetaDelta only
    | dsimp only

theorem execXout_keep (ps : Fin 18) (u : Fin 55) (w : DWord) (s : State) : KeepR 0x3EDF100AB s (execXout ps u w s) := by
  unfold execXout
  repeat' first
    | exact rfl
    | with_reducible apply Keep.refl
    | with_reducible assumption
    | with_reducible apply KeepR.refused
    | with_reducible apply KeepR.next
    | with_reducible apply KeepR.via (State.fireRow_keep ..)
    | dsimp -proj only
    | ((with_reducible conv => arg 3; whnf); first | split)
    | dsimp -proj +zetaDelta only
    | dsimp only

theorem execPcnt_keep (ps : Fin 18) (u : Fin 55) (w : DWord) (s : State) : KeepR 0x3EDF100AB s (execPcnt ps u w s) := by
  unfold execPcnt
  repeat' first
    | exact rfl
    | with_reducible apply Keep.refl
    | with_reducible assumption
    | with_reducible apply KeepR.refused
    | with_reducible apply KeepR.next
    | with_reducible apply KeepR.via (State.fireRow_keep ..)
    | dsimp -proj only
    | ((with_reducible conv => arg 3; whnf); first | split)
    | dsimp -proj +zetaDelta only
    | dsimp only

theorem execExp2_keep (ps : Fin 18) (u : Fin 55) (w : DWord) (s : State) : KeepR 0x3EDF100AB s (execExp2 ps u w s) := by
  unfold execExp2
  repeat' first
    | exact rfl
    | with_reducible apply Keep.refl
    | with_reducible assumption
    | with_reducible apply KeepR.refused
    | with_reducible apply KeepR.next
    | with_reducible apply KeepR.via (State.fireRow_keep ..)
    | dsimp -proj only
    | ((with_reducible conv => arg 3; whnf); first | split)
    | dsimp -proj +zetaDelta only
    | dsimp only

theorem execLog2_keep (ps : Fin 18) (u : Fin 55) (w : DWord) (s : State) : KeepR 0x3EDF100AB s (execLog2 ps u w s) := by
  unfold execLog2
  repeat' first
    | exact rfl
    | with_reducible apply Keep.refl
    | with_reducible assumption
    | with_reducible apply KeepR.refused
    | with_reducible apply KeepR.next
    | with_reducible apply KeepR.via (State.fireRow_keep ..)
    | dsimp -proj only
    | ((with_reducible conv => arg 3; whnf); first | split)
    | dsimp -proj +zetaDelta only
    | dsimp only

theorem execReciprocal_keep (ps : Fin 18) (u : Fin 55) (w : DWord) (s : State) : KeepR 0x3EDF100AB s (execReciprocal ps u w s) := by
  unfold execReciprocal
  repeat' first
    | exact rfl
    | with_reducible apply Keep.refl
    | with_reducible assumption
    | with_reducible apply KeepR.refused
    | with_reducible apply KeepR.next
    | with_reducible apply KeepR.via (State.fireRow_keep ..)
    | dsimp -proj only
    | ((with_reducible conv => arg 3; whnf); first | split)
    | dsimp -proj +zetaDelta only
    | dsimp only

theorem execReciprocalSquareRoot_keep (ps : Fin 18) (u : Fin 55) (w : DWord) (s : State) : KeepR 0x3EDF100AB s (execReciprocalSquareRoot ps u w s) := by
  unfold execReciprocalSquareRoot
  repeat' first
    | exact rfl
    | with_reducible apply Keep.refl
    | with_reducible assumption
    | with_reducible apply KeepR.refused
    | with_reducible apply KeepR.next
    | with_reducible apply KeepR.via (State.fireRow_keep ..)
    | dsimp -proj only
    | ((with_reducible conv => arg 3; whnf); first | split)
    | dsimp -proj +zetaDelta only
    | dsimp only

theorem execSin_keep (ps : Fin 18) (u : Fin 55) (w : DWord) (s : State) : KeepR 0x3EDF100AB s (execSin ps u w s) := by
  unfold execSin
  repeat' first
    | exact rfl
    | with_reducible apply Keep.refl
    | with_reducible assumption
    | with_reducible apply KeepR.refused
    | with_reducible apply KeepR.next
    | with_reducible apply KeepR.via (State.fireRow_keep ..)
    | dsimp -proj only
    | ((with_reducible conv => arg 3; whnf); first | split)
    | dsimp -proj +zetaDelta only
    | dsimp only

theorem execCos_keep (ps : Fin 18) (u : Fin 55) (w : DWord) (s : State) : KeepR 0x3EDF100AB s (execCos ps u w s) := by
  unfold execCos
  repeat' first
    | exact rfl
    | with_reducible apply Keep.refl
    | with_reducible assumption
    | with_reducible apply KeepR.refused
    | with_reducible apply KeepR.next
    | with_reducible apply KeepR.via (State.fireRow_keep ..)
    | dsimp -proj only
    | ((with_reducible conv => arg 3; whnf); first | split)
    | dsimp -proj +zetaDelta only
    | dsimp only

theorem execSwitch_keep (ps : Fin 18) (u : Fin 55) (w : DWord) (s : State) : KeepR 0x3EDF100AB s (execSwitch ps u w s) := by
  unfold execSwitch
  repeat' first
    | exact rfl
    | with_reducible apply Keep.refl
    | with_reducible assumption
    | with_reducible apply KeepR.refused
    | with_reducible apply KeepR.next
    | with_reducible apply KeepR.via (State.fireRow_keep ..)
    | dsimp -proj only
    | ((with_reducible conv => arg 3; whnf); first | split)
    | dsimp -proj +zetaDelta only
    | dsimp only

theorem execSteerMerge_keep (ps : Fin 18) (u : Fin 55) (w : DWord) (s : State) : KeepR 0x3EDF100AB s (execSteerMerge ps u w s) := by
  unfold execSteerMerge
  repeat' first
    | exact rfl
    | with_reducible apply Keep.refl
    | with_reducible assumption
    | with_reducible apply KeepR.refused
    | with_reducible apply KeepR.next
    | with_reducible apply KeepR.via (State.fireRow_keep ..)
    | dsimp -proj only
    | ((with_reducible conv => arg 3; whnf); first | split)
    | dsimp -proj +zetaDelta only
    | dsimp only

theorem execGate_keep (ps : Fin 18) (u : Fin 55) (w : DWord) (s : State) : KeepR 0x3EDF100AB s (execGate ps u w s) := by
  unfold execGate
  repeat' first
    | exact rfl
    | with_reducible apply Keep.refl
    | with_reducible assumption
    | with_reducible apply KeepR.refused
    | with_reducible apply KeepR.next
    | with_reducible apply KeepR.via (State.fireRow_keep ..)
    | dsimp -proj only
    | ((with_reducible conv => arg 3; whnf); first | split)
    | dsimp -proj +zetaDelta only
    | dsimp only

theorem execSplit_keep (ps : Fin 18) (u : Fin 55) (w : DWord) (s : State) : KeepR 0x3EDF100AB s (execSplit ps u w s) := by
  unfold execSplit
  repeat' first
    | exact rfl
    | with_reducible apply Keep.refl
    | with_reducible assumption
    | with_reducible apply KeepR.refused
    | with_reducible apply KeepR.next
    | with_reducible apply KeepR.via (State.fireRow_keep ..)
    | dsimp -proj only
    | ((with_reducible conv => arg 3; whnf); first | split)
    | dsimp -proj +zetaDelta only
    | dsimp only

theorem execCount_keep (ps : Fin 18) (u : Fin 55) (w : DWord) (s : State) : KeepR 0x3EDF100AB s (execCount ps u w s) := by
  unfold execCount
  repeat' first
    | exact rfl
    | with_reducible apply Keep.refl
    | with_reducible assumption
    | with_reducible apply KeepR.refused
    | with_reducible apply KeepR.next
    | with_reducible apply KeepR.via (State.fireRow_keep ..)
    | dsimp -proj only
    | ((with_reducible conv => arg 3; whnf); first | split)
    | dsimp -proj +zetaDelta only
    | dsimp only

theorem execPhase_keep (ps : Fin 18) (u : Fin 55) (w : DWord) (s : State) : KeepR 0x3EDF100AB s (execPhase ps u w s) := by
  unfold execPhase
  repeat' first
    | exact rfl
    | with_reducible apply Keep.refl
    | with_reducible assumption
    | with_reducible apply KeepR.refused
    | with_reducible apply KeepR.next
    | with_reducible apply KeepR.via (State.fireRow_keep ..)
    | dsimp -proj only
    | ((with_reducible conv => arg 3; whnf); first | split)
    | dsimp -proj +zetaDelta only
    | dsimp only

theorem execRot_keep (ps : Fin 18) (u : Fin 55) (w : DWord) (s : State) : KeepR 0x3EDF100AB s (execRot ps u w s) := by
  unfold execRot
  repeat' first
    | exact rfl
    | with_reducible apply Keep.refl
    | with_reducible assumption
    | with_reducible apply KeepR.refused
    | with_reducible apply KeepR.next
    | with_reducible apply KeepR.via (State.fireRow_keep ..)
    | dsimp -proj only
    | ((with_reducible conv => arg 3; whnf); first | split)
    | dsimp -proj +zetaDelta only
    | dsimp only

theorem execBlk_keep (ps : Fin 18) (u : Fin 55) (w : DWord) (s : State) : KeepR 0x3EDF100AB s (execBlk ps u w s) := by
  unfold execBlk
  repeat' first
    | exact rfl
    | with_reducible apply Keep.refl
    | with_reducible assumption
    | with_reducible apply KeepR.refused
    | with_reducible apply KeepR.next
    | with_reducible apply KeepR.via (State.fireRow_keep ..)
    | dsimp -proj only
    | ((with_reducible conv => arg 3; whnf); first | split)
    | dsimp -proj +zetaDelta only
    | dsimp only

theorem execMrg_keep (ps : Fin 18) (u : Fin 55) (w : DWord) (s : State) : KeepR 0x3EDF100AB s (execMrg ps u w s) := by
  unfold execMrg
  repeat' first
    | exact rfl
    | with_reducible apply Keep.refl
    | with_reducible assumption
    | with_reducible apply KeepR.refused
    | with_reducible apply KeepR.next
    | with_reducible apply KeepR.via (State.fireRow_keep ..)
    | dsimp -proj only
    | ((with_reducible conv => arg 3; whnf); first | split)
    | dsimp -proj +zetaDelta only
    | dsimp only

theorem execFin_keep (ps : Fin 18) (u : Fin 55) (w : DWord) (s : State) : KeepR 0x3EDF100AB s (execFin ps u w s) := by
  unfold execFin
  repeat' first
    | exact rfl
    | with_reducible apply Keep.refl
    | with_reducible assumption
    | with_reducible apply KeepR.refused
    | with_reducible apply KeepR.next
    | with_reducible apply KeepR.via (State.fireRow_keep ..)
    | dsimp -proj only
    | ((with_reducible conv => arg 3; whnf); first | split)
    | dsimp -proj +zetaDelta only
    | dsimp only

theorem execSeqSpill_keep (ps : Fin 18) (u : Fin 55) (w : DWord) (s : State) : KeepR 0x3EDF100AB s (execSeqSpill ps u w s) := by
  unfold execSeqSpill
  repeat' first
    | exact rfl
    | with_reducible apply Keep.refl
    | with_reducible assumption
    | with_reducible apply KeepR.refused
    | with_reducible apply KeepR.next
    | with_reducible apply KeepR.via (State.fireRow_keep ..)
    | dsimp -proj only
    | ((with_reducible conv => arg 3; whnf); first | split)
    | dsimp -proj +zetaDelta only
    | dsimp only

theorem execTopk_keep (ps : Fin 18) (u : Fin 55) (w : DWord) (s : State) : KeepR 0x3EDF100AB s (execTopk ps u w s) := by
  unfold execTopk
  repeat' first
    | exact rfl
    | with_reducible apply Keep.refl
    | with_reducible assumption
    | with_reducible apply KeepR.refused
    | with_reducible apply KeepR.next
    | with_reducible apply KeepR.via (State.fireRow_keep ..)
    | dsimp -proj only
    | ((with_reducible conv => arg 3; whnf); first | split)
    | dsimp -proj +zetaDelta only
    | dsimp only

theorem execPost_keep (ps : Fin 18) (u : Fin 55) (w : DWord) (s : State) : KeepR 0x3EDF100AB s (execPost ps u w s) := by
  unfold execPost
  repeat' first
    | exact rfl
    | with_reducible apply Keep.refl
    | with_reducible assumption
    | with_reducible apply KeepR.refused
    | with_reducible apply KeepR.next
    | with_reducible apply KeepR.via (State.fireRow_keep ..)
    | dsimp -proj only
    | ((with_reducible conv => arg 3; whnf); first | split)
    | dsimp -proj +zetaDelta only
    | dsimp only

theorem execGrant_keep (ps : Fin 18) (u : Fin 55) (w : DWord) (s : State) : KeepR 0x3EDF100AB s (execGrant ps u w s) := by
  unfold execGrant
  repeat' first
    | exact rfl
    | with_reducible apply Keep.refl
    | with_reducible assumption
    | with_reducible apply KeepR.refused
    | with_reducible apply KeepR.next
    | with_reducible apply KeepR.via (State.fireRow_keep ..)
    | dsimp -proj only
    | ((with_reducible conv => arg 3; whnf); first | split)
    | dsimp -proj +zetaDelta only
    | dsimp only

theorem execScatter_keep (ps : Fin 18) (u : Fin 55) (w : DWord) (s : State) : KeepR 0x3EDF100AB s (execScatter ps u w s) := by
  unfold execScatter
  repeat' first
    | exact rfl
    | with_reducible apply Keep.refl
    | with_reducible assumption
    | with_reducible apply KeepR.refused
    | with_reducible apply KeepR.next
    | with_reducible apply KeepR.via (State.fireRow_keep ..)
    | dsimp -proj only
    | ((with_reducible conv => arg 3; whnf); first | split)
    | dsimp -proj +zetaDelta only
    | dsimp only

theorem execDspReturn_keep (ps : Fin 18) (u : Fin 55) (w : DWord) (s : State) : KeepR 0x3EDF100AB s (execDspReturn ps u w s) := by
  unfold execDspReturn
  repeat' first
    | exact rfl
    | with_reducible apply Keep.refl
    | with_reducible assumption
    | with_reducible apply KeepR.refused
    | with_reducible apply KeepR.next
    | with_reducible apply KeepR.via (State.fireRow_keep ..)
    | dsimp -proj only
    | ((with_reducible conv => arg 3; whnf); first | split)
    | dsimp -proj +zetaDelta only
    | dsimp only

theorem execTreset_keep (ps : Fin 18) (u : Fin 55) (w : DWord) (s : State) : KeepR 0x3EDF100AB s (execTreset ps u w s) := by
  unfold execTreset
  repeat' first
    | exact rfl
    | with_reducible apply Keep.refl
    | with_reducible assumption
    | with_reducible apply KeepR.refused
    | with_reducible apply KeepR.next
    | with_reducible apply KeepR.via (State.fireRow_keep ..)
    | dsimp -proj only
    | ((with_reducible conv => arg 3; whnf); first | split)
    | dsimp -proj +zetaDelta only
    | dsimp only

theorem execBread_keep (ps : Fin 18) (u : Fin 55) (w : DWord) (f : Flips) (s : State) : KeepR 0x3EDF100AB s (execBread ps u w f s) := by
  unfold execBread
  repeat' first
    | exact rfl
    | with_reducible apply Keep.refl
    | with_reducible assumption
    | with_reducible apply KeepR.refused
    | with_reducible apply KeepR.next
    | with_reducible apply KeepR.via (State.fireRow_keep ..)
    | dsimp -proj only
    | ((with_reducible conv => arg 3; whnf); first | split)
    | dsimp -proj +zetaDelta only
    | dsimp only

theorem execBwrite_keep (ps : Fin 18) (u : Fin 55) (w : DWord) (f : Flips) (s : State) : KeepR 0x3EDF100AB s (execBwrite ps u w f s) := by
  unfold execBwrite
  repeat' first
    | exact rfl
    | with_reducible apply Keep.refl
    | with_reducible assumption
    | with_reducible apply KeepR.refused
    | with_reducible apply KeepR.next
    | with_reducible apply KeepR.via (State.fireRow_keep ..)
    | dsimp -proj only
    | ((with_reducible conv => arg 3; whnf); first | split)
    | dsimp -proj +zetaDelta only
    | dsimp only

theorem execRd_keep (ps : Fin 18) (u : Fin 55) (w : DWord) (s : State) : KeepR 0x3EDF100AB s (execRd ps u w s) := by
  unfold execRd
  repeat' first
    | exact rfl
    | with_reducible apply Keep.refl
    | with_reducible assumption
    | with_reducible apply KeepR.refused
    | with_reducible apply KeepR.next
    | with_reducible apply KeepR.via (State.fireRow_keep ..)
    | dsimp -proj only
    | ((with_reducible conv => arg 3; whnf); first | split)
    | dsimp -proj +zetaDelta only
    | dsimp only

theorem execWr_keep (ps : Fin 18) (u : Fin 55) (w : DWord) (s : State) : KeepR 0x3EDF100AB s (execWr ps u w s) := by
  unfold execWr
  repeat' first
    | exact rfl
    | with_reducible apply Keep.refl
    | with_reducible assumption
    | with_reducible apply KeepR.refused
    | with_reducible apply KeepR.next
    | with_reducible apply KeepR.via (State.fireRow_keep ..)
    | dsimp -proj only
    | ((with_reducible conv => arg 3; whnf); first | split)
    | dsimp -proj +zetaDelta only
    | dsimp only

theorem execAtom_keep (ps : Fin 18) (u : Fin 55) (w : DWord) (s : State) : KeepR 0x3EDF100AB s (execAtom ps u w s) := by
  unfold execAtom
  repeat' first
    | exact rfl
    | with_reducible apply Keep.refl
    | with_reducible assumption
    | with_reducible apply KeepR.refused
    | with_reducible apply KeepR.next
    | with_reducible apply KeepR.via (State.fireRow_keep ..)
    | dsimp -proj only
    | ((with_reducible conv => arg 3; whnf); first | split)
    | dsimp -proj +zetaDelta only
    | dsimp only

theorem execRecv_keep (ps : Fin 18) (u : Fin 55) (w : DWord) (s : State) : KeepR 0x3EDF100AB s (execRecv ps u w s) := by
  unfold execRecv
  repeat' first
    | exact rfl
    | with_reducible apply Keep.refl
    | with_reducible assumption
    | with_reducible apply KeepR.refused
    | with_reducible apply KeepR.next
    | with_reducible apply KeepR.via (State.fireRow_keep ..)
    | dsimp -proj only
    | ((with_reducible conv => arg 3; whnf); first | split)
    | dsimp -proj +zetaDelta only
    | dsimp only

theorem execSend_keep (ps : Fin 18) (u : Fin 55) (w : DWord) (s : State) : KeepR 0x3EDF100AB s (execSend ps u w s) := by
  unfold execSend
  repeat' first
    | exact rfl
    | with_reducible apply Keep.refl
    | with_reducible assumption
    | with_reducible apply KeepR.refused
    | with_reducible apply KeepR.next
    | with_reducible apply KeepR.via (State.fireRow_keep ..)
    | dsimp -proj only
    | ((with_reducible conv => arg 3; whnf); first | split)
    | dsimp -proj +zetaDelta only
    | dsimp only

theorem execWatch_keep (ps : Fin 18) (u : Fin 55) (w : DWord) (s : State) : KeepR 0x3EDF100AB s (execWatch ps u w s) := by
  unfold execWatch
  repeat' first
    | exact rfl
    | with_reducible apply Keep.refl
    | with_reducible assumption
    | with_reducible apply KeepR.refused
    | with_reducible apply KeepR.next
    | with_reducible apply KeepR.via (State.fireRow_keep ..)
    | dsimp -proj only
    | ((with_reducible conv => arg 3; whnf); first | split)
    | dsimp -proj +zetaDelta only
    | dsimp only

theorem execSluiceRelease_keep (ps : Fin 18) (u : Fin 55) (w : DWord) (s : State) : KeepR 0x3EDF100AB s (execSluiceRelease ps u w s) := by
  unfold execSluiceRelease
  repeat' first
    | exact rfl
    | with_reducible apply Keep.refl
    | with_reducible assumption
    | with_reducible apply KeepR.refused
    | with_reducible apply KeepR.next
    | with_reducible apply KeepR.via (State.fireRow_keep ..)
    | dsimp -proj only
    | ((with_reducible conv => arg 3; whnf); first | split)
    | dsimp -proj +zetaDelta only
    | dsimp only


end Sys2Proof.Machine
end

