-- ==== Sys2Proof/Laws/KeepTick.lean ====
section
/-! SUPPORT. What each operation of Machine/Tick.lean leaves alone (Laws/Keep.lean). -/

namespace Sys2Proof.Machine

set_option linter.unusedTactic false
set_option linter.unreachableTactic false

theorem State.ptpTick_keep (s : State) : Keep 0x3BFFFFFFB s (State.ptpTick s) := by
  unfold State.ptpTick
  repeat' first
    | exact rfl
    | with_reducible apply Keep.refl
    | with_reducible assumption
    | with_reducible apply Keep.via (State.wr_keep ..)
    | with_reducible apply Keep.via (State.wf_keep ..)
    | with_reducible apply Keep.ite
    | split
    | extract_lets
    | dsimp -proj only
    | ((with_reducible conv => arg 3; whnf); first | split | with_reducible apply Keep.setMgmt)
    | dsimp -proj +zetaDelta only
    | dsimp only

theorem State.aTick_keep (s : State) : Keep 0x3FFEFFFFB s (State.aTick s) := by
  unfold State.aTick
  repeat' first
    | exact rfl
    | with_reducible apply Keep.refl
    | with_reducible assumption
    | with_reducible apply Keep.via (State.add64_keep ..)
    | extract_lets
    | dsimp -proj only
    | ((with_reducible conv => arg 3; whnf); first | split | with_reducible apply Keep.setClk)
    | dsimp -proj +zetaDelta only
    | dsimp only

theorem State.refTick_keep (s : State) : Keep 0x389210CB9 s (State.refTick s) := by
  unfold State.refTick
  repeat' first
    | exact rfl
    | with_reducible apply Keep.refl
    | with_reducible assumption
    | with_reducible apply Keep.via (State.transmit_keep ..)
    | with_reducible apply Keep.via (State.aTick_keep ..)
    | with_reducible apply Keep.via (State.ptpTick_keep ..)
    | with_reducible apply Keep.via (State.dikeDone_keep ..)
    | with_reducible apply Keep.via (State.dogTick_keep ..)
    | with_reducible apply Keep.via (State.chanReports_keep ..)
    | with_reducible apply Keep.foldl
    | with_reducible apply Keep.foldl_snd
    | with_reducible apply Keep.foldl_fst
    | (intro _ _)
    | extract_lets
    | dsimp -proj only
    | ((with_reducible conv => arg 3; whnf); first | split | with_reducible apply Keep.setNow)
    | dsimp -proj +zetaDelta only
    | dsimp only

theorem State.tick_keep (s : State) : Keep 0x381210CB9 s (State.tick s) := by
  unfold State.tick
  repeat' first
    | exact rfl
    | with_reducible apply Keep.refl
    | with_reducible assumption
    | with_reducible apply Keep.via (State.wf_keep ..)
    | with_reducible apply Keep.via (State.refTick_keep ..)
    | with_reducible apply Keep.ite
    | split
    | extract_lets
    | dsimp -proj only
    | ((with_reducible conv => arg 3; whnf); first | split | with_reducible apply Keep.setWall)
    | dsimp -proj +zetaDelta only
    | dsimp only


end Sys2Proof.Machine
end

