-- ==== Sys2Proof/WellFormed.lean ====
section
/-! DEFINITION. Which commands have operands of their row: a slot word that is the row's operation and one a skein may
hold, a packet that is a request of the row's opcode.  Every other operand's range is its type's. -/

namespace Sys2Proof

open Sys2Proof.Machine

/-- The operands of a command are those of its row. -/
def Instr.wellFormed (i : Instr) : Bool :=
  match i with
  | .pwrEnRise _ _ => true
  | .pwrEnFall => true
  | .powerGroupGood => true
  | .powerGroupTimeout => true
  | .inputSample _ => true
  | .moduleThermalTrip => true
  | .regAccessTimeout _ _ _ => true
  | .reg64LowRead _ _ _ => true
  | .regWriteOther _ _ _ _ => true
  | .exec _ _ _ => true
  | .idle _ _ => true
  | .loop _ _ => true
  | .sectionEnd _ _ => true
  | .sectionDrained _ => true
  | .sectionLoadProceed _ _ _ _ => true
  | .step _ _ _ => true
  | .contextEnd _ _ => true
  | .positionReport _ _ => true
  | .minposBroadcast _ _ => true
  | .tokenArrival _ _ _ _ _ => true
  | .sluiceFill _ _ _ _ _ _ => true
  | .sluiceRelease _ u w => slotIs .sluice 0 u w && slotOk u w
  | .completionAck _ _ _ _ => true
  | .mac _ u w => slotIs .tile 1 u w && slotOk u w
  | .loadw _ u w => slotIs .tile 2 u w && slotOk u w
  | .clear _ u w => slotIs .tile 3 u w && slotOk u w
  | .read _ u w => slotIs .tile 4 u w && slotOk u w
  | .spill _ u w => slotIs .tile 5 u w && slotOk u w
  | .load _ u w => slotIs .tile 6 u w && slotOk u w
  | .merge _ u w => slotIs .tile 7 u w && slotOk u w
  | .add _ u w => slotIs .vec 1 u w && slotOk u w
  | .sub _ u w => slotIs .vec 2 u w && slotOk u w
  | .mul _ u w => slotIs .vec 3 u w && slotOk u w
  | .fma _ u w => slotIs .vec 4 u w && slotOk u w
  | .min _ u w => slotIs .vec 5 u w && slotOk u w
  | .max _ u w => slotIs .vec 6 u w && slotOk u w
  | .cmp _ u w => slotIs .vec 7 u w && slotOk u w
  | .cvt _ u w => slotIs .vec 8 u w && slotOk u w
  | .red _ u w => slotIs .vec 9 u w && slotOk u w
  | .mov _ u w => slotIs .vec 11 u w && slotOk u w
  | .rng _ u w => slotIs .vec 12 u w && slotOk u w
  | .nz _ u w => compIs 0 u w && slotOk u w
  | .pack _ u w => compIs 1 u w && slotOk u w
  | .flush _ u w => compIs 2 u w && slotOk u w
  | .xin _ u w => compIs 3 u w && slotOk u w
  | .xout _ u w => compIs 4 u w && slotOk u w
  | .pcnt _ u w => compIs 5 u w && slotOk u w
  | .exp2 _ u w => slotIs .sfu 0 u w && slotOk u w
  | .log2 _ u w => slotIs .sfu 1 u w && slotOk u w
  | .reciprocal _ u w => slotIs .sfu 2 u w && slotOk u w
  | .reciprocalSquareRoot _ u w => slotIs .sfu 3 u w && slotOk u w
  | .sin _ u w => slotIs .sfu 4 u w && slotOk u w
  | .cos _ u w => slotIs .sfu 5 u w && slotOk u w
  | .switch _ u w => slotIs .steer 0 u w && slotOk u w
  | .steerMerge _ u w => slotIs .steer 1 u w && slotOk u w
  | .gate _ u w => slotIs .steer 2 u w && slotOk u w
  | .split _ u w => slotIs .steer 3 u w && slotOk u w
  | .count _ u w => slotIs .steer 4 u w && slotOk u w
  | .phase _ u w => slotIs .seq 1 u w && slotOk u w
  | .rot _ u w => slotIs .seq 2 u w && slotOk u w
  | .blk _ u w => slotIs .seq 3 u w && slotOk u w
  | .mrg _ u w => slotIs .seq 4 u w && slotOk u w
  | .mergeEngineComplete _ _ => true
  | .fin _ u w => slotIs .seq 5 u w && slotOk u w
  | .seqSpill _ u w => slotIs .seq 6 u w && slotOk u w
  | .topk _ u w => slotIs .dsp 1 u w && slotOk u w
  | .post _ u w => slotIs .dsp 2 u w && slotOk u w
  | .grant _ u w => slotIs .dsp 3 u w && slotOk u w
  | .scatter _ u w => slotIs .dsp 4 u w && slotOk u w
  | .dspReturn _ u w => slotIs .dsp 5 u w && slotOk u w
  | .treset _ u w => slotIs .dsp 6 u w && slotOk u w
  | .postJob _ => true
  | .grantJob _ _ => true
  | .scatterJob _ _ => true
  | .returnJob _ _ => true
  | .tresetJob _ => true
  | .dispatchArrival _ _ _ => true
  | .dspArrivalTimeout _ _ => true
  | .bread _ u w _ => slotIs .mem 1 u w && slotOk u w
  | .bwrite _ u w _ => slotIs .mem 2 u w && slotOk u w
  | .rd _ u w => slotIs .mem 3 u w && slotOk u w
  | .wr _ u w => slotIs .mem 4 u w && slotOk u w
  | .atom _ u w => slotIs .mem 5 u w && slotOk u w
  | .recv _ u w => slotIs .mem 6 u w && slotOk u w
  | .send _ u w => slotIs .mem 7 u w && slotOk u w
  | .watch _ u w => slotIs .mem 8 u w && slotOk u w
  | .bankExternalAccess _ _ _ => true
  | .bankSteal _ _ _ _ => true
  | .spnSectCtlForce _ => true
  | .forcedLoadResume _ _ => true
  | .stopAtEnd _ _ => true
  | .drainRequest _ _ => true
  | .drainPointReached _ => true
  | .runEmptyDrainDone _ _ => true
  | .drainLimitExpiry _ => true
  | .scanDrainOpsDone _ _ => true
  | .drainSaveWritten _ => true
  | .spindleRestore _ _ => true
  | .spindleRestoreProceed _ _ => true
  | .ctxLoadValidated _ => true
  | .quantumExpiry => true
  | .contextSwitchDrained _ => true
  | .dramRequest _ _ _ => true
  | .repairCopyDone _ _ => true
  | .repairCopyTimeout _ => true
  | .scrubStep _ _ => true
  | .refresh _ => true
  | .stackSensorRead _ _ => true
  | .selfRefreshExitTimeout _ => true
  | .memStripeWrite _ _ _ => true
  | .memChFence _ => true
  | .sramScrub _ _ _ _ => true
  | .ringFlitArrival _ _ _ _ _ _ _ => true
  | .injectionStarve _ _ _ => true
  | .ringOpTimeout _ _ => true
  | .eventRecord _ _ => true
  | .channelMessage _ => true
  | .channelAccept _ => true
  | .channelClosed _ => true
  | .channelCredit _ => true
  | .closeNotice _ => true
  | .endMark _ => true
  | .stallThreshold _ => true
  | .trainingStart _ => true
  | .trainingComplete _ _ _ _ _ => true
  | .trainingTimeout _ => true
  | .retryTimerExpiry _ => true
  | .linkSignalLoss _ => true
  | .portCtlRetrain _ => true
  | .frameReceive _ _ _ _ _ _ => true
  | .fabWrite _ _ _ => true
  | .fabReadRequest _ _ _ => true
  | .fabReadResponse _ _ => true
  | .fabAtomic _ _ _ => true
  | .fabMulticastWrite _ _ _ => true
  | .fabAck _ _ => true
  | .fabOpTimeout _ _ => true
  | .fabRxTimeout => true
  | .tombstoneExpiry => true
  | .hopTimeout => true
  | .epochSwitchAtTime => true
  | .epochGuardExpiry => true
  | .fabEpochWrite _ => true
  | .collPoll _ => true
  | .reduceContribution _ _ _ => true
  | .collReportArrival _ _ _ => true
  | .collAgreedSetArrival _ _ _ => true
  | .collResultArrival _ _ _ => true
  | .collDeadlineExpiry _ _ => true
  | .collAgreeTimeout _ _ => true
  | .collResultTimeout _ _ => true
  | .heartbeatInterval => true
  | .heartbeat _ _ => true
  | .breachNotice _ _ => true
  | .realignment => true
  | .detAlignRealign => true
  | .sealDigestDone _ _ _ => true
  | .recordSigned _ => true
  | .deferredChangeApply => true
  | .testWaveDone _ => true
  | .testTimeout _ => true
  | .mapRiseApply => true
  | .spareTransfer _ => true
  | .rollTestDue => true
  | .rollTestDone _ => true
  | .rollWaitTimeout => true
  | .ageingReading _ _ => true
  | .pohSave => true
  | .resetRequest _ _ => true
  | .resetAssert _ => true
  | .resetInit _ _ => true
  | .resetComplete _ => true
  | .resetTimeout _ => true
  | .sysResetNAssert => true
  | .sysResetNRelease _ => true
  | .progressWatchdogExpiry _ => true
  | .stallHangThreshold _ => true
  | .ckptHeaderAcked _ => true
  | .ckptDrainComplete => true
  | .ckptCommitted => true
  | .ckptDrainTimeout => true
  | .restoreHeaderRead => true
  | .restoreDataDone _ => true
  | .refclkLost _ => true
  | .refclkRestored => true
  | .refBothLost => true
  | .freqChangeRequest => true
  | .freqChangeBroadcast _ => true
  | .freqSwitch => true
  | .freqVoltageSettled => true
  | .pllLockTimeout => true
  | .droopDetect _ => true
  | .stretchWindowEnd => true
  | .droopReturn => true
  | .safeClockStepUp => true
  | .capWindowEnd => true
  | .powerAvg1ms _ => true
  | .junctionSensorRead _ => true
  | .thermStepTimer => true
  | .domainRegulationFault _ => true
  | .pwrGateWrite _ => true
  | .telemetryRefresh _ => true
  | .i3cRead _ _ _ => true
  | .flashSidebandCmd _ _ => true
  | .lockstepMismatch => true
  | .mgmtFrameReceive _ _ => true
  | .virtioNetTransmit _ _ => true
  | .corePoisonFault _ _ _ => true
  | .ppsEdge _ _ => true
  | .mgmtPtpSetWrite _ _ => true
  | .ppsEvClear => true
  | .mgmtCoreRunWrite _ => true
  | .spnNumFlagsWrite _ _ _ => true
  | .debugUnlock _ => true
  | .debugRelock _ => true
  | .sessionConfirmTimeout => true
  | .sessionIdleTimeout => true
  | .sessionLifetimeExpiry => true
  | .qnonceExpiry => true
  | .leaseExpiry => true
  | .cmdLcpInWrite _ => true
  | .cmdLcpOutRead _ => true
  | .resync => true
  | .lcpAssemblyTimeout => true
  | .cmdQueueTimeout => true
  | .aFirstLimit => true
  | .identGet r => reqIs 0x0101 r
  | .stateGet r => reqIs 0x0102 r
  | .inventoryGet r => reqIs 0x0103 r
  | .certGet r => reqIs 0x0104 r
  | .mgmtAddrSet r => reqIs 0x0105 r
  | .sessionOpen r => reqIs 0x0110 r
  | .sessionConfirm r => reqIs 0x0111 r
  | .sessionClose r => reqIs 0x0112 r
  | .leaseAcquire r => reqIs 0x0118 r
  | .leaseRenew r => reqIs 0x0119 r
  | .leaseRelease r => reqIs 0x011A r
  | .leaseTakeover r => reqIs 0x011B r
  | .leaseGet r => reqIs 0x011C r
  | .qnonceGet r => reqIs 0x0120 r
  | .keytabGet r => reqIs 0x0121 r
  | .keytabInit r => reqIs 0x0122 r
  | .keytabSet r => reqIs 0x0123 r
  | .keytabRestore r => reqIs 0x0124 r
  | .clkPlanSet r => reqIs 0x0201 r
  | .pwrCapSet r => reqIs 0x0202 r
  | .domainGate r => reqIs 0x0203 r
  | .clkpwrGet r => reqIs 0x0204 r
  | .ctxLoad r => reqIs 0x0301 r
  | .ctxUnload r => reqIs 0x0302 r
  | .ctxSwitch r => reqIs 0x0303 r
  | .ctxStatus r => reqIs 0x0304 r
  | .quantumSet r => reqIs 0x0305 r
  | .stripeSet r => reqIs 0x0306 r
  | .spnGet r => reqIs 0x0307 r
  | .chnGet r => reqIs 0x0308 r
  | .fence r => reqIs 0x0401 r
  | .returnUnit r => reqIs 0x0402 r
  | .returnTestDone _ => true
  | .rowRepair r => reqIs 0x0403 r
  | .fuseBurn r _ => reqIs 0x0404 r
  | .spolSet r => reqIs 0x0405 r
  | .marginClear r => reqIs 0x0406 r
  | .chanCfg r => reqIs 0x0407 r
  | .repairGet r => reqIs 0x0408 r
  | .testPolicySet r => reqIs 0x0501 r
  | .rollCfg r => reqIs 0x0502 r
  | .testGet r => reqIs 0x0503 r
  | .reset r => reqIs 0x0601 r
  | .suspectGet r => reqIs 0x0602 r
  | .suspectClear r => reqIs 0x0603 r
  | .quarStart r => reqIs 0x0604 r
  | .quarEnd r => reqIs 0x0605 r
  | .hangCfg r => reqIs 0x0606 r
  | .coordSet r => reqIs 0x0701 r
  | .fabAddrSet r => reqIs 0x0702 r
  | .rtWrite r => reqIs 0x0703 r
  | .mcWrite r => reqIs 0x0704 r
  | .epochSwitch r => reqIs 0x0705 r
  | .portCfg r => reqIs 0x0706 r
  | .portAct r => reqIs 0x0707 r
  | .portGwSet r => reqIs 0x0708 r
  | .topoGet r => reqIs 0x0709 r
  | .dikeSet r => reqIs 0x070A r
  | .watchSet r => reqIs 0x070B r
  | .peerClear r => reqIs 0x070C r
  | .shadowSet r => reqIs 0x070D r
  | .shadowPromote r => reqIs 0x070E r
  | .collCfg r => reqIs 0x070F r
  | .withdraw r => reqIs 0x0710 r
  | .returnService r => reqIs 0x0711 r
  | .ckptSetup r _ => reqIs 0x0801 r
  | .ckptNow r => reqIs 0x0802 r
  | .restore r => reqIs 0x0803 r
  | .reelCfg r => reqIs 0x0804 r
  | .reelGet r => reqIs 0x0805 r
  | .quote r => reqIs 0x0901 r
  | .measExtend r => reqIs 0x0902 r
  | .sealRegion r => reqIs 0x0903 r
  | .recordCut r => reqIs 0x0904 r
  | .recordRead r => reqIs 0x0905 r
  | .recordRelease r => reqIs 0x0906 r
  | .detGet r => reqIs 0x0907 r
  | .calRead r => reqIs 0x0A01 r
  | .calWrite r => reqIs 0x0A02 r
  | .calWriteDone => true
  | .logRead r => reqIs 0x0B01 r
  | .telemGet r => reqIs 0x0B02 r
  | .regReadBasic r => reqIs 0x0B03 r
  | .cmdStatus r => reqIs 0x0B04 r
  | .regRead r => reqIs 0x0C01 r
  | .regWrite r => reqIs 0x0C02 r
  | .regModify r => reqIs 0x0C03 r
  | .startupProc _ => true
  | .startupStraps _ => true
  | .strapResample _ => true
  | .startupFuses _ => true
  | .startupClocks _ _ => true
  | .startupCal => true
  | .startupDram _ => true
  | .startupTest => true
  | .startupAccept => true
  | .startupCoord => true
  | .coordWaitExpiry => true
  | .startupLinks => true
  | .startupImage => true
  | .tftpBlock _ _ => true
  | .tftpRetransmit => true
  | .startupLaunch => true
  | .startupPhaseLimit => true
  | .seamCrossingLoss _ => true
  | .holdoverLost => true
  | .mgmtLinkUp => true
  | .mgmtLinkLoss => true
  | .mgmtSpeedAlternate => true
  | .consoleReceive _ => true
  | .consoleTransmit _ => true
  | .rcRead _ _ _ => true
  | .sknStatusRead _ => true
  | .cmdDevStateRead _ => true
  | .coreAccessFault _ _ _ _ => true
  | .i3cDynamicAddress _ => true
  | .dhcpReply _ _ _ => true

end Sys2Proof
end

