-- ==== Sys2Proof/Tests/Slice0.lean ====
section
/-! SUPPORT. The model's own tests: the check of operands with a bad term for each of its conditions, a state and operands that
meet the hypotheses of each statement, and a few single steps whose results the manual gives. -/

namespace Sys2Proof.Tests

set_option Elab.async false

open Sys2Proof Sys2Proof.Machine

/-! ### Small states and words. -/

/-- A word from fields `(lo, value)`. -/
def fld (l : List (Nat × Nat)) : DWord := BitVec.ofNat 64 ((l.map (fun x => x.2 * 2 ^ x.1)).sum)

/-- `State.Inv`, computed. -/
def invOk (s : State) : Bool :=
  Memory.wf s.mem && twf false s.poison && twf 0 s.regs && twf 0 s.flash && decide (s.log.length ≤ 4096) && twf {} s.nodes &&
    s.nodes.all (fun p => decide (p.2.recs.length ≤ 8)) && twf {} s.spns && twf {} s.chans && twf none s.latch &&
    decide (s.cq.queue.length ≤ 64) && decide (s.cq.replies.length ≤ 4)

theorem inv_of {s : State} (h : invOk s = true) : s.Inv := by
  simp only [invOk, Bool.and_eq_true, decide_eq_true_eq, List.all_eq_true] at h
  obtain ⟨⟨⟨⟨⟨⟨⟨⟨⟨⟨⟨h1, h2⟩, h3⟩, h4⟩, h5⟩, h6⟩, h7⟩, h8⟩, h9⟩, h10⟩, h11⟩, h12⟩ := h
  exact ⟨h1, h2, h3, h4, h5, ⟨h6, h7⟩, h8, h9, h10, ⟨h11, h12⟩⟩

/-- `Fires`, computed. -/
def firesOk (s : State) (ps u : Nat) (w : DWord) : Bool :=
  invOk s && s.strandRuns ps && decide (cycleHolds (s.spn ps) (s.gen ps) (s.spn ps).store [(u, w)] = 0) &&
    (match ctlPort (s.spn ps) u w with
     | some (p, _, ty) => ctlBad (s.slotTok ps u w p) ty == none
     | none => true)

theorem fires_of {s : State} {ps u : Nat} {w : DWord} (h : firesOk s ps u w = true) : Fires s ps u w := by
  simp only [firesOk, Bool.and_eq_true, decide_eq_true_eq] at h
  obtain ⟨⟨⟨h1, h2⟩, h3⟩, h4⟩ := h
  refine ⟨inv_of h1, h2, h3, fun p t ty hc => ?_⟩
  rw [hc] at h4
  simpa using h4

/-- The hypotheses of a slot operation's statement, all of them. -/
def Meets (k : UnitKind) (op : Nat) (H : State → Nat → Nat → DWord → Prop) : Prop :=
  ∃ (s : State) (ps : Fin 18) (u : Fin 55) (w : DWord), Fires s ps u w ∧ slotIs k op u w = true ∧ slotOk u w = true ∧ H s ps u w

theorem meets_of {k op H} (s : State) (ps : Fin 18) (u : Fin 55) (w : DWord)
    (h : (firesOk s ps u w && slotIs k op u w && slotOk u w) = true) (hH : H s ps u w) : Meets k op H := by
  simp only [Bool.and_eq_true] at h
  exact ⟨s, ps, u, w, fires_of h.1.1, h.1.2, h.2, hH⟩

/-- The state right after reset but for what `x` holds of spindle 3, which runs. -/
def run3 (x : Spn) : State := (State.reset.setSpn 3 x).wf (Reg.SPN_STATE 3) 2 0 1

/-- A data flit of tag 0. -/
def flit (d : Nat) : Flit := { data := BitVec.ofNat 2048 d }

/-- A predicate token whose mask is `m`. -/
def pred (m : Nat) : Flit := predTok m 0 0 0

/-- A trip token. -/
def trip (n : Nat) : Flit := tripTok n 0 0 false

/-- Spindle 3 running with flits on the ports of unit `u`. -/
def toks (x : Spn) (u : Nat) (l : List (Nat × Flit)) : State := run3 { x with store := l.map (fun p => ⟨u, p.1, p.2⟩) }

theorem of_some {α : Type} {o : Option α} {a : α} {P : α → Prop} (ho : o = some a) (h : P a) : ∀ c, o = some c → P c := fun c hc => by
  rw [ho] at hc
  exact Option.some.inj hc ▸ h

/-- A context of one logical spindle, running. -/
def job1 : Slot := { ctx := 0x11, st := .running, job := {}, lcount := 1, tstrict := false, numMode := 0, digest := [] }

/-- `s` with context 0x11 running from slot 1 and logical spindle 0 on physical spindle 3. -/
def withJob (s : State) (j : Slot) : State :=
  (((({ s with seqr := { s.seqr with slots := [(1, some j)] } } : State).wr Reg.SKN_STATUS (0x110000 + 1 * 2 ^ 8)).wr (Reg.SKN_LMAP 0) 0x10003).wf
    Reg.SKN_SPARE_ST 12 8 1)

/-- The same with spindle 3 running. -/
def live (x : Spn) (j : Slot) : State := withJob (run3 x) j

/-- A dispatch job. -/
def djob (k : JobKind) : DspJob := { kind := k, pset := 0, otag := 0, oport := 0, op := 0 }

/-- An operation in flight. -/
def op1 (k : OpKind) : OpEnt :=
  { id := 1, kind := k, gen := 0, fwd := false, sl := 0, tag := 0, cnt := 0, addr := 0, len := 8, left := 1, issued := 0, poison := false, seq := 0 }

/-- `State.EventRoom`, computed. -/
def roomOk (s : State) (code unit : Nat) : Bool :=
  match nodeOf code unit with
  | none => decide (s.log.length < 4096)
  | some n => decide ((tget {} s.nodes n).recs.length < 8)

theorem room_of {s : State} {code unit : Nat} (h : roomOk s code unit = true) : s.EventRoom code unit := by
  unfold roomOk at h
  unfold State.EventRoom
  split <;> rename_i hn <;> rw [hn] at h <;> simpa using h

/-! ### Slots: a state, a word and tokens that meet the hypotheses of each slot operation's statement. -/

theorem witness_tile :
    Meets .tile 1 (fun s ps u w => ∃ bf, (tget {} (s.spn ps).tiles u).fmt = some bf ∧ family bf = family (tileFmt w) ∧
        (tget {} (s.spn ps).tiles u).spm = tileSpm w ∧ ¬ (tileFmt w = 8 ∧ bf = 8) ∧
        (macGroup (s.spn ps).acc u (tget {} (s.spn ps).tiles u) (s.slotTok ps u w 0) (tileFmt w) (tileSpm w) (tileH w) (tileAgrp w)).2.1 = false) ∧
      Meets .tile 2 (fun _ _ _ w => tileSpm w = 0) ∧
      Meets .tile 3 (fun _ _ _ _ => True) ∧
      Meets .tile 4 (fun _ _ _ w => tileFmt w ≠ 0) ∧
      Meets .tile 4 (fun _ _ _ w => tileFmt w = 0) ∧
      Meets .tile 5 (fun _ _ _ _ => True) ∧
      Meets .tile 6 (fun s ps u w => ∃ a, accLoad (tget {} (s.spn ps).acc (tileAccKey u w)) (flitRecord (s.slotTok ps u w 2)).1 (flitRecord (s.slotTok ps u w 2)).2 = .ok a) ∧
      Meets .tile 7 (fun s ps u w => ∃ a, accMerge (tget {} (s.spn ps).acc (tileAccKey u w)) (flitRecord (s.slotTok ps u w 2)).1 (flitRecord (s.slotTok ps u w 2)).2 = .ok a) :=
  ⟨meets_of (toks { tiles := [(0, { fmt := some 2, spm := 4 })] } 0 [(0, flit 0x38)]) 3 0 (fld [(60, 1), (51, 2), (55, 31), (12, 4)]) (by decide +kernel) ⟨2, by decide +kernel⟩,
   meets_of (toks {} 15 [(1, flit 1)]) 3 15 (fld [(60, 2), (51, 2), (16, 63)]) (by decide +kernel) (by decide +kernel),
   meets_of (run3 {}) 3 15 (fld [(60, 3), (55, 31), (23, 511)]) (by decide +kernel) trivial,
   meets_of (run3 {}) 3 0 (fld [(60, 4), (51, 3)]) (by decide +kernel) (by decide +kernel),
   meets_of (run3 {}) 3 0 (fld [(60, 4)]) (by decide +kernel) (by decide +kernel),
   meets_of (run3 {}) 3 0 (fld [(60, 5), (16, 127)]) (by decide +kernel) trivial,
   meets_of (toks {} 0 [(2, flit 0)]) 3 0 (fld [(60, 6), (16, 127)]) (by decide +kernel) ⟨{}, by decide +kernel⟩,
   meets_of (toks {} 0 [(2, flit 0)]) 3 0 (fld [(60, 7)]) (by decide +kernel) ⟨{}, by decide +kernel⟩⟩

theorem witness_vectorArithmetic :
    Meets .vec 1 (fun _ _ _ _ => True) ∧
      Meets .vec 2 (fun _ _ _ _ => True) ∧
      Meets .vec 3 (fun _ _ _ _ => True) ∧
      Meets .vec 4 (fun _ _ _ _ => True) ∧
      Meets .vec 5 (fun _ _ _ _ => True) ∧
      Meets .vec 6 (fun _ _ _ _ => True) :=
  ⟨meets_of (toks {} 23 [(0, flit 0x3F800000), (1, flit 0x3F800000), (2, flit 0)]) 3 23 (fld [(58, 1)]) (by decide +kernel) trivial,
   meets_of (toks {} 23 [(0, flit 0x3F800000), (1, flit 0x3F800000), (2, flit 0)]) 3 23 (fld [(58, 2)]) (by decide +kernel) trivial,
   meets_of (toks {} 23 [(0, flit 0x3F800000), (1, flit 0x3F800000), (2, flit 0)]) 3 23 (fld [(58, 3)]) (by decide +kernel) trivial,
   meets_of (toks {} 23 [(0, flit 0x3F800000), (1, flit 0x3F800000), (2, flit 0)]) 3 23 (fld [(58, 4)]) (by decide +kernel) trivial,
   meets_of (toks {} 23 [(0, flit 0x3F800000), (1, flit 0x3F800000), (2, flit 0)]) 3 23 (fld [(58, 5)]) (by decide +kernel) trivial,
   meets_of (toks {} 23 [(0, flit 0x3F800000), (1, flit 0x3F800000), (2, flit 0)]) 3 23 (fld [(58, 6)]) (by decide +kernel) trivial⟩

theorem witness_vectorOthers :
    Meets .vec 7 (fun s ps u w => ∀ i, i < 64 → enabled (s.slotPred ps u w) i = true →
        vLane (s.slotTok ps u w 0) (vSfmt w) i ≠ none ∧ vLane (s.slotTok ps u w 1) (vSfmt w) i ≠ none) ∧
      Meets .vec 8 (fun _ _ _ w => isMX (vDfmt w) = false) ∧
      Meets .vec 9 (fun _ _ _ _ => True) ∧
      Meets .vec 11 (fun _ _ _ w => vPred w = false) ∧
      Meets .vec 12 (fun s ps u w => vPred w = false ∧ ∀ j, j < 16 →
        (s.slotTok ps u w 0).bad j = false ∧ (s.slotTok ps u w 0).word j / 2 ^ 48 ≠ 0xFFFF) :=
  ⟨meets_of (toks {} 16 [(0, flit 0), (1, flit 0), (2, pred 5)]) 3 16 (fld [(58, 7), (12, 1), (8, 5)]) (by decide +kernel) (by decide +kernel),
   meets_of (toks {} 16 [(0, flit 0), (1, flit 0), (2, pred 5)]) 3 16 (fld [(58, 8), (54, 9)]) (by decide +kernel) (by decide +kernel),
   meets_of (toks {} 16 [(0, flit 0), (1, flit 0), (2, pred 5)]) 3 16 (fld [(58, 9), (8, 2)]) (by decide +kernel) trivial,
   meets_of (toks {} 16 [(0, flit 0), (1, flit 0), (2, pred 5)]) 3 16 (fld [(58, 11)]) (by decide +kernel) (by decide +kernel),
   meets_of (toks {} 16 [(0, flit 0), (1, flit 0), (2, pred 5)]) 3 16 (fld [(58, 12), (54, 11), (50, 11)]) (by decide +kernel) (by decide +kernel)⟩

theorem witness_compression :
    Meets .vec 10 (fun _ _ _ w => slotSub w = 0 ∧ vPred w = false) ∧
      Meets .vec 10 (fun s ps u w => slotSub w = 1 ∧ vPred w = false ∧
        (streamOf (s.spn ps) u).pend.length + (packGroup (s.uctx ps) w (s.slotTok ps u w 0)).1.length < 248) ∧
      Meets .vec 10 (fun s ps u w => slotSub w = 2 ∧ (streamOf (s.spn ps) u).pend = []) ∧
      Meets .vec 10 (fun s ps u w => slotSub w = 3 ∧ completeGroups (expBytes w) (streamOf (s.spn ps) u).begun (streamOf (s.spn ps) u).exp = 0) ∧
      Meets .vec 10 (fun s ps u w => ∃ len, slotSub w = 4 ∧ (streamOf (s.spn ps) u).begun ≠ 0 ∧ frontGroup (expBytes w) (streamOf (s.spn ps) u).exp = some len ∧
        (((streamOf (s.spn ps) u).exp.take len).any (·.2)) = false) ∧
      Meets .vec 10 (fun _ _ _ w => slotSub w = 5) :=
  ⟨meets_of (toks {} 23 [(0, flit 0x3F800000), (1, flit 0x3F800000), (2, flit 0)]) 3 23 (fld [(58, 10)]) (by decide +kernel) (by decide +kernel),
   meets_of (toks {} 23 [(0, flit 0x3F800000), (1, flit 0x3F800000), (2, flit 0)]) 3 23 (fld [(58, 10), (8, 1), (50, 1)]) (by decide +kernel) (by decide +kernel),
   meets_of (toks {} 23 [(0, flit 0x3F800000), (1, flit 0x3F800000), (2, flit 0)]) 3 23 (fld [(58, 10), (8, 2)]) (by decide +kernel) (by decide +kernel),
   meets_of (toks {} 23 [(0, flit 0x3F800000), (1, flit 0x3F800000), (2, flit 0)]) 3 23 (fld [(58, 10), (8, 3), (50, 1)]) (by decide +kernel) (by decide +kernel),
   meets_of (run3 { streams := [(23, { exp := List.replicate 8 (0, false), begun := 1 })] }) 3 23 (fld [(58, 10), (8, 4), (50, 1)]) (by decide +kernel) ⟨8, by decide +kernel⟩,
   meets_of (toks {} 23 [(2, pred 7)]) 3 23 (fld [(58, 10), (8, 5), (12, 1)]) (by decide +kernel) (by decide +kernel)⟩

theorem witness_specialFunctions :
    Meets .sfu 0 (fun _ _ _ _ => True) ∧
      Meets .sfu 1 (fun _ _ _ _ => True) ∧
      Meets .sfu 2 (fun _ _ _ _ => True) ∧
      Meets .sfu 3 (fun _ _ _ _ => True) ∧
      Meets .sfu 4 (fun _ _ _ _ => True) ∧
      Meets .sfu 5 (fun _ _ _ _ => True) :=
  ⟨meets_of (toks {} 27 [(0, flit 0x3F800000)]) 3 27 (fld [(60, 0)]) (by decide +kernel) trivial,
   meets_of (toks {} 27 [(0, flit 0x3F800000)]) 3 27 (fld [(60, 1)]) (by decide +kernel) trivial,
   meets_of (toks {} 27 [(0, flit 0x3F800000)]) 3 27 (fld [(60, 2)]) (by decide +kernel) trivial,
   meets_of (toks {} 27 [(0, flit 0x3F800000)]) 3 27 (fld [(60, 3)]) (by decide +kernel) trivial,
   meets_of (toks {} 27 [(0, flit 0x3F800000)]) 3 27 (fld [(60, 4)]) (by decide +kernel) trivial,
   meets_of (toks {} 27 [(0, flit 0x3F800000)]) 3 27 (fld [(60, 5)]) (by decide +kernel) trivial⟩

theorem witness_steering :
    Meets .steer 0 (fun _ _ _ _ => True) ∧
      Meets .steer 1 (fun _ _ _ _ => True) ∧
      Meets .steer 2 (fun _ _ _ _ => True) ∧
      Meets .steer 3 (fun _ _ _ _ => True) ∧
      Meets .steer 4 (fun s ps u w => (s.spn ps).trips.length < 16 ∧ ((s.spn ps).trips.any (fun t => t.steer == u && t.tag == (s.slotTok ps u w 2).tag)) = false) :=
  ⟨meets_of (toks {} 31 [(0, flit 7), (1, flit 8), (2, pred 1)]) 3 31 (fld [(61, 0)]) (by decide +kernel) trivial,
   meets_of (toks {} 31 [(0, flit 7), (1, flit 8), (2, pred 1)]) 3 31 (fld [(61, 1)]) (by decide +kernel) trivial,
   meets_of (toks {} 31 [(0, flit 7), (1, flit 8), (2, pred 1)]) 3 31 (fld [(61, 2)]) (by decide +kernel) trivial,
   meets_of (toks {} 31 [(0, flit 7), (1, flit 8), (2, pred 1)]) 3 31 (fld [(61, 3)]) (by decide +kernel) trivial,
   meets_of (toks { trips := (List.range 15).map (fun n => ⟨28, BitVec.ofNat 8 n, 1⟩) } 31 [(2, trip 9)]) 3 31 (fld [(61, 4)]) (by decide +kernel) (by decide +kernel)⟩

theorem witness_sequence :
    Meets .seq 1 (fun s ps u w => (s.slotTok ps u w 0).bad 0 = false) ∧
      Meets .seq 2 (fun s ps u w => ∀ p i, p < 4 → i < 64 → vLane (s.slotTok ps u w p) 0 i ≠ none) ∧
      Meets .seq 3 (fun s ps u w => descBad (s.slotTok ps u w 2) false = false ∧
        ∀ k, k < 128 → scoreLane (s.slotTok ps u w 0) (s.slotTok ps u w 1) k ≠ none) ∧
      Meets .seq 4 (fun s ps u w =>
        let h := s.slotTok ps u w 2
        let set := attnSet (psetOf (s.spn ps) u (seqPset w))
        let p := mrgPartial (s.slotTok ps u w 0) (if 64 < set.d then some (s.slotTok ps u w 1) else none) set.d h
        h.bad 0 = false ∧ (h.word 0).testBit 35 = false ∧
          ∀ c, rowAfterQueue (seqOf (s.spn ps) u) (h.word 0 / 2 ^ 60) = some c →
            p.qpos = c.qpos ∧ c.last < p.first ∧ (p.node = false → c.node = false ∧ p.first >>> set.sl = c.first >>> set.sl)) ∧
      Meets .seq 5 (fun s ps u w => ∃ c, let d := s.slotTok ps u w 2
        descBad d true = false ∧ rowAfterQueue (seqOf (s.spn ps) u) (bitsOf (d.word 0) 27 24) = some c ∧ c.qpos.toNat = bitsOf (d.word 0) 23 0 ∧
          c.poison = false ∧ c.o.length ≤ 128 ∧ (attnSet (psetOf (s.spn ps) u (seqPset w))).bf16o = true) ∧
      Meets .seq 5 (fun s ps u w => let d := s.slotTok ps u w 2
        descBad d true = false ∧ rowAfterQueue (seqOf (s.spn ps) u) (bitsOf (d.word 0) 27 24) = none ∧
          (attnSet (psetOf (s.spn ps) u (seqPset w))).bf16o = true) ∧
      Meets .seq 6 (fun s ps u w => ∃ c, let d := s.slotTok ps u w 2
        descBad d true = false ∧ rowAfterQueue (seqOf (s.spn ps) u) (bitsOf (d.word 0) 27 24) = some c ∧ c.qpos.toNat = bitsOf (d.word 0) 23 0 ∧
          c.poison = false ∧ c.o.length ≤ 64 ∧ (attnSet (psetOf (s.spn ps) u (seqPset w))).d ≤ 64) :=
  ⟨meets_of (toks {} 33 [(0, flit 0xFFFFFF)]) 3 33 (fld [(58, 1)]) (by decide +kernel) (by decide +kernel),
   meets_of (toks {} 33 [(0, flit 1), (1, flit 2), (2, flit 3), (3, flit 4)]) 3 33 (fld [(58, 2)]) (by decide +kernel) (fun p i hp hi => (show ∀ p, p < 4 → ∀ i, i < 64 → vLane ((toks {} 33 [(0, flit 1), (1, flit 2), (2, flit 3), (3, flit 4)]).slotTok 3 33 (fld [(58, 2)]) p) 0 i ≠ none by decide +kernel) p hp i hi),
   meets_of (toks {} 32 [(0, flit 1), (1, flit 2), (2, flit (5 + 128 * 2 ^ 64))]) 3 32 (fld [(58, 3)]) (by decide +kernel) (by decide +kernel),
   meets_of (toks { seqs := [(32, { rows := [(5, some {})] })] } 32 [(0, flit 1), (2, flit (1 + 1 * 2 ^ 17 + 2 ^ 34 + 5 * 2 ^ 60))]) 3 32 (fld [(58, 4)]) (by decide +kernel) ⟨by decide +kernel, by decide +kernel, of_some (a := {}) (by decide +kernel) (by decide +kernel)⟩,
   meets_of (toks { seqs := [(32, { rows := [(5, some { o := [0x3F800000], l := 0x3F800000 })] })], cfg := { settings := List.replicate 32 [] ++ [[0, 0, 4]] } } 32 [(2, flit (5 * 2 ^ 24))]) 3 32 (fld [(58, 5)]) (by decide +kernel) ⟨{ o := [0x3F800000], l := 0x3F800000 }, by decide +kernel⟩,
   meets_of (toks { cfg := { settings := List.replicate 32 [] ++ [[0, 0, 4]] } } 32 [(2, flit (15 * 2 ^ 24))]) 3 32 (fld [(58, 5)]) (by decide +kernel) (by decide +kernel),
   meets_of (toks { seqs := [(32, { rows := [(5, some { o := [0x3F800000], l := 0x3F800000 })] })], cfg := { settings := List.replicate 32 [] ++ [[0, 0, 4]] } } 32 [(2, flit (5 * 2 ^ 24))]) 3 32 (fld [(58, 6)]) (by decide +kernel) ⟨{ o := [0x3F800000], l := 0x3F800000 }, by decide +kernel⟩⟩

theorem witness_dispatchSlots :
    Meets .dsp 1 (fun s ps u w => (s.spn ps).dsp.spoison = false ∧
        (∀ i, i < 64 → 64 * ((s.spn ps).dsp.scores.length / 64) + i < (dspSet (psetOf (s.spn ps) 34 (seqPset w))).e → (s.slotTok ps u w 0).bad (i / 2) = false) ∧ (s.spn ps).dsp.scores.length / 64 + 1 < topkFires (dspSet (psetOf (s.spn ps) 34 (seqPset w))).e) ∧
      Meets .dsp 1 (fun s ps u w => ∃ tally ranks, (s.spn ps).dsp.spoison = false ∧
        (∀ i, i < 64 → 64 * ((s.spn ps).dsp.scores.length / 64) + i < (dspSet (psetOf (s.spn ps) 34 (seqPset w))).e → (s.slotTok ps u w 0).bad (i / 2) = false) ∧ topkFires (dspSet (psetOf (s.spn ps) 34 (seqPset w))).e ≤ (s.spn ps).dsp.scores.length / 64 + 1 ∧
        (let sel := topkSel (((s.spn ps).dsp.scores ++ (List.range 64).map (lane 32 (s.slotTok ps u w 0).data.toNat)).take
            (dspSet (psetOf (s.spn ps) 34 (seqPset w))).e) (dspSet (psetOf (s.spn ps) 34 (seqPset w))).k []
         let excl := match s.slotPred ps u w with
           | some p => !predBit p 0
           | none => if (s.spn ps).dsp.scores = [] then false else (s.spn ps).dsp.excl
         (if excl then ((s.spn ps).dsp.tally, sel.map (fun _ => 0), none)
          else raiseTallies (s.spn ps).dsp.tally 0 sel) = (tally, ranks, none))) ∧
      Meets .dsp 2 (fun _ _ _ _ => True) ∧
      Meets .dsp 3 (fun _ _ _ _ => True) ∧
      Meets .dsp 4 (fun _ _ _ _ => True) ∧
      Meets .dsp 5 (fun _ _ _ _ => True) ∧
      Meets .dsp 6 (fun _ _ _ _ => True) :=
  ⟨meets_of (toks { cfg := { settings := List.replicate 34 [] ++ [toLE 16 (255 * 2 ^ 48)] } } 34 [(0, flit 1)]) 3 34 (fld [(58, 1)]) (by decide +kernel) (by decide +kernel),
   meets_of (toks { cfg := { settings := List.replicate 34 [] ++ [toLE 16 (3 * 2 ^ 48)] } } 34 [(0, flit 0x3F800000)]) 3 34 (fld [(58, 1)]) (by decide +kernel) ⟨[(0, 1)], [0], by decide +kernel⟩,
   meets_of (run3 {}) 3 34 (fld [(58, 2), (8, 15)]) (by decide +kernel) trivial,
   meets_of (run3 {}) 3 34 (fld [(58, 3), (8, 15)]) (by decide +kernel) trivial,
   meets_of (run3 {}) 3 34 (fld [(58, 4), (8, 15)]) (by decide +kernel) trivial,
   meets_of (run3 {}) 3 34 (fld [(58, 5), (8, 15)]) (by decide +kernel) trivial,
   meets_of (run3 {}) 3 34 (fld [(58, 6), (8, 15)]) (by decide +kernel) trivial⟩

theorem witness_mergeEngine :
    ∃ (s : State) (j1 j2 : MergeJob) (c : Partial), (seqOf (s.spn 3) 32).queue = [j1, j2] ∧ j1.taken = false ∧ j2.taken = true ∧
      tget none (seqOf (s.spn 3) 32).rows j1.row = some c :=
  ⟨run3 { seqs := [(32, { rows := [(5, some {})], queue := [{ row := 5, part := {}, d := 1, op := 1 }, { row := 5, part := {}, d := 1, op := 2, taken := true }] })] },
   { row := 5, part := {}, d := 1, op := 1 }, { row := 5, part := {}, d := 1, op := 2, taken := true }, {}, by decide +kernel⟩

/-! ### Jobs of the dispatch unit, memory units. -/

theorem witness_dispatchJobs :
    (∃ s : State, (s.spn 3).dsp.jobs = [djob .post] ∧ (djob .post).kind = .post) ∧
    (∃ s : State, (s.spn 3).dsp.jobs = [djob .grant] ∧ (djob .grant).kind = .grant ∧ (phaseOf (s.spn 3) 2).done = true ∧
      (s.devRead (.spindle 3) (area (descOf (s.spn 3) 0) (descOf (s.spn 3) 0).cnta (s.logicalN 3))
        ((dspSet (psetOf (s.spn 3) 34 0)).nsrc * (descOf (s.spn 3) 0).elocal * 16) []).2.1 = 0) ∧
    (∃ s : State, (s.spn 3).dsp.jobs = [djob .grant] ∧ (phaseOf (s.spn 3) 2).done = true ∧
      (s.devRead (.spindle 3) (area (descOf (s.spn 3) 0) (descOf (s.spn 3) 0).cnta (s.logicalN 3))
        ((dspSet (psetOf (s.spn 3) 34 0)).nsrc * (descOf (s.spn 3) 0).elocal * 16) []).2.1 ≠ 0) ∧
    (∃ s : State, (s.spn 3).dsp.jobs = [djob .scatter] ∧ (phaseOf (s.spn 3) 3).done = true ∧ (descOf (s.spn 3) (djob .scatter).pset).ntok = 0) ∧
    (∃ s : State, (s.spn 3).dsp.jobs = [djob .ret] ∧ (phaseOf (s.spn 3) 4).done = true) ∧
    (∃ s : State, (s.spn 3).dsp.jobs = [djob .treset] ∧ (djob .treset).kind = .treset) ∧
    (∃ s : State, (s.spn 3).dsp.jobs = [djob .grant] ∧ (phaseOf (s.spn 3) 2).done = false) ∧
    (∃ s : State, (s.spn 3).dsp.jobs = [djob .scatter] ∧ (phaseOf (s.spn 3) 3).done = false) ∧
    (∃ s : State, (s.spn 3).dsp.jobs = [djob .ret] ∧ (phaseOf (s.spn 3) 4).done = false) ∧
    (∃ s : State, s.dspFull 3 2 = true) ∧ (∃ s : State, s.dspFull 3 5 = false ∧ s.protHit 0 256 = none) ∧
    (∃ (s : State) (a : DWord), (phaseOf (s.spn 3) 5).armed = some a ∧ (phaseOf (s.spn 3) 5).done = false ∧ s.rd (Reg.SPN_DSP_TMO 3) ≤ (s.now - a).toNat) :=
  let ph (n : Nat) (p : DspPhase) (k : JobKind) : State := run3 { dsp := { jobs := [djob k], phases := [(n, p)] } }
  ⟨⟨run3 { dsp := { jobs := [djob .post] } }, by decide +kernel⟩, ⟨ph 2 { done := true } .grant, by decide +kernel⟩,
   ⟨run3 { dsp := { jobs := [djob .grant], phases := [(2, { done := true })], descs := [(0, toLE 76 (0xFFFFFFFFFF * 2 ^ 192) ++ [1])] } }, by decide +kernel⟩,
   ⟨ph 3 { done := true } .scatter, by decide +kernel⟩, ⟨ph 4 { done := true } .ret, by decide +kernel⟩,
   ⟨run3 { dsp := { jobs := [djob .treset] } }, by decide +kernel⟩, ⟨ph 2 { got := 1 } .grant, by decide +kernel⟩,
   ⟨ph 3 { got := 1 } .scatter, by decide +kernel⟩, ⟨ph 4 { got := 1 } .ret, by decide +kernel⟩, ⟨ph 2 { want := some 1, got := 1 } .post, by decide +kernel⟩,
   ⟨ph 5 { want := some 1 } .post, by decide +kernel⟩,
   ⟨{ ph 5 { armed := some 0 } .post with now := 1000000000 }, 0, by decide +kernel⟩⟩

theorem witness_bank : (∃ (s : State) (w : DWord) (k : Nat), Fires s 3 35 w ∧ slotIs .mem 1 35 w = true ∧ slotOk 35 w = true ∧
      s.ownLine 3 (s.logicalN 3) 35 (slotAddr (s.spn 3) (s.logicalN 3) 35 w ((s.slotTok 3 35 w 1).word 0)) = some k ∧ slot w 7 5 = 0 ∧
      ∀ j, j < 32 → flipOf [] (k + 8 * j) = 0) ∧
    (∃ (s : State) (w : DWord) (k : Nat), Fires s 3 50 w ∧ slotIs .mem 2 50 w = true ∧ slotOk 50 w = true ∧
      s.ownLine 3 (s.logicalN 3) 50 (slotAddr (s.spn 3) (s.logicalN 3) 50 w ((s.slotTok 3 50 w 1).word 0)) = some k) ∧
    (∃ (s : State) (w : DWord), Fires s 3 35 w ∧ slotIs .mem 1 35 w = true ∧ slotOk 35 w = true ∧
      s.ownLine 3 (s.logicalN 3) 35 (slotAddr (s.spn 3) (s.logicalN 3) 35 w ((s.slotTok 3 35 w 1).word 0)) = none) ∧
    (∃ (s : State) (w : DWord), Fires s 3 35 w ∧ slotIs .mem 2 35 w = true ∧ slotOk 35 w = true ∧
      s.ownLine 3 (s.logicalN 3) 35 (slotAddr (s.spn 3) (s.logicalN 3) 35 w ((s.slotTok 3 35 w 1).word 0)) = none) :=
  ⟨⟨withJob (toks {} 35 [(1, flit 0x4000000000)]) job1, fld [(60, 1), (8, 1)], sramKey 3 0, fires_of (by decide +kernel), by decide +kernel⟩,
   ⟨withJob (toks {} 50 [(0, flit 5), (1, flit 0x4002FFFF00)]) job1, fld [(60, 2), (8, 1)], sramKey 3 0x2FFFF00, fires_of (by decide +kernel), by decide +kernel⟩,
   ⟨withJob (toks {} 35 [(1, flit 0)]) job1, fld [(60, 1), (8, 1)], fires_of (by decide +kernel), by decide +kernel⟩,
   ⟨withJob (toks {} 35 [(0, flit 1), (1, flit 0x4000300000)]) job1, fld [(60, 2), (8, 1)], fires_of (by decide +kernel), by decide +kernel⟩⟩

theorem witness_memoryUnits :
    (∃ (s : State) (w : DWord), Fires s 3 35 w ∧ slotIs .mem 3 35 w = true ∧ slotOk 35 w = true ∧
      (s.spn 3).dupReserve (slot w 40 39) (tagOf (s.spn 3) (slot w 38 30)) (s.gen 3) ((slot w 28 17 + 1 + 255) / 256) = none) ∧
    (∃ (s : State) (w : DWord) (d : BitVec 8), Fires s 3 35 w ∧ slotIs .mem 3 35 w = true ∧ slotOk 35 w = true ∧
      (s.spn 3).dupReserve (slot w 40 39) (tagOf (s.spn 3) (slot w 38 30)) (s.gen 3) ((slot w 28 17 + 1 + 255) / 256) = some d) ∧
    (∃ (s : State) (w : DWord), Fires s 3 50 w ∧ slotIs .mem 4 50 w = true ∧ slotOk 50 w = true) ∧
    (∃ (s : State) (w : DWord), Fires s 3 35 w ∧ slotIs .mem 5 35 w = true ∧ slotOk 35 w = true ∧
      (s.spn 3).dupReserve (slot w 40 39) (tagOf (s.spn 3) (slot w 38 30)) (s.gen 3) 1 = none) ∧
    (∃ (s : State) (w : DWord), Fires s 3 35 w ∧ slotIs .mem 6 35 w = true ∧ slotOk 35 w = true ∧
      (s.spn 3).dupReserve (slot w 40 39) (tagOf (s.spn 3) (slot w 38 30)) (s.gen 3) 1 = none ∧
      (tget {} (s.spn 3).inq (slot w 16 9 % 64)).ready = none ∧
      ((tget {} (s.spn 3).inq (slot w 16 9 % 64)).st = .unbound ∨ (tget {} (s.spn 3).inq (slot w 16 9 % 64)).st = .opened)) ∧
    (∃ (s : State) (w : DWord) (b : ChanBind), Fires s 3 35 w ∧ slotIs .mem 7 35 w = true ∧ slotOk 35 w = true ∧
      (tget {} (s.spn 3).outq (slot w 16 9 % 64)).st = .opened ∧ (tget {} (s.spn 3).outq (slot w 16 9 % 64)).bind = some b ∧ b.remote = false) ∧
    (∃ (s : State) (w : DWord), Fires s 3 35 w ∧ slotIs .mem 8 35 w = true ∧ slotOk 35 w = true ∧
      (s.spn 3).dupReserve (slot w 40 39) (tagOf (s.spn 3) (slot w 38 30)) (s.gen 3) 1 = none ∧
      (∀ o ∈ (s.spn 3).ops, o.kind = .watch → o.cnt = slot w 16 9 → (s.spn 3).counter (slot w 16 9) < o.len) ∧
      (s.spn 3).counter (slot w 16 9) < slot w 56 41) ∧
    (∃ (s : State) (w : DWord) (e : SlEnt), Fires s 3 54 w ∧ slotIs .sluice 0 54 w = true ∧ slotOk 54 w = true ∧ slot w 63 63 = 1 ∧ slot w 53 53 = 0 ∧
      (s.spn 3).sluice.find? (fun e => e.sl == 54 - 51 && e.tag == tagOf (s.spn 3) (slot w 62 54) && e.gen == s.gen 3 && e.filled) = some e ∧
      (e.flit.pword = 0 ∨ s.carries = true)) :=
  let e (n : Nat) (f : Bool) : SlEnt := { sl := n, tag := 0, gen := 0, filled := f, flit := {}, op := 1 }
  ⟨⟨run3 {}, fld [(60, 3), (17, 4095)], fires_of (by decide +kernel), by decide +kernel⟩,
   ⟨run3 { sluice := [e 0 false] }, fld [(60, 3), (17, 255)], 0, fires_of (by decide +kernel), by decide +kernel⟩,
   ⟨toks {} 50 [(0, flit 1)], fld [(60, 4), (17, 255)], fires_of (by decide +kernel), by decide +kernel⟩,
   ⟨toks {} 35 [(0, flit 1)], fld [(60, 5), (17, 15), (5, 2)], fires_of (by decide +kernel), by decide +kernel⟩,
   ⟨run3 {}, fld [(60, 6), (9, 63)], fires_of (by decide +kernel), by decide +kernel⟩,
   ⟨toks { outq := [(63, { st := .opened, credits := 1, bind := some ⟨false, 0, 1, 2⟩ })] } 35 [(0, flit 1)], fld [(60, 7), (9, 63), (17, 15)], ⟨false, 0, 1, 2⟩,
    fires_of (by decide +kernel), by decide +kernel⟩,
   ⟨run3 {}, fld [(60, 8), (41, 1), (9, 255)], fires_of (by decide +kernel), by decide +kernel⟩,
   ⟨run3 { sluice := [e 3 true] }, fld [(63, 1)], e 3 true, fires_of (by decide +kernel), by decide +kernel⟩⟩

/-! ### Strands, sections, drains. -/

/-- Spindle 3 running at the first word of a strand. -/
def strand3 (l : List DWord) : State := live { strand := l, fresh := false } job1

/-- The same in a run-empty drain, at its section's first skein cycle. -/
def stop3 (l : List DWord) : State :=
  live { strand := l, fresh := true, drain := some { why := .switch, scan := false, asked := 0, point := false, ready := false } } job1

theorem witness_strandBundles :
    (∃ s : State, invOk s = true ∧ s.nextKind 3 0 = true ∧ s.drainStops 3 = false ∧
      s.cycleCauses 3 (s.spn 3).slots ≠ 0) ∧
    (∃ s : State, s.nextKind 3 0 = true ∧ s.drainStops 3 = false ∧ (s.cycle 3 (s.spn 3).slots []).spnState 3 ≠ 0 ∧
      s.cycleCauses 3 (s.spn 3).slots = 0) ∧
    (∃ s : State, s.strandRuns 3 = true ∧ (0 < (s.spn 3).idleLeft ∨ (s.spn 3).kind = some 1) ∧ s.drainStops 3 = false ∧ (s.cycle 3 [] []).spnState 3 ≠ 0 ∧
      s.cycleCauses 3 [] = 0) ∧
    (∃ s : State, invOk s = true ∧ s.nextKind 3 2 = true ∧ s.drainStops 3 = false ∧ slot (s.spn 3).word 58 58 = 0 ∧ slot (s.spn 3).word 31 0 ≠ 0) ∧
    (∃ s : State, invOk s = true ∧ s.nextKind 3 2 = true ∧ s.drainStops 3 = false ∧ slot (s.spn 3).word 58 58 = 0 ∧ slot (s.spn 3).word 31 0 = 0) ∧
    (∃ (s : State) (e : TripEnt), invOk s = true ∧ s.nextKind 3 2 = true ∧ slot (s.spn 3).word 58 58 = 1 ∧
      (s.spn 3).trips.find? (fun e => e.steer == 28 + slot (s.spn 3).word 57 56 && e.tag == tagOf (s.spn 3) (slot (s.spn 3).word 55 47)) = some e ∧ e.count ≠ 0 ∧ s.drainStops 3 = false) ∧
    (∃ (s : State) (e : TripEnt), s.nextKind 3 2 = true ∧ slot (s.spn 3).word 58 58 = 1 ∧
      (s.spn 3).trips.find? (fun e => e.steer == 28 + slot (s.spn 3).word 57 56 && e.tag == tagOf (s.spn 3) (slot (s.spn 3).word 55 47)) = some e ∧ e.count = 0 ∧ s.drainStops 3 = false) ∧
    (∃ s : State, s.nextKind 3 2 = true ∧ slot (s.spn 3).word 58 58 = 1 ∧
      (s.spn 3).trips.find? (fun e => e.steer == 28 + slot (s.spn 3).word 57 56 && e.tag == tagOf (s.spn 3) (slot (s.spn 3).word 55 47)) = none ∧ s.drainStops 3 = false) ∧
    (∃ s : State, s.nextKind 3 0 = true ∧ s.drainStops 3 = true) ∧ (∃ s : State, s.nextKind 3 1 = true ∧ s.strandRuns 3 = true ∧ s.drainStops 3 = true) ∧
    (∃ s : State, s.nextKind 3 2 = true ∧ s.drainStops 3 = true) ∧
    (∃ s : State, s.drainsNow 3 = true ∧ (s.spn 3).drained (s.gen 3) = false ∧ (s.spn 3).load = .draining) ∧
    (∃ s : State, s.drainsNow 3 = true ∧ (s.spn 3).drained (s.gen 3) = false ∧ (s.spn 3).load = .ending) ∧
    (∃ s : State, invOk s = true ∧ s.nextKind 3 3 = true) ∧
    (∃ (s : State) (j : Slot), invOk s = true ∧ s.nextKind 3 4 = true ∧ s.rd64 (Reg.SPN_STEP_LO 3) + 1 < 2 ^ 64 ∧ s.runningSlot = some j ∧
      ((s.wr64 (Reg.SPN_STEP_LO 3) (s.rd64 (Reg.SPN_STEP_LO 3) + 1)).modSpn 3 (fun x => x.next 1)).leastStep j ≤ j.step.toNat) ∧
    (∃ (s : State) (j : Slot), s.nextKind 3 4 = true ∧ s.rd64 (Reg.SPN_STEP_LO 3) + 1 < 2 ^ 64 ∧ s.runningSlot = some j ∧
      j.step.toNat < ((s.wr64 (Reg.SPN_STEP_LO 3) (s.rd64 (Reg.SPN_STEP_LO 3) + 1)).modSpn 3 (fun x => x.next 1)).leastStep j) ∧
    (∃ s : State, s.nextKind 3 5 = true) ∧
    (∃ s : State, s.strandRuns 3 = true ∧ (s.spn 3).idleLeft = 0 ∧ (s.spn 3).kind = none) :=
  ⟨⟨strand3 [fld [(0, 2 ^ 27)], fld [(60, 1)]], by decide +kernel⟩, ⟨strand3 [fld [(0, 2 ^ 15)], fld [(60, 3)]], by decide +kernel⟩,
   ⟨strand3 [fld [(60, 1), (0, 0xFFFFFF)]], by decide +kernel⟩, ⟨strand3 [fld [(60, 2), (0, 1), (32, 1)]], by decide +kernel⟩,
   ⟨strand3 [fld [(60, 2), (32, 1)]], by decide +kernel⟩,
   ⟨live { strand := [fld [(60, 2), (58, 1), (56, 3), (47, 255)]], trips := [⟨31, 255, 1⟩] } job1, ⟨31, 255, 1⟩, by decide +kernel⟩,
   ⟨live { strand := [fld [(60, 2), (58, 1), (56, 3), (47, 255)]], trips := [⟨31, 255, 0⟩] } job1, ⟨31, 255, 0⟩, by decide +kernel⟩,
   ⟨strand3 [fld [(60, 2), (58, 1)]], by decide +kernel⟩, ⟨stop3 [fld [(0, 2 ^ 15)], fld [(60, 3)]], by decide +kernel⟩,
   ⟨stop3 [fld [(60, 1)]], by decide +kernel⟩, ⟨stop3 [fld [(60, 2)]], by decide +kernel⟩,
   ⟨run3 { load := .draining, pipe := [⟨0, 0, 1, none, none⟩] }, by decide +kernel⟩, ⟨run3 { load := .ending, pipe := [⟨0, 0, 1, none, none⟩] }, by decide +kernel⟩,
   ⟨strand3 [fld [(60, 3), (0, 1)]], by decide +kernel⟩,
   ⟨live { strand := [fld [(60, 4)]] } { job1 with step := 1 }, { job1 with step := 1 }, by decide +kernel⟩,
   ⟨strand3 [fld [(60, 4)]], job1, by decide +kernel⟩, ⟨strand3 [fld [(60, 5)]], by decide +kernel⟩, ⟨strand3 [], by decide +kernel⟩⟩

theorem witness_sections :
    (∃ s : State, invOk s = true ∧ (s.spn 3).drained (s.gen 3) = true ∧ s.drainsNow 3 = true ∧ (s.spn 3).load = .draining ∧ s.spnState 3 ≠ 3) ∧
    (∃ s : State, invOk s = true ∧ (s.spn 3).drained (s.gen 3) = true ∧ s.drainsNow 3 = true ∧ (s.spn 3).load = .draining ∧ s.spnState 3 = 3) ∧
    (∃ s : State, invOk s = true ∧ (s.spn 3).drained (s.gen 3) = true ∧ s.drainsNow 3 = true ∧ (s.spn 3).load = .ending) ∧
    (∃ s : State, (s.spn 3).drained (s.gen 3) = false) ∧ (∃ s : State, s.drainsNow 3 = false) ∧
    (∃ s : State, s.spnState 3 = 4 ∧ (s.spn 3).load = .waiting ∧ (s.spn 3).olderOps (s.gen 3) = true) ∧
    (∃ s : State, s.spnState 3 = 4 ∧ (s.spn 3).load = .waiting ∧ (s.spn 3).olderOps (s.gen 3) = false ∧ s.rbit (Reg.SPN_SECT_CTL 3) 1 = false ∧ (s.spn 3).cfgReady = true) ∧
    (∃ s : State, s.spnState 3 = 4 ∧ (s.spn 3).load = .waiting ∧ (s.spn 3).olderOps (s.gen 3) = false ∧ s.rbit (Reg.SPN_SECT_CTL 3) 1 = false ∧ (s.spn 3).cfgReady = false) ∧
    (∃ s : State, s.spnState 3 = 4 ∧ (s.spn 3).load = .start ∧ (s.spn 3).inFlight = [] ∧ (s.spn 3).cfgReady = true) ∧
    (∃ s : State, s.spnState 3 = 4 ∧ (s.spn 3).load = .start ∧ (s.spn 3).inFlight ≠ []) ∧
    (∃ s : State, s.spnState 3 = 4 ∧ (s.spn 3).load = .none) ∧ (∃ s : State, s.spnState 3 ≠ 4) ∧
    (∃ (s : State) (n p : Nat), invOk s = true ∧ (s.spnState 3 = 1 ∨ s.spnState 3 = 2 ∨ s.spnState 3 = 4) ∧ s.nextKind 3 3 = false ∧
      s.domOn (regDomain (Reg.SPN_SECT_CTL 3)) = true ∧ (s.spn 3).nextSegment = some (n, p)) ∧
    (∃ s : State, s.domOn (regDomain (Reg.SPN_SECT_CTL 3)) = true ∧ (s.spn 3).nextSegment = none) ∧
    (∃ s : State, s.domOn (regDomain (Reg.SPN_SECT_CTL 3)) = false) ∧
    (∃ s : State, invOk s = true ∧ (s.spn 3).load = .forced ∧ s.spnState 3 = 4 ∧ (s.spn 3).olderOps (s.gen 3) = false ∧ (s.spn 3).dump = false) ∧
    (∃ s : State, invOk s = true ∧ (s.spn 3).load = .forced ∧ s.spnState 3 = 4 ∧ (s.spn 3).olderOps (s.gen 3) = false ∧ (s.spn 3).dump = true) ∧
    (∃ s : State, (s.spn 3).load = .forced ∧ s.spnState 3 = 4 ∧ (s.spn 3).olderOps (s.gen 3) = true) :=
  let old : List OpEnt := [{ op1 .write with gen := 3 }]
  let st (n : Nat) (x : Spn) : State := (run3 x).wf (Reg.SPN_STATE 3) 2 0 n
  ⟨⟨run3 { load := .draining, store := [⟨0, 0, flit 1⟩] }, by decide +kernel⟩,
   ⟨st 3 { load := .draining, nextSect := 1 }, by decide +kernel⟩, ⟨run3 { load := .ending }, by decide +kernel⟩,
   ⟨run3 { pipe := [⟨0, 0, 1, none, none⟩] }, by decide +kernel⟩, ⟨run3 {}, by decide +kernel⟩,
   ⟨st 4 { load := .waiting, ops := old }, by decide +kernel⟩, ⟨st 4 { load := .waiting, cfgReady := true }, by decide +kernel⟩,
   ⟨st 4 { load := .waiting }, by decide +kernel⟩, ⟨st 4 { load := .start, cfgReady := true }, by decide +kernel⟩,
   ⟨st 4 { load := .start, ops := old }, by decide +kernel⟩, ⟨st 4 {}, by decide +kernel⟩, ⟨run3 {}, by decide +kernel⟩,
   ⟨{ run3 { strand := [fld [(60, 4)], fld [(60, 3), (0, 7)]] } with domsOff := 0 }, 7, 2, by decide +kernel⟩,
   ⟨{ run3 {} with domsOff := 0 }, by decide +kernel⟩, ⟨{ State.reset with domsOff := 2 ^ 64 - 1 }, by decide +kernel⟩,
   ⟨st 4 { load := .forced }, by decide +kernel⟩, ⟨st 4 { load := .forced, dump := true }, by decide +kernel⟩,
   ⟨st 4 { load := .forced, ops := old }, by decide +kernel⟩⟩

theorem witness_drains :
    (∃ s : State, invOk s = true ∧ (s.spn 3).drain = none ∧ (s.spnState 3 = 1 ∨ s.spnState 3 = 2 ∨ s.spnState 3 = 4)) ∧
    (∃ (s : State) (d : Drain), (s.spn 3).drain = some d) ∧
    (∃ (s : State) (d : Drain), invOk s = true ∧ s.spnState 3 = 3 ∧ (s.spn 3).drain = some d ∧ s.drainStops 3 = true) ∧
    (∃ (s : State) (d : Drain), invOk s = true ∧ s.spnState 3 = 3 ∧ (s.spn 3).drain = some d ∧ d.point = true ∧ d.scan = false ∧ d.ready = false ∧
      (s.spn 3).drained (s.gen 3) = true) ∧
    (∃ (s : State) (d : Drain), invOk s = true ∧ s.spnState 3 = 3 ∧ (s.spn 3).drain = some d ∧ d.point = true ∧ d.scan = false ∧ d.ready = false ∧
      (s.spn 3).drained (s.gen 3) = false) ∧
    (∃ (s : State) (d : Drain), invOk s = true ∧ s.spnState 3 = 3 ∧ (s.spn 3).drain = some d ∧ d.point = false ∧ d.scan = false ∧
      s.rd (Reg.SPN_DRAIN_CTL 3) ≤ (s.now - d.asked).toNat ∧ roomOk s 0x0314 (unitId 0 3) = true) ∧
    (∃ (s : State) (d : Drain), (s.spn 3).drain = some d ∧ (s.now - d.asked).toNat < s.rd (Reg.SPN_DRAIN_CTL 3)) ∧
    (∃ (s : State) (d : Drain), invOk s = true ∧ s.spnState 3 = 3 ∧ (s.spn 3).drain = some d ∧ d.scan = true ∧ d.ready = false ∧ (s.spn 3).inFlight = []) ∧
    (∃ (s : State) (d : Drain), invOk s = true ∧ s.spnState 3 = 3 ∧ (s.spn 3).drain = some d ∧ d.scan = true ∧ d.ready = false ∧ (s.spn 3).inFlight ≠ []) ∧
    (∃ (s : State) (d : Drain), invOk s = true ∧ s.spnState 3 = 3 ∧ (s.spn 3).drain = some d ∧ d.ready = true) ∧
    (∃ (s : State) (j : Slot), invOk s = true ∧ s.runningSlot = some j ∧ s.logicalOf 3 = some 0 ∧ s.spnState 3 = 0 ∧ j.st = .running ∧
      (tget {} j.saved 0).started = true ∧ (s.spn 3).load = .none ∧ s.rbit (Reg.SPN_STRAND 3) 6 = false ∧ s.seqr.giving = none ∧
      s.hlth.moves.all (fun m => m.src != 3) = true ∧ (s.devRead .sequencer (saveBase j.job 0) 64 []).2.1 = 0 ∧
      headerBad (s.devRead .sequencer (saveBase j.job 0) 64 []).1 0 = none) ∧
    (∃ (s : State) (j : Slot), invOk s = true ∧ s.runningSlot = some j ∧ s.logicalOf 3 = some 0 ∧ s.spnState 3 = 0 ∧ j.st = .running ∧
      (tget {} j.saved 0).started = true ∧ (s.spn 3).load = .none ∧ s.rbit (Reg.SPN_STRAND 3) 6 = false ∧ s.seqr.giving = none ∧
      s.hlth.moves.all (fun m => m.src != 3) = true ∧ (s.devRead .sequencer (saveBase j.job 0) 64 []).2.1 = 0 ∧
      headerBad (s.devRead .sequencer (saveBase j.job 0) 64 []).1 0 = some 0) ∧
    (∃ (s : State) (j : Slot), s.runningSlot = some j ∧ s.logicalOf 3 = some 0 ∧ (s.spn 3).load = .restore ∧ s.spnState 3 = 3 ∧ (s.spn 3).inFlight = []) ∧
    (∃ s : State, s.runningSlot = none) :=
  let d (p sc r : Bool) : Drain := { why := .switch, scan := sc, asked := 0, point := p, ready := r }
  let dr (x : Spn) : State := (run3 x).wf (Reg.SPN_STATE 3) 2 0 3
  let w : List OpEnt := [op1 .write]
  let jr : Slot := { job1 with saved := [(0, { started := true })], job := { save := 0x4000000000 } }
  ⟨⟨run3 {}, by decide +kernel⟩, ⟨dr { drain := some (d false false false) }, _, rfl⟩, ⟨dr { drain := some (d false false false) }, d false false false, by decide +kernel⟩,
   ⟨dr { drain := some (d true false false) }, d true false false, by decide +kernel⟩, ⟨dr { drain := some (d true false false), ops := w }, d true false false, by decide +kernel⟩,
   ⟨{ dr { drain := some (d false false false) } with now := 1000000 }, d false false false, by decide +kernel⟩,
   ⟨dr { drain := some (d false false false) }, d false false false, by decide +kernel⟩, ⟨dr { drain := some (d false true false) }, d false true false, by decide +kernel⟩,
   ⟨dr { drain := some (d false true false), ops := w }, d false true false, by decide +kernel⟩, ⟨dr { drain := some (d true false true) }, d true false true, by decide +kernel⟩,
   ⟨{ (withJob (run3 {}) jr).wf (Reg.SPN_STATE 3) 2 0 0 with mem := [(sramKey 3 0, 1)], domsOff := 0 }, jr, by decide +kernel⟩,
   ⟨{ (withJob (run3 {}) jr).wf (Reg.SPN_STATE 3) 2 0 0 with domsOff := 0 }, jr, by decide +kernel⟩,
   ⟨(live { load := .restore } job1).wf (Reg.SPN_STATE 3) 2 0 3, job1, by decide +kernel⟩, ⟨State.reset, by decide +kernel⟩⟩

/-! ### Arrivals, contexts, records. -/

/-- A control message that arrived unharmed. -/
def way0 : CtlWay := { ce := 0, seamCe := 0, bad := none, atSeam := false }

/-- A request of 8 bytes at an address. -/
def req8 (k : ReqKind) (a : Nat) : MemReq := { src := .reel, op := 0, kind := k, addr := a, len := 8, data := List.replicate 8 0, poison := 0 }

theorem witness_arrivals :
    (∃ s : State, invOk s = true ∧ s.logicalOf 3 = some 0 ∧ way0.bad = none ∧ 256 ≤ s.rd64 (Reg.SPN_SKC_LO 3)) ∧
    (∃ (s : State) (m : Nat), invOk s = true ∧ s.minPos = some m ∧ way0.bad = none) ∧
    (∃ (s : State) (w : CtlWay) (n : Fin 39), w.bad = some n ∧ s.logicalOf 3 ≠ none) ∧
    (∃ (s : State) (fl : Flit), invOk s = true ∧ s.strandRuns 3 = true ∧ accepted (s.gen 3) fl.gen = true ∧
      (s.spn 3).store.any (fun y => y.unit == 5 && y.port == 1 && y.flit.tag == fl.tag) = false ∧ (s.spn 3).store.countP (fun y => y.unit == 5) < 16) ∧
    (∃ (s : State) (fl : Flit), invOk s = true ∧ s.strandRuns 3 = true ∧ accepted (s.gen 3) fl.gen = false) ∧
    (∃ (s : State) (fl : Flit), invOk s = true ∧ s.strandRuns 3 = true ∧ accepted (s.gen 3) fl.gen = true ∧
      (s.spn 3).store.any (fun y => y.unit == 5 && y.port == 1 && y.flit.tag == fl.tag) = true) ∧
    (∃ (s : State) (fl : Flit), invOk s = true ∧ s.strandRuns 3 = true ∧ accepted (s.gen 3) fl.gen = true ∧
      (s.spn 3).store.any (fun y => y.unit == 5 && y.port == 1 && y.flit.tag == fl.tag) = false ∧ 16 ≤ (s.spn 3).store.countP (fun y => y.unit == 5)) ∧
    (∃ (s : State) (o : OpEnt), invOk s = true ∧
      (s.spn 3).ops.find? (fun o => o.id == 1 && decide (o.kind = .read ∨ o.kind = .atom ∨ o.kind = .recv)) = some o ∧ s.absorbCause 3 = 0 ∧ accepted (s.gen 3) o.resGen = true) ∧
    (∃ s : State, invOk s = true ∧ ∀ o ∈ (s.spn 3).ops, o.id ≠ 1) ∧
    (∃ (s : State) (o : OpEnt), invOk s = true ∧
      (s.spn 3).ops.find? (fun o => o.id == 1 && decide (o.kind = .write ∨ o.kind = .atom ∨ o.kind = .jobWrite)) = some o ∧ s.absorbCause 3 = 0 ∧ o.kind = .write ∧
      (s.spn 3).load ≠ .start ∧ (∀ p ∈ (s.spn 3).ops, p.kind ≠ .watch) ∧ (s.spn 3).counter o.cnt + 1 < 2 ^ 32) ∧
    (∃ (s : State) (r : MemReq), s.bankReq 3 r = true ∧ s.mayServe r = true ∧ s.strandRuns 3 = true) ∧ (∃ (s : State) (r : MemReq), s.bankReq 3 r = true ∧ s.mayServe r = true ∧ s.strandRuns 3 = false) ∧
    (∃ (s : State) (r : MemReq), s.bankReq 3 r = false) ∧ (∃ (s : State) (r : MemReq), s.mayServe r = false) ∧
    (∃ s : State, s.strandRuns 3 = false ∧ s.drainsNow 3 = true) :=
  let full : List StoreEnt := (List.range 16).map (fun n => ⟨5, 0, { flit 1 with tag := BitVec.ofNat 8 n }⟩)
  let own (k : ReqKind) : MemReq := { req8 k 0x4000000000 with src := .spindle 3 }
  ⟨⟨(live {} job1).wr (Reg.SPN_SKC_LO 3) 256, by decide +kernel⟩, ⟨live {} job1, 0, by decide +kernel⟩, ⟨live {} job1, { way0 with bad := some 38 }, 38, by decide +kernel⟩,
   ⟨run3 { store := full.take 15 }, { flit 1 with gen := 1 }, by decide +kernel⟩, ⟨run3 {}, { flit 1 with gen := 2 }, by decide +kernel⟩,
   ⟨run3 { store := [⟨5, 1, flit 2⟩] }, flit 1, by decide +kernel⟩, ⟨run3 { store := full }, flit 1, by decide +kernel⟩,
   ⟨{ live { ops := [op1 .read] } job1 with domsOff := 0 }, op1 .read, by decide +kernel⟩, ⟨run3 { ops := [{ op1 .read with id := 2 }] }, by decide +kernel⟩,
   ⟨{ live { ops := [op1 .write], counters := [(0, 0xFFFFFFFE)] } job1 with domsOff := 0 }, op1 .write, by decide +kernel⟩, ⟨live {} job1, req8 .read 0x4000000000, by decide +kernel⟩,
   ⟨withJob State.reset job1, req8 .read 0x4000000000, by decide +kernel⟩, ⟨State.reset, req8 .read 0, by decide +kernel⟩,
   ⟨{ State.reset with out := [.req (own .write), .req (own .read)] }, own .read, by decide +kernel⟩,
   ⟨(run3 { load := .draining }).wf (Reg.SPN_STATE 3) 2 0 3, by decide +kernel⟩⟩

/-- SERVICE with no context running, and slot 1 holding `j`. -/
def idle1 (j : Slot) : State := (((withJob State.reset j).wr Reg.SKN_STATUS 0).wf (Reg.SPN_STATE 3) 2 0 0).wf Reg.CMD_DEV_STATE 2 0 stService

theorem witness_contexts :
    (∃ s : State, s.cq.loading = none) ∧
    (∃ (s : State) (a : Nat), s.cq.loading = some a ∧ (s.devRead .sequencer a 1024 []).2.2.2.devState ≠ stService) ∧
    (∃ (s : State) (a : Nat), s.cq.loading = some a ∧ let x := (s.devRead .sequencer a 1024 []).2.2.2
      x.devState = stService ∧ x.rbit Reg.CMD_STRAPS 14 = false ∧ x.numRev ≠ 0 ∧ x.freeSlot = none) ∧
    (∃ (s : State) (a : Nat), s.cq.loading = some a ∧ let d := s.devRead .sequencer a 1024 []
      let x := d.2.2.2
      x.devState = stService ∧ x.rbit Reg.CMD_STRAPS 14 = false ∧ x.numRev ≠ 0 ∧ x.freeSlot = some 0 ∧ x.tstrictRuns = false ∧ d.2.1 ≠ 0) ∧
    (∃ (s : State) (a : Nat), s.cq.loading = some a ∧ let d := s.devRead .sequencer a 1024 []
      let x := d.2.2.2
      x.devState = stService ∧ x.rbit Reg.CMD_STRAPS 14 = false ∧ x.numRev ≠ 0 ∧ x.freeSlot = some 0 ∧ x.tstrictRuns = false ∧ d.2.1 = 0 ∧ descOk d.1 = false) ∧
    (∃ (s : State) (j : Slot), invOk s = true ∧ s.runningSlot = some j ∧ j.st = .running ∧ j.tstrict = false ∧ s.quarActive = false ∧ s.rd Reg.SKN_QUANTUM ≠ 0 ∧
      s.seqr.giving = none ∧ s.rd Reg.SKN_QUANTUM ≤ (s.now - j.startTick).toNat) ∧
    (∃ (s : State) (j : Slot), s.runningSlot = some j ∧ j.st = .running ∧ j.tstrict = false ∧ s.quarActive = false ∧ s.rd Reg.SKN_QUANTUM ≠ 0 ∧
      s.seqr.giving = none ∧ (s.now - j.startTick).toNat < s.rd Reg.SKN_QUANTUM) ∧
    (∃ s : State, s.runCtx = 0 ∧ s.seqr.target = none) ∧
    (∃ (s : State) (n : Nat) (j : Slot), s.runCtx = 0 ∧ s.seqr.target = some n ∧ s.devState = stService ∧ s.readyAt n = true ∧ s.slotOf n = some j ∧
      j.lcount ≤ s.lCount ∧ j.parkLost = false ∧
      (List.range (j.image.2 / 8)).find? (fun i => (s.devRead .sequencer j.image.1 j.image.2 []).2.1.testBit i) = none ∧ s.clk.realign = false ∧ (∀ ps ∈ s.physList j.lcount, s.spnState ps = 0 ∧ (s.spn ps).dump = false) ∧
      (j.tstrict = true → s.rbit Reg.DET_ALIGN 0 = true)) ∧
    (∃ (s : State) (j : Slot), s.runningSlot = some j ∧ j.st ≠ .faulted ∧ ((List.range j.lcount).filter s.lmapValid).all s.endedAt = true) ∧
    (∃ (s : State) (j : Slot), s.runningSlot = some j ∧ j.st ≠ .faulted ∧ ((List.range j.lcount).filter s.lmapValid).all s.endedAt = false ∧ s.seqr.giving = none) ∧
    (∃ (s : State) (j : Slot), s.runningSlot = some j ∧ j.st ≠ .faulted ∧ ((List.range j.lcount).filter s.lmapValid).all s.endedAt = false ∧
      s.seqr.giving = some .quantum ∧ ((List.range j.lcount).filter s.lmapValid).all (fun l => s.endedAt l || s.savedAway j l) = true) ∧
    (∃ (s : State) (j : Slot), s.runningSlot = some j ∧ j.st ≠ .faulted ∧ ((List.range j.lcount).filter s.lmapValid).all s.endedAt = false ∧
      s.seqr.giving = some .quantum ∧ ((List.range j.lcount).filter s.lmapValid).all (fun l => s.endedAt l || s.savedAway j l) = false) ∧
    (∃ (s : State) (j : Slot), s.runningSlot = some j ∧ j.st = .faulted) :=
  let ld (a : Nat) : State := { (idle1 { job1 with st := .ready }).wf (Reg.SPN_NUM_REV 3) 15 0 1 with cq := { loading := some a }, domsOff := 0 }
  let jr : Slot := { job1 with st := .ready }
  let q (n : Nat) : State := { (live {} job1).wr Reg.SKN_QUANTUM 1000 with now := BitVec.ofNat 64 n }
  let jf : Slot := { job1 with st := .faulted }
  let js : Slot := { job1 with saved := [(0, { started := true })] }
  ⟨⟨State.reset, rfl⟩, ⟨{ State.reset with cq := { loading := some 0 } }, 0, by decide +kernel⟩,
   ⟨{ ld 0x3000000000 with seqr := { slots := (List.range 16).map (fun n => (n, some { job1 with st := .ready })) } }, 0x3000000000, by decide +kernel⟩,
   ⟨(ld 0x3000000000), 0x3000000000, by decide +kernel⟩,
   ⟨((List.range 4).foldl (fun s c => s.wf (Reg.MEM_CH_STAT (128 + c)) 2 0 2) { ld 0x3000000000 with mem := [(dramKey 128 5, 255)] }), 0x3000000000, by decide +kernel⟩,
   ⟨q 1000, job1, by decide +kernel⟩, ⟨q 999, job1, by decide +kernel⟩, ⟨State.reset, by decide +kernel⟩,
   ⟨{ idle1 jr with seqr := { slots := [(1, some jr)], target := some 1 } }, 1, jr, by decide +kernel⟩,
   ⟨(withJob State.reset job1).wr (Reg.SPN_STRAND 3) 64 |>.wf (Reg.SPN_STATE 3) 2 0 0, job1, by decide +kernel⟩, ⟨live {} job1, job1, by decide +kernel⟩,
   ⟨{ (withJob State.reset js).wf (Reg.SPN_STATE 3) 2 0 0 with seqr := { slots := [(1, some js)], giving := some .quantum } }, js, by decide +kernel⟩,
   ⟨{ live {} job1 with seqr := { slots := [(1, some job1)], giving := some .quantum } }, job1, by decide +kernel⟩, ⟨live {} jf, jf, by decide +kernel⟩⟩

theorem witness_records :
    (∃ s : State, invOk s = true ∧ s.clk.realign = true) ∧ (∃ s : State, s.clk.realign = false) ∧ (∃ s : State, s.domOn (regDomain Reg.DET_ALIGN) = true ∧ s.runCtx = 0) ∧
    (∃ s : State, s.domOn (regDomain Reg.DET_ALIGN) = true ∧ s.runCtx ≠ 0) ∧ (∃ s : State, s.domOn (regDomain Reg.DET_ALIGN) = false) ∧
    (∃ (s : State) (j : Slot) (e : SealEnt), invOk s = true ∧ s.slotOf 15 = some j ∧ j.seals.find? (fun x => x.id == 7 && !x.done) = some e ∧ j.run = none ∧ j.st ≠ .validating) ∧
    (∃ s : State, s.slotOf 15 = none) ∧
    (∃ (s : State) (j : Slot) (e : RecEnt), invOk s = true ∧ s.goneUnsigned 15 = none ∧ s.slotOf 15 = some j ∧ j.recs.find? (fun x => !x.signed) = some e) ∧
    (∃ s : State, s.goneUnsigned 15 = none ∧ s.slotOf 15 = none) :=
  let e : SealEnt := { id := 7, lo := 0, hi := 4096, step := 0 }
  let j : Slot := { job1 with st := .ready, seals := [e] }
  let r : RecEnt := { off := 0, len := 8, bytes := [1], signed := false }
  let k : Slot := { job1 with st := .ready, recs := [r] }
  ⟨⟨{ State.reset with clk := { realign := true } }, by decide +kernel⟩, ⟨State.reset, by decide +kernel⟩, ⟨{ State.reset with domsOff := 0 }, by decide +kernel⟩, ⟨{ live {} job1 with domsOff := 0 }, by decide +kernel⟩,
   ⟨{ State.reset with domsOff := 2 ^ 64 - 1 }, by decide +kernel⟩,
   ⟨{ State.reset with seqr := { slots := [(15, some j)] } }, j, e, by decide +kernel⟩, ⟨State.reset, by decide +kernel⟩,
   ⟨{ State.reset with seqr := { slots := [(15, some k)] } }, k, r, by decide +kernel⟩, ⟨State.reset, by decide +kernel⟩⟩

/-! ### A skein that loads: one strand of one section, which ends at once (R115 to R131, R535). -/

/-- The nonzero bytes of the image, by offset. -/
def skein1 : List Host.Cell :=
  [(0, 0x4B), (1, 0x5A), (2, 0x53), (3, 0x4B), (4, 1), (6, 1), (0x10, 1), (0x18, 64), (0x20, 0x50), (0x21, 0x38), (0x28, 24), (0x30, 0x68), (0x31, 0x38),
   (64, 80), (73, 0x38)]

/-- The descriptor at the start of management DRAM, the image after 4 KiB of it. -/
def loads1 : State :=
  let jr : Slot := { job1 with st := .ready }
  { (List.range 4).foldl (fun s c => s.wf (Reg.MEM_CH_STAT (128 + c)) 2 0 2) ((idle1 jr).wf (Reg.SPN_NUM_REV 3) 15 0 1) with
    cq := { loading := some 0x3000000000 }
    domsOff := 0
    mem := [(dramKey 128 1, 0x10), (dramKey 128 4, 0x30), (dramKey 128 8, 0x68), (dramKey 128 9, 0x38), (dramKey 128 6224, 1), (dramKey 128 6228, 1),
            (dramKey 128 6247, 0x50)] ++ skein1.map (fun c => (dramKey 129 c.1, c.2)) }

theorem witness_contextLoads : let d := loads1.devRead .sequencer 0x3000000000 1024 []
    d.2.1 = 0 ∧ descOk d.1 = true ∧ (jobOf d.1).recLen = 0 ∧ (jobOf d.1).img % 4096 = 0 ∧ inDram (jobOf d.1).img (jobOf d.1).len = true ∧
      (jobOf d.1).len ≤ 0x40000000 ∧ (jobOf d.1).chtab = 0 ∧ sealsOk [] (jobOf d.1).seals = true := by decide +kernel

theorem witness_contextTable : tableBad (List.replicate (1024 * 1) 0) [] 1 loads1.coord = none := by decide +kernel

/-! ### Memory, rings, channels. -/

theorem witness_memoryWords : ∃ s : State, invOk s = true ∧ 8 % 8 = 0 ∧ s.loc 0x3180000000 ≠ .dram 0 0 ∧ s.loc 0x317FFFFFF8 = .dram 131 0x5FFFFFF8 ∧ s.chanReady 131 = true ∧
    0x5FFFFFF8 % 8 = 0 ∧ 0x5FFFFFF8 < 2 ^ 31 ∧ 131 < 132 ∧ s.protHit 0x317FFFFFF8 8 = none :=
  ⟨State.reset.wf (Reg.MEM_CH_STAT 131) 2 0 2, by decide +kernel⟩

theorem witness_memoryChannels :
    (∃ (s : State) (r : MemReq), s.dramReq r = false) ∧ (∃ (s : State) (r : MemReq), s.dramReq r = true ∧ s.portOpen r = false) ∧ (∃ (s : State) (r : MemReq), s.dramReq r = true ∧ s.bankHeld r = true) ∧
    (∃ (s : State) (r : MemReq), s.dramReq r = true ∧ s.mayServe r = true ∧ s.portOpen r = true ∧ s.bankHeld r = false ∧ s.overSeam r = false) ∧
    (∃ (s : State) (r : MemReq), s.dramReq r = true ∧ s.mayServe r = true ∧ s.portOpen r = true ∧ s.bankHeld r = false ∧ s.overSeam r = true ∧ 4 ∉ s.ring.lost) ∧
    (∃ (s : State) (r : MemReq), s.overSeam r = true ∧ 4 ∈ s.ring.lost) ∧ (∃ s : State, (s.chan 131).copies ≠ [] ∧ s.chanReady 131 = true) ∧
    (∃ (s : State) (k : RepairCopy), (s.chan 131).copies = [k] ∧ 10000 ≤ (s.now - k.start).toNat ∧ invOk s = true) ∧
    (∃ (s : State) (k : RepairCopy), (s.chan 131).copies = [k] ∧ (s.now - k.start).toNat < 10000) ∧
    (∃ s : State, invOk s = true ∧ s.chanReady 5 = true ∧ s.rbit (Reg.MEM_CH_CTL 5) 1 = true ∧ (s.tstrictRuns = false ∨ 128 ≤ 5) ∧
      (s.chan 5).copying (s.rd (Reg.MEM_SCRUB_POS 5)) = true ∧ ∀ p ∈ s.chans, p.2.report = false) ∧
    (∃ s : State, s.chanReady 5 = true ∧ s.rbit (Reg.MEM_CH_CTL 5) 1 = true ∧ (s.tstrictRuns = false ∨ 128 ≤ 5) ∧ (s.chan 5).copying (s.rd (Reg.MEM_SCRUB_POS 5)) = false) ∧
    (∃ s : State, s.chanReady 5 = false) ∧ (∃ s : State, s.rf (Reg.MEM_CH_STAT 5) 2 0 = 3 ∧ invOk s = true) ∧
    (∀ v ∈ [(-40 : Int), 149, 25, 25], -40 ≤ v ∧ v < 150) ∧
    (∃ (s : State) (b : DWord), (s.chan 5).srStart = some b ∧ s.rf (Reg.MEM_CH_STAT 5) 2 0 = 3 ∧ 10000 ≤ (s.now - b).toNat) ∧
    (∃ (s : State) (b : DWord), (s.chan 5).srStart = some b ∧ (s.now - b).toNat < 10000) ∧
    (∃ s : State, invOk s = true ∧ s.domOn (regDomain (memStripe 3 47)) = true ∧ s.anyResident = false) ∧
    (∃ s : State, invOk s = true ∧ s.domOn (regDomain (memStripe 3 47)) = true ∧ s.anyResident = true ∧ roomOk s 0x020B (unitId 2 3) = true) ∧
    (∃ s : State, invOk s = true ∧ s.domOn (regDomain (Reg.MEM_CH_CTL 5)) = true ∧ s.rf (Reg.MEM_CH_STAT 5) 2 0 = 2) ∧
    (∃ s : State, invOk s = true ∧ s.domOn (regDomain (Reg.MEM_CH_CTL 5)) = true ∧ ¬ (s.rf (Reg.MEM_CH_STAT 5) 2 0 = 1 ∨ s.rf (Reg.MEM_CH_STAT 5) 2 0 = 2)) ∧
    (∃ s : State, s.domOn (regDomain (memStripe 3 47)) = false ∧ s.domOn (regDomain (Reg.MEM_CH_CTL 5)) = false) :=
  let k : RepairCopy := { layer := 0, bank := 0, row := 0, spare := 0, start := 0, fuse := false }
  let c : State := State.reset.setChan 131 { copies := [k] }
  let on : State := (State.reset.wf (Reg.MEM_CH_STAT 5) 2 0 2).wf (Reg.MEM_CH_CTL 5) 1 1 1
  let sr : State := (State.reset.wf (Reg.MEM_CH_STAT 5) 2 0 3).setChan 5 { srStart := some 0 }
  ⟨⟨withJob State.reset job1, req8 .read 0x4000000000, by decide +kernel⟩, ⟨State.reset, { req8 .read 0 with src := .spindle 3 }, by decide +kernel⟩,
   ⟨c.setChan 129 { copies := [k] }, req8 .read 0x3000001000, by decide +kernel⟩, ⟨State.reset, req8 .read 0x3000001000, by decide +kernel⟩,
   ⟨State.reset, req8 .read 0x3000002000, by decide +kernel⟩, ⟨{ State.reset with ring := { lost := [4] } }, req8 .read 0x3000002000, by decide +kernel⟩,
   ⟨c.wf (Reg.MEM_CH_STAT 131) 2 0 2, by decide +kernel⟩, ⟨{ c with now := 10000 }, k, by decide +kernel⟩, ⟨{ c with now := 9999 }, k, by decide +kernel⟩,
   ⟨on.setChan 5 { copies := [k] }, by decide +kernel⟩, ⟨on, by decide +kernel⟩, ⟨State.reset, by decide +kernel⟩,
   ⟨State.reset.wf (Reg.MEM_CH_STAT 5) 2 0 3, by decide +kernel⟩, by decide +kernel, ⟨{ sr with now := 10000 }, 0, by decide +kernel⟩,
   ⟨{ sr with now := 9999 }, 0, by decide +kernel⟩, ⟨{ State.reset with domsOff := 0 }, by decide +kernel⟩, ⟨{ live {} job1 with domsOff := 0 }, by decide +kernel⟩,
   ⟨{ on with domsOff := 0 }, by decide +kernel⟩, ⟨{ State.reset.wf (Reg.MEM_CH_STAT 5) 2 0 4 with domsOff := 0 }, by decide +kernel⟩,
   ⟨{ State.reset with domsOff := 2 ^ 64 - 1 }, by decide +kernel⟩⟩

/-- A flit of the ring for stop `d`. -/
def rflit (d : Nat) : RingFlit := { dst := d, src := 2, ttype := 0, entry := 0 }

theorem witness_rings :
    (∃ (s : State) (st : Fin 29) (f : RingFlit), invOk s = true ∧ .ring 3 0 st f ∈ s.out ∧ seamHop 0 st = none ∧ f.lmask = 0 ∧ f.dst ≠ st.val) ∧
    (∃ (s : State) (st : Fin 29) (f : RingFlit), invOk s = true ∧ .ring 3 1 st f ∈ s.out ∧ seamHop 1 st = none ∧ f.lmask = 0 ∧ f.dst = st.val ∧ f.credit = none ∧
      f.ttype ≠ 6 ∧ s.rbit (Reg.RING_STOP_ST st) 0 = false) ∧
    (∃ (s : State) (st : Fin 29) (f : RingFlit), .ring 3 0 st f ∈ s.out ∧ seamHop 0 st = none ∧ f.lmask = 0 ∧ roomOk s 0x0421 (unitId 4 (3 * 64 + st)) = true) ∧
    (∃ (s : State) (st : Fin 29) (f : RingFlit), .ring 3 0 st f ∉ s.out ∧ nextStop 0 f.src = st.val ∧ (3, 0, f.src) ∈ s.ring.leave) ∧
    (∃ (s : State) (st : Fin 29) (f : RingFlit), .ring 3 0 st f ∉ s.out ∧ nextStop 0 f.src = st.val ∧ (3, 0, f.src) ∉ s.ring.leave ∧ s.canInject 3 0 f = false) ∧
    (∃ (s : State) (st : Fin 29) (f : RingFlit), .ring 0 0 st f ∉ s.out ∧ nextStop 0 f.src = st.val ∧ (0, 0, f.src) ∉ s.ring.leave ∧ s.canInject 0 0 f = true) ∧
    (∃ s : State, invOk s = true ∧ (3, 1, 28) ∉ s.ring.starved) ∧ (∃ s : State, (3, 1, 28) ∈ s.ring.starved) ∧
    (∃ (s : State) (o : OpEnt), invOk s = true ∧
      (s.spn 17).ops.find? (fun o => o.id == 1 && decide (o.kind = .read ∨ o.kind = .write ∨ o.kind = .atom ∨ o.kind = .send ∨ o.kind = .jobWrite)) = some o ∧
      s.isRemoteOp 17 1 = false ∧ s.rd Reg.RING_OP_TMO ≤ (s.now - o.issued).toNat ∧ o.kind = .read ∧ accepted (s.gen 17) o.resGen = true ∧
      roomOk s 0x0422 (unitId 4 (spindleStop 17)) = true) ∧
    (∃ (s : State) (o : OpEnt),
      (s.spn 17).ops.find? (fun o => o.id == 1 && decide (o.kind = .read ∨ o.kind = .write ∨ o.kind = .atom ∨ o.kind = .send ∨ o.kind = .jobWrite)) = some o ∧
      s.isRemoteOp 17 1 = false ∧ (s.now - o.issued).toNat < s.rd Reg.RING_OP_TMO) ∧
    (∃ s : State, ∀ o ∈ (s.spn 17).ops, o.id ≠ 1) ∧
    (∃ (s : State) (e : EventRec), invOk s = true ∧ (tget {} s.nodes 38).recs = [e] ∧ way0.bad = none ∧ s.log.length < 4096) ∧
    (∃ (s : State) (e : EventRec) (w : CtlWay), (tget {} s.nodes 38).recs = [e] ∧ w.bad.isSome = true) ∧
    (∃ s : State, (tget {} s.nodes 38).recs = []) ∧ (∃ s : State, invOk s = true ∧ 5 ∉ s.ring.lost) ∧ (∃ s : State, 5 ∈ s.ring.lost) ∧ (∃ s : State, 4 ∉ s.ring.lost) :=
  let o : State := State.reset.setSpn 17 { ops := [op1 .read] }
  let at_ (d st : Nat) (f : RingFlit) : State := { State.reset with out := [.ring 3 d st f] }
  let e : EventRec := { tick := 0, code := 0x0421, unit := 0, ctx := 0, sev := 2, lost := false, data := [] }
  ⟨⟨at_ 0 1 (rflit 5), 1, rflit 5, by decide +kernel⟩, ⟨at_ 1 27 (rflit 27), 27, rflit 27, by decide +kernel⟩, ⟨at_ 0 28 (rflit 5), 28, rflit 5, by decide +kernel⟩,
   ⟨{ State.reset with ring := { leave := [(3, 0, 2)] } }, ⟨nextStop 0 2, by decide⟩, rflit 5, by decide +kernel⟩,
   ⟨State.reset, ⟨nextStop 0 2, by decide⟩, rflit 1, by decide +kernel⟩, ⟨State.reset, ⟨nextStop 0 2, by decide⟩, rflit 5, by decide +kernel⟩, ⟨State.reset, by decide +kernel⟩,
   ⟨{ State.reset with ring := { starved := [(3, 1, 28)] } }, by decide +kernel⟩, ⟨{ o with now := 1000000000000 }, op1 .read, by decide +kernel⟩,
   ⟨o, op1 .read, by decide +kernel⟩, ⟨State.reset, by decide +kernel⟩, ⟨{ State.reset with nodes := [(38, { recs := [e] })] }, e, by decide +kernel⟩,
   ⟨{ State.reset with nodes := [(38, { recs := [e] })] }, e, { way0 with bad := some 5 }, by decide +kernel⟩,
   ⟨State.reset, by decide +kernel⟩, ⟨State.reset, by decide +kernel⟩, ⟨{ State.reset with ring := { lost := [5] } }, by decide +kernel⟩, ⟨State.reset, by decide +kernel⟩⟩

/-- A packet of the running context's channel 63. -/
def cpkt (k : ChanKind) : ChanPkt :=
  { kind := k, ctx := 0x11, src := ⟨false, 0, 1, 2⟩, dst := ⟨false, 0, 0, 63⟩, msg := { seq := 0, words := [7], poison := 0 }, op := 1 }

theorem witness_channelTraffic :
    (∃ (s : State) (p : ChanPkt) (h : ChanHome) (b : ChanBind), invOk s = true ∧ s.strayAt p = none ∧ s.chanAbsorbed p.dst.logical = false ∧ s.chanHome p.ctx p.dst.logical = some h ∧
      h.live = true ∧ p.src.remote = false ∧ (tget {} (s.spn h.ps).inq p.dst.chan).st ≠ .closed ∧ (tget {} (s.spn h.ps).inq p.dst.chan).st ≠ .unbound ∧
      (tget {} (s.spn h.ps).inq p.dst.chan).bind = some b ∧ b.same p.src = true ∧ (p.msg.seq - (tget {} (s.spn h.ps).inq p.dst.chan).head).toNat < 32 ∧
      (tget {} (s.spn h.ps).inq p.dst.chan).held.any (fun m => m.seq == p.msg.seq) = false ∧ (tget {} (s.spn h.ps).inq p.dst.chan).posted = []) ∧
    (∃ (s : State) (p : ChanPkt) (h : ChanHome), invOk s = true ∧ s.strayAt p = none ∧ s.chanAbsorbed p.dst.logical = false ∧ s.chanHome p.ctx p.dst.logical = some h ∧
      h.live = true ∧ p.src.remote = false ∧ (tget {} (s.spn h.ps).inq p.dst.chan).st = .closed) ∧
    (∃ (s : State) (p : ChanPkt), invOk s = true ∧ s.strayAt p = none ∧ s.chanHome p.ctx p.dst.logical = none ∧ s.chanAbsorbed p.dst.logical = false ∧ p.src.remote = false) ∧
    (∃ (s : State) (p : ChanPkt) (o : OpEnt), invOk s = true ∧ s.strayAt p = none ∧ (s.spn (s.physOf p.dst.logical)).ops.find? (fun o =>
      o.kind == .send && (o.id == p.op || (p.src.remote && opIdOf o.id == opIdOf p.op))) = some o ∧ (tget {} (s.spn (s.physOf p.dst.logical)).outq o.cnt).st = .opened) ∧
    (∃ (s : State) (p : ChanPkt) (h : ChanHome), invOk s = true ∧ s.strayAt p = none ∧ s.chanHome p.ctx p.dst.logical = some h ∧ h.live = true ∧ p.kind = .notice ∧
      (tget {} (s.spn h.ps).outq p.dst.chan).st = .opened) ∧
    (∃ (s : State) (p : ChanPkt) (h : ChanHome), s.strayAt p = none ∧ s.chanHome p.ctx p.dst.logical = some h ∧ h.live = true ∧ p.kind = .notice ∧
      (tget {} (s.spn h.ps).outq p.dst.chan).st ≠ .opened) ∧
    (∃ (s : State) (p : ChanPkt) (h : ChanHome), s.strayAt p = none ∧ s.chanHome p.ctx p.dst.logical = some h ∧ h.live = true ∧ p.kind ≠ .notice ∧
      (tget {} (s.spn h.ps).inq p.dst.chan).st = .opened) ∧
    (∃ (s : State) (p : ChanPkt) (h : ChanHome), s.strayAt p = none ∧ s.chanHome p.ctx p.dst.logical = some h ∧ h.live = true ∧ (tget {} (s.spn h.ps).inq p.dst.chan).st ≠ .opened) ∧
    (∃ (s : State) (p : ChanPkt) (st : Nat), s.strayAt p = some st) :=
  let h : ChanHome := { slot := 1, ctx := 0x11, l := 0, ps := 3, live := true }
  let b : ChanBind := ⟨false, 9, 1, 2⟩
  let iq (q : InQueue) : State := { live { inq := [(63, q)] } job1 with domsOff := 0 }
  let oq : State := live { outq := [(63, { st := .opened, credits := 3 })] } job1
  ⟨⟨iq { st := .opened, head := 0xFFE1, bind := some b }, cpkt .message, h, b, by decide +kernel⟩, ⟨iq { st := .closed }, cpkt .message, h, by decide +kernel⟩,
   ⟨State.reset, cpkt .message, by decide +kernel⟩,
   ⟨live { ops := [{ op1 .send with cnt := 63 }], outq := [(63, { st := .opened })] } job1, cpkt .accept, { op1 .send with cnt := 63 }, by decide +kernel⟩,
   ⟨oq, cpkt .notice, h, by decide +kernel⟩, ⟨live {} job1, cpkt .notice, h, by decide +kernel⟩, ⟨iq { st := .opened }, cpkt .readerNotice, h, by decide +kernel⟩,
   ⟨live {} job1, cpkt .endMark, h, by decide +kernel⟩,
   ⟨{ State.reset with ring := { door := [(2, .chan (cpkt .message))] } }, cpkt .message, 2, by decide +kernel⟩⟩

/-! ### Links. -/

/-- Half-port 6, of port 3, enabled with its domain on, and in a state. -/
def port6 (st : Nat) (x : Half) : State :=
  ((({ State.reset with domsOff := 0, fab := { halves := [(6, x)] } } : State).wr (Reg.PORT_HCTL 3 0) 1).wf (Reg.PORT_ST 3 0) 2 0 st).wf (Reg.PORT_ST 3 1) 2 0 0

/-- A fabric packet that waits since tick 0. -/
def waits : WaitPkt := { pkt := {}, ingress := none, vc := 0, since := 0 }

/-- A tracker entry that holds packet 0 of operation 9. -/
def entry : TrkEnt := { scoord := 4, sep := 2, op := 9, answer := false, got := [0], total := none, poison := false, lastAt := 0, tomb := none, cid := 0, dep := 19 }

/-- The state right after reset at tick `n`, its fabric `f`. -/
def fabAt (n : Nat) (f : Fab) : State := { State.reset with now := BitVec.ofNat 64 n, fab := f }

theorem witness_links :
    (∃ s : State, invOk s = true ∧ s.portSt 6 = 0 ∧ s.portsLive = true ∧ bitOf (s.hctl 6) 0 = true ∧ bitsOf (s.hctl 6) 6 5 ≠ 2) ∧
    (∃ s : State, invOk s = true ∧ s.portSt 7 = 0 ∧ s.portsLive = true ∧ bitOf (s.hctl 7) 0 = true ∧ bitOf (s.rd (Reg.PORT_CTL 3)) 3 = true ∧ bitsOf (s.hctl 7) 6 5 ≠ 2) ∧
    (∃ s : State, invOk s = true ∧ s.portSt 6 ≠ 0) ∧
    (∃ s : State, invOk s = true ∧ s.portSt 6 = 1 ∧ (s.half 6).mode = 1) ∧
    (∃ s : State, invOk s = true ∧ s.portSt 6 = 1 ∧ (s.half 6).mode = 2 ∧ trainWidth true (s.cfgWidth 6) (s.keptLanes 6 0x83).toNat = some (2, [0, 1])) ∧
    (∃ s : State, invOk s = true ∧ s.portSt 6 = 1 ∧ (s.half 6).mode = 2 ∧ trainWidth false (s.cfgWidth 6) (s.keptLanes 6 0xF7).toNat = some (4, [4, 5, 6, 7]) ∧
      (s.half 6).strict = false) ∧
    (∃ s : State, s.portSt 6 ≠ 1) ∧
    (∃ s : State, invOk s = true ∧ (s.half 6).trainAt = some 0 ∧ s.portSt 6 = 1 ∧ 100000000 ≤ (s.now - 0).toNat) ∧
    (∃ s : State, invOk s = true ∧ (s.half 6).trainAt = some 0 ∧ s.portSt 6 = 1 ∧ (s.now - 0).toNat < 100000000) ∧
    (∃ s : State, invOk s = true ∧ (s.half 6).retryAt = some 7 ∧ s.portSt 6 = 4 ∧ 7 ≤ s.now ∧ s.portsLive = true ∧ bitOf (s.hctl 6) 0 = true ∧ bitsOf (s.hctl 6) 6 5 ≠ 2) ∧
    (∃ s : State, invOk s = true ∧ (s.half 6).retryAt = some 7 ∧ s.now < 7) ∧
    (∃ s : State, invOk s = true ∧ s.portSt 6 = 5) ∧
    (∃ s : State, invOk s = true ∧ s.domOn (regDomain (Reg.PORT_CTL 3)) = true ∧ bitOf (s.hctl 6) 0 = true ∧ s.portsLive = true ∧ bitsOf (s.hctl 6) 6 5 ≠ 2 ∧
      bitOf (s.rd (Reg.PORT_CTL 3)) 3 = false) ∧
    (∃ s : State, invOk s = true ∧ s.domOn (regDomain (Reg.PORT_CTL 3)) = true ∧ bitOf (s.hctl 6) 0 = false ∧ bitOf (s.rd (Reg.PORT_CTL 3)) 3 = false) ∧
    (∃ s : State, s.domOn (regDomain (Reg.PORT_CTL 3)) = false ∧ s.domOn (regDomain Reg.FAB_EPOCH) = false) ∧
    (∃ s : State, invOk s = true ∧ s.fab.waiting.find? (fun w => decide (s.rd Reg.FAB_HOP_TMO ≤ (s.now - w.since).toNat)) = some waits) ∧
    (∃ s : State, invOk s = true ∧ s.fab.waiting = [waits] ∧ (s.now - 0).toNat < s.rd Reg.FAB_HOP_TMO) ∧
    (∃ (s : State) (e : EpochAt), s.fab.epoch = some e ∧ s.ptpNs < e.sec * 1000000000 + e.ns) ∧
    (∃ (s : State) (e : EpochAt), invOk s = true ∧ s.fab.epoch = some e ∧ e.sec * 1000000000 + e.ns ≤ s.ptpNs) ∧
    (∃ s : State, invOk s = true ∧ s.fab.guard = some 7 ∧ 7 ≤ s.now) ∧ (∃ s : State, s.fab.guard = some 7 ∧ s.now < 7) ∧ (∃ s : State, invOk s = true ∧ s.fab.epoch = none ∧ s.fab.guard = none) ∧
    (∃ s : State, invOk s = true ∧ s.domOn (regDomain Reg.FAB_EPOCH) = true ∧ bitsOf (6#32).toNat 0 0 = s.rf Reg.FAB_EPOCH 0 0 ∧
      bitsOf (1#32).toNat 0 0 ≠ s.rf Reg.FAB_EPOCH 0 0) ∧
    (∃ s : State, invOk s = true ∧ s.fab.tracker.find? (fun e => e.tomb.isNone && !s.finalWaits e && decide (s.rd Reg.FAB_RX_TMO ≤ (s.now - e.lastAt).toNat)) = some entry ∧
      roomOk s 0x0521 devUnit = true) ∧
    (∃ s : State, invOk s = true ∧ s.fab.tracker = [entry] ∧ (s.now - 0).toNat < s.rd Reg.FAB_RX_TMO) :=
  ⟨⟨port6 0 {}, by decide +kernel⟩, ⟨((port6 0 {}).wr (Reg.PORT_HCTL 3 1) 1).wf (Reg.PORT_CTL 3) 3 3 1, by decide +kernel⟩, ⟨port6 3 {}, by decide +kernel⟩,
   ⟨port6 1 { mode := 1 }, by decide +kernel⟩, ⟨port6 1 { mode := 2 }, by decide +kernel⟩, ⟨port6 1 { mode := 2 }, by decide +kernel⟩, ⟨port6 2 {}, by decide +kernel⟩,
   ⟨{ port6 1 { trainAt := some 0 } with now := 100000000 }, by decide +kernel⟩, ⟨{ port6 1 { trainAt := some 0 } with now := 99999999 }, by decide +kernel⟩,
   ⟨{ port6 4 { retryAt := some 7 } with now := 7 }, by decide +kernel⟩, ⟨{ port6 4 { retryAt := some 7 } with now := 6 }, by decide +kernel⟩,
   ⟨port6 5 {}, by decide +kernel⟩, ⟨port6 5 {}, by decide +kernel⟩, ⟨(port6 0 {}).wr (Reg.PORT_HCTL 3 0) 0, by decide +kernel⟩,
   ⟨{ State.reset with domsOff := 2 ^ 64 - 1 }, by decide +kernel⟩,
   ⟨fabAt (State.reset.rd Reg.FAB_HOP_TMO) { waiting := [waits] }, by decide +kernel⟩, ⟨fabAt (State.reset.rd Reg.FAB_HOP_TMO - 1) { waiting := [waits] }, by decide +kernel⟩,
   ⟨fabAt 0 { epoch := some ⟨1, 1, 2 ^ 60, 0⟩ }, ⟨1, 1, 2 ^ 60, 0⟩, by decide +kernel⟩, ⟨fabAt 0 { epoch := some ⟨1, 1, 0, 0⟩ }, ⟨1, 1, 0, 0⟩, by decide +kernel⟩,
   ⟨fabAt 7 { guard := some 7 }, by decide +kernel⟩, ⟨fabAt 6 { guard := some 7 }, by decide +kernel⟩, ⟨State.reset, by decide +kernel⟩, ⟨port6 0 {}, by decide +kernel⟩,
   ⟨fabAt (State.reset.rd Reg.FAB_RX_TMO) { tracker := [entry] }, by decide +kernel⟩, ⟨fabAt (State.reset.rd Reg.FAB_RX_TMO - 1) { tracker := [entry] }, by decide +kernel⟩⟩

/-! ### Frames and packets. -/

/-- A write of 8 bytes at an address, packet 1 of operation 9, its last. -/
def pkt9 (ty : Nat) : Pkt := { type := ty, last := true, scoord := 4, sep := 2, dep := 19, op := 9, idx := 1, w7 := 2, cid := 0xFFFF, len := 8, payload := List.replicate 8 1 }

/-- The fabric with operation 9 partly received. -/
def got9 (ans : Bool) (l : List Nat) : State := fabAt 5 { tracker := [{ entry with answer := ans, got := l }] }

/-- A packet for an engine counter whose word 7 does not hold its check word's low half. -/
def bad7 (ty : Nat) : Pkt := { pkt9 ty with last := false, check := true, cid := 2 * 2 ^ 14 + 100, w7 := 1 }

/-- An operation 9 of this device. -/
def fop (w : FabWho) : FabOp := { sep := 19, op := 9, type := 1, dcoord := 4, dep := 2, first := 0, who := w }

theorem witness_fabricReception :
    (∃ s : State, s.portSt 6 ≠ 2 ∧ s.portSt 6 ≠ 5) ∧
    (∃ (s : State) (b : List Byte), invOk s = true ∧ s.portSt 6 = 5 ∧ s.filterFrame 6 b = .bad) ∧
    (∃ (s : State) (b : List Byte), invOk s = true ∧ s.portSt 6 = 2 ∧ s.filterFrame 6 b = .other) ∧
    (∃ (s : State) (b : List Byte), invOk s = true ∧ s.portSt 6 = 5 ∧ s.filterFrame 6 b = .untagged) ∧
    (∃ (s : State) (b a : List Byte), invOk s = true ∧ s.portSt 6 = 5 ∧ s.filterFrame 6 b = .answer a) ∧
    (∃ (s : State) (b : List Byte), invOk s = true ∧ s.portSt 6 = 5 ∧ s.filterFrame 6 b = .fabric 1 (List.replicate 42 0) true) ∧
    (∀ ty ∈ [0, 9, 1, 3], invOk (got9 false [1]) = true ∧ (got9 false [1]).fab.tracker.find? (pkt9 ty).hasEntry = some { entry with got := [1] } ∧
      (pkt9 ty).idx ∈ [1] ∧ (got9 false [1]).roleOf (pkt9 ty) = none ∧ ((pkt9 ty).w7Bad && (pkt9 ty).engine.isSome) = false) ∧
    (∃ s : State, invOk s = true ∧ s.fab.tracker.find? (pkt9 2).hasEntry = some { entry with answer := true, got := [1] } ∧ s.opOf (pkt9 2) ≠ none) ∧
    (∀ ty ∈ [0, 9, 1, 3], (got9 false [0]).trackFind (pkt9 ty) = .inr entry ∧ (got9 false [0]).roleOf (pkt9 ty) = none ∧
      ((pkt9 ty).w7Bad && (pkt9 ty).engine.isSome) = false ∧ (got9 false [0]).epAbsorbs (pkt9 ty).dep = false) ∧
    (∃ (s : State) (e : TrkEnt) (o : FabOp), invOk s = true ∧ s.trackFind (pkt9 2) = .inr e ∧ s.opOf (pkt9 2) = some o ∧ o.who ≠ .restore ∧ (pkt9 2).w7 = e.got.length + 1 ∧
      (pkt9 2).engine = none ∧ (pkt9 2).cid / 2 ^ 14 ≠ 1) ∧
    (invOk State.reset = true ∧ State.reset.opOf (pkt9 2) = none) ∧
    (∃ (s : State) (b : List Byte) (l : List (Nat × Nat)), invOk s = true ∧ s.portSt 6 = 5 ∧ s.filterFrame 6 b = .pause l) ∧
    (∀ ty ∈ [0, 9], State.reset.roleOf (bad7 ty) = none ∧ ((bad7 ty).w7Bad && (bad7 ty).engine.isSome) = true) :=
  let on : State := port6 5 {}
  let mac : List Byte := on.macOf on.coord 6
  let four : State := on.wf Reg.FAB_CTL 2 0 7
  let arp : List Byte := endFrame (List.replicate 12 255 ++ [0x81, 0, 0, 0] ++ [0x08, 0x06] ++ [0, 1, 8, 0, 6, 4, 0, 1] ++ List.replicate 16 3 ++ four.ip4Of four.coord 6)
  let et : List Byte := toBE 2 (on.rf Reg.FAB_ETYPE 15 0)
  ⟨⟨port6 3 {}, by decide +kernel⟩, ⟨on, List.replicate 64 0, by decide +kernel⟩, ⟨port6 2 {}, endFrame (List.replicate 60 0), by decide +kernel⟩,
   ⟨on, endFrame (mac ++ List.replicate 6 0 ++ et), by decide +kernel⟩, ⟨four, arp, four.arpReply 6 (List.replicate 6 255) (List.replicate 6 3) (List.replicate 4 3), by decide +kernel⟩,
   ⟨on, endFrame (mac ++ List.replicate 6 0 ++ [0x81, 0, 0x20, 0] ++ et), by decide +kernel⟩, by decide +kernel,
   ⟨fabAt 5 { tracker := [{ entry with answer := true, got := [1] }], ops := [fop .ckpt] }, by decide +kernel⟩, by decide +kernel,
   ⟨fabAt 5 { tracker := [{ entry with answer := true }], ops := [fop .stray] }, { entry with answer := true }, fop .stray, by decide +kernel⟩, by decide +kernel,
   ⟨on, endFrame ([0x01, 0x80, 0xC2, 0, 0, 1] ++ List.replicate 6 0 ++ [0x88, 0x08, 1, 1, 0, 2, 0, 0, 0, 9]), [(1, 9)], by decide +kernel⟩, by decide +kernel⟩

/-! ### Collectives. -/

/-- A request of two participants for 16 elements, its engine counters from 64. -/
def creq : CollReq :=
  { src := 0, dst := 0x3000000000, stage := 0x3000100000, nel := 16, npart := 2, rank := 0, cidx := 0, cwlog := 0, scatter := false, drop := false, div := false,
    sfmt := 0, rfmt := 0, e := 0, cnt := 3, mcg := 0, ptab := 0, ecb := 64 }

/-- The collective of that request. -/
def coll1 : Coll := { ctx := 0x11, logical := 0, req := creq, exact := false, step := 7, taken := 0, table := [1, 2] }

/-- The state at tick `n` with a collective active. -/
def collState (n : Nat) (c : Coll) : State := { State.reset with now := BitVec.ofNat 64 n, coll := { active := [c] } }

/-- A packet of the collective for engine counter `64 + k`, its trailer `tr`. -/
def cpk (ty k tr : Nat) : Pkt :=
  { type := ty, last := true, scoord := 4, sep := 2, dep := 16, op := 9, w7 := 1, cid := 2 * 2 ^ 14 + 64 + k, len := 16, step := 7, check := true, addr := creq.stage,
    payload := List.replicate 8 1 ++ toLE 8 tr }

/-- A packet of type `ty` and its payload. -/
def cmsg (ty : Nat) (l : List Byte) : Pkt := { type := ty, scoord := 4, sep := 2, dep := 19, op := 9, payload := l }

theorem witness_collectives :
    (∃ s : State, (s.now - s.coll.polledAt).toNat < s.rd Reg.COLL_POLL) ∧ (∃ s : State, s.rd Reg.COLL_POLL ≤ (s.now - s.coll.polledAt).toNat ∧ s.runningSlot = none) ∧
    (∃ (s : State) (j : Slot), s.rd Reg.COLL_POLL ≤ (s.now - s.coll.polledAt).toNat ∧ s.runningSlot = some j ∧ j.job.coll = 0) ∧
    (∃ (s : State) (j : Slot), s.rd Reg.COLL_POLL ≤ (s.now - s.coll.polledAt).toNat ∧ s.runningSlot = some j ∧ j.job.coll ≠ 0) ∧
    (invOk State.reset = true ∧ coll1.req.ecb < 65536 ∧ 0 < 255 ∧ 255 < 256) ∧
    (∃ (s : State) (p : Pkt) (c : Coll), p.type = 5 ∧ s.collOf p = some c ∧ c.mismatch p (c.lo (c.shardOf (c.placeOf p).1) + p.idx * c.per) c.w = true) ∧
    (∃ (s : State) (p : Pkt) (c : Coll), p.type = 5 ∧ s.collOf p = some c ∧ c.mismatch p (c.lo (c.shardOf (c.placeOf p).1) + p.idx * c.per) c.w = false ∧ p.shadow = false) ∧
    (∃ (s : State) (p : Pkt), invOk s = true ∧ p.type = 5 ∧ s.collOf p = none ∧ p.shadow = true) ∧ (∃ (s : State) (p : Pkt), p.type = 5 ∧ s.collOf p = none ∧ p.shadow = false ∧
      (Pkt.w7Bad { p with check := true } && (Pkt.engine { p with check := true }).isSome) = true) ∧
    (∃ (s : State) (p : Pkt), p.type = 5 ∧ s.collOf p = none ∧ p.shadow = false ∧ (Pkt.w7Bad { p with check := true } && (Pkt.engine { p with check := true }).isSome) = false) ∧
    (cpk 5 0 0).step ≠ { coll1 with step := 8 }.step % 2 ^ 32 ∧
    (∀ off ∈ [1, 2, 3], (collState 0 coll1).roleOf (cpk 0 off 0) = some (coll1, off) ∧ (cpk 0 off 0).check = true ∧
      coll1.mismatch (cpk 0 off 0) (((cpk 0 off 0).addr - coll1.req.dst) / coll1.wr) coll1.wr = true) ∧
    (∀ off ∈ [1, 2, 3], (collState 0 coll1).roleOf { cpk 9 off 0 with check := false } = some (coll1, off)) ∧
    coll1.arrived < (if coll1.req.scatter then 1 else coll1.req.npart) ∧ State.reset.roleOf (cpk 0 1 0) = none ∧
    (∃ s : State, s.collAt 64 = some coll1 ∧ (s.now - coll1.taken).toNat < s.rd Reg.COLL_DEADLINE ∧ (s.now - coll1.taken).toNat < s.rd Reg.COLL_RESULT_TMO) ∧
    (∃ s : State, s.collAt 64 = some coll1 ∧ s.rd Reg.COLL_DEADLINE ≤ (s.now - coll1.taken).toNat ∧ s.rbit Reg.COLL_CTL 0 = false ∧ coll1.req.drop = false ∧
      coll1.expected.find? (fun r => !(coll1.have_ 0).contains r) = some 0) ∧
    (∃ (s : State) (c : Coll), s.collAt 64 = some c ∧ s.rd Reg.COLL_DEADLINE ≤ (s.now - c.taken).toNat ∧ s.rbit Reg.COLL_CTL 0 = false ∧ c.req.drop = true ∧ c.exclusion = false) ∧
    (∃ (s : State) (c d : Coll), s.collAt 64 = some c ∧ c.readyAt = some 0 ∧ c.req.rank = 0 ∧ c.agreed = none ∧ s.rd Reg.COLL_AGREE_TMO < (s.now - 0).toNat ∧
      (s.formAgreed c []).collAt 64 = some d ∧ d.agreed = none) ∧
    (∃ (s : State) (c : Coll), s.collAt 64 = some c ∧ c.readyAt = some 0 ∧ (s.now - 0).toNat ≤ s.rd Reg.COLL_AGREE_TMO) ∧
    (∃ (s : State) (c : Coll), s.collAt 64 = some c ∧ s.rd Reg.COLL_RESULT_TMO ≤ (s.now - c.taken).toNat) ∧ State.reset.collAt 64 = none ∧
    (∃ s : State, s.rd Reg.COLL_HB_INT ≤ (s.now - s.coll.hbAt).toNat) ∧ (∃ s : State, (s.now - s.coll.hbAt).toNat < s.rd Reg.COLL_HB_INT) ∧
    (∃ s : State, invOk s = true ∧ 63 < 64 ∧ s.rbit (Reg.COLL_PEER 63) 31 = true ∧ s.rf (Reg.COLL_PEER 63) 12 0 = (cmsg 8 []).scoord) ∧
    (∃ (s : State) (p : Pkt), p.type = 7 ∧ s.fromPartner (some 6) (rdLE p.payload 0 2 % 2 ^ 13) = none ∧ rdLE p.payload 6 2 ≠ s.rf Reg.COLL_DIKE 15 0) ∧
    (∃ (s : State) (p : Pkt), p.type = 7 ∧ s.fromPartner (some 6) (rdLE p.payload 0 2 % 2 ^ 13) = some 6 ∧ rdLE p.payload 6 2 ≠ s.rf Reg.COLL_DIKE 15 0) ∧
    (invOk State.reset = true ∧ (cmsg 6 [1, 0]).sub = 1 ∧ State.reset.opOf (cmsg 6 [1, 0]) = none) ∧
    (∃ (s : State) (o : FabOp), invOk s = true ∧ s.opOf (cmsg 6 [1, 0]) = some o ∧ o.who = .stray ∧ o.left ≤ 1) ∧
    (∃ (s : State) (o : FabOp), invOk s = true ∧ s.opOf (cmsg 6 [1, 0]) = some o ∧ o.who = .dispatch 3 1 ∧ o.left ≤ 1) :=
  let jc : Slot := { job1 with job := { job1.job with coll := 0x3000000000 } }
  let due (s : State) : State := { s with now := BitVec.ofNat 64 (s.rd Reg.COLL_POLL) }
  let good : Nat := checkWord 7 0 (elemsOf 4 (List.replicate 8 1))
  let cd : Coll := { coll1 with req := { creq with drop := true } }
  let cr : Coll := { coll1 with readyAt := some 0 }
  let seen : State := (port6 5 {}).wr (Reg.PORT_PARTNER 3 0) (2 ^ 31 + 4)
  ⟨⟨State.reset, by decide +kernel⟩, ⟨due State.reset, by decide +kernel⟩, ⟨due (live {} job1), job1, by decide +kernel⟩, ⟨due (live {} jc), jc, by decide +kernel⟩, by decide +kernel,
   ⟨collState 0 coll1, cpk 5 0 (good ^^^ 1), coll1, by decide +kernel⟩, ⟨collState 0 coll1, cpk 5 0 good, coll1, by decide +kernel⟩,
   ⟨State.reset, { cpk 5 0 0 with shadow := true }, by decide +kernel⟩,
   ⟨State.reset, { cpk 5 0 0 with last := false }, by decide +kernel⟩, ⟨State.reset, cmsg 5 [], by decide +kernel⟩, by decide +kernel, by decide +kernel, by decide +kernel,
   by decide +kernel, by decide +kernel,
   ⟨collState 0 coll1, by decide +kernel⟩, ⟨(collState (State.reset.rd Reg.COLL_DEADLINE) coll1).wf Reg.COLL_CTL 0 0 0, by decide +kernel⟩,
   ⟨(collState (State.reset.rd Reg.COLL_DEADLINE) cd).wf Reg.COLL_CTL 0 0 0, cd, by decide +kernel⟩,
   ⟨collState (State.reset.rd Reg.COLL_AGREE_TMO + 1) cr, cr, cr, by decide +kernel⟩, ⟨collState (State.reset.rd Reg.COLL_AGREE_TMO) cr, cr, by decide +kernel⟩,
   ⟨collState (State.reset.rd Reg.COLL_RESULT_TMO) cr, cr, by decide +kernel⟩, by decide +kernel,
   ⟨{ State.reset with now := BitVec.ofNat 64 (State.reset.rd Reg.COLL_HB_INT) }, by decide +kernel⟩,
   ⟨{ State.reset with now := BitVec.ofNat 64 (State.reset.rd Reg.COLL_HB_INT - 1) }, by decide +kernel⟩,
   ⟨State.reset.wr (Reg.COLL_PEER 63) (2 ^ 31 + 4), by decide +kernel⟩, ⟨port6 5 {}, cmsg 7 [4, 0, 0, 0, 0, 0, 9, 0], by decide +kernel⟩,
   ⟨seen, cmsg 7 [4, 0, 0, 0, 0, 0, 9, 0], by decide +kernel⟩, by decide +kernel, ⟨fabAt 0 { ops := [fop .stray] }, fop .stray, by decide +kernel⟩,
   ⟨fabAt 0 { ops := [fop (.dispatch 3 1)] }, fop (.dispatch 3 1), by decide +kernel⟩⟩

/-! ### Tests and ageing. -/

/-- The state at tick `n` of both clocks with `h` of tests, repair and ageing. -/
def hlAt (n : Nat) (h : Hlth) : State := { State.reset with now := BitVec.ofNat 64 n, wall := BitVec.ofNat 64 n, hlth := h }

/-- A move of logical index 0 from spindle 3 to spindle 8. -/
def move0 (y : MoveWhy) : Move := { logical := 0, src := 3, dst := 8, why := y }

theorem witness_selfTests :
    (∃ s : State, s.hlth.waves = []) ∧
    (∃ s : State, invOk s = true ∧ s.hlth.waves = [[0x4800], [0x2800]] ∧ s.hlth.outs = [] ∧ ∀ u ∈ [0x4800], 18 ≤ u) ∧
    (∃ s : State, invOk s = true ∧ s.hlth.waves = [[18, 0x2800]] ∧ s.hlth.outs = [] ∧ ∀ u ∈ [18, 0x2800], 18 ≤ u) ∧
    (∃ s : State, s.hlth.waves ≠ [] ∧ 50000000 ≤ (s.wall - s.hlth.waveAt).toNat) ∧
    (∃ s : State, s.hlth.waves = [] ∧ s.rf Reg.TEST_ROLL_ST 2 0 = 4 ∧ 50000000 ≤ (s.now - s.hlth.rollAt).toNat) ∧
    (∃ (s : State) (r : Returning), s.hlth.waves = [] ∧ s.rf Reg.TEST_ROLL_ST 2 0 ≠ 4 ∧ s.hlth.returning = [r] ∧ s.testing r = true ∧ 50000000 ≤ (s.now - r.start).toNat) ∧
    (∃ (s : State) (r : Returning), s.hlth.waves = [] ∧ s.rf Reg.TEST_ROLL_ST 2 0 ≠ 4 ∧ s.hlth.returning = [r] ∧ (s.now - r.start).toNat < 50000000) ∧
    (∃ s : State, s.anyResident = true) ∧ (∃ s : State, s.risers = []) ∧ (∃ s : State, s.anyResident = false ∧ s.risers ≠ []) ∧
    (∃ s : State, s.hlth.moves.find? (fun m => m.logical == 15) = none) ∧
    (∃ s : State, s.hlth.moves.find? (fun m => m.logical == 0) = some (move0 .fence) ∧ s.runCtx = 0) ∧
    (∃ (s : State) (j : Slot), s.hlth.moves.find? (fun m => m.logical == 0) = some (move0 .fence) ∧ s.runningSlot = some j ∧ s.usesIndex 0 = false) ∧
    (∃ (s : State) (j : Slot), s.hlth.moves.find? (fun m => m.logical == 0) = some (move0 .fence) ∧ s.runningSlot = some j ∧ s.usesIndex 0 = true ∧ s.doorBusy 3 = false ∧ s.physOf 0 = (move0 .fence).src ∧
      s.endedAt 0 = false ∧ s.savedAway j 0 = false ∧ (s.spn 3).drain = none ∧ (s.spn 3).load = .draining ∧ invOk s = true) ∧
    (∃ (s : State) (j : Slot), s.hlth.moves.find? (fun m => m.logical == 0) = some (move0 .fence) ∧ s.runningSlot = some j ∧ s.usesIndex 0 = true ∧ s.doorBusy 3 = false ∧ s.physOf 0 = (move0 .fence).src ∧
      s.endedAt 0 = false ∧ s.savedAway j 0 = false ∧ (s.spn 3).drain ≠ none) ∧
    (∃ s : State, s.hlth.moves.find? (fun m => m.logical == 0) = some (move0 .fence) ∧ s.usesIndex 0 = true ∧ s.doorBusy 3 = true) ∧
    (∃ s : State, s.rbit Reg.TEST_CTL 0 = false ∧ s.hlth.rollPend = false) ∧
    (∃ s : State, s.rbit Reg.TEST_CTL 0 = true ∧ s.rbit Reg.CMD_STRAPS 14 = false ∧ s.rd Reg.TEST_ROLL_PERIOD * 100000000 ≤ (s.now - s.hlth.rollDue).toNat ∧ s.hlth.rollPend = false) ∧
    (∃ s : State, s.rollDueNow.hlth.rollPend = true ∧ s.rollDueNow.rf Reg.TEST_ROLL_ST 2 0 ≠ 0) ∧
    (∃ (s : State) (ps : Nat), s.rollDueNow.hlth.rollPend = true ∧ s.rollDueNow.rf Reg.TEST_ROLL_ST 2 0 = 0 ∧ s.rollDueNow.rollNext = some ps ∧ s.rollDueNow.rollBlock ps = 0) ∧
    (∃ (s : State) (ps : Nat), s.rollDueNow.hlth.rollPend = true ∧ s.rollDueNow.rf Reg.TEST_ROLL_ST 2 0 = 0 ∧ s.rollDueNow.rollNext = some ps ∧ s.rollDueNow.rollBlock ps = 3) ∧
    (∃ s : State, s.rf Reg.TEST_ROLL_ST 2 0 ≠ 4 ∧ s.rf Reg.TEST_ROLL_ST 2 0 ≠ 1 ∧ s.rf Reg.TEST_ROLL_ST 2 0 ≠ 5) ∧
    (∃ (s : State) (o : TestOut), o.unit ≠ unitId 0 (s.rf Reg.TEST_ROLL_ST 12 8)) ∧
    (∃ (s : State) (o : TestOut), s.rf Reg.TEST_ROLL_ST 2 0 = 4 ∧ o.unit = unitId 0 (s.rf Reg.TEST_ROLL_ST 12 8) ∧ o.logic = 2) ∧
    (∃ s : State, (s.now - s.hlth.rollAt).toNat < s.rd Reg.TEST_ROLL_WAIT) ∧
    (∃ (s : State) (m : Move), invOk s = true ∧ s.rf Reg.TEST_ROLL_ST 2 0 = 1 ∧ s.rd Reg.TEST_ROLL_WAIT ≤ (s.now - s.hlth.rollAt).toNat ∧ s.hlth.moves = [m] ∧ m.why = .rollOut ∧
      (s.spn m.src).drain = none ∧ roomOk s 0x0809 (s.rf Reg.TEST_ROLL_ST 12 8) = true) ∧
    (∃ s : State, s.hlth.returning = []) ∧
    (∀ o ∈ [({ unit := 0x4801, logic := 2 } : TestOut), { unit := 0x4801 }, { unit := 0x2803, march := true }, { unit := 3, logic := 2 }], ∃ (s : State) (r : Returning),
      s.hlth.returning = [r] ∧ r.unit = o.unit ∧ s.testing r = true) :=
  let ten : Slot := { job1 with lcount := 0 }
  let pend (n : Nat) : State := hlAt n { rollPend := true }
  let full : State := (List.range 18).foldl (fun s k => s.wf (Reg.SPN_STATE k) 2 0 0) ((pend 0).wf Reg.CMD_DEV_STATE 2 0 stService)
  let ret (o : TestOut) (n : Nat) : State := (hlAt n { returning := [⟨o.unit, 0⟩] }).wf (Reg.SPN_STATE 3) 2 0 5
  let mv (s : State) : State := { s with hlth := { moves := [move0 .fence] } }
  ⟨⟨State.reset, rfl⟩, ⟨hlAt 0 { waves := [[0x4800], [0x2800]] }, by decide +kernel⟩, ⟨hlAt 0 { waves := [[18, 0x2800]] }, by decide +kernel⟩,
   ⟨hlAt 50000000 { waves := [[1]] }, by decide +kernel⟩, ⟨(hlAt 50000000 {}).wf Reg.TEST_ROLL_ST 2 0 4, by decide +kernel⟩,
   ⟨hlAt 50000000 { returning := [⟨0x4801, 0⟩] }, ⟨0x4801, 0⟩, by decide +kernel⟩, ⟨hlAt 49999999 { returning := [⟨0x4801, 0⟩] }, ⟨0x4801, 0⟩, by decide +kernel⟩,
   ⟨live {} job1, by decide +kernel⟩, ⟨State.reset, by decide +kernel⟩, ⟨hlAt 0 { holding := [8] }, by decide +kernel⟩, ⟨State.reset, rfl⟩,
   ⟨hlAt 0 { moves := [move0 .fence] }, by decide +kernel⟩, ⟨mv (live {} ten), ten, by decide +kernel⟩,
   ⟨mv (live { load := .draining } job1), job1, by decide +kernel⟩,
   ⟨mv (live { drain := some { why := .transfer, scan := false, asked := 0, point := false, ready := false } } job1), job1, by decide +kernel⟩,
   ⟨{ mv (live {} job1) with ring := { door := [(spindleStop 3, .chan ⟨.message, 0x11, ⟨false, 0, 1, 2⟩, ⟨false, 0, 0, 63⟩, noMsg, 1⟩)] } }, by decide +kernel⟩,
   ⟨State.reset.wf Reg.TEST_CTL 0 0 0, by decide +kernel⟩, ⟨(hlAt (State.reset.rd Reg.TEST_ROLL_PERIOD * 100000000) {}).wf Reg.TEST_CTL 0 0 1, by decide +kernel⟩,
   ⟨(pend 0).wf Reg.TEST_ROLL_ST 2 0 1, by decide +kernel⟩, ⟨full.wf Reg.TEST_CTL 0 0 1, 0, by decide +kernel⟩,
   ⟨(full.wf Reg.CMD_DEV_STATE 2 0 0).wf Reg.TEST_CTL 0 0 1, 0, by decide +kernel⟩, ⟨State.reset, by decide +kernel⟩, ⟨State.reset, { unit := 9 }, by decide +kernel⟩,
   ⟨(State.reset.wf Reg.TEST_ROLL_ST 2 0 4).wf Reg.TEST_ROLL_ST 12 8 3, { unit := 3, logic := 2 }, by decide +kernel⟩, ⟨State.reset, by decide +kernel⟩,
   ⟨(hlAt (State.reset.rd Reg.TEST_ROLL_WAIT) { moves := [move0 .rollOut] }).wf Reg.TEST_ROLL_ST 2 0 1, move0 .rollOut, by decide +kernel⟩, ⟨State.reset, rfl⟩,
   fun o ho => ⟨ret o 0, ⟨o.unit, 0⟩, by revert o; decide +kernel⟩⟩

theorem witness_ageing :
    (∃ s : State, s.tstrictRuns = true) ∧ (∃ s : State, s.tstrictRuns = false ∧ s.runCtx = 0) ∧
    (∃ s : State, let x := (([] : List (Nat × Nat)).foldl (fun s o => s.readOsc o.1 o.2) (([] : List (Nat × List (List Int))).foldl (fun s m => s.readDomain m.1 m.2) s)).syncPend
      x.runCtx ≠ 0) ∧
    (∃ s : State, invOk s = true ∧ 63 < 64 ∧ tget 0 s.hlth.roBase 63 = 400 ∧ 0 < 400 ∧ 500 < 2 ^ 32 ∧ 4 * (500 - 400) ≤ 400 ∧ 4 * (400 - 500) ≤ 400) ∧
    (∃ s : State, 63 < 64 ∧ tget 0 s.hlth.roBase 63 = 400 ∧ 400 < 4 * (501 - 400)) ∧
    (∃ s : State, s.hlth.refit.contains 5 = false ∧ s.rf (Reg.HLTH_AGE 5) 7 0 < 1 ∧ s.overBudget 5 1 = false) ∧ (∃ s : State, 250 < s.fmax) ∧
    (∃ s : State, (s.now - s.hlth.pohAt).toNat < 360000000000) ∧ (∃ s : State, 360000000000 ≤ (s.now - s.hlth.pohAt).toNat) :=
  ⟨⟨live {} { job1 with tstrict := true }, by decide +kernel⟩, ⟨State.reset, by decide +kernel⟩, ⟨live {} job1, by decide +kernel⟩,
   ⟨hlAt 0 { roBase := [(63, 400)] }, by decide +kernel⟩, ⟨hlAt 0 { roBase := [(63, 400)] }, by decide +kernel⟩, ⟨State.reset, by decide +kernel⟩,
   ⟨State.reset, by decide +kernel⟩, ⟨State.reset, by decide +kernel⟩, ⟨hlAt 360000000000 {}, by decide +kernel⟩⟩

/-! ### Resets and hangs. -/

/-- A control message that asks for a reset of level `l` of unit 3, its sequence 5. -/
def rstMsg (l : Nat) : CtlMsg := { cls := 0, dst := 35, src := 0, words := [l * 2 ^ 44 + 3 * 2 ^ 28 + 1 * 2 ^ 24 + 5] }

/-- A reset of level `l` of spindle 3, at a step. -/
def reset3 (l : Nat) (a : RstStep) : Reset := { level := l, scope := 3, source := 1, seq := 5, start := 0, timer := 0, counted := false, at_ := a, spins := [3], polders := [] }

/-- The state at tick `n` of both clocks with resets under way. -/
def rstAt (n : Nat) (l : List Reset) : State :=
  { State.reset with now := BitVec.ofNat 64 n, wall := BitVec.ofNat 64 n, rst := { resets := l } }

theorem witness_resets :
    { rstMsg 2 with dst := 34 }.dst ≠ 35 ∧ (rstMsg 2).src < 39 ∧ way0.bad = none ∧ CtlMsg.fits { rstMsg 2 with words := [] } = false ∧
    (∃ s : State, ((s.take (.ctl (rstMsg 1))).ctlWay 0 way0).devState = stHalted) ∧
    (∃ s : State, let x := (s.take (.ctl (rstMsg 1))).ctlWay 0 way0
      x.devState ≠ stHalted ∧ ∀ y ∈ s.rst.resets, ({ reset3 1 .closing with spins := (x.scopeOf 1 3).1, polders := (x.scopeOf 1 3).2 } : Reset).within y = false) ∧
    (∃ s : State, let x := (s.take (.ctl (rstMsg 1))).ctlWay 0 way0
      invOk s = true ∧ x.devState ≠ stHalted ∧ s.rst.resets = [reset3 2 .init] ∧
      ({ reset3 1 .closing with spins := (x.scopeOf 1 3).1, polders := (x.scopeOf 1 3).2 } : Reset).within (reset3 2 .init) = true) ∧
    (∃ s : State, ∀ r ∈ s.rst.resets, r.seq ≠ 6) ∧
    (∀ l ∈ [1, 3, 4], ∀ a ∈ [RstStep.closing, .asserted, .init], ∃ s : State, s.devState ≠ stHalted ∧ s.rst.resets = [reset3 l a] ∧ (reset3 l a).seq = 5 ∧ s.rst.pinLow = false ∧ s.EventRoom 0x0704 3) ∧
    (∃ s : State, s.devState ≠ stHalted ∧ s.rst.resets = [reset3 2 .asserted] ∧ (s.wall - (reset3 2 .asserted).assertAt).toNat < 1000) ∧
    (∃ s : State, s.devState ≠ stHalted ∧ s.rst.resets = [reset3 4 .asserted] ∧ s.rst.pinLow = true) ∧
    (∃ s : State, invOk s = true ∧ s.devState ≠ stHalted ∧ s.rst.resets = [reset3 1 .asserted] ∧ (reset3 1 .asserted).spins = [3] ∧ (reset3 1 .asserted).polders = []) ∧
    (∃ s : State, s.resetDone (reset3 1 .init) = false) ∧ (∃ s : State, s.devState ≠ stHalted ∧ s.rst.resets = [reset3 4 .init] ∧ s.resetDone (reset3 4 .init) = true) ∧
    (∃ s : State, s.devState ≠ stHalted ∧ s.rst.resets = [reset3 1 .init] ∧ s.resetDone (reset3 1 .init) = true) ∧
    (∃ s : State, s.devState ≠ stHalted ∧ s.rst.resets = [reset3 4 .asserted] ∧ s.rd Reg.RST_TMO4 ≤ (s.wall - 0).toNat ∧ s.resetDone (reset3 4 .asserted) = false ∧ s.rst.pinLow = false) ∧
    (∃ s : State, invOk s = true ∧ s.devState ≠ stHalted ∧ s.rst.resets = [reset3 3 .closing] ∧ s.rd Reg.RST_TMO3 ≤ (s.wall - 0).toNat ∧ s.resetDone (reset3 3 .closing) = false ∧ s.EventRoom 0x0704 3) ∧
    (∃ s : State, (s.wall - 0).toNat < s.rd Reg.RST_TMO3) ∧
    (∃ s : State, invOk s = true ∧ s.off = true) ∧ (∃ s : State, invOk s = true ∧ s.off = false ∧ s.devState ≠ stHalted ∧ s.rst.pinLow = false ∧ s.EventRoom 0x070C devUnit) ∧
    (∃ s : State, invOk s = true ∧ s.rst.pinLow = true) ∧
    (∃ s : State, s.fab.ops.find? (fun o => o.sep == 19 && o.op == 10) = none) ∧
    (∀ w ∈ [FabWho.dispatch 3 1, .ckpt, .restore, .stray], ∃ s : State, invOk s = true ∧ s.fab.ops.find? (fun o => o.sep == 19 && o.op == 9) = some (fop w) ∧
      s.rd Reg.FAB_OP_TMO ≤ (s.now - 0).toNat ∧ s.answerWaits (fop w) = false ∧ s.EventRoom 0x0520 devUnit) ∧
    (∃ s : State, s.fab.ops = [fop .stray] ∧ (s.now - 0).toNat < s.rd Reg.FAB_OP_TMO) ∧ (∃ s : State, s.answerWaits (fop .stray) = true) :=
  let up (s : State) : State := ((s.wf (Reg.SPN_STATE 3) 2 0 0).wf Reg.CMD_DEV_STATE 2 0 stService)
  ⟨by decide +kernel, by decide +kernel, by decide +kernel, by decide +kernel, ⟨State.reset.wf Reg.CMD_DEV_STATE 2 0 stHalted, by decide +kernel⟩, ⟨up State.reset, by decide +kernel⟩,
   ⟨up (rstAt 0 [reset3 2 .init]), by decide +kernel⟩, ⟨rstAt 0 [reset3 2 .init], by decide +kernel⟩,
   fun l hl a ha => ⟨rstAt 0 [reset3 l a], by revert a l; decide +kernel, rfl, rfl, rfl, room_of (by revert a l; decide +kernel)⟩, ⟨rstAt 999 [reset3 2 .asserted], by decide +kernel⟩, ⟨{ State.reset with rst := { resets := [reset3 4 .asserted], pinLow := true } }, by decide +kernel⟩,
   ⟨rstAt 0 [reset3 1 .asserted], by decide +kernel⟩, ⟨State.reset.wf (Reg.SPN_STATE 3) 2 0 7, by decide +kernel⟩, ⟨rstAt 0 [reset3 4 .init], by decide +kernel⟩,
   ⟨up (rstAt 0 [reset3 1 .init]), by decide +kernel⟩, ⟨rstAt (State.reset.rd Reg.RST_TMO4) [reset3 4 .asserted], by decide +kernel⟩,
   ⟨rstAt (State.reset.rd Reg.RST_TMO3) [reset3 3 .closing], by decide +kernel, by decide +kernel, by decide +kernel, by decide +kernel, by decide +kernel, room_of (by decide +kernel)⟩,
   ⟨rstAt (State.reset.rd Reg.RST_TMO3 - 1) [], by decide +kernel⟩, ⟨{ State.reset with off := true }, by decide +kernel⟩,
   ⟨{ State.reset with off := false }, by decide +kernel, by decide +kernel, by decide +kernel, by decide +kernel, room_of (by decide +kernel)⟩,
   ⟨{ State.reset with rst := { pinLow := true } }, by decide +kernel⟩, ⟨fabAt 0 { ops := [fop .stray] }, by decide +kernel⟩,
   fun w hw => ⟨fabAt (State.reset.rd Reg.FAB_OP_TMO) { ops := [fop w] }, by revert w; decide +kernel, by revert w; decide +kernel, by revert w; decide +kernel, by revert w; decide +kernel,
     room_of (by revert w; decide +kernel)⟩,
   ⟨fabAt (State.reset.rd Reg.FAB_OP_TMO - 1) { ops := [fop .stray] }, by decide +kernel⟩,
   ⟨{ fabAt 0 { ops := [fop .stray] } with pending := [.fabReadResponse none (pkt9 2)] }, by decide +kernel⟩⟩

theorem witness_hangs :
    (∃ s : State, s.rbit Reg.RST_CTL 0 = false ∧ s.rbit Reg.RST_CTL 1 = false ∧ s.rbit Reg.RST_CTL 2 = false) ∧ (∃ s : State, s.watched 3 = false) ∧
    (∃ s : State, (s.now - (tget {} s.rst.dogs 3).since).toNat < s.rd Reg.RST_WDOG) ∧
    (∃ s : State, let w := tget {} s.rst.dogs 3
      s.rbit Reg.RST_CTL 0 = true ∧ s.watched 3 = true ∧ w.skc = s.rd64 (Reg.SPN_SKC_LO 3) ∧ w.st = s.spnState 3 ∧ s.heldOther 3 w = true ∧
      s.rd Reg.RST_WDOG ≤ (s.now - w.since).toNat) ∧
    (∃ (s : State) (c : Nat) (oc : OutChan), s.rbit Reg.RST_CTL 1 = true ∧ s.watched 3 = true ∧ (s.spn 3).outq = [(c, oc)] ∧ s.rd Reg.RST_STALL_HANG ≤ oc.stall ∧ oc.hung = false) ∧
    (∃ s : State, (s.spn 3).outq = [] ∧ (s.spn 3).inq = []) ∧
    (∃ s : State, (s.quarActive && s.quarCtx == s.runCtx) = false ∧
      tget [] (((s.event 0x0701 (unitId 0 3) 2 [(16, 1, 1), (17, 1, 2 ^ 0), (18, 1, s.logicalN 3), (19, 4, 0)]).sat Reg.RST_HANG_CNT 1).faultRunning 0x0701).rst.ran 0 = []) ∧
    (∃ (s : State) (j : Slot), s.runningSlot = some j ∧ j.st ≠ .faulted ∧ s.rbit Reg.RST_CTL 2 = true ∧ s.peerBreached 4 = false ∧ tget none s.clk.ftmo (s.polderOf 3) = none ∧
      1 < s.rf Reg.RST_FTMO_CNT 15 0) ∧
    (∃ s : State, s.peerBreached 4 = true) :=
  let run : State := (live {} job1).wf Reg.RST_CTL 2 0 7
  let oc : OutChan := { stall := State.reset.rd Reg.RST_STALL_HANG }
  ⟨⟨State.reset.wr Reg.RST_CTL 0, by decide +kernel⟩, ⟨State.reset, by decide +kernel⟩, ⟨State.reset, by decide +kernel⟩,
   ⟨{ run with now := BitVec.ofNat 64 (run.rd Reg.RST_WDOG), rst := { dogs := [(3, { st := 1, held := 9, other := true })] } }, by decide +kernel⟩,
   ⟨(live { outq := [(2, oc)] } job1).wf Reg.RST_CTL 2 0 7, 2, oc, by decide +kernel⟩, ⟨State.reset, by decide +kernel⟩, ⟨State.reset, by decide +kernel⟩,
   ⟨run, job1, by decide +kernel⟩, ⟨State.reset.wr (Reg.COLL_PEER 63) (2 ^ 31 + 2 ^ 30 + 4), by decide +kernel⟩⟩

/-! ### Checkpoints, clocks, power. -/

/-- A checkpoint of context 0x11 in a phase. -/
def ckpt1 (ph : Nat) (l : List CkRegion) : Ckpt := { ctx := 0x11, slot := 1, seq := 2, step := 6, phase := ph, start := 0, loss := 0, dests := [], regions := l, seed := 0, skein := [] }

/-- The state at tick `n` with a checkpoint, and an operation of `w` in the fabric where one is given. -/
def ckAt (n : Nat) (k : Ckpt) (w : List FabOp) : State := { State.reset with now := BitVec.ofNat 64 n, reel := { ckpt := some k }, fab := { ops := w } }

/-- A restore of context 0x11. -/
def rest1 (ph : Nat) (hdr : List Byte) (b : Bool) : Restore := { ctx := 0x11, coord := 4, ep := 2, addr := 0, phase := ph, hdr := hdr, bad := b }

/-- The state with a restore under way into slot 1, and an operation of `w` where one is given. -/
def restAt (r : Restore) (j : Slot) (w : List FabOp) : State := { idle1 j with reel := { restore := some r }, fab := { ops := w } }

theorem witness_checkpoints :
    (∃ s : State, s.reel.ckpt = none ∧ s.reel.restore = none) ∧ (∃ (s : State) (k : Ckpt), s.reel.ckpt = some k ∧ s.reelQuiet = false) ∧
    (∃ (s : State) (k : Ckpt), s.reel.ckpt = some k ∧ k.phase ≠ 1 ∧ k.phase ≠ 2 ∧ k.phase ≠ 4 ∧ 2 < k.phase) ∧
    (∃ (s : State) (k : Ckpt), s.reel.ckpt = some k ∧ k.phase = 1 ∧ s.reelQuiet = true ∧ k.regions = []) ∧
    (∃ (s : State) (k : Ckpt) (r : CkRegion), s.reel.ckpt = some k ∧ k.phase = 1 ∧ s.reelQuiet = true ∧ k.regions = [r] ∧ r.len = 4096 ∧ k.dests = []) ∧
    (∃ (s : State) (k : Ckpt), s.reel.ckpt = some k ∧ k.phase = 2 ∧ s.reelQuiet = true ∧ invOk s = true) ∧
    (∃ (s : State) (k : Ckpt), s.reel.ckpt = some k ∧ k.phase = 4 ∧ s.reelQuiet = true ∧ k.seq < 2 ^ 32 ∧ k.step < 2 ^ 64 ∧ k.cost < 2 ^ 64 ∧ invOk s = true ∧ roomOk s 0x0721 0x201C = true) ∧
    (∃ (s : State) (k : Ckpt), s.reel.ckpt = some k ∧ k.phase ≤ 2 ∧ s.rd Reg.REEL_DRAIN_TMO * 100000000 ≤ (s.now - k.start).toNat ∧ invOk s = true) ∧
    (∃ (s : State) (k : Ckpt), s.reel.ckpt = some k ∧ (s.now - k.start).toNat < s.rd Reg.REEL_DRAIN_TMO * 100000000) ∧
    (∃ (s : State) (r : Restore), s.reel.restore = some r ∧ s.restoreQuiet = false) ∧ (∃ (s : State) (r : Restore), s.reel.restore = some r ∧ r.phase ≠ 1 ∧ r.phase ≠ 2) ∧
    (∃ (s : State) (r : Restore), s.reel.restore = some r ∧ r.phase = 1 ∧ s.restoreQuiet = true ∧ r.bad = true) ∧
    (∃ (s : State) (r : Restore), s.reel.restore = some r ∧ r.phase = 1 ∧ s.restoreQuiet = true ∧ r.bad = false ∧ s.restoreJob r = none) ∧
    (∃ (s : State) (r : Restore) (j : Slot) (d : CkDesc), s.reel.restore = some r ∧ r.phase = 1 ∧ s.restoreQuiet = true ∧ r.bad = false ∧ s.restoreJob r = some (j, d) ∧
      headerFits r.hdr j d = false) ∧
    (∃ (s : State) (r : Restore) (j : Slot) (d : CkDesc), s.reel.restore = some r ∧ r.phase = 1 ∧ s.restoreQuiet = true ∧ r.bad = false ∧ s.restoreJob r = some (j, d) ∧
      headerFits r.hdr j d = true ∧ 4096 < imageLen d.regions ∧ imageLen d.regions ≤ 4096 + 0x1000000) ∧
    (∃ (s : State) (r : Restore), s.reel.restore = some r ∧ r.phase = 2 ∧ s.restoreQuiet = true ∧ s.restoreJob r = none) ∧
    (∃ (s : State) (r : Restore) (j : Slot) (d : CkDesc), s.reel.restore = some r ∧ r.phase = 2 ∧ s.restoreQuiet = true ∧ s.restoreJob r = some (j, d) ∧ r.bad = true) ∧
    (∃ (s : State) (r : Restore) (j : Slot) (d : CkDesc), s.reel.restore = some r ∧ r.phase = 2 ∧ s.restoreQuiet = true ∧ s.restoreJob r = some (j, d) ∧ r.bad = false ∧
      sha384 r.data ≠ sliceB r.hdr 0x90 48) ∧
    (∃ (s : State) (r : Restore) (j : Slot) (d : CkDesc), s.reel.restore = some r ∧ r.phase = 2 ∧ s.restoreQuiet = true ∧ s.restoreJob r = some (j, d) ∧ r.bad = false ∧
      sha384 r.data = sliceB r.hdr 0x90 48) :=
  let rg (n : Nat) : CkRegion := ⟨0x3000000000, 0x3000100000, n⟩
  let d : CkDesc := ⟨false, 0, [], [rg 8]⟩
  let j : Slot := { job1 with digest := List.replicate 48 0, ck := some d }
  let h : List Byte := toLE 4 0x4C525A4B ++ [1, 0, 1, 0] ++ List.replicate 4 0 ++ [1] ++ List.replicate (0xC0 - 13) 0 ++ [8]
  let e : List Byte := List.replicate 0x90 0 ++ sha384 []
  ⟨⟨State.reset, by decide +kernel⟩, ⟨ckAt 0 (ckpt1 1 []) [fop .ckpt], ckpt1 1 [], by decide +kernel⟩, ⟨ckAt 0 (ckpt1 3 []) [], ckpt1 3 [], by decide +kernel⟩,
   ⟨ckAt 0 (ckpt1 1 []) [], ckpt1 1 [], by decide +kernel⟩, ⟨ckAt 0 (ckpt1 1 [rg 4096]) [], ckpt1 1 [rg 4096], rg 4096, by decide +kernel⟩,
   ⟨ckAt 0 (ckpt1 2 []) [], ckpt1 2 [], by decide +kernel⟩, ⟨ckAt 0 (ckpt1 4 []) [], ckpt1 4 [], by decide +kernel⟩,
   ⟨ckAt (State.reset.rd Reg.REEL_DRAIN_TMO * 100000000) (ckpt1 2 []) [], ckpt1 2 [], by decide +kernel⟩,
   ⟨ckAt (State.reset.rd Reg.REEL_DRAIN_TMO * 100000000 - 1) (ckpt1 2 []) [], ckpt1 2 [], by decide +kernel⟩,
   ⟨restAt (rest1 1 [] false) j [fop .restore], rest1 1 [] false, by decide +kernel⟩, ⟨restAt (rest1 3 [] false) j [], rest1 3 [] false, by decide +kernel⟩,
   ⟨restAt (rest1 1 [] true) j [], rest1 1 [] true, by decide +kernel⟩, ⟨restAt (rest1 1 [] false) job1 [], rest1 1 [] false, by decide +kernel⟩,
   ⟨restAt (rest1 1 [] false) j [], rest1 1 [] false, j, d, by decide +kernel⟩, ⟨restAt (rest1 1 h false) j [], rest1 1 h false, j, d, by decide +kernel⟩,
   ⟨restAt (rest1 2 [] false) job1 [], rest1 2 [] false, by decide +kernel⟩, ⟨restAt (rest1 2 [] true) j [], rest1 2 [] true, j, d, by decide +kernel⟩,
   ⟨restAt (rest1 2 [] false) j [], rest1 2 [] false, j, d, by decide +kernel⟩, ⟨restAt (rest1 2 e false) j [], rest1 2 e false, j, d, by decide +kernel⟩⟩

/-- The state right after reset at tick `n` with `c` of clock generation. -/
def clkAt (n : Nat) (c : Clk) : State := { State.reset with now := BitVec.ofNat 64 n, clk := c }

/-- A change from 500 to `f` MHz in a step, its target 300. -/
def chg (st f : Nat) : FreqChange := { step := st, old := 500, new := f, target := 300, req := { cause := 2, isForced := false }, start := 0 }

theorem witness_clocks :
    (∃ s : State, invOk s = true ∧ s.rf Reg.CLK_ST 3 2 = 0 ∧ roomOk s 0x0103 devUnit = true) ∧ (∃ s : State, invOk s = true ∧ s.rf Reg.CLK_ST 3 2 = 1 ∧ roomOk s 0x0104 devUnit = true) ∧
    (∃ s : State, invOk s = true ∧ s.rf Reg.CLK_ST 3 2 = 2) ∧ (∃ s : State, s.clk.change ≠ none) ∧ (∃ s : State, s.clk.reqs = [] ∧ s.clk.change = none ∧ s.clk.window = none) ∧
    (∃ (s : State) (r : FreqReq), s.clk.change = none ∧ s.clk.reqs = [r] ∧ s.effF = s.aMhz) ∧
    (∃ (s : State) (r : FreqReq), invOk s = true ∧ s.clk.change = none ∧ s.clk.reqs = [r] ∧ s.effF ≠ s.aMhz ∧ s.aMhz < s.effF ∧ 23 < 24) ∧
    (∃ (s : State) (c : FreqChange), s.clk.change = some c ∧ c.step ≠ 1 ∧ c.step ≠ 3 ∧ c.step = 5) ∧
    (∃ (s : State) (c : FreqChange), invOk s = true ∧ s.clk.change = some c ∧ c.step = 1 ∧ s.rd64 Reg.CLK_ATICK_LO + (if c.req.isForced then 64 else 256) < 2 ^ 64) ∧
    (∃ (s : State) (c : FreqChange), s.clk.change = some c ∧ s.rd64 Reg.CLK_ATICK_LO < c.target.toNat) ∧
    (∃ (s : State) (c : FreqChange), invOk s = true ∧ s.clk.change = some c ∧ c.step = 3 ∧ c.target.toNat ≤ s.rd64 Reg.CLK_ATICK_LO ∧ c.new < c.old ∧ c.old < 1024 ∧ s.runCtx = 0 ∧
      roomOk s 0x0101 devUnit = true) ∧
    (∃ (s : State) (c : FreqChange), invOk s = true ∧ s.clk.change = some c ∧ c.step = 3 ∧ c.target.toNat ≤ s.rd64 Reg.CLK_ATICK_LO ∧ c.old ≤ c.new ∧ c.new < 1024 ∧ s.runCtx = 0) ∧
    (∃ (s : State) (c : FreqChange), s.clk.change = some c ∧ c.step = 1 ∧ (s.now - c.start).toNat < 20000) ∧
    (∃ (s : State) (c : FreqChange), s.clk.change = some c ∧ c.step = 1 ∧ 20000 ≤ (s.now - c.start).toNat) ∧
    (∃ s : State, invOk s = true ∧ s.clk.window = some (0, 7, 29) ∧ 100000000 ≤ (s.now - 0).toNat ∧ roomOk s 0x0102 devUnit = true) ∧
    (∃ s : State, s.clk.window = some (0, 7, 29) ∧ (s.now - 0).toNat < 100000000) ∧ (∃ s : State, s.droop = 0 ∧ s.clk.missing = 0) ∧
    (∃ s : State, (s.now - s.clk.droopAt).toNat < 100000000 ∧ (s.now - s.clk.stepAt).toNat < 1000000) ∧
    (∃ s : State, invOk s = true ∧ 0 < s.droop ∧ 100000000 ≤ (s.now - s.clk.droopAt).toNat) ∧ (∃ s : State, invOk s = true ∧ 0 < s.clk.missing ∧ 1000000 ≤ (s.now - s.clk.stepAt).toNat) :=
  let r : FreqReq := { cause := 2, isForced := false }
  let same : State := clkAt 0 { reqs := [r] }
  let slow : State := same.wf Reg.CLK_ST 25 16 250
  let at300 (c : FreqChange) : State := (clkAt 20000 { change := some c }).wr Reg.CLK_ATICK_LO 300
  ⟨⟨State.reset, by decide +kernel⟩, ⟨State.reset.wf Reg.CLK_ST 3 2 1, by decide +kernel⟩, ⟨State.reset.wf Reg.CLK_ST 3 2 2, by decide +kernel⟩,
   ⟨at300 (chg 1 500), by decide +kernel⟩, ⟨State.reset, by decide +kernel⟩, ⟨same.wf Reg.CLK_ST 25 16 same.effF, r, by decide +kernel⟩, ⟨slow, r, by decide +kernel⟩,
   ⟨at300 (chg 5 400), chg 5 400, by decide +kernel⟩, ⟨at300 (chg 1 600), chg 1 600, by decide +kernel⟩, ⟨clkAt 0 { change := some (chg 3 400) }, chg 3 400, by decide +kernel⟩,
   ⟨at300 (chg 3 499), chg 3 499, by decide +kernel⟩, ⟨at300 (chg 3 500), chg 3 500, by decide +kernel⟩, ⟨clkAt 19999 { change := some (chg 1 400) }, chg 1 400, by decide +kernel⟩,
   ⟨at300 (chg 1 400), chg 1 400, by decide +kernel⟩, ⟨clkAt 100000000 { window := some (0, 7, 29) }, by decide +kernel⟩, ⟨clkAt 99999999 { window := some (0, 7, 29) }, by decide +kernel⟩,
   ⟨State.reset, by decide +kernel⟩, ⟨clkAt 999999 {}, by decide +kernel⟩, ⟨(clkAt 100000000 {}).wf Reg.CLK_REDUCE 19 16 1, by decide +kernel⟩,
   ⟨clkAt 1000000 { missing := 1 }, by decide +kernel⟩⟩

/-- The state right after reset at tick `n` with `p` of power, the cap 1,000 W. -/
def pwrAt (n : Nat) (p : Pwr) : State := ({ State.reset with now := BitVec.ofNat 64 n, pwr := p } : State).wf Reg.PWR_CAP 31 16 1000

theorem witness_power :
    (∃ s : State, invOk s = true ∧ 10 * (1100#16).toNat ≤ 11 * s.effCap ∧ 11 * s.effCap < 10 * (1101#16).toNat ∧ roomOk s 0x0107 devUnit = true ∧ (s.now - s.pwr.capAt).toNat < 1000000) ∧
    (∃ s : State, invOk s = true ∧ 1000000 ≤ (s.now - s.pwr.capAt).toNat ∧ s.pwr.capN * s.effCap < s.pwr.capSum) ∧
    (∃ s : State, invOk s = true ∧ 1000000 ≤ (s.now - s.pwr.capAt).toNat ∧ 10 * s.pwr.capSum < 9 * s.effCap * s.pwr.capN ∧ 0 < s.powerSteps ∧ 99 ≤ s.pwr.capSince) ∧
    (∃ s : State, invOk s = true ∧ 1000000 ≤ (s.now - s.pwr.capAt).toNat ∧ 10 * s.pwr.capSum < 9 * s.effCap * s.pwr.capN ∧ 0 < s.powerSteps ∧ s.pwr.capSince < 99) ∧
    (∃ s : State, invOk s = true ∧ 1000000 ≤ (s.now - s.pwr.capAt).toNat ∧ s.pwr.capSum ≤ s.pwr.capN * s.effCap ∧ s.powerSteps = 0) ∧
    (∃ s : State, invOk s = true ∧ s.pwr.tj = [] ∧ 150 ≤ 150 ∧ ((-41 : Int) < -40) ∧ (150 : Int) < 151) ∧
    (∃ s : State, invOk s = true ∧ 1 ≤ s.rf Reg.PWR_THROT 2 0 ∧ 100000 ≤ (s.now - s.pwr.thermAt).toNat ∧ s.therm < 18) ∧
    (∃ s : State, 1 ≤ s.rf Reg.PWR_THROT 2 0 ∧ (s.now - s.pwr.thermAt).toNat < 100000) ∧ (∃ s : State, 1 ≤ s.rf Reg.PWR_THROT 2 0 ∧ 18 ≤ s.therm) ∧
    (∃ s : State, s.rf Reg.PWR_THROT 2 0 = 0 ∧ s.pwr.coolAt = none ∧ s.therm = 0) ∧
    (∃ s : State, s.rf Reg.PWR_THROT 2 0 = 0 ∧ s.pwr.coolAt = some 0 ∧ (s.now - 0).toNat < 10000000) ∧
    (∃ s : State, invOk s = true ∧ s.rf Reg.PWR_THROT 2 0 = 0 ∧ s.pwr.coolAt = some 0 ∧ 10000000 ≤ (s.now - 0).toNat ∧ 0 < s.therm) ∧
    (∃ s : State, s.domOn 23 = false) ∧ (∃ s : State, s.domOn 23 = true) ∧ (∃ s : State, ∀ i, 12 ≤ i → i < 22 → (0#32).toNat.testBit i = s.rbit Reg.PWR_GATE i) ∧
    (∃ s : State, s.rbit Reg.PWR_GATE 21 = false ∧ (∃ ps ∈ psOfDom 21, s.spnState ps ≠ 6) ∧ (0x200000#32).toNat.testBit 21 = true ∧
      ∀ i, 12 ≤ i → i < 22 → i ≠ 21 → (0x200000#32).toNat.testBit i = s.rbit Reg.PWR_GATE i) ∧
    (∃ s : State, invOk s = true ∧ s.off = false ∧ s.rbit Reg.PWR_GATE 21 = false ∧ (∀ ps ∈ psOfDom 21, s.spnState ps = 6) ∧ (0x200000#32).toNat.testBit 21 = true ∧
      ∀ i, 12 ≤ i → i < 22 → i ≠ 21 → (0x200000#32).toNat.testBit i = s.rbit Reg.PWR_GATE i) ∧
    (∃ s : State, s.domOn 0 = false) ∧ (∃ s : State, invOk s = true ∧ s.domOn 0 = true ∧ 23 < 24) :=
  let w (n k : Nat) : State := (pwrAt 1000000 { capSum := n, capN := 1, capSince := k }).wf Reg.CLK_REDUCE 15 8 1
  let hot (n k : Nat) : State := ((pwrAt n {}).wf Reg.PWR_THROT 2 0 1).wf Reg.CLK_REDUCE 7 0 k
  let on : State := { State.reset with off := false, domsOff := 0 }
  ⟨⟨pwrAt 0 {}, by decide +kernel⟩, ⟨w 1001 0, by decide +kernel⟩, ⟨w 899 99, by decide +kernel⟩, ⟨w 899 98, by decide +kernel⟩, ⟨(w 1000 0).wf Reg.CLK_REDUCE 15 8 0, by decide +kernel⟩,
   ⟨State.reset, by decide +kernel⟩, ⟨hot 100000 17, by decide +kernel⟩, ⟨hot 99999 17, by decide +kernel⟩, ⟨hot 100000 18, by decide +kernel⟩, ⟨State.reset, by decide +kernel⟩,
   ⟨pwrAt 9999999 { coolAt := some 0 }, by decide +kernel⟩, ⟨(pwrAt 10000000 { coolAt := some 0 }).wf Reg.CLK_REDUCE 7 0 1, by decide +kernel⟩,
   ⟨{ on with domsOff := 0x800000 }, by decide +kernel⟩, ⟨on, by decide +kernel⟩,
   ⟨State.reset.wr Reg.PWR_GATE 0, fun i hi hj => by revert hi; revert i; decide +kernel⟩,
   ⟨(on.wr Reg.PWR_GATE 0).wf (Reg.SPN_STATE 17) 2 0 0, by decide +kernel, by decide +kernel, by decide +kernel, fun i hi hj => by revert hi; revert i; decide +kernel⟩,
   ⟨(on.wr Reg.PWR_GATE 0).wf (Reg.SPN_STATE 17) 2 0 6, by decide +kernel, by decide +kernel, by decide +kernel, by decide +kernel, by decide +kernel,
     fun i hi hj => by revert hi; revert i; decide +kernel⟩,
   ⟨{ State.reset with off := true }, by decide +kernel⟩, ⟨on, by decide +kernel⟩⟩

/-! ### Registers, ports, management, the module. -/

theorem witness_registers :
    (reaches (.spindle 0) = false ∧ reaches (.core 7) = true ∧ regMapped 1 = false) ∧ (regMapped 0x7010000 = true ∧ inDebug 0x7010000 = true ∧ inDebug 0x700FFFC = false) ∧
    (∃ (s : State) (a : Nat), invOk s = true ∧ regMapped a = true ∧ inDebug a = false ∧ s.domOn (regDomain a) = false ∧ roomOk s 0x0210 devUnit = true) ∧
    (∃ (s : State) (a : Nat), invOk s = true ∧ regMapped a = true ∧ inDebug a = false ∧ s.domOn (regDomain a) = true ∧ tget none s.latch a = some 7) ∧
    (∃ (s : State) (a : Nat), invOk s = true ∧ regMapped a = true ∧ inDebug a = false ∧ s.domOn (regDomain a) = true ∧ tget none s.latch a = none ∧ isLow a = true) ∧
    (∃ s : State, invOk s = true ∧ s.domOn 22 = true ∧ tget none s.latch Reg.SKN_STATUS = none ∧ s.domOn 0 = true ∧ tget none s.latch Reg.CMD_DEV_STATE = none) ∧
    (∃ s : State, invOk s = true ∧ s.domOn 0 = true ∧ tget none s.latch Reg.CMD_LCP_OUT = none ∧ s.cq.replies = [[1, 2], [3]]) ∧
    (∃ s : State, invOk s = true ∧ s.domOn 0 = true ∧ tget none s.latch Reg.CMD_LCP_OUT = none ∧ s.cq.replies = [[1]]) ∧
    (∃ (s : State) (a : Nat), invOk s = true ∧ regMapped a = true ∧ s.coreMay a = false ∧ roomOk s 0x0A0C devUnit = true) ∧
    (∃ (s : State) (a : Nat), invOk s = true ∧ regMapped a = true ∧ s.coreMay a = true ∧ s.domOn (regDomain a) = false) ∧
    (∃ (s : State) (a : Nat), invOk s = true ∧ regMapped a = true ∧ s.coreMay a = true ∧ s.domOn (regDomain a) = true) ∧
    (∃ s : State, s.runCtx ≠ 0) ∧ (∃ s : State, invOk s = true ∧ s.runCtx = 0 ∧ s.domOn (regDomain (Reg.SPN_NUM_FLAGS 3)) = true ∧ 6 < 7) ∧
    (∃ s : State, s.domOn (regDomain (Reg.SPN_NUM_FLAGS 3)) = false ∧ s.domOn (regDomain Reg.MGMT_CORE_RUN) = false ∧
      s.domOn (regDomain Reg.MGMT_PTP_SET_SLO) = false ∧ s.domOn (regDomain Reg.MGMT_PTP_CTL) = false) ∧
    (∃ s : State, invOk s = true ∧ s.domOn (regDomain Reg.MGMT_CORE_RUN) = true ∧ s.domOn (regDomain Reg.MGMT_PTP_SET_SLO) = true ∧
      s.domOn (regDomain Reg.MGMT_PTP_CTL) = true ∧ 1000000000 ≤ (1000000000#32).toNat ∧ (999999999#32).toNat < 1000000000 ∧ s.fab.epoch = none ∧
      roomOk s 0x0A0F devUnit = true) :=
  let on : State := { State.reset with off := false, domsOff := 0 }
  ⟨by decide +kernel, by decide +kernel, ⟨{ on with domsOff := 8 }, 0x7000100, by decide +kernel⟩, ⟨{ on with latch := [(0x700011C, some 7)] }, 0x700011C, by decide +kernel⟩,
   ⟨on, 0x7000118, by decide +kernel⟩, ⟨on, by decide +kernel⟩, ⟨{ on with cq := { replies := [[1, 2], [3]] } }, by decide +kernel⟩, ⟨{ on with cq := { replies := [[1]] } }, by decide +kernel⟩,
   ⟨on, Reg.CMD_DEV_STATE, by decide +kernel⟩, ⟨{ on with domsOff := 8 }, 0x7000100, by decide +kernel⟩, ⟨on, 0x7000100, by decide +kernel⟩,
   ⟨live {} job1, by decide +kernel⟩, ⟨on, by decide +kernel⟩, ⟨{ State.reset with domsOff := 2 ^ 64 - 1 }, by decide +kernel⟩, ⟨on, by decide +kernel⟩⟩

/-- A command processor that runs, its Cuard side `c`, at tick `n`. -/
def cqAt (n : Nat) (c : Cq) : State := { State.reset with off := false, now := BitVec.ofNat 64 n, rst := {}, cq := c }

theorem witness_localPort :
    (∃ s : State, s.cuardUp = false) ∧ (∃ s : State, s.cq.discarding = true) ∧ (∃ s : State, s.cuardUp = true ∧ s.cq.discarding = false ∧ s.cq.asm.length < 5) ∧
    (∃ (s : State) (w : Word), s.cuardUp = true ∧ s.cq.discarding = false ∧ 5 ≤ s.cq.asm.length ∧ pkWant (asmBytes (s.cq.asm ++ [w])) = none) ∧
    (∃ (s : State) (w : Word), s.cuardUp = true ∧ s.cq.discarding = false ∧ 5 ≤ s.cq.asm.length ∧ pkWant (asmBytes (s.cq.asm ++ [w])) = some 32 ∧ 4 * (s.cq.asm ++ [w]).length < 32) ∧
    (∃ (s : State) (w : Word), s.cuardUp = true ∧ s.cq.discarding = false ∧ 5 ≤ s.cq.asm.length ∧ pkWant (asmBytes (s.cq.asm ++ [w])) = some 32 ∧ 32 ≤ 4 * (s.cq.asm ++ [w]).length ∧
      s.cq.replies.length < 4) ∧
    (∃ (s : State) (w : Word), invOk s = true ∧ s.cuardUp = true ∧ s.cq.discarding = false ∧ 5 ≤ s.cq.asm.length ∧ pkWant (asmBytes (s.cq.asm ++ [w])) = some 32 ∧
      32 ≤ 4 * (s.cq.asm ++ [w]).length ∧ 4 ≤ s.cq.replies.length ∧ roomOk s 0x0B03 devUnit = true) ∧
    (∃ s : State, invOk s = true ∧ s.cq.asm = [] ∧ s.cq.asmAt = none) ∧ (∃ s : State, invOk s = true ∧ s.cq.asm ≠ [] ∧ s.cq.asmAt = some 0 ∧ s.rd Reg.CMD_LCP_TMO ≤ (s.now - 0).toNat) ∧
    (∃ s : State, s.cq.asmAt = some 0 ∧ (s.now - 0).toNat < s.rd Reg.CMD_LCP_TMO) :=
  let z (n : Nat) : Cq := { asm := List.replicate n 0, asmAt := some 0 }
  ⟨⟨{ State.reset with off := true }, by decide +kernel⟩, ⟨cqAt 0 { discarding := true }, by decide +kernel⟩, ⟨cqAt 0 (z 4), by decide +kernel⟩,
   ⟨cqAt 0 (z 5), 0x000F0000, by decide +kernel⟩, ⟨cqAt 0 (z 5), 0, by decide +kernel⟩, ⟨cqAt 0 (z 7), 0, by decide +kernel⟩,
   ⟨cqAt 0 { z 7 with replies := [[1], [1], [1], [1]] }, 0, by decide +kernel⟩, ⟨cqAt 0 {}, by decide +kernel⟩, ⟨cqAt (State.reset.rd Reg.CMD_LCP_TMO) (z 1), by decide +kernel⟩,
   ⟨cqAt (State.reset.rd Reg.CMD_LCP_TMO - 1) (z 1), by decide +kernel⟩⟩

/-- The management port up, software's MAC 2 and Cuard's 3 in their last bytes, an IPv4 address. -/
def mgmtUp : State :=
  ((((cqAt 0 {}).wf Reg.MGMT_PORT_ST 0 0 1).wr Reg.MGMT_MAC_LO 0).wr Reg.MGMT_MAC_HI 0x0200).wr Reg.MGMT_CUARD_UDP 9 |> fun s => { s with mgmt := { v4 := some [10, 0, 0, 1] } }

/-- A frame: destination, EtherType and payload, from an unknown source. -/
def frame (d : List Byte) (et : List Byte) (p : List Byte) : List Byte := endFrame (d ++ List.replicate 6 9 ++ et ++ p)

/-- An IPv4 UDP datagram of 8 bytes of data to Cuard's address and port. -/
def udp4 : List Byte := [0x45, 0, 0, 36, 0, 0, 0, 0, 64, 17, 0, 0, 10, 0, 0, 2, 10, 0, 0, 1, 0, 7, 0, 9, 0, 16, 0, 0] ++ List.replicate 8 0

theorem witness_management :
    (∃ s : State, s.coreMapped 0x10000007FFF = true) ∧ (∃ s : State, invOk s = true ∧ s.coreMapped 0x10000008000 = false ∧ roomOk s 0x0210 devUnit = true ∧
      roomOk s 0x0A0E (unitId 9 7) = true) ∧ (∃ s : State, s.off = true) ∧ (∃ s : State, invOk s = true ∧ s.off = false) ∧ (∃ s : State, s.mgmtTry = none) ∧
    (∃ s : State, invOk s = true ∧ s.rbit Reg.MGMT_PORT_ST 0 = true) ∧ (∃ s : State, invOk s = true ∧ s.mgmtTry = some true ∧ s.off = false ∧ s.rbit Reg.MGMT_PORT_ST 0 = false) ∧
    (∃ s : State, invOk s = true ∧ s.rf Reg.MGMT_PORT_CTL 1 0 = 0 ∧ s.rbit Reg.MGMT_PORT_ST 0 = false ∧ 100000000 ≤ (s.wall - s.mgmt.speedAt).toNat) ∧
    (∃ (s : State) (l : List Byte), s.mgmtUp = false ∧ l.length < 64) ∧
    (∃ (s : State) (l : List Byte), let e := ethIn (l.take (l.length - 4))
      invOk s = true ∧ s.mgmtUp = true ∧ 64 ≤ l.length ∧ leNat (l.drop (l.length - 4)) = crc32 (l.take (l.length - 4)) ∧ e.dst = s.cuardMac ∧ s.cuardIn e = none ∧ s.asksFor e = none) ∧
    (∃ (s : State) (l : List Byte) (c : Origin × List Byte), let e := ethIn (l.take (l.length - 4))
      s.mgmtUp = true ∧ 64 ≤ l.length ∧ leNat (l.drop (l.length - 4)) = crc32 (l.take (l.length - 4)) ∧ e.dst = s.cuardMac ∧ s.cuardIn e = some c ∧
      s.cq.rateAt.toNat = s.now.toNat / 100000000 ∧ s.cq.rateN < s.rd Reg.MGMT_CUARD_RATE) ∧
    (∃ (s : State) (l : List Byte) (c : Origin × List Byte), let e := ethIn (l.take (l.length - 4))
      invOk s = true ∧ s.mgmtUp = true ∧ 64 ≤ l.length ∧ leNat (l.drop (l.length - 4)) = crc32 (l.take (l.length - 4)) ∧ e.dst = s.cuardMac ∧ s.cuardIn e = some c ∧
      s.cq.rateAt.toNat = s.now.toNat / 100000000 ∧ s.rd Reg.MGMT_CUARD_RATE ≤ s.cq.rateN) ∧
    (∃ (s : State) (l : List Byte), let e := ethIn (l.take (l.length - 4))
      invOk s = true ∧ s.mgmtUp = true ∧ 64 ≤ l.length ∧ leNat (l.drop (l.length - 4)) = crc32 (l.take (l.length - 4)) ∧ e.dst = s.softMac ∧ e.dst ≠ s.cuardMac ∧
      e.dst ≠ List.replicate 6 0xFF ∧ s.solicited.contains e.dst = false) ∧
    (∃ (s : State) (l : List Byte), invOk s = true ∧ s.spoofs (ethIn l) = true) ∧ (∃ (s : State) (l : List Byte), s.spoofs (ethIn l) = false ∧ s.mgmtUp = false) ∧
    (∃ (s : State) (l : List Byte), invOk s = true ∧ s.spoofs (ethIn l) = false ∧ s.mgmtUp = true) ∧ (∃ s : State, invOk s = true ∧ s.rbit Reg.MGMT_PTP_CTL 1 = false) ∧
    (∃ s : State, invOk s = true ∧ s.rbit Reg.MGMT_PTP_CTL 1 = true ∧ s.mgmt.ppsAt = some 0 ∧ 99990000 ≤ (s.now - 0).toNat ∧ (s.now - 0).toNat ≤ 100010000) ∧
    (∃ s : State, invOk s = true ∧ s.mgmt.ppsAt = some 0 ∧ (s.now - 0).toNat < 99990000) :=
  let f : List Byte := frame mgmtUp.cuardMac [8, 0] udp4
  let e : EthIn := ethIn (f.take (f.length - 4))
  let c : Origin × List Byte := ({ mac := e.src, v6 := false, ip := [10, 0, 0, 2], own := [10, 0, 0, 1], sport := 7 }, List.replicate 8 0)
  let g : List Byte := frame mgmtUp.softMac [8, 0] udp4
  let pps (n : Nat) : State := { (cqAt n {}).wf Reg.MGMT_PTP_CTL 1 1 1 with mgmt := { ppsAt := some 0 } }
  let slow : State := { (cqAt 0 {}).wf Reg.MGMT_PORT_ST 0 0 0 with wall := 100000000 }
  ⟨⟨State.reset, by decide +kernel⟩, ⟨State.reset, by decide +kernel⟩, ⟨{ State.reset with off := true }, rfl⟩, ⟨cqAt 0 {}, by decide +kernel⟩,
   ⟨State.reset.wf Reg.MGMT_PORT_CTL 1 0 3, by decide +kernel⟩, ⟨mgmtUp, by decide +kernel⟩, ⟨(mgmtUp.wf Reg.MGMT_PORT_ST 0 0 0).wf Reg.MGMT_PORT_CTL 1 0 1, by decide +kernel⟩,
   ⟨slow.wf Reg.MGMT_PORT_CTL 1 0 0, by decide +kernel⟩, ⟨slow, [], by decide +kernel⟩, ⟨mgmtUp, frame mgmtUp.cuardMac [8, 1] udp4, by decide +kernel⟩, ⟨mgmtUp, f, c, by decide +kernel⟩,
   ⟨{ mgmtUp with cq := { rateN := mgmtUp.rd Reg.MGMT_CUARD_RATE } }, f, c, by decide +kernel⟩, ⟨mgmtUp, g, by decide +kernel⟩,
   ⟨mgmtUp, List.replicate 6 0 ++ mgmtUp.cuardMac ++ [8, 0], by decide +kernel⟩, ⟨slow, f, by decide +kernel⟩, ⟨mgmtUp, f, by decide +kernel⟩,
   ⟨State.reset.wf Reg.MGMT_PTP_CTL 1 1 0, by decide +kernel⟩, ⟨pps 100010000, by decide +kernel⟩, ⟨pps 99989999, by decide +kernel⟩⟩

/-! ### Timers of security, the module. -/

/-- An active expert session of key 0. -/
def sess7 : Sess := { id := 7, port := 1, key := 0, expert := true, active := true, tHash := [], reqKey := [], repKey := [], opened := 0, last := 0, done := [⟨5, 0x0101, 0, 0⟩] }

/-- `s` with a key table of one key. -/
def keyed (s : State) : State := (s.wf Reg.SEC_KT 25 24 1).wf Reg.SEC_KT 3 0 1

/-- A packet that arrived at the local port at tick 0. -/
def req0 : Req := { port := 1, bytes := List.replicate 32 0, arrival := 0, org := {} }

/-- A command that waits since tick 0, for at most 5 ticks. -/
def wait5 (w : WaitFor) : Wait :=
  { what := w, rep := { port := 1, org := {}, opcode := 0x0201, seq := 1, session := 0, lease := 0, expert := false, authed := false, key := 255 }, first := true, res := none,
    start := 0, limit := some 5 }

theorem witness_securityTimers :
    (∃ s : State, s.sess 7 = none) ∧ (∃ s : State, s.recBuffered = true) ∧ (∃ (s : State) (x : Sess), s.sess 7 = some x ∧ x.expert = false) ∧
    (∃ (s : State) (x : Sess), invOk s = true ∧ s.sess 7 = some x ∧ x.active = true ∧ x.expert = true ∧ s.keyHas x.key 3 = true ∧ s.recBuffered = false ∧ roomOk s 0x0A0A devUnit = true) ∧
    (∃ s : State, s.rbit Reg.SEC_DBG 2 = false) ∧ (∃ s : State, invOk s = true ∧ s.rbit Reg.SEC_DBG 2 = true ∧ roomOk s 0x0A0A devUnit = true) ∧
    (∃ s : State, s.cq.sessions = [sess7] ∧ (∀ x ∈ s.cq.sessions, x.active = true ∨ (s.now - x.opened).toNat < 1000000000) ∧
      (∀ x ∈ s.cq.sessions, x.active = false ∨ (s.now - x.last).toNat < s.rd Reg.SEC_IDLE * 100000000) ∧ ∀ x ∈ s.cq.sessions, x.active = false ∨ (s.now - x.opened).toNat < 8640000000000) ∧
    (∃ (s : State) (x : Sess), invOk s = true ∧ s.cq.sessions = [x] ∧ x.active = false ∧ 1000000000 ≤ (s.now - x.opened).toNat ∧ roomOk s 0x0A05 devUnit = true) ∧
    (∃ (s : State) (x : Sess), invOk s = true ∧ s.cq.sessions = [x] ∧ x.active = true ∧ s.cq.dbg ≠ some x.id ∧ s.rd Reg.SEC_IDLE * 100000000 ≤ (s.now - x.last).toNat ∧
      8640000000000 ≤ (s.now - x.opened).toNat ∧ roomOk s 0x0A04 devUnit = true) ∧
    (∃ s : State, s.cuardUp = false ∧ (s.now - s.cq.nonceAt).toNat < 60000000000) ∧ (∃ s : State, invOk s = true ∧ s.cuardUp = true ∧ 60000000000 ≤ (s.now - s.cq.nonceAt).toNat) ∧
    (∃ s : State, ∀ r l, r < 4 → tget none s.cq.leases r = some l → s.now < l.expiry) ∧
    (∃ (s : State) (l : Lease), invOk s = true ∧ 3 < 4 ∧ tget none s.cq.leases 3 = some l ∧ l.expiry ≤ s.now ∧ roomOk s 0x0B02 devUnit = true ∧
      ∀ q k, q < 3 → tget none s.cq.leases q = some k → s.now < k.expiry) ∧
    (∃ s : State, s.cq.queue = [req0] ∧ ∀ r ∈ s.cq.queue, (s.now - r.arrival).toNat < s.rd Reg.CMD_QTMO) ∧
    (∃ s : State, s.cq.queue = [req0] ∧ s.rd Reg.CMD_QTMO < (s.now - req0.arrival).toNat) ∧
    (∃ s : State, s.cq.waits.head? = some (wait5 .load) ∧ (wait5 .load).limit = some 5 ∧ 5 ≤ (s.now - 0).toNat) ∧
    (∃ s : State, s.cq.waits = [wait5 .freq] ∧ ∀ w n, w ∈ s.cq.waits → w.limit = some n → (s.now - w.start).toNat < n) :=
  let jr : Slot := { job1 with job := { job1.job with recLen := 4096 } }
  let old : Nat := max (State.reset.rd Reg.SEC_IDLE * 100000000) 8640000000000
  ⟨⟨State.reset, by decide +kernel⟩, ⟨live {} jr, by decide +kernel⟩, ⟨cqAt 0 { sessions := [{ sess7 with expert := false }] }, { sess7 with expert := false }, by decide +kernel⟩,
   ⟨keyed (cqAt 0 { sessions := [sess7] }), sess7, by decide +kernel⟩, ⟨State.reset.wf Reg.SEC_DBG 2 2 0, by decide +kernel⟩, ⟨State.reset.wf Reg.SEC_DBG 2 2 1, by decide +kernel⟩,
   ⟨cqAt 0 { sessions := [sess7] }, by decide +kernel⟩, ⟨cqAt 1000000000 { sessions := [{ sess7 with active := false }] }, { sess7 with active := false }, by decide +kernel⟩,
   ⟨cqAt old { sessions := [sess7] }, sess7, by decide +kernel⟩, ⟨{ State.reset with off := true }, by decide +kernel⟩, ⟨cqAt 60000000000 {}, by decide +kernel⟩,
   ⟨cqAt 0 {}, fun r l _ h => nomatch h⟩,
   ⟨cqAt 9 { leases := [(2, some ⟨1, 2, 10⟩), (3, some ⟨1, 2, 9⟩)] }, ⟨1, 2, 9⟩, by decide +kernel, by decide +kernel, by decide +kernel, by decide +kernel, by decide +kernel, fun q k hq hk => by
      have hl : q = 0 ∨ q = 1 ∨ q = 2 := by omega
      rcases hl with rfl | rfl | rfl
      · exact nomatch hk
      · exact nomatch hk
      · cases hk
        decide⟩,
   ⟨cqAt (State.reset.rd Reg.CMD_QTMO - 1) { queue := [req0] }, by decide +kernel⟩, ⟨cqAt (State.reset.rd Reg.CMD_QTMO + 1) { queue := [req0] }, by decide +kernel⟩,
   ⟨cqAt 5 { waits := [wait5 .load] }, by decide +kernel⟩,
   ⟨cqAt 4 { waits := [wait5 .freq] }, by decide +kernel, fun w n hw hn => by
      obtain rfl : w = wait5 .freq := by simpa [cqAt] using hw
      cases hn
      decide +kernel⟩⟩

/-- The module at wall tick `n`, the device off or on, `p` of power and `m` of the module. -/
def modAt (n : Nat) (off : Bool) (p : Pwr) (m : Modl) : State := { State.reset with off := off, wall := BitVec.ofNat 64 n, pwr := p, modl := m }

theorem witness_module :
    (∃ s : State, s.off = true ∧ (s.wall - s.pwr.groupAt).toNat < 1000000) ∧
    (∃ s : State, invOk s = true ∧ s.off = false ∧ s.pwr.enabled = true ∧ s.pwr.group = 6 ∧ 6 < 7 ∧ 1000000 ≤ (s.wall - s.pwr.groupAt).toNat ∧
      roomOk s 0x0109 (domUnit ((groupDoms (s.pwr.group + 1)).headD 0)) = true) ∧
    (∃ s : State, invOk s = true ∧ s.modl.en = true) ∧ (∃ s : State, s.off = true ∧ s.modl.en = false ∧ 1000000 ≤ (s.wall - s.modl.enAt).toNat ∧ 40000 ≤ 59500) ∧
    (∃ s : State, invOk s = true ∧ s.off = true) ∧ (∃ s : State, s.off = false) ∧
    (∃ s : State, invOk s = true ∧ s.off = false ∧ s.pwr.vin = [] ∧ 42000 ≤ 58000 ∧ 39999 < 40000 ∧ s.pwr.outFor < 4999 ∧ s.pwr.excFor = 4999 ∧ roomOk s 0x010A devUnit = true) ∧
    (∃ s : State, s.off = false ∧ s.pwr.vin = [] ∧ 39999 < 40000 ∧ 4999 ≤ s.pwr.outFor) ∧
    (∃ s : State, s.domOn 0 = false) ∧ (∃ s : State, invOk s = true ∧ s.domOn 0 = true ∧ s.modl.i3c.getD 0x4B = (0x4B#7).toNat) ∧
    (∃ s : State, s.modl.en = true) ∧ (∃ s : State, invOk s = true ∧ s.modl.en = false ∧ 0x17FFFF00 + 256 ≤ 0x18000000 ∧ 0x17FFFFFF < 0x18000000 ∧ 0x18000000 ≤ 0x18000000) :=
  ⟨⟨modAt 999999 true {} {}, by decide +kernel⟩, ⟨modAt 1000000 false { group := 6 } {}, by decide +kernel⟩, ⟨State.reset, by decide +kernel⟩,
   ⟨modAt 1000000 true {} { en := false }, by decide +kernel⟩, ⟨modAt 0 true {} {}, by decide +kernel⟩, ⟨modAt 0 false {} {}, by decide +kernel⟩,
   ⟨modAt 0 false { excFor := 4999 } {}, by decide +kernel⟩, ⟨modAt 0 false { outFor := 4999 } {}, by decide +kernel⟩, ⟨modAt 0 true {} {}, by decide +kernel⟩,
   ⟨{ modAt 0 false {} {} with domsOff := 0 }, by decide +kernel⟩, ⟨modAt 0 false {} {}, by decide +kernel⟩, ⟨modAt 0 false {} { en := false }, by decide +kernel⟩⟩

/-! ### Start-up. -/

/-- Phase `p` of start-up at wall tick `n`, with `b` of start-up. -/
def boots (p n : Nat) (b : Boot) : State :=
  (({ State.reset with off := false, wall := BitVec.ofNat 64 n, boot := b } : State).wf Reg.CMD_DEV_STATE 2 0 stBringup).wf Reg.CMD_DEV_STATE 27 24 p

/-- A transfer whose next block is `n`. -/
def tftp1 (n : Nat) : Tftp := { server := [10, 0, 0, 2], file := [], next := n, got := 512, hdr := toLE 8 0 ++ toLE 8 0x2000 ++ toLE 8 0x3000000000 }

/-- The header block of an image of 4 KiB. -/
def head512 : List Byte :=
  [0x4B, 0x5A, 0x49, 0x4F, 1, 0, 0, 0] ++ toLE 8 0x1000 ++ toLE 8 0x3000000000 ++ toLE 8 0x3000000000 ++ List.replicate 480 0

theorem boots_ok : ∀ p ∈ List.range 13, (boots p 0 {}).booting p = true ∧ invOk (boots p 0 {}) = true := by decide +kernel

theorem witness_earlyStartUp :
    (∃ s : State, s.booting 0 = true ∧ invOk s = true) ∧ (∃ s : State, s.booting 1 = true ∧ invOk s = true) ∧
    (∃ s : State, s.booting 0 = false ∧ s.booting 1 = false ∧ s.booting 2 = false ∧ s.booting 3 = false ∧ s.booting 4 = false ∧ s.booting 5 = false ∧ s.booting 6 = false ∧
      s.booting 7 = false ∧ s.booting 8 = false) ∧
    (∃ s : State, s.boot.strapAt ≠ none) ∧ (∃ s : State, (s.wall - s.boot.began).toNat < 100000 ∧ s.boot.strapAt = none) ∧
    (∃ s : State, s.boot.strapAt = some 0 ∧ (s.wall - 0).toNat < 10000) ∧ (∃ s : State, s.boot.strapAt = some 0 ∧ s.booting 2 = true ∧ 10000 ≤ (s.wall - 0).toNat) ∧
    (∃ s : State, invOk s = true ∧ s.booting 2 = true ∧ s.boot.strapAt = none ∧ 100000 ≤ (s.wall - s.boot.began).toNat ∧ s.boot.pins = 0 ∧ s.boot.lost = []) ∧
    (∃ s : State, invOk s = true ∧ s.booting 3 = true) ∧ (∃ s : State, s.booting 4 = true ∧ s.pwr.group ≠ 7) ∧ (∃ s : State, invOk s = true ∧ s.booting 4 = true ∧ s.pwr.group = 7) ∧
    (∃ s : State, invOk s = true ∧ s.booting 5 = true) ∧ (∃ s : State, invOk s = true ∧ s.booting 6 = true) ∧ (∃ s : State, s.booting 7 = true ∧ s.hlth.waves ≠ []) ∧
    (∃ s : State, s.booting 7 = true ∧ s.hlth.waves = [] ∧ s.bootWaves.2 = none) ∧ (∃ s : State, s.booting 8 = true) :=
  ⟨⟨boots 0 0 {}, by decide +kernel⟩, ⟨boots 1 0 {}, by decide +kernel⟩, ⟨boots 9 0 {}, by decide +kernel⟩, ⟨boots 2 0 { strapAt := some 0 }, by decide +kernel⟩,
   ⟨boots 2 99999 {}, by decide +kernel⟩, ⟨boots 2 9999 { strapAt := some 0 }, by decide +kernel⟩, ⟨boots 2 10000 { strapAt := some 0 }, by decide +kernel⟩,
   ⟨boots 2 100000 {}, by decide +kernel⟩, ⟨boots 3 0 {}, by decide +kernel⟩, ⟨boots 4 0 {}, by decide +kernel⟩, ⟨{ boots 4 0 {} with pwr := { group := 7 } }, by decide +kernel⟩,
   ⟨boots 5 0 {}, by decide +kernel⟩, ⟨boots 6 0 {}, by decide +kernel⟩, ⟨{ boots 7 0 {} with hlth := { waves := [[1]] } }, by decide +kernel⟩,
   ⟨(boots 7 0 {}).wr Reg.PWR_CAP_SRC 0, by decide +kernel⟩, ⟨boots 8 0 {}, by decide +kernel⟩⟩

/-- Where the ROM's test powers, which the manual does not give, are low enough, waves form. -/
theorem witness_waves (h : ∀ p u, Config.testPower p u = 0) : ∃ (s : State) (l : List (List Nat)), s.booting 7 = true ∧ s.hlth.waves = [] ∧ s.bootWaves.2 = some l := by
  let s : State := (boots 7 0 {}).wr Reg.PWR_CAP_SRC (1500 * 65536 + 1500)
  have hs : s.booting 7 = true ∧ s.hlth.waves = [] := by decide +kernel
  have hw : s.bootWaves.2.isSome = true := by
    simp only [State.bootWaves, h]
    decide +kernel
  exact ⟨s, _, hs.1, hs.2, (Option.some_get hw).symm⟩

theorem witness_lateStartUp :
    (∃ s : State, s.booting 9 = false ∧ s.booting 10 = false ∧ s.booting 11 = false ∧ s.booting 12 = false) ∧
    (∃ s : State, invOk s = true ∧ s.booting 9 = true ∧ s.rbit Reg.CMD_STRAPS 4 = true) ∧
    (∃ s : State, invOk s = true ∧ s.booting 9 = true ∧ s.rbit Reg.CMD_STRAPS 4 = false ∧ s.boot.coord = some (8191, 3, 2 ^ 32 - 1)) ∧
    (∃ s : State, s.rbit Reg.CMD_STRAPS 4 = false ∧ s.boot.coord = none ∧ s.inPhase < 60000000000) ∧
    (∃ s : State, invOk s = true ∧ s.booting 9 = true ∧ s.rbit Reg.CMD_STRAPS 4 = false ∧ s.boot.coord = none ∧ 60000000000 ≤ s.inPhase ∧ roomOk s 0x07E5 devUnit = true) ∧
    (∃ s : State, s.booting 10 = true ∧ s.boot.linking = false) ∧ (∃ s : State, s.booting 10 = true ∧ s.boot.linking = true ∧ ∃ h, h < 32 ∧ s.portSt h = 1) ∧
    (∃ s : State, invOk s = true ∧ s.booting 10 = true ∧ s.boot.linking = true ∧ ∀ h, h < 32 → s.portSt h ≠ 1) ∧ (∃ s : State, s.boot.client = true ∧ s.boot.tftp ≠ none) ∧
    (∀ n ∈ [0, 1, 2, 3], ∃ s : State, invOk s = true ∧ s.booting 11 = true ∧ s.boot.client = false ∧ s.rf Reg.CMD_STRAPS 1 0 = n ∧ s.rbit Reg.MGMT_PORT_ST 0 = true) ∧
    (∃ s : State, invOk s = true ∧ s.booting 11 = true ∧ s.boot.client = false ∧ s.rf Reg.CMD_STRAPS 1 0 = 2 ∧ s.rbit Reg.MGMT_PORT_ST 0 = false) ∧
    (∃ s : State, invOk s = true ∧ s.booting 11 = true ∧ s.boot.client = true ∧ s.boot.tftp = none) ∧
    (∃ s : State, s.booting 11 = true ∧ s.boot.tftp = some (tftp1 3) ∧ (tftp1 3).next % 65536 ≠ (2#16).toNat) ∧
    (∃ s : State, s.booting 11 = true ∧ s.boot.tftp = some (tftp1 1) ∧ ([] : List Byte).length ≤ 512 ∧ imgHeadOk [] = false) ∧
    (∃ s : State, s.booting 11 = true ∧ s.boot.tftp = some (tftp1 1) ∧ imgHeadOk head512 = true ∧ s.signerOk head512 = false) ∧
    (∃ s : State, invOk s = true ∧ s.booting 11 = true ∧ s.boot.tftp = some (tftp1 1) ∧ head512.length ≤ 512 ∧ imgHeadOk head512 = true ∧ s.signerOk head512 = true) ∧
    (∃ s : State, s.booting 11 = true ∧ s.boot.tftp = some (tftp1 2) ∧ (tftp1 2).next ≠ 1 ∧ (tftp1 2).next % 65536 = (2#16).toNat ∧
      (tftp1 2).got - 512 + 512 ≤ imgPlen (tftp1 2).hdr) ∧
    (∃ s : State, s.boot.tftp = some (tftp1 1) ∧ (s.wall - 0).toNat < 100000000) ∧
    (∀ k ∈ [4, 5], ∃ s : State, invOk s = true ∧ s.booting 11 = true ∧ s.boot.tftp = some { tftp1 1 with tries := k } ∧ 100000000 ≤ (s.wall - 0).toNat) ∧
    (∃ s : State, invOk s = true ∧ s.booting 12 = true ∧ s.boot.image = none) ∧ (∃ (s : State) (i : OsImage), s.booting 12 = true ∧ s.boot.image = some i) ∧
    (∀ p ∈ [0, 1, 2, 3, 5, 6, 7, 8, 11, 12], ∃ s : State, invOk s = true ∧ s.booting p = true ∧ s.inPhase = 0) ∧
    (∀ p ∈ [0, 1, 5, 6, 8, 11], ∃ s : State, invOk s = true ∧ s.booting p = true ∧ s.inPhase = 30000000000) :=
  let st (v : Nat) : State := (boots 9 60000000000 {}).wf Reg.CMD_STRAPS 4 4 v
  let im (n l : Nat) : State := ((boots 11 0 {}).wf Reg.CMD_STRAPS 1 0 n).wf Reg.MGMT_PORT_ST 0 0 l
  let tf (n : Nat) : State := boots 11 0 { tftp := some (tftp1 n) }
  ⟨⟨boots 1 0 {}, by decide +kernel⟩, ⟨st 1, by decide +kernel⟩, ⟨(boots 9 0 { coord := some (8191, 3, 2 ^ 32 - 1) }).wf Reg.CMD_STRAPS 4 4 0, by decide +kernel⟩,
   ⟨(boots 9 59999999999 {}).wf Reg.CMD_STRAPS 4 4 0, by decide +kernel⟩, ⟨st 0, by decide +kernel⟩, ⟨boots 10 0 {}, by decide +kernel⟩,
   ⟨(boots 10 0 { linking := true }).wf (Reg.PORT_ST 15 1) 2 0 1, by decide +kernel, by decide +kernel, 31, by decide +kernel⟩, ⟨boots 10 0 { linking := true }, by decide +kernel⟩,
   ⟨boots 11 0 { client := true, tftp := some (tftp1 1) }, by decide +kernel⟩, fun n hn => ⟨im n 1, by revert n; decide +kernel⟩, ⟨im 2 0, by decide +kernel⟩,
   ⟨boots 11 0 { client := true }, by decide +kernel⟩, ⟨tf 3, by decide +kernel⟩, ⟨tf 1, by decide +kernel⟩, ⟨{ tf 1 with fuse := { owner := some [] } }, by decide +kernel⟩,
   ⟨tf 1, by decide +kernel⟩, ⟨tf 2, by decide +kernel⟩, ⟨boots 11 99999999 { tftp := some (tftp1 1) }, by decide +kernel⟩,
   fun k hk => ⟨boots 11 100000000 { tftp := some { tftp1 1 with tries := k } }, by revert k; decide +kernel⟩, ⟨boots 12 0 {}, by decide +kernel⟩,
   ⟨boots 12 0 { image := some { digest := [], entry := 0, arg := 0 } }, { digest := [], entry := 0, arg := 0 }, by decide +kernel⟩, fun p hp => ⟨boots p 0 {}, by revert p; decide +kernel⟩,
   fun p hp => ⟨boots p 30000000000 {}, by revert p; decide +kernel⟩⟩

/-! ### Cuard commands. -/

/-- A request of a row with parameters `p`, of session 7, sequence 1, its flags `f`; the session's key is empty. -/
def pkt (d : CmdDef) (f : Nat) (p : List Byte) : Req :=
  let h : List Byte := [1, BitVec.ofNat 8 f] ++ toLE 2 d.code ++ [1, 0, 0, 0] ++ [7, 0, 0, 0] ++ toLE 4 p.length ++ List.replicate 16 0
  { port := 1, bytes := h ++ p ++ (if f / 4 % 2 = 1 then hmac384 [] (h ++ p) else []), arrival := 0, org := {} }

/-- `s` with its processor up, session 7 active, and `r` alone in the queue. -/
def asks (s : State) (r : Req) : State :=
  { s with off := false, rst := { s.rst with chipHeld := false }, cq := { s.cq with queue := [r], sessions := [sess7] } }

/-- `Executes`, computed. -/
def execOk (d : CmdDef) (s : State) (r : Req) : Bool :=
  let p := pkParams r.bytes
  let g := ({ s with cq := { s.cq with queue := s.cq.queue.tail } } : State).gate d r
  reqIs d.code r && s.cuardUp && decide (s.cq.queue.head? = some r) && !s.blocked && decide ((s.now - r.arrival).toNat ≤ s.rd Reg.CMD_QTMO) && headStatus r.bytes == 0 &&
    g.1 == 0 && (if d.acc = .s ∨ d.acc = .e then g.2.2.leaseStatus (d.res p) (pkLease r.bytes) g.2.1.key == 0 else true) && d.lease g.2.2 g.2.1 == 0 &&
    d.check g.2.2 p == 0 && (g.2.2.meets d r g.2.1).isNone && !g.2.2.resBusy (d.res p)

/-- `Executes` at some request and state, with what `H` says of the state, the request, the reply and the parameters. -/
def Does (d : CmdDef) (H : State → Req → RepTo → List Byte → Prop) : Prop :=
  ∃ s r t u, Executes d s r t u ∧ H u r t (pkParams r.bytes)

theorem does_of {d : CmdDef} {H : State → Req → RepTo → List Byte → Prop} (s : State) (r : Req) (h : execOk d s r = true)
    (hH : let g := ({ s with cq := { s.cq with queue := s.cq.queue.tail } } : State).gate d r; H g.2.2 r g.2.1 (pkParams r.bytes)) : Does d H := by
  simp only [execOk, Bool.and_eq_true, decide_eq_true_eq, beq_iff_eq, Bool.not_eq_true', Option.isNone_iff_eq_none] at h
  obtain ⟨⟨⟨⟨⟨⟨⟨⟨⟨⟨⟨h1, h2⟩, h3⟩, h4⟩, h5⟩, h6⟩, h7⟩, h8⟩, h9⟩, h10⟩, h11⟩, h12⟩ := h
  refine ⟨_, _, _, _, ⟨h1, h2, h3, h4, h5, h6, Prod.ext h7 rfl, fun ha => ?_, h9, h10, h11, h12⟩, hH⟩
  rw [if_pos ha] at h8
  simpa using h8

/-- The header of a request of session 7, sequence 1: flags, opcode, length and lease. -/
def hd (f c0 c1 n0 n1 l0 : Byte) : List Byte :=
  [1, f, c0, c1, 1, 0, 0, 0, 7, 0, 0, 0, n0, n1, 0, 0, l0, 0, 0, 0, 0, 0, 0, 0, 0, 0, 0, 0, 0, 0, 0, 0]

/-- The request with that header and its HMAC. -/
def reqS (f c0 c1 n0 n1 l0 : Byte) (p : List Byte) : Req :=
  { port := 1, bytes := hd f c0 c1 n0 n1 l0 ++ (p ++ hmac384 [] (hd f c0 c1 n0 n1 l0 ++ p)), arrival := 0, org := {} }

/-- Session 7 once that request has passed. -/
def asked (s : State) : State :=
  { s with
    off := false, rst := { s.rst with chipHeld := false }
    cq := { queue := [], sessions := [{ sess7 with high := 1, last := s.now, seen := [1] }], leases := s.cq.leases } }

/-- The same with the request waiting. -/
def askS (s : State) (r : Req) : State :=
  { s with
    off := false, rst := { s.rst with chipHeld := false }, cq := { queue := [r], sessions := [sess7], leases := s.cq.leases } }

/-- What the reply of that request names. -/
def repS (f : Nat) (code : Nat) (l0 : Nat) : RepTo :=
  { port := 1, org := {}, opcode := code, seq := 1, session := 7, lease := l0, expert := bitOf f 1, authed := true, key := 0 }

/-- The conditions of `Executes` that do not depend on the HMAC. -/
def sOk (d : CmdDef) (s : State) (f c0 c1 n0 n1 l0 : Byte) (p : List Byte) : Bool :=
  decide (d.acc = .s ∨ d.acc = .e) && (f == 6 || (f == 4 && decide (d.acc = .s))) && leNat [c0, c1] == d.code && opcodes.contains d.code && leNat [n0, n1, 0, 0] == p.length &&
    decide (p.length ≤ 4096) && decide ((s.now - 0).toNat ≤ (asked s).rd Reg.CMD_QTMO) && (asked s).permits d.code &&
    (asked s).leaseStatus (d.res p) (leNat [l0, 0, 0, 0]) 0 == 0 && d.lease (asked s) (repS f.toNat d.code (leNat [l0, 0, 0, 0])) == 0 && d.check (asked s) p == 0

theorem length_toLE (n w : Nat) : (toLE n w).length = n := by
  induction n generalizing w with
  | zero => rfl
  | succ n ih => simp [toLE, ih]

theorem length_shaBlocks (n : Nat) (hv : List DWord) (l : List Byte) (h : hv.length = 8) : (shaBlocks n hv l).length = 8 := by
  induction n generalizing hv l with
  | zero => exact h
  | succ n ih => exact ih _ _ rfl

theorem length_hmac384 (k m : List Byte) : (hmac384 k m).length = 48 := by
  have h8 (x : DWord) : (toBE 8 x.toNat).length = 8 := by simp [toBE, length_toLE]
  simp only [hmac384, sha384, List.length_flatMap, h8, List.map_const', List.sum_replicate, List.length_take]
  rw [length_shaBlocks _ _ _ rfl]
  rfl

theorem gate_s {d : CmdDef} {q u : State} {r : Req} {x y : Sess} (ha : d.acc = .s ∨ d.acc = .e) (h : q.authCheck r = (none, u)) (hy : q.sess (pkSess r.bytes) = some y)
    (hx : u.sess (pkSess r.bytes) = some x) (h2 : pkFlag r.bytes 2 = true) (hp : u.permits d.code = true) (h1 : pkFlag r.bytes 1 = true → x.expert = true)
    (he : d.acc = .e → pkFlag r.bytes 1 = true) : q.gate d r = (0, { repTo r with authed := true, key := y.key, repKey := x.repKey }, u) := by
  unfold State.gate
  have hl : d.acc ≠ .l := by rcases ha with h' | h' <;> rw [h'] <;> decide
  have hq : d.acc ≠ .q := by rcases ha with h' | h' <;> rw [h'] <;> decide
  have hl' : (d.acc == AccCls.l) = false := by simpa using hl
  have hc : (pkFlag r.bytes 1 && !x.expert || d.acc == .e && !pkFlag r.bytes 1) = false := by
    cases hf : pkFlag r.bytes 1
    · have : d.acc ≠ .e := fun h' => by rw [he h'] at hf; cases hf
      simpa using this
    · rw [h1 hf]
      simp
  simp only [h2, hy, h, hx, hl, hl', hq, hp, hc, if_true, if_false, Bool.true_and, bne, Bool.not_false, Bool.and_true, Bool.or_false, Bool.not_true, Bool.false_and, Bool.false_eq_true,
    Option.map_some, Option.getD_some]

/-- The tail of that request is its HMAC, whatever the HMAC is. -/
theorem exec_s {d : CmdDef} {s : State} {f c0 c1 n0 n1 l0 : Byte} {p : List Byte} (h : sOk d s f c0 c1 n0 n1 l0 p = true) :
    Executes d (askS s (reqS f c0 c1 n0 n1 l0 p)) (reqS f c0 c1 n0 n1 l0 p) (repS f.toNat d.code (leNat [l0, 0, 0, 0])) (asked s) := by
  simp only [sOk, Bool.and_eq_true, Bool.or_eq_true, decide_eq_true_eq, beq_iff_eq] at h
  obtain ⟨⟨⟨⟨⟨⟨⟨⟨⟨⟨ha, hf⟩, hc⟩, ho⟩, hn⟩, hp⟩, hq⟩, hs⟩, hl⟩, hw⟩, hk⟩ := h
  unfold reqS
  generalize hm : hmac384 [] (hd f c0 c1 n0 n1 l0 ++ p) = m
  have hm48 : m.length = 48 := by rw [← hm]; exact length_hmac384 _ _
  have e1 : pkOp (hd f c0 c1 n0 n1 l0 ++ (p ++ m)) = d.code := hc
  have e2 : pkLen (hd f c0 c1 n0 n1 l0 ++ (p ++ m)) = p.length := hn
  have e3 : pkParams (hd f c0 c1 n0 n1 l0 ++ (p ++ m)) = p := by
    unfold pkParams
    rw [e2]
    exact List.take_left' rfl
  have e4 : pkTail (hd f c0 c1 n0 n1 l0 ++ (p ++ m)) = m := by
    unfold pkTail
    rw [e2, ← List.drop_drop]
    exact List.drop_left' rfl
  have e5 : pkCover (hd f c0 c1 n0 n1 l0 ++ (p ++ m)) = hd f c0 c1 n0 n1 l0 ++ p := by
    unfold pkCover
    rw [e3]
    rfl
  have e6 : (hd f c0 c1 n0 n1 l0 ++ (p ++ m)).length = 80 + p.length := by
    simp only [List.length_append, hm48, hd, List.length_cons, List.length_nil]
    omega
  have hs7 : (askS s { port := 1, bytes := hd f c0 c1 n0 n1 l0 ++ (p ++ m), arrival := 0, org := {} }).cq.sessions = [sess7] := rfl
  have f0 (n : Nat) : pkFlag (hd f c0 c1 n0 n1 l0 ++ (p ++ m)) n = bitOf (leNat [f]) n := rfl
  have hauth : ∀ q : State, q.cq.sessions = [sess7] →
      q.authCheck { port := 1, bytes := hd f c0 c1 n0 n1 l0 ++ (p ++ m), arrival := 0, org := {} } =
        (none, q.modSess 7 (fun x => { x with high := 1, last := q.now, seen := [1] })) := by
    intro q hq
    have hse : q.sess (pkSess (hd f c0 c1 n0 n1 l0 ++ (p ++ m))) = some sess7 := by
      have : pkSess (hd f c0 c1 n0 n1 l0 ++ (p ++ m)) = 7 := rfl
      rw [this]
      unfold State.sess
      rw [hq]
      rfl
    have hse1 : pkSeq (hd f c0 c1 n0 n1 l0 ++ (p ++ m)) = 1 := rfl
    have hmac : hmac384 [] (hd f c0 c1 n0 n1 l0 ++ p) = m.take 48 := by rw [hm, ← hm48, List.take_length]
    unfold State.authCheck
    simp only [hse, e5, e4, hse1]
    rw [if_neg (by decide), if_neg (fun hne => hne (by exact hmac)), if_neg (by decide)]
    unfold State.modSess
    rw [hq]
    rfl
  have fl : pkFlag (hd f c0 c1 n0 n1 l0 ++ (p ++ m)) 0 = false ∧ pkFlag (hd f c0 c1 n0 n1 l0 ++ (p ++ m)) 2 = true ∧
      pkFlag (hd f c0 c1 n0 n1 l0 ++ (p ++ m)) 3 = false ∧ rdLE (hd f c0 c1 n0 n1 l0 ++ (p ++ m)) 1 1 < 16 ∧
      pkFlag (hd f c0 c1 n0 n1 l0 ++ (p ++ m)) 1 = bitOf f.toNat 1 ∧ (d.acc = .e → bitOf f.toNat 1 = true) := by
    have r1 : rdLE (hd f c0 c1 n0 n1 l0 ++ (p ++ m)) 1 1 = leNat [f] := rfl
    simp only [f0, r1]
    rcases hf with rfl | ⟨rfl, hs'⟩
    · exact ⟨by decide, by decide, by decide, by decide, by decide, fun _ => by decide⟩
    · exact ⟨by decide, by decide, by decide, by decide, by decide, fun he => by rw [hs'] at he; cases he⟩
  obtain ⟨fl0, fl2, fl3, fl16, fl1, fle⟩ := fl
  have hlenok : pkLenOk (hd f c0 c1 n0 n1 l0 ++ (p ++ m)) = true := by
    have h0 : pkNsig (hd f c0 c1 n0 n1 l0 ++ (p ++ m)) = 0 := rfl
    have hw : pkWant (hd f c0 c1 n0 n1 l0 ++ (p ++ m)) = some (80 + p.length) := by
      unfold pkWant
      simp only [h0, e2, fl2, fl3]
      rw [if_neg (by simp; omega)]
      simp
      omega
    unfold pkLenOk
    rw [hw, e6]
    simp
    omega
  refine ⟨?_, rfl, rfl, rfl, hq, ?_, ?_, fun _ => ?_, hw, ?_, rfl, ?_⟩
  · unfold reqIs
    simp only [e1, fl0, e6]
    simp
    exact ⟨by omega, rfl⟩
  · unfold headStatus
    have v1 : rdLE (hd f c0 c1 n0 n1 l0 ++ (p ++ m)) 0 1 = 1 := rfl
    have v2 : rdLE (hd f c0 c1 n0 n1 l0 ++ (p ++ m)) 22 1 = 0 := show leNat [0] = 0 by decide
    have v3 : rdLE (hd f c0 c1 n0 n1 l0 ++ (p ++ m)) 23 9 = 0 := show leNat [0, 0, 0, 0, 0, 0, 0, 0, 0] = 0 by decide
    have v4 : rdLE (hd f c0 c1 n0 n1 l0 ++ (p ++ m)) 20 2 = 0 := show leNat [0, 0] = 0 by decide
    simp only [v1, v2, v3, v4, hlenok, e1, ho]
    rw [if_neg (by decide), if_neg (by omega)]
    rfl
  · have hr : repTo { port := 1, bytes := hd f c0 c1 n0 n1 l0 ++ (p ++ m), arrival := 0, org := {} } =
        { repS f.toNat d.code (leNat [l0, 0, 0, 0]) with authed := false, key := 255 } := by
      unfold repTo repS
      simp only [e1, fl1]
      rfl
    have hg : ∀ q : State, q = { askS s { port := 1, bytes := hd f c0 c1 n0 n1 l0 ++ (p ++ m), arrival := 0, org := {} } with
        cq := { queue := [], sessions := [sess7], leases := s.cq.leases } } → q.authCheck { port := 1, bytes := hd f c0 c1 n0 n1 l0 ++ (p ++ m), arrival := 0, org := {} } =
        (none, asked s) := fun q hq' => by
      rw [hauth q (by rw [hq'])]
      subst hq'
      rfl
    refine (gate_s ha (hg _ rfl) (y := sess7) (x := { sess7 with high := 1, last := s.now, seen := [1] }) rfl rfl fl2 hs (fun _ => rfl) fun he => ?_).trans ?_
    · exact fl1.trans (fle he)
    · rw [hr]
      rfl
  · rw [e3]
    exact hl
  · rw [e3]
    exact hk
  · exact Bool.and_eq_false_imp.2 fun _ => rfl

theorem does_s {d : CmdDef} {H : State → Req → RepTo → List Byte → Prop} (s : State) (f c0 c1 n0 n1 l0 : Byte) (p : List Byte)
    (h : sOk d s f c0 c1 n0 n1 l0 p = true) (hH : H (asked s) (reqS f c0 c1 n0 n1 l0 p) (repS f.toNat d.code (leNat [l0, 0, 0, 0])) p) : Does d H := by
  refine ⟨_, _, _, _, exec_s h, ?_⟩
  have hp : pkParams (reqS f c0 c1 n0 n1 l0 p).bytes = p := by
    simp only [sOk, Bool.and_eq_true, beq_iff_eq] at h
    have hn : pkLen (reqS f c0 c1 n0 n1 l0 p).bytes = p.length := h.1.1.1.1.1.1.2
    unfold pkParams
    rw [hn]
    exact List.take_left' rfl
  rwa [hp]

/-! ### Catalogue commands: a request of each that passes every check, in a state in which it has its effect. -/

/-- SERVICE, every domain on. -/
def up : State := { State.reset.wf Reg.CMD_DEV_STATE 2 0 stService with domsOff := 0 }

/-- A key entry: a point and its rights. -/
def entry1 (x y : Nat) (rights : Byte) : List Byte := 4 :: ecBytes (x, y) ++ [rights] ++ List.replicate 30 0

/-- A key table of the one key, which alone makes a quorum; the nonce `n`. -/
def table1 (x y : Nat) (rights : Byte) (n : Nat) (s : State) : State :=
  let s := ((s.wf Reg.SEC_KT 25 24 1).wf Reg.SEC_KT 15 8 1).wf Reg.SEC_KT 3 0 1 |>.flashPut (flKeys + 0x10) (entry1 x y rights)
  { s with cq := { s.cq with nonce := toLE 32 n } }

/-- A request with one quorum signature of key 0, whose halves are both `e`. -/
def signed (d : CmdDef) (f : Nat) (p : List Byte) (e : Nat) : Req :=
  let h : List Byte := [1, BitVec.ofNat 8 f] ++ toLE 2 d.code ++ [1, 0, 0, 0, 7, 0, 0, 0] ++ toLE 4 p.length ++ List.replicate 6 0 ++ [1] ++ List.replicate 9 0
  { port := 1, bytes := h ++ p ++ (if f / 4 % 2 = 1 then hmac384 [] (h ++ p) else []) ++ [0, 0] ++ toBE 48 e ++ toBE 48 e, arrival := 0, org := {} }

/-- A READY context in slot 1. -/
def ctx1 : Slot := { job1 with st := .ready }

/-- A checkpoint descriptor of one region at the start of the polder 8 area, its channels ready. -/
def ready4 : State :=
  let s := (List.range 4).foldl (fun s c => s.wf (Reg.MEM_CH_STAT (128 + c)) 2 0 2) (idle1 ctx1)
  { s with mem := memPut [] (dramKey 128 0) ([1, 1] ++ List.replicate 55 0 ++ [0x10] ++ List.replicate 7 0 ++ [0x10]) }

/-- Calibration item 0 of two bytes. -/
def calS : State := up.flashPut flCal (calFresh.take 0x20 ++ [0, 0x10, 0, 0, 2] ++ List.replicate 43 0)

theorem witness_identityCommands :
    Does defIdentGet (fun _ _ _ _ => True) ∧
      Does defStateGet (fun _ _ _ _ => True) ∧
      Does defInventoryGet (fun _ _ _ _ => True) ∧
      Does defCertGet (fun u _ _ p => rdLE p 0 4 + rdLE p 4 2 ≤ u.certificate.length) ∧
      Does defMgmtAddrSet (fun _ _ _ _ => True) ∧
      Does defSessionOpen (fun u _ _ p => u.tooManyFails = false ∧ (u.keyHas 0 0 && sec1Ok (sliceB p 2 97)) = true ∧ u.cq.sessions.length < 8) ∧
      Does defSessionConfirm (fun u r t p => ∃ x, u.sess t.session = some x ∧ x.active = false ∧ x.port = r.port ∧ (u.now - x.opened).toNat ≤ 1000000000 ∧
        (u.keyHas x.key 0 && ecdsaVerify (u.keyPub x.key) (sha384 x.tHash) p) = true) ∧
      Does defSessionClose (fun _ _ _ _ => True) ∧
      Does defLeaseAcquire (fun u _ _ p => (u.lapse (rdLE p 0 1)).leaseOf (rdLE p 0 1) = none) ∧
      Does defLeaseRenew (fun u _ t _ => ∃ l, u.leaseNamed t.lease = some 3 ∧ u.leaseOf 3 = some l) ∧
      Does defLeaseRelease (fun u _ t _ => u.leaseNamed t.lease = some 3) ∧
      Does defLeaseTakeover (fun u _ t p => t.authed = true ∧ ((u.lapse (rdLE p 0 1)).leaseOf (rdLE p 0 1)).isSome = true) ∧
      Does defLeaseGet (fun _ _ _ _ => True) ∧
      Does defQnonceGet (fun _ _ _ _ => True) ∧
      Does defKeytabGet (fun u _ _ _ => u.ktState ≠ 0) ∧
      Does defKeytabInit (fun u _ _ _ => u.ktState = 0) ∧
      Does defKeytabSet (fun u _ _ _ => u.fuse.ktCtr < 64 ∧ u.ktState = 1) ∧
      Does defKeytabRestore (fun u _ _ p => u.ktState = 2 ∧ u.ktBad p ≠ 0) :=
  ⟨does_of (asks (up) (pkt defIdentGet 0 [])) (pkt defIdentGet 0 []) (by decide +kernel) trivial,
   does_of (asks (up) (pkt defStateGet 0 [])) (pkt defStateGet 0 []) (by decide +kernel) trivial,
   does_of (asks (up) (pkt defInventoryGet 0 [])) (pkt defInventoryGet 0 []) (by decide +kernel) trivial,
   does_of (asks (up.flashPut flCert [0x30, 0x82, 0, 1]) (pkt defCertGet 0 [0, 0, 0, 0, 1, 0])) (pkt defCertGet 0 [0, 0, 0, 0, 1, 0]) (by decide +kernel) (by decide +kernel),
   does_s (up) 4 5 1 21 0 0 [0, 0, 0, 0, 0, 0, 0, 0, 0, 0, 0, 0, 0, 0, 0, 0, 0, 0, 0, 0, 0] (by decide +kernel) trivial,
   does_of (asks (table1 0xAA87CA22BE8B05378EB1C71EF320AD746E1D3B628BA79B9859F741E082542A385502F25DBF55296C3A545E3872760AB7 0x3617DE4A96262C6F5D9E98BF9292DC29F8F41DBD289A147CE9DA3113B5F0B8C00A60B1CE1D7E819D7A431D7C90EA0E5F 1 0 up) (pkt defSessionOpen 0 [0, 0, 4, 170, 135, 202, 34, 190, 139, 5, 55, 142, 177, 199, 30, 243, 32, 173, 116, 110, 29, 59, 98, 139, 167, 155, 152, 89, 247, 65, 224, 130, 84, 42, 56, 85, 2, 242, 93, 191, 85, 41, 108, 58, 84, 94, 56, 114, 118, 10, 183, 54, 23, 222, 74, 150, 38, 44, 111, 93, 158, 152, 191, 146, 146, 220, 41, 248, 244, 29, 189, 40, 154, 20, 124, 233, 218, 49, 19, 181, 240, 184, 192, 10, 96, 177, 206, 29, 126, 129, 157, 122, 67, 29, 124, 144, 234, 14, 95, 0, 0, 0, 0, 0, 0, 0, 0, 0, 0, 0, 0, 0, 0, 0, 0, 0, 0, 0, 0, 0, 0, 0, 0, 0, 0, 0, 0, 0, 0, 0, 0])) (pkt defSessionOpen 0 [0, 0, 4, 170, 135, 202, 34, 190, 139, 5, 55, 142, 177, 199, 30, 243, 32, 173, 116, 110, 29, 59, 98, 139, 167, 155, 152, 89, 247, 65, 224, 130, 84, 42, 56, 85, 2, 242, 93, 191, 85, 41, 108, 58, 84, 94, 56, 114, 118, 10, 183, 54, 23, 222, 74, 150, 38, 44, 111, 93, 158, 152, 191, 146, 146, 220, 41, 248, 244, 29, 189, 40, 154, 20, 124, 233, 218, 49, 19, 181, 240, 184, 192, 10, 96, 177, 206, 29, 126, 129, 157, 122, 67, 29, 124, 144, 234, 14, 95, 0, 0, 0, 0, 0, 0, 0, 0, 0, 0, 0, 0, 0, 0, 0, 0, 0, 0, 0, 0, 0, 0, 0, 0, 0, 0, 0, 0, 0, 0, 0, 0]) (by decide +kernel) (by decide +kernel),
   (let r0 : Req := pkt defSessionConfirm 0 (toBE 48 0xDB475240477C5E4497A2C5724CA485F5B1F2C2FC0602B92BAE234238EC8D4E873A7148C739593E95A7F4DFE7C6E69F69 ++ toBE 48 0xDB475240477C5E4497A2C5724CA485F5B1F2C2FC0602B92BAE234238EC8D4E873A7148C739593E95A7F4DFE7C6E69F69)
    does_of { asks (table1 0xB42062144550E6F1C1EAB261BC2F03156627CFBA964FB8B26E2EC1644432B6873CF698069CF8AABCD7EBC2754650B412 0xCED6FF89AF867F08CC08FA4C6A369DC0E2EE4F55350A07A3820E84657604C645D002B3907E62A6A02E4847EA6BB59FBC 1 0 up) r0 with cq := { (asks (table1 0xB42062144550E6F1C1EAB261BC2F03156627CFBA964FB8B26E2EC1644432B6873CF698069CF8AABCD7EBC2754650B412 0xCED6FF89AF867F08CC08FA4C6A369DC0E2EE4F55350A07A3820E84657604C645D002B3907E62A6A02E4847EA6BB59FBC 1 0 up) r0).cq with sessions := [{ sess7 with active := false, tHash := [2] }] } } r0 (by decide +kernel) ⟨{ sess7 with active := false, tHash := [2] }, by decide +kernel⟩),
   does_s (up) 4 18 1 0 0 0 [] (by decide +kernel) trivial,
   does_s (up) 4 24 1 3 0 0 [3, 1, 0] (by decide +kernel) (by decide +kernel),
   does_s ({ up with cq := { leases := [(3, some ⟨0, 5, 100⟩)] } }) 4 25 1 2 0 5 [1, 0] (by decide +kernel) ⟨⟨0, 5, 100⟩, by decide +kernel⟩,
   does_s ({ up with cq := { leases := [(3, some ⟨0, 5, 100⟩)] } }) 4 26 1 0 0 5 [] (by decide +kernel) (by decide +kernel),
   does_of (asks (table1 0x4323EC9B0EA92D3F103017A6FFAACFD54E04DD25346C0EDBC76DEB7F550897221F859F29815F14E5848FA2CF72778AB4 0xA7C00F6F4ECB886F79686B1AEE6A626772D82E4C9241D49EA9C9C3E7F787D29722A2267A31800D94743A77F4DE9FEB0B 4 2 ({ up with cq := { leases := [(3, some ⟨1, 5, 100⟩)] } })) (signed defLeaseTakeover 12 [3, 1, 0] 0x8B0D150C6D8861EA08091575D3818FBF80F1483FD6F5A2E6CC4732FBB3EEBA7C79013D4CDBE2F9866910F8839AEFE0F0)) (signed defLeaseTakeover 12 [3, 1, 0] 0x8B0D150C6D8861EA08091575D3818FBF80F1483FD6F5A2E6CC4732FBB3EEBA7C79013D4CDBE2F9866910F8839AEFE0F0) (by decide +kernel) (by decide +kernel),
   does_of (asks (up) (pkt defLeaseGet 0 [])) (pkt defLeaseGet 0 []) (by decide +kernel) trivial,
   does_of (asks (up) (pkt defQnonceGet 0 [])) (pkt defQnonceGet 0 []) (by decide +kernel) trivial,
   does_of (asks (up.wf Reg.SEC_KT 25 24 1) (pkt defKeytabGet 0 [])) (pkt defKeytabGet 0 []) (by decide +kernel) (by decide +kernel),
   does_of (asks (up) (pkt defKeytabInit 0 [1, 1, 4, 170, 135, 202, 34, 190, 139, 5, 55, 142, 177, 199, 30, 243, 32, 173, 116, 110, 29, 59, 98, 139, 167, 155, 152, 89, 247, 65, 224, 130, 84, 42, 56, 85, 2, 242, 93, 191, 85, 41, 108, 58, 84, 94, 56, 114, 118, 10, 183, 54, 23, 222, 74, 150, 38, 44, 111, 93, 158, 152, 191, 146, 146, 220, 41, 248, 244, 29, 189, 40, 154, 20, 124, 233, 218, 49, 19, 181, 240, 184, 192, 10, 96, 177, 206, 29, 126, 129, 157, 122, 67, 29, 124, 144, 234, 14, 95, 4, 0, 0, 0, 0, 0, 0, 0, 0, 0, 0, 0, 0, 0, 0, 0, 0, 0, 0, 0, 0, 0, 0, 0, 0, 0, 0, 0, 0, 0, 0])) (pkt defKeytabInit 0 [1, 1, 4, 170, 135, 202, 34, 190, 139, 5, 55, 142, 177, 199, 30, 243, 32, 173, 116, 110, 29, 59, 98, 139, 167, 155, 152, 89, 247, 65, 224, 130, 84, 42, 56, 85, 2, 242, 93, 191, 85, 41, 108, 58, 84, 94, 56, 114, 118, 10, 183, 54, 23, 222, 74, 150, 38, 44, 111, 93, 158, 152, 191, 146, 146, 220, 41, 248, 244, 29, 189, 40, 154, 20, 124, 233, 218, 49, 19, 181, 240, 184, 192, 10, 96, 177, 206, 29, 126, 129, 157, 122, 67, 29, 124, 144, 234, 14, 95, 4, 0, 0, 0, 0, 0, 0, 0, 0, 0, 0, 0, 0, 0, 0, 0, 0, 0, 0, 0, 0, 0, 0, 0, 0, 0, 0, 0, 0, 0, 0]) (by decide +kernel) (by decide +kernel),
   does_of (asks (table1 0xE4E6BAB51D10A9C0A87C2600CD51ACE62759C1472BEAB88CB5852A838EDA73A9D4D4F9FC412429690AB3131C0E51CFAB 0xBAED60B8FA83994B886A07F8700D451285136730243CEF8BDF3E2B4F141D4DEE73C0508FA200883501DBF2699589EFCF 4 1 (up)) (signed defKeytabSet 8 [1, 1, 4, 170, 135, 202, 34, 190, 139, 5, 55, 142, 177, 199, 30, 243, 32, 173, 116, 110, 29, 59, 98, 139, 167, 155, 152, 89, 247, 65, 224, 130, 84, 42, 56, 85, 2, 242, 93, 191, 85, 41, 108, 58, 84, 94, 56, 114, 118, 10, 183, 54, 23, 222, 74, 150, 38, 44, 111, 93, 158, 152, 191, 146, 146, 220, 41, 248, 244, 29, 189, 40, 154, 20, 124, 233, 218, 49, 19, 181, 240, 184, 192, 10, 96, 177, 206, 29, 126, 129, 157, 122, 67, 29, 124, 144, 234, 14, 95, 4, 0, 0, 0, 0, 0, 0, 0, 0, 0, 0, 0, 0, 0, 0, 0, 0, 0, 0, 0, 0, 0, 0, 0, 0, 0, 0, 0, 0, 0, 0] 0x9BC35B8FEE85439DCB211DA6F88BCE846EB193381BF009725BB43B7DC8C3D9E26B4CC5B7688F2D75688DD9A3838FB4BA)) (signed defKeytabSet 8 [1, 1, 4, 170, 135, 202, 34, 190, 139, 5, 55, 142, 177, 199, 30, 243, 32, 173, 116, 110, 29, 59, 98, 139, 167, 155, 152, 89, 247, 65, 224, 130, 84, 42, 56, 85, 2, 242, 93, 191, 85, 41, 108, 58, 84, 94, 56, 114, 118, 10, 183, 54, 23, 222, 74, 150, 38, 44, 111, 93, 158, 152, 191, 146, 146, 220, 41, 248, 244, 29, 189, 40, 154, 20, 124, 233, 218, 49, 19, 181, 240, 184, 192, 10, 96, 177, 206, 29, 126, 129, 157, 122, 67, 29, 124, 144, 234, 14, 95, 4, 0, 0, 0, 0, 0, 0, 0, 0, 0, 0, 0, 0, 0, 0, 0, 0, 0, 0, 0, 0, 0, 0, 0, 0, 0, 0, 0, 0, 0, 0] 0x9BC35B8FEE85439DCB211DA6F88BCE846EB193381BF009725BB43B7DC8C3D9E26B4CC5B7688F2D75688DD9A3838FB4BA) (by decide +kernel) (by decide +kernel),
   does_of (asks (up.wf Reg.SEC_KT 25 24 2) (pkt defKeytabRestore 0 (List.replicate 1088 0))) (pkt defKeytabRestore 0 (List.replicate 1088 0)) (by decide +kernel) (by decide +kernel)⟩

theorem witness_contextCommands :
    Does defClkPlanSet (fun u _ _ p => u.tstrictRuns = false ∧ ((u.askPlan (rdLE p 0 2)).clk.change ≠ none ∨ (u.askPlan (rdLE p 0 2)).clk.reqs.length ≠ 1 ∨ (u.askPlan (rdLE p 0 2)).effF ≠ (u.askPlan (rdLE p 0 2)).aMhz)) ∧
      Does defPwrCapSet (fun u _ _ _ => invOk u = true) ∧
      Does defDomainGate (fun u _ _ p => (u.gateDomain (rdLE p 0 1) (rdLE p 1 1 == 0)).1 = true) ∧
      Does defClkpwrGet (fun _ _ _ _ => True) ∧
      Does defCtxLoad (fun u _ _ _ => u.rbit Reg.CMD_STRAPS 14 = false ∧ u.tstrictRuns = false) ∧
      Does defCtxUnload (fun u _ _ p => u.slotById (rdLE p 0 2) = some (1, ctx1) ∧ u.runCtx ≠ 0x11 ∧ u.reelUses 0x11 = false) ∧
      Does defCtxSwitch (fun u _ _ p => (u.quarActive || u.tstrictRuns || u.switching) = false ∧ u.switchTo (rdLE p 0 1) = some 1 ∧ u.slotOf 1 = some ctx1 ∧ u.readyAt 1 = true) ∧
      Does defCtxStatus (fun u _ _ p => u.slotById (rdLE p 0 2) = some (1, ctx1)) ∧
      Does defQuantumSet (fun _ _ _ _ => True) ∧
      Does defStripeSet (fun u _ _ _ => u.anyResident = false) ∧
      Does defSpnGet (fun _ _ _ _ => True) ∧
      Does defChnGet (fun _ _ _ _ => True) :=
  ⟨does_s (up.wf Reg.CLK_REDUCE 20 20 0) 4 1 2 2 0 0 [44, 1] (by decide +kernel) (by decide +kernel),
   does_s (up.wr Reg.PWR_CAP_SRC (1000 * 65536 + 1000)) 4 2 2 2 0 0 [44, 1] (by decide +kernel) (by decide +kernel),
   does_s (up) 4 3 2 2 0 0 [21, 1] (by decide +kernel) (by decide +kernel),
   does_of (asks (up) (pkt defClkpwrGet 0 [])) (pkt defClkpwrGet 0 []) (by decide +kernel) trivial,
   does_s (up) 4 1 3 8 0 0 [0, 0, 0, 0, 48, 0, 0, 0] (by decide +kernel) (by decide +kernel),
   does_s (idle1 ctx1) 4 2 3 2 0 0 [17, 0] (by decide +kernel) (by decide +kernel),
   does_s (idle1 ctx1) 4 3 3 1 0 0 [1] (by decide +kernel) (by decide +kernel),
   does_s (idle1 ctx1) 4 4 3 2 0 0 [17, 0] (by decide +kernel) (by decide +kernel),
   does_s (up) 4 5 3 4 0 0 [0, 0, 0, 0] (by decide +kernel) trivial,
   does_s (up) 4 6 3 4 0 0 [3, 47, 1, 0] (by decide +kernel) (by decide +kernel),
   does_s (up) 4 7 3 1 0 0 [17] (by decide +kernel) trivial,
   does_s (up) 4 8 3 2 0 0 [17, 63] (by decide +kernel) trivial⟩

theorem witness_healthCommands :
    Does defFence (fun u _ _ p => u.fencedUnit (rdLE p 0 2) = false) ∧
      Does defReturn (fun u _ _ p => u.rolling (rdLE p 0 2) = false ∧ u.fusedBad (rdLE p 0 2) 0 = false ∧ u.fencedUnit (rdLE p 0 2) = true) ∧
      Does defRowRepair (fun u _ _ p => (u.startRepair 131 (rdLE p 2 1) (rdLE p 3 1) (rdLE p 4 2) false).2 = none) ∧
      Does (defFuseBurn false) (fun u _ _ p => rdLE p 0 1 ≠ 1 ∧ u.freeFuse = some 0) ∧
      Does (defFuseBurn true) (fun u _ _ p => rdLE p 0 1 = 1 ∧ u.fuse.owner = none) ∧
      Does defSpolSet (fun _ _ _ _ => True) ∧
      Does defMarginClear (fun u _ _ _ => u.rbit Reg.RST_SPOL 2 = false) ∧
      Does defChanCfg (fun u _ _ _ => invOk u = true) ∧
      Does defRepairGet (fun _ _ _ _ => True) ∧
      Does defTestPolicySet (fun _ _ _ _ => True) ∧
      Does defRollCfg (fun u _ _ _ => invOk u = true) ∧
      Does defTestGet (fun _ _ _ _ => True) ∧
      Does defReset (fun _ _ _ _ => True) ∧
      Does defSuspectGet (fun _ _ _ _ => True) ∧
      Does defSuspectClear (fun u _ _ _ => u.quarActive = false) ∧
      Does defQuarStart (fun u _ _ _ => u.devState = stService ∧ u.runCtx = 0 ∧ u.quarActive = false ∧ u.switching = false ∧ u.slotOf 1 = some ctx1 ∧
        u.readyAt 1 = true ∧ u.replays 15 ctx1 = true) ∧
      Does defQuarEnd (fun u _ _ _ => u.quarActive = true) ∧
      Does defHangCfg (fun u _ _ _ => invOk u = true) :=
  ⟨does_s (up) 4 1 4 2 0 0 [3, 0] (by decide +kernel) (by decide +kernel),
   does_s (up.wf (Reg.SPN_STATE 3) 2 0 6) 4 2 4 2 0 0 [3, 0] (by decide +kernel) (by decide +kernel),
   does_s (up) 4 3 4 6 0 0 [131, 24, 3, 15, 255, 11] (by decide +kernel) (by decide +kernel),
   does_of (asks (table1 0xA411038B7585D85E60A23D4F94ECF7E7D7D5F9A91227B6F7F026375E27BE3A09BAB7E980A3BC44882665AD28E68C9C3C 0x4320A72308BD08AD4E1AEBF443F7E53EF18015B8179C462B7F3E648CE2CD8260074A7D5F736F95D57B432858BBC1DC69 4 2 (up)) (signed (defFuseBurn false) 8 [0, 3, 0, 0, 0] 0x271B77DF15D794CC02AF0BD9AEC1556B3B18EBFD161920794725F4A99968C58EB82DC9317B6804262ED9F700C98D9CCA)) (signed (defFuseBurn false) 8 [0, 3, 0, 0, 0] 0x271B77DF15D794CC02AF0BD9AEC1556B3B18EBFD161920794725F4A99968C58EB82DC9317B6804262ED9F700C98D9CCA) (by decide +kernel) (by decide +kernel),
   does_of (asks (table1 0x702BDA0611559A064E69EDCE648A4A433DA7694C4D93F9DBDF169EA3D208E04E80A8B95297E8682E360AC7E38A7A6E84 0xD1E707814C754AFC6628507E587239096D9155F88B5312CFEB08853E139EE536B5F1C3632F9325AA3EE4F33E03B9EB1A 4 1 (up)) (signed (defFuseBurn true) 8 [1, 0, 0, 0, 0, 0, 0, 0, 0, 0, 0, 0, 0, 0, 0, 0, 0, 0, 0, 0, 0, 0, 0, 0, 0, 0, 0, 0, 0, 0, 0, 0, 0, 0, 0, 0, 0, 0, 0, 0, 0, 0, 0, 0, 0, 0, 0, 0, 0] 0xCA5CC173CA5EC8B4E7B956A6EEE502AE090CC2ECB2ABE1E09C767642937D22D93CF24DEF4F3AB1401A8B98BD8EB207E1)) (signed (defFuseBurn true) 8 [1, 0, 0, 0, 0, 0, 0, 0, 0, 0, 0, 0, 0, 0, 0, 0, 0, 0, 0, 0, 0, 0, 0, 0, 0, 0, 0, 0, 0, 0, 0, 0, 0, 0, 0, 0, 0, 0, 0, 0, 0, 0, 0, 0, 0, 0, 0, 0, 0] 0xCA5CC173CA5EC8B4E7B956A6EEE502AE090CC2ECB2ABE1E09C767642937D22D93CF24DEF4F3AB1401A8B98BD8EB207E1) (by decide +kernel) (by decide +kernel),
   does_s (up) 4 5 4 1 0 0 [2] (by decide +kernel) trivial,
   does_s (up) 4 6 4 0 0 0 [] (by decide +kernel) (by decide +kernel),
   does_s (up) 4 7 4 7 0 0 [131, 3, 168, 1, 0, 0, 0] (by decide +kernel) (by decide +kernel),
   does_s (up) 4 8 4 4 0 0 [255, 0, 0, 1] (by decide +kernel) trivial,
   does_s (up) 4 1 5 2 0 0 [16, 128] (by decide +kernel) trivial,
   does_s (up) 4 2 5 10 0 0 [3, 128, 81, 1, 0, 60, 64, 66, 15, 0] (by decide +kernel) (by decide +kernel),
   does_s (up) 4 3 5 0 0 0 [] (by decide +kernel) trivial,
   does_s (up) 4 1 6 3 0 0 [1, 17, 0] (by decide +kernel) trivial,
   does_s (up) 4 2 6 0 0 0 [] (by decide +kernel) trivial,
   does_s (up) 4 3 6 0 0 0 [] (by decide +kernel) (by decide +kernel),
   does_s ((idle1 ctx1).wr (Reg.RST_SUSP0 15) 1) 4 4 6 2 0 0 [15, 1] (by decide +kernel) (by decide +kernel),
   does_s (up.wr Reg.RST_QUAR 1) 4 5 6 0 0 0 [] (by decide +kernel) (by decide +kernel),
   does_s (up) 4 6 6 8 0 0 [7, 8, 1, 0, 160, 134, 1, 0] (by decide +kernel) (by decide +kernel)⟩

theorem witness_fabricCommands :
    Does defCoordSet (fun u _ _ _ => u.devState = stBringup ∧ u.rbit Reg.CMD_STRAPS 4 = false ∧ u.phase < 10) ∧
      Does defFabAddrSet (fun u _ _ _ => invOk u = true) ∧
      Does defRtWrite (fun u _ _ p => u.epochDue.bankOpen (rdLE p 0 1) = true) ∧
      Does defMcWrite (fun u _ _ p => u.epochDue.bankOpen (rdLE p 0 1) = true) ∧
      Does defEpochSwitch (fun u _ _ _ => u.rbit Reg.MGMT_PTP_CTL 0 = true ∧ u.rbit Reg.FAB_EPOCH 3 = false) ∧
      Does defPortCfg (fun _ _ _ _ => True) ∧
      Does defPortAct (fun u _ _ p => rdLE p 1 1 = 2 ∧ u.portSt (rdLE p 0 1) = 5) ∧
      Does defPortGwSet (fun _ _ _ _ => True) ∧
      Does defTopoGet (fun _ _ _ _ => True) ∧
      Does defDikeSet (fun u _ _ p => ∀ h, h < 32 → bitsOf (u.hctl h) 6 5 = rdLE p (4 + h) 1) ∧
      Does defWatchSet (fun _ _ _ _ => True) ∧
      Does defPeerClear (fun u _ _ p => u.peerClears (rdLE p 0 1) = true) ∧
      Does defShadowSet (fun u _ _ _ => u.anyResident = false) ∧
      Does defShadowPromote (fun u _ _ _ => u.rbit Reg.COLL_CTL 0 = true ∧ u.runCtx = 0) ∧
      Does defCollCfg (fun u _ _ _ => invOk u = true) ∧
      Does defWithdraw (fun u _ _ _ => u.devState ≠ stWithdrawn ∧ u.backNow = none) ∧
      Does defReturnService (fun u _ _ _ => u.devState = stWithdrawn) :=
  ⟨does_s ((boots 9 0 {}).wf Reg.CMD_STRAPS 4 4 0) 4 1 7 5 0 0 [0, 0, 3, 15, 0] (by decide +kernel) (by decide +kernel),
   does_s (up) 4 2 7 24 0 0 [0, 2, 0, 0, 6, 0, 0, 1, 0, 0, 0, 0, 0, 0, 0, 0, 0, 0, 0, 0, 0, 0, 0, 0] (by decide +kernel) (by decide +kernel),
   does_s (up) 4 3 7 9 0 0 [1, 255, 31, 1, 0, 0, 0, 0, 0] (by decide +kernel) (by decide +kernel),
   does_s (up) 4 4 7 13 0 0 [1, 255, 63, 1, 0, 0, 0, 0, 0, 0, 0, 0, 0] (by decide +kernel) (by decide +kernel),
   does_s ((up.wf Reg.MGMT_PTP_CTL 0 0 1).wf Reg.FAB_EPOCH 3 3 0) 4 5 7 12 0 0 [1, 2, 0, 0, 0, 0, 0, 0, 0, 0, 0, 0] (by decide +kernel) (by decide +kernel),
   does_s (up) 4 6 7 4 0 0 [15, 0, 0, 0] (by decide +kernel) trivial,
   does_s (up.wf (Reg.PORT_ST 15 1) 2 0 5) 4 7 7 2 0 0 [31, 2] (by decide +kernel) (by decide +kernel),
   does_s (up) 4 8 7 7 0 0 [31, 0, 0, 0, 0, 0, 0] (by decide +kernel) trivial,
   does_s (up) 4 9 7 0 0 0 [] (by decide +kernel) trivial,
   does_s (up) 4 10 7 36 0 0 [0, 0, 1, 0, 0, 0, 0, 0, 0, 0, 0, 0, 0, 0, 0, 0, 0, 0, 0, 0, 0, 0, 0, 0, 0, 0, 0, 0, 0, 0, 0, 0, 0, 0, 0, 0] (by decide +kernel) (by decide +kernel),
   does_s (up) 4 11 7 4 0 0 [63, 1, 0, 128] (by decide +kernel) trivial,
   does_s (up.wr (Reg.COLL_PEER 63) (3 * 2 ^ 30)) 4 12 7 1 0 0 [63] (by decide +kernel) (by decide +kernel),
   does_s (up) 4 13 7 0 0 0 [] (by decide +kernel) (by decide +kernel),
   does_of (asks (table1 0x1FC602312F96DDC04D1C5A4921041E5EFA94857CB997E232F0EAE9F9059C03B3DF00B13E8D7EF500BA98D5EF1459D4E0 0xC3603AC417A860DD39F00E101CE15CC1A479D2E768BFCDA7914E220C7EAC73CBC41235B66D6710D7C14E0C526F7F073B 4 1 (up.wf Reg.COLL_CTL 0 0 1)) (signed defShadowPromote 8 [0, 0, 0, 0, 0, 0, 0, 0] 0xE3C33D542EBFB38B39E3D41290E091E9E7E9207F1A395115D92362F7012F1ED7BAB75F8C051B2333DC6805C7BB90A023)) (signed defShadowPromote 8 [0, 0, 0, 0, 0, 0, 0, 0] 0xE3C33D542EBFB38B39E3D41290E091E9E7E9207F1A395115D92362F7012F1ED7BAB75F8C051B2333DC6805C7BB90A023) (by decide +kernel) (by decide +kernel),
   does_s (up) 4 15 7 22 0 0 [16, 39, 0, 0, 232, 3, 0, 0, 16, 39, 0, 0, 100, 0, 0, 0, 16, 0, 0, 0, 15, 1] (by decide +kernel) (by decide +kernel),
   does_of (asks (table1 0x1016B73A1130EA486089AEB6F3C522B8B9749B185E7872A24242C8485DDBD952C391E497448B724A201BDA57FF75BC6C 0x994BF44ED62ECA1CC4D9EF28F2F28A9562189EDF8586B4CB5AA08633C2197B898CB4AF163E66A740E2D1303AD5C258B0 4 3 (up)) (signed defWithdraw 8 [] 0x104ADE7DEDE64D558D64A940B0785E4A0035EE978748F460723D839B29785A8C724209331A7CA976B1C3C7AB32A580B7)) (signed defWithdraw 8 [] 0x104ADE7DEDE64D558D64A940B0785E4A0035EE978748F460723D839B29785A8C724209331A7CA976B1C3C7AB32A580B7) (by decide +kernel) (by decide +kernel),
   does_of (asks (table1 0xA22E23E6CA3535D6373504AC4E88D7B8D5626B2F049F6F6AC541B3AA8CBB34E52F6D9F0F67CB87B379CC5F55CB5847B9 0x71FEA7ABA803DF864BE56B02B0090857B1A140F1FAF408B984EB46D60B4EE100E67FDA32503A2243348047D207657EE8 4 2 (up.wf Reg.CMD_DEV_STATE 2 0 stWithdrawn)) (signed defReturnService 8 [] 0x786C48F91A95EB333F3DAE7BDC380407BBE8DDB824FB72161D5E3BE843FBB7D2041A74944D46B9A44230D9E1CB1ACC4E)) (signed defReturnService 8 [] 0x786C48F91A95EB333F3DAE7BDC380407BBE8DDB824FB72161D5E3BE843FBB7D2041A74944D46B9A44230D9E1CB1ACC4E) (by decide +kernel) (by decide +kernel)⟩

theorem witness_recordCommands :
    Does (defCkptSetup []) (fun u _ _ p => u.slotById (rdLE p 0 2) = some (1, ctx1) ∧ u.reelUses 0x11 = false ∧ (u.devRead .command (rdLE p 2 8) 512 []).2.1 = 0 ∧
        ckDescOk (u.devRead .command (rdLE p 2 8) 512 []).1 [] = true) ∧
      Does defCkptNow (fun u _ _ p => ∃ j, u.slotById (rdLE p 0 2) = some (1, j) ∧ j.ck ≠ none ∧ u.reel.ckpt = none) ∧
      Does defRestore (fun u _ _ p => u.rbit Reg.CMD_STRAPS 14 = false ∧ ∃ j, u.slotById (rdLE p 0 2) = some (1, j) ∧ j.started = false ∧ j.st = .ready ∧ j.ck ≠ none ∧
        u.reel.restore = none) ∧
      Does defReelCfg (fun _ _ _ _ => True) ∧
      Does defReelGet (fun _ _ _ _ => True) ∧
      Does defQuote (fun _ _ _ _ => True) ∧
      Does defMeasExtend (fun _ _ _ _ => True) ∧
      Does defSeal (fun u _ _ p => u.slotById (rdLE p 0 2) = some (1, ctx1) ∧ ctx1.seals.length < 255 ∧ sealOk [] (rdLE p 6 8) (rdLE p 14 8) = true) ∧
      Does defRecordCut (fun u _ _ p => ∃ j, u.slotById (rdLE p 0 2) = some (1, j) ∧ j.run ≠ none) ∧
      Does defRecordRead (fun u _ _ p => ∃ v, (u.recsOf (rdLE p 0 2)).bind (fun x => recordAt x (rdLE p 2 4)) = some v ∧ rdLE p 6 4 + rdLE p 10 2 ≤ v.bytes.length) ∧
      Does defRecordRelease (fun u _ _ p => (u.recsOf (rdLE p 0 2)).bind (fun x => recordAt x (rdLE p 2 4)) ≠ none) ∧
      Does defDetGet (fun _ _ _ _ => True) ∧
      Does defCalRead (fun u _ _ p => rdLE p 1 4 + rdLE p 5 2 ≤ ((u.calBytes (rdLE p 0 1)).getD []).length) ∧
      Does defCalWrite (fun u _ _ p => ∃ b, u.calBytes (rdLE p 0 1) = some b ∧ rdLE p 1 4 + (p.drop 5).length ≤ b.length) :=
  ⟨does_s (ready4) 4 1 8 10 0 0 [17, 0, 0, 0, 0, 0, 48, 0, 0, 0] (by decide +kernel) (by decide +kernel),
   does_s (idle1 { ctx1 with ck := some ⟨false, 0, [], []⟩ }) 4 2 8 2 0 0 [17, 0] (by decide +kernel) ⟨{ ctx1 with ck := some ⟨false, 0, [], []⟩ }, by decide +kernel⟩,
   does_s (idle1 { ctx1 with ck := some ⟨false, 0, [], []⟩ }) 4 3 8 13 0 0 [17, 0, 0, 0, 31, 0, 0, 0, 0, 0, 0, 0, 0] (by decide +kernel) ⟨by decide +kernel, { ctx1 with ck := some ⟨false, 0, [], []⟩ }, by decide +kernel⟩,
   does_s (up) 4 4 8 16 0 0 [0, 0, 0, 0, 10, 0, 0, 0, 10, 0, 0, 0, 10, 0, 0, 0] (by decide +kernel) trivial,
   does_s (up) 4 5 8 0 0 0 [] (by decide +kernel) trivial,
   does_of (asks (up) (pkt defQuote 0 [0, 0, 0, 0, 0, 0, 0, 0, 0, 0, 0, 0, 0, 0, 0, 0, 0, 0, 0, 0, 0, 0, 0, 0, 0, 0, 0, 0, 0, 0, 0, 0, 0, 0, 0, 0, 0, 0, 0, 0, 0, 0, 0, 0, 0, 0, 0, 0, 0, 0, 0, 0, 0, 0, 0, 0, 0, 0, 0, 0, 0, 0, 0, 0])) (pkt defQuote 0 [0, 0, 0, 0, 0, 0, 0, 0, 0, 0, 0, 0, 0, 0, 0, 0, 0, 0, 0, 0, 0, 0, 0, 0, 0, 0, 0, 0, 0, 0, 0, 0, 0, 0, 0, 0, 0, 0, 0, 0, 0, 0, 0, 0, 0, 0, 0, 0, 0, 0, 0, 0, 0, 0, 0, 0, 0, 0, 0, 0, 0, 0, 0, 0]) (by decide +kernel) trivial,
   does_s (up) 4 2 9 49 0 0 [7, 0, 0, 0, 0, 0, 0, 0, 0, 0, 0, 0, 0, 0, 0, 0, 0, 0, 0, 0, 0, 0, 0, 0, 0, 0, 0, 0, 0, 0, 0, 0, 0, 0, 0, 0, 0, 0, 0, 0, 0, 0, 0, 0, 0, 0, 0, 0, 0] (by decide +kernel) trivial,
   does_s (idle1 ctx1) 4 3 9 22 0 0 [17, 0, 9, 0, 0, 0, 0, 0, 0, 0, 0, 0, 0, 0, 0, 16, 0, 0, 0, 0, 0, 0] (by decide +kernel) (by decide +kernel),
   does_s (idle1 { ctx1 with run := some { first := 0, timeOk := true } }) 4 4 9 2 0 0 [17, 0] (by decide +kernel) ⟨{ ctx1 with run := some { first := 0, timeOk := true } }, by decide +kernel⟩,
   does_s (idle1 { ctx1 with recs := [{ off := 0, len := 8, bytes := [1, 2], signed := true }] }) 4 5 9 12 0 0 [17, 0, 0, 0, 0, 0, 0, 0, 0, 0, 2, 0] (by decide +kernel) ⟨{ off := 0, len := 8, bytes := [1, 2], signed := true }, by decide +kernel⟩,
   does_s (idle1 { ctx1 with recs := [{ off := 0, len := 8, bytes := [1, 2], signed := true }] }) 4 6 9 6 0 0 [17, 0, 0, 0, 0, 0] (by decide +kernel) (by decide +kernel),
   does_s (up) 4 7 9 0 0 0 [] (by decide +kernel) trivial,
   does_s (calS) 4 1 10 7 0 0 [0, 0, 0, 0, 0, 1, 0] (by decide +kernel) (by decide +kernel),
   does_s (calS) 6 2 10 6 0 0 [0, 0, 0, 0, 0, 9] (by decide +kernel) ⟨[0xFF, 0xFF], by decide +kernel⟩⟩

theorem witness_registerCommands :
    Does defLogRead (fun _ _ _ _ => True) ∧
      Does defTelemGet (fun _ _ _ _ => True) ∧
      Does defRegReadBasic (fun u _ _ p => (∀ a ∈ wordsFrom (rdLE p 0 8) (rdLE p 8 1), notBasic a = false) ∧ (u.cuardReads (rdLE p 8 1) (rdLE p 0 8)).1 ≠ none) ∧
      Does defCmdStatus (fun u _ t p => ((u.sess t.session).bind (fun x => x.done.find? (fun d => d.seq == rdLE p 0 4))) ≠ none) ∧
      Does defRegRead (fun u _ _ p => (u.cuardReads (rdLE p 8 2) (rdLE p 0 8)).1 ≠ none) ∧
      Does defRegWrite (fun u r t p => let as := wordsFrom (rdLE p 0 8) (rdLE p 8 2)
        (∀ a ∈ as, notWritable a = false) ∧ (u.cuardWrites { req := r, rep := t, p := p } (as.zipIdx.map (fun x => (x.1, rdLE p (10 + 4 * x.2) 4)))).1 = stOK) ∧
      Does defRegModify (fun u r t p => notWritable (rdLE p 0 8) = false ∧ ∃ v, (u.cuardRead (rdLE p 0 8)).1 = some v ∧
        ((u.cuardRead (rdLE p 0 8)).2.cuardWrite { req := r, rep := t, p := p } (rdLE p 0 8) ((v &&& (2 ^ 32 - 1 - rdLE p 8 4)) ||| (rdLE p 12 4 &&& rdLE p 8 4))).1 = stOK) :=
  ⟨does_of (asks (up) (pkt defLogRead 0 [0, 0, 0, 0, 127])) (pkt defLogRead 0 [0, 0, 0, 0, 127]) (by decide +kernel) trivial,
   does_of (asks (up) (pkt defTelemGet 0 [])) (pkt defTelemGet 0 []) (by decide +kernel) trivial,
   does_s (up) 4 3 11 9 0 0 [0, 1, 0, 7, 80, 0, 0, 0, 1] (by decide +kernel) (by decide +kernel),
   does_s (up) 4 4 11 4 0 0 [5, 0, 0, 0] (by decide +kernel) (by decide +kernel),
   does_s (up) 6 1 12 10 0 0 [0, 1, 0, 7, 80, 0, 0, 0, 1, 0] (by decide +kernel) (by decide +kernel),
   does_s (up) 6 2 12 14 0 0 [0, 1, 0, 7, 80, 0, 0, 0, 1, 0, 7, 0, 0, 0] (by decide +kernel) (by decide +kernel),
   does_s (up) 6 3 12 16 0 0 [0, 1, 0, 7, 80, 0, 0, 0, 1, 0, 0, 0, 1, 0, 0, 0] (by decide +kernel) ⟨by decide +kernel, 0, by decide +kernel⟩⟩

/-! ### The checks of a command, and what the step does around one. -/

/-- The command at the front of the queue is `r`, of opcode `d`, and may be looked at. -/
abbrev AtFront (d : CmdDef) (s : State) (r : Req) : Prop :=
  reqIs d.code r = true ∧ s.cuardUp = true ∧ s.cq.queue.head? = some r ∧ s.blocked = false

/-- `s` once the front command is taken. -/
def front (s : State) : State := { s with cq := { s.cq with queue := s.cq.queue.tail } }

/-- A CLK_PLAN_SET of `n` MHz with its HMAC, and the state that holds it, its Cuard side first as `c`. -/
def plan (n : Nat) : Req := pkt defClkPlanSet 4 (toLE 2 n)
def planS (c : Cq) (r : Req) : State := asks { up with cq := c } r

/-- The gate passes. -/
abbrev Passes (d : CmdDef) (s : State) (r : Req) : Prop := AtFront d s r ∧ (s.now - r.arrival).toNat ≤ s.rd Reg.CMD_QTMO ∧ headStatus r.bytes = 0 ∧ ((front s).gate d r).1 = 0

theorem witness_commandChecks :
    (∃ (d : CmdDef) (r : Req), reqIs d.code r = false) ∧ (∃ (d : CmdDef) (s : State) (r : Req), reqIs d.code r = true ∧ s.cuardUp = false) ∧
    (∃ (d : CmdDef) (s : State) (r : Req), reqIs d.code r = true ∧ s.cq.queue.contains r = true ∧ s.cq.queue.head? ≠ some r) ∧
    (∃ (d : CmdDef) (s : State) (r : Req), reqIs d.code r = true ∧ s.cq.queue.contains r = true ∧ s.cq.queue.head? = some r ∧ s.blocked = true) ∧
    (∃ (d : CmdDef) (s : State) (r : Req), reqIs d.code r = true ∧ s.cuardUp = true ∧ s.cq.queue = [] ∧ opcodes.contains d.code = true ∧ s.blocked = true) ∧
    (∃ (d : CmdDef) (s : State) (r : Req), AtFront d s r ∧ s.rd Reg.CMD_QTMO < (s.now - r.arrival).toNat) ∧
    (∃ (d : CmdDef) (s : State) (r : Req), AtFront d s r ∧ (s.now - r.arrival).toNat ≤ s.rd Reg.CMD_QTMO ∧ headStatus r.bytes ≠ 0) ∧
    (∃ (d : CmdDef) (s : State) (r : Req), AtFront d s r ∧ (s.now - r.arrival).toNat ≤ s.rd Reg.CMD_QTMO ∧ headStatus r.bytes = 0 ∧ ((front s).gate d r).1 ≠ 0) ∧
    (∃ (d : CmdDef) (s : State) (r : Req), Passes d s r ∧ (d.acc = .s ∨ d.acc = .e) ∧
      ((front s).gate d r).2.2.leaseStatus (d.res (pkParams r.bytes)) (pkLease r.bytes) ((front s).gate d r).2.1.key ≠ 0) ∧
    (∃ (d : CmdDef) (s : State) (r : Req), Passes d s r ∧ d.res (pkParams r.bytes) = none ∧ d.lease ((front s).gate d r).2.2 ((front s).gate d r).2.1 ≠ 0) ∧
    (∃ (d : CmdDef) (s : State) (r : Req), Passes d s r ∧ d.acc = .o ∧ d.lease ((front s).gate d r).2.2 ((front s).gate d r).2.1 = 0 ∧
      d.check ((front s).gate d r).2.2 (pkParams r.bytes) ≠ 0) ∧
    (∃ (d : CmdDef) (s : State) (r : Req) (m : Remember), Passes d s r ∧ ((front s).gate d r).2.2.meets d r ((front s).gate d r).2.1 = some m ∧ m.params = pkParams r.bytes) ∧
    (∃ (d : CmdDef) (s : State) (r : Req) (m : Remember), Passes d s r ∧ ((front s).gate d r).2.2.meets d r ((front s).gate d r).2.1 = some m ∧ m.params ≠ pkParams r.bytes) ∧
    (∃ (d : CmdDef) (s : State) (r : Req), Passes d s r ∧ ((front s).gate d r).2.2.resBusy (d.res (pkParams r.bytes)) = true) :=
  let m (n : Nat) : Remember := { session := 8, opcode := 0x0201, target := 0, params := toLE 2 n, arrival := 0, reply := [] }
  let held (first : Bool) : Wait := { wait5 .freq with first := first, res := some 0 }
  let ident : Req := pkt defIdentGet 0 []
  let long : Req := pkt defIdentGet 0 [0]
  let w : Req := pkt defLeaseRelease 4 []
  let q0 : Cq := { leases := [(0, some ⟨0, 5, 100⟩)] }
  ⟨⟨defStateGet, ident, by decide +kernel⟩, ⟨defIdentGet, { State.reset with off := true }, ident, by decide +kernel⟩,
   ⟨defIdentGet, { State.reset with cq := { queue := [w, ident] } }, ident, by decide +kernel⟩,
   ⟨defIdentGet, { State.reset with cq := { queue := [ident], waits := [held false] } }, ident, by decide +kernel⟩,
   ⟨defIdentGet, cqAt 0 { waits := [held false] }, ident, by decide +kernel⟩,
   ⟨defIdentGet, cqAt (State.reset.rd Reg.CMD_QTMO + 1) { queue := [ident] }, ident, by decide +kernel⟩,
   ⟨defIdentGet, cqAt 0 { queue := [{ ident with bytes := ident.bytes ++ [0] }] }, { ident with bytes := ident.bytes ++ [0] }, by decide +kernel⟩,
   ⟨defClkPlanSet, cqAt 0 { queue := [plan 300] }, plan 300, by decide +kernel⟩,
   ⟨defClkPlanSet, planS q0 (plan 300), plan 300, by decide +kernel⟩, ⟨defLeaseRelease, planS {} w, w, by decide +kernel⟩,
   ⟨defIdentGet, planS {} long, long, by decide +kernel⟩,
   ⟨defClkPlanSet, planS { memory := [m 300] } (plan 300), plan 300, m 300, by decide +kernel⟩, ⟨defClkPlanSet, planS { memory := [m 325] } (plan 300), plan 300, m 325, by decide +kernel⟩,
   ⟨defClkPlanSet, planS { waits := [held true] } (plan 300), plan 300, by decide +kernel⟩⟩

theorem witness_authentication :
    (∃ (s : State) (r : Req), s.sess (pkSess r.bytes) = none) ∧ (∃ (s : State) (r : Req) (x : Sess), s.sess (pkSess r.bytes) = some x ∧ x.active = false) ∧
    (∃ (s : State) (r : Req) (x : Sess), s.sess (pkSess r.bytes) = some x ∧ x.active = true ∧ x.port ≠ r.port) ∧
    (∃ (s : State) (r : Req) (x : Sess), s.sess (pkSess r.bytes) = some x ∧ x.active = true ∧ x.port = r.port ∧ hmac384 x.reqKey (pkCover r.bytes) ≠ (pkTail r.bytes).take 48) ∧
    (∃ (s : State) (r : Req) (x : Sess), s.sess (pkSess r.bytes) = some x ∧ x.active = true ∧ x.port = r.port ∧ hmac384 x.reqKey (pkCover r.bytes) = (pkTail r.bytes).take 48 ∧
      x.seen.contains (pkSeq r.bytes) = true) ∧
    (∃ (s : State) (r : Req) (x : Sess), s.sess (pkSess r.bytes) = some x ∧ x.active = true ∧ x.port = r.port ∧ hmac384 x.reqKey (pkCover r.bytes) = (pkTail r.bytes).take 48 ∧
      pkSeq r.bytes ≠ 0 ∧ x.seen.contains (pkSeq r.bytes) = false ∧ x.high < pkSeq r.bytes + 64) ∧
    (∃ (s : State) (d : CmdDef) (r : Req), s.sess (pkSess r.bytes) = none ∧ d.acc = .s) ∧ (∃ (s : State) (d : CmdDef) (r : Req), s.sess (pkSess r.bytes) = none ∧ d.acc = .o ∧ pkFlag r.bytes 2 = true) ∧
    (∃ (s : State) (d : CmdDef) (r : Req), s.sess (pkSess r.bytes) = none ∧ d.acc = .o ∧ pkFlag r.bytes 2 = false ∧ s.permits d.code = false) ∧
    (∃ (s : State) (d : CmdDef) (r : Req), s.sess (pkSess r.bytes) = none ∧ d.acc = .o ∧ pkFlag r.bytes 2 = false ∧ s.permits d.code = true ∧ pkFlag r.bytes 1 = false) ∧
    (∃ (s : State) (d : CmdDef) (r : Req), s.sess (pkSess r.bytes) = none ∧ d.acc = .o ∧ pkFlag r.bytes 2 = false ∧ s.permits d.code = true ∧ pkFlag r.bytes 1 = true) ∧
    (∃ (s : State) (d : CmdDef) (r : Req), s.sess (pkSess r.bytes) = none ∧ d.acc = .l ∧ r.port ≠ 1) ∧
    (∃ (s : State) (d : CmdDef) (r : Req), s.sess (pkSess r.bytes) = none ∧ d.acc = .l ∧ r.port = 1 ∧ s.permits d.code = true ∧ pkFlag r.bytes 1 = false) ∧
    (∃ (s : State) (d : CmdDef) (r : Req), s.sess (pkSess r.bytes) = none ∧ d.acc = .q ∧ pkFlag r.bytes 2 = false ∧ pkFlag r.bytes 1 = false ∧ s.permits d.code = true ∧ s.ktState ≠ 1) ∧
    (∃ (s : State) (d : CmdDef) (r : Req) (x : Sess), let g := s.authCheck r
      g.1 = none ∧ g.2.sess (pkSess r.bytes) = some x ∧ d.acc = .e ∧ pkFlag r.bytes 2 = true ∧ g.2.permits d.code = true ∧ pkFlag r.bytes 1 = false) ∧
    (∃ (s : State) (d : CmdDef) (r : Req) (x : Sess), let g := s.authCheck r
      g.1 = none ∧ g.2.sess (pkSess r.bytes) = some x ∧ d.acc = .e ∧ pkFlag r.bytes 2 = true ∧ g.2.permits d.code = true ∧ pkFlag r.bytes 1 = true ∧ x.expert = true) ∧
    (∃ s : State, s.leaseOf 3 = none) ∧ (∃ (s : State) (l : Lease), s.leaseOf 3 = some l ∧ 3 < 4 ∧ l.id = 5 ∧ l.key = 0) ∧
    (∃ (s : State) (l : Lease), s.leaseOf 3 = some l ∧ 3 < 4 ∧ l.id = 5 ∧ l.key ≠ 1) ∧ (∃ s : State, 6 ≠ 0 ∧ ∀ k l, k < 4 → s.leaseOf k = some l → l.id ≠ 6) ∧
    (∃ s : State, s.devState = stHalted) ∧ (∃ s : State, s.devState = stBringup) ∧ (∃ s : State, s.devState = stService) ∧ (∃ s : State, s.devState = stWithdrawn) :=
  let own : State := { State.reset with cq := { leases := [(3, some ⟨0, 5, 100⟩)] } }
  let x1 : Sess := { sess7 with high := 1, last := 0, seen := [1] }
  let bare : Req := pkt defClkPlanSet 0 []
  ⟨⟨State.reset, bare, by decide +kernel⟩, ⟨cqAt 0 { sessions := [{ sess7 with active := false }] }, bare, { sess7 with active := false }, by decide +kernel⟩,
   ⟨cqAt 0 { sessions := [sess7] }, { bare with port := 0 }, sess7, by decide +kernel⟩, ⟨cqAt 0 { sessions := [sess7] }, bare, sess7, by decide +kernel⟩,
   ⟨cqAt 0 { sessions := [x1] }, plan 300, x1, by decide +kernel⟩, ⟨cqAt 0 { sessions := [sess7] }, plan 300, sess7, by decide +kernel⟩,
   ⟨State.reset, defClkPlanSet, bare, by decide +kernel⟩, ⟨State.reset, defQuote, pkt defQuote 4 [], by decide +kernel⟩, ⟨State.reset, defQuote, pkt defQuote 0 [], by decide +kernel⟩,
   ⟨up, defQuote, pkt defQuote 0 [], by decide +kernel⟩, ⟨up, defQuote, pkt defQuote 2 [], by decide +kernel⟩, ⟨State.reset, defKeytabInit, { bare with port := 0 }, by decide +kernel⟩,
   ⟨up, defKeytabInit, bare, by decide +kernel⟩, ⟨up, defWithdraw, bare, by decide +kernel⟩, ⟨asks up (plan 300), defRegWrite, plan 300, x1, by decide +kernel⟩,
   ⟨asks up (pkt defRegWrite 6 []), defRegWrite, pkt defRegWrite 6 [], x1, by decide +kernel⟩, ⟨State.reset, by decide +kernel⟩, ⟨own, ⟨0, 5, 100⟩, by decide +kernel⟩,
   ⟨own, ⟨0, 5, 100⟩, by decide +kernel⟩, ⟨State.reset, by decide, fun k l _ h => nomatch h⟩, ⟨State.reset.wf Reg.CMD_DEV_STATE 2 0 stHalted, by decide +kernel⟩,
   ⟨State.reset.wf Reg.CMD_DEV_STATE 2 0 stBringup, by decide +kernel⟩, ⟨up, by decide +kernel⟩, ⟨State.reset.wf Reg.CMD_DEV_STATE 2 0 stWithdrawn, by decide +kernel⟩⟩

theorem witness_packetLength : ∃ (s : State) (r : Req), AtFront defIdentGet s r ∧ (s.now - r.arrival).toNat ≤ s.rd Reg.CMD_QTMO ∧ rdLE r.bytes 1 1 < 16 ∧ rdLE r.bytes 22 1 < 16 ∧
    rdLE r.bytes 23 9 = 0 ∧ rdLE r.bytes 20 2 = 0 :=
  ⟨cqAt 0 { queue := [pkt defIdentGet 0 []] }, pkt defIdentGet 0 [], by decide +kernel⟩

/-- With no permission of the state: whether the packet carries an HMAC or not. -/
theorem witness_quorum :
    (∃ (s : State) (r : Req), AtFront defWithdraw s r ∧ (s.now - r.arrival).toNat ≤ s.rd Reg.CMD_QTMO ∧ headStatus r.bytes = 0 ∧ pkFlag r.bytes 2 = false ∧ s.permits defWithdraw.code = false) ∧
    (∃ (s : State) (r : Req), AtFront defWithdraw s r ∧ (s.now - r.arrival).toNat ≤ s.rd Reg.CMD_QTMO ∧ headStatus r.bytes = 0 ∧ pkFlag r.bytes 2 = true ∧ ((front s).authCheck r).1 = none ∧
      ((front s).authCheck r).2.permits defWithdraw.code = false) :=
  ⟨⟨asks State.reset (pkt defWithdraw 0 []), pkt defWithdraw 0 [], by decide +kernel⟩, ⟨asks State.reset (pkt defWithdraw 4 []), pkt defWithdraw 4 [], by decide +kernel⟩⟩

theorem witness_withdrawal :
    (∃ s : State, invOk s = true ∧ s.booting 5 = true) ∧ (∃ s : State, invOk s = true ∧ s.devState ≠ stWithdrawn ∧ s.backNow = none) ∧
    (∃ s : State, invOk s = true ∧ s.backNow ≠ none) ∧ (∃ s : State, invOk s = true ∧ s.devState = stWithdrawn) :=
  ⟨⟨boots 5 0 {}, by decide +kernel⟩, ⟨up, by decide +kernel⟩, ⟨{ up with rst := { up.rst with back := some (up.now, []) } }, by decide +kernel⟩,
   ⟨up.wf Reg.CMD_DEV_STATE 2 0 stWithdrawn, by decide +kernel⟩⟩

/-- The statements about every step: an event where its log has room, a step of each kind, and an address of management DRAM. -/
theorem witness_steps :
    (∃ (s : State) (code unit : Nat), s.EventRoom code unit) ∧ mgmtLo + 0 < mgmtHi ∧ 80 < 81 ∧
    (∃ (s : State) (c : Instr), s.pending = [c]) ∧ (∃ s : State, s.pending = []) ∧
    (∃ s t : State, s.Inv ∧ step s = .next t ∧ t.wall = 1) ∧ (∃ (s t : State) (c : Instr), s.pending = [c] ∧ exec c s = .next t ∧ t.pending = [c]) :=
  ⟨⟨State.reset, 0x0210, devUnit, room_of (by decide +kernel)⟩, by decide, by decide, ⟨{ State.reset with pending := [.idle 3 false] }, .idle 3 false, rfl⟩, ⟨State.reset, rfl⟩,
   ⟨State.reset, State.reset.tick, inv_of (by decide +kernel), rfl, by decide +kernel⟩, ⟨{ State.reset with pending := [.pwrEnFall] }, _, .pwrEnFall, rfl, rfl, by decide +kernel⟩⟩

/-! ### Operands that are not their row's. -/

/-- The word is another row's operation; the unit is of another kind. -/
theorem test_illFormed_slotIs : Instr.wellFormed (.mac 3 0 (fld [(60, 2), (20, 1)])) = false ∧ Instr.wellFormed (.exp2 3 0 0) = false := by decide +kernel

/-- A reserved bit is set; the family of a sparse read is none R160 permits. -/
theorem test_illFormed_slotOk : Instr.wellFormed (.clear 3 0 (fld [(60, 3), (0, 1)])) = false ∧ Instr.wellFormed (.clear 3 0 (fld [(60, 3)])) = true := by decide +kernel

/-- Another sub-operation of COMP. -/
theorem test_illFormed_compIs : ∃ u w, Instr.wellFormed (.nz 3 u w) = true ∧ Instr.wellFormed (.pack 3 u w) = false := ⟨23, fld [(58, 10)], by decide +kernel⟩

/-- A packet of another opcode, a reply, and another version. -/
theorem test_illFormed_reqIs : Instr.wellFormed (.identGet (pkt defStateGet 0 [])) = false ∧ Instr.wellFormed (.identGet (pkt defIdentGet 1 [])) = false ∧
    Instr.wellFormed (.identGet { pkt defIdentGet 0 [] with bytes := 2 :: (pkt defIdentGet 0 []).bytes.tail }) = false ∧ Instr.wellFormed (.identGet (pkt defIdentGet 0 [])) = true := by decide +kernel

/-! ### Results the manual works out. -/

/-- spec/07_memory.md, Decoding a Polder Address. -/
theorem test_polderAddress : State.reset.loc 0x0D23456780 = .dram 61 0x091A2780 ∧ rowGroup 0x091A2780 = 2 ∧ unitId 8 (61 * 8 + 2) = 0x41EA := by decide +kernel

/-- spec/06_long_sequences.md, the rotary angle of one radian per position at position 3. -/
theorem test_rotaryAngle : (phaseLane 3 0x28BE60DB9391054A).1 = 0x40400000 := by decide +kernel

/-- spec/06_long_sequences.md, One Merge and Its Readout. -/
theorem test_merge : (mergePart 1 { m := 0x40000000, l := 0x41200000, o := [0x40800000] } { m := 0x40400000, l := 0x40C00000, o := [0x3FC00000] }).1 =
      { m := 0x40400000, l := 0x41300000, o := [0x40600000] } ∧
    (sfu32 .recip 0x41300000).1 = 0x3DBA2E8C ∧ (mul32 0x40600000 0x3DBA2E8C).1 = 0x3EA2E8BA := by decide +kernel

/-- spec/02_numerics.md, An Exact MX Dot Product: block 1 floors to −10 at LSB −20. -/
theorem test_mxBlock : (match mxBlockTerm (some (-17)) false [(.val (decodeF fE4M3 0xC0), ⟨.val (decodeF fE4M3 0x3A), some 0⟩), (.val (decodeF fE4M3 0x39), ⟨.val (decodeF fE4M3 0x39), some 0⟩)] with
    | .fin d => dyFloor d (-20)
    | _ => 0) = -10 := by decide +kernel

/-- spec/09_fabric.md, half-port F5a of device 3.15.7. -/
theorem test_macAddress : State.reset.macOf 0x07F3 10 = [0x0A, 0x4B, 0x00, 0x00, 0xFE, 0x6A] := by decide +kernel

/-- A step takes the front command, and the queue moves on. -/
theorem test_queueMoves : (match step { State.reset with pending := [.pwrEnFall, .idle 3 false] } with
    | .next t => t.pending
    | _ => []) = [.idle 3 false] := by decide +kernel

end Sys2Proof.Tests
end

section
/-! SUPPORT. Bits and fields of registers, the records of events, and one period of the reference. -/

namespace Sys2Proof.Machine

/-! ### Running a command. -/

/-- A command whose next state is known runs, once its frame and its effect are known. -/
theorem Runs.of_next {c : Instr} {s t : State} {l : List Area} {P : State → Prop} (e : exec c s = .next t) (hl : s.Alters t l)
    (hP : s.Inv → P t) : Runs c s l P := fun i => ⟨t, e, hl, hP i⟩

/-! ### Bits of register fields. -/

/-- The two parts that a field's replacement keeps, and the field between them. -/
theorem setBits_eq (w hi lo v : Nat) :
    setBits w hi lo v =
      2 ^ lo * (2 ^ (hi + 1 - lo) * (w / 2 ^ lo / 2 ^ (hi + 1 - lo)) + v % 2 ^ (hi + 1 - lo)) + w % 2 ^ lo := by
  unfold setBits bitsOf
  rw [Nat.shiftRight_eq_div_pow]
  generalize 2 ^ (hi + 1 - lo) = n
  generalize 2 ^ lo = m
  generalize v % n = x
  have h1 := Nat.div_add_mod w m
  have h2 := Nat.div_add_mod (w / m) n
  generalize w / m / n = q at *
  generalize w / m % n = r at *
  generalize w % m = p at *
  have h3 : w = m * (n * q + r) + p := by rw [h2, h1]
  have h4 : w = m * (n * q) + r * m + p := by rw [h3]; ring
  have h5 : w - r * m = m * (n * q) + p := by omega
  rw [h5]; ring

/-- A bit of a number with a field replaced. -/
theorem testBit_setBits {w hi lo v : Nat} (h : lo ≤ hi) (j : Nat) :
    (setBits w hi lo v).testBit j = if lo ≤ j ∧ j ≤ hi then v.testBit (j - lo) else w.testBit j := by
  rw [setBits_eq, Nat.testBit_two_pow_mul_add _ (Nat.mod_lt _ (Nat.two_pow_pos lo))]
  by_cases h1 : j < lo
  · have h2 : ¬(lo ≤ j ∧ j ≤ hi) := by omega
    simp [h1, h2]
  · rw [if_neg h1, Nat.testBit_two_pow_mul_add _ (Nat.mod_lt _ (Nat.two_pow_pos _))]
    by_cases h2 : j ≤ hi
    · have h3 : j - lo < hi + 1 - lo := by omega
      have h4 : lo ≤ j ∧ j ≤ hi := by omega
      simp [h3, h4]
    · have h3 : ¬(j - lo < hi + 1 - lo) := by omega
      have h4 : ¬(lo ≤ j ∧ j ≤ hi) := by omega
      have h5 : j - lo - (hi + 1 - lo) + (hi + 1 - lo) + lo = j := by omega
      rw [if_neg h3, if_neg h4, Nat.testBit_div_two_pow, Nat.testBit_div_two_pow, h5]

theorem testBit_bitsOf (w hi lo j : Nat) : (bitsOf w hi lo).testBit j = (decide (j < hi + 1 - lo) && w.testBit (lo + j)) := by
  unfold bitsOf
  rw [Nat.testBit_mod_two_pow, Nat.testBit_shiftRight]

theorem bitsOf_lt (w hi lo : Nat) : bitsOf w hi lo < 2 ^ (hi + 1 - lo) := Nat.mod_lt _ (Nat.two_pow_pos _)

/-- A field that does not meet the one replaced. -/
theorem bitsOf_setBits_disjoint {w hi lo v hi' lo' : Nat} (h : lo ≤ hi) (hd : hi' < lo ∨ hi < lo') :
    bitsOf (setBits w hi lo v) hi' lo' = bitsOf w hi' lo' := by
  refine Nat.eq_of_testBit_eq (fun j => ?_)
  rw [testBit_bitsOf, testBit_bitsOf, testBit_setBits h]
  by_cases hj : j < hi' + 1 - lo'
  · have : ¬(lo ≤ lo' + j ∧ lo' + j ≤ hi) := by omega
    rw [if_neg this]
  · simp [hj]

theorem setBits_lt {w hi lo v n : Nat} (h : lo ≤ hi) (hn : hi < n) (hw : w < 2 ^ n) : setBits w hi lo v < 2 ^ n := by
  refine Nat.lt_pow_two_of_testBit _ (fun j hj => ?_)
  have : ¬(lo ≤ j ∧ j ≤ hi) := by omega
  rw [testBit_setBits h, if_neg this, Nat.testBit_lt_two_pow (Nat.lt_of_lt_of_le hw (Nat.pow_le_pow_right (by omega) hj))]

/-! ### Fields of registers after a write. -/

section
variable {s : State} (h : twf 0 s.regs = true)
include h

theorem State.rd_wf_self {a hi lo v : Nat} (hl : lo ≤ hi) (hh : hi < 32) : (s.wf a hi lo v).rd a = setBits (s.rd a) hi lo v := by
  rw [State.rd_wf h, if_pos rfl, Nat.mod_eq_of_lt (setBits_lt hl hh (s.rd_lt a))]

theorem State.rf_wf_self {a hi lo v : Nat} (hl : lo ≤ hi) (hh : hi < 32) : (s.wf a hi lo v).rf a hi lo = v % 2 ^ (hi + 1 - lo) := by
  unfold State.rf
  rw [State.rd_wf_self h hl hh, bitsOf_setBits_self]

theorem State.rf_wf_disjoint {a hi lo v hi' lo' : Nat} (hl : lo ≤ hi) (hh : hi < 32) (hd : hi' < lo ∨ hi < lo') :
    (s.wf a hi lo v).rf a hi' lo' = s.rf a hi' lo' := by
  unfold State.rf
  rw [State.rd_wf_self h hl hh, bitsOf_setBits_disjoint hl hd]

theorem State.rbit_wf {a hi lo v : Nat} (hl : lo ≤ hi) (hh : hi < 32) (j : Nat) :
    (s.wf a hi lo v).rbit a j = if lo ≤ j ∧ j ≤ hi then v.testBit (j - lo) else s.rbit a j := by
  unfold State.rbit bitOf
  rw [State.rd_wf_self h hl hh, testBit_setBits hl]

end

/-! ### Event records. -/

/-- An event reported of a state that agrees with `s` on the tick, the running context and the records is recorded as of
`s`. -/
theorem State.event_recorded_of_same {s t : State} {code unit : Nat} (hr : s.EventRoom code unit) (hnow : t.now = s.now)
    (hctx : t.runCtx = s.runCtx) (hlog : t.log = s.log) (hnodes : t.nodes = s.nodes) (sev : Nat) (data : List (Nat × Nat × Nat)) :
    (t.event code unit sev data).Recorded (s.eventRec code unit sev data) := by
  have e : t.eventRec code unit sev data = s.eventRec code unit sev data := by
    unfold State.eventRec; rw [hnow, hctx]
  have hr' : t.EventRoom code unit := by
    unfold State.EventRoom at hr ⊢; rw [hlog, hnodes]; exact hr
  exact e ▸ State.event_recorded hr' sev data

/-- An event the command processor records itself changes no register (R43). -/
theorem State.event_regs_of_cuard {s : State} {code unit : Nat} (hn : nodeOf code unit = none) (sev : Nat)
    (data : List (Nat × Nat × Nat)) : (s.event code unit sev data).regs = s.regs := by
  unfold State.event State.eventCtx
  rw [hn]
  exact (State.toLog_keep ..).regs rfl

theorem State.runCtx_of_but {s t : State} {l : List Nat} (h : s.RegsBut t l) (hl : Reg.SKN_STATUS ∉ l) : t.runCtx = s.runCtx :=
  h.rf hl 31 16

/-- The record of an address error (R30). -/
theorem State.addrError_recorded (s : State) (a src dir late : Nat) (h : s.EventRoom 0x0210 devUnit) :
    (s.addrError a src dir late).Recorded (s.eventRec 0x0210 devUnit 2 [(16, 5, a), (21, 1, src), (22, 1, dir), (23, 1, late)]) :=
  State.event_recorded h _ _

theorem State.addrError_out (s : State) (a src dir late : Nat) : (s.addrError a src dir late).out = s.out :=
  (State.addrError_keep ..).out rfl

/-! ### One period of the reference (R11). -/

/-- What a reference tick does after the counter keeps the counter. -/
theorem State.refTick_now (s : State) : s.refTick.now = s.now + 1 := by
  have hk : Keep 2 { s with now := s.now + 1 } s.refTick := by
    unfold State.refTick
    exact Keep.via (State.dikeDone_keep _) rfl <| Keep.via (State.dogTick_keep _) rfl <| Keep.via (State.chanReports_keep _) rfl <|
      Keep.foldl (fun u h => (State.transmit_keep u h).mono rfl) <|
      Keep.via (State.aTick_keep _) rfl <| Keep.via (State.ptpTick_keep _) rfl <| Keep.refl _ _
  exact hk.now rfl

/-- A period of the reference counts the time since power-on, may begin start-up's first phase, and is a reference tick
unless the device is off or in chip-level reset. -/
theorem State.tick_cases (s : State) : ∃ u, Keep 0x3FFFFFFFB { s with wall := s.wall + 1 } u ∧
    s.tick = if s.off = true ∨ s.rst.chipHeld = true then u else u.refTick := by
  let x : State := { s with wall := s.wall + 1 }
  refine ⟨if x.booting 0 then x.wf Reg.CMD_DEV_STATE 27 24 1 else x, Keep.ite (State.wf_keep ..) (Keep.refl _ _), ?_⟩
  have hoff : (if x.booting 0 then x.wf Reg.CMD_DEV_STATE 27 24 1 else x).off = s.off := by split <;> rfl
  have hrst : (if x.booting 0 then x.wf Reg.CMD_DEV_STATE 27 24 1 else x).rst = s.rst := by split <;> rfl
  unfold State.tick
  dsimp only
  rw [hoff, hrst]
  simp only [Bool.or_eq_true]
  rfl

theorem State.tick_wall (s : State) : s.tick.wall = s.wall + 1 := by
  obtain ⟨u, hu, e⟩ := s.tick_cases
  rw [e]
  split
  · exact hu.wall rfl
  · exact ((State.refTick_keep u).wall rfl).trans (hu.wall rfl)

theorem State.tick_now (s : State) : s.tick.now = if s.off = true ∨ s.rst.chipHeld = true then s.now else s.now + 1 := by
  obtain ⟨u, hu, e⟩ := s.tick_cases
  have hn : u.now = s.now := hu.now rfl
  rw [e]
  split
  · exact hn
  · rw [u.refTick_now, hn]

/-- Settles O2: with no command waiting a step is `State.tick`, whose counters are known and whose frame holds the rest. -/
theorem stepIdleIsOneTick : Obligations.StepIdleIsOneTick := by
  intro s hp
  have hk := s.tick_keep
  refine ⟨s.tick, by unfold step; rw [hp], s.tick_wall, s.tick_now, hk.mem rfl, hk.poison rfl, hk.fuse rfl, ?_⟩
  exact (hk.pending rfl).trans hp

end Sys2Proof.Machine
end

section
/-! SUPPORT. The accesses of software to registers: reads, writes by a core, and registers with a row of their own. -/

namespace Sys2Proof.Machine

/-! ### Reads of registers by software (R30 to R33). -/

@[simp] theorem State.send_out (s : State) (m : Msg) : (s.send m).out = s.out ++ [m] := rfl

/-- The commands that read 32 bits of the register at `a`. -/
def readsReg (who : Who) (a : Nat) (c : Instr) : Prop :=
  c = .rcRead who a 4 ∨ c = .reg64LowRead who a 4 ∨ (c = .sknStatusRead who ∧ a = Reg.SKN_STATUS) ∨
    (c = .cmdDevStateRead who ∧ a = Reg.CMD_DEV_STATE) ∨ (c = .cmdLcpOutRead who ∧ a = Reg.CMD_LCP_OUT)

/-- All five are one read. -/
theorem exec_readsReg {who : Who} {a : Nat} {c : Instr} (h : readsReg who a c) (s : State) :
    exec c s = .next (s.softRead who a 4) := by
  rcases h with rfl | rfl | ⟨rfl, rfl⟩ | ⟨rfl, rfl⟩ | ⟨rfl, rfl⟩ <;> rfl

theorem exec_rcRead (who : Who) (a n : Nat) (s : State) : exec (.rcRead who a n) s = .next (s.softRead who a n) := rfl

theorem exec_reg64LowRead (who : Who) (a n : Nat) (s : State) : exec (.reg64LowRead who a n) s = .next (s.softRead who a n) := rfl

section
variable {s : State} {who : Who} {a n : Nat}

theorem State.softRead_bad (h : reaches who = false ∨ regMapped a = false ∨ n ≠ 4) : s.softRead who a n = s.badAccess who a 0 := by
  unfold State.softRead
  rw [if_pos]
  rcases h with h | h | h <;> simp [h]

variable (hw : reaches who = true) (hm : regMapped a = true)
include hw hm

theorem State.softRead_mapped : s.softRead who a 4 =
    if inDebug a then s.send (.value who a 0)
    else if s.domOn (regDomain a) then (s.regRead a).2.send (.value who a (s.regRead a).1)
    else (s.addrError (regBase + a) who.code 0 0).send (.value who a 0) := by
  unfold State.softRead
  cases s.domOn (regDomain a) <;> simp [hw, hm]

theorem State.softRead_debug (hd : inDebug a = true) : s.softRead who a 4 = s.send (.value who a 0) := by
  rw [State.softRead_mapped hw hm, if_pos hd]

theorem State.softRead_off (hd : inDebug a = false) (ho : s.domOn (regDomain a) = false) :
    s.softRead who a 4 = (s.addrError (regBase + a) who.code 0 0).send (.value who a 0) := by
  simp [State.softRead_mapped hw hm, hd, ho]

theorem State.softRead_on (hd : inDebug a = false) (ho : s.domOn (regDomain a) = true) :
    s.softRead who a 4 = (s.regRead a).2.send (.value who a (s.regRead a).1) := by
  simp [State.softRead_mapped hw hm, hd, ho]

end

theorem State.badAccess_recorded (s : State) (who : Who) (a dir : Nat) (h : s.EventRoom 0x0210 devUnit) :
    (s.badAccess who a dir).Recorded
      (s.eventRec 0x0210 devUnit 2 [(16, 5, regBase + a), (21, 1, who.code), (22, 1, dir), (23, 1, 0)]) :=
  (s.addrError_recorded _ _ _ _ h).keep (State.trapCore_keep ..) rfl

/-- A core that makes a bad access takes an exception (R30). -/
theorem State.badAccess_out_core (s : State) (h a dir : Nat) :
    (s.badAccess (.core h) a dir).out = s.out ++ [.trap h false (regBase + a)] := by
  unfold State.badAccess State.trapCore
  rw [State.send_out, State.addrError_out]

theorem State.badAccess_out_other (s : State) {who : Who} (hw : ∀ h, who ≠ .core h) (a dir : Nat) :
    (s.badAccess who a dir).out = s.out := by
  unfold State.badAccess State.trapCore
  split
  · exact absurd rfl (hw _)
  · exact s.addrError_out _ _ _ _

/-! ### What a read gives, latches and clears (R8, R32, R483). -/

theorem State.regRead_latched {s : State} {a : Nat} {w : Word} (h : tget none s.latch a = some w) :
    s.regRead a = (w.toNat, { s with latch := tset none s.latch a none }) := by
  unfold State.regRead; rw [h]

/-- The high words a read of the register at `a` latches (R32). -/
def State.latchHigh (s : State) (a : Nat) : State :=
  let x : State := if isLow a then { s with latch := tset none s.latch (a + 4) (some (BitVec.ofNat 32 (s.view (a + 4)))) } else s
  if a = Reg.MGMT_PTP_NOW_SLO then { x with latch := tset none x.latch (a + 8) (some (BitVec.ofNat 32 (x.view (a + 8)))) } else x

theorem State.latchHigh_low (s : State) {a : Nat} (hl : isLow a = true) :
    tget none (s.latchHigh a).latch (a + 4) = some (BitVec.ofNat 32 (s.view (a + 4))) := by
  have hx : tget none (tset none s.latch (a + 4) (some (BitVec.ofNat 32 (s.view (a + 4))))) (a + 4) =
      some (BitVec.ofNat 32 (s.view (a + 4))) := tget_tset_eq (by simp) _
  unfold State.latchHigh
  rw [if_pos hl]
  split
  · exact (tget_tset_ne (by omega) _).trans hx
  · exact hx

/-- What a read does after that leaves the latches alone. -/
theorem State.regRead_keep_latch {s : State} {a : Nat} (h : tget none s.latch a = none) : Keep 8 (s.latchHigh a) (s.regRead a).2 := by
  have hx : Keep 8 (s.latchHigh a) (((s.latchHigh a).clearFields a .rc).peakNow a) :=
    Keep.via (State.peakNow_keep ..) rfl <| Keep.via (State.clearFields_keep ..) rfl <| Keep.refl _ _
  have hirq := Keep.ite (c := a = Reg.SKN_STATUS) (Keep.via (State.clearIrq_keep _ 2) rfl hx)
    (Keep.ite (c := a = Reg.CMD_DEV_STATE) (Keep.via (State.clearIrq_keep _ 7) rfl hx) hx)
  unfold State.regRead
  rw [h]
  exact Keep.ite (Keep.via (State.takeReply_keep _) rfl hirq) hirq

/-- A read of a low word latches the high one (R32). -/
theorem State.regRead_latches {s : State} {a : Nat} (h : tget none s.latch a = none) (hl : isLow a = true) :
    tget none (s.regRead a).2.latch (a + 4) = some (BitVec.ofNat 32 (s.view (a + 4))) := by
  rw [(State.regRead_keep_latch h).latch rfl, s.latchHigh_low hl]

/-- The register is no low word of a counter, has no peak, and all its fields are read-only: reading it changes nothing but
what has a rule of its own. -/
def readsPlain (a : Nat) : Bool :=
  !isLow a && (regRow a).any (fun r => r.fields.all (fun f => f.acc == .ro)) &&
    !(a == Reg.MGMT_PTP_NOW_SLO || a == Reg.CMD_QUEUE || a == Reg.FAB_TRK || decide (0x2000000 ≤ a ∧ a < 0x3200000))

theorem foldl_eq_of_forall {α β : Type} {f : β → α → β} {l : List α} {b : β} (h : ∀ x ∈ l, f b x = b) : l.foldl f b = b := by
  induction l with
  | nil => rfl
  | cons x r ih =>
    rw [List.foldl_cons, h x List.mem_cons_self]
    exact ih (fun y hy => h y (List.mem_cons_of_mem _ hy))

/-- The rules of their own that reads of three registers have (R483, R517). -/
def State.readAction (s : State) (a : Nat) : State :=
  let x := if a = Reg.SKN_STATUS then s.clearIrq 2 else if a = Reg.CMD_DEV_STATE then s.clearIrq 7 else s
  if a = Reg.CMD_LCP_OUT then x.takeReply else x

theorem State.regRead_plain {s : State} {a : Nat} (h : tget none s.latch a = none) (hp : readsPlain a = true) :
    s.regRead a = (s.view a, s.readAction a) := by
  simp only [readsPlain, Bool.and_eq_true, Bool.not_eq_true', Bool.or_eq_false_iff, beq_eq_false_iff_ne, ne_eq,
    decide_eq_false_iff_not] at hp
  obtain ⟨⟨hlow, hrow⟩, ⟨⟨hptp, hq⟩, htrk⟩, hspn⟩ := hp
  obtain ⟨r, hr, hro⟩ : ∃ r, regRow a = some r ∧ ∀ f ∈ r.fields, f.acc = .ro := by
    cases e : regRow a with
    | none => rw [e] at hrow; cases hrow
    | some r => rw [e] at hrow; exact ⟨r, rfl, by simpa using hrow⟩
  have hclear : s.clearFields a .rc = s := by
    unfold State.clearFields
    rw [hr]
    exact foldl_eq_of_forall (fun f hf => by rw [hro f hf, if_neg (by decide)])
  have hpeak : s.peakNow a = s := by
    unfold State.peakNow
    rw [if_neg hq, if_neg htrk, if_neg hspn]
  have hhide : r.fields.foldl (fun v f => if f.acc = .wo then setBits v f.hi f.lo 0 else v) (s.view a) = s.view a :=
    foldl_eq_of_forall (fun f hf => by rw [hro f hf, if_neg (by decide)])
  unfold State.regRead State.readAction
  rw [h]
  simp only [hlow, hptp, hr, hclear, hpeak, hhide, Bool.false_eq_true, if_false]

/-- The registers whose reads act. -/
def actingRegs : List Nat := [Reg.SKN_STATUS, Reg.CMD_DEV_STATE, Reg.CMD_LCP_OUT]

theorem actingRegs_plain : ∀ a ∈ actingRegs, readsPlain a = true ∧ regMapped a = true ∧ inDebug a = false := by decide +kernel

/-! ### Writes of registers by a core (R30, R33, R482). -/

theorem exec_regWriteOther (h : Fin 8) (a n : Nat) (v : Word) (s : State) :
    exec (.regWriteOther h a v n) s = .next (s.softWrite h a n v.toNat) := rfl

section
variable {s : State} {h a n v : Nat}

theorem State.softWrite_bad (hb : regMapped a = false ∨ n ≠ 4) : s.softWrite h a n v = s.badAccess (.core h) a 1 := by
  unfold State.softWrite
  rw [if_pos]
  rcases hb with hb | hb <;> simp [hb]

variable (hm : regMapped a = true)
include hm

theorem State.softWrite_denied (hc : s.coreMay a = false) : s.softWrite h a 4 v =
    (s.sat Reg.MGMT_REGW_CNT 1).event 0x0A0C devUnit 1 [(16, 5, regBase + a), (21, 1, h)] := by
  simp [State.softWrite, hm, hc]

theorem State.softWrite_off (hc : s.coreMay a = true) (ho : s.domOn (regDomain a) = false) :
    s.softWrite h a 4 v = s.addrError (regBase + a) 2 1 0 := by
  simp [State.softWrite, hm, hc, ho]

theorem State.softWrite_on (hc : s.coreMay a = true) (ho : s.domOn (regDomain a) = true) :
    s.softWrite h a 4 v = s.writeReg a v := by
  simp [State.softWrite, hm, hc, ho]

end

/-! ### Registers with a row of their own. -/

theorem State.rowWrite_on {s : State} {a : Nat} (h : s.domOn (regDomain a) = true) (eff : State → State) :
    s.rowWrite a eff = eff s := by
  unfold State.rowWrite; rw [if_pos h]

theorem State.rowWrite_off {s : State} {a : Nat} (h : s.domOn (regDomain a) = false) (eff : State → State) :
    s.rowWrite a eff = s.addrError (0x5000000000 + a) 3 1 0 := by
  unfold State.rowWrite; rw [if_neg (by rw [h]; decide)]

theorem exec_mgmtCoreRunWrite (v : Word) (s : State) :
    exec (.mgmtCoreRunWrite v) s = .next (s.rowWrite Reg.MGMT_CORE_RUN (fun s => s.runCores v.toNat)) := rfl

theorem exec_mgmtPtpSetWrite (sec : BitVec 48) (ns : Word) (s : State) :
    exec (.mgmtPtpSetWrite sec ns) s = .next (s.rowWrite Reg.MGMT_PTP_SET_SLO (fun s =>
      ((s.wr Reg.MGMT_PTP_SET_SLO (sec.toNat % 2 ^ 32)).wr Reg.MGMT_PTP_SET_SHI (sec.toNat / 2 ^ 32)).ptpSet ns.toNat)) := rfl

theorem exec_ppsEvClear (s : State) :
    exec .ppsEvClear s = .next (s.rowWrite Reg.MGMT_PTP_CTL (fun s => (s.wf Reg.MGMT_PTP_CTL 2 2 0).clearIrq 6)) := rfl

theorem exec_spnNumFlagsWrite_refused {s : State} (h : s.runCtx ≠ 0) (ps : Fin 18) (v : Word) :
    exec (.spnNumFlagsWrite ps false v) s = .next (s.send (.refused (0x5000000000 + Reg.SPN_NUM_FLAGS ps) stBAD_STATE)) := by
  show (if _ then _ else _) = _
  rw [if_pos ⟨rfl, h⟩]; rfl

theorem exec_spnNumFlagsWrite {s : State} {expert : Bool} (h : expert = true ∨ s.runCtx = 0) (ps : Fin 18) (v : Word) :
    exec (.spnNumFlagsWrite ps expert v) s =
      .next (s.rowWrite (Reg.SPN_NUM_FLAGS ps) (fun s => s.fieldWrite (Reg.SPN_NUM_FLAGS ps) v.toNat)) := by
  show (if _ then _ else _) = _
  rw [if_neg]
  rintro ⟨he, hc⟩
  rcases h with h | h
  · rw [he] at h; cases h
  · exact hc h

/-! #### Flags that are cleared by writing 1 (R8, R72). -/

/-- The one-bit field `b` cleared by writing 1. -/
def flagField (b : Nat) : Field := ⟨b, b, .w1c, 0, []⟩

/-- What a write of `v` does to the fields at bits `bs`. -/
def State.clearFlags (s : State) (a v : Nat) (bs : List Nat) : State :=
  bs.foldl (fun s b => s.wf a b b (s.rf a b b - (s.rf a b b &&& bitsOf v b b))) s

theorem State.clearFlags_but (s : State) (a v : Nat) (bs : List Nat) : s.RegsBut (s.clearFlags a v bs) [a] :=
  State.RegsBut.foldl (fun _ _ _ => State.wf_but _ _ _ _ _) (State.RegsBut.refl _ _)

theorem testBit_zero_sub_and {p x : Nat} (hp : p < 2) (hx : x < 2) : (p - (p &&& x)).testBit 0 = (p.testBit 0 && !x.testBit 0) := by
  interval_cases p <;> interval_cases x <;> rfl

/-- A bit of a register whose field a write clears. -/
theorem State.rbit_clearFlag {s : State} (h : twf 0 s.regs = true) {a b v : Nat} (hb : b < 32) (j : Nat) :
    (s.wf a b b (s.rf a b b - (s.rf a b b &&& bitsOf v b b))).rbit a j =
      if j = b then s.rbit a j && !v.testBit j else s.rbit a j := by
  have h2 : b + 1 - b = 1 := by omega
  have hp : s.rf a b b < 2 := by have := bitsOf_lt (s.rd a) b b; rw [h2] at this; exact this
  have hx : bitsOf v b b < 2 := by have := bitsOf_lt v b b; rw [h2] at this; exact this
  rw [State.rbit_wf h (Nat.le_refl b) hb]
  by_cases hj : j = b
  · subst hj
    rw [if_pos ⟨Nat.le_refl _, Nat.le_refl _⟩, if_pos rfl, Nat.sub_self, testBit_zero_sub_and hp hx]
    unfold State.rf State.rbit bitOf
    rw [testBit_bitsOf, testBit_bitsOf, h2]
    simp
  · rw [if_neg (by omega), if_neg hj]

theorem State.rbit_clearFlags {a v : Nat} {bs : List Nat} (hbs : ∀ b ∈ bs, b < 32) (j : Nat) :
    ∀ {s : State}, twf 0 s.regs = true →
      (s.clearFlags a v bs).rbit a j = if j ∈ bs then s.rbit a j && !v.testBit j else s.rbit a j := by
  induction bs with
  | nil => intro s _; rfl
  | cons b r ih =>
    intro s h
    have e : s.clearFlags a v (b :: r) = (s.wf a b b (s.rf a b b - (s.rf a b b &&& bitsOf v b b))).clearFlags a v r := rfl
    rw [e, ih (fun c hc => hbs c (List.mem_cons_of_mem _ hc)) (State.regs_wf h), State.rbit_clearFlag h (hbs b List.mem_cons_self)]
    by_cases hj : j = b <;> by_cases hr : j ∈ r <;> simp [hj, hr]

/-- A register of such flags takes a write of them. -/
theorem State.fieldWrite_flags {s : State} {a v : Nat} {r : RegRow} {bs : List Nat} (hr : regRow a = some r)
    (hf : r.fields = bs.map flagField) (ho : s.writeOk a v = true) : s.fieldWrite a v = s.clearFlags a v bs := by
  unfold State.fieldWrite State.clearFlags
  rw [hr]
  simp only [ho, hf, List.foldl_map, Bool.true_eq_false, if_false]
  rfl

/-- SPN_NUM_FLAGS is seven such flags (R71). -/
theorem regRow_spnNumFlags (ps : Fin 18) :
    ∃ r, regRow (Reg.SPN_NUM_FLAGS ps) = some r ∧ r.fields = [6, 5, 4, 3, 2, 1, 0].map flagField := by
  have h : ∀ ps : Fin 18, (regRow (Reg.SPN_NUM_FLAGS ps)).map RegRow.fields = some ([6, 5, 4, 3, 2, 1, 0].map flagField) := by
    decide +kernel
  exact Option.map_eq_some_iff.mp (h ps)

theorem State.writeOk_spnNumFlags (s : State) (ps : Fin 18) (v : Nat) : s.writeOk (Reg.SPN_NUM_FLAGS ps) v = true := by
  have h : ∀ ps : Fin 18, ∀ a ∈ [Reg.RST_STALL_HANG, Reg.REEL_IVL_MIN, Reg.REEL_IVL_MAX, Reg.REEL_DRAIN_TMO, Reg.SKN_QUANTUM,
      Reg.PWR_CAP, Reg.CLK_PLAN, Reg.FAB_COORD, Reg.MGMT_PTP_INCR], Reg.SPN_NUM_FLAGS ps ≠ a := by decide +kernel
  have h := h ps
  simp only [List.forall_mem_cons] at h
  unfold State.writeOk
  simp [h]

theorem State.fieldWrite_spnNumFlags (s : State) (ps : Fin 18) (v : Nat) :
    s.fieldWrite (Reg.SPN_NUM_FLAGS ps) v = s.clearFlags (Reg.SPN_NUM_FLAGS ps) v [6, 5, 4, 3, 2, 1, 0] := by
  obtain ⟨r, hr, hf⟩ := regRow_spnNumFlags ps
  exact State.fieldWrite_flags hr hf (s.writeOk_spnNumFlags ps v)

/-! #### The PTP clock (R491). -/

/-- A scheduled epoch switch is judged only where there is one. -/
theorem State.epochDue_none {s : State} (h : s.fab.epoch = none) : s.epochDue = s := by
  unfold State.epochDue; rw [h]

/-- The PTP clock set to a time in seconds, low and high, and nanoseconds. -/
def State.ptpAt (s : State) (lo hi ns : Nat) : State :=
  let x := ((s.wr Reg.MGMT_PTP_NOW_SLO lo).wf Reg.MGMT_PTP_NOW_SHI 15 0 hi).wr Reg.MGMT_PTP_NOW_NS ns
  ({ x with mgmt := { x.mgmt with ptpFrac := 0 } } : State).wf Reg.MGMT_PTP_CTL 0 0 1

theorem State.ptpSet_late {s : State} {ns : Nat} (h : 1000000000 ≤ ns) : s.ptpSet ns = s := by
  unfold State.ptpSet; rw [if_pos h]

/-- The clock is stepped, and the step recorded. -/
theorem State.ptpSet_steps {s : State} {ns : Nat} (h : ns < 1000000000) (he : s.fab.epoch = none) :
    s.ptpSet ns = (s.ptpAt (s.rd Reg.MGMT_PTP_SET_SLO) (s.rf Reg.MGMT_PTP_SET_SHI 15 0) ns).event 0x0A0F devUnit 0
      [(16, 6, s.rd Reg.MGMT_PTP_SET_SLO + s.rf Reg.MGMT_PTP_SET_SHI 15 0 * 2 ^ 32)] := by
  unfold State.ptpSet
  rw [if_neg (by omega)]
  refine State.epochDue_none ?_
  rw [(State.event_keep ..).fab rfl]
  exact he

theorem State.ptpAt_keep (s : State) (lo hi ns : Nat) : Keep 0x3BFFFFFFB s (s.ptpAt lo hi ns) :=
  Keep.via (State.wf_keep ..) rfl <| Keep.setMgmt rfl <| Keep.via (State.wr_keep ..) rfl <| Keep.via (State.wf_keep ..) rfl <|
    Keep.via (State.wr_keep ..) rfl <| Keep.refl _ _

/-- The registers that show the time. -/
def ptpNowRegs : List Nat := [Reg.MGMT_PTP_NOW_SLO, Reg.MGMT_PTP_NOW_SHI, Reg.MGMT_PTP_NOW_NS, Reg.MGMT_PTP_CTL]

theorem State.ptpAt_but (s : State) (lo hi ns : Nat) : s.RegsBut (s.ptpAt lo hi ns) ptpNowRegs :=
  ((((s.wr_but Reg.MGMT_PTP_NOW_SLO _).of_one (by decide)).trans ((State.wf_but _ Reg.MGMT_PTP_NOW_SHI _ _ _).of_one (by decide))).trans
    ((State.wr_but _ Reg.MGMT_PTP_NOW_NS _).of_one (by decide))).trans
    (State.RegsBut.trans (State.RegsBut.of_regs rfl _) ((State.wf_but _ Reg.MGMT_PTP_CTL _ _ _).of_one (by decide)))

/-- The time the clock then shows. -/
theorem State.ptpAt_shows {s : State} (h : twf 0 s.regs = true) {lo hi ns : Nat} (hlo : lo < 2 ^ 32) (hhi : hi < 2 ^ 16)
    (hns : ns < 2 ^ 32) :
    (s.ptpAt lo hi ns).rd Reg.MGMT_PTP_NOW_SLO = lo ∧ (s.ptpAt lo hi ns).rf Reg.MGMT_PTP_NOW_SHI 15 0 = hi ∧
      (s.ptpAt lo hi ns).rd Reg.MGMT_PTP_NOW_NS = ns ∧ (s.ptpAt lo hi ns).rbit Reg.MGMT_PTP_CTL 0 = true := by
  let x := s.wr Reg.MGMT_PTP_NOW_SLO lo
  let y := x.wf Reg.MGMT_PTP_NOW_SHI 15 0 hi
  let z := y.wr Reg.MGMT_PTP_NOW_NS ns
  let u : State := { z with mgmt := { z.mgmt with ptpFrac := 0 } }
  have hx : twf 0 x.regs = true := State.regs_wr h
  have hy : twf 0 y.regs = true := State.regs_wf hx
  have hu : twf 0 u.regs = true := State.regs_wr (s := y) hy
  have hlast : ∀ a, a ≠ Reg.MGMT_PTP_CTL → (s.ptpAt lo hi ns).rd a = z.rd a := fun a ha => State.rd_wf_ne (s := u) hu 0 0 1 ha
  refine ⟨?_, ?_, ?_, ?_⟩
  · rw [hlast _ (by decide), State.rd_wr_ne hy _ (by decide), State.rd_wf_ne hx _ _ _ (by decide), State.rd_wr_self h,
      Nat.mod_eq_of_lt hlo]
  · have e : (s.ptpAt lo hi ns).rf Reg.MGMT_PTP_NOW_SHI 15 0 = y.rf Reg.MGMT_PTP_NOW_SHI 15 0 := by
      unfold State.rf; rw [hlast _ (by decide), State.rd_wr_ne hy _ (by decide)]
    rw [e, State.rf_wf_self hx (by decide) (by decide)]
    exact Nat.mod_eq_of_lt hhi
  · rw [hlast _ (by decide), State.rd_wr_self hy, Nat.mod_eq_of_lt hns]
  · exact State.rbit_wf (s := u) hu (by decide) (by decide) 0

end Sys2Proof.Machine
end

section
/-! SUPPORT. The register rows (R8, R9, R30 to R34, R72, R478 to R483, R491), each command from its rule. -/

namespace Sys2Proof.Machine

/-! ### Reads and writes. -/

section
variable {s : State} {who : Who} {a : Nat} {c : Instr} (hc : readsReg who a c)
include hc

theorem exec_read_bad (h : reaches who = false ∨ regMapped a = false) : exec c s = .next (s.badAccess who a 0) := by
  rw [exec_readsReg hc, State.softRead_bad (h.imp_right .inl)]

variable (hw : reaches who = true) (hm : regMapped a = true)
include hw hm

theorem runs_read_debug (hd : inDebug a = true) : Runs c s [.out] (fun t => t.out = s.out ++ [.value who a 0]) := by
  refine Runs.of_next (exec_readsReg hc s) ?_ ?_ <;> rw [State.softRead_debug hw hm hd]
  · exact (State.send_keep ..).alters _ (by decide)
  · exact fun _ => rfl

theorem runs_read_off (hd : inDebug a = false) (ho : s.domOn (regDomain a) = false) :
    Runs c s [.regs, .out, .log, .nodes, .irq, .logN] (fun t => t.out = s.out ++ [.value who a 0] ∧
      (s.EventRoom 0x0210 devUnit →
        t.Recorded (s.eventRec 0x0210 devUnit 2 [(16, 5, regBase + a), (21, 1, who.code), (22, 1, 0), (23, 1, 0)]))) := by
  refine Runs.of_next (exec_readsReg hc s) ?_ ?_ <;> rw [State.softRead_off hw hm hd ho]
  · exact (Keep.via (m := 0x3EFFDFCBB) (State.send_keep ..) rfl <| Keep.via (State.addrError_keep ..) rfl <| Keep.refl _ _).alters _
      (by decide)
  · refine fun _ => ⟨?_, fun hr => (s.addrError_recorded _ _ _ _ hr).keep (State.send_keep ..) rfl⟩
    rw [State.send_out, State.addrError_out]

variable (hd : inDebug a = false) (ho : s.domOn (regDomain a) = true)
include hd ho

theorem exec_read_on : exec c s = .next ((s.regRead a).2.send (.value who a (s.regRead a).1)) := by
  rw [exec_readsReg hc, State.softRead_on hw hm hd ho]

theorem runs_read_latched {w : Word} (hl : tget none s.latch a = some w) :
    Runs c s [.latch, .out] (fun t => t.out = s.out ++ [.value who a w.toNat] ∧ tget none t.latch a = none) := by
  refine Runs.of_next (exec_read_on hc hw hm hd ho) ?_ ?_ <;> rw [State.regRead_latched hl]
  · exact (Keep.via (m := 0x3FFFFFFB7) (State.send_keep ..) rfl <| Keep.setLatch rfl twf_tset <| Keep.refl _ _).alters _ (by decide)
  · exact fun i => ⟨rfl, tget_tset_self i.latch⟩

theorem runs_read_low (hl : tget none s.latch a = none) (hlow : isLow a = true) :
    Runs c s [.regs, .latch, .out, .log, .nodes, .irq, .logN, .cq] (fun t =>
      tget none t.latch (a + 4) = some (BitVec.ofNat 32 (s.view (a + 4)))) :=
  Runs.of_next (exec_read_on hc hw hm hd ho)
    ((Keep.via (m := 0x3CFFDFCB3) (State.send_keep ..) rfl <| Keep.via (State.regRead_keep ..) rfl <| Keep.refl _ _).alters _ (by decide))
    (fun _ => State.regRead_latches hl hlow)

end

/-- A read of a register whose reads act. -/
theorem exec_read_acting {s : State} {who : Who} {a : Nat} {c : Instr} (hc : readsReg who a c) (ha : a ∈ actingRegs)
    (hw : reaches who = true) (ho : s.domOn (regDomain a) = true) (hl : tget none s.latch a = none) :
    exec c s = .next ((s.readAction a).send (.value who a (s.view a))) := by
  obtain ⟨hp, hm, hd⟩ := actingRegs_plain a ha
  rw [exec_read_on hc hw hm hd ho, State.regRead_plain hl hp]

section
variable {s : State} {who : Who} (hw : reaches who = true)
include hw

/-- A read of SKN_STATUS clears interrupt source 2 (R483). -/
theorem runs_sknStatusRead (ho : s.domOn 22 = true) (hl : tget none s.latch Reg.SKN_STATUS = none) :
    Runs (.sknStatusRead who) s [.regs, .out, .irq] (fun t =>
      t.irq = s.irq &&& ~~~(4#8) ∧ t.out = s.out ++ [.value who Reg.SKN_STATUS (s.view Reg.SKN_STATUS)]) :=
  Runs.of_next (exec_read_acting (.inr (.inr (.inl ⟨rfl, rfl⟩))) (by decide) hw ho hl)
    ((Keep.via (m := 0x3FFFDFFBF) (State.send_keep ..) rfl ((State.clearIrq_keep s 2).mono rfl)).alters _ (by decide))
    (fun _ => ⟨rfl, rfl⟩)

/-- A read of CMD_DEV_STATE clears interrupt source 7 (R483). -/
theorem runs_cmdDevStateRead (ho : s.domOn 0 = true) (hl : tget none s.latch Reg.CMD_DEV_STATE = none) :
    Runs (.cmdDevStateRead who) s [.regs, .out, .irq] (fun t =>
      t.irq = s.irq &&& ~~~(128#8) ∧ t.out = s.out ++ [.value who Reg.CMD_DEV_STATE (s.view Reg.CMD_DEV_STATE)]) :=
  Runs.of_next (exec_read_acting (.inr (.inr (.inr (.inl ⟨rfl, rfl⟩)))) (by decide) hw ho hl)
    ((Keep.via (m := 0x3FFFDFFBF) (State.send_keep ..) rfl ((State.clearIrq_keep s 7).mono rfl)).alters _ (by decide))
    (fun _ => ⟨rfl, rfl⟩)

/-- A read of CMD_LCP_OUT answers the next word of the oldest reply and takes it (R517). -/
theorem exec_cmdLcpOutRead (ho : s.domOn 0 = true) (hl : tget none s.latch Reg.CMD_LCP_OUT = none) {w : Word} {q : List Word}
    {rest : List (List Word)} (hq : s.cq.replies = (w :: q) :: rest) :
    exec (.cmdLcpOutRead who) s = .next (s.takeReply.send (.value who Reg.CMD_LCP_OUT w.toNat)) := by
  have hv : s.view Reg.CMD_LCP_OUT = w.toNat := by
    show ((s.cq.replies.headD []).headD 0).toNat = _
    rw [hq]; rfl
  rw [exec_read_acting (.inr (.inr (.inr (.inr ⟨rfl, rfl⟩)))) (by decide) hw ho hl, hv]
  rfl

theorem runs_cmdLcpOutRead (ho : s.domOn 0 = true) (hl : tget none s.latch Reg.CMD_LCP_OUT = none) {w v : Word} {q : List Word}
    {rest : List (List Word)} (hq : s.cq.replies = (w :: v :: q) :: rest) :
    Runs (.cmdLcpOutRead who) s [.regs, .out, .cq] (fun t => t.out = s.out ++ [.value who Reg.CMD_LCP_OUT w.toNat] ∧
      t.cq = { s.cq with replies := (v :: q) :: rest }) := by
  have e : s.takeReply = { s with cq := { s.cq with replies := (v :: q) :: rest } } := by
    unfold State.takeReply; rw [hq]; rfl
  refine Runs.of_next (exec_cmdLcpOutRead hw ho hl hq) ?_ ?_ <;> rw [e]
  · have hb : s.cq.Bounded → ({ s.cq with replies := (v :: q) :: rest } : Cq).Bounded :=
      fun h => ⟨h.1, by have := h.2; rw [hq] at this; exact this⟩
    exact (Keep.via (m := 0x3DFFFFFBF) (State.send_keep ..) rfl <| Keep.setCq rfl hb <| Keep.refl _ _).alters _ (by decide)
  · exact fun _ => ⟨rfl, rfl⟩

/-- The last word of the last reply clears interrupt source 3 (R483). -/
theorem runs_cmdLcpOutRead_last (ho : s.domOn 0 = true) (hl : tget none s.latch Reg.CMD_LCP_OUT = none) {w : Word}
    (hq : s.cq.replies = [[w]]) :
    Runs (.cmdLcpOutRead who) s [.regs, .out, .irq, .cq] (fun t => t.out = s.out ++ [.value who Reg.CMD_LCP_OUT w.toNat] ∧
      t.cq = { s.cq with replies := [] } ∧ t.irq = s.irq &&& ~~~(8#8)) := by
  have e : s.takeReply = ({ s with cq := { s.cq with replies := [] } } : State).clearIrq 3 := by
    unfold State.takeReply; rw [hq]; rfl
  refine Runs.of_next (exec_cmdLcpOutRead hw ho hl hq) ?_ ?_
  · exact (Keep.via (m := 0x3DFFDFFBF) (State.send_keep ..) rfl ((State.takeReply_keep s).mono rfl)).alters _ (by decide)
  · rw [e]; exact fun _ => ⟨rfl, rfl, rfl⟩

end

/-- A write a core may not make is counted and reported, and writes nothing (R482). -/
theorem runs_regWriteOther_denied {s : State} {a : Nat} (h : Fin 8) (v : Word) (hm : regMapped a = true) (hc : s.coreMay a = false) :
    Runs (.regWriteOther h a v 4) s [.regs, .log, .nodes, .irq, .logN] (fun t =>
      t.rd Reg.MGMT_REGW_CNT = min (s.rd Reg.MGMT_REGW_CNT + 1) 0xFFFFFFFF ∧
      (s.EventRoom 0x0A0C devUnit → t.Recorded (s.eventRec 0x0A0C devUnit 1 [(16, 5, regBase + a), (21, 1, h)]))) := by
  refine Runs.of_next (exec_regWriteOther h a 4 v s) ?_ ?_ <;> rw [State.softWrite_denied hm hc]
  · exact (Keep.via (m := 0x3EFFDFCFB) (State.event_keep ..) rfl ((State.sat_keep ..).mono rfl)).alters _ (by decide)
  · refine fun i => ⟨?_, fun hr => ?_⟩
    · rw [State.rd_congr (State.event_regs_of_cuard (by decide) _ _), State.rd_sat_self i.regs]; rfl
    · exact State.event_recorded_of_same (t := s.sat Reg.MGMT_REGW_CNT 1) hr rfl
        (State.runCtx_of_but (s.sat_but Reg.MGMT_REGW_CNT 1) (by decide)) rfl rfl _ _

theorem runs_regWriteOther_off {s : State} {a : Nat} (h : Fin 8) (v : Word) (hm : regMapped a = true) (hc : s.coreMay a = true)
    (ho : s.domOn (regDomain a) = false) :
    Runs (.regWriteOther h a v 4) s [.regs, .log, .nodes, .irq, .logN] (fun t => s.EventRoom 0x0210 devUnit →
      t.Recorded (s.eventRec 0x0210 devUnit 2 [(16, 5, regBase + a), (21, 1, 2), (22, 1, 1), (23, 1, 0)])) := by
  refine Runs.of_next (exec_regWriteOther h a 4 v s) ?_ ?_ <;> rw [State.softWrite_off hm hc ho]
  · exact (State.addrError_keep ..).alters _ (by decide)
  · exact fun _ => s.addrError_recorded _ _ _ _

/-- A spindle does not reach the register space (R31). -/
theorem runs_rcRead_spindle (s : State) (ps a : Nat) :
    Runs (.rcRead (.spindle ps) a 4) s [.regs, .log, .nodes, .irq, .logN] (fun t => s.EventRoom 0x0210 devUnit →
      t.Recorded (s.eventRec 0x0210 devUnit 2 [(16, 5, regBase + a), (21, 1, 0), (22, 1, 0), (23, 1, 0)])) := by
  refine Runs.of_next (exec_read_bad (.inl rfl) (.inl rfl)) ?_ (fun _ => s.badAccess_recorded (.spindle ps) a 0)
  exact (State.addrError_keep s (regBase + a) 0 0 0).alters _ (by decide)

theorem runs_regAccessTimeout_read (s : State) (who : Who) (a : Nat) :
    Runs (.regAccessTimeout who a false) s [.regs, .out, .log, .nodes, .irq, .logN] (fun t => t.out = s.out ++ [.value who a 0] ∧
      (s.EventRoom 0x0210 devUnit →
        t.Recorded (s.eventRec 0x0210 devUnit 2 [(16, 5, regBase + a), (21, 1, who.code), (22, 1, 0), (23, 1, 1)]))) := by
  refine Runs.of_next (t := (s.addrError (regBase + a) who.code 0 1).send (.value who a 0)) rfl ?_ (fun _ => ⟨?_, fun hr => ?_⟩)
  · exact (Keep.via (m := 0x3EFFDFCBB) (State.send_keep ..) rfl ((State.addrError_keep ..).mono rfl)).alters _ (by decide)
  · rw [State.send_out, State.addrError_out]
  · exact (s.addrError_recorded _ _ _ _ hr).keep (State.send_keep ..) rfl

theorem runs_regAccessTimeout_write (s : State) (who : Who) (a : Nat) :
    Runs (.regAccessTimeout who a true) s [.regs, .log, .nodes, .irq, .logN] (fun t => s.EventRoom 0x0210 devUnit →
      t.Recorded (s.eventRec 0x0210 devUnit 2 [(16, 5, regBase + a), (21, 1, who.code), (22, 1, 1), (23, 1, 1)])) :=
  Runs.of_next (t := s.addrError (regBase + a) who.code 1 1) rfl ((State.addrError_keep ..).alters _ (by decide))
    (fun _ => s.addrError_recorded _ _ _ _)

/-- A flag written 1 is cleared, the others and every other register stay (R72). -/
theorem runs_spnNumFlagsWrite {s : State} {expert : Bool} (h : expert = true ∨ s.runCtx = 0) {ps : Fin 18}
    (ho : s.domOn (regDomain (Reg.SPN_NUM_FLAGS ps)) = true) (v : Word) :
    Runs (.spnNumFlagsWrite ps expert v) s [.regs] (fun t => s.RegsBut t [Reg.SPN_NUM_FLAGS ps] ∧
      ∀ b, b < 7 → t.rbit (Reg.SPN_NUM_FLAGS ps) b = (s.rbit (Reg.SPN_NUM_FLAGS ps) b && !v.toNat.testBit b)) := by
  refine Runs.of_next (exec_spnNumFlagsWrite h ps v) ?_ ?_ <;> rw [State.rowWrite_on ho]
  · exact (State.fieldWrite_keep ..).alters _ (by decide)
  · rw [State.fieldWrite_spnNumFlags]
    refine fun i => ⟨s.clearFlags_but _ _ _, fun b hb => ?_⟩
    rw [State.rbit_clearFlags (by decide) b i.regs, if_pos (by simp; omega)]

/-- Harts that are present start, and the rest of the register stays (R483). -/
theorem runs_mgmtCoreRunWrite {s : State} (ho : s.domOn (regDomain Reg.MGMT_CORE_RUN) = true) (v : Word) :
    Runs (.mgmtCoreRunWrite v) s [.regs] (fun t => s.RegsBut t [Reg.MGMT_CORE_ST] ∧
      t.rf Reg.MGMT_CORE_ST 15 8 = (s.rf Reg.MGMT_CORE_ST 15 8 ||| (bitsOf v.toNat 15 8 &&& s.rf Reg.MGMT_CORE_ST 7 0)) ∧
      t.rf Reg.MGMT_CORE_ST 7 0 = s.rf Reg.MGMT_CORE_ST 7 0) := by
  refine Runs.of_next (exec_mgmtCoreRunWrite v s) ?_ ?_ <;> rw [State.rowWrite_on ho]
  · exact (State.runCores_keep ..).alters _ (by decide)
  · refine fun i => ⟨s.wf_but _ _ _ _, ?_, State.rf_wf_disjoint i.regs (by decide) (by decide) (by decide)⟩
    refine (State.rf_wf_self i.regs (by decide) (by decide)).trans (Nat.mod_eq_of_lt ?_)
    exact Nat.or_lt_two_pow (bitsOf_lt _ 15 8) (Nat.and_lt_two_pow _ (bitsOf_lt _ 7 0))

/-! #### The set of the PTP clock. -/

/-- The seconds words of MGMT_PTP_SET written. -/
def State.ptpSetSec (s : State) (sec : BitVec 48) : State :=
  (s.wr Reg.MGMT_PTP_SET_SLO (sec.toNat % 2 ^ 32)).wr Reg.MGMT_PTP_SET_SHI (sec.toNat / 2 ^ 32)

theorem State.ptpSetSec_keep (s : State) (sec : BitVec 48) : Keep 0x3FFFFFFFB s (s.ptpSetSec sec) :=
  (State.wr_keep ..).trans (State.wr_keep ..)

theorem State.ptpSetSec_but (s : State) (sec : BitVec 48) : s.RegsBut (s.ptpSetSec sec) [Reg.MGMT_PTP_SET_SLO, Reg.MGMT_PTP_SET_SHI] :=
  ((s.wr_but Reg.MGMT_PTP_SET_SLO _).of_one (by decide)).trans ((State.wr_but _ Reg.MGMT_PTP_SET_SHI _).of_one (by decide))

theorem State.ptpSetSec_reads {s : State} (h : twf 0 s.regs = true) (sec : BitVec 48) :
    (s.ptpSetSec sec).rd Reg.MGMT_PTP_SET_SLO = sec.toNat % 2 ^ 32 ∧
      (s.ptpSetSec sec).rf Reg.MGMT_PTP_SET_SHI 15 0 = sec.toNat / 2 ^ 32 := by
  have hs : sec.toNat < 2 ^ 48 := sec.isLt
  have hx : twf 0 (s.wr Reg.MGMT_PTP_SET_SLO (sec.toNat % 2 ^ 32)).regs = true := State.regs_wr h
  constructor
  · unfold State.ptpSetSec
    rw [State.rd_wr_ne hx _ (by decide), State.rd_wr_self h, Nat.mod_mod]
  · unfold State.rf State.ptpSetSec bitsOf
    rw [State.rd_wr_self hx, Nat.shiftRight_zero]
    omega

theorem exec_mgmtPtpSetWrite_on {s : State} (ho : s.domOn (regDomain Reg.MGMT_PTP_SET_SLO) = true) (sec : BitVec 48) (ns : Word) :
    exec (.mgmtPtpSetWrite sec ns) s = .next ((s.ptpSetSec sec).ptpSet ns.toNat) := by
  rw [exec_mgmtPtpSetWrite, State.rowWrite_on ho]; rfl

/-- Nanoseconds of a second or more are discarded (R491). -/
theorem runs_mgmtPtpSetWrite_late {s : State} (ho : s.domOn (regDomain Reg.MGMT_PTP_SET_SLO) = true) (sec : BitVec 48) {ns : Word}
    (hns : 1000000000 ≤ ns.toNat) :
    Runs (.mgmtPtpSetWrite sec ns) s [.regs] (fun t => s.RegsBut t [Reg.MGMT_PTP_SET_SLO, Reg.MGMT_PTP_SET_SHI]) := by
  refine Runs.of_next (exec_mgmtPtpSetWrite_on ho sec ns) ?_ ?_ <;> rw [State.ptpSet_late hns]
  · exact (s.ptpSetSec_keep sec).alters _ (by decide)
  · exact fun _ => s.ptpSetSec_but sec

/-- The clock stepped to the time written, its event not yet recorded. -/
def State.ptpStepped (s : State) (sec : BitVec 48) (ns : Word) : State :=
  (s.ptpSetSec sec).ptpAt (sec.toNat % 2 ^ 32) (sec.toNat / 2 ^ 32) ns.toNat

theorem State.ptpStepped_keep (s : State) (sec : BitVec 48) (ns : Word) : Keep 0x3BFFFFFFB s (s.ptpStepped sec ns) :=
  ((s.ptpSetSec_keep sec).mono rfl).trans (State.ptpAt_keep ..)

theorem State.ptpStepped_runCtx (s : State) (sec : BitVec 48) (ns : Word) : (s.ptpStepped sec ns).runCtx = s.runCtx :=
  (State.runCtx_of_but (State.ptpAt_but _ _ _ _) (by decide)).trans (State.runCtx_of_but (s.ptpSetSec_but sec) (by decide))

theorem exec_mgmtPtpSetWrite_steps {s : State} (i : s.Inv) (ho : s.domOn (regDomain Reg.MGMT_PTP_SET_SLO) = true) (sec : BitVec 48)
    {ns : Word} (hns : ns.toNat < 1000000000) (he : s.fab.epoch = none) :
    exec (.mgmtPtpSetWrite sec ns) s = .next ((s.ptpStepped sec ns).event 0x0A0F devUnit 0 [(16, 6, sec.toNat)]) := by
  obtain ⟨hlo, hhi⟩ := State.ptpSetSec_reads i.regs sec
  have hfab : (s.ptpSetSec sec).fab = s.fab := (s.ptpSetSec_keep sec).fab rfl
  have hv : sec.toNat % 2 ^ 32 + sec.toNat / 2 ^ 32 * 2 ^ 32 = sec.toNat := by omega
  rw [exec_mgmtPtpSetWrite_on ho, State.ptpSet_steps hns (hfab.symm ▸ he), hlo, hhi, hv]
  rfl

/-- The clock is stepped to the time written, counts as set, and the step is recorded (R491). -/
theorem runs_mgmtPtpSetWrite {s : State} (ho : s.domOn (regDomain Reg.MGMT_PTP_SET_SLO) = true) (sec : BitVec 48) {ns : Word}
    (hns : ns.toNat < 1000000000) (he : s.fab.epoch = none) :
    Runs (.mgmtPtpSetWrite sec ns) s [.regs, .log, .nodes, .irq, .logN, .mgmt] (fun t =>
      t.rd Reg.MGMT_PTP_NOW_SLO = sec.toNat % 2 ^ 32 ∧ t.rf Reg.MGMT_PTP_NOW_SHI 15 0 = sec.toNat / 2 ^ 32 ∧
      t.rd Reg.MGMT_PTP_NOW_NS = ns.toNat ∧ t.rbit Reg.MGMT_PTP_CTL 0 = true ∧ t.mgmt = { s.mgmt with ptpFrac := 0 } ∧
      (s.EventRoom 0x0A0F devUnit → t.Recorded (s.eventRec 0x0A0F devUnit 0 [(16, 6, sec.toNat)]))) := by
  intro i
  have hsec : sec.toNat < 2 ^ 48 := sec.isLt
  have hk := s.ptpStepped_keep sec ns
  obtain ⟨hslo, hshi, hnow, hset⟩ := State.ptpAt_shows (s := s.ptpSetSec sec) (((s.ptpSetSec_keep sec).inv i).regs)
    (lo := sec.toNat % 2 ^ 32) (hi := sec.toNat / 2 ^ 32) (ns := ns.toNat) (by omega) (by omega) ns.isLt
  have hrd := State.rd_congr (State.event_regs_of_cuard (s := s.ptpStepped sec ns) (code := 0x0A0F) (unit := devUnit) (by decide) 0
    [(16, 6, sec.toNat)])
  refine ⟨_, exec_mgmtPtpSetWrite_steps i ho sec hns he,
    (Keep.via (m := 0x3AFFDFCFB) (State.event_keep ..) rfl (hk.mono rfl)).alters _ (by decide), ?_, ?_, ?_, ?_, ?_, ?_⟩
  · exact (hrd _).trans hslo
  · exact (congrArg (bitsOf · 15 0) (hrd _)).trans hshi
  · exact (hrd _).trans hnow
  · exact (congrArg (bitOf · 0) (hrd _)).trans hset
  · exact (State.event_keep ..).mgmt rfl
  · exact fun hr => State.event_recorded_of_same hr (hk.now rfl) (s.ptpStepped_runCtx sec ns) (hk.log rfl) (hk.nodes rfl) _ _

/-- PPS_EV clears, with interrupt source 6 (R483). -/
theorem runs_ppsEvClear {s : State} (ho : s.domOn (regDomain Reg.MGMT_PTP_CTL) = true) :
    Runs .ppsEvClear s [.regs, .irq] (fun t => t.rbit Reg.MGMT_PTP_CTL 2 = false ∧ s.RegsBut t [Reg.MGMT_PTP_CTL] ∧
      t.irq = s.irq &&& ~~~(64#8)) := by
  refine Runs.of_next (exec_ppsEvClear s) ?_ ?_ <;> rw [State.rowWrite_on ho]
  · exact (Keep.via (m := 0x3FFFDFFFB) (State.clearIrq_keep ..) rfl ((State.wf_keep ..).mono rfl)).alters _ (by decide)
  · refine fun i => ⟨?_, s.wf_but _ _ _ _, rfl⟩
    exact State.rbit_wf i.regs (a := Reg.MGMT_PTP_CTL) (hi := 2) (lo := 2) (v := 0) (by decide) (by decide) 2

/-- Settles O40: each clause is the rule of its command. -/
theorem registersComplete : Obligations.RegistersComplete := by
  refine ⟨?reads, ?width, ?skn, ?dev, ?lcp, ?lcpLast, ?writes, ?bad, ?timeouts, ?flags, ?offs, ?cores, ?ptp, ?pps⟩
  case reads =>
    exact fun s who a c hc => ⟨exec_read_bad hc, runs_read_debug hc, runs_read_off hc, fun hw hm hd ho =>
      ⟨exec_read_on hc hw hm hd ho, fun _ => runs_read_latched hc hw hm hd ho, runs_read_low hc hw hm hd ho⟩⟩
  case width =>
    intro s who a n hn
    rw [exec_rcRead, exec_reg64LowRead, State.softRead_bad (.inr (.inr hn))]
    exact ⟨rfl, rfl⟩
  case skn => exact fun _ _ => runs_sknStatusRead
  case dev => exact fun _ _ => runs_cmdDevStateRead
  case lcp => exact fun _ _ _ _ _ _ hw ho hl => runs_cmdLcpOutRead hw ho hl
  case lcpLast => exact fun _ _ _ hw ho hl => runs_cmdLcpOutRead_last hw ho hl
  case writes =>
    refine fun s h a v => ⟨fun n hn => ?_, fun hm => ?_, runs_regWriteOther_denied h v, runs_regWriteOther_off h v,
      fun hm hc ho => ?_⟩
    · rw [exec_regWriteOther, State.softWrite_bad (.inr hn)]
    · rw [exec_regWriteOther, State.softWrite_bad (.inl hm)]
    · rw [exec_regWriteOther, State.softWrite_on hm hc ho]
  case bad =>
    exact fun s who a dir => ⟨runs_rcRead_spindle s 0 a, fun h e => e ▸ s.badAccess_out_core h a dir,
      fun hw => s.badAccess_out_other hw a dir⟩
  case timeouts => exact fun s who a => ⟨runs_regAccessTimeout_read s who a, runs_regAccessTimeout_write s who a⟩
  case flags =>
    refine fun s ps v => ⟨fun hc => exec_spnNumFlagsWrite_refused hc ps v, fun _ h ho => runs_spnNumFlagsWrite h ho v,
      fun _ h ho => ?_⟩
    rw [exec_spnNumFlagsWrite h, State.rowWrite_off ho]
  case offs =>
    refine fun s v ns sec => ⟨fun ho => ?_, fun ho => ?_, fun ho => ?_⟩
    · rw [exec_mgmtCoreRunWrite, State.rowWrite_off ho]
    · rw [exec_mgmtPtpSetWrite, State.rowWrite_off ho]
    · rw [exec_ppsEvClear, State.rowWrite_off ho]
  case cores => exact fun _ v ho => runs_mgmtCoreRunWrite ho v
  case ptp => exact fun _ sec _ ho => ⟨runs_mgmtPtpSetWrite_late ho sec, runs_mgmtPtpSetWrite ho sec⟩
  case pps => exact fun _ => runs_ppsEvClear

end Sys2Proof.Machine
end

section
/-! SUPPORT. What register reads see of other updates: writes of other registers, states of spindles, recorded events. -/

namespace Sys2Proof.Machine

/-! ### Registers outside a frame. -/

section
variable {s t : State} {l : List Nat} (h : s.RegsBut t l)
include h

theorem State.RegsBut.rbit {a : Nat} (ha : a ∉ l) (n : Nat) : t.rbit a n = s.rbit a n := by
  unfold State.rbit; rw [h.rd ha]

theorem State.RegsBut.spnState {ps : Nat} (ha : Reg.SPN_STATE ps ∉ l) : t.spnState ps = s.spnState ps := h.rf ha 2 0

theorem State.RegsBut.gen {ps : Nat} (ha : Reg.SPN_STATE ps ∉ l) : t.gen ps = s.gen ps := by
  unfold State.gen; rw [h.rf ha 5 4]

theorem State.RegsBut.rd64 {a : Nat} (ha : a ∉ l) (hb : a + 4 ∉ l) : t.rd64 a = s.rd64 a := by
  unfold State.rd64; rw [h.rd ha, h.rd hb]

/-- Two frames in a row. -/
theorem State.RegsBut.append {u : State} {k : List Nat} (g : t.RegsBut u k) : s.RegsBut u (l ++ k) :=
  (h.mono (fun _ => List.mem_append_left _)).trans (g.mono (fun _ => List.mem_append_right _))

end

/-! ### Fields. -/

theorem State.rf_congr {s t : State} (h : t.regs = s.regs) (a hi lo : Nat) : t.rf a hi lo = s.rf a hi lo := by
  unfold State.rf; rw [State.rd_congr h]

theorem State.rbit_congr {s t : State} (h : t.regs = s.regs) (a n : Nat) : t.rbit a n = s.rbit a n := by
  unfold State.rbit; rw [State.rd_congr h]

/-- A counter field after it is raised. -/
theorem State.rf_satField_self {s : State} (h : twf 0 s.regs = true) {a hi lo : Nat} (hl : lo ≤ hi) (hh : hi < 32) (n : Nat) :
    (s.satField a hi lo n).rf a hi lo = min (s.rf a hi lo + n) (2 ^ (hi + 1 - lo) - 1) := by
  have hp := Nat.two_pow_pos (hi + 1 - lo)
  exact (State.rf_wf_self h hl hh).trans (Nat.mod_eq_of_lt (by omega))

theorem State.rf_lt (s : State) (a hi lo : Nat) : s.rf a hi lo < 2 ^ (hi + 1 - lo) := bitsOf_lt _ _ _

/-! ### States and generations of spindles. -/

theorem State.spn_congr {s t : State} (h : t.spns = s.spns) (ps : Nat) : t.spn ps = s.spn ps := by
  unfold State.spn; rw [h]

theorem State.setSpnState_but (s : State) (ps c : Nat) : s.RegsBut (s.setSpnState ps c) [Reg.SPN_STATE ps] := s.wr_but _ _

section
variable {s : State} (h : twf 0 s.regs = true)
include h

/-- A field of SPN_STATE below the hold causes, after the spindle enters a state. -/
theorem State.rf_setSpnState {ps c hi : Nat} (hi8 : hi < 8) (lo : Nat) :
    (s.setSpnState ps c).rf (Reg.SPN_STATE ps) hi lo = bitsOf (setBits (s.rd (Reg.SPN_STATE ps)) 2 0 c) hi lo := by
  have hw : setBits (s.rd (Reg.SPN_STATE ps)) 2 0 c < 2 ^ 32 := setBits_lt (by decide) (by decide) (s.rd_lt _)
  have hv : setBits (setBits (s.rd (Reg.SPN_STATE ps)) 2 0 c) 15 8 0 < 2 ^ 32 := setBits_lt (by decide) (by decide) hw
  unfold State.rf State.setSpnState
  rw [State.rd_wr_self h]
  dsimp only
  split
  · rw [Nat.mod_eq_of_lt hv, bitsOf_setBits_disjoint (by decide) (.inl hi8)]
  · rw [Nat.mod_eq_of_lt hw]

theorem State.spnState_setSpnState {ps c : Nat} (hc : c < 8) : (s.setSpnState ps c).spnState ps = c :=
  (State.rf_setSpnState h (by decide) 0).trans ((bitsOf_setBits_self _ _ _ _).trans (Nat.mod_eq_of_lt hc))

theorem State.gen_setSpnState (ps c : Nat) : (s.setSpnState ps c).gen ps = s.gen ps := by
  unfold State.gen
  rw [State.rf_setSpnState h (by decide), bitsOf_setBits_disjoint (by decide) (.inr (by decide))]
  rfl

/-- A generation written. -/
theorem State.gen_wf (ps : Nat) (g : BitVec 2) : (s.wf (Reg.SPN_STATE ps) 5 4 g.toNat).gen ps = g := by
  unfold State.gen
  rw [State.rf_wf_self h (by decide) (by decide)]
  exact BitVec.eq_of_toNat_eq (by simp [Nat.mod_eq_of_lt g.isLt])

end

/-! ### Events. -/

/-- An event changes no register but the count of lost records (R269). -/
theorem State.eventCtx_but (s : State) (code unit sev ctx : Nat) (data : List (Nat × Nat × Nat)) :
    s.RegsBut (s.eventCtx code unit sev ctx data) [Reg.CNET_EVT_LOST] := by
  unfold State.eventCtx
  cases nodeOf code unit with
  | none => exact State.RegsBut.of_regs ((State.toLog_keep ..).regs rfl) _
  | some n =>
    dsimp only
    generalize (tget {} s.nodes n).put _ = r
    have hs : s.RegsBut (({ s with nodes := tset {} s.nodes n r.1 } : State).sat Reg.CNET_EVT_LOST r.2.1) [Reg.CNET_EVT_LOST] :=
      State.sat_but _ _ _
    split
    · exact hs.trans (State.RegsBut.of_regs ((State.toLog_keep ..).regs rfl) _)
    · exact hs

theorem State.event_but (s : State) (code unit sev : Nat) (data : List (Nat × Nat × Nat)) :
    s.RegsBut (s.event code unit sev data) [Reg.CNET_EVT_LOST] := s.eventCtx_but _ _ _ _ _

end Sys2Proof.Machine
end

section
/-! SUPPORT. The state right after reset (R35, R113, R476). -/

namespace Sys2Proof.Machine

theorem State.reset_reg (a : Nat) : State.reset.reg a = regReset a := by
  exact BitVec.zero_xor

theorem State.reset_spindles : ∀ ps : Fin 18, State.reset.spnState ps = 7 ∧ State.reset.gen ps = 0 := by decide +kernel

theorem State.reset_domains : ∀ d : Fin 24, State.reset.domOn d = true ↔ d = 0 := by decide +kernel

/-- Settles O6: the tables of the reset state are empty, and the registers that say the rest are evaluated. -/
theorem resetLeaves : Obligations.ResetLeaves := by
  refine ⟨by decide +kernel, fun ps h => State.reset_spindles ⟨ps, h⟩, fun d h => ?_, State.reset_reg, fun k => ⟨rfl, rfl⟩, rfl, rfl,
    by decide +kernel, rfl⟩
  rw [State.reset_domains ⟨d, h⟩, Fin.ext_iff]; rfl
end Sys2Proof.Machine
end

section
/-! SUPPORT. Section ends, section loads and forced loads (R97 to R101), each command from its rule. -/

namespace Sys2Proof.Machine

/-! ### Left-over items (R99). -/

theorem State.flushLeft_but (s : State) (ps : Nat) : s.RegsBut (s.flushLeft ps) [Reg.SPN_FLUSH_CNT ps] := State.satField_but _ _ _ _ _

theorem State.flushLeft_spn {s : State} (i : s.Inv) (ps : Nat) : (s.flushLeft ps).spn ps = ((s.spn ps).leftOver (s.gen ps)).1 :=
  State.spn_setSpn i.spns ps _

theorem State.flushLeft_count {s : State} (i : s.Inv) (ps : Nat) : (s.flushLeft ps).rf (Reg.SPN_FLUSH_CNT ps) 31 16 =
    min (s.rf (Reg.SPN_FLUSH_CNT ps) 31 16 + ((s.spn ps).leftOver (s.gen ps)).2) 0xFFFF :=
  State.rf_satField_self (s := s.setSpn ps _) i.regs (by decide) (by decide) _

theorem State.flushLeft_spnState (s : State) (ps : Nat) : (s.flushLeft ps).spnState ps = s.spnState ps :=
  (s.flushLeft_but ps).spnState (by simp [Reg.SPN_STATE, Reg.SPN_FLUSH_CNT])

theorem State.flushLeft_gen (s : State) (ps : Nat) : (s.flushLeft ps).gen ps = s.gen ps :=
  (s.flushLeft_but ps).gen (by simp [Reg.SPN_STATE, Reg.SPN_FLUSH_CNT])

/-! ### SECTION_DRAINED (R98 to R100, R135). -/

theorem exec_sectionDrained_early {s : State} {ps : Fin 18}
    (h : (s.spn ps).drained (s.gen ps) = false ∨ s.drainsNow ps = false) : exec (.sectionDrained ps) s = .next s := by
  show execSectionDrained ps s = _
  unfold execSectionDrained
  rcases h with h | h <;> simp [h]

section
variable {s : State} {ps : Fin 18} (hd : (s.spn ps).drained (s.gen ps) = true) (hn : s.drainsNow ps = true)
include hd hn

theorem exec_sectionDrained_ending (hl : (s.spn ps).load = .ending) :
    exec (.sectionDrained ps) s = .next ((s.flushLeft ps).strandDone ps) := by
  show execSectionDrained ps s = _
  unfold execSectionDrained
  simp only [hd, hn, hl, and_self, if_true]

theorem exec_sectionDrained_draining (hl : (s.spn ps).load = .draining) : exec (.sectionDrained ps) s =
    if s.spnState ps = 3 then .next ((s.flushLeft ps).atBoundary ps)
    else .next ((s.flushLeft ps).modSpn ps (fun x => { x with load := .waiting })) := by
  show execSectionDrained ps s = _
  unfold execSectionDrained
  simp only [hd, hn, hl, and_self, if_true, State.flushLeft_spnState]

theorem exec_sectionDrained_none (hl : (s.spn ps).load = .none) : exec (.sectionDrained ps) s = .next s := by
  show execSectionDrained ps s = _
  unfold execSectionDrained
  simp only [hd, hn, hl, and_self, if_true]

theorem runs_sectionDrained_waits (hl : (s.spn ps).load = .draining) (h3 : s.spnState ps ≠ 3) :
    Runs (.sectionDrained ps) s [.regs, .spns] (fun t =>
      t.spn ps = { ((s.spn ps).leftOver (s.gen ps)).1 with load := .waiting } ∧ (t.spn ps).store = [] ∧
        (∀ e ∈ (t.spn ps).sluice, e.gen ≠ s.gen ps) ∧ s.RegsBut t [Reg.SPN_FLUSH_CNT ps] ∧
        t.rf (Reg.SPN_FLUSH_CNT ps) 31 16 = min (s.rf (Reg.SPN_FLUSH_CNT ps) 31 16 + ((s.spn ps).leftOver (s.gen ps)).2) 0xFFFF) := by
  refine Runs.of_next (t := (s.flushLeft ps).modSpn ps (fun x => { x with load := .waiting })) ?_ ?_ (fun i => ?_)
  · rw [exec_sectionDrained_draining hd hn hl]; exact if_neg h3
  · exact (Keep.via (m := 0x3FFFFEFFB) (State.modSpn_keep ..) rfl (s.flushLeft_keep ps)).alters _ (by decide)
  · have hspn : ((s.flushLeft ps).modSpn ps (fun x => { x with load := .waiting })).spn ps =
        { ((s.spn ps).leftOver (s.gen ps)).1 with load := .waiting } := by
      rw [State.spn_modSpn ((s.flushLeft_keep ps).inv i).spns, State.flushLeft_spn i]
    refine ⟨hspn, by rw [hspn]; rfl, ?_, s.flushLeft_but ps, State.flushLeft_count i ps⟩
    rw [hspn]
    intro e he
    simpa using (List.mem_filter.mp he).2

end

theorem State.atBoundary_load {s : State} (i : s.Inv) (ps : Nat) : ((s.atBoundary ps).spn ps).load = .none := by
  have e : (s.atBoundary ps).spn ps = _ := tget_tset_self i.spns
  rw [e]

theorem State.atBoundary_gen {s : State} (i : s.Inv) (ps : Nat) : (s.atBoundary ps).gen ps = s.gen ps + 1 :=
  State.gen_wf (State.regs_wr (s := s.modSpn ps _) i.regs) ps _

theorem State.atBoundary_sect {s : State} (i : s.Inv) (ps : Nat) :
    (s.atBoundary ps).rd (Reg.SPN_SECT ps) = (s.spn ps).nextSect % 2 ^ 32 := by
  unfold State.atBoundary
  dsimp only
  rw [(State.wf_but _ _ _ _ _).rd (by simp [Reg.SPN_SECT, Reg.SPN_STATE]), State.rd_wr_self (s := s.modSpn ps _) i.regs,
    State.spn_modSpn i.spns]

theorem exec_sectionDrained_boundary {s : State} {ps : Fin 18} (i : s.Inv) (hd : (s.spn ps).drained (s.gen ps) = true)
    (hn : s.drainsNow ps = true) (hl : (s.spn ps).load = .draining) (h3 : s.spnState ps = 3) :
    ∃ t, exec (.sectionDrained ps) s = .next t ∧ t = (s.flushLeft ps).atBoundary ps ∧ t.gen ps = s.gen ps + 1 ∧
      (t.spn ps).load = .none ∧ t.rd (Reg.SPN_SECT ps) = (s.spn ps).nextSect % 2 ^ 32 := by
  have j := (s.flushLeft_keep ps).inv i
  refine ⟨_, ?_, rfl, ?_, State.atBoundary_load j ps, ?_⟩
  · rw [exec_sectionDrained_draining hd hn hl]; exact if_pos h3
  · rw [State.atBoundary_gen j, State.flushLeft_gen]
  · rw [State.atBoundary_sect j, State.flushLeft_spn i]; rfl

/-! #### The end of a strand (R135). -/

theorem State.strandDone_shows {s : State} (i : s.Inv) (ps : Nat) : (s.strandDone ps).spnState ps = 0 ∧
    (s.strandDone ps).rbit (Reg.SPN_STRAND ps) 6 = true ∧ (s.strandDone ps).spn ps = { s.spn ps with load := .none, drain := none } := by
  refine ⟨State.spnState_setSpnState (State.regs_wf (s := s.modSpn ps _) i.regs) (by decide), ?_, tget_tset_self i.spns⟩
  rw [show (s.strandDone ps) = State.setSpnState _ ps 0 from rfl,
    (State.setSpnState_but _ ps 0).rbit (by simp [Reg.SPN_STRAND, Reg.SPN_STATE]),
    State.rbit_wf (s := s.modSpn ps _) i.regs (by decide) (by decide)]
  rfl

theorem runs_sectionDrained_ends {s : State} {ps : Fin 18} (hd : (s.spn ps).drained (s.gen ps) = true)
    (hn : s.drainsNow ps = true) (hl : (s.spn ps).load = .ending) :
    Runs (.sectionDrained ps) s [.regs, .spns] (fun t => t.spnState ps = 0 ∧ t.rbit (Reg.SPN_STRAND ps) 6 = true ∧
      t.spn ps = { ((s.spn ps).leftOver (s.gen ps)).1 with load := .none, drain := none }) := by
  refine Runs.of_next (t := (s.flushLeft ps).strandDone ps) ?_ ?_ (fun i => ?_)
  · exact exec_sectionDrained_ending hd hn hl
  · exact ((s.flushLeft_keep ps).trans (State.strandDone_keep ..)).alters _ (by decide)
  · have h := State.strandDone_shows ((s.flushLeft_keep ps).inv i) ps
    rwa [State.flushLeft_spn i] at h

/-! ### SECTION_LOAD_PROCEED (R100, R127, R589). -/

/-- Segment and configuration have come in (R127). -/
def State.loadReady (s : State) (ps : Nat) (ready : Bool) : State :=
  if ready then s.modSpn ps (fun x => { x with cfgReady := true }) else s

/-- What a load still waits for (R100 step 3, R113). -/
def State.loadWaits (s : State) (ps : Nat) : Bool :=
  match (s.spn ps).load with
  | .waiting => (s.spn ps).olderOps (s.gen ps) || s.rbit (Reg.SPN_SECT_CTL ps) 1
  | _ => decide ((s.spn ps).inFlight ≠ [])

theorem State.loadReady_spn (s : State) (ps : Nat) (ready : Bool) :
    (s.loadReady ps ready).spn ps = { s.spn ps with cfgReady := ready || (s.spn ps).cfgReady } := by
  cases ready with
  | false => rfl
  | true =>
    refine tget_tset_eq (fun h => ?_) _
    cases congrArg Spn.cfgReady h

theorem State.loadReady_regs (s : State) (ps : Nat) (ready : Bool) : (s.loadReady ps ready).regs = s.regs := by
  cases ready <;> rfl

theorem State.loadReady_gen (s : State) (ps : Nat) (ready : Bool) : (s.loadReady ps ready).gen ps = s.gen ps := by
  cases ready <;> rfl

/-- What a spindle in LOAD does at SECTION_LOAD_PROCEED. -/
def State.proceedLoad (s : State) (ps : Nat) (f : Flips) (bad : Option (Fin 3 × Nat)) : Res :=
  let x := s.spn ps
  match x.load with
  | .waiting =>
    if x.olderOps (s.gen ps) || s.rbit (Reg.SPN_SECT_CTL ps) 1 then .next (s.waitTick ps)
    else .next (s.whenPresent ps bad (s.loadSection ps x.nextSect (s.gen ps + 1) f))
  | .start =>
    if x.inFlight.isEmpty then .next (s.whenPresent ps bad (s.loadSection ps 0 (s.gen ps + 1) f))
    else .next (s.waitTick ps)
  | _ => .next s

theorem exec_sectionLoadProceed (s : State) (ps : Fin 18) (f : Flips) (ready : Bool) (bad : Option (Fin 3 × Nat)) :
    exec (.sectionLoadProceed ps f ready bad) s =
      if s.spnState ps ≠ 4 then .next s else (s.loadReady ps ready).proceedLoad ps f bad := rfl

/-- The section a load is for. -/
def Spn.loadSect (x : Spn) : Nat := if x.load = .waiting then x.nextSect else 0

/-- The section is loaded once nothing holds the load back. -/
theorem State.proceedLoad_eq {s : State} {ps : Nat} (hl : (s.spn ps).load = .waiting ∨ (s.spn ps).load = .start) (f : Flips)
    (bad : Option (Fin 3 × Nat)) : s.proceedLoad ps f bad =
      if s.loadWaits ps then .next (s.waitTick ps)
      else .next (s.whenPresent ps bad (s.loadSection ps (s.spn ps).loadSect (s.gen ps + 1) f)) := by
  unfold State.proceedLoad State.loadWaits Spn.loadSect
  rcases hl with hl | hl
  · simp only [hl, if_true]
  · cases hi : (s.spn ps).inFlight <;> simp [hl, hi]

theorem State.loadReady_waits (s : State) (ps : Nat) (ready : Bool) : (s.loadReady ps ready).loadWaits ps = s.loadWaits ps := by
  unfold State.loadWaits
  rw [State.loadReady_spn, State.loadReady_gen, State.rbit_congr (s.loadReady_regs ps ready)]
  rfl

theorem exec_sectionLoadProceed_loading {s : State} {ps : Fin 18} (h : s.spnState ps = 4)
    (hl : (s.spn ps).load = .waiting ∨ (s.spn ps).load = .start) (f : Flips) (ready : Bool) (bad : Option (Fin 3 × Nat)) :
    exec (.sectionLoadProceed ps f ready bad) s =
      if s.loadWaits ps then .next ((s.loadReady ps ready).waitTick ps)
      else .next ((s.loadReady ps ready).whenPresent ps bad
        ((s.loadReady ps ready).loadSection ps (s.spn ps).loadSect (s.gen ps + 1) f)) := by
  have hx := s.loadReady_spn ps ready
  rw [exec_sectionLoadProceed, if_neg (not_not.mpr h), State.proceedLoad_eq (by rw [hx]; exact hl), State.loadReady_waits,
    State.loadReady_gen, show ((s.loadReady ps ready).spn ps).loadSect = (s.spn ps).loadSect by rw [hx]; rfl]

theorem State.whenPresent_none (s : State) (ps : Nat) (go : State) :
    s.whenPresent ps none go = if (s.spn ps).cfgReady then go else s.waitTick ps := rfl

/-- The load goes by what it waits for, what is present, and what was read badly (R100, R127, R247). -/
theorem exec_sectionLoadProceed_cases {s : State} {ps : Fin 18} (h : s.spnState ps = 4)
    (hl : (s.spn ps).load = .waiting ∨ (s.spn ps).load = .start) (f : Flips) (ready : Bool) (bad : Option (Fin 3 × Nat)) :
    (s.loadWaits ps = true → exec (.sectionLoadProceed ps f ready bad) s = .next ((s.loadReady ps ready).waitTick ps)) ∧
    (s.loadWaits ps = false → bad = none → ((s.loadReady ps ready).spn ps).cfgReady = false →
      exec (.sectionLoadProceed ps f ready bad) s = .next ((s.loadReady ps ready).waitTick ps)) ∧
    (s.loadWaits ps = false → bad = none → ((s.loadReady ps ready).spn ps).cfgReady = true →
      exec (.sectionLoadProceed ps f ready bad) s =
        .next ((s.loadReady ps ready).loadSection ps (s.spn ps).loadSect (s.gen ps + 1) f)) ∧
    (∀ b, s.loadWaits ps = false → bad = some b →
      exec (.sectionLoadProceed ps f ready bad) s = .next ((s.loadReady ps ready).badBuffer ps b.1 b.2)) := by
  rw [exec_sectionLoadProceed_loading h hl]
  refine ⟨fun hw => ?_, fun hw hb hc => ?_, fun hw hb hc => ?_, fun b hw hb => ?_⟩
  · rw [hw]; rfl
  · rw [hw, hb, State.whenPresent_none, hc]; rfl
  · rw [hw, hb, State.whenPresent_none, hc]; rfl
  · rw [hw, hb]; rfl

theorem exec_sectionLoadProceed_none {s : State} {ps : Fin 18} (h : s.spnState ps = 4) (hl : (s.spn ps).load = .none) (f : Flips)
    (ready : Bool) (bad : Option (Fin 3 × Nat)) : exec (.sectionLoadProceed ps f ready bad) s = .next (s.loadReady ps ready) := by
  have hx : ((s.loadReady ps ready).spn ps).load = .none := by rw [State.loadReady_spn]; exact hl
  rw [exec_sectionLoadProceed, if_neg (not_not.mpr h)]
  unfold State.proceedLoad
  simp only [hx]

/-! ### SPN_SECT_CTL.FORCE and STOP_AT_END (R101, R113). -/

theorem exec_spnSectCtlForce (s : State) (ps : Fin 18) :
    exec (.spnSectCtlForce ps) s = .next (s.rowWrite (Reg.SPN_SECT_CTL ps) (fun s => s.forceSect ps)) := rfl

theorem exec_stopAtEnd (s : State) (ps : Fin 18) (v : Bool) :
    exec (.stopAtEnd ps v) s = .next (s.rowWrite (Reg.SPN_SECT_CTL ps) (fun s => s.wf (Reg.SPN_SECT_CTL ps) 1 1 (if v then 1 else 0))) := rfl

theorem State.forceSect_ignored {s : State} {ps : Nat}
    (h : (s.spn ps).nextSegment = none ∨ s.spnState ps = 0 ∨ 5 ≤ s.spnState ps ∨ s.nextKind ps 3 = true) : s.forceSect ps = s := by
  unfold State.forceSect
  dsimp only
  split
  · rename_i hc
    obtain ⟨hst, hk⟩ := hc
    rcases h with h | h | h | h
    · rw [h]
    · omega
    · omega
    · rw [hk] at h; cases h
  · rfl

theorem State.forceSect_forces {s : State} {ps n p : Nat} (hst : s.spnState ps = 1 ∨ s.spnState ps = 2 ∨ s.spnState ps = 4)
    (hk : s.nextKind ps 3 = false) (hn : (s.spn ps).nextSegment = some (n, p)) : s.forceSect ps = s.forceLoad ps n p := by
  unfold State.forceSect
  dsimp only
  rw [if_pos ⟨hst, hk⟩, hn]

theorem State.forceLoad_spn {s : State} (i : s.Inv) (ps n p : Nat) : (s.forceLoad ps n p).spn ps =
    { (s.spn ps).flushAll.1 with load := .forced, nextSect := n, pos := p, loops := [], idleLeft := 0, drainN := 0, drain := none
                                 flushed := (s.spn ps).flushAll.2 } := tget_tset_self i.spns

theorem State.forceLoad_but (s : State) (ps n p : Nat) :
    s.RegsBut (s.forceLoad ps n p) [Reg.SPN_FLUSH_CNT ps, Reg.SPN_STATE ps] :=
  State.RegsBut.append (State.satField_but (s.setSpn ps _) _ _ _ _) (State.setSpnState_but _ _ _)

theorem State.forceLoad_count {s : State} (i : s.Inv) (ps n p : Nat) : (s.forceLoad ps n p).rf (Reg.SPN_FLUSH_CNT ps) 15 0 =
    min (s.rf (Reg.SPN_FLUSH_CNT ps) 15 0 + (s.spn ps).flushAll.2) 0xFFFF :=
  (State.RegsBut.rf (State.setSpnState_but _ ps 4) (by simp [Reg.SPN_FLUSH_CNT, Reg.SPN_STATE]) 15 0).trans
    (State.rf_satField_self (s := s.setSpn ps _) i.regs (by decide) (by decide) _)

/-- Of the operations in flight a forced load ends the WATCHes (R101 step 2). -/
theorem Spn.flushAll_inFlight (x : Spn) : x.flushAll.1.inFlight = x.inFlight.filter (fun o => decide (o.kind ≠ .watch)) := by
  show ((x.ops.filter _).filter _) = (x.ops.filter _).filter _
  rw [List.filter_filter, List.filter_filter]
  refine List.filter_congr (fun o _ => ?_)
  cases o.kind <;> rfl

theorem runs_spnSectCtlForce {s : State} {ps : Fin 18} {n p : Nat}
    (hst : s.spnState ps = 1 ∨ s.spnState ps = 2 ∨ s.spnState ps = 4) (hk : s.nextKind ps 3 = false)
    (ho : s.domOn (regDomain (Reg.SPN_SECT_CTL ps)) = true) (hn : (s.spn ps).nextSegment = some (n, p)) :
    Runs (.spnSectCtlForce ps) s [.regs, .spns] (fun t => t.spnState ps = 4 ∧ (t.spn ps).load = .forced ∧ (t.spn ps).nextSect = n ∧
      (t.spn ps).pos = p ∧ (t.spn ps).store = [] ∧ (t.spn ps).links = [] ∧ (t.spn ps).pipe = [] ∧ (t.spn ps).sluice = [] ∧
      (t.spn ps).loops = [] ∧ (t.spn ps).drain = none ∧
      (t.spn ps).inFlight = (s.spn ps).inFlight.filter (fun o => decide (o.kind ≠ .watch)) ∧
      t.rf (Reg.SPN_FLUSH_CNT ps) 15 0 = min (s.rf (Reg.SPN_FLUSH_CNT ps) 15 0 + (s.spn ps).flushAll.2) 0xFFFF ∧
      s.RegsBut t [Reg.SPN_FLUSH_CNT ps, Reg.SPN_STATE ps]) := by
  refine Runs.of_next (t := s.forceLoad ps n p) ?_ ((s.forceLoad_keep ps n p).alters _ (by decide)) (fun i => ?_)
  · rw [exec_spnSectCtlForce, State.rowWrite_on ho, State.forceSect_forces hst hk hn]
  · rw [State.forceLoad_spn i]
    exact ⟨State.spnState_setSpnState (State.regs_satField (s := s.setSpn ps _) i.regs) (by decide), rfl, rfl, rfl, rfl, rfl, rfl, rfl, rfl, rfl,
      Spn.flushAll_inFlight _, State.forceLoad_count i ps n p, s.forceLoad_but ps n p⟩

theorem runs_stopAtEnd {s : State} {ps : Fin 18} (ho : s.domOn (regDomain (Reg.SPN_SECT_CTL ps)) = true) (v : Bool) :
    Runs (.stopAtEnd ps v) s [.regs] (fun t => t.rbit (Reg.SPN_SECT_CTL ps) 1 = v ∧
      (∀ b, b ≠ 1 → t.rbit (Reg.SPN_SECT_CTL ps) b = s.rbit (Reg.SPN_SECT_CTL ps) b) ∧ s.RegsBut t [Reg.SPN_SECT_CTL ps]) := by
  refine Runs.of_next (t := s.wf (Reg.SPN_SECT_CTL ps) 1 1 (if v then 1 else 0)) ?_ ((State.wf_keep ..).alters _ (by decide)) (fun i => ?_)
  · rw [exec_stopAtEnd, State.rowWrite_on ho]
  · refine ⟨?_, fun b hb => ?_, s.wf_but _ _ _ _⟩
    · rw [State.rbit_wf i.regs (by decide) (by decide)]
      cases v <;> rfl
    · rw [State.rbit_wf i.regs (by decide) (by decide), if_neg (by omega)]

/-! ### FORCED_LOAD_RESUME (R101, R411). -/

/-- The resumption of a forced load, told (R101 step 3). -/
def State.forceTold (s : State) (ps : Nat) : State :=
  s.event 0x0313 (unitId 0 ps) 1 [(16, 4, (s.spn ps).flushed), (20, 1, (s.gen ps + 2).toNat)]

section
variable {s : State} {ps : Fin 18} (hl : (s.spn ps).load = .forced) (h4 : s.spnState ps = 4) (f : Flips)
include hl h4

theorem exec_forcedLoadResume_waits (ho : (s.spn ps).olderOps (s.gen ps) = true) :
    exec (.forcedLoadResume ps f) s = .next (s.waitTick ps) := by
  show execForcedLoadResume ps f s = _
  unfold execForcedLoadResume
  simp only [hl, h4, ho, and_self, if_true]

theorem exec_forcedLoadResume (ho : (s.spn ps).olderOps (s.gen ps) = false) :
    exec (.forcedLoadResume ps f) s =
      if (s.spn ps).dump then .next ((((s.forceTold ps).modSpn ps (fun x => { x with load := .none, dump := false })).wf
        (Reg.SPN_STATE ps) 5 4 (s.gen ps + 2).toNat).setSpnState ps 0)
      else .next ((s.forceTold ps).loadSection ps (s.spn ps).nextSect (s.gen ps + 2) f) := by
  show execForcedLoadResume ps f s = _
  unfold execForcedLoadResume
  simp only [hl, h4, ho, and_self, if_true, Bool.false_eq_true, if_false]
  rfl

theorem runs_forcedLoadResume_dump (ho : (s.spn ps).olderOps (s.gen ps) = false) (hd : (s.spn ps).dump = true) :
    Runs (.forcedLoadResume ps f) s [.regs, .log, .nodes, .spns, .irq, .logN] (fun t =>
      t.spnState ps = 0 ∧ t.gen ps = s.gen ps + 2 ∧ t.spn ps = { s.spn ps with load := .none, dump := false }) := by
  refine Runs.of_next ((exec_forcedLoadResume hl h4 f ho).trans (if_pos hd)) ?_ (fun i => ?_)
  · exact (Keep.via (m := 0x3EFFDECFB) (State.setSpnState_keep ..) rfl <| Keep.via (State.wf_keep ..) rfl <|
      Keep.via (State.modSpn_keep ..) rfl <| (State.event_keep ..).mono rfl).alters _ (by decide)
  · have j : (s.forceTold ps).Inv := (State.event_keep ..).inv i
    have hr := State.regs_wf (s := (s.forceTold ps).modSpn ps (fun x => { x with load := .none, dump := false }))
      (a := Reg.SPN_STATE ps) (hi := 5) (lo := 4) (v := (s.gen ps + 2).toNat) j.regs
    refine ⟨State.spnState_setSpnState hr (by decide), ?_, ?_⟩
    · rw [State.gen_setSpnState hr]
      exact State.gen_wf (s := (s.forceTold ps).modSpn ps _) j.regs ps _
    · have hs : (s.forceTold ps).spn ps = s.spn ps := State.spn_congr ((State.event_keep ..).spns rfl) ps
      rw [← hs]
      exact State.spn_modSpn j.spns ps (fun x => { x with load := .none, dump := false })

end

/-- Settles O21: each clause is the rule of its command. -/
theorem sectionLoadsComplete : Obligations.SectionLoadsComplete := by
  refine ⟨?drained, fun _ _ => exec_sectionDrained_early, ?proceed, ?other, ?force, ?ignored, ?resume, ?older, ?stop, ?off⟩
  case drained =>
    exact fun s ps i hd hn => ⟨runs_sectionDrained_waits hd hn, exec_sectionDrained_boundary i hd hn, runs_sectionDrained_ends hd hn,
      exec_sectionDrained_none hd hn⟩
  case proceed =>
    rintro s x ps ready bad f h4 rfl
    exact ⟨fun hl => exec_sectionLoadProceed_cases h4 hl f ready bad, fun hl => exec_sectionLoadProceed_none h4 hl f ready bad⟩
  case other => exact fun s ps ready bad f h => if_pos h
  case force => exact fun s ps n p i hst hk ho hn => runs_spnSectCtlForce hst hk ho hn
  case ignored => exact fun s ps ho h => by rw [exec_spnSectCtlForce, State.rowWrite_on ho, State.forceSect_ignored h]
  case resume =>
    refine fun s ps f _ hl h4 ho => ⟨fun hd => ?_, runs_forcedLoadResume_dump hl h4 f ho⟩
    rw [exec_forcedLoadResume hl h4 f ho, hd]; rfl
  case older => exact fun s ps f hl h4 => exec_forcedLoadResume_waits hl h4 f
  case stop => exact fun s ps v _ ho => runs_stopAtEnd ho v
  case off =>
    refine fun s ps v ho => ⟨?_, ?_⟩
    · rw [exec_spnSectCtlForce, State.rowWrite_off ho]
    · rw [exec_stopAtEnd, State.rowWrite_off ho]

end Sys2Proof.Machine
end

section
/-! SUPPORT. Requests, steps, ends and timers of resets, and operations past their time (R320, R407 to R414), each command from
its rule. -/

namespace Sys2Proof.Machine

/-! ### RESET_REQUEST (R268, R409, R410, R413). -/

/-- The word of a reset request (R409). -/
def resetWord (level scope source seq : Nat) : Nat := level * 2 ^ 44 + scope * 2 ^ 28 + source * 2 ^ 24 + seq

/-- The fields of a request's word are the numbers it was made of. -/
theorem bitsOf_resetWord {l scope source seq : Nat} (hl : l < 8) (hs : scope < 2 ^ 16) (ho : source < 16) (hq : seq < 2 ^ 24) :
    bitsOf (resetWord l scope source seq) 46 44 = l ∧ bitsOf (resetWord l scope source seq) 43 28 = scope ∧
      bitsOf (resetWord l scope source seq) 27 24 = source ∧ bitsOf (resetWord l scope source seq) 23 0 = seq := by
  unfold bitsOf resetWord
  simp only [Nat.shiftRight_eq_div_pow]
  omega

/-- A reset as a request asks for it. -/
def State.askedReset (s : State) (level scope source seq : Nat) : Reset :=
  { level := level, scope := scope, source := source, seq := seq, start := 0, timer := 0, counted := false, at_ := .closing
    spins := (s.scopeOf level scope).1, polders := (s.scopeOf level scope).2 }

/-- A request that lies within the reset `y` joins it. -/
def State.joinReset (s : State) (y : Reset) (level scope source seq : Nat) : State :=
  let now : Bool := level == 3 && source == 2 && y.level == 3 && !y.counted
  let s := (s.putReset { y with also := y.also ++ [seq], counted := y.counted || now }).wr Reg.RST_LAST
    (scope * 2 ^ 16 + source * 2 ^ 12 + 3 * 16 + level)
  if now then s.countReset else s

/-- What node 35 does with the request it has received. -/
def State.serveReset (s : State) (level scope source seq : Nat) : State :=
  if s.devState = stHalted ∨ level = 0 ∨ 4 < level then s
  else match s.rst.resets.find? (fun x => (s.askedReset level scope source seq).within x) with
    | some x => s.joinReset x level scope source seq
    | none => s.beginReset level scope source seq (level == 3 && source == 2) [] s.wall

/-- The request has come in. -/
def State.ctlIn (s : State) (m : CtlMsg) (c : CtlWay) : State := (s.take (.ctl m)).ctlWay 0 c

theorem exec_resetRequest_other {m : CtlMsg} (h : m.cls ≠ 0 ∨ m.dst ≠ 35 ∨ m.fits = false) (c : CtlWay) (s : State) :
    exec (.resetRequest m c) s = .next s := if_pos h

theorem exec_resetRequest {m : CtlMsg} {c : CtlWay} {l scope source seq : Nat} (s : State) (hc : m.cls = 0) (hd : m.dst = 35)
    (hs : m.src < 39) (hb : c.bad = none) (hl : l < 8) (hsc : scope < 2 ^ 16) (hso : source < 16) (hsq : seq < 2 ^ 24)
    (hw : m.words = [resetWord l scope source seq]) :
    exec (.resetRequest m c) s = .next ((s.ctlIn m c).serveReset l scope source seq) := by
  have hlt : resetWord l scope source seq < 2 ^ 47 := by unfold resetWord; omega
  have hfits : m.fits = true := by
    unfold CtlMsg.fits
    rw [hw]
    simp only [hc, hd, List.headD_cons, List.length_singleton, List.all_cons, List.all_nil, Bool.and_eq_true, decide_eq_true_eq, and_true]
    omega
  obtain ⟨h1, h2, h3, h4⟩ := bitsOf_resetWord hl hsc hso hsq
  show execResetRequest m c s = _
  unfold execResetRequest
  rw [if_neg (by rw [hc, hd, hfits]; decide), if_neg (by rw [hb]; decide), hw]
  dsimp only [List.headD_cons]
  rw [h1, h2, h3, h4]
  show (if _ then _ else _) = _
  unfold State.serveReset State.ctlIn
  split
  · rfl
  · unfold State.askedReset State.joinReset
    dsimp only
    cases List.find? _ _ <;> rfl

/-- A message that came in whole changes registers and the transit alone. -/
theorem State.ctlIn_keep (s : State) (m : CtlMsg) {c : CtlWay} (hb : c.bad = none) : Keep 0x3FFFFFFBB s (s.ctlIn m c) := by
  unfold State.ctlIn State.ctlWay
  rw [hb]
  exact Keep.via (State.sat_keep ..) rfl <| Keep.via (State.sat_keep ..) rfl <| (State.take_keep ..).mono rfl

section
variable {s : State} {l scope source seq : Nat}

theorem State.serveReset_ignored (h : s.devState = stHalted ∨ l = 0 ∨ 4 < l) : s.serveReset l scope source seq = s := if_pos h

variable (hs : s.devState ≠ stHalted) (h1 : 1 ≤ l) (h4 : l ≤ 4)
include hs h1 h4

theorem State.serveReset_begins (h : ∀ y ∈ s.rst.resets, (s.askedReset l scope source seq).within y = false) :
    s.serveReset l scope source seq = s.beginReset l scope source seq (l == 3 && source == 2) [] s.wall := by
  have hf : s.rst.resets.find? (fun x => (s.askedReset l scope source seq).within x) = none :=
    List.find?_eq_none.mpr (fun y hy => by rw [h y hy]; decide)
  unfold State.serveReset
  rw [if_neg (by omega), hf]

theorem State.serveReset_joins {y : Reset} (hy : s.rst.resets = [y]) (hw : (s.askedReset l scope source seq).within y = true) :
    s.serveReset l scope source seq = s.joinReset y l scope source seq := by
  have hf : s.rst.resets.find? (fun x => (s.askedReset l scope source seq).within x) = some y := by
    rw [hy, List.find?_cons_of_pos hw]
  unfold State.serveReset
  rw [if_neg (by omega), hf]

end

/-- A polder reset a hang's request joins is counted now (R419). -/
theorem State.joinReset_counts (s : State) {y : Reset} (hy : y.level = 3) (hc : y.counted = false) (scope seq : Nat) :
    s.joinReset y 3 scope 2 seq = ((s.putReset { y with also := y.also ++ [seq], counted := true }).wr Reg.RST_LAST
      (scope * 2 ^ 16 + 2 * 2 ^ 12 + 3 * 16 + 3)).countReset := by
  unfold State.joinReset
  simp only [hy, hc]
  rfl

theorem State.joinReset_plain (s : State) {y : Reset} {l source : Nat}
    (h : l ≠ 3 ∨ source ≠ 2 ∨ y.level ≠ 3 ∨ y.counted = true) (scope seq : Nat) :
    s.joinReset y l scope source seq = (s.putReset { y with also := y.also ++ [seq] }).wr Reg.RST_LAST
      (scope * 2 ^ 16 + source * 2 ^ 12 + 3 * 16 + l) := by
  have hn : (l == 3 && source == 2 && y.level == 3 && !y.counted) = false := by
    rcases h with h | h | h | h <;> simp [h]
  unfold State.joinReset
  simp only [hn, Bool.or_false, Bool.false_eq_true, if_false]

/-- The one reset there is, put back. -/
theorem State.putReset_one {s : State} {y : Reset} (hy : s.rst.resets = [y]) {z : Reset} (hz : z.seq = y.seq) :
    s.putReset z = { s with rst := { s.rst with resets := [z] } } := by
  unfold State.putReset State.setResets
  rw [hy, List.map_cons, if_pos hz.symm, List.map_nil]

theorem State.putReset_resets {s : State} {y : Reset} (hy : s.rst.resets = [y]) {z : Reset} (hz : z.seq = y.seq) :
    (s.putReset z).rst.resets = [z] := by rw [State.putReset_one hy hz]

theorem runs_resetRequest_joins {s : State} {m : CtlMsg} {c : CtlWay} {l scope source seq : Nat} {y : Reset}
    (hx : exec (.resetRequest m c) s = .next ((s.ctlIn m c).joinReset y l scope source seq)) (hb : c.bad = none)
    (hl : l < 8) (hsc : scope < 2 ^ 16) (hso : source < 16) (hy : s.rst.resets = [y])
    (h : l ≠ 3 ∨ source ≠ 2 ∨ y.level ≠ 3 ∨ y.counted = true) :
    Runs (.resetRequest m c) s [.regs, .out, .log, .nodes, .irq, .rst, .logN] (fun t =>
      t.rst.resets = [{ y with also := y.also ++ [seq] }] ∧ t.rd Reg.RST_LAST = scope * 2 ^ 16 + source * 2 ^ 12 + 48 + l) := by
  have hk := s.ctlIn_keep m hb
  have hr : (s.ctlIn m c).rst.resets = [y] := by rw [hk.rst rfl]; exact hy
  rw [State.joinReset_plain _ h] at hx
  refine Runs.of_next hx ?_ (fun i => ⟨?_, ?_⟩)
  · exact (Keep.via (m := 0x3FF7FFFBB) (State.wr_keep ..) rfl <| Keep.via (State.putReset_keep ..) rfl <| hk.mono rfl).alters _ (by decide)
  · exact State.putReset_resets hr rfl
  · rw [State.rd_wr_self ((State.putReset_keep ..).inv (hk.inv i)).regs]
    omega

/-! ### The steps of the one reset there is (R410). -/

theorem State.resetAt_none {s : State} {seq : Nat} (h : s.devState = stHalted ∨ ∀ r ∈ s.rst.resets, r.seq ≠ seq) :
    s.resetAt seq = none := by
  unfold State.resetAt
  rcases h with h | h
  · exact if_pos h
  · have hf : s.rst.resets.find? (fun r => r.seq == seq) = none := List.find?_eq_none.mpr (fun r hr => by simp [h r hr])
    rw [hf, ite_self]

/-- With no such reset, or in HALTED, none of the four steps does anything. -/
theorem exec_reset_none {s : State} {seq : Nat} (h : s.resetAt seq = none) (slow : List Nat) :
    exec (.resetAssert seq) s = .next s ∧ exec (.resetInit seq slow) s = .next s ∧ exec (.resetComplete seq) s = .next s ∧
      exec (.resetTimeout seq) s = .next s := by
  refine ⟨?_, ?_, ?_, ?_⟩
  · show execResetAssert seq s = _; unfold execResetAssert; rw [h]
  · show execResetInit seq slow s = _; unfold execResetInit; rw [h]
  · show execResetComplete seq s = _; unfold execResetComplete; rw [h]
  · show execResetTimeout seq s = _; unfold execResetTimeout; rw [h]

/-- The state with `r` the one reset there is. -/
def State.onlyReset (s : State) (r : Reset) : State := { s with rst := { s.rst with resets := [r] } }

/-- The state with no reset under way. -/
def State.noReset (s : State) : State := { s with rst := { s.rst with resets := [] } }

theorem State.onlyReset_keep (s : State) (r : Reset) : Keep 0x3FF7FFFFF s (s.onlyReset r) := Keep.setRst rfl (Keep.refl _ _)

/-- The one reset there is, a step further. -/
theorem State.putReset_step {s : State} {r : Reset} (hr : s.rst.resets = [r]) (a : RstStep) (w : DWord) :
    s.putReset { r with at_ := a, assertAt := w } = s.onlyReset { r with at_ := a, assertAt := w } :=
  State.putReset_one hr rfl

/-- What the assertion of a reset does (R410 step 5). -/
def State.assertReset (s : State) (r : Reset) : Res :=
  if r.level = 4 then .next (((s.chipReset.wf Reg.CMD_DEV_STATE 2 0 (s.rf Reg.CMD_DEV_STATE 2 0)).endLeases s).flagsGone s)
  else
    let s := r.spins.foldl State.wipeSpindle s
    let s := r.polders.foldl State.wipePolder s
    .next (if 2 ≤ r.level then (r.spins.map domOfPs).dedup.foldl (fun s d => s.setDom d false) s else s)

/-- The chip as its reset leaves it, its device state as before (R407). -/
def State.chipAsserted (s : State) : State := s.chipReset.wf Reg.CMD_DEV_STATE 2 0 (s.rf Reg.CMD_DEV_STATE 2 0)

section
variable {s : State} {seq : Nat} {r : Reset} (hs : s.devState ≠ stHalted) (hr : s.rst.resets = [r]) (hq : r.seq = seq)

include hr hq in
theorem State.drop_oneReset : s.setResets (s.rst.resets.filter (fun x => decide (x.seq ≠ seq))) = s.noReset := by
  unfold State.setResets State.noReset
  rw [hr, List.filter_cons_of_neg (by simp [hq]), List.filter_nil]

include hs hr hq

theorem State.resetAt_one : s.resetAt seq = some r := by
  unfold State.resetAt
  rw [if_neg hs, hr, List.find?_cons_of_pos (by simp [hq])]

theorem exec_resetAssert : exec (.resetAssert seq) s =
    if r.at_ ≠ .closing then .next s else (s.onlyReset { r with at_ := .asserted, assertAt := s.wall }).assertReset r := by
  show execResetAssert seq s = _
  unfold execResetAssert
  rw [State.resetAt_one hs hr hq]
  dsimp only
  rw [State.putReset_step hr]
  rfl

/-- A chip-level assertion leaves what the chip reset leaves (R407, R410). -/
theorem exec_resetAssert_chip (hc : r.at_ = .closing) (h4 : r.level = 4) :
    ∃ x y : State, exec (.resetAssert seq) s = .next ((x.endLeases y).flagsGone y) ∧
      y = s.onlyReset { r with at_ := .asserted, assertAt := s.wall } ∧
      x.mem = [] ∧ x.log = [] ∧ x.now = 0 ∧ x.flash = s.flash ∧ x.fuse = s.fuse ∧ x.wall = s.wall ∧ x.modl = s.modl ∧
      x.freeN = s.freeN ∧ x.rst.chipHeld = true ∧ x.rst.resets = [{ r with at_ := .asserted, assertAt := s.wall }] := by
  refine ⟨(s.onlyReset { r with at_ := .asserted, assertAt := s.wall }).chipAsserted, _, ?_, rfl, rfl, rfl, rfl, rfl, rfl, rfl, rfl, rfl,
    rfl, rfl⟩
  rw [exec_resetAssert hs hr hq, if_neg (not_not.mpr hc)]
  exact if_pos h4

theorem exec_resetAssert_spindles (hc : r.at_ = .closing) (h1 : r.level = 1) : exec (.resetAssert seq) s =
    .next (r.polders.foldl State.wipePolder (r.spins.foldl State.wipeSpindle
      (s.onlyReset { r with at_ := .asserted, assertAt := s.wall }))) := by
  rw [exec_resetAssert hs hr hq, if_neg (not_not.mpr hc)]
  unfold State.assertReset
  dsimp only
  rw [if_neg (by omega), if_neg (by omega)]

/-- A reset that is not asserted, or not for long enough, does not initialize (R410 step 6). -/
theorem exec_resetInit_early (slow : List Nat) (h : r.at_ ≠ .asserted ∨ (r.level = 4 ∧ s.rst.pinLow = true) ∨
    ((r.level = 2 ∨ r.level = 3) ∧ (s.wall - r.assertAt).toNat < 1000)) : exec (.resetInit seq slow) s = .next s := by
  show execResetInit seq slow s = _
  unfold execResetInit
  rw [State.resetAt_one hs hr hq]
  exact if_pos h

theorem exec_resetInit_chip (slow : List Nat) (ha : r.at_ = .asserted) (h4 : r.level = 4) (hp : s.rst.pinLow = false) :
    exec (.resetInit seq slow) s = .next (s.onlyReset { r with at_ := .init }) := by
  show execResetInit seq slow s = _
  unfold execResetInit
  rw [State.resetAt_one hs hr hq]
  dsimp only
  rw [if_neg (by rw [ha, h4, hp]; simp), if_pos h4, State.putReset_step hr]

/-- A spindle comes out of its reset: fenced ones into FENCED, wired ones into IDLE (R410 step 6). -/
def State.outOfReset (s : State) (r : Reset) (ps : Nat) : State :=
  if r.fenced.contains ps then s.setSpnState ps 6 else if s.rf (Reg.SPN_NUM_REV ps) 15 0 ≠ 0 then s.setSpnState ps 0 else s

omit hs hr hq in
theorem State.outOfReset_keep (s : State) (r : Reset) (ps : Nat) : Keep 0x3FFFFFFFB s (s.outOfReset r ps) :=
  Keep.ite (State.setSpnState_keep ..) (Keep.ite (State.setSpnState_keep ..) (Keep.refl _ _))

omit hs hr hq in
theorem State.outOfReset_but (s : State) (r : Reset) (ps : Nat) : s.RegsBut (s.outOfReset r ps) [Reg.SPN_STATE ps] := by
  unfold State.outOfReset
  split
  · exact State.setSpnState_but _ _ _
  · split
    · exact State.setSpnState_but _ _ _
    · exact State.RegsBut.refl _ _

omit hs hr hq in
theorem State.outOfReset_spnState {s : State} (i : s.Inv) (r : Reset) (ps : Nat) : (s.outOfReset r ps).spnState ps =
    if r.fenced.contains ps then 6 else if s.rf (Reg.SPN_NUM_REV ps) 15 0 ≠ 0 then 0 else s.spnState ps := by
  unfold State.outOfReset
  split
  · exact State.spnState_setSpnState i.regs (by decide)
  · split
    · exact State.spnState_setSpnState i.regs (by decide)
    · rfl

theorem runs_resetInit_spindle (slow : List Nat) {ps : Nat} (ha : r.at_ = .asserted) (h1 : r.level = 1) (hp : r.spins = [ps])
    (hd : r.polders = []) :
    Runs (.resetInit seq slow) s [.regs, .rst] (fun t => t.rst.resets = [{ r with at_ := .init }] ∧
      t.spnState ps = (if r.fenced.contains ps then 6 else if s.rf (Reg.SPN_NUM_REV ps) 15 0 ≠ 0 then 0 else s.spnState ps) ∧
      s.RegsBut t [Reg.SPN_STATE ps]) := by
  refine Runs.of_next (t := (s.onlyReset { r with at_ := .init }).outOfReset r ps) ?_ ?_ (fun i => ⟨?_, ?_, ?_⟩)
  · show execResetInit seq slow s = _
    unfold execResetInit
    rw [State.resetAt_one hs hr hq]
    dsimp only
    rw [if_neg (by rw [ha, h1]; simp), if_neg (by omega), if_neg (by omega), State.putReset_step hr, hp, hd]
    rfl
  · exact (Keep.via (m := 0x3FF7FFFFB) (State.outOfReset_keep ..) rfl ((s.onlyReset_keep _).mono rfl)).alters _ (by decide)
  · exact congrArg Rst.resets ((State.outOfReset_keep ..).rst rfl)
  · exact State.outOfReset_spnState ((s.onlyReset_keep _).inv i) r ps
  · exact State.outOfReset_but _ r ps

theorem exec_resetComplete_early (h : s.resetDone r = false) : exec (.resetComplete seq) s = .next s := by
  show execResetComplete seq s = _
  unfold execResetComplete
  rw [State.resetAt_one hs hr hq]
  exact if_pos h

theorem exec_resetComplete (h : s.resetDone r = true) : exec (.resetComplete seq) s =
    if r.level = 4 then .next (({ s.noReset with boot := { began := s.wall, at_ := s.wall } } : State).setDev stBringup 0x0702)
    else .next
      (let x := (r.spins.foldl State.syncStop (r.spins.foldl State.toTest s.noReset)).syncUnits (r.polders.map crossbarStop)
       let y := (x.rebuild.event 0x0703 r.scope 0 [(16, 1, r.level), (17, 4, (x.wall - r.start).toNat)]).wf Reg.RST_LAST 5 4 1
       (r.seq :: r.also).foldl (fun s n => s.answerReset n r.level) y) := by
  show execResetComplete seq s = _
  unfold execResetComplete
  rw [State.resetAt_one hs hr hq]
  dsimp only
  rw [if_neg (by rw [h]; decide), State.drop_oneReset hr hq]
  rfl

/-! ### RESET_TIMEOUT (R412, R414). -/

/-- The limit of a reset's level. -/
def State.resetLimit (s : State) (r : Reset) : Nat :=
  s.rd (if r.level = 1 then Reg.RST_TMO1 else if r.level = 2 then Reg.RST_TMO2 else if r.level = 3 then Reg.RST_TMO3 else Reg.RST_TMO4)

theorem exec_resetTimeout_early (h : (s.wall - r.timer).toNat < s.resetLimit r ∨ s.resetDone r = true ∨
    (r.level = 4 ∧ s.rst.pinLow = true)) : exec (.resetTimeout seq) s = .next s := by
  show execResetTimeout seq s = _
  unfold execResetTimeout
  rw [State.resetAt_one hs hr hq]
  exact if_pos h

/-- An expiry, recorded (R412). -/
def State.resetMissed (s : State) (r : Reset) : State :=
  ((s.noReset.event 0x0704 r.scope 2 [(16, 1, r.level), (17, 1, r.at_.code)]).sat Reg.RST_ESC_CNT 1).wf Reg.RST_LAST 5 4 2

theorem exec_resetTimeout_halts (ht : s.resetLimit r ≤ (s.wall - r.timer).toNat) (hd : s.resetDone r = false) (h4 : r.level = 4)
    (hp : s.rst.pinLow = false) :
    exec (.resetTimeout seq) s = .next (({ s with rst := { s.rst with resets := [], chipHeld := false } } : State).halt 0x0704) := by
  show execResetTimeout seq s = _
  unfold execResetTimeout
  rw [State.resetAt_one hs hr hq]
  refine (if_neg ?_).trans ?_
  · rintro (h | h | ⟨_, h⟩)
    · exact absurd ht (Nat.not_le.mpr h)
    · rw [hd] at h; cases h
    · rw [hp] at h; cases h
  · dsimp only
    rw [if_pos h4, State.drop_oneReset hr hq]
    rfl

theorem exec_resetTimeout_escalates (ht : s.resetLimit r ≤ (s.wall - r.timer).toNat) (hd : s.resetDone r = false) (h3 : r.level = 3) :
    exec (.resetTimeout seq) s = .next ((s.resetMissed r).beginReset 4 devUnit 3 seq false r.also r.start) := by
  have he : ∀ x : State, x.escalated r = [(4, devUnit)] := by
    intro x
    unfold State.escalated
    rw [h3]
    rfl
  show execResetTimeout seq s = _
  unfold execResetTimeout
  rw [State.resetAt_one hs hr hq]
  refine (if_neg ?_).trans ?_
  · rintro (h | h | ⟨h, _⟩)
    · exact absurd ht (Nat.not_le.mpr h)
    · rw [hd] at h; cases h
    · omega
  · dsimp only
    rw [if_neg (by omega), State.drop_oneReset hr hq, he, ← hq]
    unfold State.resetMissed
    rw [h3]
    rfl

end

/-- A register reads as written in any state, where the value written is not its reset value. -/
theorem State.reg_setReg_of_ne (s : State) {a : Nat} {v : Word} (hv : v ≠ regReset a) : (s.setReg a v).reg a = v := by
  have hne : v ^^^ regReset a ≠ 0 := fun h => hv (BitVec.xor_eq_zero_iff.mp h)
  unfold State.reg State.setReg
  dsimp only
  rw [tget_tset_eq hne, BitVec.xor_assoc, BitVec.xor_self, BitVec.xor_zero]

/-- A field reads as written in any state, where its register resets to 0 and the value written is not 0. -/
theorem State.rf_wf_ne_zero {s : State} {a hi lo v : Nat} (ha : regReset a = 0) (hl : lo ≤ hi) (hh : hi < 32)
    (hv : v % 2 ^ (hi + 1 - lo) ≠ 0) : (s.wf a hi lo v).rf a hi lo = v % 2 ^ (hi + 1 - lo) := by
  have hlt : setBits (s.rd a) hi lo v < 2 ^ 32 := setBits_lt hl hh (s.rd_lt a)
  have hne : BitVec.ofNat 32 (setBits (s.rd a) hi lo v) ≠ regReset a := by
    intro h
    have h0 : setBits (s.rd a) hi lo v = 0 := by
      have h := congrArg BitVec.toNat h
      rwa [ha, BitVec.toNat_ofNat, Nat.mod_eq_of_lt hlt] at h
    have hb := bitsOf_setBits_self (s.rd a) hi lo v
    rw [h0] at hb
    exact hv (hb.symm.trans (by simp [bitsOf]))
  unfold State.rf State.rd State.wf State.wr
  rw [State.reg_setReg_of_ne _ hne, BitVec.toNat_ofNat, Nat.mod_eq_of_lt hlt, bitsOf_setBits_self]

theorem State.resetMissed_shows (s : State) (r : Reset) : (s.resetMissed r).rst.resets = [] ∧
    (s.resetMissed r).rf Reg.RST_LAST 5 4 = 2 ∧
    (s.EventRoom 0x0704 r.scope →
      (s.resetMissed r).Recorded (s.eventRec 0x0704 r.scope 2 [(16, 1, r.level), (17, 1, r.at_.code)])) := by
  refine ⟨congrArg Rst.resets ((State.event_keep ..).rst rfl), State.rf_wf_ne_zero (by decide +kernel) (by decide) (by decide) (by decide),
    fun h => ?_⟩
  exact (State.event_recorded (s := s.noReset) (code := 0x0704) (unit := r.scope) h _ _).keep
    ((State.sat_keep ..).trans (State.wf_keep ..)) rfl

/-! ### SYS_RESET_N (R414). -/

theorem exec_sysResetNAssert_ignored {s : State} (h : s.off = true ∨ s.devState = stHalted ∨ s.rst.pinLow = true) :
    exec .sysResetNAssert s = .next s := if_pos h

theorem runs_sysResetNAssert {s : State} (ho : s.off = false) (hs : s.devState ≠ stHalted) (hp : s.rst.pinLow = false) :
    Runs .sysResetNAssert s [.out, .rst] (fun t => t.rst.pinLow = true ∧ t.rst.resets = s.rst.resets ∧
      t.rst.seqNo = (s.rst.seqNo + 1) % 2 ^ 24 ∧
      .ctl { cls := 0, dst := 35, src := 0, words := [4 * 2 ^ 44 + devUnit * 2 ^ 28 + 5 * 2 ^ 24 + s.rst.seqNo] } ∈ t.out) := by
  refine Runs.of_next (t := (({ s with rst := { s.rst with pinLow := true } } : State).requestReset 4 devUnit 5).2)
    (if_neg (by simp [ho, hs, hp])) ?_ (fun _ => ⟨rfl, rfl, rfl, ?_⟩)
  · exact (Keep.via (m := 0x3FF7FFFBF) (State.requestReset_keep ..) rfl (Keep.setRst rfl (Keep.refl _ _))).alters _ (by decide)
  · exact List.mem_append_right _ (List.mem_singleton.mpr rfl)

/-- The pin is high again, and the timers of chip-level resets start (R414). -/
def Rst.pinUp (x : Rst) (wall : DWord) : Rst :=
  { x with pinLow := false, resets := x.resets.map (fun r => if r.level = 4 then { r with timer := wall } else r) }

theorem runs_sysResetNRelease_low {s : State} {width : Nat} (hp : s.rst.pinLow = true) :
    Runs (.sysResetNRelease width) s [.rst] (fun t => t.rst = s.rst.pinUp s.wall) :=
  Runs.of_next (t := { s with rst := s.rst.pinUp s.wall }) (if_pos hp)
    ((Keep.setRst (m := 0x3FF7FFFFF) rfl (Keep.refl _ _)).alters _ (by decide)) (fun _ => rfl)

theorem exec_sysResetNRelease_ignored {s : State} {width : Nat} (hp : s.rst.pinLow = false)
    (h : s.off = true ∨ s.devState = stHalted ∨ 100 ≤ width) : exec (.sysResetNRelease width) s = .next s :=
  (if_neg (by rw [hp]; decide)).trans (if_pos h)

theorem runs_sysResetNRelease_short {s : State} {width : Nat} (hp : s.rst.pinLow = false) (ho : s.off = false)
    (hs : s.devState ≠ stHalted) (hw : width < 100) :
    Runs (.sysResetNRelease width) s [.regs, .log, .nodes, .irq, .logN] (fun t =>
      s.EventRoom 0x070C devUnit → t.Recorded (s.eventRec 0x070C devUnit 1 [(16, 2, width)])) :=
  Runs.of_next ((if_neg (by rw [hp]; decide)).trans (if_neg (by simp [ho, hs]; omega))) ((State.event_keep ..).alters _ (by decide))
    (fun _ hr => State.event_recorded hr _ _)

/-! ### FAB_OP_TIMEOUT (R320, R417). -/

/-- The operation has left the table, with its event (R320). -/
def State.opPast (s : State) (o : FabOp) : State :=
  (s.dropOp o).event 0x0520 devUnit 2 [(16, 1, o.type), (17, 2, o.dcoord), (19, 1, o.dep), (20, 3, o.op)]

theorem exec_fabOpTimeout_none {s : State} {sep op : Nat} (h : s.fab.ops.find? (fun o => o.sep == sep && o.op == op) = none) :
    exec (.fabOpTimeout sep op) s = .next s := by
  show execFabOpTimeout sep op s = _
  unfold execFabOpTimeout
  rw [h]

section
variable {s : State} {sep op : Nat} {o : FabOp} (h : s.fab.ops.find? (fun o => o.sep == sep && o.op == op) = some o)
include h

theorem exec_fabOpTimeout_early (he : (s.now - o.first).toNat < s.rd Reg.FAB_OP_TMO ∨ s.answerWaits o = true) :
    exec (.fabOpTimeout sep op) s = .next s := by
  show execFabOpTimeout sep op s = _
  unfold execFabOpTimeout
  rw [h]
  exact if_pos he

variable (ht : s.rd Reg.FAB_OP_TMO ≤ (s.now - o.first).toNat) (ha : s.answerWaits o = false)
include ht ha

/-- What an expiry does beside its event goes by the issuer. -/
theorem exec_fabOpTimeout :
    (∀ ps n, o.who = .dispatch ps n →
      exec (.fabOpTimeout sep op) s = .next (((s.opPast o).modSpn ps (fun y => y.opAnswered n)).countFtmo ps o.dcoord)) ∧
    (o.who = .ckpt → exec (.fabOpTimeout sep op) s = .next ((s.opPast o).ckptFail 2 o.dcoord).payRunning) ∧
    (o.who = .restore → exec (.fabOpTimeout sep op) s = .next ((s.opPast o).restoreFail 3)) ∧
    (o.who = .stray → exec (.fabOpTimeout sep op) s = .next (s.opPast o)) := by
  have hn : ¬((s.now - o.first).toNat < s.rd Reg.FAB_OP_TMO ∨ s.answerWaits o = true) := by
    rw [ha]
    rintro (h | h)
    · omega
    · cases h
  show (∀ ps n, _ → execFabOpTimeout sep op s = _) ∧ (_ → execFabOpTimeout sep op s = _) ∧ (_ → execFabOpTimeout sep op s = _) ∧
    (_ → execFabOpTimeout sep op s = _)
  unfold execFabOpTimeout
  rw [h]
  dsimp only
  rw [if_neg hn]
  refine ⟨fun ps n hw => ?_, fun hw => ?_, fun hw => ?_, fun hw => ?_⟩ <;> rw [hw] <;> rfl

theorem runs_fabOpTimeout_stray (hw : o.who = .stray) :
    Runs (.fabOpTimeout sep op) s [.regs, .log, .nodes, .irq, .fab, .logN] (fun t =>
      t.fab.ops = s.fab.ops.filter (fun y => decide (y ≠ o)) ∧
      (s.EventRoom 0x0520 devUnit → t.Recorded (s.eventRec 0x0520 devUnit 2
        [(16, 1, o.type), (17, 2, o.dcoord), (19, 1, o.dep), (20, 3, o.op)]))) := by
  obtain ⟨_, _, _, hx⟩ := exec_fabOpTimeout h ht ha
  refine Runs.of_next (hx hw) ?_ (fun _ => ⟨congrArg Fab.ops ((State.event_keep ..).fab rfl), fun hr => ?_⟩)
  · exact (Keep.via (m := 0x3EFF9FCFB) (State.event_keep ..) rfl ((s.dropOp_keep o).mono rfl)).alters _ (by decide)
  · exact State.event_recorded (s := s.dropOp o) (code := 0x0520) (unit := devUnit) hr _ _

end

/-- Settles O35: each clause is the rule of its command. -/
theorem resetsComplete : Obligations.ResetsComplete := by
  refine ⟨fun s m c h => exec_resetRequest_other h c s, ?request, ?none, ?steps, ?pin, ?release, fun _ _ _ => exec_fabOpTimeout_none, ?fab⟩
  case request =>
    intro s m c l scope source seq hc hd hsrc hb hl hsc hso hsq hw x r
    have hx : exec (.resetRequest m c) s = .next (x.serveReset l scope source seq) := exec_resetRequest s hc hd hsrc hb hl hsc hso hsq hw
    have hr : x.rst.resets = s.rst.resets := congrArg Rst.resets ((s.ctlIn_keep m hb).rst rfl)
    refine ⟨fun h => ?_, fun hs h1 h4 hn => ?_, fun y hs h1 h4 hy hin => ⟨fun h3 h2 hy3 hyc => ?_, fun hp => ?_⟩⟩
    · rw [hx, State.serveReset_ignored h]
    · rw [hx, State.serveReset_begins hs h1 h4 (hr ▸ hn)]
    · rw [hx, State.serveReset_joins hs h1 h4 (hr.trans hy) hin, h3, h2, State.joinReset_counts _ hy3 hyc]
    · rw [State.serveReset_joins hs h1 h4 (hr.trans hy) hin] at hx
      exact runs_resetRequest_joins hx hb hl hsc hso hy hp
  case none => exact fun s seq slow h => exec_reset_none (State.resetAt_none h) slow
  case steps =>
    intro s seq slow r hs hr hq
    refine ⟨fun ha => ?_, exec_resetAssert_chip hs hr hq, exec_resetAssert_spindles hs hr hq,
      fun ha => exec_resetInit_early hs hr hq slow (.inl ha), fun hl hw => exec_resetInit_early hs hr hq slow (.inr (.inr ⟨hl, hw⟩)),
      fun _ h4 hp => exec_resetInit_early hs hr hq slow (.inr (.inl ⟨h4, hp⟩)), exec_resetInit_chip hs hr hq slow,
      fun ps ha h1 hp _ hd => runs_resetInit_spindle hs hr hq slow ha h1 hp hd, exec_resetComplete_early hs hr hq, fun hd h4 => ?_,
      fun hd h4 => ?_, exec_resetTimeout_early hs hr hq, fun ht hd h4 hp => exec_resetTimeout_halts hs hr hq ht hd h4 hp,
      fun ht hd h3 => ⟨s.resetMissed r, exec_resetTimeout_escalates hs hr hq ht hd h3, ?_⟩⟩
    · rw [exec_resetAssert hs hr hq]; exact if_pos ha
    · rw [exec_resetComplete hs hr hq hd]; exact if_pos h4
    · rw [exec_resetComplete hs hr hq hd]; exact if_neg h4
    · obtain ⟨h0, h1, h2⟩ := s.resetMissed_shows r
      rw [h3] at h2
      exact ⟨h0, h1, fun _ => h2⟩
  case pin => exact fun s => ⟨exec_sysResetNAssert_ignored, runs_sysResetNAssert⟩
  case release =>
    exact fun s width => ⟨runs_sysResetNRelease_low, exec_sysResetNRelease_ignored, runs_sysResetNRelease_short⟩
  case fab =>
    refine fun s sep op o h => ⟨exec_fabOpTimeout_early h, fun ht ha => ?_⟩
    obtain ⟨h1, h2, h3, _⟩ := exec_fabOpTimeout h ht ha
    exact ⟨h1, h2, h3, runs_fabOpTimeout_stray h ht ha⟩

end Sys2Proof.Machine
end

section
/-! SUPPORT. Power windows, temperatures, domains and telemetry (R466 to R473), each command from its rule. -/

namespace Sys2Proof.Machine

/-! ### A field that keeps its value. -/

/-- A well-kept state in which a field reads `n`. -/
structure State.Shows (s : State) (a hi lo n : Nat) : Prop where
  inv : s.Inv
  reads : s.rf a hi lo = n

section
variable {s t : State} {a hi lo n : Nat}

theorem State.Shows.of_but {m : Nat} {l : List Nat} (h : s.Shows a hi lo n) (k : Keep m s t) (b : s.RegsBut t l) (ha : a ∉ l) :
    t.Shows a hi lo n := ⟨k.inv h.inv, (b.rf ha hi lo).trans h.reads⟩

theorem State.Shows.of_regs {m : Nat} (h : s.Shows a hi lo n) (k : Keep m s t) (hm : m.testBit 2 = true) : t.Shows a hi lo n :=
  ⟨k.inv h.inv, (State.rf_congr (k.regs hm) a hi lo).trans h.reads⟩

theorem State.Shows.wf_other (h : s.Shows a hi lo n) {b : Nat} (hb : a ≠ b) (hi' lo' v : Nat) : (s.wf b hi' lo' v).Shows a hi lo n :=
  h.of_but (State.wf_keep ..) (s.wf_but b hi' lo' v) (by simpa using hb)

theorem State.Shows.wf_disjoint (h : s.Shows a hi lo n) {hi' lo' : Nat} (hl : lo' ≤ hi') (hh : hi' < 32) (hd : hi < lo' ∨ hi' < lo)
    (v : Nat) : (s.wf a hi' lo' v).Shows a hi lo n :=
  ⟨(State.wf_keep ..).inv h.inv, (State.rf_wf_disjoint h.inv.regs hl hh hd).trans h.reads⟩

theorem State.Inv.shows_wf (i : s.Inv) (a : Nat) {hi lo v : Nat} (hl : lo ≤ hi) (hh : hi < 32) (hv : v < 2 ^ (hi + 1 - lo)) :
    (s.wf a hi lo v).Shows a hi lo v :=
  ⟨(State.wf_keep ..).inv i, (State.rf_wf_self i.regs hl hh).trans (Nat.mod_eq_of_lt hv)⟩

theorem State.Shows.event (h : s.Shows a hi lo n) (ha : a ≠ Reg.CNET_EVT_LOST) (code unit sev : Nat) (data : List (Nat × Nat × Nat)) :
    (s.event code unit sev data).Shows a hi lo n :=
  h.of_but (State.event_keep ..) (s.event_but code unit sev data) (by simpa using ha)

end

/-! ### Changes of F asked for (R459, R461). -/

theorem State.syncClk_but (s : State) : s.RegsBut s.syncClk [Reg.CLK_PLAN, Reg.CLK_ST] :=
  (s.wf_but _ _ _ _).append (State.wf_but _ _ _ _ _)

theorem State.askFreq_but (s : State) (cause : Nat) (isForced : Bool) : s.RegsBut (s.askFreq cause isForced) [Reg.CLK_PLAN, Reg.CLK_ST] := by
  unfold State.askFreq
  dsimp only
  split
  · exact State.syncClk_but { s with clk := _ }
  · split
    · exact State.syncClk_but { s with clk := _ }
    · exact State.syncClk_but { s with clk := _ }

/-- A reduction of F set, and the change it asks for (R459). -/
def State.reduce (s : State) (hi lo n cause : Nat) (isForced : Bool) : State := (s.wf Reg.CLK_REDUCE hi lo n).askFreq cause isForced

theorem State.reduce_keep (s : State) (hi lo n cause : Nat) (isForced : Bool) : Keep 0x3FFEFFFFB s (s.reduce hi lo n cause isForced) :=
  Keep.via (State.askFreq_keep ..) rfl ((State.wf_keep ..).mono rfl)

theorem State.reduce_but (s : State) (hi lo n cause : Nat) (isForced : Bool) :
    s.RegsBut (s.reduce hi lo n cause isForced) [Reg.CLK_REDUCE, Reg.CLK_PLAN, Reg.CLK_ST] :=
  (s.wf_but _ _ _ _).append (State.askFreq_but _ _ _)

theorem State.reduce_shows {s : State} (i : s.Inv) {hi lo n : Nat} (hl : lo ≤ hi) (hh : hi < 32) (hn : n < 2 ^ (hi + 1 - lo)) (cause : Nat)
    (isForced : Bool) : (s.reduce hi lo n cause isForced).rf Reg.CLK_REDUCE hi lo = n :=
  (i.shows_wf Reg.CLK_REDUCE hl hh hn |>.of_but (State.askFreq_keep ..) (State.askFreq_but _ cause isForced) (by decide)).reads

/-! ### POWER_AVG_1MS and CAP_WINDOW_END (R470 to R472). -/

/-- The sample shown and summed. -/
def State.powerSample (s : State) (w : Nat) : State :=
  { s.wf Reg.PWR_IN 15 0 w with pwr := { s.pwr with capSum := s.pwr.capSum + w, capN := s.pwr.capN + 1 } }

theorem State.powerSample_keep (s : State) (w : Nat) : Keep 0x3FFDFFFFB s (s.powerSample w) :=
  Keep.setPwr rfl ((State.wf_keep ..).mono rfl)

theorem State.powerSample_but (s : State) (w : Nat) : s.RegsBut (s.powerSample w) [Reg.PWR_IN] := s.wf_but _ _ _ _

theorem State.powerSample_shows {s : State} (i : s.Inv) (w : BitVec 16) : (s.powerSample w.toNat).Shows Reg.PWR_IN 15 0 w.toNat :=
  (i.shows_wf Reg.PWR_IN (by decide) (by decide) w.isLt).of_regs (Keep.setPwr (m := 0x3FFDFFFFF) rfl (Keep.refl _ _)) rfl

/-- The count of windows below nine tenths since the last one over the cap (R472). -/
def State.setSince (s : State) (n : Nat) : State := { s with pwr := { s.pwr with capSince := n } }

theorem State.setSince_keep (s : State) (n : Nat) : Keep 0x3FFDFFFFF s (s.setSince n) := Keep.setPwr rfl (Keep.refl _ _)

theorem State.setSince_but (s : State) (n : Nat) (l : List Nat) : s.RegsBut (s.setSince n) l := State.RegsBut.of_regs rfl l

theorem State.setSince_pwr (s : State) (n : Nat) : (s.setSince n).pwr = { s.pwr with capSince := n } := rfl

/-- An overshoot told, and the count of windows begun again. -/
def State.overshoot (s : State) (w : Nat) : State := (s.event 0x0107 devUnit 1 [(16, 1, 2), (17, 2, w)]).setSince 0

theorem exec_powerAvg1ms (s : State) (w : BitVec 16) : exec (.powerAvg1ms w) s =
    if 11 * s.effCap < 10 * w.toNat then .next (((s.powerSample w.toNat).overshoot w.toNat).reduce 15 8
      (min 18 (((s.powerSample w.toNat).overshoot w.toNat).powerSteps + 1)) 4 true)
    else .next (s.powerSample w.toNat) := by
  have he : (s.powerSample w.toNat).effCap = s.effCap := (s.powerSample_but _).rf (by decide) _ _
  rw [← he]
  rfl

theorem runs_powerAvg1ms_within {s : State} {w : BitVec 16} (h : 10 * w.toNat ≤ 11 * s.effCap) :
    Runs (.powerAvg1ms w) s [.regs, .pwr] (fun t => t.rf Reg.PWR_IN 15 0 = w.toNat ∧ s.RegsBut t [Reg.PWR_IN] ∧
      t.pwr = { s.pwr with capSum := s.pwr.capSum + w.toNat, capN := s.pwr.capN + 1 }) :=
  Runs.of_next ((exec_powerAvg1ms s w).trans (if_neg (by omega))) ((s.powerSample_keep _).alters _ (by decide))
    (fun i => ⟨(State.powerSample_shows i w).reads, s.powerSample_but _, rfl⟩)

theorem State.overshoot_keep (s : State) (w : Nat) : Keep 0x3EFDDFCFB s (s.overshoot w) :=
  Keep.via (State.setSince_keep ..) rfl ((State.event_keep ..).mono rfl)

theorem State.overshoot_but (s : State) (w : Nat) : s.RegsBut (s.overshoot w) [Reg.CNET_EVT_LOST] :=
  (s.event_but _ _ _ _).trans (State.setSince_but _ _ _)

theorem State.overshoot_pwr (s : State) (w : Nat) : (s.overshoot w).pwr = { s.pwr with capSince := 0 } := by
  unfold State.overshoot
  rw [State.setSince_pwr, (State.event_keep ..).pwr rfl]

theorem runs_powerAvg1ms_over {s : State} {w : BitVec 16} (h : 11 * s.effCap < 10 * w.toNat) :
    Runs (.powerAvg1ms w) s [.regs, .log, .nodes, .irq, .clk, .pwr, .logN] (fun t => t.rf Reg.PWR_IN 15 0 = w.toNat ∧
      t.powerSteps = min 18 (s.powerSteps + 1) ∧ t.clk.reqs = { cause := 4, isForced := true } :: s.clk.reqs ∧
      t.pwr = { s.pwr with capSum := s.pwr.capSum + w.toNat, capN := s.pwr.capN + 1, capSince := 0 } ∧
      (s.EventRoom 0x0107 devUnit → t.Recorded (s.eventRec 0x0107 devUnit 1 [(16, 1, 2), (17, 2, w.toNat)]))) := by
  have hk := Keep.via (m := 0x3EFDDFCFB) (State.overshoot_keep (s.powerSample w.toNat) w.toNat) rfl ((s.powerSample_keep _).mono rfl)
  have hb := (s.powerSample_but w.toNat).append ((s.powerSample w.toNat).overshoot_but w.toNat)
  have hsteps : ((s.powerSample w.toNat).overshoot w.toNat).powerSteps = s.powerSteps := hb.rf (by decide) _ _
  refine Runs.of_next ((exec_powerAvg1ms s w).trans (if_pos h)) ?_ (fun i => ⟨?_, ?_, ?_, ?_, fun hr => ?_⟩)
  · exact (Keep.via (m := 0x3EFCDFCFB) (State.reduce_keep ..) rfl (hk.mono rfl)).alters _ (by decide)
  · rw [(State.reduce_but _ _ _ _ _ _).rf (by decide), (State.overshoot_but _ _).rf (by decide)]
    exact (State.powerSample_shows i w).reads
  · rw [hsteps]
    exact State.reduce_shows (hk.inv i) (by decide) (by decide) (by omega) 4 true
  · exact congrArg (_ :: ·) (congrArg Clk.reqs (hk.clk rfl))
  · rw [(State.reduce_keep ..).pwr rfl, State.overshoot_pwr]
    rfl
  · refine State.Recorded.keep ?_ (State.reduce_keep ..) rfl
    exact (State.event_recorded_of_same (t := s.powerSample w.toNat) hr rfl
      (State.runCtx_of_but (s.powerSample_but _) (by decide)) rfl rfl _ _).keep (State.setSince_keep ..) rfl

/-- A window of the cap begins at tick `t` (R472). -/
def State.windowAt (s : State) (t : DWord) : State := { s with pwr := { s.pwr with capAt := t, capSum := 0, capN := 0 } }

theorem State.windowAt_keep (s : State) (t : DWord) : Keep 0x3FFDFFFFF s (s.windowAt t) := Keep.setPwr rfl (Keep.refl _ _)

theorem State.windowAt_effCap (s : State) (t : DWord) : (s.windowAt t).effCap = s.effCap := State.rf_congr ((s.windowAt_keep t).regs rfl) _ _ _

theorem State.windowAt_steps (s : State) (t : DWord) : (s.windowAt t).powerSteps = s.powerSteps :=
  State.rf_congr ((s.windowAt_keep t).regs rfl) _ _ _

theorem State.windowAt_pwr (s : State) (t : DWord) : (s.windowAt t).pwr = { s.pwr with capAt := t, capSum := 0, capN := 0 } := rfl

/-- The next window of the cap begins (R472). -/
def State.nextWindow (s : State) : State := s.windowAt (s.pwr.capAt + 1000000)

theorem State.windowAt_capSince (s : State) (t : DWord) : (s.windowAt t).pwr.capSince = s.pwr.capSince := rfl

theorem State.nextWindow_capSince (s : State) : s.nextWindow.pwr.capSince = s.pwr.capSince := s.windowAt_capSince _

theorem State.nextWindow_keep (s : State) : Keep 0x3FFDFFFFF s s.nextWindow := s.windowAt_keep _

theorem State.nextWindow_effCap (s : State) : s.nextWindow.effCap = s.effCap := s.windowAt_effCap _

theorem State.nextWindow_steps (s : State) : s.nextWindow.powerSteps = s.powerSteps := s.windowAt_steps _

theorem State.nextWindow_pwr (s : State) : s.nextWindow.pwr = { s.pwr with capAt := s.pwr.capAt + 1000000, capSum := 0, capN := 0 } :=
  s.windowAt_pwr _

theorem State.nextWindow_since (s : State) (n : Nat) : (s.nextWindow.setSince n).pwr =
    { s.pwr with capAt := s.pwr.capAt + 1000000, capSum := 0, capN := 0, capSince := n } :=
  (State.setSince_pwr _ _).trans (by rw [s.nextWindow_pwr])

/-- A window over the cap told and counted. -/
def State.windowOver (s : State) (w : Nat) : State :=
  ((s.event 0x0107 devUnit 1 [(16, 1, 1), (17, 2, w)]).sat Reg.PWR_OVER_CNT 1).setSince 0

theorem State.windowOver_keep (s : State) (w : Nat) : Keep 0x3EFDDFCFB s (s.windowOver w) :=
  Keep.via (State.setSince_keep ..) rfl <| Keep.via (State.sat_keep ..) rfl <| (State.event_keep ..).mono rfl

theorem State.windowOver_but (s : State) (w : Nat) : s.RegsBut (s.windowOver w) [Reg.CNET_EVT_LOST, Reg.PWR_OVER_CNT] :=
  ((s.event_but _ _ _ _).append (State.sat_but _ _ _)).trans (State.setSince_but _ _ _)

theorem State.windowOver_pwr (s : State) (w : Nat) : (s.windowOver w).pwr = { s.pwr with capSince := 0 } := by
  unfold State.windowOver
  rw [State.setSince_pwr, State.sat_pwr, (State.event_keep ..).pwr rfl]

theorem State.windowOver_count {s : State} (i : s.Inv) (w : Nat) :
    (s.windowOver w).rd Reg.PWR_OVER_CNT = min (s.rd Reg.PWR_OVER_CNT + 1) 0xFFFFFFFF := by
  unfold State.windowOver
  rw [(State.setSince_but _ 0 []).rd (by simp), State.rd_sat_self ((State.event_keep ..).inv i).regs, (s.event_but _ _ _ _).rd (by decide)]
  rfl

/-- What the power of the window just over, in the state of the next one, brings about (R472). -/
def State.judgeWindow (u : State) (sum n : Nat) : Res :=
  if n * u.effCap < sum then .next ((u.windowOver (sum / n)).reduce 15 8 (min 18 ((u.windowOver (sum / n)).powerSteps + 1)) 4 false)
  else if 10 * sum < 9 * u.effCap * n ∧ 0 < u.powerSteps then
    if 100 ≤ u.pwr.capSince + 1 then .next ((u.setSince 0).reduce 15 8 ((u.setSince 0).powerSteps - 1) 8 false)
    else .next (u.setSince (u.pwr.capSince + 1))
  else .next u

section
variable {s : State}

theorem exec_capWindowEnd_early (h : (s.now - s.pwr.capAt).toNat < 1000000) : exec .capWindowEnd s = .next s :=
  if_neg (by omega)

variable (h : 1000000 ≤ (s.now - s.pwr.capAt).toNat)
include h

theorem exec_capWindowEnd_judge : exec .capWindowEnd s = s.nextWindow.judgeWindow s.pwr.capSum s.pwr.capN := by
  show execCapWindowEnd s = _
  unfold execCapWindowEnd State.nextWindow
  rw [if_pos h]
  -- the next window's tick is kept opaque: comparing it by evaluation is costly
  obtain ⟨t, ht⟩ : ∃ t, t = s.pwr.capAt + 1000000 := ⟨_, rfl⟩
  rw [← ht]
  rfl

theorem exec_capWindowEnd : exec .capWindowEnd s =
    if s.pwr.capN * s.effCap < s.pwr.capSum then
      .next ((s.nextWindow.windowOver (s.pwr.capSum / s.pwr.capN)).reduce 15 8
        (min 18 ((s.nextWindow.windowOver (s.pwr.capSum / s.pwr.capN)).powerSteps + 1)) 4 false)
    else if 10 * s.pwr.capSum < 9 * s.effCap * s.pwr.capN ∧ 0 < s.powerSteps then
      if 100 ≤ s.pwr.capSince + 1 then .next ((s.nextWindow.setSince 0).reduce 15 8 ((s.nextWindow.setSince 0).powerSteps - 1) 8 false)
      else .next (s.nextWindow.setSince (s.pwr.capSince + 1))
    else .next s.nextWindow := by
  rw [exec_capWindowEnd_judge h]
  unfold State.judgeWindow
  rw [s.nextWindow_effCap, s.nextWindow_steps, s.nextWindow_capSince]

theorem runs_capWindowEnd_over (ho : s.pwr.capN * s.effCap < s.pwr.capSum) :
    Runs .capWindowEnd s [.regs, .log, .nodes, .irq, .clk, .pwr, .logN] (fun t =>
      t.pwr = { s.pwr with capAt := s.pwr.capAt + 1000000, capSum := 0, capN := 0, capSince := 0 } ∧ t.powerSteps = min 18 (s.powerSteps + 1) ∧
      t.rd Reg.PWR_OVER_CNT = min (s.rd Reg.PWR_OVER_CNT + 1) 0xFFFFFFFF ∧
      (s.EventRoom 0x0107 devUnit → t.Recorded (s.eventRec 0x0107 devUnit 1 [(16, 1, 1), (17, 2, s.pwr.capSum / s.pwr.capN)]))) := by
  have hk := s.nextWindow.windowOver_keep (s.pwr.capSum / s.pwr.capN)
  have hsteps : (s.nextWindow.windowOver (s.pwr.capSum / s.pwr.capN)).powerSteps = s.powerSteps :=
    ((s.nextWindow.windowOver_but _).rf (by decide) _ _).trans s.nextWindow_steps
  refine Runs.of_next ((exec_capWindowEnd h).trans (if_pos ho)) ?_ (fun i => ⟨?_, ?_, ?_, fun hr => ?_⟩)
  · exact (Keep.via (m := 0x3EFCDFCFB) (State.reduce_keep ..) rfl <| Keep.via hk rfl <| s.nextWindow_keep.mono rfl).alters _ (by decide)
  · rw [(State.reduce_keep ..).pwr rfl, State.windowOver_pwr, State.nextWindow_pwr]
  · rw [hsteps]
    exact State.reduce_shows (hk.inv (s.nextWindow_keep.inv i)) (by decide) (by decide) (by omega) 4 false
  · rw [(State.reduce_but _ _ _ _ _ _).rd (by decide)]
    exact (State.windowOver_count (s.nextWindow_keep.inv i) _).trans
      (congrArg (fun n => min (n + 1) 0xFFFFFFFF) (State.rd_congr (s.nextWindow_keep.regs rfl) _))
  · refine State.Recorded.keep ?_ (State.reduce_keep ..) rfl
    exact (State.event_recorded_of_same (t := s.nextWindow) hr (s.nextWindow_keep.now rfl)
      (State.runCtx_of_but (State.RegsBut.of_regs (s.nextWindow_keep.regs rfl) []) (by decide)) (s.nextWindow_keep.log rfl)
      (s.nextWindow_keep.nodes rfl) _ _).keep
      (Keep.via (m := 0x3FFDFFFFB) (State.setSince_keep ..) rfl ((State.sat_keep ..).mono rfl)) rfl

theorem runs_capWindowEnd_falls (hu : 10 * s.pwr.capSum < 9 * s.effCap * s.pwr.capN) (hp : 0 < s.powerSteps) (hc : 99 ≤ s.pwr.capSince) :
    Runs .capWindowEnd s [.regs, .clk, .pwr] (fun t =>
      t.pwr = { s.pwr with capAt := s.pwr.capAt + 1000000, capSum := 0, capN := 0, capSince := 0 } ∧ t.powerSteps = s.powerSteps - 1) := by
  have hno : ¬ s.pwr.capN * s.effCap < s.pwr.capSum := by rw [Nat.mul_comm]; rw [Nat.mul_assoc] at hu; omega
  have hlt : s.powerSteps < 2 ^ 8 := s.rf_lt _ 15 8
  have hk := Keep.via (State.setSince_keep s.nextWindow 0) rfl s.nextWindow_keep
  have hsteps : (s.nextWindow.setSince 0).powerSteps = s.powerSteps := State.rf_congr (hk.regs rfl) _ _ _
  refine Runs.of_next ((exec_capWindowEnd h).trans ((if_neg hno).trans ((if_pos ⟨hu, hp⟩).trans (if_pos (by omega))))) ?_
    (fun i => ⟨((State.reduce_keep ..).pwr rfl).trans (s.nextWindow_since _), ?_⟩)
  · exact (Keep.via (m := 0x3FFCFFFFB) (State.reduce_keep ..) rfl (hk.mono rfl)).alters _ (by decide)
  · rw [hsteps]
    exact State.reduce_shows (hk.inv i) (by decide) (by decide) (by omega) 8 false

theorem runs_capWindowEnd_below (hu : 10 * s.pwr.capSum < 9 * s.effCap * s.pwr.capN) (hp : 0 < s.powerSteps) (hc : s.pwr.capSince < 99) :
    Runs .capWindowEnd s [.pwr] (fun t =>
      t.pwr = { s.pwr with capAt := s.pwr.capAt + 1000000, capSum := 0, capN := 0, capSince := s.pwr.capSince + 1 }) := by
  have hno : ¬ s.pwr.capN * s.effCap < s.pwr.capSum := by rw [Nat.mul_comm]; rw [Nat.mul_assoc] at hu; omega
  exact Runs.of_next ((exec_capWindowEnd h).trans ((if_neg hno).trans ((if_pos ⟨hu, hp⟩).trans (if_neg (by omega)))))
    ((Keep.via (State.setSince_keep ..) rfl s.nextWindow_keep).alters _ (by decide)) (fun _ => s.nextWindow_since _)

theorem runs_capWindowEnd_plain (hu : s.pwr.capSum ≤ s.pwr.capN * s.effCap) (hp : s.powerSteps = 0) :
    Runs .capWindowEnd s [.pwr] (fun t => t.pwr = { s.pwr with capAt := s.pwr.capAt + 1000000, capSum := 0, capN := 0 }) :=
  Runs.of_next ((exec_capWindowEnd h).trans ((if_neg (by omega)).trans (if_neg (by omega)))) (s.nextWindow_keep.alters _ (by decide))
    (fun _ => rfl)

end

/-! ### THERM_STEP_TIMER (R473). -/

/-- The tick of the last rise of THERM. -/
def State.thermStamped (s : State) : State := { s with pwr := { s.pwr with thermAt := s.now } }

/-- The tick from which the next cool period counts. -/
def State.coolStamped (s : State) : State := { s with pwr := { s.pwr with coolAt := some s.now } }

theorem exec_thermStepTimer_hot {s : State} (h : 1 ≤ s.rf Reg.PWR_THROT 2 0) : exec .thermStepTimer s =
    if 100000 ≤ (s.now - s.pwr.thermAt).toNat ∧ s.therm < 18 then .next (s.thermStamped.reduce 7 0 (s.therm + 1) 5 true) else .next s :=
  if_pos h

theorem exec_thermStepTimer_none {s : State} (h : s.rf Reg.PWR_THROT 2 0 = 0) (hc : s.pwr.coolAt = none) :
    exec .thermStepTimer s = .next s := by
  refine (if_neg (by omega)).trans ?_
  rw [hc]

theorem exec_thermStepTimer_cool {s : State} {a : DWord} (h : s.rf Reg.PWR_THROT 2 0 = 0) (hc : s.pwr.coolAt = some a) :
    exec .thermStepTimer s = if 10000000 ≤ (s.now - a).toNat ∧ 0 < s.therm then .next (s.coolStamped.reduce 7 0 (s.therm - 1) 8 false)
      else .next s := by
  refine (if_neg (by omega)).trans ?_
  rw [hc]
  rfl

theorem runs_thermStepTimer_rises {s : State} (h : 1 ≤ s.rf Reg.PWR_THROT 2 0) (ht : 100000 ≤ (s.now - s.pwr.thermAt).toNat)
    (h18 : s.therm < 18) :
    Runs .thermStepTimer s [.regs, .clk, .pwr] (fun t => t.therm = s.therm + 1 ∧
      t.pwr = { s.pwr with thermAt := s.now } ∧ t.clk.reqs = { cause := 5, isForced := true } :: s.clk.reqs) := by
  have hk : Keep 0x3FFDFFFFF s s.thermStamped := Keep.setPwr rfl (Keep.refl _ _)
  refine Runs.of_next ((exec_thermStepTimer_hot h).trans (if_pos ⟨ht, h18⟩)) ?_ (fun i => ⟨?_, (State.reduce_keep ..).pwr rfl, rfl⟩)
  · exact (Keep.via (m := 0x3FFCFFFFB) (State.reduce_keep ..) rfl (hk.mono rfl)).alters _ (by decide)
  · exact State.reduce_shows (hk.inv i) (by decide) (by decide) (by omega) 5 true

theorem runs_thermStepTimer_falls {s : State} {a : DWord} (h : s.rf Reg.PWR_THROT 2 0 = 0) (hc : s.pwr.coolAt = some a)
    (ht : 10000000 ≤ (s.now - a).toNat) (h0 : 0 < s.therm) :
    Runs .thermStepTimer s [.regs, .clk, .pwr] (fun t => t.therm = s.therm - 1 ∧ t.pwr = { s.pwr with coolAt := some s.now }) := by
  have hk : Keep 0x3FFDFFFFF s s.coolStamped := Keep.setPwr rfl (Keep.refl _ _)
  have hlt : s.therm < 2 ^ 8 := s.rf_lt _ 7 0
  refine Runs.of_next ((exec_thermStepTimer_cool h hc).trans (if_pos ⟨ht, h0⟩)) ?_ (fun i => ⟨?_, (State.reduce_keep ..).pwr rfl⟩)
  · exact (Keep.via (m := 0x3FFCFFFFB) (State.reduce_keep ..) rfl (hk.mono rfl)).alters _ (by decide)
  · exact State.reduce_shows (hk.inv i) (by decide) (by decide) (by omega) 8 false

/-! ### TELEMETRY_REFRESH (R470). -/

/-- The copies behind the I3C window taken. -/
def State.copyTelemetry (s : State) : State :=
  { s with pwr := { s.pwr with
      copyNo := s.pwr.copyNo + 1
      copies := [s.reg Reg.CMD_DEV_STATE, s.reg Reg.CLK_ST, s.reg Reg.PWR_ST, s.reg Reg.PWR_IN, s.reg Reg.PWR_TJ, s.reg Reg.PWR_THROT] } }

theorem State.copyTelemetry_keep (s : State) : Keep 0x3FFDFFFFF s s.copyTelemetry := Keep.setPwr rfl (Keep.refl _ _)

/-- The voltage and current of a domain shown. -/
def State.showDom (s : State) (d v i : Nat) : State := (s.wf (Reg.PWR_DOM_V d) 15 0 v).wf (Reg.PWR_DOM_I d) 15 0 i

theorem exec_telemetryRefresh_off {s : State} (h : s.domOn 0 = false) (l : List (Nat × Nat × Nat)) :
    exec (.telemetryRefresh l) s = .next s := if_neg (by rw [h]; decide)

theorem runs_telemetryRefresh_none {s : State} (h : s.domOn 0 = true) :
    Runs (.telemetryRefresh []) s [.pwr] (fun t => t.pwr = { s.pwr with
      copyNo := s.pwr.copyNo + 1
      copies := [s.reg Reg.CMD_DEV_STATE, s.reg Reg.CLK_ST, s.reg Reg.PWR_ST, s.reg Reg.PWR_IN, s.reg Reg.PWR_TJ, s.reg Reg.PWR_THROT] }) :=
  Runs.of_next (t := s.copyTelemetry) (if_pos h) (s.copyTelemetry_keep.alters _ (by decide)) (fun _ => rfl)

theorem runs_telemetryRefresh_one {s : State} {d : Nat} (h : s.domOn 0 = true) (hd : d < 24) (v i : Nat) :
    Runs (.telemetryRefresh [(d, v, i)]) s [.regs, .pwr] (fun t =>
      t.rf (Reg.PWR_DOM_V d) 15 0 = v % 65536 ∧ t.rf (Reg.PWR_DOM_I d) 15 0 = i % 65536 ∧
      s.RegsBut t [Reg.PWR_DOM_V d, Reg.PWR_DOM_I d]) := by
  have hr : (s.showDom d v i).copyTelemetry.regs = (s.showDom d v i).regs := rfl
  have hne : Reg.PWR_DOM_V d ∉ [Reg.PWR_DOM_I d] := by simp [Reg.PWR_DOM_V, Reg.PWR_DOM_I]
  refine Runs.of_next (t := (s.showDom d v i).copyTelemetry) ?_ ?_ (fun j => ⟨?_, ?_, ?_⟩)
  · refine (if_pos h).trans ?_
    rw [List.foldl_cons, List.foldl_nil, if_pos hd]
    rfl
  · exact (Keep.via (m := 0x3FFDFFFFB) (State.copyTelemetry_keep _) rfl <| Keep.via (State.wf_keep ..) rfl <|
      (State.wf_keep ..).mono rfl).alters _ (by decide)
  · rw [State.rf_congr hr]
    exact ((State.wf_but _ _ _ _ _).rf hne _ _).trans (State.rf_wf_self j.regs (by decide) (by decide))
  · rw [State.rf_congr hr]
    exact State.rf_wf_self (State.regs_wf j.regs) (by decide) (by decide)
  · exact (s.wf_but _ _ _ _).append (State.wf_but _ _ _ _ _)

/-! ### JUNCTION_SENSOR_READ (R470, R473). -/

/-- What every step of a thermal action keeps. -/
structure State.ThermClosed (P : State → Prop) : Prop where
  event : ∀ {t : State} (data : List (Nat × Nat × Nat)), P t → P (t.event 0x0106 devUnit 2 data)
  byte : ∀ {t : State} (x : Int), P t → P (t.tempByte x).2
  stamp : ∀ {t : State} (a : DWord), P t → P { t with pwr := { t.pwr with thermAt := a } }
  cool : ∀ {t : State} (a : Option DWord), P t → P { t with pwr := { t.pwr with coolAt := a } }
  reduce : ∀ {t : State} (n : Nat), P t → P (t.reduce 7 0 n 5 true)
  ask : ∀ {t : State}, P t → P (t.askFreq 8 false)
  flag : ∀ {t : State} (n : Nat), P t → P (t.wf Reg.PWR_THROT 3 3 n)

theorem prop_ite {P : State → Prop} {c : Prop} [Decidable c] {s t : State} (h : P s) (k : P t) : P (if c then s else t) := by
  split <;> assumption

theorem prop_foldl {P : State → Prop} {α : Type} {f : State → α → State} (hf : ∀ (u : State) (x : α), P u → P (f u x)) (l : List α)
    {s : State} (h : P s) : P (l.foldl f s) := by
  induction l generalizing s with
  | nil => exact h
  | cons x r ih => exact ih (hf s x h)

theorem State.ThermClosed.thermal {P : State → Prop} (h : State.ThermClosed P) {s : State} {tj ts : Int} (region stack : Nat)
    (hs : P (s.wf Reg.PWR_THROT 2 0 (thermLevel tj ts))) : P (s.thermal tj region ts stack) := by
  unfold State.thermal
  refine h.cool _ (prop_ite (h.flag _ ?_) (prop_ite (h.flag _ ?_) ?_))
  all_goals refine prop_ite (h.ask ?_) ?_
  all_goals refine prop_ite (h.reduce _ (h.stamp _ ?_)) ?_
  all_goals refine prop_ite (h.reduce _ (h.stamp _ ?_)) ?_
  all_goals exact prop_foldl (fun u x hu => prop_ite (h.event _ (h.byte _ hu)) hu) _ hs

/-- Registers a thermal action changes. -/
def thermRegs : List Nat := [Reg.PWR_THROT, Reg.CLK_REDUCE, Reg.CLK_PLAN, Reg.CLK_ST, Reg.CNET_EVT_LOST]

theorem State.tempByte_but (s : State) (x : Int) (l : List Nat) : s.RegsBut (s.tempByte x).2 l :=
  State.RegsBut.of_regs ((s.tempByte_keep x).regs rfl) l

theorem State.reduce_pwr (s : State) (hi lo n cause : Nat) (isForced : Bool) : (s.reduce hi lo n cause isForced).pwr = s.pwr :=
  (State.reduce_keep ..).pwr rfl

theorem thermClosed_but (s : State) : State.ThermClosed (fun t => s.RegsBut t thermRegs) where
  event _ h := h.trans ((State.event_but _ _ _ _ _).mono (by decide))
  byte x h := h.trans (State.tempByte_but _ x _)
  stamp _ h := h.trans (State.RegsBut.of_regs rfl _)
  cool _ h := h.trans (State.RegsBut.of_regs rfl _)
  reduce _ h := h.trans ((State.reduce_but _ _ _ _ _ _).mono (by decide))
  ask h := h.trans ((State.askFreq_but _ _ _).mono (by decide))
  flag _ h := h.trans ((State.wf_but _ _ _ _ _).mono (by decide))

theorem thermClosed_shows (n : Nat) : State.ThermClosed (fun t => t.Shows Reg.PWR_THROT 2 0 n) where
  event _ h := h.event (by decide) _ _ _ _
  byte x h := h.of_regs (State.tempByte_keep _ x) rfl
  stamp _ h := h.of_regs (Keep.setPwr (m := 0x3FFDFFFFF) rfl (Keep.refl _ _)) rfl
  cool _ h := h.of_regs (Keep.setPwr (m := 0x3FFDFFFFF) rfl (Keep.refl _ _)) rfl
  reduce _ h := h.of_but (State.reduce_keep ..) (State.reduce_but _ _ _ _ _ _) (by decide)
  ask h := h.of_but (State.askFreq_keep ..) (State.askFreq_but _ _ _) (by decide)
  flag _ h := h.wf_disjoint (by decide) (by decide) (by decide) _

theorem thermClosed_tj (l : List (Nat × List Int)) : State.ThermClosed (fun t => t.pwr.tj = l) where
  event _ h := (congrArg Pwr.tj ((State.event_keep ..).pwr rfl)).trans h
  byte _ h := (congrArg Pwr.tj ((State.tempByte_keep ..).pwr rfl)).trans h
  stamp _ h := h
  cool _ h := h
  reduce _ h := (congrArg Pwr.tj (State.reduce_pwr ..)).trans h
  ask h := (congrArg Pwr.tj ((State.askFreq_keep ..).pwr rfl)).trans h
  flag _ h := h

section
variable {s : State} {tj ts : Int} {region stack : Nat}

theorem State.thermal_but : s.RegsBut (s.thermal tj region ts stack) thermRegs :=
  (thermClosed_but s).thermal region stack ((s.wf_but _ _ _ _).mono (by decide))

theorem thermLevel_lt (tj ts : Int) : thermLevel tj ts < 4 := by
  unfold thermLevel
  split_ifs <;> decide

theorem State.thermal_throt (i : s.Inv) : (s.thermal tj region ts stack).rf Reg.PWR_THROT 2 0 = thermLevel tj ts :=
  ((thermClosed_shows _).thermal region stack
    (i.shows_wf Reg.PWR_THROT (by decide) (by decide) ((thermLevel_lt tj ts).trans (by decide)))).reads

theorem State.thermal_tj : (s.thermal tj region ts stack).pwr.tj = s.pwr.tj :=
  (thermClosed_tj _).thermal region stack rfl

end

/-- A reading out of range told (R470). -/
def State.tellBad (s : State) (x : Int) : State :=
  if decide (x < -40 ∨ 150 < x) then s.event 0x010B (unitId 10 0) 1 [(16, 2, unsext 16 x)] else s

/-- The only reading of region 0 shown. -/
def State.showTj (s : State) (n : Nat) : State :=
  ((({ s with pwr := { s.pwr with tj := [(0, [(n : Int)])] } } : State).wf (Reg.PWR_TEMP 0) 7 0 (min n 255)).wf
    Reg.PWR_TJ 7 0 (min n 255)).wf Reg.PWR_TJ 15 8 0

theorem State.tellBad_keep (s : State) (x : Int) : Keep 0x3EFFDFCFB s (s.tellBad x) :=
  Keep.ite ((State.event_keep ..).mono rfl) (Keep.refl _ _)

theorem State.tellBad_but (s : State) (x : Int) : s.RegsBut (s.tellBad x) [Reg.CNET_EVT_LOST] :=
  prop_ite (P := fun t => s.RegsBut t [Reg.CNET_EVT_LOST]) (s.event_but _ _ _ _) (State.RegsBut.refl _ _)

theorem State.showTj_keep (s : State) (n : Nat) : Keep 0x3FFDFFFFB s (s.showTj n) :=
  Keep.via (State.wf_keep ..) rfl <| Keep.via (State.wf_keep ..) rfl <| Keep.via (State.wf_keep ..) rfl <| Keep.setPwr rfl (Keep.refl _ _)

section
variable {s : State} (i : s.Inv) (n : Nat)
include i

theorem State.showTj_temp : (s.showTj n).rf (Reg.PWR_TEMP 0) 7 0 = min n 255 :=
  have j : ({ s with pwr := { s.pwr with tj := [(0, [(n : Int)])] } } : State).Inv := (Keep.setPwr (m := 0x3FFDFFFFF) rfl (Keep.refl _ _)).inv i
  ((j.shows_wf (Reg.PWR_TEMP 0) (by decide) (by decide) (Nat.lt_succ_of_le (Nat.min_le_right n 255))).wf_other (by decide) _ _ _
    |>.wf_other (by decide) _ _ _).reads

theorem State.showTj_tj : (s.showTj n).rf Reg.PWR_TJ 7 0 = min n 255 :=
  have j : (({ s with pwr := { s.pwr with tj := [(0, [(n : Int)])] } } : State).wf (Reg.PWR_TEMP 0) 7 0 (min n 255)).Inv :=
    (Keep.via (State.wf_keep ..) rfl <| Keep.setPwr (m := 0x3FFDFFFFB) rfl (Keep.refl _ _)).inv i
  ((j.shows_wf Reg.PWR_TJ (by decide) (by decide) (Nat.lt_succ_of_le (Nat.min_le_right n 255))).wf_disjoint (by decide) (by decide)
    (by decide) _).reads

theorem State.showTj_region : (s.showTj n).rf Reg.PWR_TJ 15 8 = 0 :=
  have j : ((({ s with pwr := { s.pwr with tj := [(0, [(n : Int)])] } } : State).wf (Reg.PWR_TEMP 0) 7 0 (min n 255)).wf
      Reg.PWR_TJ 7 0 (min n 255)).Inv :=
    (Keep.via (State.wf_keep ..) rfl <| Keep.via (State.wf_keep ..) rfl <| Keep.setPwr (m := 0x3FFDFFFFB) rfl (Keep.refl _ _)).inv i
  State.rf_wf_self j.regs (by decide) (by decide)

/-- The stack's temperature beside it stays. -/
theorem State.showTj_stack : (s.showTj n).rf Reg.PWR_TJ 23 16 = s.rf Reg.PWR_TJ 23 16 :=
  have h : s.Shows Reg.PWR_TJ 23 16 (s.rf Reg.PWR_TJ 23 16) := ⟨i, rfl⟩
  (((h.of_regs (t := { s with pwr := { s.pwr with tj := [(0, [(n : Int)])] } }) (Keep.setPwr (m := 0x3FFDFFFFF) rfl (Keep.refl _ _)) rfl).wf_other
    (by decide) _ _ _).wf_disjoint (by decide) (by decide) (by decide) _ |>.wf_disjoint (by decide) (by decide) (by decide) _).reads

end

theorem State.tempByte_natCast (s : State) (n : Nat) : s.tempByte (n : Int) = (min n 255, s) :=
  if_pos (Int.natCast_nonneg n)

theorem medianOf_singleton (x : Int) : medianOf [x] = x := by
  simp [medianOf]

theorem exec_junctionSensorRead_none {s : State} (ht : s.pwr.tj = []) : exec (.junctionSensorRead []) s = .next s := by
  show execJunctionSensorRead [] s = _
  simp [execJunctionSensorRead, ht]

theorem exec_junctionSensorRead_one {s : State} (ht : s.pwr.tj = []) {x : Int} {n : Nat}
    (hx : (if decide (x < -40 ∨ 150 < x) then 105 else x) = (n : Int)) : exec (.junctionSensorRead [x]) s =
      .next (((s.tellBad x).showTj n).thermal n 0 (((s.tellBad x).showTj n).rf Reg.PWR_TJ 23 16) 0) := by
  have hb : (s.tellBad x).pwr.tj = [] := (congrArg Pwr.tj ((s.tellBad_keep x).pwr rfl)).trans ht
  show execJunctionSensorRead [x] s = _
  unfold execJunctionSensorRead
  rw [show ([x].take 46).zipIdx = [(x, 0)] from rfl, List.foldl_cons, List.foldl_nil]
  dsimp only
  rw [hx]
  rw [show (if decide (x < -40 ∨ 150 < x) then s.event 0x010B (unitId 10 0) 1 [(16, 2, unsext 16 x)] else s) = s.tellBad x from rfl, hb]
  rw [show lastThree (tget [] [] 0) (n : Int) = [(n : Int)] from rfl, medianOf_singleton, State.tempByte_natCast]
  dsimp only
  generalize hm : List.map _ _ = meds
  obtain rfl : meds = [(0, (n : Int))] := hm.symm.trans (congrArg (fun y => [((0 : Nat), y)]) (medianOf_singleton (n : Int)))
  dsimp only
  rw [List.foldl_nil, State.tempByte_natCast]
  rfl

section
variable {s : State} (ht : s.pwr.tj = []) {x : Int} {n : Nat} (hx : (if decide (x < -40 ∨ 150 < x) then 105 else x) = (n : Int)) (hn : n ≤ 150)
include ht hx hn

theorem runs_junctionSensorRead_one : Runs (.junctionSensorRead [x]) s [.regs, .freeN, .log, .nodes, .irq, .clk, .pwr, .logN] (fun t =>
    t.pwr.tj = [(0, [(n : Int)])] ∧ t.rf (Reg.PWR_TEMP 0) 7 0 = n ∧ t.rf Reg.PWR_TJ 7 0 = n ∧ t.rf Reg.PWR_TJ 15 8 = 0 ∧
    t.rf Reg.PWR_THROT 2 0 = thermLevel n (s.rf Reg.PWR_TJ 23 16)) := by
  have he := exec_junctionSensorRead_one ht hx
  have hmin : min n 255 = n := by omega
  have hb : ∀ {a : Nat} (_ : a ∉ thermRegs) (hi lo : Nat),
      (((s.tellBad x).showTj n).thermal n 0 (((s.tellBad x).showTj n).rf Reg.PWR_TJ 23 16) 0).rf a hi lo = ((s.tellBad x).showTj n).rf a hi lo :=
    fun ha hi lo => State.thermal_but.rf ha hi lo
  refine Runs.of_next he (((execJunctionSensorRead_keep [x] s).keep _ he).alters _ (by decide)) (fun i => ?_)
  have j : (s.tellBad x).Inv := (s.tellBad_keep x).inv i
  refine ⟨State.thermal_tj, ?_, ?_, ?_, ?_⟩
  · rw [hb (by decide), State.showTj_temp j, hmin]
  · rw [hb (by decide), State.showTj_tj j, hmin]
  · rw [hb (by decide), State.showTj_region j]
  · rw [State.thermal_throt ((State.showTj_keep _ _).inv j), State.showTj_stack j, (s.tellBad_but x).rf (by decide)]

end

/-! ### Domains: faults of regulation and PWR_GATE (R466, R469). -/

theorem exec_domainRegulationFault_off {s : State} {d : Fin 24} (h : s.domOn d = false) : exec (.domainRegulationFault d) s = .next s :=
  if_neg (by simp [h])

theorem exec_domainRegulationFault_on {s : State} {d : Fin 24} (h : s.domOn d = true) :
    exec (.domainRegulationFault d) s = .next ((s.event 0x0109 (domUnit d) 1 [(16, 1, 4)]).reportDomain d) := if_pos h

section
variable {s : State} {v d : Nat}

theorem State.gateDomain_same {off : Bool} (h : off = s.rbit Reg.PWR_GATE d) : (s.gateDomain d off).2 = s := by
  unfold State.gateDomain
  rw [if_pos h]

/-- A spindle that is not FENCED holds its domain on. -/
theorem State.gateDomain_refused (h : s.rbit Reg.PWR_GATE d = false) (hp : ∃ ps ∈ psOfDom d, s.spnState ps ≠ 6) :
    (s.gateDomain d true).2 = s := by
  have ha : (psOfDom d).all (fun ps => s.spnState ps == 6) = false := by simpa using hp
  unfold State.gateDomain
  rw [if_neg (by simp [h]), if_pos rfl, if_neg (by simp [ha])]

/-- Bits that do not change switch nothing. -/
theorem foldl_gate_same {l : List Nat} (h : ∀ i ∈ l, v.testBit (12 + i) = s.rbit Reg.PWR_GATE (12 + i)) :
    l.foldl (fun s i => (s.gateDomain (12 + i) (v.testBit (12 + i))).2) s = s := by
  induction l with
  | nil => rfl
  | cons i l ih =>
    rw [List.foldl_cons, State.gateDomain_same (h i (List.mem_cons_self ..))]
    exact ih (fun j hj => h j (List.mem_cons_of_mem _ hj))

theorem State.writeGate_same (h : ∀ i, 12 ≤ i → i < 22 → v.testBit i = s.rbit Reg.PWR_GATE i) : s.writeGate v = s :=
  foldl_gate_same (fun i hi => h _ (by omega) (by have := List.mem_range.mp hi; omega))

/-- One bit that changes switches its domain alone. -/
theorem State.writeGate_one (hd : 12 ≤ d) (hd' : d < 22) (h : ∀ i, 12 ≤ i → i < 22 → i ≠ d → v.testBit i = s.rbit Reg.PWR_GATE i)
    {t : State} (ht : (s.gateDomain d (v.testBit d)).2 = t) (hs : ∀ i, i ≠ d → i < 32 → t.rbit Reg.PWR_GATE i = s.rbit Reg.PWR_GATE i) :
    s.writeGate v = t := by
  obtain ⟨k, rfl⟩ := Nat.exists_eq_add_of_le hd
  obtain ⟨l, r, hl⟩ := List.append_of_mem (List.mem_range.mpr (by omega : k < 10))
  have hnd : (l ++ k :: r).Nodup := hl ▸ List.nodup_range
  have hother : ∀ i ∈ l ++ r, i ≠ k ∧ i < 10 := fun i hi =>
    ⟨fun he => (List.nodup_middle.mp hnd).notMem (he ▸ hi),
      List.mem_range.mp (hl ▸ (List.perm_middle.mem_iff.mpr (List.mem_cons_of_mem _ hi)))⟩
  unfold State.writeGate
  rw [hl, List.foldl_append, foldl_gate_same (l := l), List.foldl_cons, ht]
  · refine foldl_gate_same (fun i hi => ?_)
    obtain ⟨hne, hlt⟩ := hother i (List.mem_append_right _ hi)
    rw [hs _ (by omega) (by omega)]
    exact h _ (by omega) (by omega) (by omega)
  · intro i hi
    obtain ⟨hne, hlt⟩ := hother i (List.mem_append_left _ hi)
    exact h _ (by omega) (by omega) (by omega)

end

/-- What a spindle held is lost. -/
def State.emptied (s : State) (ps : Nat) : State := (s.setSpn ps {}).clearKeys (sramKey ps 0) (sramKey ps 0x3000000)

/-- A domain switched off, before its spindles' ring stops follow. -/
def State.switchedOff (s : State) (d : Nat) : State := (((psOfDom d).foldl State.emptied s).setDom d false).wf Reg.PWR_GATE d d 1

/-- A domain switched off (R469). -/
def State.gatedOff (s : State) (d : Nat) : State :=
  ((psOfDom d).foldl State.syncStop (s.switchedOff d)).event 0x0109 (domUnit d) 1 [(16, 1, 1)]

theorem State.gateDomain_off {s : State} {d : Nat} (h : s.rbit Reg.PWR_GATE d = false) (hp : ∀ ps ∈ psOfDom d, s.spnState ps = 6) :
    (s.gateDomain d true).2 = s.gatedOff d := by
  have ha : (psOfDom d).all (fun ps => s.spnState ps == 6) = true := by simpa using hp
  unfold State.gateDomain
  rw [if_neg (by simp [h]), if_pos rfl, if_pos ha]
  rfl

theorem State.emptied_keep (s : State) (ps : Nat) : Keep 0x3FFFFE3FF s (s.emptied ps) :=
  Keep.via (State.clearKeys_keep ..) rfl ((State.setSpn_keep ..).mono rfl)

theorem foldl_emptied_keep (s : State) (l : List Nat) : Keep 0x3FFFFE3FF s (l.foldl State.emptied s) :=
  Keep.foldl (fun t ps => t.emptied_keep ps) (Keep.refl _ _)

/-- A spindle emptied stays empty, whichever others follow. -/
theorem spn_foldl_emptied {s : State} (i : s.Inv) {l : List Nat} {ps : Nat} (h : ps ∈ l ∨ s.spn ps = {}) :
    (l.foldl State.emptied s).spn ps = {} := by
  induction l generalizing s with
  | nil => simpa using h
  | cons p l ih =>
    refine ih ((s.emptied_keep p).inv i) ?_
    by_cases hp : p = ps
    · subst hp
      exact .inr (State.spn_setSpn i.spns p {})
    · refine h.imp (fun hm => ?_) (fun h0 => ?_)
      · simpa [Ne.symm hp] using hm
      · exact (tget_tset_ne (Ne.symm hp) s.spns).trans h0

theorem State.setDom_but (s : State) (d : Nat) (on : Bool) : s.RegsBut (s.setDom d on) [Reg.PWR_ST] :=
  (State.RegsBut.of_regs rfl _).trans (State.wf_but _ _ _ _ _)

theorem testBit_domsOff_or (b : BitVec 24) {d i : Nat} (hi : i < 24) :
    (b ||| BitVec.ofNat 24 (2 ^ d)).toNat.testBit i = (b.toNat.testBit i || decide (d = i)) := by
  rw [BitVec.toNat_or, Nat.testBit_or, BitVec.toNat_ofNat, Nat.testBit_mod_two_pow, Nat.testBit_two_pow]
  simp [hi]

theorem State.syncStopAt_but (s : State) (st c : Nat) : s.RegsBut (s.syncStopAt st c) [Reg.RING_STOP_ST st, Reg.CNET_EVT_LOST] := by
  have h : s.RegsBut (s.wr (Reg.RING_STOP_ST st) (if c = 0 then 0 else 2 * c + 1)) [Reg.RING_STOP_ST st, Reg.CNET_EVT_LOST] :=
    (s.wr_but _ _).mono (by simp)
  exact prop_ite (P := fun t => s.RegsBut t _) (h.trans ((State.event_but _ _ _ _ _).mono (by simp))) h

theorem State.syncStop_gate (s : State) (ps : Nat) : (s.syncStop ps).rd Reg.PWR_GATE = s.rd Reg.PWR_GATE :=
  (State.syncStopAt_but _ _ _).rd (by
    have : Reg.PWR_GATE ≠ Reg.RING_STOP_ST (spindleStop ps) := by unfold Reg.PWR_GATE Reg.RING_STOP_ST; omega
    simpa [this] using (by decide : Reg.PWR_GATE ≠ Reg.CNET_EVT_LOST))

section
variable (s : State) (d : Nat)

theorem State.switchedOff_domsOff : (s.switchedOff d).domsOff = s.domsOff ||| BitVec.ofNat 24 (2 ^ d) :=
  congrArg (· ||| _) ((foldl_emptied_keep s _).domsOff rfl)

theorem State.gatedOff_sub_keep : Keep 0x3EFFDFCFB (s.switchedOff d) (s.gatedOff d) :=
  Keep.via (State.event_keep ..) rfl (Keep.foldl (fun t ps => t.syncStop_keep ps) (Keep.refl _ _))

theorem State.gatedOff_gate : (s.gatedOff d).rd Reg.PWR_GATE = (s.switchedOff d).rd Reg.PWR_GATE :=
  ((State.event_but _ _ _ _ _).rd (by decide)).trans
    (prop_foldl (P := fun t => t.rd Reg.PWR_GATE = (s.switchedOff d).rd Reg.PWR_GATE) (fun t ps h => (t.syncStop_gate ps).trans h) _ rfl)

theorem State.switchedOff_keep : Keep 0x3FFFEE3FB s (s.switchedOff d) :=
  Keep.via (State.wf_keep ..) rfl <| Keep.via (State.setDom_keep ..) rfl ((foldl_emptied_keep s _).mono rfl)

theorem State.switchedOff_spns : (s.switchedOff d).spns = ((psOfDom d).foldl State.emptied s).spns := rfl

theorem State.gatedOff_domOn {i : Nat} (hi : i < 24) : (s.gatedOff d).domOn i = (s.domOn i && decide (d ≠ i)) := by
  unfold State.domOn
  rw [(s.gatedOff_sub_keep d).off rfl, (s.switchedOff_keep d).off rfl, (s.gatedOff_sub_keep d).domsOff rfl, State.switchedOff_domsOff,
    testBit_domsOff_or _ hi]
  simp [Bool.and_assoc]

theorem State.gatedOff_rbit {s : State} (i : s.Inv) (hd : d < 32) (j : Nat) :
    (s.gatedOff d).rbit Reg.PWR_GATE j = if j = d then true else s.rbit Reg.PWR_GATE j := by
  have hk : Keep 0x3FFFEE3FB s (((psOfDom d).foldl State.emptied s).setDom d false) :=
    Keep.via (State.setDom_keep ..) rfl ((foldl_emptied_keep s _).mono rfl)
  have hb : (((psOfDom d).foldl State.emptied s).setDom d false).rbit Reg.PWR_GATE j = s.rbit Reg.PWR_GATE j :=
    ((State.setDom_but _ _ _).rbit (by decide) _).trans (State.rbit_congr ((foldl_emptied_keep s _).regs rfl) _ _)
  calc (s.gatedOff d).rbit Reg.PWR_GATE j
      = (s.switchedOff d).rbit Reg.PWR_GATE j := congrArg (bitOf · j) (s.gatedOff_gate d)
    _ = if d ≤ j ∧ j ≤ d then (1 : Nat).testBit (j - d) else s.rbit Reg.PWR_GATE j :=
        hb ▸ State.rbit_wf (hk.inv i).regs (Nat.le_refl d) hd j
    _ = if j = d then true else s.rbit Reg.PWR_GATE j := by
      by_cases hj : j = d
      · subst hj
        simp
      · rw [if_neg hj, if_neg (by omega)]

end

theorem runs_pwrGateWrite_off {s : State} {v : Word} {d : Nat} (hd : 12 ≤ d) (hd' : d < 22) (hg : s.rbit Reg.PWR_GATE d = false)
    (hp : ∀ ps ∈ psOfDom d, s.spnState ps = 6) (hv : v.toNat.testBit d = true)
    (h : ∀ i, 12 ≤ i → i < 22 → i ≠ d → v.toNat.testBit i = s.rbit Reg.PWR_GATE i) :
    Runs (.pwrGateWrite v) s [.regs, .log, .nodes, .mem, .poison, .spns, .domsOff, .irq, .logN] (fun t =>
      t.domOn d = false ∧ t.rbit Reg.PWR_GATE d = true ∧ (∀ ps ∈ psOfDom d, t.spn ps = {}) ∧
      (∀ i, i < 24 → i ≠ d → t.domOn i = s.domOn i)) := by
  intro i
  have hw : s.writeGate v.toNat = s.gatedOff d :=
    State.writeGate_one hd hd' h (hv ▸ State.gateDomain_off hg hp) (fun j hj _ => (s.gatedOff_rbit d i (by omega) j).trans (if_neg hj))
  have hk : Keep 0x3EFFCE0FB s (s.gatedOff d) := hw ▸ s.writeGate_keep v.toNat
  refine ⟨s.gatedOff d, congrArg _ hw, hk.alters _ (by decide), ?_, ?_, fun ps hps => ?_, fun j hj hjd => ?_⟩
  · simpa using s.gatedOff_domOn d (i := d) (by omega)
  · exact (s.gatedOff_rbit d i (by omega) d).trans (if_pos rfl)
  · rw [State.spn_congr ((s.gatedOff_sub_keep d).spns rfl), State.spn_congr (s.switchedOff_spns d)]
    exact spn_foldl_emptied i (.inl hps)
  · simpa [Ne.symm hjd] using s.gatedOff_domOn d hj

/-- Settles O39: each command of power, temperature, domains and telemetry, from its rule. -/
theorem powerComplete : Obligations.PowerComplete := by
  unfold Obligations.PowerComplete
  refine ⟨fun s w => ⟨runs_powerAvg1ms_within, runs_powerAvg1ms_over⟩, fun s => ⟨exec_capWindowEnd_early, fun h => ?_⟩,
    fun s => exec_junctionSensorRead_none, fun s v ht hv => ?_, fun s v ht hv => ?_, fun s => ⟨fun h => ?_, fun h => ?_⟩,
    fun s d => ⟨exec_domainRegulationFault_off, exec_domainRegulationFault_on⟩, fun s v h => congrArg _ (State.writeGate_same h), ?_, ?_,
    fun s l h => exec_telemetryRefresh_off h l, fun s => runs_telemetryRefresh_none, fun s d v i h hd => runs_telemetryRefresh_one h hd v i⟩
  · exact ⟨runs_capWindowEnd_over h, runs_capWindowEnd_falls h, runs_capWindowEnd_below h, runs_capWindowEnd_plain h⟩
  · exact runs_junctionSensorRead_one ht (if_neg (by simp; omega)) hv
  · have hr := runs_junctionSensorRead_one ht (x := v) (n := 105) (if_pos (by simpa using hv)) (by omega)
    intro i
    obtain ⟨t, he, ha, htj, htemp, -, -, hthrot⟩ := hr i
    exact ⟨t, he, ha, htj, htemp, hthrot.trans (if_pos (.inl (by decide)))⟩
  · exact ⟨runs_thermStepTimer_rises h, fun ht => (exec_thermStepTimer_hot h).trans (if_neg (by omega)),
      fun ht => (exec_thermStepTimer_hot h).trans (if_neg (by omega))⟩
  · refine ⟨exec_thermStepTimer_none h, fun h0 => ?_, fun a hc ht => (exec_thermStepTimer_cool h hc).trans (if_neg (by omega)),
      fun a => runs_thermStepTimer_falls h⟩
    cases hc : s.pwr.coolAt with
    | none => exact exec_thermStepTimer_none h hc
    | some a => exact (exec_thermStepTimer_cool h hc).trans (if_neg (by omega))
  · intro s v d hd hd' hg hp hv h
    exact congrArg _ (State.writeGate_one hd hd' h (hv ▸ State.gateDomain_refused hg hp) (fun _ _ _ => rfl))
  · exact fun s v d _ hd hd' hg hp hv h => runs_pwrGateWrite_off hd hd' hg hp hv h

end Sys2Proof.Machine
end

section
/-! SUPPORT. Power groups, power enable, input samples, the I3C target and the flash sideband (R467 to R470, R572, R573, R581 to R585),
each command from its rule. -/

namespace Sys2Proof.Machine

/-! ### Power groups (R467). -/

/-- A domain of a group coming up; D23 stays off while STRAP_SAFE is asserted. -/
def State.bringUp (s : State) (d : Nat) : State := if d = 23 ∧ s.rbit Reg.CMD_STRAPS 14 = true then s else s.setDom d true

theorem State.bringUp_keep (s : State) (d : Nat) : Keep 0x3FFFEFFFB s (s.bringUp d) := Keep.ite (Keep.refl _ _) (State.setDom_keep ..)

theorem State.bringUp_but (s : State) (d : Nat) : s.RegsBut (s.bringUp d) [Reg.PWR_ST] :=
  prop_ite (P := fun t => s.RegsBut t _) (State.RegsBut.refl _ _) (s.setDom_but d true)

theorem testBit_domsOff_andNot (b : BitVec 24) {d i : Nat} (hi : i < 24) :
    (b &&& ~~~(BitVec.ofNat 24 (2 ^ d))).toNat.testBit i = (b.toNat.testBit i && !decide (d = i)) := by
  show (b &&& ~~~(BitVec.ofNat 24 (2 ^ d))).getLsbD i = (b.getLsbD i && !decide (d = i))
  rw [BitVec.getLsbD_and, BitVec.getLsbD_not, BitVec.getLsbD_ofNat, Nat.testBit_two_pow]
  simp [hi]

theorem State.setDom_on_domOn {s : State} (ho : s.off = false) (d : Nat) {i : Nat} (hi : i < 24) :
    (s.setDom d true).domOn i = (s.domOn i || decide (d = i)) := by
  have hd : (s.setDom d true).domsOff = s.domsOff &&& ~~~(BitVec.ofNat 24 (2 ^ d)) := rfl
  unfold State.domOn
  rw [(State.setDom_keep ..).off rfl, hd, testBit_domsOff_andNot _ hi, ho]
  simp

theorem State.bringUp_domOn {s : State} (ho : s.off = false) (d : Nat) {i : Nat} (hi : i < 24) :
    (s.bringUp d).domOn i = (s.domOn i || (decide (d = i) && !(i == 23 && s.rbit Reg.CMD_STRAPS 14))) := by
  unfold State.bringUp
  split
  next h =>
    obtain ⟨rfl, hs⟩ := h
    by_cases hd : 23 = i
    · subst hd
      simp [hs]
    · simp [hd]
  next h =>
    rw [State.setDom_on_domOn ho d hi]
    by_cases hd : d = i
    · subst hd
      have : d = 23 → s.rbit Reg.CMD_STRAPS 14 = false := by simpa using h
      by_cases h23 : d = 23 <;> simp [h23, this]
    · simp [hd]

theorem foldl_bringUp_keep (s : State) (l : List Nat) : Keep 0x3FFFEFFFB s (l.foldl State.bringUp s) :=
  Keep.foldl (fun t d => t.bringUp_keep d) (Keep.refl _ _)

theorem foldl_bringUp_domOn {s : State} (ho : s.off = false) (l : List Nat) {i : Nat} (hi : i < 24) :
    (l.foldl State.bringUp s).domOn i = (s.domOn i || (l.contains i && !(i == 23 && s.rbit Reg.CMD_STRAPS 14))) := by
  induction l generalizing s with
  | nil => simp
  | cons d l ih =>
    rw [List.foldl_cons, ih (((s.bringUp_keep d).off rfl).trans ho), State.bringUp_domOn ho d hi, (s.bringUp_but d).rbit (by decide)]
    rw [List.contains_cons, Bool.or_assoc, ← Bool.and_or_distrib_right, show decide (d = i) = (i == d) from decide_eq_decide.mpr eq_comm]

/-- The group after the last good one counts its 10 ms from here. -/
def State.groupReached (s : State) : State := { s with pwr := { s.pwr with group := s.pwr.group + 1, groupAt := s.wall } }

theorem exec_powerGroupGood {s : State} (ho : s.off = false) (he : s.pwr.enabled = true) (hg : s.pwr.group < 7) :
    exec .powerGroupGood s = .next ((groupDoms (s.pwr.group + 1)).foldl State.bringUp s.groupReached) :=
  if_neg (by simp [ho, he]; omega)

theorem runs_powerGroupGood {s : State} (ho : s.off = false) (he : s.pwr.enabled = true) (hg : s.pwr.group < 7) :
    Runs .powerGroupGood s [.regs, .domsOff, .pwr] (fun t => t.pwr = { s.pwr with group := s.pwr.group + 1, groupAt := s.wall } ∧
      (∀ d, d < 24 → t.domOn d = (s.domOn d || ((groupDoms (s.pwr.group + 1)).contains d && !(d == 23 && s.rbit Reg.CMD_STRAPS 14))))) := by
  have hk : Keep 0x3FFDFFFFF s s.groupReached := Keep.setPwr rfl (Keep.refl _ _)
  refine Runs.of_next (exec_powerGroupGood ho he hg) ?_ (fun _ => ⟨(foldl_bringUp_keep _ _).pwr rfl, fun d hd => ?_⟩)
  · exact (Keep.via (m := 0x3FFDEFFFB) (foldl_bringUp_keep ..) rfl (hk.mono rfl)).alters _ (by decide)
  · exact foldl_bringUp_domOn (s := s.groupReached) ho _ hd

/-- Power-up stops, and ALERT_N is asserted. -/
def State.groupFailed (s : State) : State := ({ s with pwr := { s.pwr with enabled := false } } : State).alertOn

theorem exec_powerGroup_idle {s : State} (h : s.off = true ∨ s.pwr.enabled = false ∨ 7 ≤ s.pwr.group) :
    exec .powerGroupGood s = .next s ∧ exec .powerGroupTimeout s = .next s :=
  ⟨if_pos (h.imp_right (Or.imp_right Nat.lt_succ_of_le)), if_pos (h.imp_right (Or.imp_right (.inl ∘ Nat.lt_succ_of_le)))⟩

theorem exec_powerGroupTimeout_early {s : State} (h : (s.wall - s.pwr.groupAt).toNat < 1000000) : exec .powerGroupTimeout s = .next s :=
  if_pos (.inr (.inr (.inr h)))

theorem exec_powerGroupTimeout {s : State} (ho : s.off = false) (he : s.pwr.enabled = true) (hg : s.pwr.group < 7)
    (ht : 1000000 ≤ (s.wall - s.pwr.groupAt).toNat) : exec .powerGroupTimeout s =
      .next (if s.pwr.group + 1 = 1 then s.groupFailed
        else s.groupFailed.event 0x0109 (domUnit ((groupDoms (s.pwr.group + 1)).headD 0)) 1 [(16, 1, 5)]) := by
  refine if_neg ?_
  rintro (h | h | h | h)
  · exact Bool.noConfusion (ho.symm.trans h)
  · exact Bool.noConfusion (he.symm.trans h)
  · omega
  · omega

theorem runs_powerGroupTimeout {s : State} (ho : s.off = false) (he : s.pwr.enabled = true) (hg : s.pwr.group < 7)
    (ht : 1000000 ≤ (s.wall - s.pwr.groupAt).toNat) :
    Runs .powerGroupTimeout s [.regs, .log, .nodes, .irq, .pwr, .logN] (fun t => t.pwr = { s.pwr with enabled := false, alert := true } ∧
      (s.pwr.group = 0 → t.log = s.log) ∧ (0 < s.pwr.group → s.EventRoom 0x0109 (domUnit ((groupDoms (s.pwr.group + 1)).headD 0)) →
        t.Recorded (s.eventRec 0x0109 (domUnit ((groupDoms (s.pwr.group + 1)).headD 0)) 1 [(16, 1, 5)]))) := by
  have hk : Keep 0x3FFDFFFFF s s.groupFailed := Keep.setPwr rfl (Keep.setPwr rfl (Keep.refl _ _))
  refine Runs.of_next (exec_powerGroupTimeout ho he hg ht) ?_ (fun _ => ⟨?_, fun h => ?_, fun h hr => ?_⟩)
  · exact (Keep.ite (m := 0x3EFDDFCFB) (hk.mono rfl) (Keep.via (State.event_keep ..) rfl (hk.mono rfl))).alters _ (by decide)
  · exact prop_ite (P := fun t => t.pwr = _) rfl ((State.event_keep ..).pwr rfl)
  · rw [if_pos (by omega)]
    rfl
  · rw [if_neg (by omega)]
    exact State.event_recorded_of_same (t := s.groupFailed) hr rfl rfl rfl rfl _ _

/-! ### Power-up and power-down (R35, R38, R468, R572, R573). -/

/-- A rise of PWR_EN noted by the module. -/
def State.enNoted (s : State) (low : Bool) : State :=
  { s with modl := { s.modl with en := true, enAt := s.wall, latched := s.modl.latched && !low } }

/-- PWR_EN has been low for 10 ms. -/
def State.enLow (s : State) : Bool := decide (s.modl.en = false ∧ 1000000 ≤ (s.wall - s.modl.enAt).toNat)

/-- The state in which power comes back. -/
def State.powerUp (s : State) : State := { s.chipReset with off := false, domsOff := 0xFFFFFE, pwr := { groupAt := s.wall } }

theorem exec_pwrEnRise (s : State) (mv : Nat) (mated : Bool) : exec (.pwrEnRise mv mated) s =
    if s.off ∧ s.enLow ∧ 40000 ≤ mv ∧ mv ≤ 59500 ∧ mated then .next ((s.enNoted s.enLow).powerUp.stampDev 0 0) else .next (s.enNoted s.enLow) := rfl

theorem runs_pwrEnRise_noted {s : State} {mv : Nat} {mated : Bool}
    (h : s.off = false ∨ s.modl.en = true ∨ (s.wall - s.modl.enAt).toNat < 1000000 ∨ mv < 40000 ∨ 59500 < mv ∨ mated = false) :
    Runs (.pwrEnRise mv mated) s [.modl] (fun t => t.modl.en = true ∧ t.modl.enAt = s.wall ∧ t.modl.i3c = s.modl.i3c) := by
  refine Runs.of_next ((exec_pwrEnRise s mv mated).trans (if_neg ?_)) ((Keep.setModl (m := 0x1FFFFFFFF) rfl (Keep.refl _ _)).alters _ (by decide))
    (fun _ => ⟨rfl, rfl, rfl⟩)
  rintro ⟨ho, hl, hm, hm', ht⟩
  obtain ⟨he, hw⟩ := of_decide_eq_true hl
  rcases h with h | h | h | h | h | h
  · exact Bool.noConfusion (ho.symm.trans h)
  · exact Bool.noConfusion (h.symm.trans he)
  · omega
  · omega
  · omega
  · exact Bool.noConfusion (ht.symm.trans h)

theorem exec_pwrEnRise_up {s : State} {mv : Nat} (ho : s.off = true) (he : s.modl.en = false)
    (hw : 1000000 ≤ (s.wall - s.modl.enAt).toNat) (hl : 40000 ≤ mv) (hh : mv ≤ 59500) :
    exec (.pwrEnRise mv true) s = .next ((s.enNoted true).powerUp.stampDev 0 0) := by
  have hlow : s.enLow = true := decide_eq_true ⟨he, hw⟩
  rw [exec_pwrEnRise, hlow]
  exact if_pos ⟨ho, rfl, hl, hh, rfl⟩

theorem State.enNoted_modl (s : State) : (s.enNoted true).modl = { s.modl with en := true, enAt := s.wall, latched := false } := by
  show ({ s.modl with en := true, enAt := s.wall, latched := s.modl.latched && !true } : Modl) = _
  rw [Bool.not_true, Bool.and_false]

/-- What loss of power leaves: flash, fuses, the module's own, and what has left the device. -/
structure Darkened (s t : State) : Prop where
  off : t.off = true
  domsOff : t.domsOff = 0xFFFFFF
  mem : t.mem = []
  poison : t.poison = []
  log : t.log = []
  spns : t.spns = []
  cq : t.cq = {}
  flash : t.flash = s.flash
  fuse : t.fuse = s.fuse
  wall : t.wall = s.wall
  pending : t.pending = s.pending
  modl : t.modl = { s.modl with i3c := none }

theorem State.dark_darkened (s : State) : Darkened s s.dark := ⟨rfl, rfl, rfl, rfl, rfl, rfl, rfl, rfl, rfl, rfl, rfl, rfl⟩

/-- A breach notice first touches nothing that loss of power leaves. -/
theorem Darkened.of_keep {m : Nat} {s t u : State} (h : Darkened t u) (k : Keep m s t) (hf : m.testBit 26 = true) (hu : m.testBit 24 = true)
    (hw : m.testBit 27 = true) (hp : m.testBit 0 = true) (hm : m.testBit 33 = true) : Darkened s u where
  off := h.off
  domsOff := h.domsOff
  mem := h.mem
  poison := h.poison
  log := h.log
  spns := h.spns
  cq := h.cq
  flash := h.flash.trans (k.flash hf)
  fuse := h.fuse.trans (k.fuse hu)
  wall := h.wall.trans (k.wall hw)
  pending := h.pending.trans (k.pending hp)
  modl := h.modl.trans (by rw [k.modl hm])

theorem State.powerDown_off {s : State} (h : s.off = true) : s.powerDown = s := if_pos h

theorem State.powerDown_darkened {s : State} (h : s.off = false) : Darkened s s.powerDown := by
  have hp : s.powerDown = (if s.domOn 23 then s.breachNotice 4 else s).dark := if_neg (by simp [h])
  rw [hp]
  exact (State.dark_darkened _).of_keep (m := 0x3EFF9FCBB) (Keep.ite (State.breachNotice_keep ..) (Keep.refl _ _)) rfl rfl rfl rfl rfl

theorem exec_pwrEnFall (s : State) : exec .pwrEnFall s =
    .next { s.powerDown with modl := { s.powerDown.modl with en := false, enAt := s.wall } } := rfl

theorem runs_pwrEnFall_off {s : State} (h : s.off = true) :
    Runs .pwrEnFall s [.modl] (fun t => t.modl = { s.modl with en := false, enAt := s.wall }) :=
  Runs.of_next (by rw [exec_pwrEnFall, State.powerDown_off h]) ((Keep.setModl (m := 0x1FFFFFFFF) rfl (Keep.refl _ _)).alters _ (by decide))
    (fun _ => rfl)

theorem exec_pwrEnFall_on {s : State} (h : s.off = false) : ∃ t, exec .pwrEnFall s = .next t ∧ t.off = true ∧ t.domsOff = 0xFFFFFF ∧ t.mem = [] ∧
    t.poison = [] ∧ t.log = [] ∧ t.spns = [] ∧ t.cq = {} ∧ t.flash = s.flash ∧ t.fuse = s.fuse ∧ t.wall = s.wall ∧ t.pending = s.pending ∧
    t.modl = { s.modl with en := false, enAt := s.wall, i3c := none } := by
  have d := State.powerDown_darkened h
  exact ⟨_, exec_pwrEnFall s, d.off, d.domsOff, d.mem, d.poison, d.log, d.spns, d.cq, d.flash, d.fuse, d.wall, d.pending,
    congrArg (fun m : Modl => { m with en := false, enAt := s.wall }) d.modl⟩

theorem runs_moduleThermalTrip_off {s : State} (h : s.off = true) :
    Runs .moduleThermalTrip s [.modl] (fun t => t.modl = { s.modl with latched := true }) := by
  have he : exec .moduleThermalTrip s = .next { s with modl := { s.modl with latched := true } } := by
    show Host.Outcome.next { (if s.off then s else s.dark) with modl := { (if s.off then s else s.dark).modl with latched := true } } = _
    rw [if_pos h]
  exact Runs.of_next he ((Keep.setModl (m := 0x1FFFFFFFF) rfl (Keep.refl _ _)).alters _ (by decide)) (fun _ => rfl)

theorem exec_moduleThermalTrip_on {s : State} (h : s.off = false) : ∃ t, exec .moduleThermalTrip s = .next t ∧ t.off = true ∧
    t.domsOff = 0xFFFFFF ∧ t.mem = [] ∧ t.poison = [] ∧ t.log = [] ∧ t.spns = [] ∧ t.cq = {} ∧ t.flash = s.flash ∧ t.fuse = s.fuse ∧
    t.wall = s.wall ∧ t.pending = s.pending ∧ t.modl = { s.modl with latched := true, i3c := none } := by
  refine ⟨{ s.dark with modl := { s.dark.modl with latched := true } }, ?_, rfl, rfl, rfl, rfl, rfl, rfl, rfl, rfl, rfl, rfl, rfl, rfl⟩
  show Host.Outcome.next { (if s.off then s else s.dark) with modl := { (if s.off then s else s.dark).modl with latched := true } } = _
  rw [if_neg (by simp [h])]

/-! ### INPUT_SAMPLE (R470). -/

theorem medianN_singleton (m : Nat) : medianN [m] = m := by
  simp [medianN]

/-- The first sample of the input shown, with the counts of samples out of range. -/
def State.sampled (s : State) (mv out exc : Nat) : State :=
  ({ s with pwr := { s.pwr with vin := [mv], outFor := out, excFor := exc } } : State).wf Reg.PWR_IN 31 16 (mv / 10)

theorem State.sampled_keep (s : State) (mv out exc : Nat) : Keep 0x3FFDFFFFB s (s.sampled mv out exc) :=
  Keep.via (State.wf_keep ..) rfl (Keep.setPwr rfl (Keep.refl _ _))

theorem State.sampled_but (s : State) (mv out exc : Nat) : s.RegsBut (s.sampled mv out exc) [Reg.PWR_IN] :=
  (State.RegsBut.of_regs rfl _).trans (State.wf_but _ _ _ _ _)

theorem State.sampled_shows {s : State} (i : s.Inv) {mv : Nat} (h : mv < 655360) (out exc : Nat) :
    (s.sampled mv out exc).rf Reg.PWR_IN 31 16 = mv / 10 :=
  have j : ({ s with pwr := { s.pwr with vin := [mv], outFor := out, excFor := exc } } : State).Inv :=
    (Keep.setPwr (m := 0x3FFDFFFFF) rfl (Keep.refl _ _)).inv i
  (j.shows_wf Reg.PWR_IN (by decide) (by decide) (by omega)).reads

/-- An excursion told at its 5,000th sample. -/
def State.tellExcursion (s : State) (exc mv : Nat) : State := if exc = 5000 then s.event 0x010A devUnit 1 [(16, 2, mv / 10)] else s

theorem State.tellExcursion_keep (s : State) (exc mv : Nat) : Keep 0x3EFFDFCFB s (s.tellExcursion exc mv) :=
  Keep.ite (State.event_keep ..) (Keep.refl _ _)

/-- The counts of samples out of the module's range and of the excursion range. -/
def State.outNow (s : State) (mv : Nat) : Nat := if mv < 40000 ∨ 59500 < mv then s.pwr.outFor + 1 else 0
def State.excNow (s : State) (mv : Nat) : Nat := if mv < 42000 ∨ 58000 < mv then s.pwr.excFor + 1 else 0

theorem exec_inputSample_first {s : State} (ho : s.off = false) (hv : s.pwr.vin = []) (mv : Nat) : exec (.inputSample mv) s =
    .next (if 5000 ≤ s.outNow mv then ((s.sampled mv (s.outNow mv) (s.excNow mv)).tellExcursion (s.excNow mv) mv).powerDown
      else (s.sampled mv (s.outNow mv) (s.excNow mv)).tellExcursion (s.excNow mv) mv) := by
  refine (if_neg (by simp [ho])).trans ?_
  rw [hv, show (([] : List Nat) ++ [mv]).drop (([] : List Nat).length + 1 - 5) = [mv] from rfl, medianN_singleton]
  rfl

section
variable {s : State} {mv : Nat} (ho : s.off = false) (hv : s.pwr.vin = [])
include ho hv

theorem runs_inputSample_within (hl : 42000 ≤ mv) (hh : mv ≤ 58000) : Runs (.inputSample mv) s [.regs, .pwr] (fun t =>
    t.pwr = { s.pwr with vin := [mv], outFor := 0, excFor := 0 } ∧ t.rf Reg.PWR_IN 31 16 = mv / 10 ∧ s.RegsBut t [Reg.PWR_IN]) := by
  have hout : s.outNow mv = 0 := if_neg (by omega)
  have hexc : s.excNow mv = 0 := if_neg (by omega)
  have he := exec_inputSample_first ho hv mv
  rw [hout, hexc] at he
  exact Runs.of_next (t := s.sampled mv 0 0) he ((s.sampled_keep _ _ _).alters _ (by decide))
    (fun i => ⟨rfl, State.sampled_shows i (by omega) _ _, s.sampled_but _ _ _⟩)

theorem runs_inputSample_excursion (hl : mv < 40000) (hn : s.pwr.outFor < 4999) (hx : s.pwr.excFor = 4999) :
    Runs (.inputSample mv) s [.regs, .log, .nodes, .irq, .pwr, .logN] (fun t =>
      t.pwr = { s.pwr with vin := [mv], outFor := s.pwr.outFor + 1, excFor := 5000 } ∧
      (s.EventRoom 0x010A devUnit → t.Recorded (s.eventRec 0x010A devUnit 1 [(16, 2, mv / 10)]))) := by
  have hout : s.outNow mv = s.pwr.outFor + 1 := if_pos (.inl hl)
  have hexc : s.excNow mv = 5000 := (if_pos (.inl (by omega))).trans (by rw [hx])
  have he := (exec_inputSample_first ho hv mv).trans (congrArg _ (if_neg (by omega)))
  rw [hout, hexc] at he
  refine Runs.of_next (t := (s.sampled mv (s.pwr.outFor + 1) 5000).event 0x010A devUnit 1 [(16, 2, mv / 10)]) (he.trans (congrArg _ (if_pos rfl))) ?_
    (fun _ => ⟨?_, fun hr => ?_⟩)
  · exact (Keep.via (m := 0x3EFDDFCFB) (State.event_keep ..) rfl ((s.sampled_keep _ _ _).mono rfl)).alters _ (by decide)
  · exact ((State.event_keep ..).pwr rfl).trans rfl
  · exact State.event_recorded_of_same (t := s.sampled mv (s.pwr.outFor + 1) 5000) hr rfl
      (State.runCtx_of_but (s.sampled_but _ _ _) (by decide)) rfl rfl _ _

theorem exec_inputSample_down (hl : mv < 40000) (hn : 4999 ≤ s.pwr.outFor) : ∃ t, exec (.inputSample mv) s = .next t ∧ t.off = true ∧
    t.domsOff = 0xFFFFFF ∧ t.mem = [] ∧ t.flash = s.flash ∧ t.modl = { s.modl with i3c := none } := by
  have hout : s.outNow mv = s.pwr.outFor + 1 := if_pos (.inl hl)
  have hk : Keep 0x3EFDDFCFB s ((s.sampled mv (s.outNow mv) (s.excNow mv)).tellExcursion (s.excNow mv) mv) :=
    Keep.via (State.tellExcursion_keep ..) rfl ((s.sampled_keep _ _ _).mono rfl)
  have d := (State.powerDown_darkened ((hk.off rfl).trans ho)).of_keep hk rfl rfl rfl rfl rfl
  exact ⟨_, (exec_inputSample_first ho hv mv).trans (congrArg _ (if_pos (by omega))), d.off, d.domsOff, d.mem, d.flash, d.modl⟩

end

/-! ### I3C (R581, R582). -/

theorem exec_i3cRead_not {s : State} {a : BitVec 7} (h : s.domOn 0 = false ∨ s.modl.i3c.getD 0x4B ≠ a.toNat) (o : Byte) (n : Nat) :
    exec (.i3cRead a o n) s = .next s := by
  refine if_neg ?_
  rw [State.i3cAt, Bool.and_eq_true, beq_iff_eq]
  rintro ⟨hd, ha⟩
  exact h.elim (fun h => Bool.noConfusion (hd.symm.trans h)) (· ha)

theorem runs_i3cRead {s : State} {a : BitVec 7} (hd : s.domOn 0 = true) (ha : s.modl.i3c.getD 0x4B = a.toNat) (o : Byte) (n : Nat) :
    Runs (.i3cRead a o n) s [.out] (fun t => t.out = s.out ++ [.i3c (sliceB s.window o.toNat n)]) :=
  Runs.of_next (if_pos (by rw [State.i3cAt, hd, ha]; simp)) ((State.send_keep ..).alters _ (by decide)) (fun _ => rfl)

theorem exec_i3cDynamicAddress_off {s : State} (hd : s.domOn 0 = false) (a : BitVec 7) : exec (.i3cDynamicAddress a) s = .next s :=
  if_neg (by simp [hd])

theorem runs_i3cDynamicAddress {s : State} (hd : s.domOn 0 = true) (a : BitVec 7) :
    Runs (.i3cDynamicAddress a) s [.modl] (fun t => t.modl = { s.modl with i3c := some a.toNat }) :=
  Runs.of_next (t := { s with modl := { s.modl with i3c := some a.toNat } }) (if_pos hd)
    ((Keep.setModl (m := 0x1FFFFFFFF) rfl (Keep.refl _ _)).alters _ (by decide)) (fun _ => rfl)

/-! ### The flash sideband (R583, R585). -/

theorem exec_flashSidebandCmd_not {s : State} {aux : Bool} (h : s.modl.en = true ∨ aux = false) (c : SpiCmd) :
    exec (.flashSidebandCmd c aux) s = .next s := if_pos h

/-- Module flash after a byte is put. -/
theorem State.flashAt_flashPut {s : State} (i : s.Inv) (a : Nat) (b : Byte) (k : Nat) :
    (s.flashPut a [b]).flashAt k = if k = a then b else s.flashAt k := by
  show tget 0 (tset 0 s.flash a (b ^^^ 0xFF)) k ^^^ 0xFF = _
  rw [tget_tset i.flash]
  split
  · rw [BitVec.xor_assoc, BitVec.xor_self, BitVec.xor_zero]
  · rfl

/-- A key filtered out reads as one never written. -/
theorem tget_filter_out {α : Type} {d : α} {p : Nat × α → Bool} {k : Nat} (hp : ∀ v, p (k, v) = false) :
    ∀ t : List (Nat × α), tget d (t.filter p) k = d
  | [] => rfl
  | (k', v) :: r => by
    rw [List.filter_cons]
    split
    next h =>
      have hk : k ≠ k' := fun hk => Bool.noConfusion ((hp v).symm.trans (hk ▸ h))
      simpa [tget, hk] using tget_filter_out hp r
    · exact tget_filter_out hp r

/-- Module flash after the cells from `lo` to `hi` are erased. -/
theorem State.flashAt_erase (s : State) (lo hi k : Nat) :
    ({ s with flash := s.flash.filter (fun c => decide (c.1 < lo ∨ hi ≤ c.1)) } : State).flashAt k =
      if lo ≤ k ∧ k < hi then 0xFF else s.flashAt k := by
  show tget 0 (s.flash.filter _) k ^^^ 0xFF = _
  split
  · rw [tget_filter_out (fun _ => decide_eq_false (by omega))]
    rfl
  · rw [tget_filter (fun _ => decide_eq_true (by omega))]
    rfl

section
variable {s : State} {a : Nat} (he : s.modl.en = false)
include he

theorem runs_flashRead {n : Nat} (ha : a + n ≤ 0x18000000) :
    Runs (.flashSidebandCmd (.read a n) true) s [.out] (fun t => t.out = s.out ++ [.spi (s.flashBytes (flImage + a) n)]) := by
  have hb : (List.range n).map (fun i => if a + i < imagePart then s.flashAt (flImage + a + i) else 0xFF) = s.flashBytes (flImage + a) n :=
    List.map_congr_left (fun i hi => if_pos (by have := List.mem_range.mp hi; unfold imagePart; omega))
  refine Runs.of_next ((if_neg (by simp [he])).trans (congrArg (fun l => Host.Outcome.next (s.send (.spi l))) hb)) ((State.send_keep ..).alters _ (by decide))
    (fun _ => rfl)

theorem runs_flashProgram (ha : a < 0x18000000) (b : Byte) :
    Runs (.flashSidebandCmd (.program a [b]) true) s [.flash] (fun t => t.flashAt (flImage + a) = s.flashAt (flImage + a) &&& b ∧
      ∀ k, k ≠ flImage + a → t.flashAt k = s.flashAt k) := by
  have hk : flImage + a - a % 256 + (a + 0) % 256 = flImage + a := by omega
  have hx : exec (.flashSidebandCmd (.program a [b]) true) s = .next (s.flashPut (flImage + a) [s.flashAt (flImage + a) &&& b]) := by
    refine (if_neg (by simp [he])).trans ((if_neg (by unfold imagePart; omega)).trans ?_)
    rw [show [b].zipIdx = [(b, 0)] from rfl, List.foldl_cons, List.foldl_nil]
    dsimp only
    rw [hk]
  exact Runs.of_next hx ((State.flashPut_keep ..).alters _ (by decide))
    (fun i => ⟨(State.flashAt_flashPut i _ _ _).trans (if_pos rfl), fun k hk => (State.flashAt_flashPut i _ _ _).trans (if_neg hk)⟩)

theorem exec_flashProgram_past (ha : 0x18000000 ≤ a) (b : Byte) : exec (.flashSidebandCmd (.program a [b]) true) s = .next s :=
  (if_neg (by simp [he])).trans (if_pos ha)

theorem exec_flashErase_past (ha : 0x18000000 ≤ a) : exec (.flashSidebandCmd (.erase a) true) s = .next s :=
  (if_neg (by simp [he])).trans (if_pos ha)

theorem runs_flashErase (ha : a < 0x18000000) : Runs (.flashSidebandCmd (.erase a) true) s [.flash] (fun t => ∀ k, t.flashAt k =
    if flImage + a - a % 65536 ≤ k ∧ k < flImage + a - a % 65536 + 65536 then 0xFF else s.flashAt k) := by
  refine Runs.of_next ((if_neg (by simp [he])).trans (if_neg (by unfold imagePart; omega))) ?_ (fun _ => s.flashAt_erase _ _)
  exact (Keep.setFlash (m := 0x3FBFFFFFF) rfl twf_filter (Keep.refl _ _)).alters _ (by decide)

theorem runs_flashStatus : Runs (.flashSidebandCmd .status true) s [.freeN, .out] (fun t => ∃ v, t.out = s.out ++ [.spi [v]]) :=
  Runs.of_next (if_neg (by simp [he])) ((Keep.via (m := 0x3FFFFFFAF) (State.send_keep ..) rfl ((State.free_keep ..).mono rfl)).alters _ (by decide))
    (fun _ => ⟨_, rfl⟩)

end

/-- Settles O44: each command of the module, from its rule. -/
theorem moduleComplete : Obligations.ModuleComplete := by
  unfold Obligations.ModuleComplete
  refine ⟨fun s => ⟨exec_powerGroup_idle, runs_powerGroupGood, exec_powerGroupTimeout_early, runs_powerGroupTimeout⟩,
    fun s mv mated => runs_pwrEnRise_noted, fun s mv ho he hw hl hh => ?_,
    fun s => ⟨runs_pwrEnFall_off, runs_moduleThermalTrip_off, exec_pwrEnFall_on, exec_moduleThermalTrip_on⟩,
    fun s mv => ⟨fun ho => if_pos ho, runs_inputSample_within, runs_inputSample_excursion, exec_inputSample_down⟩,
    fun s a o n => ⟨fun h => exec_i3cRead_not h o n, fun hd ha => runs_i3cRead hd ha o n, fun hd => exec_i3cDynamicAddress_off hd a,
      fun hd => runs_i3cDynamicAddress hd a⟩,
    fun s c aux h => exec_flashSidebandCmd_not h c, fun s a n b he => ?_⟩
  · exact ⟨_, exec_pwrEnRise_up ho he hw hl hh, rfl, rfl, rfl, rfl, rfl, rfl, s.enNoted_modl, rfl, rfl⟩
  · exact ⟨runs_flashRead he, fun ha => runs_flashProgram he ha b, fun ha => ⟨exec_flashProgram_past he ha b, exec_flashErase_past he ha⟩,
      runs_flashErase he, runs_flashStatus he⟩

end Sys2Proof.Machine
end

section
/-! SUPPORT. Start-up, phases 1 to 8 (R384, R385, R391, R549 to R555, R563), each command from its rule. -/

namespace Sys2Proof.Machine

/-! ### Phases (R549). -/

section
variable {s : State} {ph : Nat}

theorem State.toPhase_but (s : State) (ph : Nat) : s.RegsBut (s.toPhase ph) [Reg.CMD_DEV_STATE] :=
  (State.RegsBut.of_regs rfl _).trans (State.wf_but _ _ _ _ _)

theorem State.toPhase_at (s : State) (ph : Nat) : (s.toPhase ph).boot.at_ = s.wall := rfl

theorem State.toPhase_phase (i : s.Inv) (h : ph < 16) : (s.toPhase ph).phase = ph :=
  ((Keep.setBoot (m := 0x37FFFFFFF) rfl (Keep.refl _ _)).inv i |>.shows_wf Reg.CMD_DEV_STATE (by decide) (by decide) h).reads

theorem State.failPhase_but (s : State) (ph : Nat) : s.RegsBut (s.failPhase ph) [Reg.CMD_BOOT_ST] := s.wf_but _ _ _ _

theorem State.booting_devState (h : s.booting ph = true) : s.devState = stBringup := by
  unfold State.booting at h
  simp only [Bool.and_eq_true, beq_iff_eq] at h
  exact h.1.1

theorem State.off_of_devState (h : s.devState = stBringup) : s.off = false := by
  by_contra ho
  exact absurd (h.symm.trans (if_pos (by simpa using ho))) (by decide)

/-! ### The device halts without an event (R38, R384). -/

theorem State.toHalted_but (s : State) : s.RegsBut s.toHalted [Reg.CMD_DEV_STATE] :=
  (State.RegsBut.of_regs rfl _).trans ((State.wf_but _ _ _ _ _).trans (State.wf_but _ _ _ _ _))

theorem State.haltSilent_eq (h : s.devState ≠ stHalted) : s.haltSilent = s.toHalted.wr64 Reg.CMD_DEV_STATE_TS_LO s.now.toNat := if_neg h

/-- The registers of a silent halt of start-up. -/
def haltRegs : List Nat := [Reg.CMD_DEV_STATE, Reg.CMD_DEV_STATE_TS_LO, Reg.CMD_DEV_STATE_TS_LO + 4, Reg.CMD_BOOT_ST]

/-- The state just before the tick of the halt is kept. -/
def State.procHalted (s : State) : State := (s.failPhase 1).toHalted

theorem State.procFail_eq (h : s.devState = stBringup) : s.procFail = (s.procHalted.wr64 Reg.CMD_DEV_STATE_TS_LO s.now.toNat).alertOn := by
  have hd : (s.failPhase 1).devState ≠ stHalted := by
    have : (s.failPhase 1).devState = s.devState := by
      unfold State.devState
      rw [(State.failPhase_keep ..).off rfl, (s.failPhase_but 1).rf (by decide)]
    rw [this, h]
    decide
  exact congrArg State.alertOn (State.haltSilent_eq hd)

theorem State.procHalted_keep (s : State) : Keep 0x3FF7FFFFB s s.procHalted :=
  Keep.via (State.toHalted_keep ..) rfl ((State.failPhase_keep ..).mono rfl)

theorem State.procHalted_but (s : State) : s.RegsBut s.procHalted haltRegs :=
  ((s.failPhase_but 1).mono (by decide)).trans ((State.toHalted_but _).mono (by decide))

theorem State.procFail_but (h : s.devState = stBringup) : s.RegsBut s.procFail haltRegs := by
  rw [State.procFail_eq h]
  exact (s.procHalted_but.trans ((State.wr64_but _ _ _).mono (by decide))).trans (State.RegsBut.of_regs ((State.alertOn_keep _).regs rfl) _)

theorem State.toHalted_shows (i : s.Inv) : s.toHalted.Shows Reg.CMD_DEV_STATE 2 0 stHalted ∧ s.toHalted.Shows Reg.CMD_DEV_STATE 27 24 0 := by
  have j : ({ s with rst := { s.rst with resets := [], chipHeld := false } } : State).Inv := (Keep.setRst (m := 0x3FF7FFFFF) rfl (Keep.refl _ _)).inv i
  exact ⟨((State.wf_keep ..).inv j).shows_wf _ (by decide) (by decide) (by decide),
    (j.shows_wf _ (by decide) (by decide) (by decide)).wf_disjoint (by decide) (by decide) (by decide) _⟩

/-- A field of CMD_DEV_STATE or CMD_BOOT_ST after the halt. -/
theorem State.procFail_rf (h : s.devState = stBringup) {a : Nat} (ha : a ∉ [Reg.CMD_DEV_STATE_TS_LO, Reg.CMD_DEV_STATE_TS_LO + 4]) (hi lo : Nat) :
    s.procFail.rf a hi lo = s.procHalted.rf a hi lo := by
  rw [State.procFail_eq h]
  exact (State.rf_congr ((State.alertOn_keep _).regs rfl) _ _ _).trans ((State.wr64_but _ _ _).rf ha _ _)

theorem runs_startupProc_bad (h : s.booting 0 = true ∨ s.booting 1 = true) :
    Runs (.startupProc false) s [.regs, .pwr, .rst] (fun t => t.devState = stHalted ∧ t.phase = 0 ∧
      t.rf Reg.CMD_BOOT_ST 3 0 = 1 ∧ t.pwr = { s.pwr with alert := true } ∧
      s.RegsBut t [Reg.CMD_DEV_STATE, Reg.CMD_DEV_STATE_TS_LO, Reg.CMD_DEV_STATE_TS_LO + 4, Reg.CMD_BOOT_ST]) := by
  have hd : s.devState = stBringup := h.elim State.booting_devState State.booting_devState
  have he : exec (.startupProc false) s = .next s.procFail := congrArg _ (if_pos (by simpa using h))
  refine Runs.of_next he (s.procFail_keep.alters _ (by decide)) (fun i => ?_)
  obtain ⟨hst, hph⟩ := State.toHalted_shows ((State.failPhase_keep s 1).inv i)
  refine ⟨?_, ?_, ?_, ?_, State.procFail_but hd⟩
  · unfold State.devState
    rw [s.procFail_keep.off rfl, State.off_of_devState hd, State.procFail_rf hd (by decide)]
    exact (if_neg (by decide)).trans hst.reads
  · exact (State.procFail_rf hd (by decide) _ _).trans hph.reads
  · rw [State.procFail_rf hd (by decide)]
    exact ((State.toHalted_but _).rf (by decide) _ _).trans (i.shows_wf Reg.CMD_BOOT_ST (v := 1) (by decide) (by decide) (by decide)).reads
  · rw [State.procFail_eq hd]
    exact congrArg (fun p : Pwr => { p with alert := true }) ((Keep.via (m := 0x3FF7FFFFB) (State.wr64_keep ..) rfl s.procHalted_keep).pwr rfl)

theorem runs_startupProc_good (h : s.booting 0 = true ∨ s.booting 1 = true) :
    Runs (.startupProc true) s [.regs, .boot] (fun t => t.phase = 2 ∧ t.boot.at_ = s.wall ∧ s.RegsBut t [Reg.CMD_DEV_STATE]) :=
  have he : exec (.startupProc true) s = .next (s.toPhase 2) := congrArg _ (if_pos (by simpa using h))
  Runs.of_next he ((State.toPhase_keep s 2).alters _ (by decide)) (fun i => ⟨State.toPhase_phase i (by decide), rfl, s.toPhase_but 2⟩)

theorem exec_startupProc_not (h0 : s.booting 0 = false) (h1 : s.booting 1 = false) (good : Bool) : exec (.startupProc good) s = .next s :=
  congrArg _ (if_neg (by simp [h0, h1]))

end

/-! ### Straps (R551 to R553). -/

/-- The bits of a number, summed. -/
theorem sum_bits (x n : Nat) : ((List.range n).map (fun k => if x.testBit k then 2 ^ k else 0)).sum = x % 2 ^ n := by
  induction n with
  | zero => simp [Nat.mod_one]
  | succ n ih =>
    rw [List.range_succ, List.map_append, List.sum_append, ih, Nat.mod_pow_succ, List.map_singleton, List.sum_singleton,
      Nat.testBit_eq_decide_div_mod_eq]
    rcases Nat.mod_two_eq_zero_or_one (x / 2 ^ n) with h | h <;> simp [h]

theorem stablePin_replicate (v : BitVec 15) (n : Nat) : stablePin (List.replicate 16 v) n = some (v.toNat.testBit n) := by
  simp [stablePin, List.replicate]

/-- All pins read at once, each the same on every sample. -/
theorem State.readStraps_stable {s : State} (v : BitVec 15) (hp : s.boot.pins = 0) (hl : s.boot.lost = []) :
    s.readStraps (List.replicate 16 v) ((List.range 15).map (fun n => (n, 0))) =
      { s with boot := { s.boot with strapAt := some s.wall, pins := v.toNat, unst := [], lost := [] } } := by
  have hgot : (((List.range 15).map (fun n => (n, 0))).filterMap (fun x : Nat × Nat =>
      (stablePin (List.replicate 16 v) x.1).map (fun b => if b then 2 ^ x.1 else 0))).sum = v.toNat := by
    have := sum_bits v.toNat 15
    rw [Nat.mod_eq_of_lt v.isLt] at this
    rw [List.filterMap_map]
    simp only [stablePin_replicate, Function.comp_def, Option.map_some, List.filterMap_eq_map']
    exact this
  have hun : ((List.range 15).map (fun n => (n, 0))).filter (fun x : Nat × Nat => (stablePin (List.replicate 16 v) x.1).isNone) = [] := by
    rw [List.filter_eq_nil_iff]
    intro x _
    rw [stablePin_replicate]
    exact Bool.false_ne_true
  unfold State.readStraps
  dsimp only
  rw [hgot, hun, hp, hl, Nat.zero_add]
  rfl

/-- The straps in effect and what they set, no pin having been given up (R286, R484, R553). -/
def State.strapsShown (s : State) : State :=
  (s.wr Reg.CMD_STRAPS (strapValue s.boot.pins s.boot.lost)).wf Reg.MGMT_PORT_CTL 1 0
    ((s.wr Reg.CMD_STRAPS (strapValue s.boot.pins s.boot.lost)).rf Reg.CMD_STRAPS 3 2)

/-- What the straps set of the fabric's ports and their domain. -/
def State.strapsUsed (s : State) : State :=
  let s := (List.range 16).foldl (fun s p => s.wf (Reg.PORT_CTL p) 2 1 (s.rf Reg.CMD_STRAPS 13 12)) s
  let s := (List.range 32).foldl (fun s h => s.wf (Reg.PORT_HCTL (h / 2) (h % 2)) 0 0 (if s.safe then 0 else 1)) s
  if 6 ≤ s.pwr.group then s.setDom 23 (!s.safe) else s

theorem State.strapsDone_eq {s : State} (h : s.boot.lost = []) : s.strapsDone = s.strapsShown.strapsUsed.toPhase 3 := by
  unfold State.strapsDone State.strapsUsed State.strapsShown
  rw [h, List.foldl_nil]
  dsimp only
  rw [h]

theorem State.strapsShown_keep (s : State) : Keep 0x3FFFFFFFB s s.strapsShown :=
  Keep.via (State.wf_keep ..) rfl (State.wr_keep ..)

theorem State.strapsUsed_keep (s : State) : Keep 0x3FFFEFFFB s s.strapsUsed := by
  have hp : Keep 0x3FFFEFFFB s ((List.range 32).foldl (fun s h => s.wf (Reg.PORT_HCTL (h / 2) (h % 2)) 0 0 (if s.safe then 0 else 1))
      ((List.range 16).foldl (fun s p => s.wf (Reg.PORT_CTL p) 2 1 (s.rf Reg.CMD_STRAPS 13 12)) s)) :=
    Keep.foldl (fun u h => (State.wf_keep ..).mono rfl) (Keep.foldl (fun u p => (State.wf_keep ..).mono rfl) (Keep.refl _ _))
  exact Keep.ite (Keep.via (State.setDom_keep ..) rfl hp) hp

/-- The registers that straps set beside CMD_STRAPS and MGMT_PORT_CTL. -/
def strapRegs : List Nat :=
  (List.range 16).map Reg.PORT_CTL ++ (List.range 32).map (fun h => Reg.PORT_HCTL (h / 2) (h % 2)) ++ [Reg.PWR_ST]

theorem State.strapsUsed_but (s : State) : s.RegsBut s.strapsUsed strapRegs := by
  have hp : s.RegsBut ((List.range 32).foldl (fun s h => s.wf (Reg.PORT_HCTL (h / 2) (h % 2)) 0 0 (if s.safe then 0 else 1))
      ((List.range 16).foldl (fun s p => s.wf (Reg.PORT_CTL p) 2 1 (s.rf Reg.CMD_STRAPS 13 12)) s)) strapRegs := by
    refine State.RegsBut.foldl (fun u h hh => ?_) (State.RegsBut.foldl (fun u p hp => ?_) (State.RegsBut.refl _ _))
    · exact (u.wf_but _ _ _ _).of_one (List.mem_append_left _ (List.mem_append_right _ (List.mem_map_of_mem (f := fun h => Reg.PORT_HCTL (h / 2) (h % 2)) hh)))
    · exact (u.wf_but _ _ _ _).of_one (List.mem_append_left _ (List.mem_append_left _ (List.mem_map_of_mem hp)))
  exact prop_ite (P := fun t => s.RegsBut t strapRegs) (hp.trans ((State.setDom_but _ _ _).of_one (List.mem_append_right _ (List.mem_singleton_self _)))) hp

/-- The value straps of a full reading give, field by field. -/
theorem strapValue_nil (v : Nat) : strapValue v [] = v % 4 + v / 4 % 4 * 4 + v / 16 % 2 * 16 + v / 32 % 16 * 32 +
    (if 7 = v / 512 % 8 then 6 else v / 512 % 8) * 512 + (if 3 = v / 4096 % 4 then 2 else v / 4096 % 4) * 4096 + v / 16384 % 2 * 16384 := by
  simp [strapValue, strapFields]

theorem strapValue_nil_lt (v : Nat) : strapValue v [] < 2 ^ 32 := by
  rw [strapValue_nil]
  split_ifs <;> omega

theorem bitsOf_strapValue_nil (v : Nat) : bitsOf (strapValue v []) 3 2 = bitsOf v 3 2 := by
  rw [strapValue_nil]
  unfold bitsOf
  split_ifs <;> omega

section
variable {s : State} (v : BitVec 15) (hb : s.booting 2 = true) (hs : s.boot.strapAt = none) (hw : 100000 ≤ (s.wall - s.boot.began).toNat)
  (hp : s.boot.pins = 0) (hl : s.boot.lost = [])

/-- The reading of all pins noted. -/
def State.pinsRead (s : State) (v : BitVec 15) : State :=
  { s with boot := { s.boot with strapAt := some s.wall, pins := v.toNat, unst := [], lost := [] } }

include hb hs hw hp hl in
theorem exec_startupStraps_stable : exec (.startupStraps (List.replicate 16 v)) s =
    .next ((s.pinsRead v).strapsShown.strapsUsed.toPhase 3) := by
  have hc : (s.booting 2 && s.boot.strapAt.isNone && decide (100000 ≤ (s.wall - s.boot.began).toNat)) = true := by
    rw [hb, hs, decide_eq_true hw]
    rfl
  show Host.Outcome.next (if _ then _ else s) = _
  rw [if_pos hc, State.readStraps_stable v hp hl]
  exact congrArg _ ((if_pos rfl).trans (State.strapsDone_eq (s := s.pinsRead v) rfl))

include hb hs hw hp hl in
theorem runs_startupStraps_stable : Runs (.startupStraps (List.replicate 16 v)) s [.regs, .domsOff, .boot] (fun t =>
    t.rd Reg.CMD_STRAPS = strapValue v.toNat [] ∧ t.phase = 3 ∧ t.boot.at_ = s.wall ∧ t.rf Reg.MGMT_PORT_CTL 1 0 = bitsOf v.toNat 3 2) := by
  have hk0 : Keep 0x37FFFFFFF s (s.pinsRead v) := Keep.setBoot rfl (Keep.refl _ _)
  have hk : Keep 0x37FFEFFFB s (s.pinsRead v).strapsShown.strapsUsed :=
    Keep.via (State.strapsUsed_keep _) rfl <| Keep.via (State.strapsShown_keep _) rfl <| hk0.mono rfl
  refine Runs.of_next (exec_startupStraps_stable v hb hs hw hp hl) ((Keep.via (State.toPhase_keep ..) rfl hk).alters _ (by decide)) (fun i => ?_)
  have hrd : ((s.pinsRead v).wr Reg.CMD_STRAPS (strapValue v.toNat [])).rd Reg.CMD_STRAPS = strapValue v.toNat [] :=
    (State.rd_wr_self (hk0.inv i).regs _ _).trans (Nat.mod_eq_of_lt (strapValue_nil_lt _))
  have hb := (s.pinsRead v).strapsShown.strapsUsed_but.append (State.toPhase_but (s.pinsRead v).strapsShown.strapsUsed 3)
  refine ⟨?_, State.toPhase_phase (hk.inv i) (by decide), ?_, ?_⟩
  · rw [hb.rd (by decide)]
    exact ((State.wf_but _ _ _ _ _).rd (by decide)).trans hrd
  · rw [State.toPhase_at, hk.wall rfl]
  · rw [hb.rf (by decide)]
    refine (State.rf_wf_self ((State.wr_keep ..).inv (hk0.inv i)).regs (by decide) (by decide)).trans ?_
    show bitsOf (((s.pinsRead v).wr Reg.CMD_STRAPS (strapValue v.toNat [])).rd Reg.CMD_STRAPS) 3 2 % 2 ^ 2 = _
    rw [hrd, bitsOf_strapValue_nil]
    exact Nat.mod_eq_of_lt (bitsOf_lt _ _ _)

end

theorem exec_startupStraps_not {s : State} (h : s.booting 2 = false ∨ s.boot.strapAt ≠ none ∨ (s.wall - s.boot.began).toNat < 100000)
    (l : List (BitVec 15)) : exec (.startupStraps l) s = .next s := by
  refine congrArg _ (if_neg ?_)
  simp only [Bool.and_eq_true, Option.isNone_iff_eq_none, decide_eq_true_eq]
  rintro ⟨⟨h2, hn⟩, hw⟩
  rcases h with h | h | h
  · exact Bool.noConfusion (h2.symm.trans h)
  · exact h hn
  · omega

theorem exec_strapResample_none {s : State} (h : s.boot.strapAt = none) (l : List (BitVec 15)) : exec (.strapResample l) s = .next s := by
  show execStrapResample l s = _
  unfold execStrapResample
  rw [h]

theorem exec_strapResample_some {s : State} {a : DWord} (h : s.boot.strapAt = some a) (l : List (BitVec 15)) : exec (.strapResample l) s =
    .next (if s.booting 2 && decide (10000 ≤ (s.wall - a).toNat) then (s.readStraps l s.boot.unst).strapsRead else s) := by
  show execStrapResample l s = _
  unfold execStrapResample
  rw [h]

theorem exec_strapResample_not {s : State} (h : s.booting 2 = false) (l : List (BitVec 15)) : exec (.strapResample l) s = .next s := by
  cases ha : s.boot.strapAt with
  | none => exact exec_strapResample_none ha l
  | some a => exact (exec_strapResample_some ha l).trans (congrArg _ (if_neg (by simp [h])))

/-! ### Fuses (R554). -/

theorem State.extend_but (s : State) (m : Nat) (d : List Byte) : s.RegsBut (s.extend m d) ((List.range 12).map (Reg.SEC_MEAS m)) :=
  State.RegsBut.foldl (fun u _ hk => (u.wr_but _ _).of_one (List.mem_map_of_mem hk)) (State.RegsBut.refl _ _)

theorem State.loadDevId_but (s : State) : s.RegsBut s.loadDevId ((List.range 12).map Reg.SEC_DEV_ID) :=
  State.RegsBut.foldl (fun u _ hk => (u.wr_but _ _).of_one (List.mem_map_of_mem hk)) (State.RegsBut.refl _ _)

theorem State.showKt_but (s : State) (st : Nat) (b : List Byte) : s.RegsBut (s.showKt st b) [Reg.SEC_KT] := s.wr_but _ _

theorem State.loadKt_but (s : State) : s.RegsBut s.loadKt [Reg.SEC_KT, Reg.CNET_EVT_LOST] := by
  refine prop_ite (P := fun t => s.RegsBut t [Reg.SEC_KT, Reg.CNET_EVT_LOST]) ((s.wr_but _ _).mono (by simp))
    (prop_ite (P := fun t => s.RegsBut t [Reg.SEC_KT, Reg.CNET_EVT_LOST]) ?_ ?_)
  · exact (s.showKt_but _ _).mono (by simp)
  · exact (s.showKt_but _ _).append (State.event_but _ _ _ _ _)

theorem State.loadCaps_but (s : State) : s.RegsBut s.loadCaps [Reg.PWR_CAP_SRC, Reg.PWR_CAP] :=
  (((s.wr_but _ _).mono (by simp)).trans ((State.wr_but _ _ _).mono (by simp))).trans ((State.wf_but _ _ _ _ _).mono (by simp))

/-- The clock limit that fuses give. -/
def State.fusedLimit (s : State) : State := { s with hlth := { s.hlth with fusedMax := fusedFmax s.fuse.part } }

/-- HLTH_FMAX and FUSE_FREE shown. -/
def State.fmaxShown (s : State) : State :=
  (s.wr Reg.FUSE_FREE ((List.range 512).countP (fun n => s.rd (Reg.FUSE_MAP n) == 0))).fusedLimit.wr Reg.HLTH_FMAX (fusedFmax s.fuse.part)

/-- The registers that fuses give first: the free count, HLTH_FMAX, the caps and the MAC address. -/
def State.fusesRead (s : State) : State := (s.fmaxShown.loadCaps.wr Reg.MGMT_MAC_LO s.fuse.mac).wr Reg.MGMT_MAC_HI (s.fuse.mac / 2 ^ 32)

theorem State.fusedLimit_keep (s : State) : Keep 0x3FFBFFFFF s s.fusedLimit := Keep.setHlth rfl (Keep.refl _ _)

theorem State.fmaxShown_keep (s : State) : Keep 0x3FFBFFFFB s s.fmaxShown :=
  Keep.via (State.wr_keep ..) rfl <| Keep.via (State.fusedLimit_keep _) rfl ((State.wr_keep ..).mono rfl)

theorem State.fmaxShown_hlth (s : State) : s.fmaxShown.hlth = { s.hlth with fusedMax := fusedFmax s.fuse.part } := rfl

theorem State.fusesRead_keep (s : State) : Keep 0x3FFFFFFFB s.fmaxShown s.fusesRead :=
  Keep.via (State.wr_keep ..) rfl <| Keep.via (State.wr_keep ..) rfl (State.loadCaps_keep _)

theorem fusedFmax_le (part : Nat) : fusedFmax part ≤ 700 := by
  unfold fusedFmax
  match part with
  | 0 | 1 | 2 | 3 => decide
  | n + 4 => exact (by decide : 400 ≤ 700)

theorem State.fusesRead_fmax {s : State} (i : s.Inv) : s.fusesRead.rd Reg.HLTH_FMAX = fusedFmax s.fuse.part := by
  have j := (s.wr Reg.FUSE_FREE ((List.range 512).countP (fun n => s.rd (Reg.FUSE_MAP n) == 0))).fusedLimit_keep.inv ((State.wr_keep ..).inv i)
  unfold State.fusesRead
  rw [(State.wr_but _ _ _).rd (by decide), (State.wr_but _ _ _).rd (by decide), (State.loadCaps_but _).rd (by decide)]
  exact (State.rd_wr_self j.regs _ _).trans (Nat.mod_eq_of_lt ((fusedFmax_le _).trans_lt (by decide)))

theorem State.fusesRead_mac {s : State} (i : s.Inv) : s.fusesRead.rd Reg.MGMT_MAC_LO = s.fuse.mac % 2 ^ 32 := by
  unfold State.fusesRead
  rw [(State.wr_but _ _ _).rd (by decide)]
  exact State.rd_wr_self ((State.loadCaps_keep _).inv (s.fmaxShown_keep.inv i)).regs _ _

/-- The registers written after these: identity, key table, measurements and seam spares. -/
def fuseRegs : List Nat :=
  (List.range 12).map Reg.SEC_DEV_ID ++ [Reg.SEC_KT, Reg.CNET_EVT_LOST] ++ (List.range 12).map (Reg.SEC_MEAS 0) ++
    (List.range 12).map (Reg.SEC_MEAS 1) ++ (List.range 4).map Reg.SEAM_SPARE ++ [Reg.SEAM_MM_SPARE] ++
    (List.range 12).map (Reg.SEC_MEAS 4)

/-- The configuration fuses' bytes. -/
def State.fuseCfg (s : State) : List Byte :=
  Config.configFuses s.fuse.part s.fuse.mac (match s.fuse.owner with
    | some d => beNat d
    | none => 0) s.fuse.ktCtr

/-- What follows: identity, key table, measurements and seam spares. -/
def State.fusesStored (s : State) : State :=
  let s := s.loadDevId.loadKt.extend 0 (toBE 48 Config.romDigest)
  let s := s.extend 1 (sha384 (s.fuseCfg ++ toLE 4 (s.rd Reg.CMD_STRAPS)))
  let s := (List.range 4).foldl (fun s k => s.wr (Reg.SEAM_SPARE k) (Config.seamSpare s.fuse.part k % 33)) s
  let s := s.wr Reg.SEAM_MM_SPARE (Config.seamSpare s.fuse.part 4 % 33)
  s.extend 4 (sha384 (s.flashBytes flKeys ktSize))

theorem State.fusesDone_eq (s : State) : s.fusesDone = s.fusesRead.fusesStored.toPhase 4 := by
  unfold State.fusesDone State.fusesStored State.fusesRead State.fmaxShown State.fusedLimit State.fuseCfg
  dsimp only <;> rfl

theorem foldl_seamSpare_but (s : State) :
    s.RegsBut ((List.range 4).foldl (fun s k => s.wr (Reg.SEAM_SPARE k) (Config.seamSpare s.fuse.part k % 33)) s) ((List.range 4).map Reg.SEAM_SPARE) :=
  State.RegsBut.foldl (fun u _ hk => (u.wr_but _ _).of_one (List.mem_map_of_mem hk)) (State.RegsBut.refl _ _)

theorem State.fusesStored_but (s : State) : s.RegsBut s.fusesStored fuseRegs :=
by
  have h0 := s.loadDevId_but.append s.loadDevId.loadKt_but
  unfold State.fusesStored
  extract_lets u1 u2 u3 u4
  have h1 : s.RegsBut u1 _ := h0.append (State.extend_but _ _ _)
  have h2 : s.RegsBut u2 _ := h1.append (State.extend_but _ _ _)
  have h3 : s.RegsBut u3 _ := h2.append (foldl_seamSpare_but _)
  have h4 : s.RegsBut u4 _ := h3.append (State.wr_but _ _ _)
  exact h4.append (State.extend_but _ _ _)

theorem State.fusesStored_keep (s : State) : Keep 0x3EFFDFCFB s s.fusesStored := by
  unfold State.fusesStored
  extract_lets u1 u2 u3 u4
  have h1 : Keep 0x3EFFDFCFB s u1 :=
    Keep.via (State.extend_keep ..) rfl <| Keep.via (State.loadKt_keep ..) rfl ((State.loadDevId_keep _).mono rfl)
  have h2 : Keep 0x3EFFDFCFB s u2 := Keep.via (State.extend_keep ..) rfl h1
  have h3 : Keep 0x3EFFDFCFB s u3 := Keep.foldl (fun _ _ => (State.wr_keep ..).mono rfl) h2
  exact Keep.via (State.extend_keep ..) rfl (Keep.via (State.wr_keep ..) rfl h3)

theorem exec_startupFuses_not {s : State} (h : s.booting 3 = false) (bad : Option (BitVec 16)) : exec (.startupFuses bad) s = .next s :=
  congrArg _ (if_neg (by simp [h]))

theorem exec_startupFuses_bad {s : State} (h : s.booting 3 = true) (w : BitVec 16) :
    exec (.startupFuses (some w)) s = .next ((s.event 0x07E2 devUnit 3 [(16, 2, w.toNat)]).bootHalt 3 0x07E2) := congrArg _ (if_pos h)

theorem runs_startupFuses_good {s : State} (h : s.booting 3 = true) :
    Runs (.startupFuses none) s [.regs, .log, .nodes, .irq, .hlth, .logN, .boot] (fun t => t.phase = 4 ∧ t.boot.at_ = s.wall ∧
      t.hlth = { s.hlth with fusedMax := fusedFmax s.fuse.part } ∧ t.rd Reg.HLTH_FMAX = fusedFmax s.fuse.part ∧
      t.rd Reg.MGMT_MAC_LO = s.fuse.mac % 2 ^ 32) := by
  have he : exec (.startupFuses none) s = .next (s.fusesRead.fusesStored.toPhase 4) := (congrArg _ (if_pos h)).trans (congrArg _ s.fusesDone_eq)
  have hk : Keep 0x3EFFDFCFB s.fmaxShown s.fusesRead.fusesStored := Keep.via (State.fusesStored_keep _) rfl (s.fusesRead_keep.mono rfl)
  have hb := s.fusesRead.fusesStored_but.append (State.toPhase_but s.fusesRead.fusesStored 4)
  refine Runs.of_next he (s.fusesDone_eq ▸ s.fusesDone_keep.alters _ (by decide))
    (fun i => ⟨State.toPhase_phase (hk.inv (s.fmaxShown_keep.inv i)) (by decide), ?_, ?_, ?_, ?_⟩)
  · rw [State.toPhase_at, hk.wall rfl, s.fmaxShown_keep.wall rfl]
  · rw [(State.toPhase_keep ..).hlth rfl, hk.hlth rfl, State.fmaxShown_hlth]
  · rw [hb.rd (by decide)]
    exact State.fusesRead_fmax i
  · rw [hb.rd (by decide)]
    exact State.fusesRead_mac i

/-! ### Clocks (R361, R454, R555). -/

/-- The tick begins at 0, and the chip is no longer held. -/
def State.tickBegun (s : State) : State := { s with now := 0, rst := { s.rst with chipHeld := false } }

theorem State.syncPlan_but (s : State) (f : Nat) : s.RegsBut (s.syncPlan f) ((List.range 24).map Reg.PWR_DOM_V) :=
  State.RegsBut.foldl (fun u _ hk => (u.wf_but _ _ _ _).of_one (List.mem_map_of_mem hk)) (State.RegsBut.refl _ _)

/-- The planned clock and the A-clock touch neither the clock's source nor its state of loss. -/
theorem State.Shows.loadPlan {s : State} {hi lo n : Nat} (h : s.Shows Reg.CLK_ST hi lo n) (hh : hi < 7) : s.loadPlan.Shows Reg.CLK_ST hi lo n := by
  unfold State.loadPlan
  extract_lets u1 u2
  have h1 : u1.Shows Reg.CLK_ST hi lo n := (((h.wf_other (by decide) _ _ _).wf_other (by decide) _ _ _).wf_disjoint (by decide) (by decide) (.inl hh) _)
  have h2 : u2.Shows Reg.CLK_ST hi lo n := h1.wf_disjoint (by decide) (by decide) (.inl (by omega)) _
  exact h2.of_but (State.syncPlan_keep ..) (State.syncPlan_but _ _) (by decide)

theorem State.newNonce_but (s : State) (l : List Nat) : s.RegsBut s.newNonce l := State.RegsBut.of_regs (s.newNonce_keep.regs rfl) l

theorem State.loadAddrs_but (s : State) (l : List Nat) : s.RegsBut s.loadAddrs l := State.RegsBut.of_regs (s.loadAddrs_keep.regs rfl) l

/-- A-clock from the PLL with REFCLK present. -/
def State.clockShown (s : State) : State := (s.tickBegun.wf Reg.CLK_ST 1 0 3).wf Reg.CLK_ST 3 2 0

/-- The plan, Cuard's addresses and a nonce follow. -/
def State.clockUsed (s : State) : State := s.clockShown.loadPlan.loadAddrs.newNonce

/-- The device is aligned. -/
def State.aligned (s : State) : State := (s.wf Reg.DET_ALIGN 0 0 1).wf Reg.DET_ALIGN 7 4 0

theorem State.released_eq (s : State) : s.released true = s.clockUsed.aligned.toPhase 5 := rfl

theorem State.tickBegun_keep (s : State) : Keep 0x3FF7FFFFD s s.tickBegun := Keep.setNowRst rfl rfl (Keep.refl _ _)

theorem State.clockShown_keep (s : State) : Keep 0x3FF7FFFF9 s s.clockShown :=
  Keep.via (State.wf_keep ..) rfl <| Keep.via (State.wf_keep ..) rfl (s.tickBegun_keep.mono rfl)

theorem State.clockUsed_keep (s : State) : Keep 0x39FFFFFDB s.clockShown s.clockUsed :=
  Keep.via (State.newNonce_keep ..) rfl <| Keep.via (State.loadAddrs_keep ..) rfl ((State.loadPlan_keep ..).mono rfl)

theorem State.aligned_keep (s : State) : Keep 0x3FFFFFFFB s s.aligned := Keep.via (State.wf_keep ..) rfl (State.wf_keep ..)

theorem State.aligned_but (s : State) : s.RegsBut s.aligned [Reg.DET_ALIGN] := (s.wf_but _ _ _ _).trans (State.wf_but _ _ _ _ _)

/-- A field of CLK_ST below the planned ones stays to the end. -/
theorem State.Shows.released {s : State} {hi lo n : Nat} (h : s.clockShown.Shows Reg.CLK_ST hi lo n) (hh : hi < 7) :
    (s.clockUsed.aligned.toPhase 5).rf Reg.CLK_ST hi lo = n := by
  have hb := (((State.loadAddrs_but s.clockShown.loadPlan []).append (State.newNonce_but _ [])).append s.clockUsed.aligned_but).append
    (State.toPhase_but s.clockUsed.aligned 5)
  exact (hb.rf (by decide) _ _).trans (h.loadPlan hh).reads

section
variable {s : State} (hb : s.booting 4 = true) (hg : s.pwr.group = 7)

theorem exec_startupClocks_not (h : s.booting 4 = false ∨ s.pwr.group ≠ 7) (bad : Option (Fin 6)) (refclk : Bool) :
    exec (.startupClocks bad refclk) s = .next s := by
  refine congrArg _ (if_neg ?_)
  rw [Bool.and_eq_true, beq_iff_eq]
  rintro ⟨h4, h7⟩
  exact h.elim (fun h => Bool.noConfusion (h4.symm.trans h)) (· h7)

include hb hg

theorem exec_startupClocks_bad (p : Fin 6) (refclk : Bool) :
    exec (.startupClocks (some p) refclk) s = .next ((s.event 0x07E8 devUnit 3 [(16, 1, p)]).bootHalt 4 0x07E8) :=
  congrArg _ (if_pos (by rw [hb, hg]; rfl))

theorem runs_startupClocks_good : Runs (.startupClocks none true) s [.now, .regs, .drbgN, .rst, .cq, .mgmt, .boot] (fun t => t.now = 0 ∧
    t.rst = { s.rst with chipHeld := false } ∧ t.phase = 5 ∧ t.boot.at_ = s.wall ∧ t.rf Reg.CLK_ST 1 0 = 3 ∧ t.rf Reg.CLK_ST 3 2 = 0 ∧
    t.rbit Reg.DET_ALIGN 0 = true ∧ t.rf Reg.DET_ALIGN 7 4 = 0) := by
  have he : exec (.startupClocks none true) s = .next (s.clockUsed.aligned.toPhase 5) :=
    (congrArg _ (if_pos (by rw [hb, hg]; rfl))).trans (congrArg _ s.released_eq)
  have hk : Keep 0x3FFFFFFFB s.clockUsed s.clockUsed.aligned := s.clockUsed.aligned_keep
  have hu : Keep 0x39F7FFFD9 s s.clockUsed := Keep.via s.clockUsed_keep rfl (s.clockShown_keep.mono rfl)
  refine Runs.of_next he ((Keep.via (m := 0x31F7FFFD9) (State.toPhase_keep ..) rfl (Keep.via hk rfl (hu.mono rfl))).alters _ (by decide))
    (fun i => ⟨?_, ?_, State.toPhase_phase (hk.inv (hu.inv i)) (by decide), ?_, ?_, ?_, ?_, ?_⟩)
  · rw [(State.toPhase_keep ..).now rfl, hk.now rfl, s.clockUsed_keep.now rfl]
    rfl
  · rw [(State.toPhase_keep ..).rst rfl, hk.rst rfl, s.clockUsed_keep.rst rfl]
    rfl
  · rw [State.toPhase_at, hk.wall rfl, hu.wall rfl]
  · exact State.Shows.released (((s.tickBegun_keep.inv i).shows_wf Reg.CLK_ST (by decide) (by decide) (by decide)).wf_disjoint (by decide) (by decide)
      (by decide) _) (by decide)
  · exact State.Shows.released (((State.wf_keep ..).inv (s.tickBegun_keep.inv i)).shows_wf Reg.CLK_ST (by decide) (by decide) (by decide)) (by decide)
  · rw [(State.toPhase_but _ _).rbit (by decide)]
    have j : (s.clockUsed.wf Reg.DET_ALIGN 0 0 1).Inv := (State.wf_keep ..).inv (hu.inv i)
    refine (State.rbit_wf j.regs (by decide) (by decide) 0).trans ((if_neg (by decide)).trans ?_)
    exact (State.rbit_wf (hu.inv i).regs (by decide) (by decide) 0).trans (if_pos (by decide))
  · rw [(State.toPhase_but _ _).rf (by decide)]
    exact State.rf_wf_self ((State.wf_keep ..).inv (hu.inv i)).regs (by decide) (by decide)

end

/-! ### Calibration, DRAM, tests and acceptance (R385, R391, R549, R563). -/

theorem exec_startupCal_not {s : State} (h : s.booting 5 = false) : exec .startupCal s = .next s := congrArg _ (if_neg (by simp [h]))

/-- Phase 5 ends in phase 6, whatever was read. -/
theorem State.calDone_eq (s : State) (late : Bool) : ∃ u : State, Keep 0x3EFBDFCFB s u ∧ s.calDone late = u.toPhase 6 := by
  unfold State.calDone
  extract_lets u1 v u2 u3 u4
  have h1 : Keep 0x3EFBDFCFB s u1 := (State.judgeCal_keep ..).mono rfl
  have h2 : Keep 0x3EFBDFCFB s u2 := Keep.setHlth rfl h1
  have h3 : Keep 0x3EFBDFCFB s u3 := Keep.via (State.loadPlan_keep ..) rfl <| Keep.via (State.loadSoft_keep ..) rfl <|
    Keep.via (State.loadAge_keep ..) rfl <| Keep.via (State.loadBaseline_keep ..) rfl h2
  exact ⟨_, Keep.via (State.extend_keep ..) rfl <| Keep.via (State.extend_keep ..) rfl <| Keep.via (State.wf_keep ..) rfl h3, rfl⟩

theorem runs_startupCal {s : State} (h : s.booting 5 = true) : Runs .startupCal s [.regs, .log, .nodes, .irq, .hlth, .logN, .boot] (fun t =>
    t.phase = 6 ∧ t.boot.at_ = s.wall) := by
  obtain ⟨u, hk, hu⟩ := s.calDone_eq false
  have he : exec .startupCal s = .next (s.calDone false) := by
    show execStartupCal s = _
    unfold execStartupCal
    rw [if_pos h]
  refine Runs.of_next he ((s.calDone_keep false).alters _ (by decide)) (fun i => ⟨?_, ?_⟩)
  · rw [hu]
    exact State.toPhase_phase (hk.inv i) (by decide)
  · rw [hu, State.toPhase_at, hk.wall rfl]

/-- Phase 6 ends in phase 7, whichever channels failed. -/
theorem State.dramDone_eq (s : State) (failed : List Nat) : ∃ u : State, Keep 0x36FFDBCFB s u ∧ s.dramDone failed = u.toPhase 7 := by
  unfold State.dramDone
  extract_lets u1 u2 u3 u4 u5
  have h1 : Keep 0x36FFDBCFB s u1 := Keep.foldl (fun u ch => Keep.ite ((State.fenceChan_keep ..).mono rfl)
    (Keep.ite ((State.fenceChan_keep ..).mono rfl) (Keep.refl _ _))) (Keep.refl _ _)
  have h2 : Keep 0x36FFDBCFB s u2 := Keep.foldl (fun u n => Keep.ite ((State.loadRow_keep ..).mono rfl) (Keep.refl _ _)) h1
  have h3 : Keep 0x36FFDBCFB s u3 := Keep.foldl (fun u e => (State.loadRow_keep ..).mono rfl) h2
  have h4 : Keep 0x36FFDBCFB s u4 := Keep.foldl (fun u ch => (State.syncSpares_keep ..).mono rfl) h3
  exact ⟨_, Keep.ite (Keep.setBoot rfl h4) h4, rfl⟩

theorem exec_startupDram_not {s : State} (h : s.booting 6 = false) (failed : List Nat) : exec (.startupDram failed) s = .next s :=
  congrArg _ (if_neg (by simp [h]))

theorem runs_startupDram {s : State} (h : s.booting 6 = true) (failed : List Nat) :
    Runs (.startupDram failed) s [.regs, .log, .nodes, .chans, .irq, .logN, .boot] (fun t => t.phase = 7 ∧ t.boot.at_ = s.wall) := by
  obtain ⟨u, hk, hu⟩ := s.dramDone_eq failed
  have he : exec (.startupDram failed) s = .next (s.dramDone failed) := congrArg _ (if_pos h)
  refine Runs.of_next he ((s.dramDone_keep failed).alters _ (by decide)) (fun i => ⟨?_, ?_⟩)
  · rw [hu]
    exact State.toPhase_phase (hk.inv i) (by decide)
  · rw [hu, State.toPhase_at, hk.wall rfl]

theorem exec_startupTest_not {s : State} (h : s.booting 7 = false ∨ s.hlth.waves ≠ []) : exec .startupTest s = .next s := by
  refine congrArg _ (if_neg ?_)
  rw [Bool.and_eq_true, List.isEmpty_iff]
  rintro ⟨h7, hw⟩
  exact h.elim (fun h => Bool.noConfusion (h7.symm.trans h)) (· hw)

/-- The waves formed and the first one begun. -/
def State.wavesBegun (s : State) (l : List (List Nat)) : State :=
  { s with hlth := { s.hlth with waves := l, waveAt := s.wall, outs := [] } }

section
variable {s : State} (hb : s.booting 7 = true) (hw : s.hlth.waves = [])
include hb hw

theorem booting_noWaves : (s.booting 7 && s.hlth.waves.isEmpty) = true := by
  rw [hb, hw]
  rfl

theorem exec_startupTest_none (h : s.bootWaves.2 = none) :
    exec .startupTest s = .next ((s.wf Reg.TEST_SU 15 0 (s.bootWaves.1 / 10)).notAccepted 7 32) := by
  refine congrArg _ ((if_pos (booting_noWaves hb hw)).trans ?_)
  dsimp only
  rw [h]

theorem exec_startupTest_some {l : List (List Nat)} (h : s.bootWaves.2 = some l) : exec .startupTest s =
    .next (((s.wf Reg.TEST_SU 15 0 (s.bootWaves.1 / 10)).wavesBegun l).wf Reg.TEST_SU 23 16 (min 255 l.length)) := by
  refine congrArg _ ((if_pos (booting_noWaves hb hw)).trans ?_)
  dsimp only
  rw [h]
  unfold State.wavesBegun
  dsimp only

theorem runs_startupTest {l : List (List Nat)} (h : s.bootWaves.2 = some l) : Runs .startupTest s [.regs, .hlth] (fun t =>
    t.hlth = { s.hlth with waves := l, waveAt := s.wall, outs := [] } ∧ t.rf Reg.TEST_SU 23 16 = min 255 l.length ∧ s.RegsBut t [Reg.TEST_SU]) := by
  have hk : Keep 0x3FFBFFFFB s ((s.wf Reg.TEST_SU 15 0 (s.bootWaves.1 / 10)).wavesBegun l) := Keep.setHlth rfl ((State.wf_keep ..).mono rfl)
  refine Runs.of_next (exec_startupTest_some hb hw h) ((Keep.via (State.wf_keep ..) rfl hk).alters _ (by decide)) (fun i => ⟨?_, ?_, ?_⟩)
  · rw [(State.wf_keep ..).hlth rfl]
    rfl
  · exact ((hk.inv i).shows_wf Reg.TEST_SU (by decide) (by decide) (Nat.lt_succ_of_le (Nat.min_le_left ..))).reads
  · exact ((s.wf_but _ _ _ _).trans (State.RegsBut.of_regs rfl _)).trans (State.wf_but _ _ _ _ _)

end

theorem exec_startupAccept_not {s : State} (h : s.booting 8 = false) : exec .startupAccept s = .next s := congrArg _ (if_neg (by simp [h]))

theorem exec_startupAccept {s : State} (h : s.booting 8 = true) : exec .startupAccept s = .next s.acceptDone := congrArg _ (if_pos h)

/-- Settles O45: each command of phases 1 to 8 of start-up, from its rule. -/
theorem earlyStartUpComplete : Obligations.EarlyStartUpComplete := by
  unfold Obligations.EarlyStartUpComplete
  refine ⟨fun s good => ⟨fun h0 h1 => exec_startupProc_not h0 h1 good, runs_startupProc_good, runs_startupProc_bad⟩, fun s l => ?_,
    fun s v hb hs hw hp hl => runs_startupStraps_stable v hb hs hw hp hl, fun s bad h => exec_startupFuses_not h bad,
    fun s w h => exec_startupFuses_bad h w, fun s => runs_startupFuses_good, fun s bad refclk h => exec_startupClocks_not h bad refclk,
    fun s p refclk hb hg => exec_startupClocks_bad hb hg p refclk, fun s => runs_startupClocks_good,
    fun s => ⟨exec_startupCal_not, runs_startupCal⟩, fun s failed => ⟨fun h => exec_startupDram_not h failed, fun h => runs_startupDram h failed⟩,
    fun s => ⟨fun h => exec_startupTest_not (.inl h), fun h => exec_startupTest_not (.inr h), exec_startupTest_none,
      fun l hb hw => runs_startupTest hb hw⟩,
    fun s => ⟨exec_startupAccept_not, fun h => ⟨fun hr => ?_, fun hr => ?_⟩⟩⟩
  · exact ⟨fun h => ⟨exec_startupStraps_not (.inl h) l, exec_strapResample_not h l⟩, fun h => exec_startupStraps_not (.inr (.inl h)) l,
      fun h => exec_startupStraps_not (.inr (.inr h)) l, fun h => exec_strapResample_none h l,
      fun a h ht => (exec_strapResample_some h l).trans (congrArg _ (if_neg (by rw [Bool.and_eq_true, decide_eq_true_eq]; omega))),
      fun a h hb ht => (exec_strapResample_some h l).trans (congrArg _ (if_pos (by rw [hb, decide_eq_true ht]; rfl)))⟩
  · rw [exec_startupAccept h]
    exact congrArg _ (if_pos hr)
  · rw [exec_startupAccept h]
    exact congrArg _ (if_neg hr)

end Sys2Proof.Machine
end

section
/-! SUPPORT. Start-up, phases 9 to 12, and the limits of phases (R288, R389, R549, R556 to R562, R566), each command from its rule. -/

namespace Sys2Proof.Machine

/-! ### One phase at a time (R549). -/

section
variable {s : State} {ph : Nat}

theorem State.booting_phase (h : s.booting ph = true) : s.phase = ph := by
  unfold State.booting at h
  rw [Bool.and_eq_true, beq_iff_eq] at h
  exact h.2

theorem State.not_booting {k : Nat} (h : s.booting ph = true) (hk : ph ≠ k) : s.booting k = false := by
  by_contra hc
  exact hk ((State.booting_phase h).symm.trans (State.booting_phase (by simpa using hc)))

/-- A field that the begin of a phase leaves. -/
theorem State.toPhase_shows {a hi lo n : Nat} (h : s.Shows a hi lo n) (ha : a ∉ [Reg.CMD_DEV_STATE]) (ph : Nat) : (s.toPhase ph).rf a hi lo = n :=
  ((s.toPhase_but ph).rf ha hi lo).trans h.reads

end

/-! ### The coordinate (R556, R557). -/

section
variable {s : State}

/-- The coordinate's registers set. -/
def State.coordShown (s : State) (src coord topo dims : Nat) : State :=
  ((s.wf Reg.FAB_CTL 1 0 topo).wr Reg.FAB_DIMS dims).wr Reg.FAB_COORD (2 ^ 31 + src * 2 ^ 30 + coord)

theorem State.assignCoord_eq (s : State) (src coord topo dims : Nat) :
    s.assignCoord src coord topo dims = (s.coordShown src coord topo dims).toPhase 10 := rfl

theorem State.coordShown_keep (s : State) (src coord topo dims : Nat) : Keep 0x3FFFFFFFB s (s.coordShown src coord topo dims) :=
  Keep.via (State.wr_keep ..) rfl <| Keep.via (State.wr_keep ..) rfl (State.wf_keep ..)

theorem State.coordShown_rd (i : s.Inv) {src coord topo dims : Nat} (hs : src < 2) (hc : coord < 8192) (ht : topo < 4) (hd : dims < 2 ^ 32) :
    (s.coordShown src coord topo dims).rd Reg.FAB_COORD = 2 ^ 31 + src * 2 ^ 30 + coord ∧
    (s.coordShown src coord topo dims).rd Reg.FAB_DIMS = dims ∧ (s.coordShown src coord topo dims).rf Reg.FAB_CTL 1 0 = topo := by
  have j : (s.wf Reg.FAB_CTL 1 0 topo).Inv := (State.wf_keep ..).inv i
  have k : ((s.wf Reg.FAB_CTL 1 0 topo).wr Reg.FAB_DIMS dims).Inv := (State.wr_keep ..).inv j
  refine ⟨?_, ?_, ?_⟩
  · exact (State.rd_wr_self k.regs _ _).trans (Nat.mod_eq_of_lt (by omega))
  · exact (State.rd_wr_ne k.regs _ (by decide)).trans ((State.rd_wr_self j.regs _ _).trans (Nat.mod_eq_of_lt hd))
  · exact (((State.wr_but _ _ _).append (State.wr_but _ _ _)).rf (by decide) _ _).trans (i.shows_wf Reg.FAB_CTL (by decide) (by decide) ht).reads

/-- A coordinate assigned begins phase 10. -/
theorem runs_assignCoord {src coord topo dims : Nat} (he : exec .startupCoord s = .next (s.assignCoord src coord topo dims)) (hs : src < 2)
    (hc : coord < 8192) (ht : topo < 4) (hd : dims < 2 ^ 32) : Runs .startupCoord s [.regs, .boot] (fun t =>
      t.rd Reg.FAB_COORD = 2 ^ 31 + src * 2 ^ 30 + coord ∧ t.rd Reg.FAB_DIMS = dims ∧ t.rf Reg.FAB_CTL 1 0 = topo ∧ t.phase = 10 ∧ t.boot.at_ = s.wall) := by
  have hk := s.coordShown_keep src coord topo dims
  have hb := State.toPhase_but (s.coordShown src coord topo dims) 10
  refine Runs.of_next (he.trans (congrArg _ (s.assignCoord_eq ..))) ((State.assignCoord_keep ..).alters _ (by decide)) (fun i => ?_)
  obtain ⟨hcoord, hdims, htopo⟩ := State.coordShown_rd i hs hc ht hd
  refine ⟨(hb.rd (by decide)).trans hcoord, (hb.rd (by decide)).trans hdims, (hb.rf (by decide) _ _).trans htopo,
    State.toPhase_phase (hk.inv i) (by decide), ?_⟩
  rw [State.toPhase_at, hk.wall rfl]

theorem exec_startupCoord (h : s.booting 9 = true) (hn : s.rbit Reg.CMD_STRAPS 4 = false) : exec .startupCoord s =
    .next (s.boot.coord.elim s (fun c => s.assignCoord 1 c.1 c.2.1 c.2.2)) := by
  show execStartupCoord s = _
  unfold execStartupCoord
  rw [if_pos h, if_neg (by simp [hn])]
  cases s.boot.coord <;> rfl

theorem exec_startupCoord_not (h : s.booting 9 = false) : exec .startupCoord s = .next s := congrArg _ (if_neg (by simp [h]))

theorem exec_startupCoord_waits (hn : s.rbit Reg.CMD_STRAPS 4 = false) (hc : s.boot.coord = none) : exec .startupCoord s = .next s := by
  cases h : s.booting 9 with
  | false => exact exec_startupCoord_not h
  | true =>
    rw [exec_startupCoord h hn, hc]
    rfl

theorem exec_startupCoord_strapped (h : s.booting 9 = true) (hs : s.rbit Reg.CMD_STRAPS 4 = true) :
    exec .startupCoord s = .next (s.assignCoord 0 (s.rf Reg.CMD_STRAPS 8 5) 0 15) :=
  congrArg _ ((if_pos h).trans (if_pos hs))

theorem exec_startupCoord_held (h : s.booting 9 = true) (hn : s.rbit Reg.CMD_STRAPS 4 = false) {c topo d : Nat} (hc : s.boot.coord = some (c, topo, d)) :
    exec .startupCoord s = .next (s.assignCoord 1 c topo d) := by
  rw [exec_startupCoord h hn, hc]
  rfl

/-- The wait goes on unless every condition for its end holds. -/
theorem State.not_coordExpired (h : s.booting 9 = false ∨ s.rbit Reg.CMD_STRAPS 4 = true ∨ s.boot.coord ≠ none ∨ s.inPhase < 60000000000) :
    s.coordExpired = false := by
  by_contra hc
  have hc : s.coordExpired = true := by simpa using hc
  unfold State.coordExpired at hc
  simp only [Bool.and_eq_true, Option.isNone_iff_eq_none, decide_eq_true_eq, Bool.not_eq_true'] at hc
  obtain ⟨⟨⟨h9, hs⟩, hn⟩, ht⟩ := hc
  rcases h with h | h | h | h
  · exact Bool.noConfusion (h9.symm.trans h)
  · exact Bool.noConfusion (hs.symm.trans h)
  · exact h hn
  · omega

theorem exec_coordWaitExpiry_not (h : s.booting 9 = false ∨ s.rbit Reg.CMD_STRAPS 4 = true ∨ s.boot.coord ≠ none ∨ s.inPhase < 60000000000) :
    exec .coordWaitExpiry s = .next s :=
  congrArg _ (if_neg (by simp [State.not_coordExpired h]))

/-- The wait that ended told. -/
def State.coordTold (s : State) : State := (s.failPhase 9).event 0x07E5 devUnit 2 []

theorem State.coordLate_eq (s : State) : s.coordLate = s.coordTold.toPhase 11 := rfl

theorem runs_coordWaitExpiry (h : s.booting 9 = true) (hs : s.rbit Reg.CMD_STRAPS 4 = false) (hc : s.boot.coord = none) (ht : 60000000000 ≤ s.inPhase) :
    Runs .coordWaitExpiry s [.regs, .log, .nodes, .irq, .logN, .boot] (fun t => t.phase = 11 ∧ t.rf Reg.CMD_BOOT_ST 3 0 = 9 ∧ t.boot.at_ = s.wall ∧
      (s.EventRoom 0x07E5 devUnit → t.Recorded (s.eventRec 0x07E5 devUnit 2 []))) := by
  have hx : s.coordExpired = true := by
    unfold State.coordExpired
    rw [h, hs, hc, decide_eq_true ht]
    rfl
  have hk : Keep 0x3EFFDFCFB s s.coordTold := Keep.via (State.event_keep ..) rfl ((State.failPhase_keep ..).mono rfl)
  refine Runs.of_next ((congrArg _ (if_pos hx)).trans (congrArg _ s.coordLate_eq)) (s.coordLate_keep.alters _ (by decide))
    (fun i => ⟨State.toPhase_phase (hk.inv i) (by decide), ?_, ?_, fun hr => ?_⟩)
  · exact State.toPhase_shows ((i.shows_wf Reg.CMD_BOOT_ST (v := 9) (by decide) (by decide) (by decide)).event (by decide) _ _ _ _) (by decide) 11
  · rw [State.toPhase_at, hk.wall rfl]
  · exact (State.event_recorded_of_same (t := s.failPhase 9) hr ((State.failPhase_keep ..).now rfl) (State.runCtx_of_but (s.failPhase_but 9) (by decide))
      ((State.failPhase_keep ..).log rfl) ((State.failPhase_keep ..).nodes rfl) _ _).keep (State.toPhase_keep ..) rfl

/-! ### Links (R288, R549). -/

theorem exec_startupLinks_not (h : s.booting 10 = false) : exec .startupLinks s = .next s := congrArg _ (if_neg (by simp [h]))

theorem exec_startupLinks_begin (h : s.booting 10 = true) (hl : s.boot.linking = false) : exec .startupLinks s =
    .next (s.bootHalves.foldl (fun s h => s.retrain h) ({ s with boot := { s.boot with linking := true } } : State)) :=
  congrArg _ ((if_pos h).trans (if_neg (by simp [hl])))

theorem exec_startupLinks_training (h : s.booting 10 = true) (hl : s.boot.linking = true) (ht : ∃ p, p < 32 ∧ s.portSt p = 1) :
    exec .startupLinks s = .next s := by
  refine congrArg _ ((if_pos h).trans ((if_pos hl).trans (if_neg ?_)))
  simpa using ht

theorem runs_startupLinks_end (h : s.booting 10 = true) (hl : s.boot.linking = true) (ht : ∀ p, p < 32 → s.portSt p ≠ 1) :
    Runs .startupLinks s [.regs, .boot] (fun t => t.phase = 11 ∧ t.boot.at_ = s.wall ∧ s.RegsBut t [Reg.CMD_DEV_STATE]) := by
  have ha : (List.range 32).all (fun p => s.portSt p != 1) = true := by simpa using ht
  have he : exec .startupLinks s = .next (s.toPhase 11) := congrArg _ ((if_pos h).trans ((if_pos hl).trans (if_pos ha)))
  exact Runs.of_next he ((State.toPhase_keep ..).alters _ (by decide)) (fun i => ⟨State.toPhase_phase i (by decide), rfl, s.toPhase_but 11⟩)

end

/-! ### The image (R558 to R560, R562). -/

/-- RESULT shown as phase 12 begins. -/
def State.resultShown (s : State) (result : Nat) : State := (s.wf Reg.CMD_BOOT_ST 11 8 result).toPhase 12

/-- No transfer is under way, and no image is at hand. -/
def State.imageDropped (s : State) : State := { s with boot := { s.boot with client := false, tftp := none, image := none } }

theorem State.imageDropped_keep (s : State) : Keep 0x37FFFFFFF s s.imageDropped := Keep.setBoot rfl (Keep.refl _ _)

theorem State.imageDropped_but (s : State) (l : List Nat) : s.RegsBut s.imageDropped l := State.RegsBut.of_regs rfl l

theorem State.imageDropped_boot (s : State) : s.imageDropped.boot = { s.boot with client := false, tftp := none, image := none } := rfl

theorem State.noImage_told (s : State) {result : Nat} (h : result ≠ 4) (bytes : Nat) :
    s.noImage result bytes = (s.resultShown result).imageDropped.event 0x07E6 devUnit 2 [(16, 1, result), (17, 4, bytes)] := if_neg h

section
variable {s : State}

theorem exec_startupImage_not (h : s.booting 11 = false ∨ s.boot.client = true) : exec .startupImage s = .next s := by
  refine congrArg _ (if_neg ?_)
  rw [Bool.and_eq_true, Bool.not_eq_true']
  rintro ⟨h11, hc⟩
  exact h.elim (fun h => Bool.noConfusion (h11.symm.trans h)) (fun h => Bool.noConfusion (hc.symm.trans h))

/-- The source in use shown. -/
def State.srcShown (s : State) (n : Nat) : State := s.wf Reg.CMD_BOOT_ST 15 12 n

theorem State.srcShown_shows {n : Nat} (i : s.Inv) (hn : n < 16) : (s.srcShown n).Shows Reg.CMD_BOOT_ST 15 12 n :=
  i.shows_wf Reg.CMD_BOOT_ST (by decide) (by decide) hn

/-- The boot client at work. -/
def State.clientBegun (s : State) : State := { s with boot := { s.boot with client := true } }

variable (hb : s.booting 11 = true) (hc : s.boot.client = false)
include hb hc

theorem exec_startupImage : exec .startupImage s = .next
    (if s.rf Reg.CMD_STRAPS 1 0 = 3 then (s.srcShown (srcUsed (s.rf Reg.CMD_STRAPS 1 0))).noImage 2 0
     else if s.rf Reg.CMD_STRAPS 1 0 = 0 then (s.srcShown (srcUsed (s.rf Reg.CMD_STRAPS 1 0))).flashImage
     else if (s.srcShown (srcUsed (s.rf Reg.CMD_STRAPS 1 0))).rbit Reg.MGMT_PORT_ST 0 then
       (s.srcShown (srcUsed (s.rf Reg.CMD_STRAPS 1 0))).clientBegun.send (.dhcp (s.rf Reg.CMD_STRAPS 1 0 == 1))
     else s.srcShown (srcUsed (s.rf Reg.CMD_STRAPS 1 0))) :=
  congrArg _ (if_pos (by rw [hb, hc]; rfl))

theorem runs_startupImage_none (h3 : s.rf Reg.CMD_STRAPS 1 0 = 3) : Runs .startupImage s [.regs, .log, .nodes, .irq, .logN, .boot] (fun t =>
    t.phase = 12 ∧ t.rf Reg.CMD_BOOT_ST 11 8 = 2 ∧ t.rf Reg.CMD_BOOT_ST 15 12 = 0 ∧ t.boot.image = none ∧
    (s.EventRoom 0x07E6 devUnit → t.Recorded (s.eventRec 0x07E6 devUnit 2 [(16, 1, 2), (17, 4, 0)]))) := by
  have he : exec .startupImage s = .next ((((s.srcShown 0).resultShown 2).imageDropped).event 0x07E6 devUnit 2 [(16, 1, 2), (17, 4, 0)]) := by
    rw [exec_startupImage hb hc, if_pos h3, h3, State.noImage_told _ (by decide)]
    rfl
  have hk1 : Keep 0x3FFFFFFFB s (s.srcShown 0) := State.wf_keep ..
  have hk2 : Keep 0x3FFFFFFFB s ((s.srcShown 0).wf Reg.CMD_BOOT_ST 11 8 2) := Keep.via (State.wf_keep ..) rfl hk1
  have hk3 : Keep 0x37FFFFFFB s ((s.srcShown 0).resultShown 2) := Keep.via (State.toPhase_keep ..) rfl (hk2.mono rfl)
  have hk4 : Keep 0x37FFFFFFB s ((s.srcShown 0).resultShown 2).imageDropped := Keep.via (State.imageDropped_keep _) rfl hk3
  have hb3 : s.RegsBut ((s.srcShown 0).resultShown 2).imageDropped [Reg.CMD_BOOT_ST, Reg.CMD_DEV_STATE] :=
    ((((s.wf_but _ _ _ _).trans (State.wf_but _ _ _ _ _)).append (State.toPhase_but _ _))).trans (State.imageDropped_but _ _)
  have hbe := ((State.imageDropped_but ((s.srcShown 0).resultShown 2) [Reg.CNET_EVT_LOST]).trans
    (State.event_but _ 0x07E6 devUnit 2 [(16, 1, 2), (17, 4, 0)]))
  refine Runs.of_next he ((Keep.via (m := 0x36FFDFCFB) (State.event_keep ..) rfl (hk4.mono rfl)).alters _ (by decide))
    (fun i => ⟨?_, ?_, ?_, ?_, fun hr => ?_⟩)
  · exact (hbe.rf (by decide) _ _).trans (State.toPhase_phase (hk2.inv i) (by decide))
  · refine (hbe.rf (by decide) _ _).trans (State.toPhase_shows ?_ (by decide) 12)
    exact (hk1.inv i).shows_wf Reg.CMD_BOOT_ST (v := 2) (by decide) (by decide) (by decide)
  · refine (hbe.rf (by decide) _ _).trans (State.toPhase_shows ?_ (by decide) 12)
    exact (i.shows_wf Reg.CMD_BOOT_ST (v := 0) (by decide) (by decide) (by decide)).wf_disjoint (by decide) (by decide) (by decide) 2
  · rw [(State.event_keep ..).boot rfl, State.imageDropped_boot]
  · exact State.event_recorded_of_same (t := ((s.srcShown 0).resultShown 2).imageDropped) hr (hk4.now rfl) (State.runCtx_of_but hb3 (by decide))
      (hk4.log rfl) (hk4.nodes rfl) _ _

theorem exec_startupImage_flash (h0 : s.rf Reg.CMD_STRAPS 1 0 = 0) : exec .startupImage s = .next (s.wf Reg.CMD_BOOT_ST 15 12 1).flashImage := by
  rw [exec_startupImage hb hc, if_neg (by omega), if_pos h0, h0]
  rfl

section
variable {n : Nat} (hs : s.rf Reg.CMD_STRAPS 1 0 = n) (hn : n = 1 ∨ n = 2)
include hs hn

theorem exec_startupImage_net : exec .startupImage s =
    .next (if s.rbit Reg.MGMT_PORT_ST 0 then (s.srcShown (n + 1)).clientBegun.send (.dhcp (n == 1)) else s.srcShown (n + 1)) := by
  have hu : srcUsed n = n + 1 := if_neg (by omega)
  have hp : (s.srcShown (n + 1)).rbit Reg.MGMT_PORT_ST 0 = s.rbit Reg.MGMT_PORT_ST 0 := (s.wf_but _ _ _ _).rbit (by decide) _
  rw [exec_startupImage hb hc, hs, hu, if_neg (by omega), if_neg (by omega), hp]

theorem runs_startupImage_asks (hp : s.rbit Reg.MGMT_PORT_ST 0 = true) : Runs .startupImage s [.regs, .out, .boot] (fun t =>
    t.boot = { s.boot with client := true } ∧ t.out = s.out ++ [.dhcp (n == 1)] ∧ t.rf Reg.CMD_BOOT_ST 15 12 = n + 1) := by
  have hk : Keep 0x37FFFFFFB s (s.srcShown (n + 1)).clientBegun := Keep.setBoot rfl ((State.wf_keep ..).mono rfl)
  refine Runs.of_next ((exec_startupImage_net hb hc hs hn).trans (congrArg _ (if_pos hp)))
    ((Keep.via (m := 0x37FFFFFBB) (State.send_keep ..) rfl (hk.mono rfl)).alters _ (by decide)) (fun i => ⟨rfl, rfl, ?_⟩)
  exact (State.rf_congr ((State.send_keep ..).regs rfl) _ _ _).trans (State.srcShown_shows i (by omega)).reads

theorem runs_startupImage_waits (hp : s.rbit Reg.MGMT_PORT_ST 0 = false) : Runs .startupImage s [.regs] (fun t =>
    t.rf Reg.CMD_BOOT_ST 15 12 = n + 1 ∧ s.RegsBut t [Reg.CMD_BOOT_ST]) :=
  Runs.of_next ((exec_startupImage_net hb hc hs hn).trans (congrArg _ (if_neg (by simp [hp])))) ((State.wf_keep ..).alters _ (by decide))
    (fun i => ⟨(State.srcShown_shows i (by omega)).reads, s.wf_but _ _ _ _⟩)

end

end

/-! ### The transfer (R559, R566). -/

section
variable {s : State}

theorem exec_dhcpReply_not (h : s.booting 11 = false ∨ s.boot.client = false ∨ s.boot.tftp ≠ none) (own server file : List Byte) :
    exec (.dhcpReply own server file) s = .next s := by
  refine congrArg _ (if_neg ?_)
  simp only [Bool.and_eq_true, Option.isNone_iff_eq_none]
  rintro ⟨⟨h11, hc⟩, hn⟩
  rcases h with h | h | h
  · exact Bool.noConfusion (h11.symm.trans h)
  · exact Bool.noConfusion (hc.symm.trans h)
  · exact h hn

theorem State.setTftp_send_keep (s : State) (t : Option Tftp) (m : Msg) : Keep 0x37FFFFFBF s ((s.setTftp t).send m) :=
  Keep.via (State.send_keep ..) rfl ((State.setTftp_keep ..).mono rfl)

theorem runs_dhcpReply (hb : s.booting 11 = true) (hc : s.boot.client = true) (hn : s.boot.tftp = none) (own server file : List Byte) :
    Runs (.dhcpReply own server file) s [.out, .boot] (fun t =>
      t.boot.tftp = some { own := own, server := server, file := file, at_ := s.wall } ∧ t.out = s.out ++ [.tftp server (tftpRead file)]) := by
  have he : exec (.dhcpReply own server file) s =
      .next ((s.setTftp (some { own := own, server := server, file := file, at_ := s.wall })).send (.tftp server (tftpRead file))) :=
    congrArg _ (if_pos (by rw [hb, hc, hn]; rfl))
  exact Runs.of_next he ((State.setTftp_send_keep ..).alters _ (by decide)) (fun _ => ⟨rfl, rfl⟩)

theorem exec_tftpBlock_none (h : s.boot.tftp = none) (n : BitVec 16) (b : List Byte) : exec (.tftpBlock n b) s = .next s := by
  show execTftpBlock n b s = _
  unfold execTftpBlock
  rw [h]

theorem exec_tftpRetransmit_none (h : s.boot.tftp = none) : exec .tftpRetransmit s = .next s := by
  show execTftpRetransmit s = _
  unfold execTftpRetransmit
  rw [h]

variable {x : Tftp} (hx : s.boot.tftp = some x)
include hx

theorem exec_tftpBlock (n : BitVec 16) (b : List Byte) : exec (.tftpBlock n b) s =
    .next (if s.booting 11 && x.next % 65536 == n.toNat && decide (b.length ≤ 512) then s.takeBlock x b else s) := by
  show execTftpBlock n b s = _
  unfold execTftpBlock
  rw [hx]

theorem exec_tftpRetransmit : exec .tftpRetransmit s = .next (if s.booting 11 && decide (100000000 ≤ (s.wall - x.at_).toNat) then
    (if 5 ≤ x.tries then s.noImage 5 x.got else (s.setTftp (some { x with tries := x.tries + 1, at_ := s.wall })).send
      (.tftp x.server (if x.next = 1 then tftpRead x.file else tftpAck (x.next - 1)))) else s) := by
  show execTftpRetransmit s = _
  unfold execTftpRetransmit
  rw [hx]

theorem exec_tftpBlock_not {n : BitVec 16} {b : List Byte} (h : s.booting 11 = false ∨ x.next % 65536 ≠ n.toNat ∨ 512 < b.length) :
    exec (.tftpBlock n b) s = .next s := by
  refine (exec_tftpBlock hx n b).trans (congrArg _ (if_neg ?_))
  simp only [Bool.and_eq_true, beq_iff_eq, decide_eq_true_eq]
  rintro ⟨⟨h11, hn⟩, hl⟩
  rcases h with h | h | h
  · exact Bool.noConfusion (h11.symm.trans h)
  · exact h hn
  · omega

theorem exec_tftpBlock_take {n : BitVec 16} {b : List Byte} (hb : s.booting 11 = true) (hn : x.next % 65536 = n.toNat) (hl : b.length ≤ 512) :
    exec (.tftpBlock n b) s = .next (s.takeBlock x b) :=
  (exec_tftpBlock hx n b).trans (congrArg _ (if_pos (by rw [hb, hn, decide_eq_true hl, beq_self_eq_true]; rfl)))

theorem exec_tftpRetransmit_not (h : s.booting 11 = false ∨ (s.wall - x.at_).toNat < 100000000) : exec .tftpRetransmit s = .next s := by
  refine (exec_tftpRetransmit hx).trans (congrArg _ (if_neg ?_))
  rw [Bool.and_eq_true, decide_eq_true_eq]
  rintro ⟨h11, ht⟩
  exact h.elim (fun h => Bool.noConfusion (h11.symm.trans h)) (fun h => by omega)

section
variable (hb : s.booting 11 = true) (ht : 100000000 ≤ (s.wall - x.at_).toNat)
include hb ht

theorem exec_tftpRetransmit_fails (h5 : 5 ≤ x.tries) : exec .tftpRetransmit s = .next (s.noImage 5 x.got) :=
  (exec_tftpRetransmit hx).trans (congrArg _ ((if_pos (by rw [hb, decide_eq_true ht]; rfl)).trans (if_pos h5)))

theorem runs_tftpRetransmit (h5 : x.tries < 5) : Runs .tftpRetransmit s [.out, .boot] (fun t =>
    t.boot.tftp = some { x with tries := x.tries + 1, at_ := s.wall } ∧
    t.out = s.out ++ [.tftp x.server (if x.next = 1 then tftpRead x.file else tftpAck (x.next - 1))]) :=
  Runs.of_next ((exec_tftpRetransmit hx).trans (congrArg _ ((if_pos (by rw [hb, decide_eq_true ht]; rfl)).trans (if_neg (by omega)))))
    ((State.setTftp_send_keep ..).alters _ (by decide)) (fun _ => ⟨rfl, rfl⟩)

end

section
variable {b : List Byte} (hb : s.booting 11 = true) (h1 : x.next = 1) (hl : b.length ≤ 512)
include hb h1 hl

theorem exec_tftpBlock_header : exec (.tftpBlock 1 b) s =
    .next (if imgHeadOk b = false then s.noImage 3 b.length else if s.signerOk b = false then s.noImage 4 b.length
      else s.ackBlock { x with hdr := b } 512) :=
  (exec_tftpBlock_take hx hb (by rw [h1]; rfl) hl).trans (congrArg _ (if_pos h1))

theorem exec_tftpBlock_badHeader (h : imgHeadOk b = false) : exec (.tftpBlock 1 b) s = .next (s.noImage 3 b.length) :=
  (exec_tftpBlock_header hx hb h1 hl).trans (congrArg _ (if_pos h))

theorem exec_tftpBlock_badSigner (h : imgHeadOk b = true) (hs : s.signerOk b = false) : exec (.tftpBlock 1 b) s = .next (s.noImage 4 b.length) :=
  (exec_tftpBlock_header hx hb h1 hl).trans (congrArg _ ((if_neg (by simp [h])).trans (if_pos hs)))

theorem runs_tftpBlock_header (h : imgHeadOk b = true) (hs : s.signerOk b = true) : Runs (.tftpBlock 1 b) s [.out, .boot] (fun t =>
    t.boot.tftp = some { x with hdr := b, got := x.got + 512, next := 2, tries := 1, at_ := s.wall } ∧
    t.out = s.out ++ [.tftp x.server (tftpAck 1)]) := by
  refine Runs.of_next ((exec_tftpBlock_header hx hb h1 hl).trans (congrArg _ ((if_neg (by simp [h])).trans (if_neg (by simp [hs])))))
    ((State.ackBlock_keep ..).alters _ (by decide)) (fun _ => ⟨?_, ?_⟩)
  · show some ({ x with hdr := b, got := x.got + 512, next := x.next + 1, tries := 1, at_ := s.wall } : Tftp) = _
    rw [h1]
  · show s.out ++ [Msg.tftp x.server (tftpAck x.next)] = _
    rw [h1]

end

theorem exec_tftpBlock_middle {n : BitVec 16} {b : List Byte} (hb : s.booting 11 = true) (h1 : x.next ≠ 1) (hn : x.next % 65536 = n.toNat)
    (hl : b.length = 512) (hp : x.got - 512 + 512 ≤ imgPlen x.hdr) : exec (.tftpBlock n b) s =
      .next ((State.loadBytes b (imgLoad x.hdr + (x.got - 512)) s).ackBlock x 512) := by
  rw [exec_tftpBlock_take hx hb hn (by omega)]
  unfold State.takeBlock
  rw [if_neg h1]
  dsimp only
  rw [hl, if_neg (by omega), if_neg (by omega)]

end

/-! ### Launch (R389, R561, R562). -/

theorem State.stampDev_but (s : State) (old cause : Nat) :
    s.RegsBut (s.stampDev old cause) [Reg.CMD_DEV_STATE_TS_LO, Reg.CMD_DEV_STATE_TS_LO + 4, Reg.CNET_EVT_LOST] :=
  ((s.wr64_but _ _).append (State.event_but _ _ _ _ _)).trans (State.RegsBut.of_regs ((State.raiseIrq_keep ..).regs rfl) _)

theorem State.setSoft_but (s : State) (r : SoftRec) : s.RegsBut (s.setSoft r) [Reg.FUSE_PROP_CNT] :=
  (State.RegsBut.of_regs rfl _).trans (State.wr_but _ _ _)

theorem State.setDev_eq {s : State} {new : Nat} (h : s.devState ≠ new) (cause : Nat) :
    s.setDev new cause = (s.wf Reg.CMD_DEV_STATE 2 0 new).stampDev s.devState cause := if_neg h

theorem State.devState_congr {s t : State} (ho : t.off = s.off) (h : t.rf Reg.CMD_DEV_STATE 2 0 = s.rf Reg.CMD_DEV_STATE 2 0) :
    t.devState = s.devState := by
  unfold State.devState
  rw [ho, h]

section
variable {s : State}

/-- The record rewritten, one start-up more, and the phase cleared. -/
def State.startCounted (s : State) : State :=
  (s.setSoft { s.hlth.soft with boots := (s.hlth.soft.boots + 1) % 2 ^ 32 }).wf Reg.CMD_DEV_STATE 27 24 0

/-- The state that start-up ends in. -/
def State.launchState (s : State) : Nat := if s.rbit Reg.CMD_DEV_STATE 19 then stWithdrawn else stService

theorem State.startCounted_keep (s : State) : Keep 0x3FBBFFFFB s s.startCounted := Keep.via (State.wf_keep ..) rfl (State.setSoft_keep ..)

theorem State.setSoft_inv (i : s.Inv) (r : SoftRec) : (s.setSoft r).Inv := (State.setSoft_keep ..).inv i

theorem State.startCounted_devState (i : s.Inv) : s.startCounted.devState = s.devState := by
  refine State.devState_congr (s.startCounted_keep.off rfl) ?_
  exact (State.rf_wf_disjoint (State.setSoft_inv i _).regs (by decide) (by decide) (by decide)).trans ((State.setSoft_but _ _).rf (by decide) _ _)

theorem State.startCounted_withdrawn (i : s.Inv) : s.startCounted.rbit Reg.CMD_DEV_STATE 19 = s.rbit Reg.CMD_DEV_STATE 19 :=
  (State.rbit_wf (State.setSoft_inv i _).regs (by decide) (by decide) 19).trans ((if_neg (by decide)).trans ((State.setSoft_but _ _).rbit (by decide) _))

theorem State.launchState_cases (s : State) : s.launchState = stWithdrawn ∨ s.launchState = stService := by
  unfold State.launchState
  split
  · exact .inl rfl
  · exact .inr rfl

theorem State.complete_eq (i : s.Inv) (hd : s.devState = stBringup) :
    s.complete = (s.startCounted.wf Reg.CMD_DEV_STATE 2 0 s.launchState).stampDev stBringup 0x07E0 := by
  have hne : s.startCounted.devState ≠ s.startCounted.launchState := by
    rw [State.startCounted_devState i, hd]
    rcases s.startCounted.launchState_cases with h | h <;> rw [h] <;> decide
  have hl : s.startCounted.launchState = s.launchState := by
    unfold State.launchState
    rw [State.startCounted_withdrawn i]
  have he := State.setDev_eq hne 0x07E0
  rw [State.startCounted_devState i, hd, hl] at he
  refine Eq.trans ?_ he
  rw [← hl]
  rfl

theorem State.complete_reads (i : s.Inv) (hd : s.devState = stBringup) :
    s.complete.devState = s.launchState ∧ s.complete.phase = 0 ∧ s.complete.rbit Reg.MGMT_CORE_ST 8 = s.rbit Reg.MGMT_CORE_ST 8 := by
  have hk := s.startCounted_keep
  have hlt : s.launchState < 2 ^ 3 := by rcases s.launchState_cases with h | h <;> rw [h] <;> decide
  have hb := State.stampDev_but (s.startCounted.wf Reg.CMD_DEV_STATE 2 0 s.launchState) stBringup 0x07E0
  have hoff : s.complete.off = false := (s.complete_keep.off rfl).trans (State.off_of_devState hd)
  rw [State.complete_eq i hd] at hoff ⊢
  refine ⟨?_, ?_, ?_⟩
  · unfold State.devState
    rw [if_neg (by simp [hoff]), hb.rf (by decide)]
    exact ((hk.inv i).shows_wf Reg.CMD_DEV_STATE (by decide) (by decide) hlt).reads
  · unfold State.phase
    rw [hb.rf (by decide)]
    exact (((State.setSoft_inv i _).shows_wf Reg.CMD_DEV_STATE (v := 0) (by decide) (by decide) (by decide)).wf_disjoint (by decide) (by decide)
      (by decide) _).reads
  · rw [hb.rbit (by decide)]
    exact (((State.setSoft_but _ _).append ((State.wf_but _ _ _ _ _).append (State.wf_but _ _ _ _ _))).rbit (by decide) _)

theorem exec_startupLaunch_not (h : s.booting 12 = false) : exec .startupLaunch s = .next s := congrArg _ (if_neg (by simp [h]))

theorem exec_startupLaunch_bare (h : s.booting 12 = true) (hi : s.boot.image = none) : exec .startupLaunch s = .next s.completeBare := by
  refine congrArg _ ((if_pos h).trans ?_)
  rw [hi]

/-- No image, and no core to run one. -/
def State.bared (s : State) : State := ({ s with boot := { s.boot with image := none } } : State).wf Reg.MGMT_CORE_ST 8 8 0

theorem State.completeBare_eq (s : State) : s.completeBare = s.bared.complete := rfl

theorem State.bared_but (s : State) : s.RegsBut s.bared [Reg.MGMT_CORE_ST] := (State.RegsBut.of_regs rfl _).trans (State.wf_but _ _ _ _ _)

theorem State.bared_keep (s : State) : Keep 0x37FFFFFFB s s.bared := Keep.via (State.wf_keep ..) rfl (Keep.setBoot rfl (Keep.refl _ _))

theorem runs_startupLaunch_bare (h : s.booting 12 = true) (hi : s.boot.image = none) :
    Runs .startupLaunch s [.regs, .log, .nodes, .irq, .hlth, .flash, .logN, .boot] (fun t =>
      t.devState = (if s.rbit Reg.CMD_DEV_STATE 19 then stWithdrawn else stService) ∧ t.phase = 0 ∧ t.rbit Reg.MGMT_CORE_ST 8 = false) := by
  refine Runs.of_next (exec_startupLaunch_bare h hi) (s.completeBare_keep.alters _ (by decide)) (fun i => ?_)
  have hd : s.bared.devState = stBringup :=
    (State.devState_congr (s.bared_keep.off rfl) (s.bared_but.rf (by decide) _ _)).trans (State.booting_devState h)
  obtain ⟨hst, hph, hcore⟩ := State.complete_reads (s.bared_keep.inv i) hd
  rw [State.completeBare_eq]
  refine ⟨hst.trans ?_, hph, hcore.trans ?_⟩
  · unfold State.launchState
    rw [s.bared_but.rbit (by decide)]
  · have j : ({ s with boot := { s.boot with image := none } } : State).Inv := (Keep.setBoot (m := 0x37FFFFFFF) rfl (Keep.refl _ _)).inv i
    exact (State.rbit_wf j.regs (by decide) (by decide) 8).trans (by simp)

theorem exec_startupLaunch_image {i : OsImage} (h : s.booting 12 = true) (hi : s.boot.image = some i) : ∃ x : State, exec .startupLaunch s =
    .next ((((x.wf Reg.MGMT_CORE_ST 8 8 (x.rf Reg.MGMT_CORE_ST 0 0)).wf Reg.CMD_BOOT_ST 11 8 1).event 0x07E7 devUnit 1 [(16, 8, rdLE i.digest 0 8)]).complete) ∧
      x.boot.dirty = [] := by
  refine ⟨(s.extend 3 i.digest).writeBack, ?_, rfl⟩
  refine congrArg _ ((if_pos h).trans ?_)
  rw [hi]

/-! ### Limits (R549). -/

theorem exec_startupPhaseLimit_early {ph : Nat} (hb : s.booting ph = true) (h : ph ≤ 5) : exec .startupPhaseLimit s = .next s.earlyLimit :=
  congrArg _ (if_pos (by rw [State.booting_phase hb]; exact h))

theorem exec_startupPhaseLimit_late {ph : Nat} (hb : s.booting ph = true) (h : 5 < ph) : exec .startupPhaseLimit s = .next s.lateLimit :=
  congrArg _ (if_neg (by rw [State.booting_phase hb]; omega))

/-- Within the limits of phases 1 to 5 nothing happens. -/
theorem State.earlyLimit_waits (h1 : s.booting 0 = true ∨ s.booting 1 = true → s.inPhase < 1000000)
    (h2 : s.booting 2 = true → s.inPhase < 200000) (h3 : s.booting 3 = true → s.inPhase < 10000000)
    (h4 : s.booting 4 = true → s.pwr.group ≠ 7 ∨ s.inPhase < 100000) (h5 : s.booting 5 = true → s.inPhase < 100000000) : s.earlyLimit = s := by
  unfold State.earlyLimit
  dsimp only
  rw [if_neg, if_neg, if_neg, if_neg, if_neg]
  all_goals simp only [Bool.and_eq_true, Bool.or_eq_true, decide_eq_true_eq, beq_iff_eq]
  · rintro ⟨hb, ht⟩
    exact absurd (h5 hb) (by omega)
  · rintro ⟨⟨hb, hg⟩, ht, -⟩
    exact (h4 hb).elim (fun h => h hg) (fun h => by omega)
  · rintro ⟨hb, ht⟩
    exact absurd (h3 hb) (by omega)
  · rintro ⟨hb, ht⟩
    exact absurd (h2 hb) (by omega)
  · rintro ⟨hb, ht⟩
    exact absurd (h1 hb) (by omega)

theorem State.earlyLimit_calibration (hb : s.booting 5 = true) (ht : 100000000 ≤ s.inPhase) : s.earlyLimit = (s.failPhase 5).calDone true := by
  unfold State.earlyLimit
  dsimp only
  simp [hb, ht, State.not_booting hb]

theorem State.earlyLimit_proc (hb : s.booting 0 = true ∨ s.booting 1 = true) (ht : 1000000 ≤ s.inPhase) : s.earlyLimit = s.procFail :=
  if_pos (by simpa [ht] using hb)

/-- Within the limits of phases 6 to 12 nothing happens. -/
theorem State.lateLimit_waits (h6 : s.booting 6 = true → s.inPhase < 200000000) (h8 : s.booting 8 = true → s.inPhase < 100000000)
    (h9 : ¬ s.booting 9 = true) (h10 : ¬ s.booting 10 = true) (h11 : s.booting 11 = true → s.inPhase < 1000000000)
    (h12 : s.booting 12 = true → s.inPhase < 100000000) : s.lateLimit = s := by
  have hx : s.coordExpired = false := State.not_coordExpired (.inl (by simpa using h9))
  unfold State.lateLimit
  dsimp only
  rw [if_neg, if_neg, if_neg (by simp [hx]), if_neg (by simp [h10]), if_neg, if_neg]
  all_goals simp only [Bool.and_eq_true, decide_eq_true_eq]
  · rintro ⟨hb, ht⟩
    exact absurd (h12 hb) (by omega)
  · rintro ⟨hb, ht⟩
    have := h11 hb
    split at ht <;> omega
  · rintro ⟨hb, ht⟩
    exact absurd (h8 hb) (by omega)
  · rintro ⟨hb, ht⟩
    exact absurd (h6 hb) (by omega)

theorem State.lateLimit_dram (hb : s.booting 6 = true) (ht : 200000000 ≤ s.inPhase) : s.lateLimit = (s.failPhase 6).dramDone (List.range 132) :=
  if_pos (by rw [hb, decide_eq_true ht]; rfl)

theorem State.lateLimit_accept (hb : s.booting 8 = true) (ht : 100000000 ≤ s.inPhase) : s.lateLimit = (s.limitEvent 8).bootHalt 8 0x07E1 :=
  (if_neg (by simp [State.not_booting hb])).trans (if_pos (by rw [hb, decide_eq_true ht]; rfl))

theorem State.lateLimit_image (hb : s.booting 11 = true) (ht : 30000000000 ≤ s.inPhase) :
    s.lateLimit = (s.failPhase 11).noImage 6 ((s.boot.tftp.map (·.got)).getD 0) := by
  have hx : s.coordExpired = false := State.not_coordExpired (.inl (State.not_booting hb (by decide)))
  have hi : (s.booting 11 && decide ((if s.rf Reg.CMD_STRAPS 1 0 = 0 then 1000000000 else 30000000000) ≤ s.inPhase)) = true := by
    rw [hb, Bool.true_and, decide_eq_true_eq]
    split <;> omega
  unfold State.lateLimit
  dsimp only
  rw [if_neg (by simp [State.not_booting hb]), if_neg (by simp [State.not_booting hb]), if_neg (by simp [hx]),
    if_neg (by simp [State.not_booting hb]), if_pos hi]
  cases s.boot.tftp <;> rfl

theorem runs_startupPhaseLimit_proc (hb : s.booting 0 = true ∨ s.booting 1 = true) (ht : 1000000 ≤ s.inPhase) :
    Runs .startupPhaseLimit s [.regs, .pwr, .rst] (fun t => t.devState = stHalted ∧ t.rf Reg.CMD_BOOT_ST 3 0 = 1 ∧
      t.pwr = { s.pwr with alert := true }) := by
  have he : exec .startupPhaseLimit s = exec (.startupProc false) s := by
    have hp : exec (.startupProc false) s = .next s.procFail := congrArg _ (if_pos (by simpa using hb))
    rw [hp, ← State.earlyLimit_proc hb ht]
    exact hb.elim (fun h => exec_startupPhaseLimit_early h (by decide)) (fun h => exec_startupPhaseLimit_early h (by decide))
  intro i
  obtain ⟨t, ht, ha, hst, -, hres, hpwr, -⟩ := runs_startupProc_bad hb i
  exact ⟨t, he.trans ht, ha, hst, hres, hpwr⟩

/-- The limit of one of phases 1 to 5, not yet over. -/
theorem exec_startupPhaseLimit_within {ph : Nat} (hb : s.booting ph = true) (h5 : ph ≤ 5)
    (h1 : ph ≤ 1 → s.inPhase < 1000000) (h2 : ph = 2 → s.inPhase < 200000) (h3 : ph = 3 → s.inPhase < 10000000)
    (h4 : ph = 4 → s.pwr.group ≠ 7 ∨ s.inPhase < 100000) (hc : ph = 5 → s.inPhase < 100000000) : exec .startupPhaseLimit s = .next s := by
  have hp : ∀ {k : Nat}, s.booting k = true → ph = k := fun h => (State.booting_phase hb).symm.trans (State.booting_phase h)
  refine (exec_startupPhaseLimit_early hb h5).trans (congrArg _ (State.earlyLimit_waits (fun h => h1 ?_) (fun h => h2 (hp h)) (fun h => h3 (hp h))
    (fun h => h4 (hp h)) (fun h => hc (hp h))))
  exact h.elim (fun h => by have := hp h; omega) (fun h => by have := hp h; omega)

/-- The limit of phase 6, 7, 8, 11 or 12, not yet over. -/
theorem exec_startupPhaseLimit_withinLate {ph : Nat} (hb : s.booting ph = true) (h5 : 5 < ph) (h9 : ph ≠ 9) (h10 : ph ≠ 10)
    (h6 : ph = 6 → s.inPhase < 200000000) (h8 : ph = 8 → s.inPhase < 100000000) (h11 : ph = 11 → s.inPhase < 1000000000)
    (h12 : ph = 12 → s.inPhase < 100000000) : exec .startupPhaseLimit s = .next s := by
  have hp : ∀ {k : Nat}, s.booting k = true → ph = k := fun h => (State.booting_phase hb).symm.trans (State.booting_phase h)
  exact (exec_startupPhaseLimit_late hb h5).trans (congrArg _ (State.lateLimit_waits (fun h => h6 (hp h)) (fun h => h8 (hp h)) (fun h => h9 (hp h))
    (fun h => h10 (hp h)) (fun h => h11 (hp h)) (fun h => h12 (hp h))))

end

/-- Settles O46: each command of phases 9 to 12 of start-up and the limits of phases, from their rules. -/
theorem lateStartUpComplete : Obligations.LateStartUpComplete := by
  unfold Obligations.LateStartUpComplete
  refine ⟨fun s => ⟨fun h => ⟨exec_startupCoord_not h, exec_coordWaitExpiry_not (.inl h)⟩, fun h hs => ⟨exec_coordWaitExpiry_not (.inr (.inl hs)), ?_⟩,
      fun c topo d h hs hc hl ht hd => ?_, exec_startupCoord_waits, fun h => exec_coordWaitExpiry_not (.inr (.inr (.inl h))),
      fun h => exec_coordWaitExpiry_not (.inr (.inr (.inr h))), runs_coordWaitExpiry⟩,
    fun s => ⟨exec_startupLinks_not, exec_startupLinks_begin, exec_startupLinks_training, runs_startupLinks_end⟩,
    fun s => ⟨exec_startupImage_not, fun hb hc => ⟨runs_startupImage_none hb hc, exec_startupImage_flash hb hc,
      fun n => runs_startupImage_asks hb hc, fun n => runs_startupImage_waits hb hc⟩⟩,
    fun s own server file => ⟨fun h => exec_dhcpReply_not h own server file, fun hb hc hn => runs_dhcpReply hb hc hn own server file⟩,
    fun s n b h => ⟨exec_tftpBlock_none h n b, exec_tftpRetransmit_none h⟩,
    fun s n b x hx => ⟨exec_tftpBlock_not hx, fun hb h1 hn hl => ?_, exec_tftpBlock_middle hx, exec_tftpRetransmit_not hx,
      exec_tftpRetransmit_fails hx, runs_tftpRetransmit hx⟩,
    fun s => ⟨exec_startupLaunch_not, runs_startupLaunch_bare, fun i => exec_startupLaunch_image⟩, fun s => ?_⟩
  · have hr := runs_assignCoord (exec_startupCoord_strapped h hs) (by decide) ((s.rf_lt _ 8 5).trans (by decide)) (by decide) (by decide)
    simpa using hr
  · have hr := runs_assignCoord (exec_startupCoord_held h hs hc) (by decide) hl ht hd
    simpa using hr
  · subst hn
    exact ⟨exec_tftpBlock_badHeader hx hb h1 hl, exec_tftpBlock_badSigner hx hb h1 hl, runs_tftpBlock_header hx hb h1 hl⟩
  · refine ⟨fun hb ht => ?_, runs_startupPhaseLimit_proc, fun hb ht => ?_, fun hb ht => ?_, fun hb ht => ?_, fun hb ht => ?_, fun hb ht => ?_,
      fun hb ht => ?_, fun hb ht => ?_, fun hb => ?_, fun hb ht => ?_, fun hb ht => ?_, fun hb ht => ?_, fun hb ht => ?_, fun hb ht => ?_⟩
    · exact hb.elim (fun hb => exec_startupPhaseLimit_within hb (by decide) (fun _ => by omega) (fun _ => by omega) (fun _ => by omega) (fun _ => by omega) (fun _ => by omega))
        (fun hb => exec_startupPhaseLimit_within hb (by decide) (fun _ => by omega) (fun _ => by omega) (fun _ => by omega) (fun _ => by omega) (fun _ => by omega))
    · exact exec_startupPhaseLimit_within hb (by decide) (fun _ => by omega) (fun _ => by omega) (fun _ => by omega) (fun _ => by omega) (fun _ => by omega)
    · exact exec_startupPhaseLimit_within hb (by decide) (fun _ => by omega) (fun _ => by omega) (fun _ => by omega) (fun _ => by omega) (fun _ => by omega)
    · exact exec_startupPhaseLimit_within hb (by decide) (fun _ => by omega) (fun _ => by omega) (fun _ => by omega) (fun _ => ht) (fun _ => by omega)
    · exact exec_startupPhaseLimit_within hb (by decide) (fun _ => by omega) (fun _ => by omega) (fun _ => by omega) (fun _ => by omega) (fun _ => by omega)
    · exact (exec_startupPhaseLimit_early hb (by decide)).trans (congrArg _ (State.earlyLimit_calibration hb ht))
    · exact exec_startupPhaseLimit_withinLate hb (by decide) (by decide) (by decide) (fun _ => by omega) (fun _ => by omega) (fun _ => by omega) (fun _ => by omega)
    · exact (exec_startupPhaseLimit_late hb (by decide)).trans (congrArg _ (State.lateLimit_dram hb ht))
    · exact exec_startupPhaseLimit_withinLate hb (by decide) (by decide) (by decide) (fun _ => by omega) (fun _ => by omega) (fun _ => by omega) (fun _ => by omega)
    · exact exec_startupPhaseLimit_withinLate hb (by decide) (by decide) (by decide) (fun _ => by omega) (fun _ => by omega) (fun _ => by omega) (fun _ => by omega)
    · exact (exec_startupPhaseLimit_late hb (by decide)).trans (congrArg _ (State.lateLimit_accept hb ht))
    · exact (exec_startupPhaseLimit_late hb (by decide)).trans (congrArg _ (State.lateLimit_image hb ht))
    · exact exec_startupPhaseLimit_withinLate hb (by decide) (by decide) (by decide) (fun _ => by omega) (fun _ => by omega) (fun _ => by omega) (fun _ => by omega)
    · exact exec_startupPhaseLimit_withinLate hb (by decide) (by decide) (by decide) (fun _ => by omega) (fun _ => by omega) (fun _ => by omega) (fun _ => by omega)

end Sys2Proof.Machine
end

section
/-! SUPPORT. A Cuard command that passes its checks: from its place at the head of the queue to the answer its meaning gives
(R519, R520, R524, R530). -/

namespace Sys2Proof.Machine

section
variable {d : CmdDef} {s u : State} {r : Req} {t : RepTo}

/-- A queue that a request heads. -/
theorem queue_of_head {q : List Req} (h : q.head? = some r) : q = r :: q.tail := by
  cases q with
  | nil => exact absurd h (by simp)
  | cons a l => rw [Option.some.inj h]; rfl

/-- A request at the head of the queue starts once nothing that must end first still runs. -/
theorem State.cuard_head (hr : reqIs d.code r = true) (hu : s.cuardUp = true) (hq : s.cq.queue.head? = some r) (hb : s.blocked = false) :
    s.cuard d r = .next (({ s with cq := { s.cq with queue := s.cq.queue.tail } } : State).runCmd d r) := by
  have hq := queue_of_head hq
  have hc : s.cq.queue.contains r = true := by
    rw [hq]
    simp
  unfold State.cuard
  rw [hr, hu, if_pos hc]
  refine (if_neg Bool.false_ne_true).trans ((if_neg Bool.false_ne_true).trans ?_)
  dsimp only
  rw [hq]
  exact if_pos ⟨rfl, hb⟩

/-- The state in which a command's checks begin: it has left the queue. -/
def State.dequeued (s : State) : State := { s with cq := { s.cq with queue := s.cq.queue.tail } }

/-- In time and of good form, a command comes to checks 5 to 10. -/
theorem State.runCmd_gated {v : State} (hq : (v.now - r.arrival).toNat ≤ v.rd Reg.CMD_QTMO) (hf : headStatus r.bytes = 0)
    (hg : v.gate d r = (0, t, u)) (hl : d.acc = .s ∨ d.acc = .e → u.leaseStatus (d.res (pkParams r.bytes)) (pkLease r.bytes) t.key = 0)
    (ho : d.lease u t = 0) (hc : d.check u (pkParams r.bytes) = 0) (hm : u.meets d r t = none) (hi : u.resBusy (d.res (pkParams r.bytes)) = false) :
    v.runCmd d r = State.conclude d r t (d.run u { req := r, rep := t, p := pkParams r.bytes }) := by
  have hl : (if d.acc = .s ∨ d.acc = .e then u.leaseStatus (d.res (pkParams r.bytes)) (pkLease r.bytes) t.key else 0) = 0 := by
    split
    next ha => exact hl ha
    next => rfl
  unfold State.runCmd
  dsimp only
  rw [if_neg (Nat.not_lt.mpr hq), if_neg (by simp [hf]), hg]
  dsimp only
  rw [if_neg (by simp), hl, if_pos rfl, ho, if_neg (by simp), hc, if_neg (by simp), hm, hi]
  exact if_neg Bool.false_ne_true

/-- The ten checks passed, the command's meaning runs. -/
theorem Executes.runCmd (h : Executes d s r t u) :
    s.dequeued.runCmd d r = State.conclude d r t (d.run u { req := r, rep := t, p := pkParams r.bytes }) :=
  State.runCmd_gated h.inTime h.form h.gate h.lease h.own h.check h.fresh h.idle

theorem Executes.conclude (h : Executes d s r t u) :
    s.cuard d r = .next (State.conclude d r t (d.run u { req := r, rep := t, p := pkParams r.bytes })) :=
  (State.cuard_head h.is h.up h.front h.free).trans (congrArg _ h.runCmd)

variable {x : State}

/-- A meaning that answers a status above ACCEPTED refuses the command. -/
theorem conclude_status {st : Nat} (h : 1 < st) : State.conclude d r t (outSt x st) = x.refusedWith r t st := by
  have hst : ¬ st ≤ 1 := by omega
  unfold State.conclude outSt
  dsimp only
  rw [if_neg hst, if_neg hst]
  rfl

theorem Executes.ok (h : Executes d s r t u) {p : List Byte} (ho : d.run u { req := r, rep := t, p := pkParams r.bytes } = outOk x p) :
    s.cuard d r = .next (x.accepted d r t p) :=
  h.conclude.trans (by rw [ho]; rfl)

theorem Executes.refused (h : Executes d s r t u) {st : Nat} (hst : 1 < st)
    (ho : d.run u { req := r, rep := t, p := pkParams r.bytes } = outSt x st) : s.cuard d r = .next (x.refusedWith r t st) :=
  h.conclude.trans (by rw [ho, conclude_status hst])

theorem Executes.first (h : Executes d s r t u) {w : WaitFor} {limit : Option Nat}
    (ho : d.run u { req := r, rep := t, p := pkParams r.bytes } = outFirst x w limit) : s.cuard d r = .next (x.goesOn d r t w limit) :=
  h.conclude.trans (by rw [ho]; rfl)

end

/-! ### Numbers in parameters (R5). -/

theorem leNat_lt : ∀ l : List Byte, leNat l < 2 ^ (8 * l.length)
  | [] => by decide
  | b :: l => by
    have hb := b.isLt
    have hl := leNat_lt l
    rw [List.length_cons, Nat.mul_succ, Nat.pow_add, leNat]
    omega

theorem rdLE_lt (l : List Byte) (o n : Nat) : rdLE l o n < 2 ^ (8 * n) :=
  (leNat_lt _).trans_le (Nat.pow_le_pow_right (by decide) (Nat.mul_le_mul_left 8 (List.length_take_le _ _)))

end Sys2Proof.Machine
end

section
/-! SUPPORT. Fabric commands (R540), each from its meaning. -/

namespace Sys2Proof.Machine

section
variable {s u : State} {r : Req} {t : RepTo}

/-! ### Checked parameters. -/

theorem pCheck_ok {len : Nat} {ok : List Byte → Bool} {s : State} {p : List Byte} (h : pCheck len ok s p = 0) : ok p = true := by
  unfold pCheck at h
  split at h
  next => exact absurd h (by decide)
  next =>
    split at h
    next hk => exact hk
    next => exact absurd h (by decide)

/-- What a command's range check asks of its parameters holds where the command runs. -/
theorem Executes.checked {d : CmdDef} {len : Nat} {ok : List Byte → Bool} (hd : d.check = pCheck len ok) (h : Executes d s r t u) :
    ok (pkParams r.bytes) = true :=
  pCheck_ok ((congrFun (congrFun hd u) _).symm.trans h.check)

/-! ### COORD_SET (R556). -/

/-- A coordinate held until phase 9. -/
def State.heldCoord (s : State) (p : List Byte) : State := { s with boot := { s.boot with coord := some (rdLE p 0 2, rdLE p 2 1, rdLE p 3 2) } }

theorem exec_coordSet_refused (h : Executes defCoordSet s r t u) (hb : u.devState ≠ stBringup ∨ u.rbit Reg.CMD_STRAPS 4 = true ∨ 10 ≤ u.phase) :
    exec (.coordSet r) s = .next (u.refusedWith r t stBAD_STATE) :=
  h.refused (by decide) (if_pos hb)

theorem exec_coordSet (h : Executes defCoordSet s r t u) (hd : u.devState = stBringup) (hs : u.rbit Reg.CMD_STRAPS 4 = false) (hp : u.phase < 10) :
    exec (.coordSet r) s = .next ((u.heldCoord (pkParams r.bytes)).accepted defCoordSet r t []) :=
  h.ok (if_neg (by simp [hd, hs]; omega))

/-! ### FAB_ADDR_SET (R295, R296, R323). -/

/-- The addresses of FAB_ADDR_SET in their registers. -/
def State.fabAddrs (s : State) (p : List Byte) : State :=
  ((((List.range 3).foldl (fun s k => s.wr (Reg.FAB_IP6_PFX k) (beNat (sliceB p 9 12) / 2 ^ (32 * k)))
    (((s.wr Reg.FAB_MAC (rdLE p 0 3)).wr Reg.FAB_ETYPE (rdLE p 3 4)).wr Reg.FAB_UDP (rdLE p 7 2))).wr Reg.FAB_IP4_PFX (rdLE p 21 2)).wf
      Reg.FAB_CTL 2 2 (rdLE p 23 1))

theorem exec_fabAddrSet (h : Executes defFabAddrSet s r t u) :
    exec (.fabAddrSet r) s = .next ((u.fabAddrs (pkParams r.bytes)).accepted defFabAddrSet r t []) := h.ok rfl

end

/-- A well-kept state in which a register holds `n`. -/
structure State.Holds (s : State) (a n : Nat) : Prop where
  inv : s.Inv
  reads : s.rd a = n

section
variable {s : State} {a n : Nat}

theorem State.Inv.holds_wr (i : s.Inv) (a : Nat) {v : Nat} (hv : v < 2 ^ 32) : (s.wr a v).Holds a v :=
  ⟨(State.wr_keep ..).inv i, (State.rd_wr_self i.regs _ _).trans (Nat.mod_eq_of_lt hv)⟩

theorem State.Inv.holds_wr_mod (i : s.Inv) (a v : Nat) : (s.wr a v).Holds a (v % 2 ^ 32) :=
  ⟨(State.wr_keep ..).inv i, State.rd_wr_self i.regs _ _⟩

theorem State.Holds.wr (h : s.Holds a n) {b : Nat} (hb : a ≠ b) (v : Nat) : (s.wr b v).Holds a n :=
  ⟨(State.wr_keep ..).inv h.inv, (State.rd_wr_ne h.inv.regs v hb).trans h.reads⟩

theorem State.Holds.wf (h : s.Holds a n) {b : Nat} (hb : a ≠ b) (hi lo v : Nat) : (s.wf b hi lo v).Holds a n :=
  ⟨(State.wf_keep ..).inv h.inv, ((s.wf_but b hi lo v).rd (by simpa using hb)).trans h.reads⟩

end

section
variable {s u : State} {r : Req} {t : RepTo}

theorem State.fabAddrs_keep (s : State) (p : List Byte) : Keep 0x3FFFFFFFB s (s.fabAddrs p) :=
  Keep.via (State.wf_keep ..) rfl <| Keep.via (State.wr_keep ..) rfl <| Keep.foldl (fun _ _ => State.wr_keep ..) <|
    Keep.via (State.wr_keep ..) rfl <| Keep.via (State.wr_keep ..) rfl (State.wr_keep ..)

theorem State.Holds.foldl_ip6 {s : State} {a n : Nat} (h : s.Holds a n) (ha : ∀ k, k < 3 → a ≠ Reg.FAB_IP6_PFX k) (f : Nat → Nat) :
    ((List.range 3).foldl (fun s k => s.wr (Reg.FAB_IP6_PFX k) (f k)) s).Holds a n :=
  ((h.wr (ha 0 (by decide)) _).wr (ha 1 (by decide)) _).wr (ha 2 (by decide)) _

/-- The three words of the IPv6 part. -/
theorem State.Inv.holds_ip6 {s : State} (i : s.Inv) (f : Nat → Nat) : ∀ k, k < 3 →
    ((List.range 3).foldl (fun s k => s.wr (Reg.FAB_IP6_PFX k) (f k)) s).Holds (Reg.FAB_IP6_PFX k) (f k % 2 ^ 32)
  | 0, _ => ((i.holds_wr_mod _ _).wr (by decide) _).wr (by decide) _
  | 1, _ => (((State.wr_keep ..).inv i).holds_wr_mod _ _).wr (by decide) _
  | 2, _ => ((State.wr_keep ..).inv ((State.wr_keep ..).inv i)).holds_wr_mod _ _

theorem State.fabAddrs_reads {p : List Byte} (i : s.Inv) (hc : rdLE p 23 1 ≤ 1) : let x := s.fabAddrs p
    x.rd Reg.FAB_MAC = rdLE p 0 3 ∧ x.rd Reg.FAB_ETYPE = rdLE p 3 4 ∧ x.rd Reg.FAB_UDP = rdLE p 7 2 ∧ x.rd Reg.FAB_IP4_PFX = rdLE p 21 2 ∧
      x.rf Reg.FAB_CTL 2 2 = rdLE p 23 1 ∧ (∀ k, k < 3 → x.rd (Reg.FAB_IP6_PFX k) = beNat (sliceB p 9 12) / 2 ^ (32 * k) % 2 ^ 32) := by
  have hlt : ∀ o n, n ≤ 4 → rdLE p o n < 2 ^ 32 := fun o n hn => (rdLE_lt p o n).trans_le (Nat.pow_le_pow_right (by decide) (by omega))
  have i1 : (s.wr Reg.FAB_MAC (rdLE p 0 3)).Inv := (State.wr_keep ..).inv i
  have i2 : ((s.wr Reg.FAB_MAC (rdLE p 0 3)).wr Reg.FAB_ETYPE (rdLE p 3 4)).Inv := (State.wr_keep ..).inv i1
  have i3 : (((s.wr Reg.FAB_MAC (rdLE p 0 3)).wr Reg.FAB_ETYPE (rdLE p 3 4)).wr Reg.FAB_UDP (rdLE p 7 2)).Inv := (State.wr_keep ..).inv i2
  have i4 := (i3.holds_ip6 (fun k => beNat (sliceB p 9 12) / 2 ^ (32 * k)) 0 (by decide)).inv
  refine ⟨?_, ?_, ?_, ?_, ?_, fun k hk => ?_⟩
  · exact ((((((i.holds_wr Reg.FAB_MAC (hlt 0 3 (by decide))).wr (by decide) _).wr (by decide) _).foldl_ip6 (by decide) _).wr (by decide) _).wf
      (by decide) _ _ _).reads
  · exact (((((i1.holds_wr Reg.FAB_ETYPE (hlt 3 4 (by decide))).wr (by decide) _).foldl_ip6 (by decide) _).wr (by decide) _).wf (by decide) _ _ _).reads
  · exact ((((i2.holds_wr Reg.FAB_UDP (hlt 7 2 (by decide))).foldl_ip6 (by decide) _).wr (by decide) _).wf (by decide) _ _ _).reads
  · exact ((i4.holds_wr Reg.FAB_IP4_PFX (hlt 21 2 (by decide))).wf (by decide) _ _ _).reads
  · exact (((State.wr_keep ..).inv i4).shows_wf Reg.FAB_CTL (by decide) (by decide) (by omega)).reads
  · have h5 : Reg.FAB_IP6_PFX k ≠ Reg.FAB_IP4_PFX ∧ Reg.FAB_IP6_PFX k ≠ Reg.FAB_CTL := by
      unfold Reg.FAB_IP6_PFX Reg.FAB_IP4_PFX Reg.FAB_CTL
      omega
    exact (((i3.holds_ip6 _ k hk).wr h5.1 _).wf h5.2 _ _ _).reads

theorem fabAddrSet_completes (h : Executes defFabAddrSet s r t u) :
    ∃ x : State, exec (.fabAddrSet r) s = .next (x.accepted defFabAddrSet r t []) ∧ u.Alters x [.regs] ∧ (u.Inv → let p := pkParams r.bytes
      x.rd Reg.FAB_MAC = rdLE p 0 3 ∧ x.rd Reg.FAB_ETYPE = rdLE p 3 4 ∧ x.rd Reg.FAB_UDP = rdLE p 7 2 ∧ x.rd Reg.FAB_IP4_PFX = rdLE p 21 2 ∧
      x.rf Reg.FAB_CTL 2 2 = rdLE p 23 1 ∧ (∀ k, k < 3 → x.rd (Reg.FAB_IP6_PFX k) = beNat (sliceB p 9 12) / 2 ^ (32 * k) % 2 ^ 32)) := by
  refine ⟨_, exec_fabAddrSet h, (State.fabAddrs_keep ..).alters _ (by decide), fun i => State.fabAddrs_reads i ?_⟩
  have hc := Executes.checked (d := defFabAddrSet) rfl h
  simp only [Bool.and_eq_true, decide_eq_true_eq] at hc
  exact hc.2

/-! ### COLL_CFG (R350). -/

/-- The engine's limits in their registers. -/
def State.collLimits (s : State) (p : List Byte) : State :=
  ((((((s.wr Reg.COLL_DEADLINE (rdLE p 0 4)).wr Reg.COLL_AGREE_TMO (rdLE p 4 4)).wr Reg.COLL_RESULT_TMO (rdLE p 8 4)).wr Reg.COLL_HB_INT (rdLE p 12 4)).wr
    Reg.COLL_POLL (rdLE p 16 4)).wf Reg.COLL_HB_MISS 3 0 (rdLE p 20 1)).wf Reg.COLL_CTL 1 1 (rdLE p 21 1)

theorem exec_collCfg (h : Executes defCollCfg s r t u) :
    exec (.collCfg r) s = .next ((u.collLimits (pkParams r.bytes)).accepted defCollCfg r t []) := h.ok rfl

theorem State.collLimits_keep (s : State) (p : List Byte) : Keep 0x3FFFFFFFB s (s.collLimits p) :=
  Keep.via (State.wf_keep ..) rfl <| Keep.via (State.wf_keep ..) rfl <| Keep.via (State.wr_keep ..) rfl <| Keep.via (State.wr_keep ..) rfl <|
    Keep.via (State.wr_keep ..) rfl <| Keep.via (State.wr_keep ..) rfl (State.wr_keep ..)

theorem State.collLimits_reads {p : List Byte} (i : s.Inv) (hm : rdLE p 20 1 ≤ 15) (hc : rdLE p 21 1 ≤ 1) : let x := s.collLimits p
    x.rd Reg.COLL_DEADLINE = rdLE p 0 4 ∧ x.rd Reg.COLL_AGREE_TMO = rdLE p 4 4 ∧ x.rd Reg.COLL_RESULT_TMO = rdLE p 8 4 ∧ x.rd Reg.COLL_HB_INT = rdLE p 12 4 ∧
      x.rd Reg.COLL_POLL = rdLE p 16 4 ∧ x.rf Reg.COLL_HB_MISS 3 0 = rdLE p 20 1 ∧ x.rf Reg.COLL_CTL 1 1 = rdLE p 21 1 := by
  have hlt : ∀ o, rdLE p o 4 < 2 ^ 32 := fun o => rdLE_lt p o 4
  have h1 := i.holds_wr Reg.COLL_DEADLINE (hlt 0)
  have h2 := h1.inv.holds_wr Reg.COLL_AGREE_TMO (hlt 4)
  have h3 := h2.inv.holds_wr Reg.COLL_RESULT_TMO (hlt 8)
  have h4 := h3.inv.holds_wr Reg.COLL_HB_INT (hlt 12)
  have h5 := h4.inv.holds_wr Reg.COLL_POLL (hlt 16)
  have h6 := h5.inv.shows_wf Reg.COLL_HB_MISS (hi := 3) (lo := 0) (v := rdLE p 20 1) (by decide) (by decide) (by omega)
  have h7 := h6.inv.shows_wf Reg.COLL_CTL (hi := 1) (lo := 1) (v := rdLE p 21 1) (by decide) (by decide) (by omega)
  refine ⟨?_, ?_, ?_, ?_, ?_, ?_, h7.reads⟩
  · exact ((((((h1.wr (by decide) _).wr (by decide) _).wr (by decide) _).wr (by decide) _).wf (by decide) _ _ _).wf (by decide) _ _ _).reads
  · exact (((((h2.wr (by decide) _).wr (by decide) _).wr (by decide) _).wf (by decide) _ _ _).wf (by decide) _ _ _).reads
  · exact ((((h3.wr (by decide) _).wr (by decide) _).wf (by decide) _ _ _).wf (by decide) _ _ _).reads
  · exact (((h4.wr (by decide) _).wf (by decide) _ _ _).wf (by decide) _ _ _).reads
  · exact ((h5.wf (by decide) _ _ _).wf (by decide) _ _ _).reads
  · exact (h6.wf_other (by decide) _ _ _).reads

theorem collCfg_completes (h : Executes defCollCfg s r t u) :
    ∃ x : State, exec (.collCfg r) s = .next (x.accepted defCollCfg r t []) ∧ u.Alters x [.regs] ∧ (u.Inv → let p := pkParams r.bytes
      x.rd Reg.COLL_DEADLINE = rdLE p 0 4 ∧ x.rd Reg.COLL_AGREE_TMO = rdLE p 4 4 ∧ x.rd Reg.COLL_RESULT_TMO = rdLE p 8 4 ∧ x.rd Reg.COLL_HB_INT = rdLE p 12 4 ∧
      x.rd Reg.COLL_POLL = rdLE p 16 4 ∧ x.rf Reg.COLL_HB_MISS 3 0 = rdLE p 20 1 ∧ x.rf Reg.COLL_CTL 1 1 = rdLE p 21 1) := by
  have hc := Executes.checked (d := defCollCfg) rfl h
  simp only [Bool.and_eq_true, decide_eq_true_eq] at hc
  exact ⟨_, exec_collCfg h, (State.collLimits_keep ..).alters _ (by decide), fun i => State.collLimits_reads i hc.1.2.2 hc.2⟩

/-! ### Table writes and the epoch switch (R312, R313). -/

theorem rtWrite_completes (h : Executes defRtWrite s r t u) : let p := pkParams r.bytes; let v := u.epochDue
    (v.bankOpen (rdLE p 0 1) = false → exec (.rtWrite r) s = .next (v.refusedWith r t stBUSY)) ∧
    (v.bankOpen (rdLE p 0 1) = true → exec (.rtWrite r) s = .next (((List.range (rdLE p 3 2)).foldl (fun s i =>
      s.wr (Reg.FAB_RT (rdLE p 0 1) (rdLE p 1 2 + i)) (rdLE p (5 + 4 * i) 4)) v).rerouteWaiting.accepted defRtWrite r t [])) :=
  ⟨fun hb => h.refused (by decide) (if_neg (by simp [hb])), fun hb => h.ok (if_pos hb)⟩

theorem mcWrite_completes (h : Executes defMcWrite s r t u) : let p := pkParams r.bytes; let v := u.epochDue
    (v.bankOpen (rdLE p 0 1) = false → exec (.mcWrite r) s = .next (v.refusedWith r t stBUSY)) ∧
    (v.bankOpen (rdLE p 0 1) = true → exec (.mcWrite r) s = .next (((List.range (rdLE p 3 2)).foldl (fun s i =>
      (s.wr (Reg.FAB_MC_LO (rdLE p 0 1) (rdLE p 1 2 + i)) (rdLE p (5 + 8 * i) 4)).wr (Reg.FAB_MC_HI (rdLE p 0 1) (rdLE p 1 2 + i)) (rdLE p (9 + 8 * i) 4))
        v).accepted defMcWrite r t [])) :=
  ⟨fun hb => h.refused (by decide) (if_neg (by simp [hb])), fun hb => h.ok (if_pos hb)⟩

theorem epochSwitch_completes (h : Executes defEpochSwitch s r t u) : let p := pkParams r.bytes
    (u.rbit Reg.MGMT_PTP_CTL 0 = false → exec (.epochSwitch r) s = .next (u.refusedWith r t stBAD_STATE)) ∧
    (u.rbit Reg.MGMT_PTP_CTL 0 = true → u.rbit Reg.FAB_EPOCH 3 = true → exec (.epochSwitch r) s = .next (u.refusedWith r t stBUSY)) ∧
    (u.rbit Reg.MGMT_PTP_CTL 0 = true → u.rbit Reg.FAB_EPOCH 3 = false → exec (.epochSwitch r) s = .next (({ u with fab := { u.fab with
      epoch := some { bank := rdLE p 0 1, valid := rdLE p 1 1, sec := rdLE p 2 6, ns := rdLE p 8 4 } } } : State).goesOn defEpochSwitch r t .epoch none)) :=
  ⟨fun hp => h.refused (by decide) (if_pos hp), fun hp he => h.refused (by decide) ((if_neg (by simp [hp])).trans (if_pos he)),
    fun hp he => h.first ((if_neg (by simp [hp])).trans (if_neg (by simp [he])))⟩

/-! ### Ports (R292, R324). -/

theorem portCfg_completes (h : Executes defPortCfg s r t u) : let p := pkParams r.bytes; let q := rdLE p 0 1
    exec (.portCfg r) s = .next ((((u.wf (Reg.PORT_CTL q) 4 1 (rdLE p 1 1)).wf (Reg.PORT_HCTL q 0) 4 0 (rdLE p 2 1)).wf (Reg.PORT_HCTL q 1) 4 0 (rdLE p 3 1)).accepted
      defPortCfg r t []) := h.ok rfl

/-- PORT_ACT's meaning, action by action. -/
theorem defPortAct_run (u : State) (c : Call) : defPortAct.run u c = (let h := rdLE c.p 0 1; let done (s : State) : Out := outOk s.dikeDone (toLE 1 (s.portSt h))
    if rdLE c.p 1 1 = 0 then done (u.disableHalf h)
    else if rdLE c.p 1 1 = 1 then done (u.enableHalf h)
    else if rdLE c.p 1 1 = 2 then (if u.portSt h = 5 then done (u.returnHalf h).syncDgPort else outSt u stBAD_STATE)
    else if u.portSt h = 2 then done (u.retrain h) else outSt u stBAD_STATE) := by
  unfold defPortAct
  dsimp only
  generalize rdLE c.p 1 1 = a
  match a with
  | 0 => rfl
  | 1 => rfl
  | 2 => rfl
  | a + 3 => simp

theorem portAct_completes (hx : Executes defPortAct s r t u) : let h := rdLE (pkParams r.bytes) 0 1; let a := rdLE (pkParams r.bytes) 1 1
    let done (x : State) : State := x.dikeDone.accepted defPortAct r t (toLE 1 (x.portSt h))
    (a = 0 → exec (.portAct r) s = .next (done (u.disableHalf h))) ∧ (a = 1 → exec (.portAct r) s = .next (done (u.enableHalf h))) ∧
    (a = 2 → u.portSt h = 5 → exec (.portAct r) s = .next (done (u.returnHalf h).syncDgPort)) ∧ (a = 3 → u.portSt h = 2 → exec (.portAct r) s = .next (done (u.retrain h))) ∧
    (((a = 2 ∧ u.portSt h ≠ 5) ∨ (a = 3 ∧ u.portSt h ≠ 2)) → exec (.portAct r) s = .next (u.refusedWith r t stBAD_STATE)) := by
  have hr := defPortAct_run u { req := r, rep := t, p := pkParams r.bytes }
  dsimp only at hr ⊢
  refine ⟨fun ha => hx.ok ?_, fun ha => hx.ok ?_, fun ha hp => hx.ok ?_, fun ha hp => hx.ok ?_, ?_⟩
  · rw [hr, if_pos ha]
  · rw [hr, if_neg (by omega), if_pos ha]
  · rw [hr, if_neg (by omega), if_neg (by omega), if_pos ha, if_pos hp]
  · rw [hr, if_neg (by omega), if_neg (by omega), if_neg (by omega), if_pos hp]
  · rintro (⟨ha, hp⟩ | ⟨ha, hp⟩)
    · exact hx.refused (by decide) (by rw [hr, if_neg (by omega), if_neg (by omega), if_pos ha, if_neg hp])
    · exact hx.refused (by decide) (by rw [hr, if_neg (by omega), if_neg (by omega), if_neg (by omega), if_neg hp])

theorem portGwSet_completes (hx : Executes defPortGwSet s r t u) : let p := pkParams r.bytes; let h := rdLE p 0 1
    exec (.portGwSet r) s = .next (((u.wr (Reg.PORT_GW_LO (h / 2) (h % 2)) (rdLE p 1 4)).wr (Reg.PORT_GW_HI (h / 2) (h % 2)) (rdLE p 5 2)).accepted defPortGwSet r t []) :=
  hx.ok rfl

theorem topoGet_completes (h : Executes defTopoGet s r t u) :
    exec (.topoGet r) s = .next (u.accepted defTopoGet r t ((List.range 32).flatMap u.topoOf)) := h.ok rfl

/-! ### Dike rings, peers and shadowing (R342 to R346). -/

/-- A DIKE_SET that asks for the modes that stand changes no half-port. -/
theorem State.dikeChanges_none {p : List Byte} (h : ∀ k, k < 32 → bitsOf (u.hctl k) 6 5 = rdLE p (4 + k) 1) : u.dikeChanges p = [] := by
  unfold State.dikeChanges
  rw [List.filter_eq_nil_iff]
  intro k hk
  simp [h k (List.mem_range.mp hk)]

theorem dikeSet_completes (hx : Executes defDikeSet s r t u) (h : ∀ h, h < 32 → bitsOf (u.hctl h) 6 5 = rdLE (pkParams r.bytes) (4 + h) 1) :
    exec (.dikeSet r) s =
      .next (((u.wf Reg.COLL_DIKE 15 0 (rdLE (pkParams r.bytes) 0 2)).wf Reg.RST_SPOL 29 16 (rdLE (pkParams r.bytes) 2 2)).goesOn defDikeSet r t (.dike 0) none) := by
  refine hx.first ?_
  unfold defDikeSet
  dsimp only
  rw [State.dikeChanges_none h]
  rfl

theorem watchSet_completes (h : Executes defWatchSet s r t u) : let p := pkParams r.bytes
    exec (.watchSet r) s = .next (((List.range (rdLE p 1 1)).foldl (fun s i =>
      s.regWrite (Reg.COLL_PEER (rdLE p 0 1 + i)) (rdLE p (2 + 2 * i) 2 / 2 ^ 15 * 2 ^ 31 + rdLE p (2 + 2 * i) 2 % 8192)) u).accepted defWatchSet r t []) :=
  h.ok rfl

theorem peerClear_completes (h : Executes defPeerClear s r t u) : let n := rdLE (pkParams r.bytes) 0 1
    (u.peerClears n = true → exec (.peerClear r) s = .next ((u.clearPeer n).accepted defPeerClear r t [])) ∧
    (u.peerClears n = false → exec (.peerClear r) s = .next (u.refusedWith r t stBAD_STATE)) :=
  ⟨fun hn => h.ok (if_pos hn), fun hn => h.refused (by decide) (if_neg (by simp [hn]))⟩

theorem shadowSet_completes (h : Executes defShadowSet s r t u) :
    (u.anyResident = true → exec (.shadowSet r) s = .next (u.refusedWith r t stBAD_STATE)) ∧
    (u.anyResident = false → exec (.shadowSet r) s = .next ((u.wf Reg.COLL_CTL 0 0 1).accepted defShadowSet r t [])) :=
  ⟨fun ha => h.refused (by decide) (if_pos ha), fun ha => h.ok (if_neg (by simp [ha]))⟩

/-- The step at which the shadow is to be promoted. -/
def State.promoteSet (s : State) (p : List Byte) : State := { s with coll := { s.coll with promote := some (rdLE p 0 8) } }

theorem exec_shadowPromote (h : Executes defShadowPromote s r t u) (hs : u.rbit Reg.COLL_CTL 0 = true) {x : State}
    (hx : (if (u.promoteSet (pkParams r.bytes)).runCtx = 0 then u.promoteSet (pkParams r.bytes)
      else (u.promoteSet (pkParams r.bytes)).promoteAt ((u.promoteSet (pkParams r.bytes)).rd64 Reg.DET_STEP_LO)) = x) :
    exec (.shadowPromote r) s = .next (x.accepted defShadowPromote r t []) :=
  h.ok ((if_neg (by simp [hs])).trans (congrArg (outOk · []) hx))

theorem shadowPromote_completes (h : Executes defShadowPromote s r t u) :
    let x : State := { u with coll := { u.coll with promote := some (rdLE (pkParams r.bytes) 0 8) } }
    (u.rbit Reg.COLL_CTL 0 = false → exec (.shadowPromote r) s = .next (u.refusedWith r t stBAD_STATE)) ∧
    (u.rbit Reg.COLL_CTL 0 = true → u.runCtx = 0 → exec (.shadowPromote r) s = .next (x.accepted defShadowPromote r t [])) ∧
    (u.rbit Reg.COLL_CTL 0 = true → u.runCtx ≠ 0 → exec (.shadowPromote r) s = .next ((x.promoteAt (u.rd64 Reg.DET_STEP_LO)).accepted defShadowPromote r t [])) :=
  ⟨fun hs => h.refused (by decide) (if_pos hs), fun hs hc => exec_shadowPromote h hs (if_pos hc), fun hs hc => exec_shadowPromote h hs (if_neg hc)⟩

/-! ### Withdrawal (R38). -/

theorem withdraw_completes (h : Executes defWithdraw s r t u) :
    (u.devState = stWithdrawn → exec (.withdraw r) s = .next (u.accepted defWithdraw r t [])) ∧
    (u.devState ≠ stWithdrawn → exec (.withdraw r) s = .next ((u.withdrawFirst 0x0710).accepted defWithdraw r t [])) :=
  ⟨fun hw => h.ok (congrArg (outOk · []) (if_pos hw)), fun hw => h.ok (congrArg (outOk · []) (if_neg hw))⟩

/-- The state with the command's tick and counted ticks kept. -/
def State.backSet (s : State) : State := { s with rst := { s.rst with back := some (s.now, s.countedTicks) } }

theorem State.devState_backSet (s : State) : s.backSet.devState = s.devState := rfl

theorem returnService_completes (h : Executes defReturnService s r t u) : let x : State := { u with rst := { u.rst with back := some (u.now, u.countedTicks) } }
    (u.devState = stWithdrawn → exec (.returnService r) s = .next (x.returnService.accepted defReturnService r t [])) ∧
    (u.devState ≠ stWithdrawn → exec (.returnService r) s =
      .next (((List.range 8).foldl (fun s k => s.wr64 (Reg.RST_CNT_TS_LO k) 0) x).accepted defReturnService r t [])) := by
  have hr : defReturnService.run u { req := r, rep := t, p := pkParams r.bytes } = outOk u.backSet.applyReturn [] := rfl
  refine ⟨fun hw => h.ok (hr.trans (congrArg (outOk · []) ?_)), fun hw => h.ok (hr.trans (congrArg (outOk · []) ?_))⟩
  · unfold State.applyReturn
    exact if_pos (u.devState_backSet.trans hw)
  · unfold State.applyReturn
    exact if_neg (u.devState_backSet.symm ▸ hw)

end

/-- Settles O51: each command from its meaning; a coordinate, an address and a table entry are read back from their registers. -/
theorem fabricCommandsComplete : Obligations.FabricCommandsComplete :=
  ⟨fun _ _ _ _ h => ⟨exec_coordSet_refused h, exec_coordSet h⟩, fun _ _ _ _ => fabAddrSet_completes, fun _ _ _ _ => rtWrite_completes,
    fun _ _ _ _ => mcWrite_completes, fun _ _ _ _ => epochSwitch_completes, fun _ _ _ _ => portCfg_completes, fun _ _ _ _ => portAct_completes,
    fun _ _ _ _ => portGwSet_completes, fun _ _ _ _ => topoGet_completes, fun _ _ _ _ => dikeSet_completes, fun _ _ _ _ => watchSet_completes,
    fun _ _ _ _ => peerClear_completes, fun _ _ _ _ => shadowSet_completes, fun _ _ _ _ => shadowPromote_completes, fun _ _ _ _ => collCfg_completes,
    fun _ _ _ _ => withdraw_completes, fun _ _ _ _ => returnService_completes⟩

end Sys2Proof.Machine
end

section
/-! SUPPORT. Checkpoint, attestation, record and calibration commands (R541 to R543), each from its meaning. -/

namespace Sys2Proof.Machine

/-! ### The fields of a quote (R499). -/

theorem toLE_length : ∀ n w : Nat, (toLE n w).length = n
  | 0, _ => rfl
  | n + 1, w => congrArg (· + 1) (toLE_length n (w / 256))

theorem sliceB_between {a x c : List Byte} {o n : Nat} (ha : a.length = o) (hx : x.length = n) : sliceB (a ++ (x ++ c)) o n = x := by
  subst ha hx
  unfold sliceB
  dsimp only
  rw [List.drop_left, List.take_left, Nat.sub_self]
  exact List.append_nil x

theorem length_sliceB (l : List Byte) (o n : Nat) : (sliceB l o n).length = n := by
  unfold sliceB
  rw [List.length_append, List.length_replicate]
  exact Nat.add_sub_cancel' (List.length_take_le _ _)

theorem State.length_devId (s : State) : s.devId.length = 48 := by
  unfold State.devId State.digestAt
  simp [List.length_flatMap, toLE_length]

/-- A quote's flags. -/
def State.quoteFlags (s : State) : Nat := boolN (s.rbit Reg.SEC_DBG 3) + 2 * boolN s.fuse.owner.isSome + 4 * s.devFlags

theorem State.quoteBody_split (s : State) (p : List Byte) : ∃ a z : List Byte, a.length = 8 ∧
    s.quoteBody p = (toLE 4 0x51415A4B ++ toLE 2 1 ++ toLE 2 s.quoteFlags) ++ (a ++ (s.devId ++ (sliceB p 0 64 ++ z))) := by
  exact ⟨toLE 2 0x0301 ++ (toLE 2 1 ++ (toLE 1 s.devState ++ (toLE 1 s.lCount ++ toLE 2 0))), _, by simp [toLE_length], by
    unfold State.quoteBody
    simp only [List.append_assoc]
    rfl⟩

theorem State.quoteBody_fields (s : State) (p : List Byte) : let b := s.quoteBody p
    b.take 8 = [0x4B, 0x5A, 0x41, 0x51, 1, 0] ++ toLE 2 s.quoteFlags ∧ sliceB b 16 48 = s.devId ∧ sliceB b 64 64 = sliceB p 0 64 := by
  obtain ⟨a, z, ha, hb⟩ := s.quoteBody_split p
  have hh : (toLE 4 0x51415A4B ++ toLE 2 1 ++ toLE 2 s.quoteFlags).length = 8 := by simp [toLE_length]
  dsimp only
  rw [hb]
  refine ⟨List.take_left' hh, ?_, ?_⟩
  · rw [← List.append_assoc]
    exact sliceB_between (by rw [List.length_append, hh, ha]) s.length_devId
  · rw [← List.append_assoc, ← List.append_assoc]
    exact sliceB_between (by rw [List.length_append, List.length_append, hh, ha, s.length_devId]) (length_sliceB _ _ _)

section
variable {s u : State} {r : Req} {t : RepTo}

/-! ### Pages of a store (R514). -/

theorem pageOut_beyond {l : List Byte} {o n : Nat} (h : l.length < o + n) : pageOut u l o n = outSt u stOUT_OF_RANGE := if_pos h

theorem pageOut_within {l : List Byte} {o n : Nat} (h : o + n ≤ l.length) :
    pageOut u l o n = outOk u (toLE 4 l.length ++ (l.drop o).take (min n 4092)) := if_neg (Nat.not_lt.mpr h)

/-! ### Checkpoints (R439, R443, R446, R447). -/

theorem ckptSetup_completes {f : Flips} (h : Executes (defCkptSetup f) s r t u) : let p := pkParams r.bytes
    (u.slotById (rdLE p 0 2) = none → exec (.ckptSetup r f) s = .next (u.refusedWith r t stOUT_OF_RANGE)) ∧
    (∀ n j, u.slotById (rdLE p 0 2) = some (n, j) → let g := u.devRead .command (rdLE p 2 8) 512 f
      (u.reelUses j.ctx.toNat = true → exec (.ckptSetup r f) s = .next (u.refusedWith r t stBUSY)) ∧
      (u.reelUses j.ctx.toNat = false → g.2.1 ≠ 0 → exec (.ckptSetup r f) s = .next (g.2.2.2.refusedWith r t stHW_FAULT)) ∧
      (u.reelUses j.ctx.toNat = false → g.2.1 = 0 → ckDescOk g.1 (j.seals.map (fun y => (y.lo, y.hi - y.lo))) = false →
        exec (.ckptSetup r f) s = .next (g.2.2.2.refusedWith r t stOUT_OF_RANGE)) ∧
      (u.reelUses j.ctx.toNat = false → g.2.1 = 0 → ckDescOk g.1 (j.seals.map (fun y => (y.lo, y.hi - y.lo))) = true →
        exec (.ckptSetup r f) s = .next ((g.2.2.2.setSlot n (some { j with ck := some (ckDescOf g.1) })).accepted (defCkptSetup f) r t []))) := by
  refine ⟨fun hj => h.refused (by decide) ?_, fun n j hj => ⟨fun hb => h.refused (by decide) ?_, fun hb hg => h.refused (by decide) ?_,
    fun hb hg hk => h.refused (by decide) ?_, fun hb hg hk => h.ok ?_⟩⟩
  all_goals
    unfold defCkptSetup
    dsimp only
    rw [hj]
    try dsimp only
  · rw [if_pos hb]
  · rw [if_neg (by simp [hb]), if_pos hg]
  · rw [if_neg (by simp [hb]), if_neg (by simp [hg]), if_neg (by simp [hk])]
  · rw [if_neg (by simp [hb]), if_neg (by simp [hg]), if_pos hk]

theorem ckptNow_completes (h : Executes defCkptNow s r t u) : let p := pkParams r.bytes
    (u.slotById (rdLE p 0 2) = none → exec (.ckptNow r) s = .next (u.refusedWith r t stOUT_OF_RANGE)) ∧
    (∀ n j, u.slotById (rdLE p 0 2) = some (n, j) →
      (j.ck = none → exec (.ckptNow r) s = .next (u.refusedWith r t stBAD_STATE)) ∧
      (j.ck ≠ none → u.reel.ckpt ≠ none → exec (.ckptNow r) s = .next (u.refusedWith r t stBUSY)) ∧
      (j.ck ≠ none → u.reel.ckpt = none → exec (.ckptNow r) s = .next ((u.setSlot n (some { j with due := true })).accepted defCkptNow r t []))) := by
  refine ⟨fun hj => h.refused (by decide) ?_, fun n j hj => ⟨fun hk => h.refused (by decide) ?_, fun hk hc => h.refused (by decide) ?_, fun hk hc => h.ok ?_⟩⟩
  all_goals
    unfold defCkptNow
    dsimp only
    rw [hj]
    try dsimp only
  · rw [if_pos (by simp [hk])]
  · rw [if_neg (by simpa using hk), if_pos (by simpa [Option.isSome_iff_ne_none] using hc)]
  · rw [if_neg (by simpa using hk), if_neg (by simp [hc])]

theorem restore_completes (h : Executes defRestore s r t u) : let p := pkParams r.bytes
    (u.rbit Reg.CMD_STRAPS 14 = true → exec (.restore r) s = .next (u.refusedWith r t stBAD_STATE)) ∧
    (u.rbit Reg.CMD_STRAPS 14 = false → u.slotById (rdLE p 0 2) = none → exec (.restore r) s = .next (u.refusedWith r t stOUT_OF_RANGE)) ∧
    (∀ n j, u.rbit Reg.CMD_STRAPS 14 = false → u.slotById (rdLE p 0 2) = some (n, j) →
      ((j.started = true ∨ j.st ≠ .ready ∨ j.ck = none) → exec (.restore r) s = .next (u.refusedWith r t stBAD_STATE)) ∧
      (j.started = false → j.st = .ready → j.ck ≠ none → u.reel.restore ≠ none → exec (.restore r) s = .next (u.refusedWith r t stBUSY)) ∧
      (j.started = false → j.st = .ready → j.ck ≠ none → u.reel.restore = none → exec (.restore r) s =
        .next ((u.restoreStart j.ctx.toNat (rdLE p 2 2) (rdLE p 4 1) (rdLE p 5 8)).goesOn defRestore r t .restore none))) := by
  refine ⟨fun hs => h.refused (by decide) (if_pos hs), fun hs hj => h.refused (by decide) ((if_neg (by simp [hs])).trans ?_), fun n j hs hj =>
    ⟨fun hb => h.refused (by decide) ((if_neg (by simp [hs])).trans ?_), fun h1 h2 h3 hr => h.refused (by decide) ((if_neg (by simp [hs])).trans ?_),
    fun h1 h2 h3 hr => h.first ((if_neg (by simp [hs])).trans ?_)⟩⟩
  all_goals
    dsimp only
    rw [hj]
    try dsimp only
  · rw [if_pos (by simpa using hb)]
  · rw [if_neg (by simp [h1, h2, h3]), if_pos (by simpa [Option.isSome_iff_ne_none] using hr)]
  · rw [if_neg (by simp [h1, h2, h3]), if_neg (by simp [hr])]

theorem reelCfg_completes (h : Executes defReelCfg s r t u) : let p := pkParams r.bytes
    let x := ((((u.wr Reg.REEL_MTBF (rdLE p 0 4)).wr Reg.REEL_IVL_MIN (rdLE p 4 4)).wr Reg.REEL_IVL_MAX (rdLE p 8 4)).wr Reg.REEL_DRAIN_TMO (rdLE p 12 4)).newInterval
    exec (.reelCfg r) s = .next (x.accepted defReelCfg r t (toLE 4 (x.rd Reg.REEL_IVL))) := h.ok rfl

theorem reelGet_completes (h : Executes defReelGet s r t u) : let g := u.readRegs (wordsFrom Reg.REEL_ST 24)
    exec (.reelGet r) s = .next (g.2.accepted defReelGet r t g.1) := h.ok rfl

/-! ### Attestation and run records (R370, R374, R497, R499). -/

theorem quote_completes (h : Executes defQuote s r t u) : ∃ b : List Byte,
    exec (.quote r) s = .next ((u.event 0x0A0D devUnit 0 [(16, 2, rdLE (pkParams r.bytes) 0 2)]).accepted defQuote r t (b ++ u.sign b)) ∧
    b.take 8 = [0x4B, 0x5A, 0x41, 0x51, 1, 0] ++ toLE 2 (boolN (u.rbit Reg.SEC_DBG 3) + 2 * boolN u.fuse.owner.isSome + 4 * u.devFlags) ∧
    sliceB b 16 48 = u.devId ∧ sliceB b 64 64 = sliceB (pkParams r.bytes) 0 64 :=
  ⟨u.quoteBody (pkParams r.bytes), h.ok rfl, u.quoteBody_fields _⟩

theorem measExtend_completes (h : Executes defMeasExtend s r t u) : let p := pkParams r.bytes; let x := u.extend (rdLE p 0 1) (p.drop 1)
    exec (.measExtend r) s = .next (x.accepted defMeasExtend r t (x.digestAt (Reg.SEC_MEAS (rdLE p 0 1)))) := h.ok rfl

theorem sealRegion_completes (h : Executes defSeal s r t u) : let p := pkParams r.bytes
    (u.slotById (rdLE p 0 2) = none → exec (.sealRegion r) s = .next (u.refusedWith r t stOUT_OF_RANGE)) ∧
    (∀ n j, u.slotById (rdLE p 0 2) = some (n, j) → let ok := sealOk (j.seals.map (fun y => (y.lo, y.hi - y.lo))) (rdLE p 6 8) (rdLE p 14 8)
      ((255 ≤ j.seals.length ∨ ok = false) → exec (.sealRegion r) s = .next (u.refusedWith r t stOUT_OF_RANGE)) ∧
      (j.seals.length < 255 → ok = true → exec (.sealRegion r) s = .next ((u.sealRegion n (rdLE p 2 4) (rdLE p 6 8) (rdLE p 6 8 + rdLE p 14 8) j.step.toNat).goesOn
        defSeal r t (.sealing j.ctx.toNat (rdLE p 2 4)) none))) := by
  refine ⟨fun hj => h.refused (by decide) ?_, fun n j hj => ⟨fun hb => h.refused (by decide) ?_, fun hl hk => h.first ?_⟩⟩
  all_goals
    unfold defSeal
    dsimp only
    rw [hj]
    try dsimp only
  · rw [if_pos hb]
  · rw [if_neg (not_or.mpr ⟨Nat.not_le.mpr hl, by simp [hk]⟩)]

theorem recordCut_completes (h : Executes defRecordCut s r t u) : let p := pkParams r.bytes
    (u.slotById (rdLE p 0 2) = none → exec (.recordCut r) s = .next (u.refusedWith r t stOUT_OF_RANGE)) ∧
    (∀ n j, u.slotById (rdLE p 0 2) = some (n, j) →
      (j.run = none → exec (.recordCut r) s = .next (u.refusedWith r t stBAD_STATE)) ∧
      (j.run ≠ none → exec (.recordCut r) s = .next ((u.setSlot n (some { j with cut := true })).accepted defRecordCut r t []))) := by
  refine ⟨fun hj => h.refused (by decide) ?_, fun n j hj => ⟨fun hr => h.refused (by decide) ?_, fun hr => h.ok ?_⟩⟩
  all_goals
    unfold defRecordCut
    dsimp only
    rw [hj]
    try dsimp only
  · rw [if_neg (by simp [hr])]
  · rw [if_pos (Option.isSome_iff_ne_none.mpr hr)]

theorem recordRead_completes (h : Executes defRecordRead s r t u) : let p := pkParams r.bytes
    let e := (u.recsOf (rdLE p 0 2)).bind (fun x => recordAt x (rdLE p 2 4))
    (e = none → exec (.recordRead r) s = .next (u.refusedWith r t stOUT_OF_RANGE)) ∧
    (∀ v, e = some v → v.bytes.length < rdLE p 6 4 + rdLE p 10 2 → exec (.recordRead r) s = .next (u.refusedWith r t stOUT_OF_RANGE)) ∧
    (∀ v, e = some v → rdLE p 6 4 + rdLE p 10 2 ≤ v.bytes.length → exec (.recordRead r) s = .next (u.accepted defRecordRead r t
      (toLE 4 v.bytes.length ++ (v.bytes.drop (rdLE p 6 4)).take (min (rdLE p 10 2) 4092)))) := by
  refine ⟨fun he => h.refused (by decide) ?_, fun v he hl => h.refused (by decide) ?_, fun v he hl => h.ok ?_⟩
  all_goals
    unfold defRecordRead
    dsimp only
    rw [he]
    try dsimp only
  · rw [pageOut_beyond hl]
  · rw [pageOut_within hl]

theorem recordRelease_completes (h : Executes defRecordRelease s r t u) : let p := pkParams r.bytes
    let e := (u.recsOf (rdLE p 0 2)).bind (fun x => recordAt x (rdLE p 2 4))
    (e = none → exec (.recordRelease r) s = .next (u.refusedWith r t stOUT_OF_RANGE)) ∧
    (e ≠ none → exec (.recordRelease r) s = .next ((u.dropRecs (rdLE p 0 2) (rdLE p 2 4)).accepted defRecordRelease r t [])) := by
  refine ⟨fun he => h.refused (by decide) ?_, fun he => h.ok ?_⟩
  · unfold defRecordRelease
    dsimp only
    rw [he]
  · obtain ⟨v, hv⟩ := Option.ne_none_iff_exists'.mp he
    unfold defRecordRelease
    dsimp only
    rw [hv]

theorem detGet_completes (h : Executes defDetGet s r t u) : let g := u.readRegs (wordsFrom Reg.DET_STEP_LO 10)
    exec (.detGet r) s = .next (g.2.accepted defDetGet r t g.1) := h.ok rfl

/-! ### Calibration (R543, R565). -/

theorem calRead_completes (h : Executes defCalRead s r t u) : let p := pkParams r.bytes; let b := (u.calBytes (rdLE p 0 1)).getD []
    (b.length < rdLE p 1 4 + rdLE p 5 2 → exec (.calRead r) s = .next (u.refusedWith r t stOUT_OF_RANGE)) ∧
    (rdLE p 1 4 + rdLE p 5 2 ≤ b.length → exec (.calRead r) s = .next (u.accepted defCalRead r t
      (toLE 4 b.length ++ (b.drop (rdLE p 1 4)).take (min (rdLE p 5 2) 4092)))) :=
  ⟨fun hl => h.refused (by decide) (pageOut_beyond hl), fun hl => h.ok (pageOut_within hl)⟩

theorem calWrite_completes (h : Executes defCalWrite s r t u) : let p := pkParams r.bytes; let i := rdLE p 0 1
    (u.calBytes i = none → exec (.calWrite r) s = .next (u.refusedWith r t stOUT_OF_RANGE)) ∧
    (∀ b, u.calBytes i = some b →
      (b.length < rdLE p 1 4 + (p.drop 5).length → exec (.calWrite r) s = .next (u.refusedWith r t stOUT_OF_RANGE)) ∧
      (rdLE p 1 4 + (p.drop 5).length ≤ b.length → exec (.calWrite r) s =
        .next ((u.flashPut (flCal + calOff (calHead u) i + rdLE p 1 4) (p.drop 5)).goesOn defCalWrite r t (.cal i) none))) := by
  refine ⟨fun hb => h.refused (by decide) ?_, fun b hb => ⟨fun hl => h.refused (by decide) ?_, fun hl => h.first ?_⟩⟩
  all_goals
    unfold defCalWrite
    dsimp only
    rw [hb]
    try dsimp only
  · rw [if_pos hl]
  · rw [if_neg (Nat.not_lt.mpr hl)]

end

theorem calWriteDone_completes (s : State) : (s.calWriting = none → exec .calWriteDone s = .next s) ∧
    (∀ i, s.calWriting = some i → exec .calWriteDone s = .next ((s.calPut i 0 []).finish (.cal i) stOK [])) := by
  refine ⟨fun h => ?_, fun i h => ?_⟩
  all_goals
    show execCalWriteDone s = _
    unfold execCalWriteDone
    rw [h]

/-- Settles O53: each command from its meaning, by the slot, the record or the item it finds. -/
theorem recordCommandsComplete : Obligations.RecordCommandsComplete :=
  ⟨fun _ _ _ _ _ => ckptSetup_completes, fun _ _ _ _ => ckptNow_completes, fun _ _ _ _ => restore_completes, fun _ _ _ _ => reelCfg_completes,
    fun _ _ _ _ => reelGet_completes, fun _ _ _ _ => quote_completes, fun _ _ _ _ => measExtend_completes, fun _ _ _ _ => sealRegion_completes,
    fun _ _ _ _ => recordCut_completes, fun _ _ _ _ => recordRead_completes, fun _ _ _ _ => recordRelease_completes, fun _ _ _ _ => detGet_completes,
    fun _ _ _ _ => calRead_completes, fun _ _ _ _ => calWrite_completes, calWriteDone_completes⟩

end Sys2Proof.Machine
end

section
/-! SUPPORT. Log, telemetry and register commands (R544, R545), each from its meaning. -/

namespace Sys2Proof.Machine

section
variable {s u : State} {r : Req} {t : RepTo}

/-! ### The log and the telemetry views (R483, R544). -/

theorem logRead_completes (h : Executes defLogRead s r t u) :
    let p := pkParams r.bytes; let old := u.logN - u.log.length; let fst := max old (rdLE p 0 4)
    let l := (u.log.drop (fst - old)).take (rdLE p 4 1)
    let q := toLE 4 old ++ toLE 4 u.logN ++ l.flatMap (fun e => toLE 8 e.tick.toNat ++ toLE 2 e.code.toNat ++ toLE 2 e.unit.toNat ++ toLE 2 e.ctx.toNat ++
      toLE 2 (e.sev.toNat + if e.lost then 16 else 0) ++ sliceB e.data 0 16)
    (u.logN ≤ fst + l.length → exec (.logRead r) s = .next ((u.clearIrq 1).accepted defLogRead r t q)) ∧
    (fst + l.length < u.logN → exec (.logRead r) s = .next (u.accepted defLogRead r t q)) := by
  refine ⟨fun hl => h.ok ?_, fun hl => h.ok ?_⟩
  · exact congrArg₂ outOk (if_pos hl) (by rw [if_pos hl]; rfl)
  · exact congrArg₂ outOk (if_neg (Nat.not_le.mpr hl)) (by rw [if_neg (Nat.not_le.mpr hl)]; rfl)

theorem telemGet_completes (h : Executes defTelemGet s r t u) :
    exec (.telemGet r) s = .next (u.accepted defTelemGet r t (u.viewWords ([Reg.PWR_IN, Reg.PWR_TJ, Reg.PWR_THROT] ++
      (List.range 24).map Reg.PWR_DOM_V ++ (List.range 24).map Reg.PWR_DOM_I ++ (List.range 46).map Reg.PWR_TEMP))) := h.ok rfl

theorem cmdStatus_completes (h : Executes defCmdStatus s r t u) :
    let e := (u.sess t.session).bind (fun x => x.done.find? (fun d => d.seq == rdLE (pkParams r.bytes) 0 4))
    (e = none → exec (.cmdStatus r) s = .next (u.refusedWith r t stOUT_OF_RANGE)) ∧
    (∀ d, e = some d → exec (.cmdStatus r) s = .next (u.accepted defCmdStatus r t (toLE 2 d.opcode ++ toLE 2 d.status ++ toLE 8 d.tick.toNat))) := by
  refine ⟨fun he => h.refused (by decide) ?_, fun d he => h.ok ?_⟩
  all_goals
    unfold defCmdStatus
    dsimp only
    rw [he]

/-! ### Reads of registers (R32, R33, R508, R545). -/

theorem State.readOut_none {a n : Nat} (h : (u.cuardReads n a).1 = none) : u.readOut a n = outSt (u.cuardReads n a).2 stOUT_OF_RANGE := by
  unfold State.readOut
  dsimp only
  rw [h]

theorem State.readOut_some {a n : Nat} {b : List Byte} (h : (u.cuardReads n a).1 = some b) : u.readOut a n = outOk (u.cuardReads n a).2 b := by
  unfold State.readOut
  dsimp only
  rw [h]

theorem any_false_of_forall {f : Nat → Bool} {l : List Nat} (h : ∀ a ∈ l, f a = false) : ¬ l.any f = true := by
  rw [List.any_eq_true]
  rintro ⟨a, ha, hf⟩
  exact Bool.false_ne_true ((h a ha).symm.trans hf)

theorem regReadBasic_completes (h : Executes defRegReadBasic s r t u) : let p := pkParams r.bytes; let as := wordsFrom (rdLE p 0 8) (rdLE p 8 1)
    let g := u.cuardReads (rdLE p 8 1) (rdLE p 0 8)
    ((∃ a ∈ as, notBasic a = true) → exec (.regReadBasic r) s = .next (u.refusedWith r t stOUT_OF_RANGE)) ∧
    ((∀ a ∈ as, notBasic a = false) →
      (g.1 = none → exec (.regReadBasic r) s = .next (g.2.refusedWith r t stOUT_OF_RANGE)) ∧
      (∀ b, g.1 = some b → exec (.regReadBasic r) s = .next (g.2.accepted defRegReadBasic r t b))) :=
  ⟨fun ha => h.refused (by decide) (if_pos (List.any_eq_true.mpr ha)), fun ha =>
    ⟨fun hg => h.refused (by decide) ((if_neg (any_false_of_forall ha)).trans (State.readOut_none hg)),
      fun _ hg => h.ok ((if_neg (any_false_of_forall ha)).trans (State.readOut_some hg))⟩⟩

theorem regRead_completes (h : Executes defRegRead s r t u) : let p := pkParams r.bytes; let g := u.cuardReads (rdLE p 8 2) (rdLE p 0 8)
    (g.1 = none → exec (.regRead r) s = .next (g.2.refusedWith r t stOUT_OF_RANGE)) ∧
    (∀ b, g.1 = some b → exec (.regRead r) s = .next (g.2.accepted defRegRead r t b)) :=
  ⟨fun hg => h.refused (by decide) (State.readOut_none hg), fun _ hg => h.ok (State.readOut_some hg)⟩

end

theorem not_unmapped {a : Nat} (ha : regBase ≤ a) (hm : regMapped (a - regBase) = true) : ¬ (a < regBase ∨ regMapped (a - regBase) = false) :=
  not_or.mpr ⟨Nat.not_lt.mpr ha, by simp [hm]⟩

theorem State.cuardRead_cases (s : State) (a : Nat) :
    ((a < regBase ∨ regMapped (a - regBase) = false) → s.cuardRead a = (none, s.addrError a 3 0 0)) ∧
    (regBase ≤ a → regMapped (a - regBase) = true → inDebug (a - regBase) = true → s.rbit Reg.SEC_DBG 2 = false → s.cuardRead a = (some 0, s)) ∧
    (regBase ≤ a → regMapped (a - regBase) = true → inDebug (a - regBase) = false →
      s.cuardRead a = (some (s.cmdRead (a - regBase)).1, (s.cmdRead (a - regBase)).2)) := by
  unfold State.cuardRead
  refine ⟨fun h => if_pos h, fun ha hm hd hl => ?_, fun ha hm hd => ?_⟩
  · rw [if_neg (not_unmapped ha hm), if_pos hd, if_neg (by simp [hl])]
  · rw [if_neg (not_unmapped ha hm), if_neg (by simp [hd])]

/-! ### Writes of registers (R9, R30, R33, R545). -/

theorem State.cuardWrite_cases (s : State) (c : Call) (a v : Nat) :
    ((a < regBase ∨ regMapped (a - regBase) = false) → s.cuardWrite c a v = (stOUT_OF_RANGE, s.addrError a 3 1 0)) ∧
    (regBase ≤ a → regMapped (a - regBase) = true → inDebug (a - regBase) = false → s.domOn (regDomain (a - regBase)) = true → a - regBase ≠ Reg.SEC_DBG →
      s.cuardWrite c a v = (stOK, s.writeReg (a - regBase) v)) := by
  unfold State.cuardWrite State.cuardWriteAt
  refine ⟨fun h => if_pos h, fun ha hm hd ho hs => ?_⟩
  rw [if_neg (not_unmapped ha hm), if_neg (by simp [hd]), if_neg (by simp [ho]), if_neg hs]

section
variable {s u : State} {r : Req} {t : RepTo}

theorem regWrite_completes (h : Executes defRegWrite s r t u) : let p := pkParams r.bytes; let as := wordsFrom (rdLE p 0 8) (rdLE p 8 2)
    let w := u.cuardWrites { req := r, rep := t, p := p } (as.zipIdx.map (fun x => (x.1, rdLE p (10 + 4 * x.2) 4)))
    ((∃ a ∈ as, notWritable a = true) → exec (.regWrite r) s = .next (u.refusedWith r t stOUT_OF_RANGE)) ∧
    ((∀ a ∈ as, notWritable a = false) → (w.1 = stOK → exec (.regWrite r) s = .next (w.2.accepted defRegWrite r t [])) ∧
      (1 < w.1 → exec (.regWrite r) s = .next (w.2.refusedWith r t w.1))) := by
  intro p as w
  refine ⟨fun ha => h.refused (by decide) (if_pos (List.any_eq_true.mpr ha)), fun ha => ⟨fun hw => h.ok ?_, fun hw => h.refused hw ?_⟩⟩
  · exact (if_neg (any_false_of_forall ha)).trans (congrArg (outSt w.2) hw)
  · exact if_neg (any_false_of_forall ha)

theorem regModify_completes (h : Executes defRegModify s r t u) : let p := pkParams r.bytes; let a := rdLE p 0 8; let g := u.cuardRead a
    (notWritable a = true → exec (.regModify r) s = .next (u.refusedWith r t stOUT_OF_RANGE)) ∧
    (notWritable a = false → g.1 = none → exec (.regModify r) s = .next (g.2.refusedWith r t stOUT_OF_RANGE)) ∧
    (∀ v, notWritable a = false → g.1 = some v →
      let w := g.2.cuardWrite { req := r, rep := t, p := p } a ((v &&& (2 ^ 32 - 1 - rdLE p 8 4)) ||| (rdLE p 12 4 &&& rdLE p 8 4))
      (w.1 = stOK → exec (.regModify r) s = .next (w.2.accepted defRegModify r t (toLE 4 v))) ∧
      (1 < w.1 → exec (.regModify r) s = .next (w.2.refusedWith r t w.1))) := by
  refine ⟨fun hn => h.refused (by decide) (if_pos hn), fun hn hg => h.refused (by decide) ((if_neg (by simp [hn])).trans ?_), fun v hn hg =>
    ⟨fun hw => h.ok ((if_neg (by simp [hn])).trans ?_), fun hw => h.refused hw ((if_neg (by simp [hn])).trans ?_)⟩⟩
  all_goals
    dsimp only
    rw [hg]
    try dsimp only
  · rw [if_pos hw]
  · rw [if_neg (Nat.ne_of_gt (Nat.lt_trans (show stOK < 1 by decide) hw))]

end

/-- Settles O54: each command from its meaning, by what its reads and writes answer. -/
theorem registerCommandsComplete : Obligations.RegisterCommandsComplete :=
  ⟨fun _ _ _ _ => logRead_completes, fun _ _ _ _ => telemGet_completes, fun _ _ _ _ => regReadBasic_completes, State.cuardRead_cases,
    fun _ _ _ _ => cmdStatus_completes, fun _ _ _ _ => regRead_completes, fun _ _ _ _ => regWrite_completes, State.cuardWrite_cases,
    fun _ _ _ _ => regModify_completes⟩

end Sys2Proof.Machine
end

section
/-! SUPPORT. Lanes of the flits that units send, and what the fire of a slot word leaves of its spindle (R69, R73, R82). -/

namespace Sys2Proof.Machine

/-! ### Lanes of packed results. -/

theorem lane_packLanes (w : Nat) : ∀ (l : List Nat) (i : Nat), lane w (packLanes w l) i = (l[i]?).getD 0 % 2 ^ w
  | [], i => by simp [packLanes, lane]
  | x :: l, 0 => by
    unfold packLanes lane
    rw [Nat.mul_zero, Nat.shiftRight_zero, Nat.add_mul_mod_self_left, Nat.mod_mod]
    rfl
  | x :: l, i + 1 => by
    have ih := lane_packLanes w l i
    have hx : (x % 2 ^ w + 2 ^ w * packLanes w l) / 2 ^ w = packLanes w l := by
      rw [Nat.add_mul_div_left _ _ (Nat.two_pow_pos w), Nat.div_eq_of_lt (Nat.mod_lt _ (Nat.two_pow_pos w)), Nat.zero_add]
    unfold lane at ih ⊢
    rw [Nat.shiftRight_eq_div_pow] at ih ⊢
    rw [packLanes, Nat.mul_succ, Nat.add_comm (w * i), Nat.pow_add, ← Nat.div_div_eq_div_mul, hx, ih]
    rfl

/-- A lane that lies within the 2,048 data bits of a flit is that of the number the flit was made from. -/
theorem lane_flitData {w i : Nat} (h : w * i + w ≤ 2048) (d : Nat) : lane w (BitVec.ofNat 2048 d).toNat i = lane w d i := by
  refine Nat.eq_of_testBit_eq fun j => ?_
  unfold lane
  rw [Nat.testBit_mod_two_pow, Nat.testBit_mod_two_pow, Nat.testBit_shiftRight, Nat.testBit_shiftRight, BitVec.testBit_toNat, BitVec.getLsbD_ofNat]
  by_cases hj : j < w
  · have : w * i + j < 2048 := by omega
    simp [this]
  · simp [hj]

/-- A lane of packed lane results: the result's code, zero where it carries poison (R69). -/
theorem laneIs_packRes {w n i : Nat} (hw : w * n ≤ 2048) (hi : i < n) (g : Nat → LaneRes) (pw : Nat) (tag : BitVec 8) (gen : BitVec 2) (nw : Nat) :
    laneIs (mkFlit (packRes w ((List.range n).map g)).1 pw tag gen nw) w i (g i) := by
  have hfit : w * i + w ≤ 2048 := (Nat.mul_succ w i ▸ Nat.mul_le_mul_left w hi).trans hw
  unfold laneIs packRes
  rw [mkFlit, lane_flitData hfit, lane_packLanes]
  simp only [List.map_map, List.getElem?_map, List.getElem?_range hi, Option.map_some, Option.getD_some, Function.comp_apply]
  split
  · exact Nat.zero_mod _
  · rfl

/-- Every format but the 192-bit record has lanes of at most 32 bits (R44). -/
theorem laneW_le {f : Nat} (h : f ≠ 10) : laneW f ≤ 32 := by
  unfold laneW fmtBits
  split <;> omega

/-! ### Slots fired. -/

/-- A result with neither fault nor notice nor reserved request, that counts no more than sparsity errors, NZ tokens and empty rows. -/
structure URes.Quiet (r : URes) : Prop where
  notes : r.notes = [] := by rfl
  rsv : r.rsv = 0 := by rfl
  fault : r.fault = none := by rfl
  cnts : ∀ c ∈ r.cnts, c.1 = 0x0600 ∨ c.1 = 0x0604 ∨ c.1 = 0x0708 := by
    exact fun _ h => absurd (show _ ∈ ([] : List (Nat × Nat)) from h) List.not_mem_nil

/-- The result `r` has been put into spindle `ps`: its spindle, with the outputs and the update in the pipeline (R73). -/
def Leaves (t : State) (ps u : Nat) (r : URes) : Prop := t.spn ps = { r.sp with pipe := r.sp.pipe ++ firePipe u none r }

theorem Leaves.gives {t : State} {ps u : Nat} {r : URes} (h : Leaves t ps u r) (hu : r.upd = none) : Gives t ps u r.sp r.outs := by
  refine h.trans ?_
  unfold firePipe
  rw [hu, List.append_nil]

theorem Leaves.updates {t : State} {ps u lat : Nat} {r : URes} (h : Leaves t ps u r) (ho : r.outs = []) (hu : r.upd = some lat) :
    Updates t ps u r.sp lat := by
  refine h.trans ?_
  unfold firePipe
  rw [ho, hu]
  rfl

/-- What a slot word's operation gives in state `s`, on the tokens it takes (R82). -/
def State.slotRes (s : State) (ps u : Nat) (w : DWord) : Option URes :=
  fireRes (s.uctx ps) (s.gen ps) u w (s.slotTok ps u w 0) (s.slotTok ps u w 1) (s.slotTok ps u w 2) (s.slotTok ps u w 3) (s.slotPred ps u w)
    (s.taken ps u w)

theorem takenRow_none {k : UnitKind} {u : Nat} (hk : unitKind u = some k) (hs : k ≠ .seq) (w : DWord) (f : Flit) : takenRow u w f = none := by
  unfold takenRow
  rw [hk]
  exact if_neg fun h => hs (Option.some.inj h.1)

/-- A slot operation of a tile, vector, special-function, steering or dispatch unit completes where its result is quiet, and leaves
what that result gives. -/
theorem Completes.of_quiet {mk : Fin 18 → Fin 55 → DWord → Instr} {k : UnitKind} {op : Nat} {H : State → Nat → Nat → DWord → Prop}
    {P : State → Nat → Nat → DWord → State → Prop} (hm : k ≠ .mem) (hl : k ≠ .sluice) (hs : k ≠ .seq)
    (hx : ∀ (s : State) (ps : Fin 18) (u : Fin 55) (w : DWord), exec (mk ps u w) s = s.fireRow (slotIs k op u w) ps u w [])
    (hr : ∀ (s : State) (ps u : Nat) (w : DWord), unitKind u = some k → slotOp u w = op → slotOk u w = true → H s ps u w →
      ∃ r, s.slotRes ps u w = some r ∧ r.Quiet ∧ ∀ t, Leaves t ps u r → P s ps u w t) : Completes mk k op H P := by
  intro s ps u w hf hi ho hH
  obtain ⟨hk, hop⟩ : unitKind u = some k ∧ slotOp u w = op := by simpa [slotIs] using hi
  obtain ⟨r, hres, hq, hP⟩ := hr s ps u w hk hop ho hH
  obtain ⟨t, ht, hframe, hspn⟩ := State.fireRow_completes hf hi ho (by simpa [hk] using hm) (by simpa [hk] using hl) hres hq.notes hq.rsv hq.fault hq.cnts
  rw [takenRow_none hk hs] at hspn
  exact ⟨t, (hx s ps u w).trans ht, hframe, hP t hspn⟩

end Sys2Proof.Machine
end

section
/-! SUPPORT. Vector arithmetic and the other vector operations (R60, R63 to R65, R358, R588). -/

namespace Sys2Proof.Machine

section
variable {s t : State} {ps u lat : Nat} {w : DWord}

/-- A vector slot word that is neither COMP nor MOV has lanes of at most 32 bits in its result (R141). -/
theorem laneW_of_slotOk (hk : unitKind u = some .vec) (ho : slotOk u w = true) {op : Nat} (hop : slotOp u w = op) (h10 : op ≠ 10) (h11 : op ≠ 11) :
    laneW (vDfmt w) * 64 ≤ 2048 := by
  have hop' : slot w 63 58 = op := by simpa [slotOp, hk] using hop
  have hd : vDfmt w ≠ 10 := by
    intro hd
    simp [slotOk, hk, vecOk, hop', hd, h10, h11, cvtPair] at ho
  exact Nat.mul_le_mul_right 64 (laneW_le hd)

theorem slotPred_none (hk : unitKind u = some .vec) {op : Nat} (hop : slotOp u w = op) (h10 : op ≠ 10) (hp : vPred w = false) : s.slotPred ps u w = none := by
  have h12 : slot w 12 12 ≠ 1 := by simpa [vPred] using hp
  have hc : ctlPort (s.spn ps) u w = none := by simp [ctlPort, hk, hop, h10, h12]
  unfold State.slotPred
  rw [hc]

theorem Leaves.vecGives {g : Nat → LaneRes} (hw : laneW (vDfmt w) * 64 ≤ 2048)
    (h : Leaves t ps u (vResult w (s.gen ps) lat (vDfmt w)
      ((List.range 64).map fun i => if enabled (s.slotPred ps u w) i then g i else {}) (s.taken ps u w))) : VecGives s ps u w t lat g :=
  ⟨_, h.gives rfl, rfl, rfl, rfl, fun _ hi => laneIs_packRes hw hi (fun i => if enabled (s.slotPred ps u w) i then g i else {}) ..⟩

/-- The result of two-operand arithmetic, lane by lane. -/
theorem fireArith2_eq (op : FVal → FVal → FVal × Bool) (a b : Flit) (pred : Option Flit) (gen : BitVec 2) (sp : Spn) :
    fireArith2 op w a b pred gen sp =
      vResult w gen 4 (vDfmt w) ((List.range 64).map fun i => if enabled pred i then arithLane op w a b i else {}) sp := rfl

end

/-- Two-operand arithmetic completes, one lane result for each enabled lane. -/
theorem arith2_completes {mk : Fin 18 → Fin 55 → DWord → Instr} {n : Nat} {op : FVal → FVal → FVal × Bool} (h10 : n ≠ 10) (h11 : n ≠ 11)
    (hx : ∀ (s : State) (ps : Fin 18) (u : Fin 55) (w : DWord), exec (mk ps u w) s = s.fireRow (slotIs .vec n u w) ps u w [])
    (hr : ∀ (s : State) (ps u : Nat) (w : DWord), unitKind u = some .vec → slotOp u w = n → s.slotRes ps u w =
      some (fireArith2 op w (s.slotTok ps u w 0) (s.slotTok ps u w 1) (s.slotPred ps u w) (s.gen ps) (s.taken ps u w))) :
    Completes mk .vec n (fun _ _ _ _ => True) (fun s ps u w t => VecGives s ps u w t 4 (arithLane op w (s.slotTok ps u w 0) (s.slotTok ps u w 1))) :=
  Completes.of_quiet (by decide) (by decide) (by decide) hx fun s ps u w hk hop ho _ =>
    ⟨_, hr s ps u w hk hop, {}, fun _ ht => Leaves.vecGives (laneW_of_slotOk hk ho hop h10 h11) (fireArith2_eq .. ▸ ht)⟩

/-- A lane is that of any result with the same code and poison. -/
theorem laneIs_congr {f : Flit} {b i : Nat} {r r' : LaneRes} (hc : r'.code = r.code) (hp : r'.poison = r.poison) (h : laneIs f b i r) : laneIs f b i r' := by
  unfold laneIs at h ⊢
  rw [hc, hp]
  exact h

theorem fma_completes : Completes .fma .vec 4 (fun _ _ _ _ => True)
    (fun s ps u w t => ∃ f, Gives t ps u (s.taken ps u w) [(vOport w, 6, f)] ∧ f.tag = tagOf (s.spn ps) (vOtag w) ∧ f.gen = s.gen ps ∧
      ∀ i, i < 64 → laneIs f (laneW (vDfmt w)) i
        (match vLane (s.slotTok ps u w 0) (vSfmt w) i, vLane (s.slotTok ps u w 1) (vSfmt w) i, vLane (s.slotTok ps u w 2) (vSfmt w) i with
         | some x, some y, some z => { code := (finish (arithFmt (vDfmt w)) false (fFmaX x y z)).1 }
         | _, _, _ => { poison := true })) := by
  refine Completes.of_quiet (by decide) (by decide) (by decide) (fun _ _ _ _ => rfl) fun s ps u w hk hop ho _ => ?_
  have hres : s.slotRes ps u w =
      some (fireFma w (s.slotTok ps u w 0) (s.slotTok ps u w 1) (s.slotTok ps u w 2) (s.gen ps) (s.taken ps u w)) := by
    simp only [State.slotRes, fireRes, hk, hop]
  refine ⟨_, hres, {}, fun t ht => ⟨_, ht.gives rfl, rfl, rfl, fun i hi => ?_⟩⟩
  refine laneIs_congr ?_ ?_ (laneIs_packRes (laneW_of_slotOk hk ho hop (by decide) (by decide)) hi ..)
  all_goals
    cases vLane (s.slotTok ps u w 0) (vSfmt w) i <;> cases vLane (s.slotTok ps u w 1) (vSfmt w) i <;>
      cases vLane (s.slotTok ps u w 2) (vSfmt w) i <;> rfl

/-- Settles O10: two-operand arithmetic and FMA, lane by lane. -/
theorem vectorArithmeticCompletes : Obligations.VectorArithmeticCompletes := by
  refine ⟨arith2_completes (by decide) (by decide) (fun _ _ _ _ => rfl) ?_, arith2_completes (by decide) (by decide) (fun _ _ _ _ => rfl) ?_,
    arith2_completes (by decide) (by decide) (fun _ _ _ _ => rfl) ?_, arith2_completes (by decide) (by decide) (fun _ _ _ _ => rfl) ?_,
    arith2_completes (by decide) (by decide) (fun _ _ _ _ => rfl) ?_, fma_completes⟩
  all_goals
    intro s ps u w hk hop
    simp only [State.slotRes, fireRes, hk, hop]
    rfl

end Sys2Proof.Machine
end

section
/-! SUPPORT. Comparison, conversion, reduction, moves and random numbers of the vector unit (R60, R65, R358, R588). -/

namespace Sys2Proof.Machine

/-! ### Predicate tokens (R79). -/

/-- The bits of a number summed from the places of the entries that satisfy `p`. -/
theorem testBit_foldl_places {α : Type} (p : α → Prop) [DecidablePred p] : ∀ (l : List α) (n s i : Nat), s < 2 ^ n →
    ((l.zipIdx n).foldl (fun s x => if p x.1 then s + 2 ^ x.2 else s) s).testBit i =
      if i < n then s.testBit i else (l[i - n]?).any (fun x => decide (p x))
  | [], n, s, i, hs => by
    have hi : ¬ i < n → s.testBit i = false := fun hi =>
      Nat.testBit_lt_two_pow (hs.trans_le (Nat.pow_le_pow_right (by decide) (Nat.not_lt.mp hi)))
    split
    · rfl
    · exact hi ‹_›
  | x :: l, n, s, i, hs => by
    have hb : ∀ j, (if p x then s + 2 ^ n else s).testBit j = if j < n then s.testBit j else (decide (j = n) && decide (p x)) := by
      intro j
      have h0 : s + 2 ^ n = 2 ^ n * 2 ^ 0 + s := by omega
      have h1 : s = 2 ^ n * 0 + s := by omega
      by_cases hp : p x
      · rw [if_pos hp, h0, Nat.testBit_two_pow_mul_add _ hs]
        split
        · rfl
        · rw [Nat.testBit_two_pow, decide_eq_true hp, Bool.and_true]
          exact decide_eq_decide.mpr (by omega)
      · rw [if_neg hp, h1, Nat.testBit_two_pow_mul_add _ hs, Nat.zero_testBit]
        simp [hp]
    have hlt : (if p x then s + 2 ^ n else s) < 2 ^ (n + 1) := by
      rw [Nat.pow_succ]
      split <;> omega
    rw [List.zipIdx_cons, List.foldl_cons, testBit_foldl_places p l (n + 1) _ i hlt, hb]
    rcases Nat.lt_trichotomy i n with h | rfl | h
    · rw [if_pos h, if_pos (by omega), if_pos h]
    · simp
    · have hi : i - n = (i - (n + 1)) + 1 := by omega
      rw [if_neg (by omega), if_neg (by omega), hi]
      rfl

/-- Bit `i` of a predicate token is bit `i` of the number it was made from. -/
theorem predBit_predTok (m : Nat) (tag : BitVec 8) (gen : BitVec 2) (pw : Nat) {i : Nat} (hi : i < 64) :
    predBit (predTok m tag gen pw) i = m.testBit i := by
  have hw : (predTok m tag gen pw).word 1 = m % 2 ^ 64 := by
    unfold Flit.word predTok
    rw [lane_flitData (by decide), lane, Nat.shiftRight_eq_div_pow, Nat.mul_one, Nat.mul_div_cancel _ (Nat.two_pow_pos 64), Nat.mod_mod]
  have hn : (predTok m tag gen pw).nw ≠ 0 := show (1 : BitVec 5) ≠ 0 by decide
  unfold predBit
  rw [if_neg hn, hw, Nat.testBit_mod_two_pow]
  simp [hi]

/-! ### CMP (R63). -/

section
variable {w : DWord} {a b : Flit} {pred : Option Flit}

/-- The comparison of one lane, none where an enabled lane reads poison. -/
def cmpLane (w : DWord) (a b : Flit) (pred : Option Flit) (i : Nat) : Option Bool :=
  if enabled pred i then
    match vLane a (vSfmt w) i, vLane b (vSfmt w) i with
    | some x, some y => some (cmpHolds (vSub w) (fCompare x y))
    | _, _ => none
  else some false

/-- CMP's result from the comparisons of its lanes. -/
def cmpRes (w : DWord) (gen : BitVec 2) (sp : Spn) (ls : List (Option Bool)) : URes :=
  let bad := ls.any (fun l => l.isNone)
  { sp := sp
    outs := [(vOport w, 4, predTok (if bad then 0 else ls.zipIdx.foldl (fun s l => if l.1 = some true then s + 2 ^ l.2 else s) 0)
      (tagOf sp (vOtag w)) gen (if bad then 2 else 0))]
    flags := if bad then FPOISON else 0, npoi := if bad then 1 else 0 }

/-- CMP of lanes without poison gives a predicate token without poison. -/
theorem fireCmp_eq {gen : BitVec 2} {sp : Spn} (h : ∀ i, i < 64 → cmpLane w a b pred i ≠ none) :
    fireCmp w a b pred gen sp = { sp := sp, outs := [(vOport w, 4, predTok
      (((List.range 64).map (cmpLane w a b pred)).zipIdx.foldl (fun s l => if l.1 = some true then s + 2 ^ l.2 else s) 0)
      (tagOf sp (vOtag w)) gen 0)] } := by
  have hb : ((List.range 64).map (cmpLane w a b pred)).any (fun l => l.isNone) = false := by
    simpa using h
  have h : fireCmp w a b pred gen sp = cmpRes w gen sp ((List.range 64).map (cmpLane w a b pred)) := rfl
  rw [h, cmpRes, hb]
  rfl

/-- Where no enabled lane reads poison, each lane has a comparison. -/
theorem cmpLane_eq_some {i : Nat} (h : enabled pred i = true → vLane a (vSfmt w) i ≠ none ∧ vLane b (vSfmt w) i ≠ none) :
    cmpLane w a b pred i = some (match enabled pred i, vLane a (vSfmt w) i, vLane b (vSfmt w) i with
      | true, some x, some y => cmpHolds (vSub w) (fCompare x y)
      | _, _, _ => false) := by
  unfold cmpLane
  cases he : enabled pred i
  · rfl
  · obtain ⟨ha, hb⟩ := h he
    obtain ⟨x, hx⟩ := Option.ne_none_iff_exists'.mp ha
    obtain ⟨y, hy⟩ := Option.ne_none_iff_exists'.mp hb
    rw [hx, hy]
    rfl

end

theorem cmp_completes : Completes .cmp .vec 7
    (fun s ps u w => ∀ i, i < 64 → enabled (s.slotPred ps u w) i = true →
      vLane (s.slotTok ps u w 0) (vSfmt w) i ≠ none ∧ vLane (s.slotTok ps u w 1) (vSfmt w) i ≠ none)
    (fun s ps u w t => ∃ f, Gives t ps u (s.taken ps u w) [(vOport w, 4, f)] ∧ f.tag = tagOf (s.spn ps) (vOtag w) ∧ f.ctl = true ∧
      f.pword = 0 ∧ f.nw = 1 ∧ ∀ i, i < 64 → predBit f i =
        (match enabled (s.slotPred ps u w) i, vLane (s.slotTok ps u w 0) (vSfmt w) i, vLane (s.slotTok ps u w 1) (vSfmt w) i with
         | true, some x, some y => cmpHolds (vSub w) (fCompare x y)
         | _, _, _ => false)) := by
  refine Completes.of_quiet (by decide) (by decide) (by decide) (fun _ _ _ _ => rfl) fun s ps u w hk hop _ hH => ?_
  have hlane := fun i hi => cmpLane_eq_some (hH i hi)
  have hres := (show s.slotRes ps u w = some _ by simp only [State.slotRes, fireRes, hk, hop]; rfl).trans
    (congrArg some (fireCmp_eq fun i hi => by rw [hlane i hi]; exact Option.some_ne_none _))
  refine ⟨_, hres, {}, fun t ht => ⟨_, ht.gives rfl, rfl, rfl, rfl, rfl, fun i hi => ?_⟩⟩
  rw [predBit_predTok _ _ _ _ hi, testBit_foldl_places (· = some true) _ _ _ _ (by decide), if_neg (Nat.not_lt_zero i), List.getElem?_map, Nat.sub_zero,
    List.getElem?_range hi, Option.map_some, hlane i hi]
  simp

/-! ### CVT, RED and MOV (R60, R65, R588). -/

theorem cvt_completes : Completes .cvt .vec 8 (fun _ _ _ w => isMX (vDfmt w) = false)
    (fun s ps u w t => VecGives s ps u w t 4 (cvtLane (s.uctx ps).sat w (s.slotTok ps u w 0))) := by
  refine Completes.of_quiet (by decide) (by decide) (by decide) (fun _ _ _ _ => rfl) fun s ps u w hk hop ho hH => ?_
  have hres : s.slotRes ps u w = some (fireCvt (s.uctx ps) w (s.slotTok ps u w 0) (s.slotPred ps u w) (s.gen ps) (s.taken ps u w)) := by
    simp only [State.slotRes, fireRes, hk, hop]
  rw [fireCvt, if_neg (by simp [hH])] at hres
  exact ⟨_, hres, {}, fun t ht => ht.vecGives (laneW_of_slotOk hk ho hop (by decide) (by decide))⟩

theorem red_completes : Completes .red .vec 9 (fun _ _ _ _ => True)
    (fun s ps u w t => VecGives s ps u w t 4 (fun i => if i < 32 then redLane w (s.slotTok ps u w 0) i else {})) := by
  refine Completes.of_quiet (by decide) (by decide) (by decide) (fun _ _ _ _ => rfl) fun s ps u w hk hop ho _ => ?_
  have hres : s.slotRes ps u w = some (fireRed w (s.slotTok ps u w 0) (s.slotPred ps u w) (s.gen ps) (s.taken ps u w)) := by
    simp only [State.slotRes, fireRes, hk, hop]
  have hlane (i : Nat) : (if i < 32 ∧ enabled (s.slotPred ps u w) i = true then redLane w (s.slotTok ps u w 0) i else {}) =
      if enabled (s.slotPred ps u w) i then (if i < 32 then redLane w (s.slotTok ps u w 0) i else {}) else {} := by
    by_cases hi : i < 32 <;> simp [hi]
  rw [fireRed, funext hlane] at hres
  exact ⟨_, hres, {}, fun t ht => ht.vecGives (laneW_of_slotOk hk ho hop (by decide) (by decide))⟩

theorem mov_completes : Completes .mov .vec 11 (fun _ _ _ w => vPred w = false)
    (fun s ps u w t => Gives t ps u (s.taken ps u w)
      [(vOport w, 4, { s.slotTok ps u w 0 with tag := tagOf (s.spn ps) (vOtag w), gen := s.gen ps })]) := by
  refine Completes.of_quiet (by decide) (by decide) (by decide) (fun _ _ _ _ => rfl) fun s ps u w hk hop _ hH => ?_
  have hres : s.slotRes ps u w = some (fireMov w (s.slotTok ps u w 0) none (s.gen ps) (s.taken ps u w)) := by
    simp only [State.slotRes, fireRes, hk, hop, slotPred_none hk hop (by decide) hH]
  exact ⟨_, hres, {}, fun t ht => ht.gives rfl⟩

/-! ### RNG (R357, R358). -/

/-- The four lanes that request word `j` of a token gives, and whether the request names the reserved stream (R359). -/
def rngLanes (c : UCtx) (w : DWord) (f : Flit) (j : Nat) : List LaneRes × Nat :=
  if f.nw.toNat < j then (List.replicate 4 {}, 0)
  else if f.bad j then (List.replicate 4 { poison := true }, 0)
  else if f.word j / 2 ^ 48 = 0xFFFF then (List.replicate 4 { poison := true }, 1)
  else ((rngWords c.seed c.step (f.word j)).map (fun x =>
    { code := if vDfmt w = 0 then (encodeFin fFP32 false false ⟨((x / 256 : Nat) : Int), -24⟩).1 else x }), 0)

theorem rngLanes_length (c : UCtx) (w : DWord) (f : Flit) (j : Nat) : (rngLanes c w f j).1.length = 4 := by
  unfold rngLanes
  split
  · rfl
  · split
    · rfl
    · split <;> rfl

/-- Entry `4j + k` of blocks of four laid end to end is entry `k` of block `j`. -/
theorem getElem?_flatMap_four {α β : Type} {f : α → List β} (hf : ∀ x, (f x).length = 4) {k : Nat} (hk : k < 4) :
    ∀ (l : List α) (j : Nat), (l.flatMap f)[4 * j + k]? = (l[j]?).bind (fun x => (f x)[k]?)
  | [], _ => rfl
  | x :: l, 0 => by
    rw [List.flatMap_cons, List.getElem?_append_left (by rw [hf]; omega), Nat.mul_zero, Nat.zero_add]
    rfl
  | x :: l, j + 1 => by
    have hj : 4 * (j + 1) + k - 4 = 4 * j + k := by omega
    rw [List.flatMap_cons, List.getElem?_append_right (by rw [hf]; omega), hf, hj, getElem?_flatMap_four hf hk l j]
    rfl

/-- RNG without a predicate gives the lanes of its sixteen requests in order. -/
theorem fireRng_eq (c : UCtx) (w : DWord) (f : Flit) (gen : BitVec 2) (sp : Spn) :
    fireRng c w f none gen sp = { vResult w gen 4 (vDfmt w) (((List.range 16).map (rngLanes c w f)).flatMap (·.1)) sp with
      rsv := (((List.range 16).map (rngLanes c w f)).map (·.2)).foldl (· + ·) 0 } := by
  have h : fireRng c w f none gen sp = { vResult w gen 4 (vDfmt w)
      ((((List.range 16).map (rngLanes c w f)).flatMap (·.1)).zipIdx.map (fun l => if enabled none l.2 then l.1 else {})) sp with
      rsv := (((List.range 16).map (rngLanes c w f)).map (·.2)).foldl (· + ·) 0 } := rfl
  rw [h, show (fun l : LaneRes × Nat => if enabled none l.2 then l.1 else {}) = Prod.fst from rfl, List.zipIdx_map_fst]

/-- No request of the reserved stream, none counted. -/
theorem rngLanes_rsv {c : UCtx} {w : DWord} {f : Flit} (h : ∀ j, j < 16 → f.bad j = false ∧ f.word j / 2 ^ 48 ≠ 0xFFFF) :
    (((List.range 16).map (rngLanes c w f)).map (·.2)).foldl (· + ·) 0 = 0 := by
  have hz : ((List.range 16).map (rngLanes c w f)).map (·.2) = List.replicate 16 0 := by
    refine List.eq_replicate_iff.mpr ⟨by simp, fun n hn => ?_⟩
    simp only [List.map_map, List.mem_map, List.mem_range, Function.comp_apply] at hn
    obtain ⟨j, hj, rfl⟩ := hn
    obtain ⟨hb, hr⟩ := h j hj
    unfold rngLanes
    by_cases hn : f.nw.toNat < j
    · rw [if_pos hn]
    · rw [if_neg hn, if_neg (by simp [hb]), if_neg hr]
  rw [hz]
  rfl

theorem rng_completes : Completes .rng .vec 12
    (fun s ps u w => vPred w = false ∧ ∀ j, j < 16 → (s.slotTok ps u w 0).bad j = false ∧ (s.slotTok ps u w 0).word j / 2 ^ 48 ≠ 0xFFFF)
    (fun s ps u w t => ∃ f, Gives t ps u (s.taken ps u w) [(vOport w, 4, f)] ∧ f.tag = tagOf (s.spn ps) (vOtag w) ∧
      ∀ j k, j < 16 → k < 4 → j ≤ (s.slotTok ps u w 0).nw.toNat → vDfmt w = 11 →
        lane 32 f.data.toNat (4 * j + k) =
          ((rngWords (s.uctx ps).seed (s.uctx ps).step ((s.slotTok ps u w 0).word j))[k]?).getD 0 % 2 ^ 32) := by
  refine Completes.of_quiet (by decide) (by decide) (by decide) (fun _ _ _ _ => rfl) fun s ps u w hk hop _ ⟨hp, hH⟩ => ?_
  have hres : s.slotRes ps u w = some (fireRng (s.uctx ps) w (s.slotTok ps u w 0) none (s.gen ps) (s.taken ps u w)) := by
    simp only [State.slotRes, fireRes, hk, hop, slotPred_none hk hop (by decide) hp]
  rw [fireRng_eq, rngLanes_rsv hH] at hres
  refine ⟨_, hres, {}, fun t ht => ⟨_, ht.gives rfl, rfl, fun j kk hj hkk hn hd => ?_⟩⟩
  obtain ⟨hb, hr⟩ := hH j hj
  have hl : rngLanes (s.uctx ps) w (s.slotTok ps u w 0) j =
      ((rngWords (s.uctx ps).seed (s.uctx ps).step ((s.slotTok ps u w 0).word j)).map (fun x => { code := x }), 0) := by
    unfold rngLanes
    rw [if_neg (Nat.not_lt.mpr hn), if_neg (by simp [hb]), if_neg hr, hd]
    rfl
  have hw : laneW (vDfmt w) = 32 := by rw [hd]; rfl
  have hg : (((List.range 16).map (rngLanes (s.uctx ps) w (s.slotTok ps u w 0))).flatMap (·.1))[4 * j + kk]? =
      ((rngWords (s.uctx ps).seed (s.uctx ps).step ((s.slotTok ps u w 0).word j))[kk]?).map (fun x => { code := x }) := by
    rw [List.flatMap_map, getElem?_flatMap_four (rngLanes_length _ _ _) hkk, List.getElem?_range hj, Option.bind_some, hl, List.getElem?_map]
  rw [mkFlit, lane_flitData (by omega), packRes, hw, lane_packLanes, List.getElem?_map, hg, Option.map_map]
  cases (rngWords (s.uctx ps).seed (s.uctx ps).step ((s.slotTok ps u w 0).word j))[kk]? <;> rfl

/-- Settles O11: each operation from its result, lane by lane. -/
theorem vectorOthersComplete : Obligations.VectorOthersComplete :=
  ⟨cmp_completes, cvt_completes, red_completes, mov_completes, rng_completes⟩

end Sys2Proof.Machine
end

section
/-! SUPPORT. The six special functions (R66, R73, R142). -/

namespace Sys2Proof.Machine

/-- The sixteen lanes of a special function. -/
def SfuGives (fn : SfuFn) (lat : Nat) (s : State) (ps u : Nat) (w : DWord) (t : State) : Prop :=
  ∃ f, Gives t ps u (s.taken ps u w) [(0, lat, f)] ∧ f.tag = tagOf (s.spn ps) (slot w 42 34) ∧ f.gen = s.gen ps ∧
    ∀ i, i < 16 → laneIs f (laneW (slot w 55 52)) i
      (if (s.slotTok ps u w 0).bad (i * laneW (slot w 59 56) / 64) then { poison := true }
       else sfuLane fn (slot w 59 56) (slot w 55 52) (lane (laneW (slot w 59 56)) (s.slotTok ps u w 0).data.toNat i))

/-- The destination of a special-function slot word is FP32 or BF16 (R142). -/
theorem sfu_laneW {u : Nat} {w : DWord} (hk : unitKind u = some .sfu) (ho : slotOk u w = true) : laneW (slot w 55 52) * 16 ≤ 2048 := by
  have hd : slot w 55 52 ≠ 10 := by
    intro hd
    simp [slotOk, hk, sfuOk, hd] at ho
  have := laneW_le hd
  omega

theorem sfu_completes {mk : Fin 18 → Fin 55 → DWord → Instr} {op : Nat} {fn : SfuFn} {lat : Nat} (hf : sfuFn op = some fn) (hl : sfuLatency fn = lat)
    (hx : ∀ (s : State) (ps : Fin 18) (u : Fin 55) (w : DWord), exec (mk ps u w) s = s.fireRow (slotIs .sfu op u w) ps u w []) :
    Completes mk .sfu op (fun _ _ _ _ => True) (SfuGives fn lat) := by
  subst hl
  refine Completes.of_quiet (by decide) (by decide) (by decide) hx fun s ps u w hk hop ho _ => ?_
  have hres : s.slotRes ps u w = some (fireSfu fn w (s.slotTok ps u w 0) (s.gen ps) (s.taken ps u w)) := by
    simp only [State.slotRes, fireRes, hk, hop, hf, Option.map_some]
  exact ⟨_, hres, {}, fun t ht => ⟨_, ht.gives rfl, rfl, rfl, fun i hi => laneIs_packRes (sfu_laneW hk ho) hi
    (fun i => if (s.slotTok ps u w 0).bad (i * laneW (slot w 59 56) / 64) then { poison := true }
      else sfuLane fn (slot w 59 56) (slot w 55 52) (lane (laneW (slot w 59 56)) (s.slotTok ps u w 0).data.toNat i)) ..⟩⟩

/-- Settles O13: one statement for every function, with its latency. -/
theorem specialFunctionsComplete : Obligations.SpecialFunctionsComplete :=
  ⟨sfu_completes rfl rfl fun _ _ _ _ => rfl, sfu_completes rfl rfl fun _ _ _ _ => rfl, sfu_completes rfl rfl fun _ _ _ _ => rfl,
    sfu_completes rfl rfl fun _ _ _ _ => rfl, sfu_completes rfl rfl fun _ _ _ _ => rfl, sfu_completes rfl rfl fun _ _ _ _ => rfl⟩

end Sys2Proof.Machine
end

section
/-! SUPPORT. The matrix tile operations (R50, R55, R57, R161, R591). -/

namespace Sys2Proof.Machine

/-! ### MAC and LOADW (R48, R50, R161, R165). -/

section
variable {c : UCtx} {u : Nat} {w : DWord} {f : Flit} {sp : Spn}

/-- MAC by a stationary operand of its family and mode, no limit met, gives each accumulator of the group its sum. -/
theorem fireMac_eq {bf : Nat} (hb : (tget {} sp.tiles u).fmt = some bf) (hf : family bf = family (tileFmt w))
    (hs : (tget {} sp.tiles u).spm = tileSpm w) (h4 : ¬ (tileFmt w = 8 ∧ bf = 8))
    (hl : (macGroup sp.acc u (tget {} sp.tiles u) f (tileFmt w) (tileSpm w) (tileH w) (tileAgrp w)).2.1 = false) :
    let m := macGroup sp.acc u (tget {} sp.tiles u) f (tileFmt w) (tileSpm w) (tileH w) (tileAgrp w)
    fireMac c u w f sp = { sp := { sp with acc := m.1 }, upd := some 6, flags := if m.2.2 then ACC_OVF else 0 } := by
  unfold fireMac
  dsimp only
  rw [hb]
  dsimp only
  rw [if_neg (not_not.mpr hf), if_neg (not_not.mpr hs)]
  simp only [h4, if_false, hl, Bool.or_self, Bool.or_false, Bool.false_eq_true]

/-- LOADW of a dense operand stores one row, in a tile that is emptied where its format or mode changes. -/
theorem fireLoadw_eq (hs : tileSpm w = 0) :
    let old := tget {} sp.tiles u
    let rows := if old.fmt = some (tileFmt w) ∧ old.spm = 0 then old.rows else []
    fireLoadw c u w f sp = { sp := { sp with
      tiles := tset {} sp.tiles u { fmt := some (tileFmt w), spm := 0, rows := tset {} rows (tileRow w) ⟨f.data, f.pword, true⟩ } } } := by
  have hp : ∀ (t : Tile) r, badPairs t 0 r = 0 := fun t r => if_neg (by simp)
  unfold fireLoadw
  rw [hs]
  dsimp only
  rw [hp]
  by_cases h : (tget {} sp.tiles u).fmt = some (tileFmt w) ∧ (tget {} sp.tiles u).spm = 0
  · obtain ⟨hf, hm⟩ := h
    simp [hf, hm]
  · simp [h]

end

/-! ### READ (R57, R69). -/

/-- What a READ gives of accumulator `n` of its group. -/
def readLane (c : UCtx) (u : Nat) (w : DWord) (acc : List (Nat × Acc)) (n : Nat) : LaneRes :=
  let r := accRead (readFmt w) c.sat (tget {} acc (4096 * u + 128 * tileAgrp w + n))
  { code := r.1, flags := r.2.1, poison := r.2.2 }

section
variable {c : UCtx} {u : Nat} {w : DWord} {gen : BitVec 2} {sp : Spn}

/-- A READ to BF16 or an 8-bit format sends the whole group in one flit. -/
theorem fireRead_narrow (h : tileFmt w ≠ 0) :
    let ls := (List.range 128).map (readLane c u w sp.acc)
    let p := packRes (fmtBits (tileFmt w)) ls
    fireRead c u w gen sp = {
      sp := { sp with acc := readClears sp.acc (4096 * u + 128 * tileAgrp w) }
      outs := [(0, 10, mkFlit p.1 p.2.1 (tagOf sp (slot w 41 33)) gen 32)]
      flags := poisonFlag p.2.1 p.2.2
      npoi := poisonCount ls } := if_neg h

/-- A READ to FP32 sends the group in two flits of 64 lanes. -/
theorem fireRead_fp32 (h : tileFmt w = 0) :
    let p := packRes 32 ((List.range 64).map (readLane c u w sp.acc))
    let q := packRes 32 ((List.range 64).map (fun n => readLane c u w sp.acc (64 + n)))
    fireRead c u w gen sp = {
      sp := { sp with acc := readClears sp.acc (4096 * u + 128 * tileAgrp w) }
      outs := [(0, 10, mkFlit p.1 p.2.1 (tagOf sp (slot w 41 33)) gen 32), (0, 11, mkFlit q.1 q.2.1 (tagOf sp (slot w 41 33) + 1) gen 32)]
      flags := poisonFlag p.2.1 p.2.2 ||| poisonFlag q.2.1 q.2.2
      npoi := poisonCount ((List.range 128).map (readLane c u w sp.acc)) } := if_pos h

/-- A READ slot word names FP32, BF16 or an 8-bit format (R139). -/
theorem read_fmt_le (hk : unitKind u = some .tile) (hop : slotOp u w = 4) (ho : slotOk u w = true) : tileFmt w ≤ 3 := by
  have hop : slot w 63 60 = 4 := by simpa [slotOp, hk] using hop
  simp [slotOk, hk, tileOk, hop] at ho
  omega

theorem fmtBits_narrow {f : Nat} (h : f ≠ 0) (h3 : f ≤ 3) : fmtBits f * 128 ≤ 2048 := by
  unfold fmtBits
  split <;> omega

end

/-! ### The operations. -/

theorem mac_completes : Completes .mac .tile 1
    (fun s ps u w => ∃ bf, (tget {} (s.spn ps).tiles u).fmt = some bf ∧ family bf = family (tileFmt w) ∧
      (tget {} (s.spn ps).tiles u).spm = tileSpm w ∧ ¬ (tileFmt w = 8 ∧ bf = 8) ∧
      (macGroup (s.spn ps).acc u (tget {} (s.spn ps).tiles u) (s.slotTok ps u w 0) (tileFmt w) (tileSpm w) (tileH w) (tileAgrp w)).2.1 = false)
    (fun s ps u w t => Updates t ps u { s.taken ps u w with
      acc := (macGroup (s.spn ps).acc u (tget {} (s.spn ps).tiles u) (s.slotTok ps u w 0) (tileFmt w) (tileSpm w) (tileH w) (tileAgrp w)).1 } 6) := by
  refine Completes.of_quiet (by decide) (by decide) (by decide) (fun _ _ _ _ => rfl) fun s ps u w hk hop _ hH => ?_
  obtain ⟨bf, hb, hf, hs, h4, hl⟩ := hH
  have hres : s.slotRes ps u w = some (fireMac (s.uctx ps) u w (s.slotTok ps u w 0) (s.taken ps u w)) := by
    simp only [State.slotRes, fireRes, hk, hop]
  exact ⟨_, hres.trans (congrArg some (fireMac_eq hb hf hs h4 hl)), {}, fun t ht => ht.updates rfl rfl⟩

theorem loadw_completes : Completes .loadw .tile 2 (fun _ _ _ w => tileSpm w = 0)
    (fun s ps u w t =>
      let old := tget {} (s.spn ps).tiles u
      let rows := if old.fmt = some (tileFmt w) ∧ old.spm = 0 then old.rows else []
      let f := s.slotTok ps u w 1
      Gives t ps u { s.taken ps u w with
        tiles := tset {} (s.spn ps).tiles u { fmt := some (tileFmt w), spm := 0, rows := tset {} rows (tileRow w) ⟨f.data, f.pword, true⟩ } } []) := by
  refine Completes.of_quiet (by decide) (by decide) (by decide) (fun _ _ _ _ => rfl) fun s ps u w hk hop _ hs => ?_
  have hres : s.slotRes ps u w = some (fireLoadw (s.uctx ps) u w (s.slotTok ps u w 1) (s.taken ps u w)) := by
    simp only [State.slotRes, fireRes, hk, hop]
  exact ⟨_, hres.trans (congrArg some (fireLoadw_eq hs)), {}, fun t ht => ht.gives rfl⟩

theorem clear_completes : Completes .clear .tile 3 (fun _ _ _ _ => True)
    (fun s ps u w t => Updates t ps u { s.taken ps u w with
      acc := (List.range 128).foldl (fun a n => tset {} a (4096 * u + 128 * tileAgrp w + n) (accClear (BitVec.ofNat 9 (slot w 31 23))))
        (s.spn ps).acc } 6) := by
  refine Completes.of_quiet (by decide) (by decide) (by decide) (fun _ _ _ _ => rfl) fun s ps u w hk hop _ _ => ?_
  have hres : s.slotRes ps u w = some (fireClear (s.uctx ps) u w (s.taken ps u w)) := by
    simp only [State.slotRes, fireRes, hk, hop]
  exact ⟨_, hres, {}, fun t ht => ht.updates rfl rfl⟩

theorem slotRes_read {s : State} {ps u : Nat} {w : DWord} (hk : unitKind u = some .tile) (hop : slotOp u w = 4) :
    s.slotRes ps u w = some (fireRead (s.uctx ps) u w (s.gen ps) (s.taken ps u w)) := by
  simp only [State.slotRes, fireRes, hk, hop]

theorem read_narrow_completes : Completes .read .tile 4 (fun _ _ _ w => tileFmt w ≠ 0)
    (fun s ps u w t => ∃ f, Gives t ps u { s.taken ps u w with acc := readClears (s.spn ps).acc (4096 * u + 128 * tileAgrp w) } [(0, 10, f)] ∧
      f.tag = tagOf (s.spn ps) (slot w 41 33) ∧ f.gen = s.gen ps ∧
      ∀ n, n < 128 → lane (fmtBits (tileFmt w)) f.data.toNat n =
        (let r := accRead (readFmt w) (s.uctx ps).sat (tget {} (s.spn ps).acc (4096 * u + 128 * tileAgrp w + n))
         if r.2.2 then 0 else r.1 % 2 ^ fmtBits (tileFmt w))) := by
  refine Completes.of_quiet (by decide) (by decide) (by decide) (fun _ _ _ _ => rfl) fun s ps u w hk hop ho hf => ?_
  have hw := fmtBits_narrow hf (read_fmt_le hk hop ho)
  exact ⟨_, (slotRes_read hk hop).trans (congrArg some (fireRead_narrow hf)), {}, fun t ht => ⟨_, ht.gives rfl, rfl, rfl,
    fun n hn => laneIs_packRes hw hn (readLane (s.uctx ps) u w (s.spn ps).acc) ..⟩⟩

theorem read_fp32_completes : Completes .read .tile 4 (fun _ _ _ w => tileFmt w = 0)
    (fun s ps u w t => ∃ f g, Gives t ps u { s.taken ps u w with acc := readClears (s.spn ps).acc (4096 * u + 128 * tileAgrp w) }
        [(0, 10, f), (0, 11, g)] ∧
      f.tag = tagOf (s.spn ps) (slot w 41 33) ∧ g.tag = tagOf (s.spn ps) (slot w 41 33) + 1 ∧
      ∀ n, n < 64 →
        lane 32 f.data.toNat n = (let r := accRead fFP32 (s.uctx ps).sat (tget {} (s.spn ps).acc (4096 * u + 128 * tileAgrp w + n))
          if r.2.2 then 0 else r.1 % 2 ^ 32) ∧
        lane 32 g.data.toNat n = (let r := accRead fFP32 (s.uctx ps).sat (tget {} (s.spn ps).acc (4096 * u + 128 * tileAgrp w + (64 + n)))
          if r.2.2 then 0 else r.1 % 2 ^ 32)) := by
  refine Completes.of_quiet (by decide) (by decide) (by decide) (fun _ _ _ _ => rfl) fun s ps u w hk hop _ hf => ?_
  have hd : readFmt w = fFP32 := by simp [readFmt, hf]
  refine ⟨_, (slotRes_read hk hop).trans (congrArg some (fireRead_fp32 hf)), {}, fun t ht => ⟨_, _, ht.gives rfl, rfl, rfl, fun n hn => ?_⟩⟩
  rw [← hd]
  exact ⟨laneIs_packRes (by decide) hn (readLane (s.uctx ps) u w (s.spn ps).acc) ..,
    laneIs_packRes (by decide) hn (fun n => readLane (s.uctx ps) u w (s.spn ps).acc (64 + n)) ..⟩

theorem spill_completes : Completes .spill .tile 5 (fun _ _ _ _ => True)
    (fun s ps u w t => Gives t ps u (s.taken ps u w)
      [(0, 10, mkFlit (accRecord (tget {} (s.spn ps).acc (tileAccKey u w))) 0 (tagOf (s.spn ps) (slot w 41 33)) (s.gen ps) 3)]) := by
  refine Completes.of_quiet (by decide) (by decide) (by decide) (fun _ _ _ _ => rfl) fun s ps u w hk hop _ _ => ?_
  have hres : s.slotRes ps u w = some (fireSpill (s.uctx ps) u w (s.gen ps) (s.taken ps u w)) := by
    simp only [State.slotRes, fireRes, hk, hop]
  exact ⟨_, hres, {}, fun t ht => ht.gives rfl⟩

/-- LOAD and MERGE put back the accumulator that their record gives. -/
theorem accOp_completes {mk : Fin 18 → Fin 55 → DWord → Instr} {op : Nat} (f : Acc → Nat → Bool → AccOp)
    (hx : ∀ (s : State) (ps : Fin 18) (u : Fin 55) (w : DWord), exec (mk ps u w) s = s.fireRow (slotIs .tile op u w) ps u w [])
    (hr : ∀ (s : State) (ps u : Nat) (w : DWord), unitKind u = some .tile → slotOp u w = op → s.slotRes ps u w = some (putAcc u w (s.taken ps u w)
      (f (tget {} (s.spn ps).acc (tileAccKey u w)) (flitRecord (s.slotTok ps u w 2)).1 (flitRecord (s.slotTok ps u w 2)).2))) (a : Acc) :
    Completes mk .tile op
      (fun s ps u w => f (tget {} (s.spn ps).acc (tileAccKey u w)) (flitRecord (s.slotTok ps u w 2)).1 (flitRecord (s.slotTok ps u w 2)).2 = .ok a)
      (fun s ps u w t => Updates t ps u { s.taken ps u w with acc := tset {} (s.spn ps).acc (tileAccKey u w) a } 6) := by
  refine Completes.of_quiet (by decide) (by decide) (by decide) hx fun s ps u w hk hop _ ha => ?_
  have hres := hr s ps u w hk hop
  rw [ha] at hres
  exact ⟨_, hres, {}, fun t ht => ht.updates rfl rfl⟩

/-- Settles O9: each operation of a tile from its result. -/
theorem tileOperationsComplete : Obligations.TileOperationsComplete := by
  refine ⟨mac_completes, loadw_completes, clear_completes, read_narrow_completes, read_fp32_completes, spill_completes,
    accOp_completes accLoad (fun _ _ _ _ => rfl) ?_, accOp_completes accMerge (fun _ _ _ _ => rfl) ?_⟩
  all_goals
    intro s ps u w hk hop
    simp only [State.slotRes, fireRes, hk, hop]
    rfl

end Sys2Proof.Machine
end

section
/-! SUPPORT. Clock, power and context commands (R534, R536), each from its meaning. -/

namespace Sys2Proof.Machine

section
variable {d : CmdDef} {s u x : State} {r : Req} {t : RepTo}

/-- A meaning that answers ACCEPTED and waits for nothing. -/
theorem Executes.deferred (h : Executes d s r t u) (ho : d.run u { req := r, rep := t, p := pkParams r.bytes } = outSt x stACCEPTED) :
    s.cuard d r = .next ((x.remember d r t []).answer t false stACCEPTED (pkLease r.bytes) []) :=
  h.conclude.trans (by rw [ho]; rfl)

/-- A meaning that holds its one reply back. -/
theorem Executes.held (h : Executes d s r t u) {w : WaitFor} (ho : d.run u { req := r, rep := t, p := pkParams r.bytes } = outHeld x w) :
    s.cuard d r = .next (x.heldFor d r t w) :=
  h.conclude.trans (by rw [ho]; rfl)

/-! ### Clock and power (R459, R461, R469, R471). -/

theorem clkPlanSet_completes (h : Executes defClkPlanSet s r t u) : let x := u.askPlan (rdLE (pkParams r.bytes) 0 2)
    (u.tstrictRuns = true → exec (.clkPlanSet r) s = .next ((x.remember defClkPlanSet r t []).answer t false stACCEPTED (pkLease r.bytes) [])) ∧
    (u.tstrictRuns = false → x.clk.change = none → x.clk.reqs.length = 1 → x.effF = x.aMhz → exec (.clkPlanSet r) s =
      .next ((({ x with clk := { x.clk with reqs := [] } } : State).syncClk).accepted defClkPlanSet r t (toLE 2 x.aMhz))) ∧
    (u.tstrictRuns = false → (x.clk.change ≠ none ∨ x.clk.reqs.length ≠ 1 ∨ x.effF ≠ x.aMhz) → exec (.clkPlanSet r) s = .next (x.heldFor defClkPlanSet r t .freq)) := by
  refine ⟨fun ht => h.deferred (if_pos ht), fun ht hc hr he => h.ok ((if_neg (by simp [ht])).trans (if_pos ?_)),
    fun ht hx => h.held ((if_neg (by simp [ht])).trans (if_neg ?_))⟩
  · exact ⟨by rw [hc]; rfl, hr, he⟩
  · rintro ⟨hc, hr, he⟩
    rcases hx with hx | hx | hx
    · exact hx (Option.isNone_iff_eq_none.mp hc)
    · exact hx hr
    · exact hx he

/-- The cap asked for takes effect within the caps of the package and the module (R471). -/
theorem State.effCap_capped (i : u.Inv) {v : Nat} (hv : v < 2 ^ 16) : ((u.wf Reg.PWR_CAP 15 0 v).syncCap).effCap =
    min (min (u.rf Reg.PWR_CAP_SRC 31 16) (u.rf Reg.PWR_CAP_SRC 15 0)) v := by
  have i' : twf 0 (u.wf Reg.PWR_CAP 15 0 v).regs = true := ((State.wf_keep ..).inv i).regs
  have hsrc (hi lo : Nat) : (u.wf Reg.PWR_CAP 15 0 v).rf Reg.PWR_CAP_SRC hi lo = u.rf Reg.PWR_CAP_SRC hi lo := (u.wf_but _ _ _ _).rf (by decide) _ _
  have hcap : (u.wf Reg.PWR_CAP 15 0 v).rf Reg.PWR_CAP 15 0 = v := (State.rf_wf_self i.regs (by decide) (by decide)).trans (Nat.mod_eq_of_lt hv)
  unfold State.effCap State.syncCap
  rw [State.rf_wf_self i' (by decide) (by decide), hsrc, hsrc, hcap]
  exact Nat.mod_eq_of_lt ((Nat.min_le_right _ _).trans_lt hv)

theorem pwrCapSet_completes (h : Executes defPwrCapSet s r t u) : let x := (u.wf Reg.PWR_CAP 15 0 (rdLE (pkParams r.bytes) 0 2)).syncCap
    exec (.pwrCapSet r) s = .next (x.accepted defPwrCapSet r t (toLE 2 x.effCap)) ∧
    (u.Inv → x.effCap = min (min (u.rf Reg.PWR_CAP_SRC 31 16) (u.rf Reg.PWR_CAP_SRC 15 0)) (rdLE (pkParams r.bytes) 0 2)) :=
  ⟨h.ok rfl, fun i => State.effCap_capped i (rdLE_lt _ 0 2)⟩

theorem domainGate_completes (h : Executes defDomainGate s r t u) : let g := u.gateDomain (rdLE (pkParams r.bytes) 0 1) (rdLE (pkParams r.bytes) 1 1 == 0)
    (g.1 = true → exec (.domainGate r) s = .next (g.2.accepted defDomainGate r t [])) ∧
    (g.1 = false → exec (.domainGate r) s = .next (g.2.refusedWith r t stBAD_STATE)) :=
  ⟨fun hg => h.ok (if_pos hg), fun hg => h.refused (by decide) (if_neg (by simp [hg]))⟩

theorem clkpwrGet_completes (h : Executes defClkpwrGet s r t u) : exec (.clkpwrGet r) s = .next (u.accepted defClkpwrGet r t
    (u.viewWords [Reg.CLK_ST, Reg.CLK_PLAN, Reg.CLK_REDUCE, Reg.PWR_ST, Reg.PWR_CAP, Reg.PWR_IN, Reg.PWR_TJ, Reg.PWR_THROT])) := h.ok rfl

/-! ### Loads, unloads and switches (R149, R152, R154). -/

theorem ctxLoad_completes (h : Executes defCtxLoad s r t u) :
    (u.rbit Reg.CMD_STRAPS 14 = true → exec (.ctxLoad r) s = .next (u.refusedWith r t stBAD_STATE)) ∧
    (u.rbit Reg.CMD_STRAPS 14 = false → u.tstrictRuns = true → exec (.ctxLoad r) s = .next (u.refusedWith r t stBUSY)) ∧
    (u.rbit Reg.CMD_STRAPS 14 = false → u.tstrictRuns = false → exec (.ctxLoad r) s =
      .next (({ u with cq := { u.cq with loading := some (rdLE (pkParams r.bytes) 0 8) } } : State).goesOn defCtxLoad r t .load (some 1000000000))) :=
  ⟨fun hs => h.refused (by decide) (if_pos hs), fun hs ht => h.refused (by decide) ((if_neg (by simp [hs])).trans (if_pos ht)),
    fun hs ht => h.first ((if_neg (by simp [hs])).trans (if_neg (by simp [ht])))⟩

theorem ctxUnload_completes (h : Executes defCtxUnload s r t u) :
    (u.slotById (rdLE (pkParams r.bytes) 0 2) = none → exec (.ctxUnload r) s = .next (u.refusedWith r t stOUT_OF_RANGE)) ∧
    (∀ n j, u.slotById (rdLE (pkParams r.bytes) 0 2) = some (n, j) →
      (u.runCtx = j.ctx.toNat → exec (.ctxUnload r) s = .next (u.refusedWith r t stBAD_STATE)) ∧
      (u.runCtx ≠ j.ctx.toNat → u.reelUses j.ctx.toNat = true → exec (.ctxUnload r) s = .next (u.refusedWith r t stBUSY)) ∧
      (u.runCtx ≠ j.ctx.toNat → u.reelUses j.ctx.toNat = false → exec (.ctxUnload r) s = .next ((u.unload n j).accepted defCtxUnload r t []))) := by
  refine ⟨fun hj => h.refused (by decide) ?_, fun n j hj => ⟨fun hc => h.refused (by decide) ?_, fun hc hu => h.refused (by decide) ?_, fun hc hu => h.ok ?_⟩⟩
  all_goals
    unfold defCtxUnload
    dsimp only
    rw [hj]
  all_goals dsimp only
  · rw [if_pos hc]
  · rw [if_neg hc, if_pos hu]
  · rw [if_neg hc, if_neg (by simp [hu])]

/-- CTX_SWITCH where nothing stands against a switch: by the slot it goes to. -/
theorem defCtxSwitch_run {c : Call} (hb : (u.quarActive || u.tstrictRuns || u.switching) = false) : defCtxSwitch.run u c =
    match u.switchTo (rdLE c.p 0 1) with
    | none => outSt u stBAD_STATE
    | some n =>
      match u.slotOf n with
      | none => outSt u stBAD_STATE
      | some j =>
        if j.st = .restorePending ∧ u.reel.restore.isSome = true then outSt u stBUSY
        else if u.readyAt n then outHeld (u.beginSwitch .command (some n)) .giveWay
        else outSt u stBAD_STATE := if_neg (by simp [hb])

theorem ctxSwitch_completes (h : Executes defCtxSwitch s r t u) : let v := rdLE (pkParams r.bytes) 0 1
    ((u.quarActive || u.tstrictRuns || u.switching) = true → exec (.ctxSwitch r) s = .next (u.refusedWith r t stBUSY)) ∧
    ((u.quarActive || u.tstrictRuns || u.switching) = false →
      (u.switchTo v = none → exec (.ctxSwitch r) s = .next (u.refusedWith r t stBAD_STATE)) ∧
      (∀ n, u.switchTo v = some n → u.slotOf n = none → exec (.ctxSwitch r) s = .next (u.refusedWith r t stBAD_STATE)) ∧
      (∀ n j, u.switchTo v = some n → u.slotOf n = some j → j.st = .restorePending → u.reel.restore ≠ none → exec (.ctxSwitch r) s = .next (u.refusedWith r t stBUSY)) ∧
      (∀ n j, u.switchTo v = some n → u.slotOf n = some j → j.st ≠ .restorePending →
        (u.readyAt n = true → exec (.ctxSwitch r) s = .next ((u.beginSwitch .command (some n)).heldFor defCtxSwitch r t .giveWay)) ∧
        (u.readyAt n = false → exec (.ctxSwitch r) s = .next (u.refusedWith r t stBAD_STATE)))) := by
  refine ⟨fun hb => h.refused (by decide) (if_pos hb), fun hb => ?_⟩
  have hrun := defCtxSwitch_run (c := { req := r, rep := t, p := pkParams r.bytes }) hb
  refine ⟨fun hv => h.refused (by decide) (hrun.trans ?_), fun n hv hj => h.refused (by decide) (hrun.trans ?_),
    fun n j hv hj hp hr => h.refused (by decide) (hrun.trans ?_), fun n j hv hj hp =>
    ⟨fun hn => h.held (hrun.trans ?_), fun hn => h.refused (by decide) (hrun.trans ?_)⟩⟩
  all_goals
    dsimp only
    rw [hv]
  all_goals
    dsimp only
    rw [hj]
  all_goals dsimp only
  · rw [if_pos ⟨hp, Option.isSome_iff_ne_none.mpr hr⟩]
  · rw [if_neg fun hx => hp hx.1, if_pos hn]
  · rw [if_neg fun hx => hp hx.1, if_neg (by simp [hn])]

/-! ### Status, quantum, stripes and registers (R71, R157, R226). -/

theorem ctxStatus_completes (h : Executes defCtxStatus s r t u) :
    (u.slotById (rdLE (pkParams r.bytes) 0 2) = none → exec (.ctxStatus r) s = .next (u.refusedWith r t stOUT_OF_RANGE)) ∧
    (∀ n j, u.slotById (rdLE (pkParams r.bytes) 0 2) = some (n, j) →
      let f := if j.st = .ended ∨ j.st = .faulted then (j.flags, j.counts) else u.tally j
      exec (.ctxStatus r) s = .next ((if j.st = .ended then u.unload n j else u).accepted defCtxStatus r t (toLE 1 j.st.code ++ toLE 2 j.fault ++ toLE 4 f.1 ++
        toLE 8 j.step.toNat ++ (List.range 16).flatMap (fun l => match f.2[l]? with
          | some v => toLE 8 v.1 ++ toLE 8 v.2
          | none => toLE 16 0)))) := by
  refine ⟨fun hj => h.refused (by decide) ?_, fun n j hj => h.ok ?_⟩
  all_goals
    unfold defCtxStatus
    dsimp only
    rw [hj] <;> rfl

theorem quantumSet_completes (h : Executes defQuantumSet s r t u) :
    exec (.quantumSet r) s = .next ((u.wr Reg.SKN_QUANTUM (rdLE (pkParams r.bytes) 0 4)).accepted defQuantumSet r t []) := h.ok rfl

theorem stripeSet_completes (h : Executes defStripeSet s r t u) : let p := pkParams r.bytes
    (u.anyResident = true → exec (.stripeSet r) s = .next (u.refusedWith r t stBUSY)) ∧
    (u.anyResident = false → exec (.stripeSet r) s = .next (((List.range (rdLE p 2 1)).foldl (fun s i =>
      s.writeStripe (rdLE p 0 1) (rdLE p 1 1 + i) (rdLE p (3 + i) 1)) u).accepted defStripeSet r t [])) :=
  ⟨fun ha => h.refused (by decide) (if_pos ha), fun ha => h.ok (if_neg (by simp [ha]))⟩

theorem spnGet_completes (h : Executes defSpnGet s r t u) :
    let g := u.readRegs ((List.range 37).map (fun k => Reg.SPN_STATE (rdLE (pkParams r.bytes) 0 1) + 4 * k))
    exec (.spnGet r) s = .next (g.2.accepted defSpnGet r t g.1) := h.ok rfl

theorem chnGet_completes (h : Executes defChnGet s r t u) : let ps := rdLE (pkParams r.bytes) 0 1; let n := rdLE (pkParams r.bytes) 1 1
    let g := u.readRegs [Reg.CHN_OUT_ST ps n, Reg.CHN_SENT ps n, Reg.CHN_DROP ps n, Reg.CHN_OSTALL ps n, Reg.CHN_IN_ST ps n, Reg.CHN_RCVD ps n, Reg.CHN_DISC ps n,
      Reg.CHN_ISTALL ps n]
    exec (.chnGet r) s = .next (g.2.accepted defChnGet r t g.1) := h.ok rfl

end

/-- Settles O50: each command from its meaning, by the slot it finds and what runs. -/
theorem contextCommandsComplete : Obligations.ContextCommandsComplete :=
  ⟨fun _ _ _ _ => clkPlanSet_completes, fun _ _ _ _ => pwrCapSet_completes, fun _ _ _ _ => domainGate_completes, fun _ _ _ _ => clkpwrGet_completes,
    fun _ _ _ _ => ctxLoad_completes, fun _ _ _ _ => ctxUnload_completes, fun _ _ _ _ => ctxSwitch_completes, fun _ _ _ _ => ctxStatus_completes,
    fun _ _ _ _ => quantumSet_completes, fun _ _ _ _ => stripeSet_completes, fun _ _ _ _ => spnGet_completes, fun _ _ _ _ => chnGet_completes⟩

end Sys2Proof.Machine
end

section
/-! SUPPORT. The steering operations (R83, R85, R132, R143). -/

namespace Sys2Proof.Machine

/-- Settles O14: what each operation sends, under the tag `steerTag` chooses. -/
theorem steeringCompletes : Obligations.SteeringCompletes := by
  refine ⟨?switch, ?merge, ?gate, ?split, ?count⟩ <;>
    refine Completes.of_quiet (by decide) (by decide) (by decide) (fun _ _ _ _ => rfl) fun s ps u w hk hop _ hH => ?_
  case switch =>
    have hres : s.slotRes ps u w = some (fireSwitch w (s.slotTok ps u w 0) (s.slotTok ps u w 2) (s.gen ps) (s.taken ps u w)) := by
      simp only [State.slotRes, fireRes, hk, hop]
    exact ⟨_, hres, {}, fun t ht => ht.gives rfl⟩
  case merge =>
    have hres : s.slotRes ps u w =
        some (fireSteerMerge w (if predBit (s.slotTok ps u w 2) 0 then s.slotTok ps u w 0 else s.slotTok ps u w 1) (s.slotTok ps u w 2)
          (s.gen ps) (s.taken ps u w)) := by
      simp only [State.slotRes, fireRes, hk, hop]
    exact ⟨_, hres, {}, fun t ht => ht.gives rfl⟩
  case gate =>
    have hres : s.slotRes ps u w = some (fireGate w (s.slotTok ps u w 0) (s.slotTok ps u w 2) (s.gen ps) (s.taken ps u w)) := by
      simp only [State.slotRes, fireRes, hk, hop]
    unfold fireGate at hres
    split at hres
    case isTrue hany => exact ⟨_, hres, {}, fun t ht => by rw [if_pos hany]; exact ht.gives rfl⟩
    case isFalse hany => exact ⟨_, hres, {}, fun t ht => by rw [if_neg hany]; exact ht.gives rfl⟩
  case split =>
    have hres : s.slotRes ps u w = some (fireSplit w (s.slotTok ps u w 2) (s.gen ps) (s.taken ps u w)) := by
      simp only [State.slotRes, fireRes, hk, hop]
    exact ⟨_, hres, {}, fun t ht => ht.gives rfl⟩
  case count =>
    obtain ⟨hroom, hnew⟩ := hH
    have hres : s.slotRes ps u w = some (fireCount u w (s.slotTok ps u w 2) (s.gen ps) (s.taken ps u w)) := by
      simp only [State.slotRes, fireRes, hk, hop]
    have hfree : ¬ (16 ≤ (s.taken ps u w).trips.length ∨
        (s.taken ps u w).trips.any (fun t => t.steer == u && t.tag == (s.slotTok ps u w 2).tag) = true) := by
      rintro (h | h)
      · exact Nat.not_le.mpr hroom h
      · exact Bool.false_ne_true (hnew.symm.trans h)
    rw [fireCount, if_neg hfree] at hres
    exact ⟨_, hres, {}, fun t ht => ht.gives rfl⟩

end Sys2Proof.Machine
end

section
/-! SUPPORT. TOPK and the job slots of the dispatch unit (R179 to R184). -/

namespace Sys2Proof.Machine

/-! ### TOPK (R180 to R183). -/

/-- At most `k` experts are chosen (R180). -/
theorem topkSel_length (l : List Nat) : ∀ (k : Nat) (taken : List Nat), (topkSel l k taken).length ≤ k
  | 0, _ => Nat.le_refl 0
  | k + 1, taken => by
    unfold topkSel
    dsimp only
    split
    · exact Nat.zero_le _
    · exact Nat.succ_le_succ (topkSel_length l k _)

/-- A parameter set chooses at most 8 experts (R176). -/
theorem dspSet_k_le (p : Nat) : (dspSet p).k ≤ 8 := bitsOf_lt p 43 41

/-- A data flit made of 64-bit words: word `j` is entry `j` of the list. -/
theorem word_mkFlit_packLanes {l : List Nat} {j : Nat} (hj : j < 32) (pw : Nat) (tag : BitVec 8) (gen : BitVec 2) (n : Nat) :
    (mkFlit (packLanes 64 l) pw tag gen n).word j = (l[j]?).getD 0 % 2 ^ 64 := by
  rw [Flit.word, mkFlit, lane_flitData (by omega), lane_packLanes]

/-- The entries of a token's record (R182). -/
def recordEntries (ws sel ranks : List Nat) (valid : Bool) : List Nat :=
  (List.range sel.length).map (fun j => recordEntry ((ws[j]?).getD 0) ((sel[j]?).getD 0) ((ranks[j]?).getD 0) valid)

theorem recordEntries_getElem? {ws sel ranks : List Nat} {valid : Bool} {j e : Nat} (h : sel[j]? = some e) :
    (recordEntries ws sel ranks valid)[j]? = some (recordEntry ((ws[j]?).getD 0) e ((ranks[j]?).getD 0) valid) := by
  rw [recordEntries, List.getElem?_map, List.getElem?_range (List.getElem?_eq_some_iff.mp h).1, Option.map_some, h]
  rfl

/-- The exclusion bit of the token a TOPK fire belongs to: of the predicate at its first fire, kept after that (R180). -/
def topkExcl (pred : Option Flit) (d : Dsp) : Bool :=
  match pred with
  | some p => !predBit p 0
  | none => if d.scores = [] then false else d.excl

/-- The scores of a token with those of one more flit. -/
def topkScores (f : Flit) (d : Dsp) : List Nat := d.scores ++ (List.range 64).map (lane 32 f.data.toNat)

/-- No poison was kept, and no score that this fire adds for an expert of the set carries poison. -/
def TopkClean (f : Flit) (e : Nat) (d : Dsp) : Prop :=
  d.spoison = false ∧ ∀ i, i < 64 → 64 * (d.scores.length / 64) + i < e → f.bad (i / 2) = false

theorem TopkClean.bad {f : Flit} {e : Nat} {d : Dsp} (h : TopkClean f e d) :
    (d.spoison || ((List.range 64).filter (fun i => 64 * (d.scores.length / 64) + i < e)).any (fun i => f.bad (i / 2))) = false := by
  obtain ⟨hk, hl⟩ := h
  rw [hk, Bool.false_or, List.any_eq_false]
  intro i hi
  obtain ⟨hr, he⟩ := List.mem_filter.mp hi
  rw [hl i (List.mem_range.mp hr) (of_decide_eq_true he)]
  decide

section
variable {c : UCtx} {w : DWord} {f : Flit} {pred : Option Flit} {gen : BitVec 2} {sp : Spn}

/-- A TOPK fire that is not its token's last keeps the scores (R180). -/
theorem fireTopk_more (hc : TopkClean f (dspSet (psetOf sp 34 (seqPset w))).e sp.dsp)
    (hn : sp.dsp.scores.length / 64 + 1 < topkFires (dspSet (psetOf sp 34 (seqPset w))).e) :
    fireTopk c w f pred gen sp =
      { sp := { sp with dsp := { sp.dsp with scores := topkScores f sp.dsp, spoison := false, excl := topkExcl pred sp.dsp } } } := by
  unfold fireTopk
  dsimp only
  rw [hc.bad, if_pos hn]
  rfl

/-- The last TOPK fire of a token without poison and with no tally at its limit sends the token's record (R179 to R183). -/
theorem fireTopk_last {ranks : List Nat} {tally : List (Nat × BitVec 16)}
    (hc : TopkClean f (dspSet (psetOf sp 34 (seqPset w))).e sp.dsp)
    (hn : topkFires (dspSet (psetOf sp 34 (seqPset w))).e ≤ sp.dsp.scores.length / 64 + 1) :
    let set := dspSet (psetOf sp 34 (seqPset w))
    let sc := (topkScores f sp.dsp).take set.e
    let sel := topkSel sc set.k []
    let ws := topkWeights set.norm (sel.map (fun e => (sc[e]?).getD 0))
    let excl := topkExcl pred sp.dsp
    (if excl then (sp.dsp.tally, sel.map (fun _ => 0), none) else raiseTallies sp.dsp.tally 0 sel) = (tally, ranks, none) →
    fireTopk c w f pred gen sp =
      { sp := { sp with dsp := { sp.dsp with scores := [], spoison := false, excl := false, p := sp.dsp.p + 1, tally := tally } }
        outs := [(seqOport w, (match set.norm with | 0 => 8 | 2 => 12 | _ => 60),
          mkFlit (packLanes 64 (tokenKey c.coord c.logical ((descOf sp (seqPset w)).posbase + sp.dsp.p) excl ::
            recordEntries ws.1 sel ranks (!excl))) 0 (seqOtag sp w) gen 9)]
        flags := ws.2 } := by
  intro set sc sel ws excl ht
  unfold fireTopk
  cases pred with
  | none =>
    dsimp only
    rw [hc.bad, if_neg (Nat.not_lt.mpr hn), if_neg Bool.false_ne_true]
    simp only [excl, sel, sc, set, topkExcl, topkScores] at ht
    rw [ht]
    rfl
  | some p =>
    dsimp only
    rw [hc.bad, if_neg (Nat.not_lt.mpr hn), if_neg Bool.false_ne_true]
    simp only [excl, sel, sc, set, topkExcl, topkScores] at ht
    rw [ht]
    rfl

end

/-! ### Jobs (R184). -/

/-- The job slots: each appends its job, as one more operation in flight. -/
theorem job_completes {mk : Fin 18 → Fin 55 → DWord → Instr} {op : Nat} (k : JobKind)
    (hx : ∀ (s : State) (ps : Fin 18) (u : Fin 55) (w : DWord), exec (mk ps u w) s = s.fireRow (slotIs .dsp op u w) ps u w [])
    (hr : ∀ (s : State) (ps u : Nat) (w : DWord), unitKind u = some .dsp → slotOp u w = op →
      s.slotRes ps u w = some (queueJob k w (s.gen ps) (s.taken ps u w))) :
    Completes mk .dsp op (fun _ _ _ _ => True) (fun s ps u w t =>
      (t.spn ps).dsp.jobs = (s.spn ps).dsp.jobs ++
          [{ kind := k, pset := seqPset w, otag := seqOtag (s.spn ps) w, oport := seqOport w, op := (s.spn ps).nextOp .job }] ∧
        (t.spn ps).inFlight.length = (s.spn ps).inFlight.length + 1 ∧ (t.spn ps).pipe = (s.spn ps).pipe ∧
        (t.spn ps).store = (s.taken ps u w).store) := by
  refine Completes.of_quiet (by decide) (by decide) (by decide) hx fun s ps u w hk hop _ _ => ⟨_, hr s ps u w hk hop, {}, fun t ht => ?_⟩
  have hg : t.spn ps = { (queueJob k w (s.gen ps) (s.taken ps u w)).sp with pipe := (s.spn ps).pipe ++ [] } := ht.gives rfl
  rw [hg]
  refine ⟨rfl, ?_, List.append_nil _, rfl⟩
  simp only [Spn.inFlight, queueJob, Spn.addOp, List.filter_append, List.length_append]
  rfl

/-- Settles O16: TOPK by what its fire gives before the last flit of a token and at it, the jobs by one statement for all. -/
theorem dispatchUnitSlotsComplete : Obligations.DispatchUnitSlotsComplete := by
  refine ⟨?more, ?last, ?post, ?grant, ?scatter, ?ret, ?treset⟩
  case more =>
    refine Completes.of_quiet (by decide) (by decide) (by decide) (fun _ _ _ _ => rfl) fun s ps u w hk hop _ ⟨hc, hn⟩ => ?_
    have hres : s.slotRes ps u w = some (fireTopk (s.uctx ps) w (s.slotTok ps u w 0) (s.slotPred ps u w) (s.gen ps) (s.taken ps u w)) := by
      simp only [State.slotRes, fireRes, hk, hop]
    exact ⟨_, hres.trans (congrArg some (fireTopk_more hc hn)), {}, fun t ht => ht.gives rfl⟩
  case last =>
    intro ranks tally
    refine Completes.of_quiet (by decide) (by decide) (by decide) (fun _ _ _ _ => rfl) fun s ps u w hk hop _ ⟨hc, hn, hr⟩ => ?_
    have hres : s.slotRes ps u w = some (fireTopk (s.uctx ps) w (s.slotTok ps u w 0) (s.slotPred ps u w) (s.gen ps) (s.taken ps u w)) := by
      simp only [State.slotRes, fireRes, hk, hop]
    refine ⟨_, hres.trans (congrArg some (fireTopk_last hc hn hr)), {}, fun t ht => ⟨_, ht.gives rfl, rfl, word_mkFlit_packLanes (by decide) .., fun j e he => ?_⟩⟩
    have hj := (List.getElem?_eq_some_iff.mp he).1
    have hj8 := hj.trans_le ((topkSel_length _ _ _).trans (dspSet_k_le _))
    rw [word_mkFlit_packLanes (by omega), Nat.add_comm 1 j, List.getElem?_cons_succ]
    exact congrArg (fun o : Option Nat => o.getD 0 % 2 ^ 64) (recordEntries_getElem? he)
  case post => exact job_completes .post (fun _ _ _ _ => rfl) fun s ps u w hk hop => by simp only [State.slotRes, fireRes, hk, hop]
  case grant => exact job_completes .grant (fun _ _ _ _ => rfl) fun s ps u w hk hop => by simp only [State.slotRes, fireRes, hk, hop]
  case scatter => exact job_completes .scatter (fun _ _ _ _ => rfl) fun s ps u w hk hop => by simp only [State.slotRes, fireRes, hk, hop]
  case ret => exact job_completes .ret (fun _ _ _ _ => rfl) fun s ps u w hk hop => by simp only [State.slotRes, fireRes, hk, hop]
  case treset => exact job_completes .treset (fun _ _ _ _ => rfl) fun s ps u w hk hop => by simp only [State.slotRes, fireRes, hk, hop]

end Sys2Proof.Machine
end

section
/-! SUPPORT. Firing a slot of a memory unit or a sluice (R82, R86, R87, R90, R145, R146). -/

namespace Sys2Proof.Machine

/-! ### The unit's operation. -/

/-- What a memory unit's operation does, given the tokens on its ports. -/
def State.memFire (s : State) (c : UCtx) (u : Nat) (w : DWord) (t0 : Flit) (t1 : Option Flit) (f : Flips) : State :=
  match slotOp u w with
  | 1 => s.fireBread c u w t1 f
  | 2 => s.fireBwrite c u w t0 t1 f
  | 3 => s.fireRd c u w t1
  | 4 => s.fireWr c u w t0 t1
  | 5 => s.fireAtom c u w t0 t1
  | 6 => s.fireRecv c w f
  | 7 => s.fireSend c u w t0
  | 8 => s.fireWatch c w
  | _ => s

section
variable {s : State} {ps u : Nat} {w : DWord} {f : Flips}

/-- A slot that fires and takes no control token runs its unit on the tokens it takes. -/
theorem State.fireSlot_fireUnit (h : Fires s ps u w) :
    s.fireSlot ps u w f = (s.setSpn ps (s.taken ps u w)).fireUnit ps u w (s.spn ps).store f := by
  unfold State.fireSlot
  rw [h.runs, Bool.not_true, if_neg Bool.false_ne_true]
  dsimp only
  rw [if_neg (not_not_intro h.free)]
  rfl

theorem ctlPort_mem (x : Spn) (hk : unitKind u = some .mem) : ctlPort x u w = none := by
  simp only [ctlPort, hk]

theorem ctlPort_sluice (x : Spn) (hk : unitKind u = some .sluice) : ctlPort x u w = none := by
  simp only [ctlPort, hk]

theorem State.spn_taken (h : Fires s ps u w) : (s.setSpn ps (s.taken ps u w)).spn ps = s.taken ps u w :=
  State.spn_setSpn h.inv.spns ps _

/-- A memory unit's slot that fires runs its operation on the tokens it takes. -/
theorem State.fireSlot_mem (h : Fires s ps u w) (hk : unitKind u = some .mem) :
    s.fireSlot ps u w f =
      (s.setSpn ps (s.taken ps u w)).memFire (s.uctx ps) u w (s.slotTok ps u w 0) (s.slotTok? ps u w 1) f := by
  rw [State.fireSlot_fireUnit h]
  unfold State.fireUnit
  rw [State.spn_taken h]
  dsimp only
  rw [ctlPort_mem _ hk, hk]
  rfl

/-- A sluice's slot that fires releases what its word names. -/
theorem State.fireSlot_sluice (h : Fires s ps u w) (hk : unitKind u = some .sluice) :
    s.fireSlot ps u w f = (s.setSpn ps (s.taken ps u w)).fireSluice (s.uctx ps) u w s.carries f := by
  rw [State.fireSlot_fireUnit h]
  unfold State.fireUnit
  rw [State.spn_taken h]
  dsimp only
  rw [ctlPort_sluice _ hk, hk]
  rfl

theorem slotIs_iff {k : UnitKind} {op : Nat} : slotIs k op u w = true ↔ unitKind u = some k ∧ slotOp u w = op := by
  simp [slotIs]

/-- The row of a memory unit's slot that fires. -/
theorem State.fireRow_mem {op : Nat} (h : Fires s ps u w) (hi : slotIs .mem op u w = true) (ho : slotOk u w = true) :
    s.fireRow (slotIs .mem op u w) ps u w f =
      .next ((s.setSpn ps (s.taken ps u w)).memFire (s.uctx ps) u w (s.slotTok ps u w 0) (s.slotTok? ps u w 1) f) := by
  unfold State.fireRow
  rw [hi, ho, Bool.and_self, if_pos rfl, State.fireSlot_mem h (slotIs_iff.mp hi).1]

/-- The row of a sluice's slot that fires. -/
theorem State.fireRow_sluice {op : Nat} (h : Fires s ps u w) (hi : slotIs .sluice op u w = true) (ho : slotOk u w = true) :
    s.fireRow (slotIs .sluice op u w) ps u w f =
      .next ((s.setSpn ps (s.taken ps u w)).fireSluice (s.uctx ps) u w s.carries f) := by
  unfold State.fireRow
  rw [hi, ho, Bool.and_self, if_pos rfl, State.fireSlot_sluice h (slotIs_iff.mp hi).1]

theorem word_blank : ({} : Flit).word 0 = 0 := by
  show lane 64 (BitVec.toNat 0#2048) 0 = 0
  rw [BitVec.toNat_zero]
  rfl

/-- Word 0 of the address token, 0 where the slot names none (R134). -/
theorem addrWord_eq (s : State) (ps u : Nat) (w : DWord) :
    ((s.slotTok? ps u w 1).map (fun t => t.word 0)).getD 0 = (s.slotTok ps u w 1).word 0 := by
  unfold State.slotTok
  cases s.slotTok? ps u w 1 with
  | none => exact word_blank.symm
  | some t => rfl

/-- The address a memory slot computes, from the tokens it takes (R134). -/
def State.memAddr (s : State) (ps u : Nat) (w : DWord) : Nat := slotAddr (s.spn ps) (s.logicalN ps) u w ((s.slotTok ps u w 1).word 0)

theorem State.memAddr_taken (s : State) (ps u : Nat) (w : DWord) :
    slotAddr (s.taken ps u w) (s.uctx ps).logical u w (((s.slotTok? ps u w 1).map (fun t => t.word 0)).getD 0) = s.memAddr ps u w := by
  rw [addrWord_eq]
  rfl

end

/-! ### What a memory operation may change. -/

/-- Nothing but spindle `ps`, the registers a fire may change and the traffic sent. -/
def State.Fits (s t : State) (ps : Nat) : Prop := s.Alters t [.regs, .out, .spns] ∧ s.RegsBut t (fireRegs ps) ∧ ∀ q, q ≠ ps → t.spn q = s.spn q

theorem State.Fits.trans {s t u : State} {ps : Nat} (h : s.Fits t ps) (k : t.Fits u ps) : s.Fits u ps :=
  ⟨h.1.trans k.1, h.2.1.trans k.2.1, fun q hq => (k.2.2 q hq).trans (h.2.2 q hq)⟩

theorem State.fits_setSpn (s : State) (ps : Nat) (x : Spn) : s.Fits (s.setSpn ps x) ps :=
  ⟨Keep.alters _ (State.setSpn_keep ..) rfl, State.RegsBut.of_regs rfl _, fun _ hq => tget_tset_ne hq _⟩

theorem State.fits_peaks (s : State) (ps : Nat) : s.Fits (s.peaks ps) ps :=
  ⟨Keep.alters _ (State.peaks_keep ..) rfl, State.peaks_but _ _, fun _ _ => by unfold State.spn; rw [State.peaks_spns]⟩

theorem State.spn_send (s : State) (m : Msg) (q : Nat) : (s.send m).spn q = s.spn q := rfl

theorem State.fits_send (s : State) (m : Msg) (ps : Nat) : s.Fits (s.send m) ps :=
  ⟨Keep.alters _ (State.send_keep ..) rfl, State.RegsBut.of_regs rfl _, fun _ _ => rfl⟩

theorem State.spn_peaks (s : State) (ps q : Nat) : (s.peaks ps).spn q = s.spn q := by
  unfold State.spn
  rw [State.peaks_spns]

theorem State.peaks_out (s : State) (ps : Nat) : (s.peaks ps).out = s.out := (State.peaks_keep s ps).out rfl

/-- The state once the slot has taken its tokens, the spindle has become `x` and the peaks are raised. -/
def State.afterFire (s : State) (ps u : Nat) (w : DWord) (x : Spn) : State := ((s.setSpn ps (s.taken ps u w)).setSpn ps x).peaks ps

section
variable {s : State} {ps u : Nat} {w : DWord} {x : Spn}

theorem State.fits_afterFire : s.Fits (s.afterFire ps u w x) ps :=
  ((State.fits_setSpn ..).trans (State.fits_setSpn ..)).trans (State.fits_peaks ..)

theorem State.afterFire_spns_wf (h : s.Inv) : twf ({} : Spn) (s.afterFire ps u w x).spns = true := by
  unfold State.afterFire
  rw [State.peaks_spns]
  exact twf_tset (twf_tset h.spns)

theorem State.spn_afterFire (h : s.Inv) : (s.afterFire ps u w x).spn ps = x := by
  unfold State.afterFire
  rw [State.spn_peaks, State.spn_setSpn (twf_tset h.spns)]

theorem State.afterFire_out : (s.afterFire ps u w x).out = s.out := by
  unfold State.afterFire
  rw [State.peaks_out]
  rfl

theorem State.fits_afterFire_send {m : Msg} : s.Fits ((s.afterFire ps u w x).send m) ps :=
  State.fits_afterFire.trans (State.fits_send ..)

theorem State.spn_afterFire_send (h : s.Inv) {m : Msg} : ((s.afterFire ps u w x).send m).spn ps = x :=
  (State.spn_send ..).trans (State.spn_afterFire h)

theorem State.afterFire_send_out {m : Msg} : ((s.afterFire ps u w x).send m).out = s.out ++ [m] := by
  rw [State.send_out, State.afterFire_out]

end

/-! ### Reservations (R86). -/

/-- The spindle once the slot has taken its tokens and reserved entries for operation `o`. -/
def State.reserved (s : State) (ps u : Nat) (w : DWord) (sl : Nat) (tag : BitVec 8) (gen : BitVec 2) (n : Nat) (o : OpEnt) : Spn :=
  ((s.taken ps u w).reserve sl tag gen n ((s.spn ps).nextOp o.kind)).addOp { o with sl := sl, tag := tag, left := n }

section
variable {s : State} {ps u sl n : Nat} {w : DWord} {tag : BitVec 8} {gen : BitVec 2} {o : OpEnt} {k : State → Nat → State}

theorem State.issueReserved_dup {d : BitVec 8} (h : Fires s ps u w) (hd : (s.spn ps).dupReserve sl tag gen n = some d) :
    (s.setSpn ps (s.taken ps u w)).issueReserved ps sl tag gen n o k =
      (s.setSpn ps (s.taken ps u w)).spnFault ps 0x0311 (51 + sl) d.toNat [(16, 1, 51 + sl), (17, 1, 0xFF), (18, 1, d.toNat)] := by
  have hd' : (s.taken ps u w).dupReserve sl tag gen n = some d := hd
  unfold State.issueReserved
  rw [State.spn_taken h]
  dsimp only
  rw [hd']

theorem State.issueReserved_free (h : Fires s ps u w) (hd : (s.spn ps).dupReserve sl tag gen n = none) :
    (s.setSpn ps (s.taken ps u w)).issueReserved ps sl tag gen n o k =
      k (s.afterFire ps u w (s.reserved ps u w sl tag gen n o)) ((s.spn ps).nextOp o.kind) := by
  have hd' : (s.taken ps u w).dupReserve sl tag gen n = none := hd
  unfold State.issueReserved
  rw [State.spn_taken h]
  dsimp only
  rw [hd']
  rfl

end

end Sys2Proof.Machine
end

section
/-! SUPPORT. The operations of the memory units that issue work, and sluice releases (R86 to R93, R145, R272 to R274). -/

namespace Sys2Proof.Machine

section
variable {s : State} {ps : Fin 18} {u : Fin 55} {w : DWord}

/-- The tag a memory slot reserves. -/
def State.memTag (s : State) (ps : Nat) (w : DWord) : BitVec 8 := tagOf (s.spn ps) (slot w 38 30)

/-! ### RD, WR and ATOM. -/

/-- The generation a RD reserves its entries for (R97). -/
def State.rdGen (s : State) (ps : Nat) (w : DWord) : BitVec 2 := if slot w 29 29 = 1 then s.gen ps + 1 else s.gen ps

/-- The operation a RD adds, before its entries are reserved. -/
def State.rdOp (s : State) (ps u : Nat) (w : DWord) : OpEnt :=
  { newOp .read (s.gen ps) s.now with fwd := decide (slot w 29 29 = 1), addr := s.memAddr ps u w, len := slot w 28 17 + 1 }

/-- The request a RD sends. -/
def State.rdReq (s : State) (ps u : Nat) (w : DWord) (id : Nat) : Msg :=
  .req { src := .spindle ps, op := id, kind := .read, addr := s.memAddr ps u w, len := slot w 28 17 + 1, data := [], poison := 0 }

theorem exec_rd (h : Fires s ps u w) (hi : slotIs .mem 3 u w = true) (ho : slotOk u w = true) :
    exec (.rd ps u w) s = .next ((s.setSpn ps (s.taken ps u w)).issueReserved ps (slot w 40 39) (s.memTag ps w) (s.rdGen ps w)
      ((slot w 28 17 + 1 + 255) / 256) (s.rdOp ps u w) (fun t id => t.send (s.rdReq ps u w id))) := by
  refine (State.fireRow_mem h hi ho).trans (congrArg Host.Outcome.next ?_)
  simp only [State.memFire, (slotIs_iff.mp hi).2]
  unfold State.fireRd
  dsimp only
  rw [show (s.uctx ps).ps = ps.val from rfl, State.spn_taken h, State.memAddr_taken]
  rfl

theorem rd_completes (h : Fires s ps u w) (hi : slotIs .mem 3 u w = true) (ho : slotOk u w = true)
    (hd : (s.spn ps).dupReserve (slot w 40 39) (s.memTag ps w) (s.rdGen ps w) ((slot w 28 17 + 1 + 255) / 256) = none) :
    ∃ t, exec (.rd ps u w) s = .next t ∧ s.Fits t ps ∧
      t.spn ps = ((s.taken ps u w).reserve (slot w 40 39) (s.memTag ps w) (s.rdGen ps w) ((slot w 28 17 + 1 + 255) / 256) ((s.spn ps).nextOp .read)).addOp
        { s.rdOp ps u w with sl := slot w 40 39, tag := s.memTag ps w, left := (slot w 28 17 + 1 + 255) / 256 } ∧
      t.out = s.out ++ [s.rdReq ps u w ((s.spn ps).nextOp .read)] := by
  exact ⟨(s.afterFire ps u w (s.reserved ps u w (slot w 40 39) (s.memTag ps w) (s.rdGen ps w) ((slot w 28 17 + 1 + 255) / 256) (s.rdOp ps u w))).send
      (s.rdReq ps u w ((s.spn ps).nextOp .read)), (exec_rd h hi ho).trans (congrArg Host.Outcome.next (State.issueReserved_free h hd)),
    State.fits_afterFire_send, State.spn_afterFire_send h.inv, State.afterFire_send_out⟩

theorem wr_completes (h : Fires s ps u w) (hi : slotIs .mem 4 u w = true) (ho : slotOk u w = true) :
    ∃ t, exec (.wr ps u w) s = .next t ∧ s.Fits t ps ∧
      t.spn ps = (s.taken ps u w).addOp { newOp .write (s.gen ps) s.now with cnt := slot w 16 9, addr := s.memAddr ps u w, len := slot w 28 17 + 1 } ∧
      t.out = s.out ++ [.req { src := .spindle ps, op := (s.spn ps).nextOp .write, kind := .write, addr := s.memAddr ps u w, len := slot w 28 17 + 1
                               data := (toLE 256 (s.slotTok ps u w 0).data.toNat).take (slot w 28 17 + 1), poison := (s.slotTok ps u w 0).pword.toNat }] := by
  refine ⟨(s.afterFire ps u w ((s.taken ps u w).addOp
    { newOp .write (s.gen ps) s.now with cnt := slot w 16 9, addr := s.memAddr ps u w, len := slot w 28 17 + 1 })).send _, ?_,
    State.fits_afterFire_send, State.spn_afterFire_send h.inv, State.afterFire_send_out⟩
  refine (State.fireRow_mem h hi ho).trans (congrArg Host.Outcome.next ?_)
  simp only [State.memFire, (slotIs_iff.mp hi).2]
  unfold State.fireWr
  dsimp only
  rw [show (s.uctx ps).ps = ps.val from rfl, State.spn_taken h, State.memAddr_taken]
  rfl

theorem atom_completes (h : Fires s ps u w) (hi : slotIs .mem 5 u w = true) (ho : slotOk u w = true)
    (hd : (s.spn ps).dupReserve (slot w 40 39) (s.memTag ps w) (s.gen ps) 1 = none) :
    let n := if slot w 7 5 = 2 then 16 else 8
    ∃ t, exec (.atom ps u w) s = .next t ∧ s.Fits t ps ∧
      t.spn ps = ((s.taken ps u w).reserve (slot w 40 39) (s.memTag ps w) (s.gen ps) 1 ((s.spn ps).nextOp .atom)).addOp
        { newOp .atom (s.gen ps) s.now with cnt := slot w 16 9, addr := s.memAddr ps u w, len := n, sl := slot w 40 39, tag := s.memTag ps w, left := 1 } ∧
      t.out = s.out ++ [.req { src := .spindle ps, op := (s.spn ps).nextOp .atom, kind := .atom (slot w 7 5), addr := s.memAddr ps u w, len := n
                               data := (toLE 256 (s.slotTok ps u w 0).data.toNat).take n
                               poison := (s.slotTok ps u w 0).pword.toNat % (if slot w 7 5 = 2 then 4 else 2) }] := by
  intro n
  refine ⟨(s.afterFire ps u w (s.reserved ps u w (slot w 40 39) (s.memTag ps w) (s.gen ps) 1
      { newOp .atom (s.gen ps) s.now with cnt := slot w 16 9, addr := s.memAddr ps u w, len := n })).send _, ?_,
    State.fits_afterFire_send, State.spn_afterFire_send h.inv, State.afterFire_send_out⟩
  refine (State.fireRow_mem h hi ho).trans (congrArg Host.Outcome.next ?_)
  simp only [State.memFire, (slotIs_iff.mp hi).2]
  unfold State.fireAtom
  dsimp only
  rw [show (s.uctx ps).ps = ps.val from rfl, State.spn_taken h, State.memAddr_taken]
  exact State.issueReserved_free h hd

/-! ### RECV and SEND. -/

theorem Spn.sluice_reserve_one (x : Spn) (sl : Nat) (tag : BitVec 8) (gen : BitVec 2) (id : Nat) :
    (x.reserve sl tag gen 1 id).sluice = x.sluice ++ [{ sl := sl, tag := tag, gen := gen, filled := false, flit := {}, op := id }] := by
  simp [Spn.reserve]

/-- Receive `id` posted on queue `q` (R273). -/
def Spn.post (x : Spn) (q id : Nat) : Spn :=
  { x with inq := tset {} x.inq q { tget {} x.inq q with posted := (tget {} x.inq q).posted ++ [id] } }

theorem Spn.inq_post (x : Spn) (q id : Nat) :
    tget {} (x.post q id).inq q = { tget {} x.inq q with posted := (tget {} x.inq q).posted ++ [id] } := by
  refine tget_tset_eq (fun h => ?_) _
  have : (tget {} x.inq q).posted ++ [id] = [] := congrArg InQueue.posted h
  simp at this

theorem ChanMsg.settle_nil (m : ChanMsg) (ps q : Nat) : m.settle ps q [] = m := by
  unfold ChanMsg.settle
  exact if_pos rfl

/-- A RECV whose message no flip reaches only posts itself, whether or not one is there. -/
theorem State.modSpn_post (s : State) (ps q id p : Nat) :
    (s.modSpn ps fun x =>
      let iq := tget {} x.inq q
      let held := iq.held.map (fun m => if m.seq = iq.head then m.settle p q [] else m)
      { x with inq := tset {} x.inq q { iq with posted := iq.posted ++ [id], held := held } }) = s.modSpn ps (·.post q id) := by
  simp only [ChanMsg.settle_nil, ite_self, List.map_id']
  rfl

/-- A queue without a message at its head, to which more may come, leaves its receives waiting (R87). -/
theorem State.pumpQueue_waits {s : State} {n ps q : Nat} (hr : (tget {} (s.spn ps).inq q).ready = none)
    (hd : (tget {} (s.spn ps).inq q).drained = false) : s.pumpQueue (n + 1) ps q = s := by
  unfold State.pumpQueue
  dsimp only
  split
  · rfl
  · rw [hr, hd]
    rfl

theorem InQueue.drained_open {iq : InQueue} (h : iq.st = .unbound ∨ iq.st = .opened) : iq.drained = false := by
  unfold InQueue.drained
  rcases h with h | h <;> rw [h]

theorem exec_recv (h : Fires s ps u w) (hi : slotIs .mem 6 u w = true) (ho : slotOk u w = true)
    (hd : (s.spn ps).dupReserve (slot w 40 39) (s.memTag ps w) (s.gen ps) 1 = none) :
    exec (.recv ps u w) s =
      .next (((s.afterFire ps u w (s.reserved ps u w (slot w 40 39) (s.memTag ps w) (s.gen ps) 1
        { newOp .recv (s.gen ps) s.now with cnt := slot w 16 9 % 64 })).modSpn ps
          (·.post (slot w 16 9 % 64) ((s.spn ps).nextOp .recv))).pumpQueue 33 ps (slot w 16 9 % 64)) := by
  refine (State.fireRow_mem h hi ho).trans (congrArg Host.Outcome.next ?_)
  simp only [State.memFire, (slotIs_iff.mp hi).2]
  unfold State.fireRecv
  dsimp only
  rw [show (s.uctx ps).ps = ps.val from rfl, State.spn_taken h]
  refine (State.issueReserved_free h hd).trans ?_
  exact congrArg (State.pumpQueue 33 · ps (slot w 16 9 % 64)) (State.modSpn_post ..)

theorem recv_completes (h : Fires s ps u w) (hi : slotIs .mem 6 u w = true) (ho : slotOk u w = true)
    (hd : (s.spn ps).dupReserve (slot w 40 39) (s.memTag ps w) (s.gen ps) 1 = none)
    (hr : (tget {} (s.spn ps).inq (slot w 16 9 % 64)).ready = none)
    (hst : (tget {} (s.spn ps).inq (slot w 16 9 % 64)).st = .unbound ∨ (tget {} (s.spn ps).inq (slot w 16 9 % 64)).st = .opened) :
    ∃ t, exec (.recv ps u w) s = .next t ∧ s.Fits t ps ∧ t.out = s.out ∧
      tget {} (t.spn ps).inq (slot w 16 9 % 64) = { tget {} (s.spn ps).inq (slot w 16 9 % 64) with
        posted := (tget {} (s.spn ps).inq (slot w 16 9 % 64)).posted ++ [(s.spn ps).nextOp .recv] } ∧
      (t.spn ps).sluice = (s.spn ps).sluice ++
        [{ sl := slot w 40 39, tag := s.memTag ps w, gen := s.gen ps, filled := false, flit := {}, op := (s.spn ps).nextOp .recv }] := by
  have hx := exec_recv h hi ho hd
  generalize hy : s.reserved ps u w (slot w 40 39) (s.memTag ps w) (s.gen ps) 1 { newOp .recv (s.gen ps) s.now with cnt := slot w 16 9 % 64 } = y at hx
  have hinq : y.inq = (s.spn ps).inq := hy ▸ rfl
  have hsl := (congrArg Spn.sluice hy).symm.trans (Spn.sluice_reserve_one (s.taken ps u w) (slot w 40 39) (s.memTag ps w) (s.gen ps) ((s.spn ps).nextOp .recv))
  have hspn : ((s.afterFire ps u w y).modSpn ps (·.post (slot w 16 9 % 64) ((s.spn ps).nextOp .recv))).spn ps =
      y.post (slot w 16 9 % 64) ((s.spn ps).nextOp .recv) := by
    rw [State.spn_modSpn (State.afterFire_spns_wf h.inv), State.spn_afterFire h.inv]
  have hq : tget {} (y.post (slot w 16 9 % 64) ((s.spn ps).nextOp .recv)).inq (slot w 16 9 % 64) = _ := Spn.inq_post ..
  rw [hinq] at hq
  rw [State.pumpQueue_waits (by rw [hspn, hq]; exact hr) (by rw [hspn, hq]; exact InQueue.drained_open hst)] at hx
  refine ⟨_, hx, State.fits_afterFire.trans (State.fits_setSpn ..),
    (State.setSpn_out ..).trans State.afterFire_out, by rw [hspn, hq], ?_⟩
  rw [hspn]
  exact hsl

theorem not_mem_fireRegs {a ps : Nat} (h : 0x4000000 ≤ a) (hp : ps < 18) : a ∉ fireRegs ps := by
  simp only [fireRegs, List.mem_append, List.mem_cons, List.not_mem_nil, or_false, List.mem_map, List.mem_range, not_or, not_exists, not_and,
    Reg.SPN_NUM_FLAGS, Reg.SPN_NUM_POISON_CNT, Reg.SPN_OPS, Reg.SPN_SLUICE_ST]
  exact ⟨by omega, fun n hn => by omega⟩

theorem State.Fits.runCtx {s t : State} {ps : Fin 18} (h : s.Fits t ps) : t.runCtx = s.runCtx :=
  State.runCtx_of_but h.2.1 (not_mem_fireRegs (by decide) ps.isLt)

theorem State.Fits.ownEnd {s t : State} {ps : Fin 18} (h : s.Fits t ps) (l c : Nat) : t.ownEnd l c = s.ownEnd l c := by
  unfold State.ownEnd State.coord
  rw [h.2.1.rf (not_mem_fireRegs (by decide) ps.isLt)]

theorem State.sendChan_local {s : State} {kind : ChanKind} {ctx op : Nat} {src dst : ChanBind} {msg : ChanMsg} (h : dst.remote = false) :
    s.sendChan kind ctx src dst msg op = s.send (.chan { kind := kind, ctx := ctx, src := src, dst := dst, msg := msg, op := op }) := by
  unfold State.sendChan
  rw [h]
  rfl

/-- The operation that a SEND on channel `ch` adds. -/
def sendOp (x : Spn) (gen : BitVec 2) (now : DWord) (ch : Nat) : OpEnt :=
  { newOp .send gen now with cnt := ch, seq := (tget {} x.outq ch).seq.toNat }

/-- A send channel that has taken one more message. -/
def OutChan.sent (oc : OutChan) : OutChan := { oc with seq := oc.seq + 1, credits := oc.credits - 1 }

/-- The spindle once channel `ch` has taken one more message. -/
def Spn.sendOn (x : Spn) (ch : Nat) : Spn := { x with outq := tset {} x.outq ch (tget {} x.outq ch).sent }

theorem Spn.outq_sendOn {x : Spn} {ch : Nat} (h : (tget {} x.outq ch).st = .opened) :
    tget {} (x.sendOn ch).outq ch = (tget {} x.outq ch).sent := by
  refine tget_tset_eq (v := (tget {} x.outq ch).sent) (fun hn => ?_) _
  have hs : (tget {} x.outq ch).sent.st = ({} : OutChan).st := congrArg OutChan.st hn
  exact ChanSt.noConfusion (h.symm.trans hs)

/-- A SEND on an open channel whose reader is on this device (R273, R274). -/
theorem State.fireSend_local {s : State} {c : UCtx} {u ch : Nat} {w : DWord} {t0 : Flit} {x : Spn} {b : ChanBind} {ps : Nat} (hps : c.ps = ps)
    (hx : s.spn ps = x) (hc : slot w 16 9 % 64 = ch) (hst : (tget {} x.outq ch).st = .opened) (hb : (tget {} x.outq ch).bind = some b) (hl : b.remote = false) :
    s.fireSend c u w t0 =
      let t := (s.setSpn ps ((x.addOp (sendOp x (s.gen ps) s.now ch)).sendOn ch)).peaks ps
      t.send (.chan { kind := .message, ctx := t.runCtx, src := t.ownEnd c.logical ch, dst := b
                      msg := sendMsg t0 ((slot w 28 17 + 1) / 4) (tget {} x.outq ch).seq, op := x.nextOp .send }) := by
  unfold State.fireSend
  rw [hps, hx, hc]
  dsimp only
  split
  next =>
    split
    next hn => exact absurd (hn.symm.trans hb) nofun
    next b' hb' =>
      cases Option.some.inj (hb'.symm.trans hb)
      rw [hl, if_neg Bool.false_ne_true, State.sendChan_local hl]
      rfl
  next hn => exact absurd hst hn

theorem send_completes (h : Fires s ps u w) (hi : slotIs .mem 7 u w = true) (ho : slotOk u w = true) {b : ChanBind}
    (hst : (tget {} (s.spn ps).outq (slot w 16 9 % 64)).st = .opened) (hb : (tget {} (s.spn ps).outq (slot w 16 9 % 64)).bind = some b)
    (hl : b.remote = false) :
    ∃ t, exec (.send ps u w) s = .next t ∧ s.Fits t ps ∧
      tget {} (t.spn ps).outq (slot w 16 9 % 64) = (tget {} (s.spn ps).outq (slot w 16 9 % 64)).sent ∧
      (t.spn ps).inFlight.length = (s.spn ps).inFlight.length + 1 ∧
      t.out = s.out ++ [.chan { kind := .message, ctx := s.runCtx, src := s.ownEnd (s.logicalN ps) (slot w 16 9 % 64), dst := b
                                msg := sendMsg (s.slotTok ps u w 0) ((slot w 28 17 + 1) / 4) (tget {} (s.spn ps).outq (slot w 16 9 % 64)).seq
                                op := (s.spn ps).nextOp .send }] := by
  have hst' : (tget {} (s.taken ps u w).outq (slot w 16 9 % 64)).st = .opened := hst
  have hb' : (tget {} (s.taken ps u w).outq (slot w 16 9 % 64)).bind = some b := hb
  have hx : exec (.send ps u w) s = _ := State.fireRow_mem h hi ho
  simp only [State.memFire, (slotIs_iff.mp hi).2] at hx
  rw [State.fireSend_local (show (s.uctx ps).ps = ps.val from rfl) (State.spn_taken h) rfl hst' hb' hl] at hx
  generalize hy : ((s.taken ps u w).addOp (sendOp (s.taken ps u w) _ _ _)).sendOn _ = y at hx
  have hfits : s.Fits (s.afterFire ps u w y) ps := State.fits_afterFire
  refine ⟨(s.afterFire ps u w y).send _, hx, State.fits_afterFire_send, ?_, ?_, State.afterFire_send_out.trans ?_⟩
  · rw [State.spn_afterFire_send h.inv, ← hy]
    exact Spn.outq_sendOn hst
  · rw [State.spn_afterFire_send h.inv, ← hy]
    simp only [Spn.inFlight, Spn.sendOn, Spn.addOp, List.filter_append, List.length_append]
    rfl
  · rw [show ((s.setSpn ps (s.taken ps u w)).setSpn ps y).peaks ps = s.afterFire ps u w y from rfl, hfits.runCtx, hfits.ownEnd]
    rfl

/-! ### WATCH. -/

theorem State.fillWatch_waits {s : State} {ps c : Nat}
    (h : ∀ o ∈ (s.spn ps).ops, o.kind = .watch → o.cnt = c → (s.spn ps).counter c < o.len) : s.fillWatch ps c = s := by
  unfold State.fillWatch
  dsimp only
  rw [List.find?_eq_none.mpr fun o hm => by
    simp only [Bool.and_eq_true, beq_iff_eq, decide_eq_true_eq, not_and, Nat.not_le]
    exact fun ⟨hk, hc⟩ => h o hm hk hc]

theorem watch_completes (h : Fires s ps u w) (hi : slotIs .mem 8 u w = true) (ho : slotOk u w = true)
    (hd : (s.spn ps).dupReserve (slot w 40 39) (s.memTag ps w) (s.gen ps) 1 = none)
    (hw : ∀ o ∈ (s.spn ps).ops, o.kind = .watch → o.cnt = slot w 16 9 → (s.spn ps).counter (slot w 16 9) < o.len)
    (hc : (s.spn ps).counter (slot w 16 9) < slot w 56 41) :
    ∃ t, exec (.watch ps u w) s = .next t ∧ s.Fits t ps ∧ t.out = s.out ∧
      t.spn ps = ((s.taken ps u w).reserve (slot w 40 39) (s.memTag ps w) (s.gen ps) 1 ((s.spn ps).nextOp .watch)).addOp
        { newOp .watch (s.gen ps) s.now with cnt := slot w 16 9, len := slot w 56 41, sl := slot w 40 39, tag := s.memTag ps w, left := 1 } := by
  refine ⟨s.afterFire ps u w _, ?_, State.fits_afterFire, State.afterFire_out, State.spn_afterFire h.inv⟩
  refine (State.fireRow_mem h hi ho).trans (congrArg Host.Outcome.next ?_)
  simp only [State.memFire, (slotIs_iff.mp hi).2]
  unfold State.fireWatch
  dsimp only
  rw [show (s.uctx ps).ps = ps.val from rfl, State.spn_taken h]
  refine (State.issueReserved_free h hd).trans (State.fillWatch_waits ?_)
  intro o hm hk hcnt
  rw [State.spn_afterFire h.inv] at hm ⊢
  rcases List.mem_append.mp hm with hold | hnew
  · exact hw o hold hk hcnt
  · rw [List.mem_singleton.mp hnew]
    exact hc

/-! ### Sluices. -/

theorem Flit.settle_nil (x : Flit) (k : Nat) : x.settle k [] = x := if_pos rfl

/-- The spindle once entry `e` of its sluice has left on output `port` of unit `u` (R88). -/
def Spn.released (x : Spn) (u port : Nat) (e : SlEnt) : Spn :=
  { x with sluice := x.sluice.erase e, pipe := x.pipe ++ [{ unit := u, port := port, left := 1, out := some e.flit }] }

/-- The POISON flag of spindle `ps` is set where `b` (R71). -/
def State.notePoison (s : State) (ps : Nat) (b : Bool) : State :=
  if b then s.wr (Reg.SPN_NUM_FLAGS ps) (s.rd (Reg.SPN_NUM_FLAGS ps) ||| FPOISON) else s

theorem State.fits_notePoison (s : State) (ps : Nat) (b : Bool) : s.Fits (s.notePoison ps b) ps := by
  unfold State.notePoison
  cases b
  · exact ⟨State.Alters.refl _ _, State.RegsBut.refl _ _, fun _ _ => rfl⟩
  · exact ⟨Keep.alters _ (State.wr_keep ..) rfl, (s.wr_but _ _).of_one (by simp [fireRegs]), fun _ _ => rfl⟩

theorem State.notePoison_spn (s : State) (ps q : Nat) (b : Bool) : (s.notePoison ps b).spn q = s.spn q := by
  cases b <;> rfl

theorem State.notePoison_out (s : State) (ps : Nat) (b : Bool) : (s.notePoison ps b).out = s.out := by
  cases b <;> rfl

theorem State.rbit_notePoison {s : State} (h : twf 0 s.regs = true) (ps : Nat) : (s.notePoison ps true).rbit (Reg.SPN_NUM_FLAGS ps) 6 = true := by
  have hr : (s.notePoison ps true).rd (Reg.SPN_NUM_FLAGS ps) = (s.rd (Reg.SPN_NUM_FLAGS ps) ||| FPOISON) % 2 ^ 32 := State.rd_wr_self h _ _
  unfold State.rbit bitOf
  rw [hr, Nat.testBit_mod_two_pow, Nat.testBit_or, show FPOISON.testBit 6 = true by decide, Bool.or_true]
  decide

/-- A sluice gives up a filled entry whose poison, if any, is carried (R88, R426). -/
theorem State.release_filled {s : State} {c : UCtx} {u port ps : Nat} {tag : BitVec 8} {carry : Bool} {x : Spn} {e : SlEnt} (hps : c.ps = ps)
    (hx : s.spn ps = x) (he : x.sluice.find? (fun e => e.sl == u - 51 && e.tag == tag && e.gen == s.gen ps && e.filled) = some e)
    (hp : e.flit.pword = 0 ∨ carry = true) :
    s.release c u port tag carry [] = (s.setSpn ps (x.released u port e)).notePoison ps (decide (e.flit.pword ≠ 0)) := by
  unfold State.release
  rw [hps, hx]
  dsimp only
  rw [he]
  dsimp only
  rw [Flit.settle_nil, if_neg (by rcases hp with hp | hp <;> simp [hp])]
  unfold State.notePoison
  simp only [decide_eq_true_eq]
  rfl

theorem sluice_completes (h : Fires s ps u w) (hi : slotIs .sluice 0 u w = true) (ho : slotOk u w = true) {e : SlEnt}
    (h0 : slot w 63 63 = 1) (h1 : slot w 53 53 = 0)
    (he : (s.spn ps).sluice.find? (fun e => e.sl == u.val - 51 && e.tag == tagOf (s.spn ps) (slot w 62 54) && e.gen == s.gen ps && e.filled) = some e)
    (hp : e.flit.pword = 0 ∨ s.carries = true) :
    ∃ t, exec (.sluiceRelease ps u w) s = .next t ∧ s.Fits t ps ∧ t.out = s.out ∧
      Gives t ps u { s.taken ps u w with sluice := (s.spn ps).sluice.erase e } [(0, 1, e.flit)] ∧
      (e.flit.pword ≠ 0 → t.rbit (Reg.SPN_NUM_FLAGS ps) 6 = true) := by
  have hps : (s.uctx ps).ps = ps.val := rfl
  have hx : exec (.sluiceRelease ps u w) s = _ := State.fireRow_sluice h hi ho
  unfold State.fireSluice at hx
  rw [hps, State.spn_taken h] at hx
  dsimp only at hx
  rw [if_pos h0, if_neg (by rw [h1]; exact fun hn => absurd hn.1 (by decide)), State.release_filled (s := s.setSpn ps (s.taken ps u w))
    (tag := tagOf (s.taken ps u w) (slot w 62 54)) hps (State.spn_taken h) he hp] at hx
  refine ⟨_, hx, ((State.fits_setSpn ..).trans (State.fits_setSpn ..)).trans (State.fits_notePoison ..), State.notePoison_out .., ?_, fun hn => ?_⟩
  · exact (State.notePoison_spn ..).trans (State.spn_setSpn (twf_tset h.inv.spns) _ _)
  · rw [decide_eq_true hn]
    exact State.rbit_notePoison h.inv.regs _

end

/-- Settles O19: each operation as the slot's row answers it. -/
theorem memoryUnitsComplete : Obligations.MemoryUnitsComplete :=
  ⟨fun _ _ _ _ h hi ho => ⟨rd_completes h hi ho, fun _ hd => (exec_rd h hi ho).trans (congrArg Host.Outcome.next (State.issueReserved_dup h hd))⟩,
    fun _ _ _ _ => wr_completes, fun _ _ _ _ => atom_completes, fun _ _ _ _ => recv_completes,
    fun _ _ _ _ _ h hi ho => send_completes h hi ho, fun _ _ _ _ => watch_completes, fun _ _ _ _ _ h hi ho => sluice_completes h hi ho⟩

end Sys2Proof.Machine
end

section
/-! SUPPORT. Whole stored words of an SRAM bank, read and written, and the bank accesses that do so (R92, R145, R228, R230 to R232). -/

namespace Sys2Proof.Machine

/-! ### Reading words that nothing has upset (R231). -/

/-- The eight bytes of the stored word at an aligned key, as an undisturbed read delivers them. -/
def State.wordBytes (s : State) (k : Nat) : List Byte := if s.poisonAt k then List.replicate 8 0 else s.bytesAt k 8

theorem State.poisonAt_word (s : State) {k i : Nat} (h8 : k % 8 = 0) (hi : i < 8) : s.poisonAt (k + i) = s.poisonAt k := by
  unfold State.poisonAt
  rw [show (k + i) / 8 = k / 8 by omega]

theorem State.wordBytes_length (s : State) (k : Nat) : (s.wordBytes k).length = 8 := by
  unfold State.wordBytes
  split
  · rfl
  · simp [State.bytesAt]

theorem State.getElem?_wordBytes (s : State) {k i : Nat} (h8 : k % 8 = 0) (hi : i < 8) :
    (s.wordBytes k)[i]? = some (if s.poisonAt (k + i) then 0 else s.byteAt (k + i)) := by
  unfold State.wordBytes
  rw [s.poisonAt_word h8 hi]
  split
  · rw [List.getElem?_replicate, if_pos hi]
  · rw [State.bytesAt, List.getElem?_map, List.getElem?_range hi]
    rfl

/-- A clean read of a bank's word is counted nowhere. -/
theorem State.noteDecode_bank_clean (s : State) {k : Nat} (src sy : Nat) (p : Bool) (hk : 0x4200000000 ≤ k) :
    s.noteDecode k src sy .clean p = s := by
  unfold State.noteDecode keyStore
  rw [if_neg (Nat.not_lt.mpr hk)]

theorem State.readWord_bank (s : State) {k : Nat} {f : Flips} (src : Nat) (hk : 0x4200000000 ≤ k) (h8 : k % 8 = 0) (hf : flipOf f k = 0) :
    s.readWord k src f = (s.wordBytes k, s.poisonAt k, .clean, s) := by
  unfold State.readWord
  rw [h8, Nat.sub_zero]
  dsimp only
  rw [if_pos hf, s.noteDecode_bank_clean _ _ _ hk]
  rfl

/-- Words of a bank read one after the other, none upset: the bytes, which words carry poison, and no change. -/
theorem State.readWords_bank {s : State} {f : Flips} {src : Nat} : ∀ {n k : Nat}, 0x4200000000 ≤ k → k % 8 = 0 →
    (∀ j, j < n → flipOf f (k + 8 * j) = 0) →
    (∀ i, i < 8 * n → (State.readWords n s k src f).1[i]? = some (if s.poisonAt (k + i) then 0 else s.byteAt (k + i))) ∧
      (∀ j, j < n → (State.readWords n s k src f).2.1.testBit j = s.poisonAt (k + 8 * j)) ∧ (State.readWords n s k src f).2.2.2 = s
  | 0, _, _, _, _ => ⟨fun _ hi => absurd hi (Nat.not_lt_zero _), fun _ hj => absurd hj (Nat.not_lt_zero _), rfl⟩
  | n + 1, k, hk, h8, hf => by
    have h1 := s.readWord_bank src hk h8 (hf 0 (Nat.succ_pos n))
    obtain ⟨hb, hp, hs⟩ := State.readWords_bank (n := n) (k := k + 8) (s := s) (f := f) (src := src) (by omega) (by omega)
      (fun j hj => by rw [show k + 8 + 8 * j = k + 8 * (j + 1) by omega]; exact hf _ (by omega))
    unfold State.readWords
    dsimp only
    rw [h1]
    refine ⟨fun i hi => ?_, fun j hj => ?_, hs⟩
    · rcases Nat.lt_or_ge i 8 with h | h
      · rw [List.getElem?_append_left (by rw [s.wordBytes_length]; exact h), s.getElem?_wordBytes h8 h]
      · rw [List.getElem?_append_right (by rw [s.wordBytes_length]; exact h), s.wordBytes_length, hb _ (by omega),
          show k + 8 + (i - 8) = k + i by omega]
    · dsimp only
      cases j with
      | zero => cases hq : s.poisonAt k <;> simp [Nat.testBit_zero]
      | succ j =>
        rw [show k + 8 * (j + 1) = k + 8 + 8 * j by omega, ← hp j (by omega), Nat.testBit_succ]
        congr 1
        split <;> omega

/-! ### Flits of bytes. -/

/-- Bytes as a number are 8-bit lanes. -/
theorem leNat_eq_packLanes : ∀ l : List Byte, leNat l = packLanes 8 (l.map BitVec.toNat)
  | [] => rfl
  | b :: l => by
    rw [leNat, List.map_cons, packLanes, leNat_eq_packLanes l, Nat.mod_eq_of_lt b.isLt]
    rfl

theorem byte_mkFlit_leNat {l : List Byte} {i : Nat} (hi : i < 256) (pw : Nat) (tag : BitVec 8) (gen : BitVec 2) (n : Nat) :
    (mkFlit (leNat l) pw tag gen n).byte i = ((l[i]?).getD 0).toNat := by
  rw [Flit.byte, mkFlit, lane_flitData (by omega), leNat_eq_packLanes, lane_packLanes, List.getElem?_map]
  cases l[i]? with
  | none => rfl
  | some b => exact Nat.mod_eq_of_lt b.isLt

theorem bad_mkFlit {j : Nat} (hj : j < 32) (d pw : Nat) (tag : BitVec 8) (gen : BitVec 2) (n : Nat) :
    (mkFlit d pw tag gen n).bad j = pw.testBit j := by
  rw [Flit.bad, mkFlit, BitVec.toNat_ofNat, Nat.testBit_mod_two_pow]
  simp [hj]

/-- The bytes of a flit, as a write takes them. -/
theorem getElem?_toLE : ∀ (n w i : Nat), i < n → (toLE n w)[i]? = some (BitVec.ofNat 8 (lane 8 w i))
  | n + 1, w, 0, _ => by
    rw [toLE, List.getElem?_cons_zero, lane, Nat.mul_zero, Nat.shiftRight_zero]
    exact congrArg some (BitVec.eq_of_toNat_eq (by simp))
  | n + 1, w, i + 1, hi => by
    rw [toLE, List.getElem?_cons_succ, getElem?_toLE n (w / 256) i (Nat.lt_of_succ_lt_succ hi)]
    unfold lane
    rw [Nat.shiftRight_eq_div_pow, Nat.shiftRight_eq_div_pow, Nat.mul_succ, Nat.add_comm (8 * i), Nat.pow_add, Nat.div_div_eq_div_mul]

/-! ### Writing whole words (R228, R232). -/

/-- A stored word written whole: its bytes, or zeros with its marker where the source word carries poison. -/
def State.storeWord (s : State) (k : Nat) (l : List Byte) (bad : Bool) : State :=
  if bad then (s.putBytes k (List.replicate 8 0)).setPoison k true else (s.putBytes k l).setPoison k false

section
variable {s : State} {k : Nat} {l : List Byte} {bad : Bool}

theorem State.storeWord_keep : Keep 0x3FFFFF3FF s (s.storeWord k l bad) := by
  unfold State.storeWord
  cases bad
  · exact ((State.putBytes_keep ..).mono rfl).trans ((State.setPoison_keep ..).mono rfl)
  · exact ((State.putBytes_keep ..).mono rfl).trans ((State.setPoison_keep ..).mono rfl)

theorem State.byteAt_storeWord (h : Memory.wf s.mem = true) (hl : l.length = 8) (a : Nat) :
    (s.storeWord k l bad).byteAt a = if k ≤ a ∧ a < k + 8 then (if bad then 0 else (l[a - k]?).getD 0) else s.byteAt a := by
  unfold State.storeWord
  cases bad
  · refine (State.byteAt_putBytes h k a l).trans ?_
    rw [hl]
    rfl
  · refine (State.byteAt_putBytes h k a _).trans ?_
    rw [List.length_replicate]
    split
    · rw [List.getElem?_replicate]
      split <;> rfl
    · rfl

theorem State.poisonAt_storeWord (h : twf false s.poison = true) (a : Nat) :
    (s.storeWord k l bad).poisonAt a = if a / 8 = k / 8 then bad else s.poisonAt a := by
  unfold State.storeWord
  cases bad <;> exact tget_tset h

theorem State.storeWord_mem_wf (h : Memory.wf s.mem = true) : Memory.wf (s.storeWord k l bad).mem = true := by
  unfold State.storeWord
  cases bad <;> exact twf_memPut h

theorem State.storeWord_poison_wf (h : twf false s.poison = true) : twf false (s.storeWord k l bad).poison = true := by
  unfold State.storeWord
  cases bad <;> exact twf_tset h

end

theorem State.writeWord_whole (s : State) {b o : Nat} {l : List Byte} (pm : Nat) (f : Flips) (hl : l.length = 8) (ho : o % 8 = 0) :
    (s.writeWord b 0 o l pm f).2.2 = s.storeWord b l (pm.testBit (o / 8)) := by
  have hbad : (List.range 8).any (fun i => srcPoison pm (o + i)) = pm.testBit (o / 8) := by
    have hw (i : Nat) (hi : i < 8) : srcPoison pm (o + i) = pm.testBit (o / 8) := by
      unfold srcPoison
      rw [show (o + i) / 8 = o / 8 by omega]
    cases hp : pm.testBit (o / 8)
    · exact List.any_eq_false.mpr fun i hi => by rw [hw i (List.mem_range.mp hi), hp]; exact Bool.false_ne_true
    · exact List.any_eq_true.mpr ⟨0, by simp, by rw [hw 0 (by decide), hp]⟩
  unfold State.writeWord
  rw [hl, hbad, if_pos rfl]
  rfl

/-- A run of whole words written at an aligned key. -/
structure WritesWords (s t : State) (k o n : Nat) (l : List Byte) (pm : Nat) : Prop where
  keep : Keep 0x3FFFFF3FF s t
  byte : ∀ i, i < 8 * n → t.byteAt (k + i) = if pm.testBit ((o + i) / 8) then 0 else (l[i]?).getD 0
  poison : ∀ i, i < 8 * n → t.poisonAt (k + i) = pm.testBit ((o + i) / 8)
  byteBut : ∀ a, a < k ∨ k + 8 * n ≤ a → t.byteAt a = s.byteAt a
  poisonBut : ∀ a, a < k ∨ k + 8 * n ≤ a → t.poisonAt a = s.poisonAt a

theorem State.writeKey_words {pm : Nat} {f : Flips} : ∀ {n k o : Nat} {s : State} {l : List Byte}, l.length = 8 * n → k % 8 = 0 → o % 8 = 0 →
    Memory.wf s.mem = true → twf false s.poison = true → WritesWords s (State.writeKey (n + 1) s k o l pm f) k o n l pm
  | 0, k, o, s, l, hl, _, _, _, _ => by
    rw [List.length_eq_zero_iff.mp hl]
    exact ⟨Keep.refl _ _, fun i hi => absurd hi (Nat.not_lt_zero _), fun i hi => absurd hi (Nat.not_lt_zero _), fun _ _ => rfl, fun _ _ => rfl⟩
  | n + 1, k, o, s, l, hl, hk, ho, hm, hp => by
    have ht : (l.take 8).length = 8 := by rw [List.length_take, hl]; omega
    have hd : (l.drop 8).length = 8 * n := by rw [List.length_drop, hl]; omega
    have hne : l ≠ [] := fun h => by rw [h, List.length_nil] at hl; omega
    have heq : State.writeKey (n + 1 + 1) s k o l pm f =
        State.writeKey (n + 1) (s.storeWord k (l.take 8) (pm.testBit (o / 8))) (k + 8) (o + 8) (l.drop 8) pm f := by
      conv_lhs => unfold State.writeKey
      split
      · exact absurd rfl hne
      · rw [hk]
        dsimp only [Nat.sub_zero]
        rw [State.writeWord_whole s pm f ht ho]
    obtain ⟨hkeep, hbyte, hpoi, hbb, hpb⟩ := State.writeKey_words (pm := pm) (f := f) (k := k + 8) (o := o + 8) hd (by omega) (by omega)
      (State.storeWord_mem_wf (k := k) (l := l.take 8) (bad := pm.testBit (o / 8)) hm) (State.storeWord_poison_wf hp)
    rw [heq]
    refine ⟨State.storeWord_keep.trans hkeep, fun i hi => ?_, fun i hi => ?_, fun a ha => ?_, fun a ha => ?_⟩
    · rcases Nat.lt_or_ge i 8 with h | h
      · rw [hbb _ (.inl (by omega)), State.byteAt_storeWord hm ht, if_pos (by omega), show k + i - k = i by omega, List.getElem?_take_of_lt h,
          show (o + i) / 8 = o / 8 by omega]
      · have hi' := hbyte (i - 8) (by omega)
        rw [show k + 8 + (i - 8) = k + i by omega, show o + 8 + (i - 8) = o + i by omega, List.getElem?_drop, show 8 + (i - 8) = i by omega] at hi'
        exact hi'
    · rcases Nat.lt_or_ge i 8 with h | h
      · rw [hpb _ (.inl (by omega)), State.poisonAt_storeWord hp, if_pos (by omega), show (o + i) / 8 = o / 8 by omega]
      · have hi' := hpoi (i - 8) (by omega)
        rw [show k + 8 + (i - 8) = k + i by omega, show o + 8 + (i - 8) = o + i by omega] at hi'
        exact hi'
    · rw [hbb _ (by omega), State.byteAt_storeWord hm ht, if_neg (by omega)]
    · rw [hpb _ (by omega), State.poisonAt_storeWord hp, if_neg (by omega)]

/-! ### BREAD and BWRITE (R92, R145). -/

/-- The line of a unit's own bank is an aligned line of SRAM. -/
theorem State.ownLine_some {s : State} {ps l u a k : Nat} (h : s.ownLine ps l u a = some k) : 0x4200000000 ≤ k ∧ k % 256 = 0 := by
  unfold State.ownLine at h
  split at h
  · split at h
    · cases h
      unfold sramKey
      omega
    · cases h
  · cases h

section
variable {s : State} {ps : Fin 18} {u : Fin 55} {w : DWord} {f : Flips}

theorem exec_bread (h : Fires s ps u w) (hi : slotIs .mem 1 u w = true) (ho : slotOk u w = true) :
    exec (.bread ps u w f) s = .next ((s.setSpn ps (s.taken ps u w)).fireBread (s.uctx ps) u w (s.slotTok? ps u w 1) f) := by
  refine (State.fireRow_mem h hi ho).trans (congrArg Host.Outcome.next ?_)
  simp only [State.memFire, (slotIs_iff.mp hi).2]

theorem exec_bwrite (h : Fires s ps u w) (hi : slotIs .mem 2 u w = true) (ho : slotOk u w = true) :
    exec (.bwrite ps u w f) s =
      .next ((s.setSpn ps (s.taken ps u w)).fireBwrite (s.uctx ps) u w (s.slotTok ps u w 0) (s.slotTok? ps u w 1) f) := by
  refine (State.fireRow_mem h hi ho).trans (congrArg Host.Outcome.next ?_)
  simp only [State.memFire, (slotIs_iff.mp hi).2]

/-- The fault of a bank access that misses the unit's own bank. -/
def State.bankFault (s : State) (ps u : Nat) (w : DWord) : State :=
  (s.setSpn ps (s.taken ps u w)).spnFault ps 0x0322 u (s.memTag ps w).toNat [(16, 1, u), (17, 5, s.memAddr ps u w)]

theorem exec_bread_miss (h : Fires s ps u w) (hi : slotIs .mem 1 u w = true) (ho : slotOk u w = true)
    (hk : s.ownLine ps (s.logicalN ps) u (s.memAddr ps u w) = none) : exec (.bread ps u w f) s = .next (s.bankFault ps u w) := by
  have hk' : (s.setSpn ps (s.taken ps u w)).ownLine ps (s.uctx ps).logical u (s.memAddr ps u w) = none := hk
  rw [exec_bread h hi ho]
  unfold State.fireBread
  rw [show (s.uctx ps).ps = ps.val from rfl, State.spn_taken h]
  dsimp only
  rw [State.memAddr_taken, hk']
  rfl

theorem exec_bwrite_miss (h : Fires s ps u w) (hi : slotIs .mem 2 u w = true) (ho : slotOk u w = true)
    (hk : s.ownLine ps (s.logicalN ps) u (s.memAddr ps u w) = none) : exec (.bwrite ps u w f) s = .next (s.bankFault ps u w) := by
  have hk' : (s.setSpn ps (s.taken ps u w)).ownLine ps (s.uctx ps).logical u (s.memAddr ps u w) = none := hk
  rw [exec_bwrite h hi ho]
  unfold State.fireBwrite
  rw [show (s.uctx ps).ps = ps.val from rfl, State.spn_taken h]
  dsimp only
  rw [State.memAddr_taken, hk']
  rfl

theorem bread_completes {k : Nat} (h : Fires s ps u w) (hi : slotIs .mem 1 u w = true) (ho : slotOk u w = true)
    (hk : s.ownLine ps (s.logicalN ps) u (s.memAddr ps u w) = some k) (hdec : slot w 7 5 = 0) (hf : ∀ j, j < 32 → flipOf f (k + 8 * j) = 0) :
    ∃ t fl, exec (.bread ps u w f) s = .next t ∧ Gives t ps u (s.taken ps u w) [(0, 3, fl)] ∧ fl.tag = tagOf (s.spn ps) (slot w 38 30) ∧
      (∀ i, i < 256 → fl.byte i = if s.poisonAt (k + i) then 0 else (s.byteAt (k + i)).toNat) ∧
      (∀ j, j < 32 → fl.bad j = s.poisonAt (k + 8 * j)) ∧ s.Alters t [.spns] ∧ ∀ q, q ≠ ps.val → t.spn q = s.spn q := by
  obtain ⟨hlo, hal⟩ := State.ownLine_some hk
  have hk' : (s.setSpn ps (s.taken ps u w)).ownLine ps (s.uctx ps).logical u (s.memAddr ps u w) = some k := hk
  obtain ⟨hb, hp, hs⟩ := State.readWords_bank (s := s.setSpn ps (s.taken ps u w)) (src := srcRead) (n := 32) hlo (by omega) hf
  have hx := exec_bread (f := f) h hi ho
  unfold State.fireBread at hx
  rw [show (s.uctx ps).ps = ps.val from rfl, State.spn_taken h] at hx
  dsimp only at hx
  rw [State.memAddr_taken, hk'] at hx
  dsimp only at hx
  rw [if_pos hdec] at hx
  generalize State.readWords 32 (s.setSpn ps (s.taken ps u w)) k srcRead f = r at hx hb hp hs
  rw [hs] at hx
  have hmod : ∀ g : Spn → Spn, (s.setSpn ps (s.taken ps u w)).modSpn ps g = (s.setSpn ps (s.taken ps u w)).setSpn ps (g (s.taken ps u w)) := fun g => by
    unfold State.modSpn
    rw [State.spn_taken h]
  have hz : (s.setSpn ps (s.taken ps u w)).maskErrors ps u 0 = s.setSpn ps (s.taken ps u w) := if_pos rfl
  rw [hz, hmod] at hx
  have hfits := (State.fits_setSpn s ps (s.taken ps u w)).trans (State.fits_setSpn (s.setSpn ps (s.taken ps u w)) ps
    { s.taken ps u w with pipe := (s.taken ps u w).pipe ++ [{ unit := u, port := 0, left := 3, out := some (mkFlit (leNat r.1) r.2.1 (s.memTag ps w) (s.gen ps) 32) }] })
  refine ⟨_, mkFlit (leNat r.1) r.2.1 (s.memTag ps w) (s.gen ps) 32, hx, State.spn_setSpn (twf_tset h.inv.spns) _ _, rfl, fun i hi => ?_,
    fun j hj => (bad_mkFlit hj ..).trans (hp j hj), (Keep.alters _ (State.setSpn_keep ..) rfl).trans (Keep.alters _ (State.setSpn_keep ..) rfl), hfits.2.2⟩
  rw [byte_mkFlit_leNat hi, hb i hi, Option.getD_some]
  have hpa : (s.setSpn ps (s.taken ps u w)).poisonAt (k + i) = s.poisonAt (k + i) := rfl
  have hba : (s.setSpn ps (s.taken ps u w)).byteAt (k + i) = s.byteAt (k + i) := rfl
  rw [hpa, hba]
  split <;> rfl

theorem bwrite_completes {k : Nat} (h : Fires s ps u w) (hi : slotIs .mem 2 u w = true) (ho : slotOk u w = true)
    (hk : s.ownLine ps (s.logicalN ps) u (s.memAddr ps u w) = some k) :
    ∃ t, exec (.bwrite ps u w f) s = .next t ∧ t.spn ps = s.taken ps u w ∧
      (∀ i, i < 256 → t.byteAt (k + i) = if (s.slotTok ps u w 0).bad (i / 8) then 0 else BitVec.ofNat 8 ((s.slotTok ps u w 0).byte i)) ∧
      (∀ i, i < 256 → t.poisonAt (k + i) = (s.slotTok ps u w 0).bad (i / 8)) ∧ s.BytesBut t k 256 ∧
      (∀ a, a < k ∨ k + 256 ≤ a → t.poisonAt a = s.poisonAt a) ∧ s.Alters t [.mem, .poison, .spns] ∧ ∀ q, q ≠ ps.val → t.spn q = s.spn q := by
  obtain ⟨hlo, hal⟩ := State.ownLine_some hk
  have hk' : (s.setSpn ps (s.taken ps u w)).ownLine ps (s.uctx ps).logical u (s.memAddr ps u w) = some k := hk
  have hx := exec_bwrite (f := f) h hi ho
  unfold State.fireBwrite at hx
  rw [show (s.uctx ps).ps = ps.val from rfl, State.spn_taken h] at hx
  dsimp only at hx
  rw [State.memAddr_taken, hk'] at hx
  obtain ⟨hkeep, hbyte, hpoi, hbb, hpb⟩ := State.writeKey_words (pm := (s.slotTok ps u w 0).pword.toNat) (f := f) (n := 32) (k := k) (o := 0)
    (s := s.setSpn ps (s.taken ps u w)) (toLE_length 256 (s.slotTok ps u w 0).data.toNat) (by omega) rfl h.inv.mem h.inv.poison
  have hspns : ∀ q, (State.writeKey 33 (s.setSpn ps (s.taken ps u w)) k 0 (toLE 256 (s.slotTok ps u w 0).data.toNat) (s.slotTok ps u w 0).pword.toNat f).spn q =
      (s.setSpn ps (s.taken ps u w)).spn q := fun q => by
    unfold State.spn
    rw [hkeep.spns rfl]
  refine ⟨_, hx, (hspns ps).trans (State.spn_taken h), fun i hi => ?_, fun i hi => ?_, hbb, hpb,
    (Keep.alters _ (State.setSpn_keep ..) rfl).trans (Keep.alters _ hkeep rfl), fun q hq => (hspns q).trans (tget_tset_ne hq _)⟩
  · rw [hbyte i hi, Nat.zero_add, getElem?_toLE 256 _ i hi]
    rfl
  · rw [hpoi i hi, Nat.zero_add]
    rfl

end

/-- Settles O18: the line read word by word, the line written word by word, and the fault of any other address. -/
theorem bankAccessesComplete : Obligations.BankAccessesComplete :=
  ⟨fun _ _ _ _ _ _ h hi ho hk hd hf => bread_completes h hi ho hk hd hf, fun _ _ _ _ _ _ h hi ho hk => bwrite_completes h hi ho hk,
    fun _ _ _ _ _ h ho hk => ⟨fun hi => exec_bread_miss h hi ho hk, fun hi => exec_bwrite_miss h hi ho hk⟩⟩

end Sys2Proof.Machine
end

section
/-! SUPPORT. What the A-ticks of a strand leave of its spindle: stalls, knots and the end of a context change neither position nor
stores nor pipelines (R90, R110, R277, R280, R281). -/

namespace Sys2Proof.Machine

/-- The view `g` of spindle `ps`, where it is not that of a blank spindle, is the same in both states.  (A spindle table holds no blank
entry, so a view that is not blank is read back from any table it is written to.) -/
structure State.Stays {β : Type} (g : Spn → β) (ps : Nat) (s t : State) : Prop where
  of_ne : g (s.spn ps) ≠ g {} → g (t.spn ps) = g (s.spn ps)

section
variable {β : Type} {g : Spn → β} {ps : Nat} {s t u : State}

theorem State.Stays.refl : State.Stays g ps s s := ⟨fun _ => rfl⟩

theorem State.Stays.trans (h : State.Stays g ps s t) (k : State.Stays g ps t u) : State.Stays g ps s u :=
  ⟨fun hn => (k.of_ne (fun e => hn ((h.of_ne hn).symm.trans e))).trans (h.of_ne hn)⟩

theorem State.Stays.of_keep {m : Nat} (h : Keep m s t) (hm : m.testBit 12 = true) : State.Stays g ps s t :=
  ⟨fun _ => by rw [State.spn_congr (h.spns hm)]⟩

/-- A spindle written whose view is that of the one that was there at first. -/
theorem State.Stays.setSpn_of {q : Nat} {x : Spn} (k : State.Stays g ps s t) (h : g x = g (s.spn q)) : State.Stays g ps s (t.setSpn q x) := ⟨fun hn => by
  rcases eq_or_ne ps q with rfl | hq
  · have hx : (t.setSpn ps x).spn ps = x := tget_tset_eq (fun e => hn (by rw [← h, e])) _
    rw [hx, h]
  · exact (congrArg g (tget_tset_ne hq _)).trans (k.of_ne hn)⟩

theorem State.Stays.setSpn {q : Nat} {x : Spn} (h : g x = g (s.spn q)) : State.Stays g ps s (s.setSpn q x) := .setSpn_of .refl h

theorem State.Stays.via (k : State.Stays g ps t u) (h : State.Stays g ps s t) : State.Stays g ps s u := h.trans k

theorem State.Stays.via_keep {m : Nat} (k : Keep m t u) (hm : m.testBit 12 = true) (h : State.Stays g ps s t) : State.Stays g ps s u :=
  h.trans (.of_keep k hm)

theorem State.Stays.foldl {α : Type} {f : State → α → State} (hf : ∀ u x, State.Stays g ps u (f u x)) {l : List α} (h : State.Stays g ps s t) :
    State.Stays g ps s (l.foldl f t) := by
  induction l generalizing t with
  | nil => exact h
  | cons x l ih => exact ih (h.trans (hf t x))

theorem State.Stays.ite {p : Prop} [Decidable p] (h : State.Stays g ps s t) (k : State.Stays g ps s u) :
    State.Stays g ps s (if p then t else u) := by
  split
  · exact h
  · exact k

end

/-! ### Queues that close (R277, R278). -/

/-- A spindle's inbound queues, sluice and operations in flight are not part of the view `g`. -/
def SparesQueues {β : Type} (g : Spn → β) : Prop := ∀ x inq sluice ops, g { x with inq := inq, sluice := sluice, ops := ops } = g x

section
variable {β : Type} {g : Spn → β} {ps : Nat}

theorem SparesQueues.starveQueue (hg : SparesQueues g) (x : Spn) (q : Nat) : g (x.starveQueue q) = g x := by
  have hp : ∀ (l : List Nat) (y : Spn), g (l.foldl (fun y o => y.poisonOp o) y) = g y := fun l => by
    induction l with
    | nil => exact fun _ => rfl
    | cons o l ih => exact fun y => (ih _).trans (hg y y.inq _ _)
  exact (hg (((tget {} x.inq q).posted).foldl (fun y o => y.poisonOp o) x) _ _ _).trans (hp _ _)

theorem State.closeQueue_stays (hg : SparesQueues g) (s : State) (q ctx n : Nat) : State.Stays g ps s (s.closeQueue q ctx n) := by
  have hx : g (Spn.starveQueue { s.spn q with inq := tset {} (s.spn q).inq n { tget {} (s.spn q).inq n with st := .closed, held := [] } } n) = g (s.spn q) :=
    (hg.starveQueue _ _).trans (hg (s.spn q) _ _ _)
  have hnote (d : Nat) (r : List (Nat × Nat × Nat)) (u : State) :
      State.Stays g ps u (if d = 0 then u else u.eventCtx 0x0403 (unitId 0 q) 1 ctx r) :=
    .ite .refl (.of_keep (State.eventCtx_keep ..) rfl)
  unfold State.closeQueue
  dsimp only
  split
  case h_3 => exact .refl
  all_goals
    split
    · exact .via (hnote ..) (.via_keep (State.sat_keep ..) rfl (.setSpn hx))
    · exact .via_keep (State.sendChan_keep ..) rfl (.via (hnote ..) (.via_keep (State.sat_keep ..) rfl (.setSpn hx)))

theorem State.closeQueues_stays (hg : SparesQueues g) (s : State) (q ctx : Nat) : State.Stays g ps s (s.closeQueues q ctx) :=
  .foldl (fun u n => State.closeQueue_stays hg u q ctx n) .refl

end

/-! ### Ends of contexts, stalls and knots (R110, R152, R280, R281). -/

/-- Nothing that waiting or the end of the context changes in a spindle is part of the view `g`. -/
def SparesWaits {β : Type} (g : Spn → β) : Prop :=
  ∀ x inq outq sluice ops dump, g { x with inq := inq, outq := outq, sluice := sluice, ops := ops, dump := dump } = g x

section
variable {β : Type} {g : Spn → β} {ps : Nat} (hg : SparesWaits g)
include hg

theorem SparesWaits.sparesQueues : SparesQueues g := fun x inq sluice ops => hg x inq x.outq sluice ops x.dump

theorem SparesWaits.chans (x : Spn) (outq : List (Nat × OutChan)) (inq : List (Nat × InQueue)) : g { x with outq := outq, inq := inq } = g x :=
  hg x inq outq x.sluice x.ops x.dump

theorem State.faultRunning_stays (s : State) (code : Nat) : State.Stays g ps s (s.faultRunning code) := by
  unfold State.faultRunning
  split
  · exact .refl
  · refine .ite .refl (.via_keep (State.giveWay_keep ..) rfl (.via_keep (State.contextLost_keep ..) rfl (.via_keep (State.modSlot_keep ..) rfl
      (.foldl (fun u q => .ite ?_ .refl) .refl))))
    exact .via_keep (State.setSpnState_keep ..) rfl (.via (.setSpn (hg _ _ _ _ _ _)) (.ite .refl (State.closeQueues_stays hg.sparesQueues ..)))

theorem State.spnFault_stays (s : State) (q code unit tag : Nat) (d : List (Nat × Nat × Nat)) :
    State.Stays g ps s (s.spnFault q code unit tag d) :=
  .via (State.faultRunning_stays hg ..) (.via_keep (State.wr_keep ..) rfl (.of_keep (State.event_keep ..) rfl))

theorem State.knotCheck_stays (s : State) : State.Stays g ps s s.knotCheck := by
  unfold State.knotCheck
  split
  · exact .refl
  · exact .ite .refl (.ite (.via (State.faultRunning_stays hg ..) (.via_keep (State.event_keep ..) rfl (.via_keep (State.wr64_keep ..) rfl
      (.of_keep (State.wr_keep ..) rfl)))) .refl)

theorem State.stallEvents_stays (s : State) (q : Nat) : State.Stays g ps s (s.stallEvents q) := by
  have htold (u : State) (outq : List (Nat × OutChan)) (inq : List (Nat × InQueue)) (d : List (Nat × Nat × Nat)) :
      State.Stays g ps u ((u.setSpn q { u.spn q with outq := outq, inq := inq }).event 0x0411 (unitId 0 q) 1 d) :=
    .via_keep (State.event_keep ..) rfl (.setSpn (hg.chans ..))
  unfold State.stallEvents
  refine .foldl (fun u c => ?_) .refl
  extract_lets x oc v y iq
  have hv : State.Stays g ps u v := .ite (htold ..) .refl
  exact .ite (.via (htold ..) hv) hv

theorem State.stallTick_stays (s : State) (q : Nat) (sends recvs : List Nat) : State.Stays g ps s (s.stallTick q sends recvs) := by
  unfold State.stallTick
  refine .ite (State.knotCheck_stays hg ..) (.via (State.knotCheck_stays hg ..) (.via (State.stallEvents_stays hg ..) ?_))
  refine .foldl (fun u c => .ite (.of_keep (State.sat_keep ..) rfl) .refl) (.foldl (fun u c => .ite (.of_keep (State.sat_keep ..) rfl) .refl) ?_)
  exact .setSpn (hg.chans ..)

theorem State.holdTick_stays (s : State) (q m : Nat) (sends recvs : List Nat) : State.Stays g ps s (s.holdTick q m sends recvs) := by
  unfold State.holdTick
  exact .via (State.stallTick_stays hg ..) (.ite (.via_keep (State.setSpnState_keep ..) rfl (.of_keep (State.countHold_keep ..) rfl))
    (.of_keep (State.countHold_keep ..) rfl))

theorem State.cycleDone_stays (s : State) (q : Nat) : State.Stays g ps s (s.cycleDone q) := by
  have hw : State.Stays g ps s ((s.add64 (Reg.SPN_SKC_LO q) 1).wf (Reg.SPN_STATE q) 15 8 0) :=
    .via_keep (State.wf_keep ..) rfl (.of_keep (State.add64_keep ..) rfl)
  unfold State.cycleDone
  exact .ite .refl (.via (State.stallTick_stays hg ..) (.ite (.via_keep (State.setSpnState_keep ..) rfl hw) hw))

end

/-- What stands still in a spindle that waits: its matching stores and pipelines, and where its strand is. -/
def Spn.still (x : Spn) : (List StoreEnt × List PipeEnt × List DWord) × Nat × List LoopEnt × BitVec 3 × Nat × Bool :=
  ((x.store, x.pipe, x.strand), x.pos, x.loops, x.phase, x.idleLeft, x.fresh)

theorem still_sparesWaits : SparesWaits Spn.still := fun _ _ _ _ _ _ => rfl

end Sys2Proof.Machine
end

section
/-! SUPPORT. The bundles of a strand (R128 to R135, R247). -/

namespace Sys2Proof.Machine

/-! ### Which bundle comes next (R128). -/

section
variable {s : State} {ps : Nat}

theorem State.nextKind_iff {k : Nat} : s.nextKind ps k = true ↔ s.strandRuns ps = true ∧ (s.spn ps).idleLeft = 0 ∧ (s.spn ps).kind = some k := by
  simp [State.nextKind, and_assoc]

theorem State.nextKind_false {k : Nat} (hk : (s.spn ps).kind ≠ some k) : s.nextKind ps k = false := by
  rw [Bool.eq_false_iff]
  exact fun h => hk (State.nextKind_iff.mp h).2.2

/-- A strand that runs loads nothing. -/
theorem State.load_of_strandRuns (h : s.strandRuns ps = true) : (s.spn ps).load = .none := by
  simp only [State.strandRuns, Bool.and_eq_true, beq_iff_eq] at h
  exact h.1.2

theorem State.nextKind_of_load {k : Nat} (h : (s.spn ps).load ≠ .none) : s.nextKind ps k = false := by
  rw [Bool.eq_false_iff]
  exact fun hk => h (State.load_of_strandRuns (State.nextKind_iff.mp hk).1)

/-- A strand with a next bundle has words. -/
theorem Spn.strand_ne_nil {x : Spn} {k : Nat} (h : x.kind = some k) : x.strand ≠ [] := by
  intro hs
  simp [Spn.kind, hs] at h

theorem Spn.still_ne_of_strand {x : Spn} (h : x.strand ≠ []) : x.still ≠ ({} : Spn).still := fun e => h (congrArg (fun v => v.1.2.2) e)

theorem Spn.still_ne_of_fresh {x : Spn} (h : x.fresh = false) : x.still ≠ ({} : Spn).still := fun e =>
  Bool.false_ne_true (h.symm.trans (congrArg (fun v => v.2.2.2.2.2) e))

/-- A spindle past a cycle is read back from any table. -/
theorem State.spn_setSpn_of_fresh {x : Spn} (h : x.fresh = false) : (s.setSpn ps x).spn ps = x :=
  tget_tset_eq (fun e => Spn.still_ne_of_fresh h (congrArg Spn.still e)) _

theorem State.spn_modSpn_of_fresh {f : Spn → Spn} (h : (f (s.spn ps)).fresh = false) : (s.modSpn ps f).spn ps = f (s.spn ps) :=
  State.spn_setSpn_of_fresh h

end

/-! ### Where a strand goes (R130, R131, R133). -/

/-- Leaving and turning loops moves the strand and its loops alone. -/
theorem loopTurn_eq : ∀ (n : Nat) (x : Spn), loopTurn n x = { x with pos := (loopTurn n x).pos, loops := (loopTurn n x).loops }
  | 0, _ => rfl
  | n + 1, x => by
    unfold loopTurn
    cases x.loops with
    | nil => rfl
    | cons l r =>
      dsimp only
      by_cases hp : x.pos = l.start + l.len
      · rw [if_pos hp]
        by_cases ht : l.iter + 1 < l.trip
        · rw [if_pos ht]
        · rw [if_neg ht]
          exact loopTurn_eq n { x with loops := r }
      · rw [if_neg hp]

theorem Spn.next_fresh (x : Spn) (n : Nat) : (x.next n).fresh = x.fresh := by
  unfold Spn.next
  rw [loopTurn_eq]

theorem Spn.next_phase (x : Spn) (n : Nat) : (x.next n).phase = x.phase := by
  unfold Spn.next
  rw [loopTurn_eq]

theorem idleAfter_fresh (x : Spn) : (idleAfter x).fresh = x.fresh := by
  unfold idleAfter
  generalize (if x.idleLeft = 0 then slot x.word 23 0 else x.idleLeft) - 1 = n
  by_cases hn : n = 0
  · rw [if_pos hn, Spn.next_fresh]
  · rw [if_neg hn]

theorem idleAfter_phase (x : Spn) : (idleAfter x).phase = x.phase := by
  unfold idleAfter
  generalize (if x.idleLeft = 0 then slot x.word 23 0 else x.idleLeft) - 1 = n
  by_cases hn : n = 0
  · rw [if_pos hn, Spn.next_phase]
  · rw [if_neg hn]

/-! ### One A-tick of a strand (R90). -/

section
variable {s : State} {ps : Nat} {slots : List (Nat × DWord)} {f : Flips} {after : Spn → Spn}

theorem State.strandTick_stops (h : s.drainStops ps = true) : s.strandTick ps slots f after = s.reachPoint ps := if_pos h

theorem State.strandTick_holds (h : s.drainStops ps = false) (hm : s.cycleCauses ps slots ≠ 0) :
    s.strandTick ps slots f after =
      s.holdTick ps (s.cycleCauses ps slots) (stallSends (s.spn ps) slots) (stallRecvs (s.spn ps) (s.gen ps) slots) := by
  unfold State.strandTick
  rw [if_neg (by rw [h]; exact Bool.false_ne_true)]
  exact if_pos hm

theorem State.strandTick_cycles (h : s.drainStops ps = false) (hm : s.cycleCauses ps slots = 0) (hx : (s.cycle ps slots f).spnState ps ≠ 0) :
    s.strandTick ps slots f after = ((s.cycle ps slots f).modSpn ps (fun y => after y.begun)).cycleDone ps := by
  unfold State.strandTick
  rw [if_neg (by rw [h]; exact Bool.false_ne_true)]
  dsimp only
  rw [if_neg (not_not_intro hm), if_neg hx]

/-- The spindle after a skein cycle has been laid down: where the strand has gone. -/
theorem State.still_cycleDone {g : Spn → Spn} (hg : ∀ y, (g y).fresh = y.fresh) :
    ((((s.cycle ps slots f).modSpn ps (fun y => g y.begun)).cycleDone ps).spn ps).still = (g ((s.cycle ps slots f).spn ps).begun).still := by
  have hf : (g ((s.cycle ps slots f).spn ps).begun).fresh = false := hg _
  have hr := State.spn_modSpn_of_fresh (s := s.cycle ps slots f) (ps := ps) (f := fun y => g y.begun) hf
  rw [(State.cycleDone_stays still_sparesWaits _ _).of_ne (by rw [hr]; exact Spn.still_ne_of_fresh hf), hr]

end

theorem execExec_completes {s : State} {ps : Fin 18} {f : Flips} (h : s.nextKind ps 0 = true) :
    exec (.exec ps true f) s = .next (s.badStrand ps) ∧
    (s.drainStops ps = true → exec (.exec ps false f) s = .next (s.reachPoint ps)) ∧
    (∀ m, s.drainStops ps = false → m ≠ 0 → m = s.cycleCauses ps (s.spn ps).slots →
      Runs (.exec ps false f) s [.regs, .out, .log, .nodes, .spns, .seqr, .prot, .irq, .fab, .coll, .reel, .logN]
        (fun t => t = s.holdTick ps m (stallSends (s.spn ps) (s.spn ps).slots) (stallRecvs (s.spn ps) (s.gen ps) (s.spn ps).slots) ∧
          (t.spn ps).pos = (s.spn ps).pos ∧ (t.spn ps).loops = (s.spn ps).loops ∧ (t.spn ps).store = (s.spn ps).store ∧ (t.spn ps).pipe = (s.spn ps).pipe)) ∧
    (∀ x, s.drainStops ps = false → x = s.cycle ps (s.spn ps).slots f → x.spnState ps ≠ 0 → s.cycleCauses ps (s.spn ps).slots = 0 →
      ∃ t, exec (.exec ps false f) s = .next t ∧ t = (x.modSpn ps (fun y => y.begun.next (1 + (s.spn ps).slots.length))).cycleDone ps ∧
        (t.spn ps).pos = ((x.spn ps).begun.next (1 + (s.spn ps).slots.length)).pos ∧ (t.spn ps).phase = (x.spn ps).phase + 1) := by
  have hx (bad : Bool) : exec (.exec ps bad f) s = if bad then .next (s.badStrand ps) else .next (s.strandTick ps (s.spn ps).slots f _) := if_pos h
  refine ⟨hx true, fun hd => (hx false).trans (congrArg Host.Outcome.next (State.strandTick_stops hd)), ?_, ?_⟩
  · rintro m hd hm rfl
    have hs := (State.holdTick_stays (ps := ps) still_sparesWaits s ps (s.cycleCauses ps (s.spn ps).slots) (stallSends (s.spn ps) (s.spn ps).slots)
      (stallRecvs (s.spn ps) (s.gen ps) (s.spn ps).slots)).of_ne (Spn.still_ne_of_strand (Spn.strand_ne_nil (State.nextKind_iff.mp h).2.2))
    exact Runs.of_next ((hx false).trans (congrArg Host.Outcome.next (State.strandTick_holds hd hm))) (Keep.alters _ (State.holdTick_keep ..) rfl)
      fun _ => ⟨rfl, congrArg (fun v => v.2.1) hs, congrArg (fun v => v.2.2.1) hs, congrArg (fun v => v.1.1) hs, congrArg (fun v => v.1.2.1) hs⟩
  · rintro x hd rfl hst hm
    have hs := State.still_cycleDone (s := s) (ps := ps) (slots := (s.spn ps).slots) (f := f)
      (g := fun y => y.next (1 + (s.spn ps).slots.length)) (fun y => y.next_fresh _)
    exact ⟨_, (hx false).trans (congrArg Host.Outcome.next (State.strandTick_cycles hd hm hst)), rfl, congrArg (fun v => v.2.1) hs,
      (congrArg (fun v => v.2.2.2.1) hs).trans (Spn.next_phase ..)⟩

theorem execIdle_completes {s : State} {ps : Fin 18} (h : s.strandRuns ps = true) (hk : 0 < (s.spn ps).idleLeft ∨ (s.spn ps).kind = some 1) :
    exec (.idle ps true) s = .next (s.badStrand ps) ∧
    (s.drainStops ps = true → exec (.idle ps false) s = .next (s.reachPoint ps)) ∧
    (∀ x, s.drainStops ps = false → x = s.cycle ps [] [] → x.spnState ps ≠ 0 → s.cycleCauses ps [] = 0 →
      ∃ t, exec (.idle ps false) s = .next t ∧ t = (x.modSpn ps (fun y => idleAfter y.begun)).cycleDone ps ∧
        (t.spn ps).pos = (idleAfter (x.spn ps).begun).pos ∧ (t.spn ps).idleLeft = (idleAfter (x.spn ps).begun).idleLeft ∧
        (t.spn ps).phase = (x.spn ps).phase + 1) := by
  have hc : (s.strandRuns ps && (decide (0 < (s.spn ps).idleLeft) || (s.spn ps).kind == some 1)) = true := by
    rw [h]
    simpa using hk
  have hx (bad : Bool) : exec (.idle ps bad) s = if bad then .next (s.badStrand ps) else .next (s.strandTick ps [] [] idleAfter) := if_pos hc
  refine ⟨hx true, fun hd => (hx false).trans (congrArg Host.Outcome.next (State.strandTick_stops hd)), ?_⟩
  rintro x hd rfl hst hm
  have hs := State.still_cycleDone (s := s) (ps := ps) (slots := []) (f := []) (g := idleAfter) idleAfter_fresh
  exact ⟨_, (hx false).trans (congrArg Host.Outcome.next (State.strandTick_cycles hd hm hst)), rfl, congrArg (fun v => v.2.1) hs,
    congrArg (fun v => v.2.2.2.2.1) hs, (congrArg (fun v => v.2.2.2.1) hs).trans (idleAfter_phase _)⟩

/-! ### LOOP (R131, R132). -/

theorem Spn.enterLoop_zero (x : Spn) : x.enterLoop 0 = x.next (1 + slot x.word 46 32) := by
  unfold Spn.enterLoop
  exact if_pos rfl

/-- The loop whose body a strand enters. -/
def Spn.entered (x : Spn) (trip : Word) : LoopEnt :=
  { trip := trip, iter := 0, start := x.pos + 1, len := slot x.word 46 32, dp := x.word.toNat.testBit 59 }

theorem Spn.enterLoop_pos {x : Spn} {trip : Word} (h : trip ≠ 0) :
    x.enterLoop trip = { x with pos := x.pos + 1, loops := x.entered trip :: x.loops } := by
  unfold Spn.enterLoop
  exact if_neg h

theorem slot_lt (w : DWord) (hi lo : Nat) : slot w hi lo < 2 ^ (hi + 1 - lo) := bitsOf_lt _ _ _

theorem runs_setSpn {c : Instr} {s : State} {ps : Nat} {x : Spn} {P : State → Prop} (h : exec c s = .next (s.setSpn ps x))
    (hP : ∀ t : State, t.spn ps = x → P t) : Runs c s [.spns] P := fun i =>
  ⟨_, h, Keep.alters _ (State.setSpn_keep ..) rfl, hP _ (State.spn_setSpn i.spns ps x)⟩

section
variable {s : State} {ps : Fin 18} (h : s.nextKind ps 2 = true)
include h

theorem exec_loop_bad : exec (.loop ps true) s = .next (s.badStrand ps) := (if_pos h).trans (if_pos rfl)

theorem exec_loop_stops (hd : s.drainStops ps = true) : exec (.loop ps false) s = .next (s.reachPoint ps) := by
  show execLoop ps s false = _
  unfold execLoop
  rw [if_pos h, if_neg Bool.false_ne_true, if_pos hd]

variable (hd : s.drainStops ps = false)
include hd

/-- A LOOP with its trip count in the bundle. -/
theorem exec_loop_fixed (hw : slot (s.spn ps).word 58 58 = 0) :
    exec (.loop ps false) s = .next (s.setSpn ps ((s.spn ps).enterLoop (BitVec.ofNat 32 (slot (s.spn ps).word 31 0)))) := by
  show execLoop ps s false = _
  unfold execLoop
  rw [if_pos h, if_neg Bool.false_ne_true, if_neg (by rw [hd]; exact Bool.false_ne_true)]
  exact if_pos hw

variable (hw : slot (s.spn ps).word 58 58 = 1)
include hw

/-- A LOOP whose trip count the store holds. -/
theorem exec_loop_counted {e : TripEnt} (he : (s.spn ps).trips.find? (fun e => e.steer == 28 + slot (s.spn ps).word 57 56 &&
      e.tag == tagOf (s.spn ps) (slot (s.spn ps).word 55 47)) = some e) :
    exec (.loop ps false) s = .next (s.setSpn ps (Spn.enterLoop { s.spn ps with trips := (s.spn ps).trips.erase e } e.count)) := by
  show execLoop ps s false = _
  unfold execLoop
  rw [if_pos h, if_neg Bool.false_ne_true, if_neg (by rw [hd]; exact Bool.false_ne_true)]
  dsimp only
  rw [if_neg (by rw [hw]; decide), he]

/-- A LOOP whose trip count has not come. -/
theorem exec_loop_waits (he : (s.spn ps).trips.find? (fun e => e.steer == 28 + slot (s.spn ps).word 57 56 &&
      e.tag == tagOf (s.spn ps) (slot (s.spn ps).word 55 47)) = none) :
    exec (.loop ps false) s = .next (s.holdTick ps (hSTEER_WAIT ||| s.cycleCauses ps []) [] []) := by
  show execLoop ps s false = _
  unfold execLoop
  rw [if_pos h, if_neg Bool.false_ne_true, if_neg (by rw [hd]; exact Bool.false_ne_true)]
  dsimp only
  rw [if_neg (by rw [hw]; decide), he]

end

theorem execLoop_completes {s : State} {ps : Fin 18} (h : s.nextKind ps 2 = true) :
    let x := s.spn ps
    let w := x.word
    let u := 28 + slot w 57 56
    let entry := x.trips.find? (fun e => e.steer == u && e.tag == tagOf x (slot w 55 47))
    exec (.loop ps true) s = .next (s.badStrand ps) ∧
    (s.drainStops ps = true → exec (.loop ps false) s = .next (s.reachPoint ps)) ∧
    (s.drainStops ps = false → slot w 58 58 = 0 → slot w 31 0 ≠ 0 →
      Runs (.loop ps false) s [.spns] (fun t => (t.spn ps).pos = x.pos + 1 ∧ (t.spn ps).trips = x.trips ∧
        ∃ l, (t.spn ps).loops = l :: x.loops ∧ l.trip = BitVec.ofNat 32 (slot w 31 0) ∧ l.iter = 0 ∧ l.start = x.pos + 1 ∧ l.len = slot w 46 32)) ∧
    (s.drainStops ps = false → slot w 58 58 = 0 → slot w 31 0 = 0 → Runs (.loop ps false) s [.spns] (fun t => t.spn ps = x.next (1 + slot w 46 32))) ∧
    (∀ e, s.drainStops ps = false → slot w 58 58 = 1 → entry = some e → e.count ≠ 0 →
      Runs (.loop ps false) s [.spns] (fun t => (t.spn ps).pos = x.pos + 1 ∧ (t.spn ps).trips = x.trips.erase e ∧
        ∃ l, (t.spn ps).loops = l :: x.loops ∧ l.trip = e.count ∧ l.iter = 0 ∧ l.start = x.pos + 1 ∧ l.len = slot w 46 32)) ∧
    (∀ e, s.drainStops ps = false → slot w 58 58 = 1 → entry = some e → e.count = 0 →
      Runs (.loop ps false) s [.spns] (fun t => t.spn ps = ({ x with trips := x.trips.erase e } : Spn).next (1 + slot w 46 32))) ∧
    (s.drainStops ps = false → slot w 58 58 = 1 → entry = none →
      exec (.loop ps false) s = .next (s.holdTick ps (hSTEER_WAIT ||| s.cycleCauses ps []) [] [])) := by
  intro x w u entry
  have henter {t : State} {y : Spn} {trip : Word} (ht : t.spn ps = y.enterLoop trip) (hne : trip ≠ 0) : t.spn ps =
      { y with pos := y.pos + 1, loops := y.entered trip :: y.loops } := ht.trans (Spn.enterLoop_pos hne)
  refine ⟨exec_loop_bad h, exec_loop_stops h, fun hd hw hn => ?_, fun hd hw h0 => ?_, fun e hd hw he hc => ?_, fun e hd hw he hc => ?_, exec_loop_waits h⟩
  · have hne : BitVec.ofNat 32 (slot w 31 0) ≠ 0 := fun e => hn (by
      have ht := congrArg BitVec.toNat e
      rwa [BitVec.toNat_ofNat, Nat.mod_eq_of_lt (slot_lt w 31 0)] at ht)
    refine runs_setSpn (exec_loop_fixed h hd hw) fun t ht => ?_
    rw [henter ht hne]
    exact ⟨rfl, rfl, _, rfl, rfl, rfl, rfl, rfl⟩
  · refine runs_setSpn (exec_loop_fixed h hd hw) fun t ht => ?_
    rw [ht, show slot (s.spn ps).word 31 0 = 0 from h0]
    exact Spn.enterLoop_zero x
  · refine runs_setSpn (exec_loop_counted h hd hw he) fun t ht => ?_
    rw [henter ht hc]
    exact ⟨rfl, rfl, _, rfl, rfl, rfl, rfl, rfl⟩
  · refine runs_setSpn (exec_loop_counted h hd hw he) fun t ht => ?_
    rw [ht, hc]
    exact Spn.enterLoop_zero _

/-! ### SECTION_END and CONTEXT_END (R100, R135). -/

theorem execSectionEnd_completes {s : State} {ps : Fin 18} (h : s.nextKind ps 3 = true) :
    exec (.sectionEnd ps true) s = .next (s.badStrand ps) ∧
    Runs (.sectionEnd ps false) s [.regs, .spns] (fun t =>
      t.spn ps = { s.spn ps with nextSect := slot (s.spn ps).word 23 0, pos := (s.spn ps).pos + 1, load := .draining } ∧
        t.spnState ps = (if s.spnState ps = 3 then 3 else 4) ∧ s.RegsBut t [Reg.SPN_STATE ps]) := by
  have hx (bad : Bool) : exec (.sectionEnd ps bad) s = .next (if bad then s.badStrand ps else s.endSegment ps) := if_pos h
  refine ⟨hx true, ?_⟩
  by_cases h3 : s.spnState ps = 3
  · have he : s.endSegment ps =
        s.setSpn ps { s.spn ps with nextSect := slot (s.spn ps).word 23 0, pos := (s.spn ps).pos + 1, load := .draining } := if_pos h3
    refine Runs.of_next ((hx false).trans (congrArg Host.Outcome.next he)) (Keep.alters _ (State.setSpn_keep ..) rfl)
      fun i => ⟨State.spn_setSpn i.spns _ _, ?_, State.RegsBut.of_regs rfl _⟩
    rw [if_pos h3]
    exact h3
  · have he : s.endSegment ps =
        (s.setSpn ps { s.spn ps with nextSect := slot (s.spn ps).word 23 0, pos := (s.spn ps).pos + 1, load := .draining }).setSpnState ps 4 := if_neg h3
    refine Runs.of_next ((hx false).trans (congrArg Host.Outcome.next he))
      (Keep.alters _ (Keep.via (m := 0x3FFFFEFFB) (State.setSpnState_keep ..) rfl ((State.setSpn_keep ..).mono rfl)) rfl)
      fun i => ⟨State.spn_setSpn i.spns _ _, ?_, State.setSpnState_but (s.setSpn ps _) _ _⟩
    rw [if_neg h3]
    exact State.spnState_setSpnState (s := s.setSpn ps _) i.regs (by decide)

theorem execDraining_completes {s : State} {ps : Fin 18} {b : Bool} (hd : s.drainsNow ps = true) (hn : (s.spn ps).drained (s.gen ps) = false) :
    ((s.spn ps).load = .draining → exec (.sectionEnd ps b) s = .next (s.drainTick ps)) ∧
    ((s.spn ps).load = .ending → exec (.contextEnd ps b) s = .next (s.drainTick ps)) := by
  refine ⟨fun hl => ?_, fun hl => ?_⟩
  all_goals
    have hk (k : Nat) : ¬ s.nextKind ps k = true := by
      rw [State.nextKind_of_load (by rw [hl]; decide)]
      exact Bool.false_ne_true
    exact (if_neg (hk _)).trans (if_pos ⟨hl, hd, hn⟩)

/-- What a strand's end leaves of its spindle as the queues close: send channels and stores. -/
def Spn.sending (x : Spn) : List (Nat × OutChan) × List StoreEnt × List DWord := (x.outq, x.store, x.strand)

theorem execContextEnd_completes {s : State} {ps : Fin 18} (h : s.nextKind ps 5 = true) :
    exec (.contextEnd ps true) s = .next (s.badStrand ps) ∧
    ∃ t, exec (.contextEnd ps false) s = .next t ∧ t = ((s.endMarks ps).closeQueues ps s.runCtx).modSpn ps (fun x => { x with load := .ending }) ∧
      (t.spn ps).load = .ending ∧ (t.spn ps).outq = (s.spn ps).outq ∧ (t.spn ps).store = (s.spn ps).store ∧ t.mem = s.mem := by
  have hx (bad : Bool) : exec (.contextEnd ps bad) s = if bad then .next (s.badStrand ps) else _ := if_pos h
  have hread (z : State) : (z.modSpn ps (fun x => { x with load := .ending })).spn ps = { z.spn ps with load := .ending } :=
    tget_tset_eq (fun e => LoadStep.noConfusion (congrArg Spn.load e)) _
  have hs : State.Stays Spn.sending ps s ((s.endMarks ps).closeQueues ps s.runCtx) :=
    .via (State.closeQueues_stays (fun _ _ _ _ => rfl) ..) (.of_keep (State.endMarks_keep ..) rfl)
  have hne : (s.spn ps).sending ≠ ({} : Spn).sending := fun e =>
    Spn.strand_ne_nil (State.nextKind_iff.mp h).2.2 (congrArg (fun v => v.2.2) e)
  refine ⟨hx true, _, hx false, rfl, ?_⟩
  rw [hread]
  exact ⟨rfl, congrArg (fun v => v.1) (hs.of_ne hne), congrArg (fun v => v.2.1) (hs.of_ne hne),
    ((State.modSpn_keep ..).mem rfl).trans (((State.closeQueues_keep ..).mem rfl).trans ((State.endMarks_keep ..).mem rfl))⟩

/-! ### STEP (R135, R356). -/

theorem State.rd64_wr64_self {s : State} (h : twf 0 s.regs = true) (a v : Nat) : (s.wr64 a v).rd64 a = v % 2 ^ 64 := by
  have hw : twf 0 (s.wr a v).regs = true := twf_tset h
  unfold State.rd64 State.wr64
  rw [State.rd_wr_self hw, State.rd_wr_ne hw _ (by omega), State.rd_wr_self h]
  omega

/-- The context that runs is read from SKN_STATUS and the slots (R157). -/
theorem State.runningSlot_of_but {s t : State} {l : List Nat} (h : s.RegsBut t l) (hl : Reg.SKN_STATUS ∉ l) (hs : t.seqr = s.seqr) :
    t.runningSlot = s.runningSlot := by
  unfold State.runningSlot State.slotOf State.runSlot
  rw [State.runCtx_of_but h hl, h.rf hl, hs]

/-- The state once a strand has passed its STEP. -/
def State.stepped (s : State) (ps : Nat) : State :=
  (s.wr64 (Reg.SPN_STEP_LO ps) (s.rd64 (Reg.SPN_STEP_LO ps) + 1)).modSpn ps (fun x => x.next 1)

theorem exec_step {s : State} {ps : Fin 18} {f : Flips} {j : Slot} (h : s.nextKind ps 4 = true) (hn : s.rd64 (Reg.SPN_STEP_LO ps) + 1 < 2 ^ 64)
    (hj : s.runningSlot = some j) :
    exec (.step ps f false) s = .next (if j.step.toNat < (s.stepped ps).leastStep j then (s.stepped ps).advanceStep f else s.stepped ps) := by
  have hj' : (s.stepped ps).runningSlot = some j :=
    (State.runningSlot_of_but (s.wr64_but (Reg.SPN_STEP_LO ps) _) (by simp [Reg.SKN_STATUS, Reg.SPN_STEP_LO]; omega)
      rfl).trans hj
  show execStep ps f s false = _
  unfold execStep
  rw [if_pos h, if_neg Bool.false_ne_true]
  dsimp only
  rw [if_neg (Nat.ne_of_lt hn)]
  change (match (s.stepped ps).runningSlot with | some j => _ | none => _) = _
  rw [hj']
  rfl

theorem execStep_waits {s : State} {ps : Fin 18} {f : Flips} {j : Slot} (h : s.nextKind ps 4 = true) (hn : s.rd64 (Reg.SPN_STEP_LO ps) + 1 < 2 ^ 64)
    (hj : s.runningSlot = some j) (hl : (s.stepped ps).leastStep j ≤ j.step.toNat) :
    Runs (.step ps f false) s [.regs, .spns] (fun t => t.rd64 (Reg.SPN_STEP_LO ps) = s.rd64 (Reg.SPN_STEP_LO ps) + 1 ∧
      t.spn ps = (s.spn ps).next 1 ∧ s.RegsBut t [Reg.SPN_STEP_LO ps, Reg.SPN_STEP_LO ps + 4]) := by
  refine Runs.of_next ((exec_step h hn hj).trans (congrArg Host.Outcome.next (if_neg (Nat.not_lt.mpr hl))))
    (Keep.alters _ (Keep.via (m := 0x3FFFFEFFB) (State.modSpn_keep ..) rfl ((State.wr64_keep ..).mono rfl)) rfl) fun i => ⟨?_, ?_, ?_⟩
  · exact (State.rd64_wr64_self i.regs _ _).trans (Nat.mod_eq_of_lt hn)
  · exact State.spn_setSpn (s := s.wr64 _ _) i.spns _ _
  · exact s.wr64_but _ _

/-! ### Bundles of another kind (R128). -/

theorem bundle_of_other_kind {s : State} {ps : Fin 18} {f : Flips} {b : Bool} (hr : s.strandRuns ps = true) (h0 : (s.spn ps).idleLeft = 0) :
    ((s.spn ps).kind ≠ some 0 → exec (.exec ps b f) s = .next s) ∧ ((s.spn ps).kind ≠ some 1 → exec (.idle ps b) s = .next s) ∧
    ((s.spn ps).kind ≠ some 2 → exec (.loop ps b) s = .next s) ∧ ((s.spn ps).kind ≠ some 3 → exec (.sectionEnd ps b) s = .next s) ∧
    ((s.spn ps).kind ≠ some 4 → exec (.step ps f b) s = .next s) ∧ ((s.spn ps).kind ≠ some 5 → exec (.contextEnd ps b) s = .next s) := by
  have hk {k : Nat} (hn : (s.spn ps).kind ≠ some k) : ¬ s.nextKind ps k = true := by
    rw [State.nextKind_false hn]
    exact Bool.false_ne_true
  have hl : (s.spn ps).load = .none := State.load_of_strandRuns hr
  refine ⟨fun hn => if_neg (hk hn), fun hn => if_neg ?_, fun hn => if_neg (hk hn), fun hn => (if_neg (hk hn)).trans (if_neg ?_),
    fun hn => if_neg (hk hn), fun hn => (if_neg (hk hn)).trans (if_neg ?_)⟩
  · rw [hr, h0]
    simpa using hn
  all_goals
    rw [hl]
    exact fun e => LoadStep.noConfusion e.1

/-- Settles O20: one lemma for each kind of bundle, by what one A-tick of a strand does. -/
theorem strandBundlesComplete : Obligations.StrandBundlesComplete :=
  ⟨fun _ _ _ h => execExec_completes h, fun _ _ h hk => execIdle_completes h hk, fun _ _ h => execLoop_completes h,
    fun _ _ _ h => execSectionEnd_completes h, fun _ _ _ hd hn => execDraining_completes hd hn,
    fun _ _ _ _ _ h hn hj hl => execStep_waits h hn hj hl,
    fun _ _ _ _ h hn hj hl => (exec_step h hn hj).trans (congrArg Host.Outcome.next (if_pos hl)),
    fun _ _ h => execContextEnd_completes h, fun _ _ _ _ hr h0 => bundle_of_other_kind hr h0⟩

end Sys2Proof.Machine
end

section
/-! SUPPORT. What a drain tick leaves of a spindle (R74, R81, R110). -/

namespace Sys2Proof.Machine

/-- Nothing that a drain tick moves in a spindle is part of the view `g`. -/
def SparesCycle {β : Type} (g : Spn → β) : Prop :=
  ∀ x pipe links store staleSeen drainN, g { x with pipe := pipe, links := links, store := store, staleSeen := staleSeen, drainN := drainN } = g x

section
variable {β : Type} {g : Spn → β} {ps : Nat} (hw : SparesWaits g) (hc : SparesCycle g)
include hw

theorem State.leaveFaults_stays (s : State) (q : Nat) : State.Stays g ps s (s.leaveFaults q) := by
  unfold State.leaveFaults
  refine .foldl (fun u l => .ite .refl (.ite (State.spnFault_stays hw ..) ?_)) .refl
  have hn : State.Stays g ps u (if (unitKind l.unit == some .mem && l.flit.pword != 0) = true then u.numFlags q FPOISON else u) :=
    .ite (.of_keep (State.numFlags_keep ..) rfl) .refl
  exact .ite (.via (State.spnFault_stays hw ..) hn) hn

include hc

/-- A cycle that fires nothing. -/
theorem State.cycle_stays (s : State) (q : Nat) (f : Flips) : State.Stays g ps s (s.cycle q [] f) := by
  unfold State.cycle
  refine .via (.ite .refl ?_) (State.leaveFaults_stays hw ..)
  generalize s.leaveFaults q = v
  have hx (n : Nat) (store : List StoreEnt) : State.Stays g ps v (((v.staleCount q n).setSpn q { (advance (v.spn q)).1 with store := store }).storeMarks q) := by
    have hs : State.Stays g ps v (v.staleCount q n) := .via (.setSpn (hc _ _ _ _ _ _)) (.of_keep (State.sat_keep ..) rfl)
    exact .via_keep (State.storeMarks_keep ..) rfl (.setSpn_of hs (hc (v.spn q) _ _ store _ _))
  dsimp -proj only
  split
  · exact .via (State.spnFault_stays hw ..) (hx ..)
  · exact hx ..

theorem State.drainTick_stays (s : State) (q : Nat) : State.Stays g ps s (s.drainTick q) := by
  have hn (m : Nat) : State.Stays g ps s (if (s.countHold q m).spnState q = 1 then (s.countHold q m).setSpnState q 2 else s.countHold q m) :=
    .ite (.via_keep (State.setSpnState_keep ..) rfl (.of_keep (State.countHold_keep ..) rfl)) (.of_keep (State.countHold_keep ..) rfl)
  have hm (held : Bool) (u : State) : State.Stays g ps u (if held = true then u else u.modSpn q (fun x => { x with drainN := x.drainN + 1 })) :=
    .ite .refl (.setSpn (hc (u.spn q) _ _ _ _ _))
  unfold State.drainTick
  extract_lets held a b c
  have hcy : State.Stays g ps s c := .via (.ite .refl (State.cycle_stays hw hc ..)) (hn _)
  exact .ite hcy (.via (State.stallTick_stays hw ..) (.via (hm held c) hcy))

end

end Sys2Proof.Machine
end

section
/-! SUPPORT. Drains and restores of a spindle (R103 to R110). -/

namespace Sys2Proof.Machine

/-! ### The request and its drain point (R103, R104, R109). -/

/-- The drain that a request asks for. -/
def State.newDrain (s : State) (ps : Nat) (why : DrainFor) : Drain :=
  { why := why, scan := (s.spn ps).cfg.dmode && !s.nextKind ps 3, asked := s.now, point := false, ready := false }

/-- A spindle whose drain is noted is read back from any table. -/
theorem State.spn_modSpn_drain (s : State) (ps : Nat) (d : Drain) :
    (s.modSpn ps (fun x => { x with drain := some d })).spn ps = { s.spn ps with drain := some d } :=
  tget_tset_eq (fun e => Option.some_ne_none d (congrArg Spn.drain e)) _

/-- A spindle that enters a state that holds nothing has no hold cause. -/
theorem State.holds_setSpnState {s : State} (h : twf 0 s.regs = true) {ps c : Nat} (hc : c = 0 ∨ c = 1 ∨ c = 5 ∨ c = 7) :
    (s.setSpnState ps c).rf (Reg.SPN_STATE ps) 15 8 = 0 := by
  have hv : setBits (setBits (s.rd (Reg.SPN_STATE ps)) 2 0 c) 15 8 0 < 2 ^ 32 :=
    setBits_lt (by decide) (by decide) (setBits_lt (by decide) (by decide) (s.rd_lt _))
  unfold State.rf State.setSpnState
  rw [State.rd_wr_self h]
  dsimp only
  rw [if_pos hc, Nat.mod_eq_of_lt hv, bitsOf_setBits_self]
  rfl

theorem runs_drainRequest {s : State} {ps : Fin 18} (why : DrainFor) (hd : (s.spn ps).drain = none)
    (hst : s.spnState ps = 1 ∨ s.spnState ps = 2 ∨ s.spnState ps = 4) :
    Runs (.drainRequest ps why) s [.regs, .spns] (fun t =>
      t.spn ps = { s.spn ps with drain := some (s.newDrain ps why) } ∧
        t.spnState ps = (if s.spnState ps = 4 then 4 else 3) ∧ s.RegsBut t [Reg.SPN_STATE ps] ∧ ∀ q, q ≠ ps.val → t.spn q = s.spn q) := by
  have hx : exec (.drainRequest ps why) s = .next (if s.spnState ps = 4 then s.modSpn ps (fun x => { x with drain := some (s.newDrain ps why) })
      else (s.modSpn ps (fun x => { x with drain := some (s.newDrain ps why) })).setSpnState ps 3) := congrArg Host.Outcome.next (if_pos ⟨hst, hd⟩)
  have hspn := s.spn_modSpn_drain ps (s.newDrain ps why)
  have hoth (q : Nat) (hq : q ≠ ps.val) : (s.modSpn ps (fun x => { x with drain := some (s.newDrain ps why) })).spn q = s.spn q := tget_tset_ne hq _
  by_cases h4 : s.spnState ps = 4
  · rw [if_pos h4] at hx
    refine Runs.of_next hx (Keep.alters _ (State.modSpn_keep ..) rfl) fun _ => ⟨hspn, ?_, State.RegsBut.of_regs rfl _, hoth⟩
    rw [if_pos h4]
    exact h4
  · rw [if_neg h4] at hx
    refine Runs.of_next hx (Keep.alters _ (Keep.via (m := 0x3FFFFEFFB) (State.setSpnState_keep ..) rfl ((State.modSpn_keep ..).mono rfl)) rfl)
      fun i => ⟨hspn, ?_, State.setSpnState_but (s.modSpn ps _) _ _, hoth⟩
    rw [if_neg h4]
    exact State.spnState_setSpnState (s := s.modSpn ps _) i.regs (by decide)

theorem drainRequest_again {s : State} {ps : Fin 18} (why : DrainFor) {d : Drain} (hd : (s.spn ps).drain = some d) :
    exec (.drainRequest ps why) s = .next s :=
  congrArg Host.Outcome.next (if_neg (fun h => Option.some_ne_none d (hd.symm.trans h.2)))

/-- What a drain says of its spindle is no part of what a drain tick changes. -/
theorem drain_spares : SparesWaits Spn.drain ∧ SparesCycle Spn.drain := ⟨fun _ _ _ _ _ _ => rfl, fun _ _ _ _ _ _ => rfl⟩

theorem State.drain_reachPoint {s : State} {ps : Nat} {d : Drain} (hd : (s.spn ps).drain = some d) :
    ((s.reachPoint ps).spn ps).drain = some { d with point := true } := by
  have hm : ((s.modSpn ps (fun x => { x with drain := x.drain.map (fun d => { d with point := true }) })).spn ps).drain = some { d with point := true } := by
    have hx : (s.modSpn ps (fun x => { x with drain := x.drain.map (fun d => { d with point := true }) })).spn ps =
        { s.spn ps with drain := (s.spn ps).drain.map (fun d => { d with point := true }) } :=
      tget_tset_eq (fun e => by
        have he : (s.spn ps).drain.map (fun d => { d with point := true }) = none := congrArg Spn.drain e
        rw [hd] at he
        cases he) _
    rw [hx, hd]
    rfl
  exact ((State.drainTick_stays drain_spares.1 drain_spares.2 ..).of_ne (by rw [hm]; exact Option.some_ne_none _)).trans hm

theorem drainPointReached_completes {s : State} {ps : Fin 18} {d : Drain} (hst : s.spnState ps = 3) (hd : (s.spn ps).drain = some d) :
    (s.drainStops ps = true → ∃ t, exec (.drainPointReached ps) s = .next t ∧ t = s.reachPoint ps ∧ (t.spn ps).drain = some { d with point := true }) ∧
    (s.drainStops ps = false → exec (.drainPointReached ps) s = .next s) :=
  ⟨fun h => ⟨_, if_pos ⟨hst, h⟩, rfl, State.drain_reachPoint hd⟩, fun h => if_neg (fun hn => Bool.false_ne_true (h.symm.trans hn.2))⟩

/-! ### Saving and the end of a drain (R104 to R106). -/

section
variable {s : State} {ps : Fin 18} {d : Drain} (hst : s.spnState ps = 3) (hd : (s.spn ps).drain = some d) (f : Flips)
include hd

theorem exec_runEmptyDrainDone (hst : s.spnState ps = 3) (hp : d.point = true) (hs : d.scan = false) (hr : d.ready = false) :
    exec (.runEmptyDrainDone ps f) s =
      if (s.spn ps).drained (s.gen ps) then
        .next (((if (s.spn ps).fresh then s else s.flushLeft ps).saveSpindle ps false f).modSpn ps (fun x => { x with drain := some { d with ready := true } }))
      else .next (s.drainTick ps) := by
  show execRunEmptyDrainDone ps s f = _
  unfold execRunEmptyDrainDone
  rw [hd]
  exact if_pos ⟨hp, hs, hr, hst⟩

theorem runEmptyDrainDone_early (hp : d.point = false) : exec (.runEmptyDrainDone ps f) s = .next s := by
  show execRunEmptyDrainDone ps s f = _
  unfold execRunEmptyDrainDone
  rw [hd]
  exact if_neg (fun h => Bool.false_ne_true (hp.symm.trans h.1))

theorem drainLimitExpiry_early (h : (s.now - d.asked).toNat < s.rd (Reg.SPN_DRAIN_CTL ps)) : exec (.drainLimitExpiry ps) s = .next s := by
  show execDrainLimitExpiry ps s = _
  unfold execDrainLimitExpiry
  rw [hd]
  exact if_neg (fun hn => Nat.not_le.mpr h hn.2.2.2)

theorem drainSaveWritten_early (h : d.ready = false) : exec (.drainSaveWritten ps) s = .next s := by
  show execDrainSaveWritten ps s = _
  unfold execDrainSaveWritten
  rw [hd]
  exact if_neg (fun hn => Bool.false_ne_true (h.symm.trans hn.1))

include hst

theorem runs_drainLimitExpiry (hp : d.point = false) (hs : d.scan = false) (hl : s.rd (Reg.SPN_DRAIN_CTL ps) ≤ (s.now - d.asked).toNat)
    (hroom : s.EventRoom 0x0314 (unitId 0 ps)) :
    Runs (.drainLimitExpiry ps) s [.regs, .log, .nodes, .spns, .irq, .logN] (fun t =>
      t.spn ps = { s.spn ps with drain := some { d with scan := true } } ∧
        t.Recorded (s.eventRec 0x0314 (unitId 0 ps) 1 [(17, 4, s.rd (Reg.SPN_SECT ps))])) := by
  have hx : exec (.drainLimitExpiry ps) s = .next ((s.modSpn ps (fun x => { x with drain := some { d with scan := true } })).event 0x0314 (unitId 0 ps) 1
      [(17, 4, s.rd (Reg.SPN_SECT ps))]) := by
    show execDrainLimitExpiry ps s = _
    unfold execDrainLimitExpiry
    rw [hd]
    exact if_pos ⟨hst, hp, hs, hl⟩
  refine Runs.of_next hx (Keep.alters _ (Keep.via (m := 0x3EFFDECFB) (State.event_keep ..) rfl ((State.modSpn_keep ..).mono rfl)) rfl) fun _ => ⟨?_, ?_⟩
  · exact (State.spn_congr ((State.event_keep ..).spns rfl) _).trans (s.spn_modSpn_drain ps _)
  · exact State.event_recorded_of_same (t := s.modSpn ps (fun x => { x with drain := some { d with scan := true } })) hroom rfl rfl rfl rfl _ _

theorem exec_scanDrainOpsDone (hs : d.scan = true) (hr : d.ready = false) :
    exec (.scanDrainOpsDone ps f) s =
      if (s.spn ps).inFlight.isEmpty then
        .next ((s.saveSpindle ps true f).modSpn ps (fun x => { x with drain := some { d with ready := true } }))
      else .next (s.waitTick ps) := by
  show execScanDrainOpsDone ps s f = _
  unfold execScanDrainOpsDone
  rw [hd]
  exact if_pos ⟨hs, hr, hst⟩

theorem runs_drainSaveWritten (hr : d.ready = true) :
    Runs (.drainSaveWritten ps) s [.regs, .spns] (fun t => t.spn ps = { s.spn ps with drain := none } ∧ t.spnState ps = 0 ∧
      t.rf (Reg.SPN_STATE ps) 15 8 = 0 ∧ t.gen ps = s.gen ps ∧ s.RegsBut t [Reg.SPN_STATE ps]) := by
  have hx : exec (.drainSaveWritten ps) s = .next ((s.modSpn ps (fun x => { x with drain := none })).setSpnState ps 0) := by
    show execDrainSaveWritten ps s = _
    unfold execDrainSaveWritten
    rw [hd]
    exact if_pos ⟨hr, hst⟩
  refine Runs.of_next hx (Keep.alters _ (Keep.via (m := 0x3FFFFEFFB) (State.setSpnState_keep ..) rfl ((State.modSpn_keep ..).mono rfl)) rfl) fun i =>
    ⟨State.spn_setSpn i.spns _ _, State.spnState_setSpnState (s := s.modSpn ps _) i.regs (by decide), ?_,
      State.gen_setSpnState (s := s.modSpn ps _) i.regs _ _, State.setSpnState_but (s.modSpn ps _) _ _⟩
  exact State.holds_setSpnState (s := s.modSpn ps _) i.regs (.inl rfl)

end

/-! ### Restores (R108). -/

/-- A spindle of the running context whose strand is to be restored (R108). -/
structure RestoreDue (s : State) (ps l : Nat) (j : Slot) : Prop where
  inv : s.Inv
  runs : s.runningSlot = some j
  logical : s.logicalOf ps = some l
  idle : s.spnState ps = 0
  running : j.st = .running
  started : (tget {} j.saved l).started = true
  unloaded : (s.spn ps).load = .none
  unended : s.rbit (Reg.SPN_STRAND ps) 6 = false
  staying : s.seqr.giving = none
  unmoved : s.hlth.moves.all (fun m => m.src != ps) = true

section
variable {s : State} {ps : Fin 18} {f : Flips} {j : Slot} {l : Nat} (h : RestoreDue s ps l j)
include h

theorem exec_spindleRestore_poisoned (hp : (s.devRead .sequencer (saveBase j.job l) 64 f).2.1 ≠ 0) :
    exec (.spindleRestore ps f) s = .next ((s.devRead .sequencer (saveBase j.job l) 64 f).2.2.2.spnFault ps 0x0316 0 0
      [(17, 1, 2), (18, 4, 8 * ((List.range 8).find? (fun i => (s.devRead .sequencer (saveBase j.job l) 64 f).2.1.testBit i)).getD 0)]) := by
  show execSpindleRestore ps f s = _
  unfold execSpindleRestore
  rw [h.runs, h.logical]
  dsimp only
  rw [if_pos ⟨h.idle, h.running, h.started, h.unloaded, h.unended, h.staying, h.unmoved⟩]
  exact if_pos hp

theorem exec_spindleRestore_bad {o : Nat} (hp : (s.devRead .sequencer (saveBase j.job l) 64 f).2.1 = 0)
    (hb : headerBad (s.devRead .sequencer (saveBase j.job l) 64 f).1 l = some o) :
    exec (.spindleRestore ps f) s =
      .next ((s.devRead .sequencer (saveBase j.job l) 64 f).2.2.2.spnFault ps 0x0316 0 0 [(17, 1, 1), (18, 4, o)]) := by
  show execSpindleRestore ps f s = _
  unfold execSpindleRestore
  rw [h.runs, h.logical]
  dsimp only
  rw [if_pos ⟨h.idle, h.running, h.started, h.unloaded, h.unended, h.staying, h.unmoved⟩, if_neg (not_not_intro hp), hb]

theorem spindleRestore_begins (hp : (s.devRead .sequencer (saveBase j.job l) 64 f).2.1 = 0)
    (hb : headerBad (s.devRead .sequencer (saveBase j.job l) 64 f).1 l = none) :
    ∃ t, exec (.spindleRestore ps f) s = .next t ∧
      t = ((s.devRead .sequencer (saveBase j.job l) 64 f).2.2.2.modSpn ps (fun x => { x with load := .restore })).setSpnState ps 3 ∧
      (t.spn ps).load = .restore ∧ t.spnState ps = 3 := by
  have hx : exec (.spindleRestore ps f) s =
      .next (((s.devRead .sequencer (saveBase j.job l) 64 f).2.2.2.modSpn ps (fun x => { x with load := .restore })).setSpnState ps 3) := by
    show execSpindleRestore ps f s = _
    unfold execSpindleRestore
    rw [h.runs, h.logical]
    dsimp only
    rw [if_pos ⟨h.idle, h.running, h.started, h.unloaded, h.unended, h.staying, h.unmoved⟩, if_neg (not_not_intro hp), hb]
  have i := (State.devRead_keep s .sequencer (saveBase j.job l) 64 f).inv h.inv
  generalize (s.devRead .sequencer (saveBase j.job l) 64 f).2.2.2 = r at hx i
  refine ⟨_, hx, rfl, ?_, State.spnState_setSpnState (s := r.modSpn ps _) i.regs (by decide)⟩
  have hr : (r.modSpn ps (fun x => { x with load := .restore })).spn ps = { r.spn ps with load := .restore } := State.spn_setSpn i.spns _ _
  exact congrArg Spn.load hr

end

theorem spindleRestoreProceed_completes {s : State} {ps : Fin 18} {f : Flips} {j : Slot} {l : Nat} (hj : s.runningSlot = some j) (hl : s.logicalOf ps = some l) :
    ((s.spn ps).load = .restore → s.spnState ps = 3 → (s.spn ps).inFlight = [] → exec (.spindleRestoreProceed ps f) s = .next (s.restoreFrom ps l j f)) ∧
    ((s.spn ps).load = .restore → s.spnState ps = 3 → (s.spn ps).inFlight ≠ [] → exec (.spindleRestoreProceed ps f) s = .next (s.waitTick ps)) ∧
    (((s.spn ps).load ≠ .restore ∨ s.spnState ps ≠ 3) → exec (.spindleRestoreProceed ps f) s = .next s) := by
  have hx : exec (.spindleRestoreProceed ps f) s =
      if (s.spn ps).load = .restore ∧ s.spnState ps = 3 then
        if (s.spn ps).inFlight.isEmpty then .next (s.restoreFrom ps l j f) else .next (s.waitTick ps)
      else .next s := by
    show execSpindleRestoreProceed ps f s = _
    unfold execSpindleRestoreProceed
    rw [hj, hl]
  refine ⟨fun h1 h2 h3 => ?_, fun h1 h2 h3 => ?_, fun h => ?_⟩
  · rw [hx, if_pos ⟨h1, h2⟩, if_pos (List.isEmpty_iff.mpr h3)]
  · rw [hx, if_pos ⟨h1, h2⟩, if_neg (fun e => h3 (List.isEmpty_iff.mp e))]
  · rw [hx, if_neg (fun hn => h.elim (fun k => k hn.1) (fun k => k hn.2))]

/-- Settles O22: the request, the drain point, the save, the limit and the restore, one lemma each. -/
theorem drainsAndRestoresComplete : Obligations.DrainsAndRestoresComplete := by
  refine ⟨fun s ps why _ hd hst => runs_drainRequest why hd hst, fun s ps why d hd => drainRequest_again why hd, ?drains, ?restores,
    fun s ps f j l hj hl => spindleRestoreProceed_completes hj hl, ?unrun⟩
  case drains =>
    refine fun s ps d f _ hst hd => ⟨(drainPointReached_completes hst hd).1, (drainPointReached_completes hst hd).2, fun hp hs hr hdr => ?_,
      fun hp hs hr hdr => ?_, runEmptyDrainDone_early hd f, runs_drainLimitExpiry hst hd, drainLimitExpiry_early hd, fun hs hr hf => ?_,
      fun hs hr hf => ?_, runs_drainSaveWritten hst hd, drainSaveWritten_early hd⟩
    · refine ⟨_, (exec_runEmptyDrainDone hd f hst hp hs hr).trans (if_pos hdr), rfl, ?_⟩
      rw [State.spn_modSpn_drain]
    · exact (exec_runEmptyDrainDone hd f hst hp hs hr).trans (if_neg (by rw [hdr]; exact Bool.false_ne_true))
    · refine ⟨_, (exec_scanDrainOpsDone hst hd f hs hr).trans (if_pos (List.isEmpty_iff.mpr hf)), rfl, ?_⟩
      rw [State.spn_modSpn_drain]
    · exact (exec_scanDrainOpsDone hst hd f hs hr).trans (if_neg (fun e => hf (List.isEmpty_iff.mp e)))
  case restores =>
    intro s ps f j l i hj hl hst hrun hsv hld hen hg hm
    have h : RestoreDue s ps l j := ⟨i, hj, hl, hst, hrun, hsv, hld, hen, hg, hm⟩
    exact ⟨spindleRestore_begins h, fun _ hp hb => exec_spindleRestore_bad h hp hb, exec_spindleRestore_poisoned h⟩
  case unrun =>
    intro s ps f hj
    refine ⟨?_, ?_⟩
    · show execSpindleRestore ps f s = _
      unfold execSpindleRestore
      rw [hj]
    · show execSpindleRestoreProceed ps f s = _
      unfold execSpindleRestoreProceed
      rw [hj]

end Sys2Proof.Machine
end

section
/-! SUPPORT. Positions and arrivals at a spindle (R81, R87, R95, R147, R248, R259). -/

namespace Sys2Proof.Machine

/-! ### Messages of the control network (R264, R268). -/

/-- A message that is not lost: its corrected flits are counted. -/
theorem State.ctlWay_heard (s : State) (cls : Nat) {w : CtlWay} (h : w.bad = none) :
    s.ctlWay cls w = (s.sat Reg.CNET_CE (w.ce + w.seamCe)).sat (Reg.SEAM_CE 2) w.seamCe := by
  unfold State.ctlWay
  rw [h]

theorem State.ctlWay_heard_keep (s : State) (cls : Nat) {w : CtlWay} (h : w.bad = none) : Keep 0x3FFFFFFFB s (s.ctlWay cls w) := by
  rw [s.ctlWay_heard cls h]
  exact (State.sat_keep ..).trans (State.sat_keep ..)

theorem State.ctlWay_heard_but (s : State) (cls : Nat) {w : CtlWay} (h : w.bad = none) : s.RegsBut (s.ctlWay cls w) [Reg.CNET_CE, Reg.SEAM_CE 2] := by
  rw [s.ctlWay_heard cls h]
  exact ((s.sat_but _ _).of_one (by decide)).trans ((State.sat_but _ _ _).of_one (by decide))

/-- A frame that leaves the map of the logical spindles and the strands of all spindles. -/
structure MapSpared (l : List Nat) : Prop where
  status : Reg.SKN_STATUS ∉ l
  map : ∀ n, n < 16 → Reg.SKN_LMAP n ∉ l
  strand : ∀ p, p < 32 → Reg.SPN_STRAND p ∉ l

theorem ctlWay_mapSpared : MapSpared [Reg.CNET_CE, Reg.SEAM_CE 2] := ⟨by decide, by decide, by decide⟩

section
variable {s t : State} {l : List Nat} (h : s.RegsBut t l) (hl : MapSpared l)
include h hl

theorem State.physOf_of_but {n : Nat} (hn : n < 16) : t.physOf n = s.physOf n := h.rf (hl.map n hn) 4 0

theorem State.lmapValid_of_but {n : Nat} (hn : n < 16) : t.lmapValid n = s.lmapValid n := by
  unfold State.lmapValid
  rw [h.rbit (hl.map n hn)]

theorem State.logicalOf_of_but (ps : Nat) : t.logicalOf ps = s.logicalOf ps :=
  List.find?_congr fun n hn => by
    rw [State.lmapValid_of_but h hl (List.mem_range.mp hn), State.physOf_of_but h hl (List.mem_range.mp hn)]

theorem State.ranOut_of_but (hs : t.spns = s.spns) {p : Nat} (hp : p < 32) : t.ranOut p = s.ranOut p := by
  unfold State.ranOut
  rw [h.rbit (hl.strand p hp), State.spn_congr hs]

/-- The strands that have not ended are read from the map, the running context and the spindles. -/
theorem State.liveLogical_of_but (hs : t.spns = s.spns) (hq : t.seqr = s.seqr) : t.liveLogical = s.liveLogical := by
  unfold State.liveLogical
  rw [State.runningSlot_of_but h hl.status hq]
  cases s.runningSlot with
  | none => rfl
  | some j =>
    refine List.filter_congr fun n _ => ?_
    by_cases hn : n < 16
    · rw [State.lmapValid_of_but h hl hn, State.physOf_of_but h hl hn, State.ranOut_of_but h hl hs (p := s.physOf n) (s.rf_lt _ 4 0)]
    · rw [State.lmapValid, State.lmapValid, decide_eq_false hn]
      rfl

theorem State.minPos_of_but (hs : t.spns = s.spns) (hq : t.seqr = s.seqr) : t.minPos = s.minPos := by
  unfold State.minPos
  rw [State.liveLogical_of_but h hl hs hq, hq]

end

/-! ### Positions and MINPOS (R146, R147). -/

theorem positionRegs_spared : ∀ ps : Fin 18, Reg.SPN_SKC_LO ps ∉ [Reg.CNET_CE, Reg.SEAM_CE 2] ∧ Reg.SPN_SKC_LO ps + 4 ∉ [Reg.CNET_CE, Reg.SEAM_CE 2] := by
  decide

theorem runs_positionReport {s : State} {ps : Fin 18} {w : CtlWay} {l : Nat} (hl : s.logicalOf ps = some l) (hw : w.bad = none)
    (hp : 256 ≤ s.rd64 (Reg.SPN_SKC_LO ps)) :
    Runs (.positionReport ps w) s [.regs, .seqr] (fun t =>
      tget 0 t.seqr.positions l = s.rd64 (Reg.SPN_SKC_LO ps) - s.rd64 (Reg.SPN_SKC_LO ps) % 256 ∧ s.RegsBut t [Reg.CNET_CE, Reg.SEAM_CE 2]) := by
  have hk := s.ctlWay_heard_keep 1 hw
  have hb := s.ctlWay_heard_but 1 hw
  have hv : (s.ctlWay 1 w).rd64 (Reg.SPN_SKC_LO ps) = s.rd64 (Reg.SPN_SKC_LO ps) := hb.rd64 (positionRegs_spared ps).1 (positionRegs_spared ps).2
  have hx : exec (.positionReport ps w) s = .next { s.ctlWay 1 w with seqr := { (s.ctlWay 1 w).seqr with
      positions := tset 0 (s.ctlWay 1 w).seqr.positions l (s.rd64 (Reg.SPN_SKC_LO ps) - s.rd64 (Reg.SPN_SKC_LO ps) % 256) } } := by
    show execPositionReport ps w s = _
    unfold execPositionReport
    dsimp only
    rw [State.logicalOf_of_but hb ctlWay_mapSpared, hl, hw, hv]
    rfl
  refine Runs.of_next hx ((Keep.setSeqr (m := 0x3FFFFDFFB) rfl (hk.mono rfl)).alters _ rfl) fun _ => ⟨tget_tset_eq ?_ _, hb⟩
  have := Nat.mod_lt (s.rd64 (Reg.SPN_SKC_LO ps)) (show 0 < 256 by decide)
  omega

theorem runs_minposBroadcast {s : State} {ps : Fin 18} {w : CtlWay} {m : Nat} (hm : s.minPos = some m) (hw : w.bad = none) :
    Runs (.minposBroadcast ps w) s [.regs, .spns] (fun t => t.spn ps = { s.spn ps with minpos := BitVec.ofNat 64 m } ∧
      t.rd64 Reg.SKN_MINPOS_LO = m % 2 ^ 64 ∧ ∀ q, q ≠ ps.val → t.spn q = s.spn q) := by
  have hk := s.ctlWay_heard_keep 1 hw
  have hx : exec (.minposBroadcast ps w) s = .next (((s.ctlWay 1 w).wr64 Reg.SKN_MINPOS_LO m).modSpn ps (fun x => { x with minpos := BitVec.ofNat 64 m })) := by
    show execMinposBroadcast ps w s = _
    unfold execMinposBroadcast
    dsimp only
    rw [State.minPos_of_but (s.ctlWay_heard_but 1 hw) ctlWay_mapSpared (hk.spns rfl) (hk.seqr rfl), hm, hw]
    rfl
  have hs : ((s.ctlWay 1 w).wr64 Reg.SKN_MINPOS_LO m).spns = s.spns := hk.spns rfl
  refine Runs.of_next hx ((Keep.via (m := 0x3FFFFEFFB) (State.modSpn_keep ..) rfl (((hk.trans (State.wr64_keep ..))).mono rfl)).alters _ rfl)
    fun i => ⟨?_, State.rd64_wr64_self (hk.inv i).regs _ _, fun q hq => (tget_tset_ne hq _).trans (State.spn_congr hs q)⟩
  rw [State.spn_modSpn (by rw [hs]; exact i.spns), State.spn_congr hs]

/-- A lost message is recorded, and does nothing more. -/
theorem lost_report {s : State} {ps : Fin 18} {w : CtlWay} {n : Fin 39} (h : w.bad = some n) :
    exec (.positionReport ps w) s = .next (s.ctlWay 1 w) ∧ exec (.minposBroadcast ps w) s = .next (s.ctlWay 1 w) := by
  constructor
  · show execPositionReport ps w s = _
    unfold execPositionReport
    rw [h]
    dsimp only
    split <;> rfl
  · show execMinposBroadcast ps w s = _
    unfold execMinposBroadcast
    rw [h]
    dsimp only
    split <;> rfl

/-! ### Tokens (R81). -/

theorem State.storeMarks_but (s : State) (ps : Nat) : s.RegsBut (s.storeMarks ps) [Reg.SPN_MS_HWM ps] := by
  unfold State.storeMarks
  dsimp only
  split
  · exact State.RegsBut.refl _ _
  · refine State.RegsBut.foldl (fun u n _ => ?_) (State.RegsBut.refl _ _)
    split
    · exact (State.wf_but _ _ _ _ _).trans (State.wf_but _ _ _ _ _)
    · exact State.RegsBut.refl _ _

theorem StoreEnt.same_new (u port : Nat) (fl : Flit) :
    ({ unit := u, port := port, flit := fl } : StoreEnt).same = fun y => y.unit == u && y.port == port && y.flit.tag == fl.tag := by
  funext y
  show (u == y.unit && port == y.port && fl.tag == y.flit.tag) = _
  rw [BEq.comm (a := u), BEq.comm (a := port), BEq.comm (a := fl.tag)]

section
variable {s : State} {ps : Fin 18} {u : Fin 51} {port : Fin 4} {fl : Flit} (hr : s.strandRuns ps = true ∨ s.drainsNow ps = true)
include hr

/-- The token is examined: the spindle is in a skein cycle or a drain tick. -/
theorem not_idle : ¬ ((!s.strandRuns ps && !s.drainsNow ps) = true) := by
  rcases hr with h | h <;> simp [h]

theorem exec_token_stale (ha : accepted (s.gen ps) fl.gen = false) (w : Option DWord) :
    exec (.tokenArrival ps u port fl w) s = .next (s.staleCount ps 1) := by
  show execTokenArrival ps u port fl w s = _
  unfold execTokenArrival
  dsimp only
  rw [if_neg (not_idle hr), if_pos (by rw [ha]; rfl)]

section
variable (ha : accepted (s.gen ps) fl.gen = true)
include ha

theorem exec_token_again (hd : (s.spn ps).store.any (fun y => y.unit == u.val && y.port == port.val && y.flit.tag == fl.tag) = true) (w : Option DWord) :
    exec (.tokenArrival ps u port fl w) s = .next (s.spnFault ps 0x0311 u fl.tag.toNat [(16, 1, u), (17, 1, port), (18, 1, fl.tag.toNat)]) := by
  have hd' : (s.spn ps).store.any ({ unit := u, port := port, flit := fl } : StoreEnt).same = true := by
    rw [StoreEnt.same_new]
    exact hd
  show execTokenArrival ps u port fl w s = _
  unfold execTokenArrival
  dsimp only
  rw [if_neg (not_idle hr), if_neg (by rw [ha]; exact Bool.false_ne_true), if_pos hd']

theorem exec_token_first (hd : (s.spn ps).store.any (fun y => y.unit == u.val && y.port == port.val && y.flit.tag == fl.tag) = false) :
    exec (.tokenArrival ps u port fl none) s =
      if 16 ≤ (s.spn ps).store.countP (fun y => y.unit == u.val) then
        .next ((s.storeMarks ps).spnFault ps 0x0310 u fl.tag.toNat [(16, 1, u), (17, 1, port), (18, 1, fl.tag.toNat)])
      else .next ((s.setSpn ps { s.spn ps with store := (s.spn ps).store ++ [{ unit := u, port := port, flit := fl }] }).storeMarks ps) := by
  have hd' : (s.spn ps).store.any ({ unit := u, port := port, flit := fl } : StoreEnt).same = false := by
    rw [StoreEnt.same_new]
    exact hd
  show execTokenArrival ps u port fl none s = _
  unfold execTokenArrival
  dsimp only
  rw [if_neg (not_idle hr), if_neg (by rw [ha]; exact Bool.false_ne_true), if_neg (by rw [hd']; exact Bool.false_ne_true)]

theorem runs_token_stored (hd : (s.spn ps).store.any (fun y => y.unit == u.val && y.port == port.val && y.flit.tag == fl.tag) = false)
    (hc : (s.spn ps).store.countP (fun y => y.unit == u.val) < 16) :
    Runs (.tokenArrival ps u port fl none) s [.regs, .spns] (fun t =>
      t.spn ps = { s.spn ps with store := (s.spn ps).store ++ [{ unit := u, port := port, flit := fl }] } ∧ s.RegsBut t [Reg.SPN_MS_HWM ps]) := by
  refine Runs.of_next ((exec_token_first hr ha hd).trans (if_neg (Nat.not_le.mpr hc)))
    ((Keep.via (m := 0x3FFFFEFFB) (State.storeMarks_keep ..) rfl ((State.setSpn_keep ..).mono rfl)).alters _ rfl) fun i =>
    ⟨(State.spn_congr ((State.storeMarks_keep ..).spns rfl) _).trans (State.spn_setSpn i.spns _ _), State.storeMarks_but (s.setSpn ps _) ps⟩

end

theorem runs_token_stale (ha : accepted (s.gen ps) fl.gen = false) (w : Option DWord) :
    Runs (.tokenArrival ps u port fl w) s [.regs, .spns] (fun t =>
      t.spn ps = { s.spn ps with staleSeen := (s.spn ps).staleSeen + 1 } ∧ t.rd (Reg.SPN_STALE_CNT ps) = min (s.rd (Reg.SPN_STALE_CNT ps) + 1) 0xFFFFFFFF ∧
      s.RegsBut t [Reg.SPN_STALE_CNT ps]) :=
  Runs.of_next (exec_token_stale hr ha w) ((State.staleCount_keep ..).alters _ rfl) fun i =>
    ⟨State.spn_modSpn (s := s.sat _ 1) i.spns _ _, State.rd_sat_self i.regs _ _, s.sat_but _ _⟩

end

/-! ### Fills and acknowledgements (R87, R93, R97, R259). -/

theorem Spn.opAnswered_ops (x : Spn) (op : Nat) : ∀ p ∈ (x.opAnswered op).ops, ∃ o ∈ x.ops, p.kind = o.kind := by
  intro p hp
  obtain ⟨o, ho, he⟩ := List.mem_filterMap.mp hp
  refine ⟨o, ho, ?_⟩
  split at he
  · split at he
    · cases he
    · cases he
      rfl
  · cases he
    rfl

theorem State.absorbCause_takeLoad (s : State) (m : RingLoad) (ps : Nat) : (s.takeLoad m).absorbCause ps = s.absorbCause ps := by
  have hk := s.takeLoad_keep m
  unfold State.absorbCause State.domOn State.spnState
  rw [hk.off rfl, hk.domsOff rfl, State.rf_congr (hk.regs rfl)]

theorem State.gen_takeLoad (s : State) (m : RingLoad) (ps : Nat) : (s.takeLoad m).gen ps = s.gen ps := by
  unfold State.gen
  rw [State.rf_congr ((s.takeLoad_keep m).regs rfl)]

/-- What a fill of an operation leaves of its spindle (R87). -/
def Spn.filled (x : Spn) (o : OpEnt) (op idx : Nat) (f : Flit) : Spn :=
  let y := { x with sluice := fillEntry x.sluice op (o.tag + BitVec.ofNat 8 idx) f }
  if o.kind = .atom then y else y.opAnswered op

theorem runs_sluiceFill {s : State} {ps : Fin 18} {op idx : Nat} {ctl : Bool} {data : List Byte} {poison : Nat} {o : OpEnt}
    (ho : (s.spn ps).ops.find? (fun o => o.id == op && decide (o.kind = .read ∨ o.kind = .atom ∨ o.kind = .recv)) = some o)
    (ha : s.absorbCause ps = 0) (hg : accepted (s.gen ps) o.resGen = true) :
    let x := s.takeLoad (.resp { dst := .spindle ps, op := op, data := data, poison := poison })
    Runs (.sluiceFill ps op idx ctl data poison) s [.out, .spns, .ring] (fun t => t.out = x.out ∧ t.ring = x.ring ∧
      (t.spn ps).sluice = fillEntry (s.spn ps).sluice op (o.tag + BitVec.ofNat 8 idx) (dataFlit data poison ctl) ∧
      (t.spn ps).ops = (if o.kind = .atom then (s.spn ps).ops else ((s.spn ps).opAnswered op).ops) ∧ (t.spn ps).store = (s.spn ps).store) := by
  intro x
  have hk : Keep 0x2FFFFFFBF s x := s.takeLoad_keep _
  have hx : exec (.sluiceFill ps op idx ctl data poison) s = .next (x.setSpn ps ((s.spn ps).filled o op idx (dataFlit data poison ctl))) := by
    show execSluiceFill ps op idx ctl data poison s = _
    unfold execSluiceFill
    dsimp only
    rw [ho]
    dsimp only
    rw [State.absorbCause_takeLoad, State.gen_takeLoad, if_neg (not_not_intro ha), if_neg (by rw [hg]; exact Bool.false_ne_true)]
    rfl
  refine Runs.of_next hx ((Keep.via (m := 0x2FFFFEFBF) (State.setSpn_keep ..) rfl (hk.mono rfl)).alters _ rfl) fun i => ⟨rfl, rfl, ?_⟩
  rw [State.spn_setSpn (by rw [hk.spns rfl]; exact i.spns)]
  unfold Spn.filled
  split <;> exact ⟨rfl, rfl, rfl⟩

theorem find?_id_none {l : List OpEnt} {op : Nat} (h : ∀ o ∈ l, o.id ≠ op) (p : OpEnt → Bool) : l.find? (fun o => o.id == op && p o) = none :=
  List.find?_eq_none.mpr fun o ho e => h o ho (beq_iff_eq.mp (Bool.and_eq_true_iff.mp e).1)

/-- Answers of no operation are counted as late (R97). -/
theorem runs_late_answers {s : State} {ps : Fin 18} {op idx : Nat} {ctl bad : Bool} {old : DWord} {data : List Byte} {poison : Nat}
    (h : ∀ o ∈ (s.spn ps).ops, o.id ≠ op) :
    Runs (.sluiceFill ps op idx ctl data poison) s [.regs, .out, .ring] (fun t => t.rd Reg.RING_LATE = min (s.rd Reg.RING_LATE + 1) 0xFFFFFFFF) ∧
    Runs (.completionAck ps op bad old) s [.regs] (fun t => t.rd Reg.RING_LATE = min (s.rd Reg.RING_LATE + 1) 0xFFFFFFFF) := by
  constructor
  · have hk := s.takeLoad_keep (.resp { dst := .spindle ps, op := op, data := data, poison := poison })
    have hx : exec (.sluiceFill ps op idx ctl data poison) s =
        .next ((s.takeLoad (.resp { dst := .spindle ps, op := op, data := data, poison := poison })).sat Reg.RING_LATE 1) := by
      show execSluiceFill ps op idx ctl data poison s = _
      unfold execSluiceFill
      dsimp only
      rw [find?_id_none h]
    refine Runs.of_next hx ((Keep.via (m := 0x2FFFFFFBB) (State.sat_keep ..) rfl (hk.mono rfl)).alters _ rfl) fun i => ?_
    rw [State.rd_sat_self (by rw [hk.regs rfl]; exact i.regs), State.rd_congr (hk.regs rfl)]
    rfl
  · have hx : exec (.completionAck ps op bad old) s = .next (s.sat Reg.RING_LATE 1) := by
      show execCompletionAck ps op bad old s = _
      unfold execCompletionAck
      dsimp only
      rw [find?_id_none h]
    exact Runs.of_next hx ((State.sat_keep ..).alters _ rfl) fun i => State.rd_sat_self i.regs _ _

/-- A spindle whose counter is one further (R259). -/
def Spn.counted (x : Spn) (c : Nat) : Spn :=
  { x with counters := tset 0 x.counters c (BitVec.ofNat 32 (x.counter c + 1)) }

theorem State.raiseCounter_counted {s : State} {ps c : Nat} {x : Spn} (hx : (s.setSpn ps x).spn ps = x)
    (hy : ((s.setSpn ps x).setSpn ps (x.counted c)).spn ps = x.counted c) (hw : ∀ o ∈ x.ops, o.kind ≠ .watch) :
    (s.setSpn ps x).raiseCounter ps c 1 false = (s.setSpn ps x).setSpn ps (x.counted c) := by
  have hm : (s.setSpn ps x).raiseCounter ps c 1 false = ((s.setSpn ps x).setSpn ps (x.counted c)).fillWatch ps c := by
    unfold State.raiseCounter State.modSpn
    rw [hx]
    rfl
  refine hm.trans (State.fillWatch_waits fun o ho hk _ => ?_)
  rw [hy] at ho
  exact absurd hk (hw o ho)

theorem runs_completionAck {s : State} {ps : Fin 18} {op : Nat} {old : DWord} {o : OpEnt}
    (ho : (s.spn ps).ops.find? (fun o => o.id == op && decide (o.kind = .write ∨ o.kind = .atom ∨ o.kind = .jobWrite)) = some o)
    (ha : s.absorbCause ps = 0) (hk : o.kind = .write) (hl : (s.spn ps).load ≠ .start) (hw : ∀ p ∈ (s.spn ps).ops, p.kind ≠ .watch)
    (hc : (s.spn ps).counter o.cnt + 1 < 2 ^ 32) :
    Runs (.completionAck ps op false old) s [.spns] (fun t =>
      tget 0 (t.spn ps).counters o.cnt = BitVec.ofNat 32 ((s.spn ps).counter o.cnt + 1) ∧ (t.spn ps).ops = ((s.spn ps).opAnswered op).ops ∧
      (t.spn ps).sluice = (s.spn ps).sluice) := by
  intro i
  have hs : twf ({} : Spn) (s.setSpn ps ((s.spn ps).opAnswered op)).spns = true := twf_tset i.spns
  have hwa : ∀ p ∈ ((s.spn ps).opAnswered op).ops, p.kind ≠ .watch := fun p hp => by
    obtain ⟨q, hq, e⟩ := (s.spn ps).opAnswered_ops op p hp
    exact e ▸ hw q hq
  have hx : exec (.completionAck ps op false old) s = .next ((s.setSpn ps ((s.spn ps).opAnswered op)).setSpn ps (((s.spn ps).opAnswered op).counted o.cnt)) := by
    show execCompletionAck ps op false old s = _
    unfold execCompletionAck
    dsimp only
    rw [ho]
    dsimp only
    rw [if_neg (not_not_intro ha), hk, if_neg (fun e => e.elim hl (by decide)), if_pos (by decide),
      State.raiseCounter_counted (State.spn_setSpn i.spns ..) (State.spn_setSpn hs ..) hwa]
  refine ⟨_, hx, (Keep.via (m := 0x3FFFFEFFF) (State.setSpn_keep ..) rfl ((State.setSpn_keep ..).mono rfl)).alters _ rfl, ?_⟩
  dsimp only
  rw [State.spn_setSpn hs]
  refine ⟨tget_tset_eq (fun e => ?_) _, rfl, rfl⟩
  have hn : (BitVec.ofNat 32 ((s.spn ps).counter o.cnt + 1)).toNat = 0 := congrArg BitVec.toNat e
  rw [BitVec.toNat_ofNat, Nat.mod_eq_of_lt hc] at hn
  exact Nat.succ_ne_zero _ hn

/-! ### Accesses to the banks from outside (R95, R248). -/

/-- What a request that reaches the banks of a spindle leaves. -/
def State.bankServe (s : State) (ps : Nat) (r : MemReq) (f : Flips) : State :=
  if s.strayReq ps r then s.serveStray ps r else s.serveExternal r f

section
variable (s : State) (ps : Fin 18) (r : MemReq) (f : Flips)

theorem exec_bankExternalAccess :
    (s.bankReq ps r = true → s.mayServe r = true → exec (.bankExternalAccess ps r f) s = .next (s.bankServe ps r f)) ∧
    ((s.bankReq ps r = false ∨ s.mayServe r = false) → exec (.bankExternalAccess ps r f) s = .next s) := by
  refine ⟨fun h1 h2 => if_pos (by rw [h1, h2]; rfl), fun h => if_neg fun e => ?_⟩
  obtain ⟨h1, h2⟩ := Bool.and_eq_true_iff.mp e
  exact h.elim (fun k => Bool.false_ne_true (k.symm.trans h1)) (fun k => Bool.false_ne_true (k.symm.trans h2))

theorem exec_bankSteal (n : Nat) :
    exec (.bankSteal ps r n f) s =
      if s.bankReq ps r = true ∧ s.mayServe r = true ∧ 256 ≤ n then
        .next ((if s.strandRuns ps then s.holdTick ps (hBANK_STEAL ||| s.cycleCauses ps (s.spn ps).nextSlots) (stallSends (s.spn ps) (s.spn ps).nextSlots)
          (stallRecvs (s.spn ps) (s.gen ps) (s.spn ps).nextSlots) else s).bankServe ps r f)
      else .next s := rfl

theorem exec_bankSteal_not {n : Nat} (h : n < 256 ∨ s.bankReq ps r = false ∨ s.mayServe r = false) : exec (.bankSteal ps r n f) s = .next s := by
  rw [exec_bankSteal, if_neg]
  rintro ⟨h1, h2, h3⟩
  rcases h with h | h | h
  · exact Nat.not_le.mpr h h3
  · exact Bool.false_ne_true (h.symm.trans h1)
  · exact Bool.false_ne_true (h.symm.trans h2)

end

theorem exec_sramScrub_clean {s : State} {ps : Fin 18} {bank : Fin 16} {line : Fin 12288} {f : Flips}
    (h : ∀ j, j < 32 → flipOf f (sramKey ps (0x300000 * bank + 256 * line) + 8 * j) = 0) : exec (.sramScrub ps bank line f) s = .next s := by
  have hr : (State.readWords 32 s (sramKey ps (0x300000 * bank + 256 * line)) srcScrub f).2.2.2 = s :=
    (State.readWords_bank (by unfold sramKey; omega) (by unfold sramKey; omega) h).2.2
  show execSramScrub ps bank line f s = _
  unfold execSramScrub
  rw [hr]
  exact ite_self _

/-- Settles O23: one lemma for each kind of arrival. -/
theorem spindleArrivalsComplete : Obligations.SpindleArrivalsComplete := by
  refine ⟨fun s ps w l hl hw hp => runs_positionReport hl hw hp, fun s ps w m _ hm hw => runs_minposBroadcast hm hw,
    fun s ps w n hw _ => lost_report hw, ?tokens, fun s ps op idx ctl data poison o _ ho ha hg => runs_sluiceFill ho ha hg,
    fun s ps op idx ctl bad old data poison _ h => runs_late_answers h,
    fun s ps op old o _ ho ha hk hl hw hc => runs_completionAck ho ha hk hl hw hc, ?banks,
    fun s ps bank line f h => exec_sramScrub_clean h⟩
  case tokens =>
    exact fun s ps u port fl _ hr => ⟨runs_token_stored hr, runs_token_stale hr, fun w ha hd => exec_token_again hr ha hd w,
      fun ha hd hc => (exec_token_first hr ha hd).trans (if_pos hc)⟩
  case banks =>
    refine fun s ps r f => ⟨(exec_bankExternalAccess s ps r f).1, (exec_bankExternalAccess s ps r f).2, fun n h1 h2 hn hs => ?_, fun n h1 h2 hn hs => ?_,
      fun n => exec_bankSteal_not s ps r f⟩
    · rw [exec_bankSteal, if_pos ⟨h1, h2, hn⟩, hs]
      rfl
    · rw [exec_bankSteal, if_pos ⟨h1, h2, hn⟩, hs]
      rfl

end Sys2Proof.Machine
end

section
/-! SUPPORT. Loads, quanta and switches of contexts (R149 to R154, R364, R535, R589). -/

namespace Sys2Proof.Machine

/-! ### The load in progress (R149 to R151, R535). -/

section
variable {s : State} {f : Flips} {a : Nat} (hl : s.cq.loading = some a)
include hl

/-- No service, no straps that allow it, or no revision loaded. -/
theorem exec_load_unserved {x : State} (hx : (s.devRead .sequencer a 1024 f).2.2.2 = x)
    (h : x.devState ≠ stService ∨ x.rbit Reg.CMD_STRAPS 14 = true ∨ x.numRev = 0) : exec (.ctxLoadValidated f) s = .next (x.loadEnds stBAD_STATE []) := by
  subst hx
  show execCtxLoadValidated f s = _
  unfold execCtxLoadValidated
  rw [hl]
  exact if_pos h

/-- The device serves loads: SERVICE, the strap clear, one revision loaded. -/
structure LoadServed (x : State) : Prop where
  state : x.devState = stService
  strap : x.rbit Reg.CMD_STRAPS 14 = false
  rev : x.numRev ≠ 0

omit hl in
theorem LoadServed.not_refused {x : State} (h : LoadServed x) : ¬ (x.devState ≠ stService ∨ x.rbit Reg.CMD_STRAPS 14 = true ∨ x.numRev = 0) := by
  rintro (e | e | e)
  · exact e h.state
  · exact Bool.false_ne_true (h.strap.symm.trans e)
  · exact h.rev e

variable {x : State} (hx : (s.devRead .sequencer a 1024 f).2.2.2 = x) (hs : LoadServed x)
include hx hs

theorem exec_load_busy (hn : x.freeSlot = none) : exec (.ctxLoadValidated f) s = .next (x.loadEnds stBUSY []) := by
  subst hx
  show execCtxLoadValidated f s = _
  unfold execCtxLoadValidated
  rw [hl]
  dsimp only
  rw [if_neg hs.not_refused, hn]

variable {n : Nat} (hn : x.freeSlot = some n) (ht : x.tstrictRuns = false)
include hn ht

theorem exec_load_poisoned (hp : (s.devRead .sequencer a 1024 f).2.1 ≠ 0) : exec (.ctxLoadValidated f) s = .next (x.loadEnds stHW_FAULT []) := by
  subst hx
  show execCtxLoadValidated f s = _
  unfold execCtxLoadValidated
  rw [hl]
  dsimp only
  rw [if_neg hs.not_refused, hn]
  dsimp only
  rw [ht, if_neg Bool.false_ne_true, if_pos hp]

variable (hp : (s.devRead .sequencer a 1024 f).2.1 = 0)
include hp

theorem exec_load_malformed (hd : descOk (s.devRead .sequencer a 1024 f).1 = false) :
    exec (.ctxLoadValidated f) s = .next (x.loadEnds stOUT_OF_RANGE []) := by
  subst hx
  show execCtxLoadValidated f s = _
  unfold execCtxLoadValidated
  rw [hl]
  dsimp only
  rw [if_neg hs.not_refused, hn]
  dsimp only
  rw [ht, if_neg Bool.false_ne_true, if_neg (not_not_intro hp), if_pos hd]

omit hl hx hs hn ht hp in
/-- A descriptor whose fields, image and seals a load accepts, without a channel table (R118, R367, R535). -/
structure DescGood (x : State) (b : List Byte) : Prop where
  fields : descOk b = true
  recordable : (jobOf b).recLen = 0 ∨ x.rbit Reg.SEC_DBG 2 = false
  aligned : (jobOf b).img % 4096 = 0
  dram : inDram (jobOf b).img (jobOf b).len = true
  short : (jobOf b).len ≤ 0x40000000
  noTable : (jobOf b).chtab = 0
  seals : sealsOk [] (jobOf b).seals = true

omit hl hx hs hn ht hp in
/-- What a load reads of its image, `r`, is accepted: sound, well formed, for lanes and a revision the device has (R149, R150). -/
structure ImageGood (r : List Byte × Nat × Bool × State) : Prop where
  sound : r.2.1 = 0
  formed : imageBad r.1 = none
  lanes : (skHead r.1).lcount ≤ r.2.2.2.lCount
  rev : (skHead r.1).numrev = 0 ∨ (skHead r.1).numrev = r.2.2.2.numRev
  table : tableBad (List.replicate (1024 * (skHead r.1).lcount) 0) r.1 (skHead r.1).lcount r.2.2.2.coord = none

theorem exec_load_accepted {b : List Byte} (hb : (s.devRead .sequencer a 1024 f).1 = b) (hd : DescGood x b)
    (hr : ImageGood (x.devRead .sequencer (jobOf b).img (jobOf b).len f)) :
    let r := x.devRead .sequencer (jobOf b).img (jobOf b).len f
    exec (.ctxLoadValidated f) s = .next (r.2.2.2.accept n (jobOf b) r.1 (List.replicate (1024 * (skHead r.1).lcount) 0)) := by
  subst hx hb
  intro r
  show execCtxLoadValidated f s = _
  unfold execCtxLoadValidated
  rw [hl]
  dsimp only
  rw [if_neg hs.not_refused, hn]
  dsimp only
  rw [ht, if_neg Bool.false_ne_true, if_neg (not_not_intro hp), if_neg (by rw [hd.fields]; decide),
    if_neg (fun e => hd.recordable.elim e.1 (fun k => Bool.false_ne_true (k.symm.trans e.2))),
    if_neg (by rw [hd.dram]; exact fun e => e.elim (fun k => k hd.aligned) (fun e => e.elim (by decide) (Nat.not_lt.mpr hd.short))),
    if_neg (not_not_intro hr.sound), hr.formed]
  dsimp only
  rw [if_neg (Nat.not_lt.mpr hr.lanes), if_neg (fun e => hr.rev.elim e.1 e.2), if_pos hd.noTable]
  dsimp only
  rw [if_neg (not_not_intro rfl), hr.table]
  exact if_pos hd.seals

end

/-! ### Quanta (R152, R364). -/

theorem exec_quantumExpiry_idle {s : State} (h : s.runCtx = 0) : exec .quantumExpiry s = .next s := by
  show execQuantumExpiry s = _
  unfold execQuantumExpiry
  rw [show s.runningSlot = none from if_pos h]

/-- A running context that gives way to a quantum: nothing binds it, and none asked before. -/
structure QuantumDue (s : State) (j : Slot) : Prop where
  runs : s.runningSlot = some j
  running : j.st = .running
  free : j.tstrict = false
  clean : s.quarActive = false
  set : s.rd Reg.SKN_QUANTUM ≠ 0
  staying : s.seqr.giving = none

theorem State.drainAll_gives {s : State} (hg : s.seqr.giving = none) (w : GiveWay) :
    (s.giveWay w).seqr = { s.seqr with giving := some w, gaveAt := s.now } := by
  unfold State.giveWay
  rw [hg]
  rfl

section
variable {s : State} {j : Slot} (h : QuantumDue s j)
include h

theorem runs_quantumExpiry (hq : s.rd Reg.SKN_QUANTUM ≤ (s.now - j.startTick).toNat) :
    Runs .quantumExpiry s [.regs, .spns, .seqr] (fun t => t.seqr.giving = some .quantum ∧ t.seqr.target = none ∧ t.seqr.slots = s.seqr.slots) := by
  have hx : exec .quantumExpiry s = .next ((({ s with seqr := { s.seqr with target := none } } : State).giveWay .quantum).drainAll j) := by
    show execQuantumExpiry s = _
    unfold execQuantumExpiry
    rw [h.runs]
    dsimp only
    rw [if_pos ⟨h.running, h.free, h.clean, h.set, h.staying, hq⟩]
    unfold State.beginSwitch
    dsimp only
    rw [show ({ s with seqr := { s.seqr with target := none } } : State).runningSlot = some j from h.runs]
  have hk : Keep 0x3FFFFDFFF s (({ s with seqr := { s.seqr with target := none } } : State).giveWay .quantum) :=
    Keep.via (State.giveWay_keep ..) rfl (Keep.setSeqr rfl (Keep.refl _ _))
  have hd : ((({ s with seqr := { s.seqr with target := none } } : State).giveWay .quantum).drainAll j).seqr =
      { s.seqr with target := none, giving := some .quantum, gaveAt := s.now } :=
    ((State.drainAll_keep ..).seqr rfl).trans (State.drainAll_gives (s := { s with seqr := { s.seqr with target := none } }) h.staying .quantum)
  refine Runs.of_next hx ((Keep.via (m := 0x3FFFFCFFB) (State.drainAll_keep ..) rfl (hk.mono rfl)).alters _ rfl) fun _ => ?_
  rw [hd]
  exact ⟨rfl, rfl, rfl⟩

theorem exec_quantumExpiry_early (hq : (s.now - j.startTick).toNat < s.rd Reg.SKN_QUANTUM) : exec .quantumExpiry s = .next s := by
  show execQuantumExpiry s = _
  unfold execQuantumExpiry
  rw [h.runs]
  exact if_neg fun e => Nat.not_le.mpr hq e.2.2.2.2.2

end

/-! ### Switches (R103, R152). -/

theorem State.giveWayRun_idle {s : State} (h : s.runCtx = 0) : s.giveWayRun = s := by
  unfold State.giveWayRun
  rw [show s.runningSlot = none from if_pos h]

theorem State.runCtx_of_runningSlot {s : State} {j : Slot} (h : s.runningSlot = some j) : s.runCtx ≠ 0 := fun e => by
  rw [State.runningSlot, if_pos e] at h
  cases h

theorem State.startRun_runs (s : State) (f : Flips) (h : s.runCtx ≠ 0) : s.startRun f = s := if_pos h

theorem exec_switch_unchosen {s : State} (f : Flips) (h : s.runCtx = 0) (ht : s.seqr.target = none) :
    exec (.contextSwitchDrained f) s = .next (s.finish .giveWay stBAD_STATE []) := by
  show Host.Outcome.next (s.giveWayRun.startRun f) = _
  rw [State.giveWayRun_idle h, State.startRun, if_neg (not_not_intro h), if_pos (by rw [ht]; rfl)]

/-- Nothing keeps the context of slot `n` from a start (R108, R152, R247, R362). -/
structure MayStart (s : State) (n : Nat) (j : Slot) (f : Flips) : Prop where
  idle : s.runCtx = 0
  target : s.seqr.target = some n
  service : s.devState = stService
  ready : s.readyAt n = true
  slot : s.slotOf n = some j
  lanes : j.lcount ≤ s.lCount
  parked : j.parkLost = false
  image : (List.range (j.image.2 / 8)).find? (fun i => (s.devRead .sequencer j.image.1 j.image.2 f).2.1.testBit i) = none
  clock : s.clk.realign = false
  spindles : ∀ ps ∈ s.physList j.lcount, s.spnState ps = 0 ∧ (s.spn ps).dump = false
  aligned : j.tstrict = true → s.rbit Reg.DET_ALIGN 0 = true

theorem State.startStep_starts {s : State} {n : Nat} {j : Slot} {f : Flips} (h : MayStart s n j f) :
    s.startStep n f = (if j.started then s.startAgain n j else s.startFirst n j).finish .giveWay stOK
      ((if j.started then s.startAgain n j else s.startFirst n j).startedReply j.ctx.toNat) := by
  have hidle : ¬ ((s.physList j.lcount).any (fun ps => s.spnState ps != 0) = true) := fun e => by
    obtain ⟨ps, hm, hne⟩ := List.any_eq_true.mp e
    rw [(h.spindles ps hm).1] at hne
    cases hne
  have hdump : ¬ ((s.physList j.lcount).any (fun ps => (s.spn ps).dump) = true) := fun e => by
    obtain ⟨ps, hm, hd⟩ := List.any_eq_true.mp e
    exact Bool.false_ne_true ((h.spindles ps hm).2.symm.trans hd)
  unfold State.startStep
  rw [h.slot]
  dsimp only
  rw [if_neg (Nat.not_lt.mpr h.lanes), if_neg (by rw [h.parked]; exact Bool.false_ne_true), h.image, if_neg (by decide), if_neg hidle,
    if_neg hdump, if_neg (by rw [h.clock]; exact Bool.false_ne_true),
    if_neg (fun e => Bool.false_ne_true (e.2.symm.trans (h.aligned e.1)))]

theorem exec_switch_starts {s : State} {n : Nat} {j : Slot} {f : Flips} (h : MayStart s n j f) :
    exec (.contextSwitchDrained f) s = .next (let t := if j.started then s.startAgain n j else s.startFirst n j
      t.finish .giveWay stOK (t.startedReply j.ctx.toNat)) := by
  show Host.Outcome.next (s.giveWayRun.startRun f) = _
  rw [State.giveWayRun_idle h.idle, State.startRun, if_neg (not_not_intro h.idle), if_neg (by rw [h.target]; exact Bool.false_ne_true), State.startChosen, h.target]
  dsimp only
  rw [if_pos ⟨h.service, h.ready⟩, State.startStep_starts h]

theorem State.askDrain_but (s : State) (ps : Nat) (why : DrainFor) : s.RegsBut (s.askDrain ps why) [Reg.SPN_STATE ps] := by
  unfold State.askDrain
  dsimp only
  split
  · split
    · exact State.RegsBut.of_regs rfl _
    · exact State.setSpnState_but (s.modSpn ps _) _ _
  · exact State.RegsBut.refl _ _

/-- A drain of every strand leaves the context that runs. -/
theorem State.drainAll_runCtx (s : State) (j : Slot) : (s.drainAll j).runCtx = s.runCtx := by
  refine State.runCtx_of_but (l := (s.physList j.lcount).map Reg.SPN_STATE) ?_ fun hm => ?_
  · unfold State.drainAll
    refine State.RegsBut.foldl (fun u ps hp => ?_) (State.RegsBut.refl _ _)
    split
    · exact State.RegsBut.refl _ _
    · exact (u.askDrain_but ps .switch).of_one (List.mem_map.mpr ⟨ps, hp, rfl⟩)
  · obtain ⟨ps, hp, e⟩ := List.mem_map.mp hm
    obtain ⟨l, _, rfl⟩ := List.mem_map.mp hp
    have hb : s.physOf l < 32 := s.rf_lt _ 4 0
    unfold Reg.SPN_STATE Reg.SKN_STATUS at e
    omega

section
variable {s : State} {j : Slot} (f : Flips) (hj : s.runningSlot = some j)
include hj

theorem exec_switch_runs : exec (.contextSwitchDrained f) s = .next ((s.giveWayStep j).startRun f) := by
  show Host.Outcome.next (s.giveWayRun.startRun f) = _
  unfold State.giveWayRun
  rw [hj]

theorem exec_switch_faulted (hf : j.st = .faulted) : exec (.contextSwitchDrained f) s = .next ((s.leave 1).startRun f) := by
  rw [exec_switch_runs f hj, State.giveWayStep, if_pos hf]

variable (hf : j.st ≠ .faulted)
include hf

theorem exec_switch_ended (h : ((List.range j.lcount).filter s.lmapValid).all s.endedAt = true) :
    exec (.contextSwitchDrained f) s = .next ((s.endContext j).startRun f) := by
  rw [exec_switch_runs f hj, State.giveWayStep, if_neg hf]
  exact congrArg (fun u => Host.Outcome.next (State.startRun u f)) (if_pos h)

variable (h : ((List.range j.lcount).filter s.lmapValid).all s.endedAt = false)
include h

theorem exec_switch_stays (hg : s.seqr.giving = none) : exec (.contextSwitchDrained f) s = .next s := by
  rw [exec_switch_runs f hj, State.giveWayStep, if_neg hf,
    if_neg (by rw [h]; exact Bool.false_ne_true), hg]
  exact congrArg Host.Outcome.next (s.startRun_runs f (State.runCtx_of_runningSlot hj))

theorem exec_switch_gives {w : GiveWay} (hg : s.seqr.giving = some w) :
    (((List.range j.lcount).filter s.lmapValid).all (fun l => s.endedAt l || s.savedAway j l) = true →
      exec (.contextSwitchDrained f) s = .next ((s.suspend j (if w = .quantum then 3 else 2)).startRun f)) ∧
    (((List.range j.lcount).filter s.lmapValid).all (fun l => s.endedAt l || s.savedAway j l) = false →
      exec (.contextSwitchDrained f) s = .next (s.drainAll j)) := by
  have hx : exec (.contextSwitchDrained f) s = .next (State.startRun
      (if ((List.range j.lcount).filter s.lmapValid).all (fun l => s.endedAt l || s.savedAway j l) then s.suspend j (if w = .quantum then 3 else 2)
        else s.drainAll j) f) := by
    rw [exec_switch_runs f hj, State.giveWayStep, if_neg hf,
      if_neg (by rw [h]; exact Bool.false_ne_true), hg]
  refine ⟨fun hs => by rw [hx, if_pos hs], fun hs => ?_⟩
  rw [hx, if_neg (by rw [hs]; exact Bool.false_ne_true), State.startRun_runs]
  rw [State.drainAll_runCtx]
  exact State.runCtx_of_runningSlot hj

end

/-- Settles O24: the load in its order of checks, the quantum, and the switch from each kind of outgoing context. -/
theorem contextsComplete : Obligations.ContextsComplete := by
  refine ⟨fun s f h => ?unloaded, ?loads, ?quantum, fun s h => exec_quantumExpiry_idle h, fun s f h ht => exec_switch_unchosen f h ht,
    fun s n j f h1 h2 h3 h4 h5 h6 h7 h8 h9 h10 h11 => exec_switch_starts ⟨h1, h2, h3, h4, h5, h6, h7, h8, h9, h10, h11⟩, ?switch,
    fun s j f hj hf => exec_switch_faulted f hj hf⟩
  case unloaded =>
    show execCtxLoadValidated f s = _
    unfold execCtxLoadValidated
    rw [h]
  case loads =>
    refine fun s f a hl => ⟨exec_load_unserved hl rfl, fun h1 h2 h3 => ?_⟩
    have hs : LoadServed (s.devRead .sequencer a 1024 f).2.2.2 := ⟨h1, h2, h3⟩
    refine ⟨exec_load_busy hl rfl hs, fun n hn ht => ⟨exec_load_poisoned hl rfl hs hn ht, exec_load_malformed hl rfl hs hn ht, ?_⟩⟩
    exact fun hp g1 g2 g3 g4 g5 g6 g7 i1 i2 i3 i4 i5 =>
      exec_load_accepted hl rfl hs hn ht hp rfl ⟨g1, g2, g3, g4, g5, g6, g7⟩ ⟨i1, i2, i3, i4, i5⟩
  case quantum =>
    intro s j h1 h2 h3 h4 h5 h6
    have h : QuantumDue s j := ⟨h1, h2, h3, h4, h5, h6⟩
    exact ⟨runs_quantumExpiry h, exec_quantumExpiry_early h⟩
  case switch =>
    exact fun s j f hj hf => ⟨exec_switch_ended f hj hf, exec_switch_stays f hj hf, fun w h hg => exec_switch_gives f hj hf h hg⟩

end Sys2Proof.Machine
end

section
/-! SUPPORT. Flits of the rings (R253 to R258, R264). -/

namespace Sys2Proof.Machine

/-! ### A flit at a stop. -/

section
variable {s : State} {ring dir st : Nat}

/-- Errors of a hop that is not the seam's are counted for the ring alone. -/
theorem State.hopErrors_inner (h : seamHop dir st = none) (ce ue : Nat) :
    s.hopErrors ring dir st ce ue = (s.sat (Reg.RING_CE ring) ce).sat (Reg.RING_UE ring) ue := by
  unfold State.hopErrors
  rw [h]

theorem State.hopErrors_inner_keep (h : seamHop dir st = none) (ce ue : Nat) : Keep 0x3FFFFFFFB s (s.hopErrors ring dir st ce ue) := by
  rw [State.hopErrors_inner h]
  exact (State.sat_keep ..).trans (State.sat_keep ..)

theorem State.hopErrors_inner_but (h : seamHop dir st = none) (ce ue : Nat) :
    s.RegsBut (s.hopErrors ring dir st ce ue) [Reg.RING_CE ring, Reg.RING_UE ring] := by
  rw [State.hopErrors_inner h]
  exact ((s.sat_but _ _).of_one (List.mem_cons_self ..)).trans ((State.sat_but _ _ _).of_one (List.mem_cons_of_mem _ (List.mem_cons_self ..)))

/-- A flit of which a stop has taken the credit it names, and whose words the hop marked (R254, R257). -/
def RingFlit.met (f : RingFlit) (st : Nat) (ue : BitVec 32) : RingFlit :=
  { f with credit := if f.credit = some st then none else f.credit, flit := { f.flit with pword := f.flit.pword ||| ue } }

theorem State.meetCredit_flit (s : State) (f : RingFlit) (ue : BitVec 32) :
    (s.meetCredit ring dir st { f with flit := { f.flit with pword := f.flit.pword ||| ue } }).1 = f.met st ue := by
  unfold State.meetCredit RingFlit.met
  split
  · rfl
  · rfl

theorem State.meetCredit_door (s : State) (f : RingFlit) : (s.meetCredit ring dir st f).2.ring.door = s.ring.door := by
  unfold State.meetCredit
  split
  · rfl
  · rfl

theorem State.passStarved_door (s : State) : (s.passStarved ring dir st).ring.door = s.ring.door := by
  unfold State.passStarved
  split
  · rfl
  · rfl

theorem State.ejects_unicast (s : State) {f : RingFlit} (h : f.lmask = 0) : s.ejects st f = (f.dst == st) := if_pos h

/-- The words a hop spoiled, as the count of its ring has them. -/
def spoiled (ue : BitVec 32) : Nat := ((List.range 32).filter (fun i => ue.toNat.testBit i)).length

/-- The state once a flit has come in with a sound sidecar: errors counted, its credit met. -/
def State.hopped (s : State) (ring dir st : Nat) (f : RingFlit) (ce : Nat) (ue : BitVec 32) : State :=
  ((s.hopErrors ring dir st ce (spoiled ue)).meetCredit ring dir st { f with flit := { f.flit with pword := f.flit.pword ||| ue } }).2

variable {f : RingFlit} {ce : Nat} {ue : BitVec 32}

theorem State.hopped_keep (h : seamHop dir st = none) : Keep 0x2FFFFFFFB s (s.hopped ring dir st f ce ue) :=
  Keep.via (State.meetCredit_keep ..) rfl ((State.hopErrors_inner_keep h _ _).mono rfl)

theorem State.hopped_door (h : seamHop dir st = none) : (s.hopped ring dir st f ce ue).ring.door = s.ring.door :=
  (State.meetCredit_door _ _).trans (congrArg (·.door) ((State.hopErrors_inner_keep h _ _).ring rfl))

theorem State.hopped_rbit (h : seamHop dir st = none) (hr : ring < 4) :
    (s.hopped ring dir st f ce ue).rbit (Reg.RING_STOP_ST st) 0 = s.rbit (Reg.RING_STOP_ST st) 0 := by
  refine (State.rbit_congr ((State.meetCredit_keep ..).regs rfl) _ _).trans ((State.hopErrors_inner_but h _ _).rbit ?_ 0)
  unfold Reg.RING_STOP_ST Reg.RING_CE Reg.RING_UE
  simp only [List.mem_cons, List.not_mem_nil, or_false, not_or]
  omega

/-- A flit whose sidecar is sound is taken, passes, or leaves a credit that moves on (R253 to R256). -/
theorem State.flitAt_sound : s.flitAt ring dir st f ce ue false =
    let m := s.hopped ring dir st f ce ue
    let v := if m.ejects st (f.met st ue) then m.eject ring dir st (f.met st ue) else m
    if f.dst ≠ st then (v.passStarved ring dir st).ringSend ring dir st (f.met st ue)
    else match (f.met st ue).credit with
      | some c => v.ringSend ring dir st { dst := c, src := f.src, ttype := 6, entry := 0, credit := some c }
      | none => v := by
  unfold State.flitAt
  dsimp -proj only
  rw [if_neg Bool.false_ne_true, State.meetCredit_flit]
  rfl

/-- A unicast for another stop passes (R253, R256). -/
theorem State.flitAt_passes (hm : f.lmask = 0) (hd : f.dst ≠ st) :
    s.flitAt ring dir st f ce ue false = ((s.hopped ring dir st f ce ue).passStarved ring dir st).ringSend ring dir st (f.met st ue) := by
  rw [State.flitAt_sound]
  dsimp only
  rw [State.ejects_unicast (f := f.met st ue) _ hm, show (f.met st ue).dst = f.dst from rfl, if_neg (fun e => hd (beq_iff_eq.mp e)), if_pos hd]

/-- A unicast for this stop is ejected, and no credit of it moves on (R254, R255). -/
theorem State.flitAt_ejected (hm : f.lmask = 0) (hd : f.dst = st) (hc : f.credit = none ∨ f.credit = some st) :
    s.flitAt ring dir st f ce ue false = (s.hopped ring dir st f ce ue).eject ring dir st (f.met st ue) := by
  have hn : (f.met st ue).credit = none := by
    unfold RingFlit.met
    rcases hc with e | e <;> simp [e]
  rw [State.flitAt_sound]
  dsimp only
  rw [State.ejects_unicast (f := f.met st ue) _ hm, show (f.met st ue).dst = f.dst from rfl, if_pos (beq_iff_eq.mpr hd), if_neg (not_not_intro hd), hn]

theorem State.flitAt_bad : s.flitAt ring dir st f ce ue true =
    (s.hopErrors ring dir st ce (spoiled ue + 1)).event 0x0421 (unitId 4 (ring * 64 + st)) 2 [(16, 1, ring), (17, 1, dir)] := rfl

/-- What a stop that does not absorb does with a flit that is no credit: the credit goes back, what it carries goes to the door. -/
theorem State.eject_out (ht : f.ttype ≠ 6) (hr : s.rbit (Reg.RING_STOP_ST st) 0 = false) :
    s.eject ring dir st f = f.load.elim (s.returnCredit ring dir st f.src)
      (fun l => (s.returnCredit ring dir st f.src).toDoor st (l.spoil f.flit.pword.toNat)) := by
  have hb : (s.returnCredit ring dir st f.src).rbit (Reg.RING_STOP_ST st) 0 = false :=
    (State.rbit_congr ((State.returnCredit_keep ..).regs rfl) _ _).trans hr
  unfold State.eject
  dsimp only
  rw [if_neg (show ¬ (f.ttype = 6 ∧ f.ckind = 0 ∧ f.load = none) from fun e => ht e.1), hb, if_neg Bool.false_ne_true]
  cases f.load with
  | none => rfl
  | some l => rfl

end

/-! ### RING_FLIT_ARRIVAL. -/

section
variable {s : State} {ring : Fin 4} {dir : Fin 2} {st : Fin 29} {f : RingFlit} {ce : Nat} {ue : BitVec 32}

theorem exec_flit_inTransit (h : .ring ring dir st f ∈ s.out) (bad : Bool) :
    exec (.ringFlitArrival ring dir st f ce ue bad) s = .next ((s.take (.ring ring dir st f)).flitAt ring dir st f ce ue bad) :=
  if_pos (.inl (List.contains_iff_mem.mpr h))

section
variable (hs : seamHop dir st = none) (h : .ring ring dir st f ∈ s.out)
include hs h

theorem runs_flit_passes (hm : f.lmask = 0) (hd : f.dst ≠ st.val) :
    Runs (.ringFlitArrival ring dir st f ce ue false) s [.regs, .out, .ring] (fun t =>
      t.out = s.out.erase (.ring ring dir st f) ++ [.ring ring dir (nextStop dir st) (f.met st ue)] ∧ t.ring.door = s.ring.door) := by
  have hk : Keep 0x2FFFFFFFB (s.take (.ring ring dir st f)) (((s.take (.ring ring dir st f)).hopped ring dir st f ce ue).passStarved ring dir st) :=
    Keep.via (State.passStarved_keep ..) rfl (State.hopped_keep hs)
  refine Runs.of_next ((exec_flit_inTransit h false).trans (congrArg Host.Outcome.next (State.flitAt_passes hm hd)))
    ((Keep.via (m := 0x2FFFFFFBB) (State.ringSend_keep ..) rfl (Keep.via hk rfl ((State.take_keep ..).mono rfl))).alters _ rfl)
    fun _ => ⟨congrArg (· ++ _) (hk.out rfl), ?_⟩
  exact (State.passStarved_door _).trans (State.hopped_door hs)

/-- What is ejected at a stop, with the credit that goes back (R255, R257). -/
theorem runs_flit_ejected (hm : f.lmask = 0) (hd : f.dst = st.val) (hc : f.credit = none ∨ f.credit = some st.val) (ht : f.ttype ≠ 6)
    (hr : s.rbit (Reg.RING_STOP_ST st) 0 = false) :
    Runs (.ringFlitArrival ring dir st f ce ue false) s [.regs, .out, .ring] (fun t =>
      t.out = s.out.erase (.ring ring dir st f) ++
        [.ring ring (1 - dir.val) (nextStop (1 - dir.val) st) { dst := f.src, src := st, ttype := 6, entry := 0, credit := some f.src }] ∧
      t.ring.door = s.ring.door ++ (f.load.map (fun l => (st.val, l.spoil (f.flit.pword ||| ue).toNat))).toList) := by
  have hk : Keep 0x2FFFFFFFB (s.take (.ring ring dir st f)) ((s.take (.ring ring dir st f)).hopped ring dir st f ce ue) := State.hopped_keep hs
  have hdoor : ((s.take (.ring ring dir st f)).hopped ring dir st f ce ue).ring.door = s.ring.door := State.hopped_door hs
  have hb := (State.hopped_rbit (s := s.take (.ring ring dir st f)) (f := f) (ce := ce) (ue := ue) hs ring.isLt).trans hr
  have hx : exec (.ringFlitArrival ring dir st f ce ue false) s =
      .next (((s.take (.ring ring dir st f)).hopped ring dir st f ce ue).eject ring dir st (f.met st ue)) :=
    (exec_flit_inTransit h false).trans (congrArg Host.Outcome.next (State.flitAt_ejected hm hd hc))
  rw [State.eject_out (f := f.met st ue) ht hb] at hx
  have hout := hk.out rfl
  have hk' := Keep.via (m := 0x2FFFFFFBB) hk rfl ((State.take_keep s (.ring ring dir st f)).mono rfl)
  generalize (s.take (.ring ring dir st f)).hopped ring dir st f ce ue = v at hx hdoor hout hk'
  have hsend : (v.returnCredit ring dir st f.src).out = s.out.erase (.ring ring dir st f) ++
      [.ring ring (1 - dir.val) (nextStop (1 - dir.val) st) { dst := f.src, src := st, ttype := 6, entry := 0, credit := some f.src }] :=
    congrArg (· ++ _) hout
  have hsk : Keep 0x2FFFFFFBB s (v.returnCredit ring dir st f.src) := Keep.via (State.returnCredit_keep ..) rfl hk'
  cases hl : f.load with
  | none =>
    rw [show (f.met st ue).load = none from hl] at hx
    exact Runs.of_next hx (hsk.alters _ rfl) fun _ => ⟨hsend, hdoor.trans (List.append_nil _).symm⟩
  | some l =>
    rw [show (f.met st ue).load = some l from hl] at hx
    exact Runs.of_next hx ((Keep.via (State.toDoor_keep ..) rfl hsk).alters _ rfl) fun _ => ⟨hsend, congrArg (· ++ _) hdoor⟩

theorem runs_flit_spoiled (hroom : s.EventRoom 0x0421 (unitId 4 (ring.val * 64 + st))) :
    Runs (.ringFlitArrival ring dir st f ce ue true) s [.regs, .out, .log, .nodes, .irq, .logN] (fun t =>
      t.out = s.out.erase (.ring ring dir st f) ∧ t.Recorded (s.eventRec 0x0421 (unitId 4 (ring.val * 64 + st)) 2 [(16, 1, ring), (17, 1, dir)])) := by
  have hk : Keep 0x3FFFFFFFB (s.take (.ring ring dir st f)) ((s.take (.ring ring dir st f)).hopErrors ring dir st ce (spoiled ue + 1)) :=
    State.hopErrors_inner_keep hs _ _
  have hctx : ((s.take (.ring ring dir st f)).hopErrors ring dir st ce (spoiled ue + 1)).runCtx = s.runCtx := by
    refine State.runCtx_of_but (State.hopErrors_inner_but (s := s.take (.ring ring dir st f)) hs ce (spoiled ue + 1)) ?_
    unfold Reg.SKN_STATUS Reg.RING_CE Reg.RING_UE
    simp only [List.mem_cons, List.not_mem_nil, or_false, not_or]
    omega
  refine Runs.of_next ((exec_flit_inTransit h true).trans (congrArg Host.Outcome.next State.flitAt_bad))
    ((Keep.via (m := 0x3EFFDFCBB) (State.event_keep ..) rfl ((Keep.via (m := 0x3FFFFFFBB) hk rfl ((State.take_keep ..).mono rfl)).mono rfl)).alters _ rfl) fun _ => ⟨?_, ?_⟩
  · exact ((State.event_keep ..).out rfl).trans (hk.out rfl)
  · exact State.event_recorded_of_same hroom (hk.now rfl) hctx (hk.log rfl) (hk.nodes rfl) _ _

end

/-- A flit met at the stop next to its source, and not on its way yet. -/
structure NotInjected (s : State) (ring : Fin 4) (dir : Fin 2) (st : Fin 29) (f : RingFlit) : Prop where
  waits : .ring ring dir st f ∉ s.out
  near : nextStop dir f.src = st.val

section
variable (h : NotInjected s ring dir st f) (bad : Bool)
include h

theorem NotInjected.not_inTransit : ¬ (s.out.contains (.ring ring dir st f) = true ∨ nextStop dir f.src ≠ (st : Nat)) :=
  fun e => e.elim (fun c => h.waits (List.contains_iff_mem.mp c)) (fun c => c h.near)

theorem runs_flit_held (hl : (ring.val, dir.val, f.src) ∈ s.ring.leave) :
    Runs (.ringFlitArrival ring dir st f ce ue bad) s [.ring] (fun t => t.ring = { s.ring with leave := s.ring.leave.erase (ring.val, dir.val, f.src) }) :=
  Runs.of_next ((if_neg h.not_inTransit).trans (if_pos (List.contains_iff_mem.mpr hl)))
    ((Keep.setRing (m := 0x2FFFFFFFF) rfl (Keep.refl _ _)).alters _ rfl) fun _ => rfl

theorem exec_flit_next (hl : (ring.val, dir.val, f.src) ∉ s.ring.leave) :
    exec (.ringFlitArrival ring dir st f ce ue bad) s =
      if s.canInject ring dir f then .next ((s.injectFlit ring dir f).flitAt ring dir st f ce ue bad) else .next s :=
  (if_neg h.not_inTransit).trans (if_neg (fun e => hl (List.contains_iff_mem.mp e)))

end

/-! ### Starved stops and lost crossings (R256, R264). -/

theorem exec_starve_noted (h : (ring.val, dir.val, st.val) ∈ s.ring.starved) : exec (.injectionStarve ring dir st) s = .next s :=
  if_pos (List.contains_iff_mem.mpr h)

theorem runs_starve (h : (ring.val, dir.val, st.val) ∉ s.ring.starved) :
    Runs (.injectionStarve ring dir st) s [.ring] (fun t => t.ring = { s.ring with starved := s.ring.starved ++ [(ring.val, dir.val, st.val)] }) :=
  Runs.of_next (if_neg (fun e => h (List.contains_iff_mem.mp e))) ((Keep.setRing (m := 0x2FFFFFFFF) rfl (Keep.refl _ _)).alters _ rfl) fun _ => rfl

end

theorem exec_seamLoss {s : State} {k : Fin 6} (h : k.val ∉ s.ring.lost) :
    exec (.seamCrossingLoss k) s = .next (if (k : Nat) < 5 then
      ({ s with ring := { s.ring with lost := s.ring.lost ++ [k.val] } } : State).seamError k
      else { s with ring := { s.ring with lost := s.ring.lost ++ [k.val] } }) :=
  if_neg (fun e => h (List.contains_iff_mem.mp e))

/-! ### Operations unanswered (R262). -/

theorem SPN_STATE_not_lost : ∀ ps : Fin 18, Reg.SPN_STATE ps ∉ [Reg.CNET_EVT_LOST] := by decide

section
variable {s : State} {ps : Fin 18} {op : Nat} {o : OpEnt}
  (ho : (s.spn ps).ops.find? (fun o => o.id == op && decide (o.kind = .read ∨ o.kind = .write ∨ o.kind = .atom ∨ o.kind = .send ∨ o.kind = .jobWrite)) = some o)
include ho

theorem exec_opTimeout_early (h : (s.now - o.issued).toNat < s.rd Reg.RING_OP_TMO) : exec (.ringOpTimeout ps op) s = .next s := by
  show execRingOpTimeout ps op s = _
  unfold execRingOpTimeout
  dsimp only
  rw [ho]
  exact if_pos (by rw [decide_eq_true h, Bool.or_true])

theorem runs_opTimeout_read (hl : s.isRemoteOp ps op = false) (h : s.rd Reg.RING_OP_TMO ≤ (s.now - o.issued).toNat) (hk : o.kind = .read)
    (hg : accepted (s.gen ps) o.resGen = true) (hroom : s.EventRoom 0x0422 (unitId 4 (spindleStop ps))) :
    Runs (.ringOpTimeout ps op) s [.regs, .log, .nodes, .spns, .irq, .logN] (fun t => t.spn ps = (s.spn ps).poisonOp op ∧
      t.Recorded (s.eventRec 0x0422 (unitId 4 (spindleStop ps)) 2 [(16, 1, 0), (17, 5, o.addr)])) := by
  have hgen : (s.event 0x0422 (unitId 4 (spindleStop ps)) 2 [(16, 1, 0), (17, 5, o.addr)]).gen ps = s.gen ps :=
    (s.event_but _ _ _ _).gen (SPN_STATE_not_lost ps)
  have hx : exec (.ringOpTimeout ps op) s =
      .next ((s.event 0x0422 (unitId 4 (spindleStop ps)) 2 [(16, 1, 0), (17, 5, o.addr)]).setSpn ps ((s.spn ps).poisonOp op)) := by
    show execRingOpTimeout ps op s = _
    unfold execRingOpTimeout
    dsimp only
    rw [ho]
    dsimp only
    rw [hl, decide_eq_false (Nat.not_lt.mpr h), if_neg (by decide), hk, show OpKind.read.ttype = 0 from rfl, hgen, hg]
    rfl
  refine Runs.of_next hx ((Keep.via (m := 0x3EFFDECFB) (State.setSpn_keep ..) rfl ((State.event_keep ..).mono rfl)).alters _ rfl) fun i => ⟨?_, ?_⟩
  · exact State.spn_setSpn (by rw [(State.event_keep ..).spns rfl]; exact i.spns) _ _
  · exact (State.event_recorded hroom 2 _).keep (State.setSpn_keep ..) rfl

end

theorem exec_opTimeout_none {s : State} {ps : Fin 18} {op : Nat} (h : ∀ o ∈ (s.spn ps).ops, o.id ≠ op) :
    exec (.ringOpTimeout ps op) s = .next s := by
  show execRingOpTimeout ps op s = _
  unfold execRingOpTimeout
  dsimp only
  rw [find?_id_none h]

/-! ### Records of nodes (R268, R269). -/

/-- A node's buffer without its oldest record; a message lost keeps the mark of losses for the next (R269). -/
def NodeBuf.sent (b : NodeBuf) (r : List EventRec) (bad : Bool) : NodeBuf := { recs := r, lost := bad && b.lost, run := bad && b.run }

/-- The oldest record of a node has left it. -/
def State.sentRecord (s : State) (n : Nat) (b : NodeBuf) : State := { s with nodes := tset {} s.nodes n b }

theorem exec_eventRecord {s : State} {n : Fin 39} {w : CtlWay} {e : EventRec} {r : List EventRec} (h : (tget {} s.nodes n).recs = e :: r) :
    exec (.eventRecord n w) s =
      let t := (s.sentRecord n ((tget {} s.nodes n).sent r w.bad.isSome)).ctlWay 3 w
      .next (if w.bad.isSome then t else t.toLog { e with lost := e.lost || (tget {} s.nodes n).lost }) := by
  show execEventRecord n w s = _
  unfold execEventRecord
  dsimp only
  rw [h]
  rfl

theorem exec_eventRecord_none {s : State} {n : Fin 39} {w : CtlWay} (h : (tget {} s.nodes n).recs = []) : exec (.eventRecord n w) s = .next s := by
  show execEventRecord n w s = _
  unfold execEventRecord
  dsimp only
  rw [h]

theorem State.log_toLog {s : State} (h : s.log.length < 4096) (e : EventRec) : (s.toLog e).log = logInsert s.log e := by
  unfold State.toLog
  rw [State.raiseIrq_log]
  dsimp only
  rw [Nat.sub_eq_zero_of_le (by rw [length_logInsert]; omega), List.drop_zero]

theorem runs_eventRecord {s : State} {n : Fin 39} {w : CtlWay} {e : EventRec} {r : List EventRec} (h : (tget {} s.nodes n).recs = e :: r)
    (hw : w.bad = none) (hn : s.log.length < 4096) :
    Runs (.eventRecord n w) s [.regs, .log, .nodes, .irq, .logN] (fun t => (tget {} t.nodes n).recs = r ∧
      { e with lost := e.lost || (tget {} s.nodes n).lost } ∈ t.log ∧ t.log.length = s.log.length + 1 ∧ t.logN = s.logN + 1 ∧
      s.RegsBut t [Reg.CNET_CE, Reg.SEAM_CE 2]) := by
  have hx := exec_eventRecord (w := w) h
  dsimp only at hx
  rw [hw, if_neg (by decide)] at hx
  generalize hb : (tget {} s.nodes n).sent r (none : Option (Fin 39)).isSome = b at hx
  have hk := (s.sentRecord n b).ctlWay_heard_keep 3 hw
  have hbut := (s.sentRecord n b).ctlWay_heard_but 3 hw
  have ha : s.Alters (s.sentRecord n b) [.regs, .log, .nodes, .irq, .logN] := fun p hp => by
    cases p
    case nodes => exact absurd (by decide) hp
    all_goals rfl
  have hlog := State.log_toLog (s := (s.sentRecord n b).ctlWay 3 w) (by rw [hk.log rfl]; exact hn) { e with lost := e.lost || (tget {} s.nodes n).lost }
  rw [hk.log rfl] at hlog
  refine Runs.of_next hx (ha.trans ((Keep.via (m := 0x3EFFDFEFB) (State.toLog_keep ..) rfl (hk.mono rfl)).alters _ rfl)) fun i => ⟨?_, ?_, ?_, ?_, ?_⟩
  · rw [(State.toLog_keep ..).nodes rfl, hk.nodes rfl]
    refine (congrArg NodeBuf.recs (tget_tset_self i.nodes.1)).trans ?_
    rw [← hb]
    rfl
  · rw [hlog]
    exact mem_logInsert _ _
  · rw [hlog]
    exact length_logInsert _ _
  · exact congrArg (· + 1) (hk.logN rfl)
  · exact hbut.trans (State.RegsBut.of_regs ((State.toLog_keep ..).regs rfl) _)

/-! ### Stalled channels (R280, R281). -/

/-- The stall timer of an outbound channel, and whether it was told. -/
def Spn.stallOf (x : Spn) (c : Nat) : Nat × Bool := ((tget {} x.outq c).stall, (tget {} x.outq c).told)

/-- A stall timer that has reached `thr` is told. -/
def toldAt (thr : Nat) (v : Nat × Bool) : Nat × Bool := (v.1, v.2 || decide (thr ≤ v.1))

theorem toldAt_twice (thr : Nat) (v : Nat × Bool) : toldAt thr (toldAt thr v) = toldAt thr v := by
  unfold toldAt
  dsimp only
  rw [Bool.or_assoc, Bool.or_self]

/-- Channel `c` of spindle `ps` after its timers have been looked at. -/
def State.outTold (s : State) (ps thr l c : Nat) : State :=
  if thr ≤ (tget {} (s.spn ps).outq c).stall ∧ (tget {} (s.spn ps).outq c).told = false then
    (s.setSpn ps { s.spn ps with outq := tset {} (s.spn ps).outq c { tget {} (s.spn ps).outq c with told := true } }).event 0x0411 (unitId 0 ps) 1
      [(16, 1, c), (17, 1, 0), (18, 1, l)]
  else s

def State.inTold (s : State) (ps thr l c : Nat) : State :=
  if thr ≤ (tget {} (s.spn ps).inq c).stall ∧ (tget {} (s.spn ps).inq c).told = false then
    (s.setSpn ps { s.spn ps with inq := tset {} (s.spn ps).inq c { tget {} (s.spn ps).inq c with told := true } }).event 0x0411 (unitId 0 ps) 1
      [(16, 1, c), (17, 1, 1), (18, 1, l)]
  else s

theorem State.stallEvents_eq (s : State) (ps : Nat) : s.stallEvents ps = (List.range 64).foldl
    (fun u c => (u.outTold ps (s.rd Reg.CHN_STALL_THR) (s.logicalN ps) c).inTold ps (s.rd Reg.CHN_STALL_THR) (s.logicalN ps) c) s := rfl

section
variable (s : State) (ps thr l c : Nat)

theorem State.outTold_stallOf (d : Nat) : ((s.outTold ps thr l c).spn ps).stallOf d =
    if d = c then toldAt thr ((s.spn ps).stallOf d) else (s.spn ps).stallOf d := by
  unfold State.outTold
  split
  case isTrue h =>
    have hne : ({ tget {} (s.spn ps).outq c with told := true } : OutChan) ≠ {} := fun e => Bool.false_ne_true (congrArg OutChan.told e).symm
    have hs : (s.setSpn ps { s.spn ps with outq := tset {} (s.spn ps).outq c { tget {} (s.spn ps).outq c with told := true } }).spn ps =
        { s.spn ps with outq := tset {} (s.spn ps).outq c { tget {} (s.spn ps).outq c with told := true } } :=
      tget_tset_eq (fun e => hne (by
        have hq := congrArg (fun x => tget ({} : OutChan) x.outq c) e
        rwa [tget_tset_eq hne] at hq)) _
    rw [State.spn_congr ((State.event_keep ..).spns rfl), hs]
    unfold Spn.stallOf
    by_cases hd : d = c
    · subst hd
      rw [if_pos rfl, tget_tset_eq hne, toldAt, decide_eq_true h.1, Bool.or_true]
    · rw [if_neg hd, tget_tset_ne hd]
  case isFalse h =>
    split
    case isTrue hd =>
      subst hd
      unfold toldAt Spn.stallOf
      cases ht : (tget {} (s.spn ps).outq d).told with
      | true => rfl
      | false => rw [decide_eq_false (fun hs => h ⟨hs, ht⟩), Bool.or_self]
    case isFalse => rfl

theorem State.inTold_outq : ((s.inTold ps thr l c).spn ps).outq = (s.spn ps).outq := by
  unfold State.inTold
  split
  · have hne : ({ tget {} (s.spn ps).inq c with told := true } : InQueue) ≠ {} := fun e => Bool.false_ne_true (congrArg InQueue.told e).symm
    have hs : (s.setSpn ps { s.spn ps with inq := tset {} (s.spn ps).inq c { tget {} (s.spn ps).inq c with told := true } }).spn ps =
        { s.spn ps with inq := tset {} (s.spn ps).inq c { tget {} (s.spn ps).inq c with told := true } } :=
      tget_tset_eq (fun e => hne (by
        have hq := congrArg (fun x => tget ({} : InQueue) x.inq c) e
        rwa [tget_tset_eq hne] at hq)) _
    rw [State.spn_congr ((State.event_keep ..).spns rfl), hs]
  · rfl

end

/-- The timers among `cs` that have reached the threshold are told, the others stay. -/
theorem State.stallOf_told (ps thr l d : Nat) : ∀ (cs : List Nat) (s : State),
    ((cs.foldl (fun u c => (u.outTold ps thr l c).inTold ps thr l c) s).spn ps).stallOf d =
      if d ∈ cs then toldAt thr ((s.spn ps).stallOf d) else (s.spn ps).stallOf d
  | [], _ => rfl
  | c :: cs, s => by
    have h1 : (((s.outTold ps thr l c).inTold ps thr l c).spn ps).stallOf d =
        if d = c then toldAt thr ((s.spn ps).stallOf d) else (s.spn ps).stallOf d := by
      rw [← State.outTold_stallOf s ps thr l c d]
      unfold Spn.stallOf
      rw [State.inTold_outq]
    rw [List.foldl_cons, State.stallOf_told ps thr l d cs, h1]
    by_cases hd : d = c
    · rw [if_pos hd, toldAt_twice, ite_self]
      exact (if_pos (hd ▸ List.mem_cons_self ..)).symm
    · simp only [List.mem_cons, hd, if_false, false_or]

/-- A spindle of a context that a knot ends: IDLE, its state kept for dump (R110, R281). -/
def State.knotted (s : State) (q : Nat) : State :=
  if s.spnState q ≤ 4 then (s.modSpn q (fun y => { y with dump := true })).setSpnState q 0 else s

theorem State.knotted_outq (s : State) (q p : Nat) : ((s.knotted q).spn p).outq = (s.spn p).outq := by
  unfold State.knotted
  split
  · rw [State.spn_congr ((State.setSpnState_keep ..).spns rfl)]
    by_cases hq : p = q
    · subst hq
      have hs : (s.modSpn p (fun y => { y with dump := true })).spn p = { s.spn p with dump := true } :=
        tget_tset_eq (fun e => Bool.false_ne_true (congrArg Spn.dump e).symm) _
      rw [hs]
    · exact congrArg Spn.outq (tget_tset_ne hq _)
  · rfl

theorem State.foldl_knotted_outq (p : Nat) : ∀ (l : List Nat) (s : State), ((l.foldl State.knotted s).spn p).outq = (s.spn p).outq
  | [], _ => rfl
  | q :: l, s => (State.foldl_knotted_outq p l (s.knotted q)).trans (s.knotted_outq q p)

/-- A knot changes no channel (R281). -/
theorem State.faultRunning_knot_outq (s : State) (p : Nat) : ((s.faultRunning 0x0410).spn p).outq = (s.spn p).outq := by
  unfold State.faultRunning
  split
  · rfl
  · split
    · rfl
    · rw [State.spn_congr ((State.giveWay_keep ..).spns rfl), State.spn_congr ((State.contextLost_keep ..).spns rfl),
        State.spn_congr ((State.modSlot_keep ..).spns rfl)]
      exact State.foldl_knotted_outq p _ s

theorem State.knotCheck_outq (s : State) (p : Nat) : (s.knotCheck.spn p).outq = (s.spn p).outq := by
  unfold State.knotCheck
  split
  · rfl
  · split
    · rfl
    · dsimp only
      split
      · rw [State.faultRunning_knot_outq, State.spn_congr ((State.event_keep ..).spns rfl)]
        rfl
      · rfl

theorem State.stallThreshold_stallOf (s : State) (ps : Nat) {c : Nat} (hc : c < 64) :
    ((s.stallEvents ps).knotCheck.spn ps).stallOf c = toldAt (s.rd Reg.CHN_STALL_THR) ((s.spn ps).stallOf c) := by
  have h := State.stallOf_told ps (s.rd Reg.CHN_STALL_THR) (s.logicalN ps) c (List.range 64) s
  rw [if_pos (List.mem_range.mpr hc), ← State.stallEvents_eq] at h
  rw [← h]
  unfold Spn.stallOf
  rw [State.knotCheck_outq]

/-- Settles O28: flits by where they are and for whom, then the timers, the records and the crossings. -/
theorem ringsComplete : Obligations.RingsComplete := by
  refine ⟨fun s ring dir st f ce ue hs hm h => ⟨runs_flit_passes hs h hm, runs_flit_ejected hs h hm, runs_flit_spoiled hs h⟩, ?injections,
    fun s ring dir st => ⟨runs_starve, exec_starve_noted⟩,
    fun s ps op o ho hl => ⟨runs_opTimeout_read ho hl, exec_opTimeout_early ho⟩, fun s ps op h => exec_opTimeout_none h,
    fun s n w e r h hw hn => runs_eventRecord h hw hn, ?lost, fun s n w h => exec_eventRecord_none h, fun s h => ?clock,
    fun s k => ⟨fun h => if_pos (List.contains_iff_mem.mpr h), fun h hk => (exec_seamLoss h).trans (congrArg Host.Outcome.next (if_pos hk))⟩,
    fun s ps c hc => ⟨_, rfl, rfl, ?_, ?_⟩⟩
  case injections =>
    intro s ring dir st f ce ue bad hn hs
    have h : NotInjected s ring dir st f := ⟨hn, hs⟩
    exact ⟨runs_flit_held h bad, fun hl hc => (exec_flit_next h bad hl).trans (if_pos hc),
      fun hl hc => (exec_flit_next h bad hl).trans (if_neg (by rw [hc]; exact Bool.false_ne_true))⟩
  case lost =>
    intro s n w e r h hw
    have hx := exec_eventRecord (w := w) h
    dsimp only at hx
    rw [hw, if_pos rfl] at hx
    exact hx
  case clock =>
    exact Runs.of_next ((exec_seamLoss (k := 5) h).trans (congrArg Host.Outcome.next (if_neg (by decide))))
      ((Keep.setRing (m := 0x2FFFFFFFF) rfl (Keep.refl _ _)).alters _ rfl) fun _ => rfl
  · exact congrArg Prod.snd (s.stallThreshold_stallOf ps hc)
  · exact congrArg Prod.fst (s.stallThreshold_stallOf ps hc)

end Sys2Proof.Machine
end

section
/-! SUPPORT. An aligned stored word of a channel that serves, read, written and changed by an atomic with no upset
(R145, R228 to R232). -/

namespace Sys2Proof.Machine

/-! ### Numbers and their bytes. -/

/-- `n` bytes of a number hold its low `8 n` bits. -/
theorem leNat_toLE : ∀ n w : Nat, leNat (toLE n w) = w % 2 ^ (8 * n)
  | 0, w => (Nat.mod_one w).symm
  | n + 1, w => by
    rw [toLE, leNat, leNat_toLE n (w / 256), Nat.mul_succ, Nat.add_comm (8 * n) 8, Nat.pow_add, Nat.mod_mul, BitVec.toNat_ofNat]

/-- The operand and the comparand of an atomic, as its sixteen bytes hold them. -/
theorem rdLE_operand {x : Nat} (hx : x < 2 ^ 64) (y : Nat) : rdLE (toLE 8 x ++ toLE 8 y) 0 8 = x := by
  rw [rdLE, List.drop_zero, List.take_left' (toLE_length 8 x), leNat_toLE, Nat.mod_eq_of_lt hx]

theorem rdLE_comparand (x : Nat) {y : Nat} (hy : y < 2 ^ 64) : rdLE (toLE 8 x ++ toLE 8 y) 8 8 = y := by
  rw [rdLE, List.drop_left' (toLE_length 8 x), List.take_of_length_le (toLE_length 8 y).le, leNat_toLE, Nat.mod_eq_of_lt hy]

/-! ### The stored word (R228, R231, R232). -/

theorem State.byteAt_congr {s t : State} (h : t.mem = s.mem) (j : Nat) : t.byteAt j = s.byteAt j := by
  unfold State.byteAt
  rw [h]

/-- A clean decode without poison is counted nowhere. -/
theorem State.noteDecode_clean (s : State) (k src sy : Nat) : s.noteDecode k src sy .clean false = s := by
  unfold State.noteDecode
  split
  · rfl
  · rfl

/-- A read of an aligned word that nothing has upset, of whatever store. -/
theorem State.readWord_undisturbed (s : State) {k : Nat} {f : Flips} (src : Nat) (h8 : k % 8 = 0) (hf : flipOf f k = 0) :
    s.readWord k src f = (s.wordBytes k, s.poisonAt k, .clean, s.noteDecode k src 0 .clean (s.poisonAt k)) := by
  unfold State.readWord
  rw [h8, Nat.sub_zero]
  dsimp only
  rw [if_pos hf]
  rfl

/-- A whole word written takes effect and reads nothing first. -/
theorem State.writeWord_eight (s : State) {b o : Nat} {l : List Byte} (pm : Nat) (f : Flips) (hl : l.length = 8) (ho : o % 8 = 0) :
    s.writeWord b 0 o l pm f = (true, .clean, s.storeWord b l (pm.testBit (o / 8))) := by
  have hdone : (s.writeWord b 0 o l pm f).1 = true ∧ (s.writeWord b 0 o l pm f).2.1 = .clean := by
    unfold State.writeWord
    rw [if_pos hl]
    exact ⟨rfl, rfl⟩
  exact Prod.ext hdone.1 (Prod.ext hdone.2 (s.writeWord_whole pm f hl ho))

/-- The bytes of a word stored without poison are the bytes written. -/
theorem State.bytesAt_storeWord {s : State} {k : Nat} {l : List Byte} (h : Memory.wf s.mem = true) (hl : l.length = 8) :
    (s.storeWord k l false).bytesAt k 8 = l := by
  refine List.ext_getElem (by simp [State.bytesAt, hl]) fun i hi hi' => ?_
  rw [hl] at hi'
  simp [State.bytesAt, State.byteAt_storeWord h hl, hi', hl]

/-! ### The word at a device address (R228, R229, R231). -/

/-- The device address `a` is an aligned word of DRAM, at channel address `ca` of a channel `ch` that serves (R225, R242). -/
structure State.ServedWord (s : State) (a ch ca : Nat) : Prop where
  aligned : a % 8 = 0
  loc : s.loc a = .dram ch ca
  ready : s.chanReady ch = true
  word : ca % 8 = 0

section
variable {s : State} {a ch ca : Nat}

theorem State.ServedWord.key_aligned (h : s.ServedWord a ch ca) : dramKey ch ca % 8 = 0 :=
  Nat.mod_eq_zero_of_dvd (Nat.dvd_add (Dvd.dvd.mul_left (pow_dvd_pow 2 (by decide : 3 ≤ 31)) ch) (Nat.dvd_of_mod_eq_zero h.word))

theorem State.readDevWord_served (h : s.ServedWord a ch ca) (src : Nat) :
    s.readDevWord src a [] = ({ bytes := s.wordBytes (dramKey ch ca), poison := s.poisonAt (dramKey ch ca) },
      s.noteDecode (dramKey ch ca) src 0 .clean (s.poisonAt (dramKey ch ca))) := by
  unfold State.readDevWord
  rw [h.loc]
  dsimp only
  rw [if_pos h.ready, s.readWord_undisturbed src h.key_aligned rfl]
  rfl

/-- The one word returned for an aligned read of eight bytes is poisoned as the word read is. -/
theorem returnedPoison_one (w : WordRead) : returnedPoison [w] 0 8 = if w.poison then 1 else 0 := by
  simp [returnedPoison]

/-- An aligned read of eight bytes is the read of one word, where that word is served and nothing is found wrong with it. -/
theorem State.rawRead_one {t : State} {b : List Byte} {q : Bool} {src : Nat} (ha : a % 8 = 0)
    (h : s.readDevWord src a [] = ({ bytes := b, poison := q }, t)) (hb : b.length = 8) (who : Who) :
    s.rawRead who src a 8 [] = (b, if q then 1 else 0, false, t) := by
  have hcnt : (a + 8 - 1) / 8 - a / 8 + 1 = 1 := by omega
  unfold State.rawRead
  rw [ha, Nat.sub_zero, if_neg (by decide : ¬ 8 = 0), hcnt]
  simp [State.readDevWords, h, returnedPoison_one, List.take_of_length_le hb.le, State.autoRepairs]

theorem State.rawRead_served (h : s.ServedWord a ch ca) (who : Who) (src : Nat) :
    s.rawRead who src a 8 [] = (s.wordBytes (dramKey ch ca), if s.poisonAt (dramKey ch ca) then 1 else 0, false,
      s.noteDecode (dramKey ch ca) src 0 .clean (s.poisonAt (dramKey ch ca))) :=
  State.rawRead_one h.aligned (State.readDevWord_served h src) (s.wordBytes_length _) who

theorem State.writeDevWord_served (h : s.ServedWord a ch ca) {l : List Byte} (hl : l.length = 8) (pm : Nat) :
    s.writeDevWord a 0 0 l pm [] = (.done [], s.storeWord (dramKey ch ca) l (pm.testBit 0)) := by
  unfold State.writeDevWord
  rw [h.loc]
  dsimp only
  rw [if_pos h.ready, s.writeWord_eight pm [] hl rfl]
  rfl

theorem State.writeDevWords_served (h : s.ServedWord a ch ca) {l : List Byte} (hl : l.length = 8) (n pm : Nat) :
    State.writeDevWords (n + 2) s a 0 l pm [] = ([.done []], s.storeWord (dramKey ch ca) l (pm.testBit 0)) := by
  have hne : l ≠ [] := List.ne_nil_of_length_eq_add_one hl
  have hrest : l.drop 8 = [] := List.drop_eq_nil_of_le hl.le
  unfold State.writeDevWords
  split
  · exact absurd rfl hne
  · rw [h.aligned]
    dsimp only [Nat.sub_zero]
    rw [hrest, List.take_of_length_le hl.le, State.writeDevWord_served h hl]
    rfl

theorem State.rawWrite_served (h : s.ServedWord a ch ca) {l : List Byte} (hl : l.length = 8) (hp : s.protHit a 8 = none)
    (who : Who) (pm : Nat) : s.rawWrite who a l pm [] = (true, false, s.storeWord (dramKey ch ca) l (pm.testBit 0)) := by
  unfold State.rawWrite
  rw [hl, hp]
  dsimp only
  rw [State.writeDevWords_served h hl]
  rfl

theorem State.absorbAt_served (h : s.ServedWord a ch ca) : s.absorbAt a = none := by
  unfold State.absorbAt
  rw [h.loc]

/-! ### Requests of a spindle. -/

/-- A read answers the word as it is delivered; all it may change is the count of poisoned reads. -/
theorem State.serve_read (h : s.ServedWord a ch ca) (p op : Nat) :
    s.serve { src := .spindle p, op := op, kind := .read, addr := a, len := 8, data := [], poison := 0 } [] =
      ({ dst := .spindle p, op := op, data := s.wordBytes (dramKey ch ca), poison := if s.poisonAt (dramKey ch ca) then 1 else 0 },
        s.noteDecode (dramKey ch ca) srcRead 0 .clean (s.poisonAt (dramKey ch ca))) := by
  simp only [State.serve, State.devRead, State.foreignAccess, State.rawRead_served h]

/-- A write outside every protected region stores the word and is answered without poison. -/
theorem State.serve_write (h : s.ServedWord a ch ca) {l : List Byte} (hl : l.length = 8) (hp : s.protHit a 8 = none) (p op pm : Nat) :
    s.serve { src := .spindle p, op := op, kind := .write, addr := a, len := 8, data := l, poison := pm } [] =
      ({ dst := .spindle p, op := op, data := [], poison := 0 }, s.storeWord (dramKey ch ca) l (pm.testBit 0)) := by
  simp only [State.serve, State.devWrite, State.foreignAccess, State.rawWrite_served h hl hp, if_true]

/-- An atomic request without poison is the atomic on the operand and comparand in its bytes (R145). -/
theorem State.serve_atom {x y : Nat} (hx : x < 2 ^ 64) (hy : y < 2 ^ 64) (p op aop : Nat) :
    s.serve { src := .spindle p, op := op, kind := .atom aop, addr := a, len := 16, data := toLE 8 x ++ toLE 8 y, poison := 0 } [] =
      let r := s.devAtomic (.spindle p) a aop x y false []
      ({ dst := .spindle p, op := op, data := toLE 8 r.1, poison := if r.2.1 then 1 else 0 }, r.2.2.2) := by
  simp only [State.serve, rdLE_operand hx, rdLE_comparand x hy]
  rfl

/-- An atomic of a spindle on a word outside every protected region reads it, then stores where the read gave no poison (R229, R233). -/
theorem State.devAtomic_served (h : s.ServedWord a ch ca) (hp : s.protHit a 8 = none) (p aop x y : Nat) :
    s.devAtomic (.spindle p) a aop x y false [] =
      if s.poisonAt (dramKey ch ca) then (0, true, false, s.noteDecode (dramKey ch ca) srcPart 0 .clean true)
      else
        let old := leNat (s.bytesAt (dramKey ch ca) 8)
        (old, false, false, s.storeWord (dramKey ch ca) (toLE 8 (atomNew aop old x y)) false) := by
  unfold State.devAtomic
  simp only [h.aligned, Nat.sub_zero, State.foreignAccess, hp, State.absorbAt_served h, State.rawRead_served h]
  cases hk : s.poisonAt (dramKey ch ca)
  case true => rfl
  case false =>
    have hb : s.wordBytes (dramKey ch ca) = s.bytesAt (dramKey ch ca) 8 := by rw [State.wordBytes, hk]; rfl
    simp [State.noteDecode_clean, hb, State.rawWrite_served h (toLE_length 8 _) hp]

end

/-- What a write of a whole word leaves: its bytes or zeros, its mark, and every other byte and mark as before (R230, R232). -/
theorem State.storeWord_reads {s : State} (i : s.Inv) {k : Nat} (h8 : k % 8 = 0) {l : List Byte} (hl : l.length = 8) (bad : Bool) :
    (∀ n, n < 8 → (s.storeWord k l bad).byteAt (k + n) = if bad then 0 else (l[n]?).getD 0) ∧ (s.storeWord k l bad).poisonAt k = bad ∧
      s.BytesBut (s.storeWord k l bad) k 8 ∧ ∀ j, j < k ∨ k + 8 ≤ j → (s.storeWord k l bad).poisonAt j = s.poisonAt j := by
  refine ⟨fun n hn => ?_, ?_, fun j hj => ?_, fun j hj => ?_⟩
  · rw [State.byteAt_storeWord i.mem hl, if_pos (by omega), Nat.add_sub_cancel_left]
  · rw [State.poisonAt_storeWord i.poison, if_pos rfl]
  · rw [State.byteAt_storeWord i.mem hl, if_neg (by omega)]
  · rw [State.poisonAt_storeWord i.poison, if_neg (by omega)]

/-- Settles O26: a read by its answer and frame, a write by the word it stores, an atomic by the mark of the word it meets. -/
theorem memoryServesWords : Obligations.MemoryServesWords := by
  intro s p a ch ca op i ha hloc hready hca _ _
  have h : s.ServedWord a ch ca := ⟨ha, hloc, hready, hca⟩
  have kept (src : Nat) (q : Bool) (j : Nat) : (s.noteDecode (dramKey ch ca) src 0 .clean q).byteAt j = s.byteAt j :=
    State.byteAt_congr ((State.noteDecode_keep ..).mem rfl) j
  refine ⟨congrArg Prod.fst (State.serve_read h p op), fun j => ?_, fun l bad hl hp => ?_, fun aop x y hx hy hp => ?_⟩
  · rw [State.serve_read h]
    exact kept srcRead _ j
  · have hpm : (if bad then 1 else 0 : Nat).testBit 0 = bad := by cases bad <;> rfl
    rw [State.serve_write h hl hp, hpm]
    exact ⟨rfl, State.storeWord_reads i h.key_aligned hl bad⟩
  · rw [State.serve_atom hx hy, State.devAtomic_served h hp]
    dsimp only
    refine ⟨fun hk => ?_, fun hk => ?_⟩
    · rw [hk]
      have hl := toLE_length 8 (atomNew aop (leNat (s.bytesAt (dramKey ch ca) 8)) x y)
      obtain ⟨-, -, hbut, -⟩ := State.storeWord_reads i h.key_aligned hl false
      exact ⟨rfl, rfl, State.bytesAt_storeWord i.mem hl, hbut⟩
    · rw [hk]
      exact ⟨rfl, kept srcPart true⟩

end Sys2Proof.Machine
end

section
/-! SUPPORT. The compression operations of a vector unit (R169 to R173). -/

namespace Sys2Proof.Machine

/-- A COMP operation completes where its result is quiet, and leaves what that result gives. -/
theorem Completes.of_comp {mk : Fin 18 → Fin 55 → DWord → Instr} {sub : Nat} {H : State → Nat → Nat → DWord → Prop}
    {P : State → Nat → Nat → DWord → State → Prop}
    (hx : ∀ (s : State) (ps : Fin 18) (u : Fin 55) (w : DWord), exec (mk ps u w) s = s.fireRow (compIs sub u w) ps u w [])
    (hsub : ∀ (s : State) (ps u : Nat) (w : DWord), H s ps u w → slotSub w = sub)
    (hr : ∀ (s : State) (ps u : Nat) (w : DWord), unitKind u = some .vec → slotOp u w = 10 → slotOk u w = true → H s ps u w →
      ∃ r, s.slotRes ps u w = some r ∧ r.Quiet ∧ ∀ t, Leaves t ps u r → P s ps u w t) : Completes mk .vec 10 H P := by
  intro s ps u w hf hi ho hH
  obtain ⟨hk, hop⟩ : unitKind u = some .vec ∧ slotOp u w = 10 := by simpa [slotIs] using hi
  have hc : compIs sub u w = true := by simp [compIs, hi, hsub s ps u w hH]
  obtain ⟨r, hres, hq, hP⟩ := hr s ps u w hk hop ho hH
  obtain ⟨t, ht, hframe, hspn⟩ :=
    State.fireRow_completes hf hc ho (by simp [hk]) (by simp [hk]) hres hq.notes hq.rsv hq.fault hq.cnts
  rw [takenRow_none hk (by decide)] at hspn
  exact ⟨t, (hx s ps u w).trans ht, hframe, hP t hspn⟩

section
variable {s : State} {ps u : Nat} {w : DWord}

/-- A COMP slot other than PCNT takes a predicate only where its word names one (R588). -/
theorem slotPred_comp_none (hk : unitKind u = some .vec) (h5 : slotSub w ≠ 5) (hp : vPred w = false) : s.slotPred ps u w = none := by
  have h12 : slot w 12 12 ≠ 1 := by simpa [vPred] using hp
  have hc : ctlPort (s.spn ps) u w = none := by simp [ctlPort, hk, h5, h12]
  unfold State.slotPred
  rw [hc]

/-- The lanes that XOUT gives are of at most 32 bits (R170). -/
theorem laneW_of_xout (hk : unitKind u = some .vec) (hop : slotOp u w = 10) (ho : slotOk u w = true) (hsub : slotSub w = 4) : laneW (vDfmt w) ≤ 32 := by
  have hop' : slot w 63 58 = 10 := by simpa [slotOp, hk] using hop
  refine laneW_le fun hd => ?_
  simp [slotOk, hk, vecOk, hop', hsub, hd] at ho

end

/-- The data of lane results without poison are their codes. -/
theorem packRes_codes (b : Nat) (l : List Nat) : (packRes b (l.map fun x => { code := x })).1 = packLanes b l := by
  simp [packRes, Function.comp_def]

/-! ### What the operations give. -/

section
variable {c : UCtx} {u : Nat} {w : DWord} {f : Flit} {gen : BitVec 2} {sp : Spn}

/-- NZ counts nothing but the flits it finds all zero (R173). -/
theorem fireNz_cnts {pred : Option Flit} {n : Nat × Nat} (h : n ∈ (fireNz w f pred gen sp).cnts) : n.1 = 0x0604 := by
  unfold fireNz at h
  dsimp only at h
  split at h
  · exact absurd h List.not_mem_nil
  · exact congrArg Prod.fst (List.mem_singleton.mp h)

/-- PACK of a flit whose group does not fill a stream flit (R171). -/
theorem firePack_waits (h : (streamOf sp u).pend.length + (packGroup c w f).1.length < 248) :
    firePack c u w f none gen sp =
      { sp := putStream sp u { streamOf sp u with
          starts := (streamOf sp u).starts ++ [(streamOf sp u).pend.length], pend := (streamOf sp u).pend ++ (packGroup c w f).1,
          ppoison := (streamOf sp u).ppoison || f.anyBad }
        outs := [tripOut w 0 gen false sp], flags := if f.anyBad then FPOISON else (packGroup c w f).2 } :=
  if_neg (by rw [maskFlit, List.length_append]; exact Nat.not_le.mpr h)

/-- FLUSH of a stream with no bytes pending (R169). -/
theorem fireFlush_empty (h : (streamOf sp u).pend = []) :
    fireFlush u w gen sp =
      { sp := putStream sp u { streamOf sp u with pend := [], starts := [], offset := 0, ppoison := false }
        outs := [tripOut w 0 gen false sp] } := if_pos h

/-- XOUT of a complete front group that carries no poison (R172). -/
theorem fireXout_front {len : Nat} (hb : (streamOf sp u).begun ≠ 0) (hl : frontGroup (expBytes w) (streamOf sp u).exp = some len)
    (hp : (((streamOf sp u).exp.take len).any (·.2)) = false) :
    fireXout u w gen sp =
      { vResult w gen 4 (vDfmt w) ((expandLanes (expBytes w) (leNat ((((streamOf sp u).exp.take len).map (·.1)).take 8)) 64 0
          ((((streamOf sp u).exp.take len).map (·.1)).drop 8)).map fun x => { code := x }) sp with
        sp := putStream sp u { streamOf sp u with exp := (streamOf sp u).exp.drop len, begun := (streamOf sp u).begun - 1 } } := by
  unfold fireXout
  simp only [if_neg hb, hl, hp]

end

/-- Settles O12: each operation from its result. -/
theorem compressionCompletes : Obligations.CompressionCompletes := by
  refine ⟨?nz, ?pack, ?flush, ?xin, fun len => ?xout, ?pcnt⟩
  case nz =>
    refine .of_comp (fun _ _ _ _ => rfl) (fun _ _ _ _ h => h.1) fun s ps u w hk hop _ ⟨hsub, hp⟩ => ?_
    have hres : s.slotRes ps u w = some (fireNz w (s.slotTok ps u w 0) none (s.gen ps) (s.taken ps u w)) := by
      simp only [State.slotRes, fireRes, hk, hop, hsub, slotPred_comp_none hk (by omega) hp]
    exact ⟨_, hres, { cnts := fun _ hn => .inr (.inl (fireNz_cnts hn)) }, fun t ht => ht.gives rfl⟩
  case pack =>
    refine .of_comp (fun _ _ _ _ => rfl) (fun _ _ _ _ h => h.1) fun s ps u w hk hop _ ⟨hsub, hp, hroom⟩ => ?_
    have hres : s.slotRes ps u w = some (firePack (s.uctx ps) u w (s.slotTok ps u w 0) none (s.gen ps) (s.taken ps u w)) := by
      simp only [State.slotRes, fireRes, hk, hop, hsub, slotPred_comp_none hk (by omega) hp]
    rw [firePack_waits (sp := s.taken ps u w) hroom] at hres
    exact ⟨_, hres, {}, fun t ht => ht.gives rfl⟩
  case flush =>
    refine .of_comp (fun _ _ _ _ => rfl) (fun _ _ _ _ h => h.1) fun s ps u w hk hop _ ⟨hsub, hempty⟩ => ?_
    have hres : s.slotRes ps u w = some (fireFlush u w (s.gen ps) (s.taken ps u w)) := by
      simp only [State.slotRes, fireRes, hk, hop, hsub]
    rw [fireFlush_empty (sp := s.taken ps u w) hempty] at hres
    exact ⟨_, hres, {}, fun t ht => ht.gives rfl⟩
  case xin =>
    refine .of_comp (fun _ _ _ _ => rfl) (fun _ _ _ _ h => h.1) fun s ps u w hk hop _ ⟨hsub, hnone⟩ => ?_
    have hres : s.slotRes ps u w = some (fireXin u w (s.slotTok ps u w 0) (s.gen ps) (s.taken ps u w)) := by
      simp only [State.slotRes, fireRes, hk, hop, hsub]
    have hnone' : completeGroups (expBytes w) (streamOf (s.taken ps u w) u).begun (streamOf (s.taken ps u w) u).exp = 0 := hnone
    rw [fireXin, if_neg (not_not_intro hnone')] at hres
    exact ⟨_, hres, {}, fun t ht => ht.gives rfl⟩
  case xout =>
    refine .of_comp (fun _ _ _ _ => rfl) (fun _ _ _ _ h => h.1) fun s ps u w hk hop ho ⟨hsub, hb, hl, hp⟩ => ?_
    have hres : s.slotRes ps u w = some (fireXout u w (s.gen ps) (s.taken ps u w)) := by
      simp only [State.slotRes, fireRes, hk, hop, hsub]
    rw [fireXout_front (sp := s.taken ps u w) hb hl hp] at hres
    refine ⟨_, hres, {}, fun t ht => ⟨_, ht.gives rfl, rfl, fun i hi => ?_⟩⟩
    have hfit : laneW (vDfmt w) * i + laneW (vDfmt w) ≤ 2048 :=
      (Nat.mul_le_mul_left _ hi).trans (Nat.mul_le_mul_right 64 (laneW_of_xout hk hop ho hsub))
    rw [laneIs, packRes_codes, mkFlit, lane_flitData hfit, lane_packLanes]
    rfl
  case pcnt =>
    refine .of_comp (fun _ _ _ _ => rfl) (fun _ _ _ _ h => h) fun s ps u w hk hop _ hsub => ?_
    have hres : s.slotRes ps u w = some (firePcnt w (s.slotTok ps u w 2) (s.gen ps) (s.taken ps u w)) := by
      simp only [State.slotRes, fireRes, hk, hop, hsub]
    exact ⟨_, hres, {}, fun t ht => ht.gives rfl⟩

end Sys2Proof.Machine
end

section
/-! SUPPORT. Every command and every period of the reference keeps the canonical forms and bounds (R220, R230, R246, R269, R516, R524, R544),
and the state after reset has them. -/

namespace Sys2Proof.Machine

/-- A command keeps the queue of commands, every canonical form and every bound: each by the law of its own meaning. -/
theorem exec_keep : ∀ (c : Instr) (s : State), KeepR 1 s (exec c s)
  | .pwrEnRise .., _ => (execPwrEnRise_keep ..).mono rfl
  | .pwrEnFall, _ => (execPwrEnFall_keep ..).mono rfl
  | .powerGroupGood, _ => (execPowerGroupGood_keep ..).mono rfl
  | .powerGroupTimeout, _ => (execPowerGroupTimeout_keep ..).mono rfl
  | .inputSample .., _ => (execInputSample_keep ..).mono rfl
  | .moduleThermalTrip, _ => (execModuleThermalTrip_keep ..).mono rfl
  | .regAccessTimeout .., _ => (execRegAccessTimeout_keep ..).mono rfl
  | .reg64LowRead .., _ => (execReg64LowRead_keep ..).mono rfl
  | .regWriteOther .., _ => (execRegWriteOther_keep ..).mono rfl
  | .exec .., _ => (execExec_keep ..).mono rfl
  | .idle .., _ => (execIdle_keep ..).mono rfl
  | .loop .., _ => (execLoop_keep ..).mono rfl
  | .sectionEnd .., _ => (execSectionEnd_keep ..).mono rfl
  | .sectionDrained .., _ => (execSectionDrained_keep ..).mono rfl
  | .sectionLoadProceed .., _ => (execSectionLoadProceed_keep ..).mono rfl
  | .step .., _ => (execStep_keep ..).mono rfl
  | .contextEnd .., _ => (execContextEnd_keep ..).mono rfl
  | .positionReport .., _ => (execPositionReport_keep ..).mono rfl
  | .minposBroadcast .., _ => (execMinposBroadcast_keep ..).mono rfl
  | .tokenArrival .., _ => (execTokenArrival_keep ..).mono rfl
  | .sluiceFill .., _ => (execSluiceFill_keep ..).mono rfl
  | .sluiceRelease .., _ => (execSluiceRelease_keep ..).mono rfl
  | .completionAck .., _ => (execCompletionAck_keep ..).mono rfl
  | .mac .., _ => (execMac_keep ..).mono rfl
  | .loadw .., _ => (execLoadw_keep ..).mono rfl
  | .clear .., _ => (execClear_keep ..).mono rfl
  | .read .., _ => (execRead_keep ..).mono rfl
  | .spill .., _ => (execSpill_keep ..).mono rfl
  | .load .., _ => (execLoad_keep ..).mono rfl
  | .merge .., _ => (execMerge_keep ..).mono rfl
  | .add .., _ => (execAdd_keep ..).mono rfl
  | .sub .., _ => (execSub_keep ..).mono rfl
  | .mul .., _ => (execMul_keep ..).mono rfl
  | .fma .., _ => (execFma_keep ..).mono rfl
  | .min .., _ => (execMin_keep ..).mono rfl
  | .max .., _ => (execMax_keep ..).mono rfl
  | .cmp .., _ => (execCmp_keep ..).mono rfl
  | .cvt .., _ => (execCvt_keep ..).mono rfl
  | .red .., _ => (execRed_keep ..).mono rfl
  | .mov .., _ => (execMov_keep ..).mono rfl
  | .rng .., _ => (execRng_keep ..).mono rfl
  | .nz .., _ => (execNz_keep ..).mono rfl
  | .pack .., _ => (execPack_keep ..).mono rfl
  | .flush .., _ => (execFlush_keep ..).mono rfl
  | .xin .., _ => (execXin_keep ..).mono rfl
  | .xout .., _ => (execXout_keep ..).mono rfl
  | .pcnt .., _ => (execPcnt_keep ..).mono rfl
  | .exp2 .., _ => (execExp2_keep ..).mono rfl
  | .log2 .., _ => (execLog2_keep ..).mono rfl
  | .reciprocal .., _ => (execReciprocal_keep ..).mono rfl
  | .reciprocalSquareRoot .., _ => (execReciprocalSquareRoot_keep ..).mono rfl
  | .sin .., _ => (execSin_keep ..).mono rfl
  | .cos .., _ => (execCos_keep ..).mono rfl
  | .switch .., _ => (execSwitch_keep ..).mono rfl
  | .steerMerge .., _ => (execSteerMerge_keep ..).mono rfl
  | .gate .., _ => (execGate_keep ..).mono rfl
  | .split .., _ => (execSplit_keep ..).mono rfl
  | .count .., _ => (execCount_keep ..).mono rfl
  | .phase .., _ => (execPhase_keep ..).mono rfl
  | .rot .., _ => (execRot_keep ..).mono rfl
  | .blk .., _ => (execBlk_keep ..).mono rfl
  | .mrg .., _ => (execMrg_keep ..).mono rfl
  | .mergeEngineComplete .., _ => (execMergeEngineComplete_keep ..).mono rfl
  | .fin .., _ => (execFin_keep ..).mono rfl
  | .seqSpill .., _ => (execSeqSpill_keep ..).mono rfl
  | .topk .., _ => (execTopk_keep ..).mono rfl
  | .post .., _ => (execPost_keep ..).mono rfl
  | .grant .., _ => (execGrant_keep ..).mono rfl
  | .scatter .., _ => (execScatter_keep ..).mono rfl
  | .dspReturn .., _ => (execDspReturn_keep ..).mono rfl
  | .treset .., _ => (execTreset_keep ..).mono rfl
  | .postJob .., _ => (execPostJob_keep ..).mono rfl
  | .grantJob .., _ => (execGrantJob_keep ..).mono rfl
  | .scatterJob .., _ => (execScatterJob_keep ..).mono rfl
  | .returnJob .., _ => (execReturnJob_keep ..).mono rfl
  | .tresetJob .., _ => (execTresetJob_keep ..).mono rfl
  | .dispatchArrival .., _ => (execDispatchArrival_keep ..).mono rfl
  | .dspArrivalTimeout .., _ => (execDspArrivalTimeout_keep ..).mono rfl
  | .bread .., _ => (execBread_keep ..).mono rfl
  | .bwrite .., _ => (execBwrite_keep ..).mono rfl
  | .rd .., _ => (execRd_keep ..).mono rfl
  | .wr .., _ => (execWr_keep ..).mono rfl
  | .atom .., _ => (execAtom_keep ..).mono rfl
  | .recv .., _ => (execRecv_keep ..).mono rfl
  | .send .., _ => (execSend_keep ..).mono rfl
  | .watch .., _ => (execWatch_keep ..).mono rfl
  | .bankExternalAccess .., _ => (execBankExternalAccess_keep ..).mono rfl
  | .bankSteal .., _ => (execBankSteal_keep ..).mono rfl
  | .spnSectCtlForce .., _ => (execSpnSectCtlForce_keep ..).mono rfl
  | .forcedLoadResume .., _ => (execForcedLoadResume_keep ..).mono rfl
  | .stopAtEnd .., _ => (execStopAtEnd_keep ..).mono rfl
  | .drainRequest .., _ => (execDrainRequest_keep ..).mono rfl
  | .drainPointReached .., _ => (execDrainPointReached_keep ..).mono rfl
  | .runEmptyDrainDone .., _ => (execRunEmptyDrainDone_keep ..).mono rfl
  | .drainLimitExpiry .., _ => (execDrainLimitExpiry_keep ..).mono rfl
  | .scanDrainOpsDone .., _ => (execScanDrainOpsDone_keep ..).mono rfl
  | .drainSaveWritten .., _ => (execDrainSaveWritten_keep ..).mono rfl
  | .spindleRestore .., _ => (execSpindleRestore_keep ..).mono rfl
  | .spindleRestoreProceed .., _ => (execSpindleRestoreProceed_keep ..).mono rfl
  | .ctxLoadValidated .., _ => (execCtxLoadValidated_keep ..).mono rfl
  | .quantumExpiry, _ => (execQuantumExpiry_keep ..).mono rfl
  | .contextSwitchDrained .., _ => (execContextSwitchDrained_keep ..).mono rfl
  | .dramRequest .., _ => (execDramRequest_keep ..).mono rfl
  | .repairCopyDone .., _ => (execRepairCopyDone_keep ..).mono rfl
  | .repairCopyTimeout .., _ => (execRepairCopyTimeout_keep ..).mono rfl
  | .scrubStep .., _ => (execScrubStep_keep ..).mono rfl
  | .refresh .., _ => (execRefresh_keep ..).mono rfl
  | .stackSensorRead .., _ => (execStackSensorRead_keep ..).mono rfl
  | .selfRefreshExitTimeout .., _ => (execSelfRefreshExitTimeout_keep ..).mono rfl
  | .memStripeWrite .., _ => (execMemStripeWrite_keep ..).mono rfl
  | .memChFence .., _ => (execMemChFence_keep ..).mono rfl
  | .sramScrub .., _ => (execSramScrub_keep ..).mono rfl
  | .ringFlitArrival .., _ => (execRingFlitArrival_keep ..).mono rfl
  | .injectionStarve .., _ => (execInjectionStarve_keep ..).mono rfl
  | .ringOpTimeout .., _ => (execRingOpTimeout_keep ..).mono rfl
  | .eventRecord .., _ => (execEventRecord_keep ..).mono rfl
  | .channelMessage .., _ => (execChannelMessage_keep ..).mono rfl
  | .channelAccept .., _ => (execChannelAccept_keep ..).mono rfl
  | .channelClosed .., _ => (execChannelClosed_keep ..).mono rfl
  | .channelCredit .., _ => (execChannelCredit_keep ..).mono rfl
  | .closeNotice .., _ => (execCloseNotice_keep ..).mono rfl
  | .endMark .., _ => (execEndMark_keep ..).mono rfl
  | .stallThreshold .., _ => (execStallThreshold_keep ..).mono rfl
  | .trainingStart .., _ => (execTrainingStart_keep ..).mono rfl
  | .trainingComplete .., _ => (execTrainingComplete_keep ..).mono rfl
  | .trainingTimeout .., _ => (execTrainingTimeout_keep ..).mono rfl
  | .retryTimerExpiry .., _ => (execRetryTimerExpiry_keep ..).mono rfl
  | .linkSignalLoss .., _ => (execLinkSignalLoss_keep ..).mono rfl
  | .portCtlRetrain .., _ => (execPortCtlRetrain_keep ..).mono rfl
  | .frameReceive .., _ => (execFrameReceive_keep ..).mono rfl
  | .fabWrite .., _ => (execFabWrite_keep ..).mono rfl
  | .fabReadRequest .., _ => (execFabReadRequest_keep ..).mono rfl
  | .fabReadResponse .., _ => (execFabReadResponse_keep ..).mono rfl
  | .fabAtomic .., _ => (execFabAtomic_keep ..).mono rfl
  | .fabMulticastWrite .., _ => (execFabMulticastWrite_keep ..).mono rfl
  | .fabAck .., _ => (execFabAck_keep ..).mono rfl
  | .fabOpTimeout .., _ => (execFabOpTimeout_keep ..).mono rfl
  | .fabRxTimeout, _ => (execFabRxTimeout_keep ..).mono rfl
  | .tombstoneExpiry, _ => (execTombstoneExpiry_keep ..).mono rfl
  | .hopTimeout, _ => (execHopTimeout_keep ..).mono rfl
  | .epochSwitchAtTime, _ => (execEpochSwitchAtTime_keep ..).mono rfl
  | .epochGuardExpiry, _ => (execEpochGuardExpiry_keep ..).mono rfl
  | .fabEpochWrite .., _ => (execFabEpochWrite_keep ..).mono rfl
  | .collPoll .., _ => (execCollPoll_keep ..).mono rfl
  | .reduceContribution .., _ => (execReduceContribution_keep ..).mono rfl
  | .collReportArrival .., _ => (execCollReportArrival_keep ..).mono rfl
  | .collAgreedSetArrival .., _ => (execCollAgreedSetArrival_keep ..).mono rfl
  | .collResultArrival .., _ => (execCollResultArrival_keep ..).mono rfl
  | .collDeadlineExpiry .., _ => (execCollDeadlineExpiry_keep ..).mono rfl
  | .collAgreeTimeout .., _ => (execCollAgreeTimeout_keep ..).mono rfl
  | .collResultTimeout ecb f, s => (execCollResultTimeout_keep ecb f s).mono rfl
  | .heartbeatInterval, _ => (execHeartbeatInterval_keep ..).mono rfl
  | .heartbeat .., _ => (execHeartbeat_keep ..).mono rfl
  | .breachNotice .., _ => (execBreachNotice_keep ..).mono rfl
  | .realignment, _ => (execRealignment_keep ..).mono rfl
  | .detAlignRealign, _ => (execDetAlignRealign_keep ..).mono rfl
  | .sealDigestDone .., _ => (execSealDigestDone_keep ..).mono rfl
  | .recordSigned .., _ => (execRecordSigned_keep ..).mono rfl
  | .deferredChangeApply, _ => (execDeferredChangeApply_keep ..).mono rfl
  | .testWaveDone .., _ => (execTestWaveDone_keep ..).mono rfl
  | .testTimeout .., _ => (execTestTimeout_keep ..).mono rfl
  | .mapRiseApply, _ => (execMapRiseApply_keep ..).mono rfl
  | .spareTransfer .., _ => (execSpareTransfer_keep ..).mono rfl
  | .rollTestDue, _ => (execRollTestDue_keep ..).mono rfl
  | .rollTestDone .., _ => (execRollTestDone_keep ..).mono rfl
  | .rollWaitTimeout, _ => (execRollWaitTimeout_keep ..).mono rfl
  | .ageingReading .., _ => (execAgeingReading_keep ..).mono rfl
  | .pohSave, _ => (execPohSave_keep ..).mono rfl
  | .resetRequest .., _ => (execResetRequest_keep ..).mono rfl
  | .resetAssert .., _ => (execResetAssert_keep ..).mono rfl
  | .resetInit .., _ => (execResetInit_keep ..).mono rfl
  | .resetComplete .., _ => (execResetComplete_keep ..).mono rfl
  | .resetTimeout .., _ => (execResetTimeout_keep ..).mono rfl
  | .sysResetNAssert, _ => (execSysResetNAssert_keep ..).mono rfl
  | .sysResetNRelease .., _ => (execSysResetNRelease_keep ..).mono rfl
  | .progressWatchdogExpiry .., _ => (execProgressWatchdogExpiry_keep ..).mono rfl
  | .stallHangThreshold .., _ => (execStallHangThreshold_keep ..).mono rfl
  | .ckptHeaderAcked .., _ => (execCkptHeaderAcked_keep ..).mono rfl
  | .ckptDrainComplete, _ => (execCkptDrainComplete_keep ..).mono rfl
  | .ckptCommitted, _ => (execCkptCommitted_keep ..).mono rfl
  | .ckptDrainTimeout, _ => (execCkptDrainTimeout_keep ..).mono rfl
  | .restoreHeaderRead, _ => (execRestoreHeaderRead_keep ..).mono rfl
  | .restoreDataDone .., _ => (execRestoreDataDone_keep ..).mono rfl
  | .refclkLost .., _ => (execRefclkLost_keep ..).mono rfl
  | .refclkRestored, _ => (execRefclkRestored_keep ..).mono rfl
  | .refBothLost, _ => (execRefBothLost_keep ..).mono rfl
  | .freqChangeRequest, _ => (execFreqChangeRequest_keep ..).mono rfl
  | .freqChangeBroadcast .., _ => (execFreqChangeBroadcast_keep ..).mono rfl
  | .freqSwitch, _ => (execFreqSwitch_keep ..).mono rfl
  | .freqVoltageSettled, _ => (execFreqVoltageSettled_keep ..).mono rfl
  | .pllLockTimeout, _ => (execPllLockTimeout_keep ..).mono rfl
  | .droopDetect .., _ => (execDroopDetect_keep ..).mono rfl
  | .stretchWindowEnd, _ => (execStretchWindowEnd_keep ..).mono rfl
  | .droopReturn, _ => (execDroopReturn_keep ..).mono rfl
  | .safeClockStepUp, _ => (execSafeClockStepUp_keep ..).mono rfl
  | .capWindowEnd, _ => (execCapWindowEnd_keep ..).mono rfl
  | .powerAvg1ms .., _ => (execPowerAvg1ms_keep ..).mono rfl
  | .junctionSensorRead .., _ => (execJunctionSensorRead_keep ..).mono rfl
  | .thermStepTimer, _ => (execThermStepTimer_keep ..).mono rfl
  | .domainRegulationFault .., _ => (execDomainRegulationFault_keep ..).mono rfl
  | .pwrGateWrite .., _ => (execPwrGateWrite_keep ..).mono rfl
  | .telemetryRefresh .., _ => (execTelemetryRefresh_keep ..).mono rfl
  | .i3cRead .., _ => (execI3cRead_keep ..).mono rfl
  | .flashSidebandCmd .., _ => (execFlashSidebandCmd_keep ..).mono rfl
  | .lockstepMismatch, _ => (execLockstepMismatch_keep ..).mono rfl
  | .mgmtFrameReceive .., _ => (execMgmtFrameReceive_keep ..).mono rfl
  | .virtioNetTransmit .., _ => (execVirtioNetTransmit_keep ..).mono rfl
  | .corePoisonFault .., _ => (execCorePoisonFault_keep ..).mono rfl
  | .ppsEdge .., _ => (execPpsEdge_keep ..).mono rfl
  | .mgmtPtpSetWrite .., _ => (execMgmtPtpSetWrite_keep ..).mono rfl
  | .ppsEvClear, _ => (execPpsEvClear_keep ..).mono rfl
  | .mgmtCoreRunWrite .., _ => (execMgmtCoreRunWrite_keep ..).mono rfl
  | .spnNumFlagsWrite .., _ => (execSpnNumFlagsWrite_keep ..).mono rfl
  | .debugUnlock .., _ => (execDebugUnlock_keep ..).mono rfl
  | .debugRelock .., _ => (execDebugRelock_keep ..).mono rfl
  | .sessionConfirmTimeout, _ => (execSessionConfirmTimeout_keep ..).mono rfl
  | .sessionIdleTimeout, _ => (execSessionIdleTimeout_keep ..).mono rfl
  | .sessionLifetimeExpiry, _ => (execSessionLifetimeExpiry_keep ..).mono rfl
  | .qnonceExpiry, _ => (execQnonceExpiry_keep ..).mono rfl
  | .leaseExpiry, _ => (execLeaseExpiry_keep ..).mono rfl
  | .cmdLcpInWrite .., _ => (execCmdLcpInWrite_keep ..).mono rfl
  | .cmdLcpOutRead .., _ => (execCmdLcpOutRead_keep ..).mono rfl
  | .resync, _ => (execResync_keep ..).mono rfl
  | .lcpAssemblyTimeout, _ => (execLcpAssemblyTimeout_keep ..).mono rfl
  | .cmdQueueTimeout, _ => (execCmdQueueTimeout_keep ..).mono rfl
  | .aFirstLimit, _ => (execAFirstLimit_keep ..).mono rfl
  | .identGet .., _ => (execIdentGet_keep ..).mono rfl
  | .stateGet .., _ => (execStateGet_keep ..).mono rfl
  | .inventoryGet .., _ => (execInventoryGet_keep ..).mono rfl
  | .certGet .., _ => (execCertGet_keep ..).mono rfl
  | .mgmtAddrSet .., _ => (execMgmtAddrSet_keep ..).mono rfl
  | .sessionOpen .., _ => (execSessionOpen_keep ..).mono rfl
  | .sessionConfirm .., _ => (execSessionConfirm_keep ..).mono rfl
  | .sessionClose .., _ => (execSessionClose_keep ..).mono rfl
  | .leaseAcquire .., _ => (execLeaseAcquire_keep ..).mono rfl
  | .leaseRenew .., _ => (execLeaseRenew_keep ..).mono rfl
  | .leaseRelease .., _ => (execLeaseRelease_keep ..).mono rfl
  | .leaseTakeover .., _ => (execLeaseTakeover_keep ..).mono rfl
  | .leaseGet .., _ => (execLeaseGet_keep ..).mono rfl
  | .qnonceGet .., _ => (execQnonceGet_keep ..).mono rfl
  | .keytabGet .., _ => (execKeytabGet_keep ..).mono rfl
  | .keytabInit .., _ => (execKeytabInit_keep ..).mono rfl
  | .keytabSet .., _ => (execKeytabSet_keep ..).mono rfl
  | .keytabRestore .., _ => (execKeytabRestore_keep ..).mono rfl
  | .clkPlanSet .., _ => (execClkPlanSet_keep ..).mono rfl
  | .pwrCapSet .., _ => (execPwrCapSet_keep ..).mono rfl
  | .domainGate .., _ => (execDomainGate_keep ..).mono rfl
  | .clkpwrGet .., _ => (execClkpwrGet_keep ..).mono rfl
  | .ctxLoad .., _ => (execCtxLoad_keep ..).mono rfl
  | .ctxUnload .., _ => (execCtxUnload_keep ..).mono rfl
  | .ctxSwitch .., _ => (execCtxSwitch_keep ..).mono rfl
  | .ctxStatus .., _ => (execCtxStatus_keep ..).mono rfl
  | .quantumSet .., _ => (execQuantumSet_keep ..).mono rfl
  | .stripeSet .., _ => (execStripeSet_keep ..).mono rfl
  | .spnGet .., _ => (execSpnGet_keep ..).mono rfl
  | .chnGet .., _ => (execChnGet_keep ..).mono rfl
  | .fence .., _ => (execFence_keep ..).mono rfl
  | .returnUnit .., _ => (execReturnUnit_keep ..).mono rfl
  | .returnTestDone .., _ => (execReturnTestDone_keep ..).mono rfl
  | .rowRepair .., _ => (execRowRepair_keep ..).mono rfl
  | .fuseBurn .., _ => (execFuseBurn_keep ..).mono rfl
  | .spolSet .., _ => (execSpolSet_keep ..).mono rfl
  | .marginClear .., _ => (execMarginClear_keep ..).mono rfl
  | .chanCfg .., _ => (execChanCfg_keep ..).mono rfl
  | .repairGet .., _ => (execRepairGet_keep ..).mono rfl
  | .testPolicySet .., _ => (execTestPolicySet_keep ..).mono rfl
  | .rollCfg .., _ => (execRollCfg_keep ..).mono rfl
  | .testGet .., _ => (execTestGet_keep ..).mono rfl
  | .reset .., _ => (execReset_keep ..).mono rfl
  | .suspectGet .., _ => (execSuspectGet_keep ..).mono rfl
  | .suspectClear .., _ => (execSuspectClear_keep ..).mono rfl
  | .quarStart .., _ => (execQuarStart_keep ..).mono rfl
  | .quarEnd .., _ => (execQuarEnd_keep ..).mono rfl
  | .hangCfg .., _ => (execHangCfg_keep ..).mono rfl
  | .coordSet .., _ => (execCoordSet_keep ..).mono rfl
  | .fabAddrSet .., _ => (execFabAddrSet_keep ..).mono rfl
  | .rtWrite .., _ => (execRtWrite_keep ..).mono rfl
  | .mcWrite .., _ => (execMcWrite_keep ..).mono rfl
  | .epochSwitch .., _ => (execEpochSwitch_keep ..).mono rfl
  | .portCfg .., _ => (execPortCfg_keep ..).mono rfl
  | .portAct .., _ => (execPortAct_keep ..).mono rfl
  | .portGwSet .., _ => (execPortGwSet_keep ..).mono rfl
  | .topoGet .., _ => (execTopoGet_keep ..).mono rfl
  | .dikeSet .., _ => (execDikeSet_keep ..).mono rfl
  | .watchSet .., _ => (execWatchSet_keep ..).mono rfl
  | .peerClear .., _ => (execPeerClear_keep ..).mono rfl
  | .shadowSet .., _ => (execShadowSet_keep ..).mono rfl
  | .shadowPromote .., _ => (execShadowPromote_keep ..).mono rfl
  | .collCfg .., _ => (execCollCfg_keep ..).mono rfl
  | .withdraw .., _ => (execWithdraw_keep ..).mono rfl
  | .returnService .., _ => (execReturnService_keep ..).mono rfl
  | .ckptSetup .., _ => (execCkptSetup_keep ..).mono rfl
  | .ckptNow .., _ => (execCkptNow_keep ..).mono rfl
  | .restore .., _ => (execRestore_keep ..).mono rfl
  | .reelCfg .., _ => (execReelCfg_keep ..).mono rfl
  | .reelGet .., _ => (execReelGet_keep ..).mono rfl
  | .quote .., _ => (execQuote_keep ..).mono rfl
  | .measExtend .., _ => (execMeasExtend_keep ..).mono rfl
  | .sealRegion .., _ => (execSealRegion_keep ..).mono rfl
  | .recordCut .., _ => (execRecordCut_keep ..).mono rfl
  | .recordRead .., _ => (execRecordRead_keep ..).mono rfl
  | .recordRelease .., _ => (execRecordRelease_keep ..).mono rfl
  | .detGet .., _ => (execDetGet_keep ..).mono rfl
  | .calRead .., _ => (execCalRead_keep ..).mono rfl
  | .calWrite .., _ => (execCalWrite_keep ..).mono rfl
  | .calWriteDone, _ => (execCalWriteDone_keep ..).mono rfl
  | .logRead .., _ => (execLogRead_keep ..).mono rfl
  | .telemGet .., _ => (execTelemGet_keep ..).mono rfl
  | .regReadBasic .., _ => (execRegReadBasic_keep ..).mono rfl
  | .cmdStatus .., _ => (execCmdStatus_keep ..).mono rfl
  | .regRead .., _ => (execRegRead_keep ..).mono rfl
  | .regWrite .., _ => (execRegWrite_keep ..).mono rfl
  | .regModify .., _ => (execRegModify_keep ..).mono rfl
  | .startupProc .., _ => (execStartupProc_keep ..).mono rfl
  | .startupStraps .., _ => (execStartupStraps_keep ..).mono rfl
  | .strapResample .., _ => (execStrapResample_keep ..).mono rfl
  | .startupFuses .., _ => (execStartupFuses_keep ..).mono rfl
  | .startupClocks .., _ => (execStartupClocks_keep ..).mono rfl
  | .startupCal, _ => (execStartupCal_keep ..).mono rfl
  | .startupDram .., _ => (execStartupDram_keep ..).mono rfl
  | .startupTest, _ => (execStartupTest_keep ..).mono rfl
  | .startupAccept, _ => (execStartupAccept_keep ..).mono rfl
  | .startupCoord, _ => (execStartupCoord_keep ..).mono rfl
  | .coordWaitExpiry, _ => (execCoordWaitExpiry_keep ..).mono rfl
  | .startupLinks, _ => (execStartupLinks_keep ..).mono rfl
  | .startupImage, _ => (execStartupImage_keep ..).mono rfl
  | .tftpBlock .., _ => (execTftpBlock_keep ..).mono rfl
  | .tftpRetransmit, _ => (execTftpRetransmit_keep ..).mono rfl
  | .startupLaunch, _ => (execStartupLaunch_keep ..).mono rfl
  | .startupPhaseLimit, _ => (execStartupPhaseLimit_keep ..).mono rfl
  | .seamCrossingLoss .., _ => (execSeamCrossingLoss_keep ..).mono rfl
  | .holdoverLost, _ => (execHoldoverLost_keep ..).mono rfl
  | .mgmtLinkUp, _ => (execMgmtLinkUp_keep ..).mono rfl
  | .mgmtLinkLoss, _ => (execMgmtLinkLoss_keep ..).mono rfl
  | .mgmtSpeedAlternate, _ => (execMgmtSpeedAlternate_keep ..).mono rfl
  | .consoleReceive .., _ => (execConsoleReceive_keep ..).mono rfl
  | .consoleTransmit .., _ => (execConsoleTransmit_keep ..).mono rfl
  | .rcRead .., _ => (execRcRead_keep ..).mono rfl
  | .sknStatusRead .., _ => (execSknStatusRead_keep ..).mono rfl
  | .cmdDevStateRead .., _ => (execCmdDevStateRead_keep ..).mono rfl
  | .coreAccessFault .., _ => (execCoreAccessFault_keep ..).mono rfl
  | .i3cDynamicAddress .., _ => (execI3cDynamicAddress_keep ..).mono rfl
  | .dhcpReply .., _ => (execDhcpReply_keep ..).mono rfl

/-- The command taken from the front of the queue leaves a state as well kept. -/
theorem State.Inv.setPending {s : State} (i : s.Inv) (l : List Instr) : ({ s with pending := l } : State).Inv :=
  (Keep.setPending (m := 0) rfl (Keep.refl _ s)).inv i

/-- Settles O4: a period of the reference by the law of `State.tick`, a command by that of `exec`. -/
theorem stepKeepsInvariant : Obligations.StepKeepsInvariant := by
  intro s t i h
  unfold step at h
  split at h
  next => exact Host.Outcome.next.inj h ▸ s.tick_keep.inv i
  next c rest _ => exact ((exec_keep c _).keep t h).inv (i.setPending rest)

/-- Settles O3: at reset every table and every queue is empty. -/
theorem resetIsWellKept : Obligations.ResetIsWellKept where
  mem := rfl
  poison := rfl
  regs := rfl
  flash := rfl
  log := Nat.zero_le _
  nodes := ⟨rfl, fun _ h => absurd h List.not_mem_nil⟩
  spns := rfl
  chans := rfl
  latch := rfl
  cq := ⟨Nat.zero_le _, Nat.zero_le _⟩

end Sys2Proof.Machine
end

section
/-! SUPPORT. The error code of stored words (R230, R231) and the interleave of management DRAM (R227). -/

namespace Sys2Proof.Machine

/-- The syndromes of the 81 single-bit patterns are distinct, and none is the syndrome of no error. -/
theorem syndrome_bits_nodup : (0 :: (List.range 81).map fun i => syndrome (1 <<< i)).Nodup := by decide +kernel

theorem syndrome_bit_ne_zero {i : Nat} (h : i < 81) : syndrome (1 <<< i) ≠ 0 := fun h0 =>
  (List.nodup_cons.mp syndrome_bits_nodup).1 (h0 ▸ List.mem_map_of_mem (List.mem_range.mpr h))

theorem syndrome_bit_inj {i j : Nat} (hi : i < 81) (hj : j < 81) (h : syndrome (1 <<< i) = syndrome (1 <<< j)) : i = j :=
  List.inj_on_of_nodup_map (List.nodup_cons.mp syndrome_bits_nodup).2 (List.mem_range.mpr hi) (List.mem_range.mpr hj) h

/-- The pattern found for the syndrome of one flipped bit is that bit. -/
theorem eccPattern_bit {i : Nat} (h : i < 81) : eccPattern (syndrome (1 <<< i)) = some (1 <<< i) := by
  have hf : (List.range 81).find? (fun j => syndrome (1 <<< j) = syndrome (1 <<< i)) = some i := by
    rw [List.find?_range_eq_some]
    refine ⟨by simp, List.mem_range.mpr h, fun j hj => ?_⟩
    simpa using fun hs => absurd (syndrome_bit_inj (hj.trans h) h hs) (Nat.ne_of_lt hj)
  unfold eccPattern
  rw [hf]

/-- Settles O8: the pattern found is the bit flipped, so what is left of the error is nothing. -/
theorem eccCorrectsOneBit : Obligations.EccCorrectsOneBit := by
  intro data i p h
  unfold eccDecode
  rw [if_neg (syndrome_bit_ne_zero h), eccPattern_bit h]
  simp [bitsOf]

/-- Settles O58: the offset lies in the range of management DRAM, below which and above which nothing of `State.loc` applies. -/
theorem managementInterleave : Obligations.ManagementInterleave := by
  intro s m h
  unfold mgmtLo mgmtHi at *
  unfold State.loc
  rw [if_neg (by omega), if_pos h]
  simp only [Nat.add_sub_cancel_left]

end Sys2Proof.Machine
end

section
/-! SUPPORT. Health, test, reset and quarantine commands (R537 to R539), each from its meaning. -/

namespace Sys2Proof.Machine

/-! ### Registers written zero. -/

/-- Zero written to the registers of a list: each of them reads zero, every other register as before. -/
theorem State.rd_clears {s : State} (i : s.Inv) (a : Nat) : ∀ l : List Nat,
    (l.foldl (fun s b => s.wr b 0) s).rd a = if a ∈ l then 0 else s.rd a := by
  intro l
  induction l generalizing s with
  | nil => simp
  | cons b l ih =>
    rw [List.foldl_cons, ih ((State.wr_keep ..).inv i), State.rd_wr i.regs]
    by_cases hl : a ∈ l
    · simp [hl]
    · by_cases hb : a = b <;> simp [hl, hb]

theorem State.clears_keep (s : State) (l : List Nat) : Keep 0x3FFFFFFFB s (l.foldl (fun s b => s.wr b 0) s) :=
  Keep.foldl (fun _ _ => State.wr_keep ..) (Keep.refl _ _)

theorem mem_wordsFrom {a n k : Nat} (h : k < n) : a + 4 * k ∈ wordsFrom a n :=
  List.mem_map_of_mem (f := fun k => a + 4 * k) (List.mem_range.mpr h)

/-- A field keeps its value across a write of another register. -/
theorem State.Shows.wr {s : State} {a hi lo n : Nat} (h : s.Shows a hi lo n) {b : Nat} (hb : a ≠ b) (v : Nat) : (s.wr b v).Shows a hi lo n :=
  h.of_but (State.wr_keep ..) (s.wr_but b v) (by simpa using hb)

section
variable {s u : State} {r : Req} {t : RepTo}

/-! ### Fences, returns and repairs (R240, R390, R394, R398, R498). -/

theorem fence_completes (h : Executes defFence s r t u) : let n := rdLE (pkParams r.bytes) 0 2
    (u.fencedUnit n = true → exec (.fence r) s = .next (u.accepted defFence r t [])) ∧
    (u.fencedUnit n = false → exec (.fence r) s = .next ((u.fenceUnit n).accepted defFence r t [])) :=
  ⟨fun hf => h.ok (congrArg (outOk · []) (if_pos hf)), fun hf => h.ok (congrArg (outOk · []) (if_neg (by simp [hf])))⟩

theorem returnUnit_completes (h : Executes defReturn s r t u) : let n := rdLE (pkParams r.bytes) 0 2
    (u.rolling n = true → exec (.returnUnit r) s = .next (u.refusedWith r t stBUSY)) ∧
    (u.rolling n = false → u.fusedBad n 0 = true → exec (.returnUnit r) s = .next (u.refusedWith r t stBAD_STATE)) ∧
    (u.rolling n = false → u.fusedBad n 0 = false → u.fencedUnit n = false → exec (.returnUnit r) s = .next (u.accepted defReturn r t [])) ∧
    (u.rolling n = false → u.fusedBad n 0 = false → u.fencedUnit n = true →
      exec (.returnUnit r) s = .next ((u.beginReturn n).goesOn defReturn r t (.returning n) none)) :=
  ⟨fun hr => h.refused (by decide) (if_pos hr),
    fun hr hb => h.refused (by decide) ((if_neg (by simp [hr])).trans (if_pos hb)),
    fun hr hb hf => h.ok ((if_neg (by simp [hr])).trans ((if_neg (by simp [hb])).trans (if_pos (by simp [hf])))),
    fun hr hb hf => h.first ((if_neg (by simp [hr])).trans ((if_neg (by simp [hb])).trans (if_neg (by simp [hf]))))⟩

theorem rowRepair_completes (h : Executes defRowRepair s r t u) : let p := pkParams r.bytes; let ch := rdLE p 0 2 % 2048
    let g := u.startRepair ch (rdLE p 2 1) (rdLE p 3 1) (rdLE p 4 2) false
    (g.2 = none → exec (.rowRepair r) s = .next (g.1.heldFor defRowRepair r t (.repair ch (rdLE p 2 1) (rdLE p 3 1) (rdLE p 4 2)))) ∧
    (g.2 ≠ none → exec (.rowRepair r) s = .next (g.1.refusedWith r t stHW_FAULT)) :=
  ⟨fun hg => h.held (if_neg (by simp [hg])), fun hg => h.refused (by decide) (if_pos (Option.isSome_iff_ne_none.mpr hg))⟩

theorem fuseBurn_completes {bad : Bool} (h : Executes (defFuseBurn bad) s r t u) : let p := pkParams r.bytes
    (rdLE p 0 1 = 1 → u.fuse.owner ≠ none → exec (.fuseBurn r bad) s = .next (u.refusedWith r t stBAD_STATE)) ∧
    (rdLE p 0 1 = 1 → u.fuse.owner = none → exec (.fuseBurn r bad) s = .next (({ u with fuse := { u.fuse with owner := some (p.drop 1) } } : State).accepted
      (defFuseBurn bad) r t (toLE 2 (u.rf Reg.FUSE_FREE 9 0)))) ∧
    (rdLE p 0 1 ≠ 1 → u.freeFuse = none → exec (.fuseBurn r bad) s = .next (u.refusedWith r t stOUT_OF_RANGE)) ∧
    (∀ n, rdLE p 0 1 ≠ 1 → u.freeFuse = some n → let x := u.burnRepair n (rdLE p 1 2) (rdLE p 3 2) bad
      (bad = true → exec (.fuseBurn r bad) s = .next (x.refusedWith r t stHW_FAULT)) ∧
      (bad = false → exec (.fuseBurn r bad) s = .next (x.accepted (defFuseBurn bad) r t (toLE 2 (x.rf Reg.FUSE_FREE 9 0))))) := by
  refine ⟨fun hp ho => h.refused (by decide) ?_, fun hp ho => h.ok ?_, fun hp hn => h.refused (by decide) ?_, fun n hp hn =>
    ⟨fun hb => h.refused (by decide) ?_, fun hb => h.ok ?_⟩⟩
  all_goals
    unfold defFuseBurn
    dsimp only
  · rw [if_pos hp, if_pos (Option.isSome_iff_ne_none.mpr ho)]
  · rw [if_pos hp, if_neg (by simp [ho])]
  all_goals rw [if_neg hp, hn]
  all_goals dsimp only
  · rw [if_pos hb]
  · rw [if_neg (by simp [hb])]

/-! ### Policies and channels (R239, R241, R388, R429, R432). -/

theorem marginClear_completes (h : Executes defMarginClear s r t u) : let x := u.clearMargin
    (u.rbit Reg.RST_SPOL 2 = false → exec (.marginClear r) s = .next (x.accepted defMarginClear r t [])) ∧
    (u.rbit Reg.RST_SPOL 2 = true → u.tstrictRuns = false → exec (.marginClear r) s = .next (x.heldFor defMarginClear r t .freq)) ∧
    (u.rbit Reg.RST_SPOL 2 = true → u.tstrictRuns = true → exec (.marginClear r) s =
      .next ((x.remember defMarginClear r t []).answer t false stACCEPTED (pkLease r.bytes) [])) :=
  ⟨fun hs => h.ok (if_pos (by simp [hs])), fun hs ht => h.held ((if_neg (by simp [hs])).trans (if_neg (by simp [ht]))),
    fun hs ht => h.deferred ((if_neg (by simp [hs])).trans (if_pos ht))⟩

/-- A channel's settings in their registers. -/
def State.chanSettings (s : State) (p : List Byte) : State :=
  ((s.wf (Reg.MEM_CH_CTL (rdLE p 0 1)) 2 1 (rdLE p 1 1)).wf (Reg.MEM_SCRUB_CTL (rdLE p 0 1)) 7 0 (rdLE p 2 1)).wr (Reg.MEM_CE_THR (rdLE p 0 1)) (rdLE p 3 4)

theorem State.chanSettings_keep (s : State) (p : List Byte) : Keep 0x3FFFFFFFB s (s.chanSettings p) :=
  Keep.via (State.wr_keep ..) rfl <| Keep.via (State.wf_keep ..) rfl (State.wf_keep ..)

theorem State.chanSettings_reads {p : List Byte} (i : s.Inv) (hc : rdLE p 1 1 < 4) : let x := s.chanSettings p; let ch := rdLE p 0 1
    x.rf (Reg.MEM_CH_CTL ch) 2 1 = rdLE p 1 1 ∧ x.rf (Reg.MEM_SCRUB_CTL ch) 7 0 = rdLE p 2 1 ∧ x.rd (Reg.MEM_CE_THR ch) = rdLE p 3 4 := by
  dsimp only
  have hne : Reg.MEM_CH_CTL (rdLE p 0 1) ≠ Reg.MEM_SCRUB_CTL (rdLE p 0 1) ∧ Reg.MEM_CH_CTL (rdLE p 0 1) ≠ Reg.MEM_CE_THR (rdLE p 0 1) ∧
      Reg.MEM_SCRUB_CTL (rdLE p 0 1) ≠ Reg.MEM_CE_THR (rdLE p 0 1) := by
    unfold Reg.MEM_CH_CTL Reg.MEM_SCRUB_CTL Reg.MEM_CE_THR
    omega
  have h1 := i.shows_wf (Reg.MEM_CH_CTL (rdLE p 0 1)) (hi := 2) (lo := 1) (by decide) (by decide) hc
  have h2 := h1.inv.shows_wf (Reg.MEM_SCRUB_CTL (rdLE p 0 1)) (hi := 7) (lo := 0) (by decide) (by decide) (rdLE_lt p 2 1)
  exact ⟨((h1.wf_other hne.1 _ _ _).wr hne.2.1 _).reads, (h2.wr hne.2.2 _).reads, (h2.inv.holds_wr _ (rdLE_lt p 3 4)).reads⟩

theorem chanCfg_completes (h : Executes defChanCfg s r t u) :
    ∃ x : State, exec (.chanCfg r) s = .next (x.accepted defChanCfg r t []) ∧ u.Alters x [.regs] ∧ (u.Inv → let p := pkParams r.bytes; let ch := rdLE p 0 1
      x.rf (Reg.MEM_CH_CTL ch) 2 1 = rdLE p 1 1 ∧ x.rf (Reg.MEM_SCRUB_CTL ch) 7 0 = rdLE p 2 1 ∧ x.rd (Reg.MEM_CE_THR ch) = rdLE p 3 4) := by
  have hc := Executes.checked (d := defChanCfg) rfl h
  simp only [Bool.and_eq_true, decide_eq_true_eq] at hc
  obtain ⟨⟨⟨_, hc⟩, _⟩, _⟩ := hc
  exact ⟨u.chanSettings (pkParams r.bytes), h.ok rfl, (State.chanSettings_keep ..).alters _ (by decide), fun i => State.chanSettings_reads i hc⟩

/-! ### Rolling test (R395, R406). -/

/-- The rolling test's settings in their registers. -/
def State.rollSettings (s : State) (p : List Byte) : State :=
  (((s.wf Reg.TEST_CTL 1 0 (rdLE p 0 1)).wf Reg.TEST_CTL 15 8 (rdLE p 5 1)).wr Reg.TEST_ROLL_PERIOD (rdLE p 1 4)).wr Reg.TEST_ROLL_WAIT (rdLE p 6 4)

theorem State.rollSettings_keep (s : State) (p : List Byte) : Keep 0x3FFFFFFFB s (s.rollSettings p) :=
  Keep.via (State.wr_keep ..) rfl <| Keep.via (State.wr_keep ..) rfl <| Keep.via (State.wf_keep ..) rfl (State.wf_keep ..)

theorem State.rollSettings_reads {p : List Byte} (i : s.Inv) (hc : rdLE p 0 1 < 4) : let x := s.rollSettings p
    x.rf Reg.TEST_CTL 1 0 = rdLE p 0 1 ∧ x.rf Reg.TEST_CTL 15 8 = rdLE p 5 1 ∧ x.rd Reg.TEST_ROLL_PERIOD = rdLE p 1 4 ∧ x.rd Reg.TEST_ROLL_WAIT = rdLE p 6 4 := by
  have h1 := i.shows_wf Reg.TEST_CTL (hi := 1) (lo := 0) (by decide) (by decide) hc
  have h2 := h1.inv.shows_wf Reg.TEST_CTL (hi := 15) (lo := 8) (by decide) (by decide) (rdLE_lt p 5 1)
  have h3 := h2.inv.holds_wr Reg.TEST_ROLL_PERIOD (rdLE_lt p 1 4)
  exact ⟨(((h1.wf_disjoint (by decide) (by decide) (by decide) _).wr (by decide) _).wr (by decide) _).reads, ((h2.wr (by decide) _).wr (by decide) _).reads,
    (h3.wr (by decide) _).reads, (h3.inv.holds_wr _ (rdLE_lt p 6 4)).reads⟩

theorem rollCfg_completes (h : Executes defRollCfg s r t u) :
    ∃ x : State, exec (.rollCfg r) s = .next (x.accepted defRollCfg r t []) ∧ u.Alters x [.regs] ∧ (u.Inv → let p := pkParams r.bytes
      x.rf Reg.TEST_CTL 1 0 = rdLE p 0 1 ∧ x.rf Reg.TEST_CTL 15 8 = rdLE p 5 1 ∧ x.rd Reg.TEST_ROLL_PERIOD = rdLE p 1 4 ∧ x.rd Reg.TEST_ROLL_WAIT = rdLE p 6 4) := by
  have hc := Executes.checked (d := defRollCfg) rfl h
  simp only [Bool.and_eq_true, decide_eq_true_eq] at hc
  obtain ⟨⟨⟨hc, _⟩, _⟩, _⟩ := hc
  exact ⟨u.rollSettings (pkParams r.bytes), h.ok rfl, (State.rollSettings_keep ..).alters _ (by decide), fun i => State.rollSettings_reads i hc⟩

/-! ### Resets (R407). -/

/-- The scopes each level of reset takes. -/
theorem State.scopeOk_range {level scope : Nat} (h : s.scopeOk level scope = true) :
    (level = 1 → scope < 18) ∧ (level = 3 → 0x1000 ≤ scope ∧ scope < 0x1004) ∧ (level = 4 → scope = 0xFFFF) ∧ 1 ≤ level ∧ level ≤ 4 := by
  unfold State.scopeOk at h
  split at h
  next => exact absurd h Bool.false_ne_true
  next hu =>
    have hu : unitOk scope = true := by simpa using hu
    split at h
    next h1 =>
      have hk : scope / 2048 = 0 := by simpa using h
      have hn : scope % 2048 ≤ 17 := by simpa [unitOk, hk] using hu
      omega
    next h1 =>
      split at h
      next h2 => omega
      next h2 =>
        split at h
        next h3 =>
          have hk : scope / 2048 = 2 := by simpa using h
          have hn : scope % 2048 ≤ 3 := by simpa [unitOk, hk] using hu
          omega
        next h3 =>
          have h4 : level = 4 ∧ scope = 0xFFFF := by simpa [devUnit] using h
          omega

/-! ### Suspects and quarantine (R422 to R424). -/

/-- The registers of the suspects. -/
def suspectRegs : List Nat := (List.range 16).flatMap (fun i => wordsFrom (Reg.RST_SUSP0 i) 6)

theorem mem_suspectRegs {j k : Nat} (hj : j < 16) (hk : k < 6) : Reg.RST_SUSP0 j + 4 * k ∈ suspectRegs :=
  List.mem_flatMap.mpr ⟨j, List.mem_range.mpr hj, mem_wordsFrom hk⟩

/-- The suspects gone from the state. -/
def State.forgetSuspects (s : State) : State := { s with rst := { s.rst with susp := [] } }

theorem State.forgetSuspects_keep (s : State) : Keep 0x3FF7FFFFF s s.forgetSuspects := Keep.setRst rfl (Keep.refl _ _)

/-- The suspects gone, from the registers and from the state (R422). -/
def State.clearSuspects (s : State) : State := (suspectRegs.foldl (fun s a => s.wr a 0) s).forgetSuspects

theorem State.clearSuspects_keep (s : State) : Keep 0x3FF7FFFFB s s.clearSuspects :=
  (State.forgetSuspects_keep _).via rfl ((s.clears_keep suspectRegs).mono rfl)

theorem State.clearSuspects_rst (s : State) : s.clearSuspects.rst = { s.rst with susp := [] } :=
  congrArg (fun x : Rst => { x with susp := [] }) ((s.clears_keep suspectRegs).rst rfl)

theorem State.clearSuspects_rd (i : s.Inv) {j k : Nat} (hj : j < 16) (hk : k < 6) : s.clearSuspects.rd (Reg.RST_SUSP0 j + 4 * k) = 0 := by
  unfold State.clearSuspects
  rw [State.rd_congr ((State.forgetSuspects_keep _).regs rfl), State.rd_clears i, if_pos (mem_suspectRegs hj hk)]

theorem suspectClear_completes (h : Executes defSuspectClear s r t u) :
    (u.quarActive = true → exec (.suspectClear r) s = .next (u.refusedWith r t stBUSY)) ∧
    (u.quarActive = false → ∃ x : State, exec (.suspectClear r) s = .next (x.accepted defSuspectClear r t []) ∧ u.Alters x [.regs, .rst] ∧
      x.rst = { u.rst with susp := [] } ∧ (u.Inv → ∀ i k, i < 16 → k < 6 → x.rd (Reg.RST_SUSP0 i + 4 * k) = 0)) := by
  refine ⟨fun hq => h.refused (by decide) (if_pos hq), fun hq => ⟨u.clearSuspects, h.ok ((if_neg (by simp [hq])).trans ?_),
    u.clearSuspects_keep.alters _ (by decide), u.clearSuspects_rst, fun i j k hj hk => State.clearSuspects_rd i hj hk⟩⟩
  unfold State.clearSuspects suspectRegs
  rw [List.foldl_flatMap]
  rfl

/-- QUAR_START of a slot that holds nothing to replay the suspect with, in any state. -/
theorem quarStart_refused (h : Executes defQuarStart s r t u)
    (hj : ∀ j, u.slotOf (rdLE (pkParams r.bytes) 1 1) = some j →
      u.readyAt (rdLE (pkParams r.bytes) 1 1) = false ∨ u.replays (rdLE (pkParams r.bytes) 0 1) j = false) :
    exec (.quarStart r) s = .next (u.refusedWith r t stBAD_STATE) := by
  refine h.refused (by decide) ?_
  unfold defQuarStart
  dsimp only
  split
  next => rfl
  next =>
    split
    next => rfl
    next j hs => exact if_neg (by rcases hj j hs with hr | hr <;> simp [hr])

theorem quarStart_completes (h : Executes defQuarStart s r t u) : let i := rdLE (pkParams r.bytes) 0 1; let n := rdLE (pkParams r.bytes) 1 1
    ((u.devState ≠ stService ∨ u.runCtx ≠ 0 ∨ u.quarActive = true ∨ u.switching = true) → exec (.quarStart r) s = .next (u.refusedWith r t stBAD_STATE)) ∧
    (u.slotOf n = none → exec (.quarStart r) s = .next (u.refusedWith r t stBAD_STATE)) ∧
    (∀ j, u.slotOf n = some j → (u.readyAt n = false ∨ u.replays i j = false) → exec (.quarStart r) s = .next (u.refusedWith r t stBAD_STATE)) ∧
    (∀ j, u.devState = stService → u.runCtx = 0 → u.quarActive = false → u.switching = false → u.slotOf n = some j → u.readyAt n = true → u.replays i j = true →
      exec (.quarStart r) s = .next ((((u.wr Reg.RST_QUAR (1 + i * 16 + j.ctx.toNat * 65536)).wf Reg.RST_STAT 16 16 1).beginSwitch .command (some n)).heldFor
        defQuarStart r t .giveWay)) := by
  refine ⟨fun hb => h.refused (by decide) (if_pos hb), fun hn => quarStart_refused h fun j hj => absurd (hn.symm.trans hj) (by simp),
    fun j hj hr => quarStart_refused h fun k hk => Option.some.inj (hj.symm.trans hk) ▸ hr, fun j hd hc hq hw hj hn hr => h.held ?_⟩
  unfold defQuarStart
  dsimp only
  rw [if_neg (by simp [hd, hc, hq, hw]), hj]
  exact if_pos (by simp [hn, hr])

theorem quarEnd_completes (h : Executes defQuarEnd s r t u) :
    (u.quarActive = false → exec (.quarEnd r) s = .next (u.refusedWith r t stBAD_STATE)) ∧
    (u.quarActive = true → exec (.quarEnd r) s = .next ((u.quarEnd 4 0).accepted defQuarEnd r t (toLE 1 4))) :=
  ⟨fun hq => h.refused (by decide) (if_neg (by simp [hq])), fun hq => h.ok (if_pos hq)⟩

/-! ### Hang limits (R415 to R419). -/

/-- The limits of hangs in their registers. -/
def State.hangSettings (s : State) (p : List Byte) : State :=
  ((s.wf Reg.RST_CTL 2 0 (rdLE p 0 1)).wr Reg.RST_WD (rdLE p 1 1 + rdLE p 2 2 * 65536)).wr Reg.RST_WDOG (rdLE p 4 4)

theorem State.hangSettings_keep (s : State) (p : List Byte) : Keep 0x3FFFFFFFB s (s.hangSettings p) :=
  Keep.via (State.wr_keep ..) rfl <| Keep.via (State.wr_keep ..) rfl (State.wf_keep ..)

theorem State.hangSettings_reads {p : List Byte} (i : s.Inv) (hc : rdLE p 0 1 < 8) : let x := s.hangSettings p
    x.rf Reg.RST_CTL 2 0 = rdLE p 0 1 ∧ x.rd Reg.RST_WD = rdLE p 1 1 + rdLE p 2 2 * 65536 ∧ x.rd Reg.RST_WDOG = rdLE p 4 4 := by
  have hw : rdLE p 1 1 + rdLE p 2 2 * 65536 < 2 ^ 32 := by
    have h1 := rdLE_lt p 1 1
    have h2 := rdLE_lt p 2 2
    omega
  have h1 := i.shows_wf Reg.RST_CTL (hi := 2) (lo := 0) (by decide) (by decide) hc
  have h2 := h1.inv.holds_wr Reg.RST_WD hw
  exact ⟨((h1.wr (by decide) _).wr (by decide) _).reads, (h2.wr (by decide) _).reads, (h2.inv.holds_wr _ (rdLE_lt p 4 4)).reads⟩

theorem hangCfg_completes (h : Executes defHangCfg s r t u) :
    ∃ x : State, exec (.hangCfg r) s = .next (x.accepted defHangCfg r t []) ∧ u.Alters x [.regs] ∧ (u.Inv → let p := pkParams r.bytes
      x.rf Reg.RST_CTL 2 0 = rdLE p 0 1 ∧ x.rd Reg.RST_WD = rdLE p 1 1 + rdLE p 2 2 * 65536 ∧ x.rd Reg.RST_WDOG = rdLE p 4 4) := by
  have hc := Executes.checked (d := defHangCfg) rfl h
  simp only [Bool.and_eq_true, decide_eq_true_eq] at hc
  obtain ⟨⟨⟨hc, _⟩, _⟩, _⟩ := hc
  exact ⟨u.hangSettings (pkParams r.bytes), h.ok rfl, (State.hangSettings_keep ..).alters _ (by decide), fun i => State.hangSettings_reads i hc⟩

end

/-- Settles O52: each command from its meaning; the settings of channels, tests and hangs are read back from their registers. -/
theorem healthCommandsComplete : Obligations.HealthCommandsComplete :=
  ⟨fun _ _ _ _ => fence_completes, fun _ _ _ _ => returnUnit_completes, fun _ _ _ _ => rowRepair_completes, fun _ _ _ _ _ => fuseBurn_completes,
    fun _ _ _ _ h => h.ok rfl, fun _ _ _ _ => marginClear_completes, fun _ _ _ _ => chanCfg_completes, fun _ _ _ _ h => h.ok rfl,
    fun _ _ _ _ h => h.ok rfl, fun _ _ _ _ => rollCfg_completes, fun _ _ _ _ h => h.ok rfl, fun _ _ _ _ h => h.first rfl,
    fun _ _ _ => State.scopeOk_range, fun _ _ _ _ h => h.ok rfl, fun _ _ _ _ => suspectClear_completes, fun _ _ _ _ => quarStart_completes,
    fun _ _ _ _ => quarEnd_completes, fun _ _ _ _ => hangCfg_completes⟩

end Sys2Proof.Machine
end

section
/-! SUPPORT. Channel traffic between the spindles (R252, R257, R260, R272 to R279). -/

namespace Sys2Proof.Machine

/-! ### A message taken from its stop, or out of transit (R257). -/

/-- Taking a message changes only what waits at stops and what is in transit. -/
theorem State.takeLoad_eq (s : State) (m : RingLoad) : ∃ o r, s.takeLoad m = { s with out := o, ring := r } := by
  unfold State.takeLoad
  split
  · exact ⟨_, _, rfl⟩
  · cases m with
    | req r => exact ⟨_, _, rfl⟩
    | resp r => exact ⟨_, _, rfl⟩
    | chan p => exact ⟨_, _, rfl⟩

theorem State.chanHome_takeLoad (s : State) (m : RingLoad) (ctx l : Nat) : (s.takeLoad m).chanHome ctx l = s.chanHome ctx l := by
  obtain ⟨o, r, e⟩ := s.takeLoad_eq m
  rw [e]
  rfl

theorem State.coord_takeLoad (s : State) (m : RingLoad) : (s.takeLoad m).coord = s.coord := State.rf_congr ((s.takeLoad_keep m).regs rfl) ..

theorem State.physOf_takeLoad (s : State) (m : RingLoad) (l : Nat) : (s.takeLoad m).physOf l = s.physOf l :=
  State.rf_congr ((s.takeLoad_keep m).regs rfl) ..

theorem State.spn_takeLoad (s : State) (m : RingLoad) (ps : Nat) : (s.takeLoad m).spn ps = s.spn ps :=
  State.spn_congr ((s.takeLoad_keep m).spns rfl) ps

theorem State.chanAbsorbed_takeLoad (s : State) (m : RingLoad) (l : Nat) : (s.takeLoad m).chanAbsorbed l = s.chanAbsorbed l := by
  unfold State.chanAbsorbed State.lmapValid
  rw [State.physOf_takeLoad, State.absorbCause_takeLoad, State.rbit_congr ((s.takeLoad_keep m).regs rfl)]

/-! ### The ends of channels in a spindle.

An end that is not as an unlisted one is read back from any table, canonical or not. -/

/-- A spindle with another inbound queue `q`. -/
def Spn.setIn (x : Spn) (q : Nat) (iq : InQueue) : Spn := { x with inq := tset {} x.inq q iq }

/-- A spindle with another outbound channel `c`. -/
def Spn.setOut (x : Spn) (c : Nat) (oc : OutChan) : Spn := { x with outq := tset {} x.outq c oc }

/-- Inbound queue `q` and outbound channel `c` of a spindle. -/
def State.inAt (s : State) (ps q : Nat) : InQueue := tget {} (s.spn ps).inq q
def State.outAt (s : State) (ps c : Nat) : OutChan := tget {} (s.spn ps).outq c

theorem State.inAt_congr {s t : State} (h : t.spns = s.spns) (ps q : Nat) : t.inAt ps q = s.inAt ps q := by
  unfold State.inAt
  rw [State.spn_congr h]

theorem State.outAt_congr {s t : State} (h : t.spns = s.spns) (ps c : Nat) : t.outAt ps c = s.outAt ps c := by
  unfold State.outAt
  rw [State.spn_congr h]

theorem InQueue.listed {iq : InQueue} (h : iq.st ≠ .unbound) : iq ≠ {} := fun e => h (congrArg InQueue.st e)

theorem OutChan.listed {oc : OutChan} (h : oc.st ≠ .unbound) : oc ≠ {} := fun e => h (congrArg OutChan.st e)

section
variable {s : State} {x : Spn} {q c ps : Nat} {iq : InQueue} {oc : OutChan}

theorem Spn.inq_setIn (h : iq ≠ {}) : tget {} (x.setIn q iq).inq q = iq := tget_tset_eq h _

theorem Spn.outq_setOut (h : oc ≠ {}) : tget {} (x.setOut c oc).outq c = oc := tget_tset_eq h _

theorem State.spn_setIn (h : iq ≠ {}) : (s.setSpn ps (x.setIn q iq)).spn ps = x.setIn q iq :=
  tget_tset_eq (fun e => h ((Spn.inq_setIn h).symm.trans (congrArg (fun y : Spn => tget {} y.inq q) e))) _

theorem State.spn_setOut (h : oc ≠ {}) : (s.setSpn ps (x.setOut c oc)).spn ps = x.setOut c oc :=
  tget_tset_eq (fun e => h ((Spn.outq_setOut h).symm.trans (congrArg (fun y : Spn => tget {} y.outq c) e))) _

theorem State.inAt_setIn (h : iq ≠ {}) : (s.setSpn ps (x.setIn q iq)).inAt ps q = iq := by
  rw [State.inAt, State.spn_setIn h, Spn.inq_setIn h]

theorem State.st_setIn (h : iq.st ≠ .unbound) : ((s.setSpn ps (x.setIn q iq)).inAt ps q).st = iq.st :=
  congrArg InQueue.st (State.inAt_setIn (InQueue.listed h))

theorem State.outAt_setOut (h : oc ≠ {}) : (s.setSpn ps (x.setOut c oc)).outAt ps c = oc := by
  rw [State.outAt, State.spn_setOut h, Spn.outq_setOut h]

end

/-! ### Deliveries keep the state of their queue (R273, R277, R278). -/

section
variable {s : State} {ps q : Nat}

/-- A queue that has handed message `m` to receive `op`. -/
def InQueue.delivered (iq : InQueue) (op : Nat) (m : ChanMsg) : InQueue :=
  { iq with head := iq.head + 1, held := iq.held.filter (fun k => decide (k.seq ≠ m.seq)), posted := iq.posted.filter (fun o => decide (o ≠ op)) }

/-- A spindle whose receive `op` has message `m` of queue `q`. -/
def Spn.delivered (x : Spn) (q op : Nat) (m : ChanMsg) : Spn :=
  Spn.setIn { x with
    sluice := x.sluice.map (fun e => if e.op = op ∧ e.filled = false then { e with filled := true, flit := { recvFlit m with tag := e.tag, gen := e.gen } } else e)
    ops := x.ops.filter (fun o => decide (o.id ≠ op)) } q ((tget {} x.inq q).delivered op m)

theorem State.spns_deliver (s : State) (ps q op : Nat) (m : ChanMsg) :
    (s.deliver ps q op m).spns = (s.setSpn ps ((s.spn ps).delivered q op m)).spns := by
  unfold State.deliver
  dsimp only
  split
  · exact (State.sat_keep ..).spns rfl
  · exact ((State.sendChan_keep ..).spns rfl).trans ((State.sat_keep ..).spns rfl)

theorem State.st_deliver (h : (s.inAt ps q).st ≠ .unbound) (op : Nat) (m : ChanMsg) : ((s.deliver ps q op m).inAt ps q).st = (s.inAt ps q).st := by
  rw [State.inAt_congr (s.spns_deliver ps q op m)]
  exact State.st_setIn (iq := (s.inAt ps q).delivered op m) h

theorem State.st_starve (h : (s.inAt ps q).st ≠ .unbound) : ((s.modSpn ps (·.starveQueue q)).inAt ps q).st = (s.inAt ps q).st :=
  State.st_setIn (iq := { s.inAt ps q with posted := [] }) h

/-- Deliveries do not change whether a bound queue is OPEN, ENDED or CLOSED. -/
theorem State.st_pumpQueue : ∀ (n : Nat) {s : State}, (s.inAt ps q).st ≠ .unbound → ((s.pumpQueue n ps q).inAt ps q).st = (s.inAt ps q).st
  | 0, _, _ => rfl
  | n + 1, s, h => by
    unfold State.pumpQueue
    dsimp only
    split
    · rfl
    next op _ _ =>
      split
      next m _ =>
        have hd := State.st_deliver h op m
        exact (State.st_pumpQueue n (fun e => h (hd.symm.trans e))).trans hd
      next =>
        split
        · exact State.st_starve h
        · rfl

/-- With no receive posted nothing is delivered. -/
theorem State.pumpQueue_unposted (h : (s.inAt ps q).posted = []) (n : Nat) : s.pumpQueue n ps q = s := by
  cases n with
  | zero => rfl
  | succ n =>
    unfold State.pumpQueue
    dsimp only
    rw [show (tget {} (s.spn ps).inq q).posted = [] from h]

end

/-! ### Channels of a context that runs (R275). -/

/-- A message that has not strayed, for a channel whose context runs on its spindle (R260, R275). -/
structure LiveEnd (s : State) (p : ChanPkt) (h : ChanHome) : Prop where
  here : s.strayAt p = none
  home : s.chanHome p.ctx p.dst.logical = some h
  live : h.live = true

theorem State.chanSpn_live {h : ChanHome} (hl : h.live = true) (s : State) : s.chanSpn h = s.spn h.ps := if_pos hl

theorem State.putChanSpn_live {h : ChanHome} (hl : h.live = true) (s : State) (x : Spn) (c : Nat) : s.putChanSpn h x c = s.setSpn h.ps x := if_pos hl

/-- The state once a packet has been taken and queue or channel `p.dst.chan` of a spindle has changed. -/
def State.tookIn (s : State) (ps : Nat) (p : ChanPkt) (iq : InQueue) : State := (s.takeLoad (.chan p)).setSpn ps ((s.spn ps).setIn p.dst.chan iq)
def State.tookOut (s : State) (ps : Nat) (p : ChanPkt) (oc : OutChan) : State := (s.takeLoad (.chan p)).setSpn ps ((s.spn ps).setOut p.dst.chan oc)

section
variable {s : State} {p : ChanPkt} {ps : Nat}

theorem State.tookIn_keep (iq : InQueue) : Keep 0x2FFFFEFBF s (s.tookIn ps p iq) :=
  Keep.via (State.setSpn_keep ..) rfl ((s.takeLoad_keep _).mono rfl)

theorem State.tookOut_keep (oc : OutChan) : Keep 0x2FFFFEFBF s (s.tookOut ps p oc) :=
  Keep.via (State.setSpn_keep ..) rfl ((s.takeLoad_keep _).mono rfl)

theorem State.inAt_tookIn {iq : InQueue} (h : iq.st ≠ .unbound) : (s.tookIn ps p iq).inAt ps p.dst.chan = iq := State.inAt_setIn (InQueue.listed h)

theorem State.outAt_tookOut {oc : OutChan} (h : oc ≠ {}) : (s.tookOut ps p oc).outAt ps p.dst.chan = oc := State.outAt_setOut h

/-- A queue that has changed and been seen to has the state it was given, and only the parts of channel traffic differ. -/
theorem State.tookIn_pumped {iq : InQueue} (hb : iq.st ≠ .unbound) (ps n : Nat) :
    (((s.tookIn ps p iq).pumpQueue n ps p.dst.chan).inAt ps p.dst.chan).st = iq.st ∧
    s.Alters ((s.tookIn ps p iq).pumpQueue n ps p.dst.chan) [.regs, .out, .log, .nodes, .spns, .irq, .fab, .logN, .ring] := by
  have hst : ((s.tookIn ps p iq).inAt ps p.dst.chan).st = iq.st := congrArg InQueue.st (State.inAt_tookIn hb)
  exact ⟨(State.st_pumpQueue n (fun u => hb (hst.symm.trans u))).trans hst,
    (Keep.via (m := 0x2EFF9ECBB) (State.pumpQueue_keep ..) rfl ((State.tookIn_keep iq).mono rfl)).alters _ rfl⟩

end

/-! ### Answers (R277). -/

/-- What answers a packet, from the end it was for. -/
def ChanPkt.answer (p : ChanPkt) (k : ChanKind) (coord : Nat) : ChanPkt :=
  { kind := k, ctx := p.ctx, src := { p.dst with remote := false, coord := coord }, dst := p.src, msg := noMsg, op := p.op }

theorem State.answerChan_local {s : State} {p : ChanPkt} (h : p.src.remote = false) (k : ChanKind) :
    s.answerChan k p = s.send (.chan (p.answer k s.coord)) := State.sendChan_local h

/-- A packet answered closed, and nothing else. -/
theorem runs_answeredClosed {s : State} {p : ChanPkt} (hr : p.src.remote = false)
    (hx : exec (.channelMessage p) s = .next ((s.takeLoad (.chan p)).answerChan .closedAns p)) :
    Runs (.channelMessage p) s [.out, .ring] (fun t => t.out = (s.takeLoad (.chan p)).out ++ [.chan (p.answer .closedAns s.coord)]) := by
  rw [State.answerChan_local hr, State.coord_takeLoad] at hx
  exact Runs.of_next hx ((Keep.via (m := 0x2FFFFFFBF) (State.send_keep ..) rfl (s.takeLoad_keep _)).alters _ rfl) fun _ => rfl

/-! ### Messages (R272, R275, R277). -/

/-- A queue that takes a message: it is bound and not CLOSED, and the message is its sender's, within 32 of the head and not
held already (R272, R277). -/
structure InQueue.Takes (iq : InQueue) (p : ChanPkt) : Prop where
  notClosed : iq.st ≠ .closed
  bound : iq.st ≠ .unbound
  sender : iq.bind.all (fun b => b.same p.src) = true
  near : (p.msg.seq - iq.head).toNat < 32
  fresh : iq.held.any (fun m => m.seq == p.msg.seq) = false

/-- None of the causes for which a message is discarded holds. -/
theorem InQueue.Takes.not_refused {iq : InQueue} {p : ChanPkt} (t : iq.Takes p) : ¬ (iq.st = .unbound ∨ iq.bind.all (fun b => b.same p.src) = false ∨
    32 ≤ (p.msg.seq - iq.head).toNat ∨ iq.held.any (fun m => m.seq == p.msg.seq) = true) := by
  rintro (hu | hs | hf | hh)
  · exact t.bound hu
  · exact Bool.false_ne_true (hs.symm.trans t.sender)
  · exact absurd t.near (Nat.not_lt.mpr hf)
  · exact Bool.false_ne_true (t.fresh.symm.trans hh)

section
variable {s : State} {p : ChanPkt} {h : ChanHome}

theorem exec_message_absent (hs : s.strayAt p = none) (ha : s.chanAbsorbed p.dst.logical = false) (hn : s.chanHome p.ctx p.dst.logical = none) :
    exec (.channelMessage p) s = .next ((s.takeLoad (.chan p)).answerChan .closedAns p) := by
  show execChannelMessage p s = _
  rw [execChannelMessage, hs]
  dsimp only
  rw [State.chanAbsorbed_takeLoad, ha, if_neg Bool.false_ne_true, State.chanHome_takeLoad, hn]

section
variable (e : LiveEnd s p h) (ha : s.chanAbsorbed p.dst.logical = false)
include e ha

theorem exec_message_closed (hc : (s.inAt h.ps p.dst.chan).st = .closed) :
    exec (.channelMessage p) s = .next ((s.takeLoad (.chan p)).answerChan .closedAns p) := by
  show execChannelMessage p s = _
  rw [execChannelMessage, e.here]
  dsimp only
  rw [State.chanAbsorbed_takeLoad, ha, if_neg Bool.false_ne_true, State.chanHome_takeLoad, e.home]
  dsimp only
  rw [State.chanSpn_live e.live, State.spn_takeLoad]
  exact if_pos hc

theorem exec_message_placed (ht : (s.inAt h.ps p.dst.chan).Takes p) :
    exec (.channelMessage p) s = .next (((s.tookIn h.ps p ((s.inAt h.ps p.dst.chan).place p.msg)).answerChan .accept p).pumpQueue 64 h.ps p.dst.chan) := by
  show execChannelMessage p s = _
  rw [execChannelMessage, e.here]
  dsimp only
  rw [State.chanAbsorbed_takeLoad, ha, if_neg Bool.false_ne_true, State.chanHome_takeLoad, e.home]
  dsimp only
  rw [State.chanSpn_live e.live, State.putChanSpn_live e.live, State.spn_takeLoad, if_pos e.live]
  exact (if_neg ht.notClosed).trans (if_neg ht.not_refused)

/-- A message for an open queue with no receive posted is placed, and accepted. -/
theorem runs_message_placed (hr : p.src.remote = false) (ht : (s.inAt h.ps p.dst.chan).Takes p) (hp : (s.inAt h.ps p.dst.chan).posted = []) :
    Runs (.channelMessage p) s [.out, .spns, .ring] (fun t => t.inAt h.ps p.dst.chan = (s.inAt h.ps p.dst.chan).place p.msg ∧
      t.out = (s.takeLoad (.chan p)).out ++ [.chan (p.answer .accept s.coord)]) := by
  have hx := exec_message_placed e ha ht
  have hk := s.tookIn_keep (ps := h.ps) (p := p) ((s.inAt h.ps p.dst.chan).place p.msg)
  have hin : (s.tookIn h.ps p ((s.inAt h.ps p.dst.chan).place p.msg)).inAt h.ps p.dst.chan = (s.inAt h.ps p.dst.chan).place p.msg := State.inAt_tookIn ht.bound
  have hc : (s.tookIn h.ps p ((s.inAt h.ps p.dst.chan).place p.msg)).coord = s.coord := State.rf_congr (hk.regs rfl) ..
  rw [State.answerChan_local hr, hc, State.pumpQueue_unposted (by exact (congrArg InQueue.posted hin).trans hp)] at hx
  exact Runs.of_next hx ((Keep.via (m := 0x2FFFFEFBF) (State.send_keep ..) rfl hk).alters _ rfl) fun _ => ⟨hin, rfl⟩

end

end

/-! ### Answers to a SEND (R277). -/

section
variable {s : State} {p : ChanPkt} {o : OpEnt}

/-- The entry of an answer's SEND. -/
def State.sendOf (s : State) (p : ChanPkt) : Option OpEnt :=
  (s.spn (s.physOf p.dst.logical)).ops.find? (fun o => o.kind == .send && (o.id == p.op || (p.src.remote && opIdOf o.id == opIdOf p.op)))

/-- A spindle whose table no longer holds operation `op`. -/
def Spn.without (x : Spn) (op : Nat) : Spn := { x with ops := x.ops.filter (fun y => decide (y.id ≠ op)) }

/-- The state once operation `op` of a spindle, a SEND, has left its table and that of the fabric. -/
def State.sendLeft (s : State) (ps op : Nat) : State :=
  let t := s.setSpn ps ((s.spn ps).without op)
  { t with fab := { t.fab with ops := t.fab.ops.filter (fun y => decide (y.who ≠ .send ps op)) } }

theorem State.sendLeft_keep (s : State) (ps op : Nat) : Keep 0x3FFFBEFFF s (s.sendLeft ps op) :=
  Keep.setFab rfl ((s.setSpn_keep ps _).mono rfl)

/-- The state once the SEND an answer names has left the tables. -/
def State.tookSend (s : State) (p : ChanPkt) (op : Nat) : State := (s.takeLoad (.chan p)).sendLeft (s.physOf p.dst.logical) op

theorem State.tookSend_keep (op : Nat) : Keep 0x2FFFBEFBF s (s.tookSend p op) :=
  Keep.via (State.sendLeft_keep ..) rfl ((s.takeLoad_keep _).mono rfl)

theorem State.spn_tookSend (i : s.Inv) (op : Nat) :
    (s.tookSend p op).spn (s.physOf p.dst.logical) = (s.spn (s.physOf p.dst.logical)).without op := by
  have hw := ((s.takeLoad_keep (.chan p)).inv i).spns
  exact (State.spn_setSpn hw _ _).trans (congrArg (Spn.without · op) (State.spn_takeLoad ..))

theorem State.sendAnswered_found (ho : s.sendOf p = some o) :
    (s.takeLoad (.chan p)).sendAnswered p = (some o, s.physOf p.dst.logical, s.tookSend p o.id) := by
  unfold State.sendAnswered
  dsimp only
  rw [State.physOf_takeLoad, State.spn_takeLoad, show List.find? _ _ = some o from ho]
  unfold State.tookSend State.sendLeft
  rw [State.spn_takeLoad]
  rfl

section
variable (hs : s.strayAt p = none) (ho : s.sendOf p = some o)
include hs ho

theorem runs_accept : Runs (.channelAccept p) s [.regs, .out, .spns, .fab, .ring] (fun t =>
    t.spn (s.physOf p.dst.logical) = (s.spn (s.physOf p.dst.logical)).without o.id ∧
    t.rd (Reg.CHN_SENT (s.physOf p.dst.logical) o.cnt) = min (s.rd (Reg.CHN_SENT (s.physOf p.dst.logical) o.cnt) + 1) 0xFFFFFFFF ∧
    s.RegsBut t [Reg.CHN_SENT (s.physOf p.dst.logical) o.cnt] ∧ t.out = (s.takeLoad (.chan p)).out) := by
  have hx : exec (.channelAccept p) s = .next ((s.tookSend p o.id).sat (Reg.CHN_SENT (s.physOf p.dst.logical) o.cnt) 1) := by
    show execChannelAccept p s = _
    rw [execChannelAccept, hs]
    dsimp only
    rw [State.sendAnswered_found ho]
  have hk := s.tookSend_keep (p := p) o.id
  have hr := hk.regs rfl
  refine Runs.of_next hx ((Keep.via (m := 0x2FFFBEFBB) (State.sat_keep ..) rfl (hk.mono rfl)).alters _ rfl) fun i => ⟨?_, ?_, ?_, rfl⟩
  · exact (State.spn_congr ((State.sat_keep ..).spns rfl) _).trans (State.spn_tookSend i _)
  · exact (State.rd_sat_self (hk.inv i).regs _ 1).trans (congrArg (min (· + 1) 0xFFFFFFFF) (State.rd_congr hr _))
  · exact (State.RegsBut.of_regs hr _).trans ((s.tookSend p o.id).sat_but _ 1)

end

end

/-! ### Closures (R277). -/

/-- Tells the reader that a channel is bound to, where there is one, that the sender's end has closed. -/
def State.tellReader (s : State) (ctx l c : Nat) : Option ChanBind → State
  | some b => s.sendChan .readerNotice ctx (s.ownEnd l c) b noMsg 0
  | none => s

theorem State.tellReader_keep (s : State) (ctx l c : Nat) (b : Option ChanBind) : Keep 0x3EFF9FCBB s (s.tellReader ctx l c b) := by
  cases b with
  | none => exact Keep.refl _ _
  | some b => exact State.sendChan_keep ..

/-- The closed end of a channel. -/
def OutChan.shut (oc : OutChan) : OutChan := { oc with st := .closed }

theorem OutChan.shut_listed (oc : OutChan) : oc.shut ≠ {} := OutChan.listed ChanSt.noConfusion

theorem State.closeOut_opened {s : State} {ps c : Nat} (h : (s.outAt ps c).st = .opened) (ctx : Nat) :
    (s.closeOut ps ctx c).spn ps = (s.spn ps).setOut c (s.outAt ps c).shut := by
  have hx : s.closeOut ps ctx c = let t := s.setSpn ps ((s.spn ps).setOut c (s.outAt ps c).shut)
      t.tellReader ctx (t.logicalN ps) c (s.outAt ps c).bind := by
    unfold State.closeOut
    dsimp only
    exact if_pos h
  rw [hx]
  exact (State.spn_congr ((State.tellReader_keep ..).spns rfl) _).trans (State.spn_setOut (OutChan.shut_listed _))

/-- A closed answer ends its SEND and the channel it was sent on. -/
theorem closed_completes {s : State} {p : ChanPkt} {o : OpEnt} (i : s.Inv) (hs : s.strayAt p = none) (ho : s.sendOf p = some o)
    (hst : (s.outAt (s.physOf p.dst.logical) o.cnt).st = .opened) : ∃ t, exec (.channelClosed p) s = .next t ∧
      t.spn (s.physOf p.dst.logical) =
        ((s.spn (s.physOf p.dst.logical)).without o.id).setOut o.cnt (s.outAt (s.physOf p.dst.logical) o.cnt).shut ∧
      s.Alters t [.regs, .out, .log, .nodes, .spns, .irq, .fab, .logN, .ring] := by
  have hx : exec (.channelClosed p) s = .next ((s.tookSend p o.id).closeOut (s.physOf p.dst.logical) p.ctx o.cnt) := by
    show execChannelClosed p s = _
    rw [execChannelClosed, hs]
    dsimp only
    rw [State.sendAnswered_found ho]
  have hspn := State.spn_tookSend (p := p) i o.id
  have hout : (s.tookSend p o.id).outAt (s.physOf p.dst.logical) o.cnt = s.outAt (s.physOf p.dst.logical) o.cnt := by
    rw [State.outAt, hspn]
    rfl
  have hc := State.closeOut_opened ((congrArg OutChan.st hout).trans hst) p.ctx
  rw [hspn, hout] at hc
  exact ⟨_, hx, hc, ((execChannelClosed_keep p s).keep _ hx).alters _ rfl⟩

/-! ### Credits, notices and end marks (R274, R277). -/

section
variable {s : State} {p : ChanPkt} {h : ChanHome}

/-- A channel whose sender has one credit more, of 32 at most. -/
def OutChan.credited (oc : OutChan) : OutChan := { oc with credits := min 32 (oc.credits + 1) }

theorem OutChan.credited_listed (oc : OutChan) : oc.credited ≠ {} := by
  intro e
  have hc : min 32 (oc.credits + 1) = 0 := congrArg OutChan.credits e
  omega

section
variable (hs : s.strayAt p = none) (hn : s.chanHome p.ctx p.dst.logical = none)
include hs hn

theorem exec_credit_absent : exec (.channelCredit p) s = .next (s.takeLoad (.chan p)) := by
  show execChannelCredit p s = _
  rw [execChannelCredit, hs]
  dsimp only
  rw [if_neg (by decide), State.chanHome_takeLoad, hn]

theorem exec_notice_absent : exec (.closeNotice p) s = .next (s.takeLoad (.chan p)) := by
  show execCloseNotice p s = _
  rw [execCloseNotice, hs]
  dsimp only
  rw [if_neg (by decide), State.chanHome_takeLoad, hn]

theorem exec_endMark_absent : exec (.endMark p) s = .next (s.takeLoad (.chan p)) := by
  show execEndMark p s = _
  rw [execEndMark, hs]
  dsimp only
  rw [if_neg (by decide), State.chanHome_takeLoad, hn]

end

section
variable (e : LiveEnd s p h)
include e

theorem exec_credit_live : exec (.channelCredit p) s = .next (s.tookOut h.ps p (s.outAt h.ps p.dst.chan).credited) := by
  show execChannelCredit p s = _
  rw [execChannelCredit, e.here]
  dsimp only
  rw [if_neg (by decide), State.chanHome_takeLoad, e.home]
  dsimp only
  rw [State.chanSpn_live e.live, State.putChanSpn_live e.live, State.spn_takeLoad]
  rfl

theorem runs_credit : Runs (.channelCredit p) s [.out, .spns, .ring] (fun t => t.outAt h.ps p.dst.chan = (s.outAt h.ps p.dst.chan).credited ∧
    t.out = (s.takeLoad (.chan p)).out ∧ ∀ c, c ≠ p.dst.chan → tget {} (t.spn h.ps).outq c = tget {} (s.spn h.ps).outq c) := by
  refine Runs.of_next (exec_credit_live e) ((State.tookOut_keep _).alters _ rfl) fun _ =>
    ⟨State.outAt_tookOut (OutChan.credited_listed _), rfl, fun c hc => ?_⟩
  rw [State.tookOut, State.spn_setOut (OutChan.credited_listed _)]
  exact tget_tset_ne hc _

/-- What a notice does: to a sender with an open channel, which tells the reader, or to a reader with a queue that is open or
ended. -/
theorem exec_notice_live : exec (.closeNotice p) s =
    if p.kind = .notice then
      if (s.outAt h.ps p.dst.chan).st ≠ .opened then .next (s.takeLoad (.chan p))
      else .next ((s.tookOut h.ps p (s.outAt h.ps p.dst.chan).shut).tellReader p.ctx h.l p.dst.chan (s.outAt h.ps p.dst.chan).bind)
    else if (s.inAt h.ps p.dst.chan).st = .opened ∨ (s.inAt h.ps p.dst.chan).st = .ended then
      .next ((s.tookIn h.ps p { s.inAt h.ps p.dst.chan with st := .closed }).pumpQueue 64 h.ps p.dst.chan)
    else .next (s.takeLoad (.chan p)) := by
  show execCloseNotice p s = _
  rw [execCloseNotice, e.here]
  dsimp only
  rw [if_neg (by decide), State.chanHome_takeLoad, e.home]
  dsimp only
  rw [State.chanSpn_live e.live, State.putChanSpn_live e.live, State.putChanSpn_live e.live, State.spn_takeLoad, if_pos e.live]
  refine ite_congr rfl (fun _ => ite_congr rfl (fun _ => rfl) fun _ => ?_) fun _ => rfl
  split
  next b hb =>
    conv_rhs => rw [State.outAt, hb]
    rfl
  next hb =>
    conv_rhs => rw [State.outAt, hb]
    rfl

theorem notice_to_sender (hk : p.kind = .notice) (hst : (s.outAt h.ps p.dst.chan).st = .opened) : ∃ t, exec (.closeNotice p) s = .next t ∧
    t.outAt h.ps p.dst.chan = (s.outAt h.ps p.dst.chan).shut ∧ s.Alters t [.regs, .out, .log, .nodes, .spns, .irq, .fab, .logN, .ring] := by
  have hkeep := (s.tookOut h.ps p (s.outAt h.ps p.dst.chan).shut).tellReader_keep p.ctx h.l p.dst.chan (s.outAt h.ps p.dst.chan).bind
  refine ⟨_, (exec_notice_live e).trans ((if_pos hk).trans (if_neg (not_not_intro hst))),
    (State.outAt_congr (hkeep.spns rfl) _ _).trans (State.outAt_tookOut (OutChan.shut_listed _)),
    (Keep.via (m := 0x2EFF9ECBB) hkeep rfl ((State.tookOut_keep _).mono rfl)).alters _ rfl⟩

theorem exec_endMark_live : exec (.endMark p) s =
    if (s.inAt h.ps p.dst.chan).st = .opened then
      .next ((s.tookIn h.ps p { s.inAt h.ps p.dst.chan with st := .ended, endAt := some p.msg.seq }).pumpQueue 64 h.ps p.dst.chan)
    else .next (s.takeLoad (.chan p)) := by
  show execEndMark p s = _
  rw [execEndMark, e.here]
  dsimp only
  rw [if_neg (by decide), State.chanHome_takeLoad, e.home]
  dsimp only
  rw [State.chanSpn_live e.live, State.putChanSpn_live e.live, State.spn_takeLoad, if_pos e.live]
  rfl

end

end

/-! ### Strays (R252, R260). -/

/-- A packet whose index has left the stop since: the stop absorbs a message or an answer, and drops the rest. -/
theorem exec_stray {s : State} {p : ChanPkt} {st : Nat} (h : s.strayAt p = some st) :
    let x := s.takeLoad (.chan p)
    exec (.channelMessage p) s = .next (x.absorbLoad st (.chan p)) ∧ exec (.channelAccept p) s = .next (x.absorbLoad st (.chan p)) ∧
      exec (.channelClosed p) s = .next (x.absorbLoad st (.chan p)) ∧ exec (.channelCredit p) s = .next x ∧
      exec (.closeNotice p) s = .next x ∧ exec (.endMark p) s = .next x := by
  have hs : (s.strayAt p).isSome = true := by rw [h]; rfl
  refine ⟨?_, ?_, ?_, if_pos hs, if_pos hs, if_pos hs⟩
  · show execChannelMessage p s = _
    rw [execChannelMessage, h]
  · show execChannelAccept p s = _
    rw [execChannelAccept, h]
  · show execChannelClosed p s = _
    rw [execChannelClosed, h]

/-- Settles O29: each command at a live end, where the context is not there, and at a stop the index has left. -/
theorem channelTrafficComplete : Obligations.ChannelTrafficComplete := by
  refine ⟨?message, ?absent, ?answer, ?live, fun s p st h => exec_stray h⟩
  case message =>
    intro s p h b hs ha hh hl hr
    have e : LiveEnd s p h := ⟨hs, hh, hl⟩
    refine ⟨fun hc hu hb hsame hnear hheld hp => ?_, fun hc => runs_answeredClosed hr (exec_message_closed e ha hc)⟩
    exact runs_message_placed e ha hr ⟨hc, hu, by rw [State.inAt, hb]; exact hsame, hnear, hheld⟩ hp
  case absent =>
    intro s p hs hn
    exact ⟨fun ha hr => runs_answeredClosed hr (exec_message_absent hs ha hn), exec_credit_absent hs hn, exec_notice_absent hs hn,
      exec_endMark_absent hs hn⟩
  case answer =>
    intro s p o i hs ps ho
    refine ⟨runs_accept hs ho, fun hst => ?_⟩
    obtain ⟨t, hx, hspn, ha⟩ := closed_completes i hs ho hst
    exact ⟨t, hx, congrArg Spn.ops hspn, by rw [hspn]; exact Spn.outq_setOut (OutChan.shut_listed _), ha⟩
  case live =>
    intro s p h hs hh hl
    have e : LiveEnd s p h := ⟨hs, hh, hl⟩
    exact ⟨runs_credit e, notice_to_sender e, fun hk hst => (exec_notice_live e).trans ((if_pos hk).trans (if_pos hst)),
      fun hk hst => ⟨_, (exec_notice_live e).trans ((if_neg hk).trans (if_pos hst)), State.tookIn_pumped ChanSt.noConfusion _ _⟩,
      fun hst => ⟨_, (exec_endMark_live e).trans (if_pos hst), State.tookIn_pumped ChanSt.noConfusion _ _⟩,
      fun hst => (exec_endMark_live e).trans (if_neg hst)⟩

end Sys2Proof.Machine
end

section
/-! SUPPORT. What the fabric's operations leave of the registers, of the receive tracker and of this device's operations
(R305, R308, R309, R316 to R319). -/

namespace Sys2Proof.Machine

/-! ### The tracker and the operations. -/

/-- The receive tracker and the operations of this device are the same in both states. -/
structure State.SameOps (s t : State) : Prop where
  tracker : t.fab.tracker = s.fab.tracker
  ops : t.fab.ops = s.fab.ops

theorem State.SameOps.refl (s : State) : s.SameOps s := ⟨rfl, rfl⟩

theorem State.SameOps.trans {s t u : State} (h : s.SameOps t) (k : t.SameOps u) : s.SameOps u :=
  ⟨k.tracker.trans h.tracker, k.ops.trans h.ops⟩

/-- An operation that leaves the fabric alone leaves them alone. -/
theorem State.SameOps.of_keep {m : Nat} {s t : State} (k : Keep m s t) (hm : m.testBit 18 = true) : s.SameOps t :=
  ⟨congrArg Fab.tracker (k.fab hm), congrArg Fab.ops (k.fab hm)⟩

theorem State.SameOps.foldl {s u : State} {α : Type} {f : State → α → State} (hf : ∀ (u : State) x, u.SameOps (f u x)) (l : List α)
    (h : s.SameOps u) : s.SameOps (l.foldl f u) := by
  induction l generalizing u with
  | nil => exact h
  | cons x r ih => exact ih (h.trans (hf u x))

/-- The reason of a discard has been told at this tick (R316). -/
def State.discardTold (s : State) (reason : Nat) : State :=
  { s with fab := { s.fab with told := tset none s.fab.told reason (some s.now) } }

/-- A discard is counted, and recorded where its reason is due. -/
theorem State.discard_cases (s : State) (reason src dst : Nat) :
    let x := s.sat (Reg.FAB_DISC reason) 1
    s.discard reason src dst = (x.discardTold reason).event 0x0505 devUnit 1 [(16, 1, reason), (17, 2, src), (19, 2, dst)] ∨
      s.discard reason src dst = x := ite_eq_or_eq _ _ _

theorem State.discard_sameOps (s : State) (reason src dst : Nat) : s.SameOps (s.discard reason src dst) := by
  rcases s.discard_cases reason src dst with h | h <;> rw [h]
  · exact .trans (t := (s.sat (Reg.FAB_DISC reason) 1).discardTold reason) ⟨rfl, rfl⟩ (.of_keep (State.event_keep ..) rfl)
  · exact ⟨rfl, rfl⟩

theorem State.copyMcast_sameOps (s : State) (p : Pkt) (ingress : Option Nat) (vc : Nat) : s.SameOps (s.copyMcast p ingress vc) := by
  unfold State.copyMcast
  refine .foldl (fun u h => ?_) _ (.refl s)
  split
  · exact ⟨rfl, rfl⟩
  · exact .refl u

theorem State.routePkt_sameOps (s : State) (p : Pkt) (ingress : Option Nat) (vc : Nat) (since : DWord) :
    s.SameOps (s.routePkt p ingress vc since) := by
  unfold State.routePkt
  dsimp only
  split
  · exact ⟨rfl, rfl⟩
  · split
    · exact s.discard_sameOps _ _ _
    · split
      · exact ⟨rfl, rfl⟩
      · split
        · exact s.discard_sameOps _ _ _
        · exact ⟨rfl, rfl⟩

theorem State.routeMcast_sameOps (s : State) (p : Pkt) : s.SameOps (s.routeMcast p) := by
  unfold State.routeMcast
  dsimp only
  split
  · exact s.discard_sameOps _ _ _
  · split
    · exact s.copyMcast_sameOps _ _ _
    · exact (s.copyMcast_sameOps _ _ _).trans ⟨rfl, rfl⟩

theorem State.inject_sameOps (s : State) (p : Pkt) : s.SameOps (s.inject p) := by
  unfold State.inject
  dsimp only
  split
  · exact .refl s
  · split
    · exact s.routeMcast_sameOps _
    · exact s.routePkt_sameOps _ _ _ _

theorem State.sendResponse_sameOps (s : State) (p : Pkt) (data : List Byte) (poison : Nat) :
    s.SameOps (s.sendResponse p data poison) := .foldl State.inject_sameOps _ (.refl s)

theorem State.sendAck_sameOps (s : State) (p : Pkt) (status : Nat) : s.SameOps (s.sendAck p status) := s.inject_sameOps _

theorem State.opComplete_sameOps (s : State) (p : Pkt) (poison : Bool) : s.SameOps (s.opComplete p poison) := by
  have hack (u : State) : u.SameOps (if p.type = 0 ∨ p.type = 5 ∨ p.type = 9 then u.sendAck p (if poison then 1 else 0) else u) := by
    split
    · exact u.sendAck_sameOps _ _
    · exact .refl u
  unfold State.opComplete
  refine .trans ?_ (hack _)
  split
  · exact .of_keep (State.wr_keep ..) rfl
  · split
    · exact .of_keep (State.dspCount_keep ..) rfl
    · exact .refl s

/-! ### Registers. -/

/-- A 32-bit counter counts one more (R8). -/
theorem State.rd_sat_one {s : State} (h : twf 0 s.regs = true) (a : Nat) : (s.sat a 1).rd a = min (s.rd a + 1) 0xFFFFFFFF :=
  State.rd_sat_self h a 1

/-- What a register that is 0 at reset is given is read back in any table of registers, unless it is 0. -/
theorem State.reg_setReg_listed {a : Nat} {v : Word} (hz : regReset a = 0) (hv : v ≠ 0) (s : State) : (s.setReg a v).reg a = v := by
  unfold State.reg State.setReg
  simp only [hz, BitVec.ofNat_eq_ofNat, BitVec.xor_zero]
  exact tget_tset_eq hv _

/-- So a counter that is 0 at reset counts one more. -/
theorem State.rd_sat_listed {a : Nat} (hz : regReset a = 0) (s : State) : (s.sat a 1).rd a = min (s.rd a + 1) 0xFFFFFFFF := by
  have hlt := s.rd_lt a
  have hr : s.rf a 31 0 = s.rd a := Nat.mod_eq_of_lt hlt
  have hn : (BitVec.ofNat 32 (min (s.rd a + 1) 0xFFFFFFFF)).toNat = min (s.rd a + 1) 0xFFFFFFFF := by
    rw [BitVec.toNat_ofNat]
    omega
  have hne : BitVec.ofNat 32 (min (s.rd a + 1) 0xFFFFFFFF) ≠ 0 := fun h => by
    rw [h, show (0 : Word).toNat = 0 from rfl] at hn
    omega
  have hs : s.sat a 1 = s.setReg a (BitVec.ofNat 32 (min (s.rd a + 1) 0xFFFFFFFF)) := by
    unfold State.sat State.satField State.wf State.wr
    rw [setBits_full _ _ hlt, hr, Nat.mod_eq_of_lt (by omega)]
    rfl
  rw [hs]
  exact (congrArg BitVec.toNat (State.reg_setReg_listed hz hne s)).trans hn

theorem State.discard_but (s : State) (reason src dst : Nat) :
    s.RegsBut (s.discard reason src dst) [Reg.FAB_DISC reason, Reg.CNET_EVT_LOST] := by
  have hs : s.RegsBut (s.sat (Reg.FAB_DISC reason) 1) [Reg.FAB_DISC reason, Reg.CNET_EVT_LOST] := (s.sat_but _ _).of_one (by simp)
  rcases s.discard_cases reason src dst with h | h <;> rw [h]
  · exact hs.trans (.trans (t := (s.sat (Reg.FAB_DISC reason) 1).discardTold reason) (.of_regs rfl _)
      ((State.event_but _ _ _ _ _).of_one (by simp)))
  · exact hs

/-- A discard is counted under its reason (R316). -/
theorem State.rd_discard {s : State} (h : twf 0 s.regs = true) (reason src dst : Nat) :
    (s.discard reason src dst).rd (Reg.FAB_DISC reason) = min (s.rd (Reg.FAB_DISC reason) + 1) 0xFFFFFFFF := by
  have hne : Reg.FAB_DISC reason ∉ [Reg.CNET_EVT_LOST] := by
    simp only [List.mem_singleton, Reg.FAB_DISC, Reg.CNET_EVT_LOST]; omega
  refine .trans ?_ (State.rd_sat_one h _)
  rcases s.discard_cases reason src dst with h | h <;> rw [h]
  exact (State.event_but _ _ _ _ _).rd hne

/-- Registers a packet sent on may change: its discard for a table bank or a route, and the count of lost records. -/
def routeRegs : List Nat := [Reg.FAB_DISC 3, Reg.FAB_DISC 5, Reg.CNET_EVT_LOST]

theorem State.routePkt_but (s : State) (p : Pkt) (ingress : Option Nat) (vc : Nat) (since : DWord) :
    s.RegsBut (s.routePkt p ingress vc since) routeRegs := by
  unfold State.routePkt
  dsimp only
  split
  · exact .of_regs rfl _
  · split
    · exact (s.discard_but _ _ _).mono (by simp [routeRegs])
    · split
      · exact .of_regs rfl _
      · split
        · exact (s.discard_but _ _ _).mono (by simp [routeRegs])
        · exact .of_regs rfl _

theorem State.reroute_but (s : State) (h : Nat) : s.RegsBut (s.reroute h) routeRegs := by
  have one (u : State) (q : QPkt) : u.RegsBut (if q.pkt.type = 9 then
      u.wait { pkt := q.pkt, ingress := q.ingress, vc := q.vcIn, since := u.now, only := some h }
      else u.routePkt q.pkt q.ingress q.vcIn u.now) routeRegs := by
    split
    · exact .of_regs rfl _
    · exact u.routePkt_but _ _ _ _
  exact .foldl (fun u q _ => one u q) (.of_regs rfl _)

/-! ### A packet taken from transit. -/

section
variable (s : State) (m : Msg) (p : Pkt)

@[simp] theorem State.trackFind_take : (s.take m).trackFind p = s.trackFind p := rfl
@[simp] theorem State.opOf_take : (s.take m).opOf p = s.opOf p := rfl
@[simp] theorem State.collOf_take : (s.take m).collOf p = s.collOf p := rfl
@[simp] theorem State.epAbsorbs_take (ep : Nat) : (s.take m).epAbsorbs ep = s.epAbsorbs ep := rfl
@[simp] theorem State.fromPartner_take (half : Option Nat) (c : Nat) : (s.take m).fromPartner half c = s.fromPartner half c := rfl

end

/-- A packet discarded with a reason is counted and changes no byte of memory, no entry and no operation (R316). -/
theorem runs_discard {c : Instr} {s : State} {m : Msg} {reason src dst : Nat} (e : exec c s = .next ((s.take m).discard reason src dst)) :
    Runs c s [.regs, .out, .log, .nodes, .irq, .fab, .logN] (fun t => t.mem = s.mem ∧ s.SameOps t ∧
      t.rd (Reg.FAB_DISC reason) = min (s.rd (Reg.FAB_DISC reason) + 1) 0xFFFFFFFF) :=
  have hk : Keep 0x3EFF9FCBB s ((s.take m).discard reason src dst) := Keep.via (State.discard_keep ..) rfl ((s.take_keep m).mono rfl)
  Runs.of_next e (hk.alters _ (by decide)) (fun i =>
    ⟨hk.mem rfl, .trans (t := s.take m) ⟨rfl, rfl⟩ (State.discard_sameOps ..), State.rd_discard (s := s.take m) i.regs _ _ _⟩)

end Sys2Proof.Machine
end

section
/-! SUPPORT. Half-ports: a table of them that lists one twice (R288, R292). -/

namespace Sys2Proof.Machine

/-- The state after reset with half-port 0 in training, and listed twice. -/
def trainsTwice : State :=
  { State.reset.setPortSt 0 1 with fab := { halves := [(0, { trainAt := some 0 }), (0, { trainAt := some 0 })] } }

theorem trainsTwice_inv : trainsTwice.Inv := (Keep.setFab (m := 0) rfl ((State.setPortSt_keep ..).mono rfl)).inv resetIsWellKept

/-- Training ends with every lane of half-port 0 passing in Ethernet mode. -/
def trainedTwice : State := (trainsTwice.trained 0 0xFF false (0, 0) []).dikeDone

/-- The entry that training ends is dropped, being then as an unlisted half-port; the other entry is read. -/
theorem trainedTwice_trainAt : (trainedTwice.half 0).trainAt = some 0 := by decide +kernel

theorem trainsTwice_trains : trainsTwice.portSt 0 = 1 := by decide

theorem trainsTwice_width :
    trainWidth false (trainsTwice.cfgWidth 0) (trainsTwice.keptLanes 0 0xFF).toNat = some (8, [0, 1, 2, 3, 4, 5, 6, 7]) := by decide +kernel

/-- Refutes O30: `State.Inv` does not say that the table of half-ports is canonical.  Where it lists a half-port twice, the
training that clears the first entry lays the second open, and `trainAt` is still set (R288). -/
theorem not_linksComplete : ¬ Obligations.LinksComplete := by
  rintro ⟨-, complete, -⟩
  obtain ⟨-, up⟩ := complete trainsTwice 0 0xFF false (0, 0) [] trainsTwice_inv trainsTwice_trains
  obtain ⟨t, ht, -, -, -, -, htrain, -⟩ :=
    up 8 [0, 1, 2, 3, 4, 5, 6, 7] (by decide) trainsTwice_width (by decide) trainsTwice_inv
  have hx : exec (.trainingComplete 0 0xFF false (0, 0) []) trainsTwice = .next trainedTwice :=
    congrArg Host.Outcome.next (if_pos trainsTwice_trains)
  have e : t = trainedTwice := Host.Outcome.next.inj (ht.symm.trans hx)
  rw [e] at htrain
  exact absurd (trainedTwice_trainAt.symm.trans htrain) (Option.some_ne_none _)

end Sys2Proof.Machine
end

section
/-! SUPPORT. Frames received and packets served by the endpoints (R287, R291, R293 to R298, R305, R314 to R319), each command
from its rule. -/

namespace Sys2Proof.Machine

/-! ### The filters (R294, R297, R298). -/

/-- Registers that the frame filters of a half-port read. -/
def filterRegs (h : Nat) : List Nat :=
  [Reg.FAB_CTL, Reg.FAB_COORD, Reg.FAB_MAC, Reg.FAB_ETYPE, Reg.FAB_UDP, Reg.FAB_IP6_PFX 0, Reg.FAB_IP6_PFX 1, Reg.FAB_IP6_PFX 2,
   Reg.FAB_IP4_PFX, Reg.PORT_ST (h / 2) (h % 2)]

/-- The filters judge a frame by their registers alone. -/
theorem State.filterFrame_of_but {s t : State} {l : List Nat} {h : Nat} (b : s.RegsBut t l) (hl : ∀ a ∈ filterRegs h, a ∉ l)
    (bytes : List Byte) : t.filterFrame h bytes = s.filterFrame h bytes := by
  simp only [filterRegs, List.forall_mem_cons] at hl
  obtain ⟨hctl, hcoord, hmac, het, hudp, h60, h61, h62, h4, hst, -⟩ := hl
  have ecoord : t.coord = s.coord := b.rf hcoord _ _
  have emac (c g : Nat) : t.macOf c g = s.macOf c g := by unfold State.macOf; rw [b.rf hmac, b.rf hmac]
  have e6 (c g : Nat) : t.ip6Of c g = s.ip6Of c g := by unfold State.ip6Of; rw [b.rd h60, b.rd h61, b.rd h62]
  have e4 (c g : Nat) : t.ip4Of c g = s.ip4Of c g := by unfold State.ip4Of; rw [b.rf h4]
  have etag (p : Nat) : t.vlanTag p = s.vlanTag p := by unfold State.vlanTag; rw [b.rf het]
  have etopo : t.topo = s.topo := b.rf hctl _ _
  have enb (m src : List Byte) : t.neighbour h m src = s.neighbour h m src := by
    unfold State.neighbour; rw [ecoord, e6, emac, etag]
  have earp (m a p : List Byte) : t.arpReply h m a p = s.arpReply h m a p := by
    unfold State.arpReply; rw [ecoord, e4, emac, etag]
  have eudp (vc : Nat) (src dst u : List Byte) : t.udpIn vc src dst u = s.udpIn vc src dst u := by
    unfold State.udpIn; rw [b.rf hudp]
  unfold State.filterFrame
  simp only [ecoord, emac, e6, e4, etopo, enb, earp, eudp, b.rf hst, b.rf het, b.rbit hctl]

/-! ### FRAME_RECEIVE. -/

/-- A frame whose codewords could all be corrected has been counted (R291, R321). -/
def State.frameCounted (s : State) (h ce : Nat) : State := (s.countFec h ce 0).add64 (Reg.PORT_RX_PKT_LO (h / 2)) 1

/-- The counters that takes. -/
def frameRegs (h : Nat) : List Nat :=
  [Reg.PORT_FEC_CE (h / 2), Reg.PORT_FEC_UE (h / 2), Reg.PORT_RX_PKT_LO (h / 2), Reg.PORT_RX_PKT_LO (h / 2) + 4]

theorem State.countFec_zero (s : State) (h ce : Nat) :
    s.countFec h ce 0 = (s.sat (Reg.PORT_FEC_CE (h / 2)) ce).sat (Reg.PORT_FEC_UE (h / 2)) 0 := by
  unfold State.countFec
  exact if_pos rfl

section
variable (s : State) (h ce : Nat)

theorem State.countFec_zero_but : s.RegsBut (s.countFec h ce 0) [Reg.PORT_FEC_CE (h / 2), Reg.PORT_FEC_UE (h / 2)] := by
  rw [State.countFec_zero]
  exact (s.sat_but _ _).append (State.sat_but _ _ _)

theorem State.countFec_zero_keep : Keep 0x3FFFFFFFB s (s.countFec h ce 0) := by
  rw [State.countFec_zero]
  exact (s.sat_keep _ _).trans (State.sat_keep ..)

theorem State.frameCounted_but : s.RegsBut (s.frameCounted h ce) (frameRegs h) :=
  (s.countFec_zero_but h ce).append (State.add64_but _ _ _)

theorem State.frameCounted_keep : Keep 0x3FFFFFFFB s (s.frameCounted h ce) := (s.countFec_zero_keep h ce).trans (State.add64_keep ..)

theorem State.filterFrame_frameCounted (bytes : List Byte) : (s.frameCounted h ce).filterFrame h bytes = s.filterFrame h bytes :=
  State.filterFrame_of_but (s.frameCounted_but h ce)
    (by simp [filterRegs, frameRegs, Reg.FAB_CTL, Reg.FAB_COORD, Reg.FAB_MAC, Reg.FAB_ETYPE, Reg.FAB_UDP, Reg.FAB_IP6_PFX,
          Reg.FAB_IP4_PFX, Reg.PORT_ST, Reg.PORT_FEC_CE, Reg.PORT_FEC_UE, Reg.PORT_RX_PKT_LO]; omega) bytes

end

/-- Another frame is counted (R321). -/
def State.FrameMore (s t : State) (h : Nat) : Prop :=
  t.rd64 (Reg.PORT_RX_PKT_LO (h / 2)) = (s.rd64 (Reg.PORT_RX_PKT_LO (h / 2)) + 1) % 2 ^ 64

theorem State.frameMore_counted {s : State} (i : s.Inv) (h ce : Nat) : s.FrameMore (s.frameCounted h ce) h := by
  have hc : (s.countFec h ce 0).rd64 (Reg.PORT_RX_PKT_LO (h / 2)) = s.rd64 (Reg.PORT_RX_PKT_LO (h / 2)) :=
    (s.countFec_zero_but h ce).rd64 (by simp [Reg.PORT_FEC_CE, Reg.PORT_FEC_UE, Reg.PORT_RX_PKT_LO])
      (by simp [Reg.PORT_FEC_CE, Reg.PORT_FEC_UE, Reg.PORT_RX_PKT_LO]; omega)
  exact (State.rd64_wr64_self ((s.countFec_zero_keep h ce).inv i).regs _ _).trans (by rw [hc])

/-- What is done with the frame after that leaves the count alone. -/
theorem State.FrameMore.of_but {s t u : State} {h : Nat} {l : List Nat} (m : s.FrameMore t h) (b : t.RegsBut u l)
    (hl : Reg.PORT_RX_PKT_LO (h / 2) ∉ l ∧ Reg.PORT_RX_PKT_LO (h / 2) + 4 ∉ l) : s.FrameMore u h := (b.rd64 hl.1 hl.2).trans m

/-- What becomes of a counted frame in which no error lies, by what the filters make of it. -/
def State.frameServed (x : State) (h : Nat) (bytes : List Byte) (e : LinkErrs) : Rx → State
  | .bad => x.sat (Reg.PORT_RX_BAD (h / 2)) 1
  | .other => x.sat (Reg.PORT_RX_OTHER (h / 2)) 1
  | .untagged => x.discard 0 0 0
  | .answer b => (x.add64 (Reg.PORT_TX_PKT_LO (h / 2)) 1).send (.frame h b)
  | .pause l => x.pauseHalf h l
  | .fabric vc body pad => let y := (x.notePartner h (sliceB bytes 6 6)).routerLink h e body
    y.1.rxPacket h vc y.2 pad

/-- A frame that is only counted under one more counter. -/
theorem runs_frame_counted {s : State} {h : Fin 32} {bytes : List Byte} {ce : Nat} {hit : Bool} {e : LinkErrs} {a : Nat}
    (hx : exec (.frameReceive h bytes ce 0 hit e) s = .next ((s.frameCounted h ce).sat a 1)) (ha : a ∉ frameRegs h) :
    Runs (.frameReceive h bytes ce 0 hit e) s [.regs] (fun t => s.FrameMore t h ∧
      t.rd a = min (s.rd a + 1) 0xFFFFFFFF) := by
  have hk := s.frameCounted_keep h ce
  refine Runs.of_next hx ((hk.trans (State.sat_keep ..)).alters _ (by decide)) (fun i => ⟨?_, ?_⟩)
  · refine (State.frameMore_counted i h ce).of_but (State.sat_but _ a 1) ?_
    simp only [frameRegs, List.mem_cons, List.not_mem_nil, or_false, not_or] at ha
    exact ⟨fun hm => ha.2.2.1 (List.mem_singleton.mp hm).symm, fun hm => ha.2.2.2 (List.mem_singleton.mp hm).symm⟩
  · rw [State.rd_sat_one (hk.inv i).regs, (s.frameCounted_but h ce).rd ha]

section
variable {s : State} {h : Fin 32} (hp : s.portSt h = 2 ∨ s.portSt h = 5) (bytes : List Byte) (ce : Nat) (e : LinkErrs)
include hp

/-- A half-port in service takes the frame. -/
theorem exec_frame (hit : Bool) : exec (.frameReceive h bytes ce 0 hit e) s =
    .next (if hit then (s.frameCounted h ce).sat (Reg.PORT_RX_BAD (h / 2)) 1
      else (s.frameCounted h ce).frameServed h bytes e (s.filterFrame h bytes)) := by
  have hst : (s.countFec h ce 0).portSt h = s.portSt h :=
    (s.countFec_zero_but h ce).rf (by simp [Reg.PORT_ST, Reg.PORT_FEC_CE, Reg.PORT_FEC_UE]; omega) 2 0
  rw [← s.filterFrame_frameCounted h ce bytes]
  show execFrameReceive h bytes ce 0 hit e s = _
  unfold execFrameReceive
  dsimp only
  rw [if_neg (by omega), if_neg (by omega)]
  cases hit with
  | true => rfl
  | false =>
    unfold State.frameCounted
    cases ((s.countFec h ce 0).add64 (Reg.PORT_RX_PKT_LO (h / 2)) 1).filterFrame h bytes <;> rfl

theorem runs_frame_bad {hit : Bool} (hb : hit = true ∨ s.filterFrame h bytes = .bad) :
    Runs (.frameReceive h bytes ce 0 hit e) s [.regs] (fun t => s.FrameMore t h ∧
      t.rd (Reg.PORT_RX_BAD (h / 2)) = min (s.rd (Reg.PORT_RX_BAD (h / 2)) + 1) 0xFFFFFFFF) := by
  refine runs_frame_counted ((exec_frame hp bytes ce e hit).trans ?_)
    (by simp [frameRegs, Reg.PORT_RX_BAD, Reg.PORT_FEC_CE, Reg.PORT_FEC_UE, Reg.PORT_RX_PKT_LO]; omega)
  rcases hb with rfl | hb
  · rfl
  · rw [hb]
    exact congrArg _ (ite_self _)

theorem runs_frame_other (hf : s.filterFrame h bytes = .other) :
    Runs (.frameReceive h bytes ce 0 false e) s [.regs] (fun t => s.FrameMore t h ∧
      t.rd (Reg.PORT_RX_OTHER (h / 2)) = min (s.rd (Reg.PORT_RX_OTHER (h / 2)) + 1) 0xFFFFFFFF) := by
  refine runs_frame_counted ((exec_frame hp bytes ce e false).trans ?_)
    (by simp [frameRegs, Reg.PORT_RX_OTHER, Reg.PORT_FEC_CE, Reg.PORT_FEC_UE, Reg.PORT_RX_PKT_LO]; omega)
  rw [hf]
  rfl

theorem runs_frame_untagged (hf : s.filterFrame h bytes = .untagged) :
    Runs (.frameReceive h bytes ce 0 false e) s [.regs, .log, .nodes, .irq, .fab, .logN] (fun t => s.FrameMore t h ∧
      t.rd (Reg.FAB_DISC 0) = min (s.rd (Reg.FAB_DISC 0) + 1) 0xFFFFFFFF) := by
  have hk := s.frameCounted_keep h ce
  have hx := exec_frame hp bytes ce e false
  rw [hf] at hx
  refine Runs.of_next hx ((Keep.via (State.discard_keep ..) rfl (hk.mono (m := 0x3EFF9FCFB) rfl)).alters _ (by decide)) (fun i => ⟨?_, ?_⟩)
  · exact (State.frameMore_counted i h ce).of_but (State.discard_but _ 0 0 0)
      (by simp [Reg.PORT_RX_PKT_LO, Reg.FAB_DISC, Reg.CNET_EVT_LOST]; omega)
  · refine (State.rd_discard (hk.inv i).regs 0 0 0).trans ?_
    rw [(s.frameCounted_but h ce).rd (by simp [frameRegs, Reg.FAB_DISC, Reg.PORT_FEC_CE, Reg.PORT_FEC_UE, Reg.PORT_RX_PKT_LO]; omega)]

theorem runs_frame_answered {b : List Byte} (hf : s.filterFrame h bytes = .answer b) :
    Runs (.frameReceive h bytes ce 0 false e) s [.regs, .out] (fun t => s.FrameMore t h ∧ t.out = s.out ++ [.frame h b]) := by
  have hk : Keep 0x3FFFFFFFB s ((s.frameCounted h ce).add64 (Reg.PORT_TX_PKT_LO (h / 2)) 1) :=
    (s.frameCounted_keep h ce).trans (State.add64_keep ..)
  have hx := exec_frame hp bytes ce e false
  rw [hf] at hx
  refine Runs.of_next hx ((Keep.via (m := 0x3FFFFFFBB) (State.send_keep ..) rfl (hk.mono rfl)).alters _ (by decide)) (fun i => ⟨?_, ?_⟩)
  · exact (State.frameMore_counted i h ce).of_but (State.add64_but _ (Reg.PORT_TX_PKT_LO (h / 2)) 1)
      (by simp [Reg.PORT_RX_PKT_LO, Reg.PORT_TX_PKT_LO]; omega)
  · exact congrArg (· ++ [Msg.frame h b]) (hk.out rfl)

theorem exec_frame_paused {l : List (Nat × Nat)} (hf : s.filterFrame h bytes = .pause l) (i : s.Inv) :
    ∃ x : State, exec (.frameReceive h bytes ce 0 false e) s = .next (x.pauseHalf h l) ∧ s.Alters x [.regs] ∧ s.FrameMore x h := by
  have hx := exec_frame hp bytes ce e false
  rw [hf] at hx
  exact ⟨_, hx, (s.frameCounted_keep h ce).alters _ (by decide), State.frameMore_counted i h ce⟩

end

/-! ### The tracker (R318, R319). -/

/-- The tracker holds an entry for the packet's operation in which the packet is marked. -/
def State.Entered (s : State) (p : Pkt) : Prop := ∃ g ∈ s.fab.tracker, p.hasEntry g = true ∧ p.idx ∈ g.got

theorem State.Entered.of_same {s t : State} {p : Pkt} (h : s.Entered p) (k : s.SameOps t) : t.Entered p := by
  unfold State.Entered
  rw [k.tracker]
  exact h

/-- A packet its entry has already is discarded with reason 6. -/
theorem State.trackFind_again {s : State} {p : Pkt} {e : TrkEnt} (h : s.fab.tracker.find? p.hasEntry = some e) (hi : p.idx ∈ e.got) :
    s.trackFind p = .inl 6 := by
  unfold State.trackFind
  simp only [h]
  exact if_pos (List.contains_iff_mem.mpr hi)

/-- The entry a packet goes into is one of its operation. -/
theorem State.trackFind_hasEntry {s : State} {p : Pkt} {e : TrkEnt} (h : s.trackFind p = .inr e) : p.hasEntry e = true := by
  unfold State.trackFind at h
  cases hf : s.fab.tracker.find? p.hasEntry with
  | some g =>
    simp only [hf] at h
    obtain ⟨-, h⟩ | ⟨-, h⟩ := ite_eq_iff.mp h
    · cases h
    · obtain ⟨-, h⟩ | ⟨-, h⟩ := ite_eq_iff.mp h
      · cases h
      · exact Sum.inr.inj h ▸ List.find?_some hf
  | none =>
    simp only [hf] at h
    obtain ⟨-, h⟩ | ⟨-, h⟩ := ite_eq_iff.mp h
    · cases h
    · obtain ⟨-, h⟩ | ⟨-, h⟩ := ite_eq_iff.mp h
      · cases h
      · rw [← Sum.inr.inj h]
        simp [Pkt.hasEntry]

theorem State.trackMark_entered (s : State) {p : Pkt} {e : TrkEnt} (h : p.hasEntry e = true) (poison : Bool) :
    (s.trackMark p e poison).2.2.Entered p :=
  ⟨(s.trackMark p e poison).2.1, List.mem_append_right _ List.mem_cons_self, h, List.mem_append_right _ List.mem_cons_self⟩

/-- A write the tracker takes is entered (R319). -/
theorem State.applyWrite_entered {s : State} {p : Pkt} {e : TrkEnt} (h : s.trackFind p = .inr e) (f : Flips) :
    (s.applyWrite p f).1 = true ∧ (s.applyWrite p f).2.2.Entered p := by
  have he := State.trackFind_hasEntry h
  have marked (u : State) (b : Bool) :
      (if (u.trackMark p e b).1 then (u.trackMark p e b).2.2.opComplete p (u.trackMark p e b).2.1.poison else (u.trackMark p e b).2.2).Entered p := by
    split
    · exact (u.trackMark_entered he b).of_same (State.opComplete_sameOps ..)
    · exact u.trackMark_entered he b
  unfold State.applyWrite
  rw [h]
  exact ⟨rfl, marked _ _⟩

/-! ### Writes (R314, R318, R319, R336). -/

section
variable {s : State} {ty : Nat} {p : Pkt}

/-- A write of the row's TYPE for no active collective is taken from transit. -/
theorem plainWrite_takes (ht : p.type = ty) (hr : s.roleOf p = none) (half : Option Nat) (f : Flips) :
    s.plainWrite ty half p f = .next ((s.take (.pkt half p)).earlyWrite half p f) :=
  if_neg (by rw [hr]; simp [ht])

theorem plainWrite_other (ht : p.type ≠ ty) (half : Option Nat) (f : Flips) : s.plainWrite ty half p f = .next s := if_pos (.inl ht)

theorem State.earlyWrite_bad (hw : (p.w7Bad && p.engine.isSome) = true) (half : Option Nat) (f : Flips) :
    s.earlyWrite half p f = s.transportBad half p (p.engine.getD 0) := if_pos hw

theorem State.earlyWrite_checked (hw : (p.w7Bad && p.engine.isSome) = false) (half : Option Nat) (f : Flips) :
    s.earlyWrite half p f = let r := s.applyWrite p f
      if r.1 then r.2.2.keepEarly half p r.2.1 else r.2.2 := if_neg (Bool.eq_false_iff.mp hw)

theorem State.earlyWrite_again (hw : (p.w7Bad && p.engine.isSome) = false) {r : Nat} (h : s.trackFind p = .inl r) (half : Option Nat)
    (f : Flips) : s.earlyWrite half p f = s.discard r p.scoord p.dcoord := by
  rw [State.earlyWrite_checked hw]
  unfold State.applyWrite
  rw [h]
  rfl

theorem State.earlyWrite_takes (hw : (p.w7Bad && p.engine.isSome) = false) {e : TrkEnt} (h : s.trackFind p = .inr e) (half : Option Nat)
    (f : Flips) : s.earlyWrite half p f = (s.applyWrite p f).2.2.keepEarly half p (s.applyWrite p f).2.1 :=
  (State.earlyWrite_checked hw half f).trans (if_pos (State.applyWrite_entered h f).1)

/-- A write that is taken: where its entry ends up. -/
theorem plainWrite_entered (ht : p.type = ty) (hr : s.roleOf p = none) (hw : (p.w7Bad && p.engine.isSome) = false) {e : TrkEnt}
    (h : s.trackFind p = .inr e) (half : Option Nat) (f : Flips) :
    let x := s.take (.pkt half p)
    ∃ t, s.plainWrite ty half p f = .next t ∧ t = (x.applyWrite p f).2.2.keepEarly half p (x.applyWrite p f).2.1 ∧ t.Entered p :=
  ⟨_, (plainWrite_takes ht hr half f).trans (congrArg _ (State.earlyWrite_takes (s := s.take _) hw h half f)), rfl,
    (State.applyWrite_entered (s := s.take (.pkt half p)) h f).2.of_same (.of_keep (State.keepEarly_keep ..) rfl)⟩

end

/-! ### Requests and answers (R305, R318, R319). -/

section
variable {s : State} (half : Option Nat) {p : Pkt} (f : Flips)

theorem exec_read_taken (ht : p.type = 1) {e : TrkEnt} (h : s.trackFind p = .inr e) (ha : s.epAbsorbs p.dep = false) :
    let r := (s.take (.pkt half p)).devRead (.fabric p.scoord) p.addr p.asks f
    exec (.fabReadRequest half p f) s =
      .next (((r.2.2.2.trackMark p e false).2.2.opComplete p false).sendResponse p r.1 r.2.1) := by
  show execFabReadRequest half p f s = _
  simp [execFabReadRequest, ht, h, ha]

theorem exec_read_again (ht : p.type = 1) {r : Nat} (h : s.trackFind p = .inl r) :
    exec (.fabReadRequest half p f) s = .next ((s.take (.pkt half p)).discard r p.scoord p.dcoord) := by
  show execFabReadRequest half p f s = _
  simp [execFabReadRequest, ht, h]

theorem exec_atomic_taken (ht : p.type = 3) {e : TrkEnt} (h : s.trackFind p = .inr e) (ha : s.epAbsorbs p.dep = false) :
    let r := (s.take (.pkt half p)).devAtomic (.fabric p.scoord) p.addr (rdLE p.payload 0 1) (rdLE p.payload 8 8) (rdLE p.payload 16 8)
      p.poison f
    exec (.fabAtomic half p f) s =
      .next (((r.2.2.2.trackMark p e r.2.1).2.2.opComplete p r.2.1).sendResponse p (toLE 8 r.1) (if r.2.1 then 1 else 0)) := by
  show execFabAtomic half p f s = _
  simp [execFabAtomic, ht, h, ha]

theorem exec_atomic_again (ht : p.type = 3) {r : Nat} (h : s.trackFind p = .inl r) :
    exec (.fabAtomic half p f) s = .next ((s.take (.pkt half p)).discard r p.scoord p.dcoord) := by
  show execFabAtomic half p f s = _
  simp [execFabAtomic, ht, h]

/-- A served operation is entered, its answer sent. -/
theorem State.served_entered (s : State) {p : Pkt} {e : TrkEnt} (h : p.hasEntry e = true) (poison : Bool) (data : List Byte) (pois : Nat) :
    (((s.trackMark p e poison).2.2.opComplete p poison).sendResponse p data pois).Entered p :=
  (s.trackMark_entered h poison).of_same ((State.opComplete_sameOps ..).trans (State.sendResponse_sameOps ..))

variable (ht : p.type = 2)
include ht

theorem exec_response_unknown (ho : s.opOf p = none) :
    exec (.fabReadResponse half p) s = .next ((s.take (.pkt half p)).discard 13 p.scoord p.dcoord) := by
  show execFabReadResponse half p s = _
  simp [execFabReadResponse, ht, ho]

theorem exec_response_again {o : FabOp} (ho : s.opOf p = some o) {r : Nat} (h : s.trackFind p = .inl r) :
    exec (.fabReadResponse half p) s = .next ((s.take (.pkt half p)).discard r p.scoord p.dcoord) := by
  show execFabReadResponse half p s = _
  simp [execFabReadResponse, ht, ho, h]

/-- The last response of a read that neither a restore nor a counter waits for ends it (R319). -/
theorem runs_response_last {o : FabOp} (ho : s.opOf p = some o) {e : TrkEnt} (h : s.trackFind p = .inr e) (hwho : o.who ≠ .restore)
    (hlast : p.last = true) (hw7 : p.w7 = e.got.length + 1) (heng : p.engine = none) (hcid : p.cid / 2 ^ 14 ≠ 1) :
    Runs (.fabReadResponse half p) s [.regs, .out, .fab] (fun t => t.fab.ops = s.fab.ops.filter (fun y => decide (y ≠ o)) ∧ t.Entered p) := by
  let m := (s.take (.pkt half p)).trackMark p e p.poison
  have hfull : m.1 = true := by
    show ((if p.last then some p.w7 else e.total) == some (e.got ++ [p.idx]).length) = true
    rw [hlast, hw7, List.length_append]
    exact beq_self_eq_true _
  have hdone : m.2.2.opComplete p false = m.2.2 := by
    unfold State.opComplete
    rw [heng]
    dsimp only
    rw [if_neg (show ¬(p.type = 0 ∨ p.type = 5 ∨ p.type = 9) by omega), if_neg (fun hc => hcid hc.1)]
  have hx : exec (.fabReadResponse half p) s = .next (m.2.2.dropOp o) := by
    show execFabReadResponse half p s = _
    unfold execFabReadResponse
    rw [if_neg (not_not.mpr ht)]
    dsimp only
    rw [State.opOf_take, ho]
    dsimp only
    rw [State.trackFind_take, h]
    dsimp only
    rw [if_pos hfull]
    split
    · exact absurd ‹_› hwho
    · rw [hdone]
  refine Runs.of_next hx ?_ (fun _ => ⟨rfl, ?_⟩)
  · exact (Keep.via (m := 0x3FFFBFFBB) (State.dropOp_keep ..) rfl <| Keep.via (State.trackMark_keep ..) rfl <|
      (s.take_keep _).mono rfl).alters _ (by decide)
  · obtain ⟨g, hg, he⟩ := (s.take (.pkt half p)).trackMark_entered (State.trackFind_hasEntry h) p.poison
    exact ⟨g, hg, he⟩

end

/-- Settles O31: a frame by what the filters make of it, a packet by what the tracker makes of it. -/
theorem fabricReceptionCompletes : Obligations.FabricReceptionCompletes := by
  refine ⟨fun s h bytes ce ue hit e h2 h5 => if_pos ⟨h2, h5⟩, ?frames, ?again, ?taken, ?others⟩
  case frames =>
    intro s h bytes ce hit e i hp pk
    refine ⟨runs_frame_bad hp bytes ce e, ?_, ?_, ?_, ?_, ?_⟩
    · rintro rfl hf; exact runs_frame_other hp bytes ce e hf
    · rintro rfl hf; exact runs_frame_untagged hp bytes ce e hf
    · rintro b rfl hf; exact runs_frame_answered hp bytes ce e hf
    · rintro l rfl hf; exact exec_frame_paused hp bytes ce e hf i
    · rintro vc body pad rfl hf
      have hx := exec_frame hp bytes ce e false
      rw [hf] at hx
      exact hx
  case again =>
    intro s half p f e he hi again
    have h6 : s.trackFind p = .inl 6 := State.trackFind_again he hi
    have of {c : Instr} (hx : exec c s = .next ((s.take (.pkt half p)).discard 6 p.scoord p.dcoord)) : again c :=
      fun i => (runs_discard hx i).imp (fun _ ⟨h1, h2, hm, hs, hc⟩ => ⟨h1, h2, hm, hs.tracker, hc⟩)
    have write {ty : Nat} (ht : p.type = ty) (hr : s.roleOf p = none) (hw : (p.w7Bad && p.engine.isSome) = false) :
        s.plainWrite ty half p f = .next ((s.take (.pkt half p)).discard 6 p.scoord p.dcoord) :=
      (plainWrite_takes ht hr half f).trans (congrArg _ (State.earlyWrite_again (s := s.take _) hw h6 half f))
    refine ⟨fun ht hr hw => of (write ht hr hw), fun ht hr hw => of (write ht hr hw), fun ht => of (exec_read_again half f ht h6),
      fun ht => of (exec_atomic_again half f ht h6), fun ht ho => ?_⟩
    obtain ⟨o, ho⟩ := Option.ne_none_iff_exists'.mp ho
    exact of (exec_response_again half ht ho h6)
  case taken =>
    intro s half p f e he x
    refine ⟨fun ht hr hw => plainWrite_entered ht hr hw he half f, fun ht hr hw => plainWrite_entered ht hr hw he half f, ?_, ?_, ?_⟩
    · exact fun ht ha => ⟨_, exec_read_taken half f ht he ha, rfl, State.served_entered _ (State.trackFind_hasEntry he) _ _ _⟩
    · exact fun ht ha => ⟨_, exec_atomic_taken half f ht he ha, rfl, State.served_entered _ (State.trackFind_hasEntry he) _ _ _⟩
    · exact fun o ht ho hwho hlast hw7 heng hcid => runs_response_last half ht ho he hwho hlast hw7 heng hcid
  case others =>
    intro s half p f
    refine ⟨fun ht ho i => ?_, fun hr hw => ?_, fun h => plainWrite_other h half f, fun h => plainWrite_other h half f,
      fun h => if_pos h, fun h => if_pos h, fun h => if_pos h⟩
    · exact (runs_discard (exec_response_unknown half ht ho) i).imp (fun _ ⟨h1, h2, _, hs, hc⟩ => ⟨h1, h2, hc, hs.tracker⟩)
    · have write {ty : Nat} (ht : p.type = ty) : s.plainWrite ty half p f = .next ((s.take (.pkt half p)).transportBad half p (p.engine.getD 0)) :=
        (plainWrite_takes ht hr half f).trans (congrArg _ (State.earlyWrite_bad (s := s.take _) hw half f))
      exact ⟨write, write⟩

end Sys2Proof.Machine
end

section
/-! SUPPORT. The collective engine: contributions, results, time limits, failures, peers and acknowledgements (R319, R326, R331,
R336 to R347), each command from its rule. -/

namespace Sys2Proof.Machine

/-! ### Failures (R339, R347). -/

/-- The collective has failed and left the engine; its context has not been told yet. -/
def State.collFailed (s : State) (c : Coll) (cause rank : Nat) : State :=
  (((s.dropColl c).sat Reg.COLL_FAIL 1).wr Reg.COLL_LAST_FAIL (c.req.ecb * 2 ^ 16 + rank % 256 * 2 ^ 8 + cause)).eventCtx 0x0603 collUnit 2
    c.ctx [(16, 1, cause), (17, 2, c.req.ecb), (19, 2, rank)]

theorem State.failColl_eq (s : State) (c : Coll) (cause rank : Nat) :
    s.failColl c cause rank = ((s.collFailed c cause rank).ctxRaise c.ctx c.logical c.req.cnt 1 true).faultCtx c.ctx 0x0603 := rfl

theorem State.collAt_dropColl (s : State) (c : Coll) : (s.dropColl c).collAt c.req.ecb = none := by
  unfold State.collAt State.dropColl
  rw [List.find?_eq_none]
  intro x hx
  simpa using (List.mem_filter.mp hx).2

theorem State.collAt_collFailed (s : State) (c : Coll) (cause rank : Nat) : (s.collFailed c cause rank).collAt c.req.ecb = none := by
  have hc : (s.collFailed c cause rank).coll = (s.dropColl c).coll := (State.eventCtx_keep ..).coll rfl
  refine .trans ?_ (s.collAt_dropColl c)
  unfold State.collAt
  rw [hc]

theorem State.rd_collFailed {s : State} (h : twf 0 s.regs = true) (c : Coll) {cause : Nat} (rank : Nat) (he : c.req.ecb < 65536)
    (hc : cause < 256) :
    (s.collFailed c cause rank).rd Reg.COLL_FAIL = min (s.rd Reg.COLL_FAIL + 1) 0xFFFFFFFF ∧
      (s.collFailed c cause rank).rd Reg.COLL_LAST_FAIL = c.req.ecb * 2 ^ 16 + rank % 256 * 2 ^ 8 + cause := by
  have h1 : twf 0 ((s.dropColl c).sat Reg.COLL_FAIL 1).regs = true := State.regs_sat h
  refine ⟨((State.eventCtx_but _ _ _ _ _ _).rd (by decide)).trans ?_, ((State.eventCtx_but _ _ _ _ _ _).rd (by decide)).trans ?_⟩
  · rw [State.rd_wr_ne h1 _ (by decide)]
    exact State.rd_sat_one (s := s.dropColl c) h Reg.COLL_FAIL
  · rw [State.rd_wr_self h1, Nat.mod_eq_of_lt (by omega)]

/-! ### Contributions (R331, R336). -/

/-- A transport mismatch of a packet of this device is counted, and recorded where its source is due (R336). -/
theorem State.transportBad_own (s : State) (p : Pkt) (ecb : Nat) :
    let x := s.sat Reg.COLL_CW_TX 1
    s.transportBad none p ecb = ({ x with coll := { x.coll with told := tset none x.coll.told p.scoord (some x.now) } } : State).event 0x0601
        collUnit 2 [(16, 1, 1), (17, 2, p.scoord), (19, 2, ecb), (21, 2, p.idx)] ∨
      s.transportBad none p ecb = x := ite_eq_or_eq _ _ _

theorem State.transportBad_own_counts (s : State) (p : Pkt) (ecb : Nat) :
    let y := s.transportBad none p ecb
    y.mem = s.mem ∧ y.fab.tracker = s.fab.tracker ∧ y.rd Reg.COLL_CW_TX = min (s.rd Reg.COLL_CW_TX + 1) 0xFFFFFFFF := by
  have hz : regReset Reg.COLL_CW_TX = 0 := by decide
  intro y
  rcases s.transportBad_own p ecb with hy | hy <;> rw [show y = _ from hy]
  · exact ⟨(State.event_keep ..).mem rfl, congrArg Fab.tracker ((State.event_keep ..).fab rfl),
      ((State.event_but _ _ _ _ _).rd (by decide)).trans (State.rd_sat_listed hz s)⟩
  · exact ⟨rfl, rfl, State.rd_sat_listed hz s⟩

section
variable {s : State} {p : Pkt} (ht : p.type = 5) (half : Option Nat) (f : Flips)
include ht

theorem exec_contribution_none (hc : s.collOf p = none) (hs : p.shadow = false) :
    exec (.reduceContribution half p f) s = .next ((s.take (.pkt half p)).earlyWrite half { p with check := true } f) := by
  show execReduceContribution half p f s = _
  simp [execReduceContribution, ht, hc, hs]

theorem runs_contribution_late (hc : s.collOf p = none) (hs : p.shadow = true) :
    Runs (.reduceContribution half p f) s [.regs, .out] (fun t =>
      t.rd Reg.COLL_SHADOW_LATE = min (s.rd Reg.COLL_SHADOW_LATE + 1) 0xFFFFFFFF) := by
  have hx : exec (.reduceContribution half p f) s = .next ((s.take (.pkt half p)).sat Reg.COLL_SHADOW_LATE 1) := by
    show execReduceContribution half p f s = _
    simp [execReduceContribution, ht, hc, hs]
  exact Runs.of_next hx ((Keep.via (m := 0x3FFFFFFBB) (State.sat_keep ..) rfl ((s.take_keep _).mono rfl)).alters _ (by decide))
    (fun i => State.rd_sat_one (s := s.take _) i.regs _)

variable {c : Coll} (hc : s.collOf p = some c)
include hc

theorem exec_contribution_bad (hb : c.badCheck p = true) :
    exec (.reduceContribution half p f) s = .next ((s.take (.pkt half p)).transportBad half p c.req.ecb) := by
  show execReduceContribution half p f s = _
  simp [execReduceContribution, ht, hc, hb]

theorem exec_contribution_staged (hb : c.badCheck p = false) (hs : p.shadow = false) :
    exec (.reduceContribution half p f) s = .next (let r := (s.take (.pkt half p)).applyWrite { p with check := true } f
      if r.1 then r.2.2.stage c p r.2.1 f else r.2.2) := by
  show execReduceContribution half p f s = _
  simp [execReduceContribution, ht, hc, hb, hs]

end

/-- The check word of a contribution is the one over its place in its shard (R336). -/
theorem Coll.badCheck_contribution (c : Coll) {p : Pkt} (ht : p.type = 5) :
    c.badCheck p = c.mismatch p (c.lo (c.shardOf (c.placeOf p).1) + p.idx * c.per) c.w := if_pos ht

/-! ### Results, reports and agreed sets (R336, R339, R340). -/

section
variable {s : State} {p : Pkt} {c : Coll} {off : Nat} (hr : s.roleOf p = some (c, off)) (ht : p.type = 0 ∨ p.type = 9) (half : Option Nat)
  (f : Flips)
include hr ht

/-- A write for a counter of a collective is checked, then applied, and means what its counter says. -/
theorem engineRow_eq : s.engineRow half p off f = .next (if c.badCheck p then (s.take (.pkt half p)).transportBad half p c.req.ecb
    else let r := (s.take (.pkt half p)).applyWrite p f
      if r.1 then r.2.2.engineWrite c off p r.2.1 f else r.2.2) := by
  have hn : ¬(off ≠ off ∨ p.type ≠ 0 ∧ p.type ≠ 9) := by omega
  unfold State.engineRow
  rw [hr]
  dsimp only
  rw [if_neg hn]
  split <;> rfl

end

/-- The check word of a write of a collective is the one over its place at DST (R336). -/
theorem Coll.badCheck_write (c : Coll) {p : Pkt} (ht : p.type = 0 ∨ p.type = 9) :
    c.badCheck p = true ↔ p.check = true ∧ c.mismatch p ((p.addr - c.req.dst) / c.wr) c.wr = true := by
  unfold Coll.badCheck
  rw [if_neg (by omega), Bool.and_eq_true]

theorem engineRow_none {s : State} {p : Pkt} (h : s.roleOf p = none) (half : Option Nat) (off : Nat) (f : Flips) :
    s.engineRow half p off f = .next s := by
  unfold State.engineRow
  rw [h]

/-! ### Time limits (R337, R339, R340). -/

section
variable {s : State} {ecb : Nat} {c : Coll} (hc : s.collAt ecb = some c) (f : Flips)
include hc

theorem exec_deadline_early (h : (s.now - c.taken).toNat < s.rd Reg.COLL_DEADLINE) : exec (.collDeadlineExpiry ecb f) s = .next s := by
  show execCollDeadlineExpiry ecb f s = _
  unfold execCollDeadlineExpiry
  rw [hc]
  exact if_pos (.inl h)

theorem exec_deadline_strict (h : s.rd Reg.COLL_DEADLINE ≤ (s.now - c.taken).toNat) (h0 : s.rbit Reg.COLL_CTL 0 = false)
    (hd : c.req.drop = false) {r : Nat} (hr : c.expected.find? (fun r => !(c.have_ 0).contains r) = some r) :
    exec (.collDeadlineExpiry ecb f) s = .next (s.failColl c 1 r) := by
  show execCollDeadlineExpiry ecb f s = _
  unfold execCollDeadlineExpiry
  rw [hc]
  dsimp only
  rw [if_neg (by rw [h0]; simpa using h), if_pos (.inl hd), hr]

theorem exec_deadline_tolerant (h : s.rd Reg.COLL_DEADLINE ≤ (s.now - c.taken).toNat) (h0 : s.rbit Reg.COLL_CTL 0 = false)
    (hd : c.req.drop = true) (he : c.exclusion = false) : exec (.collDeadlineExpiry ecb f) s = .next (s.progress ecb true f) := by
  show execCollDeadlineExpiry ecb f s = _
  unfold execCollDeadlineExpiry
  rw [hc]
  dsimp only
  rw [if_neg (by rw [h0]; simpa using h), if_neg (by simp [hd, he])]

theorem exec_agree_early {b : DWord} (hb : c.readyAt = some b) (h : (s.now - b).toNat ≤ s.rd Reg.COLL_AGREE_TMO) :
    exec (.collAgreeTimeout ecb f) s = .next s := by
  show execCollAgreeTimeout ecb f s = _
  unfold execCollAgreeTimeout
  rw [hc]
  dsimp only
  rw [hb]
  exact if_neg (fun hn => by omega)

theorem exec_agree_fails {b : DWord} {d : Coll} (hb : c.readyAt = some b) (hr : c.req.rank = 0) (ha : c.agreed = none)
    (h : s.rd Reg.COLL_AGREE_TMO < (s.now - b).toNat) (hd : (s.formAgreed c f).collAt ecb = some d) (hn : d.agreed = none) :
    exec (.collAgreeTimeout ecb f) s = .next (s.failColl c 7 0) := by
  show execCollAgreeTimeout ecb f s = _
  unfold execCollAgreeTimeout
  rw [hc]
  dsimp only
  rw [hb]
  dsimp only
  rw [if_pos ⟨hr, ha, h⟩, hd]
  dsimp only
  rw [hn]
  rfl

theorem exec_resultTimeout : exec (.collResultTimeout ecb f) s =
    if s.rd Reg.COLL_RESULT_TMO ≤ (s.now - c.taken).toNat then .next (s.failColl c 9 c.req.rank) else .next s := by
  show execCollResultTimeout ecb f s = _
  unfold execCollResultTimeout
  rw [hc]

end

/-- No time limit runs for a collective that is not active. -/
theorem exec_limits_none {s : State} {ecb : Nat} (h : s.collAt ecb = none) (f : Flips) : exec (.collDeadlineExpiry ecb f) s = .next s ∧
    exec (.collAgreeTimeout ecb f) s = .next s ∧ exec (.collResultTimeout ecb f) s = .next s := by
  show execCollDeadlineExpiry ecb f s = _ ∧ execCollAgreeTimeout ecb f s = _ ∧ execCollResultTimeout ecb f s = _
  unfold execCollDeadlineExpiry execCollAgreeTimeout execCollResultTimeout
  rw [h]
  exact ⟨rfl, rfl, rfl⟩

/-! ### Polling (R326). -/

/-- The tick of a poll has been noted. -/
def State.polled (s : State) : State := { s with coll := { s.coll with polledAt := s.now } }

section
variable {s : State} (h : s.rd Reg.COLL_POLL ≤ (s.now - s.coll.polledAt).toNat) (f : Flips)
include h

theorem exec_poll_idle (hj : s.runningSlot = none) : exec (.collPoll f) s = .next s.polled := by
  show execCollPoll f s = _
  unfold execCollPoll
  rw [if_neg (by omega)]
  dsimp only
  split
  · rfl
  next h' => cases hj.symm.trans h'

/-- The rings of the running context are looked at, where it has any. -/
theorem exec_poll_running {j : Slot} (hj : s.runningSlot = some j) : exec (.collPoll f) s = if j.job.coll = 0 then .next s.polled
    else .next ((List.range j.lcount).foldl (fun s l =>
      let r := s.devRead .coll (j.job.coll + 0x40000 + l * 8) 8 f
      if r.2.1 ≠ 0 then r.2.2.2 else State.pollRing 256 r.2.2.2 l (leNat r.1) f) s.polled) := by
  show execCollPoll f s = _
  unfold execCollPoll
  rw [if_neg (by omega)]
  dsimp only
  split
  next h' => cases hj.symm.trans h'
  next h' =>
    cases hj.symm.trans h'
    rfl

end

/-! ### Heartbeats (R342, R343). -/

/-- The link partner of the half-port has been heard, where the packet is from it. -/
def State.partnerHeard (s : State) (half : Option Nat) (c : Nat) : State :=
  match s.fromPartner half c with
  | some h => s.setHalf h { s.half h with heard := true, miss := 0 }
  | none => s

/-- Watched peer `n` has been heard, where the device at coordinate `c` is that peer. -/
def State.peerHeard (s : State) (c n : Nat) : State :=
  let r := Reg.COLL_PEER n
  if s.rbit r 31 && s.rf r 12 0 == c then
    let s := { s with coll := { s.coll with peers := tset {} s.coll.peers n { heard := true, since := 0 } } }
    if s.rbit r 30 then s.sat Reg.COLL_PEER_HB 1 else s.wf r 15 13 0
  else s

theorem exec_heartbeat {p : Pkt} (ht : p.type = 8) (half : Option Nat) (s : State) : exec (.heartbeat half p) s =
    .next ((List.range 64).foldl (fun u n => u.peerHeard p.scoord n) ((s.take (.pkt half p)).partnerHeard half p.scoord)) :=
  if_neg (not_not.mpr ht)

theorem State.partnerHeard_regs (s : State) (half : Option Nat) (c : Nat) : (s.partnerHeard half c).regs = s.regs := by
  unfold State.partnerHeard
  split <;> rfl

/-- Peer `n` is watched at coordinate `c`, and breached or not as `b` says. -/
structure State.Watches (s : State) (c n : Nat) (b : Bool) : Prop where
  wf : twf 0 s.regs = true
  watched : s.rbit (Reg.COLL_PEER n) 31 = true
  coord : s.rf (Reg.COLL_PEER n) 12 0 = c
  breached : s.rbit (Reg.COLL_PEER n) 30 = b

/-- The peer table shows peer `n` heard in this interval. -/
def State.Heard (s : State) (n : Nat) : Prop := tget {} s.coll.peers n = { heard := true, since := 0 }

theorem State.Watches.of_but {s t : State} {c n : Nat} {b : Bool} {l : List Nat} (w : s.Watches c n b) (h : twf 0 t.regs = true)
    (k : s.RegsBut t l) (hl : Reg.COLL_PEER n ∉ l) : t.Watches c n b :=
  ⟨h, (k.rbit hl 31).trans w.watched, (k.rf hl 12 0).trans w.coord, (k.rbit hl 30).trans w.breached⟩

theorem State.Watches.of_regs {s t : State} {c n : Nat} {b : Bool} (w : s.Watches c n b) (h : t.regs = s.regs) : t.Watches c n b :=
  w.of_but (h ▸ w.wf) (.of_regs h []) (List.not_mem_nil)

/-- The count of intervals of a peer, cleared, is no part of what says whom the table watches. -/
theorem State.Watches.clearCount {s : State} {c n : Nat} {b : Bool} (w : s.Watches c n b) (k : Nat) :
    (s.wf (Reg.COLL_PEER k) 15 13 0).Watches c n b := by
  by_cases hk : n = k
  · subst hk
    refine ⟨State.regs_wf w.wf, ?_, ?_, ?_⟩
    · rw [State.rbit_wf w.wf (by decide) (by decide), if_neg (by decide), w.watched]
    · rw [State.rf_wf_disjoint w.wf (by decide) (by decide) (.inl (by decide)), w.coord]
    · rw [State.rbit_wf w.wf (by decide) (by decide), if_neg (by decide), w.breached]
  · exact w.of_but (State.regs_wf w.wf) (s.wf_but _ _ _ _) (by simp only [List.mem_singleton, Reg.COLL_PEER]; omega)

theorem State.Watches.peerHeard {s : State} {c n : Nat} {b : Bool} (w : s.Watches c n b) (k : Nat) : (s.peerHeard c k).Watches c n b := by
  unfold State.peerHeard
  dsimp only
  split
  · have wm : ({ s with coll := { s.coll with peers := tset {} s.coll.peers k { heard := true, since := 0 } } } : State).Watches c n b :=
      w.of_regs rfl
    split
    · exact wm.of_but (State.regs_sat wm.wf) (State.sat_but _ _ _)
        (by simp only [List.mem_singleton, Reg.COLL_PEER, Reg.COLL_PEER_HB]; omega)
    · exact wm.clearCount k
  · exact w

theorem State.peerHeard_peers (s : State) (c n : Nat) : (s.peerHeard c n).coll.peers =
    if s.rbit (Reg.COLL_PEER n) 31 && s.rf (Reg.COLL_PEER n) 12 0 == c then tset {} s.coll.peers n { heard := true, since := 0 }
    else s.coll.peers := by
  unfold State.peerHeard
  dsimp only
  split
  · split <;> rfl
  · rfl

theorem State.Watches.heard {s : State} {c n : Nat} {b : Bool} (w : s.Watches c n b) : (s.peerHeard c n).Heard n := by
  unfold State.Heard
  rw [State.peerHeard_peers, w.watched, w.coord, if_pos (by simp)]
  exact tget_tset_eq (by decide) _

theorem State.Heard.peerHeard {s : State} {n : Nat} (h : s.Heard n) (c k : Nat) : (s.peerHeard c k).Heard n := by
  unfold State.Heard
  rw [State.peerHeard_peers]
  split
  · by_cases hk : n = k
    · subst hk
      exact tget_tset_eq (by decide) _
    · exact (tget_tset_ne hk _).trans h
  · exact h

/-- A heartbeat that goes through a list of peers marks the one it is from. -/
theorem State.Watches.foldl_peerHeard {c n : Nat} {b : Bool} : ∀ {l : List Nat} {s : State}, s.Watches c n b → n ∈ l ∨ s.Heard n →
    (l.foldl (fun u k => u.peerHeard c k) s).Watches c n b ∧ (l.foldl (fun u k => u.peerHeard c k) s).Heard n
  | [], _, w, hn => ⟨w, hn.resolve_left List.not_mem_nil⟩
  | k :: l, s, w, hn => by
    refine State.Watches.foldl_peerHeard (l := l) (w.peerHeard k) ?_
    rcases hn with hn | hn
    · rcases List.mem_cons.mp hn with rfl | hn
      · exact .inr w.heard
      · exact .inl hn
    · exact .inr (hn.peerHeard c k)

theorem runs_heartbeat {s : State} {p : Pkt} {n : Nat} (ht : p.type = 8) (hn : n < 64) (hw : s.rbit (Reg.COLL_PEER n) 31 = true)
    (hc : s.rf (Reg.COLL_PEER n) 12 0 = p.scoord) (half : Option Nat) :
    Runs (.heartbeat half p) s [.regs, .out, .fab, .coll] (fun t => tget {} t.coll.peers n = { heard := true, since := 0 } ∧
      t.rbit (Reg.COLL_PEER n) 30 = s.rbit (Reg.COLL_PEER n) 30) := by
  have hx := exec_heartbeat ht half s
  refine Runs.of_next hx (((execHeartbeat_keep half p s).keep _ hx).alters _ (by decide)) (fun i => ?_)
  have w : ((s.take (.pkt half p)).partnerHeard half p.scoord).Watches p.scoord n (s.rbit (Reg.COLL_PEER n) 30) :=
    State.Watches.of_regs (s := s) ⟨i.regs, hw, hc, rfl⟩ ((State.partnerHeard_regs ..).trans rfl)
  obtain ⟨w', h'⟩ := w.foldl_peerHeard (.inl (List.mem_range.mpr hn))
  exact ⟨h', w'.breached⟩

theorem exec_interval_due {s : State} (h : s.rd Reg.COLL_HB_INT ≤ (s.now - s.coll.hbAt).toNat) : exec .heartbeatInterval s =
    .next ((List.range 32).foldl State.partnerInterval ((List.range 64).foldl State.peerInterval (s.setHbAt s.now))).sendBeats :=
  if_neg (by omega)

/-! ### Breach notices (R343). -/

/-- Registers a breach of half-port `h` may change. -/
def breachRegs (h : Nat) : List Nat :=
  [Reg.CMD_DEV_STATE, Reg.CMD_DEV_STATE_TS_LO, Reg.CMD_DEV_STATE_TS_LO + 4, Reg.CNET_EVT_LOST, Reg.FAB_DISC 3, Reg.FAB_DISC 5,
   Reg.PORT_ST (h / 2) (h % 2)]

theorem State.setFlags_but (s : State) (spin port chan marg : Bool) : s.RegsBut (s.setFlags spin port chan marg)
    [Reg.CMD_DEV_STATE, Reg.CMD_DEV_STATE_TS_LO, Reg.CMD_DEV_STATE_TS_LO + 4, Reg.CNET_EVT_LOST] := by
  have written (v : Nat) : s.RegsBut (s.wr Reg.CMD_DEV_STATE v)
      [Reg.CMD_DEV_STATE, Reg.CMD_DEV_STATE_TS_LO, Reg.CMD_DEV_STATE_TS_LO + 4, Reg.CNET_EVT_LOST] := (s.wr_but _ v).of_one (by simp)
  obtain ⟨v, h | h⟩ : ∃ v, s.setFlags spin port chan marg = s.wr Reg.CMD_DEV_STATE v ∨
      s.setFlags spin port chan marg = (s.wr Reg.CMD_DEV_STATE v).stampDev s.devState 0 := ⟨_, ite_eq_or_eq _ _ _⟩
  · exact h ▸ written v
  · exact h ▸ (written v).trans ((State.stampDev_but _ _ _).mono (by simp))

theorem State.breachHalf_but (s : State) (h cause peer : Nat) : s.RegsBut (s.breachHalf h cause peer) (breachRegs h) := by
  have ev (u : State) (data : List (Nat × Nat × Nat)) : u.RegsBut (u.event 0x0510 (u.halfUnit h) 2 data) (breachRegs h) :=
    (State.event_but _ _ _ _ _).of_one (by simp [breachRegs])
  have field (u : State) (hi lo v : Nat) : u.RegsBut (u.wf (Reg.PORT_ST (h / 2) (h % 2)) hi lo v) (breachRegs h) :=
    (State.wf_but _ _ _ _ _).of_one (by simp [breachRegs])
  have route (u : State) : u.RegsBut (u.reroute h) (breachRegs h) := (u.reroute_but h).mono (by simp [routeRegs, breachRegs])
  have flags (u : State) : u.RegsBut u.syncDgPort (breachRegs h) := (State.setFlags_but _ _ _ _ _).mono (by simp [breachRegs])
  unfold State.breachHalf
  dsimp only
  split
  · refine .trans ?_ (((field _ 2 0 4).trans (field _ 6 4 0)).trans ((route _).trans (flags _)))
    exact (ev s (if cause ≤ 2 then [(16, 1, cause)] else [(16, 1, cause), (17, 2, peer), (19, 1, 1)])).trans (.of_regs rfl _)
  · exact .refl s _

section
variable {s : State} {half : Option Nat} {p : Pkt} (ht : p.type = 7) (hd : rdLE p.payload 6 2 ≠ s.rf Reg.COLL_DIKE 15 0)
include ht hd

theorem exec_notice_stranger (hf : s.fromPartner half (rdLE p.payload 0 2 % 2 ^ 13) = none) :
    exec (.breachNotice half p) s = .next (s.take (.pkt half p)) := by
  show execBreachNotice half p s = _
  unfold execBreachNotice
  rw [if_neg (not_not.mpr ht)]
  dsimp only
  rw [State.fromPartner_take, hf]
  exact if_pos hd

/-- A notice of another dike by the link partner breaches the half-port, which leaves the dike's number alone. -/
theorem exec_notice_partner {h : Nat} (hf : s.fromPartner half (rdLE p.payload 0 2 % 2 ^ 13) = some h) :
    exec (.breachNotice half p) s = .next ((s.take (.pkt half p)).breachHalf h 3 (rdLE p.payload 0 2 % 2 ^ 13)) := by
  have hk : ((s.take (.pkt half p)).breachHalf h 3 (rdLE p.payload 0 2 % 2 ^ 13)).rf Reg.COLL_DIKE 15 0 = s.rf Reg.COLL_DIKE 15 0 :=
    (State.breachHalf_but _ h 3 _).rf
      (by simp [breachRegs, Reg.COLL_DIKE, Reg.CMD_DEV_STATE, Reg.CMD_DEV_STATE_TS_LO, Reg.CNET_EVT_LOST, Reg.FAB_DISC, Reg.PORT_ST]; omega) _ _
  show execBreachNotice half p s = _
  unfold execBreachNotice
  rw [if_neg (not_not.mpr ht)]
  dsimp only
  rw [State.fromPartner_take, hf]
  exact if_pos (hk ▸ hd)

end

/-! ### Acknowledgements (R319, R320). -/

section
variable {s : State} {p : Pkt} (ht : p.type = 6) (hs : p.sub = 1) (half : Option Nat)
include ht hs

theorem exec_ack_unknown (ho : s.opOf p = none) :
    exec (.fabAck half p) s = .next ((s.take (.pkt half p)).discard 13 p.scoord p.dcoord) := by
  show execFabAck half p s = _
  simp [execFabAck, ht, hs, ho]

variable {o : FabOp} (ho : s.opOf p = some o) (hl : o.left ≤ 1)
include ho hl

/-- The last answer ends the operation. -/
theorem runs_ack_ends (hd : ∀ a b, o.who ≠ .dispatch a b) (hk : o.who ≠ .ckpt) : Runs (.fabAck half p) s [.out, .fab] (fun t =>
    t.fab.ops = s.fab.ops.filter (fun y => decide (y ≠ o)) ∧ t.fab.tracker = s.fab.tracker) := by
  have hx : exec (.fabAck half p) s = .next ((s.take (.pkt half p)).dropOp o) := by
    show execFabAck half p s = _
    unfold execFabAck
    rw [if_neg (by simp [ht, hs])]
    dsimp only
    rw [State.opOf_take, ho]
    dsimp only
    rw [if_pos hl]
    split
    · exact absurd ‹_› (hd _ _)
    · exact absurd ‹_› hk
    · rfl
  exact Runs.of_next hx ((Keep.via (m := 0x3FFFBFFBF) (State.dropOp_keep ..) rfl ((s.take_keep _).mono rfl)).alters _ (by decide))
    (fun _ => ⟨rfl, rfl⟩)

/-- The last answer to an operation of a dispatch is told to its spindle. -/
theorem runs_ack_dispatch {ps n : Nat} (hw : o.who = .dispatch ps n) : Runs (.fabAck half p) s [.out, .spns, .fab] (fun t =>
    t.spn ps = (s.spn ps).opAnswered n ∧ t.fab.ops = s.fab.ops.filter (fun y => decide (y ≠ o))) := by
  have hx : exec (.fabAck half p) s = .next (((s.take (.pkt half p)).dropOp o).modSpn ps (fun x => x.opAnswered n)) := by
    show execFabAck half p s = _
    unfold execFabAck
    rw [if_neg (by simp [ht, hs])]
    dsimp only
    rw [State.opOf_take, ho]
    dsimp only
    rw [if_pos hl, hw]
  exact Runs.of_next hx ((Keep.via (m := 0x3FFFBEFBF) (State.modSpn_keep ..) rfl <| Keep.via (State.dropOp_keep ..) rfl <|
      (s.take_keep _).mono rfl).alters _ (by decide))
    (fun i => ⟨State.spn_modSpn (s := (s.take (.pkt half p)).dropOp o) i.spns _ _, rfl⟩)

end

/-- Settles O32: each command from its rule, by the collective, the peer or the operation it finds. -/
theorem collectivesComplete : Obligations.CollectivesComplete := by
  refine ⟨fun s f h => if_pos h, ?poll, ?failure, ?contribution, fun s c p done f h => if_pos h, ?writes, fun s c h => if_pos h,
    fun s half p f h => ⟨engineRow_none h half 1 f, engineRow_none h half 2 f, engineRow_none h half 3 f⟩, ?limits,
    fun s ecb f h => exec_limits_none h f, fun s => ⟨exec_interval_due, fun h => if_pos h⟩,
    fun s half p n ht hn hw hc => runs_heartbeat ht hn hw hc half, fun s half p ht hf hd => exec_notice_stranger ht hd hf,
    fun s half p h ht hf hd => exec_notice_partner ht hd hf, ?acks, ?others⟩
  case poll =>
    exact fun s f h => ⟨exec_poll_idle h f, fun j hj h0 => (exec_poll_running h f hj).trans (if_pos h0),
      fun j hj h0 => (exec_poll_running h f hj).trans (if_neg h0)⟩
  case failure =>
    intro s c cause rank i he _ hc
    obtain ⟨hn, hlast⟩ := State.rd_collFailed i.regs c rank he hc
    exact ⟨s.collFailed c cause rank, s.failColl_eq c cause rank, s.collAt_collFailed c cause rank, hn, hlast⟩
  case contribution =>
    intro s half p f ht x
    refine ⟨fun c hc => ⟨fun hb => ?_, fun hb => ?_⟩, fun hc hs => runs_contribution_late ht half f hc hs, fun hc hs => ?_⟩
    · refine ⟨exec_contribution_bad ht half f hc ((c.badCheck_contribution ht).trans hb), ?_⟩
      rintro rfl
      exact State.transportBad_own_counts x p c.req.ecb
    · exact exec_contribution_staged ht half f hc ((c.badCheck_contribution ht).trans hb)
    · have hx := exec_contribution_none ht half f hc hs
      exact ⟨fun hw => hx.trans (congrArg _ (State.earlyWrite_bad hw half f)),
        fun hw => hx.trans (congrArg _ (State.earlyWrite_checked hw half f))⟩
  case writes =>
    intro s half p f c off hr ht x bad r good
    have hb : c.badCheck p = true ↔ bad := c.badCheck_write ht
    have row (hb' : bad) : s.engineRow half p off f = .next (x.transportBad half p c.req.ecb) :=
      (engineRow_eq hr ht half f).trans (congrArg _ (if_pos (hb.mpr hb')))
    have row' (hb' : ¬bad) : s.engineRow half p off f = .next good :=
      (engineRow_eq hr ht half f).trans (congrArg _ (if_neg (fun h => hb' (hb.mp h))))
    refine ⟨?_, ?_, ?_⟩ <;> rintro rfl <;> exact ⟨row, row'⟩
  case limits =>
    exact fun s ecb f c hc => ⟨exec_deadline_early hc f, fun r h h0 hd hr => exec_deadline_strict hc f h h0 hd hr,
      exec_deadline_tolerant hc f, fun b d hb hr ha h hd hn => exec_agree_fails hc f hb hr ha h hd hn,
      fun b hb h => exec_agree_early hc f hb h, fun h => (exec_resultTimeout hc f).trans (if_pos h),
      fun h => (exec_resultTimeout hc f).trans (if_neg (by omega))⟩
  case acks =>
    refine fun s half p ht hs => ⟨fun ho i => ?_, fun o ho hd hk hl => runs_ack_ends ht hs half ho hl hd hk,
      fun o ps n ho hw hl => runs_ack_dispatch ht hs half ho hl hw⟩
    exact (runs_discard (exec_ack_unknown ht hs half ho) i).imp (fun _ ⟨h1, h2, _, hs, hc⟩ => ⟨h1, h2, hc, hs.ops⟩)
  case others =>
    exact fun s half p f => ⟨fun h => if_pos h, fun h => if_pos h, fun h => if_pos h, fun h => if_pos (.inl h)⟩

end Sys2Proof.Machine
end

section
/-! SUPPORT. Ageing readings, deferred changes and powered-on time (R364, R400 to R406), each command from its rule. -/

namespace Sys2Proof.Machine

/-! ### Changes that wait (R364, R404). -/

theorem exec_deferredChangeApply_held {s : State} (h : s.tstrictRuns = true) : exec .deferredChangeApply s = .next s := if_pos h

theorem exec_deferredChangeApply {s : State} (h : s.tstrictRuns = false) : exec .deferredChangeApply s = .next s.undefer.applyAge :=
  if_neg (by rw [h]; decide)

/-! ### Readings (R400, R401). -/

/-- The readings of the monitors, then of the oscillators, and what they ask for shown in HLTH_PEND. -/
def State.readAll (s : State) (mons : List (Nat × List (List Int))) (osc : List (Nat × Nat)) : State :=
  (osc.foldl (fun s o => s.readOsc o.1 o.2) (mons.foldl (fun s m => s.readDomain m.1 m.2) s)).syncPend

theorem exec_ageingReading (s : State) (mons : List (Nat × List (List Int))) (osc : List (Nat × Nat)) :
    exec (.ageingReading mons osc) s =
      .next (if (s.readAll mons osc).runCtx = 0 then (s.readAll mons osc).applyAge else s.readAll mons osc) := rfl

theorem State.readDomain_unread {s : State} {d : Nat} (h : d = 10 ∨ d = 11 ∨ 24 ≤ d ∨ (tget {} s.hlth.ages d).baseline = [])
    (mons : List (List Int)) : s.readDomain d mons = s := if_pos h

section
variable {s : State} {r c b : Nat} (hr : r < 64) (hb : tget 0 s.hlth.roBase r = b) (h0 : 0 < b)
include hr hb h0

/-- A count within a quarter of its baseline is shown. -/
theorem State.readOsc_near (h1 : 4 * (c - b) ≤ b) (h2 : 4 * (b - c) ≤ b) : s.readOsc r c = s.wr (Reg.HLTH_RO r) c := by
  subst hb
  exact (if_neg (by omega)).trans (if_neg (by omega))

/-- A count further above its baseline is told as bad. -/
theorem State.readOsc_above (h : b < 4 * (c - b)) : s.readOsc r c = s.event 0x0904 (unitId 10 r) 1 [(16, 1, 2)] := by
  subst hb
  exact (if_neg (by omega)).trans (if_pos (.inl h))

end

theorem hlthRo_ne_evtLost {r : Nat} (hr : r < 64) : Reg.HLTH_RO r ∉ [Reg.CNET_EVT_LOST] := by
  simp only [Reg.HLTH_RO, Reg.CNET_EVT_LOST, List.mem_singleton]
  omega

/-! ### Raises and budgets (R401, R402). -/

/-- The reading after a step-down of the maximum clock is over for domain `d`. -/
def State.refitted (s : State) (d : Nat) : State := { s with hlth := { s.hlth with refit := s.hlth.refit.filter (fun x => x != d) } }

/-- A higher raise that fits waits for its domain. -/
theorem State.wantRaise_fits {s : State} {d v : Nat} (hf : s.hlth.refit.contains d = false) (hv : s.rf (Reg.HLTH_AGE d) 7 0 < v)
    (hb : s.overBudget d v = false) :
    s.wantRaise d v = (s.refitted d).setAge d { tget {} s.hlth.ages d with pend := some v } := by
  have hb' : (s.refitted d).overBudget d v ≠ true := fun e => Bool.noConfusion (hb.symm.trans e)
  unfold State.wantRaise
  simp only [hf, Bool.false_eq_true, if_false, Nat.max_eq_right hv.le]
  exact (if_neg hb').trans (if_neg (by omega))

theorem State.setAge_pend (s : State) (d : Nat) (a : Age) (v : Nat) :
    (tget {} (s.setAge d { a with pend := some v }).hlth.ages d).pend = some v :=
  congrArg Age.pend (tget_tset_eq (v := { a with pend := some v }) (fun e => Option.some_ne_none v (congrArg Age.pend e)) s.hlth.ages)

/-- Above 250 MHz a spent budget asks for a maximum clock 25 MHz lower, and every raise is fitted to it. -/
theorem State.budgetSpent_stepDown {s : State} (h : 250 < s.fmax) (d : Nat) :
    s.budgetSpent d = { s with hlth := { s.hlth with fmaxPend := some (s.fmax - 25, d), refit := List.range 24 } } := if_pos h

/-! ### Powered-on time (R406). -/

/-- The powered-on seconds saved, as of the last whole second. -/
def State.pohSaved (s : State) : State :=
  { s with hlth := { s.hlth with
      pohSaved := BitVec.ofNat 64 s.poh
      pohAt := s.hlth.pohAt + BitVec.ofNat 64 ((s.poh - s.hlth.pohSaved.toNat) * 100000000) } }

theorem exec_pohSave_early {s : State} (h : (s.now - s.hlth.pohAt).toNat < 360000000000) : exec .pohSave s = .next s := if_pos h

theorem exec_pohSave {s : State} (h : 360000000000 ≤ (s.now - s.hlth.pohAt).toNat) : exec .pohSave s = .next s.pohSaved.saveAge :=
  if_neg (Nat.not_lt.mpr h)

/-- Settles O34: each command, and each reading, from its rule. -/
theorem ageingComplete : Obligations.AgeingComplete := by
  refine ⟨fun _ => ⟨exec_deferredChangeApply_held, exec_deferredChangeApply⟩, ?readings, fun _ _ mons h => State.readDomain_unread h mons,
    ?near, ?above, ?raise, fun _ d h => State.budgetSpent_stepDown h d, fun _ => ⟨exec_pohSave_early, exec_pohSave⟩⟩
  case readings =>
    exact fun s mons osc => ⟨fun h => (exec_ageingReading s mons osc).trans (congrArg _ (if_pos h)),
      fun h => (exec_ageingReading s mons osc).trans (congrArg _ (if_neg h))⟩
  case near =>
    intro s r c b i hr hb h0 hc h1 h2
    rw [State.readOsc_near hr hb h0 h1 h2]
    exact ⟨(State.rd_wr_self i.regs _ _).trans (Nat.mod_eq_of_lt hc), s.wr_but _ _, (State.wr_keep ..).alters _ (by decide)⟩
  case above =>
    intro s r c b hr hb h0 h
    rw [State.readOsc_above hr hb h0 h]
    exact (s.event_but _ _ _ _).rd (hlthRo_ne_evtLost hr)
  case raise =>
    intro s d v hf hv hb
    rw [State.wantRaise_fits hf hv hb]
    exact ⟨State.setAge_pend _ _ _ _, rfl⟩

end Sys2Proof.Machine
end

section
/-! SUPPORT. Changes of the open run record of the running context (R365, R366, R370): registers, slots, and none where nothing runs. -/

namespace Sys2Proof.Machine

/-! ### Registers. -/

/-- The registers that show the step, the seed and the open record of the running context (R377). -/
def detRunRegs : List Nat :=
  [Reg.DET_STEP_LO, Reg.DET_STEP_HI, Reg.DET_SEED_LO, Reg.DET_SEED_HI, Reg.DET_RUN_STRETCH, Reg.DET_RUN_FCHG, Reg.DET_RUN_FOREIGN, Reg.DET_REC_ST]

theorem State.wr64_steps_but (s : State) (n seed : Nat) : s.RegsBut ((s.wr64 Reg.DET_STEP_LO n).wr64 Reg.DET_SEED_LO seed) detRunRegs :=
  ((s.wr64_but _ _).mono (by decide)).trans ((State.wr64_but _ _ _).mono (by decide))

theorem State.syncDet_but (s : State) : s.RegsBut s.syncDet detRunRegs := by
  unfold State.syncDet
  split
  · exact s.wr64_steps_but 0 0
  · rename_i j _
    have h := s.wr64_steps_but j.step.toNat j.job.seed.toNat
    dsimp only
    split
    · exact h
    · exact (((h.trans ((State.wr_but _ _ _).of_one (by decide))).trans ((State.wr_but _ _ _).of_one (by decide))).trans
        ((State.wr_but _ _ _).of_one (by decide))).trans ((State.wr_but _ _ _).of_one (by decide))

theorem State.modRun_but (s : State) (f : RunRec → RunRec) : s.RegsBut (s.modRun f) detRunRegs := by
  unfold State.modRun
  split
  · exact (State.RegsBut.of_regs rfl _).trans (State.syncDet_but _)
  · exact State.RegsBut.refl _ _

theorem State.voidTime_but (s : State) (cause : Nat) : s.RegsBut (s.voidTime cause) (detRunRegs ++ [Reg.CNET_EVT_LOST]) := by
  unfold State.voidTime
  split
  · exact State.RegsBut.refl _ _
  · split
    · exact State.RegsBut.refl _ _
    · split
      · have h := s.modRun_but
        dsimp only
        split
        · exact (h _).mono (fun _ => List.mem_append_left _)
        · exact (h _).append (State.event_but _ _ _ _ _)
      · exact State.RegsBut.refl _ _

/-! ### Where nothing runs. -/

theorem State.runningSlot_idle {s : State} (h : s.runCtx = 0) : s.runningSlot = none := if_pos h

theorem State.modRun_idle {s : State} (h : s.runCtx = 0) (f : RunRec → RunRec) : s.modRun f = s := by
  unfold State.modRun
  rw [State.runningSlot_idle h]

theorem State.voidTime_idle {s : State} (h : s.runCtx = 0) (cause : Nat) : s.voidTime cause = s := by
  unfold State.voidTime
  rw [State.runningSlot_idle h]

/-! ### Slots. -/

/-- Every slot that is taken is taken in `t` by the same context, which differs in its open record at most. -/
def State.RunsOnly (s t : State) : Prop := ∀ n j, s.slotOf n = some j → ∃ r, t.slotOf n = some { j with run := r }

theorem State.RunsOnly.of_seqr {s t : State} (h : t.seqr = s.seqr) : s.RunsOnly t := fun n j hj =>
  ⟨j.run, by unfold State.slotOf at hj ⊢; rw [h]; exact hj⟩

theorem State.RunsOnly.trans {s t u : State} (h : s.RunsOnly t) (k : t.RunsOnly u) : s.RunsOnly u := by
  intro n j hj
  obtain ⟨_, ht⟩ := h n j hj
  obtain ⟨r, hu⟩ := k n _ ht
  exact ⟨r, hu⟩

theorem State.slotOf_setSlot_some (s : State) (n : Nat) (j : Slot) : (s.setSlot n (some j)).slotOf n = some j :=
  tget_tset_eq (Option.some_ne_none j) s.seqr.slots

theorem State.slotOf_of_runningSlot {s : State} {j : Slot} (h : s.runningSlot = some j) : s.slotOf s.runSlot = some j := by
  unfold State.runningSlot at h
  split at h
  · cases h
  · exact h

theorem State.runsOnly_setRun {s : State} {n : Nat} {j : Slot} (h : s.slotOf n = some j) (r : Option RunRec) :
    s.RunsOnly (s.setSlot n (some { j with run := r })) := by
  intro m k hk
  by_cases hm : m = n
  · subst hm
    cases h.symm.trans hk
    exact ⟨r, s.slotOf_setSlot_some _ _⟩
  · exact ⟨k.run, (tget_tset_ne hm s.seqr.slots).trans hk⟩

theorem State.modRun_runsOnly (s : State) (f : RunRec → RunRec) : s.RunsOnly (s.modRun f) := by
  unfold State.modRun
  split
  · rename_i j hj
    exact (State.runsOnly_setRun (State.slotOf_of_runningSlot hj) _).trans (.of_seqr ((State.syncDet_keep _).seqr rfl))
  · exact .of_seqr rfl

theorem State.voidTime_runsOnly (s : State) (cause : Nat) : s.RunsOnly (s.voidTime cause) := by
  unfold State.voidTime
  split
  · exact .of_seqr rfl
  · split
    · exact .of_seqr rfl
    · split
      · have h := s.modRun_runsOnly
        dsimp only
        split
        · exact h _
        · exact (h _).trans (.of_seqr ((State.event_keep ..).seqr rfl))
      · exact .of_seqr rfl

theorem State.foreignAccess_runsOnly (s : State) (who : Who) (a : Nat) : s.RunsOnly (s.foreignAccess who a) := by
  unfold State.foreignAccess
  split
  · exact .of_seqr rfl
  · exact .of_seqr rfl
  · exact .of_seqr rfl
  · split
    · exact .of_seqr rfl
    · extract_lets near
      split
      · exact (s.modRun_runsOnly _).trans (State.voidTime_runsOnly _ 3)
      · exact .of_seqr rfl

end Sys2Proof.Machine
end

section
/-! SUPPORT. Alignment, digests of seals and signatures of run records (R362, R367, R373, R374, R377), each command from its rule. -/

namespace Sys2Proof.Machine

/-! ### REALIGNMENT and DET_ALIGN_REALIGN (R362, R377). -/

/-- No realignment is asked for any more. -/
def State.realigned (s : State) : State := { s with clk := { s.clk with realign := false } }

theorem State.realigned_keep (s : State) : Keep 0x3FFEFFFFF s s.realigned := Keep.setClk rfl (Keep.refl _ _)

theorem exec_realignment {s : State} (h : s.clk.realign = true) : exec .realignment s = .next (s.realigned.wf Reg.DET_ALIGN 0 0 1) := if_pos h

theorem exec_realignment_unasked {s : State} (h : s.clk.realign = false) : exec .realignment s = .next s :=
  if_neg (by rw [h]; decide)

theorem runs_realignment {s : State} (h : s.clk.realign = true) :
    Runs .realignment s [.regs, .clk] (fun t => t.clk = { s.clk with realign := false } ∧ t.rbit Reg.DET_ALIGN 0 = true ∧
      s.RegsBut t [Reg.DET_ALIGN]) :=
  Runs.of_next (exec_realignment h) ((Keep.via (m := 0x3FFEFFFFB) (State.wf_keep ..) rfl (s.realigned_keep.mono rfl)).alters _ (by decide))
    (fun i => ⟨rfl, State.rbit_wf (s.realigned_keep.inv i).regs (by decide) (by decide) 0,
      (State.RegsBut.of_regs (s.realigned_keep.regs rfl) _).trans (State.wf_but _ _ _ _ _)⟩)

theorem exec_detAlignRealign (s : State) : exec .detAlignRealign s = .next (s.rowWrite Reg.DET_ALIGN State.askRealign) := rfl

section
variable {s : State} (hd : s.domOn (regDomain Reg.DET_ALIGN) = true)
include hd

theorem runs_detAlignRealign (h : s.runCtx = 0) : Runs .detAlignRealign s [.clk] (fun t => t.clk = { s.clk with realign := true }) := by
  refine Runs.of_next (t := { s with clk := { s.clk with realign := true } }) ?_
    ((Keep.setClk (m := 0x3FFEFFFFF) rfl (Keep.refl _ _)).alters _ (by decide)) (fun _ => rfl)
  rw [exec_detAlignRealign, State.rowWrite_on hd]
  exact congrArg _ (if_pos h)

theorem exec_detAlignRealign_busy (h : s.runCtx ≠ 0) : exec .detAlignRealign s = .next s := by
  rw [exec_detAlignRealign, State.rowWrite_on hd]
  exact congrArg _ (if_neg h)

end

theorem exec_detAlignRealign_off {s : State} (h : s.domOn (regDomain Reg.DET_ALIGN) = false) :
    exec .detAlignRealign s = .next (s.addrError (0x5000000000 + Reg.DET_ALIGN) 3 1 0) := by
  rw [exec_detAlignRealign, State.rowWrite_off h]

/-! ### SEAL_DIGEST_DONE (R367, R374). -/

/-- The slot with the digest `d` of its seal `e` complete. -/
def Slot.digested (j : Slot) (e : SealEnt) (d : List Byte) : Slot :=
  { j with seals := j.seals.map (fun y => if y = e then { e with digest := d, done := true } else y) }

theorem exec_sealDigestDone_free {s : State} {n : Fin 16} (h : s.slotOf n = none) (id : Nat) (f : Flips) :
    exec (.sealDigestDone n id f) s = .next s := by
  show execSealDigestDone n id f s = _
  unfold execSealDigestDone
  rw [h]

section
variable {s : State} {n : Fin 16} {id : Nat} {j : Slot} {e : SealEnt} (hj : s.slotOf n = some j)
  (he : j.seals.find? (fun x => x.id == id && !x.done) = some e) (hr : j.run = none) (hv : j.st ≠ .validating) (f : Flips)
include hj he hr hv

/-- With no record open no seal entry can lack room, and with its load over the digest ends no load. -/
theorem exec_sealDigestDone : exec (.sealDigestDone n id f) s =
    let r := s.devRead .det e.lo (e.hi - e.lo) f
    .next (((r.2.2.2.setSlot n (some (j.digested e (sha384 r.1)))).syncDet).finish (.sealing j.ctx.toNat id) stOK (sha384 r.1)) := by
  show execSealDigestDone n id f s = _
  unfold execSealDigestDone
  rw [hj]
  simp only [he]
  refine (if_neg (fun h => hv h.1)).trans (congrArg Host.Outcome.next (congrArg (State.finish · _ _ _) (if_neg ?_)))
  rw [hr]
  exact Bool.false_ne_true

theorem sealDigestDone_slot : let r := s.devRead .det e.lo (e.hi - e.lo) f
    ∃ t, exec (.sealDigestDone n id f) s = .next t ∧ t.slotOf n = some (j.digested e (sha384 r.1)) ∧ t.mem = r.2.2.2.mem := by
  intro r
  have hk : Keep 0x3CFF9FCBB (r.2.2.2.setSlot n (some (j.digested e (sha384 r.1)))) _ :=
    Keep.via (State.finish_keep _ (.sealing j.ctx.toNat id) stOK (sha384 r.1)) rfl ((State.syncDet_keep _).mono rfl)
  refine ⟨_, exec_sealDigestDone hj he hr hv f, ?_, (hk.mem rfl).trans rfl⟩
  exact (congrArg (fun q : Sequencer => tget none q.slots n) (hk.seqr rfl)).trans (State.slotOf_setSlot_some _ _ _)

end

/-! ### RECORD_SIGNED (R373). -/

theorem State.protEvent_command_seqr (s : State) (p : ProtRgn) (a : Nat) : (s.protEvent p .command a).seqr = s.seqr := by
  unfold State.protEvent
  cases p.kind
  · exact (State.event_keep ..).seqr rfl
  · exact (State.event_keep ..).seqr rfl
  · exact ((State.event_keep ..).seqr rfl).trans ((State.sat_keep ..).seqr rfl)

/-- A write of the command processor faults no context: where it meets a protected region it is only told. -/
theorem State.rawWrite_command_seqr (s : State) (a : Nat) (l : List Byte) (pm : Nat) (f : Flips) :
    (s.rawWrite .command a l pm f).2.2.seqr = s.seqr := by
  unfold State.rawWrite
  split
  · refine (State.protEvent_command_seqr _ _ _).trans ?_
    exact (Keep.ite ((State.fencedEvent_keep ..).mono rfl) (Keep.refl _ _)).seqr (m := 0x2000) rfl
  · extract_lets r un u v w x
    have hu : Keep 0x2000 s u := Keep.via (State.autoRepairs_keep ..) rfl ((State.writeDevWords_keep ..).mono rfl)
    have hv : Keep 0x2000 s v := Keep.foldl (fun _ _ => (State.sat_keep ..).mono rfl) hu
    have hw : Keep 0x2000 s w := Keep.ite (Keep.via (State.addrError_keep ..) rfl hv) hv
    exact (Keep.ite (Keep.via (State.fencedEvent_keep ..) rfl hw) hw).seqr rfl

theorem State.devWrite_command_runsOnly (s : State) (a : Nat) (l : List Byte) (pm : Nat) (f : Flips) :
    s.RunsOnly (s.devWrite .command a l pm f).2.2 :=
  (s.foreignAccess_runsOnly _ a).trans (.of_seqr (State.rawWrite_command_seqr _ a l pm f))

theorem State.signedRec_runsOnly (s : State) (ctx buf : Nat) (e : RecEnt) (b : List Byte) : s.RunsOnly (s.signedRec ctx buf e b) :=
  (s.devWrite_command_runsOnly _ b 0 []).trans (.of_seqr ((State.eventCtx_keep ..).seqr rfl))

/-- The slot with its record `e` signed. -/
def State.signedIn (s : State) (j : Slot) (e : RecEnt) : Slot := { j with recs := signIn j.recs e (e.bytes ++ s.sign e.bytes) }

/-- DET_REC_ST shows no record that waits, once the last one of the slot is signed (R377). -/
def State.showSigned (s : State) (j : Slot) : State :=
  if s.rf Reg.DET_REC_ST 2 0 = 3 ∧ j.recs.countP (fun x => !x.signed) ≤ 1 then s.wf Reg.DET_REC_ST 2 0 0 else s

theorem State.showSigned_seqr (s : State) (j : Slot) : (s.showSigned j).seqr = s.seqr := by
  unfold State.showSigned
  split <;> rfl

section
variable {s : State} {n : Fin 16} (hg : s.goneUnsigned n = none)
include hg

theorem exec_recordSigned_free (h : s.slotOf n = none) : exec (.recordSigned n) s = .next s := by
  show execRecordSigned n s = _
  unfold execRecordSigned
  rw [hg, h]

theorem exec_recordSigned {j : Slot} {e : RecEnt} (hj : s.slotOf n = some j) (he : j.recs.find? (fun x => !x.signed) = some e) :
    exec (.recordSigned n) s = .next (((s.setSlot n (some (s.signedIn j e))).signedRec j.ctx.toNat j.job.recBuf e
      (e.bytes ++ s.sign e.bytes)).showSigned j) := by
  show execRecordSigned n s = _
  unfold execRecordSigned
  rw [hg, hj]
  simp only [he]
  rfl

theorem recordSigned_slot {j : Slot} {e : RecEnt} (hj : s.slotOf n = some j) (he : j.recs.find? (fun x => !x.signed) = some e) :
    ∃ t r, exec (.recordSigned n) s = .next t ∧ t.slotOf n = some { s.signedIn j e with run := r } := by
  obtain ⟨r, hr⟩ := State.signedRec_runsOnly (s.setSlot n (some (s.signedIn j e))) j.ctx.toNat j.job.recBuf e (e.bytes ++ s.sign e.bytes) n _
    (State.slotOf_setSlot_some _ _ _)
  refine ⟨_, r, exec_recordSigned hg hj he, ?_⟩
  unfold State.slotOf at hr ⊢
  rw [State.showSigned_seqr, hr]

end

/-- Settles O25: each command from its rule. -/
theorem recordsAndAlignmentComplete : Obligations.RecordsAndAlignmentComplete := by
  refine ⟨fun s _ h => runs_realignment h, fun s h => exec_realignment_unasked h, fun s hd h => runs_detAlignRealign hd h,
    fun s hd h => exec_detAlignRealign_busy hd h, fun s h => exec_detAlignRealign_off h, ?digests,
    fun s n id f h => exec_sealDigestDone_free h id f, ?signatures, fun s n hg h => exec_recordSigned_free hg h⟩
  case digests =>
    intro s n id f j e _ hj he hr hv r
    obtain ⟨t, ht, hslot, hm⟩ := sealDigestDone_slot hj he hr hv f
    exact ⟨t, _, ht, hslot, rfl, rfl, rfl, hm⟩
  case signatures =>
    intro s n j e _ hg hj he
    obtain ⟨t, r, ht, hslot⟩ := recordSigned_slot hg hj he
    exact ⟨t, _, ht, hslot, rfl, rfl, rfl⟩

end Sys2Proof.Machine
end

section
/-! SUPPORT. What the commands of clock generation share (R456 to R466): the frames of a command and of its event, bits of fields, the
reductions of F, the planned voltages, and the change in progress. -/

namespace Sys2Proof.Machine

/-! ### Commands and their events. -/

/-- A command runs in the areas that its frame leaves. -/
theorem Runs.of_keep {c : Instr} {s t : State} {m : Nat} {l : List Area} {P : State → Prop} (k : KeepR m s (exec c s))
    (hl : (Area.all.all (fun p => l.contains p || m.testBit p.idx)) = true) (e : exec c s = .next t) (hP : s.Inv → P t) : Runs c s l P :=
  Runs.of_next e ((k.keep t e).alters l hl) hP

/-- An event of a state that keeps the tick, the records and the running context of `s` is recorded as of `s`. -/
theorem State.event_recorded_of_keep {s t : State} {m code unit : Nat} {l : List Nat} (k : Keep m s t)
    (hm : (m.testBit 1 && m.testBit 8 && m.testBit 9) = true) (b : s.RegsBut t l) (hl : Reg.SKN_STATUS ∉ l) (sev : Nat)
    (data : List (Nat × Nat × Nat)) (hr : s.EventRoom code unit) : (t.event code unit sev data).Recorded (s.eventRec code unit sev data) := by
  simp only [Bool.and_eq_true] at hm
  obtain ⟨⟨h1, h8⟩, h9⟩ := hm
  exact State.event_recorded_of_same hr (k.now h1) (State.runCtx_of_but b hl) (k.log h8) (k.nodes h9) sev data

/-! ### Bits and counters. -/

/-- A bit of a register is its field of that bit alone. -/
theorem State.rbit_eq_rf (s : State) (a n : Nat) : s.rbit a n = (s.rf a n n).testBit 0 := by
  unfold State.rbit State.rf bitOf
  rw [testBit_bitsOf]
  simp

theorem State.Shows.rbit {s : State} {a b n : Nat} (h : s.Shows a b b n) : s.rbit a b = n.testBit 0 := by
  rw [s.rbit_eq_rf, h.reads]

/-- A counter raised by one, of a state in which it counts as in `s`. -/
theorem State.sat_counts {s t : State} (i : t.Inv) {a : Nat} (h : t.rd a = s.rd a) : (t.sat a 1).rd a = min (s.rd a + 1) 0xFFFFFFFF := by
  rw [State.rd_sat_self i.regs, h]
  rfl

/-! ### Requests of a change (R461, R462). -/

/-- A request changes the requests, and shows itself in CLK_PLAN and CLK_ST. -/
theorem State.askFreq_eq (s : State) (cause : Nat) (isForced : Bool) :
    ∃ c : Clk, s.askFreq cause isForced = ({ s with clk := c } : State).syncClk := by
  unfold State.askFreq
  dsimp only
  split
  · exact ⟨_, rfl⟩
  · split
    · exact ⟨_, rfl⟩
    · exact ⟨_, rfl⟩

/-- Of CLK_ST a request shows itself in PEND alone. -/
theorem State.Shows.syncClk {s : State} {hi lo n : Nat} (h : s.Shows Reg.CLK_ST hi lo n) (hd : hi < 7 ∨ 7 < lo) :
    s.syncClk.Shows Reg.CLK_ST hi lo n :=
  (h.wf_other (by decide) _ _ _).wf_disjoint (by decide) (by decide) hd _

theorem State.Shows.askFreq {s : State} {hi lo n : Nat} (h : s.Shows Reg.CLK_ST hi lo n) (hd : hi < 7 ∨ 7 < lo) (cause : Nat)
    (isForced : Bool) : (s.askFreq cause isForced).Shows Reg.CLK_ST hi lo n := by
  obtain ⟨c, hc⟩ := s.askFreq_eq cause isForced
  rw [hc]
  exact (h.of_regs (Keep.setClk (m := 0x3FFEFFFFF) rfl (Keep.refl _ _)) rfl).syncClk hd

theorem State.Shows.reduce {s : State} {hi lo n : Nat} (h : s.Shows Reg.CLK_ST hi lo n) (hd : hi < 7 ∨ 7 < lo) (hi' lo' k cause : Nat)
    (isForced : Bool) : (s.reduce hi' lo' k cause isForced).Shows Reg.CLK_ST hi lo n :=
  (h.wf_other (by decide) _ _ _).askFreq hd _ _

/-! ### The reductions of F (R459, R464). -/

/-- The limit of F and the steps below it, those the safe clock holds back left out, are the same. -/
structure State.SameSteps (s t : State) : Prop where
  limit : t.fLimit = s.fLimit
  mstep : t.mstep = s.mstep
  therm : t.therm = s.therm
  power : t.powerSteps = s.powerSteps
  droop : t.droop = s.droop

/-- The registers behind the reductions, but for CLK_PLAN, which also shows the limit. -/
def stepRegs : List Nat := [Reg.CLK_REDUCE, Reg.HLTH_FMAX, Reg.RST_SPOL]

section
variable {s t : State}

theorem State.SameSteps.of_but {l : List Nat} (b : s.RegsBut t l) (hl : ∀ a ∈ stepRegs, a ∉ l)
    (hp : t.rf Reg.CLK_PLAN 9 0 = s.rf Reg.CLK_PLAN 9 0) : s.SameSteps t := by
  have hr : Reg.CLK_REDUCE ∉ l := hl _ (by decide)
  have hf : t.fmax = s.fmax := b.rf (hl _ (by decide)) _ _
  exact ⟨congrArg₂ min hp hf, b.rf (hl _ (by decide)) _ _, b.rf hr _ _, b.rf hr _ _, b.rf hr _ _⟩

theorem State.SameSteps.safeSteps (h : s.SameSteps t) : t.safeSteps = s.safeSteps := by
  unfold State.safeSteps
  rw [h.limit, h.mstep, h.therm, h.power, h.droop]

theorem State.SameSteps.effF (h : s.SameSteps t) (hr : t.rbit Reg.CLK_REDUCE 20 = s.rbit Reg.CLK_REDUCE 20)
    (ht : t.rf Reg.PWR_THROT 2 0 = s.rf Reg.PWR_THROT 2 0) (hm : t.clk.missing = s.clk.missing) : t.effF = s.effF := by
  unfold State.effF
  rw [h.limit, h.mstep, h.therm, h.power, h.droop, hr, ht, hm]

theorem State.effF_safe (h : s.rbit Reg.CLK_REDUCE 20 = true) : s.effF = 250 := by
  unfold State.effF
  rw [if_pos (by rw [h]; rfl)]

end

/-! ### Planned voltages (R465, R466). -/

section
variable {s t : State} {d f : Nat}

/-- A frame that names no register from those of resets to those of ageing leaves the planned voltages as they are. -/
theorem State.planMv_of_but {l : List Nat} (b : s.RegsBut t l) (hl : ∀ a ∈ l, a < 0x200000 ∨ 0x501000 ≤ a) (hd : d < 24)
    (hv : t.hlth = s.hlth) : t.planMv d f = s.planMv d f := by
  have ha : Reg.HLTH_AGE d ∉ l := fun h => by
    have := hl _ h
    simp only [Reg.HLTH_AGE] at this
    omega
  have hm : Reg.RST_MARGIN d ∉ l := fun h => by
    have := hl _ h
    simp only [Reg.RST_MARGIN] at this
    omega
  unfold State.planMv State.vf
  rw [b.rf ha, b.rf hm, hv]

/-- The regulator of domain `d` takes the plan for clock `f`. -/
def State.planDom (s : State) (f d : Nat) : State := s.wf (Reg.PWR_DOM_V d) 31 16 (s.planMv d f)

theorem State.planDom_keep (s : State) (f d : Nat) : Keep 0x3FFFFFFFB s (s.planDom f d) := State.wf_keep ..

theorem State.planMv_planDom (s : State) {d x : Nat} (f g : Nat) (hd : d < 24) (hx : x < 24) : (s.planDom f x).planMv d g = s.planMv d g := by
  refine State.planMv_of_but (s.wf_but _ _ _ _) (fun a ha => .inl ?_) hd rfl
  rw [List.mem_singleton.mp ha]
  simp only [Reg.PWR_DOM_V]
  omega

theorem foldl_planDom_but (s : State) (f : Nat) (l : List Nat) : s.RegsBut (l.foldl (fun s d => s.planDom f d) s) (l.map Reg.PWR_DOM_V) :=
  State.RegsBut.foldl (fun u _ hk => (u.wf_but _ _ _ _).of_one (List.mem_map_of_mem hk)) (State.RegsBut.refl _ _)

theorem foldl_planDom_volts (f : Nat) {l : List Nat} {d : Nat} (hl : ∀ x ∈ l, x < 24) (hd : d ∈ l) {s : State} (i : s.Inv) :
    (l.foldl (fun s d => s.planDom f d) s).rf (Reg.PWR_DOM_V d) 31 16 = s.planMv d f % 2 ^ 16 := by
  induction l generalizing s with
  | nil => cases hd
  | cons x r ih =>
    rw [List.foldl_cons]
    by_cases hr : d ∈ r
    · rw [ih (fun y hy => hl y (List.mem_cons_of_mem _ hy)) hr ((s.planDom_keep f x).inv i),
        s.planMv_planDom f f (hl d hd) (hl x List.mem_cons_self)]
    · obtain rfl : d = x := (List.mem_cons.mp hd).resolve_right hr
      have hn : Reg.PWR_DOM_V d ∉ r.map Reg.PWR_DOM_V := by
        intro hm
        obtain ⟨y, hy, e⟩ := List.mem_map.mp hm
        simp only [Reg.PWR_DOM_V] at e
        exact hr (by rwa [show d = y by omega])
      rw [(foldl_planDom_but _ f r).rf hn]
      exact State.rf_wf_self i.regs (by decide) (by decide)

theorem State.syncPlan_volts (i : s.Inv) (f : Nat) (hd : d < 24) : (s.syncPlan f).rf (Reg.PWR_DOM_V d) 31 16 = s.planMv d f % 2 ^ 16 :=
  foldl_planDom_volts f (fun _ hx => List.mem_range.mp hx) (List.mem_range.mpr hd) i

end

/-! ### The change in progress (R460). -/

/-- The change of F in progress set. -/
def State.setChange (s : State) (o : Option FreqChange) : State := { s with clk := { s.clk with change := o } }

theorem State.setChange_keep (s : State) (o : Option FreqChange) : Keep 0x3FFEFFFFF s (s.setChange o) := Keep.setClk rfl (Keep.refl _ _)

theorem State.setChange_but (s : State) (o : Option FreqChange) (l : List Nat) : s.RegsBut (s.setChange o) l := State.RegsBut.of_regs rfl l

end Sys2Proof.Machine
end

section
/-! SUPPORT. The references (R456 to R458), each command from its rule. -/

namespace Sys2Proof.Machine

/-! ### REFCLK_LOST (R457). -/

/-- Holdover selected, the loss counted, and the safe clock asked for. -/
def State.refLost (s : State) : State := (((s.wf Reg.CLK_ST 3 2 1).wf Reg.CLK_ST 0 0 0).sat Reg.CLK_REFLOSS_CNT 1).reduce 20 20 1 7 true

theorem exec_refclkLost {s : State} (h : s.rf Reg.CLK_ST 3 2 = 0) (kind : Fin 4) :
    exec (.refclkLost kind) s = .next (s.refLost.event 0x0103 devUnit 2 [(16, 1, kind)]) := if_pos h

theorem exec_refclkLost_again {s : State} (h : s.rf Reg.CLK_ST 3 2 ≠ 0) (kind : Fin 4) : exec (.refclkLost kind) s = .next s := if_neg h

theorem State.refLost_keep (s : State) : Keep 0x3FFEFFFFB s s.refLost :=
  Keep.via (State.reduce_keep ..) rfl <| Keep.via (State.sat_keep ..) rfl <| Keep.via (State.wf_keep ..) rfl <| (State.wf_keep ..).mono rfl

theorem State.refLost_but (s : State) :
    s.RegsBut s.refLost ([Reg.CLK_ST, Reg.CLK_REFLOSS_CNT] ++ [Reg.CLK_REDUCE, Reg.CLK_PLAN, Reg.CLK_ST]) :=
  ((((s.wf_but _ _ _ _).of_one (by decide)).trans ((State.wf_but _ _ _ _ _).of_one (by decide))).trans
    ((State.sat_but _ _ _).of_one (by decide))).append (State.reduce_but _ _ _ _ _ _)

theorem State.refLost_shows {s : State} (i : s.Inv) :
    s.refLost.Shows Reg.CLK_ST 3 2 1 ∧ s.refLost.Shows Reg.CLK_ST 0 0 0 ∧ s.refLost.Shows Reg.CLK_REDUCE 20 20 1 := by
  have i1 : (s.wf Reg.CLK_ST 3 2 1).Inv := (State.wf_keep ..).inv i
  have i2 : ((s.wf Reg.CLK_ST 3 2 1).wf Reg.CLK_ST 0 0 0).Inv := (State.wf_keep ..).inv i1
  have h1 := (i.shows_wf Reg.CLK_ST (hi := 3) (lo := 2) (v := 1) (by decide) (by decide) (by decide)).wf_disjoint (hi' := 0) (lo' := 0)
    (by decide) (by decide) (by decide) 0
  have h2 := i1.shows_wf Reg.CLK_ST (hi := 0) (lo := 0) (v := 0) (by decide) (by decide) (by decide)
  exact ⟨(h1.of_but (State.sat_keep ..) (State.sat_but _ _ _) (by decide)).reduce (by decide) _ _ _ _ _,
    (h2.of_but (State.sat_keep ..) (State.sat_but _ _ _) (by decide)).reduce (by decide) _ _ _ _ _,
    s.refLost_keep.inv i, State.reduce_shows ((State.sat_keep ..).inv i2) (by decide) (by decide) (by decide) 7 true⟩

theorem State.refLost_count {s : State} (i : s.Inv) : s.refLost.rd Reg.CLK_REFLOSS_CNT = min (s.rd Reg.CLK_REFLOSS_CNT + 1) 0xFFFFFFFF := by
  have hb := (s.wf_but Reg.CLK_ST 3 2 1).trans (State.wf_but _ Reg.CLK_ST 0 0 0)
  refine ((State.reduce_but _ _ _ _ _ _).rd (by decide)).trans (State.sat_counts ?_ (hb.rd (by decide)))
  exact (State.wf_keep ..).inv ((State.wf_keep ..).inv i)

theorem runs_refclkLost {s : State} (h : s.rf Reg.CLK_ST 3 2 = 0) (kind : Fin 4) :
    Runs (.refclkLost kind) s [.regs, .log, .nodes, .irq, .clk, .logN] (fun t => t.rf Reg.CLK_ST 3 2 = 1 ∧ t.rbit Reg.CLK_ST 0 = false ∧
      t.rbit Reg.CLK_REDUCE 20 = true ∧ t.rd Reg.CLK_REFLOSS_CNT = min (s.rd Reg.CLK_REFLOSS_CNT + 1) 0xFFFFFFFF ∧
      t.clk.reqs = { cause := 7, isForced := true } :: s.clk.reqs ∧ t.effF = 250 ∧
      (s.EventRoom 0x0103 devUnit → t.Recorded (s.eventRec 0x0103 devUnit 2 [(16, 1, kind)]))) := by
  refine Runs.of_keep (execRefclkLost_keep kind s) (by decide) (exec_refclkLost h kind) (fun i => ?_)
  obtain ⟨hsel, hpres, hsafe⟩ := State.refLost_shows i
  have hred := (hsafe.event (by decide) 0x0103 devUnit 2 [(16, 1, kind)]).rbit
  exact ⟨(hsel.event (by decide) _ _ _ _).reads, (hpres.event (by decide) _ _ _ _).rbit, hred,
    ((State.event_but _ _ _ _ _).rd (by decide)).trans (State.refLost_count i), congrArg Clk.reqs ((State.event_keep ..).clk rfl),
    State.effF_safe hred, State.event_recorded_of_keep s.refLost_keep rfl s.refLost_but (by decide) _ _⟩

/-! ### REFCLK_RESTORED (R457). -/

/-- ALERT_N as it stood for the loss of both references is taken back. -/
def State.alertRestored (s : State) : State :=
  if s.rf Reg.CLK_ST 3 2 = 2 then { s with pwr := { s.pwr with alert := decide (s.devState = stHalted) } } else s

/-- The reference selected, and the safe clock left. -/
def State.refSelected (s : State) : State := ((s.wf Reg.CLK_ST 3 2 0).wf Reg.CLK_ST 0 0 1).wf Reg.CLK_REDUCE 20 20 0

/-- The steps that the safe clock still holds back counted from now. -/
def State.safeLeft (s : State) : State := { s with clk := { s.clk with missing := s.safeSteps, stepAt := s.now } }

/-- The reference is used again. -/
def State.refBack (s : State) : State := s.alertRestored.refSelected.safeLeft.syncClk

theorem exec_refclkRestored_present {s : State} (h : s.rf Reg.CLK_ST 3 2 = 0) : exec .refclkRestored s = .next (s.wf Reg.CLK_ST 0 0 1) := if_pos h

theorem exec_refclkRestored {s : State} (h : s.rf Reg.CLK_ST 3 2 ≠ 0) :
    exec .refclkRestored s = .next (s.refBack.event 0x0104 devUnit 1 []) := if_neg h

theorem runs_refclkRestored_present {s : State} (h : s.rf Reg.CLK_ST 3 2 = 0) :
    Runs .refclkRestored s [.regs] (fun t => t.rbit Reg.CLK_ST 0 = true ∧ s.RegsBut t [Reg.CLK_ST]) :=
  Runs.of_next (exec_refclkRestored_present h) ((State.wf_keep ..).alters _ (by decide))
    (fun i => ⟨State.rbit_wf i.regs (by decide) (by decide) 0, s.wf_but _ _ _ _⟩)

theorem State.alertRestored_keep (s : State) : Keep 0x3FFDFFFFF s s.alertRestored :=
  Keep.ite (Keep.setPwr rfl (Keep.refl _ _)) (Keep.refl _ _)

theorem State.alertRestored_but (s : State) (l : List Nat) : s.RegsBut s.alertRestored l := State.RegsBut.of_regs (s.alertRestored_keep.regs rfl) l

theorem State.refSelected_keep (s : State) : Keep 0x3FFFFFFFB s s.refSelected :=
  Keep.via (State.wf_keep ..) rfl <| Keep.via (State.wf_keep ..) rfl <| State.wf_keep ..

theorem State.refSelected_but (s : State) : s.RegsBut s.refSelected [Reg.CLK_ST, Reg.CLK_REDUCE] :=
  (((s.wf_but _ _ _ _).of_one (by decide)).trans ((State.wf_but _ _ _ _ _).of_one (by decide))).trans
    ((State.wf_but _ _ _ _ _).of_one (by decide))

theorem State.refSelected_shows {s : State} (i : s.Inv) :
    s.refSelected.Shows Reg.CLK_ST 3 2 0 ∧ s.refSelected.Shows Reg.CLK_ST 0 0 1 ∧ s.refSelected.Shows Reg.CLK_REDUCE 20 20 0 := by
  have i1 : (s.wf Reg.CLK_ST 3 2 0).Inv := (State.wf_keep ..).inv i
  have h1 := (i.shows_wf Reg.CLK_ST (hi := 3) (lo := 2) (v := 0) (by decide) (by decide) (by decide)).wf_disjoint (hi' := 0) (lo' := 0)
    (by decide) (by decide) (by decide) 1
  have h2 := i1.shows_wf Reg.CLK_ST (hi := 0) (lo := 0) (v := 1) (by decide) (by decide) (by decide)
  exact ⟨h1.wf_other (by decide) _ _ _, h2.wf_other (by decide) _ _ _,
    ((State.wf_keep ..).inv i1).shows_wf Reg.CLK_REDUCE (by decide) (by decide) (by decide)⟩

/-- Selecting the reference changes no reduction of F. -/
theorem State.refSelected_sameSteps {s : State} (i : s.Inv) : s.SameSteps s.refSelected := by
  have b := (s.wf_but Reg.CLK_ST 3 2 0).trans (State.wf_but _ Reg.CLK_ST 0 0 1)
  have j : ((s.wf Reg.CLK_ST 3 2 0).wf Reg.CLK_ST 0 0 1).Inv := (State.wf_keep ..).inv ((State.wf_keep ..).inv i)
  have hlimit : s.refSelected.fLimit = s.fLimit :=
    congrArg₂ min (s.refSelected_but.rf (by decide) _ _) (s.refSelected_but.rf (by decide) _ _)
  have hred {hi lo : Nat} (hh : hi < 20) : s.refSelected.rf Reg.CLK_REDUCE hi lo = s.rf Reg.CLK_REDUCE hi lo :=
    (State.rf_wf_disjoint j.regs (by decide) (by decide) (.inl hh)).trans (b.rf (by decide) _ _)
  exact ⟨hlimit, s.refSelected_but.rf (by decide) _ _, hred (by decide), hred (by decide), hred (by decide)⟩

theorem State.safeLeft_keep (s : State) : Keep 0x3FFEFFFFF s s.safeLeft := Keep.setClk rfl (Keep.refl _ _)

theorem State.refBack_keep (s : State) : Keep 0x3FFCFFFFB s s.refBack :=
  Keep.via (State.syncClk_keep ..) rfl <| Keep.via (State.safeLeft_keep ..) rfl <| Keep.via (State.refSelected_keep ..) rfl <|
    s.alertRestored_keep.mono rfl

theorem State.refBack_but (s : State) : s.RegsBut s.refBack ([Reg.CLK_ST, Reg.CLK_REDUCE] ++ [Reg.CLK_PLAN, Reg.CLK_ST]) :=
  ((s.alertRestored_but _).trans (State.refSelected_but _)).append
    ((State.RegsBut.of_regs ((State.safeLeft_keep _).regs rfl) _).trans (State.syncClk_but _))

theorem State.refBack_shows {s : State} (i : s.Inv) :
    s.refBack.Shows Reg.CLK_ST 3 2 0 ∧ s.refBack.Shows Reg.CLK_ST 0 0 1 ∧ s.refBack.Shows Reg.CLK_REDUCE 20 20 0 := by
  obtain ⟨hsel, hpres, hred⟩ := State.refSelected_shows (s.alertRestored_keep.inv i)
  have hk := s.alertRestored.refSelected.safeLeft_keep
  exact ⟨(hsel.of_regs hk rfl).syncClk (by decide), (hpres.of_regs hk rfl).syncClk (by decide),
    (hred.of_regs hk rfl).of_but (State.syncClk_keep _) (State.syncClk_but _) (by decide)⟩

theorem State.refBack_clk {s : State} (i : s.Inv) : s.refBack.clk = { s.clk with missing := s.safeSteps, stepAt := s.now } := by
  have hs : s.alertRestored.refSelected.safeSteps = s.safeSteps :=
    (State.refSelected_sameSteps (s.alertRestored_keep.inv i)).safeSteps.trans
      (State.SameSteps.of_but (s.alertRestored_but []) (by decide) ((s.alertRestored_but []).rf (by decide) _ _)).safeSteps
  have hk : Keep 0x3FFDFFFFB s s.alertRestored.refSelected := Keep.via (State.refSelected_keep _) rfl (s.alertRestored_keep.mono rfl)
  refine ((State.syncClk_keep _).clk rfl).trans ?_
  unfold State.safeLeft
  rw [hs, hk.clk rfl, hk.now rfl]

theorem State.refBack_pwr {s : State} (h : s.rf Reg.CLK_ST 3 2 = 1) : s.refBack.pwr = s.pwr := by
  have ha : s.alertRestored = s := if_neg (by omega)
  unfold State.refBack
  rw [ha]
  rfl

theorem runs_refclkRestored {s : State} (h : s.rf Reg.CLK_ST 3 2 ≠ 0) :
    Runs .refclkRestored s [.regs, .log, .nodes, .irq, .clk, .pwr, .logN] (fun t => t.rf Reg.CLK_ST 3 2 = 0 ∧
      t.rbit Reg.CLK_ST 0 = true ∧ t.rbit Reg.CLK_REDUCE 20 = false ∧ t.clk = { s.clk with missing := s.safeSteps, stepAt := s.now } ∧
      (s.rf Reg.CLK_ST 3 2 = 1 → t.pwr = s.pwr) ∧ (s.EventRoom 0x0104 devUnit → t.Recorded (s.eventRec 0x0104 devUnit 1 []))) := by
  refine Runs.of_keep (execRefclkRestored_keep s) (by decide) (exec_refclkRestored h) (fun i => ?_)
  obtain ⟨hsel, hpres, hred⟩ := State.refBack_shows i
  exact ⟨(hsel.event (by decide) _ _ _ _).reads, (hpres.event (by decide) _ _ _ _).rbit, (hred.event (by decide) _ _ _ _).rbit,
    ((State.event_keep ..).clk rfl).trans (State.refBack_clk i), fun h1 => ((State.event_keep ..).pwr rfl).trans (State.refBack_pwr h1),
    State.event_recorded_of_keep s.refBack_keep rfl s.refBack_but (by decide) _ _⟩

/-! ### REF_BOTH_LOST (R458). -/

/-- Neither reference nor holdover is present. -/
def State.refsGone (s : State) : State := ((s.wf Reg.CLK_ST 3 2 2).wf Reg.CLK_ST 0 0 0).wf Reg.CLK_ST 1 1 0

/-- The safe clock asked for, unless it is in use. -/
def State.safeClock (s : State) : State := if s.rbit Reg.CLK_REDUCE 20 then s else s.reduce 20 20 1 7 true

theorem exec_refBothLost_again {s : State} (h : s.rf Reg.CLK_ST 3 2 = 2) : exec .refBothLost s = .next s := if_pos h

theorem exec_refBothLost {s : State} (h : s.rf Reg.CLK_ST 3 2 ≠ 2) :
    exec .refBothLost s = .next ((s.refsGone.safeClock.event 0x0105 devUnit 3 [(16, 1, s.rf Reg.CLK_ST 3 2)]).alertOn) := if_neg h

theorem State.refsGone_keep (s : State) : Keep 0x3FFFFFFFB s s.refsGone :=
  Keep.via (State.wf_keep ..) rfl <| Keep.via (State.wf_keep ..) rfl <| State.wf_keep ..

theorem State.refsGone_but (s : State) : s.RegsBut s.refsGone [Reg.CLK_ST] :=
  ((s.wf_but _ _ _ _).trans (State.wf_but _ _ _ _ _)).trans (State.wf_but _ _ _ _ _)

theorem State.refsGone_shows {s : State} (i : s.Inv) :
    s.refsGone.Shows Reg.CLK_ST 3 2 2 ∧ s.refsGone.Shows Reg.CLK_ST 0 0 0 ∧ s.refsGone.Shows Reg.CLK_ST 1 1 0 := by
  have i1 : (s.wf Reg.CLK_ST 3 2 2).Inv := (State.wf_keep ..).inv i
  have h1 := (i.shows_wf Reg.CLK_ST (hi := 3) (lo := 2) (v := 2) (by decide) (by decide) (by decide)).wf_disjoint (hi' := 0) (lo' := 0)
    (by decide) (by decide) (by decide) 0
  have h2 := i1.shows_wf Reg.CLK_ST (hi := 0) (lo := 0) (v := 0) (by decide) (by decide) (by decide)
  exact ⟨h1.wf_disjoint (by decide) (by decide) (by decide) _, h2.wf_disjoint (by decide) (by decide) (by decide) _,
    ((State.wf_keep ..).inv i1).shows_wf Reg.CLK_ST (by decide) (by decide) (by decide)⟩

theorem State.safeClock_keep (s : State) : Keep 0x3FFEFFFFB s s.safeClock := Keep.ite (Keep.refl _ _) (State.reduce_keep ..)

theorem State.safeClock_but (s : State) : s.RegsBut s.safeClock [Reg.CLK_REDUCE, Reg.CLK_PLAN, Reg.CLK_ST] := by
  unfold State.safeClock
  split
  · exact State.RegsBut.refl _ _
  · exact State.reduce_but _ _ _ _ _ _

theorem State.Shows.safeClock {s : State} {hi lo n : Nat} (h : s.Shows Reg.CLK_ST hi lo n) (hd : hi < 7 ∨ 7 < lo) :
    s.safeClock.Shows Reg.CLK_ST hi lo n := by
  unfold State.safeClock
  split
  · exact h
  · exact h.reduce hd _ _ _ _ _

theorem State.safeClock_safe {s : State} (i : s.Inv) : s.safeClock.rbit Reg.CLK_REDUCE 20 = true := by
  unfold State.safeClock
  split
  · assumption
  · have h : (s.reduce 20 20 1 7 true).Shows Reg.CLK_REDUCE 20 20 1 :=
      ⟨(State.reduce_keep ..).inv i, State.reduce_shows i (by decide) (by decide) (by decide) 7 true⟩
    exact h.rbit

theorem State.alertOn_pwr (s : State) : s.alertOn.pwr = { s.pwr with alert := true } := rfl

theorem runs_refBothLost {s : State} (h : s.rf Reg.CLK_ST 3 2 ≠ 2) :
    Runs .refBothLost s [.regs, .log, .nodes, .irq, .clk, .pwr, .logN] (fun t => t.rf Reg.CLK_ST 3 2 = 2 ∧ t.rbit Reg.CLK_ST 0 = false ∧
      t.rbit Reg.CLK_ST 1 = false ∧ t.rbit Reg.CLK_REDUCE 20 = true ∧ t.pwr = { s.pwr with alert := true } ∧
      (s.EventRoom 0x0105 devUnit → t.Recorded (s.eventRec 0x0105 devUnit 3 [(16, 1, s.rf Reg.CLK_ST 3 2)]))) := by
  have hk : Keep 0x3FFEFFFFB s s.refsGone.safeClock := Keep.via (State.safeClock_keep _) rfl (s.refsGone_keep.mono rfl)
  have hb := s.refsGone_but.append s.refsGone.safeClock_but
  refine Runs.of_keep (execRefBothLost_keep s) (by decide) (exec_refBothLost h) (fun i => ?_)
  obtain ⟨hst, href, hhold⟩ := State.refsGone_shows i
  have told {hi lo n : Nat} (hs : s.refsGone.Shows Reg.CLK_ST hi lo n) (hh : hi < 7) :
      (s.refsGone.safeClock.event 0x0105 devUnit 3 [(16, 1, s.rf Reg.CLK_ST 3 2)]).alertOn.Shows Reg.CLK_ST hi lo n :=
    ((hs.safeClock (.inl hh)).event (by decide) _ _ _ _).of_regs (State.alertOn_keep _) rfl
  refine ⟨(told hst (by decide)).reads, (told href (by decide)).rbit, (told hhold (by decide)).rbit, ?_, ?_, fun hr => ?_⟩
  · rw [State.rbit_congr ((State.alertOn_keep _).regs rfl), (State.event_but _ _ _ _ _).rbit (by decide)]
    exact State.safeClock_safe (s.refsGone_keep.inv i)
  · rw [State.alertOn_pwr, (State.event_keep ..).pwr rfl, hk.pwr rfl]
  · exact (State.event_recorded_of_keep hk rfl hb (by decide) _ _ hr).keep (State.alertOn_keep _) rfl

/-! ### HOLDOVER_LOST (R456). -/

theorem exec_holdoverLost_unused {s : State} (h : s.rf Reg.CLK_ST 3 2 ≠ 0) : exec .holdoverLost s = .next s := if_neg h

theorem runs_holdoverLost {s : State} (h : s.rf Reg.CLK_ST 3 2 = 0) :
    Runs .holdoverLost s [.regs] (fun t => t.rbit Reg.CLK_ST 1 = false ∧ s.RegsBut t [Reg.CLK_ST]) :=
  Runs.of_next (t := s.wf Reg.CLK_ST 1 1 0) (if_pos h) ((State.wf_keep ..).alters _ (by decide))
    (fun i => ⟨State.rbit_wf i.regs (by decide) (by decide) 1, s.wf_but _ _ _ _⟩)

end Sys2Proof.Machine
end

section
/-! SUPPORT. Changes of the A-clock (R460 to R462), each command from its rule. -/

namespace Sys2Proof.Machine

/-! ### FREQ_CHANGE_REQUEST (R460 steps 1 and 2). -/

theorem exec_freqChangeRequest_busy {s : State} (h : s.clk.change ≠ none) : exec .freqChangeRequest s = .next s := by
  show execFreqChangeRequest s = _
  unfold execFreqChangeRequest
  split
  · exact absurd ‹_› h
  · rfl

theorem exec_freqChangeRequest_none {s : State} (h : s.clk.reqs = []) : exec .freqChangeRequest s = .next s := by
  show execFreqChangeRequest s = _
  unfold execFreqChangeRequest
  rw [h]
  split
  · exact absurd ‹_› (List.cons_ne_nil _ _).symm
  · rfl

/-- The requests left and the change begun for the oldest. -/
def State.changeAsked (s : State) (r : FreqReq) (rest : List FreqReq) : State :=
  { s with clk := { s.clk with reqs := rest, change := some { step := 1, old := s.aMhz, new := s.effF, target := 0, req := r, start := s.now } } }

/-- A change begun: where F rises the voltages are planned first. -/
def State.changeBegun (s : State) (r : FreqReq) (rest : List FreqReq) : State :=
  if s.aMhz < s.effF then (s.changeAsked r rest).syncClk.syncPlan s.effF else (s.changeAsked r rest).syncClk

section
variable {s : State} {r : FreqReq} {rest : List FreqReq} (hc : s.clk.change = none) (hr : s.clk.reqs = r :: rest)
include hc hr

theorem exec_freqChangeRequest_stays (hf : s.effF = s.aMhz) : exec .freqChangeRequest s =
    .next ((({ s with clk := { s.clk with reqs := rest } } : State).syncPlan s.aMhz).syncClk.freqDone 0) := by
  show execFreqChangeRequest s = _
  unfold execFreqChangeRequest
  rw [hc, hr]
  exact if_pos hf

theorem exec_freqChangeRequest (hf : s.effF ≠ s.aMhz) : exec .freqChangeRequest s = .next (s.changeBegun r rest) := by
  show execFreqChangeRequest s = _
  unfold execFreqChangeRequest
  rw [hc, hr]
  exact if_neg hf

end

section
variable (s : State) (r : FreqReq) (rest : List FreqReq)

theorem State.changeAsked_keep : Keep 0x3FFEFFFFF s (s.changeAsked r rest) := Keep.setClk rfl (Keep.refl _ _)

theorem State.changeBegun_keep : Keep 0x3FFFFFFFB (s.changeAsked r rest) (s.changeBegun r rest) :=
  Keep.ite (Keep.via (State.syncPlan_keep ..) rfl (State.syncClk_keep _)) (State.syncClk_keep _)

theorem State.changeBegun_aMhz {s : State} (i : s.Inv) : (s.changeBegun r rest).aMhz = s.aMhz := by
  have h : (s.changeAsked r rest).syncClk.Shows Reg.CLK_ST 25 16 s.aMhz :=
    State.Shows.syncClk ⟨(s.changeAsked_keep r rest).inv i, rfl⟩ (by decide)
  unfold State.changeBegun
  split
  · exact (h.of_but (State.syncPlan_keep ..) (State.syncPlan_but _ _) (by decide)).reads
  · exact h.reads

/-- A rise plans the voltages of the new clock. -/
theorem State.changeBegun_volts {s : State} (i : s.Inv) (h : s.aMhz < s.effF) {d : Nat} (hd : d < 24) :
    (s.changeBegun r rest).rf (Reg.PWR_DOM_V d) 31 16 = s.planMv d s.effF % 2 ^ 16 := by
  have hb : s.RegsBut (s.changeAsked r rest).syncClk [Reg.CLK_PLAN, Reg.CLK_ST] :=
    (State.RegsBut.of_regs rfl _).trans (State.syncClk_but _)
  unfold State.changeBegun
  rw [if_pos h, State.syncPlan_volts ((State.syncClk_keep _).inv ((s.changeAsked_keep r rest).inv i)) _ hd]
  exact congrArg (· % 2 ^ 16) (State.planMv_of_but hb (by decide) hd rfl)

end

theorem runs_freqChangeRequest {s : State} {r : FreqReq} {rest : List FreqReq} (hc : s.clk.change = none) (hr : s.clk.reqs = r :: rest)
    (hf : s.effF ≠ s.aMhz) : Runs .freqChangeRequest s [.regs, .clk] (fun t =>
      t.clk = { s.clk with reqs := rest, change := some { step := 1, old := s.aMhz, new := s.effF, target := 0, req := r, start := s.now } } ∧
      (s.aMhz < s.effF → ∀ d, d < 24 → t.rf (Reg.PWR_DOM_V d) 31 16 = s.planMv d s.effF % 2 ^ 16) ∧ t.aMhz = s.aMhz) :=
  Runs.of_next (exec_freqChangeRequest hc hr hf)
    ((Keep.via (m := 0x3FFEFFFFB) (s.changeBegun_keep r rest) rfl ((s.changeAsked_keep r rest).mono rfl)).alters _ (by decide))
    (fun i => ⟨(s.changeBegun_keep r rest).clk rfl, fun h _ hd => State.changeBegun_volts r rest i h hd, State.changeBegun_aMhz r rest i⟩)

/-! ### FREQ_CHANGE_BROADCAST (R460 step 3, R461). -/

/-- The A-tick that a change is set for. -/
def State.switchTick (s : State) (c : FreqChange) : Nat := s.rd64 Reg.CLK_ATICK_LO + (if c.req.isForced then 64 else 256)

/-- The change set for A-tick `T`. -/
def FreqChange.timed (c : FreqChange) (T : Nat) : FreqChange := { c with step := 3, target := BitVec.ofNat 64 T }

theorem FreqChange.timed_msg (c : FreqChange) {T : Nat} (h : T < 2 ^ 64) :
    (c.timed T).msg = { cls := 0, dst := 63, src := 34, words := [2 ^ 40 + c.new * 2 ^ 30, T] } := by
  unfold FreqChange.msg FreqChange.timed
  rw [BitVec.toNat_ofNat, Nat.mod_eq_of_lt h]

/-- The change set for A-tick `T`, and what its broadcast met on its way. -/
def State.changeTimed (s : State) (c : FreqChange) (T : Nat) (w : CtlWay) : State := (s.setChange (some (c.timed T))).ctlWay 0 w

/-- The broadcast sent, its latency counted. -/
def State.broadcast (y : State) (c : FreqChange) (T : Nat) : State :=
  ((y.free.2.maxField Reg.CNET_STAT 7 0 (y.free.1 % 25)).wr64 Reg.CLK_FTGT_LO T).send (.ctl (c.timed T).msg)

section
variable {s : State} {c : FreqChange} (hc : s.clk.change = some c) (w : CtlWay)
include hc

theorem exec_freqChangeBroadcast_not (h : c.step ≠ 1) : exec (.freqChangeBroadcast w) s = .next s := by
  show execFreqChangeBroadcast s w = _
  unfold execFreqChangeBroadcast
  rw [hc]
  exact if_neg h

variable (h1 : c.step = 1)
include h1

theorem exec_freqChangeBroadcast :
    exec (.freqChangeBroadcast w) s = .next ((s.changeTimed c (s.switchTick c) w).broadcast c (s.switchTick c)) := by
  show execFreqChangeBroadcast s w = _
  unfold execFreqChangeBroadcast
  rw [hc]
  exact if_pos h1

/-- A broadcast that every node hears. -/
theorem runs_freqChangeBroadcast (hT : s.switchTick c < 2 ^ 64) (hw : w.bad = none) :
    Runs (.freqChangeBroadcast w) s [.regs, .freeN, .out, .clk] (fun t =>
      t.clk = { s.clk with change := some (c.timed (s.switchTick c)) } ∧ t.rd64 Reg.CLK_FTGT_LO = s.switchTick c ∧
        t.out = s.out ++ [.ctl (c.timed (s.switchTick c)).msg]) := by
  generalize ht : s.switchTick c = T at hT
  have hy : Keep 0x3FFEFFFFB s (s.changeTimed c T w) := Keep.via (State.ctlWay_heard_keep _ 0 hw) rfl ((s.setChange_keep _).mono rfl)
  have hm : Keep 0x3FFFFFFEB (s.changeTimed c T w) _ := Keep.via (State.maxField_keep _ Reg.CNET_STAT 7 0 ((s.changeTimed c T w).free.1 % 25)) rfl
    ((State.free_keep _).mono rfl)
  refine Runs.of_next (ht ▸ exec_freqChangeBroadcast hc w h1) ?_ (fun i => ⟨?_, ?_, ?_⟩)
  · exact (Keep.via (m := 0x3FFEFFFAB) (State.send_keep ..) rfl <| Keep.via (State.wr64_keep ..) rfl <| Keep.via hm rfl <|
      hy.mono rfl).alters _ (by decide)
  · exact (State.ctlWay_heard_keep _ 0 hw).clk rfl
  · exact (State.rd64_wr64_self (hm.inv (hy.inv i)).regs _ T).trans (Nat.mod_eq_of_lt hT)
  · exact congrArg (· ++ _) (hy.out rfl)

end

/-! ### FREQ_SWITCH (R460 steps 4 to 6). -/

/-- The broadcast has been heard: the other PLL, at the new frequency, is in use, and no switch is set any more. -/
def State.pllSwitched (s : State) (c : FreqChange) : State :=
  let x := s.take (.ctl c.msg)
  ((x.wf Reg.CLK_ST 25 16 c.new).wf Reg.CLK_ST 6 6 (1 - x.rf Reg.CLK_ST 6 6)).wr64 Reg.CLK_FTGT_LO 0

/-- The switch counted, its loss of alignment, and its event. -/
def State.switchTold (s : State) (c : FreqChange) : State :=
  ((s.syncClk.sat Reg.CLK_FCHG_CNT 1).loseAlign 2).event 0x0101 devUnit 1 [(16, 2, c.old), (18, 2, c.new), (20, 1, c.req.cause)]

/-- The switch counted in the open record of the running context, whose time class it voids. -/
def State.switchNoted (s : State) : State := (s.modRun (fun r => { r with fchg := min (r.fchg + 1) 0xFFFFFFFF })).voidTime 2

/-- The switch made, and the change in progress then. -/
def State.fSwitched (s : State) (c : FreqChange) (o : Option FreqChange) : State := (s.pllSwitched c).setChange o

/-- Where F falls, the change goes on until the voltages have settled. -/
def FreqChange.settling (c : FreqChange) (now : DWord) : FreqChange := { c with step := 5, start := now }

section
variable {s : State} {c : FreqChange} (hc : s.clk.change = some c)
include hc

theorem exec_freqSwitch_not (h : c.step ≠ 3 ∨ s.rd64 Reg.CLK_ATICK_LO < c.target.toNat) : exec .freqSwitch s = .next s := by
  show execFreqSwitch s = _
  unfold execFreqSwitch
  rw [hc]
  exact if_neg (fun e => h.elim (· e.1) (Nat.not_lt.mpr e.2))

variable (h3 : c.step = 3) (ht : c.target.toNat ≤ s.rd64 Reg.CLK_ATICK_LO)
include h3 ht

theorem exec_freqSwitch_falls (hn : c.new < c.old) : exec .freqSwitch s =
    .next (((s.fSwitched c (some (c.settling s.now))).syncPlan c.new).switchTold c).switchNoted := by
  show execFreqSwitch s = _
  unfold execFreqSwitch
  rw [hc]
  refine (if_pos ⟨h3, ht⟩).trans ?_
  rw [decide_eq_true hn]
  rfl

theorem exec_freqSwitch_rises (hn : c.old ≤ c.new) :
    let x := ((s.fSwitched c none).switchTold c).switchNoted
    exec .freqSwitch s = .next (if x.freqSettles c.req then x.freqDone 0 else x) := by
  show execFreqSwitch s = _
  unfold execFreqSwitch
  rw [hc]
  refine (if_pos ⟨h3, ht⟩).trans ?_
  rw [decide_eq_false (Nat.not_lt.mpr hn)]
  rfl

end

section
variable (s : State) (c : FreqChange) (o : Option FreqChange)

theorem State.pllSwitched_keep : Keep 0x3FFFFFFBB s (s.pllSwitched c) :=
  Keep.via (State.wr64_keep ..) rfl <| Keep.via (State.wf_keep ..) rfl <| Keep.via (State.wf_keep ..) rfl <| (State.take_keep ..).mono rfl

theorem State.pllSwitched_but : s.RegsBut (s.pllSwitched c) [Reg.CLK_ST, Reg.CLK_FTGT_LO, Reg.CLK_FTGT_HI] :=
  (State.RegsBut.of_regs rfl _).trans (((((s.take (.ctl c.msg)).wf_but _ _ _ _).of_one (by decide)).trans
    ((State.wf_but _ _ _ _ _).of_one (by decide))).trans ((State.wr64_but _ _ _).mono (by decide)))

theorem State.fSwitched_keep : Keep 0x3FFEFFFBB s (s.fSwitched c o) :=
  Keep.via (State.setChange_keep ..) rfl ((s.pllSwitched_keep c).mono rfl)

theorem State.fSwitched_but : s.RegsBut (s.fSwitched c o) [Reg.CLK_ST, Reg.CLK_FTGT_LO, Reg.CLK_FTGT_HI] :=
  (s.pllSwitched_but c).trans (State.setChange_but _ _ _)

theorem State.setChange_clk : (s.setChange o).clk = { s.clk with change := o } := rfl

theorem State.fSwitched_clk : (s.fSwitched c o).clk = { s.clk with change := o } := by
  unfold State.fSwitched
  rw [State.setChange_clk, (s.pllSwitched_keep c).clk rfl]

theorem State.fSwitched_out : (s.fSwitched c o).out = s.out.erase (.ctl c.msg) := rfl

theorem State.fSwitched_effF : (s.fSwitched c o).effF = s.effF := by
  have b := s.fSwitched_but c o
  exact (State.SameSteps.of_but b (by decide) (b.rf (by decide) _ _)).effF (b.rbit (by decide) _) (b.rf (by decide) _ _)
    (by rw [s.fSwitched_clk c o])

theorem State.switchTold_keep : Keep 0x3EFFDFCFB s (s.switchTold c) :=
  Keep.via (State.event_keep ..) rfl <| Keep.via (State.loseAlign_keep ..) rfl <| Keep.via (State.sat_keep ..) rfl <|
    (State.syncClk_keep _).mono rfl

theorem State.loseAlign_but (cause : Nat) : s.RegsBut (s.loseAlign cause) [Reg.DET_ALIGN] := (s.wf_but _ _ _ _).trans (State.wf_but _ _ _ _ _)

/-- The registers that a switch is told in. -/
def switchRegs : List Nat := [Reg.CLK_PLAN, Reg.CLK_ST, Reg.CLK_FCHG_CNT, Reg.DET_ALIGN, Reg.CNET_EVT_LOST]

theorem State.switchTold_but : s.RegsBut (s.switchTold c) switchRegs :=
  (((s.syncClk_but.mono (by decide)).trans ((State.sat_but _ _ _).of_one (by decide))).trans
    ((State.loseAlign_but _ 2).of_one (by decide))).trans ((State.event_but _ _ _ _ _).of_one (by decide))

end

section
variable {s : State} (i : s.Inv)
include i

theorem State.loseAlign_shows {cause : Nat} (h : cause < 16) :
    (s.loseAlign cause).Shows Reg.DET_ALIGN 0 0 0 ∧ (s.loseAlign cause).Shows Reg.DET_ALIGN 7 4 cause :=
  ⟨(i.shows_wf Reg.DET_ALIGN (hi := 0) (lo := 0) (v := 0) (by decide) (by decide) (by decide)).wf_disjoint (by decide) (by decide) (by decide) _,
    ((State.wf_keep ..).inv i).shows_wf Reg.DET_ALIGN (by decide) (by decide) h⟩

theorem State.fSwitched_shows (c : FreqChange) (o : Option FreqChange) (h : c.new < 1024) : (s.fSwitched c o).Shows Reg.CLK_ST 25 16 c.new :=
  ((((State.take_keep s (.ctl c.msg)).inv i).shows_wf Reg.CLK_ST (by decide) (by decide) h).wf_disjoint (by decide) (by decide) (by decide) _
    |>.of_but (State.wr64_keep ..) (State.wr64_but _ _ _) (by decide)).of_regs (State.setChange_keep _ o) rfl

theorem State.fSwitched_target (c : FreqChange) (o : Option FreqChange) : (s.fSwitched c o).rd64 Reg.CLK_FTGT_LO = 0 := by
  have h : (s.pllSwitched c).rd64 Reg.CLK_FTGT_LO = 0 := State.rd64_wr64_self (State.regs_wf (State.regs_wf i.regs)) _ 0
  exact ((State.setChange_but _ o []).rd64 (by simp) (by simp)).trans h

theorem State.switchTold_count (c : FreqChange) : (s.switchTold c).rd Reg.CLK_FCHG_CNT = min (s.rd Reg.CLK_FCHG_CNT + 1) 0xFFFFFFFF :=
  ((State.event_but _ _ _ _ _).rd (by decide)).trans (((State.loseAlign_but _ 2).rd (by decide)).trans
    (State.sat_counts ((State.syncClk_keep _).inv i) (s.syncClk_but.rd (by decide))))

theorem State.switchTold_align (c : FreqChange) : (s.switchTold c).rbit Reg.DET_ALIGN 0 = false ∧ (s.switchTold c).rf Reg.DET_ALIGN 7 4 = 2 := by
  obtain ⟨h0, h1⟩ := State.loseAlign_shows (cause := 2) ((State.sat_keep s.syncClk Reg.CLK_FCHG_CNT 1).inv ((State.syncClk_keep _).inv i)) (by decide)
  exact ⟨(h0.event (by decide) _ _ _ _).rbit, (h1.event (by decide) _ _ _ _).reads⟩

theorem State.syncClk_plan : s.syncClk.rf Reg.CLK_PLAN 9 0 = s.rf Reg.CLK_PLAN 9 0 :=
  ((State.wf_but _ _ _ _ _).rf (by decide) _ _).trans (State.rf_wf_disjoint i.regs (by decide) (by decide) (by decide))

theorem State.switchTold_effF (c : FreqChange) : (s.switchTold c).effF = s.effF := by
  have hp : (s.switchTold c).rf Reg.CLK_PLAN 9 0 = s.rf Reg.CLK_PLAN 9 0 :=
    ((State.event_but _ _ _ _ _).rf (by decide) _ _).trans (((State.loseAlign_but _ 2).rf (by decide) _ _).trans
      (((State.sat_but _ _ _).rf (by decide) _ _).trans (State.syncClk_plan i)))
  have hb := s.switchTold_but c
  exact (State.SameSteps.of_but hb (by decide) hp).effF (hb.rbit (by decide) _) (hb.rf (by decide) _ _)
    (congrArg Clk.missing ((s.switchTold_keep c).clk rfl))

end

theorem State.Shows.switchTold {s : State} {hi lo n : Nat} (h : s.Shows Reg.CLK_ST hi lo n) (hd : hi < 7 ∨ 7 < lo) (c : FreqChange) :
    (s.switchTold c).Shows Reg.CLK_ST hi lo n :=
  (((h.syncClk hd).of_but (State.sat_keep ..) (State.sat_but _ _ _) (by decide)).of_but (State.loseAlign_keep ..) (State.loseAlign_but _ 2)
    (by decide)).event (by decide) _ _ _ _

/-- Where no context runs no record notes a switch. -/
theorem State.switchNoted_told {s : State} {c : FreqChange} (h : s.runCtx = 0) : (s.switchTold c).switchNoted = s.switchTold c := by
  have hi : (s.switchTold c).runCtx = 0 := (State.runCtx_of_but (s.switchTold_but c) (by decide)).trans h
  unfold State.switchNoted
  rw [State.modRun_idle hi, State.voidTime_idle hi]

theorem pwrDomV_not_switchRegs {d : Nat} (hd : d < 24) : Reg.PWR_DOM_V d ∉ switchRegs := by
  simp [switchRegs, Reg.PWR_DOM_V, Reg.CLK_PLAN, Reg.CLK_ST, Reg.CLK_FCHG_CNT, Reg.DET_ALIGN, Reg.CNET_EVT_LOST]
  omega

/-- The event of a switch, told of a state that keeps the tick, the records and the running context of `s`. -/
theorem State.switchTold_recorded {s t : State} {l : List Nat} (k : Keep 0x3FFEFFFBB s t) (b : s.RegsBut t l) (hl : Reg.SKN_STATUS ∉ l)
    (c : FreqChange) (hr : s.EventRoom 0x0101 devUnit) :
    (t.switchTold c).Recorded (s.eventRec 0x0101 devUnit 1 [(16, 2, c.old), (18, 2, c.new), (20, 1, c.req.cause)]) := by
  have hk : Keep 0x3FFEFFFBB s ((t.syncClk.sat Reg.CLK_FCHG_CNT 1).loseAlign 2) :=
    Keep.via (State.loseAlign_keep ..) rfl <| Keep.via (State.sat_keep ..) rfl <| Keep.via (State.syncClk_keep _) rfl k
  have hb := ((b.append t.syncClk_but).append (State.sat_but _ Reg.CLK_FCHG_CNT 1)).append (State.loseAlign_but _ 2)
  exact State.event_recorded_of_keep hk rfl hb (by simpa using ⟨hl, by decide⟩) _ _ hr

section
variable {s : State} {c : FreqChange} (hc : s.clk.change = some c) (h3 : c.step = 3) (ht : c.target.toNat ≤ s.rd64 Reg.CLK_ATICK_LO)
  (hr : s.runCtx = 0)
include hc h3 ht hr

/-- A fall of F: the switch, then the lower voltages. -/
theorem runs_freqSwitch_falls (hn : c.new < c.old) (ho : c.old < 1024) :
    Runs .freqSwitch s [.regs, .out, .log, .nodes, .irq, .clk, .logN] (fun t => t.aMhz = c.new ∧
      t.clk = { s.clk with change := some { c with step := 5, start := s.now } } ∧ t.out = s.out.erase (.ctl c.msg) ∧
      t.rd64 Reg.CLK_FTGT_LO = 0 ∧ t.rd Reg.CLK_FCHG_CNT = min (s.rd Reg.CLK_FCHG_CNT + 1) 0xFFFFFFFF ∧ t.rbit Reg.DET_ALIGN 0 = false ∧
      t.rf Reg.DET_ALIGN 7 4 = 2 ∧ (∀ d, d < 24 → t.rf (Reg.PWR_DOM_V d) 31 16 = s.planMv d c.new % 2 ^ 16) ∧
      (s.EventRoom 0x0101 devUnit → t.Recorded (s.eventRec 0x0101 devUnit 1 [(16, 2, c.old), (18, 2, c.new), (20, 1, c.req.cause)]))) := by
  have ky := s.fSwitched_keep c (some (c.settling s.now))
  have hb := s.fSwitched_but c (some (c.settling s.now))
  have hclk := s.fSwitched_clk c (some (c.settling s.now))
  have hx := exec_freqSwitch_falls hc h3 ht hn
  generalize hy : s.fSwitched c (some (c.settling s.now)) = y at ky hb hclk hx
  have kz : Keep 0x3FFEFFFBB s (y.syncPlan c.new) := Keep.via (State.syncPlan_keep ..) rfl (ky.mono rfl)
  have bz := hb.append (y.syncPlan_but c.new)
  rw [State.switchNoted_told ((State.runCtx_of_but bz (by decide)).trans hr)] at hx
  have kt := (y.syncPlan c.new).switchTold_keep c
  refine Runs.of_next hx ((Keep.via (m := 0x3EFEDFCBB) kt rfl (kz.mono rfl)).alters _ (by decide))
    (fun i => ⟨?_, ?_, ?_, ?_, ?_, ?_, ?_, fun d hd => ?_, State.switchTold_recorded kz bz (by decide) c⟩)
  · have h : y.Shows Reg.CLK_ST 25 16 c.new := hy ▸ State.fSwitched_shows i c _ (hn.trans ho)
    exact ((h.of_but (State.syncPlan_keep ..) (State.syncPlan_but _ c.new) (by decide)).switchTold (by decide) c).reads
  · rw [kt.clk rfl, (State.syncPlan_keep ..).clk rfl, hclk]
    rfl
  · rw [kt.out rfl, (State.syncPlan_keep ..).out rfl, ← hy, State.fSwitched_out]
  · rw [((y.syncPlan c.new).switchTold_but c).rd64 (by decide) (by decide), (y.syncPlan_but c.new).rd64 (by decide) (by decide), ← hy]
    exact State.fSwitched_target i c _
  · rw [State.switchTold_count (kz.inv i), bz.rd (by decide)]
  · exact (State.switchTold_align (kz.inv i) c).1
  · exact (State.switchTold_align (kz.inv i) c).2
  · rw [((y.syncPlan c.new).switchTold_but c).rf (pwrDomV_not_switchRegs hd), State.syncPlan_volts (ky.inv i) c.new hd,
      State.planMv_of_but hb (by decide) hd (ky.hlth rfl)]

/-- A rise of F: the switch ends the change, and answers the command that waits for F to have its value. -/
theorem freqSwitch_rises (hn : c.old ≤ c.new) (hm : c.new < 1024) (i : s.Inv) :
    ∃ x : State, exec .freqSwitch s = .next (if c.req.cause = 1 ∨ c.req.cause = 3 ∨ s.effF = c.new then x.freqDone 0 else x) ∧
      x.aMhz = c.new ∧ x.clk = { s.clk with change := none } ∧ x.rd64 Reg.CLK_FTGT_LO = 0 := by
  have ky := s.fSwitched_keep c none
  have ha : ((s.fSwitched c none).switchTold c).aMhz = c.new := ((State.fSwitched_shows i c none hm).switchTold (by decide) c).reads
  have he : ((s.fSwitched c none).switchTold c).effF = s.effF := (State.switchTold_effF (ky.inv i) c).trans (s.fSwitched_effF c none)
  have hs : ((s.fSwitched c none).switchTold c).freqSettles c.req = true ↔ c.req.cause = 1 ∨ c.req.cause = 3 ∨ s.effF = c.new := by
    unfold State.freqSettles
    rw [ha, he]
    simp [or_assoc]
  have hx := exec_freqSwitch_rises hc h3 ht hn
  rw [State.switchNoted_told ((State.runCtx_of_but (s.fSwitched_but c none) (by decide)).trans hr)] at hx
  refine ⟨(s.fSwitched c none).switchTold c, hx.trans (congrArg _ (if_congr hs rfl rfl)), ha, ?_, ?_⟩
  · rw [(State.switchTold_keep _ c).clk rfl, s.fSwitched_clk]
  · rw [(State.switchTold_but _ c).rd64 (by decide) (by decide)]
    exact State.fSwitched_target i c none

end

/-! ### FREQ_VOLTAGE_SETTLED and PLL_LOCK_TIMEOUT (R460). -/

section
variable {s : State} {c : FreqChange} (hc : s.clk.change = some c)
include hc

theorem exec_freqVoltageSettled_not (h : c.step ≠ 5) : exec .freqVoltageSettled s = .next s := by
  show execFreqVoltageSettled s = _
  unfold execFreqVoltageSettled
  rw [hc]
  exact if_neg h

theorem exec_freqVoltageSettled (h : c.step = 5) :
    let x := (s.setChange none).syncClk
    exec .freqVoltageSettled s = .next (if x.freqSettles c.req then x.freqDone 0 else x) := by
  show execFreqVoltageSettled s = _
  unfold execFreqVoltageSettled
  rw [hc]
  exact if_pos h

theorem exec_pllLockTimeout_not (h : c.step ≠ 1 ∨ (s.now - c.start).toNat < 20000) : exec .pllLockTimeout s = .next s := by
  show execPllLockTimeout s = _
  unfold execPllLockTimeout
  rw [hc]
  exact if_neg (fun e => h.elim (· e.1) (Nat.not_lt.mpr e.2))

/-- The change is given up, the voltages planned for the old clock. -/
theorem exec_pllLockTimeout (h1 : c.step = 1) (ht : 20000 ≤ (s.now - c.start).toNat) :
    let x := (((s.setChange none).syncPlan c.old).syncClk).event 0x0108 devUnit 2 [(16, 2, c.new)]
    exec .pllLockTimeout s = .next (if c.req.cause = 1 ∨ c.req.cause = 3 ∨ s.clk.reqs = [] then x.freqDone stHW_FAULT else x) := by
  intro x
  have hclk : x.clk = (s.setChange none).clk :=
    ((State.event_keep ..).clk rfl).trans (((State.syncClk_keep _).clk rfl).trans ((State.syncPlan_keep ..).clk rfl))
  have hreqs : x.clk.reqs = s.clk.reqs := by rw [hclk]; rfl
  rw [← hreqs]
  show execPllLockTimeout s = _
  unfold execPllLockTimeout
  rw [hc]
  exact if_pos ⟨h1, ht⟩

end

/-- Where no change is in progress, what goes on with one does nothing. -/
theorem exec_change_none {s : State} (h : s.clk.change = none) (w : CtlWay) :
    exec (.freqChangeBroadcast w) s = .next s ∧ exec .freqSwitch s = .next s ∧ exec .freqVoltageSettled s = .next s ∧
      exec .pllLockTimeout s = .next s := by
  refine ⟨?_, ?_, ?_, ?_⟩
  · show execFreqChangeBroadcast s w = _
    unfold execFreqChangeBroadcast
    rw [h]
  · show execFreqSwitch s = _
    unfold execFreqSwitch
    rw [h]
  · show execFreqVoltageSettled s = _
    unfold execFreqVoltageSettled
    rw [h]
  · show execPllLockTimeout s = _
    unfold execPllLockTimeout
    rw [h]

end Sys2Proof.Machine
end

section
/-! SUPPORT. Droop, stretched periods and the safe clock (R463, R464), and the commands of clock generation together, each from its rule. -/

namespace Sys2Proof.Machine

/-! ### STRETCH_WINDOW_END (R463). -/

/-- The window of stretches set. -/
def State.setWindow (s : State) (o : Option (DWord × Nat × Nat)) : State := { s with clk := { s.clk with window := o } }

theorem State.setWindow_keep (s : State) (o : Option (DWord × Nat × Nat)) : Keep 0x3FFEFFFFF s (s.setWindow o) := Keep.setClk rfl (Keep.refl _ _)

theorem State.setWindow_but (s : State) (o : Option (DWord × Nat × Nat)) (l : List Nat) : s.RegsBut (s.setWindow o) l := State.RegsBut.of_regs rfl l

section
variable {s : State}

theorem State.closeStretch_none (h : s.clk.window = none) : s.closeStretch = s := by
  unfold State.closeStretch
  rw [h]

variable {a : DWord} {n g : Nat} (h : s.clk.window = some (a, n, g))
include h

theorem State.closeStretch_open (ht : (s.now - a).toNat < 100000000) : s.closeStretch = s := by
  unfold State.closeStretch
  rw [h]
  exact if_neg (Nat.not_le.mpr ht)

theorem State.closeStretch_over (ht : 100000000 ≤ (s.now - a).toNat) :
    s.closeStretch = (s.setWindow none).event 0x0102 devUnit 1 [(16, 4, n), (20, 1, g)] := by
  unfold State.closeStretch
  rw [h]
  exact if_pos ht

end

/-- The window of stretches stays open, or closes with its event. -/
theorem State.closeStretch_cases (s : State) :
    s.closeStretch = s ∨ ∃ data, s.closeStretch = (s.setWindow none).event 0x0102 devUnit 1 data := by
  cases hw : s.clk.window with
  | none => exact .inl (State.closeStretch_none hw)
  | some w =>
    obtain ⟨a, n, g⟩ := w
    by_cases ht : 100000000 ≤ (s.now - a).toNat
    · exact .inr ⟨_, State.closeStretch_over hw ht⟩
    · exact .inl (State.closeStretch_open hw (Nat.not_le.mp ht))

theorem State.closeStretch_but (s : State) : s.RegsBut s.closeStretch [Reg.CNET_EVT_LOST] := by
  obtain h | ⟨data, h⟩ := s.closeStretch_cases
  · rw [h]
    exact State.RegsBut.refl _ _
  · rw [h]
    exact (s.setWindow_but none _).trans (State.event_but _ _ _ _ _)

/-- Closing the window changes nothing else of clock generation. -/
theorem State.closeStretch_clk (s : State) : ∃ o, s.closeStretch.clk = { s.clk with window := o } := by
  obtain h | ⟨data, h⟩ := s.closeStretch_cases
  · exact ⟨s.clk.window, by rw [h]⟩
  · exact ⟨none, by rw [h, (State.event_keep ..).clk rfl]; rfl⟩

theorem exec_stretchWindowEnd (s : State) : exec .stretchWindowEnd s = .next s.closeStretch := rfl

theorem runs_stretchWindowEnd {s : State} {a : DWord} {n g : Nat} (h : s.clk.window = some (a, n, g)) (ht : 100000000 ≤ (s.now - a).toNat) :
    Runs .stretchWindowEnd s [.regs, .log, .nodes, .irq, .clk, .logN] (fun t => t.clk = { s.clk with window := none } ∧
      (s.EventRoom 0x0102 devUnit → t.Recorded (s.eventRec 0x0102 devUnit 1 [(16, 4, n), (20, 1, g)]))) := by
  refine Runs.of_keep (execStretchWindowEnd_keep s) (by decide) (exec_stretchWindowEnd s) (fun _ => ?_)
  rw [State.closeStretch_over h ht]
  exact ⟨(State.event_keep ..).clk rfl,
    State.event_recorded_of_keep (s.setWindow_keep none) rfl (s.setWindow_but none []) (by decide) _ _⟩

/-! ### DROOP_DETECT (R463, R464). -/

/-- The period a detection stretches: the next one not yet stretched, from two A-ticks on. -/
def State.nextPeriod (s : State) : Nat := max (s.rd64 Reg.CLK_ATICK_LO + 2) (s.clk.lastPeriod.toNat + 1)

/-- The window of stretches with one more of region `g`, opened where none is open. -/
def State.windowWith (s : State) (g : Nat) : DWord × Nat × Nat :=
  match s.clk.window with
  | some (t, n, g) => (t, n + 1, g)
  | none => (s.now, 1, g)

/-- A period stretched for a droop in region `g`. -/
def State.stretch (s : State) (g : Nat) : State :=
  { s with clk := { s.clk with lastPeriod := BitVec.ofNat 64 s.nextPeriod, stretched := s.clk.stretched ++ [s.nextPeriod]
                               window := some (s.windowWith g), droopAt := s.now, lastStretch := s.now } }

/-- A stretch counted, of the device and of its region, and its loss of alignment. -/
def State.stretchTold (s : State) (g : Nat) : State := ((s.sat Reg.CLK_STRETCH_CNT 1).sat (Reg.CLK_DROOP g) 1).loseAlign 1

/-- A stretch counted in the open record of the running context, whose time class it voids. -/
def State.stretchNoted (s : State) : State :=
  (s.modRun (fun x => { x with stretch := min (x.stretch + 1) 0xFFFFFFFF })).voidTime 1

theorem exec_droopDetect (g : Fin 30) (s : State) :
    exec (.droopDetect g) s = .next ((s.closeStretch.stretch g).stretchTold g).stretchNoted.droopCount := rfl

theorem State.stretch_keep (s : State) (g : Nat) : Keep 0x3FFEFFFFF s (s.stretch g) := Keep.setClk rfl (Keep.refl _ _)

theorem State.stretch_but (s : State) (g : Nat) (l : List Nat) : s.RegsBut (s.stretch g) l := State.RegsBut.of_regs rfl l

theorem State.stretch_clk (s : State) (g : Nat) : (s.stretch g).clk =
    { s.clk with lastPeriod := BitVec.ofNat 64 s.nextPeriod, stretched := s.clk.stretched ++ [s.nextPeriod]
                 window := some (s.windowWith g), droopAt := s.now, lastStretch := s.now } := rfl

theorem State.closeStretch_nextPeriod (s : State) : s.closeStretch.nextPeriod = s.nextPeriod := by
  obtain ⟨o, ho⟩ := s.closeStretch_clk
  unfold State.nextPeriod
  rw [s.closeStretch_but.rd64 (by decide) (by decide), ho]

theorem State.stretchTold_keep (s : State) (g : Nat) : Keep 0x3FFFFFFFB s (s.stretchTold g) :=
  Keep.via (State.loseAlign_keep ..) rfl <| Keep.via (State.sat_keep ..) rfl <| State.sat_keep ..

theorem State.stretchNoted_keep (s : State) : Keep 0x3EFFDDCFB s s.stretchNoted := Keep.via (State.voidTime_keep ..) rfl ((State.modRun_keep ..).mono rfl)

/-- The registers that a stretch is noted in, its own counts left out. -/
def noteRegs : List Nat := detRunRegs ++ [Reg.CNET_EVT_LOST, Reg.CLK_REDUCE, Reg.CLK_PLAN, Reg.CLK_ST]

theorem State.stretchNoted_but (s : State) : s.RegsBut s.stretchNoted noteRegs :=
  ((s.modRun_but _).mono (by decide)).trans ((State.voidTime_but _ 1).mono (by decide))

/-- What a count of stretches leaves of clock generation: its own window, and what a forced request changes. -/
theorem State.droopCount_clk (s : State) :
    ∃ w ch rq, s.droopCount.clk = { s.clk with droopWin := w, change := ch, reqs := rq } := by
  unfold State.droopCount
  extract_lets w c u
  split
  · exact ⟨some w, _, _, rfl⟩
  · exact ⟨some w, s.clk.change, s.clk.reqs, rfl⟩

theorem State.droopCount_but (s : State) : s.RegsBut s.droopCount noteRegs := by
  unfold State.droopCount
  extract_lets w c u
  have hu : s.RegsBut u noteRegs := State.RegsBut.of_regs rfl _
  split
  · exact hu.trans ((State.reduce_but u 19 16 (u.droop + 1) 6 true).mono (by decide))
  · exact hu

theorem clkDroop_not_strays (g : Fin 30) :
    Reg.CLK_DROOP g ∉ noteRegs ∧ Reg.CLK_DROOP g ∉ [Reg.DET_ALIGN] ∧ Reg.CLK_DROOP g ∉ [Reg.CLK_STRETCH_CNT] ∧
      Reg.CLK_DROOP g ∉ [Reg.CNET_EVT_LOST] ∧ Reg.CLK_STRETCH_CNT ∉ [Reg.CLK_DROOP g] := by
  revert g
  decide

section
variable {s : State} (i : s.Inv) (g : Fin 30)
include i

theorem State.stretchTold_counts : (s.stretchTold g).rd Reg.CLK_STRETCH_CNT = min (s.rd Reg.CLK_STRETCH_CNT + 1) 0xFFFFFFFF ∧
    (s.stretchTold g).rd (Reg.CLK_DROOP g) = min (s.rd (Reg.CLK_DROOP g) + 1) 0xFFFFFFFF := by
  obtain ⟨-, halign, hcnt, -, hown⟩ := clkDroop_not_strays g
  unfold State.stretchTold
  constructor
  · rw [(State.loseAlign_but _ 1).rd (by decide), (State.sat_but _ _ _).rd hown]
    exact State.sat_counts i rfl
  · rw [(State.loseAlign_but _ 1).rd halign]
    exact State.sat_counts ((State.sat_keep ..).inv i) ((s.sat_but _ _).rd hcnt)

theorem State.stretchTold_align : (s.stretchTold g).rbit Reg.DET_ALIGN 0 = false ∧ (s.stretchTold g).rf Reg.DET_ALIGN 7 4 = 1 := by
  obtain ⟨h0, h1⟩ := State.loseAlign_shows (cause := 1)
    ((State.sat_keep _ (Reg.CLK_DROOP g) 1).inv ((State.sat_keep s Reg.CLK_STRETCH_CNT 1).inv i)) (by decide)
  exact ⟨h0.rbit, h1.reads⟩

end

theorem runs_droopDetect (s : State) (g : Fin 30) :
    Runs (.droopDetect g) s [.regs, .log, .nodes, .seqr, .irq, .clk, .logN] (fun t => t.clk.droopAt = s.now ∧ t.clk.lastStretch = s.now ∧
      t.clk.stretched = s.clk.stretched ++ [s.nextPeriod] ∧ t.clk.lastPeriod = BitVec.ofNat 64 s.nextPeriod ∧
      (s.clk.window = none → t.clk.window = some (s.now, 1, (g : Nat))) ∧
      t.rd Reg.CLK_STRETCH_CNT = min (s.rd Reg.CLK_STRETCH_CNT + 1) 0xFFFFFFFF ∧
      t.rd (Reg.CLK_DROOP g) = min (s.rd (Reg.CLK_DROOP g) + 1) 0xFFFFFFFF ∧ t.rbit Reg.DET_ALIGN 0 = false ∧ t.rf Reg.DET_ALIGN 7 4 = 1) := by
  obtain ⟨hnote, -, -, hlost, -⟩ := clkDroop_not_strays g
  obtain ⟨o, hclose⟩ := s.closeStretch_clk
  let x := s.closeStretch.stretch g
  let y := (x.stretchTold g).stretchNoted
  have hx : s.RegsBut x [Reg.CNET_EVT_LOST] := s.closeStretch_but.trans (State.stretch_but _ _ _)
  have hb : (x.stretchTold g).RegsBut y.droopCount noteRegs := (State.stretchNoted_but _).trans (State.droopCount_but _)
  have hclk : y.clk = x.clk := ((State.stretchNoted_keep _).clk rfl).trans ((State.stretchTold_keep ..).clk rfl)
  obtain ⟨w, ch, rq, hcount⟩ := y.droopCount_clk
  have hown : x.clk = _ := State.stretch_clk s.closeStretch g
  rw [hclose, s.closeStretch_nextPeriod, s.closeStretch_keep.now rfl] at hown
  refine Runs.of_keep (execDroopDetect_keep g s) (by decide) (exec_droopDetect g s) (fun i => ?_)
  have ix : x.Inv := (State.stretch_keep ..).inv (s.closeStretch_keep.inv i)
  obtain ⟨hcnt, hreg⟩ := State.stretchTold_counts ix g
  obtain ⟨ha0, ha1⟩ := State.stretchTold_align ix g
  rw [hx.rd (by decide)] at hcnt
  rw [hx.rd hlost] at hreg
  refine ⟨?_, ?_, ?_, ?_, fun hw => ?_, (hb.rd (by decide)).trans hcnt, (hb.rd hnote).trans hreg, (hb.rbit (by decide) _).trans ha0,
    (hb.rf (by decide) _ _).trans ha1⟩
  · rw [hcount, hclk, hown]
  · rw [hcount, hclk, hown]
  · rw [hcount, hclk, hown]
  · rw [hcount, hclk, hown]
  · rw [hcount, hclk, hown, State.closeStretch_none hw]
    simp only [State.windowWith, hw]

/-! ### DROOP_RETURN and SAFE_CLOCK_STEP_UP (R464). -/

/-- The tick of the last change of DROOP. -/
def State.droopStamped (s : State) : State := { s with clk := { s.clk with droopAt := s.now } }

/-- One step less held back by the safe clock, as of now. -/
def State.safeStepped (s : State) : State := { s with clk := { s.clk with missing := s.clk.missing - 1, stepAt := s.now } }

theorem State.droopStamped_keep (s : State) : Keep 0x3FFEFFFFF s s.droopStamped := Keep.setClk rfl (Keep.refl _ _)

/-- A request that is not forced leaves the rest of clock generation alone. -/
theorem State.askFreq_free_clk (s : State) (cause : Nat) :
    ∃ rq d, (s.askFreq cause false).clk = { s.clk with reqs := rq, deferred := d } := by
  unfold State.askFreq
  dsimp only
  split
  · exact absurd ‹_› (by decide)
  · split
    · exact ⟨s.clk.reqs, _, rfl⟩
    · exact ⟨_, s.clk.deferred, rfl⟩

section
variable {s : State}

theorem exec_droopReturn_not (h : s.droop = 0 ∨ (s.now - s.clk.droopAt).toNat < 100000000) : exec .droopReturn s = .next s :=
  if_neg (fun e => h.elim (fun h => Nat.ne_of_gt e.1 h) (Nat.not_lt.mpr e.2))

theorem exec_droopReturn (h : 0 < s.droop) (ht : 100000000 ≤ (s.now - s.clk.droopAt).toNat) :
    exec .droopReturn s = .next (s.droopStamped.reduce 19 16 (s.droop - 1) 8 false) := if_pos ⟨h, ht⟩

theorem runs_droopReturn (h : 0 < s.droop) (ht : 100000000 ≤ (s.now - s.clk.droopAt).toNat) :
    Runs .droopReturn s [.regs, .clk] (fun t => t.droop = s.droop - 1 ∧ t.clk.droopAt = s.now ∧
      s.RegsBut t [Reg.CLK_REDUCE, Reg.CLK_PLAN, Reg.CLK_ST]) := by
  have hlt : s.droop < 2 ^ 4 := s.rf_lt _ 19 16
  refine Runs.of_keep (execDroopReturn_keep s) (by decide) (exec_droopReturn h ht) (fun i => ⟨?_, ?_, ?_⟩)
  · exact State.reduce_shows (s.droopStamped_keep.inv i) (by decide) (by decide) (by omega) 8 false
  · obtain ⟨rq, d, hc⟩ := (s.droopStamped.wf Reg.CLK_REDUCE 19 16 (s.droop - 1)).askFreq_free_clk 8
    exact congrArg Clk.droopAt hc
  · exact (State.RegsBut.of_regs (s.droopStamped_keep.regs rfl) _).trans (State.reduce_but _ _ _ _ _ _)

theorem exec_safeClockStepUp_not (h : s.clk.missing = 0 ∨ (s.now - s.clk.stepAt).toNat < 1000000) : exec .safeClockStepUp s = .next s :=
  if_neg (fun e => h.elim (fun h => Nat.ne_of_gt e.1 h) (Nat.not_lt.mpr e.2))

theorem exec_safeClockStepUp (h : 0 < s.clk.missing) (ht : 1000000 ≤ (s.now - s.clk.stepAt).toNat) :
    exec .safeClockStepUp s = .next (s.safeStepped.askFreq 8 false) := if_pos ⟨h, ht⟩

theorem runs_safeClockStepUp (h : 0 < s.clk.missing) (ht : 1000000 ≤ (s.now - s.clk.stepAt).toNat) :
    Runs .safeClockStepUp s [.regs, .clk] (fun t => t.clk.missing = s.clk.missing - 1 ∧ t.clk.stepAt = s.now ∧
      s.RegsBut t [Reg.CLK_PLAN, Reg.CLK_ST]) := by
  obtain ⟨rq, d, hc⟩ := s.safeStepped.askFreq_free_clk 8
  exact Runs.of_keep (execSafeClockStepUp_keep s) (by decide) (exec_safeClockStepUp h ht)
    (fun _ => ⟨congrArg Clk.missing hc, congrArg Clk.stepAt hc, (State.RegsBut.of_regs rfl _).trans (State.askFreq_but _ _ _)⟩)

end

/-- Settles O38: each command from its rule. -/
theorem clocksComplete : Obligations.ClocksComplete := by
  refine ⟨fun s kind => ⟨fun h => exec_refclkLost_again h kind, fun h => runs_refclkLost h kind⟩,
    fun s => ⟨runs_refclkRestored_present, runs_refclkRestored⟩, fun s => ⟨exec_refBothLost_again, runs_refBothLost⟩,
    fun s => ⟨exec_holdoverLost_unused, runs_holdoverLost⟩,
    fun s => ⟨exec_freqChangeRequest_busy, exec_freqChangeRequest_none, fun r rest => exec_freqChangeRequest_stays,
      fun r rest => runs_freqChangeRequest⟩, ?change, fun s w h => exec_change_none h w, runs_droopDetect, ?window, ?steps⟩
  case change =>
    intro s c w hc
    refine ⟨fun h => ⟨exec_freqChangeBroadcast_not hc w h, exec_pllLockTimeout_not hc (.inl h)⟩, fun h => exec_freqSwitch_not hc (.inl h),
      exec_freqVoltageSettled_not hc, ?_, fun h => exec_freqSwitch_not hc (.inr h), fun h3 ht hn ho hr => runs_freqSwitch_falls hc h3 ht hr hn ho,
      fun h3 ht hn hm hr i => freqSwitch_rises hc h3 ht hr hn hm i, exec_freqVoltageSettled hc,
      fun _ h => exec_pllLockTimeout_not hc (.inr h), fun h1 ht _ => exec_pllLockTimeout hc h1 ht⟩
    intro T m h1 hT
    have hm : Msg.ctl (c.timed T).msg = m := congrArg Msg.ctl (c.timed_msg hT)
    refine ⟨fun hw => hm ▸ runs_freqChangeBroadcast hc w h1 hT hw, fun n _ => (exec_freqChangeBroadcast hc w h1).trans ?_⟩
    exact congrArg (fun m => Host.Outcome.next ((((s.changeTimed c T w).free.2.maxField Reg.CNET_STAT 7 0
      ((s.changeTimed c T w).free.1 % 25)).wr64 Reg.CLK_FTGT_LO T).send m)) hm
  case window =>
    exact fun s a n g h => ⟨fun ht => congrArg Host.Outcome.next (State.closeStretch_open h ht), runs_stretchWindowEnd h⟩
  case steps =>
    exact fun s => ⟨fun h => congrArg Host.Outcome.next (State.closeStretch_none h), fun h => exec_droopReturn_not (.inl h),
      fun h => exec_droopReturn_not (.inr h), runs_droopReturn, fun h => exec_safeClockStepUp_not (.inl h),
      fun h => exec_safeClockStepUp_not (.inr h), runs_safeClockStepUp⟩

end Sys2Proof.Machine
end

section
/-! SUPPORT. Test waves and time limits (R379, R384, R385), each command from its rule. -/

namespace Sys2Proof.Machine

/-! ### Outcomes of units that pass (R380, R385). -/

/-- Each outcome is that of a unit of `w` of which nothing was found. -/
def AllPassed (w : List Nat) (l : List TestOut) : Prop := ∀ o ∈ l, ∃ u ∈ w, o = { unit := u }

/-- What a wave's units are found to be when all of them pass. -/
def passedOuts (w : List Nat) : List TestOut := (w.map (fun u => ({ unit := u } : TestOut))).foldl mergeOut []

theorem mergeOut_passed {w : List Nat} {l : List TestOut} (h : AllPassed w l) {u : Nat} (hu : u ∈ w) : AllPassed w (mergeOut l { unit := u }) := by
  unfold mergeOut
  split
  next => exact List.forall_mem_append.mpr ⟨h, List.forall_mem_singleton.mpr ⟨u, hu, rfl⟩⟩
  next x hx =>
    obtain ⟨v, _, rfl⟩ := h x (List.mem_of_find?_eq_some hx)
    refine List.forall_mem_map.mpr fun y hy => ?_
    split
    · exact ⟨u, hu, rfl⟩
    · exact h y hy

theorem allPassed_passedOuts (w : List Nat) : AllPassed w (passedOuts w) := by
  refine List.foldlRecOn _ _ (List.forall_mem_nil _) fun l h o ho => ?_
  obtain ⟨u, hu, rfl⟩ := List.mem_map.mp ho
  exact mergeOut_passed h hu

theorem State.noteParts_passed (s : State) {u : Nat} (hu : 18 ≤ u) : s.noteParts { unit := u } = s := by
  unfold State.noteParts
  dsimp only
  rw [if_neg (Nat.not_lt.mpr hu)]
  exact ite_self s

/-- A unit that is no spindle and passes at start-up changes nothing. -/
theorem State.noteTest_passed (s : State) {u : Nat} (hu : 18 ≤ u) : s.noteTest occStart { unit := u } = s := by
  have hr : s.noteResult { unit := u } = s := if_neg (Nat.not_lt.mpr hu)
  have hm : ¬(false = true ∨ (u < 18 ∧ s.linesOver u { unit := u } = true) ∨
      (occStart ≠ occStart ∧ u / 2048 = 3 ∧ ([] : List (Nat × Nat × Nat)) ≠ [])) := by
    rintro (h | ⟨h, _⟩ | ⟨h, _⟩)
    · exact Bool.false_ne_true h
    · omega
    · exact h rfl
  unfold State.noteTest
  rw [hr]
  dsimp only
  rw [if_neg (by decide : ¬(0 : Nat) = 2), if_neg hm, if_pos rfl, if_neg (by decide : ¬(0 : Nat) = 1), s.noteParts_passed hu]
  exact ite_self s

/-! ### TEST_WAVE_DONE (R379, R385). -/

/-- The present wave is over; the waves `rest` are to run, and the units so far were found to be `outs`. -/
def State.waveOver (s : State) (rest : List (List Nat)) (outs : List TestOut) : State :=
  { s with hlth := { s.hlth with waves := rest, waveAt := s.wall, outs := outs } }

/-- Start-up goes on with phase 8. -/
def State.testsOver (s : State) : State := ({ s with boot := { s.boot with at_ := s.wall } } : State).wf Reg.CMD_DEV_STATE 27 24 8

theorem exec_testWaveDone_none {s : State} (h : s.hlth.waves = []) (outs : List TestOut) : exec (.testWaveDone outs) s = .next s := by
  show Host.Outcome.next (s.endWave outs false) = _
  unfold State.endWave
  rw [h]

section
variable {s : State} {w : List Nat} {rest : List (List Nat)} (hw : s.hlth.waves = w :: rest) (ho : s.hlth.outs = []) (hu : ∀ u ∈ w, 18 ≤ u)
include hw ho hu

theorem State.endWave_passed : s.endWave [] false =
    if rest = [] then (s.waveOver rest (passedOuts w)).testsOver else s.waveOver rest (passedOuts w) := by
  have hn : ∀ p : TestOut → Bool, ((passedOuts w).filter p).foldl (fun s o => s.noteTest occStart o) (s.waveOver rest (passedOuts w)) =
      s.waveOver rest (passedOuts w) := fun p => by
    refine List.foldlRecOn (motive := (· = s.waveOver rest (passedOuts w))) _ _ rfl fun t ht o h => ?_
    obtain ⟨u, hm, rfl⟩ := allPassed_passedOuts w o (List.mem_of_mem_filter h)
    exact (State.noteTest_passed t (hu u hm)).trans ht
  unfold State.endWave
  rw [hw]
  dsimp only
  rw [ho]
  exact congrArg (fun x : State => if rest = [] then x.testsOver else x) (hn _)

theorem runs_testWaveDone_next {v : List Nat} {more : List (List Nat)} (hr : rest = v :: more) :
    Runs (.testWaveDone []) s [.hlth] (fun t => t.hlth.waves = v :: more ∧ t.hlth.waveAt = s.wall ∧ (∀ o ∈ t.hlth.outs, o.logic = 0 ∧ o.unit ∈ w)) := by
  have he : exec (.testWaveDone []) s = .next (s.waveOver rest (passedOuts w)) :=
    congrArg Host.Outcome.next ((State.endWave_passed hw ho hu).trans (if_neg (hr ▸ List.cons_ne_nil v more)))
  refine Runs.of_next he ((Keep.setHlth (m := 0x3FFBFFFFF) rfl (Keep.refl _ _)).alters _ (by decide)) fun _ => ⟨hr, rfl, fun o hm => ?_⟩
  obtain ⟨u, hu, rfl⟩ := allPassed_passedOuts w o hm
  exact ⟨rfl, hu⟩

theorem runs_testWaveDone_last (hr : rest = []) :
    Runs (.testWaveDone []) s [.regs, .hlth, .boot] (fun t => t.hlth.waves = [] ∧ t.rf Reg.CMD_DEV_STATE 27 24 = 8 ∧ t.boot.at_ = s.wall ∧
      s.RegsBut t [Reg.CMD_DEV_STATE]) := by
  have he : exec (.testWaveDone []) s = .next (s.waveOver rest (passedOuts w)).testsOver :=
    congrArg Host.Outcome.next ((State.endWave_passed hw ho hu).trans (if_pos hr))
  have hk : Keep 0x37FBFFFFB s (s.waveOver rest (passedOuts w)).testsOver :=
    Keep.via (State.wf_keep ..) rfl (Keep.setBoot rfl (Keep.setHlth rfl (Keep.refl _ _)))
  refine Runs.of_next he (hk.alters _ (by decide)) fun i => ⟨hr, ?_, rfl, ?_⟩
  · exact State.rf_wf_self i.regs (by decide) (by decide)
  · exact (State.RegsBut.of_regs rfl _).trans (State.wf_but _ _ _ _ _)

end

/-! ### TEST_TIMEOUT (R379). -/

theorem lateOut_spindle {ps : Nat} (h : ps < 2048) : lateOut (unitId 0 ps) = { unit := ps, logic := 2 } := by
  have hk : ¬(unitId 0 ps / 2048 = 3 ∨ unitId 0 ps / 2048 = 6) := by unfold unitId; omega
  have hu : unitId 0 ps = ps := by unfold unitId; omega
  exact (if_neg hk).trans (by rw [hu])

theorem exec_testTimeout_wave {s : State} (hw : s.hlth.waves ≠ []) (ht : 50000000 ≤ (s.wall - s.hlth.waveAt).toNat) (outs : List TestOut) :
    exec (.testTimeout outs) s = .next (s.endWave outs true) := if_pos ⟨hw, ht⟩

section
variable {s : State} (hw : s.hlth.waves = []) (outs : List TestOut)
include hw

theorem exec_testTimeout_roll (hr : s.rf Reg.TEST_ROLL_ST 2 0 = 4) (ht : 50000000 ≤ (s.now - s.hlth.rollAt).toNat) :
    exec (.testTimeout outs) s = .next (s.rollEnd { unit := s.rf Reg.TEST_ROLL_ST 12 8, logic := 2 }) := by
  have hps : s.rf Reg.TEST_ROLL_ST 12 8 < 2048 := (s.rf_lt _ 12 8).trans (by decide)
  exact (if_neg (fun e => e.1 hw)).trans ((if_pos ⟨hr, ht⟩).trans (by rw [lateOut_spindle hps]))

/-- With no wave and no rolling test, the return tests are looked at. -/
theorem exec_testTimeout_return (hr : s.rf Reg.TEST_ROLL_ST 2 0 ≠ 4) {o : Option Returning}
    (h : s.hlth.returning.find? (fun r => s.testing r && decide (testLimit ≤ (s.now - r.start).toNat)) = o) :
    exec (.testTimeout outs) s = .next (o.elim s (fun r => s.returnEnd (lateOut r.unit))) := by
  show execTestTimeout outs s = _
  unfold execTestTimeout
  rw [if_neg (fun e => e.1 hw), if_neg (fun e => hr e.1), h]
  cases o <;> rfl

theorem exec_testTimeout_late {r : Returning} (hr : s.rf Reg.TEST_ROLL_ST 2 0 ≠ 4) (h : s.hlth.returning = [r]) (ht : s.testing r = true)
    (hl : 50000000 ≤ (s.now - r.start).toNat) : exec (.testTimeout outs) s = .next (s.returnEnd (lateOut r.unit)) := by
  refine exec_testTimeout_return hw outs hr (o := some r) ?_
  rw [h, List.find?_singleton, ht, decide_eq_true (show testLimit ≤ (s.now - r.start).toNat from hl)]
  rfl

theorem exec_testTimeout_none (hr : s.rf Reg.TEST_ROLL_ST 2 0 ≠ 4) (h : ∀ r ∈ s.hlth.returning, (s.now - r.start).toNat < 50000000) :
    exec (.testTimeout outs) s = .next s := by
  refine exec_testTimeout_return hw outs hr (o := none) (List.find?_eq_none.mpr fun r hm => ?_)
  rw [decide_eq_false (show ¬testLimit ≤ (s.now - r.start).toNat from Nat.not_le.mpr (h r hm)), Bool.and_false]
  exact Bool.false_ne_true

end

end Sys2Proof.Machine
end

section
/-! SUPPORT. Moves of a logical index and L rising (R393, R394), each command from its rule. -/

namespace Sys2Proof.Machine

/-! ### MAP_RISE_APPLY (R394). -/

theorem exec_mapRiseApply_none {s : State} (h : s.anyResident = true ∨ s.risers = []) : exec .mapRiseApply s = .next s := if_pos h

theorem exec_mapRiseApply {s : State} (ha : s.anyResident = false) (hr : s.risers ≠ []) : exec .mapRiseApply s =
    .next ({ s with hlth := { s.hlth with holding := s.hlth.holding.filter (fun ps => !s.risers.contains ps) } } : State).rebuild :=
  if_neg fun e => e.elim (fun h => Bool.false_ne_true (ha.symm.trans h)) hr

/-! ### A strand at its boundary (R23, R109). -/

theorem State.moveBoundary_of_drain {s : State} {ps : Nat} (h : (s.spn ps).drain ≠ none) : s.moveBoundary ps = s :=
  if_pos (Option.isSome_iff_ne_none.mpr h)

/-- A strand that drains its section drains for the transfer. -/
theorem State.moveBoundary_draining {s : State} {ps : Nat} (i : s.Inv) (hd : (s.spn ps).drain = none) (hl : (s.spn ps).load = .draining) :
    ((s.moveBoundary ps).spn ps).drain = some { why := .transfer, scan := false, asked := s.now, point := false, ready := false } := by
  unfold State.moveBoundary
  dsimp only
  rw [if_neg (by rw [hd]; exact Bool.false_ne_true), hl]
  dsimp only
  rw [State.spn_congr (State.setSpnState_spns _ _ _), State.spn_setSpn i.spns]

/-! ### SPARE_TRANSFER (R394). -/

theorem State.usesIndex_idle {s : State} (h : s.runCtx = 0) (l : Nat) : s.usesIndex l = false := by
  unfold State.usesIndex
  rw [State.runningSlot_idle h]

/-- Where no context runs the map alone changes. -/
theorem State.moveNow_idle {s : State} (h : s.runCtx = 0) (m : Move) : s.moveNow m = (s.setMoves (s.hlth.moves.erase m)).moveUnits m :=
  if_neg fun e => Bool.false_ne_true ((State.usesIndex_idle (s := s.setMoves (s.hlth.moves.erase m)) h m.logical).symm.trans e.1)

theorem exec_spareTransfer_none {s : State} {l : Fin 16} (h : s.hlth.moves.find? (fun m => m.logical == (l : Nat)) = none) :
    exec (.spareTransfer l) s = .next s := by
  show execSpareTransfer l s = _
  unfold execSpareTransfer
  rw [h]

section
variable {s : State} {l : Fin 16} {m : Move} (hm : s.hlth.moves.find? (fun m => m.logical == (l : Nat)) = some m)
include hm

theorem exec_spareTransfer_busy (hu : s.usesIndex l = true) (hd : s.doorBusy m.src = true) : exec (.spareTransfer l) s = .next s := by
  show execSpareTransfer l s = _
  unfold execSpareTransfer
  rw [hm]
  exact if_pos ⟨hu, hd⟩

theorem exec_spareTransfer_idle (h : s.runCtx = 0) :
    exec (.spareTransfer l) s = .next ((s.setMoves (s.hlth.moves.erase m)).moveUnits m) := by
  show execSpareTransfer l s = _
  unfold execSpareTransfer
  rw [hm]
  dsimp only
  rw [State.usesIndex_idle h, if_neg (fun e => Bool.false_ne_true e.1), State.runningSlot_idle h]
  exact congrArg Host.Outcome.next (State.moveNow_idle h m)

/-- With a context running and no traffic in the way, the index moves where nothing of it is left to drain, and else its
strand is brought to a boundary. -/
theorem exec_spareTransfer_running {j : Slot} (hj : s.runningSlot = some j) (hd : ¬(s.usesIndex l = true ∧ s.doorBusy m.src = true)) :
    exec (.spareTransfer l) s = if s.usesIndex l = false ∨ s.physOf l ≠ m.src ∨ s.endedAt l = true ∨ s.savedAway j l = true then .next (s.moveNow m)
      else .next ((s.moveBoundary m.src).showSwap m) := by
  show execSpareTransfer l s = _
  unfold execSpareTransfer
  rw [hm]
  dsimp only
  rw [if_neg hd, hj]

theorem exec_spareTransfer_unused {j : Slot} (hj : s.runningSlot = some j) (hu : s.usesIndex l = false) :
    exec (.spareTransfer l) s = .next (s.moveNow m) :=
  (exec_spareTransfer_running hm hj (fun e => Bool.false_ne_true (hu.symm.trans e.1))).trans (if_pos (.inl hu))

theorem exec_spareTransfer_drains {j : Slot} (hj : s.runningSlot = some j) (hu : s.usesIndex l = true) (hd : s.doorBusy m.src = false)
    (hp : s.physOf l = m.src) (he : s.endedAt l = false) (hs : s.savedAway j l = false) :
    exec (.spareTransfer l) s = .next ((s.moveBoundary m.src).showSwap m) := by
  refine (exec_spareTransfer_running hm hj (fun e => Bool.false_ne_true (hd.symm.trans e.2))).trans (if_neg ?_)
  rw [hu, he, hs]
  rintro (h | h | h | h)
  · exact Bool.false_ne_true h.symm
  · exact h hp
  · exact Bool.false_ne_true h
  · exact Bool.false_ne_true h

end

end Sys2Proof.Machine
end

section
/-! SUPPORT. Rolling tests and return tests (R390, R395 to R399), each command from its rule. -/

namespace Sys2Proof.Machine

/-- A spindle whose logic BIST failed has failed its test (R380). -/
theorem State.spinBad_of_logic {o : TestOut} (h : o.logic = 2) (s : State) (ps : Nat) : s.spinBad ps o = true := by
  unfold State.spinBad
  rw [h]
  rfl

/-! ### ROLL_TEST_DUE (R395). -/

theorem State.rollDueNow_disabled {s : State} (h : s.rbit Reg.TEST_CTL 0 = false) : s.rollDueNow = s := if_pos (.inl h)

/-- The period is over and no test waits: one falls due. -/
theorem State.rollDueNow_due {s : State} (he : s.rbit Reg.TEST_CTL 0 = true) (hs : s.rbit Reg.CMD_STRAPS 14 = false)
    (ht : s.rd Reg.TEST_ROLL_PERIOD * 100000000 ≤ (s.now - s.hlth.rollDue).toNat) (hp : s.hlth.rollPend = false) :
    s.rollDueNow = { s with hlth := { s.hlth with rollPend := true
                                                  rollDue := s.hlth.rollDue + BitVec.ofNat 64 (s.rd Reg.TEST_ROLL_PERIOD * 100000000) } } := by
  unfold State.rollDueNow
  dsimp only
  rw [he, hs, hp, if_neg (by simpa using ht), if_neg Bool.false_ne_true]

section
variable {s : State}

theorem exec_rollTestDue_disabled (h : s.rbit Reg.TEST_CTL 0 = false) (hp : s.hlth.rollPend = false) : exec .rollTestDue s = .next s := by
  show execRollTestDue s = _
  unfold execRollTestDue
  rw [State.rollDueNow_disabled h]
  exact if_pos (.inl hp)

theorem exec_rollTestDue_busy (h : s.rollDueNow.rf Reg.TEST_ROLL_ST 2 0 ≠ 0) : exec .rollTestDue s = .next s.rollDueNow := if_pos (.inr h)

theorem exec_rollTestDue {ps : Nat} (hp : s.rollDueNow.hlth.rollPend = true) (hi : s.rollDueNow.rf Reg.TEST_ROLL_ST 2 0 = 0)
    (hn : s.rollDueNow.rollNext = some ps) : exec .rollTestDue s = if s.rollDueNow.rollBlock ps = 0 then .next (s.rollDueNow.rollStart ps)
      else .next (s.rollDueNow.wf Reg.TEST_ROLL_ST 27 24 (s.rollDueNow.rollBlock ps)) := by
  have hw : ¬(s.rollDueNow.hlth.rollPend = false ∨ s.rollDueNow.rf Reg.TEST_ROLL_ST 2 0 ≠ 0) := by
    rw [hp, hi]
    decide
  show execRollTestDue s = _
  unfold execRollTestDue
  dsimp only
  rw [if_neg hw, hn]

end

/-! ### ROLL_TEST_DONE (R396, R397, R399). -/

theorem exec_rollTestDone_not {s : State} {o : TestOut} (h : s.rf Reg.TEST_ROLL_ST 2 0 ≠ 4 ∨ o.unit ≠ unitId 0 (s.rf Reg.TEST_ROLL_ST 12 8)) :
    exec (.rollTestDone o) s = .next s := if_neg fun e => h.elim (· e.1) (· e.2)

theorem exec_rollTestDone {s : State} {o : TestOut} (h : s.rf Reg.TEST_ROLL_ST 2 0 = 4) (hu : o.unit = unitId 0 (s.rf Reg.TEST_ROLL_ST 12 8)) :
    exec (.rollTestDone o) s = .next (s.rollEnd o) := if_pos ⟨h, hu⟩

/-- The rolling test is counted, and what it found recorded. -/
def State.rollNoted (s : State) (o : TestOut) : State :=
  let x := (s.sat Reg.TEST_ROLL_DONE 1).noteTest occRoll o
  (x.newLines (s.rf Reg.TEST_ROLL_ST 12 8) o).foldl (fun x n => x.softCreate (unitId 7 (s.rf Reg.TEST_ROLL_ST 12 8 * 16 + n.1)) n.2) x

theorem State.rollEnd_fails {s : State} {o : TestOut} (h : o.logic = 2) : s.rollEnd o =
    ((((((s.rollNoted o).sat Reg.TEST_ROLL_FAIL 1).softCreate (unitId 0 (s.rf Reg.TEST_ROLL_ST 12 8)) 0).setSpnState (s.rf Reg.TEST_ROLL_ST 12 8) 6).syncStop
      (s.rf Reg.TEST_ROLL_ST 12 8)).rebuild.wf Reg.TEST_ROLL_ST 2 0 0) :=
  if_pos (State.spinBad_of_logic h (s.rollNoted o) (s.rf Reg.TEST_ROLL_ST 12 8))

/-! ### ROLL_WAIT_TIMEOUT (R396). -/

theorem exec_rollWaitTimeout_not {s : State} (h : (s.rf Reg.TEST_ROLL_ST 2 0 ≠ 1 ∧ s.rf Reg.TEST_ROLL_ST 2 0 ≠ 5) ∨
    (s.now - s.hlth.rollAt).toNat < s.rd Reg.TEST_ROLL_WAIT) : exec .rollWaitTimeout s = .next s := if_pos h

/-- The test waited too long to be swapped out: it is given up and reported. -/
def State.rollGivenUp (s : State) : State :=
  (s.wf Reg.TEST_ROLL_ST 2 0 0).event 0x0809 (unitId 0 (s.rf Reg.TEST_ROLL_ST 12 8)) 1 [(16, 1, 2)]

theorem State.rollGivenUp_keep (s : State) : Keep 0x3EFFDFCFB s s.rollGivenUp :=
  Keep.via (State.event_keep ..) rfl ((State.wf_keep ..).mono rfl)

theorem State.rollGivenUp_shows {s : State} (i : s.Inv) : s.rollGivenUp.Shows Reg.TEST_ROLL_ST 2 0 0 :=
  (i.shows_wf Reg.TEST_ROLL_ST (by decide) (by decide) (by decide)).event (by decide) _ _ _ _

theorem State.rollGivenUp_recorded {s : State} (h : s.EventRoom 0x0809 (s.rf Reg.TEST_ROLL_ST 12 8)) :
    s.rollGivenUp.Recorded (s.eventRec 0x0809 (s.rf Reg.TEST_ROLL_ST 12 8) 1 [(16, 1, 2)]) := by
  have hu : unitId 0 (s.rf Reg.TEST_ROLL_ST 12 8) = s.rf Reg.TEST_ROLL_ST 12 8 := by unfold unitId; omega
  unfold State.rollGivenUp
  rw [hu]
  exact State.event_recorded_of_keep (State.wf_keep s Reg.TEST_ROLL_ST 2 0 0) rfl (s.wf_but _ _ _ _) (by decide) _ _ h

section
variable {s : State} {m : Move} (hm : s.hlth.moves = [m]) (hw : m.why = .rollOut) (hd : (s.spn m.src).drain = none)
include hm hw hd

theorem exec_rollWaitTimeout (hr : s.rf Reg.TEST_ROLL_ST 2 0 = 1) (ht : s.rd Reg.TEST_ROLL_WAIT ≤ (s.now - s.hlth.rollAt).toNat) :
    exec .rollWaitTimeout s = .next (s.rollGivenUp.setMoves []) := by
  have hn : ¬((s.rf Reg.TEST_ROLL_ST 2 0 ≠ 1 ∧ s.rf Reg.TEST_ROLL_ST 2 0 ≠ 5) ∨ (s.now - s.hlth.rollAt).toNat < s.rd Reg.TEST_ROLL_WAIT) :=
    fun e => e.elim (fun h => h.1 hr) (Nat.not_lt.mpr ht)
  have hf : s.hlth.moves.find? (fun m => decide (m.why = .rollOut ∨ m.why = .rollBack)) = some m := by
    rw [hm]
    exact List.find?_cons_of_pos (decide_eq_true (.inl hw))
  have hl : s.rollGivenUp.hlth.moves.erase m = [] := by
    rw [s.rollGivenUp_keep.hlth rfl, hm, List.erase_cons_head]
  show execRollWaitTimeout s = _
  unfold execRollWaitTimeout
  dsimp only
  rw [if_neg hn, hf]
  dsimp only
  rw [if_neg (by rw [hd]; exact Bool.false_ne_true), if_pos hr, if_pos hr]
  exact congrArg (fun l => Host.Outcome.next (s.rollGivenUp.setMoves l)) hl

theorem runs_rollWaitTimeout (hr : s.rf Reg.TEST_ROLL_ST 2 0 = 1) (ht : s.rd Reg.TEST_ROLL_WAIT ≤ (s.now - s.hlth.rollAt).toNat) :
    Runs .rollWaitTimeout s [.regs, .log, .nodes, .irq, .hlth, .logN] (fun t => t.hlth = { s.hlth with moves := [] } ∧ t.rf Reg.TEST_ROLL_ST 2 0 = 0 ∧
      (s.EventRoom 0x0809 (s.rf Reg.TEST_ROLL_ST 12 8) → t.Recorded (s.eventRec 0x0809 (s.rf Reg.TEST_ROLL_ST 12 8) 1 [(16, 1, 2)]))) := by
  refine Runs.of_keep (execRollWaitTimeout_keep s) (by decide) (exec_rollWaitTimeout hm hw hd hr ht) fun i => ⟨?_, ?_, fun he => ?_⟩
  · exact congrArg (fun h : Hlth => { h with moves := [] }) (s.rollGivenUp_keep.hlth rfl)
  · exact ((State.rollGivenUp_shows i).of_regs (State.setMoves_keep _ []) rfl).reads
  · exact (State.rollGivenUp_recorded he).keep (State.setMoves_keep _ _) rfl

end

/-! ### RETURN_TEST_DONE (R390, R398). -/

theorem exec_returnTestDone_none {s : State} (h : s.hlth.returning = []) (o : TestOut) : exec (.returnTestDone o) s = .next s :=
  if_neg (by rw [h]; exact Bool.false_ne_true)

theorem exec_returnTestDone {s : State} {o : TestOut} {r : Returning} (h : s.hlth.returning = [r]) (hu : r.unit = o.unit) (ht : s.testing r = true) :
    exec (.returnTestDone o) s = .next (s.returnEnd o) :=
  if_pos (List.any_eq_true.mpr ⟨r, h ▸ List.mem_singleton_self r, by rw [ht, beq_iff_eq.mpr hu]; rfl⟩)

/-- The unit is in no return test any more, and what its test found is recorded. -/
def State.returnNoted (s : State) (o : TestOut) : State := (s.dropReturn o.unit).noteTest 2 o

section
variable {s : State} {o : TestOut}

/-- The return test of a core (R398). -/
theorem State.returnEnd_core (hk : o.unit / 2048 = 9) : s.returnEnd o = if o.logic = 2 then (s.returnNoted o).finish (.returning o.unit) stHW_FAULT []
    else (((s.returnNoted o).softRemove o.unit 0).wf Reg.MGMT_CORE_ST (o.unit % 2048) (o.unit % 2048) 1).finish (.returning o.unit) stOK [] :=
  (if_neg (by omega)).trans <| (if_neg (by omega)).trans <| (if_neg (by omega)).trans (if_pos hk)

theorem State.returnEnd_port_fails (hk : o.unit / 2048 = 5) (hm : o.march = true) :
    s.returnEnd o = (s.returnNoted o).finish (.returning o.unit) stHW_FAULT [] :=
  (if_neg (by omega)).trans <| (if_neg (by omega)).trans <| (if_pos hk).trans (if_pos hm)

theorem State.returnEnd_spindle_fails (hk : o.unit / 2048 = 0) (hl : o.logic = 2) : s.returnEnd o =
    ((((s.returnNoted o).setSpnState (o.unit % 2048) 6).syncStop (o.unit % 2048)).rebuild).finish (.returning o.unit) stHW_FAULT [] :=
  (if_pos hk).trans (if_pos (.inl (State.spinBad_of_logic hl _ _)))

end

/-- Settles O33: each command from its rule. -/
theorem selfTestsComplete : Obligations.SelfTestsComplete := by
  refine ⟨?waves, fun s outs => ⟨fun hw ht => exec_testTimeout_wave hw ht outs, fun hw => exec_testTimeout_roll hw outs,
      fun _ hw => exec_testTimeout_late hw outs, fun hw => exec_testTimeout_none hw outs⟩,
    fun s => ⟨fun h => exec_mapRiseApply_none (.inl h), fun h => exec_mapRiseApply_none (.inr h), exec_mapRiseApply⟩, ?moves, ?due, ?roll,
    fun s => ⟨fun h1 h5 => exec_rollWaitTimeout_not (.inl ⟨h1, h5⟩), fun h => exec_rollWaitTimeout_not (.inr h),
      fun m hr ht hm hw hd => runs_rollWaitTimeout hm hw hd hr ht⟩, ?returned⟩
  case waves =>
    refine fun s outs => ⟨fun h => exec_testWaveDone_none h outs, ?_, ?_⟩
    · rintro w v rest hw ho rfl hu
      exact runs_testWaveDone_next hw ho hu rfl
    · rintro w hw ho rfl hu
      exact runs_testWaveDone_last hw ho hu rfl
  case moves =>
    exact fun s l => ⟨exec_spareTransfer_none, fun m hm => ⟨exec_spareTransfer_idle hm, fun _ => exec_spareTransfer_unused hm,
      exec_spareTransfer_busy hm, fun _ hj hu hd hp he hs => ⟨exec_spareTransfer_drains hm hj hu hd hp he hs,
        fun hd hl i => State.moveBoundary_draining i hd hl, State.moveBoundary_of_drain⟩⟩⟩
  case due =>
    exact fun s => ⟨exec_rollTestDue_disabled, State.rollDueNow_due, fun _ h => exec_rollTestDue_busy h,
      fun _ hp hi hn => ⟨fun hb => (exec_rollTestDue hp hi hn).trans (if_pos hb), fun hb => ⟨_, (exec_rollTestDue hp hi hn).trans (if_neg hb), rfl⟩⟩⟩
  case roll =>
    exact fun s o => ⟨fun h => exec_rollTestDone_not (.inl h), fun h => exec_rollTestDone_not (.inr h),
      fun h hu => ⟨exec_rollTestDone h hu, fun hl => ⟨s.rollNoted o, State.rollEnd_fails hl⟩⟩⟩
  case returned =>
    exact fun s o => ⟨fun h => exec_returnTestDone_none h o, fun _ h hu ht => ⟨exec_returnTestDone h hu ht,
      fun hk hl => (State.returnEnd_core hk).trans (if_pos hl), fun hk hl => (State.returnEnd_core hk).trans (if_neg hl),
      State.returnEnd_port_fails, fun hk hl => ⟨s.returnNoted o, State.returnEnd_spindle_fails hk hl⟩⟩⟩

end Sys2Proof.Machine
end

section
/-! SUPPORT. The queue of commands: a step runs the command at its front, and no command changes it (log 1). -/

namespace Sys2Proof.Machine

/-- Settles O1: a step looks at the front of the queue first. -/
theorem stepRunsFrontCommand : Obligations.StepRunsFrontCommand := by
  intro c rest s h
  unfold step
  rw [h]

/-- Settles O5: by the law of each command's meaning, which keeps the queue. -/
theorem commandsLeaveQueue : Obligations.CommandsLeaveQueue :=
  fun c s t h => ((exec_keep c s).keep t h).pending rfl

end Sys2Proof.Machine
end

section
/-! SUPPORT. Hang indications: the progress watchdog, stalls and fabric timeouts (R415 to R418), each from its rule. -/

namespace Sys2Proof.Machine

/-! ### The progress watchdog (R415). -/

section
variable {s : State} {ps : Fin 18}

/-- The watchdog of a spindle fires only where every condition of R415 holds. -/
theorem exec_progressWatchdogExpiry_not (h : s.rbit Reg.RST_CTL 0 = true → s.watched ps = true →
    (tget {} s.rst.dogs ps).skc = s.rd64 (Reg.SPN_SKC_LO ps) → s.heldOther ps (tget {} s.rst.dogs ps) = true →
    (s.now - (tget {} s.rst.dogs ps).since).toNat < s.rd Reg.RST_WDOG) : exec (.progressWatchdogExpiry ps) s = .next s := by
  refine if_neg fun ⟨hc, hw, hk, _, ho, ht⟩ => ?_
  exact absurd (h hc hw hk ho) (Nat.not_lt.mpr ht)

theorem exec_progressWatchdogExpiry (hc : s.rbit Reg.RST_CTL 0 = true) (hw : s.watched ps = true)
    (hk : (tget {} s.rst.dogs ps).skc = s.rd64 (Reg.SPN_SKC_LO ps)) (hs : (tget {} s.rst.dogs ps).st = s.spnState ps)
    (ho : s.heldOther ps (tget {} s.rst.dogs ps) = true) (ht : s.rd Reg.RST_WDOG ≤ (s.now - (tget {} s.rst.dogs ps).since).toNat) :
    exec (.progressWatchdogExpiry ps) s = .next (s.hang ps 1 (s.polderOf ps) 0) :=
  if_pos ⟨hc, hw, hk, hs, ho, ht⟩

/-! ### Stalls (R416). -/

theorem exec_stallHangThreshold_not (h : s.rbit Reg.RST_CTL 1 = false ∨ s.watched ps = false) :
    exec (.stallHangThreshold ps) s = .next s := if_pos h

/-- The one channel of a watched spindle, its stall timer at the threshold and not yet told, is marked and told. -/
theorem exec_stallHangThreshold_out {c : Nat} {oc : OutChan} (hc : s.rbit Reg.RST_CTL 1 = true) (hw : s.watched ps = true)
    (hq : (s.spn ps).outq = [(c, oc)]) (ht : s.rd Reg.RST_STALL_HANG ≤ oc.stall) (hh : oc.hung = false) :
    exec (.stallHangThreshold ps) s = .next ((s.setSpn ps { s.spn ps with outq := tset {} (s.spn ps).outq c { oc with hung := true } }).hang
      ps 2 (s.polderOf ps) c) := by
  have hf : (s.spn ps).outq.find? (fun c => decide (s.rd Reg.RST_STALL_HANG ≤ c.2.stall) && !c.2.hung) = some (c, oc) := by
    rw [hq]
    exact List.find?_cons_of_pos (by simp [ht, hh])
  refine (if_neg (by simp [hc, hw])).trans ?_
  rw [hf]

theorem exec_stallHangThreshold_none (ho : (s.spn ps).outq = []) (hi : (s.spn ps).inq = []) : exec (.stallHangThreshold ps) s = .next s := by
  refine ite_eq_left_iff.mpr fun _ => ?_
  rw [ho, hi]
  rfl

end

/-! ### What a hang does (R418). -/

/-- A hang recorded and counted. -/
def State.hangTold (s : State) (ps src polder cnt : Nat) : State :=
  (s.event 0x0701 (unitId 0 ps) 2 [(16, 1, src), (17, 1, 2 ^ polder), (18, 1, s.logicalN ps), (19, 4, cnt)]).sat Reg.RST_HANG_CNT 1

theorem State.hangTold_but (s : State) (ps src polder cnt : Nat) :
    s.RegsBut (s.hangTold ps src polder cnt) [Reg.CNET_EVT_LOST, Reg.RST_HANG_CNT] :=
  (s.event_but _ _ _ _).append (State.sat_but _ _ _)

/-- What follows once a hang is told: a quarantine that replays the running context ends, the context faults, those that ran on the
polder are suspects, and its reset is asked for. -/
theorem State.hang_of_told (s : State) (ps src polder cnt : Nat) : s.hang ps src polder cnt =
    (let x := s.hangTold ps src polder cnt
     let replay := x.quarActive && x.quarCtx == x.runCtx
     let y := (if replay then x.quarEnd 2 0 else x).faultRunning 0x0701
     (((tget [] y.rst.ran polder).foldl (fun s e => s.suspect e (2 ^ polder)) y).requestReset 3 (unitId 2 polder) (if replay then 6 else 2)).2) := rfl

/-- A hang of a polder on which no other context has run, while no quarantine replays the running one, faults the context and asks
for the reset. -/
theorem State.hang_eq {s : State} {ps src polder cnt : Nat} (hq : (s.quarActive && s.quarCtx == s.runCtx) = false)
    (hr : tget [] ((s.hangTold ps src polder cnt).faultRunning 0x0701).rst.ran polder = []) :
    s.hang ps src polder cnt = (((s.hangTold ps src polder cnt).faultRunning 0x0701).requestReset 3 (unitId 2 polder) 2).2 := by
  have hq' : ((s.hangTold ps src polder cnt).quarActive && (s.hangTold ps src polder cnt).quarCtx == (s.hangTold ps src polder cnt).runCtx) = false := by
    have hb := s.hangTold_but ps src polder cnt
    unfold State.quarActive State.quarCtx State.runCtx
    rw [hb.rbit (by decide), hb.rf (by decide), hb.rf (by decide)]
    exact hq
  rw [State.hang_of_told]
  simp only [hq', Bool.false_eq_true, if_false, hr, List.foldl_nil]

/-! ### Fabric timeouts (R417). -/

section
variable {s : State} {ps dcoord : Nat}

theorem State.countFtmo_not (h : s.rbit Reg.RST_CTL 2 = false ∨ s.peerBreached dcoord = true) : s.countFtmo ps dcoord = s :=
  if_pos (or_assoc.mp (.inl h))

/-- The first fabric timeout of a polder begins its window. -/
theorem State.countFtmo_first {j : Slot} (hj : s.runningSlot = some j) (hf : j.st ≠ .faulted) (hc : s.rbit Reg.RST_CTL 2 = true)
    (hp : s.peerBreached dcoord = false) (hn : tget none s.clk.ftmo (s.polderOf ps) = none) (h1 : 1 < s.rf Reg.RST_FTMO_CNT 15 0) :
    s.countFtmo ps dcoord = { s with clk := { s.clk with ftmo := tset none s.clk.ftmo (s.polderOf ps) (some (s.now, 1)) } } := by
  unfold State.countFtmo
  have hh : decide (s.rf Reg.RST_FTMO_CNT 15 0 ≤ 1) = false := by simpa using h1
  simp only [hj, hn, hc, hp, hh]
  simp [hf]

end

/-- Settles O36: each from its rule; the registers that a hang's record and count change are not the quarantine's. -/
theorem hangsComplete : Obligations.HangsComplete := by
  refine ⟨fun s ps => ⟨fun h => ?_, fun h => ⟨?_, exec_stallHangThreshold_not (.inr h)⟩, fun h => ?_, ?_, fun h => ?_, ?_, ?_⟩, ?_, ?_⟩
  · exact exec_progressWatchdogExpiry_not (fun h1 => absurd (h.symm.trans h1) (by decide))
  · exact exec_progressWatchdogExpiry_not (fun _ h2 => absurd (h.symm.trans h2) (by decide))
  · exact exec_progressWatchdogExpiry_not (fun _ _ _ _ => h)
  · exact ⟨fun h => exec_progressWatchdogExpiry_not (fun _ _ _ h4 => absurd (h.symm.trans h4) (by decide)),
      fun h => exec_progressWatchdogExpiry_not (fun _ _ h3 => absurd h3 h), exec_progressWatchdogExpiry⟩
  · exact exec_stallHangThreshold_not (.inl h)
  · exact fun c oc => exec_stallHangThreshold_out
  · exact exec_stallHangThreshold_none
  · exact fun s ps src polder cnt => State.hang_eq
  · refine fun s ps dcoord => ⟨fun h => State.countFtmo_not (.inl h), fun h => State.countFtmo_not (.inr h), ?_⟩
    intro j hj hf hc hp hn h1
    rw [State.countFtmo_first hj hf hc hp hn h1]
    exact tget_tset_eq (Option.some_ne_none _) _

end Sys2Proof.Machine
end

section
/-! SUPPORT. Checkpoints and restores: each command of the reel engine from its rule (R437 to R447). -/

namespace Sys2Proof.Machine

/-! ### Without a checkpoint or a restore. -/

theorem exec_ckpt_none {s : State} (h : s.reel.ckpt = none) (f : Flips) : exec (.ckptHeaderAcked f) s = .next s ∧
    exec .ckptDrainComplete s = .next s ∧ exec .ckptCommitted s = .next s ∧ exec .ckptDrainTimeout s = .next s := by
  change execCkptHeaderAcked f s = _ ∧ execCkptDrainComplete s = _ ∧ execCkptCommitted s = _ ∧ execCkptDrainTimeout s = _
  unfold execCkptHeaderAcked execCkptDrainComplete execCkptCommitted execCkptDrainTimeout
  rw [h]
  exact ⟨rfl, rfl, rfl, rfl⟩

theorem exec_restore_none {s : State} (h : s.reel.restore = none) (f : Flips) : exec .restoreHeaderRead s = .next s ∧
    exec (.restoreDataDone f) s = .next s := by
  change execRestoreHeaderRead s = _ ∧ execRestoreDataDone f s = _
  unfold execRestoreHeaderRead execRestoreDataDone
  rw [h]
  exact ⟨rfl, rfl⟩

/-! ### The states a checkpoint goes through (R444, R446). -/

/-- The regions of a checkpoint read in pieces, each written to every destination (R444 step 3). -/
def State.drained (s : State) (k : Ckpt) (f : Flips) : Drained :=
  k.regions.foldl (fun a r =>
    (List.range (r.len / 4096)).foldl (fun a i => drainPiece k f a (r.buf k.step + 4096 * i) 4096) a) ({ s := s } : Drained)

/-- The drain is complete: protection has ended and the release is owed (R437, R438, R444 step 4). -/
def State.ckptReleased (s : State) (k : Ckpt) : State :=
  ((({ s.setCkpt { k with phase := 3, released := true, cost := (s.now - k.start).toNat } with
    prot := s.prot.filter (fun p => decide (p.kind ≠ ProtKind.ckpt)) } : State).wf Reg.REEL_ST 1 0 2)).oweRelease k.ctx

/-- No checkpoint is active. -/
def State.ckptGone (s : State) : State := { s with reel := { s.reel with ckpt := none } }

/-- The image's step and cost shown beside its number (R444 step 6). -/
def State.imageShown (s : State) (k : Ckpt) : State := ((s.wr Reg.REEL_SEQ k.seq).wr64 Reg.REEL_STEP_LO k.step).wr64 Reg.REEL_COST_LO k.cost

/-- The reel engine shown idle, its checkpoint counted and the interval computed again (R446). -/
def State.ckptCounted (s : State) : State :=
  (((s.wf Reg.REEL_ST 31 16 0).wf Reg.REEL_ST 1 0 0).sat Reg.REEL_DONE 1).newInterval

/-- A committed checkpoint, its event not yet recorded. -/
def State.committed (s : State) (k : Ckpt) : State := (s.ckptGone.imageShown k).ckptCounted

section
variable {s : State} {k : Ckpt} (hk : s.reel.ckpt = some k)
include hk

theorem exec_ckptHeaderAcked (f : Flips) : exec (.ckptHeaderAcked f) s = if k.phase ≠ 1 ∨ s.reelQuiet = false then .next s
    else .next ((s.drained k f).s.setCkpt { k with phase := 2, digest := sha384 (s.drained k f).data, poison := (s.drained k f).poison }) := by
  change execCkptHeaderAcked f s = _
  unfold execCkptHeaderAcked
  rw [hk]
  rfl

theorem exec_ckptDrainComplete : exec .ckptDrainComplete s = if k.phase ≠ 2 ∨ s.reelQuiet = false then .next s
    else .next (s.ckptReleased k).payRunning.ckptValid := by
  change execCkptDrainComplete s = _
  unfold execCkptDrainComplete
  rw [hk]
  rfl

theorem exec_ckptCommitted : exec .ckptCommitted s = if k.phase ≠ 4 ∨ s.reelQuiet = false then .next s
    else .next ((s.committed k).event 0x0721 0x201C 1 [(16, 2, k.ctx), (18, 4, k.seq), (22, 1, if k.poison then 1 else 0)]) := by
  change execCkptCommitted s = _
  unfold execCkptCommitted
  rw [hk]
  rfl

theorem exec_ckptDrainTimeout : exec .ckptDrainTimeout s =
    if k.phase ≤ 2 ∧ s.rd Reg.REEL_DRAIN_TMO * 100000000 ≤ (s.now - k.start).toNat then
      .next (s.ckptFail 3 ((k.dests.head?.map (·.coord)).getD 0)).payRunning
    else .next s := by
  change execCkptDrainTimeout s = _
  unfold execCkptDrainTimeout
  rw [hk]
  dsimp only
  cases k.dests <;> rfl

end

/-! #### The drain. -/

theorem State.drained_nil {s : State} {k : Ckpt} (h : k.regions = []) (f : Flips) : s.drained k f = { s := s } := by
  unfold State.drained
  rw [h]
  rfl

/-- The drain of one region of one piece to no destination is a read. -/
theorem State.drained_piece {s : State} {k : Ckpt} {r : CkRegion} (h : k.regions = [r]) (hl : r.len = 4096) (hd : k.dests = []) (f : Flips) :
    let d := s.devRead .reel (r.buf k.step) 4096 f
    s.drained k f = { s := d.2.2.2, data := d.1, off := 8192, poison := d.2.1 != 0 } := by
  unfold State.drained
  rw [h, List.foldl_cons, List.foldl_nil, hl]
  change drainPiece k f _ _ _ = _
  unfold drainPiece
  rw [hd]
  simp

theorem State.ckptReleased_sets (s : State) (k : Ckpt) :
    (s.ckptReleased k).reel.ckpt = some { k with phase := 3, released := true, cost := (s.now - k.start).toNat } ∧
      (s.ckptReleased k).prot = s.prot.filter (fun p => decide (p.kind ≠ ProtKind.ckpt)) ∧ (s.ckptReleased k).mem = s.mem ∧
      (s.ckptReleased k).log = s.log := by
  unfold State.ckptReleased
  refine ⟨?_, (State.oweRelease_keep ..).prot rfl, (State.oweRelease_keep ..).mem rfl, (State.oweRelease_keep ..).log rfl⟩
  rw [(State.oweRelease_keep ..).reel rfl]
  rfl

theorem State.ckptReleased_regs {s : State} (i : s.Inv) (k : Ckpt) :
    (s.ckptReleased k).rf Reg.REEL_ST 1 0 = 2 ∧ s.RegsBut (s.ckptReleased k) [Reg.REEL_ST] := by
  have hr : (s.ckptReleased k).regs = (s.wf Reg.REEL_ST 1 0 2).regs := (State.oweRelease_keep ..).regs rfl
  exact ⟨(State.rf_congr hr _ _ _).trans (i.shows_wf Reg.REEL_ST (by decide) (by decide) (by decide)).reads,
    (s.wf_but _ _ _ _).trans (State.RegsBut.of_regs hr _)⟩

/-! #### The commit. -/

/-- What a commit writes beside the image's number, step and cost. -/
def commitRegs : List Nat := [Reg.REEL_ST, Reg.REEL_DONE, Reg.REEL_IVL]

theorem State.ckptCounted_but (s : State) : s.RegsBut s.ckptCounted commitRegs :=
  ((((s.wf_but _ _ _ _).trans (State.wf_but _ _ _ _ _)).append (State.sat_but _ _ _)).append (State.wr_but _ _ _))

theorem State.imageShown_keep (s : State) (k : Ckpt) : Keep 0x3FFFFFFFB s (s.imageShown k) :=
  Keep.via (State.wr64_keep ..) rfl <| Keep.via (State.wr64_keep ..) rfl (State.wr_keep ..)

theorem State.ckptCounted_keep (s : State) : Keep 0x3FFFFFFFB s s.ckptCounted :=
  Keep.via (State.newInterval_keep _) rfl <| Keep.via (State.sat_keep ..) rfl <| Keep.via (State.wf_keep ..) rfl (State.wf_keep ..)

theorem State.imageShown_but (s : State) (k : Ckpt) : s.RegsBut (s.imageShown k)
    [Reg.REEL_SEQ, Reg.REEL_STEP_LO, Reg.REEL_STEP_LO + 4, Reg.REEL_COST_LO, Reg.REEL_COST_LO + 4] :=
  ((s.wr_but _ _).append (State.wr64_but _ _ _)).append (State.wr64_but _ _ _)

theorem State.imageShown_shows {s : State} (i : s.Inv) {k : Ckpt} (hs : k.seq < 2 ^ 32) (hv : k.step < 2 ^ 64) (hc : k.cost < 2 ^ 64) :
    (s.imageShown k).rd Reg.REEL_SEQ = k.seq ∧ (s.imageShown k).rd64 Reg.REEL_STEP_LO = k.step ∧ (s.imageShown k).rd64 Reg.REEL_COST_LO = k.cost := by
  have i1 : (s.wr Reg.REEL_SEQ k.seq).Inv := (State.wr_keep ..).inv i
  have i2 : ((s.wr Reg.REEL_SEQ k.seq).wr64 Reg.REEL_STEP_LO k.step).Inv := (State.wr64_keep ..).inv i1
  have hcost := State.wr64_but ((s.wr Reg.REEL_SEQ k.seq).wr64 Reg.REEL_STEP_LO k.step) Reg.REEL_COST_LO k.cost
  refine ⟨?_, ?_, (State.rd64_wr64_self i2.regs _ _).trans (Nat.mod_eq_of_lt hc)⟩
  · exact (hcost.rd (by decide)).trans (((State.wr64_but _ _ _).rd (by decide)).trans (i.holds_wr Reg.REEL_SEQ hs).reads)
  · exact (hcost.rd64 (by decide) (by decide)).trans ((State.rd64_wr64_self i1.regs _ _).trans (Nat.mod_eq_of_lt hv))

theorem State.ckptCounted_shows {s : State} (i : s.Inv) : s.ckptCounted.rf Reg.REEL_ST 1 0 = 0 ∧ s.ckptCounted.rf Reg.REEL_ST 31 16 = 0 ∧
    s.ckptCounted.rd Reg.REEL_DONE = min (s.rd Reg.REEL_DONE + 1) 0xFFFFFFFF := by
  have h1 := i.shows_wf Reg.REEL_ST (hi := 31) (lo := 16) (v := 0) (by decide) (by decide) (by decide)
  have h2 := h1.inv.shows_wf Reg.REEL_ST (hi := 1) (lo := 0) (v := 0) (by decide) (by decide) (by decide)
  have hb : ((s.wf Reg.REEL_ST 31 16 0).wf Reg.REEL_ST 1 0 0).RegsBut s.ckptCounted [Reg.REEL_DONE, Reg.REEL_IVL] :=
    (State.sat_but _ _ _).append (State.wr_but _ _ _)
  refine ⟨(hb.rf (by decide) _ _).trans h2.reads, ?_, ?_⟩
  · exact (hb.rf (by decide) _ _).trans (h1.wf_disjoint (by decide) (by decide) (.inr (by decide)) _).reads
  · refine ((State.wr_but _ _ _).rd (by decide)).trans (State.sat_counts h2.inv ?_)
    exact ((s.wf_but _ _ _ _).trans (State.wf_but _ _ _ _ _)).rd (by decide)

theorem State.ckptGone_keep (s : State) : Keep 0x3FDFFFFFF s s.ckptGone := Keep.setReel rfl (Keep.refl _ _)

theorem State.committed_keep (s : State) (k : Ckpt) : Keep 0x3FDFFFFFB s (s.committed k) :=
  Keep.via (State.ckptCounted_keep _) rfl <| Keep.via (State.imageShown_keep ..) rfl (s.ckptGone_keep.mono rfl)

/-- CKPT_COMMITTED (R444 step 6, R446). -/
theorem runs_ckptCommitted {s : State} {k : Ckpt} (hk : s.reel.ckpt = some k) (h4 : k.phase = 4) (hq : s.reelQuiet = true) (hs : k.seq < 2 ^ 32)
    (hv : k.step < 2 ^ 64) (hc : k.cost < 2 ^ 64) :
    Runs .ckptCommitted s [.regs, .log, .nodes, .irq, .reel, .logN] (fun t => t.reel = { s.reel with ckpt := none } ∧ t.rd Reg.REEL_SEQ = k.seq ∧
      t.rd64 Reg.REEL_STEP_LO = k.step ∧ t.rd64 Reg.REEL_COST_LO = k.cost ∧ t.rf Reg.REEL_ST 1 0 = 0 ∧ t.rf Reg.REEL_ST 31 16 = 0 ∧
      t.rd Reg.REEL_DONE = min (s.rd Reg.REEL_DONE + 1) 0xFFFFFFFF ∧
      (s.EventRoom 0x0721 0x201C → t.Recorded (s.eventRec 0x0721 0x201C 1 [(16, 2, k.ctx), (18, 4, k.seq), (22, 1, if k.poison then 1 else 0)]))) := by
  have hkeep := s.committed_keep k
  have hshown := (State.imageShown_but s.ckptGone k)
  have hcount := (s.ckptGone.imageShown k).ckptCounted_but
  have he : (s.committed k).RegsBut _ [Reg.CNET_EVT_LOST] :=
    (s.committed k).event_but 0x0721 0x201C 1 [(16, 2, k.ctx), (18, 4, k.seq), (22, 1, if k.poison then 1 else 0)]
  have hrest := hcount.append he
  refine Runs.of_next ((exec_ckptCommitted hk).trans (if_neg (by simp [h4, hq])))
    ((Keep.via (m := 0x3EDFDFCFB) (State.event_keep ..) rfl (hkeep.mono rfl)).alters _ (by decide)) (fun i => ?_)
  have ig : s.ckptGone.Inv := s.ckptGone_keep.inv i
  obtain ⟨hseq, hstep, hcost⟩ := State.imageShown_shows ig hs hv hc
  obtain ⟨hphase, hctx, hdone⟩ := State.ckptCounted_shows ((State.imageShown_keep s.ckptGone k).inv ig)
  refine ⟨?_, (hrest.rd (by decide)).trans hseq, (hrest.rd64 (by decide) (by decide)).trans hstep, (hrest.rd64 (by decide) (by decide)).trans hcost,
    (he.rf (by decide) _ _).trans hphase, (he.rf (by decide) _ _).trans hctx, (he.rd (by decide)).trans (hdone.trans ?_), ?_⟩
  · rw [(State.event_keep ..).reel rfl]
    exact ((State.ckptCounted_keep _).reel rfl).trans ((State.imageShown_keep ..).reel rfl)
  · rw [hshown.rd (by decide)]
    rfl
  · exact State.event_recorded_of_keep hkeep rfl ((State.RegsBut.of_regs (t := s.ckptGone) rfl []).append (hshown.append hcount)) (by decide) _ _

/-! #### A failure (R445). -/

/-- A failed checkpoint gone, its writes left to no one, counted and told. -/
def State.ckptFailed (s : State) (k : Ckpt) (cause coord : Nat) : State :=
  let left (o : FabOp) : FabOp := if o.who = .ckpt then { o with who := .stray } else o
  ((((({ s with reel := { s.reel with ckpt := none }, prot := s.prot.filter (fun p => decide (p.kind ≠ ProtKind.ckpt))
                fab := { s.fab with ops := s.fab.ops.map left } } : State).wf Reg.REEL_ST 1 0 0).wf Reg.REEL_ST 31 16 0).sat Reg.REEL_FAIL 1).event
    0x0722 0x201C 2 [(16, 1, cause), (17, 2, k.ctx), (19, 2, coord)])

/-- Of what else fails with a checkpoint, only the slot of its context changes. -/
theorem State.ckptFail_keep_slot {s : State} {k : Ckpt} (hk : s.reel.ckpt = some k) (cause coord : Nat) :
    Keep 0x3FFFFDFFF (s.ckptFailed k cause coord) (s.ckptFail cause coord) := by
  unfold State.ckptFail
  rw [hk]
  dsimp only
  split
  · exact Keep.ite (State.setSlot_keep ..) (Keep.refl _ _)
  · exact Keep.refl _ _

theorem State.ckptFail_sets {s : State} {k : Ckpt} (hk : s.reel.ckpt = some k) (cause coord : Nat) (i : s.Inv) :
    (s.ckptFail cause coord).reel = { s.reel with ckpt := none } ∧
      (s.ckptFail cause coord).prot = s.prot.filter (fun p => decide (p.kind ≠ ProtKind.ckpt)) ∧
      (s.ckptFail cause coord).rd Reg.REEL_FAIL = min (s.rd Reg.REEL_FAIL + 1) 0xFFFFFFFF ∧ (s.ckptFail cause coord).mem = s.mem := by
  have hf := State.ckptFail_keep_slot hk cause coord
  refine ⟨?_, ?_, ?_, ?_⟩
  · exact (hf.reel rfl).trans ((State.event_keep ..).reel rfl)
  · exact (hf.prot rfl).trans ((State.event_keep ..).prot rfl)
  · refine (State.rd_congr (hf.regs rfl) _).trans (((State.event_but _ _ _ _ _).rd (by decide)).trans (State.sat_counts ?_ ?_))
    · refine (State.wf_keep ..).inv ((State.wf_keep ..).inv ?_)
      exact ⟨i.mem, i.poison, i.regs, i.flash, i.log, i.nodes, i.spns, i.chans, i.latch, i.cq⟩
    · exact ((State.wf_but _ _ _ _ _).trans (State.wf_but _ _ _ _ _)).rd (by decide)
  · exact (hf.mem rfl).trans ((State.event_keep ..).mem rfl)

/-! ### A restore (R447). -/

section
variable {s : State} {r : Restore} (hr : s.reel.restore = some r)
include hr

theorem exec_restoreHeaderRead_not (h : r.phase ≠ 1 ∨ s.restoreQuiet = false) : exec .restoreHeaderRead s = .next s := by
  change execRestoreHeaderRead s = _
  unfold execRestoreHeaderRead
  rw [hr]
  exact if_pos h

theorem exec_restoreDataDone_not (h : r.phase ≠ 2 ∨ s.restoreQuiet = false) (f : Flips) : exec (.restoreDataDone f) s = .next s := by
  change execRestoreDataDone f s = _
  unfold execRestoreDataDone
  rw [hr]
  exact if_pos h

section
variable (h1 : r.phase = 1) (hq : s.restoreQuiet = true)
include h1 hq

theorem exec_restoreHeaderRead_bad (hb : r.bad = true) : exec .restoreHeaderRead s = .next (s.restoreFail 3) := by
  change execRestoreHeaderRead s = _
  unfold execRestoreHeaderRead
  rw [hr]
  exact (if_neg (by simp [h1, hq])).trans (if_pos hb)

theorem exec_restoreHeaderRead_noJob (hb : r.bad = false) (hj : s.restoreJob r = none) : exec .restoreHeaderRead s = .next (s.restoreFail 1) := by
  change execRestoreHeaderRead s = _
  unfold execRestoreHeaderRead
  rw [hr]
  refine (if_neg (by simp [h1, hq])).trans ((if_neg (by simp [hb])).trans ?_)
  rw [hj]

/-- A header of the context's job: where it fits, the data are asked for in requests of 16 MiB at most. -/
theorem exec_restoreHeaderRead_job {j : Slot} {d : CkDesc} (hb : r.bad = false) (hj : s.restoreJob r = some (j, d)) :
    exec .restoreHeaderRead s = if headerFits r.hdr j d then
      .next ((List.range ((imageLen d.regions - 4096 + 0xFFFFFF) / 0x1000000)).foldl
        (fun s i => s.restoreRead r (4096 + i * 0x1000000) (min 0x1000000 (imageLen d.regions - 4096 - i * 0x1000000)))
        { s with reel := { s.reel with restore := some { r with phase := 2, data := List.replicate (imageLen d.regions - 4096) 0 } } })
      else .next (s.restoreFail 1) := by
  change execRestoreHeaderRead s = _
  unfold execRestoreHeaderRead
  rw [hr]
  refine (if_neg (by simp [h1, hq])).trans ((if_neg (by simp [hb])).trans ?_)
  rw [hj]

theorem exec_restoreHeaderRead_asks {j : Slot} {d : CkDesc} (hb : r.bad = false) (hj : s.restoreJob r = some (j, d))
    (hf : headerFits r.hdr j d = true) (hl : 4096 < imageLen d.regions) (hu : imageLen d.regions ≤ 4096 + 0x1000000) :
    exec .restoreHeaderRead s = .next (({ s with reel := { s.reel with restore := some { r with
      phase := 2, data := List.replicate (imageLen d.regions - 4096) 0 } } } : State).restoreRead r 4096 (imageLen d.regions - 4096)) := by
  have hn : (imageLen d.regions - 4096 + 0xFFFFFF) / 0x1000000 = 1 := by omega
  have hm : min 0x1000000 (imageLen d.regions - 4096) = imageLen d.regions - 4096 := by omega
  rw [exec_restoreHeaderRead_job hr h1 hq hb hj, if_pos hf, hn]
  simp only [List.range_one, List.foldl_cons, List.foldl_nil, Nat.zero_mul, Nat.add_zero, Nat.sub_zero, hm]

end

section
variable (h2 : r.phase = 2) (hq : s.restoreQuiet = true) (f : Flips)
include h2 hq

theorem exec_restoreDataDone_noJob (hj : s.restoreJob r = none) : exec (.restoreDataDone f) s = .next (s.restoreFail 1) := by
  change execRestoreDataDone f s = _
  unfold execRestoreDataDone
  rw [hr]
  refine (if_neg (by simp [h2, hq])).trans ?_
  rw [hj]

/-- The data of the context's job in their buffers: their fate is that of the reads and the digest. -/
theorem exec_restoreDataDone_job {j : Slot} {d : CkDesc} (hj : s.restoreJob r = some (j, d)) :
    let x := s.putRegions j.job.startStep.toNat f d.regions r.data r.pois
    exec (.restoreDataDone f) s = if r.bad then .next (x.restoreFail 3) else if sha384 r.data ≠ sliceB r.hdr 0x90 48 then .next (x.restoreFail 2)
      else .next (
        (((({ x with reel := { x.reel with restore := none } } : State).modSlot (r.ctx % 16) (fun j => { j with
          st := .ready, vloss := some (BitVec.ofNat 32 (rdLE r.hdr 0x80 4)) })).wf Reg.REEL_ST 7 6 2).event 0x0723 0x201C 1
            [(16, 2, r.ctx), (18, 4, rdLE r.hdr 8 4)]).finish .restore stOK (toLE 4 (rdLE r.hdr 8 4))) := by
  change execRestoreDataDone f s = _
  unfold execRestoreDataDone
  rw [hr]
  refine (if_neg (by simp [h2, hq])).trans ?_
  rw [hj]
  rfl

end

end

/-- Settles O37: each command from its rule; the commit's registers by the frames of its writes. -/
theorem checkpointsComplete : Obligations.CheckpointsComplete := by
  refine ⟨fun s f h => exec_ckpt_none h f, fun s f k hk => ⟨fun hq => ?_, fun h => ?_, fun h => ?_, fun h => ?_, fun h1 hq hn => ?_, fun r h1 hq hr hl hd => ?_,
    fun h2 hq => ?_, runs_ckptCommitted hk, fun h2 ht => ?_, fun h => ?_, State.ckptFail_sets hk⟩, fun s f h => exec_restore_none h f,
    fun s f r hr => ⟨fun hq => ?_, fun h => ?_, fun h => ?_, fun h1 hq => ?_, fun h2 hq => ?_⟩⟩
  · exact ⟨(exec_ckptHeaderAcked hk f).trans (if_pos (.inr hq)), (exec_ckptDrainComplete hk).trans (if_pos (.inr hq)),
      (exec_ckptCommitted hk).trans (if_pos (.inr hq))⟩
  · exact (exec_ckptHeaderAcked hk f).trans (if_pos (.inl h))
  · exact (exec_ckptDrainComplete hk).trans (if_pos (.inl h))
  · exact (exec_ckptCommitted hk).trans (if_pos (.inl h))
  · rw [exec_ckptHeaderAcked hk f, if_neg (by simp [h1, hq]), State.drained_nil hn]
    rfl
  · rw [exec_ckptHeaderAcked hk f, if_neg (by simp [h1, hq]), State.drained_piece hr hl hd]
    dsimp only [State.setCkpt]
  · obtain ⟨hc, hp, hm, hl⟩ := s.ckptReleased_sets k
    exact ⟨s.ckptReleased k, (exec_ckptDrainComplete hk).trans (if_neg (by simp [h2, hq])), hc, hp, hm, hl, fun i => State.ckptReleased_regs i k⟩
  · exact (exec_ckptDrainTimeout hk).trans (if_pos ⟨h2, ht⟩)
  · exact (exec_ckptDrainTimeout hk).trans (if_neg (by omega))
  · exact ⟨exec_restoreHeaderRead_not hr (.inr hq), exec_restoreDataDone_not hr (.inr hq) f⟩
  · exact exec_restoreHeaderRead_not hr (.inl h)
  · exact exec_restoreDataDone_not hr (.inl h) f
  · refine ⟨exec_restoreHeaderRead_bad hr h1 hq, exec_restoreHeaderRead_noJob hr h1 hq, fun j d hb hj hf => ?_,
      fun j d => exec_restoreHeaderRead_asks hr h1 hq⟩
    exact (exec_restoreHeaderRead_job hr h1 hq hb hj).trans (if_neg (by simp [hf]))
  · refine ⟨exec_restoreDataDone_noJob hr h2 hq f, fun j d hj => ?_⟩
    have he := exec_restoreDataDone_job hr h2 hq f hj
    exact ⟨fun hb => he.trans (if_pos hb), fun hb hd => he.trans ((if_neg (by simp [hb])).trans (if_pos hd)),
      fun hb hd => he.trans ((if_neg (by simp [hb])).trans (if_neg (not_not_intro hd)))⟩

end Sys2Proof.Machine
end

section
/-! SUPPORT. The local command port: CMD_LCP_IN, RESYNC and the assembly's timer, each from its rule (R513, R516, R517). -/

namespace Sys2Proof.Machine

/-! ### A packet discarded. -/

theorem State.lcpDrop_but (s : State) (cause : Nat) : s.RegsBut (s.lcpDrop cause) [Reg.CNET_EVT_LOST] :=
  (State.RegsBut.of_regs (t := { s with cq := { s.cq with asm := [], asmAt := none } }) rfl _).trans (State.event_but _ _ _ _ _)

theorem State.lcpDrop_cq (s : State) (cause : Nat) : (s.lcpDrop cause).cq = { s.cq with asm := [], asmAt := none } :=
  (State.event_keep ..).cq rfl

/-- What a discarded packet leaves of the port. -/
theorem State.asmCleared_keep (s : State) : Keep 0x3DFFFFFFF s { s with cq := { s.cq with asm := [], asmAt := none } } :=
  Keep.setCq rfl id (Keep.refl _ _)

/-- Words discarded in a state that keeps the tick, the records and the running context of `s` are recorded as of `s` (R517). -/
theorem State.lcpDrop_recorded {s t : State} {m : Nat} {l : List Nat} (k : Keep m s t) (hm : sub 0x302 m = true) (b : s.RegsBut t l)
    (hl : Reg.SKN_STATUS ∉ l) (cause : Nat) (hr : s.EventRoom 0x0B03 devUnit) :
    (t.lcpDrop cause).Recorded (s.eventRec 0x0B03 devUnit 1 [(16, 1, cause), (17, 2, t.cq.asm.length)]) :=
  State.event_recorded_of_keep (Keep.via (m := 0x302) t.asmCleared_keep rfl (k.mono hm)) rfl (b.trans (State.RegsBut.of_regs rfl _)) hl _ _ hr

/-! ### CMD_LCP_IN_WRITE (R516). -/

section
variable {s : State} {w : Word}

theorem exec_cmdLcpInWrite_ignored (h : s.cuardUp = false ∨ s.cq.discarding = true) : exec (.cmdLcpInWrite w) s = .next s :=
  congrArg _ (if_pos h)

/-- The port with one word more of a packet assembled (R516). -/
def State.lcpPut (s : State) (w : Word) : State :=
  { s with cq := { s.cq with asm := s.cq.asm ++ [w], asmAt := some (s.cq.asmAt.getD s.now) } }

theorem State.lcpPut_length (s : State) (w : Word) : (s.lcpPut w).cq.asm.length = s.cq.asm.length + 1 := List.length_append

theorem State.lcpPut_keep (s : State) (w : Word) : Keep 0x3DFFFFFFF s (s.lcpPut w) := Keep.setCq rfl id (Keep.refl _ _)

variable (hu : s.cuardUp = true) (hd : s.cq.discarding = false)
include hu hd

theorem exec_cmdLcpInWrite_short (h : s.cq.asm.length < 5) : exec (.cmdLcpInWrite w) s = .next (s.lcpPut w) := by
  have hl := s.lcpPut_length w
  exact congrArg _ ((if_neg (by simp [hu, hd])).trans (if_pos (hl.trans_lt (by omega))))

variable (h : 5 ≤ s.cq.asm.length)
include h

/-- The packet's header has arrived: what follows is what its length asks for. -/
theorem exec_cmdLcpInWrite_header : exec (.cmdLcpInWrite w) s = .next ((pkWant (asmBytes (s.lcpPut w).cq.asm)).elim (s.lcpPut w).lcpBad
    (fun n => if n ≤ 4 * (s.lcpPut w).cq.asm.length then (s.lcpPut w).lcpTake n else s.lcpPut w)) := by
  have hl := s.lcpPut_length w
  refine congrArg _ ((if_neg (by simp [hu, hd])).trans ((if_neg (not_lt_of_ge (hl.symm ▸ Nat.succ_le_succ h))).trans ?_))
  change _ = (pkWant (asmBytes (s.cq.asm ++ [w]))).elim _ _
  dsimp only
  cases pkWant (asmBytes (s.cq.asm ++ [w])) <;> rfl

theorem exec_cmdLcpInWrite_bad (hw : pkWant (asmBytes (s.lcpPut w).cq.asm) = none) :
    exec (.cmdLcpInWrite w) s = .next (s.lcpPut w).lcpBad := by
  rw [exec_cmdLcpInWrite_header hu hd h, hw, Option.elim_none]

/-- A header that holds: the packet is taken once it is whole. -/
theorem exec_cmdLcpInWrite_good {n : Nat} (hw : pkWant (asmBytes (s.lcpPut w).cq.asm) = some n) :
    exec (.cmdLcpInWrite w) s = .next (if n ≤ 4 * (s.lcpPut w).cq.asm.length then (s.lcpPut w).lcpTake n else s.lcpPut w) := by
  rw [exec_cmdLcpInWrite_header hu hd h, hw, Option.elim_some]

/-- Four replies wait: the packet is discarded and counted (R516, R517). -/
theorem runs_cmdLcpInWrite_full {n : Nat} (hw : pkWant (asmBytes (s.lcpPut w).cq.asm) = some n) (hn : n ≤ 4 * (s.lcpPut w).cq.asm.length)
    (hr : 4 ≤ s.cq.replies.length) :
    Runs (.cmdLcpInWrite w) s [.regs, .log, .nodes, .irq, .logN, .cq] (fun t => t.cq = { s.cq with asm := [], asmAt := none } ∧
      t.rbit Reg.CMD_LCP_ST 2 = true ∧ t.rd Reg.CMD_LCP_DROP_CNT = min (s.rd Reg.CMD_LCP_DROP_CNT + 1) 0xFFFFFFFF ∧
      (s.EventRoom 0x0B03 devUnit → t.Recorded (s.eventRec 0x0B03 devUnit 1 [(16, 1, 3), (17, 2, (s.cq.asm ++ [w]).length)]))) := by
  have hk : Keep 0x3DFFFFFFB s (((s.lcpPut w).wf Reg.CMD_LCP_ST 2 2 1).sat Reg.CMD_LCP_DROP_CNT 1) :=
    Keep.via (State.sat_keep ..) rfl <| Keep.via (State.wf_keep ..) rfl ((s.lcpPut_keep w).mono rfl)
  have hb : s.RegsBut (((s.lcpPut w).wf Reg.CMD_LCP_ST 2 2 1).sat Reg.CMD_LCP_DROP_CNT 1) [Reg.CMD_LCP_ST, Reg.CMD_LCP_DROP_CNT] :=
    (((State.RegsBut.of_regs (t := s.lcpPut w) rfl _).trans (State.wf_but _ _ _ _ _))).append (State.sat_but _ _ _)
  have he : exec (.cmdLcpInWrite w) s = .next ((((s.lcpPut w).wf Reg.CMD_LCP_ST 2 2 1).sat Reg.CMD_LCP_DROP_CNT 1).lcpDrop 3) :=
    (exec_cmdLcpInWrite_good hu hd h hw).trans (congrArg _ ((if_pos hn).trans (if_pos hr)))
  refine Runs.of_next he ((Keep.via (m := 0x3CFFDFCFB) (State.lcpDrop_keep ..) rfl (hk.mono rfl)).alters _ (by decide))
    (fun i => ⟨State.lcpDrop_cq _ _, ?_, ?_, State.lcpDrop_recorded hk rfl hb (by decide) 3⟩)
  · have hs := ((s.lcpPut_keep w).inv i).shows_wf Reg.CMD_LCP_ST (hi := 2) (lo := 2) (v := 1) (by decide) (by decide) (by decide)
    exact ((hs.of_but (State.sat_keep ..) (State.sat_but _ _ _) (by decide)).of_but (State.lcpDrop_keep _ 3) (State.lcpDrop_but _ 3) (by decide)).rbit
  · refine ((State.lcpDrop_but _ _).rd (by decide)).trans (State.sat_counts ((State.wf_keep ..).inv ((s.lcpPut_keep w).inv i)) ?_)
    exact (State.wf_but _ _ _ _ _).rd (by decide)

end

/-! ### RESYNC and the timer (R517). -/

section
variable {s : State}

/-- Nothing is assembled, and the port discards no more. -/
def State.resynced (s : State) : State := { s with cq := { s.cq with asm := [], asmAt := none, discarding := false } }

theorem State.resynced_keep (s : State) : Keep 0x3DFFFFFFF s s.resynced := Keep.setCq rfl id (Keep.refl _ _)

theorem State.resynced_cq (s : State) : s.resynced.cq = { s.cq with asm := [], asmAt := none, discarding := false } := rfl

theorem exec_resync (s : State) : exec .resync s = .next (if s.cq.asm.isEmpty then s else s.lcpDrop 4).resynced := rfl

theorem runs_resync_idle (h : s.cq.asm = []) : Runs .resync s [.cq] (fun t => t.cq = { s.cq with asmAt := none, discarding := false }) := by
  have he : exec .resync s = .next s.resynced := (exec_resync s).trans (congrArg (fun x : State => Host.Outcome.next x.resynced) (if_pos (by simp [h])))
  refine Runs.of_next he (s.resynced_keep.alters _ (by decide)) (fun _ => ?_)
  exact s.resynced_cq.trans (congrArg (fun l : List Word => ({ s.cq with asm := l, asmAt := none, discarding := false } : Cq)) h.symm)

theorem runs_resync_drops (h : s.cq.asm ≠ []) : Runs .resync s [.regs, .log, .nodes, .irq, .logN, .cq] (fun t =>
    t.cq = { s.cq with asm := [], asmAt := none, discarding := false } ∧
    (s.EventRoom 0x0B03 devUnit → t.Recorded (s.eventRec 0x0B03 devUnit 1 [(16, 1, 4), (17, 2, s.cq.asm.length)]))) := by
  have he : exec .resync s = .next (s.lcpDrop 4).resynced := (exec_resync s).trans (congrArg (fun x : State => Host.Outcome.next x.resynced) (if_neg (by simp [h])))
  refine Runs.of_next he ((Keep.via (m := 0x3CFFDFCFB) (State.resynced_keep _) rfl (State.lcpDrop_keep ..)).alters _ (by decide)) (fun _ => ⟨?_, fun hr => ?_⟩)
  · rw [State.resynced_cq, State.lcpDrop_cq]
  · exact (State.lcpDrop_recorded (Keep.refl 0x302 s) rfl (State.RegsBut.refl s []) (by decide) 4 hr).keep (State.resynced_keep _) rfl

theorem exec_lcpAssemblyTimeout_none (h : s.cq.asmAt = none) : exec .lcpAssemblyTimeout s = .next s := by
  change execLcpAssemblyTimeout s = _
  unfold execLcpAssemblyTimeout
  rw [h]

theorem exec_lcpAssemblyTimeout {a : DWord} (h : s.cq.asmAt = some a) : exec .lcpAssemblyTimeout s =
    if s.rd Reg.CMD_LCP_TMO ≤ (s.now - a).toNat then .next ((s.wf Reg.CMD_LCP_ST 1 1 1).lcpDrop 1) else .next s := by
  change execLcpAssemblyTimeout s = _
  unfold execLcpAssemblyTimeout
  rw [h]

theorem runs_lcpAssemblyTimeout {a : DWord} (h : s.cq.asmAt = some a) (ht : s.rd Reg.CMD_LCP_TMO ≤ (s.now - a).toNat) :
    Runs .lcpAssemblyTimeout s [.regs, .log, .nodes, .irq, .logN, .cq] (fun t =>
      t.cq = { s.cq with asm := [], asmAt := none } ∧ t.rbit Reg.CMD_LCP_ST 1 = true ∧
      (s.EventRoom 0x0B03 devUnit → t.Recorded (s.eventRec 0x0B03 devUnit 1 [(16, 1, 1), (17, 2, s.cq.asm.length)]))) := by
  refine Runs.of_next ((exec_lcpAssemblyTimeout h).trans (if_pos ht))
    ((Keep.via (m := 0x3CFFDFCFB) (State.lcpDrop_keep ..) rfl ((s.wf_keep ..).mono rfl)).alters _ (by decide))
    (fun i => ⟨State.lcpDrop_cq _ _, ?_, State.lcpDrop_recorded (s.wf_keep ..) rfl (s.wf_but _ _ _ _) (by decide) 1⟩)
  have hs := i.shows_wf Reg.CMD_LCP_ST (hi := 1) (lo := 1) (v := 1) (by decide) (by decide) (by decide)
  exact (hs.of_but (State.lcpDrop_keep _ 1) (State.lcpDrop_but _ 1) (by decide)).rbit

end

/-- Settles O41: a word joins the packet, and what the whole or broken packet meets is its rule's. -/
theorem localPortCompletes : Obligations.LocalPortCompletes := by
  refine ⟨fun s w => ⟨fun h => exec_cmdLcpInWrite_ignored (.inl h), fun h => exec_cmdLcpInWrite_ignored (.inr h), fun hu hd => ?_⟩,
    fun s => ⟨runs_resync_idle, runs_resync_drops, exec_lcpAssemblyTimeout_none, fun a ha ht => ?_, fun a => runs_lcpAssemblyTimeout⟩⟩
  · refine ⟨exec_cmdLcpInWrite_short hu hd, exec_cmdLcpInWrite_bad hu hd, fun n h5 hw hn => ?_, fun n h5 hw hn hr => ?_,
      fun n h5 hw => runs_cmdLcpInWrite_full hu hd h5 hw⟩
    · exact (exec_cmdLcpInWrite_good hu hd h5 hw).trans (congrArg _ (if_neg (Nat.not_le.mpr hn)))
    · exact (exec_cmdLcpInWrite_good hu hd h5 hw).trans (congrArg _ ((if_pos hn).trans (if_neg (Nat.not_le.mpr hr))))
  · exact (exec_lcpAssemblyTimeout ha).trans (if_neg (Nat.not_le.mpr ht))

end Sys2Proof.Machine
end

section
/-! SUPPORT. The management subsystem: faults of the cores, the console, the port and PPS, each from its rule (R478 to R493). -/

namespace Sys2Proof.Machine

/-! ### The cores (R478, R481, R493). -/

section
variable (s : State) (h : Fin 8) (fetch : Bool) (addr : Nat)

/-- CORE_POISON_FAULT (R481): counted, recorded and trapped. -/
theorem runs_corePoisonFault : Runs (.corePoisonFault h fetch addr) s [.regs, .out, .log, .nodes, .irq, .logN] (fun t =>
    t.out = s.out ++ [.trap h fetch addr] ∧ t.rd Reg.MGMT_POISON_CNT = min (s.rd Reg.MGMT_POISON_CNT + 1) 0xFFFFFFFF ∧
    (s.EventRoom 0x0A0E (unitId 9 h) → t.Recorded (s.eventRec 0x0A0E (unitId 9 h) 1 [(16, 5, addr), (21, 1, if fetch then 1 else 0)]))) := by
  have he := State.event_but (s.sat Reg.MGMT_POISON_CNT 1) 0x0A0E (unitId 9 h) 1 [(16, 5, addr), (21, 1, boolN fetch)]
  have hk : Keep 0x3EFFDFCFB s ((s.sat Reg.MGMT_POISON_CNT 1).event 0x0A0E (unitId 9 h) 1 [(16, 5, addr), (21, 1, boolN fetch)]) :=
    Keep.via (State.event_keep ..) rfl ((s.sat_keep _ _).mono rfl)
  refine Runs.of_next rfl ((Keep.via (m := 0x3EFFDFCBB) (State.send_keep ..) rfl (hk.mono rfl)).alters _ (by decide)) (fun i => ⟨?_, ?_, fun hr => ?_⟩)
  · exact congrArg (· ++ [Msg.trap h fetch addr]) (hk.out rfl)
  · exact (State.rd_congr ((State.send_keep ..).regs rfl) _).trans ((he.rd (by decide)).trans (State.rd_sat_self i.regs _ _))
  · exact (State.event_recorded_of_keep (s.sat_keep _ _) rfl (s.sat_but _ _) (by decide) _ _ hr).keep (State.send_keep ..) rfl

theorem exec_coreAccessFault_mapped {write : Bool} (hm : s.coreMapped addr = true) : exec (.coreAccessFault h fetch write addr) s = .next s := if_pos hm

/-- CORE_ACCESS_FAULT outside the map (R30, R478). -/
theorem runs_coreAccessFault (write : Bool) (hm : s.coreMapped addr = false) :
    Runs (.coreAccessFault h fetch write addr) s [.regs, .out, .log, .nodes, .irq, .logN] (fun t => t.out = s.out ++ [.trap h fetch addr] ∧
      (s.EventRoom 0x0210 devUnit → t.Recorded (s.eventRec 0x0210 devUnit 2 [(16, 5, addr), (21, 1, 2), (22, 1, if write then 1 else 0), (23, 1, 0)]))) := by
  have he : exec (.coreAccessFault h fetch write addr) s = .next ((s.addrError addr 2 (boolN write) 0).send (.trap h fetch addr)) :=
    if_neg (by simp [hm])
  refine Runs.of_next he ((Keep.via (m := 0x3EFFDFCBB) (State.send_keep ..) rfl ((State.addrError_keep ..).mono rfl)).alters _ (by decide))
    (fun _ => ⟨?_, fun hr => ?_⟩)
  · exact congrArg (· ++ [Msg.trap h fetch addr]) (s.addrError_out _ _ _ _)
  · exact (s.addrError_recorded addr 2 (boolN write) 0 hr).keep (State.send_keep ..) rfl

end

/-- The lockstep cores run no more (R493). -/
def State.coresDead (s : State) : State := { s with cq := { s.cq with dead := true } }

theorem State.coresDead_keep (s : State) : Keep 0x3DFFFFFFF s s.coresDead := Keep.setCq rfl id (Keep.refl _ _)

theorem State.coresDead_devState (s : State) : s.coresDead.devState = s.devState := State.devState_congr rfl rfl

theorem exec_lockstepMismatch_off {s : State} (h : s.off = true) : exec .lockstepMismatch s = .next s := if_pos h

theorem exec_lockstepMismatch {s : State} (h : s.off = false) : exec .lockstepMismatch s = .next s.coresDead.haltSilent.alertOn :=
  if_neg (by simp [h])

/-- A halt without an event shows HALTED, and its phase, its tick and its resets where the device was not halted already (R38, R40). -/
theorem State.haltSilent_shows {s : State} (i : s.Inv) (ho : s.off = false) : s.haltSilent.devState = stHalted ∧
    s.RegsBut s.haltSilent [Reg.CMD_DEV_STATE, Reg.CMD_DEV_STATE_TS_LO, Reg.CMD_DEV_STATE_TS_LO + 4] ∧
    (s.devState ≠ stHalted → s.haltSilent.rf Reg.CMD_DEV_STATE 27 24 = 0 ∧ s.haltSilent.rd64 Reg.CMD_DEV_STATE_TS_LO = s.now.toNat ∧
      s.haltSilent.rst = { s.rst with resets := [], chipHeld := false }) := by
  by_cases hd : s.devState = stHalted
  · have he : s.haltSilent = s := if_pos hd
    rw [he]
    exact ⟨hd, State.RegsBut.refl _ _, fun h => absurd hd h⟩
  · rw [State.haltSilent_eq hd]
    obtain ⟨hst, hph⟩ := State.toHalted_shows i
    have hb := State.wr64_but s.toHalted Reg.CMD_DEV_STATE_TS_LO s.now.toNat
    refine ⟨?_, s.toHalted_but.append hb, fun _ => ⟨(hb.rf (by decide) _ _).trans hph.reads, ?_, rfl⟩⟩
    · unfold State.devState
      rw [(State.wr64_keep ..).off rfl, s.toHalted_keep.off rfl, ho, hb.rf (by decide)]
      exact (if_neg (by decide)).trans hst.reads
    · exact (State.rd64_wr64_self hst.inv.regs _ _).trans (Nat.mod_eq_of_lt s.now.isLt)

/-- LOCKSTEP_MISMATCH (R493). -/
theorem runs_lockstepMismatch {s : State} (h : s.off = false) : Runs .lockstepMismatch s [.regs, .pwr, .rst, .cq] (fun t => t.devState = stHalted ∧
    t.pwr = { s.pwr with alert := true } ∧ t.cq = { s.cq with dead := true } ∧ t.cuardUp = false ∧
    s.RegsBut t [Reg.CMD_DEV_STATE, Reg.CMD_DEV_STATE_TS_LO, Reg.CMD_DEV_STATE_TS_LO + 4] ∧
    (s.devState ≠ stHalted → t.rf Reg.CMD_DEV_STATE 27 24 = 0 ∧ t.rd64 Reg.CMD_DEV_STATE_TS_LO = s.now.toNat ∧
      t.rst = { s.rst with resets := [], chipHeld := false })) := by
  have hk : Keep 0x3DF7FFFFB s s.coresDead.haltSilent := Keep.via (State.haltSilent_keep _) rfl (s.coresDead_keep.mono rfl)
  have hcq : s.coresDead.haltSilent.alertOn.cq = { s.cq with dead := true } :=
    ((State.alertOn_keep _).cq rfl).trans ((State.haltSilent_keep _).cq rfl)
  refine Runs.of_next (exec_lockstepMismatch h) ((Keep.via (m := 0x3DF5FFFFB) (State.alertOn_keep _) rfl (hk.mono rfl)).alters _ (by decide)) (fun i => ?_)
  obtain ⟨hst, hb, hrest⟩ := State.haltSilent_shows (s.coresDead_keep.inv i) h
  refine ⟨(State.devState_congr rfl rfl).trans hst, congrArg (fun p : Pwr => { p with alert := true }) (hk.pwr rfl), hcq, ?_, hb,
    fun hd => hrest (s.coresDead_devState ▸ hd)⟩
  unfold State.cuardUp
  rw [hcq]
  simp

/-! ### The console (R479). -/

theorem runs_consoleReceive (s : State) (l : List Byte) :
    Runs (.consoleReceive l) s [.out, .irq] (fun t => t.out = s.out ++ [.console l] ∧ t.irq = s.irq ||| 32#8) :=
  Runs.of_next rfl ((Keep.via (m := 0x3FFFDFFBF) (State.raiseIrq_keep ..) rfl ((s.send_keep _).mono rfl)).alters _ (by decide)) (fun _ => ⟨rfl, rfl⟩)

theorem runs_consoleTransmit (s : State) (l : List Byte) : Runs (.consoleTransmit l) s [.out] (fun t => t.out = s.out ++ [.uart l]) :=
  Runs.of_next rfl ((s.send_keep _).alters _ (by decide)) (fun _ => rfl)

/-! ### The link of the management port (R484). -/

section
variable {s : State}

theorem exec_mgmtLinkUp_none (h : s.mgmtTry = none) : exec .mgmtLinkUp s = .next s := by
  change execMgmtLinkUp s = _
  unfold execMgmtLinkUp
  rw [h]

theorem exec_mgmtLinkUp {f : Bool} (h : s.mgmtTry = some f) : exec .mgmtLinkUp s = .next
    (if s.off || s.rbit Reg.MGMT_PORT_ST 0 then s else (s.wf Reg.MGMT_PORT_ST 0 0 1).wf Reg.MGMT_PORT_ST 1 1 (boolN f)) := by
  change execMgmtLinkUp s = _
  unfold execMgmtLinkUp
  rw [h]

theorem exec_mgmtLinkUp_not (h : s.off = true ∨ s.rbit Reg.MGMT_PORT_ST 0 = true) : exec .mgmtLinkUp s = .next s := by
  cases hf : s.mgmtTry with
  | none => exact exec_mgmtLinkUp_none hf
  | some f => exact (exec_mgmtLinkUp hf).trans (congrArg _ (if_pos (by simpa using h)))

theorem runs_mgmtLinkUp {f : Bool} (h : s.mgmtTry = some f) (ho : s.off = false) (hl : s.rbit Reg.MGMT_PORT_ST 0 = false) :
    Runs .mgmtLinkUp s [.regs] (fun t => t.rbit Reg.MGMT_PORT_ST 0 = true ∧ t.rbit Reg.MGMT_PORT_ST 1 = f ∧ s.RegsBut t [Reg.MGMT_PORT_ST]) := by
  refine Runs.of_next ((exec_mgmtLinkUp h).trans (congrArg _ (if_neg (by simp [ho, hl]))))
    ((Keep.via (m := 0x3FFFFFFFB) (State.wf_keep ..) rfl (s.wf_keep ..)).alters _ (by decide))
    (fun i => ⟨?_, ?_, (s.wf_but _ _ _ _).trans (State.wf_but _ _ _ _ _)⟩)
  · exact ((i.shows_wf Reg.MGMT_PORT_ST (hi := 0) (lo := 0) (v := 1) (by decide) (by decide) (by decide)).wf_disjoint (by decide) (by decide)
      (by decide) _).rbit
  · refine (((s.wf_keep _ _ _ _).inv i).shows_wf Reg.MGMT_PORT_ST (hi := 1) (lo := 1) (v := boolN f) (by decide) (by decide) ?_).rbit.trans ?_
    · cases f <;> decide
    · cases f <;> rfl

theorem exec_mgmtLinkLoss_down (h : s.rbit Reg.MGMT_PORT_ST 0 = false) : exec .mgmtLinkLoss s = .next s := congrArg _ (if_neg (by simp [h]))

theorem runs_mgmtLinkLoss (h : s.rbit Reg.MGMT_PORT_ST 0 = true) : Runs .mgmtLinkLoss s [.regs, .mgmt] (fun t =>
    t.rbit Reg.MGMT_PORT_ST 0 = false ∧ t.mgmt = { s.mgmt with fast := true, speedAt := s.wall } ∧ s.RegsBut t [Reg.MGMT_PORT_ST]) :=
  have he : exec .mgmtLinkLoss s = .next s.mgmtDown := congrArg Host.Outcome.next (if_pos h)
  have hk : Keep 0x3BFFFFFFF s { s with mgmt := { s.mgmt with fast := true, speedAt := s.wall } } := Keep.setMgmt rfl (Keep.refl _ _)
  Runs.of_next he (s.mgmtDown_keep.alters _ (by decide)) (fun i =>
    ⟨((hk.inv i).shows_wf Reg.MGMT_PORT_ST (hi := 0) (lo := 0) (v := 0) (by decide) (by decide) (by decide)).rbit, rfl,
      (State.RegsBut.of_regs rfl _).trans (State.wf_but _ _ _ _ _)⟩)

theorem exec_mgmtSpeedAlternate_not
    (h : s.rf Reg.MGMT_PORT_CTL 1 0 ≠ 0 ∨ s.rbit Reg.MGMT_PORT_ST 0 = true ∨ (s.wall - s.mgmt.speedAt).toNat < 100000000) :
    exec .mgmtSpeedAlternate s = .next s := by
  refine if_neg fun ⟨hm, hl, ht⟩ => ?_
  rcases h with h | h | h
  · exact h hm
  · exact absurd (h.symm.trans hl) (by decide)
  · exact absurd ht (Nat.not_le.mpr h)

theorem runs_mgmtSpeedAlternate (hm : s.rf Reg.MGMT_PORT_CTL 1 0 = 0) (hl : s.rbit Reg.MGMT_PORT_ST 0 = false)
    (ht : 100000000 ≤ (s.wall - s.mgmt.speedAt).toNat) :
    Runs .mgmtSpeedAlternate s [.mgmt] (fun t => t.mgmt = { s.mgmt with fast := !s.mgmt.fast, speedAt := s.wall }) :=
  Runs.of_next (if_pos ⟨hm, hl, ht⟩) ((Keep.setMgmt (m := 0x3BFFFFFFF) rfl (Keep.refl _ s)).alters _ (by decide)) (fun _ => rfl)

end

/-! ### Frames received (R486, R488). -/

section
variable {s : State} {l : List Byte} {buffer : Bool}

theorem exec_mgmtFrameReceive_bad
    (h : s.mgmtUp = false ∨ l.length < 64 ∨ leNat (l.drop (l.length - 4)) ≠ crc32 (l.take (l.length - 4))) :
    exec (.mgmtFrameReceive l buffer) s = .next s := if_pos h

theorem exec_mgmtFrameReceive (hu : s.mgmtUp = true) (hl : 64 ≤ l.length) (hc : leNat (l.drop (l.length - 4)) = crc32 (l.take (l.length - 4))) :
    exec (.mgmtFrameReceive l buffer) s = .next (s.classify buffer (l.take (l.length - 4))) := by
  refine if_neg ?_
  rintro (h | h | h)
  · exact absurd (hu.symm.trans h) (by decide)
  · omega
  · exact h hc

variable {m : List Byte}

theorem State.classify_unsolicited (hd : (ethIn m).dst = s.cuardMac) (hc : s.cuardIn (ethIn m) = none) (ha : s.asksFor (ethIn m) = none) :
    s.classify buffer m = s.sat Reg.MGMT_FILT_DROP 1 := by
  unfold State.classify
  simp [hd, hc, ha]

theorem State.classify_command {c : Origin × List Byte} (hd : (ethIn m).dst = s.cuardMac) (hc : s.cuardIn (ethIn m) = some c) :
    s.classify buffer m = if s.cuardRate.1 then s.cuardRate.2.arrive { port := 0, bytes := c.2, arrival := s.now, org := c.1 } else s.cuardRate.2 := by
  unfold State.classify
  simp [hd, hc]

theorem State.classify_software (hd : (ethIn m).dst = s.softMac) (hm : (ethIn m).dst ≠ s.cuardMac) (hb : (ethIn m).dst ≠ List.replicate 6 0xFF)
    (hs : s.solicited.contains (ethIn m).dst = false) : s.classify buffer m = s.toVnet buffer m := by
  have hmine : ((ethIn m).dst == s.cuardMac) = false := by simpa using hm
  have hall : ((ethIn m).dst == List.replicate 6 0xFF) = false := by simpa using hb
  have hsoft : ((ethIn m).dst == s.softMac) = true := by simpa using hd
  unfold State.classify
  simp only [hmine, hall, hs, hsoft, Bool.false_eq_true, if_false, Bool.or_self, Bool.true_or, if_true]

/-- One frame for Cuard more in its window (R488). -/
def State.rateCounted (s : State) : State := { s with cq := { s.cq with rateN := s.cq.rateN + 1 } }

theorem State.rateCounted_keep (s : State) : Keep 0x3DFFFFFFF s s.rateCounted := Keep.setCq rfl id (Keep.refl _ _)

theorem State.cuardRate_within (hw : s.cq.rateAt.toNat = s.now.toNat / 100000000) (hn : s.cq.rateN < s.rd Reg.MGMT_CUARD_RATE) :
    s.cuardRate = (true, s.rateCounted) := by
  unfold State.cuardRate
  dsimp only
  rw [if_pos hw]
  exact if_pos hn

/-- A frame beyond the rate, counted as dropped, and told once in its window (R488). -/
def State.rateDropped (s : State) : State :=
  let x := s.rateCounted.sat Reg.MGMT_RATE_DROP 1
  if x.cq.rateTold then x else ({ x with cq := { x.cq with rateTold := true } } : State).event 0x0A0B devUnit 1 [(16, 1, 2), (17, 4, s.cq.rateN + 1)]

theorem State.cuardRate_beyond (hw : s.cq.rateAt.toNat = s.now.toNat / 100000000) (hn : s.rd Reg.MGMT_CUARD_RATE ≤ s.cq.rateN) :
    s.cuardRate = (false, s.rateDropped) := by
  unfold State.cuardRate
  dsimp only
  rw [if_pos hw]
  exact if_neg (Nat.not_le.mpr (Nat.lt_succ_of_le hn))

theorem State.rateDropped_keep (s : State) : Keep 0x3CFFDFCFB s s.rateDropped := by
  have hk : Keep 0x3CFFDFCFB s (s.rateCounted.sat Reg.MGMT_RATE_DROP 1) := Keep.via (State.sat_keep ..) rfl (s.rateCounted_keep.mono rfl)
  exact Keep.ite hk (Keep.via (State.event_keep ..) rfl (Keep.setCq rfl id hk))

theorem State.rateDropped_count (i : s.Inv) : s.rateDropped.rd Reg.MGMT_RATE_DROP = min (s.rd Reg.MGMT_RATE_DROP + 1) 0xFFFFFFFF := by
  have hc := State.sat_counts (s := s) (s.rateCounted_keep.inv i) (a := Reg.MGMT_RATE_DROP) rfl
  unfold State.rateDropped
  dsimp only
  split
  · exact hc
  · exact ((State.event_but _ _ _ _ _).rd (by decide)).trans hc

theorem State.rateDropped_cq (s : State) : s.rateDropped.cq = { s.cq with rateN := s.cq.rateN + 1, rateTold := true } := by
  unfold State.rateDropped
  dsimp only
  split
  next h => exact congrArg (fun b => ({ s.cq with rateN := s.cq.rateN + 1, rateTold := b } : Cq)) h
  next => exact (State.event_keep ..).cq rfl

theorem runs_mgmtFrameReceive_dropped {c : Origin × List Byte} (he : exec (.mgmtFrameReceive l buffer) s = .next (s.classify buffer m))
    (hd : (ethIn m).dst = s.cuardMac) (hc : s.cuardIn (ethIn m) = some c) (hw : s.cq.rateAt.toNat = s.now.toNat / 100000000)
    (hn : s.rd Reg.MGMT_CUARD_RATE ≤ s.cq.rateN) : Runs (.mgmtFrameReceive l buffer) s [.regs, .log, .nodes, .irq, .logN, .cq] (fun t =>
      t.rd Reg.MGMT_RATE_DROP = min (s.rd Reg.MGMT_RATE_DROP + 1) 0xFFFFFFFF ∧ t.cq = { s.cq with rateN := s.cq.rateN + 1, rateTold := true }) := by
  have ht : s.classify buffer m = s.rateDropped := by
    rw [State.classify_command hd hc, State.cuardRate_beyond hw hn]
    rfl
  exact Runs.of_next (he.trans (congrArg _ ht)) (s.rateDropped_keep.alters _ (by decide)) (fun i => ⟨State.rateDropped_count i, s.rateDropped_cq⟩)

end

theorem State.toVnet_taken (s : State) (m : List Byte) : s.toVnet true m = (s.send (.vnet (s.stamp (ethIn m).ptpEvent ++ m))).raiseIrq 4 := rfl

theorem State.toVnet_dropped (s : State) (m : List Byte) : s.toVnet false m = s.sat Reg.MGMT_FILT_DROP 1 := rfl

/-- A counted drop of a frame (R486). -/
theorem runs_counted {c : Instr} {s : State} {a : Nat} (he : exec c s = .next (s.sat a 1)) :
    Runs c s [.regs] (fun t => t.rd a = min (s.rd a + 1) 0xFFFFFFFF ∧ s.RegsBut t [a]) :=
  Runs.of_next he ((s.sat_keep _ _).alters _ (by decide)) (fun i => ⟨State.rd_sat_self i.regs _ _, s.sat_but _ _⟩)

theorem Runs.imp {c : Instr} {s : State} {l : List Area} {P Q : State → Prop} (h : Runs c s l P) (k : ∀ t, P t → Q t) : Runs c s l Q :=
  fun i => (h i).imp fun t ⟨he, ha, hp⟩ => ⟨he, ha, k t hp⟩

/-! ### Frames of software (R487, R490). -/

section
variable {s : State} {l : List Byte} {stamp : Bool}

/-- A spoofed frame in its window (R487). -/
def State.spoofCounted (s : State) : State :=
  { s with cq := { s.cq with spoofAt := BitVec.ofNat 64 (s.now.toNat / 100000000)
                             spoofN := (if s.cq.spoofAt.toNat = s.now.toNat / 100000000 then s.cq.spoofN else 0) + 1 } }

theorem State.spoofCounted_keep (s : State) : Keep 0x3DFFFFFFF s s.spoofCounted := Keep.setCq rfl id (Keep.refl _ _)

theorem runs_virtioNetTransmit_spoof (h : s.spoofs (ethIn l) = true) : Runs (.virtioNetTransmit l stamp) s [.regs, .log, .nodes, .irq, .logN, .cq]
    (fun t => t.rd Reg.MGMT_SPOOF_DROP = min (s.rd Reg.MGMT_SPOOF_DROP + 1) 0xFFFFFFFF) := by
  have he : exec (.virtioNetTransmit l stamp) s = .next ((s.spoofCounted.sat Reg.MGMT_SPOOF_DROP 1).event 0x0A0B devUnit 1
      [(16, 1, 1), (17, 4, s.spoofCounted.cq.spoofN)]) := if_pos h
  refine Runs.of_next he ((Keep.via (m := 0x3CFFDFCFB) (State.event_keep ..) rfl (Keep.via (State.sat_keep ..) rfl
    (s.spoofCounted_keep.mono rfl))).alters _ (by decide)) (fun i => ?_)
  exact ((State.event_but _ _ _ _ _).rd (by decide)).trans (State.sat_counts (s.spoofCounted_keep.inv i) rfl)

theorem exec_virtioNetTransmit_down (h : s.spoofs (ethIn l) = false) (hu : s.mgmtUp = false) : exec (.virtioNetTransmit l stamp) s = .next s :=
  (if_neg (by simp [h])).trans (if_pos hu)

theorem runs_virtioNetTransmit (h : s.spoofs (ethIn l) = false) (hu : s.mgmtUp = true) : Runs (.virtioNetTransmit l stamp) s [.out] (fun t =>
    t.out = s.out ++ .eth (endFrame l) :: (if stamp then [.vnet (s.stamp true)] else [])) := by
  have he : exec (.virtioNetTransmit l stamp) s = .next (if stamp then (s.send (.eth (endFrame l))).send (.vnet (s.stamp true))
      else s.send (.eth (endFrame l))) := (if_neg (by simp [h])).trans (if_neg (by simp [hu]))
  refine Runs.of_next he ((Keep.ite (m := 0x3FFFFFFBF) (Keep.via (State.send_keep ..) rfl (s.send_keep _)) (s.send_keep _)).alters _ (by decide)) (fun _ => ?_)
  cases stamp
  · rfl
  · exact List.append_assoc _ _ _

end

/-! ### PPS (R492). -/

section
variable {s : State} {low high : Nat}

/-- The edge comes when one is due: the first, or 1 s after the last within the tolerance (R492). -/
def State.ppsDue (s : State) : Bool :=
  match s.mgmt.ppsAt with
  | none => true
  | some t => decide (99990000 ≤ (s.now - t).toNat ∧ (s.now - t).toNat ≤ 100010000)

theorem State.ppsDue_of (h : s.mgmt.ppsAt = none ∨ ∃ a, s.mgmt.ppsAt = some a ∧ 99990000 ≤ (s.now - a).toNat ∧ (s.now - a).toNat ≤ 100010000) :
    s.ppsDue = true := by
  unfold State.ppsDue
  rcases h with h | ⟨a, h, ht⟩
  · rw [h]
  · rw [h]
    exact decide_eq_true ht

theorem State.not_ppsDue {a : DWord} (h : s.mgmt.ppsAt = some a) (ht : (s.now - a).toNat < 99990000 ∨ 100010000 < (s.now - a).toNat) :
    s.ppsDue = false := by
  unfold State.ppsDue
  rw [h]
  exact decide_eq_false (by omega)

/-- The time of an edge latched (R492). -/
def State.ppsLatched (s : State) : State :=
  ((s.wr Reg.MGMT_PPS_TS_SLO (s.rd Reg.MGMT_PTP_NOW_SLO)).wr Reg.MGMT_PPS_TS_SHI (s.rd Reg.MGMT_PTP_NOW_SHI)).wr
    Reg.MGMT_PPS_TS_NS (s.rd Reg.MGMT_PTP_NOW_NS)

/-- The edge kept, shown and told to the cores (R492). -/
def State.ppsTaken (s : State) : State :=
  (({ s.ppsLatched with mgmt := { s.mgmt with ppsAt := some s.now } } : State).wf Reg.MGMT_PTP_CTL 2 2 1).raiseIrq 6

theorem exec_ppsEdge (s : State) (low high : Nat) : exec (.ppsEdge low high) s =
    if s.rbit Reg.MGMT_PTP_CTL 1 && decide (10 ≤ low) && decide (10 ≤ high) && s.ppsDue then .next s.ppsTaken else .next (s.sat Reg.MGMT_PPS_REJ 1) := rfl

theorem runs_ppsEdge_rejected (h : (s.rbit Reg.MGMT_PTP_CTL 1 && decide (10 ≤ low) && decide (10 ≤ high) && s.ppsDue) = false) :
    Runs (.ppsEdge low high) s [.regs] (fun t => t.rd Reg.MGMT_PPS_REJ = min (s.rd Reg.MGMT_PPS_REJ + 1) 0xFFFFFFFF ∧ s.RegsBut t [Reg.MGMT_PPS_REJ]) :=
  runs_counted ((exec_ppsEdge s low high).trans (if_neg (by simp [h])))

theorem State.ppsLatched_shows (i : s.Inv) : s.ppsLatched.rd Reg.MGMT_PPS_TS_SLO = s.rd Reg.MGMT_PTP_NOW_SLO ∧
    s.ppsLatched.rd Reg.MGMT_PPS_TS_SHI = s.rd Reg.MGMT_PTP_NOW_SHI ∧ s.ppsLatched.rd Reg.MGMT_PPS_TS_NS = s.rd Reg.MGMT_PTP_NOW_NS := by
  have h1 := i.holds_wr Reg.MGMT_PPS_TS_SLO (s.rd_lt Reg.MGMT_PTP_NOW_SLO)
  have h2 := h1.inv.holds_wr Reg.MGMT_PPS_TS_SHI (s.rd_lt Reg.MGMT_PTP_NOW_SHI)
  exact ⟨((h1.wr (by decide) _).wr (by decide) _).reads, (h2.wr (by decide) _).reads, (h2.inv.holds_wr _ (s.rd_lt _)).reads⟩

theorem State.ppsLatched_keep (s : State) : Keep 0x3FFFFFFFB s s.ppsLatched :=
  Keep.via (State.wr_keep ..) rfl <| Keep.via (State.wr_keep ..) rfl (State.wr_keep ..)

theorem State.ppsTaken_keep (s : State) : Keep 0x3BFFDFFFB s s.ppsTaken :=
  Keep.via (State.raiseIrq_keep ..) rfl <| Keep.via (State.wf_keep ..) rfl <| Keep.setMgmt rfl (s.ppsLatched_keep.mono rfl)

theorem runs_ppsEdge (hc : s.rbit Reg.MGMT_PTP_CTL 1 = true) (hl : 10 ≤ low) (hh : 10 ≤ high) (hd : s.ppsDue = true) :
    Runs (.ppsEdge low high) s [.regs, .irq, .mgmt] (fun t => t.rd Reg.MGMT_PPS_TS_SLO = s.rd Reg.MGMT_PTP_NOW_SLO ∧
      t.rd Reg.MGMT_PPS_TS_SHI = s.rd Reg.MGMT_PTP_NOW_SHI ∧ t.rd Reg.MGMT_PPS_TS_NS = s.rd Reg.MGMT_PTP_NOW_NS ∧ t.rbit Reg.MGMT_PTP_CTL 2 = true ∧
      t.irq = s.irq ||| 64#8 ∧ t.mgmt = { s.mgmt with ppsAt := some s.now }) := by
  refine Runs.of_next ((exec_ppsEdge s low high).trans (if_pos (by simp [hc, hl, hh, hd]))) (s.ppsTaken_keep.alters _ (by decide)) (fun i => ?_)
  have hb : s.ppsLatched.RegsBut s.ppsTaken [Reg.MGMT_PTP_CTL] := State.wf_but { s.ppsLatched with mgmt := { s.mgmt with ppsAt := some s.now } } _ _ _ _
  have hk : Keep 0x3BFFFFFFF s.ppsLatched { s.ppsLatched with mgmt := { s.mgmt with ppsAt := some s.now } } := Keep.setMgmt rfl (Keep.refl _ _)
  obtain ⟨hslo, hshi, hns⟩ := State.ppsLatched_shows i
  refine ⟨(hb.rd (by decide)).trans hslo, (hb.rd (by decide)).trans hshi, (hb.rd (by decide)).trans hns, ?_, rfl, rfl⟩
  have hs := (hk.inv (s.ppsLatched_keep.inv i)).shows_wf Reg.MGMT_PTP_CTL (hi := 2) (lo := 2) (v := 1) (by decide) (by decide) (by decide)
  exact (hs.of_regs (State.raiseIrq_keep _ 6) rfl).rbit

end

/-- Settles O42: each command of the management subsystem from its rule. -/
theorem managementComplete : Obligations.ManagementComplete := by
  refine ⟨runs_corePoisonFault, fun s h fetch write addr => ⟨exec_coreAccessFault_mapped s h fetch addr, runs_coreAccessFault s h fetch addr write⟩,
    fun s => ⟨exec_lockstepMismatch_off, runs_lockstepMismatch⟩, fun s l => ⟨runs_consoleReceive s l, runs_consoleTransmit s l⟩,
    fun s => ⟨exec_mgmtLinkUp_none, fun h => exec_mgmtLinkUp_not (.inl h), fun h => exec_mgmtLinkUp_not (.inr h), fun f => runs_mgmtLinkUp,
      exec_mgmtLinkLoss_down, runs_mgmtLinkLoss, exec_mgmtSpeedAlternate_not, runs_mgmtSpeedAlternate⟩,
    fun s l buffer => ⟨exec_mgmtFrameReceive_bad, fun hu hl hc => ?_⟩,
    fun s l stamp => ⟨runs_virtioNetTransmit_spoof, exec_virtioNetTransmit_down, runs_virtioNetTransmit⟩,
    fun s low high => ⟨fun h => runs_ppsEdge_rejected ?_, fun hc hl hh hd => runs_ppsEdge hc hl hh (State.ppsDue_of hd),
      fun a ha ht => (runs_ppsEdge_rejected (by simp [State.not_ppsDue ha ht])).imp fun _ h => h.1⟩⟩
  · have he := exec_mgmtFrameReceive (buffer := buffer) hu hl hc
    refine ⟨fun hd hi ha => ?_, fun c hd hi hw hn => ?_, fun c => runs_mgmtFrameReceive_dropped he, fun hd hm hb hs hbuf => ?_, fun hd hm hb hs hbuf => ?_⟩
    · exact runs_counted (he.trans (congrArg _ (State.classify_unsolicited hd hi ha)))
    · rw [he, State.classify_command hd hi, State.cuardRate_within hw hn]
      rfl
    · subst hbuf
      refine Runs.of_next (he.trans (congrArg _ ((State.classify_software hd hm hb hs).trans (s.toVnet_taken _)))) ?_ (fun _ => ⟨rfl, rfl⟩)
      exact (Keep.via (m := 0x3FFFDFFBF) (State.raiseIrq_keep ..) rfl ((s.send_keep _).mono rfl)).alters _ (by decide)
    · subst hbuf
      exact (runs_counted (he.trans (congrArg _ ((State.classify_software hd hm hb hs).trans (s.toVnet_dropped _))))).imp fun _ h => h.1
  · rcases h with h | h | h <;> simp [h, Nat.not_le.mpr]

end Sys2Proof.Machine
end

section
/-! SUPPORT. The debug lock, and the timers of sessions, the quorum nonce, leases and commands, each from its rule (R503 to R508, R524 to
R529). -/

namespace Sys2Proof.Machine

/-! ### The debug lock (R508). -/

section
variable {s : State} {id : Nat}

/-- The session of the debug lock named. -/
def State.debugFor (s u : State) (o : Option Nat) : State := { u with cq := { s.cq with dbg := o } }

theorem State.debugFor_keep {m : Nat} {s u : State} (hm : m.testBit 29 = false) (h : Keep m s u) (hc : u.cq = s.cq) (o : Option Nat) :
    Keep m s (s.debugFor u o) :=
  Keep.setCq hm (fun b => by rw [hc] at b; exact b) h

theorem State.debugFor_but {s u : State} {l : List Nat} (h : s.RegsBut u l) (o : Option Nat) : s.RegsBut (s.debugFor u o) l := h

/-- Debug measured, and its session named. -/
def State.debugNamed (s : State) (id : Nat) : State := s.debugFor (s.extend 1 (sha384 (strB "KZY8-DEBUG"))) (some id)

theorem State.debugNamed_keep (s : State) (id : Nat) : Keep 0x3DFFFFFFB s (s.debugNamed id) :=
  State.debugFor_keep rfl ((s.extend_keep ..).mono rfl) ((s.extend_keep ..).cq rfl) _

theorem State.debugNamed_but (s : State) (id : Nat) : s.RegsBut (s.debugNamed id) ((List.range 12).map (Reg.SEC_MEAS 1)) :=
  State.debugFor_but (s.extend_but 1 _) _

/-- Debug unlocked in a session, its event not yet recorded. -/
def State.debugShown (s : State) (id : Nat) : State := (s.debugNamed id).wf Reg.SEC_DBG 3 2 3

theorem State.debugShown_keep (s : State) (id : Nat) : Keep 0x3DFFFFFFB s (s.debugShown id) :=
  Keep.via (State.wf_keep ..) rfl (s.debugNamed_keep id)

theorem State.debugShown_but (s : State) (id : Nat) : s.RegsBut (s.debugShown id) ((List.range 12).map (Reg.SEC_MEAS 1) ++ [Reg.SEC_DBG]) :=
  (s.debugNamed_but id).append (State.wf_but _ _ _ _ _)

theorem exec_debugUnlock_none (h : s.sess id = none) : exec (.debugUnlock id) s = .next s := by
  change Host.Outcome.next (s.unlockDebug id).2 = _
  unfold State.unlockDebug
  rw [h]

theorem exec_debugUnlock {x : Sess} (h : s.sess id = some x) : exec (.debugUnlock id) s = .next
    (if (!(x.active && x.expert && s.keyHas x.key 3)) = true then s else if s.recBuffered = true then s
      else (s.debugShown id).event 0x0A0A devUnit 1 [(16, 1, 1), (17, 1, x.key)]) := by
  change Host.Outcome.next (s.unlockDebug id).2 = _
  unfold State.unlockDebug
  rw [h]
  dsimp only
  split
  · rfl
  · split <;> rfl

theorem exec_debugUnlock_recBuffered (h : s.recBuffered = true) : exec (.debugUnlock id) s = .next s := by
  cases hx : s.sess id with
  | none => exact exec_debugUnlock_none hx
  | some x => rw [exec_debugUnlock hx, if_pos h, ite_self]

theorem exec_debugUnlock_denied {x : Sess} (h : s.sess id = some x) (hd : x.active = false ∨ x.expert = false ∨ s.keyHas x.key 3 = false) :
    exec (.debugUnlock id) s = .next s := by
  rw [exec_debugUnlock h, if_pos]
  rcases hd with hd | hd | hd <;> simp [hd]

theorem runs_debugUnlock {x : Sess} (h : s.sess id = some x) (ha : x.active = true) (he : x.expert = true) (hk : s.keyHas x.key 3 = true)
    (hb : s.recBuffered = false) : Runs (.debugUnlock id) s [.regs, .log, .nodes, .irq, .logN, .cq] (fun t => t.rf Reg.SEC_DBG 3 2 = 3 ∧
      t.cq = { s.cq with dbg := some id } ∧
      (s.EventRoom 0x0A0A devUnit → t.Recorded (s.eventRec 0x0A0A devUnit 1 [(16, 1, 1), (17, 1, x.key)]))) := by
  refine Runs.of_next ((exec_debugUnlock h).trans (congrArg _ ((if_neg (by simp [ha, he, hk])).trans (if_neg (by simp [hb])))))
    ((Keep.via (m := 0x3CFFDFCFB) (State.event_keep ..) rfl ((s.debugShown_keep id).mono rfl)).alters _ (by decide))
    (fun i => ⟨?_, (State.event_keep ..).cq rfl, State.event_recorded_of_keep (s.debugShown_keep id) rfl (s.debugShown_but id) (by decide) _ _⟩)
  exact ((((s.debugNamed_keep id).inv i).shows_wf Reg.SEC_DBG (hi := 3) (lo := 2) (v := 3) (by decide) (by decide) (by decide)).event (by decide) _ _ _ _).reads

/-- Debug locked, its event not yet recorded. -/
def State.debugHidden (s : State) : State := ({ s with cq := { s.cq with dbg := none } } : State).wf Reg.SEC_DBG 2 2 0

theorem State.debugHidden_keep (s : State) : Keep 0x3DFFFFFFB s s.debugHidden := Keep.via (State.wf_keep ..) rfl (Keep.setCq rfl id (Keep.refl _ _))

theorem State.debugHidden_but (s : State) : s.RegsBut s.debugHidden [Reg.SEC_DBG] :=
  State.wf_but { s with cq := { s.cq with dbg := none } } _ _ _ _

theorem exec_debugRelock_locked (h : s.rbit Reg.SEC_DBG 2 = false) : exec (.debugRelock id) s = .next s :=
  congrArg Host.Outcome.next (if_neg (by simp [h]))

theorem runs_debugRelock (h : s.rbit Reg.SEC_DBG 2 = true) : Runs (.debugRelock id) s [.regs, .log, .nodes, .irq, .logN, .cq] (fun t =>
    t.rbit Reg.SEC_DBG 2 = false ∧ t.cq = { s.cq with dbg := none } ∧
    (s.EventRoom 0x0A0A devUnit → t.Recorded (s.eventRec 0x0A0A devUnit 1 [(16, 1, 0), (17, 1, s.keyOfSess id)]))) := by
  have he : exec (.debugRelock id) s = .next (s.debugHidden.event 0x0A0A devUnit 1 [(16, 1, 0), (17, 1, s.keyOfSess id)]) :=
    congrArg Host.Outcome.next (if_pos h)
  refine Runs.of_next he ((Keep.via (m := 0x3CFFDFCFB) (State.event_keep ..) rfl (s.debugHidden_keep.mono rfl)).alters _ (by decide))
    (fun i => ⟨?_, (State.event_keep ..).cq rfl, State.event_recorded_of_keep s.debugHidden_keep rfl s.debugHidden_but (by decide) _ _⟩)
  have hx : Keep 0x3DFFFFFFF s { s with cq := { s.cq with dbg := none } } := Keep.setCq rfl (fun b => b) (Keep.refl _ _)
  exact (((hx.inv i).shows_wf Reg.SEC_DBG (hi := 2) (lo := 2) (v := 0) (by decide) (by decide) (by decide)).event (by decide) _ _ _ _).rbit

end

/-! ### A failed authentication (R507). -/

/-- A failure counted and told. -/
def State.failTold (s : State) (kind key port : Nat) : State :=
  (s.sat Reg.SEC_AUTH_FAIL 1).event 0x0A05 devUnit 1 [(16, 1, kind), (17, 1, key), (22, 1, port)]

theorem State.failTold_keep (s : State) (kind key port : Nat) : Keep 0x3EFFDFCFB s (s.failTold kind key port) :=
  Keep.via (State.event_keep ..) rfl ((s.sat_keep ..).mono rfl)

/-- The window of failures. -/
def State.failWindow (s u : State) (a : DWord) (n : Nat) : State := { u with cq := { s.cq with failAt := a, failN := n } }

theorem State.failWindow_regs (s u : State) (a : DWord) (n : Nat) : (s.failWindow u a n).regs = u.regs := rfl

theorem State.failWindow_recorded {s u : State} {e : EventRec} (h : u.Recorded e) (a : DWord) (n : Nat) : (s.failWindow u a n).Recorded e :=
  h.of_same rfl rfl

/-- A failure counted in the window of R507, where its kind is of R504 or R506. -/
def State.failStep (s : State) (kind : Nat) : State :=
  if 4 ≤ kind then s
  else if (s.now - s.cq.failAt).toNat < 100000000 then { s with cq := { s.cq with failN := s.cq.failN + 1 } }
  else { s with cq := { s.cq with failAt := s.now - BitVec.ofNat 64 (s.now.toNat % 100000000), failN := 1 } }

/-- What else a failure changes is its window. -/
theorem State.authFail_cases (s : State) (kind key port : Nat) :
    ∃ (a : DWord) (n : Nat), s.authFail kind key port = s.failWindow (s.failTold kind key port) a n := by
  have hf : s.authFail kind key port = (s.failTold kind key port).failStep kind := rfl
  have hcq : (s.failTold kind key port).cq = s.cq := (s.failTold_keep kind key port).cq rfl
  rw [hf]
  generalize s.failTold kind key port = u at hcq
  unfold State.failWindow State.failStep
  rw [← hcq]
  split
  · exact ⟨u.cq.failAt, u.cq.failN, rfl⟩
  · split
    · exact ⟨u.cq.failAt, u.cq.failN + 1, rfl⟩
    · exact ⟨u.now - BitVec.ofNat 64 (u.now.toNat % 100000000), 1, rfl⟩

/-! ### Sessions (R504, R507). -/

section
variable {s : State}

/-- A session that stays opening for 10 s (R504). -/
def State.confirmLate (s : State) (x : Sess) : Bool := !x.active && decide (1000000000 ≤ (s.now - x.opened).toNat)
/-- An active session idle for SEC_IDLE seconds (R507). -/
def State.idleLate (s : State) (x : Sess) : Bool := x.active && decide (s.rd Reg.SEC_IDLE * 100000000 ≤ (s.now - x.last).toNat)
/-- A session open for 24 h (R507). -/
def State.lifeOver (s : State) (x : Sess) : Bool := x.active && decide (8640000000000 ≤ (s.now - x.opened).toNat)

/-- A session discarded. -/
def State.sessGone (s : State) (id : Nat) : State :=
  { s with cq := { s.cq with sessions := s.cq.sessions.filter (fun y => decide (y.id ≠ id)) } }

theorem State.sessGone_keep (s : State) (id : Nat) : Keep 0x3DFFFFFFF s (s.sessGone id) := Keep.setCq rfl (fun b => b) (Keep.refl _ _)

theorem exec_sessionConfirmTimeout (s : State) : exec .sessionConfirmTimeout s =
    (s.cq.sessions.find? s.confirmLate).elim (.next s) (fun x => .next ((s.sessGone x.id).authFail 1 x.key x.port)) := by
  change execSessionConfirmTimeout s = _
  unfold execSessionConfirmTimeout
  change _ = (s.cq.sessions.find? (fun x => !x.active && decide (1000000000 ≤ (s.now - x.opened).toNat))).elim _ _
  cases s.cq.sessions.find? (fun x => !x.active && decide (1000000000 ≤ (s.now - x.opened).toNat)) <;> rfl

theorem exec_sessionIdleTimeout (s : State) : exec .sessionIdleTimeout s =
    (s.cq.sessions.find? s.idleLate).elim (.next s) (fun x => .next (s.closeSess x.id 2)) := by
  change execSessionIdleTimeout s = _
  unfold execSessionIdleTimeout
  change _ = (s.cq.sessions.find? (fun x => x.active && decide (s.rd Reg.SEC_IDLE * 100000000 ≤ (s.now - x.last).toNat))).elim _ _
  cases s.cq.sessions.find? (fun x => x.active && decide (s.rd Reg.SEC_IDLE * 100000000 ≤ (s.now - x.last).toNat)) <;> rfl

theorem exec_sessionLifetimeExpiry (s : State) : exec .sessionLifetimeExpiry s =
    (s.cq.sessions.find? s.lifeOver).elim (.next s) (fun x => .next (s.closeSess x.id 3)) := by
  change execSessionLifetimeExpiry s = _
  unfold execSessionLifetimeExpiry
  change _ = (s.cq.sessions.find? (fun x => x.active && decide (8640000000000 ≤ (s.now - x.opened).toNat))).elim _ _
  cases s.cq.sessions.find? (fun x => x.active && decide (8640000000000 ≤ (s.now - x.opened).toNat)) <;> rfl

theorem find?_none_of {α : Type} {l : List α} {p : α → Bool} (h : ∀ x ∈ l, p x = false) : l.find? p = none :=
  List.find?_eq_none.mpr fun x hx => by simp [h x hx]

/-- The only session, found late. -/
theorem find?_only {α : Type} {l : List α} {x : α} {p : α → Bool} (hs : l = [x]) (h : p x = true) : l.find? p = some x :=
  hs ▸ List.find?_cons_of_pos h

variable {x : Sess} (hs : s.cq.sessions = [x])
include hs

theorem State.sessGone_only : (s.sessGone x.id).cq = { s.cq with sessions := [] } := by
  unfold State.sessGone
  rw [hs]
  simp

theorem runs_sessionConfirmTimeout (ha : x.active = false) (ht : 1000000000 ≤ (s.now - x.opened).toNat) :
    Runs .sessionConfirmTimeout s [.regs, .log, .nodes, .irq, .logN, .cq] (fun t => t.cq.sessions = [] ∧
      t.rd Reg.SEC_AUTH_FAIL = min (s.rd Reg.SEC_AUTH_FAIL + 1) 0xFFFFFFFF ∧
      (s.EventRoom 0x0A05 devUnit → t.Recorded (s.eventRec 0x0A05 devUnit 1 [(16, 1, 1), (17, 1, x.key), (22, 1, x.port)]))) := by
  have hl : s.confirmLate x = true := by rw [State.confirmLate, ha, Bool.not_false, Bool.true_and]; exact decide_eq_true ht
  have he : exec .sessionConfirmTimeout s = .next ((s.sessGone x.id).authFail 1 x.key x.port) := by
    rw [exec_sessionConfirmTimeout, find?_only hs hl, Option.elim_some]
  refine Runs.of_next he ((Keep.via (m := 0x3CFFDFCFB) (State.authFail_keep ..) rfl ((s.sessGone_keep _).mono rfl)).alters _ (by decide)) (fun i => ?_)
  obtain ⟨a, n, hf⟩ := (s.sessGone x.id).authFail_cases 1 x.key x.port
  have hb : ((s.sessGone x.id).sat Reg.SEC_AUTH_FAIL 1).RegsBut ((s.sessGone x.id).failTold 1 x.key x.port) [Reg.CNET_EVT_LOST] := State.event_but _ _ _ _ _
  rw [hf]
  refine ⟨congrArg Cq.sessions (State.sessGone_only hs), ?_, fun hr => ?_⟩
  · exact (State.rd_congr (State.failWindow_regs ..) _).trans
      ((hb.rd (by decide)).trans (State.sat_counts ((s.sessGone_keep _).inv i) rfl))
  · exact State.failWindow_recorded (State.event_recorded_of_keep (Keep.via (m := 0x3DFFFFFFB) (State.sat_keep ..) rfl ((s.sessGone_keep _).mono rfl)) rfl
      ((State.RegsBut.of_regs (t := s.sessGone x.id) rfl []).append (State.sat_but _ _ _)) (by decide) _ _ hr) _ _

/-- The only session closes without a relock, where debug is not its (R507). -/
theorem State.closeSess_only (hd : s.cq.dbg ≠ some x.id) (cause : Nat) :
    s.closeSess x.id cause = (s.sessGone x.id).event 0x0A04 devUnit 1 [(16, 4, x.id), (20, 1, cause)] := by
  have hx : s.sess x.id = some x := find?_only hs (beq_self_eq_true _)
  unfold State.closeSess
  rw [hx]
  refine if_neg ?_
  rw [(State.event_keep ..).cq rfl]
  exact hd

theorem runs_closes {c : Instr} {cause : Nat} (hd : s.cq.dbg ≠ some x.id) (he : exec c s = .next (s.closeSess x.id cause)) :
    Runs c s [.regs, .log, .nodes, .irq, .logN, .cq] (fun t => t.cq = { s.cq with sessions := [] } ∧
      (s.EventRoom 0x0A04 devUnit → t.Recorded (s.eventRec 0x0A04 devUnit 1 [(16, 4, x.id), (20, 1, cause)]))) := by
  rw [State.closeSess_only hs hd] at he
  refine Runs.of_next he ((Keep.via (m := 0x3CFFDFCFB) (State.event_keep ..) rfl ((s.sessGone_keep _).mono rfl)).alters _ (by decide))
    (fun _ => ⟨((State.event_keep ..).cq rfl).trans (State.sessGone_only hs), ?_⟩)
  exact State.event_recorded_of_keep (s.sessGone_keep _) rfl (State.RegsBut.of_regs (t := s.sessGone x.id) rfl []) (by decide) _ _

theorem runs_sessionIdleTimeout (ha : x.active = true) (hd : s.cq.dbg ≠ some x.id)
    (ht : s.rd Reg.SEC_IDLE * 100000000 ≤ (s.now - x.last).toNat) :
    Runs .sessionIdleTimeout s [.regs, .log, .nodes, .irq, .logN, .cq] (fun t => t.cq = { s.cq with sessions := [] } ∧
      (s.EventRoom 0x0A04 devUnit → t.Recorded (s.eventRec 0x0A04 devUnit 1 [(16, 4, x.id), (20, 1, 2)]))) := by
  have hl : s.idleLate x = true := by rw [State.idleLate, ha, Bool.true_and]; exact decide_eq_true ht
  exact runs_closes hs hd (by rw [exec_sessionIdleTimeout, find?_only hs hl, Option.elim_some])

theorem runs_sessionLifetimeExpiry (ha : x.active = true) (hd : s.cq.dbg ≠ some x.id) (ht : 8640000000000 ≤ (s.now - x.opened).toNat) :
    Runs .sessionLifetimeExpiry s [.regs, .log, .nodes, .irq, .logN, .cq] (fun t => t.cq = { s.cq with sessions := [] } ∧
      (s.EventRoom 0x0A04 devUnit → t.Recorded (s.eventRec 0x0A04 devUnit 1 [(16, 4, x.id), (20, 1, 3)]))) := by
  have hl : s.lifeOver x = true := by rw [State.lifeOver, ha, Bool.true_and]; exact decide_eq_true ht
  exact runs_closes hs hd (by rw [exec_sessionLifetimeExpiry, find?_only hs hl, Option.elim_some])

end

/-! ### The nonce and leases (R503, R526). -/

section
variable {s : State}

theorem exec_qnonceExpiry_not (h : s.cuardUp = false ∨ (s.now - s.cq.nonceAt).toNat < 60000000000) : exec .qnonceExpiry s = .next s := by
  refine if_neg fun ⟨hu, ht⟩ => ?_
  rcases h with h | h
  · exact absurd (hu.symm.trans h) (by decide)
  · exact absurd ht (Nat.not_le.mpr h)

theorem runs_qnonceExpiry (hu : s.cuardUp = true) (ht : 60000000000 ≤ (s.now - s.cq.nonceAt).toNat) :
    Runs .qnonceExpiry s [.drbgN, .cq] (fun t => t.cq.nonceAt = s.now ∧ t.cq.nonce.length = 32 ∧ t.cq.queue = s.cq.queue) :=
  Runs.of_next (if_pos ⟨hu, ht⟩) (s.newNonce_keep.alters _ (by decide)) (fun _ => ⟨rfl, toLE_length 32 _, rfl⟩)

/-- The lease on a resource, its term past (R526). -/
def State.leaseOver (s : State) (r : Nat) : Bool := (tget none s.cq.leases r).elim false (fun l => decide (l.expiry ≤ s.now))

theorem exec_leaseExpiry (s : State) : exec .leaseExpiry s =
    ((List.range 4).find? s.leaseOver).elim (.next s) (fun r => .next (s.endLease r 3 255)) := by
  have hp : s.leaseOver = fun r => match tget none s.cq.leases r with
      | some l => decide (l.expiry ≤ s.now)
      | none => false := by
    funext r
    unfold State.leaseOver
    cases tget none s.cq.leases r <;> rfl
  change execLeaseExpiry s = _
  unfold execLeaseExpiry
  rw [hp]
  split
  next h => exact (congrArg (fun o : Option Nat => o.elim (Host.Outcome.next s) (fun r => .next (s.endLease r 3 255))) h).symm
  next r h => exact (congrArg (fun o : Option Nat => o.elim (Host.Outcome.next s) (fun r => .next (s.endLease r 3 255))) h).symm

theorem State.not_leaseOver {r : Nat} (h : ∀ l, tget none s.cq.leases r = some l → s.now < l.expiry) : s.leaseOver r = false := by
  unfold State.leaseOver
  cases hl : tget none s.cq.leases r with
  | none => rfl
  | some l => exact decide_eq_false (BitVec.not_le.mpr (h l hl))

theorem exec_leaseExpiry_none (h : ∀ r l, r < 4 → tget none s.cq.leases r = some l → s.now < l.expiry) : exec .leaseExpiry s = .next s := by
  rw [exec_leaseExpiry, find?_none_of fun r hr => State.not_leaseOver fun l hl => h r l (List.mem_range.mp hr) hl, Option.elim_none]

/-- A lease gone from its resource. -/
def State.leaseGone (s : State) (r : Nat) : State := { s with cq := { s.cq with leases := tset none s.cq.leases r none } }

theorem State.leaseGone_keep (s : State) (r : Nat) : Keep 0x3DFFFFFFF s (s.leaseGone r) := Keep.setCq rfl (fun b => b) (Keep.refl _ _)

theorem State.endLease_eq {r : Nat} {l : Lease} (h : tget none s.cq.leases r = some l) (kind newKey : Nat) :
    s.endLease r kind newKey = (s.leaseGone r).event 0x0B02 devUnit 1 [(16, 1, r), (17, 1, kind), (18, 1, newKey), (19, 1, l.key)] := by
  unfold State.endLease
  rw [h]
  rfl

theorem runs_leaseExpiry {r : Nat} {l : Lease} (hr : r < 4) (hl : tget none s.cq.leases r = some l) (he : l.expiry ≤ s.now)
    (hq : ∀ q k, q < r → tget none s.cq.leases q = some k → s.now < k.expiry) :
    Runs .leaseExpiry s [.regs, .log, .nodes, .irq, .logN, .cq] (fun t => t.cq = { s.cq with leases := tset none s.cq.leases r none } ∧
      (s.EventRoom 0x0B02 devUnit → t.Recorded (s.eventRec 0x0B02 devUnit 1 [(16, 1, r), (17, 1, 3), (18, 1, 255), (19, 1, l.key)]))) := by
  have hf : (List.range 4).find? s.leaseOver = some r := by
    refine List.find?_range_eq_some.mpr ⟨?_, List.mem_range.mpr hr, fun q hqr => ?_⟩
    · unfold State.leaseOver
      rw [hl]
      exact decide_eq_true he
    · rw [State.not_leaseOver fun k => hq q k hqr]
      rfl
  have hx : exec .leaseExpiry s = .next ((s.leaseGone r).event 0x0B02 devUnit 1 [(16, 1, r), (17, 1, 3), (18, 1, 255), (19, 1, l.key)]) := by
    rw [exec_leaseExpiry, hf, Option.elim_some, State.endLease_eq hl]
  exact Runs.of_next hx ((Keep.via (m := 0x3CFFDFCFB) (State.event_keep ..) rfl ((s.leaseGone_keep r).mono rfl)).alters _ (by decide))
    (fun _ => ⟨(State.event_keep ..).cq rfl,
      State.event_recorded_of_keep (s.leaseGone_keep r) rfl (State.RegsBut.of_regs (t := s.leaseGone r) rfl []) (by decide) _ _⟩)

/-! ### Commands that wait (R524). -/

theorem exec_cmdQueueTimeout_none (h : ∀ r ∈ s.cq.queue, (s.now - r.arrival).toNat < s.rd Reg.CMD_QTMO) : exec .cmdQueueTimeout s = .next s := by
  have hq : s.queueLate = none := by
    refine find?_none_of fun r hr => ?_
    have h1 : ¬ s.rd Reg.CMD_QTMO < (s.now - r.arrival).toNat := Nat.not_lt.mpr (Nat.le_of_lt (h r hr))
    have h2 : ((s.now - r.arrival).toNat == s.rd Reg.CMD_QTMO) = false := beq_eq_false_iff_ne.mpr (Nat.ne_of_lt (h r hr))
    simp only [h1, h2, decide_false, Bool.false_and, Bool.or_self]
  change execCmdQueueTimeout s = _
  unfold execCmdQueueTimeout
  rw [hq]

theorem exec_cmdQueueTimeout {r : Req} {rest : List Req} (hq : s.cq.queue = r :: rest) (ht : s.rd Reg.CMD_QTMO < (s.now - r.arrival).toNat) :
    exec .cmdQueueTimeout s = .next ((({ s with cq := { s.cq with queue := rest } } : State).event 0x0B04 devUnit 1
      [(16, 2, pkOp r.bytes), (18, 1, 1), (19, 1, r.port)]).answer (repTo r) false stTIMEOUT (pkLease r.bytes) []) := by
  have hl : s.queueLate = some r := by
    unfold State.queueLate
    rw [hq]
    exact List.find?_cons_of_pos (by dsimp only; rw [decide_eq_true ht, Bool.true_or])
  have he : s.cq.queue.erase r = rest := by rw [hq, List.erase_cons_head]
  change execCmdQueueTimeout s = _
  unfold execCmdQueueTimeout
  rw [hl]
  dsimp only
  rw [he]

/-- The work of a command past its limit (R524). -/
def State.waitOver (s : State) (w : Wait) : Bool := w.limit.elim false (fun n => decide (n ≤ (s.now - w.start).toNat))

/-- The work of a command ends with TIMEOUT, a load dropped first (R524). -/
def State.waitEnds (s : State) (w : Wait) : State :=
  ((if w.what = .load then s.dropLoad else s).event 0x0B04 devUnit 1 [(16, 2, w.rep.opcode), (18, 1, 2), (19, 1, w.rep.port)]).finish
    w.what stTIMEOUT []

theorem exec_aFirstLimit (s : State) : exec .aFirstLimit s = (s.cq.waits.find? s.waitOver).elim (.next s) (fun w => .next (s.waitEnds w)) := by
  have hp : s.waitOver = fun w => match w.limit with
      | some n => decide (n ≤ (s.now - w.start).toNat)
      | none => false := by
    funext w
    unfold State.waitOver
    cases w.limit <;> rfl
  change execAFirstLimit s = _
  unfold execAFirstLimit
  rw [hp]
  split
  next h => exact (congrArg (fun o : Option Wait => o.elim (Host.Outcome.next s) (fun w => .next (s.waitEnds w))) h).symm
  next w h => exact (congrArg (fun o : Option Wait => o.elim (Host.Outcome.next s) (fun w => .next (s.waitEnds w))) h).symm

theorem exec_aFirstLimit_none (h : ∀ w n, w ∈ s.cq.waits → w.limit = some n → (s.now - w.start).toNat < n) : exec .aFirstLimit s = .next s := by
  rw [exec_aFirstLimit, find?_none_of, Option.elim_none]
  intro w hw
  unfold State.waitOver
  cases hl : w.limit with
  | none => rfl
  | some n => exact decide_eq_false (Nat.not_le.mpr (h w n hw hl))

theorem exec_aFirstLimit_first {w : Wait} {n : Nat} (hw : s.cq.waits.head? = some w) (hl : w.limit = some n) (ht : n ≤ (s.now - w.start).toNat) :
    exec .aFirstLimit s = .next (s.waitEnds w) := by
  obtain ⟨rest, hr⟩ := List.head?_eq_some_iff.mp hw
  have hf : s.cq.waits.find? s.waitOver = some w := by
    rw [hr]
    refine List.find?_cons_of_pos ?_
    unfold State.waitOver
    rw [hl]
    exact decide_eq_true ht
  rw [exec_aFirstLimit, hf, Option.elim_some]

end

/-- Settles O43: each timer from its rule; before its time none finds anything late. -/
theorem securityTimersComplete : Obligations.SecurityTimersComplete := by
  refine ⟨fun s id => ⟨exec_debugUnlock_none, exec_debugUnlock_recBuffered, fun x => exec_debugUnlock_denied, fun x => runs_debugUnlock,
      exec_debugRelock_locked, runs_debugRelock⟩, fun s h => ?_, fun s x => runs_sessionConfirmTimeout, fun s h => ?_, fun s h => ?_,
    fun s x hs ha hd => ⟨runs_sessionIdleTimeout hs ha hd, runs_sessionLifetimeExpiry hs ha hd⟩,
    fun s => ⟨fun h => exec_qnonceExpiry_not (.inl h), fun h => exec_qnonceExpiry_not (.inr h), runs_qnonceExpiry⟩, fun s => exec_leaseExpiry_none,
    fun s r l => runs_leaseExpiry, fun s => exec_cmdQueueTimeout_none, fun s r rest => exec_cmdQueueTimeout, fun s => exec_aFirstLimit_none,
    fun s w n => exec_aFirstLimit_first⟩
  · rw [exec_sessionConfirmTimeout, find?_none_of, Option.elim_none]
    intro x hx
    rcases h x hx with ha | ht
    · simp [State.confirmLate, ha]
    · rw [State.confirmLate, decide_eq_false (Nat.not_le.mpr ht), Bool.and_false]
  · rw [exec_sessionIdleTimeout, find?_none_of, Option.elim_none]
    intro x hx
    rcases h x hx with ha | ht
    · simp [State.idleLate, ha]
    · rw [State.idleLate, decide_eq_false (Nat.not_le.mpr ht), Bool.and_false]
  · rw [exec_sessionLifetimeExpiry, find?_none_of, Option.elim_none]
    intro x hx
    rcases h x hx with ha | ht
    · simp [State.lifeOver, ha]
    · rw [State.lifeOver, decide_eq_false (Nat.not_le.mpr ht), Bool.and_false]

end Sys2Proof.Machine
end

section
/-! SUPPORT. How a Cuard command is taken, checked and answered (R513, R519 to R531). -/

namespace Sys2Proof.Machine

/-! ### The serializer (R523, R524). -/

section
variable {d : CmdDef} {s u v : State} {r : Req} {t : RepTo}

theorem State.cuard_not_reqIs (h : reqIs d.code r = false) : s.cuard d r = .refused .illFormed := if_pos (by simp [h])

theorem State.cuard_down (h : reqIs d.code r = true) (hu : s.cuardUp = false) : s.cuard d r = .next s :=
  (if_neg (by simp [h])).trans (if_pos (by simp [hu]))

theorem State.cuard_waits (h : reqIs d.code r = true) (hc : s.cq.queue.contains r = true) (hw : s.cq.queue.head? ≠ some r ∨ s.blocked = true) :
    s.cuard d r = .next s := by
  cases hu : s.cuardUp with
  | false => exact State.cuard_down h hu
  | true =>
    unfold State.cuard
    rw [h, hu, if_pos hc]
    refine (if_neg Bool.false_ne_true).trans ((if_neg Bool.false_ne_true).trans ?_)
    dsimp only
    split
    next q rest hq =>
      refine if_neg fun ⟨hqr, hb⟩ => ?_
      rcases hw with hw | hw
      · exact hw (by rw [hq, hqr]; rfl)
      · exact absurd (hb.symm.trans hw) (by decide)
    next => rfl

/-- A request of the catalogue that finds the queue empty joins it. -/
theorem State.arrive_empty (h : reqIs d.code r = true) (hu : s.cuardUp = true) (hq : s.cq.queue = []) (ho : opcodes.contains d.code = true) :
    s.arrive r = ({ s with cq := { s.cq with queue := [r] } } : State).peakQueue := by
  unfold reqIs at h
  simp only [Bool.and_eq_true, beq_iff_eq, decide_eq_true_eq, Bool.not_eq_true'] at h
  obtain ⟨⟨⟨hop, hlen⟩, hver⟩, hflag⟩ := h
  unfold State.arrive
  rw [hu, hflag, hop, ho, hq, hver, if_neg (by decide), if_neg (by decide), if_neg (by simp [hlen]), if_neg (by decide)]
  rfl

theorem State.cuard_arrives (h : reqIs d.code r = true) (hu : s.cuardUp = true) (hq : s.cq.queue = []) (ho : opcodes.contains d.code = true)
    (hb : s.blocked = true) : s.cuard d r = .next (({ s with cq := { s.cq with queue := [r] } } : State).peakQueue) := by
  have hcq : (({ s with cq := { s.cq with queue := [r] } } : State).peakQueue).cq = { s.cq with queue := [r] } := (State.maxField_keep ..).cq rfl
  have hbx : (({ s with cq := { s.cq with queue := [r] } } : State).peakQueue).blocked = true := by
    unfold State.blocked at hb ⊢
    rw [hcq]
    exact hb
  have hc : ¬ s.cq.queue.contains r = true := by simp [hq]
  unfold State.cuard
  rw [h, hu, if_neg hc, State.arrive_empty h hu hq ho]
  refine (if_neg Bool.false_ne_true).trans ((if_neg Bool.false_ne_true).trans ?_)
  dsimp only
  rw [hcq]
  exact if_neg fun ⟨_, hn⟩ => absurd (hn.symm.trans hbx) (by decide)

/-! ### The checks in their order (R519). -/

theorem State.runCmd_late (h : v.rd Reg.CMD_QTMO < (v.now - r.arrival).toNat) :
    v.runCmd d r = (v.event 0x0B04 devUnit 1 [(16, 2, d.code), (18, 1, 1), (19, 1, r.port)]).refusedWith r (repTo r) stTIMEOUT := if_pos h

section
variable (hq : (v.now - r.arrival).toNat ≤ v.rd Reg.CMD_QTMO)
include hq

theorem State.runCmd_form (hf : headStatus r.bytes ≠ 0) : v.runCmd d r = v.refusedWith r (repTo r) (headStatus r.bytes) :=
  (if_neg (Nat.not_lt.mpr hq)).trans (if_pos hf)

variable (hf : headStatus r.bytes = 0)
include hf

theorem State.runCmd_gate {st : Nat} (hg : v.gate d r = (st, t, u)) (hs : st ≠ 0) :
    v.runCmd d r = u.refusedWith r { t with authed := t.authed && st != stAUTH_FAIL } st := by
  unfold State.runCmd
  dsimp only
  rw [if_neg (Nat.not_lt.mpr hq), if_neg (not_not_intro hf), hg]
  exact if_pos hs

/-- Check 7 of a command of class S or E (R527, R528). -/
def State.leaseCheck (u : State) (d : CmdDef) (r : Req) (t : RepTo) : Nat :=
  if d.acc = .s ∨ d.acc = .e then u.leaseStatus (d.res (pkParams r.bytes)) (pkLease r.bytes) t.key else 0

/-- What follows a gate that passes: the leases, the parameters, the window, the resource, the meaning. -/
def State.runGated (u : State) (d : CmdDef) (r : Req) (t : RepTo) : State :=
  let ls := if u.leaseCheck d r t = 0 then d.lease u t else u.leaseCheck d r t
  let p := pkParams r.bytes
  if ls ≠ 0 then u.refusedWith r t ls
  else if d.check u p ≠ 0 then u.refusedWith r t (d.check u p)
  else (u.meets d r t).elim
    (if u.resBusy (d.res p) then u.refusedWith r t stBUSY else State.conclude d r t (d.run u { req := r, rep := t, p := p }))
    (fun m => if m.params = p then u.answer t false stOK (pkLease r.bytes) m.reply else u.refusedWith r t stSUPERSEDED)

theorem State.runCmd_runGated (hg : v.gate d r = (0, t, u)) : v.runCmd d r = u.runGated d r t := by
  unfold State.runCmd State.runGated State.leaseCheck
  dsimp only
  rw [if_neg (Nat.not_lt.mpr hq), if_neg (not_not_intro hf), hg]
  dsimp only
  rw [if_neg (not_not_intro rfl)]
  cases u.meets d r t <;> rfl

end

theorem State.runGated_lease (h : u.leaseCheck d r t ≠ 0) : u.runGated d r t = u.refusedWith r t (u.leaseCheck d r t) := by
  unfold State.runGated
  rw [if_neg h]
  exact if_pos h

section
variable (hl : u.leaseCheck d r t = 0)
include hl

theorem State.runGated_own (h : d.lease u t ≠ 0) : u.runGated d r t = u.refusedWith r t (d.lease u t) := by
  unfold State.runGated
  rw [if_pos hl]
  exact if_pos h

variable (ho : d.lease u t = 0)
include ho

theorem State.runGated_check (h : d.check u (pkParams r.bytes) ≠ 0) : u.runGated d r t = u.refusedWith r t (d.check u (pkParams r.bytes)) := by
  unfold State.runGated
  rw [if_pos hl, ho]
  exact (if_neg (not_not_intro rfl)).trans (if_pos h)

variable (hc : d.check u (pkParams r.bytes) = 0)
include hc

theorem State.runGated_meets {m : Remember} (hm : u.meets d r t = some m) : u.runGated d r t =
    if m.params = pkParams r.bytes then u.answer t false stOK (pkLease r.bytes) m.reply else u.refusedWith r t stSUPERSEDED := by
  unfold State.runGated
  rw [if_pos hl, ho, hm]
  exact (if_neg (not_not_intro rfl)).trans (if_neg (not_not_intro hc))

theorem State.runGated_busy (hm : u.meets d r t = none) (hb : u.resBusy (d.res (pkParams r.bytes)) = true) :
    u.runGated d r t = u.refusedWith r t stBUSY := by
  unfold State.runGated
  rw [if_pos hl, ho, hm]
  exact (if_neg (not_not_intro rfl)).trans ((if_neg (not_not_intro hc)).trans (if_pos hb))

end

end

/-- Settles O47: the serializer first, then each check of `runCmd` in its order. -/
theorem commandsAreChecked : Obligations.CommandsAreChecked := by
  refine fun d s r => ⟨State.cuard_not_reqIs, State.cuard_down, State.cuard_waits, State.cuard_arrives, fun hr hu hq hb => ?_,
    fun t u h => h.conclude⟩
  have hrun : s.cuard d r = .next (s.dequeued.runCmd d r) := State.cuard_head hr hu hq hb
  refine ⟨fun h => hrun.trans (congrArg _ (State.runCmd_late (v := s.dequeued) h)), fun hq =>
    ⟨fun hf => hrun.trans (congrArg _ (State.runCmd_form (v := s.dequeued) hq hf)), fun st t u hf hg =>
      ⟨fun hs => hrun.trans (congrArg _ (State.runCmd_gate (v := s.dequeued) hq hf hg hs)), fun hs => ?_⟩⟩⟩
  subst hs
  have hrun : s.cuard d r = .next (u.runGated d r t) := hrun.trans (congrArg _ (State.runCmd_runGated (v := s.dequeued) hq hf hg))
  refine ⟨fun hl => hrun.trans (congrArg _ (State.runGated_lease hl)), fun hl ho => hrun.trans (congrArg _ (State.runGated_own hl ho)),
    fun hl ho hc => hrun.trans (congrArg _ (State.runGated_check hl ho hc)), fun m hl ho hc hm => ?_,
    fun hl ho hc hm hi => hrun.trans (congrArg _ (State.runGated_busy hl ho hc hm hi))⟩
  have hmem := hrun.trans (congrArg _ (State.runGated_meets hl ho hc hm))
  exact ⟨fun hp => hmem.trans (congrArg _ (if_pos hp)), fun hp => hmem.trans (congrArg _ (if_neg hp))⟩

end Sys2Proof.Machine
end

section
/-! SUPPORT. The length of a packet, and authentication, access classes and leases (R503 to R531), from the checks of R519. -/

namespace Sys2Proof.Machine

/-! ### The length of a packet (R513). -/

section
variable {b : List Byte}

theorem headStatus_of_header (hv : rdLE b 0 1 = 1) (hf : rdLE b 1 1 < 16) (hn : rdLE b 22 1 < 16) (hz : rdLE b 23 9 = 0) (hs : rdLE b 20 2 = 0) :
    headStatus b = if !pkLenOk b then stBAD_LENGTH else if !opcodes.contains (pkOp b) then stBAD_OPCODE else 0 := by
  unfold headStatus
  rw [if_neg (not_not_intro hv), if_neg (by omega)]

/-- The four rules of R513 together: a header they hold for names the packet's length. -/
theorem pkLenOk_iff (hlen : 32 ≤ b.length) (hn : rdLE b 22 1 < 16) : pkLenOk b = true ↔
    ¬ (b.length ≠ 32 + rdLE b 12 4 + 48 * (if bitOf (rdLE b 1 1) 2 then 1 else 0) + 98 * rdLE b 22 1 ∨
      (rdLE b 22 1 ≠ 0 ∧ bitOf (rdLE b 1 1) 3 = false) ∨ (rdLE b 22 1 = 0 ∧ bitOf (rdLE b 1 1) 3 = true) ∨ 8 < rdLE b 22 1 ∨ 4096 < rdLE b 12 4) := by
  have hns : pkNsig b = rdLE b 22 1 := Nat.mod_eq_of_lt hn
  have hauth : (if bitOf (rdLE b 1 1) 2 then 48 else 0) = 48 * (if bitOf (rdLE b 1 1) 2 then 1 else 0) := by split <;> rfl
  unfold pkLenOk pkWant pkFlag pkLen
  dsimp only
  rw [hns, hauth, decide_eq_true hlen, Bool.true_and, beq_iff_eq]
  split
  next h =>
    refine iff_of_false (by simp) (not_not_intro ?_)
    cases hq : bitOf (rdLE b 1 1) 3 <;> simp [hq] at h ⊢ <;> omega
  next h =>
    rw [Option.some.injEq]
    cases hq : bitOf (rdLE b 1 1) 3 <;> simp [hq] at h ⊢ <;> omega

end

/-! ### Authentication (R506). -/

section
variable {s u : State} {d : CmdDef} {r : Req} {x : Sess}

theorem State.authCheck_unknown (h : s.sess (pkSess r.bytes) = none) : s.authCheck r = (some 2, s) := by
  unfold State.authCheck
  dsimp only
  rw [h]

/-- What a session keeps of a SEQ it takes. -/
def Sess.takes (x : Sess) (q : Nat) (now : DWord) (y : Sess) : Sess :=
  { y with high := max x.high q, last := now, seen := (q :: y.seen).filter (fun v => decide (max x.high q < v + 64)) }

theorem State.authCheck_known (h : s.sess (pkSess r.bytes) = some x) : s.authCheck r =
    if x.active = false ∨ x.port ≠ r.port then (some 2, s)
    else if hmac384 x.reqKey (pkCover r.bytes) ≠ (pkTail r.bytes).take 48 then (some 2, s)
    else if pkSeq r.bytes = 0 ∨ x.seen.contains (pkSeq r.bytes) ∨ pkSeq r.bytes + 64 ≤ x.high then (some 3, s)
    else (none, s.modSess x.id (x.takes (pkSeq r.bytes) s.now)) := by
  unfold State.authCheck
  dsimp only
  rw [h]
  rfl

/-- A check that passes took the SEQ of the session. -/
theorem State.authCheck_passed (h : s.authCheck r = (none, u)) : ∃ y, s.sess (pkSess r.bytes) = some y ∧
    u = s.modSess y.id (y.takes (pkSeq r.bytes) s.now) := by
  cases hx : s.sess (pkSess r.bytes) with
  | none => rw [State.authCheck_unknown hx] at h; exact absurd (congrArg Prod.fst h) (by simp)
  | some y =>
    refine ⟨y, rfl, ?_⟩
    rw [State.authCheck_known hx] at h
    split at h
    · exact absurd (congrArg Prod.fst h) (by simp)
    · split at h
      · exact absurd (congrArg Prod.fst h) (by simp)
      · split at h
        · exact absurd (congrArg Prod.fst h) (by simp)
        · exact (congrArg Prod.snd h).symm

/-- A session looked up after a change that keeps the identities. -/
theorem State.sess_modSess {n : Nat} {f : Sess → Sess} (hf : ∀ y, (f y).id = y.id) (id : Nat) :
    (s.modSess n f).sess id = (s.sess id).map (fun y => if y.id = n then f y else y) := by
  have hp : ((fun y : Sess => y.id == id) ∘ fun y => if y.id = n then f y else y) = fun y => y.id == id := by
    funext y
    dsimp only [Function.comp]
    split
    · rw [hf]
    · rfl
  exact (List.find?_map ..).trans (by rw [hp]; rfl)

/-- The session keeps its key. -/
theorem State.authCheck_key (h : s.authCheck r = (none, u)) (hx : u.sess (pkSess r.bytes) = some x) :
    ∃ y, s.sess (pkSess r.bytes) = some y ∧ y.key = x.key := by
  obtain ⟨y, hy, rfl⟩ := State.authCheck_passed h
  rw [State.sess_modSess (f := y.takes (pkSeq r.bytes) s.now) (fun _ => rfl), hy, Option.map_some, Option.some.injEq] at hx
  refine ⟨y, hy, ?_⟩
  rw [← hx]
  split <;> rfl

/-! ### The gate (R519: checks 5 to 8). -/

/-- The key that a request's session names. -/
def State.reqKeyId (s : State) (r : Req) : Nat := (s.sess (pkSess r.bytes)).elim 255 Sess.key

/-- Who the reply goes to after authentication. -/
def State.gateRep (u : State) (d : CmdDef) (r : Req) (key : Nat) : RepTo :=
  { repTo r with
    authed := pkFlag r.bytes 2 && d.acc != .l, key := if pkFlag r.bytes 2 && d.acc != .l then key else 255
    repKey := ((u.sess (pkSess r.bytes)).map Sess.repKey).getD [] }

/-- The request is of an expert session. -/
def State.isExpert (u : State) (d : CmdDef) (r : Req) : Bool :=
  (u.sess (pkSess r.bytes)).elim false (fun x => (pkFlag r.bytes 2 && d.acc != .l) && x.expert)

/-- The gate after authentication. -/
def State.gateRest (u : State) (d : CmdDef) (r : Req) (key : Nat) : Nat × RepTo × State :=
  let t := u.gateRep d r key
  if !u.permits d.code || (d.acc == .l && r.port != 1) then (stBAD_STATE, t, u)
  else if (pkFlag r.bytes 1 && !u.isExpert d r) || (d.acc == .e && !pkFlag r.bytes 1) then (stEXPERT_LOCKED, t, u)
  else if d.acc = .q then
    if u.ktState ≠ 1 then (stQUORUM_SHORT, t, u)
    else
      let q := u.freshNonce.quorumCount r.port r.bytes
      if ones q.1 < u.ktThr then (stQUORUM_SHORT, t, q.2)
      else (0, t, (q.2.newNonce).event 0x0A06 devUnit 1 [(16, 2, d.code), (18, 1, q.1)])
  else (0, t, u)

/-- Check 5: the kind of its failure, and the state with the SEQ taken. -/
def State.gateAuth (s : State) (d : CmdDef) (r : Req) : Option Nat × State :=
  if d.acc = .l then (none, s) else if pkFlag r.bytes 2 then s.authCheck r
    else if d.acc == .s || d.acc == .e then (some 2, s) else (none, s)

theorem State.gate_eq (s : State) (d : CmdDef) (r : Req) : s.gate d r = (s.gateAuth d r).1.elim ((s.gateAuth d r).2.gateRest d r (s.reqKeyId r))
    (fun kind => (stAUTH_FAIL, { repTo r with key := s.reqKeyId r }, (s.gateAuth d r).2.authFail kind (s.reqKeyId r) r.port)) := by
  have hk : s.reqKeyId r = match s.sess (pkSess r.bytes) with
      | some x => x.key
      | none => 255 := by
    unfold State.reqKeyId
    cases s.sess (pkSess r.bytes) <;> rfl
  have he : ∀ u : State, u.isExpert d r = match u.sess (pkSess r.bytes) with
      | some x => (pkFlag r.bytes 2 && d.acc != .l) && x.expert
      | none => false := by
    intro u
    unfold State.isExpert
    cases u.sess (pkSess r.bytes) <;> rfl
  unfold State.gate State.gateRest
  rw [hk, he]
  dsimp only
  change (match (s.gateAuth d r).1 with | some kind => _ | none => _) = _
  cases (s.gateAuth d r).1 <;> rfl


theorem State.gate_unauthed {k : Nat} (h : s.gateAuth d r = (some k, u)) :
    s.gate d r = (stAUTH_FAIL, { repTo r with key := s.reqKeyId r }, u.authFail k (s.reqKeyId r) r.port) := by
  rw [State.gate_eq, h]
  rfl

theorem State.gate_authed (h : s.gateAuth d r = (none, u)) : s.gate d r = u.gateRest d r (s.reqKeyId r) := by
  rw [State.gate_eq, h]
  rfl

theorem State.gateAuth_local (h : d.acc = .l) : s.gateAuth d r = (none, s) := if_pos h

theorem State.gateAuth_flag (h : d.acc ≠ .l) (hf : pkFlag r.bytes 2 = true) : s.gateAuth d r = s.authCheck r := (if_neg h).trans (if_pos hf)

theorem State.gateAuth_missing (h : d.acc = .s ∨ d.acc = .e) (hf : pkFlag r.bytes 2 = false) : s.gateAuth d r = (some 2, s) := by
  unfold State.gateAuth
  rcases h with h | h <;> simp [h, hf]

theorem State.gateAuth_open (h : d.acc = .o ∨ d.acc = .q) (hf : pkFlag r.bytes 2 = false) : s.gateAuth d r = (none, s) := by
  unfold State.gateAuth
  rcases h with h | h <;> simp [h, hf]

section
variable {key : Nat}

theorem State.gateRest_state (h : u.permits d.code = false ∨ (d.acc = .l ∧ r.port ≠ 1)) : u.gateRest d r key = (stBAD_STATE, u.gateRep d r key, u) := by
  refine if_pos ?_
  rcases h with h | ⟨h, hp⟩
  · rw [h]
    rfl
  · rw [h, bne_iff_ne.mpr hp, Bool.or_eq_true]
    exact .inr rfl

variable (hp : u.permits d.code = true) (hl : d.acc ≠ .l ∨ r.port = 1)
include hp hl

theorem State.gateRest_permitted : u.gateRest d r key =
    if (pkFlag r.bytes 1 && !u.isExpert d r) || (d.acc == .e && !pkFlag r.bytes 1) then (stEXPERT_LOCKED, u.gateRep d r key, u)
    else if d.acc = .q then
      if u.ktState ≠ 1 then (stQUORUM_SHORT, u.gateRep d r key, u)
      else if ones (u.freshNonce.quorumCount r.port r.bytes).1 < u.ktThr then
        (stQUORUM_SHORT, u.gateRep d r key, (u.freshNonce.quorumCount r.port r.bytes).2)
      else (0, u.gateRep d r key, ((u.freshNonce.quorumCount r.port r.bytes).2.newNonce).event 0x0A06 devUnit 1
        [(16, 2, d.code), (18, 1, (u.freshNonce.quorumCount r.port r.bytes).1)])
    else (0, u.gateRep d r key, u) := by
  refine if_neg ?_
  rcases hl with h | h <;> simp [h, hp]

theorem State.gateRest_locked (h : (pkFlag r.bytes 1 = true ∧ u.isExpert d r = false) ∨ (d.acc = .e ∧ pkFlag r.bytes 1 = false)) :
    u.gateRest d r key = (stEXPERT_LOCKED, u.gateRep d r key, u) :=
  (State.gateRest_permitted hp hl).trans (if_pos (by rcases h with ⟨h, hx⟩ | ⟨h, hx⟩ <;> simp [h, hx]))

theorem State.gateRest_pass (hq : d.acc ≠ .q) (h : u.isExpert d r = pkFlag r.bytes 1) (he : d.acc = .e → pkFlag r.bytes 1 = true) :
    u.gateRest d r key = (0, u.gateRep d r key, u) := by
  refine (State.gateRest_permitted hp hl).trans ((if_neg ?_).trans (if_neg hq))
  rw [h, Bool.and_not_self, Bool.false_or, Bool.and_eq_true, beq_iff_eq, Bool.not_eq_true']
  exact fun ⟨ha, hf⟩ => absurd ((he ha).symm.trans hf) (by decide)

theorem State.gateRest_plain (hq : d.acc ≠ .q) (he : d.acc ≠ .e) (h : pkFlag r.bytes 1 = false) :
    u.gateRest d r key = (0, u.gateRep d r key, u) := by
  refine (State.gateRest_permitted hp hl).trans ((if_neg ?_).trans (if_neg hq))
  simp [h, he]

theorem State.gateRest_short (hq : d.acc = .q) (h : pkFlag r.bytes 1 = false) (hk : u.ktState ≠ 1) :
    u.gateRest d r key = (stQUORUM_SHORT, u.gateRep d r key, u) := by
  refine (State.gateRest_permitted hp hl).trans ((if_neg ?_).trans ((if_pos hq).trans (if_pos hk)))
  simp [h, hq]

end

/-! ### Leases (R526 to R528). -/

theorem State.leaseStatus_some (n id key : Nat) : s.leaseStatus (some n) id key =
    if id ≠ 0 ∧ (List.range 4).all (fun k => (s.leaseOf k).all (fun l => l.id != id)) then stLEASE_EXPIRED
    else (s.leaseOf n).elim (if id = 0 then 0 else stNOT_OWNER) (fun l => if l.id = id ∧ l.key = key then 0 else stNOT_OWNER) := by
  unfold State.leaseStatus
  dsimp only
  cases s.leaseOf n <;> rfl

theorem State.leaseStatus_free {n : Nat} (h : s.leaseOf n = none) (key : Nat) : s.leaseStatus (some n) 0 key = 0 := by
  rw [State.leaseStatus_some, h]
  exact if_neg fun hn => hn.1 rfl

/-- The LEASE of a resource's lease is no lease that has ended. -/
theorem State.leaseStatus_held {n : Nat} {l : Lease} (h : s.leaseOf n = some l) (hn : n < 4) (key : Nat) :
    s.leaseStatus (some n) l.id key = if l.key = key then 0 else stNOT_OWNER := by
  rw [State.leaseStatus_some, h, if_neg, Option.elim_some]
  · simp
  · refine fun ⟨_, ha⟩ => ?_
    have hl := List.all_eq_true.mp ha n (List.mem_range.mpr hn)
    rw [h] at hl
    simp at hl

theorem State.leaseStatus_ended {id : Nat} (h0 : id ≠ 0) (h : ∀ k l, k < 4 → s.leaseOf k = some l → l.id ≠ id) (n key : Nat) :
    s.leaseStatus (some n) id key = stLEASE_EXPIRED := by
  refine (State.leaseStatus_some ..).trans (if_pos ⟨h0, List.all_eq_true.mpr fun k hk => ?_⟩)
  cases hl : s.leaseOf k with
  | none => rfl
  | some l => exact bne_iff_ne.mpr (h k l (List.mem_range.mp hk) hl)

theorem State.leaseStatus_unnamed {n : Nat} {l : Lease} (h : s.leaseOf n = some l) (h0 : l.id ≠ 0) (key : Nat) :
    s.leaseStatus (some n) 0 key = stNOT_OWNER := by
  rw [State.leaseStatus_some, h, if_neg fun hn => hn.1 rfl]
  exact if_neg fun hn => h0 hn.1

/-! ### The device state (R531). -/

theorem State.permits_bringup (h : s.devState = stBringup) (code : Nat) :
    s.permits code = (code / 256 == 1 || code / 256 == 0xB || code == 0x0701) := if_pos h

theorem State.permits_halted (h : s.devState = stHalted) (code : Nat) : s.permits code = (code / 256 == 1 || code / 256 == 0xB) := by
  unfold State.permits
  rw [h]
  rfl

theorem State.permits_service (h : s.devState = stService) (code : Nat) : s.permits code = true := by
  unfold State.permits
  rw [h]
  rfl

theorem State.permits_withdrawn (h : s.devState = stWithdrawn) (code : Nat) :
    s.permits code = !(code == 0x0301 || code == 0x0303 || code == 0x0604 || code == 0x0803) := by
  unfold State.permits
  rw [h]
  rfl

end

/-! ### Commands without a resource (R522). -/

/-- A definition of class Q that names no resource, no target of the conflict window and no lease check of its own. -/
structure CmdDef.Quorate (d : CmdDef) : Prop where
  acc : d.acc = .q
  res : d.res = fun _ => none
  item : d.item = fun _ => []
  lease : d.lease = fun _ _ => 0

theorem quorate_of_mem {d : CmdDef}
    (h : d ∈ [defLeaseTakeover, defKeytabSet, defFuseBurn false, defFuseBurn true, defShadowPromote, defWithdraw, defReturnService]) :
    d.Quorate := by
  simp only [List.mem_cons, List.not_mem_nil, or_false] at h
  rcases h with rfl | rfl | rfl | rfl | rfl | rfl | rfl <;> exact ⟨rfl, rfl, rfl, rfl⟩

section
variable {d : CmdDef} (h : d.Quorate)
include h

theorem CmdDef.Quorate.meets (u : State) (r : Req) (t : RepTo) : u.meets d r t = none := by
  unfold State.meets
  rw [h.item]
  exact List.find?_eq_none.mpr fun m _ => by simp

theorem CmdDef.Quorate.remember (y : State) (r : Req) (t : RepTo) (p : List Byte) : y.remember d r t p = y := by
  unfold State.remember
  rw [h.item]
  exact if_neg (by simp)

theorem CmdDef.Quorate.runCmd {u v : State} {r : Req} {t : RepTo} (hq : (v.now - r.arrival).toNat ≤ v.rd Reg.CMD_QTMO) (hf : headStatus r.bytes = 0)
    (hg : v.gate d r = (0, t, u)) (hc : d.check u (pkParams r.bytes) = 0) :
    v.runCmd d r = State.conclude d r t (d.run u { req := r, rep := t, p := pkParams r.bytes }) :=
  State.runCmd_gated hq hf hg (fun ha => absurd ha (by simp [h.acc])) (by rw [h.lease]) hc (h.meets ..) (by rw [h.res]; rfl)

end

/-- An authenticated command that the device state does not permit. -/
theorem State.runCmd_badState {d : CmdDef} {u v : State} {r : Req} (hq : (v.now - r.arrival).toNat ≤ v.rd Reg.CMD_QTMO) (hf : headStatus r.bytes = 0)
    (ha : v.gateAuth d r = (none, u)) (hp : u.permits d.code = false) : ∃ t, v.runCmd d r = u.refusedWith r t stBAD_STATE :=
  ⟨_, State.runCmd_gate hq hf ((State.gate_authed ha).trans (State.gateRest_state (.inl hp))) (by decide)⟩

/-! ### The statements. -/

/-- Settles O55: past the checks of version and reserved bits, the status is that of the length check. -/
theorem packetLengthIsChecked : Obligations.PacketLengthIsChecked := by
  intro d s r hr hu hq hb ht hf hn hz hs
  have hr' := hr
  unfold reqIs at hr'
  simp only [Bool.and_eq_true, beq_iff_eq, decide_eq_true_eq] at hr'
  obtain ⟨⟨⟨-, hlen⟩, hv⟩, -⟩ := hr'
  have hst := headStatus_of_header hv hf hn hz hs
  have hok := pkLenOk_iff hlen hn
  refine ⟨fun hbad => ?_, fun hbad => ⟨?_, ?_⟩⟩
  · have hno : pkLenOk r.bytes = false := Bool.eq_false_iff.mpr fun h => hok.mp h hbad
    have hst : headStatus r.bytes = stBAD_LENGTH := hst.trans (if_pos (by rw [hno]; rfl))
    have hrun : s.dequeued.runCmd d r = s.dequeued.refusedWith r (repTo r) stBAD_LENGTH := by
      rw [State.runCmd_form (v := s.dequeued) ht (by rw [hst]; decide), hst]
    exact (State.cuard_head hr hu hq hb).trans (congrArg _ hrun)
  · rw [hst, hok.mpr hbad, if_neg (by decide)]
    split <;> decide
  · split at hbad <;> omega

/-- Settles O48: each check from its rule. -/
theorem commandsAreAuthenticated : Obligations.CommandsAreAuthenticated := by
  refine ⟨fun s r => ⟨State.authCheck_unknown, fun x hx => ?_⟩, fun s d r hx => ?_, fun s d r x u ha hx hd hf hp => ?_, fun s n id key =>
    ⟨rfl, fun h => State.leaseStatus_free h key, fun l hl hn => ?_, fun h0 h => State.leaseStatus_ended h0 h n key,
      fun l hl h0 => State.leaseStatus_unnamed hl h0 key⟩, fun s code => ⟨fun h => State.permits_halted h code,
      fun h => State.permits_bringup h code, fun h => State.permits_service h code, fun h => State.permits_withdrawn h code⟩⟩
  · have hc := State.authCheck_known hx
    refine ⟨fun h => hc.trans (if_pos h), fun ha hp hm => hc.trans ((if_neg (by simp [ha, hp])).trans (if_pos hm)),
      fun ha hp hm => ⟨fun h => ?_, fun h0 hs hh => ?_⟩⟩
    · exact hc.trans ((if_neg (by simp [ha, hp])).trans ((if_neg (not_not_intro hm)).trans (if_pos h)))
    · have ht : s.authCheck r = (none, s.modSess x.id (x.takes (pkSeq r.bytes) s.now)) := by
        refine hc.trans ((if_neg (by simp [ha, hp])).trans ((if_neg (not_not_intro hm)).trans (if_neg ?_)))
        rintro (h | h | h)
        · exact h0 h
        · exact absurd (hs.symm.trans h) (by decide)
        · omega
      rw [ht]
      exact ⟨rfl, rfl, (s.modSess_keep ..).alters _ (by decide)⟩
  · have hk : s.reqKeyId r = 255 := by rw [State.reqKeyId, hx]; rfl
    have hx1 : s.isExpert d r = false := by rw [State.isExpert, hx]; rfl
    have hfail (h : s.gateAuth d r = (some 2, s)) : s.gate d r = (stAUTH_FAIL, { repTo r with key := 255 }, s.authFail 2 255 r.port) := by
      rw [State.gate_unauthed h, hk]
    refine ⟨fun ha => hfail ?_, fun ha hf => hfail ?_, fun ha hf => ?_, fun ha => ?_, fun ha hf he hp hkt => ?_⟩
    · cases hf : pkFlag r.bytes 2 with
      | false => exact State.gateAuth_missing ha hf
      | true => exact (State.gateAuth_flag (by rcases ha with ha | ha <;> simp [ha]) hf).trans (State.authCheck_unknown hx)
    · exact (State.gateAuth_flag (by simp [ha]) hf).trans (State.authCheck_unknown hx)
    · have hg := State.gate_authed (State.gateAuth_open (s := s) (.inl ha) hf)
      have hl : d.acc ≠ .l ∨ r.port = 1 := .inl (by simp [ha])
      refine ⟨fun hp => ?_, fun hp he => ?_, fun hp he => ?_⟩
      · rw [hg, State.gateRest_state (.inl hp)]
        exact ⟨rfl, rfl⟩
      · rw [hg, State.gateRest_plain hp hl (by simp [ha]) (by simp [ha]) he]
        unfold State.gateRep
        rw [hf, hx]
        rfl
      · rw [hg, State.gateRest_locked hp hl (.inl ⟨he, hx1⟩)]
        exact ⟨rfl, rfl⟩
    · have hg := State.gate_authed (State.gateAuth_local (s := s) (r := r) ha)
      refine ⟨fun hp => ?_, fun hport hp he => ?_⟩
      · rw [hg, State.gateRest_state (.inr ⟨ha, hp⟩)]
        exact ⟨rfl, rfl⟩
      · rw [hg, State.gateRest_plain hp (.inr hport) (by simp [ha]) (by simp [ha]) he]
        exact ⟨rfl, rfl⟩
    · rw [State.gate_authed (State.gateAuth_open (s := s) (.inr ha) hf), State.gateRest_short hp (.inl (by simp [ha])) ha he hkt]
      exact ⟨rfl, rfl⟩
  · have hl : d.acc ≠ .l ∨ r.port = 1 := .inl (by simp [hd])
    have hg := State.gate_authed ((State.gateAuth_flag (d := d) (by simp [hd]) hf).trans ha)
    have hxp : u.isExpert d r = x.expert := by simp [State.isExpert, hx, hf, hd]
    refine ⟨fun h => ?_, fun he hxe => ?_⟩
    · rw [hg, State.gateRest_locked hp hl]
      · exact ⟨rfl, rfl⟩
      · rw [hxp]
        cases he : pkFlag r.bytes 1 with
        | false => exact .inr ⟨hd, rfl⟩
        | true => exact .inl ⟨rfl, h.resolve_left (by simp [he])⟩
    · obtain ⟨y, hy, hyk⟩ := State.authCheck_key ha hx
      have hk : s.reqKeyId r = x.key := by rw [State.reqKeyId, hy]; exact hyk
      have ht : (pkFlag r.bytes 2 && d.acc != .l) = true := by simp [hf, hd]
      rw [hg, State.gateRest_pass hp hl (by simp [hd]) (by rw [hxp, hxe, he]) (fun _ => he), hk]
      exact ⟨rfl, rfl, ht, if_pos ht⟩
  · exact ⟨fun hi hk => by subst hi; exact (State.leaseStatus_held hl hn key).trans (if_pos hk),
      fun hi hk => by subst hi; exact (State.leaseStatus_held hl hn key).trans (if_neg hk)⟩

/-- Settles O56: a definition without resource, target and lease check meets only the gate and its parameters' check. -/
theorem quorumCommandsMeetNoLease : Obligations.QuorumCommandsMeetNoLease := by
  intro d hd
  have h := quorate_of_mem hd
  refine ⟨h.acc, fun s r hr hu hq hb ht hf => ?_⟩
  have hrun : s.cuard d r = .next (s.dequeued.runCmd d r) := State.cuard_head hr hu hq hb
  refine ⟨fun t u hg hc => ⟨hrun.trans (congrArg _ (h.runCmd (v := s.dequeued) ht hf hg hc)), fun y p => h.remember y r t p⟩,
    fun hn hp => ?_, fun u hy ha hp => ?_⟩
  · obtain ⟨t, he⟩ := State.runCmd_badState (v := s.dequeued) ht hf (State.gateAuth_open (.inr h.acc) hn) hp
    exact ⟨t, hrun.trans (congrArg _ he)⟩
  · obtain ⟨t, he⟩ := State.runCmd_badState (v := s.dequeued) ht hf ((State.gateAuth_flag (by simp [h.acc]) hy).trans ha) hp
    exact ⟨t, hrun.trans (congrArg _ he)⟩

end Sys2Proof.Machine
end

section
/-! SUPPORT. The withdrawal record (R584): what module flash reads after bytes are put, and each operation that writes the record. -/

namespace Sys2Proof.Machine

/-! ### Bytes put in module flash (R583). -/

theorem State.flashBytes_congr {s t : State} (h : t.flash = s.flash) (a n : Nat) : t.flashBytes a n = s.flashBytes a n := by
  unfold State.flashBytes State.flashAt
  rw [h]

theorem State.flashAt_flashPut_list {s : State} (i : s.Inv) (a : Nat) {l : List Byte} {k : Nat} (hk : k < l.length) :
    (s.flashPut a l).flashAt (a + k) = l[k] := by
  change tget 0 (memPut s.flash a (l.map (· ^^^ 0xFF))) (a + k) ^^^ 0xFF = _
  rw [tget_memPut i.flash, if_pos ⟨Nat.le_add_right a k, by rw [List.length_map]; omega⟩, Nat.add_sub_cancel_left, List.getElem?_map,
    List.getElem?_eq_getElem hk]
  exact (BitVec.xor_assoc ..).trans (BitVec.xor_zero)

theorem State.flashBytes_flashPut {s : State} (i : s.Inv) {n : Nat} {l : List Byte} (hl : l.length = n) (a : Nat) :
    (s.flashPut a l).flashBytes a n = l := by
  subst hl
  have hlen : ((s.flashPut a l).flashBytes a l.length).length = l.length := (List.length_map ..).trans List.length_range
  refine List.ext_getElem hlen fun k _ hk => ((List.getElem_map ..).trans ?_).trans (State.flashAt_flashPut_list i a hk)
  rw [List.getElem_range]

theorem withdrawalRec_length (tick cause : Nat) : (withdrawalRec tick cause).length = 4096 := by
  rw [withdrawalRec, List.length_append, List.length_append, List.length_append, toLE_length, toLE_length, toLE_length, List.length_replicate]

section
variable {s : State}

/-! ### A withdrawal (R37, R38). -/

/-- A withdrawal records itself once quarantine and the running context have ended. -/
theorem State.withdraw_eq (s : State) (cause : Nat) : ∃ u, Keep 0x3EDF14CBB s u ∧ s.withdraw cause =
    ((((u.flashPut flWithdrawal (withdrawalRec u.now.toNat cause)).wf Reg.CMD_DEV_STATE 19 19 1).setDev stWithdrawn cause).breachNotice 3) :=
  ⟨(s.quarEnd 4 0).faultRunning cause, Keep.via (State.faultRunning_keep ..) rfl ((s.quarEnd_keep ..).mono rfl), rfl⟩

theorem State.flashBytes_withdraw (i : s.Inv) (cause : Nat) :
    (s.withdraw cause).flashBytes flWithdrawal 4096 = withdrawalRec s.now.toNat cause := by
  obtain ⟨u, hk, hu⟩ := s.withdraw_eq cause
  have hr : Keep 0x3EFF9FCBB (u.flashPut flWithdrawal (withdrawalRec u.now.toNat cause)) (s.withdraw cause) := by
    rw [hu]
    exact Keep.via (State.breachNotice_keep ..) rfl (Keep.via (State.setDev_keep ..) rfl ((State.wf_keep ..).mono rfl))
  rw [State.flashBytes_congr (hr.flash rfl), State.flashBytes_flashPut (hk.inv i) (withdrawalRec_length _ _), hk.now rfl]

/-! ### The device state after a withdrawal (R40). -/

theorem State.setDev_devState (i : s.Inv) (ho : s.off = false) {new : Nat} (hn : new < 8) (cause : Nat) : (s.setDev new cause).devState = new := by
  by_cases h : s.devState = new
  · rw [State.setDev, if_pos h]
    exact h
  · rw [State.setDev_eq h]
    have hs : ((s.wf Reg.CMD_DEV_STATE 2 0 new).stampDev s.devState cause).Shows Reg.CMD_DEV_STATE 2 0 new :=
      (i.shows_wf Reg.CMD_DEV_STATE (by decide) (by decide) hn).of_but (State.stampDev_keep ..) (State.stampDev_but _ _ _) (by decide)
    have hoff : ((s.wf Reg.CMD_DEV_STATE 2 0 new).stampDev s.devState cause).off = false :=
      ((State.stampDev_keep ..).off rfl).trans (((State.wf_keep ..).off rfl).trans ho)
    exact (if_neg (by rw [hoff]; decide)).trans hs.reads

theorem State.toPeers_but (s : State) {type : Nat} (h : type ≠ 9) (pay : List Byte) : s.RegsBut (s.toPeers type pay) routeRegs := by
  refine State.RegsBut.foldl (fun u n _ => ?_) (.refl s _)
  split
  · unfold State.inject
    split
    · exact .refl u _
    · dsimp only
      rw [if_neg (show ¬ (u.sysPkt type _ pay).type = 9 from h)]
      exact u.routePkt_but _ _ _ _
  · exact .refl u _

theorem State.breachNotice_but (s : State) (cause : Nat) : s.RegsBut (s.breachNotice cause) routeRegs := by
  have hp : s.RegsBut (s.toPartners 7 (s.noticeBytes cause)) routeRegs := .of_regs ((s.toPartners_keep ..).regs rfl) _
  exact (hp.trans (State.toPeers_but _ (by decide) _)).trans (.of_regs rfl _)

theorem State.withdraw_devState (i : s.Inv) (ho : s.off = false) (cause : Nat) : (s.withdraw cause).devState = stWithdrawn := by
  obtain ⟨u, hk, hu⟩ := s.withdraw_eq cause
  have hw : Keep 0x3E9F14CBB s ((u.flashPut flWithdrawal (withdrawalRec u.now.toNat cause)).wf Reg.CMD_DEV_STATE 19 19 1) := by
    exact Keep.via (State.wf_keep ..) rfl (Keep.via (State.flashPut_keep ..) rfl (hk.mono rfl))
  rw [hu]
  refine (State.devState_congr ((State.breachNotice_keep ..).off rfl) ((State.breachNotice_but _ _).rf (by decide) 2 0)).trans ?_
  exact State.setDev_devState (hw.inv i) ((hw.off rfl).trans ho) (by decide) cause

/-! ### A return to service (R38). -/

theorem State.flashBytes_returnService (i : s.Inv) : s.returnService.flashBytes flWithdrawal 4096 = List.replicate 4096 0xFF := by
  have hr : Keep 0x3EFF9FCFB (s.flashPut flWithdrawal (List.replicate 4096 0xFF)) s.returnService := by
    unfold State.returnService
    exact Keep.via (State.setDev_keep ..) rfl (Keep.via (State.wf_keep ..) rfl (Keep.via (State.unquiet_keep ..) rfl ((State.clearCounted_keep ..).mono rfl)))
  rw [State.flashBytes_congr (hr.flash rfl), State.flashBytes_flashPut i List.length_replicate]

theorem State.backNow_congr {s t : State} (hn : t.now = s.now) (hr : t.rst = s.rst) : t.backNow = s.backNow := by
  unfold State.backNow
  rw [hn, hr]

theorem State.withdrawFirst_alone (hb : s.backNow = none) (cause : Nat) : s.withdrawFirst cause = s.withdraw cause := by
  have hk := s.withdraw_keep cause
  refine if_neg ?_
  rw [State.backNow_congr (hk.now rfl) (hk.rst rfl), hb]
  decide

theorem State.withdrawFirst_returned (i : s.Inv) (ho : s.off = false) (hb : s.backNow ≠ none) (cause : Nat) :
    s.withdrawFirst cause = (s.withdraw cause).returnService := by
  have hk := s.withdraw_keep cause
  refine (if_pos ?_).trans (if_pos (State.withdraw_devState i ho cause))
  rw [State.backNow_congr (hk.now rfl) (hk.rst rfl)]
  exact Option.isSome_iff_ne_none.mpr hb

/-! ### Start-up (R37, R563). -/

/-- The fields of CMD_DEV_STATE below PHASE stay as a phase begins. -/
theorem State.Shows.toPhase {hi lo n : Nat} (h : s.Shows Reg.CMD_DEV_STATE hi lo n) (hh : hi < 24) (ph : Nat) :
    (s.toPhase ph).Shows Reg.CMD_DEV_STATE hi lo n :=
  State.Shows.wf_disjoint (s := { s with boot := { s.boot with at_ := s.wall } })
    (h.of_regs (Keep.setBoot (m := 0x37FFFFFFF) rfl (Keep.refl _ _)) rfl) (by decide) (by decide) (.inl hh) ph

/-- Phase 5 shows whether a record is present. -/
theorem State.calDone_withdrawn (i : s.Inv) (late : Bool) :
    (s.calDone late).rbit Reg.CMD_DEV_STATE 19 = !(s.flashBytes flWithdrawal 4096).all (· == 0xFF) := by
  unfold State.calDone
  extract_lets u1 v u2 u3 u4
  have h1 : Keep 0x3EFBDFCFB s u1 := (State.judgeCal_keep ..).mono rfl
  have h2 : Keep 0x3EFBDFCFB s u2 := Keep.setHlth rfl h1
  have h3 : Keep 0x3EFBDFCFB s u3 := Keep.via (State.loadPlan_keep ..) rfl <| Keep.via (State.loadSoft_keep ..) rfl <|
    Keep.via (State.loadAge_keep ..) rfl <| Keep.via (State.loadBaseline_keep ..) rfl h2
  have h4 : u4.Shows Reg.CMD_DEV_STATE 19 19 (if (u3.flashBytes flWithdrawal 4096).all (· == 0xFF) then 0 else 1) :=
    (h3.inv i).shows_wf Reg.CMD_DEV_STATE (by decide) (by decide) (by split <;> decide)
  have h5 := (h4.of_but (State.extend_keep ..) (State.extend_but _ 2 (sha384 (calHead u4))) (by decide))
  have h6 := (h5.of_but (State.extend_keep ..) (State.extend_but _ 2 (sha384 u4.softImage)) (by decide))
  have h7 := h6.toPhase (by decide) 6
  rw [State.flashBytes_congr (h3.flash rfl)] at h7
  refine h7.rbit.trans ?_
  cases (s.flashBytes flWithdrawal 4096).all (· == 0xFF) <;> rfl

theorem flashBytes_all_iff (a n : Nat) : (s.flashBytes a n).all (· == 0xFF) = true ↔ ∀ k, k < n → s.flashAt (a + k) = 0xFF := by
  simp [State.flashBytes, List.all_eq_true]

/-! ### The answer leaves flash alone. -/

theorem State.accepted_flash (d : CmdDef) (r : Req) (t : RepTo) (p : List Byte) : (s.accepted d r t p).flash = s.flash :=
  (Keep.via (m := 0x3CFF9FCBB) (State.answer_keep ..) rfl ((s.remember_keep ..).mono rfl)).flash rfl

/-- A command that executes finds the device on. -/
theorem Executes.on {d : CmdDef} {u : State} {r : Req} {t : RepTo} (h : Executes d s r t u) : u.off = false := by
  have hk : Keep 0x3CFFDFCDB s.dequeued u := by
    have hg := State.gate_keep s.dequeued d r
    rw [show s.dequeued.gate d r = (0, t, u) from h.gate] at hg
    exact hg
  have hu := h.up
  unfold State.cuardUp at hu
  simp only [Bool.and_eq_true, Bool.not_eq_true'] at hu
  obtain ⟨⟨ho, -⟩, -⟩ := hu
  exact (hk.off rfl).trans ho

end

/-- Settles O57: each operation that writes the record puts its 4 KiB, and what follows it leaves flash alone. -/
theorem withdrawalRecordIsKept : Obligations.WithdrawalRecordIsKept := by
  refine ⟨fun s i hb => ⟨s.calDone false, congrArg Host.Outcome.next (if_pos hb), ?_⟩, fun s cause i => State.flashBytes_withdraw i cause,
    fun s r t u h i hw => ⟨_, (withdraw_completes h).2 hw, fun hb => ?_, fun hb => ?_⟩, fun s r t u h i => ?_⟩
  · rw [State.calDone_withdrawn i, Bool.not_eq_false', flashBytes_all_iff]
  · rw [State.flashBytes_congr (State.accepted_flash ..), State.withdrawFirst_alone hb]
    exact State.flashBytes_withdraw i _
  · rw [State.flashBytes_congr (State.accepted_flash ..), State.withdrawFirst_returned i h.on hb]
    exact State.flashBytes_returnService ((State.withdraw_keep ..).inv i)
  · have hx : Keep 0x3FF7FFFFF u u.backSet := Keep.setRst rfl (Keep.refl _ _)
    by_cases hw : u.devState = stWithdrawn
    · refine ⟨_, (returnService_completes h).1 hw, fun _ => ?_, fun hn => absurd hw hn⟩
      rw [State.flashBytes_congr (State.accepted_flash ..)]
      exact State.flashBytes_returnService (hx.inv i)
    · exact ⟨_, (returnService_completes h).2 hw, fun hn => absurd hn hw, fun _ =>
        (State.accepted_flash ..).trans ((State.clearCounted_keep u.backSet).flash rfl)⟩

end Sys2Proof.Machine
end

section
/-! SUPPORT. Cuard commands of group 0x01xx (R533): identity, sessions, leases and keys, each from its meaning. -/

namespace Sys2Proof.Machine

section
variable {s u : State} {r : Req} {t : RepTo}

/-! ### Identity and state. -/

theorem certGet_completes (h : Executes defCertGet s r t u) : let p := pkParams r.bytes
    (u.certificate.length < rdLE p 0 4 + rdLE p 4 2 → exec (.certGet r) s = .next (u.refusedWith r t stOUT_OF_RANGE)) ∧
    (rdLE p 0 4 + rdLE p 4 2 ≤ u.certificate.length → exec (.certGet r) s = .next (u.accepted defCertGet r t
      (toLE 4 u.certificate.length ++ (u.certificate.drop (rdLE p 0 4)).take (min (rdLE p 4 2) 4092)))) :=
  ⟨fun hl => h.refused (by decide) (if_pos hl), fun hl => h.ok (if_neg (Nat.not_lt.mpr hl))⟩

/-! ### Sessions (R504, R507). -/

/-- A meaning that answers OK in a session of its own. -/
theorem conclude_session {d : CmdDef} {o : Out} (hw : o.wait = none) (hs : o.status = stOK) (hl : o.lease = none) {i : Nat} (hi : o.session = some i) :
    State.conclude d r t o = (o.s.remember d r t o.params).answer { t with session := i } false stOK (pkLease r.bytes) o.params := by
  obtain ⟨x, st, p, l, n, w⟩ := o
  dsimp only at hw hs hl hi
  subst hw hs hl hi
  rfl

theorem State.openSession_agrees (u : State) (c : Call) : ∃ y : Sess, (u.openSession c).s.cq.sessions = u.cq.sessions ++ [y] ∧ y.active = false ∧
    y.port = c.req.port ∧ y.key = rdLE c.p 0 1 ∧ y.expert = (rdLE c.p 1 1 == 1) ∧ y.opened = u.now ∧ (u.openSession c).session = some y.id := by
  unfold State.openSession
  exact ⟨_, rfl, rfl, rfl, rfl, rfl, rfl, rfl⟩

/-- What SESSION_OPEN answers, in the order of its checks. -/
theorem run_sessionOpen (c : Call) : defSessionOpen.run u c =
    if u.tooManyFails then outSt u stBUSY
    else if !(u.keyHas (rdLE c.p 0 1) 0 && (!(rdLE c.p 1 1 == 1) || u.keyHas (rdLE c.p 0 1) 1) && sec1Ok (sliceB c.p 2 97)) then
      u.shakeFail (rdLE c.p 0 1) c.req.port
    else if (rdLE c.p 1 1 == 1) && u.cq.sessions.any (·.expert) then outSt u stEXPERT_LOCKED
    else if 8 ≤ u.cq.sessions.length then outSt u stBUSY
    else u.openSession c := rfl

theorem sessionOpen_completes (h : Executes defSessionOpen s r t u) : let p := pkParams r.bytes; let k := rdLE p 0 1; let ex := rdLE p 1 1 == 1
    let good := u.keyHas k 0 && (!ex || u.keyHas k 1) && sec1Ok (sliceB p 2 97)
    (u.tooManyFails = true → exec (.sessionOpen r) s = .next (u.refusedWith r t stBUSY)) ∧
    (u.tooManyFails = false → good = false → exec (.sessionOpen r) s = .next ((u.authFail 1 k r.port).refusedWith r t stAUTH_FAIL)) ∧
    (u.tooManyFails = false → good = true → ex = true → u.cq.sessions.any (·.expert) = true → exec (.sessionOpen r) s = .next (u.refusedWith r t stEXPERT_LOCKED)) ∧
    (u.tooManyFails = false → good = true → (ex = false ∨ u.cq.sessions.any (·.expert) = false) → 8 ≤ u.cq.sessions.length →
      exec (.sessionOpen r) s = .next (u.refusedWith r t stBUSY)) ∧
    (u.tooManyFails = false → good = true → (ex = false ∨ u.cq.sessions.any (·.expert) = false) → u.cq.sessions.length < 8 →
      ∃ x y, (u.openSession { req := r, rep := t, p := p }).s = x ∧ x.cq.sessions = u.cq.sessions ++ [y] ∧ y.active = false ∧ y.port = r.port ∧ y.key = k ∧ y.expert = ex ∧
        y.opened = u.now ∧ exec (.sessionOpen r) s = .next ((x.remember defSessionOpen r t (u.openSession { req := r, rep := t, p := p }).params).answer
          { t with session := y.id } false stOK (pkLease r.bytes) (u.openSession { req := r, rep := t, p := p }).params)) := by
  intro p k ex good
  have hrun := run_sessionOpen (u := u) { req := r, rep := t, p := p }
  refine ⟨fun hf => h.refused (by decide) (hrun.trans (if_pos hf)), fun hf hg => ?_, fun hf hg hx ha => ?_, fun hf hg hx hl => ?_, fun hf hg hx hl => ?_⟩
  all_goals rw [if_neg (by rw [hf]; decide)] at hrun
  · exact h.refused (by decide) (hrun.trans (if_pos (by rw [Bool.not_eq_true']; exact hg)))
  all_goals have hrun := hrun.trans (if_neg (by rw [Bool.not_eq_true', Bool.not_eq_false]; exact hg))
  · exact h.refused (by decide) (hrun.trans (if_pos (Bool.and_eq_true_iff.mpr ⟨hx, ha⟩)))
  all_goals have hrun := hrun.trans (if_neg (by rw [Bool.not_eq_true, Bool.and_eq_false_iff]; exact hx))
  · exact h.refused (by decide) (hrun.trans (if_pos hl))
  · obtain ⟨y, hs, ha, hp, hk, he, ho, hi⟩ := u.openSession_agrees { req := r, rep := t, p := p }
    refine ⟨_, y, rfl, hs, ha, hp, hk, he, ho, h.conclude.trans (congrArg _ ?_)⟩
    rw [hrun.trans (if_neg (Nat.not_le.mpr hl))]
    exact conclude_session rfl rfl rfl hi

/-- SESSION_CONFIRM of a known session, in the order of its checks. -/
theorem run_sessionConfirm {c : Call} {x : Sess} (hx : u.sess c.rep.session = some x) : defSessionConfirm.run u c =
    if x.active ∨ x.port ≠ c.req.port then u.shakeFail x.key c.req.port
    else if decide (1000000000 < (u.now - x.opened).toNat) || !(u.keyHas x.key 0 && ecdsaVerify (u.keyPub x.key) (sha384 x.tHash) c.p) then
      ({ u with cq := { u.cq with sessions := u.cq.sessions.filter (fun y => decide (y.id ≠ x.id)) } } : State).shakeFail x.key c.req.port
    else outOk ((u.modSess x.id (fun y => { y with active := true, opened := u.now, last := u.now })).event 0x0A03 devUnit 1
      [(16, 4, x.id), (20, 1, x.key), (21, 1, boolN x.expert), (22, 1, x.port)]) [] := by
  unfold defSessionConfirm
  dsimp only
  rw [hx]

theorem run_sessionConfirm_unknown {c : Call} (hx : u.sess c.rep.session = none) : defSessionConfirm.run u c = u.shakeFail 255 c.req.port := by
  unfold defSessionConfirm
  dsimp only
  rw [hx]

theorem sessionConfirm_completes (h : Executes defSessionConfirm s r t u) : let p := pkParams r.bytes
    (u.sess t.session = none → exec (.sessionConfirm r) s = .next ((u.authFail 1 255 r.port).refusedWith r t stAUTH_FAIL)) ∧
    (∀ x, u.sess t.session = some x →
      ((x.active = true ∨ x.port ≠ r.port) → exec (.sessionConfirm r) s = .next ((u.authFail 1 x.key r.port).refusedWith r t stAUTH_FAIL)) ∧
      (x.active = false → x.port = r.port → (1000000000 < (u.now - x.opened).toNat ∨
        (u.keyHas x.key 0 && ecdsaVerify (u.keyPub x.key) (sha384 x.tHash) p) = false) → exec (.sessionConfirm r) s =
        .next ((({ u with cq := { u.cq with sessions := u.cq.sessions.filter (fun y => decide (y.id ≠ x.id)) } } : State).authFail 1 x.key r.port).refusedWith r t
          stAUTH_FAIL)) ∧
      (x.active = false → x.port = r.port → (u.now - x.opened).toNat ≤ 1000000000 →
        (u.keyHas x.key 0 && ecdsaVerify (u.keyPub x.key) (sha384 x.tHash) p) = true → exec (.sessionConfirm r) s =
        .next (((u.modSess x.id (fun y => { y with active := true, opened := u.now, last := u.now })).event 0x0A03 devUnit 1
          [(16, 4, x.id), (20, 1, x.key), (21, 1, boolN x.expert), (22, 1, x.port)]).accepted defSessionConfirm r t []))) := by
  intro p
  refine ⟨fun hx => h.refused (by decide) (run_sessionConfirm_unknown hx), fun x hx => ?_⟩
  have hrun := run_sessionConfirm (c := { req := r, rep := t, p := p }) hx
  refine ⟨fun hb => h.refused (by decide) (hrun.trans (if_pos hb)), fun ha hp hl => ?_, fun ha hp hl hv => ?_⟩
  all_goals have hrun := hrun.trans (if_neg (fun hb => hb.elim (fun hb => absurd (ha.symm.trans hb) (by decide)) (fun hb => hb hp)))
  · refine h.refused (by decide) (hrun.trans (if_pos ?_))
    rw [Bool.or_eq_true, decide_eq_true_iff, Bool.not_eq_true']
    exact hl
  · refine h.ok (hrun.trans (if_neg ?_))
    rw [Bool.or_eq_true, decide_eq_true_iff, Bool.not_eq_true']
    exact fun hb => hb.elim (fun hb => absurd hb (Nat.not_lt.mpr hl)) (fun hb => absurd (hb.symm.trans hv) (by decide))

/-! ### Leases (R526 to R529). -/

/-- A lease granted, and its reply. -/
theorem State.grantLease_grants (v : State) (n key secs : Nat) : ∃ i, (v.grantLease n key secs).lease = some i ∧
    tget none (v.grantLease n key secs).s.cq.leases n = some { key := key, id := i, expiry := v.now + BitVec.ofNat 64 (secs * 100000000) } :=
  ⟨_, rfl, tget_tset_eq (Option.some_ne_none _) _⟩

/-- A meaning that answers with a lease granted. -/
theorem conclude_lease {d : CmdDef} {v : State} {n key secs i : Nat} (hi : (v.grantLease n key secs).lease = some i) :
    State.conclude d r t (v.grantLease n key secs) =
      ((v.grantLease n key secs).s.remember d r t (v.grantLease n key secs).params).answer t false stOK i (v.grantLease n key secs).params := by
  have hi : (v.drawId v.leaseIds).1 = i := Option.some.inj hi
  subst hi
  rfl

theorem leaseAcquire_completes (h : Executes defLeaseAcquire s r t u) : let p := pkParams r.bytes; let n := rdLE p 0 1; let v := u.lapse n
    (∀ l, v.leaseOf n = some l → exec (.leaseAcquire r) s = .next (v.refusedWith r t stNOT_OWNER)) ∧
    (v.leaseOf n = none → let g := (v.event 0x0B02 devUnit 1 [(16, 1, n), (17, 1, 1), (18, 1, t.key), (19, 1, 255)]).grantLease n t.key (rdLE p 1 2)
      ∃ i, g.lease = some i ∧ tget none g.s.cq.leases n = some { key := t.key, id := i, expiry := u.now + BitVec.ofNat 64 (rdLE p 1 2 * 100000000) } ∧
        exec (.leaseAcquire r) s = .next ((g.s.remember defLeaseAcquire r t g.params).answer t false stOK i g.params)) := by
  intro p n v
  refine ⟨fun l hl => h.refused (by decide) ?_, fun hl => ?_⟩
  · unfold defLeaseAcquire
    dsimp only
    rw [hl]
  · intro g
    obtain ⟨i, hi, ht⟩ := (v.event 0x0B02 devUnit 1 [(16, 1, n), (17, 1, 1), (18, 1, t.key), (19, 1, 255)]).grantLease_grants n t.key (rdLE p 1 2)
    have hrun : defLeaseAcquire.run u { req := r, rep := t, p := p } = g := by
      unfold defLeaseAcquire
      dsimp only
      rw [hl]
    have hnow : (v.event 0x0B02 devUnit 1 [(16, 1, n), (17, 1, 1), (18, 1, t.key), (19, 1, 255)]).now = u.now :=
      ((State.event_keep ..).now rfl).trans ((State.lapse_keep ..).now rfl)
    rw [hnow] at ht
    exact ⟨i, hi, ht, h.conclude.trans (congrArg _ ((congrArg _ hrun).trans (conclude_lease hi)))⟩

theorem exec_leaseRenew (h : Executes defLeaseRenew s r t u) {n : Nat} {l : Lease} (hn : u.leaseNamed t.lease = some n) (hl : u.leaseOf n = some l) :
    let e := u.now + BitVec.ofNat 64 (rdLE (pkParams r.bytes) 0 2 * 100000000)
    exec (.leaseRenew r) s = .next (({ u with cq := { u.cq with leases := tset none u.cq.leases n (some { l with expiry := e }) } } : State).accepted
      defLeaseRenew r t (toLE 8 e.toNat)) := by
  refine h.ok ?_
  unfold defLeaseRenew
  dsimp only
  rw [hn]
  dsimp only
  rw [hl]

theorem exec_leaseRelease (h : Executes defLeaseRelease s r t u) {n : Nat} (hn : u.leaseNamed t.lease = some n) :
    exec (.leaseRelease r) s = .next ((u.endLease n 2 255).accepted defLeaseRelease r t []) := by
  refine h.ok ?_
  unfold defLeaseRelease
  dsimp only
  rw [hn]

theorem leaseTakeover_completes (h : Executes defLeaseTakeover s r t u) : let p := pkParams r.bytes; let n := rdLE p 0 1; let v := u.lapse n
    (t.authed = false → exec (.leaseTakeover r) s = .next (u.refusedWith r t stBAD_STATE)) ∧
    (∀ l, t.authed = true → v.leaseOf n = some l → let g := (v.endLease n 4 t.key).grantLease n t.key (rdLE p 1 2)
      ∃ i, g.lease = some i ∧ exec (.leaseTakeover r) s = .next ((g.s.remember defLeaseTakeover r t g.params).answer t false stOK i g.params)) ∧
    (t.authed = true → v.leaseOf n = none →
      let g := (v.event 0x0B02 devUnit 1 [(16, 1, n), (17, 1, 1), (18, 1, t.key), (19, 1, 255)]).grantLease n t.key (rdLE p 1 2)
      ∃ i, g.lease = some i ∧ exec (.leaseTakeover r) s = .next ((g.s.remember defLeaseTakeover r t g.params).answer t false stOK i g.params)) := by
  intro p n v
  have granted {w : State} (hrun : defLeaseTakeover.run u { req := r, rep := t, p := p } = w.grantLease n t.key (rdLE p 1 2)) :
      ∃ i, (w.grantLease n t.key (rdLE p 1 2)).lease = some i ∧ exec (.leaseTakeover r) s =
        .next (((w.grantLease n t.key (rdLE p 1 2)).s.remember defLeaseTakeover r t (w.grantLease n t.key (rdLE p 1 2)).params).answer t false stOK i
          (w.grantLease n t.key (rdLE p 1 2)).params) :=
    ⟨_, rfl, h.conclude.trans (congrArg _ ((congrArg _ hrun).trans (conclude_lease rfl)))⟩
  refine ⟨fun ha => h.refused (by decide) (if_neg (by simp [ha])), fun l ha hl => granted ((if_pos ha).trans ?_), fun ha hl => granted ((if_pos ha).trans ?_)⟩ <;>
  · dsimp only
    rw [hl]

/-! ### The key table (R501, R502). -/

theorem keytabGet_completes (h : Executes defKeytabGet s r t u) :
    (u.ktState = 0 → exec (.keytabGet r) s = .next (u.refusedWith r t stBAD_STATE)) ∧
    (u.ktState ≠ 0 → exec (.keytabGet r) s = .next (u.accepted defKeytabGet r t (u.flashBytes flKeys 0x440))) :=
  ⟨fun hk => h.refused (by decide) (if_pos hk), fun hk => h.ok (if_neg hk)⟩

theorem keytabInit_completes (h : Executes defKeytabInit s r t u) :
    (u.ktState ≠ 0 → exec (.keytabInit r) s = .next (u.refusedWith r t stBAD_STATE)) ∧
    (u.ktState = 0 → exec (.keytabInit r) s = .next ((u.changeKt (pkParams r.bytes)).accepted defKeytabInit r t [])) :=
  ⟨fun hk => h.refused (by decide) (if_pos hk), fun hk => h.ok (if_neg (not_not_intro hk))⟩

theorem keytabSet_completes (h : Executes defKeytabSet s r t u) :
    ((64 ≤ u.fuse.ktCtr ∨ u.ktState ≠ 1) → exec (.keytabSet r) s = .next (u.refusedWith r t stBAD_STATE)) ∧
    (u.fuse.ktCtr < 64 → u.ktState = 1 → exec (.keytabSet r) s = .next ((u.changeKt (pkParams r.bytes)).accepted defKeytabSet r t [])) :=
  ⟨fun hk => h.refused (by decide) (if_pos hk),
    fun hc hk => h.ok (if_neg (fun hn => hn.elim (fun hn => absurd hn (Nat.not_le.mpr hc)) (fun hn => hn hk)))⟩

theorem keytabRestore_completes (h : Executes defKeytabRestore s r t u) :
    (u.ktState ≠ 2 → exec (.keytabRestore r) s = .next (u.refusedWith r t stBAD_STATE)) ∧
    (u.ktState = 2 → u.ktBad (pkParams r.bytes) ≠ 0 → exec (.keytabRestore r) s = .next (u.refusedWith r t stOUT_OF_RANGE)) ∧
    (u.ktState = 2 → u.ktBad (pkParams r.bytes) = 0 → exec (.keytabRestore r) s = .next ((u.installKt (pkParams r.bytes)).accepted defKeytabRestore r t [])) :=
  ⟨fun hk => h.refused (by decide) (if_pos hk), fun hk hb => h.refused (by decide) ((if_neg (not_not_intro hk)).trans (if_pos hb)),
    fun hk hb => h.ok ((if_neg (not_not_intro hk)).trans (if_neg (not_not_intro hb)))⟩

end

/-- Settles O49: each command from its meaning. -/
theorem identityCommandsComplete : Obligations.IdentityCommandsComplete :=
  ⟨fun _ _ _ _ h => h.ok rfl, fun _ _ _ _ h => h.ok rfl, fun _ _ _ _ h => h.ok rfl, fun _ _ _ _ => certGet_completes, fun _ _ _ _ h => h.ok rfl,
    fun _ _ _ _ => sessionOpen_completes, fun _ _ _ _ => sessionConfirm_completes, fun _ _ _ _ h => h.ok rfl, fun _ _ _ _ => leaseAcquire_completes,
    fun _ _ _ _ _ _ h hn hl => exec_leaseRenew h hn hl, fun _ _ _ _ _ h hn => exec_leaseRelease h hn, fun _ _ _ _ => leaseTakeover_completes, fun _ _ _ _ h => h.ok rfl,
    fun _ _ _ _ h => h.ok rfl, fun _ _ _ _ => keytabGet_completes, fun _ _ _ _ => keytabInit_completes, fun _ _ _ _ => keytabSet_completes,
    fun _ _ _ _ => keytabRestore_completes⟩

end Sys2Proof.Machine
end
